-- ==== Sys2Proof/Word.lean ====
section
/-!
DEFINITION. The byte and word types of the device, the little- and big-endian byte orders of R8, and the
one table type that holds every numbered object and every addressed store of the state.
-/
namespace Sys2Proof

/-- One byte of a buffer, frame or record. -/
abbrev Byte := BitVec 8
/-- A 32-bit BAR0 register word (R41). -/
abbrev Word := BitVec 32
/-- A 64-bit long-time value, address or Q32.32 position (R9, R256). -/
abbrev DWord := BitVec 64

/-- The `n` low bytes of `x`, least significant first (R8, host fields). -/
def leBytes : Nat → Nat → List Byte
  | 0, _ => []
  | n + 1, x => BitVec.ofNat 8 x :: leBytes n (x / 256)

/-- The number whose little-endian bytes are given. -/
def leNat : List Byte → Nat
  | [] => 0
  | b :: r => b.toNat + 256 * leNat r

/-- The `n` low bytes of `x`, most significant first (R8, Virza and IEEE 1588 fields). -/
def beBytes (n x : Nat) : List Byte := (leBytes n x).reverse

/-- The number whose big-endian bytes are given. -/
def beNat (l : List Byte) : Nat := leNat l.reverse

/-- The two's complement integer held in the low `n` bits of `x`. -/
def signedOf (n x : Nat) : Int := (BitVec.ofNat n x).toInt

/-- The low `n` bits that hold the integer `i` in two's complement. -/
def bitsOf (n : Nat) (i : Int) : Nat := (BitVec.ofInt n i).toNat

/-- Bit `i` of a number. -/
def bitOf (x i : Nat) : Bool := x / 2 ^ i % 2 == 1

/-- The number that a Bool flag contributes at bit `i`. -/
def flagAt (b : Bool) (i : Nat) : Nat := if b then 2 ^ i else 0

/-- A table of numbered things: pairs of a number and a value. An unlisted number reads as the default
that the reader names; the canonical form is `Tab.wf`. -/
abbrev Tab (α : Type) := List (Nat × α)

/-- What the table holds at `k`, or `d` where it lists nothing. -/
def tget {α : Type} (d : α) : Tab α → Nat → α
  | [], _ => d
  | (a, x) :: r, k => if a = k then x else tget d r k

/-- The entries other than those at `k`. -/
def tdrop {α : Type} (t : Tab α) (k : Nat) : Tab α := t.filter (fun e => e.1 ≠ k)

/-- Put a pair before the first larger number. -/
def tinsert {α : Type} (k : Nat) (v : α) : Tab α → Tab α
  | [] => [(k, v)]
  | (a, x) :: r => if k < a then (k, v) :: (a, x) :: r else (a, x) :: tinsert k v r

/-- Write `v` at `k`; writing the default removes the entry. -/
def tset {α : Type} [DecidableEq α] (d : α) (t : Tab α) (k : Nat) (v : α) : Tab α :=
  if v = d then tdrop t k else tinsert k v (tdrop t k)

/-- The numbers that the table lists. -/
def tkeys {α : Type} (t : Tab α) : List Nat := t.map (·.1)

/-- Canonical form: numbers strictly rising and no entry equal to the default. -/
def Tab.wf {α : Type} [DecidableEq α] (d : α) : Tab α → Bool
  | [] => true
  | [(_, x)] => x ≠ d
  | (a, x) :: (b, y) :: r => x ≠ d && a < b && Tab.wf d ((b, y) :: r)

/-- A byte store: an unlisted byte reads as 0 (R440 for the command and completion buffers). -/
abbrev Mem := Tab Byte

/-- One byte of a store. -/
def mget (m : Mem) (a : Nat) : Byte := tget 0 m a

/-- Write one byte of a store. -/
def mset (m : Mem) (a : Nat) (b : Byte) : Mem := tset 0 m a b

/-- `n` successive bytes from `a`. -/
def mread (m : Mem) (a : Nat) : Nat → List Byte
  | 0 => []
  | n + 1 => mget m a :: mread m (a + 1) n

/-- Write successive bytes from `a`. -/
def mwrite (m : Mem) (a : Nat) : List Byte → Mem
  | [] => m
  | b :: r => mwrite (mset m a b) (a + 1) r

/-- Replace the element at `i` of a list. -/
def lset {α : Type} : List α → Nat → α → List α
  | [], _, _ => []
  | _ :: r, 0, v => v :: r
  | x :: r, i + 1, v => x :: lset r i v

/-- The element at `i` of a list, or the default. -/
def lget {α : Type} (d : α) : List α → Nat → α
  | [], _ => d
  | x :: _, 0 => x
  | _ :: r, i + 1 => lget d r i

end Sys2Proof
end

