-- ==== Sys2Proof/Config.lean ====
section
/-!
DEFINITION. What one part fixes and what the manual leaves open: free values. Nothing here has a body, so
no proof can see a value of it.
-/
namespace Sys2Proof.Config

/-- A free 64-bit value for each number of the free-value counter (R259 capture instants, open results). -/
opaque freeValue : Nat → BitVec 64
/-- A free 512-bit value for each counter number (the TRNG of R405, identity signatures of R392). -/
opaque freeWide : Nat → BitVec 512
/-- The 64-bit device serial number, fused (identity page of Host Interface and Mailboxes). -/
opaque uid : BitVec 64
/-- Whether an ML-DSA-87 signature (key, message, signature) verifies (FIPS 204, R376, R405). -/
opaque mlDsaVerify : List Byte → List Byte → List Byte → Bool
/-- The identity key's ML-DSA-87 signature of a message (R391, R392), for a number of the free-value counter. -/
opaque identitySign : Nat → List Byte → List Byte
/-- The DER identity certificate held in FeRAM (R391). -/
opaque certificate : List Byte
/-- SHA3-512 of the mask ROM (R392, M_ROM). -/
opaque romDigest : BitVec 512
/-- The fused hashes of vendor keys 0 and 1 (table "Fuse contents"). -/
opaque vendorHash : Nat → BitVec 512
/-- The number, plus 1, of the firmware object to which the firmware has assigned a flow of 256 or more; 0 for none (table "Flow
numbers"). -/
opaque firmwareFlow : Nat → Nat

/-- Where the MSI-X capability lies in configuration space, beyond the header (R39 gives no place). -/
opaque msixCap : Nat

/-- The part of a DUAL joint's feedforward torque that the second axis takes (R78 gives none), in 2^-80. -/
opaque dualShare : Nat → Int

/-- How far a distance lies below the exact one (R207), before it is brought to 0..1 mm; in 2^-80 m, for a number of the
free-value counter and the index of the use. -/
opaque distErr : Nat → Nat → Int

/-- The error of a channel's tool point (R87, R232), before it is brought within its bound; in 2^-80 m. -/
opaque poseErr : Nat → Nat → Int

/-- The FP32 word of an assembly sum (R142) whose order and rounding the manual does not give: for the index of the element
and its exact value in 2^-80. -/
opaque asmRound : Nat → Int → Nat

/-- The check bits of a 32-bit word (R37), whose code the manual does not give. -/
opaque checkBits : Nat → Nat

end Sys2Proof.Config
end

