-- ==== Sys2Proof/Syntax.lean ====
section
/-!
DEFINITION. The commands of the block: one constructor per row of spec/opcode_table.json, with the row's
operands. The 128 mailbox commands name the slot whose command buffer holds their header and payload (R45,
R47); the other rows carry what reaches the device from outside: a register write, a pin, a frame, an instant.
-/
namespace Sys2Proof

/-- The two dies. -/
inductive Die | m | f
  deriving DecidableEq, Repr, Inhabited

/-- The supervised rails (table "Rail monitors", R421). -/
inductive Rail | vddCore | vddSram | vddF | vccF
  deriving DecidableEq, Repr, Inhabited

/-- The two BARs the function implements (R39), and its configuration space (R430). -/
inductive Bar | bar0 | bar2 | cfg
  deriving DecidableEq, Repr, Inhabited

/-- The owner of a memory word with an uncorrectable error (table "Uncorrectable error by owner", R38);
`beforeRun` is an error found before RUN (R372). -/
inductive EccOwner
  | lane (l : Fin 64)
  | tile (t : Fin 32)
  | workspace
  | trace (session : Fin 8) (row : BitVec 32) (channel : Fin 16)
  | planning (groups : BitVec 16)
  | signals (n : Fin 131072)
  | scheduler
  | supervisor
  | hostSlot (mb : Fin 8) (slot : Fin 32)
  | hostStream (k : Fin 8)
  | bus (seg : Fin 8) (station : BitVec 8)
  | dieFSram
  | beforeRun
  deriving DecidableEq, Repr, Inhabited

/-- A mailbox command as SUP takes it: the mailbox and slot that hold it, the instant order being that of the
doorbells (R28), and the bytes that DMA fetched where INDIRECT_PAYLOAD is set (R50). -/
structure CmdRef where
  mb : Fin 8
  slot : Fin 32
  dma : List Byte := []
  deriving DecidableEq, Repr, Inhabited

/-- The line ports of a device in a peloton (R303). -/
inductive LinePort | up | down
  deriving DecidableEq, Repr, Inhabited

/-- A task descriptor as a producer enqueues it (table "Task descriptor"). -/
structure Descriptor where
  type : BitVec 16 := 0
  cls : Fin 5 := 0
  level : Fin 16 := 0
  unit : BitVec 8 := 255
  flags : BitVec 8 := 0
  flow : BitVec 16 := 0
  release : BitVec 32 := 0
  deadline : BitVec 32 := 0
  object : BitVec 32 := 0
  arg : BitVec 32 := 0
  origin : BitVec 32 := 0
  seq : BitVec 32 := 0
  deriving DecidableEq, Repr, Inhabited

/-- The PTP messages of the supported subset (R272), with the fields the device uses. Times are plant or
master nanoseconds in 2^-16 ns units as correctionField counts them (R274). -/
inductive PtpMsg
  | sync (origin : Int) (correction : Int) (twoStep : Bool) (rx : Int)
  | followUp (origin : Int) (correction : Int)
  | delayReq (rx : Int)
  | delayResp (t4 : Int) (correction : Int)
  | pdelayReq (rx : Int)
  | pdelayResp (t2 : Int) (correction : Int) (twoStep : Bool) (rx : Int)
  | pdelayRespFollowUp (t3 : Int) (correction : Int)
  | announce (gm : BitVec 64)
  | signaling
  | management
  | malformed
  deriving DecidableEq, Repr, Inhabited

/-- The periodic PTP transmissions of one port (R272 intervals) and whether the MAC captured the stamp (R275). -/
inductive PtpTick | sync | delay | announce
  deriving DecidableEq, Repr, Inhabited

/-- The identity a station reports in step 4 of a segment start. -/
structure StationId where
  aliasAddr : BitVec 8 := 0
  linksOk : Bool := true
  deriving DecidableEq, Repr, Inhabited

/-- One row of the table of operations and events. -/
inductive Instr
  /-- DEV_BOOT_STATUS (R385). -/
  | devBootStatus (c : CmdRef)
  /-- DEV_RESET (R395). -/
  | devReset (c : CmdRef)
  /-- DEV_CONFIRM_BOOT (R384). -/
  | devConfirmBoot (c : CmdRef)
  /-- DEV_LOAD_IMAGE (R388). -/
  | devLoadImage (c : CmdRef)
  /-- DEV_UPDATE_FW (R393). -/
  | devUpdateFw (c : CmdRef)
  /-- TIME_STATUS (R256). -/
  | timeStatus (c : CmdRef)
  /-- TIME_CONFIGURE (R268). -/
  | timeConfigure (c : CmdRef)
  /-- TIME_SET_PLANT (R267). -/
  | timeSetPlant (c : CmdRef)
  /-- TIME_PTP_PORT (R272). -/
  | timePtpPort (c : CmdRef)
  /-- TIME_PTP_STATUS (R275). -/
  | timePtpStatus (c : CmdRef)
  /-- BUS_SET_TIMING (R302). -/
  | busSetTiming (c : CmdRef)
  /-- BUS_CONFIGURE_SEGMENT (R278). -/
  | busConfigureSegment (c : CmdRef)
  /-- BUS_START (R296). -/
  | busStart (c : CmdRef)
  /-- BUS_STOP (R297). -/
  | busStop (c : CmdRef)
  /-- BUS_LOAD_MATRIX (R286). -/
  | busLoadMatrix (c : CmdRef)
  /-- BUS_SWITCH_MATRIX (R286). -/
  | busSwitchMatrix (c : CmdRef)
  /-- BUS_MAP_AXIS (R284). -/
  | busMapAxis (c : CmdRef)
  /-- BUS_SET_ALIAS (R296). -/
  | busSetAlias (c : CmdRef)
  /-- BUS_STATION_RESET (R294). -/
  | busStationReset (c : CmdRef)
  /-- BUS_REJOIN (R298). -/
  | busRejoin (c : CmdRef)
  /-- BUS_ACYCLIC (R289). -/
  | busAcyclic (c : CmdRef)
  /-- BUS_STATUS (R294). -/
  | busStatus (c : CmdRef)
  /-- PEL_CONFIGURE (R303). -/
  | pelConfigure (c : CmdRef)
  /-- PEL_START (R309). -/
  | pelStart (c : CmdRef)
  /-- PEL_STOP (R320). -/
  | pelStop (c : CmdRef)
  /-- PEL_HANDOVER (R320). -/
  | pelHandover (c : CmdRef)
  /-- PEL_FOLLOW_GM (R321). -/
  | pelFollowGm (c : CmdRef)
  /-- PEL_STATUS (R317). -/
  | pelStatus (c : CmdRef)
  /-- SCHED_STATUS (R253). -/
  | schedStatus (c : CmdRef)
  /-- SCHED_LOAD (R254). -/
  | schedLoad (c : CmdRef)
  /-- SCHED_WCET (R250). -/
  | schedWcet (c : CmdRef)
  /-- SCHED_SET_WATERMARKS (R245). -/
  | schedSetWatermarks (c : CmdRef)
  /-- SCHED_CLEAR_STATS (R253). -/
  | schedClearStats (c : CmdRef)
  /-- SCHED_FLOW_STATUS (R246). -/
  | schedFlowStatus (c : CmdRef)
  /-- SCHED_FLOW_LIMIT (R246). -/
  | schedFlowLimit (c : CmdRef)
  /-- SCHED_CANCEL (R255). -/
  | schedCancel (c : CmdRef)
  /-- SIG_MAP (R91). -/
  | sigMap (c : CmdRef)
  /-- SIG_READ (R92). -/
  | sigRead (c : CmdRef)
  /-- SIG_WRITE (R93). -/
  | sigWrite (c : CmdRef)
  /-- SIG_WATCH (R94). -/
  | sigWatch (c : CmdRef)
  /-- GRP_CONFIGURE (R70). -/
  | grpConfigure (c : CmdRef)
  /-- GRP_ENABLE (R72). -/
  | grpEnable (c : CmdRef)
  /-- GRP_DISABLE (R72). -/
  | grpDisable (c : CmdRef)
  /-- GRP_MOVE (R106). -/
  | grpMove (c : CmdRef)
  /-- GRP_HOLD (R113). -/
  | grpHold (c : CmdRef)
  /-- GRP_RESUME (R114). -/
  | grpResume (c : CmdRef)
  /-- GRP_HOME (R124). -/
  | grpHome (c : CmdRef)
  /-- GRP_CLEAR (R74). -/
  | grpClear (c : CmdRef)
  /-- GRP_SET_PAYLOAD (R83). -/
  | grpSetPayload (c : CmdRef)
  /-- GRP_STOP (R76). -/
  | grpStop (c : CmdRef)
  /-- GRP_STATUS (R71). -/
  | grpStatus (c : CmdRef)
  /-- AXIS_CONFIGURE (R66). -/
  | axisConfigure (c : CmdRef)
  /-- AXIS_ENABLE (R66). -/
  | axisEnable (c : CmdRef)
  /-- AXIS_DISABLE (R66). -/
  | axisDisable (c : CmdRef)
  /-- AXIS_CLOSE (R179). -/
  | axisClose (c : CmdRef)
  /-- AXIS_OPEN (R66). -/
  | axisOpen (c : CmdRef)
  /-- AXIS_CLEAR (R67). -/
  | axisClear (c : CmdRef)
  /-- AXIS_MOVE (R98). -/
  | axisMove (c : CmdRef)
  /-- AXIS_SET_LIMITS (R102). -/
  | axisSetLimits (c : CmdRef)
  /-- AXIS_STOP (R76). -/
  | axisStop (c : CmdRef)
  /-- STRM_ATTACH (R116). -/
  | strmAttach (c : CmdRef)
  /-- STRM_DETACH (R120). -/
  | strmDetach (c : CmdRef)
  /-- STRM_ANCHOR (R119). -/
  | strmAnchor (c : CmdRef)
  /-- QP_DEFINE_CLASS (R140). -/
  | qpDefineClass (c : CmdRef)
  /-- QP_REMOVE_CLASS (R140). -/
  | qpRemoveClass (c : CmdRef)
  /-- QP_ASSIGN (R141). -/
  | qpAssign (c : CmdRef)
  /-- QP_CONFIGURE (R150). -/
  | qpConfigure (c : CmdRef)
  /-- QP_STATUS (R157). -/
  | qpStatus (c : CmdRef)
  /-- QP_RESULT (R151). -/
  | qpResult (c : CmdRef)
  /-- LOOP_CONFIGURE (R164). -/
  | loopConfigure (c : CmdRef)
  /-- LOOP_SET_COMP (R181). -/
  | loopSetComp (c : CmdRef)
  /-- LOOP_SET_FILTER (R171). -/
  | loopSetFilter (c : CmdRef)
  /-- LOOP_SET_CASCADE (R172). -/
  | loopSetCascade (c : CmdRef)
  /-- LOOP_SET_COEFF (R182). -/
  | loopSetCoeff (c : CmdRef)
  /-- LOOP_SET_LIMITS (R185). -/
  | loopSetLimits (c : CmdRef)
  /-- LOOP_STATUS (R175). -/
  | loopStatus (c : CmdRef)
  /-- LOOP_READ_COEFF (R187). -/
  | loopReadCoeff (c : CmdRef)
  /-- TRACE_CONFIGURE (R191). -/
  | traceConfigure (c : CmdRef)
  /-- TRACE_SET_LENGTH (R192). -/
  | traceSetLength (c : CmdRef)
  /-- TRACE_ARM (R193). -/
  | traceArm (c : CmdRef)
  /-- TRACE_TRIGGER (R193). -/
  | traceTrigger (c : CmdRef)
  /-- TRACE_STOP (R194). -/
  | traceStop (c : CmdRef)
  /-- TRACE_STATUS (R190). -/
  | traceStatus (c : CmdRef)
  /-- TRACE_READ (R196). -/
  | traceRead (c : CmdRef)
  /-- TRACE_INJECT (R200). -/
  | traceInject (c : CmdRef)
  /-- TRACE_INJECT_STOP (R201). -/
  | traceInjectStop (c : CmdRef)
  /-- TRACE_FRF (R202). -/
  | traceFrf (c : CmdRef)
  /-- ZONE_DEFINE (R208). -/
  | zoneDefine (c : CmdRef)
  /-- ZONE_REQUEST (R210). -/
  | zoneRequest (c : CmdRef)
  /-- ZONE_RELEASE (R211). -/
  | zoneRelease (c : CmdRef)
  /-- ZONE_STATUS (R210). -/
  | zoneStatus (c : CmdRef)
  /-- SSM_CONFIGURE (R231). -/
  | ssmConfigure (c : CmdRef)
  /-- SSM_SET_GROUP (R227). -/
  | ssmSetGroup (c : CmdRef)
  /-- SSM_SET_OBSTACLES (R206). -/
  | ssmSetObstacles (c : CmdRef)
  /-- SSM_SET_SENSOR (R220). -/
  | ssmSetSensor (c : CmdRef)
  /-- SSM_STATUS (R228). -/
  | ssmStatus (c : CmdRef)
  /-- IO_CONFIGURE (R322). -/
  | ioConfigure (c : CmdRef)
  /-- IO_CONFIGURE_GROUP (R341). -/
  | ioConfigureGroup (c : CmdRef)
  /-- IO_SET_WATCHDOG (R339). -/
  | ioSetWatchdog (c : CmdRef)
  /-- IO_WRITE (R330). -/
  | ioWrite (c : CmdRef)
  /-- IO_REENABLE (R337). -/
  | ioReenable (c : CmdRef)
  /-- IO_RELEASE_SAFE (R340). -/
  | ioReleaseSafe (c : CmdRef)
  /-- IO_STO_RESET (R342). -/
  | ioStoReset (c : CmdRef)
  /-- IO_STATUS (R331). -/
  | ioStatus (c : CmdRef)
  /-- STP_CONFIGURE (R344). -/
  | stpConfigure (c : CmdRef)
  /-- STP_ENABLE (R351). -/
  | stpEnable (c : CmdRef)
  /-- STP_DISABLE (R351). -/
  | stpDisable (c : CmdRef)
  /-- STP_MOVE (R352). -/
  | stpMove (c : CmdRef)
  /-- STP_STOP (R353). -/
  | stpStop (c : CmdRef)
  /-- STP_HOME (R355). -/
  | stpHome (c : CmdRef)
  /-- STP_SET_LIMITS (R347). -/
  | stpSetLimits (c : CmdRef)
  /-- STP_CLEAR (R354). -/
  | stpClear (c : CmdRef)
  /-- STP_STATUS (R350). -/
  | stpStatus (c : CmdRef)
  /-- PC_SELECT (R415). -/
  | pcSelect (c : CmdRef)
  /-- PC_SPOKE_INFO (R408). -/
  | pcSpokeInfo (c : CmdRef)
  /-- JRN_STATUS (R397). -/
  | jrnStatus (c : CmdRef)
  /-- JRN_READ (R404). -/
  | jrnRead (c : CmdRef)
  /-- JRN_CHALLENGE (R405). -/
  | jrnChallenge (c : CmdRef)
  /-- JRN_TRUNCATE (R405). -/
  | jrnTruncate (c : CmdRef)
  /-- JRN_CONFIGURE (R403). -/
  | jrnConfigure (c : CmdRef)
  /-- JRN_ANNOTATE (R397). -/
  | jrnAnnotate (c : CmdRef)
  /-- SEC_ATTEST (R392). -/
  | secAttest (c : CmdRef)
  /-- SEC_GET_CERT (R391). -/
  | secGetCert (c : CmdRef)
  /-- SEC_FUSE_STATUS (R380). -/
  | secFuseStatus (c : CmdRef)
  /-- SEC_SET_OWNER (R381). -/
  | secSetOwner (c : CmdRef)
  /-- SEC_REVOKE_OWNER (R379). -/
  | secRevokeOwner (c : CmdRef)
  /-- SEC_ADVANCE_SVN (R380). -/
  | secAdvanceSvn (c : CmdRef)
  /-- SEC_REVOKE_VENDOR (R378). -/
  | secRevokeVendor (c : CmdRef)
  /-- COMMAND_NO_CREDIT (R54). -/
  | commandNoCredit (mb : Fin 8) (slot : Fin 32)
  /-- MB_DONE_CLEAR (R48). -/
  | mbDoneClear (mb : Fin 8) (w : Word)
  /-- MB_STAT_CLEAR (R46). -/
  | mbStatClear (mb : Fin 8) (w : Word)
  /-- COMMAND_BUFFER_WRITE (R47). -/
  | commandBufferWrite (mb : Fin 8) (slot : Fin 32) (off : BitVec 12) (bytes : List Byte)
  /-- EVT_PEND_CLEAR (R61). -/
  | evtPendClear (i : Fin 4) (w : Word) (again : Word)
  /-- EVT_LOST_CLEAR (R61). -/
  | evtLostClear (i : Fin 4) (w : Word)
  /-- EVT_MASK_WRITE (R60). -/
  | evtMaskWrite (i : Fin 4) (w : Word)
  /-- EVT_MAP_WRITE (R60). -/
  | evtMapWrite (i : Fin 32) (w : Word)
  /-- TIME_LO_READ (R41). -/
  | timeLoRead (wide : Bool)
  /-- TIME_LATCH (R259). -/
  | timeLatch (w : Word)
  /-- HUB_CTL_WRITE (R411). -/
  | hubCtlWrite (w : Word)
  /-- HUB_PERIOD_WRITE (R409). -/
  | hubPeriodWrite (w : Word)
  /-- HUB_RD_WRITE (R412). -/
  | hubRdWrite (w : Word)
  /-- HUB_MIRROR_WRITE (R414). -/
  | hubMirrorWrite (hi : Bool) (w : Word)
  /-- USR_GRANT_WRITE (R57). -/
  | usrGrantWrite (w : Word)
  /-- USR_CTL_WRITE (R57). -/
  | usrCtlWrite (w : Word)
  /-- USR_WIN_WRITE (R57). -/
  | usrWinWrite (w : Word)
  /-- STREAM_PROD_WRITE (R62, R63): for a ring in host memory, `recs` are the records that the host has written at the
  last PROD and after it. -/
  | streamProdWrite (k : Fin 8) (w : Word) (recs : List Byte)
  /-- REGISTER_WRITE (R43). -/
  | registerWrite (bar : Bar) (off : BitVec 32) (bytes : List Byte)
  /-- PORST_N_ASSERT (R372). -/
  | porstNAssert
  /-- PORST_N_RELEASE (R370). -/
  | porstNRelease (bootsel : BitVec 2) (stnaddr : BitVec 5)
  /-- LINK_RESET (R40). -/
  | linkReset
  /-- PFAIL_N_ASSERT (R402). -/
  | pfailNAssert
  /-- PFAIL_N_RELEASE (R402). -/
  | pfailNRelease
  /-- PWR_WARN (R421). -/
  | pwrWarn (rail : Rail)
  /-- RAIL_RESET_EXCURSION (R421). -/
  | railResetExcursion (rail : Rail)
  /-- RAIL_RESET_RELEASE (R421). -/
  | railResetRelease (rail : Rail)
  /-- THERM_WARN (R360). -/
  | thermWarn
  /-- THERM_WARN_CLEAR (R360). -/
  | thermWarnClear
  /-- THERM_CRIT (R360). -/
  | thermCrit
  /-- THERM_CRIT_CLEAR (R360). -/
  | thermCritClear
  /-- THERM_SHUTDOWN (R360). -/
  | thermShutdown
  /-- SUP_LOCKSTEP (R14). -/
  | supLockstep
  /-- F_LOCKSTEP (R14). -/
  | fLockstep
  /-- SUPERVISOR_WATCHDOG (R360). -/
  | supervisorWatchdog
  /-- CLOCK_M (R12). -/
  | clockM
  /-- ECC_UNCORRECTABLE (R38). -/
  | eccUncorrectable (owner : EccOwner)
  /-- ECC_CORRECTED (R38). -/
  | eccCorrected (spoke : Fin 143)
  /-- XLINK_FLIT (R15). -/
  | xlinkFlit (dest : Die) (flit : List Byte)
  /-- XLINK_NAK (R15). -/
  | xlinkNak (dest : Die) (seq : BitVec 12)
  /-- XLINK_LOST (R18). -/
  | xlinkLost
  /-- XLINK_UP (R370). -/
  | xlinkUp
  /-- XLINK_TRAIN_TIMEOUT (R383). -/
  | xlinkTrainTimeout
  /-- TIME_ALIGN_FLIT (R17). -/
  | timeAlignFlit (error : BitVec 8)
  /-- FIELD_OUTPUT_IMAGE (R330). -/
  | fieldOutputImage (crcOk : Bool)
  /-- FIELD_INPUT_IMAGE (R339). -/
  | fieldInputImage
  /-- BLACK_CHANNEL_COPY (R285). -/
  | blackChannelCopy (a : Fin 128) (entry : List Byte)
  /-- STEP_COMMAND_RECORD (R348). -/
  | stepCommandRecord
  /-- CH2_VERDICT (R234). -/
  | ch2Verdict (pair : Fin 8)
  /-- DIE_F_ACTION_REPORT (R261). -/
  | dieFActionReport (u : Fin 256)
  /-- CADENCE_START (R21). -/
  | cadenceStart
  /-- FEEDBACK_CUTOFF (R22). -/
  | feedbackCutoff
  /-- COMPUTE_END (R23). -/
  | computeEnd
  /-- TRC_FULL (R193). -/
  | trcFull (session : Fin 8)
  /-- PLANNING_BOUNDARY (R25). -/
  | planningBoundary
  /-- ZONE_REFUSED (R210). -/
  | zoneRefused (z : Fin 64)
  /-- ASM_PHASE_START (R143). -/
  | asmPhaseStart
  /-- LANE_WINDOW_START (R149). -/
  | laneWindowStart
  /-- QP_PROBLEM_DONE (R148). -/
  | qpProblemDone (lane : Fin 64)
  /-- QP_DEADLINE (R156). -/
  | qpDeadline (g : Fin 16) (j : Fin 4)
  /-- SELECTION_PHASE (R151). -/
  | selectionPhase (g : Fin 16)
  /-- SHIFT_STOP (R158). -/
  | shiftStop (g : Fin 16)
  /-- GUARD_BOUNDARY (R221). -/
  | guardBoundary
  /-- SENSOR_STALE (R222). -/
  | sensorStale (n : Fin 16)
  /-- VERDICT_DEADLINE (R26). -/
  | verdictDeadline
  /-- TANDEM_MISMATCH (R235). -/
  | tandemMismatch (g : Fin 16)
  /-- VERDICT_ABSENT (R235). -/
  | verdictAbsent (g : Fin 16)
  /-- SPEED_EXCEEDED (R230). -/
  | speedExceeded (g : Fin 16) (second : Bool)
  /-- CH2_FEEDBACK (R233). -/
  | ch2Feedback (g : Fin 16)
  /-- CH2_OVERRIDE (R236). -/
  | ch2Override (g : Fin 16)
  /-- SENSOR_RECORD (R220). -/
  | sensorRecord (seg : Fin 8) (station : BitVec 8) (bytes : List Byte)
  /-- ROUND_START (R286). -/
  | roundStart
  /-- LATCH_INSTANT (R410). -/
  | latchInstant
  /-- HUB_DUMP (R411). -/
  | hubDump (dieF : Bool)
  /-- HUB_MIRROR_ERR (R414). -/
  | hubMirrorErr
  /-- STATION_FRAME (R288). -/
  | stationFrame (seg : Fin 8) (port : Fin 16) (sfd : BitVec 32) (frame : List Byte)
  /-- FOREIGN_FRAME (R280). -/
  | foreignFrame (port : Fin 16)
  /-- STATION_SILENCED (R294). -/
  | stationSilenced (seg : Fin 8) (station : BitVec 8)
  /-- FREEWHEEL_EXPIRED (R300). -/
  | freewheelExpired (a : Fin 128)
  /-- MASTER_COLLISION (R297). -/
  | masterCollision (seg : Fin 8) (other : BitVec 64)
  /-- COLLISION_WAIT_END (R297). -/
  | collisionWaitEnd (seg : Fin 8)
  /-- RING_CHANGEOVER (R298). -/
  | ringChangeover (seg : Fin 8)
  /-- VZ_LINK_DOWN (R298). -/
  | vzLinkDown (port : Fin 16)
  /-- ENUM_RETURN (R296). -/
  | enumReturn (seg : Fin 8) (stations : List StationId)
  /-- DELAY_RETURN (R292). -/
  | delayReturn (seg : Fin 8) (delays : List (BitVec 32 × BitVec 32))
  /-- ARB_FRAME_RETURN (R290). -/
  | arbFrameReturn (seg : Fin 8) (column : Fin 32) (station : BitVec 8)
  /-- ACYCLIC_FRAME (R290). -/
  | acyclicFrame (seg : Fin 8) (station : BitVec 8) (bytes : List Byte)
  /-- ACYCLIC_TIMEOUT (R289). -/
  | acyclicTimeout (mb : Fin 8) (slot : Fin 32)
  /-- PELOTON_SYNC (R313). -/
  | pelotonSync (port : LinePort) (rx : BitVec 64) (frame : List Byte)
  /-- PELOTON_DELAY_REQ (R311). -/
  | pelotonDelayReq (port : LinePort) (rx : BitVec 64) (frame : List Byte)
  /-- PELOTON_DELAY_RESP (R311). -/
  | pelotonDelayResp (port : LinePort) (t1 : BitVec 64) (t4 : BitVec 64) (frame : List Byte)
  /-- PELOTON_ENUM (R307). -/
  | pelotonEnum (port : LinePort) (frame : List Byte)
  /-- PELOTON_CONFIG (R309). -/
  | pelotonConfig (port : LinePort) (frame : List Byte)
  /-- PEL_START_TIMEOUT (R309). -/
  | pelStartTimeout
  /-- PEL_SYNC_SET (R314). -/
  | pelSyncSet
  /-- PEL_SYNC_LOST (R314). -/
  | pelSyncLost
  /-- PEL_TAKEOVER (R318). -/
  | pelTakeover
  /-- ANNOUNCEMENT_APPLY (R316). -/
  | announcementApply
  /-- PTP_MESSAGE (R273). -/
  | ptpMessage (p : Fin 4) (msg : PtpMsg)
  /-- PTP_INTERVAL (R274). -/
  | ptpInterval (p : Fin 4) (tick : PtpTick) (stamped : Bool)
  /-- PTP_ANNOUNCE_TIMEOUT (R321). -/
  | ptpAnnounceTimeout (p : Fin 4)
  /-- GM_SERVO_INTERVAL (R321). -/
  | gmServoInterval (mean : BitVec 64)
  /-- TIMED_ACTION_FIRE (R262). -/
  | timedActionFire (u : Fin 256)
  /-- TASK_RELEASE (R240). -/
  | taskRelease (d : Descriptor)
  /-- TASK_DISPATCH (R240). -/
  | taskDispatch (cls : Fin 5)
  /-- TASK_END (R241). -/
  | taskEnd (cls : Fin 5) (unit : Fin 64)
  /-- FFT_SLICE_END (R241). -/
  | fftSliceEnd (tile : Fin 32)
  /-- SCHED_DEADLINE_MISS (R248). -/
  | schedDeadlineMiss (cls : Fin 5) (flow : BitVec 16)
  /-- ENQUEUE_RESUME (R245). -/
  | enqueueResume (cls : Fin 5)
  /-- INPUT_LEVEL_CHANGE (R325). -/
  | inputLevelChange (c : Fin 32) (level : Bool)
  /-- INPUT_FILTERED (R325). -/
  | inputFiltered (c : Fin 32)
  /-- INPUT_QUALIFIED (R127). -/
  | inputQualified (c : Fin 32)
  /-- CHATTER (R127). -/
  | chatter (c : Fin 32)
  /-- NOT_FOUND (R129). -/
  | notFound (a : Fin 128)
  /-- HARD_STOP_LATCH (R124). -/
  | hardStopLatch (a : Fin 128)
  /-- GROUP_SETTLED (R115). -/
  | groupSettled (g : Fin 16)
  /-- ENABLE_TIMEOUT (R66). -/
  | enableTimeout (a : Fin 128)
  /-- DISABLE_TIMEOUT (R66). -/
  | disableTimeout (a : Fin 128)
  /-- GROUP_ENABLE_TIMEOUT (R72). -/
  | groupEnableTimeout (g : Fin 16)
  /-- INJECTION_COMPLETE (R201). -/
  | injectionComplete (a : Fin 128)
  /-- FRF_COMPLETE (R203). -/
  | frfComplete
  /-- OPEN_INPUT (R326). -/
  | openInput (c : Fin 32) (low : Bool)
  /-- OVERTEMP (R331). -/
  | overtemp (c : Fin 32) (tj : BitVec 8)
  /-- OVERTEMP_TRIP (R333). -/
  | overtempTrip (c : Fin 32) (tj : BitVec 8)
  /-- OVERLOAD (R331). -/
  | overload (c : Fin 32)
  /-- GROUP_OVERLOAD (R334). -/
  | groupOverload (x : Fin 4) (currents : List (BitVec 16))
  /-- SHORT_FLP (R331). -/
  | shortFlp (c : Fin 32)
  /-- OPEN_OFF (R331). -/
  | openOff (c : Fin 32)
  /-- OPEN_ON (R331). -/
  | openOn (c : Fin 32)
  /-- CODE_CLEARED (R332). -/
  | codeCleared (c : Fin 32) (code : BitVec 8)
  /-- CHANNEL_RESTART (R333). -/
  | channelRestart (c : Fin 32)
  /-- SUPPLY_LOW (R336). -/
  | supplyLow (x : Fin 4) (mv : BitVec 16)
  /-- SUPPLY_CUT (R336). -/
  | supplyCut (x : Fin 4) (mv : BitVec 16)
  /-- SUPPLY_OVER (R336). -/
  | supplyOver (x : Fin 4) (mv : BitVec 16)
  /-- SUPPLY_LATCH_RELEASE (R337). -/
  | supplyLatchRelease (x : Fin 4)
  /-- LOGIC_SILENCE (R339). -/
  | logicSilence
  /-- STP_HOLD_ASSERT (R351). -/
  | stpHoldAssert (n : Fin 16)
  /-- JOURNAL_RECORD_SEND (R399). -/
  | journalRecordSend
  /-- JOURNAL_WRITE (R400). -/
  | journalWrite
  /-- HOLDUP_WINDOW_END (R402). -/
  | holdupWindowEnd
  /-- HOLDUP_DONE (R402). -/
  | holdupDone
  /-- HOLDUP_CHECK (R403). -/
  | holdupCheck (cMeas : BitVec 16)
  /-- TRUNCATE_ERASE_DONE (R405). -/
  | truncateEraseDone
  /-- LPDDR_TRAINED (R370). -/
  | lpddrTrained
  /-- STAGED_IMAGE_FOUND (R375). -/
  | stagedImageFound
  /-- CONTAINER_LOADED (R382). -/
  | containerLoaded
  /-- FIRMWARE_HANDOVER (R370). -/
  | firmwareHandover
  /-- LPDDR_INIT_DONE (R370). -/
  | lpddrInitDone
  /-- BOOT_RUN (R370). -/
  | bootRun
  /-- IMAGE_RECORD_REPLAY (R388). -/
  | imageRecordReplay
  /-- ROM_WATCHDOG (R371). -/
  | romWatchdog
  /-- INIT_WATCHDOG (R371). -/
  | initWatchdog
  /-- BOOT_UNCONFIRMED (R384). -/
  | bootUnconfirmed
  /-- DEVICE_RESET (R372). -/
  | deviceReset (bootsel : BitVec 2) (stnaddr : BitVec 5)
  /-- MB_DOORBELL (R45). -/
  | mbDoorbell (mb : Fin 8) (w : Word)
  /-- BAD_OPCODE_COMMAND (R440). -/
  | badOpcodeCommand (c : CmdRef)
  /-- FW_UPDATE_DONE (R393). -/
  | fwUpdateDone
  /-- FLP_FIRST_RISE (R337). -/
  | flpFirstRise (x : Fin 4) (mv : BitVec 16)
  deriving DecidableEq, Repr

end Sys2Proof
end

