-- ==== Sys2Proof/WellFormed.lean ====
section
/-!
DEFINITION. Which commands are well formed: what no part of the block could present to it. Every other command is
well formed, and its meaning is total.
-/
namespace Sys2Proof

/-- A frame on a wire is not empty and not longer than an Ethernet frame carries (R279). -/
def frameOk (f : List Byte) : Bool := f ≠ [] && f.length ≤ 1522

/-- The commands that can reach the block (R15 flits of 32 bytes, R41 accesses, R43 windows, R50 payloads; a feedback entry with its envelope and trailer, R284). -/
def Instr.wellFormed : Instr → Bool
  | .commandBufferWrite _ _ off bytes => bytes ≠ [] && off.toNat + bytes.length ≤ 4096
  | .registerWrite _ _ bytes => bytes ≠ [] && bytes.length ≤ 512
  | .xlinkFlit _ flit => flit.length = 32
  | .blackChannelCopy _ entry => entry.length = 34
  | .sensorRecord _ _ bytes => bytes.length ≤ 512
  | .stationFrame _ _ _ frame => frameOk frame
  | .pelotonSync _ _ frame => frameOk frame
  | .pelotonDelayReq _ _ frame => frameOk frame
  | .pelotonDelayResp _ _ _ frame => frameOk frame
  | .pelotonEnum _ frame => frameOk frame
  | .pelotonConfig _ frame => frameOk frame
  | .groupOverload _ currents => currents.length = 8
  | _ => true

end Sys2Proof
end

