-- ==== Sys2Proof/Machine/Hash.lean ====
section
/-!
DEFINITION. Checks over bytes: the CRC-16 of crosslink flits, the reflected CRC-32 of records and frames, and
SHA3-512 (FIPS 202) of containers and keys.
-/
namespace Sys2Proof.Machine

/-- One bit of a CRC-16 with polynomial 0x1021, most significant bit first. -/
def crc16Bits : Nat → BitVec 16 → BitVec 16
  | 0, c => c
  | n + 1, c => crc16Bits n (if c.msb then (c <<< 1) ^^^ 0x1021#16 else c <<< 1)

/-- CRC-16, polynomial 0x1021, from the value `c` (table "Crosslink flit layout": initial value 0xFFFF). -/
def crc16From (c : BitVec 16) (l : List Byte) : BitVec 16 :=
  l.foldl (fun c b => crc16Bits 8 (c ^^^ (b.setWidth 16).shiftLeft 8)) c

/-- One bit of a reflected CRC-32. -/
def crc32Bits (poly : BitVec 32) : Nat → BitVec 32 → BitVec 32
  | 0, c => c
  | n + 1, c => crc32Bits poly n (if c.getLsbD 0 then (c >>> 1) ^^^ poly else c >>> 1)

/-- Reflected CRC-32 with initial value and final XOR all ones, for a reversed polynomial. -/
def crc32With (poly : BitVec 32) (l : List Byte) : BitVec 32 :=
  ~~~(l.foldl (fun c b => crc32Bits poly 8 (c ^^^ b.setWidth 32)) (BitVec.allOnes 32))

/-- CRC-32 with polynomial 0x04C1_1DB7, reflected (table "Journal record"; the Ethernet FCS). -/
def crc32 (l : List Byte) : BitVec 32 := crc32With 0xEDB88320#32 l

/-- CRC-32C (R220, R284). -/
def crc32c (l : List Byte) : BitVec 32 := crc32With 0x82F63B78#32 l

/-! SHA3-512, the digest that R377, R378, R392 and R405 name. The permutation is computed from its definition: the offsets of ρ are the
triangular numbers along the walk of π, and the bits of ι come from the shift register of its polynomial. -/

/-- The 25 lanes of 64 bits, row after row. -/
abbrev Sheet := List (BitVec 64)

/-- θ: every lane takes the parity of the column before it and, turned by one, of the column after it. -/
def theta (s : Sheet) : Sheet :=
  let parity := (List.range 5).map (fun x => (List.range 5).foldl (fun p y => p ^^^ lget 0 s (5 * y + x)) 0)
  let turn := (List.range 5).map (fun x => lget 0 parity ((x + 4) % 5) ^^^ (lget 0 parity ((x + 1) % 5)).rotateLeft 1)
  (s.zip (turn ++ turn ++ turn ++ turn ++ turn)).map (fun e => e.1 ^^^ e.2)

/-- ρ and π: from lane (1, 0) on, the lane at hand moves to (y, 2x + 3y), turned by the next triangular number, and the lane that stood
there moves next. -/
def walk : Nat → Nat → Nat → Nat → BitVec 64 → Sheet → Sheet
  | 0, _, _, _, _, s => s
  | n + 1, k, x, y, w, s =>
    let at' := y + 5 * ((2 * x + 3 * y) % 5)
    walk n (k + 1) y ((2 * x + 3 * y) % 5) (lget 0 s at') (lset s at' (w.rotateLeft (k * (k + 1) / 2 % 64)))

/-- χ along the rows. -/
def chi : Sheet → Sheet
  | p :: q :: r :: t :: u :: rest =>
    (p ^^^ (r &&& ~~~q)) :: (q ^^^ (t &&& ~~~r)) :: (r ^^^ (u &&& ~~~t)) :: (t ^^^ (p &&& ~~~u)) :: (u ^^^ (q &&& ~~~p)) :: chi rest
  | _ => []

/-- ι: seven bits of the shift register, and the register after them. -/
def iotaBits : Nat → Nat → Nat → BitVec 64 → Nat × BitVec 64
  | 0, _, g, w => (g, w)
  | n + 1, j, g, w =>
    let h := (g * 2) ^^^ (g / 128 * 0x171)
    iotaBits n (j + 1) h (if h / 2 % 2 = 1 then w ^^^ BitVec.twoPow 64 (2 ^ j - 1) else w)

/-- The rounds. -/
def rounds : Nat → Nat → Sheet → Sheet
  | 0, _, s => s
  | n + 1, g, s =>
    let t := theta s
    let u := chi (walk 24 1 1 0 (lget 0 t 1) t)
    let r := iotaBits 7 0 g (lget 0 u 0)
    rounds n r.1 (lset u 0 r.2)

/-- XOR a block of bytes into the first lanes. -/
def absorb : Sheet → List Byte → Sheet
  | [], _ => []
  | l :: r, b => (l ^^^ BitVec.ofNat 64 (leNat (b.take 8))) :: absorb r (b.drop 8)

/-- Absorb a message of `n` blocks of 72 bytes. -/
def absorbAll : Nat → Sheet → List Byte → Sheet
  | 0, a, _ => a
  | n + 1, a, m => absorbAll n (rounds 24 1 (absorb a (m.take 72))) (m.drop 72)

/-- SHA3-512 of a byte string (FIPS 202). -/
def sha3 (m : List Byte) : List Byte :=
  let n := m.length / 72 + 1
  let z := 72 * n - m.length
  let pad : List Byte := if z = 1 then [0x86] else [0x06] ++ List.replicate (z - 2) 0 ++ [0x80]
  ((absorbAll n (List.replicate 25 0) (m ++ pad)).take 8).flatMap (fun l => leBytes 8 l.toNat)

/-- The 512-bit number of a digest. -/
def digestNat (d : List Byte) : BitVec 512 := BitVec.ofNat 512 (leNat d)

end Sys2Proof.Machine
end

