-- ==== Sys2Proof/Machine/StHost.lean ====
section
/-!
DEFINITION. State of the HOST island: mailboxes and slots (R45 to R48), BAR2 buffers (R43), the event block
(R59 to R61), the user page (R57), the host stream headers (R62, R63) and the status codes of R52.
-/
namespace Sys2Proof.Machine

/-- DEVSTAT.MODE (table "DEVSTAT fields"). -/
inductive Mode | reset | boot | init | run | kickstand | fault
  deriving DecidableEq, Repr, Inhabited

/-- The status codes of the table "Status codes" (R52). -/
inductive Status
  | ok | okAdjusted | badOpcode | badLength | badObject | badArg | outOfRange | stateConflict | objectBusy
  | notConfigured | notSchedulable | timeWindow | lateDropped | cancelled | noCredit | noMemory
  | notPrivileged | signatureInvalid | rollback | deviceFault | kickstand
  deriving DecidableEq, Repr, Inhabited

/-- The state of one mailbox slot (section "Mailboxes"). -/
inductive Slot | free | posted | done
  deriving DecidableEq, Repr, Inhabited

/-- One mailbox: its slots and the fields of MB_STAT (table "Mailbox m registers"). `bells` holds, for each POSTED slot that SUP
has not taken yet, one more than the instant of its doorbell (R45). -/
structure Mailbox where
  slots : Tab Slot := []
  bells : Tab Nat := []
  overrun : Bool := false
  violation : Bool := false
  lastOverrun : BitVec 5 := 0
  overrunCount : BitVec 16 := 0
  deriving DecidableEq, Repr, Inhabited

/-- The event block (table "Event block registers"). EVT_MAP entries are listed where they differ from the
reset map e >> 2. `sent` is the model's: per vector, one more than the tick of its last message (R60). -/
structure EvtBlock where
  pend : BitVec 128 := 0
  mask : BitVec 128 := BitVec.allOnes 128
  lost : BitVec 128 := 0
  map : List (BitVec 8) := (List.range 128).map (fun e => BitVec.ofNat 8 (e / 4))
  sent : Tab Nat := []
  deriving DecidableEq, Repr, Inhabited

/-- What lies in a host stream header (table "Host stream header") and the R116 attachment of the stream. -/
structure Stream where
  prod : Nat := 0
  prodSeen : Nat := 0
  cons : Nat := 0
  count : Nat := 0
  lowWater : Nat := 0
  attached : Bool := false
  inHost : Bool := false
  low : Bool := false
  needsAnchor : Bool := false
  prodInvalid : Bool := false
  underruns : Word := 0
  discards : Word := 0
  ringAddr : Nat := 0
  lastStamp : DWord := 0
  group : Nat := 0
  kind : Nat := 0
  lastSeq : Option Word := none
  started : Bool := false
  deriving DecidableEq, Repr, Inhabited

/-- The HOST island. `msix` is the MSI-X table with the vector control words of PCIe, `msixOn` and `msixMask` are MSI-X Enable and
Function Mask, `cfg` holds the writable bytes of the configuration header (R39, R430); `lastRead` is the model's:
the value that the last register read returned. -/
structure HostSt where
  mb : Tab Mailbox := []
  bar2 : Mem := []
  staging : Mem := []
  msix : Mem := []
  pba : Word := 0
  msixOn : Bool := false
  msixMask : Bool := false
  cfg : Mem := []
  usrGrant : Word := 0
  usrEn : Bool := false
  usrWin : BitVec 9 := 0
  lastRead : DWord := 0
  mirrorSeq : Word := 0
  hostRam : Mem := []
  deriving DecidableEq, Repr, Inhabited

/-- What leaves the device (the model's record of it): MSI-X messages, DMA writes, frames, pulses, writes of
the PHY management buses (R429) and the reset of the boot flash (R432). -/
inductive OutKind | msix | dma | virza | ptp | line | xlink | pin | stationReset | mgmt | flashReset
  deriving DecidableEq, Repr, Inhabited

/-- One thing that left the device: the vector, address, port or pin it names and its bytes. -/
structure Out where
  kind : OutKind
  unit : Nat
  bytes : List Byte := []
  deriving DecidableEq, Repr, Inhabited

end Sys2Proof.Machine
end

