-- ==== Sys2Proof/Machine/StTime.lean ====
section
/-!
DEFINITION. State of the TIME island and of the plant Ethernet ports (R256 to R275).
-/
namespace Sys2Proof.Machine

/-- What an armed compare unit does when it fires (R261): the owner command's own act. -/
inductive ActionKind
  | ioWrite (mask value : Word)
  | traceTrigger (session : Nat)
  | traceArm (session : Nat)
  deriving DecidableEq, Repr, Inhabited

/-- An armed timed action (R261 to R264): `at` is its promise time, `tr` the requested time (0 as soon as
possible), `seq` its admission order (R28). A die F action is `sent` once it has left at a compute end; `report` is what die F
will report of it: 0 nothing yet, 1 fired, 2 dropped, 3 cancelled; `imaged` says that the field image holds it, and
`loaded` is the tick of its loading. -/
structure Armed where
  kind : ActionKind := .ioWrite 0 0
  dieF : Bool := false
  sent : Bool := false
  due : Nat := 0
  tr : Nat := 0
  noLate : Bool := false
  seq : Nat := 0
  report : Nat := 0
  imaged : Bool := false
  loaded : Nat := 0
  deriving DecidableEq, Repr, Inhabited

/-- Registers and counters of the time base. `freqCorr` and `slewRate` are in 10^-12; `slewRemain` is in
10^-12 ns. `slewShared` is the speed and ramp of an announced slew that runs (R316). `lateSes` and `lateCh` are what the owners' status
records of the last timed action of each trace session and field channel: 0 in time, 1 LATE (R263), 2 LATE_DROPPED (R264). -/
structure TimeSt where
  long : DWord := 0
  frac : Word := 0
  inc : BitVec 40 := 0x0400000000#40
  hiSnap : Word := 0
  latch : DWord := 0
  epoch : BitVec 16 := 0
  plant : DWord := 0
  slewThresh : Nat := 100000
  slewPpm : Nat := 400
  slewRamp : Nat := 1000
  slewShared : Option (Nat × Nat) := none
  freqCorr : Int := 0
  slewRate : Int := 0
  slewRemain : Int := 0
  lateCount : Word := 0
  dropCount : Word := 0
  lastStep : DWord := 0
  units : Tab (Option Armed) := []
  lateSes : Tab Nat := []
  lateCh : Tab Nat := []
  deriving DecidableEq, Repr, Inhabited

/-- The cadence and the periods built on it (R21). `start` is the last cadence start and `len` the length of that cadence, `phase` how far the cadence has come: 0
up to the feedback cutoff, 1 up to the compute end, 3 after it; `count` the cadences since the bus started. `planAt`, `guardAt` and
`roundAt` are the instants (plus 1) whose boundary has been carried out; `guardStart` and `planStart` the
boundaries at which the present periods began. -/
structure CadSt where
  ns : Nat := 31250
  round : Nat := 64
  plan : Nat := 32
  guardPer : Nat := 16
  configured : Bool := false
  started : Bool := false
  start : Nat := 0
  len : Nat := 31250
  phase : Nat := 0
  count : Word := 0
  planAt : Nat := 0
  guardAt : Nat := 0
  roundAt : Nat := 0
  guardStart : Nat := 0
  planStart : Nat := 0
  misses : Nat := 0
  deriving DecidableEq, Repr, Inhabited

/-- A plant Ethernet port: time.ptp_port fields, state and counters (R272 to R275). -/
structure PtpPort where
  role : Nat := 0
  transport : Nat := 0
  p2p : Bool := false
  oneStep : Bool := false
  domain : Nat := 0
  logSync : Int := 0
  logDelay : Int := 0
  logAnnounce : Int := 0
  sdoId : Nat := 0
  annTimeout : Nat := 0
  clockClass : Nat := 0
  egressLat : Nat := 0
  ingressLat : Nat := 0
  asymmetry : Int := 0
  priority1 : Nat := 0
  priority2 : Nat := 0
  clockAccuracy : Nat := 0
  state : Nat := 0
  link : Bool := false
  gmId : DWord := 0
  offset : Int := 0
  meanDelay : Int := 0
  txEvents : Word := 0
  rxEvents : Word := 0
  tsErrors : Word := 0
  discards : Word := 0
  syncT1 : Int := 0
  syncT2 : Int := 0
  delayT1 : Int := 0
  delayT2 : Int := 0
  delayT4 : Int := 0
  twoStepWait : Bool := false
  seqs : Tab Nat := []
  deriving DecidableEq, Repr, Inhabited

end Sys2Proof.Machine
end

