-- ==== Sys2Proof/Machine/StDev.lean ====
section
/-!
DEFINITION. State of boot, fuses, faults and pins (R360 to R395, R421), of the journal (R396 to R405), of the
performance counters (R406 to R416) and of the crosslink (R15 to R20).
-/
namespace Sys2Proof.Machine

/-- One of two copies of a block in FeRAM: sequence number, contents and CRC-32 (R382, R396). -/
structure FeCopy where
  seq : Nat := 0
  body : List Byte := []
  crc : Word := 0
  deriving DecidableEq, Repr, Inhabited

/-- The boot record in FeRAM (table "Boot record"). -/
structure BootRec where
  bootCount : Word := 0
  attempts : BitVec 4 := 0
  cause : BitVec 8 := 0
  kick : BitVec 8 := 0
  active : Nat := 0
  trial : Nat := 0
  deriving DecidableEq, Repr, Inhabited

/-- The fuses that commands program (table "Fuse contents"). Hashes are 512-bit; an owner hash may be blown in
part by an interrupted command (R381). -/
structure Fuses where
  vk0Revoked : Bool := false
  ownerHash : Tab (BitVec 512) := []
  owner0Set : Bool := false
  owner1Set : Bool := false
  owner0Revoked : Bool := false
  svn : BitVec 64 := 0
  idLock : Bool := true
  deriving DecidableEq, Repr, Inhabited

/-- A firmware update under way (R393): the slot that posted it, the flash slot it writes, and the container. -/
structure FwUpdate where
  mb : Nat := 0
  slot : Nat := 0
  target : Nat := 0
  image : List Byte := []
  deriving DecidableEq, Repr, Inhabited

/-- The replay of a cell image (R388, R390): the slot that posted it (mailbox 0xFF: the firmware itself), STORE, the container,
the offset of the next record and how many have completed; whether a record runs, and the status that ended the replay. -/
structure Replay where
  mb : Nat := 0xFF
  slot : Nat := 0
  store : Bool := false
  image : List Byte := []
  off : Nat := 8192
  done : Nat := 0
  running : Bool := false
  failed : Option Status := none
  deriving DecidableEq, Repr, Inhabited

/-- Device mode, boot, pins and supervision. `loaded` is the header of the verified container that waits for handover, `fwHdr`
that of the running firmware; `bootRec` the boot record of the newer of `bootCopies`; `waitPfail` that PORST_N was released while PFAIL_N was low; `resetAt` a reset that is due. -/
structure DevSt where
  mode : Mode := .reset
  loaded : List Byte := []
  fwHdr : List Byte := []
  slot : Nat := 0xFF
  reason : BitVec 8 := 0
  whyAttempts : BitVec 4 := 0
  faultCause : Word := 0
  fwConfirmed : Bool := false
  mbReady : Bool := false
  thermWarn : Bool := false
  thermCrit : Bool := false
  pfail : Bool := false
  faultN : Bool := false
  noCore : Bool := false
  frozen : Bool := false
  bootsel : BitVec 2 := 0
  stnaddr : BitVec 5 := 0
  bootRec : BootRec := {}
  bootCopies : Tab FeCopy := []
  fuses : Fuses := {}
  flash : Tab (List Byte) := []
  held : List Rail := []
  porstLow : Bool := true
  waitPfail : Bool := false
  runTime : DWord := 0
  lpddrTrained : Bool := false
  lpddrDone : Bool := false
  watchFrom : Nat := 0
  unconfirmedDone : Bool := false
  stagedTaken : Bool := false
  pcieWait : Bool := false
  op : Option FwUpdate := none
  resetAt : Option Nat := none
  imageDone : Nat := 0
  imageFailIndex : Nat := 0xFFFFFFFF
  imageFailStatus : Nat := 0
  cellDigest : List Byte := []
  replay : Option Replay := none
  deriving DecidableEq, Repr, Inhabited

/-- The contents of one journal record (table "Journal record"); its SEQ and CRC follow from where it is written. `bad`: its
place holds an uncorrectable word (R404). -/
structure JRec where
  time : DWord := 0
  boot : Word := 0
  source : Nat := 0
  code : Nat := 0
  sev : Nat := 0
  dieF : Bool := false
  holdup : Bool := false
  mbox : Nat := 0
  bad : Bool := false
  object : Nat := 0xFFFFFFFF
  inA : Bool := false
  aux : Nat := 0
  detail : List Byte := []
  deriving DecidableEq, Repr, Inhabited

/-- The journal: FeRAM regions, the two copies of the control block and the values that its newer copy holds, die M and die F queues, hold-up and truncation. -/
structure JrnSt where
  regA : List JRec := []
  regB : Tab (Option (Nat × JRec)) := []
  ctl : Tab FeCopy := []
  next : DWord := 0
  floor : DWord := 0
  queueM : List JRec := []
  queueF : List JRec := []
  dropped : Word := 0
  toReport : Nat := 0
  holdup : Bool := false
  holdupOpen : Bool := false
  holdupUnsent : Nat := 0
  holdupWritten : Nat := 0
  holdupEnding : Bool := false
  cReq : BitVec 16 := 28
  cMeas : BitVec 16 := 0
  holdupLow : Bool := false
  erasing : Option (Nat × Nat) := none
  challenge : Option (List Byte) := none
  lastTruncate : DWord := 0
  wrapSeen : Bool := false
  deriving DecidableEq, Repr, Inhabited

/-- One spoke: counters, sticky bits, selects in force and pending, GEN, and the copy of the last latch. -/
structure Spoke where
  cnt : List Word := List.replicate 8 0
  ovf : BitVec 8 := 0
  sel : List Nat := List.replicate 8 0
  next : List (Option Nat) := List.replicate 8 none
  gen : BitVec 8 := 0
  copyCnt : List Word := List.replicate 8 0
  copyOvf : BitVec 8 := 0
  copyReprog : BitVec 8 := 0
  carryOvf : BitVec 8 := 0
  deriving DecidableEq, Repr, Inhabited

/-- The hub (page 0x3000, R409 to R416). -/
structure HubSt where
  enable : Bool := false
  mirrorEn : Bool := false
  period : Nat := 100
  periodInForce : Nat := 100
  cadInForce : Nat := 31250
  seq : Word := 0
  latchNo : Word := 0
  wr : Nat := 0
  rd : Nat := 0
  mirror : DWord := 0
  skipped : Nat := 0
  lastLatch : Nat := 0
  latched : Bool := false
  dumpDue : Bool := false
  latchTime : Nat := 0
  latchCad : Nat := 0
  latchEpoch : BitVec 16 := 0
  latchP : Nat := 0
  grants : Tab Word := []
  spokes : Tab Spoke := []
  deriving DecidableEq, Repr, Inhabited

/-- One direction of the crosslink (R15, R16): the sequence number that the receiver expects, the one of the sender's next flit, the
sender's replay buffer (each flit with how often it has been replayed, oldest first), whether it awaits a replay, good
flits since its last acknowledgement, and replays in this cadence. -/
structure XDir where
  rxSeq : BitVec 12 := 0
  txSeq : BitVec 12 := 0
  replay : List (List Byte × Nat) := []
  awaiting : Bool := false
  sinceAck : Nat := 0
  replaysCad : Nat := 0
  deriving DecidableEq, Repr, Inhabited

/-- The crosslink: both directions, training and loss (R15 to R20), die F's time error (R17), and die M's record of the loss, which
die F keeps for after reset (R19). -/
structure XlinkSt where
  up : Bool := false
  lost : Bool := false
  toF : XDir := {}
  toM : XDir := {}
  dieFErr : Int := 0
  initFailed : Bool := false
  lossRec : Option JRec := none
  stopped : Bool := false
  deriving DecidableEq, Repr, Inhabited

end Sys2Proof.Machine
end

