-- ==== Sys2Proof/Machine/StBus.lean ====
section
/-!
DEFINITION. State of the Virza bus (R277 to R302) and of the peloton (R303 to R321).
-/
namespace Sys2Proof.Machine

/-- A matrix column (table "Matrix column"). -/
structure Column where
  kind : Nat := 0
  owner : Nat := 0
  start : Nat := 0
  length : Nat := 0
  arbNs : Nat := 0
  rows : Nat := 0
  deriving DecidableEq, Repr, Inhabited

/-- A station found by an enumeration: second address, links, delays and its window violations (R292, R294, R296). -/
structure Station where
  position : Nat := 0
  aliasAddr : Nat := 0
  linksOk : Bool := true
  delayA : Nat := 0
  delayB : Nat := 0
  vioRun : Nat := 0
  vioCad : Nat := 0
  vioSeen : Bool := false
  deriving DecidableEq, Repr, Inhabited

/-- A start of a segment under way: the slot that posted it (mailbox 0xFF: none), its phase and the cadences since step 2
began. Phases: 0 ENUM is to be sent, 1 ENUM is out, 2 ENUM has returned, 3 DELAY is out, 4 DELAY has returned. -/
structure StartOp where
  mb : Nat := 0xFF
  slot : Nat := 0
  phase : Nat := 0
  cads : Nat := 0
  deriving DecidableEq, Repr, Inhabited

/-- An acyclic request of bus.acyclic (R289). -/
structure Acyclic where
  mb : Nat := 0
  slot : Nat := 0
  station : Nat := 0
  bytes : List Byte := []
  sent : Bool := false
  sentAt : Nat := 0
  deriving DecidableEq, Repr, Inhabited

/-- A Virza segment. States: 0 OFF, 1 WAIT, 2 SYNC, 3 RUN, 4 FOLLOWER, 5 DOWN. `grants` is the winner that the next instance of each
ARBITRATING column names, `granted` the one that its last instance named (R290). -/
structure Segment where
  configured : Bool := false
  portA : Nat := 0xFF
  portB : Nat := 0xFF
  portMode : Nat := 0
  addrMode : Nat := 0
  etherType : Nat := 0x88B5
  guardNs : Nat := 400
  applyCfg : Nat := 0
  expect : Nat := 0
  bank0 : List Column := []
  bank1 : List Column := []
  bank : Nat := 0
  acked : Bool := true
  loading : Option (Nat × Nat) := none
  state : Nat := 0
  count : Nat := 0
  enumerated : Bool := false
  stations : Tab (Option Station) := []
  start : Option StartOp := none
  runPending : Bool := false
  waitUntil : Nat := 0
  split : Bool := false
  splitDue : Bool := false
  linkA : Bool := true
  linkB : Bool := true
  cause : BitVec 8 := 0
  otherUid : DWord := 0
  heard : Bool := false
  lastCollision : Option Nat := none
  fcsErrors : Word := 0
  windowViolations : Word := 0
  lateRecords : Word := 0
  missingRecords : Word := 0
  safetyErrors : Word := 0
  foreignFrames : Word := 0
  ringChanges : BitVec 16 := 0
  collisions : BitVec 16 := 0
  silenced : BitVec 16 := 0
  silence : BitVec 256 := 0
  grants : Tab Nat := []
  granted : Tab Nat := []
  acyclic : List Acyclic := []
  loadLeft : Nat := 0
  proc : Tab (List Byte) := []
  procGot : List Nat := []
  deriving DecidableEq, Repr, Inhabited

/-- The last accepted feedback record of an axis (table "Feedback record"). -/
structure FbRec where
  position : Int := 0
  velocity : Int := 0
  torque : Int := 0
  status : Nat := 0
  sample : Nat := 0
  deriving DecidableEq, Repr, Inhabited

/-- How an axis is mapped to a drive (bus.map_axis) and what its record stream holds (R284, R299, R300); `missed2` counts the
cadences without a valid copy on channel 2 (R233), 255 before the first. -/
structure AxisMap where
  segment : Nat := 0xFF
  station : Nat := 0
  chan : Nat := 0
  safetyFb : Bool := false
  safetySp : Bool := false
  safetyId : Nat := 0
  nMiss : Nat := 2
  sCnt : Option Nat := none
  spCnt : Nat := 0
  last : FbRec := {}
  lastPrev : FbRec := {}
  got : Bool := false
  gotPrev : Bool := false
  badSafety : Bool := false
  missed : Nat := 0
  sCnt2 : Option Nat := none
  got2 : Bool := false
  last2 : FbRec := {}
  missed2 : Nat := 255
  deriving DecidableEq, Repr, Inhabited

/-- The mean link delay measurements of one line port (R311), in ps. -/
structure LinkDelay where
  last : List Int := []
  rejected : List Int := []
  mean : Int := 0
  peerAsym : Int := 0
  deriving DecidableEq, Repr, Inhabited

/-- What the last SYNC of the timing port carried (R306). -/
structure SyncInfo where
  refAddr : Nat := 0
  hops : Nat := 0
  refGen : BitVec 16 := 0
  refAge : Nat := 0
  refGm : Bool := false
  holdover : Bool := false
  plant : DWord := 0
  epoch : BitVec 16 := 0
  deriving DecidableEq, Repr, Inhabited

/-- An announcement (R316, R320): kind 0 none, 1 SLEW, 2 STEP, 3 HANDOVER. -/
structure Announce where
  kind : Nat := 0
  at' : Nat := 0
  value : Int := 0
  epoch : Nat := 0
  slewPpm : Nat := 0
  slewRamp : Nat := 0
  deriving DecidableEq, Repr, Inhabited

/-- The peloton. States: 0 OFF, 1 STARTING, 2 MEMBER, 3 FAILED. Rates in 10^-12, times of θ in ps. -/
structure PelSt where
  state : Nat := 0
  configured : Bool := false
  upPort : Nat := 0xFF
  downPort : Nat := 0xFF
  strap : Bool := false
  expect : Nat := 0
  asymUp : Int := 0
  syncLostNs : Nat := 50
  driftPpm : Nat := 200
  delayJump : Nat := 2000
  xtalPpm : Nat := 100
  upMode : Nat := 0
  downMode : Nat := 0
  upLink : Bool := true
  downLink : Bool := true
  addr : Nat := 0
  isRef : Bool := false
  sync : Bool := false
  sync' : SyncInfo := {}
  timingDown : Bool := false
  syncSeen : Bool := false
  refAge : Nat := 0
  refGen : BitVec 16 := 0
  members : Word := 0
  theta : Int := 0
  thetaNew : Bool := false
  i : Int := 0
  goodRun : Nat := 0
  badRun : Nat := 0
  fAtRound : Int := 0
  up : LinkDelay := {}
  down : LinkDelay := {}
  measures : Nat := 0
  started : Option (Nat × Nat) := none
  enumCount : Option Nat := none
  enumSame : Bool := false
  tookTime : Bool := false
  reason : Nat := 0
  syncedMembers : Word := 0
  cause : BitVec 8 := 0
  syncLosses : BitVec 16 := 0
  takeovers : BitVec 16 := 0
  driftEvents : BitVec 16 := 0
  delayRejects : Word := 0
  xtalDiff : Int := 0
  lastRefChange : DWord := 0
  ann : Announce := {}
  queued : List (Bool × Int) := []
  follow : Bool := false
  followPort : Nat := 0
  freqMax : Nat := 100
  gmTau : Word := 0x41800000
  intervals : Nat := 0
  gmOffset : Int := 0
  slewInInterval : Int := 0
  target : Int := 0
  holdover : Bool := false
  pendingPlant : Option (DWord × BitVec 16) := none
  heardAt : Nat := 0
  adopting : Option (Bool × SyncInfo) := none
  startAt : Nat := 0
  addrKnown : Bool := false
  deriving DecidableEq, Repr, Inhabited

/-- A command admitted with an effect boundary in the future: what the boundary carries out. -/
structure Eff where
  opcode : Nat := 0
  object : Nat := 0
  p : List Byte := []
  tag : Nat := 0
  mb : Nat := 0
  slot : Nat := 0
  flags : Nat := 0
  req : Nat := 0
  due : Nat := 0
  seq : Nat := 0
  deriving DecidableEq, Repr, Inhabited

end Sys2Proof.Machine
end

