-- ==== Sys2Proof/Machine/StProf.lean ====
section
/-!
DEFINITION. What a jerk-limited profile is made of (R98): quantities in units of 2^-80.
-/
namespace Sys2Proof.Machine

/-- One segment: constant jerk for a time in seconds. -/
structure Seg where
  j : Int
  t : Int
  deriving DecidableEq, Repr, Inhabited

/-- A profile from velocity v0 and acceleration a0 to rest at displacement d after dur seconds. -/
structure Prof where
  v0 : Int := 0
  a0 : Int := 0
  segs : List Seg := []
  d : Int := 0
  dur : Int := 0
  deriving DecidableEq, Repr, Inhabited

end Sys2Proof.Machine
end

