-- ==== Sys2Proof/Machine/StMotion.lean ====
section
/-!
DEFINITION. State of axes, loops, groups and signals (R64 to R132, R163 to R187) and of the scheduler (R239 to
R255). Real quantities are in units of 2^-80, positions of Q32.32 fields in units of 2^-32.
-/
namespace Sys2Proof.Machine

/-- Axis states (table "Axis states"). -/
inductive AxState | disabled | held | closed | stopping | fault
  deriving DecidableEq, Repr, Inhabited

/-- Group states (table "Group states"). -/
inductive GrpState | idle | enabling | ready | moving | homing | stopping | hold | fault
  deriving DecidableEq, Repr, Inhabited

/-- A compensator: order, output shift, the seven words b0 b1 b2 b3 a1 a2 a3, and its histories (R169). -/
structure Comp where
  order : Nat := 2
  osh : Int := 0
  w : List Int := [0, 0, 0, 0, 0, 0, 0]
  x : List Int := [0, 0, 0]
  y : List Int := [0, 0, 0]
  deriving DecidableEq, Repr, Inhabited

/-- A biquad section: the five words b0 b1 b2 a1 a2, its shift and its histories (R170). -/
structure Biquad where
  w : List Int := [0, 0, 0, 0, 0]
  sh : Nat := 0
  x : List Int := [0, 0]
  y : List Int := [0, 0]
  deriving DecidableEq, Repr, Inhabited

/-- The loop of one axis: configuration, coefficients, limits, signals and counts (R163 to R187). -/
structure LoopSt where
  configured : Bool := false
  cascade : Bool := false
  liveTune : Bool := false
  velFf : Bool := false
  trqFf : Bool := false
  es : Nat := 8
  velFrac : Nat := 0
  trqFrac : Nat := 0
  pos : Comp := {}
  vel : Comp := { order := 3 }
  filt : List Biquad := []
  casc : List Biquad := []
  trqLim : Int := 0
  slew : Int := 0
  vrefLim : Int := 0
  feWarn : Int := 0
  feLimit : Int := 0
  trqDeferred : Option Int := none
  trqHoming : Option Int := none
  initDue : Bool := false
  ep : Int := 0
  up : Int := 0
  vff : Int := 0
  vref : Int := 0
  vact : Int := 0
  ev : Int := 0
  uv : Int := 0
  uf : Int := 0
  tff : Int := 0
  tc : Int := 0
  tout : Int := 0
  tPrev : Int := 0
  clampActive : Bool := false
  slewActive : Bool := false
  stale : Bool := false
  satCount : Word := 0
  liveWrites : Word := 0
  lastApply : DWord := 0
  fe : Int := 0
  warned : Bool := false
  missedLoop : Bool := false
  deriving DecidableEq, Repr, Inhabited

/-- The limits of an axis (table "Axis limits"). -/
structure Limits where
  v : Int := 2 ^ 80
  a : Int := 10 * 2 ^ 80
  d : Int := 10 * 2 ^ 80
  j : Int := 100 * 2 ^ 80
  tmin : Int := -1000 * 2 ^ 32
  tmax : Int := 1000 * 2 ^ 32
  deriving DecidableEq, Repr, Inhabited

/-- The fields of axis.configure. -/
structure AxisCfg where
  configured : Bool := false
  tEn : Nat := 100
  faultStop : Nat := 0
  linear : Bool := false
  homeMode : Nat := 0
  homePhase : Nat := 0
  homeCh : Nat := 0xFF
  limP : Nat := 0xFF
  limN : Nat := 0xFF
  inPol : Nat := 0
  tQ : Nat := 0
  homeDir : Nat := 0
  vSearch : Int := 0
  vCreep : Int := 0
  searchDist : Int := 0
  homePos : Int := 0
  torqueThr : Int := 0
  backoff : Int := 0
  settleWin : Int := 0
  settleTime : Int := 0
  deriving DecidableEq, Repr, Inhabited

/-- Where one axis stands in its homing sequence (table "Homing modes", R128). -/
inductive HomeStep
  | none | wait | search | restLatched | restLimit | reverse | restReverse | approach | restIndex | creep
  | toHome | backoff | done
  deriving DecidableEq, Repr, Inhabited

/-- One axis. `prof` is the profile in force of its own generator: start time, start position, profile; `settledNs` how
long the following error has stayed within SETTLE_WIN since the first sample there (`inWin`); `speed` the SPEED of the move it carries out (R107), `vCap` the speed of a homing step; `hist` the sample times and positions of the
feedback records of a homing axis, `latchEdge` a latch that waits for the record after its edge, with the position where that
is known (R125); `quals` the qualified level and edge time of the channels that the axis reads (R127). -/
structure AxisSt where
  cfg : AxisCfg := {}
  lim : Limits := {}
  deferred : Option Limits := none
  state : AxState := .disabled
  faultCode : Nat := 0
  enable : Option Nat := none
  disable : Option Nat := none
  stopCat : Option Nat := none
  zeroCads : Nat := 0
  sto : Bool := false
  frPulse : Bool := false
  faultEnable : Bool := false
  homed : Bool := false
  oh : Int := 0
  cmdP : Int := 0
  cmdV : Int := 0
  cmdA : Int := 0
  tauFf : Int := 0
  prof : Option (Nat × Int × Prof) := none
  target : Int := 0
  inWin : Bool := false
  settledNs : Nat := 0
  speed : Int := 2 ^ 80
  vCap : Option Int := none
  home : HomeStep := .none
  homeStart : Int := 0
  homeSeen : Bool := false
  latchEdge : Option (Nat × Option Int) := none
  quals : List (Nat × Bool × Nat) := []
  hist : List (Nat × Int) := []
  map : AxisMap := {}
  loop : LoopSt := {}
  faults : List Nat := []
  stops : List Nat := []
  actP : Int := 0
  actPrev : Int := 0
  sampleAt : Nat := 0
  samplePrev : Nat := 0
  stateAt : Nat := 0
  deriving DecidableEq, Repr, Inhabited

/-- One move of a PROFILE group in path time: start, duration and each joint's displacement profile. The start of an
`auto` move follows from its predecessor: `blend` before its end, or in the cadence after it (R108). -/
structure Move where
  start : Int := 0
  auto : Bool := false
  blend : Int := 0
  dur : Int := 0
  joints : List Prof := []
  target : List Int := []
  speed : Int := 2 ^ 80
  tag : Nat := 0
  promise : Nat := 0
  deriving DecidableEq, Repr, Inhabited

/-- A motion target of an MPC group, or a pose move that waits for its inverse kinematics: the grp.move payload, its tag and
promise time, the target's joint positions once `solved`; and, once the motion runs, the path time, joint positions and tool
point at its start (R136). -/
structure MpcTarget where
  p : List Byte := []
  tag : Nat := 0
  promise : Nat := 0
  joints : List Int := []
  solved : Bool := false
  begun : Bool := false
  startTau : Int := 0
  startQ : List Int := []
  startC : List Int := []
  deriving DecidableEq, Repr, Inhabited

/-- A stream record as taken from a ring (table "Host stream record"); `joints` is a waypoint that the KDE has converted
(table "Reference sources"). -/
structure StrmRec where
  stamp : Nat := 0
  kind : Nat := 0
  flags : Nat := 0
  seq : Nat := 0
  data : List Byte := []
  hi : List Byte := []
  joints : Option (List Int) := none
  deriving DecidableEq, Repr, Inhabited

/-- One stage knot of a plan: position, velocity and acceleration of each joint. -/
structure Knot where
  p : List Int := []
  v : List Int := []
  a : List Int := []
  deriving DecidableEq, Repr, Inhabited

/-- The plan in force of an MPC group (R109, R110): path time of its start, stage duration and knots. -/
structure MpcPlan where
  start : Int := 0
  stage : Int := 0
  knots : List Knot := []
  rests : Bool := false
  deriving DecidableEq, Repr, Inhabited

/-- One group: configuration, state, path time and scale, motion, stream and homing. `kin` is the path-time state of the
joints, `clock` the stream clock in 2^-32 ns; `settled` and `homeFailed` (axis and reason) are conditions detected since the
last cadence start, which act at the next one (R66). -/
structure GroupSt where
  configured : Bool := false
  mpc : Bool := false
  faultStop : Nat := 0
  payloadSel : Nat := 0
  tRamp : Int := 2 ^ 80 / 10
  model : List Byte := []
  state : GrpState := .idle
  outcome : GrpState := .ready
  lastEvent : Nat := 0
  stateAt : Nat := 0
  eventAt : Nat := 0
  payloadAt : Nat := 0
  enableAt : Nat := 0
  lambda : Int := 2 ^ 80
  lambdaRate : Int := 0
  sGov : Nat := 256
  holdGoal : Bool := false
  pathTime : Int := 0
  kin : Knot := {}
  base : List Int := []
  moves : List Move := []
  mpcTargets : List MpcTarget := []
  plan : Option MpcPlan := none
  nextPlan : Option MpcPlan := none
  stopCat : Option Nat := none
  axisStop : Bool := false
  strm : Option Nat := none
  strmRun : Bool := false
  clock : Int := 0
  recs : List StrmRec := []
  lastTarget : List Int := []
  homePhase : Nat := 0
  homeReason : Nat := 0
  homeAxis : Nat := 0xFF
  settled : Bool := false
  homeFailed : Option (Nat × Nat) := none
  ikResidual : Option Int := none
  tcp : List Int := []
  tcpQ : List Int := []
  snapQ : List Int := []
  mMat : List Int := []
  hVec : List Int := []
  stops : List Nat := []
  fault : Bool := false
  interpMisses : Nat := 0
  interpMissed : Bool := false
  snapAt : Nat := 0
  solved : Bool := false
  stoEnable : Bool := false
  stoCh : Nat := 0xFF
  poisoned : Bool := false
  deriving DecidableEq, Repr, Inhabited

/-- A signal (table "Signal entry"). -/
structure Signal where
  value : Nat := 0
  stamp : Word := 0
  type : Nat := 0
  quality : Nat := 0
  source : Nat := 0
  updates : BitVec 8 := 0
  deriving DecidableEq, Repr, Inhabited

/-- Where a mapped signal comes from (sig.map). -/
structure SigMap where
  source : Nat := 0
  type : Nat := 0
  segment : Nat := 0
  station : Nat := 0
  sent : Bool := false
  bit : Nat := 0
  offset : Nat := 0
  fwObject : Nat := 0
  deriving DecidableEq, Repr, Inhabited

/-- A signal watch (sig.watch); `on` is the truth of its condition at the last compute end. -/
structure Watch where
  signal : Nat := 0
  cond : Nat := 0
  event : Nat := 0
  threshold : Nat := 0
  hysteresis : Nat := 0
  on : Bool := false
  last : Nat := 0
  deriving DecidableEq, Repr, Inhabited

/-- The signal process image: `dev` the signals of objects that the state lists, as the last compute end or verdict deadline left
them, whose UPDATES all count `updates` or `sepUpdates`; `at'` the last compute end, `start` its cadence start, `next` the cadence start after it,
`cadence` its count; `image` the mapped signals; `waiting` host writes that become visible at the next compute end. -/
structure SigSt where
  dev : Tab Signal := []
  updates : BitVec 8 := 0
  sepUpdates : BitVec 8 := 0
  at' : Nat := 0
  start : Nat := 0
  next : Nat := 0
  sepAt : Nat := 0
  cadence : Nat := 0
  waiting : List (Nat × Nat × Nat) := []
  image : Tab Signal := []
  map : Tab SigMap := []
  watch : Tab Watch := []
  deriving DecidableEq, Repr, Inhabited

/-- A committed share of the ledger (R30): `bucket` is the deadline of a QP share in 1/1,024 of the planning
period. -/
structure Share where
  type : Nat := 0
  cls : Nat := 0
  unit : Nat := 0
  wcet : Nat := 0
  object : Nat := 0
  bucket : Nat := 0
  deriving DecidableEq, Repr, Inhabited

/-- A task known to the scheduler: its descriptor and the instant at which it became ready. -/
structure Task where
  d : Descriptor := {}
  readyAt : Nat := 0
  order : Nat := 0
  deriving DecidableEq, Repr, Inhabited

/-- One resource class: tasks held until their release, ready tasks, FFT blocks suspended until a compute end (R240, R241), statistics
and water marks (R244, R245, R253). -/
structure ClassSt where
  held : List Task := []
  ready : List Task := []
  suspended : List Task := []
  depthMax : Nat := 0
  poolMin : Nat := 4096
  stalls : Word := 0
  flowOverruns : Word := 0
  deadlineMisses : Word := 0
  cancelled : Word := 0
  hist : List Word := List.replicate 16 0
  clearTime : DWord := 0
  depthHw : Nat := 3072
  poolLw : Nat := 256
  hwArmed : Bool := true
  stalled : Bool := false
  stalledTasks : List Task := []
  deriving DecidableEq, Repr, Inhabited

/-- An atomic flow (R246). -/
structure Flow where
  qlim : Nat := 16
  overruns : Word := 0
  queue : List Task := []
  service : Option Task := none
  deriving DecidableEq, Repr, Inhabited

/-- The scheduler: ledger, classes, flows, units in service and busy counts; `admitLoad` holds, per supervisor core, the cadence start and
the cycles that ADMIT tasks have run since (R243). -/
structure SchedSt where
  admitLoad : Tab (Nat × Nat) := []
  shares : List Share := []
  cls : Tab ClassSt := []
  flows : Tab Flow := []
  units : Tab (Option Task) := []
  busyFrom : Tab Nat := []
  busy : Tab Nat := []
  busyBase : Tab Nat := []
  latched : Tab Nat := []
  roundStart : DWord := 0
  sat : Word := 0
  wrap : Word := 0
  deriving DecidableEq, Repr, Inhabited

end Sys2Proof.Machine
end

