-- ==== Sys2Proof/Machine/StIo.lean ====
section
/-!
DEFINITION. State of field I/O (R322 to R343) and of the step axes (R344 to R357).
-/
namespace Sys2Proof.Machine

/-- A field channel: io.configure fields, input path, output path, diagnostics (R325, R329, R331, R333). `mCmd` is
die M's commanded value, `commanded` die F's; `seen` and `seenEdge` are what die M last received; `pinAt`
is the instant at which the pin last switched. -/
structure Chan where
  role : Nat := 0
  inType : Nat := 1
  owEn : Bool := false
  auto : Bool := false
  safe : Nat := 0
  filterUs : Nat := 0
  tOvl : Nat := 20
  tOpen : Nat := 100
  restartsMax : Nat := 3
  tRestart : Nat := 1000
  stoMask : BitVec 16 := 0
  raw : Bool := false
  rawEdge : Nat := 0
  filtered : Bool := false
  edge : Nat := 0
  sampled : Bool := false
  sampledEdge : Nat := 0
  seen : Bool := false
  seenEdge : Nat := 0
  used : Bool := false
  usedEdge : Nat := 0
  mCmd : Bool := false
  commanded : Bool := false
  pin : Bool := false
  pinAt : Nat := 0
  held : Bool := false
  tripped : Bool := false
  latched : Bool := false
  trips : BitVec 16 := 0
  consecutive : Nat := 0
  lastRestart : Option Nat := none
  tripAt : Nat := 0
  codes : BitVec 8 := 0
  tj : Nat := 25
  hot : Bool := false
  currentMa : Nat := 0
  sto : Bool := true
  deriving DecidableEq, Repr, Inhabited

/-- A field group: configuration, supply state and latch (R336, R337, R341). -/
structure FieldGroup where
  sto : Bool := false
  autoRe : Bool := false
  inputsOnFlp : Bool := false
  flpMv : Nat := 0
  supply : Nat := 0
  low : Bool := false
  latched : Bool := false
  cut : Bool := false
  risen : Bool := false
  goodSince : Option Nat := none
  reenable : Bool := false
  badSeen : Bool := false
  deriving DecidableEq, Repr, Inhabited

/-- Field I/O. `refresh` is die M's refresh count, `image` the image under way, `ready` the image that die F applies
at the next cadence start, `safeSeen` die M's knowledge of the safe state. -/
structure IoSt where
  ch : Tab Chan := []
  grp : Tab FieldGroup := []
  tWd : Nat := 10
  tWdNext : Option Nat := none
  armed : Bool := false
  lastRefresh : Nat := 0
  refresh : BitVec 16 := 0
  lastCount : Option (BitVec 16) := none
  image : Option (BitVec 16 × Word) := none
  ready : Option Word := none
  gotRefresh : Bool := false
  validRun : Nat := 0
  safe : Nat := 0
  safeSeen : Bool := false
  deriving DecidableEq, Repr, Inhabited

/-- Step axis states (table "Step axis states"). -/
inductive StpState | unconfigured | disabled | ready | moving | homing | stopping | safe
  deriving DecidableEq, Repr, Inhabited

/-- The homing sequence of a step axis (R355). -/
inductive StpHome | none | search | reverse | rest | toHome
  deriving DecidableEq, Repr, Inhabited

/-- A stp.move or stp.stop that waits for its promise time in pin time (R352). -/
structure StpCmd where
  stop : Bool := false
  target : Int := 0
  speed : Int := 0
  tag : Nat := 0
  at' : Nat := 0
  seq : Nat := 0
  deriving DecidableEq, Repr, Inhabited

/-- The record that die M sent for the next segment (table "Step command flits"). -/
structure StpRec where
  pEnd : Int := 0
  vStart : Int := 0
  start : Option Nat := none
  ena : Bool := false
  hold : Bool := false
  deriving DecidableEq, Repr, Inhabited

/-- A step axis. Positions are in steps, real quantities in 2^-80; `pos` is die F's own position p at the segment
start, `emitted` the step count, `late` the directions of edges deferred by R349; `next` the state that the next segment
brings, `speed` SPEED of the move under way (R107), `quals` the qualified level and edge time of the channels that the axis
reads (R127). -/
structure StpAxis where
  state : StpState := .unconfigured
  next : Option StpState := none
  se5v : Bool := false
  pol : BitVec 4 := 0
  enaSafe : Bool := false
  homeMode : Nat := 0
  homeCh : Nat := 0xFF
  limP : Nat := 0xFF
  limN : Nat := 0xFF
  inPol : Nat := 0
  tQ : Nat := 0
  homeDir : Nat := 0
  limitImmediate : Bool := false
  pulseNs : Nat := 100
  dirSetupNs : Nat := 200
  holdDelay : Nat := 0
  holdLead : Nat := 0
  enaDelay : Nat := 0
  stopMask : BitVec 16 := 0
  vSearch : Int := 0
  searchDist : Int := 0
  homePos : Int := 0
  lim : Limits := { tmin := -1000, tmax := 1000 }
  deferredLim : Option Limits := none
  ena : Bool := false
  enaAt : Nat := 0
  hold : Bool := false
  dir : Bool := false
  zeroSince : Option Nat := none
  homed : Bool := false
  suspect : Bool := false
  homeReason : Nat := 0
  cause : BitVec 8 := 0
  discarded : Word := 0
  delayed : Word := 0
  prof : Option (Nat × Int × Prof) := none
  cmdP : Int := 0
  cmdV : Int := 0
  cmdA : Int := 0
  target : Int := 0
  speed : Int := 2 ^ 80
  quals : List (Nat × Bool × Nat) := []
  queue : List StpCmd := []
  home : StpHome := .none
  homeStart : Int := 0
  homeRev : Bool := false
  latch : Option Int := none
  sent : Option StpRec := none
  segment : Option StpRec := none
  pos : Int := 0
  emitted : Int := 0
  late : List Bool := []
  lastEdge : Nat := 0
  deriving DecidableEq, Repr, Inhabited

end Sys2Proof.Machine
end

