-- ==== Sys2Proof/Machine/StPlan.lean ====
section
/-!
DEFINITION. State of predictive control and the lanes (R133 to R162), of tracing, injection and frequency response (R188 to
R203), of zones and of separation monitoring (R204 to R238). FP32 values are their 32-bit words; the payloads of the
configuring commands are held as they were written.
-/
namespace Sys2Proof.Machine

/-- What one scenario's problem came to in a planning period (table "Scenario record"), with its x and y. -/
structure ScenRes where
  status : Nat := 0
  regularised : Bool := false
  replanned : Bool := false
  selected : Bool := false
  cls : Nat := 0xFF
  lane : Nat := 0xFF
  kDone : Nat := 0
  regCount : Nat := 0
  regFirst : Nat := 0xFFFF
  kappa : Nat := 0
  rPri : Nat := 0
  rDua : Nat := 0
  slackPeak : Nat := 0
  start : Nat := 0
  fin : Nat := 0
  x : List Nat := []
  y : List Nat := []
  deriving DecidableEq, Repr, Inhabited

/-- A problem as an assembly unit hands it to a lane (R142): rows of H and A, all words FP32. -/
structure QpData where
  h : List (List Nat) := []
  a : List (List Nat) := []
  g : List Nat := []
  lo : List Nat := []
  hi : List Nat := []
  x0 : List Nat := []
  ax0 : List Nat := []
  z0 : List Nat := []
  y0 : List Nat := []
  deriving DecidableEq, Repr, Inhabited

/-- What the snapshot gives a problem: the class payload, κ, the stage duration, knot 0, model terms, limits and torque clamps,
references, warm start, the line term (G, q_s, and c_i − c_s by stage), and the separation rows by stage with their bounds. -/
structure AsmIn where
  c : List Byte := []
  kappa : Int := 0
  tStage : Int := 0
  q0 : List Int := []
  v0 : List Int := []
  a0 : List Int := []
  mMat : List Int := []
  hVec : List Int := []
  model : List Byte := []
  lims : List Limits := []
  trq : List Int := []
  ref : List (List Int) := []
  warm : List (List Int) := []
  line : Option (List (List Int) × List Int × List (List Int)) := none
  sep : List (List (List Int × Option Int)) := []
  deriving DecidableEq, Repr, Inhabited

/-- One scenario of a group: class id, κ as FP32, removal by R159, the problem of the period (as the snapshot gives it and as
assembled), the y⁰ to start from, the result, and a separation re-plan. -/
structure Scen where
  cls : Nat := 0xFF
  kappa : Nat := 0
  removed : Bool := false
  inp : Option AsmIn := none
  y0 : Option (List Nat) := none
  data : Option QpData := none
  res : ScenRes := {}
  rows : Nat := 0
  replan : Option (AsmIn × QpData) := none
  deriving DecidableEq, Repr, Inhabited

/-- The predictive control of one group: assignment, counters, the last completed selection with its boundary, and the period
under way: its boundary, the path time `tauB` predicted for it, the governing scale of the snapshot, the end of the
reference's first leg, and whether selection is over. -/
structure QpGrp where
  assigned : Bool := false
  replanOn : Bool := false
  scen : List Scen := []
  posedEver : Bool := false
  posed : Bool := false
  fallbacks : Nat := 0
  selected : Nat := 0xFF
  kappa : Nat := 0
  shifted : Word := 0
  lastIter : Word := 0
  failed : Word := 0
  missed : Word := 0
  stops : Word := 0
  boundary : Nat := 0
  nextSel : Nat := 0xFF
  last : List ScenRes := []
  lastSel : Nat := 0xFF
  lastB : Nat := 0
  tauB : Int := 0
  sGov : Nat := 256
  replanned : Bool := false
  firstLeg : Int := 0
  chosen : Bool := false
  deriving DecidableEq, Repr, Inhabited

/-- A problem at a lane: group, scenario, and for a separation re-plan the cycle of the lane window by which it is queued. -/
structure LaneJob where
  g : Nat := 0
  j : Nat := 0
  rep : Option Nat := none
  deriving DecidableEq, Repr, Inhabited

/-- A lane: the problems that wait, and the one in service with the cycle of the lane window at which it started. -/
structure Lane where
  wait : List LaneJob := []
  serv : Option (LaneJob × Nat) := none
  deriving DecidableEq, Repr, Inhabited

/-- Predictive control: classes by their payloads, groups, lanes, the lane reserve, the start of the lane window of the period
that runs, and the planning boundary (plus 1) whose snapshot has been taken. -/
structure QpSt where
  classes : Tab (List Byte) := []
  grp : Tab QpGrp := []
  lanes : Tab Lane := []
  reserve : Nat := 0
  windowAt : Nat := 0
  snapAt : Nat := 0
  deriving DecidableEq, Repr, Inhabited

/-- Session states (table "Session states"). -/
inductive TrcState | unconfigured | stopped | armed | triggered | rolling
  deriving DecidableEq, Repr, Inhabited

/-- A trace session. `rows` holds the written rows by index with their times (none: poisoned); `acc` the window under way, `raw`
the raw values of the last cadence, `after` the rows from the trigger sample on, or in ROLL mode the unread rows. -/
structure Session where
  cfg : List Byte := []
  state : TrcState := .unconfigured
  reason : Nat := 0
  length : Nat := 0
  pre : Nat := 0
  base : Nat := 0
  units : Nat := 0
  wr : Nat := 0
  valid : Nat := 0
  validPre : Nat := 0
  rd : Nat := 0
  lost : Word := 0
  poison : Nat := 0xFFFFFFFF
  poisoned : List (Nat × Nat) := []
  trigTime : Nat := 0
  after : Nat := 0
  rows : Tab (Option (Nat × List Int)) := []
  acc : List (List Int) := []
  raw : Option (List Int) := none
  trigNow : Bool := false
  deriving DecidableEq, Repr, Inhabited

/-- An injection on an axis (R198, R199): its payload, the cadence number, and the generator's registers. -/
structure Inject where
  p : List Byte := []
  start : Nat := 0
  running : Bool := false
  n : Nat := 0
  phi : Nat := 0
  held : Nat := 0
  inc : Nat := 0
  c : Int := 0
  sr : Nat := 0
  value : Int := 0
  stop : Option (Nat × Nat) := none
  deriving DecidableEq, Repr, Inhabited

/-- An analysis under way (R203): the slot that posted it, the session, and the instant by which it completes. -/
structure Frf where
  mb : Nat := 0
  slot : Nat := 0
  session : Nat := 0
  due : Nat := 0
  blocks : Nat := 0
  block : Nat := 0
  deriving DecidableEq, Repr, Inhabited

/-- Tracing: sessions, the bytes of trace memory are those of `rows`; injections by axis; the analysis that runs; the events that
have occurred since the last compute end. -/
structure TrcSt where
  ses : Tab Session := []
  inj : Tab (Option Inject) := []
  frf : Option Frf := none
  occurred : BitVec 128 := 0
  deriving DecidableEq, Repr, Inhabited

/-- A waiting zone request (R210): group, deadline, promise boundary, admission order, and the boundary of a zone.release
that withdraws it. -/
structure ZoneReq where
  group : Nat := 0
  deadline : Nat := 0
  promise : Nat := 0
  seq : Nat := 0
  withdraw : Option Nat := none
  deriving DecidableEq, Repr, Inhabited

/-- A zone: its box as six FP32 words, holder, requests, and a release that waits. -/
structure Zone where
  defined : Bool := false
  box : List Nat := []
  holder : Option Nat := none
  grant : Nat := 0
  reqs : List ZoneReq := []
  releaseAt : Option Nat := none
  deriving DecidableEq, Repr, Inhabited

/-- A channel's finding for one group in a guard period: scale k, separation, stop request (category plus 1, 0 none) with its
reason, tool point, capsule-point speed. -/
structure Verdict where
  k : Nat := 256
  d : Int := 0
  obj : Nat := 0
  stop : Nat := 0
  reason : Nat := 0
  tcp : List Int := []
  speed : Int := 0
  deriving DecidableEq, Repr, Inhabited

/-- Separation monitoring of one group: the ssm.set_group payload, channel 1's verdict of the guard period, channel 2's as die F
computed it (`v2calc`) and as die M received it (`v2`), scales, distances and counts. `own1`, `own2` are the scales each channel
has given with their instants, newest first; `feed2` that channel 2 waits for valid copies (R233); `ch2Stop` the deadline of
channel 2's stop request (R236); `guardP` the joints' axis positions at the latest guard snapshot. -/
structure SsmGrp where
  cfg : List Byte := []
  cfgF : List Byte := []
  v1 : Option Verdict := none
  v2calc : Option Verdict := none
  v2 : Option Verdict := none
  s1 : Nat := 256
  s2 : Nat := 256
  d1 : Int := 2 ^ 210
  d2 : Int := 2 ^ 210
  reason : Nat := 0
  reasonAt : Nat := 0
  mismatch : Nat := 0
  absent : Nat := 0
  vrMeas : Int := 0
  fast1 : Nat := 0
  fast2 : Nat := 0
  own1 : List (Nat × Nat) := []
  own2 : List (Nat × Nat) := []
  feed2 : Bool := false
  stops : Word := 0
  ch2Stop : Option Nat := none
  override2 : Bool := false
  guardP : List Int := []
  deriving DecidableEq, Repr, Inhabited

/-- The parts of one kind of record that have arrived from a sensor (R220): period number, sensing instant, parts, their
number, and the runs that they name. -/
structure Parts where
  seq : Option Nat := none
  stamp : Nat := 0
  got : List Nat := []
  need : Nat := 1
  runs : List (Nat × Nat) := []
  deriving DecidableEq, Repr, Inhabited

/-- A human track (table "TRACK record"), in mm and mm/s. -/
structure Track where
  pos : List Int := []
  vel : List Int := []
  radius : Nat := 0
  deriving DecidableEq, Repr, Inhabited

/-- A complete update as a channel holds it: its period number, sensing instant, instant of completion, runs and tracks. -/
structure Update where
  seq : Nat := 0
  stamp : Nat := 0
  at' : Nat := 0
  runs : List (Nat × Nat) := []
  tracks : List (Nat × Track) := []
  deriving DecidableEq, Repr, Inhabited

/-- A sensor: the ssm.set_sensor payload in force, the records that arrive, the last complete update of each channel, what the
guard period uses of them with each channel's staleness, whether the entry to the stale state is recorded, and discards. -/
structure Sensor where
  cfg : List Byte := []
  cfgF : List Byte := []
  fine : Parts := {}
  coarse : Parts := {}
  track : Parts := {}
  tracks : List (Nat × Track) := []
  done1 : Option Update := none
  done2 : Option Update := none
  act1 : Option Update := none
  act2 : Option Update := none
  stale1 : Bool := true
  stale2 : Bool := true
  recorded : Bool := false
  discards : Word := 0
  deriving DecidableEq, Repr, Inhabited

/-- The bytes of the reset values of ssm.configure (table "ssm.configure payload"). -/
def ssmReset : List Byte :=
  [20, 0, 2, 0] ++ List.replicate 12 0 ++ [0xCD, 0xCC, 0xCC, 0x3F] ++ [0x0A, 0xD7, 0xA3, 0x3B] ++ [0x0A, 0xD7, 0xA3, 0x3C]
    ++ [0x29, 0x5C, 0x8F, 0x3E] ++ [0xCD, 0xCC, 0x4C, 0x3D] ++ List.replicate 4 0

/-- The shared workspace: zones, configuration, groups, obstacles in force and waiting for the planning snapshot, sensors, memory
faults of both channels, and the guard boundaries (plus 1) of the latest snapshot and of the latest verdict deadline. -/
structure SsmSt where
  zones : Tab Zone := []
  cfg : List Byte := ssmReset
  cfgF : List Byte := ssmReset
  grp : Tab SsmGrp := []
  obs : Tab (List Byte) := []
  obsNext : List (Nat × List Byte) := []
  sens : Tab Sensor := []
  fault1 : Bool := false
  fault2 : Bool := false
  snapAt : Nat := 0
  verdictAt : Nat := 0
  deriving DecidableEq, Repr, Inhabited

end Sys2Proof.Machine
end

