-- ==== Sys2Proof/Machine/State.lean ====
section
/-!
DEFINITION. The state of the block: everything the spec gives the device, the queue of waiting commands, and
the model's own counters of free values and of output. `State.reset` is the machine right after reset.
-/
namespace Sys2Proof.Machine

/-- Why the machine stops with a fault. -/
inductive Fault
  /-- Raised by REGISTER_WRITE for an offset that the 64 KiB BAR0 or the 32 MiB BAR2 does not have (R39): there
  is no such address in the function. Safe: no state follows. -/
  | noSuchAddress (off : Nat)
  deriving DecidableEq, Repr

/-- Why the machine refuses a command. -/
inductive Refusal
  /-- Raised by an arm of `exec` whose command has no meaning in the model yet. Safe: no state follows. -/
  | notModelled (mnemonic : String)
  deriving DecidableEq, Repr

/-- The state of the KV-16128. -/
structure State where
  host : HostSt := {}
  evt : EvtBlock := {}
  strm : Tab Stream := []
  time : TimeSt := {}
  cad : CadSt := {}
  ptp : Tab PtpPort := []
  dev : DevSt := {}
  jrn : JrnSt := {}
  hub : HubSt := {}
  xl : XlinkSt := {}
  bus : Tab Segment := []
  pel : PelSt := {}
  axes : Tab AxisSt := []
  grps : Tab GroupSt := []
  sig : SigSt := {}
  sch : SchedSt := {}
  io : IoSt := {}
  stp : Tab StpAxis := []
  qp : QpSt := {}
  trc : TrcSt := {}
  ssm : SsmSt := {}
  eff : List Eff := []
  tilesOut : BitVec 32 := 0
  lanesOut : BitVec 64 := 0
  out : List Out := []
  admitSeq : Nat := 0
  free : Nat := 0
  pending : List Instr := []
  deriving DecidableEq, Repr

/-- The machine right after reset: every field at the value the spec states, or at the value that the
assumption log names. -/
def State.reset : State := {}

end Sys2Proof.Machine
end

