-- ==== Sys2Proof/Machine/Operands.lean ====
section
/-!
DEFINITION. Operand forms: the command header (table "Command header"), the fields of payloads and results in
host byte order (R8), object ranges (R6) and the numbers of the modes and status codes.
-/
namespace Sys2Proof.Machine

/-- The unsigned field of `n` bytes at offset `o` (R8, little-endian). -/
def un (p : List Byte) (o n : Nat) : Nat := leNat ((p.drop o).take n)
/-- A one-byte field. -/
def u8 (p : List Byte) (o : Nat) : Nat := un p o 1
/-- A two-byte field. -/
def u16 (p : List Byte) (o : Nat) : Nat := un p o 2
/-- A four-byte field. -/
def u32 (p : List Byte) (o : Nat) : Nat := un p o 4
/-- An eight-byte field. -/
def u64 (p : List Byte) (o : Nat) : Nat := un p o 8
/-- A signed one-byte field. -/
def i8 (p : List Byte) (o : Nat) : Int := signedOf 8 (u8 p o)
/-- A signed two-byte field. -/
def i16 (p : List Byte) (o : Nat) : Int := signedOf 16 (u16 p o)
/-- A signed four-byte field. -/
def i32 (p : List Byte) (o : Nat) : Int := signedOf 32 (u32 p o)
/-- A signed eight-byte field, such as a Q32.32 position (R9). -/
def i64 (p : List Byte) (o : Nat) : Int := signedOf 64 (u64 p o)
/-- Whether the `n` bytes at offset `o` are all 0, as reserved bytes must be (R10, BAD_ARG of R52). -/
def zeroAt (p : List Byte) (o n : Nat) : Bool := ((p.drop o).take n).all (· = 0)
/-- The bytes of a structure from its fields: each a size and a value, in order. -/
def fields (l : List (Nat × Nat)) : List Byte := (l.map (fun e => leBytes e.1 e.2)).flatten
/-- A list made exactly `n` long: cut, or filled with zero bytes. -/
def fit (n : Nat) (l : List Byte) : List Byte := (l ++ List.replicate (n - l.length) 0).take n
/-- The bits that a signed value puts into a field of `n` bytes. -/
def sn (n : Nat) (i : Int) : Nat := bitsOf (8 * n) i
/-- The number 1 for true and 0 for false. -/
def b2n (b : Bool) : Nat := if b then 1 else 0
/-- The number whose bit i is element i. -/
def bitsN : List Bool → Nat
  | [] => 0
  | b :: r => b2n b + 2 * bitsN r

/-- DEVSTAT.MODE codes. -/
def Mode.code : Mode → Nat
  | .reset => 0 | .boot => 1 | .init => 2 | .run => 3 | .kickstand => 4 | .fault => 5

/-- Values of the table "Status codes". -/
def Status.code : Status → Nat
  | .ok => 0x0000 | .okAdjusted => 0x0001 | .badOpcode => 0x0101 | .badLength => 0x0102
  | .badObject => 0x0103 | .badArg => 0x0104 | .outOfRange => 0x0105 | .stateConflict => 0x0201
  | .objectBusy => 0x0202 | .notConfigured => 0x0203 | .notSchedulable => 0x0301 | .timeWindow => 0x0302
  | .lateDropped => 0x0303 | .cancelled => 0x0304 | .noCredit => 0x0401 | .noMemory => 0x0402
  | .notPrivileged => 0x0501 | .signatureInvalid => 0x0502 | .rollback => 0x0503
  | .deviceFault => 0x0601 | .kickstand => 0x0602

/-- The place of a status in the order of checks of R53. -/
def Status.rank : Status → Nat
  | .deviceFault => 1 | .kickstand => 2 | .badOpcode => 3 | .badLength => 4 | .notPrivileged => 5
  | .badObject => 6 | .notConfigured => 7 | .badArg => 8 | .outOfRange => 9 | .stateConflict => 10
  | .objectBusy => 11 | .timeWindow => 12 | .lateDropped => 13 | .notSchedulable => 14 | .noCredit => 15
  | .noMemory => 16 | .signatureInvalid => 17 | .rollback => 18 | .cancelled => 19
  | .okAdjusted => 20 | .ok => 21

/-- The first code in the order of R53 whose condition holds. -/
def firstBad : List (Bool × Status) → Option Status
  | [] => none
  | (b, st) :: r =>
    match b, firstBad r with
    | false, o => o
    | true, none => some st
    | true, some st' => if st'.rank < st.rank then some st' else some st

/-- The header of a command (table "Command header"). -/
structure Hdr where
  opcode : Nat := 0
  tag : Nat := 0
  flags : Nat := 0
  object : Nat := 0
  len : Nat := 0
  reqTime : Nat := 0
  dataAddr : Nat := 0
  resAddr : Nat := 0
  resCap : Nat := 0
  resvZero : Bool := true
  deriving DecidableEq, Repr, Inhabited

/-- Read the 64 header bytes. -/
def readHdr (b : List Byte) : Hdr where
  opcode := u16 b 0
  tag := u16 b 2
  flags := u32 b 4
  object := u32 b 8
  len := u32 b 12
  reqTime := u64 b 16
  dataAddr := u64 b 24
  resAddr := u64 b 32
  resCap := u32 b 40
  resvZero := zeroAt b 44 20

/-- NO_LATE (table "Command flags"). -/
def Hdr.noLate (h : Hdr) : Bool := bitOf h.flags 0
/-- INDIRECT_PAYLOAD. -/
def Hdr.indPayload (h : Hdr) : Bool := bitOf h.flags 1
/-- INDIRECT_RESULT. -/
def Hdr.indResult (h : Hdr) : Bool := bitOf h.flags 2
/-- NO_EVENT. -/
def Hdr.noEvent (h : Hdr) : Bool := bitOf h.flags 3

end Sys2Proof.Machine
end

