-- ==== Sys2Proof/Machine/Ops.lean ====
section
/-!
DEFINITION. The named operations that every command uses: time, free values, performance counters, events,
journal records, mailbox slots and completions, boundaries and promise times, and `runCmd`, the one path of a
mailbox command through the checks of R53.
-/
namespace Sys2Proof.Machine

/-- The present long time in ns (R256). -/
def now (s : State) : Nat := s.time.long.toNat

/-- Move long time forward to `t`; it never steps back (R258). -/
def advanceTo (t : Nat) (s : State) : State :=
  if now s < t then { s with time := { s.time with long := BitVec.ofNat 64 t, frac := 0 } } else s

/-- The present free 64-bit value. -/
def freeNow (s : State) : BitVec 64 := Config.freeValue s.free
/-- Pass on to the next free value. -/
def freeNext (s : State) : State := { s with free := s.free + 1 }

/-- Something leaves the device. -/
def emit (k : OutKind) (u : Nat) (b : List Byte) (s : State) : State :=
  { s with out := ⟨k, u, b⟩ :: s.out }

/-- The firmware sets the PHY that answers at address `p` of a management bus (0 Virza ports, 1 plant ports) to 1,000 Mb/s full duplex
(R429): a clause 22 write of the control register. -/
def phySetup (bus p : Nat) (s : State) : State := emit .mgmt (32 * bus + p) [BitVec.ofNat 8 p, 0, 0x01, 0x40] s

/-! Performance counters. -/

/-- The kind code of a spoke (R406, table "Event codes"). -/
def spokeKind (i : Nat) : Nat :=
  if i = 0 then 0x01 else if i ≤ 4 then 0x02 else if i ≤ 9 then 0x03 else if i ≤ 41 then 0x04
  else if i ≤ 105 then 0x05 else if i ≤ 109 then 0x06 else if i ≤ 111 then 0x07 else if i ≤ 127 then 0x08
  else if i ≤ 131 then 0x09 else if i = 132 then 0x0A else if i ≤ 134 then 0x0B else if i = 135 then 0x0C
  else if i = 136 then 0x0D else if i ≤ 140 then 0x0E else if i = 141 then 0x0F else 0x10

/-- How many events the kind's row lists. -/
def kindEvents (k : Nat) : Nat :=
  lget 0 [0, 8, 7, 7, 7, 7, 3, 6, 8, 7, 5, 4, 7, 5, 6, 4, 4] k

/-- A spoke as reset leaves it (R408): counters 0 to 6 select the kind's first events, counter 7 ECC_CORR. -/
def spokeReset (i : Nat) : Spoke :=
  let k := spokeKind i
  { sel := (List.range 7).map (fun n => if n < kindEvents k then k * 256 + n + 1 else 0) ++ [2] }

/-- Spoke `i`. -/
def spokeOf (s : State) (i : Nat) : Spoke := tget (spokeReset i) s.hub.spokes i
/-- Replace spoke `i`. -/
def setSpoke (i : Nat) (p : Spoke) (s : State) : State :=
  { s with hub := { s.hub with spokes := tset (spokeReset i) s.hub.spokes i p } }

/-- Add `n` to each counter whose select is `code`; a wrap sets the sticky bit (R407). -/
def bumpCounters (code n : Nat) : Nat → List Nat → List Word → BitVec 8 → List Word × BitVec 8
  | i, sl :: sr, c :: cr, o =>
    let (cs, o') := bumpCounters code n (i + 1) sr cr o
    if sl = code then ((c + BitVec.ofNat 32 n) :: cs, if 2 ^ 32 ≤ c.toNat + n then o' ||| BitVec.twoPow 8 i else o')
    else (c :: cs, o')
  | _, _, c, o => (c, o)

/-- Count `n` occurrences of event `code` in spoke `i` (R407, R408). -/
def countN (i code n : Nat) (s : State) : State :=
  let p := spokeOf s i
  let (cs, o) := bumpCounters code n 0 p.sel p.cnt p.ovf
  setSpoke i { p with cnt := cs, ovf := o } s

/-- Count one occurrence. -/
def count (i code : Nat) (s : State) : State := countN i code 1 s

/-! The event block (R59 to R61). -/

/-- Whether the message of vector `v` is held back (R60): MSI-X is disabled, the function is masked, or the MSI-X table masks the
vector (PCIe vector control, bit 0 of byte 12). -/
def vectorMasked (s : State) (v : Nat) : Bool :=
  !s.host.msixOn || s.host.msixMask || mget s.host.msix (16 * v + 12) &&& 1#8 ≠ 0#8

/-- Send the message of vector `v`, or hold it pending where the vector is masked; one message per tick (R60). -/
def fireVector (v : Nat) (s : State) : State :=
  if tget 0 s.evt.sent v = now s + 1 then s
  else if vectorMasked s v then { s with host := { s.host with pba := s.host.pba ||| BitVec.twoPow 32 v } }
  else count 0 0x0105 (emit .msix v [] { s with evt := { s.evt with sent := tset 0 s.evt.sent v (now s + 1) } })

/-- The vector to which event `e` is mapped (EVT_MAP, [4:0]). -/
def vectorOf (s : State) (e : Nat) : Nat := (lget 0 s.evt.map e).toNat % 32

/-- An occurrence of event `e` (R59, R60). -/
def raise (e : Nat) (s : State) : State :=
  let was := s.evt.pend.getLsbD e
  let s1 := { s with evt := { s.evt with
    pend := s.evt.pend ||| BitVec.twoPow 128 e
    lost := if was then s.evt.lost ||| BitVec.twoPow 128 e else s.evt.lost }
                     trc := { s.trc with occurred := s.trc.occurred ||| BitVec.twoPow 128 e } }
  if !was && !s.evt.mask.getLsbD e then fireVector (vectorOf s e) s1 else s1

/-- Raise the event where the condition holds. -/
def raiseIf (b : Bool) (e : Nat) (s : State) : State := if b then raise e s else s

/-! The journal (R398 to R401). -/

/-- Whether die M can still send records: the crosslink is up and neither lost nor stopped (R399). -/
def xlinkCarries (s : State) : Bool := s.xl.up && !s.xl.lost && !s.xl.stopped

/-- Replace the newest info or warning record of a queue (R399); none where there is none. -/
def replaceNewest (r : JRec) (q : List JRec) : Option (List JRec) :=
  match q.reverse.findIdx? (fun x => x.sev ≤ 1) with
  | none => none
  | some k => some (lset q (q.length - 1 - k) r)

/-- Count one dropped record. -/
def dropRecord (s : State) : State :=
  { s with jrn := { s.jrn with dropped := s.jrn.dropped + 1, toReport := s.jrn.toReport + 1 } }

/-- Die M raises a record (R399). -/
def journalRec (r : JRec) (s : State) : State :=
  if s.xl.lost || s.xl.stopped then
    { s with jrn := { s.jrn with dropped := s.jrn.dropped + 1 } }
  else if s.jrn.queueM.length < 1024 then
    count 1 0x0207 { s with jrn := { s.jrn with queueM := s.jrn.queueM ++ [r] } }
  else if r.sev ≤ 1 then dropRecord s
  else match replaceNewest r s.jrn.queueM with
    | some q => dropRecord { s with jrn := { s.jrn with queueM := q } }
    | none => dropRecord s

/-- A record of die M with the present time and boot count. -/
def mkRec (src code sev obj aux : Nat) (detail : List Byte) (s : State) : JRec :=
  { time := s.time.long, boot := s.dev.bootRec.bootCount, source := src, code := code, sev := sev,
    object := obj, aux := aux, detail := detail }

/-- Die M raises the record `src`/`code` of severity `sev` about object `obj`. -/
def journal (src code sev obj aux : Nat) (detail : List Byte) (s : State) : State :=
  journalRec (mkRec src code sev obj aux detail s) s

/-- Die F raises a record of its own: it takes its place in die F's queue at once (R400). -/
def journalF (src code sev obj aux : Nat) (detail : List Byte) (s : State) : State :=
  { s with jrn := { s.jrn with queueF := s.jrn.queueF ++
    [{ mkRec src code sev obj aux detail s with dieF := true, holdup := s.jrn.holdup }] } }

/-- No object (table "Journal record"). -/
def noObj : Nat := 0xFFFFFFFF

/-! Mailboxes (R45 to R49). -/

/-- Mailbox `m`. -/
def mbOf (s : State) (m : Nat) : Mailbox := tget {} s.host.mb m
/-- Replace mailbox `m`. -/
def setMb (m : Nat) (b : Mailbox) (s : State) : State :=
  { s with host := { s.host with mb := tset {} s.host.mb m b } }
/-- The state of slot `k` of mailbox `m`. -/
def slotOf (s : State) (m k : Nat) : Slot := tget .free (mbOf s m).slots k
/-- Set the state of a slot; a doorbell that waited there is over. -/
def setSlot (m k : Nat) (v : Slot) (s : State) : State :=
  setMb m { mbOf s m with slots := tset .free (mbOf s m).slots k v, bells := tdrop (mbOf s m).bells k } s
/-- One more than the instant of the doorbell of a slot that SUP has not taken yet; 0 where none waits. -/
def bellOf (s : State) (m k : Nat) : Nat := tget 0 (mbOf s m).bells k
/-- SUP has taken the command of a slot: its doorbell waits no longer. -/
def takeBell (m k : Nat) (s : State) : State := setMb m { mbOf s m with bells := tdrop (mbOf s m).bells k } s
/-- The doorbells that wait: instant, mailbox, slot. -/
def bells (s : State) : List (Nat × Nat × Nat) :=
  (List.range 8).flatMap (fun m => (mbOf s m).bells.map (fun e => (e.2, m, e.1)))
/-- The order of admission (R28): by instant, then lower mailbox, then lower slot. -/
def bellBefore (a b : Nat × Nat × Nat) : Bool :=
  a.1 < b.1 || (a.1 = b.1 && (a.2.1 < b.2.1 || (a.2.1 = b.2.1 && a.2.2 < b.2.2)))
/-- Whether the doorbell of a slot is the first of those that wait (R28). -/
def myTurn (s : State) (m k : Nat) : Bool :=
  bellOf s m k ≠ 0 && (bells s).all (fun e => !bellBefore e (bellOf s m k, m, k))

/-- BAR2 offset of a command buffer (table "BAR2 layout"). -/
def cmdBuf (m k : Nat) : Nat := m * 0x20000 + k * 0x1000
/-- BAR2 offset of a completion buffer. -/
def cplBuf (m k : Nat) : Nat := 0x100000 + m * 0x8000 + k * 0x400
/-- The header that the command buffer holds. -/
def hdrOf (s : State) (m k : Nat) : Hdr := readHdr (mread s.host.bar2 (cmdBuf m k) 64)

/-- Write bytes into BAR2. -/
def bar2Write (a : Nat) (b : List Byte) (s : State) : State :=
  { s with host := { s.host with bar2 := mwrite s.host.bar2 a b } }

/-- Whether the completion carries no object state whatever the object (table "Completion"). -/
def Status.stateless : Status → Bool
  | .deviceFault | .kickstand | .badOpcode | .badLength | .notPrivileged | .badObject => true
  | _ => false

/-- The completion header (table "Completion"). -/
def cplBytes (h : Hdr) (st : Status) (time state : Nat) (res : List Byte) (s : State) : List Byte :=
  fields [(2, h.tag), (2, st.code), (2, h.opcode), (2, if h.indResult && res ≠ [] then 0xFFFF else res.length),
    (8, time), (8, now s), (4, if st.stateless then 0xFFFFFFFF else state), (2, s.time.epoch.toNat), (2, 0)]

/-- The mailbox number under which a record of a cell image runs: as if on mailbox 0 (R388). -/
def imageMb : Nat := 0xFE

/-- A record of a cell image has completed (R388). -/
def recordDone (st : Status) (s : State) : State :=
  let fin (r : Replay) : Replay :=
    if !r.running then r
    else if st = .ok || st = .okAdjusted then { r with running := false, done := r.done + 1 }
    else { r with running := false, failed := some st }
  { s with dev := { s.dev with replay := s.dev.replay.map fin } }

/-- Write the completion of the command in slot `k` of mailbox `m`: buffer first, then DONE, then the event
(R48). The completion of a slot that is no longer POSTED is discarded (R40). -/
def complete (m k : Nat) (st : Status) (time state : Nat) (res : List Byte) (s : State) : State :=
  if m = imageMb then recordDone st s
  else if slotOf s m k ≠ .posted then s else
  let h := hdrOf s m k
  let s1 := if h.indResult && res ≠ [] then emit .dma h.resAddr res s
    else bar2Write (cplBuf m k + 32) (res.take 992) s
  let s2 := bar2Write (cplBuf m k) (cplBytes h st time state res s) s1
  let s3 := setSlot m k .done s2
  if h.noEvent then s3 else raise m s3

/-! Boundaries and promise times (R32 to R34). -/

/-- The smallest multiple of `p` at or after `t`. -/
def ceilTo (p t : Nat) : Nat := if p = 0 then t else (t + (p - 1)) / p * p

/-- The first start of a period of `n` cadences at or after `t` that has not begun yet. -/
def startFrom (s : State) (n t : Nat) : Nat :=
  ceilTo (n * s.cad.ns) (max t (if s.cad.started then s.cad.start + s.cad.len else now s))

/-- The first compute end at or after the present instant (70 % of a cadence, R23). -/
def nextComputeEnd (s : State) : Nat :=
  if s.cad.started && s.cad.phase < 3 then s.cad.start + s.cad.len * 7 / 10
  else startFrom s 1 (now s) + s.cad.ns * 7 / 10

/-- Command kinds and their boundaries (table "Command kinds, boundaries"). `tick dieF` is a timed
action; `at t` a boundary that the chapter works out itself. -/
inductive Kind | untimed | tick (dieF : Bool) | cadence | round | plan | mpc | at (t : Nat)
  deriving DecidableEq, Repr, Inhabited

/-- The promise time of a command of kind `k` with requested time `tr` admitted now (R32, R261). -/
def promiseOf (s : State) (k : Kind) (tr : Nat) : Nat :=
  match k with
  | .untimed => now s
  | .tick false => ceilTo 4 (max (now s) tr)
  | .tick true => ceilTo 4 (max (1000 + nextComputeEnd s) tr)
  | .at t => t
  | .cadence => startFrom s 1 (max (now s) tr)
  | .round => startFrom s s.cad.round (max (now s) tr)
  | .plan => startFrom s s.cad.plan (max (now s) tr)
  | .mpc => startFrom s s.cad.plan (max (now s) (tr - s.cad.plan * s.cad.ns)) + s.cad.plan * s.cad.ns

/-! The path of one mailbox command. -/

/-- A command as its chapter's meaning sees it. -/
structure Cmd where
  mb : Nat
  slot : Nat
  h : Hdr
  p : List Byte
  promise : Nat
  deriving DecidableEq, Repr

/-- What an accepted command does: the state after it, its result, a time that stands in place of the promise
time, whether a value was adjusted, whether the completion comes later, and a status or STATE that the chapter sets. -/
structure Act where
  s : State
  res : List Byte := []
  time : Option Nat := none
  adjusted : Bool := false
  later : Bool := false
  status : Option Status := none
  state : Option Nat := none

/-- What a chapter says of a command: the conditions of its status codes, the earliest time that accompanies
NOT_SCHEDULABLE (R35), what a refused command does and answers all the same, and the act of an accepted one. -/
structure Plan where
  bad : List (Bool × Status) := []
  earliest : Nat := 0xFFFFFFFFFFFFFFFF
  refused : Status → State → State := fun _ s => s
  refusedRes : Status → List Byte := fun _ => []
  refusedState : Status → Option Nat := fun _ => none
  act : State → Act

/-- What is fixed for a command: opcode, length, privilege, flags, object range, whether its object must be configured and is (R6),
modes and kind. -/
structure CmdSpec where
  opcode : Nat
  lenOk : Nat → List Byte → Bool := fun n _ => n = 0
  priv : Bool := false
  indP : Bool := false
  indR : Bool := false
  needIndR : Bool := false
  objOk : Nat → State → Bool := fun o _ => o = 0
  conf : Nat → State → Bool := fun _ _ => true
  stateOf : Nat → State → Nat := fun _ _ => 0xFFFFFFFF
  kick : Bool := false
  inFault : List Byte → Bool := fun _ => false
  kind : Hdr → List Byte → State → Kind := fun _ _ _ => .untimed
  resMax : List Byte → Nat := fun _ => 0
  body : Cmd → State → Plan

/-- The conditions that hold for every command (R33, R34, R50, R51, R53, R55, R56). -/
def commonBad (sp : CmdSpec) (c : Cmd) (k : Kind) (s : State) : List (Bool × Status) :=
  let rmax := sp.resMax c.p
  [(s.dev.mode = .fault && (s.dev.noCore || !sp.inFault c.p), .deviceFault),
   (s.dev.mode = .kickstand && !sp.kick, .kickstand),
   (!sp.lenOk c.h.len c.p, .badLength),
   (!c.h.indPayload && 4032 < c.h.len, .badLength),
   (c.h.indPayload && (c.h.len = 0 || 16777216 < c.h.len), .badLength),
   (!c.h.indResult && 992 < rmax, .badLength),
   (c.h.indResult && c.h.resCap < rmax, .badLength),
   (sp.needIndR && !c.h.indResult, .badLength),
   (sp.priv && c.mb ≠ 0 && c.mb ≠ imageMb, .notPrivileged),
   (!sp.objOk c.h.object s, .badObject),
   (!sp.conf c.h.object s, .notConfigured),
   (16 ≤ c.h.flags || !c.h.resvZero, .badArg),
   (c.h.indPayload && !sp.indP, .badArg),
   (c.h.indResult && !sp.indR, .badArg),
   (!c.h.indPayload && c.h.dataAddr ≠ 0, .badArg),
   (!c.h.indResult && (c.h.resAddr ≠ 0 || c.h.resCap ≠ 0), .badArg),
   (k ≠ .untimed && 2147483647 + now s < c.h.reqTime, .timeWindow),
   (k ≠ .untimed && c.h.noLate && c.h.reqTime ≠ 0 && c.h.reqTime < now s, .lateDropped)]

/-- The command that a POSTED slot holds, with its payload: inline, or as DMA fetched it (R50). -/
def cmdOf (sp : CmdSpec) (r : CmdRef) (s : State) : Cmd :=
  let h := hdrOf s r.mb r.slot
  let p := if h.indPayload then fit h.len r.dma
    else mread s.host.bar2 (cmdBuf r.mb r.slot + 64) (min h.len 4032)
  { mb := r.mb, slot := r.slot, h := h, p := p, promise := promiseOf s (sp.kind h p s) h.reqTime }

/-- Admit or reject the command `c` (R3, R28, R32, R35, R52, R53). -/
def admitCmd (sp : CmdSpec) (c : Cmd) (s : State) : State :=
  let k := sp.kind c.h c.p s
  let pl := sp.body c s
  match firstBad (commonBad sp c k s ++ pl.bad) with
  | some st =>
    let s1 := if k ≠ .untimed then count 1 0x0202 s else s
    complete c.mb c.slot st (if st = .notSchedulable then pl.earliest else 0)
      ((pl.refusedState st).getD (sp.stateOf c.h.object s)) (pl.refusedRes st) (pl.refused st s1)
  | none =>
    let s1 := if k ≠ .untimed then count 1 0x0201 s else s
    let a := pl.act { s1 with admitSeq := s1.admitSeq + 1 }
    if a.later then takeBell c.mb c.slot a.s
    else
      let t := a.time.getD (if k = .untimed then now s else c.promise)
      let adj := a.adjusted || (k ≠ .untimed && c.h.reqTime ≠ 0 && c.promise ≠ c.h.reqTime)
      complete c.mb c.slot (a.status.getD (if adj then .okAdjusted else .ok)) t
        (a.state.getD (sp.stateOf c.h.object a.s)) a.res a.s

/-! Descriptors of the scheduler (R244, R245). -/

/-- The lists of a class. -/
def clsOf (s : State) (k : Nat) : ClassSt := tget {} s.sch.cls k
/-- Whether a descriptor is reserved for a periodic task (FLAGS bit 0). -/
def periodic (d : Descriptor) : Bool := d.flags.getLsbD 0

/-- Descriptors of a class reserved by R244. -/
def reserved (l : List Share) (cls : Nat) : Nat := 2 * (l.filter (fun e => e.cls = cls)).length

/-- The tasks of a class that are not reserved ones: held, ready, suspended, in service or queued behind a flow. -/
def poolUsed (s : State) (k : Nat) : Nat :=
  let c := clsOf s k
  let own (l : List Task) : Nat := (l.filter (fun t => t.d.cls.val = k && !periodic t.d)).length
  own c.held + own c.ready + own c.suspended + own (s.sch.units.filterMap (·.2)) + own (s.sch.flows.flatMap (fun f => f.2.queue))

/-- Unreserved descriptors of a class that are free now (R253). -/
def poolFree (s : State) (k : Nat) : Nat := 4096 - reserved s.sch.shares k - poolUsed s k

/-- Whether SUP takes the command of a slot now: its doorbell is the first that waits (R28) and the SUP pool has a descriptor for the
command's tasks (R54). -/
def supTakes (s : State) (m k : Nat) : Bool := slotOf s m k = .posted && myTurn s m k && 0 < poolFree s 4

/-- A mailbox command: SUP takes the command of a POSTED slot. Where the slot is not POSTED, its doorbell is not the first that waits,
no descriptor is free, or its buffer holds another command's opcode, there is no such command yet and nothing happens. -/
def runCmd (sp : CmdSpec) (r : CmdRef) (s : State) : State :=
  if supTakes s r.mb r.slot && (hdrOf s r.mb r.slot).opcode = sp.opcode then
    admitCmd sp (cmdOf sp r s) s
  else s

end Sys2Proof.Machine
end

