-- ==== Sys2Proof/Machine/Real.lean ====
section
/-!
DEFINITION. Real quantities as integers in units of 2^-80, IEEE binary32 and binary64 fields, and the rounding of
R88. The manual fixes segment times within 1 ns and positions within 2^-32; 2^-80 lies far below both.
-/
namespace Sys2Proof.Machine

/-- A real number in units of 2^-80. -/
abbrev Fx := Int

/-- 1.0. -/
def one : Fx := 2 ^ 80
/-- The product, rounded down. -/
def fmul (a b : Fx) : Fx := a * b / 2 ^ 80
/-- The quotient, rounded down; 0 where the divisor is 0. -/
def fdiv (a b : Fx) : Fx := a * 2 ^ 80 / b
/-- A fraction of integers. -/
def frac (n d : Int) : Fx := n * 2 ^ 80 / d
/-- One Newton step per unit of fuel towards ⌊√n⌋. -/
def sqrtLoop (n : Nat) : Nat → Nat → Nat
  | 0, x => x
  | k + 1, x => let y := (x + n / x) / 2; if y < x then sqrtLoop n k y else x
/-- ⌊√n⌋. -/
def natSqrt (n : Nat) : Nat := if n = 0 then 0 else sqrtLoop n 200 (2 ^ (Nat.log2 n / 2 + 1))
/-- The square root of a non-negative number; 0 below 0. -/
def fsqrt (a : Fx) : Fx := if a ≤ 0 then 0 else (natSqrt (a.toNat * 2 ^ 80) : Nat)
/-- Absolute value. -/
def fabs (a : Fx) : Fx := if a < 0 then -a else a
/-- The sign, -1, 0 or 1. -/
def sgn (a : Int) : Int := if a < 0 then -1 else if 0 < a then 1 else 0
/-- A value limited to lo..hi. -/
def clampI (lo hi x : Int) : Int := if x < lo then lo else if hi < x then hi else x

/-- n/d rounded half to even (d > 0). -/
def divEven (n d : Int) : Int :=
  let q := n / d
  let r := n % d
  if 2 * r < d then q else if d < 2 * r then q + 1 else if q % 2 = 0 then q else q + 1

/-- A Q32.32 value as a real. -/
def ofQ (q : Int) : Fx := q * 2 ^ 48
/-- A real as Q32.32, rounded half to even and saturated (R88). -/
def toQ (a : Fx) : Int := clampI (-(2 ^ 63)) (2 ^ 63 - 1) (divEven a (2 ^ 48))
/-- Nanoseconds as a real number of seconds. -/
def secOfNs (n : Int) : Fx := frac n 1000000000
/-- A real number of seconds in whole nanoseconds, rounded half to even. -/
def nsOfSec (a : Fx) : Int := divEven (a * 1000000000) (2 ^ 80)

/-- The value of an IEEE field with `e` exponent bits and `m` fraction bits; none for infinities and NaN. -/
def ieeeVal (e m w : Nat) : Option Fx :=
  let ex := w / 2 ^ m % 2 ^ e
  let fr := w % 2 ^ m
  let bias := 2 ^ (e - 1) - 1
  if ex = 2 ^ e - 1 then none else
  let mant := if ex = 0 then fr else 2 ^ m + fr
  let k : Int := (if ex = 0 then 1 else ex : Nat) - (bias : Int) - (m : Int) + 80
  let v : Int := if 0 ≤ k then (mant : Int) * 2 ^ k.toNat else divEven mant (2 ^ (-k).toNat)
  some (if w / 2 ^ (e + m) % 2 = 1 then -v else v)

/-- The value of an FP32 field. -/
def f32? (w : Nat) : Option Fx := ieeeVal 8 23 w
/-- The value of an FP64 field. -/
def f64? (w : Nat) : Option Fx := ieeeVal 11 52 w
/-- The value of an FP32 field, 0 where it is no number. -/
def f32 (w : Nat) : Fx := (f32? w).getD 0
/-- The value of an FP64 field, 0 where it is no number. -/
def f64 (w : Nat) : Fx := (f64? w).getD 0

/-- The IEEE field nearest to num·2^sh, ties to even; overflow gives infinity. -/
def ieeeEnc (e m : Nat) (num : Int) (sh : Int) : Nat :=
  let sign := if num < 0 then 2 ^ (e + m) else 0
  let a := num.natAbs
  if a = 0 then 0 else
  let bias : Int := 2 ^ (e - 1) - 1
  let ex0 : Int := (Nat.log2 a : Int) + sh
  let ex : Int := if ex0 < 1 - bias then 1 - bias else ex0
  let k : Int := sh - ex + m
  let q : Nat := if 0 ≤ k then a * 2 ^ k.toNat else (divEven a (2 ^ (-k).toNat)).toNat
  let (q, ex) := if q = 2 ^ (m + 1) then (2 ^ m, ex + 1) else (q, ex)
  if bias < ex then sign + (2 ^ e - 1) * 2 ^ m
  else if q < 2 ^ m then sign + q
  else sign + (ex + bias).toNat * 2 ^ m + (q - 2 ^ m)

/-- A real as an FP32 field. -/
def toF32 (a : Fx) : Nat := ieeeEnc 8 23 a (-80)
/-- A real as an FP64 field. -/
def toF64 (a : Fx) : Nat := ieeeEnc 11 52 a (-80)

/-- A real in FP32 (R87). -/
def single (a : Fx) : Fx := f32 (toF32 a)
/-- A real in FP64. -/
def double (a : Fx) : Fx := f64 (toF64 a)
/-- A Q32.32 value in FP64, rounded half to even (R88). -/
def ofQ64 (q : Int) : Fx := double (ofQ q)

/-- π. -/
def pi : Fx := 3797952473636338580787993
/-- 2π. -/
def twoPi : Fx := 2 * pi

/-- The sum of a power series whose next term is the last times -x²/(k(k+1)). -/
def trigSeries (x2 : Fx) : Nat → Nat → Fx → Fx
  | 0, _, _ => 0
  | n + 1, k, t => t + trigSeries x2 n (k + 2) (-(fmul t x2) / ((k : Int) * (k + 1)))

/-- An angle brought to -π..π. -/
def wrapAngle (x : Fx) : Fx := x - divEven x twoPi * twoPi
/-- Sine. -/
def fsin (x : Fx) : Fx := let y := wrapAngle x; trigSeries (fmul y y) 24 2 y
/-- Cosine. -/
def fcos (x : Fx) : Fx := let y := wrapAngle x; trigSeries (fmul y y) 24 1 one

/-- The arctangent series for |x| < 1/2. -/
def atanSeries (x2 : Fx) : Nat → Nat → Fx → Fx
  | 0, _, _ => 0
  | n + 1, k, t => t / (k : Int) + atanSeries x2 n (k + 2) (-(fmul t x2))
/-- Arctangent, by two halvings of the angle. -/
def fatan (x : Fx) : Fx :=
  let h (y : Fx) : Fx := fdiv y (one + fsqrt (one + fmul y y))
  let y := h (h x)
  4 * atanSeries (fmul y y) 50 1 y
/-- The angle of the point (x, y). -/
def fatan2 (y x : Fx) : Fx :=
  if x = 0 && y = 0 then 0
  else if fabs y ≤ fabs x then (if 0 < x then fatan (fdiv y x) else if 0 ≤ y then fatan (fdiv y x) + pi
    else fatan (fdiv y x) - pi)
  else if 0 < y then pi / 2 - fatan (fdiv x y) else -(pi / 2) - fatan (fdiv x y)

end Sys2Proof.Machine
end

