-- ==== Sys2Proof/Machine/Objs.lean ====
section
/-!
DEFINITION. The numbered objects (R6): axes, groups, field channels and groups, step axes; the joints of a group as
its model lists them; state codes; stop requests and faults, which reach an object at the next cadence start (R66,
R75); and commands that wait for an effect boundary.
-/
namespace Sys2Proof.Machine

/-- Axis `a`. -/
def axisOf (s : State) (a : Nat) : AxisSt := tget {} s.axes a
/-- Replace axis `a`. -/
def setAxis (a : Nat) (x : AxisSt) (s : State) : State := { s with axes := tset {} s.axes a x }
/-- Change axis `a`. -/
def modAxis (a : Nat) (f : AxisSt → AxisSt) (s : State) : State := setAxis a (f (axisOf s a)) s
/-- Group `g`. -/
def grpOf (s : State) (g : Nat) : GroupSt := tget {} s.grps g
/-- Replace group `g`. -/
def setGrp (g : Nat) (x : GroupSt) (s : State) : State := { s with grps := tset {} s.grps g x }
/-- Change group `g`. -/
def modGrp (g : Nat) (f : GroupSt → GroupSt) (s : State) : State := setGrp g (f (grpOf s g)) s
/-- Field channel `c`. -/
def chanOf (s : State) (c : Nat) : Chan := tget {} s.io.ch c
/-- Replace field channel `c`. -/
def setChan (c : Nat) (x : Chan) (s : State) : State := { s with io := { s.io with ch := tset {} s.io.ch c x } }
/-- Change field channel `c`. -/
def modChan (c : Nat) (f : Chan → Chan) (s : State) : State := setChan c (f (chanOf s c)) s
/-- Field group `x`. -/
def fgOf (s : State) (x : Nat) : FieldGroup := tget {} s.io.grp x
/-- Replace field group `x`. -/
def setFg (x : Nat) (v : FieldGroup) (s : State) : State := { s with io := { s.io with grp := tset {} s.io.grp x v } }
/-- Step axis `n`. -/
def stpOf (s : State) (n : Nat) : StpAxis := tget {} s.stp n
/-- Replace step axis `n`. -/
def setStp (n : Nat) (v : StpAxis) (s : State) : State := { s with stp := tset {} s.stp n v }
/-- Segment `k`. -/
def segOf (s : State) (k : Nat) : Segment := tget {} s.bus k
/-- Replace segment `k`. -/
def setSeg (k : Nat) (v : Segment) (s : State) : State := { s with bus := tset {} s.bus k v }

/-- Apply a change for each number of a list, in order. -/
def forNat (l : List Nat) (f : Nat → State → State) (s : State) : State := l.foldl (fun t i => f i t) s

/-- Axis state codes (table "Axis states"). -/
def AxState.code : AxState → Nat
  | .disabled => 0 | .held => 1 | .closed => 2 | .stopping => 3 | .fault => 4
/-- Group state codes (table "Group states"). -/
def GrpState.code : GrpState → Nat
  | .idle => 0 | .enabling => 1 | .ready => 2 | .moving => 3 | .homing => 4 | .stopping => 5 | .hold => 6 | .fault => 7

/-! The model of a group (table "Group model header"). -/

/-- TYPE. -/
def mType (m : List Byte) : Nat := u8 m 0
/-- JOINTS. -/
def mJoints (m : List Byte) : Nat := u8 m 1
/-- IK_MODE. -/
def mIkMode (m : List Byte) : Nat := u8 m 2
/-- IK_ITER. -/
def mIkIter (m : List Byte) : Nat := u8 m 3
/-- Offset of joint record `i`. -/
def jOff (i : Nat) : Nat := 256 + 96 * i
/-- KIND of joint `i` is prismatic. -/
def jPrism (m : List Byte) (i : Nat) : Bool := u8 m (jOff i) = 1
/-- AXIS of joint `i`. -/
def jAxis (m : List Byte) (i : Nat) : Nat := u8 m (jOff i + 1)
/-- Whether joint `i` has its sign negated. -/
def jNeg (m : List Byte) (i : Nat) : Bool := bitOf (u8 m (jOff i + 2)) 0
/-- Whether joint `i` is DUAL. -/
def jDual (m : List Byte) (i : Nat) : Bool := bitOf (u8 m (jOff i + 2)) 1
/-- SLAVE of joint `i`. -/
def jSlave (m : List Byte) (i : Nat) : Nat := u8 m (jOff i + 3)
/-- ZERO of joint `i`, Q32.32. -/
def jZero (m : List Byte) (i : Nat) : Int := i64 m (jOff i + 32)
/-- The axes that serve joint `i`. -/
def jAxes (m : List Byte) (i : Nat) : List Nat :=
  if jDual m i then [jAxis m i, jSlave m i] else [jAxis m i]

/-- The joint coordinate of an axis position: rad or m. -/
def jointCoord (m : List Byte) (i : Nat) (p : Fx) : Fx :=
  let d := p - jZero m i * 2 ^ 48
  let d := if jNeg m i then -d else d
  if jPrism m i then d else fmul twoPi d
/-- The joint coordinate that the KDE take: an angle is reduced to -0.5..0.5 turn and given in FP32 (R87). -/
def kdeCoord (m : List Byte) (i : Nat) (p : Fx) : Fx :=
  let q := jointCoord m i p
  single (if jPrism m i then q else wrapAngle q)
/-- The axis position of a joint coordinate. -/
def axisCoord (m : List Byte) (i : Nat) (q : Fx) : Fx :=
  let d := if jPrism m i then q else fdiv q twoPi
  (if jNeg m i then -d else d) + jZero m i * 2 ^ 48
/-- A joint speed or acceleration in joint units from one in axis units. -/
def jointRate (m : List Byte) (i : Nat) (v : Fx) : Fx :=
  let d := if jNeg m i then -v else v
  if jPrism m i then d else fmul twoPi d

/-- The axes of a model, joint by joint. -/
def modelAxes (m : List Byte) : List Nat := (List.range (mJoints m)).flatMap (jAxes m)

/-- The member axes of group `g`. -/
def members (s : State) (g : Nat) : List Nat := let x := grpOf s g; if x.configured then modelAxes x.model else []

/-- The group to which axis `a` belongs. -/
def groupOf (s : State) (a : Nat) : Option Nat := (List.range 16).find? (fun g => (members s g).contains a)

/-- Whether axis `a` belongs to a group that is not IDLE (R68). -/
def inActiveGroup (s : State) (a : Nat) : Bool :=
  match groupOf s a with
  | some g => (grpOf s g).state ≠ .idle
  | none => false

/-- The smaller limits of the axes of a joint and the intersection of their travel (R78). -/
def limMin (a b : Limits) : Limits :=
  { v := min a.v b.v, a := min a.a b.a, d := min a.d b.d, j := min a.j b.j, tmin := max a.tmin b.tmin,
    tmax := min a.tmax b.tmax }

/-- The limits in force of joint `i` of group `g`. -/
def jointLim (s : State) (g i : Nat) : Limits :=
  let m := (grpOf s g).model
  if jDual m i then limMin (axisOf s (jAxis m i)).lim (axisOf s (jSlave m i)).lim else (axisOf s (jAxis m i)).lim

/-! What reaches an object at the next cadence start. -/

/-- A stop request of category `cat` to group `g` (R72, R76). -/
def reqStopGrp (g cat : Nat) (s : State) : State := modGrp g (fun x => { x with stops := x.stops ++ [cat] }) s
/-- A stop request of category `cat` to axis `a`. -/
def reqStopAxis (a cat : Nat) (s : State) : State := modAxis a (fun x => { x with stops := x.stops ++ [cat] }) s
/-- A fault reason of axis `a` (table "Axis fault reasons"). -/
def reqFault (a code : Nat) (s : State) : State := modAxis a (fun x => { x with faults := x.faults ++ [code] }) s
/-- A stop request to every group. -/
def reqStopAll (cat : Nat) (s : State) : State := forNat (List.range 16) (reqStopGrp · cat) s

/-- The fault reasons in the order of R368. -/
def faultOrder : List Nat := [0x06, 0x07, 0x03, 0x01, 0x08, 0x02, 0x04, 0x05, 0x09]

/-- The effect that a command leaves for its boundary. -/
def effOf (c : Cmd) (s : State) : Eff :=
  { opcode := c.h.opcode, object := c.h.object, p := c.p, tag := c.h.tag, mb := c.mb, slot := c.slot,
    flags := c.h.flags, req := c.h.reqTime, due := c.promise, seq := s.admitSeq }

/-- Post the effect of an accepted command. -/
def post (c : Cmd) (s : State) : State := { s with eff := s.eff ++ [effOf c s] }

/-- An accepted command whose whole act waits for its boundary. -/
def later (c : Cmd) (s : State) : Act := { s := post c s }

/-- The effects of an opcode that are due at `t`, and the others. -/
def takeEff (op : Nat → Bool) (t : Nat) (s : State) : List Eff × State :=
  let d := s.eff.filter (fun e => op e.opcode && e.due ≤ t)
  (d, { s with eff := s.eff.filter (fun e => !(op e.opcode && e.due ≤ t)) })

/-- Whether the object of a command lies below a bound (R6). -/
def objBelow (n : Nat) (o : Nat) (_ : State) : Bool := o < n

/-- Whether axis.configure has been carried out on an axis (R6, R66). -/
def axisConf (a : Nat) (s : State) : Bool := (axisOf s a).cfg.configured
/-- Whether a group has its configuration (R6). -/
def grpConf (g : Nat) (s : State) : Bool := (grpOf s g).configured
/-- Whether a segment has its configuration (R6). -/
def segConf (k : Nat) (s : State) : Bool := (segOf s k).configured
/-- Whether a step axis has its configuration (R6). -/
def stpConf (n : Nat) (s : State) : Bool := (stpOf s n).state ≠ .unconfigured

/-- The short time of an instant (R260). -/
def shortOf (t : Nat) : Nat := t % 2 ^ 32

/-- An FP32 field that holds a number from lo to hi, or the FP32 value nearest to a bound. -/
def f32In (w : Nat) (lo hi : Int) : Bool := match f32? w with
  | some v => min lo (f32 (toF32 lo)) ≤ v && v ≤ max hi (f32 (toF32 hi))
  | none => false
/-- An FP32 field that holds a number above 0. -/
def f32Pos (w : Nat) : Bool := match f32? w with
  | some v => 0 < v
  | none => false
/-- An FP32 field that holds a finite number. -/
def f32Ok (w : Nat) : Bool := (f32? w).isSome

end Sys2Proof.Machine
end

