-- ==== Sys2Proof/Machine/Frame.lean ====
section
/-!
DEFINITION. Ethernet frames of the Virza ports (R280): addresses, the frame check sequence, the Virza header, and
fields in network byte order (R8).
-/
namespace Sys2Proof.Machine

/-- The unsigned field of `n` bytes at offset `o` in network byte order (R8). -/
def be (p : List Byte) (o n : Nat) : Nat := beNat ((p.drop o).take n)
/-- A structure in network byte order from its fields: each a size and a value. -/
def beFields (l : List (Nat × Nat)) : List Byte := (l.map (fun e => beBytes e.1 e.2)).flatten

/-- The MAC address of Virza port `p` (R280); plant Ethernet ports use 0x10 + p. -/
def portMac (p : Nat) : List Byte := [0x02] ++ beBytes 4 (Config.uid.toNat % 2 ^ 32) ++ beBytes 1 p
/-- The destination of frames that the master of segment `k` sends (R280). -/
def segMac (k : Nat) : List Byte := [0x03, 0x4B, 0x56, 0x5A, 0x00] ++ beBytes 1 k

/-- An Ethernet II frame with its payload padded to 46 bytes (R281) and its FCS. -/
def etherFrame (dst src : List Byte) (et : Nat) (pay : List Byte) : List Byte :=
  let b := dst ++ src ++ beBytes 2 et ++ fit (max 46 pay.length) pay
  b ++ leBytes 4 (crc32 b).toNat

/-- Whether the FCS of a received frame matches. -/
def fcsOk (f : List Byte) : Bool :=
  18 ≤ f.length && (crc32 (f.take (f.length - 4))).toNat = leNat (f.drop (f.length - 4))

/-- The EtherType of a frame. -/
def etherType (f : List Byte) : Nat := be f 12 2
/-- The payload of a frame: header and entries. -/
def payload (f : List Byte) : List Byte := (f.drop 14).take (f.length - 18)

/-- The Virza header (table "Virza header"). -/
def virzaHdr (type seg src row bank entries cadence flags time uid : Nat) : List Byte :=
  beFields [(1, 1), (1, type), (1, seg), (1, src), (1, row), (1, bank), (2, entries), (4, cadence), (4, flags), (8, time),
    (8, uid)]

/-- The wire time of a frame of `p` payload bytes in tenths of a nanosecond (R282). -/
def wire10 (mode p : Nat) : Nat := (max 46 p + 38) * (if mode = 1 || mode = 4 then 32 else 80)

end Sys2Proof.Machine
end

