-- ==== Sys2Proof/Machine/Ledger.lean ====
section
/-!
DEFINITION. The ledger of admission: committed shares, first-fit placement (R30), descriptor reservations (R244) and
units in service (R38). A share names its task type, class, unit, cycles and owner.
-/
namespace Sys2Proof.Machine

/-- Units of a class (R239). -/
def classUnits (cls : Nat) : Nat := lget 0 [32, 64, 20, 8, 4] cls

/-- Whether a unit is in service (R38). -/
def unitUp (s : State) (cls u : Nat) : Bool :=
  if cls = 0 then !s.tilesOut.getLsbD u else if cls = 1 then !s.lanesOut.getLsbD u else true

/-- The sum of the cycles of shares. -/
def wcetSum (l : List Share) : Nat := (l.map (·.wcet)).foldl (· + ·) 0

/-- The shares of a unit. -/
def unitShares (l : List Share) (cls u : Nat) : List Share := l.filter (fun e => e.cls = cls && e.unit = u)

/-- The cycles committed in a unit's window (sched.load COMMITTED). -/
def committed (l : List Share) (cls u : Nat) : Nat := wcetSum (unitShares l cls u)

/-- The compute window of a tile in cycles: 30 % of the cadence at 1.0 GHz (R30). -/
def tileCap (s : State) : Nat := s.cad.ns * 3 / 10
/-- Axes that one tile serves (R24). -/
def tileAxes (s : State) : Nat := if s.cad.ns < 31250 then 2 else 4
/-- The capacity of a KDE (R82). -/
def kdeCap (s : State) : Nat := s.cad.ns * s.cad.plan / 8 - s.cad.ns * 4 / 10
/-- The capacity of an assembly unit: 12.5 % to 20 % of the planning period (R143). -/
def asmCap (s : State) : Nat := s.cad.ns * s.cad.plan * 75 / 1000
/-- The capacity of a supervisor core (R30). -/
def supCap (s : State) : Nat := s.cad.ns * 7 / 10
/-- The window of an interpolator: cadence start to feedback cutoff (R22, R239). -/
def interpCap (s : State) : Nat := s.cad.ns * 4 / 10

/-- Cycles of a lane from 20 % of the planning period to a deadline of `d`/1024 of it, at 1.2 GHz, less the lane
reserve (R30, R149, R150). -/
def laneCap (s : State) (reserve d : Nat) : Nat := s.cad.ns * s.cad.plan * (5 * d - 1024) * 6 / 25600 - reserve

/-- Whether a share fits unit `u` (R24, R30, R150): for lanes the shares of every deadline bucket must fit by that
bucket, with at most 8 distinct deadlines; zone work must fit the window from the planning boundary to the snapshot (R252). -/
def fits (s : State) (l : List Share) (reserve : Nat) (e : Share) (u : Nat) : Bool :=
  let mine := unitShares l e.cls u
  if e.cls = 0 then wcetSum mine + e.wcet ≤ tileCap s && mine.length < tileAxes s
  else if e.cls = 1 then
    let all := { e with unit := u } :: mine
    let ds := (all.map (·.bucket)).eraseDups
    ds.length ≤ 8 && ds.all (fun d => wcetSum (all.filter (fun x => x.bucket ≤ d)) ≤ laneCap s reserve d)
  else if e.cls = 2 then
    if u < 16 then wcetSum mine + e.wcet ≤ interpCap s else wcetSum mine + e.wcet ≤ kdeCap s
  else if e.cls = 3 then wcetSum mine + e.wcet ≤ asmCap s
  else wcetSum mine + e.wcet ≤ supCap s && (e.type ≠ 0x44 || e.wcet ≤ interpCap s)

/-- The units that a share may take, lowest first: the interpolator of its group, the KDE, or any of the class. -/
def candidates (e : Share) : List Nat :=
  if e.cls = 2 then (if e.type = 0x0020 then [e.object] else [16, 17, 18, 19]) else List.range (classUnits e.cls)

/-- Place one share by first fit (R30, R244); none where it does not fit. -/
def placeOne (s : State) (reserve : Nat) (l : List Share) (e : Share) : Option (List Share) :=
  if 3072 < reserved l e.cls + 2 then none
  else match (candidates e).find? (fun u => unitUp s e.cls u && fits s l reserve e u) with
    | some u => some (l ++ [{ e with unit := u }])
    | none => none

/-- Place shares in order; all or none (R249). -/
def placeAll (s : State) (reserve : Nat) : List Share → List Share → Option (List Share)
  | l, [] => some l
  | l, e :: r => match placeOne s reserve l e with
    | some l' => placeAll s reserve l' r
    | none => none

/-- Replace the lists of a class. -/
def setCls (k : Nat) (v : ClassSt) (s : State) : State := { s with sch := { s.sch with cls := tset {} s.sch.cls k v } }

/-- Maxima, minima and the high-water event of a class (R245, R253). -/
def noteDepth (k : Nat) (s : State) : State :=
  let c := clsOf s k
  let d := c.ready.length
  let f := poolFree s k
  let high := c.depthHw ≤ d || f ≤ c.poolLw
  let c1 := { c with depthMax := max c.depthMax d, poolMin := min c.poolMin f
                     hwArmed := if high then false else c.hwArmed || (2 * d < c.depthHw && 2 * c.poolLw < f) }
  raiseIf (high && c.hwArmed) 48 (setCls k c1 s)

/-- Replace the ledger: the reservations of R244 follow it. -/
def setShares (l : List Share) (s : State) : State :=
  forNat (List.range 5) noteDepth { s with sch := { s.sch with shares := l } }

/-- The shares of an owner and type leave the ledger. -/
def freeShares (p : Share → Bool) (s : State) : State := setShares (s.sch.shares.filter (fun e => !p e)) s

/-- Whether a share is one of a group's problems or its selection. -/
def isQpShare (g : Nat) (e : Share) : Bool :=
  ((e.type = 0x10 || e.type = 0x11 || e.type = 0x30 || e.type = 0x31) && e.object / 64 = g) || (e.type = 0x43 && e.object = g)

/-- Replace the one share of a device task by a new one, placed afresh (R30); a new one of no cycles leaves the ledger. None where it
does not fit. -/
def regrade (s : State) (e : Share) : Option (List Share) :=
  let rest := s.sch.shares.filter (fun x => !(x.type = e.type && x.object = e.object))
  if e.wcet = 0 then some rest else placeOne s 0 rest e

/-- The share of a STREAM task (table "STATIC entries"): at most 12 records a cadence. -/
def streamShare (k : Nat) : Share := { type := 0x42, cls := 4, wcet := 600 + 200 * 12, object := k }
/-- The share of the MIRROR task. -/
def mirrorShare : Share := { type := 0x41, cls := 4, wcet := 800, object := noObj }
/-- The share of the WATCH task with `n` active watches. -/
def watchShare (n : Nat) : Share := { type := 0x45, cls := 4, wcet := if n = 0 then 0 else 400 + 30 * n, object := noObj }
/-- The cycles of the zone work of `r` requests (R252). -/
def zoneCycles (r : Nat) : Nat := 100 * r + 400 * ((r + 39) / 40)
/-- The share of flow 249 with `r` requests (R252). -/
def zoneShare (r : Nat) : Share := { type := 0x44, cls := 4, wcet := zoneCycles r, object := noObj }

end Sys2Proof.Machine
end

