-- ==== Sys2Proof/Machine/Profile.lean ====
section
/-!
DEFINITION. The jerk-limited profile of R95 to R103: bang-bang jerk segments that bring a state (v, a) to rest at a
displacement in minimum time, with |a| ≤ A while |v| grows and |a| ≤ D while it falls.
-/
namespace Sys2Proof.Machine

/-- The kinematic state while a list of segments is built: displacement, velocity, acceleration. -/
structure Kin where
  x : Fx
  v : Fx
  a : Fx
  deriving DecidableEq, Repr

/-- The state after time `t` of constant jerk `j`. -/
def Kin.move (k : Kin) (j t : Fx) : Kin :=
  let t2 := fmul t t
  { x := k.x + fmul k.v t + fmul k.a t2 / 2 + fmul j (fmul t2 t) / 6
    v := k.v + fmul k.a t + fmul j t2 / 2
    a := k.a + fmul j t }

/-- The state after a list of segments. -/
def Kin.run (k : Kin) : List Seg → Kin
  | [] => k
  | g :: r => Kin.run (k.move g.j g.t) r

/-- The total time of a list of segments. -/
def segTime : List Seg → Fx
  | [] => 0
  | g :: r => g.t + segTime r

/-- The part of a list of segments before time `t`. -/
def segTake : List Seg → Fx → List Seg
  | [], _ => []
  | g :: r, t => if t ≤ 0 then [] else if t ≤ g.t then [⟨g.j, t⟩] else g :: segTake r (t - g.t)

/-- Leave out segments of no duration (R98). -/
def segClean (l : List Seg) : List Seg := l.filter (fun g => 0 < g.t)

/-- A change of velocity from (v, a) with a ≥ 0 to (vt, 0) that starts at or above velocity 0 or ends at or below
it: jerk up to the bound `b`, hold, jerk down. -/
def rampUp (v a vt b j : Fx) : List Seg :=
  let pk := min b (fsqrt (fmul j (vt - v) + fmul a a / 2))
  let pk := max pk a
  let t2 := fdiv (vt - v - fdiv (2 * fmul pk pk - fmul a a) (2 * j)) pk
  segClean [⟨j, fdiv (pk - a) j⟩, ⟨0, t2⟩, ⟨-j, fdiv pk j⟩]

/-- The segments of `l` up to the first instant at which the velocity, rising from `k.v` < 0, reaches 0, by
bisection within the segment that reaches it. -/
def untilZero (k : Kin) : List Seg → List Seg
  | [] => []
  | g :: r =>
    let e := k.move g.j g.t
    if e.v < 0 then g :: untilZero e r
    else
      let t := (List.range 84).foldl (fun (p : Fx × Fx) _ =>
        let m := (p.1 + p.2) / 2
        if (k.move g.j m).v < 0 then (m, p.2) else (p.1, m)) ((0 : Fx), g.t)
      [⟨g.j, t.2⟩]

/-- A rise of velocity from (v, a), a ≥ 0, to (vt, 0) (R100): through zero the acceleration is at most
min(A, D). -/
def riseFrom (v a vt l d j : Fx) : List Seg :=
  if 0 ≤ v then rampUp v a vt l j
  else if vt ≤ 0 then rampUp v a vt d j
  else if d ≤ l then
    let p := rampUp v a vt d j
    let h := untilZero ⟨0, v, a⟩ p
    let e := (Kin.run ⟨0, v, a⟩ h)
    -- the plan already falls from its peak where it crosses: it stands
    if h.length = p.length then p else h ++ rampUp e.v (max e.a 0) vt l j
  else
    let ac := min l (fsqrt (2 * fmul j vt))
    let pk := fsqrt ((fmul a a + fmul ac ac) / 2 - fmul j v)
    if pk ≤ ac then rampUp v a vt l j
    else if l < a && 0 < v + fdiv (fmul a a - fmul l l) (2 * j) then
      -- no room to reach A before the crossing: straight to A (R102)
      let t := fdiv (a - l) j
      ⟨-j, t⟩ :: rampUp (Kin.move ⟨0, v, a⟩ (-j) t).v l vt l j
    else
      let pk := max (min pk d) a
      let t2 := fdiv (-v - fdiv (2 * fmul pk pk - fmul a a - fmul ac ac) (2 * j)) pk
      let t4 := fdiv (vt - fdiv (fmul ac ac) (2 * j)) ac
      segClean [⟨j, fdiv (pk - a) j⟩, ⟨0, t2⟩, ⟨-j, fdiv (pk - ac) j⟩, ⟨0, t4⟩, ⟨-j, fdiv ac j⟩]

/-- The velocity at which the axis would coast if its acceleration were brought to 0 at once. -/
def coastV (v a j : Fx) : Fx := v + fdiv (fmul a (fabs a)) (2 * j)

/-- A rise of velocity to (vt, 0) for a coasting velocity at or below vt. -/
def riseTo (v a vt l d j : Fx) : List Seg :=
  if a < 0 then
    let t := fdiv (-a) j
    ⟨j, t⟩ :: riseFrom (Kin.move ⟨0, v, a⟩ j t).v 0 vt l d j
  else riseFrom v a vt l d j

/-- The mirror image of segments. -/
def segNeg (l : List Seg) : List Seg := l.map (fun g => ⟨-g.j, g.t⟩)

/-- The fastest change of velocity from (v, a) to (vt, 0). -/
def veloTo (v a vt l d j : Fx) : List Seg :=
  if coastV v a j ≤ vt then riseTo v a vt l d j else segNeg (riseTo (-v) (-a) (-vt) l d j)

/-- The fastest stop from (v, a). -/
def stopSegs (v a l d j : Fx) : List Seg := veloTo v a 0 l d j

/-- Bring an acceleration beyond the limit that applies now to that limit (R99). -/
def preSegs (v a l d j : Fx) : List Seg :=
  let b := if 0 < sgn v * sgn a then l else if v = 0 then min l d else d
  if fabs a ≤ b then [] else [⟨-(sgn a) * j, fdiv (fabs a - b) j⟩]

/-- Driving towards velocity `vmax` for time `t` and then to velocity `w`, and how far that leads ahead of a point that
moves at `w`. -/
def upThenMeet (v a w vmax l d j t : Fx) : List Seg × Fx :=
  let up := segTake (veloTo v a vmax l d j) t
  let k := Kin.run ⟨0, v, a⟩ up
  let st := veloTo k.v k.a w l d j
  (up ++ st, (Kin.run k st).x - fmul w (segTime up + segTime st))

/-- The fastest motion from (v, a) that meets a point `x` ahead which moves at `w` < `vmax`, where `x` lies at or beyond
the point at which velocity `w` is reached at once: drive up for a time found by bisection, then to `w`; with a
cruise where `vmax` is reached. -/
def reachUp (v a x w vmax l d j : Fx) : List Seg :=
  let up := veloTo v a vmax l d j
  let full := segTime up
  let k := Kin.run ⟨0, v, a⟩ up
  let dn := veloTo vmax 0 w l d j
  let xf := k.x + (Kin.run ⟨0, vmax, 0⟩ dn).x - fmul w (full + segTime dn)
  if xf ≤ x then segClean (up ++ [⟨0, fdiv (x - xf) (vmax - w)⟩] ++ dn)
  else
    let t := (List.range 96).foldl (fun (p : Fx × Fx) _ =>
      let m := (p.1 + p.2) / 2
      if (upThenMeet v a w vmax l d j m).2 ≤ x then (m, p.2) else (p.1, m)) ((0 : Fx), full)
    segClean (upThenMeet v a w vmax l d j t.1).1

/-- The minimum-time motion from velocity `v` and acceleration `a` that meets a point `x` ahead which moves at `w`, with
|w| below `vmax` (R98, R99, R101). -/
def meetSegs (v a x w vmax l d j : Fx) : List Seg :=
  let pre := preSegs v a l d j
  let k := Kin.run ⟨0, v, a⟩ pre
  let y := x - (k.x - fmul w (segTime pre))
  let st := veloTo k.v k.a w l d j
  let ys := (Kin.run ⟨0, k.v, k.a⟩ st).x - fmul w (segTime st)
  let tol : Fx := 2 ^ 30
  let rest :=
    if fabs (y - ys) ≤ tol then st
    else if ys < y then reachUp k.v k.a y w vmax l d j
    else segNeg (reachUp (-k.v) (-k.a) (-y) (-w) vmax l d j)
  segClean (pre ++ rest)

/-- The minimum-time motion to rest at displacement `x` (R98, R99). -/
def planSegs (v a x vmax l d j : Fx) : List Seg := meetSegs v a x 0 vmax l d j

/-- A profile to rest at displacement `x`. -/
def planProf (v a x vmax l d j : Fx) : Prof :=
  let s := planSegs v a x vmax l d j
  { v0 := v, a0 := a, segs := s, d := x, dur := segTime s }

/-- The profile of the fastest stop (axis stop of R113). -/
def stopProf (v a l d j : Fx) : Prof :=
  let pre := preSegs v a l d j
  let k := Kin.run ⟨0, v, a⟩ pre
  let s := segClean (pre ++ stopSegs k.v k.a l d j)
  { v0 := v, a0 := a, segs := s, d := (Kin.run ⟨0, v, a⟩ s).x, dur := segTime s }

/-- The state of a profile at time `t` after its start: at rest at its displacement once it is over. -/
def Prof.at (p : Prof) (t : Fx) : Kin :=
  if p.dur ≤ t then ⟨p.d, 0, 0⟩
  else if t ≤ 0 then ⟨0, p.v0, p.a0⟩
  else Kin.run ⟨0, p.v0, p.a0⟩ (segTake p.segs t)

/-- The same profile with every displacement multiplied by `k` (R106). -/
def Prof.scale (p : Prof) (k : Fx) : Prof :=
  { v0 := fmul p.v0 k, a0 := fmul p.a0 k, segs := p.segs.map (fun g => ⟨fmul g.j k, g.t⟩), d := fmul p.d k,
    dur := p.dur }

/-- Where the axis would come to rest, from the state (v, a), under limits l, d, j (R103). -/
def restDist (v a l d j : Fx) : Fx := (stopProf v a l d j).d

end Sys2Proof.Machine
end

