-- ==== Sys2Proof/Machine/Limits.lean ====
section
/-!
DEFINITION. Limits of a profile generator and what set_limits does with them (R95, R102, R103, R107, R347).
-/
namespace Sys2Proof.Machine

/-- Limits multiplied for one move (R107). -/
def Limits.scaled (l : Limits) (k : Fx) : Limits :=
  let k2 := fmul k k
  { l with v := fmul l.v k, a := fmul l.a k2, d := fmul l.d k2, j := fmul l.j (fmul k2 k) }

/-- Limits with V_MAX cut to a speed. -/
def Limits.withV (l : Limits) (v : Fx) : Limits := { l with v := min v l.v }

/-- The motion from a commanded state to rest at a target (R98, R99). -/
def planTo (k : Kin) (target : Fx) (l : Limits) : Prof := planProf k.v k.a (target - k.x) l.v l.a l.d l.j

/-- The axis stop of R113: to rest at D_MAX and J_MAX, and no faster than A_MAX while it still speeds up. -/
def planStop (k : Kin) (l : Limits) : Prof := stopProf k.v k.a l.a l.d l.j

/-- The point at which a commanded state comes to rest under limits (R103). -/
def restPoint (k : Kin) (l : Limits) : Fx := k.x + restDist k.v k.a l.a l.d l.j

/-- A field of set_limits where its mask bit is set. -/
def limField (p : List Byte) (i o : Nat) (old : Fx) : Fx := if bitOf (u32 p 0) i then f32 (u32 p o) else old

/-- The limits that a set_limits payload asks for. -/
def newLimits (p : List Byte) (l : Limits) : Limits :=
  let t := bitOf (u32 p 0) 4
  { v := limField p 0 4 l.v, a := limField p 1 8 l.a, d := limField p 2 12 l.d, j := limField p 3 16 l.j
    tmin := if t then i64 p 24 else l.tmin, tmax := if t then i64 p 32 else l.tmax }

/-- The format conditions of a set_limits payload: BAD_ARG. -/
def limBadArg (p : List Byte) (l : Limits) : Bool :=
  let n := newLimits p l
  u32 p 0 = 0 || 32 ≤ u32 p 0 || !zeroAt p 20 4 || !zeroAt p 40 8 || n.tmax ≤ n.tmin

/-- 10^-k. -/
def tenth (k : Nat) : Fx := 2 ^ 80 / 10 ^ k

/-- A masked FP32 limit outside its range (table "Axis limits"): OUT_OF_RANGE. -/
def limRange (p : List Byte) (vmax : Fx) : Bool :=
  let bad (i o : Nat) (lo hi : Fx) : Bool := bitOf (u32 p 0) i && !f32In (u32 p o) lo hi
  bad 0 4 (tenth 6) vmax || bad 1 8 (tenth 6) (1000000 * one) || bad 2 12 (tenth 6) (1000000 * one)
    || bad 3 16 (tenth 4) (1000000000 * one)

/-- Whether a point lies within the travel range of limits, whose fields are in units of `u`. -/
def inTravel (u : Int) (l : Limits) (x : Fx) : Bool := l.tmin * u ≤ x && x ≤ l.tmax * u

/-- What R103 keeps of the old limits while it defers the new ones. -/
def keepOld (old new : Limits) : Limits := { new with d := old.d, j := old.j }

end Sys2Proof.Machine
end

