-- ==== Sys2Proof/Machine/Tile.lean ====
section
/-!
DEFINITION. The tile datapath (R166 to R168): multiply and accumulate in 80 bits, narrowing stores, saturating sums, exponents,
addressing modes, and what a program of a tile leaves in the sticky flags and in the tile's spoke.
-/
namespace Sys2Proof.Machine

/-- Round half to even of acc / 2^k (R166). -/
def rnd (acc : Int) (k : Nat) : Int := divEven acc (2 ^ k)
/-- Saturation to 32 bits (R166). -/
def sat32 (x : Int) : Int := clampI (-(2 ^ 31)) (2 ^ 31 - 1) x
/-- ADDS: the exact sum, saturated. -/
def adds (a b : Int) : Int := sat32 (a + b)
/-- SUBS: the exact difference, saturated. -/
def subs (a b : Int) : Int := sat32 (a - b)

/-- How often a tile program wrapped an accumulator and saturated a store (R167). -/
structure Marks where
  sats : Nat := 0
  wraps : Nat := 0
  deriving DecidableEq, Repr

/-- The marks of two pieces of a program. -/
def Marks.join (a b : Marks) : Marks := { sats := a.sats + b.sats, wraps := a.wraps + b.wraps }

/-- An 80-bit accumulator and how often it wrapped. -/
structure Acc where
  v : Int := 0
  wraps : Nat := 0
  deriving DecidableEq, Repr

/-- Add to an accumulator modulo 2^80. -/
def Acc.plus (a : Acc) (p : Int) : Acc :=
  let t := signedOf 80 (bitsOf 80 (a.v + p))
  { v := t, wraps := a.wraps + b2n (t ≠ a.v + p) }
/-- MAC: add the exact product. -/
def Acc.mac (a : Acc) (x y : Int) : Acc := a.plus (x * y)
/-- MSU: subtract the exact product. -/
def Acc.msu (a : Acc) (x y : Int) : Acc := a.plus (-(x * y))
/-- MAC over two lists. -/
def Acc.macs (a : Acc) (l : List (Int × Int)) : Acc := l.foldl (fun c e => c.mac e.1 e.2) a
/-- MSU over two lists. -/
def Acc.msus (a : Acc) (l : List (Int × Int)) : Acc := l.foldl (fun c e => c.msu e.1 e.2) a
/-- STORE.k. -/
def Acc.store (a : Acc) (k : Nat) : Int := sat32 (rnd a.v k)
/-- What the program that ends with STORE.k leaves in the flags. -/
def Acc.marks (a : Acc) (k : Nat) : Marks := { sats := b2n (a.store k ≠ rnd a.v k), wraps := a.wraps }

/-- EXP (table "Tile operations"). -/
def expBits (x : Int) : Nat :=
  let y := if x < 0 then (-x - 1).toNat else x.toNat
  if y = 0 then 31 else 30 - Nat.log2 y
/-- NORM. -/
def norm (x : Int) : Int := x * 2 ^ expBits x
/-- BLKEXP over words, from BXCLR on. -/
def blkExp (l : List Int) : Nat := l.foldl (fun bx x => min bx (expBits x)) 31
/-- Modulo addressing in a buffer of `len` words at `base`. -/
def modNext (base len step addr : Nat) : Nat := base + (addr - base + step) % len
/-- Bit-reversed addressing: the low `b` bits of an index reversed. -/
def bitRev : Nat → Nat → Nat
  | 0, _ => 0
  | b + 1, i => (i % 2) * 2 ^ b + bitRev b (i / 2)

/-- The marks of a program on tile `u`: the sticky flags SAT and ACC_WRAP, and the counts of its spoke (R167). -/
def tileMarks (u : Nat) (m : Marks) (s : State) : State :=
  let f (on : Bool) (w : Word) : Word := if on then w ||| BitVec.twoPow 32 u else w
  let s1 := countN (10 + u) 0x0403 m.wraps (countN (10 + u) 0x0404 m.sats s)
  { s1 with sch := { s1.sch with sat := f (m.sats ≠ 0) s1.sch.sat, wrap := f (m.wraps ≠ 0) s1.sch.wrap } }

end Sys2Proof.Machine
end

