-- ==== Sys2Proof/Machine/Loop.lean ====
section
/-!
DEFINITION. Control loops: compensators and sections (R169, R170), one loop sample (R163,
R174, R175, R178), bumpless closing (R179) and the loop commands (R181 to R187).
-/
namespace Sys2Proof.Machine

/-- Exact integer division rounded half to even, for a divisor of either sign (R179). -/
def rdiv (n d : Int) : Int := if d < 0 then divEven (-n) (-d) else divEven n d
/-- A real value in units of 2^-frac, rounded half to even. -/
def toLsb (v : Fx) (frac : Nat) : Int := divEven (v * 2 ^ frac) (2 ^ 80)
/-- A floating-point value as a loop integer: rounded half to even and saturated (R165). -/
def toLoop (v : Fx) (frac : Nat) : Int := sat32 (toLsb v frac)

/-- A narrowed and clamped output with what happened to it: the value, whether the window clamped it, and the marks. -/
structure Narrow where
  y : Int
  clamped : Bool
  marks : Marks
  deriving DecidableEq, Repr

/-- STORE.k followed by a clamp to lo..hi. -/
def narrow (acc : Acc) (k : Nat) (lo hi : Int) : Narrow :=
  let v := acc.store k
  let y := clampI lo hi v
  { y := y, clamped := y ≠ v, marks := acc.marks k }

/-- The narrowing shift of a compensator (R169). -/
def Comp.shift (c : Comp) : Nat := (28 - c.osh).toNat

/-- One sample of a compensator (R169). -/
def Comp.eval (c : Comp) (x lo hi : Int) : Narrow :=
  narrow ((Acc.macs {} ((c.w.take 4).zip (x :: c.x))).msus ((c.w.drop 4).zip c.y)) c.shift lo hi

/-- A compensator whose histories take one more sample (R175). -/
def Comp.commit (c : Comp) (x y : Int) : Comp := { c with x := (x :: c.x).take 3, y := (y :: c.y).take 3 }

/-- The narrowing shift of a section (R170). -/
def Biquad.shift (b : Biquad) : Nat := 30 - b.sh

/-- One sample of a section (R170). -/
def Biquad.eval (b : Biquad) (x lo hi : Int) : Narrow :=
  narrow ((Acc.macs {} ((b.w.take 3).zip (x :: b.x))).msus ((b.w.drop 3).zip b.y)) b.shift lo hi

/-- A section whose histories take one more sample. -/
def Biquad.commit (b : Biquad) (x y : Int) : Biquad := { b with x := (x :: b.x).take 2, y := (y :: b.y).take 2 }

/-- The int32 range. -/
def lo32 : Int := -(2 ^ 31)
/-- The top of the int32 range. -/
def hi32 : Int := 2 ^ 31 - 1

/-- Run a chain of sections; only the last has the window lo..hi. -/
def runChain (lo hi : Int) : List Biquad → Int → List Biquad × Int × Bool × Marks
  | [], x => ([], x, false, {})
  | b :: r, x =>
    let last := r = []
    let n := b.eval x (if last then lo else lo32) (if last then hi else hi32)
    let (t, y, cl, k) := runChain lo hi r n.y
    (b.commit x n.y :: t, y, (last && n.clamped) || cl, n.marks.join k)

/-- The inputs of one sample: positions in Q32.32, feedback velocity and torque, feedforwards, injection, the clamp in
force and whether the feedback is stale (R178). -/
structure SampleIn where
  pCmd : Int := 0
  pAct : Int := 0
  vAct : Int := 0
  vFf : Int := 0
  tFf : Int := 0
  inj : Option (Nat × Int) := none
  trqLim : Fx := 0
  stale : Bool := false
  deriving DecidableEq, Repr

/-- The injected value at a point (R198). -/
def SampleIn.at (i : SampleIn) (p : Nat) : Int := match i.inj with
  | some (q, v) => if p = q then v else 0
  | none => 0

/-- The compensator window of R174. -/
def window (l : LoopSt) (lim : Fx) (f : Int) : Int × Int :=
  let lq := toLsb lim l.trqFrac
  (sat32 (-lq - f), sat32 (lq - f))

/-- One loop sample (R163, R165, R169, R170, R174, R175); with stale feedback nothing is committed (R178). The marks
are those of its stores (R167). -/
def loopSample (l : LoopSt) (i : SampleIn) : LoopSt × Marks :=
  let lq := toLsb i.trqLim l.trqFrac
  let f := if l.trqFf then i.tFf else 0
  let vff := if l.velFf && !l.cascade then i.vFf else 0
  let (lo, hi) := window l i.trqLim f
  let dp := signedOf 64 (bitsOf 64 (i.pCmd - i.pAct))
  let e0 := Acc.plus {} dp
  let ep := adds (e0.store l.es) (i.at 0)
  let vl := sat32 (toLsb l.vrefLim l.velFrac)
  let pc := l.pos.eval ep (-vl) vl
  let vref := adds (adds pc.y vff) (i.at 1)
  let ev := subs vref i.vAct
  let vc := l.vel.eval ev lo hi
  let (chain, uc, cl, k1) := runChain lo hi l.casc ep
  let uv0 := if l.cascade then uc else vc.y
  let uv := adds uv0 (i.at 2)
  let (filt, uf0, _, k2) := if l.cascade then (l.filt, uv, false, {}) else runChain lo32 hi32 l.filt uv
  let uf := adds uf0 (i.at 3)
  let tc0 := adds uf f
  let tc := clampI (-lq) lq tc0
  let sl := toLoop l.slew l.trqFrac
  let tout := if l.slew = 0 then tc else clampI (subs l.tPrev sl) (adds l.tPrev sl) tc
  let active := tc ≠ tc0 || (if l.cascade then cl else vc.clamped || pc.clamped)
  let mk := (e0.marks l.es).join (if l.cascade then k1 else (pc.marks.join vc.marks).join k2)
  let r := { l with
    ep := ep, up := pc.y, vff := vff, vref := vref, vact := i.vAct, ev := ev, uv := uv, uf := uf, tff := f, tc := tc
    tout := tout, tPrev := tout, clampActive := active, slewActive := tout ≠ tc, stale := i.stale
    satCount := if active then l.satCount + 1 else l.satCount }
  if i.stale then (r, mk)
  else if l.cascade then ({ r with casc := chain }, mk)
  else ({ r with pos := l.pos.commit ep pc.y, vel := l.vel.commit ev vc.y, filt := filt }, mk)

/-- Y of R179 step 4, from the sums of an element's words, its input and its shift. -/
def bumpless (sb sa x u lo hi : Int) (k : Nat) : Int :=
  if sa = 0 then u else clampI lo hi (sat32 (rdiv (sb * x - u * 2 ^ k) sa))

/-- The loop initialised at closing from the torque and velocity of a feedback record (R179). -/
def loopInit (l : LoopSt) (lim : Fx) (vAct t0 tFf : Int) : LoopSt :=
  let f := if l.trqFf then tFf else 0
  let (lo, hi) := window l lim f
  let u := clampI lo hi (sat32 (t0 - f))
  let ev := sat32 (0 - vAct)
  let vs := l.vel
  let yv := bumpless ((vs.w.take 4).foldl (· + ·) 0) ((vs.w.drop 4).foldl (· + ·) 0) ev u lo hi vs.shift
  let clear (b : Biquad) : Biquad := { b with x := [0, 0], y := [0, 0] }
  let casc := match l.casc.reverse with
    | [] => []
    | b :: r =>
      let y := bumpless ((b.w.take 3).foldl (· + ·) 0) ((b.w.drop 3).foldl (· + ·) 0) 0 u lo hi b.shift
      (r.reverse.map clear) ++ [{ b with x := [0, 0], y := [y, y] }]
  { l with
    tPrev := t0, ep := 0, initDue := false
    pos := { l.pos with x := [0, 0, 0], y := [0, 0, 0] }
    vel := { vs with x := [ev, ev, ev], y := [yv, yv, yv] }
    filt := l.filt.map (fun b => { b with x := [u, u], y := [u, u] })
    casc := casc }

/-- Whether a filter section has unit DC gain (R171). -/
def dcUnity (w : List Int) : Bool :=
  lget 0 w 0 + lget 0 w 1 + lget 0 w 2 = 2 ^ 30 + lget 0 w 3 + lget 0 w 4

/-- The cycles of a loop task (R186), an armed injection included. -/
def loopWcet (l : LoopSt) (inj : Bool) : Nat :=
  (if l.cascade then 1100 + 90 * l.casc.length else 1400 + 80 * l.filt.length) + if inj then 100 else 0

/-- The tile that serves axis `a`. -/
def tileOf (s : State) (a : Nat) : Option Nat :=
  (s.sch.shares.find? (fun e => e.type = 1 && e.object = a)).map (·.unit)

/-- Whether axis.close is NOT_CONFIGURED (R187). -/
def loopMissing (l : LoopSt) : Bool := !l.configured || l.trqLim = 0 || (l.cascade && l.casc = [])

/-! Commands. -/

/-- STATE of completions of axis and loop commands. -/
def axisStateOf (o : Nat) (s : State) : Nat := (axisOf s o).state.code

/-- Whether axis `a` will be CLOSED, STOPPING or in FAULT at a promise time, by the transitions admitted so far
(R181): a write and an axis.close at one cadence start apply write first. -/
def willBeOpen (s : State) (a t : Nat) : Bool :=
  let step (o : Bool) (e : Eff) : Bool :=
    if e.opcode = 0x0804 && e.object = a && e.due < t then false
    else if (e.opcode = 0x0805 || e.opcode = 0x0803) && e.object = a && e.due ≤ t then true
    else if e.opcode = 0x0702 && (members s e.object).contains a && e.due < t then false
    else if e.opcode = 0x0703 && (members s e.object).contains a && e.due ≤ t then true
    -- a clear leaves the axis DISABLED, as a stop of category 0 does at its own cadence start
    else if e.opcode = 0x0806 && e.object = a && e.due ≤ t then true
    else if e.opcode = 0x0708 && (members s e.object).contains a && e.due ≤ t then
      o || (members s e.object).any (fun b => (axisOf s b).state ≠ .closed)
    else if e.opcode = 0x0809 && e.object = a && u8 e.p 0 = 0 && e.due ≤ t then o || (axisOf s a).state ≠ .fault
    else if e.opcode = 0x070A && (members s e.object).contains a && u8 e.p 0 = 0 && e.due ≤ t then o || (axisOf s a).state ≠ .fault
    else o
  let st := (axisOf s a).state
  let en := match groupOf s a with
    | some g => (grpOf s g).state = .enabling
    | none => false
  s.eff.foldl step ((st = .held || st = .disabled) && !en)

/-- loop.configure (R164, R182, R187). -/
def loopConfigureSpec : CmdSpec where
  opcode := 0x0B01
  lenOk n _ := n = 8
  objOk := objBelow 128
  conf := axisConf
  stateOf := axisStateOf
  body c s :=
    let p := c.p
    let a := c.h.object
    let live := bitOf (u8 p 1) 0
    let others := ((tkeys s.axes).filter (fun b => b ≠ a && (axisOf s b).loop.liveTune)).length
    { bad := [(1 < u8 p 0 || 8 ≤ u8 p 1 || !zeroAt p 5 3, .badArg),
              (24 < u8 p 2 || 31 < u8 p 3 || 31 < u8 p 4, .outOfRange),
              ((axisOf s a).state ≠ .disabled || (axisOf s a).enable.isSome, .stateConflict),
              (live && 8 ≤ others, .noMemory)]
      act := fun t => { s := modAxis a (fun x => { x with loop := {
        configured := true, cascade := u8 p 0 = 1, liveTune := live, velFf := bitOf (u8 p 1) 1, trqFf := bitOf (u8 p 1) 2
        es := u8 p 2, velFrac := u8 p 3, trqFrac := u8 p 4, vrefLim := x.lim.v
        satCount := x.loop.satCount, liveWrites := x.loop.liveWrites, lastApply := x.loop.lastApply } }) t } }

/-- The conditions that every coefficient write shares (R181, R182, R187). -/
def coeffBad (c : Cmd) (s : State) (structOk : LoopSt → Bool) (live : Bool) : List (Bool × Status) :=
  let x := axisOf s c.h.object
  let okLive := live && x.loop.liveTune && x.state ≠ .fault
  [(!x.loop.configured, .notConfigured),
   (x.loop.configured && !structOk x.loop, .stateConflict),
   (!okLive && !willBeOpen s c.h.object c.promise, .stateConflict)]

/-- Seven words of a loop.set_comp payload. -/
def wordsAt (p : List Byte) (o n : Nat) : List Int := (List.range n).map (fun i => i32 p (o + 4 * i))

/-- loop.set_comp (R169). -/
def loopSetCompSpec : CmdSpec where
  opcode := 0x0B02
  lenOk n _ := n = 32
  objOk := objBelow 128
  stateOf := axisStateOf
  kind _ _ _ := .cadence
  body c s :=
    let p := c.p
    let osh := i8 p 2
    { bad := coeffBad c s (fun l => !l.cascade) false ++
        [(1 < u8 p 0 || u8 p 3 ≠ 0 || (u8 p 1 ≠ 2 && u8 p 1 ≠ 3) || (u8 p 0 = 1 && u8 p 1 = 2)
            || (u8 p 1 = 2 && (u32 p 16 ≠ 0 || u32 p 28 ≠ 0)), .badArg),
         (osh < -8 || 8 < osh, .outOfRange)]
      act := later c }

/-- The sections of a loop.set_filter payload with R171's replacement: words, and whether b1 was replaced; none where a
section cannot be mended. -/
def fixDc (w : List Int) : Option (List Int × Bool) :=
  let b1 := 2 ^ 30 + lget 0 w 3 + lget 0 w 4 - lget 0 w 0 - lget 0 w 2
  let d := b1 - lget 0 w 1
  if d = 0 then some (w, false)
  else if -16384 ≤ d && d ≤ 16384 && lo32 ≤ b1 && b1 ≤ hi32 then some (lset w 1 b1, true)
  else none

/-- The sections of a loop.set_filter payload. -/
def filterOf (p : List Byte) : List (Option (List Int × Bool)) :=
  (List.range (u8 p 0)).map (fun k => fixDc (wordsAt p (4 + 20 * k) 5))

/-- loop.set_filter (R171). -/
def loopSetFilterSpec : CmdSpec where
  opcode := 0x0B03
  lenOk n _ := n = 164
  objOk := objBelow 128
  stateOf := axisStateOf
  kind _ _ _ := .cadence
  body c s :=
    let p := c.p
    let n := u8 p 0
    let secs := filterOf p
    let adj := bitsN (secs.map (fun e => match e with
      | some (_, b) => b
      | none => false))
    { bad := coeffBad c s (fun l => !l.cascade) false ++
        [(decide (8 < n), .outOfRange),
         (!zeroAt p 1 3 || (n ≤ 8 && (!zeroAt p (4 + 20 * n) (160 - 20 * n) || secs.any (·.isNone))), .badArg)]
      act := fun t => { s := post c t, res := fields [(1, adj), (7, 0)], adjusted := adj ≠ 0 } }

/-- The negated denominator word of an imported section (R172). -/
def negWord (x : Int) : Int := if x = lo32 then hi32 else -x

/-- The sections of a loop.set_cascade payload (R172). -/
def cascadeOf (p : List Byte) : List Biquad :=
  (List.range (u8 p 0)).map (fun k =>
    let w := wordsAt p (4 + 24 * k) 5
    let w' := if bitOf (u8 p 1) 0 then lset (lset w 3 (negWord (lget 0 w 3))) 4 (negWord (lget 0 w 4)) else w
    { w := w', sh := u8 p (4 + 24 * k + 20) })

/-- loop.set_cascade (R172). -/
def loopSetCascadeSpec : CmdSpec where
  opcode := 0x0B04
  lenOk n _ := n = 292
  objOk := objBelow 128
  stateOf := axisStateOf
  kind _ _ _ := .cadence
  body c s :=
    let p := c.p
    let n := u8 p 0
    { bad := coeffBad c s (fun l => l.cascade) false ++
        [(n = 0 || 12 < n || (List.range (min n 12)).any (fun k => 8 < u8 p (24 + 24 * k)), .outOfRange),
         (1 < u8 p 1 || !zeroAt p 2 2 || (List.range (min n 12)).any (fun k => !zeroAt p (25 + 24 * k) 3)
            || (n ≤ 12 && !zeroAt p (4 + 24 * n) (288 - 24 * n)), .badArg)]
      act := later c }

/-- Whether the word that a loop.set_coeff names exists. -/
def coeffTarget (p : List Byte) (l : LoopSt) : Bool :=
  let t := u8 p 0
  if t ≤ 1 then u8 p 1 = 0 && u8 p 2 ≤ 6
  else if t = 2 then u8 p 1 < l.filt.length && u8 p 2 ≤ 4
  else u8 p 1 < l.casc.length && u8 p 2 ≤ 4

/-- The cadence start of a live write: the first one that carries none of the axis yet (R184). -/
def liveSlot (s : State) (a : Nat) : Nat → Nat → Nat
  | 0, t => t
  | n + 1, t =>
    if s.eff.any (fun e => e.opcode = 0x0B05 && e.object = a && e.due = t) then liveSlot s a n (t + s.cad.ns) else t

/-- loop.set_coeff (R182, R184). -/
def loopSetCoeffSpec : CmdSpec where
  opcode := 0x0B05
  lenOk n _ := n = 8
  objOk := objBelow 128
  stateOf := axisStateOf
  kind h _ s :=
    let t := startFrom s 1 (max (now s) h.reqTime)
    if (axisOf s h.object).loop.liveTune then .at (liveSlot s h.object (s.eff.length + 1) t) else .cadence
  body c s :=
    let p := c.p
    let l := (axisOf s c.h.object).loop
    let structOk (x : LoopSt) : Bool := if u8 p 0 = 3 then x.cascade else !x.cascade
    { bad := coeffBad c s structOk true ++
        [(3 < u8 p 0 || u8 p 3 ≠ 0 || (u8 p 0 = 0 && l.pos.order = 2 && (u8 p 2 = 3 || u8 p 2 = 6) && u32 p 4 ≠ 0), .badArg),
         (u8 p 0 ≤ 3 && !coeffTarget p l, .outOfRange)]
      act := later c }

/-- What a coefficient write stores. -/
def coeffStore (op : Nat) (p : List Byte) (l : LoopSt) : LoopSt :=
  if op = 0x0B02 then
    let z (c : Comp) : Comp := { c with order := u8 p 1, osh := i8 p 2, w := wordsAt p 4 7 }
    if u8 p 0 = 0 then { l with pos := z l.pos } else { l with vel := z l.vel }
  else if op = 0x0B03 then
    { l with filt := (filterOf p).map (fun e => { w := (e.getD ([], false)).1 }) }
  else if op = 0x0B04 then { l with casc := cascadeOf p }
  else
    let k := u8 p 2
    let v := i32 p 4
    let sec (b : List Biquad) : List Biquad :=
      lset b (u8 p 1) { lget {} b (u8 p 1) with w := lset (lget {} b (u8 p 1)).w k v }
    match u8 p 0 with
    | 0 => { l with pos := { l.pos with w := lset l.pos.w k v } }
    | 1 => { l with vel := { l.vel with w := lset l.vel.w k v } }
    | 2 => { l with filt := sec l.filt }
    | _ => { l with casc := sec l.casc }

/-- What a loop write does at its cadence start `t` (R181, R184, R185, R176). -/
def loopEff (t : Nat) (e : Eff) (s : State) : State :=
  let a := e.object
  let x := axisOf s a
  if e.opcode = 0x0B06 then
    let p := e.p
    let m (i : Nat) : Bool := bitOf (u32 p 0) i
    let v (i : Nat) : Fx := f32 (u32 p (4 + 4 * i))
    let l := x.loop
    let l1 := { l with
      slew := if m 1 then v 1 else l.slew, vrefLim := if m 2 then v 2 else l.vrefLim
      feWarn := if m 3 then v 3 else l.feWarn, feLimit := if m 4 then v 4 else l.feLimit }
    let l2 := if !m 0 then l1 else if l.trqHoming.isSome then { l1 with trqDeferred := some (v 0) } else { l1 with trqLim := v 0 }
    setAxis a { x with loop := l2 } s
  else
    let live := x.loop.liveTune && e.opcode = 0x0B05
    if x.state = .fault && live then s
    else if !live && x.state ≠ .held && x.state ≠ .disabled then s
    else
      let l := coeffStore e.opcode e.p x.loop
      let l1 := { l with lastApply := BitVec.ofNat 64 t, liveWrites := if live then l.liveWrites + 1 else l.liveWrites }
      let s1 := setAxis a { x with loop := l1 } s
      if live then raise 66 s1 else s1

/-- loop.set_limits (R185). -/
def loopSetLimitsSpec : CmdSpec where
  opcode := 0x0B06
  lenOk n _ := n = 24
  objOk := objBelow 128
  stateOf := axisStateOf
  kind _ _ _ := .cadence
  body c s :=
    let p := c.p
    let m (i : Nat) : Bool := bitOf (u32 p 0) i
    let w (i : Nat) : Nat := u32 p (4 + 4 * i)
    let l := (axisOf s c.h.object).loop
    { bad := [(u32 p 0 = 0 || 32 ≤ u32 p 0, .badArg),
              ((m 0 && (!f32Pos (w 0) || 2 ^ 31 - 1 < toLsb (f32 (w 0)) l.trqFrac))
                || (m 1 && !f32In (w 1) 0 (2 ^ 208)) || (m 2 && !f32Pos (w 2))
                || (m 3 && !f32In (w 3) 0 (2 ^ 208)) || (m 4 && !f32In (w 4) 0 (2 ^ 208)), .outOfRange)]
      act := later c }

/-- loop.status. -/
def loopStatusSpec : CmdSpec where
  opcode := 0x0B07
  objOk := objBelow 128
  stateOf := axisStateOf
  inFault _ := true
  body c s :=
    let x := axisOf s c.h.object
    let l := x.loop
    { act := fun t => { s := t, res := fields [(1, x.state.code),
        (1, flagAt l.clampActive 0 + flagAt l.slewActive 1 + flagAt l.liveTune 2 + flagAt l.cascade 3 + flagAt l.stale 4),
        (1, bitsN (l.filt.map (fun b => dcUnity b.w))), (1, if l.cascade then l.casc.length else l.filt.length),
        (4, sn 4 l.tout), (4, sn 4 l.uv), (4, sn 4 l.ep), (4, l.satCount.toNat), (4, l.liveWrites.toNat),
        (8, l.lastApply.toNat)] } }

/-- The words of a list as little-endian fields. -/
def wordBytes (w : List Int) : List Byte := w.flatMap (fun v => leBytes 4 (sn 4 v))

/-- The loop.set_comp payload in force. -/
def compBytes (k : Nat) (c : Comp) : List Byte := fields [(1, k), (1, c.order), (1, sn 1 c.osh), (1, 0)] ++ wordBytes c.w

/-- loop.read_coeff. -/
def loopReadCoeffSpec : CmdSpec where
  opcode := 0x0B08
  objOk := objBelow 128
  stateOf := axisStateOf
  inFault _ := true
  body c s :=
    let l := (axisOf s c.h.object).loop
    { bad := [(!l.configured, .notConfigured)]
      act := fun t => { s := t, res := fields [(1, b2n l.cascade), (3, 0)] ++
        (if l.cascade then
          fields [(1, l.casc.length), (3, 0)] ++ fit 288 (l.casc.flatMap (fun b => wordBytes b.w ++ fields [(1, b.sh), (3, 0)]))
        else compBytes 0 l.pos ++ compBytes 1 l.vel ++ fields [(1, l.filt.length), (3, 0)]
          ++ fit 160 (l.filt.flatMap (fun b => wordBytes b.w))) } }

/-! The meanings of the rows. -/

/-- LOOP_CONFIGURE (R164). -/
def execLoopConfigure (c : CmdRef) (s : State) : Host.Outcome State Fault Refusal := .next (runCmd loopConfigureSpec c s)
/-- LOOP_SET_COMP (R181). -/
def execLoopSetComp (c : CmdRef) (s : State) : Host.Outcome State Fault Refusal := .next (runCmd loopSetCompSpec c s)
/-- LOOP_SET_FILTER (R171). -/
def execLoopSetFilter (c : CmdRef) (s : State) : Host.Outcome State Fault Refusal := .next (runCmd loopSetFilterSpec c s)
/-- LOOP_SET_CASCADE (R172). -/
def execLoopSetCascade (c : CmdRef) (s : State) : Host.Outcome State Fault Refusal := .next (runCmd loopSetCascadeSpec c s)
/-- LOOP_SET_COEFF (R182). -/
def execLoopSetCoeff (c : CmdRef) (s : State) : Host.Outcome State Fault Refusal := .next (runCmd loopSetCoeffSpec c s)
/-- LOOP_SET_LIMITS (R185). -/
def execLoopSetLimits (c : CmdRef) (s : State) : Host.Outcome State Fault Refusal := .next (runCmd loopSetLimitsSpec c s)
/-- LOOP_STATUS (R175). -/
def execLoopStatus (c : CmdRef) (s : State) : Host.Outcome State Fault Refusal := .next (runCmd loopStatusSpec c s)
/-- LOOP_READ_COEFF (R187). -/
def execLoopReadCoeff (c : CmdRef) (s : State) : Host.Outcome State Fault Refusal := .next (runCmd loopReadCoeffSpec c s)

end Sys2Proof.Machine
end

