-- ==== Sys2Proof/Machine/Timed.lean ====
section
/-!
DEFINITION. Timed actions on the 256 compare units (R261 to R265).
-/
namespace Sys2Proof.Machine

/-- Compare unit `u`. -/
def unitOf (s : State) (u : Nat) : Option Armed := tget none s.time.units u
/-- Replace compare unit `u`. -/
def setUnit (u : Nat) (a : Option Armed) (s : State) : State :=
  { s with time := { s.time with units := tset none s.time.units u a } }
/-- The lowest-numbered compare unit that holds no action (R261). -/
def freeUnit (s : State) : Option Nat := (List.range 256).find? (fun u => unitOf s u = none)
/-- The earliest instant at which a held unit frees by firing (R35, R261). -/
def unitFrees (s : State) : Nat :=
  (s.time.units.filterMap (fun e => e.2.map (fun a => max a.due (now s)))).foldl min 0xFFFFFFFFFFFFFFFF
/-- Arm an action (R261). -/
def arm (a : Armed) (s : State) : State :=
  match freeUnit s with
  | some u => count 132 0x0A01 (setUnit u (some { a with seq := s.admitSeq, loaded := now s }) s)
  | none => s

/-- Free the units whose action meets a condition (R265). -/
def freeUnits (p : Armed → Bool) (s : State) : State :=
  { s with time := { s.time with units := s.time.units.filter (fun e => !(match e.2 with
    | some a => p a
    | none => false)) } }

/-- Die F cancels its armed actions; their units free when it reports so (R265). -/
def cancelDieF (s : State) : State :=
  { s with time := { s.time with units := s.time.units.map (fun e => (e.1, e.2.map (fun a =>
    if a.dieF && a.report = 0 then { a with report := 3 } else a))) } }

end Sys2Proof.Machine
end

