-- ==== Sys2Proof/Machine/Io.lean ====
section
/-!
DEFINITION. Field I/O: pin priority (R329), images and refresh (R330, R339), diagnostics and trips (R331 to R334),
supplies (R336, R337), inputs (R325, R326), STO latches (R341, R342), safe states and the io commands.
-/
namespace Sys2Proof.Machine

/-- Whether channel `c` is an STO channel (R341). -/
def isSto (s : State) (c : Nat) : Bool := (fgOf s (c / 8)).sto && (chanOf s c).role = 2

/-- Whether the supply of field group `x` holds its outputs off (rank 1 of R329): cut, over, latched, or not yet
started (R337). -/
def supplyOff (s : State) (x : Nat) : Bool := let f := fgOf s x; f.latched || !f.risen

/-- Whether a rail excursion holds die F in reset (R421). -/
def dieFHeld (s : State) : Bool := s.dev.held.contains .vddF || s.dev.held.contains .vccF

/-- The value of R329 for the pin of channel `c`. Until the first valid refresh every output is off (R339), as
during a hold-up (R402). -/
def pinWant (s : State) (c : Nat) : Bool :=
  let h := chanOf s c
  if h.role ≠ 2 || !s.io.armed || s.jrn.holdup || dieFHeld s || supplyOff s (c / 8) || h.hot || (isSto s c && h.sto) then false
  else if s.io.safe ≠ 0 then (if h.safe = 1 then true else if h.safe = 2 then h.held else false)
  else if h.tripped then false
  else h.commanded

/-- Drive the pin of channel `c`. -/
def drivePin (c : Nat) (v : Bool) (s : State) : State :=
  let h := chanOf s c
  if h.pin = v then s
  else
    let s1 := emit .pin c [if v then 1 else 0] (setChan c { h with pin := v, pinAt := now s } s)
    if v then count (137 + c / 8) 0x0E05 s1 else s1

/-- Every pin takes the value of R329: at a cadence start and on entering a safe state. -/
def pinsAll (s : State) : State := forNat (List.range 32) (fun c t => drivePin c (pinWant t c) t) s
/-- A pin that a rank of R329 now holds off switches off at once. -/
def pinsOff (s : State) : State :=
  forNat (List.range 32) (fun c t => if (chanOf t c).pin && !pinWant t c then drivePin c false t else t) s

/-- The bit of a diagnostic code in the set of active codes. -/
def hasCode (h : Chan) (code : Nat) : Bool := h.codes.getLsbD code

/-- A record of source FIO: the channel or group, the code, V_O, I_O and FLP (R332, R336). V_O is open. -/
def fioDetail (s : State) (c : Nat) : List Byte :=
  fields [(2, (Config.freeValue s.free).toNat % 32768), (2, (chanOf s c).currentMa), (2, (fgOf s (c / 8)).flpMv)]

/-- Die M learns of something from die F while the crosslink carries: an event and a record. -/
def fioReport (ev : Option Nat) (code sev obj : Nat) (detail : List Byte) (s : State) : State :=
  if !xlinkCarries s then s else
  let s1 := journal 0x10 code sev obj 0 detail s
  match ev with
  | some e => raise e s1
  | none => s1

/-- A new diagnostic code of channel `c` (R332). -/
def addCode (c code sev : Nat) (s : State) : State :=
  let h := chanOf s c
  if hasCode h code then s
  else
    let s1 := setChan c { h with codes := h.codes ||| BitVec.twoPow 8 code } s
    freeNext (fioReport (some (84 + 2 * (c / 8))) code sev c (fioDetail s c) (count (137 + c / 8) 0x0E03 s1))

/-- A code of channel `c` clears: a record, no event (R332). -/
def clearCode (c code : Nat) (s : State) : State :=
  let h := chanOf s c
  if hasCode h code then
    freeNext (fioReport none 0x20 0 c (leBytes 1 code ++ fioDetail s c)
      (setChan c { h with codes := h.codes &&& ~~~(BitVec.twoPow 8 code) } s))
  else s

/-- A trip of channel `c` (R333). A channel of an STO group always uses LATCH. -/
def tripChan (c : Nat) (s : State) : State :=
  let h := chanOf s c
  if h.tripped || h.role ≠ 2 then s else
  let n := match h.lastRestart with
    | none => 1
    | some t => if 10000000000 + t < now s then 1 else h.consecutive + 1
  let auto := h.auto && !(fgOf s (c / 8)).sto && n < h.restartsMax
  count (137 + c / 8) 0x0E04 (pinsOff (setChan c { h with
    tripped := true, latched := !auto, consecutive := n, trips := h.trips + 1, tripAt := now s } s))

/-- OVERLOAD: the current limit of an output that is on was active for T_OVL (R331). -/
def overload (c : Nat) (s : State) : State :=
  if (chanOf s c).pin then tripChan c (addCode c 1 2 s) else s

/-- OVERTEMP: off by rank 2 (R329, R331). -/
def overtemp (c tj : Nat) (s : State) : State :=
  if (chanOf s c).role ≠ 2 then s
  else pinsOff (addCode c 2 2 (modChan c (fun h => { h with hot := true, tj := tj }) s))

/-- An overtemperature channel has cooled to 150 °C and becomes TRIPPED (R333). -/
def overtempTrip (c tj : Nat) (s : State) : State :=
  if (chanOf s c).hot && tj ≤ 150 then tripChan c (modChan c (fun h => { h with hot := false, tj := tj }) s)
  else modChan c (fun h => { h with tj := tj }) s

/-- GROUP_OVERLOAD: the measured currents sum to more than 3.0 A; the highest-numbered output that is on trips
(R334). -/
def groupOverload (x : Nat) (cur : List (BitVec 16)) (s : State) : State :=
  let s1 := forNat (List.range 8) (fun k t => modChan (8 * x + k) (fun h =>
    { h with currentMa := if h.pin then (lget 0 cur k).toNat else 0 }) t) s
  let sum := (List.range 8).foldl (fun n k => n + (chanOf s1 (8 * x + k)).currentMa) 0
  if sum ≤ 3000 then s1
  else match ((List.range 8).reverse.map (8 * x + ·)).find? (fun c => (chanOf s1 c).pin) with
    | some c => tripChan c (addCode c 3 2 s1)
    | none => s1

/-- SHORT_FLP of an off output (R331, R335), not within 2 ms of the switch-off (R332). -/
def shortFlp (c : Nat) (s : State) : State :=
  let h := chanOf s c
  if h.role = 2 && !h.pin then addCode c 4 1 (advanceTo (h.pinAt + 2000000) s) else s
/-- OPEN_OFF of an off output with OW_EN, not SHORT_FLP (R331), not within 2 ms of the switch-off (R332). -/
def openOff (c : Nat) (s : State) : State :=
  let h := chanOf s c
  if h.role = 2 && !h.pin && h.owEn && !hasCode h 4 then addCode c 6 1 (advanceTo (h.pinAt + 2000000) s) else s
/-- OPEN_ON of an on output (R331), not within T_OPEN of the switch-on (R332). -/
def openOn (c : Nat) (s : State) : State :=
  let h := chanOf s c
  if h.role = 2 && h.pin then addCode c 5 1 (advanceTo (h.pinAt + 1000000 * h.tOpen) s) else s
/-- OPEN_INPUT of an input with OW_EN, or its end (R326). -/
def openInput (c : Nat) (low : Bool) (s : State) : State :=
  let h := chanOf s c
  if !low then clearCode c 7 s
  else if h.role = 1 && h.owEn && !h.raw then addCode c 7 1 s else s

/-- An AUTO channel leaves TRIPPED after T_RESTART, provided Tj ≤ 150 °C (R333). -/
def channelRestart (c : Nat) (s : State) : State :=
  let h := chanOf s c
  if h.tripped && !h.latched && h.tj ≤ 150 then
    let s1 := advanceTo (h.tripAt + 1000000 * h.tRestart) s
    setChan c { h with tripped := false, lastRestart := some (now s1) } s1
  else s

/-! Supplies (R336, R337). -/

/-- Every change of supply state makes FIO_SUPPLY_x pending and writes a record (R336). -/
def setSupply (x code mv : Nat) (s : State) : State :=
  let f := fgOf s x
  let s1 := setFg x { f with supply := code, flpMv := mv } s
  if f.supply = code then s1
  else fioReport (some (85 + 2 * x)) (if code = 0 then 0x20 else 7 + code) (if code ≤ 1 then (if code = 0 then 0 else 1) else 2)
    x (leBytes 2 mv) (count (137 + x) 0x0E06 s1)

/-- FLP below 19.2 V for 1 ms, or at or above 19.6 V for 1 ms (R336). -/
def supplyLow (x mv : Nat) (s : State) : State :=
  let f := fgOf s x
  let good := if 19200 ≤ mv && mv ≤ 30000 then (match f.goodSince with
    | some t => some t
    | none => some (now s - 1000000)) else none
  let low := if mv < 19200 then true else if 19600 ≤ mv then false else f.low
  let s1 := setFg x { f with goodSince := good, low := low, flpMv := mv } s
  if f.latched then s1 else setSupply x (b2n low) mv s1

/-- SUPPLY_CUT (code 2) or SUPPLY_OVER (code 3): outputs off and the group latched (R336). -/
def supplyLatch (x code mv : Nat) (s : State) : State :=
  let f := fgOf s x
  let ok := if code = 2 then mv < 17000 else 33000 < mv
  if !ok then s else
  pinsOff (setSupply x code mv (setFg x { f with
    latched := true, cut := code = 2, goodSince := none, reenable := false, flpMv := mv,
    low := if code = 2 then true else f.low } s))

/-- A latched group leaves the latch at a cadence start (R337). -/
def supplyRelease (x : Nat) (s : State) : State :=
  let f := fgOf s x
  if f.latched && (f.reenable || f.autoRe) then
    setSupply x 0 f.flpMv (setFg x { f with latched := false, cut := false, reenable := false, low := false } s)
  else s

/-- SUPPLY_LATCH_RELEASE: the first cadence start at which FLP has stayed from 19.2 V to 30 V for 10 ms (R337). -/
def supplyLatchRelease (x : Nat) (s : State) : State :=
  let f := fgOf s x
  if f.latched && (f.reenable || f.autoRe) then
    match f.goodSince with
    | some t => pinsAll (supplyRelease x (advanceTo (ceilTo s.cad.ns (max (10000000 + t) (now s))) s))
    | none => s
  else s

/-- At the first rise after reset the group starts without a latch (R337). -/
def flpFirstRise (x mv : Nat) (s : State) : State :=
  let f := fgOf s x
  if f.risen || mv < 19200 || 30000 < mv then s
  else setSupply x 0 mv (setFg x { f with
    risen := true, latched := false, cut := false, low := false, goodSince := some (now s - 10000000) } s)

/-! Inputs (R325). -/

/-- A raw level change: the edge time is the first 1 µs sample at the new level (R325); an input that reads ON is not
open (R326). -/
def levelChange (c : Nat) (v : Bool) (s : State) : State :=
  let h := chanOf s c
  let t := ((ceilTo 1000 (now s) : Nat) + s.xl.dieFErr).toNat
  if h.raw = v then s
  else
    let s1 := if h.filterUs = 0 then setChan c { h with raw := v, rawEdge := t, filtered := v, edge := t } s
      else setChan c { h with raw := v, rawEdge := t } s
    if v then clearCode c 7 s1 else s1

/-- The raw level has held for FILTER_US. -/
def inputFiltered (c : Nat) (s : State) : State :=
  let h := chanOf s c
  if h.raw = h.filtered then s
  else setChan c { h with filtered := h.raw, edge := h.rawEdge } (advanceTo (h.rawEdge + 1000 * h.filterUs) s)

/-! Qualified inputs of one reader (R127): channel, level and edge time. -/

/-- The qualified level of channel `c`; low until it has first qualified. -/
def qualLevel (q : List (Nat × Bool × Nat)) (c : Nat) : Bool := ((q.find? (fun e => e.1 = c)).map (·.2.1)).getD false
/-- The edge time of the qualified level of channel `c`. -/
def qualEdge (q : List (Nat × Bool × Nat)) (c : Nat) : Nat := ((q.find? (fun e => e.1 = c)).map (·.2.2)).getD 0
/-- A level of channel `c` qualifies. -/
def setQual (q : List (Nat × Bool × Nat)) (c : Nat) (v : Bool) (t : Nat) : List (Nat × Bool × Nat) :=
  (c, v, t) :: q.filter (fun e => e.1 ≠ c)
/-- Whether an input on channel `c` is active for a reader: its qualified level against the polarity bit; a channel that is no
input is not. -/
def inputActive (s : State) (q : List (Nat × Bool × Nat)) (c pol bit : Nat) : Bool :=
  c < 32 && (chanOf s c).role = 1 && (qualLevel q c != bitOf pol bit)

/-! Images and safe states (R330, R339). -/

/-- The armed io.write actions that have been sent, in the order in which they fire. -/
def ioWrites (s : State) : List (Nat × Armed) :=
  let l := s.time.units.filterMap (fun e => match e.2 with
    | some a => (match a.kind with
      | .ioWrite _ _ => some (e.1, a)
      | _ => none)
    | none => none)
  l.mergeSort (fun a b => a.2.due < b.2.due || (a.2.due = b.2.due && a.2.seq ≤ b.2.seq))

/-- Set the masked channels of a word of values. -/
def writeCh (f : Chan → Bool → Chan) (mask value : Word) (s : State) : State :=
  forNat ((List.range 32).filter (fun c => mask.getLsbD c)) (fun c t => modChan c (fun h => f h (value.getLsbD c)) t) s

/-- Die M builds the image of the compute end: the commanded values that every output should have at the next
cadence start `t`, io.write actions at or before it included (R330). -/
def buildImage (t : Nat) (s : State) : State :=
  let s1 := (ioWrites s).foldl (fun u e =>
    if e.2.imaged || t < e.2.due || 2 ≤ e.2.report || (e.2.noLate && ceilTo 4 e.2.tr < e.2.due) then u
    else match e.2.kind with
      | .ioWrite m v => setUnit e.1 (some { e.2 with imaged := true }) (writeCh (fun h b => { h with mCmd := b }) m v u)
      | _ => u) s
  let w := bitsN ((List.range 32).map (fun c => (chanOf s1 c).mCmd))
  { s1 with io := { s1.io with refresh := s1.io.refresh + 1, image := some (s1.io.refresh + 1, BitVec.ofNat 32 w) } }

/-- Die F receives the image (R339). -/
def outputImage (crcOk : Bool) (s : State) : State :=
  match s.io.image with
  | none => s
  | some (n, w) =>
    let s0 := { s with io := { s.io with image := none } }
    if !xlinkCarries s then s0
    else if !crcOk || s.io.lastCount = some n then forNat (List.range 4) (fun x t => count (137 + x) 0x0E02 t) s0
    else forNat (List.range 4) (fun x t => count (137 + x) 0x0E01 t) { s0 with io := { s0.io with
      armed := true, lastRefresh := now s, lastCount := some n, ready := some w, gotRefresh := true,
      tWd := s0.io.tWdNext.getD s0.io.tWd, tWdNext := none } }

/-- Die F applies the image at a cadence start, samples the inputs, and releases latched groups; every pin then
takes the value of R329 (R21, R325, R330, R337). -/
def ioCadence (s : State) : State :=
  let s1 := match s.io.ready with
    | some w => writeCh (fun h b => if h.role = 2 then { h with commanded := b } else h) (BitVec.allOnes 32) w s
    | none => s
  let s2 := { s1 with io := { s1.io with
    ready := none, validRun := if s1.io.gotRefresh then s1.io.validRun + 1 else 0, gotRefresh := false
    ch := s1.io.ch.map (fun e => (e.1, { e.2 with sampled := e.2.filtered, sampledEdge := e.2.edge })) } }
  let s3 := forNat (List.range 4) (fun x t => match (fgOf t x).goodSince with
    | some g => if 10000000 + g ≤ now t then supplyRelease x t else t
    | none => t) s2
  pinsAll s3

/-- The levels of STEP_P, STEP_N, DIR_P, DIR_N, ENA and HOLD of a step axis between its pulses, in its MODE and with its POL (R344):
0 low, 1 high, 2 high impedance. -/
def stpPins (x : StpAxis) : List Byte :=
  if x.state = .unconfigured then List.replicate 6 2 else
  let level (k : Nat) (on : Bool) : Nat := b2n (on != x.pol.getLsbD k)
  let other (v : Nat) : Nat := if x.se5v then 2 else 1 - v
  [level 0 false, other (level 0 false), level 1 x.dir, other (level 1 x.dir), level 2 x.ena, level 3 x.hold].map (BitVec.ofNat 8)

/-- Replace step axis `n`; what that changes on its balls leaves. -/
def stpPut (n : Nat) (y : StpAxis) (s : State) : State :=
  if stpPins y = stpPins (stpOf s n) then setStp n y s else emit .pin (272 + n) (stpPins y) (setStp n y s)

/-- Step axis `n` enters SAFE (R354): no further pulse, ENA to ENA_SAFE, HOLD asserted, POS_SUSPECT set; a homing sequence ends as
by a stop (R129). -/
def stpSafe (n : Nat) (s : State) : State :=
  let x := stpOf s n
  if x.state = .unconfigured || x.state = .safe then s
  else raise (92 + n / 4) (journal 0x11 0x02 1 n 0 [] (stpPut n { x with
    state := .safe, ena := x.enaSafe, hold := true, suspect := true
    cause := x.cause ||| (if x.home = .none then 0x11#8 else 0x15#8), homeReason := if x.home = .none then x.homeReason else 5
    discarded := x.discarded + BitVec.ofNat 32 x.late.length, late := [], next := none, prof := none, sent := none, segment := none
    cmdV := 0, cmdA := 0, queue := [], home := .none } s))

/-- Die F enters its safe state: 1 logic silence, 2 crosslink lost (R19, R339). -/
def enterSafe (why : Nat) (s : State) : State :=
  if s.io.safe = why || s.io.safe = 2 then s else
  let s1 := { s with io := { s.io with
    safe := why, safeSeen := false, validRun := 0
    ch := s.io.ch.map (fun e => (e.1, { e.2 with held := if s.io.safe = 0 then e.2.pin else e.2.held, sto := true })) } }
  let s2 := forNat (List.range 16) stpSafe (pinsAll (cancelDieF s1))
  { s2 with dev := { s2.dev with faultN := true } }

/-- LOGIC_SILENCE: no valid refresh within T_WD (R339). -/
def logicSilence (s : State) : State :=
  if s.io.armed && s.io.safe = 0 then
    journalF 0x10 0x0B 3 noObj 0 [] (enterSafe 1 (advanceTo (s.io.lastRefresh + 1000000 * s.io.tWd) s))
  else s

/-- The axes that use channel `c` as home or limit input (R338). -/
def usesInput (s : State) (a c : Nat) : Bool :=
  let f := (axisOf s a).cfg
  f.homeCh = c || f.limP = c || f.limN = c

/-- A bad input stops what uses it (R338). -/
def badInput (x : Nat) (s : State) : State :=
  let bad := (List.range 8).map (8 * x + ·) |>.filter (fun c => (chanOf s c).role = 1)
  let ax := (tkeys s.axes).filter (fun a => bad.any (usesInput s a))
  forNat ax (fun a t => match groupOf t a with
    | some g => reqStopGrp g 2 t
    | none => if (axisOf t a).state = .closed then reqStopAxis a 2 t else t) s

/-- Die M receives the input image and diagnostics (R325, R338, R339, R365). -/
def inputImage (s : State) : State :=
  if !xlinkCarries s then s else
  let s1 := { s with io := { s.io with ch := s.io.ch.map (fun e => (e.1, { e.2 with seen := e.2.sampled, seenEdge := e.2.sampledEdge })) } }
  let s2 := forNat (List.range 4) (fun x t =>
    let f := fgOf t x
    let bad := f.latched && f.cut && f.inputsOnFlp
    if bad && !f.badSeen then badInput x (setFg x { f with badSeen := true } t)
    else if bad = f.badSeen then t else setFg x { f with badSeen := bad } t) s1
  if s2.io.safe = 1 && !s2.io.safeSeen then
    let mask := (List.range 32).foldl (fun m c => if isSto s2 c then m ||| (chanOf s2 c).stoMask else m) (0 : BitVec 16)
    let s3 := forNat (List.range 16) (fun g t => reqStopGrp g (if mask.getLsbD g then 0 else 1) t)
      { s2 with io := { s2.io with safeSeen := true } }
    forNat (List.range 4) (fun x t => raise (84 + 2 * x) t) s3
  else s2

/-- A category 0 stop of group `g` sets the STO latches whose mask names it (R342). -/
def stoGroup (g : Nat) (s : State) : State :=
  pinsOff (forNat ((List.range 32).filter (fun c => isSto s c && (chanOf s c).stoMask.getLsbD g))
    (fun c t => modChan c (fun h => { h with sto := true }) t) s)

/-! Commands. -/

/-- The channel state (table "Channel states"), by the ranks of R329. -/
def chanState (s : State) (c : Nat) : Nat :=
  let h := chanOf s c
  if h.role ≠ 2 then h.role
  else if supplyOff s (c / 8) then 4
  else if isSto s c && h.sto then 6
  else if s.io.safe ≠ 0 then 5
  else if h.tripped then 3 else 2

/-- The diagnostic reported: the first of the table "Output diagnostics", then the states that hold the output. -/
def chanDiag (s : State) (c : Nat) : Nat :=
  let h := chanOf s c
  match [2, 1, 3, 4, 6, 5, 7].find? (hasCode h) with
  | some k => k
  | none =>
    if h.role ≠ 2 then 0
    else if s.io.safe ≠ 0 then 0x0B
    else if isSto s c && h.sto then 0x0C
    else let u := (fgOf s (c / 8)).supply; if u = 0 then 0 else 7 + u

/-- Whether a group that is not IDLE uses channel `c` as home, limit or STO_CH input (io.configure). -/
def chanInUse (s : State) (c : Nat) : Bool :=
  (List.range 16).any (fun g => let x := grpOf s g
    x.state ≠ .idle && ((members s g).any (fun a => usesInput s a c) || (x.stoEnable && x.stoCh = c)))

/-- io.configure (R322). -/
def ioConfigureSpec : CmdSpec where
  opcode := 0x0F01
  lenOk n _ := n = 16
  objOk := objBelow 32
  stateOf o s := chanState s o
  body c s :=
    let p := c.p
    let o := c.h.object
    let sto := (fgOf s (o / 8)).sto
    let role := u8 p 0
    let ow := bitOf (u8 p 2) 0
    let tOpenOk : Bool := 10 ≤ u16 p 8 && u16 p 8 ≤ 1000
    let h := chanOf s o
    { bad := [(2 < role || (sto && role ≠ 2) || (role = 1 && u8 p 1 ≠ 1 && u8 p 1 ≠ 3) || 4 ≤ u8 p 2 || 2 < u8 p 3
                || (sto && u8 p 3 ≠ 0) || u8 p 11 ≠ 0 || (!sto && u16 p 14 ≠ 0), .badArg),
              (16000 < u16 p 4 || (role = 1 && ow && !tOpenOk) || (role = 2 && (u16 p 6 < 1 || 1000 < u16 p 6
                || !tOpenOk || u8 p 10 = 0 || u16 p 12 < 10 || 10000 < u16 p 12)), .outOfRange),
              (2 < chanState s o || h.pin || chanInUse s o, .stateConflict)]
      act := fun t => { s := setChan o { h with
        role := role, inType := u8 p 1, owEn := ow, auto := bitOf (u8 p 2) 1, safe := u8 p 3, filterUs := u16 p 4
        tOvl := u16 p 6, tOpen := u16 p 8, restartsMax := u8 p 10, tRestart := u16 p 12
        stoMask := BitVec.ofNat 16 (u16 p 14), mCmd := sto && role = 2, commanded := false } t } }

/-- io.configure_group (R341). -/
def ioConfigureGroupSpec : CmdSpec where
  opcode := 0x0F02
  lenOk n _ := n = 8
  objOk := objBelow 4
  stateOf o s := (fgOf s o).supply
  body c s :=
    let x := c.h.object
    { bad := [(1 < u8 c.p 0 || 4 ≤ u8 c.p 1 || !zeroAt c.p 2 6, .badArg),
              ((List.range 8).any (fun k => (chanOf s (8 * x + k)).role ≠ 0), .stateConflict)]
      act := fun t => { s := setFg x { fgOf t x with
        sto := u8 c.p 0 = 1, autoRe := bitOf (u8 c.p 1) 0, inputsOnFlp := bitOf (u8 c.p 1) 1 } t } }

/-- io.set_watchdog: from the next refresh (R339). -/
def ioSetWatchdogSpec : CmdSpec where
  opcode := 0x0F03
  lenOk n _ := n = 4
  body c _ :=
    { bad := [(!zeroAt c.p 1 3, .badArg), (u8 c.p 0 = 0, .outOfRange)]
      act := fun t => { s := { t with io := { t.io with tWdNext := some (u8 c.p 0) } } } }

/-- io.write: a die F timed action (R261, R330, R341). -/
def ioWriteSpec : CmdSpec where
  opcode := 0x0F04
  lenOk n _ := n = 12
  kind _ _ _ := .tick true
  body c s :=
    let m := BitVec.ofNat 32 (u32 c.p 0)
    let ch := (List.range 32).filter (fun k => m.getLsbD k)
    { bad := [(m = 0 || !zeroAt c.p 8 4, .badArg),
              (ch.any (fun k => (chanOf s k).role ≠ 2 || (fgOf s (k / 8)).sto), .stateConflict),
              (freeUnit s = none, .notSchedulable)]
      earliest := unitFrees s
      act := fun t => { s := arm { kind := .ioWrite m (BitVec.ofNat 32 (u32 c.p 4)), dieF := true, due := c.promise
                                   tr := c.h.reqTime, noLate := c.h.noLate } t } }

/-- The channels of field group `x` that a byte names. -/
def namedCh (x b : Nat) : List Nat := ((List.range 8).filter (bitOf b ·)).map (8 * x + ·)

/-- io.reenable (R333, R337). -/
def ioReenableSpec : CmdSpec where
  opcode := 0x0F05
  lenOk n _ := n = 4
  objOk := objBelow 4
  stateOf o s := (fgOf s o).supply
  kind _ _ _ := .cadence
  body c s :=
    let x := c.h.object
    let f := fgOf s x
    let early := match f.goodSince with
      | some t => now s < 10000000 + t
      | none => true
    { bad := [(2 ≤ u8 c.p 1 || !zeroAt c.p 2 2, .badArg),
              ((namedCh x (u8 c.p 0)).any (fun k => let h := chanOf s k; !h.tripped || 150 < h.tj), .stateConflict),
              (u8 c.p 1 = 1 && (!f.latched || early), .stateConflict)]
      act := later c }

/-- What io.reenable does at its cadence start. -/
def ioReenableEff (e : Eff) (s : State) : State :=
  let s1 := forNat (namedCh e.object (u8 e.p 0)) (fun k t => modChan k (fun h =>
    { h with tripped := false, latched := false, consecutive := 0, lastRestart := none }) t) s
  if u8 e.p 1 = 1 then setFg e.object { fgOf s1 e.object with reenable := true } s1 else s1

/-- io.release_safe (R340). -/
def ioReleaseSafeSpec : CmdSpec where
  opcode := 0x0F06
  kind _ _ _ := .cadence
  body c s :=
    { bad := [(s.io.safe ≠ 1 || s.io.validRun < 16, .stateConflict)]
      act := later c }

/-- The safe state by logic silence ends; FAULT_N is released unless MODE is FAULT (R340, R361). -/
def ioReleaseEff (s : State) : State :=
  if s.io.safe = 1 then { s with io := { s.io with safe := 0, safeSeen := false }
                                 dev := { s.dev with faultN := s.dev.mode = .fault } } else s

/-- io.sto_reset (R342). -/
def ioStoResetSpec : CmdSpec where
  opcode := 0x0F07
  lenOk n _ := n = 4
  objOk := objBelow 4
  stateOf o s := (fgOf s o).supply
  kind _ _ _ := .cadence
  body c s :=
    let ch := namedCh c.h.object (u8 c.p 0)
    let busy (g : Nat) : Bool := (grpOf s g).state = .stopping || (grpOf s g).state = .fault
    { bad := [(!zeroAt c.p 1 3 || ch.any (fun k => !isSto s k), .badArg),
              (s.io.safe ≠ 0 || s.xl.lost || ch.any (fun k => (List.range 16).any (fun g =>
                (chanOf s k).stoMask.getLsbD g && busy g)), .stateConflict)]
      act := later c }

/-- What io.sto_reset does at its cadence start. -/
def ioStoResetEff (e : Eff) (s : State) : State :=
  if s.io.safe ≠ 0 then s
  else forNat (namedCh e.object (u8 e.p 0)) (fun k t => modChan k (fun h => { h with sto := false }) t) s

/-- The measured current of channel `c` in mA: a free value within the measuring range while the pin is on. -/
def measuredMa (s : State) (c : Nat) : Nat :=
  if (chanOf s c).pin then (Config.freeValue (s.free + c % 8)).toNat % 2001 else 0

/-- io.status (table "io.status result"). -/
def ioStatusSpec : CmdSpec where
  opcode := 0x0F08
  objOk := objBelow 4
  stateOf o s := (fgOf s o).supply
  inFault _ := true
  body c s :=
    let x := c.h.object
    let f := fgOf s x
    let chs := (List.range 8).map (8 * x + ·)
    { act := fun t =>
        { s := { t with free := t.free + 8 }
          res := fields [(2, f.flpMv), (1, f.supply), (1, flagAt f.sto 0 + flagAt f.autoRe 1 + flagAt f.inputsOnFlp 2
              + flagAt f.latched 3 + 16 * s.io.safe), (2, chs.foldl (fun n k => n + measuredMa s k) 0), (10, 0)]
            ++ chs.flatMap (fun k => let h := chanOf s k
              fields [(1, chanState s k), (1, chanDiag s k),
                (1, flagAt h.commanded 0 + flagAt h.pin 1 + flagAt h.sto 2 + flagAt h.auto 3), (1, min 127 h.tj),
                (2, measuredMa s k), (2, h.trips.toNat), (4, shortOf h.seenEdge)]) } }

/-! The meanings of the rows. -/

/-- IO_CONFIGURE (R322). -/
def execIoConfigure (c : CmdRef) (s : State) : Host.Outcome State Fault Refusal := .next (runCmd ioConfigureSpec c s)
/-- IO_CONFIGURE_GROUP (R341). -/
def execIoConfigureGroup (c : CmdRef) (s : State) : Host.Outcome State Fault Refusal := .next (runCmd ioConfigureGroupSpec c s)
/-- IO_SET_WATCHDOG (R339). -/
def execIoSetWatchdog (c : CmdRef) (s : State) : Host.Outcome State Fault Refusal := .next (runCmd ioSetWatchdogSpec c s)
/-- IO_WRITE (R330). -/
def execIoWrite (c : CmdRef) (s : State) : Host.Outcome State Fault Refusal := .next (runCmd ioWriteSpec c s)
/-- IO_REENABLE (R337). -/
def execIoReenable (c : CmdRef) (s : State) : Host.Outcome State Fault Refusal := .next (runCmd ioReenableSpec c s)
/-- IO_RELEASE_SAFE (R340). -/
def execIoReleaseSafe (c : CmdRef) (s : State) : Host.Outcome State Fault Refusal := .next (runCmd ioReleaseSafeSpec c s)
/-- IO_STO_RESET (R342). -/
def execIoStoReset (c : CmdRef) (s : State) : Host.Outcome State Fault Refusal := .next (runCmd ioStoResetSpec c s)
/-- IO_STATUS (R331). -/
def execIoStatus (c : CmdRef) (s : State) : Host.Outcome State Fault Refusal := .next (runCmd ioStatusSpec c s)
/-- FIELD_OUTPUT_IMAGE (R330, R339). -/
def execFieldOutputImage (crcOk : Bool) (s : State) : Host.Outcome State Fault Refusal := .next (outputImage crcOk s)
/-- FIELD_INPUT_IMAGE (R339, R365). -/
def execFieldInputImage (s : State) : Host.Outcome State Fault Refusal := .next (inputImage s)
/-- INPUT_LEVEL_CHANGE (R325). -/
def execInputLevelChange (c : Fin 32) (v : Bool) (s : State) : Host.Outcome State Fault Refusal := .next (levelChange c.val v s)
/-- INPUT_FILTERED (R325). -/
def execInputFiltered (c : Fin 32) (s : State) : Host.Outcome State Fault Refusal := .next (inputFiltered c.val s)
/-- OPEN_INPUT (R326). -/
def execOpenInput (c : Fin 32) (low : Bool) (s : State) : Host.Outcome State Fault Refusal := .next (openInput c.val low s)
/-- OVERTEMP (R331). -/
def execOvertemp (c : Fin 32) (tj : BitVec 8) (s : State) : Host.Outcome State Fault Refusal := .next (overtemp c.val tj.toNat s)
/-- OVERTEMP_TRIP (R333). -/
def execOvertempTrip (c : Fin 32) (tj : BitVec 8) (s : State) : Host.Outcome State Fault Refusal :=
  .next (overtempTrip c.val tj.toNat s)
/-- OVERLOAD (R331). -/
def execOverload (c : Fin 32) (s : State) : Host.Outcome State Fault Refusal := .next (overload c.val s)
/-- GROUP_OVERLOAD (R334). -/
def execGroupOverload (x : Fin 4) (cur : List (BitVec 16)) (s : State) : Host.Outcome State Fault Refusal :=
  .next (groupOverload x.val cur s)
/-- SHORT_FLP (R331). -/
def execShortFlp (c : Fin 32) (s : State) : Host.Outcome State Fault Refusal := .next (shortFlp c.val s)
/-- OPEN_OFF (R331). -/
def execOpenOff (c : Fin 32) (s : State) : Host.Outcome State Fault Refusal := .next (openOff c.val s)
/-- OPEN_ON (R331). -/
def execOpenOn (c : Fin 32) (s : State) : Host.Outcome State Fault Refusal := .next (openOn c.val s)
/-- CODE_CLEARED (R332). -/
def execCodeCleared (c : Fin 32) (code : BitVec 8) (s : State) : Host.Outcome State Fault Refusal :=
  .next (clearCode c.val code.toNat s)
/-- CHANNEL_RESTART (R333). -/
def execChannelRestart (c : Fin 32) (s : State) : Host.Outcome State Fault Refusal := .next (channelRestart c.val s)
/-- SUPPLY_LOW (R336). -/
def execSupplyLow (x : Fin 4) (mv : BitVec 16) (s : State) : Host.Outcome State Fault Refusal := .next (supplyLow x.val mv.toNat s)
/-- SUPPLY_CUT (R336). -/
def execSupplyCut (x : Fin 4) (mv : BitVec 16) (s : State) : Host.Outcome State Fault Refusal := .next (supplyLatch x.val 2 mv.toNat s)
/-- SUPPLY_OVER (R336). -/
def execSupplyOver (x : Fin 4) (mv : BitVec 16) (s : State) : Host.Outcome State Fault Refusal := .next (supplyLatch x.val 3 mv.toNat s)
/-- SUPPLY_LATCH_RELEASE (R337). -/
def execSupplyLatchRelease (x : Fin 4) (s : State) : Host.Outcome State Fault Refusal := .next (supplyLatchRelease x.val s)
/-- FLP_FIRST_RISE (R337). -/
def execFlpFirstRise (x : Fin 4) (mv : BitVec 16) (s : State) : Host.Outcome State Fault Refusal :=
  .next (flpFirstRise x.val mv.toNat s)
/-- LOGIC_SILENCE (R339). -/
def execLogicSilence (s : State) : Host.Outcome State Fault Refusal := .next (logicSilence s)

end Sys2Proof.Machine
end

