-- ==== Sys2Proof/Machine/Time.lean ====
section
/-!
DEFINITION. The time base: rate and slews (R257, R268), offset corrections and plant steps (R266 to R271), firing of
timed actions (R262 to R264), the plant Ethernet ports (R272 to R275), and the time commands. Rates are in 10^-12.
-/
namespace Sys2Proof.Machine

/-- Whether the device is a member of a peloton of two or more (R304). -/
def inPeloton (s : State) : Bool := (s.pel.state = 1 || s.pel.state = 2) && s.pel.members &&& (s.pel.members - 1) ≠ 0

/-- Whether the device is the reference: from RUN entry also of its own peloton of one (R304). -/
def isRef (s : State) : Bool := if s.pel.state = 1 || s.pel.state = 2 then s.pel.isRef else true

/-- Whether the reference follows a grandmaster at present (R321): its port is SLAVE and two intervals are over. -/
def followsGm (s : State) : Bool :=
  s.pel.follow && (tget {} s.ptp s.pel.followPort).state = 4 && 2 ≤ s.pel.intervals

/-- The time mode (table "Time modes"). -/
def timeMode (_ : Nat) (s : State) : Nat :=
  if !isRef s then 1
  else if s.pel.follow then (if followsGm s then 3 else 4)
  else if s.pel.holdover then 4
  else if inPeloton s then 2 else 0

/-- 500 ppm (R257). -/
def maxDev : Int := 500000000

/-- TIME_INC for a frequency correction and a slew rate (R257). -/
def timeIncOf (f r : Int) : BitVec 40 :=
  BitVec.ofInt 40 (clampI 0x03FF7CED92 0x040083126E (2 ^ 34 + divEven (2 ^ 34 * (f + r)) 1000000000000))

/-- The sum of a rate and of the rates that bring it to 0 in steps of `st`. -/
def stopSum (r st : Int) : Int :=
  let a := if r < 0 then -r else r
  let n := if st = 0 then 0 else a / st
  sgn r * (a + n * a - st * (n * (n + 1) / 2))

/-- The largest rate whose own cadence and stop add up to at most `q` (R268). -/
def rateFor (q st : Int) : Int :=
  let a := if q < 0 then -q else q
  let p := (List.range 64).foldl (fun (e : Int × Int) _ =>
    let m := (e.1 + e.2 + 1) / 2
    if stopSum m st ≤ a then (m, e.2) else (e.1, m - 1)) ((0 : Int), a)
  sgn q * p.1

/-- The step of the slew rate in one cadence for a ramp in ppm/s (R268). -/
def stepOf (ramp : Nat) (s : State) : Int := ramp * s.cad.ns / 1000
/-- The largest slew rate for a limit in ppm (R268). -/
def rateLimit (ppm : Nat) (s : State) : Int :=
  min ((ppm : Int) * 1000000) (maxDev - (if s.time.freqCorr < 0 then -s.time.freqCorr else s.time.freqCorr))

/-- The step of the slew that runs: a slew in progress keeps the profile with which it began (time.configure). -/
def slewStep (s : State) : Int := stepOf (s.time.slewShared.getD (0, s.time.slewRamp)).2 s
/-- The largest rate of the slew that runs. -/
def slewMax (s : State) : Int := rateLimit (s.time.slewShared.getD (s.time.slewPpm, 0)).1 s

/-- The slew of one cadence: the new rate, and what then remains (R268). -/
def slewCadence (s : State) : State :=
  let t := s.time
  let n : Int := s.cad.ns
  if t.slewRate = 0 && (t.slewRemain < n && -n < t.slewRemain) then
    { s with time := { t with slewRemain := 0, slewShared := none, inc := timeIncOf t.freqCorr 0 } }
  else
    let st := slewStep s
    let m := slewMax s
    let r := clampI (t.slewRate - st) (t.slewRate + st) (clampI (-m) m (rateFor (t.slewRemain / n) st))
    let s1 := { s with
      time := { t with slewRate := r, slewRemain := t.slewRemain - r * n, inc := timeIncOf t.freqCorr r }
      pel := { s.pel with slewInInterval := s.pel.slewInInterval + r * n } }
    if r = 0 then s1 else count 132 0x0A05 s1

/-- The sum over n cadences of min(a + i·st, m, (n − i)·st). -/
def trapSum (a st m n : Int) : Int :=
  if st = 0 then 0 else
  let up := clampI 0 n (min ((m - a) / st) ((n * st - a) / (2 * st)))
  let dn := clampI 0 (n - up) (m / st)
  a * up + st * (up * (up + 1) / 2) + m * (n - up - dn) + st * (dn * (dn - 1) / 2)

/-- The cadences that a slew of `q` (in rate times cadences) takes from rate `a` (R268). -/
def slewLength (q a st m : Int) : Int :=
  let pos := 0 ≤ q - stopSum a st + a
  let (q1, a1) := if pos then (q, a) else (-q, -a)
  let p := (List.range 80).foldl (fun (e : Int × Int) _ =>
    let k := (e.1 + e.2) / 2
    if q1 ≤ trapSum a1 st m k then (e.1, k) else (k + 1, e.2)) ((0 : Int), (2 : Int) ^ 60)
  p.2

/-- The planned end of a new slew of `remain` in 10^-12 ns that begins at `from'` (SLEW_END). -/
def slewEnd (s : State) (from' : Nat) (remain : Int) : Nat :=
  if remain = 0 && s.time.slewRate = 0 then from'
  else from' + (slewLength (remain / s.cad.ns) s.time.slewRate (stepOf s.time.slewRamp s) (rateLimit s.time.slewPpm s)).toNat * s.cad.ns

/-- A slew of `d` ns is added to what still runs, with a speed and a ramp (R267, R268). -/
def addSlewWith (d : Int) (ppm ramp : Nat) (s : State) : State :=
  { s with time := { s.time with slewRemain := s.time.slewRemain + d * 1000000000000, slewShared := some (ppm, ramp) } }
/-- A slew of `d` ns with the speed and ramp of time.configure. -/
def addSlew (d : Int) (s : State) : State := addSlewWith d s.time.slewPpm s.time.slewRamp s

/-- A plant step (R269). -/
def plantStep (d : Int) (epoch : BitVec 16) (s : State) : State :=
  let old := s.time.plant
  let new := old + BitVec.ofInt 64 d
  let s1 := { s with time := { s.time with plant := new, epoch := epoch, lastStep := s.time.long } }
  raise 42 (journal 0x0F 0x03 0 noObj 0 (fields [(8, old.toNat), (8, new.toNat), (2, epoch.toNat)]) s1)

/-- The slews admitted but not begun, in ns. -/
def slewsAhead (s : State) : Int :=
  ((s.eff.filter (fun e => e.opcode = 0x0203 && u8 e.p 0 = 1)).map (fun e => i64 e.p 1)).foldl (· + ·) 0
    + (if s.pel.ann.kind = 1 then s.pel.ann.value else 0)
    + ((s.pel.queued.filter (fun q => !q.1)).map (·.2)).foldl (· + ·) 0

/-- The amount of a slew still to run, with the slews admitted but not begun, in 10^-12 ns (R267). -/
def slewLeft (s : State) : Int := s.time.slewRemain + slewsAhead s * 1000000000000

/-- The plant offset that results once every plant step already admitted has taken effect. -/
def plantAhead (s : State) : Int :=
  s.time.plant.toInt
    + ((s.eff.filter (fun e => e.opcode = 0x0203 && u8 e.p 0 = 2)).map (fun e => i64 e.p 1)).foldl (· + ·) 0
    + (if s.pel.ann.kind = 2 then s.pel.ann.value else 0)
    + ((s.pel.queued.filter (fun q => q.1)).map (·.2)).foldl (· + ·) 0

/-- Plant steps admitted that come at or before `t`. -/
def stepsAhead (s : State) (t : Nat) : Nat :=
  (s.eff.filter (fun e => e.opcode = 0x0203 && u8 e.p 0 = 2 && e.due ≤ t)).length + (if s.pel.ann.kind = 2 then 1 else 0)
    + (s.pel.queued.filter (fun q => q.1)).length

/-- Whether a correction is a plant step (R267). -/
def isStep (s : State) (d : Int) : Bool :=
  let x := slewLeft s + d * 1000000000000
  let lim : Int := s.time.slewThresh * 1000000000000
  !(-lim ≤ x && x ≤ lim)

/-- PEL_LEAD: announcements take effect at least 40 cadences after the decision (R316). -/
def annAt (s : State) (tr : Nat) : Nat := startFrom s 1 (max (now s + 40 * s.cad.ns) tr)

/-- The reference announces a correction (R316). -/
def announce (step : Bool) (d : Int) (at' : Nat) (s : State) : State :=
  { s with pel := { s.pel with ann := {
    kind := if step then 2 else 1, at' := at', value := d, epoch := (s.time.epoch + 1).toNat
    slewPpm := s.time.slewPpm, slewRamp := s.time.slewRamp } } }

/-- A correction decided on the reference of a peloton of two or more: announced, or waiting for the announcement that
is pending (R316). -/
def announceOrQueue (step : Bool) (d : Int) (at' : Nat) (s : State) : State :=
  if s.pel.ann.kind = 0 then announce step d at' s
  else { s with pel := { s.pel with queued := s.pel.queued ++ [(step, d)] } }

/-! Timed actions. -/

/-- How far the clock on which an action is tested lies from long time: die F tests its actions against its own copy (R17, R261). -/
def clockErr (s : State) (a : Armed) : Int := if a.dieF then s.xl.dieFErr else 0

/-- The tick in which a held action fires, on its own clock (R262). -/
def fireTick (s : State) (a : Armed) : Nat :=
  let e := clockErr s a
  let l := ((a.loaded : Int) + e).toNat / 4 * 4
  ceilTo 4 (max (if a.due ≤ l then l + 4 else a.due) ((now s : Int) + e).toNat)

/-- Whether compare logic holds an action that has not fired, been dropped or been cancelled. -/
def loaded (a : Armed) : Bool := !a.dieF || (a.sent && a.report = 0)

/-- Long time at the tick in which an action fires. -/
def fireAt (s : State) (a : Armed) : Nat := ((fireTick s a : Int) - clockErr s a).toNat

/-- Whether an action is the next of all to fire: in the order of time, then of admission (R262), and not before the cadence start
that falls in its tick or earlier. -/
def firesNow (s : State) (a : Armed) : Bool :=
  let t := fireAt s a
  loaded a && (!s.cad.started || t < s.cad.start + s.cad.len)
    && s.time.units.all (fun e => match e.2 with
      | some b => !loaded b || t < fireAt s b || (t = fireAt s b && a.seq ≤ b.seq)
      | none => true)

/-- The owner of an action, as its record names it (R36): the trace session, or no object for io.write, whose channels are in the
detail. -/
def ownerOf (a : Armed) : Nat := match a.kind with
  | .ioWrite _ _ => noObj
  | .traceTrigger k => k
  | .traceArm k => k

/-- The channels that an action writes. -/
def channelsOf (a : Armed) : Nat := match a.kind with
  | .ioWrite m _ => m.toNat
  | _ => 0

/-- What the owner of an action records of its firing (R263, R264): 0 in time, 1 LATE, 2 LATE_DROPPED. -/
def noteLate (a : Armed) (n : Nat) (t : TimeSt) : TimeSt := match a.kind with
  | .ioWrite m _ => { t with lateCh := ((List.range 32).filter (fun c => m.getLsbD c)).foldl (fun l c => tset 0 l c n) t.lateCh }
  | .traceTrigger k => { t with lateSes := tset 0 t.lateSes k n }
  | .traceArm k => { t with lateSes := tset 0 t.lateSes k n }

/-- TIMED_ACTION_FIRE: the action that is next to fire fires, late-flagged, or is dropped (R262 to R264). `act` is its owner's act. -/
def fireUnit (u : Nat) (act : Armed → State → State) (s : State) : State :=
  match unitOf s u with
  | none => s
  | some a =>
    if !firesNow s a then s else
    let t := fireTick s a
    let s1 := advanceTo (fireAt s a) s
    let late := a.tr ≠ 0 && ceilTo 4 a.tr < t
    let release (n : Nat) (v : State) : State := if a.dieF then setUnit u (some { a with report := n }) v else setUnit u none v
    let detail := fields [(1, match a.kind with | .ioWrite _ _ => 0 | _ => 1), (4, channelsOf a), (8, a.tr), (8, a.due), (7, t)]
    if late && a.noLate then
      let s2 := { s1 with time := noteLate a 2 { s1.time with dropCount := s1.time.dropCount + 1 } }
      count 132 0x0A04 (release 2 (raise 45 (journal 0x0F 0x02 1 (ownerOf a) a.tr detail s2)))
    else
      let s2 := if late then
          let v := count 132 0x0A03 (raise 44 { s1 with time := noteLate a 1 { s1.time with lateCount := s1.time.lateCount + 1 } })
          if a.due < t then journal 0x0F 0x01 1 (ownerOf a) a.due detail v else v
        else { s1 with time := noteLate a 0 s1.time }
      count 132 0x0A02 (release 1 (act a s2))

/-- DIE_F_ACTION_REPORT: die F has reported the firing, drop or cancellation, and the die M unit is free (R261). -/
def actionReport (u : Nat) (s : State) : State :=
  match unitOf s u with
  | none => s
  | some a =>
    if a.dieF && a.report ≠ 0 && xlinkCarries s then
      let t := setUnit u none s
      match a.kind with
      | .ioWrite m v => if a.report = 1 && !a.imaged then { t with io := { t.io with ch := t.io.ch.map (fun e =>
          (e.1, if m.getLsbD e.1 then { e.2 with mCmd := v.getLsbD e.1 } else e.2)) } } else t
      | _ => t
    else s

/-- Armed die F actions leave at the compute end (R261). -/
def sendActions (s : State) : State :=
  { s with time := { s.time with units := s.time.units.map (fun e => (e.1, e.2.map (fun a =>
    if a.dieF && !a.sent then { a with sent := true, loaded := now s } else a))) } }

/-! Plant Ethernet ports. -/

/-- Plant port `p`. -/
def ptpOf (s : State) (p : Nat) : PtpPort := tget {} s.ptp p
/-- Replace plant port `p`. -/
def setPtp (p : Nat) (v : PtpPort) (s : State) : State := { s with ptp := tset {} s.ptp p v }

/-- A long time as plant time in 2^-16 ns (R266, R273). -/
def plantOf (s : State) (t : Int) : Int := (t + s.time.plant.toInt) * 65536

/-- Die M's transmit timestamp of a message that leaves now, at the MDI (R273). -/
def txStamp (s : State) (x : PtpPort) : Int := plantOf s (now s) + x.egressLat * 65536

/-- A receive timestamp at the MDI (R273). -/
def rxStamp (s : State) (x : PtpPort) (rx : Int) : Int := rx + s.time.plant.toInt * 65536 - x.ingressLat * 65536

/-- A SLAVE port has measured an offset (R275): UNCALIBRATED becomes SLAVE. -/
def ptpOffset (x : PtpPort) (t1 t2 corr : Int) : PtpPort :=
  { x with offset := t2 - t1 - corr - x.meanDelay - x.asymmetry * 65536, twoStepWait := false
           state := if x.state = 1 || x.state = 3 then 4 else x.state }

/-- The 10 bytes of a PTP timestamp: 48-bit seconds and 32-bit nanoseconds. -/
def ptpTime (t : Int) : List Byte :=
  let ns := (t / 65536).toNat
  beBytes 6 (ns / 1000000000) ++ beBytes 4 (ns % 1000000000)

/-- The 8 bytes of a correctionField, in 2^-16 ns (R8: IEEE 1588 fields are big-endian). -/
def ptpCorr (t : Int) : List Byte := beBytes 8 (sn 8 t)

/-! PTP messages as they leave (PRESUMED: the layouts of IEEE 1588-2019, assumption 33). -/

/-- The clockIdentity of plant port `p`: its MAC address with FF-FE in the middle. -/
def ptpClockId (p : Nat) : List Byte := (portMac (16 + p)).take 3 ++ [0xFF, 0xFE] ++ (portMac (16 + p)).drop 3

/-- A PTP message: the common header of 34 bytes and a body. `log` is logMessageInterval. -/
def ptpMsgBytes (x : PtpPort) (p type seq : Nat) (two : Bool) (corr log : Int) (body : List Byte) : List Byte :=
  let control := lget 5 [0, 1, 5, 5, 5, 5, 5, 5, 2, 3] type
  beFields [(1, x.sdoId / 256 * 16 + type), (1, 0x12), (2, 34 + body.length), (1, x.domain), (1, x.sdoId % 256), (2, flagAt two 9)]
    ++ ptpCorr corr ++ beFields [(4, 0)] ++ ptpClockId p ++ beFields [(2, 1), (2, seq), (1, control), (1, sn 1 log)] ++ body

/-- The destination MAC address of a port's messages (table "Supported IEEE 1588-2019 features"). -/
def ptpMac (x : PtpPort) : List Byte :=
  if x.p2p then [0x01, 0x80, 0xC2, 0x00, 0x00, 0x0E] else [0x01, 0x1B, 0x19, 0x00, 0x00, 0x00]

/-- The destination IP address of a port's messages. -/
def ptpIp (x : PtpPort) : List Byte :=
  if x.transport = 1 then [224, 0] ++ (if x.p2p then [0, 107] else [1, 129])
  else [0xFF, if x.p2p then 0x02 else 0x0E] ++ List.replicate 12 0 ++ (if x.p2p then [0, 0x6B] else [0x01, 0x81])

/-- A message on its transport: an Ethernet frame; or the destination address and UDP datagram, with checksum 0 over IPv4 and with a
two-byte checksum complement after the message over IPv6 (R274), where `f` is the checksum that the complement keeps valid. -/
def ptpFrame (x : PtpPort) (p type f : Nat) (msg : List Byte) : List Byte :=
  let port := if type ≤ 3 then 319 else 320
  if x.transport = 0 then etherFrame (ptpMac x) (portMac (16 + p)) 0x88F7 msg
  else if x.transport = 1 then ptpIp x ++ beFields [(2, port), (2, port), (2, 8 + msg.length), (2, 0)] ++ msg
  else ptpIp x ++ beFields [(2, port), (2, port), (2, 10 + msg.length), (2, f % 65536)] ++ msg ++ beBytes 2 (f / 65536)

/-- A PTP message leaves port `p` (FRAMES_TX). -/
def ptpEmit (p type seq : Nat) (two : Bool) (corr log : Int) (body : List Byte) (s : State) : State :=
  let x := ptpOf s p
  count (128 + p) 0x0901 (emit .ptp p (ptpFrame x p type (freeNow s).toNat (ptpMsgBytes x p type seq two corr log body)) (freeNext s))

/-- The sequenceId of the next message of a type that the port originates. -/
def ptpSeq (x : PtpPort) (type : Nat) : Nat := tget 0 x.seqs type

/-- The port after a message of a type: its sequenceId moves on. -/
def ptpNext (x : PtpPort) (type : Nat) : PtpPort := { x with seqs := tset 0 x.seqs type ((ptpSeq x type + 1) % 65536) }

/-- The requestingPortIdentity and sequenceId of a request, which the row does not carry: free. -/
def ptpAsker (s : State) : List Byte × Nat :=
  let w := (Config.freeWide s.free).toNat
  (beBytes 10 w, w / 2 ^ 80 % 65536)

/-- PTP_MESSAGE (R272 to R275): `rx` stamps are long time in 2^-16 ns. -/
def ptpMessage (p : Nat) (m : PtpMsg) (s0 : State) : State :=
  let x := ptpOf s0 p
  if x.role = 0 then s0 else
  let s := count (128 + p) 0x0902 s0
  let ev (y : PtpPort) : State := count (128 + p) 0x0905 (setPtp p { y with rxEvents := y.rxEvents + 1 } s)
  let slave := x.role = 2
  match m with
  | .sync origin corr two rx =>
    let t2 := rxStamp s x rx
    if !slave then ev x
    else if two then ev { x with syncT2 := t2, syncT1 := corr, twoStepWait := true }
    else ev { ptpOffset x origin t2 corr with syncT1 := origin + corr, syncT2 := t2 }
  | .followUp origin corr =>
    if slave && x.twoStepWait then
      setPtp p { ptpOffset x origin x.syncT2 (corr + x.syncT1) with syncT1 := origin + corr + x.syncT1 } s
    else s
  | .delayReq rx =>
    if x.role = 1 && !x.p2p then
      let a := ptpAsker s
      freeNext (ptpEmit p 9 a.2 false 0 x.logDelay (ptpTime (rxStamp s x rx) ++ a.1) (ev x))
    else ev x
  | .delayResp t4 corr =>
    if slave && !x.p2p then
      setPtp p { x with delayT4 := t4, meanDelay := (x.syncT2 - x.delayT1 + (t4 - corr - x.syncT1)) / 2 } s
    else s
  | .pdelayReq rx =>
    let t2 := rxStamp s x rx
    let s1 := ev { x with delayT2 := t2 }
    if x.p2p then
      let t3 := txStamp s x
      let y := ptpOf s1 p
      let a := ptpAsker s
      let s2 := count (128 + p) 0x0904 (setPtp p { y with txEvents := y.txEvents + 1 } s1)
      let s3 := freeNext (ptpEmit p 3 a.2 (!x.oneStep) (if x.oneStep then t3 - t2 else 0) 0x7F (ptpTime (if x.oneStep then 0 else t2) ++ a.1) s2)
      if x.oneStep then s3 else ptpEmit p 10 a.2 false 0 0x7F (ptpTime t3 ++ a.1) s3
    else s1
  | .pdelayResp t2 corr two rx =>
    let t4 := rxStamp s x rx
    if !x.p2p then ev x
    else if two then ev { x with delayT2 := t2, delayT4 := t4 - corr, twoStepWait := true }
    else ev { x with delayT4 := t4, meanDelay := (t4 - x.delayT1 - corr) / 2 }
  | .pdelayRespFollowUp t3 corr =>
    if x.p2p then setPtp p { x with meanDelay := (x.delayT4 - x.delayT1 - (t3 - x.delayT2) - corr) / 2 } s else s
  | .announce gm =>
    if slave then setPtp p { x with gmId := gm, state := if x.state = 1 then 3 else x.state } s else s
  | .signaling => count (128 + p) 0x0907 (setPtp p { x with discards := x.discards + 1 } s)
  | .management => count (128 + p) 0x0907 (setPtp p { x with discards := x.discards + 1 } s)
  | .malformed => count (128 + p) 0x0907 (setPtp p { x with discards := x.discards + 1 } s)

/-- A PTP event message of a type leaves; without a stamp it counts in TS_ERRORS and is sent again at the next interval (R275). -/
def ptpSend (p type : Nat) (two stamped : Bool) (log : Int) (body : List Byte) (x : PtpPort) (s : State) : State :=
  let y := { ptpNext x type with txEvents := x.txEvents + 1, tsErrors := if stamped then x.tsErrors else x.tsErrors + 1 }
  let s1 := count (128 + p) 0x0904 (ptpEmit p type (ptpSeq x type) two 0 log body (setPtp p y s))
  if stamped then s1 else count (128 + p) 0x0906 s1

/-- PTP_INTERVAL: a message interval of a port (R272, R274). -/
def ptpInterval (p : Nat) (tick : PtpTick) (stamped : Bool) (s : State) : State :=
  let x := ptpOf s p
  if x.role = 0 then s else
  let t := txStamp s x
  let zero := List.replicate 10 (0 : Byte)
  match tick with
  | .sync =>
    if x.role ≠ 1 then s
    else if x.oneStep then ptpSend p 0 false stamped x.logSync (ptpTime t) x s
    else
      let s1 := ptpSend p 0 true stamped x.logSync zero x s
      if stamped then ptpEmit p 8 (ptpSeq x 0) false 0 x.logSync (ptpTime t) s1 else s1
  | .delay =>
    if x.p2p then ptpSend p 2 false stamped 0x7F (zero ++ zero) (if stamped then { x with delayT1 := t } else x) s
    else if x.role = 2 then ptpSend p 1 false stamped 0x7F zero (if stamped then { x with delayT1 := t } else x) s
    else s
  | .announce =>
    if x.role = 1 then
      -- no UTC offset, no variance and no time source are stated: 0; one step from itself
      ptpEmit p 11 (ptpSeq x 11) false 0 x.logAnnounce (zero ++ beFields [(2, 0), (1, 0), (1, x.priority1), (1, x.clockClass),
        (1, x.clockAccuracy), (2, (freeNow s).toNat), (1, x.priority2)] ++ ptpClockId p ++ beFields [(2, 0), (1, 0xA0)])
        (setPtp p (ptpNext x 11) s)
    else s

/-- PTP_ANNOUNCE_TIMEOUT: a SLAVE port leaves SLAVE, and the reference enters HOLDOVER (R271, R321). -/
def announceTimeout (p : Nat) (s : State) : State :=
  let x := ptpOf s p
  if x.role ≠ 2 then s else
  let was := timeMode 0 s
  let s1 := setPtp p { x with state := 1 } s
  if s.pel.follow && s.pel.followPort = p then
    let s2 := { s1 with pel := { s1.pel with intervals := 0 } }
    if was = 3 then raise 43 (journal 0x0E 0x07 0 noObj 0 [] s2) else s2
  else s1

/-- GM_SERVO_INTERVAL: every 16 Sync intervals (R321). `mean` is m_k in 2^-16 ns, signed. -/
def gmServo (mean : BitVec 64) (s : State) : State :=
  let x := ptpOf s s.pel.followPort
  if !s.pel.follow || x.state ≠ 4 then s else
  let m := mean.toInt
  let tint : Fx := if 0 ≤ x.logSync then 16 * one * 2 ^ x.logSync.toNat else 16 * one / 2 ^ (-x.logSync).toNat
  let tau := f32 s.pel.gmTau.toNat
  let w := min one (fdiv tint tau)
  -- ns per second in 10^-12: (m_k − m_{k−1} − S_k)/T_int
  let dm : Fx := (m - s.pel.gmOffset) * 2 ^ 64 - s.pel.slewInInterval * 2 ^ 80 / 1000000000000
  let rate := if s.pel.intervals = 0 then 0 else divEven (fmul w (fdiv dm tint) * 1000) (2 ^ 80)
  let fm : Int := s.pel.freqMax * 1000000
  let tgt := clampI (-fm) fm (s.time.freqCorr - rate)
  let s1 := { s with pel := { s.pel with
    target := tgt, gmOffset := m, slewInInterval := 0, intervals := s.pel.intervals + 1 } }
  let d := -(divEven m 65536)
  if d = 0 || s.pel.ann.kind ≠ 0 then s1
  else
    let st := isStep s1 d
    if inPeloton s1 then announce st d (annAt s1 0) s1
    else { s1 with eff := s1.eff ++ [{ opcode := 0x0203, due := startFrom s1 1 (now s1), seq := s1.admitSeq
                                       p := fields [(1, if st then 2 else 1), (8, sn 8 d)] }] }

/-- f moves towards the servo's target by at most 0.001 ppm per cadence (R321). -/
def gmCadence (s : State) : State :=
  if followsGm s then
    let d := clampI (-1000) 1000 (s.pel.target - s.time.freqCorr)
    { s with time := { s.time with freqCorr := s.time.freqCorr + d } }
  else s

/-! Commands. -/

/-- time.status (table "time.status result"). -/
def timeStatusSpec : CmdSpec where
  opcode := 0x0201
  stateOf := timeMode
  inFault _ := true
  body _ s :=
    let t := s.time
    { act := fun u => { s := u, res := fields [(1, timeMode 0 s), (1, 0), (2, t.epoch.toNat),
        (2, (t.units.filter (fun e => e.2.isSome)).length), (2, 0), (8, t.long.toNat), (8, t.plant.toNat), (8, t.inc.toNat),
        (4, sn 4 t.freqCorr), (4, sn 4 t.slewRate), (8, sn 8 (t.slewRemain / 1000000000000)), (4, t.lateCount.toNat),
        (4, t.dropCount.toNat), (8, t.lastStep.toNat)] } }

/-- time.configure. -/
def timeConfigureSpec : CmdSpec where
  opcode := 0x0202
  lenOk n _ := n = 16
  stateOf := timeMode
  body c _ :=
    let p := c.p
    { bad := [(!zeroAt p 8 8, .badArg),
              (u32 p 0 < 1000 || 10000000 < u32 p 0 || u16 p 4 = 0 || 500 < u16 p 4 || u16 p 6 < 10 || 10000 < u16 p 6, .outOfRange)]
      act := fun t => { s := { t with time := { t.time with slewThresh := u32 p 0, slewPpm := u16 p 4, slewRamp := u16 p 6 } } } }

/-- Whether an integer fits a signed 64-bit field. -/
def fits64 (x : Int) : Bool := -(2 ^ 63) ≤ x && x < 2 ^ 63

/-- time.set_plant (R267, R316). -/
def timeSetPlantSpec : CmdSpec where
  opcode := 0x0203
  lenOk n _ := n = 16
  stateOf := timeMode
  kind h _ s := if inPeloton s then .at (annAt s h.reqTime) else .cadence
  body c s :=
    let p := c.p
    let v := i64 p 8
    let d := if u8 p 1 = 1 then v - plantAhead s else v
    let st := u8 p 0 = 1 || isStep s d
    let used := if d = 0 then 0 else if st then 2 else 1
    let ahead := stepsAhead s c.promise + if used = 2 then 1 else 0
    { bad := [(1 < u8 p 0 || 1 < u8 p 1 || !zeroAt p 2 6, .badArg),
              (!fits64 d || (used = 2 && !fits64 (plantAhead s + d)), .outOfRange),
              (timeMode 0 s ≠ 0 && timeMode 0 s ≠ 2, .stateConflict)]
      act := fun t =>
        let t1 := if used = 0 then t
          else if inPeloton s then announceOrQueue st d c.promise t
          else { t with eff := t.eff ++ [{ effOf c t with p := fields [(1, used), (8, sn 8 d)] }] }
        { s := t1
          res := fields [(1, used), (1, 0), (2, (s.time.epoch.toNat + ahead) % 65536), (4, 0),
            (8, if used = 1 then slewEnd s c.promise (slewLeft s + d * 1000000000000) else 0)] } }

/-- What time.set_plant does at its cadence start in a peloton of one (R267, R269). -/
def setPlantEff (e : Eff) (s : State) : State :=
  let d := i64 e.p 1
  if u8 e.p 0 = 1 then addSlew d s else if u8 e.p 0 = 2 then plantStep d (s.time.epoch + 1) s else s

/-- STATE of the port commands. -/
def ptpStateOf (o : Nat) (s : State) : Nat := (ptpOf s o).state

/-- time.ptp_port (R272, R275). -/
def timePtpPortSpec : CmdSpec where
  opcode := 0x0204
  lenOk n _ := n = 32
  objOk := objBelow 4
  stateOf := ptpStateOf
  body c s :=
    let p := c.p
    let o := c.h.object
    let role := u8 p 0
    let other := (List.range 4).any (fun q => q ≠ o && (ptpOf s q).role = 2)
    { bad := [(2 < role || 2 < u8 p 1 || 1 < u8 p 2 || 1 < u8 p 3 || 0x1000 ≤ u16 p 8 || !zeroAt p 23 9, .badArg),
              (127 < u8 p 4 || i8 p 5 < -7 || 4 < i8 p 5 || i8 p 6 < -7 || 5 < i8 p 6 || i8 p 7 < -3 || 4 < i8 p 7
                || u8 p 10 < 2 || 10 < u8 p 10 || 1000 < u16 p 12 || 1000 < u16 p 14 || i32 p 16 < -1000000
                || 1000000 < i32 p 16, .outOfRange),
              (role = 2 && (other || !isRef s), .stateConflict)]
      act := fun t => { s := phySetup 1 o (setPtp o { ptpOf t o with
        role := role, transport := u8 p 1, p2p := u8 p 2 = 1, oneStep := u8 p 3 = 1, domain := u8 p 4, logSync := i8 p 5
        logDelay := i8 p 6, logAnnounce := i8 p 7, sdoId := u16 p 8, annTimeout := u8 p 10, clockClass := u8 p 11
        egressLat := u16 p 12, ingressLat := u16 p 14, asymmetry := i32 p 16, priority1 := u8 p 20, priority2 := u8 p 21
        clockAccuracy := u8 p 22, state := if role = 0 then 0 else if role = 1 then 2 else 1, link := role ≠ 0
        twoStepWait := false } t) } }

/-- time.ptp_status. -/
def timePtpStatusSpec : CmdSpec where
  opcode := 0x0205
  objOk := objBelow 4
  stateOf := ptpStateOf
  inFault _ := true
  body c s :=
    let x := ptpOf s c.h.object
    { act := fun t => { s := t, res := fields [(1, x.state), (1, b2n x.link), (6, 0), (8, x.gmId.toNat), (8, sn 8 x.offset),
        (8, sn 8 x.meanDelay), (4, x.txEvents.toNat), (4, x.rxEvents.toNat), (4, x.tsErrors.toNat), (4, x.discards.toNat)] } }

/-! The meanings of the rows. -/

/-- TIME_STATUS (R256). -/
def execTimeStatus (c : CmdRef) (s : State) : Host.Outcome State Fault Refusal := .next (runCmd timeStatusSpec c s)
/-- TIME_CONFIGURE (R268). -/
def execTimeConfigure (c : CmdRef) (s : State) : Host.Outcome State Fault Refusal := .next (runCmd timeConfigureSpec c s)
/-- TIME_SET_PLANT (R267). -/
def execTimeSetPlant (c : CmdRef) (s : State) : Host.Outcome State Fault Refusal := .next (runCmd timeSetPlantSpec c s)
/-- TIME_PTP_PORT (R272). -/
def execTimePtpPort (c : CmdRef) (s : State) : Host.Outcome State Fault Refusal := .next (runCmd timePtpPortSpec c s)
/-- TIME_PTP_STATUS (R275). -/
def execTimePtpStatus (c : CmdRef) (s : State) : Host.Outcome State Fault Refusal := .next (runCmd timePtpStatusSpec c s)
/-- DIE_F_ACTION_REPORT (R261, R265). -/
def execDieFActionReport (u : Fin 256) (s : State) : Host.Outcome State Fault Refusal := .next (actionReport u.val s)
/-- PTP_MESSAGE (R273). -/
def execPtpMessage (p : Fin 4) (m : PtpMsg) (s : State) : Host.Outcome State Fault Refusal := .next (ptpMessage p.val m s)
/-- PTP_INTERVAL (R274). -/
def execPtpInterval (p : Fin 4) (k : PtpTick) (stamped : Bool) (s : State) : Host.Outcome State Fault Refusal :=
  .next (ptpInterval p.val k stamped s)
/-- PTP_ANNOUNCE_TIMEOUT (R321). -/
def execPtpAnnounceTimeout (p : Fin 4) (s : State) : Host.Outcome State Fault Refusal := .next (announceTimeout p.val s)
/-- GM_SERVO_INTERVAL (R321). -/
def execGmServoInterval (mean : BitVec 64) (s : State) : Host.Outcome State Fault Refusal := .next (gmServo mean s)

end Sys2Proof.Machine
end

