-- ==== Sys2Proof/Machine/Pel.lean ====
section
/-!
DEFINITION. The peloton: line frames (R303 to R306), start (R307 to R310), link delay (R311), alignment (R312 to R314),
announcements (R316), drift checks (R317), succession, adoption and handover (R318 to R320), following a grandmaster
(R321), and the pel commands. Rates are in 10^-12 and times of θ in ps.
-/
namespace Sys2Proof.Machine

/-- Change the peloton's state. -/
def modPel (f : PelSt → PelSt) (s : State) : State := { s with pel := f s.pel }

/-- STATE of the pel commands. -/
def pelState (_ : Nat) (s : State) : Nat := s.pel.state

/-- Port modes with a fine link (R305): every mode but SGMII. -/
def fineMode (m : Nat) : Bool := m ≠ 2

/-- Cadence lengths by the code of bus.set_timing. -/
def cadences : List Nat := [15625, 31250, 62500, 125000, 250000, 500000, 1000000]
/-- The cadence code in force. -/
def cadCode (s : State) : Nat := cadences.idxOf s.cad.ns

/-- The HOPS that the device sends (R306). -/
def ownHops (s : State) : Nat := if isRef s then 0 else s.pel.sync'.hops + 1
/-- SILENT (R312). -/
def silent (s : State) : Nat := if isRef s then 0 else s.pel.refAge - ownHops s
/-- The address of the reference that the device is or follows. -/
def refAddr (s : State) : Nat := if isRef s then s.pel.addr else s.pel.sync'.refAddr
/-- PEL_SYNC: always 1 on the reference (R314). -/
def pelSync (s : State) : Bool := isRef s || s.pel.sync
/-- The addresses in MEMBERS. -/
def pelMembers (s : State) : List Nat := (List.range 32).filter (fun a => s.pel.members.getLsbD a)

/-- The succession rank of the device (R318): its place after the reference among the members. -/
def rankOf (s : State) : Nat :=
  let r := refAddr s
  let order := (List.range 32).map (fun k => (r + 1 + k) % 32)
  ((order.filter (fun a => s.pel.members.getLsbD a)).idxOf s.pel.addr) + 1

/-- The FLAGS of a PELOTON frame; a follower passes on what its reference said of the grandmaster. -/
def pelFlags (s : State) : Nat :=
  flagAt (pelSync s) 0 + flagAt (if isRef s then timeMode 0 s = 3 else s.pel.sync'.refGm) 1
    + flagAt (if isRef s then timeMode 0 s = 4 else s.pel.sync'.holdover) 2 + flagAt s.pel.strap 3

/-- The body of a PELOTON frame (table in "The PELOTON frame"). -/
def pelBody (s : State) (msg tx members count t2 : Nat) : List Byte :=
  let r := isRef s
  let x := s.pel.sync'
  beFields [(1, msg), (1, refAddr s), (1, ownHops s), (1, pelFlags s), (2, if r then s.pel.refGen.toNat else x.refGen.toNat),
    (2, if r then 0 else s.pel.refAge), (8, tx), (8, if r then s.time.plant.toNat else x.plant.toNat),
    (2, if r then s.time.epoch.toNat else x.epoch.toNat), (1, s.pel.ann.kind), (1, cadCode s), (4, members),
    (8, s.pel.ann.at'), (8, sn 8 s.pel.ann.value), (2, s.pel.ann.epoch), (2, s.pel.ann.slewPpm), (2, s.pel.ann.slewRamp),
    (1, s.cad.round), (1, count), (8, t2)]

/-- A PELOTON frame leaves on a line port; its destination address is the model's choice. -/
def pelSend (up : Bool) (msg tx members count t2 : Nat) (s : State) : State :=
  let port := if up then s.pel.upPort else s.pel.downPort
  let link := if up then s.pel.upLink else s.pel.downLink
  if port = 0xFF || !link then s else
  let hdr := virzaHdr 8 0xFF s.pel.addr 0 0 0 s.cad.count.toNat 0 s.cad.start Config.uid.toNat
  emit .line port (etherFrame (segMac 0xFF) (portMac port) 0x88B5 (hdr ++ pelBody s msg tx members count t2)) s

/-- Whether the device sends SYNC frames: a member, a starting head, or a follower that has taken time. -/
def sendsSync (s : State) : Bool := s.pel.state = 2 || (s.pel.state = 1 && (s.pel.isRef || s.pel.tookTime))

/-- One SYNC frame on each connected line port (R306). -/
def pelSyncFrames (s : State) : State :=
  let m := s.pel.members.toNat
  pelSend false 1 (now s) m 0 0 (pelSend true 1 (now s) m 0 0 s)

/-- DELAY_REQ on a line port (R311): T2 carries the sender's ASYM_UP. -/
def delayReq (up : Bool) (s : State) : State :=
  pelSend up 2 (now s) s.pel.members.toNat 0 (sn 4 s.pel.asymUp) s

/-- A drift check fires (R317). -/
def driftFires (bit code : Nat) (s : State) : State :=
  journal 0x0E code 1 noObj 0 [] (modPel (fun p => { p with
    cause := p.cause ||| BitVec.twoPow 8 bit, driftEvents := p.driftEvents + 1 }) s)

/-! Start (R307 to R310). -/

/-- The result of pel.start. -/
def startResult (s : State) (reason : Nat) : List Byte :=
  let d := if s.pel.timingDown then s.pel.down.mean else s.pel.up.mean
  fields [(1, reason), (1, if s.pel.addrKnown then s.pel.addr else 0xFF), (1, (pelMembers s).length), (1, 0),
    (4, s.pel.members.toNat), (4, if s.pel.isRef then 0 else sn 4 d), (4, 0)]

/-- pel.start completes; a failed start is a partial result and leaves FAILED (R308), a peloton of one whose address is
0 (R5, R304). -/
def startDone (reason : Nat) (s : State) : State :=
  let s1 := modPel (fun p => { p with
    state := if reason = 0 then 2 else 3, started := none, reason := reason
    addr := if reason = 0 then p.addr else 0 }) s
  match s.pel.started with
  | some (m, k) => complete m k (if reason = 0 then .ok else .stateConflict) (now s) s1.pel.state (startResult s reason) s1
  | none => s1

/-- Whether every member but the device itself is SYNCED (R309). -/
def allSynced (s : State) : Bool := (pelMembers s).all (fun a => a = s.pel.addr || s.pel.syncedMembers.getLsbD a)

/-- A starting head that has sent CONFIG completes when every member sets SYNCED (R309). -/
def headCheck (s : State) : State :=
  if s.pel.state = 1 && s.pel.isRef && s.pel.enumSame && allSynced s then startDone 0 s else s

/-- The COUNT of an ENUM has returned to the head with the addresses it collected (R307 to R309). -/
def enumBack (count members : Nat) (s : State) : State :=
  if s.pel.state ≠ 1 || !s.pel.isRef || s.pel.enumSame then s
  else if 32 ≤ count then startDone 9 s
  else if s.pel.enumCount ≠ some count then modPel (fun p => { p with enumCount := some count }) s
  else
    let m : Word := BitVec.ofNat 32 (members ||| 1)
    let s1 := modPel (fun p => { p with members := m, enumSame := true }) s
    if (pelMembers s1).length ≠ count + 1 then startDone 2 s1
    else if s.pel.expect ≠ 0 && s.pel.expect ≠ count + 1 then startDone 8 s1
    else headCheck (pelSend false 5 0 m.toNat count 0 s1)

/-- A round of a starting head: ENUM leaves on DOWN, or a line of one counts no follower (R309). -/
def pelRoundStart (s : State) : State :=
  if s.pel.state = 1 && s.pel.isRef && !s.pel.enumSame then
    if s.pel.downPort = 0xFF then enumBack 0 1 s else pelSend false 4 0 1 0 0 s
  else s

/-- Whether two rounds or cadences differ between the devices (R308). -/
def timingDiffers (s : State) (b : List Byte) : Bool := u8 b 27 % 8 ≠ cadCode s || u8 b 54 ≠ s.cad.round

/-- Whether an address comes out of order, or is taken, after those collected (R308). -/
def addrFault (a members : Nat) : Nat :=
  if bitOf members a then 2 else if members / 2 ^ a ≠ 0 then 3 else 0

/-- PELOTON_ENUM (R307, R308). -/
def pelEnum (port : LinePort) (f : List Byte) (s : State) : State :=
  let b := (payload f).drop 32
  if !fcsOk f || u8 b 0 ≠ 4 then s else
  let count := u8 b 55
  let members := be b 28 4
  if s.pel.state ≠ 1 then s
  else if s.pel.isRef then
    if port = .down then (if be (payload f) 24 8 ≠ Config.uid.toNat then startDone 5 s else enumBack count members s) else startDone 5 s
  else if bitOf (u8 b 3) 3 ≠ s.pel.strap then startDone 7 s
  else if timingDiffers s b then startDone 6 s
  else
    match port with
    | .up =>
      if 31 ≤ count then startDone 9 s else
      let a := if s.pel.strap then s.dev.stnaddr.toNat else count + 1
      let flt := addrFault a members
      let s1 := modPel (fun p => { p with addr := a, addrKnown := true }) s
      if flt ≠ 0 then startDone flt s1
      else pelSend (s.pel.downPort = 0xFF) 4 0 (members ||| 2 ^ a) (count + 1) 0 s1
    | .down => pelSend true 4 0 members count 0 s

/-- PELOTON_CONFIG (R308, R309): members, timing and round reach a follower and go on. -/
def pelConfig (f : List Byte) (s : State) : State :=
  let b := (payload f).drop 32
  if !fcsOk f || u8 b 0 ≠ 5 || s.pel.state ≠ 1 || s.pel.isRef then s
  else
    let m : Word := BitVec.ofNat 32 (be b 28 4)
    let s1 := modPel (fun p => { p with members := m }) s
    if timingDiffers s b then startDone 6 s1
    else if s.pel.expect ≠ 0 && s.pel.expect ≠ (pelMembers s1).length then startDone 8 s1
    else pelSend false 5 0 m.toNat (u8 b 55) 0 s1

/-- PEL_START_TIMEOUT: a head's start fails after 10 s (R309). -/
def pelStartTimeout (s : State) : State :=
  if s.pel.state = 1 && s.pel.isRef then startDone 1 (advanceTo (10000000000 + s.pel.startAt) s) else s

/-! Link delay (R311). -/

/-- The sum of a list of integers. -/
def sumI (l : List Int) : Int := l.foldl (· + ·) 0

/-- A new measurement of a link: the measurement, and whether a mean was replaced. -/
def takeDelay (jump : Int) (m : Int) (d : LinkDelay) : LinkDelay × Bool × Bool :=
  let near (a b : Int) : Bool := -jump ≤ a - b && a - b ≤ jump
  let keep (l : List Int) : LinkDelay := { d with last := l, rejected := [], mean := divEven (sumI l) (max 1 l.length) }
  if d.last = [] || near m d.mean then (keep ((m :: d.last).take 8), false, false)
  else
    let r := (m :: d.rejected).take 3
    if r.length = 3 && r.all (fun a => r.all (near a)) then (keep r, true, true)
    else ({ d with rejected := r }, true, false)

/-- PELOTON_DELAY_REQ: the neighbour's ASYM_UP is noted and DELAY_RESP answers (R311). -/
def pelDelayReq (port : LinePort) (rx : Nat) (f : List Byte) (s : State) : State :=
  let b := (payload f).drop 32
  if !fcsOk f || u8 b 0 ≠ 2 || s.pel.state = 0 || s.pel.state = 3 then s
  else
    let asym := signedOf 32 (be b 56 8)
    let s1 := modPel (fun p => if port = .up then { p with up := { p.up with peerAsym := asym } }
      else { p with down := { p.down with peerAsym := asym } }) s
    pelSend (port = .up) 3 (now s1) s1.pel.members.toNat 0 rx s1

/-- PELOTON_DELAY_RESP completes a measurement (R311). -/
def pelDelayResp (port : LinePort) (t1 t4 : Nat) (f : List Byte) (s : State) : State :=
  let b := (payload f).drop 32
  if !fcsOk f || u8 b 0 ≠ 3 || s.pel.state = 0 || s.pel.state = 3 then s
  else
    let t2 := be b 56 8
    let t3 := be b 8 8
    let m := divEven ((((t4 : Int) - t1) - ((t3 : Int) - t2)) * 1000) 2
    let (d, rej, jump) := takeDelay s.pel.delayJump m (if port = .up then s.pel.up else s.pel.down)
    let s1 := modPel (fun p => { (if port = .up then { p with up := d } else { p with down := d }) with
      measures := p.measures + 1, delayRejects := if rej then p.delayRejects + 1 else p.delayRejects }) s
    let s2 := if jump then driftFires 4 0x05 s1 else s1
    if s2.pel.state = 1 && !s2.pel.isRef && !s2.pel.tookTime && s2.pel.measures < 16 then delayReq (port = .up) s2 else s2

/-- D_in of a line port, in ps (R311). -/
def delayIn (s : State) (up : Bool) : Int :=
  if up then s.pel.up.mean + s.pel.asymUp else s.pel.down.mean - s.pel.down.peerAsym

/-! Alignment and adoption. -/

/-- What a SYNC frame carries. -/
def syncInfo (b : List Byte) : SyncInfo :=
  { refAddr := u8 b 1, hops := u8 b 2, refGen := BitVec.ofNat 16 (be b 4 2), refAge := be b 6 2
    refGm := bitOf (u8 b 3) 1, holdover := bitOf (u8 b 3) 2, plant := BitVec.ofNat 64 (be b 16 8)
    epoch := BitVec.ofNat 16 (be b 24 2) }

/-- The announcement that a SYNC frame carries (R316). -/
def annInfo (b : List Byte) : Announce :=
  { kind := u8 b 26, at' := be b 32 8, value := signedOf 64 (be b 40 8), epoch := be b 48 2, slewPpm := be b 50 2
    slewRamp := be b 52 2 }

/-- The device now follows the reference of a SYNC frame heard on a port (R314, R319). -/
def adopt (down : Bool) (x : SyncInfo) (s : State) : State :=
  let p := s.pel
  let differs := x.plant ≠ s.time.plant || x.epoch ≠ s.time.epoch
  let two := x.refGen = (if isRef s then p.refGen else p.sync'.refGen)
  let s1 := modPel (fun p => { p with
    isRef := false, sync := false, sync' := x, timingDown := down, refGen := x.refGen, refAge := x.refAge + 1
    goodRun := 0, badRun := 0, lastRefChange := s.time.long, adopting := none, holdover := false, follow := false
    pendingPlant := if differs then some (x.plant, x.epoch) else p.pendingPlant
    cause := p.cause ||| 2#8 ||| (if p.sync then 1#8 else 0#8) ||| (if two then 0x40#8 else 0#8)
    syncLosses := if pelSync s then p.syncLosses + 1 else p.syncLosses }) s
  let s2 := raise 41 (journal 0x0E 0x02 0 noObj 0 [BitVec.ofNat 8 x.refAddr] s1)
  if pelSync s then raise 40 (journal 0x0E 0x01 1 noObj 0 [] s2) else s2

/-- Whether a SYNC frame of another reference is adopted (R319): a newer generation, or an equal one of a lower
address. -/
def adopts (s : State) (x : SyncInfo) : Bool :=
  let d := (x.refGen - (if isRef s then s.pel.refGen else s.pel.sync'.refGen)).toInt
  0 < d || (d = 0 && x.refAddr < refAddr s)

/-- The follower takes peloton time once (R310). -/
def takeTime (tx rx : Nat) (down : Bool) (s : State) : State :=
  let ps := (tx : Int) * 1000 + delayIn s (!down) + ((now s : Int) - rx) * 1000
  { s with
    time := { s.time with long := BitVec.ofInt 64 (ps / 1000), frac := BitVec.ofNat 32 ((ps % 1000).toNat * 2 ^ 32 / 1000) }
    pel := { s.pel with tookTime := true }
    cad := { s.cad with started := false } }

/-- PELOTON_SYNC (R306, R310, R312, R313, R319): `rx` is the long time of the frame's SFD at the line port. -/
def pelotonSync (port : LinePort) (rx : Nat) (f : List Byte) (s : State) : State :=
  let h := payload f
  let b := h.drop 32
  let down : Bool := port = .down
  if !fcsOk f || u8 b 0 ≠ 1 then s
  else if s.pel.state = 0 || s.pel.state = 3 then modPel (fun p => { p with heardAt := now s + 1 }) s
  else
    let x := syncInfo b
    let s1 := headCheck (modPel (fun p => { p with
      heardAt := now s + 1
      syncedMembers := if bitOf (u8 b 3) 0 then p.syncedMembers ||| BitVec.twoPow 32 (u8 h 3)
        else p.syncedMembers &&& ~~~(BitVec.twoPow 32 (u8 h 3)) }) s)
    if s1.pel.state = 1 && !s1.pel.isRef && !s1.pel.tookTime then
      if s1.pel.addrKnown && 16 ≤ s1.pel.measures then
        let d := x.plant ≠ s1.time.plant || x.epoch ≠ s1.time.epoch
        takeTime (be b 8 8) rx down (modPel (fun p => { p with
          sync' := x, timingDown := down, refAge := x.refAge + 1, refGen := x.refGen, members := BitVec.ofNat 32 (be b 28 4)
          ann := annInfo b, pendingPlant := if d then some (x.plant, x.epoch) else none }) s1)
      else s1
    else if x.refAddr ≠ refAddr s1 || (isRef s1 && x.refGen ≠ s1.pel.refGen) then
      if !adopts s1 x then s1
      else if isRef s1 then modPel (fun p => { p with adopting := some (down, x) }) s1
      else adopt down x s1
    else if isRef s1 then s1
    else
      let s2 := if x.refGen ≠ s1.pel.sync'.refGen && adopts s1 x then adopt down x s1 else s1
      if down ≠ s2.pel.timingDown && s2.pel.sync'.hops ≤ x.hops then s2
      else
        let th := ((rx : Int) - be b 8 8) * 1000 - delayIn s2 (!down)
        modPel (fun p => { p with
          sync' := x, timingDown := down, syncSeen := true, theta := th, thetaNew := true, refGen := x.refGen
          members := BitVec.ofNat 32 (be b 28 4), ann := annInfo b }) s2

/-- The servo of R313 at a cadence start, with the sign that the rule writes. -/
def pelServo (s : State) : State :=
  if isRef s || !s.pel.thetaNew then s
  else
    let r := if s.time.slewRate < 0 then -s.time.slewRate else s.time.slewRate
    let q := s.pel.theta * 1000000000
    let i := s.pel.i + divEven q (s.cad.ns * 1024)
    let f := clampI (-(maxDev - r)) (maxDev - r) (i + divEven q (s.cad.ns * 16))
    let a := if s.pel.theta < 0 then -s.pel.theta else s.pel.theta
    { s with
      time := { s.time with freqCorr := f }
      pel := { s.pel with
        i := i, thetaNew := false
        goodRun := if a ≤ 1000 then s.pel.goodRun + 1 else 0
        badRun := if (s.pel.syncLostNs : Int) * 1000 < a then s.pel.badRun + 1 else 0 } }

/-- What the peloton does at a cadence start (R306, R310, R312, R313, R317, R319): adoption by a reference, a plant offset
adopted, REF_AGE, the servo, the frequency check and the SYNC frames. -/
def pelCadence (s : State) : State :=
  let s1 := match s.pel.adopting with
    | some (d, x) => adopt d x s
    | none => s
  let s2 := match s1.pel.pendingPlant with
    | some (v, e) => plantStep (v - s1.time.plant).toInt e (modPel (fun p => { p with pendingPlant := none }) s1)
    | none => s1
  let s3 := modPel (fun p => if isRef s2 then { p with refAge := 0, syncSeen := false }
    else { p with refAge := if p.syncSeen then p.sync'.refAge + 1 else p.refAge + 1, syncSeen := false }) s2
  let s4 := pelServo s3
  let a := if s4.time.freqCorr < 0 then -s4.time.freqCorr else s4.time.freqCorr
  let s5 := if s4.pel.state = 2 && !isRef s4 && (s4.pel.driftPpm : Int) * 100000 < a then driftFires 2 0x03 s4 else s4
  if sendsSync s5 && (isRef s5 || silent s5 < 4 * rankOf s5) then pelSyncFrames s5 else s5

/-- The drift checks of a round start (R317). The difference of the crystals is what die F measured: free. -/
def pelDrift (s : State) : State :=
  if s.pel.state ≠ 2 then s else
  let x := signedOf 32 ((freeNow s).toNat)
  let d := s.time.freqCorr - s.pel.fAtRound
  let s1 := if (s.pel.driftPpm : Int) * 6250 < (if d < 0 then -d else d) then driftFires 3 0x04 s else s
  let s2 := if (s.pel.xtalPpm : Int) * 1000 < (if x < 0 then -x else x) then driftFires 5 0x06 s1 else s1
  freeNext (modPel (fun p => { p with xtalDiff := x, fAtRound := s.time.freqCorr }) s2)

/-- The peloton's part of a round start (R309, R311, R317). -/
def pelRound (s : State) : State :=
  let s1 := pelRoundStart s
  let s2 := if sendsSync s1 then delayReq false (delayReq true s1) else s1
  pelDrift s2

/-- PEL_SYNC_SET: |θ| ≤ 1 ns has held for 64 cadences (R314); a follower's pel.start completes (R310). -/
def pelSyncSet (s : State) : State :=
  if isRef s || s.pel.sync || s.pel.goodRun < 64 || !sendsSync s then s
  else
    let s1 := modPel (fun p => { p with sync := true }) s
    if s1.pel.state = 1 then startDone 0 s1 else s1

/-- PEL_SYNC_LOST (R314). -/
def pelSyncLost (s : State) : State :=
  if isRef s || !s.pel.sync || (s.pel.badRun < 2 && silent s < 4) then s
  else raise 40 (journal 0x0E 0x01 1 noObj 0 [] (modPel (fun p => { p with
    sync := false, goodRun := 0, cause := p.cause ||| 1#8, syncLosses := p.syncLosses + 1 }) s))

/-- TIME_HOLDOVER and its record (R321). -/
def enterHoldover (s : State) : State := raise 43 (journal 0x0E 0x07 0 noObj 0 [] s)

/-- The device becomes the reference (R318, R320). -/
def becomeRef (s : State) : State :=
  raise 41 (journal 0x0E 0x02 0 noObj 0 [BitVec.ofNat 8 s.pel.addr] (modPel (fun p => { p with
    isRef := true, refGen := p.refGen + 1, refAge := 0, sync := true, lastRefChange := s.time.long
    cause := p.cause ||| 2#8, theta := 0, thetaNew := false }) s))

/-- PEL_TAKEOVER: SILENT has reached 4·k on the member of rank k (R318). -/
def pelTakeover (s : State) : State :=
  if s.pel.state ≠ 2 || isRef s || silent s < 4 * rankOf s then s
  else
    let gm := s.pel.sync'.refGm
    let s1 := becomeRef (modPel (fun p => { p with takeovers := p.takeovers + 1, holdover := gm, refGen := p.sync'.refGen }) s)
    pelSyncFrames (if gm then enterHoldover s1 else s1)

/-- The next correction that waited is announced (R316). -/
def nextAnnounce (s : State) : State :=
  match s.pel.queued with
  | (st, d) :: r => announce st d (annAt s 0) (modPel (fun p => { p with queued := r }) s)
  | [] => s

/-- ANNOUNCEMENT_APPLY (R316, R320): at ANN_AT, which is the present or the next cadence start. -/
def announcementApply (s : State) : State :=
  let a := s.pel.ann
  if a.kind = 0 || (s.cad.started && s.cad.start + s.cad.ns < a.at') then s
  else
    let s1 := modPel (fun p => { p with ann := {} }) (advanceTo a.at' s)
    let s2 :=
      if a.kind = 1 then addSlewWith a.value a.slewPpm a.slewRamp s1
      else if a.kind = 2 then plantStep a.value (BitVec.ofNat 16 a.epoch) s1
      else if a.value = s.pel.addr then becomeRef s1
      else if isRef s1 then adopt s1.pel.timingDown { s1.pel.sync' with
        refAddr := a.value.toNat, hops := 255, refGen := s1.pel.refGen + 1, refAge := 0, refGm := false, holdover := false
        plant := s1.time.plant, epoch := s1.time.epoch } s1
      else s1
    if isRef s2 then nextAnnounce s2 else s2

/-! Commands. -/

/-- Whether a port belongs to a configured segment (R278). -/
def portInSegment (s : State) (p : Nat) : Bool :=
  s.bus.any (fun e => e.2.configured && (e.2.portA = p || e.2.portB = p))

/-- pel.configure (R303). -/
def pelConfigureSpec : CmdSpec where
  opcode := 0x0401
  lenOk n _ := n = 32
  stateOf := pelState
  body c s :=
    let p := c.p
    let up := u8 p 0
    let dn := u8 p 1
    { bad := [(1 < u8 p 2 || 4 < u8 p 16 || 4 < u8 p 17 || !zeroAt p 18 14 || (up = dn && up ≠ 0xFF), .badArg),
              ((15 < up && up ≠ 0xFF) || (15 < dn && dn ≠ 0xFF) || 32 < u8 p 3 || i32 p 4 < -100000 || 100000 < i32 p 4
                || u16 p 8 < 10 || 10000 < u16 p 8 || u16 p 10 = 0 || 2500 < u16 p 10 || u16 p 12 < 100 || u16 p 14 = 0
                || 500 < u16 p 14, .outOfRange),
              (s.pel.state ≠ 0 || portInSegment s up || portInSegment s dn, .stateConflict)]
      act := fun t => { s := modPel (fun q => { q with
        configured := true, upPort := up, downPort := dn, strap := u8 p 2 = 1, expect := u8 p 3, asymUp := i32 p 4
        syncLostNs := u16 p 8, driftPpm := u16 p 10, delayJump := u16 p 12, xtalPpm := u16 p 14, upMode := u8 p 16
        downMode := u8 p 17 }) t } }

/-- Whether SYNC frames of a reference reach the device (R320): one came within the last 4 cadences. -/
def hearsRef (s : State) : Bool := s.pel.heardAt ≠ 0 && now s < s.pel.heardAt + 4 * s.cad.ns

/-- Whether pel.start joins as a follower (R310, R320). -/
def joinsAsFollower (s : State) : Bool := s.pel.upPort ≠ 0xFF || hearsRef s

/-- pel.start (R308 to R310, R320). -/
def pelStartSpec : CmdSpec where
  opcode := 0x0402
  stateOf := pelState
  body c s :=
    let fol := joinsAsFollower s
    let up := s.pel.upPort ≠ 0xFF
    { bad := [(!s.pel.configured, .notConfigured),
              (s.pel.state ≠ 0 || (fol && s.bus.any (fun e => e.2.state ≠ 0)), .stateConflict)]
      act := fun t =>
        let t1 := modPel (fun p => { p with
          state := 1, isRef := !fol, started := some (c.mb, c.slot), startAt := now t, enumCount := none, enumSame := false
          tookTime := false, measures := 0, addr := 0, addrKnown := !fol, sync := !fol, syncSeen := false, refAge := 0
          refGen := 0, members := if fol then 0 else 1, syncedMembers := 0, up := {}, down := {}, goodRun := 0, badRun := 0
          i := 0, theta := 0, thetaNew := false, timingDown := !up, sync' := {}, adopting := none, ann := {}, queued := []
          fAtRound := t.time.freqCorr }) t
        { s := if !fol && s.pel.strap && s.dev.stnaddr ≠ 0 then startDone 4 t1
               else if fol then delayReq (!t1.pel.timingDown) t1 else t1
          later := true } }

/-- pel.stop (R320). -/
def pelStopSpec : CmdSpec where
  opcode := 0x0403
  stateOf := pelState
  kind _ _ _ := .cadence
  body c s := { bad := [(s.pel.state = 0, .stateConflict)], act := later c }

/-- What pel.stop does at its cadence start: OFF and time mode FREE; a pel.start that runs is cancelled. -/
def pelStopEff (s : State) : State :=
  let s1 := match s.pel.started with
    | some (m, k) => complete m k .cancelled (now s) 0 (startResult s 0) s
    | none => s
  modPel (fun p => { p with
    state := 0, isRef := false, started := none, ann := {}, queued := [], follow := false, holdover := false, members := 0
    addr := 0, sync := false, adopting := none, pendingPlant := none, theta := 0, thetaNew := false }) s1

/-- pel.handover (section "Handover"). -/
def pelHandoverSpec : CmdSpec where
  opcode := 0x0404
  lenOk n _ := n = 4
  stateOf := pelState
  kind h _ s := .at (startFrom s s.cad.round (max (now s + 40 * s.cad.ns) h.reqTime))
  body c s :=
    let a := u8 c.p 0
    { bad := [(!(a < 32 && s.pel.members.getLsbD a && (a = s.pel.addr || s.pel.syncedMembers.getLsbD a)), .notConfigured),
              (!zeroAt c.p 1 3, .badArg),
              (s.pel.state ≠ 2 || !s.pel.isRef || s.pel.ann.kind ≠ 0, .stateConflict)]
      act := fun t => { s := modPel (fun p => { p with ann := { kind := 3, at' := c.promise, value := a } }) t } }

/-- pel.follow_gm (R321). -/
def pelFollowGmSpec : CmdSpec where
  opcode := 0x0405
  lenOk n _ := n = 16
  stateOf := pelState
  body c s :=
    let p := c.p
    let en := u8 p 0 = 1
    { bad := [(1 < u8 p 0 || !zeroAt p 8 8, .badArg),
              (3 < u8 p 1 || u16 p 2 = 0 || 250 < u16 p 2 || !f32In (u32 p 4) one (1000 * one), .outOfRange),
              (!isRef s || (en && (ptpOf s (u8 p 1)).role ≠ 2), .stateConflict)]
      act := fun t =>
        let was := timeMode 0 t
        let t1 := modPel (fun q => { q with
          follow := en, followPort := u8 p 1, freqMax := u16 p 2, gmTau := BitVec.ofNat 32 (u32 p 4), intervals := 0
          gmOffset := 0, slewInInterval := 0, target := t.time.freqCorr, holdover := false }) t
        { s := if timeMode 0 t1 = 4 && was ≠ 4 then enterHoldover t1 else t1 } }

/-- FINE_PATH: the device knows its own timing link; what lies beyond the neighbour is free. -/
def finePath (s : State) : Bool :=
  isRef s || (fineMode (if s.pel.timingDown then s.pel.downMode else s.pel.upMode)
    && (s.pel.sync'.hops = 0 || (freeNow s).getLsbD 0))

/-- pel.status. -/
def pelStatusSpec : CmdSpec where
  opcode := 0x0406
  stateOf := pelState
  inFault _ := true
  body _ s :=
    let p := s.pel
    { act := fun t => { s := freeNext (modPel (fun q => { q with cause := 0 }) t), res := fields [(1, p.state), (1, p.addr),
        (1, refAddr s), (1, ownHops s),
        (1, flagAt (pelSync s) 0 + flagAt (isRef s) 1 + flagAt (p.upPort ≠ 0xFF && p.upLink) 2
          + flagAt (p.downPort ≠ 0xFF && p.downLink) 3 + flagAt (finePath s) 4 + flagAt p.timingDown 5),
        (1, p.cause.toNat), (2, p.refGen.toNat), (4, p.members.toNat), (4, if isRef s then 0 else sn 4 p.theta),
        (4, sn 4 p.up.mean), (4, sn 4 p.down.mean), (2, silent s), (2, p.syncLosses.toNat), (2, p.takeovers.toNat),
        (2, p.driftEvents.toNat), (4, sn 4 p.xtalDiff), (4, p.delayRejects.toNat), (8, p.lastRefChange.toNat),
        (8, if p.follow then sn 8 (divEven p.gmOffset 65536) else 0), (8, if p.ann.kind = 0 then 0 else p.ann.at')] } }

/-! The meanings of the rows. -/

/-- PEL_CONFIGURE (R303). -/
def execPelConfigure (c : CmdRef) (s : State) : Host.Outcome State Fault Refusal := .next (runCmd pelConfigureSpec c s)
/-- PEL_START (R309). -/
def execPelStart (c : CmdRef) (s : State) : Host.Outcome State Fault Refusal := .next (runCmd pelStartSpec c s)
/-- PEL_STOP (R320). -/
def execPelStop (c : CmdRef) (s : State) : Host.Outcome State Fault Refusal := .next (runCmd pelStopSpec c s)
/-- PEL_HANDOVER (R320). -/
def execPelHandover (c : CmdRef) (s : State) : Host.Outcome State Fault Refusal := .next (runCmd pelHandoverSpec c s)
/-- PEL_FOLLOW_GM (R321). -/
def execPelFollowGm (c : CmdRef) (s : State) : Host.Outcome State Fault Refusal := .next (runCmd pelFollowGmSpec c s)
/-- PEL_STATUS (R317). -/
def execPelStatus (c : CmdRef) (s : State) : Host.Outcome State Fault Refusal := .next (runCmd pelStatusSpec c s)
/-- PELOTON_SYNC (R313). -/
def execPelotonSync (port : LinePort) (rx : BitVec 64) (f : List Byte) (s : State) : Host.Outcome State Fault Refusal :=
  .next (pelotonSync port rx.toNat f s)
/-- PELOTON_DELAY_REQ (R311). -/
def execPelotonDelayReq (port : LinePort) (rx : BitVec 64) (f : List Byte) (s : State) : Host.Outcome State Fault Refusal :=
  .next (pelDelayReq port rx.toNat f s)
/-- PELOTON_DELAY_RESP (R311). -/
def execPelotonDelayResp (port : LinePort) (t1 t4 : BitVec 64) (f : List Byte) (s : State) :
    Host.Outcome State Fault Refusal := .next (pelDelayResp port t1.toNat t4.toNat f s)
/-- PELOTON_ENUM (R307). -/
def execPelotonEnum (port : LinePort) (f : List Byte) (s : State) : Host.Outcome State Fault Refusal := .next (pelEnum port f s)
/-- PELOTON_CONFIG (R309). -/
def execPelotonConfig (_ : LinePort) (f : List Byte) (s : State) : Host.Outcome State Fault Refusal := .next (pelConfig f s)
/-- PEL_START_TIMEOUT (R309). -/
def execPelStartTimeout (s : State) : Host.Outcome State Fault Refusal := .next (pelStartTimeout s)
/-- PEL_SYNC_SET (R314). -/
def execPelSyncSet (s : State) : Host.Outcome State Fault Refusal := .next (pelSyncSet s)
/-- PEL_SYNC_LOST (R314). -/
def execPelSyncLost (s : State) : Host.Outcome State Fault Refusal := .next (pelSyncLost s)
/-- PEL_TAKEOVER (R318). -/
def execPelTakeover (s : State) : Host.Outcome State Fault Refusal := .next (pelTakeover s)
/-- ANNOUNCEMENT_APPLY (R316). -/
def execAnnouncementApply (s : State) : Host.Outcome State Fault Refusal := .next (announcementApply s)

end Sys2Proof.Machine
end

