-- ==== Sys2Proof/Machine/Xlink.lean ====
section
/-!
DEFINITION. Flits of the crosslink (R15): their CRC, the two directions, and sending with the sequence count and the replay buffer.
-/
namespace Sys2Proof.Machine

/-- The CRC of a flit (table "Crosslink flit layout"): over the 12-bit sequence number and bytes 0 to 29. -/
def flitCrc (seq : BitVec 12) (body : List Byte) : BitVec 16 :=
  crc16From (crc16Bits 12 (0xFFFF#16 ^^^ (seq.setWidth 16).shiftLeft 4)) body

/-- Whether a flit passes its CRC under the expected sequence number; the CRC is stored little-endian as other host-side fields. -/
def flitOk (seq : BitVec 12) (f : List Byte) : Bool :=
  f.length = 32 && (flitCrc seq (f.take 30)).toNat = un f 30 2

/-- The direction towards a die. -/
def dirTo (d : Die) (s : State) : XDir := match d with
  | .f => s.xl.toF
  | .m => s.xl.toM

/-- Replace a direction. -/
def setDir (d : Die) (x : XDir) (s : State) : State := match d with
  | .f => { s with xl := { s.xl with toF := x } }
  | .m => { s with xl := { s.xl with toM := x } }

/-- The other die. -/
def otherDie : Die → Die
  | .m => .f
  | .f => .m

/-- A die as the unit of what it sends. -/
def dieUnit : Die → Nat
  | .m => 0
  | .f => 1

/-- Send one flit of a class towards die `d`: it takes the next sequence number of the direction, and the last 64 flits stay for a
replay (R15). -/
def xsendFlit (d : Die) (cls : Nat) (data : List Byte) (s : State) : State :=
  let x := dirTo d s
  let body := BitVec.ofNat 8 cls :: fit 29 data
  let f := body ++ leBytes 2 (flitCrc x.txSeq body).toNat
  let kept := (x.replay ++ [(f, 0)]).drop (x.replay.length + 1 - 64)
  emit .xlink (dieUnit (otherDie d)) f (setDir d { x with txSeq := x.txSeq + 1, replay := kept } s)

/-- The 29-byte pieces of a message of at most `29 · n` bytes. -/
def flitPieces : Nat → List Byte → List (List Byte)
  | 0, _ => []
  | n + 1, b => if b = [] then [] else b.take 29 :: flitPieces n (b.drop 29)

/-- Send a message of a class towards die `d`, in as many flits as it needs; nothing leaves while the crosslink is down. -/
def xsend (d : Die) (cls : Nat) (data : List Byte) (s : State) : State :=
  if !s.xl.up || s.xl.stopped then s
  else (flitPieces data.length data).foldl (fun t b => xsendFlit d cls b t) s

/-- The flits of a direction that its receiver has not acknowledged, when everything before a sequence number is. -/
def unacked (x : XDir) (seq : BitVec 12) : List (List Byte × Nat) := x.replay.drop (x.replay.length - (x.txSeq - seq).toNat)

/-- The receiver of a direction has acknowledged every flit before a sequence number: they leave the replay buffer (R15, R18). -/
def xacked (d : Die) (upTo : BitVec 12) (s : State) : State :=
  let x := dirTo d s
  setDir d { x with replay := unacked x upTo } s

/-- Replay the flits from a sequence number on (go-back-N, R15): the receiver has every earlier one, and each counts one replay more. -/
def xreplay (d : Die) (seq : BitVec 12) (s : State) : State :=
  let x := dirTo d s
  let l := unacked x seq
  l.foldl (fun t e => emit .xlink (dieUnit (otherDie d)) e.1 t) (setDir d { x with replay := l.map (fun e => (e.1, e.2 + 1)) } s)

/-- Whether a flit of a direction has been replayed 16 times without being acknowledged (R18). -/
def replayedOut (d : Die) (s : State) : Bool := (dirTo d s).replay.any (fun e => 16 ≤ e.2)

end Sys2Proof.Machine
end

