-- ==== Sys2Proof/Machine/Bus.lean ====
section
/-!
DEFINITION. The Virza bus: control words and setpoints (R283, R284), the round matrix (R286 to R288), acyclic traffic
(R289, R290), segment start (R292, R295, R296), collisions (R297), rings (R298), records and the freewheel interval
(R299, R300), and the bus commands but bus.set_timing and bus.configure_segment.
-/
namespace Sys2Proof.Machine

/-- STATE of the bus commands. -/
def segState (o : Nat) (s : State) : Nat := (segOf s o).state

/-- Latched causes of VZSEG_k and its event. -/
def vzEvent (k bit : Nat) (s : State) : State :=
  raise (32 + k) (setSeg k { segOf s k with cause := (segOf s k).cause ||| BitVec.twoPow 8 bit } s)

/-- A segment changes state: cause 0 of VZSEG_k. -/
def segTo (k st : Nat) (s : State) : State :=
  if (segOf s k).state = st then s else vzEvent k 0 (setSeg k { segOf s k with state := st } s)

/-- The segment to which a port belongs. -/
def portSeg (s : State) (p : Nat) : Option Nat :=
  (List.range 8).find? (fun k => (segOf s k).configured && ((segOf s k).portA = p || (segOf s k).portB = p))

/-- Whether a segment is a ring. -/
def Segment.ring (g : Segment) : Bool := g.portB ≠ 0xFF

/-- APPLY_NS in force (R295). -/
def segApply (s : State) (k : Nat) : Nat :=
  if (segOf s k).applyCfg = 0 then s.cad.ns / 10 else (segOf s k).applyCfg

/-- Axes mapped to segment `k`, lowest first. -/
def segAxes (s : State) (k : Nat) : List Nat := (tkeys s.axes).filter (fun a => (axisOf s a).map.segment = k)

/-- The columns of a bank. -/
def Segment.bankOf (g : Segment) (b : Nat) : List Column := if b = 0 then g.bank0 else g.bank1

/-- The row of the present cadence: rounds begin at whole multiples of their length (R304). -/
def rowNow (s : State) : Nat := s.cad.start / s.cad.ns % s.cad.round

/-! Process entries (R281): the bytes that sig.map lays out for a station. -/

/-- The size of a signal's value in bytes (table "Signal entry"). -/
def sigBytes (type : Nat) : Nat := if type = 1 then 1 else if type ≤ 3 || type = 6 then 4 else 8

/-- The data length of the PROCESS entry of a station in one direction. -/
def procLen (s : State) (k st : Nat) (sent : Bool) : Nat :=
  (s.sig.map.filter (fun e => e.2.segment = k && e.2.station = st && e.2.sent = sent && 2 ≤ e.2.source)).foldl
    (fun n e => max n (e.2.offset + sigBytes e.2.type)) 0

/-- The stations of a segment that have a sent PROCESS entry. -/
def procStations (s : State) (k : Nat) (sent : Bool) : List Nat :=
  (List.range 255).filter (fun st => st ≠ 0 && procLen s k st sent ≠ 0)

/-- Put the bits of one signal into an entry's data, in network byte order. -/
def putSignal (s : State) (d : List Byte) (n : Nat) (m : SigMap) : List Byte :=
  let v := (tget {} s.sig.image n).value
  if m.type = 1 then
    lset d m.offset (lget 0 d m.offset ||| BitVec.ofNat 8 (v % 2 * 2 ^ m.bit))
  else d.take m.offset ++ beBytes (sigBytes m.type) v ++ d.drop (m.offset + sigBytes m.type)

/-- The data of a sent PROCESS entry. -/
def procData (s : State) (k st : Nat) : List Byte :=
  (s.sig.map.filter (fun e => e.2.segment = k && e.2.station = st && e.2.sent)).foldl
    (fun d e => putSignal s d e.1 e.2) (List.replicate (procLen s k st true) 0)

/-- The entry bytes that a station's enabled sensors add to its frame: one record of each kind (R220, R287). -/
def sensorLen (s : State) (k st : Nat) : Nat :=
  (s.ssm.sens.filter (fun e => u8 e.2.cfg 0 = 1 && u8 e.2.cfg 1 = k && u8 e.2.cfg 2 = st)).foldl
    (fun n e => n + 1022 + 34 + (if bitOf (u8 e.2.cfg 3) 0 then 34 else 0)) 0

/-! Setpoints. -/

/-- Whether an axis sends its category 1 stop's ENABLE_OP = 0 (R66, R283). -/
def stopReleased (x : AxisSt) : Bool := x.disable.isSome

/-- The control word (R283). BRAKE_RELEASE is the drive's own from ENABLED on; the device sends what it last saw. -/
def controlWord (x : AxisSt) : Nat :=
  let st := x.state
  let en := match st with
    | .disabled => x.enable.isSome
    | .held => true
    | .closed => true
    | .stopping => !stopReleased x
    | .fault => x.faultEnable
  let trq := (st = .closed || st = .stopping) && !stopReleased x
  let en' := en && !x.sto
  flagAt en' 0 + flagAt x.frPulse 1 + flagAt x.sto 2 + flagAt (trq && !x.sto) 3 + flagAt (x.map.last.status % 2 = 1) 4

/-- An entry (R281). -/
def entryBytes (st chan kind flags : Nat) (data : List Byte) : List Byte :=
  beFields [(1, st), (1, chan), (1, kind), (1, flags), (2, data.length)] ++ data

/-- The safety trailer of an entry (R284). -/
def safetyTrailer (id st chan kind cnt : Nat) (data : List Byte) : List Byte :=
  let crc := crc32c (beFields [(4, id), (1, st), (1, chan), (1, kind)] ++ data ++ beBytes 2 cnt)
  beBytes 2 cnt ++ beBytes 4 crc.toNat

/-- The setpoint record of axis `a` (table "Setpoint record"). -/
def setpointData (x : AxisSt) : List Byte :=
  beFields [(8, sn 8 (toQ x.cmdP - x.oh)), (4, sn 4 x.loop.vff), (4, sn 4 x.loop.tout), (2, controlWord x)]

/-- The setpoint entry of axis `a`; S_CNT counts every safety record (R284). -/
def setpointEntry (x : AxisSt) : List Byte :=
  let m := x.map
  let d := setpointData x
  entryBytes m.station m.chan 1 (b2n m.safetySp) d ++
    (if m.safetySp then safetyTrailer m.safetyId m.station m.chan 1 m.spCnt d else [])

/-! The matrix check (R287). -/

/-- The payload of the CADENCE frame with every setpoint and process entry of a segment. -/
def cadencePayload (s : State) (k : Nat) : Nat :=
  64 + (segAxes s k).foldl (fun n a => n + (if (axisOf s a).map.safetySp then 30 else 24)) 0
    + (procStations s k true).foldl (fun n st => n + 6 + procLen s k st true) 0

/-- The payload of the largest STATION frame of a station. -/
def stationPayload (s : State) (k st : Nat) : Nat :=
  32 + ((segAxes s k).filter (fun a => (axisOf s a).map.station = st)).foldl
      (fun n a => n + (if (axisOf s a).map.safetyFb then 34 else 28)) 0
    + (if procLen s k st false = 0 then 0 else 6 + procLen s k st false) + sensorLen s k st

/-- The largest delay of a segment's stations, in ns (R295). -/
def delayMax (g : Segment) : Nat :=
  g.stations.foldl (fun n e => match e.2 with
    | some x => max n (if g.ring then max x.delayA x.delayB else x.delayA)
    | none => n) 0

/-- APPLY_MIN in ns, rounded up (R295). -/
def applyMin (s : State) (k : Nat) : Nat :=
  (wire10 (segOf s k).portMode (cadencePayload s k) + 9) / 10 + delayMax (segOf s k) + 500

/-- Whether column `c` breaks rule `r` of R287. -/
def ruleBroken (s : State) (k : Nat) (cols : List Column) (i : Nat) (c : Column) (r : Nat) : Bool :=
  let g := segOf s k
  let wire (p : Nat) : Nat := wire10 g.portMode p
  let rowsAll := 2 ^ s.cad.round - 1
  let down := c.kind = 1 || c.kind = 3
  let up := c.kind = 2 || c.kind = 3
  if c.kind = 0 then r = 1 && i = 0
  else match r with
    | 1 => i = 0 && (c.kind ≠ 1 || c.start ≠ 0 || c.rows ≠ 2 ^ 64 - 1 || c.length * 10 < wire (cadencePayload s k))
    | 2 => c.kind = 2 && c.start < 1000
    | 3 => (List.range cols.length).any (fun j =>
        let d := lget {} cols j
        j ≠ i && d.kind ≠ 0 && Nat.land (Nat.land c.rows d.rows) rowsAll ≠ 0
          && ((down && (d.kind = 1 || d.kind = 3)) || (up && (d.kind = 2 || d.kind = 3)))
          && c.start < d.start + d.length + 2 * g.guardNs && d.start < c.start + c.length + 2 * g.guardNs)
    | 4 =>
      if c.kind = 1 then i ≠ 0 && c.length * 10 < wire 32
      else if c.kind = 2 then c.length * 10 < wire (stationPayload s k c.owner)
      else c.length * 10 < c.arbNs * 10 + wire 1062
        || c.arbNs * 10 < 20 * delayMax g + wire 46 + 20 * g.guardNs
    | 5 => c.kind = 2 && (segAxes s k).any (fun a => (axisOf s a).map.station = c.owner)
        && (Nat.land c.rows rowsAll ≠ rowsAll || s.cad.ns * 4 / 10 < c.start + c.length + g.guardNs)
    | _ => s.cad.ns < c.start + c.length + g.guardNs

/-- The first failure of R287: the column and the rule, lowest rule first. -/
def matrixCheck (s : State) (k : Nat) (cols : List Column) : Option (Nat × Nat) :=
  let cs := if cols = [] then [({} : Column)] else cols
  ([1, 2, 3, 4, 5, 6].flatMap (fun r => (List.range cs.length).map (fun i => (i, r)))).find?
    (fun e => ruleBroken s k cs e.1 (lget {} cs e.1) e.2)

/-! Frames that the master sends. -/

/-- A frame of the master leaves on a port. -/
def masterSend (k port type entries time : Nat) (body : List Byte) (s : State) : State :=
  let g := segOf s k
  let h := virzaHdr type k 0 (rowNow s) g.bank entries s.cad.count.toNat (flagAt g.split 0) time Config.uid.toNat
  count (112 + port) 0x0808 (emit .virza port (etherFrame (segMac k) (portMac port) g.etherType (h ++ body)) s)

/-- A downstream frame: out of port A, and on a split ring out of both ports (R298). -/
def masterDown (k type entries time : Nat) (body : List Byte) (s : State) : State :=
  let g := segOf s k
  let s1 := if g.linkA then masterSend k g.portA type entries time body s else s
  if g.split && g.linkB then masterSend k g.portB type entries time body s1 else s1

/-- The CADENCE frame: the SILENCE bitmap, then the entries of a segment in RUN (R286, R294). -/
def cadenceFrame (k : Nat) (s : State) : State :=
  let g := segOf s k
  let axs := if g.state = 3 then segAxes s k else []
  let sts := if g.state = 3 then procStations s k true else []
  let ents := axs.map (fun a => setpointEntry (axisOf s a)) ++ sts.map (fun st => entryBytes st 0 0x10 0 (procData s k st))
  let s1 := masterDown k 1 ents.length s.cad.start (beBytes 32 g.silence.toNat ++ ents.flatten) s
  forNat axs (fun a t => modAxis a (fun x => if x.map.safetySp then { x with map := { x.map with
    spCnt := (x.map.spCnt + 1) % 65536 } } else x) t) s1

/-- Column 0 of a configured segment (R286). -/
def columnZero (mode : Nat) : Column :=
  { kind := 1, length := (wire10 mode 1500 + 9) / 10, rows := 2 ^ 64 - 1 }

/-! Acyclic requests (R289). -/

/-- The tenths of a nanosecond that DOWN windows of the present row offer, one by one. -/
def downWindows (g : Segment) (row : Nat) : List Nat :=
  ((g.bankOf g.bank).drop 1).filterMap (fun c => if c.kind = 1 && bitOf c.rows row then some (c.length * 10) else none)

/-- Whether an EXCL_DOWN window of the bank in force can hold a request. -/
def windowHolds (g : Segment) (len : Nat) : Bool :=
  ((g.bankOf g.bank).drop 1).any (fun c => c.kind = 1 && wire10 g.portMode (38 + len) ≤ c.length * 10)

/-- What a window of `w` tenths of a nanosecond holds of the waiting requests, oldest first: the payload so far, the entries, and the
requests with those marked that leave at `t`. -/
def packAcyclic (mode w t : Nat) (l : List Acyclic) : Nat × List (List Byte) × List Acyclic :=
  l.foldl (fun e a =>
    let n := e.1 + 6 + a.bytes.length
    if !a.sent && wire10 mode n ≤ w then
      (n, e.2.1 ++ [entryBytes a.station 0 0x30 0 a.bytes], e.2.2 ++ [{ a with sent := true, sentAt := t }])
    else (e.1, e.2.1, e.2.2 ++ [a])) (32, [], [])

/-- Send the requests that the windows of this row hold, oldest first (R289). -/
def sendAcyclic (k : Nat) (s : State) : State :=
  let g := segOf s k
  (downWindows g (rowNow s)).foldl (fun t w =>
    let h := segOf t k
    let e := packAcyclic h.portMode w (now t) h.acyclic
    if e.2.1 = [] then t
    else masterDown k 3 e.2.1.length 0 e.2.1.flatten (setSeg k { h with acyclic := e.2.2 } t)) s

/-! Start of a segment. -/

/-- The result of bus.start. -/
def busResult (s : State) (k reason col rule : Nat) : List Byte :=
  fields [(1, reason), (1, (segOf s k).count), (1, col), (1, rule), (4, applyMin s k), (4, delayMax (segOf s k)), (4, 0)]

/-- A start ends: its command completes, and a failed start leaves the segment as it is (R52). -/
def startEnd (k reason col rule : Nat) (st : Status) (s : State) : State :=
  match (segOf s k).start with
  | none => s
  | some o => complete o.mb o.slot st (now s) (segOf s k).state (busResult s k reason col rule)
      (setSeg k { segOf s k with start := none, runPending := reason = 0 } s)

/-- A start fails (R296, R297). -/
def startFail (k reason col rule : Nat) (s : State) : State := startEnd k reason col rule .stateConflict s

/-- Replace the start under way of a segment. -/
def setStart (k : Nat) (o : StartOp) (s : State) : State := setSeg k { segOf s k with start := some o } s

/-- One cadence of a start (table "Segment start"). -/
def startCadence (k : Nat) (s : State) : State :=
  match (segOf s k).start with
  | none => s
  | some o =>
    let g := segOf s k
    if g.state ≠ 2 then s else
    let n := o.cads + 1
    let s1 := setStart k { o with cads := n } s
    if o.phase = 0 then masterDown k 5 0 0 [0, 0] (setStart k { o with phase := 1, cads := 0 } s)
    else if n = 64 && o.phase = 1 then startFail k 2 0xFF 0 s
    else if n = 64 && o.phase = 2 then masterDown k 6 0 0 [] (setStart k { o with phase := 3, cads := n } s)
    else if n = 66 && o.phase = 3 then startFail k 2 0xFF 0 s
    else if n < 66 + 4 * g.count || o.phase ≠ 4 then s1
    else if segApply s k < applyMin s k then startFail k 6 0xFF 0 s
    else match matrixCheck s k g.bank0 with
      | some (c, r) => startFail k 7 c r s
      | none => startEnd k 0 0xFF 0 .ok s

/-- A master starts again from step 1. -/
def startAgain (k : Nat) (s : State) : State :=
  setStart k { ((segOf s k).start.getD {}) with phase := 0, cads := 0 } (segTo k 2 s)

/-- ENUM_RETURN: the count and the identities of the stations (steps 2 and 4, R296). -/
def enumReturn (k : Nat) (l : List StationId) (s : State) : State :=
  let g := segOf s k
  match g.start with
  | none => s
  | some o =>
    if o.phase ≠ 1 || g.state ≠ 2 then s else
    let byAlias := g.addrMode = 1
    let al := l.map (·.aliasAddr.toNat)
    let st : Tab (Option Station) := (List.range l.length).foldl (fun t i =>
      let x := lget {} l i
      tset none t (if byAlias then x.aliasAddr.toNat else i + 1)
        (some { position := i + 1, aliasAddr := x.aliasAddr.toNat, linksOk := x.linksOk })) []
    let s1 := setSeg k { g with count := l.length, stations := st, enumerated := true } s
    if l = [] then startFail k 2 0xFF 0 s1
    else if 254 < l.length || (g.expect ≠ 0 && g.expect ≠ l.length) then startFail k 5 0xFF 0 s1
    else if byAlias && al.any (fun a => a = 0 || a = 255) then startFail k 4 0xFF 0 s1
    else if byAlias && al.eraseDups.length ≠ al.length then startFail k 3 0xFF 0 s1
    else setStart k { o with phase := 2 } s1

/-- DELAY_RETURN: D_s of every station by position, and on a ring D_s,A and D_s,B (R292). -/
def delayReturn (k : Nat) (d : List (BitVec 32 × BitVec 32)) (s : State) : State :=
  let g := segOf s k
  match g.start with
  | none => s
  | some o =>
    if o.phase ≠ 3 || g.state ≠ 2 || d.length ≠ g.count then s else
    let st := g.stations.map (fun e => (e.1, e.2.map (fun x =>
      let v := lget (0, 0) d (x.position - 1)
      { x with delayA := v.1.toNat, delayB := v.2.toNat })))
    setSeg k { g with stations := st, start := some { o with phase := 4 } } s

/-! Collisions and rings. -/

/-- MASTER_COLLISION: a CADENCE frame of another master (R297). -/
def masterCollision (k : Nat) (other : BitVec 64) (s : State) : State :=
  let g := segOf s k
  if g.state = 0 || g.state = 5 || other = Config.uid then s
  else if g.state = 1 then setSeg k { g with heard := true, otherUid := other } s
  else if g.state = 4 then setSeg k { g with otherUid := other } s
  else
    let second := match g.lastCollision with
      | some t => now s ≤ 1000000000 + t
      | none => false
    let g1 := { g with collisions := g.collisions + 1, lastCollision := some (now s), heard := false, otherUid := other,
                       runPending := false, waitUntil := now s + (3 + s.pel.addr) * s.cad.ns }
    let s1 := vzEvent k 3 (journal 0x0D 0x03 0 k 0 (leBytes 8 other.toNat) (setSeg k g1 s))
    if second && other < Config.uid then
      startFail k 1 0xFF 0 (journal 0x0D 0x05 2 k 0 (leBytes 8 other.toNat) (segTo k 4 s1))
    else segTo k 1 s1

/-- COLLISION_WAIT_END (R297). -/
def collisionWaitEnd (k : Nat) (s : State) : State :=
  let g := segOf s k
  if g.state ≠ 1 then s
  else
    let s1 := advanceTo g.waitUntil s
    if g.heard then startFail k 1 0xFF 0 (journal 0x0D 0x05 2 k 0 (leBytes 8 g.otherUid.toNat) (segTo k 4 s1))
    else startAgain k s1

/-- Whether a ring can still change over. -/
def canSplit (g : Segment) : Bool := g.ring && !g.split && (g.state = 2 || g.state = 3)

/-- A ring has lost its CADENCE frame or a link: it changes over at the next cadence start (R298). -/
def ringBroken (k : Nat) (s : State) : State :=
  let g := segOf s k
  if canSplit g then setSeg k { g with splitDue := true } s else s

/-- The changeover of a ring at a cadence start (R298). -/
def ringSplit (k : Nat) (s : State) : State :=
  let g := segOf s k
  if !g.splitDue then s
  else if !canSplit g then setSeg k { g with splitDue := false } s
  else vzEvent k 2 (journal 0x0D 0x02 1 k 0 [] (setSeg k { g with split := true, splitDue := false, ringChanges := g.ringChanges + 1 } s))

/-- VZ_LINK_DOWN of a port of a segment, or of a line port of the peloton (R298, R308). -/
def vzLinkDown (p : Nat) (s : State) : State :=
  let s1 := match portSeg s p with
    | none => s
    | some k =>
      let g := segOf s k
      let u := setSeg k { g with linkA := g.linkA && g.portA ≠ p, linkB := g.linkB && g.portB ≠ p } s
      if g.ring then ringBroken k u
      else if g.state = 0 || g.state = 5 then u
      else startFail k 8 0xFF 0 (segTo k 5 (journal 0x0D 0x04 2 k 0 [] u))
  let mine := s1.pel.upPort = p || s1.pel.downPort = p
  let s2 := modPel (fun q => { q with upLink := q.upLink && q.upPort ≠ p, downLink := q.downLink && q.downPort ≠ p }) s1
  if mine && s2.pel.state = 1 then startDone 10 s2 else s2

/-! Frames from stations. -/

/-- A foreign frame (R280, R288). -/
def foreignFrame (port : Nat) (s : State) : State :=
  let s1 := count (112 + port) 0x0806 s
  match portSeg s port with
  | none => s1
  | some k => setSeg k { segOf s1 k with foreignFrames := (segOf s1 k).foreignFrames + 1 } s1

/-- A window violation of station `st` (R288, R294). -/
def violation (k port st : Nat) (s : State) : State :=
  let g := segOf s k
  let s1 := count (112 + port) 0x0802 s
  match tget none g.stations st with
  | none => s1
  | some x =>
    let c := s.cad.count.toNat
    let x1 := if x.vioSeen && x.vioCad = c then x
      else { x with vioSeen := true, vioCad := c, vioRun := if x.vioSeen && x.vioCad + 1 = c then x.vioRun + 1 else 1 }
    setSeg k { g with windowViolations := g.windowViolations + 1, stations := tset none g.stations st (some x1) } s1

/-- STATION_SILENCED: 3 violations in consecutive cadences (R294). -/
def stationSilenced (k st : Nat) (s : State) : State :=
  let g := segOf s k
  match tget none g.stations st with
  | none => s
  | some x =>
    if x.vioRun < 3 || g.silence.getLsbD st then s
    else vzEvent k 1 (journal 0x0D 0x01 2 k 0 [BitVec.ofNat 8 st] (setSeg k { g with
      silence := g.silence ||| BitVec.twoPow 256 st, silenced := g.silenced + 1 } s))

/-- Whether a frame that ends `wire` after its SFD lies in an EXCL_UP window of its owner (R288). -/
def inWindow (s : State) (g : Segment) (src sfd plen : Nat) : Bool :=
  (g.bankOf g.bank).any (fun c => c.kind = 2 && c.owner = src && bitOf c.rows (rowNow s)
    && c.start ≤ sfd + g.guardNs && sfd * 10 + wire10 g.portMode plen ≤ (c.start + c.length + g.guardNs) * 10)

/-- An entry of a frame as it was read. -/
structure Entry where
  station : Nat := 0
  chan : Nat := 0
  kind : Nat := 0
  safety : Bool := false
  data : List Byte := []
  cnt : Nat := 0
  crc : Nat := 0
  raw : List Byte := []
  deriving DecidableEq, Repr, Inhabited

/-- Read `n` entries; a frame cut short ends the list. -/
def readEntries : Nat → List Byte → List Entry
  | 0, _ => []
  | n + 1, b =>
    let len := be b 4 2
    let sf := bitOf (u8 b 3) 0
    let tot := 6 + len + (if sf then 6 else 0)
    if b.length < tot then []
    else { station := u8 b 0, chan := u8 b 1, kind := u8 b 2, safety := sf, data := (b.drop 6).take len
           cnt := if sf then be b (6 + len) 2 else 0, crc := if sf then be b (8 + len) 4 else 0
           raw := b.take tot } :: readEntries n (b.drop tot)

/-- The feedback record of 22 bytes (table "Feedback record"). -/
def fbOf (d : List Byte) : FbRec :=
  { position := signedOf 64 (be d 0 8), velocity := signedOf 32 (be d 8 4), torque := signedOf 32 (be d 12 4)
    status := be d 16 2, sample := be d 18 4 }

/-- Whether a safety record is valid (R284). -/
def safetyValid (m : AxisMap) (last : Option Nat) (e : Entry) : Bool :=
  let crc := (crc32c (beFields [(4, m.safetyId), (1, e.station), (1, e.chan), (1, e.kind)] ++ e.data ++ beBytes 2 e.cnt)).toNat
  e.safety && crc = e.crc && (match last with
    | none => true
    | some c => let d := (e.cnt + 65536 - c) % 65536; 1 ≤ d && d ≤ m.nMiss + 1)

/-- An invalid safety record of an axis (R284): FAULT with SAFETY_CRC. -/
def safetyError (k port a : Nat) (s : State) : State :=
  let s1 := count (112 + port) 0x0805 s
  let g := segOf s1 k
  reqFault a 0x07 (modAxis a (fun x => { x with map := { x.map with badSafety := true } })
    (vzEvent k 4 (setSeg k { g with safetyErrors := g.safetyErrors + 1 } s1)))

/-- A feedback entry of a mapped axis is accepted or not (R284, R285, R299); `hook` is what homing makes of it. -/
def takeFeedback (hook : Nat → State → State) (k port a : Nat) (e : Entry) (s : State) : State :=
  let x := axisOf s a
  let m := x.map
  let s0 := if e.safety then xsend .f 0x06 e.raw s else s
  if e.data.length ≠ 22 || (m.safetyFb && !e.safety) then s0
  else if m.safetyFb && !safetyValid m m.sCnt e then safetyError k port a s0
  else
    let f := fbOf e.data
    hook a (modAxis a (fun x => { x with
      actPrev := if x.map.got then x.actPrev else x.actP
      samplePrev := if x.map.got then x.samplePrev else x.sampleAt
      actP := f.position + x.oh, sampleAt := f.sample
      map := { x.map with last := f, lastPrev := if x.map.got then x.map.lastPrev else x.map.last, got := true, badSafety := false, sCnt := if m.safetyFb then some e.cnt else none } }) s0)

/-- A record that came in another cadence (R299). -/
def lateRecord (k port : Nat) (s : State) : State :=
  let s1 := count (112 + port) 0x0803 s
  setSeg k { segOf s1 k with lateRecords := (segOf s1 k).lateRecords + 1 } s1

/-- One entry of an accepted STATION frame: one of another cadence is discarded and counted, one after the feedback cutoff is not used
(R22, R299). -/
def takeEntry (hook : Nat → State → State) (k port src cad : Nat) (e : Entry) (s : State) : State :=
  let mine := cad = s.cad.count.toNat
  if e.kind = 2 then
    match (segAxes s k).find? (fun a => (axisOf s a).map.station = src && (axisOf s a).map.chan = e.chan) with
    | none => s
    | some a => if !mine then lateRecord k port s else if s.cad.phase = 0 then takeFeedback hook k port a e s else s
  else if e.kind = 0x10 && e.chan = 0 then
    if !mine then lateRecord k port s
    else if s.cad.phase = 0 then
      let g := segOf s k
      setSeg k { g with proc := tset [] g.proc src e.data, procGot := src :: g.procGot } s
    else s
  else s

/-- Cause 5 of VZSEG_k: how many FCS errors make a burst no rule states, so whether this one completes a burst is a free value. -/
def fcsBurst (k : Nat) (s : State) : State :=
  if (freeNow s).getLsbD 0 then vzEvent k 5 (freeNext s) else freeNext s

/-- STATION_FRAME (R288, R299): `sfd` is the arrival of the SFD at the master's port, ns after the cadence start. -/
def stationFrame (hook : Nat → State → State) (k port sfd : Nat) (f : List Byte) (s : State) : State :=
  let g := segOf s k
  if !g.configured || (g.portA ≠ port && g.portB ≠ port) then s
  else if !fcsOk f then
    let s1 := count (112 + port) 0x0801 s
    fcsBurst k (setSeg k { g with fcsErrors := g.fcsErrors + 1 } s1)
  else if etherType f ≠ g.etherType then foreignFrame port s
  else if g.state ≠ 3 then s
  else
    let h := payload f
    let src := u8 h 3
    match tget none g.stations src with
    | none => foreignFrame port s
    | some x =>
      let s1 := count (112 + port) 0x0807 s
      if u8 h 1 ≠ 2 || !(port = g.portA || g.split) || !inWindow s g src sfd h.length then violation k port src s1
      else
        let g1 := segOf s1 k
        let x1 := { x with linksOk := bitOf (be h 12 4) 1 }
        let s2 := setSeg k { g1 with stations := tset none g1.stations src (some x1) } s1
        (readEntries (be h 6 2) (h.drop 32)).foldl (fun t e => takeEntry hook k port src (be h 8 4) e t) s2

/-- At the feedback cutoff: a missing record is replaced by the last accepted one, and MISSED counts (R300). -/
def freewheel (s : State) : State :=
  forNat (tkeys s.axes) (fun a t =>
    let x := axisOf t a
    if x.map.segment = 0xFF then t
    else if x.map.got then setAxis a { x with map := { x.map with got := false, gotPrev := true, missed := 0 } } t
    else
      let k := x.map.segment
      let g := segOf t k
      let t1 := if g.state = 3 || g.state = 5 then count (112 + g.portA) 0x0804 (setSeg k { g with missingRecords := g.missingRecords + 1 } t) else t
      setAxis a { x with map := { x.map with gotPrev := false, missed := x.map.missed + 1 } } t1) s

/-- FREEWHEEL_EXPIRED: feedback is missing beyond N_MISS cadences (R300). -/
def freewheelExpired (a : Nat) (s : State) : State :=
  let x := axisOf s a
  if x.map.missed ≤ x.map.nMiss || x.state = .disabled || x.state = .fault || x.map.segment = 0xFF then s else reqFault a 0x01 s

/-- ARB_FRAME_RETURN: REQ is GRANT of the next instance of the column (R290). -/
def arbReturn (k col st : Nat) (s : State) : State :=
  let g := segOf s k
  setSeg k { g with grants := tset 0xFF g.grants col st } s

/-- ACYCLIC_FRAME of the station that a column granted: the reply to a request completes it (R289, R290); the first reply completes a
broadcast request (R7). -/
def acyclicFrame (k st : Nat) (b : List Byte) (s : State) : State :=
  let g := segOf s k
  if g.state ≠ 3 then s
  else if !g.granted.any (fun e => e.2 = st) then violation k g.portA st s
  else match g.acyclic.find? (fun a => (a.station = st || a.station = 255) && a.sent) with
    | none => s
    | some a => complete a.mb a.slot .ok (now s) g.state (b.take 984) (setSeg k { g with acyclic := g.acyclic.erase a } s)

/-- ACYCLIC_TIMEOUT: no answer within 256 cadences (R289). -/
def acyclicTimeout (m sl : Nat) (s : State) : State :=
  match (List.range 8).find? (fun k => (segOf s k).acyclic.any (fun a => a.mb = m && a.slot = sl)) with
  | none => s
  | some k =>
    let g := segOf s k
    let t := ((g.acyclic.find? (fun a => a.mb = m && a.slot = sl && a.sent)).map (·.sentAt + 256 * s.cad.ns)).getD 0
    complete m sl .outOfRange 0 g.state [] (setSeg k { g with acyclic := g.acyclic.filter (fun a => !(a.mb = m && a.slot = sl)) } (advanceTo t s))

/-- Each ARBITRATING window of this row opens with an ARB frame (R290). -/
def sendArb (k : Nat) (s : State) : State :=
  let g := segOf s k
  let cols := g.bankOf g.bank
  forNat (List.range cols.length) (fun i t =>
    let c := lget {} cols i
    if c.kind = 3 && bitOf c.rows (rowNow t) then
      let w := tget 0xFF g.grants i
      let h := segOf t k
      masterDown k 4 0 0 (beFields [(1, w), (1, 0xFF), (1, 0xFF)])
        (setSeg k { h with grants := tset 0xFF h.grants i 0xFF, granted := tset 0xFF h.granted i w } t)
    else t) s

/-- The part of a cadence start on every segment. -/
def busCadence (s : State) : State :=
  forNat (tkeys s.bus) (fun k t =>
    let g := segOf t k
    let t0 := ringSplit k (setSeg k { g with procGot := [] } t)
    let t1 := if g.state = 2 || g.state = 3 then cadenceFrame k t0 else t0
    let t2 := if g.state = 3 then sendArb k (sendAcyclic k t1) else t1
    let t3 := startCadence k t2
    let h := segOf t3 k
    match h.loading with
    | none => t3
    | some (m, sl) =>
      if 1 < h.loadLeft then setSeg k { h with loadLeft := h.loadLeft - 1 } t3
      else complete m sl .ok (now t3) h.state (fields [(1, h.count), (7, 0)]) (setSeg k { h with loading := none, acked := true, loadLeft := 0 } t3)) s

/-! Commands. -/

/-- What a bus command does at its boundary. -/
def busEff (e : Eff) (s : State) : State :=
  let k := e.object
  let g := segOf s k
  if e.opcode = 0x0304 then
    -- bus.stop
    let s1 := segTo k 0 (setSeg k { g with runPending := false, split := false, linkA := true, linkB := true } s)
    startEnd k 9 0xFF 0 .cancelled s1
  else if e.opcode = 0x0306 then setSeg k { g with bank := 1 - g.bank } s
  else if e.opcode = 0x0309 then
    let st := u8 e.p 0
    setSeg k { g with silence := g.silence &&& ~~~(BitVec.twoPow 256 st),
                      stations := tset none g.stations st ((tget none g.stations st).map (fun x => { x with vioRun := 0, vioSeen := false })) } s
  else if g.stations.all (fun x => match x.2 with
    | some y => y.linksOk
    | none => true) then setSeg k { g with split := false, linkA := true, linkB := true } s
  else { s with eff := s.eff ++ [{ e with due := e.due + s.cad.round * s.cad.ns }] }

/-- The segments' part of a round start: banks switch, rings rejoin, and segments enter RUN (R286, R298). -/
def busRound (t : Nat) (s : State) : State :=
  let (d, s1) := takeEff (fun o => o = 0x0306 || o = 0x030A) t s
  forNat (tkeys s.bus) (fun k u =>
    let g := segOf u k
    if g.runPending && g.state = 2 then segTo k 3 (setSeg k { g with runPending := false, bank := 0 } u) else u)
    (d.foldl (fun u e => busEff e u) s1)

/-- bus.start (R295 to R297, R310). -/
def busStartSpec : CmdSpec where
  opcode := 0x0303
  objOk := objBelow 8
  stateOf := segState
  body c s :=
    let k := c.h.object
    let g := segOf s k
    { bad := [(!g.configured, .notConfigured),
              ((g.state ≠ 0 && g.state ≠ 2) || !pelSync s, .stateConflict),
              ((match g.start with
                | some o => o.mb ≠ 0xFF
                | none => false), .objectBusy)]
      act := fun t =>
        { s := setStart k { mb := c.mb, slot := c.slot } (segTo k 2 t), later := true } }

/-- bus.stop. -/
def busStopSpec : CmdSpec where
  opcode := 0x0304
  objOk := objBelow 8
  conf := segConf
  stateOf := segState
  kind _ _ _ := .cadence
  body c s :=
    let k := c.h.object
    { bad := [((segOf s k).state = 0 || (segAxes s k).any (fun a => (axisOf s a).state ≠ .disabled), .stateConflict)]
      act := later c }

/-- The columns of a bus.load_matrix payload. -/
def columnsOf (p : List Byte) : List Column :=
  (List.range (u8 p 0)).map (fun i =>
    let o := 8 + 24 * i
    { kind := u8 p o, owner := u8 p (o + 1), start := u32 p (o + 4), length := u32 p (o + 8), arbNs := u32 p (o + 12)
      rows := u64 p (o + 16) })

/-- bus.load_matrix (R286). -/
def busLoadMatrixSpec : CmdSpec where
  opcode := 0x0305
  lenOk n p := n = 8 + 24 * u8 p 0 || (n = 8 && u8 p 0 = 0)
  objOk := objBelow 8
  conf := segConf
  stateOf := segState
  body c s :=
    let p := c.p
    let k := c.h.object
    let g := segOf s k
    let cols := columnsOf p
    let b := if g.state = 3 then 1 - g.bank else 0
    { bad := [(!zeroAt p 1 7 || (List.range cols.length).any (fun i => !zeroAt p (8 + 24 * i + 2) 2)
                || cols.any (fun x => 3 < x.kind || (x.kind = 2 && (x.owner = 0 || x.owner = 255)) || (x.kind ≠ 2 && x.owner ≠ 0)
                    || (x.kind ≠ 3 && x.arbNs ≠ 0)), .badArg),
              (u8 p 0 = 0 || 32 < u8 p 0, .outOfRange),
              (g.state ≠ 2 && g.state ≠ 3, .stateConflict),
              (g.loading.isSome, .objectBusy)]
      act := fun t =>
        let h := segOf t k
        let h1 := if b = 0 then { h with bank0 := cols } else { h with bank1 := cols }
        { s := setSeg k { h1 with acked := false, loading := some (c.mb, c.slot), loadLeft := 2 * h.count } t, later := true } }

/-- bus.switch_matrix (R286, R287). -/
def busSwitchMatrixSpec : CmdSpec where
  opcode := 0x0306
  objOk := objBelow 8
  conf := segConf
  stateOf := segState
  kind _ _ _ := .round
  body c s :=
    let k := c.h.object
    let g := segOf s k
    let chk := matrixCheck s k (g.bankOf (1 - g.bank))
    { bad := [(g.state ≠ 3 || !g.acked || chk.isSome, .stateConflict)]
      refusedRes := fun st => if st = .stateConflict then (match chk with
        | some (i, r) => busResult s k 7 i r
        | none => []) else []
      act := later c }

/-- bus.map_axis (R284). -/
def busMapAxisSpec : CmdSpec where
  opcode := 0x0307
  lenOk n _ := n = 16
  objOk := objBelow 128
  conf := axisConf
  stateOf := axisStateOf
  body c s :=
    let p := c.p
    let a := c.h.object
    let x := axisOf s a
    let k := u8 p 0
    let un : Bool := k = 255
    { bad := [(!un && k < 8 && 1 ≤ u8 p 1 && u8 p 1 ≤ 254 && (!(segOf s k).enumerated || (tget none (segOf s k).stations (u8 p 1)).isNone), .notConfigured),
              (4 ≤ u8 p 3 || !zeroAt p 9 7 || (u8 p 3 ≠ 0 && u32 p 4 = 0), .badArg),
              (!un && (u8 p 1 = 0 || u8 p 1 = 255), .badObject),
              ((!un && (7 < k || 15 < u8 p 2)) || (8 < u8 p 8 && u8 p 8 ≠ 0xFF), .outOfRange),
              (x.state ≠ .disabled || x.enable.isSome, .stateConflict)]
      act := fun t => { s := modAxis a (fun y => { y with map := if un then {} else {
        segment := k, station := u8 p 1, chan := u8 p 2, safetyFb := bitOf (u8 p 3) 0, safetySp := bitOf (u8 p 3) 1
        safetyId := u32 p 4, nMiss := if u8 p 8 = 0xFF then 2 else u8 p 8 } }) t } }

/-- bus.set_alias (R296): the station keeps the alternative address in its own memory. -/
def busSetAliasSpec : CmdSpec where
  opcode := 0x0308
  lenOk n _ := n = 2
  objOk := objBelow 8
  conf := segConf
  stateOf := segState
  body c s :=
    let k := c.h.object
    let g := segOf s k
    { bad := [(u8 c.p 0 = 0 || u8 c.p 0 = 255, .badObject),
              (u8 c.p 1 = 0 || u8 c.p 1 = 255
                || !g.stations.any (fun e => match e.2 with
                    | some x => decide (x.position = u8 c.p 0)
                    | none => false), .outOfRange),
              (g.state ≠ 2 && g.state ≠ 3, .stateConflict)]
      act := fun t => { s := emit .virza g.portA (c.p.take 2) t } }

/-- bus.station_reset (R294). -/
def busStationResetSpec : CmdSpec where
  opcode := 0x0309
  lenOk n _ := n = 4
  objOk := objBelow 8
  conf := segConf
  stateOf := segState
  kind _ _ _ := .cadence
  body c s :=
    let g := segOf s c.h.object
    { bad := [(!zeroAt c.p 1 3, .badArg), (u8 c.p 0 = 0 || u8 c.p 0 = 255, .badObject),
              (g.state ≠ 3 || !g.silence.getLsbD (u8 c.p 0), .stateConflict)]
      act := later c }

/-- bus.rejoin (R298). -/
def busRejoinSpec : CmdSpec where
  opcode := 0x030A
  objOk := objBelow 8
  conf := segConf
  stateOf := segState
  kind _ _ _ := .round
  body c s :=
    let g := segOf s c.h.object
    { bad := [(g.state ≠ 3 || !g.split, .stateConflict)]
      act := later c }

/-- bus.acyclic (R289); it sends to stations, so it takes the broadcast address (R7). -/
def busAcyclicSpec : CmdSpec where
  opcode := 0x030B
  lenOk n p := n = 4 + u16 p 2
  objOk := objBelow 8
  conf := segConf
  stateOf := segState
  body c s :=
    let k := c.h.object
    let g := segOf s k
    let n := u16 c.p 2
    { bad := [(u8 c.p 1 ≠ 0, .badArg),
              (u8 c.p 0 = 0, .badObject),
              (n = 0 || 1024 < n || (u8 c.p 0 ≠ 255 && (tget none g.stations (u8 c.p 0)).isNone)
                || (g.state = 3 && !windowHolds g n), .outOfRange),
              (g.state ≠ 3, .stateConflict)]
      act := fun t => { s := setSeg k { g with acyclic := g.acyclic ++
        [{ mb := c.mb, slot := c.slot, station := u8 c.p 0, bytes := (c.p.drop 4).take n }] } t, later := true } }

/-- bus.status. -/
def busStatusSpec : CmdSpec where
  opcode := 0x030C
  objOk := objBelow 8
  stateOf := segState
  inFault _ := true
  body c s :=
    let k := c.h.object
    let g := segOf s k
    { act := fun t => { s := setSeg k { g with cause := 0 } t, res := fields [(1, g.state), (1, if g.state = 3 then g.count else 0),
        (1, flagAt g.split 0 + flagAt (g.configured && g.linkA) 1 + flagAt (g.configured && g.ring && g.linkB) 2 + 8 * g.bank),
        (1, g.cause.toNat), (4, segApply s k), (8, g.otherUid.toNat), (4, g.fcsErrors.toNat), (4, g.windowViolations.toNat),
        (4, g.lateRecords.toNat), (4, g.missingRecords.toNat), (4, g.safetyErrors.toNat), (4, g.foreignFrames.toNat),
        (2, g.ringChanges.toNat), (2, g.collisions.toNat), (2, g.silenced.toNat), (2, 0), (32, g.silence.toNat)] } }

/-! The meanings of the rows. -/

/-- BUS_START (R296). -/
def execBusStart (c : CmdRef) (s : State) : Host.Outcome State Fault Refusal := .next (runCmd busStartSpec c s)
/-- BUS_STOP (R297). -/
def execBusStop (c : CmdRef) (s : State) : Host.Outcome State Fault Refusal := .next (runCmd busStopSpec c s)
/-- BUS_LOAD_MATRIX (R286). -/
def execBusLoadMatrix (c : CmdRef) (s : State) : Host.Outcome State Fault Refusal := .next (runCmd busLoadMatrixSpec c s)
/-- BUS_SWITCH_MATRIX (R286). -/
def execBusSwitchMatrix (c : CmdRef) (s : State) : Host.Outcome State Fault Refusal := .next (runCmd busSwitchMatrixSpec c s)
/-- BUS_MAP_AXIS (R284). -/
def execBusMapAxis (c : CmdRef) (s : State) : Host.Outcome State Fault Refusal := .next (runCmd busMapAxisSpec c s)
/-- BUS_SET_ALIAS (R296). -/
def execBusSetAlias (c : CmdRef) (s : State) : Host.Outcome State Fault Refusal := .next (runCmd busSetAliasSpec c s)
/-- BUS_STATION_RESET (R294). -/
def execBusStationReset (c : CmdRef) (s : State) : Host.Outcome State Fault Refusal := .next (runCmd busStationResetSpec c s)
/-- BUS_REJOIN (R298). -/
def execBusRejoin (c : CmdRef) (s : State) : Host.Outcome State Fault Refusal := .next (runCmd busRejoinSpec c s)
/-- BUS_ACYCLIC (R289). -/
def execBusAcyclic (c : CmdRef) (s : State) : Host.Outcome State Fault Refusal := .next (runCmd busAcyclicSpec c s)
/-- BUS_STATUS (R294). -/
def execBusStatus (c : CmdRef) (s : State) : Host.Outcome State Fault Refusal := .next (runCmd busStatusSpec c s)
/-- FOREIGN_FRAME (R280). -/
def execForeignFrame (p : Fin 16) (s : State) : Host.Outcome State Fault Refusal := .next (foreignFrame p.val s)
/-- STATION_SILENCED (R294). -/
def execStationSilenced (k : Fin 8) (st : BitVec 8) (s : State) : Host.Outcome State Fault Refusal :=
  .next (stationSilenced k.val st.toNat s)
/-- FREEWHEEL_EXPIRED (R300). -/
def execFreewheelExpired (a : Fin 128) (s : State) : Host.Outcome State Fault Refusal := .next (freewheelExpired a.val s)
/-- MASTER_COLLISION (R297). -/
def execMasterCollision (k : Fin 8) (o : BitVec 64) (s : State) : Host.Outcome State Fault Refusal :=
  .next (masterCollision k.val o s)
/-- COLLISION_WAIT_END (R297). -/
def execCollisionWaitEnd (k : Fin 8) (s : State) : Host.Outcome State Fault Refusal := .next (collisionWaitEnd k.val s)
/-- RING_CHANGEOVER (R298). -/
def execRingChangeover (k : Fin 8) (s : State) : Host.Outcome State Fault Refusal := .next (ringBroken k.val s)
/-- VZ_LINK_DOWN (R298). -/
def execVzLinkDown (p : Fin 16) (s : State) : Host.Outcome State Fault Refusal := .next (vzLinkDown p.val s)
/-- ENUM_RETURN (R296). -/
def execEnumReturn (k : Fin 8) (l : List StationId) (s : State) : Host.Outcome State Fault Refusal := .next (enumReturn k.val l s)
/-- DELAY_RETURN (R292). -/
def execDelayReturn (k : Fin 8) (d : List (BitVec 32 × BitVec 32)) (s : State) : Host.Outcome State Fault Refusal :=
  .next (delayReturn k.val d s)
/-- ARB_FRAME_RETURN (R290). -/
def execArbFrameReturn (k : Fin 8) (c : Fin 32) (st : BitVec 8) (s : State) : Host.Outcome State Fault Refusal :=
  .next (arbReturn k.val c.val st.toNat s)
/-- ACYCLIC_FRAME (R290). -/
def execAcyclicFrame (k : Fin 8) (st : BitVec 8) (b : List Byte) (s : State) : Host.Outcome State Fault Refusal :=
  .next (acyclicFrame k.val st.toNat b s)
/-- ACYCLIC_TIMEOUT (R289). -/
def execAcyclicTimeout (m : Fin 8) (k : Fin 32) (s : State) : Host.Outcome State Fault Refusal :=
  .next (acyclicTimeout m.val k.val s)

end Sys2Proof.Machine
end

