-- ==== Sys2Proof/Machine/Axis.lean ====
section
/-!
DEFINITION. Axes: states and transitions (R65 to R68), the profile generator (R98 to R103), stops of one axis (R66, R113,
R364), faults (R67, R368), and the axis commands. A commanded state is that of the next apply instant.
-/
namespace Sys2Proof.Machine

/-- The commanded state of an axis. -/
def AxisSt.kin (x : AxisSt) : Kin := ⟨x.cmdP, x.cmdV, x.cmdA⟩

/-- An axis takes a state; the time of change is the cadence start. -/
def axTo (a : Nat) (st : AxState) (s : State) : State :=
  modAxis a (fun x => { x with state := st, stateAt := s.cad.start }) s

/-- The loop share of an axis leaves the ledger (R366). -/
def freeLoop (a : Nat) (s : State) : State := freeShares (fun e => e.type = 1 && e.object = a) s

/-- The loop share that axis `a` needs (R30, R186). -/
def loopShare (s : State) (a : Nat) : Share := { type := 1, cls := 0, wcet := loopWcet (axisOf s a).loop false, object := a }

/-- Whether an axis has power stage and loop as a stop leaves them open. -/
def powered (x : AxisSt) : Bool := match x.state with
  | .disabled => x.enable.isSome
  | .fault => x.faultEnable
  | _ => true

/-- An enable begins at its promise time (R66, R283, R284). -/
def beginEnable (a : Nat) (s : State) : State :=
  modAxis a (fun x => { x with
    enable := some s.cad.start, sto := false, faultCode := 0
    map := { x.map with sCnt := none, sCnt2 := none, badSafety := false } }) s

/-- The torque clamp that a HARD_STOP search narrowed returns to its configured value, or to one set meanwhile (R126,
R176). -/
def LoopSt.unclamp (l : LoopSt) : LoopSt := match l.trqHoming with
  | some v => { l with trqHoming := none, trqDeferred := none, trqLim := l.trqDeferred.getD v }
  | none => l

/-- An axis becomes DISABLED; `sto` is STO_REQUEST of a category 0 stop. -/
def toDisabled (a : Nat) (sto : Bool) (s : State) : State :=
  freeLoop a (modAxis a (fun x => { x with
    state := .disabled, stateAt := s.cad.start, enable := none, disable := none, stopCat := none, prof := none
    cmdV := 0, cmdA := 0, home := .none, sto := x.sto || sto
    loop := { x.loop.unclamp with initDue := false } }) s)

/-- An axis goes from CLOSED to HELD (axis.open, R74). -/
def toHeld (a : Nat) (s : State) : State :=
  freeLoop a (modAxis a (fun x => { x with
    state := .held, stateAt := s.cad.start, prof := none, cmdV := 0, cmdA := 0, home := .none, stopCat := none }) s)

/-- An axis becomes CLOSED; its loop is initialised at the feedback cutoff (R179). -/
def toClosed (a : Nat) (s : State) : State :=
  modAxis a (fun x => { x with
    state := .closed, stateAt := s.cad.start, prof := none, cmdP := ofQ64 x.actP, cmdV := 0, cmdA := 0, zeroCads := 0
    target := ofQ64 x.actP, settledNs := 0, stopCat := none, loop := { x.loop with initDue := true } }) s

/-- The limits of the generator that moves an axis whose own limits are `l`: those of its joint where a DUAL joint has it (R78). -/
def pairLim (s : State) (a : Nat) (l : Limits) : Limits :=
  match groupOf s a with
  | none => l
  | some g =>
    let m := (grpOf s g).model
    match (List.range (mJoints m)).find? (fun i => jDual m i && (jAxis m i = a || jSlave m i = a)) with
    | some i => limMin l (axisOf s (if jAxis m i = a then jSlave m i else jAxis m i)).lim
    | none => l

/-- The limits under which axis `a` is moved. -/
def genLim (s : State) (a : Nat) : Limits := pairLim s a (axisOf s a).lim

/-- The generator of an axis plans a stop from its present commanded state (axis stop, R113). -/
def planHalt (l : Limits) (start : Nat) (x : AxisSt) : AxisSt :=
  let p := planStop x.kin l
  { x with prof := some (start, x.cmdP, p), target := x.cmdP + p.d, speed := one, vCap := none }

/-- The generator of an axis brings it to rest from its present commanded state (axis stop, R113). -/
def genStop (a : Nat) (s : State) : State := modAxis a (planHalt (genLim s a) s.cad.start) s

/-- A stop of category `cat` on one axis (R66, R76, R364); `gen` starts the generator's stop. -/
def stopAxis (gen : Bool) (cat a : Nat) (s : State) : State :=
  let x := axisOf s a
  match x.state with
  | .disabled =>
    if cat = 0 then modAxis a (fun y => { y with enable := none, sto := true }) s
    else if cat = 1 then modAxis a (fun y => { y with enable := none }) s else s
  | .held => if cat = 0 then toDisabled a true s else if cat = 1 then toDisabled a false s else s
  | .closed =>
    if cat = 0 then toDisabled a true s
    else
      let s1 := modAxis a (fun y => { y with state := .stopping, stateAt := s.cad.start, stopCat := some cat, home := .none, loop := y.loop.unclamp }) s
      if gen then genStop a s1 else s1
  | .stopping =>
    if cat = 0 then toDisabled a true s
    else match x.stopCat with
      | some c => if cat < c then modAxis a (fun y => { y with stopCat := some cat }) s else s
      | none => s
  | .fault =>
    let c := x.stopCat.getD 3
    if c ≤ cat then s
    else modAxis a (fun y => { y with
      stopCat := some cat, sto := y.sto || cat = 0, faultEnable := y.faultEnable && cat ≠ 0 }) s

/-- The reasons of an axis in the order of R368. -/
def orderFaults (l : List Nat) : List Nat := faultOrder.filter (fun c => l.contains c)

/-- An axis enters FAULT with the first of its reasons; the others and every reason of an axis already in FAULT only
write records (R66, R364, R368). -/
def faultAxis (a : Nat) (s : State) : State :=
  let x := axisOf s a
  match orderFaults x.faults with
  | [] => s
  | c :: r =>
    let s0 := modAxis a (fun y => { y with faults := [] }) s
    let s1 := (c :: r).foldl (fun t k => journal 0x08 k 2 a 0 [] t) s0
    if x.state = .fault then s1
    else
      let on := powered x
      freeLoop a (modAxis a (fun y => { y with
        state := .fault, stateAt := s.cad.start, faultCode := c, faultEnable := on, enable := none, disable := none
        stopCat := none, prof := none, cmdV := 0, cmdA := 0, home := .none
        homed := y.homed && c ≠ 1 && c ≠ 3
        loop := { y.loop.unclamp with initDue := false } }) s1)

/-- The fault stop of an ungrouped axis (R68, R364): with category 1 there are no other members to wait for. -/
def ungroupedFaultStop (a : Nat) (s : State) : State :=
  modAxis a (fun x => { x with
    stopCat := some x.cfg.faultStop, faultEnable := x.faultEnable && x.cfg.faultStop = 2
    sto := x.sto || x.cfg.faultStop = 0 }) s

/-- Whether a record of the axis was accepted in the last cadence with a sample no later than `n` ns after `t`. -/
def sampleWithin (x : AxisSt) (t n : Nat) : Bool := (x.sampleAt + 2 ^ 32 - shortOf t) % 2 ^ 32 ≤ n

/-- Whether the sample of the last record lies at or after `t` (short times compare modulo 2³²). -/
def sampleAfter (x : AxisSt) (t : Nat) : Bool := (x.sampleAt + 2 ^ 32 - shortOf t) % 2 ^ 32 < 2 ^ 31

/-- The transitions of one axis that records and standstill bring at a cadence start (R66). -/
def axisConditions (a : Nat) (s : State) : State :=
  let x := axisOf s a
  let ten := 1000000 * x.cfg.tEn
  let enabled := x.map.last.status % 2 = 1
  let fresh := x.map.gotPrev
  match x.state, x.enable, x.disable with
  | .disabled, some t, _ =>
    if !(fresh && sampleAfter x t) then s
    else if bitOf x.map.last.status 1 then reqFault a 0x03 s
    else if !enabled then s
    else if sampleWithin x t ten then modAxis a (fun y => { y with state := .held, stateAt := s.cad.start, enable := none }) s
    else reqFault a 0x04 s
  | .stopping, _, some t =>
    if !(fresh && sampleAfter x t && !enabled) then s
    else if sampleWithin x t ten then toDisabled a false s else reqFault a 0x05 s
  | .stopping, _, none =>
    if x.zeroCads < 2 then s
    else if x.stopCat = some 1 then modAxis a (fun y => { y with disable := some s.cad.start }) s
    else modAxis a (fun y => { y with state := .closed, stateAt := s.cad.start, stopCat := none, prof := none }) s
  | _, _, _ => s

/-- A drive that reports FAULT faults its axis when that is not DISABLED (R283). -/
def driveFault (a : Nat) (s : State) : State :=
  let x := axisOf s a
  if x.map.gotPrev && bitOf x.map.last.status 1 && x.state ≠ .disabled && x.state ≠ .fault then reqFault a 0x03 s else s

/-- ENABLE_TIMEOUT (R66). -/
def enableTimeout (a : Nat) (s : State) : State :=
  let x := axisOf s a
  match x.state, x.enable with
  | .disabled, some t => reqFault a 0x04 (advanceTo (t + 1000000 * x.cfg.tEn) s)
  | _, _ => s

/-- DISABLE_TIMEOUT (R66). -/
def disableTimeout (a : Nat) (s : State) : State :=
  let x := axisOf s a
  match x.state, x.disable with
  | .stopping, some t => reqFault a 0x05 (advanceTo (t + 1000000 * x.cfg.tEn) s)
  | _, _ => s

/-! The generator. -/

/-- Whether travel limits bind an axis (R97). -/
def travelBinds (x : AxisSt) : Bool := x.cfg.homeMode = 0 || x.homed

/-- The apply offset of an axis. -/
def applyOf (s : State) (a : Nat) : Nat :=
  let k := (axisOf s a).map.segment
  if k = 0xFF then s.cad.ns / 10 else segApply s k

/-- The state of a generator's profile for the setpoint that leaves at `c` (R98). -/
def profAt (pr : Nat × Int × Prof) (c : Nat) : Kin :=
  let k := pr.2.2.at (secOfNs ((c : Int) - pr.1))
  ⟨pr.2.1 + k.x, k.v, k.a⟩

/-- The limits of the motion under way: SPEED of the move (R107), the speed of a homing step. -/
def AxisSt.runLim (x : AxisSt) (l : Limits) : Limits :=
  let k := l.scaled x.speed
  match x.vCap with
  | some v => k.withV v
  | none => k

/-- An axis replans from its present commanded state to a target (R99). -/
def retarget (target : Fx) (l : Limits) (start : Nat) (x : AxisSt) : AxisSt :=
  { x with prof := some (start, x.cmdP, planTo x.kin target (x.runLim l)), target := target }

/-- Whether an axis is being brought to rest: a stop, or a homing step that ends a search. -/
def halting (x : AxisSt) : Bool :=
  x.state = .stopping || x.home = .restLatched || x.home = .restLimit || x.home = .restReverse || x.home = .restIndex

/-- The profile under way, planned anew under the limits in force (R99, R102). -/
def replanAxis (l : Limits) (start : Nat) (x : AxisSt) : AxisSt :=
  match x.prof with
  | none => x
  | some _ => if halting x then planHalt l start x else retarget x.target l start x

/-- New limits of an axis and the replanning they cause (R102, R103); `pair` brings in the other axis of its joint. -/
def applyLimits (pair : Limits → Limits) (start : Nat) (new : Limits) (x : AxisSt) : AxisSt :=
  let defer := travelBinds x && !inTravel (2 ^ 48) new (restPoint x.kin (pair new))
  let x1 := if defer then { x with lim := keepOld x.lim new, deferred := some new } else { x with lim := new, deferred := none }
  replanAxis (pair x1.lim) start x1

/-- The target of an axis.move payload. -/
def moveTarget (p : List Byte) (x : AxisSt) : Fx :=
  let t := i64 p 0 * 2 ^ 48
  if u8 p 12 = 1 then x.target + t else t

/-- What the effect of a motion command makes of an axis (R76, R99, R102, R103, R107). -/
def axisMotion (pair : Limits → Limits) (op : Nat) (p : List Byte) (start : Nat) (x : AxisSt) : AxisSt :=
  if op = 0x0809 then (if x.state = .closed && 0 < u8 p 0 then planHalt (pair x.lim) start x else x)
  else if op = 0x0807 then retarget (moveTarget p x) (pair x.lim) start { x with speed := f32 (u32 p 8), vCap := none }
  else applyLimits pair start (newLimits p (x.deferred.getD x.lim)) x

/-- The axis as it will be at cadence start `t`, by its profile and the motion commands admitted so far (R103). -/
def axisPredict (s : State) (a t : Nat) : AxisSt :=
  let at' (c : Nat) (x : AxisSt) : AxisSt := match x.prof with
    | none => x
    | some pr => let k := profAt pr c; { x with cmdP := k.x, cmdV := k.v, cmdA := k.a }
  let l := s.eff.filter (fun e => (e.opcode = 0x0807 || e.opcode = 0x0808 || e.opcode = 0x0809) && e.object = a && e.due ≤ t)
  let l := l.foldl (fun (acc : List Eff) e =>
    acc.takeWhile (fun f => f.due ≤ e.due) ++ [e] ++ acc.dropWhile (fun f => f.due ≤ e.due)) []
  at' t (l.foldl (fun x e => axisMotion (pairLim s a) e.opcode e.p e.due (at' e.due x)) (axisOf s a))

/-- The limits that wait by R103 govern from the first cadence start at which the axis would rest within travel. -/
def deferredLimits (a : Nat) (s : State) : State :=
  let x := axisOf s a
  match x.deferred with
  | none => s
  | some l =>
    if !travelBinds x || inTravel (2 ^ 48) l (restPoint x.kin (pairLim s a l)) then
      journal 0x08 0x20 0 a s.cad.start []
        (setAxis a (replanAxis (pairLim s a l) s.cad.start { x with lim := l, deferred := none }) s)
    else s

/-- One cadence of an axis's own generator: the commanded state for the setpoint that leaves at the next cadence start. -/
def genStep (a : Nat) (s : State) : State :=
  modAxis a (fun x => match x.prof with
    | none => { x with cmdV := 0, cmdA := 0 }
    | some pr => let k := profAt pr (s.cad.start + s.cad.ns); { x with cmdP := k.x, cmdV := k.v, cmdA := k.a }) s

/-- Standstill is counted in whole cadences (R66). -/
def countZero (a : Nat) (s : State) : State :=
  modAxis a (fun x => { x with zeroCads := if x.cmdV = 0 then x.zeroCads + 1 else 0 }) s

/-! Effects of the axis commands. -/

/-- What an axis command does at its cadence start. -/
def axisEff (e : Eff) (s : State) : State :=
  let a := e.object
  let x := axisOf s a
  let still := x.state = .closed && x.cmdV = 0
  match e.opcode with
  | 0x0802 => if x.state = .disabled && x.enable.isNone then beginEnable a s else s
  | 0x0803 => if x.state = .held || still then toDisabled a false s else s
  | 0x0804 => if x.state = .held then toClosed a s else if x.state = .closed then s else freeLoop a s
  | 0x0805 => if still then toHeld a s else s
  | 0x0806 =>
    if x.state = .fault then
      modAxis a (fun y => { y with state := .disabled, stateAt := s.cad.start, frPulse := true, faultEnable := false,
                                   faultCode := 0, stopCat := none }) s
    else s
  | 0x0807 => if x.state = .closed && groupOf s a = none then setAxis a (axisMotion (pairLim s a) 0x0807 e.p s.cad.start x) s else s
  | 0x0808 => setAxis a (axisMotion (pairLim s a) 0x0808 e.p s.cad.start x) s
  | _ => s

/-! Commands. -/

/-- Whether axis.close, enable, open or disable is barred by the group of the axis (R68), or an enable in progress (R66). -/
def barred (s : State) (a : Nat) : Bool := inActiveGroup s a || (axisOf s a).enable.isSome

/-- Whether the skew of joint `i` of group `g` is beyond SKEW_LIMIT (R78). -/
def skewed (s : State) (g i : Nat) : Bool :=
  let m := (grpOf s g).model
  let lim := f32 (u32 m 88)
  lim ≠ 0 && jDual m i && lim < fabs (jointRate m i (((axisOf s (jAxis m i)).actP - (axisOf s (jSlave m i)).actP) * 2 ^ 48))

/-- Whether the cause of a fault is still present (R67, R78, R301). -/
def causePresent (s : State) (a : Nat) : Bool :=
  let x := axisOf s a
  (x.faultCode = 8 && (match groupOf s a with
    | some g => (List.range (mJoints (grpOf s g).model)).any (fun i => (jAxes (grpOf s g).model i).contains a && skewed s g i)
    | none => false)) ||
  (x.faultCode = 1 && (!x.map.gotPrev || (segOf s x.map.segment).silence.getLsbD x.map.station))
    || (x.faultCode = 7 && x.map.badSafety)

/-- axis.configure (R66, R124). -/
def axisConfigureSpec : CmdSpec where
  opcode := 0x0801
  lenOk n _ := n = 64
  indP := true
  objOk := objBelow 128
  stateOf := axisStateOf
  body c s :=
    let p := c.p
    let a := c.h.object
    let x := axisOf s a
    let m := u8 p 6
    let ch (o : Nat) : Bool := 31 < u8 p o && u8 p o ≠ 0xFF
    let vs := f32 (u32 p 16)
    let badVs := !f32Pos (u32 p 16) || x.lim.v < vs
    let vc := f32 (u32 p 20)
    let badSd := i64 p 24 ≤ 0
    { bad := [(!zeroAt p 14 2 || !zeroAt p 56 8 || 1 < u8 p 5 || 4 < m || 7 < u8 p 11 || 1 < u8 p 13, .badArg),
              (u32 p 0 < 10 || 2000 < u32 p 0 || 2 < u8 p 4 || 7 < u8 p 7 || ch 8 || ch 9 || ch 10 || 16 < u8 p 12
                || !f32Pos (u32 p 48) || !f32In (u32 p 52) 0 one, .outOfRange),
              (m = 1 && (badVs || badSd), .outOfRange),
              (m = 2 && (badVs || badSd || !f32Pos (u32 p 20) || vs < vc), .outOfRange),
              (m = 3 && (badSd || !f32Pos (u32 p 20) || x.lim.v < vc || !f32Pos (u32 p 40) || !f32In (u32 p 44) 0 (2 ^ 208)), .outOfRange),
              (x.state ≠ .disabled || x.enable.isSome, .stateConflict)]
      act := fun t => { s := modAxis a (fun y => { y with
        homed := y.homed && (!y.cfg.configured || y.cfg.homeMode = m)
        cfg := {
          configured := true, tEn := u32 p 0, faultStop := u8 p 4, linear := u8 p 5 = 1, homeMode := m, homePhase := u8 p 7
          homeCh := u8 p 8, limP := u8 p 9, limN := u8 p 10, inPol := u8 p 11, tQ := u8 p 12, homeDir := u8 p 13, vSearch := vs
          vCreep := vc, searchDist := i64 p 24, homePos := i64 p 32, torqueThr := f32 (u32 p 40), backoff := f32 (u32 p 44)
          settleWin := f32 (u32 p 48), settleTime := f32 (u32 p 52) } }) t } }

/-- axis.enable (R66, R68). -/
def axisEnableSpec : CmdSpec where
  opcode := 0x0802
  objOk := objBelow 128
  stateOf := axisStateOf
  kind _ _ _ := .cadence
  body c s :=
    let a := c.h.object
    let x := axisOf s a
    { bad := [(!x.cfg.configured || x.map.segment = 0xFF || (segOf s x.map.segment).state ≠ 3, .notConfigured),
              (x.state ≠ .disabled || barred s a, .stateConflict)]
      act := later c }

/-- axis.disable (R66, R68). -/
def axisDisableSpec : CmdSpec where
  opcode := 0x0803
  objOk := objBelow 128
  conf := axisConf
  stateOf := axisStateOf
  kind _ _ _ := .cadence
  body c s :=
    let a := c.h.object
    let x := axisOf s a
    { bad := [(!(x.state = .held || (x.state = .closed && x.cmdV = 0)) || barred s a, .stateConflict)]
      act := later c }

/-- axis.close (R24, R30, R179, R187). -/
def axisCloseSpec : CmdSpec where
  opcode := 0x0804
  objOk := objBelow 128
  conf := axisConf
  stateOf := axisStateOf
  kind _ _ _ := .cadence
  body c s :=
    let a := c.h.object
    let x := axisOf s a
    let pl := placeOne s 0 s.sch.shares (loopShare s a)
    { bad := [(loopMissing x.loop, .notConfigured),
              (x.state ≠ .held || barred s a || s.eff.any (fun e => e.opcode = 0x0804 && e.object = a), .stateConflict),
              (pl.isNone, .notSchedulable)]
      act := fun t => { s := setShares (pl.getD []) (post c t) } }

/-- axis.open (R66, R68). -/
def axisOpenSpec : CmdSpec where
  opcode := 0x0805
  objOk := objBelow 128
  conf := axisConf
  stateOf := axisStateOf
  kind _ _ _ := .cadence
  body c s :=
    let a := c.h.object
    let x := axisOf s a
    { bad := [(x.state ≠ .closed || x.cmdV ≠ 0 || barred s a, .stateConflict)]
      act := later c }

/-- axis.clear (R67, R301). -/
def axisClearSpec : CmdSpec where
  opcode := 0x0806
  objOk := objBelow 128
  conf := axisConf
  stateOf := axisStateOf
  kind _ _ _ := .cadence
  body c s :=
    let a := c.h.object
    { bad := [((axisOf s a).state ≠ .fault || causePresent s a, .stateConflict)]
      act := later c }

/-- Whether a motion command towards `target` runs into an active limit input from the present position (R132). -/
def towardsLimit (s : State) (x : AxisSt) (target : Fx) : Bool :=
  (x.cmdP < target && inputActive s x.quals x.cfg.limP x.cfg.inPol 1)
    || (target < x.cmdP && inputActive s x.quals x.cfg.limN x.cfg.inPol 2)

/-- axis.move (R97, R99, R107, R132). -/
def axisMoveSpec : CmdSpec where
  opcode := 0x0807
  lenOk n _ := n = 16
  objOk := objBelow 128
  conf := axisConf
  stateOf := axisStateOf
  kind _ _ _ := .cadence
  body c s :=
    let p := c.p
    let a := c.h.object
    let x := axisOf s a
    let y := axisPredict s a c.promise
    let t := moveTarget p y
    let z := axisMotion (pairLim s a) 0x0807 p c.promise y
    { bad := [(1 < u8 p 12 || !zeroAt p 13 3, .badArg),
              (!f32Pos (u32 p 8) || one < f32 (u32 p 8) || (travelBinds x && !inTravel (2 ^ 48) y.lim t)
                || towardsLimit s x t, .outOfRange),
              (x.state ≠ .closed || (groupOf s a).isSome || !travelBinds x, .stateConflict)]
      act := fun u => { s := post c u, res := leBytes 8 (c.promise + applyOf s a + (match z.prof with
        | some pr => (nsOfSec pr.2.2.dur).toNat
        | none => 0)) } }

/-- The sum of the squares of three FP32 fields, as a length. -/
def vecLen (p : List Byte) (o : Nat) : Fx :=
  let q (i : Nat) : Fx := let v := f32 (u32 p (o + 4 * i)); fmul v v
  fsqrt (q 0 + q 1 + q 2)

/-- The reach of a group (R79) with the travel range of one axis replaced. -/
def reachWith (s : State) (m : List Byte) (axis : Nat) (l : Limits) : Fx :=
  let first := if mType m = 5 then 1 else 0
  let travel (i : Nat) : Fx :=
    let one' (b : Nat) : Fx :=
      let k := if b = axis then l else (axisOf s b).lim
      max (fabs ((k.tmin - jZero m i) * 2 ^ 48)) (fabs ((k.tmax - jZero m i) * 2 ^ 48))
    if jPrism m i then one' (jAxis m i) else 0
  ((List.range (mJoints m)).filter (fun i => first ≤ i)).foldl (fun r i => r + vecLen m (jOff i + 4) + travel i) (vecLen m 48)

/-- Whether new limits of a member break R79. -/
def reachBroken (s : State) (a : Nat) (l : Limits) : Bool :=
  match groupOf s a with
  | some g => mType (grpOf s g).model ≠ 6 && 4 * one < reachWith s (grpOf s g).model a l
  | none => false

/-- axis.stop (R76). -/
def axisStopSpec : CmdSpec where
  opcode := 0x0809
  lenOk n _ := n = 4
  objOk := objBelow 128
  conf := axisConf
  stateOf := axisStateOf
  kind _ _ _ := .cadence
  body c s :=
    let a := c.h.object
    let x := axisOf s a
    { bad := [(!zeroAt c.p 1 3, .badArg), (2 < u8 c.p 0, .outOfRange),
              ((x.state ≠ .held && x.state ≠ .closed && x.state ≠ .stopping && x.enable.isNone) || (groupOf s a).isSome, .stateConflict)]
      act := later c }

/-! The meanings of the rows. -/

/-- AXIS_CONFIGURE (R66). -/
def execAxisConfigure (c : CmdRef) (s : State) : Host.Outcome State Fault Refusal := .next (runCmd axisConfigureSpec c s)
/-- AXIS_ENABLE (R66). -/
def execAxisEnable (c : CmdRef) (s : State) : Host.Outcome State Fault Refusal := .next (runCmd axisEnableSpec c s)
/-- AXIS_DISABLE (R66). -/
def execAxisDisable (c : CmdRef) (s : State) : Host.Outcome State Fault Refusal := .next (runCmd axisDisableSpec c s)
/-- AXIS_CLOSE (R179). -/
def execAxisClose (c : CmdRef) (s : State) : Host.Outcome State Fault Refusal := .next (runCmd axisCloseSpec c s)
/-- AXIS_OPEN (R66). -/
def execAxisOpen (c : CmdRef) (s : State) : Host.Outcome State Fault Refusal := .next (runCmd axisOpenSpec c s)
/-- AXIS_CLEAR (R67). -/
def execAxisClear (c : CmdRef) (s : State) : Host.Outcome State Fault Refusal := .next (runCmd axisClearSpec c s)
/-- AXIS_MOVE (R98). -/
def execAxisMove (c : CmdRef) (s : State) : Host.Outcome State Fault Refusal := .next (runCmd axisMoveSpec c s)
/-- AXIS_STOP (R76). -/
def execAxisStop (c : CmdRef) (s : State) : Host.Outcome State Fault Refusal := .next (runCmd axisStopSpec c s)
/-- ENABLE_TIMEOUT (R66). -/
def execEnableTimeout (a : Fin 128) (s : State) : Host.Outcome State Fault Refusal := .next (enableTimeout a.val s)
/-- DISABLE_TIMEOUT (R66). -/
def execDisableTimeout (a : Fin 128) (s : State) : Host.Outcome State Fault Refusal := .next (disableTimeout a.val s)

end Sys2Proof.Machine
end

