-- ==== Sys2Proof/Machine/Jrn.lean ====
section
/-!
DEFINITION. The persistent journal: sending (R399), writing (R400, R401), hold-up (R402, R403), reading (R404),
truncation (R405) and the jrn commands.
-/
namespace Sys2Proof.Machine

/-- A block that FeRAM keeps as two copies is written over the older one, with the next sequence number (R382, R396). -/
def feWrite (b : List Byte) (c : Tab FeCopy) : Tab FeCopy :=
  let q := max (tget {} c 0).seq (tget {} c 1).seq + 1
  tset {} c (q % 2) { seq := q, body := b, crc := crc32 (leBytes 4 q ++ b) }

/-- The control block (R396): A_COUNT, NEXT and FLOOR. -/
def ctlBytes (j : JrnSt) : List Byte := fields [(4, j.regA.length), (8, j.next.toNat), (8, j.floor.toNat)]

/-- The control block is written to its older copy. -/
def ctlWrite (j : JrnSt) : JrnSt := { j with ctl := feWrite (ctlBytes j) j.ctl }

/-- Slots of region B (R396). -/
def regBSlots : Nat := 126656

/-- The oldest valid record of region B (R397). -/
def oldest (s : State) : Nat := max s.jrn.floor.toNat (s.jrn.next.toNat - regBSlots)

/-- The record number that a 32-bit number of the host means (R397): the nearest at or below NEXT; it may lie
below 0 where fewer records were ever written. -/
def recordNo (s : State) (r : Nat) : Int :=
  let n := s.jrn.next.toNat
  (n : Int) - ((n + 2 ^ 32 - r % 2 ^ 32) % 2 ^ 32 : Nat)

/-- The 64 bytes of a record with the SEQ of the place it is stored at (table "Journal record"); one that
holds an uncorrectable word carries the inverse of its CRC (R404). -/
def recBytes (r : JRec) (seq : Nat) : List Byte :=
  let b := fields [(8, r.time.toNat), (4, r.boot.toNat), (2, r.source), (2, r.code), (1, r.sev),
    (1, flagAt r.dieF 0 + flagAt r.holdup 1 + flagAt r.inA 2 + 32 * (r.mbox % 8)), (2, seq), (4, r.object),
    (8, r.aux)] ++ fit 28 r.detail
  b ++ leBytes 4 (if r.bad then ~~~(crc32 b) else crc32 b).toNat

/-- A record of die M travels to die F in class 0x08 and takes its place in die F's queue (R399). -/
def toDieF (r : JRec) (s : State) : State :=
  xsend .f 0x08 (recBytes r 0) { s with jrn := { s.jrn with queueF := s.jrn.queueF ++ [{ r with holdup := s.jrn.holdup }] } }

/-- Die M sends its oldest record where die F's queue has room (R399); in hold-up die F refuses records once its
20 µs are over (R402). A JRN/OVERFLOW record follows dropped records. -/
def journalSend (s : State) : State :=
  match s.jrn.queueM with
  | [] => s
  | r :: q =>
    if !xlinkCarries s then s
    else if s.jrn.holdup && !s.jrn.holdupOpen then count 142 0x1002 s
    else if 64 ≤ s.jrn.queueF.length then s
    else
      let s1 := toDieF r { s with jrn := { s.jrn with queueM := q } }
      if s1.jrn.toReport = 0 then s1
      else journal 0x14 0x02 1 noObj 0 (leBytes 4 s1.jrn.toReport) { s1 with jrn := { s1.jrn with toReport := 0 } }

/-- Die F writes the next record of its queue and a control block copy (R397, R400, R401). -/
def journalWrite (s : State) : State :=
  match s.jrn.queueF with
  | [] => s
  | r :: q =>
    let n := s.jrn.next.toNat
    let toA := 2 ≤ r.sev && s.jrn.regA.length < 4096
    let r' := { r with inA := toA }
    let past := regBSlots ≤ n && s.jrn.floor.toNat ≤ n - regBSlots
    let wrap := past && (!s.jrn.wrapSeen || n % regBSlots = 0)
    let s1 := { s with jrn := ctlWrite { s.jrn with
      queueF := q
      regB := tset none s.jrn.regB (n % regBSlots) (some (n, r'))
      regA := if toA then s.jrn.regA ++ [r'] else s.jrn.regA
      next := s.jrn.next + 1
      wrapSeen := s.jrn.wrapSeen || past
      holdupWritten := if s.jrn.holdup then s.jrn.holdupWritten + 1 else s.jrn.holdupWritten } }
    raiseIf wrap 102 (raiseIf (toA && s1.jrn.regA.length = 4096) 101 (raiseIf (2 ≤ r.sev) 100
      (count 142 0x1001 s1)))

/-- The 20 µs of R402 end: die F refuses records from now on, and die M's unsent records are counted (R424). -/
def holdupWindowEnd (s : State) : State :=
  if s.jrn.holdup && s.jrn.holdupOpen then
    { s with jrn := { s.jrn with holdupOpen := false, holdupUnsent := s.jrn.queueM.length } }
  else s

/-- Die F has written its queue: it writes JRN/HOLDUP_DONE and ends the hold-up (R402). -/
def holdupDone (s : State) : State :=
  if s.jrn.holdup && !s.jrn.holdupOpen && !s.jrn.holdupEnding && s.jrn.queueF = [] then
    let s1 := journalWrite (journalF 0x14 0x04 0 noObj 0
      (fields [(4, s.jrn.holdupWritten), (4, s.jrn.holdupUnsent)]) s)
    { s1 with jrn := { s1.jrn with holdupEnding := true, holdup := s.dev.pfail } }
  else s

/-- Die F checks C_JRN (R403). -/
def holdupCheck (c : BitVec 16) (s : State) : State :=
  let s1 := { s with jrn := { s.jrn with cMeas := c } }
  if c.toNat < s.jrn.cReq.toNat then
    raise 103 (journalF 0x14 0x03 1 noObj 0 (leBytes 2 c.toNat) { s1 with jrn := { s1.jrn with holdupLow := true } })
  else s1

/-- The discarded slots have been overwritten with zeros (R405). -/
def eraseDone (s : State) : State :=
  match s.jrn.erasing with
  | none => s
  | some (a, b) =>
    { s with jrn := { s.jrn with
      erasing := none
      regB := s.jrn.regB.filter (fun e => match e.2 with
        | some (n, _) => !(a ≤ n && n < b)
        | none => false) } }

/-! Commands. -/

/-- jrn.status (table "jrn.status result"). -/
def jrnStatusSpec : CmdSpec where
  opcode := 0x1201
  kick := true
  inFault _ := true
  body _ s :=
    { bad := [(s.xl.initFailed, .deviceFault)]
      act := fun t =>
        { s := t
          res := fields [(2, s.jrn.regA.length),
            (1, flagAt s.jrn.holdupLow 0 + flagAt s.jrn.erasing.isSome 1 + flagAt s.jrn.challenge.isSome 2),
            (1, min 64 s.jrn.queueF.length), (4, s.jrn.next.toNat), (4, s.jrn.floor.toNat), (4, oldest s),
            (4, s.jrn.dropped.toNat), (2, s.jrn.cMeas.toNat), (2, s.jrn.cReq.toNat),
            (8, s.jrn.lastTruncate.toNat)] } }

/-- The records of region B from `n` on, at most `k` of them. -/
def readB (s : State) : Nat → Nat → List Byte
  | _, 0 => []
  | n, k + 1 =>
    if s.jrn.next.toNat ≤ n then []
    else (match tget none s.jrn.regB (n % regBSlots) with
      | some (_, r) => recBytes r n
      | none => List.replicate 64 0) ++ readB s (n + 1) k

/-- The records of region A from index `n` on. -/
def readA (s : State) (n k : Nat) : List Byte :=
  (((List.range s.jrn.regA.length).zip s.jrn.regA).drop n |>.take k).flatMap (fun e => recBytes e.2 e.1)

/-- jrn.read (R404). -/
def jrnReadSpec : CmdSpec where
  opcode := 0x1202
  lenOk n _ := n = 12
  kick := true
  inFault _ := true
  indR := true
  resMax p := 16 + 64 * u32 p 8
  body c s :=
    let k := u32 c.p 8
    let b := u8 c.p 0 = 1
    let first := if b then max (recordNo s (u32 c.p 4)).toNat (oldest s) else u32 c.p 4
    let have' := if b then s.jrn.next.toNat - first else s.jrn.regA.length - first
    { bad := [(s.xl.initFailed, .deviceFault), (1 < u8 c.p 0 || !zeroAt c.p 1 3, .badArg),
              (k = 0 || 131072 < k, .outOfRange)]
      act := fun t =>
        { s := t, res := fields [(4, first), (4, min k have'), (4, 0), (4, 0)]
            ++ (if b then readB s first k else readA s first k) } }

/-- jrn.challenge (R405): 32 bytes from the TRNG, a free value. -/
def jrnChallengeSpec : CmdSpec where
  opcode := 0x1203
  priv := true
  body _ s :=
    let ch := leBytes 32 (Config.freeWide s.free).toNat
    { act := fun t => { s := { freeNext t with jrn := { t.jrn with challenge := some ch } }, res := ch } }

/-- Whether an owner slot is set and not revoked (R379). -/
def ownerInForce (s : State) (k : Nat) : Bool :=
  if k = 0 then s.dev.fuses.owner0Set && !s.dev.fuses.owner0Revoked else k = 1 && s.dev.fuses.owner1Set

/-- The fused hash of an owner slot. -/
def ownerHashOf (s : State) (k : Nat) : BitVec 512 := tget 0 s.dev.fuses.ownerHash k

/-- The first four conditions of R405. -/
def truncateAuth (s : State) (st key : List Byte) : Bool :=
  s.dev.fuses.owner0Set && ownerInForce s (u8 st 4) && digestNat (sha3 key) = ownerHashOf s (u8 st 4)
  && u64 st 8 = Config.uid.toNat && some ((st.drop 16).take 32) = s.jrn.challenge

/-- jrn.truncate (R405). Its conditions are checked in the order that R405 gives; the challenge is consumed by
every jrn.truncate. -/
def jrnTruncateSpec : CmdSpec where
  opcode := 0x1204
  priv := true
  indP := true
  lenOk n _ := n = 7347
  body c s :=
    let st := c.p.take 128
    let key := (c.p.drop 128).take 2592
    let sig := (c.p.drop 2720).take 4627
    let auth := truncateAuth s st key
    let sigOk := Config.mlDsaVerify key (sha3 st) sig
    let keep := recordNo s (u32 st 48)
    let inR : Bool := (s.jrn.floor.toNat : Int) ≤ keep && keep ≤ s.jrn.next.toNat
    let used (t : State) : State := { t with jrn := { t.jrn with challenge := none } }
    { bad := [(u32 st 0 ≠ 0x3154564B || 1 < u8 st 4 || !zeroAt st 5 3 || !zeroAt st 52 76, .badArg),
              (!auth, .stateConflict), (auth && !sigOk, .signatureInvalid), (auth && sigOk && !inR, .outOfRange)]
      refused := fun _ t => used t
      act := fun t =>
        let o := oldest s
        let k := keep.toNat
        let t1 := { used t with jrn := ctlWrite { (used t).jrn with
          floor := BitVec.ofNat 64 k, erasing := some (o, k), lastTruncate := s.time.long, wrapSeen := false } }
        { s := journal 0x14 0x01 1 noObj 0 (fields [(8, s.jrn.floor.toNat), (4, k - o), (1, u8 st 4)]) t1
          res := fields [(4, k - o), (4, 0)] } }

/-- jrn.configure. -/
def jrnConfigureSpec : CmdSpec where
  opcode := 0x1205
  priv := true
  lenOk n _ := n = 4
  body c _ :=
    let v := u16 c.p 0
    { bad := [(!zeroAt c.p 2 2, .badArg), (v < 1 || 1000 < v, .outOfRange)]
      act := fun t => { s := { t with jrn := { t.jrn with cReq := BitVec.ofNat 16 v } } } }

/-- jrn.annotate: a HOST/ANNOTATION record with the mailbox in ORIGIN. -/
def jrnAnnotateSpec : CmdSpec where
  opcode := 0x1206
  lenOk n _ := n = 32
  body c s :=
    { bad := [(!zeroAt c.p 1 3, .badArg), (1 < u8 c.p 0, .outOfRange)]
      act := fun t =>
        { s := journalRec { mkRec 0x13 0x10 (u8 c.p 0) noObj 0 (c.p.drop 4) t with mbox := c.mb } t
          res := fields [(4, s.jrn.next.toNat + s.jrn.queueF.length + s.jrn.queueM.length), (4, 0)] } }

/-- JRN_STATUS (R397). -/
def execJrnStatus (c : CmdRef) (s : State) : Host.Outcome State Fault Refusal := .next (runCmd jrnStatusSpec c s)
/-- JRN_READ (R404). -/
def execJrnRead (c : CmdRef) (s : State) : Host.Outcome State Fault Refusal := .next (runCmd jrnReadSpec c s)
/-- JRN_CHALLENGE (R405). -/
def execJrnChallenge (c : CmdRef) (s : State) : Host.Outcome State Fault Refusal := .next (runCmd jrnChallengeSpec c s)
/-- JRN_TRUNCATE (R405). -/
def execJrnTruncate (c : CmdRef) (s : State) : Host.Outcome State Fault Refusal := .next (runCmd jrnTruncateSpec c s)
/-- JRN_CONFIGURE (R403). -/
def execJrnConfigure (c : CmdRef) (s : State) : Host.Outcome State Fault Refusal := .next (runCmd jrnConfigureSpec c s)
/-- JRN_ANNOTATE (R397). -/
def execJrnAnnotate (c : CmdRef) (s : State) : Host.Outcome State Fault Refusal := .next (runCmd jrnAnnotateSpec c s)
/-- JOURNAL_RECORD_SEND (R399). -/
def execJournalRecordSend (s : State) : Host.Outcome State Fault Refusal := .next (journalSend s)
/-- JOURNAL_WRITE (R400). -/
def execJournalWrite (s : State) : Host.Outcome State Fault Refusal := .next (journalWrite s)
/-- HOLDUP_WINDOW_END (R402). -/
def execHoldupWindowEnd (s : State) : Host.Outcome State Fault Refusal := .next (holdupWindowEnd s)
/-- HOLDUP_DONE (R402). -/
def execHoldupDone (s : State) : Host.Outcome State Fault Refusal := .next (holdupDone s)
/-- HOLDUP_CHECK (R403). -/
def execHoldupCheck (cMeas : BitVec 16) (s : State) : Host.Outcome State Fault Refusal := .next (holdupCheck cMeas s)
/-- TRUNCATE_ERASE_DONE (R405). -/
def execTruncateEraseDone (s : State) : Host.Outcome State Fault Refusal := .next (eraseDone s)

end Sys2Proof.Machine
end

