-- ==== Sys2Proof/Machine/F32.lean ====
section
/-!
DEFINITION. IEEE binary32 arithmetic of the QP lanes (R145): round to nearest, ties to even, fused multiply-add with one
rounding, subnormal inputs and results flushed to zero with their sign kept. Values are 32-bit words.
-/
namespace Sys2Proof.Machine

/-- A binary32 word. -/
abbrev F32 := Nat

/-- What a word stands for after subnormals are flushed: a NaN, an infinity, or mantissa times 2^exponent with a sign. -/
inductive FVal | nan | inf (neg : Bool) | fin (neg : Bool) (m : Nat) (e : Int)
  deriving DecidableEq, Repr

/-- Read a word. -/
def fval (w : F32) : FVal :=
  let neg := w / 2 ^ 31 % 2 = 1
  let ex : Nat := w / 2 ^ 23 % 256
  let fr : Nat := w % 2 ^ 23
  if ex = 255 then (if fr = 0 then .inf neg else .nan)
  else if ex = 0 then .fin neg 0 0
  else .fin neg (2 ^ 23 + fr) ((ex : Int) - 150)

/-- The word of an infinity. -/
def finf (neg : Bool) : F32 := if neg then 0xFF800000 else 0x7F800000
/-- The word that stands for NaN. -/
def fnan : F32 := 0x7FC00000
/-- The word of a zero. -/
def fzero (neg : Bool) : F32 := if neg then 0x80000000 else 0

/-- Round num·2^e, flushing a subnormal result. -/
def fround (num : Int) (e : Int) : F32 :=
  let w := ieeeEnc 8 23 num e
  if w / 2 ^ 23 % 256 = 0 then fzero (num < 0) else w

/-- A signed mantissa. -/
def sgnM (neg : Bool) (m : Nat) : Int := if neg then -(m : Int) else m

/-- a·b + c with one rounding. -/
def ffma (a b c : F32) : F32 :=
  match fval a, fval b, fval c with
  | .nan, _, _ => fnan
  | _, .nan, _ => fnan
  | _, _, .nan => fnan
  | .inf n, .inf k, z => match z with
    | .inf q => if q = (n != k) then finf q else fnan
    | _ => finf (n != k)
  | .inf n, .fin k m _, z => if m = 0 then fnan else match z with
    | .inf q => if q = (n != k) then finf q else fnan
    | _ => finf (n != k)
  | .fin n m _, .inf k, z => if m = 0 then fnan else match z with
    | .inf q => if q = (n != k) then finf q else fnan
    | _ => finf (n != k)
  | .fin _ _ _, .fin _ _ _, .inf q => finf q
  | .fin n m e, .fin k l f, .fin q r g =>
    let pe := e + f
    let p := sgnM (n != k) (m * l)
    let z := sgnM q r
    let lo := if m * l = 0 then g else if r = 0 then pe else min pe g
    let sum := p * 2 ^ (pe - lo).toNat + z * 2 ^ (g - lo).toNat
    let sum := if m * l = 0 then z else if r = 0 then p else sum
    if sum = 0 then fzero (m * l = 0 && r = 0 && (n != k) && q) else fround sum lo

/-- 1.0. -/
def fone : F32 := 0x3F800000
/-- The sum. -/
def fadd (a b : F32) : F32 := ffma a fone b
/-- The negation. -/
def fneg (a : F32) : F32 := if a / 2 ^ 31 % 2 = 1 then a - 2 ^ 31 else a + 2 ^ 31
/-- The difference. -/
def fsub (a b : F32) : F32 := fadd a (fneg b)
/-- The product. -/
def fmul32 (a b : F32) : F32 :=
  match fval a, fval b with
  | .fin n m _, .fin k l _ => if m = 0 || l = 0 then fzero (n != k) else ffma a b 0
  | _, _ => ffma a b 0

/-- The correctly rounded quotient. -/
def fdiv32 (a b : F32) : F32 :=
  match fval a, fval b with
  | .nan, _ => fnan
  | _, .nan => fnan
  | .inf _, .inf _ => fnan
  | .inf n, .fin k _ _ => finf (n != k)
  | .fin n _ _, .inf k => fzero (n != k)
  | .fin n m e, .fin k l f =>
    if l = 0 then (if m = 0 then fnan else finf (n != k))
    else if m = 0 then fzero (n != k)
    else
      let q := m * 2 ^ 40 / l
      let st := if m * 2 ^ 40 % l = 0 then 0 else 1
      fround (sgnM (n != k) (2 * q + st)) (e - f - 41)

/-- Whether a word is a finite number. -/
def ffinite (w : F32) : Bool := w / 2 ^ 23 % 256 ≠ 255
/-- The value of a finite word, exactly scaled by 2^149. -/
def fordZ (w : F32) : Int := match fval w with
  | .fin n m e => sgnM n m * 2 ^ (e + 149).toNat
  | .inf n => if n then -(2 ^ 300) else 2 ^ 300
  | .nan => 0
/-- Whether a is a NaN. -/
def fisnan (w : F32) : Bool := fval w = .nan
/-- a < b; false where either is NaN. -/
def flt (a b : F32) : Bool := !fisnan a && !fisnan b && fordZ a < fordZ b
/-- The absolute value. -/
def fabs32 (w : F32) : F32 := w % 2 ^ 31
/-- A value limited to lo..hi; NaN stays. -/
def fclip (x lo hi : F32) : F32 := if flt x lo then lo else if flt hi x then hi else x
/-- The largest magnitude of a list, 0 for none. -/
def fmaxAbs (l : List F32) : F32 := l.foldl (fun m x => let a := fabs32 x; if fisnan x || flt m a then a else m) 0

/-- The dot product in ascending index order with fused multiply-adds. -/
def fdot : List F32 → List F32 → F32 → F32
  | a :: r, b :: t, acc => fdot r t (ffma a b acc)
  | _, _, acc => acc

end Sys2Proof.Machine
end

