-- ==== Sys2Proof/Machine/LaneAlg.lean ====
section
/-!
DEFINITION. The lane algorithm (R144 to R147): left-looking LDLᵀ with pivot replacement, K ADMM iterations, and residuals;
the lane's cycles (R148).
-/
namespace Sys2Proof.Machine

/-- A factor: the columns of L from the diagonal down, and d; with the pivots that R146 replaced. -/
structure Factor where
  cols : List (List F32) := []
  d : List F32 := []
  regs : List Nat := []
  deriving DecidableEq, Repr

/-- Column `j` of the factor from the columns before it. -/
def factorCol (h : List (List F32)) (floor : F32) (n : Nat) (f : Factor) (j : Nat) : Factor :=
  let prev := f.cols.zip f.d
  let entry (i : Nat) : F32 :=
    (prev.zip (List.range j)).foldl (fun acc e =>
      let k := e.2
      ffma (fneg (lget 0 e.1.1 (i - k))) (fmul32 (lget 0 e.1.1 (j - k)) e.1.2) acc) (lget 0 (lget [] h i) j)
  let dj := entry j
  let rep := flt dj floor
  let d := if rep then floor else dj
  { cols := f.cols ++ [fone :: (List.range (n - 1 - j)).map (fun i => fdiv32 (entry (j + 1 + i)) d)]
    d := f.d ++ [d]
    regs := if rep then f.regs ++ [j] else f.regs }

/-- The factor of H. -/
def ldlFactor (h : List (List F32)) (floor : F32) : Factor :=
  (List.range h.length).foldl (factorCol h floor h.length) {}

/-- Forward substitution with unit lower L: column entries applied in ascending order. -/
def fwdSolve (cols : List (List F32)) (r : List F32) : List F32 :=
  (List.range r.length).foldl (fun y i =>
    let acc := (List.range i).foldl (fun a k => ffma (fneg (lget 0 (lget [] cols k) (i - k))) (lget 0 y k) a) (lget 0 r i)
    y ++ [acc]) []

/-- Back substitution with Lᵀ. -/
def backSolve (cols : List (List F32)) (w : List F32) : List F32 :=
  (List.range w.length).foldl (fun x t =>
    let i := w.length - 1 - t
    let c := (lget [] cols i).drop 1
    (((c.zip x).foldl (fun a e => ffma (fneg e.1) e.2 a) (lget 0 w i))) :: x) []

/-- The solution of LDLᵀ·x = r. -/
def ldlSolve (f : Factor) (r : List F32) : List F32 :=
  backSolve f.cols (((fwdSolve f.cols r).zip f.d).map (fun e => fdiv32 e.1 e.2))

/-- A matrix given by rows times a vector. -/
def matMul (m : List (List F32)) (x : List F32) : List F32 := m.map (fun r => fdot r x 0)
/-- The transpose of a matrix given by rows times a vector, over rows in ascending order. -/
def matTMul (m : List (List F32)) (n : Nat) (y : List F32) : List F32 :=
  (List.range n).map (fun j => (m.zip y).foldl (fun a e => ffma (lget 0 e.1 j) e.2 a) 0)

/-- The iterate of a problem. -/
structure Iter where
  x : List F32
  z : List F32
  ax : List F32
  y : List F32
  zprev : List F32
  deriving DecidableEq, Repr

/-- The parameters of a class that a lane uses, from the qp.define_class payload. -/
structure LanePar where
  k : Nat := 1
  rhoR : Nat := 0
  rho : F32 := 0
  sigma : F32 := 0
  alpha : F32 := 0
  deltaExp : Nat := 20
  deriving DecidableEq, Repr

/-- Elementwise. -/
def zipF (f : F32 → F32 → F32) (a b : List F32) : List F32 := (a.zip b).map (fun e => f e.1 e.2)

/-- One ADMM iteration (R144). -/
def admmStep (p : QpData) (q : LanePar) (f : Factor) (t : Iter) : Iter :=
  let n := p.x0.length
  let rinv := fdiv32 fone q.rho
  let oma := fsub fone q.alpha
  let rzy := zipF (fun z y => ffma q.rho z (fneg y)) t.z t.y
  let r := zipF fadd (zipF (fun x g => ffma q.sigma x (fneg g)) t.x p.g) (matTMul p.a n rzy)
  let x1 := ldlSolve f r
  let xt := (List.range q.rhoR).foldl (fun x _ => zipF fadd x (ldlSolve f (zipF fsub r (matMul p.h x)))) x1
  let zt := matMul p.a xt
  let mix (a b : F32) : F32 := ffma q.alpha a (fmul32 oma b)
  let x' := zipF mix xt t.x
  let ax' := zipF mix zt t.ax
  let zr := zipF mix zt t.z
  let z' := ((zipF (fun a y => ffma y rinv a) zr t.y).zip (p.lo.zip p.hi)).map (fun e => fclip e.1 e.2.1 e.2.2)
  let y' := zipF (fun y d => ffma q.rho d y) t.y (zipF fsub zr z')
  { x := x', z := z', ax := ax', y := y', zprev := t.z }

/-- Whether an iterate is free of Inf and NaN (R147). -/
def Iter.ok (t : Iter) : Bool := t.x.all ffinite && t.z.all ffinite && t.y.all ffinite

/-- Run `k` iterations; the number done, and whether one failed. -/
def admmRun (p : QpData) (q : LanePar) (f : Factor) : Nat → Nat → Iter → Iter × Nat × Bool
  | 0, n, t => (t, n, true)
  | k + 1, n, t =>
    let u := admmStep p q f t
    if u.ok then admmRun p q f k (n + 1) u else (u, n, false)

/-- What a lane puts out: the iterate, the whole iterations done, whether it failed, and the replaced pivots. -/
structure LaneOut where
  x : List F32 := []
  y : List F32 := []
  rPri : F32 := 0
  rDua : F32 := 0
  done : Nat := 0
  ok : Bool := false
  factorOk : Bool := false
  regs : List Nat := []
  deriving DecidableEq, Repr

/-- A problem run for `k` iterations (R144 to R147). -/
def laneRun (p : QpData) (q : LanePar) (k : Nat) : LaneOut :=
  let hmax := fmaxAbs ((List.range p.h.length).map (fun i => lget 0 (lget [] p.h i) i))
  let delta : F32 := (127 - q.deltaExp) * 2 ^ 23
  let f := ldlFactor p.h (fmul32 delta hmax)
  let fok := f.d.all ffinite && f.cols.all (fun c => c.all ffinite)
  let t0 : Iter := { x := p.x0, z := p.z0, ax := p.ax0, y := p.y0, zprev := p.z0 }
  if !fok then { ok := false, regs := f.regs }
  else
    let (t, n, ok) := admmRun p q f k 0 t0
    { x := t.x, y := t.y, rPri := fmaxAbs (zipF fsub t.ax t.z), rDua := fmul32 q.rho (fmaxAbs (zipF fsub t.z t.zprev))
      done := n, ok := ok, factorOk := true, regs := f.regs }

/-- ⌈a/b⌉. -/
def cdiv (a b : Nat) : Nat := (a + b - 1) / b
/-- Cycles of the factor phase (R148). -/
def factorCycles (n : Nat) : Nat := 600 + cdiv (n ^ 3) 24
/-- Cycles of one iteration with its refinement (R148). -/
def iterCycles (n m rhoR : Nat) : Nat :=
  cdiv (n * n) 8 + cdiv (m * n) 4 + 6 * n + 4 * m + 150 + rhoR * (cdiv (n * n) 4 + 2 * n)
/-- T_L (R148). -/
def laneCycles (n m k rhoR : Nat) : Nat := factorCycles n + k * iterCycles n m rhoR
/-- Cycles of an assembly unit (R143). -/
def asmCycles (n m : Nat) : Nat := 400 + cdiv (m * n * n) 512 + cdiv (m * n) 32 + 8 * (n + m)

end Sys2Proof.Machine
end

