-- ==== Sys2Proof/Machine/HostIf.lean ====
section
/-!
DEFINITION. Host accesses: mailbox registers (R45 to R48), BAR2 writes (R43, R47, R375), the event block (R60,
R61), the MSI-X table, TIME reads and latches (R259), HUB control (R409 to R416), the user page (R57), stream
headers (R63) and the generic register write (R41).
-/
namespace Sys2Proof.Machine

/-- The bits of a 32-bit word, lowest first. -/
def wordBits (w : Word) : List Nat := (List.range 32).filter (fun i => w.getLsbD i)

/-- MB_DONE write: writing 1 returns a DONE slot to FREE (R48). -/
def mbDoneWrite (m : Nat) (w : Word) (s : State) : State :=
  (wordBits w).foldl (fun t k => if slotOf t m k = .done then setSlot m k .free t else t) s

/-- MB_STAT write: bits 0 and 1 are write-1-to-clear (table "Mailbox m registers"). -/
def mbStatWrite (m : Nat) (w : Word) (s : State) : State :=
  let b := mbOf s m
  setMb m { b with overrun := b.overrun && !w.getLsbD 0, violation := b.violation && !w.getLsbD 1 } s

/-- MB_DOORBELL write (R45, R46, R55). -/
def doorbell (m : Nat) (w : Word) (s : State) : State :=
  if !s.dev.mbReady || 32 ≤ w.toNat then s else
  let k := w.toNat
  if slotOf s m k = .free then
    let s1 := setSlot m k .posted s
    count 0 0x0101 (setMb m { mbOf s1 m with bells := tset 0 (mbOf s1 m).bells k (now s + 1) } s1)
  else
    let b := mbOf s m
    count 0 0x0102 (setMb m { b with overrun := true, lastOverrun := BitVec.ofNat 5 k,
                                     overrunCount := b.overrunCount + 1 } s)

/-- Whether the staging area is mapped in BAR2 (R375). -/
def stagingMapped (s : State) : Bool := s.dev.mode = .boot && (s.dev.bootsel = 1#2 || s.dev.pcieWait)

/-- Whether the BAR2 layout of R43 applies: from INIT onward (R375). -/
def bar2Live (s : State) : Bool := s.dev.mode ≠ .reset && s.dev.mode ≠ .boot

/-- Whether the host may write the byte at a BAR2 offset (table "BAR2 layout", R47, R375). -/
def bar2Writable (s : State) (a : Nat) : Bool :=
  if !bar2Live s then false
  else if a < 0x100000 then slotOf s (a / 0x20000) (a / 0x1000 % 32) ≠ .posted
  else 0x200000 ≤ a && a < 0x400000 && s.dev.mode ≠ .kickstand

/-- Bytes that the host has put into a ring in its own memory, from the last PROD on. -/
def hostRing (k : Nat) (b : List Byte) (s : State) : State :=
  let h := tget {} s.strm k
  if !h.inHost || h.count = 0 then s
  else { s with host := { s.host with hostRam := (List.range b.length).foldl (fun m i =>
    mset m (h.ringAddr + (64 * h.prod + i) % (64 * h.count)) (b.getD i 0)) s.host.hostRam } }

/-- The fill of a stream (R62). -/
def Stream.fill (h : Stream) : Nat := (h.prod + h.count - h.cons) % h.count

/-- A write of PROD (R63): a value of COUNT or more is ignored and sets PROD_INVALID. -/
def prodWrite (k : Nat) (w : Word) (s : State) : State :=
  if !bar2Live s || s.dev.mode = .kickstand then count 0 0x0104 s else
  let h := tget {} s.strm k
  let h1 := { h with prod := w.toNat, prodInvalid := false }
  let h' := if w.toNat < h.count then { h1 with low := h1.attached && h1.fill ≤ h1.lowWater }
            else { h with prodInvalid := true }
  raiseIf (h'.low && !h.low) (8 + k) { s with strm := tset {} s.strm k h' }

/-- A write of some of the four bytes of PROD (R43, R63). -/
def prodBytes (k o : Nat) (bytes : List Byte) (s : State) : State :=
  let old := leBytes 4 (tget {} s.strm k).prod
  prodWrite k (BitVec.ofNat 32 (leNat (old.take o ++ bytes ++ old.drop (o + bytes.length)))) s

/-- A host write into BAR2: taken where every byte may be written, else dropped and counted (R43, R47). -/
def bar2HostWrite (a : Nat) (bytes : List Byte) (s : State) : State :=
  if s.dev.mode = .reset then s
  else if stagingMapped s then { s with host := { s.host with staging := mwrite s.host.staging a bytes } }
  else if (List.range bytes.length).all (fun i => bar2Writable s (a + i)) then bar2Write a bytes s
  else if a < 0x100000 && bar2Live s then
    let m := a / 0x20000
    count 0 0x0104 (count 0 0x0103 (setMb m { mbOf s m with violation := true } s))
  else if 0x141000 ≤ a && a < 0x141200 && a % 0x40 + bytes.length ≤ 4 then
    prodBytes ((a - 0x141000) / 0x40) (a % 0x40) bytes s
  else count 0 0x0104 s

/-- Whether an event has a source (table "Event sources"): reserved events never become pending. -/
def eventSource (e : Nat) : Bool :=
  !(e = 46 || e = 47 || (52 ≤ e && e ≤ 55) || (61 ≤ e && e ≤ 63) || (68 ≤ e && e ≤ 71) || e = 119)

/-- Clear pending bits; `again` are the sources that occur in the tick of the write (R61). -/
def evtPendWrite (i : Nat) (w again : Word) (s : State) : State :=
  let clr : BitVec 128 := (w.setWidth 128) <<< (32 * i)
  let re : BitVec 128 := (again.setWidth 128) <<< (32 * i)
  let p0 := s.evt.pend
  let s1 := { s with evt := { s.evt with pend := p0 &&& ~~~clr } }
  (wordBits again).foldl (fun t j =>
    let e := 32 * i + j
    if !eventSource e then t
    else if clr.getLsbD e && p0.getLsbD e then
      let t1 := { t with
        evt := { t.evt with pend := t.evt.pend ||| (re &&& BitVec.twoPow 128 e) }
        trc := { t.trc with occurred := t.trc.occurred ||| BitVec.twoPow 128 e } }
      if t.evt.mask.getLsbD e then t1 else fireVector (vectorOf t e) t1
    else raise e t) s1

/-- Clear EVT_LOST bits. -/
def evtLostWrite (i : Nat) (w : Word) (s : State) : State :=
  { s with evt := { s.evt with lost := s.evt.lost &&& ~~~((w.setWidth 128) <<< (32 * i)) } }

/-- Write EVT_MASKi; each pending event that becomes unmasked fires its vector (R60). -/
def evtMaskWrite (i : Nat) (w : Word) (s : State) : State :=
  let old := s.evt.mask
  let keep : BitVec 128 := ~~~((BitVec.allOnes 32).setWidth 128 <<< (32 * i))
  let s1 := { s with evt := { s.evt with mask := (old &&& keep) ||| ((w.setWidth 128) <<< (32 * i)) } }
  (List.range 32).foldl (fun t j =>
    let e := 32 * i + j
    if old.getLsbD e && !w.getLsbD j && t.evt.pend.getLsbD e then fireVector (vectorOf t e) t else t) s1

/-- Write the four EVT_MAP entries of a register; a pending unmasked event that is remapped fires (R60). -/
def evtMapWrite (i : Nat) (w : Word) (s : State) : State :=
  (List.range 4).foldl (fun t j =>
    let e := 4 * i + j
    let v := BitVec.ofNat 8 (w.toNat / 2 ^ (8 * j) % 32)
    if lget 0 t.evt.map e = v then t else
    let t1 := { t with evt := { t.evt with map := lset t.evt.map e v } }
    if t.evt.pend.getLsbD e && !t.evt.mask.getLsbD e then fireVector v.toNat t1 else t1) s

/-- Each vector that is no longer masked and has its pending bit set sends its message (R60). -/
def sendHeld (s : State) : State :=
  (List.range 32).foldl (fun t v =>
    if t.host.pba.getLsbD v && !vectorMasked t v then
      fireVector v { t with host := { t.host with pba := t.host.pba &&& ~~~(BitVec.twoPow 32 v) } }
    else t) s

/-- Write a word of the MSI-X table; a vector that is unmasked with its pending bit set sends its message. -/
def msixWrite (off : Nat) (w : Word) (s : State) : State :=
  sendHeld { s with host := { s.host with msix := mwrite s.host.msix off (leBytes 4 w.toNat) } }

/-- The bits of a byte of the configuration header that a write may change (PCIe type 0 header; R39 gives the BARs). -/
def cfgWritable (o : Nat) : BitVec 8 :=
  if o = 0x04 then 0x46 else if o = 0x05 then 0x05 else if o = 0x0C || o = 0x3C then 0xFF
  else if 0x12 ≤ o && o < 0x18 then 0xFF else if o = 0x1B then 0xFE else if 0x1C ≤ o && o < 0x20 then 0xFF else 0

/-- Write one byte of configuration space: the header, or MSI-X Enable and Function Mask (bits 15 and 14 of the capability's
message control). -/
def cfgByteWrite (o : Nat) (b : Byte) (s : State) : State :=
  if o = Config.msixCap + 3 then { s with host := { s.host with msixOn := b.getLsbD 7, msixMask := b.getLsbD 6 } }
  else { s with host := { s.host with cfg := mset s.host.cfg o (b &&& cfgWritable o) } }

/-- A configuration write of up to four bytes (R430). -/
def cfgWrite (o : Nat) (bytes : List Byte) (s : State) : State :=
  if s.dev.mode = .reset then s
  else sendHeld ((List.range bytes.length).foldl (fun t i => cfgByteWrite (o + i) (bytes.getD i 0) t) s)

/-- HUB registers answer from INIT onward (R416). -/
def hubLive (s : State) : Bool := bar2Live s

/-- Write HUB_CTL (R411). -/
def hubCtl (w : Word) (s : State) : State :=
  if hubLive s then { s with hub := { s.hub with enable := w.getLsbD 0, mirrorEn := w.getLsbD 1 } } else s

/-- Write HUB_PERIOD; a value outside 100 to 1,000,000 is ignored (R409). -/
def hubPeriod (w : Word) (s : State) : State :=
  if hubLive s && 100 ≤ w.toNat && w.toNat ≤ 1000000 then { s with hub := { s.hub with period := w.toNat } } else s

/-- Write HUB_RD; bits [12:0] and values of 0x8_0000 or more are ignored (R412). -/
def hubRd (w : Word) (s : State) : State :=
  if hubLive s && w.toNat < 0x80000 then { s with hub := { s.hub with rd := w.toNat / 0x2000 * 0x2000 } } else s

/-- Write half of HUB_MIRROR; ignored while MIRROR_EN = 1 (R414). -/
def hubMirror (hi : Bool) (w : Word) (s : State) : State :=
  if !hubLive s || s.hub.mirrorEn then s else
  let m := s.hub.mirror.toNat
  let m' := if hi then w.toNat * 2 ^ 32 + m % 2 ^ 32 else m / 2 ^ 32 * 2 ^ 32 + w.toNat
  { s with hub := { s.hub with mirror := BitVec.ofNat 64 m' } }

/-- Capture long time for a read of TIME_LO; a 32-bit read latches the high half (R41, R259). -/
def timeLo (wide : Bool) (s : State) : State :=
  if wide then { s with host := { s.host with lastRead := s.time.long } }
  else { s with time := { s.time with hiSnap := BitVec.ofNat 32 (now s / 2 ^ 32) },
                host := { s.host with lastRead := BitVec.ofNat 64 (now s % 2 ^ 32) } }

/-- Write TIME_LATCH (R259). -/
def timeLatchWrite (w : Word) (s : State) : State :=
  if w.getLsbD 0 then { s with time := { s.time with latch := s.time.long } } else s

/-- Write USR_WIN; ignored while USER_PAGE_EN = 0 (R57). -/
def usrWin (w : Word) (s : State) : State :=
  if s.host.usrEn then { s with host := { s.host with usrWin := BitVec.ofNat 9 w.toNat } } else s

/-- Write USR_GRANT (table "Mailbox m registers", mailbox 0 only). -/
def usrGrant (w : Word) (s : State) : State := { s with host := { s.host with usrGrant := w } }

/-- Write USR_CTL. -/
def usrCtl (w : Word) (s : State) : State := { s with host := { s.host with usrEn := w.getLsbD 0 } }

/-- An aligned 32-bit write to a BAR0 offset (R41): read-only and unlisted offsets ignore it. -/
def bar0Write (o : Nat) (w : Word) (s : State) : State :=
  if s.dev.mode = .reset then s
  else if 0x8000 ≤ o then
    let m := (o - 0x8000) / 0x1000
    let r := o % 0x1000
    if r = 0 then doorbell m w s else if r = 0x00C then mbDoneWrite m w s
    else if r = 0x010 then mbStatWrite m w s
    else if m = 0 && r = 0x100 then usrGrant w s else if m = 0 && r = 0x104 then usrCtl w s else s
  else if o = 0x7800 then usrWin w s
  else if 0x4000 ≤ o && o < 0x4200 then msixWrite (o - 0x4000) w s
  else if o = 0x3000 then hubCtl w s else if o = 0x3004 then hubPeriod w s
  else if o = 0x3010 then hubRd w s else if o = 0x3018 then hubMirror false w s
  else if o = 0x301C then hubMirror true w s
  else if o = 0x2018 then timeLatchWrite w s
  else if 0x1000 ≤ o && o < 0x1010 then evtPendWrite ((o - 0x1000) / 4) w 0 s
  else if 0x1010 ≤ o && o < 0x1020 then evtMaskWrite ((o - 0x1010) / 4) w s
  else if 0x1020 ≤ o && o < 0x1030 then evtLostWrite ((o - 0x1020) / 4) w s
  else if 0x1100 ≤ o && o < 0x1180 then evtMapWrite ((o - 0x1100) / 4) w s
  else s

/-- A register write of any width: BAR0 takes only aligned 32-bit writes (R41), BAR2 any (R43); configuration requests are answered
from link-up (R430). -/
def registerWrite (bar : Bar) (o : Nat) (bytes : List Byte) (s : State) : State :=
  match bar with
  | .bar0 => if bytes.length = 4 && o % 4 = 0 then bar0Write o (BitVec.ofNat 32 (leNat bytes)) s else s
  | .bar2 => bar2HostWrite o bytes s
  | .cfg => cfgWrite o bytes s

/-- The size of a BAR (table "PCIe function configuration"), and of the configuration space of a PCIe function. -/
def barSize : Bar → Nat
  | .bar0 => 0x10000
  | .bar2 => 0x2000000
  | .cfg => 0x1000

/-! The meanings of the rows. -/

/-- MB_DONE_CLEAR (R48). -/
def execMbDoneClear (m : Fin 8) (w : Word) (s : State) : Host.Outcome State Fault Refusal := .next (mbDoneWrite m.val w s)
/-- MB_STAT_CLEAR (R46, R47). -/
def execMbStatClear (m : Fin 8) (w : Word) (s : State) : Host.Outcome State Fault Refusal := .next (mbStatWrite m.val w s)
/-- COMMAND_BUFFER_WRITE (R47). -/
def execCommandBufferWrite (m : Fin 8) (k : Fin 32) (off : BitVec 12) (b : List Byte) (s : State) :
    Host.Outcome State Fault Refusal := .next (bar2HostWrite (cmdBuf m.val k.val + off.toNat) b s)
/-- EVT_PEND_CLEAR (R61). -/
def execEvtPendClear (i : Fin 4) (w again : Word) (s : State) : Host.Outcome State Fault Refusal :=
  .next (evtPendWrite i.val w again s)
/-- EVT_LOST_CLEAR (R61). -/
def execEvtLostClear (i : Fin 4) (w : Word) (s : State) : Host.Outcome State Fault Refusal := .next (evtLostWrite i.val w s)
/-- EVT_MASK_WRITE (R60). -/
def execEvtMaskWrite (i : Fin 4) (w : Word) (s : State) : Host.Outcome State Fault Refusal := .next (evtMaskWrite i.val w s)
/-- EVT_MAP_WRITE (R60). -/
def execEvtMapWrite (i : Fin 32) (w : Word) (s : State) : Host.Outcome State Fault Refusal := .next (evtMapWrite i.val w s)
/-- TIME_LO_READ (R41, R259). -/
def execTimeLoRead (wide : Bool) (s : State) : Host.Outcome State Fault Refusal := .next (timeLo wide s)
/-- TIME_LATCH (R259). -/
def execTimeLatch (w : Word) (s : State) : Host.Outcome State Fault Refusal := .next (timeLatchWrite w s)
/-- HUB_CTL_WRITE (R411). -/
def execHubCtlWrite (w : Word) (s : State) : Host.Outcome State Fault Refusal := .next (hubCtl w s)
/-- HUB_PERIOD_WRITE (R409). -/
def execHubPeriodWrite (w : Word) (s : State) : Host.Outcome State Fault Refusal := .next (hubPeriod w s)
/-- HUB_RD_WRITE (R412). -/
def execHubRdWrite (w : Word) (s : State) : Host.Outcome State Fault Refusal := .next (hubRd w s)
/-- HUB_MIRROR_WRITE (R414). -/
def execHubMirrorWrite (hi : Bool) (w : Word) (s : State) : Host.Outcome State Fault Refusal := .next (hubMirror hi w s)
/-- USR_GRANT_WRITE (R57). -/
def execUsrGrantWrite (w : Word) (s : State) : Host.Outcome State Fault Refusal := .next (usrGrant w s)
/-- USR_CTL_WRITE (R57). -/
def execUsrCtlWrite (w : Word) (s : State) : Host.Outcome State Fault Refusal := .next (usrCtl w s)
/-- USR_WIN_WRITE (R57). -/
def execUsrWinWrite (w : Word) (s : State) : Host.Outcome State Fault Refusal := .next (usrWin w s)
/-- STREAM_PROD_WRITE (R63). -/
def execStreamProdWrite (k : Fin 8) (w : Word) (recs : List Byte) (s : State) : Host.Outcome State Fault Refusal :=
  .next (prodWrite k.val w (hostRing k.val recs s))
/-- REGISTER_WRITE (R10, R41, R43). -/
def execRegisterWrite (bar : Bar) (off : BitVec 32) (b : List Byte) (s : State) : Host.Outcome State Fault Refusal :=
  if barSize bar < off.toNat + b.length then .fault (.noSuchAddress off.toNat)
  else .next (registerWrite bar off.toNat b s)
/-- MB_DOORBELL (R45, R46, R55). -/
def execMbDoorbell (m : Fin 8) (w : Word) (s : State) : Host.Outcome State Fault Refusal := .next (doorbell m.val w s)

end Sys2Proof.Machine
end

