-- ==== Sys2Proof/Machine/Kde.lean ====
section
/-!
DEFINITION. The kinematic and dynamic model (R69, R80 to R85): frames, tool point, Jacobian, inverse dynamics, the
geometric conditions of the group types, and numeric inverse kinematics. All in the group base frame, in units of 2^-80.
-/
namespace Sys2Proof.Machine

/-- A vector. -/
structure V3 where
  x : Fx := 0
  y : Fx := 0
  z : Fx := 0
  deriving DecidableEq, Repr, Inhabited

/-- The sum of vectors. -/
def V3.add (a b : V3) : V3 := ⟨a.x + b.x, a.y + b.y, a.z + b.z⟩
/-- The difference of vectors. -/
def V3.sub (a b : V3) : V3 := ⟨a.x - b.x, a.y - b.y, a.z - b.z⟩
/-- A vector times a number. -/
def V3.smul (k : Fx) (a : V3) : V3 := ⟨fmul k a.x, fmul k a.y, fmul k a.z⟩
/-- The scalar product. -/
def V3.dot (a b : V3) : Fx := (a.x * b.x + a.y * b.y + a.z * b.z) / 2 ^ 80
/-- The vector product. -/
def V3.cross (a b : V3) : V3 :=
  ⟨(a.y * b.z - a.z * b.y) / 2 ^ 80, (a.z * b.x - a.x * b.z) / 2 ^ 80, (a.x * b.y - a.y * b.x) / 2 ^ 80⟩
/-- The length of a vector. -/
def V3.norm (a : V3) : Fx := fsqrt (a.dot a)

/-- A rotation as a unit quaternion. -/
structure Quat where
  w : Fx := 2 ^ 80
  x : Fx := 0
  y : Fx := 0
  z : Fx := 0
  deriving DecidableEq, Repr, Inhabited

/-- The product of quaternions. -/
def Quat.mul (a b : Quat) : Quat :=
  ⟨(a.w * b.w - a.x * b.x - a.y * b.y - a.z * b.z) / 2 ^ 80, (a.w * b.x + a.x * b.w + a.y * b.z - a.z * b.y) / 2 ^ 80,
   (a.w * b.y - a.x * b.z + a.y * b.w + a.z * b.x) / 2 ^ 80, (a.w * b.z + a.x * b.y - a.y * b.x + a.z * b.w) / 2 ^ 80⟩
/-- The inverse rotation. -/
def Quat.conj (a : Quat) : Quat := ⟨a.w, -a.x, -a.y, -a.z⟩
/-- A vector rotated. -/
def Quat.rot (q : Quat) (v : V3) : V3 :=
  let u : V3 := ⟨q.x, q.y, q.z⟩
  let t := (u.cross v).smul (2 * one)
  v.add ((t.smul q.w).add (u.cross t))
/-- The norm of a quaternion. -/
def Quat.norm (a : Quat) : Fx := fsqrt ((a.w * a.w + a.x * a.x + a.y * a.y + a.z * a.z) / 2 ^ 80)
/-- The device normalises every accepted quaternion. -/
def Quat.unit (a : Quat) : Quat := let n := a.norm; ⟨fdiv a.w n, fdiv a.x n, fdiv a.y n, fdiv a.z n⟩
/-- The rotation by an angle about the local z axis. -/
def Quat.aboutZ (t : Fx) : Quat := ⟨fcos (t / 2), 0, 0, fsin (t / 2)⟩

/-- Three FP32 fields as a vector. -/
def v32 (p : List Byte) (o : Nat) : V3 := ⟨f32 (u32 p o), f32 (u32 p (o + 4)), f32 (u32 p (o + 8))⟩
/-- Three FP64 fields as a vector. -/
def v64 (p : List Byte) (o : Nat) : V3 := ⟨f64 (u64 p o), f64 (u64 p (o + 8)), f64 (u64 p (o + 16))⟩
/-- Four FP32 fields as they stand. -/
def q32 (p : List Byte) (o : Nat) : Quat :=
  ⟨f32 (u32 p o), f32 (u32 p (o + 4)), f32 (u32 p (o + 8)), f32 (u32 p (o + 12))⟩
/-- Whether a quaternion field is a number whose norm is within 2^-20 of 1. -/
def quatOk (p : List Byte) (o : Nat) : Bool :=
  (List.range 4).all (fun i => f32Ok (u32 p (o + 4 * i))) && fabs ((q32 p o).norm - one) ≤ 2 ^ 60

/-- A frame: its rotation and origin. -/
structure Frame where
  r : Quat := {}
  p : V3 := {}
  deriving DecidableEq, Repr, Inhabited

/-- A frame in FP32 (R87). -/
def Frame.single (f : Frame) : Frame :=
  ⟨⟨Machine.single f.r.w, Machine.single f.r.x, Machine.single f.r.y, Machine.single f.r.z⟩,
   ⟨Machine.single f.p.x, Machine.single f.p.y, Machine.single f.p.z⟩⟩
/-- A frame placed by a transform from another. -/
def Frame.comp (a b : Frame) : Frame := ⟨a.r.mul b.r, a.p.add (a.r.rot b.p)⟩
/-- The inverse of a frame. -/
def Frame.inv (f : Frame) : Frame := ⟨f.r.conj, f.r.conj.rot (f.p.smul (-one))⟩
/-- The z axis of a frame. -/
def Frame.zAxis (f : Frame) : V3 := f.r.rot ⟨0, 0, one⟩
/-- A point of a frame. -/
def Frame.point (f : Frame) (v : V3) : V3 := f.p.add (f.r.rot v)

/-- The fixed transform of joint `i`. -/
def jFrame (m : List Byte) (i : Nat) : Frame := ⟨(q32 m (jOff i + 16)).unit, v32 m (jOff i + 4)⟩
/-- The joint frames at joint coordinates (R81); each frame is given before and after the joint's own motion. -/
def framesFrom (m : List Byte) : Frame → Nat → List Fx → List (Frame × Frame)
  | _, _, [] => []
  | f, i, q :: r =>
    let a := f.comp (jFrame m i)
    let q' := if mType m = 5 && i = 0 then 0 else q
    let b := if jPrism m i then a.comp ⟨{}, ⟨0, 0, q'⟩⟩ else a.comp ⟨Quat.aboutZ q', {}⟩
    (a, b) :: framesFrom m b (i + 1) r

/-- The joint frames at joint coordinates. -/
def jointFrames (m : List Byte) (q : List Fx) : List (Frame × Frame) := framesFrom m {} 0 q
/-- The flange: the last joint's frame. -/
def flange (m : List Byte) (q : List Fx) : Frame := ((jointFrames m q).getLast?.map (·.2)).getD {}
/-- The tool point. -/
def toolFrame (m : List Byte) (q : List Fx) : Frame := (flange m q).comp ⟨(q32 m 60).unit, v32 m 48⟩
/-- The base of the group in the cell frame. -/
def baseFrame (m : List Byte) : Frame := ⟨(q32 m 32).unit, v64 m 8⟩
/-- The base shifted by the track coordinate of a TRACK_ARM, along its track (R81). -/
def trackBase (m : List Byte) (q0 : Fx) : Frame :=
  let b := baseFrame m
  if mType m = 5 then b.comp ⟨{}, ((jFrame m 0).zAxis).smul q0⟩ else b

/-! Dynamics. -/

/-- A rigid body of a link: mass, centre of mass and inertia about it, in the link frame. -/
structure Body where
  mass : Fx := 0
  com : V3 := {}
  inertia : List Fx := []
  deriving DecidableEq, Repr, Inhabited

/-- Six FP32 inertia fields: xx, yy, zz, xy, xz, yz. -/
def inertiaOf (m : List Byte) (o : Nat) : List Fx := (List.range 6).map (fun k => f32 (u32 m (o + 4 * k)))
/-- An inertia times a vector, in the link frame. -/
def inertiaMul (t : List Fx) (v : V3) : V3 :=
  let e (i : Nat) : Fx := lget 0 t i
  ⟨fmul (e 0) v.x + fmul (e 3) v.y + fmul (e 4) v.z, fmul (e 3) v.x + fmul (e 1) v.y + fmul (e 5) v.z,
   fmul (e 4) v.x + fmul (e 5) v.y + fmul (e 2) v.z⟩

/-- The bodies of link `i`; the payload in use is attached to the flange (R83). -/
def linkBodies (m : List Byte) (pay i : Nat) : List Body :=
  let o := jOff i
  let b : Body := { mass := f32 (u32 m (o + 40)), com := v32 m (o + 44), inertia := inertiaOf m (o + 56) }
  if i + 1 = mJoints m then
    let k := 96 + 40 * pay
    [b, { mass := f32 (u32 m k), com := v32 m (k + 4), inertia := inertiaOf m (k + 16) }]
  else [b]

/-- Motion of a link frame: angular velocity and acceleration, and linear acceleration of its origin. -/
structure LinkMotion where
  w : V3 := {}
  al : V3 := {}
  a : V3 := {}
  o : V3 := {}
  deriving Inhabited

/-- The force and the moment about a point that a body's motion needs. -/
def bodyWrench (f : Frame) (k : LinkMotion) (b : Body) : V3 × V3 :=
  let rc := f.r.rot b.com
  let ac := k.a.add ((k.al.cross rc).add (k.w.cross (k.w.cross rc)))
  let force := ac.smul b.mass
  let loc (v : V3) : V3 := f.r.rot (inertiaMul b.inertia (f.r.conj.rot v))
  let mom := (loc k.al).add (k.w.cross (loc k.w))
  (force, mom.add (rc.cross force))

/-- The recursive Newton–Euler equations from link `i` on: joint torques, and the force and moment passed down about the
origin of the link before (R83). -/
def rneaFrom (m : List Byte) (pay : Nat) : Nat → LinkMotion → List ((Frame × Frame) × Fx × Fx) → List Fx × V3 × V3
  | _, _, [] => ([], {}, {})
  | i, k, ((fa, fb), qd, qdd) :: r =>
    let z := fa.zAxis
    let d := fb.p.sub k.o
    let base := k.a.add ((k.al.cross d).add (k.w.cross (k.w.cross d)))
    let k1 : LinkMotion := if jPrism m i then
        { w := k.w, al := k.al, o := fb.p, a := base.add ((z.smul qdd).add ((k.w.cross (z.smul qd)).smul (2 * one))) }
      else
        { w := k.w.add (z.smul qd), al := k.al.add ((z.smul qdd).add (k.w.cross (z.smul qd))), o := fb.p, a := base }
    let (ts, fo, mo) := rneaFrom m pay (i + 1) k1 r
    let (fs, ms) := (linkBodies m pay i).foldl (fun (e : V3 × V3) b =>
      let (f, n) := bodyWrench fb k1 b
      (e.1.add f, e.2.add n)) (fo, mo)
    ((if jPrism m i then z.dot fs else z.dot ms) :: ts, fs, ms.add (d.cross fs))

/-- Gravity in the base frame. -/
def gravityBase (m : List Byte) : V3 := (q32 m 32).unit.conj.rot (v32 m 76)

/-- Inverse dynamics without friction and rotors; the joints of a FREE group carry their own links alone. -/
def rnea (m : List Byte) (pay : Nat) (q qd qdd : List Fx) (g : V3) : List Fx :=
  let base : LinkMotion := { a := g.smul (-one) }
  if mType m = 6 then
    ((List.range q.length).zip (q.zip (qd.zip qdd))).flatMap (fun e =>
      (rneaFrom m pay e.1 base ((framesFrom m {} e.1 [e.2.1]).zip [e.2.2])).1)
  else (rneaFrom m pay 0 base ((jointFrames m q).zip (qd.zip qdd))).1

/-- The unit vector `i` of length `n`. -/
def unitVec (n i : Nat) : List Fx := (List.range n).map (fun k => if k = i then one else 0)

/-- The mass matrix M(q), row by row, rotors included (R81). -/
def massMatrix (m : List Byte) (pay : Nat) (q : List Fx) : List (List Fx) :=
  let n := mJoints m
  let z := List.replicate n 0
  let cols := (List.range n).map (fun j => rnea m pay q z (unitVec n j) {})
  (List.range n).map (fun i => (List.range n).map (fun j =>
    lget 0 (lget [] cols j) i + if i = j then f32 (u32 m (jOff i + 92)) else 0))

/-- The friction torque of joint `i` (R83). -/
def friction (m : List Byte) (i : Nat) (qd : Fx) : Fx :=
  let o := jOff i
  let vs := f32 (u32 m (o + 88))
  fmul (f32 (u32 m (o + 80))) (clampI (-one) one (fdiv qd vs)) + fmul (f32 (u32 m (o + 84))) qd

/-- The bias torques h(q, q̇) (R81, R83). -/
def biasTorques (m : List Byte) (pay : Nat) (q qd : List Fx) : List Fx :=
  let n := mJoints m
  let t := rnea m pay q qd (List.replicate n 0) (gravityBase m)
  (List.range n).map (fun i => lget 0 t i + friction m i (lget 0 qd i))

/-- The column of the geometric Jacobian of the tool point for joint `i` (R81). -/
def jacobianCol (m : List Byte) (tool : V3) (i : Nat) (f : Frame × Frame) : List Fx :=
  let z := f.1.zAxis
  let l := if jPrism m i then z else z.cross (tool.sub f.2.p)
  let w : V3 := if jPrism m i then {} else z
  [l.x, l.y, l.z, w.x, w.y, w.z]

/-! Inverse kinematics. -/

/-- Solve a small linear system by elimination without pivoting (the damped matrix is positive definite). -/
def solveRows : Nat → List (List Fx) → List Fx
  | 0, _ => []
  | _ + 1, [] => []
  | n + 1, r :: rs =>
    match r with
    | [] => []
    | p :: rt =>
      let red := rs.map (fun row => match row with
        | [] => []
        | h :: t => (t.zip rt).map (fun e => e.1 - fmul (fdiv h p) e.2))
      let sol := solveRows n red
      let known := ((rt.take sol.length).zip sol).foldl (fun acc e => acc + fmul e.1 e.2) 0
      fdiv ((rt.getLast?.getD 0) - known) p :: sol

/-- The pose error of the tool: position, and orientation as twice the vector part of the error quaternion. -/
def poseError (cur tgt : Frame) : List Fx :=
  let d := tgt.p.sub cur.p
  let e := tgt.r.mul cur.r.conj
  let k : Fx := if e.w < 0 then -2 else 2
  [d.x, d.y, d.z, k * e.x, k * e.y, k * e.z]

/-- One damped least-squares step Δq = Jᵀ(JJᵀ + λ²I)⁻¹e (R85). -/
def dlsStep (m : List Byte) (damp : Fx) (tgt : Frame) (q : List Fx) : List Fx :=
  let fs := jointFrames m q
  let tool := toolFrame m q
  let e := poseError tool tgt
  let first := if mType m = 5 then 1 else 0
  let cols := (List.range fs.length).map (fun i =>
    if i < first then List.replicate 6 0 else jacobianCol m tool.p i (lget default fs i))
  let l2 := fmul damp damp
  let rows := (List.range 6).map (fun a => (List.range 6).map (fun b =>
    cols.foldl (fun acc c => acc + fmul (lget 0 c a) (lget 0 c b)) 0 + if a = b then l2 else 0) ++ [lget 0 e a])
  let y := solveRows 6 rows
  (q.zip cols).map (fun p => p.1 + (p.2.zip y).foldl (fun acc c => acc + fmul c.1 c.2) 0)

/-- Damped least-squares steps. -/
def dlsSteps (m : List Byte) (damp : Fx) (tgt : Frame) : Nat → List Fx → List Fx
  | 0, q => q
  | n + 1, q => dlsSteps m damp tgt n (dlsStep m damp tgt q)

/-- Numeric inverse kinematics: exactly IK_ITER steps from the snapshot (R85). -/
def numericIk (m : List Byte) (tgt : Frame) (q : List Fx) : List Fx := dlsSteps m (f32 (u32 m 4)) tgt (mIkIter m) q

/-- The residual of a solution: position in m and orientation in rad. -/
def ikResidual (m : List Byte) (tgt : Frame) (q : List Fx) : Fx × Fx :=
  let e := poseError (toolFrame m q) tgt
  let n (a b c : Nat) : Fx := V3.norm ⟨lget 0 e a, lget 0 e b, lget 0 e c⟩
  (n 0 1 2, n 3 4 5)

/-- Whether a residual is at most 10 µm and 100 µrad (R86). -/
def residualOk (e : Fx × Fx) : Bool := e.1 ≤ one / 100000 && e.2 ≤ one / 10000

/-! The geometric conditions of R69 and R80. -/

/-- Parallel within 10 µrad. -/
def parallel (a b : V3) : Bool := (a.cross b).norm ≤ one / 100000
/-- Perpendicular within 10 µrad. -/
def perpendicular (a b : V3) : Bool := fabs (a.dot b) ≤ one / 100000

/-- The distance of a point from the line through `o` along the unit vector `d`. -/
def lineDist (p : V3) (l : V3 × V3) : Fx := (((p.sub l.1).cross l.2)).norm

/-- The point with the least weighted sum of squared distances from lines. -/
def linesPoint (l : List (V3 × V3)) (w : List Fx) : V3 :=
  let e (i : Nat) (v : V3) : Fx := if i = 0 then v.x else if i = 1 then v.y else v.z
  let eps : Fx := 2 ^ 20
  let o := (lget default l 0).1
  let rows := (List.range 3).map (fun a =>
    let row (b : Nat) : Fx := (l.zip w).foldl (fun t k =>
      t + fmul k.2 ((if a = b then one else 0) - fmul (e a k.1.2) (e b k.1.2))) (if a = b then eps else 0)
    let rhs := (l.zip w).foldl (fun t k =>
      let v := k.1.1.sub (k.1.2.smul (k.1.1.dot k.1.2))
      t + fmul k.2 (e a v)) (fmul eps (e a o))
    (List.range 3).map row ++ [rhs])
  let s := solveRows 3 rows
  ⟨lget 0 s 0, lget 0 s 1, lget 0 s 2⟩

/-- The point whose largest distance from lines is least: weights that follow the distances settle on it. -/
def meetLoop (l : List (V3 × V3)) : Nat → List Fx → V3
  | 0, w => linesPoint l w
  | n + 1, w =>
    let p := linesPoint l w
    let u := (l.zip w).map (fun e => fmul e.2 (lineDist p e.1))
    let t := u.foldl (· + ·) 0
    if t = 0 then p else meetLoop l n (u.map (fun x => fdiv x t))

/-- The point nearest to all of some lines. -/
def meetPoint (l : List (V3 × V3)) : V3 := meetLoop l 200 (l.map (fun _ => one))

/-- Whether some point lies within 1 µm of each of three lines (R80). -/
def axesMeet (l : List (V3 × V3)) : Bool := l.all (fun e => lineDist (meetPoint l) e ≤ one / 1000000)

/-- The joint axes as lines at joint coordinates 0. -/
def axisLines (m : List Byte) : List (V3 × V3) :=
  (jointFrames m (List.replicate (mJoints m) 0)).map (fun f => (f.1.p, f.1.zAxis))

/-- Whether an arm of joints from `k` on qualifies for analytic inverse kinematics (R80). -/
def armQualifies (m : List Byte) (k : Nat) : Bool :=
  let l := axisLines m
  let z (i : Nat) : V3 := (lget default l (k + i)).2
  mJoints m = k + 6 && (List.range 6).all (fun i => !jPrism m (k + i))
    && axesMeet ((l.drop (k + 3)).take 3) && parallel (z 1) (z 2) && perpendicular (z 0) (z 1)

/-- The geometry that a group type requires (table "Group types"). -/
def geometryOk (m : List Byte) : Bool :=
  let n := mJoints m
  let z (i : Nat) : V3 := (lget default (axisLines m) i).2
  let prism := ((List.range n).takeWhile (jPrism m)).length
  match mType m with
  | 1 => true
  | 2 => 2 ≤ n && (prism = 2 || prism = 3) && n ≤ prism + 3 && (List.range n).all (fun i => i < prism || !jPrism m i)
      && perpendicular (z 0) (z 1) && (prism = 2 || (perpendicular (z 0) (z 2) && perpendicular (z 1) (z 2)))
  | 3 => n = 4 && !jPrism m 0 && !jPrism m 1 && jPrism m 2 && !jPrism m 3
      && parallel (z 0) (z 1) && parallel (z 0) (z 2) && parallel (z 0) (z 3)
  | 4 => n ≤ 3 && (List.range n).all (fun i => !jPrism m i)
  | 5 => 2 ≤ n && jPrism m 0
  | _ => true

/-- Whether analytic inverse kinematics exists for a model (table "Group types"). -/
def analyticOk (m : List Byte) : Bool :=
  match mType m with
  | 1 => armQualifies m 0
  | 2 => true
  | 3 => true
  | 4 => mJoints m ≤ 2
  | 5 => armQualifies m 1
  | _ => false

/-- Whether a group runs numeric inverse kinematics (R80). -/
def runsNumeric (m : List Byte) : Bool := mIkMode m = 3 || (mIkMode m = 1 && !analyticOk m)

/-- The cycles of a group's KDE task (R82). -/
def kdeCycles (m : List Byte) : Nat :=
  let n := mJoints m
  let nik := if mType m = 5 then n - 1 else n
  if mType m = 6 then 100 + 60 * n
  else 900 + 630 * n + 40 * n * n
    + (if mIkMode m = 0 then 0 else if runsNumeric m then mIkIter m * (400 + 150 * nik) else 1800)

/-- The task type of a group's KDE task. -/
def kdeType (m : List Byte) : Nat :=
  if mType m = 6 then 0x21 else if mIkMode m = 0 then 0x22 else if runsNumeric m then 0x24 else 0x23

end Sys2Proof.Machine
end

