-- ==== Sys2Proof/Machine/Stp.lean ====
section
/-!
DEFINITION. Step axes: profiles in pin time (R347, R352), command records and pulses (R345, R348, R349), enable and
HOLD (R351), stops (R353), homing (R355, R356) and the stp commands. Positions are step counts in units of 2^-80.
-/
namespace Sys2Proof.Machine

/-- Something that makes STP_q pending and is latched in CAUSE. -/
def stpEvent (n : Nat) (cause : BitVec 8) (s : State) : State :=
  let x := stpOf s n
  raise (92 + n / 4) (setStp n { x with cause := x.cause ||| cause } s)

/-- A change of state, with its event. -/
def stpGo (n : Nat) (st : StpState) (s : State) : State :=
  let x := stpOf s n
  if x.state = st then s else stpEvent n 0x01 (stpPut n { x with state := st } s)

/-- POS_SUSPECT is set (R350): event and record. -/
def stpSuspect (n : Nat) (s : State) : State :=
  stpEvent n 0x10 (journal 0x11 0x02 1 n 0 [] (setStp n { stpOf s n with suspect := true } s))

/-- The step count at a profile position: edges stand at the half steps (R348). -/
def countAt (p : Fx) : Int := (p + 2 ^ 79) / 2 ^ 80

/-- The profile's state at an instant of pin time. -/
def stpAt (x : StpAxis) (t : Nat) : Kin :=
  match x.prof with
  | none => ⟨x.cmdP, 0, 0⟩
  | some (t0, p0, pf) => let k := pf.at (secOfNs ((t : Int) - t0)); ⟨p0 + k.x, k.v, k.a⟩

/-- Replace the profile at an instant. -/
def stpPlan (x : StpAxis) (t : Nat) (pf : Prof) : StpAxis :=
  { x with prof := some (t, (stpAt x t).x, pf) }

/-- Carry out one waiting command of an axis at its time; stops come before moves at one instant (R353). -/
def stpApply (x : StpAxis) (c : StpCmd) : StpAxis :=
  let k := stpAt x c.at'
  if c.stop then
    let pf := planStop k x.lim
    { stpPlan x c.at' pf with target := countAt (k.x + pf.d), speed := one, next := some .stopping }
  else
    { stpPlan x c.at' (planTo k (c.target * one) (x.lim.scaled c.speed)) with
      target := c.target, speed := c.speed, next := some .moving }

/-- The waiting commands in the order in which they act. -/
def stpSorted (q : List StpCmd) : List StpCmd :=
  q.mergeSort (fun a b => a.at' < b.at' || (a.at' = b.at' && ((a.stop && !b.stop) || (a.stop = b.stop && a.seq ≤ b.seq))))

/-- The axis after every waiting command due before `t`. -/
def stpAhead (x : StpAxis) (t : Nat) : StpAxis :=
  ((stpSorted x.queue).filter (fun c => c.at' ≤ t)).foldl (fun y c =>
    if c.stop || y.next ≠ some .stopping then stpApply y c else y) x

/-- A move that a stop preempts: record with its tag, event (R36, R353). -/
def stpPreempt (n : Nat) (c : StpCmd) (s : State) : State :=
  stpEvent n 0x08 (journal 0x11 0x01 1 n c.at' (leBytes 2 c.tag) s)

/-- Remove the moves that a stop at `t` preempts (R353). -/
def stpDropMoves (n t : Nat) (s : State) : State :=
  let x := stpOf s n
  let gone := x.queue.filter (fun c => !c.stop && t ≤ c.at')
  gone.foldl (fun u c => stpPreempt n c u)
    (setStp n { x with queue := x.queue.filter (fun c => c.stop || c.at' < t) } s)

/-- A stop ends a homing sequence with reason ABORTED (R129, R355). -/
def stpAbort (n : Nat) (s : State) : State :=
  let x := stpOf s n
  if x.home = .none then s else stpEvent n 0x04 (setStp n { x with home := .none, homed := false, homeReason := 5 } s)

/-- A ramp stop from instant `t` (R353). -/
def stpRamp (n t : Nat) (s : State) : State :=
  let x := stpOf s n
  if x.state = .moving || x.state = .homing || x.next = some .moving then
    let s1 := stpAbort n (stpDropMoves n t s)
    let y := stpOf s1 n
    stpEvent n 0x02 (setStp n { y with queue := y.queue ++ [{ stop := true, at' := t }] } s1)
  else if x.state = .ready then stpDropMoves n t s
  else s

/-- An immediate stop (R349, R350, R353): no further pulse, POS_SUSPECT set; with `off` ENA goes inactive and the axis to DISABLED. -/
def stpImmediate (n : Nat) (off : Bool) (s : State) : State :=
  let x := stpOf s n
  if x.state = .unconfigured || x.state = .safe || x.state = .disabled then s else
  let s1 := stpAbort n (stpDropMoves n 0 s)
  let y := stpOf s1 n
  let p := y.emitted * one
  let s2 := stpPut n { y with
    prof := none, cmdP := p, cmdV := 0, cmdA := 0, pos := p, target := y.emitted, sent := none, segment := none
    discarded := y.discarded + BitVec.ofNat 32 y.late.length, late := [], queue := [], next := none, home := .none
    ena := y.ena && !off } s1
  let s3 := stpGo n (if off then .disabled else .ready) s2
  stpSuspect n (stpEvent n 0x02 (count 141 0x0F04 s3))

/-- A stop of group `g` reaches the step axes whose STOP_MASK names it (R353); `t` is the next cadence start. -/
def stpGroupStop (g cat t : Nat) (s : State) : State :=
  forNat ((List.range 16).filter (fun n => (stpOf s n).stopMask.getLsbD g && (stpOf s n).state ≠ .unconfigured))
    (fun n u => if cat = 0 then stpImmediate n true u else stpRamp n t u) s

/-! Die M: the record of the next segment (R348). -/

/-- A homing failure of a step axis (R129, R355): READY and not homed. -/
def stpHomeFail (n reason t : Nat) (s : State) : State :=
  let x := stpOf s n
  stpEvent n 0x04 (setStp n { x with
    homeReason := reason, homed := false, home := .none, queue := x.queue ++ [{ stop := true, at' := t }] } s)

/-- Move a homing axis towards a point far enough that it keeps V_SEARCH over SEARCH_DIST. -/
def stpSearch (x : StpAxis) (t : Nat) (neg : Bool) : StpAxis :=
  let k := stpAt x t
  let l := x.lim.withV x.vSearch
  let far := (x.searchDist + 2) * one + (planStop ⟨0, x.vSearch, 0⟩ l).d
  { stpPlan x t (planTo k (if neg then k.x - far else k.x + far) l) with homeStart := k.x }

/-- Whether travel limits bind a step axis (R355). -/
def stpBound (x : StpAxis) : Bool := x.homeMode = 0 || x.homed

/-- The motion under way, planned anew at an instant under the limits in force (R102). -/
def stpReplan (x : StpAxis) (t : Nat) : StpAxis :=
  let t := max t ((x.prof.map (·.1)).getD t)
  let k := stpAt x t
  if x.prof = none then x
  else match x.home with
    | .search => { stpSearch x t (if x.homeRev then x.homeDir = 0 else x.homeDir = 1) with homeStart := x.homeStart }
    | .toHome => stpPlan x t (planTo k (x.homePos * one) (x.lim.withV x.vSearch))
    | .none => if x.state = .moving then stpPlan x t (planTo k (x.target * one) (x.lim.scaled x.speed))
        else stpPlan x t (planStop k x.lim)
    | _ => stpPlan x t (planStop k x.lim)

/-- The homing sequence at a compute end, for the segment from `t` on (R355). -/
def stpHomeTick (n t : Nat) (s : State) : State :=
  let x := stpOf s n
  let k := stpAt x t
  let rest : Bool := match x.prof with
    | none => true
    | some (t0, _, pf) => pf.dur ≤ secOfNs ((t : Int) - t0)
  match x.home with
  | .none => s
  | .search => if x.searchDist * one ≤ fabs (k.x - x.homeStart) then stpHomeFail n 0x03 t s else s
  | .reverse => if rest then setStp n { stpSearch x t (x.homeDir = 0) with home := .search, homeRev := true } s else s
  | .rest =>
    if !rest then s
    else match x.latch with
      | none => setStp n { stpSearch x t (x.homeDir = 1) with home := .search } s
      | some _ => setStp n { stpPlan x t (planTo k (x.homePos * one) (x.lim.withV x.vSearch)) with
          home := .toHome, target := x.homePos } s
  | .toHome =>
    if rest then stpEvent n 0x01 (setStp n { x with
      home := .none, homed := true, suspect := false, homeReason := 0, next := some .ready } s) else s

/-- A latched point becomes HOME_POS: every position moves by the same number of steps (R355). -/
def stpShift (x : StpAxis) (d : Int) : StpAxis :=
  { x with
    cmdP := x.cmdP + d * one, pos := x.pos + d * one, emitted := x.emitted + d, target := x.target + d
    prof := x.prof.map (fun e => (e.1, e.2.1 + d * one, e.2.2)), homeStart := x.homeStart + d * one
    sent := x.sent.map (fun r => { r with pEnd := r.pEnd + d * one })
    segment := x.segment.map (fun r => { r with pEnd := r.pEnd + d * one }) }

/-- Die M evaluates every step axis at the next two cadence starts `c1` and `c2` and sends a record (R348). -/
def stpCompute (c1 c2 : Nat) (s : State) : State :=
  forNat ((tkeys s.stp).filter (fun n => (stpOf s n).state ≠ .unconfigured && (stpOf s n).state ≠ .safe)) (fun n t =>
    let s1 := stpHomeTick n c1 t
    let x0 := stpOf s1 n
    let due := x0.queue.filter (fun c => c.at' < c2)
    let x1 := { stpAhead x0 (c2 - 1) with queue := x0.queue.filter (fun c => c2 ≤ c.at') }
    let k1 := stpAt x0 c1
    let k2 := stpAt x1 c2
    let start := match (stpSorted due).head? with
      | some c => if c1 < c.at' && k1.v = 0 then some (c.at' - c1) else none
      | none => none
    let vStart := match start with
      | some d => (stpAt x1 (c1 + d)).v
      | none => (stpAt x1 c1).v
    let lead := x1.queue.any (fun c => c.at' ≤ c2 + 1000000 * x1.holdLead)
    let hold := x1.hold && due = [] && !lead && x1.home = .none
    let rest : Bool := match x1.prof with
      | none => true
      | some (t0, _, pf) => pf.dur ≤ secOfNs ((c1 : Int) - t0)
    let nx := match x1.next with
      | some v => some v
      | none => if rest && (x1.state = .moving || x1.state = .stopping) then some StpState.ready else none
    setStp n { x1 with
      sent := some { pEnd := divEven k2.x (2 ^ 48) * 2 ^ 48, vStart := f32 (toF32 vStart), start := start, ena := x1.ena, hold := hold }
      next := nx, cmdP := k1.x, cmdV := k1.v, cmdA := k1.a
      prof := if rest then none else x1.prof } s1) s

/-- Die F receives the records (R348). -/
def stpRecords (s : State) : State :=
  if !xlinkCarries s || s.io.safe ≠ 0 then s
  else { s with stp := s.stp.map (fun e => (e.1, { e.2 with segment := e.2.sent, sent := none })) }

/-! Die F: pulses (R345, R348, R349). -/

/-- The instants, in ns after the segment start, at which p crosses half steps between parameters of one monotone
piece of p₀ + b·u + c·u². `m` is the number of crossings left. -/
def crossTimes (p0 b c : Fx) (u0 len : Fx) (up : Bool) (tNs : Nat) : Nat → Int → List (Int × Bool)
  | 0, _ => []
  | m + 1, n =>
    let h := if up then n * one + 2 ^ 79 else n * one - 2 ^ 79
    let d := h - p0
    -- the root of c·u² + b·u = d on this piece, from the rationalised formula
    let disc := fsqrt (fmul b b + 4 * fmul c d)
    let q := if up then b + disc else b - disc
    let w := if q = 0 then u0 + len else fdiv (2 * d) q
    let u := clampI u0 (u0 + len) w
    let t := divEven (u * tNs) (5 * 2 ^ 80) * 5
    (t, up) :: crossTimes p0 b c u0 len up tNs m (if up then n + 1 else n - 1)

/-- The crossings of a segment in order: p(u) = p₀ + v₀T′u + (p₁ − p₀ − v₀T′)u² (R348). -/
def segCrossings (p0 p1 v0 : Fx) (tNs : Nat) : List (Int × Bool) :=
  let b := fmul v0 (secOfNs tNs)
  let c := p1 - p0 - b
  let us := if c = 0 then one else fdiv (-b) (2 * c)
  let piece (u0 u1 : Fx) : List (Int × Bool) :=
    let at' (u : Fx) : Fx := p0 + fmul b u + fmul c (fmul u u)
    let n0 := countAt (if u0 = 0 then p0 else at' u0)
    let n1 := countAt (if u1 = one then p1 else at' u1)
    crossTimes p0 b c u0 (u1 - u0) (n0 < n1) tNs (n1 - n0).natAbs n0
  if 0 < us && us < one then piece 0 us ++ piece us one else piece 0 one

/-- The earliest instant of an edge after the last one: pulse period, and DIR hold and setup at a reversal (R345). -/
def edgeGap (x : StpAxis) (up : Bool) : Nat :=
  let g := max 250 (x.pulseNs + 100)
  if x.dir = up then g else max g (200 + x.dirSetupNs)

/-- Emit the edges of a segment that lasts from `t0` to `t1` (R349); a pulse that is not emitted at its instant counts once
as delayed, `again` for those that the segment before left. -/
def emitEdges (again : Bool) (t0 t1 : Nat) (x : StpAxis) : List (Int × Bool) → StpAxis
  | [] => x
  | (t, up) :: r =>
    let want := (t0 : Int) + t
    let e : Int := max want (x.lastEdge + edgeGap x up : Nat)
    let next := (t1 : Int) ≤ e || x.late ≠ []
    let y := { x with delayed := if !again && (next || want < e) then x.delayed + 1 else x.delayed }
    emitEdges again t0 t1 (if next then { y with late := x.late ++ [up] }
      else { y with emitted := if up then x.emitted + 1 else x.emitted - 1, dir := up, lastEdge := e.toNat }) r

/-- Die F runs the segment that begins at `t` and lasts `len`, for axis `n` (R348, R349). -/
def stpSegment (t len n : Nat) (s : State) : State :=
  let x := stpOf s n
  match x.segment with
  | none => s
  | some r =>
    let old := x.late.map (fun up => ((0 : Int), up))
    let ofs := r.start.getD 0
    let x0 := { x with late := [], hold := r.hold, dir := x.dir }
    let x1 := emitEdges true t (t + len) x0 old
    let x2 := emitEdges false (t + ofs) (t + len) x1 (segCrossings x.pos r.pEnd r.vStart (len - ofs))
    let n0 := (x2.emitted - x.emitted).natAbs
    let s1 := stpPut n { x2 with pos := r.pEnd, segment := none } s
    let s2 := countN 141 0x0F01 n0 (countN 141 0x0F02 (x2.delayed - x.delayed).toNat (count 141 0x0F03 s1))
    if n0 = 0 then s2 else emit .pin (256 + n) (fields [(4, sn 4 (x2.emitted - x.emitted))]) s2

/-- What changes on the step axes at cadence start `t`: the states of the segments that begin, limits that R103
deferred, standstill, and the pulses of the segment (R348, R351). -/
def stpCadence (t len : Nat) (s : State) : State :=
  forNat ((tkeys s.stp).filter (fun n => (stpOf s n).state ≠ .unconfigured && (stpOf s n).state ≠ .safe)) (fun n u =>
    let x := stpOf u n
    let u1 := match x.next with
      | some v => stpGo n v (setStp n { x with next := none } u)
      | none => u
    let y := stpOf u1 n
    let k := stpAt y t
    let (l, df, took) := match y.deferredLim with
      | some d => let r := restPoint k d
                  if !stpBound y || inTravel one d r then (d, none, true) else (y.lim, some d, false)
      | none => (y.lim, none, false)
    let y1 := { y with
      cmdP := k.x, cmdV := k.v, cmdA := k.a, lim := l, deferredLim := df
      zeroSince := if k.v = 0 && y.ena then some (y.zeroSince.getD t) else none }
    let y2 := if took then stpReplan y1 t else y1
    stpSegment t len n (setStp n y2 u1)) s

/-- STP_HOLD_ASSERT: the commanded velocity has been 0 for HOLD_DELAY (R351). -/
def stpHold (n : Nat) (s : State) : State :=
  let x := stpOf s n
  match x.zeroSince with
  | some t =>
    if x.state = .ready && x.holdDelay ≠ 0 && !x.hold && x.late = [] && x.queue = [] then
      stpPut n { x with hold := true } (advanceTo (t + 1000000 * x.holdDelay) s)
    else s
  | none => s

/-! Inputs (R127, R355, R356). -/

/-- Whether an input has bad quality (R338). -/
def inputBad (s : State) (c : Nat) : Bool := c < 32 && (fgOf s (c / 8)).badSeen

/-- The limit input of a step axis in a direction, if it is active. -/
def stpLimit (s : State) (x : StpAxis) (neg : Bool) : Bool :=
  if neg then inputActive s x.quals x.limN x.inPol 2 else inputActive s x.quals x.limP x.inPol 1

/-- A qualified input acts on homing step axis `n` (R355); `t` is the start of the next segment. -/
def stpInput (c t n : Nat) (s : State) : State :=
  let x := stpOf s n
  let neg := x.homeDir = 1
  let limCh := if neg then x.limN else x.limP
  let edge := qualEdge x.quals c
  let stop (y : StpAxis) : StpAxis := stpPlan y t (planStop (stpAt y t) y.lim)
  let latch (y : StpAxis) : StpAxis :=
    let pt := countAt (stpAt y edge).x
    { stop (stpShift y (y.homePos - pt)) with latch := some pt, home := .rest }
  if x.home = .search then
    if x.homeMode = 1 && c = x.homeCh then
      if inputActive s x.quals c x.inPol 0 then (if x.homeRev then s else setStp n (latch x) s)
      else if x.homeRev then setStp n { stop x with home := .rest, homeRev := false, latch := none } s
      else s
    else if c = limCh && stpLimit s x neg && !x.homeRev then
      if x.homeMode = 2 then setStp n (latch x) s
      else setStp n { stop x with home := .reverse } s
    else if x.homeRev && ((neg && c = x.limP && stpLimit s x false) || (!neg && c = x.limN && stpLimit s x true)) then
      stpHomeFail n 0x01 t s
    else s
  else s

/-- A limit input stops step axis `n` outside homing, while the commanded velocity points towards it (R356); `t` is the start of
the next segment. -/
def stpLimitStop (t n : Nat) (s : State) : State :=
  let x := stpOf s n
  if (x.state = .moving || x.state = .stopping) && x.home = .none
      && ((0 < x.cmdV && stpLimit s x false) || (x.cmdV < 0 && stpLimit s x true)) then
    if x.limitImmediate then stpImmediate n false s
    else if x.state = .moving && !x.queue.any (fun c => c.stop && c.at' ≤ t) && x.next ≠ some .stopping then stpRamp n t s else s
  else s

/-! Commands. -/

/-- State codes (table "Step axis states"). -/
def StpState.code : StpState → Nat
  | .unconfigured => 0 | .disabled => 1 | .ready => 2 | .moving => 3 | .homing => 4 | .stopping => 5 | .safe => 6

/-- STATE of completions of stp commands. -/
def stpStateOf (o : Nat) (s : State) : Nat := (stpOf s o).state.code

/-- The largest V_MAX that R346 allows for a pulse width. -/
def stpVmax (pulse : Nat) : Fx := min (4000000 * one) (frac 1000000000 (max 250 (pulse + 100)))

/-- A channel field: 0 to 31, or 0xFF for none. -/
def chField (b : Nat) : Bool := b < 32 || b = 0xFF

/-- stp.configure. The homing fields are checked only where HOME_MODE uses them. -/
def stpConfigureSpec : CmdSpec where
  opcode := 0x1001
  lenOk n _ := n = 48
  objOk := objBelow 16
  stateOf := stpStateOf
  body c s :=
    let p := c.p
    let n := c.h.object
    let x := stpOf s n
    let hm := u8 p 3
    let search := hm = 1 || hm = 2
    { bad := [(1 < u8 p 0 || 16 ≤ u8 p 1 || 1 < u8 p 2 || 3 < hm || 8 ≤ u8 p 7 || (search && 1 < u8 p 9) || 1 < u8 p 10
                || u8 p 11 ≠ 0 || !zeroAt p 26 2, .badArg),
              (!chField (u8 p 4) || !chField (u8 p 5) || !chField (u8 p 6) || 16 < u8 p 8
                || u16 p 12 < 100 || 10000 < u16 p 12 || u16 p 14 < 200 || 10000 < u16 p 14 || 10000 < u32 p 16
                || 1000 < u16 p 20 || 1000 < u16 p 22 || stpVmax (u16 p 12) < x.lim.v
                || (search && (!f32Pos (u32 p 28) || x.lim.v < f32 (u32 p 28) || i64 p 32 ≤ 0)), .outOfRange),
              (x.state ≠ .unconfigured && x.state ≠ .disabled, .stateConflict)]
      act := fun t =>
        let y := { x with
          se5v := u8 p 0 = 1, pol := BitVec.ofNat 4 (u8 p 1), enaSafe := u8 p 2 = 1, homeMode := hm
          homeCh := u8 p 4, limP := u8 p 5, limN := u8 p 6, inPol := u8 p 7, tQ := u8 p 8, homeDir := u8 p 9
          limitImmediate := u8 p 10 = 1, pulseNs := u16 p 12, dirSetupNs := u16 p 14, holdDelay := u32 p 16
          holdLead := u16 p 20, enaDelay := u16 p 22, stopMask := BitVec.ofNat 16 (u16 p 24)
          vSearch := f32 (u32 p 28), searchDist := i64 p 32, homePos := i64 p 40
          homed := x.homed && x.homeMode = hm }
        { s := stpGo n .disabled (stpPut n y t) } }

/-- A stp command with no payload that takes effect at a cadence start. -/
def stpSimple (op : Nat) (ok : StpAxis → State → Bool) : CmdSpec where
  opcode := op
  objOk := objBelow 16
  conf := stpConf
  stateOf := stpStateOf
  kind _ _ _ := .cadence
  body c s := { bad := [(!ok (stpOf s c.h.object) s, .stateConflict)], act := later c }

/-- stp.enable (R351). -/
def stpEnableSpec : CmdSpec := stpSimple 0x1002 (fun x _ => x.state = .disabled)
/-- stp.disable. -/
def stpDisableSpec : CmdSpec := stpSimple 0x1003 (fun x _ => x.state = .ready)
/-- stp.clear: once io.release_safe has taken effect (R354). -/
def stpClearSpec : CmdSpec := stpSimple 0x1008 (fun x s => x.state = .safe && s.io.safe = 0)

/-- t_a of R352: the first cadence start after the compute end that follows admission. -/
def stpTa (s : State) : Nat := startFrom s 1 (nextComputeEnd s)

/-- The promise time of R352, on the 20 ns grid. -/
def stpPromise (s : State) (x : StpAxis) (tr : Nat) : Nat :=
  let ta := stpTa s
  ceilTo 20 (max (max ta tr) (max (x.enaAt + 1000000 * x.enaDelay) (if x.hold then ta + 1000000 * x.holdLead else ta)))

/-- stp.move (R352). -/
def stpMoveSpec : CmdSpec where
  opcode := 0x1004
  lenOk n _ := n = 16
  objOk := objBelow 16
  conf := stpConf
  stateOf := stpStateOf
  kind h _ s := .at (stpPromise s (stpOf s h.object) h.reqTime)
  body c s :=
    let p := c.p
    let n := c.h.object
    let x := stpOf s n
    let y := stpAhead x c.promise
    let tgt := if u8 p 12 = 1 then y.target + i64 p 0 else i64 p 0
    let k := stpAt y c.promise
    let free := stpBound x
    let dir := tgt - countAt (stpAt x (now s)).x
    { bad := [(1 < u8 p 12 || !zeroAt p 13 3, .badArg),
              (!f32Pos (u32 p 8) || !f32In (u32 p 8) 0 one, .outOfRange),
              (free && (tgt < x.lim.tmin || x.lim.tmax < tgt), .outOfRange),
              ((0 < dir && stpLimit s x false) || (dir < 0 && stpLimit s x true), .outOfRange),
              ((x.state ≠ .ready && x.state ≠ .moving) || !free, .stateConflict)]
      act := fun t =>
        let sp := f32 (u32 p 8)
        let pf := planTo k (tgt * one) (x.lim.scaled sp)
        { s := setStp n { x with queue := x.queue ++ [{ target := tgt, speed := sp, tag := c.h.tag, at' := c.promise, seq := t.admitSeq }] } t
          res := leBytes 8 ((c.promise : Int) + nsOfSec pf.dur).toNat } }

/-- stp.stop (R353): RAMP is a timed action, IMMEDIATE takes effect at a cadence start. -/
def stpStopSpec : CmdSpec where
  opcode := 0x1005
  lenOk n _ := n = 4
  objOk := objBelow 16
  conf := stpConf
  stateOf := stpStateOf
  kind h p s := if u8 p 0 = 1 then .cadence else .at (stpPromise s (stpOf s h.object) h.reqTime)
  body c s :=
    let n := c.h.object
    let x := stpOf s n
    { bad := [(1 < u8 c.p 0 || !zeroAt c.p 1 3, .badArg),
              (x.state ≠ .moving && x.state ≠ .homing && x.state ≠ .stopping, .stateConflict)]
      act := fun t => if u8 c.p 0 = 1 then later c t else { s := stpRamp n c.promise t } }

/-- stp.home (R355). -/
def stpHomeSpec : CmdSpec where
  opcode := 0x1006
  objOk := objBelow 16
  conf := stpConf
  stateOf := stpStateOf
  kind _ _ _ := .cadence
  body c s :=
    let x := stpOf s c.h.object
    let isIn (k : Nat) : Bool := k < 32 && (chanOf s k).role = 1
    let ok := x.homeMode = 3 || (x.homeMode = 1 && isIn x.homeCh)
      || (x.homeMode = 2 && isIn (if x.homeDir = 1 then x.limN else x.limP))
    { bad := [(!ok, .notConfigured), (x.state ≠ .ready, .stateConflict)], act := later c }

/-- What a stp command does at its cadence start `t`. -/
def stpEff (t : Nat) (e : Eff) (s : State) : State :=
  let n := e.object
  let x := stpOf s n
  if e.opcode = 0x1002 then
    if x.state = .disabled then stpGo n .ready (stpPut n { x with ena := true, enaAt := t } s) else s
  else if e.opcode = 0x1003 then
    if x.state = .ready then stpGo n .disabled (stpPut n { x with ena := false, hold := false, queue := [] } s) else s
  else if e.opcode = 0x1005 then
    if x.state = .moving || x.state = .homing || x.state = .stopping then stpImmediate n false s else s
  else if e.opcode = 0x1006 then
    if x.state ≠ .ready then s
    else if x.homeMode = 3 then
      stpEvent n 0x01 (setStp n { stpShift x (x.homePos - x.emitted) with homed := true, suspect := false, homeReason := 0 } s)
    else
      -- the first segment that die M has yet to send, after ENA_DELAY and HOLD_LEAD (R351)
      let u := ceilTo 20 (max (t + s.cad.len) (max (x.enaAt + 1000000 * x.enaDelay) (if x.hold then t + s.cad.len + 1000000 * x.holdLead else 0)))
      stpGo n .homing (setStp n { stpSearch x u (x.homeDir = 1) with
        home := .search, homeRev := false, latch := none, homed := false, homeReason := 0 } s)
  else if e.opcode = 0x1008 then
    if x.state = .safe && s.io.safe = 0 then stpGo n .disabled (stpPut n { x with ena := false, hold := false } s) else s
  else if e.opcode = 0x1007 then
    let new := newLimits e.p x.lim
    let k := stpAt x t
    let df := (bitOf (u32 e.p 0) 2 || bitOf (u32 e.p 0) 3) && stpBound x && !inTravel one new (restPoint k new)
    let l := if df then keepOld x.lim new else new
    setStp n (stpReplan { x with lim := l, deferredLim := if df then some new else none } t) s
  else s

/-- stp.set_limits: as axis.set_limits, in steps (R103, R346, R347). -/
def stpSetLimitsSpec : CmdSpec where
  opcode := 0x1007
  lenOk n _ := n = 48
  objOk := objBelow 16
  conf := stpConf
  stateOf := stpStateOf
  kind _ _ _ := .cadence
  body c s :=
    let x := stpOf s c.h.object
    let y := stpAhead x c.promise
    let k := stpAt y c.promise
    let new := newLimits c.p x.lim
    let miss := bitOf (u32 c.p 0) 4 && !(inTravel one new k.x && inTravel one new (y.target * one)
      && inTravel one new (restPoint k x.lim))
    let df := (bitOf (u32 c.p 0) 2 || bitOf (u32 c.p 0) 3) && stpBound x && !inTravel one new (restPoint k new)
    { bad := [(limBadArg c.p x.lim, .badArg), (limRange c.p (stpVmax x.pulseNs) || miss, .outOfRange),
              (x.state = .unconfigured, .stateConflict)]
      act := fun t => { s := post c t, res := fields [(1, b2n df), (7, 0)], adjusted := df } }

/-- stp.status: CAUSE is cleared by the read. -/
def stpStatusSpec : CmdSpec where
  opcode := 0x1009
  objOk := objBelow 16
  stateOf := stpStateOf
  inFault _ := true
  body c s :=
    let n := c.h.object
    let x := stpOf s n
    { act := fun t =>
        { s := setStp n { x with cause := 0 } t
          res := fields [(1, x.state.code), (1, flagAt x.ena 0 + flagAt x.hold 1 + flagAt x.dir 2 + flagAt x.homed 3
              + flagAt x.suspect 4 + flagAt x.deferredLim.isSome 5), (1, x.homeReason), (1, x.cause.toNat),
            (4, x.discarded.toNat), (8, sn 8 x.emitted), (8, sn 8 x.target), (4, toF32 x.cmdV), (4, x.delayed.toNat)] } }

/-! The meanings of the rows. -/

/-- STP_CONFIGURE (R344). -/
def execStpConfigure (c : CmdRef) (s : State) : Host.Outcome State Fault Refusal := .next (runCmd stpConfigureSpec c s)
/-- STP_ENABLE (R351). -/
def execStpEnable (c : CmdRef) (s : State) : Host.Outcome State Fault Refusal := .next (runCmd stpEnableSpec c s)
/-- STP_DISABLE (R351). -/
def execStpDisable (c : CmdRef) (s : State) : Host.Outcome State Fault Refusal := .next (runCmd stpDisableSpec c s)
/-- STP_MOVE (R352). -/
def execStpMove (c : CmdRef) (s : State) : Host.Outcome State Fault Refusal := .next (runCmd stpMoveSpec c s)
/-- STP_STOP (R353). -/
def execStpStop (c : CmdRef) (s : State) : Host.Outcome State Fault Refusal := .next (runCmd stpStopSpec c s)
/-- STP_HOME (R355). -/
def execStpHome (c : CmdRef) (s : State) : Host.Outcome State Fault Refusal := .next (runCmd stpHomeSpec c s)
/-- STP_SET_LIMITS (R347). -/
def execStpSetLimits (c : CmdRef) (s : State) : Host.Outcome State Fault Refusal := .next (runCmd stpSetLimitsSpec c s)
/-- STP_CLEAR (R354). -/
def execStpClear (c : CmdRef) (s : State) : Host.Outcome State Fault Refusal := .next (runCmd stpClearSpec c s)
/-- STP_STATUS (R350). -/
def execStpStatus (c : CmdRef) (s : State) : Host.Outcome State Fault Refusal := .next (runCmd stpStatusSpec c s)
/-- STEP_COMMAND_RECORD (R348). -/
def execStepCommandRecord (s : State) : Host.Outcome State Fault Refusal := .next (stpRecords s)
/-- STP_HOLD_ASSERT (R351). -/
def execStpHoldAssert (n : Fin 16) (s : State) : Host.Outcome State Fault Refusal := .next (stpHold n.val s)

end Sys2Proof.Machine
end

