-- ==== Sys2Proof/Machine/Motion.lean ====
section
/-!
DEFINITION. Group motion: the time scale (R111, R112), synchronised moves, queue and blending (R106 to R108), quintic
sampling (R109, R110), group states and events (R71, R72), stops (R73, R76, R113, R369), faults, and stream underruns
(R120, R121). Path-time quantities are in units of 2^-80.
-/
namespace Sys2Proof.Machine

/-! The time scale. -/

/-- A piece of the time scale's motion: acceleration and duration. -/
abbrev Lam := List (Fx × Fx)

/-- The fastest change of the time scale from (x, v) to rest at g, with |v| ≤ vm and |acceleration| ≤ am (R111). -/
def lamPlan (x v g vm am : Fx) : Lam :=
  let stop := x + fdiv (fmul v (fabs v)) (2 * am)
  let d : Int := if stop ≤ g then 1 else -1
  let v' := d * v
  let dist := d * (g - x)
  let pk := fsqrt (fmul am dist + fmul v' v' / 2)
  if pk ≤ vm then [(d * am, fdiv (pk - v') am), (-(d * am), fdiv pk am)]
  else
    let t2 := fdiv (dist - fdiv (2 * fmul vm vm - fmul v' v') (2 * am)) vm
    [(d * am, fdiv (vm - v') am), (0, t2), (-(d * am), fdiv vm am)]

/-- Run a plan for a time: position and velocity; at rest at the goal once it is over. -/
def lamRun (g : Fx) : Lam → Fx → Fx → Fx → Fx × Fx
  | [], _, _, _ => (g, 0)
  | (a, t) :: r, x, v, dt =>
    if dt < t then (x + fmul v dt + fmul a (fmul dt dt) / 2, v + fmul a dt)
    else lamRun g r (x + fmul v t + fmul a (fmul t t) / 2) (v + fmul a t) (dt - t)

/-- One cadence of the time scale (R111). -/
def lamStep (x v g tr dt : Fx) : Fx × Fx :=
  if x = g && v = 0 then (g, 0)
  else
    let vm := fdiv one tr
    let am := 8 * fmul vm vm
    let (y, w) := lamRun g (lamPlan x v g vm am) x v dt
    (clampI 0 one y, w)

/-- The goal of the time scale (R111). -/
def lamGoal (x : GroupSt) : Fx := if x.holdGoal then 0 else (x.sGov : Int) * 2 ^ 80 / 256

/-! Knots: the state of all joints. -/

/-- The joints of a knot one by one. -/
def Knot.list (k : Knot) : List Kin := (k.p.zip (k.v.zip k.a)).map (fun e => ⟨e.1, e.2.1, e.2.2⟩)
/-- A knot from its joints. -/
def knotOf (l : List Kin) : Knot := { p := l.map (·.x), v := l.map (·.v), a := l.map (·.a) }
/-- A knot at rest at positions. -/
def knotRest (p : List Int) : Knot := { p := p, v := p.map (fun _ => 0), a := p.map (fun _ => 0) }

/-- The number of joints of a group. -/
def jointsOf (x : GroupSt) : Nat := mJoints x.model

/-! Moves (R106 to R108). -/

/-- The smallest of the limits in the ratios of R106. -/
def minRatio (f : Limits → Fx) (l : List (Limits × Fx)) : Fx :=
  ((l.filter (fun e => e.2 ≠ 0)).map (fun e => fdiv (f e.1) (fabs e.2))).foldl min (2 ^ 160)

/-- A move from rest by displacements: one normalised profile for every member (R106). -/
def planRest (lims : List Limits) (ds : List Fx) : Move :=
  let l := lims.zip ds
  if ds.all (· = 0) then { joints := ds.map (fun _ => {}) }
  else
    let s := planProf 0 0 one (minRatio (·.v) l) (minRatio (·.a) l) (minRatio (·.d) l) (minRatio (·.j) l)
    { dur := s.dur, joints := ds.map (fun d => s.scale d) }

/-- Limits scaled for one member of a REPLACE move (R106). -/
def stretchProf (k : Kin) (target : Fx) (l : Limits) (tsync : Fx) : Prof :=
  let p := planTo k target l
  if p.dur = 0 || tsync - p.dur ≤ one / 2000000000 then p
  else
    let c := (List.range 64).foldl (fun (e : Fx × Fx) _ =>
      let m := (e.1 + e.2) / 2
      if tsync ≤ (planTo k target (l.scaled m)).dur then (m, e.2) else (e.1, m)) ((1 : Fx), one)
    planTo k target (l.scaled c.1)

/-- A REPLACE move from the path-time state of the members (R106). -/
def planReplace (ks : List Kin) (targets : List Fx) (lims : List Limits) : Move :=
  let l := ks.zip (targets.zip lims)
  let ps := l.map (fun e => planTo e.1 e.2.1 e.2.2)
  let t := ps.foldl (fun m p => max m p.dur) 0
  { dur := t, joints := l.map (fun e => stretchProf e.1 e.2.1 e.2.2 t) }

/-- Whether a group's members are at rest in path time. -/
def restKnot (k : Knot) : Bool := k.v.all (· = 0) && k.a.all (· = 0)

/-- The displacement state of joint `i` of a move at path time `t`; before its start it has none. -/
def Move.at (m : Move) (i : Nat) (t : Fx) : Kin :=
  if m.auto || t < m.start then ⟨0, 0, 0⟩ else (lget {} m.joints i).at (t - m.start)

/-- The end of a move in path time. -/
def Move.fin (m : Move) : Fx := m.start + m.dur

/-- Sum of two states. -/
def Kin.plus (a b : Kin) : Kin := ⟨a.x + b.x, a.v + b.v, a.a + b.a⟩

/-- The path-time state of the joints of a PROFILE group. -/
def movesAt (x : GroupSt) (t : Fx) : Knot :=
  knotOf ((List.range x.base.length).map (fun i =>
    x.moves.foldl (fun k m => k.plus (m.at i t)) ⟨lget 0 x.base i, 0, 0⟩))

/-- One picosecond: what the rounding of computed durations may add to an end that lies on a sample. -/
def endTol : Fx := 2 ^ 40

/-- Starts that follow from a predecessor, at the sample of path time `u` that follows the one of path time `t`: `blend` before
the predecessor's end, or in the cadence after the one at whose sample it had reached its targets (R108). -/
def resolveAuto (t u : Fx) : Option Move → List Move → List Move
  | _, [] => []
  | prev, m :: r =>
    let m' := if !m.auto then m else match prev with
      | none => { m with auto := false, start := u }
      | some p =>
        if p.auto then m
        else if 0 < m.blend then { m with auto := false, start := max p.start (p.fin - m.blend) }
        else if p.fin ≤ t + endTol then { m with auto := false, start := u } else m
    m' :: resolveAuto t u (some m') r

/-- Moves that are over become part of the base. -/
def foldMoves (t : Fx) : List Int → List Move → List Int × List Move
  | b, [] => (b, [])
  | b, m :: r =>
    let keep := match r with
      | n :: _ => n.auto
      | [] => false
    if !m.auto && m.fin ≤ t && !keep then
      foldMoves t ((b.zip m.joints).map (fun e => e.1 + e.2.d)) r
    else (b, m :: r)

/-- The target at which a PROFILE group's motion ends. -/
def finalTarget (x : GroupSt) : List Int :=
  x.moves.foldl (fun b m => (b.zip m.joints).map (fun e => e.1 + e.2.d)) x.base

/-! Quintic sampling (R109). -/

/-- One stage of a plan at u·T after its start, from the knots of one joint. -/
def quintic (k0 k1 : Kin) (tt t : Fx) : Kin :=
  let h := k1.x - k0.x
  let v0 := fmul k0.v tt
  let v1 := fmul k1.v tt
  let a0 := fmul k0.a (fmul tt tt)
  let a1 := fmul k1.a (fmul tt tt)
  let c3 := 10 * h - (6 * v0 + 4 * v1) - (3 * a0 - a1) / 2
  let c4 := -15 * h + (8 * v0 + 7 * v1) + (3 * a0 - 2 * a1) / 2
  let c5 := 6 * h - (3 * v0 + 3 * v1) - (a0 - a1) / 2
  let u := fdiv t tt
  let hor (l : List Fx) : Fx := l.foldl (fun acc c => fmul acc u + c) 0
  { x := hor [c5, c4, c3, a0 / 2, v0, k0.x]
    v := fdiv (hor [5 * c5, 4 * c4, 3 * c3, a0, v0]) tt
    a := fdiv (hor [20 * c5, 12 * c4, 6 * c3, a0]) (fmul tt tt) }

/-- The path-time state of a plan; past its last knot it stands there. -/
def planAt (p : MpcPlan) (t : Fx) : Knot :=
  let dt := t - p.start
  let k := if p.stage = 0 then 0 else (dt / p.stage).toNat
  let last := p.knots.length - 1
  if dt < 0 then lget {} p.knots 0
  else if last ≤ k then knotRest (lget {} p.knots last).p
  else
    let a := (lget {} p.knots k).list
    let b := (lget {} p.knots (k + 1)).list
    knotOf ((a.zip b).map (fun e => quintic e.1 e.2 p.stage (dt - k * p.stage)))

/-- A plan whose first segment begins at the interpolator's own state (R110). -/
def adoptPlan (p : MpcPlan) (now' : Fx) (k : Knot) : MpcPlan :=
  { p with start := now', knots := lset p.knots 0 k }

/-! Group states and events (R71, R72). -/

/-- LAST_EVENT, the event GRP_g and the record of a group event. -/
def grpEvent (g code : Nat) (s : State) : State :=
  raise (16 + g) (modGrp g (fun x => { x with lastEvent := code, eventAt := s.cad.start }) s)

/-- A group takes a state; every change is an event (R72). -/
def grpTo (g : Nat) (st : GrpState) (s : State) : State :=
  let x := grpOf s g
  if x.state = st then s else
  let ev := match st with
    | .fault => 4
    | .stopping => 2
    | _ => if x.state = .stopping then 3 else 1
  grpEvent g ev (setGrp g { x with state := st, stateAt := s.cad.start, settled := false, homeFailed := none } s)

/-- MOTION_PREEMPTED: an admitted motion command is not carried out (R77). -/
def preempted (g tag promise : Nat) (s : State) : State :=
  grpEvent g 5 (journal 0x09 0x05 1 g promise (fields [(2, tag), (8, promise)]) s)

/-- Targets whose effect time falls on or after a stop or fault are not carried out (R77). -/
def lostTargets (s : State) (g : Nat) : List MpcTarget := (grpOf s g).mpcTargets.filter (fun w => s.cad.start ≤ w.promise)
/-- The group without those targets. -/
def dropTargets (g : Nat) (s : State) : State :=
  modGrp g (fun x => { x with mpcTargets := x.mpcTargets.filter (fun w => w.promise < s.cad.start) }) s
/-- The report of the targets that a stop or fault has dropped, after its own transition (R75, R77). -/
def preemptAll (g : Nat) (l : List MpcTarget) (s : State) : State := l.foldl (fun t w => preempted g w.tag w.promise t) s

/-! Streams at their end. -/

/-- The stream that drives a group's motion. -/
def driving (s : State) (g : Nat) : Option Nat := if (grpOf s g).strmRun then (grpOf s g).strm else none

/-- The counts, event and record of an underrun (R121). -/
def underrunMarks (k : Nat) (s : State) : State :=
  let h := tget {} s.strm k
  let g := h.group
  let clk := ((grpOf s g).clock / 2 ^ 32).toNat
  raise (8 + k) (journal 0x0B 0x01 1 k clk (leBytes 8 clk)
    { s with strm := tset {} s.strm k { h with underruns := h.underruns + 1, needsAnchor := true } })

/-- The stream of a group that a fault or a stop takes over stops driving it (R120, R121). -/
def strmTaken (g : Nat) (s : State) : State :=
  match driving s g with
  | some k => underrunMarks k (modGrp g (fun x => { x with strmRun := false, recs := [] }) s)
  | none => s

/-! Stops. -/

/-- The joints' commanded positions as the members hold them. -/
def memberPos (s : State) (g : Nat) : List Int :=
  let x := grpOf s g
  (List.range (jointsOf x)).map (fun i => (axisOf s (jAxis x.model i)).cmdP)

/-- A group at rest keeps nothing of its motion. -/
def resetMotion (g : Nat) (s : State) : State :=
  let b := memberPos s g
  modGrp g (fun x => { x with
    base := b, kin := knotRest b, moves := [], mpcTargets := [], plan := none, nextPlan := none, holdGoal := false
    axisStop := false, strmRun := false, recs := [], lastTarget := [], homePhase := 0 }) s

/-- The axes and step channels of a group stop (R66, R342, R354); `ax`: by their own generators. -/
def idleStop (g cat : Nat) (ax : Bool) (s : State) : State :=
  let s2 := forNat (members s g) (fun a t => stopAxis ax cat a t) s
  stpGroupStop g cat s.cad.start (if cat = 0 then stoGroup g s2 else s2)

/-- The members' part of a stop (R66, R113): path stop, axis stop, or power off. -/
def stopMembers (g cat : Nat) (s : State) : State :=
  let x := grpOf s g
  let ax := x.mpc || x.axisStop || x.state = .enabling
  let s1 := if cat = 0 then s
    else if ax then modGrp g (fun y => { y with axisStop := true, plan := none, nextPlan := none, mpcTargets := [] }) s
    else modGrp g (fun y => { y with holdGoal := true, moves := if cat = 2 then y.moves.filter (fun m => !m.auto && m.start ≤ y.pathTime) else y.moves }) s
  idleStop g cat (ax && cat ≠ 0) s1

/-- The loop shares of the members that are not closed leave the ledger: what grp.enable placed for them lapses (R186). -/
def freeOpen (g : Nat) (s : State) : State :=
  forNat ((members s g).filter (fun a => (axisOf s a).state ≠ .closed && (axisOf s a).state ≠ .stopping)) freeLoop s

/-- A stop of category `cat` begins or replaces one in progress (R72, R76). -/
def beginStop (g cat : Nat) (outcome : GrpState) (s : State) : State :=
  let s1 := strmTaken g (dropTargets g s)
  let s2 := if (grpOf s1 g).state = .homing then modGrp g (fun x => { x with axisStop := true, solved := false }) s1 else s1
  let s3 := stopMembers g cat s2
  let s4 := if (grpOf s g).state = .enabling then freeOpen g s3 else s3
  preemptAll g (lostTargets s g) (grpTo g .stopping (modGrp g (fun x => { x with stopCat := some cat, outcome := outcome }) s4))

/-- A path stop that keeps the motion, or that a stream underrun starts: it ranks below category 2 (R113, R121). -/
def pathStop (g : Nat) (outcome : GrpState) (s : State) : State :=
  grpTo g .stopping (modGrp g (fun x => { x with stopCat := some 3, outcome := outcome, holdGoal := true }) s)

/-- A group enters FAULT (R72, R73): its members carry out the fault stop. A planning-memory error has its own record (R360). -/
def faultGroup (g : Nat) (s : State) : State :=
  let x := grpOf s g
  if x.state = .fault then s
  else
    let cat := x.faultStop
    -- GROUP_FAULT needs a reason of another member (table "Axis fault reasons")
    let byMember := (members s g).any (fun a => (axisOf s a).state = .fault)
    let s1 := strmTaken g (dropTargets g s)
    let s2 := if x.state = .homing then modGrp g (fun y => { y with axisStop := true, solved := false }) s1 else s1
    let s3 := if x.poisoned then s2 else journal 0x09 0x04 2 g 0 [] s2
    let held := stopMembers g cat s3
    let s4 := if cat = 0 then
        stpGroupStop g 0 s.cad.start (stoGroup g (forNat (members s3 g) (fun a t =>
          let y := axisOf t a
          if y.state = .fault || (y.state = .disabled && y.enable.isNone) then t
          else stopAxis false 0 a (if byMember then faultAxis a (reqFault a 0x09 t) else t)) s3))
      else if x.state = .enabling then freeOpen g held else held
    let s5 := forNat (members s4 g) (fun a t =>
      if (axisOf t a).state = .fault then modAxis a (fun y => { y with
        stopCat := some cat, sto := y.sto || cat = 0, faultEnable := y.faultEnable && cat ≠ 0 }) t else t) s4
    preemptAll g (lostTargets s g) (grpTo g .fault (modGrp g (fun y => { y with stopCat := some cat, fault := false }) s5))

/-- Homing ends with a failure reason (R129, R130). -/
def homeFail (g a reason : Nat) (s : State) : State :=
  let x := grpOf s g
  if x.state ≠ .homing then s
  else
    let s1 := modGrp g (fun y => { y with homeReason := reason, homeAxis := a }) s
    let s2 := beginStop g 2 .ready s1
    grpEvent g 7 (journal 0x09 0x07 1 g 0 (fields [(1, reason), (1, a)]) s2)

/-- The first axis whose homing is not finished. -/
def homingAxis (s : State) (g : Nat) : Nat :=
  ((members s g).find? (fun a => (axisOf s a).home ≠ .none && (axisOf s a).home ≠ .done && (axisOf s a).home ≠ .wait)).getD 0xFF

/-- Homing ends by a stop request: reason ABORTED (R129, R130). -/
def homeAbort (g cat : Nat) (out : GrpState) (s : State) : State :=
  let a := homingAxis s g
  grpEvent g 7 (journal 0x09 0x07 1 g 0 (fields [(1, 5), (1, a)])
    (beginStop g cat out (modGrp g (fun y => { y with homeReason := 5, homeAxis := a }) s)))

/-- A stop request of category `cat` reaches a group (R72, R76, R369). -/
def stopGroup (cat g : Nat) (s : State) : State :=
  let x := grpOf s g
  let out : GrpState := if cat = 2 then .ready else .idle
  match x.state with
  | .idle => if cat = 2 then s else idleStop g cat (cat ≠ 0) s
  | .enabling => if cat = 2 then s else beginStop g cat .idle s
  | .ready => if cat = 2 then s else beginStop g cat .idle s
  | .moving => beginStop g cat out s
  | .homing => homeAbort g cat out s
  | .hold => beginStop g cat out s
  | .stopping =>
    if x.stopCat.getD 3 ≤ cat then s
    else
      let s1 := strmTaken g (dropTargets g s)
      let s2 := stopMembers g cat s1
      preemptAll g (lostTargets s g) (modGrp g (fun y => { y with stopCat := some cat, outcome := out }) s2)
  | .fault =>
    if x.stopCat.getD 3 ≤ cat then s
    else modGrp g (fun y => { y with stopCat := some cat }) (stopMembers g cat s)

/-- Members released by R364: with category 1, ENABLE_OP of a faulted member falls when the others are disabled. -/
def releaseFaulted (g : Nat) (s : State) : State :=
  let ms := members s g
  let others := ms.filter (fun a => (axisOf s a).state ≠ .fault)
  if (grpOf s g).stopCat = some 1 && others.all (fun a => (axisOf s a).state = .disabled) then
    forNat ms (fun a t => if (axisOf t a).state = .fault then modAxis a (fun x => { x with faultEnable := false }) t else t) s
  else s

/-- Whether a member's stop is over. -/
def stopDone (outcome : GrpState) (x : AxisSt) : Bool := match outcome with
  | .idle => x.state = .disabled || x.state = .held
  | _ => x.state = .closed && 2 ≤ x.zeroCads

/-- The lane, ASM and selection shares of a group leave the ledger as it enters IDLE (R162). -/
def freeQp (g : Nat) (s : State) : State :=
  freeShares (isQpShare g) s

/-- A group enters IDLE. -/
def toIdle (g : Nat) (s : State) : State := grpTo g .idle (freeQp g (freeOpen g (resetMotion g s)))

/-- Whether the motion of a group has arrived (R115). -/
def arrived (x : GroupSt) : Bool :=
  if x.mpc then !x.strmRun && x.mpcTargets.length ≤ 1 && x.mpcTargets.all (·.begun) && (match x.plan with
      | some p => p.rests
      | none => x.mpcTargets = [])
  else x.moves = [] && x.mpcTargets = [] && !x.strmRun && restKnot x.kin && (x.lastTarget = [] || x.kin.p = x.lastTarget)

/-- A settled group goes to READY (R72, R115). -/
def grpSettle (g : Nat) (s : State) : State :=
  let s1 := modGrp g (fun y => { y with settled := false }) s
  let x := grpOf s1 g
  if !arrived x then s1
  else if x.mpc then grpTo g .ready (modGrp g (fun y => { y with mpcTargets := [], lastTarget := [], recs := [] }) s1)
  else grpTo g .ready (resetMotion g s1)

/-- The transitions of a group that its members' states bring at a cadence start (R72). -/
def groupConditions (g : Nat) (s : State) : State :=
  let x := grpOf s g
  let ms := members s g
  match x.state with
  | .moving => if x.settled then grpSettle g s else s
  | .homing => (match x.homeFailed with
    | some (a, r) => homeFail g a r s
    | none => s)
  | .enabling =>
    if ms.all (fun a => (axisOf s a).state = .closed) then grpTo g .ready (modGrp g (fun y => { y with solved := false }) (resetMotion g s))
    else forNat ms (fun a t => if (axisOf t a).state = .held then toClosed a t else t) s
  | .stopping =>
    let still := x.lambda = 0 || x.axisStop || (x.stopCat.getD 3 < 3)
    if ms.all (fun a => stopDone x.outcome (axisOf s a)) && still then
      match x.outcome with
      | .hold => grpTo g .hold (modGrp g (fun y => { y with stopCat := none }) s)
      | .idle => toIdle g (modGrp g (fun y => { y with stopCat := none }) s)
      | _ => grpTo g .ready (resetMotion g (modGrp g (fun y => { y with stopCat := none }) s))
    else s
  | .fault => releaseFaulted g s
  | _ => s

/-! One cadence of a group's interpolator. -/

/-- Whether the interpolator, and not the members' own generators, moves the group. -/
def interpolates (x : GroupSt) : Bool :=
  x.configured && !x.axisStop && (match x.state with
    | .ready => true
    | .moving => true
    | .stopping => true
    | .hold => true
    | .fault => true
    | _ => false)

/-- The torque feedforward M_s·q̈ + h_s of joint `i` for joint accelerations in axis units (R83). -/
def jointTau (x : GroupSt) (acc : List Fx) (i : Nat) : Fx :=
  let n := jointsOf x
  let t := lget 0 x.hVec i + (List.range n).foldl (fun t j =>
    t + fmul (lget 0 x.mMat (n * i + j)) (jointRate x.model j (lget 0 acc j))) 0
  if jNeg x.model i then -t else t

/-- The axes of joint `i` with their part of its torque feedforward. -/
def tauParts (x : GroupSt) (i : Nat) (ff : Fx) : List (Nat × Fx) :=
  if jDual x.model i then
    let sl := fmul ff (Config.dualShare (jSlave x.model i))
    [(jAxis x.model i, ff - sl), (jSlave x.model i, sl)]
  else [(jAxis x.model i, ff)]

/-- The members take the state of their joint: q′λ and q″λ² + q′·dλ/dt (R112), and the torque feedforward. -/
def driveMembers (g : Nat) (lam rate : Fx) (k : Knot) (s : State) : State :=
  let x := grpOf s g
  let ks := k.list
  let acc := (List.range (jointsOf x)).map (fun i => let e := lget ⟨0, 0, 0⟩ ks i; fmul e.a (fmul lam lam) + fmul e.v rate)
  forNat (List.range (jointsOf x)) (fun i t =>
    let e := lget ⟨0, 0, 0⟩ ks i
    (tauParts x i (jointTau x acc i)).foldl (fun u b =>
      let y := axisOf u b.1
      if y.state = .closed || y.state = .stopping then
        setAxis b.1 { y with cmdP := e.x, cmdV := fmul e.v lam, cmdA := lget 0 acc i, target := e.x, tauFf := b.2 } u
      else u) t) s

/-- The torque feedforward of members that their own generators move (R83). -/
def feedMembers (g : Nat) (s : State) : State :=
  let x := grpOf s g
  let acc := (List.range (jointsOf x)).map (fun i => (axisOf s (jAxis x.model i)).cmdA)
  forNat (List.range (jointsOf x)) (fun i t =>
    (tauParts x i (jointTau x acc i)).foldl (fun u b => modAxis b.1 (fun y => { y with tauFf := b.2 }) u) t) s

/-- The time scale and the path time of a group advance by one cadence (R111). -/
def lamCadence (g : Nat) (s : State) : State :=
  modGrp g (fun x =>
    let dt := secOfNs s.cad.ns
    let (l, r) := lamStep x.lambda x.lambdaRate (lamGoal x) x.tRamp dt
    { x with lambda := l, lambdaRate := r, pathTime := x.pathTime + fmul l dt }) s

/-- One cadence of a PROFILE group's moves, of an MPC group's plan, or of a group at rest. -/
def interpolate (g : Nat) (s : State) : State :=
  let x := grpOf s g
  if !interpolates x then s
  else
    let t := x.pathTime
    let k := if x.mpc then (match x.plan with
        | some p => planAt p t
        | none => knotRest x.base) else movesAt x t
    let (b, ms) := if x.mpc then (x.base, x.moves) else foldMoves t x.base x.moves
    driveMembers g x.lambda x.lambdaRate k (modGrp g (fun y => { y with kin := k, base := b, moves := ms }) s)

/-- The starts of queued moves are settled at a new sample, from the path time `t` of the sample before it (R108). -/
def startMoves (g : Nat) (t : Fx) (s : State) : State := modGrp g (fun x => { x with moves := resolveAuto t x.pathTime none x.moves }) s

/-! Admission of moves. -/

/-- Whether a state keeps the limits of a member (R95); where velocity crosses zero the smaller bound counts (R100). -/
def kinOk (l : Limits) (k : Kin) : Bool :=
  let tol : Fx := 2 ^ 40
  fabs k.v ≤ l.v + tol && fabs k.a ≤ (if fabs k.v ≤ tol then min l.a l.d else if 0 < sgn k.v * sgn k.a then l.a else l.d) + tol

/-- The instants after a state, under constant jerk, at which velocity or acceleration is 0. -/
def zeroTimes (k : Kin) (j : Fx) : List Fx :=
  if j = 0 then (if k.a = 0 then [] else [fdiv (-k.v) k.a])
  else
    let r := fsqrt (fmul k.a k.a - 2 * fmul j k.v)
    [fdiv (-k.a) j, fdiv (-k.a - r) j, fdiv (-k.a + r) j]

/-- The instants at which a profile changes jerk. -/
def breaks (start : Fx) (p : Prof) : List Fx :=
  (p.segs.foldl (fun (acc : Fx × List Fx) g => (acc.1 + g.t, (acc.1 + g.t) :: acc.2)) (start, [start])).2

/-- Whether the sum of two profiles keeps a member's limits wherever both run (R108): at every change of jerk, and where
the summed acceleration or velocity is 0 in between. -/
def overlapOk (l : Limits) (p q : Prof) (ps qs : Fx) : Bool :=
  let sumAt (t : Fx) : Kin := (p.at (t - ps)).plus (q.at (t - qs))
  let fin := ps + p.dur
  let ts := ((breaks ps p ++ breaks qs q).filter (fun t => qs ≤ t && t ≤ fin)).mergeSort (· ≤ ·)
  let pairs := ts.zip (ts.drop 1)
  let jerk (a b : Fx) : Fx := if a = b then 0 else fdiv ((sumAt b).a - (sumAt a).a) (b - a)
  ts.all (fun t => kinOk l (sumAt t)) && pairs.all (fun e =>
    let j := jerk e.1 e.2
    fabs j ≤ l.j + 2 ^ 40 && (zeroTimes (sumAt e.1) j).all (fun z => z ≤ 0 || e.2 - e.1 ≤ z || kinOk l (sumAt (e.1 + z))))

/-- The longest overlap, in whole cadences less than what was asked, that keeps every limit (R108). -/
def blendFit (lims : List Limits) (p n : Move) (t : Fx) : Nat → Fx → Fx
  | 0, _ => 0
  | k + 1, b =>
    if b ≤ 0 then 0
    else if (lims.zip (p.joints.zip n.joints)).all (fun e => overlapOk e.1 e.2.1 e.2.2 0 (p.dur - b)) then b
    else blendFit lims p n t k (b - t)

/-- The predicted start of each move at λ = 1: a BLEND of 0 starts in the cadence after its predecessor has ended (R108). -/
def predictStarts (t0 tcad : Fx) : Option (Fx × Fx) → List Move → List (Fx × Fx)
  | _, [] => []
  | prev, m :: r =>
    let st := if !m.auto then m.start else match prev with
      | none => t0
      | some (_, e) => if 0 < m.blend then e - m.blend else t0 + (e - endTol - t0 + tcad - 1) / tcad * tcad + tcad
    (st, st + m.dur) :: predictStarts t0 tcad (some (st, st + m.dur)) r

end Sys2Proof.Machine
end

