-- ==== Sys2Proof/Machine/Strm.lean ====
section
/-!
DEFINITION. Host streams (R62, R63, R116 to R123): attachment, the records taken in a cadence, the stream clock, the moving
target of PROFILE groups, underruns and the end of a run.
-/
namespace Sys2Proof.Machine

/-- Stream `k`. -/
def strmOf (s : State) (k : Nat) : Stream := tget {} s.strm k
/-- Replace stream `k`. -/
def setStrm (k : Nat) (h : Stream) (s : State) : State := { s with strm := tset {} s.strm k h }

/-- The STATUS word of a stream header. -/
def strmStatus (h : Stream) : Nat :=
  flagAt h.attached 0 + flagAt h.inHost 1 + flagAt h.low 2 + flagAt h.needsAnchor 3 + flagAt h.prodInvalid 4

/-- STATE of the strm commands: the STATUS word (the chapter gives streams no state codes). -/
def strmStateOf (o : Nat) (s : State) : Nat := strmStatus (strmOf s o)

/-- LOW follows the fill; event 8 + k on its rise (R63). -/
def strmLow (k : Nat) (s : State) : State :=
  let h := strmOf s k
  let low := h.attached && h.fill ≤ h.lowWater
  raiseIf (low && !h.low) (8 + k) (setStrm k { h with low := low } s)

/-- A record of a ring (table "Host stream record"), in BAR2 or by DMA in host memory. -/
def ringRec (s : State) (h : Stream) (i : Nat) : StrmRec :=
  let b := mread (if h.inHost then s.host.hostRam else s.host.bar2) (h.ringAddr + 64 * i) 64
  { stamp := u64 b 0, kind := u16 b 8, flags := u16 b 10, seq := u32 b 12, data := b.drop 16 }

/-- Position of joint `i` that a record gives. -/
def StrmRec.pos (r : StrmRec) (i : Nat) : Int := if i < 6 then i64 r.data (8 * i) else i64 r.hi (8 * (i - 6))

/-- Whether a record gives every joint: with 7 or 8 joints AXPOS_HI completes it. -/
def StrmRec.whole (r : StrmRec) (n : Nat) : Bool := r.kind = 1 && (n ≤ 6 || r.hi ≠ [])

/-- Whether a record's kind suits the group (R80, R116). -/
def kindSuits (x : GroupSt) (r : StrmRec) (lastRec : Option StrmRec) : Bool :=
  match r.kind with
  | 0x0001 => true
  | 0x0002 => 6 < jointsOf x && (match lastRec with
    | some l => l.kind = 1 && l.hi = [] && l.stamp = r.stamp
    | none => false)
  | 0x0010 => x.mpc && mIkMode x.model ≠ 0
  | _ => false

/-- Whether a position that a record names lies within its member's travel (R118). -/
def posInTravel (s : State) (g : Nat) (x : GroupSt) (r : StrmRec) : Bool :=
  let n := jointsOf x
  let ok (i : Nat) (p : Int) : Bool := inTravel 1 (jointLim s g i) p
  match r.kind with
  | 0x0001 => (List.range (min n 6)).all (fun i => ok i (i64 r.data (8 * i)))
  | 0x0002 => (List.range (n - 6)).all (fun i => ok (6 + i) (i64 r.data (8 * i)))
  | _ => true

/-- The stream clock in whole nanoseconds, rounded up: a stamp below it is earlier. -/
def clockNs (x : GroupSt) : Nat := ((x.clock + (2 ^ 32 - 1)) / 2 ^ 32).toNat

/-- What taking records has found so far: the held records, whether the run broke (R120), and the discards. -/
structure Took where
  h : Stream
  recs : List StrmRec
  broken : Bool := false
  discarded : Nat := 0
  deriving DecidableEq, Repr

/-- Take one record of the ring: continuity (R120), suitability (R116), lateness, order and travel (R118). -/
def takeRec (s : State) (g : Nat) (x : GroupSt) (t : Took) : Took :=
  let r := ringRec s t.h t.h.cons
  let h := { t.h with cons := (t.h.cons + 1) % t.h.count, lastSeq := some (BitVec.ofNat 32 r.seq) }
  let brk : Bool := match t.h.lastSeq with
    | some q => r.seq ≠ (q + 1).toNat
    | none => false
  let prev := t.recs.getLast?
  let bad : Bool := !kindSuits x r prev || r.stamp < clockNs x
    || (r.kind ≠ 2 && r.stamp ≤ t.h.lastStamp.toNat) || !posInTravel s g x r
  if brk then { t with h := h, broken := true }
  else if bad then { t with h := { h with discards := h.discards + 1 }, discarded := t.discarded + 1 }
  else if r.kind = 2 then
    let l := t.recs.getLast?.getD {}
    { t with h := h, recs := t.recs.dropLast ++ [{ l with hi := r.data, flags := l.flags ||| r.flags }] }
  else { t with h := { h with lastStamp := BitVec.ofNat 64 r.stamp }, recs := t.recs ++ [r] }

/-- Whether the held records end the run. -/
def endHeld (l : List StrmRec) : Bool := match l.getLast? with
  | some r => bitOf r.flags 0
  | none => false

/-- Take up to `n` records, no further than PROD, than a break of SEQ or than a record with END set. -/
def takeRecs (s : State) (g : Nat) (x : GroupSt) : Nat → Took → Took
  | 0, t => t
  | n + 1, t =>
    if t.broken || endHeld t.recs || t.h.cons = t.h.prodSeen then t else takeRecs s g x n (takeRec s g x t)

/-- The records of a stream as one cadence takes them (R62): PROD is read once. -/
def strmFetch (k n : Nat) (s : State) : Took :=
  let h := strmOf s k
  let x := grpOf s h.group
  takeRecs s h.group x n { h := { h with prodSeen := h.prod }, recs := x.recs }

/-- The instant of a record in 2^-32 ns. -/
def recAt (r : StrmRec) : Int := (r.stamp : Int) * 2 ^ 32

/-- The target and slope of the joints of a group at the stream clock (R117, R119). -/
def strmTarget (x : GroupSt) : List (Fx × Fx) :=
  let n := jointsOf x
  let l := x.recs.filter (·.whole n)
  let before := (l.filter (fun r => recAt r ≤ x.clock)).getLast?
  let after := l.find? (fun r => x.clock < recAt r)
  (List.range n).map (fun i => match before, after with
    | some a, some b =>
      let dp := (b.pos i - a.pos i) * 2 ^ 48
      let span := recAt b - recAt a
      (a.pos i * 2 ^ 48 + dp * (x.clock - recAt a) / span, fdiv dp (secOfNs ((b.stamp : Int) - a.stamp)))
    | some a, none => (a.pos i * 2 ^ 48, 0)
    | none, some b => (b.pos i * 2 ^ 48, 0)
    | none, none => (lget 0 x.lastTarget i, 0))

/-- The records that later cadences still need: from the last one at or before the clock. -/
def recsAhead (x : GroupSt) : List StrmRec :=
  let old := x.recs.filter (fun r => recAt r ≤ x.clock)
  old.drop (old.length - 1) ++ x.recs.filter (fun r => x.clock < recAt r)

/-- A member follows for one step `dt` a target that stands at `target` after the step and moves at `slope` (R99, R101, R117): it
plans the fastest motion that meets the target; one that moves faster than the member may is chased at its limits. -/
def chase (k : Kin) (target slope : Fx) (l : Limits) (dt : Fx) : Kin :=
  let ahead := target - fmul slope dt - k.x
  let segs := if fabs slope < l.v then meetSegs k.v k.a ahead slope l.v l.a l.d l.j
    else if 0 ≤ sgn slope * ahead then
      let pre := preSegs k.v k.a l.a l.d l.j
      let e := Kin.run ⟨0, k.v, k.a⟩ pre
      pre ++ veloTo e.v e.a (sgn slope * l.v) l.a l.d l.j
    else planSegs k.v k.a (target - k.x) l.v l.a l.d l.j
  let tot := segTime segs
  let e := Kin.run k (segTake segs dt)
  if dt < tot then e
  else if fabs slope < l.v then ⟨target, slope, 0⟩
  else ⟨e.x + fmul e.v (dt - tot), e.v, 0⟩

/-- One cadence of a PROFILE group that a stream drives, or whose stream's targets are frozen (R117, R121, R123). -/
def strmStep (g : Nat) (s : State) : State :=
  let x := grpOf s g
  let dt := fmul x.lambda (secOfNs s.cad.ns)
  let tg := if x.strmRun then strmTarget x else x.lastTarget.map (fun p => (p, 0))
  let ks := (List.range tg.length).map (fun i =>
    let e := lget (0, 0) tg i
    chase (lget ⟨0, 0, 0⟩ x.kin.list i) e.1 e.2 (jointLim s g i) dt)
  let k := knotOf ks
  driveMembers g x.lambda x.lambdaRate k (modGrp g (fun y => { y with
    kin := k, lastTarget := tg.map (·.1), base := k.p, recs := recsAhead y }) s)

/-- Whether a group's motion comes from a stream or from the targets that one left. -/
def onStream (x : GroupSt) : Bool := !x.mpc && (x.strmRun || x.lastTarget ≠ [])

/-- The stream clock advances like path time, to the apply instant of the setpoint that leaves next (R111, R117). -/
def strmClock (g : Nat) (s : State) : State :=
  modGrp g (fun x => if x.strmRun then { x with clock := x.clock + x.lambda * s.cad.ns * 2 ^ 32 / 2 ^ 80 } else x) s

/-- An underrun while the stream drives motion (R121): a path stop along the last segment. -/
def strmUnderrun (k : Nat) (s : State) : State :=
  let g := (strmOf s k).group
  let s1 := underrunMarks k (modGrp g (fun x => { x with strmRun := false, recs := [] }) s)
  match (grpOf s g).state with
  | .moving => pathStop g .ready s1
  | .hold => pathStop g .ready s1
  | .stopping => modGrp g (fun x => { x with outcome := .ready }) s1
  | _ => s1

/-- The run of a stream ends by END (R123). -/
def strmEnd (k : Nat) (s : State) : State :=
  let h := strmOf s k
  setStrm k { h with needsAnchor := true }
    (modGrp h.group (fun x => { x with strmRun := false }) s)

/-- The take of one stream at a cadence start (R62, R118, R120): at most 12 records a cadence (R251). -/
def strmTake (k : Nat) (s : State) : State :=
  let h := strmOf s k
  if !h.attached || driving s h.group ≠ some k then
    if h.attached then strmLow k (setStrm k { h with prodSeen := h.prod } s) else s
  else
    let t := strmFetch k 12 s
    let s1 := strmLow k (setStrm k t.h (modGrp h.group (fun x => { x with recs := t.recs }) s))
    let x := grpOf s1 h.group
    if t.broken then strmUnderrun k s1
    else if t.recs.any (fun r => x.clock ≤ recAt r) then s1
    else if endHeld t.recs then strmEnd k s1
    else strmUnderrun k s1

/-- Every stream in turn. -/
def strmTakes (s : State) : State := forNat (List.range 8) strmTake s

/-- The largest apply offset of a group's members. -/
def grpApply (s : State) (g : Nat) : Nat := (members s g).foldl (fun m a => max m (applyOf s a)) 0

/-- The result of strm.anchor. -/
def anchorResult (first disc : Nat) : List Byte := fields [(8, first), (4, disc), (4, 0)]

/-- strm.anchor at its effect cadence (R119, R120, R153). -/
def strmAnchorEff (e : Eff) (s : State) : State :=
  let k := e.object
  let h := strmOf s k
  let g := h.group
  let x := grpOf s g
  if !h.attached || x.state ≠ .ready || !h.needsAnchor then
    complete e.mb e.slot .cancelled 0 (strmStateOf k s) (anchorResult 0 0) (preempted g e.tag e.due s)
  else
    let clk := ((e.due + grpApply s g : Nat) : Int) * 2 ^ 32
    let s0 := modGrp g (fun y => { y with clock := clk, recs := [] }) s
    let t := strmFetch k h.count s0
    let st : Status := if e.req ≠ 0 && e.due ≠ e.req then .okAdjusted else .ok
    let first := (t.recs.head?.map (·.stamp)).getD 0
    let done (u : State) : State := complete e.mb e.slot st e.due (strmStateOf k u) (anchorResult first t.discarded) u
    let s1 := strmLow k (setStrm k t.h s0)
    if t.broken || t.recs = [] then done (underrunMarks k s1)
    else
      let s2 := setStrm k { strmOf s1 k with needsAnchor := false } s1
      let b := memberPos s2 g
      done (grpTo g .moving (modGrp g (fun y => { y with
        strmRun := true, recs := t.recs, lastTarget := b, base := b, kin := knotRest b, moves := [] }) s2))

/-- A stream leaves its group; while it drives motion that is an underrun (R120). -/
def detachStrm (k : Nat) (s : State) : State :=
  let h := strmOf s k
  if !h.attached then s
  else
    let s1 := if driving s h.group = some k then strmUnderrun k s else s
    let h1 := strmOf s1 k
    freeShares (fun e => e.type = 0x42 && e.object = k)
      (setStrm k { h1 with attached := false, low := false, needsAnchor := false }
        (modGrp h.group (fun x => { x with strm := none }) s1))

/-- Whether a COUNT suits the place (table "Host stream header"). -/
def countOk (place n : Nat) : Bool :=
  if place = 0 then n = 4096 else (List.range 11).any (fun i => n = 64 * 2 ^ i)

/-- strm.attach (R116). -/
def strmAttachSpec : CmdSpec where
  opcode := 0x0901
  lenOk n _ := n = 24
  objOk := objBelow 8
  stateOf := strmStateOf
  body c s :=
    let p := c.p
    let k := c.h.object
    let g := u8 p 0
    let x := grpOf s g
    let led := regrade s (streamShare k)
    { bad := [(1 < u8 p 1 || !zeroAt p 2 2 || !zeroAt p 12 4 || (u8 p 1 ≤ 1 && !countOk (u8 p 1) (u32 p 4)), .badArg),
              (15 < g || u32 p 4 ≤ u32 p 8, .outOfRange),
              ((strmOf s k).attached || x.strm.isSome || x.state = .fault, .stateConflict), (led.isNone, .notSchedulable)]
      act := fun t =>
        let h := strmOf t k
        { s := setShares (led.getD t.sch.shares) (strmLow k (setStrm k { h with
            prod := 0, prodSeen := 0, cons := 0, count := u32 p 4, lowWater := u32 p 8, attached := true, inHost := u8 p 1 = 1
            low := false, needsAnchor := true, prodInvalid := false, group := g, lastStamp := 0, lastSeq := none
            ringAddr := if u8 p 1 = 1 then u64 p 16 else 0x200000 + k * 0x40000 }
            (modGrp g (fun y => { y with strm := some k }) t))) } }

/-- strm.detach (R120). -/
def strmDetachSpec : CmdSpec where
  opcode := 0x0902
  objOk := objBelow 8
  stateOf := strmStateOf
  kind _ _ _ := .cadence
  body c s :=
    { bad := [(!(strmOf s c.h.object).attached, .stateConflict)]
      act := later c }

/-- strm.anchor (R97, R119): its result is known at the effect cadence. -/
def strmAnchorSpec : CmdSpec where
  opcode := 0x0903
  objOk := objBelow 8
  stateOf := strmStateOf
  kind h _ s := if (grpOf s (strmOf s h.object).group).mpc then .mpc else .cadence
  resMax _ := 16
  body c s :=
    let h := strmOf s c.h.object
    let x := grpOf s h.group
    { bad := [(!h.attached || !h.needsAnchor || x.state ≠ .ready || (x.mpc && !x.solved)
                || (members s h.group).any (fun a => !travelBinds (axisOf s a)), .stateConflict)]
      act := fun t => { s := post c t, later := true } }

/-- STRM_ATTACH (R116). -/
def execStrmAttach (c : CmdRef) (s : State) : Host.Outcome State Fault Refusal := .next (runCmd strmAttachSpec c s)
/-- STRM_DETACH (R120). -/
def execStrmDetach (c : CmdRef) (s : State) : Host.Outcome State Fault Refusal := .next (runCmd strmDetachSpec c s)
/-- STRM_ANCHOR (R119). -/
def execStrmAnchor (c : CmdRef) (s : State) : Host.Outcome State Fault Refusal := .next (runCmd strmAnchorSpec c s)

end Sys2Proof.Machine
end

