-- ==== Sys2Proof/Machine/Geom.lean ====
section
/-!
DEFINITION. Geometry of the shared workspace in the cell frame (R204 to R207): capsules placed by the joint frames, distances
between capsules, boxes, points and spheres, and swept volumes (R214). Lengths are in 2^-80 m.
-/
namespace Sys2Proof.Machine

/-- A capsule in the cell frame. -/
structure Cap where
  a : V3 := {}
  b : V3 := {}
  r : Fx := 0
  deriving DecidableEq, Repr, Inhabited

/-- An object that a group keeps clear of: a capsule or a box. -/
inductive Obj | cap (c : Cap) | box (lo hi : V3)
  deriving DecidableEq, Repr

/-- A value between 0 and 1 of 2^80. -/
def unitI (x : Fx) : Fx := clampI 0 one x

/-- The point of a segment at a parameter. -/
def Cap.at (c : Cap) (t : Fx) : V3 := c.a.add ((c.b.sub c.a).smul t)

/-- The least of a convex function over 0..1, by thirds. -/
def leastOn (f : Fx → Fx) : Nat → Fx → Fx → Fx × Fx
  | 0, lo, hi => let m := (lo + hi) / 2; (f m, m)
  | n + 1, lo, hi =>
    let a := lo + (hi - lo) / 3
    let b := hi - (hi - lo) / 3
    if f a ≤ f b then leastOn f n lo b else leastOn f n a hi

/-- The least value and its place, the ends included. -/
def least01 (f : Fx → Fx) : Fx × Fx :=
  let m := leastOn f 140 0 one
  [(f 0, 0), (f one, one)].foldl (fun (x : Fx × Fx) y => if y.1 < x.1 then y else x) m

/-- The parameter of the point of a segment nearest to `p`. -/
def nearT (c : Cap) (p : V3) : Fx :=
  let d := c.b.sub c.a
  let n := d.dot d
  if n = 0 then 0 else unitI (fdiv ((p.sub c.a).dot d) n)

/-- The distance of a point from a capsule's segment. -/
def segPoint (c : Cap) (p : V3) : Fx := (p.sub (c.at (nearT c p))).norm

/-- The nearest point of a box. -/
def boxPoint (lo hi p : V3) : V3 := ⟨clampI lo.x hi.x p.x, clampI lo.y hi.y p.y, clampI lo.z hi.z p.z⟩

/-- The nearest parameter of a capsule's segment to another object, the distance from it, and the other's nearest point. -/
def nearObj (c : Cap) (o : Obj) : Fx × Fx × V3 :=
  match o with
  | .cap d =>
    let (v, t) := least01 (fun t => segPoint d (c.at t))
    (max 0 (v - c.r - d.r), t, d.at (nearT d (c.at t)))
  | .box lo hi =>
    let (v, t) := least01 (fun t => let p := c.at t; (p.sub (boxPoint lo hi p)).norm)
    (max 0 (v - c.r), t, boxPoint lo hi (c.at t))

/-- The exact distance of a capsule from an object, 0 where they overlap. -/
def objDist (c : Cap) (o : Obj) : Fx := (nearObj c o).1

/-- A distance as a channel uses it (R207): a free value up to 1 mm below the exact one. -/
def used (fr idx : Nat) (d : Fx) : Fx := max 0 (d - clampI 0 (one / 1000) (Config.distErr fr idx))

/-! Capsules of a group. -/

/-- The joint coordinates of axis positions. -/
def coords (m : List Byte) (p : List Fx) : List Fx :=
  (List.range (mJoints m)).map (fun i => jointCoord m i (lget 0 p i))

/-- The base frame and joint frames in the cell frame, at axis positions (R81). -/
def cellFrames (m : List Byte) (p : List Fx) : Frame × List Frame :=
  let q := coords m p
  let b := trackBase m (lget 0 q 0)
  (baseFrame m, (jointFrames m q).map (fun f => b.comp f.2))

/-- Number of capsules of an ssm.set_group payload. -/
def capCount (c : List Byte) : Nat := u8 c 0
/-- Whether a group is monitored (R204). -/
def monitoredCfg (c : List Byte) : Bool := 0 < capCount c
/-- Offset of capsule `i`. -/
def capOff (i : Nat) : Nat := 48 + 32 * i

/-- The active capsules of a configuration with the payload entry in use (R205), by number. -/
def activeCaps (c : List Byte) (pay : Nat) : List Nat :=
  (List.range (capCount c)).filter (fun i => u8 c (capOff i + 1) = 0 || bitOf (u8 c (capOff i + 1)) pay)

/-- Capsule `i` in the cell frame. -/
def capAt (c : List Byte) (fs : Frame × List Frame) (i : Nat) : Cap :=
  let o := capOff i
  let f := if u8 c o = 0xFF then fs.1 else lget {} fs.2 (u8 c o)
  { a := f.point (v32 c (o + 4)), b := f.point (v32 c (o + 16)), r := f32 (u32 c (o + 28)) }

/-- The active capsules of a group at axis positions. -/
def capsAt (m c : List Byte) (pay : Nat) (p : List Fx) : List Cap :=
  let fs := cellFrames m p
  (activeCaps c pay).map (capAt c fs)

/-- A static obstacle as an object (R206); none where the slot is empty. -/
def obstacle (b : List Byte) : Option Obj :=
  match u8 b 0 with
  | 1 => some (.cap { a := v32 b 4, b := v32 b 16, r := f32 (u32 b 28) })
  | 2 => some (.box (v32 b 4) (v32 b 16))
  | _ => none

/-- The box of a zone. -/
def zoneBox (w : List Nat) : Obj :=
  let e (i : Nat) : Fx := f32 (lget 0 w i)
  .box ⟨e 0, e 1, e 2⟩ ⟨e 3, e 4, e 5⟩

/-- The velocity of a point fixed in frame `f` (none: the base) of a group that moves at axis rates (R230). -/
def pointVel (m : List Byte) (p qd : List Fx) (f : Option Nat) (x : V3) : V3 :=
  let q := coords m p
  let b := trackBase m (lget 0 q 0)
  match f with
  | none => {}
  | some k =>
    (((jointFrames m q).zip (List.range (mJoints m))).filter (fun e => e.2 ≤ k)).foldl (fun v e =>
      let before := b.comp e.1.1
      let after := b.comp e.1.2
      let z := before.zAxis
      let w := jointRate m e.2 (lget 0 qd e.2)
      v.add (if jPrism m e.2 then z.smul w else (z.cross (x.sub after.p)).smul w)) {}

/-- The capsule-point speed: the largest over the endpoints of the active capsules (R230). -/
def capSpeed (m c : List Byte) (pay : Nat) (p qd : List Fx) : Fx :=
  let fs := cellFrames m p
  (activeCaps c pay).foldl (fun v i =>
    let k := capAt c fs i
    let f := if u8 c (capOff i) = 0xFF then none else some (u8 c (capOff i))
    max v (max (pointVel m p qd f k.a).norm (pointVel m p qd f k.b).norm)) 0

/-! Motion in force and swept volumes. -/

/-- Path-time state of a group's motion in force at path time `t`. -/
def motionAt (x : GroupSt) (t : Fx) : List Fx :=
  if x.mpc then (match x.plan with
    | some p => (planAt p t).p
    | none => x.base)
  else if x.lastTarget ≠ [] then x.kin.p
  else (movesAt x t).p

/-- The end of a group's motion in force in path time. -/
def motionEnd (x : GroupSt) : Fx :=
  if x.mpc then (match x.plan with
    | some p => p.start + (p.knots.length - 1) * p.stage
    | none => x.pathTime)
  else (resolveAuto x.pathTime x.pathTime none x.moves).foldl (fun t m => max t (m.start + m.dur)) x.pathTime

/-- The capsules that sweep between successive samples: each enlarged by half the larger displacement of its endpoints (R214). -/
def sweepPair (a b : List Cap) : List Cap :=
  (a.zip b).map (fun e => { e.1 with r := e.1.r + max ((e.1.a.sub e.2.a).norm) ((e.1.b.sub e.2.b).norm) / 2 })

/-- The swept volume over samples of axis positions (R214). -/
def sweep (m c : List Byte) (pay : Nat) (l : List (List Fx)) : List Cap :=
  let caps := l.map (capsAt m c pay)
  (caps.zip (caps.drop 1 ++ caps.drop (caps.length - 1))).flatMap (fun e => sweepPair e.1 e.2)

/-- Samples of a span of path time, one each cadence at λ = 1. -/
def spanTimes (t0 span tcad : Fx) : List Fx :=
  (List.range ((span / max 1 tcad).toNat + 1)).map (fun (i : Nat) => t0 + (i : Int) * tcad)

/-- The swept volume of a group's motion in force over a span from now, cut at the motion's end. -/
def sweepInForce (x : GroupSt) (c : List Byte) (t0 span tcad : Fx) : List Cap :=
  let len := max 0 (min span (motionEnd x - t0))
  sweep x.model c x.payloadSel ((spanTimes t0 len tcad).map (motionAt x))

/-- Whether capsules conflict with objects at a clearance: nearer than it, or overlapping (R214, R215); `fr` and `idx` number the free distances. -/
def capsConflict (fr idx : Nat) (clear : Fx) (a : List Cap) (b : List Obj) : Bool :=
  a.any (fun c => b.any (fun o => let d := used fr idx (objDist c o); d < clear || d = 0))

end Sys2Proof.Machine
end

