-- ==== Sys2Proof/Machine/Home.lean ====
section
/-!
DEFINITION. Homing of groups (R124 to R130) and limit inputs outside homing (R132). A homing axis runs on its own generator.
-/
namespace Sys2Proof.Machine

/-- The sign of HOME_DIR. -/
def homeSign (x : AxisSt) : Int := if x.cfg.homeDir = 1 then -1 else 1

/-- A homing axis replans towards a target at a speed. -/
def homeTo (a : Nat) (target v : Fx) (s : State) : State :=
  modAxis a (fun x => retarget target (genLim s a) s.cad.start { x with speed := one, vCap := some v }) s

/-- A search moves so far beyond SEARCH_DIST that it keeps its speed over all of it. -/
def searchFar (x : AxisSt) (sign : Int) (v : Fx) : Fx :=
  x.cmdP + sign * (x.cfg.searchDist * 2 ^ 48 + 2 * fabs (restDist v 0 x.lim.a x.lim.d x.lim.j) + one)

/-- A homing axis takes a step of its sequence. -/
def homeGo (a : Nat) (st : HomeStep) (s : State) : State := modAxis a (fun x => { x with home := st }) s

/-- A search in a direction begins (R124, R128). -/
def homeSearch (a : Nat) (st : HomeStep) (sign : Int) (v : Fx) (s : State) : State :=
  let x := axisOf s a
  homeGo a st (homeTo a (searchFar x sign v) v
    (modAxis a (fun y => { y with homeStart := x.cmdP, homeSeen := st = .reverse && y.homeSeen }) s))

/-- A homing axis comes to rest and then goes on from a step. -/
def homeRest (a : Nat) (st : HomeStep) (s : State) : State := homeGo a st (genStop a s)

/-- The slave of the DUAL joint that axis `a` serves. -/
def slaveOf (s : State) (g a : Nat) : Option Nat :=
  let m := (grpOf s g).model
  ((List.range (mJoints m)).find? (fun i => jDual m i && jAxis m i = a)).map (jSlave m)

/-- O_h grows by `d`, and every position of the axis with it (R96). -/
def shiftHome (a : Nat) (d : Int) (s : State) : State :=
  modAxis a (fun x => { x with
    oh := x.oh + d, actP := x.actP + d, actPrev := x.actPrev + d, cmdP := x.cmdP + d * 2 ^ 48, target := x.target + d * 2 ^ 48
    homeStart := x.homeStart + d * 2 ^ 48, prof := x.prof.map (fun e => (e.1, e.2.1 + d * 2 ^ 48, e.2.2))
    hist := x.hist.map (fun e => (e.1, e.2 + d)) }) s

/-- Whether short time `t` lies at or before `u`. -/
def shortLe (t u : Nat) : Bool := (u + 2 ^ 32 - t) % 2 ^ 32 < 2 ^ 31

/-- The position of an axis at a short time, interpolated between the two records that bracket it (R125); none while the later
one has not come. An edge before the first record kept has its position. -/
def posAt (x : AxisSt) (t : Nat) : Option Int :=
  let pairs := x.hist.zip (x.hist.drop 1)
  match pairs.find? (fun e => shortLe e.1.1 t && shortLe t e.2.1) with
  | some (b, c) =>
    let dt : Nat := (c.1 + 2 ^ 32 - b.1) % 2 ^ 32
    some (if dt = 0 then c.2 else b.2 + divEven ((c.2 - b.2) * (((t + 2 ^ 32 - b.1) % 2 ^ 32 : Nat) : Int)) (dt : Int))
  | none => match x.hist with
    | [] => none
    | h :: _ => if shortLe t h.1 then some h.2 else none

/-- The latched point becomes HOME_POS; the second axis of a DUAL joint takes the same position (R125). -/
def latchPoint (g a : Nat) (point slavePoint : Int) (s : State) : State :=
  let x := axisOf s a
  let s1 := shiftHome a (x.cfg.homePos - point) s
  match slaveOf s g a with
  | some b =>
    let s2 := shiftHome b (x.cfg.homePos - slavePoint) s1
    modAxis b (fun y => { y with cmdP := (axisOf s2 a).cmdP }) s2
  | none => s1

/-- The latch at short time `t` (R125), at position `pt` where that is known; it waits for the records that bracket the
instant, those of a slave included. -/
def latchAt (g a t : Nat) (pt : Option Int) (s : State) : State :=
  let p := match pt with
    | some v => some v
    | none => posAt (axisOf s a) t
  let q := match slaveOf s g a with
    | some b => posAt (axisOf s b) t
    | none => some 0
  match p, q with
  | some u, some v => latchPoint g a u v (modAxis a (fun x => { x with latchEdge := none }) s)
  | _, _ => modAxis a (fun x => { x with latchEdge := some (t, pt) }) s

/-- A latch that waits is tried again (R125). -/
def latchRetry (g a : Nat) (s : State) : State :=
  match (axisOf s a).latchEdge with
  | some (t, pt) => latchAt g a t pt s
  | none => s

/-- An axis of the phase begins to home (R124, R126, R129). -/
def homeBegin (g a : Nat) (s : State) : State :=
  let x := axisOf s a
  let clear (b : Nat) (t : State) : State := modAxis b (fun y => { y with hist := [], latchEdge := none, homeSeen := false }) t
  let s0 := match slaveOf s g a with
    | some b => clear b (clear a s)
    | none => clear a s
  match x.cfg.homeMode with
  | 1 => homeSearch a .search (homeSign x) x.cfg.vSearch s0
  | 2 => homeSearch a .search (homeSign x) x.cfg.vSearch s0
  | 3 =>
    let thr := x.cfg.torqueThr + x.cfg.torqueThr / 4
    homeSearch a .search (homeSign x) x.cfg.vCreep
      (modAxis a (fun y => { y with loop := { y.loop with trqHoming := some y.loop.trqLim, trqDeferred := none, trqLim := thr } }) s0)
  | _ =>
    if !bitOf x.map.last.status 3 then homeFail g a 4 s0
    else
      let d := x.cfg.homePos - x.oh
      let s1 := shiftHome a d s0
      let s2 := match slaveOf s g a with
        | some b => modAxis b (fun y => { y with cmdP := (axisOf s1 a).cmdP })
            (shiftHome b ((axisOf s1 a).actP - (axisOf s1 b).actP) s1)
        | none => s1
      homeGo a .done s2

/-- A homing axis has finished: it is homed, its slave with it. -/
def homeDone (g a : Nat) (s : State) : State :=
  let s1 := modAxis a (fun x => { x with home := .done, homed := true, prof := none, loop := x.loop.unclamp }) s
  match slaveOf s g a with
  | some b => modAxis b (fun x => { x with homed := true }) s1
  | none => s1

/-- What a homing axis does at a cadence start once it rests. -/
def homeAxisTick (g a : Nat) (s : State) : State :=
  let x := axisOf s a
  let rest := match x.prof with
    | some pr => let k := profAt pr s.cad.start; k.v = 0 && k.a = 0 && pr.2.2.dur ≤ secOfNs ((s.cad.start : Int) - pr.1)
    | none => true
  let dir := homeSign x
  if !rest then s
  else match x.home with
    | .restLatched => if x.latchEdge.isSome then s else homeGo a .toHome (homeTo a (x.cfg.homePos * 2 ^ 48) x.cfg.vSearch s)
    | .restLimit => homeSearch a .reverse (-dir) x.cfg.vSearch s
    | .restReverse => homeSearch a .approach dir x.cfg.vSearch s
    | .restIndex => homeSearch a .creep (-dir) x.cfg.vCreep s
    | .toHome => homeDone g a s
    | .backoff => homeDone g a s
    | _ => s

/-- Members with a HOME_MODE; the second axis of a DUAL joint follows the first. -/
def homeMembers (s : State) (g : Nat) : List Nat :=
  let m := (grpOf s g).model
  ((List.range (mJoints m)).map (jAxis m)).filter (fun a => (axisOf s a).cfg.homeMode ≠ 0)

/-- The members of the lowest phase at or above `n` (R124). -/
def nextPhase (s : State) (g n : Nat) : Option Nat :=
  let ps := ((homeMembers s g).map (fun a => (axisOf s a).cfg.homePhase)).filter (n ≤ ·)
  match ps with
  | [] => none
  | p :: r => some (r.foldl min p)

/-- The next phase begins, or homing is complete (R124, R153). -/
def homePhase (g n : Nat) : Nat → State → State
  | 0, s => s
  | fuel + 1, s => match nextPhase s g n with
    | none => if (grpOf s g).state = .homing then
        grpTo g .ready (resetMotion g (modGrp g (fun x => { x with solved := false }) s)) else s
    | some p =>
      let ms := (homeMembers s g).filter (fun a => (axisOf s a).cfg.homePhase = p)
      let s1 := forNat ms (fun a t => if (grpOf t g).state = .homing then homeBegin g a t else t)
        (modGrp g (fun x => { x with homePhase := p }) s)
      let s2 := forNat ms (fun a t => if (axisOf t a).home = .done then homeDone g a t else t) s1
      if (grpOf s2 g).state = .homing && ms.all (fun a => (axisOf s2 a).home = .done) then homePhase g (p + 1) fuel s2 else s2

/-- One cadence of a homing group (R124). -/
def homeCadence (g : Nat) (s : State) : State :=
  if (grpOf s g).state ≠ .homing then s
  else
    let s1 := forNat (homeMembers s g) (homeAxisTick g) s
    let p := (grpOf s1 g).homePhase
    let ms := (homeMembers s1 g).filter (fun a => (axisOf s1 a).cfg.homePhase = p)
    if ms.all (fun a => (axisOf s1 a).home = .done) then homePhase g (p + 1) 9 s1 else s1

/-- grp.home takes effect (R72, R124). -/
def beginHome (g : Nat) (s : State) : State :=
  let s1 := modGrp g (fun x => { x with homeReason := 0, homeAxis := 0xFF, axisStop := true, plan := none, nextPlan := none }) s
  let s2 := forNat (members s1 g) (fun a t => modAxis a (fun x => { x with home := .wait, prof := none }) t) s1
  homePhase g 0 9 (grpTo g .homing s2)

/-- The second axis of a DUAL joint takes the commanded state of the first while generators move the group (R78). -/
def slavesFollow (g : Nat) (s : State) : State :=
  let m := (grpOf s g).model
  forNat ((List.range (mJoints m)).filter (jDual m)) (fun i t =>
    let x := axisOf t (jAxis m i)
    modAxis (jSlave m i) (fun y =>
      if y.state = .closed || y.state = .stopping then { y with cmdP := x.cmdP, cmdV := x.cmdV, cmdA := x.cmdA } else y) t) s

/-- Whether an axis is in the middle of homing. -/
def homing (x : AxisSt) : Bool := x.home ≠ .none && x.home ≠ .done && x.home ≠ .wait

/-- A homing failure detected between cadence starts acts at the next one (R66, R130); the first stands. -/
def homeFailLater (g a reason : Nat) (s : State) : State :=
  modGrp g (fun x => if x.state = .homing && x.homeFailed.isNone then { x with homeFailed := some (a, reason) } else x) s

/-- What homing makes of an accepted feedback record: the history of R125, latches that wait for it, and the index mark of
LIMIT_INDEX. -/
def homeRecord (a : Nat) (s : State) : State :=
  match groupOf s a with
  | none => s
  | some g =>
    if (grpOf s g).state ≠ .homing then s
    else
      let s1 := modAxis a (fun x => { x with hist := (x.hist ++ [(x.sampleAt, x.actP)]).drop (x.hist.length - 4096) }) s
      let x := axisOf s1 a
      let s2 := forNat (homeMembers s1 g) (latchRetry g) s1
      if x.home = .creep && bitOf x.map.last.status 2 then
        homeRest a .restLatched (latchAt g a x.sampleAt (some x.actP) s2)
      else s2

/-- A qualified input acts on a homing axis (R124, R125, R128). -/
def homeInput (g a c : Nat) (s : State) : State :=
  let x := axisOf s a
  let f := x.cfg
  let t := shortOf (qualEdge x.quals c)
  let home := c = f.homeCh && inputActive s x.quals c f.inPol 0
  let homeOff := c = f.homeCh && !inputActive s x.quals c f.inPol 0
  let lim (neg : Bool) : Bool :=
    if neg then c = f.limN && inputActive s x.quals c f.inPol 2 else c = f.limP && inputActive s x.quals c f.inPol 1
  let neg := f.homeDir = 1
  match f.homeMode, x.home with
  | 1, .search =>
    if home then homeRest a .restLatched (latchAt g a t none s) else if lim neg then homeRest a .restLimit s else s
  | 1, .restLimit => if home then modAxis a (fun y => { y with homeSeen := true }) s else s
  | 1, .reverse =>
    if lim (!neg) then homeFailLater g a 1 s
    else if home then modAxis a (fun y => { y with homeSeen := true }) s
    else if homeOff && x.homeSeen then homeRest a .restReverse s else s
  | 1, .approach => if home then homeRest a .restLatched (latchAt g a t none s) else s
  | 2, .search => if lim neg then homeRest a .restIndex s else s
  | _, _ => s

/-- An active limit input in the direction of the commanded velocity (R132). -/
def limitHit (s : State) (x : AxisSt) : Bool :=
  (0 < x.cmdV && inputActive s x.quals x.cfg.limP x.cfg.inPol 1) || (x.cmdV < 0 && inputActive s x.quals x.cfg.limN x.cfg.inPol 2)

/-- A limit input outside homing stops what it guards (R132). -/
def limitStop (a : Nat) (s : State) : State :=
  let x := axisOf s a
  if !limitHit s x then s
  else match groupOf s a with
    | some g => let st := (grpOf s g).state; if st = .moving || st = .stopping || st = .hold then reqStopGrp g 2 s else s
    | none => if x.state = .closed then reqStopAxis a 2 s else s

/-- The axes and step axes that read channel `c` and have not qualified the level that it shows: with T_Q in ms. -/
def readersOf (s : State) (c : Nat) : List (Nat × Nat) × List (Nat × Nat) :=
  let h := chanOf s c
  let ax := (tkeys s.axes).filter (fun a => usesInput s a c && qualLevel (axisOf s a).quals c ≠ h.seen)
  let st := (List.range 16).filter (fun n => let x := stpOf s n
    (c = x.homeCh || c = x.limP || c = x.limN) && qualLevel x.quals c ≠ h.seen)
  (ax.map (fun a => (a, (axisOf s a).cfg.tQ)), st.map (fun n => (n, (stpOf s n).tQ)))

/-- A reader that is an axis takes the level that channel `c` shows (R127), and what follows (R128, R132). -/
def axisQualify (c a : Nat) (s : State) : State :=
  let h := chanOf s c
  let s1 := modAxis a (fun x => { x with quals := setQual x.quals c h.seen h.seenEdge }) s
  match groupOf s1 a with
  | some g =>
    if (grpOf s1 g).state ≠ .homing then limitStop a s1 else if homing (axisOf s1 a) then homeInput g a c s1 else s1
  | none => limitStop a s1

/-- A reader that is a step axis takes the level that channel `c` shows (R127, R355). -/
def stpQualify (c n : Nat) (s : State) : State :=
  let h := chanOf s c
  let s1 := setStp n { stpOf s n with quals := setQual (stpOf s n).quals c h.seen h.seenEdge } s
  stpInput c (startFrom s1 1 (now s1)) n s1

/-- INPUT_QUALIFIED (R127): the level that the channel shows has held for the shortest T_Q of its readers that have yet to
qualify it; every reader whose T_Q is over takes it. -/
def inputQualified (c : Nat) (s : State) : State :=
  let (ax, st) := readersOf s c
  let e := (chanOf s c).seenEdge
  match ax.map (·.2) ++ st.map (·.2) with
  | [] => s
  | t :: r =>
    let s1 := advanceTo (e + 1000000 * r.foldl min t) s
    let due (l : List (Nat × Nat)) : List Nat := (l.filter (fun q => e + 1000000 * q.2 ≤ now s1)).map (·.1)
    forNat (due st) (stpQualify c) (forNat (due ax) (axisQualify c) s1)

/-- CHATTER: no level of an input has held for T_Q within 4 × T_Q of the first bounce (R127). -/
def chatter (c : Nat) (s : State) : State :=
  let ax := (tkeys s.axes).filter (fun a => usesInput s a c && (axisOf s a).cfg.tQ ≠ 0 && homing (axisOf s a))
  let s1 := match ax with
    | a :: _ => (match groupOf s a with
      | some g => homeFailLater g a 2 s
      | none => s)
    | [] => s
  forNat (List.range 16) (fun n t =>
    let x := stpOf t n
    if x.home ≠ .none && x.tQ ≠ 0 && (c = x.homeCh || c = x.limP || c = x.limN) then
      stpHomeFail n 2 (startFrom t 1 (now t)) t else t) s1

/-- Whether a homing axis searches for an edge, an index mark or a torque. -/
def searching (x : AxisSt) : Bool :=
  x.home = .search || x.home = .reverse || x.home = .approach || x.home = .creep

/-- NOT_FOUND: an axis has travelled SEARCH_DIST without what it searches for (R129). -/
def notFound (a : Nat) (s : State) : State :=
  let x := axisOf s a
  match groupOf s a with
  | some g => if searching x && x.cfg.searchDist * 2 ^ 48 ≤ fabs (x.cmdP - x.homeStart) then homeFailLater g a 3 s else s
  | none => s

/-- TRQ_ACT of an axis: the torque field is in units of 2^-TRQ_FRAC (table "Loop formats"). -/
def torqueAct (x : AxisSt) : Fx := x.map.last.torque * 2 ^ 80 / 2 ^ x.loop.trqFrac
/-- VEL_ACT of an axis. -/
def velAct (x : AxisSt) : Fx := x.map.last.velocity * 2 ^ 80 / 2 ^ x.loop.velFrac

/-- HARD_STOP_LATCH: |TRQ_ACT| ≥ TORQUE_THR has held for 5 ms (table "Homing modes"). -/
def hardStopLatch (a : Nat) (s : State) : State :=
  let x := axisOf s a
  match groupOf s a with
  | some g =>
    if x.cfg.homeMode = 3 && x.home = .search && x.cfg.torqueThr ≤ fabs (torqueAct x) then
      let sl := match slaveOf s g a with
        | some b => (axisOf s b).actP
        | none => 0
      let s1 := latchPoint g a x.actP sl s
      homeGo a .backoff (homeTo a (x.cfg.homePos * 2 ^ 48 - homeSign x * x.cfg.backoff) x.cfg.vCreep s1)
    else s
  | none => s

/-- INPUT_QUALIFIED (R127). -/
def execInputQualified (c : Fin 32) (s : State) : Host.Outcome State Fault Refusal := .next (inputQualified c.val s)
/-- CHATTER (R127). -/
def execChatter (c : Fin 32) (s : State) : Host.Outcome State Fault Refusal := .next (chatter c.val s)
/-- NOT_FOUND (R129). -/
def execNotFound (a : Fin 128) (s : State) : Host.Outcome State Fault Refusal := .next (notFound a.val s)
/-- HARD_STOP_LATCH (R124). -/
def execHardStopLatch (a : Fin 128) (s : State) : Host.Outcome State Fault Refusal := .next (hardStopLatch a.val s)
/-- STATION_FRAME (R288). -/
def execStationFrame (seg : Fin 8) (port : Fin 16) (sfd : BitVec 32) (frame : List Byte) (s : State) :
    Host.Outcome State Fault Refusal := .next (stationFrame homeRecord seg.val port.val sfd.toNat frame s)

end Sys2Proof.Machine
end

