-- ==== Sys2Proof/Machine/Sep.lean ====
section
/-!
DEFINITION. Separation monitoring: the occupancy grids (R219, R221 to R223), the distances of both channels (R207, R224,
R232), the protective separation distance and the scale (R225 to R228), speed supervision (R230) and the guard snapshot.
-/
namespace Sys2Proof.Machine

/-- Separation monitoring of group `g`. -/
def ssmOf (s : State) (g : Nat) : SsmGrp := tget {} s.ssm.grp g
/-- Replace it. -/
def setSsm (g : Nat) (x : SsmGrp) (s : State) : State := { s with ssm := { s.ssm with grp := tset {} s.ssm.grp g x } }
/-- Change it. -/
def modSsm (g : Nat) (f : SsmGrp → SsmGrp) (s : State) : State := setSsm g (f (ssmOf s g)) s
/-- Sensor `n`. -/
def sensOf (s : State) (n : Nat) : Sensor := tget {} s.ssm.sens n
/-- Replace sensor `n`. -/
def setSens (n : Nat) (x : Sensor) (s : State) : State := { s with ssm := { s.ssm with sens := tset {} s.ssm.sens n x } }
/-- Whether group `g` is monitored (R204). -/
def monitored (s : State) (g : Nat) : Bool := monitoredCfg (ssmOf s g).cfg
/-- The monitored groups. -/
def monitoredGrps (s : State) : List Nat := (List.range 16).filter (monitored s)
/-- The guard period in cadences between boundary and verdict deadline (R26). -/
def verdictCads (s : State) : Nat := (3 * s.cad.guardPer + 3) / 4

/-! Parameters. -/

/-- The ssm.configure payload as a channel holds it (R231). -/
def chanCfg (s : State) (second : Bool) : List Byte := if second then s.ssm.cfgF else s.ssm.cfg
/-- The ssm.set_group payload as a channel holds it (R231). -/
def chanGrp (s : State) (second : Bool) (g : Nat) : List Byte := if second then (ssmOf s g).cfgF else (ssmOf s g).cfg
/-- The ssm.set_sensor payload as a channel holds it (R231). -/
def chanSens (second : Bool) (x : Sensor) : List Byte := if second then x.cfgF else x.cfg
/-- Die F's copy of the words of a configuration command, once the crosslink has carried them (R231). -/
def dieFCopy (s : State) (p : List Byte) : Option (List Byte) := if xlinkCarries s then some p else none
/-- Whether die F has taken its copy and returned the CRC-32C of die M's (R231). -/
def dieFTakes (s : State) (p : List Byte) : Bool := (dieFCopy s p).map crc32c = some (crc32c p)
/-- VOXEL_MM as metres. -/
def voxelEdge (s : State) (second : Bool) : Fx := frac (u8 (chanCfg s second) 0) 1000
/-- VH. -/
def vhOf (s : State) (second : Bool) : Fx := f32 (u32 (chanCfg s second) 16)
/-- A length of channel 2: Q8.24 m, towards 0 (R232). -/
def q824 (v : Fx) : Fx := clampI (-(2 ^ 31)) (2 ^ 31 - 1) (Int.tdiv v (2 ^ 56)) * 2 ^ 56
/-- A point of a channel: channel 2 holds positions in Q8.24 m (R232). -/
def chanPoint (second : Bool) (p : V3) : V3 := if second then ⟨q824 p.x, q824 p.y, q824 p.z⟩ else p
/-- √3/2. -/
def halfDiag : Fx := fsqrt (3 * one) / 2

/-- A field of an ssm.set_group payload. -/
def gF (c : List Byte) (o : Nat) : Fx := f32 (u32 c o)
/-- TS of a payload entry at point k (R226). -/
def tsPoint (c : List Byte) (pay k : Nat) : Fx := gF c (816 + 72 * pay + 8 * k)
/-- SS of a payload entry at point k (R226). -/
def ssPoint (c : List Byte) (pay k : Nat) : Fx := gF c (816 + 72 * pay + 8 * k + 4)
/-- A table value at a speed of `k`/256, linear between the points (R226). -/
def onTable (f : Nat → Fx) (k : Nat) : Fx :=
  let i := min 7 (k / 32)
  f i + (f (i + 1) - f i) * ((k : Int) - 32 * i) / 32

/-- The protective separation distance at a speed of `k`/256 towards an object of speed `v` (R225). -/
def protDist (c : List Byte) (pay : Nat) (v : Fx) (k : Nat) : Fx :=
  let tr := gF c 4
  fmul v (tr + onTable (tsPoint c pay) k) + fmul (fmul (gF c 20) tr) ((k : Int) * one / 256) + onTable (ssPoint c pay) k
    + gF c 8 + gF c 12 + gF c 16

/-- The largest k for which the protective distance of every object is kept; 0 where there is none (R228). -/
def scaleFor (c : List Byte) (pay : Nat) (l : List (Fx × Fx)) : Nat :=
  ((List.range 257).reverse.find? (fun k => l.all (fun e => protDist c pay e.2 k ≤ e.1))).getD 0

/-! Grids. -/

/-- A voxel or cell by its index in a grid of `n` × `n` cells a layer. -/
def cellOf (n idx : Nat) : Nat × Nat × Nat := (idx % n, idx / n % n, idx / (n * n))

/-- The centre of a cell of edge `e`. -/
def cellCentre (s : State) (second : Bool) (e : Fx) (c : Nat × Nat × Nat) : V3 :=
  chanPoint second <| (v32 (chanCfg s second) 4).add ⟨(2 * (c.1 : Int) + 1) * e / 2, (2 * (c.2.1 : Int) + 1) * e / 2, (2 * (c.2.2 : Int) + 1) * e / 2⟩

/-- Whether a cell lies in the FOV of a sensor; `q` is 1 for voxels and 8 for coarse cells. -/
def inFov (q : Nat) (c : List Byte) (x : Nat × Nat × Nat) : Bool :=
  let lo (o : Nat) : Nat := u16 c o / q
  lo 12 ≤ x.1 && x.1 ≤ lo 18 && lo 14 ≤ x.2.1 && x.2.1 ≤ lo 20 && lo 16 ≤ x.2.2 && x.2.2 ≤ lo 22

/-- The cells of a FOV. -/
def fovCells (q : Nat) (c : List Byte) : List (Nat × Nat × Nat) :=
  let r (a b : Nat) : List Nat := (List.range (u16 c b / q + 1)).drop (u16 c a / q)
  (r 12 18).flatMap (fun i => (r 14 20).flatMap (fun j => (r 16 22).map (fun k => (i, j, k))))

/-- The cells that runs name. -/
def runCells (n : Nat) (l : List (Nat × Nat)) : List (Nat × Nat × Nat) :=
  l.flatMap (fun e => (List.range e.2).map (fun i => cellOf n (e.1 + i)))

/-- The enabled sensors. -/
def enabledSens (s : State) (second : Bool) : List Sensor := (s.ssm.sens.map (·.2)).filter (fun x => u8 (chanSens second x) 0 = 1)

/-- The occupied cells of a channel's grid in this guard period (R221, R222): of each enabled sensor its runs within the FOV, or
the whole FOV while it is stale; and with UNSEEN_OCCUPIED every cell that holds a voxel outside every FOV. -/
def gridCells (s : State) (second : Bool) : List (Nat × Nat × Nat) :=
  let q := if second then 8 else 1
  let n := 512 / q
  let own := (enabledSens s second).flatMap (fun x =>
    if (if second then x.stale2 else x.stale1) then fovCells q (chanSens second x)
    else match (if second then x.act2 else x.act1) with
      | some u => (runCells n u.runs).filter (inFov q (chanSens second x))
      | none => [])
  let unseen := bitOf (u8 (chanCfg s second) 1) 0
  let block (c : Nat × Nat × Nat) : List (Nat × Nat × Nat) :=
    (List.range q).flatMap (fun i => (List.range q).flatMap (fun j => (List.range q).map (fun k =>
      (q * c.1 + i, q * c.2.1 + j, q * c.2.2 + k))))
  let hidden (c : Nat × Nat × Nat) : Bool := (block c).any (fun v => (enabledSens s second).all (fun x => !inFov 1 (chanSens second x) v))
  own ++ (if unseen then ((List.range (n * n * (128 / q))).map (cellOf n)).filter hidden else [])

/-- The tracks of a channel in this guard period: of sensors that are not stale; the latest update of a number stands (R221). -/
def tracksOf (s : State) (second : Bool) : List (Nat × Track) :=
  let ups := ((enabledSens s second).filter (fun x => !(if second then x.stale2 else x.stale1))).filterMap (fun x =>
    if second then x.act2 else x.act1)
  let all := ups.flatMap (fun u => u.tracks.map (fun t => (t, u.at')))
  (all.filter (fun e => all.all (fun f => f.1.1 ≠ e.1.1 || f.2 ≤ e.2))).map (·.1)

/-! Poses of a channel. -/

/-- The joints' axis positions of group `g` as a channel holds them. -/
def chanPos (s : State) (second : Bool) (g : Nat) : List Fx :=
  let m := (grpOf s g).model
  (List.range (mJoints m)).map (fun i =>
    let x := axisOf s (jAxis m i)
    (if second then x.map.last2.position + x.oh else x.actP) * 2 ^ 48)

/-- The measured axis velocities of group `g` as a channel holds them. -/
def chanVel (s : State) (second : Bool) (g : Nat) : List Fx :=
  let m := (grpOf s g).model
  (List.range (mJoints m)).map (fun i =>
    let x := axisOf s (jAxis m i)
    if second then x.map.last2.velocity * 2 ^ 80 / 2 ^ x.loop.velFrac else velAct x)

/-- The active capsules of group `g` as a channel places them. -/
def chanCaps (s : State) (second : Bool) (g : Nat) : List Cap :=
  (capsAt (grpOf s g).model (chanGrp s second g) (grpOf s g).payloadSel (chanPos s second g)).map (fun c =>
    { c with a := chanPoint second c.a, b := chanPoint second c.b })

/-- The tool point that a channel compares (R234): in the base frame with the track coordinate as 0; of a FREE group P1 of its
first active capsule. -/
def chanTool (s : State) (second : Bool) (g : Nat) : V3 :=
  let x := grpOf s g
  let q := coords x.model (chanPos s second g)
  if mType x.model = 6 then
    match activeCaps (chanGrp s second g) x.payloadSel with
    | [] => {}
    | i :: _ =>
      let o := capOff i
      let c := chanGrp s second g
      (if u8 c o = 0xFF then ({} : Frame) else (lget default (jointFrames x.model q) (u8 c o)).2).point (v32 c (o + 16))
  else (toolFrame x.model q).p

/-- The volumes that masking frees in a channel's grid (R223): segments with the radius within which cell centres are free. -/
def maskCaps (s : State) (second : Bool) : List Cap :=
  let extra := if second then fmul halfDiag (8 * voxelEdge s second) else 0
  ((monitoredGrps s).filter (fun g => bitOf (u8 (chanGrp s second g) 2) 0)).flatMap (fun g =>
    (chanCaps s second g).map (fun c => { c with r := c.r + gF (chanGrp s second g) 24 + extra }))

/-- The occupied cell centres that count for distances. -/
def gridPoints (s : State) (second : Bool) : List V3 :=
  let e := (if second then 8 else 1) * voxelEdge s second
  let masks := maskCaps s second
  ((gridCells s second).map (cellCentre s second e)).filter (fun p => masks.all (fun c => c.r < segPoint c p))

/-- The least of a list of distances. -/
def least (l : List Fx) : Fx := l.foldl min (2 ^ 210)

/-- The distances and speeds of the objects that a channel keeps a group clear of (R207, R224, R225): the grid first, then each
track. -/
def chanObjects (s : State) (second : Bool) (g : Nat) : List (Fx × Fx) :=
  let caps := chanCaps s second g
  let e := (if second then 8 else 1) * voxelEdge s second
  let idx := 1024 * g + (if second then 512 else 0)
  let near (sub : Fx) (p : V3) : Fx := least (caps.map (fun c => max 0 (segPoint c p - c.r - sub)))
  let grid := least ((gridPoints s second).map (near (fmul halfDiag e)))
  let mm (l : List Int) : V3 := ⟨frac (lget 0 l 0) 1000, frac (lget 0 l 1) 1000, frac (lget 0 l 2) 1000⟩
  let dist (i : Nat) (v : Fx) : Fx := if second then max (v - one / 1000) (q824 (used s.free i v)) else used s.free i v
  (dist idx grid, vhOf s second) :: (tracksOf s second).map (fun t =>
    (dist (idx + 1 + t.1) (near (frac t.2.radius 1000) (chanPoint second (mm t.2.pos))), max (vhOf s second) (mm t.2.vel).norm))

/-- The largest own scale of a channel in force at any time during the last `span` ns (R230). -/
def ownMax (t span : Nat) : List (Nat × Nat) → Nat
  | [] => 256
  | (at', k) :: r => if at' + span ≤ t then k else max k (ownMax t span r)

/-- TS of a table value in ns, rounded up. -/
def nsCeil (x : Fx) : Nat := ((x * 1000000000 + (2 ^ 80 - 1)) / 2 ^ 80).toNat

/-- Ts(1) of the payload entry in use, in ns, as a channel holds it. -/
def stopNs (s : State) (second : Bool) (g : Nat) : Nat := nsCeil (tsPoint (chanGrp s second g) (grpOf s g).payloadSel 8)

/-- The bound of the capsule-point speed for a channel (R230). -/
def speedBound (s : State) (second : Bool) (g : Nat) : Fx :=
  let x := ssmOf s g
  let k := ownMax (now s) (stopNs s second g) (if second then x.own2 else x.own1)
  gF (chanGrp s second g) 20 * (k : Int) / 256 + f32 (u32 (chanCfg s second) 32)

/-- Whether some axis of group `g` has no copy within N_MISS cadences on channel 2 (R233). -/
def copiesMissing (s : State) (g : Nat) : Bool :=
  (members s g).any (fun a => let m := (axisOf s a).map; m.nMiss < m.missed2)

/-- The verdict of a channel for group `g` at a guard snapshot (R224 to R230, R232). -/
def chanVerdict (s : State) (second : Bool) (g : Nat) : Verdict :=
  let x := grpOf s g
  let c := chanGrp s second g
  let l := chanObjects s second g
  let d := least (l.map (·.1))
  -- the object that is nearest (R224): the grid, or track t as t + 1
  let who := 0 :: (tracksOf s second).map (fun t => t.1 + 1)
  let bound : Int := if second then one / 4000 else one / 250000
  let tool := chanTool s second g
  let e (i : Nat) : Fx := clampI (-bound) bound (Config.poseErr s.free (8 * g + (if second then 4 else 0) + i)) * 5 / 9
  let coord (i : Nat) (v : Fx) : Int := if second then divEven ((v + e i) * 2000) (2 ^ 80) * (2 ^ 80 / 2000) else v + e i
  let low := l.any (fun o => o.1 < protDist c x.payloadSel o.2 0)
  { k := scaleFor c x.payloadSel l, d := d, obj := lget 0 who (l.findIdx (fun o => o.1 = d))
    stop := if low then u8 c 1 + 1 else 0, reason := if low then 1 else 0
    tcp := [coord 0 tool.x, coord 1 tool.y, coord 2 tool.z]
    speed := capSpeed x.model c x.payloadSel (chanPos s second g) (chanVel s second g) }

/-- The guard snapshot of one group on both channels (R218 is checked apart). -/
def guardGroup (g : Nat) (s : State) : State :=
  let y := ssmOf s g
  let v1 := chanVerdict s false g
  let v2 := chanVerdict s true g
  let fresh := (members s g).all (fun a => (axisOf s a).map.missed2 = 0)
  let feed := copiesMissing s g || (y.feed2 && !fresh)
  let w1 := if feed then { v2 with k := 0, stop := 2, reason := 9 } else v2
  -- the stop through STO_CH is reported in the next verdict (R236)
  let w := if y.override2 then { w1 with stop := 1, reason := 6 } else w1
  let slow := v2.speed ≤ f32 (u32 (chanCfg s true) 32)
  setSsm g { y with
    guardP := chanPos s false g, vrMeas := v1.speed, feed2 := feed
    v1 := some v1, v2calc := some w, v2 := none
    fast1 := if speedBound s false g < v1.speed then y.fast1 + 1 else 0
    fast2 := if speedBound s true g < v2.speed then y.fast2 + 1 else 0
    ch2Stop := if slow then none else y.ch2Stop, override2 := false } s

/-! Stop requests. -/

/-- The rank of a reason in the table "Separation stop outcomes"; 0 the highest. -/
def reasonRank (r : Nat) : Nat := [6, 7, 8, 9, 5, 4, 3, 2, 1].idxOf r

/-- Whether a stop request of category `cat` starts a stop of group `g` or replaces one in progress (R72, R76). -/
def stopStarts (s : State) (g cat : Nat) : Bool :=
  let x := grpOf s g
  match x.state with
  | .idle => false
  | .enabling => cat < 2
  | .ready => cat < 2
  | .stopping => cat < x.stopCat.getD 3
  | .fault => cat < x.stopCat.getD 3
  | _ => true

/-- REASON of a group keeps the highest of a guard period (R237). -/
def noteReason (g reason : Nat) (s : State) : State :=
  modSsm g (fun y =>
    let p := s.cad.guardStart + 1
    if y.reasonAt = p && y.reason ≠ 0 && reasonRank y.reason ≤ reasonRank reason then y
    else { y with reason := reason, reasonAt := p }) s

/-- Stop requests that wait at a cadence start are carried out (R72, R75, R76): the lowest category. -/
def takeStops (g : Nat) (s : State) : State :=
  match (grpOf s g).stops with
  | [] => s
  | c :: r => stopGroup (r.foldl min c) g (modGrp g (fun x => { x with stops := [] }) s)

/-- The severity of the journal record of a reason (table "Fault cross-reference"). -/
def reasonSev (reason : Nat) : Nat := if reason = 1 then 1 else if reason = 8 then 3 else 2

/-- A separation stop request reaches a group: at this cadence start where it is at hand, otherwise at the next. -/
def sepRequest (g cat : Nat) (s : State) : State :=
  let t := reqStopGrp g cat s
  if s.cad.phase = 0 && s.cad.started then takeStops g t else t

/-- A separation stop request (R229, R237): it applies at this cadence start, or at the next; a request that starts a stop counts
and is recorded. -/
def sepStop (g cat reason : Nat) (detail : List Byte) (s : State) : State :=
  let s1 := noteReason g reason s
  let s2 := if stopStarts s g cat then
      raiseIf (decide (reason = 1)) 77 (journal 0x0C reason (reasonSev reason) g 0 detail
        (modSsm g (fun y => { y with stops := y.stops + 1 }) s1))
    else s1
  sepRequest g cat s2

/-- Channel 2 has issued a stop request for a group with STO_ENABLE (R236). -/
def ch2Issued (g : Nat) (s : State) : State :=
  modSsm g (fun y => if bitOf (u8 y.cfgF 2) 1 && y.ch2Stop.isNone then { y with ch2Stop := some (now s) } else y) s

/-- A capsule contact of `g` with the object of a code (R218). -/
def contactStop (g code : Nat) (s : State) : State := sepStop g 1 3 (leBytes 2 code) s

/-- The contacts of channel 1 at the guard snapshot (R218). -/
def contacts (s : State) : State :=
  let gs := monitoredGrps s
  let caps (g : Nat) : List Cap := chanCaps s false g
  let touch (i : Nat) (a : List Cap) (o : Obj) : Bool := a.any (fun c => used s.free (20000 + i) (objDist c o) = 0)
  let s1 := forNat gs (fun g t =>
    (tkeys s.ssm.obs).foldl (fun u i => match obstacle (tget [] s.ssm.obs i) with
      | some o => if touch (256 * g + i) (caps g) o then contactStop g (0x200 + i) u else u
      | none => u) t) s
  forNat gs (fun g t => (gs.filter (g < ·)).foldl (fun u h =>
    if (caps h).any (fun c => touch (8192 + 16 * g + h) (caps g) (.cap c)) then contactStop h (0x100 + g) (contactStop g (0x100 + h) u)
    else u) t) s1

/-- A length in units of 1/`n` m, towards minus infinity. -/
def inUnits (n : Int) (v : Fx) : Int := v * n / 2 ^ 80

/-- A channel-2 group verdict (table "Channel-2 group verdict"), in the crosslink's byte order. -/
def verdictRecord (v : Verdict) : List Byte :=
  let d := inUnits 1000 v.d
  fields ([(2, 128 * v.k), (1, (if v.stop = 0 then 0 else 4 - v.stop) + 4 * v.reason), (2, (if 65535 ≤ d then 65535 else d).toNat)]
    ++ (List.range 3).map (fun i => (3, sn 3 (divEven (lget 0 v.tcp i * 2000) (2 ^ 80)))))

/-- What die M reads from a verdict record: scale, request, distance in mm, and the tool point in 0.5 mm. -/
def readVerdict (b : List Byte) : Verdict :=
  let q := u8 b 2
  { k := u16 b 0 / 128, d := (u16 b 3 : Int) * 2 ^ 80 / 1000, stop := if q % 4 = 0 then 0 else 4 - q % 4, reason := q / 4
    tcp := (List.range 3).map (fun i => signedOf 24 (un b (5 + 3 * i) 3) * 2 ^ 80 / 2000) }

/-- Channel 2 sends its verdicts: 8 flits of class 0x03, two groups each (R234). -/
def sendVerdicts (s : State) : State :=
  forNat (List.range 8) (fun p t =>
    let rec' (g : Nat) : List Byte := verdictRecord (((ssmOf t g).v2calc).getD {})
    xsend .m 0x03 (BitVec.ofNat 8 p :: (rec' (2 * p) ++ rec' (2 * p + 1))) t) s

/-- The guard snapshot: the cutoff of the first cadence of a guard period (R26, R231). -/
def guardSnapshot (s : State) : State :=
  if s.cad.guardAt = s.cad.start + 1 && s.ssm.snapAt ≠ s.cad.start + 1 then
    let s1 := forNat (monitoredGrps s) guardGroup s
    let s2 := contacts s1
    let n := (monitoredGrps s).length
    countN 136 0x0D01 n (countN 110 0x0701 n <| sendVerdicts
      { s2 with free := s2.free + 1, ssm := { s2.ssm with snapAt := s.cad.start + 1 } })
  else s

/-- At the feedback cutoff channel 2 counts the cadences without a valid copy (R233). -/
def freewheel2 (s : State) : State :=
  forNat (tkeys s.axes) (fun a t => modAxis a (fun x =>
    if x.map.safetyFb then { x with map := { x.map with got2 := false, missed2 := if x.map.got2 then 0 else x.map.missed2 + 1 } }
    else x) t) s

/-- BLACK_CHANNEL_COPY: die F checks a forwarded safety record itself (R285, R231). -/
def blackCopy (a : Nat) (entry : List Byte) (s : State) : State :=
  if !xlinkCarries s then s else
  let s1 := count 136 0x0D02 s
  let x := axisOf s a
  match readEntries 1 entry with
  | [] => count 136 0x0D03 s1
  | e :: _ =>
    if x.map.segment = 0xFF || !x.map.safetyFb then s1
    else if e.kind = 2 && e.station = x.map.station && e.chan = x.map.chan && e.data.length = 22 && safetyValid x.map x.map.sCnt2 e
        && s.cad.phase = 0 then
      modAxis a (fun y => { y with map := { y.map with sCnt2 := some e.cnt, got2 := true, last2 := fbOf e.data } }) s1
    else count 136 0x0D03 s1

/-! R226 and R227. -/

/-- The reaction time that R227 asks for, in ns, by the enabled sensors' payloads. -/
def trNeed (s : State) (sens : List (List Byte)) : Nat :=
  let slow := ((sens.filter (fun c => u8 c 0 = 1)).map (fun c => (u32 c 4 + u32 c 8) * 1000)).foldl max 0
  let apply := match ((tkeys s.bus).filter (fun k => (segOf s k).configured)).map (segApply s) with
    | [] => s.cad.ns / 10
    | a :: r => r.foldl max a
  (s.cad.guardPer + verdictCads s + 3) * s.cad.ns + apply + slow

/-- The payloads of the sensors in force. -/
def sensCfgs (s : State) : List (List Byte) := s.ssm.sens.map (fun e => e.2.cfg)

/-- Whether TR of a payload keeps R227. -/
def trKept (s : State) (sens : List (List Byte)) (c : List Byte) : Bool := secOfNs (trNeed s sens) ≤ gF c 4

/-- Whether a stopping table keeps R226 for a T_RAMP. -/
def tableKept (c : List Byte) (tRamp : Fx) : Bool :=
  (List.range 4).all (fun p => (List.range 9).all (fun k =>
    f32Ok (u32 c (816 + 72 * p + 8 * k)) && f32Ok (u32 c (816 + 72 * p + 8 * k + 4)) &&
    9 * tRamp ≤ 8 * tsPoint c p k && 0 ≤ ssPoint c p k &&
    (k = 0 || (tsPoint c p (k - 1) ≤ tsPoint c p k && ssPoint c p (k - 1) ≤ ssPoint c p k))))

/-- Whether R226 and R227 hold for every monitored group with a machine's timing, and T_RAMP of one group replaced. -/
def timingKept (s : State) (sens : List (List Byte)) (ramp : Option (Nat × Fx)) : Bool :=
  (monitoredGrps s).all (fun g =>
    let c := (ssmOf s g).cfg
    let r := match ramp with
      | some (h, x) => if h = g then x else (grpOf s g).tRamp
      | none => (grpOf s g).tRamp
    trKept s sens c && tableKept c r)

/-! Rows. -/

/-- BLACK_CHANNEL_COPY (R285). -/
def execBlackChannelCopy (a : Fin 128) (entry : List Byte) (s : State) : Host.Outcome State Fault Refusal :=
  .next (blackCopy a.val entry s)

end Sys2Proof.Machine
end

