-- ==== Sys2Proof/Machine/Zone.lean ====
section
/-!
DEFINITION. Zones and tokens (R208 to R213, R252), the look-ahead of PROFILE groups (R214, R215, R217), and the zone commands.
-/
namespace Sys2Proof.Machine

/-- Zone `z`. -/
def zoneOf (s : State) (z : Nat) : Zone := tget {} s.ssm.zones z
/-- Replace zone `z`. -/
def setZone (z : Nat) (v : Zone) (s : State) : State := { s with ssm := { s.ssm with zones := tset {} s.ssm.zones z v } }
/-- STATE of zone commands: 0 UNDEFINED, 1 FREE, 2 HELD. -/
def zoneState (z : Nat) (s : State) : Nat :=
  let x := zoneOf s z
  if !x.defined then 0 else if x.holder.isSome then 2 else 1

/-- Whether active capsules of group `g` at the latest guard snapshot overlap a box (R208, R211). -/
def capsIn (s : State) (g : Nat) (box : List Nat) : Bool :=
  let y := ssmOf s g
  monitored s g && y.guardP ≠ [] &&
    (capsAt (grpOf s g).model y.cfg (grpOf s g).payloadSel y.guardP).any (fun c =>
      used s.free 40000 (objDist c (zoneBox box)) = 0)

/-- Numbers of the zones that group `g` holds or has requested (R209). -/
def zonesOf (s : State) (g : Nat) : List Nat :=
  (s.ssm.zones.filter (fun e => e.2.holder = some g || e.2.reqs.any (fun r => r.group = g))).map (·.1)

/-- Bit z: group `g` holds the token of zone z. -/
def tokens (s : State) (g : Nat) : Nat := bitsN ((List.range 64).map (fun z => decide ((zoneOf s z).holder = some g)))

/-- Requests that a planning boundary works on (R252): waiting ones and pending releases. -/
def zoneLoad (s : State) : Nat :=
  s.ssm.zones.foldl (fun n e => n + e.2.reqs.length + b2n e.2.releaseAt.isSome) 0

/-- The first planning boundary after an instant. -/
def boundaryAfter (s : State) (t : Nat) : Nat := startFrom s s.cad.plan (t + 1)

/-- The first planning boundary at which a waiting request will have been granted or refused (R252). -/
def zoneEarliest (s : State) : Nat :=
  (s.ssm.zones.flatMap (fun e => e.2.reqs.map (fun r =>
    if e.2.holder.isNone then startFrom s s.cad.plan (max (now s) r.promise) else boundaryAfter s r.deadline))).foldl min
      0xFFFFFFFFFFFFFFFF

/-! Planning boundaries. -/

/-- The remaining motion of a group sweeps into a zone (R211). -/
def motionEnters (s : State) (g : Nat) (box : List Nat) : Bool :=
  let x := grpOf s g
  capsConflict s.free 41000 0 (sweepInForce x (ssmOf s g).cfg x.pathTime (2 ^ 160) (secOfNs s.cad.ns)) [zoneBox box]

/-- Whether a held token is freed at boundary `b` (R211). -/
def releases (s : State) (b : Nat) (x : Zone) : Bool :=
  match x.holder, x.releaseAt with
  | some g, some t =>
    let st := (grpOf s g).state
    t ≤ b && (st = .idle || st = .fault || (!capsIn s g x.box && !motionEnters s g x.box))
  | _, _ => false

/-- Withdrawals and releases of one zone at boundary `b` (R211, R212). -/
def zoneRelease (b z : Nat) (s : State) : State :=
  let x := zoneOf s z
  let x1 := { x with reqs := x.reqs.filter (fun r => match r.withdraw with
    | some t => b < t
    | none => true) }
  setZone z (if releases s b x then { x1 with holder := none, grant := 0, releaseAt := none } else x1) s

/-- The first waiting request of a zone in the order of R28. -/
def firstReq (b : Nat) (l : List ZoneReq) : Option ZoneReq :=
  (l.filter (fun r => r.promise ≤ b && b ≤ r.deadline)).foldl (fun o r => match o with
    | some q => if r.seq < q.seq then some r else some q
    | none => some r) none

/-- The grant of one zone at boundary `b` (R210). -/
def zoneGrant (b z : Nat) (s : State) : State :=
  let x := zoneOf s z
  match x.holder, firstReq b x.reqs with
  | none, some r => raise 79 (setZone z { x with holder := some r.group, grant := b, reqs := x.reqs.erase r } s)
  | _, _ => s

/-- The charge of flow 249 follows the requests that are left (R252). -/
def zoneCharge (s : State) : State :=
  let n := zoneCycles (zoneLoad s)
  let l := (s.sch.shares.map (fun e => if e.type = 0x44 then { e with wcet := n } else e)).filter (fun e => e.type ≠ 0x44 || n ≠ 0)
  if l = s.sch.shares then s else setShares l s

/-- The zone work of planning boundary `b`, refusals apart (R212). -/
def zoneBoundary (b : Nat) (s : State) : State :=
  let zs := tkeys s.ssm.zones
  zoneCharge (forNat zs (zoneGrant b) (forNat zs (zoneRelease b) s))

/-- ZONE_REFUSED: requests whose DEADLINE lies before the boundary (R210, R212). -/
def zoneRefused (z : Nat) (s : State) : State :=
  let x := zoneOf s z
  let b := s.cad.planStart
  if x.reqs.any (fun r => r.deadline < b) then
    raise 82 (zoneCharge (setZone z { x with reqs := x.reqs.filter (fun r => b ≤ r.deadline) } s))
  else s

/-! Look-ahead. -/

/-- The name of the first object with which a swept volume of group `g` conflicts (R214, R215): 0x100 plus a group, 0x200 plus an
obstacle slot, 0x300 plus a zone. -/
def laConflict (s : State) (g : Nat) (caps : List Cap) (others : Nat → List Cap) : Option Nat :=
  let clear (h : Nat) : Fx := gF (ssmOf s h).cfg 28
  let hit (i : Nat) (c : Fx) (o : List Obj) : Bool := capsConflict s.free (50000 + i) c caps o
  let gs := ((monitoredGrps s).filter (· ≠ g)).filter (fun h => hit h (max (clear g) (clear h)) ((others h).map .cap))
  let os := (tkeys s.ssm.obs).filter (fun i => match obstacle (tget [] s.ssm.obs i) with
    | some o => hit (100 + i) (clear g) [o]
    | none => false)
  let zs := (tkeys s.ssm.zones).filter (fun z =>
    (zoneOf s z).defined && (zoneOf s z).holder ≠ some g && hit (400 + z) 0 [zoneBox (zoneOf s z).box])
  (gs.map (0x100 + ·) ++ os.map (0x200 + ·) ++ zs.map (0x300 + ·)).head?

/-- The span of the others' motion that a span of group `g` lasts at `k`/256 of its speed (R215). -/
def otherSpan (span : Fx) (k : Nat) : Fx := if k = 0 then 2 ^ 160 else span * 256 / (k : Int)

/-- The check of a PROFILE group in MOVING at a planning boundary (R217). -/
def laHold (g : Nat) (s : State) : State :=
  let x := grpOf s g
  if x.mpc || x.state ≠ .moving || !monitored s g then s else
  let t := secOfNs s.cad.ns
  let h := gF (ssmOf s g).cfg 32
  match laConflict s g (sweepInForce x (ssmOf s g).cfg x.pathTime h t)
      (fun o => sweepInForce (grpOf s o) (ssmOf s o).cfg (grpOf s o).pathTime (otherSpan h x.sGov) t) with
  | some code => pathStop g .hold (journal 0x09 0x11 1 g 0 (leBytes 2 code) s)
  | none => s

/-! Commands. -/

/-- zone.define (R208). -/
def zoneDefineSpec : CmdSpec where
  opcode := 0x0D01
  lenOk n _ := n = 24
  objOk := objBelow 64
  stateOf := zoneState
  body c s :=
    let p := c.p
    let z := c.h.object
    let x := zoneOf s z
    let box := (List.range 6).map (fun i => u32 p (4 * i))
    let ok := box.all f32Ok
    { bad := [(ok && (List.range 3).any (fun i => f32 (lget 0 box (i + 3)) ≤ f32 (lget 0 box i)), .badArg),
              (!ok, .outOfRange),
              (x.holder.isSome || x.reqs ≠ [] || (ok && (List.range 16).any (fun g => (grpOf s g).state ≠ .idle && capsIn s g box)), .stateConflict)]
      act := fun t => { s := setZone z { defined := true, box := box } t } }

/-- zone.request (R209, R210, R252). -/
def zoneRequestSpec : CmdSpec where
  opcode := 0x0D02
  lenOk n _ := n = 16
  objOk := objBelow 64
  stateOf := zoneState
  kind _ _ _ := .plan
  body c s :=
    let p := c.p
    let z := c.h.object
    let g := u8 p 0
    let x := zoneOf s z
    let dl := u64 p 8
    let mine := zonesOf s g
    let top := mine.foldl max 0
    let order := mine.any (fun k => z ≤ k)
    let led := regrade s (zoneShare (zoneLoad s + 1))
    { bad := [(g < 16 && !monitored s g, .notConfigured), (!x.defined, .notConfigured), (!zeroAt p 1 7, .badArg),
              (15 < g || dl < c.promise, .outOfRange), (order || x.holder = some g, .stateConflict),
              (2147483647 + now s < dl, .timeWindow), (led.isNone, .notSchedulable)]
      earliest := zoneEarliest s
      refusedState := fun st => if st = .stateConflict then some top else none
      act := fun t => { s := setShares (led.getD t.sch.shares) (setZone z { x with reqs := x.reqs ++
        [{ group := g, deadline := dl, promise := c.promise, seq := t.admitSeq }] } t) } }

/-- zone.release (R211, R252). -/
def zoneReleaseSpec : CmdSpec where
  opcode := 0x0D03
  lenOk n _ := n = 4
  objOk := objBelow 64
  stateOf := zoneState
  kind _ _ _ := .plan
  body c s :=
    let z := c.h.object
    let g := u8 c.p 0
    let x := zoneOf s z
    let held := x.holder = some g
    let asked := x.reqs.any (fun r => r.group = g)
    let more := held && x.releaseAt.isNone
    let led := if more then regrade s (zoneShare (zoneLoad s + 1)) else some s.sch.shares
    { bad := [(!x.defined, .notConfigured), (!zeroAt c.p 1 3, .badArg), (15 < g, .outOfRange), (!held && !asked, .stateConflict),
              (led.isNone, .notSchedulable)]
      earliest := zoneEarliest s
      act := fun t =>
        let x' := if held then { x with releaseAt := some (x.releaseAt.getD c.promise) }
          else { x with reqs := x.reqs.map (fun r => if r.group = g then { r with withdraw := some (r.withdraw.getD c.promise) } else r) }
        { s := setShares (if more then led.getD t.sch.shares else t.sch.shares) (setZone z x' t) } }

/-- zone.status (R210, R211). -/
def zoneStatusSpec : CmdSpec where
  opcode := 0x0D04
  objOk := objBelow 64
  stateOf := zoneState
  inFault _ := true
  body c s :=
    let z := c.h.object
    let x := zoneOf s z
    { act := fun t => { s := t, res := fields [(1, zoneState z s), (1, x.holder.getD 0xFF), (1, x.reqs.length),
        (1, b2n x.releaseAt.isSome), (4, 0), (8, x.grant)] } }

/-! Rows. -/

/-- ZONE_DEFINE (R208). -/
def execZoneDefine (c : CmdRef) (s : State) : Host.Outcome State Fault Refusal := .next (runCmd zoneDefineSpec c s)
/-- ZONE_REQUEST (R210). -/
def execZoneRequest (c : CmdRef) (s : State) : Host.Outcome State Fault Refusal := .next (runCmd zoneRequestSpec c s)
/-- ZONE_RELEASE (R211). -/
def execZoneRelease (c : CmdRef) (s : State) : Host.Outcome State Fault Refusal := .next (runCmd zoneReleaseSpec c s)
/-- ZONE_STATUS (R210). -/
def execZoneStatus (c : CmdRef) (s : State) : Host.Outcome State Fault Refusal := .next (runCmd zoneStatusSpec c s)
/-- ZONE_REFUSED (R210). -/
def execZoneRefused (z : Fin 64) (s : State) : Host.Outcome State Fault Refusal := .next (zoneRefused z.val s)

end Sys2Proof.Machine
end

