-- ==== Sys2Proof/Machine/Asm.lean ====
section
/-!
DEFINITION. Assembly of a group's problems (R133 to R142, R216): the reference, the cost, the constraint rows, the warm start.
Exact values are in 2^-80; the words that an assembly unit forms in FP32 are `Config.asmRound` of them.
-/
namespace Sys2Proof.Machine

/-! Fields of a qp.define_class payload. -/

/-- J. -/
def cJ (c : List Byte) : Nat := u8 c 0
/-- E. -/
def cE (c : List Byte) : Nat := u8 c 1
/-- N. -/
def cN (c : List Byte) : Nat := u8 c 2
/-- K. -/
def cK (c : List Byte) : Nat := u8 c 3
/-- W. -/
def cW (c : List Byte) : Nat := u8 c 11
/-- DEADLINE in 1/1,024 of the planning period. -/
def cDeadline (c : List Byte) : Nat := if u16 c 8 = 0 then 896 else u16 c 8
/-- Stride of row kind `k` in the order of the payload. -/
def cStride (c : List Byte) (k : Nat) : Nat := u8 c (16 + k)
/-- The problem size n = N·(J + E). -/
def cSize (c : List Byte) : Nat := cN c * (cJ c + cE c)
/-- N_SHIFT in force (R158). -/
def cShift (c : List Byte) : Nat := if u8 c 7 = 0 then min 4 (cN c - 1) else u8 c 7
/-- An FP32 field. -/
def cF (c : List Byte) (o : Nat) : Fx := f32 (u32 c o)
/-- The parameters that a lane uses. -/
def cPar (c : List Byte) : LanePar :=
  { k := cK c, rhoR := u8 c 4, rho := u32 c 24, sigma := u32 c 28, alpha := u32 c 32
    deltaExp := if u8 c 36 = 0 then 20 else u8 c 36 }

/-- The constrained stages of a stride, ascending (R137). -/
def stages (c : List Byte) (k : Nat) : List Nat :=
  let st := cStride c k
  if st = 0 then [] else ((List.range (cN c)).map (· + 1)).filter (fun i => (cN c - i) % st = 0)

/-- The rows that a class's kinds count (R140). -/
def rowCount (c : List Byte) : Nat :=
  let per (k : Nat) : Nat := if k = 5 then cW c else cJ c
  (List.range 6).foldl (fun n k => n + per k * (stages c k).length) 0 + cN c * cE c + cJ c

/-! Linear forms in the decision vector. -/

/-- A linear form: terms and a constant. -/
structure Lin where
  t : List (Nat × Fx) := []
  c : Fx := 0
  deriving DecidableEq, Repr, Inhabited

/-- The sum. -/
def Lin.add (a b : Lin) : Lin := ⟨a.t ++ b.t, a.c + b.c⟩
/-- A multiple. -/
def Lin.smul (k : Fx) (a : Lin) : Lin := ⟨a.t.map (fun e => (e.1, fmul k e.2)), fmul k a.c⟩
/-- The difference. -/
def Lin.sub (a b : Lin) : Lin := a.add (b.smul (-one))
/-- The coefficients of `n` variables. -/
def Lin.dense (n : Nat) (a : Lin) : List Fx :=
  (List.range n).map (fun k => (a.t.filter (fun e => e.1 = k)).foldl (fun s e => s + e.2) 0)

/-- The offset q_i − q_0 of joint `j` at stage `i`; q_{N+1} equals q_N (R134). -/
def offL (c : List Byte) (i j : Nat) : Lin :=
  if i = 0 then {} else { t := [((min i (cN c) - 1) * (cJ c + cE c) + j, one)] }
/-- Slack `e` of stage `i`. -/
def slackL (c : List Byte) (i e : Nat) : Lin := { t := [((i - 1) * (cJ c + cE c) + cJ c + e, one)] }

/-- The velocity of joint `j` at knot `i` (R134). -/
def velL (p : AsmIn) (i j : Nat) : Lin :=
  if i = 0 then { c := lget 0 p.v0 j } else ((offL p.c (i + 1) j).sub (offL p.c (i - 1) j)).smul (fdiv one (2 * p.tStage))
/-- The acceleration of joint `j` at knot `i`. -/
def accL (p : AsmIn) (i j : Nat) : Lin :=
  if i = 0 then { c := lget 0 p.a0 j }
  else (((offL p.c (i + 1) j).sub ((offL p.c i j).smul (2 * one))).add (offL p.c (i - 1) j)).smul (fdiv one (fmul p.tStage p.tStage))
/-- The jerk of joint `j` in stage `i`. -/
def jerkL (p : AsmIn) (i j : Nat) : Lin := ((accL p i j).sub (accL p (i - 1) j)).smul (fdiv one p.tStage)

/-- A constraint row: its form, bounds, scale, and whether EPS_PRI tightens it. -/
structure QRow where
  l : Lin
  lo : Option Fx := none
  hi : Option Fx := none
  b : Fx
  tight : Bool := true

/-- A row with a symmetric bound, which is its scale. -/
def symRow (l : Lin) (b : Fx) : QRow := { l := l, lo := some (-b), hi := some b, b := b }

/-- The rows of a problem (table "Constraint row kinds"), kind by kind, stage by stage. -/
def qpRows (p : AsmIn) : List QRow :=
  let c := p.c
  let js := List.range (cJ c)
  let k2 := fmul p.kappa p.kappa
  let k3 := fmul k2 p.kappa
  let lim (j : Nat) : Limits := lget {} p.lims j
  let per (k : Nat) (f : Nat → Nat → QRow) : List QRow := (stages c k).flatMap (fun i => js.map (f i))
  let jerk := per 0 (fun i j => symRow (jerkL p i j) (fmul k3 (lim j).j))
  let acc := per 1 (fun i j => symRow (accL p i j) (fmul k2 (min (lim j).a (lim j).d)))
  let vel := per 2 (fun i j => symRow (velL p i j) (fmul p.kappa (lim j).v))
  let pos := per 3 (fun i j =>
    { l := offL c i j, lo := some ((lim j).tmin * 2 ^ 48 - lget 0 p.q0 j), hi := some ((lim j).tmax * 2 ^ 48 - lget 0 p.q0 j)
      b := ((lim j).tmax - (lim j).tmin) * 2 ^ 47 })
  let torque := per 4 (fun i j => symRow
    (js.foldl (fun a k => a.add ((accL p i k).smul (jointRate p.model k (lget 0 p.mMat (cJ c * j + k))))) { c := lget 0 p.hVec j })
    (lget 0 p.trq j))
  let sep := (stages c 5).flatMap (fun i => (List.range (cW c)).map (fun w =>
    let e := lget ([], none) (lget [] p.sep (i - 1)) w
    { l := js.foldl (fun a j => a.add ((offL c i j).smul (lget 0 e.1 j))) (slackL c i (w % max 1 (cE c)))
      lo := e.2, b := one }))
  let slack := (List.range (cN c)).flatMap (fun i => (List.range (cE c)).map (fun e =>
    { l := slackL c (i + 1) e, lo := some 0, hi := some (cF c 48), b := cF c 48, tight := false }))
  let term := js.map (fun j =>
    { l := (offL c (cN c) j).sub (offL c (cN c - 1) j), lo := some 0, hi := some 0, b := fmul (lim j).v p.tStage, tight := false })
  jerk ++ acc ++ vel ++ pos ++ torque ++ sep ++ slack ++ term

/-- The squared terms of the cost with their weights (R136). -/
def costTerms (p : AsmIn) : List (Fx × Lin) :=
  let c := p.c
  let js := List.range (cJ c)
  let is := (List.range (cN c)).map (· + 1)
  let each (w : Fx) (f : Nat → Nat → Lin) : List (Fx × Lin) := is.flatMap (fun i => js.map (fun j => (w, f i j)))
  let track := each (cF c 52) (fun i j => (offL c i j).add { c := -(lget 0 (lget [] p.ref (i - 1)) j) })
  let slack := is.flatMap (fun i => (List.range (cE c)).map (fun e => (cF c 64, slackL c i e)))
  let line := match p.line with
    | none => []
    | some (g, qs, cs) => is.flatMap (fun i =>
        let d := lget [] cs (i - 1)
        (List.range 3).map (fun k =>
          (cF c 72, js.foldl (fun a j =>
            let gkj := lget 0 (lget [] g k) j
            a.add (((offL c i j).add { c := lget 0 p.q0 j - lget 0 qs j }).smul gkj))
            { c := -(lget 0 d k) })))
  track ++ each (cF c 60) (accL p) ++ each (cF c 56) (jerkL p) ++ slack ++ line

/-- The exact sum of products of two lists. -/
def dotX (a b : List Fx) : Fx := (a.zip b).foldl (fun s e => s + fmul e.1 e.2) 0

/-- An element of the problem as a word: zero as it is, else its rounding (R142; log entry 52). -/
def asmWord (idx : Nat) (v : Fx) : F32 := if v = 0 then 0 else Config.asmRound idx v

/-- A bound as a word: the tightened quotient by the row scale, or infinity. The bounds of SLACK and TERM rows are exact. -/
def boundWord (idx : Nat) (neg : Bool) (o : Option Fx) (r : QRow) (eps : Fx) : F32 := match o with
  | none => finf neg
  | some v =>
    let q := fdiv (v - r.l.c) r.b
    if r.tight then Config.asmRound idx (q + (if neg then eps else -eps)) else if q = 0 || q = one then toF32 q else Config.asmRound idx q

/-- The problem that an assembly unit forms, with the y⁰ to start from (R142). -/
def assemble (p : AsmIn) (y : Option (List F32)) : QpData :=
  let c := p.c
  let n := cSize c
  let rows := qpRows p
  let aX := rows.map (fun r => (r.l.dense n).map (fun v => fdiv v r.b))
  let terms := (costTerms p).map (fun e => (e.1, e.2.dense n, e.2.c))
  let el (k : Nat) (l : List Fx) : Fx := lget 0 l k
  let rho := cF c 24
  let hX (i j : Nat) : Fx :=
    terms.foldl (fun s e => s + 2 * fmul e.1 (fmul (el i e.2.1) (el j e.2.1))) 0 + (if i = j then cF c 28 else 0)
      + fmul rho (aX.foldl (fun s r => s + fmul (el i r) (el j r)) 0)
  let isSlack (k : Nat) : Bool := cJ c ≤ k % (cJ c + cE c)
  let gX (k : Nat) : Fx :=
    terms.foldl (fun s e => s + 2 * fmul e.1 (fmul e.2.2 (el k e.2.1))) 0 + (if isSlack k then cF c 68 else 0)
  let nn := List.range n
  let a := (aX.zip (List.range rows.length)).map (fun r => (r.1.zip nn).map (fun e => asmWord (128 * r.2 + e.2) e.1))
  let eps := cF c 40
  let lo := (rows.zip (List.range rows.length)).map (fun r => boundWord (100000 + r.2) true r.1.lo r.1 eps)
  let hi := (rows.zip (List.range rows.length)).map (fun r => boundWord (110000 + r.2) false r.1.hi r.1 eps)
  let x0 := (List.range (cN c)).flatMap (fun i => (List.range (cJ c + cE c)).map (fun j =>
    if j < cJ c then toF32 (lget 0 (lget [] p.warm i) j) else 0))
  let ax0 := a.map (fun r => fdot r x0 0)
  { h := nn.map (fun i => nn.map (fun j => Config.asmRound (200000 + 128 * i + j) (hX i j))), a := a
    g := nn.map (fun k => Config.asmRound (120000 + k) (gX k)), lo := lo, hi := hi, x0 := x0, ax0 := ax0
    z0 := (ax0.zip (lo.zip hi)).map (fun e => fclip e.1 e.2.1 e.2.2), y0 := y.getD (rows.map (fun _ => 0)) }

/-- The plan that a solution stands for (R133, R134). -/
def planOf (p : AsmIn) (start : Fx) (x : List F32) (rests : Bool) : MpcPlan :=
  let c := p.c
  let v (l : Lin) : Fx := l.c + l.t.foldl (fun s e => s + fmul e.2 (f32 (lget 0 x e.1))) 0
  let knot (i : Nat) : Knot :=
    let js := List.range (cJ c)
    { p := js.map (fun j => lget 0 p.q0 j + v (offL c i j))
      v := js.map (fun j => if i = cN c then 0 else v (velL p i j))
      a := js.map (fun j => if i = cN c then 0 else v (accL p i j)) }
  { start := start, stage := p.tStage, knots := (List.range (cN c + 1)).map knot, rests := rests }

/-! Predictions at the boundary. -/

/-- Path time and scale after `n` cadences in which the scale follows its present goal (R133). -/
def predictTau (x : GroupSt) (dt : Fx) : Nat → Fx → Fx → Fx → Fx
  | 0, tau, _, _ => tau
  | n + 1, tau, l, r =>
    let (l', r') := lamStep l r (lamGoal x) x.tRamp dt
    predictTau x dt n (tau + fmul l' dt) l' r'

/-- The plan in force at a path time: a group without one rests (R154). -/
def inForceAt (x : GroupSt) (t : Fx) : Knot := match x.plan with
  | some p => planAt p t
  | none => knotRest x.base

/-- The stages' offsets of the plan in force from q_0 (R142). -/
def warmStart (x : GroupSt) (c : List Byte) (tau t : Fx) (q0 : List Fx) : List (List Fx) :=
  (List.range (cN c)).map (fun (i : Nat) =>
    (((inForceAt x (tau + ((i : Int) + 1) * t)).p).zip q0).map (fun e => e.1 - e.2))

/-! The reference (R135). -/

/-- The position that a stream's converted records give joint by joint at stream time `t`, in 2^-32 ns: linear between stamps,
held beyond the last. -/
def strmRef (x : GroupSt) (t : Int) : Option (List Fx) :=
  let n := jointsOf x
  let pos (r : StrmRec) : List Fx := match r.joints with
    | some l => l
    | none => (List.range n).map (fun i => r.pos i * 2 ^ 48)
  let l := x.recs.filter (fun r => r.joints.isSome || r.whole n)
  let before := (l.filter (fun r => recAt r ≤ t)).getLast?
  let after := l.find? (fun r => t < recAt r)
  match before, after with
  | some a, some b => some (((pos a).zip (pos b)).map (fun e => e.1 + (e.2 - e.1) * (t - recAt a) / (recAt b - recAt a)))
  | some a, none => some (pos a)
  | none, some b => some (pos b)
  | none, none => if x.lastTarget = [] then none else some x.lastTarget

/-- SPEED of a grp.move payload. -/
def mvSpeed (p : List Byte) : Fx := f32 (u32 p 4)

/-- The motion that PROFILE mode would make through solved targets, from a state, in path time from 0 (R106 to R108). -/
def refMoves (lims : List Limits) : Bool → List Kin → List MpcTarget → List Move
  | _, _, [] => []
  | first, ks, t :: r =>
    let ls := lims.map (fun l => l.scaled (mvSpeed t.p))
    let pos := ks.map (·.x)
    let rest := ks.all (fun k => k.v = 0 && k.a = 0)
    let m := if first && !rest then planReplace ks t.joints ls else planRest ls ((t.joints.zip pos).map (fun e => e.1 - e.2))
    { m with auto := !first, target := t.joints } :: refMoves lims false (t.joints.map (fun q => ⟨q, 0, 0⟩)) r

/-- The reference's moves with their starts. -/
def startedMoves (tcad : Fx) (l : List Move) : List Move :=
  (l.zip (predictStarts 0 tcad none l)).map (fun e => { e.1 with auto := false, start := e.2.1 })

/-- Position of the reference motion at path time `t` after the boundary. -/
def refAt (ms : List Move) (q0 : List Fx) (t : Fx) : List Fx :=
  (List.range q0.length).map (fun i => ms.foldl (fun p m => p + (m.at i t).x) (lget 0 q0 i))

/-- The targets of a group whose joint positions are known, up to the first that is not. -/
def knownTargets (x : GroupSt) : List MpcTarget := x.mpcTargets.takeWhile (·.solved)

/-- The tool point in the cell frame at axis positions. -/
def cellTool (m : List Byte) (p : List Fx) : V3 :=
  let q := coords m p
  ((trackBase m (lget 0 q 0)).comp (toolFrame m q)).p

/-- The line term of a POSE_LINEAR motion (R136): G in axis units, q_s, and c_i − c_s by stage. -/
def lineTerm (x : GroupSt) (c : List Byte) (lims : List Limits) (q0 : List Fx) (tau t : Fx) : Option (List (List Fx) × List Fx × List (List Fx)) :=
  match x.mpcTargets with
  | [] => none
  | w :: _ =>
    if u8 w.p 0 ≠ 2 || !w.solved || x.state = .hold then none
    else
      let m := x.model
      let tool0 := cellTool m q0
      let st := if w.begun then w.startTau else tau
      let sq := if w.begun then w.startQ else q0
      let tool := cellTool m x.snapQ
      let n := mJoints m
      let last := if n = 0 then none else some (n - 1)
      let cols := (List.range n).map (fun j => pointVel m x.snapQ (unitVec n j) last tool)
      let g := [cols.map (·.x), cols.map (·.y), cols.map (·.z)]
      let shape := planRest (lims.map (fun l => l.scaled (mvSpeed w.p))) ((w.joints.zip sq).map (fun e => e.1 - e.2))
      let c0 : V3 := if w.begun then ⟨lget 0 w.startC 0, lget 0 w.startC 1, lget 0 w.startC 2⟩ else tool0
      let span := (v64 w.p 16).sub c0
      let frac (time : Fx) : Fx :=
        match ((List.range n).find? (fun j => lget 0 w.joints j ≠ lget 0 sq j)) with
        | none => one
        | some j => fdiv ((lget {} shape.joints j).at time).x (lget 0 w.joints j - lget 0 sq j)
      some (g, x.snapQ, (List.range (cN c)).map (fun (i : Nat) =>
        let d := (c0.add (span.smul (frac (tau + ((i : Int) + 1) * t - st)))).sub tool
        [d.x, d.y, d.z]))

/-! Separation rows (R138, R216). -/

/-- The path time that the interpolator of group `h` predicts for the boundary at which the plans of this period will govern (R133,
R215): the setpoints still to form until then advance it. -/
def tauFor (s : State) (h : Nat) : Fx :=
  let x := grpOf s h
  let left := (s.cad.planStart + s.cad.ns * s.cad.plan - s.cad.start) / s.cad.ns - (if s.cad.phase = 0 && s.cad.planAt ≠ s.cad.start + 1 then 0 else 1)
  if interpolates x then predictTau x (secOfNs s.cad.ns) left x.pathTime x.lambda x.lambdaRate else x.pathTime

/-- The objects of R215 for a group with a horizon at a real-time speed, each with its clearance. -/
def laObjects (s : State) (g : Nat) (span speed : Fx) : List (Fx × Obj) :=
  let clear (h : Nat) : Fx := gF (ssmOf s h).cfg 28
  let real := if speed ≤ 0 then 2 ^ 160 else fdiv span speed
  let gs := ((monitoredGrps s).filter (· ≠ g)).flatMap (fun h =>
    (sweepInForce (grpOf s h) (ssmOf s h).cfg (tauFor s h) real (secOfNs s.cad.ns)).map (fun c => (max (clear g) (clear h), Obj.cap c)))
  let os := (tkeys s.ssm.obs).filterMap (fun i => (obstacle (tget [] s.ssm.obs i)).map (fun o => (clear g, o)))
  let zs := ((tkeys s.ssm.zones).filter (fun z => (zoneOf s z).defined && (zoneOf s z).holder ≠ some g)).map (fun z =>
    ((0 : Fx), zoneBox (zoneOf s z).box))
  gs ++ os ++ zs

/-- A capsule of a group with the number of its frame (none: the base). -/
def capFrames (c : List Byte) (pay : Nat) : List (Option Nat × Nat) :=
  (activeCaps c pay).map (fun i => (if u8 c (capOff i) = 0xFF then none else some (u8 c (capOff i)), i))

/-- The W rows of one constrained stage: normal times Jacobian in axis units, and the lower bound. -/
def sepStage (s : State) (g w : Nat) (objs : List (Fx × Obj)) (q0 qi : List Fx) : List (List Fx × Option Fx) :=
  let x := grpOf s g
  let m := x.model
  let cfg := (ssmOf s g).cfg
  let fi := cellFrames m qi
  let fs := cellFrames m x.snapQ
  let pairs := (capFrames cfg x.payloadSel).flatMap (fun e =>
    let cap := capAt cfg fi e.2
    objs.map (fun o =>
      let (d, t, q) := nearObj cap o.2
      (used s.free 60000 d, e, t, cap.at t, q, o.1)))
  let best := (pairs.mergeSort (fun a b => a.1 ≤ b.1)).take w
  let n := mJoints m
  best.map (fun b =>
    let (d, e, t, p, q, cl) := b
    let dir := p.sub q
    let len := dir.norm
    let nrm : V3 := if len = 0 then {} else ⟨fdiv dir.x len, fdiv dir.y len, fdiv dir.z len⟩
    let at' := (capAt cfg fs e.2).at t
    let row := (List.range n).map (fun j => nrm.dot (pointVel m x.snapQ (unitVec n j) e.1 at'))
    (row, some (cl - d + dotX row ((qi.zip q0).map (fun z => z.1 - z.2)))))

/-! The problem of one scenario. -/

/-- The group as its reference sees it where a strm.anchor takes effect by boundary `b`: its stream runs from there (R119, R135). -/
def anchorAhead (s : State) (g b : Nat) : Option GroupSt :=
  let x := grpOf s g
  match s.eff.find? (fun e => e.opcode = 0x0903 && (strmOf s e.object).group = g && e.due ≤ b) with
  | none => none
  | some e =>
    let h := strmOf s e.object
    if x.state ≠ .ready || !h.attached || !h.needsAnchor then none
    else
      let s0 := modGrp g (fun y => { y with clock := ((e.due + grpApply s g : Nat) : Int) * 2 ^ 32, recs := [], lastTarget := [] }) s
      some { grpOf s0 g with recs := (strmFetch e.object h.count s0).recs }

/-- q_ref at path time `dt` after the boundary at path time `tau` (table "Reference sources"). -/
def refPos (s : State) (g : Nat) (k0 : Knot) (ms : List Move) (tau dt : Fx) : List Fx :=
  let x := grpOf s g
  let span (t : Fx) : Int := fmul t (1000000000 * 2 ^ 32 * one) / 2 ^ 80
  if x.state = .hold then k0.p
  else match anchorAhead s g (s.cad.planStart + s.cad.ns * s.cad.plan) with
    | some y => (strmRef y (y.clock + span dt)).getD k0.p
    | none =>
      if x.strmRun || (x.lastTarget ≠ [] && x.mpcTargets = []) then (strmRef x (x.clock + span (tau + dt - x.pathTime))).getD k0.p
      else refAt ms k0.p dt

/-- What the snapshot gives scenario (c, κ) of group `g` for boundary path time `tau` at governing scale `sg`/256. -/
def asmIn (s : State) (g : Nat) (c : List Byte) (kappa tau : Fx) (sg : Nat) : AsmIn :=
  let x := grpOf s g
  let n := cJ c
  let t := (u8 c 10 : Int) * secOfNs (s.cad.ns * s.cad.plan)
  let k0 := inForceAt x tau
  let lims := (List.range n).map (jointLim s g)
  let ms := startedMoves (secOfNs s.cad.ns) (refMoves lims true k0.list (knownTargets x))
  let ref (i : Nat) : List Fx :=
    ((refPos s g k0 ms tau (((i : Int) + 1) * t)).zip k0.p).map (fun e => single (double (double e.1 - double e.2)))
  let objs := if monitored s g then laObjects s g ((cN c : Int) * t) (fmul kappa ((sg : Int) * one / 256)) else []
  let warm := warmStart x c tau t k0.p
  { c := c, kappa := kappa, tStage := t, q0 := k0.p, v0 := k0.v, a0 := k0.a, mMat := x.mMat, hVec := x.hVec, model := x.model
    lims := lims
    trq := (List.range n).map (fun j =>
      ((jAxes x.model j).map (fun a => (axisOf s a).loop.trqLim)).foldl min (2 ^ 160))
    ref := (List.range (cN c)).map ref, warm := warm, line := lineTerm x c lims k0.p tau t
    sep := (List.range (cN c)).map (fun i => if (stages c 5).contains (i + 1) then
      sepStage s g (cW c) objs k0.p (((lget [] warm i).zip k0.p).map (fun e => e.1 + e.2)) else []) }

end Sys2Proof.Machine
end

