-- ==== Sys2Proof/Machine/Sched.lean ====
section
/-!
DEFINITION. The hardware scheduler: task lists, dispatch and flows (R239 to R248), the WCET table (R250, R251), and the
sched commands (R253 to R255).
-/
namespace Sys2Proof.Machine

/-- Flow `f`. -/
def flowOf (s : State) (f : Nat) : Flow := tget {} s.sch.flows f
/-- Replace flow `f`. -/
def setFlow (f : Nat) (v : Flow) (s : State) : State := { s with sch := { s.sch with flows := tset {} s.sch.flows f v } }
/-- The task in service on a unit. -/
def onUnit (s : State) (k u : Nat) : Option Task := tget none s.sch.units (64 * k + u)
/-- Put a task on a unit, or free it. -/
def setOnUnit (k u : Nat) (t : Option Task) (s : State) : State :=
  { s with sch := { s.sch with units := tset none s.sch.units (64 * k + u) t } }

/-- Whether a descriptor bypasses flows (FLAGS bit 1). -/
def noFlow (d : Descriptor) : Bool := d.flags.getLsbD 1
/-- Whether the task is abandoned in service at its deadline (R248). -/
def abandons (d : Descriptor) : Bool := d.flags.getLsbD 3

/-- The class's clock in MHz (R239). -/
def classMHz (k : Nat) : Nat := if k = 1 then 1200 else 1000

/-- Count busy cycles of a unit, in its own spoke and in the class's BUSY64 (R254). -/
def addBusy (k u n : Nat) (s : State) : State :=
  let i := 64 * k + u
  let b := tget 0 s.sch.busy i
  let s1 := { s with sch := { s.sch with busy := tset 0 s.sch.busy i (b + n) } }
  let s2 := countN (5 + k) 0x0303 ((b + n) / 64 - b / 64) s1
  if k = 0 then countN (10 + u) 0x0402 n s2
  else if k = 1 then countN (42 + u) 0x0502 n s2
  else if k = 4 then countN (1 + u) 0x0204 n s2
  else countN (if k = 3 then 109 else if u < 16 then 106 else 108) 0x0602 n s2

/-- Whether a flow has a task in service, ready or held: later ones wait in its queue (R246). -/
def flowBusy (s : State) (f : Nat) : Bool :=
  (flowOf s f).service.isSome || (s.sch.cls.any (fun c =>
    (c.2.ready ++ c.2.held).any (fun t => !noFlow t.d && t.d.flow.toNat = f)))

/-- The short-time instant of a descriptor as long time: the one nearest to the present (R260). -/
def longOf (s : State) (short : Nat) : Nat :=
  ((now s : Int) + signedOf 32 (short + 2 ^ 32 - now s % 2 ^ 32)).toNat

/-- A task becomes ready (R240). -/
def makeReady (t : Task) (s : State) : State :=
  let k := t.d.cls.val
  let c := clsOf s k
  noteDepth k (setCls k { c with ready := c.ready ++ [{ t with readyAt := now s, order := s.admitSeq }] }
    { s with admitSeq := s.admitSeq + 1 })

/-- A suspended FFT block, or one whose slice must wait for a compute end (R241). -/
def suspend (t : Task) (s : State) : State :=
  let c := clsOf s 0
  setCls 0 { c with suspended := c.suspended ++ [t] } s

/-- Whether an FFT block waits for the next compute end. -/
def fftWaits (s : State) (d : Descriptor) : Bool := d.type = 0x0003 && s.cad.started && s.cad.phase ≠ 3

/-- A task whose flow has come to it: held until its release time, else ready (R240). -/
def taskDue (t : Task) (s : State) : State :=
  let k := t.d.cls.val
  let c := clsOf s k
  if now s < longOf s t.d.release.toNat then noteDepth k (setCls k { c with held := c.held ++ [t] } s)
  else if fftWaits s t.d then suspend t s
  else makeReady t s

/-! The task types (R242). -/

/-- What the table "Task types" fixes for a type: class, level, and whether any unit may take it. -/
def taskType (type : Nat) : Option (Nat × Nat × Bool) :=
  match type with
  | 0x0001 => some (0, 0, false) | 0x0002 => some (0, 10, true) | 0x0003 => some (0, 12, false)
  | 0x0010 => some (1, 2, false) | 0x0011 => some (1, 1, false)
  | 0x0020 => some (2, 0, false) | 0x0021 => some (2, 2, false) | 0x0022 => some (2, 2, false)
  | 0x0023 => some (2, 2, false) | 0x0024 => some (2, 2, false)
  | 0x0030 => some (3, 2, false) | 0x0031 => some (3, 1, true)
  | 0x0040 => some (4, 0, true) | 0x0041 => some (4, 1, false) | 0x0042 => some (4, 1, false) | 0x0043 => some (4, 2, false)
  | 0x0044 => some (4, 2, false) | 0x0045 => some (4, 3, false) | 0x0046 => some (4, 14, true) | 0x0047 => some (4, 15, true)
  | _ => none

/-- Whether a flow suits a task type (tables "Task types", "Flow numbers"); types without a flow name NO_FLOW, and an UNTIMED task
takes the flow of its command's object or none. -/
def flowSuits (type : Nat) (bypass : Bool) (f : Nat) : Bool :=
  match type with
  | 0x0001 => !bypass && f < 128
  | 0x0002 => !bypass && 224 ≤ f && f < 232
  | 0x0010 => !bypass && 144 ≤ f && f < 208
  | 0x0011 => !bypass && 144 ≤ f && f < 208
  | 0x0030 => !bypass && 144 ≤ f && f < 208
  | 0x0031 => !bypass && 144 ≤ f && f < 208
  | 0x0020 => !bypass && 128 ≤ f && f < 144
  | 0x0021 => !bypass && 208 ≤ f && f < 224
  | 0x0022 => !bypass && 208 ≤ f && f < 224
  | 0x0023 => !bypass && 208 ≤ f && f < 224
  | 0x0024 => !bypass && 208 ≤ f && f < 224
  | 0x0043 => !bypass && 208 ≤ f && f < 224
  | 0x0041 => !bypass && f = 248
  | 0x0042 => !bypass && 240 ≤ f && f < 248
  | 0x0044 => !bypass && f = 249
  | 0x0045 => !bypass && f = 250
  | 0x0046 => true
  | _ => bypass

/-- The types that are abandoned in service at their deadline (R248). -/
def abandonType (type : Nat) : Bool :=
  type = 0x0001 || type = 0x0010 || type = 0x0011 || (0x0020 ≤ type && type ≤ 0x0024) || type = 0x0030 || type = 0x0031

/-- The types without a deadline. -/
def noDeadlineType (type : Nat) : Bool := type = 0x0003 || type = 0x0046 || type = 0x0047

/-- The unit of a placed task: the one on which admission put its share (R30), tile b mod 32 for an FFT block (R203), or the unit
that the table names. -/
def unitSuits (s : State) (d : Descriptor) : Bool :=
  let type := d.type.toNat
  let u := d.unit.toNat
  if type = 0x0020 then d.flow.toNat = 128 + u
  else if type = 0x0003 then
    (match s.trc.frf with
    | some f => f.block < f.blocks && u = f.block % 32 && d.object.toNat = f.session
    | none => false)
  else s.sch.shares.any (fun e => e.type = (if type = 0x0011 then 0x0010 else type) && e.object = d.object.toNat && e.unit = u)

/-- When a task of a type is released and due (table "Task types"), for the types whose instants recur: the period, the offset of the
release in it, and the deadline after the release; all in ns. The periods are counted from the cadence start or the planning boundary. -/
def taskTimes (s : State) (type : Nat) : Option (Nat × Nat × Nat) :=
  let t := s.cad.ns
  let p := s.cad.ns * s.cad.plan
  match type with
  | 0x0001 => some (t, t * 4 / 10, t * 7 / 10 - t * 4 / 10)
  | 0x0002 => some (t, t * 7 / 10, t - t * 7 / 10)
  | 0x0020 => some (t, 0, t * 4 / 10)
  | 0x0021 => some (p, t * 4 / 10, p / 8 - t * 4 / 10)
  | 0x0022 => some (p, t * 4 / 10, p / 8 - t * 4 / 10)
  | 0x0023 => some (p, t * 4 / 10, p / 8 - t * 4 / 10)
  | 0x0024 => some (p, t * 4 / 10, p / 8 - t * 4 / 10)
  | 0x0030 => some (p, p / 8, p / 5 - p / 8)
  | 0x0041 => some (t, t * 7 / 10, 1000)
  | 0x0042 => some (t, 0, t * 4 / 10)
  | 0x0044 => some (p, 0, t * 4 / 10)
  | 0x0045 => some (t, t * 7 / 10, t - t * 7 / 10)
  | _ => none

/-- Whether a descriptor's release and deadline are those of its type: ADMIT is due 50 µs after the doorbell, a re-planned assembly
10 µs after the verdict deadline. -/
def timesSuit (s : State) (d : Descriptor) : Bool :=
  let span := (d.deadline - d.release).toNat
  match taskTimes s d.type.toNat with
  | some (p, o, w) =>
    let base := (if p = s.cad.ns then s.cad.start else s.cad.planStart) + o
    span = w && p ∣ ((longOf s d.release.toNat : Int) - base).natAbs
  | none => if d.type = 0x0040 then span = 50000 else if d.type = 0x0031 then span = 10000 else true

/-- Whether a producer of the device enqueues such a descriptor (R242): type, class, level, unit, flow, times and flags agree with
the table. -/
def descOk (s : State) (d : Descriptor) : Bool :=
  match taskType d.type.toNat with
  | none => false
  | some (k, l, any) =>
    d.cls.val = k && d.level.val = l && (if any then d.unit = 0xFF else unitSuits s d)
      && flowSuits d.type.toNat (noFlow d) d.flow.toNat && abandons d = abandonType d.type.toNat
      && d.flags.getLsbD 4 = noDeadlineType d.type.toNat && timesSuit s d

/-- An enqueue that finds no descriptor or no queue place stalls its port (R245). -/
def stallPort (t : Task) (s : State) : State :=
  let k := t.d.cls.val
  let c := clsOf s k
  count (5 + k) 0x0304 (raise 49
    (setCls k { c with stalls := c.stalls + 1, stalled := true, stalledTasks := c.stalledTasks ++ [t] } s))

/-- A producer enqueues a task (R240, R245, R246): it takes a descriptor, and waits behind its flow, for its release, or not at all. -/
def enqueueTask (d : Descriptor) (s : State) : State :=
  let k := d.cls.val
  let f := d.flow.toNat
  let t : Task := { d := d }
  if !periodic d && poolFree s k = 0 then stallPort t s
  else if !noFlow d && flowBusy s f then
    let w := flowOf s f
    if w.qlim ≤ w.queue.length then
      let c := clsOf s k
      let s1 := setFlow f { w with overruns := w.overruns + 1 } (setCls k { c with flowOverruns := c.flowOverruns + 1 } s)
      stallPort t (count (5 + k) 0x0305 (raise 50 s1))
    else noteDepth k (count (5 + k) 0x0301 (setFlow f { w with queue := w.queue ++ [t] } s))
  else count (5 + k) 0x0301 (taskDue t s)

/-- A held task reaches its release time (R240). -/
def releaseHeld (t : Task) (s0 : State) : State :=
  let s := advanceTo (longOf s0 t.d.release.toNat) s0
  let k := t.d.cls.val
  let c := clsOf s k
  let s1 := setCls k { c with held := c.held.erase t } s
  if fftWaits s t.d then suspend t s1 else makeReady t s1

/-- TASK_RELEASE: a task that is held reaches its release time; one that the scheduler does not hold yet is enqueued (R240, R245,
R246). A descriptor that no producer of the device forms (R242) is no task. -/
def taskRelease (d : Descriptor) (s : State) : State :=
  match (clsOf s d.cls.val).held.find? (fun t => t.d = d) with
  | some t => releaseHeld t s
  | none =>
    if !descOk s d then s
    else enqueueTask d (if d.type = 0x0003 then { s with trc := { s.trc with frf := s.trc.frf.map (fun f => { f with block := f.block + 1 }) } } else s)

/-- The place of a task's share in the ledger: the order of placement (R149). -/
def placement (s : State) (t : Task) : Nat :=
  s.sch.shares.findIdx (fun e => e.cls = 1 && e.object = t.d.object.toNat)

/-- Whether one ready task goes before another (R240, R149): level, then for lanes deadline and placement order, for the others the
order in which they became ready, ties by lower flow. -/
def before (s : State) (k : Nat) (a b : Task) : Bool :=
  if a.d.level ≠ b.d.level then a.d.level < b.d.level
  else if k = 1 then
    let late := signedOf 32 (a.d.deadline.toNat + 2 ^ 32 - b.d.deadline.toNat)
    if late ≠ 0 then late < 0
    else if placement s a ≠ placement s b then placement s a < placement s b
    else a.order < b.order
  else if a.readyAt ≠ b.readyAt then a.readyAt < b.readyAt
  else if a.d.flow ≠ b.d.flow then a.d.flow < b.d.flow
  else a.order < b.order

/-- The first of a list by an order. -/
def firstBy (lt : Task → Task → Bool) : List Task → Option Task
  | [] => none
  | a :: r => match firstBy lt r with
    | none => some a
    | some b => if lt b a then some b else some a

/-- The cycles that ADMIT tasks have run on a core since the cadence start (R243). -/
def admitUsed (s : State) (u : Nat) : Nat :=
  let e := tget (0, 0) s.sch.admitLoad u
  if e.1 = s.cad.start then e.2 else 0

/-- Whether a core has used up its ADMIT budget of 0.3·T_cad (R243). -/
def admitSpent (s : State) (u : Nat) : Bool := s.cad.ns * 3 / 10 ≤ admitUsed s u

/-- The lowest free unit that a task may take. -/
def freeUnitFor (s : State) (t : Task) : Option Nat :=
  let k := t.d.cls.val
  let u := t.d.unit.toNat
  let ok (v : Nat) : Bool := unitUp s k v && onUnit s k v = none && !(t.d.type = 0x0040 && admitSpent s v)
  if u = 255 then (List.range (classUnits k)).find? ok else if u < classUnits k && ok u then some u else none

/-- The histogram bin of a wait (R253). -/
def waitBin (w : Nat) : Nat := if w < 16 then 0 else min 15 (Nat.log2 w - 3)

/-- TASK_DISPATCH: a free unit takes the first ready task of the highest level (R240, R253). -/
def taskDispatch (k : Nat) (s : State) : State :=
  let c := clsOf s k
  match firstBy (before s k) (c.ready.filter (fun t => (freeUnitFor s t).isSome)) with
  | none => s
  | some t => match freeUnitFor s t with
    | none => s
    | some u =>
      let b := waitBin (now s - t.readyAt)
      let c1 := { c with ready := c.ready.erase t, hist := lset c.hist b (lget 0 c.hist b + 1) }
      let s1 := setOnUnit k u (some t) (setCls k c1 s)
      let s2 := { s1 with sch := { s1.sch with busyFrom := tset 0 s1.sch.busyFrom (64 * k + u) (now s) } }
      let s3 := if noFlow t.d then s2 else setFlow t.d.flow.toNat { flowOf s2 t.d.flow.toNat with service := some t } s2
      noteDepth k (count (5 + k) 0x0302 s3)

/-- The next task of a flow moves up (R246, R247). -/
def flowNext (f : Nat) (s : State) : State :=
  let w := flowOf s f
  match w.queue with
  | [] => setFlow f { w with service := none } s
  | t :: r => taskDue t (setFlow f { w with service := none, queue := r } s)

/-- The time since a unit took its task. -/
def served (s : State) (k u : Nat) : Nat := now s - tget 0 s.sch.busyFrom (64 * k + u)

/-- A task frees its unit, and the next task of its flow moves up. -/
def freeUnitOf (k u : Nat) (t : Task) (s : State) : State :=
  let s1 := setOnUnit k u none s
  noteDepth k (if noFlow t.d then s1 else flowNext t.d.flow.toNat s1)

/-- An ADMIT task has run `n` cycles on core `u`: they count in the core's budget, and reaching it is a BUDGET_HIT (R243, R408). -/
def admitRan (u n : Nat) (s : State) : State :=
  let used := admitUsed s u + n
  let s1 := { s with sch := { s.sch with admitLoad := tset (0, 0) s.sch.admitLoad u (s.cad.start, used) } }
  if admitSpent s u || used < s.cad.ns * 3 / 10 then s1 else count (1 + u) 0x0205 s1

/-- TASK_END: a task frees its unit, and the next task of its flow becomes ready (R241, R246); the cycles of an ADMIT task count in
its core's budget (R243). -/
def taskEnd (k u : Nat) (s : State) : State :=
  match onUnit s k u with
  | none => s
  | some t =>
    let dt := served s k u * classMHz k / 1000
    let s1 := addBusy k u dt s
    let s2 := if k = 4 && t.d.type = 0x0046 then count (1 + u) 0x0206 s1 else if k = 2 then
      count (if u < 16 then 106 else 108) 0x0601 s1 else s1
    freeUnitOf k u t (if t.d.type = 0x0040 then admitRan u dt s2 else s2)

/-- FFT_SLICE_END: at the end of its slice of 0.25·T_cad an FFT_BLOCK is suspended until the next compute end (R241). -/
def fftSliceEnd (u : Nat) (s : State) : State :=
  match onUnit s 0 u with
  | none => s
  | some t =>
    if t.d.type ≠ 0x0003 then s
    else
      let slice := s.cad.ns / 4
      let s1 := advanceTo (tget 0 s.sch.busyFrom u + slice) s
      let dt := min slice (served s1 0 u)
      countN (10 + u) 0x0407 dt (suspend t (addBusy 0 u dt (setOnUnit 0 u none s1)))

/-- Suspended FFT blocks resume after the compute end (R241). -/
def resumeFft (s : State) : State :=
  let c := clsOf s 0
  c.suspended.foldl (fun u t => makeReady t u) (setCls 0 { c with suspended := [] } s)

/-- ENQUEUE_RESUME: a stalled producer's first task goes on once a descriptor or a queue place is free (R245). -/
def enqueueResume (k : Nat) (s : State) : State :=
  let c := clsOf s k
  match c.stalledTasks with
  | [] => setCls k { c with stalled := false } s
  | t :: r =>
    let w := flowOf s t.d.flow.toNat
    let room := (periodic t.d || 0 < poolFree s k) && (noFlow t.d || !flowBusy s t.d.flow.toNat || w.queue.length < w.qlim)
    if room then enqueueTask t.d (setCls k { c with stalledTasks := r, stalled := r ≠ [] } s) else s

/-! The WCET table. -/

/-- A term of a WCET entry. -/
def wTerm (coef dv outer e0 e1 e2 e3 : Nat) : List Byte :=
  fields [(4, coef), (2, dv), (1, outer), (1, e0 + 4 * e1 + 16 * e2 + 64 * e3)]

/-- A WCET entry (table "WCET entry"). -/
def wEntry (type cls src : Nat) (params : List Nat) (terms : List (List Byte)) : List Byte :=
  fields [(2, type), (1, cls), (1, src), (1, terms.length), (3, 0)] ++ fit 4 (params.map (BitVec.ofNat 8 ·)) ++ leBytes 4 0
    ++ fit 96 terms.flatten

/-- The terms of the lane time (R148), with P0 to P3 = n, m, K, ρr. -/
def qpTerms : List (List Byte) :=
  [wTerm 600 1 0 0 0 0 0, wTerm 1 24 0 3 0 0 0, wTerm 1 8 4 2 0 0 0, wTerm 1 4 4 1 1 0 0, wTerm 6 1 4 1 0 0 0,
   wTerm 4 1 4 0 1 0 0, wTerm 150 1 4 0 0 0 0, wTerm 1 4 12 2 0 0 0, wTerm 2 1 12 1 0 0 0]

/-- The terms shared by the KDE types that are not FREE (R82), with P0 = n. -/
def kdeTerms : List (List Byte) := [wTerm 900 1 0 0 0 0 0, wTerm 630 1 0 1 0 0 0, wTerm 40 1 0 2 0 0 0]

/-- A constant term. -/
def wConst (n : Nat) : List (List Byte) := [wTerm n 1 0 0 0 0 0]

/-- The entry of a task type (R251, table "STATIC entries"). The manual gives FFT_BLOCK, UNTIMED and HOUSEKEEP no
WCET: their one coefficient is a free value. -/
def wcetEntry (type : Nat) (cascade : Bool) (freeW : Nat) : Option (List Byte) :=
  match type with
  | 0x0001 => some (if cascade then wEntry 1 0 0 [1, 2] [wTerm 1100 1 0 0 0 0 0, wTerm 90 1 0 1 0 0 0, wTerm 100 1 0 0 1 0 0]
      else wEntry 1 0 0 [1, 2] [wTerm 1400 1 0 0 0 0 0, wTerm 80 1 0 1 0 0 0, wTerm 100 1 0 0 1 0 0])
  | 0x0002 => some (wEntry 2 0 1 [0x0A] [wTerm 200 1 0 0 0 0 0, wTerm 20 1 0 1 0 0 0])
  | 0x0003 => some (wEntry 3 0 1 [] (wConst freeW))
  | 0x0010 => some (wEntry 0x10 1 0 [5, 6, 7, 8] qpTerms)
  | 0x0011 => some (wEntry 0x11 1 0 [5, 6, 7, 8] qpTerms)
  | 0x0020 => some (wEntry 0x20 2 1 [3] [wTerm 900 1 0 0 0 0 0, wTerm 120 1 0 1 0 0 0])
  | 0x0021 => some (wEntry 0x21 2 0 [3] [wTerm 100 1 0 0 0 0 0, wTerm 60 1 0 1 0 0 0])
  | 0x0022 => some (wEntry 0x22 2 0 [3] kdeTerms)
  | 0x0023 => some (wEntry 0x23 2 0 [3] (kdeTerms ++ wConst 1800))
  | 0x0024 => some (wEntry 0x24 2 0 [3, 4, 9] (kdeTerms ++ [wTerm 400 1 4 0 0 0 0, wTerm 150 1 4 0 1 0 0]))
  | 0x0030 => some (wEntry 0x30 3 0 [5, 6] [wTerm 400 1 0 0 0 0 0, wTerm 1 512 0 2 1 0 0, wTerm 1 32 0 1 1 0 0,
      wTerm 8 1 0 1 0 0 0, wTerm 8 1 0 0 1 0 0])
  | 0x0031 => some (wEntry 0x31 3 0 [5, 6] [wTerm 400 1 0 0 0 0 0, wTerm 1 512 0 2 1 0 0, wTerm 1 32 0 1 1 0 0,
      wTerm 8 1 0 1 0 0 0, wTerm 8 1 0 0 1 0 0])
  | 0x0040 => some (wEntry 0x40 4 1 [] (wConst 180))
  | 0x0041 => some (wEntry 0x41 4 1 [] (wConst 800))
  | 0x0042 => some (wEntry 0x42 4 1 [] (wConst 3000))
  | 0x0043 => some (wEntry 0x43 4 1 [0x0B] [wTerm 1500 1 0 0 0 0 0, wTerm 700 1 0 1 0 0 0])
  | 0x0044 => some (wEntry 0x44 4 1 [] (wConst 4400))
  | 0x0045 => some (wEntry 0x45 4 1 [] (wConst 2320))
  | 0x0046 => some (wEntry 0x46 4 1 [] (wConst freeW))
  | 0x0047 => some (wEntry 0x47 4 1 [] (wConst freeW))
  | _ => none

/-! Commands. -/

/-- sched.status (table "sched.status result"). -/
def schedStatusSpec : CmdSpec where
  opcode := 0x0501
  objOk := objBelow 5
  inFault _ := true
  body c s :=
    let k := c.h.object
    let x := clsOf s k
    let up := ((List.range (classUnits k)).filter (unitUp s k)).length
    { act := fun t => { s := t, res := fields [(1, k), (1, up), (2, 0), (4, x.ready.length), (4, x.depthMax),
        (4, poolFree s k), (4, min x.poolMin (poolFree s k)), (4, reserved s.sch.shares k), (4, x.stalls.toNat),
        (4, x.flowOverruns.toNat), (4, x.deadlineMisses.toNat), (4, x.cancelled.toNat), (8, x.clearTime.toNat)]
        ++ x.hist.flatMap (fun w => leBytes 4 w.toNat) ++ List.replicate 16 0 } }

/-- sched.load (R254). -/
def schedLoadSpec : CmdSpec where
  opcode := 0x0502
  objOk := objBelow 5
  inFault _ := true
  body c s :=
    let k := c.h.object
    { act := fun t => { s := t, res := fields [(1, k), (1, classUnits k), (2, 0), (4, s.cad.round),
        (8, s.sch.roundStart.toNat)] ++ (List.range (classUnits k)).flatMap (fun u =>
          if unitUp s k u then fields [(4, committed s.sch.shares k u), (4, tget 0 s.sch.latched (64 * k + u))]
          else fields [(4, 0xFFFFFFFF), (4, 0xFFFFFFFF)]) } }

/-- sched.wcet (R250). -/
def schedWcetSpec : CmdSpec where
  opcode := 0x0503
  lenOk n _ := n = 4
  objOk o _ := (wcetEntry o false 0).isSome
  inFault _ := true
  body c s :=
    let w := wcetEntry c.h.object (bitOf (u32 c.p 0) 0) ((freeNow s).toNat % 2 ^ 32)
    { bad := [(2 ≤ u32 c.p 0, .badArg)], act := fun t => { s := freeNext t, res := w.getD [] } }

/-- sched.set_watermarks (R245). -/
def schedSetWatermarksSpec : CmdSpec where
  opcode := 0x0504
  lenOk n _ := n = 8
  objOk := objBelow 5
  body c s :=
    let k := c.h.object
    { bad := [(!zeroAt c.p 4 4, .badArg), (u16 c.p 0 = 0 || 4096 < u16 c.p 0 || 1023 < u16 c.p 2, .outOfRange)]
      act := fun t => { s := setCls k { clsOf s k with depthHw := u16 c.p 0, poolLw := u16 c.p 2 } t } }

/-- sched.clear_stats (R253): maxima and minima restart from the present values. -/
def schedClearStatsSpec : CmdSpec where
  opcode := 0x0505
  objOk := objBelow 5
  body c s :=
    let k := c.h.object
    let x := clsOf s k
    { act := fun t => { s := setCls k { x with
        depthMax := x.ready.length, poolMin := poolFree s k, stalls := 0, flowOverruns := 0, deadlineMisses := 0
        cancelled := 0, hist := List.replicate 16 0, clearTime := s.time.long } t } }

/-- The owner of a flow: kind and number (table "Flow numbers"); which flows the firmware has assigned is its own matter. -/
def flowOwner (f : Nat) : Nat × Nat :=
  if f < 128 then (1, f) else if f < 144 then (2, f - 128) else if f < 208 then (3, f - 144)
  else if f < 224 then (2, f - 208) else if f < 232 then (4, f - 224) else if f < 240 then (0, 0)
  else if f < 248 then (5, f - 240) else if f < 251 then (6, f) else if f < 256 then (0, 0)
  else if Config.firmwareFlow f = 0 then (0, 0) else (7, Config.firmwareFlow f - 1)

/-- The state of a flow: 0 UNUSED, 1 IDLE, 2 IN_SERVICE. -/
def flowState (o : Nat) (s : State) : Nat :=
  if (flowOf s o).service.isSome then 2 else if (flowOwner o).1 = 0 then 0 else 1

/-- The 32 bytes of a descriptor (table "Task descriptor"). -/
def descBytes (d : Descriptor) : List Byte :=
  fields [(2, d.type.toNat), (1, d.cls.val), (1, d.level.val), (1, d.unit.toNat), (1, d.flags.toNat), (2, d.flow.toNat),
    (4, d.release.toNat), (4, d.deadline.toNat), (4, d.object.toNat), (4, d.arg.toNat), (4, d.origin.toNat), (4, d.seq.toNat)]

/-- sched.flow_status (R246). -/
def schedFlowStatusSpec : CmdSpec where
  opcode := 0x0506
  objOk := objBelow 65536
  stateOf := flowState
  inFault _ := true
  body c s :=
    let f := c.h.object
    let w := flowOf s f
    { act := fun t => { s := t, res := fields [(1, flowState f s), (1, w.qlim), (1, w.queue.length), (1, (flowOwner f).1),
        (4, (flowOwner f).2), (4, w.overruns.toNat), (4, 0)] ++ (match w.service with
          | some x => descBytes x.d
          | none => List.replicate 32 0) } }

/-- sched.flow_limit (R246). -/
def schedFlowLimitSpec : CmdSpec where
  opcode := 0x0507
  lenOk n _ := n = 4
  objOk := objBelow 65536
  stateOf := flowState
  kind _ _ _ := .cadence
  body c s :=
    let f := c.h.object
    { bad := [(!zeroAt c.p 1 3, .badArg), (u8 c.p 0 = 0, .outOfRange),
              ((flowOwner f).1 = 0 || u8 c.p 0 < (flowOf s f).queue.length, .stateConflict)]
      act := later c }

/-- What sched.flow_limit does at its cadence start. -/
def flowLimitEff (e : Eff) (s : State) : State := setFlow e.object { flowOf s e.object with qlim := u8 e.p 0 } s

/-- The opcodes of the untimed commands (the effect-time columns of the command tables). -/
def untimedOps : List Nat :=
  [0x0101, 0x0103, 0x0104, 0x0105, 0x0201, 0x0205, 0x0303, 0x0305, 0x0308, 0x030B, 0x030C, 0x0402, 0x0406, 0x0501, 0x0502, 0x0503, 0x0506, 0x0602,
   0x070B, 0x0A05, 0x0A06, 0x0B07, 0x0B08, 0x0C06, 0x0C07, 0x0C0A, 0x0D04, 0x0E05, 0x0F08, 0x1009, 0x1102, 0x1201,
   0x1202, 0x1203, 0x1204, 0x1206, 0x1301, 0x1302, 0x1303, 0x1304, 0x1305, 0x1306, 0x1307]

/-- Whether a task's ORIGIN names slot `k` of mailbox `m` and it requested a completion. -/
def fromSlot (m k : Nat) (t : Task) : Bool :=
  t.d.flags.getLsbD 2 && t.d.origin.toNat / 65536 % 32 = k && t.d.origin.toNat / 2 ^ 21 % 8 = m

/-- The tasks that a unit has taken in the present scheduler cycle: a cancellation of the same cycle goes before dispatch (R247). -/
def justTaken (s : State) : List (Nat × Task) :=
  s.sch.units.filterMap (fun e => e.2.bind (fun t => if tget 0 s.sch.busyFrom e.1 = now s then some (e.1, t) else none))

/-- A task taken in the cycle of its cancellation is not dispatched: its unit is free again. -/
def undispatch (s : State) (e : Nat × Task) : State :=
  let k := e.1 / 64
  let c := clsOf s k
  let s1 := setOnUnit k (e.1 % 64) none (setCls k { c with cancelled := c.cancelled + 1 } s)
  if noFlow e.2.d then s1 else setFlow e.2.d.flow.toNat { flowOf s1 e.2.d.flow.toNat with service := none } s1

/-- Remove the waiting tasks of a cancelled command (R247), from the lists of its classes and from flow queues. -/
def cancelTasks (m k : Nat) (s : State) : State :=
  let s0 := ((justTaken s).filter (fun e => fromSlot m k e.2)).foldl undispatch s
  let queued := (s0.sch.flows.flatMap (fun f => f.2.queue)).filter (fromSlot m k)
  let keep (l : List Task) : List Task := l.filter (fun t => !fromSlot m k t)
  let s1 := forNat (List.range 5) (fun j t =>
    let c := clsOf t j
    let n := ((c.held ++ c.ready ++ c.suspended ++ c.stalledTasks).filter (fromSlot m k)).length
      + (queued.filter (fun q => q.d.cls.val = j)).length
    setCls j { c with
      held := keep c.held, ready := keep c.ready, suspended := keep c.suspended, stalledTasks := keep c.stalledTasks
      cancelled := c.cancelled + BitVec.ofNat 32 n } t) s0
  let s2 := { s1 with sch := { s1.sch with flows := s1.sch.flows.map (fun f => (f.1, { f.2 with queue := keep f.2.queue })) } }
  -- the next task of a flow whose task was cancelled moves up
  let s3 := (tkeys s2.sch.flows).foldl (fun u f =>
    if flowBusy u f || (flowOf u f).queue = [] then u else flowNext f u) s2
  forNat (List.range 5) noteDepth s3

/-- Whether the work of a later-completing command has begun: a bus request sent or a firmware operation. -/
def inProgress (s : State) (m k : Nat) : Bool :=
  s.bus.any (fun b => b.2.acyclic.any (fun a => a.mb = m && a.slot = k && a.sent))
  || s.bus.any (fun b => b.2.loading = some (m, k) || (match b.2.start with
    | some o => o.mb = m && o.slot = k
    | none => false))
  || s.pel.started = some (m, k)
  || (match s.dev.op with
    | some o => o.mb = m && o.slot = k
    | none => false)
  || (match s.dev.replay with
    | some r => r.mb = m && r.slot = k
    | none => false)
  || (match s.trc.frf with
    | some f => f.mb = m && f.slot = k
    | none => false)

/-- The reason for which sched.cancel refuses: 0 not POSTED, 1 not untimed, 2 a task already dispatched (R255); a command that waits
for a descriptor (R54) can be cancelled whatever its kind. -/
def cancelReason (s : State) (m k : Nat) : Option Nat :=
  if slotOf s m k ≠ .posted then some 0
  else if bellOf s m k ≠ 0 && poolFree s 4 = 0 then none
  else if !untimedOps.contains (hdrOf s m k).opcode then some 1
  else if inProgress s m k || (s.sch.units.any (fun e => match e.2 with
    | some t => fromSlot m k t && tget 0 s.sch.busyFrom e.1 ≠ now s
    | none => false)) then some 2
  else none

/-- sched.cancel (R247, R255). -/
def schedCancelSpec : CmdSpec where
  opcode := 0x0508
  objOk := objBelow 256
  stateOf o s := (cancelReason s (o / 32) (o % 32)).getD 0xFFFFFFFF
  body c s :=
    let m := c.h.object / 32
    let k := c.h.object % 32
    { bad := [(c.mb ≠ 0 && c.mb ≠ imageMb && m ≠ c.mb, .notPrivileged), ((cancelReason s m k).isSome, .stateConflict)]
      act := fun t => { s := cancelTasks m k (complete m k .cancelled (now t) 0xFFFFFFFF [] t), state := some 0xFFFFFFFF } }

/-- COMMAND_NO_CREDIT: a command that SUP has not taken while the pool is exhausted completes 50 µs after its doorbell (R54). -/
def noCredit (m k : Nat) (s : State) : State :=
  if slotOf s m k = .posted && bellOf s m k ≠ 0 && poolFree s 4 = 0 then
    complete m k .noCredit 0 0xFFFFFFFF [] (advanceTo (bellOf s m k - 1 + 50000) s)
  else s

/-! The meanings of the rows. -/

/-- SCHED_STATUS (R253). -/
def execSchedStatus (c : CmdRef) (s : State) : Host.Outcome State Fault Refusal := .next (runCmd schedStatusSpec c s)
/-- SCHED_LOAD (R254). -/
def execSchedLoad (c : CmdRef) (s : State) : Host.Outcome State Fault Refusal := .next (runCmd schedLoadSpec c s)
/-- SCHED_WCET (R250). -/
def execSchedWcet (c : CmdRef) (s : State) : Host.Outcome State Fault Refusal := .next (runCmd schedWcetSpec c s)
/-- SCHED_SET_WATERMARKS (R245). -/
def execSchedSetWatermarks (c : CmdRef) (s : State) : Host.Outcome State Fault Refusal :=
  .next (runCmd schedSetWatermarksSpec c s)
/-- SCHED_CLEAR_STATS (R253). -/
def execSchedClearStats (c : CmdRef) (s : State) : Host.Outcome State Fault Refusal := .next (runCmd schedClearStatsSpec c s)
/-- SCHED_FLOW_STATUS (R246). -/
def execSchedFlowStatus (c : CmdRef) (s : State) : Host.Outcome State Fault Refusal := .next (runCmd schedFlowStatusSpec c s)
/-- SCHED_FLOW_LIMIT (R246). -/
def execSchedFlowLimit (c : CmdRef) (s : State) : Host.Outcome State Fault Refusal := .next (runCmd schedFlowLimitSpec c s)
/-- SCHED_CANCEL (R255). -/
def execSchedCancel (c : CmdRef) (s : State) : Host.Outcome State Fault Refusal := .next (runCmd schedCancelSpec c s)
/-- COMMAND_NO_CREDIT (R54). -/
def execCommandNoCredit (m : Fin 8) (k : Fin 32) (s : State) : Host.Outcome State Fault Refusal := .next (noCredit m.val k.val s)
/-- TASK_RELEASE (R240). -/
def execTaskRelease (d : Descriptor) (s : State) : Host.Outcome State Fault Refusal := .next (taskRelease d s)
/-- TASK_DISPATCH (R240). -/
def execTaskDispatch (k : Fin 5) (s : State) : Host.Outcome State Fault Refusal := .next (taskDispatch k.val s)
/-- TASK_END (R241). -/
def execTaskEnd (k : Fin 5) (u : Fin 64) (s : State) : Host.Outcome State Fault Refusal := .next (taskEnd k.val u.val s)
/-- FFT_SLICE_END (R241). -/
def execFftSliceEnd (u : Fin 32) (s : State) : Host.Outcome State Fault Refusal := .next (fftSliceEnd u.val s)
/-- ENQUEUE_RESUME (R245). -/
def execEnqueueResume (k : Fin 5) (s : State) : Host.Outcome State Fault Refusal := .next (enqueueResume k.val s)

end Sys2Proof.Machine
end

