-- ==== Sys2Proof/Machine/Ssm.lean ====
section
/-!
DEFINITION. The rest of separation monitoring: sensor records (R220 to R222), guard boundaries and verdict deadlines (R26, R27,
R228, R229, R235), the stop requests of the table "Separation stop outcomes" (R237), and the ssm commands.
-/
namespace Sys2Proof.Machine

/-! Sensor records. -/

/-- Whether period number `a` of `n` bits is newer than `b` (R220). -/
def newer (n a b : Nat) : Bool := let d := (a + 2 ^ n - b) % 2 ^ n; 0 < d && d < 2 ^ (n - 1)

/-- One more part of a kind of record; a newer period begins anew, an older one is not taken. -/
def Parts.add (n : Nat) (p : Parts) (seq part need stamp : Nat) (runs : List (Nat × Nat)) : Parts :=
  let new : Parts := { seq := some seq, stamp := stamp, got := [part], need := need, runs := runs }
  match p.seq with
  | none => new
  | some q =>
    if q = seq then
      (if p.got.contains part then p else { p with stamp := stamp, got := part :: p.got, need := need, runs := p.runs ++ runs })
    else if newer n seq q then new else p

/-- Whether every part has arrived. -/
def Parts.whole (p : Parts) : Bool := (List.range p.need).all (fun i => p.got.contains i)

/-- Whether the tracks of a period are all there: none are sent, or COUNT of them have come. -/
def tracksWhole (x : Sensor) (q8 : Nat) : Bool :=
  !bitOf (u8 x.cfg 3) 0 || (x.track.seq = some q8 && x.track.need ≤ x.tracks.length)

/-- The tracks of the period that arrives. -/
def newTracks (x : Sensor) : List (Nat × Track) := if bitOf (u8 x.cfg 3) 0 then x.tracks else []

/-- Updates that a record completes, on channel 1 and on channel 2 (R220, R231). -/
def completeUpdates (t : Nat) (link : Bool) (x : Sensor) : Sensor :=
  let x1 := match x.fine.seq with
    | some q =>
      let new := match x.done1 with
        | some u => newer 16 q u.seq
        | none => true
      if new && x.fine.whole && x.coarse.seq = some (q % 256) && x.coarse.whole && tracksWhole x (q % 256) then
        { x with done1 := some { seq := q, stamp := x.fine.stamp, at' := t, runs := x.fine.runs, tracks := newTracks x } }
      else x
    | none => x
  match x.coarse.seq with
  | some q =>
    let new := match x.done2 with
      | some u => newer 8 q u.seq
      | none => true
    let stamp := if bitOf (u8 x.cfg 3) 0 && x.track.need ≠ 0 then x.track.stamp else t
    if link && new && x.coarse.whole && tracksWhole x q then
      { x1 with done2 := some { seq := q, stamp := stamp, at' := t, runs := x.coarse.runs, tracks := newTracks x } }
    else x1
  | none => x1

/-- The runs of a record: `n` of them from offset `o`, `step` bytes each, START of `w` bytes; unused ones have length 0. -/
def readRuns (b : List Byte) (o step w n : Nat) : List (Nat × Nat) :=
  ((List.range n).map (fun i => (be b (o + step * i) w, be b (o + step * i + w) 2))).filter (fun e => e.2 ≠ 0)

/-- Three signed 16-bit fields in network byte order. -/
def be3 (b : List Byte) (o : Nat) : List Int := (List.range 3).map (fun i => signedOf 16 (be b (o + 2 * i) 2))

/-- Whether a record is discarded (R220): its CRC, its sensor number, or a run past the last index. -/
def recordBad (n : Nat) (b : List Byte) : Bool :=
  let len := b.length
  let kind := u8 b 0
  let want := if kind = 1 then 16 + 8 * be b 6 2 else 28
  let past := if kind = 1 then (readRuns b 12 8 4 (be b 6 2)).any (fun e => 512 * 512 * 128 < e.1 + e.2)
    else kind = 2 && (readRuns b 4 4 2 5).any (fun e => 64 * 64 * 16 < e.1 + e.2)
  len ≠ want || (crc32c (b.take (len - 4))).toNat ≠ leNat (b.drop (len - 4)) || u8 b 1 ≠ n || past

/-- What a good record adds to a sensor. -/
def takeRecord (s : State) (b : List Byte) (x : Sensor) : Sensor :=
  let kind := u8 b 0
  let q8 := u8 b 2
  if kind = 1 then
    if u8 b 3 = 0 || 64 < u8 b 3 || u8 b 3 ≤ u8 b 2 || 125 < be b 6 2 then x
    else { x with fine := x.fine.add 16 (be b 4 2) (u8 b 2) (u8 b 3) (longOf s (be b 8 4)) (readRuns b 12 8 4 (be b 6 2)) }
  else if kind = 2 then
    { x with coarse := x.coarse.add 8 q8 (u8 b 3 / 16) (u8 b 3 % 16 + 1) (now s) (readRuns b 4 4 2 5) }
  else if kind = 3 && bitOf (u8 x.cfg 3) 0 then
    let t := x.track.add 8 q8 (u8 b 3 % 64) (u8 b 4) (if u8 b 4 = 0 then now s else longOf s (be b 20 4)) []
    if t = x.track then x else
    let tr : Track := { pos := be3 b 6, vel := be3 b 12, radius := be b 18 2 }
    let old := if t.seq = x.track.seq then x.tracks else []
    { x with track := t, tracks := if u8 b 4 = 0 then old else tinsert (u8 b 3 % 64) tr (tdrop old (u8 b 3 % 64)) }
  else x

/-- SENSOR_RECORD (R220, R231): a record of the sensor station at `st` of segment `k`; COARSE and TRACK records go on to die F
untouched. -/
def sensorRecord (k st : Nat) (b : List Byte) (s : State) : State :=
  let mine := (List.range 16).filter (fun n => let c := (sensOf s n).cfg; u8 c 0 = 1 && u8 c 1 = k && u8 c 2 = st)
  match (mine.find? (fun n => n = u8 b 1)).or mine.head? with
  | none => s
  | some n =>
    if (segOf s k).state ≠ 3 || (segOf s k).silence.getLsbD st then s
    else if recordBad n b then
      let x := sensOf s n
      count 111 0x0703 (setSens n { x with discards := x.discards + 1 } s)
    else
      let s1 := if u8 b 0 = 2 || u8 b 0 = 3 then xsend .f 0x09 b s else s
      setSens n (completeUpdates (now s) (xlinkCarries s) (takeRecord s b (sensOf s n))) s1

/-! Guard boundaries. -/

/-- Whether a channel counts a sensor stale at an instant (R222). -/
def sensorOld (t : Nat) (c : List Byte) (u : Option Update) : Bool := match u with
  | none => true
  | some v => v.stamp + 2000 * u32 c 4 ≤ t

/-- The boundary's part of one sensor (R221, R222). -/
def sensorBoundary (n : Nat) (s : State) : State :=
  let x := sensOf s n
  if u8 x.cfg 0 ≠ 1 then s else
  let t := s.cad.start
  let old1 := sensorOld t x.cfg x.done1
  let s1 := if x.act1 = x.done1 then s else count 110 0x0702 s
  let s2 := setSens n { x with
    act1 := x.done1, act2 := x.done2, stale1 := old1, stale2 := sensorOld t x.cfgF x.done2, recorded := x.recorded && old1 } s1
  if x.recorded && !old1 then journal 0x0C 0x11 0 n 0 [] s2 else s2

/-- GUARD_BOUNDARY: the grid buffers swap (R221). -/
def guardBoundary (s : State) : State :=
  if s.cad.started && s.cad.start % (s.cad.guardPer * s.cad.ns) = 0 && s.cad.guardAt ≠ s.cad.start + 1 then
    forNat (tkeys s.ssm.sens) sensorBoundary { s with cad := { s.cad with guardAt := s.cad.start + 1, guardStart := s.cad.start } }
  else s

/-- SENSOR_STALE: the entry to the stale state (R222). -/
def sensorStale (n : Nat) (s : State) : State :=
  let x := sensOf s n
  if u8 x.cfg 0 = 1 && x.stale1 && !x.recorded && s.cad.guardAt ≠ 0 then
    count 110 0x0704 (raise 80 (journal 0x0C 0x10 1 n 0 [] (setSens n { x with recorded := true } s)))
  else s

/-! Verdicts. -/

/-- CH2_VERDICT: die M receives the verdicts of groups 2p and 2p + 1 (R234). -/
def ch2Verdict (p : Nat) (s : State) : State :=
  if !xlinkCarries s then s
  else forNat [2 * p, 2 * p + 1] (fun g t => modSsm g (fun y => { y with
    v2 := y.v2calc.map (fun v => readVerdict (verdictRecord v)) }) t) s

/-- Whether the channels disagree on a group (R235); D_2 is the distance that the verdict record carried. -/
def disagree (c : List Byte) (a b : Verdict) : Bool :=
  let p (v : Verdict) : V3 := ⟨lget 0 v.tcp 0, lget 0 v.tcp 1, lget 0 v.tcp 2⟩
  -- no object at all on channel 1 is no distance to compare
  let none1 := 2 ^ 200 ≤ a.d
  f32 (u32 c 20) < ((p a).sub (p b)).norm || f32 (u32 c 24) < b.d - a.d
    || f32 (u32 c 28) < (if none1 && b.d = (65535 : Int) * 2 ^ 80 / 1000 then 0 else a.d - b.d)

/-- The entries of an own-scale history that still matter. -/
def pruneOwn (t span : Nat) : List (Nat × Nat) → List (Nat × Nat)
  | [] => []
  | e :: r => if e.1 + span ≤ t then [e] else e :: pruneOwn t span r

/-- A group's governing scale (R26, R228). -/
def setGov (g k : Nat) (s : State) : State :=
  if (grpOf s g).sGov = k then s else raise 76 (modGrp g (fun x => { x with sGov := k }) s)

/-- The verdict deadline of one monitored group. -/
def verdictGroup (g : Nat) (s : State) : State :=
  let y := ssmOf s g
  let t := now s
  let k1 := if s.ssm.fault1 then 0 else ((y.v1.map (·.k)).getD 0)
  let k2 := if s.ssm.fault2 then 0 else ((y.v2.map (·.k)).getD 0)
  let gone := y.v1.isNone || y.v2.isNone
  let bad := match y.v1, y.v2 with
    | some a, some b => disagree s.ssm.cfg a b
    | _, _ => false
  let s1 := setSsm g { y with
    s1 := k1, s2 := k2, d1 := (y.v1.map (·.d)).getD y.d1, d2 := (y.v2.map (·.d)).getD y.d2
    absent := if gone then y.absent + 1 else 0, mismatch := if bad then y.mismatch + 1 else 0
    own1 := pruneOwn t (stopNs s false g) ((t, k1) :: y.own1), own2 := pruneOwn t (stopNs s true g) ((t, k2) :: y.own2) } s
  let s2 := setGov g (min k1 k2) (raiseIf gone 81 s1)
  let stop (o : Option Verdict) (u : State) : State := match o with
    | none => u
    | some v => if v.stop = 0 then u
      -- die F has written the record of its own stop (R236)
      else if v.reason = 6 then sepRequest g 0 (noteReason g 6 u)
      else sepStop g (v.stop - 1) v.reason (fields ((4, toF32 v.d) :: if v.reason = 1 then [(2, v.obj)] else [])) u
  -- die F supervises what channel 2 has issued, whether or not die M has received it (R236)
  let s3 := if y.v2calc.any (fun v => v.stop ≠ 0) then ch2Issued g s2 else s2
  stop y.v2 (stop y.v1 s3)

/-- The verdict deadline of a group that is not monitored: scale 1, or 0 after a memory fault of a channel or a crosslink loss. -/
def verdictFree (g : Nat) (s : State) : State :=
  setGov g (if s.ssm.fault1 || s.ssm.fault2 || s.xl.lost || s.xl.stopped then 0 else 256) s

/-- Whether a verdict deadline is due (R26). -/
def verdictDue (s : State) : Bool :=
  s.cad.started && s.ssm.snapAt ≠ 0 && s.ssm.verdictAt ≠ s.ssm.snapAt
    && s.ssm.snapAt - 1 + verdictCads s * s.cad.ns ≤ s.cad.start

/-- The verdict deadline (R26, R27, R229, R235, R237). -/
def verdict (s : State) : State :=
  if !verdictDue s then s
  else
    let s1 := forNat (List.range 16) (fun g t => if monitored t g then verdictGroup g t else verdictFree g t) s
    let s2 := if s.ssm.fault1 || s.ssm.fault2 then forNat (List.range 16) (fun g t => sepStop g 1 8 [] t) s1 else s1
    { s2 with ssm := { s2.ssm with verdictAt := s.ssm.snapAt } }

/-- A verdict of a channel in the bytes of a record: D in mm and the tool point in 0.5 mm. -/
def verdictBytes (v : Verdict) : List Byte :=
  fields ((2, (min 65535 (v.d * 1000 / 2 ^ 80)).toNat) :: (List.range 3).map (fun i => (3, sn 3 (lget 0 v.tcp i * 2000 / 2 ^ 80))))

/-- TANDEM_MISMATCH (R235). -/
def tandemMismatch (g : Nat) (s : State) : State :=
  let y := ssmOf s g
  if !monitored s g || y.mismatch < max 1 (u8 s.ssm.cfg 2) then s
  else
    let d := verdictBytes (y.v1.getD {}) ++ verdictBytes (y.v2.getD {})
    let s1 := raise 78 (journal 0x0C 0x04 2 g 0 d (noteReason g 4 s))
    let s2 := if stopStarts s g 1 then modSsm g (fun z => { z with stops := z.stops + 1 }) s1 else s1
    sepRequest g 1 s2

/-- VERDICT_ABSENT (R235). -/
def verdictAbsent (g : Nat) (s : State) : State :=
  if !monitored s g || (ssmOf s g).absent < max 1 (u8 s.ssm.cfg 2) then s else sepStop g 1 5 [] s

/-- SPEED_EXCEEDED on a channel (R230). -/
def speedExceeded (g : Nat) (second : Bool) (s : State) : State :=
  let y := ssmOf s g
  if !monitored s g || (if second then y.fast2 else y.fast1) < 2 then s
  else
    let s1 := sepStop g 1 2 (fields [(4, toF32 y.vrMeas)]) s
    if second then ch2Issued g s1 else s1

/-- CH2_FEEDBACK (R233). -/
def ch2Feedback (g : Nat) (s : State) : State :=
  if monitored s g && (ssmOf s g).feed2 then ch2Issued g (sepStop g 1 9 [] s) else s

/-- CH2_OVERRIDE: die F drives STO_CH to its stop level (R236). -/
def ch2Override (g : Nat) (s : State) : State :=
  let y := ssmOf s g
  match y.ch2Stop with
  | none => s
  | some t =>
    let s1 := advanceTo (t + stopNs s true g + s.cad.guardPer * s.cad.ns) s
    let fast := f32 (u32 (chanCfg s true) 32) < capSpeed (grpOf s g).model y.cfgF (grpOf s g).payloadSel (chanPos s true g) (chanVel s true g)
    let s2 := modSsm g (fun z => { z with ch2Stop := none }) s1
    if !fast || !monitored s g then s2
    else
      count 136 0x0D05 (journalF 0x0C 0x06 3 g 0 [] (pinsOff (modChan (u8 y.cfgF 3) (fun h => { h with sto := true })
        (modSsm g (fun z => { z with override2 := true }) s2))))

/-! Commands. -/

/-- STATE of the ssm commands with a group. -/
def ssmGrpState (o : Nat) (s : State) : Nat := (grpOf s o).state.code

/-- ssm.configure (R219, R227, R231). -/
def ssmConfigureSpec : CmdSpec where
  opcode := 0x0E01
  lenOk n _ := n = 40
  body c s :=
    let p := c.p
    let r (o : Nat) (lo hi : Fx) : Bool := !f32In (u32 p o) lo hi
    { bad := [(2 ≤ u8 p 1 || u8 p 3 ≠ 0 || !zeroAt p 36 4, .badArg),
              (u8 p 0 < 10 || 50 < u8 p 0 || u8 p 2 = 0 || 16 < u8 p 2 || [4, 8, 12].any (fun o => !f32Ok (u32 p o))
                || r 16 (f32 0x3DCCCCCD) (5 * one) || r 20 (f32 0x3A83126F) (f32 0x3DCCCCCD) || r 24 0 (one / 2) || r 28 0 (2 * one)
                || r 32 0 one, .outOfRange),
              ((List.range 16).any (fun g => (grpOf s g).state ≠ .idle), .stateConflict), (!dieFTakes s p, .deviceFault)]
      act := fun t => { s := { t with ssm := { t.ssm with cfg := p, cfgF := (dieFCopy t p).getD t.ssm.cfgF } } } }

/-- The conditions of an ssm.set_group payload that are illegal combinations (R226, R341). -/
def setGroupArg (s : State) (g : Nat) (p : List Byte) : Bool :=
  let n := u8 p 0
  let ch := u8 p 3
  4 ≤ u8 p 2 || !zeroAt p 36 12 || (List.range 24).any (fun i => !zeroAt p (capOff i + 2) 2)
    || (n ≤ 24 && !zeroAt p (capOff n) (32 * (24 - n)))
    || (bitOf (u8 p 2) 1 && ch = 0xFF) || (ch < 32 && !isSto s ch)
    || !tableKept p (grpOf s g).tRamp

/-- The ranges of an ssm.set_group payload (R223, R227). -/
def setGroupRange (s : State) (p : List Byte) : Bool :=
  let n := u8 p 0
  let r (o : Nat) (lo hi : Fx) : Bool := !f32In (u32 p o) lo hi
  24 < n || (u8 p 1 ≠ 1 && u8 p 1 ≠ 2) || (31 < u8 p 3 && u8 p 3 ≠ 0xFF) || r 4 0 (2 * one) || r 8 0 (2 * one) || r 12 0 one || r 16 0 one
    || !f32Pos (u32 p 20) || r 20 0 (10 * one) || r 24 0 (one / 2) || r 28 0 one || r 32 (f32 0x3C23D70A) (10 * one)
    || (List.range (min n 24)).any (fun i =>
      let o := capOff i
      (7 < u8 p o && u8 p o ≠ 0xFF) || (List.range 6).any (fun k => !f32Ok (u32 p (o + 4 + 4 * k))) || r (o + 28) (f32 0x3A83126F) one)
    || !trKept s (sensCfgs s) p || (List.range 4).any (fun k => protDist p k (vhOf s false) 0 ≤ gF p 24)

/-- ssm.set_group (R204, R205, R223, R226, R227, R231). -/
def ssmSetGroupSpec : CmdSpec where
  opcode := 0x0E02
  lenOk n _ := n = 1104
  objOk := objBelow 16
  stateOf := ssmGrpState
  body c s :=
    let p := c.p
    let g := c.h.object
    { bad := [(!(grpOf s g).configured || (u8 p 0 ≠ 0 && (members s g).any (fun a => !(axisOf s a).map.safetyFb)), .notConfigured),
              (setGroupArg s g p, .badArg), (setGroupRange s p, .outOfRange), ((grpOf s g).state ≠ .idle, .stateConflict),
              (!dieFTakes s p, .deviceFault)]
      act := fun t =>
        let y := ssmOf t g
        let t1 := setSsm g { cfg := p, cfgF := (dieFCopy t p).getD y.cfgF, reason := y.reason, reasonAt := y.reasonAt, stops := y.stops } t
        let t2 := modGrp g (fun x => { x with stoEnable := bitOf (u8 p 2) 1, stoCh := u8 p 3 }) t1
        { s := if u8 p 0 = 0 then setGov g 256 t2 else t2 } }

/-- The bytes of slot `i` of an ssm.set_obstacles payload. -/
def obsSlot (p : List Byte) (i : Nat) : List Byte := (p.drop (8 + 32 * i)).take 32

/-- ssm.set_obstacles (R206). -/
def ssmSetObstaclesSpec : CmdSpec where
  opcode := 0x0E03
  lenOk n p := n = 8 + 32 * u8 p 0
  objOk := objBelow 256
  body c s :=
    let p := c.p
    let n := u8 p 0
    let slots := (List.range n).map (obsSlot p)
    { bad := [(!zeroAt p 1 7 || slots.any (fun b => 2 < u8 b 0 || !zeroAt b 1 3 || (u8 b 0 = 2 && (u32 b 28 ≠ 0 ||
                (List.range 3).any (fun i => f32 (u32 b (16 + 4 * i)) < f32 (u32 b (4 + 4 * i)))))), .badArg),
              (n = 0 || 64 < n || 256 < c.h.object + n || slots.any (fun b => u8 b 0 ≠ 0 &&
                ((List.range 7).any (fun i => !f32Ok (u32 b (4 + 4 * i))) || f32 (u32 b 28) < 0)), .outOfRange)]
      act := fun t => { s := { t with ssm := { t.ssm with
        obsNext := s.ssm.obsNext ++ (List.range n).map (fun i => (c.h.object + i, obsSlot p i)) } } } }

/-- Obstacle slots written since take effect at the planning snapshot (R206). -/
def obstacleSnapshot (s : State) : State :=
  { s with ssm := { s.ssm with
    obs := s.ssm.obsNext.foldl (fun t e => tset [] t e.1 (if u8 e.2 0 = 0 then [] else e.2)) s.ssm.obs, obsNext := [] } }

/-- ssm.set_sensor (R7, R220, R227). -/
def ssmSetSensorSpec : CmdSpec where
  opcode := 0x0E04
  lenOk n _ := n = 32
  objOk := objBelow 16
  kind _ _ _ := .round
  body c s :=
    let p := c.p
    let others := (s.ssm.sens.filter (fun e => e.1 ≠ c.h.object)).map (fun e => e.2.cfg)
    let fov (o : Nat) : Bool := 511 < u16 p o || 511 < u16 p (o + 2) || 127 < u16 p (o + 4)
    { bad := [(u8 p 2 = 0 || u8 p 2 = 255, .badObject),
              (1 < u8 p 0 || 2 ≤ u8 p 3 || !zeroAt p 24 8, .badArg),
              (7 < u8 p 1 || u32 p 4 < 1000 || 1000000 < u32 p 4 || 1000000 < u32 p 8 || fov 18
                || (List.range 3).any (fun i => u16 p (18 + 2 * i) < u16 p (12 + 2 * i))
                || !timingKept s (p :: others) none, .outOfRange),
              (!dieFTakes s p, .deviceFault)]
      act := later c }

/-- What ssm.set_sensor does at its round start: a newly enabled sensor has no update yet (R222). -/
def sensorEff (e : Eff) (s : State) : State :=
  setSens e.object { cfg := e.p, cfgF := (dieFCopy s e.p).getD (sensOf s e.object).cfgF, discards := (sensOf s e.object).discards } s

/-- ssm.status (R228, R235, R237). -/
def ssmStatusSpec : CmdSpec where
  opcode := 0x0E05
  objOk := objBelow 16
  stateOf := ssmGrpState
  inFault _ := true
  body c s :=
    let g := c.h.object
    let x := grpOf s g
    let y := ssmOf s g
    let stale := bitsN ((List.range 16).map (fun n => let z := sensOf s n; u8 z.cfg 0 = 1 && z.stale1))
    { act := fun t => { s := t, res := fields [(1, x.state.code), (1, y.reason), (1, min 255 y.mismatch), (1, min 255 y.absent),
        (2, 128 * y.s1), (2, 128 * y.s2), (2, 128 * x.sGov), (2, 0), (4, toF32 y.d1), (4, toF32 y.d2),
        (4, toF32 (protDist y.cfg x.payloadSel (vhOf s false) 0)), (4, toF32 y.vrMeas), (2, stale), (2, 0), (8, tokens s g),
        (4, y.stops.toNat), (4, 0)] } }

/-! Rows. -/

/-- SENSOR_RECORD (R220). -/
def execSensorRecord (k : Fin 8) (st : BitVec 8) (b : List Byte) (s : State) : Host.Outcome State Fault Refusal :=
  .next (sensorRecord k.val st.toNat b s)
/-- GUARD_BOUNDARY (R221). -/
def execGuardBoundary (s : State) : Host.Outcome State Fault Refusal := .next (guardBoundary s)
/-- SENSOR_STALE (R222). -/
def execSensorStale (n : Fin 16) (s : State) : Host.Outcome State Fault Refusal := .next (sensorStale n.val s)
/-- CH2_VERDICT (R234). -/
def execCh2Verdict (p : Fin 8) (s : State) : Host.Outcome State Fault Refusal := .next (ch2Verdict p.val s)
/-- TANDEM_MISMATCH (R235). -/
def execTandemMismatch (g : Fin 16) (s : State) : Host.Outcome State Fault Refusal := .next (tandemMismatch g.val s)
/-- VERDICT_ABSENT (R235). -/
def execVerdictAbsent (g : Fin 16) (s : State) : Host.Outcome State Fault Refusal := .next (verdictAbsent g.val s)
/-- SPEED_EXCEEDED (R230). -/
def execSpeedExceeded (g : Fin 16) (second : Bool) (s : State) : Host.Outcome State Fault Refusal :=
  .next (speedExceeded g.val second s)
/-- CH2_FEEDBACK (R233). -/
def execCh2Feedback (g : Fin 16) (s : State) : Host.Outcome State Fault Refusal := .next (ch2Feedback g.val s)
/-- CH2_OVERRIDE (R236). -/
def execCh2Override (g : Fin 16) (s : State) : Host.Outcome State Fault Refusal := .next (ch2Override g.val s)
/-- SSM_CONFIGURE (R231). -/
def execSsmConfigure (c : CmdRef) (s : State) : Host.Outcome State Fault Refusal := .next (runCmd ssmConfigureSpec c s)
/-- SSM_SET_GROUP (R227). -/
def execSsmSetGroup (c : CmdRef) (s : State) : Host.Outcome State Fault Refusal := .next (runCmd ssmSetGroupSpec c s)
/-- SSM_SET_OBSTACLES (R206). -/
def execSsmSetObstacles (c : CmdRef) (s : State) : Host.Outcome State Fault Refusal := .next (runCmd ssmSetObstaclesSpec c s)
/-- SSM_SET_SENSOR (R220). -/
def execSsmSetSensor (c : CmdRef) (s : State) : Host.Outcome State Fault Refusal := .next (runCmd ssmSetSensorSpec c s)
/-- SSM_STATUS (R228). -/
def execSsmStatus (c : CmdRef) (s : State) : Host.Outcome State Fault Refusal := .next (runCmd ssmStatusSpec c s)

end Sys2Proof.Machine
end

