-- ==== Sys2Proof/Machine/Qp.lean ====
section
/-!
DEFINITION. Predictive control (R133 to R162): the snapshot of a planning period, assembly, the lanes' order and time, deadlines,
selection, the fallback, the plan at the boundary, lane failures, re-plans, and the qp commands.
-/
namespace Sys2Proof.Machine

/-- The predictive control of group `g`. -/
def qpOf (s : State) (g : Nat) : QpGrp := tget {} s.qp.grp g
/-- Replace it. -/
def setQp (g : Nat) (x : QpGrp) (s : State) : State := { s with qp := { s.qp with grp := tset {} s.qp.grp g x } }
/-- Change it. -/
def modQp (g : Nat) (f : QpGrp → QpGrp) (s : State) : State := setQp g (f (qpOf s g)) s
/-- The payload of class `c`; empty where it is UNDEFINED. -/
def classOf (s : State) (c : Nat) : List Byte := tget [] s.qp.classes c
/-- Scenario `j` of group `g`. -/
def scenOf (s : State) (g j : Nat) : Scen := lget {} (qpOf s g).scen j
/-- Change a scenario. -/
def modScen (g j : Nat) (f : Scen → Scen) (s : State) : State :=
  modQp g (fun q => { q with scen := lset q.scen j (f (lget {} q.scen j)) }) s
/-- Lane `u`. -/
def laneOf (s : State) (u : Nat) : Lane := tget {} s.qp.lanes u
/-- Replace lane `u`. -/
def setLane (u : Nat) (l : Lane) (s : State) : State := { s with qp := { s.qp with lanes := tset {} s.qp.lanes u l } }

/-- The lane on which admission has placed scenario `j` of group `g` (R150). -/
def laneFor (s : State) (g j : Nat) : Option Nat :=
  (s.sch.shares.find? (fun e => e.type = 0x10 && e.object = 64 * g + j)).map (·.unit)

/-- Whether a group poses problems (R141). -/
def poses (s : State) (g : Nat) : Bool :=
  let x := grpOf s g
  x.mpc && (qpOf s g).assigned && (match x.state with
    | .ready => true
    | .moving => true
    | .hold => true
    | .stopping => decide (x.outcome = .hold)
    | _ => false)

/-- Length of the planning period in ns. -/
def planNs (s : State) : Nat := s.cad.ns * s.cad.plan

/-- Whether a posed problem has no status yet. -/
def unfinished (c : Scen) : Bool := c.inp.isSome && c.res.status = 0

/-! The snapshot. -/

/-- One scenario at the planning snapshot (R142): what it is posed with, and the y⁰ to start from. -/
def scenSnap (s : State) (g : Nat) (q : QpGrp) (c : Scen) : Scen :=
  let p := classOf s c.cls
  let m := u16 p 12
  let warm := (c.res.status = 1 || c.res.status = 2) && c.res.cls = c.cls && c.rows = m
  if c.removed || p = [] then { c with inp := none, data := none, res := { cls := c.cls, kappa := c.kappa }, replan := none }
  else { c with
    inp := some (asmIn s g p (f32 c.kappa) q.tauB q.sGov), y0 := if warm then some c.res.y else none, data := none, rows := m
    res := { cls := c.cls, kappa := c.kappa }, replan := none }

/-- The end, in path time from the boundary, of the reference's first leg where another follows. -/
def legEnd (s : State) (g : Nat) (tau : Fx) : Fx :=
  let x := grpOf s g
  let lims := (List.range (jointsOf x)).map (jointLim s g)
  match startedMoves (secOfNs s.cad.ns) (refMoves lims true (inForceAt x tau).list (knownTargets x)) with
  | a :: b :: _ => min a.fin b.start
  | _ => 2 ^ 160

/-- The planning snapshot of one group (R133, R141, R142). -/
def qpSnapGroup (g : Nat) (s : State) : State :=
  let q := qpOf s g
  if !q.assigned then s
  else if !poses s g then
    setQp g { q with posed := false, chosen := false, nextSel := 0xFF
                     scen := q.scen.map (fun c => { c with inp := none, data := none, res := {}, replan := none }) } s
  else
    let x := grpOf s g
    let tau := predictTau x (secOfNs s.cad.ns) (s.cad.plan - 1) x.pathTime x.lambda x.lambdaRate
    let q1 := { q with
      posedEver := true, posed := true, chosen := false, nextSel := 0xFF, replanned := false, tauB := tau
      sGov := x.sGov, boundary := s.cad.planStart + planNs s, firstLeg := legEnd s g tau }
    let rows := (q1.scen.map (fun c => let p := classOf s c.cls; if c.removed then 0 else cW p * (stages p 5).length)).foldl (· + ·) 0
    countN 110 0x0706 (if monitored s g then rows else 0) (setQp g { q1 with scen := q1.scen.map (scenSnap s g q1) } s)

/-- Classes in use that were replaced govern from the first boundary whose snapshot follows (qp.define_class). -/
def classSnap (s : State) : State :=
  let (l, s1) := takeEff (fun o => o = 0x0A01) (now s) s
  l.foldl (fun t e => { t with qp := { t.qp with classes := tset [] t.qp.classes e.object e.p } }) s1

/-- The planning snapshot of predictive control (R25). -/
def qpSnapshot (s : State) : State :=
  let s1 := forNat (List.range 16) qpSnapGroup (classSnap s)
  { s1 with free := s1.free + 1, qp := { s1.qp with snapAt := s.cad.planStart + 1 } }

/-! Assembly (R142, R143). -/

/-- One problem is assembled and waits at its lane. -/
def assembleScen (g j : Nat) (s : State) : State :=
  let c := scenOf s g j
  match c.inp, laneFor s g j with
  | some p, some u =>
    if c.data.isSome || c.res.status ≠ 0 then s
    else if !unitUp s 1 u then modScen g j (fun d => { d with res := { d.res with status := 5 } }) s
    else
      let l := laneOf s u
      let n := cSize p.c
      let s1 := setLane u { l with wait := l.wait ++ [{ g := g, j := j }] } (modScen g j (fun d => { d with data := some (assemble p c.y0) }) s)
      let unit := ((s.sch.shares.find? (fun e => e.type = 0x30 && e.object = 64 * g + j)).map (·.unit)).getD 0
      addBusy 3 unit (asmCycles n (u16 p.c 12)) (count 109 0x0601 s1)
  | some _, none => modScen g j (fun d => { d with res := { d.res with status := 5 } }) s
  | none, _ => s

/-- The ASM phase begins at 12.5 % of the planning period; it follows the snapshot. -/
def asmPhase (s : State) : State :=
  if !s.cad.started || s.qp.snapAt ≠ s.cad.planStart + 1 then s
  else
    let s1 := advanceTo (s.cad.planStart + planNs s / 8) s
    forNat (List.range 16) (fun g t => if (qpOf t g).posed then forNat (List.range (qpOf t g).scen.length) (assembleScen g) t else t) s1

/-! The lanes (R148, R149, R155, R156). -/

/-- The instant of a cycle of the lane window. -/
def laneNs (s : State) (cyc : Nat) : Nat := s.qp.windowAt + (5 * cyc + 5) / 6

/-- The cycle of the lane window at an instant. -/
def laneCyc (s : State) (t : Nat) : Nat := (t - s.qp.windowAt) * 6 / 5

/-- Whether the lane window of the present planning period has begun. -/
def windowOpen (s : State) : Bool := s.cad.started && s.qp.windowAt = s.cad.planStart + planNs s / 5

/-- What a job runs: its class payload and its problem. -/
def jobData (s : State) (b : LaneJob) : Option (List Byte × QpData) :=
  let c := scenOf s b.g b.j
  if b.rep.isSome then c.replan.map (fun e => (e.1.c, e.2))
  else match c.inp, c.data with
    | some p, some d => some (p.c, d)
    | _, _ => none

/-- The cycle of the lane window at which a job's deadline lies. -/
def jobDeadline (s : State) (b : LaneJob) : Nat :=
  match jobData s b with
  | some (c, _) => laneCap s 0 (cDeadline c)
  | none => 0

/-- Cycles that a run took: to its end, or to the end of the phase in which it failed (R147, R148). -/
def runCycles (c : List Byte) (o : LaneOut) : Nat :=
  let n := cSize c
  let m := u16 c 12
  if o.ok then laneCycles n m (cK c) (cPar c).rhoR
  else factorCycles n + (if o.factorOk then (o.done + 1) * iterCycles n m (cPar c).rhoR else 0)

/-- The largest slack of a solution. -/
def slackPeak (c : List Byte) (x : List F32) : F32 :=
  let per := cJ c + cE c
  ((x.zip (List.range x.length)).filter (fun e => cJ c ≤ e.2 % per)).foldl (fun m e => if flt m e.1 then e.1 else m) 0

/-- The result of a job that ran on lane `u` from cycle `st` to cycle `fin`. -/
def jobRes (s : State) (b : LaneJob) (u st fin status : Nat) (c : List Byte) (o : LaneOut) : ScenRes :=
  let d := scenOf s b.g b.j
  { status := status, regularised := o.regs ≠ [], replanned := b.rep.isSome, cls := d.cls, lane := u, kDone := o.done
    regCount := o.regs.length, regFirst := (o.regs.head?).getD 0xFFFF, kappa := d.kappa, rPri := o.rPri, rDua := o.rDua
    slackPeak := slackPeak c o.x, start := laneNs s st, fin := laneNs s fin, x := o.x, y := o.y }

/-- Counters and events of a problem that ends on lane `u` after `cyc` cycles. -/
def endMarks (g u cyc : Nat) (r : ScenRes) (s : State) : State :=
  let l := 42 + u
  let s1 := addBusy 1 u cyc (countN l 0x0503 r.kDone (count l 0x0501 s))
  let s2 := if r.regularised then raise 59 (count l 0x0504 s1) else s1
  if r.status = 3 then modQp g (fun q => { q with failed := q.failed + 1 }) (raise 58 (count l 0x0505 s2)) else s2

/-- A result takes its place as the scenario's. -/
def putRes (b : LaneJob) (r : ScenRes) (s : State) : State := modScen b.g b.j (fun d => { d with res := r }) s

/-- The next problem of an idle lane at cycle `cyc`: a re-plan that is queued, then ascending deadline, ties in the order in which
admission placed them (R149, R160); with none waiting a re-plan that is about to be queued. -/
def nextJob (s : State) (l : Lane) (cyc : Nat) : Option (LaneJob × Nat) :=
  let place (b : LaneJob) : Nat := s.sch.shares.findIdx (fun e => e.type = 0x10 && e.object = 64 * b.g + b.j)
  let reps := l.wait.filter (fun b => b.rep.isSome)
  match reps.find? (fun b => b.rep.getD 0 ≤ cyc) with
  | some b => some (b, cyc)
  | none =>
    let best := (l.wait.filter (fun b => b.rep.isNone)).foldl (fun (o : Option LaneJob) b => match o with
      | none => some b
      | some a =>
        let da := jobDeadline s a
        let db := jobDeadline s b
        if db < da || (db = da && place b < place a) then some b else some a) none
    match best with
    | some b => some (b, cyc)
    | none => reps.head?.map (fun b => (b, b.rep.getD cyc))

/-- An idle lane in service starts its next problem. -/
def laneStart (u cyc : Nat) (s : State) : State :=
  let l := laneOf s u
  if l.serv.isSome || !unitUp s 1 u then s
  else match nextJob s l cyc with
    | some (b, c) => setLane u { wait := l.wait.erase b, serv := some (b, c) } s
    | none => s

/-- The lane window begins at 20 % of the planning period (R149). -/
def laneWindow (s : State) : State :=
  if !s.cad.started || s.qp.snapAt ≠ s.cad.planStart + 1 || windowOpen s then s
  else
    let t := s.cad.planStart + planNs s / 5
    let s1 := advanceTo t { s with qp := { s.qp with windowAt := t } }
    forNat (List.range 64) (fun u v => laneStart u 0 v) s1

/-- The problem in service on lane `u` ends by itself, where that comes no later than cycle `cyc` and its deadline (R147, R148). -/
def laneDone (u cyc : Nat) (s : State) : Option State :=
  match (laneOf s u).serv with
  | none => none
  | some (b, st) => match jobData s b with
    | none => some (laneStart u st (setLane u { laneOf s u with serv := none } s))
    | some (c, d) =>
      let o := laneRun d (cPar c) (cK c)
      let dur := runCycles c o
      let fin := st + dur
      if fin ≤ cyc && fin ≤ jobDeadline s b then
        let r := jobRes s b u st fin (if o.ok then 1 else 3) c o
        let s1 := setLane u { laneOf s u with serv := none } (advanceTo (laneNs s fin) s)
        some (laneStart u fin (endMarks b.g u dur r (putRes b r s1)))
      else none

/-- Every problem of lane `u` that ends by itself up to cycle `cyc`. -/
def laneUpTo (u cyc : Nat) : Nat → State → State
  | 0, s => s
  | n + 1, s => match laneDone u cyc s with
    | some t => laneUpTo u cyc n t
    | none => s

/-- QP_PROBLEM_DONE. -/
def qpProblemDone (u : Nat) (s : State) : State := if windowOpen s then (laneDone u (2 ^ 64) s).getD s else s

/-- A missed problem: the lane's count, SCHED_DEADLINE_MISS and its record (R161, R248). -/
def missMarks (b : LaneJob) (u : Nat) (s : State) : State :=
  let c := clsOf s 1
  let s1 := setCls 1 { c with deadlineMisses := c.deadlineMisses + 1 } (modQp b.g (fun q => { q with missed := q.missed + 1 }) s)
  let dl := laneNs s (jobDeadline s b)
  raise 51 (journal 0x12 0x01 1 (64 * b.g + b.j) dl (fields [(2, if b.rep.isSome then 0x0011 else 0x0010), (4, 64 * b.g + b.j), (8, dl)])
    (count 6 0x0306 (count (42 + u) 0x0506 s1)))

/-- The deadline of a problem that waits: it is not started (R156). -/
def missWaiting (u : Nat) (b : LaneJob) (s : State) : State :=
  let l := laneOf s u
  let d := scenOf s b.g b.j
  missMarks b u (putRes b { status := 4, replanned := b.rep.isSome, cls := d.cls, kappa := d.kappa }
    (setLane u { l with wait := l.wait.erase b } s))

/-- The deadline of the problem in service on lane `u` (R155, R156). -/
def missServed (u cyc : Nat) (b : LaneJob) (st : Nat) (s : State) : State :=
  let s0 := setLane u { laneOf s u with serv := none } s
  match jobData s b with
  | none => laneStart u cyc s0
  | some (c, d) =>
    let gone := cyc - st
    let n := cSize c
    let k := (gone - factorCycles n) / iterCycles n (u16 c 12) (cPar c).rhoR
    let o := laneRun d (cPar c) (min k (cK c))
    let last := u8 c 5 = 1 && max 1 (u8 c 6) ≤ k
    let r := jobRes s b u st cyc (if last then 2 else 4) c o
    let s1 := endMarks b.g u gone r (putRes b r s0)
    laneStart u cyc (if last then s1 else missMarks b u s1)

/-- QP_DEADLINE of scenario `j` of group `g` (R155, R156). -/
def qpDeadline (g j : Nat) (s : State) : State :=
  let mine (b : LaneJob) : Bool := b.g = g && b.j = j
  match laneFor s g j, (scenOf s g j).inp with
  | some u, some p =>
    if !windowOpen s then s
    else
      let cyc := laneCap s 0 (cDeadline p.c)
      let s1 := advanceTo (s.cad.planStart + planNs s * cDeadline p.c / 1024) (laneUpTo u cyc 64 s)
      let s2 := ((laneOf s1 u).wait.filter mine).foldl (fun t b => missWaiting u b t) s1
      match (laneOf s2 u).serv with
      | some (b, st) => if mine b then missServed u cyc b st s2 else s2
      | none => s2
  | _, _ => s

/-! Selection (R151, R152, R215). -/

/-- The jerk of a quintic stage at `t` after its start. -/
def quinticJerk (k0 k1 : Kin) (tt t : Fx) : Fx :=
  let h := k1.x - k0.x
  let v0 := fmul k0.v tt
  let v1 := fmul k1.v tt
  let a0 := fmul k0.a (fmul tt tt)
  let a1 := fmul k1.a (fmul tt tt)
  let c3 := 10 * h - (6 * v0 + 4 * v1) - (3 * a0 - a1) / 2
  let c4 := -15 * h + (8 * v0 + 7 * v1) + (3 * a0 - 2 * a1) / 2
  let c5 := 6 * h - (3 * v0 + 3 * v1) - (a0 - a1) / 2
  let u := fdiv t tt
  fdiv (fmul (fmul (60 * c5) u + 24 * c4) u + 6 * c3) (fmul tt (fmul tt tt))

/-- The jerk of every joint of a plan at path time `t`. -/
def planJerk (p : MpcPlan) (t : Fx) : List Fx :=
  let dt := t - p.start
  let k := if p.stage = 0 then 0 else (dt / p.stage).toNat
  if p.knots.length ≤ k + 1 then (lget {} p.knots 0).p.map (fun _ => 0)
  else ((lget {} p.knots k).list.zip (lget {} p.knots (k + 1)).list).map (fun e => quinticJerk e.1 e.2 p.stage (dt - k * p.stage))

/-- Whether a member's sample keeps its limits (R152). -/
def sampleOk (l : Limits) (k : Kin) (j : Fx) : Bool :=
  fabs k.v ≤ l.v && fabs j ≤ l.j && inTravel (2 ^ 48) l k.x
    && (if 0 < sgn k.a * sgn k.v then fabs k.a ≤ l.a else fabs k.a ≤ l.d)

/-- The path times of a plan's horizon, one each cadence (R152). -/
def horizon (p : MpcPlan) (tcad : Fx) : List Fx := spanTimes p.start ((p.knots.length - 1 : Nat) * p.stage) tcad

/-- The sample check (R152). -/
def sampleCheck (p : MpcPlan) (lims : List Limits) (tcad : Fx) : Bool :=
  (horizon p tcad).all (fun t =>
    ((planAt p t).list.zip (planJerk p t)).zip lims |>.all (fun e => sampleOk e.2 e.1.1 e.1.2))

/-- The swept volume of a plan over its horizon (R214). -/
def planSweep (x : GroupSt) (cfg : List Byte) (p : MpcPlan) (tcad : Fx) : List Cap :=
  sweep x.model cfg x.payloadSel ((horizon p tcad).map (fun t => (planAt p t).p))

/-- Whether the look-ahead and the zones allow a candidate (R215). -/
def lookaheadOk (s : State) (g : Nat) (kappa : Fx) (p : MpcPlan) : Bool :=
  let t := secOfNs s.cad.ns
  let speed := fmul kappa (((qpOf s g).sGov : Int) * one / 256)
  let span : Fx := (p.knots.length - 1 : Nat) * p.stage
  let real := if speed ≤ 0 then 2 ^ 160 else fdiv span speed
  let others (h : Nat) : List Cap :=
    let y := grpOf s h
    match (if h < g then y.nextPlan else none) with
    | some q => planSweep y (ssmOf s h).cfg q t
    | none => sweepInForce y (ssmOf s h).cfg (tauFor s h) real t
  !monitored s g || (laConflict s g (planSweep (grpOf s g) (ssmOf s g).cfg p t) others).isNone

/-- Whether a plan rests at the last target of its group: no knot is farther from it than the members' SETTLE_WIN (R115). -/
def planRests (s : State) (g : Nat) (p : MpcPlan) : Bool :=
  let x := grpOf s g
  match x.mpcTargets with
  | [w] => w.solved && p.knots.all (fun k => ((k.p.zip w.joints).zip (List.range w.joints.length)).all (fun e =>
      fabs (e.1.1 - e.1.2) ≤ (axisOf s (jAxis x.model e.2)).cfg.settleWin))
  | [] => !x.strmRun && (x.lastTarget = [] || p.knots.all (fun k => ((k.p.zip x.lastTarget).zip (List.range k.p.length)).all (fun e =>
      fabs (e.1.1 - e.1.2) ≤ (axisOf s (jAxis x.model e.2)).cfg.settleWin)))
  | _ => false

/-- The status of a scenario after the checks of R151, with its plan where it passes. -/
def checkScen (s : State) (g : Nat) (c : Scen) : Nat × Option MpcPlan :=
  match c.inp, c.replan with
  | none, _ => (c.res.status, none)
  | some p0, rp =>
    let p := if c.res.replanned then (rp.map (·.1)).getD p0 else p0
    let r := c.res
    if r.status ≠ 1 && r.status ≠ 2 then (r.status, none)
    else if flt (u32 p.c 40) r.rPri || fisnan r.rPri || flt (u32 p.c 44) r.slackPeak then (7, none)
    else
      let pl := planOf p (qpOf s g).tauB r.x false
      if !sampleCheck pl p.lims (secOfNs s.cad.ns) then (8, none)
      else if !lookaheadOk s g p.kappa pl then (9, none)
      else (r.status, some { pl with rests := planRests s g pl })

/-- Scenarios in descending κ up to the first that passes. -/
def selectFrom (s : State) (g : Nat) : Nat → List Scen → List Scen × Option (Nat × MpcPlan)
  | _, [] => ([], none)
  | j, c :: r =>
    match checkScen s g c with
    | (st, some p) => ({ c with res := { c.res with status := st, selected := true } } :: r, some (j, p))
    | (st, none) =>
      let (l, o) := selectFrom s g (j + 1) r
      ({ c with res := { c.res with status := st } } :: l, o)

/-- The tags of the motion commands whose effect time is boundary `b` (R154). -/
def motionTags (s : State) (g b : Nat) : List Nat :=
  let ts := ((grpOf s g).mpcTargets.filter (fun w => w.promise = b)).map (·.tag)
  ts ++ (s.eff.filter (fun e => e.due = b && ((e.opcode = 0x0704 && e.object = g)
    || (e.opcode = 0x0903 && (strmOf s e.object).group = g)))).map (·.tag)

/-- The records of a fallback: boundary B, and the tags of its motion commands, 14 to a record (R154; log entry 59). -/
def shiftedRecs (g b : Nat) (tags : List Nat) (s : State) : State :=
  let l := if tags = [] then [[]] else (List.range ((tags.length + 13) / 14)).map (fun i => (tags.drop (14 * i)).take 14)
  l.foldl (fun t e => journal 0x0A 0x10 1 g b (e.flatMap (leBytes 2)) t) s

/-- A fallback period is counted and reported (R154, R157). -/
def fallenBack (g b : Nat) (tags : List Nat) (s : State) : State :=
  raise 56 (shiftedRecs g b tags (modQp g (fun y => { y with fallbacks := y.fallbacks + 1, shifted := y.shifted + 1 }) s))

/-- SELECTION_PHASE of group `g` (R151 to R157). -/
def selection (g : Nat) (s0 : State) : State :=
  let q0 := qpOf s0 g
  if !q0.posed || q0.chosen || !windowOpen s0 then s0
  else
    let ends := forNat (List.range q0.scen.length) (fun j t => if unfinished (scenOf t g j)
      || (scenOf t g j).replan.isSome then qpDeadline g j t else t) s0
    let lastDl := (q0.scen.map (fun c => match c.inp with
      | some p => cDeadline p.c
      | none => 0)).foldl max 0
    let s := advanceTo (s0.cad.planStart + planNs s0 * lastDl / 1024) ends
    let q := qpOf s g
    let b := q.boundary
    let done (l : List Scen) (sel : Nat) (t : State) : State :=
      modQp g (fun y => { y with scen := l, chosen := true, nextSel := sel, last := l.map (·.res), lastSel := sel, lastB := b }) t
    if !poses s g then done q.scen 0xFF s
    else
      let (l, o) := selectFrom s g 0 q.scen
      let s1 := countN (1 + 0) 0x0204 (1500 + 700 * l.length) s
      match o with
      | some (j, p) =>
        let li := decide ((lget {} l j).res.status = 2)
        let s2 := done l j (modGrp g (fun x => { x with nextPlan := some p, solved := true }) s1)
        modQp g (fun y => { y with fallbacks := 0, lastIter := if li then y.lastIter + 1 else y.lastIter }) (raiseIf li 57 s2)
      | none =>
        let s2 := done l 0xFF (modGrp g (fun x => { x with nextPlan := none }) s1)
        fallenBack g b (motionTags s g b) s2

/-- SHIFT_STOP of group `g` (R158). -/
def shiftStop (g : Nat) (s : State) : State :=
  let q := qpOf s g
  let lim := cShift (classOf s (lget {} q.scen 0).cls)
  if !q.assigned || q.fallbacks = 0 || q.fallbacks < lim then s
  else
    let s1 := modQp g (fun y => { y with fallbacks := 0, stops := y.stops + 1 }) (modGrp g (fun x => { x with solved := false }) s)
    reqStopGrp g 2 (journal 0x0A 0x11 2 g 0 [] s1)

/-! The boundary (R110, R154, R159, R162). -/

/-- The targets of a group once the first leg of its reference has ended within the period. -/
def popTargets (q : QpGrp) (tau : Fx) (l : List MpcTarget) : List MpcTarget :=
  match l with
  | a :: b :: r => if a.begun && q.firstLeg ≤ tau then b :: r else a :: b :: r
  | l => l

/-- The first motion of a group begins where the group stands. -/
def beginTarget (x : GroupSt) : GroupSt :=
  match x.mpcTargets with
  | w :: r =>
    if w.begun || !w.solved then x
    else
      let t := cellTool x.model x.kin.p
      { x with mpcTargets := { w with begun := true, startTau := x.pathTime, startQ := x.kin.p, startC := [t.x, t.y, t.z] } :: r }
  | [] => x

/-- Whether a plan selected for a boundary governs from it in the group's state there: an axis stop discards it, a path stop keeps it
(R162). -/
def keepsPlan (x : GroupSt) : Bool := match x.state with
  | .ready => true
  | .moving => true
  | .hold => true
  | .stopping => !x.axisStop
  | _ => false

/-- A group's plan and motion at planning boundary `b`. -/
def qpBoundary (b g : Nat) (s : State) : State :=
  let q := qpOf s g
  let x := grpOf s g
  if !x.mpc || !q.assigned then s
  else
    let s1 := if q.chosen && q.boundary = b then
        match q.nextSel, x.nextPlan with
        | 0xFF, _ => modQp g (fun y => { y with selected := 0xFF, kappa := 0 }) s
        | j, some p =>
          if !keepsPlan x then modGrp g (fun y => { y with nextPlan := none }) s
          else modQp g (fun y => { y with selected := j, kappa := (lget {} y.scen j).kappa })
            (modGrp g (fun y => beginTarget { y with
              plan := some (adoptPlan p y.pathTime y.kin), nextPlan := none
              mpcTargets := popTargets q (secOfNs (planNs s)) y.mpcTargets }) s)
        | _, none => s
      else s
    let y := grpOf s1 g
    if y.state = .ready && y.solved && y.mpcTargets.any (fun w => w.promise ≤ b) then grpTo g .moving s1 else s1

/-- A lane share that has lost its lane takes another, or leaves the ledger with its scenario (R159). -/
def replaceShare (s : State) (e : Share) : State :=
  let rest := s.sch.shares.filter (· ≠ e)
  let g := e.object / 64
  let j := e.object % 64
  match placeOne s s.qp.reserve rest e with
  | some l => setShares l s
  | none =>
    journal 0x0A 0x12 1 g 0 (fields [(1, j)]) (modScen g j (fun c => { c with removed := true })
      (setShares (rest.filter (fun x => !((x.type = 0x30 || x.type = 0x10) && x.object = e.object))) s))

/-- The re-placement of lane shares at a planning boundary (R159). -/
def replaceLanes (s : State) : State :=
  (s.sch.shares.filter (fun e => e.cls = 1 && !unitUp s 1 e.unit)).foldl replaceShare s

/-- The lanes are empty when a planning period begins. -/
def clearLanes (s : State) : State := { s with qp := { s.qp with lanes := [], windowAt := 0 } }

/-- A lane leaves service with an uncorrectable error (R38, R159). -/
def laneFault (u : Nat) (s : State) : State :=
  let l := laneOf s u
  let s1 := { s with lanesOut := s.lanesOut ||| BitVec.twoPow 64 u }
  let s2 := setLane u {} s1
  let s3 := match l.serv with
    | none => s2
    | some (b, st) =>
      let d := scenOf s b.g b.j
      let r : ScenRes := { status := 3, replanned := b.rep.isSome, cls := d.cls, lane := u, kappa := d.kappa, start := laneNs s st, fin := now s }
      modQp b.g (fun q => { q with failed := q.failed + 1 }) (raise 58 (count (42 + u) 0x0505 (putRes b r s2)))
  let s4 := l.wait.foldl (fun t b =>
    let d := scenOf t b.g b.j
    putRes b { status := 5, replanned := b.rep.isSome, cls := d.cls, kappa := d.kappa } t) s3
  raise 60 (taskEnd 1 u s4)

/-! Separation re-plans (R160). -/

/-- A verdict within the lane window has lowered the governing scale of group `g` below that of its rows. -/
def replan (g : Nat) (s : State) : State :=
  let q := qpOf s g
  let x := grpOf s g
  let live := (List.range q.scen.length).filter (fun j => !(lget {} q.scen j).removed && (lget {} q.scen j).inp.isSome)
  match live.getLast? with
  | none => s
  | some j =>
    let c := lget {} q.scen j
    match c.inp, laneFor s g j with
    | some p, some u =>
      let n := cSize p.c
      let tl := laneCycles n (u16 p.c 12) (cK p.c) (cPar p.c).rhoR
      let cyc := laneCyc s (now s) + 12000
      if !q.posed || !q.replanOn || q.replanned || q.chosen || !windowOpen s || !(x.sGov < q.sGov) || !unitUp s 1 u
          || laneCap s 0 (cDeadline p.c) < cyc + tl then s
      else
        let p' := { p with sep := (asmIn s g p.c (f32 c.kappa) q.tauB x.sGov).sep }
        let own : LaneJob := { g := g, j := j }
        let l := laneOf s u
        let waiting := l.wait.contains own
        let s1 := modScen g j (fun d => { d with
          replan := some (p', assemble p' d.y0), res := if waiting then { d.res with status := 6 } else d.res }) s
        let w := (if waiting then l.wait.erase own else l.wait) ++ [{ own with rep := some cyc }]
        let s2 := setLane u { l with wait := w } (modQp g (fun y => { y with replanned := true }) s1)
        laneStart u (laneCyc s (now s)) (count (42 + u) 0x0507 (count 109 0x0601 s2))
    | _, _ => s

/-! Commands. -/

/-- The lane and ASM shares of scenario `j` of group `g` with a class (R143, R148). -/
def scenShares (g j : Nat) (c : List Byte) : List Share :=
  let n := cSize c
  let m := u16 c 12
  [{ type := 0x10, cls := 1, wcet := laneCycles n m (cK c) (cPar c).rhoR, object := 64 * g + j, bucket := cDeadline c },
   { type := 0x30, cls := 3, wcet := asmCycles n m, object := 64 * g + j }]

/-- The selection share of a group (table "STATIC entries"). -/
def selectShare (g n : Nat) : Share := { type := 0x43, cls := 4, wcet := 1500 + 700 * n, object := g }

/-- The scenarios that use class `id`, by group and number. -/
def classUsers (s : State) (id : Nat) : List (Nat × Nat) :=
  (List.range 16).flatMap (fun g => ((qpOf s g).scen.zip (List.range 4)).filterMap (fun e =>
    if e.1.cls = id then some (g, e.2) else none))

/-- Whether a class is in use, by an assignment or by one that waits. -/
def classInUse (s : State) (id : Nat) : Bool :=
  classUsers s id ≠ [] || s.eff.any (fun e => e.opcode = 0x0A03 && (List.range (u8 e.p 0)).any (fun j => u8 e.p (4 + j) = id))

/-- STATE of the class commands. -/
def classState (o : Nat) (s : State) : Nat := if classOf s o = [] then 0 else if classInUse s o then 2 else 1

/-- The ledger with a class in use replaced: its problems leave and are placed anew. -/
def classLedger (s : State) (id : Nat) (c : List Byte) : Option (List Share) :=
  let us := (classUsers s id).filter (fun e => s.sch.shares.any (fun x => x.type = 0x10 && x.object = 64 * e.1 + e.2))
  let rest := s.sch.shares.filter (fun x => !((x.type = 0x10 || x.type = 0x30) && us.any (fun e => x.object = 64 * e.1 + e.2)))
  placeAll s s.qp.reserve rest (us.flatMap (fun e => scenShares e.1 e.2 c))

/-- 10^k. -/
def tenTo (k : Nat) : Fx := 10 ^ k * 2 ^ 80

/-- qp.define_class (R140, R142, R158). -/
def qpDefineClassSpec : CmdSpec where
  opcode := 0x0A01
  lenOk n _ := n = 80
  objOk := objBelow 64
  stateOf := classState
  kind h _ s := if classInUse s h.object then .cadence else .untimed
  body c s :=
    let p := c.p
    let id := c.h.object
    let old := classOf s id
    let use := classInUse s id
    let same := cJ p = cJ old && cE p = cE old && cN p = cN old
    let r (o : Nat) (lo hi : Fx) : Bool := !f32In (u32 p o) lo hi
    let badStride := (List.range 6).any (fun k => !([0, 1, 2, 4, 8].contains (cStride p k)))
    let led := if use then classLedger s id p else some s.sch.shares
    { bad := [(!zeroAt p 14 2 || !zeroAt p 22 2 || !zeroAt p 37 3 || !zeroAt p 76 4 || 1 < u8 p 5 || badStride, .badArg),
              (!badStride && (u16 p 12 ≠ rowCount p || 96 < cSize p || 256 < u16 p 12 || (1 ≤ cW p && cE p = 0)), .badArg),
              (cJ p = 0 || 8 < cJ p || 4 < cE p || cN p < 2 || 64 < cN p || cK p = 0 || 3 < u8 p 4
                || (u8 p 5 = 1 && (u8 p 6 = 0 || cK p < u8 p 6)) || cN p ≤ u8 p 7 || (u16 p 8 ≠ 0 && (u16 p 8 < 205 || 896 < u16 p 8))
                || u8 p 10 = 0 || 16 < u8 p 10 || 8 < cW p || u16 p 12 = 0 || (u8 p 36 ≠ 0 && (u8 p 36 < 10 || 30 < u8 p 36)), .outOfRange),
              (r 24 (tenth 6) (tenTo 6) || r 28 (tenth 9) (tenth 2) || r 32 one (tenTo 1 * 18 / 100) || r 40 (tenth 6) (tenth 1)
                || r 44 0 one || !f32Pos (u32 p 48) || r 48 0 one || [52, 56, 60, 64, 68, 72].any (fun o => r o 0 (tenTo 12)), .outOfRange),
              (use && !same, .stateConflict), (use && same && led.isNone, .notSchedulable)]
      act := fun t =>
        if use then later c (setShares (led.getD t.sch.shares) t)
        else { s := { t with qp := { t.qp with classes := tset [] t.qp.classes id p } } } }

/-- qp.remove_class. -/
def qpRemoveClassSpec : CmdSpec where
  opcode := 0x0A02
  objOk := objBelow 64
  stateOf := classState
  body c s :=
    let id := c.h.object
    { bad := [(classOf s id = [], .notConfigured), (classInUse s id, .stateConflict)]
      act := fun t => { s := { t with qp := { t.qp with classes := tdrop t.qp.classes id } } } }

/-- The STATE of the commands of groups. -/
def grpStateOf (o : Nat) (s : State) : Nat := (grpOf s o).state.code

/-- The shares that an assignment needs. -/
def assignShares (s : State) (g : Nat) (p : List Byte) : List Share :=
  (List.range (u8 p 0)).flatMap (fun j => scenShares g j (classOf s (u8 p (4 + j)))) ++ [selectShare g (u8 p 0)]

/-- qp.assign (R141, R153, R159). -/
def qpAssignSpec : CmdSpec where
  opcode := 0x0A03
  lenOk n _ := n = 32
  objOk := objBelow 16
  stateOf := grpStateOf
  kind _ _ _ := .cadence
  body c s :=
    let p := c.p
    let g := c.h.object
    let x := grpOf s g
    let n := u8 p 0
    let okN := 1 ≤ n && n ≤ 4
    let js := List.range (min n 4)
    let k (j : Nat) : Nat := u32 p (8 + 4 * j)
    let cl (j : Nat) : List Byte := classOf s (u8 p (4 + j))
    let led := if x.state = .ready then placeAll s s.qp.reserve (s.sch.shares.filter (fun e => !isQpShare g e)) (assignShares s g p)
      else some s.sch.shares
    { bad := [(!x.mpc || (okN && js.any (fun j => u8 p (4 + j) < 64 && cl j = [])), .notConfigured),
              (!okN || 2 ≤ u8 p 1 || !zeroAt p 2 2 || !zeroAt p 24 8, .badArg),
              (okN && ((List.range 4).drop n).any (fun j => u8 p (4 + j) ≠ 0xFF || k j ≠ 0), .badArg),
              (okN && js.any (fun j => cl j ≠ [] && cJ (cl j) ≠ jointsOf x), .badArg),
              (okN && js.all (fun j => f32Ok (k j)) && (js.drop 1).any (fun j => f32 (k (j - 1)) ≤ f32 (k j)), .badArg),
              (okN && js.any (fun j => 64 ≤ u8 p (4 + j) || !f32Pos (k j) || !f32In (k j) 0 one), .outOfRange),
              (x.state ≠ .idle && x.state ≠ .ready, .stateConflict), (okN && led.isNone, .notSchedulable)]
      act := fun t => later c (setShares (led.getD t.sch.shares) t) }

/-- The effect of qp.assign (R153). -/
def qpAssignEff (e : Eff) (s : State) : State :=
  let p := e.p
  let g := e.object
  if !(grpOf s g).mpc then s
  else
    let sc := (List.range (u8 p 0)).map (fun j =>
      let old := lget {} (qpOf s g).scen j
      ({ cls := u8 p (4 + j), kappa := u32 p (8 + 4 * j), res := old.res, rows := old.rows } : Scen))
    modGrp g (fun x => { x with solved := false, nextPlan := none }) (modQp g (fun q => { q with
      assigned := true, replanOn := bitOf (u8 p 1) 0, scen := sc, posed := false, chosen := false, nextSel := 0xFF }) s)

/-- The shares of an assigned group as grp.enable places them: every scenario that R159 has not removed must fit; removed ones return
where they fit. The list, and the scenarios that stay removed. -/
def enableShares (s : State) (g : Nat) (l : List Share) : Option (List Share × List Nat) :=
  let sc := (qpOf s g).scen.zip (List.range 4)
  let sh (e : Scen × Nat) : List Share := scenShares g e.2 (classOf s e.1.cls)
  match placeAll s s.qp.reserve l ((sc.filter (fun e => !e.1.removed)).flatMap sh ++ [selectShare g sc.length]) with
  | none => none
  | some l1 => some ((sc.filter (fun e => e.1.removed)).foldl (fun (a : List Share × List Nat) e =>
      match placeAll s s.qp.reserve a.1 (sh e) with
      | some l2 => (l2, a.2)
      | none => (a.1, a.2 ++ [e.2])) (l1, []))

/-- Whether every lane keeps R150 with a reserve. -/
def reserveFits (s : State) (r : Nat) : Bool :=
  (List.range 64).all (fun u =>
    let mine := unitShares s.sch.shares 1 u
    (mine.map (·.bucket)).all (fun d => wcetSum (mine.filter (fun x => x.bucket ≤ d)) + r ≤ laneCap s 0 d))

/-- qp.configure (R150, R302). -/
def qpConfigureSpec : CmdSpec where
  opcode := 0x0A04
  lenOk n _ := n = 8
  kind _ _ _ := .cadence
  body c s :=
    let r := u32 c.p 0
    { bad := [(!zeroAt c.p 4 4, .badArg), (409600 < r, .outOfRange), (!reserveFits s r, .notSchedulable)]
      act := fun t => { s := { t with qp := { t.qp with reserve := r } } } }

/-- qp.status (table "qp.status result"). -/
def qpStatusSpec : CmdSpec where
  opcode := 0x0A05
  objOk := objBelow 16
  stateOf := grpStateOf
  inFault _ := true
  body c s :=
    let g := c.h.object
    let q := qpOf s g
    { act := fun t => { s := t, res := fields [(1, grpStateOf g s), (1, b2n (grpOf s g).solved), (1, q.fallbacks), (1, q.selected),
        (4, q.kappa), (1, bitsN (q.scen.map (·.removed))), (3, 0), (4, q.shifted.toNat), (4, q.lastIter.toNat), (4, q.failed.toNat),
        (4, q.missed.toNat), (4, q.stops.toNat)] } }

/-- A scenario record (table "Scenario record"). -/
def scenRecord (r : ScenRes) : List Byte :=
  fields [(1, r.status), (1, flagAt r.regularised 0 + flagAt r.replanned 1 + flagAt r.selected 2), (1, r.cls), (1, r.lane), (1, r.kDone),
    (1, 0), (2, r.regCount), (2, r.regFirst), (2, 0), (4, r.kappa), (4, r.rPri), (4, r.rDua), (4, r.slackPeak), (4, 0), (8, r.start), (8, r.fin)]

/-- qp.result (table "qp.result header"). -/
def qpResultSpec : CmdSpec where
  opcode := 0x0A06
  lenOk n _ := n = 4
  objOk := objBelow 16
  stateOf := grpStateOf
  inFault _ := true
  body c s :=
    let q := qpOf s c.h.object
    let n := match (lget {} q.last q.lastSel).x with
      | [] => cSize (classOf s (lget {} q.scen 0).cls)
      | x => x.length
    let x := if q.lastSel = 0xFF then List.replicate n 0 else (lget {} q.last q.lastSel).x
    { bad := [(!q.posedEver, .notConfigured), (2 ≤ u32 c.p 0, .badArg)]
      act := fun t => { s := t, res := fields [(8, q.lastB), (1, q.lastSel), (1, q.scen.length), (6, 0)]
        ++ (List.range 4).flatMap (fun j => scenRecord (lget {} q.last j)) ++ (if bitOf (u32 c.p 0) 0 then x.flatMap (leBytes 4) else []) } }

/-! Rows. -/

/-- ASM_PHASE_START (R142, R143). -/
def execAsmPhaseStart (s : State) : Host.Outcome State Fault Refusal := .next (asmPhase s)
/-- LANE_WINDOW_START (R149). -/
def execLaneWindowStart (s : State) : Host.Outcome State Fault Refusal := .next (laneWindow s)
/-- QP_PROBLEM_DONE (R148). -/
def execQpProblemDone (u : Fin 64) (s : State) : Host.Outcome State Fault Refusal := .next (qpProblemDone u.val s)
/-- QP_DEADLINE (R156). -/
def execQpDeadline (g : Fin 16) (j : Fin 4) (s : State) : Host.Outcome State Fault Refusal := .next (qpDeadline g.val j.val s)
/-- SELECTION_PHASE (R151). -/
def execSelectionPhase (g : Fin 16) (s : State) : Host.Outcome State Fault Refusal := .next (selection g.val s)
/-- SHIFT_STOP (R158). -/
def execShiftStop (g : Fin 16) (s : State) : Host.Outcome State Fault Refusal := .next (shiftStop g.val s)
/-- QP_DEFINE_CLASS (R140). -/
def execQpDefineClass (c : CmdRef) (s : State) : Host.Outcome State Fault Refusal := .next (runCmd qpDefineClassSpec c s)
/-- QP_REMOVE_CLASS (R140). -/
def execQpRemoveClass (c : CmdRef) (s : State) : Host.Outcome State Fault Refusal := .next (runCmd qpRemoveClassSpec c s)
/-- QP_ASSIGN (R141). -/
def execQpAssign (c : CmdRef) (s : State) : Host.Outcome State Fault Refusal := .next (runCmd qpAssignSpec c s)
/-- QP_CONFIGURE (R150). -/
def execQpConfigure (c : CmdRef) (s : State) : Host.Outcome State Fault Refusal := .next (runCmd qpConfigureSpec c s)
/-- QP_STATUS (R157). -/
def execQpStatus (c : CmdRef) (s : State) : Host.Outcome State Fault Refusal := .next (runCmd qpStatusSpec c s)
/-- QP_RESULT (R151). -/
def execQpResult (c : CmdRef) (s : State) : Host.Outcome State Fault Refusal := .next (runCmd qpResultSpec c s)

end Sys2Proof.Machine
end

