-- ==== Sys2Proof/Machine/Sig.lean ====
section
/-!
DEFINITION. The signal process image (R89, R90), the device signals that the chapters publish (R238, R276, R343, R357), and
the sig commands (R91 to R94).
-/
namespace Sys2Proof.Machine

/-- A device signal of a type with its value, stamp and quality. -/
def devSig (type value stamp quality : Nat) : Signal :=
  { value := value, stamp := BitVec.ofNat 32 stamp, type := type, quality := quality, source := 1 }

/-- A good BOOL, U32, F32, F64 or 64-bit integer. -/
def sU32 (v t : Nat) : Signal := devSig 3 (v % 2 ^ 32) t 0xC0
/-- A good F32 of a real. -/
def sF32 (v : Fx) (t : Nat) : Signal := devSig 6 (toF32 v) t 0xC0
/-- A good F64 of a real. -/
def sF64 (v : Fx) (t : Nat) : Signal := devSig 7 (toF64 v) t 0xC0
/-- A good I64. -/
def sI64 (v : Int) (t : Nat) : Signal := devSig 4 (sn 8 v) t 0xC0

/-- Whether the station that serves an axis is commanded silent (R294). -/
def axisSilenced (s : State) (x : AxisSt) : Bool :=
  x.map.segment ≠ 0xFF && (segOf s x.map.segment).silence.getLsbD x.map.station

/-- Whether the freewheel interval of an axis runs (R300): its records are missing, up to N_MISS of them, in HELD, CLOSED or
STOPPING. -/
def freewheels (x : AxisSt) : Bool :=
  x.map.missed ≠ 0 && x.map.missed ≤ x.map.nMiss && (x.state = .held || x.state = .closed || x.state = .stopping)

/-- The quality of the feedback items of an axis (R90, table "Signal quality"). A record that is missing with no freewheel interval
running leaves no value (DESIGN CHOICE, log entry 57). -/
def fbQuality (s : State) (x : AxisSt) : Nat :=
  if axisSilenced s x || (x.state = .fault && x.faultCode = 1) then 0x03
  else if x.map.segment = 0xFF then 0x00
  else if !x.map.got && !x.map.gotPrev && x.map.last = {} then 0x01
  else if x.map.missed = 0 then 0xC0
  else if freewheels x then 0x41 else 0x00

/-- An item with no value: BAD of its type (table "Signal quality"). -/
def noValue (type : Nat) : Signal := devSig type 0 0 0x00

/-- Item `k` of axis `a` (table "Axis items"); none where the item is reserved. -/
def axisItem (s : State) (a k start next : Nat) : Option Signal :=
  let x := axisOf s a
  let q := fbQuality s x
  match k with
  | 0 => some (devSig 8 (sn 8 x.actP) x.sampleAt q)
  | 1 => some (devSig 6 (toF32 (x.map.last.velocity * 2 ^ 80 / 2 ^ x.loop.velFrac)) x.sampleAt q)
  | 2 => some (devSig 6 (toF32 (x.map.last.torque * 2 ^ 80 / 2 ^ x.loop.trqFrac)) x.sampleAt q)
  | 3 => some (devSig 3 x.map.last.status x.sampleAt q)
  | 4 => some (devSig 8 (sn 8 (toQ x.cmdP)) next 0xC0)
  | 5 => some (sF32 x.cmdV next)
  | 6 => some (sF32 (x.loop.tout * 2 ^ 80 / 2 ^ x.loop.trqFrac) next)
  | 7 => some (sF32 x.tauFf next)
  | 8 => some (devSig 6 (toF32 x.loop.fe) x.sampleAt q)
  | 9 => some (sU32 x.state.code x.stateAt)
  | 10 => some (sU32 x.faultCode x.stateAt)
  | 11 => some (sU32 x.map.missed start)
  | _ => none

/-- Item `k` of group `g` (table "Group items"). -/
def grpItem (s : State) (g k start sepAt : Nat) : Option Signal :=
  let x := grpOf s g
  if 3 ≤ k && k ≤ 9 && x.tcp = [] then some (noValue (if k ≤ 5 then 7 else 6))
  else if k = 12 && x.ikResidual.isNone then some (noValue 6)
  else match k with
  | 0 => some (sU32 x.state.code x.stateAt)
  | 1 => some (sU32 x.lastEvent x.eventAt)
  | 2 => some (sF32 (frac x.sGov 256) sepAt)
  | 3 => some (sF64 (lget 0 x.tcp 0) x.snapAt)
  | 4 => some (sF64 (lget 0 x.tcp 1) x.snapAt)
  | 5 => some (sF64 (lget 0 x.tcp 2) x.snapAt)
  | 6 => some (sF32 (lget 0 x.tcpQ 0) x.snapAt)
  | 7 => some (sF32 (lget 0 x.tcpQ 1) x.snapAt)
  | 8 => some (sF32 (lget 0 x.tcpQ 2) x.snapAt)
  | 9 => some (sF32 (lget 0 x.tcpQ 3) x.snapAt)
  | 10 => some (sF64 x.pathTime start)
  | 11 => some (sU32 x.payloadSel x.payloadAt)
  | 12 => some (sF32 (x.ikResidual.getD 0) x.snapAt)
  | _ => none

/-- Item `k` of field channel `c` (table "Field I/O signals"). -/
def chanItem (s : State) (c k start : Nat) : Option Signal :=
  let h := chanOf s c
  let q := if h.role = 1 && (fgOf s (c / 8)).badSeen then 0x03 else 0xC0
  match k with
  | 0 => some (devSig 1 (b2n (if h.role = 2 then h.pin else h.used)) start q)
  | 1 => some (devSig 3 (shortOf h.usedEdge) start q)
  | 2 => some (sU32 (chanDiag s c) start)
  | _ => some (sF32 (frac (measuredMa s c) 1000) start)

/-- Item `k` of field group `x`. -/
def fgItem (s : State) (x k start : Nat) : Option Signal :=
  let f := fgOf s x
  match k with
  | 0 => some (sF32 (frac f.flpMv 1000) start)
  | 1 => some (sU32 f.supply start)
  | 2 => some (sF32 (frac ((List.range 8).foldl (fun n k => n + measuredMa s (8 * x + k)) 0) 1000) start)
  | _ => none

/-- The FLAGS of a step axis (stp.status). -/
def stpFlags (x : StpAxis) : Nat :=
  flagAt x.ena 0 + flagAt x.hold 1 + flagAt x.dir 2 + flagAt x.homed 3 + flagAt x.suspect 4 + flagAt x.deferredLim.isSome 5

/-- Item `k` of step axis `n` (table "Step axis signals"). -/
def stpItem (s : State) (n k next : Nat) : Option Signal :=
  let x := stpOf s n
  match k with
  | 0 => some (sU32 x.state.code next)
  | 1 => some (sI64 x.emitted next)
  | 2 => some (sF32 x.cmdV next)
  | 3 => some (sI64 x.target next)
  | 4 => some (sU32 (stpFlags x) next)
  | 5 => some (sU32 x.homeReason next)
  | _ => none

/-- The deviation of TIME_INC from its nominal 4 ns in ppm (FREQ_ADJ). -/
def freqAdj (s : State) : Fx := frac ((s.time.inc.toNat - 2 ^ 34 : Int) * 1000000) (2 ^ 34)

/-- Item `k` of the time signals (table "Time signals"). -/
def timeItem (s : State) (k at' : Nat) : Option Signal :=
  if k < 5 then match k with
    | 0 => some (devSig 5 at' at' 0xC0)
    | 1 => some (sI64 s.time.plant.toInt at')
    | 2 => some (sU32 s.time.epoch.toNat at')
    | 3 => some (sI64 (s.time.slewRemain / 1000000000000) at')
    | _ => some (sF32 (freqAdj s) at')
  else if 8 ≤ k && k < 12 then some (sU32 (ptpOf s (k - 8)).state at') else none

/-- Item `k` of group `g` among the separation signals (table "Separation signals"). -/
def sepItem (s : State) (g k sepAt : Nat) : Option Signal :=
  let y := ssmOf s g
  match k with
  | 0 => some (sF32 (frac y.s1 256) sepAt)
  | 1 => some (sF32 (frac y.s2 256) sepAt)
  | 2 => some (sF32 y.d1 sepAt)
  | 3 => some (sF32 y.d2 sepAt)
  | 4 => some (sU32 y.reason sepAt)
  | 5 => some (devSig 9 (tokens s g) sepAt 0xC0)
  | 6 => some (sF32 y.vrMeas sepAt)
  | _ => none

/-- The state of sensor `n`: 0 disabled, 1 fresh, 2 stale. -/
def sensItem (s : State) (n sepAt : Nat) : Signal :=
  let x := sensOf s n
  sU32 (if u8 x.cfg 0 ≠ 1 then 0 else if x.stale1 then 2 else 1) sepAt

/-- Device signal `n` of a state, for the compute end at `at'` of the cadence from `start` to `next` and the verdict deadline
`sepAt`; none where the number is reserved. -/
def devSignal (s : State) (n at' start next sepAt : Nat) : Option Signal :=
  if n < 4096 then axisItem s (n / 32) (n % 32) start next
  else if n < 6144 then grpItem s ((n - 4096) / 128) ((n - 4096) % 128) start sepAt
  else if n < 6272 then chanItem s ((n - 6144) / 4) ((n - 6144) % 4) start
  else if n < 6288 then fgItem s ((n - 6272) / 4) ((n - 6272) % 4) start
  else if n = 6288 then some (sU32 s.io.safe start)
  else if 6400 ≤ n && n < 6528 then stpItem s ((n - 6400) / 8) ((n - 6400) % 8) next
  else if 7168 ≤ n && n < 7296 then sepItem s ((n - 7168) / 8) ((n - 7168) % 8) sepAt
  else if 7296 ≤ n && n < 7312 then some (sensItem s (n - 7296) sepAt)
  else if 8128 ≤ n && n < 8140 then timeItem s (n - 8128) at'
  else none

/-- Whether a device signal is updated at verdict deadlines (R238). -/
def isSepSignal (n : Nat) : Bool := 7168 ≤ n && n < 7312

/-- The signal entry that the image holds (R89): reserved numbers are UNMAPPED; a device signal whose object the state does not
list has that object's reset values. -/
def signalOf (s : State) (n : Nat) : Signal :=
  let g := s.sig
  if 8192 ≤ n then tget {} g.image n
  else if (if isSepSignal n then g.sepUpdates else g.updates) = 0 && g.at' = 0 then {}
  else if (tkeys g.dev).contains n then tget {} g.dev n
  else match devSignal {} n g.at' g.start g.next g.sepAt with
    | some x => { x with updates := if isSepSignal n then g.sepUpdates else g.updates }
    | none => {}

/-- The 16 bytes of an entry (table "Signal entry"). -/
def signalBytes (x : Signal) : List Byte :=
  fields [(8, x.value), (4, x.stamp.toNat), (1, x.type), (1, x.quality), (1, x.source), (1, x.updates.toNat)]

/-! Updates. -/

/-- Put device signals into the image. -/
def putDev (l : List Nat) (u : BitVec 8) (s : State) : State :=
  let g := s.sig
  let put (t : Tab Signal) (n : Nat) : Tab Signal := match devSignal s n g.at' g.start g.next g.sepAt with
    | some x => tset {} t n { x with updates := u }
    | none => t
  { s with sig := { g with dev := l.foldl put g.dev } }

/-- The numbers of the device signals of the listed axes, groups, channels, step axes and of the single items. -/
def listedSignals (s : State) : List Nat :=
  (tkeys s.axes).flatMap (fun a => (List.range 12).map (32 * a + ·))
    ++ (tkeys s.grps).flatMap (fun g => (List.range 13).map (4096 + 128 * g + ·))
    ++ (tkeys s.io.ch).flatMap (fun c => (List.range 4).map (6144 + 4 * c + ·))
    ++ (tkeys s.io.grp).flatMap (fun x => (List.range 3).map (6272 + 4 * x + ·)) ++ [6288]
    ++ (tkeys s.stp).flatMap (fun n => (List.range 6).map (6400 + 8 * n + ·))
    ++ (List.range 5).map (8128 + ·) ++ (List.range 4).map (8136 + ·)

/-- The separation signals at a verdict deadline (R238). -/
def sepSignals (s : State) : State :=
  let u := s.sig.sepUpdates + 1
  let s1 := { s with sig := { s.sig with sepUpdates := u, sepAt := now s } }
  putDev ((tkeys s.ssm.grp).flatMap (fun g => (List.range 7).map (7168 + 8 * g + ·))
    ++ (tkeys s.ssm.sens).map (7296 + ·)) u s1

/-- The value of a received signal in the data of its PROCESS entry (R281), in network byte order. -/
def takeSignal (d : List Byte) (m : SigMap) : Option Nat :=
  if d.length < m.offset + sigBytes m.type then none
  else if m.type = 1 then some ((lget 0 d m.offset).toNat / 2 ^ m.bit % 2)
  else some (beNat ((d.drop m.offset).take (sigBytes m.type)))

/-- One mapped received signal at a compute end (R300, table "Signal quality"). -/
def updateMapped (e : Nat × SigMap) (s : State) : State :=
  let m := e.2
  if m.source ≠ 2 || m.sent then s
  else
    let k := segOf s m.segment
    let x := tget {} s.sig.image e.1
    let y :=
      if k.silence.getLsbD m.station then { x with quality := 0x03 }
      else if k.procGot.contains m.station then
        match takeSignal (tget [] k.proc m.station) m with
        | some v => { x with value := v, stamp := BitVec.ofNat 32 s.cad.start, quality := 0xC0, updates := x.updates + 1 }
        | none => if x.quality = 0xC0 then { x with quality := 0x41 } else x
      else if x.quality = 0xC0 then { x with quality := 0x41 } else x
    { s with sig := { s.sig with image := tset {} s.sig.image e.1 y } }

/-- A value cut to its type (table "Signal entry"). -/
def cutValue (type v : Nat) : Nat := if type = 1 then v % 2 else v % 2 ^ (8 * sigBytes type)

/-- A host write becomes visible (R93). -/
def showWrite (w : Nat × Nat × Nat) (s : State) : State :=
  let (n, v, stamp) := w
  let x := tget {} s.sig.image n
  if x.source ≠ 3 then s
  else
    let y := { x with value := cutValue x.type v, stamp := BitVec.ofNat 32 stamp, quality := 0xC0, updates := x.updates + 1 }
    { s with sig := { s.sig with image := tset {} s.sig.image n y } }

/-- The number that a value stands for by its type: reals in 2^-80, integers as they are; none for a NaN. -/
def sigNum (type v : Nat) : Option Int :=
  match type with
  | 2 => some (signedOf 32 v)
  | 4 => some (signedOf 64 v)
  | 8 => some (signedOf 64 v)
  | 6 => f32? (v % 2 ^ 32)
  | 7 => f64? v
  | _ => some (cutValue type v)

/-- Whether a watch's condition holds of an entry (R94). -/
def watchHolds (w : Watch) (x : Signal) : Bool :=
  let v := sigNum x.type x.value
  let thr := sigNum x.type w.threshold
  let hy := (sigNum x.type w.hysteresis).getD 0
  match w.cond, v, thr with
  | 1, some a, some b => b < a || (w.on && b - hy < a)
  | 2, some a, some b => a < b || (w.on && a < b + hy)
  | 3, some a, some b => a = b
  | 4, _, _ => x.value ≠ w.last
  | 5, _, _ => x.quality < 0xC0
  | 6, _, _ => bitOf x.value (w.threshold % 64)
  | 7, _, _ => !bitOf x.value (w.threshold % 64)
  | _, _, _ => false

/-- One watch at a compute end (R94). -/
def watchStep (i : Nat) (s : State) : State :=
  let w := tget {} s.sig.watch i
  let x := signalOf s w.signal
  let on := watchHolds w x
  let s1 := { s with sig := { s.sig with watch := tset {} s.sig.watch i { w with on := on, last := x.value } } }
  raiseIf (on && !w.on) (120 + w.event) s1

/-- The signal image and the watches at a compute end (R90, R93, R94). -/
def sigUpdate (s : State) : State :=
  let u := s.sig.updates + 1
  let s1 := { s with sig := { s.sig with updates := u, at' := now s, start := s.cad.start, next := s.cad.start + s.cad.ns, cadence := s.cad.count.toNat, waiting := [] } }
  let s2 := { putDev (listedSignals s) u s1 with free := s.free + 8 }
  let s3 := s.sig.map.foldl (fun t e => updateMapped e t) s2
  let s4 := s.sig.waiting.foldl (fun t w => showWrite w t) s3
  forNat (tkeys s.sig.watch) watchStep s4

/-- An uncorrectable error in the memory of signal `n` (R38): its quality is bad and its watches fire. -/
def sigPoison (n : Nat) (s : State) : State :=
  let x := { signalOf s n with quality := 0x02 }
  let s1 := if 8192 ≤ n then { s with sig := { s.sig with image := tset {} s.sig.image n x } }
    else { s with sig := { s.sig with dev := tset {} s.sig.dev n x } }
  forNat (tkeys s.sig.watch) (fun i t =>
    let w := tget {} t.sig.watch i
    if w.signal = n && w.cond ≠ 0 then
      raise (120 + w.event) { t with sig := { t.sig with watch := tset {} t.sig.watch i { w with on := w.cond = 5 || w.on } } }
    else t) s1

/-! Commands. -/

/-- What a sig.map payload maps its i-th signal to. -/
def sigMapOf (p : List Byte) (i : Nat) : SigMap :=
  { source := u8 p 2, type := u8 p 3, segment := u8 p 4, station := u8 p 5, sent := u8 p 6 = 1, bit := u8 p 7,
    offset := u16 p 8 + i * u16 p 10, fwObject := u32 p 12 }

/-- The maps after a sig.map. -/
def mapAfter (o : Nat) (p : List Byte) (m : Tab SigMap) : Tab SigMap :=
  (List.range (u16 p 0)).foldl (fun t i => if u8 p 2 = 0 then tdrop t (o + i) else tset {} t (o + i) (sigMapOf p i)) m

/-- The maps as the accepted sig.map commands will leave them. -/
def mapAhead (s : State) : Tab SigMap :=
  (s.eff.filter (fun e => e.opcode = 0x0601)).foldl (fun m e => mapAfter e.object e.p m) s.sig.map

/-- The bits of a sent record that a mapping takes: first and one past the last. -/
def mapBits (m : SigMap) : Nat × Nat :=
  if m.type = 1 then (8 * m.offset + m.bit, 8 * m.offset + m.bit + 1)
  else (8 * m.offset, 8 * (m.offset + sigBytes m.type))

/-- Whether two sent-record mappings overlap (R91). -/
def mapsOverlap (a b : SigMap) : Bool :=
  a.sent && b.sent && a.segment = b.segment && a.station = b.station
    && (mapBits a).1 < (mapBits b).2 && (mapBits b).1 < (mapBits a).2

/-- sig.map (R91). -/
def sigMapSpec : CmdSpec where
  opcode := 0x0601
  lenOk n _ := n = 16
  objOk o _ := 8192 ≤ o && o < 131072
  kind _ _ _ := .round
  body c s :=
    let p := c.p
    let n := u16 p 0
    let m := mapAhead s
    let news := (List.range n).map (sigMapOf p)
    let mapped := (List.range n).filterMap (fun i => let x := tget {} m (c.h.object + i); if x.source ≠ 0 then some x.source else none)
    let conflict : Bool := u8 p 2 ≠ 0 && mapped ≠ []
    let overlap := u8 p 2 ≠ 0 && ((List.range n).any (fun i => let x := lget {} news i
      m.any (fun e => mapsOverlap x e.2) || (news.drop (i + 1)).any (mapsOverlap x)))
    { bad := [(u8 p 2 ≠ 0 && (u8 p 5 = 0 || u8 p 5 = 255), .badObject),
              (!([0, 2, 3, 4] : List Nat).contains (u8 p 2) || 9 < u8 p 3 || decide (u8 p 2 = 0) != decide (u8 p 3 = 0) || 1 < u8 p 6 || overlap, .badArg),
              (n = 0 || 256 < n || 131072 < c.h.object + n || (u8 p 2 ≠ 0 && (7 < u8 p 4 || 7 < u8 p 7
                || news.any (fun x => 256 < x.offset + sigBytes x.type))), .outOfRange),
              (s.dev.mode ≠ .run || conflict, .stateConflict)]
      refusedState := fun st => if st = .stateConflict && conflict then mapped.head? else none
      act := later c }

/-- The effect of sig.map at its round start. -/
def sigMapEff (e : Eff) (s : State) : State :=
  let p := e.p
  let x : Signal := if u8 p 2 = 0 then {}
    else { type := u8 p 3, quality := 0x01, source := u8 p 2, stamp := BitVec.ofNat 32 e.due }
  let image := (List.range (u16 p 0)).foldl (fun t i => tset {} t (e.object + i) x) s.sig.image
  { s with sig := { s.sig with map := mapAfter e.object p s.sig.map, image := image } }

/-- sig.read (R92). -/
def sigReadSpec : CmdSpec where
  opcode := 0x0602
  lenOk n _ := n = 4
  indR := true
  objOk := objBelow 131072
  inFault _ := true
  resMax p := 16 + 16 * u32 p 0
  body c s :=
    let n := u32 c.p 0
    { bad := [(n = 0 || 65536 < n || 131072 < c.h.object + n, .outOfRange)]
      act := fun t => { s := t, res := fields [(4, s.sig.cadence), (4, s.sig.cadence), (8, 0)]
        ++ (List.range n).flatMap (fun i => signalBytes (signalOf s (c.h.object + i))) } }

/-- The i-th signal that a sig.write names, and its value. -/
def writeOf (p : List Byte) (i : Nat) : Nat × Nat := (u32 p (4 + 16 * i), u64 p (12 + 16 * i))

/-- sig.write (R93). -/
def sigWriteSpec : CmdSpec where
  opcode := 0x0603
  lenOk n p := n = 4 + 16 * u16 p 0
  kind _ _ _ := .cadence
  body c s :=
    let p := c.p
    let n := u16 p 0
    let l := (List.range n).map (writeOf p)
    let wrong := (l.map (fun w => (signalOf s w.1).source)).find? (fun k => k ≠ 3)
    { bad := [(!zeroAt p 2 2 || (List.range n).any (fun i => !zeroAt p (8 + 16 * i) 4), .badArg),
              (n = 0 || 250 < n || l.any (fun w => 131072 ≤ w.1), .outOfRange), (wrong.isSome, .stateConflict)]
      refusedState := fun st => if st = .stateConflict then wrong else none
      act := later c }

/-- The effect of sig.write: its values wait for the compute end. -/
def sigWriteEff (e : Eff) (s : State) : State :=
  let l := (List.range (u16 e.p 0)).map (fun i => let w := writeOf e.p i; (w.1, w.2, e.due))
  { s with sig := { s.sig with waiting := s.sig.waiting ++ l } }

/-- The number of active watches once the accepted sig.watch commands and one for watch `o` with condition `cond` took effect. -/
def watchesAhead (s : State) (o cond : Nat) : Nat :=
  let put (t : Tab Bool) (k c : Nat) : Tab Bool := tset false t k (c ≠ 0)
  let t0 := s.sig.watch.foldl (fun t e => put t e.1 e.2.cond) []
  let t1 := (s.eff.filter (fun e => e.opcode = 0x0604)).foldl (fun t e => put t e.object (u8 e.p 4)) t0
  (tkeys (put t1 o cond)).length

/-- sig.watch (R94). The WATCH task is placed with its active watches (R30; log entry 58). -/
def sigWatchSpec : CmdSpec where
  opcode := 0x0604
  lenOk n _ := n = 24
  objOk := objBelow 64
  kind _ _ _ := .cadence
  body c s :=
    let p := c.p
    let led := regrade s (watchShare (watchesAhead s c.h.object (u8 p 4)))
    { bad := [(7 < u8 p 4 || !zeroAt p 6 2, .badArg),
              (131072 ≤ u32 p 0 || 7 < u8 p 5 || ((u8 p 4 = 6 || u8 p 4 = 7) && 63 < u64 p 8), .outOfRange),
              (led.isNone, .notSchedulable)]
      act := fun t => later c (setShares (led.getD t.sch.shares) t) }

/-- The effect of sig.watch. -/
def sigWatchEff (e : Eff) (s : State) : State :=
  let p := e.p
  let w : Watch := if u8 p 4 = 0 then {} else
    { signal := u32 p 0, cond := u8 p 4, event := u8 p 5, threshold := u64 p 8, hysteresis := u64 p 16,
      last := (signalOf s (u32 p 0)).value }
  { s with sig := { s.sig with watch := tset {} s.sig.watch e.object w } }

/-! Rows. -/

/-- SIG_MAP (R91). -/
def execSigMap (c : CmdRef) (s : State) : Host.Outcome State Fault Refusal := .next (runCmd sigMapSpec c s)
/-- SIG_READ (R92). -/
def execSigRead (c : CmdRef) (s : State) : Host.Outcome State Fault Refusal := .next (runCmd sigReadSpec c s)
/-- SIG_WRITE (R93). -/
def execSigWrite (c : CmdRef) (s : State) : Host.Outcome State Fault Refusal := .next (runCmd sigWriteSpec c s)
/-- SIG_WATCH (R94). -/
def execSigWatch (c : CmdRef) (s : State) : Host.Outcome State Fault Refusal := .next (runCmd sigWatchSpec c s)

end Sys2Proof.Machine
end

