-- ==== Sys2Proof/Machine/Ik.lean ====
section
/-!
DEFINITION. Analytic inverse kinematics (R69, R80, R84): every branch of a group type, from the axes of the joints at joint
coordinates 0. A pose is the motion that takes the tool from where it stands there; it is the product of the joints' screws.
-/
namespace Sys2Proof.Machine

/-- The rotation by an angle about a unit vector. -/
def Quat.about (z : V3) (t : Fx) : Quat :=
  let s := fsin (t / 2)
  ⟨fcos (t / 2), fmul z.x s, fmul z.y s, fmul z.z s⟩

/-- A vector without its part along a unit vector. -/
def V3.across (v z : V3) : V3 := v.sub (z.smul (v.dot z))

/-- A vector at right angles to a unit vector. -/
def V3.perp (z : V3) : V3 := if fabs z.x * 2 < one then z.cross ⟨one, 0, 0⟩ else z.cross ⟨0, one, 0⟩

/-- The angle about `z` that takes the direction of `u` to that of `v`, as seen along `z`. -/
def turnTo (z u v : V3) : Fx :=
  let a := u.across z
  let b := v.across z
  fatan2 (z.dot (a.cross b)) (a.dot b)

/-- The motion of joint `i` by its coordinate, about or along its axis at joint coordinates 0. -/
def screw (m : List Byte) (l : List (V3 × V3)) (i : Nat) (q : Fx) : Frame :=
  let (o, z) := lget default l i
  if jPrism m i then ⟨{}, z.smul q⟩ else let r := Quat.about z q; ⟨r, o.sub (r.rot o)⟩

/-- The angles (a, b) at which a turn by b about z₂ and then by a about z₁ takes `p` to `q`; where the vectors leave no room the
nearest pair counts. -/
def twoTurns (z1 z2 p q : V3) : List (Fx × Fx) :=
  let c := z1.dot z2
  let n := z1.cross z2
  let k := one - fmul c c
  if k ≤ 2 ^ 20 then [(turnTo z1 p q, 0)]
  else
    let d1 := z2.dot p
    let d2 := z1.dot q
    let al := fdiv (d2 - fmul c d1) k
    let be := fdiv (d1 - fmul c d2) k
    let rest := p.dot p - fmul al al - fmul be be - 2 * fmul (fmul al be) c
    let g := fsqrt (fdiv rest (n.dot n))
    let sol (g : Fx) : Fx × Fx :=
      let r := (z1.smul al).add ((z2.smul be).add (n.smul g))
      (turnTo z1 r q, turnTo z2 p r)
    [sol g, sol (-g)]

/-- The two solutions of A cos t + B sin t = C; the nearest angle where there is none. -/
def cosSin (a b c : Fx) : List Fx :=
  let r := fsqrt (fmul a a + fmul b b)
  let x := if r = 0 then 0 else clampI (-one) one (fdiv c r)
  let d := fatan2 (fsqrt (one - fmul x x)) x
  let f := fatan2 b a
  [f + d, f - d]

/-- The angles about the axis (o, z) that bring point `p` to distance `d`, as seen along z, from point `c`. -/
def toDistance (o z p c : V3) (d : Fx) : List Fx :=
  let a := (p.sub o).across z
  let b := (c.sub o).across z
  let k := 2 * fmul a.norm b.norm
  let x := if k = 0 then 0 else clampI (-one) one (fdiv (a.dot a + b.dot b - fmul d d) k)
  let y := fatan2 (fsqrt (one - fmul x x)) x
  let t := turnTo z a b
  [t + y, t - y]

/-- Whether an angle is within 10⁻⁴ rad of 0 or π. -/
def nearStraight (t : Fx) : Bool :=
  let w := fabs (wrapAngle t)
  w ≤ one / 10000 || pi - w ≤ one / 10000

/-- The two branches of a wrist whose axes meet, for a rotation; at a wrist singularity the first joint keeps its snapshot value and
the last takes the whole rotation (R84). -/
def wristAngles (z3 z4 z5 : V3) (r : Quat) (keep : Fx) : List (List Fx) :=
  (twoTurns z3 z4 z5 (r.rot z5)).map (fun e =>
    let a := if nearStraight e.2 then keep else e.1
    let left := ((Quat.about z3 a).mul (Quat.about z4 e.2)).conj.mul r
    [a, e.2, turnTo z5 z5.perp (left.rot z5.perp)])

/-- The branches of an arm of six revolute joints from joint `k` on that qualifies by R80: two shoulders, two elbows, two wrists. -/
def armBranches (m : List Byte) (k : Nat) (g : Frame) (qs : List Fx) : List (List Fx) :=
  let l := axisLines m
  let o (i : Nat) : V3 := (lget default l (k + i)).1
  let z (i : Nat) : V3 := (lget default l (k + i)).2
  let w := meetPoint ((l.drop (k + 3)).take 3)
  let tw := g.point w
  let u := tw.sub (o 0)
  let shoulders := cosSin ((z 1).dot (u.across (z 0))) (-((z 1).dot ((z 0).cross u)))
    ((z 1).dot (w.sub (o 0)) - fmul ((z 1).dot (z 0)) ((z 0).dot u))
  shoulders.flatMap (fun q0 =>
    let e0 := screw m l k q0
    let p := e0.inv.point tw
    (toDistance (o 2) (z 2) w (o 1) ((p.sub (o 1)).across (z 1)).norm).flatMap (fun q2 =>
      let e2 := screw m l (k + 2) q2
      let q1 := turnTo (z 1) ((e2.point w).sub (o 1)) (p.sub (o 1))
      let r := (e0.comp ((screw m l (k + 1) q1).comp e2)).r.conj.mul g.r
      (wristAngles (z 3) (z 4) (z 5) r (lget 0 qs (k + 3))).map (fun ws => [q0, q1, q2] ++ ws)))

/-- The branches of a SCARA: two elbows. -/
def scaraBranches (m : List Byte) (g : Frame) : List (List Fx) :=
  let l := axisLines m
  let o (i : Nat) : V3 := (lget default l i).1
  let z (i : Nat) : V3 := (lget default l i).2
  let tw := g.point (o 3)
  (toDistance (o 1) (z 1) (o 3) (o 0) ((tw.sub (o 0)).across (z 0)).norm).map (fun q1 =>
    let e1 := screw m l 1 q1
    let q0 := turnTo (z 0) ((e1.point (o 3)).sub (o 0)) (tw.sub (o 0))
    let e := (screw m l 0 q0).comp e1
    let r := e.r.conj.mul g.r
    [q0, q1, (e.r.rot (z 2)).dot (tw.sub (e.point (o 3))), turnTo (z 3) (z 3).perp (r.rot (z 3).perp)])

/-- The branches of one to three revolute joints from joint `k` on that turn a body by a rotation. -/
def turnBranches (m : List Byte) (k : Nat) (r : Quat) (qs : List Fx) : List (List Fx) :=
  let z (i : Nat) : V3 := (lget default (axisLines m) (k + i)).2
  match mJoints m - k with
  | 0 => [[]]
  | 1 => [[turnTo (z 0) (z 0).perp (r.rot (z 0).perp)]]
  | 2 => (twoTurns (z 0) (z 1) (z 1).perp (r.rot (z 1).perp)).map (fun e => [e.1, e.2])
  | _ => wristAngles (z 0) (z 1) (z 2) r (lget 0 qs k)

/-- The branches of a gantry: its prismatic joints take what the wrist leaves. -/
def gantryBranches (m : List Byte) (g : Frame) (qs : List Fx) : List (List Fx) :=
  let l := axisLines m
  let np := ((List.range (mJoints m)).takeWhile (jPrism m)).length
  let z (i : Nat) : V3 := (lget default l i).2
  (turnBranches m np g.r qs).map (fun ws =>
    let e := ((List.range ws.length).zip ws).foldl (fun (f : Frame) a => f.comp (screw m l (np + a.1) a.2)) {}
    let t := (g.comp e.inv).p
    solveRows np ((List.range np).map (fun i => (List.range np).map (fun j => (z i).dot (z j)) ++ [(z i).dot t])) ++ ws)

/-- A branch brought to the exact pose where the geometry meets the conditions of R69 and R80 only within their bounds, and each
angle to the turn nearest to the snapshot (R88). -/
def settleBranch (m : List Byte) (tgt : Frame) (qs q : List Fx) : List Fx :=
  let near (i : Nat) (a : Fx) : Fx := if jPrism m i then a else a + divEven (lget 0 qs i - a) twoPi * twoPi
  let p := if residualOk (ikResidual m tgt q) then q else dlsSteps m (2 ^ 60) tgt 3 q
  ((List.range p.length).zip p).map (fun e => near e.1 e.2)

/-- Every branch of analytic inverse kinematics for a pose in the base frame (R84), in the order in which they are computed. -/
def ikBranches (m : List Byte) (tgt : Frame) (qs : List Fx) : List (List Fx) :=
  let g := tgt.comp (toolFrame m (List.replicate (mJoints m) 0)).inv
  let l := match mType m with
    | 1 => armBranches m 0 g qs
    | 2 => gantryBranches m g qs
    | 3 => scaraBranches m g
    | 4 => turnBranches m 0 g.r qs
    | 5 => (armBranches m 1 g qs).map (fun q => lget 0 qs 0 :: q)
    | _ => []
  l.map (settleBranch m tgt qs)

end Sys2Proof.Machine
end

