-- ==== Sys2Proof/Machine/GroupCmd.lean ====
section
/-!
DEFINITION. Groups at the planning snapshot (R81 to R86, R105), group moves and their queue (R104 to R108), settling (R115), and
the grp commands.
-/
namespace Sys2Proof.Machine

/-! The planning snapshot of the kinematics-and-dynamics engines. -/

/-- What the KDE evaluate for a configured group (R81, R87): in the base frame from FP32 joint angles to FP32 results; the planner
adds the track and the cell frame. -/
def kdeSnap (g : Nat) (s : State) : State :=
  let x := grpOf s g
  if !x.configured then s
  else
    let m := x.model
    let n := mJoints m
    let p := (chanPos s false g).map double
    let q := (List.range n).map (fun i => kdeCoord m i (lget 0 p i))
    let qd := (List.range n).map (fun i => jointRate m i (lget 0 (chanVel s false g) i))
    let t := (toolFrame m q).single
    let f := (trackBase m (lget 0 (coords m p) 0)).comp t
    modGrp g (fun y => { y with
      snapQ := p, mMat := (massMatrix m x.payloadSel q).flatten.map single, hVec := (biasTorques m x.payloadSel q qd).map single
      tcp := if mType m = 6 then [] else [f.p.x, f.p.y, f.p.z], tcpQ := if mType m = 6 then [] else [f.r.w, f.r.x, f.r.y, f.r.z]
      snapAt := s.cad.start }) s

/-- A pose field: position as FP64 and orientation as FP32. -/
def poseOf (p : List Byte) (o : Nat) : Frame := ⟨(q32 p (o + 24)).unit, v64 p o⟩

/-- Whether axis positions lie within the travel of every joint. -/
def allInTravel (s : State) (g : Nat) (p : List Fx) : Bool :=
  (p.zip (List.range p.length)).all (fun e => inTravel (2 ^ 48) (jointLim s g e.2) e.1)

/-- The sum of squared differences of joint coordinates (R84). -/
def sqDist (a b : List Fx) : Fx := (a.zip b).foldl (fun t e => t + fmul (e.1 - e.2) (e.1 - e.2)) 0

/-- One inverse-kinematics solve for a pose in the cell frame: axis positions where it succeeds, and the residual in metres (R81,
R84 to R86). -/
def solveIk (s : State) (g branch : Nat) (tgt : Frame) : Option (List Fx) × Fx :=
  let x := grpOf s g
  let m := x.model
  let qs := coords m x.snapQ
  let t := (trackBase m (lget 0 qs 0)).inv.comp tgt
  let toAxes (q : List Fx) : List Fx := (List.range (mJoints m)).map (fun i => axisCoord m i (lget 0 q i))
  if runsNumeric m then
    let q := numericIk m t qs
    let e := ikResidual m t q
    (if residualOk e && allInTravel s g (toAxes q) then some (toAxes q) else none, e.1)
  else
    let all := ikBranches m t qs
    let asked := if branch = 0xFF then all else (all.drop branch).take 1
    let ok := asked.filter (fun q => residualOk (ikResidual m t q) && allInTravel s g (toAxes q))
    let best := ok.foldl (fun (o : Option (List Fx)) q => match o with
      | none => some q
      | some b => if sqDist q qs < sqDist b qs then some q else some b) none
    (best.map toAxes, (best.map (fun q => (ikResidual m t q).1)).getD 0)

/-- A motion that cannot start because its pose is out of reach (R86). -/
def unreachable (g tag promise : Nat) (s : State) : State :=
  grpEvent g 6 (journal 0x09 0x06 1 g promise (fields [(2, tag), (8, promise)]) s)

/-! Moves. -/

/-- The limits of a group's joints. -/
def grpLims (s : State) (g : Nat) : List Limits := (List.range (jointsOf (grpOf s g))).map (jointLim s g)

/-- A JOINT target of a grp.move payload. -/
def jointTarget (p : List Byte) (n : Nat) : List Fx := (List.range n).map (fun i => i64 p (16 + 8 * i) * 2 ^ 48)

/-- What a move of a PROFILE group does at path time `t` (R106 to R108): APPEND follows the moves there are, with an overlap. -/
def moveApply (lims : List Limits) (p : List Byte) (target : List Fx) (blend t : Fx) (tag promise : Nat) (x : GroupSt) : GroupSt :=
  let ls := lims.map (fun l => l.scaled (mvSpeed p))
  let (b, ms) := foldMoves t x.base x.moves
  if u8 p 1 = 1 && ms ≠ [] && x.lastTarget = [] then
    let from' := finalTarget { x with base := b, moves := ms }
    let m := planRest ls ((target.zip from').map (fun e => e.1 - e.2))
    { x with base := b, moves := ms ++ [{ m with auto := true, blend := blend, target := target, speed := mvSpeed p, tag := tag, promise := promise }] }
  else
    let ks := x.kin.list
    let m := if restKnot x.kin then planRest ls ((target.zip x.kin.p).map (fun e => e.1 - e.2)) else planReplace ks target ls
    { x with base := x.kin.p, lastTarget := []
             moves := [{ m with start := t, target := target, speed := mvSpeed p, tag := tag, promise := promise }] }

/-- The path time at which a group will stand before the cadence at `t`, at λ = 1. -/
def pathAt (s : State) (g t : Nat) : Fx :=
  let from' := if s.cad.phase = 0 then s.cad.start else s.cad.start + s.cad.ns
  (grpOf s g).pathTime + secOfNs ((t - from' : Nat) : Int)

/-- The overlap that a waiting JOINT move carries behind its payload, in 2^-40 s. -/
def effBlend (e : Eff) : Fx := i64 e.p 80 * 2 ^ 40

/-- A group as it will be at cadence start `t` at λ = 1, by its moves and the JOINT moves admitted so far. -/
def grpPredict (s : State) (g t : Nat) : GroupSt :=
  let lims := grpLims s g
  let tc := secOfNs s.cad.ns
  let settle (x : GroupSt) (u : Fx) : GroupSt :=
    let ms := (x.moves.zip (predictStarts x.pathTime tc none x.moves)).map (fun e =>
      if e.1.auto && e.2.1 ≤ u then { e.1 with auto := false, start := e.2.1 } else e.1)
    let y := { x with moves := ms }
    if x.moves = [] then y else { y with kin := movesAt y u }
  let es := s.eff.filter (fun e => e.opcode = 0x0704 && e.object = g && e.due ≤ t && u8 e.p 0 = 0)
  let es := es.foldl (fun (acc : List Eff) e => acc.takeWhile (fun f => f.due ≤ e.due) ++ [e] ++ acc.dropWhile (fun f => f.due ≤ e.due)) []
  settle (es.foldl (fun x e =>
    let u := pathAt s g e.due
    moveApply lims e.p (jointTarget e.p (jointsOf x)) (effBlend e) u e.tag e.due (settle x u)) (grpOf s g)) (pathAt s g t)

/-- The overlap of an APPEND, cut to its predecessor and its promise time (R108). -/
def blendCut (s : State) (g promise : Nat) (x : GroupSt) (p : List Byte) : Fx :=
  let t := pathAt s g promise
  let ms := (foldMoves t x.base x.moves).2
  match (predictStarts x.pathTime (secOfNs s.cad.ns) none ms).getLast? with
  | some (st, fin) => max 0 (min (f32 (u32 p 8)) (fin - max st t))
  | none => 0

/-- The overlap that an APPEND may use after the moves of a predicted group (R108): cut to its predecessor and its promise time, then
shortened to keep every limit. -/
def blendUsed (s : State) (g promise : Nat) (x : GroupSt) (p : List Byte) (target : List Fx) : Fx :=
  let tc := secOfNs s.cad.ns
  let (b, ms) := foldMoves (pathAt s g promise) x.base x.moves
  match ms.getLast? with
  | some prev =>
    let cut := blendCut s g promise x p
    let lims := grpLims s g
    let m := planRest (lims.map (fun l => l.scaled (mvSpeed p)))
      ((target.zip (finalTarget { x with base := b, moves := ms })).map (fun e => e.1 - e.2))
    if cut ≤ 0 then 0 else blendFit lims prev m tc ((cut / max 1 tc).toNat + 2) cut
  | none => 0

/-- Moves that have not started, planned anew from the target `b` of the one before (R102, R108). -/
def replanQueue (lims : List Limits) : List Int → List Move → List Move
  | _, [] => []
  | b, m :: r =>
    let n := planRest (lims.map (fun l => l.scaled m.speed)) ((m.target.zip b).map (fun e => e.1 - e.2))
    { m with auto := true, dur := n.dur, joints := n.joints } :: replanQueue lims m.target r

/-- Limits that change while a PROFILE group keeps moves bind all of them (R102, R104): those that run go on from the present
path-time state to the target where they end, at SPEED of the last, and the queue is planned anew. -/
def replanMoves (g : Nat) (s : State) : State :=
  let x := grpOf s g
  if x.mpc || x.axisStop || x.lastTarget ≠ [] || x.moves = [] then s
  else
    let lims := grpLims s g
    let t := x.pathTime
    let run := x.moves.takeWhile (fun m => !m.auto && m.start ≤ t)
    let queue := x.moves.drop run.length
    match run.getLast? with
    | none => modGrp g (fun y => { y with moves := replanQueue lims x.base queue }) s
    | some m =>
      let goal := finalTarget { x with moves := run }
      let ls := lims.map (fun l => l.scaled m.speed)
      let n := if restKnot x.kin then planRest ls ((goal.zip x.kin.p).map (fun e => e.1 - e.2)) else planReplace x.kin.list goal ls
      modGrp g (fun y => { y with
        base := y.kin.p, moves := { m with start := t, dur := n.dur, joints := n.joints } :: replanQueue lims goal queue }) s

/-- Whether a group may carry out a motion command at its effect time (R72, R77). -/
def mayMove (x : GroupSt) (append : Bool) : Bool := match x.state with
  | .ready => true
  | .moving => true
  | .hold => append
  | _ => false

/-- The stream that drives a group gives way to a move that replaces its motion; R120 counts no underrun for it, and only a new
anchor lets the stream drive again. -/
def strmGives (g : Nat) (s : State) : State :=
  match driving s g with
  | some k => setStrm k { strmOf s k with needsAnchor := true } (modGrp g (fun x => { x with strmRun := false, recs := [] }) s)
  | none => s

/-- The effect of a move of a PROFILE group with a joint target at its cadence start. -/
def profileMove (g : Nat) (p : List Byte) (target : List Fx) (blend : Fx) (tag promise : Nat) (s : State) : State :=
  let x := grpOf s g
  if !mayMove x (u8 p 1 = 1) then preempted g tag promise s
  else
    let s1 := strmGives g s
    let s2 := modGrp g (moveApply (grpLims s1 g) p target blend (grpOf s1 g).pathTime tag promise) s1
    if x.state = .ready then grpTo g .moving s2 else s2

/-- The effect of grp.move KIND JOINT on a PROFILE group; the payload is followed by the overlap. -/
def moveEff (e : Eff) (s : State) : State :=
  profileMove e.object e.p (jointTarget e.p (jointsOf (grpOf s e.object))) (effBlend e) e.tag e.due s

/-- The poses of a PROFILE group that were solved at a snapshot become moves at their effect time (R105). -/
def poseMoves (g : Nat) (s : State) : State :=
  let x := grpOf s g
  if x.mpc then s
  else
    let l := x.mpcTargets.filter (fun w => w.promise ≤ s.cad.start)
    l.foldl (fun t w =>
      let y := grpPredict t g s.cad.start
      let b := if u8 w.p 1 = 1 && u32 w.p 8 ≠ 0 then blendUsed t g s.cad.start y w.p w.joints else 0
      profileMove g w.p w.joints b w.tag w.promise t)
      (modGrp g (fun y => { y with mpcTargets := y.mpcTargets.filter (fun w => s.cad.start < w.promise) }) s)

/-- Whether a waiting grp.move may be taken at the planning snapshot for boundary `b`: the poses of a PROFILE group at the first
snapshot after admission (R105), the targets of an MPC group at that of their boundary. -/
def moveDue (s : State) (b : Nat) (e : Eff) : Bool :=
  e.opcode = 0x0704 && (if (grpOf s e.object).mpc then e.due ≤ b else u8 e.p 0 ≠ 0)

/-- The moves that a snapshot takes: of each group those up to its first Cartesian target, since the KDE make one solve for a group
in a period (R81); `used` are the groups that have had theirs. -/
def movesTaken : List Nat → List Eff → List Eff
  | _, [] => []
  | used, e :: r =>
    if used.contains e.object then movesTaken used r
    else e :: movesTaken (if u8 e.p 0 = 0 then used else e.object :: used) r

/-- One grp.move at the planning snapshot: its target is solved and waits for the boundary (R81, R86, R105, R135). -/
def moveSnap (e : Eff) (s : State) : State :=
  let g := e.object
  let x := grpOf s g
  let append := u8 e.p 1 = 1
  let add (w : MpcTarget) (t : State) : State :=
    if x.mpc then
      let t1 := if append then t else strmGives g t
      modGrp g (fun y =>
        if append then { y with mpcTargets := y.mpcTargets ++ [w] }
        else { y with mpcTargets := [w], lastTarget := [], recs := [] }) t1
    else modGrp g (fun y => { y with mpcTargets := y.mpcTargets ++ [w] }) t
  let w : MpcTarget := { p := e.p.take 80, tag := e.tag, promise := e.due }
  if x.mpc && !mayMove x append then preempted g e.tag e.due s
  else if u8 e.p 0 = 0 then add { w with solved := true, joints := jointTarget e.p (jointsOf x) } s
  else
    let (sol, err) := solveIk s g (u8 e.p 2) (poseOf e.p 16)
    let s1 := modGrp g (fun y => { y with ikResidual := some err }) s
    match sol with
    | some q => add { w with solved := true, joints := q } s1
    | none => unreachable g e.tag e.due s1

/-- The records that a stream's reference keeps, and the conversion of its earliest waypoint that is not converted yet (R135), where
the group's solve of the period is free (R81). -/
def waypointSnap (free : Bool) (g : Nat) (s : State) : State :=
  let x := grpOf s g
  if !x.mpc || !x.strmRun then s
  else
    let keep := recsAhead x
    let last := match (keep.filter (fun r => r.joints.isSome || r.whole (jointsOf x))).getLast? with
      | some r => r.joints.getD ((List.range (jointsOf x)).map (fun i => r.pos i * 2 ^ 48))
      | none => x.lastTarget
    let s1 := modGrp g (fun y => { y with recs := keep, lastTarget := last }) s
    match keep.findIdx? (fun r => free && r.kind = 0x10 && r.joints.isNone) with
    | none => s1
    | some i =>
      let r := lget {} keep i
      let (sol, err) := solveIk s1 g (u8 r.data 44) (poseOf r.data 0)
      let s2 := modGrp g (fun y => { y with ikResidual := some err }) s1
      match sol with
      | some q => modGrp g (fun y => { y with recs := lset y.recs i { r with joints := some q } }) s2
      | none => unreachable g r.seq r.stamp (modGrp g (fun y => { y with recs := y.recs.eraseIdx i }) s2)

/-- The planning snapshot of the groups: KDE, targets, waypoints (R25, R81). -/
def grpSnapshot (s : State) : State :=
  let b := s.cad.planStart + planNs s
  let s1 := forNat (List.range 16) kdeSnap s
  let due := movesTaken [] (s1.eff.filter (moveDue s1 b))
  let solved := (due.filter (fun e => u8 e.p 0 ≠ 0)).map (·.object)
  let s2 := { s1 with eff := s1.eff.filter (fun e => !due.contains e) }
  forNat (List.range 16) (fun g t => waypointSnap (!solved.contains g) g t) (due.foldl (fun t e => moveSnap e t) s2)

/-! Settling and time-outs. -/

/-- GROUP_SETTLED (R115): the group goes to READY at the next cadence start (R66, R72). -/
def groupSettled (g : Nat) (s : State) : State :=
  let x := grpOf s g
  let ok := (members s g).all (fun a => let y := axisOf s a; y.inWin && nsOfSec y.cfg.settleTime ≤ y.settledNs)
  if x.state ≠ .moving || !arrived x || !ok then s else modGrp g (fun y => { y with settled := true }) s

/-- GROUP_ENABLE_TIMEOUT (R72): the members not CLOSED within T_en plus 10 ms take FAULT. -/
def groupEnableTimeout (g : Nat) (s : State) : State :=
  let x := grpOf s g
  let late := (members s g).filter (fun a => (axisOf s a).state ≠ .closed)
  match x.state, (late.map (fun a => (axisOf s a).cfg.tEn)) with
  | .enabling, t :: r =>
    let m := r.foldl min t
    let s1 := advanceTo (x.enableAt + 1000000 * (m + 10)) s
    forNat (late.filter (fun a => (axisOf s a).cfg.tEn = m)) (fun a u => reqFault a 0x04 u) s1
  | _, _ => s

/-! grp.configure. -/

/-- Offset of the model in a grp.configure payload. -/
def modelOf (p : List Byte) : List Byte := p.drop 16

/-- Whether every FP32 field of a model is a number (reserved bytes and codes apart). -/
def modelNumbers (m : List Byte) : Bool :=
  let f (o : Nat) : Bool := f32Ok (u32 m o)
  (List.range 3).all (fun i => (f64? (u64 m (8 + 8 * i))).isSome) && (List.range 3).all (fun i => f (48 + 4 * i) && f (76 + 4 * i))
    && f 88 && (List.range 40).all (fun i => f (96 + 4 * i))
    && (List.range (mJoints m)).all (fun j => (List.range 3).all (fun i => f (jOff j + 4 + 4 * i)) && (List.range 14).all (fun i => f (jOff j + 40 + 4 * i)))

/-- Illegal codes and combinations of a model: BAD_ARG. -/
def modelBadArg (m : List Byte) : Bool :=
  let js := List.range (mJoints m)
  mType m = 0 || 6 < mType m || 3 < mIkMode m || (mType m = 6 && mIkMode m ≠ 0) || !zeroAt m 92 4 || !quatOk m 32 || !quatOk m 60
    || js.any (fun i => 1 < u8 m (jOff i) || 4 ≤ u8 m (jOff i + 2) || (!jDual m i && jSlave m i ≠ 0xFF) || !quatOk m (jOff i + 16))
    || (modelAxes m).eraseDups.length ≠ (modelAxes m).length

/-- Geometry and inverse kinematics that a type does not allow: BAD_ARG (R69, R80). -/
def modelGeometry (m : List Byte) : Bool :=
  modelNumbers m && 1 ≤ mJoints m && mJoints m ≤ 8 && !modelBadArg m && (!geometryOk m || (mIkMode m = 2 && !analyticOk m))

/-- Numbers of a model outside their ranges (R79, R80). -/
def modelRange (s : State) (m : List Byte) : Bool :=
  let js := List.range (mJoints m)
  !modelNumbers m || mJoints m = 0 || 8 < mJoints m || f32 (u32 m 88) < 0
    || js.any (fun i => 127 < jAxis m i || (jDual m i && 127 < jSlave m i) || !f32In (u32 m (jOff i + 88)) (tenth 6) one)
    || (runsNumeric m && (mIkIter m = 0 || 32 < mIkIter m || !f32In (u32 m 4) (tenth 6) (tenth 1)))
    || (mType m ≠ 6 && 4 * one < reachWith s m 128 {})

/-- The KDE and interpolator shares of a group (R82, table "STATIC entries"). -/
def grpShares (g : Nat) (m : List Byte) : List Share :=
  [{ type := kdeType m, cls := 2, wcet := kdeCycles m, object := g },
   { type := 0x20, cls := 2, wcet := 900 + 120 * mJoints m, object := g }]

/-- The ledger with the shares of group `g` replaced. -/
def grpLedger (s : State) (g : Nat) (m : List Byte) : Option (List Share) :=
  placeAll s 0 (s.sch.shares.filter (fun e => !(e.cls = 2 && e.object = g))) (grpShares g m)

/-- The group other than `g` to which an axis belongs, or will belong by an admitted grp.configure. -/
def ownedBy (s : State) (g a : Nat) : Option Nat :=
  (List.range 16).find? (fun h => h ≠ g && ((members s h).contains a
    || s.eff.any (fun e => e.opcode = 0x0701 && e.object = h && (modelAxes (modelOf e.p)).contains a)))

/-- grp.configure (R69, R70, R79, R80, R82, R226). -/
def grpConfigureSpec : CmdSpec where
  opcode := 0x0701
  lenOk n p := n = 272 + 96 * u8 p 17
  indP := true
  objOk := objBelow 16
  stateOf := grpStateOf
  kind _ _ _ := .cadence
  body c s :=
    let p := c.p
    let g := c.h.object
    let m := modelOf p
    let few := mJoints m ≤ 8
    let axes := if few then (modelAxes m).filter (· < 128) else []
    let busy (a : Nat) : Bool := (axisOf s a).state ≠ .disabled || (axisOf s a).enable.isSome
    let taken := axes.filterMap (ownedBy s g)
    let led := if few then grpLedger s g m else none
    let ramp := f32 (u32 p 4)
    { bad := [(1 < u8 p 0 || u8 p 3 ≠ 0 || !zeroAt p 8 8 || (few && modelBadArg m), .badArg), (modelGeometry m, .badArg),
              (2 < u8 p 1 || 3 < u8 p 2 || !f32In (u32 p 4) (one / 100) (2 * one) || modelRange s m, .outOfRange),
              (!timingKept s (sensCfgs s) (some (g, ramp)), .outOfRange),
              ((grpOf s g).state ≠ .idle || (members s g ++ axes).any busy || taken ≠ [], .stateConflict),
              (led.isNone, .notSchedulable)]
      refusedState := fun st => if st = .stateConflict then (match taken with
        | h :: _ => if (grpOf s g).state ≠ .idle then none else some h
        | [] => none) else none
      act := fun t => later c (setShares (led.getD t.sch.shares) t) }

/-- The effect of grp.configure. -/
def grpConfigureEff (e : Eff) (s : State) : State :=
  let p := e.p
  let g := e.object
  let x := grpOf s g
  let m := modelOf p
  if x.state ≠ .idle then s
  else
    let keep := u8 p 0 = 1 && mJoints m = jointsOf x
    let s1 := if keep then s else modQp g (fun q => { q with assigned := false, scen := [], posed := false, chosen := false }) s
    modGrp g (fun y => { y with
      configured := true, mpc := u8 p 0 = 1, faultStop := u8 p 1, payloadSel := u8 p 2, tRamp := f32 (u32 p 4), model := m
      base := List.replicate (mJoints m) 0, kin := knotRest (List.replicate (mJoints m) 0), moves := [], plan := none, nextPlan := none
      mpcTargets := [], lastTarget := [], snapQ := [], mMat := [], hVec := [], tcp := [], tcpQ := [] }) s1

/-! grp.enable and the commands without payload. -/

/-- Whether a member stops grp.enable with NOT_CONFIGURED (R66, R187). -/
def memberMissing (s : State) (a : Nat) : Bool :=
  let x := axisOf s a
  !x.cfg.configured || x.map.segment = 0xFF || (segOf s x.map.segment).state ≠ 3 || loopMissing x.loop

/-- The ledger that grp.enable needs, with the scenarios that stay removed (R24, R159, R162). -/
def enableLedger (s : State) (g : Nat) : Option (List Share × List Nat) :=
  match placeAll s 0 s.sch.shares ((members s g).map (loopShare s)) with
  | none => none
  | some l => if (grpOf s g).mpc then enableShares s g l else some (l, [])

/-- grp.enable (R66, R72, R159, R360). -/
def grpEnableSpec : CmdSpec where
  opcode := 0x0702
  objOk := objBelow 16
  stateOf := grpStateOf
  kind _ _ _ := .cadence
  body c s :=
    let g := c.h.object
    let x := grpOf s g
    let ms := members s g
    let led := enableLedger s g
    { bad := [(!x.configured || ms.any (memberMissing s) || (x.mpc && !(qpOf s g).assigned), .notConfigured),
              (x.state ≠ .idle || s.dev.thermCrit || s.eff.any (fun e => e.opcode = 0x0702 && e.object = g)
                || ms.any (fun a => (axisOf s a).state ≠ .disabled && (axisOf s a).state ≠ .held), .stateConflict),
              (led.isNone, .notSchedulable)]
      act := fun t =>
        let (l, r) := led.getD ([], [])
        let t1 := modQp g (fun q => { q with scen := (q.scen.zip (List.range 4)).map (fun e => { e.1 with removed := r.contains e.2 }) }) t
        later c (setShares l (if x.mpc then t1 else t)) }

/-- The effect of grp.enable (R72). -/
def grpEnableEff (e : Eff) (s : State) : State :=
  let g := e.object
  let x := grpOf s g
  if x.state ≠ .idle then freeOpen g s
  else
    let s1 := forNat (members s g) (fun a t =>
      let y := axisOf t a
      if y.state = .held then toClosed a t else if y.state = .disabled && y.enable.isNone then beginEnable a t else t) s
    grpTo g .enabling (modGrp g (fun y => { y with enableAt := s.cad.start }) s1)

/-- A group command of one opcode that needs one of some states and has no payload. -/
def grpSimple (op : Nat) (missing : State → Nat → Bool) (ok : State → Nat → Bool) : CmdSpec where
  opcode := op
  objOk := objBelow 16
  conf := grpConf
  stateOf := grpStateOf
  kind _ _ _ := .cadence
  body c s :=
    { bad := [(missing s c.h.object, .notConfigured), (!ok s c.h.object, .stateConflict)]
      act := later c }

/-- grp.disable. -/
def grpDisableSpec : CmdSpec :=
  grpSimple 0x0703 (fun _ _ => false) (fun s g => (grpOf s g).state = .ready || (grpOf s g).state = .hold)

/-- The effect of grp.disable. -/
def grpDisableEff (e : Eff) (s : State) : State :=
  let g := e.object
  let x := grpOf s g
  if x.state = .ready || x.state = .hold then toIdle g (forNat (members s g) (fun a t => toDisabled a false t) s) else s

/-- grp.hold. -/
def grpHoldSpec : CmdSpec := grpSimple 0x0705 (fun _ _ => false) (fun s g => (grpOf s g).state = .moving)

/-- The effect of grp.hold (R113). -/
def grpHoldEff (e : Eff) (s : State) : State :=
  if (grpOf s e.object).state = .moving then pathStop e.object .hold s else s

/-- grp.resume. -/
def grpResumeSpec : CmdSpec := grpSimple 0x0706 (fun _ _ => false) (fun s g => (grpOf s g).state = .hold)

/-- The effect of grp.resume (R114). -/
def grpResumeEff (e : Eff) (s : State) : State :=
  if (grpOf s e.object).state = .hold then grpTo e.object .moving (modGrp e.object (fun x => { x with holdGoal := false }) s)
  else preempted e.object e.tag e.due s

/-- The input channels that homing of a member uses. -/
def homeChannels (x : AxisSt) : List Nat :=
  (if x.cfg.homeMode = 1 then [x.cfg.homeCh] else [])
    ++ (if x.cfg.homeMode = 2 then [if x.cfg.homeDir = 0 then x.cfg.limP else x.cfg.limN] else [])
    ++ (if x.cfg.homeMode = 1 then [x.cfg.limP, x.cfg.limN].filter (· ≠ 0xFF) else [])

/-- grp.home (R124). -/
def grpHomeSpec : CmdSpec :=
  grpSimple 0x0707 (fun s g => (homeMembers s g).any (fun a => (homeChannels (axisOf s a)).any (fun c => 32 ≤ c || (chanOf s c).role ≠ 1)))
    (fun s g => (grpOf s g).state = .ready)

/-- The effect of grp.home. -/
def grpHomeEff (e : Eff) (s : State) : State :=
  if (grpOf s e.object).state = .ready then beginHome e.object s else preempted e.object e.tag e.due s

/-- Whether grp.clear is accepted (R74). -/
def mayClear (s : State) (g : Nat) : Bool :=
  (grpOf s g).state = .fault && !(grpOf s g).poisoned && (members s g).all (fun a => (axisOf s a).state ≠ .fault && (axisOf s a).state ≠ .stopping)

/-- grp.clear. -/
def grpClearSpec : CmdSpec := grpSimple 0x0708 (fun _ _ => false) mayClear

/-- The effect of grp.clear (R74). -/
def grpClearEff (e : Eff) (s : State) : State :=
  let g := e.object
  if !mayClear s g then s
  else
    let s1 := modGrp g (fun x => { x with stopCat := none, fault := false, interpMisses := 0 }) s
    if (members s g).all (fun a => (axisOf s a).state = .closed) then grpTo g .ready (resetMotion g s1)
    else toIdle g (forNat (members s g) (fun a t => if (axisOf t a).state = .closed then toHeld a t else t) s1)

/-- grp.set_payload (R83). -/
def grpSetPayloadSpec : CmdSpec where
  opcode := 0x0709
  lenOk n _ := n = 4
  objOk := objBelow 16
  conf := grpConf
  stateOf := grpStateOf
  kind _ _ _ := .mpc
  body c s :=
    let st := (grpOf s c.h.object).state
    { bad := [(!zeroAt c.p 1 3, .badArg), (3 < u8 c.p 0, .outOfRange),
              (st ≠ .ready && st ≠ .moving && st ≠ .homing && st ≠ .hold, .stateConflict)]
      act := later c }

/-- The effect of grp.set_payload at its boundary. -/
def setPayloadEff (e : Eff) (s : State) : State :=
  grpEvent e.object 8 (modGrp e.object (fun x => { x with payloadSel := u8 e.p 0, payloadAt := s.cad.start }) s)

/-- grp.stop (R76). -/
def grpStopSpec : CmdSpec where
  opcode := 0x070A
  lenOk n _ := n = 4
  objOk := objBelow 16
  conf := grpConf
  stateOf := grpStateOf
  kind _ _ _ := .cadence
  body c s :=
    let st := (grpOf s c.h.object).state
    { bad := [(!zeroAt c.p 1 3, .badArg), (2 < u8 c.p 0, .outOfRange),
              (st ≠ .ready && st ≠ .moving && st ≠ .homing && st ≠ .hold && st ≠ .stopping, .stateConflict)]
      act := later c }

/-! grp.move. -/

/-- Waiting moves of a group and its targets that an APPEND would follow: the number beyond the running one. -/
def queued (s : State) (g promise : Nat) : Nat :=
  let x := grpOf s g
  let es := s.eff.filter (fun e => e.opcode = 0x0704 && e.object = g)
  let after := (es.reverse.takeWhile (fun e => u8 e.p 1 = 1)).length
  let cut := es.any (fun e => u8 e.p 1 = 0)
  if x.mpc then if cut then 1 + after else x.mpcTargets.length + after
  else (grpPredict s g promise).moves.length + x.mpcTargets.length + (es.filter (fun e => u8 e.p 0 ≠ 0)).length

/-- Whether a member bars motion because it is not homed (R97). -/
def unhomed (s : State) (g : Nat) : Bool := (members s g).any (fun a => !travelBinds (axisOf s a))

/-- grp.move (R97, R104 to R108, R132, R153). -/
def grpMoveSpec : CmdSpec where
  opcode := 0x0704
  lenOk n _ := n = 80
  objOk := objBelow 16
  conf := grpConf
  stateOf := grpStateOf
  kind h p s := if (grpOf s h.object).mpc || u8 p 0 ≠ 0 then .mpc else .cadence
  resMax _ := 16
  body c s :=
    let p := c.p
    let g := c.h.object
    let x := grpOf s g
    let n := jointsOf x
    let kind := u8 p 0
    let append := u8 p 1 = 1
    let blend := u32 p 8 ≠ 0 && u32 p 8 ≠ 0x80000000
    let tgt := jointTarget p n
    let far := (List.range n).any (fun i => ((jAxes x.model i).all (fun a => travelBinds (axisOf s a))
        && !inTravel (2 ^ 48) (jointLim s g i) (lget 0 tgt i))
      || (jAxes x.model i).any (fun a => towardsLimit s (axisOf s a) (lget 0 tgt i)))
    let y := grpPredict s g c.promise
    let t := pathAt s g c.promise
    let q := queued s g c.promise
    let running := append && q ≠ 0
    let used := if x.mpc || !running || !blend then 0
      else if kind ≠ 0 then blendCut s g c.promise y p else blendUsed s g c.promise y p tgt
    let z := moveApply (grpLims s g) p tgt used t c.h.tag c.promise y
    let fin := ((predictStarts t (secOfNs s.cad.ns) none z.moves).getLast?.map (·.2)).getD t
    let arr := if x.mpc || kind ≠ 0 then 0 else c.promise + grpApply s g + (nsOfSec (fin - t)).toNat
    { bad := [(2 < kind || 1 < u8 p 1 || (u8 p 2 ≠ 0xFF && 1 < u8 p 2) || u8 p 3 ≠ 0 || !zeroAt p 12 4
                || (kind = 0 && !zeroAt p (16 + 8 * n) (64 - 8 * n)) || (kind ≠ 0 && (!zeroAt p 56 24 || !quatOk p 40))
                || (kind = 2 && !x.mpc) || (kind ≠ 0 && mIkMode x.model = 0) || (blend && (!append || x.mpc)), .badArg),
              (!f32Pos (u32 p 4) || one < f32 (u32 p 4) || !f32In (u32 p 8) 0 one || (kind = 0 && far)
                || (kind ≠ 0 && (List.range 3).any (fun i => (f64? (u64 p (16 + 8 * i))).isNone)), .outOfRange),
              (!mayMove x append || (x.mpc && !x.solved) || unhomed s g || s.dev.thermCrit, .stateConflict),
              (append && 9 ≤ q, .noMemory)]
      act := fun u =>
        { s := { u with eff := u.eff ++ [{ effOf c u with p := p ++ leBytes 8 (bitsOf 64 (used / 2 ^ 40)) }] }
          res := fields [(8, arr), (4, toF32 used), (1, if append then q else 0), (3, 0)]
          adjusted := decide (used ≠ (if blend && running then f32 (u32 p 8) else 0)) } }

/-! axis.set_limits, which also judges members of moving groups. -/

/-- The axis as it will be at cadence start `t` (R103), with a member that its group moves by the group's motion at λ = 1. -/
def memberPredict (s : State) (a t : Nat) : AxisSt :=
  let y := axisPredict s a t
  match groupOf s a with
  | none => y
  | some g =>
    let x := grpOf s g
    if !interpolates x then y
    else match (List.range (jointsOf x)).find? (fun i => (jAxes x.model i).contains a) with
      | none => y
      | some i =>
        if x.mpc then
          let k := match x.plan with
            | some q => lget y.kin (planAt q (pathAt s g t)).list i
            | none => y.kin
          { y with cmdP := k.x, cmdV := k.v, cmdA := k.a
                   target := (x.mpcTargets.getLast?.map (fun w => lget y.target w.joints i)).getD y.target }
        else
          let z := grpPredict s g t
          let k := lget ⟨0, 0, 0⟩ z.kin.list i
          { y with cmdP := k.x, cmdV := k.v, cmdA := k.a, target := lget k.x (finalTarget z) i }

/-- axis.set_limits (R66, R79, R102, R103). -/
def axisSetLimitsSpec : CmdSpec where
  opcode := 0x0808
  lenOk n _ := n = 48
  objOk := objBelow 128
  conf := axisConf
  stateOf := axisStateOf
  kind _ _ _ := .cadence
  body c s :=
    let p := c.p
    let a := c.h.object
    let y := memberPredict s a c.promise
    let old := y.deferred.getD y.lim
    let l := newLimits p old
    let rest := restPoint y.kin (pairLim s a y.lim)
    let misses := bitOf (u32 p 0) 4 && !(inTravel (2 ^ 48) l y.cmdP && inTravel (2 ^ 48) l y.target && inTravel (2 ^ 48) l rest)
    let defer := travelBinds y && !inTravel (2 ^ 48) l (restPoint y.kin (pairLim s a l))
    { bad := [(limBadArg p old, .badArg),
              (limRange p (10000 * one) || misses || reachBroken s a l, .outOfRange),
              ((axisOf s a).enable.isSome, .stateConflict)]
      act := fun t =>
        let t1 := post c t
        { s := if defer && c.h.noEvent then raise c.mb t1 else t1
          res := fields [(1, b2n defer), (7, 0)], adjusted := defer } }

/-- grp.status (table "grp.status result"). -/
def grpStatusSpec : CmdSpec where
  opcode := 0x070B
  objOk := objBelow 16
  stateOf := grpStateOf
  indR := true
  inFault _ := true
  body c s :=
    let g := c.h.object
    let x := grpOf s g
    let base := if s.cad.phase = 0 then s.cad.start else s.cad.start + s.cad.ns
    let arr := if x.mpc || x.moves = [] then 0
      else
        let fin := ((predictStarts x.pathTime (secOfNs s.cad.ns) none x.moves).getLast?.map (·.2)).getD x.pathTime
        base + grpApply s g + (nsOfSec (fin - x.pathTime)).toNat
    let homed := bitsN ((List.range (jointsOf x)).map (fun i =>
      let a := axisOf s (jAxis x.model i)
      a.homed || a.cfg.homeMode = 0))
    { act := fun t => { s := t, res := fields [(1, x.state.code), (1, x.lastEvent), (1, b2n x.mpc), (1, x.payloadSel),
        (1, (if x.mpc then x.mpcTargets.length else x.moves.length) - 1), (1, x.strm.getD 0xFF), (1, x.homeReason), (1, x.homeAxis),
        (1, homed), (3, 0), (4, toF32 x.lambda), (8, toF64 x.pathTime), (8, arr)] } }

/-! Rows. -/

/-- AXIS_SET_LIMITS (R102). -/
def execAxisSetLimits (c : CmdRef) (s : State) : Host.Outcome State Fault Refusal := .next (runCmd axisSetLimitsSpec c s)

/-- GRP_CONFIGURE (R70). -/
def execGrpConfigure (c : CmdRef) (s : State) : Host.Outcome State Fault Refusal := .next (runCmd grpConfigureSpec c s)
/-- GRP_ENABLE (R72). -/
def execGrpEnable (c : CmdRef) (s : State) : Host.Outcome State Fault Refusal := .next (runCmd grpEnableSpec c s)
/-- GRP_DISABLE (R72). -/
def execGrpDisable (c : CmdRef) (s : State) : Host.Outcome State Fault Refusal := .next (runCmd grpDisableSpec c s)
/-- GRP_MOVE (R106). -/
def execGrpMove (c : CmdRef) (s : State) : Host.Outcome State Fault Refusal := .next (runCmd grpMoveSpec c s)
/-- GRP_HOLD (R113). -/
def execGrpHold (c : CmdRef) (s : State) : Host.Outcome State Fault Refusal := .next (runCmd grpHoldSpec c s)
/-- GRP_RESUME (R114). -/
def execGrpResume (c : CmdRef) (s : State) : Host.Outcome State Fault Refusal := .next (runCmd grpResumeSpec c s)
/-- GRP_HOME (R124). -/
def execGrpHome (c : CmdRef) (s : State) : Host.Outcome State Fault Refusal := .next (runCmd grpHomeSpec c s)
/-- GRP_CLEAR (R74). -/
def execGrpClear (c : CmdRef) (s : State) : Host.Outcome State Fault Refusal := .next (runCmd grpClearSpec c s)
/-- GRP_SET_PAYLOAD (R83). -/
def execGrpSetPayload (c : CmdRef) (s : State) : Host.Outcome State Fault Refusal := .next (runCmd grpSetPayloadSpec c s)
/-- GRP_STOP (R76). -/
def execGrpStop (c : CmdRef) (s : State) : Host.Outcome State Fault Refusal := .next (runCmd grpStopSpec c s)
/-- GRP_STATUS (R71). -/
def execGrpStatus (c : CmdRef) (s : State) : Host.Outcome State Fault Refusal := .next (runCmd grpStatusSpec c s)
/-- GROUP_SETTLED (R115). -/
def execGroupSettled (g : Fin 16) (s : State) : Host.Outcome State Fault Refusal := .next (groupSettled g.val s)
/-- GROUP_ENABLE_TIMEOUT (R72). -/
def execGroupEnableTimeout (g : Fin 16) (s : State) : Host.Outcome State Fault Refusal := .next (groupEnableTimeout g.val s)

end Sys2Proof.Machine
end

