-- ==== Sys2Proof/Machine/Trace.lean ====
section
/-!
DEFINITION. Tracing, injection and frequency response (R168, R188 to R203).
-/
namespace Sys2Proof.Machine

/-- Session `k`. -/
def sesOf (s : State) (k : Nat) : Session := tget {} s.trc.ses k
/-- Replace session `k`. -/
def setSes (k : Nat) (x : Session) (s : State) : State := { s with trc := { s.trc with ses := tset {} s.trc.ses k x } }
/-- The injection of axis `a`, pending or running. -/
def injOf (s : State) (a : Nat) : Option Inject := tget none s.trc.inj a
/-- Replace it. -/
def setInj (a : Nat) (x : Option Inject) (s : State) : State := { s with trc := { s.trc with inj := tset none s.trc.inj a x } }

/-- Session state codes (table "Session states"). -/
def TrcState.code : TrcState → Nat
  | .unconfigured => 0 | .stopped => 1 | .armed => 2 | .triggered => 3 | .rolling => 4

/-- Whether a session has its configuration (R6). -/
def traceConf (o : Nat) (s : State) : Bool := (sesOf s o).state ≠ .unconfigured

/-- STATE of the session commands. -/
def sesState (o : Nat) (s : State) : Nat := (sesOf s o).state.code

/-! Fields of a trace.configure payload. -/

/-- MODE is ROLL. -/
def tRoll (c : List Byte) : Bool := u8 c 0 = 1
/-- C. -/
def tChans (c : List Byte) : Nat := u8 c 1
/-- TRIG_SRC. -/
def tSrc (c : List Byte) : Nat := u8 c 3
/-- D. -/
def tDec (c : List Byte) : Nat := u32 c 4
/-- TRIG_CH. -/
def tTrigCh (c : List Byte) : Nat := u8 c 8
/-- AXIS and TAP of channel `k`. -/
def tChan (c : List Byte) (k : Nat) : Nat × Nat := (u8 c (16 + 2 * k), u8 c (17 + 2 * k))

/-! Taps (R188). -/

/-- Whether the axis runs a loop task in a cadence. -/
def loopRuns (x : AxisSt) : Bool := x.state = .closed || x.state = .stopping

/-- The low 32 bits of an integer as an int32. -/
def low32 (x : Int) : Int := signedOf 32 (bitsOf 32 x)

/-- The value of a tap of an axis at the compute end (table "Tap points"). -/
def tapValue (s : State) (a tap : Nat) : Int :=
  let x := axisOf s a
  let l := x.loop
  let on := loopRuns x
  let sig : List Int := [l.ep, l.up, l.vff, l.vref, l.vact, l.ev, l.uv, l.uf, l.tff, l.tc, l.tout]
  let inj : Option Int := match injOf s a with
    | some i => if i.running then some i.value else none
    | none => none
  if tap ≤ 10 then (if on then lget 0 sig tap else 0)
  else if tap = 11 then x.map.last.torque
  else if tap = 12 then low32 (rnd (toQ x.cmdP) l.es)
  else if tap = 13 then low32 (rnd x.actP l.es)
  else if tap = 14 then (if on then inj.getD 0 else 0)
  else ((x.map.last.status % 65536 + flagAt (on && l.stale) 16 + flagAt (on && l.clampActive) 17 + flagAt (on && l.slewActive) 18 + flagAt inj.isSome 19
    + flagAt (!on) 20 : Nat) : Int)

/-! Capture (R189, R193 to R195). -/

/-- One channel of a sample from the raw values of its window (R189). -/
def decimate (mean : Bool) (tap : Nat) (l : List Int) : Int :=
  if !mean || tap = 12 || tap = 13 then l.getLast?.getD 0
  else if tap = 15 then ((l.foldl (fun (m : Nat) v => m ||| v.toNat) 0 : Nat) : Int)
  else rdiv (l.foldl (· + ·) 0) l.length

/-- The sample of a window. -/
def sampleOf (c : List Byte) (w : List (List Int)) : List Int :=
  (List.range (tChans c)).map (fun k => decimate (u8 c 2 = 1) (tChan c k).2 (w.map (fun r => lget 0 r k)))

/-- Whether the trigger instant of a session lies in this cadence, by its source (table "Trigger sources"). -/
def trigSource (occ : BitVec 128) (s : State) (x : Session) (raw : List Int) : Bool :=
  let c := x.cfg
  let ch := tTrigCh c
  let thr := i32 c 12
  let prev := x.raw.map (fun r => lget 0 r ch)
  match tSrc c with
  | 1 => true
  | 3 => match prev with
    | some v => thr < lget 0 raw ch && !(thr < v)
    | none => false
  | 4 => match prev with
    | some v => lget 0 raw ch < thr && !(v < thr)
    | none => false
  | 5 => occ.getLsbD ch
  | 6 => match injOf s ch with
    | some i => i.running && s.cad.start < i.start + s.cad.ns
    | none => false
  | _ => false

/-- A row is written (R193, R195). -/
def writeRow (k : Nat) (x : Session) (row : List Int) (s : State) : State :=
  let t := s.cad.start
  let len := max 1 x.length
  let past := x.state = .rolling && x.after = x.length
  let y := { x with
    rows := tset none x.rows x.wr (some (t, row)), wr := modNext 0 len 1 x.wr, valid := min x.length (x.valid + 1), acc := []
    poison := if x.poison = x.wr then 0xFFFFFFFF else x.poison, poisoned := x.poisoned.filter (·.1 ≠ x.wr) }
  match x.state with
  | .rolling =>
    raiseIf past 75 (setSes k { y with
      rd := if past then modNext 0 len 1 x.rd else x.rd, lost := if past then x.lost + 1 else x.lost, after := min x.length (x.after + 1) } s)
  | .armed =>
    if x.trigNow then
      raise 73 (setSes k { y with state := .triggered, trigTime := t, validPre := min x.pre x.valid, after := 1 } s)
    else setSes k y s
  | _ => setSes k { y with after := x.after + 1 } s

/-- One session at the compute end, with the events that occurred since the last one. -/
def sessionCadence (occ : BitVec 128) (k : Nat) (s : State) : State :=
  let x := sesOf s k
  let full := x.state = .triggered && x.length - x.pre ≤ x.after
  if (x.state ≠ .armed && x.state ≠ .triggered && x.state ≠ .rolling) || full then s
  else
    let raw := (List.range (tChans x.cfg)).map (fun i => tapValue s (tChan x.cfg i).1 (tChan x.cfg i).2)
    let y := { x with raw := some raw, acc := x.acc ++ [raw], trigNow := x.trigNow || (x.state = .armed && trigSource occ s x raw) }
    if y.acc.length < tDec x.cfg then setSes k y s else writeRow k y (sampleOf x.cfg y.acc) s

/-- Every session at the compute end; the events counted begin anew with those that the sessions raise. -/
def traceCadence (s : State) : State :=
  forNat (List.range 8) (sessionCadence s.trc.occurred) { s with trc := { s.trc with occurred := 0 } }

/-- The compare units that hold a trigger of session `k` free: no later condition counts (R193). -/
def freeTriggers (k : Nat) (s : State) : State := freeUnits (fun a => a.kind = .traceTrigger k || a.kind = .traceArm k) s

/-- TRC_FULL (R193). -/
def trcFull (k : Nat) (s : State) : State :=
  let x := sesOf s k
  if x.state = .triggered && x.length - x.pre ≤ x.after then
    raise 74 (freeTriggers k (setSes k { x with state := .stopped, reason := 1, acc := [], raw := none } s))
  else s

/-- An uncorrectable error in the word of channel `c` of a row of a session (R197). -/
def traceFault (k row c : Nat) (s : State) : State :=
  let x := sesOf s k
  let stops := x.state = .armed || x.state = .triggered || x.state = .rolling
  let s1 := setSes k { x with
    state := if stops then .stopped else x.state, reason := if stops then 3 else x.reason, poison := row, poisoned := (row, c) :: x.poisoned } s
  if stops then freeTriggers k s1 else s1

/-- The trigger of an armed session (trace.trigger, or a TIME trigger). An instant after the compute end lies in the window of the
sample that this compute end formed, where one ended there: that sample is then the trigger sample (R193, R194). -/
def trigger (k : Nat) (s : State) : State :=
  let x := sesOf s k
  let last := (x.wr + max 1 x.length - 1) % max 1 x.length
  let formed := s.cad.phase = 3 && 0 < x.valid && x.acc = [] && (tget none x.rows last).any (fun r => r.1 = s.cad.start)
  if x.state ≠ .armed then s
  else if formed && !x.trigNow then
    raise 73 (setSes k { x with state := .triggered, trigTime := s.cad.start, validPre := min x.pre (x.valid - 1), after := 1 } s)
  else setSes k { x with trigNow := true } s

/-- A TIME trigger was dropped (R193). -/
def triggerDropped (k : Nat) (s : State) : State :=
  let x := sesOf s k
  if x.state = .armed then setSes k { x with state := .stopped, reason := 4, acc := [], raw := none } s else s

/-! Injection (R198 to R201). -/

/-- Feedback taps of a PRBS order (table "PRBS taps"). -/
def prbsTaps (order : Nat) : List Nat :=
  lget [] [[7, 6], [8, 6, 5, 4], [9, 5], [10, 7], [11, 9], [12, 11, 10, 4], [13, 12, 11, 8], [14, 13, 12, 2], [15, 14], [16, 15, 13, 4],
    [17, 14], [18, 11], [19, 18, 17, 14], [20, 17], [21, 19], [22, 21], [23, 18]] (order - 7)

/-- round_half_even(x·(2³¹ − 1)). -/
def q31 (x : Fx) : Int := divEven (x * (2 ^ 31 - 1)) (2 ^ 80)

/-- The generator's sine of a phase. -/
def phaseSine (phi : Nat) : Int := q31 (fsin (twoPi * (phi / 65536 : Nat) / 65536))

/-- The raw value of a cadence and the generator after it (R199). -/
def genRaw (i : Inject) : Int × Inject :=
  let p := i.p
  let amp := i32 p 4
  let sine := sat32 (rnd (amp * phaseSine i.phi) 31)
  match u8 p 0 with
  | 0 => (sine, { i with phi := (i.phi + u32 p 16) % 2 ^ 32 })
  | 1 =>
    let held := i.held + 1
    let last := held = u32 p 28
    (sine, { i with
      phi := (i.phi + i.inc) % 2 ^ 32, held := if last then 0 else held
      inc := if last then bitsOf 32 (sat32 (rnd ((i.inc : Int) * i32 p 24) 30)) else i.inc })
  | 2 =>
    let k := if u32 p 8 ≤ 1 then 0 else rdiv (((u32 p 20 : Int) - u32 p 16) * 65536) ((u32 p 8 : Int) - 1)
    (sine, { i with phi := (i.phi + bitsOf 32 (i.c / 65536)) % 2 ^ 32, c := i.c + k })
  | _ =>
    let order := u8 p 2
    let b := (prbsTaps order).foldl (fun b t => (b + i.sr / 2 ^ (t - 1)) % 2) 0
    let sr := if i.held = 0 then (2 * i.sr + b) % 2 ^ order else i.sr
    let bit := sr % 2
    (if bit = 1 then -amp else amp, { i with sr := sr, held := if i.held + 1 = u8 p 3 then 0 else i.held + 1 })

/-- The value of a cadence (R199). -/
def genValue (i : Inject) (w : Int) : Int :=
  let fade := u32 i.p 12
  if fade = 0 then w else rdiv (w * ((min (i.n + 1) (min (u32 i.p 8 - i.n) fade) : Nat) : Int)) fade

/-- The generator of axis `a` forms the value of this cadence, before the sample. -/
def injValue (a : Nat) (s : State) : State :=
  match injOf s a with
  | none => s
  | some i =>
    if !i.running then s
    else if u32 i.p 8 ≤ i.n then setInj a (some { i with value := 0 }) s
    else setInj a (some { i with value := genValue i (genRaw i).1 }) s

/-- The generator of axis `a` goes on to the next cadence. -/
def injAdvance (a : Nat) (s : State) : State :=
  match injOf s a with
  | some i => if i.running && i.n < u32 i.p 8 then setInj a (some { (genRaw i).2 with n := i.n + 1 }) s else s
  | none => s

/-- The loop share of axis `a` with its injection charged or released (R186, R200). -/
def chargeInj (a : Nat) (on : Bool) (s : State) : State :=
  setShares (s.sch.shares.map (fun e => if e.type = 1 && e.object = a then
    { e with wcet := if on then e.wcet + 100 else e.wcet - 100 } else e)) s

/-- An injection ends with a reason; a waiting trace.inject_stop completes (R201). -/
def injEnd (a reason : Nat) (s : State) : State :=
  match injOf s a with
  | none => s
  | some i =>
    let s1 := raise 67 (chargeInj a false (setInj a none s))
    match i.stop with
    | some (m, k) => complete m k .ok s.cad.start (axisStateOf a s1) (fields [(1, reason), (3, 0), (8, s.cad.start)]) s1
    | none => s1

/-- A stop request takes effect on an axis: its injection ends before the stop's first sample (R201). -/
def stopInj (a : Nat) (s : State) : State := injEnd a 1 s

/-- Whether a stop is in progress on an axis or its group. -/
def stopsInj (s : State) (a : Nat) : Bool :=
  (axisOf s a).state = .stopping || (match groupOf s a with
    | some g => let x := grpOf s g; (x.state = .stopping || x.state = .fault) && x.stopCat.getD 3 < 3
    | none => false)

/-- Injections at a cadence start: aborts, and those that begin (R200, R201). -/
def injCadence (s : State) : State :=
  forNat (tkeys s.trc.inj) (fun a t =>
    match injOf t a with
    | none => t
    | some i =>
      if stopsInj t a then injEnd a 1 t
      else if (axisOf t a).state ≠ .closed then injEnd a 2 t
      else if !i.running && i.start ≤ t.cad.start then setInj a (some { i with running := true }) t
      else t) s

/-- INJECTION_COMPLETE (R201). -/
def injComplete (a : Nat) (s : State) : State :=
  match injOf s a with
  | some i => if i.running && u32 i.p 8 ≤ i.n then injEnd a 0 s else s
  | none => s

/-! The fixed-point FFT (R168). -/

/-- A complex int32 pair. -/
abbrev Cpx := Int × Int

/-- The twiddle factor e^(−2πik/N). -/
def twiddle (n k : Nat) : Cpx :=
  let t := twoPi * (k : Int) / (n : Int)
  let w (x : Fx) : Int := sat32 (divEven (x * 2 ^ 31) (2 ^ 80))
  (w (fcos t), w (-(fsin t)))

/-- A list in pieces of `n`. -/
def pieces {α : Type} (n : Nat) : Nat → List α → List (List α)
  | 0, _ => []
  | k + 1, l => if l.isEmpty then [] else l.take n :: pieces n k (l.drop n)

/-- One stage of butterflies over halves of `h` points with shift `sh`. -/
def fftStage (n h sh : Nat) (l : List Cpx) : List Cpx :=
  (pieces (2 * h) n l).flatMap (fun c =>
    let prs := ((c.take h).zip (c.drop h)).zip (List.range h)
    let out := prs.map (fun e =>
      let a := e.1.1
      let b := e.1.2
      let w := twiddle n (e.2 * (n / (2 * h)))
      let tr := ((Acc.mac {} w.1 b.1).msu w.2 b.2).store 31
      let ti := ((Acc.mac {} w.1 b.2).mac w.2 b.1).store 31
      let f (x : Int) : Int := sat32 (rnd x sh)
      (((f (a.1 + tr), f (a.2 + ti)) : Cpx), ((f (a.1 - tr), f (a.2 - ti)) : Cpx)))
    out.map (·.1) ++ out.map (·.2))

/-- The stages from halves of `h` points on, with FFT_EXP. -/
def fftRun (n : Nat) : Nat → Nat → List Cpx → Nat → List Cpx × Nat
  | 0, _, l, e => (l, e)
  | k + 1, h, l, e =>
    let bx := blkExp (l.flatMap (fun z => [z.1, z.2]))
    let sh := 2 - bx
    fftRun n k (2 * h) (fftStage n h sh l) (e + sh)

/-- The transform of real samples, with its exponent. -/
def fftOf (l : List Int) : List Cpx × Nat :=
  let n := l.length
  let b := Nat.log2 n
  let a := l.toArray
  fftRun n b 1 ((List.range n).map (fun i => (a.getD (bitRev b i) 0, 0))) 0

/-! Frequency response (R202, R203). -/

/-- An FP64 value: an integer of at most 53 bits times a power of two. -/
abbrev D64 := Int × Int

/-- Round half to even to 53 bits. -/
def r53 (m e : Int) : D64 :=
  let k := Nat.log2 m.natAbs
  if k ≤ 52 then (m, e) else (divEven m (2 ^ (k - 52)), e + ((k - 52 : Nat) : Int))

/-- The FP64 sum. -/
def D64.add (a b : D64) : D64 :=
  if a.1 = 0 then b else if b.1 = 0 then a
  else
    let e := min a.2 b.2
    r53 (a.1 * 2 ^ (a.2 - e).toNat + b.1 * 2 ^ (b.2 - e).toNat) e

/-- A quotient as FP32. -/
def quotF32 (n : Int) (en : Int) (d : Int) (ed : Int) : Nat :=
  let a := n.natAbs * 2 ^ 160
  let q := a / d.natAbs
  let st := if a % d.natAbs = 0 then 0 else 1
  let v : Int := ((2 * q + st : Nat) : Int)
  ieeeEnc 8 23 (if (n < 0) = (d < 0) then v else -v) (en - ed - 161)

/-- The Hann window (R202). -/
def hann (n i : Nat) : Int := q31 ((one - fcos (twoPi * (i : Int) / (n : Int))) / 2)

/-- The four sums of a bin: S_uu, S_yy, and the parts of S_yu. -/
structure Bin where
  uu : D64 := (0, 0)
  yy : D64 := (0, 0)
  re : D64 := (0, 0)
  im : D64 := (0, 0)
  deriving DecidableEq, Repr, Inhabited

/-- The sums of bins `b0` to `b0 + n − 1` over blocks of both channels. -/
def frfSums (win : Bool) (nfft b0 n : Nat) (blocks : List (List Int × List Int)) : List Bin :=
  let w (l : List Int) : List Int := if win then (l.zip (List.range nfft)).map (fun e => sat32 (rnd (e.1 * hann nfft e.2) 31)) else l
  blocks.foldl (fun acc b =>
    let (u, eu) := fftOf (w b.1)
    let (y, ey) := fftOf (w b.2)
    let pick (l : List Cpx) : List Cpx := (l.drop b0).take n
    (acc.zip ((pick u).zip (pick y))).map (fun z =>
      let p := z.2.1
      let q := z.2.2
      { uu := z.1.uu.add (r53 (p.1 * p.1 + p.2 * p.2) ((2 * eu : Nat) : Int))
        yy := z.1.yy.add (r53 (q.1 * q.1 + q.2 * q.2) ((2 * ey : Nat) : Int))
        re := z.1.re.add (r53 (q.1 * p.1 + q.2 * p.2) ((eu + ey : Nat) : Int))
        im := z.1.im.add (r53 (q.2 * p.1 - q.1 * p.2) ((eu + ey : Nat) : Int)) }))
    (List.replicate n {})

/-- A bin record. -/
def binBytes (b : Bin) : List Byte :=
  if b.uu.1 = 0 || b.yy.1 = 0 then fields [(4, 0), (4, 0), (4, 0), (4, 1)]
  else
    let e := min b.re.2 b.im.2
    let re := b.re.1 * 2 ^ (b.re.2 - e).toNat
    let im := b.im.1 * 2 ^ (b.im.2 - e).toNat
    fields [(4, quotF32 b.re.1 b.re.2 b.uu.1 b.uu.2), (4, quotF32 b.im.1 b.im.2 b.uu.1 b.uu.2),
      (4, quotF32 (re * re + im * im) (2 * e) (b.uu.1 * b.yy.1) (b.uu.2 + b.yy.2)), (4, 0)]

/-- The index of the oldest valid row (R196). -/
def oldestRow (x : Session) : Nat := (x.wr + x.length - x.valid) % max 1 x.length

/-- Row `i` after a first index, with poisoned words as they read (R197). -/
def rowAt (x : Session) (first i : Nat) : Nat × List Int :=
  let n := (first + i) % max 1 x.length
  match tget none x.rows n with
  | some r => (r.1, (List.range r.2.length).map (fun c => if x.poisoned.contains (n, c) then -(2 ^ 31) else lget 0 r.2 c))
  | none => (0, List.replicate (tChans x.cfg) (-(2 ^ 31)))

/-- SAMPLES of a trace.frf. -/
def frfSamples (p : List Byte) (x : Session) : Nat := if u32 p 16 = 0 then x.valid - u32 p 12 else u32 p 16
/-- The hop h. -/
def frfHop (p : List Byte) : Nat := if u8 p 3 = 1 then u16 p 4 / 2 else u16 p 4
/-- The number of blocks B. -/
def frfBlocks (p : List Byte) (x : Session) : Nat := (frfSamples p x - u16 p 4) / max 1 (frfHop p) + 1

/-- The result of trace.frf. -/
def frfResult (s : State) (p : List Byte) (x : Session) : List Byte :=
  let nf := u16 p 4
  let b := frfBlocks p x
  let col (c i : Nat) : List Int := (List.range nf).map (fun k =>
    lget 0 (rowAt x (oldestRow x) (u32 p 12 + i * frfHop p + k)).2 c)
  let blocks := (List.range b).map (fun i => (col (u8 p 0) i, col (u8 p 1) i))
  let bins := frfSums (u8 p 2 = 1) nf (u16 p 6) (u16 p 8) blocks
  let df := fdiv one (((nf * tDec x.cfg : Nat) : Int) * secOfNs s.cad.ns)
  fields [(2, b), (2, u16 p 6), (2, u16 p 8), (2, 0), (4, toF32 df), (4, 0)] ++ bins.flatMap binBytes

/-- Cadences that an analysis takes after its 50 µs (R203). -/
def frfCads (s : State) (nf b : Nat) : Nat :=
  let cost := 4 * nf * Nat.log2 nf + 20 * nf
  (b + 31) / 32 * cdiv cost (max 1 (s.cad.ns / 4))

/-- FRF_COMPLETE (R203). -/
def frfComplete (s : State) : State :=
  match s.trc.frf with
  | none => s
  | some f =>
    let s1 := { s with trc := { s.trc with frf := none } }
    let p := (cmdOf { opcode := 0x0C0A, body := fun _ _ => { act := fun t => { s := t } } } ⟨BitVec.ofNat 3 f.mb |>.toFin, BitVec.ofNat 5 f.slot |>.toFin, []⟩ s).p
    complete f.mb f.slot .ok (now s) (sesState f.session s) (frfResult s p (sesOf s f.session)) s1

/-! Commands. -/

/-- Units of 4 KiB that a length needs (R191). -/
def unitsFor (len c : Nat) : Nat := (len * c * 4 + 4095) / 4096

/-- The lowest run of `n` units that no other session holds. -/
def runFor (s : State) (k n : Nat) : Option Nat :=
  let others := ((List.range 8).filter (· ≠ k)).map (sesOf s)
  (List.range (2049 - n)).find? (fun b => others.all (fun x => x.units = 0 || b + n ≤ x.base || x.base + x.units ≤ b))

/-- Whether a session is under analysis. -/
def analysed (s : State) (k : Nat) : Bool := match s.trc.frf with
  | some f => f.session = k
  | none => false

/-- trace.configure (R189 to R192). -/
def traceConfigureSpec : CmdSpec where
  opcode := 0x0C01
  lenOk n _ := n = 48
  objOk := objBelow 8
  stateOf := sesState
  body c s :=
    let p := c.p
    let k := c.h.object
    let x := sesOf s k
    let n := tChans p
    let src := tSrc p
    let okC := 1 ≤ n && n ≤ 16
    let need := unitsFor x.length n
    let moved := x.length ≠ 0 && n ≠ tChans x.cfg
    let run := runFor s k need
    { bad := [(1 < u8 p 0 || 1 < u8 p 2 || 6 < src || !zeroAt p 9 3 || (u8 p 0 = 1 && src ≠ 1) || (okC && !zeroAt p (16 + 2 * n) (32 - 2 * n)), .badArg),
              (!okC || tDec p = 0 || 65536 < tDec p || ((src = 3 || src = 4) && n ≤ tTrigCh p) || ((src = 5 || src = 6) && 127 < tTrigCh p)
                || (okC && (List.range n).any (fun i => 127 < (tChan p i).1 || 15 < (tChan p i).2)), .outOfRange),
              (x.state ≠ .unconfigured && x.state ≠ .stopped, .stateConflict), (analysed s k, .objectBusy),
              (okC && moved && run.isNone, .noMemory)]
      act := fun t => { s := setSes k (if moved then
          { x with cfg := p, state := .stopped, base := run.getD 0, units := need, wr := 0, valid := 0, validPre := 0, rd := 0, after := 0, rows := [], poisoned := [] }
        else { x with cfg := p, state := .stopped }) t } }

/-- trace.set_length (R191, R192). -/
def traceSetLengthSpec : CmdSpec where
  opcode := 0x0C02
  lenOk n _ := n = 8
  objOk := objBelow 8
  conf := traceConf
  stateOf := sesState
  resMax _ := 8
  body c s :=
    let k := c.h.object
    let x := sesOf s k
    let len := u32 c.p 0
    let pre := u32 c.p 4
    let n := unitsFor len (tChans x.cfg)
    let run := runFor s k n
    let okLen := 16 ≤ len && len ≤ 2097152
    { bad := [(!okLen || len ≤ pre || (tRoll x.cfg && pre ≠ 0), .outOfRange),
              (x.state ≠ .stopped, .stateConflict), (analysed s k, .objectBusy), (okLen && run.isNone, .noMemory)]
      act := fun t => { s := setSes k { x with
          length := len, pre := pre, base := run.getD 0, units := n, wr := 0, valid := 0, validPre := 0, rd := 0, after := 0, rows := [], poisoned := []
          poison := 0xFFFFFFFF, trigTime := 0 } t
                        res := fields [(4, 4096 * run.getD 0), (4, 4096 * n)] } }

/-- trace.arm (R193, R195). -/
def traceArmSpec : CmdSpec where
  opcode := 0x0C03
  lenOk n _ := n = 8
  objOk := objBelow 8
  stateOf := sesState
  kind _ _ _ := .cadence
  body c s :=
    let k := c.h.object
    let x := sesOf s k
    let timed := tSrc x.cfg = 2
    let tt := u64 c.p 0
    { bad := [(x.state = .unconfigured, .notConfigured), (!timed && tt ≠ 0, .badArg),
              (x.state ≠ .unconfigured && (x.state ≠ .stopped || x.length = 0), .stateConflict), (analysed s k, .objectBusy),
              (timed && 2147483647 + now s < tt, .timeWindow), (timed && (freeUnit s).isNone, .notSchedulable)]
      earliest := unitFrees s
      act := fun t =>
        let t1 := if timed then arm { kind := .traceArm k, due := ceilTo 4 (max c.promise tt), tr := tt, noLate := c.h.noLate } t else t
        later c t1 }

/-- The effect of trace.arm. -/
def traceArmEff (e : Eff) (s : State) : State :=
  let k := e.object
  let x := sesOf s k
  if x.state ≠ .stopped || x.length = 0 then s
  else
    raise 72 (setSes k { x with
      state := if tRoll x.cfg then .rolling else .armed, reason := 0, wr := 0, valid := 0, validPre := 0, rd := 0, after := 0
      acc := [], raw := none, trigNow := false, trigTime := 0, poison := 0xFFFFFFFF } s)

/-- trace.trigger (R193). -/
def traceTriggerSpec : CmdSpec where
  opcode := 0x0C04
  objOk := objBelow 8
  conf := traceConf
  stateOf := sesState
  kind _ _ _ := .tick false
  body c s :=
    { bad := [((sesOf s c.h.object).state ≠ .armed, .stateConflict), ((freeUnit s).isNone, .notSchedulable)]
      earliest := unitFrees s
      act := fun t => { s := arm { kind := .traceTrigger c.h.object, due := c.promise, tr := c.h.reqTime, noLate := c.h.noLate } t } }

/-- trace.stop (R194). -/
def traceStopSpec : CmdSpec where
  opcode := 0x0C05
  objOk := objBelow 8
  conf := traceConf
  stateOf := sesState
  kind _ _ _ := .cadence
  body c s :=
    let st := (sesOf s c.h.object).state
    { bad := [(st ≠ .armed && st ≠ .triggered && st ≠ .rolling, .stateConflict)]
      act := later c }

/-- The effect of trace.stop. -/
def traceStopEff (e : Eff) (s : State) : State :=
  let x := sesOf s e.object
  if x.state = .armed || x.state = .triggered || x.state = .rolling then
    freeTriggers e.object (setSes e.object { x with state := .stopped, reason := 2, acc := [], raw := none, trigNow := false } s)
  else s

/-- trace.status (table "trace.status result"). -/
def traceStatusSpec : CmdSpec where
  opcode := 0x0C06
  objOk := objBelow 8
  stateOf := sesState
  inFault _ := true
  body c s :=
    let x := sesOf s c.h.object
    { act := fun t => { s := t, res := fields [(1, x.state.code), (1, x.reason), (1, tChans x.cfg), (1, 0), (4, x.length), (4, x.wr), (4, x.valid),
        (4, x.validPre), (4, x.rd), (4, x.lost.toNat), (4, x.poison), (8, x.trigTime), (4, 4096 * x.base), (4, 0)] } }

/-- trace.read (R195, R196). -/
def traceReadSpec : CmdSpec where
  opcode := 0x0C07
  lenOk n _ := n = 12
  indR := true
  objOk := objBelow 8
  conf := traceConf
  stateOf := sesState
  inFault p := !bitOf (u32 p 8) 0
  resMax p := 16 + 64 * u32 p 4
  body c s :=
    let k := c.h.object
    let x := sesOf s k
    let n := u32 c.p 4
    let roll := tRoll x.cfg
    let have' := if roll then x.after else x.valid
    let first := (if roll then x.rd else oldestRow x) + u32 c.p 0
    let rows := (List.range n).map (rowAt x first)
    let take := bitOf (u32 c.p 8) 0
    { bad := [(2 ≤ u32 c.p 8 || (take && !roll), .badArg), (have' < u32 c.p 0 + n, .outOfRange),
              (x.state ≠ .stopped && x.state ≠ .rolling, .stateConflict)]
      act := fun t =>
        let m := u32 c.p 0 + n
        { s := if take then setSes k { x with rd := (x.rd + m) % max 1 x.length, after := x.after - m } t else t
          res := fields [(8, (rows.head?.map (·.1)).getD 0), (4, n), (4, 0)] ++ rows.flatMap (fun r => r.2.flatMap (fun v => leBytes 4 (bitsOf 32 v))) } }

/-- The largest increment (R199). -/
def incMax : Nat := 1932735283

/-- Whether a STEP injection stays within the largest increment for `n` more steps. -/
def stepOk (ratio : Int) : Nat → Nat → Bool
  | 0, inc => inc ≤ incMax
  | n + 1, inc =>
    let next := bitsOf 32 (sat32 (rnd ((inc : Int) * ratio) 30))
    inc ≤ incMax && (next = inc || stepOk ratio n next)

/-- AMP_MAX of a point (table "Injection points"). -/
def ampMax (l : LoopSt) (point : Nat) : Int :=
  match point with
  | 0 => if l.feLimit = 0 then 2 ^ 30 else toLsb (l.feLimit / 2) 32 / 2 ^ l.es
  | 1 => sat32 (toLsb l.vrefLim l.velFrac)
  | _ => sat32 (toLsb l.trqLim l.trqFrac)

/-- The injections pending or running. -/
def injections (s : State) : List Inject := s.trc.inj.filterMap (·.2)

/-- The end of an injection. -/
def injFin (s : State) (i : Inject) : Nat := i.start + u32 i.p 8 * s.cad.ns

/-- Whether the loop share of axis `a` has room for an injection (R186, R200). -/
def injFits (s : State) (a : Nat) : Bool := match tileOf s a with
  | some u => committed s.sch.shares 0 u + 100 ≤ tileCap s
  | none => false

/-- trace.inject (R198 to R200). -/
def traceInjectSpec : CmdSpec where
  opcode := 0x0C08
  lenOk n _ := n = 32
  objOk := objBelow 128
  conf := axisConf
  stateOf := axisStateOf
  kind _ _ _ := .cadence
  body c s :=
    let p := c.p
    let a := c.h.object
    let x := axisOf s a
    let kind := u8 p 0
    let len := u32 p 8
    let grpOk := match groupOf s a with
      | some g => let st := (grpOf s g).state; st = .ready || st = .moving || st = .hold
      | none => true
    let many := 8 ≤ (injections s).length
    { bad := [(3 < kind || 3 < u8 p 1 || (u8 p 1 = 1 && x.loop.cascade), .badArg),
              (i32 p 4 < 1 || (u8 p 1 ≤ 3 && ampMax x.loop (u8 p 1) < i32 p 4) || len = 0 || 16777216 < len || 4096 < u32 p 12 || len < 2 * u32 p 12
                || (kind = 3 && (u8 p 2 < 7 || 23 < u8 p 2 || u8 p 3 = 0 || 16 < u8 p 3)) || (kind < 3 && incMax < u32 p 16)
                || (kind = 2 && incMax < u32 p 20)
                || (kind = 1 && (i32 p 24 ≤ 0 || u32 p 28 = 0 || 65536 < u32 p 28 || !stepOk (i32 p 24) ((len - 1) / max 1 (u32 p 28)) (u32 p 16))), .outOfRange),
              (x.state ≠ .closed || !grpOk || (injOf s a).isSome, .stateConflict), (many || !injFits s a, .notSchedulable)]
      earliest := if many then ((injections s).map (injFin s)).foldl min 0xFFFFFFFFFFFFFFFF else 0xFFFFFFFFFFFFFFFF
      act := fun t =>
        let inj : Inject := { p := p, start := c.promise, inc := u32 p 16, c := (u32 p 16 : Int) * 65536, sr := 2 ^ u8 p 2 - 1 }
        { s := chargeInj a true (setInj a (some inj) t) } }

/-- trace.inject_stop (R201): its result is known when the injection ends. -/
def traceInjectStopSpec : CmdSpec where
  opcode := 0x0C09
  objOk := objBelow 128
  conf := axisConf
  stateOf := axisStateOf
  kind _ _ _ := .cadence
  resMax _ := 12
  body c s :=
    let a := c.h.object
    let free := match injOf s a with
      | some i => i.stop.isNone
      | none => false
    { bad := [(!free, .stateConflict)]
      act := fun t =>
        let t1 := match injOf t a with
          | some i => setInj a (some { i with stop := some (c.mb, c.slot) }) t
          | none => t
        { s := post c t1, later := true } }

/-- The effect of trace.inject_stop. -/
def injectStopEff (e : Eff) (s : State) : State :=
  match injOf s e.object with
  | some i => if i.stop = some (e.mb, e.slot) then injEnd e.object 3 s else s
  | none => s

/-- trace.frf (R202, R203): it completes when the analysis ends. -/
def traceFrfSpec : CmdSpec where
  opcode := 0x0C0A
  lenOk n _ := n = 24
  indR := true
  objOk := objBelow 8
  conf := traceConf
  stateOf := sesState
  resMax p := 16 + 16 * u16 p 8
  body c s :=
    let p := c.p
    let k := c.h.object
    let x := sesOf s k
    let nf := u16 p 4
    let pow := (List.range 9).any (fun i => nf = 16 * 2 ^ i)
    let n := frfSamples p x
    { bad := [(1 < u8 p 2 || 1 < u8 p 3 || !zeroAt p 10 2 || !zeroAt p 20 4, .badArg),
              (!pow || tChans x.cfg ≤ u8 p 0 || tChans x.cfg ≤ u8 p 1 || nf / 2 < u16 p 6 || u16 p 8 = 0 || nf / 2 + 1 < u16 p 6 + u16 p 8
                || x.valid < u32 p 12 + n || n < nf, .outOfRange),
              (x.state ≠ .stopped || x.valid = 0, .stateConflict), (s.trc.frf.isSome, .objectBusy)]
      act := fun t => { s := { t with trc := { t.trc with frf := some {
          mb := c.mb, slot := c.slot, session := k, due := 50000 + now s + frfCads s nf (frfBlocks p x) * s.cad.ns
          blocks := frfBlocks p x } } }, later := true } }

/-! Rows. -/

/-- TRACE_CONFIGURE (R190). -/
def execTraceConfigure (c : CmdRef) (s : State) : Host.Outcome State Fault Refusal := .next (runCmd traceConfigureSpec c s)
/-- TRACE_SET_LENGTH (R191). -/
def execTraceSetLength (c : CmdRef) (s : State) : Host.Outcome State Fault Refusal := .next (runCmd traceSetLengthSpec c s)
/-- TRACE_ARM (R193). -/
def execTraceArm (c : CmdRef) (s : State) : Host.Outcome State Fault Refusal := .next (runCmd traceArmSpec c s)
/-- TRACE_TRIGGER (R193). -/
def execTraceTrigger (c : CmdRef) (s : State) : Host.Outcome State Fault Refusal := .next (runCmd traceTriggerSpec c s)
/-- TRACE_STOP (R194). -/
def execTraceStop (c : CmdRef) (s : State) : Host.Outcome State Fault Refusal := .next (runCmd traceStopSpec c s)
/-- TRACE_STATUS (R190). -/
def execTraceStatus (c : CmdRef) (s : State) : Host.Outcome State Fault Refusal := .next (runCmd traceStatusSpec c s)
/-- TRACE_READ (R196). -/
def execTraceRead (c : CmdRef) (s : State) : Host.Outcome State Fault Refusal := .next (runCmd traceReadSpec c s)
/-- TRACE_INJECT (R200). -/
def execTraceInject (c : CmdRef) (s : State) : Host.Outcome State Fault Refusal := .next (runCmd traceInjectSpec c s)
/-- TRACE_INJECT_STOP (R201). -/
def execTraceInjectStop (c : CmdRef) (s : State) : Host.Outcome State Fault Refusal := .next (runCmd traceInjectStopSpec c s)
/-- TRACE_FRF (R202). -/
def execTraceFrf (c : CmdRef) (s : State) : Host.Outcome State Fault Refusal := .next (runCmd traceFrfSpec c s)
/-- TRC_FULL (R193). -/
def execTrcFull (k : Fin 8) (s : State) : Host.Outcome State Fault Refusal := .next (trcFull k.val s)
/-- INJECTION_COMPLETE (R201). -/
def execInjectionComplete (a : Fin 128) (s : State) : Host.Outcome State Fault Refusal := .next (injComplete a.val s)
/-- FRF_COMPLETE (R203). -/
def execFrfComplete (s : State) : Host.Outcome State Fault Refusal := .next (frfComplete s)

end Sys2Proof.Machine
end

