-- ==== Sys2Proof/Machine/Fault.lean ====
section
/-!
DEFINITION. The crosslink (R15 to R20), device faults (R361, R362), memory errors (R38), temperature, power failure (R402, R424)
and rails (R421), and the reset of the HOST island (R40).
-/
namespace Sys2Proof.Machine

/-- Change the device state. -/
def modDev (f : DevSt → DevSt) (s : State) : State := { s with dev := f s.dev }

/-- MODE FAULT with its cause: SOURCE and CODE of the first device fault since reset (R361, R398). -/
def enterFault (source code : Nat) (s : State) : State :=
  modDev (fun d => { d with
    mode := .fault, faultN := true
    faultCause := if d.faultCause = 0 then BitVec.ofNat 32 (source * 65536 + code) else d.faultCause }) s

/-- Whether die M runs: it is not held in reset by PORST_N or by a rail. -/
def dieMRuns (s : State) : Bool := s.dev.mode ≠ .reset

/-- A device fault detected on die M (R362): the record goes to die F, then no flit; the setpoints of every axis turn to a
category 0 stop, and the states freeze. -/
def deviceFault (source code : Nat) (noCore : Bool) (s : State) : State :=
  if !dieMRuns s || s.dev.frozen then s
  else
    let r := mkRec source code 3 noObj 0 [] s
    let s1 := if xlinkCarries s then toDieF r s else journalRec r s
    enterFault source code (modDev (fun d => { d with frozen := true, noCore := noCore })
      { s1 with xl := { s1.xl with stopped := true } })

/-- Die M's part of a lost crosslink (R19): scale 0 and a category 1 stop of every group. A frozen die M (R362) only reports it. -/
def xlinkLostM (source code : Nat) (s : State) : State :=
  if !dieMRuns s then s
  else if s.dev.frozen then raise 109 s
  else
    let s1 := forNat (List.range 16) (fun g t => setGov g 0 (noteReason g 7 (reqStopGrp g 1 t))) s
    let s2 := if s.cad.phase = 0 && s.cad.started then forNat (List.range 16) takeStops s1 else s1
    enterFault source code (raise 109 { s2 with xl := { s2.xl with lossRec := some (mkRec source code 3 noObj 0 [] s) } })

/-- Die F's part (R19): its record and its safe state. -/
def xlinkLostF (source code : Nat) (s : State) : State :=
  if dieFHeld s then s else enterSafe 2 (journalF source code 3 noObj 0 [] s)

/-- A cause on die F that takes the crosslink with it, trained or not (R12, R14, R19): both dies react, every armed die F action is
discarded with its unit (R265), and the device stays so until reset (R20). -/
def dieFCause (source code : Nat) (s : State) : State :=
  if s.xl.lost || dieFHeld s then s
  else
    let s1 := { s with xl := { s.xl with lost := true, up := false } }
    xlinkLostM source code (xlinkLostF source code (freeUnits (·.dieF) s1))

/-- The crosslink is lost (R18, R19). -/
def xlinkLoss (source code : Nat) (s : State) : State := if s.xl.up then dieFCause source code s else s

/-! Flits (R15, R16). -/

/-- A flit arrives at die `d` (R15): a good one counts and is acknowledged at least every 16; a bad one makes one NAK that names
the expected number, and everything is discarded until that number arrives. -/
def xlinkFlit (d : Die) (f : List Byte) (s : State) : State :=
  if !s.xl.up then s
  else
    let x := dirTo d s
    if flitOk x.rxSeq f then
      let ack := 15 ≤ x.sinceAck
      let s1 := setDir d { x with rxSeq := x.rxSeq + 1, awaiting := false, sinceAck := if ack then 0 else x.sinceAck + 1 } s
      let s2 := if d = .m then count 135 0x0C02 s1 else s1
      if ack then xacked d (x.rxSeq + 1) (xsendFlit (otherDie d) 0x01 (leBytes 2 x.rxSeq.toNat) s2) else s2
    else
      let s1 := if d = .m then count 135 0x0C03 s else s
      if x.awaiting then s1
      else
        let s2 := xsendFlit (otherDie d) 0x01 (leBytes 2 (0x8000 + x.rxSeq.toNat)) (setDir d { x with awaiting := true } s1)
        if d = .m then count 135 0x0C04 s2 else s2

/-- A NAK arrives at die `d`, the sender of the other direction: it replays from the number (R15); more than four replays in a
cadence are reported (R16), and the sixteenth replay of one flit loses the crosslink (R18). -/
def xlinkNak (d : Die) (seq : BitVec 12) (s : State) : State :=
  if !s.xl.up then s
  else
    let e := otherDie d
    let x := dirTo e s
    let s1 := setDir e { x with replaysCad := x.replaysCad + 1 } s
    let s2 := xreplay e seq (if d = .m then count 135 0x0C05 s1 else s1)
    let s3 := if x.replaysCad < 4 then s2
      else raise 108 (journal 0x02 0x02 1 noObj 0 [] (count 135 0x0C06 s2))
    if replayedOut e s3 then xlinkLoss 0x02 0x01 s3 else s3

/-- TIME_ALIGN_FLIT: die F's copy of long time is brought within 40 ns of die M's (R17). -/
def timeAlign (err : BitVec 8) (s : State) : State :=
  if xlinkCarries s then { s with xl := { s.xl with dieFErr := clampI (-40) 40 err.toInt } } else s

/-! Memory (R37, R38). -/

/-- A word of SRAM with the seven check bits of its SECDED code (R37); the manual does not give the code. -/
def sramWord (d : Word) : BitVec 39 := d.setWidth 39 ||| (BitVec.ofNat 39 (Config.checkBits d.toNat % 128)) <<< 32

/-- The scrubber reads every word once in a pass of at most 250 ms (R37): the pass that runs. -/
def scrubPass (s : State) : Nat := now s / 250000000

/-- The usable part of an installed LPDDR5 capacity: 256 data bits beside a 64-bit slot of check bits (R37). -/
def lpddrUsable (installed : Nat) : Nat := installed * 256 / 320


/-- A corrected error of a spoke's island (R38); whether the rate is above the threshold of ECC_CORRECTED, which no rule states, is
a free value. -/
def eccCorrected (spoke : Nat) (s : State) : State :=
  raiseIf ((freeNow s).getLsbD 0) 110 (freeNext (count spoke 0x0002 s))

/-- An uncorrectable error in the local memory of tile `t` (R38, R366). -/
def tileFault (t : Nat) (s : State) : State :=
  let served := (s.sch.shares.filter (fun e => e.type = 1 && e.unit = t)).map (·.object)
  let s1 := { s with tilesOut := s.tilesOut ||| BitVec.twoPow 32 t }
  taskEnd 0 t (journal 0x03 0x02 2 t 0 [] (forNat served (fun a u => reqFault a 0x06 u) s1))

/-- An uncorrectable error in planning memory: the groups whose data the word holds (R38), with a record for each. -/
def planningFault (groups : BitVec 16) (s : State) : State :=
  let gs := (List.range 16).filter (fun g => groups.getLsbD g && (grpOf s g).configured)
  forNat gs (fun g t => modGrp g (fun x => { x with fault := true, poisoned := true }) (journal 0x03 0x05 2 g 0 (leBytes 2 groups.toNat) t))
    (if gs = [] then journal 0x03 0x05 2 noObj 0 (leBytes 2 groups.toNat) s else s)

/-- An uncorrectable error in a host stream: the record ends the run as an underrun (R38, table "Fault cross-reference"). -/
def streamFault (k : Nat) (s : State) : State :=
  let h := strmOf s k
  journal 0x03 0x09 2 k 0 [] (if h.attached && driving s h.group = some k then strmUnderrun k s else s)

/-- The record of this cadence is dropped as if none had arrived: the last accepted one stands again. -/
def dropFeedback (x : AxisSt) : AxisSt :=
  if !x.map.got then x
  else { x with
    actP := x.actPrev, sampleAt := x.samplePrev, hist := x.hist.filter (fun e => e.1 ≠ x.sampleAt)
    map := { x.map with last := x.map.lastPrev, got := false } }

/-- An uncorrectable error in bus memory: the frame of a station is dropped and its records are missing (R38). -/
def busFault (k st : Nat) (s : State) : State :=
  let s1 := forNat ((segAxes s k).filter (fun a => (axisOf s a).map.station = st))
    (fun a t => modAxis a dropFeedback t) s
  let g := segOf s1 k
  journal 0x03 0x0A 1 k 0 [BitVec.ofNat 8 st] (setSeg k { g with procGot := g.procGot.filter (fun x => x ≠ st) } s1)

/-- The spoke of the island that owns a word (R38, R408). -/
def eccSpoke : EccOwner → Option Nat
  | .lane l => some (42 + l.val)
  | .tile t => some (10 + t.val)
  | .workspace => some 110
  | .planning _ => some 106
  | .scheduler => some 5
  | .supervisor => some 1
  | .hostSlot _ _ => some 0
  | .hostStream _ => some 0
  | .bus _ _ => some 112
  | .dieFSram => some 136
  | _ => none

/-- The owner's reaction (table "Uncorrectable error by owner"). -/
def eccReaction (o : EccOwner) (s : State) : State :=
  match o with
  | .lane l => journal 0x03 0x01 2 l.val 0 [] (laneFault l.val s)
  | .tile t => tileFault t.val s
  | .workspace => raise 83 (journal 0x03 0x03 0 noObj 0 [] { s with ssm := { s.ssm with fault1 := true } })
  | .trace k row c => journal 0x03 0x04 1 k.val 0 (leBytes 4 row.toNat) (traceFault k.val row.toNat c.val s)
  | .planning g => planningFault g s
  | .signals n => journal 0x03 0x06 1 n.val 0 [] (sigPoison n.val s)
  | .scheduler => deviceFault 0x03 0x07 true s
  | .supervisor => deviceFault 0x03 0x08 true s
  | .hostSlot m k => journal 0x03 0x09 2 (32 * m.val + k.val) 0 [] (complete m.val k.val .deviceFault 0 0xFFFFFFFF [] s)
  | .hostStream k => streamFault k.val s
  | .bus k st => busFault k.val st.toNat s
  | .dieFSram => journalF 0x03 0x0B 0 noObj 0 [] { s with ssm := { s.ssm with fault2 := true } }
  | .beforeRun =>
    if s.dev.mode = .boot || s.dev.mode = .init then
      count 142 0x1004 (modDev (fun d => { d with bootRec := { d.bootRec with cause := 0x05 }, resetAt := some (now s) }) s)
    else s

/-- An uncorrectable error (R38): nothing of die M reacts while its reset or a device fault stops it; die F's memory reacts alone. -/
def eccUncorrectable (o : EccOwner) (s : State) : State :=
  if !dieMRuns s || s.dev.frozen then (if o = .dieFSram && !dieFHeld s then eccReaction o s else s)
  else
    let s1 := match eccSpoke o with
      | some i => count i 0x0003 s
      | none => s
    raise 111 (eccReaction o s1)

/-! Temperature (table "Fault cross-reference"). -/

/-- Tj reaches 100 °C. -/
def thermWarn (s : State) : State :=
  if !dieMRuns s || s.dev.thermWarn then s
  else raise 106 (journal 0x04 0x01 1 noObj 0 [] (modDev (fun d => { d with thermWarn := true }) s))

/-- Tj reaches 115 °C: a category 1 stop of every group. -/
def thermCrit (s : State) : State :=
  if !dieMRuns s || s.dev.thermCrit then s
  else reqStopAll 1 (raise 107 (journal 0x04 0x02 2 noObj 0 [] (modDev (fun d => { d with thermCrit := true }) s)))

/-! Power (R402, R421, R424). -/

/-- Error and fatal records first, each set in its own order (R424). -/
def urgentFirst (q : List JRec) : List JRec := q.filter (fun r => 2 ≤ r.sev) ++ q.filter (fun r => r.sev < 2)

/-- Die F's hold-up begins (R402): its other blocks go to their lowest draw with outputs off, and it writes PWR/FAIL. -/
def holdupBegin (s : State) : State :=
  pinsOff (journalF 0x05 0x01 3 noObj 0 [] { s with jrn := { s.jrn with
    holdup := true, holdupOpen := true, holdupEnding := false, holdupWritten := 0, holdupUnsent := 0 } })

/-- PFAIL_N is asserted: hold-up, and a category 1 stop of every group with the step axes ramping. -/
def pfailAssert (s : State) : State :=
  if s.dev.pfail then s
  else
    let s1 := modDev (fun d => { d with pfail := true }) s
    let s2 := if s.jrn.holdup || s.dev.porstLow then s1 else holdupBegin s1
    if !dieMRuns s || s.dev.frozen then s2
    else
      let s3 := raise 105 (reqStopAll 1 { s2 with jrn := { s2.jrn with queueM := urgentFirst s2.jrn.queueM } })
      forNat (List.range 16) (fun n t => stpRamp n (startFrom t 1 (now t)) t) s3

/-- PWR_WARN of a rail: written by the die that supervises it. -/
def pwrWarn (r : Rail) (s : State) : State :=
  let d : List Byte := match r with
    | .vddCore => [0]
    | .vddSram => [1]
    | .vddF => [2]
    | .vccF => [3]
  let s1 := match r with
    | .vddCore => journal 0x05 0x02 1 noObj 0 d s
    | .vddSram => journal 0x05 0x02 1 noObj 0 d s
    | _ => journalF 0x05 0x02 1 noObj 0 d s
  if dieMRuns s then raise 104 s1 else s

/-- Whether a rail is die M's. -/
def railOfM (r : Rail) : Bool := r = .vddCore || r = .vddSram

/-- Die M held in reset: it answers nothing, its state is that of reset; die F finds the crosslink lost. -/
def dieMReset (s : State) : State :=
  let s1 := if s.xl.up && !s.xl.lost then xlinkLostF 0x02 0x01 { s with xl := { s.xl with lost := true, up := false } } else s
  { s1 with
    host := { ({} : HostSt) with hostRam := s.host.hostRam }, evt := {}, strm := [], time := {}
    cad := {}, ptp := [], hub := {}, bus := [], pel := {}, axes := [], grps := [], sig := {}, sch := {}, qp := {}, trc := {}
    ssm := { ({} : SsmSt) with fault2 := s1.ssm.fault2 }, eff := [], tilesOut := 0, lanesOut := 0
    jrn := { s1.jrn with queueM := [], dropped := 0, toReport := 0, challenge := none, erasing := none }
    dev := { s1.dev with
      mode := .reset, loaded := [], fwHdr := [], slot := 0xFF, mbReady := false, fwConfirmed := false, frozen := false, noCore := false
      thermWarn := false, thermCrit := false, op := none, replay := none, resetAt := none, faultCause := 0 } }

/-- A rail below its reset threshold holds its die in reset (R421); the other die finds the crosslink lost. -/
def railExcursion (r : Rail) (s : State) : State :=
  if s.dev.held.contains r then s
  else
    let s1 := modDev (fun d => { d with held := r :: d.held }) s
    if railOfM r then dieMReset s1
    else
      let s2 := xlinkLostM 0x02 0x01 { s1 with
        xl := { s1.xl with lost := s1.xl.up || s1.xl.lost, up := false }
        jrn := { s1.jrn with queueF := if s.jrn.holdup && r = .vccF then s1.jrn.queueF else [] } }
      pinsOff (forNat (List.range 16) stpSafe (freeUnits (·.dieF) { s2 with io := { s2.io with safe := 2 } }))

/-! The HOST island alone (R40). -/

/-- A command that completes later loses its slot: its completion will be discarded. -/
def orphan (m : Nat) : Nat := if m < 8 then 0xFF else m

/-- References to mailbox slots held by work under way. -/
def orphanAll (s : State) : State :=
  { s with
    bus := s.bus.map (fun e => (e.1, { e.2 with
      start := e.2.start.map (fun o => { o with mb := orphan o.mb })
      loading := e.2.loading.map (fun x => (orphan x.1, x.2))
      acyclic := e.2.acyclic.map (fun a => { a with mb := orphan a.mb }) }))
    pel := { s.pel with started := s.pel.started.map (fun x => (orphan x.1, x.2)) }
    trc := { s.trc with
      frf := s.trc.frf.map (fun f => { f with mb := orphan f.mb })
      inj := s.trc.inj.map (fun e => (e.1, e.2.map (fun i => { i with stop := i.stop.map (fun x => (orphan x.1, x.2)) }))) }
    dev := { s.dev with
      op := s.dev.op.map (fun o => { o with mb := orphan o.mb })
      replay := s.dev.replay.map (fun r => { r with mb := orphan r.mb }) }
    eff := s.eff.map (fun e => { e with mb := orphan e.mb }) }

/-- LINK_RESET (R40). -/
def linkReset (s : State) : State :=
  if !dieMRuns s then s
  else
    let s1 := orphanAll s
    let s2 := { s1 with
      host := { s1.host with mb := (s1.host.mb.map (fun e => (e.1, { e.2 with slots := [], bells := [] }))).filter (fun e => e.2 ≠ {}),
                              msix := [], pba := 0, msixOn := false, msixMask := false, cfg := [], usrEn := false }
      evt := {}, hub := { s1.hub with mirrorEn := false } }
    let s3 := forNat (List.range 8) detachStrm s2
    journal 0x13 0x01 0 noObj 0 [] s3

/-! Rows. -/

/-- XLINK_FLIT (R15). -/
def execXlinkFlit (dest : Die) (flit : List Byte) (s : State) : Host.Outcome State Fault Refusal := .next (xlinkFlit dest flit s)
/-- XLINK_NAK (R15). -/
def execXlinkNak (dest : Die) (seq : BitVec 12) (s : State) : Host.Outcome State Fault Refusal := .next (xlinkNak dest seq s)
/-- XLINK_LOST (R18). -/
def execXlinkLost (s : State) : Host.Outcome State Fault Refusal := .next (xlinkLoss 0x02 0x01 s)
/-- TIME_ALIGN_FLIT (R17). -/
def execTimeAlignFlit (error : BitVec 8) (s : State) : Host.Outcome State Fault Refusal := .next (timeAlign error s)
/-- ECC_CORRECTED (R38). -/
def execEccCorrected (spoke : Fin 143) (s : State) : Host.Outcome State Fault Refusal := .next (eccCorrected spoke.val s)
/-- ECC_UNCORRECTABLE (R38). -/
def execEccUncorrectable (owner : EccOwner) (s : State) : Host.Outcome State Fault Refusal := .next (eccUncorrectable owner s)
/-- SUP_LOCKSTEP (R14). -/
def execSupLockstep (s : State) : Host.Outcome State Fault Refusal := .next (deviceFault 0x01 0x01 false s)
/-- F_LOCKSTEP (R14): written by die F, as a crosslink loss. -/
def execFLockstep (s : State) : Host.Outcome State Fault Refusal := .next (dieFCause 0x01 0x02 s)
/-- SUPERVISOR_WATCHDOG (R360): MIRROR has not completed in 16 consecutive cadences. -/
def execSupervisorWatchdog (s : State) : Host.Outcome State Fault Refusal :=
  .next (if 16 ≤ s.cad.misses then deviceFault 0x01 0x03 true s else s)
/-- CLOCK_M (R12). -/
def execClockM (s : State) : Host.Outcome State Fault Refusal := .next (xlinkLoss 0x01 0x05 s)
/-- THERM_WARN (R360). -/
def execThermWarn (s : State) : Host.Outcome State Fault Refusal := .next (thermWarn s)
/-- THERM_WARN_CLEAR (R360). -/
def execThermWarnClear (s : State) : Host.Outcome State Fault Refusal := .next (modDev (fun d => { d with thermWarn := false }) s)
/-- THERM_CRIT (R360). -/
def execThermCrit (s : State) : Host.Outcome State Fault Refusal := .next (thermCrit s)
/-- THERM_CRIT_CLEAR (R360). -/
def execThermCritClear (s : State) : Host.Outcome State Fault Refusal := .next (modDev (fun d => { d with thermCrit := false }) s)
/-- THERM_SHUTDOWN (R360). -/
def execThermShutdown (s : State) : Host.Outcome State Fault Refusal := .next (deviceFault 0x01 0x04 false s)
/-- PFAIL_N_ASSERT (R402). -/
def execPfailNAssert (s : State) : Host.Outcome State Fault Refusal := .next (pfailAssert s)
/-- PWR_WARN (R421). -/
def execPwrWarn (rail : Rail) (s : State) : Host.Outcome State Fault Refusal := .next (pwrWarn rail s)
/-- RAIL_RESET_EXCURSION (R421). -/
def execRailResetExcursion (rail : Rail) (s : State) : Host.Outcome State Fault Refusal := .next (railExcursion rail s)
/-- RAIL_RESET_RELEASE (R421): the die leaves reset; the device stays as it is until its own reset (R20). -/
def execRailResetRelease (rail : Rail) (s : State) : Host.Outcome State Fault Refusal :=
  .next (modDev (fun d => { d with held := d.held.filter (· ≠ rail) }) s)
/-- LINK_RESET (R40). -/
def execLinkReset (s : State) : Host.Outcome State Fault Refusal := .next (linkReset s)

end Sys2Proof.Machine
end

