-- ==== Sys2Proof/Machine/Boot.lean ====
section
/-!
DEFINITION. Start-up, boot and security: reset (R370 to R372), boot sources and the boot rule (R373, R375, R382 to R386), signed
containers (R376, R377), keys and fuses (R378 to R381), and the dev and sec commands but the replay of a cell image.
-/
namespace Sys2Proof.Machine

/-! Containers (R376, R377). -/

/-- The header digest. -/
def headerDigest (c : List Byte) : List Byte := sha3 (c.take 256)
/-- KEY of a container. -/
def conKey (c : List Byte) : List Byte := (c.drop 256).take 2592
/-- SIG of a container. -/
def conSig (c : List Byte) : List Byte := (c.drop 2848).take 4627
/-- The payload. -/
def conPayload (c : List Byte) : List Byte := c.drop 8192
/-- MAGIC of a container. -/
def conMagic : Nat := 0x3143564B

/-- The command records of a cell image payload (R387): each within its rules and padded with zero bytes, ending exactly. -/
def recordsOk : Nat → List Byte → Bool
  | 0, b => b = []
  | n + 1, b =>
    let h := readHdr (b.take 64)
    let pad := (h.len + 7) / 8 * 8
    let len := 64 + pad
    let cls := h.opcode / 256
    64 ≤ b.length && h.reqTime = 0 && h.dataAddr = 0 && h.resAddr = 0 && h.resCap = 0 && (h.flags = 0 || h.flags = 8)
      && cls ≠ 0x01 && cls ≠ 0x12 && cls ≠ 0x13 && len ≤ b.length && zeroAt b (64 + h.len) (pad - h.len) && recordsOk n (b.drop len)

/-- Check 1 of R377. -/
def formOk (fw : Bool) (c : List Byte) : Bool :=
  let n := u64 c 24
  256 ≤ c.length && u32 c 0 = conMagic && u16 c 4 = (if fw then 1 else 2) && u32 c 8 / 4096 = 0x1612B
    && u16 c 6 < 2 && zeroAt c 18 6 && zeroAt c 108 148 && 1 ≤ n && n ≤ 16769024 && c.length = 8192 + n
    && (u64 c 96 = 0 || (!fw && u64 c 96 = Config.uid.toNat))
    && (if fw then u32 c 104 = 0 else recordsOk (u32 c 104) (conPayload c))

/-- Whether SIG verifies over the header digest with KEY. -/
def sigOk (c : List Byte) : Bool := Config.mlDsaVerify (conKey c) (headerDigest c) (conSig c)

/-- Check 2 of R377 for a firmware container (R378). -/
def vendorOk (s : State) (c : List Byte) : Bool :=
  u8 c 17 ≤ 1 && !(u8 c 17 = 0 && s.dev.fuses.vk0Revoked)
    && digestNat (sha3 (conKey c)) = Config.vendorHash (u8 c 17) && sigOk c

/-- Check 2 of R377 for a cell image (R379). -/
def ownerOk (s : State) (c : List Byte) : Bool :=
  !s.dev.fuses.owner0Set || (bitOf (u16 c 6) 0 && u8 c 17 ≤ 1 && ownerInForce s (u8 c 17)
    && digestNat (sha3 (conKey c)) = ownerHashOf s (u8 c 17) && sigOk c)

/-- The fused count (R380): consecutive blown bits from bit 0. -/
def fusedCount (s : State) : Nat := ((List.range 64).takeWhile (fun i => s.dev.fuses.svn.getLsbD i)).length

/-- The first check of R377 that fails. -/
def verifyContainer (s : State) (fw : Bool) (c : List Byte) : Option Status :=
  if !formOk fw c then some .badArg
  else if !(if fw then vendorOk s c else ownerOk s c) then some .signatureInvalid
  else if sha3 (conPayload c) ≠ (c.drop 32).take 64 then some .signatureInvalid
  else if fw && u8 c 16 < fusedCount s then some .rollback
  else none

/-- A failed verification is reported (R377). -/
def verifyReport (st : Status) (s : State) : State :=
  if st = .rollback then raise 117 (journal 0x07 0x02 0 noObj 0 [] s) else raise 116 (journal 0x07 0x01 0 noObj 0 [] s)

/-! Reset (R370, R372). -/

/-- Both dies in reset: FeRAM, fuses and flash keep their contents; die F's record of a crosslink loss will be written; a hold-up
runs to its end (table "Coincident supply and reset events"). -/
def inReset (s : State) : State :=
  let going := s.jrn.holdup && !s.jrn.holdupEnding
  let j : JrnSt := { regA := s.jrn.regA, regB := s.jrn.regB, next := s.jrn.next, floor := s.jrn.floor, ctl := s.jrn.ctl }
  let j1 : JrnSt := if going then { j with
      queueF := s.jrn.queueF, holdup := true, holdupUnsent := s.jrn.holdupUnsent, holdupWritten := s.jrn.holdupWritten } else j
  let base : State := {}
  { base with
    host := { ({} : HostSt) with hostRam := s.host.hostRam }
    jrn := { j1 with queueF := j1.queueF ++ s.xl.lossRec.toList }
    dev := { ({} : DevSt) with bootRec := s.dev.bootRec, bootCopies := s.dev.bootCopies, fuses := s.dev.fuses, flash := s.dev.flash, held := s.dev.held, pfail := s.dev.pfail }
    out := s.out, free := s.free, pending := s.pending }

/-- t0: the straps are sampled, long time starts at 0, MODE becomes BOOT and the boot flash is reset (R258, R370, R432). -/
def bootStart (bootsel : BitVec 2) (stnaddr : BitVec 5) (s : State) : State :=
  emit .flashReset 0 [] (modDev (fun d => { d with
      mode := .boot, porstLow := false, waitPfail := false, bootsel := bootsel, stnaddr := stnaddr, watchFrom := 0 })
    { s with time := { s.time with long := 0, frac := 0 } })

/-- PORST_N is released; with PFAIL_N low, t0 waits for it. -/
def porstRelease (bootsel : BitVec 2) (stnaddr : BitVec 5) (s : State) : State :=
  if !s.dev.porstLow then s
  else if s.dev.pfail then modDev (fun d => { d with porstLow := false, waitPfail := true, bootsel := bootsel, stnaddr := stnaddr }) s
  else bootStart bootsel stnaddr s

/-- PFAIL_N is released: die F's charger reconnects once the hold-up has finished (R402). -/
def pfailRelease (s : State) : State :=
  let s1 := modDev (fun d => { d with pfail := false }) s
  let s2 := if s.jrn.holdupEnding then { s1 with jrn := { s1.jrn with holdup := false } } else s1
  if s.dev.waitPfail then bootStart s.dev.bootsel s.dev.stnaddr s2 else s2

/-- Die F writes what its queue holds. -/
def flushF : Nat → State → State
  | 0, s => s
  | n + 1, s => flushF n (journalWrite s)

/-- DEVICE_RESET: a reset that is due has the effect of a pulse on PORST_N (R372). -/
def deviceReset (bootsel : BitVec 2) (stnaddr : BitVec 5) (s : State) : State :=
  if s.dev.resetAt.isNone then s
  else porstRelease bootsel stnaddr (inReset (flushF s.jrn.queueF.length s))

/-! The boot rule (R382). -/

/-- Change the boot record. -/
def modRec (f : BootRec → BootRec) (s : State) : State := modDev (fun d => { d with bootRec := f d.bootRec }) s
/-- The bytes of the boot record (table "Boot record"), in the order of the table. -/
def bootRecBytes (r : BootRec) : List Byte :=
  fields [(4, r.bootCount.toNat), (1, r.attempts.toNat), (1, r.cause.toNat), (1, r.kick.toNat), (1, r.active), (1, r.trial)]
/-- Change the boot record and write it to the older copy in FeRAM (R382, R408). -/
def writeRec (f : BootRec → BootRec) (s : State) : State :=
  count 142 0x1004 (modDev (fun d => { d with bootCopies := feWrite (bootRecBytes d.bootRec) d.bootCopies }) (modRec f s))

/-- Kickstand mode with a reason (R382, R386). -/
def enterKickstand (reason : Nat) (s : State) : State :=
  let s1 := journal 0x06 reason 0 noObj 0 [] (writeRec (fun r => { r with cause := BitVec.ofNat 8 reason }) s)
  raise 114 (modDev (fun d => { d with
    mode := .kickstand, mbReady := true, faultN := true, reason := BitVec.ofNat 8 reason, whyAttempts := d.bootRec.attempts
    slot := 0xFF, loaded := [], fwHdr := [], pcieWait := false }) s1)

/-- The boot ROM reads and updates the boot record, up to the choice of slot (R382). -/
def bootRule (s : State) : State :=
  let s1 := modRec (fun r => { r with bootCount := r.bootCount + 1 }) s
  let r := s1.dev.bootRec
  if s.dev.bootsel = 3#2 then enterKickstand 0x08 s1
  else if r.kick ≠ 0 then enterKickstand r.kick.toNat (modRec (fun x => { x with kick := 0 }) s1)
  else if 3 ≤ r.attempts.toNat then enterKickstand r.cause.toNat s1
  else
    let pcie := s.dev.bootsel = 1#2
    let s2 := if !pcie && r.trial = 2 then journal 0x06 0x20 0 noObj 0 [] s1 else s1
    let s3 := writeRec (fun x => { x with
      cause := 0x09, attempts := BitVec.ofNat 4 (min (x.attempts.toNat + 1) 15)
      trial := if pcie then x.trial else if x.trial = 2 then 0 else if x.trial = 1 then 2 else x.trial }) s2
    modDev (fun d => { d with
      reason := r.cause, whyAttempts := d.bootRec.attempts
      slot := if pcie then 2 else if r.trial = 1 then 1 - r.active else r.active }) s3

/-- XLINK_UP: training ends in BOOT, and the boot ROM applies the boot rule. -/
def xlinkUp (s : State) : State :=
  if s.dev.mode ≠ .boot || s.xl.up || s.xl.initFailed || s.dev.held ≠ [] then s
  else bootRule { s with xl := { s.xl with up := true } }

/-- The crosslink has not trained by t0 + 10 ms (R383): die F writes CAUSE and a record. -/
def xlinkTrainTimeout (s : State) : State :=
  if s.dev.mode ≠ .boot || s.xl.up then s
  else
    let s0 := advanceTo 10000000 s
    let s1 := journalF 0x06 0x04 0 noObj 0 [] (writeRec (fun r => { r with cause := 0x04 }) { s0 with xl := { s.xl with initFailed := true } })
    raise 114 (modDev (fun d => { d with
      mode := .kickstand, mbReady := true, faultN := true, reason := 0x04, whyAttempts := 0, slot := 0xFF }) s1)

/-- LPDDR5 is trained (R370). -/
def lpddrTrained (s : State) : State := if s.dev.mode = .boot then modDev (fun d => { d with lpddrTrained := true }) s else s

/-- What a flash slot holds. -/
def flashOf (s : State) (k : Nat) : List Byte := tget [] s.dev.flash k

/-- The kickstand reason of a failed verification. -/
def bootReason (st : Status) : Nat := if st = .rollback then 0x02 else 0x01

/-- Whether the boot ROM waits for a container. -/
def awaitsImage (s : State) : Bool := s.dev.mode = .boot && s.xl.up && s.dev.lpddrTrained && s.dev.loaded = []

/-- A verified container waits for handover. -/
def takeImage (slot : Nat) (c : List Byte) (s : State) : State := modDev (fun d => { d with loaded := c.take 256, slot := slot }) s

/-- CONTAINER_LOADED: load_verify of the slots (R382). -/
def containerLoaded (s : State) : State :=
  if !awaitsImage s || s.dev.bootsel = 1#2 || s.dev.pcieWait then s
  else
    let k := s.dev.slot
    match verifyContainer s true (flashOf s k) with
    | none => takeImage k (flashOf s k) s
    | some st =>
      let s1 := verifyReport st s
      match verifyContainer s1 true (flashOf s (1 - k)) with
      | none => takeImage (1 - k) (flashOf s (1 - k)) (writeRec (fun r => { r with trial := 0 }) s1)
      | some st2 =>
        let s2 := verifyReport st2 s1
        if s.dev.bootsel = 2#2 then modDev (fun d => { d with pcieWait := true }) s2 else enterKickstand (bootReason st) s2

/-- The container in the staging area, as far as its own length field says (R375). -/
def stagedContainer (s : State) : List Byte :=
  mread s.host.staging 0 (8192 + min (leNat (mread s.host.staging 24 8)) 16769025)

/-- STAGED_IMAGE_FOUND: the staged container is verified once (R375). -/
def stagedImage (s : State) : State :=
  if !awaitsImage s || !(s.dev.bootsel = 1#2 || s.dev.pcieWait) || s.dev.stagedTaken || leNat (mread s.host.staging 0 4) ≠ conMagic then s
  else
    let s1 := modDev (fun d => { d with stagedTaken := true, watchFrom := now s }) s
    match verifyContainer s1 true (stagedContainer s) with
    | none => takeImage 2 (stagedContainer s) s1
    | some st => enterKickstand (bootReason st) (verifyReport st s1)

/-- FIRMWARE_HANDOVER: MODE INIT (R370). -/
def handover (s : State) : State :=
  if s.dev.mode ≠ .boot || s.dev.loaded = [] then s
  else modDev (fun d => { d with mode := .init, fwHdr := d.loaded, loaded := [], pcieWait := false, watchFrom := now s }) s

/-- The background initialisation of LPDDR5 has finished (R370). -/
def lpddrDone (s : State) : State := if s.dev.lpddrTrained then modDev (fun d => { d with lpddrDone := true }) s else s

/-- The MIRROR task is placed as RUN begins (R30). -/
def placeMirror (s : State) : State := setShares ((regrade s mirrorShare).getD s.sch.shares) s

/-- BOOT_RUN: the firmware checks a stored cell image (R390) and enters RUN (R370). -/
def bootRun (s : State) : State :=
  if s.dev.mode ≠ .init || !s.dev.lpddrDone || s.dev.resetAt.isSome then s
  else
    let c := flashOf s 2
    let stored := u32 c 0 = conMagic
    match if stored then verifyContainer s false c else none with
    | some st => modDev (fun d => { d with resetAt := some (now s) }) (writeRec (fun r => { r with kick := 0x06 }) (verifyReport st s))
    | none => raise 112 (placeMirror (modDev (fun d => { d with
        mode := .run, mbReady := true, runTime := s.time.long, replay := if stored then some { image := c } else none }) s))

/-- A watchdog of die F expires `span` ns after its start (R371): CAUSE, a record, and a reset. -/
def watchdogReset (span : Nat) (s0 : State) : State :=
  let s := advanceTo (span + s0.dev.watchFrom) s0
  modDev (fun d => { d with resetAt := some (now s) })
    (journalF 0x06 0x03 0 noObj 0 [] (writeRec (fun r => { r with cause := 0x03 }) s))

/-- ROM_WATCHDOG: 30 s from t0, or from the complete image of a PCIe source, without handover. -/
def romWatchdog (s : State) : State :=
  if s.dev.mode = .boot && s.xl.up && s.dev.resetAt.isNone && (!(s.dev.bootsel = 1#2 || s.dev.pcieWait) || s.dev.stagedTaken) then watchdogReset 30000000000 s
  else s

/-- INIT_WATCHDOG: 5 s from handover without RUN or KICKSTAND. -/
def initWatchdog (s : State) : State := if s.dev.mode = .init && s.dev.resetAt.isNone then watchdogReset 5000000000 s else s

/-- BOOT_UNCONFIRMED: RUN has lasted 60 s without confirmation (R384). -/
def bootUnconfirmed (s : State) : State :=
  if s.dev.mode ≠ .run || s.dev.fwConfirmed || s.dev.unconfirmedDone then s
  else raise 113 (modDev (fun d => { d with unconfirmedDone := true }) (advanceTo (60000000000 + s.dev.runTime.toNat) s))

/-! dev commands. -/

/-- STATE of dev commands. -/
def devState (_ : Nat) (s : State) : Nat := s.dev.mode.code

/-- Whether an operation of R394 runs. -/
def devBusy (s : State) : Bool := s.dev.op.isSome || s.dev.replay.isSome

/-- VERSION of a flash slot; 0 if its header is not valid. -/
def slotVersion (s : State) (k : Nat) : Nat := if formOk true (flashOf s k) then u32 (flashOf s k) 12 else 0

/-- dev.boot_status (table "dev.boot_status result"). -/
def devBootStatusSpec : CmdSpec where
  opcode := 0x0101
  stateOf := devState
  kick := true
  inFault _ := true
  body _ s :=
    let d := s.dev
    let r := d.bootRec
    { act := fun t => { s := t, res := fields [(1, d.mode.code), (1, d.reason.toNat), (1, d.whyAttempts.toNat), (1, d.slot), (1, r.active),
        (1, r.trial), (1, d.bootsel.toNat), (1, fusedCount s), (4, slotVersion s 0), (4, slotVersion s 1), (4, r.bootCount.toNat),
        (4, d.imageDone), (4, d.imageFailIndex), (2, d.imageFailStatus), (2, 0), (8, d.runTime.toNat)] } }

/-- Whether a group or step axis bars a dev.reset without FORCE (R395). -/
def inMotion (s : State) : Bool :=
  (tkeys s.grps).any (fun g => (grpOf s g).state ≠ .idle && (grpOf s g).state ≠ .fault)
    || (tkeys s.stp).any (fun n => [StpState.moving, .homing, .stopping].contains (stpOf s n).state)

/-- dev.reset (R395). -/
def devResetSpec : CmdSpec where
  opcode := 0x0102
  lenOk n _ := n = 4
  priv := true
  stateOf := devState
  kick := true
  inFault _ := true
  body c s :=
    let p := c.p
    let force := u8 p 1 = 1
    { bad := [(1 < u8 p 0 || 1 < u8 p 1 || !zeroAt p 2 2, .badArg),
              (s.dev.mode = .run && !force && inMotion s, .stateConflict), (!force && devBusy s, .objectBusy)]
      act := fun t =>
        let t1 := if u8 p 0 = 1 && xlinkCarries t then writeRec (fun r => { r with kick := 0x07 }) t else t
        let t2 := if t.dev.mode = .kickstand then writeRec (fun r => { r with attempts := 0, cause := 0 }) t1 else t1
        let t3 := if force then reqStopAll 0 (modDev (fun d => { d with op := none, replay := none }) t2) else t2
        { s := modDev (fun d => { d with resetAt := some (1000000 + now t) }) t3 } }

/-- dev.confirm_boot (R384). -/
def devConfirmBootSpec : CmdSpec where
  opcode := 0x0103
  priv := true
  stateOf := devState
  body _ s :=
    { bad := [(s.dev.mode ≠ .run || s.dev.fwConfirmed, .stateConflict)]
      act := fun t => { s := modDev (fun d => { d with fwConfirmed := true }) (writeRec (fun r => { r with
        attempts := 0, cause := 0, trial := 0, active := if t.dev.slot < 2 then t.dev.slot else r.active }) t) } }

/-- dev.load_image (R388). -/
def devLoadImageSpec : CmdSpec where
  opcode := 0x0104
  lenOk n _ := 8 ≤ n
  priv := true
  indP := true
  stateOf := devState
  body c s :=
    let p := c.p
    let img := p.drop 8
    let v := verifyContainer s false img
    { bad := [(1 < u32 p 0 || !zeroAt p 4 4 || v = some .badArg, .badArg), (s.dev.mode ≠ .run, .stateConflict), (devBusy s, .objectBusy),
              (v = some .signatureInvalid, .signatureInvalid)]
      refused := fun st t => if st = .signatureInvalid || (st = .badArg && v = some .badArg) then verifyReport st t else t
      act := fun t => { s := modDev (fun d => { d with
        replay := some { mb := c.mb, slot := c.slot, store := u32 p 0 = 1, image := img } }) t, later := true } }

/-- dev.update_fw (R393). -/
def devUpdateFwSpec : CmdSpec where
  opcode := 0x0105
  lenOk n _ := 256 ≤ n
  priv := true
  indP := true
  stateOf := devState
  kick := true
  body c s :=
    let img := c.p
    let v := verifyContainer s true img
    let run := s.dev.mode = .run
    let tgt := if run then 1 - s.dev.slot else 1 - s.dev.bootRec.active
    { bad := [(s.dev.bootsel = 1#2 || s.dev.slot = 2, .notConfigured), (v = some .badArg, .badArg),
              (run && !s.dev.fwConfirmed, .stateConflict), (devBusy s, .objectBusy),
              (v = some .signatureInvalid, .signatureInvalid), (v = some .rollback, .rollback)]
      refused := fun st t => if some st = v then verifyReport st t else t
      act := fun t => { s := modDev (fun d => { d with op := some { mb := c.mb, slot := c.slot, target := tgt, image := img } }) t, later := true } }

/-- FW_UPDATE_DONE: the slot has been written, read back and verified again (R393). -/
def fwUpdateDone (s : State) : State :=
  match s.dev.op with
  | none => s
  | some o =>
    if s.dev.frozen || s.dev.mode = .fault then s
    else
      let s1 := modDev (fun d => { d with op := none, flash := tset [] d.flash o.target o.image }) s
      match verifyContainer s1 true (flashOf s1 o.target) with
      | some _ => complete o.mb o.slot .deviceFault 0 0xFFFFFFFF [] s1
      | none =>
        let s2 := raise 115 (journal 0x06 0x21 0 noObj 0 [BitVec.ofNat 8 o.target] (writeRec (fun r => { r with trial := 1 }) s1))
        complete o.mb o.slot .ok (now s) s.dev.mode.code (fields [(1, o.target), (3, 0), (4, u32 o.image 12)]) s2

/-! sec commands. -/

/-- KEY_FLAGS of the attestation report. -/
def keyFlags (s : State) : Nat :=
  let f := s.dev.fuses
  flagAt f.vk0Revoked 0 + flagAt f.owner0Set 1 + flagAt f.owner1Set 2 + flagAt f.owner0Revoked 3

/-- The 64 bytes of a digest. -/
def digestBytes (d : BitVec 512) : List Byte := leBytes 64 d.toNat

/-- The hash of the owner slot in force; 0 if none. -/
def ownerDigest (s : State) : List Byte :=
  if ownerInForce s 0 then digestBytes (ownerHashOf s 0) else if ownerInForce s 1 then digestBytes (ownerHashOf s 1)
  else List.replicate 64 0

/-- The signed part of the attestation report (table "Attestation report"). -/
def attestBody (s : State) (nonce : List Byte) : List Byte :=
  let d := s.dev
  let slot1 := d.fwHdr ≠ [] && u8 d.fwHdr 17 = 1
  fields [(4, 0x3141564B), (2, 5139), (1, d.mode.code), (1, d.reason.toNat), (8, Config.uid.toNat), (4, 0x1612B000), (4, u32 d.fwHdr 12),
      (1, d.whyAttempts.toNat), (1, fusedCount s), (1, u8 d.fwHdr 16), (1, keyFlags s + flagAt slot1 4 + flagAt d.fwConfirmed 5),
      (4, d.bootRec.bootCount.toNat), (8, now s)]
    ++ fit 64 nonce ++ digestBytes Config.romDigest ++ (if d.fwHdr = [] then List.replicate 64 0 else sha3 d.fwHdr)
    ++ fit 64 d.cellDigest ++ ownerDigest s ++ List.replicate 152 0

/-- sec.attest (R392). -/
def secAttestSpec : CmdSpec where
  opcode := 0x1301
  lenOk n _ := n = 64
  priv := true
  indR := true
  needIndR := true
  kick := true
  inFault _ := true
  resMax _ := 5139
  body c s :=
    { act := fun t =>
        let b := attestBody s c.p
        { s := freeNext t, res := b ++ fit 4627 (Config.identitySign s.free (sha3 b)) } }

/-- sec.get_cert (R391). -/
def secGetCertSpec : CmdSpec where
  opcode := 0x1302
  priv := true
  indR := true
  needIndR := true
  kick := true
  resMax _ := 12288
  body _ s := { bad := [(s.xl.initFailed, .deviceFault)], act := fun t => { s := t, res := Config.certificate.take 12288 } }

/-- sec.fuse_status. -/
def secFuseStatusSpec : CmdSpec where
  opcode := 0x1303
  priv := true
  kick := true
  body _ s := { act := fun t => { s := t, res := fields [(1, fusedCount s), (1, keyFlags s + flagAt s.dev.fuses.idLock 4), (14, 0)] } }

/-- Change the fuses. -/
def modFuses (f : Fuses → Fuses) (s : State) : State := modDev (fun d => { d with fuses := f d.fuses }) s

/-- sec.set_owner (R379, R381). -/
def secSetOwnerSpec : CmdSpec where
  opcode := 0x1304
  lenOk n _ := n = 2596
  priv := true
  body c s :=
    let k := u8 c.p 0
    let f := s.dev.fuses
    let h := digestNat (sha3 (c.p.drop 4))
    let blown := ownerHashOf s k
    { bad := [(!zeroAt c.p 1 3, .badArg), (1 < k, .outOfRange),
              ((if k = 0 then f.owner0Set else f.owner1Set || !f.owner0Set) || blown &&& h ≠ blown || s.dev.mode ≠ .run, .stateConflict),
              (devBusy s, .objectBusy)]
      act := fun t => { s := journal 0x07 0x03 0 noObj 0 [BitVec.ofNat 8 k] (modFuses (fun g => { g with
        ownerHash := tset 0 g.ownerHash k h, owner0Set := g.owner0Set || k = 0, owner1Set := g.owner1Set || k = 1 }) t) } }

/-- sec.revoke_owner (R379). -/
def secRevokeOwnerSpec : CmdSpec where
  opcode := 0x1305
  lenOk n _ := n = 4
  priv := true
  body c s :=
    let f := s.dev.fuses
    { bad := [(!zeroAt c.p 1 3, .badArg), (u8 c.p 0 ≠ 0, .outOfRange),
              (!f.owner1Set || f.owner0Revoked || s.dev.mode ≠ .run, .stateConflict), (devBusy s, .objectBusy)]
      act := fun t => { s := journal 0x07 0x04 0 noObj 0 [] (modFuses (fun g => { g with owner0Revoked := true }) t) } }

/-- sec.advance_svn (R380). -/
def secAdvanceSvnSpec : CmdSpec where
  opcode := 0x1306
  priv := true
  body _ s :=
    let n := max (fusedCount s) (min 64 (u8 s.dev.fwHdr 16))
    { bad := [(!s.dev.fwConfirmed || s.dev.mode ≠ .run, .stateConflict), (devBusy s, .objectBusy)]
      act := fun t =>
        let t1 := modFuses (fun g => { g with svn := g.svn ||| BitVec.ofNat 64 (2 ^ n - 1) }) t
        { s := journal 0x07 0x06 0 noObj 0 [BitVec.ofNat 8 n] t1, res := fields [(1, n), (3, 0)] } }

/-- sec.revoke_vendor (R378). -/
def secRevokeVendorSpec : CmdSpec where
  opcode := 0x1307
  priv := true
  body _ s :=
    { bad := [(!s.dev.fwConfirmed || u8 s.dev.fwHdr 17 ≠ 1 || s.dev.mode ≠ .run, .stateConflict), (devBusy s, .objectBusy)]
      act := fun t => { s := journal 0x07 0x05 0 noObj 0 [] (modFuses (fun g => { g with vk0Revoked := true }) t) } }

/-! Rows. -/

/-- PORST_N_ASSERT (R372). -/
def execPorstNAssert (s : State) : Host.Outcome State Fault Refusal := .next (inReset s)
/-- PORST_N_RELEASE (R370). -/
def execPorstNRelease (bootsel : BitVec 2) (stnaddr : BitVec 5) (s : State) : Host.Outcome State Fault Refusal :=
  .next (porstRelease bootsel stnaddr s)
/-- PFAIL_N_RELEASE (R402). -/
def execPfailNRelease (s : State) : Host.Outcome State Fault Refusal := .next (pfailRelease s)
/-- DEVICE_RESET (R372). -/
def execDeviceReset (bootsel : BitVec 2) (stnaddr : BitVec 5) (s : State) : Host.Outcome State Fault Refusal :=
  .next (deviceReset bootsel stnaddr s)
/-- XLINK_UP (R370). -/
def execXlinkUp (s : State) : Host.Outcome State Fault Refusal := .next (xlinkUp s)
/-- XLINK_TRAIN_TIMEOUT (R383). -/
def execXlinkTrainTimeout (s : State) : Host.Outcome State Fault Refusal := .next (xlinkTrainTimeout s)
/-- LPDDR_TRAINED (R370). -/
def execLpddrTrained (s : State) : Host.Outcome State Fault Refusal := .next (lpddrTrained s)
/-- CONTAINER_LOADED (R382). -/
def execContainerLoaded (s : State) : Host.Outcome State Fault Refusal := .next (containerLoaded s)
/-- STAGED_IMAGE_FOUND (R375). -/
def execStagedImageFound (s : State) : Host.Outcome State Fault Refusal := .next (stagedImage s)
/-- FIRMWARE_HANDOVER (R370). -/
def execFirmwareHandover (s : State) : Host.Outcome State Fault Refusal := .next (handover s)
/-- LPDDR_INIT_DONE (R370). -/
def execLpddrInitDone (s : State) : Host.Outcome State Fault Refusal := .next (lpddrDone s)
/-- BOOT_RUN (R370). -/
def execBootRun (s : State) : Host.Outcome State Fault Refusal := .next (bootRun s)
/-- ROM_WATCHDOG (R371). -/
def execRomWatchdog (s : State) : Host.Outcome State Fault Refusal := .next (romWatchdog s)
/-- INIT_WATCHDOG (R371). -/
def execInitWatchdog (s : State) : Host.Outcome State Fault Refusal := .next (initWatchdog s)
/-- BOOT_UNCONFIRMED (R384). -/
def execBootUnconfirmed (s : State) : Host.Outcome State Fault Refusal := .next (bootUnconfirmed s)
/-- FW_UPDATE_DONE (R393). -/
def execFwUpdateDone (s : State) : Host.Outcome State Fault Refusal := .next (fwUpdateDone s)
/-- DEV_BOOT_STATUS (R385). -/
def execDevBootStatus (c : CmdRef) (s : State) : Host.Outcome State Fault Refusal := .next (runCmd devBootStatusSpec c s)
/-- DEV_RESET (R395). -/
def execDevReset (c : CmdRef) (s : State) : Host.Outcome State Fault Refusal := .next (runCmd devResetSpec c s)
/-- DEV_CONFIRM_BOOT (R384). -/
def execDevConfirmBoot (c : CmdRef) (s : State) : Host.Outcome State Fault Refusal := .next (runCmd devConfirmBootSpec c s)
/-- DEV_LOAD_IMAGE (R388). -/
def execDevLoadImage (c : CmdRef) (s : State) : Host.Outcome State Fault Refusal := .next (runCmd devLoadImageSpec c s)
/-- DEV_UPDATE_FW (R393). -/
def execDevUpdateFw (c : CmdRef) (s : State) : Host.Outcome State Fault Refusal := .next (runCmd devUpdateFwSpec c s)
/-- SEC_ATTEST (R392). -/
def execSecAttest (c : CmdRef) (s : State) : Host.Outcome State Fault Refusal := .next (runCmd secAttestSpec c s)
/-- SEC_GET_CERT (R391). -/
def execSecGetCert (c : CmdRef) (s : State) : Host.Outcome State Fault Refusal := .next (runCmd secGetCertSpec c s)
/-- SEC_FUSE_STATUS (R380). -/
def execSecFuseStatus (c : CmdRef) (s : State) : Host.Outcome State Fault Refusal := .next (runCmd secFuseStatusSpec c s)
/-- SEC_SET_OWNER (R381). -/
def execSecSetOwner (c : CmdRef) (s : State) : Host.Outcome State Fault Refusal := .next (runCmd secSetOwnerSpec c s)
/-- SEC_REVOKE_OWNER (R379). -/
def execSecRevokeOwner (c : CmdRef) (s : State) : Host.Outcome State Fault Refusal := .next (runCmd secRevokeOwnerSpec c s)
/-- SEC_ADVANCE_SVN (R380). -/
def execSecAdvanceSvn (c : CmdRef) (s : State) : Host.Outcome State Fault Refusal := .next (runCmd secAdvanceSvnSpec c s)
/-- SEC_REVOKE_VENDOR (R378). -/
def execSecRevokeVendor (c : CmdRef) (s : State) : Host.Outcome State Fault Refusal := .next (runCmd secRevokeVendorSpec c s)

end Sys2Proof.Machine
end

