-- ==== Sys2Proof/Machine/BusCfg.lean ====
section
/-!
DEFINITION. bus.set_timing (R21, R302) and bus.configure_segment (R278, R286, R295), which sets the SGMII PHYs of its ports (R429).
-/
namespace Sys2Proof.Machine

/-- The cadence that a bus.set_timing payload sets: the periods of the state; the cadence that runs keeps its length. -/
def timingOf (p : List Byte) (s : State) : State :=
  { s with cad := { s.cad with
      ns := lget 31250 cadences (u8 p 0), round := u8 p 1, plan := u8 p 2, guardPer := u8 p 3
      configured := true } }

/-- The rules of R21. -/
def timingRules (c : CadSt) : Bool :=
  let pl := c.ns * c.plan
  let gd := c.ns * c.guardPer
  1 ≤ c.round && c.round ≤ 64 && 0 < c.plan && 0 < c.guardPer && c.round % c.plan = 0 && c.plan % c.guardPer = 0
    && 250000 ≤ pl && pl ≤ 64000000 && 125000 ≤ gd && gd ≤ 2000000

/-- Whether every committed share still fits the unit on which it stands (R302). -/
def sharesFit (s : State) : Bool :=
  let l := s.sch.shares
  (List.range l.length).all (fun i => let e := lget {} l i; fits s (l.eraseIdx i) s.qp.reserve e e.unit)

/-- bus.set_timing (R302). -/
def busSetTimingSpec : CmdSpec where
  opcode := 0x0301
  lenOk n _ := n = 8
  body c s :=
    let p := c.p
    let t := timingOf p s
    { bad := [(!zeroAt p 4 4 || 6 < u8 p 0 || !timingRules t.cad, .badArg), (!timingKept t (sensCfgs t) none, .outOfRange),
              (s.bus.any (fun g => g.2.state ≠ 0), .stateConflict), (!sharesFit t, .notSchedulable)]
      act := fun u => { s := timingOf p u } }

/-- A segment as a bus.configure_segment payload leaves it. -/
def segmentOf (p : List Byte) (g : Segment) : Segment :=
  { g with
    configured := true, portA := u8 p 0, portB := u8 p 1, portMode := u8 p 2, addrMode := u8 p 3, etherType := u16 p 4
    guardNs := u16 p 6, applyCfg := u32 p 8, expect := u8 p 12, bank0 := [columnZero (u8 p 2)], bank1 := [] }

/-- Whether a port is a line port of the peloton, or belongs to another segment (R278). -/
def portTaken (s : State) (k p : Nat) : Bool :=
  (s.pel.configured && (s.pel.upPort = p || s.pel.downPort = p))
    || (List.range 8).any (fun j => j ≠ k && (segOf s j).configured && ((segOf s j).portA = p || (segOf s j).portB = p))

/-- bus.configure_segment (R278). -/
def busConfigureSegmentSpec : CmdSpec where
  opcode := 0x0302
  lenOk n _ := n = 24
  objOk := objBelow 8
  stateOf := segState
  body c s :=
    let p := c.p
    let k := c.h.object
    let g := segOf s k
    let ring := u8 p 1 ≠ 0xFF
    let ap := u32 p 8
    let t := { setSeg k (segmentOf p g) s with cad := { s.cad with configured := true } }
    { bad := [(4 < u8 p 2 || 1 < u8 p 3 || !zeroAt p 13 11 || (ring && u8 p 0 = u8 p 1), .badArg),
              (15 < u8 p 0 || (ring && 15 < u8 p 1) || u16 p 4 < 0x0600 || [0x0800, 0x0806, 0x86DD, 0x88F7].contains (u16 p 4)
                || u16 p 6 < 100 || 2000 < u16 p 6 || (ap ≠ 0 && (ap < 500 || s.cad.ns < 2 * ap)) || !timingKept t (sensCfgs t) none, .outOfRange),
              ((g.state ≠ 0 && g.state ≠ 2) || portTaken s k (u8 p 0) || (ring && portTaken s k (u8 p 1)), .stateConflict),
              ((match g.start with
                | some o => o.mb ≠ 0xFF
                | none => false), .objectBusy)]
      act := fun u =>
        let v := { setSeg k (segmentOf p (segOf u k)) u with cad := { u.cad with configured := true } }
        { s := if u8 p 2 ≠ 2 then v else if ring then phySetup 0 (u8 p 1) (phySetup 0 (u8 p 0) v) else phySetup 0 (u8 p 0) v } }

/-! Rows. -/

/-- BUS_SET_TIMING (R302). -/
def execBusSetTiming (c : CmdRef) (s : State) : Host.Outcome State Fault Refusal := .next (runCmd busSetTimingSpec c s)
/-- BUS_CONFIGURE_SEGMENT (R278). -/
def execBusConfigureSegment (c : CmdRef) (s : State) : Host.Outcome State Fault Refusal := .next (runCmd busConfigureSegmentSpec c s)

end Sys2Proof.Machine
end

