-- ==== Sys2Proof/Machine/Pc.lean ====
section
/-!
DEFINITION. Performance counters: the latch (R409, R410), dumps (R411 to R414), reprogramming (R415) and the pc
commands.
-/
namespace Sys2Proof.Machine

/-- First spoke of the row of the table "Spokes" in which spoke `i` lies. -/
def spokeRow (i : Nat) : Nat :=
  ([0, 1, 5, 10, 42, 106, 110, 112, 128, 132, 133, 135, 136, 137, 141, 142].filter (· ≤ i)).getLast?.getD 0

/-- Spoke group (R406). -/
def spokeGroup (i : Nat) : Nat :=
  if i = 0 then 0 else if i ≤ 4 then 1 else if i ≤ 9 then 2 else if i ≤ 41 then 3 + (i - 10) / 8
  else if i ≤ 105 then 7 + (i - 42) / 8 else if i ≤ 109 then 15 else if i ≤ 111 then 16
  else if i ≤ 127 then 17 else if i ≤ 131 then 18 else if i = 132 then 19 else if i ≤ 134 then 20
  else if i = 135 then 21 else if i = 136 then 22 else if i ≤ 140 then 23 else if i = 141 then 24 else 25

/-- Whether a spoke lies on die F. -/
def spokeDieF (i : Nat) : Bool := 136 ≤ i

/-- OUT_OF_SERVICE of a spoke's unit (R38, R366). -/
def spokeOut (s : State) (i : Nat) : Bool :=
  (10 ≤ i && i ≤ 41 && s.tilesOut.getLsbD (i - 10)) || (42 ≤ i && i ≤ 105 && s.lanesOut.getLsbD (i - 42))

/-- Island clock in kHz (table "Clock islands"); 0 for LINK, whose recovered clock has no stated frequency. -/
def islandKHz (i : Nat) : Nat :=
  lget 0 [0, 500000, 1000000, 800000, 1000000, 1200000, 1000000, 800000, 312500, 312500, 250000, 800000, 0,
    400000, 100000, 200000, 100000] (spokeKind i)

/-- Events whose occurrences no command of the table determines: their count over a latch period is free. -/
def openEvents : List Nat :=
  [0x0106, 0x0107, 0x0108, 0x0203, 0x0204, 0x0206, 0x0602, 0x0705, 0x0907, 0x0B01, 0x0B02, 0x0B03, 0x0B04,
   0x0C01, 0x0C07, 0x1003]

/-- What counter `j` of spoke `i` gains from clocks and open events since the last latch. -/
def latchGain (s : State) (i j sl dt : Nat) : Nat :=
  let f := (Config.freeValue (s.free + 8 * i + j)).toNat % 2 ^ 31
  if sl = 1 then (if islandKHz i = 0 then f else dt * islandKHz i / 1000000)
  else if openEvents.contains sl then f else 0

/-- Add the gains of a spoke's eight counters. -/
def addGains (s : State) (i dt : Nat) : Nat → List Nat → List Word → BitVec 8 → List Word × BitVec 8
  | j, sl :: sr, c :: cr, o =>
    let (cs, o') := addGains s i dt (j + 1) sr cr o
    let g := latchGain s i j sl dt
    ((c + BitVec.ofNat 32 g) :: cs, if 2 ^ 32 ≤ c.toNat + g then o' ||| BitVec.twoPow 8 j else o')
  | _, _, c, o => (c, o)

/-- Latch one spoke (R410) and put its pending selects in force (R415). -/
def latchSpoke (s : State) (i dt : Nat) (p : Spoke) : Spoke :=
  let (cs, o) := addGains s i dt 0 p.sel p.cnt p.ovf
  let re := BitVec.ofNat 8 (bitsN (p.next.map Option.isSome))
  { p with
    copyCnt := cs, copyOvf := o ||| p.carryOvf, copyReprog := re, ovf := 0,
    cnt := (cs.zip p.next).map (fun e => if e.2.isSome then 0 else e.1),
    sel := (p.sel.zip p.next).map (fun e => e.2.getD e.1),
    next := List.replicate 8 none,
    gen := if re = 0 then p.gen else p.gen + 1 }

/-- P in cadences (R409), by the period and cadence in force. -/
def hubP (s : State) : Nat := (s.hub.periodInForce * 1000 + (s.hub.cadInForce - 1)) / s.hub.cadInForce

/-- Unread dumps (R412). -/
def unread (s : State) : Nat := (s.hub.wr + 524288 - s.hub.rd) % 524288 / 8192

/-- The next latch instant (R409): a cadence start, or a multiple of P × 31,250 ns before the bus is configured. -/
def nextLatch (s : State) : Nat :=
  let p := max 1 (hubP s)
  if s.cad.configured && s.cad.started then s.cad.start + (p - s.cad.count.toNat % p) * s.cad.ns
  else ceilTo (p * 31250) (max (now s) (if s.hub.latched then s.hub.lastLatch + 1 else 0))

/-- Whether a latch falls at the present point: the cadence just begun has a count that P divides. -/
def latchDue (s : State) : Bool :=
  if s.cad.configured && s.cad.started then
    s.cad.phase = 0 && s.cad.count.toNat % max 1 (hubP s) = 0 && !(s.hub.latched && s.hub.lastLatch = s.cad.start)
  else true

/-- A latch instant (R409, R410, R413, R415). -/
def latch (s : State) : State :=
  if !bar2Live s || !latchDue s then s else
  let t := if s.cad.configured && s.cad.started then s.cad.start else nextLatch s
  let s1 := advanceTo t s
  let dt := t - s.hub.lastLatch
  let s2 := (List.range 143).foldl (fun u i => setSpoke i (latchSpoke s1 i dt (spokeOf s1 i)) u) s1
  let full := s.hub.enable && unread s = 63
  { s2 with
    free := s1.free + 1144
    hub := { s2.hub with
      latchNo := s.hub.latchNo + 1, lastLatch := t, latched := true,
      skipped := if full then s.hub.skipped + 1 else s.hub.skipped,
      dumpDue := s.hub.enable && !full, latchTime := t, latchCad := s.cad.count.toNat, latchEpoch := s.time.epoch,
      latchP := hubP s,
      periodInForce := s.hub.period, cadInForce := if s.cad.configured then s.cad.ns else 31250 } }

/-- A spoke record of a dump (table "Spoke record"). -/
def spokeRecord (s : State) (valid : Bool) (i : Nat) : List Byte :=
  let p := spokeOf s i
  let bad := spokeDieF i && !valid
  fields [(2, i), (1, if bad then 0 else p.copyOvf.toNat), (1, p.copyReprog.toNat),
    (1, flagAt bad 0 + flagAt (spokeOut s i) 1), (1, p.gen.toNat), (2, 0)]
  ++ (p.copyCnt.map (fun c => leBytes 4 (if bad then 0 else c.toNat))).flatten

/-- The dump header (table "Dump header"). -/
def dumpHeader (s : State) (valid : Bool) : List Byte :=
  fields [(4, s.hub.latchNo.toNat), (2, 143), (2, 40), (8, s.hub.latchTime), (4, s.hub.latchCad),
    (2, s.hub.latchEpoch.toNat), (2, b2n (!valid)), (4, s.hub.skipped), (4, s.hub.latchP),
    (4, s.host.usrGrant.toNat), (28, 0)]

/-- Whether the dump of the last latch carries a sticky bit. -/
def dumpOverflow (s : State) (valid : Bool) : Bool :=
  (List.range 143).any (fun i => (valid || !spokeDieF i) && (spokeOf s i).copyOvf ≠ 0)

/-- The hub writes a dump (R411, R412). -/
def hubDump (arrived : Bool) (s : State) : State :=
  if !bar2Live s || !s.hub.dumpDue then s else
  let valid := arrived && xlinkCarries s
  let body := (List.range 143).flatMap (spokeRecord s valid)
  let bytes := dumpHeader s valid ++ body ++ List.replicate (8192 - 64 - 5720) 0
  let due := s.hub.latchTime + (if s.cad.configured then s.cad.ns else 31250) * 9 / 10
  let s1 := bar2Write (0x180000 + s.hub.wr) bytes (if arrived then s else advanceTo due s)
  let s2 := if s.hub.mirrorEn then emit .dma (s.hub.mirror.toNat + s.hub.wr) bytes s1 else s1
  let s3 := (List.range 7).foldl (fun u j =>
    let i := 136 + j
    setSpoke i { spokeOf u i with carryOvf := if valid then 0 else (spokeOf u i).copyOvf } u) s2
  let s4 := { s3 with hub := { s3.hub with
    wr := (s.hub.wr + 8192) % 524288, seq := s.hub.latchNo, skipped := 0, dumpDue := false,
    grants := tset 0 s.hub.grants (s.hub.wr / 8192) s.host.usrGrant } }
  raiseIf (48 < unread s4) 97 (raiseIf (dumpOverflow s valid) 98 (raise 96 s4))

/-- A mirror write completes with an error (R414). -/
def hubMirrorErr (s : State) : State :=
  if s.hub.mirrorEn then raise 99 { s with hub := { s.hub with mirrorEn := false } } else s

/-- Whether a spoke offers an event code (R408). -/
def selOffered (i c : Nat) : Bool :=
  c ≤ 3 || (c / 256 = spokeKind i && 1 ≤ c % 256 && c % 256 ≤ kindEvents (spokeKind i))

/-- pc.select (R415). -/
def pcSelectSpec : CmdSpec where
  opcode := 0x1101
  lenOk n _ := n = 20
  objOk o _ := o ≤ 142
  body c s :=
    let i := c.h.object
    let named := (List.range 8).filter (fun j => bitOf (u8 c.p 0) j)
    { bad := [(u8 c.p 0 = 0 || !zeroAt c.p 1 3, .badArg),
              (named.any (fun j => !selOffered i (u16 c.p (4 + 2 * j))), .outOfRange)]
      act := fun s1 =>
        let p := spokeOf s1 i
        let nx := named.foldl (fun l j => lset l j (some (u16 c.p (4 + 2 * j)))) p.next
        { s := setSpoke i { p with next := nx } s1, res := leBytes 8 (nextLatch s) } }

/-- pc.spoke_info (table "pc.spoke_info result"). -/
def pcSpokeInfoSpec : CmdSpec where
  opcode := 0x1102
  objOk o _ := o ≤ 142
  kick := true
  inFault _ := true
  body c s :=
    let i := c.h.object
    let p := spokeOf s i
    { act := fun s1 =>
        { s := s1
          res := fields [(1, spokeKind i), (1, spokeGroup i), (1, i - spokeRow i),
              (1, bitsN (p.next.map Option.isSome)), (1, p.gen.toNat),
              (1, flagAt (spokeOut s i) 0 + flagAt (spokeDieF i) 1), (2, 0)]
            ++ (p.sel.map (leBytes 2)).flatten ++ ((p.sel.zip p.next).map (fun e => leBytes 2 (e.2.getD e.1))).flatten } }

/-- PC_SELECT (R415). -/
def execPcSelect (c : CmdRef) (s : State) : Host.Outcome State Fault Refusal := .next (runCmd pcSelectSpec c s)
/-- PC_SPOKE_INFO (R408). -/
def execPcSpokeInfo (c : CmdRef) (s : State) : Host.Outcome State Fault Refusal := .next (runCmd pcSpokeInfoSpec c s)
/-- LATCH_INSTANT (R410). -/
def execLatchInstant (s : State) : Host.Outcome State Fault Refusal := .next (latch s)
/-- HUB_DUMP (R411). -/
def execHubDump (dieF : Bool) (s : State) : Host.Outcome State Fault Refusal := .next (hubDump dieF s)
/-- HUB_MIRROR_ERR (R414). -/
def execHubMirrorErr (s : State) : Host.Outcome State Fault Refusal := .next (hubMirrorErr s)

end Sys2Proof.Machine
end

