-- ==== Sys2Proof/Machine/Regs.lean ====
section
/-!
DEFINITION. What the host reads: BAR0 registers (R41, R57), the status mirror (R58) and BAR2 (R43, R44, R375).
-/
namespace Sys2Proof.Machine

/-- DEVSTAT (table "DEVSTAT fields"). -/
def devstat (s : State) : Nat :=
  let d := s.dev
  d.mode.code + flagAt d.fwConfirmed 5 + flagAt s.xl.up 6 + flagAt s.xl.lost 7 + flagAt d.faultN 8 + flagAt d.pfail 9
    + flagAt d.thermWarn 10 + flagAt d.mbReady 11
    + (if d.mode = .run || d.mode = .fault then flagAt (pelSync s) 16 + flagAt (isRef s) 17 + s.pel.addr % 32 * 2 ^ 18 else 0)

/-- The fields of the status mirror (table "Status mirror"), SEQ apart. -/
def mirrorFields (s : State) : List Byte :=
  fields ([(4, devstat s), (8, now s), (2, s.time.epoch.toNat), (2, 0), (4, s.cad.count.toNat)]
    ++ (List.range 16).map (fun g => (1, (grpOf s g).state.code))
    ++ (List.range 16).map (fun g => (2, 128 * (grpOf s g).sGov))
    ++ (List.range 128).map (fun a => (1, (axisOf s a).state.code)))

/-- The update of the status mirror at a compute end (R58): SEQ is even again when it is over. -/
def mirrorUpdate (s : State) : State :=
  let q := s.host.mirrorSeq + 2
  bar2Write 0x140000 (leBytes 4 q.toNat ++ mirrorFields s) { s with host := { s.host with mirrorSeq := q } }

/-- The status mirror in KICKSTAND (R375): as of the last multiple of 31.25 µs of long time, with no cadence, group or axis. -/
def kickMirror (s : State) : List Byte :=
  let q := now s / 31250
  fields [(4, 2 * q), (4, devstat s), (8, 31250 * q), (2, s.time.epoch.toNat)]

/-- A byte of the status mirror. -/
def mirrorByte (s : State) (o : Nat) : Byte := if s.dev.mode = .kickstand then lget 0 (kickMirror s) o else mget s.host.bar2 (0x140000 + o)

/-- The 64 bytes of a host stream header (table "Host stream header"). -/
def strmHeader (h : Stream) : List Byte :=
  fields [(4, h.prod), (4, h.cons), (4, h.count), (4, h.lowWater), (4, strmStatus h), (4, h.underruns.toNat), (4, h.discards.toNat),
    (4, 0), (8, h.ringAddr), (8, h.lastStamp.toNat), (16, 0)]

/-- A byte of trace memory: the rows of the session that holds it; a poisoned one reads as R197 says, one not written as 0. -/
def traceByte (s : State) (o : Nat) : Byte :=
  match (List.range 8).find? (fun k => let x := sesOf s k; 4096 * x.base ≤ o && o < 4096 * (x.base + x.units)) with
  | none => 0
  | some k =>
    let x := sesOf s k
    let c := max 1 (tChans x.cfg)
    let i := (o - 4096 * x.base) / 4
    if x.length * c ≤ i then 0
    else
      let v := if x.poisoned.contains (i / c, i % c) then 0x80000000
        else match tget none x.rows (i / c) with
          | some r => sn 4 (lget 0 r.2 (i % c))
          | none => 0
      lget 0 (leBytes 4 v) (o % 4)

/-- A byte of BAR2 (R43, R375): no read has a side effect. -/
def bar2Byte (s : State) (a : Nat) : Byte :=
  if stagingMapped s then mget s.host.staging a
  else if !bar2Live s then 0
  else if a < 0x140000 then mget s.host.bar2 a
  else if a < 0x141000 then mirrorByte s (a - 0x140000)
  else if a < 0x141200 then lget 0 (strmHeader (strmOf s ((a - 0x141000) / 64))) (a % 64)
  else if a < 0x180000 then 0
  else if a < 0x400000 then mget s.host.bar2 a
  else if a < 0xC00000 then traceByte s (a - 0x400000)
  else if a < 0xE00000 then lget 0 (signalBytes (signalOf s ((a - 0xC00000) / 16))) (a % 16)
  else 0

/-- A byte of the selected block of the dump ring: dump headers and spokes whose group the dump's grant leaves out read 0 (R57). -/
def dumpWinByte (s : State) (i : Nat) : Byte :=
  let a := 1024 * s.host.usrWin.toNat + i
  let o := a % 8192
  let grant := tget 0 s.hub.grants (a / 8192)
  if o < 64 || 5784 ≤ o then 0
  else if grant.getLsbD (spokeGroup ((o - 64) / 40)) then mget s.host.bar2 (0x180000 + a) else 0

/-- The mailbox registers (table "Mailbox m registers"). -/
def mbRead (s : State) (m r : Nat) : Nat :=
  let b := mbOf s m
  let mask (v : Slot) : Nat := bitsN ((List.range 32).map (fun k => decide (slotOf s m k = v)))
  if r = 0x004 then (if s.dev.mbReady then ((List.range 32).filter (fun k => slotOf s m k = .free)).length else 0)
  else if r = 0x008 then mask .posted
  else if r = 0x00C then mask .done
  else if r = 0x010 then flagAt b.overrun 0 + flagAt b.violation 1 + b.lastOverrun.toNat * 2 ^ 8 + b.overrunCount.toNat * 2 ^ 16
  else if m = 0 && r = 0x100 then s.host.usrGrant.toNat
  else if m = 0 && r = 0x104 then b2n s.host.usrEn
  else 0

/-- Word `i` of a 64-bit value. -/
def half (i : Nat) (v : Nat) : Nat := if i = 0 then v % 2 ^ 32 else v / 2 ^ 32 % 2 ^ 32

/-- An aligned 32-bit read of BAR0 at offset `o` (R41); what the read of TIME_LO latches is TIME_LO_READ's. -/
def bar0Read (s : State) (o : Nat) : Nat :=
  let r := o % 0x1000
  if s.dev.mode = .reset then 0
  else if 0x8000 ≤ o then mbRead s ((o - 0x8000) / 0x1000) r
  else if 0x7000 ≤ o then
    if !s.host.usrEn then 0
    else if r < 0x800 then leNat ((List.range 4).map (fun i => mirrorByte s (r + i)))
    else if r = 0x800 then s.host.usrWin.toNat
    else if r = 0x804 then s.hub.wr
    else if r = 0x808 then s.hub.seq.toNat
    else if r = 0x80C then s.host.usrGrant.toNat
    else if 0xC00 ≤ r then leNat ((List.range 4).map (fun i => dumpWinByte s (r - 0xC00 + i)))
    else 0
  else if 0x6000 ≤ o then 0
  else if o = 0x5000 then s.host.pba.toNat
  else if 0x5000 ≤ o then 0
  else if 0x4000 ≤ o then (if r < 0x200 then leNat (mread s.host.msix r 4) else 0)
  else if 0x3000 ≤ o then
    if !hubLive s then 0
    else lget 0 [flagAt s.hub.enable 0 + flagAt s.hub.mirrorEn 1, s.hub.period, s.hub.seq.toNat, s.hub.wr, s.hub.rd, 0,
      half 0 s.hub.mirror.toNat, half 1 s.hub.mirror.toNat] (r / 4)
  else if 0x2000 ≤ o then
    lget 0 [half 0 (now s), half 1 (now s), s.time.hiSnap.toNat, s.time.epoch.toNat, half 0 s.time.plant.toNat, half 1 s.time.plant.toNat,
      0, half 0 s.time.latch.toNat, half 1 s.time.latch.toNat, half 0 s.time.inc.toNat, half 1 s.time.inc.toNat] (r / 4)
  else if 0x1000 ≤ o then
    let w (v : BitVec 128) : Nat := v.toNat / 2 ^ (32 * (r / 4 % 4)) % 2 ^ 32
    if r < 0x10 then w s.evt.pend else if r < 0x20 then w s.evt.mask else if r < 0x30 then w s.evt.lost
    else if 0x100 ≤ r && r < 0x180 then leNat ((List.range 4).map (fun i => lget 0 s.evt.map (r - 0x100 + i)))
    else 0
  else lget 0 [0x1612B000, u32 s.dev.fwHdr 12, devstat s, s.dev.reason.toNat + s.dev.whyAttempts.toNat * 2 ^ 8, s.dev.faultCause.toNat,
    half 0 Config.uid.toNat, half 1 Config.uid.toNat, if s.cad.configured then s.cad.ns else 0] (r / 4)

/-- A read of `n` bytes of BAR0 at offset `o` (R41): aligned 32-bit accesses, and the aligned 64-bit read of TIME_LO and TIME_HI,
whose halves are of one instant; any other width or alignment returns 0. -/
def bar0Access (s : State) (o n : Nat) : Nat :=
  if n = 4 && o % 4 = 0 then bar0Read s o
  else if n = 8 && o = 0x2000 && s.dev.mode ≠ .reset then now s
  else 0

/-- The fixed bytes of the configuration header (table "PCIe function configuration"): Vendor and Device ID, the capability list bit,
revision and class code, and the types of BAR0 (64-bit) and BAR2 (64-bit, prefetchable). -/
def cfgFixed : List Byte :=
  fields [(2, 0x1FA7), (2, 0x6128), (2, 0), (2, 0x0010), (1, 0xB0), (3, 0x118000), (4, 0), (8, 0x4), (8, 0xC)]

/-- A byte of configuration space (R39, R430): the header with its writable bits, the capability pointer, the MSI-X capability (32
vectors, table at 0x4000 and PBA at 0x5000 of BAR0), and 0 for the places that the manual does not describe. -/
def cfgByte (s : State) (o : Nat) : Byte :=
  let cap := Config.msixCap
  if s.dev.mode = .reset then 0
  else if cap ≤ o && o < cap + 12 then
    lget 0 (fields [(1, 0x11), (1, 0), (2, 31 + flagAt s.host.msixMask 14 + flagAt s.host.msixOn 15), (4, 0x4000), (4, 0x5000)]) (o - cap)
  else if o = 0x34 then BitVec.ofNat 8 cap
  else lget 0 cfgFixed o ||| mget s.host.cfg o

end Sys2Proof.Machine
end

