-- ==== Sys2Proof/Machine/Cadence.lean ====
section
/-!
DEFINITION. The clock of the cadence (R21 to R27): cadence start, feedback cutoff, compute end, planning boundary, verdict deadline
and round start; timed actions that fire (R262); and missed task deadlines (R248).
-/
namespace Sys2Proof.Machine

/-- Carry out the effects that are due at `t` and meet a condition, in order of admission (R28). -/
def runEffs (t : Nat) (p : Eff → Bool) (f : Eff → State → State) (s : State) : State :=
  let d := s.eff.filter (fun e => p e && e.due ≤ t)
  d.foldl (fun u e => f e u) { s with eff := s.eff.filter (fun e => !(p e && e.due ≤ t)) }

/-- Effects of listed opcodes. -/
def opIn (l : List Nat) (e : Eff) : Bool := l.contains e.opcode

/-- Whether the cadence runs: from RUN on, in FAULT too (R362, R370). -/
def cadenceRuns (s : State) : Bool := s.dev.mode = .run || s.dev.mode = .fault

/-- The instant of the next cadence start, a multiple of the cadence in force (R304). -/
def nextCadence (s : State) : Nat :=
  ceilTo s.cad.ns (if s.cad.started then s.cad.start + s.cad.len else now s)

/-- The opcodes of `loopEff`. -/
def writeOps : List Nat := [0x0B02, 0x0B03, 0x0B04, 0x0B05, 0x0B06]

/-- Whether an admitted command can still be carried out as its kind defines, as its object stands at its effect time. Motion
commands report for themselves (R77), and stops are never barred (R76). -/
def carriedOut (e : Eff) (s : State) : Bool :=
  let x := axisOf s e.object
  let g := grpOf s e.object
  let p := stpOf s e.object
  let still := x.state = .closed && x.cmdV = 0
  match e.opcode with
  | 0x0701 => g.state = .idle
  | 0x0702 => g.state = .idle
  | 0x0703 => g.state = .ready || g.state = .hold
  | 0x0705 => g.state = .moving || g.state = .hold
  | 0x0708 => mayClear s e.object
  | 0x0802 => x.state = .disabled && x.enable.isNone
  | 0x0803 => x.state = .held || still
  | 0x0804 => x.state = .held || x.state = .closed
  | 0x0805 => still
  | 0x0806 => x.state = .fault
  | 0x0807 => x.state = .closed && groupOf s e.object = none
  | 0x0A03 => g.mpc
  | 0x0B02 | 0x0B03 | 0x0B04 => x.state = .held || x.state = .disabled
  | 0x0B05 => if x.loop.liveTune then x.state ≠ .fault else x.state = .held || x.state = .disabled
  | 0x0C03 => (sesOf s e.object).state = .stopped && (sesOf s e.object).length ≠ 0
  | 0x1002 => p.state = .disabled
  | 0x1003 => p.state = .ready
  | 0x1005 => p.state = .moving || p.state = .homing || p.state = .stopping
  | 0x1006 => p.state = .ready
  | 0x1008 => p.state = .safe && s.io.safe = 0
  | _ => true

/-- The report of an admitted command that cannot be carried out (R3, R36): a record of severity warning with the object, the
promise time, the tag and the opcode, and the event of the group or step axis concerned. -/
def brokenPromise (e : Eff) (s : State) : State :=
  let n := e.object
  let rec' (src : Nat) : State := journal src 0x00 1 n e.due (fields [(2, e.tag), (2, e.opcode)]) s
  match e.opcode / 256 with
  | 0x07 => raise (16 + n) (rec' 0x09)
  | 0x0A => raise (16 + n) (rec' 0x0A)
  | 0x10 => stpEvent n 0x08 (rec' 0x11)
  | 0x0C => rec' 0x12
  | _ => (match groupOf s n with
    | some g => raise (16 + g) (rec' 0x08)
    | none => rec' 0x08)

/-- An effect, or the report that it is not carried out. -/
def keepPromise (f : Eff → State → State) (e : Eff) (s : State) : State :=
  if carriedOut e s then f e s else brokenPromise e (f e s)

/-! Cadence start. -/

/-- The next cadence begins (R21); an earlier one that has not reached its compute end counts as missed (R371). -/
def beginCadence (s : State) : State :=
  let t := nextCadence s
  let c := s.cad
  advanceTo t { s with cad := { c with
    started := true, start := t, len := c.ns, phase := 0, count := if c.started then c.count + 1 else c.count, misses := c.misses + 1 } }

/-- The setpoint record of a frozen device: ENABLE_OP 0, STO_REQUEST 1, the last POSITION, VELOCITY and TORQUE 0 (R362);
no brake is released. -/
def frozenAxis (x : AxisSt) : AxisSt :=
  { x with state := .disabled, enable := none, sto := true, frPulse := false, loop := { x.loop with vff := 0, tout := 0 }
           map := { x.map with last := { x.map.last with status := 0 } } }

/-- The frames that a frozen device goes on sending on segments in RUN (R362). -/
def frozenFrames (s : State) : State :=
  forNat ((tkeys s.bus).filter (fun k => (segOf s k).state = 3)) (fun k t =>
    let v := cadenceFrame k { t with axes := t.axes.map (fun e => (e.1, frozenAxis e.2)) }
    let cnt (a : Nat) : Nat := (axisOf v a).map.spCnt
    { v with axes := t.axes.map (fun e => (e.1, { e.2 with map := { e.2.map with spCnt := cnt e.1 } })) }) s

/-- Peloton, clock servo, slew and plant steps at a cadence start (R267 to R269, R313, R321). -/
def timeCadence (s : State) : State :=
  let t := s.cad.start
  slewCadence (gmCadence (runEffs t (opIn [0x0203]) setPlantEff (pelCadence (runEffs t (opIn [0x0403]) (fun _ => pelStopEff) s))))

/-- The transitions that records and standstill bring (R66, R72): a group's depend on its members' states of the last compute end. -/
def conditionsCadence (s : State) : State :=
  forNat (tkeys s.axes) (fun a t => driveFault a (axisConditions a (modAxis a (fun x => { x with frPulse := false }) t)))
    (forNat (tkeys s.grps) groupConditions s)

/-- The faults of a cadence start (R66, R72, R73, R364, R368). -/
def faultsCadence (s : State) : State :=
  let ax := (tkeys s.axes).filter (fun a => (axisOf s a).faults ≠ [])
  let new := ax.filter (fun a => (axisOf s a).state ≠ .fault)
  let s1 := forNat ax faultAxis s
  let s2 := forNat (new.filter (fun a => groupOf s1 a = none)) ungroupedFaultStop s1
  forNat (List.range 16) (fun g t =>
    let x := grpOf t g
    let mine := new.filter (fun a => (members t g).contains a)
    if x.state = .fault then
      let cat := x.stopCat.getD x.faultStop
      forNat mine (fun a u => modAxis a (fun y => { y with
        stopCat := some cat, sto := y.sto || cat = 0, faultEnable := y.faultEnable && cat ≠ 0 }) u)
        (if x.fault then modGrp g (fun y => { y with fault := false }) t else t)
    else if x.fault || mine ≠ [] then faultGroup g t
    else t) s2

/-- The stop requests of one axis; those of a grouped axis go to its group. -/
def takeAxisStops (a : Nat) (s : State) : State :=
  match (axisOf s a).stops with
  | [] => s
  | c :: r => stopAxis true (r.foldl min c) a (stopInj a (modAxis a (fun x => { x with stops := [] }) s))

/-- The stop requests of one group, with the injections on its members. -/
def takeGroupStops (g : Nat) (s : State) : State :=
  takeStops g (if (grpOf s g).stops = [] then s else forNat (members s g) stopInj s)

/-- Stop requests and stop commands (R75, R76). -/
def stopsCadence (s : State) : State :=
  let s1 := forNat (tkeys s.axes) takeAxisStops (forNat (List.range 16) takeGroupStops s)
  runEffs s.cad.start (opIn [0x0809, 0x070A]) (fun e t =>
    if e.opcode = 0x0809 then stopAxis true (u8 e.p 0) e.object (stopInj e.object t)
    else stopGroup (u8 e.p 0) e.object (forNat (members t e.object) stopInj t)) s1

/-- A change of limits on a member replans its group's moves, and the motion of the other axis of its joint (R78, R102). -/
def limitsFollow (a : Nat) (s : State) : State :=
  match groupOf s a with
  | none => s
  | some g =>
    let m := (grpOf s g).model
    let others := ((List.range (mJoints m)).flatMap (fun i =>
      if jDual m i && (jAxes m i).contains a then (jAxes m i).filter (· ≠ a) else []))
    replanMoves g (forNat others (fun b t => modAxis b (replanAxis (genLim t b) t.cad.start) t) s)

/-- axis.set_limits at its cadence start (R102). -/
def limitsEff (e : Eff) (s : State) : State := limitsFollow e.object (axisEff e s)

/-- The limits that wait by R103 take over, and what follows from it. -/
def limitsTakeover (a : Nat) (s : State) : State :=
  let t := deferredLimits a s
  if (axisOf s a).deferred.isSome && (axisOf t a).deferred.isNone then limitsFollow a t else t

/-- Coefficients and limits come before the commands that change states (R181): the writes that can be carried out as the axes
stand. -/
def writesCadence (s : State) : State :=
  let t := s.cad.start
  runEffs t (opIn [0x0808]) limitsEff (runEffs t (fun e => opIn writeOps e && carriedOut e s) (loopEff t) s)

/-- The other commands of a cadence start, motion apart. -/
def stateEff (e : Eff) (s : State) : State :=
  match e.opcode with
  | 0x0701 => grpConfigureEff e s
  | 0x0702 => grpEnableEff e s
  | 0x0703 => grpDisableEff e s
  | 0x0708 => grpClearEff e s
  | 0x0A03 => qpAssignEff e s
  | 0x0507 => flowLimitEff e s
  | 0x0603 => sigWriteEff e s
  | 0x0604 => sigWatchEff e s
  | 0x0C03 => traceArmEff e s
  | 0x0C05 => traceStopEff e s
  | 0x0C09 => injectStopEff e s
  | 0x0304 => busEff e s
  | 0x0309 => busEff e s
  | 0x0F05 => ioReenableEff e s
  | 0x0F06 => ioReleaseEff s
  | 0x0F07 => ioStoResetEff e s
  | _ => axisEff e s

/-- The opcodes of `stateEff`. -/
def stateOps : List Nat :=
  [0x0701, 0x0702, 0x0703, 0x0708, 0x0A03, 0x0507, 0x0603, 0x0604, 0x0C03, 0x0C05, 0x0C09, 0x0304, 0x0309, 0x0F05, 0x0F06, 0x0F07,
   0x0802, 0x0803, 0x0804, 0x0805, 0x0806]

/-- The motion commands of a cadence start (R75). -/
def motionEff (e : Eff) (s : State) : State :=
  match e.opcode with
  | 0x0704 => moveEff e s
  | 0x0706 => grpResumeEff e s
  | 0x0707 => grpHomeEff e s
  | 0x0902 => detachStrm e.object s
  | 0x0903 => strmAnchorEff e s
  | _ => keepPromise axisEff e s

/-- Whether an effect is one of motion at a cadence start: a pose or a target of an MPC group is taken at the snapshot. -/
def motionOp (s : State) (e : Eff) : Bool :=
  opIn [0x0706, 0x0707, 0x0902, 0x0903, 0x0807] e || (e.opcode = 0x0704 && u8 e.p 0 = 0 && !(grpOf s e.object).mpc)

/-- The events of a cadence start in the order of R75, and what follows from them. -/
def eventsCadence (s : State) : State :=
  let t := s.cad.start
  let s1 := writesCadence (stopsCadence (faultsCadence (conditionsCadence s)))
  let s2 := runEffs t (opIn writeOps) (keepPromise (loopEff t))
    (runEffs t (opIn stateOps) (keepPromise stateEff) (runEffs t (opIn [0x0705]) (keepPromise grpHoldEff) s1))
  let s3 := forNat (List.range 16) poseMoves (runEffs t (motionOp s2) motionEff s2)
  forNat (tkeys s3.axes) limitsTakeover (forNat (tkeys s3.grps) homeCadence (strmTakes s3))

/-- Field outputs, step segments and frames of a cadence start (R21). -/
def outputsCadence (s : State) : State :=
  let t := s.cad.start
  let s1 := runEffs t (opIn [0x1002, 0x1003, 0x1005, 0x1006, 0x1007, 0x1008]) (keepPromise (stpEff t)) (ioCadence s)
  busCadence (stpCadence t s.cad.ns s1)

/-- CADENCE_START (R21, R75). -/
def cadenceStart (s : State) : State :=
  if !cadenceRuns s then s
  else
    let s1 := beginCadence s
    let s2 := { s1 with xl := { s1.xl with toF := { s1.xl.toF with replaysCad := 0 }, toM := { s1.xl.toM with replaysCad := 0 } } }
    if s.dev.frozen then frozenFrames s2
    else outputsCadence (injCadence (eventsCadence (timeCadence s2)))

/-! Feedback cutoff. -/

/-- One cadence of a group's interpolator (R109, R111, R117). An interpolation that missed its deadline leaves the members as they
were (R248). -/
def groupCutoff (g : Nat) (s : State) : State :=
  let x := grpOf s g
  if !x.configured then s
  else if x.interpMissed then modGrp g (fun y => { y with interpMissed := false }) s
  else
    let s1 := count 106 0x0601 (modGrp g (fun y => { y with interpMisses := 0 }) s)
    if interpolates x then
      let s2 := startMoves g x.pathTime (lamCadence g s1)
      let s3 := strmClock g s2
      if onStream (grpOf s3 g) then strmStep g s3 else interpolate g s3
    else lamCadence g s1

/-- Whether an axis is moved by its own generator. -/
def ownGenerator (s : State) (a : Nat) : Bool :=
  loopRuns (axisOf s a) && (match groupOf s a with
    | some g => !interpolates (grpOf s g)
    | none => true)

/-- The commanded states of the setpoints that will leave at the next cadence start (R98, R109, R165). -/
def generate (s : State) : State :=
  let s1 := forNat (tkeys s.grps) groupCutoff s
  let s2 := forNat ((tkeys s1.axes).filter (ownGenerator s1)) (fun a t => count 107 0x0601 (genStep a t)) s1
  let own := (tkeys s2.grps).filter (fun g => (grpOf s2 g).configured && !interpolates (grpOf s2 g))
  let s3 := forNat own (fun g t => feedMembers g (slavesFollow g t)) s2
  forNat ((tkeys s3.axes).filter (fun a => loopRuns (axisOf s3 a))) countZero s3

/-- The planning snapshot at the cutoff of the first cadence of a planning period (R25). -/
def planSnapshot (s : State) : State :=
  if s.cad.planAt = s.cad.start + 1 then qpSnapshot (obstacleSnapshot (grpSnapshot s)) else s

/-- T_FF of an axis as a loop integer; 0 for an axis of no group (R165). -/
def tFfOf (s : State) (a : Nat) : Int :=
  let x := axisOf s a
  if (groupOf s a).isSome then toLoop x.tauFf x.loop.trqFrac else 0

/-- The loop of an axis that has just closed is initialised (R179). -/
def initLoop (a : Nat) (s : State) : State :=
  let x := axisOf s a
  if x.loop.initDue && loopRuns x then
    let f := x.map.last
    setAxis a { x with cmdP := ofQ64 x.actP, cmdV := 0, cmdA := 0, target := if x.prof.isNone then ofQ64 x.actP else x.target
                       loop := loopInit x.loop x.loop.trqLim f.velocity f.torque (tFfOf s a) } s
  else s

/-- FEEDBACK_CUTOFF (R22). -/
def feedbackCutoff (s : State) : State :=
  if !s.cad.started || s.cad.phase ≠ 0 || s.dev.frozen || !cadenceRuns s then s
  else
    let s1 := planSnapshot (generate (advanceTo (s.cad.start + s.cad.len * 4 / 10) s))
    let s2 := freewheel (guardSnapshot (freewheel2 s1))
    let s3 := forNat (tkeys s2.axes) initLoop s2
    -- the field inputs that the cadence uses are those received by now (R22)
    { s3 with cad := { s3.cad with phase := 1 }
              io := { s3.io with ch := s3.io.ch.map (fun e => (e.1, { e.2 with used := e.2.seen, usedEdge := e.2.seenEdge })) } }

/-! Compute end. -/

/-- Count a loop task on its tile (R175, R186, R254). -/
def loopCounts (a : Nat) (l : LoopSt) (m : Marks) (inj : Bool) (s : State) : State :=
  match tileOf s a with
  | none => s
  | some u =>
    let s1 := tileMarks u m (count (10 + u) 0x0401 s)
    let s2 := if l.clampActive then count (10 + u) 0x0405 s1 else s1
    addBusy 0 u (loopWcet l inj) (if l.stale then count (10 + u) 0x0406 s2 else s2)

/-- The loop sample of an axis (R163, R178, R198). After a missed loop task the record repeats T_OUT, and the cadence counts as a
missing record (R248). -/
def loopCompute (a : Nat) (s : State) : State :=
  let x := axisOf s a
  if !loopRuns x || x.loop.initDue then
    (if x.loop.stale then setAxis a { x with loop := { x.loop with stale := false } } s else s)
  else if x.loop.missedLoop then
    setAxis a { x with map := { x.map with missed := x.map.missed + 1 }, loop := { x.loop with missedLoop := false, stale := true } } s
  else
    let s1 := injValue a s
    let inj : Option (Nat × Int) := match injOf s1 a with
      | some i => if i.running then some (u8 i.p 1, i.value) else none
      | none => none
    let f := x.map.last
    let i : SampleIn := {
      pCmd := toQ x.cmdP, pAct := x.actP, vAct := f.velocity, vFf := toLoop x.cmdV x.loop.velFrac, tFf := tFfOf s a
      inj := inj, trqLim := x.loop.trqLim, stale := !x.map.gotPrev }
    let (l, mk) := loopSample x.loop i
    let s2 := raiseIf (l.clampActive && !x.loop.clampActive) 64 (setAxis a { x with loop := l } (injAdvance a s1))
    loopCounts a l mk inj.isSome s2

/-- Following error and settling (R115, R126, R177). -/
def followCheck (a : Nat) (s : State) : State :=
  let x := axisOf s a
  if !loopRuns x || x.loop.initDue then modAxis a (fun y => { y with inWin := false, settledNs := 0 }) s
  else
    let fe := double (ofQ (toQ x.cmdP) - ofQ x.actP)
    let off := x.loop.stale || x.loop.trqHoming.isSome
    let warn := x.loop.feWarn ≠ 0 && x.loop.feWarn < fabs fe
    let bad := !off && x.loop.feLimit ≠ 0 && x.loop.feLimit < fabs fe
    let s1 := modAxis a (fun y => { y with
      inWin := fabs fe ≤ y.cfg.settleWin
      settledNs := if y.inWin && fabs fe ≤ y.cfg.settleWin then y.settledNs + s.cad.ns else 0
      loop := { y.loop with fe := fe, warned := if off then y.loop.warned else warn } }) s
    let s2 := raiseIf ((!off && warn && !x.loop.warned) || bad) 65 s1
    if bad then reqFault a 0x02 s2 else s2

/-- The skew of the DUAL joints of a group (R78). -/
def skewCheck (g : Nat) (s : State) : State :=
  let x := grpOf s g
  if !x.configured then s
  else forNat ((List.range (jointsOf x)).filter (skewed s g)) (fun i t =>
    forNat (jAxes x.model i) (fun n u => if (axisOf u n).state = .fault then u else reqFault n 0x08 u) t) s

/-- What the compute end checks of axes, groups and inputs (R66, R78, R132, R177, R338). -/
def checksCompute (s : State) : State :=
  let ax := tkeys s.axes
  let s1 := forNat ax (fun a t => limitStop a (followCheck a t)) s
  let s2 := forNat (tkeys s.grps) skewCheck s1
  forNat (List.range 4) (fun x t => if (fgOf t x).badSeen then badInput x t else t) s2

/-- COMPUTE_END (R23, R58, R330, R348). -/
def computeEnd (s : State) : State :=
  if !s.cad.started || s.cad.phase ≠ 1 || s.dev.frozen || !cadenceRuns s then s
  else
    let c1 := nextCadence s
    let s1 := advanceTo (s.cad.start + s.cad.len * 7 / 10) s
    let s2 := checksCompute (forNat (tkeys s1.axes) loopCompute s1)
    let s3 := stpCompute c1 (c1 + s.cad.ns) (buildImage c1 (sendActions (forNat (List.range 16) (stpLimitStop c1) s2)))
    let s4 := resumeFft (traceCadence (mirrorUpdate (sigUpdate s3)))
    { s4 with cad := { s4.cad with phase := 3, misses := 0 } }

/-! Planning boundary, verdict deadline, round start. -/

/-- PLANNING_BOUNDARY (R25, R83, R154, R159, R210, R217): after the cadence start of its instant. -/
def planningBoundary (s : State) : State :=
  let b := s.cad.start
  if !s.cad.started || s.cad.phase ≠ 0 || s.dev.frozen || b % planNs s ≠ 0 || s.cad.planAt = b + 1 then s
  else
    let s1 := runEffs b (opIn [0x0709]) setPayloadEff (clearLanes (replaceLanes s))
    let s2 := forNat (List.range 16) laHold (forNat (List.range 16) (qpBoundary b) s1)
    let s3 := zoneBoundary b s2
    { s3 with cad := { s3.cad with planAt := b + 1, planStart := b } }

/-- VERDICT_DEADLINE (R26, R27, R160, R238). -/
def verdictDeadline (s : State) : State :=
  if s.dev.frozen || !verdictDue s then s else sepSignals (forNat (List.range 16) replan (verdict s))

/-- The instant of the round start that is due: that of the cadence that runs, or of the one that comes next. -/
def roundDue (s : State) : Option Nat :=
  let len := s.cad.round * s.cad.ns
  if s.cad.started && s.cad.phase ≠ 3 then
    (if s.cad.start % len = 0 && s.cad.roundAt ≠ s.cad.start + 1 then some s.cad.start else none)
  else
    let t := nextCadence s
    if t % len = 0 && s.cad.roundAt ≠ t + 1 then some t else none

/-- The busy counts of the round that ends (R254): tasks in service count up to its end. -/
def busyLatch (s : State) : State :=
  let on := (tkeys s.sch.units).filter (fun i => (tget none s.sch.units i).isSome)
  let s1 := forNat on (fun i t =>
    let u := addBusy (i / 64) (i % 64) ((now t - tget 0 t.sch.busyFrom i) * classMHz (i / 64) / 1000) t
    { u with sch := { u.sch with busyFrom := tset 0 u.sch.busyFrom i (now t) } }) s
  { s1 with sch := { s1.sch with
    latched := s1.sch.busy.map (fun e => (e.1, e.2 - tget 0 s1.sch.busyBase e.1)), busyBase := s1.sch.busy
    roundStart := s1.time.long } }

/-- ROUND_START (R254, R286): it may come before or after the cadence start of its instant; the frame of that cadence carries
what it has changed where it comes before. -/
def roundStart (s : State) : State :=
  if s.dev.frozen || !cadenceRuns s then s
  else match roundDue s with
    | none => s
    | some t =>
      let first := s.cad.roundAt = 0
      let s1 := advanceTo t s
      let s2 := pelRound (busRound t s1)
      let s3 := runEffs t (opIn [0x0601]) sigMapEff (runEffs t (opIn [0x0E04]) sensorEff s2)
      let s4 := if first then { s3 with sch := { s3.sch with busyBase := s3.sch.busy } } else busyLatch s3
      { s4 with cad := { s4.cad with roundAt := t + 1 } }

/-! Timed actions. -/

/-- What an action does at its tick (R193, R262, R330). -/
def actionAct (a : Armed) (s : State) : State :=
  match a.kind with
  | .ioWrite m v => forNat (wordBits m) (fun c t => drivePin c (pinWant t c) t)
      (writeCh (fun h b => if h.role = 2 then { h with commanded := b } else h) m v s)
  | .traceTrigger k => trigger k s
  | .traceArm k => trigger k s

/-- TIMED_ACTION_FIRE (R262 to R264); a dropped TIME trigger stops its session (R193). -/
def timedActionFire (u : Nat) (s : State) : State :=
  if s.dev.frozen then s
  else
    let s1 := fireUnit u actionAct s
    match unitOf s u with
    | some a => (match a.kind with
      | .traceArm k => if s1.time.dropCount = s.time.dropCount then s1 else triggerDropped k s1
      | _ => s1)
    | none => s1

/-! Missed deadlines (R248). -/

/-- The marks of a miss: the class's count, event 51, and a record of type, object and deadline. -/
def missRecord (k type obj dl : Nat) (s : State) : State :=
  let c := clsOf s k
  count (5 + k) 0x0306 (raise 51 (journal 0x12 0x01 1 obj dl (fields [(2, type), (4, obj), (8, dl)])
    (setCls k { c with deadlineMisses := c.deadlineMisses + 1 } s)))

/-- A scenario of the period ends MISSED before it reaches its lane. -/
def endMissed (g j : Nat) (s : State) : State :=
  let c := scenOf s g j
  if c.inp.isSome && c.res.status = 0 && c.data.isNone then
    modQp g (fun q => { q with missed := q.missed + 1 }) (modScen g j (fun d => { d with res := { status := 4, cls := d.cls, kappa := d.kappa } }) s)
  else s

/-- No selection by 93.75 % of the planning period: the fallback of R154. -/
def selectionMissed (g : Nat) (s : State) : State :=
  let q := qpOf s g
  fallenBack g q.boundary (motionTags s g q.boundary) (modQp g (fun y => { y with
    chosen := true, nextSel := 0xFF, last := y.scen.map (·.res), lastSel := 0xFF, lastB := y.boundary })
    (modGrp g (fun x => { x with nextPlan := none }) s))

/-- The task type and object of the task whose deadline a class and flow name (tables "Task types", "Flow numbers"): a periodic one,
or ADMIT, which has no flow. -/
def periodicTask (s : State) (k f : Nat) : Option (Nat × Nat) :=
  let scen := 64 * ((f - 144) / 4) + (f - 144) % 4
  match k with
  | 0 => if f < 128 then some (0x0001, f) else if 224 ≤ f && f < 232 then some (0x0002, f - 224) else none
  | 1 => if 144 ≤ f && f < 208 then some (0x0010, scen) else none
  | 2 => if 128 ≤ f && f < 144 then some (0x0020, f - 128)
    else if 208 ≤ f && f < 224 then some (kdeType (grpOf s (f - 208)).model, f - 208) else none
  | 3 => if 144 ≤ f && f < 208 then some (0x0030, scen) else none
  | _ => if 208 ≤ f && f < 224 then some (0x0043, f - 208)
    else if 240 ≤ f && f < 248 then some (0x0042, f - 240)
    else if f = 248 then some (0x0041, noObj) else if f = 249 then some (0x0044, noObj) else if f = 250 then some (0x0045, noObj)
    else some (0x0040, noObj)

/-- The instant of the first doorbell that waits. -/
def firstBell (s : State) : Nat := ((bells s).map (fun e => e.1 - 1)).foldl min (now s)

/-- The deadline of a periodic task (table "Task types"). -/
def periodicDeadline (s : State) (type : Nat) : Nat :=
  let c := s.cad.start
  let p := s.cad.planStart
  if type = 0x0001 then c + s.cad.ns * 7 / 10
  else if type = 0x0020 || type = 0x0042 then c + s.cad.ns * 4 / 10
  else if 0x0021 ≤ type && type ≤ 0x0024 then p + planNs s / 8
  else if type = 0x0030 then p + planNs s / 5
  else if type = 0x0043 then p + planNs s * 15 / 16
  else if type = 0x0044 then p + s.cad.ns * 4 / 10
  else if type = 0x0041 then c + s.cad.ns * 7 / 10 + 1000
  else if type = 0x0040 then firstBell s + 50000
  else c + s.cad.ns

/-- Whether a periodic task is outstanding, so that it can miss its deadline. -/
def outstanding (s : State) (type obj : Nat) : Bool :=
  if type = 0x0040 then bells s ≠ []
  else if !s.cad.started then false
  else if type = 0x0001 then s.cad.phase = 1 && loopRuns (axisOf s obj)
  else if type = 0x0020 then s.cad.phase = 0 && (grpOf s obj).configured && !(grpOf s obj).interpMissed
  else if 0x0021 ≤ type && type ≤ 0x0024 then (grpOf s obj).configured && s.qp.snapAt = s.cad.planStart + 1
  else if type = 0x0030 then (qpOf s (obj / 64)).posed && (scenOf s (obj / 64) (obj % 64)).inp.isSome
    && (scenOf s (obj / 64) (obj % 64)).data.isNone && (scenOf s (obj / 64) (obj % 64)).res.status = 0
  else if type = 0x0043 then (qpOf s obj).posed && !(qpOf s obj).chosen
  else if type = 0x0002 then (let x := sesOf s obj; x.state ≠ .unconfigured && x.state ≠ .stopped)
  else if type = 0x0041 then s.dev.mode = .run
  else if type = 0x0042 then (strmOf s obj).attached
  else if type = 0x0044 then 0 < zoneLoad s
  else s.sig.watch ≠ []

/-- The consequence of a miss (table "Deadline consequences"). -/
def missConsequence (type obj : Nat) (s : State) : State :=
  if type = 0x0001 then modAxis obj (fun x => { x with loop := { x.loop with missedLoop := true } }) s
  else if type = 0x0020 then
    modGrp obj (fun x => { x with interpMissed := true, interpMisses := x.interpMisses + 1, fault := x.fault || 1 ≤ x.interpMisses }) s
  else if 0x0021 ≤ type && type ≤ 0x0024 then forNat (List.range 4) (endMissed obj) s
  else if type = 0x0030 || type = 0x0031 then endMissed (obj / 64) (obj % 64) s
  else if type = 0x0043 then selectionMissed obj s
  else s

/-- Whether the deadline of a class and flow is that of a task: by its flow, or as an ADMIT task where no flow of SUP has the number. -/
def deadlineOf (s : State) (k f : Nat) (t : Task) : Bool :=
  !t.d.flags.getLsbD 4 && (if noFlow t.d then (periodicTask s k f).any (fun e => e.1 = 0x0040) else t.d.flow.toNat = f)

/-- The task of a class and flow that reaches its deadline: one that is not dispatched yet, or one in service that its type abandons
(R248). -/
def overdueTask (s : State) (k f : Nat) : Option (Task × Option Nat) :=
  let c := clsOf s k
  match (c.ready ++ c.held ++ (flowOf s f).queue.filter (fun t => t.d.cls.val = k)).find? (deadlineOf s k f) with
  | some t => some (t, none)
  | none => ((List.range (classUnits k)).filterMap (fun u => match onUnit s k u with
      | some t => if deadlineOf s k f t && abandons t.d then some (t, some u) else none
      | none => none)).head?

/-- A task that is not dispatched leaves the scheduler; the next of its flow moves up (R246, R248). -/
def abandonWaiting (k f : Nat) (t : Task) (s : State) : State :=
  let c := clsOf s k
  let w := flowOf s f
  if (c.ready ++ c.held).contains t then
    let v := setCls k { c with ready := c.ready.erase t, held := c.held.erase t } s
    if noFlow t.d || flowBusy v f then v else flowNext f v
  else setFlow f { w with queue := w.queue.erase t } s

/-- SCHED_DEADLINE_MISS of the task of a class and flow (R248): a task that the scheduler holds, or the periodic task that the
flow's owner has. -/
def deadlineMiss (k f : Nat) (s : State) : State :=
  if s.dev.frozen then s
  else match overdueTask s k f with
    | some (t, u) =>
      let dl := longOf s t.d.deadline.toNat
      let s1 := advanceTo dl s
      let s2 := match u with
        | some n => taskEnd k n s1
        | none => abandonWaiting k f t s1
      missConsequence t.d.type.toNat (((periodicTask s k f).map (·.2)).getD 0) (missRecord k t.d.type.toNat t.d.object.toNat dl s2)
    | none => match periodicTask s k f with
      | none => s
      | some (type, obj) =>
        if k = 1 then qpDeadline (obj / 64) (obj % 64) s
        else if !outstanding s type obj then s
        else
          let dl := periodicDeadline s type
          missConsequence type obj (missRecord k type obj dl (advanceTo dl s))

/-! Rows. -/

/-- CADENCE_START (R21). -/
def execCadenceStart (s : State) : Host.Outcome State Fault Refusal := .next (cadenceStart s)
/-- FEEDBACK_CUTOFF (R22). -/
def execFeedbackCutoff (s : State) : Host.Outcome State Fault Refusal := .next (feedbackCutoff s)
/-- COMPUTE_END (R23). -/
def execComputeEnd (s : State) : Host.Outcome State Fault Refusal := .next (computeEnd s)
/-- PLANNING_BOUNDARY (R25). -/
def execPlanningBoundary (s : State) : Host.Outcome State Fault Refusal := .next (planningBoundary s)
/-- VERDICT_DEADLINE (R26). -/
def execVerdictDeadline (s : State) : Host.Outcome State Fault Refusal := .next (verdictDeadline s)
/-- ROUND_START (R286). -/
def execRoundStart (s : State) : Host.Outcome State Fault Refusal := .next (roundStart s)
/-- TIMED_ACTION_FIRE (R262). -/
def execTimedActionFire (u : Fin 256) (s : State) : Host.Outcome State Fault Refusal := .next (timedActionFire u.val s)
/-- SCHED_DEADLINE_MISS (R248). -/
def execSchedDeadlineMiss (k : Fin 5) (f : BitVec 16) (s : State) : Host.Outcome State Fault Refusal :=
  .next (deadlineMiss k.val f.toNat s)

end Sys2Proof.Machine
end

