-- ==== Sys2Proof/Machine/Table.lean ====
section
/-!
DEFINITION. The mailbox commands as a table by opcode, and the two rows that need it: a command that no opcode names (R440) and
the replay of a cell image (R388, R390).
-/
namespace Sys2Proof.Machine

/-- Class 0x01, dev. -/
def devSpecs : List CmdSpec :=
  [devBootStatusSpec, devResetSpec, devConfirmBootSpec, devLoadImageSpec, devUpdateFwSpec]

/-- Class 0x02, time. -/
def timeSpecs : List CmdSpec :=
  [timeStatusSpec, timeConfigureSpec, timeSetPlantSpec, timePtpPortSpec, timePtpStatusSpec]

/-- Class 0x03, bus. -/
def busSpecs : List CmdSpec :=
  [busSetTimingSpec, busConfigureSegmentSpec, busStartSpec, busStopSpec, busLoadMatrixSpec, busSwitchMatrixSpec,
   busMapAxisSpec, busSetAliasSpec, busStationResetSpec, busRejoinSpec, busAcyclicSpec, busStatusSpec]

/-- Class 0x04, pel. -/
def pelSpecs : List CmdSpec :=
  [pelConfigureSpec, pelStartSpec, pelStopSpec, pelHandoverSpec, pelFollowGmSpec, pelStatusSpec]

/-- Class 0x05, sched. -/
def schedSpecs : List CmdSpec :=
  [schedStatusSpec, schedLoadSpec, schedWcetSpec, schedSetWatermarksSpec, schedClearStatsSpec, schedFlowStatusSpec,
   schedFlowLimitSpec, schedCancelSpec]

/-- Class 0x06, sig. -/
def sigSpecs : List CmdSpec :=
  [sigMapSpec, sigReadSpec, sigWriteSpec, sigWatchSpec]

/-- Class 0x07, grp. -/
def grpSpecs : List CmdSpec :=
  [grpConfigureSpec, grpEnableSpec, grpDisableSpec, grpMoveSpec, grpHoldSpec, grpResumeSpec, grpHomeSpec, grpClearSpec,
   grpSetPayloadSpec, grpStopSpec, grpStatusSpec]

/-- Class 0x08, axis. -/
def axisSpecs : List CmdSpec :=
  [axisConfigureSpec, axisEnableSpec, axisDisableSpec, axisCloseSpec, axisOpenSpec, axisClearSpec, axisMoveSpec,
   axisSetLimitsSpec, axisStopSpec]

/-- Class 0x09, strm. -/
def strmSpecs : List CmdSpec :=
  [strmAttachSpec, strmDetachSpec, strmAnchorSpec]

/-- Class 0x0A, qp. -/
def qpSpecs : List CmdSpec :=
  [qpDefineClassSpec, qpRemoveClassSpec, qpAssignSpec, qpConfigureSpec, qpStatusSpec, qpResultSpec]

/-- Class 0x0B, loop. -/
def loopSpecs : List CmdSpec :=
  [loopConfigureSpec, loopSetCompSpec, loopSetFilterSpec, loopSetCascadeSpec, loopSetCoeffSpec, loopSetLimitsSpec,
   loopStatusSpec, loopReadCoeffSpec]

/-- Class 0x0C, trace. -/
def traceSpecs : List CmdSpec :=
  [traceConfigureSpec, traceSetLengthSpec, traceArmSpec, traceTriggerSpec, traceStopSpec, traceStatusSpec,
   traceReadSpec, traceInjectSpec, traceInjectStopSpec, traceFrfSpec]

/-- Class 0x0D, zone. -/
def zoneSpecs : List CmdSpec :=
  [zoneDefineSpec, zoneRequestSpec, zoneReleaseSpec, zoneStatusSpec]

/-- Class 0x0E, ssm. -/
def ssmSpecs : List CmdSpec :=
  [ssmConfigureSpec, ssmSetGroupSpec, ssmSetObstaclesSpec, ssmSetSensorSpec, ssmStatusSpec]

/-- Class 0x0F, io. -/
def ioSpecs : List CmdSpec :=
  [ioConfigureSpec, ioConfigureGroupSpec, ioSetWatchdogSpec, ioWriteSpec, ioReenableSpec, ioReleaseSafeSpec,
   ioStoResetSpec, ioStatusSpec]

/-- Class 0x10, stp. -/
def stpSpecs : List CmdSpec :=
  [stpConfigureSpec, stpEnableSpec, stpDisableSpec, stpMoveSpec, stpStopSpec, stpHomeSpec, stpSetLimitsSpec,
   stpClearSpec, stpStatusSpec]

/-- Class 0x11, pc. -/
def pcSpecs : List CmdSpec :=
  [pcSelectSpec, pcSpokeInfoSpec]

/-- Class 0x12, jrn. -/
def jrnSpecs : List CmdSpec :=
  [jrnStatusSpec, jrnReadSpec, jrnChallengeSpec, jrnTruncateSpec, jrnConfigureSpec, jrnAnnotateSpec]

/-- Class 0x13, sec. -/
def secSpecs : List CmdSpec :=
  [secAttestSpec, secGetCertSpec, secFuseStatusSpec, secSetOwnerSpec, secRevokeOwnerSpec, secAdvanceSvnSpec,
   secRevokeVendorSpec]

/-- Every mailbox command (table "Opcode classes"). -/
def specTable : List CmdSpec :=
  devSpecs ++ timeSpecs ++ busSpecs ++ pelSpecs ++ schedSpecs ++ sigSpecs ++ grpSpecs ++ axisSpecs ++ strmSpecs ++ qpSpecs
    ++ loopSpecs ++ traceSpecs ++ zoneSpecs ++ ssmSpecs ++ ioSpecs ++ stpSpecs ++ pcSpecs ++ jrnSpecs ++ secSpecs

/-- The command of an opcode; none for a reserved class or verb. -/
def specOf (op : Nat) : Option CmdSpec := specTable.find? (fun sp => sp.opcode = op)

/-- A posted command whose opcode is reserved (R53, R55, R440): it has no effect. -/
def badOpcode (r : CmdRef) (s : State) : State :=
  if !supTakes s r.mb r.slot || (specOf (hdrOf s r.mb r.slot).opcode).isSome then s
  else
    let st : Status := if s.dev.mode = .fault then .deviceFault else if s.dev.mode = .kickstand then .kickstand else .badOpcode
    complete r.mb r.slot st 0 0xFFFFFFFF [] s

/-- The replay of a cell image ends (R388): its outcome stays for dev.boot_status, and with STORE the container is kept where every
record completed with OK or OK_ADJUSTED. -/
def imageEnd (r : Replay) (s : State) : State :=
  let ok := r.failed.isNone
  let st := r.failed.getD .ok
  let kept := ok && r.store
  let idx := if ok then 0xFFFFFFFF else r.done
  let code := if ok then 0 else st.code
  let s1 := modDev (fun d => { d with
    replay := none, imageDone := r.done, imageFailIndex := idx, imageFailStatus := code, cellDigest := headerDigest r.image
    flash := if kept then tset [] d.flash 2 r.image else d.flash }) s
  let s2 := raise 118 (journal 0x06 0x22 0 noObj 0 (fields [(4, r.done), (4, idx), (2, code)]) s1)
  complete r.mb r.slot st (now s2) (devState 0 s2) (fields [(4, r.done), (4, idx), (2, code), (1, b2n kept), (5, 0)]) s2

/-- Whether a replay has nothing more to post. -/
def replayOver (r : Replay) : Bool := !r.running && (r.failed.isSome || u32 r.image 104 ≤ r.done)

/-- IMAGE_RECORD_REPLAY: the next record is posted as if on mailbox 0 once the last one has completed (R387, R388). -/
def imageRecord (s : State) : State :=
  match s.dev.replay with
  | none => s
  | some r =>
    if r.running || s.dev.noCore || s.dev.mode = .reset then s
    else if replayOver r then imageEnd r s
    else
      let b := r.image.drop r.off
      let h := readHdr (b.take 64)
      let p := (b.drop 64).take h.len
      let s1 := modDev (fun d => { d with replay := some { r with running := true, off := r.off + 64 + (h.len + 7) / 8 * 8 } }) s
      let s2 := match specOf h.opcode with
        | none => recordDone .badOpcode s1
        | some sp => admitCmd sp { mb := imageMb, slot := 0, h := h, p := p, promise := promiseOf s1 (sp.kind h p s1) h.reqTime } s1
      match s2.dev.replay with
      | some q => if replayOver q then imageEnd q s2 else s2
      | none => s2

/-- BAD_OPCODE_COMMAND (R440). -/
def execBadOpcodeCommand (c : CmdRef) (s : State) : Host.Outcome State Fault Refusal := .next (badOpcode c s)
/-- IMAGE_RECORD_REPLAY (R388). -/
def execImageRecordReplay (s : State) : Host.Outcome State Fault Refusal := .next (imageRecord s)

end Sys2Proof.Machine
end

