-- ==== Sys2Proof/Machine/Dispatch.lean ====
section
/-!
DEFINITION. The effect of every command: one arm per row of spec/opcode_table.json, each a direct call of that
row's meaning.
-/
namespace Sys2Proof.Machine

def exec (i : Instr) (s : State) : Host.Outcome State Fault Refusal :=
  match i with
  | .devBootStatus c => Sys2Proof.Machine.execDevBootStatus c s
  | .devReset c => Sys2Proof.Machine.execDevReset c s
  | .devConfirmBoot c => Sys2Proof.Machine.execDevConfirmBoot c s
  | .devLoadImage c => Sys2Proof.Machine.execDevLoadImage c s
  | .devUpdateFw c => Sys2Proof.Machine.execDevUpdateFw c s
  | .timeStatus c => Sys2Proof.Machine.execTimeStatus c s
  | .timeConfigure c => Sys2Proof.Machine.execTimeConfigure c s
  | .timeSetPlant c => Sys2Proof.Machine.execTimeSetPlant c s
  | .timePtpPort c => Sys2Proof.Machine.execTimePtpPort c s
  | .timePtpStatus c => Sys2Proof.Machine.execTimePtpStatus c s
  | .busSetTiming c => Sys2Proof.Machine.execBusSetTiming c s
  | .busConfigureSegment c => Sys2Proof.Machine.execBusConfigureSegment c s
  | .busStart c => Sys2Proof.Machine.execBusStart c s
  | .busStop c => Sys2Proof.Machine.execBusStop c s
  | .busLoadMatrix c => Sys2Proof.Machine.execBusLoadMatrix c s
  | .busSwitchMatrix c => Sys2Proof.Machine.execBusSwitchMatrix c s
  | .busMapAxis c => Sys2Proof.Machine.execBusMapAxis c s
  | .busSetAlias c => Sys2Proof.Machine.execBusSetAlias c s
  | .busStationReset c => Sys2Proof.Machine.execBusStationReset c s
  | .busRejoin c => Sys2Proof.Machine.execBusRejoin c s
  | .busAcyclic c => Sys2Proof.Machine.execBusAcyclic c s
  | .busStatus c => Sys2Proof.Machine.execBusStatus c s
  | .pelConfigure c => Sys2Proof.Machine.execPelConfigure c s
  | .pelStart c => Sys2Proof.Machine.execPelStart c s
  | .pelStop c => Sys2Proof.Machine.execPelStop c s
  | .pelHandover c => Sys2Proof.Machine.execPelHandover c s
  | .pelFollowGm c => Sys2Proof.Machine.execPelFollowGm c s
  | .pelStatus c => Sys2Proof.Machine.execPelStatus c s
  | .schedStatus c => Sys2Proof.Machine.execSchedStatus c s
  | .schedLoad c => Sys2Proof.Machine.execSchedLoad c s
  | .schedWcet c => Sys2Proof.Machine.execSchedWcet c s
  | .schedSetWatermarks c => Sys2Proof.Machine.execSchedSetWatermarks c s
  | .schedClearStats c => Sys2Proof.Machine.execSchedClearStats c s
  | .schedFlowStatus c => Sys2Proof.Machine.execSchedFlowStatus c s
  | .schedFlowLimit c => Sys2Proof.Machine.execSchedFlowLimit c s
  | .schedCancel c => Sys2Proof.Machine.execSchedCancel c s
  | .sigMap c => Sys2Proof.Machine.execSigMap c s
  | .sigRead c => Sys2Proof.Machine.execSigRead c s
  | .sigWrite c => Sys2Proof.Machine.execSigWrite c s
  | .sigWatch c => Sys2Proof.Machine.execSigWatch c s
  | .grpConfigure c => Sys2Proof.Machine.execGrpConfigure c s
  | .grpEnable c => Sys2Proof.Machine.execGrpEnable c s
  | .grpDisable c => Sys2Proof.Machine.execGrpDisable c s
  | .grpMove c => Sys2Proof.Machine.execGrpMove c s
  | .grpHold c => Sys2Proof.Machine.execGrpHold c s
  | .grpResume c => Sys2Proof.Machine.execGrpResume c s
  | .grpHome c => Sys2Proof.Machine.execGrpHome c s
  | .grpClear c => Sys2Proof.Machine.execGrpClear c s
  | .grpSetPayload c => Sys2Proof.Machine.execGrpSetPayload c s
  | .grpStop c => Sys2Proof.Machine.execGrpStop c s
  | .grpStatus c => Sys2Proof.Machine.execGrpStatus c s
  | .axisConfigure c => Sys2Proof.Machine.execAxisConfigure c s
  | .axisEnable c => Sys2Proof.Machine.execAxisEnable c s
  | .axisDisable c => Sys2Proof.Machine.execAxisDisable c s
  | .axisClose c => Sys2Proof.Machine.execAxisClose c s
  | .axisOpen c => Sys2Proof.Machine.execAxisOpen c s
  | .axisClear c => Sys2Proof.Machine.execAxisClear c s
  | .axisMove c => Sys2Proof.Machine.execAxisMove c s
  | .axisSetLimits c => Sys2Proof.Machine.execAxisSetLimits c s
  | .axisStop c => Sys2Proof.Machine.execAxisStop c s
  | .strmAttach c => Sys2Proof.Machine.execStrmAttach c s
  | .strmDetach c => Sys2Proof.Machine.execStrmDetach c s
  | .strmAnchor c => Sys2Proof.Machine.execStrmAnchor c s
  | .qpDefineClass c => Sys2Proof.Machine.execQpDefineClass c s
  | .qpRemoveClass c => Sys2Proof.Machine.execQpRemoveClass c s
  | .qpAssign c => Sys2Proof.Machine.execQpAssign c s
  | .qpConfigure c => Sys2Proof.Machine.execQpConfigure c s
  | .qpStatus c => Sys2Proof.Machine.execQpStatus c s
  | .qpResult c => Sys2Proof.Machine.execQpResult c s
  | .loopConfigure c => Sys2Proof.Machine.execLoopConfigure c s
  | .loopSetComp c => Sys2Proof.Machine.execLoopSetComp c s
  | .loopSetFilter c => Sys2Proof.Machine.execLoopSetFilter c s
  | .loopSetCascade c => Sys2Proof.Machine.execLoopSetCascade c s
  | .loopSetCoeff c => Sys2Proof.Machine.execLoopSetCoeff c s
  | .loopSetLimits c => Sys2Proof.Machine.execLoopSetLimits c s
  | .loopStatus c => Sys2Proof.Machine.execLoopStatus c s
  | .loopReadCoeff c => Sys2Proof.Machine.execLoopReadCoeff c s
  | .traceConfigure c => Sys2Proof.Machine.execTraceConfigure c s
  | .traceSetLength c => Sys2Proof.Machine.execTraceSetLength c s
  | .traceArm c => Sys2Proof.Machine.execTraceArm c s
  | .traceTrigger c => Sys2Proof.Machine.execTraceTrigger c s
  | .traceStop c => Sys2Proof.Machine.execTraceStop c s
  | .traceStatus c => Sys2Proof.Machine.execTraceStatus c s
  | .traceRead c => Sys2Proof.Machine.execTraceRead c s
  | .traceInject c => Sys2Proof.Machine.execTraceInject c s
  | .traceInjectStop c => Sys2Proof.Machine.execTraceInjectStop c s
  | .traceFrf c => Sys2Proof.Machine.execTraceFrf c s
  | .zoneDefine c => Sys2Proof.Machine.execZoneDefine c s
  | .zoneRequest c => Sys2Proof.Machine.execZoneRequest c s
  | .zoneRelease c => Sys2Proof.Machine.execZoneRelease c s
  | .zoneStatus c => Sys2Proof.Machine.execZoneStatus c s
  | .ssmConfigure c => Sys2Proof.Machine.execSsmConfigure c s
  | .ssmSetGroup c => Sys2Proof.Machine.execSsmSetGroup c s
  | .ssmSetObstacles c => Sys2Proof.Machine.execSsmSetObstacles c s
  | .ssmSetSensor c => Sys2Proof.Machine.execSsmSetSensor c s
  | .ssmStatus c => Sys2Proof.Machine.execSsmStatus c s
  | .ioConfigure c => Sys2Proof.Machine.execIoConfigure c s
  | .ioConfigureGroup c => Sys2Proof.Machine.execIoConfigureGroup c s
  | .ioSetWatchdog c => Sys2Proof.Machine.execIoSetWatchdog c s
  | .ioWrite c => Sys2Proof.Machine.execIoWrite c s
  | .ioReenable c => Sys2Proof.Machine.execIoReenable c s
  | .ioReleaseSafe c => Sys2Proof.Machine.execIoReleaseSafe c s
  | .ioStoReset c => Sys2Proof.Machine.execIoStoReset c s
  | .ioStatus c => Sys2Proof.Machine.execIoStatus c s
  | .stpConfigure c => Sys2Proof.Machine.execStpConfigure c s
  | .stpEnable c => Sys2Proof.Machine.execStpEnable c s
  | .stpDisable c => Sys2Proof.Machine.execStpDisable c s
  | .stpMove c => Sys2Proof.Machine.execStpMove c s
  | .stpStop c => Sys2Proof.Machine.execStpStop c s
  | .stpHome c => Sys2Proof.Machine.execStpHome c s
  | .stpSetLimits c => Sys2Proof.Machine.execStpSetLimits c s
  | .stpClear c => Sys2Proof.Machine.execStpClear c s
  | .stpStatus c => Sys2Proof.Machine.execStpStatus c s
  | .pcSelect c => Sys2Proof.Machine.execPcSelect c s
  | .pcSpokeInfo c => Sys2Proof.Machine.execPcSpokeInfo c s
  | .jrnStatus c => Sys2Proof.Machine.execJrnStatus c s
  | .jrnRead c => Sys2Proof.Machine.execJrnRead c s
  | .jrnChallenge c => Sys2Proof.Machine.execJrnChallenge c s
  | .jrnTruncate c => Sys2Proof.Machine.execJrnTruncate c s
  | .jrnConfigure c => Sys2Proof.Machine.execJrnConfigure c s
  | .jrnAnnotate c => Sys2Proof.Machine.execJrnAnnotate c s
  | .secAttest c => Sys2Proof.Machine.execSecAttest c s
  | .secGetCert c => Sys2Proof.Machine.execSecGetCert c s
  | .secFuseStatus c => Sys2Proof.Machine.execSecFuseStatus c s
  | .secSetOwner c => Sys2Proof.Machine.execSecSetOwner c s
  | .secRevokeOwner c => Sys2Proof.Machine.execSecRevokeOwner c s
  | .secAdvanceSvn c => Sys2Proof.Machine.execSecAdvanceSvn c s
  | .secRevokeVendor c => Sys2Proof.Machine.execSecRevokeVendor c s
  | .commandNoCredit mb slot => Sys2Proof.Machine.execCommandNoCredit mb slot s
  | .mbDoneClear mb w => Sys2Proof.Machine.execMbDoneClear mb w s
  | .mbStatClear mb w => Sys2Proof.Machine.execMbStatClear mb w s
  | .commandBufferWrite mb slot off bytes => Sys2Proof.Machine.execCommandBufferWrite mb slot off bytes s
  | .evtPendClear idx w again => Sys2Proof.Machine.execEvtPendClear idx w again s
  | .evtLostClear idx w => Sys2Proof.Machine.execEvtLostClear idx w s
  | .evtMaskWrite idx w => Sys2Proof.Machine.execEvtMaskWrite idx w s
  | .evtMapWrite idx w => Sys2Proof.Machine.execEvtMapWrite idx w s
  | .timeLoRead wide => Sys2Proof.Machine.execTimeLoRead wide s
  | .timeLatch w => Sys2Proof.Machine.execTimeLatch w s
  | .hubCtlWrite w => Sys2Proof.Machine.execHubCtlWrite w s
  | .hubPeriodWrite w => Sys2Proof.Machine.execHubPeriodWrite w s
  | .hubRdWrite w => Sys2Proof.Machine.execHubRdWrite w s
  | .hubMirrorWrite hi w => Sys2Proof.Machine.execHubMirrorWrite hi w s
  | .usrGrantWrite w => Sys2Proof.Machine.execUsrGrantWrite w s
  | .usrCtlWrite w => Sys2Proof.Machine.execUsrCtlWrite w s
  | .usrWinWrite w => Sys2Proof.Machine.execUsrWinWrite w s
  | .streamProdWrite k w recs => Sys2Proof.Machine.execStreamProdWrite k w recs s
  | .registerWrite bar off bytes => Sys2Proof.Machine.execRegisterWrite bar off bytes s
  | .porstNAssert => Sys2Proof.Machine.execPorstNAssert s
  | .porstNRelease bootsel stnaddr => Sys2Proof.Machine.execPorstNRelease bootsel stnaddr s
  | .linkReset => Sys2Proof.Machine.execLinkReset s
  | .pfailNAssert => Sys2Proof.Machine.execPfailNAssert s
  | .pfailNRelease => Sys2Proof.Machine.execPfailNRelease s
  | .pwrWarn rail => Sys2Proof.Machine.execPwrWarn rail s
  | .railResetExcursion rail => Sys2Proof.Machine.execRailResetExcursion rail s
  | .railResetRelease rail => Sys2Proof.Machine.execRailResetRelease rail s
  | .thermWarn => Sys2Proof.Machine.execThermWarn s
  | .thermWarnClear => Sys2Proof.Machine.execThermWarnClear s
  | .thermCrit => Sys2Proof.Machine.execThermCrit s
  | .thermCritClear => Sys2Proof.Machine.execThermCritClear s
  | .thermShutdown => Sys2Proof.Machine.execThermShutdown s
  | .supLockstep => Sys2Proof.Machine.execSupLockstep s
  | .fLockstep => Sys2Proof.Machine.execFLockstep s
  | .supervisorWatchdog => Sys2Proof.Machine.execSupervisorWatchdog s
  | .clockM => Sys2Proof.Machine.execClockM s
  | .eccUncorrectable owner => Sys2Proof.Machine.execEccUncorrectable owner s
  | .eccCorrected spoke => Sys2Proof.Machine.execEccCorrected spoke s
  | .xlinkFlit dest flit => Sys2Proof.Machine.execXlinkFlit dest flit s
  | .xlinkNak dest seq => Sys2Proof.Machine.execXlinkNak dest seq s
  | .xlinkLost => Sys2Proof.Machine.execXlinkLost s
  | .xlinkUp => Sys2Proof.Machine.execXlinkUp s
  | .xlinkTrainTimeout => Sys2Proof.Machine.execXlinkTrainTimeout s
  | .timeAlignFlit error => Sys2Proof.Machine.execTimeAlignFlit error s
  | .fieldOutputImage crcOk => Sys2Proof.Machine.execFieldOutputImage crcOk s
  | .fieldInputImage => Sys2Proof.Machine.execFieldInputImage s
  | .blackChannelCopy a entry => Sys2Proof.Machine.execBlackChannelCopy a entry s
  | .stepCommandRecord => Sys2Proof.Machine.execStepCommandRecord s
  | .ch2Verdict pair => Sys2Proof.Machine.execCh2Verdict pair s
  | .dieFActionReport u => Sys2Proof.Machine.execDieFActionReport u s
  | .cadenceStart => Sys2Proof.Machine.execCadenceStart s
  | .feedbackCutoff => Sys2Proof.Machine.execFeedbackCutoff s
  | .computeEnd => Sys2Proof.Machine.execComputeEnd s
  | .trcFull session => Sys2Proof.Machine.execTrcFull session s
  | .planningBoundary => Sys2Proof.Machine.execPlanningBoundary s
  | .zoneRefused z => Sys2Proof.Machine.execZoneRefused z s
  | .asmPhaseStart => Sys2Proof.Machine.execAsmPhaseStart s
  | .laneWindowStart => Sys2Proof.Machine.execLaneWindowStart s
  | .qpProblemDone lane => Sys2Proof.Machine.execQpProblemDone lane s
  | .qpDeadline g j => Sys2Proof.Machine.execQpDeadline g j s
  | .selectionPhase g => Sys2Proof.Machine.execSelectionPhase g s
  | .shiftStop g => Sys2Proof.Machine.execShiftStop g s
  | .guardBoundary => Sys2Proof.Machine.execGuardBoundary s
  | .sensorStale n => Sys2Proof.Machine.execSensorStale n s
  | .verdictDeadline => Sys2Proof.Machine.execVerdictDeadline s
  | .tandemMismatch g => Sys2Proof.Machine.execTandemMismatch g s
  | .verdictAbsent g => Sys2Proof.Machine.execVerdictAbsent g s
  | .speedExceeded g second => Sys2Proof.Machine.execSpeedExceeded g second s
  | .ch2Feedback g => Sys2Proof.Machine.execCh2Feedback g s
  | .ch2Override g => Sys2Proof.Machine.execCh2Override g s
  | .sensorRecord seg station bytes => Sys2Proof.Machine.execSensorRecord seg station bytes s
  | .roundStart => Sys2Proof.Machine.execRoundStart s
  | .latchInstant => Sys2Proof.Machine.execLatchInstant s
  | .hubDump dieF => Sys2Proof.Machine.execHubDump dieF s
  | .hubMirrorErr => Sys2Proof.Machine.execHubMirrorErr s
  | .stationFrame seg port sfd frame => Sys2Proof.Machine.execStationFrame seg port sfd frame s
  | .foreignFrame port => Sys2Proof.Machine.execForeignFrame port s
  | .stationSilenced seg station => Sys2Proof.Machine.execStationSilenced seg station s
  | .freewheelExpired a => Sys2Proof.Machine.execFreewheelExpired a s
  | .masterCollision seg other => Sys2Proof.Machine.execMasterCollision seg other s
  | .collisionWaitEnd seg => Sys2Proof.Machine.execCollisionWaitEnd seg s
  | .ringChangeover seg => Sys2Proof.Machine.execRingChangeover seg s
  | .vzLinkDown port => Sys2Proof.Machine.execVzLinkDown port s
  | .enumReturn seg stations => Sys2Proof.Machine.execEnumReturn seg stations s
  | .delayReturn seg delays => Sys2Proof.Machine.execDelayReturn seg delays s
  | .arbFrameReturn seg column station => Sys2Proof.Machine.execArbFrameReturn seg column station s
  | .acyclicFrame seg station bytes => Sys2Proof.Machine.execAcyclicFrame seg station bytes s
  | .acyclicTimeout mb slot => Sys2Proof.Machine.execAcyclicTimeout mb slot s
  | .pelotonSync port rx frame => Sys2Proof.Machine.execPelotonSync port rx frame s
  | .pelotonDelayReq port rx frame => Sys2Proof.Machine.execPelotonDelayReq port rx frame s
  | .pelotonDelayResp port t1 t4 frame => Sys2Proof.Machine.execPelotonDelayResp port t1 t4 frame s
  | .pelotonEnum port frame => Sys2Proof.Machine.execPelotonEnum port frame s
  | .pelotonConfig port frame => Sys2Proof.Machine.execPelotonConfig port frame s
  | .pelStartTimeout => Sys2Proof.Machine.execPelStartTimeout s
  | .pelSyncSet => Sys2Proof.Machine.execPelSyncSet s
  | .pelSyncLost => Sys2Proof.Machine.execPelSyncLost s
  | .pelTakeover => Sys2Proof.Machine.execPelTakeover s
  | .announcementApply => Sys2Proof.Machine.execAnnouncementApply s
  | .ptpMessage p msg => Sys2Proof.Machine.execPtpMessage p msg s
  | .ptpInterval p tick stamped => Sys2Proof.Machine.execPtpInterval p tick stamped s
  | .ptpAnnounceTimeout p => Sys2Proof.Machine.execPtpAnnounceTimeout p s
  | .gmServoInterval mean => Sys2Proof.Machine.execGmServoInterval mean s
  | .timedActionFire u => Sys2Proof.Machine.execTimedActionFire u s
  | .taskRelease d => Sys2Proof.Machine.execTaskRelease d s
  | .taskDispatch cls => Sys2Proof.Machine.execTaskDispatch cls s
  | .taskEnd cls unit => Sys2Proof.Machine.execTaskEnd cls unit s
  | .fftSliceEnd tile => Sys2Proof.Machine.execFftSliceEnd tile s
  | .schedDeadlineMiss cls flow => Sys2Proof.Machine.execSchedDeadlineMiss cls flow s
  | .enqueueResume cls => Sys2Proof.Machine.execEnqueueResume cls s
  | .inputLevelChange c level => Sys2Proof.Machine.execInputLevelChange c level s
  | .inputFiltered c => Sys2Proof.Machine.execInputFiltered c s
  | .inputQualified c => Sys2Proof.Machine.execInputQualified c s
  | .chatter c => Sys2Proof.Machine.execChatter c s
  | .notFound a => Sys2Proof.Machine.execNotFound a s
  | .hardStopLatch a => Sys2Proof.Machine.execHardStopLatch a s
  | .groupSettled g => Sys2Proof.Machine.execGroupSettled g s
  | .enableTimeout a => Sys2Proof.Machine.execEnableTimeout a s
  | .disableTimeout a => Sys2Proof.Machine.execDisableTimeout a s
  | .groupEnableTimeout g => Sys2Proof.Machine.execGroupEnableTimeout g s
  | .injectionComplete a => Sys2Proof.Machine.execInjectionComplete a s
  | .frfComplete => Sys2Proof.Machine.execFrfComplete s
  | .openInput c low => Sys2Proof.Machine.execOpenInput c low s
  | .overtemp c tj => Sys2Proof.Machine.execOvertemp c tj s
  | .overtempTrip c tj => Sys2Proof.Machine.execOvertempTrip c tj s
  | .overload c => Sys2Proof.Machine.execOverload c s
  | .groupOverload x currents => Sys2Proof.Machine.execGroupOverload x currents s
  | .shortFlp c => Sys2Proof.Machine.execShortFlp c s
  | .openOff c => Sys2Proof.Machine.execOpenOff c s
  | .openOn c => Sys2Proof.Machine.execOpenOn c s
  | .codeCleared c code => Sys2Proof.Machine.execCodeCleared c code s
  | .channelRestart c => Sys2Proof.Machine.execChannelRestart c s
  | .supplyLow x mv => Sys2Proof.Machine.execSupplyLow x mv s
  | .supplyCut x mv => Sys2Proof.Machine.execSupplyCut x mv s
  | .supplyOver x mv => Sys2Proof.Machine.execSupplyOver x mv s
  | .supplyLatchRelease x => Sys2Proof.Machine.execSupplyLatchRelease x s
  | .logicSilence => Sys2Proof.Machine.execLogicSilence s
  | .stpHoldAssert n => Sys2Proof.Machine.execStpHoldAssert n s
  | .journalRecordSend => Sys2Proof.Machine.execJournalRecordSend s
  | .journalWrite => Sys2Proof.Machine.execJournalWrite s
  | .holdupWindowEnd => Sys2Proof.Machine.execHoldupWindowEnd s
  | .holdupDone => Sys2Proof.Machine.execHoldupDone s
  | .holdupCheck cMeas => Sys2Proof.Machine.execHoldupCheck cMeas s
  | .truncateEraseDone => Sys2Proof.Machine.execTruncateEraseDone s
  | .lpddrTrained => Sys2Proof.Machine.execLpddrTrained s
  | .stagedImageFound => Sys2Proof.Machine.execStagedImageFound s
  | .containerLoaded => Sys2Proof.Machine.execContainerLoaded s
  | .firmwareHandover => Sys2Proof.Machine.execFirmwareHandover s
  | .lpddrInitDone => Sys2Proof.Machine.execLpddrInitDone s
  | .bootRun => Sys2Proof.Machine.execBootRun s
  | .imageRecordReplay => Sys2Proof.Machine.execImageRecordReplay s
  | .romWatchdog => Sys2Proof.Machine.execRomWatchdog s
  | .initWatchdog => Sys2Proof.Machine.execInitWatchdog s
  | .bootUnconfirmed => Sys2Proof.Machine.execBootUnconfirmed s
  | .deviceReset bootsel stnaddr => Sys2Proof.Machine.execDeviceReset bootsel stnaddr s
  | .mbDoorbell mb w => Sys2Proof.Machine.execMbDoorbell mb w s
  | .badOpcodeCommand c => Sys2Proof.Machine.execBadOpcodeCommand c s
  | .fwUpdateDone => Sys2Proof.Machine.execFwUpdateDone s
  | .flpFirstRise x mv => Sys2Proof.Machine.execFlpFirstRise x mv s

end Sys2Proof.Machine
end

