-- ==== Sys2Proof/Machine/Tick.lean ====
section
/-!
DEFINITION. One tick of the 250 MHz time clock (R256).
-/
namespace Sys2Proof.Machine

/-- TIME_INC is added to the 96-bit sum of count and fraction (R256). -/
def timeTick (s : State) : State :=
  let sum := s.time.long.toNat * 2 ^ 32 + s.time.frac.toNat + s.time.inc.toNat
  { s with time := { s.time with long := BitVec.ofNat 64 (sum / 2 ^ 32), frac := BitVec.ofNat 32 sum } }

end Sys2Proof.Machine
end

