-- ==== Sys2Proof/Safety.lean ====
section
/-!
DEFINITION. What counts as a safe run, in the terms that the claims use: the invariant that every step keeps, the order in which
fuses may change, when SUP accepts a posted command, what its completion shows, and the classes of commands that the
whole-machine claims name.
-/
namespace Sys2Proof.Machine

/-! The invariant. -/

/-- The byte stores of the HOST island are in canonical form. -/
def HostOk (h : HostSt) : Prop :=
  Tab.wf 0 h.bar2 = true ∧ Tab.wf 0 h.staging = true ∧ Tab.wf 0 h.msix = true ∧ Tab.wf 0 h.hostRam = true

/-- HUB_PERIOD lies within its range (R409), and HUB_RD and HUB_WR are offsets of a dump in the 512 KiB ring (R411, R412). -/
def HubOk (h : HubSt) : Prop :=
  100 ≤ h.period ∧ h.period ≤ 1000000 ∧ h.rd % 8192 = 0 ∧ h.rd < 524288 ∧ h.wr % 8192 = 0 ∧ h.wr < 524288

/-- EVT_MAP has an entry for each of the 128 events, and each names one of the 32 vectors (R60). -/
def EvtOk (e : EvtBlock) : Prop := e.map.length = 128 ∧ ∀ v ∈ e.map, v.toNat < 32

/-- What every step keeps. -/
structure Inv (s : State) : Prop where
  host : HostOk s.host
  hub : HubOk s.hub
  evt : EvtOk s.evt

/-- No fuse that is blown in `f` is unblown in `g` (R378 to R381). -/
structure FusesLe (f g : Fuses) : Prop where
  vk0 : f.vk0Revoked = true → g.vk0Revoked = true
  set0 : f.owner0Set = true → g.owner0Set = true
  set1 : f.owner1Set = true → g.owner1Set = true
  rev0 : f.owner0Revoked = true → g.owner0Revoked = true
  lock : f.idLock = true → g.idLock = true
  svn : ∀ i, f.svn.getLsbD i = true → g.svn.getLsbD i = true

/-! Commands taken by SUP. -/

/-- The status with which SUP turns the command in `r` away, if any (R53). -/
def refusalOf (sp : CmdSpec) (r : CmdRef) (s : State) : Option Status :=
  let c := cmdOf sp r s
  firstBad (commonBad sp c (sp.kind c.h c.p s) s ++ (sp.body c s).bad)

/-- SUP takes the command in slot `r` next, a posted one of this opcode: of the doorbells that wait, its own is the first in the order
of R28, and the pool of SUP has a descriptor for it (R54). -/
abbrev Posted (sp : CmdSpec) (r : CmdRef) (s : State) : Prop :=
  supTakes s r.mb r.slot = true ∧ (hdrOf s r.mb r.slot).opcode = sp.opcode

/-- SUP accepts the command in `r`: no condition of R53 turns it away. -/
abbrev Accepted (sp : CmdSpec) (r : CmdRef) (s : State) : Prop := Posted sp r s ∧ refusalOf sp r s = none

/-- The payload of the command in `r`. -/
def payloadOf (sp : CmdSpec) (r : CmdRef) (s : State) : List Byte := (cmdOf sp r s).p
/-- OBJECT of the command in `r`. -/
def objectOf (r : CmdRef) (s : State) : Nat := (hdrOf s r.mb r.slot).object
/-- The promise time of the command in `r` (R32). -/
def dueOf (sp : CmdSpec) (r : CmdRef) (s : State) : Nat := (cmdOf sp r s).promise

/-- STATUS of the completion in slot `r` (table "Completion"). -/
def statusAt (s : State) (r : CmdRef) : Nat := leNat (mread s.host.bar2 (cplBuf r.mb r.slot + 2) 2)

/-- The slot is DONE with the result `res`: STATUS is OK or OK_ADJUSTED, and the result stands in the completion buffer or has
left by DMA (R48, R51). -/
def Served (r : CmdRef) (s t : State) (res : List Byte) : Prop :=
  slotOf t r.mb r.slot = .done ∧ statusAt t r ≤ 1 ∧
  (if (hdrOf s r.mb r.slot).indResult && res ≠ [] then ⟨.dma, (hdrOf s r.mb r.slot).resAddr, res⟩ ∈ t.out
   else mread t.host.bar2 (cplBuf r.mb r.slot + 32) (res.take 992).length = res.take 992)

/-- `t` differs from `u` at most in what a completion touches: mailbox slots, BAR2 bytes, events, counters, what left the device and
the number of the last admission. -/
structure Quiet (u t : State) : Prop where
  host : { t.host with mb := [], bar2 := [], pba := 0 } = { u.host with mb := [], bar2 := [], pba := 0 }
  mask : t.evt.mask = u.evt.mask
  map : t.evt.map = u.evt.map
  strm : t.strm = u.strm
  time : t.time = u.time
  cad : t.cad = u.cad
  ptp : t.ptp = u.ptp
  dev : t.dev = u.dev
  jrn : t.jrn = u.jrn
  hub : { t.hub with spokes := [] } = { u.hub with spokes := [] }
  xl : t.xl = u.xl
  bus : t.bus = u.bus
  pel : t.pel = u.pel
  axes : t.axes = u.axes
  grps : t.grps = u.grps
  sig : t.sig = u.sig
  sch : t.sch = u.sch
  io : t.io = u.io
  stp : t.stp = u.stp
  qp : t.qp = u.qp
  trc : { t.trc with occurred := 0 } = { u.trc with occurred := 0 }
  ssm : t.ssm = u.ssm
  eff : t.eff = u.eff
  tilesOut : t.tilesOut = u.tilesOut
  lanesOut : t.lanesOut = u.lanesOut
  free : t.free = u.free
  pending : t.pending = u.pending

/-- The command in `r` runs to its completion: the slot is DONE with the result `res`, and but for the completion the next state
is `u`. -/
def Does (i : Instr) (r : CmdRef) (s : State) (res : List Byte) (u : State) : Prop :=
  ∃ t, exec i s = .next t ∧ Served r s t res ∧ Quiet u t

/-- The command in `r` has begun: the slot is still POSTED, and but for the counters the next state is `u`. -/
def Begins (i : Instr) (r : CmdRef) (s u : State) : Prop :=
  ∃ t, exec i s = .next t ∧ slotOf t r.mb r.slot = .posted ∧ Quiet u t

/-- What the command in `r` leaves for its promise time (R32). -/
def effectOf (sp : CmdSpec) (r : CmdRef) (s : State) : Eff where
  opcode := (hdrOf s r.mb r.slot).opcode
  object := objectOf r s
  p := payloadOf sp r s
  tag := (hdrOf s r.mb r.slot).tag
  mb := r.mb
  slot := r.slot
  flags := (hdrOf s r.mb r.slot).flags
  req := (hdrOf s r.mb r.slot).reqTime
  due := dueOf sp r s
  seq := s.admitSeq + 1

/-- The state in which the effect of the command in `r` waits for its promise time, behind the effects that wait already. -/
def waiting (sp : CmdSpec) (r : CmdRef) (s : State) : State := { s with eff := s.eff ++ [effectOf sp r s] }

/-! Commands that are events. -/

/-- The command is carried out, and the next state is such that `P` holds. -/
def Gives (i : Instr) (s : State) (P : State → Prop) : Prop := ∃ t, exec i s = .next t ∧ P t

/-- The message of vector `v` has left in this tick, or waits as a pending bit of the vector (R60). -/
def Fired (t : State) (v : Nat) : Prop := tget 0 t.evt.sent v = now t + 1 ∨ t.host.pba.getLsbD v = true

/-- The event is pending (R59). -/
def Pending (t : State) (e : Nat) : Prop := t.evt.pend.getLsbD e = true

/-- `t` differs from `s` in the HOST island's registers and counters at most. -/
def OnlyHost (s t : State) : Prop := { t with host := s.host, hub := s.hub } = s

/-! What some results compute. -/

/-- ARRIVAL of an axis.move whose promise time is `due`: the end of the profile that it plans, plus APPLY of the axis (R72). -/
def axisArrival (s : State) (a due : Nat) (p : List Byte) : Nat :=
  let y := axisPredict s a due
  due + applyOf s a + ((axisMotion (pairLim s a) 0x0807 p due y).prof.elim 0 (fun pr => (nsOfSec pr.2.2.dur).toNat))

/-- Whether the limits of an axis.set_limits wait until the axis can rest within the new travel (R103). -/
def axisDefers (s : State) (a due : Nat) (p : List Byte) : Bool :=
  let y := memberPredict s a due
  let l := newLimits p (y.deferred.getD y.lim)
  travelBinds y && !inTravel (2 ^ 48) l (restPoint y.kin (pairLim s a l))

/-- ARRIVAL in the result of a grp.status: 0 with no path of joint moves, else the end of the last of them, plus APPLY. -/
def grpArrival (s : State) (g : Nat) : Nat :=
  let x := grpOf s g
  if x.mpc || x.moves = [] then 0
  else (if s.cad.phase = 0 then s.cad.start else s.cad.start + s.cad.ns) + grpApply s g
    + (nsOfSec (((predictStarts x.pathTime (secOfNs s.cad.ns) none x.moves).getLast?.map (·.2)).getD x.pathTime - x.pathTime)).toNat

/-- The target of a stp.move whose promise time is `due` (R347). -/
def stpTarget (x : StpAxis) (due : Nat) (p : List Byte) : Int := if u8 p 12 = 1 then (stpAhead x due).target + i64 p 0 else i64 p 0

/-- ARRIVAL of a stp.move: the end of the profile that it plans from the state at its promise time. -/
def stpArrival (x : StpAxis) (due : Nat) (p : List Byte) : Nat :=
  ((due : Int) + nsOfSec (planTo (stpAt (stpAhead x due) due) (stpTarget x due p * one) (x.lim.scaled (f32 (u32 p 8)))).dur).toNat

/-- Whether the limits of a stp.set_limits wait until the axis can rest within the new travel. -/
def stpDefers (x : StpAxis) (due : Nat) (p : List Byte) : Bool :=
  let l := newLimits p x.lim
  (bitOf (u32 p 0) 2 || bitOf (u32 p 0) 3) && stpBound x && !inTravel one l (restPoint (stpAt (stpAhead x due) due) l)

/-- The opcodes whose effect falls on a cadence start (R75): stops, coefficients and limits, changes of state, motion, step axes. -/
def cadenceOps : List Nat :=
  [0x0809, 0x070A, 0x0B02, 0x0B03, 0x0B04, 0x0B05, 0x0B06, 0x0808] ++ stateOps ++
  [0x0705, 0x0706, 0x0707, 0x0902, 0x0903, 0x0807, 0x1002, 0x1003, 0x1005, 0x1006, 0x1007, 0x1008]

/-! Classes of commands. -/

/-- The commands that reset die M or its HOST island (R40, R370, R372, R421). -/
def resets : Instr → Bool
  | .porstNAssert | .linkReset | .railResetExcursion _ | .deviceReset _ _ => true
  | _ => false

/-- The commands that reset die M or start it again (R370, R372, R402, R421). -/
def restarts : Instr → Bool
  | .porstNAssert | .porstNRelease _ _ | .pfailNRelease | .railResetExcursion _ | .deviceReset _ _ => true
  | _ => false

/-- The host accesses that may clear a pending bit (R61). -/
def clearsEvents : Instr → Bool
  | .evtPendClear _ _ _ | .registerWrite _ _ _ => true
  | _ => false

/-- The host accesses that may free a slot (R48). -/
def freesSlots : Instr → Bool
  | .mbDoneClear _ _ | .registerWrite _ _ _ => true
  | _ => false

/-- The host accesses that write BAR2 (R43). -/
def writesBar2 : Instr → Bool
  | .commandBufferWrite _ _ _ _ | .registerWrite _ _ _ => true
  | _ => false

/-- The order in which SUP checks (R53), with the two codes of a verification, which runs last. -/
def checkOrder : List Status :=
  [.deviceFault, .kickstand, .badOpcode, .badLength, .notPrivileged, .badObject, .notConfigured, .badArg, .outOfRange, .stateConflict,
   .objectBusy, .timeWindow, .lateDropped, .notSchedulable, .noCredit, .noMemory, .signatureInvalid, .rollback]

/-- The commands that FAULT mode serves (R363, and the accepted modes of the table "Boot and security commands"). -/
def servedInFault (consume : Bool) : Instr → Bool
  | .devBootStatus _ | .devReset _ | .secAttest _ | .timeStatus _ | .timePtpStatus _ | .busStatus _ | .pelStatus _ | .schedStatus _
    | .schedLoad _ | .schedWcet _ | .schedFlowStatus _ | .sigRead _ | .grpStatus _ | .qpStatus _ | .qpResult _ | .loopStatus _
    | .loopReadCoeff _ | .traceStatus _ | .zoneStatus _ | .ssmStatus _ | .ioStatus _ | .stpStatus _ | .pcSpokeInfo _
    | .jrnStatus _ | .jrnRead _ => true
  | .traceRead _ => !consume
  | _ => false

/-- The commands that report a refused verification or use up a challenge (R386, R387, R405). -/
def leavesTrace : Instr → Bool
  | .devLoadImage _ | .devUpdateFw _ | .jrnTruncate _ => true
  | _ => false

/-- The host accesses (R41 to R63), but for a write of MB_DOORBELL. -/
def hostAccess : Instr → Bool
  | .mbDoneClear _ _ | .mbStatClear _ _ | .commandBufferWrite _ _ _ _ | .evtPendClear _ _ _ | .evtLostClear _ _ | .evtMaskWrite _ _
    | .evtMapWrite _ _ | .timeLoRead _ | .timeLatch _ | .hubCtlWrite _ | .hubPeriodWrite _ | .hubRdWrite _ | .hubMirrorWrite _ _
    | .usrGrantWrite _ | .usrCtlWrite _ | .usrWinWrite _ | .streamProdWrite _ _ _ | .registerWrite _ _ _ => true
  | _ => false

/-- The mailbox command: what SUP checks and does for it, and its slot (R3, R45 to R53). -/
def mailbox : Instr → Option (CmdSpec × CmdRef)
  | .devBootStatus r => some (devBootStatusSpec, r)
  | .devReset r => some (devResetSpec, r)
  | .devConfirmBoot r => some (devConfirmBootSpec, r)
  | .devLoadImage r => some (devLoadImageSpec, r)
  | .devUpdateFw r => some (devUpdateFwSpec, r)
  | .timeStatus r => some (timeStatusSpec, r)
  | .timeConfigure r => some (timeConfigureSpec, r)
  | .timeSetPlant r => some (timeSetPlantSpec, r)
  | .timePtpPort r => some (timePtpPortSpec, r)
  | .timePtpStatus r => some (timePtpStatusSpec, r)
  | .busSetTiming r => some (busSetTimingSpec, r)
  | .busConfigureSegment r => some (busConfigureSegmentSpec, r)
  | .busStart r => some (busStartSpec, r)
  | .busStop r => some (busStopSpec, r)
  | .busLoadMatrix r => some (busLoadMatrixSpec, r)
  | .busSwitchMatrix r => some (busSwitchMatrixSpec, r)
  | .busMapAxis r => some (busMapAxisSpec, r)
  | .busSetAlias r => some (busSetAliasSpec, r)
  | .busStationReset r => some (busStationResetSpec, r)
  | .busRejoin r => some (busRejoinSpec, r)
  | .busAcyclic r => some (busAcyclicSpec, r)
  | .busStatus r => some (busStatusSpec, r)
  | .pelConfigure r => some (pelConfigureSpec, r)
  | .pelStart r => some (pelStartSpec, r)
  | .pelStop r => some (pelStopSpec, r)
  | .pelHandover r => some (pelHandoverSpec, r)
  | .pelFollowGm r => some (pelFollowGmSpec, r)
  | .pelStatus r => some (pelStatusSpec, r)
  | .schedStatus r => some (schedStatusSpec, r)
  | .schedLoad r => some (schedLoadSpec, r)
  | .schedWcet r => some (schedWcetSpec, r)
  | .schedSetWatermarks r => some (schedSetWatermarksSpec, r)
  | .schedClearStats r => some (schedClearStatsSpec, r)
  | .schedFlowStatus r => some (schedFlowStatusSpec, r)
  | .schedFlowLimit r => some (schedFlowLimitSpec, r)
  | .schedCancel r => some (schedCancelSpec, r)
  | .sigMap r => some (sigMapSpec, r)
  | .sigRead r => some (sigReadSpec, r)
  | .sigWrite r => some (sigWriteSpec, r)
  | .sigWatch r => some (sigWatchSpec, r)
  | .grpConfigure r => some (grpConfigureSpec, r)
  | .grpEnable r => some (grpEnableSpec, r)
  | .grpDisable r => some (grpDisableSpec, r)
  | .grpMove r => some (grpMoveSpec, r)
  | .grpHold r => some (grpHoldSpec, r)
  | .grpResume r => some (grpResumeSpec, r)
  | .grpHome r => some (grpHomeSpec, r)
  | .grpClear r => some (grpClearSpec, r)
  | .grpSetPayload r => some (grpSetPayloadSpec, r)
  | .grpStop r => some (grpStopSpec, r)
  | .grpStatus r => some (grpStatusSpec, r)
  | .axisConfigure r => some (axisConfigureSpec, r)
  | .axisEnable r => some (axisEnableSpec, r)
  | .axisDisable r => some (axisDisableSpec, r)
  | .axisClose r => some (axisCloseSpec, r)
  | .axisOpen r => some (axisOpenSpec, r)
  | .axisClear r => some (axisClearSpec, r)
  | .axisMove r => some (axisMoveSpec, r)
  | .axisSetLimits r => some (axisSetLimitsSpec, r)
  | .axisStop r => some (axisStopSpec, r)
  | .strmAttach r => some (strmAttachSpec, r)
  | .strmDetach r => some (strmDetachSpec, r)
  | .strmAnchor r => some (strmAnchorSpec, r)
  | .qpDefineClass r => some (qpDefineClassSpec, r)
  | .qpRemoveClass r => some (qpRemoveClassSpec, r)
  | .qpAssign r => some (qpAssignSpec, r)
  | .qpConfigure r => some (qpConfigureSpec, r)
  | .qpStatus r => some (qpStatusSpec, r)
  | .qpResult r => some (qpResultSpec, r)
  | .loopConfigure r => some (loopConfigureSpec, r)
  | .loopSetComp r => some (loopSetCompSpec, r)
  | .loopSetFilter r => some (loopSetFilterSpec, r)
  | .loopSetCascade r => some (loopSetCascadeSpec, r)
  | .loopSetCoeff r => some (loopSetCoeffSpec, r)
  | .loopSetLimits r => some (loopSetLimitsSpec, r)
  | .loopStatus r => some (loopStatusSpec, r)
  | .loopReadCoeff r => some (loopReadCoeffSpec, r)
  | .traceConfigure r => some (traceConfigureSpec, r)
  | .traceSetLength r => some (traceSetLengthSpec, r)
  | .traceArm r => some (traceArmSpec, r)
  | .traceTrigger r => some (traceTriggerSpec, r)
  | .traceStop r => some (traceStopSpec, r)
  | .traceStatus r => some (traceStatusSpec, r)
  | .traceRead r => some (traceReadSpec, r)
  | .traceInject r => some (traceInjectSpec, r)
  | .traceInjectStop r => some (traceInjectStopSpec, r)
  | .traceFrf r => some (traceFrfSpec, r)
  | .zoneDefine r => some (zoneDefineSpec, r)
  | .zoneRequest r => some (zoneRequestSpec, r)
  | .zoneRelease r => some (zoneReleaseSpec, r)
  | .zoneStatus r => some (zoneStatusSpec, r)
  | .ssmConfigure r => some (ssmConfigureSpec, r)
  | .ssmSetGroup r => some (ssmSetGroupSpec, r)
  | .ssmSetObstacles r => some (ssmSetObstaclesSpec, r)
  | .ssmSetSensor r => some (ssmSetSensorSpec, r)
  | .ssmStatus r => some (ssmStatusSpec, r)
  | .ioConfigure r => some (ioConfigureSpec, r)
  | .ioConfigureGroup r => some (ioConfigureGroupSpec, r)
  | .ioSetWatchdog r => some (ioSetWatchdogSpec, r)
  | .ioWrite r => some (ioWriteSpec, r)
  | .ioReenable r => some (ioReenableSpec, r)
  | .ioReleaseSafe r => some (ioReleaseSafeSpec, r)
  | .ioStoReset r => some (ioStoResetSpec, r)
  | .ioStatus r => some (ioStatusSpec, r)
  | .stpConfigure r => some (stpConfigureSpec, r)
  | .stpEnable r => some (stpEnableSpec, r)
  | .stpDisable r => some (stpDisableSpec, r)
  | .stpMove r => some (stpMoveSpec, r)
  | .stpStop r => some (stpStopSpec, r)
  | .stpHome r => some (stpHomeSpec, r)
  | .stpSetLimits r => some (stpSetLimitsSpec, r)
  | .stpClear r => some (stpClearSpec, r)
  | .stpStatus r => some (stpStatusSpec, r)
  | .pcSelect r => some (pcSelectSpec, r)
  | .pcSpokeInfo r => some (pcSpokeInfoSpec, r)
  | .jrnStatus r => some (jrnStatusSpec, r)
  | .jrnRead r => some (jrnReadSpec, r)
  | .jrnChallenge r => some (jrnChallengeSpec, r)
  | .jrnTruncate r => some (jrnTruncateSpec, r)
  | .jrnConfigure r => some (jrnConfigureSpec, r)
  | .jrnAnnotate r => some (jrnAnnotateSpec, r)
  | .secAttest r => some (secAttestSpec, r)
  | .secGetCert r => some (secGetCertSpec, r)
  | .secFuseStatus r => some (secFuseStatusSpec, r)
  | .secSetOwner r => some (secSetOwnerSpec, r)
  | .secRevokeOwner r => some (secRevokeOwnerSpec, r)
  | .secAdvanceSvn r => some (secAdvanceSvnSpec, r)
  | .secRevokeVendor r => some (secRevokeVendorSpec, r)
  | _ => none

/-- The rows of the table but for the mailbox commands, the resets and the replay of a command image. -/
def isRow : Instr → Bool
  | .imageRecordReplay => false
  | i => (mailbox i).isNone && !resets i

/-- The rows that may change the streams (R116 to R123). -/
def changesStreams : Instr → Bool
  | .commandBufferWrite _ _ _ _ | .streamProdWrite _ _ _ | .registerWrite _ _ _ | .fLockstep | .clockM | .eccUncorrectable _
    | .xlinkNak _ _ | .xlinkLost | .cadenceStart | .feedbackCutoff | .verdictDeadline | .tandemMismatch _ | .verdictAbsent _
    | .speedExceeded _ _ | .ch2Feedback _ => true
  | _ => false

/-- The rows that may change the cadence's own fields (R21 to R27). -/
def changesCadence : Instr → Bool
  | .cadenceStart | .feedbackCutoff | .computeEnd | .planningBoundary | .guardBoundary | .roundStart | .pelotonSync _ _ _ => true
  | _ => false

/-- The rows that may change the plant Ethernet ports (R272 to R275). -/
def changesPtp : Instr → Bool
  | .ptpMessage _ _ | .ptpInterval _ _ _ | .ptpAnnounceTimeout _ => true
  | _ => false

/-- The rows that may change the Virza segments (R277 to R302). -/
def changesBus : Instr → Bool
  | .eccUncorrectable _ | .cadenceStart | .feedbackCutoff | .roundStart | .stationFrame _ _ _ _ | .foreignFrame _
    | .stationSilenced _ _ | .masterCollision _ _ | .collisionWaitEnd _ | .ringChangeover _ | .vzLinkDown _ | .enumReturn _ _
    | .delayReturn _ _ | .arbFrameReturn _ _ _ | .acyclicFrame _ _ _ | .acyclicTimeout _ _ => true
  | _ => false

/-- The rows that may change the peloton (R303 to R321). -/
def changesPeloton : Instr → Bool
  | .cadenceStart | .roundStart | .vzLinkDown _ | .pelotonSync _ _ _ | .pelotonDelayReq _ _ _ | .pelotonDelayResp _ _ _ _
    | .pelotonEnum _ _ | .pelotonConfig _ _ | .pelStartTimeout | .pelSyncSet | .pelSyncLost | .pelTakeover | .announcementApply
    | .ptpAnnounceTimeout _ | .gmServoInterval _ => true
  | _ => false

/-- The rows that may change the axes (R65 to R72, R163 to R187). -/
def changesAxes : Instr → Bool
  | .fLockstep | .clockM | .eccUncorrectable _ | .xlinkNak _ _ | .xlinkLost | .fieldInputImage | .blackChannelCopy _ _
    | .cadenceStart | .feedbackCutoff | .computeEnd | .verdictDeadline | .tandemMismatch _ | .verdictAbsent _
    | .speedExceeded _ _ | .ch2Feedback _ | .stationFrame _ _ _ _ | .freewheelExpired _ | .schedDeadlineMiss _ _
    | .inputQualified _ | .hardStopLatch _ | .enableTimeout _ | .disableTimeout _ | .groupEnableTimeout _ => true
  | _ => false

/-- The rows that may change the groups (R73 to R132). -/
def changesGroups : Instr → Bool
  | .pfailNAssert | .thermCrit | .fLockstep | .clockM | .eccUncorrectable _ | .xlinkNak _ _ | .xlinkLost | .fieldInputImage
    | .cadenceStart | .feedbackCutoff | .computeEnd | .planningBoundary | .selectionPhase _ | .shiftStop _ | .verdictDeadline
    | .tandemMismatch _ | .verdictAbsent _ | .speedExceeded _ _ | .ch2Feedback _ | .schedDeadlineMiss _ _ | .inputQualified _
    | .chatter _ | .notFound _ | .groupSettled _ => true
  | _ => false

/-- The rows that may change the signal image (R89, R90). -/
def changesSignals : Instr → Bool
  | .eccUncorrectable _ | .cadenceStart | .computeEnd | .verdictDeadline | .roundStart => true
  | _ => false

/-- The rows that may change the scheduler (R239 to R255). -/
def changesScheduler : Instr → Bool
  | .fLockstep | .clockM | .xlinkNak _ _ | .xlinkLost | .cadenceStart | .feedbackCutoff | .computeEnd | .planningBoundary
    | .asmPhaseStart | .qpProblemDone _ | .qpDeadline _ _ | .selectionPhase _ | .verdictDeadline | .tandemMismatch _
    | .verdictAbsent _ | .speedExceeded _ _ | .ch2Feedback _ | .roundStart | .taskRelease _ | .taskDispatch _ | .taskEnd _ _
    | .fftSliceEnd _ | .schedDeadlineMiss _ _ | .enqueueResume _ | .injectionComplete _ | .bootRun | .eccUncorrectable _
    | .zoneRefused _ => true
  | _ => false

/-- The rows that may change the field channels (R322 to R343). -/
def changesChannels : Instr → Bool
  | .pfailNAssert | .fLockstep | .clockM | .xlinkNak _ _ | .xlinkLost | .fieldOutputImage _ | .fieldInputImage
    | .dieFActionReport _ | .cadenceStart | .feedbackCutoff | .computeEnd | .verdictDeadline | .tandemMismatch _
    | .verdictAbsent _ | .speedExceeded _ _ | .ch2Feedback _ | .ch2Override _ | .timedActionFire _ | .inputLevelChange _ _
    | .inputFiltered _ | .openInput _ _ | .overtemp _ _ | .overtempTrip _ _ | .overload _ | .groupOverload _ _ | .shortFlp _
    | .openOff _ | .openOn _ | .codeCleared _ _ | .channelRestart _ | .supplyLow _ _ | .supplyCut _ _ | .supplyOver _ _
    | .supplyLatchRelease _ | .logicSilence | .flpFirstRise _ _ => true
  | _ => false

/-- The rows that may change the step axes (R344 to R357). -/
def changesSteps : Instr → Bool
  | .pfailNAssert | .fLockstep | .clockM | .xlinkNak _ _ | .xlinkLost | .stepCommandRecord | .cadenceStart | .feedbackCutoff
    | .computeEnd | .verdictDeadline | .tandemMismatch _ | .verdictAbsent _ | .speedExceeded _ _ | .ch2Feedback _
    | .inputQualified _ | .chatter _ | .logicSilence | .stpHoldAssert _ => true
  | _ => false

/-- The rows that may change predictive control (R133 to R162). -/
def changesPlanning : Instr → Bool
  | .eccUncorrectable _ | .cadenceStart | .feedbackCutoff | .planningBoundary | .asmPhaseStart | .laneWindowStart | .qpProblemDone _
    | .qpDeadline _ _ | .selectionPhase _ | .shiftStop _ | .verdictDeadline | .schedDeadlineMiss _ _ => true
  | _ => false

/-- The rows that may change separation and zones (R204 to R238). -/
def changesSeparation : Instr → Bool
  | .fLockstep | .clockM | .eccUncorrectable _ | .xlinkNak _ _ | .xlinkLost | .ch2Verdict _ | .feedbackCutoff | .planningBoundary
    | .zoneRefused _ | .guardBoundary | .sensorStale _ | .verdictDeadline | .tandemMismatch _ | .verdictAbsent _
    | .speedExceeded _ _ | .ch2Feedback _ | .ch2Override _ | .sensorRecord _ _ _ | .roundStart => true
  | _ => false

/-- The rows that may change the time of the device (R256 to R265). -/
def changesTime : Instr → Bool
  | .timeLoRead _ | .timeLatch _ | .registerWrite _ _ _ | .porstNRelease _ _ | .pfailNRelease | .fLockstep | .clockM
    | .xlinkNak _ _ | .xlinkLost | .dieFActionReport _ | .cadenceStart | .feedbackCutoff | .computeEnd | .asmPhaseStart
    | .laneWindowStart | .qpProblemDone _ | .qpDeadline _ _ | .selectionPhase _ | .ch2Override _ | .roundStart
    | .latchInstant | .collisionWaitEnd _ | .acyclicTimeout _ _ | .pelotonSync _ _ _ | .pelStartTimeout | .announcementApply
    | .timedActionFire _ | .taskRelease _ | .schedDeadlineMiss _ _ | .inputFiltered _ | .inputQualified _ | .enableTimeout _
    | .disableTimeout _ | .groupEnableTimeout _ | .channelRestart _ | .supplyLatchRelease _ | .logicSilence
    | .stpHoldAssert _ | .bootUnconfirmed | .commandNoCredit _ _ | .eccUncorrectable _ | .fftSliceEnd _ | .hubDump _
    | .initWatchdog | .openOff _ | .openOn _ | .romWatchdog | .shortFlp _ | .trcFull _ | .xlinkTrainTimeout => true
  | _ => false

/-- The rows that may change the device's own fields, or end a command and with it the replay of an image (R361 to R395). -/
def changesDevice : Instr → Bool
  | .commandNoCredit _ _ | .porstNRelease _ _ | .pfailNAssert | .pfailNRelease | .railResetRelease _ | .thermWarn
    | .thermWarnClear | .thermCrit | .thermCritClear | .thermShutdown | .supLockstep | .fLockstep | .supervisorWatchdog
    | .clockM | .eccUncorrectable _ | .xlinkNak _ _ | .xlinkLost | .xlinkUp | .xlinkTrainTimeout | .cadenceStart | .roundStart
    | .masterCollision _ _ | .collisionWaitEnd _ | .vzLinkDown _ | .enumReturn _ _ | .acyclicFrame _ _ _ | .acyclicTimeout _ _
    | .pelotonSync _ _ _ | .pelotonEnum _ _ | .pelotonConfig _ _ | .pelStartTimeout | .pelSyncSet | .injectionComplete _
    | .frfComplete | .logicSilence | .lpddrTrained | .stagedImageFound | .containerLoaded | .firmwareHandover | .lpddrInitDone
    | .bootRun | .romWatchdog | .initWatchdog | .bootUnconfirmed | .badOpcodeCommand _ | .fwUpdateDone => true
  | _ => false

/-- The rows that may change the journal (R396 to R405). -/
def changesJournal : Instr → Bool
  | .pfailNAssert | .pfailNRelease | .pwrWarn _ | .thermWarn | .thermCrit | .thermShutdown | .supLockstep | .fLockstep
    | .supervisorWatchdog | .clockM | .eccUncorrectable _ | .xlinkNak _ _ | .xlinkLost | .xlinkUp | .xlinkTrainTimeout
    | .cadenceStart | .feedbackCutoff | .planningBoundary | .qpDeadline _ _ | .selectionPhase _ | .shiftStop _
    | .guardBoundary | .sensorStale _ | .verdictDeadline | .tandemMismatch _ | .verdictAbsent _ | .speedExceeded _ _
    | .ch2Feedback _ | .ch2Override _ | .roundStart | .stationSilenced _ _ | .masterCollision _ _ | .collisionWaitEnd _
    | .vzLinkDown _ | .pelotonSync _ _ _ | .pelotonDelayResp _ _ _ _ | .pelSyncLost | .pelTakeover | .announcementApply
    | .ptpAnnounceTimeout _ | .timedActionFire _ | .schedDeadlineMiss _ _ | .openInput _ _ | .overtemp _ _ | .overload _
    | .groupOverload _ _ | .shortFlp _ | .openOff _ | .openOn _ | .codeCleared _ _ | .supplyLow _ _ | .supplyCut _ _
    | .supplyOver _ _ | .supplyLatchRelease _ | .logicSilence | .journalRecordSend | .journalWrite | .holdupWindowEnd
    | .holdupDone | .holdupCheck _ | .truncateEraseDone | .stagedImageFound | .containerLoaded | .bootRun | .romWatchdog
    | .initWatchdog | .fwUpdateDone | .flpFirstRise _ _ | .computeEnd | .inputLevelChange _ _ | .thermWarnClear => true
  | _ => false

/-- The rows that may change the crosslink (R11 to R20). -/
def changesCrosslink : Instr → Bool
  | .thermShutdown | .supLockstep | .fLockstep | .supervisorWatchdog | .clockM | .eccUncorrectable _ | .xlinkFlit _ _
    | .xlinkNak _ _ | .xlinkLost | .xlinkUp | .xlinkTrainTimeout | .timeAlignFlit _ | .cadenceStart | .feedbackCutoff
    | .journalRecordSend | .sensorRecord _ _ _ | .stationFrame _ _ _ _ => true
  | _ => false

/-- The rows that may change the effects that wait for their promise time (R32). -/
def changesEffects : Instr → Bool
  | .cadenceStart | .feedbackCutoff | .planningBoundary | .roundStart | .gmServoInterval _ => true
  | _ => false

/-- The rows that may change the tiles and lanes in service (R364, R365). -/
def changesUnits : Instr → Bool
  | .eccUncorrectable _ => true
  | _ => false

end Sys2Proof.Machine
end

