-- ==== Sys2Proof/Certificates/Slice0/Obligations.lean ====
section
/-!
DEFINITION. The statements about the model. `Accepted` says that SUP turns the posted command away for no reason of R53; `Does`,
`Begins` and `Gives` say that the command is carried out and what the next state is.
-/
open Sys2Proof Sys2Proof.Machine

/-- A step takes the command at the front of the queue and runs it on the state with the queue's rest. -/
def Obligations.StepRunsFrontCommand : Prop := ∀ (c : Instr) (q : List Instr) (s : State),
  step { s with pending := c :: q } = exec c { s with pending := q }

/-- With nothing waiting, one tick of the 250 MHz clock passes and only the time count moves: TIME_INC is added to the 96-bit sum of
count and fraction (R256). That a step on an empty queue is a tick is the model's choice (log entry 2). -/
def Obligations.EmptyQueueTicks : Prop := ∀ s : State, s.pending = [] → ∃ (l : BitVec 64) (f : BitVec 32),
  step s = .next { s with time := { s.time with long := l, frac := f } } ∧
  l.toNat * 2 ^ 32 + f.toNat = (s.time.long.toNat * 2 ^ 32 + s.time.frac.toNat + s.time.inc.toNat) % 2 ^ 96

/-- The invariant holds after reset, and reset leaves what the rules name: mailbox slots FREE and no mailbox ready, no event pending or
lost, every event masked and mapped to vector e / 4, HUB_PERIOD 100, no axis, group, segment or step axis configured (R6, R45, R60, R371, R416). -/
def Obligations.ResetInvariant : Prop :=
  Inv State.reset ∧ State.reset.dev.mode = .reset ∧ State.reset.dev.mbReady = false ∧ (∀ m k, slotOf State.reset m k = .free) ∧
  State.reset.evt.pend = 0 ∧ State.reset.evt.lost = 0 ∧ State.reset.evt.mask = BitVec.allOnes 128 ∧
  (∀ e, e < 128 → vectorOf State.reset e = e / 4) ∧ State.reset.hub.period = 100 ∧
  (∀ a, (axisOf State.reset a).cfg.configured = false) ∧ (∀ g, (grpOf State.reset g).state = .idle) ∧
  (∀ k, (segOf State.reset k).configured = false) ∧ (∀ n, (stpOf State.reset n).state = .unconfigured)

/-- Every step keeps the invariant: the byte stores stay canonical, HUB_PERIOD stays in its range (R409), HUB_RD and HUB_WR stay offsets
of a dump in the ring (R411, R412), EVT_MAP stays an entry of vector 0 to 31 for each of the 128 events (R60). -/
def Obligations.StepKeepsInvariant : Prop := ∀ s t : State, Inv s → step s = .next t → Inv t

/-- No command changes the queue of waiting commands. -/
def Obligations.QueueUntouched : Prop := ∀ (i : Instr) (s t : State), exec i s = .next t → t.pending = s.pending

/-- A blown fuse stays blown, whatever the command, resets among them (R378 to R381). -/
def Obligations.FusesStayBlown : Prop := ∀ s t : State, step s = .next t → FusesLe s.dev.fuses t.dev.fuses

/-- A pending bit leaves only by the host's write of EVT_PEND or by a reset, a lost bit only by the host's write of EVT_LOST or by a
reset (R61). -/
def Obligations.EventsStayPending : Prop := ∀ (i : Instr) (s t : State), exec i s = .next t → resets i = false →
  (clearsEvents i = false → ∀ e, Pending s e → Pending t e) ∧
  ((∀ n w, i ≠ .evtLostClear n w) → (∀ b o d, i ≠ .registerWrite b o d) → ∀ e, s.evt.lost.getLsbD e = true → t.evt.lost.getLsbD e = true)

/-- A slot leaves DONE only by the host's write of MB_DONE or by a reset, POSTED only into DONE, and FREE only by its doorbell (R45, R48). -/
def Obligations.SlotsKeepTheirOrder : Prop := ∀ (i : Instr) (s t : State) (m k : Nat), exec i s = .next t → resets i = false →
  freesSlots i = false → (slotOf s m k = .done → slotOf t m k = .done) ∧ (slotOf s m k = .posted → slotOf t m k ≠ .free) ∧
  (slotOf s m k = .free → slotOf t m k = .free ∨ ∃ n w, i = .mbDoorbell n w ∧ n.val = m ∧ w.toNat = k ∧ slotOf t m k = .posted)

/-- Host writes to the command buffer of a POSTED slot are dropped and set WRITE_VIOLATION, and while the slot stays posted no command at
all but a reset changes one of its bytes: the device executes exactly the bytes present at the doorbell (R47). -/
def Obligations.PostedBytesStay : Prop := ∀ (m : Fin 8) (k : Fin 32) (s : State), slotOf s m k = .posted →
  (∀ (off : BitVec 12) (b : List Byte), bar2Live s = true → off.toNat + b.length ≤ 4096 → b ≠ [] →
    Gives (.commandBufferWrite m k off b) s fun t => t.host.bar2 = s.host.bar2 ∧ (mbOf t m).violation = true ∧
      exec (.registerWrite .bar2 (BitVec.ofNat 32 (cmdBuf m k + off.toNat)) b) s = .next t) ∧
  (∀ i t, exec i s = .next t → resets i = false →
    ∀ x < 4096, mget t.host.bar2 (cmdBuf m k + x) = mget s.host.bar2 (cmdBuf m k + x))

/-- FAULT mode ends only by a reset, FAULT_CAUSE keeps the first cause, and FAULT_N stays asserted (R361). -/
def Obligations.FaultModeStays : Prop := ∀ (i : Instr) (s t : State), exec i s = .next t → restarts i = false → s.dev.mode = .fault →
  t.dev.mode = .fault ∧ (s.dev.faultCause ≠ 0 → t.dev.faultCause = s.dev.faultCause) ∧ (s.dev.faultN = true → t.dev.faultN = true)

/-- A device whose crosslink has been lost stays in that state until it is reset by PORST_N or by a reset command (R20). A rail reset
excursion holds a die in reset (R421), so it is one too. -/
def Obligations.CrosslinkStaysLost : Prop := ∀ (i : Instr) (s t : State), exec i s = .next t → s.xl.lost = true →
  i ≠ .porstNAssert → (∀ b a, i ≠ .deviceReset b a) → (∀ r, i ≠ .railResetExcursion r) → t.xl.lost = true

/-- No command but a host access or a reset changes the host's own registers: the user page, the MSI-X table, EVT_MASK, EVT_MAP, HUB_CTL's
ENABLE, HUB_PERIOD, HUB_RD and the mirror address, the staging area and the command buffers of BAR2. -/
def Obligations.HostRegistersStay : Prop := ∀ (i : Instr) (s t : State), exec i s = .next t → resets i = false → hostAccess i = false →
  t.host.usrGrant = s.host.usrGrant ∧ t.host.usrEn = s.host.usrEn ∧ t.host.usrWin = s.host.usrWin ∧ t.host.msix = s.host.msix ∧
  t.host.staging = s.host.staging ∧ t.evt.mask = s.evt.mask ∧ t.evt.map = s.evt.map ∧ t.hub.enable = s.hub.enable ∧
  t.hub.period = s.hub.period ∧ t.hub.rd = s.hub.rd ∧ t.hub.mirror = s.hub.mirror ∧
  ∀ x < 0x100000, mget t.host.bar2 x = mget s.host.bar2 x

/-- The frame of the rows for motion, planning, the buses, the signal image, the scheduler and the field channels: only the rows that the
classes name change the part of the state that the class is about. -/
def Obligations.FrameOfMotionAndBuses : Prop := ∀ (i : Instr) (s t : State), exec i s = .next t → isRow i = true →
  (changesAxes i = false → t.axes = s.axes) ∧ (changesGroups i = false → t.grps = s.grps) ∧
  (changesStreams i = false → t.strm = s.strm) ∧ (changesSteps i = false → t.stp = s.stp) ∧
  (changesPlanning i = false → t.qp = s.qp) ∧ (changesSeparation i = false → t.ssm = s.ssm) ∧
  (changesBus i = false → t.bus = s.bus) ∧ (changesPeloton i = false → t.pel = s.pel) ∧ (changesPtp i = false → t.ptp = s.ptp) ∧
  (changesSignals i = false → t.sig = s.sig) ∧ (changesScheduler i = false → t.sch = s.sch) ∧ (changesChannels i = false → t.io = s.io)

/-- The frame of the rows for the device itself: the cadence's own fields, the time, the device's fields, the journal, the crosslink, the
effects that wait, the units in service. -/
def Obligations.FrameOfDevice : Prop := ∀ (i : Instr) (s t : State), exec i s = .next t → isRow i = true →
  (changesCadence i = false → t.cad = s.cad) ∧ (changesTime i = false → t.time = s.time) ∧ (changesDevice i = false → t.dev = s.dev) ∧
  (changesJournal i = false → t.jrn = s.jrn) ∧ (changesCrosslink i = false → t.xl = s.xl) ∧ (changesEffects i = false → t.eff = s.eff) ∧
  (changesUnits i = false → t.tilesOut = s.tilesOut ∧ t.lanesOut = s.lanesOut)

/-- A doorbell for a slot that is not FREE is ignored, and MB_STAT shows it (R46). -/
def Obligations.DoorbellOverrun : Prop := ∀ (m : Fin 8) (w : Word) (s : State), s.dev.mbReady = true → w.toNat < 32 →
  slotOf s m w.toNat ≠ .free → Gives (.mbDoorbell m w) s fun t =>
    (∀ n k, slotOf t n k = slotOf s n k) ∧ t.host.bar2 = s.host.bar2 ∧ OnlyHost s t ∧
    (mbOf t m).overrun = true ∧ (mbOf t m).lastOverrun.toNat = w.toNat ∧ (mbOf t m).overrunCount = (mbOf s m).overrunCount + 1

/-- An occurrence of event e sets its pending bit whether or not it is masked, and where the bit was set its EVT_LOST bit; no other bit
changes (R59). -/
def Obligations.EventOccurs : Prop := ∀ (e : Nat) (s : State), e < 128 →
  (raise e s).evt.pend = s.evt.pend ||| BitVec.twoPow 128 e ∧
  (raise e s).evt.lost = (if s.evt.pend.getLsbD e then s.evt.lost ||| BitVec.twoPow 128 e else s.evt.lost) ∧
  (raise e s).evt.mask = s.evt.mask ∧ (raise e s).evt.map = s.evt.map ∧
  (s.evt.mask.getLsbD e = false → ¬Pending s e → Fired (raise e s) (vectorOf s e))

/-- The order of the checks (R53): the status of a refused command is one whose condition holds, and none whose condition holds comes
before it. -/
def Obligations.RefusalOrder : Prop := ∀ (sp : CmdSpec) (r : CmdRef) (s : State) (st : Status), refusalOf sp r s = some st →
  let l := commonBad sp (cmdOf sp r s) (sp.kind (cmdOf sp r s).h (cmdOf sp r s).p s) s ++ (sp.body (cmdOf sp r s) s).bad
  (true, st) ∈ l ∧ ∀ x, (true, x) ∈ l → x ∈ checkOrder → checkOrder.idxOf st ≤ checkOrder.idxOf x

/-- A refused command completes with its status and has no other effect (R52); a command whose slot is not POSTED, or whose buffer holds
another opcode, does nothing. A mailbox-0-only command on mailboxes 1 to 7 is refused with NOT_PRIVILEGED or a code that is checked
before it (R53, R56). A refused load, update or truncation reports itself, so of it only the completion is stated. -/
def Obligations.RefusedCommands : Prop := ∀ (i : Instr) (sp : CmdSpec) (r : CmdRef) (s : State), mailbox i = some (sp, r) →
  (¬Posted sp r s → exec i s = .next s) ∧
  (∀ st, Posted sp r s → refusalOf sp r s = some st → Gives i s fun t =>
    slotOf t r.mb r.slot = .done ∧ statusAt t r = st.code ∧ (leavesTrace i = false → Quiet s t)) ∧
  (sp.priv = true → r.mb ≠ 0 → Posted sp r s →
    ∃ st ∈ [Status.deviceFault, .kickstand, .badOpcode, .badLength, .notPrivileged], refusalOf sp r s = some st)

/-- In FAULT mode every command but those that R363 names completes with DEVICE_FAULT, and with no core to serve them those do too. -/
def Obligations.FaultModeServes : Prop := ∀ (i : Instr) (sp : CmdSpec) (r : CmdRef) (s : State), mailbox i = some (sp, r) →
  Posted sp r s → s.dev.mode = .fault →
  (servedInFault (bitOf (u32 (payloadOf sp r s) 8) 0) i = false ∨ s.dev.noCore = true → Gives i s fun t =>
    slotOf t r.mb r.slot = .done ∧ statusAt t r = 0x0601) ∧
  (servedInFault (bitOf (u32 (payloadOf sp r s) 8) 0) i = true → s.dev.noCore = false →
    (true, Status.deviceFault) ∉ commonBad sp (cmdOf sp r s) (sp.kind (cmdOf sp r s).h (cmdOf sp r s).p s) s)

/-- The path of a completion (R40, R48): the buffer holds the header and the result, the slot is DONE, and event m is pending unless the
command's NO_EVENT flag is set; the completion of a slot that is no longer POSTED is discarded. -/
def Obligations.CompletionPath : Prop := ∀ (m : Fin 8) (k : Fin 32) (st : Status) (time state : Nat) (res : List Byte) (s : State),
  (slotOf s m k ≠ .posted → complete m k st time state res s = s) ∧
  (slotOf s m k = .posted → let t := complete m k st time state res s
    slotOf t m k = .done ∧ (∀ n j, ¬(n = m.val ∧ j = k.val) → slotOf t n j = slotOf s n j) ∧
    mread t.host.bar2 (cplBuf m k) 32 = cplBytes (hdrOf s m k) st time state res s ∧
    (¬((hdrOf s m k).indResult = true ∧ res ≠ []) →
      mread t.host.bar2 (cplBuf m k + 32) (res.take 992).length = res.take 992) ∧
    ((hdrOf s m k).noEvent = false → Pending t m) ∧ ((hdrOf s m k).noEvent = true → t.evt = s.evt) ∧ Quiet s t)

/-- A cadence start leaves no command waiting whose promise time has come, of those whose effect falls on a cadence start (R32, R75). -/
def Obligations.CadenceTakesEffects : Prop := ∀ s t : State, cadenceRuns s = true → s.dev.frozen = false →
  exec .cadenceStart s = .next t → ∀ e ∈ t.eff, e.opcode ∈ cadenceOps → t.cad.start < e.due

/-- What a command that has waited for its promise time does when the cadence start takes it (R66, R67, R72, R73, R76, R92, R93, R190, R245,
R297, R339, R350, R351). -/
def Obligations.DeferredEffects : Prop := ∀ (e : Eff) (s : State),
  let o := e.object
  (e.opcode = 0x0802 → (axisOf s o).state = .disabled → (axisOf s o).enable = none →
    (axisOf (stateEff e s) o).enable = some s.cad.start ∧ (axisOf (stateEff e s) o).sto = false ∧
    ∀ b, b ≠ o → axisOf (stateEff e s) b = axisOf s b) ∧
  (e.opcode = 0x0803 → (axisOf s o).state = .held → (axisOf (stateEff e s) o).state = .disabled ∧
    ∀ b, b ≠ o → axisOf (stateEff e s) b = axisOf s b) ∧
  (e.opcode = 0x0804 → (axisOf s o).state = .held → (axisOf (stateEff e s) o).state = .closed ∧
    (axisOf (stateEff e s) o).cmdP = ofQ64 (axisOf s o).actP ∧ (axisOf (stateEff e s) o).cmdV = 0) ∧
  (e.opcode = 0x0805 → (axisOf s o).state = .closed → (axisOf s o).cmdV = 0 → (axisOf (stateEff e s) o).state = .held) ∧
  (e.opcode = 0x0806 → (axisOf s o).state = .fault → (axisOf (stateEff e s) o).state = .disabled ∧
    (axisOf (stateEff e s) o).faultCode = 0) ∧
  (∀ cat, cat ≠ 0 → (axisOf s o).state = .closed → (axisOf (stopAxis true cat o s) o).state = .stopping) ∧
  ((axisOf s o).state = .closed → (axisOf (stopAxis true 0 o s) o).state = .disabled ∧ (axisOf (stopAxis true 0 o s) o).sto = true) ∧
  (e.opcode = 0x0702 → (grpOf s o).state = .idle → (grpOf (stateEff e s) o).state = .enabling) ∧
  (e.opcode = 0x0703 → ((grpOf s o).state = .ready ∨ (grpOf s o).state = .hold) → (grpOf (stateEff e s) o).state = .idle ∧
    ∀ a ∈ members s o, (axisOf (stateEff e s) a).state = .disabled) ∧
  ((grpOf s o).state = .moving → (grpOf (grpHoldEff e s) o).state = .stopping ∧ (grpOf (grpHoldEff e s) o).outcome = .hold) ∧
  (e.opcode = 0x0706 → (grpOf s o).state = .hold → (grpOf (motionEff e s) o).state = .moving) ∧
  (e.opcode = 0x0507 → flowOf (stateEff e s) o = { flowOf s o with qlim := u8 e.p 0 } ∧ ∀ f, f ≠ o → flowOf (stateEff e s) f = flowOf s f) ∧
  (e.opcode = 0x0C05 → (sesOf s o).state = .armed → (sesOf (stateEff e s) o).state = .stopped ∧ (sesOf (stateEff e s) o).reason = 2 ∧
    (sesOf (stateEff e s) o).rows = (sesOf s o).rows) ∧
  (e.opcode = 0x0F05 → u8 e.p 1 = 1 → (fgOf (stateEff e s) o).reenable = true) ∧
  (e.opcode = 0x0309 → (segOf (stateEff e s) o).silence = (segOf s o).silence &&& ~~~(BitVec.twoPow 256 (u8 e.p 0))) ∧
  (∀ t, e.opcode = 0x1002 → (stpOf s o).state = .disabled → (stpOf (stpEff t e s) o).state = .ready ∧ (stpOf (stpEff t e s) o).ena = true ∧
    ∀ n, n ≠ o → stpOf (stpEff t e s) n = stpOf s n) ∧
  (∀ t, e.opcode = 0x1003 → (stpOf s o).state = .ready → (stpOf (stpEff t e s) o).state = .disabled ∧ (stpOf (stpEff t e s) o).ena = false) ∧
  (∀ t, e.opcode = 0x1006 → (stpOf s o).state = .ready → (stpOf s o).homeMode ≠ 3 → (stpOf (stpEff t e s) o).state = .homing ∧
    (stpOf (stpEff t e s) o).homed = false)

/-! The commands of the mailboxes: what each accepted command does. `Does` says that the slot becomes DONE with the result and that
nothing but the completion differs from the state named. -/

/-- The dev commands (R384, R385, R388, R393, R395): each of them, accepted by SUP, completes: devBootStatus, devReset, devConfirmBoot,
devLoadImage, devUpdateFw; and what each leaves. -/
def Obligations.DevCommandsComplete : Prop := ∀ (r : CmdRef) (s : State),
  (Accepted devBootStatusSpec r s → ∃ t, Sys2Proof.Machine.exec (.devBootStatus r) s = .next t) ∧
  (Accepted devResetSpec r s → ∃ t, Sys2Proof.Machine.exec (.devReset r) s = .next t) ∧
  (Accepted devConfirmBootSpec r s → ∃ t, Sys2Proof.Machine.exec (.devConfirmBoot r) s = .next t) ∧
  (Accepted devLoadImageSpec r s → ∃ t, Sys2Proof.Machine.exec (.devLoadImage r) s = .next t) ∧
  (Accepted devUpdateFwSpec r s → ∃ t, Sys2Proof.Machine.exec (.devUpdateFw r) s = .next t) ∧
  (Accepted devBootStatusSpec r s →
    let d := s.dev
    Does (.devBootStatus r) r s
      (fields [(1, d.mode.code), (1, d.reason.toNat), (1, d.whyAttempts.toNat), (1, d.slot), (1, d.bootRec.active), (1, d.bootRec.trial),
        (1, d.bootsel.toNat), (1, fusedCount s), (4, slotVersion s 0), (4, slotVersion s 1), (4, d.bootRec.bootCount.toNat),
        (4, d.imageDone), (4, d.imageFailIndex), (2, d.imageFailStatus), (2, 0), (8, d.runTime.toNat)]) s) ∧
  (Accepted devResetSpec r s → u8 (payloadOf devResetSpec r s) 0 = 0 → u8 (payloadOf devResetSpec r s) 1 = 0 → s.dev.mode = .run →
    Does (.devReset r) r s [] { s with dev := { s.dev with resetAt := some (1000000 + now s) } }) ∧
  (Accepted devResetSpec r s → ∃ t, exec (.devReset r) s = .next t ∧ Served r s t [] ∧ t.dev.resetAt = some (1000000 + now s)) ∧
  (Accepted devConfirmBootSpec r s →
    let b := { s.dev.bootRec with
      attempts := 0, cause := 0, trial := 0, active := if s.dev.slot < 2 then s.dev.slot else s.dev.bootRec.active }
    Does (.devConfirmBoot r) r s [] { s with dev := { s.dev with
      fwConfirmed := true, bootRec := b, bootCopies := feWrite (bootRecBytes b) s.dev.bootCopies } }) ∧
  (Accepted devLoadImageSpec r s →
    let p := payloadOf devLoadImageSpec r s
    Begins (.devLoadImage r) r s { s with dev := { s.dev with
      replay := some { mb := r.mb, slot := r.slot, store := u32 p 0 = 1, image := p.drop 8 } } }) ∧
  (Accepted devUpdateFwSpec r s →
    Begins (.devUpdateFw r) r s { s with dev := { s.dev with
      op := some { mb := r.mb, slot := r.slot, target := if s.dev.mode = .run then 1 - s.dev.slot else 1 - s.dev.bootRec.active,
                   image := payloadOf devUpdateFwSpec r s } } })

/-- The sec commands (R378, R379, R380, R381, R391, R392): each of them, accepted by SUP, completes: secAttest, secGetCert, secFuseStatus,
secSetOwner, secRevokeOwner, secAdvanceSvn, secRevokeVendor; and what each leaves. -/
def Obligations.SecCommandsComplete : Prop := ∀ (r : CmdRef) (s : State),
  (Accepted secAttestSpec r s → ∃ t, Sys2Proof.Machine.exec (.secAttest r) s = .next t) ∧
  (Accepted secGetCertSpec r s → ∃ t, Sys2Proof.Machine.exec (.secGetCert r) s = .next t) ∧
  (Accepted secFuseStatusSpec r s → ∃ t, Sys2Proof.Machine.exec (.secFuseStatus r) s = .next t) ∧
  (Accepted secSetOwnerSpec r s → ∃ t, Sys2Proof.Machine.exec (.secSetOwner r) s = .next t) ∧
  (Accepted secRevokeOwnerSpec r s → ∃ t, Sys2Proof.Machine.exec (.secRevokeOwner r) s = .next t) ∧
  (Accepted secAdvanceSvnSpec r s → ∃ t, Sys2Proof.Machine.exec (.secAdvanceSvn r) s = .next t) ∧
  (Accepted secRevokeVendorSpec r s → ∃ t, Sys2Proof.Machine.exec (.secRevokeVendor r) s = .next t) ∧
  (Accepted secAttestSpec r s →
    let b := attestBody s (payloadOf secAttestSpec r s)
    Does (.secAttest r) r s (b ++ fit 4627 (Config.identitySign s.free (sha3 b))) (freeNext s)) ∧
  (Accepted secGetCertSpec r s → Does (.secGetCert r) r s (Config.certificate.take 12288) s) ∧
  (Accepted secFuseStatusSpec r s →
    Does (.secFuseStatus r) r s (fields [(1, fusedCount s), (1, keyFlags s + flagAt s.dev.fuses.idLock 4), (14, 0)]) s) ∧
  (Accepted secSetOwnerSpec r s →
    let p := payloadOf secSetOwnerSpec r s
    Does (.secSetOwner r) r s [] (journal 0x07 0x03 0 noObj 0 [BitVec.ofNat 8 (u8 p 0)] (modFuses (fun g => { g with
      ownerHash := tset 0 g.ownerHash (u8 p 0) (digestNat (sha3 (p.drop 4)))
      owner0Set := g.owner0Set || u8 p 0 = 0, owner1Set := g.owner1Set || u8 p 0 = 1 }) s))) ∧
  (Accepted secRevokeOwnerSpec r s →
    Does (.secRevokeOwner r) r s [] (journal 0x07 0x04 0 noObj 0 [] (modFuses (fun g => { g with owner0Revoked := true }) s))) ∧
  (Accepted secAdvanceSvnSpec r s →
    let n := max (fusedCount s) (min 64 (u8 s.dev.fwHdr 16))
    Does (.secAdvanceSvn r) r s (fields [(1, n), (3, 0)])
      (journal 0x07 0x06 0 noObj 0 [BitVec.ofNat 8 n] (modFuses (fun g => { g with svn := g.svn ||| BitVec.ofNat 64 (2 ^ n - 1) }) s))) ∧
  (Accepted secRevokeVendorSpec r s →
    Does (.secRevokeVendor r) r s [] (journal 0x07 0x05 0 noObj 0 [] (modFuses (fun g => { g with vk0Revoked := true }) s)))

/-- The time commands (R256, R267, R268, R272, R275): each of them, accepted by SUP, completes: timeStatus, timeConfigure, timeSetPlant,
timePtpPort, timePtpStatus; and what each leaves. A time change waits for its promise time, or in a peloton for its announcement. -/
def Obligations.TimeCommandsComplete : Prop := ∀ (r : CmdRef) (s : State),
  (Accepted timeStatusSpec r s → ∃ t, Sys2Proof.Machine.exec (.timeStatus r) s = .next t) ∧
  (Accepted timeConfigureSpec r s → ∃ t, Sys2Proof.Machine.exec (.timeConfigure r) s = .next t) ∧
  (Accepted timeSetPlantSpec r s → ∃ t, Sys2Proof.Machine.exec (.timeSetPlant r) s = .next t) ∧
  (Accepted timePtpPortSpec r s → ∃ t, Sys2Proof.Machine.exec (.timePtpPort r) s = .next t) ∧
  (Accepted timePtpStatusSpec r s → ∃ t, Sys2Proof.Machine.exec (.timePtpStatus r) s = .next t) ∧
  (Accepted timeStatusSpec r s →
    let t := s.time
    Does (.timeStatus r) r s (fields [(1, timeMode 0 s), (1, 0), (2, t.epoch.toNat), (2, (t.units.filter (fun e => e.2.isSome)).length),
      (2, 0), (8, t.long.toNat), (8, t.plant.toNat), (8, t.inc.toNat), (4, sn 4 t.freqCorr), (4, sn 4 t.slewRate),
      (8, sn 8 (t.slewRemain / 1000000000000)), (4, t.lateCount.toNat), (4, t.dropCount.toNat), (8, t.lastStep.toNat)]) s) ∧
  (Accepted timeConfigureSpec r s →
    let p := payloadOf timeConfigureSpec r s
    Does (.timeConfigure r) r s [] { s with time := { s.time with slewThresh := u32 p 0, slewPpm := u16 p 4, slewRamp := u16 p 6 } }) ∧
  (Accepted timeSetPlantSpec r s →
    let p := payloadOf timeSetPlantSpec r s
    let d := if u8 p 1 = 1 then i64 p 8 - plantAhead s else i64 p 8
    let step : Bool := u8 p 0 = 1 || isStep s d
    let due := dueOf timeSetPlantSpec r s
    let used := if d = 0 then 0 else if step then 2 else 1
    let res := fields [(1, used), (1, 0), (2, (s.time.epoch.toNat + (stepsAhead s due + if used = 2 then 1 else 0)) % 65536), (4, 0),
      (8, if used = 1 then slewEnd s due (slewLeft s + d * 1000000000000) else 0)]
    Does (.timeSetPlant r) r s res (if used = 0 then s else if inPeloton s then announceOrQueue step d due s
      else { s with eff := s.eff ++ [{ effectOf timeSetPlantSpec r s with p := fields [(1, used), (8, sn 8 d)] }] })) ∧
  (Accepted timePtpPortSpec r s →
    let p := payloadOf timePtpPortSpec r s
    let role := u8 p 0
    Does (.timePtpPort r) r s [] (setPtp (objectOf r s) { ptpOf s (objectOf r s) with
      role := role, transport := u8 p 1, p2p := u8 p 2 = 1, oneStep := u8 p 3 = 1, domain := u8 p 4, logSync := i8 p 5
      logDelay := i8 p 6, logAnnounce := i8 p 7, sdoId := u16 p 8, annTimeout := u8 p 10, clockClass := u8 p 11
      egressLat := u16 p 12, ingressLat := u16 p 14, asymmetry := i32 p 16, priority1 := u8 p 20, priority2 := u8 p 21
      clockAccuracy := u8 p 22, state := if role = 0 then 0 else if role = 1 then 2 else 1, link := role ≠ 0
      twoStepWait := false } s)) ∧
  (Accepted timePtpStatusSpec r s →
    let x := ptpOf s (objectOf r s)
    Does (.timePtpStatus r) r s (fields [(1, x.state), (1, b2n x.link), (6, 0), (8, x.gmId.toNat), (8, sn 8 x.offset),
      (8, sn 8 x.meanDelay), (4, x.txEvents.toNat), (4, x.rxEvents.toNat), (4, x.tsErrors.toNat), (4, x.discards.toNat)]) s)

/-- The bus commands (R278, R284, R286, R289, R294, R296, R297, R298, R302): each of them, accepted by SUP, completes: busSetTiming,
busConfigureSegment, busStart, busStop, busLoadMatrix, busSwitchMatrix, busMapAxis, busSetAlias, busStationReset, busRejoin, busAcyclic,
busStatus; and what each leaves. -/
def Obligations.BusCommandsComplete : Prop := ∀ (r : CmdRef) (s : State),
  (Accepted busSetTimingSpec r s → ∃ t, Sys2Proof.Machine.exec (.busSetTiming r) s = .next t) ∧
  (Accepted busConfigureSegmentSpec r s → ∃ t, Sys2Proof.Machine.exec (.busConfigureSegment r) s = .next t) ∧
  (Accepted busStartSpec r s → ∃ t, Sys2Proof.Machine.exec (.busStart r) s = .next t) ∧
  (Accepted busStopSpec r s → ∃ t, Sys2Proof.Machine.exec (.busStop r) s = .next t) ∧
  (Accepted busLoadMatrixSpec r s → ∃ t, Sys2Proof.Machine.exec (.busLoadMatrix r) s = .next t) ∧
  (Accepted busSwitchMatrixSpec r s → ∃ t, Sys2Proof.Machine.exec (.busSwitchMatrix r) s = .next t) ∧
  (Accepted busMapAxisSpec r s → ∃ t, Sys2Proof.Machine.exec (.busMapAxis r) s = .next t) ∧
  (Accepted busSetAliasSpec r s → ∃ t, Sys2Proof.Machine.exec (.busSetAlias r) s = .next t) ∧
  (Accepted busStationResetSpec r s → ∃ t, Sys2Proof.Machine.exec (.busStationReset r) s = .next t) ∧
  (Accepted busRejoinSpec r s → ∃ t, Sys2Proof.Machine.exec (.busRejoin r) s = .next t) ∧
  (Accepted busAcyclicSpec r s → ∃ t, Sys2Proof.Machine.exec (.busAcyclic r) s = .next t) ∧
  (Accepted busStatusSpec r s → ∃ t, Sys2Proof.Machine.exec (.busStatus r) s = .next t) ∧
  (Accepted busSetTimingSpec r s → Does (.busSetTiming r) r s [] (timingOf (payloadOf busSetTimingSpec r s) s)) ∧
  (Accepted busConfigureSegmentSpec r s →
    let k := objectOf r s
    let u := setSeg k (segmentOf (payloadOf busConfigureSegmentSpec r s) (segOf s k)) s
    let ring := u8 (payloadOf busConfigureSegmentSpec r s) 1
    Does (.busConfigureSegment r) r s [] { u with cad := { u.cad with configured := true } } ∧
    (u8 (payloadOf busConfigureSegmentSpec r s) 2 = 2 → ∃ t, exec (.busConfigureSegment r) s = .next t ∧ ∃ o ∈ t.out,
      o.kind = .mgmt ∧ o.unit = u8 (payloadOf busConfigureSegmentSpec r s) 0 ∧ (ring ≠ 0xFF → ∃ q ∈ t.out, q.kind = .mgmt ∧ q.unit = ring))) ∧
  (Accepted busStartSpec r s → Begins (.busStart r) r s
    (setStart (objectOf r s) { mb := r.mb, slot := r.slot } (segTo (objectOf r s) 2 s))) ∧
  (Accepted busStopSpec r s → Does (.busStop r) r s [] (waiting busStopSpec r s)) ∧
  (Accepted busLoadMatrixSpec r s →
    let k := objectOf r s
    let g := segOf s k
    let cols := columnsOf (payloadOf busLoadMatrixSpec r s)
    let b := if g.state = 3 then 1 - g.bank else 0
    Begins (.busLoadMatrix r) r s (setSeg k { (if b = 0 then { g with bank0 := cols } else { g with bank1 := cols }) with
      acked := false, loading := some (r.mb, r.slot), loadLeft := 2 * g.count } s)) ∧
  (Accepted busSwitchMatrixSpec r s → Does (.busSwitchMatrix r) r s [] (waiting busSwitchMatrixSpec r s)) ∧
  (Accepted busMapAxisSpec r s →
    let p := payloadOf busMapAxisSpec r s
    Does (.busMapAxis r) r s [] (modAxis (objectOf r s) (fun y => { y with map := if u8 p 0 = 255 then {} else {
      segment := u8 p 0, station := u8 p 1, chan := u8 p 2, safetyFb := bitOf (u8 p 3) 0, safetySp := bitOf (u8 p 3) 1
      safetyId := u32 p 4, nMiss := if u8 p 8 = 0xFF then 2 else u8 p 8 } }) s)) ∧
  (Accepted busSetAliasSpec r s → Does (.busSetAlias r) r s [] s ∧ ∃ t, exec (.busSetAlias r) s = .next t ∧
    ⟨.virza, (segOf s (objectOf r s)).portA, (payloadOf busSetAliasSpec r s).take 2⟩ ∈ t.out) ∧
  (Accepted busStationResetSpec r s → Does (.busStationReset r) r s [] (waiting busStationResetSpec r s)) ∧
  (Accepted busRejoinSpec r s → Does (.busRejoin r) r s [] (waiting busRejoinSpec r s)) ∧
  (Accepted busAcyclicSpec r s →
    let p := payloadOf busAcyclicSpec r s
    let g := segOf s (objectOf r s)
    Begins (.busAcyclic r) r s (setSeg (objectOf r s) { g with acyclic := g.acyclic ++
      [{ mb := r.mb, slot := r.slot, station := u8 p 0, bytes := (p.drop 4).take (u16 p 2) }] } s)) ∧
  (Accepted busStatusSpec r s →
    let k := objectOf r s
    let g := segOf s k
    Does (.busStatus r) r s (fields [(1, g.state), (1, if g.state = 3 then g.count else 0),
      (1, flagAt g.split 0 + flagAt (g.configured && g.linkA) 1 + flagAt (g.configured && g.ring && g.linkB) 2 + 8 * g.bank),
      (1, g.cause.toNat), (4, segApply s k), (8, g.otherUid.toNat), (4, g.fcsErrors.toNat), (4, g.windowViolations.toNat),
      (4, g.lateRecords.toNat), (4, g.missingRecords.toNat), (4, g.safetyErrors.toNat), (4, g.foreignFrames.toNat),
      (2, g.ringChanges.toNat), (2, g.collisions.toNat), (2, g.silenced.toNat), (2, 0), (32, g.silence.toNat)])
      (setSeg k { g with cause := 0 } s))

/-- The pel commands (R303, R309, R317, R320, R321): each of them, accepted by SUP, completes: pelConfigure, pelStart, pelStop, pelHandover,
pelFollowGm, pelStatus; and what each leaves. -/
def Obligations.PelCommandsComplete : Prop := ∀ (r : CmdRef) (s : State),
  (Accepted pelConfigureSpec r s → ∃ t, Sys2Proof.Machine.exec (.pelConfigure r) s = .next t) ∧
  (Accepted pelStartSpec r s → ∃ t, Sys2Proof.Machine.exec (.pelStart r) s = .next t) ∧
  (Accepted pelStopSpec r s → ∃ t, Sys2Proof.Machine.exec (.pelStop r) s = .next t) ∧
  (Accepted pelHandoverSpec r s → ∃ t, Sys2Proof.Machine.exec (.pelHandover r) s = .next t) ∧
  (Accepted pelFollowGmSpec r s → ∃ t, Sys2Proof.Machine.exec (.pelFollowGm r) s = .next t) ∧
  (Accepted pelStatusSpec r s → ∃ t, Sys2Proof.Machine.exec (.pelStatus r) s = .next t) ∧
  (Accepted pelConfigureSpec r s →
    let p := payloadOf pelConfigureSpec r s
    Does (.pelConfigure r) r s [] (modPel (fun q => { q with
      configured := true, upPort := u8 p 0, downPort := u8 p 1, strap := u8 p 2 = 1, expect := u8 p 3, asymUp := i32 p 4
      syncLostNs := u16 p 8, driftPpm := u16 p 10, delayJump := u16 p 12, xtalPpm := u16 p 14, upMode := u8 p 16
      downMode := u8 p 17 }) s)) ∧
  (Accepted pelStartSpec r s → joinsAsFollower s = true → ∃ t, exec (.pelStart r) s = .next t ∧ slotOf t r.mb r.slot = .posted ∧
    t.pel.state = 1 ∧ t.pel.isRef = false ∧ t.pel.started = some (r.mb.val, r.slot.val) ∧ t.pel.startAt = now s) ∧
  (Accepted pelStartSpec r s → joinsAsFollower s = false → (s.pel.strap = false ∨ s.dev.stnaddr = 0) →
    ∃ t, exec (.pelStart r) s = .next t ∧ slotOf t r.mb r.slot = .posted ∧
    t.pel.state = 1 ∧ t.pel.isRef = true ∧ t.pel.members = 1 ∧ t.pel.started = some (r.mb.val, r.slot.val) ∧ t.pel.startAt = now s) ∧
  (Accepted pelStartSpec r s → joinsAsFollower s = false → s.pel.strap = true → s.dev.stnaddr ≠ 0 →
    ∃ t, exec (.pelStart r) s = .next t ∧ slotOf t r.mb r.slot = .done ∧ t.pel.state = 3 ∧ t.pel.reason = 4 ∧ t.pel.started = none) ∧
  (Accepted pelStopSpec r s → Does (.pelStop r) r s [] (waiting pelStopSpec r s)) ∧
  (Accepted pelHandoverSpec r s → Does (.pelHandover r) r s [] (modPel (fun p => { p with
    ann := { kind := 3, at' := dueOf pelHandoverSpec r s, value := u8 (payloadOf pelHandoverSpec r s) 0 } }) s)) ∧
  (Accepted pelFollowGmSpec r s →
    let p := payloadOf pelFollowGmSpec r s
    let u := modPel (fun q => { q with
      follow := u8 p 0 = 1, followPort := u8 p 1, freqMax := u16 p 2, gmTau := BitVec.ofNat 32 (u32 p 4), intervals := 0
      gmOffset := 0, slewInInterval := 0, target := s.time.freqCorr, holdover := false }) s
    Does (.pelFollowGm r) r s [] (if timeMode 0 u = 4 && timeMode 0 s ≠ 4 then enterHoldover u else u)) ∧
  (Accepted pelStatusSpec r s →
    let p := s.pel
    Does (.pelStatus r) r s (fields [(1, p.state), (1, p.addr), (1, refAddr s), (1, ownHops s),
      (1, flagAt (pelSync s) 0 + flagAt (isRef s) 1 + flagAt (p.upPort ≠ 0xFF && p.upLink) 2
        + flagAt (p.downPort ≠ 0xFF && p.downLink) 3 + flagAt (finePath s) 4 + flagAt p.timingDown 5),
      (1, p.cause.toNat), (2, p.refGen.toNat), (4, p.members.toNat), (4, if isRef s then 0 else sn 4 p.theta),
      (4, sn 4 p.up.mean), (4, sn 4 p.down.mean), (2, silent s), (2, p.syncLosses.toNat), (2, p.takeovers.toNat),
      (2, p.driftEvents.toNat), (4, sn 4 p.xtalDiff), (4, p.delayRejects.toNat), (8, p.lastRefChange.toNat),
      (8, if p.follow then sn 8 (divEven p.gmOffset 65536) else 0), (8, if p.ann.kind = 0 then 0 else p.ann.at')])
      (freeNext (modPel (fun q => { q with cause := 0 }) s)))

/-- The sched commands (R245, R246, R250, R253, R254, R255): each of them, accepted by SUP, completes: schedStatus, schedLoad, schedWcet,
schedSetWatermarks, schedClearStats, schedFlowStatus, schedFlowLimit, schedCancel; and what each leaves. -/
def Obligations.SchedCommandsComplete : Prop := ∀ (r : CmdRef) (s : State),
  (Accepted schedStatusSpec r s → ∃ t, Sys2Proof.Machine.exec (.schedStatus r) s = .next t) ∧
  (Accepted schedLoadSpec r s → ∃ t, Sys2Proof.Machine.exec (.schedLoad r) s = .next t) ∧
  (Accepted schedWcetSpec r s → ∃ t, Sys2Proof.Machine.exec (.schedWcet r) s = .next t) ∧
  (Accepted schedSetWatermarksSpec r s → ∃ t, Sys2Proof.Machine.exec (.schedSetWatermarks r) s = .next t) ∧
  (Accepted schedClearStatsSpec r s → ∃ t, Sys2Proof.Machine.exec (.schedClearStats r) s = .next t) ∧
  (Accepted schedFlowStatusSpec r s → ∃ t, Sys2Proof.Machine.exec (.schedFlowStatus r) s = .next t) ∧
  (Accepted schedFlowLimitSpec r s → ∃ t, Sys2Proof.Machine.exec (.schedFlowLimit r) s = .next t) ∧
  (Accepted schedCancelSpec r s → ∃ t, Sys2Proof.Machine.exec (.schedCancel r) s = .next t) ∧
  (Accepted schedStatusSpec r s →
    let k := objectOf r s
    let x := clsOf s k
    Does (.schedStatus r) r s (fields [(1, k), (1, ((List.range (classUnits k)).filter (unitUp s k)).length), (2, 0),
      (4, x.ready.length), (4, x.depthMax), (4, poolFree s k), (4, min x.poolMin (poolFree s k)), (4, reserved s.sch.shares k),
      (4, x.stalls.toNat), (4, x.flowOverruns.toNat), (4, x.deadlineMisses.toNat), (4, x.cancelled.toNat), (8, x.clearTime.toNat)]
      ++ x.hist.flatMap (fun w => leBytes 4 w.toNat) ++ List.replicate 16 0) s) ∧
  (Accepted schedLoadSpec r s →
    let k := objectOf r s
    Does (.schedLoad r) r s (fields [(1, k), (1, classUnits k), (2, 0), (4, s.cad.round), (8, s.sch.roundStart.toNat)]
      ++ (List.range (classUnits k)).flatMap (fun u => if unitUp s k u
        then fields [(4, committed s.sch.shares k u), (4, tget 0 s.sch.latched (64 * k + u))]
        else fields [(4, 0xFFFFFFFF), (4, 0xFFFFFFFF)])) s) ∧
  (Accepted schedWcetSpec r s → Does (.schedWcet r) r s
    ((wcetEntry (objectOf r s) (bitOf (u32 (payloadOf schedWcetSpec r s) 0) 0) ((freeNow s).toNat % 2 ^ 32)).getD []) (freeNext s)) ∧
  (Accepted schedSetWatermarksSpec r s →
    let p := payloadOf schedSetWatermarksSpec r s
    Does (.schedSetWatermarks r) r s [] (setCls (objectOf r s) { clsOf s (objectOf r s) with depthHw := u16 p 0, poolLw := u16 p 2 } s)) ∧
  (Accepted schedClearStatsSpec r s →
    let k := objectOf r s
    let x := clsOf s k
    Does (.schedClearStats r) r s [] (setCls k { x with
      depthMax := x.ready.length, poolMin := poolFree s k, stalls := 0, flowOverruns := 0, deadlineMisses := 0
      cancelled := 0, hist := List.replicate 16 0, clearTime := s.time.long } s)) ∧
  (Accepted schedFlowStatusSpec r s →
    let f := objectOf r s
    let w := flowOf s f
    Does (.schedFlowStatus r) r s (fields [(1, flowState f s), (1, w.qlim), (1, w.queue.length), (1, (flowOwner f).1),
      (4, (flowOwner f).2), (4, w.overruns.toNat), (4, 0)] ++ w.service.elim (List.replicate 32 0) (fun x => descBytes x.d)) s) ∧
  (Accepted schedFlowLimitSpec r s → Does (.schedFlowLimit r) r s [] (waiting schedFlowLimitSpec r s)) ∧
  (Accepted schedCancelSpec r s → ∃ t, exec (.schedCancel r) s = .next t ∧ slotOf t r.mb r.slot = .done ∧
    slotOf t (objectOf r s / 32) (objectOf r s % 32) = .done)

/-- The sig commands (R91, R92, R93, R94): each of them, accepted by SUP, completes: sigMap, sigRead, sigWrite, sigWatch; and what each
leaves. -/
def Obligations.SigCommandsComplete : Prop := ∀ (r : CmdRef) (s : State),
  (Accepted sigMapSpec r s → ∃ t, Sys2Proof.Machine.exec (.sigMap r) s = .next t) ∧
  (Accepted sigReadSpec r s → ∃ t, Sys2Proof.Machine.exec (.sigRead r) s = .next t) ∧
  (Accepted sigWriteSpec r s → ∃ t, Sys2Proof.Machine.exec (.sigWrite r) s = .next t) ∧
  (Accepted sigWatchSpec r s → ∃ t, Sys2Proof.Machine.exec (.sigWatch r) s = .next t) ∧
  (Accepted sigMapSpec r s → Does (.sigMap r) r s [] (waiting sigMapSpec r s)) ∧
  (Accepted sigReadSpec r s → Does (.sigRead r) r s (fields [(4, s.sig.cadence), (4, s.sig.cadence), (8, 0)]
    ++ (List.range (u32 (payloadOf sigReadSpec r s) 0)).flatMap (fun i => signalBytes (signalOf s (objectOf r s + i)))) s) ∧
  (Accepted sigWriteSpec r s → Does (.sigWrite r) r s [] (waiting sigWriteSpec r s)) ∧
  (Accepted sigWatchSpec r s → Does (.sigWatch r) r s []
    (setShares ((regrade s (watchShare (watchesAhead s (objectOf r s) (u8 (payloadOf sigWatchSpec r s) 4)))).getD s.sch.shares)
      (waiting sigWatchSpec r s)))

/-- The axis commands (R66, R67, R76, R98, R102): each of them, accepted by SUP, completes: axisConfigure, axisEnable, axisDisable,
axisClose, axisOpen, axisClear, axisMove, axisSetLimits, axisStop; and what each leaves. -/
def Obligations.AxisCommandsComplete : Prop := ∀ (r : CmdRef) (s : State),
  (Accepted axisConfigureSpec r s → ∃ t, Sys2Proof.Machine.exec (.axisConfigure r) s = .next t) ∧
  (Accepted axisEnableSpec r s → ∃ t, Sys2Proof.Machine.exec (.axisEnable r) s = .next t) ∧
  (Accepted axisDisableSpec r s → ∃ t, Sys2Proof.Machine.exec (.axisDisable r) s = .next t) ∧
  (Accepted axisCloseSpec r s → ∃ t, Sys2Proof.Machine.exec (.axisClose r) s = .next t) ∧
  (Accepted axisOpenSpec r s → ∃ t, Sys2Proof.Machine.exec (.axisOpen r) s = .next t) ∧
  (Accepted axisClearSpec r s → ∃ t, Sys2Proof.Machine.exec (.axisClear r) s = .next t) ∧
  (Accepted axisMoveSpec r s → ∃ t, Sys2Proof.Machine.exec (.axisMove r) s = .next t) ∧
  (Accepted axisSetLimitsSpec r s → ∃ t, Sys2Proof.Machine.exec (.axisSetLimits r) s = .next t) ∧
  (Accepted axisStopSpec r s → ∃ t, Sys2Proof.Machine.exec (.axisStop r) s = .next t) ∧
  (Accepted axisConfigureSpec r s →
    let p := payloadOf axisConfigureSpec r s
    Does (.axisConfigure r) r s [] (modAxis (objectOf r s) (fun y => { y with
      homed := y.homed && (!y.cfg.configured || y.cfg.homeMode = u8 p 6)
      cfg := {
        configured := true, tEn := u32 p 0, faultStop := u8 p 4, linear := u8 p 5 = 1, homeMode := u8 p 6, homePhase := u8 p 7
        homeCh := u8 p 8, limP := u8 p 9, limN := u8 p 10, inPol := u8 p 11, tQ := u8 p 12, homeDir := u8 p 13
        vSearch := f32 (u32 p 16), vCreep := f32 (u32 p 20), searchDist := i64 p 24, homePos := i64 p 32
        torqueThr := f32 (u32 p 40), backoff := f32 (u32 p 44), settleWin := f32 (u32 p 48), settleTime := f32 (u32 p 52) } }) s)) ∧
  (Accepted axisEnableSpec r s → Does (.axisEnable r) r s [] (waiting axisEnableSpec r s)) ∧
  (Accepted axisDisableSpec r s → Does (.axisDisable r) r s [] (waiting axisDisableSpec r s)) ∧
  (Accepted axisCloseSpec r s → Does (.axisClose r) r s []
    (setShares ((placeOne s 0 s.sch.shares (loopShare s (objectOf r s))).getD []) (waiting axisCloseSpec r s))) ∧
  (Accepted axisOpenSpec r s → Does (.axisOpen r) r s [] (waiting axisOpenSpec r s)) ∧
  (Accepted axisClearSpec r s → Does (.axisClear r) r s [] (waiting axisClearSpec r s)) ∧
  (Accepted axisMoveSpec r s → Does (.axisMove r) r s
    (leBytes 8 (axisArrival s (objectOf r s) (dueOf axisMoveSpec r s) (payloadOf axisMoveSpec r s))) (waiting axisMoveSpec r s)) ∧
  (Accepted axisSetLimitsSpec r s → Does (.axisSetLimits r) r s
    (fields [(1, b2n (axisDefers s (objectOf r s) (dueOf axisSetLimitsSpec r s) (payloadOf axisSetLimitsSpec r s))), (7, 0)])
    (waiting axisSetLimitsSpec r s)) ∧
  (Accepted axisStopSpec r s → Does (.axisStop r) r s [] (waiting axisStopSpec r s))

/-- The grp commands (R70, R71, R72, R74, R76, R83, R106, R113, R114, R124): each of them, accepted by SUP, completes: grpConfigure,
grpEnable, grpDisable, grpMove, grpHold, grpResume, grpHome, grpClear, grpSetPayload, grpStop, grpStatus; and what each leaves. -/
def Obligations.GrpCommandsComplete : Prop := ∀ (r : CmdRef) (s : State),
  (Accepted grpConfigureSpec r s → ∃ t, Sys2Proof.Machine.exec (.grpConfigure r) s = .next t) ∧
  (Accepted grpEnableSpec r s → ∃ t, Sys2Proof.Machine.exec (.grpEnable r) s = .next t) ∧
  (Accepted grpDisableSpec r s → ∃ t, Sys2Proof.Machine.exec (.grpDisable r) s = .next t) ∧
  (Accepted grpMoveSpec r s → ∃ t, Sys2Proof.Machine.exec (.grpMove r) s = .next t) ∧
  (Accepted grpHoldSpec r s → ∃ t, Sys2Proof.Machine.exec (.grpHold r) s = .next t) ∧
  (Accepted grpResumeSpec r s → ∃ t, Sys2Proof.Machine.exec (.grpResume r) s = .next t) ∧
  (Accepted grpHomeSpec r s → ∃ t, Sys2Proof.Machine.exec (.grpHome r) s = .next t) ∧
  (Accepted grpClearSpec r s → ∃ t, Sys2Proof.Machine.exec (.grpClear r) s = .next t) ∧
  (Accepted grpSetPayloadSpec r s → ∃ t, Sys2Proof.Machine.exec (.grpSetPayload r) s = .next t) ∧
  (Accepted grpStopSpec r s → ∃ t, Sys2Proof.Machine.exec (.grpStop r) s = .next t) ∧
  (Accepted grpStatusSpec r s → ∃ t, Sys2Proof.Machine.exec (.grpStatus r) s = .next t) ∧
  (Accepted grpConfigureSpec r s →
    let m := modelOf (payloadOf grpConfigureSpec r s)
    Does (.grpConfigure r) r s [] (setShares
      ((if mJoints m ≤ 8 then grpLedger s (objectOf r s) m else none).getD s.sch.shares) (waiting grpConfigureSpec r s))) ∧
  (Accepted grpEnableSpec r s → (grpOf s (objectOf r s)).mpc = false →
    Does (.grpEnable r) r s [] (setShares ((enableLedger s (objectOf r s)).getD ([], [])).1 (waiting grpEnableSpec r s))) ∧
  (Accepted grpEnableSpec r s → (grpOf s (objectOf r s)).mpc = true →
    let l := (enableLedger s (objectOf r s)).getD ([], [])
    Does (.grpEnable r) r s [] (setShares l.1 (modQp (objectOf r s) (fun q => { q with
      scen := (q.scen.zip (List.range 4)).map (fun e => { e.1 with removed := l.2.contains e.2 }) }) (waiting grpEnableSpec r s)))) ∧
  (Accepted grpDisableSpec r s → Does (.grpDisable r) r s [] (waiting grpDisableSpec r s)) ∧
  (Accepted grpMoveSpec r s →
    let p := payloadOf grpMoveSpec r s
    let x := grpOf s (objectOf r s)
    ∃ (arrival : Nat) (blend : Fx), ((x.mpc = true ∨ u8 p 0 ≠ 0) → arrival = 0) ∧ ((x.mpc = true ∨ u8 p 1 ≠ 1) → blend = 0) ∧
    Does (.grpMove r) r s (fields [(8, arrival), (4, toF32 blend),
        (1, if u8 p 1 = 1 then queued s (objectOf r s) (dueOf grpMoveSpec r s) else 0), (3, 0)])
      { s with eff := s.eff ++ [{ effectOf grpMoveSpec r s with p := p ++ leBytes 8 (bitsOf 64 (blend / 2 ^ 40)) }] }) ∧
  (Accepted grpHoldSpec r s → Does (.grpHold r) r s [] (waiting grpHoldSpec r s)) ∧
  (Accepted grpResumeSpec r s → Does (.grpResume r) r s [] (waiting grpResumeSpec r s)) ∧
  (Accepted grpHomeSpec r s → Does (.grpHome r) r s [] (waiting grpHomeSpec r s)) ∧
  (Accepted grpClearSpec r s → Does (.grpClear r) r s [] (waiting grpClearSpec r s)) ∧
  (Accepted grpSetPayloadSpec r s → Does (.grpSetPayload r) r s [] (waiting grpSetPayloadSpec r s)) ∧
  (Accepted grpStopSpec r s → Does (.grpStop r) r s [] (waiting grpStopSpec r s)) ∧
  (Accepted grpStatusSpec r s →
    let x := grpOf s (objectOf r s)
    Does (.grpStatus r) r s (fields [(1, x.state.code), (1, x.lastEvent), (1, b2n x.mpc), (1, x.payloadSel),
      (1, (if x.mpc then x.mpcTargets.length else x.moves.length) - 1), (1, x.strm.getD 0xFF), (1, x.homeReason), (1, x.homeAxis),
      (1, bitsN ((List.range (jointsOf x)).map (fun i =>
        (axisOf s (jAxis x.model i)).homed || (axisOf s (jAxis x.model i)).cfg.homeMode = 0))),
      (3, 0), (4, toF32 x.lambda), (8, toF64 x.pathTime), (8, grpArrival s (objectOf r s))]) s)

/-- The strm commands (R116, R119, R120): each of them, accepted by SUP, completes: strmAttach, strmDetach, strmAnchor; and what each
leaves. -/
def Obligations.StrmCommandsComplete : Prop := ∀ (r : CmdRef) (s : State),
  (Accepted strmAttachSpec r s → ∃ t, Sys2Proof.Machine.exec (.strmAttach r) s = .next t) ∧
  (Accepted strmDetachSpec r s → ∃ t, Sys2Proof.Machine.exec (.strmDetach r) s = .next t) ∧
  (Accepted strmAnchorSpec r s → ∃ t, Sys2Proof.Machine.exec (.strmAnchor r) s = .next t) ∧
  (Accepted strmAttachSpec r s →
    let p := payloadOf strmAttachSpec r s
    let k := objectOf r s
    Does (.strmAttach r) r s [] (setShares ((regrade s (streamShare k)).getD s.sch.shares) (strmLow k (setStrm k { strmOf s k with
      prod := 0, prodSeen := 0, cons := 0, count := u32 p 4, lowWater := u32 p 8, attached := true, inHost := u8 p 1 = 1
      low := false, needsAnchor := true, prodInvalid := false, group := u8 p 0, lastStamp := 0, lastSeq := none
      ringAddr := if u8 p 1 = 1 then u64 p 16 else 0x200000 + k * 0x40000 }
      (modGrp (u8 p 0) (fun y => { y with strm := some k }) s))))) ∧
  (Accepted strmDetachSpec r s → Does (.strmDetach r) r s [] (waiting strmDetachSpec r s)) ∧
  (Accepted strmAnchorSpec r s → Begins (.strmAnchor r) r s (waiting strmAnchorSpec r s))

/-- The qp commands (R140, R141, R150, R151, R157): each of them, accepted by SUP, completes: qpDefineClass, qpRemoveClass, qpAssign,
qpConfigure, qpStatus, qpResult; and what each leaves. -/
def Obligations.QpCommandsComplete : Prop := ∀ (r : CmdRef) (s : State),
  (Accepted qpDefineClassSpec r s → ∃ t, Sys2Proof.Machine.exec (.qpDefineClass r) s = .next t) ∧
  (Accepted qpRemoveClassSpec r s → ∃ t, Sys2Proof.Machine.exec (.qpRemoveClass r) s = .next t) ∧
  (Accepted qpAssignSpec r s → ∃ t, Sys2Proof.Machine.exec (.qpAssign r) s = .next t) ∧
  (Accepted qpConfigureSpec r s → ∃ t, Sys2Proof.Machine.exec (.qpConfigure r) s = .next t) ∧
  (Accepted qpStatusSpec r s → ∃ t, Sys2Proof.Machine.exec (.qpStatus r) s = .next t) ∧
  (Accepted qpResultSpec r s → ∃ t, Sys2Proof.Machine.exec (.qpResult r) s = .next t) ∧
  (Accepted qpDefineClassSpec r s → classInUse s (objectOf r s) = false → Does (.qpDefineClass r) r s []
    { s with qp := { s.qp with classes := tset [] s.qp.classes (objectOf r s) (payloadOf qpDefineClassSpec r s) } }) ∧
  (Accepted qpDefineClassSpec r s → classInUse s (objectOf r s) = true → Does (.qpDefineClass r) r s []
    (setShares ((classLedger s (objectOf r s) (payloadOf qpDefineClassSpec r s)).getD s.sch.shares) (waiting qpDefineClassSpec r s))) ∧
  (Accepted qpRemoveClassSpec r s → Does (.qpRemoveClass r) r s []
    { s with qp := { s.qp with classes := tdrop s.qp.classes (objectOf r s) } }) ∧
  (Accepted qpAssignSpec r s →
    let p := payloadOf qpAssignSpec r s
    let g := objectOf r s
    Does (.qpAssign r) r s [] (setShares ((if (grpOf s g).state = .ready
        then placeAll s s.qp.reserve (s.sch.shares.filter (fun e => !isQpShare g e)) (assignShares s g p)
        else some s.sch.shares).getD s.sch.shares) (waiting qpAssignSpec r s))) ∧
  (Accepted qpConfigureSpec r s → Does (.qpConfigure r) r s []
    { s with qp := { s.qp with reserve := u32 (payloadOf qpConfigureSpec r s) 0 } }) ∧
  (Accepted qpStatusSpec r s →
    let g := objectOf r s
    let q := qpOf s g
    Does (.qpStatus r) r s (fields [(1, grpStateOf g s), (1, b2n (grpOf s g).solved), (1, q.fallbacks), (1, q.selected), (4, q.kappa),
      (1, bitsN (q.scen.map (·.removed))), (3, 0), (4, q.shifted.toNat), (4, q.lastIter.toNat), (4, q.failed.toNat),
      (4, q.missed.toNat), (4, q.stops.toNat)]) s) ∧
  (Accepted qpResultSpec r s →
    let q := qpOf s (objectOf r s)
    let y := (lget {} q.last q.lastSel).x
    let n := if y = [] then cSize (classOf s (lget {} q.scen 0).cls) else y.length
    let x := if q.lastSel = 0xFF then List.replicate n 0 else y
    Does (.qpResult r) r s (fields [(8, q.lastB), (1, q.lastSel), (1, q.scen.length), (6, 0)]
      ++ (List.range 4).flatMap (fun j => scenRecord (lget {} q.last j))
      ++ (if bitOf (u32 (payloadOf qpResultSpec r s) 0) 0 then x.flatMap (leBytes 4) else [])) s)

/-- The loop commands (R164, R171, R172, R175, R181, R182, R185, R187): each of them, accepted by SUP, completes: loopConfigure,
loopSetComp, loopSetFilter, loopSetCascade, loopSetCoeff, loopSetLimits, loopStatus, loopReadCoeff; and what each leaves. -/
def Obligations.LoopCommandsComplete : Prop := ∀ (r : CmdRef) (s : State),
  (Accepted loopConfigureSpec r s → ∃ t, Sys2Proof.Machine.exec (.loopConfigure r) s = .next t) ∧
  (Accepted loopSetCompSpec r s → ∃ t, Sys2Proof.Machine.exec (.loopSetComp r) s = .next t) ∧
  (Accepted loopSetFilterSpec r s → ∃ t, Sys2Proof.Machine.exec (.loopSetFilter r) s = .next t) ∧
  (Accepted loopSetCascadeSpec r s → ∃ t, Sys2Proof.Machine.exec (.loopSetCascade r) s = .next t) ∧
  (Accepted loopSetCoeffSpec r s → ∃ t, Sys2Proof.Machine.exec (.loopSetCoeff r) s = .next t) ∧
  (Accepted loopSetLimitsSpec r s → ∃ t, Sys2Proof.Machine.exec (.loopSetLimits r) s = .next t) ∧
  (Accepted loopStatusSpec r s → ∃ t, Sys2Proof.Machine.exec (.loopStatus r) s = .next t) ∧
  (Accepted loopReadCoeffSpec r s → ∃ t, Sys2Proof.Machine.exec (.loopReadCoeff r) s = .next t) ∧
  (Accepted loopConfigureSpec r s →
    let p := payloadOf loopConfigureSpec r s
    Does (.loopConfigure r) r s [] (modAxis (objectOf r s) (fun x => { x with loop := {
      configured := true, cascade := u8 p 0 = 1, liveTune := bitOf (u8 p 1) 0, velFf := bitOf (u8 p 1) 1, trqFf := bitOf (u8 p 1) 2
      es := u8 p 2, velFrac := u8 p 3, trqFrac := u8 p 4, vrefLim := x.lim.v
      satCount := x.loop.satCount, liveWrites := x.loop.liveWrites, lastApply := x.loop.lastApply } }) s)) ∧
  (Accepted loopSetCompSpec r s → Does (.loopSetComp r) r s [] (waiting loopSetCompSpec r s)) ∧
  (Accepted loopSetFilterSpec r s → Does (.loopSetFilter r) r s
    (fields [(1, bitsN ((filterOf (payloadOf loopSetFilterSpec r s)).map (fun e => e.elim false (·.2)))), (7, 0)]) (waiting loopSetFilterSpec r s)) ∧
  (Accepted loopSetCascadeSpec r s → Does (.loopSetCascade r) r s [] (waiting loopSetCascadeSpec r s)) ∧
  (Accepted loopSetCoeffSpec r s → Does (.loopSetCoeff r) r s [] (waiting loopSetCoeffSpec r s)) ∧
  (Accepted loopSetLimitsSpec r s → Does (.loopSetLimits r) r s [] (waiting loopSetLimitsSpec r s)) ∧
  (Accepted loopStatusSpec r s →
    let x := axisOf s (objectOf r s)
    let l := x.loop
    Does (.loopStatus r) r s (fields [(1, x.state.code),
      (1, flagAt l.clampActive 0 + flagAt l.slewActive 1 + flagAt l.liveTune 2 + flagAt l.cascade 3 + flagAt l.stale 4),
      (1, bitsN (l.filt.map (fun b => dcUnity b.w))), (1, if l.cascade then l.casc.length else l.filt.length),
      (4, sn 4 l.tout), (4, sn 4 l.uv), (4, sn 4 l.ep), (4, l.satCount.toNat), (4, l.liveWrites.toNat), (8, l.lastApply.toNat)]) s) ∧
  (Accepted loopReadCoeffSpec r s →
    let l := (axisOf s (objectOf r s)).loop
    Does (.loopReadCoeff r) r s (fields [(1, b2n l.cascade), (3, 0)] ++ (if l.cascade then
        fields [(1, l.casc.length), (3, 0)] ++ fit 288 (l.casc.flatMap (fun b => wordBytes b.w ++ fields [(1, b.sh), (3, 0)]))
      else compBytes 0 l.pos ++ compBytes 1 l.vel ++ fields [(1, l.filt.length), (3, 0)]
        ++ fit 160 (l.filt.flatMap (fun b => wordBytes b.w)))) s)

/-- The trace commands (R190, R191, R192, R193, R194, R196, R200, R201, R202): each of them, accepted by SUP, completes: traceConfigure,
traceSetLength, traceArm, traceTrigger, traceStop, traceStatus, traceRead, traceInject, traceInjectStop, traceFrf; and what each leaves. -/
def Obligations.TraceCommandsComplete : Prop := ∀ (r : CmdRef) (s : State),
  (Accepted traceConfigureSpec r s → ∃ t, Sys2Proof.Machine.exec (.traceConfigure r) s = .next t) ∧
  (Accepted traceSetLengthSpec r s → ∃ t, Sys2Proof.Machine.exec (.traceSetLength r) s = .next t) ∧
  (Accepted traceArmSpec r s → ∃ t, Sys2Proof.Machine.exec (.traceArm r) s = .next t) ∧
  (Accepted traceTriggerSpec r s → ∃ t, Sys2Proof.Machine.exec (.traceTrigger r) s = .next t) ∧
  (Accepted traceStopSpec r s → ∃ t, Sys2Proof.Machine.exec (.traceStop r) s = .next t) ∧
  (Accepted traceStatusSpec r s → ∃ t, Sys2Proof.Machine.exec (.traceStatus r) s = .next t) ∧
  (Accepted traceReadSpec r s → ∃ t, Sys2Proof.Machine.exec (.traceRead r) s = .next t) ∧
  (Accepted traceInjectSpec r s → ∃ t, Sys2Proof.Machine.exec (.traceInject r) s = .next t) ∧
  (Accepted traceInjectStopSpec r s → ∃ t, Sys2Proof.Machine.exec (.traceInjectStop r) s = .next t) ∧
  (Accepted traceFrfSpec r s → ∃ t, Sys2Proof.Machine.exec (.traceFrf r) s = .next t) ∧
  (Accepted traceConfigureSpec r s →
    let p := payloadOf traceConfigureSpec r s
    let k := objectOf r s
    let x := sesOf s k
    let n := unitsFor x.length (tChans p)
    Does (.traceConfigure r) r s [] (setSes k (if x.length ≠ 0 && tChans p ≠ tChans x.cfg
      then { x with cfg := p, state := .stopped, base := (runFor s k n).getD 0, units := n, wr := 0, valid := 0, validPre := 0, rd := 0
                    after := 0, rows := [], poisoned := [] }
      else { x with cfg := p, state := .stopped }) s)) ∧
  (Accepted traceSetLengthSpec r s →
    let p := payloadOf traceSetLengthSpec r s
    let x := sesOf s (objectOf r s)
    let n := unitsFor (u32 p 0) (tChans x.cfg)
    let base := (runFor s (objectOf r s) n).getD 0
    Does (.traceSetLength r) r s (fields [(4, 4096 * base), (4, 4096 * n)]) (setSes (objectOf r s) { x with
      length := u32 p 0, pre := u32 p 4, base := base, units := n, wr := 0, valid := 0, validPre := 0, rd := 0, after := 0, rows := [], poisoned := []
      poison := 0xFFFFFFFF, trigTime := 0 } s)) ∧
  (Accepted traceArmSpec r s → tSrc (sesOf s (objectOf r s)).cfg ≠ 2 → Does (.traceArm r) r s [] (waiting traceArmSpec r s)) ∧
  (Accepted traceArmSpec r s → tSrc (sesOf s (objectOf r s)).cfg = 2 →
    let time := u64 (payloadOf traceArmSpec r s) 0
    let u := arm { kind := .traceArm (objectOf r s), due := ceilTo 4 (max (dueOf traceArmSpec r s) time), tr := time
                   noLate := (hdrOf s r.mb r.slot).noLate } { s with admitSeq := s.admitSeq + 1 }
    Does (.traceArm r) r s [] { u with eff := s.eff ++ [effectOf traceArmSpec r s] }) ∧
  (Accepted traceTriggerSpec r s → Does (.traceTrigger r) r s []
    (arm { kind := .traceTrigger (objectOf r s), due := dueOf traceTriggerSpec r s, tr := (hdrOf s r.mb r.slot).reqTime
           noLate := (hdrOf s r.mb r.slot).noLate } { s with admitSeq := s.admitSeq + 1 })) ∧
  (Accepted traceStopSpec r s → Does (.traceStop r) r s [] (waiting traceStopSpec r s)) ∧
  (Accepted traceStatusSpec r s →
    let x := sesOf s (objectOf r s)
    Does (.traceStatus r) r s (fields [(1, x.state.code), (1, x.reason), (1, tChans x.cfg), (1, 0), (4, x.length), (4, x.wr),
      (4, x.valid), (4, x.validPre), (4, x.rd), (4, x.lost.toNat), (4, x.poison), (8, x.trigTime), (4, 4096 * x.base), (4, 0)]) s) ∧
  (Accepted traceReadSpec r s →
    let p := payloadOf traceReadSpec r s
    let x := sesOf s (objectOf r s)
    let first := (if tRoll x.cfg then x.rd else oldestRow x) + u32 p 0
    let rows := (List.range (u32 p 4)).map (rowAt x first)
    let m := u32 p 0 + u32 p 4
    Does (.traceRead r) r s (fields [(8, (rows.head?.map (·.1)).getD 0), (4, u32 p 4), (4, 0)]
        ++ rows.flatMap (fun e => e.2.flatMap (fun v => leBytes 4 (bitsOf 32 v))))
      (if bitOf (u32 p 8) 0 then setSes (objectOf r s) { x with rd := (x.rd + m) % max 1 x.length, after := x.after - m } s else s)) ∧
  (Accepted traceInjectSpec r s →
    let p := payloadOf traceInjectSpec r s
    let inj : Inject := { p := p, start := dueOf traceInjectSpec r s, inc := u32 p 16, c := (u32 p 16 : Int) * 65536, sr := 2 ^ u8 p 2 - 1 }
    Does (.traceInject r) r s [] (chargeInj (objectOf r s) true (setInj (objectOf r s) (some inj) s))) ∧
  (Accepted traceInjectStopSpec r s → 
    let u := setInj (objectOf r s) ((injOf s (objectOf r s)).map (fun i => { i with stop := some (r.mb.val, r.slot.val) })) s
    Begins (.traceInjectStop r) r s { u with eff := s.eff ++ [effectOf traceInjectStopSpec r s] }) ∧
  (Accepted traceFrfSpec r s → 
    let p := payloadOf traceFrfSpec r s
    let x := sesOf s (objectOf r s)
    Begins (.traceFrf r) r s { s with trc := { s.trc with frf := some { mb := r.mb, slot := r.slot, session := objectOf r s
                                                                        due := 50000 + now s + frfCads s (u16 p 4) (frfBlocks p x) * s.cad.ns
                                                                        blocks := frfBlocks p x } } })

/-- The zone commands (R208, R210, R211): each of them, accepted by SUP, completes: zoneDefine, zoneRequest, zoneRelease, zoneStatus; and
what each leaves. -/
def Obligations.ZoneCommandsComplete : Prop := ∀ (r : CmdRef) (s : State),
  (Accepted zoneDefineSpec r s → ∃ t, Sys2Proof.Machine.exec (.zoneDefine r) s = .next t) ∧
  (Accepted zoneRequestSpec r s → ∃ t, Sys2Proof.Machine.exec (.zoneRequest r) s = .next t) ∧
  (Accepted zoneReleaseSpec r s → ∃ t, Sys2Proof.Machine.exec (.zoneRelease r) s = .next t) ∧
  (Accepted zoneStatusSpec r s → ∃ t, Sys2Proof.Machine.exec (.zoneStatus r) s = .next t) ∧
  (Accepted zoneDefineSpec r s → Does (.zoneDefine r) r s [] (setZone (objectOf r s)
    { defined := true, box := (List.range 6).map (fun i => u32 (payloadOf zoneDefineSpec r s) (4 * i)) } s)) ∧
  (Accepted zoneRequestSpec r s →
    let p := payloadOf zoneRequestSpec r s
    let x := zoneOf s (objectOf r s)
    Does (.zoneRequest r) r s [] (setShares ((regrade s (zoneShare (zoneLoad s + 1))).getD s.sch.shares) (setZone (objectOf r s) { x with reqs := x.reqs ++
      [{ group := u8 p 0, deadline := u64 p 8, promise := dueOf zoneRequestSpec r s, seq := s.admitSeq + 1 }] } s))) ∧
  (Accepted zoneReleaseSpec r s →
    let g := u8 (payloadOf zoneReleaseSpec r s) 0
    let x := zoneOf s (objectOf r s)
    let due := dueOf zoneReleaseSpec r s
    let more : Bool := x.holder = some g && x.releaseAt.isNone
    Does (.zoneRelease r) r s [] (setShares (if more then (regrade s (zoneShare (zoneLoad s + 1))).getD s.sch.shares else s.sch.shares)
      (setZone (objectOf r s)
      (if x.holder = some g then { x with releaseAt := some (x.releaseAt.getD due) }
       else { x with reqs := x.reqs.map (fun q => if q.group = g then { q with withdraw := some (q.withdraw.getD due) } else q) }) s))) ∧
  (Accepted zoneStatusSpec r s →
    let x := zoneOf s (objectOf r s)
    Does (.zoneStatus r) r s (fields [(1, zoneState (objectOf r s) s), (1, x.holder.getD 0xFF), (1, x.reqs.length),
      (1, b2n x.releaseAt.isSome), (4, 0), (8, x.grant)]) s)

/-- The ssm commands (R206, R220, R227, R228, R231): each of them, accepted by SUP, completes: ssmConfigure, ssmSetGroup, ssmSetObstacles,
ssmSetSensor, ssmStatus; and what each leaves. -/
def Obligations.SsmCommandsComplete : Prop := ∀ (r : CmdRef) (s : State),
  (Accepted ssmConfigureSpec r s → ∃ t, Sys2Proof.Machine.exec (.ssmConfigure r) s = .next t) ∧
  (Accepted ssmSetGroupSpec r s → ∃ t, Sys2Proof.Machine.exec (.ssmSetGroup r) s = .next t) ∧
  (Accepted ssmSetObstaclesSpec r s → ∃ t, Sys2Proof.Machine.exec (.ssmSetObstacles r) s = .next t) ∧
  (Accepted ssmSetSensorSpec r s → ∃ t, Sys2Proof.Machine.exec (.ssmSetSensor r) s = .next t) ∧
  (Accepted ssmStatusSpec r s → ∃ t, Sys2Proof.Machine.exec (.ssmStatus r) s = .next t) ∧
  (Accepted ssmConfigureSpec r s → Does (.ssmConfigure r) r s [] { s with ssm := { s.ssm with
    cfg := payloadOf ssmConfigureSpec r s, cfgF := payloadOf ssmConfigureSpec r s } }) ∧
  (Accepted ssmSetGroupSpec r s →
    let p := payloadOf ssmSetGroupSpec r s
    let g := objectOf r s
    let y := ssmOf s g
    let u := modGrp g (fun x => { x with stoEnable := bitOf (u8 p 2) 1, stoCh := u8 p 3 })
      (setSsm g { cfg := p, cfgF := p, reason := y.reason, reasonAt := y.reasonAt, stops := y.stops } s)
    Does (.ssmSetGroup r) r s [] (if u8 p 0 = 0 then setGov g 256 u else u)) ∧
  (Accepted ssmSetObstaclesSpec r s →
    let p := payloadOf ssmSetObstaclesSpec r s
    Does (.ssmSetObstacles r) r s [] { s with ssm := { s.ssm with
      obsNext := s.ssm.obsNext ++ (List.range (u8 p 0)).map (fun i => (objectOf r s + i, obsSlot p i)) } }) ∧
  (Accepted ssmSetSensorSpec r s → Does (.ssmSetSensor r) r s [] (waiting ssmSetSensorSpec r s)) ∧
  (Accepted ssmStatusSpec r s →
    let g := objectOf r s
    let x := grpOf s g
    let y := ssmOf s g
    Does (.ssmStatus r) r s (fields [(1, x.state.code), (1, y.reason), (1, min 255 y.mismatch), (1, min 255 y.absent),
      (2, 128 * y.s1), (2, 128 * y.s2), (2, 128 * x.sGov), (2, 0), (4, toF32 y.d1), (4, toF32 y.d2),
      (4, toF32 (protDist y.cfg x.payloadSel (vhOf s false) 0)), (4, toF32 y.vrMeas),
      (2, bitsN ((List.range 16).map (fun n => u8 (sensOf s n).cfg 0 = 1 && (sensOf s n).stale1))), (2, 0), (8, tokens s g),
      (4, y.stops.toNat), (4, 0)]) s)

/-- The io commands (R322, R330, R331, R337, R339, R340, R341, R342): each of them, accepted by SUP, completes: ioConfigure,
ioConfigureGroup, ioSetWatchdog, ioWrite, ioReenable, ioReleaseSafe, ioStoReset, ioStatus; and what each leaves. -/
def Obligations.IoCommandsComplete : Prop := ∀ (r : CmdRef) (s : State),
  (Accepted ioConfigureSpec r s → ∃ t, Sys2Proof.Machine.exec (.ioConfigure r) s = .next t) ∧
  (Accepted ioConfigureGroupSpec r s → ∃ t, Sys2Proof.Machine.exec (.ioConfigureGroup r) s = .next t) ∧
  (Accepted ioSetWatchdogSpec r s → ∃ t, Sys2Proof.Machine.exec (.ioSetWatchdog r) s = .next t) ∧
  (Accepted ioWriteSpec r s → ∃ t, Sys2Proof.Machine.exec (.ioWrite r) s = .next t) ∧
  (Accepted ioReenableSpec r s → ∃ t, Sys2Proof.Machine.exec (.ioReenable r) s = .next t) ∧
  (Accepted ioReleaseSafeSpec r s → ∃ t, Sys2Proof.Machine.exec (.ioReleaseSafe r) s = .next t) ∧
  (Accepted ioStoResetSpec r s → ∃ t, Sys2Proof.Machine.exec (.ioStoReset r) s = .next t) ∧
  (Accepted ioStatusSpec r s → ∃ t, Sys2Proof.Machine.exec (.ioStatus r) s = .next t) ∧
  (Accepted ioConfigureSpec r s →
    let p := payloadOf ioConfigureSpec r s
    let o := objectOf r s
    let sto := (fgOf s (o / 8)).sto
    Does (.ioConfigure r) r s [] (setChan o { chanOf s o with
      role := u8 p 0, inType := u8 p 1, owEn := bitOf (u8 p 2) 0, auto := bitOf (u8 p 2) 1, safe := u8 p 3, filterUs := u16 p 4
      tOvl := u16 p 6, tOpen := u16 p 8, restartsMax := u8 p 10, tRestart := u16 p 12
      stoMask := BitVec.ofNat 16 (u16 p 14), mCmd := sto && u8 p 0 = 2, commanded := false } s)) ∧
  (Accepted ioConfigureGroupSpec r s →
    let p := payloadOf ioConfigureGroupSpec r s
    Does (.ioConfigureGroup r) r s [] (setFg (objectOf r s) { fgOf s (objectOf r s) with
      sto := u8 p 0 = 1, autoRe := bitOf (u8 p 1) 0, inputsOnFlp := bitOf (u8 p 1) 1 } s)) ∧
  (Accepted ioSetWatchdogSpec r s → Does (.ioSetWatchdog r) r s []
    { s with io := { s.io with tWdNext := some (u8 (payloadOf ioSetWatchdogSpec r s) 0) } }) ∧
  (Accepted ioWriteSpec r s →
    let p := payloadOf ioWriteSpec r s
    Does (.ioWrite r) r s [] (arm { kind := .ioWrite (BitVec.ofNat 32 (u32 p 0)) (BitVec.ofNat 32 (u32 p 4)), dieF := true
                                    due := dueOf ioWriteSpec r s, tr := (hdrOf s r.mb r.slot).reqTime
                                    noLate := (hdrOf s r.mb r.slot).noLate } { s with admitSeq := s.admitSeq + 1 })) ∧
  (Accepted ioReenableSpec r s → Does (.ioReenable r) r s [] (waiting ioReenableSpec r s)) ∧
  (Accepted ioReleaseSafeSpec r s → Does (.ioReleaseSafe r) r s [] (waiting ioReleaseSafeSpec r s)) ∧
  (Accepted ioStoResetSpec r s → Does (.ioStoReset r) r s [] (waiting ioStoResetSpec r s)) ∧
  (Accepted ioStatusSpec r s →
    let x := objectOf r s
    let f := fgOf s x
    let chs := (List.range 8).map (8 * x + ·)
    Does (.ioStatus r) r s (fields [(2, f.flpMv), (1, f.supply), (1, flagAt f.sto 0 + flagAt f.autoRe 1 + flagAt f.inputsOnFlp 2
        + flagAt f.latched 3 + 16 * s.io.safe), (2, chs.foldl (fun n k => n + measuredMa s k) 0), (10, 0)]
      ++ chs.flatMap (fun k => fields [(1, chanState s k), (1, chanDiag s k),
        (1, flagAt (chanOf s k).commanded 0 + flagAt (chanOf s k).pin 1 + flagAt (chanOf s k).sto 2 + flagAt (chanOf s k).auto 3),
        (1, min 127 (chanOf s k).tj), (2, measuredMa s k), (2, (chanOf s k).trips.toNat), (4, shortOf (chanOf s k).seenEdge)]))
      { s with free := s.free + 8 })

/-- The stp commands (R344, R347, R350, R351, R352, R353, R354, R355): each of them, accepted by SUP, completes: stpConfigure, stpEnable,
stpDisable, stpMove, stpStop, stpHome, stpSetLimits, stpClear, stpStatus; and what each leaves. -/
def Obligations.StpCommandsComplete : Prop := ∀ (r : CmdRef) (s : State),
  (Accepted stpConfigureSpec r s → ∃ t, Sys2Proof.Machine.exec (.stpConfigure r) s = .next t) ∧
  (Accepted stpEnableSpec r s → ∃ t, Sys2Proof.Machine.exec (.stpEnable r) s = .next t) ∧
  (Accepted stpDisableSpec r s → ∃ t, Sys2Proof.Machine.exec (.stpDisable r) s = .next t) ∧
  (Accepted stpMoveSpec r s → ∃ t, Sys2Proof.Machine.exec (.stpMove r) s = .next t) ∧
  (Accepted stpStopSpec r s → ∃ t, Sys2Proof.Machine.exec (.stpStop r) s = .next t) ∧
  (Accepted stpHomeSpec r s → ∃ t, Sys2Proof.Machine.exec (.stpHome r) s = .next t) ∧
  (Accepted stpSetLimitsSpec r s → ∃ t, Sys2Proof.Machine.exec (.stpSetLimits r) s = .next t) ∧
  (Accepted stpClearSpec r s → ∃ t, Sys2Proof.Machine.exec (.stpClear r) s = .next t) ∧
  (Accepted stpStatusSpec r s → ∃ t, Sys2Proof.Machine.exec (.stpStatus r) s = .next t) ∧
  (Accepted stpConfigureSpec r s →
    let p := payloadOf stpConfigureSpec r s
    let n := objectOf r s
    let x := stpOf s n
    Does (.stpConfigure r) r s [] (stpGo n .disabled (stpPut n { x with
      se5v := u8 p 0 = 1, pol := BitVec.ofNat 4 (u8 p 1), enaSafe := u8 p 2 = 1, homeMode := u8 p 3
      homeCh := u8 p 4, limP := u8 p 5, limN := u8 p 6, inPol := u8 p 7, tQ := u8 p 8, homeDir := u8 p 9
      limitImmediate := u8 p 10 = 1, pulseNs := u16 p 12, dirSetupNs := u16 p 14, holdDelay := u32 p 16
      holdLead := u16 p 20, enaDelay := u16 p 22, stopMask := BitVec.ofNat 16 (u16 p 24)
      vSearch := f32 (u32 p 28), searchDist := i64 p 32, homePos := i64 p 40
      homed := x.homed && x.homeMode = u8 p 3 } s))) ∧
  (Accepted stpEnableSpec r s → Does (.stpEnable r) r s [] (waiting stpEnableSpec r s)) ∧
  (Accepted stpDisableSpec r s → Does (.stpDisable r) r s [] (waiting stpDisableSpec r s)) ∧
  (Accepted stpMoveSpec r s →
    let p := payloadOf stpMoveSpec r s
    let n := objectOf r s
    let x := stpOf s n
    let due := dueOf stpMoveSpec r s
    Does (.stpMove r) r s (leBytes 8 (stpArrival x due p)) (setStp n { x with queue := x.queue ++
      [{ target := stpTarget x due p, speed := f32 (u32 p 8), tag := (hdrOf s r.mb r.slot).tag, at' := due, seq := s.admitSeq + 1 }] } s)) ∧
  (Accepted stpStopSpec r s → u8 (payloadOf stpStopSpec r s) 0 = 1 → Does (.stpStop r) r s [] (waiting stpStopSpec r s)) ∧
  (Accepted stpStopSpec r s → u8 (payloadOf stpStopSpec r s) 0 = 0 →
    Does (.stpStop r) r s [] (stpRamp (objectOf r s) (dueOf stpStopSpec r s) s)) ∧
  (Accepted stpHomeSpec r s → Does (.stpHome r) r s [] (waiting stpHomeSpec r s)) ∧
  (Accepted stpSetLimitsSpec r s → Does (.stpSetLimits r) r s
    (fields [(1, b2n (stpDefers (stpOf s (objectOf r s)) (dueOf stpSetLimitsSpec r s) (payloadOf stpSetLimitsSpec r s))), (7, 0)])
    (waiting stpSetLimitsSpec r s)) ∧
  (Accepted stpClearSpec r s → Does (.stpClear r) r s [] (waiting stpClearSpec r s)) ∧
  (Accepted stpStatusSpec r s →
    let n := objectOf r s
    let x := stpOf s n
    Does (.stpStatus r) r s (fields [(1, x.state.code), (1, flagAt x.ena 0 + flagAt x.hold 1 + flagAt x.dir 2 + flagAt x.homed 3
        + flagAt x.suspect 4 + flagAt x.deferredLim.isSome 5), (1, x.homeReason), (1, x.cause.toNat),
      (4, x.discarded.toNat), (8, sn 8 x.emitted), (8, sn 8 x.target), (4, toF32 x.cmdV), (4, x.delayed.toNat)])
      (setStp n { x with cause := 0 } s))

/-- The pc commands (R408, R415): each of them, accepted by SUP, completes: pcSelect, pcSpokeInfo; and what each leaves. -/
def Obligations.PcCommandsComplete : Prop := ∀ (r : CmdRef) (s : State),
  (Accepted pcSelectSpec r s → ∃ t, Sys2Proof.Machine.exec (.pcSelect r) s = .next t) ∧
  (Accepted pcSpokeInfoSpec r s → ∃ t, Sys2Proof.Machine.exec (.pcSpokeInfo r) s = .next t) ∧
  (Accepted pcSelectSpec r s →
    let p := payloadOf pcSelectSpec r s
    let i := objectOf r s
    ∃ t, exec (.pcSelect r) s = .next t ∧ Served r s t (leBytes 8 (nextLatch s)) ∧
      (spokeOf t i).next = ((List.range 8).filter (fun j => bitOf (u8 p 0) j)).foldl
        (fun l j => lset l j (some (u16 p (4 + 2 * j)))) (spokeOf s i).next ∧
      (spokeOf t i).sel = (spokeOf s i).sel) ∧
  (Accepted pcSpokeInfoSpec r s →
    let i := objectOf r s
    let p := spokeOf s i
    Does (.pcSpokeInfo r) r s (fields [(1, spokeKind i), (1, spokeGroup i), (1, i - spokeRow i),
        (1, bitsN (p.next.map Option.isSome)), (1, p.gen.toNat), (1, flagAt (spokeOut s i) 0 + flagAt (spokeDieF i) 1), (2, 0)]
      ++ (p.sel.map (leBytes 2)).flatten ++ ((p.sel.zip p.next).map (fun e => leBytes 2 (e.2.getD e.1))).flatten) s)

/-- The jrn commands (R397, R403, R404, R405): each of them, accepted by SUP, completes: jrnStatus, jrnRead, jrnChallenge, jrnTruncate,
jrnConfigure, jrnAnnotate; and what each leaves. -/
def Obligations.JrnCommandsComplete : Prop := ∀ (r : CmdRef) (s : State),
  (Accepted jrnStatusSpec r s → ∃ t, Sys2Proof.Machine.exec (.jrnStatus r) s = .next t) ∧
  (Accepted jrnReadSpec r s → ∃ t, Sys2Proof.Machine.exec (.jrnRead r) s = .next t) ∧
  (Accepted jrnChallengeSpec r s → ∃ t, Sys2Proof.Machine.exec (.jrnChallenge r) s = .next t) ∧
  (Accepted jrnTruncateSpec r s → ∃ t, Sys2Proof.Machine.exec (.jrnTruncate r) s = .next t) ∧
  (Accepted jrnConfigureSpec r s → ∃ t, Sys2Proof.Machine.exec (.jrnConfigure r) s = .next t) ∧
  (Accepted jrnAnnotateSpec r s → ∃ t, Sys2Proof.Machine.exec (.jrnAnnotate r) s = .next t) ∧
  (Accepted jrnStatusSpec r s → Does (.jrnStatus r) r s (fields [(2, s.jrn.regA.length),
    (1, flagAt s.jrn.holdupLow 0 + flagAt s.jrn.erasing.isSome 1 + flagAt s.jrn.challenge.isSome 2), (1, min 64 s.jrn.queueF.length),
    (4, s.jrn.next.toNat), (4, s.jrn.floor.toNat), (4, oldest s), (4, s.jrn.dropped.toNat), (2, s.jrn.cMeas.toNat),
    (2, s.jrn.cReq.toNat), (8, s.jrn.lastTruncate.toNat)]) s) ∧
  (Accepted jrnReadSpec r s →
    let p := payloadOf jrnReadSpec r s
    let b := u8 p 0 = 1
    let first := if b then max (recordNo s (u32 p 4)).toNat (oldest s) else u32 p 4
    let have' := if b then s.jrn.next.toNat - first else s.jrn.regA.length - first
    Does (.jrnRead r) r s (fields [(4, first), (4, min (u32 p 8) have'), (4, 0), (4, 0)]
      ++ (if b then readB s first (u32 p 8) else readA s first (u32 p 8))) s) ∧
  (Accepted jrnChallengeSpec r s →
    let ch := leBytes 32 (Config.freeWide s.free).toNat
    Does (.jrnChallenge r) r s ch { freeNext s with jrn := { s.jrn with challenge := some ch } }) ∧
  (Accepted jrnTruncateSpec r s →
    let st := (payloadOf jrnTruncateSpec r s).take 128
    let k := (recordNo s (u32 st 48)).toNat
    let o := oldest s
    Does (.jrnTruncate r) r s (fields [(4, k - o), (4, 0)])
      (journal 0x14 0x01 1 noObj 0 (fields [(8, s.jrn.floor.toNat), (4, k - o), (1, u8 st 4)])
        { s with jrn := ctlWrite { s.jrn with
          challenge := none, floor := BitVec.ofNat 64 k, erasing := some (o, k), lastTruncate := s.time.long, wrapSeen := false } })) ∧
  (Accepted jrnConfigureSpec r s → Does (.jrnConfigure r) r s []
    { s with jrn := { s.jrn with cReq := BitVec.ofNat 16 (u16 (payloadOf jrnConfigureSpec r s) 0) } }) ∧
  (Accepted jrnAnnotateSpec r s →
    let p := payloadOf jrnAnnotateSpec r s
    Does (.jrnAnnotate r) r s (fields [(4, s.jrn.next.toNat + s.jrn.queueF.length + s.jrn.queueM.length), (4, 0)])
      (journalRec { mkRec 0x13 0x10 (u8 p 0) noObj 0 (p.drop 4) s with mbox := r.mb } s))

/-- The doorbell, MB_DONE, MB_STAT and the command buffers (R45 to R48). -/
def Obligations.MailboxRegisters : Prop := ∀ (m : Fin 8) (w : Word) (s : State),
  (s.dev.mbReady = true → w.toNat < 32 → slotOf s m w.toNat = .free → Gives (.mbDoorbell m w) s fun t =>
    slotOf t m w.toNat = .posted ∧ (∀ n k, ¬(n = m.val ∧ k = w.toNat) → slotOf t n k = slotOf s n k) ∧
    (mbOf t m).overrun = (mbOf s m).overrun ∧ t.host.bar2 = s.host.bar2 ∧ OnlyHost s t) ∧
  (s.dev.mbReady = false ∨ 32 ≤ w.toNat → exec (.mbDoorbell m w) s = .next s) ∧
  (Gives (.mbDoneClear m w) s fun t =>
    (∀ n k, slotOf t n k = if n = m.val ∧ k < 32 ∧ w.getLsbD k = true ∧ slotOf s n k = .done then .free else slotOf s n k) ∧
    t.host.bar2 = s.host.bar2 ∧ OnlyHost s t) ∧
  (exec (.mbStatClear m w) s = .next (setMb m { mbOf s m with
    overrun := (mbOf s m).overrun && !w.getLsbD 0, violation := (mbOf s m).violation && !w.getLsbD 1 } s)) ∧
  (∀ (k : Fin 32) (off : BitVec 12) (b : List Byte), bar2Live s = true → off.toNat + b.length ≤ 4096 →
    (slotOf s m k ≠ .posted → exec (.commandBufferWrite m k off b) s = .next (bar2Write (cmdBuf m k + off.toNat) b s)) ∧
    (slotOf s m k = .posted → b ≠ [] → Gives (.commandBufferWrite m k off b) s fun t =>
      (mbOf t m).violation = true ∧ (∀ n j, slotOf t n j = slotOf s n j) ∧ t.host.bar2 = s.host.bar2 ∧ OnlyHost s t))

/-- The event block (R59 to R61): what a write of each of its registers leaves. -/
def Obligations.EventBlockWrites : Prop := ∀ (i : Fin 4) (w : Word) (s : State),
  (exec (.evtPendClear i w 0) s = .next { s with evt := { s.evt with pend := s.evt.pend &&& ~~~((w.setWidth 128) <<< (32 * i.val)) } }) ∧
  (∀ again : Word, Gives (.evtPendClear i w again) s fun t =>
    (∀ j < 32, again.getLsbD j = true → eventSource (32 * i.val + j) = true → Pending t (32 * i.val + j)) ∧
    (∀ j < 32, eventSource (32 * i.val + j) = false →
      t.evt.pend.getLsbD (32 * i.val + j) = (s.evt.pend.getLsbD (32 * i.val + j) && !w.getLsbD j)) ∧
    (∀ j < 32, again.getLsbD j = true → w.getLsbD j = true → t.evt.lost.getLsbD (32 * i.val + j) = s.evt.lost.getLsbD (32 * i.val + j)) ∧
    t.evt.mask = s.evt.mask ∧ t.evt.map = s.evt.map) ∧
  (exec (.evtLostClear i w) s = .next { s with evt := { s.evt with lost := s.evt.lost &&& ~~~((w.setWidth 128) <<< (32 * i.val)) } }) ∧
  (Gives (.evtMaskWrite i w) s fun t =>
    (∀ e < 128, t.evt.mask.getLsbD e = if e / 32 = i.val then w.getLsbD (e % 32) else s.evt.mask.getLsbD e) ∧
    (∀ j < 32, s.evt.mask.getLsbD (32 * i.val + j) = true → w.getLsbD j = false → Pending s (32 * i.val + j) →
      Fired t (vectorOf s (32 * i.val + j))) ∧
    t.evt.pend = s.evt.pend ∧ t.evt.lost = s.evt.lost ∧ t.evt.map = s.evt.map) ∧
  (∀ q : Fin 32, EvtOk s.evt → Gives (.evtMapWrite q w) s fun t =>
    (∀ e < 128, (lget 0 t.evt.map e).toNat = if e / 4 = q.val then w.toNat / 2 ^ (8 * (e % 4)) % 32 else (lget 0 s.evt.map e).toNat) ∧
    t.evt.pend = s.evt.pend ∧ t.evt.lost = s.evt.lost ∧ t.evt.mask = s.evt.mask)

/-- Reads of TIME_LO, TIME_LATCH, the user page, PROD of a stream and the generic register write (R41, R57, R63, R259). -/
def Obligations.HostRegisterWrites : Prop := ∀ (w : Word) (s : State),
  (exec (.timeLoRead true) s = .next { s with host := { s.host with lastRead := s.time.long } }) ∧
  (exec (.timeLoRead false) s = .next { s with
    time := { s.time with hiSnap := BitVec.ofNat 32 (now s / 2 ^ 32) }
    host := { s.host with lastRead := BitVec.ofNat 64 (now s % 2 ^ 32) } }) ∧
  (w.getLsbD 0 = true → exec (.timeLatch w) s = .next { s with time := { s.time with latch := s.time.long } }) ∧
  (w.getLsbD 0 = false → exec (.timeLatch w) s = .next s) ∧
  (exec (.usrGrantWrite w) s = .next { s with host := { s.host with usrGrant := w } }) ∧
  (exec (.usrCtlWrite w) s = .next { s with host := { s.host with usrEn := w.getLsbD 0 } }) ∧
  (s.host.usrEn = true → exec (.usrWinWrite w) s = .next { s with host := { s.host with usrWin := BitVec.ofNat 9 w.toNat } }) ∧
  (s.host.usrEn = false → exec (.usrWinWrite w) s = .next s) ∧
  (∀ (k : Fin 8) (recs : List Byte), bar2Live s = true → s.dev.mode ≠ .kickstand → Gives (.streamProdWrite k w recs) s fun t =>
    (w.toNat < (strmOf s k).count → (strmOf t k).prod = w.toNat ∧ (strmOf t k).prodInvalid = false) ∧
    ((strmOf s k).count ≤ w.toNat → (strmOf t k).prod = (strmOf s k).prod ∧ (strmOf t k).prodInvalid = true) ∧
    (∀ j, j ≠ k.val → strmOf t j = strmOf s j)) ∧
  (∀ (bar : Bar) (off : BitVec 32) (b : List Byte), barSize bar < off.toNat + b.length →
    exec (.registerWrite bar off b) s = .fault (.noSuchAddress off.toNat)) ∧
  (∀ (off : BitVec 32) (b : List Byte), off.toNat + b.length ≤ 65536 → (b.length ≠ 4 ∨ off.toNat % 4 ≠ 0) →
    exec (.registerWrite .bar0 off b) s = .next s) ∧
  (∀ (m : Fin 8) (b : List Byte), b.length = 4 → s.dev.mode ≠ .reset →
    exec (.registerWrite .bar0 (BitVec.ofNat 32 (0x8000 + 0x1000 * m.val)) b) s = exec (.mbDoorbell m (BitVec.ofNat 32 (leNat b))) s ∧
    exec (.registerWrite .bar0 (BitVec.ofNat 32 (0x800C + 0x1000 * m.val)) b) s = exec (.mbDoneClear m (BitVec.ofNat 32 (leNat b))) s ∧
    exec (.registerWrite .bar0 0x3004 b) s = exec (.hubPeriodWrite (BitVec.ofNat 32 (leNat b))) s)

/-- The HUB counter control (R409 to R412, R414, R416), a latch instant and a dump (R410, R411). -/
def Obligations.HubRegisters : Prop := ∀ (w : Word) (s : State),
  (hubLive s = true →
    exec (.hubCtlWrite w) s = .next { s with hub := { s.hub with enable := w.getLsbD 0, mirrorEn := w.getLsbD 1 } }) ∧
  (hubLive s = true → 100 ≤ w.toNat → w.toNat ≤ 1000000 →
    exec (.hubPeriodWrite w) s = .next { s with hub := { s.hub with period := w.toNat } }) ∧
  (w.toNat < 100 ∨ 1000000 < w.toNat → exec (.hubPeriodWrite w) s = .next s) ∧
  (hubLive s = true → w.toNat < 0x80000 →
    exec (.hubRdWrite w) s = .next { s with hub := { s.hub with rd := w.toNat / 8192 * 8192 } }) ∧
  (0x80000 ≤ w.toNat → exec (.hubRdWrite w) s = .next s) ∧
  (∀ hi, hubLive s = true → s.hub.mirrorEn = false → Gives (.hubMirrorWrite hi w) s fun t =>
    (if hi then t.hub.mirror.toNat / 2 ^ 32 = w.toNat ∧ t.hub.mirror.toNat % 2 ^ 32 = s.hub.mirror.toNat % 2 ^ 32
     else t.hub.mirror.toNat % 2 ^ 32 = w.toNat ∧ t.hub.mirror.toNat / 2 ^ 32 = s.hub.mirror.toNat / 2 ^ 32) ∧
    { t with hub := { t.hub with mirror := s.hub.mirror } } = s) ∧
  (∀ hi, s.hub.mirrorEn = true → exec (.hubMirrorWrite hi w) s = .next s) ∧
  (hubLive s = true → latchDue s = true → Gives .latchInstant s fun t =>
    t.hub.latchNo = s.hub.latchNo + 1 ∧ t.hub.periodInForce = s.hub.period ∧
    t.hub.dumpDue = (s.hub.enable && decide (unread s ≠ 63)) ∧
    t.hub.skipped = (if s.hub.enable && unread s = 63 then s.hub.skipped + 1 else s.hub.skipped)) ∧
  (∀ arrived, hubLive s = true → s.hub.dumpDue = true → Gives (.hubDump arrived) s fun t =>
    t.hub.wr = (s.hub.wr + 8192) % 524288 ∧ t.hub.seq = s.hub.latchNo ∧ t.hub.skipped = 0 ∧ t.hub.dumpDue = false ∧ Pending t 96) ∧
  (s.hub.mirrorEn = true → Gives .hubMirrorErr s fun t => t.hub.mirrorEn = false ∧ Pending t 99)

/-- Reset, power and the link to the host (R40, R370, R372, R402, R421). -/
def Obligations.ResetAndPower : Prop := ∀ s : State,
  (Gives .porstNAssert s fun t =>
    t.dev.mode = .reset ∧ t.dev.porstLow = true ∧ t.dev.fuses = s.dev.fuses ∧ t.dev.flash = s.dev.flash ∧
    t.jrn.regA = s.jrn.regA ∧ t.jrn.regB = s.jrn.regB ∧ t.jrn.next = s.jrn.next ∧ t.jrn.floor = s.jrn.floor ∧
    t.host = { State.reset.host with hostRam := s.host.hostRam } ∧
    { t with host := State.reset.host, jrn := State.reset.jrn, dev := State.reset.dev, out := [], free := 0, pending := [] } = State.reset) ∧
  (∀ bs sa, s.dev.porstLow = true → s.dev.pfail = false → Gives (.porstNRelease bs sa) s fun t =>
    t.dev.mode = .boot ∧ t.dev.porstLow = false ∧ t.dev.bootsel = bs ∧ t.dev.stnaddr = sa ∧ t.time.long = 0 ∧
    t.dev.fuses = s.dev.fuses ∧ t.out = (emit .flashReset 0 [] s).out ∧ { t with dev := s.dev, time := s.time, out := s.out } = s) ∧
  (∀ bs sa, s.dev.porstLow = true → s.dev.pfail = true → Gives (.porstNRelease bs sa) s fun t =>
    t.dev.mode = s.dev.mode ∧ t.dev.waitPfail = true ∧ { t with dev := s.dev } = s) ∧
  (∀ bs sa, s.dev.resetAt.isSome = true → s.dev.pfail = false → Gives (.deviceReset bs sa) s fun t =>
    t.dev.mode = .boot ∧ t.dev.resetAt = none ∧ t.dev.bootsel = bs ∧ t.dev.stnaddr = sa ∧ t.dev.fuses = s.dev.fuses ∧
    t.time.long = 0 ∧ t.axes = [] ∧ t.grps = [] ∧ t.bus = [] ∧ t.eff = [] ∧ (∀ m k, slotOf t m k = .free)) ∧
  (Gives .pfailNRelease s fun t => t.dev.pfail = false ∧ (s.dev.waitPfail = true → t.dev.mode = .boot) ∧
    (s.dev.waitPfail = false → t.dev.mode = s.dev.mode) ∧ (s.jrn.holdupEnding = true → t.jrn.holdup = false)) ∧
  (s.dev.pfail = false → s.dev.mode ≠ .reset → s.dev.frozen = false → Gives .pfailNAssert s fun t =>
    t.dev.pfail = true ∧ Pending t 105) ∧
  (s.dev.pfail = false → s.dev.mode = .reset → s.dev.porstLow = false → s.jrn.holdup = false → Gives .pfailNAssert s fun t =>
    t.dev.pfail = true ∧ t.jrn.holdup = true ∧ t.jrn.holdupOpen = true) ∧
  (∀ rail, s.dev.mode ≠ .reset → Gives (.pwrWarn rail) s fun t => Pending t 104 ∧ t.dev = s.dev) ∧
  (∀ rail, railOfM rail = true → rail ∉ s.dev.held → Gives (.railResetExcursion rail) s fun t =>
    t.dev.mode = .reset ∧ t.dev.held = rail :: s.dev.held ∧ t.dev.mbReady = false ∧ t.axes = [] ∧ t.grps = []) ∧
  (∀ rail, railOfM rail = false → rail ∉ s.dev.held → s.dev.mode = .reset → Gives (.railResetExcursion rail) s fun t =>
    t.dev.held = rail :: s.dev.held ∧ t.xl.up = false ∧ t.io.safe = 2) ∧
  (∀ rail, exec (.railResetRelease rail) s = .next { s with dev := { s.dev with held := s.dev.held.filter (· ≠ rail) } }) ∧
  (s.dev.mode ≠ .reset → Gives .linkReset s fun t =>
    (∀ m k, slotOf t m k = .free) ∧ t.host.msix = [] ∧ t.host.usrEn = false ∧ t.evt.mask = State.reset.evt.mask ∧
    t.evt.map = State.reset.evt.map ∧ FusesLe s.dev.fuses t.dev.fuses ∧ (s.dev.mode = .fault → t.dev.mode = .fault))

/-- Temperature, the watchdogs of the cores, the clock, and errors of memories (R14, R38, R360 to R362). -/
def Obligations.DeviceFaults : Prop := ∀ s : State, s.dev.mode ≠ .reset → s.dev.frozen = false →
  (∀ i, i = Instr.supLockstep ∨ i = Instr.thermShutdown ∨ (i = Instr.supervisorWatchdog ∧ 16 ≤ s.cad.misses) ∨
      i = Instr.eccUncorrectable .scheduler ∨ i = Instr.eccUncorrectable .supervisor → Gives i s fun t =>
    t.dev.mode = .fault ∧ t.dev.frozen = true ∧ t.dev.faultN = true ∧ t.xl.stopped = true ∧
    (s.dev.faultCause ≠ 0 → t.dev.faultCause = s.dev.faultCause) ∧
    t.axes = s.axes ∧ t.grps = s.grps ∧ t.io = s.io ∧ t.stp = s.stp ∧ t.bus = s.bus) ∧
  (s.cad.misses < 16 → exec .supervisorWatchdog s = .next s) ∧
  (s.dev.faultCause = 0 → Gives .supLockstep s fun t => t.dev.faultCause = 0x00010001) ∧
  (s.dev.faultCause = 0 → Gives .thermShutdown s fun t => t.dev.faultCause = 0x00010004) ∧
  (s.dev.faultCause = 0 → 16 ≤ s.cad.misses → Gives .supervisorWatchdog s fun t => t.dev.faultCause = 0x00010003) ∧
  (∀ o, o ≠ .scheduler → o ≠ .supervisor → Gives (.eccUncorrectable o) s fun t => Pending t 111) ∧
  (∀ m k, slotOf s m.val k.val = .posted → Gives (.eccUncorrectable (.hostSlot m k)) s fun t =>
    slotOf t m.val k.val = .done ∧ statusAt t ⟨m, k, []⟩ = 0x0601) ∧
  (∀ n, Gives (.eccCorrected n) s fun t => t.free = s.free + 1 ∧ ((freeNow s).getLsbD 0 = true → Pending t 110) ∧
    t.dev = s.dev ∧ t.jrn = s.jrn ∧ t.axes = s.axes ∧ t.grps = s.grps) ∧
  (s.dev.thermWarn = false → Gives .thermWarn s fun t => t.dev.thermWarn = true ∧ Pending t 106 ∧ t.dev.mode = s.dev.mode ∧ t.grps = s.grps) ∧
  (exec .thermWarnClear s = .next { s with dev := { s.dev with thermWarn := false } }) ∧
  (s.dev.thermCrit = false → Gives .thermCrit s fun t => t.dev.thermCrit = true ∧ Pending t 107 ∧
    ∀ g < 16, (grpOf t g).stops = (grpOf s g).stops ++ [1]) ∧
  (exec .thermCritClear s = .next { s with dev := { s.dev with thermCrit := false } })

/-- The crosslink (R12, R14 to R20): flits, replays, the time alignment and the loss. -/
def Obligations.Crosslink : Prop := ∀ s : State,
  (∀ d f, s.xl.up = true → flitOk (dirTo d s).rxSeq f = true → Gives (.xlinkFlit d f) s fun t =>
    (dirTo d t).rxSeq = (dirTo d s).rxSeq + 1 ∧ (dirTo d t).awaiting = false ∧ t.dev = s.dev ∧
    ((dirTo d s).sinceAck < 15 → dirTo (otherDie d) t = dirTo (otherDie d) s ∧ (dirTo d t).replay = (dirTo d s).replay ∧ t.out = s.out) ∧
    (15 ≤ (dirTo d s).sinceAck → (dirTo (otherDie d) t).txSeq = (dirTo (otherDie d) s).txSeq + 1 ∧
      (dirTo d t).replay = unacked (dirTo d s) ((dirTo d s).rxSeq + 1))) ∧
  (∀ d f, s.xl.up = true → flitOk (dirTo d s).rxSeq f = false → Gives (.xlinkFlit d f) s fun t =>
    (dirTo d t).rxSeq = (dirTo d s).rxSeq ∧ (dirTo d t).awaiting = true ∧ t.dev = s.dev ∧
    ((dirTo d s).awaiting = true → t.xl = s.xl ∧ t.out = s.out) ∧
    ((dirTo d s).awaiting = false → (dirTo (otherDie d) t).txSeq = (dirTo (otherDie d) s).txSeq + 1 ∧ t.out ≠ s.out)) ∧
  (∀ d q, s.xl.up = true → (∀ e ∈ unacked (dirTo (otherDie d) s) q, e.2 < 15) → Gives (.xlinkNak d q) s fun t =>
    (dirTo (otherDie d) t).replay = (unacked (dirTo (otherDie d) s) q).map (fun e => (e.1, e.2 + 1)) ∧
    (dirTo (otherDie d) t).replaysCad = (dirTo (otherDie d) s).replaysCad + 1 ∧
    (4 ≤ (dirTo (otherDie d) s).replaysCad → Pending t 108) ∧ t.xl.lost = s.xl.lost ∧ dirTo d t = dirTo d s) ∧
  (∀ d q, s.xl.up = true → s.xl.lost = false → dieFHeld s = false → (∃ e ∈ unacked (dirTo (otherDie d) s) q, 15 ≤ e.2) →
    Gives (.xlinkNak d q) s fun t => t.xl.lost = true) ∧
  (∀ e, xlinkCarries s = true → exec (.timeAlignFlit e) s = .next { s with xl := { s.xl with dieFErr := clampI (-40) 40 e.toInt } }) ∧
  (∀ i, i = Instr.xlinkLost ∨ i = Instr.fLockstep ∨ i = Instr.clockM → (s.xl.up = true ∨ i = .fLockstep) → s.xl.lost = false →
    dieFHeld s = false → Gives i s fun t => t.xl.lost = true ∧ t.xl.up = false ∧
    (s.dev.mode ≠ .reset → s.dev.frozen = false → t.dev.mode = .fault ∧ Pending t 109) ∧
    (s.dev.mode ≠ .reset → s.dev.frozen = true → Pending t 109 ∧ t.dev.mode = s.dev.mode) ∧
    (s.dev.mode = .reset → t.io.safe = 2)) ∧
  (s.xl.up = false → exec .xlinkLost s = .next s ∧ exec .clockM s = .next s) ∧
  (s.xl.lost = true ∨ dieFHeld s = true → exec .fLockstep s = .next s)

/-- Start-up (R370, R371, R375, R382 to R384, R388, R393). -/
def Obligations.BootRows : Prop := ∀ s : State,
  (s.dev.mode = .boot → s.xl.up = false → s.xl.initFailed = false → s.dev.held = [] → Gives .xlinkUp s fun t => t.xl.up = true) ∧
  (s.dev.mode = .boot → s.xl.up = false → Gives .xlinkTrainTimeout s fun t =>
    t.dev.mode = .kickstand ∧ t.dev.mbReady = true ∧ t.dev.reason = 4 ∧ t.dev.bootRec.cause = 4 ∧ t.xl.initFailed = true ∧ Pending t 114) ∧
  (s.dev.mode = .boot → exec .lpddrTrained s = .next { s with dev := { s.dev with lpddrTrained := true } }) ∧
  (s.dev.lpddrTrained = true → exec .lpddrInitDone s = .next { s with dev := { s.dev with lpddrDone := true } }) ∧
  (awaitsImage s = true → s.dev.bootsel ≠ 1#2 → s.dev.pcieWait = false → verifyContainer s true (flashOf s s.dev.slot) = none →
    exec .containerLoaded s = .next { s with dev := { s.dev with loaded := (flashOf s s.dev.slot).take 256 } }) ∧
  (awaitsImage s = true → s.dev.bootsel = 1#2 → s.dev.stagedTaken = false → leNat (mread s.host.staging 0 4) = conMagic →
    verifyContainer { s with dev := { s.dev with stagedTaken := true, watchFrom := now s } } true (stagedContainer s) = none →
    Gives .stagedImageFound s fun t => t.dev.loaded = (stagedContainer s).take 256 ∧
      t.dev.slot = 2 ∧ t.dev.mode = .boot) ∧
  (s.dev.mode = .boot → s.dev.loaded ≠ [] → exec .firmwareHandover s = .next { s with dev := { s.dev with
    mode := .init, fwHdr := s.dev.loaded, loaded := [], pcieWait := false, watchFrom := now s } }) ∧
  (s.dev.mode = .init → s.dev.lpddrDone = true → s.dev.resetAt = none → u32 (flashOf s 2) 0 ≠ conMagic → Gives .bootRun s fun t =>
    t.dev.mode = .run ∧ t.dev.mbReady = true ∧ t.dev.runTime = s.time.long ∧ Pending t 112) ∧
  (s.dev.mode = .run → s.dev.fwConfirmed = false → s.dev.unconfirmedDone = false → Gives .bootUnconfirmed s fun t =>
    Pending t 113 ∧ t.dev.unconfirmedDone = true ∧ t.dev.mode = .run) ∧
  (s.dev.mode = .boot → s.xl.up = true → s.dev.resetAt = none → s.dev.bootsel ≠ 1#2 ∧ s.dev.pcieWait = false ∨ s.dev.stagedTaken = true →
    Gives .romWatchdog s fun t => t.dev.resetAt.isSome = true ∧ t.dev.fuses = s.dev.fuses) ∧
  (s.dev.mode = .init → s.dev.resetAt = none → Gives .initWatchdog s fun t => t.dev.resetAt.isSome = true ∧ t.dev.fuses = s.dev.fuses) ∧
  (∀ o, s.dev.op = some o → s.dev.frozen = false → s.dev.mode ≠ .fault → Gives .fwUpdateDone s fun t =>
    t.dev.op = none ∧ flashOf t o.target = o.image ∧ (∀ k, k ≠ o.target → flashOf t k = flashOf s k)) ∧
  (∀ r, s.dev.replay = some r → r.running = false → s.dev.noCore = false → s.dev.mode ≠ .reset →
    (replayOver r = true → r.failed = none → r.mb < 8 → slotOf s r.mb r.slot = .posted → Gives .imageRecordReplay s fun t =>
      t.dev.replay = none ∧ t.dev.imageDone = r.done ∧ t.dev.imageFailIndex = 0xFFFFFFFF ∧ slotOf t r.mb r.slot = .done ∧ Pending t 118 ∧
      t.dev.flash = (if r.store then tset [] s.dev.flash 2 r.image else s.dev.flash)) ∧
    (replayOver r = false → specOf (u16 (r.image.drop r.off) 0) = none → r.mb < 8 → slotOf s r.mb r.slot = .posted → Gives .imageRecordReplay s fun t =>
      t.dev.replay = none ∧ t.dev.imageFailIndex = r.done ∧ t.dev.imageFailStatus = 0x0101 ∧ slotOf t r.mb r.slot = .done ∧ Pending t 118) ∧
    (∀ h, h = readHdr ((r.image.drop r.off).take 64) → replayOver r = false → s.dev.mode ≠ .fault → h.opcode = 0x0101 → h.len = 0 → h.object = 0 →
      h.flags = 0 → h.resvZero = true → h.dataAddr = 0 → h.resAddr = 0 → h.resCap = 0 →
      r.done + 1 < u32 r.image 104 → Gives .imageRecordReplay s fun t =>
        t.dev.replay = some { r with done := r.done + 1, off := r.off + 64 } ∧ t.axes = s.axes ∧ ∀ m k, slotOf t m k = slotOf s m k))

/-- A posted command of no known opcode (R49, R52, R53), and a command that finds no credit (R54). -/
def Obligations.UnknownOpcodes : Prop := ∀ (r : CmdRef) (s : State),
  (supTakes s r.mb r.slot = true → specOf (hdrOf s r.mb r.slot).opcode = none → s.dev.mode ≠ .fault → s.dev.mode ≠ .kickstand →
    ∃ t, exec (.badOpcodeCommand r) s = .next t ∧ slotOf t r.mb r.slot = .done ∧ statusAt t r = 0x0101 ∧ Quiet s t) ∧
  (slotOf s r.mb r.slot = .posted → bellOf s r.mb r.slot ≠ 0 → poolFree s 4 = 0 →
    ∃ t, exec (.commandNoCredit r.mb r.slot) s = .next t ∧ slotOf t r.mb r.slot = .done ∧ statusAt t r = 0x0401 ∧
      Quiet (advanceTo (bellOf s r.mb r.slot - 1 + 50000) s) t) ∧
  (bellOf s r.mb r.slot = 0 ∨ poolFree s 4 ≠ 0 → exec (.commandNoCredit r.mb r.slot) s = .next s)

/-- The points of a cadence, a communication round and the boundaries (R21 to R26, R221, R286). -/
def Obligations.CadenceRows : Prop := ∀ s : State,
  (cadenceRuns s = true → Gives .cadenceStart s fun t =>
    t.cad.started = true ∧ t.cad.start = nextCadence s ∧ t.cad.phase = 0 ∧ t.cad.len = s.cad.ns ∧ t.cad.misses = s.cad.misses + 1 ∧
    t.cad.count = (if s.cad.started then s.cad.count + 1 else s.cad.count)) ∧
  (cadenceRuns s = false → exec .cadenceStart s = .next s) ∧
  (cadenceRuns s = true → s.cad.started = true → s.cad.phase = 0 → s.dev.frozen = false → Gives .feedbackCutoff s fun t =>
    t.cad = { s.cad with phase := 1 }) ∧
  (cadenceRuns s = true → s.cad.started = true → s.cad.phase = 1 → s.dev.frozen = false → Gives .computeEnd s fun t =>
    t.cad = { s.cad with phase := 3, misses := 0 }) ∧
  (s.dev.frozen = true → exec .feedbackCutoff s = .next s ∧ exec .computeEnd s = .next s ∧ exec .planningBoundary s = .next s ∧
    exec .roundStart s = .next s ∧ exec .verdictDeadline s = .next s) ∧
  (s.cad.started = true → s.cad.phase = 0 → s.dev.frozen = false → s.cad.start % planNs s = 0 → s.cad.planAt ≠ s.cad.start + 1 →
    Gives .planningBoundary s fun t => t.cad.planAt = s.cad.start + 1 ∧ t.cad.planStart = s.cad.start) ∧
  (∀ b, cadenceRuns s = true → s.dev.frozen = false → roundDue s = some b → Gives .roundStart s fun t => t.cad.roundAt = b + 1) ∧
  (s.cad.started = true → s.cad.start % (s.cad.guardPer * s.cad.ns) = 0 → s.cad.guardAt ≠ s.cad.start + 1 →
    Gives .guardBoundary s fun t => t.cad = { s.cad with guardAt := s.cad.start + 1, guardStart := s.cad.start }) ∧
  (s.dev.frozen = false → verdictDue s = true → Gives .verdictDeadline s fun t => t.ssm.verdictAt = s.ssm.snapAt) ∧
  (∀ z : Fin 64, (zoneOf s z).reqs.any (fun r => decide (r.deadline < s.cad.planStart)) = true → Gives (.zoneRefused z) s fun t =>
    zoneOf t z = { zoneOf s z with reqs := (zoneOf s z).reqs.filter (fun r => decide (s.cad.planStart ≤ r.deadline)) } ∧ Pending t 82 ∧
    ∀ n, n ≠ z.val → zoneOf t n = zoneOf s n)

/-- The planning interval's own points: assembly, the lanes' window, a problem's end and deadline, the selection, the end of a shifted
fallback (R142, R143, R148 to R151, R156, R158). -/
def Obligations.PlanningRows : Prop := ∀ s : State,
  (s.cad.started = true → s.qp.snapAt = s.cad.planStart + 1 → s.cad.planStart + planNs s / 8 < 2 ^ 64 → Gives .asmPhaseStart s fun t =>
    s.cad.planStart + planNs s / 8 ≤ now t ∧ t.cad = s.cad) ∧
  (s.qp.snapAt ≠ s.cad.planStart + 1 → exec .asmPhaseStart s = .next s ∧ exec .laneWindowStart s = .next s) ∧
  (s.cad.started = true → s.qp.snapAt = s.cad.planStart + 1 → windowOpen s = false → Gives .laneWindowStart s fun t =>
    windowOpen t = true ∧ t.cad = s.cad) ∧
  (∀ (u : Fin 64) v, windowOpen s = true → laneDone u.val (2 ^ 64) s = some v → exec (.qpProblemDone u) s = .next v) ∧
  (∀ u : Fin 64, (laneOf s u).serv = none → exec (.qpProblemDone u) s = .next s) ∧
  (∀ (g : Fin 16) (j : Fin 4) u p, windowOpen s = true → laneFor s g j = some u → (scenOf s g j).inp = some p →
    (laneOf s u).serv = none → (laneOf s u).wait = [] →
    exec (.qpDeadline g j) s = .next (advanceTo (s.cad.planStart + planNs s * cDeadline p.c / 1024) s)) ∧
  (∀ (g : Fin 16) (j : Fin 4), windowOpen s = false → exec (.qpDeadline g j) s = .next s ∧ exec (.selectionPhase g) s = .next s) ∧
  (∀ g : Fin 16, (qpOf s g).posed = true → (qpOf s g).chosen = false → windowOpen s = true →
    Gives (.selectionPhase g) s fun t => (qpOf t g).chosen = true) ∧
  (∀ g : Fin 16, (qpOf s g).assigned = true → (qpOf s g).fallbacks ≠ 0 →
    cShift (classOf s (lget {} (qpOf s g).scen 0).cls) ≤ (qpOf s g).fallbacks → Gives (.shiftStop g) s fun t =>
    qpOf t g = { qpOf s g with fallbacks := 0, stops := (qpOf s g).stops + 1 } ∧ (grpOf t g).solved = false ∧
    (grpOf t g).stops = (grpOf s g).stops ++ [2] ∧ t.axes = s.axes) ∧
  (∀ (g : Fin 16) (j : Fin 4) u p, windowOpen s = true → laneFor s g j = some u → (scenOf s g j).inp = some p →
    (laneOf s u).serv = none → (laneOf s u).wait = [{ g := g, j := j }] → j.val < (qpOf s g).scen.length → Gives (.qpDeadline g j) s fun t =>
      (laneOf t u).wait = [] ∧ (scenOf t g j).res.status = 4 ∧ (qpOf t g).missed = (qpOf s g).missed + 1 ∧ Pending t 51 ∧ t.grps = s.grps)

/-- Separation monitoring (R220 to R222, R230 to R236, R285). -/
def Obligations.SeparationRows : Prop := ∀ s : State,
  (∀ a e, xlinkCarries s = false → exec (.blackChannelCopy a e) s = .next s) ∧
  (∀ a e, xlinkCarries s = true → Gives (.blackChannelCopy a e) s fun t => t.io = s.io ∧ t.grps = s.grps ∧ t.dev = s.dev ∧
    (axisOf t a).state = (axisOf s a).state) ∧
  (∀ p : Fin 8, xlinkCarries s = true → Gives (.ch2Verdict p) s fun t =>
    (∀ g, g / 2 = p.val → (ssmOf t g).v2 = (ssmOf s g).v2calc.map (fun v => readVerdict (verdictRecord v))) ∧
    { t with ssm := s.ssm } = s) ∧
  (∀ n : Fin 16, u8 (sensOf s n).cfg 0 = 1 → (sensOf s n).stale1 = true → (sensOf s n).recorded = false → s.cad.guardAt ≠ 0 →
    Gives (.sensorStale n) s fun t => sensOf t n = { sensOf s n with recorded := true } ∧ Pending t 80 ∧ t.grps = s.grps) ∧
  (∀ g : Fin 16, monitored s g = false → exec (.tandemMismatch g) s = .next s ∧ exec (.verdictAbsent g) s = .next s ∧
    (∀ b, exec (.speedExceeded g b) s = .next s) ∧ exec (.ch2Feedback g) s = .next s) ∧
  (∀ g : Fin 16, monitored s g = true → (s.cad.phase ≠ 0 ∨ s.cad.started = false) →
    (max 1 (u8 s.ssm.cfg 2) ≤ (ssmOf s g).mismatch → Gives (.tandemMismatch g) s fun t =>
      (grpOf t g).stops = (grpOf s g).stops ++ [1] ∧ Pending t 78) ∧
    (max 1 (u8 s.ssm.cfg 2) ≤ (ssmOf s g).absent → Gives (.verdictAbsent g) s fun t => (grpOf t g).stops = (grpOf s g).stops ++ [1]) ∧
    (2 ≤ (ssmOf s g).fast1 → Gives (.speedExceeded g false) s fun t => (grpOf t g).stops = (grpOf s g).stops ++ [1]) ∧
    (2 ≤ (ssmOf s g).fast2 → Gives (.speedExceeded g true) s fun t => (grpOf t g).stops = (grpOf s g).stops ++ [1]) ∧
    ((ssmOf s g).feed2 = true → Gives (.ch2Feedback g) s fun t => (grpOf t g).stops = (grpOf s g).stops ++ [1])) ∧
  (∀ g : Fin 16, (ssmOf s g).ch2Stop = none → exec (.ch2Override g) s = .next s) ∧
  (∀ (g : Fin 16) w, (ssmOf s g).ch2Stop = some w → Gives (.ch2Override g) s fun t => (ssmOf t g).ch2Stop = none) ∧
  (∀ (k : Fin 8) (st : BitVec 8) (n : Fin 16) b, (∀ m < 16, m ≠ n.val → u8 (sensOf s m).cfg 0 ≠ 1) → u8 (sensOf s n).cfg 0 = 1 →
    u8 (sensOf s n).cfg 1 = k.val → u8 (sensOf s n).cfg 2 = st.toNat → (segOf s k).state = 3 → (segOf s k).silence.getLsbD st.toNat = false →
    recordBad n b = true → Gives (.sensorRecord k st b) s fun t =>
      (sensOf t n).discards = (sensOf s n).discards + 1 ∧ (sensOf t n).done1 = (sensOf s n).done1 ∧ t.grps = s.grps) ∧
  (∀ (a : Fin 128) b e l, xlinkCarries s = true → readEntries 1 b = e :: l → (axisOf s a).map.segment ≠ 0xFF →
    (axisOf s a).map.safetyFb = true → e.kind = 2 → e.station = (axisOf s a).map.station → e.chan = (axisOf s a).map.chan →
    e.data.length = 22 → safetyValid (axisOf s a).map (axisOf s a).map.sCnt2 e = true → s.cad.phase = 0 →
    Gives (.blackChannelCopy a b) s fun t => (axisOf t a).map.got2 = true ∧ (axisOf t a).map.last2 = fbOf e.data ∧
      (axisOf t a).map.sCnt2 = some e.cnt) ∧
  (∀ (k : Fin 8) (st : BitVec 8) (n : Fin 16) b, (∀ m < 16, m ≠ n.val → u8 (sensOf s m).cfg 0 ≠ 1) → u8 (sensOf s n).cfg 0 = 1 →
    u8 (sensOf s n).cfg 1 = k.val → u8 (sensOf s n).cfg 2 = st.toNat → (segOf s k).state = 3 → (segOf s k).silence.getLsbD st.toNat = false →
    recordBad n b = false → Gives (.sensorRecord k st b) s fun t =>
      sensOf t n = completeUpdates (now s) (xlinkCarries s) (takeRecord s b (sensOf s n)) ∧ (∀ m, m ≠ n.val → sensOf t m = sensOf s m) ∧ t.grps = s.grps)

/-- The Virza rows (R280, R289 to R300). -/
def Obligations.BusRows : Prop := ∀ (k : Fin 8) (s : State),
  (∀ (p : Fin 16) sfd f, (segOf s k).configured = true → ((segOf s k).portA = p.val ∨ (segOf s k).portB = p.val) → fcsOk f = false →
    Gives (.stationFrame k p sfd f) s fun t =>
      segOf t k = { segOf s k with fcsErrors := (segOf s k).fcsErrors + 1, cause := (segOf t k).cause } ∧
      ((freeNow s).getLsbD 0 = true → Pending t (32 + k.val)) ∧ (∀ j, j ≠ k.val → segOf t j = segOf s j) ∧ t.axes = s.axes ∧ t.grps = s.grps) ∧
  (∀ p : Fin 16, portSeg s p.val = some k.val → Gives (.foreignFrame p) s fun t =>
    segOf t k = { segOf s k with foreignFrames := (segOf s k).foreignFrames + 1 } ∧ t.axes = s.axes ∧ t.grps = s.grps) ∧
  (∀ (st : BitVec 8) x, tget none (segOf s k).stations st.toNat = some x → 3 ≤ x.vioRun → (segOf s k).silence.getLsbD st.toNat = false →
    Gives (.stationSilenced k st) s fun t => (segOf t k).silence = (segOf s k).silence ||| BitVec.twoPow 256 st.toNat ∧
      (segOf t k).silenced = (segOf s k).silenced + 1 ∧ Pending t (32 + k.val) ∧ t.axes = s.axes) ∧
  (∀ a : Fin 128, (axisOf s a).map.nMiss < (axisOf s a).map.missed → (axisOf s a).state ≠ .disabled → (axisOf s a).state ≠ .fault →
    (axisOf s a).map.segment ≠ 0xFF → exec (.freewheelExpired a) s =
      .next (modAxis a (fun x => { x with faults := x.faults ++ [1] }) s)) ∧
  (∀ other : BitVec 64, ((segOf s k).state = 2 ∨ (segOf s k).state = 3) → other ≠ Config.uid → (segOf s k).lastCollision = none →
    Gives (.masterCollision k other) s fun t => (segOf t k).state = 1 ∧ (segOf t k).collisions = (segOf s k).collisions + 1 ∧
      (segOf t k).otherUid = other ∧ Pending t (32 + k.val)) ∧
  ((segOf s k).state = 1 → (segOf s k).heard = false → Gives (.collisionWaitEnd k) s fun t =>
    (segOf t k).state = 2 ∧ (segOf t k).start.isSome = true) ∧
  ((segOf s k).state = 1 → (segOf s k).heard = true → Gives (.collisionWaitEnd k) s fun t => (segOf t k).state = 4) ∧
  (canSplit (segOf s k) = true → exec (.ringChangeover k) s = .next (setSeg k { segOf s k with splitDue := true } s)) ∧
  (canSplit (segOf s k) = true → (segOf s k).splitDue = true → let t := ringSplit k s
    (segOf t k).split = true ∧ (segOf t k).splitDue = false ∧ (segOf t k).ringChanges = (segOf s k).ringChanges + 1 ∧
      (segOf t k).state = (segOf s k).state ∧ Pending t (32 + k.val) ∧ t.axes = s.axes) ∧
  (∀ p : Fin 16, portSeg s p.val = some k.val → (segOf s k).ring = false → ((segOf s k).state = 2 ∨ (segOf s k).state = 3) →
    Gives (.vzLinkDown p) s fun t => (segOf t k).state = 5) ∧
  (∀ o l, (segOf s k).start = some o → o.phase = 1 → (segOf s k).state = 2 → (segOf s k).addrMode = 0 → l ≠ [] → l.length ≤ 254 →
    ((segOf s k).expect = 0 ∨ (segOf s k).expect = l.length) → Gives (.enumReturn k l) s fun t =>
      (segOf t k).count = l.length ∧ (segOf t k).enumerated = true ∧ (segOf t k).start = some { o with phase := 2 }) ∧
  (∀ o d, (segOf s k).start = some o → o.phase = 3 → (segOf s k).state = 2 → d.length = (segOf s k).count →
    Gives (.delayReturn k d) s fun t => (segOf t k).start = some { o with phase := 4 } ∧
      ∀ n x, tget none (segOf s k).stations n = some x → tget none (segOf t k).stations n = some { x with
        delayA := (lget (0, 0) d (x.position - 1)).1.toNat, delayB := (lget (0, 0) d (x.position - 1)).2.toNat }) ∧
  (∀ (col : Fin 32) (st : BitVec 8), exec (.arbFrameReturn k col st) s =
    .next (setSeg k { segOf s k with grants := tset 0xFF (segOf s k).grants col st.toNat } s)) ∧
  (∀ (st : BitVec 8) b a, (segOf s k).state = 3 → (segOf s k).granted.any (fun e => e.2 = st.toNat) = true →
    (segOf s k).acyclic.find? (fun a => (a.station = st.toNat || a.station = 255) && a.sent) = some a → a.mb < 8 → slotOf s a.mb a.slot = .posted →
    Gives (.acyclicFrame k st b) s fun t => slotOf t a.mb a.slot = .done ∧ (segOf t k).acyclic = (segOf s k).acyclic.erase a) ∧
  (∀ (m : Fin 8) (n : Fin 32), (segOf s k).acyclic.any (fun a => a.mb = m.val && a.slot = n.val) = true → slotOf s m n = .posted →
    Gives (.acyclicTimeout m n) s fun t => slotOf t m n = .done) ∧
  (∀ (p : Fin 16) (sfd : BitVec 32) f x, (segOf s k).configured = true → (segOf s k).portA = p.val → fcsOk f = true → etherType f = (segOf s k).etherType →
    (segOf s k).state = 3 → tget none (segOf s k).stations (u8 (payload f) 3) = some x → u8 (payload f) 1 = 2 →
    inWindow s (segOf s k) (u8 (payload f) 3) sfd.toNat (payload f).length = true →
    (be (payload f) 6 2 = 0 → Gives (.stationFrame k p sfd f) s fun t =>
      segOf t k = { segOf s k with stations := tset none (segOf s k).stations (u8 (payload f) 3) (some { x with linksOk := bitOf (be (payload f) 12 4) 1 }) } ∧
      t.axes = s.axes ∧ t.grps = s.grps) ∧
    (∀ (a : Fin 128) e, readEntries (be (payload f) 6 2) ((payload f).drop 32) = [e] → e.kind = 2 → e.safety = false → e.data.length = 22 →
      (segAxes s k).find? (fun b => (axisOf s b).map.station = u8 (payload f) 3 && (axisOf s b).map.chan = e.chan) = some a.val →
      (axisOf s a).map.safetyFb = false → groupOf s a = none → be (payload f) 8 4 = s.cad.count.toNat → s.cad.phase = 0 →
      Gives (.stationFrame k p sfd f) s fun t => (axisOf t a).map.got = true ∧ (axisOf t a).map.last = fbOf e.data ∧
        (axisOf t a).actP = (fbOf e.data).position + (axisOf s a).oh ∧ ∀ b, b ≠ a.val → axisOf t b = axisOf s b))

/-- The peloton rows (R309, R311 to R318). -/
def Obligations.PelotonRows : Prop := ∀ s : State,
  (∀ port rx f, fcsOk f = false → exec (.pelotonSync port rx f) s = .next s ∧ exec (.pelotonDelayReq port rx f) s = .next s ∧
    exec (.pelotonEnum port f) s = .next s ∧ exec (.pelotonConfig port f) s = .next s) ∧
  (∀ port rx f, fcsOk f = true → u8 ((payload f).drop 32) 0 = 1 → (s.pel.state = 0 ∨ s.pel.state = 3) →
    exec (.pelotonSync port rx f) s = .next (modPel (fun p => { p with heardAt := now s + 1 }) s)) ∧
  (∀ port rx f, fcsOk f = true → u8 ((payload f).drop 32) 0 = 2 → s.pel.state ≠ 0 → s.pel.state ≠ 3 →
    Gives (.pelotonDelayReq port rx f) s fun t =>
      (if port = .up then t.pel.up.peerAsym else t.pel.down.peerAsym) = signedOf 32 (be ((payload f).drop 32) 56 8) ∧
      t.pel.state = s.pel.state ∧ t.time = s.time) ∧
  (∀ port t1 t4 f, fcsOk f = true → u8 ((payload f).drop 32) 0 = 3 → s.pel.state ≠ 0 → s.pel.state ≠ 3 →
    Gives (.pelotonDelayResp port t1 t4 f) s fun t => t.pel.measures = s.pel.measures + 1 ∧ t.pel.state = s.pel.state) ∧
  (∀ port f, fcsOk f = true → u8 ((payload f).drop 32) 0 = 4 → s.pel.state = 1 → s.pel.isRef = false → s.pel.started = none →
    bitOf (u8 ((payload f).drop 32) 3) 3 ≠ s.pel.strap → Gives (.pelotonEnum port f) s fun t => t.pel.state = 3 ∧ t.pel.reason = 7) ∧
  (∀ port f, fcsOk f = true → u8 ((payload f).drop 32) 0 = 5 → s.pel.state = 1 → s.pel.isRef = false →
    timingDiffers s ((payload f).drop 32) = false → s.pel.expect = 0 → Gives (.pelotonConfig port f) s fun t =>
      t.pel.members = BitVec.ofNat 32 (be ((payload f).drop 32) 28 4) ∧ t.pel.state = 1) ∧
  (s.pel.state = 1 → s.pel.isRef = true → Gives .pelStartTimeout s fun t => t.pel.state = 3 ∧ t.pel.reason = 1 ∧ t.pel.started = none) ∧
  (isRef s = false → s.pel.sync = false → 64 ≤ s.pel.goodRun → sendsSync s = true → Gives .pelSyncSet s fun t =>
    t.pel.sync = true ∧ (s.pel.state = 1 → t.pel.state = 2 ∧ t.pel.started = none)) ∧
  (isRef s = false → s.pel.sync = true → (2 ≤ s.pel.badRun ∨ 4 ≤ silent s) → Gives .pelSyncLost s fun t =>
    t.pel.sync = false ∧ t.pel.syncLosses = s.pel.syncLosses + 1 ∧ Pending t 40) ∧
  (s.pel.state = 2 → isRef s = false → 4 * rankOf s ≤ silent s → Gives .pelTakeover s fun t =>
    t.pel.isRef = true ∧ t.pel.takeovers = s.pel.takeovers + 1 ∧ Pending t 41) ∧
  (s.pel.ann.kind = 0 → exec .announcementApply s = .next s) ∧
  (s.pel.ann.kind = 2 → s.pel.state = 2 → s.pel.isRef = false → (s.cad.started = false ∨ s.pel.ann.at' ≤ s.cad.start + s.cad.ns) →
    Gives .announcementApply s fun t => t.pel.ann = {} ∧ t.time.epoch = BitVec.ofNat 16 s.pel.ann.epoch) ∧
  (∀ port (rx : BitVec 64) f, fcsOk f = true → u8 ((payload f).drop 32) 0 = 1 → s.pel.state = 2 → s.pel.isRef = false →
    u8 ((payload f).drop 32) 1 = s.pel.sync'.refAddr → (syncInfo ((payload f).drop 32)).refGen = s.pel.sync'.refGen →
    (decide (port = .down) = s.pel.timingDown ∨ u8 ((payload f).drop 32) 2 < s.pel.sync'.hops) → Gives (.pelotonSync port rx f) s fun t =>
      t.pel.theta = ((rx.toNat : Int) - be ((payload f).drop 32) 8 8) * 1000 -
        (if port = .down then s.pel.down.mean - s.pel.down.peerAsym else s.pel.up.mean + s.pel.asymUp) ∧
      t.pel.thetaNew = true ∧ t.pel.sync' = syncInfo ((payload f).drop 32) ∧ t.pel.timingDown = decide (port = .down) ∧
      t.pel.members = BitVec.ofNat 32 (be ((payload f).drop 32) 28 4) ∧ t.pel.state = 2 ∧ t.time = s.time) ∧
  (∀ f, fcsOk f = true → u8 ((payload f).drop 32) 0 = 4 → s.pel.state = 1 → s.pel.isRef = false →
    bitOf (u8 ((payload f).drop 32) 3) 3 = s.pel.strap → timingDiffers s ((payload f).drop 32) = false → u8 ((payload f).drop 32) 55 < 31 →
    let a := if s.pel.strap then s.dev.stnaddr.toNat else u8 ((payload f).drop 32) 55 + 1
    be ((payload f).drop 32) 28 4 < 2 ^ a → Gives (.pelotonEnum .up f) s fun t =>
      t.pel = { s.pel with addr := a, addrKnown := true })

/-- The plant Ethernet, the grandmaster's servo and the timed actions (R261 to R265, R273 to R275, R321). -/
def Obligations.PtpAndTimedRows : Prop := ∀ s : State,
  (∀ p m, (ptpOf s p.val).role = 0 → exec (.ptpMessage p m) s = .next s) ∧
  (∀ p tick b, (ptpOf s p.val).role = 0 → exec (.ptpInterval p tick b) s = .next s) ∧
  (∀ (p : Fin 4) gm, (ptpOf s p.val).role = 2 → (ptpOf s p.val).state = 1 →
    Gives (.ptpMessage p (.announce gm)) s fun t => t.time = s.time ∧ t.out = s.out ∧
      ∀ q, ptpOf t q = if q = p.val then { ptpOf s p.val with gmId := gm, state := 3 } else ptpOf s q) ∧
  (∀ (p : Fin 4) m, (ptpOf s p.val).role ≠ 0 → (m = .signaling ∨ m = .management ∨ m = .malformed) → Gives (.ptpMessage p m) s fun t =>
    ptpOf t p.val = { ptpOf s p.val with discards := (ptpOf s p.val).discards + 1 } ∧ t.time = s.time) ∧
  (∀ (p : Fin 4) b, (ptpOf s p.val).role = 1 → Gives (.ptpInterval p .announce b) s fun t =>
    (∀ q, ptpOf t q = if q = p.val then ptpNext (ptpOf s p.val) 11 else ptpOf s q) ∧ ∃ o ∈ t.out, o.kind = .ptp ∧ o.unit = p.val) ∧
  (∀ p : Fin 4, (ptpOf s p.val).role = 2 → s.pel.follow = false → exec (.ptpAnnounceTimeout p) s =
    .next (setPtp p { ptpOf s p.val with state := 1 } s)) ∧
  (∀ mean, s.pel.follow = true → (ptpOf s s.pel.followPort).state = 4 → s.pel.ann.kind ≠ 0 → Gives (.gmServoInterval mean) s fun t =>
    t.pel.gmOffset = mean.toInt ∧ t.pel.intervals = s.pel.intervals + 1 ∧ t.pel.slewInInterval = 0 ∧ t.time = s.time) ∧
  (∀ mean, s.pel.follow = false → exec (.gmServoInterval mean) s = .next s) ∧
  (∀ u : Fin 256, s.dev.frozen = false → unitOf s u.val = none → exec (.timedActionFire u) s = .next s) ∧
  (∀ (u : Fin 256) a k, s.dev.frozen = false → unitOf s u.val = some a → a.kind = .traceTrigger k → a.dieF = false → firesNow s a = true → a.noLate = true →
    a.tr ≠ 0 → ceilTo 4 a.tr < fireTick s a → Gives (.timedActionFire u) s fun t =>
      unitOf t u.val = none ∧ t.time.dropCount = s.time.dropCount + 1 ∧ Pending t 45 ∧ t.trc.ses = s.trc.ses) ∧
  (∀ (u : Fin 256) a, unitOf s u.val = some a → firesNow s a = false → exec (.timedActionFire u) s = .next s) ∧
  (∀ (u : Fin 256) a k, s.dev.frozen = false → unitOf s u.val = some a → a.kind = .traceTrigger k → a.dieF = false → firesNow s a = true →
    a.tr = 0 → Gives (.timedActionFire u) s fun t =>
      unitOf t u.val = none ∧ t.time.dropCount = s.time.dropCount ∧ t.time.lateCount = s.time.lateCount ∧
      sesOf t k = sesOf (trigger k s) k ∧
      (s.cad.phase ≠ 3 → sesOf t k = if (sesOf s k).state = .armed then { sesOf s k with trigNow := true } else sesOf s k) ∧
      ∀ j, j ≠ k → sesOf t j = sesOf s j) ∧
  (∀ (u : Fin 256) a, unitOf s u.val = some a → a.dieF = true → a.report ≠ 0 → xlinkCarries s = true →
    Gives (.dieFActionReport u) s fun t => unitOf t u.val = none ∧ t.axes = s.axes ∧ t.grps = s.grps) ∧
  (∀ u : Fin 256, unitOf s u.val = none → exec (.dieFActionReport u) s = .next s)

/-- The scheduler's rows (R240, R241, R245, R246, R248). -/
def Obligations.SchedulerRows : Prop := ∀ s : State,
  (∀ d : Descriptor, (clsOf s d.cls.val).held.find? (fun t => t.d = d) = none →
    (descOk s d = false → exec (.taskRelease d) s = .next s) ∧
    (descOk s d = true → (periodic d = true ∨ poolFree s d.cls.val ≠ 0) → noFlow d = true → d.type ≠ 0x0003 →
      (longOf s d.release.toNat ≤ now s → Gives (.taskRelease d) s fun t =>
        (clsOf t d.cls.val).ready = (clsOf s d.cls.val).ready ++ [{ d := d, readyAt := now s, order := s.admitSeq }] ∧
        (∀ j, j ≠ d.cls.val → clsOf t j = clsOf s j) ∧ t.sch.flows = s.sch.flows ∧ t.axes = s.axes ∧ t.grps = s.grps) ∧
      (now s < longOf s d.release.toNat → Gives (.taskRelease d) s fun t =>
        (clsOf t d.cls.val).held = (clsOf s d.cls.val).held ++ [{ d := d }] ∧
        (clsOf t d.cls.val).ready = (clsOf s d.cls.val).ready ∧ t.time = s.time)) ∧
    (descOk s d = true → periodic d = false → poolFree s d.cls.val = 0 → Gives (.taskRelease d) s fun t =>
      (clsOf t d.cls.val).stalled = true ∧ (clsOf t d.cls.val).stalls = (clsOf s d.cls.val).stalls + 1 ∧
      (clsOf t d.cls.val).stalledTasks = (clsOf s d.cls.val).stalledTasks ++ [{ d := d }] ∧ Pending t 49)) ∧
  (∀ (d : Descriptor) x, (clsOf s d.cls.val).held.find? (fun t => t.d = d) = some x → d.type ≠ 0x0003 → Gives (.taskRelease d) s fun t =>
    (clsOf t d.cls.val).held = (clsOf s d.cls.val).held.erase x ∧
    (clsOf t d.cls.val).ready = (clsOf s d.cls.val).ready ++ [{ x with readyAt := now t, order := s.admitSeq }]) ∧
  (∀ (k : Fin 5) x u, firstBy (before s k.val) ((clsOf s k.val).ready.filter (fun y => (freeUnitFor s y).isSome)) = some x →
    freeUnitFor s x = some u → Gives (.taskDispatch k) s fun t =>
      onUnit t k.val u = some x ∧ (clsOf t k.val).ready = (clsOf s k.val).ready.erase x ∧ t.axes = s.axes ∧ t.grps = s.grps) ∧
  (∀ (k : Fin 5) (u : Fin 64), onUnit s k.val u.val = none → exec (.taskEnd k u) s = .next s) ∧
  (∀ (k : Fin 5) (u : Fin 64) x, onUnit s k.val u.val = some x → noFlow x.d = true → Gives (.taskEnd k u) s fun t =>
    onUnit t k.val u.val = none ∧ t.sch.flows = s.sch.flows ∧ t.axes = s.axes ∧ t.grps = s.grps) ∧
  (∀ (u : Fin 32) x, onUnit s 0 u.val = some x → x.d.type = 0x0003 → Gives (.fftSliceEnd u) s fun t =>
    onUnit t 0 u.val = none ∧ (clsOf t 0).suspended = (clsOf s 0).suspended ++ [x] ∧ t.sch.flows = s.sch.flows) ∧
  (∀ k f, s.dev.frozen = true → exec (.schedDeadlineMiss k f) s = .next s) ∧
  (∀ (k : Fin 5) f type obj, s.dev.frozen = false → overdueTask s k.val f.toNat = none → k.val ≠ 1 →
    periodicTask s k.val f.toNat = some (type, obj) → outstanding s type obj = true → Gives (.schedDeadlineMiss k f) s fun t => Pending t 51) ∧
  (∀ k : Fin 5, (clsOf s k.val).stalledTasks = [] → exec (.enqueueResume k) s =
    .next (setCls k.val { clsOf s k.val with stalled := false } s)) ∧
  (∀ (k : Fin 5) d r, (clsOf s k.val).stalledTasks = { d := d } :: r → d.cls = k → noFlow d = true → (periodic d = true) →
    d.type ≠ 0x0003 → longOf s d.release.toNat ≤ now s → Gives (.enqueueResume k) s fun t =>
      (clsOf t k.val).ready = (clsOf s k.val).ready ++ [{ d := d, readyAt := now s, order := s.admitSeq }] ∧
      (∀ j, j ≠ k.val → clsOf t j = clsOf s j))

/-- The field channels' rows (R325, R326, R330 to R339, R365). -/
def Obligations.FieldRows : Prop := ∀ s : State,
  (∀ n w, s.io.image = some (n, w) → xlinkCarries s = true → s.io.lastCount ≠ some n → Gives (.fieldOutputImage true) s fun t =>
    t.io = { s.io with image := none, armed := true, lastRefresh := now s, lastCount := some n, ready := some w, gotRefresh := true
                       tWd := s.io.tWdNext.getD s.io.tWd, tWdNext := none } ∧ t.axes = s.axes) ∧
  (∀ n w, s.io.image = some (n, w) → xlinkCarries s = true → Gives (.fieldOutputImage false) s fun t =>
    t.io = { s.io with image := none } ∧ t.axes = s.axes) ∧
  (xlinkCarries s = false → exec .fieldInputImage s = .next s) ∧
  (xlinkCarries s = true → s.io.safe ≠ 1 → (∀ x < 4, (fgOf s x).latched = false ∧ (fgOf s x).badSeen = false) →
    Gives .fieldInputImage s fun t => (∀ c < 32, (chanOf t c).seen = (chanOf s c).sampled ∧ (chanOf t c).pin = (chanOf s c).pin) ∧
      t.grps = s.grps ∧ t.axes = s.axes) ∧
  (∀ (c : Fin 32) v, (chanOf s c).raw = v → exec (.inputLevelChange c v) s = .next s) ∧
  (∀ (c : Fin 32) v, (chanOf s c).raw ≠ v → (chanOf s c).filterUs ≠ 0 → Gives (.inputLevelChange c v) s fun t =>
    (chanOf t c).raw = v ∧ (chanOf t c).filtered = (chanOf s c).filtered ∧ (v = true → hasCode (chanOf t c) 7 = false) ∧
    t.axes = s.axes ∧ t.grps = s.grps ∧ (v = false ∨ hasCode (chanOf s c) 7 = false → { t with io := s.io } = s)) ∧
  (∀ (c : Fin 32) v, (chanOf s c).raw ≠ v → (chanOf s c).filterUs = 0 → Gives (.inputLevelChange c v) s fun t =>
    (chanOf t c).raw = v ∧ (chanOf t c).filtered = v ∧ (v = true → hasCode (chanOf t c) 7 = false) ∧
    t.axes = s.axes ∧ t.grps = s.grps ∧ (v = false ∨ hasCode (chanOf s c) 7 = false → { t with io := s.io } = s)) ∧
  (∀ c : Fin 32, (chanOf s c).raw ≠ (chanOf s c).filtered → Gives (.inputFiltered c) s fun t =>
    (chanOf t c).filtered = (chanOf s c).raw ∧ (chanOf t c).edge = (chanOf s c).rawEdge ∧ { t with io := s.io, time := s.time } = s) ∧
  (∀ c : Fin 32, (chanOf s c).role = 1 → (chanOf s c).owEn = true → (chanOf s c).raw = false → Gives (.openInput c true) s fun t =>
    hasCode (chanOf t c) 7 = true ∧ (chanOf t c).pin = (chanOf s c).pin) ∧
  (∀ (c : Fin 32) tj, (chanOf s c).role = 2 → Gives (.overtemp c tj) s fun t => (chanOf t c).hot = true ∧ hasCode (chanOf t c) 2 = true) ∧
  (∀ (c : Fin 32) tj, (chanOf s c).role = 2 → (chanOf s c).hot = true → (chanOf s c).tripped = false → tj.toNat ≤ 150 →
    Gives (.overtempTrip c tj) s fun t => (chanOf t c).tripped = true ∧ (chanOf t c).hot = false ∧
      (chanOf t c).trips = (chanOf s c).trips + 1) ∧
  (∀ c : Fin 32, (chanOf s c).role = 2 → (chanOf s c).pin = true → (chanOf s c).tripped = false → Gives (.overload c) s fun t =>
    (chanOf t c).tripped = true ∧ hasCode (chanOf t c) 1 = true ∧ (chanOf t c).trips = (chanOf s c).trips + 1) ∧
  (∀ (x : Fin 4) cur, (∀ c < 32, (chanOf s c).pin = false) → Gives (.groupOverload x cur) s fun t =>
    (∀ j < 8, (chanOf t (8 * x.val + j)).currentMa = 0) ∧ { t with io := s.io } = s) ∧
  (∀ c : Fin 32, (chanOf s c).role = 2 → (chanOf s c).pin = false → Gives (.shortFlp c) s fun t => hasCode (chanOf t c) 4 = true) ∧
  (∀ c : Fin 32, (chanOf s c).role = 2 → (chanOf s c).pin = false → (chanOf s c).owEn = true → hasCode (chanOf s c) 4 = false →
    Gives (.openOff c) s fun t => hasCode (chanOf t c) 6 = true) ∧
  (∀ c : Fin 32, (chanOf s c).role = 2 → (chanOf s c).pin = true → Gives (.openOn c) s fun t => hasCode (chanOf t c) 5 = true) ∧
  (∀ (c : Fin 32) (code : BitVec 8), code.toNat < 8 → Gives (.codeCleared c code) s fun t =>
    hasCode (chanOf t c) code.toNat = false ∧ (chanOf t c).pin = (chanOf s c).pin) ∧
  (∀ c : Fin 32, (chanOf s c).tripped = true → (chanOf s c).latched = false → (chanOf s c).tj ≤ 150 → Gives (.channelRestart c) s fun t =>
    (chanOf t c).tripped = false ∧ (chanOf t c).trips = (chanOf s c).trips) ∧
  (∀ (x : Fin 4) mv, (fgOf s x).latched = true → Gives (.supplyLow x mv) s fun t => (fgOf t x).flpMv = mv.toNat ∧
    (fgOf t x).low = (if mv.toNat < 19200 then true else if 19600 ≤ mv.toNat then false else (fgOf s x).low) ∧ (fgOf t x).latched = true) ∧
  (∀ (x : Fin 4) mv, (fgOf s x).latched = false → mv.toNat < 19200 → Gives (.supplyLow x mv) s fun t =>
    (fgOf t x).supply = 1 ∧ (fgOf t x).low = true ∧ (fgOf t x).goodSince = none) ∧
  (∀ (x : Fin 4) mv, mv.toNat < 17000 → Gives (.supplyCut x mv) s fun t =>
    (fgOf t x).latched = true ∧ (fgOf t x).cut = true ∧ (fgOf t x).supply = 2) ∧
  (∀ (x : Fin 4) mv, 33000 < mv.toNat → Gives (.supplyOver x mv) s fun t =>
    (fgOf t x).latched = true ∧ (fgOf t x).cut = false ∧ (fgOf t x).supply = 3) ∧
  (∀ x : Fin 4, (fgOf s x).latched = true → ((fgOf s x).reenable = true ∨ (fgOf s x).autoRe = true) → (fgOf s x).goodSince ≠ none → Gives (.supplyLatchRelease x) s fun t =>
    (fgOf t x).latched = false ∧ (fgOf t x).supply = 0) ∧
  (s.io.armed = true → s.io.safe = 0 → Gives .logicSilence s fun t => t.io.safe = 1 ∧ t.dev.faultN = true) ∧
  (∀ (x : Fin 4) mv, (fgOf s x).risen = false → 19200 ≤ mv.toNat → mv.toNat ≤ 30000 → Gives (.flpFirstRise x mv) s fun t =>
    (fgOf t x).risen = true ∧ (fgOf t x).latched = false ∧ (fgOf t x).supply = 0)

/-- The rows of axes, groups, homing, injections and step axes (R66, R72, R115, R124, R127, R129, R201, R203, R193, R348, R351). -/
def Obligations.MotionRows : Prop := ∀ s : State,
  (∀ (a : Fin 128) w, (axisOf s a).state = .disabled → (axisOf s a).enable = some w → Gives (.enableTimeout a) s fun t =>
    axisOf t a = { axisOf s a with faults := (axisOf s a).faults ++ [4] } ∧ (∀ b, b ≠ a.val → axisOf t b = axisOf s b)) ∧
  (∀ (a : Fin 128) w, (axisOf s a).state = .stopping → (axisOf s a).disable = some w → Gives (.disableTimeout a) s fun t =>
    axisOf t a = { axisOf s a with faults := (axisOf s a).faults ++ [5] } ∧ (∀ b, b ≠ a.val → axisOf t b = axisOf s b)) ∧
  (∀ (g : Fin 16) a, (grpOf s g).state = .enabling → members s g = [a] → (axisOf s a).state ≠ .closed → Gives (.groupEnableTimeout g) s fun t =>
    axisOf t a = { axisOf s a with faults := (axisOf s a).faults ++ [4] }) ∧
  (∀ g : Fin 16, (grpOf s g).state = .moving → (grpOf s g).mpc = false → arrived (grpOf s g) = true →
    (members s g).all (fun a => (axisOf s a).inWin && decide (nsOfSec (axisOf s a).cfg.settleTime ≤ (axisOf s a).settledNs)) = true →
    exec (.groupSettled g) s = .next (modGrp g (fun x => { x with settled := true }) s) ∧
    (grpOf (grpSettle g s) g).state = .ready ∧ (grpOf (grpSettle g s) g).moves = [] ∧ Pending (grpSettle g s) (16 + g.val)) ∧
  (∀ (c : Fin 32) a q, readersOf s c = ([(a, q)], []) → groupOf s a = none → (chanOf s c).seenEdge + 1000000 * q < 2 ^ 64 →
    Gives (.inputQualified c) s fun t =>
      (axisOf t a).quals = setQual (axisOf s a).quals c (chanOf s c).seen (chanOf s c).seenEdge ∧
      (chanOf s c).seenEdge + 1000000 * q ≤ now t ∧ (∀ b, b ≠ a → axisOf t b = axisOf s b) ∧ t.grps = s.grps ∧ t.io = s.io) ∧
  (∀ c : Fin 32, readersOf s c = ([], []) → exec (.inputQualified c) s = .next s) ∧
  (∀ (c : Fin 32) (n : Fin 16), (∀ a ∈ tkeys s.axes, homing (axisOf s a) = false) → (stpOf s n).home ≠ .none → (stpOf s n).tQ ≠ 0 →
    c.val = (stpOf s n).homeCh → Gives (.chatter c) s fun t => (stpOf t n).homeReason = 2) ∧
  (∀ (a : Fin 128) g, groupOf s a.val = some g → (grpOf s g).state = .homing → searching (axisOf s a) = true →
    (axisOf s a).cfg.searchDist * 2 ^ 48 ≤ fabs ((axisOf s a).cmdP - (axisOf s a).homeStart) → (grpOf s g).homeFailed = none →
    exec (.notFound a) s = .next (modGrp g (fun x => { x with homeFailed := some (a.val, 3) }) s) ∧
    (grpOf (homeFail g a 3 s) g).state = .stopping ∧ (grpOf (homeFail g a 3 s) g).homeReason = 3 ∧
    (grpOf (homeFail g a 3 s) g).homeAxis = a.val) ∧
  (∀ (a : Fin 128) g, groupOf s a.val = some g → (axisOf s a).cfg.homeMode = 3 → (axisOf s a).home = .search →
    (axisOf s a).cfg.torqueThr ≤ fabs (torqueAct (axisOf s a)) → Gives (.hardStopLatch a) s fun t => (axisOf t a).home = .backoff) ∧
  (∀ (a : Fin 128) i, injOf s a = some i → i.running = true → u32 i.p 8 ≤ i.n → i.stop = none → Gives (.injectionComplete a) s fun t =>
    injOf t a = none ∧ Pending t 67) ∧
  (∀ f, s.trc.frf = some f → Gives .frfComplete s fun t => t.trc.frf = none) ∧
  (∀ k : Fin 8, (sesOf s k).state = .triggered → (sesOf s k).length - (sesOf s k).pre ≤ (sesOf s k).after → Gives (.trcFull k) s fun t =>
    (sesOf t k).state = .stopped ∧ (sesOf t k).reason = 1 ∧ (sesOf t k).rows = (sesOf s k).rows ∧ Pending t 74 ∧
    ∀ j, j ≠ k.val → sesOf t j = sesOf s j) ∧
  (xlinkCarries s = true → s.io.safe = 0 → Gives .stepCommandRecord s fun t =>
    (∀ n, (stpOf t n).segment = (stpOf s n).sent ∧ (stpOf t n).sent = none ∧ (stpOf t n).state = (stpOf s n).state) ∧ { t with stp := s.stp } = s) ∧
  (∀ (n : Fin 16) w, (stpOf s n).zeroSince = some w → (stpOf s n).state = .ready → (stpOf s n).holdDelay ≠ 0 → (stpOf s n).hold = false →
    (stpOf s n).late = [] → (stpOf s n).queue = [] → Gives (.stpHoldAssert n) s fun t =>
    stpOf t n = { stpOf s n with hold := true } ∧ (∀ m, m ≠ n.val → stpOf t m = stpOf s m) ∧ { t with stp := s.stp, time := s.time, out := s.out } = s)

/-- The journal's rows (R397 to R405). -/
def Obligations.JournalRows : Prop := ∀ s : State,
  (∀ r q, s.jrn.queueM = r :: q → xlinkCarries s = true → s.jrn.holdup = false → s.jrn.queueF.length < 64 → s.jrn.toReport = 0 →
    exec .journalRecordSend s = .next (xsend .f 0x08 (recBytes r 0)
      { s with jrn := { s.jrn with queueM := q, queueF := s.jrn.queueF ++ [{ r with holdup := false }] } })) ∧
  (xlinkCarries s = false → exec .journalRecordSend s = .next s) ∧
  (∀ r q, s.jrn.queueF = r :: q → Gives .journalWrite s fun t =>
    t.jrn.queueF = q ∧ t.jrn.next = s.jrn.next + 1 ∧ t.jrn.floor = s.jrn.floor ∧
    (tget none t.jrn.regB (s.jrn.next.toNat % regBSlots)).map (·.1) = some s.jrn.next.toNat ∧
    (2 ≤ r.sev → Pending t 100) ∧
    t.jrn.regA = (if 2 ≤ r.sev && s.jrn.regA.length < 4096 then s.jrn.regA ++ [{ r with inA := true }] else s.jrn.regA)) ∧
  (s.jrn.queueF = [] → exec .journalWrite s = .next s) ∧
  (s.jrn.holdup = true → s.jrn.holdupOpen = true →
    exec .holdupWindowEnd s = .next { s with jrn := { s.jrn with holdupOpen := false, holdupUnsent := s.jrn.queueM.length } }) ∧
  (s.jrn.holdup = true → s.jrn.holdupOpen = false → s.jrn.holdupEnding = false → s.jrn.queueF = [] → Gives .holdupDone s fun t =>
    t.jrn.holdupEnding = true ∧ t.jrn.holdup = s.dev.pfail ∧ t.jrn.next = s.jrn.next + 1 ∧ t.jrn.queueF = []) ∧
  (∀ c : BitVec 16, s.jrn.cReq.toNat ≤ c.toNat → exec (.holdupCheck c) s = .next { s with jrn := { s.jrn with cMeas := c } }) ∧
  (∀ c : BitVec 16, c.toNat < s.jrn.cReq.toNat → Gives (.holdupCheck c) s fun t =>
    t.jrn.cMeas = c ∧ t.jrn.holdupLow = true ∧ Pending t 103) ∧
  (∀ a b, s.jrn.erasing = some (a, b) → Gives .truncateEraseDone s fun t =>
    t.jrn.erasing = none ∧ t.jrn.regA = s.jrn.regA ∧ t.jrn.next = s.jrn.next ∧ t.jrn.floor = s.jrn.floor ∧
    { t with jrn := s.jrn } = s)
end

