-- ==== Sys2Proof/Laws/Table.lean ====
section
/-!
SUPPORT. Laws of the table and of the byte store: a read after a write, and that every operation keeps the canonical form.
-/
namespace Sys2Proof

set_option Elab.async false
theorem tget_tdrop {α : Type} (d : α) (t : Tab α) (k j : Nat) : tget d (tdrop t k) j = if j = k then d else tget d t j := by
  induction t with
  | nil => simp [tdrop, tget]
  | cons e r ih => 
    obtain ⟨a, x⟩ := e
    unfold tdrop at *
    by_cases h : a = k
    · have ih' := ih
      simp only [h, tget, ne_eq, decide_not, decide_true, Bool.not_true, List.filter_cons, Bool.false_eq_true, if_false] at ih' ⊢
      rw [ih']; by_cases hj : j = k
      · simp [hj]
      · simp [hj, Ne.symm hj]
    · simp only [List.filter_cons, h, ne_eq, not_false_eq_true, decide_true, if_true, tget]
      rw [ih]; by_cases hj : a = j
      · subst hj; simp [h]
      · simp [hj]

theorem wf_cons {α : Type} [DecidableEq α] {d : α} {a : Nat} {x : α} {r : Tab α} :
    Tab.wf d ((a, x) :: r) = true ↔ x ≠ d ∧ (∀ e ∈ r.head?, a < e.1) ∧ Tab.wf d r = true := by
  cases r with
  | nil => simp [Tab.wf]
  | cons e r => obtain ⟨b, y⟩ := e; simp [Tab.wf, and_assoc]

theorem wf_iff {α : Type} [DecidableEq α] {d : α} {t : Tab α} :
    Tab.wf d t = true ↔ t.Pairwise (fun e f => e.1 < f.1) ∧ ∀ e ∈ t, e.2 ≠ d := by
  induction t with
  | nil => simp [Tab.wf]
  | cons e r ih =>
    obtain ⟨a, x⟩ := e
    rw [wf_cons, ih, List.pairwise_cons]
    constructor
    · rintro ⟨h1, h2, h3, h4⟩
      refine ⟨⟨?_, h3⟩, by simpa using ⟨h1, fun a b h => h4 _ h⟩⟩
      cases r with
      | nil => simp
      | cons f r =>
        simp at h2
        intro e he
        rcases List.mem_cons.1 he with rfl | he
        · exact h2
        · exact Nat.lt_trans h2 ((List.pairwise_cons.1 h3).1 e he)
    · rintro ⟨⟨h1, h2⟩, h3⟩
      refine ⟨h3 (a, x) List.mem_cons_self, ?_, h2, fun e he => h3 e (List.mem_cons_of_mem _ he)⟩
      intro e he; exact h1 e (List.mem_of_mem_head? he)

theorem tinsert_mem {α : Type} {k : Nat} {v : α} {t : Tab α} {e} : e ∈ tinsert k v t ↔ e = (k, v) ∨ e ∈ t := by
  induction t with
  | nil => simp [tinsert]
  | cons f r ih =>
    obtain ⟨a, x⟩ := f
    unfold tinsert; split
    · simp
    · simp only [List.mem_cons, ih]; constructor
      · rintro (h | h | h) <;> simp [h]
      · rintro (h | h | h) <;> simp [h]

theorem tinsert_wf {α : Type} [DecidableEq α] {d : α} {t : Tab α} {k : Nat} {v : α} (hv : v ≠ d) (h : Tab.wf d t = true)
    (hk : ∀ e ∈ t, e.1 ≠ k) : Tab.wf d (tinsert k v t) = true := by
  rw [wf_iff] at *
  obtain ⟨h1, h2⟩ := h
  refine ⟨?_, fun e he => ?_⟩
  · induction t with
    | nil => simp [tinsert]
    | cons f r ih =>
      obtain ⟨a, x⟩ := f
      rw [List.pairwise_cons] at h1
      unfold tinsert; split
      · rename_i hka
        rw [List.pairwise_cons]
        refine ⟨?_, List.pairwise_cons.2 h1⟩
        intro e he; rcases List.mem_cons.1 he with rfl | he
        · exact hka
        · exact Nat.lt_trans hka (h1.1 e he)
      · rename_i hka
        rw [List.pairwise_cons]
        refine ⟨?_, ih (fun e he => hk e (List.mem_cons_of_mem _ he)) h1.2 (fun e he => h2 e (List.mem_cons_of_mem _ he))⟩
        intro e he
        rcases tinsert_mem.1 he with rfl | he
        · have := hk (a, x) (by simp); simp at *; omega
        · exact h1.1 e he
  · rcases tinsert_mem.1 he with rfl | he
    · exact hv
    · exact h2 e he

theorem tdrop_wf {α : Type} [DecidableEq α] {d : α} {t : Tab α} {k : Nat} (h : Tab.wf d t = true) :
    Tab.wf d (tdrop t k) = true := by
  rw [wf_iff] at *
  exact ⟨h.1.sublist List.filter_sublist, fun e he => h.2 e (List.mem_filter.1 he).1⟩

theorem tset_wf {α : Type} [DecidableEq α] {d : α} {t : Tab α} {k : Nat} {v : α} (h : Tab.wf d t = true) :
    Tab.wf d (tset d t k v) = true := by
  unfold tset; split
  · exact tdrop_wf h
  · refine tinsert_wf (by assumption) (tdrop_wf h) ?_
    intro e he; simpa using (List.mem_filter.1 he).2

theorem mwrite_wf {b : List Byte} {m : Mem} {a : Nat} (h : Tab.wf 0 m = true) : Tab.wf 0 (mwrite m a b) = true := by
  induction b generalizing m a with
  | nil => exact h
  | cons x r ih => exact ih (tset_wf h)
theorem tget_tinsert {α : Type} (d : α) (t : Tab α) (k j : Nat) (v : α) (hk : ∀ e ∈ t, e.1 ≠ k) :
    tget d (tinsert k v t) j = if j = k then v else tget d t j := by
  induction t with
  | nil => by_cases h : j = k
           · simp [tinsert, tget, h]
           · simp [tinsert, tget, h, Ne.symm h]
  | cons f r ih =>
    obtain ⟨a, x⟩ := f
    unfold tinsert; split
    · by_cases h : j = k
      · simp [tget, h]
      · simp [tget, h, Ne.symm h]
    · have hr := ih (fun e he => hk e (List.mem_cons_of_mem _ he))
      have ha : a ≠ k := hk (a, x) List.mem_cons_self
      simp only [tget, hr]
      by_cases h : a = j
      · subst h; simp [ha]
      · simp [h]

theorem tget_tset {α : Type} [DecidableEq α] (d : α) (t : Tab α) (k j : Nat) (v : α) :
    tget d (tset d t k v) j = if j = k then v else tget d t j := by
  unfold tset; split
  · rename_i h; rw [tget_tdrop, h]
  · rw [tget_tinsert, tget_tdrop]
    · by_cases h : j = k <;> simp [h]
    · intro e he; simpa using (List.mem_filter.1 he).2

theorem mget_mset (m : Mem) (a x : Nat) (b : Byte) : mget (mset m a b) x = if x = a then b else mget m x := tget_tset _ _ _ _ _

theorem mget_mwrite (l : List Byte) (m : Mem) (a x : Nat) :
    mget (mwrite m a l) x = if a ≤ x ∧ x < a + l.length then l.getD (x - a) 0 else mget m x := by
  induction l generalizing m a with
  | nil => simp only [mwrite, List.length_nil, Nat.add_zero]; rw [if_neg (by omega)]
  | cons b r ih =>
    simp only [mwrite, ih, mget_mset, List.length_cons]
    by_cases h : x = a
    · subst h
      rw [if_neg (by omega), if_pos rfl, if_pos (by omega)]; simp
    · by_cases h2 : a + 1 ≤ x ∧ x < a + 1 + r.length
      · rw [if_pos h2, if_pos (by omega)]
        obtain ⟨n, hn⟩ : ∃ n, x - a = n + 1 := ⟨x - a - 1, by omega⟩
        have : x - (a + 1) = n := by omega
        simp [hn, this]
      · rw [if_neg h2, if_neg h, if_neg (by omega)]

theorem mread_congr {m m' : Mem} {a n : Nat} (h : ∀ x, a ≤ x → x < a + n → mget m x = mget m' x) : mread m a n = mread m' a n := by
  induction n generalizing a with
  | zero => rfl
  | succ n ih =>
    simp only [mread]
    rw [h a (by omega) (by omega), ih (fun x h1 h2 => h x (by omega) (by omega))]

theorem mread_mwrite_self (l : List Byte) (m : Mem) (a : Nat) : mread (mwrite m a l) a l.length = l := by
  induction l generalizing m a with
  | nil => rfl
  | cons b r ih =>
    simp only [mwrite, List.length_cons, mread, ih]
    rw [mget_mwrite, if_neg (by omega), mget_mset, if_pos rfl]
end Sys2Proof
end

