-- ==== Sys2Proof/Laws/Complete.lean ====
section
/-!
SUPPORT. Laws of a completion (R48) and of the path of an accepted command (R53).
-/
namespace Sys2Proof.Machine

set_option Elab.async false

theorem Quiet.refl (s : State) : Quiet s s := by constructor <;> rfl
theorem Quiet.trans {a b c : State} (p : Quiet a b) (q : Quiet b c) : Quiet a c := by
  constructor
  · exact q.host.trans p.host
  · exact q.mask.trans p.mask
  · exact q.map.trans p.map
  · exact q.strm.trans p.strm
  · exact q.time.trans p.time
  · exact q.cad.trans p.cad
  · exact q.ptp.trans p.ptp
  · exact q.dev.trans p.dev
  · exact q.jrn.trans p.jrn
  · exact q.hub.trans p.hub
  · exact q.xl.trans p.xl
  · exact q.bus.trans p.bus
  · exact q.pel.trans p.pel
  · exact q.axes.trans p.axes
  · exact q.grps.trans p.grps
  · exact q.sig.trans p.sig
  · exact q.sch.trans p.sch
  · exact q.io.trans p.io
  · exact q.stp.trans p.stp
  · exact q.qp.trans p.qp
  · exact q.trc.trans p.trc
  · exact q.ssm.trans p.ssm
  · exact q.eff.trans p.eff
  · exact q.tilesOut.trans p.tilesOut
  · exact q.lanesOut.trans p.lanesOut
  · exact q.free.trans p.free
  · exact q.pending.trans p.pending

/-- A state that is quiet after `s` is `s` with the fields of a completion replaced. -/
theorem Quiet.eta {s t : State} (q : Quiet s t) : ∃ mb bar2 pba pend lost sent spokes occ out adm, t = { s with
    host := { s.host with mb := mb, bar2 := bar2, pba := pba }, evt := { s.evt with pend := pend, lost := lost, sent := sent }
    hub := { s.hub with spokes := spokes }, trc := { s.trc with occurred := occ }, out := out, admitSeq := adm } := by
  refine ⟨t.host.mb, t.host.bar2, t.host.pba, t.evt.pend, t.evt.lost, t.evt.sent, t.hub.spokes, t.trc.occurred, t.out, t.admitSeq, ?_⟩
  have h1 := congrArg (fun h : HostSt => { h with mb := t.host.mb, bar2 := t.host.bar2, pba := t.host.pba }) q.host
  have h2 := congrArg (fun h : HubSt => { h with spokes := t.hub.spokes }) q.hub
  have h3 := congrArg (fun h : TrcSt => { h with occurred := t.trc.occurred }) q.trc
  dsimp only at h1 h2 h3
  dsimp only
  rw [← h1, ← h2, ← h3, ← q.mask, ← q.map, ← q.strm, ← q.time, ← q.cad, ← q.ptp, ← q.dev, ← q.jrn, ← q.xl, ← q.bus, ← q.pel, ← q.axes,
    ← q.grps, ← q.sig, ← q.sch, ← q.io, ← q.stp, ← q.qp, ← q.ssm, ← q.eff, ← q.tilesOut, ← q.lanesOut, ← q.free, ← q.pending]

/-- The state that an accepted command's act starts from. -/
theorem Quiet.start {s t : State} (q : Quiet s t) (ha : t.admitSeq = s.admitSeq + 1) (hh : t.host = s.host) (ho : t.out = s.out) :
    ∃ pend lost sent spokes occ, t = { s with
      evt := { s.evt with pend := pend, lost := lost, sent := sent }
      hub := { s.hub with spokes := spokes }, trc := { s.trc with occurred := occ }, admitSeq := s.admitSeq + 1 } := by
  obtain ⟨mb, bar2, pba, pend, lost, sent, spokes, occ, out, adm, rfl⟩ := q.eta
  refine ⟨pend, lost, sent, spokes, occ, ?_⟩
  dsimp only at ha hh ho
  rw [hh, ha, ho]

theorem count_quiet (i code : Nat) (s : State) : Quiet s (count i code s) := by constructor <;> rfl
theorem emit_quiet (k : OutKind) (u : Nat) (b : List Byte) (s : State) : Quiet s (emit k u b s) := by constructor <;> rfl
theorem bar2Write_quiet (a : Nat) (b : List Byte) (s : State) : Quiet s (bar2Write a b s) := by constructor <;> rfl
theorem setMb_quiet (m : Nat) (b : Mailbox) (s : State) : Quiet s (setMb m b s) := by constructor <;> rfl
theorem setSlot_quiet (m k : Nat) (v : Slot) (s : State) : Quiet s (setSlot m k v s) := setMb_quiet _ _ _
theorem fireVector_quiet (v : Nat) (s : State) : Quiet s (fireVector v s) := by
  unfold fireVector
  split
  · exact .refl _
  split
  · constructor <;> rfl
  · exact Quiet.trans (by constructor <;> rfl) (count_quiet _ _ _)
theorem raise_quiet (e : Nat) (s : State) : Quiet s (raise e s) := by
  unfold raise; dsimp only
  split
  · exact Quiet.trans (by constructor <;> rfl) (fireVector_quiet _ _)
  · constructor <;> rfl

theorem fireVector_host (v : Nat) (s : State) : (fireVector v s).host = { s.host with pba := (fireVector v s).host.pba } := by
  unfold fireVector; split
  · rfl
  split <;> rfl
theorem raise_host (e : Nat) (s : State) : (raise e s).host = { s.host with pba := (raise e s).host.pba } := by
  unfold raise; dsimp only; split
  · exact (fireVector_host _ _)
  · rfl
@[simp] theorem raise_bar2 (e : Nat) (s : State) : (raise e s).host.bar2 = s.host.bar2 := by rw [raise_host]
@[simp] theorem raise_mb (e : Nat) (s : State) : (raise e s).host.mb = s.host.mb := by rw [raise_host]
@[simp] theorem raise_slotOf (e : Nat) (s : State) (m k : Nat) : slotOf (raise e s) m k = slotOf s m k := by
  unfold slotOf mbOf; rw [raise_mb]
theorem fireVector_out (v : Nat) (s : State) : ∀ o ∈ s.out, o ∈ (fireVector v s).out := by
  unfold fireVector; split
  · exact fun _ h => h
  split
  · exact fun _ h => h
  · exact fun _ h => List.mem_cons_of_mem _ h
theorem raise_out (e : Nat) (s : State) : ∀ o ∈ s.out, o ∈ (raise e s).out := by
  intro o h
  unfold raise; extract_lets was src src2 s1
  have h1 : o ∈ s1.out := h
  split
  · exact fireVector_out _ _ _ h1
  · exact h1

theorem setSlot_same (m k : Nat) (v : Slot) (s : State) : slotOf (setSlot m k v s) m k = v := by
  simp [slotOf, mbOf, setSlot, setMb, tget_tset]
theorem setSlot_other (m k n j : Nat) (v : Slot) (s : State) (h : ¬(n = m ∧ j = k)) : slotOf (setSlot m k v s) n j = slotOf s n j := by
  simp only [slotOf, mbOf, setSlot, setMb, tget_tset]
  by_cases hn : n = m
  · subst hn; simp only [if_true, tget_tset]; rw [if_neg (fun hj => h ⟨rfl, hj⟩)]
  · rw [if_neg hn]

theorem leBytes_length (n x : Nat) : (leBytes n x).length = n := by
  induction n generalizing x with
  | zero => rfl
  | succ n ih => simp [leBytes, ih]

theorem mread_append (m : Mem) (a i n : Nat) : mread m a (i + n) = mread m a i ++ mread m (a + i) n := by
  induction i generalizing a with
  | zero => simp [mread]
  | succ i ih =>
    have : i + 1 + n = (i + n) + 1 := by omega
    rw [this]; simp only [mread, ih, List.cons_append]
    congr 3; omega

theorem mread_length (m : Mem) (a n : Nat) : (mread m a n).length = n := by
  induction n generalizing a with
  | zero => rfl
  | succ n ih => simp [mread, ih]

theorem leNat_leBytes (n x : Nat) : leNat (leBytes n x) = x % 256 ^ n := by
  induction n generalizing x with
  | zero => simp [leBytes, leNat, Nat.mod_one]
  | succ n ih =>
    have h : (BitVec.ofNat 8 x).toNat = x % 256 := by simp
    simp only [leBytes, leNat, ih, h]
    rw [Nat.pow_succ, Nat.mul_comm (256 ^ n) 256, Nat.mod_mul]

theorem cplBytes_length (h : Hdr) (st : Status) (time state : Nat) (res : List Byte) (s : State) :
    (cplBytes h st time state res s).length = 32 := by
  simp [cplBytes, fields, leBytes_length]

theorem Status.code_lt (st : Status) : st.code < 65536 := by cases st <;> decide

theorem status_of_mwrite (m : Mem) (a : Nat) (h : Hdr) (st : Status) (time state : Nat) (res : List Byte) (s : State) :
    leNat (mread (mwrite m a (cplBytes h st time state res s)) (a + 2) 2) = st.code := by
  have h1 := mread_mwrite_self (cplBytes h st time state res s) m a
  rw [cplBytes_length] at h1
  have h0 : mread (mwrite m a (cplBytes h st time state res s)) a (2 + (2 + 28)) = cplBytes h st time state res s := h1
  rw [mread_append, mread_append] at h0
  generalize mwrite m a (cplBytes h st time state res s) = w at h0 ⊢
  simp only [cplBytes, fields, List.map_cons, List.flatten_cons, List.map_nil, List.flatten_nil] at h0
  have h2 := List.append_inj h0 (by rw [mread_length, leBytes_length])
  have h3 := List.append_inj h2.2 (by rw [mread_length, leBytes_length])
  rw [h3.1, leNat_leBytes, Nat.mod_eq_of_lt (by have := st.code_lt; omega)]

/-- The completion of a POSTED slot: result, header, DONE, event (R48). -/
theorem complete_eq {m k : Nat} {st : Status} {time state : Nat} {res : List Byte} {s : State} (hm : m ≠ imageMb)
    (h : slotOf s m k = .posted) : complete m k st time state res s =
      let s1 := if (hdrOf s m k).indResult && res ≠ [] then emit .dma (hdrOf s m k).resAddr res s
        else bar2Write (cplBuf m k + 32) (res.take 992) s
      let s3 := setSlot m k .done (bar2Write (cplBuf m k) (cplBytes (hdrOf s m k) st time state res s) s1)
      if (hdrOf s m k).noEvent then s3 else raise m s3 := by
  unfold complete; rw [if_neg hm, if_neg (fun hn => hn h)]

theorem complete_quiet (m k : Nat) (st : Status) (time state : Nat) (res : List Byte) (s : State) (hm : m ≠ imageMb) :
    Quiet s (complete m k st time state res s) := by
  by_cases h : slotOf s m k = .posted
  · rw [complete_eq hm h]
    extract_lets s1 s3
    have h1 : Quiet s s1 := by
      simp only [s1]; split
      · exact emit_quiet _ _ _ _
      · exact bar2Write_quiet _ _ _
    have h2 : Quiet s s3 := (h1.trans (bar2Write_quiet _ _ _)).trans (setSlot_quiet _ _ _ _)
    clear_value s3
    split
    · exact h2
    · exact h2.trans (raise_quiet _ _)
  · unfold complete; rw [if_neg hm, if_pos h]; exact .refl _

theorem complete_done {m k : Nat} {st : Status} {time state : Nat} {res : List Byte} {s : State} (hm : m ≠ imageMb)
    (h : slotOf s m k = .posted) : slotOf (complete m k st time state res s) m k = .done := by
  rw [complete_eq hm h]
  extract_lets s1 s3
  have h3 : slotOf s3 m k = .done := setSlot_same _ _ _ _
  clear_value s3
  split
  · exact h3
  · rw [raise_slotOf]; exact h3

theorem complete_bar2 {m k : Nat} {st : Status} {time state : Nat} {res : List Byte} {s : State} (hm : m ≠ imageMb)
    (h : slotOf s m k = .posted) : ∃ m0 : Mem, (complete m k st time state res s).host.bar2 =
      mwrite m0 (cplBuf m k) (cplBytes (hdrOf s m k) st time state res s) ∧
      (((hdrOf s m k).indResult && decide (res ≠ [])) = false → m0 = mwrite s.host.bar2 (cplBuf m k + 32) (res.take 992)) := by
  rw [complete_eq hm h]
  extract_lets s1 s3
  refine ⟨s1.host.bar2, ?_, fun hc => ?_⟩
  · have h3 : s3.host.bar2 = mwrite s1.host.bar2 (cplBuf m k) (cplBytes (hdrOf s m k) st time state res s) := rfl
    rw [← h3]; clear_value s3
    split
    · rfl
    · exact raise_bar2 _ _
  · simp only [s1]; rw [if_neg (by rw [hc]; exact Bool.false_ne_true)]; rfl

theorem complete_statusAt {r : CmdRef} {st : Status} {time state : Nat} {res : List Byte} {s : State}
    (h : slotOf s r.mb r.slot = .posted) : statusAt (complete r.mb r.slot st time state res s) r = st.code := by
  obtain ⟨m0, h1, -⟩ := complete_bar2 (st := st) (time := time) (state := state) (res := res) (by have := r.mb.isLt; unfold imageMb; omega : (r.mb : Nat) ≠ imageMb) h
  unfold statusAt; rw [h1]; exact status_of_mwrite _ _ _ _ _ _ _ _

theorem complete_served {r : CmdRef} {s0 : State} {st : Status} {time state : Nat} {res : List Byte} {s : State}
    (h : slotOf s r.mb r.slot = .posted) (hh : hdrOf s0 r.mb r.slot = hdrOf s r.mb r.slot) (hst : st = .ok ∨ st = .okAdjusted) :
    Served r s0 (complete r.mb r.slot st time state res s) res := by
  have hi : (r.mb : Nat) ≠ imageMb := by have := r.mb.isLt; unfold imageMb; omega
  refine ⟨complete_done hi h, ?_, ?_⟩
  · rw [complete_statusAt h]; rcases hst with rfl | rfl <;> decide
  · rw [hh]
    split
    · rename_i hc
      rw [complete_eq hi h]
      extract_lets s1 s3
      have h3 : (⟨.dma, (hdrOf s r.mb r.slot).resAddr, res⟩ : Out) ∈ s3.out := by
        have h1 : (⟨.dma, (hdrOf s r.mb r.slot).resAddr, res⟩ : Out) ∈ s1.out := by
          simp only [s1]; rw [if_pos hc]; exact List.mem_cons_self
        exact h1
      clear_value s3
      split
      · exact h3
      · exact raise_out _ _ _ h3
    · rename_i hc
      obtain ⟨m0, h1, h2⟩ := complete_bar2 (st := st) (time := time) (state := state) (res := res) hi h
      rw [h1, h2 (by simpa using hc)]
      refine Eq.trans (mread_congr (fun x h1 h2 => ?_)) (mread_mwrite_self (res.take 992) s.host.bar2 (cplBuf r.mb r.slot + 32))
      rw [mget_mwrite, if_neg (by rw [cplBytes_length]; omega)]

/-- A command that SUP takes stands in a POSTED slot. -/
theorem supTakes_posted {s : State} {m k : Nat} (h : supTakes s m k = true) : slotOf s m k = .posted := by
  unfold supTakes at h
  simp only [Bool.and_eq_true, decide_eq_true_eq] at h
  exact h.1.1

theorem takeBell_quiet (m k : Nat) (s : State) : Quiet s (takeBell m k s) := setMb_quiet _ _ _
theorem takeBell_slot (m k n j : Nat) (s : State) : slotOf (takeBell m k s) n j = slotOf s n j := by
  simp only [slotOf, mbOf, takeBell, setMb, tget_tset]
  by_cases hn : n = m
  · subst hn; simp
  · rw [if_neg hn]

/-- What an accepted command does, once its act is known to keep the HOST island. -/
theorem accepted_does {i : Instr} {sp : CmdSpec} {r : CmdRef} {s u : State} {res : List Byte} (hex : exec i s = .next (runCmd sp r s))
    (h : Accepted sp r s)
    (hact : ∀ t, Quiet s t → t.admitSeq = s.admitSeq + 1 → t.host = s.host → t.out = s.out →
      ((sp.body (cmdOf sp r s) s).act t).later = false ∧ ((sp.body (cmdOf sp r s) s).act t).status = none ∧
      ((sp.body (cmdOf sp r s) s).act t).res = res ∧ ((sp.body (cmdOf sp r s) s).act t).s.host.mb = s.host.mb ∧ ((sp.body (cmdOf sp r s) s).act t).s.host.bar2 = s.host.bar2 ∧
      Quiet u ((sp.body (cmdOf sp r s) s).act t).s) : Does i r s res u := by
  obtain ⟨⟨hp, ho⟩, hr⟩ := h
  refine ⟨_, hex, ?_⟩
  unfold runCmd
  rw [if_pos (by simp [hp, ho])]
  unfold admitCmd
  have hr' : firstBad (commonBad sp (cmdOf sp r s) (sp.kind (cmdOf sp r s).h (cmdOf sp r s).p s) s ++ (sp.body (cmdOf sp r s) s).bad) = none := hr
  extract_lets k pl s2 s1 a t adj
  simp only [pl, k, hr']
  have hq : Quiet s { s1 with admitSeq := s1.admitSeq + 1 } ∧ s1.admitSeq = s.admitSeq ∧ s1.host = s.host ∧ s1.out = s.out := by
    simp only [s1]; split
    · exact ⟨(count_quiet _ _ _).trans (by constructor <;> rfl), rfl, rfl, rfl⟩
    · exact ⟨by constructor <;> rfl, rfl, rfl, rfl⟩
  obtain ⟨h1, h2, h3, h4, h4', h5⟩ := hact { s1 with admitSeq := s1.admitSeq + 1 } hq.1 (by simp [hq.2.1]) hq.2.2.1 hq.2.2.2
  have e1 : a.later = false := h1
  have e2 : a.status = none := h2
  have e3 : a.res = res := h3
  have e4 : a.s.host.mb = s.host.mb := h4
  have e4' : a.s.host.bar2 = s.host.bar2 := h4'
  have e5 : Quiet u a.s := h5
  clear_value a
  have hpost : slotOf a.s r.mb r.slot = .posted := by unfold slotOf mbOf; rw [e4]; exact supTakes_posted hp
  have hhd : hdrOf s r.mb r.slot = hdrOf a.s r.mb r.slot := by unfold hdrOf; rw [e4']
  rw [if_neg (by simp [e1]), e3, e2]
  have hmb : (cmdOf sp r s).mb = r.mb := rfl
  have hsl : (cmdOf sp r s).slot = r.slot := rfl
  rw [hmb, hsl]
  refine ⟨complete_served hpost hhd ?_, e5.trans (complete_quiet _ _ _ _ _ _ _ (by have := r.mb.isLt; unfold imageMb; omega))⟩
  simp only [Option.getD_none]
  split <;> simp

/-- The same of a command that begins and completes later. -/
theorem accepted_begins {i : Instr} {sp : CmdSpec} {r : CmdRef} {s u : State} (hex : exec i s = .next (runCmd sp r s))
    (h : Accepted sp r s)
    (hact : ∀ t, Quiet s t → t.admitSeq = s.admitSeq + 1 → t.host = s.host → t.out = s.out →
      ((sp.body (cmdOf sp r s) s).act t).later = true ∧ ((sp.body (cmdOf sp r s) s).act t).s.host.mb = s.host.mb ∧ ((sp.body (cmdOf sp r s) s).act t).s.host.bar2 = s.host.bar2 ∧
      Quiet u ((sp.body (cmdOf sp r s) s).act t).s) : Begins i r s u := by
  obtain ⟨⟨hp, ho⟩, hr⟩ := h
  refine ⟨_, hex, ?_⟩
  unfold runCmd
  rw [if_pos (by simp [hp, ho])]
  unfold admitCmd
  have hr' : firstBad (commonBad sp (cmdOf sp r s) (sp.kind (cmdOf sp r s).h (cmdOf sp r s).p s) s ++ (sp.body (cmdOf sp r s) s).bad) = none := hr
  extract_lets k pl s2 s1 a t adj
  simp only [pl, k, hr']
  have hq : Quiet s { s1 with admitSeq := s1.admitSeq + 1 } ∧ s1.admitSeq = s.admitSeq ∧ s1.host = s.host ∧ s1.out = s.out := by
    simp only [s1]; split
    · exact ⟨(count_quiet _ _ _).trans (by constructor <;> rfl), rfl, rfl, rfl⟩
    · exact ⟨by constructor <;> rfl, rfl, rfl, rfl⟩
  obtain ⟨h1, h4, h4', h5⟩ := hact { s1 with admitSeq := s1.admitSeq + 1 } hq.1 (by simp [hq.2.1]) hq.2.2.1 hq.2.2.2
  have e1 : a.later = true := h1
  have e4 : a.s.host.mb = s.host.mb := h4
  have e4' : a.s.host.bar2 = s.host.bar2 := h4'
  have e5 : Quiet u a.s := h5
  clear_value a
  rw [if_pos e1]
  exact ⟨(takeBell_slot _ _ _ _ _).trans (by unfold slotOf mbOf; rw [e4]; exact supTakes_posted hp), e5.trans (takeBell_quiet _ _ _)⟩

/-! Operations of an act give states that agree but for a completion, wherever they start from such states. -/

theorem Quiet.symm {s t : State} (q : Quiet s t) : Quiet t s := by
  obtain ⟨mb, bar2, pba, pend, lost, sent, spokes, occ, out, adm, rfl⟩ := q.eta
  constructor <;> rfl

theorem journalRec_congr (r : JRec) {s t : State} (q : Quiet s t) : Quiet (journalRec r s) (journalRec r t) := by
  obtain ⟨mb, bar2, pba, pend, lost, sent, spokes, occ, out, adm, rfl⟩ := q.eta
  unfold journalRec; dsimp only
  split
  · constructor <;> rfl
  split
  · constructor <;> rfl
  split
  · constructor <;> rfl
  split <;> constructor <;> rfl

theorem journal_congr (src code sev obj aux : Nat) (d : List Byte) {s t : State} (q : Quiet s t) :
    Quiet (journal src code sev obj aux d s) (journal src code sev obj aux d t) := by
  have e : mkRec src code sev obj aux d s = mkRec src code sev obj aux d t := by unfold mkRec; rw [q.time, q.dev]
  unfold journal; rw [e]; exact journalRec_congr _ q

@[simp] theorem journalRec_host (r : JRec) (s : State) : (journalRec r s).host = s.host := by
  unfold journalRec
  split
  · rfl
  split
  · rfl
  split
  · rfl
  split <;> rfl
@[simp] theorem journal_host (src code sev obj aux : Nat) (d : List Byte) (s : State) : (journal src code sev obj aux d s).host = s.host :=
  journalRec_host _ _

theorem raise_congr (e : Nat) {s t : State} (q : Quiet s t) : Quiet (raise e s) (raise e t) :=
  ((raise_quiet e s).symm.trans q).trans (raise_quiet e t)

theorem raiseIf_quiet (b : Bool) (e : Nat) (s : State) : Quiet s (raiseIf b e s) := by
  unfold raiseIf; split
  · exact raise_quiet _ _
  · exact .refl _
theorem raiseIf_congr (b : Bool) (e : Nat) {s t : State} (q : Quiet s t) : Quiet (raiseIf b e s) (raiseIf b e t) :=
  ((raiseIf_quiet b e s).symm.trans q).trans (raiseIf_quiet b e t)
theorem raiseIf_host (b : Bool) (e : Nat) (s : State) : (raiseIf b e s).host.mb = s.host.mb ∧ (raiseIf b e s).host.bar2 = s.host.bar2 := by
  unfold raiseIf; split
  · exact ⟨raise_mb _ _, raise_bar2 _ _⟩
  · exact ⟨rfl, rfl⟩
end Sys2Proof.Machine
end

