-- ==== Sys2Proof/Laws/State.lean ====
section
/-!
SUPPORT. One lemma per operation and field of State that the operation leaves alone, true by unfolding, and one per operation that says what it
leaves. Claims cite these, and need not unfold a record update.
-/
namespace Sys2Proof.Machine

set_option Elab.async false


@[simp] theorem setMb_evt (m : Nat) (b : Mailbox) (s : State) : (setMb m b s).evt = s.evt := rfl
@[simp] theorem setMb_strm (m : Nat) (b : Mailbox) (s : State) : (setMb m b s).strm = s.strm := rfl
@[simp] theorem setMb_time (m : Nat) (b : Mailbox) (s : State) : (setMb m b s).time = s.time := rfl
@[simp] theorem setMb_cad (m : Nat) (b : Mailbox) (s : State) : (setMb m b s).cad = s.cad := rfl
@[simp] theorem setMb_ptp (m : Nat) (b : Mailbox) (s : State) : (setMb m b s).ptp = s.ptp := rfl
@[simp] theorem setMb_dev (m : Nat) (b : Mailbox) (s : State) : (setMb m b s).dev = s.dev := rfl
@[simp] theorem setMb_jrn (m : Nat) (b : Mailbox) (s : State) : (setMb m b s).jrn = s.jrn := rfl
@[simp] theorem setMb_hub (m : Nat) (b : Mailbox) (s : State) : (setMb m b s).hub = s.hub := rfl
@[simp] theorem setMb_xl (m : Nat) (b : Mailbox) (s : State) : (setMb m b s).xl = s.xl := rfl
@[simp] theorem setMb_bus (m : Nat) (b : Mailbox) (s : State) : (setMb m b s).bus = s.bus := rfl
@[simp] theorem setMb_pel (m : Nat) (b : Mailbox) (s : State) : (setMb m b s).pel = s.pel := rfl
@[simp] theorem setMb_axes (m : Nat) (b : Mailbox) (s : State) : (setMb m b s).axes = s.axes := rfl
@[simp] theorem setMb_grps (m : Nat) (b : Mailbox) (s : State) : (setMb m b s).grps = s.grps := rfl
@[simp] theorem setMb_sig (m : Nat) (b : Mailbox) (s : State) : (setMb m b s).sig = s.sig := rfl
@[simp] theorem setMb_sch (m : Nat) (b : Mailbox) (s : State) : (setMb m b s).sch = s.sch := rfl
@[simp] theorem setMb_io (m : Nat) (b : Mailbox) (s : State) : (setMb m b s).io = s.io := rfl
@[simp] theorem setMb_stp (m : Nat) (b : Mailbox) (s : State) : (setMb m b s).stp = s.stp := rfl
@[simp] theorem setMb_qp (m : Nat) (b : Mailbox) (s : State) : (setMb m b s).qp = s.qp := rfl
@[simp] theorem setMb_trc (m : Nat) (b : Mailbox) (s : State) : (setMb m b s).trc = s.trc := rfl
@[simp] theorem setMb_ssm (m : Nat) (b : Mailbox) (s : State) : (setMb m b s).ssm = s.ssm := rfl
@[simp] theorem setMb_eff (m : Nat) (b : Mailbox) (s : State) : (setMb m b s).eff = s.eff := rfl
@[simp] theorem setMb_tilesOut (m : Nat) (b : Mailbox) (s : State) : (setMb m b s).tilesOut = s.tilesOut := rfl
@[simp] theorem setMb_lanesOut (m : Nat) (b : Mailbox) (s : State) : (setMb m b s).lanesOut = s.lanesOut := rfl
@[simp] theorem setMb_out (m : Nat) (b : Mailbox) (s : State) : (setMb m b s).out = s.out := rfl
@[simp] theorem setMb_admitSeq (m : Nat) (b : Mailbox) (s : State) : (setMb m b s).admitSeq = s.admitSeq := rfl
@[simp] theorem setMb_free (m : Nat) (b : Mailbox) (s : State) : (setMb m b s).free = s.free := rfl
@[simp] theorem setMb_pending (m : Nat) (b : Mailbox) (s : State) : (setMb m b s).pending = s.pending := rfl

@[simp] theorem setSlot_evt (m k : Nat) (v : Slot) (s : State) : (setSlot m k v s).evt = s.evt := rfl
@[simp] theorem setSlot_strm (m k : Nat) (v : Slot) (s : State) : (setSlot m k v s).strm = s.strm := rfl
@[simp] theorem setSlot_time (m k : Nat) (v : Slot) (s : State) : (setSlot m k v s).time = s.time := rfl
@[simp] theorem setSlot_cad (m k : Nat) (v : Slot) (s : State) : (setSlot m k v s).cad = s.cad := rfl
@[simp] theorem setSlot_ptp (m k : Nat) (v : Slot) (s : State) : (setSlot m k v s).ptp = s.ptp := rfl
@[simp] theorem setSlot_dev (m k : Nat) (v : Slot) (s : State) : (setSlot m k v s).dev = s.dev := rfl
@[simp] theorem setSlot_jrn (m k : Nat) (v : Slot) (s : State) : (setSlot m k v s).jrn = s.jrn := rfl
@[simp] theorem setSlot_hub (m k : Nat) (v : Slot) (s : State) : (setSlot m k v s).hub = s.hub := rfl
@[simp] theorem setSlot_xl (m k : Nat) (v : Slot) (s : State) : (setSlot m k v s).xl = s.xl := rfl
@[simp] theorem setSlot_bus (m k : Nat) (v : Slot) (s : State) : (setSlot m k v s).bus = s.bus := rfl
@[simp] theorem setSlot_pel (m k : Nat) (v : Slot) (s : State) : (setSlot m k v s).pel = s.pel := rfl
@[simp] theorem setSlot_axes (m k : Nat) (v : Slot) (s : State) : (setSlot m k v s).axes = s.axes := rfl
@[simp] theorem setSlot_grps (m k : Nat) (v : Slot) (s : State) : (setSlot m k v s).grps = s.grps := rfl
@[simp] theorem setSlot_sig (m k : Nat) (v : Slot) (s : State) : (setSlot m k v s).sig = s.sig := rfl
@[simp] theorem setSlot_sch (m k : Nat) (v : Slot) (s : State) : (setSlot m k v s).sch = s.sch := rfl
@[simp] theorem setSlot_io (m k : Nat) (v : Slot) (s : State) : (setSlot m k v s).io = s.io := rfl
@[simp] theorem setSlot_stp (m k : Nat) (v : Slot) (s : State) : (setSlot m k v s).stp = s.stp := rfl
@[simp] theorem setSlot_qp (m k : Nat) (v : Slot) (s : State) : (setSlot m k v s).qp = s.qp := rfl
@[simp] theorem setSlot_trc (m k : Nat) (v : Slot) (s : State) : (setSlot m k v s).trc = s.trc := rfl
@[simp] theorem setSlot_ssm (m k : Nat) (v : Slot) (s : State) : (setSlot m k v s).ssm = s.ssm := rfl
@[simp] theorem setSlot_eff (m k : Nat) (v : Slot) (s : State) : (setSlot m k v s).eff = s.eff := rfl
@[simp] theorem setSlot_tilesOut (m k : Nat) (v : Slot) (s : State) : (setSlot m k v s).tilesOut = s.tilesOut := rfl
@[simp] theorem setSlot_lanesOut (m k : Nat) (v : Slot) (s : State) : (setSlot m k v s).lanesOut = s.lanesOut := rfl
@[simp] theorem setSlot_out (m k : Nat) (v : Slot) (s : State) : (setSlot m k v s).out = s.out := rfl
@[simp] theorem setSlot_admitSeq (m k : Nat) (v : Slot) (s : State) : (setSlot m k v s).admitSeq = s.admitSeq := rfl
@[simp] theorem setSlot_free (m k : Nat) (v : Slot) (s : State) : (setSlot m k v s).free = s.free := rfl
@[simp] theorem setSlot_pending (m k : Nat) (v : Slot) (s : State) : (setSlot m k v s).pending = s.pending := rfl

@[simp] theorem bar2Write_evt (a : Nat) (b : List Byte) (s : State) : (bar2Write a b s).evt = s.evt := rfl
@[simp] theorem bar2Write_strm (a : Nat) (b : List Byte) (s : State) : (bar2Write a b s).strm = s.strm := rfl
@[simp] theorem bar2Write_time (a : Nat) (b : List Byte) (s : State) : (bar2Write a b s).time = s.time := rfl
@[simp] theorem bar2Write_cad (a : Nat) (b : List Byte) (s : State) : (bar2Write a b s).cad = s.cad := rfl
@[simp] theorem bar2Write_ptp (a : Nat) (b : List Byte) (s : State) : (bar2Write a b s).ptp = s.ptp := rfl
@[simp] theorem bar2Write_dev (a : Nat) (b : List Byte) (s : State) : (bar2Write a b s).dev = s.dev := rfl
@[simp] theorem bar2Write_jrn (a : Nat) (b : List Byte) (s : State) : (bar2Write a b s).jrn = s.jrn := rfl
@[simp] theorem bar2Write_hub (a : Nat) (b : List Byte) (s : State) : (bar2Write a b s).hub = s.hub := rfl
@[simp] theorem bar2Write_xl (a : Nat) (b : List Byte) (s : State) : (bar2Write a b s).xl = s.xl := rfl
@[simp] theorem bar2Write_bus (a : Nat) (b : List Byte) (s : State) : (bar2Write a b s).bus = s.bus := rfl
@[simp] theorem bar2Write_pel (a : Nat) (b : List Byte) (s : State) : (bar2Write a b s).pel = s.pel := rfl
@[simp] theorem bar2Write_axes (a : Nat) (b : List Byte) (s : State) : (bar2Write a b s).axes = s.axes := rfl
@[simp] theorem bar2Write_grps (a : Nat) (b : List Byte) (s : State) : (bar2Write a b s).grps = s.grps := rfl
@[simp] theorem bar2Write_sig (a : Nat) (b : List Byte) (s : State) : (bar2Write a b s).sig = s.sig := rfl
@[simp] theorem bar2Write_sch (a : Nat) (b : List Byte) (s : State) : (bar2Write a b s).sch = s.sch := rfl
@[simp] theorem bar2Write_io (a : Nat) (b : List Byte) (s : State) : (bar2Write a b s).io = s.io := rfl
@[simp] theorem bar2Write_stp (a : Nat) (b : List Byte) (s : State) : (bar2Write a b s).stp = s.stp := rfl
@[simp] theorem bar2Write_qp (a : Nat) (b : List Byte) (s : State) : (bar2Write a b s).qp = s.qp := rfl
@[simp] theorem bar2Write_trc (a : Nat) (b : List Byte) (s : State) : (bar2Write a b s).trc = s.trc := rfl
@[simp] theorem bar2Write_ssm (a : Nat) (b : List Byte) (s : State) : (bar2Write a b s).ssm = s.ssm := rfl
@[simp] theorem bar2Write_eff (a : Nat) (b : List Byte) (s : State) : (bar2Write a b s).eff = s.eff := rfl
@[simp] theorem bar2Write_tilesOut (a : Nat) (b : List Byte) (s : State) : (bar2Write a b s).tilesOut = s.tilesOut := rfl
@[simp] theorem bar2Write_lanesOut (a : Nat) (b : List Byte) (s : State) : (bar2Write a b s).lanesOut = s.lanesOut := rfl
@[simp] theorem bar2Write_out (a : Nat) (b : List Byte) (s : State) : (bar2Write a b s).out = s.out := rfl
@[simp] theorem bar2Write_admitSeq (a : Nat) (b : List Byte) (s : State) : (bar2Write a b s).admitSeq = s.admitSeq := rfl
@[simp] theorem bar2Write_free (a : Nat) (b : List Byte) (s : State) : (bar2Write a b s).free = s.free := rfl
@[simp] theorem bar2Write_pending (a : Nat) (b : List Byte) (s : State) : (bar2Write a b s).pending = s.pending := rfl

@[simp] theorem setSpoke_host (i : Nat) (p : Spoke) (s : State) : (setSpoke i p s).host = s.host := rfl
@[simp] theorem setSpoke_evt (i : Nat) (p : Spoke) (s : State) : (setSpoke i p s).evt = s.evt := rfl
@[simp] theorem setSpoke_strm (i : Nat) (p : Spoke) (s : State) : (setSpoke i p s).strm = s.strm := rfl
@[simp] theorem setSpoke_time (i : Nat) (p : Spoke) (s : State) : (setSpoke i p s).time = s.time := rfl
@[simp] theorem setSpoke_cad (i : Nat) (p : Spoke) (s : State) : (setSpoke i p s).cad = s.cad := rfl
@[simp] theorem setSpoke_ptp (i : Nat) (p : Spoke) (s : State) : (setSpoke i p s).ptp = s.ptp := rfl
@[simp] theorem setSpoke_dev (i : Nat) (p : Spoke) (s : State) : (setSpoke i p s).dev = s.dev := rfl
@[simp] theorem setSpoke_jrn (i : Nat) (p : Spoke) (s : State) : (setSpoke i p s).jrn = s.jrn := rfl
@[simp] theorem setSpoke_xl (i : Nat) (p : Spoke) (s : State) : (setSpoke i p s).xl = s.xl := rfl
@[simp] theorem setSpoke_bus (i : Nat) (p : Spoke) (s : State) : (setSpoke i p s).bus = s.bus := rfl
@[simp] theorem setSpoke_pel (i : Nat) (p : Spoke) (s : State) : (setSpoke i p s).pel = s.pel := rfl
@[simp] theorem setSpoke_axes (i : Nat) (p : Spoke) (s : State) : (setSpoke i p s).axes = s.axes := rfl
@[simp] theorem setSpoke_grps (i : Nat) (p : Spoke) (s : State) : (setSpoke i p s).grps = s.grps := rfl
@[simp] theorem setSpoke_sig (i : Nat) (p : Spoke) (s : State) : (setSpoke i p s).sig = s.sig := rfl
@[simp] theorem setSpoke_sch (i : Nat) (p : Spoke) (s : State) : (setSpoke i p s).sch = s.sch := rfl
@[simp] theorem setSpoke_io (i : Nat) (p : Spoke) (s : State) : (setSpoke i p s).io = s.io := rfl
@[simp] theorem setSpoke_stp (i : Nat) (p : Spoke) (s : State) : (setSpoke i p s).stp = s.stp := rfl
@[simp] theorem setSpoke_qp (i : Nat) (p : Spoke) (s : State) : (setSpoke i p s).qp = s.qp := rfl
@[simp] theorem setSpoke_trc (i : Nat) (p : Spoke) (s : State) : (setSpoke i p s).trc = s.trc := rfl
@[simp] theorem setSpoke_ssm (i : Nat) (p : Spoke) (s : State) : (setSpoke i p s).ssm = s.ssm := rfl
@[simp] theorem setSpoke_eff (i : Nat) (p : Spoke) (s : State) : (setSpoke i p s).eff = s.eff := rfl
@[simp] theorem setSpoke_tilesOut (i : Nat) (p : Spoke) (s : State) : (setSpoke i p s).tilesOut = s.tilesOut := rfl
@[simp] theorem setSpoke_lanesOut (i : Nat) (p : Spoke) (s : State) : (setSpoke i p s).lanesOut = s.lanesOut := rfl
@[simp] theorem setSpoke_out (i : Nat) (p : Spoke) (s : State) : (setSpoke i p s).out = s.out := rfl
@[simp] theorem setSpoke_admitSeq (i : Nat) (p : Spoke) (s : State) : (setSpoke i p s).admitSeq = s.admitSeq := rfl
@[simp] theorem setSpoke_free (i : Nat) (p : Spoke) (s : State) : (setSpoke i p s).free = s.free := rfl
@[simp] theorem setSpoke_pending (i : Nat) (p : Spoke) (s : State) : (setSpoke i p s).pending = s.pending := rfl

@[simp] theorem countN_host (i code n : Nat) (s : State) : (countN i code n s).host = s.host := rfl
@[simp] theorem countN_evt (i code n : Nat) (s : State) : (countN i code n s).evt = s.evt := rfl
@[simp] theorem countN_strm (i code n : Nat) (s : State) : (countN i code n s).strm = s.strm := rfl
@[simp] theorem countN_time (i code n : Nat) (s : State) : (countN i code n s).time = s.time := rfl
@[simp] theorem countN_cad (i code n : Nat) (s : State) : (countN i code n s).cad = s.cad := rfl
@[simp] theorem countN_ptp (i code n : Nat) (s : State) : (countN i code n s).ptp = s.ptp := rfl
@[simp] theorem countN_dev (i code n : Nat) (s : State) : (countN i code n s).dev = s.dev := rfl
@[simp] theorem countN_jrn (i code n : Nat) (s : State) : (countN i code n s).jrn = s.jrn := rfl
@[simp] theorem countN_xl (i code n : Nat) (s : State) : (countN i code n s).xl = s.xl := rfl
@[simp] theorem countN_bus (i code n : Nat) (s : State) : (countN i code n s).bus = s.bus := rfl
@[simp] theorem countN_pel (i code n : Nat) (s : State) : (countN i code n s).pel = s.pel := rfl
@[simp] theorem countN_axes (i code n : Nat) (s : State) : (countN i code n s).axes = s.axes := rfl
@[simp] theorem countN_grps (i code n : Nat) (s : State) : (countN i code n s).grps = s.grps := rfl
@[simp] theorem countN_sig (i code n : Nat) (s : State) : (countN i code n s).sig = s.sig := rfl
@[simp] theorem countN_sch (i code n : Nat) (s : State) : (countN i code n s).sch = s.sch := rfl
@[simp] theorem countN_io (i code n : Nat) (s : State) : (countN i code n s).io = s.io := rfl
@[simp] theorem countN_stp (i code n : Nat) (s : State) : (countN i code n s).stp = s.stp := rfl
@[simp] theorem countN_qp (i code n : Nat) (s : State) : (countN i code n s).qp = s.qp := rfl
@[simp] theorem countN_trc (i code n : Nat) (s : State) : (countN i code n s).trc = s.trc := rfl
@[simp] theorem countN_ssm (i code n : Nat) (s : State) : (countN i code n s).ssm = s.ssm := rfl
@[simp] theorem countN_eff (i code n : Nat) (s : State) : (countN i code n s).eff = s.eff := rfl
@[simp] theorem countN_tilesOut (i code n : Nat) (s : State) : (countN i code n s).tilesOut = s.tilesOut := rfl
@[simp] theorem countN_lanesOut (i code n : Nat) (s : State) : (countN i code n s).lanesOut = s.lanesOut := rfl
@[simp] theorem countN_out (i code n : Nat) (s : State) : (countN i code n s).out = s.out := rfl
@[simp] theorem countN_admitSeq (i code n : Nat) (s : State) : (countN i code n s).admitSeq = s.admitSeq := rfl
@[simp] theorem countN_free (i code n : Nat) (s : State) : (countN i code n s).free = s.free := rfl
@[simp] theorem countN_pending (i code n : Nat) (s : State) : (countN i code n s).pending = s.pending := rfl

@[simp] theorem count_host (i code : Nat) (s : State) : (count i code s).host = s.host := rfl
@[simp] theorem count_evt (i code : Nat) (s : State) : (count i code s).evt = s.evt := rfl
@[simp] theorem count_strm (i code : Nat) (s : State) : (count i code s).strm = s.strm := rfl
@[simp] theorem count_time (i code : Nat) (s : State) : (count i code s).time = s.time := rfl
@[simp] theorem count_cad (i code : Nat) (s : State) : (count i code s).cad = s.cad := rfl
@[simp] theorem count_ptp (i code : Nat) (s : State) : (count i code s).ptp = s.ptp := rfl
@[simp] theorem count_dev (i code : Nat) (s : State) : (count i code s).dev = s.dev := rfl
@[simp] theorem count_jrn (i code : Nat) (s : State) : (count i code s).jrn = s.jrn := rfl
@[simp] theorem count_xl (i code : Nat) (s : State) : (count i code s).xl = s.xl := rfl
@[simp] theorem count_bus (i code : Nat) (s : State) : (count i code s).bus = s.bus := rfl
@[simp] theorem count_pel (i code : Nat) (s : State) : (count i code s).pel = s.pel := rfl
@[simp] theorem count_axes (i code : Nat) (s : State) : (count i code s).axes = s.axes := rfl
@[simp] theorem count_grps (i code : Nat) (s : State) : (count i code s).grps = s.grps := rfl
@[simp] theorem count_sig (i code : Nat) (s : State) : (count i code s).sig = s.sig := rfl
@[simp] theorem count_sch (i code : Nat) (s : State) : (count i code s).sch = s.sch := rfl
@[simp] theorem count_io (i code : Nat) (s : State) : (count i code s).io = s.io := rfl
@[simp] theorem count_stp (i code : Nat) (s : State) : (count i code s).stp = s.stp := rfl
@[simp] theorem count_qp (i code : Nat) (s : State) : (count i code s).qp = s.qp := rfl
@[simp] theorem count_trc (i code : Nat) (s : State) : (count i code s).trc = s.trc := rfl
@[simp] theorem count_ssm (i code : Nat) (s : State) : (count i code s).ssm = s.ssm := rfl
@[simp] theorem count_eff (i code : Nat) (s : State) : (count i code s).eff = s.eff := rfl
@[simp] theorem count_tilesOut (i code : Nat) (s : State) : (count i code s).tilesOut = s.tilesOut := rfl
@[simp] theorem count_lanesOut (i code : Nat) (s : State) : (count i code s).lanesOut = s.lanesOut := rfl
@[simp] theorem count_out (i code : Nat) (s : State) : (count i code s).out = s.out := rfl
@[simp] theorem count_admitSeq (i code : Nat) (s : State) : (count i code s).admitSeq = s.admitSeq := rfl
@[simp] theorem count_free (i code : Nat) (s : State) : (count i code s).free = s.free := rfl
@[simp] theorem count_pending (i code : Nat) (s : State) : (count i code s).pending = s.pending := rfl

@[simp] theorem emit_host (k : OutKind) (u : Nat) (b : List Byte) (s : State) : (emit k u b s).host = s.host := rfl
@[simp] theorem emit_evt (k : OutKind) (u : Nat) (b : List Byte) (s : State) : (emit k u b s).evt = s.evt := rfl
@[simp] theorem emit_strm (k : OutKind) (u : Nat) (b : List Byte) (s : State) : (emit k u b s).strm = s.strm := rfl
@[simp] theorem emit_time (k : OutKind) (u : Nat) (b : List Byte) (s : State) : (emit k u b s).time = s.time := rfl
@[simp] theorem emit_cad (k : OutKind) (u : Nat) (b : List Byte) (s : State) : (emit k u b s).cad = s.cad := rfl
@[simp] theorem emit_ptp (k : OutKind) (u : Nat) (b : List Byte) (s : State) : (emit k u b s).ptp = s.ptp := rfl
@[simp] theorem emit_dev (k : OutKind) (u : Nat) (b : List Byte) (s : State) : (emit k u b s).dev = s.dev := rfl
@[simp] theorem emit_jrn (k : OutKind) (u : Nat) (b : List Byte) (s : State) : (emit k u b s).jrn = s.jrn := rfl
@[simp] theorem emit_hub (k : OutKind) (u : Nat) (b : List Byte) (s : State) : (emit k u b s).hub = s.hub := rfl
@[simp] theorem emit_xl (k : OutKind) (u : Nat) (b : List Byte) (s : State) : (emit k u b s).xl = s.xl := rfl
@[simp] theorem emit_bus (k : OutKind) (u : Nat) (b : List Byte) (s : State) : (emit k u b s).bus = s.bus := rfl
@[simp] theorem emit_pel (k : OutKind) (u : Nat) (b : List Byte) (s : State) : (emit k u b s).pel = s.pel := rfl
@[simp] theorem emit_axes (k : OutKind) (u : Nat) (b : List Byte) (s : State) : (emit k u b s).axes = s.axes := rfl
@[simp] theorem emit_grps (k : OutKind) (u : Nat) (b : List Byte) (s : State) : (emit k u b s).grps = s.grps := rfl
@[simp] theorem emit_sig (k : OutKind) (u : Nat) (b : List Byte) (s : State) : (emit k u b s).sig = s.sig := rfl
@[simp] theorem emit_sch (k : OutKind) (u : Nat) (b : List Byte) (s : State) : (emit k u b s).sch = s.sch := rfl
@[simp] theorem emit_io (k : OutKind) (u : Nat) (b : List Byte) (s : State) : (emit k u b s).io = s.io := rfl
@[simp] theorem emit_stp (k : OutKind) (u : Nat) (b : List Byte) (s : State) : (emit k u b s).stp = s.stp := rfl
@[simp] theorem emit_qp (k : OutKind) (u : Nat) (b : List Byte) (s : State) : (emit k u b s).qp = s.qp := rfl
@[simp] theorem emit_trc (k : OutKind) (u : Nat) (b : List Byte) (s : State) : (emit k u b s).trc = s.trc := rfl
@[simp] theorem emit_ssm (k : OutKind) (u : Nat) (b : List Byte) (s : State) : (emit k u b s).ssm = s.ssm := rfl
@[simp] theorem emit_eff (k : OutKind) (u : Nat) (b : List Byte) (s : State) : (emit k u b s).eff = s.eff := rfl
@[simp] theorem emit_tilesOut (k : OutKind) (u : Nat) (b : List Byte) (s : State) : (emit k u b s).tilesOut = s.tilesOut := rfl
@[simp] theorem emit_lanesOut (k : OutKind) (u : Nat) (b : List Byte) (s : State) : (emit k u b s).lanesOut = s.lanesOut := rfl
@[simp] theorem emit_admitSeq (k : OutKind) (u : Nat) (b : List Byte) (s : State) : (emit k u b s).admitSeq = s.admitSeq := rfl
@[simp] theorem emit_free (k : OutKind) (u : Nat) (b : List Byte) (s : State) : (emit k u b s).free = s.free := rfl
@[simp] theorem emit_pending (k : OutKind) (u : Nat) (b : List Byte) (s : State) : (emit k u b s).pending = s.pending := rfl

@[simp] theorem freeNext_host (s : State) : (freeNext s).host = s.host := rfl
@[simp] theorem freeNext_evt (s : State) : (freeNext s).evt = s.evt := rfl
@[simp] theorem freeNext_strm (s : State) : (freeNext s).strm = s.strm := rfl
@[simp] theorem freeNext_time (s : State) : (freeNext s).time = s.time := rfl
@[simp] theorem freeNext_cad (s : State) : (freeNext s).cad = s.cad := rfl
@[simp] theorem freeNext_ptp (s : State) : (freeNext s).ptp = s.ptp := rfl
@[simp] theorem freeNext_dev (s : State) : (freeNext s).dev = s.dev := rfl
@[simp] theorem freeNext_jrn (s : State) : (freeNext s).jrn = s.jrn := rfl
@[simp] theorem freeNext_hub (s : State) : (freeNext s).hub = s.hub := rfl
@[simp] theorem freeNext_xl (s : State) : (freeNext s).xl = s.xl := rfl
@[simp] theorem freeNext_bus (s : State) : (freeNext s).bus = s.bus := rfl
@[simp] theorem freeNext_pel (s : State) : (freeNext s).pel = s.pel := rfl
@[simp] theorem freeNext_axes (s : State) : (freeNext s).axes = s.axes := rfl
@[simp] theorem freeNext_grps (s : State) : (freeNext s).grps = s.grps := rfl
@[simp] theorem freeNext_sig (s : State) : (freeNext s).sig = s.sig := rfl
@[simp] theorem freeNext_sch (s : State) : (freeNext s).sch = s.sch := rfl
@[simp] theorem freeNext_io (s : State) : (freeNext s).io = s.io := rfl
@[simp] theorem freeNext_stp (s : State) : (freeNext s).stp = s.stp := rfl
@[simp] theorem freeNext_qp (s : State) : (freeNext s).qp = s.qp := rfl
@[simp] theorem freeNext_trc (s : State) : (freeNext s).trc = s.trc := rfl
@[simp] theorem freeNext_ssm (s : State) : (freeNext s).ssm = s.ssm := rfl
@[simp] theorem freeNext_eff (s : State) : (freeNext s).eff = s.eff := rfl
@[simp] theorem freeNext_tilesOut (s : State) : (freeNext s).tilesOut = s.tilesOut := rfl
@[simp] theorem freeNext_lanesOut (s : State) : (freeNext s).lanesOut = s.lanesOut := rfl
@[simp] theorem freeNext_out (s : State) : (freeNext s).out = s.out := rfl
@[simp] theorem freeNext_admitSeq (s : State) : (freeNext s).admitSeq = s.admitSeq := rfl
@[simp] theorem freeNext_pending (s : State) : (freeNext s).pending = s.pending := rfl

@[simp] theorem dropRecord_host (s : State) : (dropRecord s).host = s.host := rfl
@[simp] theorem dropRecord_evt (s : State) : (dropRecord s).evt = s.evt := rfl
@[simp] theorem dropRecord_strm (s : State) : (dropRecord s).strm = s.strm := rfl
@[simp] theorem dropRecord_time (s : State) : (dropRecord s).time = s.time := rfl
@[simp] theorem dropRecord_cad (s : State) : (dropRecord s).cad = s.cad := rfl
@[simp] theorem dropRecord_ptp (s : State) : (dropRecord s).ptp = s.ptp := rfl
@[simp] theorem dropRecord_dev (s : State) : (dropRecord s).dev = s.dev := rfl
@[simp] theorem dropRecord_hub (s : State) : (dropRecord s).hub = s.hub := rfl
@[simp] theorem dropRecord_xl (s : State) : (dropRecord s).xl = s.xl := rfl
@[simp] theorem dropRecord_bus (s : State) : (dropRecord s).bus = s.bus := rfl
@[simp] theorem dropRecord_pel (s : State) : (dropRecord s).pel = s.pel := rfl
@[simp] theorem dropRecord_axes (s : State) : (dropRecord s).axes = s.axes := rfl
@[simp] theorem dropRecord_grps (s : State) : (dropRecord s).grps = s.grps := rfl
@[simp] theorem dropRecord_sig (s : State) : (dropRecord s).sig = s.sig := rfl
@[simp] theorem dropRecord_sch (s : State) : (dropRecord s).sch = s.sch := rfl
@[simp] theorem dropRecord_io (s : State) : (dropRecord s).io = s.io := rfl
@[simp] theorem dropRecord_stp (s : State) : (dropRecord s).stp = s.stp := rfl
@[simp] theorem dropRecord_qp (s : State) : (dropRecord s).qp = s.qp := rfl
@[simp] theorem dropRecord_trc (s : State) : (dropRecord s).trc = s.trc := rfl
@[simp] theorem dropRecord_ssm (s : State) : (dropRecord s).ssm = s.ssm := rfl
@[simp] theorem dropRecord_eff (s : State) : (dropRecord s).eff = s.eff := rfl
@[simp] theorem dropRecord_tilesOut (s : State) : (dropRecord s).tilesOut = s.tilesOut := rfl
@[simp] theorem dropRecord_lanesOut (s : State) : (dropRecord s).lanesOut = s.lanesOut := rfl
@[simp] theorem dropRecord_out (s : State) : (dropRecord s).out = s.out := rfl
@[simp] theorem dropRecord_admitSeq (s : State) : (dropRecord s).admitSeq = s.admitSeq := rfl
@[simp] theorem dropRecord_free (s : State) : (dropRecord s).free = s.free := rfl
@[simp] theorem dropRecord_pending (s : State) : (dropRecord s).pending = s.pending := rfl

@[simp] theorem journalF_host (src code sev obj aux : Nat) (detail : List Byte) (s : State) : (journalF src code sev obj aux detail s).host = s.host := rfl
@[simp] theorem journalF_evt (src code sev obj aux : Nat) (detail : List Byte) (s : State) : (journalF src code sev obj aux detail s).evt = s.evt := rfl
@[simp] theorem journalF_strm (src code sev obj aux : Nat) (detail : List Byte) (s : State) : (journalF src code sev obj aux detail s).strm = s.strm := rfl
@[simp] theorem journalF_time (src code sev obj aux : Nat) (detail : List Byte) (s : State) : (journalF src code sev obj aux detail s).time = s.time := rfl
@[simp] theorem journalF_cad (src code sev obj aux : Nat) (detail : List Byte) (s : State) : (journalF src code sev obj aux detail s).cad = s.cad := rfl
@[simp] theorem journalF_ptp (src code sev obj aux : Nat) (detail : List Byte) (s : State) : (journalF src code sev obj aux detail s).ptp = s.ptp := rfl
@[simp] theorem journalF_dev (src code sev obj aux : Nat) (detail : List Byte) (s : State) : (journalF src code sev obj aux detail s).dev = s.dev := rfl
@[simp] theorem journalF_hub (src code sev obj aux : Nat) (detail : List Byte) (s : State) : (journalF src code sev obj aux detail s).hub = s.hub := rfl
@[simp] theorem journalF_xl (src code sev obj aux : Nat) (detail : List Byte) (s : State) : (journalF src code sev obj aux detail s).xl = s.xl := rfl
@[simp] theorem journalF_bus (src code sev obj aux : Nat) (detail : List Byte) (s : State) : (journalF src code sev obj aux detail s).bus = s.bus := rfl
@[simp] theorem journalF_pel (src code sev obj aux : Nat) (detail : List Byte) (s : State) : (journalF src code sev obj aux detail s).pel = s.pel := rfl
@[simp] theorem journalF_axes (src code sev obj aux : Nat) (detail : List Byte) (s : State) : (journalF src code sev obj aux detail s).axes = s.axes := rfl
@[simp] theorem journalF_grps (src code sev obj aux : Nat) (detail : List Byte) (s : State) : (journalF src code sev obj aux detail s).grps = s.grps := rfl
@[simp] theorem journalF_sig (src code sev obj aux : Nat) (detail : List Byte) (s : State) : (journalF src code sev obj aux detail s).sig = s.sig := rfl
@[simp] theorem journalF_sch (src code sev obj aux : Nat) (detail : List Byte) (s : State) : (journalF src code sev obj aux detail s).sch = s.sch := rfl
@[simp] theorem journalF_io (src code sev obj aux : Nat) (detail : List Byte) (s : State) : (journalF src code sev obj aux detail s).io = s.io := rfl
@[simp] theorem journalF_stp (src code sev obj aux : Nat) (detail : List Byte) (s : State) : (journalF src code sev obj aux detail s).stp = s.stp := rfl
@[simp] theorem journalF_qp (src code sev obj aux : Nat) (detail : List Byte) (s : State) : (journalF src code sev obj aux detail s).qp = s.qp := rfl
@[simp] theorem journalF_trc (src code sev obj aux : Nat) (detail : List Byte) (s : State) : (journalF src code sev obj aux detail s).trc = s.trc := rfl
@[simp] theorem journalF_ssm (src code sev obj aux : Nat) (detail : List Byte) (s : State) : (journalF src code sev obj aux detail s).ssm = s.ssm := rfl
@[simp] theorem journalF_eff (src code sev obj aux : Nat) (detail : List Byte) (s : State) : (journalF src code sev obj aux detail s).eff = s.eff := rfl
@[simp] theorem journalF_tilesOut (src code sev obj aux : Nat) (detail : List Byte) (s : State) : (journalF src code sev obj aux detail s).tilesOut = s.tilesOut := rfl
@[simp] theorem journalF_lanesOut (src code sev obj aux : Nat) (detail : List Byte) (s : State) : (journalF src code sev obj aux detail s).lanesOut = s.lanesOut := rfl
@[simp] theorem journalF_out (src code sev obj aux : Nat) (detail : List Byte) (s : State) : (journalF src code sev obj aux detail s).out = s.out := rfl
@[simp] theorem journalF_admitSeq (src code sev obj aux : Nat) (detail : List Byte) (s : State) : (journalF src code sev obj aux detail s).admitSeq = s.admitSeq := rfl
@[simp] theorem journalF_free (src code sev obj aux : Nat) (detail : List Byte) (s : State) : (journalF src code sev obj aux detail s).free = s.free := rfl
@[simp] theorem journalF_pending (src code sev obj aux : Nat) (detail : List Byte) (s : State) : (journalF src code sev obj aux detail s).pending = s.pending := rfl

@[simp] theorem advanceTo_host (t : Nat) (s : State) : (advanceTo t s).host = s.host := by unfold advanceTo; split <;> rfl
@[simp] theorem advanceTo_evt (t : Nat) (s : State) : (advanceTo t s).evt = s.evt := by unfold advanceTo; split <;> rfl
@[simp] theorem advanceTo_strm (t : Nat) (s : State) : (advanceTo t s).strm = s.strm := by unfold advanceTo; split <;> rfl
@[simp] theorem advanceTo_cad (t : Nat) (s : State) : (advanceTo t s).cad = s.cad := by unfold advanceTo; split <;> rfl
@[simp] theorem advanceTo_ptp (t : Nat) (s : State) : (advanceTo t s).ptp = s.ptp := by unfold advanceTo; split <;> rfl
@[simp] theorem advanceTo_dev (t : Nat) (s : State) : (advanceTo t s).dev = s.dev := by unfold advanceTo; split <;> rfl
@[simp] theorem advanceTo_jrn (t : Nat) (s : State) : (advanceTo t s).jrn = s.jrn := by unfold advanceTo; split <;> rfl
@[simp] theorem advanceTo_hub (t : Nat) (s : State) : (advanceTo t s).hub = s.hub := by unfold advanceTo; split <;> rfl
@[simp] theorem advanceTo_xl (t : Nat) (s : State) : (advanceTo t s).xl = s.xl := by unfold advanceTo; split <;> rfl
@[simp] theorem advanceTo_bus (t : Nat) (s : State) : (advanceTo t s).bus = s.bus := by unfold advanceTo; split <;> rfl
@[simp] theorem advanceTo_pel (t : Nat) (s : State) : (advanceTo t s).pel = s.pel := by unfold advanceTo; split <;> rfl
@[simp] theorem advanceTo_axes (t : Nat) (s : State) : (advanceTo t s).axes = s.axes := by unfold advanceTo; split <;> rfl
@[simp] theorem advanceTo_grps (t : Nat) (s : State) : (advanceTo t s).grps = s.grps := by unfold advanceTo; split <;> rfl
@[simp] theorem advanceTo_sig (t : Nat) (s : State) : (advanceTo t s).sig = s.sig := by unfold advanceTo; split <;> rfl
@[simp] theorem advanceTo_sch (t : Nat) (s : State) : (advanceTo t s).sch = s.sch := by unfold advanceTo; split <;> rfl
@[simp] theorem advanceTo_io (t : Nat) (s : State) : (advanceTo t s).io = s.io := by unfold advanceTo; split <;> rfl
@[simp] theorem advanceTo_stp (t : Nat) (s : State) : (advanceTo t s).stp = s.stp := by unfold advanceTo; split <;> rfl
@[simp] theorem advanceTo_qp (t : Nat) (s : State) : (advanceTo t s).qp = s.qp := by unfold advanceTo; split <;> rfl
@[simp] theorem advanceTo_trc (t : Nat) (s : State) : (advanceTo t s).trc = s.trc := by unfold advanceTo; split <;> rfl
@[simp] theorem advanceTo_ssm (t : Nat) (s : State) : (advanceTo t s).ssm = s.ssm := by unfold advanceTo; split <;> rfl
@[simp] theorem advanceTo_eff (t : Nat) (s : State) : (advanceTo t s).eff = s.eff := by unfold advanceTo; split <;> rfl
@[simp] theorem advanceTo_tilesOut (t : Nat) (s : State) : (advanceTo t s).tilesOut = s.tilesOut := by unfold advanceTo; split <;> rfl
@[simp] theorem advanceTo_lanesOut (t : Nat) (s : State) : (advanceTo t s).lanesOut = s.lanesOut := by unfold advanceTo; split <;> rfl
@[simp] theorem advanceTo_out (t : Nat) (s : State) : (advanceTo t s).out = s.out := by unfold advanceTo; split <;> rfl
@[simp] theorem advanceTo_admitSeq (t : Nat) (s : State) : (advanceTo t s).admitSeq = s.admitSeq := by unfold advanceTo; split <;> rfl
@[simp] theorem advanceTo_free (t : Nat) (s : State) : (advanceTo t s).free = s.free := by unfold advanceTo; split <;> rfl
@[simp] theorem advanceTo_pending (t : Nat) (s : State) : (advanceTo t s).pending = s.pending := by unfold advanceTo; split <;> rfl

@[simp] theorem setAxis_host (a : Nat) (x : AxisSt) (s : State) : (setAxis a x s).host = s.host := rfl
@[simp] theorem setAxis_evt (a : Nat) (x : AxisSt) (s : State) : (setAxis a x s).evt = s.evt := rfl
@[simp] theorem setAxis_strm (a : Nat) (x : AxisSt) (s : State) : (setAxis a x s).strm = s.strm := rfl
@[simp] theorem setAxis_time (a : Nat) (x : AxisSt) (s : State) : (setAxis a x s).time = s.time := rfl
@[simp] theorem setAxis_cad (a : Nat) (x : AxisSt) (s : State) : (setAxis a x s).cad = s.cad := rfl
@[simp] theorem setAxis_ptp (a : Nat) (x : AxisSt) (s : State) : (setAxis a x s).ptp = s.ptp := rfl
@[simp] theorem setAxis_dev (a : Nat) (x : AxisSt) (s : State) : (setAxis a x s).dev = s.dev := rfl
@[simp] theorem setAxis_jrn (a : Nat) (x : AxisSt) (s : State) : (setAxis a x s).jrn = s.jrn := rfl
@[simp] theorem setAxis_hub (a : Nat) (x : AxisSt) (s : State) : (setAxis a x s).hub = s.hub := rfl
@[simp] theorem setAxis_xl (a : Nat) (x : AxisSt) (s : State) : (setAxis a x s).xl = s.xl := rfl
@[simp] theorem setAxis_bus (a : Nat) (x : AxisSt) (s : State) : (setAxis a x s).bus = s.bus := rfl
@[simp] theorem setAxis_pel (a : Nat) (x : AxisSt) (s : State) : (setAxis a x s).pel = s.pel := rfl
@[simp] theorem setAxis_grps (a : Nat) (x : AxisSt) (s : State) : (setAxis a x s).grps = s.grps := rfl
@[simp] theorem setAxis_sig (a : Nat) (x : AxisSt) (s : State) : (setAxis a x s).sig = s.sig := rfl
@[simp] theorem setAxis_sch (a : Nat) (x : AxisSt) (s : State) : (setAxis a x s).sch = s.sch := rfl
@[simp] theorem setAxis_io (a : Nat) (x : AxisSt) (s : State) : (setAxis a x s).io = s.io := rfl
@[simp] theorem setAxis_stp (a : Nat) (x : AxisSt) (s : State) : (setAxis a x s).stp = s.stp := rfl
@[simp] theorem setAxis_qp (a : Nat) (x : AxisSt) (s : State) : (setAxis a x s).qp = s.qp := rfl
@[simp] theorem setAxis_trc (a : Nat) (x : AxisSt) (s : State) : (setAxis a x s).trc = s.trc := rfl
@[simp] theorem setAxis_ssm (a : Nat) (x : AxisSt) (s : State) : (setAxis a x s).ssm = s.ssm := rfl
@[simp] theorem setAxis_eff (a : Nat) (x : AxisSt) (s : State) : (setAxis a x s).eff = s.eff := rfl
@[simp] theorem setAxis_tilesOut (a : Nat) (x : AxisSt) (s : State) : (setAxis a x s).tilesOut = s.tilesOut := rfl
@[simp] theorem setAxis_lanesOut (a : Nat) (x : AxisSt) (s : State) : (setAxis a x s).lanesOut = s.lanesOut := rfl
@[simp] theorem setAxis_out (a : Nat) (x : AxisSt) (s : State) : (setAxis a x s).out = s.out := rfl
@[simp] theorem setAxis_admitSeq (a : Nat) (x : AxisSt) (s : State) : (setAxis a x s).admitSeq = s.admitSeq := rfl
@[simp] theorem setAxis_free (a : Nat) (x : AxisSt) (s : State) : (setAxis a x s).free = s.free := rfl
@[simp] theorem setAxis_pending (a : Nat) (x : AxisSt) (s : State) : (setAxis a x s).pending = s.pending := rfl

@[simp] theorem modAxis_host (a : Nat) (f : AxisSt → AxisSt) (s : State) : (modAxis a f s).host = s.host := rfl
@[simp] theorem modAxis_evt (a : Nat) (f : AxisSt → AxisSt) (s : State) : (modAxis a f s).evt = s.evt := rfl
@[simp] theorem modAxis_strm (a : Nat) (f : AxisSt → AxisSt) (s : State) : (modAxis a f s).strm = s.strm := rfl
@[simp] theorem modAxis_time (a : Nat) (f : AxisSt → AxisSt) (s : State) : (modAxis a f s).time = s.time := rfl
@[simp] theorem modAxis_cad (a : Nat) (f : AxisSt → AxisSt) (s : State) : (modAxis a f s).cad = s.cad := rfl
@[simp] theorem modAxis_ptp (a : Nat) (f : AxisSt → AxisSt) (s : State) : (modAxis a f s).ptp = s.ptp := rfl
@[simp] theorem modAxis_dev (a : Nat) (f : AxisSt → AxisSt) (s : State) : (modAxis a f s).dev = s.dev := rfl
@[simp] theorem modAxis_jrn (a : Nat) (f : AxisSt → AxisSt) (s : State) : (modAxis a f s).jrn = s.jrn := rfl
@[simp] theorem modAxis_hub (a : Nat) (f : AxisSt → AxisSt) (s : State) : (modAxis a f s).hub = s.hub := rfl
@[simp] theorem modAxis_xl (a : Nat) (f : AxisSt → AxisSt) (s : State) : (modAxis a f s).xl = s.xl := rfl
@[simp] theorem modAxis_bus (a : Nat) (f : AxisSt → AxisSt) (s : State) : (modAxis a f s).bus = s.bus := rfl
@[simp] theorem modAxis_pel (a : Nat) (f : AxisSt → AxisSt) (s : State) : (modAxis a f s).pel = s.pel := rfl
@[simp] theorem modAxis_grps (a : Nat) (f : AxisSt → AxisSt) (s : State) : (modAxis a f s).grps = s.grps := rfl
@[simp] theorem modAxis_sig (a : Nat) (f : AxisSt → AxisSt) (s : State) : (modAxis a f s).sig = s.sig := rfl
@[simp] theorem modAxis_sch (a : Nat) (f : AxisSt → AxisSt) (s : State) : (modAxis a f s).sch = s.sch := rfl
@[simp] theorem modAxis_io (a : Nat) (f : AxisSt → AxisSt) (s : State) : (modAxis a f s).io = s.io := rfl
@[simp] theorem modAxis_stp (a : Nat) (f : AxisSt → AxisSt) (s : State) : (modAxis a f s).stp = s.stp := rfl
@[simp] theorem modAxis_qp (a : Nat) (f : AxisSt → AxisSt) (s : State) : (modAxis a f s).qp = s.qp := rfl
@[simp] theorem modAxis_trc (a : Nat) (f : AxisSt → AxisSt) (s : State) : (modAxis a f s).trc = s.trc := rfl
@[simp] theorem modAxis_ssm (a : Nat) (f : AxisSt → AxisSt) (s : State) : (modAxis a f s).ssm = s.ssm := rfl
@[simp] theorem modAxis_eff (a : Nat) (f : AxisSt → AxisSt) (s : State) : (modAxis a f s).eff = s.eff := rfl
@[simp] theorem modAxis_tilesOut (a : Nat) (f : AxisSt → AxisSt) (s : State) : (modAxis a f s).tilesOut = s.tilesOut := rfl
@[simp] theorem modAxis_lanesOut (a : Nat) (f : AxisSt → AxisSt) (s : State) : (modAxis a f s).lanesOut = s.lanesOut := rfl
@[simp] theorem modAxis_out (a : Nat) (f : AxisSt → AxisSt) (s : State) : (modAxis a f s).out = s.out := rfl
@[simp] theorem modAxis_admitSeq (a : Nat) (f : AxisSt → AxisSt) (s : State) : (modAxis a f s).admitSeq = s.admitSeq := rfl
@[simp] theorem modAxis_free (a : Nat) (f : AxisSt → AxisSt) (s : State) : (modAxis a f s).free = s.free := rfl
@[simp] theorem modAxis_pending (a : Nat) (f : AxisSt → AxisSt) (s : State) : (modAxis a f s).pending = s.pending := rfl

@[simp] theorem setGrp_host (g : Nat) (x : GroupSt) (s : State) : (setGrp g x s).host = s.host := rfl
@[simp] theorem setGrp_evt (g : Nat) (x : GroupSt) (s : State) : (setGrp g x s).evt = s.evt := rfl
@[simp] theorem setGrp_strm (g : Nat) (x : GroupSt) (s : State) : (setGrp g x s).strm = s.strm := rfl
@[simp] theorem setGrp_time (g : Nat) (x : GroupSt) (s : State) : (setGrp g x s).time = s.time := rfl
@[simp] theorem setGrp_cad (g : Nat) (x : GroupSt) (s : State) : (setGrp g x s).cad = s.cad := rfl
@[simp] theorem setGrp_ptp (g : Nat) (x : GroupSt) (s : State) : (setGrp g x s).ptp = s.ptp := rfl
@[simp] theorem setGrp_dev (g : Nat) (x : GroupSt) (s : State) : (setGrp g x s).dev = s.dev := rfl
@[simp] theorem setGrp_jrn (g : Nat) (x : GroupSt) (s : State) : (setGrp g x s).jrn = s.jrn := rfl
@[simp] theorem setGrp_hub (g : Nat) (x : GroupSt) (s : State) : (setGrp g x s).hub = s.hub := rfl
@[simp] theorem setGrp_xl (g : Nat) (x : GroupSt) (s : State) : (setGrp g x s).xl = s.xl := rfl
@[simp] theorem setGrp_bus (g : Nat) (x : GroupSt) (s : State) : (setGrp g x s).bus = s.bus := rfl
@[simp] theorem setGrp_pel (g : Nat) (x : GroupSt) (s : State) : (setGrp g x s).pel = s.pel := rfl
@[simp] theorem setGrp_axes (g : Nat) (x : GroupSt) (s : State) : (setGrp g x s).axes = s.axes := rfl
@[simp] theorem setGrp_sig (g : Nat) (x : GroupSt) (s : State) : (setGrp g x s).sig = s.sig := rfl
@[simp] theorem setGrp_sch (g : Nat) (x : GroupSt) (s : State) : (setGrp g x s).sch = s.sch := rfl
@[simp] theorem setGrp_io (g : Nat) (x : GroupSt) (s : State) : (setGrp g x s).io = s.io := rfl
@[simp] theorem setGrp_stp (g : Nat) (x : GroupSt) (s : State) : (setGrp g x s).stp = s.stp := rfl
@[simp] theorem setGrp_qp (g : Nat) (x : GroupSt) (s : State) : (setGrp g x s).qp = s.qp := rfl
@[simp] theorem setGrp_trc (g : Nat) (x : GroupSt) (s : State) : (setGrp g x s).trc = s.trc := rfl
@[simp] theorem setGrp_ssm (g : Nat) (x : GroupSt) (s : State) : (setGrp g x s).ssm = s.ssm := rfl
@[simp] theorem setGrp_eff (g : Nat) (x : GroupSt) (s : State) : (setGrp g x s).eff = s.eff := rfl
@[simp] theorem setGrp_tilesOut (g : Nat) (x : GroupSt) (s : State) : (setGrp g x s).tilesOut = s.tilesOut := rfl
@[simp] theorem setGrp_lanesOut (g : Nat) (x : GroupSt) (s : State) : (setGrp g x s).lanesOut = s.lanesOut := rfl
@[simp] theorem setGrp_out (g : Nat) (x : GroupSt) (s : State) : (setGrp g x s).out = s.out := rfl
@[simp] theorem setGrp_admitSeq (g : Nat) (x : GroupSt) (s : State) : (setGrp g x s).admitSeq = s.admitSeq := rfl
@[simp] theorem setGrp_free (g : Nat) (x : GroupSt) (s : State) : (setGrp g x s).free = s.free := rfl
@[simp] theorem setGrp_pending (g : Nat) (x : GroupSt) (s : State) : (setGrp g x s).pending = s.pending := rfl

@[simp] theorem modGrp_host (g : Nat) (f : GroupSt → GroupSt) (s : State) : (modGrp g f s).host = s.host := rfl
@[simp] theorem modGrp_evt (g : Nat) (f : GroupSt → GroupSt) (s : State) : (modGrp g f s).evt = s.evt := rfl
@[simp] theorem modGrp_strm (g : Nat) (f : GroupSt → GroupSt) (s : State) : (modGrp g f s).strm = s.strm := rfl
@[simp] theorem modGrp_time (g : Nat) (f : GroupSt → GroupSt) (s : State) : (modGrp g f s).time = s.time := rfl
@[simp] theorem modGrp_cad (g : Nat) (f : GroupSt → GroupSt) (s : State) : (modGrp g f s).cad = s.cad := rfl
@[simp] theorem modGrp_ptp (g : Nat) (f : GroupSt → GroupSt) (s : State) : (modGrp g f s).ptp = s.ptp := rfl
@[simp] theorem modGrp_dev (g : Nat) (f : GroupSt → GroupSt) (s : State) : (modGrp g f s).dev = s.dev := rfl
@[simp] theorem modGrp_jrn (g : Nat) (f : GroupSt → GroupSt) (s : State) : (modGrp g f s).jrn = s.jrn := rfl
@[simp] theorem modGrp_hub (g : Nat) (f : GroupSt → GroupSt) (s : State) : (modGrp g f s).hub = s.hub := rfl
@[simp] theorem modGrp_xl (g : Nat) (f : GroupSt → GroupSt) (s : State) : (modGrp g f s).xl = s.xl := rfl
@[simp] theorem modGrp_bus (g : Nat) (f : GroupSt → GroupSt) (s : State) : (modGrp g f s).bus = s.bus := rfl
@[simp] theorem modGrp_pel (g : Nat) (f : GroupSt → GroupSt) (s : State) : (modGrp g f s).pel = s.pel := rfl
@[simp] theorem modGrp_axes (g : Nat) (f : GroupSt → GroupSt) (s : State) : (modGrp g f s).axes = s.axes := rfl
@[simp] theorem modGrp_sig (g : Nat) (f : GroupSt → GroupSt) (s : State) : (modGrp g f s).sig = s.sig := rfl
@[simp] theorem modGrp_sch (g : Nat) (f : GroupSt → GroupSt) (s : State) : (modGrp g f s).sch = s.sch := rfl
@[simp] theorem modGrp_io (g : Nat) (f : GroupSt → GroupSt) (s : State) : (modGrp g f s).io = s.io := rfl
@[simp] theorem modGrp_stp (g : Nat) (f : GroupSt → GroupSt) (s : State) : (modGrp g f s).stp = s.stp := rfl
@[simp] theorem modGrp_qp (g : Nat) (f : GroupSt → GroupSt) (s : State) : (modGrp g f s).qp = s.qp := rfl
@[simp] theorem modGrp_trc (g : Nat) (f : GroupSt → GroupSt) (s : State) : (modGrp g f s).trc = s.trc := rfl
@[simp] theorem modGrp_ssm (g : Nat) (f : GroupSt → GroupSt) (s : State) : (modGrp g f s).ssm = s.ssm := rfl
@[simp] theorem modGrp_eff (g : Nat) (f : GroupSt → GroupSt) (s : State) : (modGrp g f s).eff = s.eff := rfl
@[simp] theorem modGrp_tilesOut (g : Nat) (f : GroupSt → GroupSt) (s : State) : (modGrp g f s).tilesOut = s.tilesOut := rfl
@[simp] theorem modGrp_lanesOut (g : Nat) (f : GroupSt → GroupSt) (s : State) : (modGrp g f s).lanesOut = s.lanesOut := rfl
@[simp] theorem modGrp_out (g : Nat) (f : GroupSt → GroupSt) (s : State) : (modGrp g f s).out = s.out := rfl
@[simp] theorem modGrp_admitSeq (g : Nat) (f : GroupSt → GroupSt) (s : State) : (modGrp g f s).admitSeq = s.admitSeq := rfl
@[simp] theorem modGrp_free (g : Nat) (f : GroupSt → GroupSt) (s : State) : (modGrp g f s).free = s.free := rfl
@[simp] theorem modGrp_pending (g : Nat) (f : GroupSt → GroupSt) (s : State) : (modGrp g f s).pending = s.pending := rfl

@[simp] theorem setChan_host (c : Nat) (x : Chan) (s : State) : (setChan c x s).host = s.host := rfl
@[simp] theorem setChan_evt (c : Nat) (x : Chan) (s : State) : (setChan c x s).evt = s.evt := rfl
@[simp] theorem setChan_strm (c : Nat) (x : Chan) (s : State) : (setChan c x s).strm = s.strm := rfl
@[simp] theorem setChan_time (c : Nat) (x : Chan) (s : State) : (setChan c x s).time = s.time := rfl
@[simp] theorem setChan_cad (c : Nat) (x : Chan) (s : State) : (setChan c x s).cad = s.cad := rfl
@[simp] theorem setChan_ptp (c : Nat) (x : Chan) (s : State) : (setChan c x s).ptp = s.ptp := rfl
@[simp] theorem setChan_dev (c : Nat) (x : Chan) (s : State) : (setChan c x s).dev = s.dev := rfl
@[simp] theorem setChan_jrn (c : Nat) (x : Chan) (s : State) : (setChan c x s).jrn = s.jrn := rfl
@[simp] theorem setChan_hub (c : Nat) (x : Chan) (s : State) : (setChan c x s).hub = s.hub := rfl
@[simp] theorem setChan_xl (c : Nat) (x : Chan) (s : State) : (setChan c x s).xl = s.xl := rfl
@[simp] theorem setChan_bus (c : Nat) (x : Chan) (s : State) : (setChan c x s).bus = s.bus := rfl
@[simp] theorem setChan_pel (c : Nat) (x : Chan) (s : State) : (setChan c x s).pel = s.pel := rfl
@[simp] theorem setChan_axes (c : Nat) (x : Chan) (s : State) : (setChan c x s).axes = s.axes := rfl
@[simp] theorem setChan_grps (c : Nat) (x : Chan) (s : State) : (setChan c x s).grps = s.grps := rfl
@[simp] theorem setChan_sig (c : Nat) (x : Chan) (s : State) : (setChan c x s).sig = s.sig := rfl
@[simp] theorem setChan_sch (c : Nat) (x : Chan) (s : State) : (setChan c x s).sch = s.sch := rfl
@[simp] theorem setChan_stp (c : Nat) (x : Chan) (s : State) : (setChan c x s).stp = s.stp := rfl
@[simp] theorem setChan_qp (c : Nat) (x : Chan) (s : State) : (setChan c x s).qp = s.qp := rfl
@[simp] theorem setChan_trc (c : Nat) (x : Chan) (s : State) : (setChan c x s).trc = s.trc := rfl
@[simp] theorem setChan_ssm (c : Nat) (x : Chan) (s : State) : (setChan c x s).ssm = s.ssm := rfl
@[simp] theorem setChan_eff (c : Nat) (x : Chan) (s : State) : (setChan c x s).eff = s.eff := rfl
@[simp] theorem setChan_tilesOut (c : Nat) (x : Chan) (s : State) : (setChan c x s).tilesOut = s.tilesOut := rfl
@[simp] theorem setChan_lanesOut (c : Nat) (x : Chan) (s : State) : (setChan c x s).lanesOut = s.lanesOut := rfl
@[simp] theorem setChan_out (c : Nat) (x : Chan) (s : State) : (setChan c x s).out = s.out := rfl
@[simp] theorem setChan_admitSeq (c : Nat) (x : Chan) (s : State) : (setChan c x s).admitSeq = s.admitSeq := rfl
@[simp] theorem setChan_free (c : Nat) (x : Chan) (s : State) : (setChan c x s).free = s.free := rfl
@[simp] theorem setChan_pending (c : Nat) (x : Chan) (s : State) : (setChan c x s).pending = s.pending := rfl

@[simp] theorem modChan_host (c : Nat) (f : Chan → Chan) (s : State) : (modChan c f s).host = s.host := rfl
@[simp] theorem modChan_evt (c : Nat) (f : Chan → Chan) (s : State) : (modChan c f s).evt = s.evt := rfl
@[simp] theorem modChan_strm (c : Nat) (f : Chan → Chan) (s : State) : (modChan c f s).strm = s.strm := rfl
@[simp] theorem modChan_time (c : Nat) (f : Chan → Chan) (s : State) : (modChan c f s).time = s.time := rfl
@[simp] theorem modChan_cad (c : Nat) (f : Chan → Chan) (s : State) : (modChan c f s).cad = s.cad := rfl
@[simp] theorem modChan_ptp (c : Nat) (f : Chan → Chan) (s : State) : (modChan c f s).ptp = s.ptp := rfl
@[simp] theorem modChan_dev (c : Nat) (f : Chan → Chan) (s : State) : (modChan c f s).dev = s.dev := rfl
@[simp] theorem modChan_jrn (c : Nat) (f : Chan → Chan) (s : State) : (modChan c f s).jrn = s.jrn := rfl
@[simp] theorem modChan_hub (c : Nat) (f : Chan → Chan) (s : State) : (modChan c f s).hub = s.hub := rfl
@[simp] theorem modChan_xl (c : Nat) (f : Chan → Chan) (s : State) : (modChan c f s).xl = s.xl := rfl
@[simp] theorem modChan_bus (c : Nat) (f : Chan → Chan) (s : State) : (modChan c f s).bus = s.bus := rfl
@[simp] theorem modChan_pel (c : Nat) (f : Chan → Chan) (s : State) : (modChan c f s).pel = s.pel := rfl
@[simp] theorem modChan_axes (c : Nat) (f : Chan → Chan) (s : State) : (modChan c f s).axes = s.axes := rfl
@[simp] theorem modChan_grps (c : Nat) (f : Chan → Chan) (s : State) : (modChan c f s).grps = s.grps := rfl
@[simp] theorem modChan_sig (c : Nat) (f : Chan → Chan) (s : State) : (modChan c f s).sig = s.sig := rfl
@[simp] theorem modChan_sch (c : Nat) (f : Chan → Chan) (s : State) : (modChan c f s).sch = s.sch := rfl
@[simp] theorem modChan_stp (c : Nat) (f : Chan → Chan) (s : State) : (modChan c f s).stp = s.stp := rfl
@[simp] theorem modChan_qp (c : Nat) (f : Chan → Chan) (s : State) : (modChan c f s).qp = s.qp := rfl
@[simp] theorem modChan_trc (c : Nat) (f : Chan → Chan) (s : State) : (modChan c f s).trc = s.trc := rfl
@[simp] theorem modChan_ssm (c : Nat) (f : Chan → Chan) (s : State) : (modChan c f s).ssm = s.ssm := rfl
@[simp] theorem modChan_eff (c : Nat) (f : Chan → Chan) (s : State) : (modChan c f s).eff = s.eff := rfl
@[simp] theorem modChan_tilesOut (c : Nat) (f : Chan → Chan) (s : State) : (modChan c f s).tilesOut = s.tilesOut := rfl
@[simp] theorem modChan_lanesOut (c : Nat) (f : Chan → Chan) (s : State) : (modChan c f s).lanesOut = s.lanesOut := rfl
@[simp] theorem modChan_out (c : Nat) (f : Chan → Chan) (s : State) : (modChan c f s).out = s.out := rfl
@[simp] theorem modChan_admitSeq (c : Nat) (f : Chan → Chan) (s : State) : (modChan c f s).admitSeq = s.admitSeq := rfl
@[simp] theorem modChan_free (c : Nat) (f : Chan → Chan) (s : State) : (modChan c f s).free = s.free := rfl
@[simp] theorem modChan_pending (c : Nat) (f : Chan → Chan) (s : State) : (modChan c f s).pending = s.pending := rfl

@[simp] theorem setFg_host (x : Nat) (v : FieldGroup) (s : State) : (setFg x v s).host = s.host := rfl
@[simp] theorem setFg_evt (x : Nat) (v : FieldGroup) (s : State) : (setFg x v s).evt = s.evt := rfl
@[simp] theorem setFg_strm (x : Nat) (v : FieldGroup) (s : State) : (setFg x v s).strm = s.strm := rfl
@[simp] theorem setFg_time (x : Nat) (v : FieldGroup) (s : State) : (setFg x v s).time = s.time := rfl
@[simp] theorem setFg_cad (x : Nat) (v : FieldGroup) (s : State) : (setFg x v s).cad = s.cad := rfl
@[simp] theorem setFg_ptp (x : Nat) (v : FieldGroup) (s : State) : (setFg x v s).ptp = s.ptp := rfl
@[simp] theorem setFg_dev (x : Nat) (v : FieldGroup) (s : State) : (setFg x v s).dev = s.dev := rfl
@[simp] theorem setFg_jrn (x : Nat) (v : FieldGroup) (s : State) : (setFg x v s).jrn = s.jrn := rfl
@[simp] theorem setFg_hub (x : Nat) (v : FieldGroup) (s : State) : (setFg x v s).hub = s.hub := rfl
@[simp] theorem setFg_xl (x : Nat) (v : FieldGroup) (s : State) : (setFg x v s).xl = s.xl := rfl
@[simp] theorem setFg_bus (x : Nat) (v : FieldGroup) (s : State) : (setFg x v s).bus = s.bus := rfl
@[simp] theorem setFg_pel (x : Nat) (v : FieldGroup) (s : State) : (setFg x v s).pel = s.pel := rfl
@[simp] theorem setFg_axes (x : Nat) (v : FieldGroup) (s : State) : (setFg x v s).axes = s.axes := rfl
@[simp] theorem setFg_grps (x : Nat) (v : FieldGroup) (s : State) : (setFg x v s).grps = s.grps := rfl
@[simp] theorem setFg_sig (x : Nat) (v : FieldGroup) (s : State) : (setFg x v s).sig = s.sig := rfl
@[simp] theorem setFg_sch (x : Nat) (v : FieldGroup) (s : State) : (setFg x v s).sch = s.sch := rfl
@[simp] theorem setFg_stp (x : Nat) (v : FieldGroup) (s : State) : (setFg x v s).stp = s.stp := rfl
@[simp] theorem setFg_qp (x : Nat) (v : FieldGroup) (s : State) : (setFg x v s).qp = s.qp := rfl
@[simp] theorem setFg_trc (x : Nat) (v : FieldGroup) (s : State) : (setFg x v s).trc = s.trc := rfl
@[simp] theorem setFg_ssm (x : Nat) (v : FieldGroup) (s : State) : (setFg x v s).ssm = s.ssm := rfl
@[simp] theorem setFg_eff (x : Nat) (v : FieldGroup) (s : State) : (setFg x v s).eff = s.eff := rfl
@[simp] theorem setFg_tilesOut (x : Nat) (v : FieldGroup) (s : State) : (setFg x v s).tilesOut = s.tilesOut := rfl
@[simp] theorem setFg_lanesOut (x : Nat) (v : FieldGroup) (s : State) : (setFg x v s).lanesOut = s.lanesOut := rfl
@[simp] theorem setFg_out (x : Nat) (v : FieldGroup) (s : State) : (setFg x v s).out = s.out := rfl
@[simp] theorem setFg_admitSeq (x : Nat) (v : FieldGroup) (s : State) : (setFg x v s).admitSeq = s.admitSeq := rfl
@[simp] theorem setFg_free (x : Nat) (v : FieldGroup) (s : State) : (setFg x v s).free = s.free := rfl
@[simp] theorem setFg_pending (x : Nat) (v : FieldGroup) (s : State) : (setFg x v s).pending = s.pending := rfl

@[simp] theorem setSeg_host (k : Nat) (v : Segment) (s : State) : (setSeg k v s).host = s.host := rfl
@[simp] theorem setSeg_evt (k : Nat) (v : Segment) (s : State) : (setSeg k v s).evt = s.evt := rfl
@[simp] theorem setSeg_strm (k : Nat) (v : Segment) (s : State) : (setSeg k v s).strm = s.strm := rfl
@[simp] theorem setSeg_time (k : Nat) (v : Segment) (s : State) : (setSeg k v s).time = s.time := rfl
@[simp] theorem setSeg_cad (k : Nat) (v : Segment) (s : State) : (setSeg k v s).cad = s.cad := rfl
@[simp] theorem setSeg_ptp (k : Nat) (v : Segment) (s : State) : (setSeg k v s).ptp = s.ptp := rfl
@[simp] theorem setSeg_dev (k : Nat) (v : Segment) (s : State) : (setSeg k v s).dev = s.dev := rfl
@[simp] theorem setSeg_jrn (k : Nat) (v : Segment) (s : State) : (setSeg k v s).jrn = s.jrn := rfl
@[simp] theorem setSeg_hub (k : Nat) (v : Segment) (s : State) : (setSeg k v s).hub = s.hub := rfl
@[simp] theorem setSeg_xl (k : Nat) (v : Segment) (s : State) : (setSeg k v s).xl = s.xl := rfl
@[simp] theorem setSeg_pel (k : Nat) (v : Segment) (s : State) : (setSeg k v s).pel = s.pel := rfl
@[simp] theorem setSeg_axes (k : Nat) (v : Segment) (s : State) : (setSeg k v s).axes = s.axes := rfl
@[simp] theorem setSeg_grps (k : Nat) (v : Segment) (s : State) : (setSeg k v s).grps = s.grps := rfl
@[simp] theorem setSeg_sig (k : Nat) (v : Segment) (s : State) : (setSeg k v s).sig = s.sig := rfl
@[simp] theorem setSeg_sch (k : Nat) (v : Segment) (s : State) : (setSeg k v s).sch = s.sch := rfl
@[simp] theorem setSeg_io (k : Nat) (v : Segment) (s : State) : (setSeg k v s).io = s.io := rfl
@[simp] theorem setSeg_stp (k : Nat) (v : Segment) (s : State) : (setSeg k v s).stp = s.stp := rfl
@[simp] theorem setSeg_qp (k : Nat) (v : Segment) (s : State) : (setSeg k v s).qp = s.qp := rfl
@[simp] theorem setSeg_trc (k : Nat) (v : Segment) (s : State) : (setSeg k v s).trc = s.trc := rfl
@[simp] theorem setSeg_ssm (k : Nat) (v : Segment) (s : State) : (setSeg k v s).ssm = s.ssm := rfl
@[simp] theorem setSeg_eff (k : Nat) (v : Segment) (s : State) : (setSeg k v s).eff = s.eff := rfl
@[simp] theorem setSeg_tilesOut (k : Nat) (v : Segment) (s : State) : (setSeg k v s).tilesOut = s.tilesOut := rfl
@[simp] theorem setSeg_lanesOut (k : Nat) (v : Segment) (s : State) : (setSeg k v s).lanesOut = s.lanesOut := rfl
@[simp] theorem setSeg_out (k : Nat) (v : Segment) (s : State) : (setSeg k v s).out = s.out := rfl
@[simp] theorem setSeg_admitSeq (k : Nat) (v : Segment) (s : State) : (setSeg k v s).admitSeq = s.admitSeq := rfl
@[simp] theorem setSeg_free (k : Nat) (v : Segment) (s : State) : (setSeg k v s).free = s.free := rfl
@[simp] theorem setSeg_pending (k : Nat) (v : Segment) (s : State) : (setSeg k v s).pending = s.pending := rfl

@[simp] theorem setStart_host (k : Nat) (o : StartOp) (s : State) : (setStart k o s).host = s.host := rfl
@[simp] theorem setStart_evt (k : Nat) (o : StartOp) (s : State) : (setStart k o s).evt = s.evt := rfl
@[simp] theorem setStart_strm (k : Nat) (o : StartOp) (s : State) : (setStart k o s).strm = s.strm := rfl
@[simp] theorem setStart_time (k : Nat) (o : StartOp) (s : State) : (setStart k o s).time = s.time := rfl
@[simp] theorem setStart_cad (k : Nat) (o : StartOp) (s : State) : (setStart k o s).cad = s.cad := rfl
@[simp] theorem setStart_ptp (k : Nat) (o : StartOp) (s : State) : (setStart k o s).ptp = s.ptp := rfl
@[simp] theorem setStart_dev (k : Nat) (o : StartOp) (s : State) : (setStart k o s).dev = s.dev := rfl
@[simp] theorem setStart_jrn (k : Nat) (o : StartOp) (s : State) : (setStart k o s).jrn = s.jrn := rfl
@[simp] theorem setStart_hub (k : Nat) (o : StartOp) (s : State) : (setStart k o s).hub = s.hub := rfl
@[simp] theorem setStart_xl (k : Nat) (o : StartOp) (s : State) : (setStart k o s).xl = s.xl := rfl
@[simp] theorem setStart_pel (k : Nat) (o : StartOp) (s : State) : (setStart k o s).pel = s.pel := rfl
@[simp] theorem setStart_axes (k : Nat) (o : StartOp) (s : State) : (setStart k o s).axes = s.axes := rfl
@[simp] theorem setStart_grps (k : Nat) (o : StartOp) (s : State) : (setStart k o s).grps = s.grps := rfl
@[simp] theorem setStart_sig (k : Nat) (o : StartOp) (s : State) : (setStart k o s).sig = s.sig := rfl
@[simp] theorem setStart_sch (k : Nat) (o : StartOp) (s : State) : (setStart k o s).sch = s.sch := rfl
@[simp] theorem setStart_io (k : Nat) (o : StartOp) (s : State) : (setStart k o s).io = s.io := rfl
@[simp] theorem setStart_stp (k : Nat) (o : StartOp) (s : State) : (setStart k o s).stp = s.stp := rfl
@[simp] theorem setStart_qp (k : Nat) (o : StartOp) (s : State) : (setStart k o s).qp = s.qp := rfl
@[simp] theorem setStart_trc (k : Nat) (o : StartOp) (s : State) : (setStart k o s).trc = s.trc := rfl
@[simp] theorem setStart_ssm (k : Nat) (o : StartOp) (s : State) : (setStart k o s).ssm = s.ssm := rfl
@[simp] theorem setStart_eff (k : Nat) (o : StartOp) (s : State) : (setStart k o s).eff = s.eff := rfl
@[simp] theorem setStart_tilesOut (k : Nat) (o : StartOp) (s : State) : (setStart k o s).tilesOut = s.tilesOut := rfl
@[simp] theorem setStart_lanesOut (k : Nat) (o : StartOp) (s : State) : (setStart k o s).lanesOut = s.lanesOut := rfl
@[simp] theorem setStart_out (k : Nat) (o : StartOp) (s : State) : (setStart k o s).out = s.out := rfl
@[simp] theorem setStart_admitSeq (k : Nat) (o : StartOp) (s : State) : (setStart k o s).admitSeq = s.admitSeq := rfl
@[simp] theorem setStart_free (k : Nat) (o : StartOp) (s : State) : (setStart k o s).free = s.free := rfl
@[simp] theorem setStart_pending (k : Nat) (o : StartOp) (s : State) : (setStart k o s).pending = s.pending := rfl

@[simp] theorem setStp_host (n : Nat) (v : StpAxis) (s : State) : (setStp n v s).host = s.host := rfl
@[simp] theorem setStp_evt (n : Nat) (v : StpAxis) (s : State) : (setStp n v s).evt = s.evt := rfl
@[simp] theorem setStp_strm (n : Nat) (v : StpAxis) (s : State) : (setStp n v s).strm = s.strm := rfl
@[simp] theorem setStp_time (n : Nat) (v : StpAxis) (s : State) : (setStp n v s).time = s.time := rfl
@[simp] theorem setStp_cad (n : Nat) (v : StpAxis) (s : State) : (setStp n v s).cad = s.cad := rfl
@[simp] theorem setStp_ptp (n : Nat) (v : StpAxis) (s : State) : (setStp n v s).ptp = s.ptp := rfl
@[simp] theorem setStp_dev (n : Nat) (v : StpAxis) (s : State) : (setStp n v s).dev = s.dev := rfl
@[simp] theorem setStp_jrn (n : Nat) (v : StpAxis) (s : State) : (setStp n v s).jrn = s.jrn := rfl
@[simp] theorem setStp_hub (n : Nat) (v : StpAxis) (s : State) : (setStp n v s).hub = s.hub := rfl
@[simp] theorem setStp_xl (n : Nat) (v : StpAxis) (s : State) : (setStp n v s).xl = s.xl := rfl
@[simp] theorem setStp_bus (n : Nat) (v : StpAxis) (s : State) : (setStp n v s).bus = s.bus := rfl
@[simp] theorem setStp_pel (n : Nat) (v : StpAxis) (s : State) : (setStp n v s).pel = s.pel := rfl
@[simp] theorem setStp_axes (n : Nat) (v : StpAxis) (s : State) : (setStp n v s).axes = s.axes := rfl
@[simp] theorem setStp_grps (n : Nat) (v : StpAxis) (s : State) : (setStp n v s).grps = s.grps := rfl
@[simp] theorem setStp_sig (n : Nat) (v : StpAxis) (s : State) : (setStp n v s).sig = s.sig := rfl
@[simp] theorem setStp_sch (n : Nat) (v : StpAxis) (s : State) : (setStp n v s).sch = s.sch := rfl
@[simp] theorem setStp_io (n : Nat) (v : StpAxis) (s : State) : (setStp n v s).io = s.io := rfl
@[simp] theorem setStp_qp (n : Nat) (v : StpAxis) (s : State) : (setStp n v s).qp = s.qp := rfl
@[simp] theorem setStp_trc (n : Nat) (v : StpAxis) (s : State) : (setStp n v s).trc = s.trc := rfl
@[simp] theorem setStp_ssm (n : Nat) (v : StpAxis) (s : State) : (setStp n v s).ssm = s.ssm := rfl
@[simp] theorem setStp_eff (n : Nat) (v : StpAxis) (s : State) : (setStp n v s).eff = s.eff := rfl
@[simp] theorem setStp_tilesOut (n : Nat) (v : StpAxis) (s : State) : (setStp n v s).tilesOut = s.tilesOut := rfl
@[simp] theorem setStp_lanesOut (n : Nat) (v : StpAxis) (s : State) : (setStp n v s).lanesOut = s.lanesOut := rfl
@[simp] theorem setStp_out (n : Nat) (v : StpAxis) (s : State) : (setStp n v s).out = s.out := rfl
@[simp] theorem setStp_admitSeq (n : Nat) (v : StpAxis) (s : State) : (setStp n v s).admitSeq = s.admitSeq := rfl
@[simp] theorem setStp_free (n : Nat) (v : StpAxis) (s : State) : (setStp n v s).free = s.free := rfl
@[simp] theorem setStp_pending (n : Nat) (v : StpAxis) (s : State) : (setStp n v s).pending = s.pending := rfl

@[simp] theorem modPel_host (f : PelSt → PelSt) (s : State) : (modPel f s).host = s.host := rfl
@[simp] theorem modPel_evt (f : PelSt → PelSt) (s : State) : (modPel f s).evt = s.evt := rfl
@[simp] theorem modPel_strm (f : PelSt → PelSt) (s : State) : (modPel f s).strm = s.strm := rfl
@[simp] theorem modPel_time (f : PelSt → PelSt) (s : State) : (modPel f s).time = s.time := rfl
@[simp] theorem modPel_cad (f : PelSt → PelSt) (s : State) : (modPel f s).cad = s.cad := rfl
@[simp] theorem modPel_ptp (f : PelSt → PelSt) (s : State) : (modPel f s).ptp = s.ptp := rfl
@[simp] theorem modPel_dev (f : PelSt → PelSt) (s : State) : (modPel f s).dev = s.dev := rfl
@[simp] theorem modPel_jrn (f : PelSt → PelSt) (s : State) : (modPel f s).jrn = s.jrn := rfl
@[simp] theorem modPel_hub (f : PelSt → PelSt) (s : State) : (modPel f s).hub = s.hub := rfl
@[simp] theorem modPel_xl (f : PelSt → PelSt) (s : State) : (modPel f s).xl = s.xl := rfl
@[simp] theorem modPel_bus (f : PelSt → PelSt) (s : State) : (modPel f s).bus = s.bus := rfl
@[simp] theorem modPel_axes (f : PelSt → PelSt) (s : State) : (modPel f s).axes = s.axes := rfl
@[simp] theorem modPel_grps (f : PelSt → PelSt) (s : State) : (modPel f s).grps = s.grps := rfl
@[simp] theorem modPel_sig (f : PelSt → PelSt) (s : State) : (modPel f s).sig = s.sig := rfl
@[simp] theorem modPel_sch (f : PelSt → PelSt) (s : State) : (modPel f s).sch = s.sch := rfl
@[simp] theorem modPel_io (f : PelSt → PelSt) (s : State) : (modPel f s).io = s.io := rfl
@[simp] theorem modPel_stp (f : PelSt → PelSt) (s : State) : (modPel f s).stp = s.stp := rfl
@[simp] theorem modPel_qp (f : PelSt → PelSt) (s : State) : (modPel f s).qp = s.qp := rfl
@[simp] theorem modPel_trc (f : PelSt → PelSt) (s : State) : (modPel f s).trc = s.trc := rfl
@[simp] theorem modPel_ssm (f : PelSt → PelSt) (s : State) : (modPel f s).ssm = s.ssm := rfl
@[simp] theorem modPel_eff (f : PelSt → PelSt) (s : State) : (modPel f s).eff = s.eff := rfl
@[simp] theorem modPel_tilesOut (f : PelSt → PelSt) (s : State) : (modPel f s).tilesOut = s.tilesOut := rfl
@[simp] theorem modPel_lanesOut (f : PelSt → PelSt) (s : State) : (modPel f s).lanesOut = s.lanesOut := rfl
@[simp] theorem modPel_out (f : PelSt → PelSt) (s : State) : (modPel f s).out = s.out := rfl
@[simp] theorem modPel_admitSeq (f : PelSt → PelSt) (s : State) : (modPel f s).admitSeq = s.admitSeq := rfl
@[simp] theorem modPel_free (f : PelSt → PelSt) (s : State) : (modPel f s).free = s.free := rfl
@[simp] theorem modPel_pending (f : PelSt → PelSt) (s : State) : (modPel f s).pending = s.pending := rfl

@[simp] theorem setPtp_host (p : Nat) (v : PtpPort) (s : State) : (setPtp p v s).host = s.host := rfl
@[simp] theorem setPtp_evt (p : Nat) (v : PtpPort) (s : State) : (setPtp p v s).evt = s.evt := rfl
@[simp] theorem setPtp_strm (p : Nat) (v : PtpPort) (s : State) : (setPtp p v s).strm = s.strm := rfl
@[simp] theorem setPtp_time (p : Nat) (v : PtpPort) (s : State) : (setPtp p v s).time = s.time := rfl
@[simp] theorem setPtp_cad (p : Nat) (v : PtpPort) (s : State) : (setPtp p v s).cad = s.cad := rfl
@[simp] theorem setPtp_dev (p : Nat) (v : PtpPort) (s : State) : (setPtp p v s).dev = s.dev := rfl
@[simp] theorem setPtp_jrn (p : Nat) (v : PtpPort) (s : State) : (setPtp p v s).jrn = s.jrn := rfl
@[simp] theorem setPtp_hub (p : Nat) (v : PtpPort) (s : State) : (setPtp p v s).hub = s.hub := rfl
@[simp] theorem setPtp_xl (p : Nat) (v : PtpPort) (s : State) : (setPtp p v s).xl = s.xl := rfl
@[simp] theorem setPtp_bus (p : Nat) (v : PtpPort) (s : State) : (setPtp p v s).bus = s.bus := rfl
@[simp] theorem setPtp_pel (p : Nat) (v : PtpPort) (s : State) : (setPtp p v s).pel = s.pel := rfl
@[simp] theorem setPtp_axes (p : Nat) (v : PtpPort) (s : State) : (setPtp p v s).axes = s.axes := rfl
@[simp] theorem setPtp_grps (p : Nat) (v : PtpPort) (s : State) : (setPtp p v s).grps = s.grps := rfl
@[simp] theorem setPtp_sig (p : Nat) (v : PtpPort) (s : State) : (setPtp p v s).sig = s.sig := rfl
@[simp] theorem setPtp_sch (p : Nat) (v : PtpPort) (s : State) : (setPtp p v s).sch = s.sch := rfl
@[simp] theorem setPtp_io (p : Nat) (v : PtpPort) (s : State) : (setPtp p v s).io = s.io := rfl
@[simp] theorem setPtp_stp (p : Nat) (v : PtpPort) (s : State) : (setPtp p v s).stp = s.stp := rfl
@[simp] theorem setPtp_qp (p : Nat) (v : PtpPort) (s : State) : (setPtp p v s).qp = s.qp := rfl
@[simp] theorem setPtp_trc (p : Nat) (v : PtpPort) (s : State) : (setPtp p v s).trc = s.trc := rfl
@[simp] theorem setPtp_ssm (p : Nat) (v : PtpPort) (s : State) : (setPtp p v s).ssm = s.ssm := rfl
@[simp] theorem setPtp_eff (p : Nat) (v : PtpPort) (s : State) : (setPtp p v s).eff = s.eff := rfl
@[simp] theorem setPtp_tilesOut (p : Nat) (v : PtpPort) (s : State) : (setPtp p v s).tilesOut = s.tilesOut := rfl
@[simp] theorem setPtp_lanesOut (p : Nat) (v : PtpPort) (s : State) : (setPtp p v s).lanesOut = s.lanesOut := rfl
@[simp] theorem setPtp_out (p : Nat) (v : PtpPort) (s : State) : (setPtp p v s).out = s.out := rfl
@[simp] theorem setPtp_admitSeq (p : Nat) (v : PtpPort) (s : State) : (setPtp p v s).admitSeq = s.admitSeq := rfl
@[simp] theorem setPtp_free (p : Nat) (v : PtpPort) (s : State) : (setPtp p v s).free = s.free := rfl
@[simp] theorem setPtp_pending (p : Nat) (v : PtpPort) (s : State) : (setPtp p v s).pending = s.pending := rfl

@[simp] theorem modDev_host (f : DevSt → DevSt) (s : State) : (modDev f s).host = s.host := rfl
@[simp] theorem modDev_evt (f : DevSt → DevSt) (s : State) : (modDev f s).evt = s.evt := rfl
@[simp] theorem modDev_strm (f : DevSt → DevSt) (s : State) : (modDev f s).strm = s.strm := rfl
@[simp] theorem modDev_time (f : DevSt → DevSt) (s : State) : (modDev f s).time = s.time := rfl
@[simp] theorem modDev_cad (f : DevSt → DevSt) (s : State) : (modDev f s).cad = s.cad := rfl
@[simp] theorem modDev_ptp (f : DevSt → DevSt) (s : State) : (modDev f s).ptp = s.ptp := rfl
@[simp] theorem modDev_jrn (f : DevSt → DevSt) (s : State) : (modDev f s).jrn = s.jrn := rfl
@[simp] theorem modDev_hub (f : DevSt → DevSt) (s : State) : (modDev f s).hub = s.hub := rfl
@[simp] theorem modDev_xl (f : DevSt → DevSt) (s : State) : (modDev f s).xl = s.xl := rfl
@[simp] theorem modDev_bus (f : DevSt → DevSt) (s : State) : (modDev f s).bus = s.bus := rfl
@[simp] theorem modDev_pel (f : DevSt → DevSt) (s : State) : (modDev f s).pel = s.pel := rfl
@[simp] theorem modDev_axes (f : DevSt → DevSt) (s : State) : (modDev f s).axes = s.axes := rfl
@[simp] theorem modDev_grps (f : DevSt → DevSt) (s : State) : (modDev f s).grps = s.grps := rfl
@[simp] theorem modDev_sig (f : DevSt → DevSt) (s : State) : (modDev f s).sig = s.sig := rfl
@[simp] theorem modDev_sch (f : DevSt → DevSt) (s : State) : (modDev f s).sch = s.sch := rfl
@[simp] theorem modDev_io (f : DevSt → DevSt) (s : State) : (modDev f s).io = s.io := rfl
@[simp] theorem modDev_stp (f : DevSt → DevSt) (s : State) : (modDev f s).stp = s.stp := rfl
@[simp] theorem modDev_qp (f : DevSt → DevSt) (s : State) : (modDev f s).qp = s.qp := rfl
@[simp] theorem modDev_trc (f : DevSt → DevSt) (s : State) : (modDev f s).trc = s.trc := rfl
@[simp] theorem modDev_ssm (f : DevSt → DevSt) (s : State) : (modDev f s).ssm = s.ssm := rfl
@[simp] theorem modDev_eff (f : DevSt → DevSt) (s : State) : (modDev f s).eff = s.eff := rfl
@[simp] theorem modDev_tilesOut (f : DevSt → DevSt) (s : State) : (modDev f s).tilesOut = s.tilesOut := rfl
@[simp] theorem modDev_lanesOut (f : DevSt → DevSt) (s : State) : (modDev f s).lanesOut = s.lanesOut := rfl
@[simp] theorem modDev_out (f : DevSt → DevSt) (s : State) : (modDev f s).out = s.out := rfl
@[simp] theorem modDev_admitSeq (f : DevSt → DevSt) (s : State) : (modDev f s).admitSeq = s.admitSeq := rfl
@[simp] theorem modDev_free (f : DevSt → DevSt) (s : State) : (modDev f s).free = s.free := rfl
@[simp] theorem modDev_pending (f : DevSt → DevSt) (s : State) : (modDev f s).pending = s.pending := rfl

@[simp] theorem setCls_host (k : Nat) (v : ClassSt) (s : State) : (setCls k v s).host = s.host := rfl
@[simp] theorem setCls_evt (k : Nat) (v : ClassSt) (s : State) : (setCls k v s).evt = s.evt := rfl
@[simp] theorem setCls_strm (k : Nat) (v : ClassSt) (s : State) : (setCls k v s).strm = s.strm := rfl
@[simp] theorem setCls_time (k : Nat) (v : ClassSt) (s : State) : (setCls k v s).time = s.time := rfl
@[simp] theorem setCls_cad (k : Nat) (v : ClassSt) (s : State) : (setCls k v s).cad = s.cad := rfl
@[simp] theorem setCls_ptp (k : Nat) (v : ClassSt) (s : State) : (setCls k v s).ptp = s.ptp := rfl
@[simp] theorem setCls_dev (k : Nat) (v : ClassSt) (s : State) : (setCls k v s).dev = s.dev := rfl
@[simp] theorem setCls_jrn (k : Nat) (v : ClassSt) (s : State) : (setCls k v s).jrn = s.jrn := rfl
@[simp] theorem setCls_hub (k : Nat) (v : ClassSt) (s : State) : (setCls k v s).hub = s.hub := rfl
@[simp] theorem setCls_xl (k : Nat) (v : ClassSt) (s : State) : (setCls k v s).xl = s.xl := rfl
@[simp] theorem setCls_bus (k : Nat) (v : ClassSt) (s : State) : (setCls k v s).bus = s.bus := rfl
@[simp] theorem setCls_pel (k : Nat) (v : ClassSt) (s : State) : (setCls k v s).pel = s.pel := rfl
@[simp] theorem setCls_axes (k : Nat) (v : ClassSt) (s : State) : (setCls k v s).axes = s.axes := rfl
@[simp] theorem setCls_grps (k : Nat) (v : ClassSt) (s : State) : (setCls k v s).grps = s.grps := rfl
@[simp] theorem setCls_sig (k : Nat) (v : ClassSt) (s : State) : (setCls k v s).sig = s.sig := rfl
@[simp] theorem setCls_io (k : Nat) (v : ClassSt) (s : State) : (setCls k v s).io = s.io := rfl
@[simp] theorem setCls_stp (k : Nat) (v : ClassSt) (s : State) : (setCls k v s).stp = s.stp := rfl
@[simp] theorem setCls_qp (k : Nat) (v : ClassSt) (s : State) : (setCls k v s).qp = s.qp := rfl
@[simp] theorem setCls_trc (k : Nat) (v : ClassSt) (s : State) : (setCls k v s).trc = s.trc := rfl
@[simp] theorem setCls_ssm (k : Nat) (v : ClassSt) (s : State) : (setCls k v s).ssm = s.ssm := rfl
@[simp] theorem setCls_eff (k : Nat) (v : ClassSt) (s : State) : (setCls k v s).eff = s.eff := rfl
@[simp] theorem setCls_tilesOut (k : Nat) (v : ClassSt) (s : State) : (setCls k v s).tilesOut = s.tilesOut := rfl
@[simp] theorem setCls_lanesOut (k : Nat) (v : ClassSt) (s : State) : (setCls k v s).lanesOut = s.lanesOut := rfl
@[simp] theorem setCls_out (k : Nat) (v : ClassSt) (s : State) : (setCls k v s).out = s.out := rfl
@[simp] theorem setCls_admitSeq (k : Nat) (v : ClassSt) (s : State) : (setCls k v s).admitSeq = s.admitSeq := rfl
@[simp] theorem setCls_free (k : Nat) (v : ClassSt) (s : State) : (setCls k v s).free = s.free := rfl
@[simp] theorem setCls_pending (k : Nat) (v : ClassSt) (s : State) : (setCls k v s).pending = s.pending := rfl

@[simp] theorem setFlow_host (f : Nat) (v : Flow) (s : State) : (setFlow f v s).host = s.host := rfl
@[simp] theorem setFlow_evt (f : Nat) (v : Flow) (s : State) : (setFlow f v s).evt = s.evt := rfl
@[simp] theorem setFlow_strm (f : Nat) (v : Flow) (s : State) : (setFlow f v s).strm = s.strm := rfl
@[simp] theorem setFlow_time (f : Nat) (v : Flow) (s : State) : (setFlow f v s).time = s.time := rfl
@[simp] theorem setFlow_cad (f : Nat) (v : Flow) (s : State) : (setFlow f v s).cad = s.cad := rfl
@[simp] theorem setFlow_ptp (f : Nat) (v : Flow) (s : State) : (setFlow f v s).ptp = s.ptp := rfl
@[simp] theorem setFlow_dev (f : Nat) (v : Flow) (s : State) : (setFlow f v s).dev = s.dev := rfl
@[simp] theorem setFlow_jrn (f : Nat) (v : Flow) (s : State) : (setFlow f v s).jrn = s.jrn := rfl
@[simp] theorem setFlow_hub (f : Nat) (v : Flow) (s : State) : (setFlow f v s).hub = s.hub := rfl
@[simp] theorem setFlow_xl (f : Nat) (v : Flow) (s : State) : (setFlow f v s).xl = s.xl := rfl
@[simp] theorem setFlow_bus (f : Nat) (v : Flow) (s : State) : (setFlow f v s).bus = s.bus := rfl
@[simp] theorem setFlow_pel (f : Nat) (v : Flow) (s : State) : (setFlow f v s).pel = s.pel := rfl
@[simp] theorem setFlow_axes (f : Nat) (v : Flow) (s : State) : (setFlow f v s).axes = s.axes := rfl
@[simp] theorem setFlow_grps (f : Nat) (v : Flow) (s : State) : (setFlow f v s).grps = s.grps := rfl
@[simp] theorem setFlow_sig (f : Nat) (v : Flow) (s : State) : (setFlow f v s).sig = s.sig := rfl
@[simp] theorem setFlow_io (f : Nat) (v : Flow) (s : State) : (setFlow f v s).io = s.io := rfl
@[simp] theorem setFlow_stp (f : Nat) (v : Flow) (s : State) : (setFlow f v s).stp = s.stp := rfl
@[simp] theorem setFlow_qp (f : Nat) (v : Flow) (s : State) : (setFlow f v s).qp = s.qp := rfl
@[simp] theorem setFlow_trc (f : Nat) (v : Flow) (s : State) : (setFlow f v s).trc = s.trc := rfl
@[simp] theorem setFlow_ssm (f : Nat) (v : Flow) (s : State) : (setFlow f v s).ssm = s.ssm := rfl
@[simp] theorem setFlow_eff (f : Nat) (v : Flow) (s : State) : (setFlow f v s).eff = s.eff := rfl
@[simp] theorem setFlow_tilesOut (f : Nat) (v : Flow) (s : State) : (setFlow f v s).tilesOut = s.tilesOut := rfl
@[simp] theorem setFlow_lanesOut (f : Nat) (v : Flow) (s : State) : (setFlow f v s).lanesOut = s.lanesOut := rfl
@[simp] theorem setFlow_out (f : Nat) (v : Flow) (s : State) : (setFlow f v s).out = s.out := rfl
@[simp] theorem setFlow_admitSeq (f : Nat) (v : Flow) (s : State) : (setFlow f v s).admitSeq = s.admitSeq := rfl
@[simp] theorem setFlow_free (f : Nat) (v : Flow) (s : State) : (setFlow f v s).free = s.free := rfl
@[simp] theorem setFlow_pending (f : Nat) (v : Flow) (s : State) : (setFlow f v s).pending = s.pending := rfl

@[simp] theorem setOnUnit_host (k u : Nat) (t : Option Task) (s : State) : (setOnUnit k u t s).host = s.host := rfl
@[simp] theorem setOnUnit_evt (k u : Nat) (t : Option Task) (s : State) : (setOnUnit k u t s).evt = s.evt := rfl
@[simp] theorem setOnUnit_strm (k u : Nat) (t : Option Task) (s : State) : (setOnUnit k u t s).strm = s.strm := rfl
@[simp] theorem setOnUnit_time (k u : Nat) (t : Option Task) (s : State) : (setOnUnit k u t s).time = s.time := rfl
@[simp] theorem setOnUnit_cad (k u : Nat) (t : Option Task) (s : State) : (setOnUnit k u t s).cad = s.cad := rfl
@[simp] theorem setOnUnit_ptp (k u : Nat) (t : Option Task) (s : State) : (setOnUnit k u t s).ptp = s.ptp := rfl
@[simp] theorem setOnUnit_dev (k u : Nat) (t : Option Task) (s : State) : (setOnUnit k u t s).dev = s.dev := rfl
@[simp] theorem setOnUnit_jrn (k u : Nat) (t : Option Task) (s : State) : (setOnUnit k u t s).jrn = s.jrn := rfl
@[simp] theorem setOnUnit_hub (k u : Nat) (t : Option Task) (s : State) : (setOnUnit k u t s).hub = s.hub := rfl
@[simp] theorem setOnUnit_xl (k u : Nat) (t : Option Task) (s : State) : (setOnUnit k u t s).xl = s.xl := rfl
@[simp] theorem setOnUnit_bus (k u : Nat) (t : Option Task) (s : State) : (setOnUnit k u t s).bus = s.bus := rfl
@[simp] theorem setOnUnit_pel (k u : Nat) (t : Option Task) (s : State) : (setOnUnit k u t s).pel = s.pel := rfl
@[simp] theorem setOnUnit_axes (k u : Nat) (t : Option Task) (s : State) : (setOnUnit k u t s).axes = s.axes := rfl
@[simp] theorem setOnUnit_grps (k u : Nat) (t : Option Task) (s : State) : (setOnUnit k u t s).grps = s.grps := rfl
@[simp] theorem setOnUnit_sig (k u : Nat) (t : Option Task) (s : State) : (setOnUnit k u t s).sig = s.sig := rfl
@[simp] theorem setOnUnit_io (k u : Nat) (t : Option Task) (s : State) : (setOnUnit k u t s).io = s.io := rfl
@[simp] theorem setOnUnit_stp (k u : Nat) (t : Option Task) (s : State) : (setOnUnit k u t s).stp = s.stp := rfl
@[simp] theorem setOnUnit_qp (k u : Nat) (t : Option Task) (s : State) : (setOnUnit k u t s).qp = s.qp := rfl
@[simp] theorem setOnUnit_trc (k u : Nat) (t : Option Task) (s : State) : (setOnUnit k u t s).trc = s.trc := rfl
@[simp] theorem setOnUnit_ssm (k u : Nat) (t : Option Task) (s : State) : (setOnUnit k u t s).ssm = s.ssm := rfl
@[simp] theorem setOnUnit_eff (k u : Nat) (t : Option Task) (s : State) : (setOnUnit k u t s).eff = s.eff := rfl
@[simp] theorem setOnUnit_tilesOut (k u : Nat) (t : Option Task) (s : State) : (setOnUnit k u t s).tilesOut = s.tilesOut := rfl
@[simp] theorem setOnUnit_lanesOut (k u : Nat) (t : Option Task) (s : State) : (setOnUnit k u t s).lanesOut = s.lanesOut := rfl
@[simp] theorem setOnUnit_out (k u : Nat) (t : Option Task) (s : State) : (setOnUnit k u t s).out = s.out := rfl
@[simp] theorem setOnUnit_admitSeq (k u : Nat) (t : Option Task) (s : State) : (setOnUnit k u t s).admitSeq = s.admitSeq := rfl
@[simp] theorem setOnUnit_free (k u : Nat) (t : Option Task) (s : State) : (setOnUnit k u t s).free = s.free := rfl
@[simp] theorem setOnUnit_pending (k u : Nat) (t : Option Task) (s : State) : (setOnUnit k u t s).pending = s.pending := rfl

@[simp] theorem setUnit_host (u : Nat) (a : Option Armed) (s : State) : (setUnit u a s).host = s.host := rfl
@[simp] theorem setUnit_evt (u : Nat) (a : Option Armed) (s : State) : (setUnit u a s).evt = s.evt := rfl
@[simp] theorem setUnit_strm (u : Nat) (a : Option Armed) (s : State) : (setUnit u a s).strm = s.strm := rfl
@[simp] theorem setUnit_cad (u : Nat) (a : Option Armed) (s : State) : (setUnit u a s).cad = s.cad := rfl
@[simp] theorem setUnit_ptp (u : Nat) (a : Option Armed) (s : State) : (setUnit u a s).ptp = s.ptp := rfl
@[simp] theorem setUnit_dev (u : Nat) (a : Option Armed) (s : State) : (setUnit u a s).dev = s.dev := rfl
@[simp] theorem setUnit_jrn (u : Nat) (a : Option Armed) (s : State) : (setUnit u a s).jrn = s.jrn := rfl
@[simp] theorem setUnit_hub (u : Nat) (a : Option Armed) (s : State) : (setUnit u a s).hub = s.hub := rfl
@[simp] theorem setUnit_xl (u : Nat) (a : Option Armed) (s : State) : (setUnit u a s).xl = s.xl := rfl
@[simp] theorem setUnit_bus (u : Nat) (a : Option Armed) (s : State) : (setUnit u a s).bus = s.bus := rfl
@[simp] theorem setUnit_pel (u : Nat) (a : Option Armed) (s : State) : (setUnit u a s).pel = s.pel := rfl
@[simp] theorem setUnit_axes (u : Nat) (a : Option Armed) (s : State) : (setUnit u a s).axes = s.axes := rfl
@[simp] theorem setUnit_grps (u : Nat) (a : Option Armed) (s : State) : (setUnit u a s).grps = s.grps := rfl
@[simp] theorem setUnit_sig (u : Nat) (a : Option Armed) (s : State) : (setUnit u a s).sig = s.sig := rfl
@[simp] theorem setUnit_sch (u : Nat) (a : Option Armed) (s : State) : (setUnit u a s).sch = s.sch := rfl
@[simp] theorem setUnit_io (u : Nat) (a : Option Armed) (s : State) : (setUnit u a s).io = s.io := rfl
@[simp] theorem setUnit_stp (u : Nat) (a : Option Armed) (s : State) : (setUnit u a s).stp = s.stp := rfl
@[simp] theorem setUnit_qp (u : Nat) (a : Option Armed) (s : State) : (setUnit u a s).qp = s.qp := rfl
@[simp] theorem setUnit_trc (u : Nat) (a : Option Armed) (s : State) : (setUnit u a s).trc = s.trc := rfl
@[simp] theorem setUnit_ssm (u : Nat) (a : Option Armed) (s : State) : (setUnit u a s).ssm = s.ssm := rfl
@[simp] theorem setUnit_eff (u : Nat) (a : Option Armed) (s : State) : (setUnit u a s).eff = s.eff := rfl
@[simp] theorem setUnit_tilesOut (u : Nat) (a : Option Armed) (s : State) : (setUnit u a s).tilesOut = s.tilesOut := rfl
@[simp] theorem setUnit_lanesOut (u : Nat) (a : Option Armed) (s : State) : (setUnit u a s).lanesOut = s.lanesOut := rfl
@[simp] theorem setUnit_out (u : Nat) (a : Option Armed) (s : State) : (setUnit u a s).out = s.out := rfl
@[simp] theorem setUnit_admitSeq (u : Nat) (a : Option Armed) (s : State) : (setUnit u a s).admitSeq = s.admitSeq := rfl
@[simp] theorem setUnit_free (u : Nat) (a : Option Armed) (s : State) : (setUnit u a s).free = s.free := rfl
@[simp] theorem setUnit_pending (u : Nat) (a : Option Armed) (s : State) : (setUnit u a s).pending = s.pending := rfl

@[simp] theorem setSes_host (k : Nat) (x : Session) (s : State) : (setSes k x s).host = s.host := rfl
@[simp] theorem setSes_evt (k : Nat) (x : Session) (s : State) : (setSes k x s).evt = s.evt := rfl
@[simp] theorem setSes_strm (k : Nat) (x : Session) (s : State) : (setSes k x s).strm = s.strm := rfl
@[simp] theorem setSes_time (k : Nat) (x : Session) (s : State) : (setSes k x s).time = s.time := rfl
@[simp] theorem setSes_cad (k : Nat) (x : Session) (s : State) : (setSes k x s).cad = s.cad := rfl
@[simp] theorem setSes_ptp (k : Nat) (x : Session) (s : State) : (setSes k x s).ptp = s.ptp := rfl
@[simp] theorem setSes_dev (k : Nat) (x : Session) (s : State) : (setSes k x s).dev = s.dev := rfl
@[simp] theorem setSes_jrn (k : Nat) (x : Session) (s : State) : (setSes k x s).jrn = s.jrn := rfl
@[simp] theorem setSes_hub (k : Nat) (x : Session) (s : State) : (setSes k x s).hub = s.hub := rfl
@[simp] theorem setSes_xl (k : Nat) (x : Session) (s : State) : (setSes k x s).xl = s.xl := rfl
@[simp] theorem setSes_bus (k : Nat) (x : Session) (s : State) : (setSes k x s).bus = s.bus := rfl
@[simp] theorem setSes_pel (k : Nat) (x : Session) (s : State) : (setSes k x s).pel = s.pel := rfl
@[simp] theorem setSes_axes (k : Nat) (x : Session) (s : State) : (setSes k x s).axes = s.axes := rfl
@[simp] theorem setSes_grps (k : Nat) (x : Session) (s : State) : (setSes k x s).grps = s.grps := rfl
@[simp] theorem setSes_sig (k : Nat) (x : Session) (s : State) : (setSes k x s).sig = s.sig := rfl
@[simp] theorem setSes_sch (k : Nat) (x : Session) (s : State) : (setSes k x s).sch = s.sch := rfl
@[simp] theorem setSes_io (k : Nat) (x : Session) (s : State) : (setSes k x s).io = s.io := rfl
@[simp] theorem setSes_stp (k : Nat) (x : Session) (s : State) : (setSes k x s).stp = s.stp := rfl
@[simp] theorem setSes_qp (k : Nat) (x : Session) (s : State) : (setSes k x s).qp = s.qp := rfl
@[simp] theorem setSes_ssm (k : Nat) (x : Session) (s : State) : (setSes k x s).ssm = s.ssm := rfl
@[simp] theorem setSes_eff (k : Nat) (x : Session) (s : State) : (setSes k x s).eff = s.eff := rfl
@[simp] theorem setSes_tilesOut (k : Nat) (x : Session) (s : State) : (setSes k x s).tilesOut = s.tilesOut := rfl
@[simp] theorem setSes_lanesOut (k : Nat) (x : Session) (s : State) : (setSes k x s).lanesOut = s.lanesOut := rfl
@[simp] theorem setSes_out (k : Nat) (x : Session) (s : State) : (setSes k x s).out = s.out := rfl
@[simp] theorem setSes_admitSeq (k : Nat) (x : Session) (s : State) : (setSes k x s).admitSeq = s.admitSeq := rfl
@[simp] theorem setSes_free (k : Nat) (x : Session) (s : State) : (setSes k x s).free = s.free := rfl
@[simp] theorem setSes_pending (k : Nat) (x : Session) (s : State) : (setSes k x s).pending = s.pending := rfl

@[simp] theorem setInj_host (a : Nat) (x : Option Inject) (s : State) : (setInj a x s).host = s.host := rfl
@[simp] theorem setInj_evt (a : Nat) (x : Option Inject) (s : State) : (setInj a x s).evt = s.evt := rfl
@[simp] theorem setInj_strm (a : Nat) (x : Option Inject) (s : State) : (setInj a x s).strm = s.strm := rfl
@[simp] theorem setInj_time (a : Nat) (x : Option Inject) (s : State) : (setInj a x s).time = s.time := rfl
@[simp] theorem setInj_cad (a : Nat) (x : Option Inject) (s : State) : (setInj a x s).cad = s.cad := rfl
@[simp] theorem setInj_ptp (a : Nat) (x : Option Inject) (s : State) : (setInj a x s).ptp = s.ptp := rfl
@[simp] theorem setInj_dev (a : Nat) (x : Option Inject) (s : State) : (setInj a x s).dev = s.dev := rfl
@[simp] theorem setInj_jrn (a : Nat) (x : Option Inject) (s : State) : (setInj a x s).jrn = s.jrn := rfl
@[simp] theorem setInj_hub (a : Nat) (x : Option Inject) (s : State) : (setInj a x s).hub = s.hub := rfl
@[simp] theorem setInj_xl (a : Nat) (x : Option Inject) (s : State) : (setInj a x s).xl = s.xl := rfl
@[simp] theorem setInj_bus (a : Nat) (x : Option Inject) (s : State) : (setInj a x s).bus = s.bus := rfl
@[simp] theorem setInj_pel (a : Nat) (x : Option Inject) (s : State) : (setInj a x s).pel = s.pel := rfl
@[simp] theorem setInj_axes (a : Nat) (x : Option Inject) (s : State) : (setInj a x s).axes = s.axes := rfl
@[simp] theorem setInj_grps (a : Nat) (x : Option Inject) (s : State) : (setInj a x s).grps = s.grps := rfl
@[simp] theorem setInj_sig (a : Nat) (x : Option Inject) (s : State) : (setInj a x s).sig = s.sig := rfl
@[simp] theorem setInj_sch (a : Nat) (x : Option Inject) (s : State) : (setInj a x s).sch = s.sch := rfl
@[simp] theorem setInj_io (a : Nat) (x : Option Inject) (s : State) : (setInj a x s).io = s.io := rfl
@[simp] theorem setInj_stp (a : Nat) (x : Option Inject) (s : State) : (setInj a x s).stp = s.stp := rfl
@[simp] theorem setInj_qp (a : Nat) (x : Option Inject) (s : State) : (setInj a x s).qp = s.qp := rfl
@[simp] theorem setInj_ssm (a : Nat) (x : Option Inject) (s : State) : (setInj a x s).ssm = s.ssm := rfl
@[simp] theorem setInj_eff (a : Nat) (x : Option Inject) (s : State) : (setInj a x s).eff = s.eff := rfl
@[simp] theorem setInj_tilesOut (a : Nat) (x : Option Inject) (s : State) : (setInj a x s).tilesOut = s.tilesOut := rfl
@[simp] theorem setInj_lanesOut (a : Nat) (x : Option Inject) (s : State) : (setInj a x s).lanesOut = s.lanesOut := rfl
@[simp] theorem setInj_out (a : Nat) (x : Option Inject) (s : State) : (setInj a x s).out = s.out := rfl
@[simp] theorem setInj_admitSeq (a : Nat) (x : Option Inject) (s : State) : (setInj a x s).admitSeq = s.admitSeq := rfl
@[simp] theorem setInj_free (a : Nat) (x : Option Inject) (s : State) : (setInj a x s).free = s.free := rfl
@[simp] theorem setInj_pending (a : Nat) (x : Option Inject) (s : State) : (setInj a x s).pending = s.pending := rfl

@[simp] theorem setZone_host (z : Nat) (v : Zone) (s : State) : (setZone z v s).host = s.host := rfl
@[simp] theorem setZone_evt (z : Nat) (v : Zone) (s : State) : (setZone z v s).evt = s.evt := rfl
@[simp] theorem setZone_strm (z : Nat) (v : Zone) (s : State) : (setZone z v s).strm = s.strm := rfl
@[simp] theorem setZone_time (z : Nat) (v : Zone) (s : State) : (setZone z v s).time = s.time := rfl
@[simp] theorem setZone_cad (z : Nat) (v : Zone) (s : State) : (setZone z v s).cad = s.cad := rfl
@[simp] theorem setZone_ptp (z : Nat) (v : Zone) (s : State) : (setZone z v s).ptp = s.ptp := rfl
@[simp] theorem setZone_dev (z : Nat) (v : Zone) (s : State) : (setZone z v s).dev = s.dev := rfl
@[simp] theorem setZone_jrn (z : Nat) (v : Zone) (s : State) : (setZone z v s).jrn = s.jrn := rfl
@[simp] theorem setZone_hub (z : Nat) (v : Zone) (s : State) : (setZone z v s).hub = s.hub := rfl
@[simp] theorem setZone_xl (z : Nat) (v : Zone) (s : State) : (setZone z v s).xl = s.xl := rfl
@[simp] theorem setZone_bus (z : Nat) (v : Zone) (s : State) : (setZone z v s).bus = s.bus := rfl
@[simp] theorem setZone_pel (z : Nat) (v : Zone) (s : State) : (setZone z v s).pel = s.pel := rfl
@[simp] theorem setZone_axes (z : Nat) (v : Zone) (s : State) : (setZone z v s).axes = s.axes := rfl
@[simp] theorem setZone_grps (z : Nat) (v : Zone) (s : State) : (setZone z v s).grps = s.grps := rfl
@[simp] theorem setZone_sig (z : Nat) (v : Zone) (s : State) : (setZone z v s).sig = s.sig := rfl
@[simp] theorem setZone_sch (z : Nat) (v : Zone) (s : State) : (setZone z v s).sch = s.sch := rfl
@[simp] theorem setZone_io (z : Nat) (v : Zone) (s : State) : (setZone z v s).io = s.io := rfl
@[simp] theorem setZone_stp (z : Nat) (v : Zone) (s : State) : (setZone z v s).stp = s.stp := rfl
@[simp] theorem setZone_qp (z : Nat) (v : Zone) (s : State) : (setZone z v s).qp = s.qp := rfl
@[simp] theorem setZone_trc (z : Nat) (v : Zone) (s : State) : (setZone z v s).trc = s.trc := rfl
@[simp] theorem setZone_eff (z : Nat) (v : Zone) (s : State) : (setZone z v s).eff = s.eff := rfl
@[simp] theorem setZone_tilesOut (z : Nat) (v : Zone) (s : State) : (setZone z v s).tilesOut = s.tilesOut := rfl
@[simp] theorem setZone_lanesOut (z : Nat) (v : Zone) (s : State) : (setZone z v s).lanesOut = s.lanesOut := rfl
@[simp] theorem setZone_out (z : Nat) (v : Zone) (s : State) : (setZone z v s).out = s.out := rfl
@[simp] theorem setZone_admitSeq (z : Nat) (v : Zone) (s : State) : (setZone z v s).admitSeq = s.admitSeq := rfl
@[simp] theorem setZone_free (z : Nat) (v : Zone) (s : State) : (setZone z v s).free = s.free := rfl
@[simp] theorem setZone_pending (z : Nat) (v : Zone) (s : State) : (setZone z v s).pending = s.pending := rfl

@[simp] theorem setSsm_host (g : Nat) (x : SsmGrp) (s : State) : (setSsm g x s).host = s.host := rfl
@[simp] theorem setSsm_evt (g : Nat) (x : SsmGrp) (s : State) : (setSsm g x s).evt = s.evt := rfl
@[simp] theorem setSsm_strm (g : Nat) (x : SsmGrp) (s : State) : (setSsm g x s).strm = s.strm := rfl
@[simp] theorem setSsm_time (g : Nat) (x : SsmGrp) (s : State) : (setSsm g x s).time = s.time := rfl
@[simp] theorem setSsm_cad (g : Nat) (x : SsmGrp) (s : State) : (setSsm g x s).cad = s.cad := rfl
@[simp] theorem setSsm_ptp (g : Nat) (x : SsmGrp) (s : State) : (setSsm g x s).ptp = s.ptp := rfl
@[simp] theorem setSsm_dev (g : Nat) (x : SsmGrp) (s : State) : (setSsm g x s).dev = s.dev := rfl
@[simp] theorem setSsm_jrn (g : Nat) (x : SsmGrp) (s : State) : (setSsm g x s).jrn = s.jrn := rfl
@[simp] theorem setSsm_hub (g : Nat) (x : SsmGrp) (s : State) : (setSsm g x s).hub = s.hub := rfl
@[simp] theorem setSsm_xl (g : Nat) (x : SsmGrp) (s : State) : (setSsm g x s).xl = s.xl := rfl
@[simp] theorem setSsm_bus (g : Nat) (x : SsmGrp) (s : State) : (setSsm g x s).bus = s.bus := rfl
@[simp] theorem setSsm_pel (g : Nat) (x : SsmGrp) (s : State) : (setSsm g x s).pel = s.pel := rfl
@[simp] theorem setSsm_axes (g : Nat) (x : SsmGrp) (s : State) : (setSsm g x s).axes = s.axes := rfl
@[simp] theorem setSsm_grps (g : Nat) (x : SsmGrp) (s : State) : (setSsm g x s).grps = s.grps := rfl
@[simp] theorem setSsm_sig (g : Nat) (x : SsmGrp) (s : State) : (setSsm g x s).sig = s.sig := rfl
@[simp] theorem setSsm_sch (g : Nat) (x : SsmGrp) (s : State) : (setSsm g x s).sch = s.sch := rfl
@[simp] theorem setSsm_io (g : Nat) (x : SsmGrp) (s : State) : (setSsm g x s).io = s.io := rfl
@[simp] theorem setSsm_stp (g : Nat) (x : SsmGrp) (s : State) : (setSsm g x s).stp = s.stp := rfl
@[simp] theorem setSsm_qp (g : Nat) (x : SsmGrp) (s : State) : (setSsm g x s).qp = s.qp := rfl
@[simp] theorem setSsm_trc (g : Nat) (x : SsmGrp) (s : State) : (setSsm g x s).trc = s.trc := rfl
@[simp] theorem setSsm_eff (g : Nat) (x : SsmGrp) (s : State) : (setSsm g x s).eff = s.eff := rfl
@[simp] theorem setSsm_tilesOut (g : Nat) (x : SsmGrp) (s : State) : (setSsm g x s).tilesOut = s.tilesOut := rfl
@[simp] theorem setSsm_lanesOut (g : Nat) (x : SsmGrp) (s : State) : (setSsm g x s).lanesOut = s.lanesOut := rfl
@[simp] theorem setSsm_out (g : Nat) (x : SsmGrp) (s : State) : (setSsm g x s).out = s.out := rfl
@[simp] theorem setSsm_admitSeq (g : Nat) (x : SsmGrp) (s : State) : (setSsm g x s).admitSeq = s.admitSeq := rfl
@[simp] theorem setSsm_free (g : Nat) (x : SsmGrp) (s : State) : (setSsm g x s).free = s.free := rfl
@[simp] theorem setSsm_pending (g : Nat) (x : SsmGrp) (s : State) : (setSsm g x s).pending = s.pending := rfl

@[simp] theorem modSsm_host (g : Nat) (f : SsmGrp → SsmGrp) (s : State) : (modSsm g f s).host = s.host := rfl
@[simp] theorem modSsm_evt (g : Nat) (f : SsmGrp → SsmGrp) (s : State) : (modSsm g f s).evt = s.evt := rfl
@[simp] theorem modSsm_strm (g : Nat) (f : SsmGrp → SsmGrp) (s : State) : (modSsm g f s).strm = s.strm := rfl
@[simp] theorem modSsm_time (g : Nat) (f : SsmGrp → SsmGrp) (s : State) : (modSsm g f s).time = s.time := rfl
@[simp] theorem modSsm_cad (g : Nat) (f : SsmGrp → SsmGrp) (s : State) : (modSsm g f s).cad = s.cad := rfl
@[simp] theorem modSsm_ptp (g : Nat) (f : SsmGrp → SsmGrp) (s : State) : (modSsm g f s).ptp = s.ptp := rfl
@[simp] theorem modSsm_dev (g : Nat) (f : SsmGrp → SsmGrp) (s : State) : (modSsm g f s).dev = s.dev := rfl
@[simp] theorem modSsm_jrn (g : Nat) (f : SsmGrp → SsmGrp) (s : State) : (modSsm g f s).jrn = s.jrn := rfl
@[simp] theorem modSsm_hub (g : Nat) (f : SsmGrp → SsmGrp) (s : State) : (modSsm g f s).hub = s.hub := rfl
@[simp] theorem modSsm_xl (g : Nat) (f : SsmGrp → SsmGrp) (s : State) : (modSsm g f s).xl = s.xl := rfl
@[simp] theorem modSsm_bus (g : Nat) (f : SsmGrp → SsmGrp) (s : State) : (modSsm g f s).bus = s.bus := rfl
@[simp] theorem modSsm_pel (g : Nat) (f : SsmGrp → SsmGrp) (s : State) : (modSsm g f s).pel = s.pel := rfl
@[simp] theorem modSsm_axes (g : Nat) (f : SsmGrp → SsmGrp) (s : State) : (modSsm g f s).axes = s.axes := rfl
@[simp] theorem modSsm_grps (g : Nat) (f : SsmGrp → SsmGrp) (s : State) : (modSsm g f s).grps = s.grps := rfl
@[simp] theorem modSsm_sig (g : Nat) (f : SsmGrp → SsmGrp) (s : State) : (modSsm g f s).sig = s.sig := rfl
@[simp] theorem modSsm_sch (g : Nat) (f : SsmGrp → SsmGrp) (s : State) : (modSsm g f s).sch = s.sch := rfl
@[simp] theorem modSsm_io (g : Nat) (f : SsmGrp → SsmGrp) (s : State) : (modSsm g f s).io = s.io := rfl
@[simp] theorem modSsm_stp (g : Nat) (f : SsmGrp → SsmGrp) (s : State) : (modSsm g f s).stp = s.stp := rfl
@[simp] theorem modSsm_qp (g : Nat) (f : SsmGrp → SsmGrp) (s : State) : (modSsm g f s).qp = s.qp := rfl
@[simp] theorem modSsm_trc (g : Nat) (f : SsmGrp → SsmGrp) (s : State) : (modSsm g f s).trc = s.trc := rfl
@[simp] theorem modSsm_eff (g : Nat) (f : SsmGrp → SsmGrp) (s : State) : (modSsm g f s).eff = s.eff := rfl
@[simp] theorem modSsm_tilesOut (g : Nat) (f : SsmGrp → SsmGrp) (s : State) : (modSsm g f s).tilesOut = s.tilesOut := rfl
@[simp] theorem modSsm_lanesOut (g : Nat) (f : SsmGrp → SsmGrp) (s : State) : (modSsm g f s).lanesOut = s.lanesOut := rfl
@[simp] theorem modSsm_out (g : Nat) (f : SsmGrp → SsmGrp) (s : State) : (modSsm g f s).out = s.out := rfl
@[simp] theorem modSsm_admitSeq (g : Nat) (f : SsmGrp → SsmGrp) (s : State) : (modSsm g f s).admitSeq = s.admitSeq := rfl
@[simp] theorem modSsm_free (g : Nat) (f : SsmGrp → SsmGrp) (s : State) : (modSsm g f s).free = s.free := rfl
@[simp] theorem modSsm_pending (g : Nat) (f : SsmGrp → SsmGrp) (s : State) : (modSsm g f s).pending = s.pending := rfl

@[simp] theorem setSens_host (n : Nat) (x : Sensor) (s : State) : (setSens n x s).host = s.host := rfl
@[simp] theorem setSens_evt (n : Nat) (x : Sensor) (s : State) : (setSens n x s).evt = s.evt := rfl
@[simp] theorem setSens_strm (n : Nat) (x : Sensor) (s : State) : (setSens n x s).strm = s.strm := rfl
@[simp] theorem setSens_time (n : Nat) (x : Sensor) (s : State) : (setSens n x s).time = s.time := rfl
@[simp] theorem setSens_cad (n : Nat) (x : Sensor) (s : State) : (setSens n x s).cad = s.cad := rfl
@[simp] theorem setSens_ptp (n : Nat) (x : Sensor) (s : State) : (setSens n x s).ptp = s.ptp := rfl
@[simp] theorem setSens_dev (n : Nat) (x : Sensor) (s : State) : (setSens n x s).dev = s.dev := rfl
@[simp] theorem setSens_jrn (n : Nat) (x : Sensor) (s : State) : (setSens n x s).jrn = s.jrn := rfl
@[simp] theorem setSens_hub (n : Nat) (x : Sensor) (s : State) : (setSens n x s).hub = s.hub := rfl
@[simp] theorem setSens_xl (n : Nat) (x : Sensor) (s : State) : (setSens n x s).xl = s.xl := rfl
@[simp] theorem setSens_bus (n : Nat) (x : Sensor) (s : State) : (setSens n x s).bus = s.bus := rfl
@[simp] theorem setSens_pel (n : Nat) (x : Sensor) (s : State) : (setSens n x s).pel = s.pel := rfl
@[simp] theorem setSens_axes (n : Nat) (x : Sensor) (s : State) : (setSens n x s).axes = s.axes := rfl
@[simp] theorem setSens_grps (n : Nat) (x : Sensor) (s : State) : (setSens n x s).grps = s.grps := rfl
@[simp] theorem setSens_sig (n : Nat) (x : Sensor) (s : State) : (setSens n x s).sig = s.sig := rfl
@[simp] theorem setSens_sch (n : Nat) (x : Sensor) (s : State) : (setSens n x s).sch = s.sch := rfl
@[simp] theorem setSens_io (n : Nat) (x : Sensor) (s : State) : (setSens n x s).io = s.io := rfl
@[simp] theorem setSens_stp (n : Nat) (x : Sensor) (s : State) : (setSens n x s).stp = s.stp := rfl
@[simp] theorem setSens_qp (n : Nat) (x : Sensor) (s : State) : (setSens n x s).qp = s.qp := rfl
@[simp] theorem setSens_trc (n : Nat) (x : Sensor) (s : State) : (setSens n x s).trc = s.trc := rfl
@[simp] theorem setSens_eff (n : Nat) (x : Sensor) (s : State) : (setSens n x s).eff = s.eff := rfl
@[simp] theorem setSens_tilesOut (n : Nat) (x : Sensor) (s : State) : (setSens n x s).tilesOut = s.tilesOut := rfl
@[simp] theorem setSens_lanesOut (n : Nat) (x : Sensor) (s : State) : (setSens n x s).lanesOut = s.lanesOut := rfl
@[simp] theorem setSens_out (n : Nat) (x : Sensor) (s : State) : (setSens n x s).out = s.out := rfl
@[simp] theorem setSens_admitSeq (n : Nat) (x : Sensor) (s : State) : (setSens n x s).admitSeq = s.admitSeq := rfl
@[simp] theorem setSens_free (n : Nat) (x : Sensor) (s : State) : (setSens n x s).free = s.free := rfl
@[simp] theorem setSens_pending (n : Nat) (x : Sensor) (s : State) : (setSens n x s).pending = s.pending := rfl

@[simp] theorem setQp_host (g : Nat) (x : QpGrp) (s : State) : (setQp g x s).host = s.host := rfl
@[simp] theorem setQp_evt (g : Nat) (x : QpGrp) (s : State) : (setQp g x s).evt = s.evt := rfl
@[simp] theorem setQp_strm (g : Nat) (x : QpGrp) (s : State) : (setQp g x s).strm = s.strm := rfl
@[simp] theorem setQp_time (g : Nat) (x : QpGrp) (s : State) : (setQp g x s).time = s.time := rfl
@[simp] theorem setQp_cad (g : Nat) (x : QpGrp) (s : State) : (setQp g x s).cad = s.cad := rfl
@[simp] theorem setQp_ptp (g : Nat) (x : QpGrp) (s : State) : (setQp g x s).ptp = s.ptp := rfl
@[simp] theorem setQp_dev (g : Nat) (x : QpGrp) (s : State) : (setQp g x s).dev = s.dev := rfl
@[simp] theorem setQp_jrn (g : Nat) (x : QpGrp) (s : State) : (setQp g x s).jrn = s.jrn := rfl
@[simp] theorem setQp_hub (g : Nat) (x : QpGrp) (s : State) : (setQp g x s).hub = s.hub := rfl
@[simp] theorem setQp_xl (g : Nat) (x : QpGrp) (s : State) : (setQp g x s).xl = s.xl := rfl
@[simp] theorem setQp_bus (g : Nat) (x : QpGrp) (s : State) : (setQp g x s).bus = s.bus := rfl
@[simp] theorem setQp_pel (g : Nat) (x : QpGrp) (s : State) : (setQp g x s).pel = s.pel := rfl
@[simp] theorem setQp_axes (g : Nat) (x : QpGrp) (s : State) : (setQp g x s).axes = s.axes := rfl
@[simp] theorem setQp_grps (g : Nat) (x : QpGrp) (s : State) : (setQp g x s).grps = s.grps := rfl
@[simp] theorem setQp_sig (g : Nat) (x : QpGrp) (s : State) : (setQp g x s).sig = s.sig := rfl
@[simp] theorem setQp_sch (g : Nat) (x : QpGrp) (s : State) : (setQp g x s).sch = s.sch := rfl
@[simp] theorem setQp_io (g : Nat) (x : QpGrp) (s : State) : (setQp g x s).io = s.io := rfl
@[simp] theorem setQp_stp (g : Nat) (x : QpGrp) (s : State) : (setQp g x s).stp = s.stp := rfl
@[simp] theorem setQp_trc (g : Nat) (x : QpGrp) (s : State) : (setQp g x s).trc = s.trc := rfl
@[simp] theorem setQp_ssm (g : Nat) (x : QpGrp) (s : State) : (setQp g x s).ssm = s.ssm := rfl
@[simp] theorem setQp_eff (g : Nat) (x : QpGrp) (s : State) : (setQp g x s).eff = s.eff := rfl
@[simp] theorem setQp_tilesOut (g : Nat) (x : QpGrp) (s : State) : (setQp g x s).tilesOut = s.tilesOut := rfl
@[simp] theorem setQp_lanesOut (g : Nat) (x : QpGrp) (s : State) : (setQp g x s).lanesOut = s.lanesOut := rfl
@[simp] theorem setQp_out (g : Nat) (x : QpGrp) (s : State) : (setQp g x s).out = s.out := rfl
@[simp] theorem setQp_admitSeq (g : Nat) (x : QpGrp) (s : State) : (setQp g x s).admitSeq = s.admitSeq := rfl
@[simp] theorem setQp_free (g : Nat) (x : QpGrp) (s : State) : (setQp g x s).free = s.free := rfl
@[simp] theorem setQp_pending (g : Nat) (x : QpGrp) (s : State) : (setQp g x s).pending = s.pending := rfl

@[simp] theorem modQp_host (g : Nat) (f : QpGrp → QpGrp) (s : State) : (modQp g f s).host = s.host := rfl
@[simp] theorem modQp_evt (g : Nat) (f : QpGrp → QpGrp) (s : State) : (modQp g f s).evt = s.evt := rfl
@[simp] theorem modQp_strm (g : Nat) (f : QpGrp → QpGrp) (s : State) : (modQp g f s).strm = s.strm := rfl
@[simp] theorem modQp_time (g : Nat) (f : QpGrp → QpGrp) (s : State) : (modQp g f s).time = s.time := rfl
@[simp] theorem modQp_cad (g : Nat) (f : QpGrp → QpGrp) (s : State) : (modQp g f s).cad = s.cad := rfl
@[simp] theorem modQp_ptp (g : Nat) (f : QpGrp → QpGrp) (s : State) : (modQp g f s).ptp = s.ptp := rfl
@[simp] theorem modQp_dev (g : Nat) (f : QpGrp → QpGrp) (s : State) : (modQp g f s).dev = s.dev := rfl
@[simp] theorem modQp_jrn (g : Nat) (f : QpGrp → QpGrp) (s : State) : (modQp g f s).jrn = s.jrn := rfl
@[simp] theorem modQp_hub (g : Nat) (f : QpGrp → QpGrp) (s : State) : (modQp g f s).hub = s.hub := rfl
@[simp] theorem modQp_xl (g : Nat) (f : QpGrp → QpGrp) (s : State) : (modQp g f s).xl = s.xl := rfl
@[simp] theorem modQp_bus (g : Nat) (f : QpGrp → QpGrp) (s : State) : (modQp g f s).bus = s.bus := rfl
@[simp] theorem modQp_pel (g : Nat) (f : QpGrp → QpGrp) (s : State) : (modQp g f s).pel = s.pel := rfl
@[simp] theorem modQp_axes (g : Nat) (f : QpGrp → QpGrp) (s : State) : (modQp g f s).axes = s.axes := rfl
@[simp] theorem modQp_grps (g : Nat) (f : QpGrp → QpGrp) (s : State) : (modQp g f s).grps = s.grps := rfl
@[simp] theorem modQp_sig (g : Nat) (f : QpGrp → QpGrp) (s : State) : (modQp g f s).sig = s.sig := rfl
@[simp] theorem modQp_sch (g : Nat) (f : QpGrp → QpGrp) (s : State) : (modQp g f s).sch = s.sch := rfl
@[simp] theorem modQp_io (g : Nat) (f : QpGrp → QpGrp) (s : State) : (modQp g f s).io = s.io := rfl
@[simp] theorem modQp_stp (g : Nat) (f : QpGrp → QpGrp) (s : State) : (modQp g f s).stp = s.stp := rfl
@[simp] theorem modQp_trc (g : Nat) (f : QpGrp → QpGrp) (s : State) : (modQp g f s).trc = s.trc := rfl
@[simp] theorem modQp_ssm (g : Nat) (f : QpGrp → QpGrp) (s : State) : (modQp g f s).ssm = s.ssm := rfl
@[simp] theorem modQp_eff (g : Nat) (f : QpGrp → QpGrp) (s : State) : (modQp g f s).eff = s.eff := rfl
@[simp] theorem modQp_tilesOut (g : Nat) (f : QpGrp → QpGrp) (s : State) : (modQp g f s).tilesOut = s.tilesOut := rfl
@[simp] theorem modQp_lanesOut (g : Nat) (f : QpGrp → QpGrp) (s : State) : (modQp g f s).lanesOut = s.lanesOut := rfl
@[simp] theorem modQp_out (g : Nat) (f : QpGrp → QpGrp) (s : State) : (modQp g f s).out = s.out := rfl
@[simp] theorem modQp_admitSeq (g : Nat) (f : QpGrp → QpGrp) (s : State) : (modQp g f s).admitSeq = s.admitSeq := rfl
@[simp] theorem modQp_free (g : Nat) (f : QpGrp → QpGrp) (s : State) : (modQp g f s).free = s.free := rfl
@[simp] theorem modQp_pending (g : Nat) (f : QpGrp → QpGrp) (s : State) : (modQp g f s).pending = s.pending := rfl

@[simp] theorem modScen_host (g j : Nat) (f : Scen → Scen) (s : State) : (modScen g j f s).host = s.host := rfl
@[simp] theorem modScen_evt (g j : Nat) (f : Scen → Scen) (s : State) : (modScen g j f s).evt = s.evt := rfl
@[simp] theorem modScen_strm (g j : Nat) (f : Scen → Scen) (s : State) : (modScen g j f s).strm = s.strm := rfl
@[simp] theorem modScen_time (g j : Nat) (f : Scen → Scen) (s : State) : (modScen g j f s).time = s.time := rfl
@[simp] theorem modScen_cad (g j : Nat) (f : Scen → Scen) (s : State) : (modScen g j f s).cad = s.cad := rfl
@[simp] theorem modScen_ptp (g j : Nat) (f : Scen → Scen) (s : State) : (modScen g j f s).ptp = s.ptp := rfl
@[simp] theorem modScen_dev (g j : Nat) (f : Scen → Scen) (s : State) : (modScen g j f s).dev = s.dev := rfl
@[simp] theorem modScen_jrn (g j : Nat) (f : Scen → Scen) (s : State) : (modScen g j f s).jrn = s.jrn := rfl
@[simp] theorem modScen_hub (g j : Nat) (f : Scen → Scen) (s : State) : (modScen g j f s).hub = s.hub := rfl
@[simp] theorem modScen_xl (g j : Nat) (f : Scen → Scen) (s : State) : (modScen g j f s).xl = s.xl := rfl
@[simp] theorem modScen_bus (g j : Nat) (f : Scen → Scen) (s : State) : (modScen g j f s).bus = s.bus := rfl
@[simp] theorem modScen_pel (g j : Nat) (f : Scen → Scen) (s : State) : (modScen g j f s).pel = s.pel := rfl
@[simp] theorem modScen_axes (g j : Nat) (f : Scen → Scen) (s : State) : (modScen g j f s).axes = s.axes := rfl
@[simp] theorem modScen_grps (g j : Nat) (f : Scen → Scen) (s : State) : (modScen g j f s).grps = s.grps := rfl
@[simp] theorem modScen_sig (g j : Nat) (f : Scen → Scen) (s : State) : (modScen g j f s).sig = s.sig := rfl
@[simp] theorem modScen_sch (g j : Nat) (f : Scen → Scen) (s : State) : (modScen g j f s).sch = s.sch := rfl
@[simp] theorem modScen_io (g j : Nat) (f : Scen → Scen) (s : State) : (modScen g j f s).io = s.io := rfl
@[simp] theorem modScen_stp (g j : Nat) (f : Scen → Scen) (s : State) : (modScen g j f s).stp = s.stp := rfl
@[simp] theorem modScen_trc (g j : Nat) (f : Scen → Scen) (s : State) : (modScen g j f s).trc = s.trc := rfl
@[simp] theorem modScen_ssm (g j : Nat) (f : Scen → Scen) (s : State) : (modScen g j f s).ssm = s.ssm := rfl
@[simp] theorem modScen_eff (g j : Nat) (f : Scen → Scen) (s : State) : (modScen g j f s).eff = s.eff := rfl
@[simp] theorem modScen_tilesOut (g j : Nat) (f : Scen → Scen) (s : State) : (modScen g j f s).tilesOut = s.tilesOut := rfl
@[simp] theorem modScen_lanesOut (g j : Nat) (f : Scen → Scen) (s : State) : (modScen g j f s).lanesOut = s.lanesOut := rfl
@[simp] theorem modScen_out (g j : Nat) (f : Scen → Scen) (s : State) : (modScen g j f s).out = s.out := rfl
@[simp] theorem modScen_admitSeq (g j : Nat) (f : Scen → Scen) (s : State) : (modScen g j f s).admitSeq = s.admitSeq := rfl
@[simp] theorem modScen_free (g j : Nat) (f : Scen → Scen) (s : State) : (modScen g j f s).free = s.free := rfl
@[simp] theorem modScen_pending (g j : Nat) (f : Scen → Scen) (s : State) : (modScen g j f s).pending = s.pending := rfl

@[simp] theorem setLane_host (u : Nat) (l : Lane) (s : State) : (setLane u l s).host = s.host := rfl
@[simp] theorem setLane_evt (u : Nat) (l : Lane) (s : State) : (setLane u l s).evt = s.evt := rfl
@[simp] theorem setLane_strm (u : Nat) (l : Lane) (s : State) : (setLane u l s).strm = s.strm := rfl
@[simp] theorem setLane_time (u : Nat) (l : Lane) (s : State) : (setLane u l s).time = s.time := rfl
@[simp] theorem setLane_cad (u : Nat) (l : Lane) (s : State) : (setLane u l s).cad = s.cad := rfl
@[simp] theorem setLane_ptp (u : Nat) (l : Lane) (s : State) : (setLane u l s).ptp = s.ptp := rfl
@[simp] theorem setLane_dev (u : Nat) (l : Lane) (s : State) : (setLane u l s).dev = s.dev := rfl
@[simp] theorem setLane_jrn (u : Nat) (l : Lane) (s : State) : (setLane u l s).jrn = s.jrn := rfl
@[simp] theorem setLane_hub (u : Nat) (l : Lane) (s : State) : (setLane u l s).hub = s.hub := rfl
@[simp] theorem setLane_xl (u : Nat) (l : Lane) (s : State) : (setLane u l s).xl = s.xl := rfl
@[simp] theorem setLane_bus (u : Nat) (l : Lane) (s : State) : (setLane u l s).bus = s.bus := rfl
@[simp] theorem setLane_pel (u : Nat) (l : Lane) (s : State) : (setLane u l s).pel = s.pel := rfl
@[simp] theorem setLane_axes (u : Nat) (l : Lane) (s : State) : (setLane u l s).axes = s.axes := rfl
@[simp] theorem setLane_grps (u : Nat) (l : Lane) (s : State) : (setLane u l s).grps = s.grps := rfl
@[simp] theorem setLane_sig (u : Nat) (l : Lane) (s : State) : (setLane u l s).sig = s.sig := rfl
@[simp] theorem setLane_sch (u : Nat) (l : Lane) (s : State) : (setLane u l s).sch = s.sch := rfl
@[simp] theorem setLane_io (u : Nat) (l : Lane) (s : State) : (setLane u l s).io = s.io := rfl
@[simp] theorem setLane_stp (u : Nat) (l : Lane) (s : State) : (setLane u l s).stp = s.stp := rfl
@[simp] theorem setLane_trc (u : Nat) (l : Lane) (s : State) : (setLane u l s).trc = s.trc := rfl
@[simp] theorem setLane_ssm (u : Nat) (l : Lane) (s : State) : (setLane u l s).ssm = s.ssm := rfl
@[simp] theorem setLane_eff (u : Nat) (l : Lane) (s : State) : (setLane u l s).eff = s.eff := rfl
@[simp] theorem setLane_tilesOut (u : Nat) (l : Lane) (s : State) : (setLane u l s).tilesOut = s.tilesOut := rfl
@[simp] theorem setLane_lanesOut (u : Nat) (l : Lane) (s : State) : (setLane u l s).lanesOut = s.lanesOut := rfl
@[simp] theorem setLane_out (u : Nat) (l : Lane) (s : State) : (setLane u l s).out = s.out := rfl
@[simp] theorem setLane_admitSeq (u : Nat) (l : Lane) (s : State) : (setLane u l s).admitSeq = s.admitSeq := rfl
@[simp] theorem setLane_free (u : Nat) (l : Lane) (s : State) : (setLane u l s).free = s.free := rfl
@[simp] theorem setLane_pending (u : Nat) (l : Lane) (s : State) : (setLane u l s).pending = s.pending := rfl

@[simp] theorem putRes_host (b : LaneJob) (r : ScenRes) (s : State) : (putRes b r s).host = s.host := rfl
@[simp] theorem putRes_evt (b : LaneJob) (r : ScenRes) (s : State) : (putRes b r s).evt = s.evt := rfl
@[simp] theorem putRes_strm (b : LaneJob) (r : ScenRes) (s : State) : (putRes b r s).strm = s.strm := rfl
@[simp] theorem putRes_time (b : LaneJob) (r : ScenRes) (s : State) : (putRes b r s).time = s.time := rfl
@[simp] theorem putRes_cad (b : LaneJob) (r : ScenRes) (s : State) : (putRes b r s).cad = s.cad := rfl
@[simp] theorem putRes_ptp (b : LaneJob) (r : ScenRes) (s : State) : (putRes b r s).ptp = s.ptp := rfl
@[simp] theorem putRes_dev (b : LaneJob) (r : ScenRes) (s : State) : (putRes b r s).dev = s.dev := rfl
@[simp] theorem putRes_jrn (b : LaneJob) (r : ScenRes) (s : State) : (putRes b r s).jrn = s.jrn := rfl
@[simp] theorem putRes_hub (b : LaneJob) (r : ScenRes) (s : State) : (putRes b r s).hub = s.hub := rfl
@[simp] theorem putRes_xl (b : LaneJob) (r : ScenRes) (s : State) : (putRes b r s).xl = s.xl := rfl
@[simp] theorem putRes_bus (b : LaneJob) (r : ScenRes) (s : State) : (putRes b r s).bus = s.bus := rfl
@[simp] theorem putRes_pel (b : LaneJob) (r : ScenRes) (s : State) : (putRes b r s).pel = s.pel := rfl
@[simp] theorem putRes_axes (b : LaneJob) (r : ScenRes) (s : State) : (putRes b r s).axes = s.axes := rfl
@[simp] theorem putRes_grps (b : LaneJob) (r : ScenRes) (s : State) : (putRes b r s).grps = s.grps := rfl
@[simp] theorem putRes_sig (b : LaneJob) (r : ScenRes) (s : State) : (putRes b r s).sig = s.sig := rfl
@[simp] theorem putRes_sch (b : LaneJob) (r : ScenRes) (s : State) : (putRes b r s).sch = s.sch := rfl
@[simp] theorem putRes_io (b : LaneJob) (r : ScenRes) (s : State) : (putRes b r s).io = s.io := rfl
@[simp] theorem putRes_stp (b : LaneJob) (r : ScenRes) (s : State) : (putRes b r s).stp = s.stp := rfl
@[simp] theorem putRes_trc (b : LaneJob) (r : ScenRes) (s : State) : (putRes b r s).trc = s.trc := rfl
@[simp] theorem putRes_ssm (b : LaneJob) (r : ScenRes) (s : State) : (putRes b r s).ssm = s.ssm := rfl
@[simp] theorem putRes_eff (b : LaneJob) (r : ScenRes) (s : State) : (putRes b r s).eff = s.eff := rfl
@[simp] theorem putRes_tilesOut (b : LaneJob) (r : ScenRes) (s : State) : (putRes b r s).tilesOut = s.tilesOut := rfl
@[simp] theorem putRes_lanesOut (b : LaneJob) (r : ScenRes) (s : State) : (putRes b r s).lanesOut = s.lanesOut := rfl
@[simp] theorem putRes_out (b : LaneJob) (r : ScenRes) (s : State) : (putRes b r s).out = s.out := rfl
@[simp] theorem putRes_admitSeq (b : LaneJob) (r : ScenRes) (s : State) : (putRes b r s).admitSeq = s.admitSeq := rfl
@[simp] theorem putRes_free (b : LaneJob) (r : ScenRes) (s : State) : (putRes b r s).free = s.free := rfl
@[simp] theorem putRes_pending (b : LaneJob) (r : ScenRes) (s : State) : (putRes b r s).pending = s.pending := rfl

@[simp] theorem setStrm_host (k : Nat) (h : Stream) (s : State) : (setStrm k h s).host = s.host := rfl
@[simp] theorem setStrm_evt (k : Nat) (h : Stream) (s : State) : (setStrm k h s).evt = s.evt := rfl
@[simp] theorem setStrm_time (k : Nat) (h : Stream) (s : State) : (setStrm k h s).time = s.time := rfl
@[simp] theorem setStrm_cad (k : Nat) (h : Stream) (s : State) : (setStrm k h s).cad = s.cad := rfl
@[simp] theorem setStrm_ptp (k : Nat) (h : Stream) (s : State) : (setStrm k h s).ptp = s.ptp := rfl
@[simp] theorem setStrm_dev (k : Nat) (h : Stream) (s : State) : (setStrm k h s).dev = s.dev := rfl
@[simp] theorem setStrm_jrn (k : Nat) (h : Stream) (s : State) : (setStrm k h s).jrn = s.jrn := rfl
@[simp] theorem setStrm_hub (k : Nat) (h : Stream) (s : State) : (setStrm k h s).hub = s.hub := rfl
@[simp] theorem setStrm_xl (k : Nat) (h : Stream) (s : State) : (setStrm k h s).xl = s.xl := rfl
@[simp] theorem setStrm_bus (k : Nat) (h : Stream) (s : State) : (setStrm k h s).bus = s.bus := rfl
@[simp] theorem setStrm_pel (k : Nat) (h : Stream) (s : State) : (setStrm k h s).pel = s.pel := rfl
@[simp] theorem setStrm_axes (k : Nat) (h : Stream) (s : State) : (setStrm k h s).axes = s.axes := rfl
@[simp] theorem setStrm_grps (k : Nat) (h : Stream) (s : State) : (setStrm k h s).grps = s.grps := rfl
@[simp] theorem setStrm_sig (k : Nat) (h : Stream) (s : State) : (setStrm k h s).sig = s.sig := rfl
@[simp] theorem setStrm_sch (k : Nat) (h : Stream) (s : State) : (setStrm k h s).sch = s.sch := rfl
@[simp] theorem setStrm_io (k : Nat) (h : Stream) (s : State) : (setStrm k h s).io = s.io := rfl
@[simp] theorem setStrm_stp (k : Nat) (h : Stream) (s : State) : (setStrm k h s).stp = s.stp := rfl
@[simp] theorem setStrm_qp (k : Nat) (h : Stream) (s : State) : (setStrm k h s).qp = s.qp := rfl
@[simp] theorem setStrm_trc (k : Nat) (h : Stream) (s : State) : (setStrm k h s).trc = s.trc := rfl
@[simp] theorem setStrm_ssm (k : Nat) (h : Stream) (s : State) : (setStrm k h s).ssm = s.ssm := rfl
@[simp] theorem setStrm_eff (k : Nat) (h : Stream) (s : State) : (setStrm k h s).eff = s.eff := rfl
@[simp] theorem setStrm_tilesOut (k : Nat) (h : Stream) (s : State) : (setStrm k h s).tilesOut = s.tilesOut := rfl
@[simp] theorem setStrm_lanesOut (k : Nat) (h : Stream) (s : State) : (setStrm k h s).lanesOut = s.lanesOut := rfl
@[simp] theorem setStrm_out (k : Nat) (h : Stream) (s : State) : (setStrm k h s).out = s.out := rfl
@[simp] theorem setStrm_admitSeq (k : Nat) (h : Stream) (s : State) : (setStrm k h s).admitSeq = s.admitSeq := rfl
@[simp] theorem setStrm_free (k : Nat) (h : Stream) (s : State) : (setStrm k h s).free = s.free := rfl
@[simp] theorem setStrm_pending (k : Nat) (h : Stream) (s : State) : (setStrm k h s).pending = s.pending := rfl

@[simp] theorem reqFault_host (a code : Nat) (s : State) : (reqFault a code s).host = s.host := rfl
@[simp] theorem reqFault_evt (a code : Nat) (s : State) : (reqFault a code s).evt = s.evt := rfl
@[simp] theorem reqFault_strm (a code : Nat) (s : State) : (reqFault a code s).strm = s.strm := rfl
@[simp] theorem reqFault_time (a code : Nat) (s : State) : (reqFault a code s).time = s.time := rfl
@[simp] theorem reqFault_cad (a code : Nat) (s : State) : (reqFault a code s).cad = s.cad := rfl
@[simp] theorem reqFault_ptp (a code : Nat) (s : State) : (reqFault a code s).ptp = s.ptp := rfl
@[simp] theorem reqFault_dev (a code : Nat) (s : State) : (reqFault a code s).dev = s.dev := rfl
@[simp] theorem reqFault_jrn (a code : Nat) (s : State) : (reqFault a code s).jrn = s.jrn := rfl
@[simp] theorem reqFault_hub (a code : Nat) (s : State) : (reqFault a code s).hub = s.hub := rfl
@[simp] theorem reqFault_xl (a code : Nat) (s : State) : (reqFault a code s).xl = s.xl := rfl
@[simp] theorem reqFault_bus (a code : Nat) (s : State) : (reqFault a code s).bus = s.bus := rfl
@[simp] theorem reqFault_pel (a code : Nat) (s : State) : (reqFault a code s).pel = s.pel := rfl
@[simp] theorem reqFault_grps (a code : Nat) (s : State) : (reqFault a code s).grps = s.grps := rfl
@[simp] theorem reqFault_sig (a code : Nat) (s : State) : (reqFault a code s).sig = s.sig := rfl
@[simp] theorem reqFault_sch (a code : Nat) (s : State) : (reqFault a code s).sch = s.sch := rfl
@[simp] theorem reqFault_io (a code : Nat) (s : State) : (reqFault a code s).io = s.io := rfl
@[simp] theorem reqFault_stp (a code : Nat) (s : State) : (reqFault a code s).stp = s.stp := rfl
@[simp] theorem reqFault_qp (a code : Nat) (s : State) : (reqFault a code s).qp = s.qp := rfl
@[simp] theorem reqFault_trc (a code : Nat) (s : State) : (reqFault a code s).trc = s.trc := rfl
@[simp] theorem reqFault_ssm (a code : Nat) (s : State) : (reqFault a code s).ssm = s.ssm := rfl
@[simp] theorem reqFault_eff (a code : Nat) (s : State) : (reqFault a code s).eff = s.eff := rfl
@[simp] theorem reqFault_tilesOut (a code : Nat) (s : State) : (reqFault a code s).tilesOut = s.tilesOut := rfl
@[simp] theorem reqFault_lanesOut (a code : Nat) (s : State) : (reqFault a code s).lanesOut = s.lanesOut := rfl
@[simp] theorem reqFault_out (a code : Nat) (s : State) : (reqFault a code s).out = s.out := rfl
@[simp] theorem reqFault_admitSeq (a code : Nat) (s : State) : (reqFault a code s).admitSeq = s.admitSeq := rfl
@[simp] theorem reqFault_free (a code : Nat) (s : State) : (reqFault a code s).free = s.free := rfl
@[simp] theorem reqFault_pending (a code : Nat) (s : State) : (reqFault a code s).pending = s.pending := rfl

@[simp] theorem reqStopGrp_host (g cat : Nat) (s : State) : (reqStopGrp g cat s).host = s.host := rfl
@[simp] theorem reqStopGrp_evt (g cat : Nat) (s : State) : (reqStopGrp g cat s).evt = s.evt := rfl
@[simp] theorem reqStopGrp_strm (g cat : Nat) (s : State) : (reqStopGrp g cat s).strm = s.strm := rfl
@[simp] theorem reqStopGrp_time (g cat : Nat) (s : State) : (reqStopGrp g cat s).time = s.time := rfl
@[simp] theorem reqStopGrp_cad (g cat : Nat) (s : State) : (reqStopGrp g cat s).cad = s.cad := rfl
@[simp] theorem reqStopGrp_ptp (g cat : Nat) (s : State) : (reqStopGrp g cat s).ptp = s.ptp := rfl
@[simp] theorem reqStopGrp_dev (g cat : Nat) (s : State) : (reqStopGrp g cat s).dev = s.dev := rfl
@[simp] theorem reqStopGrp_jrn (g cat : Nat) (s : State) : (reqStopGrp g cat s).jrn = s.jrn := rfl
@[simp] theorem reqStopGrp_hub (g cat : Nat) (s : State) : (reqStopGrp g cat s).hub = s.hub := rfl
@[simp] theorem reqStopGrp_xl (g cat : Nat) (s : State) : (reqStopGrp g cat s).xl = s.xl := rfl
@[simp] theorem reqStopGrp_bus (g cat : Nat) (s : State) : (reqStopGrp g cat s).bus = s.bus := rfl
@[simp] theorem reqStopGrp_pel (g cat : Nat) (s : State) : (reqStopGrp g cat s).pel = s.pel := rfl
@[simp] theorem reqStopGrp_axes (g cat : Nat) (s : State) : (reqStopGrp g cat s).axes = s.axes := rfl
@[simp] theorem reqStopGrp_sig (g cat : Nat) (s : State) : (reqStopGrp g cat s).sig = s.sig := rfl
@[simp] theorem reqStopGrp_sch (g cat : Nat) (s : State) : (reqStopGrp g cat s).sch = s.sch := rfl
@[simp] theorem reqStopGrp_io (g cat : Nat) (s : State) : (reqStopGrp g cat s).io = s.io := rfl
@[simp] theorem reqStopGrp_stp (g cat : Nat) (s : State) : (reqStopGrp g cat s).stp = s.stp := rfl
@[simp] theorem reqStopGrp_qp (g cat : Nat) (s : State) : (reqStopGrp g cat s).qp = s.qp := rfl
@[simp] theorem reqStopGrp_trc (g cat : Nat) (s : State) : (reqStopGrp g cat s).trc = s.trc := rfl
@[simp] theorem reqStopGrp_ssm (g cat : Nat) (s : State) : (reqStopGrp g cat s).ssm = s.ssm := rfl
@[simp] theorem reqStopGrp_eff (g cat : Nat) (s : State) : (reqStopGrp g cat s).eff = s.eff := rfl
@[simp] theorem reqStopGrp_tilesOut (g cat : Nat) (s : State) : (reqStopGrp g cat s).tilesOut = s.tilesOut := rfl
@[simp] theorem reqStopGrp_lanesOut (g cat : Nat) (s : State) : (reqStopGrp g cat s).lanesOut = s.lanesOut := rfl
@[simp] theorem reqStopGrp_out (g cat : Nat) (s : State) : (reqStopGrp g cat s).out = s.out := rfl
@[simp] theorem reqStopGrp_admitSeq (g cat : Nat) (s : State) : (reqStopGrp g cat s).admitSeq = s.admitSeq := rfl
@[simp] theorem reqStopGrp_free (g cat : Nat) (s : State) : (reqStopGrp g cat s).free = s.free := rfl
@[simp] theorem reqStopGrp_pending (g cat : Nat) (s : State) : (reqStopGrp g cat s).pending = s.pending := rfl

@[simp] theorem reqStopAxis_host (a cat : Nat) (s : State) : (reqStopAxis a cat s).host = s.host := rfl
@[simp] theorem reqStopAxis_evt (a cat : Nat) (s : State) : (reqStopAxis a cat s).evt = s.evt := rfl
@[simp] theorem reqStopAxis_strm (a cat : Nat) (s : State) : (reqStopAxis a cat s).strm = s.strm := rfl
@[simp] theorem reqStopAxis_time (a cat : Nat) (s : State) : (reqStopAxis a cat s).time = s.time := rfl
@[simp] theorem reqStopAxis_cad (a cat : Nat) (s : State) : (reqStopAxis a cat s).cad = s.cad := rfl
@[simp] theorem reqStopAxis_ptp (a cat : Nat) (s : State) : (reqStopAxis a cat s).ptp = s.ptp := rfl
@[simp] theorem reqStopAxis_dev (a cat : Nat) (s : State) : (reqStopAxis a cat s).dev = s.dev := rfl
@[simp] theorem reqStopAxis_jrn (a cat : Nat) (s : State) : (reqStopAxis a cat s).jrn = s.jrn := rfl
@[simp] theorem reqStopAxis_hub (a cat : Nat) (s : State) : (reqStopAxis a cat s).hub = s.hub := rfl
@[simp] theorem reqStopAxis_xl (a cat : Nat) (s : State) : (reqStopAxis a cat s).xl = s.xl := rfl
@[simp] theorem reqStopAxis_bus (a cat : Nat) (s : State) : (reqStopAxis a cat s).bus = s.bus := rfl
@[simp] theorem reqStopAxis_pel (a cat : Nat) (s : State) : (reqStopAxis a cat s).pel = s.pel := rfl
@[simp] theorem reqStopAxis_grps (a cat : Nat) (s : State) : (reqStopAxis a cat s).grps = s.grps := rfl
@[simp] theorem reqStopAxis_sig (a cat : Nat) (s : State) : (reqStopAxis a cat s).sig = s.sig := rfl
@[simp] theorem reqStopAxis_sch (a cat : Nat) (s : State) : (reqStopAxis a cat s).sch = s.sch := rfl
@[simp] theorem reqStopAxis_io (a cat : Nat) (s : State) : (reqStopAxis a cat s).io = s.io := rfl
@[simp] theorem reqStopAxis_stp (a cat : Nat) (s : State) : (reqStopAxis a cat s).stp = s.stp := rfl
@[simp] theorem reqStopAxis_qp (a cat : Nat) (s : State) : (reqStopAxis a cat s).qp = s.qp := rfl
@[simp] theorem reqStopAxis_trc (a cat : Nat) (s : State) : (reqStopAxis a cat s).trc = s.trc := rfl
@[simp] theorem reqStopAxis_ssm (a cat : Nat) (s : State) : (reqStopAxis a cat s).ssm = s.ssm := rfl
@[simp] theorem reqStopAxis_eff (a cat : Nat) (s : State) : (reqStopAxis a cat s).eff = s.eff := rfl
@[simp] theorem reqStopAxis_tilesOut (a cat : Nat) (s : State) : (reqStopAxis a cat s).tilesOut = s.tilesOut := rfl
@[simp] theorem reqStopAxis_lanesOut (a cat : Nat) (s : State) : (reqStopAxis a cat s).lanesOut = s.lanesOut := rfl
@[simp] theorem reqStopAxis_out (a cat : Nat) (s : State) : (reqStopAxis a cat s).out = s.out := rfl
@[simp] theorem reqStopAxis_admitSeq (a cat : Nat) (s : State) : (reqStopAxis a cat s).admitSeq = s.admitSeq := rfl
@[simp] theorem reqStopAxis_free (a cat : Nat) (s : State) : (reqStopAxis a cat s).free = s.free := rfl
@[simp] theorem reqStopAxis_pending (a cat : Nat) (s : State) : (reqStopAxis a cat s).pending = s.pending := rfl

@[simp] theorem post_host (c : Cmd) (s : State) : (post c s).host = s.host := rfl
@[simp] theorem post_evt (c : Cmd) (s : State) : (post c s).evt = s.evt := rfl
@[simp] theorem post_strm (c : Cmd) (s : State) : (post c s).strm = s.strm := rfl
@[simp] theorem post_time (c : Cmd) (s : State) : (post c s).time = s.time := rfl
@[simp] theorem post_cad (c : Cmd) (s : State) : (post c s).cad = s.cad := rfl
@[simp] theorem post_ptp (c : Cmd) (s : State) : (post c s).ptp = s.ptp := rfl
@[simp] theorem post_dev (c : Cmd) (s : State) : (post c s).dev = s.dev := rfl
@[simp] theorem post_jrn (c : Cmd) (s : State) : (post c s).jrn = s.jrn := rfl
@[simp] theorem post_hub (c : Cmd) (s : State) : (post c s).hub = s.hub := rfl
@[simp] theorem post_xl (c : Cmd) (s : State) : (post c s).xl = s.xl := rfl
@[simp] theorem post_bus (c : Cmd) (s : State) : (post c s).bus = s.bus := rfl
@[simp] theorem post_pel (c : Cmd) (s : State) : (post c s).pel = s.pel := rfl
@[simp] theorem post_axes (c : Cmd) (s : State) : (post c s).axes = s.axes := rfl
@[simp] theorem post_grps (c : Cmd) (s : State) : (post c s).grps = s.grps := rfl
@[simp] theorem post_sig (c : Cmd) (s : State) : (post c s).sig = s.sig := rfl
@[simp] theorem post_sch (c : Cmd) (s : State) : (post c s).sch = s.sch := rfl
@[simp] theorem post_io (c : Cmd) (s : State) : (post c s).io = s.io := rfl
@[simp] theorem post_stp (c : Cmd) (s : State) : (post c s).stp = s.stp := rfl
@[simp] theorem post_qp (c : Cmd) (s : State) : (post c s).qp = s.qp := rfl
@[simp] theorem post_trc (c : Cmd) (s : State) : (post c s).trc = s.trc := rfl
@[simp] theorem post_ssm (c : Cmd) (s : State) : (post c s).ssm = s.ssm := rfl
@[simp] theorem post_tilesOut (c : Cmd) (s : State) : (post c s).tilesOut = s.tilesOut := rfl
@[simp] theorem post_lanesOut (c : Cmd) (s : State) : (post c s).lanesOut = s.lanesOut := rfl
@[simp] theorem post_out (c : Cmd) (s : State) : (post c s).out = s.out := rfl
@[simp] theorem post_admitSeq (c : Cmd) (s : State) : (post c s).admitSeq = s.admitSeq := rfl
@[simp] theorem post_free (c : Cmd) (s : State) : (post c s).free = s.free := rfl
@[simp] theorem post_pending (c : Cmd) (s : State) : (post c s).pending = s.pending := rfl

@[simp] theorem homeGo_host (a : Nat) (st : HomeStep) (s : State) : (homeGo a st s).host = s.host := rfl
@[simp] theorem homeGo_evt (a : Nat) (st : HomeStep) (s : State) : (homeGo a st s).evt = s.evt := rfl
@[simp] theorem homeGo_strm (a : Nat) (st : HomeStep) (s : State) : (homeGo a st s).strm = s.strm := rfl
@[simp] theorem homeGo_time (a : Nat) (st : HomeStep) (s : State) : (homeGo a st s).time = s.time := rfl
@[simp] theorem homeGo_cad (a : Nat) (st : HomeStep) (s : State) : (homeGo a st s).cad = s.cad := rfl
@[simp] theorem homeGo_ptp (a : Nat) (st : HomeStep) (s : State) : (homeGo a st s).ptp = s.ptp := rfl
@[simp] theorem homeGo_dev (a : Nat) (st : HomeStep) (s : State) : (homeGo a st s).dev = s.dev := rfl
@[simp] theorem homeGo_jrn (a : Nat) (st : HomeStep) (s : State) : (homeGo a st s).jrn = s.jrn := rfl
@[simp] theorem homeGo_hub (a : Nat) (st : HomeStep) (s : State) : (homeGo a st s).hub = s.hub := rfl
@[simp] theorem homeGo_xl (a : Nat) (st : HomeStep) (s : State) : (homeGo a st s).xl = s.xl := rfl
@[simp] theorem homeGo_bus (a : Nat) (st : HomeStep) (s : State) : (homeGo a st s).bus = s.bus := rfl
@[simp] theorem homeGo_pel (a : Nat) (st : HomeStep) (s : State) : (homeGo a st s).pel = s.pel := rfl
@[simp] theorem homeGo_grps (a : Nat) (st : HomeStep) (s : State) : (homeGo a st s).grps = s.grps := rfl
@[simp] theorem homeGo_sig (a : Nat) (st : HomeStep) (s : State) : (homeGo a st s).sig = s.sig := rfl
@[simp] theorem homeGo_sch (a : Nat) (st : HomeStep) (s : State) : (homeGo a st s).sch = s.sch := rfl
@[simp] theorem homeGo_io (a : Nat) (st : HomeStep) (s : State) : (homeGo a st s).io = s.io := rfl
@[simp] theorem homeGo_stp (a : Nat) (st : HomeStep) (s : State) : (homeGo a st s).stp = s.stp := rfl
@[simp] theorem homeGo_qp (a : Nat) (st : HomeStep) (s : State) : (homeGo a st s).qp = s.qp := rfl
@[simp] theorem homeGo_trc (a : Nat) (st : HomeStep) (s : State) : (homeGo a st s).trc = s.trc := rfl
@[simp] theorem homeGo_ssm (a : Nat) (st : HomeStep) (s : State) : (homeGo a st s).ssm = s.ssm := rfl
@[simp] theorem homeGo_eff (a : Nat) (st : HomeStep) (s : State) : (homeGo a st s).eff = s.eff := rfl
@[simp] theorem homeGo_tilesOut (a : Nat) (st : HomeStep) (s : State) : (homeGo a st s).tilesOut = s.tilesOut := rfl
@[simp] theorem homeGo_lanesOut (a : Nat) (st : HomeStep) (s : State) : (homeGo a st s).lanesOut = s.lanesOut := rfl
@[simp] theorem homeGo_out (a : Nat) (st : HomeStep) (s : State) : (homeGo a st s).out = s.out := rfl
@[simp] theorem homeGo_admitSeq (a : Nat) (st : HomeStep) (s : State) : (homeGo a st s).admitSeq = s.admitSeq := rfl
@[simp] theorem homeGo_free (a : Nat) (st : HomeStep) (s : State) : (homeGo a st s).free = s.free := rfl
@[simp] theorem homeGo_pending (a : Nat) (st : HomeStep) (s : State) : (homeGo a st s).pending = s.pending := rfl

@[simp] theorem modRec_host (f : BootRec → BootRec) (s : State) : (modRec f s).host = s.host := rfl
@[simp] theorem modRec_evt (f : BootRec → BootRec) (s : State) : (modRec f s).evt = s.evt := rfl
@[simp] theorem modRec_strm (f : BootRec → BootRec) (s : State) : (modRec f s).strm = s.strm := rfl
@[simp] theorem modRec_time (f : BootRec → BootRec) (s : State) : (modRec f s).time = s.time := rfl
@[simp] theorem modRec_cad (f : BootRec → BootRec) (s : State) : (modRec f s).cad = s.cad := rfl
@[simp] theorem modRec_ptp (f : BootRec → BootRec) (s : State) : (modRec f s).ptp = s.ptp := rfl
@[simp] theorem modRec_jrn (f : BootRec → BootRec) (s : State) : (modRec f s).jrn = s.jrn := rfl
@[simp] theorem modRec_hub (f : BootRec → BootRec) (s : State) : (modRec f s).hub = s.hub := rfl
@[simp] theorem modRec_xl (f : BootRec → BootRec) (s : State) : (modRec f s).xl = s.xl := rfl
@[simp] theorem modRec_bus (f : BootRec → BootRec) (s : State) : (modRec f s).bus = s.bus := rfl
@[simp] theorem modRec_pel (f : BootRec → BootRec) (s : State) : (modRec f s).pel = s.pel := rfl
@[simp] theorem modRec_axes (f : BootRec → BootRec) (s : State) : (modRec f s).axes = s.axes := rfl
@[simp] theorem modRec_grps (f : BootRec → BootRec) (s : State) : (modRec f s).grps = s.grps := rfl
@[simp] theorem modRec_sig (f : BootRec → BootRec) (s : State) : (modRec f s).sig = s.sig := rfl
@[simp] theorem modRec_sch (f : BootRec → BootRec) (s : State) : (modRec f s).sch = s.sch := rfl
@[simp] theorem modRec_io (f : BootRec → BootRec) (s : State) : (modRec f s).io = s.io := rfl
@[simp] theorem modRec_stp (f : BootRec → BootRec) (s : State) : (modRec f s).stp = s.stp := rfl
@[simp] theorem modRec_qp (f : BootRec → BootRec) (s : State) : (modRec f s).qp = s.qp := rfl
@[simp] theorem modRec_trc (f : BootRec → BootRec) (s : State) : (modRec f s).trc = s.trc := rfl
@[simp] theorem modRec_ssm (f : BootRec → BootRec) (s : State) : (modRec f s).ssm = s.ssm := rfl
@[simp] theorem modRec_eff (f : BootRec → BootRec) (s : State) : (modRec f s).eff = s.eff := rfl
@[simp] theorem modRec_tilesOut (f : BootRec → BootRec) (s : State) : (modRec f s).tilesOut = s.tilesOut := rfl
@[simp] theorem modRec_lanesOut (f : BootRec → BootRec) (s : State) : (modRec f s).lanesOut = s.lanesOut := rfl
@[simp] theorem modRec_out (f : BootRec → BootRec) (s : State) : (modRec f s).out = s.out := rfl
@[simp] theorem modRec_admitSeq (f : BootRec → BootRec) (s : State) : (modRec f s).admitSeq = s.admitSeq := rfl
@[simp] theorem modRec_free (f : BootRec → BootRec) (s : State) : (modRec f s).free = s.free := rfl
@[simp] theorem modRec_pending (f : BootRec → BootRec) (s : State) : (modRec f s).pending = s.pending := rfl

@[simp] theorem modFuses_host (f : Fuses → Fuses) (s : State) : (modFuses f s).host = s.host := rfl
@[simp] theorem modFuses_evt (f : Fuses → Fuses) (s : State) : (modFuses f s).evt = s.evt := rfl
@[simp] theorem modFuses_strm (f : Fuses → Fuses) (s : State) : (modFuses f s).strm = s.strm := rfl
@[simp] theorem modFuses_time (f : Fuses → Fuses) (s : State) : (modFuses f s).time = s.time := rfl
@[simp] theorem modFuses_cad (f : Fuses → Fuses) (s : State) : (modFuses f s).cad = s.cad := rfl
@[simp] theorem modFuses_ptp (f : Fuses → Fuses) (s : State) : (modFuses f s).ptp = s.ptp := rfl
@[simp] theorem modFuses_jrn (f : Fuses → Fuses) (s : State) : (modFuses f s).jrn = s.jrn := rfl
@[simp] theorem modFuses_hub (f : Fuses → Fuses) (s : State) : (modFuses f s).hub = s.hub := rfl
@[simp] theorem modFuses_xl (f : Fuses → Fuses) (s : State) : (modFuses f s).xl = s.xl := rfl
@[simp] theorem modFuses_bus (f : Fuses → Fuses) (s : State) : (modFuses f s).bus = s.bus := rfl
@[simp] theorem modFuses_pel (f : Fuses → Fuses) (s : State) : (modFuses f s).pel = s.pel := rfl
@[simp] theorem modFuses_axes (f : Fuses → Fuses) (s : State) : (modFuses f s).axes = s.axes := rfl
@[simp] theorem modFuses_grps (f : Fuses → Fuses) (s : State) : (modFuses f s).grps = s.grps := rfl
@[simp] theorem modFuses_sig (f : Fuses → Fuses) (s : State) : (modFuses f s).sig = s.sig := rfl
@[simp] theorem modFuses_sch (f : Fuses → Fuses) (s : State) : (modFuses f s).sch = s.sch := rfl
@[simp] theorem modFuses_io (f : Fuses → Fuses) (s : State) : (modFuses f s).io = s.io := rfl
@[simp] theorem modFuses_stp (f : Fuses → Fuses) (s : State) : (modFuses f s).stp = s.stp := rfl
@[simp] theorem modFuses_qp (f : Fuses → Fuses) (s : State) : (modFuses f s).qp = s.qp := rfl
@[simp] theorem modFuses_trc (f : Fuses → Fuses) (s : State) : (modFuses f s).trc = s.trc := rfl
@[simp] theorem modFuses_ssm (f : Fuses → Fuses) (s : State) : (modFuses f s).ssm = s.ssm := rfl
@[simp] theorem modFuses_eff (f : Fuses → Fuses) (s : State) : (modFuses f s).eff = s.eff := rfl
@[simp] theorem modFuses_tilesOut (f : Fuses → Fuses) (s : State) : (modFuses f s).tilesOut = s.tilesOut := rfl
@[simp] theorem modFuses_lanesOut (f : Fuses → Fuses) (s : State) : (modFuses f s).lanesOut = s.lanesOut := rfl
@[simp] theorem modFuses_out (f : Fuses → Fuses) (s : State) : (modFuses f s).out = s.out := rfl
@[simp] theorem modFuses_admitSeq (f : Fuses → Fuses) (s : State) : (modFuses f s).admitSeq = s.admitSeq := rfl
@[simp] theorem modFuses_free (f : Fuses → Fuses) (s : State) : (modFuses f s).free = s.free := rfl
@[simp] theorem modFuses_pending (f : Fuses → Fuses) (s : State) : (modFuses f s).pending = s.pending := rfl

@[simp] theorem setDir_host (d : Die) (x : XDir) (s : State) : (setDir d x s).host = s.host := by unfold setDir; split <;> rfl
@[simp] theorem setDir_evt (d : Die) (x : XDir) (s : State) : (setDir d x s).evt = s.evt := by unfold setDir; split <;> rfl
@[simp] theorem setDir_strm (d : Die) (x : XDir) (s : State) : (setDir d x s).strm = s.strm := by unfold setDir; split <;> rfl
@[simp] theorem setDir_time (d : Die) (x : XDir) (s : State) : (setDir d x s).time = s.time := by unfold setDir; split <;> rfl
@[simp] theorem setDir_cad (d : Die) (x : XDir) (s : State) : (setDir d x s).cad = s.cad := by unfold setDir; split <;> rfl
@[simp] theorem setDir_ptp (d : Die) (x : XDir) (s : State) : (setDir d x s).ptp = s.ptp := by unfold setDir; split <;> rfl
@[simp] theorem setDir_dev (d : Die) (x : XDir) (s : State) : (setDir d x s).dev = s.dev := by unfold setDir; split <;> rfl
@[simp] theorem setDir_jrn (d : Die) (x : XDir) (s : State) : (setDir d x s).jrn = s.jrn := by unfold setDir; split <;> rfl
@[simp] theorem setDir_hub (d : Die) (x : XDir) (s : State) : (setDir d x s).hub = s.hub := by unfold setDir; split <;> rfl
@[simp] theorem setDir_bus (d : Die) (x : XDir) (s : State) : (setDir d x s).bus = s.bus := by unfold setDir; split <;> rfl
@[simp] theorem setDir_pel (d : Die) (x : XDir) (s : State) : (setDir d x s).pel = s.pel := by unfold setDir; split <;> rfl
@[simp] theorem setDir_axes (d : Die) (x : XDir) (s : State) : (setDir d x s).axes = s.axes := by unfold setDir; split <;> rfl
@[simp] theorem setDir_grps (d : Die) (x : XDir) (s : State) : (setDir d x s).grps = s.grps := by unfold setDir; split <;> rfl
@[simp] theorem setDir_sig (d : Die) (x : XDir) (s : State) : (setDir d x s).sig = s.sig := by unfold setDir; split <;> rfl
@[simp] theorem setDir_sch (d : Die) (x : XDir) (s : State) : (setDir d x s).sch = s.sch := by unfold setDir; split <;> rfl
@[simp] theorem setDir_io (d : Die) (x : XDir) (s : State) : (setDir d x s).io = s.io := by unfold setDir; split <;> rfl
@[simp] theorem setDir_stp (d : Die) (x : XDir) (s : State) : (setDir d x s).stp = s.stp := by unfold setDir; split <;> rfl
@[simp] theorem setDir_qp (d : Die) (x : XDir) (s : State) : (setDir d x s).qp = s.qp := by unfold setDir; split <;> rfl
@[simp] theorem setDir_trc (d : Die) (x : XDir) (s : State) : (setDir d x s).trc = s.trc := by unfold setDir; split <;> rfl
@[simp] theorem setDir_ssm (d : Die) (x : XDir) (s : State) : (setDir d x s).ssm = s.ssm := by unfold setDir; split <;> rfl
@[simp] theorem setDir_eff (d : Die) (x : XDir) (s : State) : (setDir d x s).eff = s.eff := by unfold setDir; split <;> rfl
@[simp] theorem setDir_tilesOut (d : Die) (x : XDir) (s : State) : (setDir d x s).tilesOut = s.tilesOut := by unfold setDir; split <;> rfl
@[simp] theorem setDir_lanesOut (d : Die) (x : XDir) (s : State) : (setDir d x s).lanesOut = s.lanesOut := by unfold setDir; split <;> rfl
@[simp] theorem setDir_out (d : Die) (x : XDir) (s : State) : (setDir d x s).out = s.out := by unfold setDir; split <;> rfl
@[simp] theorem setDir_admitSeq (d : Die) (x : XDir) (s : State) : (setDir d x s).admitSeq = s.admitSeq := by unfold setDir; split <;> rfl
@[simp] theorem setDir_free (d : Die) (x : XDir) (s : State) : (setDir d x s).free = s.free := by unfold setDir; split <;> rfl
@[simp] theorem setDir_pending (d : Die) (x : XDir) (s : State) : (setDir d x s).pending = s.pending := by unfold setDir; split <;> rfl

@[simp] theorem announce_host (step : Bool) (d : Int) (at' : Nat) (s : State) : (announce step d at' s).host = s.host := rfl
@[simp] theorem announce_evt (step : Bool) (d : Int) (at' : Nat) (s : State) : (announce step d at' s).evt = s.evt := rfl
@[simp] theorem announce_strm (step : Bool) (d : Int) (at' : Nat) (s : State) : (announce step d at' s).strm = s.strm := rfl
@[simp] theorem announce_time (step : Bool) (d : Int) (at' : Nat) (s : State) : (announce step d at' s).time = s.time := rfl
@[simp] theorem announce_cad (step : Bool) (d : Int) (at' : Nat) (s : State) : (announce step d at' s).cad = s.cad := rfl
@[simp] theorem announce_ptp (step : Bool) (d : Int) (at' : Nat) (s : State) : (announce step d at' s).ptp = s.ptp := rfl
@[simp] theorem announce_dev (step : Bool) (d : Int) (at' : Nat) (s : State) : (announce step d at' s).dev = s.dev := rfl
@[simp] theorem announce_jrn (step : Bool) (d : Int) (at' : Nat) (s : State) : (announce step d at' s).jrn = s.jrn := rfl
@[simp] theorem announce_hub (step : Bool) (d : Int) (at' : Nat) (s : State) : (announce step d at' s).hub = s.hub := rfl
@[simp] theorem announce_xl (step : Bool) (d : Int) (at' : Nat) (s : State) : (announce step d at' s).xl = s.xl := rfl
@[simp] theorem announce_bus (step : Bool) (d : Int) (at' : Nat) (s : State) : (announce step d at' s).bus = s.bus := rfl
@[simp] theorem announce_axes (step : Bool) (d : Int) (at' : Nat) (s : State) : (announce step d at' s).axes = s.axes := rfl
@[simp] theorem announce_grps (step : Bool) (d : Int) (at' : Nat) (s : State) : (announce step d at' s).grps = s.grps := rfl
@[simp] theorem announce_sig (step : Bool) (d : Int) (at' : Nat) (s : State) : (announce step d at' s).sig = s.sig := rfl
@[simp] theorem announce_sch (step : Bool) (d : Int) (at' : Nat) (s : State) : (announce step d at' s).sch = s.sch := rfl
@[simp] theorem announce_io (step : Bool) (d : Int) (at' : Nat) (s : State) : (announce step d at' s).io = s.io := rfl
@[simp] theorem announce_stp (step : Bool) (d : Int) (at' : Nat) (s : State) : (announce step d at' s).stp = s.stp := rfl
@[simp] theorem announce_qp (step : Bool) (d : Int) (at' : Nat) (s : State) : (announce step d at' s).qp = s.qp := rfl
@[simp] theorem announce_trc (step : Bool) (d : Int) (at' : Nat) (s : State) : (announce step d at' s).trc = s.trc := rfl
@[simp] theorem announce_ssm (step : Bool) (d : Int) (at' : Nat) (s : State) : (announce step d at' s).ssm = s.ssm := rfl
@[simp] theorem announce_eff (step : Bool) (d : Int) (at' : Nat) (s : State) : (announce step d at' s).eff = s.eff := rfl
@[simp] theorem announce_tilesOut (step : Bool) (d : Int) (at' : Nat) (s : State) : (announce step d at' s).tilesOut = s.tilesOut := rfl
@[simp] theorem announce_lanesOut (step : Bool) (d : Int) (at' : Nat) (s : State) : (announce step d at' s).lanesOut = s.lanesOut := rfl
@[simp] theorem announce_out (step : Bool) (d : Int) (at' : Nat) (s : State) : (announce step d at' s).out = s.out := rfl
@[simp] theorem announce_admitSeq (step : Bool) (d : Int) (at' : Nat) (s : State) : (announce step d at' s).admitSeq = s.admitSeq := rfl
@[simp] theorem announce_free (step : Bool) (d : Int) (at' : Nat) (s : State) : (announce step d at' s).free = s.free := rfl
@[simp] theorem announce_pending (step : Bool) (d : Int) (at' : Nat) (s : State) : (announce step d at' s).pending = s.pending := rfl

@[simp] theorem addSlew_host (d : Int) (s : State) : (addSlew d s).host = s.host := rfl
@[simp] theorem addSlew_evt (d : Int) (s : State) : (addSlew d s).evt = s.evt := rfl
@[simp] theorem addSlew_strm (d : Int) (s : State) : (addSlew d s).strm = s.strm := rfl
@[simp] theorem addSlew_cad (d : Int) (s : State) : (addSlew d s).cad = s.cad := rfl
@[simp] theorem addSlew_ptp (d : Int) (s : State) : (addSlew d s).ptp = s.ptp := rfl
@[simp] theorem addSlew_dev (d : Int) (s : State) : (addSlew d s).dev = s.dev := rfl
@[simp] theorem addSlew_jrn (d : Int) (s : State) : (addSlew d s).jrn = s.jrn := rfl
@[simp] theorem addSlew_hub (d : Int) (s : State) : (addSlew d s).hub = s.hub := rfl
@[simp] theorem addSlew_xl (d : Int) (s : State) : (addSlew d s).xl = s.xl := rfl
@[simp] theorem addSlew_bus (d : Int) (s : State) : (addSlew d s).bus = s.bus := rfl
@[simp] theorem addSlew_pel (d : Int) (s : State) : (addSlew d s).pel = s.pel := rfl
@[simp] theorem addSlew_axes (d : Int) (s : State) : (addSlew d s).axes = s.axes := rfl
@[simp] theorem addSlew_grps (d : Int) (s : State) : (addSlew d s).grps = s.grps := rfl
@[simp] theorem addSlew_sig (d : Int) (s : State) : (addSlew d s).sig = s.sig := rfl
@[simp] theorem addSlew_sch (d : Int) (s : State) : (addSlew d s).sch = s.sch := rfl
@[simp] theorem addSlew_io (d : Int) (s : State) : (addSlew d s).io = s.io := rfl
@[simp] theorem addSlew_stp (d : Int) (s : State) : (addSlew d s).stp = s.stp := rfl
@[simp] theorem addSlew_qp (d : Int) (s : State) : (addSlew d s).qp = s.qp := rfl
@[simp] theorem addSlew_trc (d : Int) (s : State) : (addSlew d s).trc = s.trc := rfl
@[simp] theorem addSlew_ssm (d : Int) (s : State) : (addSlew d s).ssm = s.ssm := rfl
@[simp] theorem addSlew_eff (d : Int) (s : State) : (addSlew d s).eff = s.eff := rfl
@[simp] theorem addSlew_tilesOut (d : Int) (s : State) : (addSlew d s).tilesOut = s.tilesOut := rfl
@[simp] theorem addSlew_lanesOut (d : Int) (s : State) : (addSlew d s).lanesOut = s.lanesOut := rfl
@[simp] theorem addSlew_out (d : Int) (s : State) : (addSlew d s).out = s.out := rfl
@[simp] theorem addSlew_admitSeq (d : Int) (s : State) : (addSlew d s).admitSeq = s.admitSeq := rfl
@[simp] theorem addSlew_free (d : Int) (s : State) : (addSlew d s).free = s.free := rfl
@[simp] theorem addSlew_pending (d : Int) (s : State) : (addSlew d s).pending = s.pending := rfl

@[simp] theorem cancelDieF_host (s : State) : (cancelDieF s).host = s.host := rfl
@[simp] theorem cancelDieF_evt (s : State) : (cancelDieF s).evt = s.evt := rfl
@[simp] theorem cancelDieF_strm (s : State) : (cancelDieF s).strm = s.strm := rfl
@[simp] theorem cancelDieF_cad (s : State) : (cancelDieF s).cad = s.cad := rfl
@[simp] theorem cancelDieF_ptp (s : State) : (cancelDieF s).ptp = s.ptp := rfl
@[simp] theorem cancelDieF_dev (s : State) : (cancelDieF s).dev = s.dev := rfl
@[simp] theorem cancelDieF_jrn (s : State) : (cancelDieF s).jrn = s.jrn := rfl
@[simp] theorem cancelDieF_hub (s : State) : (cancelDieF s).hub = s.hub := rfl
@[simp] theorem cancelDieF_xl (s : State) : (cancelDieF s).xl = s.xl := rfl
@[simp] theorem cancelDieF_bus (s : State) : (cancelDieF s).bus = s.bus := rfl
@[simp] theorem cancelDieF_pel (s : State) : (cancelDieF s).pel = s.pel := rfl
@[simp] theorem cancelDieF_axes (s : State) : (cancelDieF s).axes = s.axes := rfl
@[simp] theorem cancelDieF_grps (s : State) : (cancelDieF s).grps = s.grps := rfl
@[simp] theorem cancelDieF_sig (s : State) : (cancelDieF s).sig = s.sig := rfl
@[simp] theorem cancelDieF_sch (s : State) : (cancelDieF s).sch = s.sch := rfl
@[simp] theorem cancelDieF_io (s : State) : (cancelDieF s).io = s.io := rfl
@[simp] theorem cancelDieF_stp (s : State) : (cancelDieF s).stp = s.stp := rfl
@[simp] theorem cancelDieF_qp (s : State) : (cancelDieF s).qp = s.qp := rfl
@[simp] theorem cancelDieF_trc (s : State) : (cancelDieF s).trc = s.trc := rfl
@[simp] theorem cancelDieF_ssm (s : State) : (cancelDieF s).ssm = s.ssm := rfl
@[simp] theorem cancelDieF_eff (s : State) : (cancelDieF s).eff = s.eff := rfl
@[simp] theorem cancelDieF_tilesOut (s : State) : (cancelDieF s).tilesOut = s.tilesOut := rfl
@[simp] theorem cancelDieF_lanesOut (s : State) : (cancelDieF s).lanesOut = s.lanesOut := rfl
@[simp] theorem cancelDieF_out (s : State) : (cancelDieF s).out = s.out := rfl
@[simp] theorem cancelDieF_admitSeq (s : State) : (cancelDieF s).admitSeq = s.admitSeq := rfl
@[simp] theorem cancelDieF_free (s : State) : (cancelDieF s).free = s.free := rfl
@[simp] theorem cancelDieF_pending (s : State) : (cancelDieF s).pending = s.pending := rfl

@[simp] theorem fireVector_strm (v : Nat) (s : State) : (fireVector v s).strm = s.strm := (fireVector_quiet _ _).strm
@[simp] theorem fireVector_time (v : Nat) (s : State) : (fireVector v s).time = s.time := (fireVector_quiet _ _).time
@[simp] theorem fireVector_cad (v : Nat) (s : State) : (fireVector v s).cad = s.cad := (fireVector_quiet _ _).cad
@[simp] theorem fireVector_ptp (v : Nat) (s : State) : (fireVector v s).ptp = s.ptp := (fireVector_quiet _ _).ptp
@[simp] theorem fireVector_dev (v : Nat) (s : State) : (fireVector v s).dev = s.dev := (fireVector_quiet _ _).dev
@[simp] theorem fireVector_jrn (v : Nat) (s : State) : (fireVector v s).jrn = s.jrn := (fireVector_quiet _ _).jrn
@[simp] theorem fireVector_xl (v : Nat) (s : State) : (fireVector v s).xl = s.xl := (fireVector_quiet _ _).xl
@[simp] theorem fireVector_bus (v : Nat) (s : State) : (fireVector v s).bus = s.bus := (fireVector_quiet _ _).bus
@[simp] theorem fireVector_pel (v : Nat) (s : State) : (fireVector v s).pel = s.pel := (fireVector_quiet _ _).pel
@[simp] theorem fireVector_axes (v : Nat) (s : State) : (fireVector v s).axes = s.axes := (fireVector_quiet _ _).axes
@[simp] theorem fireVector_grps (v : Nat) (s : State) : (fireVector v s).grps = s.grps := (fireVector_quiet _ _).grps
@[simp] theorem fireVector_sig (v : Nat) (s : State) : (fireVector v s).sig = s.sig := (fireVector_quiet _ _).sig
@[simp] theorem fireVector_sch (v : Nat) (s : State) : (fireVector v s).sch = s.sch := (fireVector_quiet _ _).sch
@[simp] theorem fireVector_io (v : Nat) (s : State) : (fireVector v s).io = s.io := (fireVector_quiet _ _).io
@[simp] theorem fireVector_stp (v : Nat) (s : State) : (fireVector v s).stp = s.stp := (fireVector_quiet _ _).stp
@[simp] theorem fireVector_qp (v : Nat) (s : State) : (fireVector v s).qp = s.qp := (fireVector_quiet _ _).qp
@[simp] theorem fireVector_ssm (v : Nat) (s : State) : (fireVector v s).ssm = s.ssm := (fireVector_quiet _ _).ssm
@[simp] theorem fireVector_eff (v : Nat) (s : State) : (fireVector v s).eff = s.eff := (fireVector_quiet _ _).eff
@[simp] theorem fireVector_tilesOut (v : Nat) (s : State) : (fireVector v s).tilesOut = s.tilesOut := (fireVector_quiet _ _).tilesOut
@[simp] theorem fireVector_lanesOut (v : Nat) (s : State) : (fireVector v s).lanesOut = s.lanesOut := (fireVector_quiet _ _).lanesOut
@[simp] theorem fireVector_free (v : Nat) (s : State) : (fireVector v s).free = s.free := (fireVector_quiet _ _).free
@[simp] theorem fireVector_pending (v : Nat) (s : State) : (fireVector v s).pending = s.pending := (fireVector_quiet _ _).pending

@[simp] theorem raise_strm (e : Nat) (s : State) : (raise e s).strm = s.strm := (raise_quiet _ _).strm
@[simp] theorem raise_time (e : Nat) (s : State) : (raise e s).time = s.time := (raise_quiet _ _).time
@[simp] theorem raise_cad (e : Nat) (s : State) : (raise e s).cad = s.cad := (raise_quiet _ _).cad
@[simp] theorem raise_ptp (e : Nat) (s : State) : (raise e s).ptp = s.ptp := (raise_quiet _ _).ptp
@[simp] theorem raise_dev (e : Nat) (s : State) : (raise e s).dev = s.dev := (raise_quiet _ _).dev
@[simp] theorem raise_jrn (e : Nat) (s : State) : (raise e s).jrn = s.jrn := (raise_quiet _ _).jrn
@[simp] theorem raise_xl (e : Nat) (s : State) : (raise e s).xl = s.xl := (raise_quiet _ _).xl
@[simp] theorem raise_bus (e : Nat) (s : State) : (raise e s).bus = s.bus := (raise_quiet _ _).bus
@[simp] theorem raise_pel (e : Nat) (s : State) : (raise e s).pel = s.pel := (raise_quiet _ _).pel
@[simp] theorem raise_axes (e : Nat) (s : State) : (raise e s).axes = s.axes := (raise_quiet _ _).axes
@[simp] theorem raise_grps (e : Nat) (s : State) : (raise e s).grps = s.grps := (raise_quiet _ _).grps
@[simp] theorem raise_sig (e : Nat) (s : State) : (raise e s).sig = s.sig := (raise_quiet _ _).sig
@[simp] theorem raise_sch (e : Nat) (s : State) : (raise e s).sch = s.sch := (raise_quiet _ _).sch
@[simp] theorem raise_io (e : Nat) (s : State) : (raise e s).io = s.io := (raise_quiet _ _).io
@[simp] theorem raise_stp (e : Nat) (s : State) : (raise e s).stp = s.stp := (raise_quiet _ _).stp
@[simp] theorem raise_qp (e : Nat) (s : State) : (raise e s).qp = s.qp := (raise_quiet _ _).qp
@[simp] theorem raise_ssm (e : Nat) (s : State) : (raise e s).ssm = s.ssm := (raise_quiet _ _).ssm
@[simp] theorem raise_eff (e : Nat) (s : State) : (raise e s).eff = s.eff := (raise_quiet _ _).eff
@[simp] theorem raise_tilesOut (e : Nat) (s : State) : (raise e s).tilesOut = s.tilesOut := (raise_quiet _ _).tilesOut
@[simp] theorem raise_lanesOut (e : Nat) (s : State) : (raise e s).lanesOut = s.lanesOut := (raise_quiet _ _).lanesOut
@[simp] theorem raise_free (e : Nat) (s : State) : (raise e s).free = s.free := (raise_quiet _ _).free
@[simp] theorem raise_pending (e : Nat) (s : State) : (raise e s).pending = s.pending := (raise_quiet _ _).pending

@[simp] theorem raiseIf_strm (b : Bool) (e : Nat) (s : State) : (raiseIf b e s).strm = s.strm := (raiseIf_quiet _ _ _).strm
@[simp] theorem raiseIf_time (b : Bool) (e : Nat) (s : State) : (raiseIf b e s).time = s.time := (raiseIf_quiet _ _ _).time
@[simp] theorem raiseIf_cad (b : Bool) (e : Nat) (s : State) : (raiseIf b e s).cad = s.cad := (raiseIf_quiet _ _ _).cad
@[simp] theorem raiseIf_ptp (b : Bool) (e : Nat) (s : State) : (raiseIf b e s).ptp = s.ptp := (raiseIf_quiet _ _ _).ptp
@[simp] theorem raiseIf_dev (b : Bool) (e : Nat) (s : State) : (raiseIf b e s).dev = s.dev := (raiseIf_quiet _ _ _).dev
@[simp] theorem raiseIf_jrn (b : Bool) (e : Nat) (s : State) : (raiseIf b e s).jrn = s.jrn := (raiseIf_quiet _ _ _).jrn
@[simp] theorem raiseIf_xl (b : Bool) (e : Nat) (s : State) : (raiseIf b e s).xl = s.xl := (raiseIf_quiet _ _ _).xl
@[simp] theorem raiseIf_bus (b : Bool) (e : Nat) (s : State) : (raiseIf b e s).bus = s.bus := (raiseIf_quiet _ _ _).bus
@[simp] theorem raiseIf_pel (b : Bool) (e : Nat) (s : State) : (raiseIf b e s).pel = s.pel := (raiseIf_quiet _ _ _).pel
@[simp] theorem raiseIf_axes (b : Bool) (e : Nat) (s : State) : (raiseIf b e s).axes = s.axes := (raiseIf_quiet _ _ _).axes
@[simp] theorem raiseIf_grps (b : Bool) (e : Nat) (s : State) : (raiseIf b e s).grps = s.grps := (raiseIf_quiet _ _ _).grps
@[simp] theorem raiseIf_sig (b : Bool) (e : Nat) (s : State) : (raiseIf b e s).sig = s.sig := (raiseIf_quiet _ _ _).sig
@[simp] theorem raiseIf_sch (b : Bool) (e : Nat) (s : State) : (raiseIf b e s).sch = s.sch := (raiseIf_quiet _ _ _).sch
@[simp] theorem raiseIf_io (b : Bool) (e : Nat) (s : State) : (raiseIf b e s).io = s.io := (raiseIf_quiet _ _ _).io
@[simp] theorem raiseIf_stp (b : Bool) (e : Nat) (s : State) : (raiseIf b e s).stp = s.stp := (raiseIf_quiet _ _ _).stp
@[simp] theorem raiseIf_qp (b : Bool) (e : Nat) (s : State) : (raiseIf b e s).qp = s.qp := (raiseIf_quiet _ _ _).qp
@[simp] theorem raiseIf_ssm (b : Bool) (e : Nat) (s : State) : (raiseIf b e s).ssm = s.ssm := (raiseIf_quiet _ _ _).ssm
@[simp] theorem raiseIf_eff (b : Bool) (e : Nat) (s : State) : (raiseIf b e s).eff = s.eff := (raiseIf_quiet _ _ _).eff
@[simp] theorem raiseIf_tilesOut (b : Bool) (e : Nat) (s : State) : (raiseIf b e s).tilesOut = s.tilesOut := (raiseIf_quiet _ _ _).tilesOut
@[simp] theorem raiseIf_lanesOut (b : Bool) (e : Nat) (s : State) : (raiseIf b e s).lanesOut = s.lanesOut := (raiseIf_quiet _ _ _).lanesOut
@[simp] theorem raiseIf_free (b : Bool) (e : Nat) (s : State) : (raiseIf b e s).free = s.free := (raiseIf_quiet _ _ _).free
@[simp] theorem raiseIf_pending (b : Bool) (e : Nat) (s : State) : (raiseIf b e s).pending = s.pending := (raiseIf_quiet _ _ _).pending

/-- What each step of a run over a list of numbers keeps, the whole run keeps. -/
theorem forNat_keeps {α : Type} (p : State → α) (f : Nat → State → State) (h : ∀ k t, p (f k t) = p t) (l : List Nat) (s : State) :
    p (forNat l f s) = p s := by
  unfold forNat
  induction l generalizing s with
  | nil => rfl
  | cons x r ih => exact (ih _).trans (h x s)

@[simp] theorem noteDepth_strm (k : Nat) (s : State) : (noteDepth k s).strm = s.strm := by unfold noteDepth; dsimp only; rw [raiseIf_strm]; rfl
@[simp] theorem noteDepth_time (k : Nat) (s : State) : (noteDepth k s).time = s.time := by unfold noteDepth; dsimp only; rw [raiseIf_time]; rfl
@[simp] theorem noteDepth_cad (k : Nat) (s : State) : (noteDepth k s).cad = s.cad := by unfold noteDepth; dsimp only; rw [raiseIf_cad]; rfl
@[simp] theorem noteDepth_ptp (k : Nat) (s : State) : (noteDepth k s).ptp = s.ptp := by unfold noteDepth; dsimp only; rw [raiseIf_ptp]; rfl
@[simp] theorem noteDepth_dev (k : Nat) (s : State) : (noteDepth k s).dev = s.dev := by unfold noteDepth; dsimp only; rw [raiseIf_dev]; rfl
@[simp] theorem noteDepth_jrn (k : Nat) (s : State) : (noteDepth k s).jrn = s.jrn := by unfold noteDepth; dsimp only; rw [raiseIf_jrn]; rfl
@[simp] theorem noteDepth_xl (k : Nat) (s : State) : (noteDepth k s).xl = s.xl := by unfold noteDepth; dsimp only; rw [raiseIf_xl]; rfl
@[simp] theorem noteDepth_bus (k : Nat) (s : State) : (noteDepth k s).bus = s.bus := by unfold noteDepth; dsimp only; rw [raiseIf_bus]; rfl
@[simp] theorem noteDepth_pel (k : Nat) (s : State) : (noteDepth k s).pel = s.pel := by unfold noteDepth; dsimp only; rw [raiseIf_pel]; rfl
@[simp] theorem noteDepth_axes (k : Nat) (s : State) : (noteDepth k s).axes = s.axes := by unfold noteDepth; dsimp only; rw [raiseIf_axes]; rfl
@[simp] theorem noteDepth_grps (k : Nat) (s : State) : (noteDepth k s).grps = s.grps := by unfold noteDepth; dsimp only; rw [raiseIf_grps]; rfl
@[simp] theorem noteDepth_sig (k : Nat) (s : State) : (noteDepth k s).sig = s.sig := by unfold noteDepth; dsimp only; rw [raiseIf_sig]; rfl
@[simp] theorem noteDepth_io (k : Nat) (s : State) : (noteDepth k s).io = s.io := by unfold noteDepth; dsimp only; rw [raiseIf_io]; rfl
@[simp] theorem noteDepth_stp (k : Nat) (s : State) : (noteDepth k s).stp = s.stp := by unfold noteDepth; dsimp only; rw [raiseIf_stp]; rfl
@[simp] theorem noteDepth_qp (k : Nat) (s : State) : (noteDepth k s).qp = s.qp := by unfold noteDepth; dsimp only; rw [raiseIf_qp]; rfl
@[simp] theorem noteDepth_ssm (k : Nat) (s : State) : (noteDepth k s).ssm = s.ssm := by unfold noteDepth; dsimp only; rw [raiseIf_ssm]; rfl
@[simp] theorem noteDepth_eff (k : Nat) (s : State) : (noteDepth k s).eff = s.eff := by unfold noteDepth; dsimp only; rw [raiseIf_eff]; rfl
@[simp] theorem noteDepth_tilesOut (k : Nat) (s : State) : (noteDepth k s).tilesOut = s.tilesOut := by unfold noteDepth; dsimp only; rw [raiseIf_tilesOut]; rfl
@[simp] theorem noteDepth_lanesOut (k : Nat) (s : State) : (noteDepth k s).lanesOut = s.lanesOut := by unfold noteDepth; dsimp only; rw [raiseIf_lanesOut]; rfl
@[simp] theorem noteDepth_free (k : Nat) (s : State) : (noteDepth k s).free = s.free := by unfold noteDepth; dsimp only; rw [raiseIf_free]; rfl
@[simp] theorem noteDepth_pending (k : Nat) (s : State) : (noteDepth k s).pending = s.pending := by unfold noteDepth; dsimp only; rw [raiseIf_pending]; rfl

@[simp] theorem setShares_strm (l : List Share) (s : State) : (setShares l s).strm = s.strm := forNat_keeps State.strm _ noteDepth_strm _ _
@[simp] theorem setShares_time (l : List Share) (s : State) : (setShares l s).time = s.time := forNat_keeps State.time _ noteDepth_time _ _
@[simp] theorem setShares_cad (l : List Share) (s : State) : (setShares l s).cad = s.cad := forNat_keeps State.cad _ noteDepth_cad _ _
@[simp] theorem setShares_ptp (l : List Share) (s : State) : (setShares l s).ptp = s.ptp := forNat_keeps State.ptp _ noteDepth_ptp _ _
@[simp] theorem setShares_dev (l : List Share) (s : State) : (setShares l s).dev = s.dev := forNat_keeps State.dev _ noteDepth_dev _ _
@[simp] theorem setShares_jrn (l : List Share) (s : State) : (setShares l s).jrn = s.jrn := forNat_keeps State.jrn _ noteDepth_jrn _ _
@[simp] theorem setShares_xl (l : List Share) (s : State) : (setShares l s).xl = s.xl := forNat_keeps State.xl _ noteDepth_xl _ _
@[simp] theorem setShares_bus (l : List Share) (s : State) : (setShares l s).bus = s.bus := forNat_keeps State.bus _ noteDepth_bus _ _
@[simp] theorem setShares_pel (l : List Share) (s : State) : (setShares l s).pel = s.pel := forNat_keeps State.pel _ noteDepth_pel _ _
@[simp] theorem setShares_axes (l : List Share) (s : State) : (setShares l s).axes = s.axes := forNat_keeps State.axes _ noteDepth_axes _ _
@[simp] theorem setShares_grps (l : List Share) (s : State) : (setShares l s).grps = s.grps := forNat_keeps State.grps _ noteDepth_grps _ _
@[simp] theorem setShares_sig (l : List Share) (s : State) : (setShares l s).sig = s.sig := forNat_keeps State.sig _ noteDepth_sig _ _
@[simp] theorem setShares_io (l : List Share) (s : State) : (setShares l s).io = s.io := forNat_keeps State.io _ noteDepth_io _ _
@[simp] theorem setShares_stp (l : List Share) (s : State) : (setShares l s).stp = s.stp := forNat_keeps State.stp _ noteDepth_stp _ _
@[simp] theorem setShares_qp (l : List Share) (s : State) : (setShares l s).qp = s.qp := forNat_keeps State.qp _ noteDepth_qp _ _
@[simp] theorem setShares_ssm (l : List Share) (s : State) : (setShares l s).ssm = s.ssm := forNat_keeps State.ssm _ noteDepth_ssm _ _
@[simp] theorem setShares_eff (l : List Share) (s : State) : (setShares l s).eff = s.eff := forNat_keeps State.eff _ noteDepth_eff _ _
@[simp] theorem setShares_tilesOut (l : List Share) (s : State) : (setShares l s).tilesOut = s.tilesOut := forNat_keeps State.tilesOut _ noteDepth_tilesOut _ _
@[simp] theorem setShares_lanesOut (l : List Share) (s : State) : (setShares l s).lanesOut = s.lanesOut := forNat_keeps State.lanesOut _ noteDepth_lanesOut _ _
@[simp] theorem setShares_free (l : List Share) (s : State) : (setShares l s).free = s.free := forNat_keeps State.free _ noteDepth_free _ _
@[simp] theorem setShares_pending (l : List Share) (s : State) : (setShares l s).pending = s.pending := forNat_keeps State.pending _ noteDepth_pending _ _

@[simp] theorem journalRec_evt (r : JRec) (s : State) : (journalRec r s).evt = s.evt := by
  unfold journalRec
  repeat' first | rfl | split
@[simp] theorem journalRec_strm (r : JRec) (s : State) : (journalRec r s).strm = s.strm := by
  unfold journalRec
  repeat' first | rfl | split
@[simp] theorem journalRec_time (r : JRec) (s : State) : (journalRec r s).time = s.time := by
  unfold journalRec
  repeat' first | rfl | split
@[simp] theorem journalRec_cad (r : JRec) (s : State) : (journalRec r s).cad = s.cad := by
  unfold journalRec
  repeat' first | rfl | split
@[simp] theorem journalRec_ptp (r : JRec) (s : State) : (journalRec r s).ptp = s.ptp := by
  unfold journalRec
  repeat' first | rfl | split
@[simp] theorem journalRec_dev (r : JRec) (s : State) : (journalRec r s).dev = s.dev := by
  unfold journalRec
  repeat' first | rfl | split
@[simp] theorem journalRec_xl (r : JRec) (s : State) : (journalRec r s).xl = s.xl := by
  unfold journalRec
  repeat' first | rfl | split
@[simp] theorem journalRec_bus (r : JRec) (s : State) : (journalRec r s).bus = s.bus := by
  unfold journalRec
  repeat' first | rfl | split
@[simp] theorem journalRec_pel (r : JRec) (s : State) : (journalRec r s).pel = s.pel := by
  unfold journalRec
  repeat' first | rfl | split
@[simp] theorem journalRec_axes (r : JRec) (s : State) : (journalRec r s).axes = s.axes := by
  unfold journalRec
  repeat' first | rfl | split
@[simp] theorem journalRec_grps (r : JRec) (s : State) : (journalRec r s).grps = s.grps := by
  unfold journalRec
  repeat' first | rfl | split
@[simp] theorem journalRec_sig (r : JRec) (s : State) : (journalRec r s).sig = s.sig := by
  unfold journalRec
  repeat' first | rfl | split
@[simp] theorem journalRec_sch (r : JRec) (s : State) : (journalRec r s).sch = s.sch := by
  unfold journalRec
  repeat' first | rfl | split
@[simp] theorem journalRec_io (r : JRec) (s : State) : (journalRec r s).io = s.io := by
  unfold journalRec
  repeat' first | rfl | split
@[simp] theorem journalRec_stp (r : JRec) (s : State) : (journalRec r s).stp = s.stp := by
  unfold journalRec
  repeat' first | rfl | split
@[simp] theorem journalRec_qp (r : JRec) (s : State) : (journalRec r s).qp = s.qp := by
  unfold journalRec
  repeat' first | rfl | split
@[simp] theorem journalRec_trc (r : JRec) (s : State) : (journalRec r s).trc = s.trc := by
  unfold journalRec
  repeat' first | rfl | split
@[simp] theorem journalRec_ssm (r : JRec) (s : State) : (journalRec r s).ssm = s.ssm := by
  unfold journalRec
  repeat' first | rfl | split
@[simp] theorem journalRec_eff (r : JRec) (s : State) : (journalRec r s).eff = s.eff := by
  unfold journalRec
  repeat' first | rfl | split
@[simp] theorem journalRec_tilesOut (r : JRec) (s : State) : (journalRec r s).tilesOut = s.tilesOut := by
  unfold journalRec
  repeat' first | rfl | split
@[simp] theorem journalRec_lanesOut (r : JRec) (s : State) : (journalRec r s).lanesOut = s.lanesOut := by
  unfold journalRec
  repeat' first | rfl | split
@[simp] theorem journalRec_out (r : JRec) (s : State) : (journalRec r s).out = s.out := by
  unfold journalRec
  repeat' first | rfl | split
@[simp] theorem journalRec_admitSeq (r : JRec) (s : State) : (journalRec r s).admitSeq = s.admitSeq := by
  unfold journalRec
  repeat' first | rfl | split
@[simp] theorem journalRec_free (r : JRec) (s : State) : (journalRec r s).free = s.free := by
  unfold journalRec
  repeat' first | rfl | split
@[simp] theorem journalRec_pending (r : JRec) (s : State) : (journalRec r s).pending = s.pending := by
  unfold journalRec
  repeat' first | rfl | split

@[simp] theorem journal_evt (src code sev obj aux : Nat) (d : List Byte) (s : State) : (journal src code sev obj aux d s).evt = s.evt := journalRec_evt _ _
@[simp] theorem journal_strm (src code sev obj aux : Nat) (d : List Byte) (s : State) : (journal src code sev obj aux d s).strm = s.strm := journalRec_strm _ _
@[simp] theorem journal_time (src code sev obj aux : Nat) (d : List Byte) (s : State) : (journal src code sev obj aux d s).time = s.time := journalRec_time _ _
@[simp] theorem journal_cad (src code sev obj aux : Nat) (d : List Byte) (s : State) : (journal src code sev obj aux d s).cad = s.cad := journalRec_cad _ _
@[simp] theorem journal_ptp (src code sev obj aux : Nat) (d : List Byte) (s : State) : (journal src code sev obj aux d s).ptp = s.ptp := journalRec_ptp _ _
@[simp] theorem journal_dev (src code sev obj aux : Nat) (d : List Byte) (s : State) : (journal src code sev obj aux d s).dev = s.dev := journalRec_dev _ _
@[simp] theorem journal_xl (src code sev obj aux : Nat) (d : List Byte) (s : State) : (journal src code sev obj aux d s).xl = s.xl := journalRec_xl _ _
@[simp] theorem journal_bus (src code sev obj aux : Nat) (d : List Byte) (s : State) : (journal src code sev obj aux d s).bus = s.bus := journalRec_bus _ _
@[simp] theorem journal_pel (src code sev obj aux : Nat) (d : List Byte) (s : State) : (journal src code sev obj aux d s).pel = s.pel := journalRec_pel _ _
@[simp] theorem journal_axes (src code sev obj aux : Nat) (d : List Byte) (s : State) : (journal src code sev obj aux d s).axes = s.axes := journalRec_axes _ _
@[simp] theorem journal_grps (src code sev obj aux : Nat) (d : List Byte) (s : State) : (journal src code sev obj aux d s).grps = s.grps := journalRec_grps _ _
@[simp] theorem journal_sig (src code sev obj aux : Nat) (d : List Byte) (s : State) : (journal src code sev obj aux d s).sig = s.sig := journalRec_sig _ _
@[simp] theorem journal_sch (src code sev obj aux : Nat) (d : List Byte) (s : State) : (journal src code sev obj aux d s).sch = s.sch := journalRec_sch _ _
@[simp] theorem journal_io (src code sev obj aux : Nat) (d : List Byte) (s : State) : (journal src code sev obj aux d s).io = s.io := journalRec_io _ _
@[simp] theorem journal_stp (src code sev obj aux : Nat) (d : List Byte) (s : State) : (journal src code sev obj aux d s).stp = s.stp := journalRec_stp _ _
@[simp] theorem journal_qp (src code sev obj aux : Nat) (d : List Byte) (s : State) : (journal src code sev obj aux d s).qp = s.qp := journalRec_qp _ _
@[simp] theorem journal_trc (src code sev obj aux : Nat) (d : List Byte) (s : State) : (journal src code sev obj aux d s).trc = s.trc := journalRec_trc _ _
@[simp] theorem journal_ssm (src code sev obj aux : Nat) (d : List Byte) (s : State) : (journal src code sev obj aux d s).ssm = s.ssm := journalRec_ssm _ _
@[simp] theorem journal_eff (src code sev obj aux : Nat) (d : List Byte) (s : State) : (journal src code sev obj aux d s).eff = s.eff := journalRec_eff _ _
@[simp] theorem journal_tilesOut (src code sev obj aux : Nat) (d : List Byte) (s : State) : (journal src code sev obj aux d s).tilesOut = s.tilesOut := journalRec_tilesOut _ _
@[simp] theorem journal_lanesOut (src code sev obj aux : Nat) (d : List Byte) (s : State) : (journal src code sev obj aux d s).lanesOut = s.lanesOut := journalRec_lanesOut _ _
@[simp] theorem journal_out (src code sev obj aux : Nat) (d : List Byte) (s : State) : (journal src code sev obj aux d s).out = s.out := journalRec_out _ _
@[simp] theorem journal_admitSeq (src code sev obj aux : Nat) (d : List Byte) (s : State) : (journal src code sev obj aux d s).admitSeq = s.admitSeq := journalRec_admitSeq _ _
@[simp] theorem journal_free (src code sev obj aux : Nat) (d : List Byte) (s : State) : (journal src code sev obj aux d s).free = s.free := journalRec_free _ _
@[simp] theorem journal_pending (src code sev obj aux : Nat) (d : List Byte) (s : State) : (journal src code sev obj aux d s).pending = s.pending := journalRec_pending _ _

/-! What a replaced entry reads as. -/
@[simp] theorem axisOf_setAxis (a b : Nat) (x : AxisSt) (s : State) : axisOf (setAxis a x s) b = if b = a then x else axisOf s b := tget_tset _ _ _ _ _
@[simp] theorem grpOf_setGrp (g h : Nat) (x : GroupSt) (s : State) : grpOf (setGrp g x s) h = if h = g then x else grpOf s h := tget_tset _ _ _ _ _
@[simp] theorem segOf_setSeg (k j : Nat) (x : Segment) (s : State) : segOf (setSeg k x s) j = if j = k then x else segOf s j := tget_tset _ _ _ _ _
@[simp] theorem stpOf_setStp (n m : Nat) (x : StpAxis) (s : State) : stpOf (setStp n x s) m = if m = n then x else stpOf s m := tget_tset _ _ _ _ _
@[simp] theorem chanOf_setChan (n m : Nat) (x : Chan) (s : State) : chanOf (setChan n x s) m = if m = n then x else chanOf s m := tget_tset _ _ _ _ _
@[simp] theorem fgOf_setFg (n m : Nat) (x : FieldGroup) (s : State) : fgOf (setFg n x s) m = if m = n then x else fgOf s m := tget_tset _ _ _ _ _
@[simp] theorem strmOf_setStrm (n m : Nat) (x : Stream) (s : State) : strmOf (setStrm n x s) m = if m = n then x else strmOf s m := tget_tset _ _ _ _ _
@[simp] theorem sesOf_setSes (n m : Nat) (x : Session) (s : State) : sesOf (setSes n x s) m = if m = n then x else sesOf s m := tget_tset _ _ _ _ _
@[simp] theorem injOf_setInj (n m : Nat) (x : Option Inject) (s : State) : injOf (setInj n x s) m = if m = n then x else injOf s m := tget_tset _ _ _ _ _
@[simp] theorem zoneOf_setZone (n m : Nat) (x : Zone) (s : State) : zoneOf (setZone n x s) m = if m = n then x else zoneOf s m := tget_tset _ _ _ _ _
@[simp] theorem ssmOf_setSsm (n m : Nat) (x : SsmGrp) (s : State) : ssmOf (setSsm n x s) m = if m = n then x else ssmOf s m := tget_tset _ _ _ _ _
@[simp] theorem sensOf_setSens (n m : Nat) (x : Sensor) (s : State) : sensOf (setSens n x s) m = if m = n then x else sensOf s m := tget_tset _ _ _ _ _
@[simp] theorem qpOf_setQp (n m : Nat) (x : QpGrp) (s : State) : qpOf (setQp n x s) m = if m = n then x else qpOf s m := tget_tset _ _ _ _ _
@[simp] theorem laneOf_setLane (n m : Nat) (x : Lane) (s : State) : laneOf (setLane n x s) m = if m = n then x else laneOf s m := tget_tset _ _ _ _ _
@[simp] theorem clsOf_setCls (n m : Nat) (x : ClassSt) (s : State) : clsOf (setCls n x s) m = if m = n then x else clsOf s m := tget_tset _ _ _ _ _
@[simp] theorem flowOf_setFlow (n m : Nat) (x : Flow) (s : State) : flowOf (setFlow n x s) m = if m = n then x else flowOf s m := tget_tset _ _ _ _ _
@[simp] theorem ptpOf_setPtp (n m : Nat) (x : PtpPort) (s : State) : ptpOf (setPtp n x s) m = if m = n then x else ptpOf s m := tget_tset _ _ _ _ _
@[simp] theorem unitOf_setUnit (n m : Nat) (x : Option Armed) (s : State) : unitOf (setUnit n x s) m = if m = n then x else unitOf s m := tget_tset _ _ _ _ _
@[simp] theorem mbOf_setMb (n m : Nat) (x : Mailbox) (s : State) : mbOf (setMb n x s) m = if m = n then x else mbOf s m := tget_tset _ _ _ _ _
@[simp] theorem spokeOf_setSpoke (n m : Nat) (x : Spoke) (s : State) : spokeOf (setSpoke n x s) m = if m = n then x else spokeOf s m := by
  by_cases h : m = n
  · subst h; rw [if_pos rfl]; exact (tget_tset _ _ _ _ _).trans (if_pos rfl)
  · rw [if_neg h]
    have e : ∀ d : Spoke, tget d (tset (spokeReset n) s.hub.spokes n x) m = tget d s.hub.spokes m := by
      intro d
      have f : ∀ k, k ∈ tdrop s.hub.spokes n → k.1 ≠ n := fun k hk => by simpa [tdrop] using (List.mem_filter.mp hk).2
      unfold tset
      split
      · rw [tget_tdrop, if_neg h]
      · rw [tget_tinsert _ _ _ _ _ f, if_neg h, tget_tdrop, if_neg h]
    exact e _

end Sys2Proof.Machine
end

