-- ==== Sys2Proof/Laws/Events.lean ====
section
/-!
SUPPORT. What raising an event and sending a vector's message do to the event block (R59, R60), and which refusal wins (R53).
-/
namespace Sys2Proof.Machine

set_option Elab.async false

theorem fireVector_evt (v) (s : State) : (fireVector v s).evt.pend = s.evt.pend ∧ (fireVector v s).evt.lost = s.evt.lost ∧ (fireVector v s).evt.mask = s.evt.mask ∧ (fireVector v s).evt.map = s.evt.map := by
  unfold fireVector; split
  · exact ⟨rfl, rfl, rfl, rfl⟩
  split <;> exact ⟨rfl, rfl, rfl, rfl⟩

theorem fireVector_fired (v) (s : State) (h : v < 32) : Fired (fireVector v s) v := by
  unfold fireVector Fired; split
  · rename_i h; exact .inl h
  split
  · right; simp [h]
  · left; show tget 0 (tset 0 s.evt.sent v (now s + 1)) v = _; rw [tget_tset, if_pos rfl]; rfl

theorem fired_keep (v n : Nat) (s : State) (h : Fired s v) : Fired (fireVector n s) v := by
  unfold fireVector; split
  · exact h
  split
  · rcases h with h | h
    · exact .inl h
    · right; simp [h]
  · rcases h with h | h
    · left; show tget 0 (tset 0 s.evt.sent n (now s + 1)) v = now s + 1
      rw [tget_tset]; split
      · rfl
      · exact h
    · exact .inr h

theorem fireVector_trc (v : Nat) (s : State) : (fireVector v s).trc = s.trc := by
  unfold fireVector; split
  · rfl
  · split
    · rfl
    · rw [count_trc]; rfl

/-- Everything `raise` does to the event block (R59). -/
theorem raise_evt_eq (e : Nat) (s : State) : (raise e s).evt.pend = s.evt.pend ||| BitVec.twoPow 128 e ∧
    (raise e s).evt.lost = (if s.evt.pend.getLsbD e then s.evt.lost ||| BitVec.twoPow 128 e else s.evt.lost) ∧
    (raise e s).evt.mask = s.evt.mask ∧ (raise e s).evt.map = s.evt.map := by
  unfold raise; dsimp only
  split
  · have h := fireVector_evt; exact ⟨(h _ _).1, (h _ _).2.1, (h _ _).2.2.1, (h _ _).2.2.2⟩
  · exact ⟨rfl, rfl, rfl, rfl⟩

/-- Raising an event changes of the trace island only the events of the cadence. -/
theorem raise_trc_eq (e : Nat) (s : State) : (raise e s).trc = { s.trc with occurred := s.trc.occurred ||| BitVec.twoPow 128 e } := by
  unfold raise; dsimp only
  split
  · rw [fireVector_trc]
  · rfl

theorem raise_sets_pending (e : Nat) (s : State) (h : e < 128) : Pending (raise e s) e := by
  unfold Pending; rw [(raise_evt_eq e s).1]; simp [h]

theorem pending_raise (e v : Nat) (s : State) (p : Pending s v) : Pending (raise e s) v := by
  unfold Pending at *; rw [(raise_evt_eq e s).1]; simp [p]

theorem pending_congr {a b : State} {v : Nat} (h : a.evt = b.evt) (p : Pending b v) : Pending a v := by unfold Pending at *; rw [h]; exact p

theorem firstBad_mem : ∀ (l : List (Bool × Status)) st, firstBad l = some st → (true, st) ∈ l := by
  intro l; induction l with
  | nil => intro st h; cases h
  | cons a l ih =>
    obtain ⟨b, x⟩ := a
    intro st h
    unfold firstBad at h
    split at h
    · exact List.mem_cons_of_mem _ (ih _ h)
    · cases h; exact List.mem_cons_self
    · rename_i y hy
      split at h
      · cases h; exact List.mem_cons_of_mem _ (ih _ hy)
      · cases h; exact List.mem_cons_self

theorem firstBad_none : ∀ (l : List (Bool × Status)), firstBad l = none → ∀ x, (true, x) ∉ l := by
  intro l; induction l with
  | nil => intro _ x h; cases h
  | cons a l ih =>
    obtain ⟨b, y⟩ := a
    intro h x hx
    unfold firstBad at h
    split at h
    · rcases List.mem_cons.mp hx with e | e
      · cases e
      · exact ih h x e
    · cases h
    · split at h <;> cases h

theorem firstBad_min : ∀ (l : List (Bool × Status)) st, firstBad l = some st → ∀ x, (true, x) ∈ l → st.rank ≤ x.rank := by
  intro l; induction l with
  | nil => intro st h; cases h
  | cons a l ih =>
    obtain ⟨b, y⟩ := a
    intro st h x hx
    unfold firstBad at h
    split at h
    · rcases List.mem_cons.mp hx with e | e
      · cases e
      · exact ih _ h x e
    · rename_i hn
      cases h
      rcases List.mem_cons.mp hx with e | e
      · cases e; exact Nat.le_refl _
      · exact absurd e (firstBad_none _ hn x)
    · rename_i z hz
      split at h
      · cases h
        rcases List.mem_cons.mp hx with e | e
        · cases e; omega
        · exact ih _ hz x e
      · cases h
        rcases List.mem_cons.mp hx with e | e
        · cases e; omega
        · have := ih _ hz x e; omega

end Sys2Proof.Machine
end

