-- ==== Sys2Proof/Laws/Kept.lean ====
section
/-!
SUPPORT. `Kept a b`: what every command other than a host register write and a reset leaves alone. One lemma per function says that
it keeps this from any state on; the whole-machine claims follow from it.
-/
namespace Sys2Proof.Machine

set_option Elab.async false
set_option linter.all false

theorem FusesLe.refl (f : Fuses) : FusesLe f f := ⟨id, id, id, id, id, fun _ => id⟩
theorem FusesLe.trans {f g h : Fuses} (a : FusesLe f g) (b : FusesLe g h) : FusesLe f h :=
  ⟨b.vk0 ∘ a.vk0, b.set0 ∘ a.set0, b.set1 ∘ a.set1, b.rev0 ∘ a.rev0, b.lock ∘ a.lock, fun i => b.svn i ∘ a.svn i⟩

/-- Kept in the HOST island: the command buffers, the user page, and every slot but one that a completion makes DONE. -/
structure KeptH (a b : HostSt) : Prop where
  ok : HostOk a → HostOk b
  usrGrant : b.usrGrant = a.usrGrant
  usrEn : b.usrEn = a.usrEn
  usrWin : b.usrWin = a.usrWin
  msix : b.msix = a.msix
  staging : b.staging = a.staging
  cmd : ∀ x, x < 0x100000 → mget b.bar2 x = mget a.bar2 x
  slot : ∀ m k, tget .free (tget {} b.mb m).slots k = tget .free (tget {} a.mb m).slots k ∨
    (tget .free (tget {} a.mb m).slots k = .posted ∧ tget .free (tget {} b.mb m).slots k = .done)

/-- Kept in the event block: pending and lost bits stay, mask and map do not change. -/
structure KeptE (a b : EvtBlock) : Prop where
  pend : ∀ e, a.pend.getLsbD e = true → b.pend.getLsbD e = true
  lost : ∀ e, a.lost.getLsbD e = true → b.lost.getLsbD e = true
  mask : b.mask = a.mask
  map : b.map = a.map

/-- Kept in the counter hub. -/
structure KeptU (a b : HubSt) : Prop where
  ok : HubOk a → HubOk b
  period : b.period = a.period
  rd : b.rd = a.rd
  enable : b.enable = a.enable
  mirror : b.mirror = a.mirror

/-- Kept in the whole state. -/
structure Kept (a b : State) : Prop where
  host : KeptH a.host b.host
  evt : KeptE a.evt b.evt
  hub : KeptU a.hub b.hub
  pending : b.pending = a.pending
  fuses : FusesLe a.dev.fuses b.dev.fuses
  fault : a.dev.mode = .fault → b.dev.mode = .fault
  cause : a.dev.mode = .fault → a.dev.faultCause ≠ 0 → b.dev.faultCause = a.dev.faultCause
  faultN : a.dev.mode = .fault → a.dev.faultN = true → b.dev.faultN = true
  lost : a.xl.lost = true → b.xl.lost = true
  frozen : a.dev.frozen = true → b.dev.frozen = true

variable {s0 : State}

theorem KeptH.refl (a : HostSt) : KeptH a a := ⟨id, rfl, rfl, rfl, rfl, rfl, fun _ _ => rfl, fun _ _ => .inl rfl⟩
theorem KeptE.refl (a : EvtBlock) : KeptE a a := ⟨fun _ => id, fun _ => id, rfl, rfl⟩
theorem KeptU.refl (a : HubSt) : KeptU a a := ⟨id, rfl, rfl, rfl, rfl⟩
theorem Kept.refl (a : State) : Kept a a := ⟨.refl _, .refl _, .refl _, rfl, .refl _, id, fun _ _ => rfl, fun _ => id, id, id⟩

theorem KeptH.trans {a b c : HostSt} (p : KeptH a b) (q : KeptH b c) : KeptH a c := by
  refine ⟨q.ok ∘ p.ok, q.usrGrant.trans p.usrGrant, q.usrEn.trans p.usrEn, q.usrWin.trans p.usrWin, q.msix.trans p.msix,
    q.staging.trans p.staging, fun x h => (q.cmd x h).trans (p.cmd x h), fun m k => ?_⟩
  have h1 := p.slot m k; have h2 := q.slot m k
  rcases h1 with h1 | ⟨h1, h1'⟩ <;> rcases h2 with h2 | ⟨h2, h2'⟩
  · exact .inl (h2.trans h1)
  · exact .inr ⟨h1 ▸ h2, h2'⟩
  · exact .inr ⟨h1, h2.trans h1'⟩
  · rw [h2] at h1'; cases h1'
theorem KeptE.trans {a b c : EvtBlock} (p : KeptE a b) (q : KeptE b c) : KeptE a c :=
  ⟨fun e => q.pend e ∘ p.pend e, fun e => q.lost e ∘ p.lost e, q.mask.trans p.mask, q.map.trans p.map⟩
theorem KeptU.trans {a b c : HubSt} (p : KeptU a b) (q : KeptU b c) : KeptU a c :=
  ⟨q.ok ∘ p.ok, q.period.trans p.period, q.rd.trans p.rd, q.enable.trans p.enable, q.mirror.trans p.mirror⟩
theorem Kept.trans {a b c : State} (p : Kept a b) (q : Kept b c) : Kept a c := by
  refine ⟨p.host.trans q.host, p.evt.trans q.evt, p.hub.trans q.hub, q.pending.trans p.pending, p.fuses.trans q.fuses,
    q.fault ∘ p.fault, fun h1 h2 => ?_, fun h1 h2 => q.faultN (p.fault h1) (p.faultN h1 h2), q.lost ∘ p.lost, q.frozen ∘ p.frozen⟩
  have h3 := p.cause h1 h2
  exact (q.cause (p.fault h1) (h3 ▸ h2)).trans h3

theorem kept_mk {s : State} {host evt strm time cad ptp dev jrn hub xl bus pel axes grps sig sch io stp qp trc ssm eff tilesOut lanesOut out admitSeq free pending}
   (a : host = s.host) (b : hub = s.hub) (c : evt = s.evt) (d : pending = s.pending) (e1 : DevSt.fuses dev = s.dev.fuses)
   (e2 : DevSt.mode dev = s.dev.mode) (e3 : DevSt.faultCause dev = s.dev.faultCause) (e4 : DevSt.faultN dev = s.dev.faultN)
   (e5 : XlinkSt.lost xl = s.xl.lost) (e6 : DevSt.frozen dev = s.dev.frozen)
   (h : Kept s0 s) : Kept s0 ⟨host, evt, strm, time, cad, ptp, dev, jrn, hub, xl, bus, pel, axes, grps, sig, sch, io, stp, qp, trc, ssm, eff, tilesOut, lanesOut, out, admitSeq, free, pending⟩ := by
  refine h.trans ?_
  subst a b c d
  exact ⟨.refl _, .refl _, .refl _, rfl, e1 ▸ .refl _, fun h => e2.trans h, fun _ _ => e3, fun _ h => e4.trans h, fun h => e5.trans h, fun h => e6.trans h⟩

theorem id_kept (s : State) (h : Kept s0 s) : Kept s0 (id s) := h

theorem foldl_kept {α : Type} (l : List α) (f : State → α → State) (hf : ∀ t x, Kept s0 t → Kept s0 (f t x)) (s : State) (h : Kept s0 s) :
    Kept s0 (l.foldl f s) := by
  induction l generalizing s with
  | nil => exact h
  | cons x r ih => exact ih _ (hf _ _ h)
end Sys2Proof.Machine
end

