-- ==== Sys2Proof/Laws/KeptOps.lean ====
section
/-!
SUPPORT. `Kept` for the functions of the named operations, the objects, the crosslink and the field channels.
-/
namespace Sys2Proof.Machine

set_option Elab.async false
set_option linter.all false

variable {s0 : State}

theorem advanceTo_kept (t : Nat) (s : State) (hs : Kept s0 s) : Kept s0 (advanceTo t s) := by
  unfold advanceTo
  try dsimp only
  with_reducible repeat' first | assumption | (apply kept_mk; exact rfl; exact rfl; exact rfl; exact rfl; exact rfl; exact rfl; exact rfl; exact rfl; exact rfl; exact rfl; (first | assumption | split)) | split | intro _

theorem freeNext_kept (s : State) (hs : Kept s0 s) : Kept s0 (freeNext s) := by
  unfold freeNext
  try dsimp only
  with_reducible repeat' first | assumption | (apply kept_mk; exact rfl; exact rfl; exact rfl; exact rfl; exact rfl; exact rfl; exact rfl; exact rfl; exact rfl; exact rfl; (first | assumption | split)) | split | intro _

theorem emit_kept (k : OutKind) (u : Nat) (b : List Byte) (s : State) (hs : Kept s0 s) : Kept s0 (emit k u b s) := by
  unfold emit
  try dsimp only
  with_reducible repeat' first | assumption | (apply kept_mk; exact rfl; exact rfl; exact rfl; exact rfl; exact rfl; exact rfl; exact rfl; exact rfl; exact rfl; exact rfl; (first | assumption | split)) | split | intro _

theorem phySetup_kept (bus p : Nat) (s : State) (hs : Kept s0 s) : Kept s0 (phySetup bus p s) := by
  unfold phySetup
  try dsimp only
  with_reducible repeat' first | assumption | apply emit_kept | (apply kept_mk; exact rfl; exact rfl; exact rfl; exact rfl; exact rfl; exact rfl; exact rfl; exact rfl; exact rfl; exact rfl; (first | assumption | apply emit_kept | split)) | split | intro _

theorem setSpoke_kept (i : Nat) (p : Spoke) (s : State) (hs : Kept s0 s) : Kept s0 (setSpoke i p s) :=
  hs.trans ⟨.refl _, .refl _, ⟨id, rfl, rfl, rfl, rfl⟩, rfl, .refl _, id, fun _ _ => rfl, fun _ => id, id, id⟩

theorem countN_kept (i code n : Nat) (s : State) (hs : Kept s0 s) : Kept s0 (countN i code n s) := by
  unfold countN
  try dsimp only
  with_reducible repeat' first | assumption | apply setSpoke_kept | (apply kept_mk; exact rfl; exact rfl; exact rfl; exact rfl; exact rfl; exact rfl; exact rfl; exact rfl; exact rfl; exact rfl; (first | assumption | apply setSpoke_kept | split)) | split | intro _

theorem count_kept (i code : Nat) (s : State) (hs : Kept s0 s) : Kept s0 (count i code s) := by
  unfold count
  try dsimp only
  with_reducible repeat' first | assumption | apply countN_kept | (apply kept_mk; exact rfl; exact rfl; exact rfl; exact rfl; exact rfl; exact rfl; exact rfl; exact rfl; exact rfl; exact rfl; (first | assumption | apply countN_kept | split)) | split | intro _

theorem kept_evt (e : EvtBlock) (s : State) (hs : Kept s0 s) (he : KeptE s.evt e) : Kept s0 { s with evt := e } :=
  hs.trans ⟨.refl _, he, .refl _, rfl, .refl _, id, fun _ _ => rfl, fun _ => id, id, id⟩

theorem kept_hub (e : HubSt) (s : State) (hs : Kept s0 s) (he : KeptU s.hub e) : Kept s0 { s with hub := e } :=
  hs.trans ⟨.refl _, .refl _, he, rfl, .refl _, id, fun _ _ => rfl, fun _ => id, id, id⟩

theorem kept_host (e : HostSt) (s : State) (hs : Kept s0 s) (he : KeptH s.host e) : Kept s0 { s with host := e } :=
  hs.trans ⟨he, .refl _, .refl _, rfl, .refl _, id, fun _ _ => rfl, fun _ => id, id, id⟩

theorem fireVector_kept (v : Nat) (s : State) (hs : Kept s0 s) : Kept s0 (fireVector v s) := by
  unfold fireVector
  split
  · exact hs
  · split
    · exact kept_host _ s hs ⟨id, rfl, rfl, rfl, rfl, rfl, fun _ _ => rfl, fun _ _ => .inl rfl⟩
    · exact count_kept _ _ _ (emit_kept _ _ _ _ (kept_evt _ s hs ⟨fun _ => id, fun _ => id, rfl, rfl⟩))

theorem raise_kept (e : Nat) (s : State) (hs : Kept s0 s) : Kept s0 (raise e s) := by
  unfold raise
  extract_lets was src src2 s1
  have h1 : Kept s0 s1 := by
    refine hs.trans ⟨.refl _, ⟨fun i h => ?_, fun i h => ?_, rfl, rfl⟩, .refl _, rfl, .refl _, id, fun _ _ => rfl, fun _ => id, id, id⟩
    · simp [s1, h]
    · simp only [s1]; split <;> simp [h]
  clear_value s1
  split
  · exact fireVector_kept _ _ h1
  · exact h1

theorem raiseIf_kept (b : Bool) (e : Nat) (s : State) (hs : Kept s0 s) : Kept s0 (raiseIf b e s) := by
  unfold raiseIf
  try dsimp only
  with_reducible repeat' first | assumption | apply raise_kept | (apply kept_mk; exact rfl; exact rfl; exact rfl; exact rfl; exact rfl; exact rfl; exact rfl; exact rfl; exact rfl; exact rfl; (first | assumption | apply raise_kept | split)) | split | intro _

theorem dropRecord_kept (s : State) (hs : Kept s0 s) : Kept s0 (dropRecord s) := by
  unfold dropRecord
  try dsimp only
  with_reducible repeat' first | assumption | (apply kept_mk; exact rfl; exact rfl; exact rfl; exact rfl; exact rfl; exact rfl; exact rfl; exact rfl; exact rfl; exact rfl; (first | assumption | split)) | split | intro _

theorem journalRec_kept (r : JRec) (s : State) (hs : Kept s0 s) : Kept s0 (journalRec r s) := by
  unfold journalRec
  try dsimp only
  with_reducible repeat' first | assumption | apply count_kept | apply dropRecord_kept | (apply kept_mk; exact rfl; exact rfl; exact rfl; exact rfl; exact rfl; exact rfl; exact rfl; exact rfl; exact rfl; exact rfl; (first | assumption | apply count_kept | apply dropRecord_kept | split)) | split | intro _

theorem journal_kept (src code sev obj aux : Nat) (detail : List Byte) (s : State) (hs : Kept s0 s) : Kept s0 (journal src code sev obj aux detail s) := by
  unfold journal
  try dsimp only
  with_reducible repeat' first | assumption | apply journalRec_kept | (apply kept_mk; exact rfl; exact rfl; exact rfl; exact rfl; exact rfl; exact rfl; exact rfl; exact rfl; exact rfl; exact rfl; (first | assumption | apply journalRec_kept | split)) | split | intro _

theorem journalF_kept (src code sev obj aux : Nat) (detail : List Byte) (s : State) (hs : Kept s0 s) : Kept s0 (journalF src code sev obj aux detail s) := by
  unfold journalF
  try dsimp only
  with_reducible repeat' first | assumption | (apply kept_mk; exact rfl; exact rfl; exact rfl; exact rfl; exact rfl; exact rfl; exact rfl; exact rfl; exact rfl; exact rfl; (first | assumption | split)) | split | intro _

theorem takeBell_kept (m k : Nat) (s : State) (hs : Kept s0 s) : Kept s0 (takeBell m k s) := by
  refine hs.trans ⟨⟨id, rfl, rfl, rfl, rfl, rfl, fun _ _ => rfl, fun n j => .inl ?_⟩, .refl _, .refl _, rfl, .refl _, id, fun _ _ => rfl, fun _ => id, id, id⟩
  simp only [takeBell, setMb, tget_tset]
  by_cases h : n = m
  · subst h; rw [if_pos rfl]; rfl
  · rw [if_neg h]

theorem setMb_kept (m : Nat) (b : Mailbox) (s : State) (hs : Kept s0 s)
    (hb : ∀ k, tget .free b.slots k = slotOf s m k ∨ (slotOf s m k = .posted ∧ tget .free b.slots k = .done)) : Kept s0 (setMb m b s) := by
  refine hs.trans ⟨⟨id, rfl, rfl, rfl, rfl, rfl, fun _ _ => rfl, fun n k => ?_⟩, .refl _, .refl _, rfl, .refl _, id, fun _ _ => rfl, fun _ => id, id, id⟩
  simp only [setMb, tget_tset]
  by_cases h : n = m
  · subst h; simpa [slotOf, mbOf] using hb k
  · simp [h]

theorem doneSlot_kept (m k : Nat) (s : State) (hs : Kept s0 s) (h : slotOf s m k = .posted) : Kept s0 (setSlot m k .done s) := by
  refine setMb_kept _ _ _ hs (fun j => ?_)
  simp only [tget_tset]
  by_cases hj : j = k
  · subst hj; simp [h]
  · simp [hj, slotOf]

theorem bar2Write_kept (a : Nat) (b : List Byte) (s : State) (hs : Kept s0 s) (ha : 0x100000 ≤ a) : Kept s0 (bar2Write a b s) := by
  refine hs.trans ⟨⟨fun h => ⟨mwrite_wf h.1, h.2⟩, rfl, rfl, rfl, rfl, rfl, fun x hx => ?_, fun n k => .inl rfl⟩, .refl _, .refl _, rfl, .refl _, id, fun _ _ => rfl, fun _ => id, id, id⟩
  simp only [bar2Write, mget_mwrite]; rw [if_neg (by omega)]

theorem recordDone_kept (st : Status) (s : State) (hs : Kept s0 s) : Kept s0 (recordDone st s) := by
  unfold recordDone
  try dsimp only
  with_reducible repeat' first | assumption | (apply kept_mk; exact rfl; exact rfl; exact rfl; exact rfl; exact rfl; exact rfl; exact rfl; exact rfl; exact rfl; exact rfl; (first | assumption | split)) | split | intro _

theorem complete_kept (m k : Nat) (st : Status) (time state : Nat) (res : List Byte) (s : State) (hs : Kept s0 s) :
    Kept s0 (complete m k st time state res s) := by
  unfold complete; dsimp only
  split
  · exact recordDone_kept _ _ hs
  · split
    · exact hs
    · rename_i hp
      have hp : slotOf s m k = .posted := Classical.byContradiction hp
      have h1 : Kept s0 (if (hdrOf s m k).indResult && decide (res ≠ []) then emit .dma (hdrOf s m k).resAddr res s
          else bar2Write (cplBuf m k + 32) (res.take 992) s) := by
        split
        · exact emit_kept _ _ _ _ hs
        · exact bar2Write_kept _ _ _ hs (by unfold cplBuf; omega)
      have h2 := bar2Write_kept (cplBuf m k) (cplBytes (hdrOf s m k) st time state res s) _ h1 (by unfold cplBuf; omega)
      have h3 := doneSlot_kept m k _ h2 (by split <;> exact hp)
      split
      · exact h3
      · exact raise_kept _ _ h3

def SpecKept (sp : CmdSpec) : Prop := ∀ c s, (∀ {s0} st t, Kept s0 t → Kept s0 ((sp.body c s).refused st t)) ∧
  (∀ {s0} t, Kept s0 t → Kept s0 ((sp.body c s).act t).s)

theorem admitCmd_kept (sp : CmdSpec) (c : Cmd) (s : State) (hs : Kept s0 s) (hk : SpecKept sp) : Kept s0 (admitCmd sp c s) := by
  obtain ⟨hr, ha⟩ := hk c s
  unfold admitCmd
  extract_lets k pl s2 s1 a t adj
  split
  · have h1 : Kept s0 s2 := by
      simp only [s2]; split
      · exact count_kept _ _ _ hs
      · exact hs
    exact complete_kept _ _ _ _ _ _ _ (hr _ _ h1)
  · have h1 : Kept s0 s1 := by
      simp only [s1]; split
      · exact count_kept _ _ _ hs
      · exact hs
    clear_value s1
    clear_value adj t
    have h2 : Kept s0 a.s := ha _ (h1.trans ⟨.refl _, .refl _, .refl _, rfl, .refl _, id, fun _ _ => rfl, fun _ => id, id, id⟩)
    clear_value a
    split
    · exact takeBell_kept _ _ _ h2
    · exact complete_kept _ _ _ _ _ _ _ h2

theorem runCmd_kept (sp : CmdSpec) (r : CmdRef) (s : State) (hs : Kept s0 s) (hk : SpecKept sp) : Kept s0 (runCmd sp r s) := by
  unfold runCmd; split
  · exact admitCmd_kept _ _ _ hs hk
  · exact hs

theorem setAxis_kept (a : Nat) (x : AxisSt) (s : State) (hs : Kept s0 s) : Kept s0 (setAxis a x s) := by
  unfold setAxis
  try dsimp only
  with_reducible repeat' first | assumption | (apply kept_mk; exact rfl; exact rfl; exact rfl; exact rfl; exact rfl; exact rfl; exact rfl; exact rfl; exact rfl; exact rfl; (first | assumption | split)) | split | intro _

theorem modAxis_kept (a : Nat) (f : AxisSt → AxisSt) (s : State) (hs : Kept s0 s) : Kept s0 (modAxis a f s) := by
  unfold modAxis
  try dsimp only
  with_reducible repeat' first | assumption | apply setAxis_kept | (apply kept_mk; exact rfl; exact rfl; exact rfl; exact rfl; exact rfl; exact rfl; exact rfl; exact rfl; exact rfl; exact rfl; (first | assumption | apply setAxis_kept | split)) | split | intro _

theorem setGrp_kept (g : Nat) (x : GroupSt) (s : State) (hs : Kept s0 s) : Kept s0 (setGrp g x s) := by
  unfold setGrp
  try dsimp only
  with_reducible repeat' first | assumption | (apply kept_mk; exact rfl; exact rfl; exact rfl; exact rfl; exact rfl; exact rfl; exact rfl; exact rfl; exact rfl; exact rfl; (first | assumption | split)) | split | intro _

theorem modGrp_kept (g : Nat) (f : GroupSt → GroupSt) (s : State) (hs : Kept s0 s) : Kept s0 (modGrp g f s) := by
  unfold modGrp
  try dsimp only
  with_reducible repeat' first | assumption | apply setGrp_kept | (apply kept_mk; exact rfl; exact rfl; exact rfl; exact rfl; exact rfl; exact rfl; exact rfl; exact rfl; exact rfl; exact rfl; (first | assumption | apply setGrp_kept | split)) | split | intro _

theorem setChan_kept (c : Nat) (x : Chan) (s : State) (hs : Kept s0 s) : Kept s0 (setChan c x s) := by
  unfold setChan
  try dsimp only
  with_reducible repeat' first | assumption | (apply kept_mk; exact rfl; exact rfl; exact rfl; exact rfl; exact rfl; exact rfl; exact rfl; exact rfl; exact rfl; exact rfl; (first | assumption | split)) | split | intro _

theorem modChan_kept (c : Nat) (f : Chan → Chan) (s : State) (hs : Kept s0 s) : Kept s0 (modChan c f s) := by
  unfold modChan
  try dsimp only
  with_reducible repeat' first | assumption | apply setChan_kept | (apply kept_mk; exact rfl; exact rfl; exact rfl; exact rfl; exact rfl; exact rfl; exact rfl; exact rfl; exact rfl; exact rfl; (first | assumption | apply setChan_kept | split)) | split | intro _

theorem setFg_kept (x : Nat) (v : FieldGroup) (s : State) (hs : Kept s0 s) : Kept s0 (setFg x v s) := by
  unfold setFg
  try dsimp only
  with_reducible repeat' first | assumption | (apply kept_mk; exact rfl; exact rfl; exact rfl; exact rfl; exact rfl; exact rfl; exact rfl; exact rfl; exact rfl; exact rfl; (first | assumption | split)) | split | intro _

theorem setStp_kept (n : Nat) (v : StpAxis) (s : State) (hs : Kept s0 s) : Kept s0 (setStp n v s) := by
  unfold setStp
  try dsimp only
  with_reducible repeat' first | assumption | (apply kept_mk; exact rfl; exact rfl; exact rfl; exact rfl; exact rfl; exact rfl; exact rfl; exact rfl; exact rfl; exact rfl; (first | assumption | split)) | split | intro _

theorem stpPut_kept (n : Nat) (y : StpAxis) (s : State) (hs : Kept s0 s) : Kept s0 (stpPut n y s) := by
  unfold stpPut
  split
  · exact setStp_kept _ _ _ hs
  · exact emit_kept _ _ _ _ (setStp_kept _ _ _ hs)

theorem setSeg_kept (k : Nat) (v : Segment) (s : State) (hs : Kept s0 s) : Kept s0 (setSeg k v s) := by
  unfold setSeg
  try dsimp only
  with_reducible repeat' first | assumption | (apply kept_mk; exact rfl; exact rfl; exact rfl; exact rfl; exact rfl; exact rfl; exact rfl; exact rfl; exact rfl; exact rfl; (first | assumption | split)) | split | intro _

theorem forNat_kept (l : List Nat) (f : Nat → State → State) (s : State) (hf : ∀ n t, Kept s0 t → Kept s0 (f n t)) (hs : Kept s0 s) :
    Kept s0 (forNat l f s) := by
  induction l generalizing s with
  | nil => exact hs
  | cons x r ih => exact ih _ (hf _ _ hs)

theorem reqStopGrp_kept (g cat : Nat) (s : State) (hs : Kept s0 s) : Kept s0 (reqStopGrp g cat s) := by
  unfold reqStopGrp
  try dsimp only
  with_reducible repeat' first | assumption | apply modGrp_kept | (apply kept_mk; exact rfl; exact rfl; exact rfl; exact rfl; exact rfl; exact rfl; exact rfl; exact rfl; exact rfl; exact rfl; (first | assumption | apply modGrp_kept | split)) | split | intro _

theorem reqStopAxis_kept (a cat : Nat) (s : State) (hs : Kept s0 s) : Kept s0 (reqStopAxis a cat s) := by
  unfold reqStopAxis
  try dsimp only
  with_reducible repeat' first | assumption | apply modAxis_kept | (apply kept_mk; exact rfl; exact rfl; exact rfl; exact rfl; exact rfl; exact rfl; exact rfl; exact rfl; exact rfl; exact rfl; (first | assumption | apply modAxis_kept | split)) | split | intro _

theorem reqFault_kept (a code : Nat) (s : State) (hs : Kept s0 s) : Kept s0 (reqFault a code s) := by
  unfold reqFault
  try dsimp only
  with_reducible repeat' first | assumption | apply modAxis_kept | (apply kept_mk; exact rfl; exact rfl; exact rfl; exact rfl; exact rfl; exact rfl; exact rfl; exact rfl; exact rfl; exact rfl; (first | assumption | apply modAxis_kept | split)) | split | intro _

theorem reqStopAll_kept (cat : Nat) (s : State) (hs : Kept s0 s) : Kept s0 (reqStopAll cat s) := by
  unfold reqStopAll
  try dsimp only
  with_reducible repeat' first | assumption | apply forNat_kept | apply reqStopGrp_kept | (apply kept_mk; exact rfl; exact rfl; exact rfl; exact rfl; exact rfl; exact rfl; exact rfl; exact rfl; exact rfl; exact rfl; (first | assumption | apply forNat_kept | apply reqStopGrp_kept | split)) | split | intro _

theorem post_kept (c : Cmd) (s : State) (hs : Kept s0 s) : Kept s0 (post c s) := by
  unfold post
  try dsimp only
  with_reducible repeat' first | assumption | (apply kept_mk; exact rfl; exact rfl; exact rfl; exact rfl; exact rfl; exact rfl; exact rfl; exact rfl; exact rfl; exact rfl; (first | assumption | split)) | split | intro _

theorem later_kept (c : Cmd) (s : State) (hs : Kept s0 s) : Kept s0 (later c s).s := post_kept c s hs

theorem takeEff_kept (op : Nat → Bool) (t : Nat) (s : State) (hs : Kept s0 s) : Kept s0 (takeEff op t s).2 :=
  kept_mk rfl rfl rfl rfl rfl rfl rfl rfl rfl rfl hs

theorem setDir_kept (d : Die) (x : XDir) (s : State) (hs : Kept s0 s) : Kept s0 (setDir d x s) := by
  unfold setDir
  try dsimp only
  with_reducible repeat' first | assumption | (apply kept_mk; exact rfl; exact rfl; exact rfl; exact rfl; exact rfl; exact rfl; exact rfl; exact rfl; exact rfl; exact rfl; (first | assumption | split)) | split | intro _

theorem xsendFlit_kept (d : Die) (cls : Nat) (data : List Byte) (s : State) (hs : Kept s0 s) : Kept s0 (xsendFlit d cls data s) := by
  unfold xsendFlit
  try dsimp only
  with_reducible repeat' first | assumption | apply emit_kept | apply setDir_kept | (apply kept_mk; exact rfl; exact rfl; exact rfl; exact rfl; exact rfl; exact rfl; exact rfl; exact rfl; exact rfl; exact rfl; (first | assumption | apply emit_kept | apply setDir_kept | split)) | split | intro _

theorem xsend_kept (d : Die) (cls : Nat) (data : List Byte) (s : State) (hs : Kept s0 s) : Kept s0 (xsend d cls data s) := by
  unfold xsend
  try dsimp only
  with_reducible repeat' first | assumption | apply xsendFlit_kept | apply foldl_kept | (apply kept_mk; exact rfl; exact rfl; exact rfl; exact rfl; exact rfl; exact rfl; exact rfl; exact rfl; exact rfl; exact rfl; (first | assumption | apply xsendFlit_kept | apply foldl_kept | split)) | split | intro _

theorem xacked_kept (d : Die) (upTo : BitVec 12) (s : State) (hs : Kept s0 s) : Kept s0 (xacked d upTo s) := by
  unfold xacked
  try dsimp only
  with_reducible repeat' first | assumption | apply setDir_kept | (apply kept_mk; exact rfl; exact rfl; exact rfl; exact rfl; exact rfl; exact rfl; exact rfl; exact rfl; exact rfl; exact rfl; (first | assumption | apply setDir_kept | split)) | split | intro _

theorem xreplay_kept (d : Die) (seq : BitVec 12) (s : State) (hs : Kept s0 s) : Kept s0 (xreplay d seq s) := by
  unfold xreplay
  try dsimp only
  with_reducible repeat' first | assumption | apply emit_kept | apply setDir_kept | apply foldl_kept | (apply kept_mk; exact rfl; exact rfl; exact rfl; exact rfl; exact rfl; exact rfl; exact rfl; exact rfl; exact rfl; exact rfl; (first | assumption | apply emit_kept | apply setDir_kept | apply foldl_kept | split)) | split | intro _

theorem setCls_kept (k : Nat) (v : ClassSt) (s : State) (hs : Kept s0 s) : Kept s0 (setCls k v s) := by
  unfold setCls
  try dsimp only
  with_reducible repeat' first | assumption | (apply kept_mk; exact rfl; exact rfl; exact rfl; exact rfl; exact rfl; exact rfl; exact rfl; exact rfl; exact rfl; exact rfl; (first | assumption | split)) | split | intro _

theorem noteDepth_kept (k : Nat) (s : State) (hs : Kept s0 s) : Kept s0 (noteDepth k s) := by
  unfold noteDepth
  try dsimp only
  with_reducible repeat' first | assumption | apply raiseIf_kept | apply setCls_kept | (apply kept_mk; exact rfl; exact rfl; exact rfl; exact rfl; exact rfl; exact rfl; exact rfl; exact rfl; exact rfl; exact rfl; (first | assumption | apply raiseIf_kept | apply setCls_kept | split)) | split | intro _

theorem setShares_kept (l : List Share) (s : State) (hs : Kept s0 s) : Kept s0 (setShares l s) := by
  unfold setShares
  try dsimp only
  with_reducible repeat' first | assumption | apply forNat_kept | apply noteDepth_kept | (apply kept_mk; exact rfl; exact rfl; exact rfl; exact rfl; exact rfl; exact rfl; exact rfl; exact rfl; exact rfl; exact rfl; (first | assumption | apply forNat_kept | apply noteDepth_kept | split)) | split | intro _

theorem freeShares_kept (p : Share → Bool) (s : State) (hs : Kept s0 s) : Kept s0 (freeShares p s) := by
  unfold freeShares
  try dsimp only
  with_reducible repeat' first | assumption | apply setShares_kept | (apply kept_mk; exact rfl; exact rfl; exact rfl; exact rfl; exact rfl; exact rfl; exact rfl; exact rfl; exact rfl; exact rfl; (first | assumption | apply setShares_kept | split)) | split | intro _

theorem tileMarks_kept (u : Nat) (m : Marks) (s : State) (hs : Kept s0 s) : Kept s0 (tileMarks u m s) := by
  unfold tileMarks
  try dsimp only
  with_reducible repeat' first | assumption | apply countN_kept | (apply kept_mk; exact rfl; exact rfl; exact rfl; exact rfl; exact rfl; exact rfl; exact rfl; exact rfl; exact rfl; exact rfl; (first | assumption | apply countN_kept | split)) | split | intro _

theorem loopConfigureSpec_kept  : SpecKept (loopConfigureSpec ) := by
  refine fun c s => ⟨fun st t ht => ?_, fun t ht => ?_⟩ <;> unfold loopConfigureSpec <;> (try dsimp only)
  all_goals with_reducible repeat' first | assumption | apply modAxis_kept | (apply kept_mk; exact rfl; exact rfl; exact rfl; exact rfl; exact rfl; exact rfl; exact rfl; exact rfl; exact rfl; exact rfl; (first | assumption | apply modAxis_kept | split)) | split | intro _

theorem loopSetCompSpec_kept  : SpecKept (loopSetCompSpec ) := by
  refine fun c s => ⟨fun st t ht => ?_, fun t ht => ?_⟩ <;> unfold loopSetCompSpec <;> (try dsimp only)
  all_goals with_reducible repeat' first | assumption | apply later_kept | apply later_kept | (apply kept_mk; exact rfl; exact rfl; exact rfl; exact rfl; exact rfl; exact rfl; exact rfl; exact rfl; exact rfl; exact rfl; (first | assumption | apply later_kept | apply later_kept | split)) | split | intro _

theorem loopSetFilterSpec_kept  : SpecKept (loopSetFilterSpec ) := by
  refine fun c s => ⟨fun st t ht => ?_, fun t ht => ?_⟩ <;> unfold loopSetFilterSpec <;> (try dsimp only)
  all_goals with_reducible repeat' first | assumption | apply post_kept | (apply kept_mk; exact rfl; exact rfl; exact rfl; exact rfl; exact rfl; exact rfl; exact rfl; exact rfl; exact rfl; exact rfl; (first | assumption | apply post_kept | split)) | split | intro _

theorem loopSetCascadeSpec_kept  : SpecKept (loopSetCascadeSpec ) := by
  refine fun c s => ⟨fun st t ht => ?_, fun t ht => ?_⟩ <;> unfold loopSetCascadeSpec <;> (try dsimp only)
  all_goals with_reducible repeat' first | assumption | apply later_kept | apply later_kept | (apply kept_mk; exact rfl; exact rfl; exact rfl; exact rfl; exact rfl; exact rfl; exact rfl; exact rfl; exact rfl; exact rfl; (first | assumption | apply later_kept | apply later_kept | split)) | split | intro _

theorem loopSetCoeffSpec_kept  : SpecKept (loopSetCoeffSpec ) := by
  refine fun c s => ⟨fun st t ht => ?_, fun t ht => ?_⟩ <;> unfold loopSetCoeffSpec <;> (try dsimp only)
  all_goals with_reducible repeat' first | assumption | apply later_kept | apply later_kept | (apply kept_mk; exact rfl; exact rfl; exact rfl; exact rfl; exact rfl; exact rfl; exact rfl; exact rfl; exact rfl; exact rfl; (first | assumption | apply later_kept | apply later_kept | split)) | split | intro _

theorem loopEff_kept (t : Nat) (e : Eff) (s : State) (hs : Kept s0 s) : Kept s0 (loopEff t e s) := by
  unfold loopEff
  try dsimp only
  with_reducible repeat' first | assumption | apply raise_kept | apply setAxis_kept | (apply kept_mk; exact rfl; exact rfl; exact rfl; exact rfl; exact rfl; exact rfl; exact rfl; exact rfl; exact rfl; exact rfl; (first | assumption | apply raise_kept | apply setAxis_kept | split)) | split | intro _

theorem loopSetLimitsSpec_kept  : SpecKept (loopSetLimitsSpec ) := by
  refine fun c s => ⟨fun st t ht => ?_, fun t ht => ?_⟩ <;> unfold loopSetLimitsSpec <;> (try dsimp only)
  all_goals with_reducible repeat' first | assumption | apply later_kept | apply later_kept | (apply kept_mk; exact rfl; exact rfl; exact rfl; exact rfl; exact rfl; exact rfl; exact rfl; exact rfl; exact rfl; exact rfl; (first | assumption | apply later_kept | apply later_kept | split)) | split | intro _

theorem loopStatusSpec_kept  : SpecKept (loopStatusSpec ) := by
  refine fun c s => ⟨fun st t ht => ?_, fun t ht => ?_⟩ <;> unfold loopStatusSpec <;> (try dsimp only)
  all_goals with_reducible repeat' first | assumption | (apply kept_mk; exact rfl; exact rfl; exact rfl; exact rfl; exact rfl; exact rfl; exact rfl; exact rfl; exact rfl; exact rfl; (first | assumption | split)) | split | intro _

theorem loopReadCoeffSpec_kept  : SpecKept (loopReadCoeffSpec ) := by
  refine fun c s => ⟨fun st t ht => ?_, fun t ht => ?_⟩ <;> unfold loopReadCoeffSpec <;> (try dsimp only)
  all_goals with_reducible repeat' first | assumption | (apply kept_mk; exact rfl; exact rfl; exact rfl; exact rfl; exact rfl; exact rfl; exact rfl; exact rfl; exact rfl; exact rfl; (first | assumption | split)) | split | intro _

theorem setUnit_kept (u : Nat) (a : Option Armed) (s : State) (hs : Kept s0 s) : Kept s0 (setUnit u a s) := by
  unfold setUnit
  try dsimp only
  with_reducible repeat' first | assumption | (apply kept_mk; exact rfl; exact rfl; exact rfl; exact rfl; exact rfl; exact rfl; exact rfl; exact rfl; exact rfl; exact rfl; (first | assumption | split)) | split | intro _

theorem arm_kept (a : Armed) (s : State) (hs : Kept s0 s) : Kept s0 (arm a s) := by
  unfold arm
  try dsimp only
  with_reducible repeat' first | assumption | apply count_kept | apply setUnit_kept | (apply kept_mk; exact rfl; exact rfl; exact rfl; exact rfl; exact rfl; exact rfl; exact rfl; exact rfl; exact rfl; exact rfl; (first | assumption | apply count_kept | apply setUnit_kept | split)) | split | intro _

theorem freeUnits_kept (p : Armed → Bool) (s : State) (hs : Kept s0 s) : Kept s0 (freeUnits p s) := by
  unfold freeUnits
  try dsimp only
  with_reducible repeat' first | assumption | (apply kept_mk; exact rfl; exact rfl; exact rfl; exact rfl; exact rfl; exact rfl; exact rfl; exact rfl; exact rfl; exact rfl; (first | assumption | split)) | split | intro _

theorem cancelDieF_kept (s : State) (hs : Kept s0 s) : Kept s0 (cancelDieF s) := by
  unfold cancelDieF
  try dsimp only
  with_reducible repeat' first | assumption | (apply kept_mk; exact rfl; exact rfl; exact rfl; exact rfl; exact rfl; exact rfl; exact rfl; exact rfl; exact rfl; exact rfl; (first | assumption | split)) | split | intro _

theorem drivePin_kept (c : Nat) (v : Bool) (s : State) (hs : Kept s0 s) : Kept s0 (drivePin c v s) := by
  unfold drivePin
  try dsimp only
  with_reducible repeat' first | assumption | apply count_kept | apply emit_kept | apply setChan_kept | (apply kept_mk; exact rfl; exact rfl; exact rfl; exact rfl; exact rfl; exact rfl; exact rfl; exact rfl; exact rfl; exact rfl; (first | assumption | apply count_kept | apply emit_kept | apply setChan_kept | split)) | split | intro _

theorem pinsAll_kept (s : State) (hs : Kept s0 s) : Kept s0 (pinsAll s) := by
  unfold pinsAll
  try dsimp only
  with_reducible repeat' first | assumption | apply drivePin_kept | apply forNat_kept | (apply kept_mk; exact rfl; exact rfl; exact rfl; exact rfl; exact rfl; exact rfl; exact rfl; exact rfl; exact rfl; exact rfl; (first | assumption | apply drivePin_kept | apply forNat_kept | split)) | split | intro _

theorem pinsOff_kept (s : State) (hs : Kept s0 s) : Kept s0 (pinsOff s) := by
  unfold pinsOff
  try dsimp only
  with_reducible repeat' first | assumption | apply drivePin_kept | apply forNat_kept | (apply kept_mk; exact rfl; exact rfl; exact rfl; exact rfl; exact rfl; exact rfl; exact rfl; exact rfl; exact rfl; exact rfl; (first | assumption | apply drivePin_kept | apply forNat_kept | split)) | split | intro _

theorem fioReport_kept (ev : Option Nat) (code sev obj : Nat) (detail : List Byte) (s : State) (hs : Kept s0 s) : Kept s0 (fioReport ev code sev obj detail s) := by
  unfold fioReport
  try dsimp only
  with_reducible repeat' first | assumption | apply journal_kept | apply raise_kept | (apply kept_mk; exact rfl; exact rfl; exact rfl; exact rfl; exact rfl; exact rfl; exact rfl; exact rfl; exact rfl; exact rfl; (first | assumption | apply journal_kept | apply raise_kept | split)) | split | intro _

theorem addCode_kept (c code sev : Nat) (s : State) (hs : Kept s0 s) : Kept s0 (addCode c code sev s) := by
  unfold addCode
  try dsimp only
  with_reducible repeat' first | assumption | apply count_kept | apply fioReport_kept | apply freeNext_kept | apply setChan_kept | (apply kept_mk; exact rfl; exact rfl; exact rfl; exact rfl; exact rfl; exact rfl; exact rfl; exact rfl; exact rfl; exact rfl; (first | assumption | apply count_kept | apply fioReport_kept | apply freeNext_kept | apply setChan_kept | split)) | split | intro _

theorem clearCode_kept (c code : Nat) (s : State) (hs : Kept s0 s) : Kept s0 (clearCode c code s) := by
  unfold clearCode
  try dsimp only
  with_reducible repeat' first | assumption | apply fioReport_kept | apply freeNext_kept | apply setChan_kept | (apply kept_mk; exact rfl; exact rfl; exact rfl; exact rfl; exact rfl; exact rfl; exact rfl; exact rfl; exact rfl; exact rfl; (first | assumption | apply fioReport_kept | apply freeNext_kept | apply setChan_kept | split)) | split | intro _

theorem tripChan_kept (c : Nat) (s : State) (hs : Kept s0 s) : Kept s0 (tripChan c s) := by
  unfold tripChan
  try dsimp only
  with_reducible repeat' first | assumption | apply count_kept | apply pinsOff_kept | apply setChan_kept | (apply kept_mk; exact rfl; exact rfl; exact rfl; exact rfl; exact rfl; exact rfl; exact rfl; exact rfl; exact rfl; exact rfl; (first | assumption | apply count_kept | apply pinsOff_kept | apply setChan_kept | split)) | split | intro _

theorem overload_kept (c : Nat) (s : State) (hs : Kept s0 s) : Kept s0 (overload c s) := by
  unfold overload
  try dsimp only
  with_reducible repeat' first | assumption | apply addCode_kept | apply tripChan_kept | (apply kept_mk; exact rfl; exact rfl; exact rfl; exact rfl; exact rfl; exact rfl; exact rfl; exact rfl; exact rfl; exact rfl; (first | assumption | apply addCode_kept | apply tripChan_kept | split)) | split | intro _

theorem overtemp_kept (c tj : Nat) (s : State) (hs : Kept s0 s) : Kept s0 (overtemp c tj s) := by
  unfold overtemp
  try dsimp only
  with_reducible repeat' first | assumption | apply addCode_kept | apply modChan_kept | apply pinsOff_kept | (apply kept_mk; exact rfl; exact rfl; exact rfl; exact rfl; exact rfl; exact rfl; exact rfl; exact rfl; exact rfl; exact rfl; (first | assumption | apply addCode_kept | apply modChan_kept | apply pinsOff_kept | split)) | split | intro _

theorem overtempTrip_kept (c tj : Nat) (s : State) (hs : Kept s0 s) : Kept s0 (overtempTrip c tj s) := by
  unfold overtempTrip
  try dsimp only
  with_reducible repeat' first | assumption | apply modChan_kept | apply tripChan_kept | (apply kept_mk; exact rfl; exact rfl; exact rfl; exact rfl; exact rfl; exact rfl; exact rfl; exact rfl; exact rfl; exact rfl; (first | assumption | apply modChan_kept | apply tripChan_kept | split)) | split | intro _

theorem groupOverload_kept (x : Nat) (cur : List (BitVec 16)) (s : State) (hs : Kept s0 s) : Kept s0 (groupOverload x cur s) := by
  unfold groupOverload
  try dsimp only
  with_reducible repeat' first | assumption | apply addCode_kept | apply forNat_kept | apply modChan_kept | apply tripChan_kept | apply foldl_kept | (apply kept_mk; exact rfl; exact rfl; exact rfl; exact rfl; exact rfl; exact rfl; exact rfl; exact rfl; exact rfl; exact rfl; (first | assumption | apply addCode_kept | apply forNat_kept | apply modChan_kept | apply tripChan_kept | apply foldl_kept | split)) | split | intro _

theorem shortFlp_kept (c : Nat) (s : State) (hs : Kept s0 s) : Kept s0 (shortFlp c s) := by
  unfold shortFlp
  try dsimp only
  with_reducible repeat' first | assumption | apply addCode_kept | apply advanceTo_kept | (apply kept_mk; exact rfl; exact rfl; exact rfl; exact rfl; exact rfl; exact rfl; exact rfl; exact rfl; exact rfl; exact rfl; (first | assumption | apply addCode_kept | apply advanceTo_kept | split)) | split | intro _

theorem openOff_kept (c : Nat) (s : State) (hs : Kept s0 s) : Kept s0 (openOff c s) := by
  unfold openOff
  try dsimp only
  with_reducible repeat' first | assumption | apply addCode_kept | apply advanceTo_kept | (apply kept_mk; exact rfl; exact rfl; exact rfl; exact rfl; exact rfl; exact rfl; exact rfl; exact rfl; exact rfl; exact rfl; (first | assumption | apply addCode_kept | apply advanceTo_kept | split)) | split | intro _

theorem openOn_kept (c : Nat) (s : State) (hs : Kept s0 s) : Kept s0 (openOn c s) := by
  unfold openOn
  try dsimp only
  with_reducible repeat' first | assumption | apply addCode_kept | apply advanceTo_kept | (apply kept_mk; exact rfl; exact rfl; exact rfl; exact rfl; exact rfl; exact rfl; exact rfl; exact rfl; exact rfl; exact rfl; (first | assumption | apply addCode_kept | apply advanceTo_kept | split)) | split | intro _

theorem openInput_kept (c : Nat) (low : Bool) (s : State) (hs : Kept s0 s) : Kept s0 (openInput c low s) := by
  unfold openInput
  try dsimp only
  with_reducible repeat' first | assumption | apply addCode_kept | apply clearCode_kept | (apply kept_mk; exact rfl; exact rfl; exact rfl; exact rfl; exact rfl; exact rfl; exact rfl; exact rfl; exact rfl; exact rfl; (first | assumption | apply addCode_kept | apply clearCode_kept | split)) | split | intro _

theorem channelRestart_kept (c : Nat) (s : State) (hs : Kept s0 s) : Kept s0 (channelRestart c s) := by
  unfold channelRestart
  try dsimp only
  with_reducible repeat' first | assumption | apply advanceTo_kept | apply setChan_kept | (apply kept_mk; exact rfl; exact rfl; exact rfl; exact rfl; exact rfl; exact rfl; exact rfl; exact rfl; exact rfl; exact rfl; (first | assumption | apply advanceTo_kept | apply setChan_kept | split)) | split | intro _

theorem setSupply_kept (x code mv : Nat) (s : State) (hs : Kept s0 s) : Kept s0 (setSupply x code mv s) := by
  unfold setSupply
  try dsimp only
  with_reducible repeat' first | assumption | apply count_kept | apply fioReport_kept | apply setFg_kept | (apply kept_mk; exact rfl; exact rfl; exact rfl; exact rfl; exact rfl; exact rfl; exact rfl; exact rfl; exact rfl; exact rfl; (first | assumption | apply count_kept | apply fioReport_kept | apply setFg_kept | split)) | split | intro _

theorem supplyLow_kept (x mv : Nat) (s : State) (hs : Kept s0 s) : Kept s0 (supplyLow x mv s) := by
  unfold supplyLow
  try dsimp only
  with_reducible repeat' first | assumption | apply setFg_kept | apply setSupply_kept | (apply kept_mk; exact rfl; exact rfl; exact rfl; exact rfl; exact rfl; exact rfl; exact rfl; exact rfl; exact rfl; exact rfl; (first | assumption | apply setFg_kept | apply setSupply_kept | split)) | split | intro _

theorem supplyLatch_kept (x code mv : Nat) (s : State) (hs : Kept s0 s) : Kept s0 (supplyLatch x code mv s) := by
  unfold supplyLatch
  try dsimp only
  with_reducible repeat' first | assumption | apply pinsOff_kept | apply setFg_kept | apply setSupply_kept | (apply kept_mk; exact rfl; exact rfl; exact rfl; exact rfl; exact rfl; exact rfl; exact rfl; exact rfl; exact rfl; exact rfl; (first | assumption | apply pinsOff_kept | apply setFg_kept | apply setSupply_kept | split)) | split | intro _

theorem supplyRelease_kept (x : Nat) (s : State) (hs : Kept s0 s) : Kept s0 (supplyRelease x s) := by
  unfold supplyRelease
  try dsimp only
  with_reducible repeat' first | assumption | apply setFg_kept | apply setSupply_kept | (apply kept_mk; exact rfl; exact rfl; exact rfl; exact rfl; exact rfl; exact rfl; exact rfl; exact rfl; exact rfl; exact rfl; (first | assumption | apply setFg_kept | apply setSupply_kept | split)) | split | intro _

theorem supplyLatchRelease_kept (x : Nat) (s : State) (hs : Kept s0 s) : Kept s0 (supplyLatchRelease x s) := by
  unfold supplyLatchRelease
  try dsimp only
  with_reducible repeat' first | assumption | apply advanceTo_kept | apply pinsAll_kept | apply supplyRelease_kept | (apply kept_mk; exact rfl; exact rfl; exact rfl; exact rfl; exact rfl; exact rfl; exact rfl; exact rfl; exact rfl; exact rfl; (first | assumption | apply advanceTo_kept | apply pinsAll_kept | apply supplyRelease_kept | split)) | split | intro _

theorem flpFirstRise_kept (x mv : Nat) (s : State) (hs : Kept s0 s) : Kept s0 (flpFirstRise x mv s) := by
  unfold flpFirstRise
  try dsimp only
  with_reducible repeat' first | assumption | apply setFg_kept | apply setSupply_kept | (apply kept_mk; exact rfl; exact rfl; exact rfl; exact rfl; exact rfl; exact rfl; exact rfl; exact rfl; exact rfl; exact rfl; (first | assumption | apply setFg_kept | apply setSupply_kept | split)) | split | intro _

theorem levelChange_kept (c : Nat) (v : Bool) (s : State) (hs : Kept s0 s) : Kept s0 (levelChange c v s) := by
  unfold levelChange
  try dsimp only
  with_reducible repeat' first | assumption | apply clearCode_kept | apply setChan_kept | (apply kept_mk; exact rfl; exact rfl; exact rfl; exact rfl; exact rfl; exact rfl; exact rfl; exact rfl; exact rfl; exact rfl; (first | assumption | apply clearCode_kept | apply setChan_kept | split)) | split | intro _

theorem inputFiltered_kept (c : Nat) (s : State) (hs : Kept s0 s) : Kept s0 (inputFiltered c s) := by
  unfold inputFiltered
  try dsimp only
  with_reducible repeat' first | assumption | apply advanceTo_kept | apply setChan_kept | (apply kept_mk; exact rfl; exact rfl; exact rfl; exact rfl; exact rfl; exact rfl; exact rfl; exact rfl; exact rfl; exact rfl; (first | assumption | apply advanceTo_kept | apply setChan_kept | split)) | split | intro _

theorem writeCh_kept (f : Chan → Bool → Chan) (mask value : Word) (s : State) (hs : Kept s0 s) : Kept s0 (writeCh f mask value s) := by
  unfold writeCh
  try dsimp only
  with_reducible repeat' first | assumption | apply forNat_kept | apply modChan_kept | (apply kept_mk; exact rfl; exact rfl; exact rfl; exact rfl; exact rfl; exact rfl; exact rfl; exact rfl; exact rfl; exact rfl; (first | assumption | apply forNat_kept | apply modChan_kept | split)) | split | intro _

theorem buildImage_kept (t : Nat) (s : State) (hs : Kept s0 s) : Kept s0 (buildImage t s) := by
  unfold buildImage
  try dsimp only
  with_reducible repeat' first | assumption | apply setUnit_kept | apply writeCh_kept | apply foldl_kept | (apply kept_mk; exact rfl; exact rfl; exact rfl; exact rfl; exact rfl; exact rfl; exact rfl; exact rfl; exact rfl; exact rfl; (first | assumption | apply setUnit_kept | apply writeCh_kept | apply foldl_kept | split)) | split | intro _

theorem outputImage_kept (crcOk : Bool) (s : State) (hs : Kept s0 s) : Kept s0 (outputImage crcOk s) := by
  unfold outputImage
  try dsimp only
  with_reducible repeat' first | assumption | apply count_kept | apply forNat_kept | (apply kept_mk; exact rfl; exact rfl; exact rfl; exact rfl; exact rfl; exact rfl; exact rfl; exact rfl; exact rfl; exact rfl; (first | assumption | apply count_kept | apply forNat_kept | split)) | split | intro _

theorem ioCadence_kept (s : State) (hs : Kept s0 s) : Kept s0 (ioCadence s) := by
  unfold ioCadence
  try dsimp only
  with_reducible repeat' first | assumption | apply forNat_kept | apply pinsAll_kept | apply supplyRelease_kept | apply writeCh_kept | (apply kept_mk; exact rfl; exact rfl; exact rfl; exact rfl; exact rfl; exact rfl; exact rfl; exact rfl; exact rfl; exact rfl; (first | assumption | apply forNat_kept | apply pinsAll_kept | apply supplyRelease_kept | apply writeCh_kept | split)) | split | intro _

theorem stpSafe_kept (n : Nat) (s : State) (hs : Kept s0 s) : Kept s0 (stpSafe n s) := by
  unfold stpSafe
  try dsimp only
  with_reducible repeat' first | assumption | apply journal_kept | apply raise_kept | apply stpPut_kept | apply setStp_kept | (apply kept_mk; exact rfl; exact rfl; exact rfl; exact rfl; exact rfl; exact rfl; exact rfl; exact rfl; exact rfl; exact rfl; (first | assumption | apply journal_kept | apply raise_kept | apply stpPut_kept | apply setStp_kept | split)) | split | intro _

theorem kept_dev (d : DevSt) (s : State) (hs : Kept s0 s) (hf : FusesLe s.dev.fuses d.fuses) (hm : s.dev.mode = .fault → d.mode = .fault)
    (hc : s.dev.mode = .fault → s.dev.faultCause ≠ 0 → d.faultCause = s.dev.faultCause)
    (hn : s.dev.mode = .fault → s.dev.faultN = true → d.faultN = true) (hz : s.dev.frozen = true → d.frozen = true) : Kept s0 { s with dev := d } :=
  hs.trans ⟨.refl _, .refl _, .refl _, rfl, hf, hm, hc, hn, id, hz⟩

theorem enterSafe_kept (why : Nat) (s : State) (hs : Kept s0 s) : Kept s0 (enterSafe why s) := by
  unfold enterSafe
  split
  · exact hs
  · extract_lets src s1 s2 src2
    have h1 : Kept s0 s1 := hs.trans ⟨.refl _, .refl _, .refl _, rfl, .refl _, id, fun _ _ => rfl, fun _ => id, id, id⟩
    clear_value s1
    have h2 : Kept s0 s2 := forNat_kept _ _ _ (fun n t h => stpSafe_kept n t h) (pinsAll_kept _ (cancelDieF_kept _ h1))
    have key : ∀ u, Kept s0 u → Kept s0 { u with dev := { u.dev with faultN := true } } :=
      fun u h => kept_dev _ u h (.refl _) id (fun _ _ => rfl) (fun _ _ => rfl) id
    exact key _ h2

theorem logicSilence_kept (s : State) (hs : Kept s0 s) : Kept s0 (logicSilence s) := by
  unfold logicSilence
  try dsimp only
  with_reducible repeat' first | assumption | apply advanceTo_kept | apply enterSafe_kept | apply journalF_kept | (apply kept_mk; exact rfl; exact rfl; exact rfl; exact rfl; exact rfl; exact rfl; exact rfl; exact rfl; exact rfl; exact rfl; (first | assumption | apply advanceTo_kept | apply enterSafe_kept | apply journalF_kept | split)) | split | intro _

theorem badInput_kept (x : Nat) (s : State) (hs : Kept s0 s) : Kept s0 (badInput x s) := by
  unfold badInput
  try dsimp only
  with_reducible repeat' first | assumption | apply forNat_kept | apply reqStopAxis_kept | apply reqStopGrp_kept | (apply kept_mk; exact rfl; exact rfl; exact rfl; exact rfl; exact rfl; exact rfl; exact rfl; exact rfl; exact rfl; exact rfl; (first | assumption | apply forNat_kept | apply reqStopAxis_kept | apply reqStopGrp_kept | split)) | split | intro _

theorem inputImage_kept (s : State) (hs : Kept s0 s) : Kept s0 (inputImage s) := by
  unfold inputImage
  try dsimp only
  with_reducible repeat' first | assumption | apply badInput_kept | apply forNat_kept | apply raise_kept | apply reqStopGrp_kept | apply setFg_kept | apply foldl_kept | (apply kept_mk; exact rfl; exact rfl; exact rfl; exact rfl; exact rfl; exact rfl; exact rfl; exact rfl; exact rfl; exact rfl; (first | assumption | apply badInput_kept | apply forNat_kept | apply raise_kept | apply reqStopGrp_kept | apply setFg_kept | apply foldl_kept | split)) | split | intro _

theorem stoGroup_kept (g : Nat) (s : State) (hs : Kept s0 s) : Kept s0 (stoGroup g s) := by
  unfold stoGroup
  try dsimp only
  with_reducible repeat' first | assumption | apply forNat_kept | apply modChan_kept | apply pinsOff_kept | (apply kept_mk; exact rfl; exact rfl; exact rfl; exact rfl; exact rfl; exact rfl; exact rfl; exact rfl; exact rfl; exact rfl; (first | assumption | apply forNat_kept | apply modChan_kept | apply pinsOff_kept | split)) | split | intro _

theorem ioConfigureSpec_kept  : SpecKept (ioConfigureSpec ) := by
  refine fun c s => ⟨fun st t ht => ?_, fun t ht => ?_⟩ <;> unfold ioConfigureSpec <;> (try dsimp only)
  all_goals with_reducible repeat' first | assumption | apply setChan_kept | (apply kept_mk; exact rfl; exact rfl; exact rfl; exact rfl; exact rfl; exact rfl; exact rfl; exact rfl; exact rfl; exact rfl; (first | assumption | apply setChan_kept | split)) | split | intro _

theorem ioConfigureGroupSpec_kept  : SpecKept (ioConfigureGroupSpec ) := by
  refine fun c s => ⟨fun st t ht => ?_, fun t ht => ?_⟩ <;> unfold ioConfigureGroupSpec <;> (try dsimp only)
  all_goals with_reducible repeat' first | assumption | apply setFg_kept | (apply kept_mk; exact rfl; exact rfl; exact rfl; exact rfl; exact rfl; exact rfl; exact rfl; exact rfl; exact rfl; exact rfl; (first | assumption | apply setFg_kept | split)) | split | intro _

theorem ioSetWatchdogSpec_kept  : SpecKept (ioSetWatchdogSpec ) := by
  refine fun c s => ⟨fun st t ht => ?_, fun t ht => ?_⟩ <;> unfold ioSetWatchdogSpec <;> (try dsimp only)
  all_goals with_reducible repeat' first | assumption | (apply kept_mk; exact rfl; exact rfl; exact rfl; exact rfl; exact rfl; exact rfl; exact rfl; exact rfl; exact rfl; exact rfl; (first | assumption | split)) | split | intro _

theorem ioWriteSpec_kept  : SpecKept (ioWriteSpec ) := by
  refine fun c s => ⟨fun st t ht => ?_, fun t ht => ?_⟩ <;> unfold ioWriteSpec <;> (try dsimp only)
  all_goals with_reducible repeat' first | assumption | apply arm_kept | (apply kept_mk; exact rfl; exact rfl; exact rfl; exact rfl; exact rfl; exact rfl; exact rfl; exact rfl; exact rfl; exact rfl; (first | assumption | apply arm_kept | split)) | split | intro _

theorem ioReenableSpec_kept  : SpecKept (ioReenableSpec ) := by
  refine fun c s => ⟨fun st t ht => ?_, fun t ht => ?_⟩ <;> unfold ioReenableSpec <;> (try dsimp only)
  all_goals with_reducible repeat' first | assumption | apply later_kept | apply later_kept | (apply kept_mk; exact rfl; exact rfl; exact rfl; exact rfl; exact rfl; exact rfl; exact rfl; exact rfl; exact rfl; exact rfl; (first | assumption | apply later_kept | apply later_kept | split)) | split | intro _

theorem ioReenableEff_kept (e : Eff) (s : State) (hs : Kept s0 s) : Kept s0 (ioReenableEff e s) := by
  unfold ioReenableEff
  try dsimp only
  with_reducible repeat' first | assumption | apply forNat_kept | apply modChan_kept | apply setFg_kept | (apply kept_mk; exact rfl; exact rfl; exact rfl; exact rfl; exact rfl; exact rfl; exact rfl; exact rfl; exact rfl; exact rfl; (first | assumption | apply forNat_kept | apply modChan_kept | apply setFg_kept | split)) | split | intro _

theorem ioReleaseSafeSpec_kept  : SpecKept (ioReleaseSafeSpec ) := by
  refine fun c s => ⟨fun st t ht => ?_, fun t ht => ?_⟩ <;> unfold ioReleaseSafeSpec <;> (try dsimp only)
  all_goals with_reducible repeat' first | assumption | apply later_kept | apply later_kept | (apply kept_mk; exact rfl; exact rfl; exact rfl; exact rfl; exact rfl; exact rfl; exact rfl; exact rfl; exact rfl; exact rfl; (first | assumption | apply later_kept | apply later_kept | split)) | split | intro _

theorem ioReleaseEff_kept (s : State) (hs : Kept s0 s) : Kept s0 (ioReleaseEff s) := by
  unfold ioReleaseEff
  split
  · exact hs.trans ⟨.refl _, .refl _, .refl _, rfl, .refl _, id, fun _ _ => rfl, fun h _ => by simp [h], id, id⟩
  · exact hs

theorem ioStoResetSpec_kept  : SpecKept (ioStoResetSpec ) := by
  refine fun c s => ⟨fun st t ht => ?_, fun t ht => ?_⟩ <;> unfold ioStoResetSpec <;> (try dsimp only)
  all_goals with_reducible repeat' first | assumption | apply later_kept | apply later_kept | (apply kept_mk; exact rfl; exact rfl; exact rfl; exact rfl; exact rfl; exact rfl; exact rfl; exact rfl; exact rfl; exact rfl; (first | assumption | apply later_kept | apply later_kept | split)) | split | intro _

theorem ioStoResetEff_kept (e : Eff) (s : State) (hs : Kept s0 s) : Kept s0 (ioStoResetEff e s) := by
  unfold ioStoResetEff
  try dsimp only
  with_reducible repeat' first | assumption | apply forNat_kept | apply modChan_kept | (apply kept_mk; exact rfl; exact rfl; exact rfl; exact rfl; exact rfl; exact rfl; exact rfl; exact rfl; exact rfl; exact rfl; (first | assumption | apply forNat_kept | apply modChan_kept | split)) | split | intro _

theorem ioStatusSpec_kept  : SpecKept (ioStatusSpec ) := by
  refine fun c s => ⟨fun st t ht => ?_, fun t ht => ?_⟩ <;> unfold ioStatusSpec <;> (try dsimp only)
  all_goals with_reducible repeat' first | assumption | apply foldl_kept | (apply kept_mk; exact rfl; exact rfl; exact rfl; exact rfl; exact rfl; exact rfl; exact rfl; exact rfl; exact rfl; exact rfl; (first | assumption | apply foldl_kept | split)) | split | intro _

end Sys2Proof.Machine
end

