-- ==== Sys2Proof/Laws/KeptDevices.lean ====
section
/-!
SUPPORT. `Kept` for the functions of time, peloton, Virza, the axes and the scheduler.
-/
namespace Sys2Proof.Machine

set_option Elab.async false
set_option linter.all false

variable {s0 : State}

theorem slewCadence_kept (s : State) (hs : Kept s0 s) : Kept s0 (slewCadence s) := by
  unfold slewCadence
  try dsimp only
  with_reducible repeat' first | assumption | apply count_kept | (apply kept_mk; exact rfl; exact rfl; exact rfl; exact rfl; exact rfl; exact rfl; exact rfl; exact rfl; exact rfl; exact rfl; (first | assumption | apply count_kept | split)) | split | intro _

theorem addSlewWith_kept (d : Int) (ppm ramp : Nat) (s : State) (hs : Kept s0 s) : Kept s0 (addSlewWith d ppm ramp s) := by
  unfold addSlewWith
  try dsimp only
  with_reducible repeat' first | assumption | (apply kept_mk; exact rfl; exact rfl; exact rfl; exact rfl; exact rfl; exact rfl; exact rfl; exact rfl; exact rfl; exact rfl; (first | assumption | split)) | split | intro _

theorem addSlew_kept (d : Int) (s : State) (hs : Kept s0 s) : Kept s0 (addSlew d s) := by
  unfold addSlew
  try dsimp only
  with_reducible repeat' first | assumption | apply addSlewWith_kept | (apply kept_mk; exact rfl; exact rfl; exact rfl; exact rfl; exact rfl; exact rfl; exact rfl; exact rfl; exact rfl; exact rfl; (first | assumption | apply addSlewWith_kept | split)) | split | intro _

theorem plantStep_kept (d : Int) (epoch : BitVec 16) (s : State) (hs : Kept s0 s) : Kept s0 (plantStep d epoch s) := by
  unfold plantStep
  try dsimp only
  with_reducible repeat' first | assumption | apply journal_kept | apply raise_kept | (apply kept_mk; exact rfl; exact rfl; exact rfl; exact rfl; exact rfl; exact rfl; exact rfl; exact rfl; exact rfl; exact rfl; (first | assumption | apply journal_kept | apply raise_kept | split)) | split | intro _

theorem announce_kept (step : Bool) (d : Int) (at' : Nat) (s : State) (hs : Kept s0 s) : Kept s0 (announce step d at' s) := by
  unfold announce
  try dsimp only
  with_reducible repeat' first | assumption | (apply kept_mk; exact rfl; exact rfl; exact rfl; exact rfl; exact rfl; exact rfl; exact rfl; exact rfl; exact rfl; exact rfl; (first | assumption | split)) | split | intro _

theorem announceOrQueue_kept (step : Bool) (d : Int) (at' : Nat) (s : State) (hs : Kept s0 s) : Kept s0 (announceOrQueue step d at' s) := by
  unfold announceOrQueue
  try dsimp only
  with_reducible repeat' first | assumption | apply announce_kept | (apply kept_mk; exact rfl; exact rfl; exact rfl; exact rfl; exact rfl; exact rfl; exact rfl; exact rfl; exact rfl; exact rfl; (first | assumption | apply announce_kept | split)) | split | intro _

theorem fireUnit_kept (u : Nat) (act : Armed → State → State) (s : State) (kact : ∀ a0 t, Kept s0 t → Kept s0 (act a0 t))
    (hs : Kept s0 s) : Kept s0 (fireUnit u act s) := by
  unfold fireUnit
  split
  · exact hs
  split
  · exact hs
  rename_i a _ _
  extract_lets t s1 late release detail src s2 v s3
  have h1 : Kept s0 s1 := advanceTo_kept _ _ hs
  have hrel : ∀ n v, Kept s0 v → Kept s0 (release n v) := by
    intro n v hv; simp only [release]; split <;> exact setUnit_kept _ _ _ hv
  clear_value s1 release
  split
  · exact count_kept _ _ _ (hrel _ _ (raise_kept _ _ (journal_kept _ _ _ _ _ _ _ (h1.trans ⟨.refl _, .refl _, .refl _, rfl, .refl _, id, fun _ _ => rfl, fun _ => id, id, id⟩))))
  · have h3 : Kept s0 s3 := by
      simp only [s3]; split
      · have hv : Kept s0 v := count_kept _ _ _ (raise_kept _ _ (h1.trans ⟨.refl _, .refl _, .refl _, rfl, .refl _, id, fun _ _ => rfl, fun _ => id, id, id⟩))
        clear_value v
        split
        · exact journal_kept _ _ _ _ _ _ _ hv
        · exact hv
      · exact h1.trans ⟨.refl _, .refl _, .refl _, rfl, .refl _, id, fun _ _ => rfl, fun _ => id, id, id⟩
    clear_value s3
    exact count_kept _ _ _ (hrel _ _ (kact _ _ h3))

theorem actionReport_kept (u : Nat) (s : State) (hs : Kept s0 s) : Kept s0 (actionReport u s) := by
  unfold actionReport
  try dsimp only
  with_reducible repeat' first | assumption | apply setUnit_kept | (apply kept_mk; exact rfl; exact rfl; exact rfl; exact rfl; exact rfl; exact rfl; exact rfl; exact rfl; exact rfl; exact rfl; (first | assumption | apply setUnit_kept | split)) | split | intro _

theorem sendActions_kept (s : State) (hs : Kept s0 s) : Kept s0 (sendActions s) := by
  unfold sendActions
  try dsimp only
  with_reducible repeat' first | assumption | (apply kept_mk; exact rfl; exact rfl; exact rfl; exact rfl; exact rfl; exact rfl; exact rfl; exact rfl; exact rfl; exact rfl; (first | assumption | split)) | split | intro _

theorem setPtp_kept (p : Nat) (v : PtpPort) (s : State) (hs : Kept s0 s) : Kept s0 (setPtp p v s) := by
  unfold setPtp
  try dsimp only
  with_reducible repeat' first | assumption | (apply kept_mk; exact rfl; exact rfl; exact rfl; exact rfl; exact rfl; exact rfl; exact rfl; exact rfl; exact rfl; exact rfl; (first | assumption | split)) | split | intro _

theorem ptpEmit_kept (p type seq : Nat) (two : Bool) (corr log : Int) (body : List Byte) (s : State) (hs : Kept s0 s) :
    Kept s0 (ptpEmit p type seq two corr log body s) := by
  unfold ptpEmit
  exact count_kept _ _ _ (emit_kept _ _ _ _ (freeNext_kept _ hs))

theorem ptpMessage_kept (p : Nat) (m : PtpMsg) (s : State) (hs : Kept s0 s) : Kept s0 (ptpMessage p m s) := by
  unfold ptpMessage
  try dsimp only
  with_reducible repeat' first | assumption | apply announce_kept | apply count_kept | apply delayReq_kept | apply ptpEmit_kept | apply freeNext_kept | apply setPtp_kept | (apply kept_mk; exact rfl; exact rfl; exact rfl; exact rfl; exact rfl; exact rfl; exact rfl; exact rfl; exact rfl; exact rfl; (first | assumption | apply announce_kept | apply count_kept | apply delayReq_kept | apply ptpEmit_kept | apply freeNext_kept | apply setPtp_kept | split)) | split | intro _

theorem ptpSend_kept (p type : Nat) (two stamped : Bool) (log : Int) (body : List Byte) (x : PtpPort) (s : State) (hs : Kept s0 s) : Kept s0 (ptpSend p type two stamped log body x s) := by
  unfold ptpSend
  try dsimp only
  with_reducible repeat' first | assumption | apply count_kept | apply ptpEmit_kept | apply freeNext_kept | apply setPtp_kept | (apply kept_mk; exact rfl; exact rfl; exact rfl; exact rfl; exact rfl; exact rfl; exact rfl; exact rfl; exact rfl; exact rfl; (first | assumption | apply count_kept | apply ptpEmit_kept | apply freeNext_kept | apply setPtp_kept | split)) | split | intro _

theorem ptpInterval_kept (p : Nat) (tick : PtpTick) (stamped : Bool) (s : State) (hs : Kept s0 s) : Kept s0 (ptpInterval p tick stamped s) := by
  unfold ptpInterval
  try dsimp only
  with_reducible repeat' first | assumption | apply announce_kept | apply count_kept | apply ptpEmit_kept | apply freeNext_kept | apply setPtp_kept | apply ptpSend_kept | (apply kept_mk; exact rfl; exact rfl; exact rfl; exact rfl; exact rfl; exact rfl; exact rfl; exact rfl; exact rfl; exact rfl; (first | assumption | apply announce_kept | apply count_kept | apply ptpEmit_kept | apply freeNext_kept | apply setPtp_kept | apply ptpSend_kept | split)) | split | intro _

theorem announceTimeout_kept (p : Nat) (s : State) (hs : Kept s0 s) : Kept s0 (announceTimeout p s) := by
  unfold announceTimeout
  try dsimp only
  with_reducible repeat' first | assumption | apply journal_kept | apply raise_kept | apply setPtp_kept | (apply kept_mk; exact rfl; exact rfl; exact rfl; exact rfl; exact rfl; exact rfl; exact rfl; exact rfl; exact rfl; exact rfl; (first | assumption | apply journal_kept | apply raise_kept | apply setPtp_kept | split)) | split | intro _

theorem gmServo_kept (mean : BitVec 64) (s : State) (hs : Kept s0 s) : Kept s0 (gmServo mean s) := by
  unfold gmServo
  try dsimp only
  with_reducible repeat' first | assumption | apply announce_kept | (apply kept_mk; exact rfl; exact rfl; exact rfl; exact rfl; exact rfl; exact rfl; exact rfl; exact rfl; exact rfl; exact rfl; (first | assumption | apply announce_kept | split)) | split | intro _

theorem gmCadence_kept (s : State) (hs : Kept s0 s) : Kept s0 (gmCadence s) := by
  unfold gmCadence
  try dsimp only
  with_reducible repeat' first | assumption | (apply kept_mk; exact rfl; exact rfl; exact rfl; exact rfl; exact rfl; exact rfl; exact rfl; exact rfl; exact rfl; exact rfl; (first | assumption | split)) | split | intro _

theorem timeStatusSpec_kept  : SpecKept (timeStatusSpec ) := by
  refine fun c s => ⟨fun st t ht => ?_, fun t ht => ?_⟩ <;> unfold timeStatusSpec <;> (try dsimp only)
  all_goals with_reducible repeat' first | assumption | (apply kept_mk; exact rfl; exact rfl; exact rfl; exact rfl; exact rfl; exact rfl; exact rfl; exact rfl; exact rfl; exact rfl; (first | assumption | split)) | split | intro _

theorem timeConfigureSpec_kept  : SpecKept (timeConfigureSpec ) := by
  refine fun c s => ⟨fun st t ht => ?_, fun t ht => ?_⟩ <;> unfold timeConfigureSpec <;> (try dsimp only)
  all_goals with_reducible repeat' first | assumption | (apply kept_mk; exact rfl; exact rfl; exact rfl; exact rfl; exact rfl; exact rfl; exact rfl; exact rfl; exact rfl; exact rfl; (first | assumption | split)) | split | intro _

theorem timeSetPlantSpec_kept  : SpecKept (timeSetPlantSpec ) := by
  refine fun c s => ⟨fun st t ht => ?_, fun t ht => ?_⟩ <;> unfold timeSetPlantSpec <;> (try dsimp only)
  all_goals with_reducible repeat' first | assumption | apply announceOrQueue_kept | (apply kept_mk; exact rfl; exact rfl; exact rfl; exact rfl; exact rfl; exact rfl; exact rfl; exact rfl; exact rfl; exact rfl; (first | assumption | apply announceOrQueue_kept | split)) | split | intro _

theorem setPlantEff_kept (e : Eff) (s : State) (hs : Kept s0 s) : Kept s0 (setPlantEff e s) := by
  unfold setPlantEff
  try dsimp only
  with_reducible repeat' first | assumption | apply addSlew_kept | apply plantStep_kept | (apply kept_mk; exact rfl; exact rfl; exact rfl; exact rfl; exact rfl; exact rfl; exact rfl; exact rfl; exact rfl; exact rfl; (first | assumption | apply addSlew_kept | apply plantStep_kept | split)) | split | intro _

theorem timePtpPortSpec_kept  : SpecKept (timePtpPortSpec ) := by
  refine fun c s => ⟨fun st t ht => ?_, fun t ht => ?_⟩ <;> unfold timePtpPortSpec <;> (try dsimp only)
  all_goals with_reducible repeat' first | assumption | apply phySetup_kept | apply setPtp_kept | (apply kept_mk; exact rfl; exact rfl; exact rfl; exact rfl; exact rfl; exact rfl; exact rfl; exact rfl; exact rfl; exact rfl; (first | assumption | apply phySetup_kept | apply setPtp_kept | split)) | split | intro _

theorem timePtpStatusSpec_kept  : SpecKept (timePtpStatusSpec ) := by
  refine fun c s => ⟨fun st t ht => ?_, fun t ht => ?_⟩ <;> unfold timePtpStatusSpec <;> (try dsimp only)
  all_goals with_reducible repeat' first | assumption | (apply kept_mk; exact rfl; exact rfl; exact rfl; exact rfl; exact rfl; exact rfl; exact rfl; exact rfl; exact rfl; exact rfl; (first | assumption | split)) | split | intro _

theorem modPel_kept (f : PelSt → PelSt) (s : State) (hs : Kept s0 s) : Kept s0 (modPel f s) := by
  unfold modPel
  try dsimp only
  with_reducible repeat' first | assumption | (apply kept_mk; exact rfl; exact rfl; exact rfl; exact rfl; exact rfl; exact rfl; exact rfl; exact rfl; exact rfl; exact rfl; (first | assumption | split)) | split | intro _

theorem pelSend_kept (up : Bool) (msg tx members count t2 : Nat) (s : State) (hs : Kept s0 s) : Kept s0 (pelSend up msg tx members count t2 s) := by
  unfold pelSend
  try dsimp only
  with_reducible repeat' first | assumption | apply count_kept | apply emit_kept | (apply kept_mk; exact rfl; exact rfl; exact rfl; exact rfl; exact rfl; exact rfl; exact rfl; exact rfl; exact rfl; exact rfl; (first | assumption | apply count_kept | apply emit_kept | split)) | split | intro _

theorem pelSyncFrames_kept (s : State) (hs : Kept s0 s) : Kept s0 (pelSyncFrames s) := by
  unfold pelSyncFrames
  try dsimp only
  with_reducible repeat' first | assumption | apply pelSend_kept | (apply kept_mk; exact rfl; exact rfl; exact rfl; exact rfl; exact rfl; exact rfl; exact rfl; exact rfl; exact rfl; exact rfl; (first | assumption | apply pelSend_kept | split)) | split | intro _

theorem delayReq_kept (up : Bool) (s : State) (hs : Kept s0 s) : Kept s0 (delayReq up s) := by
  unfold delayReq
  try dsimp only
  with_reducible repeat' first | assumption | apply pelSend_kept | (apply kept_mk; exact rfl; exact rfl; exact rfl; exact rfl; exact rfl; exact rfl; exact rfl; exact rfl; exact rfl; exact rfl; (first | assumption | apply pelSend_kept | split)) | split | intro _

theorem driftFires_kept (bit code : Nat) (s : State) (hs : Kept s0 s) : Kept s0 (driftFires bit code s) := by
  unfold driftFires
  try dsimp only
  with_reducible repeat' first | assumption | apply journal_kept | apply modPel_kept | (apply kept_mk; exact rfl; exact rfl; exact rfl; exact rfl; exact rfl; exact rfl; exact rfl; exact rfl; exact rfl; exact rfl; (first | assumption | apply journal_kept | apply modPel_kept | split)) | split | intro _

theorem startDone_kept (reason : Nat) (s : State) (hs : Kept s0 s) : Kept s0 (startDone reason s) := by
  unfold startDone
  try dsimp only
  with_reducible repeat' first | assumption | apply complete_kept | apply modPel_kept | (apply kept_mk; exact rfl; exact rfl; exact rfl; exact rfl; exact rfl; exact rfl; exact rfl; exact rfl; exact rfl; exact rfl; (first | assumption | apply complete_kept | apply modPel_kept | split)) | split | intro _

theorem headCheck_kept (s : State) (hs : Kept s0 s) : Kept s0 (headCheck s) := by
  unfold headCheck
  try dsimp only
  with_reducible repeat' first | assumption | apply startDone_kept | (apply kept_mk; exact rfl; exact rfl; exact rfl; exact rfl; exact rfl; exact rfl; exact rfl; exact rfl; exact rfl; exact rfl; (first | assumption | apply startDone_kept | split)) | split | intro _

theorem enumBack_kept (count members : Nat) (s : State) (hs : Kept s0 s) : Kept s0 (enumBack count members s) := by
  unfold enumBack
  try dsimp only
  with_reducible repeat' first | assumption | apply count_kept | apply headCheck_kept | apply modPel_kept | apply pelSend_kept | apply startDone_kept | (apply kept_mk; exact rfl; exact rfl; exact rfl; exact rfl; exact rfl; exact rfl; exact rfl; exact rfl; exact rfl; exact rfl; (first | assumption | apply count_kept | apply headCheck_kept | apply modPel_kept | apply pelSend_kept | apply startDone_kept | split)) | split | intro _

theorem pelRoundStart_kept (s : State) (hs : Kept s0 s) : Kept s0 (pelRoundStart s) := by
  unfold pelRoundStart
  try dsimp only
  with_reducible repeat' first | assumption | apply enumBack_kept | apply pelSend_kept | (apply kept_mk; exact rfl; exact rfl; exact rfl; exact rfl; exact rfl; exact rfl; exact rfl; exact rfl; exact rfl; exact rfl; (first | assumption | apply enumBack_kept | apply pelSend_kept | split)) | split | intro _

theorem pelEnum_kept (port : LinePort) (f : List Byte) (s : State) (hs : Kept s0 s) : Kept s0 (pelEnum port f s) := by
  unfold pelEnum
  extract_lets b cnt members a flt s1
  split
  · exact hs
  split
  · exact hs
  split
  · split
    · split
      · exact startDone_kept _ _ hs
      · exact enumBack_kept _ _ _ hs
    · exact startDone_kept _ _ hs
  split
  · exact startDone_kept _ _ hs
  split
  · exact startDone_kept _ _ hs
  split
  · split
    · exact startDone_kept _ _ hs
    have h1 : Kept s0 s1 := modPel_kept _ _ hs
    clear_value s1
    split
    · exact startDone_kept _ _ h1
    · exact pelSend_kept _ _ _ _ _ _ _ h1
  · exact pelSend_kept _ _ _ _ _ _ _ hs

theorem pelConfig_kept (f : List Byte) (s : State) (hs : Kept s0 s) : Kept s0 (pelConfig f s) := by
  unfold pelConfig
  try dsimp only
  with_reducible repeat' first | assumption | apply modPel_kept | apply pelSend_kept | apply startDone_kept | (apply kept_mk; exact rfl; exact rfl; exact rfl; exact rfl; exact rfl; exact rfl; exact rfl; exact rfl; exact rfl; exact rfl; (first | assumption | apply modPel_kept | apply pelSend_kept | apply startDone_kept | split)) | split | intro _

theorem pelStartTimeout_kept (s : State) (hs : Kept s0 s) : Kept s0 (pelStartTimeout s) := by
  unfold pelStartTimeout
  try dsimp only
  with_reducible repeat' first | assumption | apply advanceTo_kept | apply startDone_kept | (apply kept_mk; exact rfl; exact rfl; exact rfl; exact rfl; exact rfl; exact rfl; exact rfl; exact rfl; exact rfl; exact rfl; (first | assumption | apply advanceTo_kept | apply startDone_kept | split)) | split | intro _

theorem pelDelayReq_kept (port : LinePort) (rx : Nat) (f : List Byte) (s : State) (hs : Kept s0 s) : Kept s0 (pelDelayReq port rx f s) := by
  unfold pelDelayReq
  try dsimp only
  with_reducible repeat' first | assumption | apply modPel_kept | apply pelSend_kept | (apply kept_mk; exact rfl; exact rfl; exact rfl; exact rfl; exact rfl; exact rfl; exact rfl; exact rfl; exact rfl; exact rfl; (first | assumption | apply modPel_kept | apply pelSend_kept | split)) | split | intro _

theorem pelDelayResp_kept (port : LinePort) (t1 t4 : Nat) (f : List Byte) (s : State) (hs : Kept s0 s) : Kept s0 (pelDelayResp port t1 t4 f s) := by
  unfold pelDelayResp
  try dsimp only
  with_reducible repeat' first | assumption | apply delayReq_kept | apply driftFires_kept | apply modPel_kept | (apply kept_mk; exact rfl; exact rfl; exact rfl; exact rfl; exact rfl; exact rfl; exact rfl; exact rfl; exact rfl; exact rfl; (first | assumption | apply delayReq_kept | apply driftFires_kept | apply modPel_kept | split)) | split | intro _

theorem adopt_kept (down : Bool) (x : SyncInfo) (s : State) (hs : Kept s0 s) : Kept s0 (adopt down x s) := by
  unfold adopt
  try dsimp only
  with_reducible repeat' first | assumption | apply journal_kept | apply modPel_kept | apply raise_kept | (apply kept_mk; exact rfl; exact rfl; exact rfl; exact rfl; exact rfl; exact rfl; exact rfl; exact rfl; exact rfl; exact rfl; (first | assumption | apply journal_kept | apply modPel_kept | apply raise_kept | split)) | split | intro _

theorem takeTime_kept (tx rx : Nat) (down : Bool) (s : State) (hs : Kept s0 s) : Kept s0 (takeTime tx rx down s) := by
  unfold takeTime
  try dsimp only
  with_reducible repeat' first | assumption | (apply kept_mk; exact rfl; exact rfl; exact rfl; exact rfl; exact rfl; exact rfl; exact rfl; exact rfl; exact rfl; exact rfl; (first | assumption | split)) | split | intro _

theorem pelotonSync_kept (port : LinePort) (rx : Nat) (f : List Byte) (s : State) (hs : Kept s0 s) : Kept s0 (pelotonSync port rx f s) := by
  unfold pelotonSync
  extract_lets h b down x s1 d s2 th
  split
  · exact hs
  split
  · exact modPel_kept _ _ hs
  have h1 : Kept s0 s1 := headCheck_kept _ (modPel_kept _ _ hs)
  clear_value s1
  split
  · split
    · exact takeTime_kept _ _ _ _ (modPel_kept _ _ h1)
    · exact h1
  split
  · split
    · exact h1
    split
    · exact modPel_kept _ _ h1
    · exact adopt_kept _ _ _ h1
  split
  · exact h1
  have h2 : Kept s0 s2 := by
    simp only [s2]; split
    · exact adopt_kept _ _ _ h1
    · exact h1
  clear_value s2
  split
  · exact h2
  · exact modPel_kept _ _ h2

theorem pelServo_kept (s : State) (hs : Kept s0 s) : Kept s0 (pelServo s) := by
  unfold pelServo
  try dsimp only
  with_reducible repeat' first | assumption | (apply kept_mk; exact rfl; exact rfl; exact rfl; exact rfl; exact rfl; exact rfl; exact rfl; exact rfl; exact rfl; exact rfl; (first | assumption | split)) | split | intro _

theorem pelCadence_kept (s : State) (hs : Kept s0 s) : Kept s0 (pelCadence s) := by
  unfold pelCadence
  extract_lets s1 s2 s3 s4 a s5
  have h1 : Kept s0 s1 := by
    simp only [s1]; split
    · exact adopt_kept _ _ _ hs
    · exact hs
  clear_value s1
  have h2 : Kept s0 s2 := by
    simp only [s2]; split
    · exact plantStep_kept _ _ _ (modPel_kept _ _ h1)
    · exact h1
  clear_value s2
  have h4 : Kept s0 s4 := pelServo_kept _ (modPel_kept _ _ h2)
  clear_value s4
  have h5 : Kept s0 s5 := by
    simp only [s5]; split
    · exact driftFires_kept _ _ _ h4
    · exact h4
  split
  · exact pelSyncFrames_kept _ h5
  · exact h5

theorem pelDrift_kept (s : State) (hs : Kept s0 s) : Kept s0 (pelDrift s) := by
  unfold pelDrift
  try dsimp only
  with_reducible repeat' first | assumption | apply driftFires_kept | apply freeNext_kept | apply modPel_kept | (apply kept_mk; exact rfl; exact rfl; exact rfl; exact rfl; exact rfl; exact rfl; exact rfl; exact rfl; exact rfl; exact rfl; (first | assumption | apply driftFires_kept | apply freeNext_kept | apply modPel_kept | split)) | split | intro _

theorem pelRound_kept (s : State) (hs : Kept s0 s) : Kept s0 (pelRound s) := by
  unfold pelRound
  try dsimp only
  with_reducible repeat' first | assumption | apply delayReq_kept | apply pelDrift_kept | apply pelRoundStart_kept | (apply kept_mk; exact rfl; exact rfl; exact rfl; exact rfl; exact rfl; exact rfl; exact rfl; exact rfl; exact rfl; exact rfl; (first | assumption | apply delayReq_kept | apply pelDrift_kept | apply pelRoundStart_kept | split)) | split | intro _

theorem pelSyncSet_kept (s : State) (hs : Kept s0 s) : Kept s0 (pelSyncSet s) := by
  unfold pelSyncSet
  try dsimp only
  with_reducible repeat' first | assumption | apply modPel_kept | apply startDone_kept | (apply kept_mk; exact rfl; exact rfl; exact rfl; exact rfl; exact rfl; exact rfl; exact rfl; exact rfl; exact rfl; exact rfl; (first | assumption | apply modPel_kept | apply startDone_kept | split)) | split | intro _

theorem pelSyncLost_kept (s : State) (hs : Kept s0 s) : Kept s0 (pelSyncLost s) := by
  unfold pelSyncLost
  try dsimp only
  with_reducible repeat' first | assumption | apply journal_kept | apply modPel_kept | apply raise_kept | (apply kept_mk; exact rfl; exact rfl; exact rfl; exact rfl; exact rfl; exact rfl; exact rfl; exact rfl; exact rfl; exact rfl; (first | assumption | apply journal_kept | apply modPel_kept | apply raise_kept | split)) | split | intro _

theorem enterHoldover_kept (s : State) (hs : Kept s0 s) : Kept s0 (enterHoldover s) := by
  unfold enterHoldover
  try dsimp only
  with_reducible repeat' first | assumption | apply journal_kept | apply raise_kept | (apply kept_mk; exact rfl; exact rfl; exact rfl; exact rfl; exact rfl; exact rfl; exact rfl; exact rfl; exact rfl; exact rfl; (first | assumption | apply journal_kept | apply raise_kept | split)) | split | intro _

theorem becomeRef_kept (s : State) (hs : Kept s0 s) : Kept s0 (becomeRef s) := by
  unfold becomeRef
  try dsimp only
  with_reducible repeat' first | assumption | apply journal_kept | apply modPel_kept | apply raise_kept | (apply kept_mk; exact rfl; exact rfl; exact rfl; exact rfl; exact rfl; exact rfl; exact rfl; exact rfl; exact rfl; exact rfl; (first | assumption | apply journal_kept | apply modPel_kept | apply raise_kept | split)) | split | intro _

theorem pelTakeover_kept (s : State) (hs : Kept s0 s) : Kept s0 (pelTakeover s) := by
  unfold pelTakeover
  try dsimp only
  with_reducible repeat' first | assumption | apply becomeRef_kept | apply enterHoldover_kept | apply modPel_kept | apply pelSyncFrames_kept | (apply kept_mk; exact rfl; exact rfl; exact rfl; exact rfl; exact rfl; exact rfl; exact rfl; exact rfl; exact rfl; exact rfl; (first | assumption | apply becomeRef_kept | apply enterHoldover_kept | apply modPel_kept | apply pelSyncFrames_kept | split)) | split | intro _

theorem nextAnnounce_kept (s : State) (hs : Kept s0 s) : Kept s0 (nextAnnounce s) := by
  unfold nextAnnounce
  try dsimp only
  with_reducible repeat' first | assumption | apply announce_kept | apply modPel_kept | (apply kept_mk; exact rfl; exact rfl; exact rfl; exact rfl; exact rfl; exact rfl; exact rfl; exact rfl; exact rfl; exact rfl; (first | assumption | apply announce_kept | apply modPel_kept | split)) | split | intro _

theorem announcementApply_kept (s : State) (hs : Kept s0 s) : Kept s0 (announcementApply s) := by
  unfold announcementApply
  try dsimp only
  with_reducible repeat' first | assumption | apply addSlewWith_kept | apply adopt_kept | apply advanceTo_kept | apply becomeRef_kept | apply modPel_kept | apply nextAnnounce_kept | apply plantStep_kept | (apply kept_mk; exact rfl; exact rfl; exact rfl; exact rfl; exact rfl; exact rfl; exact rfl; exact rfl; exact rfl; exact rfl; (first | assumption | apply addSlewWith_kept | apply adopt_kept | apply advanceTo_kept | apply becomeRef_kept | apply modPel_kept | apply nextAnnounce_kept | apply plantStep_kept | split)) | split | intro _

theorem pelConfigureSpec_kept  : SpecKept (pelConfigureSpec ) := by
  refine fun c s => ⟨fun st t ht => ?_, fun t ht => ?_⟩ <;> unfold pelConfigureSpec <;> (try dsimp only)
  all_goals with_reducible repeat' first | assumption | apply modPel_kept | (apply kept_mk; exact rfl; exact rfl; exact rfl; exact rfl; exact rfl; exact rfl; exact rfl; exact rfl; exact rfl; exact rfl; (first | assumption | apply modPel_kept | split)) | split | intro _

theorem pelStartSpec_kept  : SpecKept (pelStartSpec ) := by
  refine fun c s => ⟨fun st t ht => ?_, fun t ht => ?_⟩ <;> unfold pelStartSpec <;> (try dsimp only)
  all_goals with_reducible repeat' first | assumption | apply delayReq_kept | apply later_kept | apply modPel_kept | apply startDone_kept | apply later_kept | (apply kept_mk; exact rfl; exact rfl; exact rfl; exact rfl; exact rfl; exact rfl; exact rfl; exact rfl; exact rfl; exact rfl; (first | assumption | apply delayReq_kept | apply later_kept | apply modPel_kept | apply startDone_kept | apply later_kept | split)) | split | intro _

theorem pelStopSpec_kept  : SpecKept (pelStopSpec ) := by
  refine fun c s => ⟨fun st t ht => ?_, fun t ht => ?_⟩ <;> unfold pelStopSpec <;> (try dsimp only)
  all_goals with_reducible repeat' first | assumption | apply later_kept | apply later_kept | (apply kept_mk; exact rfl; exact rfl; exact rfl; exact rfl; exact rfl; exact rfl; exact rfl; exact rfl; exact rfl; exact rfl; (first | assumption | apply later_kept | apply later_kept | split)) | split | intro _

theorem pelStopEff_kept (s : State) (hs : Kept s0 s) : Kept s0 (pelStopEff s) := by
  unfold pelStopEff
  try dsimp only
  with_reducible repeat' first | assumption | apply complete_kept | apply modPel_kept | (apply kept_mk; exact rfl; exact rfl; exact rfl; exact rfl; exact rfl; exact rfl; exact rfl; exact rfl; exact rfl; exact rfl; (first | assumption | apply complete_kept | apply modPel_kept | split)) | split | intro _

theorem pelHandoverSpec_kept  : SpecKept (pelHandoverSpec ) := by
  refine fun c s => ⟨fun st t ht => ?_, fun t ht => ?_⟩ <;> unfold pelHandoverSpec <;> (try dsimp only)
  all_goals with_reducible repeat' first | assumption | apply modPel_kept | (apply kept_mk; exact rfl; exact rfl; exact rfl; exact rfl; exact rfl; exact rfl; exact rfl; exact rfl; exact rfl; exact rfl; (first | assumption | apply modPel_kept | split)) | split | intro _

theorem pelFollowGmSpec_kept  : SpecKept (pelFollowGmSpec ) := by
  refine fun c s => ⟨fun st t ht => ?_, fun t ht => ?_⟩ <;> unfold pelFollowGmSpec <;> (try dsimp only)
  all_goals with_reducible repeat' first | assumption | apply enterHoldover_kept | apply modPel_kept | (apply kept_mk; exact rfl; exact rfl; exact rfl; exact rfl; exact rfl; exact rfl; exact rfl; exact rfl; exact rfl; exact rfl; (first | assumption | apply enterHoldover_kept | apply modPel_kept | split)) | split | intro _

theorem pelStatusSpec_kept  : SpecKept (pelStatusSpec ) := by
  refine fun c s => ⟨fun st t ht => ?_, fun t ht => ?_⟩ <;> unfold pelStatusSpec <;> (try dsimp only)
  all_goals with_reducible repeat' first | assumption | apply freeNext_kept | apply modPel_kept | (apply kept_mk; exact rfl; exact rfl; exact rfl; exact rfl; exact rfl; exact rfl; exact rfl; exact rfl; exact rfl; exact rfl; (first | assumption | apply freeNext_kept | apply modPel_kept | split)) | split | intro _

theorem vzEvent_kept (k bit : Nat) (s : State) (hs : Kept s0 s) : Kept s0 (vzEvent k bit s) := by
  unfold vzEvent
  try dsimp only
  with_reducible repeat' first | assumption | apply raise_kept | apply setSeg_kept | (apply kept_mk; exact rfl; exact rfl; exact rfl; exact rfl; exact rfl; exact rfl; exact rfl; exact rfl; exact rfl; exact rfl; (first | assumption | apply raise_kept | apply setSeg_kept | split)) | split | intro _

theorem segTo_kept (k st : Nat) (s : State) (hs : Kept s0 s) : Kept s0 (segTo k st s) := by
  unfold segTo
  try dsimp only
  with_reducible repeat' first | assumption | apply setSeg_kept | apply vzEvent_kept | (apply kept_mk; exact rfl; exact rfl; exact rfl; exact rfl; exact rfl; exact rfl; exact rfl; exact rfl; exact rfl; exact rfl; (first | assumption | apply setSeg_kept | apply vzEvent_kept | split)) | split | intro _

theorem masterSend_kept (k port type entries time : Nat) (body : List Byte) (s : State) (hs : Kept s0 s) : Kept s0 (masterSend k port type entries time body s) := by
  unfold masterSend
  try dsimp only
  with_reducible repeat' first | assumption | apply count_kept | apply emit_kept | (apply kept_mk; exact rfl; exact rfl; exact rfl; exact rfl; exact rfl; exact rfl; exact rfl; exact rfl; exact rfl; exact rfl; (first | assumption | apply count_kept | apply emit_kept | split)) | split | intro _

theorem masterDown_kept (k type entries time : Nat) (body : List Byte) (s : State) (hs : Kept s0 s) : Kept s0 (masterDown k type entries time body s) := by
  unfold masterDown
  try dsimp only
  with_reducible repeat' first | assumption | apply masterSend_kept | (apply kept_mk; exact rfl; exact rfl; exact rfl; exact rfl; exact rfl; exact rfl; exact rfl; exact rfl; exact rfl; exact rfl; (first | assumption | apply masterSend_kept | split)) | split | intro _

theorem cadenceFrame_kept (k : Nat) (s : State) (hs : Kept s0 s) : Kept s0 (cadenceFrame k s) := by
  unfold cadenceFrame
  try dsimp only
  with_reducible repeat' first | assumption | apply forNat_kept | apply masterDown_kept | apply modAxis_kept | (apply kept_mk; exact rfl; exact rfl; exact rfl; exact rfl; exact rfl; exact rfl; exact rfl; exact rfl; exact rfl; exact rfl; (first | assumption | apply forNat_kept | apply masterDown_kept | apply modAxis_kept | split)) | split | intro _

theorem sendAcyclic_kept (k : Nat) (s : State) (hs : Kept s0 s) : Kept s0 (sendAcyclic k s) := by
  unfold sendAcyclic
  try dsimp only
  with_reducible repeat' first | assumption | apply masterDown_kept | apply setSeg_kept | apply foldl_kept | (apply kept_mk; exact rfl; exact rfl; exact rfl; exact rfl; exact rfl; exact rfl; exact rfl; exact rfl; exact rfl; exact rfl; (first | assumption | apply masterDown_kept | apply setSeg_kept | apply foldl_kept | split)) | split | intro _

theorem startEnd_kept (k reason col rule : Nat) (st : Status) (s : State) (hs : Kept s0 s) : Kept s0 (startEnd k reason col rule st s) := by
  unfold startEnd
  try dsimp only
  with_reducible repeat' first | assumption | apply complete_kept | apply setSeg_kept | (apply kept_mk; exact rfl; exact rfl; exact rfl; exact rfl; exact rfl; exact rfl; exact rfl; exact rfl; exact rfl; exact rfl; (first | assumption | apply complete_kept | apply setSeg_kept | split)) | split | intro _

theorem startFail_kept (k reason col rule : Nat) (s : State) (hs : Kept s0 s) : Kept s0 (startFail k reason col rule s) := by
  unfold startFail
  try dsimp only
  with_reducible repeat' first | assumption | apply startEnd_kept | (apply kept_mk; exact rfl; exact rfl; exact rfl; exact rfl; exact rfl; exact rfl; exact rfl; exact rfl; exact rfl; exact rfl; (first | assumption | apply startEnd_kept | split)) | split | intro _

theorem setStart_kept (k : Nat) (o : StartOp) (s : State) (hs : Kept s0 s) : Kept s0 (setStart k o s) := by
  unfold setStart
  try dsimp only
  with_reducible repeat' first | assumption | apply setSeg_kept | (apply kept_mk; exact rfl; exact rfl; exact rfl; exact rfl; exact rfl; exact rfl; exact rfl; exact rfl; exact rfl; exact rfl; (first | assumption | apply setSeg_kept | split)) | split | intro _

theorem startCadence_kept (k : Nat) (s : State) (hs : Kept s0 s) : Kept s0 (startCadence k s) := by
  unfold startCadence
  try dsimp only
  with_reducible repeat' first | assumption | apply masterDown_kept | apply setStart_kept | apply startEnd_kept | apply startFail_kept | (apply kept_mk; exact rfl; exact rfl; exact rfl; exact rfl; exact rfl; exact rfl; exact rfl; exact rfl; exact rfl; exact rfl; (first | assumption | apply masterDown_kept | apply setStart_kept | apply startEnd_kept | apply startFail_kept | split)) | split | intro _

theorem startAgain_kept (k : Nat) (s : State) (hs : Kept s0 s) : Kept s0 (startAgain k s) := by
  unfold startAgain
  try dsimp only
  with_reducible repeat' first | assumption | apply segTo_kept | apply setStart_kept | (apply kept_mk; exact rfl; exact rfl; exact rfl; exact rfl; exact rfl; exact rfl; exact rfl; exact rfl; exact rfl; exact rfl; (first | assumption | apply segTo_kept | apply setStart_kept | split)) | split | intro _

theorem enumReturn_kept (k : Nat) (l : List StationId) (s : State) (hs : Kept s0 s) : Kept s0 (enumReturn k l s) := by
  unfold enumReturn
  try dsimp only
  with_reducible repeat' first | assumption | apply count_kept | apply setSeg_kept | apply setStart_kept | apply startFail_kept | apply foldl_kept | (apply kept_mk; exact rfl; exact rfl; exact rfl; exact rfl; exact rfl; exact rfl; exact rfl; exact rfl; exact rfl; exact rfl; (first | assumption | apply count_kept | apply setSeg_kept | apply setStart_kept | apply startFail_kept | apply foldl_kept | split)) | split | intro _

theorem delayReturn_kept (k : Nat) (d : List (BitVec 32 × BitVec 32)) (s : State) (hs : Kept s0 s) : Kept s0 (delayReturn k d s) := by
  unfold delayReturn
  try dsimp only
  with_reducible repeat' first | assumption | apply setSeg_kept | (apply kept_mk; exact rfl; exact rfl; exact rfl; exact rfl; exact rfl; exact rfl; exact rfl; exact rfl; exact rfl; exact rfl; (first | assumption | apply setSeg_kept | split)) | split | intro _

theorem masterCollision_kept (k : Nat) (other : BitVec 64) (s : State) (hs : Kept s0 s) : Kept s0 (masterCollision k other s) := by
  unfold masterCollision
  try dsimp only
  with_reducible repeat' first | assumption | apply journal_kept | apply segTo_kept | apply setSeg_kept | apply startFail_kept | apply vzEvent_kept | (apply kept_mk; exact rfl; exact rfl; exact rfl; exact rfl; exact rfl; exact rfl; exact rfl; exact rfl; exact rfl; exact rfl; (first | assumption | apply journal_kept | apply segTo_kept | apply setSeg_kept | apply startFail_kept | apply vzEvent_kept | split)) | split | intro _

theorem collisionWaitEnd_kept (k : Nat) (s : State) (hs : Kept s0 s) : Kept s0 (collisionWaitEnd k s) := by
  unfold collisionWaitEnd
  try dsimp only
  with_reducible repeat' first | assumption | apply advanceTo_kept | apply journal_kept | apply segTo_kept | apply startAgain_kept | apply startFail_kept | (apply kept_mk; exact rfl; exact rfl; exact rfl; exact rfl; exact rfl; exact rfl; exact rfl; exact rfl; exact rfl; exact rfl; (first | assumption | apply advanceTo_kept | apply journal_kept | apply segTo_kept | apply startAgain_kept | apply startFail_kept | split)) | split | intro _

theorem ringBroken_kept (k : Nat) (s : State) (hs : Kept s0 s) : Kept s0 (ringBroken k s) := by
  unfold ringBroken
  try dsimp only
  with_reducible repeat' first | assumption | apply setSeg_kept | (apply kept_mk; exact rfl; exact rfl; exact rfl; exact rfl; exact rfl; exact rfl; exact rfl; exact rfl; exact rfl; exact rfl; (first | assumption | apply setSeg_kept | split)) | split | intro _

theorem ringSplit_kept (k : Nat) (s : State) (hs : Kept s0 s) : Kept s0 (ringSplit k s) := by
  unfold ringSplit
  try dsimp only
  with_reducible repeat' first | assumption | apply journal_kept | apply setSeg_kept | apply vzEvent_kept | (apply kept_mk; exact rfl; exact rfl; exact rfl; exact rfl; exact rfl; exact rfl; exact rfl; exact rfl; exact rfl; exact rfl; (first | assumption | apply journal_kept | apply setSeg_kept | apply vzEvent_kept | split)) | split | intro _

theorem vzLinkDown_kept (p : Nat) (s : State) (hs : Kept s0 s) : Kept s0 (vzLinkDown p s) := by
  unfold vzLinkDown
  try dsimp only
  with_reducible repeat' first | assumption | apply journal_kept | apply modPel_kept | apply ringBroken_kept | apply segTo_kept | apply setSeg_kept | apply startDone_kept | apply startFail_kept | (apply kept_mk; exact rfl; exact rfl; exact rfl; exact rfl; exact rfl; exact rfl; exact rfl; exact rfl; exact rfl; exact rfl; (first | assumption | apply journal_kept | apply modPel_kept | apply ringBroken_kept | apply segTo_kept | apply setSeg_kept | apply startDone_kept | apply startFail_kept | split)) | split | intro _

theorem foreignFrame_kept (port : Nat) (s : State) (hs : Kept s0 s) : Kept s0 (foreignFrame port s) := by
  unfold foreignFrame
  try dsimp only
  with_reducible repeat' first | assumption | apply count_kept | apply setSeg_kept | (apply kept_mk; exact rfl; exact rfl; exact rfl; exact rfl; exact rfl; exact rfl; exact rfl; exact rfl; exact rfl; exact rfl; (first | assumption | apply count_kept | apply setSeg_kept | split)) | split | intro _

theorem violation_kept (k port st : Nat) (s : State) (hs : Kept s0 s) : Kept s0 (violation k port st s) := by
  unfold violation
  try dsimp only
  with_reducible repeat' first | assumption | apply count_kept | apply setSeg_kept | (apply kept_mk; exact rfl; exact rfl; exact rfl; exact rfl; exact rfl; exact rfl; exact rfl; exact rfl; exact rfl; exact rfl; (first | assumption | apply count_kept | apply setSeg_kept | split)) | split | intro _

theorem stationSilenced_kept (k st : Nat) (s : State) (hs : Kept s0 s) : Kept s0 (stationSilenced k st s) := by
  unfold stationSilenced
  try dsimp only
  with_reducible repeat' first | assumption | apply journal_kept | apply setSeg_kept | apply vzEvent_kept | (apply kept_mk; exact rfl; exact rfl; exact rfl; exact rfl; exact rfl; exact rfl; exact rfl; exact rfl; exact rfl; exact rfl; (first | assumption | apply journal_kept | apply setSeg_kept | apply vzEvent_kept | split)) | split | intro _

theorem safetyError_kept (k port a : Nat) (s : State) (hs : Kept s0 s) : Kept s0 (safetyError k port a s) := by
  unfold safetyError
  try dsimp only
  with_reducible repeat' first | assumption | apply count_kept | apply modAxis_kept | apply reqFault_kept | apply setSeg_kept | apply vzEvent_kept | (apply kept_mk; exact rfl; exact rfl; exact rfl; exact rfl; exact rfl; exact rfl; exact rfl; exact rfl; exact rfl; exact rfl; (first | assumption | apply count_kept | apply modAxis_kept | apply reqFault_kept | apply setSeg_kept | apply vzEvent_kept | split)) | split | intro _

theorem takeFeedback_kept (hook : Nat → State → State) (k port a : Nat) (e : Entry) (s : State)
    (khook : ∀ a0 t, Kept s0 t → Kept s0 (hook a0 t)) (hs : Kept s0 s) : Kept s0 (takeFeedback hook k port a e s) := by
  unfold takeFeedback
  extract_lets x m t0 f
  have h0 : Kept s0 t0 := by
    simp only [t0]; split
    · exact xsend_kept _ _ _ _ hs
    · exact hs
  clear_value t0
  split
  · exact h0
  split
  · exact safetyError_kept _ _ _ _ h0
  · exact khook _ _ (modAxis_kept _ _ _ h0)

theorem lateRecord_kept (k port : Nat) (s : State) (hs : Kept s0 s) : Kept s0 (lateRecord k port s) := by
  unfold lateRecord
  try dsimp only
  with_reducible repeat' first | assumption | apply count_kept | apply setSeg_kept | (apply kept_mk; exact rfl; exact rfl; exact rfl; exact rfl; exact rfl; exact rfl; exact rfl; exact rfl; exact rfl; exact rfl; (first | assumption | apply count_kept | apply setSeg_kept | split)) | split | intro _

theorem takeEntry_kept (hook : Nat → State → State) (k port src cad : Nat) (e : Entry) (s : State) (khook : ∀ a0 t, Kept s0 t → Kept s0 (hook a0 t)) (hs : Kept s0 s) : Kept s0 (takeEntry hook k port src cad e s) := by
  unfold takeEntry
  try dsimp only
  with_reducible repeat' first | assumption | apply lateRecord_kept | apply setSeg_kept | apply takeFeedback_kept | (apply kept_mk; exact rfl; exact rfl; exact rfl; exact rfl; exact rfl; exact rfl; exact rfl; exact rfl; exact rfl; exact rfl; (first | assumption | apply lateRecord_kept | apply setSeg_kept | apply takeFeedback_kept | split)) | split | intro _

theorem fcsBurst_kept (k : Nat) (s : State) (hs : Kept s0 s) : Kept s0 (fcsBurst k s) := by
  unfold fcsBurst
  try dsimp only
  with_reducible repeat' first | assumption | apply freeNext_kept | apply vzEvent_kept | (apply kept_mk; exact rfl; exact rfl; exact rfl; exact rfl; exact rfl; exact rfl; exact rfl; exact rfl; exact rfl; exact rfl; (first | assumption | apply freeNext_kept | apply vzEvent_kept | split)) | split | intro _

theorem stationFrame_kept (hook : Nat → State → State) (k port sfd : Nat) (f : List Byte) (s : State) (khook : ∀ a0 t, Kept s0 t → Kept s0 (hook a0 t)) (hs : Kept s0 s) : Kept s0 (stationFrame hook k port sfd f s) := by
  unfold stationFrame
  try dsimp only
  with_reducible repeat' first | assumption | apply count_kept | apply fcsBurst_kept | apply foreignFrame_kept | apply setSeg_kept | apply takeEntry_kept | apply violation_kept | apply foldl_kept | (apply kept_mk; exact rfl; exact rfl; exact rfl; exact rfl; exact rfl; exact rfl; exact rfl; exact rfl; exact rfl; exact rfl; (first | assumption | apply count_kept | apply fcsBurst_kept | apply foreignFrame_kept | apply setSeg_kept | apply takeEntry_kept | apply violation_kept | apply foldl_kept | split)) | split | intro _

theorem freewheel_kept (s : State) (hs : Kept s0 s) : Kept s0 (freewheel s) := by
  unfold freewheel
  try dsimp only
  with_reducible repeat' first | assumption | apply count_kept | apply forNat_kept | apply setAxis_kept | apply setSeg_kept | (apply kept_mk; exact rfl; exact rfl; exact rfl; exact rfl; exact rfl; exact rfl; exact rfl; exact rfl; exact rfl; exact rfl; (first | assumption | apply count_kept | apply forNat_kept | apply setAxis_kept | apply setSeg_kept | split)) | split | intro _

theorem freewheelExpired_kept (a : Nat) (s : State) (hs : Kept s0 s) : Kept s0 (freewheelExpired a s) := by
  unfold freewheelExpired
  try dsimp only
  with_reducible repeat' first | assumption | apply reqFault_kept | (apply kept_mk; exact rfl; exact rfl; exact rfl; exact rfl; exact rfl; exact rfl; exact rfl; exact rfl; exact rfl; exact rfl; (first | assumption | apply reqFault_kept | split)) | split | intro _

theorem arbReturn_kept (k col st : Nat) (s : State) (hs : Kept s0 s) : Kept s0 (arbReturn k col st s) := by
  unfold arbReturn
  try dsimp only
  with_reducible repeat' first | assumption | apply setSeg_kept | (apply kept_mk; exact rfl; exact rfl; exact rfl; exact rfl; exact rfl; exact rfl; exact rfl; exact rfl; exact rfl; exact rfl; (first | assumption | apply setSeg_kept | split)) | split | intro _

theorem acyclicFrame_kept (k st : Nat) (b : List Byte) (s : State) (hs : Kept s0 s) : Kept s0 (acyclicFrame k st b s) := by
  unfold acyclicFrame
  try dsimp only
  with_reducible repeat' first | assumption | apply complete_kept | apply setSeg_kept | apply violation_kept | (apply kept_mk; exact rfl; exact rfl; exact rfl; exact rfl; exact rfl; exact rfl; exact rfl; exact rfl; exact rfl; exact rfl; (first | assumption | apply complete_kept | apply setSeg_kept | apply violation_kept | split)) | split | intro _

theorem acyclicTimeout_kept (m sl : Nat) (s : State) (hs : Kept s0 s) : Kept s0 (acyclicTimeout m sl s) := by
  unfold acyclicTimeout
  try dsimp only
  with_reducible repeat' first | assumption | apply advanceTo_kept | apply complete_kept | apply setSeg_kept | (apply kept_mk; exact rfl; exact rfl; exact rfl; exact rfl; exact rfl; exact rfl; exact rfl; exact rfl; exact rfl; exact rfl; (first | assumption | apply advanceTo_kept | apply complete_kept | apply setSeg_kept | split)) | split | intro _

theorem sendArb_kept (k : Nat) (s : State) (hs : Kept s0 s) : Kept s0 (sendArb k s) := by
  unfold sendArb
  try dsimp only
  with_reducible repeat' first | assumption | apply setSeg_kept | apply forNat_kept | apply masterDown_kept | (apply kept_mk; exact rfl; exact rfl; exact rfl; exact rfl; exact rfl; exact rfl; exact rfl; exact rfl; exact rfl; exact rfl; (first | assumption | apply setSeg_kept | apply forNat_kept | apply masterDown_kept | split)) | split | intro _

theorem busCadence_kept (s : State) (hs : Kept s0 s) : Kept s0 (busCadence s) := by
  unfold busCadence
  try dsimp only
  with_reducible repeat' first | assumption | apply cadenceFrame_kept | apply complete_kept | apply forNat_kept | apply ringSplit_kept | apply sendAcyclic_kept | apply sendArb_kept | apply setSeg_kept | apply startCadence_kept | (apply kept_mk; exact rfl; exact rfl; exact rfl; exact rfl; exact rfl; exact rfl; exact rfl; exact rfl; exact rfl; exact rfl; (first | assumption | apply cadenceFrame_kept | apply complete_kept | apply forNat_kept | apply ringSplit_kept | apply sendAcyclic_kept | apply sendArb_kept | apply setSeg_kept | apply startCadence_kept | split)) | split | intro _

theorem busEff_kept (e : Eff) (s : State) (hs : Kept s0 s) : Kept s0 (busEff e s) := by
  unfold busEff
  try dsimp only
  with_reducible repeat' first | assumption | apply segTo_kept | apply setSeg_kept | apply startEnd_kept | (apply kept_mk; exact rfl; exact rfl; exact rfl; exact rfl; exact rfl; exact rfl; exact rfl; exact rfl; exact rfl; exact rfl; (first | assumption | apply segTo_kept | apply setSeg_kept | apply startEnd_kept | split)) | split | intro _

theorem busRound_kept (t : Nat) (s : State) (hs : Kept s0 s) : Kept s0 (busRound t s) := by
  unfold busRound takeEff
  dsimp only
  refine forNat_kept _ _ _ (fun k u hu => ?_) (foldl_kept _ _ (fun u e hu => busEff_kept _ _ hu) _ (kept_mk rfl rfl rfl rfl rfl rfl rfl rfl rfl rfl hs))
  split
  · exact segTo_kept _ _ _ (setSeg_kept _ _ _ hu)
  · exact hu

theorem busStartSpec_kept  : SpecKept (busStartSpec ) := by
  refine fun c s => ⟨fun st t ht => ?_, fun t ht => ?_⟩ <;> unfold busStartSpec <;> (try dsimp only)
  all_goals with_reducible repeat' first | assumption | apply later_kept | apply segTo_kept | apply setStart_kept | apply later_kept | (apply kept_mk; exact rfl; exact rfl; exact rfl; exact rfl; exact rfl; exact rfl; exact rfl; exact rfl; exact rfl; exact rfl; (first | assumption | apply later_kept | apply segTo_kept | apply setStart_kept | apply later_kept | split)) | split | intro _

theorem busStopSpec_kept  : SpecKept (busStopSpec ) := by
  refine fun c s => ⟨fun st t ht => ?_, fun t ht => ?_⟩ <;> unfold busStopSpec <;> (try dsimp only)
  all_goals with_reducible repeat' first | assumption | apply later_kept | apply later_kept | (apply kept_mk; exact rfl; exact rfl; exact rfl; exact rfl; exact rfl; exact rfl; exact rfl; exact rfl; exact rfl; exact rfl; (first | assumption | apply later_kept | apply later_kept | split)) | split | intro _

theorem busLoadMatrixSpec_kept  : SpecKept (busLoadMatrixSpec ) := by
  refine fun c s => ⟨fun st t ht => ?_, fun t ht => ?_⟩ <;> unfold busLoadMatrixSpec <;> (try dsimp only)
  all_goals with_reducible repeat' first | assumption | apply later_kept | apply setSeg_kept | apply later_kept | (apply kept_mk; exact rfl; exact rfl; exact rfl; exact rfl; exact rfl; exact rfl; exact rfl; exact rfl; exact rfl; exact rfl; (first | assumption | apply later_kept | apply setSeg_kept | apply later_kept | split)) | split | intro _

theorem busSwitchMatrixSpec_kept  : SpecKept (busSwitchMatrixSpec ) := by
  refine fun c s => ⟨fun st t ht => ?_, fun t ht => ?_⟩ <;> unfold busSwitchMatrixSpec <;> (try dsimp only)
  all_goals with_reducible repeat' first | assumption | apply later_kept | apply later_kept | (apply kept_mk; exact rfl; exact rfl; exact rfl; exact rfl; exact rfl; exact rfl; exact rfl; exact rfl; exact rfl; exact rfl; (first | assumption | apply later_kept | apply later_kept | split)) | split | intro _

theorem busMapAxisSpec_kept  : SpecKept (busMapAxisSpec ) := by
  refine fun c s => ⟨fun st t ht => ?_, fun t ht => ?_⟩ <;> unfold busMapAxisSpec <;> (try dsimp only)
  all_goals with_reducible repeat' first | assumption | apply modAxis_kept | (apply kept_mk; exact rfl; exact rfl; exact rfl; exact rfl; exact rfl; exact rfl; exact rfl; exact rfl; exact rfl; exact rfl; (first | assumption | apply modAxis_kept | split)) | split | intro _

theorem busSetAliasSpec_kept  : SpecKept (busSetAliasSpec ) := by
  refine fun c s => ⟨fun st t ht => ?_, fun t ht => ?_⟩ <;> unfold busSetAliasSpec <;> (try dsimp only)
  all_goals with_reducible repeat' first | assumption | apply emit_kept | (apply kept_mk; exact rfl; exact rfl; exact rfl; exact rfl; exact rfl; exact rfl; exact rfl; exact rfl; exact rfl; exact rfl; (first | assumption | apply emit_kept | split)) | split | intro _

theorem busStationResetSpec_kept  : SpecKept (busStationResetSpec ) := by
  refine fun c s => ⟨fun st t ht => ?_, fun t ht => ?_⟩ <;> unfold busStationResetSpec <;> (try dsimp only)
  all_goals with_reducible repeat' first | assumption | apply later_kept | apply later_kept | (apply kept_mk; exact rfl; exact rfl; exact rfl; exact rfl; exact rfl; exact rfl; exact rfl; exact rfl; exact rfl; exact rfl; (first | assumption | apply later_kept | apply later_kept | split)) | split | intro _

theorem busRejoinSpec_kept  : SpecKept (busRejoinSpec ) := by
  refine fun c s => ⟨fun st t ht => ?_, fun t ht => ?_⟩ <;> unfold busRejoinSpec <;> (try dsimp only)
  all_goals with_reducible repeat' first | assumption | apply later_kept | apply later_kept | (apply kept_mk; exact rfl; exact rfl; exact rfl; exact rfl; exact rfl; exact rfl; exact rfl; exact rfl; exact rfl; exact rfl; (first | assumption | apply later_kept | apply later_kept | split)) | split | intro _

theorem busAcyclicSpec_kept  : SpecKept (busAcyclicSpec ) := by
  refine fun c s => ⟨fun st t ht => ?_, fun t ht => ?_⟩ <;> unfold busAcyclicSpec <;> (try dsimp only)
  all_goals with_reducible repeat' first | assumption | apply later_kept | apply setSeg_kept | apply later_kept | (apply kept_mk; exact rfl; exact rfl; exact rfl; exact rfl; exact rfl; exact rfl; exact rfl; exact rfl; exact rfl; exact rfl; (first | assumption | apply later_kept | apply setSeg_kept | apply later_kept | split)) | split | intro _

theorem busStatusSpec_kept  : SpecKept (busStatusSpec ) := by
  refine fun c s => ⟨fun st t ht => ?_, fun t ht => ?_⟩ <;> unfold busStatusSpec <;> (try dsimp only)
  all_goals with_reducible repeat' first | assumption | apply setSeg_kept | (apply kept_mk; exact rfl; exact rfl; exact rfl; exact rfl; exact rfl; exact rfl; exact rfl; exact rfl; exact rfl; exact rfl; (first | assumption | apply setSeg_kept | split)) | split | intro _

theorem axTo_kept (a : Nat) (st : AxState) (s : State) (hs : Kept s0 s) : Kept s0 (axTo a st s) := by
  unfold axTo
  try dsimp only
  with_reducible repeat' first | assumption | apply modAxis_kept | (apply kept_mk; exact rfl; exact rfl; exact rfl; exact rfl; exact rfl; exact rfl; exact rfl; exact rfl; exact rfl; exact rfl; (first | assumption | apply modAxis_kept | split)) | split | intro _

theorem freeLoop_kept (a : Nat) (s : State) (hs : Kept s0 s) : Kept s0 (freeLoop a s) := by
  unfold freeLoop
  try dsimp only
  with_reducible repeat' first | assumption | apply freeShares_kept | (apply kept_mk; exact rfl; exact rfl; exact rfl; exact rfl; exact rfl; exact rfl; exact rfl; exact rfl; exact rfl; exact rfl; (first | assumption | apply freeShares_kept | split)) | split | intro _

theorem beginEnable_kept (a : Nat) (s : State) (hs : Kept s0 s) : Kept s0 (beginEnable a s) := by
  unfold beginEnable
  try dsimp only
  with_reducible repeat' first | assumption | apply modAxis_kept | (apply kept_mk; exact rfl; exact rfl; exact rfl; exact rfl; exact rfl; exact rfl; exact rfl; exact rfl; exact rfl; exact rfl; (first | assumption | apply modAxis_kept | split)) | split | intro _

theorem toDisabled_kept (a : Nat) (sto : Bool) (s : State) (hs : Kept s0 s) : Kept s0 (toDisabled a sto s) := by
  unfold toDisabled
  try dsimp only
  with_reducible repeat' first | assumption | apply freeLoop_kept | apply modAxis_kept | (apply kept_mk; exact rfl; exact rfl; exact rfl; exact rfl; exact rfl; exact rfl; exact rfl; exact rfl; exact rfl; exact rfl; (first | assumption | apply freeLoop_kept | apply modAxis_kept | split)) | split | intro _

theorem toHeld_kept (a : Nat) (s : State) (hs : Kept s0 s) : Kept s0 (toHeld a s) := by
  unfold toHeld
  try dsimp only
  with_reducible repeat' first | assumption | apply freeLoop_kept | apply modAxis_kept | (apply kept_mk; exact rfl; exact rfl; exact rfl; exact rfl; exact rfl; exact rfl; exact rfl; exact rfl; exact rfl; exact rfl; (first | assumption | apply freeLoop_kept | apply modAxis_kept | split)) | split | intro _

theorem toClosed_kept (a : Nat) (s : State) (hs : Kept s0 s) : Kept s0 (toClosed a s) := by
  unfold toClosed
  try dsimp only
  with_reducible repeat' first | assumption | apply modAxis_kept | (apply kept_mk; exact rfl; exact rfl; exact rfl; exact rfl; exact rfl; exact rfl; exact rfl; exact rfl; exact rfl; exact rfl; (first | assumption | apply modAxis_kept | split)) | split | intro _

theorem genStop_kept (a : Nat) (s : State) (hs : Kept s0 s) : Kept s0 (genStop a s) := by
  unfold genStop
  try dsimp only
  with_reducible repeat' first | assumption | apply modAxis_kept | (apply kept_mk; exact rfl; exact rfl; exact rfl; exact rfl; exact rfl; exact rfl; exact rfl; exact rfl; exact rfl; exact rfl; (first | assumption | apply modAxis_kept | split)) | split | intro _

theorem stopAxis_kept (gen : Bool) (cat a : Nat) (s : State) (hs : Kept s0 s) : Kept s0 (stopAxis gen cat a s) := by
  unfold stopAxis
  try dsimp only
  with_reducible repeat' first | assumption | apply genStop_kept | apply modAxis_kept | apply toDisabled_kept | (apply kept_mk; exact rfl; exact rfl; exact rfl; exact rfl; exact rfl; exact rfl; exact rfl; exact rfl; exact rfl; exact rfl; (first | assumption | apply genStop_kept | apply modAxis_kept | apply toDisabled_kept | split)) | split | intro _

theorem faultAxis_kept (a : Nat) (s : State) (hs : Kept s0 s) : Kept s0 (faultAxis a s) := by
  unfold faultAxis
  try dsimp only
  with_reducible repeat' first | assumption | apply freeLoop_kept | apply journal_kept | apply modAxis_kept | apply foldl_kept | (apply kept_mk; exact rfl; exact rfl; exact rfl; exact rfl; exact rfl; exact rfl; exact rfl; exact rfl; exact rfl; exact rfl; (first | assumption | apply freeLoop_kept | apply journal_kept | apply modAxis_kept | apply foldl_kept | split)) | split | intro _

theorem ungroupedFaultStop_kept (a : Nat) (s : State) (hs : Kept s0 s) : Kept s0 (ungroupedFaultStop a s) := by
  unfold ungroupedFaultStop
  try dsimp only
  with_reducible repeat' first | assumption | apply modAxis_kept | (apply kept_mk; exact rfl; exact rfl; exact rfl; exact rfl; exact rfl; exact rfl; exact rfl; exact rfl; exact rfl; exact rfl; (first | assumption | apply modAxis_kept | split)) | split | intro _

theorem axisConditions_kept (a : Nat) (s : State) (hs : Kept s0 s) : Kept s0 (axisConditions a s) := by
  unfold axisConditions
  extract_lets x ten enabled fresh
  clear_value fresh ten
  split
  · split
    · exact hs
    split
    · exact reqFault_kept _ _ _ hs
    split
    · exact hs
    split
    · exact modAxis_kept _ _ _ hs
    · exact reqFault_kept _ _ _ hs
  · split
    · exact hs
    split
    · exact toDisabled_kept _ _ _ hs
    · exact reqFault_kept _ _ _ hs
  · split
    · exact hs
    split
    · exact modAxis_kept _ _ _ hs
    · exact modAxis_kept _ _ _ hs
  · exact hs

theorem driveFault_kept (a : Nat) (s : State) (hs : Kept s0 s) : Kept s0 (driveFault a s) := by
  unfold driveFault
  try dsimp only
  with_reducible repeat' first | assumption | apply reqFault_kept | (apply kept_mk; exact rfl; exact rfl; exact rfl; exact rfl; exact rfl; exact rfl; exact rfl; exact rfl; exact rfl; exact rfl; (first | assumption | apply reqFault_kept | split)) | split | intro _

theorem enableTimeout_kept (a : Nat) (s : State) (hs : Kept s0 s) : Kept s0 (enableTimeout a s) := by
  unfold enableTimeout
  try dsimp only
  with_reducible repeat' first | assumption | apply advanceTo_kept | apply reqFault_kept | (apply kept_mk; exact rfl; exact rfl; exact rfl; exact rfl; exact rfl; exact rfl; exact rfl; exact rfl; exact rfl; exact rfl; (first | assumption | apply advanceTo_kept | apply reqFault_kept | split)) | split | intro _

theorem disableTimeout_kept (a : Nat) (s : State) (hs : Kept s0 s) : Kept s0 (disableTimeout a s) := by
  unfold disableTimeout
  try dsimp only
  with_reducible repeat' first | assumption | apply advanceTo_kept | apply reqFault_kept | (apply kept_mk; exact rfl; exact rfl; exact rfl; exact rfl; exact rfl; exact rfl; exact rfl; exact rfl; exact rfl; exact rfl; (first | assumption | apply advanceTo_kept | apply reqFault_kept | split)) | split | intro _

theorem deferredLimits_kept (a : Nat) (s : State) (hs : Kept s0 s) : Kept s0 (deferredLimits a s) := by
  unfold deferredLimits
  try dsimp only
  with_reducible repeat' first | assumption | apply journal_kept | apply setAxis_kept | (apply kept_mk; exact rfl; exact rfl; exact rfl; exact rfl; exact rfl; exact rfl; exact rfl; exact rfl; exact rfl; exact rfl; (first | assumption | apply journal_kept | apply setAxis_kept | split)) | split | intro _

theorem genStep_kept (a : Nat) (s : State) (hs : Kept s0 s) : Kept s0 (genStep a s) := by
  unfold genStep
  try dsimp only
  with_reducible repeat' first | assumption | apply modAxis_kept | (apply kept_mk; exact rfl; exact rfl; exact rfl; exact rfl; exact rfl; exact rfl; exact rfl; exact rfl; exact rfl; exact rfl; (first | assumption | apply modAxis_kept | split)) | split | intro _

theorem countZero_kept (a : Nat) (s : State) (hs : Kept s0 s) : Kept s0 (countZero a s) := by
  unfold countZero
  try dsimp only
  with_reducible repeat' first | assumption | apply modAxis_kept | (apply kept_mk; exact rfl; exact rfl; exact rfl; exact rfl; exact rfl; exact rfl; exact rfl; exact rfl; exact rfl; exact rfl; (first | assumption | apply modAxis_kept | split)) | split | intro _

theorem axisEff_kept (e : Eff) (s : State) (hs : Kept s0 s) : Kept s0 (axisEff e s) := by
  unfold axisEff
  try dsimp only
  with_reducible repeat' first | assumption | apply beginEnable_kept | apply freeLoop_kept | apply modAxis_kept | apply setAxis_kept | apply toClosed_kept | apply toDisabled_kept | apply toHeld_kept | (apply kept_mk; exact rfl; exact rfl; exact rfl; exact rfl; exact rfl; exact rfl; exact rfl; exact rfl; exact rfl; exact rfl; (first | assumption | apply beginEnable_kept | apply freeLoop_kept | apply modAxis_kept | apply setAxis_kept | apply toClosed_kept | apply toDisabled_kept | apply toHeld_kept | split)) | split | intro _

theorem axisConfigureSpec_kept  : SpecKept (axisConfigureSpec ) := by
  refine fun c s => ⟨fun st t ht => ?_, fun t ht => ?_⟩ <;> unfold axisConfigureSpec <;> (try dsimp only)
  all_goals with_reducible repeat' first | assumption | apply homePhase_kept | apply modAxis_kept | (apply kept_mk; exact rfl; exact rfl; exact rfl; exact rfl; exact rfl; exact rfl; exact rfl; exact rfl; exact rfl; exact rfl; (first | assumption | apply homePhase_kept | apply modAxis_kept | split)) | split | intro _

theorem axisEnableSpec_kept  : SpecKept (axisEnableSpec ) := by
  refine fun c s => ⟨fun st t ht => ?_, fun t ht => ?_⟩ <;> unfold axisEnableSpec <;> (try dsimp only)
  all_goals with_reducible repeat' first | assumption | apply later_kept | apply later_kept | (apply kept_mk; exact rfl; exact rfl; exact rfl; exact rfl; exact rfl; exact rfl; exact rfl; exact rfl; exact rfl; exact rfl; (first | assumption | apply later_kept | apply later_kept | split)) | split | intro _

theorem axisDisableSpec_kept  : SpecKept (axisDisableSpec ) := by
  refine fun c s => ⟨fun st t ht => ?_, fun t ht => ?_⟩ <;> unfold axisDisableSpec <;> (try dsimp only)
  all_goals with_reducible repeat' first | assumption | apply later_kept | apply later_kept | (apply kept_mk; exact rfl; exact rfl; exact rfl; exact rfl; exact rfl; exact rfl; exact rfl; exact rfl; exact rfl; exact rfl; (first | assumption | apply later_kept | apply later_kept | split)) | split | intro _

theorem axisCloseSpec_kept  : SpecKept (axisCloseSpec ) := by
  refine fun c s => ⟨fun st t ht => ?_, fun t ht => ?_⟩ <;> unfold axisCloseSpec <;> (try dsimp only)
  all_goals with_reducible repeat' first | assumption | apply post_kept | apply setShares_kept | (apply kept_mk; exact rfl; exact rfl; exact rfl; exact rfl; exact rfl; exact rfl; exact rfl; exact rfl; exact rfl; exact rfl; (first | assumption | apply post_kept | apply setShares_kept | split)) | split | intro _

theorem axisOpenSpec_kept  : SpecKept (axisOpenSpec ) := by
  refine fun c s => ⟨fun st t ht => ?_, fun t ht => ?_⟩ <;> unfold axisOpenSpec <;> (try dsimp only)
  all_goals with_reducible repeat' first | assumption | apply later_kept | apply later_kept | (apply kept_mk; exact rfl; exact rfl; exact rfl; exact rfl; exact rfl; exact rfl; exact rfl; exact rfl; exact rfl; exact rfl; (first | assumption | apply later_kept | apply later_kept | split)) | split | intro _

theorem axisClearSpec_kept  : SpecKept (axisClearSpec ) := by
  refine fun c s => ⟨fun st t ht => ?_, fun t ht => ?_⟩ <;> unfold axisClearSpec <;> (try dsimp only)
  all_goals with_reducible repeat' first | assumption | apply later_kept | apply later_kept | (apply kept_mk; exact rfl; exact rfl; exact rfl; exact rfl; exact rfl; exact rfl; exact rfl; exact rfl; exact rfl; exact rfl; (first | assumption | apply later_kept | apply later_kept | split)) | split | intro _

theorem axisMoveSpec_kept  : SpecKept (axisMoveSpec ) := by
  refine fun c s => ⟨fun st t ht => ?_, fun t ht => ?_⟩ <;> unfold axisMoveSpec <;> (try dsimp only)
  all_goals with_reducible repeat' first | assumption | apply post_kept | (apply kept_mk; exact rfl; exact rfl; exact rfl; exact rfl; exact rfl; exact rfl; exact rfl; exact rfl; exact rfl; exact rfl; (first | assumption | apply post_kept | split)) | split | intro _

theorem axisStopSpec_kept  : SpecKept (axisStopSpec ) := by
  refine fun c s => ⟨fun st t ht => ?_, fun t ht => ?_⟩ <;> unfold axisStopSpec <;> (try dsimp only)
  all_goals with_reducible repeat' first | assumption | apply later_kept | apply later_kept | (apply kept_mk; exact rfl; exact rfl; exact rfl; exact rfl; exact rfl; exact rfl; exact rfl; exact rfl; exact rfl; exact rfl; (first | assumption | apply later_kept | apply later_kept | split)) | split | intro _

theorem setFlow_kept (f : Nat) (v : Flow) (s : State) (hs : Kept s0 s) : Kept s0 (setFlow f v s) := by
  unfold setFlow
  try dsimp only
  with_reducible repeat' first | assumption | (apply kept_mk; exact rfl; exact rfl; exact rfl; exact rfl; exact rfl; exact rfl; exact rfl; exact rfl; exact rfl; exact rfl; (first | assumption | split)) | split | intro _

theorem setOnUnit_kept (k u : Nat) (t : Option Task) (s : State) (hs : Kept s0 s) : Kept s0 (setOnUnit k u t s) := by
  unfold setOnUnit
  try dsimp only
  with_reducible repeat' first | assumption | (apply kept_mk; exact rfl; exact rfl; exact rfl; exact rfl; exact rfl; exact rfl; exact rfl; exact rfl; exact rfl; exact rfl; (first | assumption | split)) | split | intro _

theorem addBusy_kept (k u n : Nat) (s : State) (hs : Kept s0 s) : Kept s0 (addBusy k u n s) := by
  unfold addBusy
  try dsimp only
  with_reducible repeat' first | assumption | apply countN_kept | (apply kept_mk; exact rfl; exact rfl; exact rfl; exact rfl; exact rfl; exact rfl; exact rfl; exact rfl; exact rfl; exact rfl; (first | assumption | apply countN_kept | split)) | split | intro _

theorem makeReady_kept (t : Task) (s : State) (hs : Kept s0 s) : Kept s0 (makeReady t s) := by
  unfold makeReady
  try dsimp only
  with_reducible repeat' first | assumption | apply noteDepth_kept | apply setCls_kept | (apply kept_mk; exact rfl; exact rfl; exact rfl; exact rfl; exact rfl; exact rfl; exact rfl; exact rfl; exact rfl; exact rfl; (first | assumption | apply noteDepth_kept | apply setCls_kept | split)) | split | intro _

theorem suspend_kept (t : Task) (s : State) (hs : Kept s0 s) : Kept s0 (suspend t s) := by
  unfold suspend
  try dsimp only
  with_reducible repeat' first | assumption | apply setCls_kept | (apply kept_mk; exact rfl; exact rfl; exact rfl; exact rfl; exact rfl; exact rfl; exact rfl; exact rfl; exact rfl; exact rfl; (first | assumption | apply setCls_kept | split)) | split | intro _

theorem taskDue_kept (t : Task) (s : State) (hs : Kept s0 s) : Kept s0 (taskDue t s) := by
  unfold taskDue
  extract_lets k c
  clear_value c
  split
  · exact noteDepth_kept _ _ (setCls_kept _ _ _ hs)
  split
  · exact suspend_kept _ _ hs
  · exact makeReady_kept _ _ hs

theorem stallPort_kept (t : Task) (s : State) (hs : Kept s0 s) : Kept s0 (stallPort t s) := by
  unfold stallPort
  try dsimp only
  with_reducible repeat' first | assumption | apply count_kept | apply raise_kept | apply setCls_kept | (apply kept_mk; exact rfl; exact rfl; exact rfl; exact rfl; exact rfl; exact rfl; exact rfl; exact rfl; exact rfl; exact rfl; (first | assumption | apply count_kept | apply raise_kept | apply setCls_kept | split)) | split | intro _

theorem enqueueTask_kept (d : Descriptor) (s : State) (hs : Kept s0 s) : Kept s0 (enqueueTask d s) := by
  unfold enqueueTask
  try dsimp only
  with_reducible repeat' first | assumption | apply count_kept | apply noteDepth_kept | apply raise_kept | apply setCls_kept | apply setFlow_kept | apply stallPort_kept | apply taskDue_kept | (apply kept_mk; exact rfl; exact rfl; exact rfl; exact rfl; exact rfl; exact rfl; exact rfl; exact rfl; exact rfl; exact rfl; (first | assumption | apply count_kept | apply noteDepth_kept | apply raise_kept | apply setCls_kept | apply setFlow_kept | apply stallPort_kept | apply taskDue_kept | split)) | split | intro _

theorem releaseHeld_kept (t : Task) (sA : State) (hsA : Kept s0 sA) : Kept s0 (releaseHeld t sA) := by
  unfold releaseHeld
  try dsimp only
  with_reducible repeat' first | assumption | apply advanceTo_kept | apply makeReady_kept | apply setCls_kept | apply suspend_kept | (apply kept_mk; exact rfl; exact rfl; exact rfl; exact rfl; exact rfl; exact rfl; exact rfl; exact rfl; exact rfl; exact rfl; (first | assumption | apply advanceTo_kept | apply makeReady_kept | apply setCls_kept | apply suspend_kept | split)) | split | intro _

theorem taskRelease_kept (d : Descriptor) (s : State) (hs : Kept s0 s) : Kept s0 (taskRelease d s) := by
  unfold taskRelease
  try dsimp only
  with_reducible repeat' first | assumption | apply enqueueTask_kept | apply releaseHeld_kept | (apply kept_mk; exact rfl; exact rfl; exact rfl; exact rfl; exact rfl; exact rfl; exact rfl; exact rfl; exact rfl; exact rfl; (first | assumption | apply enqueueTask_kept | apply releaseHeld_kept | split)) | split | intro _

theorem taskDispatch_kept (k : Nat) (s : State) (hs : Kept s0 s) : Kept s0 (taskDispatch k s) := by
  unfold taskDispatch
  try dsimp only
  with_reducible repeat' first | assumption | apply count_kept | apply noteDepth_kept | apply setCls_kept | apply setFlow_kept | apply setOnUnit_kept | (apply kept_mk; exact rfl; exact rfl; exact rfl; exact rfl; exact rfl; exact rfl; exact rfl; exact rfl; exact rfl; exact rfl; (first | assumption | apply count_kept | apply noteDepth_kept | apply setCls_kept | apply setFlow_kept | apply setOnUnit_kept | split)) | split | intro _

theorem flowNext_kept (f : Nat) (s : State) (hs : Kept s0 s) : Kept s0 (flowNext f s) := by
  unfold flowNext
  try dsimp only
  with_reducible repeat' first | assumption | apply setFlow_kept | apply taskDue_kept | (apply kept_mk; exact rfl; exact rfl; exact rfl; exact rfl; exact rfl; exact rfl; exact rfl; exact rfl; exact rfl; exact rfl; (first | assumption | apply setFlow_kept | apply taskDue_kept | split)) | split | intro _

theorem freeUnitOf_kept (k u : Nat) (t : Task) (s : State) (hs : Kept s0 s) : Kept s0 (freeUnitOf k u t s) := by
  unfold freeUnitOf
  try dsimp only
  with_reducible repeat' first | assumption | apply flowNext_kept | apply noteDepth_kept | apply setOnUnit_kept | (apply kept_mk; exact rfl; exact rfl; exact rfl; exact rfl; exact rfl; exact rfl; exact rfl; exact rfl; exact rfl; exact rfl; (first | assumption | apply flowNext_kept | apply noteDepth_kept | apply setOnUnit_kept | split)) | split | intro _

theorem admitRan_kept (u n : Nat) (s : State) (hs : Kept s0 s) : Kept s0 (admitRan u n s) := by
  unfold admitRan
  try dsimp only
  with_reducible repeat' first | assumption | apply count_kept | (apply kept_mk; exact rfl; exact rfl; exact rfl; exact rfl; exact rfl; exact rfl; exact rfl; exact rfl; exact rfl; exact rfl; (first | assumption | apply count_kept | split)) | split | intro _

theorem taskEnd_kept (k u : Nat) (s : State) (hs : Kept s0 s) : Kept s0 (taskEnd k u s) := by
  unfold taskEnd
  try dsimp only
  with_reducible repeat' first | assumption | apply addBusy_kept | apply admitRan_kept | apply count_kept | apply freeUnitOf_kept | (apply kept_mk; exact rfl; exact rfl; exact rfl; exact rfl; exact rfl; exact rfl; exact rfl; exact rfl; exact rfl; exact rfl; (first | assumption | apply addBusy_kept | apply admitRan_kept | apply count_kept | apply freeUnitOf_kept | split)) | split | intro _

theorem fftSliceEnd_kept (u : Nat) (s : State) (hs : Kept s0 s) : Kept s0 (fftSliceEnd u s) := by
  unfold fftSliceEnd
  try dsimp only
  with_reducible repeat' first | assumption | apply addBusy_kept | apply advanceTo_kept | apply countN_kept | apply setOnUnit_kept | apply suspend_kept | (apply kept_mk; exact rfl; exact rfl; exact rfl; exact rfl; exact rfl; exact rfl; exact rfl; exact rfl; exact rfl; exact rfl; (first | assumption | apply addBusy_kept | apply advanceTo_kept | apply countN_kept | apply setOnUnit_kept | apply suspend_kept | split)) | split | intro _

theorem resumeFft_kept (s : State) (hs : Kept s0 s) : Kept s0 (resumeFft s) := by
  unfold resumeFft
  try dsimp only
  with_reducible repeat' first | assumption | apply makeReady_kept | apply setCls_kept | apply foldl_kept | (apply kept_mk; exact rfl; exact rfl; exact rfl; exact rfl; exact rfl; exact rfl; exact rfl; exact rfl; exact rfl; exact rfl; (first | assumption | apply makeReady_kept | apply setCls_kept | apply foldl_kept | split)) | split | intro _

theorem enqueueResume_kept (k : Nat) (s : State) (hs : Kept s0 s) : Kept s0 (enqueueResume k s) := by
  unfold enqueueResume
  try dsimp only
  with_reducible repeat' first | assumption | apply enqueueTask_kept | apply setCls_kept | (apply kept_mk; exact rfl; exact rfl; exact rfl; exact rfl; exact rfl; exact rfl; exact rfl; exact rfl; exact rfl; exact rfl; (first | assumption | apply enqueueTask_kept | apply setCls_kept | split)) | split | intro _

theorem schedStatusSpec_kept  : SpecKept (schedStatusSpec ) := by
  refine fun c s => ⟨fun st t ht => ?_, fun t ht => ?_⟩ <;> unfold schedStatusSpec <;> (try dsimp only)
  all_goals with_reducible repeat' first | assumption | (apply kept_mk; exact rfl; exact rfl; exact rfl; exact rfl; exact rfl; exact rfl; exact rfl; exact rfl; exact rfl; exact rfl; (first | assumption | split)) | split | intro _

theorem schedLoadSpec_kept  : SpecKept (schedLoadSpec ) := by
  refine fun c s => ⟨fun st t ht => ?_, fun t ht => ?_⟩ <;> unfold schedLoadSpec <;> (try dsimp only)
  all_goals with_reducible repeat' first | assumption | (apply kept_mk; exact rfl; exact rfl; exact rfl; exact rfl; exact rfl; exact rfl; exact rfl; exact rfl; exact rfl; exact rfl; (first | assumption | split)) | split | intro _

theorem schedWcetSpec_kept  : SpecKept (schedWcetSpec ) := by
  refine fun c s => ⟨fun st t ht => ?_, fun t ht => ?_⟩ <;> unfold schedWcetSpec <;> (try dsimp only)
  all_goals with_reducible repeat' first | assumption | apply freeNext_kept | (apply kept_mk; exact rfl; exact rfl; exact rfl; exact rfl; exact rfl; exact rfl; exact rfl; exact rfl; exact rfl; exact rfl; (first | assumption | apply freeNext_kept | split)) | split | intro _

theorem schedSetWatermarksSpec_kept  : SpecKept (schedSetWatermarksSpec ) := by
  refine fun c s => ⟨fun st t ht => ?_, fun t ht => ?_⟩ <;> unfold schedSetWatermarksSpec <;> (try dsimp only)
  all_goals with_reducible repeat' first | assumption | apply setCls_kept | (apply kept_mk; exact rfl; exact rfl; exact rfl; exact rfl; exact rfl; exact rfl; exact rfl; exact rfl; exact rfl; exact rfl; (first | assumption | apply setCls_kept | split)) | split | intro _

theorem schedClearStatsSpec_kept  : SpecKept (schedClearStatsSpec ) := by
  refine fun c s => ⟨fun st t ht => ?_, fun t ht => ?_⟩ <;> unfold schedClearStatsSpec <;> (try dsimp only)
  all_goals with_reducible repeat' first | assumption | apply setCls_kept | (apply kept_mk; exact rfl; exact rfl; exact rfl; exact rfl; exact rfl; exact rfl; exact rfl; exact rfl; exact rfl; exact rfl; (first | assumption | apply setCls_kept | split)) | split | intro _

theorem schedFlowStatusSpec_kept  : SpecKept (schedFlowStatusSpec ) := by
  refine fun c s => ⟨fun st t ht => ?_, fun t ht => ?_⟩ <;> unfold schedFlowStatusSpec <;> (try dsimp only)
  all_goals with_reducible repeat' first | assumption | (apply kept_mk; exact rfl; exact rfl; exact rfl; exact rfl; exact rfl; exact rfl; exact rfl; exact rfl; exact rfl; exact rfl; (first | assumption | split)) | split | intro _

theorem schedFlowLimitSpec_kept  : SpecKept (schedFlowLimitSpec ) := by
  refine fun c s => ⟨fun st t ht => ?_, fun t ht => ?_⟩ <;> unfold schedFlowLimitSpec <;> (try dsimp only)
  all_goals with_reducible repeat' first | assumption | apply later_kept | apply later_kept | (apply kept_mk; exact rfl; exact rfl; exact rfl; exact rfl; exact rfl; exact rfl; exact rfl; exact rfl; exact rfl; exact rfl; (first | assumption | apply later_kept | apply later_kept | split)) | split | intro _

theorem flowLimitEff_kept (e : Eff) (s : State) (hs : Kept s0 s) : Kept s0 (flowLimitEff e s) := by
  unfold flowLimitEff
  try dsimp only
  with_reducible repeat' first | assumption | apply setFlow_kept | (apply kept_mk; exact rfl; exact rfl; exact rfl; exact rfl; exact rfl; exact rfl; exact rfl; exact rfl; exact rfl; exact rfl; (first | assumption | apply setFlow_kept | split)) | split | intro _

theorem undispatch_kept (s : State) (e : Nat × Task) (hs : Kept s0 s) : Kept s0 (undispatch s e) := by
  unfold undispatch
  try dsimp only
  with_reducible repeat' first | assumption | apply setCls_kept | apply setFlow_kept | apply setOnUnit_kept | (apply kept_mk; exact rfl; exact rfl; exact rfl; exact rfl; exact rfl; exact rfl; exact rfl; exact rfl; exact rfl; exact rfl; (first | assumption | apply setCls_kept | apply setFlow_kept | apply setOnUnit_kept | split)) | split | intro _

theorem cancelTasks_kept (m k : Nat) (s : State) (hs : Kept s0 s) : Kept s0 (cancelTasks m k s) := by
  unfold cancelTasks
  try dsimp only
  with_reducible repeat' first | assumption | apply flowNext_kept | apply forNat_kept | apply noteDepth_kept | apply setCls_kept | apply undispatch_kept | apply foldl_kept | (apply kept_mk; exact rfl; exact rfl; exact rfl; exact rfl; exact rfl; exact rfl; exact rfl; exact rfl; exact rfl; exact rfl; (first | assumption | apply flowNext_kept | apply forNat_kept | apply noteDepth_kept | apply setCls_kept | apply undispatch_kept | apply foldl_kept | split)) | split | intro _

theorem schedCancelSpec_kept  : SpecKept (schedCancelSpec ) := by
  refine fun c s => ⟨fun st t ht => ?_, fun t ht => ?_⟩ <;> unfold schedCancelSpec <;> (try dsimp only)
  all_goals with_reducible repeat' first | assumption | apply cancelTasks_kept | apply complete_kept | (apply kept_mk; exact rfl; exact rfl; exact rfl; exact rfl; exact rfl; exact rfl; exact rfl; exact rfl; exact rfl; exact rfl; (first | assumption | apply cancelTasks_kept | apply complete_kept | split)) | split | intro _

theorem noCredit_kept (m k : Nat) (s : State) (hs : Kept s0 s) : Kept s0 (noCredit m k s) := by
  unfold noCredit
  try dsimp only
  with_reducible repeat' first | assumption | apply advanceTo_kept | apply complete_kept | (apply kept_mk; exact rfl; exact rfl; exact rfl; exact rfl; exact rfl; exact rfl; exact rfl; exact rfl; exact rfl; exact rfl; (first | assumption | apply advanceTo_kept | apply complete_kept | split)) | split | intro _

end Sys2Proof.Machine
end

