-- ==== Sys2Proof/Laws/KeptMotion.lean ====
section
/-!
SUPPORT. `Kept` for the functions of step axes, motion, homing, separation and zones.
-/
namespace Sys2Proof.Machine

set_option Elab.async false
set_option linter.all false

variable {s0 : State}

theorem stpEvent_kept (n : Nat) (cause : BitVec 8) (s : State) (hs : Kept s0 s) : Kept s0 (stpEvent n cause s) := by
  unfold stpEvent
  try dsimp only
  with_reducible repeat' first | assumption | apply raise_kept | apply stpPut_kept | apply setStp_kept | (apply kept_mk; exact rfl; exact rfl; exact rfl; exact rfl; exact rfl; exact rfl; exact rfl; exact rfl; exact rfl; exact rfl; (first | assumption | apply raise_kept | apply stpPut_kept | apply setStp_kept | split)) | split | intro _

theorem stpGo_kept (n : Nat) (st : StpState) (s : State) (hs : Kept s0 s) : Kept s0 (stpGo n st s) := by
  unfold stpGo
  try dsimp only
  with_reducible repeat' first | assumption | apply stpPut_kept | apply setStp_kept | apply stpEvent_kept | (apply kept_mk; exact rfl; exact rfl; exact rfl; exact rfl; exact rfl; exact rfl; exact rfl; exact rfl; exact rfl; exact rfl; (first | assumption | apply stpPut_kept | apply setStp_kept | apply stpEvent_kept | split)) | split | intro _

theorem stpSuspect_kept (n : Nat) (s : State) (hs : Kept s0 s) : Kept s0 (stpSuspect n s) := by
  unfold stpSuspect
  try dsimp only
  with_reducible repeat' first | assumption | apply journal_kept | apply stpPut_kept | apply setStp_kept | apply stpEvent_kept | (apply kept_mk; exact rfl; exact rfl; exact rfl; exact rfl; exact rfl; exact rfl; exact rfl; exact rfl; exact rfl; exact rfl; (first | assumption | apply journal_kept | apply stpPut_kept | apply setStp_kept | apply stpEvent_kept | split)) | split | intro _

theorem stpPreempt_kept (n : Nat) (c : StpCmd) (s : State) (hs : Kept s0 s) : Kept s0 (stpPreempt n c s) := by
  unfold stpPreempt
  try dsimp only
  with_reducible repeat' first | assumption | apply journal_kept | apply stpEvent_kept | (apply kept_mk; exact rfl; exact rfl; exact rfl; exact rfl; exact rfl; exact rfl; exact rfl; exact rfl; exact rfl; exact rfl; (first | assumption | apply journal_kept | apply stpEvent_kept | split)) | split | intro _

theorem stpDropMoves_kept (n t : Nat) (s : State) (hs : Kept s0 s) : Kept s0 (stpDropMoves n t s) := by
  unfold stpDropMoves
  try dsimp only
  with_reducible repeat' first | assumption | apply stpPut_kept | apply setStp_kept | apply stpPreempt_kept | apply foldl_kept | (apply kept_mk; exact rfl; exact rfl; exact rfl; exact rfl; exact rfl; exact rfl; exact rfl; exact rfl; exact rfl; exact rfl; (first | assumption | apply stpPut_kept | apply setStp_kept | apply stpPreempt_kept | apply foldl_kept | split)) | split | intro _

theorem stpAbort_kept (n : Nat) (s : State) (hs : Kept s0 s) : Kept s0 (stpAbort n s) := by
  unfold stpAbort
  try dsimp only
  with_reducible repeat' first | assumption | apply stpPut_kept | apply setStp_kept | apply stpEvent_kept | (apply kept_mk; exact rfl; exact rfl; exact rfl; exact rfl; exact rfl; exact rfl; exact rfl; exact rfl; exact rfl; exact rfl; (first | assumption | apply stpPut_kept | apply setStp_kept | apply stpEvent_kept | split)) | split | intro _

theorem stpRamp_kept (n t : Nat) (s : State) (hs : Kept s0 s) : Kept s0 (stpRamp n t s) := by
  unfold stpRamp
  try dsimp only
  with_reducible repeat' first | assumption | apply stpPut_kept | apply setStp_kept | apply stpAbort_kept | apply stpDropMoves_kept | apply stpEvent_kept | (apply kept_mk; exact rfl; exact rfl; exact rfl; exact rfl; exact rfl; exact rfl; exact rfl; exact rfl; exact rfl; exact rfl; (first | assumption | apply stpPut_kept | apply setStp_kept | apply stpAbort_kept | apply stpDropMoves_kept | apply stpEvent_kept | split)) | split | intro _

theorem stpImmediate_kept (n : Nat) (off : Bool) (s : State) (hs : Kept s0 s) : Kept s0 (stpImmediate n off s) := by
  unfold stpImmediate
  try dsimp only
  with_reducible repeat' first | assumption | apply count_kept | apply stpPut_kept | apply setStp_kept | apply stpAbort_kept | apply stpDropMoves_kept | apply stpEvent_kept | apply stpGo_kept | apply stpSuspect_kept | (apply kept_mk; exact rfl; exact rfl; exact rfl; exact rfl; exact rfl; exact rfl; exact rfl; exact rfl; exact rfl; exact rfl; (first | assumption | apply count_kept | apply stpPut_kept | apply setStp_kept | apply stpAbort_kept | apply stpDropMoves_kept | apply stpEvent_kept | apply stpGo_kept | apply stpSuspect_kept | split)) | split | intro _

theorem stpGroupStop_kept (g cat t : Nat) (s : State) (hs : Kept s0 s) : Kept s0 (stpGroupStop g cat t s) := by
  unfold stpGroupStop
  try dsimp only
  with_reducible repeat' first | assumption | apply forNat_kept | apply stpImmediate_kept | apply stpRamp_kept | (apply kept_mk; exact rfl; exact rfl; exact rfl; exact rfl; exact rfl; exact rfl; exact rfl; exact rfl; exact rfl; exact rfl; (first | assumption | apply forNat_kept | apply stpImmediate_kept | apply stpRamp_kept | split)) | split | intro _

theorem stpHomeFail_kept (n reason t : Nat) (s : State) (hs : Kept s0 s) : Kept s0 (stpHomeFail n reason t s) := by
  unfold stpHomeFail
  try dsimp only
  with_reducible repeat' first | assumption | apply stpPut_kept | apply setStp_kept | apply stpEvent_kept | (apply kept_mk; exact rfl; exact rfl; exact rfl; exact rfl; exact rfl; exact rfl; exact rfl; exact rfl; exact rfl; exact rfl; (first | assumption | apply stpPut_kept | apply setStp_kept | apply stpEvent_kept | split)) | split | intro _

theorem stpHomeTick_kept (n t : Nat) (s : State) (hs : Kept s0 s) : Kept s0 (stpHomeTick n t s) := by
  unfold stpHomeTick
  try dsimp only
  with_reducible repeat' first | assumption | apply stpPut_kept | apply setStp_kept | apply stpEvent_kept | apply stpHomeFail_kept | (apply kept_mk; exact rfl; exact rfl; exact rfl; exact rfl; exact rfl; exact rfl; exact rfl; exact rfl; exact rfl; exact rfl; (first | assumption | apply stpPut_kept | apply setStp_kept | apply stpEvent_kept | apply stpHomeFail_kept | split)) | split | intro _

theorem stpCompute_kept (c1 c2 : Nat) (s : State) (hs : Kept s0 s) : Kept s0 (stpCompute c1 c2 s) := by
  unfold stpCompute
  try dsimp only
  with_reducible repeat' first | assumption | apply forNat_kept | apply stpPut_kept | apply setStp_kept | apply stpHomeTick_kept | (apply kept_mk; exact rfl; exact rfl; exact rfl; exact rfl; exact rfl; exact rfl; exact rfl; exact rfl; exact rfl; exact rfl; (first | assumption | apply forNat_kept | apply stpPut_kept | apply setStp_kept | apply stpHomeTick_kept | split)) | split | intro _

theorem stpRecords_kept (s : State) (hs : Kept s0 s) : Kept s0 (stpRecords s) := by
  unfold stpRecords
  try dsimp only
  with_reducible repeat' first | assumption | (apply kept_mk; exact rfl; exact rfl; exact rfl; exact rfl; exact rfl; exact rfl; exact rfl; exact rfl; exact rfl; exact rfl; (first | assumption | split)) | split | intro _

theorem stpSegment_kept (t len n : Nat) (s : State) (hs : Kept s0 s) : Kept s0 (stpSegment t len n s) := by
  unfold stpSegment
  try dsimp only
  with_reducible repeat' first | assumption | apply count_kept | apply countN_kept | apply emit_kept | apply stpPut_kept | apply setStp_kept | (apply kept_mk; exact rfl; exact rfl; exact rfl; exact rfl; exact rfl; exact rfl; exact rfl; exact rfl; exact rfl; exact rfl; (first | assumption | apply count_kept | apply countN_kept | apply emit_kept | apply stpPut_kept | apply setStp_kept | split)) | split | intro _

theorem stpCadence_kept (t len : Nat) (s : State) (hs : Kept s0 s) : Kept s0 (stpCadence t len s) := by
  unfold stpCadence
  try dsimp only
  with_reducible repeat' first | assumption | apply forNat_kept | apply stpPut_kept | apply setStp_kept | apply stpGo_kept | apply stpSegment_kept | (apply kept_mk; exact rfl; exact rfl; exact rfl; exact rfl; exact rfl; exact rfl; exact rfl; exact rfl; exact rfl; exact rfl; (first | assumption | apply forNat_kept | apply stpPut_kept | apply setStp_kept | apply stpGo_kept | apply stpSegment_kept | split)) | split | intro _

theorem stpHold_kept (n : Nat) (s : State) (hs : Kept s0 s) : Kept s0 (stpHold n s) := by
  unfold stpHold
  try dsimp only
  with_reducible repeat' first | assumption | apply advanceTo_kept | apply stpPut_kept | apply setStp_kept | (apply kept_mk; exact rfl; exact rfl; exact rfl; exact rfl; exact rfl; exact rfl; exact rfl; exact rfl; exact rfl; exact rfl; (first | assumption | apply advanceTo_kept | apply stpPut_kept | apply setStp_kept | split)) | split | intro _

theorem stpInput_kept (c t n : Nat) (s : State) (hs : Kept s0 s) : Kept s0 (stpInput c t n s) := by
  unfold stpInput
  try dsimp only
  with_reducible repeat' first | assumption | apply latch_kept | apply stpPut_kept | apply setStp_kept | apply stpHomeFail_kept | (apply kept_mk; exact rfl; exact rfl; exact rfl; exact rfl; exact rfl; exact rfl; exact rfl; exact rfl; exact rfl; exact rfl; (first | assumption | apply latch_kept | apply stpPut_kept | apply setStp_kept | apply stpHomeFail_kept | split)) | split | intro _

theorem stpLimitStop_kept (t n : Nat) (s : State) (hs : Kept s0 s) : Kept s0 (stpLimitStop t n s) := by
  unfold stpLimitStop
  try dsimp only
  with_reducible repeat' first | assumption | apply stpImmediate_kept | apply stpRamp_kept | (apply kept_mk; exact rfl; exact rfl; exact rfl; exact rfl; exact rfl; exact rfl; exact rfl; exact rfl; exact rfl; exact rfl; (first | assumption | apply stpImmediate_kept | apply stpRamp_kept | split)) | split | intro _

theorem stpConfigureSpec_kept  : SpecKept (stpConfigureSpec ) := by
  refine fun c s => ⟨fun st t ht => ?_, fun t ht => ?_⟩ <;> unfold stpConfigureSpec <;> (try dsimp only)
  all_goals with_reducible repeat' first | assumption | apply stpPut_kept | apply setStp_kept | apply stpGo_kept | (apply kept_mk; exact rfl; exact rfl; exact rfl; exact rfl; exact rfl; exact rfl; exact rfl; exact rfl; exact rfl; exact rfl; (first | assumption | apply stpPut_kept | apply setStp_kept | apply stpGo_kept | split)) | split | intro _

theorem stpSimple_kept (op : Nat) (ok : StpAxis → State → Bool) : SpecKept (stpSimple op ok) := by
  refine fun c s => ⟨fun st t ht => ?_, fun t ht => ?_⟩ <;> unfold stpSimple <;> (try dsimp only)
  all_goals with_reducible repeat' first | assumption | apply later_kept | apply later_kept | (apply kept_mk; exact rfl; exact rfl; exact rfl; exact rfl; exact rfl; exact rfl; exact rfl; exact rfl; exact rfl; exact rfl; (first | assumption | apply later_kept | apply later_kept | split)) | split | intro _

theorem stpEnableSpec_kept : SpecKept stpEnableSpec := stpSimple_kept _ _

theorem stpDisableSpec_kept : SpecKept stpDisableSpec := stpSimple_kept _ _

theorem stpClearSpec_kept : SpecKept stpClearSpec := stpSimple_kept _ _

theorem stpMoveSpec_kept  : SpecKept (stpMoveSpec ) := by
  refine fun c s => ⟨fun st t ht => ?_, fun t ht => ?_⟩ <;> unfold stpMoveSpec <;> (try dsimp only)
  all_goals with_reducible repeat' first | assumption | apply stpPut_kept | apply setStp_kept | (apply kept_mk; exact rfl; exact rfl; exact rfl; exact rfl; exact rfl; exact rfl; exact rfl; exact rfl; exact rfl; exact rfl; (first | assumption | apply stpPut_kept | apply setStp_kept | split)) | split | intro _

theorem stpStopSpec_kept  : SpecKept (stpStopSpec ) := by
  refine fun c s => ⟨fun st t ht => ?_, fun t ht => ?_⟩ <;> unfold stpStopSpec <;> (try dsimp only)
  all_goals with_reducible repeat' first | assumption | apply later_kept | apply stpRamp_kept | apply later_kept | (apply kept_mk; exact rfl; exact rfl; exact rfl; exact rfl; exact rfl; exact rfl; exact rfl; exact rfl; exact rfl; exact rfl; (first | assumption | apply later_kept | apply stpRamp_kept | apply later_kept | split)) | split | intro _

theorem stpHomeSpec_kept  : SpecKept (stpHomeSpec ) := by
  refine fun c s => ⟨fun st t ht => ?_, fun t ht => ?_⟩ <;> unfold stpHomeSpec <;> (try dsimp only)
  all_goals with_reducible repeat' first | assumption | apply later_kept | apply later_kept | (apply kept_mk; exact rfl; exact rfl; exact rfl; exact rfl; exact rfl; exact rfl; exact rfl; exact rfl; exact rfl; exact rfl; (first | assumption | apply later_kept | apply later_kept | split)) | split | intro _

theorem stpEff_kept (t : Nat) (e : Eff) (s : State) (hs : Kept s0 s) : Kept s0 (stpEff t e s) := by
  unfold stpEff
  extract_lets
  split
  · split
    · exact stpGo_kept _ _ _ (stpPut_kept _ _ _ hs)
    · exact hs
  split
  · split
    · exact stpGo_kept _ _ _ (stpPut_kept _ _ _ hs)
    · exact hs
  split
  · split
    · exact stpImmediate_kept _ _ _ hs
    · exact hs
  split
  · split
    · exact hs
    · split
      · exact stpEvent_kept _ _ _ (setStp_kept _ _ _ hs)
      · exact stpGo_kept _ _ _ (setStp_kept _ _ _ hs)
  split
  · split
    · exact stpGo_kept _ _ _ (stpPut_kept _ _ _ hs)
    · exact hs
  split
  · exact setStp_kept _ _ _ hs
  · exact hs

theorem stpSetLimitsSpec_kept  : SpecKept (stpSetLimitsSpec ) := by
  refine fun c s => ⟨fun st t ht => ?_, fun t ht => ?_⟩ <;> unfold stpSetLimitsSpec <;> (try dsimp only)
  all_goals with_reducible repeat' first | assumption | apply post_kept | (apply kept_mk; exact rfl; exact rfl; exact rfl; exact rfl; exact rfl; exact rfl; exact rfl; exact rfl; exact rfl; exact rfl; (first | assumption | apply post_kept | split)) | split | intro _

theorem stpStatusSpec_kept  : SpecKept (stpStatusSpec ) := by
  refine fun c s => ⟨fun st t ht => ?_, fun t ht => ?_⟩ <;> unfold stpStatusSpec <;> (try dsimp only)
  all_goals with_reducible repeat' first | assumption | apply stpPut_kept | apply setStp_kept | (apply kept_mk; exact rfl; exact rfl; exact rfl; exact rfl; exact rfl; exact rfl; exact rfl; exact rfl; exact rfl; exact rfl; (first | assumption | apply stpPut_kept | apply setStp_kept | split)) | split | intro _

theorem grpEvent_kept (g code : Nat) (s : State) (hs : Kept s0 s) : Kept s0 (grpEvent g code s) := by
  unfold grpEvent
  try dsimp only
  with_reducible repeat' first | assumption | apply modGrp_kept | apply raise_kept | (apply kept_mk; exact rfl; exact rfl; exact rfl; exact rfl; exact rfl; exact rfl; exact rfl; exact rfl; exact rfl; exact rfl; (first | assumption | apply modGrp_kept | apply raise_kept | split)) | split | intro _

theorem grpTo_kept (g : Nat) (st : GrpState) (s : State) (hs : Kept s0 s) : Kept s0 (grpTo g st s) := by
  unfold grpTo
  try dsimp only
  with_reducible repeat' first | assumption | apply grpEvent_kept | apply setGrp_kept | (apply kept_mk; exact rfl; exact rfl; exact rfl; exact rfl; exact rfl; exact rfl; exact rfl; exact rfl; exact rfl; exact rfl; (first | assumption | apply grpEvent_kept | apply setGrp_kept | split)) | split | intro _

theorem preempted_kept (g tag promise : Nat) (s : State) (hs : Kept s0 s) : Kept s0 (preempted g tag promise s) := by
  unfold preempted
  try dsimp only
  with_reducible repeat' first | assumption | apply grpEvent_kept | apply journal_kept | (apply kept_mk; exact rfl; exact rfl; exact rfl; exact rfl; exact rfl; exact rfl; exact rfl; exact rfl; exact rfl; exact rfl; (first | assumption | apply grpEvent_kept | apply journal_kept | split)) | split | intro _

theorem dropTargets_kept (g : Nat) (s : State) (hs : Kept s0 s) : Kept s0 (dropTargets g s) := by
  unfold dropTargets
  try dsimp only
  with_reducible repeat' first | assumption | apply modGrp_kept | (apply kept_mk; exact rfl; exact rfl; exact rfl; exact rfl; exact rfl; exact rfl; exact rfl; exact rfl; exact rfl; exact rfl; (first | assumption | apply modGrp_kept | split)) | split | intro _

theorem preemptAll_kept (g : Nat) (l : List MpcTarget) (s : State) (hs : Kept s0 s) : Kept s0 (preemptAll g l s) := by
  unfold preemptAll
  try dsimp only
  with_reducible repeat' first | assumption | apply preempted_kept | apply foldl_kept | (apply kept_mk; exact rfl; exact rfl; exact rfl; exact rfl; exact rfl; exact rfl; exact rfl; exact rfl; exact rfl; exact rfl; (first | assumption | apply preempted_kept | apply foldl_kept | split)) | split | intro _

theorem underrunMarks_kept (k : Nat) (s : State) (hs : Kept s0 s) : Kept s0 (underrunMarks k s) := by
  unfold underrunMarks
  try dsimp only
  with_reducible repeat' first | assumption | apply journal_kept | apply raise_kept | (apply kept_mk; exact rfl; exact rfl; exact rfl; exact rfl; exact rfl; exact rfl; exact rfl; exact rfl; exact rfl; exact rfl; (first | assumption | apply journal_kept | apply raise_kept | split)) | split | intro _

theorem strmTaken_kept (g : Nat) (s : State) (hs : Kept s0 s) : Kept s0 (strmTaken g s) := by
  unfold strmTaken
  try dsimp only
  with_reducible repeat' first | assumption | apply modGrp_kept | apply underrunMarks_kept | (apply kept_mk; exact rfl; exact rfl; exact rfl; exact rfl; exact rfl; exact rfl; exact rfl; exact rfl; exact rfl; exact rfl; (first | assumption | apply modGrp_kept | apply underrunMarks_kept | split)) | split | intro _

theorem resetMotion_kept (g : Nat) (s : State) (hs : Kept s0 s) : Kept s0 (resetMotion g s) := by
  unfold resetMotion
  try dsimp only
  with_reducible repeat' first | assumption | apply homePhase_kept | apply modGrp_kept | (apply kept_mk; exact rfl; exact rfl; exact rfl; exact rfl; exact rfl; exact rfl; exact rfl; exact rfl; exact rfl; exact rfl; (first | assumption | apply homePhase_kept | apply modGrp_kept | split)) | split | intro _

theorem idleStop_kept (g cat : Nat) (ax : Bool) (s : State) (hs : Kept s0 s) : Kept s0 (idleStop g cat ax s) := by
  unfold idleStop
  try dsimp only
  with_reducible repeat' first | assumption | apply forNat_kept | apply stoGroup_kept | apply stopAxis_kept | apply stpGroupStop_kept | (apply kept_mk; exact rfl; exact rfl; exact rfl; exact rfl; exact rfl; exact rfl; exact rfl; exact rfl; exact rfl; exact rfl; (first | assumption | apply forNat_kept | apply stoGroup_kept | apply stopAxis_kept | apply stpGroupStop_kept | split)) | split | intro _

theorem stopMembers_kept (g cat : Nat) (s : State) (hs : Kept s0 s) : Kept s0 (stopMembers g cat s) := by
  unfold stopMembers
  try dsimp only
  with_reducible repeat' first | assumption | apply idleStop_kept | apply modGrp_kept | (apply kept_mk; exact rfl; exact rfl; exact rfl; exact rfl; exact rfl; exact rfl; exact rfl; exact rfl; exact rfl; exact rfl; (first | assumption | apply idleStop_kept | apply modGrp_kept | split)) | split | intro _

theorem freeOpen_kept (g : Nat) (s : State) (hs : Kept s0 s) : Kept s0 (freeOpen g s) := by
  unfold freeOpen
  try dsimp only
  with_reducible repeat' first | assumption | apply forNat_kept | apply freeLoop_kept | (apply kept_mk; exact rfl; exact rfl; exact rfl; exact rfl; exact rfl; exact rfl; exact rfl; exact rfl; exact rfl; exact rfl; (first | assumption | apply forNat_kept | apply freeLoop_kept | split)) | split | intro _

theorem beginStop_kept (g cat : Nat) (outcome : GrpState) (s : State) (hs : Kept s0 s) : Kept s0 (beginStop g cat outcome s) := by
  unfold beginStop
  try dsimp only
  with_reducible repeat' first | assumption | apply dropTargets_kept | apply freeOpen_kept | apply grpTo_kept | apply modGrp_kept | apply preemptAll_kept | apply stopMembers_kept | apply strmTaken_kept | (apply kept_mk; exact rfl; exact rfl; exact rfl; exact rfl; exact rfl; exact rfl; exact rfl; exact rfl; exact rfl; exact rfl; (first | assumption | apply dropTargets_kept | apply freeOpen_kept | apply grpTo_kept | apply modGrp_kept | apply preemptAll_kept | apply stopMembers_kept | apply strmTaken_kept | split)) | split | intro _

theorem pathStop_kept (g : Nat) (outcome : GrpState) (s : State) (hs : Kept s0 s) : Kept s0 (pathStop g outcome s) := by
  unfold pathStop
  try dsimp only
  with_reducible repeat' first | assumption | apply grpTo_kept | apply modGrp_kept | (apply kept_mk; exact rfl; exact rfl; exact rfl; exact rfl; exact rfl; exact rfl; exact rfl; exact rfl; exact rfl; exact rfl; (first | assumption | apply grpTo_kept | apply modGrp_kept | split)) | split | intro _

theorem faultGroup_kept (g : Nat) (s : State) (hs : Kept s0 s) : Kept s0 (faultGroup g s) := by
  unfold faultGroup
  try dsimp only
  with_reducible repeat' first | assumption | apply dropTargets_kept | apply faultAxis_kept | apply forNat_kept | apply freeOpen_kept | apply grpTo_kept | apply journal_kept | apply modAxis_kept | apply modGrp_kept | apply preemptAll_kept | apply reqFault_kept | apply stoGroup_kept | apply stopAxis_kept | apply stopMembers_kept | apply stpGroupStop_kept | apply strmTaken_kept | (apply kept_mk; exact rfl; exact rfl; exact rfl; exact rfl; exact rfl; exact rfl; exact rfl; exact rfl; exact rfl; exact rfl; (first | assumption | apply dropTargets_kept | apply faultAxis_kept | apply forNat_kept | apply freeOpen_kept | apply grpTo_kept | apply journal_kept | apply modAxis_kept | apply modGrp_kept | apply preemptAll_kept | apply reqFault_kept | apply stoGroup_kept | apply stopAxis_kept | apply stopMembers_kept | apply stpGroupStop_kept | apply strmTaken_kept | split)) | split | intro _

theorem homeFail_kept (g a reason : Nat) (s : State) (hs : Kept s0 s) : Kept s0 (homeFail g a reason s) := by
  unfold homeFail
  try dsimp only
  with_reducible repeat' first | assumption | apply beginStop_kept | apply grpEvent_kept | apply journal_kept | apply modGrp_kept | (apply kept_mk; exact rfl; exact rfl; exact rfl; exact rfl; exact rfl; exact rfl; exact rfl; exact rfl; exact rfl; exact rfl; (first | assumption | apply beginStop_kept | apply grpEvent_kept | apply journal_kept | apply modGrp_kept | split)) | split | intro _

theorem homeAbort_kept (g cat : Nat) (out : GrpState) (s : State) (hs : Kept s0 s) : Kept s0 (homeAbort g cat out s) := by
  unfold homeAbort
  try dsimp only
  with_reducible repeat' first | assumption | apply beginStop_kept | apply grpEvent_kept | apply journal_kept | apply modGrp_kept | (apply kept_mk; exact rfl; exact rfl; exact rfl; exact rfl; exact rfl; exact rfl; exact rfl; exact rfl; exact rfl; exact rfl; (first | assumption | apply beginStop_kept | apply grpEvent_kept | apply journal_kept | apply modGrp_kept | split)) | split | intro _

theorem stopGroup_kept (cat g : Nat) (s : State) (hs : Kept s0 s) : Kept s0 (stopGroup cat g s) := by
  unfold stopGroup
  try dsimp only
  with_reducible repeat' first | assumption | apply beginStop_kept | apply dropTargets_kept | apply homeAbort_kept | apply idleStop_kept | apply modGrp_kept | apply preemptAll_kept | apply stopMembers_kept | apply strmTaken_kept | (apply kept_mk; exact rfl; exact rfl; exact rfl; exact rfl; exact rfl; exact rfl; exact rfl; exact rfl; exact rfl; exact rfl; (first | assumption | apply beginStop_kept | apply dropTargets_kept | apply homeAbort_kept | apply idleStop_kept | apply modGrp_kept | apply preemptAll_kept | apply stopMembers_kept | apply strmTaken_kept | split)) | split | intro _

theorem releaseFaulted_kept (g : Nat) (s : State) (hs : Kept s0 s) : Kept s0 (releaseFaulted g s) := by
  unfold releaseFaulted
  try dsimp only
  with_reducible repeat' first | assumption | apply forNat_kept | apply modAxis_kept | (apply kept_mk; exact rfl; exact rfl; exact rfl; exact rfl; exact rfl; exact rfl; exact rfl; exact rfl; exact rfl; exact rfl; (first | assumption | apply forNat_kept | apply modAxis_kept | split)) | split | intro _

theorem freeQp_kept (g : Nat) (s : State) (hs : Kept s0 s) : Kept s0 (freeQp g s) := by
  unfold freeQp
  try dsimp only
  with_reducible repeat' first | assumption | apply freeShares_kept | (apply kept_mk; exact rfl; exact rfl; exact rfl; exact rfl; exact rfl; exact rfl; exact rfl; exact rfl; exact rfl; exact rfl; (first | assumption | apply freeShares_kept | split)) | split | intro _

theorem toIdle_kept (g : Nat) (s : State) (hs : Kept s0 s) : Kept s0 (toIdle g s) := by
  unfold toIdle
  try dsimp only
  with_reducible repeat' first | assumption | apply freeOpen_kept | apply freeQp_kept | apply grpTo_kept | apply resetMotion_kept | (apply kept_mk; exact rfl; exact rfl; exact rfl; exact rfl; exact rfl; exact rfl; exact rfl; exact rfl; exact rfl; exact rfl; (first | assumption | apply freeOpen_kept | apply freeQp_kept | apply grpTo_kept | apply resetMotion_kept | split)) | split | intro _

theorem grpSettle_kept (g : Nat) (s : State) (hs : Kept s0 s) : Kept s0 (grpSettle g s) := by
  unfold grpSettle
  try dsimp only
  with_reducible repeat' first | assumption | apply grpTo_kept | apply modGrp_kept | apply resetMotion_kept | (apply kept_mk; exact rfl; exact rfl; exact rfl; exact rfl; exact rfl; exact rfl; exact rfl; exact rfl; exact rfl; exact rfl; (first | assumption | apply grpTo_kept | apply modGrp_kept | apply resetMotion_kept | split)) | split | intro _

theorem groupConditions_kept (g : Nat) (s : State) (hs : Kept s0 s) : Kept s0 (groupConditions g s) := by
  unfold groupConditions
  try dsimp only
  with_reducible repeat' first | assumption | apply forNat_kept | apply grpSettle_kept | apply grpTo_kept | apply homeFail_kept | apply modGrp_kept | apply releaseFaulted_kept | apply resetMotion_kept | apply toClosed_kept | apply toIdle_kept | (apply kept_mk; exact rfl; exact rfl; exact rfl; exact rfl; exact rfl; exact rfl; exact rfl; exact rfl; exact rfl; exact rfl; (first | assumption | apply forNat_kept | apply grpSettle_kept | apply grpTo_kept | apply homeFail_kept | apply modGrp_kept | apply releaseFaulted_kept | apply resetMotion_kept | apply toClosed_kept | apply toIdle_kept | split)) | split | intro _

theorem driveMembers_kept (g : Nat) (lam rate : Fx) (k : Knot) (s : State) (hs : Kept s0 s) : Kept s0 (driveMembers g lam rate k s) := by
  unfold driveMembers
  try dsimp only
  with_reducible repeat' first | assumption | apply forNat_kept | apply setAxis_kept | apply foldl_kept | (apply kept_mk; exact rfl; exact rfl; exact rfl; exact rfl; exact rfl; exact rfl; exact rfl; exact rfl; exact rfl; exact rfl; (first | assumption | apply forNat_kept | apply setAxis_kept | apply foldl_kept | split)) | split | intro _

theorem feedMembers_kept (g : Nat) (s : State) (hs : Kept s0 s) : Kept s0 (feedMembers g s) := by
  unfold feedMembers
  try dsimp only
  with_reducible repeat' first | assumption | apply forNat_kept | apply modAxis_kept | apply foldl_kept | (apply kept_mk; exact rfl; exact rfl; exact rfl; exact rfl; exact rfl; exact rfl; exact rfl; exact rfl; exact rfl; exact rfl; (first | assumption | apply forNat_kept | apply modAxis_kept | apply foldl_kept | split)) | split | intro _

theorem lamCadence_kept (g : Nat) (s : State) (hs : Kept s0 s) : Kept s0 (lamCadence g s) := by
  unfold lamCadence
  try dsimp only
  with_reducible repeat' first | assumption | apply modGrp_kept | (apply kept_mk; exact rfl; exact rfl; exact rfl; exact rfl; exact rfl; exact rfl; exact rfl; exact rfl; exact rfl; exact rfl; (first | assumption | apply modGrp_kept | split)) | split | intro _

theorem interpolate_kept (g : Nat) (s : State) (hs : Kept s0 s) : Kept s0 (interpolate g s) := by
  unfold interpolate
  try dsimp only
  with_reducible repeat' first | assumption | apply driveMembers_kept | apply modGrp_kept | (apply kept_mk; exact rfl; exact rfl; exact rfl; exact rfl; exact rfl; exact rfl; exact rfl; exact rfl; exact rfl; exact rfl; (first | assumption | apply driveMembers_kept | apply modGrp_kept | split)) | split | intro _

theorem startMoves_kept (g : Nat) (t : Fx) (s : State) (hs : Kept s0 s) : Kept s0 (startMoves g t s) := by
  unfold startMoves
  try dsimp only
  with_reducible repeat' first | assumption | apply modGrp_kept | (apply kept_mk; exact rfl; exact rfl; exact rfl; exact rfl; exact rfl; exact rfl; exact rfl; exact rfl; exact rfl; exact rfl; (first | assumption | apply modGrp_kept | split)) | split | intro _

theorem homeTo_kept (a : Nat) (target v : Fx) (s : State) (hs : Kept s0 s) : Kept s0 (homeTo a target v s) := by
  unfold homeTo
  try dsimp only
  with_reducible repeat' first | assumption | apply modAxis_kept | (apply kept_mk; exact rfl; exact rfl; exact rfl; exact rfl; exact rfl; exact rfl; exact rfl; exact rfl; exact rfl; exact rfl; (first | assumption | apply modAxis_kept | split)) | split | intro _

theorem homeGo_kept (a : Nat) (st : HomeStep) (s : State) (hs : Kept s0 s) : Kept s0 (homeGo a st s) := by
  unfold homeGo
  try dsimp only
  with_reducible repeat' first | assumption | apply modAxis_kept | (apply kept_mk; exact rfl; exact rfl; exact rfl; exact rfl; exact rfl; exact rfl; exact rfl; exact rfl; exact rfl; exact rfl; (first | assumption | apply modAxis_kept | split)) | split | intro _

theorem homeSearch_kept (a : Nat) (st : HomeStep) (sign : Int) (v : Fx) (s : State) (hs : Kept s0 s) : Kept s0 (homeSearch a st sign v s) := by
  unfold homeSearch
  try dsimp only
  with_reducible repeat' first | assumption | apply homeGo_kept | apply homeTo_kept | apply modAxis_kept | (apply kept_mk; exact rfl; exact rfl; exact rfl; exact rfl; exact rfl; exact rfl; exact rfl; exact rfl; exact rfl; exact rfl; (first | assumption | apply homeGo_kept | apply homeTo_kept | apply modAxis_kept | split)) | split | intro _

theorem homeRest_kept (a : Nat) (st : HomeStep) (s : State) (hs : Kept s0 s) : Kept s0 (homeRest a st s) := by
  unfold homeRest
  try dsimp only
  with_reducible repeat' first | assumption | apply genStop_kept | apply homeGo_kept | (apply kept_mk; exact rfl; exact rfl; exact rfl; exact rfl; exact rfl; exact rfl; exact rfl; exact rfl; exact rfl; exact rfl; (first | assumption | apply genStop_kept | apply homeGo_kept | split)) | split | intro _

theorem shiftHome_kept (a : Nat) (d : Int) (s : State) (hs : Kept s0 s) : Kept s0 (shiftHome a d s) := by
  unfold shiftHome
  try dsimp only
  with_reducible repeat' first | assumption | apply modAxis_kept | (apply kept_mk; exact rfl; exact rfl; exact rfl; exact rfl; exact rfl; exact rfl; exact rfl; exact rfl; exact rfl; exact rfl; (first | assumption | apply modAxis_kept | split)) | split | intro _

theorem latchPoint_kept (g a : Nat) (point slavePoint : Int) (s : State) (hs : Kept s0 s) : Kept s0 (latchPoint g a point slavePoint s) := by
  unfold latchPoint
  try dsimp only
  with_reducible repeat' first | assumption | apply modAxis_kept | apply shiftHome_kept | (apply kept_mk; exact rfl; exact rfl; exact rfl; exact rfl; exact rfl; exact rfl; exact rfl; exact rfl; exact rfl; exact rfl; (first | assumption | apply modAxis_kept | apply shiftHome_kept | split)) | split | intro _

theorem latchAt_kept (g a t : Nat) (pt : Option Int) (s : State) (hs : Kept s0 s) : Kept s0 (latchAt g a t pt s) := by
  unfold latchAt
  try dsimp only
  with_reducible repeat' first | assumption | apply latchPoint_kept | apply modAxis_kept | (apply kept_mk; exact rfl; exact rfl; exact rfl; exact rfl; exact rfl; exact rfl; exact rfl; exact rfl; exact rfl; exact rfl; (first | assumption | apply latchPoint_kept | apply modAxis_kept | split)) | split | intro _

theorem latchRetry_kept (g a : Nat) (s : State) (hs : Kept s0 s) : Kept s0 (latchRetry g a s) := by
  unfold latchRetry
  try dsimp only
  with_reducible repeat' first | assumption | apply latchAt_kept | (apply kept_mk; exact rfl; exact rfl; exact rfl; exact rfl; exact rfl; exact rfl; exact rfl; exact rfl; exact rfl; exact rfl; (first | assumption | apply latchAt_kept | split)) | split | intro _

theorem homeBegin_kept (g a : Nat) (s : State) (hs : Kept s0 s) : Kept s0 (homeBegin g a s) := by
  unfold homeBegin
  try dsimp only
  with_reducible repeat' first | assumption | apply homeFail_kept | apply homeGo_kept | apply homeSearch_kept | apply modAxis_kept | apply shiftHome_kept | (apply kept_mk; exact rfl; exact rfl; exact rfl; exact rfl; exact rfl; exact rfl; exact rfl; exact rfl; exact rfl; exact rfl; (first | assumption | apply homeFail_kept | apply homeGo_kept | apply homeSearch_kept | apply modAxis_kept | apply shiftHome_kept | split)) | split | intro _

theorem homeDone_kept (g a : Nat) (s : State) (hs : Kept s0 s) : Kept s0 (homeDone g a s) := by
  unfold homeDone
  try dsimp only
  with_reducible repeat' first | assumption | apply modAxis_kept | (apply kept_mk; exact rfl; exact rfl; exact rfl; exact rfl; exact rfl; exact rfl; exact rfl; exact rfl; exact rfl; exact rfl; (first | assumption | apply modAxis_kept | split)) | split | intro _

theorem homeAxisTick_kept (g a : Nat) (s : State) (hs : Kept s0 s) : Kept s0 (homeAxisTick g a s) := by
  unfold homeAxisTick
  try dsimp only
  with_reducible repeat' first | assumption | apply homeDone_kept | apply homeGo_kept | apply homeSearch_kept | apply homeTo_kept | (apply kept_mk; exact rfl; exact rfl; exact rfl; exact rfl; exact rfl; exact rfl; exact rfl; exact rfl; exact rfl; exact rfl; (first | assumption | apply homeDone_kept | apply homeGo_kept | apply homeSearch_kept | apply homeTo_kept | split)) | split | intro _

theorem homePhase_kept (g n fuel : Nat) (s : State) (hs : Kept s0 s) : Kept s0 (homePhase g n fuel s) := by
  induction fuel generalizing n s with
  | zero => exact hs
  | succ fuel ih =>
    unfold homePhase
    split
    · split
      · exact grpTo_kept _ _ _ (resetMotion_kept _ _ (modGrp_kept _ _ _ hs))
      · exact hs
    · extract_lets ms s1 s2
      have h1 : Kept s0 s1 := by
        refine forNat_kept _ _ _ (fun a t ht => ?_) (modGrp_kept _ _ _ hs)
        split
        · exact homeBegin_kept _ _ _ ht
        · exact ht
      clear_value s1
      have h2 : Kept s0 s2 := by
        refine forNat_kept _ _ _ (fun a t ht => ?_) h1
        split
        · exact homeDone_kept _ _ _ ht
        · exact ht
      clear_value s2
      split
      · exact ih _ _ h2
      · exact h2

theorem homeCadence_kept (g : Nat) (s : State) (hs : Kept s0 s) : Kept s0 (homeCadence g s) := by
  unfold homeCadence
  try dsimp only
  with_reducible repeat' first | assumption | apply forNat_kept | apply homeAxisTick_kept | apply homePhase_kept | (apply kept_mk; exact rfl; exact rfl; exact rfl; exact rfl; exact rfl; exact rfl; exact rfl; exact rfl; exact rfl; exact rfl; (first | assumption | apply forNat_kept | apply homeAxisTick_kept | apply homePhase_kept | split)) | split | intro _

theorem beginHome_kept (g : Nat) (s : State) (hs : Kept s0 s) : Kept s0 (beginHome g s) := by
  unfold beginHome
  try dsimp only
  with_reducible repeat' first | assumption | apply forNat_kept | apply grpTo_kept | apply homePhase_kept | apply modAxis_kept | apply modGrp_kept | (apply kept_mk; exact rfl; exact rfl; exact rfl; exact rfl; exact rfl; exact rfl; exact rfl; exact rfl; exact rfl; exact rfl; (first | assumption | apply forNat_kept | apply grpTo_kept | apply homePhase_kept | apply modAxis_kept | apply modGrp_kept | split)) | split | intro _

theorem slavesFollow_kept (g : Nat) (s : State) (hs : Kept s0 s) : Kept s0 (slavesFollow g s) := by
  unfold slavesFollow
  try dsimp only
  with_reducible repeat' first | assumption | apply forNat_kept | apply modAxis_kept | (apply kept_mk; exact rfl; exact rfl; exact rfl; exact rfl; exact rfl; exact rfl; exact rfl; exact rfl; exact rfl; exact rfl; (first | assumption | apply forNat_kept | apply modAxis_kept | split)) | split | intro _

theorem homeFailLater_kept (g a reason : Nat) (s : State) (hs : Kept s0 s) : Kept s0 (homeFailLater g a reason s) := by
  unfold homeFailLater
  try dsimp only
  with_reducible repeat' first | assumption | apply modGrp_kept | (apply kept_mk; exact rfl; exact rfl; exact rfl; exact rfl; exact rfl; exact rfl; exact rfl; exact rfl; exact rfl; exact rfl; (first | assumption | apply modGrp_kept | split)) | split | intro _

theorem homeRecord_kept (a : Nat) (s : State) (hs : Kept s0 s) : Kept s0 (homeRecord a s) := by
  unfold homeRecord
  try dsimp only
  with_reducible repeat' first | assumption | apply forNat_kept | apply homeRest_kept | apply latchAt_kept | apply latchRetry_kept | apply modAxis_kept | (apply kept_mk; exact rfl; exact rfl; exact rfl; exact rfl; exact rfl; exact rfl; exact rfl; exact rfl; exact rfl; exact rfl; (first | assumption | apply forNat_kept | apply homeRest_kept | apply latchAt_kept | apply latchRetry_kept | apply modAxis_kept | split)) | split | intro _

theorem homeInput_kept (g a c : Nat) (s : State) (hs : Kept s0 s) : Kept s0 (homeInput g a c s) := by
  unfold homeInput
  try dsimp only
  with_reducible repeat' first | assumption | apply homeFailLater_kept | apply homeRest_kept | apply latchAt_kept | apply modAxis_kept | (apply kept_mk; exact rfl; exact rfl; exact rfl; exact rfl; exact rfl; exact rfl; exact rfl; exact rfl; exact rfl; exact rfl; (first | assumption | apply homeFailLater_kept | apply homeRest_kept | apply latchAt_kept | apply modAxis_kept | split)) | split | intro _

theorem limitStop_kept (a : Nat) (s : State) (hs : Kept s0 s) : Kept s0 (limitStop a s) := by
  unfold limitStop
  try dsimp only
  with_reducible repeat' first | assumption | apply reqStopAxis_kept | apply reqStopGrp_kept | (apply kept_mk; exact rfl; exact rfl; exact rfl; exact rfl; exact rfl; exact rfl; exact rfl; exact rfl; exact rfl; exact rfl; (first | assumption | apply reqStopAxis_kept | apply reqStopGrp_kept | split)) | split | intro _

theorem axisQualify_kept (c a : Nat) (s : State) (hs : Kept s0 s) : Kept s0 (axisQualify c a s) := by
  unfold axisQualify
  try dsimp only
  with_reducible repeat' first | assumption | apply homeInput_kept | apply limitStop_kept | apply modAxis_kept | (apply kept_mk; exact rfl; exact rfl; exact rfl; exact rfl; exact rfl; exact rfl; exact rfl; exact rfl; exact rfl; exact rfl; (first | assumption | apply homeInput_kept | apply limitStop_kept | apply modAxis_kept | split)) | split | intro _

theorem stpQualify_kept (c n : Nat) (s : State) (hs : Kept s0 s) : Kept s0 (stpQualify c n s) := by
  unfold stpQualify
  try dsimp only
  with_reducible repeat' first | assumption | apply stpPut_kept | apply setStp_kept | apply stpInput_kept | (apply kept_mk; exact rfl; exact rfl; exact rfl; exact rfl; exact rfl; exact rfl; exact rfl; exact rfl; exact rfl; exact rfl; (first | assumption | apply stpPut_kept | apply setStp_kept | apply stpInput_kept | split)) | split | intro _

theorem inputQualified_kept (c : Nat) (s : State) (hs : Kept s0 s) : Kept s0 (inputQualified c s) := by
  unfold inputQualified
  try dsimp only
  with_reducible repeat' first | assumption | apply advanceTo_kept | apply axisQualify_kept | apply forNat_kept | apply stpQualify_kept | apply foldl_kept | (apply kept_mk; exact rfl; exact rfl; exact rfl; exact rfl; exact rfl; exact rfl; exact rfl; exact rfl; exact rfl; exact rfl; (first | assumption | apply advanceTo_kept | apply axisQualify_kept | apply forNat_kept | apply stpQualify_kept | apply foldl_kept | split)) | split | intro _

theorem chatter_kept (c : Nat) (s : State) (hs : Kept s0 s) : Kept s0 (chatter c s) := by
  unfold chatter
  try dsimp only
  with_reducible repeat' first | assumption | apply forNat_kept | apply homeFailLater_kept | apply stpHomeFail_kept | (apply kept_mk; exact rfl; exact rfl; exact rfl; exact rfl; exact rfl; exact rfl; exact rfl; exact rfl; exact rfl; exact rfl; (first | assumption | apply forNat_kept | apply homeFailLater_kept | apply stpHomeFail_kept | split)) | split | intro _

theorem notFound_kept (a : Nat) (s : State) (hs : Kept s0 s) : Kept s0 (notFound a s) := by
  unfold notFound
  try dsimp only
  with_reducible repeat' first | assumption | apply homeFailLater_kept | (apply kept_mk; exact rfl; exact rfl; exact rfl; exact rfl; exact rfl; exact rfl; exact rfl; exact rfl; exact rfl; exact rfl; (first | assumption | apply homeFailLater_kept | split)) | split | intro _

theorem hardStopLatch_kept (a : Nat) (s : State) (hs : Kept s0 s) : Kept s0 (hardStopLatch a s) := by
  unfold hardStopLatch
  try dsimp only
  with_reducible repeat' first | assumption | apply homeGo_kept | apply homeTo_kept | apply latchPoint_kept | (apply kept_mk; exact rfl; exact rfl; exact rfl; exact rfl; exact rfl; exact rfl; exact rfl; exact rfl; exact rfl; exact rfl; (first | assumption | apply homeGo_kept | apply homeTo_kept | apply latchPoint_kept | split)) | split | intro _

theorem setSsm_kept (g : Nat) (x : SsmGrp) (s : State) (hs : Kept s0 s) : Kept s0 (setSsm g x s) := by
  unfold setSsm
  try dsimp only
  with_reducible repeat' first | assumption | (apply kept_mk; exact rfl; exact rfl; exact rfl; exact rfl; exact rfl; exact rfl; exact rfl; exact rfl; exact rfl; exact rfl; (first | assumption | split)) | split | intro _

theorem modSsm_kept (g : Nat) (f : SsmGrp → SsmGrp) (s : State) (hs : Kept s0 s) : Kept s0 (modSsm g f s) := by
  unfold modSsm
  try dsimp only
  with_reducible repeat' first | assumption | apply setSsm_kept | (apply kept_mk; exact rfl; exact rfl; exact rfl; exact rfl; exact rfl; exact rfl; exact rfl; exact rfl; exact rfl; exact rfl; (first | assumption | apply setSsm_kept | split)) | split | intro _

theorem setSens_kept (n : Nat) (x : Sensor) (s : State) (hs : Kept s0 s) : Kept s0 (setSens n x s) := by
  unfold setSens
  try dsimp only
  with_reducible repeat' first | assumption | (apply kept_mk; exact rfl; exact rfl; exact rfl; exact rfl; exact rfl; exact rfl; exact rfl; exact rfl; exact rfl; exact rfl; (first | assumption | split)) | split | intro _

theorem guardGroup_kept (g : Nat) (s : State) (hs : Kept s0 s) : Kept s0 (guardGroup g s) := by
  unfold guardGroup
  try dsimp only
  with_reducible repeat' first | assumption | apply setSsm_kept | apply verdict_kept | (apply kept_mk; exact rfl; exact rfl; exact rfl; exact rfl; exact rfl; exact rfl; exact rfl; exact rfl; exact rfl; exact rfl; (first | assumption | apply setSsm_kept | apply verdict_kept | split)) | split | intro _

theorem noteReason_kept (g reason : Nat) (s : State) (hs : Kept s0 s) : Kept s0 (noteReason g reason s) := by
  unfold noteReason
  try dsimp only
  with_reducible repeat' first | assumption | apply modSsm_kept | (apply kept_mk; exact rfl; exact rfl; exact rfl; exact rfl; exact rfl; exact rfl; exact rfl; exact rfl; exact rfl; exact rfl; (first | assumption | apply modSsm_kept | split)) | split | intro _

theorem takeStops_kept (g : Nat) (s : State) (hs : Kept s0 s) : Kept s0 (takeStops g s) := by
  unfold takeStops
  try dsimp only
  with_reducible repeat' first | assumption | apply modGrp_kept | apply stopGroup_kept | apply foldl_kept | (apply kept_mk; exact rfl; exact rfl; exact rfl; exact rfl; exact rfl; exact rfl; exact rfl; exact rfl; exact rfl; exact rfl; (first | assumption | apply modGrp_kept | apply stopGroup_kept | apply foldl_kept | split)) | split | intro _

theorem sepRequest_kept (g cat : Nat) (s : State) (hs : Kept s0 s) : Kept s0 (sepRequest g cat s) := by
  unfold sepRequest
  try dsimp only
  with_reducible repeat' first | assumption | apply reqStopGrp_kept | apply takeStops_kept | (apply kept_mk; exact rfl; exact rfl; exact rfl; exact rfl; exact rfl; exact rfl; exact rfl; exact rfl; exact rfl; exact rfl; (first | assumption | apply reqStopGrp_kept | apply takeStops_kept | split)) | split | intro _

theorem sepStop_kept (g cat reason : Nat) (detail : List Byte) (s : State) (hs : Kept s0 s) : Kept s0 (sepStop g cat reason detail s) := by
  unfold sepStop
  try dsimp only
  with_reducible repeat' first | assumption | apply journal_kept | apply modSsm_kept | apply noteReason_kept | apply raiseIf_kept | apply sepRequest_kept | (apply kept_mk; exact rfl; exact rfl; exact rfl; exact rfl; exact rfl; exact rfl; exact rfl; exact rfl; exact rfl; exact rfl; (first | assumption | apply journal_kept | apply modSsm_kept | apply noteReason_kept | apply raiseIf_kept | apply sepRequest_kept | split)) | split | intro _

theorem ch2Issued_kept (g : Nat) (s : State) (hs : Kept s0 s) : Kept s0 (ch2Issued g s) := by
  unfold ch2Issued
  try dsimp only
  with_reducible repeat' first | assumption | apply modSsm_kept | (apply kept_mk; exact rfl; exact rfl; exact rfl; exact rfl; exact rfl; exact rfl; exact rfl; exact rfl; exact rfl; exact rfl; (first | assumption | apply modSsm_kept | split)) | split | intro _

theorem contactStop_kept (g code : Nat) (s : State) (hs : Kept s0 s) : Kept s0 (contactStop g code s) := by
  unfold contactStop
  try dsimp only
  with_reducible repeat' first | assumption | apply sepStop_kept | (apply kept_mk; exact rfl; exact rfl; exact rfl; exact rfl; exact rfl; exact rfl; exact rfl; exact rfl; exact rfl; exact rfl; (first | assumption | apply sepStop_kept | split)) | split | intro _

theorem contacts_kept (s : State) (hs : Kept s0 s) : Kept s0 (contacts s) := by
  unfold contacts
  try dsimp only
  with_reducible repeat' first | assumption | apply contactStop_kept | apply forNat_kept | apply foldl_kept | (apply kept_mk; exact rfl; exact rfl; exact rfl; exact rfl; exact rfl; exact rfl; exact rfl; exact rfl; exact rfl; exact rfl; (first | assumption | apply contactStop_kept | apply forNat_kept | apply foldl_kept | split)) | split | intro _

theorem sendVerdicts_kept (s : State) (hs : Kept s0 s) : Kept s0 (sendVerdicts s) := by
  unfold sendVerdicts
  try dsimp only
  with_reducible repeat' first | assumption | apply forNat_kept | apply xsend_kept | (apply kept_mk; exact rfl; exact rfl; exact rfl; exact rfl; exact rfl; exact rfl; exact rfl; exact rfl; exact rfl; exact rfl; (first | assumption | apply forNat_kept | apply xsend_kept | split)) | split | intro _

theorem guardSnapshot_kept (s : State) (hs : Kept s0 s) : Kept s0 (guardSnapshot s) := by
  unfold guardSnapshot
  try dsimp only
  with_reducible repeat' first | assumption | apply contacts_kept | apply countN_kept | apply forNat_kept | apply guardGroup_kept | apply sendVerdicts_kept | (apply kept_mk; exact rfl; exact rfl; exact rfl; exact rfl; exact rfl; exact rfl; exact rfl; exact rfl; exact rfl; exact rfl; (first | assumption | apply contacts_kept | apply countN_kept | apply forNat_kept | apply guardGroup_kept | apply sendVerdicts_kept | split)) | split | intro _

theorem freewheel2_kept (s : State) (hs : Kept s0 s) : Kept s0 (freewheel2 s) := by
  unfold freewheel2
  try dsimp only
  with_reducible repeat' first | assumption | apply forNat_kept | apply modAxis_kept | (apply kept_mk; exact rfl; exact rfl; exact rfl; exact rfl; exact rfl; exact rfl; exact rfl; exact rfl; exact rfl; exact rfl; (first | assumption | apply forNat_kept | apply modAxis_kept | split)) | split | intro _

theorem blackCopy_kept (a : Nat) (entry : List Byte) (s : State) (hs : Kept s0 s) : Kept s0 (blackCopy a entry s) := by
  unfold blackCopy
  try dsimp only
  with_reducible repeat' first | assumption | apply count_kept | apply modAxis_kept | (apply kept_mk; exact rfl; exact rfl; exact rfl; exact rfl; exact rfl; exact rfl; exact rfl; exact rfl; exact rfl; exact rfl; (first | assumption | apply count_kept | apply modAxis_kept | split)) | split | intro _

theorem setZone_kept (z : Nat) (v : Zone) (s : State) (hs : Kept s0 s) : Kept s0 (setZone z v s) := by
  unfold setZone
  try dsimp only
  with_reducible repeat' first | assumption | (apply kept_mk; exact rfl; exact rfl; exact rfl; exact rfl; exact rfl; exact rfl; exact rfl; exact rfl; exact rfl; exact rfl; (first | assumption | split)) | split | intro _

theorem zoneRelease_kept (b z : Nat) (s : State) (hs : Kept s0 s) : Kept s0 (zoneRelease b z s) := by
  unfold zoneRelease
  try dsimp only
  with_reducible repeat' first | assumption | apply setZone_kept | (apply kept_mk; exact rfl; exact rfl; exact rfl; exact rfl; exact rfl; exact rfl; exact rfl; exact rfl; exact rfl; exact rfl; (first | assumption | apply setZone_kept | split)) | split | intro _

theorem zoneGrant_kept (b z : Nat) (s : State) (hs : Kept s0 s) : Kept s0 (zoneGrant b z s) := by
  unfold zoneGrant
  try dsimp only
  with_reducible repeat' first | assumption | apply raise_kept | apply setZone_kept | (apply kept_mk; exact rfl; exact rfl; exact rfl; exact rfl; exact rfl; exact rfl; exact rfl; exact rfl; exact rfl; exact rfl; (first | assumption | apply raise_kept | apply setZone_kept | split)) | split | intro _

theorem zoneCharge_kept (s : State) (hs : Kept s0 s) : Kept s0 (zoneCharge s) := by
  unfold zoneCharge
  try dsimp only
  with_reducible repeat' first | assumption | apply setShares_kept | (apply kept_mk; exact rfl; exact rfl; exact rfl; exact rfl; exact rfl; exact rfl; exact rfl; exact rfl; exact rfl; exact rfl; (first | assumption | apply setShares_kept | split)) | split | intro _

theorem zoneBoundary_kept (b : Nat) (s : State) (hs : Kept s0 s) : Kept s0 (zoneBoundary b s) := by
  unfold zoneBoundary
  try dsimp only
  with_reducible repeat' first | assumption | apply forNat_kept | apply zoneCharge_kept | apply zoneGrant_kept | apply zoneRelease_kept | (apply kept_mk; exact rfl; exact rfl; exact rfl; exact rfl; exact rfl; exact rfl; exact rfl; exact rfl; exact rfl; exact rfl; (first | assumption | apply forNat_kept | apply zoneCharge_kept | apply zoneGrant_kept | apply zoneRelease_kept | split)) | split | intro _

theorem zoneRefused_kept (z : Nat) (s : State) (hs : Kept s0 s) : Kept s0 (zoneRefused z s) := by
  unfold zoneRefused
  try dsimp only
  with_reducible repeat' first | assumption | apply raise_kept | apply setZone_kept | apply zoneCharge_kept | (apply kept_mk; exact rfl; exact rfl; exact rfl; exact rfl; exact rfl; exact rfl; exact rfl; exact rfl; exact rfl; exact rfl; (first | assumption | apply raise_kept | apply setZone_kept | apply zoneCharge_kept | split)) | split | intro _

theorem laHold_kept (g : Nat) (s : State) (hs : Kept s0 s) : Kept s0 (laHold g s) := by
  unfold laHold
  try dsimp only
  with_reducible repeat' first | assumption | apply journal_kept | apply pathStop_kept | (apply kept_mk; exact rfl; exact rfl; exact rfl; exact rfl; exact rfl; exact rfl; exact rfl; exact rfl; exact rfl; exact rfl; (first | assumption | apply journal_kept | apply pathStop_kept | split)) | split | intro _

theorem zoneDefineSpec_kept  : SpecKept (zoneDefineSpec ) := by
  refine fun c s => ⟨fun st t ht => ?_, fun t ht => ?_⟩ <;> unfold zoneDefineSpec <;> (try dsimp only)
  all_goals with_reducible repeat' first | assumption | apply setZone_kept | (apply kept_mk; exact rfl; exact rfl; exact rfl; exact rfl; exact rfl; exact rfl; exact rfl; exact rfl; exact rfl; exact rfl; (first | assumption | apply setZone_kept | split)) | split | intro _

theorem zoneRequestSpec_kept  : SpecKept (zoneRequestSpec ) := by
  refine fun c s => ⟨fun st t ht => ?_, fun t ht => ?_⟩ <;> unfold zoneRequestSpec <;> (try dsimp only)
  all_goals with_reducible repeat' first | assumption | apply setShares_kept | apply setZone_kept | apply foldl_kept | (apply kept_mk; exact rfl; exact rfl; exact rfl; exact rfl; exact rfl; exact rfl; exact rfl; exact rfl; exact rfl; exact rfl; (first | assumption | apply setShares_kept | apply setZone_kept | apply foldl_kept | split)) | split | intro _

theorem zoneReleaseSpec_kept  : SpecKept (zoneReleaseSpec ) := by
  refine fun c s => ⟨fun st t ht => ?_, fun t ht => ?_⟩ <;> unfold zoneReleaseSpec <;> (try dsimp only)
  all_goals with_reducible repeat' first | assumption | apply setShares_kept | apply setZone_kept | (apply kept_mk; exact rfl; exact rfl; exact rfl; exact rfl; exact rfl; exact rfl; exact rfl; exact rfl; exact rfl; exact rfl; (first | assumption | apply setShares_kept | apply setZone_kept | split)) | split | intro _

theorem zoneStatusSpec_kept  : SpecKept (zoneStatusSpec ) := by
  refine fun c s => ⟨fun st t ht => ?_, fun t ht => ?_⟩ <;> unfold zoneStatusSpec <;> (try dsimp only)
  all_goals with_reducible repeat' first | assumption | (apply kept_mk; exact rfl; exact rfl; exact rfl; exact rfl; exact rfl; exact rfl; exact rfl; exact rfl; exact rfl; exact rfl; (first | assumption | split)) | split | intro _

theorem sensorRecord_kept (k st : Nat) (b : List Byte) (s : State) (hs : Kept s0 s) : Kept s0 (sensorRecord k st b s) := by
  unfold sensorRecord
  try dsimp only
  with_reducible repeat' first | assumption | apply count_kept | apply setSens_kept | apply xsend_kept | (apply kept_mk; exact rfl; exact rfl; exact rfl; exact rfl; exact rfl; exact rfl; exact rfl; exact rfl; exact rfl; exact rfl; (first | assumption | apply count_kept | apply setSens_kept | apply xsend_kept | split)) | split | intro _

theorem sensorBoundary_kept (n : Nat) (s : State) (hs : Kept s0 s) : Kept s0 (sensorBoundary n s) := by
  unfold sensorBoundary
  try dsimp only
  with_reducible repeat' first | assumption | apply count_kept | apply journal_kept | apply setSens_kept | (apply kept_mk; exact rfl; exact rfl; exact rfl; exact rfl; exact rfl; exact rfl; exact rfl; exact rfl; exact rfl; exact rfl; (first | assumption | apply count_kept | apply journal_kept | apply setSens_kept | split)) | split | intro _

theorem guardBoundary_kept (s : State) (hs : Kept s0 s) : Kept s0 (guardBoundary s) := by
  unfold guardBoundary
  try dsimp only
  with_reducible repeat' first | assumption | apply forNat_kept | apply sensorBoundary_kept | (apply kept_mk; exact rfl; exact rfl; exact rfl; exact rfl; exact rfl; exact rfl; exact rfl; exact rfl; exact rfl; exact rfl; (first | assumption | apply forNat_kept | apply sensorBoundary_kept | split)) | split | intro _

theorem sensorStale_kept (n : Nat) (s : State) (hs : Kept s0 s) : Kept s0 (sensorStale n s) := by
  unfold sensorStale
  try dsimp only
  with_reducible repeat' first | assumption | apply count_kept | apply journal_kept | apply raise_kept | apply setSens_kept | (apply kept_mk; exact rfl; exact rfl; exact rfl; exact rfl; exact rfl; exact rfl; exact rfl; exact rfl; exact rfl; exact rfl; (first | assumption | apply count_kept | apply journal_kept | apply raise_kept | apply setSens_kept | split)) | split | intro _

theorem ch2Verdict_kept (p : Nat) (s : State) (hs : Kept s0 s) : Kept s0 (ch2Verdict p s) := by
  unfold ch2Verdict
  try dsimp only
  with_reducible repeat' first | assumption | apply forNat_kept | apply modSsm_kept | (apply kept_mk; exact rfl; exact rfl; exact rfl; exact rfl; exact rfl; exact rfl; exact rfl; exact rfl; exact rfl; exact rfl; (first | assumption | apply forNat_kept | apply modSsm_kept | split)) | split | intro _

theorem setGov_kept (g k : Nat) (s : State) (hs : Kept s0 s) : Kept s0 (setGov g k s) := by
  unfold setGov
  try dsimp only
  with_reducible repeat' first | assumption | apply modGrp_kept | apply raise_kept | (apply kept_mk; exact rfl; exact rfl; exact rfl; exact rfl; exact rfl; exact rfl; exact rfl; exact rfl; exact rfl; exact rfl; (first | assumption | apply modGrp_kept | apply raise_kept | split)) | split | intro _

theorem verdictGroup_kept (g : Nat) (s : State) (hs : Kept s0 s) : Kept s0 (verdictGroup g s) := by
  unfold verdictGroup
  try dsimp only
  with_reducible repeat' first | assumption | apply ch2Issued_kept | apply noteReason_kept | apply raiseIf_kept | apply sepRequest_kept | apply sepStop_kept | apply setGov_kept | apply setSsm_kept | (apply kept_mk; exact rfl; exact rfl; exact rfl; exact rfl; exact rfl; exact rfl; exact rfl; exact rfl; exact rfl; exact rfl; (first | assumption | apply ch2Issued_kept | apply noteReason_kept | apply raiseIf_kept | apply sepRequest_kept | apply sepStop_kept | apply setGov_kept | apply setSsm_kept | split)) | split | intro _

theorem verdictFree_kept (g : Nat) (s : State) (hs : Kept s0 s) : Kept s0 (verdictFree g s) := by
  unfold verdictFree
  try dsimp only
  with_reducible repeat' first | assumption | apply setGov_kept | (apply kept_mk; exact rfl; exact rfl; exact rfl; exact rfl; exact rfl; exact rfl; exact rfl; exact rfl; exact rfl; exact rfl; (first | assumption | apply setGov_kept | split)) | split | intro _

theorem verdict_kept (s : State) (hs : Kept s0 s) : Kept s0 (verdict s) := by
  unfold verdict
  try dsimp only
  with_reducible repeat' first | assumption | apply forNat_kept | apply sepStop_kept | apply verdictFree_kept | apply verdictGroup_kept | (apply kept_mk; exact rfl; exact rfl; exact rfl; exact rfl; exact rfl; exact rfl; exact rfl; exact rfl; exact rfl; exact rfl; (first | assumption | apply forNat_kept | apply sepStop_kept | apply verdictFree_kept | apply verdictGroup_kept | split)) | split | intro _

theorem tandemMismatch_kept (g : Nat) (s : State) (hs : Kept s0 s) : Kept s0 (tandemMismatch g s) := by
  unfold tandemMismatch
  try dsimp only
  with_reducible repeat' first | assumption | apply journal_kept | apply modSsm_kept | apply noteReason_kept | apply raise_kept | apply sepRequest_kept | (apply kept_mk; exact rfl; exact rfl; exact rfl; exact rfl; exact rfl; exact rfl; exact rfl; exact rfl; exact rfl; exact rfl; (first | assumption | apply journal_kept | apply modSsm_kept | apply noteReason_kept | apply raise_kept | apply sepRequest_kept | split)) | split | intro _

theorem verdictAbsent_kept (g : Nat) (s : State) (hs : Kept s0 s) : Kept s0 (verdictAbsent g s) := by
  unfold verdictAbsent
  try dsimp only
  with_reducible repeat' first | assumption | apply sepStop_kept | (apply kept_mk; exact rfl; exact rfl; exact rfl; exact rfl; exact rfl; exact rfl; exact rfl; exact rfl; exact rfl; exact rfl; (first | assumption | apply sepStop_kept | split)) | split | intro _

theorem speedExceeded_kept (g : Nat) (second : Bool) (s : State) (hs : Kept s0 s) : Kept s0 (speedExceeded g second s) := by
  unfold speedExceeded
  try dsimp only
  with_reducible repeat' first | assumption | apply ch2Issued_kept | apply sepStop_kept | (apply kept_mk; exact rfl; exact rfl; exact rfl; exact rfl; exact rfl; exact rfl; exact rfl; exact rfl; exact rfl; exact rfl; (first | assumption | apply ch2Issued_kept | apply sepStop_kept | split)) | split | intro _

theorem ch2Feedback_kept (g : Nat) (s : State) (hs : Kept s0 s) : Kept s0 (ch2Feedback g s) := by
  unfold ch2Feedback
  try dsimp only
  with_reducible repeat' first | assumption | apply ch2Issued_kept | apply sepStop_kept | (apply kept_mk; exact rfl; exact rfl; exact rfl; exact rfl; exact rfl; exact rfl; exact rfl; exact rfl; exact rfl; exact rfl; (first | assumption | apply ch2Issued_kept | apply sepStop_kept | split)) | split | intro _

theorem ch2Override_kept (g : Nat) (s : State) (hs : Kept s0 s) : Kept s0 (ch2Override g s) := by
  unfold ch2Override
  try dsimp only
  with_reducible repeat' first | assumption | apply advanceTo_kept | apply count_kept | apply journalF_kept | apply modChan_kept | apply modSsm_kept | apply pinsOff_kept | (apply kept_mk; exact rfl; exact rfl; exact rfl; exact rfl; exact rfl; exact rfl; exact rfl; exact rfl; exact rfl; exact rfl; (first | assumption | apply advanceTo_kept | apply count_kept | apply journalF_kept | apply modChan_kept | apply modSsm_kept | apply pinsOff_kept | split)) | split | intro _

theorem ssmConfigureSpec_kept  : SpecKept (ssmConfigureSpec ) := by
  refine fun c s => ⟨fun st t ht => ?_, fun t ht => ?_⟩ <;> unfold ssmConfigureSpec <;> (try dsimp only)
  all_goals with_reducible repeat' first | assumption | apply deviceFault_kept | (apply kept_mk; exact rfl; exact rfl; exact rfl; exact rfl; exact rfl; exact rfl; exact rfl; exact rfl; exact rfl; exact rfl; (first | assumption | apply deviceFault_kept | split)) | split | intro _

theorem ssmSetGroupSpec_kept  : SpecKept (ssmSetGroupSpec ) := by
  refine fun c s => ⟨fun st t ht => ?_, fun t ht => ?_⟩ <;> unfold ssmSetGroupSpec <;> (try dsimp only)
  all_goals with_reducible repeat' first | assumption | apply deviceFault_kept | apply modGrp_kept | apply setGov_kept | apply setSsm_kept | (apply kept_mk; exact rfl; exact rfl; exact rfl; exact rfl; exact rfl; exact rfl; exact rfl; exact rfl; exact rfl; exact rfl; (first | assumption | apply deviceFault_kept | apply modGrp_kept | apply setGov_kept | apply setSsm_kept | split)) | split | intro _

theorem ssmSetObstaclesSpec_kept  : SpecKept (ssmSetObstaclesSpec ) := by
  refine fun c s => ⟨fun st t ht => ?_, fun t ht => ?_⟩ <;> unfold ssmSetObstaclesSpec <;> (try dsimp only)
  all_goals with_reducible repeat' first | assumption | (apply kept_mk; exact rfl; exact rfl; exact rfl; exact rfl; exact rfl; exact rfl; exact rfl; exact rfl; exact rfl; exact rfl; (first | assumption | split)) | split | intro _

theorem obstacleSnapshot_kept (s : State) (hs : Kept s0 s) : Kept s0 (obstacleSnapshot s) := by
  unfold obstacleSnapshot
  try dsimp only
  with_reducible repeat' first | assumption | apply foldl_kept | (apply kept_mk; exact rfl; exact rfl; exact rfl; exact rfl; exact rfl; exact rfl; exact rfl; exact rfl; exact rfl; exact rfl; (first | assumption | apply foldl_kept | split)) | split | intro _

theorem ssmSetSensorSpec_kept  : SpecKept (ssmSetSensorSpec ) := by
  refine fun c s => ⟨fun st t ht => ?_, fun t ht => ?_⟩ <;> unfold ssmSetSensorSpec <;> (try dsimp only)
  all_goals with_reducible repeat' first | assumption | apply deviceFault_kept | apply later_kept | apply later_kept | (apply kept_mk; exact rfl; exact rfl; exact rfl; exact rfl; exact rfl; exact rfl; exact rfl; exact rfl; exact rfl; exact rfl; (first | assumption | apply deviceFault_kept | apply later_kept | apply later_kept | split)) | split | intro _

theorem sensorEff_kept (e : Eff) (s : State) (hs : Kept s0 s) : Kept s0 (sensorEff e s) := by
  unfold sensorEff
  try dsimp only
  with_reducible repeat' first | assumption | apply setSens_kept | (apply kept_mk; exact rfl; exact rfl; exact rfl; exact rfl; exact rfl; exact rfl; exact rfl; exact rfl; exact rfl; exact rfl; (first | assumption | apply setSens_kept | split)) | split | intro _

theorem ssmStatusSpec_kept  : SpecKept (ssmStatusSpec ) := by
  refine fun c s => ⟨fun st t ht => ?_, fun t ht => ?_⟩ <;> unfold ssmStatusSpec <;> (try dsimp only)
  all_goals with_reducible repeat' first | assumption | (apply kept_mk; exact rfl; exact rfl; exact rfl; exact rfl; exact rfl; exact rfl; exact rfl; exact rfl; exact rfl; exact rfl; (first | assumption | split)) | split | intro _

end Sys2Proof.Machine
end

