-- ==== Sys2Proof/Laws/KeptPlanning.lean ====
section
/-!
SUPPORT. `Kept` for the functions of signals, streams, planning, group commands, tracing and the journal.
-/
namespace Sys2Proof.Machine

set_option Elab.async false
set_option linter.all false

variable {s0 : State}

theorem putDev_kept (l : List Nat) (u : BitVec 8) (s : State) (hs : Kept s0 s) : Kept s0 (putDev l u s) := by
  unfold putDev
  try dsimp only
  with_reducible repeat' first | assumption | apply foldl_kept | (apply kept_mk; exact rfl; exact rfl; exact rfl; exact rfl; exact rfl; exact rfl; exact rfl; exact rfl; exact rfl; exact rfl; (first | assumption | apply foldl_kept | split)) | split | intro _

theorem sepSignals_kept (s : State) (hs : Kept s0 s) : Kept s0 (sepSignals s) := by
  unfold sepSignals
  try dsimp only
  with_reducible repeat' first | assumption | apply putDev_kept | (apply kept_mk; exact rfl; exact rfl; exact rfl; exact rfl; exact rfl; exact rfl; exact rfl; exact rfl; exact rfl; exact rfl; (first | assumption | apply putDev_kept | split)) | split | intro _

theorem updateMapped_kept (e : Nat × SigMap) (s : State) (hs : Kept s0 s) : Kept s0 (updateMapped e s) := by
  unfold updateMapped
  try dsimp only
  with_reducible repeat' first | assumption | (apply kept_mk; exact rfl; exact rfl; exact rfl; exact rfl; exact rfl; exact rfl; exact rfl; exact rfl; exact rfl; exact rfl; (first | assumption | split)) | split | intro _

theorem showWrite_kept (w : Nat × Nat × Nat) (s : State) (hs : Kept s0 s) : Kept s0 (showWrite w s) := by
  unfold showWrite
  try dsimp only
  with_reducible repeat' first | assumption | (apply kept_mk; exact rfl; exact rfl; exact rfl; exact rfl; exact rfl; exact rfl; exact rfl; exact rfl; exact rfl; exact rfl; (first | assumption | split)) | split | intro _

theorem watchStep_kept (i : Nat) (s : State) (hs : Kept s0 s) : Kept s0 (watchStep i s) := by
  unfold watchStep
  try dsimp only
  with_reducible repeat' first | assumption | apply raiseIf_kept | (apply kept_mk; exact rfl; exact rfl; exact rfl; exact rfl; exact rfl; exact rfl; exact rfl; exact rfl; exact rfl; exact rfl; (first | assumption | apply raiseIf_kept | split)) | split | intro _

theorem sigUpdate_kept (s : State) (hs : Kept s0 s) : Kept s0 (sigUpdate s) := by
  unfold sigUpdate
  try dsimp only
  with_reducible repeat' first | assumption | apply forNat_kept | apply putDev_kept | apply showWrite_kept | apply updateMapped_kept | apply watchStep_kept | apply foldl_kept | (apply kept_mk; exact rfl; exact rfl; exact rfl; exact rfl; exact rfl; exact rfl; exact rfl; exact rfl; exact rfl; exact rfl; (first | assumption | apply forNat_kept | apply putDev_kept | apply showWrite_kept | apply updateMapped_kept | apply watchStep_kept | apply foldl_kept | split)) | split | intro _

theorem sigPoison_kept (n : Nat) (s : State) (hs : Kept s0 s) : Kept s0 (sigPoison n s) := by
  unfold sigPoison
  try dsimp only
  with_reducible repeat' first | assumption | apply forNat_kept | apply raise_kept | (apply kept_mk; exact rfl; exact rfl; exact rfl; exact rfl; exact rfl; exact rfl; exact rfl; exact rfl; exact rfl; exact rfl; (first | assumption | apply forNat_kept | apply raise_kept | split)) | split | intro _

theorem sigMapSpec_kept  : SpecKept (sigMapSpec ) := by
  refine fun c s => ⟨fun st t ht => ?_, fun t ht => ?_⟩ <;> unfold sigMapSpec <;> (try dsimp only)
  all_goals with_reducible repeat' first | assumption | apply later_kept | apply later_kept | (apply kept_mk; exact rfl; exact rfl; exact rfl; exact rfl; exact rfl; exact rfl; exact rfl; exact rfl; exact rfl; exact rfl; (first | assumption | apply later_kept | apply later_kept | split)) | split | intro _

theorem sigMapEff_kept (e : Eff) (s : State) (hs : Kept s0 s) : Kept s0 (sigMapEff e s) := by
  unfold sigMapEff
  try dsimp only
  with_reducible repeat' first | assumption | apply foldl_kept | (apply kept_mk; exact rfl; exact rfl; exact rfl; exact rfl; exact rfl; exact rfl; exact rfl; exact rfl; exact rfl; exact rfl; (first | assumption | apply foldl_kept | split)) | split | intro _

theorem sigReadSpec_kept  : SpecKept (sigReadSpec ) := by
  refine fun c s => ⟨fun st t ht => ?_, fun t ht => ?_⟩ <;> unfold sigReadSpec <;> (try dsimp only)
  all_goals with_reducible repeat' first | assumption | (apply kept_mk; exact rfl; exact rfl; exact rfl; exact rfl; exact rfl; exact rfl; exact rfl; exact rfl; exact rfl; exact rfl; (first | assumption | split)) | split | intro _

theorem sigWriteSpec_kept  : SpecKept (sigWriteSpec ) := by
  refine fun c s => ⟨fun st t ht => ?_, fun t ht => ?_⟩ <;> unfold sigWriteSpec <;> (try dsimp only)
  all_goals with_reducible repeat' first | assumption | apply later_kept | apply later_kept | (apply kept_mk; exact rfl; exact rfl; exact rfl; exact rfl; exact rfl; exact rfl; exact rfl; exact rfl; exact rfl; exact rfl; (first | assumption | apply later_kept | apply later_kept | split)) | split | intro _

theorem sigWriteEff_kept (e : Eff) (s : State) (hs : Kept s0 s) : Kept s0 (sigWriteEff e s) := by
  unfold sigWriteEff
  try dsimp only
  with_reducible repeat' first | assumption | (apply kept_mk; exact rfl; exact rfl; exact rfl; exact rfl; exact rfl; exact rfl; exact rfl; exact rfl; exact rfl; exact rfl; (first | assumption | split)) | split | intro _

theorem sigWatchSpec_kept  : SpecKept (sigWatchSpec ) := by
  refine fun c s => ⟨fun st t ht => ?_, fun t ht => ?_⟩ <;> unfold sigWatchSpec <;> (try dsimp only)
  all_goals with_reducible repeat' first | assumption | apply later_kept | apply setShares_kept | apply later_kept | (apply kept_mk; exact rfl; exact rfl; exact rfl; exact rfl; exact rfl; exact rfl; exact rfl; exact rfl; exact rfl; exact rfl; (first | assumption | apply later_kept | apply setShares_kept | apply later_kept | split)) | split | intro _

theorem sigWatchEff_kept (e : Eff) (s : State) (hs : Kept s0 s) : Kept s0 (sigWatchEff e s) := by
  unfold sigWatchEff
  try dsimp only
  with_reducible repeat' first | assumption | (apply kept_mk; exact rfl; exact rfl; exact rfl; exact rfl; exact rfl; exact rfl; exact rfl; exact rfl; exact rfl; exact rfl; (first | assumption | split)) | split | intro _

theorem prodWrite_kept (k : Nat) (w : Word) (s : State) (hs : Kept s0 s) : Kept s0 (prodWrite k w s) := by
  unfold prodWrite
  try dsimp only
  with_reducible repeat' first | assumption | apply count_kept | apply raiseIf_kept | (apply kept_mk; exact rfl; exact rfl; exact rfl; exact rfl; exact rfl; exact rfl; exact rfl; exact rfl; exact rfl; exact rfl; (first | assumption | apply count_kept | apply raiseIf_kept | split)) | split | intro _

theorem prodBytes_kept (k o : Nat) (bytes : List Byte) (s : State) (hs : Kept s0 s) : Kept s0 (prodBytes k o bytes s) := by
  unfold prodBytes
  try dsimp only
  with_reducible repeat' first | assumption | apply prodWrite_kept | (apply kept_mk; exact rfl; exact rfl; exact rfl; exact rfl; exact rfl; exact rfl; exact rfl; exact rfl; exact rfl; exact rfl; (first | assumption | apply prodWrite_kept | split)) | split | intro _

theorem sendHeld_kept (s : State) (hs : Kept s0 s) : Kept s0 (sendHeld s) := by
  unfold sendHeld
  refine foldl_kept _ _ (fun t v ht => ?_) _ hs
  split
  · exact fireVector_kept _ _ (kept_host _ t ht ⟨id, rfl, rfl, rfl, rfl, rfl, fun _ _ => rfl, fun _ _ => .inl rfl⟩)
  · exact ht

theorem cfgByteWrite_kept (o : Nat) (b : Byte) (s : State) (hs : Kept s0 s) : Kept s0 (cfgByteWrite o b s) := by
  unfold cfgByteWrite
  split <;> exact kept_host _ s hs ⟨id, rfl, rfl, rfl, rfl, rfl, fun _ _ => rfl, fun _ _ => .inl rfl⟩

theorem cfgWrite_kept (o : Nat) (bytes : List Byte) (s : State) (hs : Kept s0 s) : Kept s0 (cfgWrite o bytes s) := by
  unfold cfgWrite
  try dsimp only
  with_reducible repeat' first | assumption | apply cfgByteWrite_kept | apply sendHeld_kept | apply foldl_kept | (apply kept_mk; exact rfl; exact rfl; exact rfl; exact rfl; exact rfl; exact rfl; exact rfl; exact rfl; exact rfl; exact rfl; (first | assumption | apply cfgByteWrite_kept | apply sendHeld_kept | apply foldl_kept | split)) | split | intro _

theorem timeLo_kept (wide : Bool) (s : State) (hs : Kept s0 s) : Kept s0 (timeLo wide s) := by
  unfold timeLo; split <;>
  exact hs.trans ⟨⟨id, rfl, rfl, rfl, rfl, rfl, fun _ _ => rfl, fun _ _ => .inl rfl⟩, .refl _, .refl _, rfl, .refl _, id, fun _ _ => rfl, fun _ => id, id, id⟩

theorem timeLatchWrite_kept (w : Word) (s : State) (hs : Kept s0 s) : Kept s0 (timeLatchWrite w s) := by
  unfold timeLatchWrite
  try dsimp only
  with_reducible repeat' first | assumption | apply latch_kept | (apply kept_mk; exact rfl; exact rfl; exact rfl; exact rfl; exact rfl; exact rfl; exact rfl; exact rfl; exact rfl; exact rfl; (first | assumption | apply latch_kept | split)) | split | intro _

theorem setStrm_kept (k : Nat) (h : Stream) (s : State) (hs : Kept s0 s) : Kept s0 (setStrm k h s) := by
  unfold setStrm
  try dsimp only
  with_reducible repeat' first | assumption | (apply kept_mk; exact rfl; exact rfl; exact rfl; exact rfl; exact rfl; exact rfl; exact rfl; exact rfl; exact rfl; exact rfl; (first | assumption | split)) | split | intro _

theorem strmLow_kept (k : Nat) (s : State) (hs : Kept s0 s) : Kept s0 (strmLow k s) := by
  unfold strmLow
  try dsimp only
  with_reducible repeat' first | assumption | apply raiseIf_kept | apply setStrm_kept | (apply kept_mk; exact rfl; exact rfl; exact rfl; exact rfl; exact rfl; exact rfl; exact rfl; exact rfl; exact rfl; exact rfl; (first | assumption | apply raiseIf_kept | apply setStrm_kept | split)) | split | intro _

theorem strmStep_kept (g : Nat) (s : State) (hs : Kept s0 s) : Kept s0 (strmStep g s) := by
  unfold strmStep
  try dsimp only
  with_reducible repeat' first | assumption | apply driveMembers_kept | apply modGrp_kept | (apply kept_mk; exact rfl; exact rfl; exact rfl; exact rfl; exact rfl; exact rfl; exact rfl; exact rfl; exact rfl; exact rfl; (first | assumption | apply driveMembers_kept | apply modGrp_kept | split)) | split | intro _

theorem strmClock_kept (g : Nat) (s : State) (hs : Kept s0 s) : Kept s0 (strmClock g s) := by
  unfold strmClock
  try dsimp only
  with_reducible repeat' first | assumption | apply modGrp_kept | (apply kept_mk; exact rfl; exact rfl; exact rfl; exact rfl; exact rfl; exact rfl; exact rfl; exact rfl; exact rfl; exact rfl; (first | assumption | apply modGrp_kept | split)) | split | intro _

theorem strmUnderrun_kept (k : Nat) (s : State) (hs : Kept s0 s) : Kept s0 (strmUnderrun k s) := by
  unfold strmUnderrun
  try dsimp only
  with_reducible repeat' first | assumption | apply modGrp_kept | apply pathStop_kept | apply underrunMarks_kept | (apply kept_mk; exact rfl; exact rfl; exact rfl; exact rfl; exact rfl; exact rfl; exact rfl; exact rfl; exact rfl; exact rfl; (first | assumption | apply modGrp_kept | apply pathStop_kept | apply underrunMarks_kept | split)) | split | intro _

theorem strmEnd_kept (k : Nat) (s : State) (hs : Kept s0 s) : Kept s0 (strmEnd k s) := by
  unfold strmEnd
  try dsimp only
  with_reducible repeat' first | assumption | apply modGrp_kept | apply setStrm_kept | (apply kept_mk; exact rfl; exact rfl; exact rfl; exact rfl; exact rfl; exact rfl; exact rfl; exact rfl; exact rfl; exact rfl; (first | assumption | apply modGrp_kept | apply setStrm_kept | split)) | split | intro _

theorem strmTake_kept (k : Nat) (s : State) (hs : Kept s0 s) : Kept s0 (strmTake k s) := by
  unfold strmTake
  try dsimp only
  with_reducible repeat' first | assumption | apply modGrp_kept | apply setStrm_kept | apply strmEnd_kept | apply strmLow_kept | apply strmUnderrun_kept | (apply kept_mk; exact rfl; exact rfl; exact rfl; exact rfl; exact rfl; exact rfl; exact rfl; exact rfl; exact rfl; exact rfl; (first | assumption | apply modGrp_kept | apply setStrm_kept | apply strmEnd_kept | apply strmLow_kept | apply strmUnderrun_kept | split)) | split | intro _

theorem strmTakes_kept (s : State) (hs : Kept s0 s) : Kept s0 (strmTakes s) := by
  unfold strmTakes
  try dsimp only
  with_reducible repeat' first | assumption | apply forNat_kept | apply strmTake_kept | (apply kept_mk; exact rfl; exact rfl; exact rfl; exact rfl; exact rfl; exact rfl; exact rfl; exact rfl; exact rfl; exact rfl; (first | assumption | apply forNat_kept | apply strmTake_kept | split)) | split | intro _

theorem strmAnchorEff_kept (e : Eff) (s : State) (hs : Kept s0 s) : Kept s0 (strmAnchorEff e s) := by
  unfold strmAnchorEff
  try dsimp only
  with_reducible repeat' first | assumption | apply complete_kept | apply grpTo_kept | apply modGrp_kept | apply preempted_kept | apply setStrm_kept | apply strmLow_kept | apply underrunMarks_kept | (apply kept_mk; exact rfl; exact rfl; exact rfl; exact rfl; exact rfl; exact rfl; exact rfl; exact rfl; exact rfl; exact rfl; (first | assumption | apply complete_kept | apply grpTo_kept | apply modGrp_kept | apply preempted_kept | apply setStrm_kept | apply strmLow_kept | apply underrunMarks_kept | split)) | split | intro _

theorem detachStrm_kept (k : Nat) (s : State) (hs : Kept s0 s) : Kept s0 (detachStrm k s) := by
  unfold detachStrm
  try dsimp only
  with_reducible repeat' first | assumption | apply freeShares_kept | apply modGrp_kept | apply setStrm_kept | apply strmUnderrun_kept | (apply kept_mk; exact rfl; exact rfl; exact rfl; exact rfl; exact rfl; exact rfl; exact rfl; exact rfl; exact rfl; exact rfl; (first | assumption | apply freeShares_kept | apply modGrp_kept | apply setStrm_kept | apply strmUnderrun_kept | split)) | split | intro _

theorem strmAttachSpec_kept  : SpecKept (strmAttachSpec ) := by
  refine fun c s => ⟨fun st t ht => ?_, fun t ht => ?_⟩ <;> unfold strmAttachSpec <;> (try dsimp only)
  all_goals with_reducible repeat' first | assumption | apply count_kept | apply modGrp_kept | apply setShares_kept | apply setStrm_kept | apply strmLow_kept | (apply kept_mk; exact rfl; exact rfl; exact rfl; exact rfl; exact rfl; exact rfl; exact rfl; exact rfl; exact rfl; exact rfl; (first | assumption | apply count_kept | apply modGrp_kept | apply setShares_kept | apply setStrm_kept | apply strmLow_kept | split)) | split | intro _

theorem strmDetachSpec_kept  : SpecKept (strmDetachSpec ) := by
  refine fun c s => ⟨fun st t ht => ?_, fun t ht => ?_⟩ <;> unfold strmDetachSpec <;> (try dsimp only)
  all_goals with_reducible repeat' first | assumption | apply later_kept | apply later_kept | (apply kept_mk; exact rfl; exact rfl; exact rfl; exact rfl; exact rfl; exact rfl; exact rfl; exact rfl; exact rfl; exact rfl; (first | assumption | apply later_kept | apply later_kept | split)) | split | intro _

theorem strmAnchorSpec_kept  : SpecKept (strmAnchorSpec ) := by
  refine fun c s => ⟨fun st t ht => ?_, fun t ht => ?_⟩ <;> unfold strmAnchorSpec <;> (try dsimp only)
  all_goals with_reducible repeat' first | assumption | apply later_kept | apply post_kept | apply later_kept | (apply kept_mk; exact rfl; exact rfl; exact rfl; exact rfl; exact rfl; exact rfl; exact rfl; exact rfl; exact rfl; exact rfl; (first | assumption | apply later_kept | apply post_kept | apply later_kept | split)) | split | intro _

theorem setQp_kept (g : Nat) (x : QpGrp) (s : State) (hs : Kept s0 s) : Kept s0 (setQp g x s) := by
  unfold setQp
  try dsimp only
  with_reducible repeat' first | assumption | (apply kept_mk; exact rfl; exact rfl; exact rfl; exact rfl; exact rfl; exact rfl; exact rfl; exact rfl; exact rfl; exact rfl; (first | assumption | split)) | split | intro _

theorem modQp_kept (g : Nat) (f : QpGrp → QpGrp) (s : State) (hs : Kept s0 s) : Kept s0 (modQp g f s) := by
  unfold modQp
  try dsimp only
  with_reducible repeat' first | assumption | apply setQp_kept | (apply kept_mk; exact rfl; exact rfl; exact rfl; exact rfl; exact rfl; exact rfl; exact rfl; exact rfl; exact rfl; exact rfl; (first | assumption | apply setQp_kept | split)) | split | intro _

theorem modScen_kept (g j : Nat) (f : Scen → Scen) (s : State) (hs : Kept s0 s) : Kept s0 (modScen g j f s) := by
  unfold modScen
  try dsimp only
  with_reducible repeat' first | assumption | apply modQp_kept | (apply kept_mk; exact rfl; exact rfl; exact rfl; exact rfl; exact rfl; exact rfl; exact rfl; exact rfl; exact rfl; exact rfl; (first | assumption | apply modQp_kept | split)) | split | intro _

theorem setLane_kept (u : Nat) (l : Lane) (s : State) (hs : Kept s0 s) : Kept s0 (setLane u l s) := by
  unfold setLane
  try dsimp only
  with_reducible repeat' first | assumption | (apply kept_mk; exact rfl; exact rfl; exact rfl; exact rfl; exact rfl; exact rfl; exact rfl; exact rfl; exact rfl; exact rfl; (first | assumption | split)) | split | intro _

theorem qpSnapGroup_kept (g : Nat) (s : State) (hs : Kept s0 s) : Kept s0 (qpSnapGroup g s) := by
  unfold qpSnapGroup
  try dsimp only
  with_reducible repeat' first | assumption | apply countN_kept | apply replan_kept | apply setQp_kept | apply foldl_kept | (apply kept_mk; exact rfl; exact rfl; exact rfl; exact rfl; exact rfl; exact rfl; exact rfl; exact rfl; exact rfl; exact rfl; (first | assumption | apply countN_kept | apply replan_kept | apply setQp_kept | apply foldl_kept | split)) | split | intro _

theorem classSnap_kept (s : State) (hs : Kept s0 s) : Kept s0 (classSnap s) := by
  unfold classSnap takeEff; dsimp only
  exact foldl_kept _ _ (fun t x h => kept_mk rfl rfl rfl rfl rfl rfl rfl rfl rfl rfl h) _ (kept_mk rfl rfl rfl rfl rfl rfl rfl rfl rfl rfl hs)

theorem qpSnapshot_kept (s : State) (hs : Kept s0 s) : Kept s0 (qpSnapshot s) := by
  unfold qpSnapshot
  try dsimp only
  with_reducible repeat' first | assumption | apply classSnap_kept | apply forNat_kept | apply qpSnapGroup_kept | (apply kept_mk; exact rfl; exact rfl; exact rfl; exact rfl; exact rfl; exact rfl; exact rfl; exact rfl; exact rfl; exact rfl; (first | assumption | apply classSnap_kept | apply forNat_kept | apply qpSnapGroup_kept | split)) | split | intro _

theorem assembleScen_kept (g j : Nat) (s : State) (hs : Kept s0 s) : Kept s0 (assembleScen g j s) := by
  unfold assembleScen
  try dsimp only
  with_reducible repeat' first | assumption | apply addBusy_kept | apply count_kept | apply modScen_kept | apply setLane_kept | (apply kept_mk; exact rfl; exact rfl; exact rfl; exact rfl; exact rfl; exact rfl; exact rfl; exact rfl; exact rfl; exact rfl; (first | assumption | apply addBusy_kept | apply count_kept | apply modScen_kept | apply setLane_kept | split)) | split | intro _

theorem asmPhase_kept (s : State) (hs : Kept s0 s) : Kept s0 (asmPhase s) := by
  unfold asmPhase
  try dsimp only
  with_reducible repeat' first | assumption | apply advanceTo_kept | apply assembleScen_kept | apply forNat_kept | (apply kept_mk; exact rfl; exact rfl; exact rfl; exact rfl; exact rfl; exact rfl; exact rfl; exact rfl; exact rfl; exact rfl; (first | assumption | apply advanceTo_kept | apply assembleScen_kept | apply forNat_kept | split)) | split | intro _

theorem endMarks_kept (g u cyc : Nat) (r : ScenRes) (s : State) (hs : Kept s0 s) : Kept s0 (endMarks g u cyc r s) := by
  unfold endMarks
  try dsimp only
  with_reducible repeat' first | assumption | apply addBusy_kept | apply count_kept | apply countN_kept | apply modQp_kept | apply raise_kept | (apply kept_mk; exact rfl; exact rfl; exact rfl; exact rfl; exact rfl; exact rfl; exact rfl; exact rfl; exact rfl; exact rfl; (first | assumption | apply addBusy_kept | apply count_kept | apply countN_kept | apply modQp_kept | apply raise_kept | split)) | split | intro _

theorem putRes_kept (b : LaneJob) (r : ScenRes) (s : State) (hs : Kept s0 s) : Kept s0 (putRes b r s) := by
  unfold putRes
  try dsimp only
  with_reducible repeat' first | assumption | apply modScen_kept | (apply kept_mk; exact rfl; exact rfl; exact rfl; exact rfl; exact rfl; exact rfl; exact rfl; exact rfl; exact rfl; exact rfl; (first | assumption | apply modScen_kept | split)) | split | intro _

theorem laneStart_kept (u cyc : Nat) (s : State) (hs : Kept s0 s) : Kept s0 (laneStart u cyc s) := by
  unfold laneStart
  try dsimp only
  with_reducible repeat' first | assumption | apply setLane_kept | (apply kept_mk; exact rfl; exact rfl; exact rfl; exact rfl; exact rfl; exact rfl; exact rfl; exact rfl; exact rfl; exact rfl; (first | assumption | apply setLane_kept | split)) | split | intro _

theorem laneWindow_kept (s : State) (hs : Kept s0 s) : Kept s0 (laneWindow s) := by
  unfold laneWindow
  try dsimp only
  with_reducible repeat' first | assumption | apply advanceTo_kept | apply forNat_kept | apply laneStart_kept | (apply kept_mk; exact rfl; exact rfl; exact rfl; exact rfl; exact rfl; exact rfl; exact rfl; exact rfl; exact rfl; exact rfl; (first | assumption | apply advanceTo_kept | apply forNat_kept | apply laneStart_kept | split)) | split | intro _

theorem laneDone_kept (u cyc : Nat) (s : State) (hs : Kept s0 s) : ∀ t, laneDone u cyc s = some t → Kept s0 t := by
  unfold laneDone; dsimp only
  intro t
  split
  · intro h; cases h
  · split
    · intro h; cases h; exact laneStart_kept _ _ _ (setLane_kept _ _ _ hs)
    · split
      · intro h; cases h
        exact laneStart_kept _ _ _ (endMarks_kept _ _ _ _ _ (putRes_kept _ _ _ (setLane_kept _ _ _ (advanceTo_kept _ _ hs))))
      · intro h; cases h

theorem laneUpTo_kept (u cyc n : Nat) (s : State) (hs : Kept s0 s) : Kept s0 (laneUpTo u cyc n s) := by
  induction n generalizing s with
  | zero => exact hs
  | succ n ih =>
    unfold laneUpTo; split
    · rename_i t h; exact ih _ (laneDone_kept _ _ _ hs _ h)
    · exact hs

theorem qpProblemDone_kept (u : Nat) (s : State) (hs : Kept s0 s) : Kept s0 (qpProblemDone u s) := by
  unfold qpProblemDone; split
  · cases h : laneDone u (2 ^ 64) s with
    | none => exact hs
    | some t => exact laneDone_kept _ _ _ hs _ h
  · exact hs

theorem missMarks_kept (b : LaneJob) (u : Nat) (s : State) (hs : Kept s0 s) : Kept s0 (missMarks b u s) := by
  unfold missMarks
  try dsimp only
  with_reducible repeat' first | assumption | apply count_kept | apply journal_kept | apply modQp_kept | apply raise_kept | apply setCls_kept | (apply kept_mk; exact rfl; exact rfl; exact rfl; exact rfl; exact rfl; exact rfl; exact rfl; exact rfl; exact rfl; exact rfl; (first | assumption | apply count_kept | apply journal_kept | apply modQp_kept | apply raise_kept | apply setCls_kept | split)) | split | intro _

theorem missWaiting_kept (u : Nat) (b : LaneJob) (s : State) (hs : Kept s0 s) : Kept s0 (missWaiting u b s) := by
  unfold missWaiting
  try dsimp only
  with_reducible repeat' first | assumption | apply missMarks_kept | apply putRes_kept | apply setLane_kept | (apply kept_mk; exact rfl; exact rfl; exact rfl; exact rfl; exact rfl; exact rfl; exact rfl; exact rfl; exact rfl; exact rfl; (first | assumption | apply missMarks_kept | apply putRes_kept | apply setLane_kept | split)) | split | intro _

theorem missServed_kept (u cyc : Nat) (b : LaneJob) (st : Nat) (s : State) (hs : Kept s0 s) : Kept s0 (missServed u cyc b st s) := by
  unfold missServed
  try dsimp only
  with_reducible repeat' first | assumption | apply endMarks_kept | apply laneStart_kept | apply missMarks_kept | apply putRes_kept | apply setLane_kept | (apply kept_mk; exact rfl; exact rfl; exact rfl; exact rfl; exact rfl; exact rfl; exact rfl; exact rfl; exact rfl; exact rfl; (first | assumption | apply endMarks_kept | apply laneStart_kept | apply missMarks_kept | apply putRes_kept | apply setLane_kept | split)) | split | intro _

theorem qpDeadline_kept (g j : Nat) (s : State) (hs : Kept s0 s) : Kept s0 (qpDeadline g j s) := by
  unfold qpDeadline
  try dsimp only
  with_reducible repeat' first | assumption | apply advanceTo_kept | apply laneUpTo_kept | apply missServed_kept | apply missWaiting_kept | apply foldl_kept | (apply kept_mk; exact rfl; exact rfl; exact rfl; exact rfl; exact rfl; exact rfl; exact rfl; exact rfl; exact rfl; exact rfl; (first | assumption | apply advanceTo_kept | apply laneUpTo_kept | apply missServed_kept | apply missWaiting_kept | apply foldl_kept | split)) | split | intro _

theorem shiftedRecs_kept (g b : Nat) (tags : List Nat) (s : State) (hs : Kept s0 s) : Kept s0 (shiftedRecs g b tags s) := by
  unfold shiftedRecs
  try dsimp only
  with_reducible repeat' first | assumption | apply journal_kept | apply foldl_kept | (apply kept_mk; exact rfl; exact rfl; exact rfl; exact rfl; exact rfl; exact rfl; exact rfl; exact rfl; exact rfl; exact rfl; (first | assumption | apply journal_kept | apply foldl_kept | split)) | split | intro _

theorem fallenBack_kept (g b : Nat) (tags : List Nat) (s : State) (hs : Kept s0 s) : Kept s0 (fallenBack g b tags s) := by
  unfold fallenBack
  try dsimp only
  with_reducible repeat' first | assumption | apply modQp_kept | apply raise_kept | apply shiftedRecs_kept | (apply kept_mk; exact rfl; exact rfl; exact rfl; exact rfl; exact rfl; exact rfl; exact rfl; exact rfl; exact rfl; exact rfl; (first | assumption | apply modQp_kept | apply raise_kept | apply shiftedRecs_kept | split)) | split | intro _

theorem selection_kept (g : Nat) (sA : State) (hsA : Kept s0 sA) : Kept s0 (selection g sA) := by
  unfold selection
  try dsimp only
  with_reducible repeat' first | assumption | apply advanceTo_kept | apply countN_kept | apply fallenBack_kept | apply forNat_kept | apply modGrp_kept | apply modQp_kept | apply qpDeadline_kept | apply raiseIf_kept | apply foldl_kept | (apply kept_mk; exact rfl; exact rfl; exact rfl; exact rfl; exact rfl; exact rfl; exact rfl; exact rfl; exact rfl; exact rfl; (first | assumption | apply advanceTo_kept | apply countN_kept | apply fallenBack_kept | apply forNat_kept | apply modGrp_kept | apply modQp_kept | apply qpDeadline_kept | apply raiseIf_kept | apply foldl_kept | split)) | split | intro _

theorem shiftStop_kept (g : Nat) (s : State) (hs : Kept s0 s) : Kept s0 (shiftStop g s) := by
  unfold shiftStop
  try dsimp only
  with_reducible repeat' first | assumption | apply journal_kept | apply modGrp_kept | apply modQp_kept | apply reqStopGrp_kept | (apply kept_mk; exact rfl; exact rfl; exact rfl; exact rfl; exact rfl; exact rfl; exact rfl; exact rfl; exact rfl; exact rfl; (first | assumption | apply journal_kept | apply modGrp_kept | apply modQp_kept | apply reqStopGrp_kept | split)) | split | intro _

theorem qpBoundary_kept (b g : Nat) (s : State) (hs : Kept s0 s) : Kept s0 (qpBoundary b g s) := by
  unfold qpBoundary
  try dsimp only
  with_reducible repeat' first | assumption | apply grpTo_kept | apply modGrp_kept | apply modQp_kept | (apply kept_mk; exact rfl; exact rfl; exact rfl; exact rfl; exact rfl; exact rfl; exact rfl; exact rfl; exact rfl; exact rfl; (first | assumption | apply grpTo_kept | apply modGrp_kept | apply modQp_kept | split)) | split | intro _

theorem replaceShare_kept (s : State) (e : Share) (hs : Kept s0 s) : Kept s0 (replaceShare s e) := by
  unfold replaceShare
  try dsimp only
  with_reducible repeat' first | assumption | apply journal_kept | apply modScen_kept | apply setShares_kept | (apply kept_mk; exact rfl; exact rfl; exact rfl; exact rfl; exact rfl; exact rfl; exact rfl; exact rfl; exact rfl; exact rfl; (first | assumption | apply journal_kept | apply modScen_kept | apply setShares_kept | split)) | split | intro _

theorem replaceLanes_kept (s : State) (hs : Kept s0 s) : Kept s0 (replaceLanes s) := by
  unfold replaceLanes
  try dsimp only
  with_reducible repeat' first | assumption | apply replaceShare_kept | apply foldl_kept | (apply kept_mk; exact rfl; exact rfl; exact rfl; exact rfl; exact rfl; exact rfl; exact rfl; exact rfl; exact rfl; exact rfl; (first | assumption | apply replaceShare_kept | apply foldl_kept | split)) | split | intro _

theorem clearLanes_kept (s : State) (hs : Kept s0 s) : Kept s0 (clearLanes s) := by
  unfold clearLanes
  try dsimp only
  with_reducible repeat' first | assumption | (apply kept_mk; exact rfl; exact rfl; exact rfl; exact rfl; exact rfl; exact rfl; exact rfl; exact rfl; exact rfl; exact rfl; (first | assumption | split)) | split | intro _

theorem laneFault_kept (u : Nat) (s : State) (hs : Kept s0 s) : Kept s0 (laneFault u s) := by
  unfold laneFault
  try dsimp only
  with_reducible repeat' first | assumption | apply count_kept | apply modQp_kept | apply putRes_kept | apply raise_kept | apply setLane_kept | apply taskEnd_kept | apply foldl_kept | (apply kept_mk; exact rfl; exact rfl; exact rfl; exact rfl; exact rfl; exact rfl; exact rfl; exact rfl; exact rfl; exact rfl; (first | assumption | apply count_kept | apply modQp_kept | apply putRes_kept | apply raise_kept | apply setLane_kept | apply taskEnd_kept | apply foldl_kept | split)) | split | intro _

theorem replan_kept (g : Nat) (s : State) (hs : Kept s0 s) : Kept s0 (replan g s) := by
  unfold replan
  try dsimp only
  with_reducible repeat' first | assumption | apply count_kept | apply laneStart_kept | apply modQp_kept | apply modScen_kept | apply setLane_kept | (apply kept_mk; exact rfl; exact rfl; exact rfl; exact rfl; exact rfl; exact rfl; exact rfl; exact rfl; exact rfl; exact rfl; (first | assumption | apply count_kept | apply laneStart_kept | apply modQp_kept | apply modScen_kept | apply setLane_kept | split)) | split | intro _

theorem qpDefineClassSpec_kept  : SpecKept (qpDefineClassSpec ) := by
  refine fun c s => ⟨fun st t ht => ?_, fun t ht => ?_⟩ <;> unfold qpDefineClassSpec <;> (try dsimp only)
  all_goals with_reducible repeat' first | assumption | apply later_kept | apply setShares_kept | apply id_kept | apply later_kept | (apply kept_mk; exact rfl; exact rfl; exact rfl; exact rfl; exact rfl; exact rfl; exact rfl; exact rfl; exact rfl; exact rfl; (first | assumption | apply later_kept | apply setShares_kept | apply id_kept | apply later_kept | split)) | split | intro _

theorem qpRemoveClassSpec_kept  : SpecKept (qpRemoveClassSpec ) := by
  refine fun c s => ⟨fun st t ht => ?_, fun t ht => ?_⟩ <;> unfold qpRemoveClassSpec <;> (try dsimp only)
  all_goals with_reducible repeat' first | assumption | apply id_kept | (apply kept_mk; exact rfl; exact rfl; exact rfl; exact rfl; exact rfl; exact rfl; exact rfl; exact rfl; exact rfl; exact rfl; (first | assumption | apply id_kept | split)) | split | intro _

theorem qpAssignSpec_kept  : SpecKept (qpAssignSpec ) := by
  refine fun c s => ⟨fun st t ht => ?_, fun t ht => ?_⟩ <;> unfold qpAssignSpec <;> (try dsimp only)
  all_goals with_reducible repeat' first | assumption | apply later_kept | apply setShares_kept | apply later_kept | (apply kept_mk; exact rfl; exact rfl; exact rfl; exact rfl; exact rfl; exact rfl; exact rfl; exact rfl; exact rfl; exact rfl; (first | assumption | apply later_kept | apply setShares_kept | apply later_kept | split)) | split | intro _

theorem qpAssignEff_kept (e : Eff) (s : State) (hs : Kept s0 s) : Kept s0 (qpAssignEff e s) := by
  unfold qpAssignEff
  try dsimp only
  with_reducible repeat' first | assumption | apply modGrp_kept | apply modQp_kept | (apply kept_mk; exact rfl; exact rfl; exact rfl; exact rfl; exact rfl; exact rfl; exact rfl; exact rfl; exact rfl; exact rfl; (first | assumption | apply modGrp_kept | apply modQp_kept | split)) | split | intro _

theorem qpConfigureSpec_kept  : SpecKept (qpConfigureSpec ) := by
  refine fun c s => ⟨fun st t ht => ?_, fun t ht => ?_⟩ <;> unfold qpConfigureSpec <;> (try dsimp only)
  all_goals with_reducible repeat' first | assumption | (apply kept_mk; exact rfl; exact rfl; exact rfl; exact rfl; exact rfl; exact rfl; exact rfl; exact rfl; exact rfl; exact rfl; (first | assumption | split)) | split | intro _

theorem qpStatusSpec_kept  : SpecKept (qpStatusSpec ) := by
  refine fun c s => ⟨fun st t ht => ?_, fun t ht => ?_⟩ <;> unfold qpStatusSpec <;> (try dsimp only)
  all_goals with_reducible repeat' first | assumption | (apply kept_mk; exact rfl; exact rfl; exact rfl; exact rfl; exact rfl; exact rfl; exact rfl; exact rfl; exact rfl; exact rfl; (first | assumption | split)) | split | intro _

theorem qpResultSpec_kept  : SpecKept (qpResultSpec ) := by
  refine fun c s => ⟨fun st t ht => ?_, fun t ht => ?_⟩ <;> unfold qpResultSpec <;> (try dsimp only)
  all_goals with_reducible repeat' first | assumption | (apply kept_mk; exact rfl; exact rfl; exact rfl; exact rfl; exact rfl; exact rfl; exact rfl; exact rfl; exact rfl; exact rfl; (first | assumption | split)) | split | intro _

theorem kdeSnap_kept (g : Nat) (s : State) (hs : Kept s0 s) : Kept s0 (kdeSnap g s) := by
  unfold kdeSnap
  try dsimp only
  with_reducible repeat' first | assumption | apply modGrp_kept | (apply kept_mk; exact rfl; exact rfl; exact rfl; exact rfl; exact rfl; exact rfl; exact rfl; exact rfl; exact rfl; exact rfl; (first | assumption | apply modGrp_kept | split)) | split | intro _

theorem unreachable_kept (g tag promise : Nat) (s : State) (hs : Kept s0 s) : Kept s0 (unreachable g tag promise s) := by
  unfold unreachable
  try dsimp only
  with_reducible repeat' first | assumption | apply grpEvent_kept | apply journal_kept | (apply kept_mk; exact rfl; exact rfl; exact rfl; exact rfl; exact rfl; exact rfl; exact rfl; exact rfl; exact rfl; exact rfl; (first | assumption | apply grpEvent_kept | apply journal_kept | split)) | split | intro _

theorem replanMoves_kept (g : Nat) (s : State) (hs : Kept s0 s) : Kept s0 (replanMoves g s) := by
  unfold replanMoves
  try dsimp only
  with_reducible repeat' first | assumption | apply modGrp_kept | (apply kept_mk; exact rfl; exact rfl; exact rfl; exact rfl; exact rfl; exact rfl; exact rfl; exact rfl; exact rfl; exact rfl; (first | assumption | apply modGrp_kept | split)) | split | intro _

theorem strmGives_kept (g : Nat) (s : State) (hs : Kept s0 s) : Kept s0 (strmGives g s) := by
  unfold strmGives
  try dsimp only
  with_reducible repeat' first | assumption | apply modGrp_kept | apply setStrm_kept | (apply kept_mk; exact rfl; exact rfl; exact rfl; exact rfl; exact rfl; exact rfl; exact rfl; exact rfl; exact rfl; exact rfl; (first | assumption | apply modGrp_kept | apply setStrm_kept | split)) | split | intro _

theorem profileMove_kept (g : Nat) (p : List Byte) (target : List Fx) (blend : Fx) (tag promise : Nat) (s : State) (hs : Kept s0 s) : Kept s0 (profileMove g p target blend tag promise s) := by
  unfold profileMove
  try dsimp only
  with_reducible repeat' first | assumption | apply grpTo_kept | apply modGrp_kept | apply preempted_kept | apply strmGives_kept | (apply kept_mk; exact rfl; exact rfl; exact rfl; exact rfl; exact rfl; exact rfl; exact rfl; exact rfl; exact rfl; exact rfl; (first | assumption | apply grpTo_kept | apply modGrp_kept | apply preempted_kept | apply strmGives_kept | split)) | split | intro _

theorem moveEff_kept (e : Eff) (s : State) (hs : Kept s0 s) : Kept s0 (moveEff e s) := by
  unfold moveEff
  try dsimp only
  with_reducible repeat' first | assumption | apply profileMove_kept | (apply kept_mk; exact rfl; exact rfl; exact rfl; exact rfl; exact rfl; exact rfl; exact rfl; exact rfl; exact rfl; exact rfl; (first | assumption | apply profileMove_kept | split)) | split | intro _

theorem poseMoves_kept (g : Nat) (s : State) (hs : Kept s0 s) : Kept s0 (poseMoves g s) := by
  unfold poseMoves
  try dsimp only
  with_reducible repeat' first | assumption | apply modGrp_kept | apply profileMove_kept | apply foldl_kept | (apply kept_mk; exact rfl; exact rfl; exact rfl; exact rfl; exact rfl; exact rfl; exact rfl; exact rfl; exact rfl; exact rfl; (first | assumption | apply modGrp_kept | apply profileMove_kept | apply foldl_kept | split)) | split | intro _

theorem moveSnap_kept (e : Eff) (s : State) (hs : Kept s0 s) : Kept s0 (moveSnap e s) := by
  unfold moveSnap
  try dsimp only
  with_reducible repeat' first | assumption | apply modGrp_kept | apply preempted_kept | apply strmGives_kept | apply unreachable_kept | (apply kept_mk; exact rfl; exact rfl; exact rfl; exact rfl; exact rfl; exact rfl; exact rfl; exact rfl; exact rfl; exact rfl; (first | assumption | apply modGrp_kept | apply preempted_kept | apply strmGives_kept | apply unreachable_kept | split)) | split | intro _

theorem waypointSnap_kept (free : Bool) (g : Nat) (s : State) (hs : Kept s0 s) : Kept s0 (waypointSnap free g s) := by
  unfold waypointSnap
  try dsimp only
  with_reducible repeat' first | assumption | apply modGrp_kept | apply unreachable_kept | (apply kept_mk; exact rfl; exact rfl; exact rfl; exact rfl; exact rfl; exact rfl; exact rfl; exact rfl; exact rfl; exact rfl; (first | assumption | apply modGrp_kept | apply unreachable_kept | split)) | split | intro _

theorem grpSnapshot_kept (s : State) (hs : Kept s0 s) : Kept s0 (grpSnapshot s) := by
  unfold grpSnapshot
  try dsimp only
  with_reducible repeat' first | assumption | apply forNat_kept | apply kdeSnap_kept | apply moveSnap_kept | apply waypointSnap_kept | apply foldl_kept | (apply kept_mk; exact rfl; exact rfl; exact rfl; exact rfl; exact rfl; exact rfl; exact rfl; exact rfl; exact rfl; exact rfl; (first | assumption | apply forNat_kept | apply kdeSnap_kept | apply moveSnap_kept | apply waypointSnap_kept | apply foldl_kept | split)) | split | intro _

theorem groupSettled_kept (g : Nat) (s : State) (hs : Kept s0 s) : Kept s0 (groupSettled g s) := by
  unfold groupSettled
  try dsimp only
  with_reducible repeat' first | assumption | apply modGrp_kept | (apply kept_mk; exact rfl; exact rfl; exact rfl; exact rfl; exact rfl; exact rfl; exact rfl; exact rfl; exact rfl; exact rfl; (first | assumption | apply modGrp_kept | split)) | split | intro _

theorem groupEnableTimeout_kept (g : Nat) (s : State) (hs : Kept s0 s) : Kept s0 (groupEnableTimeout g s) := by
  unfold groupEnableTimeout
  try dsimp only
  with_reducible repeat' first | assumption | apply advanceTo_kept | apply forNat_kept | apply reqFault_kept | apply foldl_kept | (apply kept_mk; exact rfl; exact rfl; exact rfl; exact rfl; exact rfl; exact rfl; exact rfl; exact rfl; exact rfl; exact rfl; (first | assumption | apply advanceTo_kept | apply forNat_kept | apply reqFault_kept | apply foldl_kept | split)) | split | intro _

theorem grpConfigureSpec_kept  : SpecKept (grpConfigureSpec ) := by
  refine fun c s => ⟨fun st t ht => ?_, fun t ht => ?_⟩ <;> unfold grpConfigureSpec <;> (try dsimp only)
  all_goals with_reducible repeat' first | assumption | apply later_kept | apply setShares_kept | apply later_kept | (apply kept_mk; exact rfl; exact rfl; exact rfl; exact rfl; exact rfl; exact rfl; exact rfl; exact rfl; exact rfl; exact rfl; (first | assumption | apply later_kept | apply setShares_kept | apply later_kept | split)) | split | intro _

theorem grpConfigureEff_kept (e : Eff) (s : State) (hs : Kept s0 s) : Kept s0 (grpConfigureEff e s) := by
  unfold grpConfigureEff
  try dsimp only
  with_reducible repeat' first | assumption | apply modGrp_kept | apply modQp_kept | (apply kept_mk; exact rfl; exact rfl; exact rfl; exact rfl; exact rfl; exact rfl; exact rfl; exact rfl; exact rfl; exact rfl; (first | assumption | apply modGrp_kept | apply modQp_kept | split)) | split | intro _

theorem grpEnableSpec_kept  : SpecKept (grpEnableSpec ) := by
  refine fun c s => ⟨fun st t ht => ?_, fun t ht => ?_⟩ <;> unfold grpEnableSpec <;> (try dsimp only)
  all_goals with_reducible repeat' first | assumption | apply later_kept | apply modQp_kept | apply setShares_kept | apply later_kept | (apply kept_mk; exact rfl; exact rfl; exact rfl; exact rfl; exact rfl; exact rfl; exact rfl; exact rfl; exact rfl; exact rfl; (first | assumption | apply later_kept | apply modQp_kept | apply setShares_kept | apply later_kept | split)) | split | intro _

theorem grpEnableEff_kept (e : Eff) (s : State) (hs : Kept s0 s) : Kept s0 (grpEnableEff e s) := by
  unfold grpEnableEff
  try dsimp only
  with_reducible repeat' first | assumption | apply beginEnable_kept | apply forNat_kept | apply freeOpen_kept | apply grpTo_kept | apply modGrp_kept | apply toClosed_kept | (apply kept_mk; exact rfl; exact rfl; exact rfl; exact rfl; exact rfl; exact rfl; exact rfl; exact rfl; exact rfl; exact rfl; (first | assumption | apply beginEnable_kept | apply forNat_kept | apply freeOpen_kept | apply grpTo_kept | apply modGrp_kept | apply toClosed_kept | split)) | split | intro _

theorem grpSimple_kept (op : Nat) (missing : State → Nat → Bool) (ok : State → Nat → Bool) : SpecKept (grpSimple op missing ok) := by
  refine fun c s => ⟨fun st t ht => ?_, fun t ht => ?_⟩ <;> unfold grpSimple <;> (try dsimp only)
  all_goals with_reducible repeat' first | assumption | apply later_kept | apply later_kept | (apply kept_mk; exact rfl; exact rfl; exact rfl; exact rfl; exact rfl; exact rfl; exact rfl; exact rfl; exact rfl; exact rfl; (first | assumption | apply later_kept | apply later_kept | split)) | split | intro _

theorem grpDisableSpec_kept : SpecKept grpDisableSpec := grpSimple_kept _ _ _

theorem grpDisableEff_kept (e : Eff) (s : State) (hs : Kept s0 s) : Kept s0 (grpDisableEff e s) := by
  unfold grpDisableEff
  try dsimp only
  with_reducible repeat' first | assumption | apply forNat_kept | apply toDisabled_kept | apply toIdle_kept | (apply kept_mk; exact rfl; exact rfl; exact rfl; exact rfl; exact rfl; exact rfl; exact rfl; exact rfl; exact rfl; exact rfl; (first | assumption | apply forNat_kept | apply toDisabled_kept | apply toIdle_kept | split)) | split | intro _

theorem grpHoldSpec_kept : SpecKept grpHoldSpec := grpSimple_kept _ _ _

theorem grpHoldEff_kept (e : Eff) (s : State) (hs : Kept s0 s) : Kept s0 (grpHoldEff e s) := by
  unfold grpHoldEff
  try dsimp only
  with_reducible repeat' first | assumption | apply pathStop_kept | (apply kept_mk; exact rfl; exact rfl; exact rfl; exact rfl; exact rfl; exact rfl; exact rfl; exact rfl; exact rfl; exact rfl; (first | assumption | apply pathStop_kept | split)) | split | intro _

theorem grpResumeSpec_kept : SpecKept grpResumeSpec := grpSimple_kept _ _ _

theorem grpResumeEff_kept (e : Eff) (s : State) (hs : Kept s0 s) : Kept s0 (grpResumeEff e s) := by
  unfold grpResumeEff
  try dsimp only
  with_reducible repeat' first | assumption | apply grpTo_kept | apply modGrp_kept | apply preempted_kept | (apply kept_mk; exact rfl; exact rfl; exact rfl; exact rfl; exact rfl; exact rfl; exact rfl; exact rfl; exact rfl; exact rfl; (first | assumption | apply grpTo_kept | apply modGrp_kept | apply preempted_kept | split)) | split | intro _

theorem grpHomeSpec_kept : SpecKept grpHomeSpec := grpSimple_kept _ _ _

theorem grpHomeEff_kept (e : Eff) (s : State) (hs : Kept s0 s) : Kept s0 (grpHomeEff e s) := by
  unfold grpHomeEff
  try dsimp only
  with_reducible repeat' first | assumption | apply beginHome_kept | apply preempted_kept | (apply kept_mk; exact rfl; exact rfl; exact rfl; exact rfl; exact rfl; exact rfl; exact rfl; exact rfl; exact rfl; exact rfl; (first | assumption | apply beginHome_kept | apply preempted_kept | split)) | split | intro _

theorem grpClearSpec_kept : SpecKept grpClearSpec := grpSimple_kept _ _ _

theorem grpClearEff_kept (e : Eff) (s : State) (hs : Kept s0 s) : Kept s0 (grpClearEff e s) := by
  unfold grpClearEff
  try dsimp only
  with_reducible repeat' first | assumption | apply forNat_kept | apply grpTo_kept | apply modGrp_kept | apply resetMotion_kept | apply toHeld_kept | apply toIdle_kept | (apply kept_mk; exact rfl; exact rfl; exact rfl; exact rfl; exact rfl; exact rfl; exact rfl; exact rfl; exact rfl; exact rfl; (first | assumption | apply forNat_kept | apply grpTo_kept | apply modGrp_kept | apply resetMotion_kept | apply toHeld_kept | apply toIdle_kept | split)) | split | intro _

theorem grpSetPayloadSpec_kept  : SpecKept (grpSetPayloadSpec ) := by
  refine fun c s => ⟨fun st t ht => ?_, fun t ht => ?_⟩ <;> unfold grpSetPayloadSpec <;> (try dsimp only)
  all_goals with_reducible repeat' first | assumption | apply later_kept | apply later_kept | (apply kept_mk; exact rfl; exact rfl; exact rfl; exact rfl; exact rfl; exact rfl; exact rfl; exact rfl; exact rfl; exact rfl; (first | assumption | apply later_kept | apply later_kept | split)) | split | intro _

theorem setPayloadEff_kept (e : Eff) (s : State) (hs : Kept s0 s) : Kept s0 (setPayloadEff e s) := by
  unfold setPayloadEff
  try dsimp only
  with_reducible repeat' first | assumption | apply grpEvent_kept | apply modGrp_kept | (apply kept_mk; exact rfl; exact rfl; exact rfl; exact rfl; exact rfl; exact rfl; exact rfl; exact rfl; exact rfl; exact rfl; (first | assumption | apply grpEvent_kept | apply modGrp_kept | split)) | split | intro _

theorem grpStopSpec_kept  : SpecKept (grpStopSpec ) := by
  refine fun c s => ⟨fun st t ht => ?_, fun t ht => ?_⟩ <;> unfold grpStopSpec <;> (try dsimp only)
  all_goals with_reducible repeat' first | assumption | apply later_kept | apply later_kept | (apply kept_mk; exact rfl; exact rfl; exact rfl; exact rfl; exact rfl; exact rfl; exact rfl; exact rfl; exact rfl; exact rfl; (first | assumption | apply later_kept | apply later_kept | split)) | split | intro _

theorem grpMoveSpec_kept  : SpecKept (grpMoveSpec ) := by
  refine fun c s => ⟨fun st t ht => ?_, fun t ht => ?_⟩ <;> unfold grpMoveSpec <;> (try dsimp only)
  all_goals with_reducible repeat' first | assumption | (apply kept_mk; exact rfl; exact rfl; exact rfl; exact rfl; exact rfl; exact rfl; exact rfl; exact rfl; exact rfl; exact rfl; (first | assumption | split)) | split | intro _

theorem axisSetLimitsSpec_kept  : SpecKept (axisSetLimitsSpec ) := by
  refine fun c s => ⟨fun st t ht => ?_, fun t ht => ?_⟩ <;> unfold axisSetLimitsSpec <;> (try dsimp only)
  all_goals with_reducible repeat' first | assumption | apply post_kept | apply raise_kept | (apply kept_mk; exact rfl; exact rfl; exact rfl; exact rfl; exact rfl; exact rfl; exact rfl; exact rfl; exact rfl; exact rfl; (first | assumption | apply post_kept | apply raise_kept | split)) | split | intro _

theorem grpStatusSpec_kept  : SpecKept (grpStatusSpec ) := by
  refine fun c s => ⟨fun st t ht => ?_, fun t ht => ?_⟩ <;> unfold grpStatusSpec <;> (try dsimp only)
  all_goals with_reducible repeat' first | assumption | (apply kept_mk; exact rfl; exact rfl; exact rfl; exact rfl; exact rfl; exact rfl; exact rfl; exact rfl; exact rfl; exact rfl; (first | assumption | split)) | split | intro _

theorem setSes_kept (k : Nat) (x : Session) (s : State) (hs : Kept s0 s) : Kept s0 (setSes k x s) := by
  unfold setSes
  try dsimp only
  with_reducible repeat' first | assumption | (apply kept_mk; exact rfl; exact rfl; exact rfl; exact rfl; exact rfl; exact rfl; exact rfl; exact rfl; exact rfl; exact rfl; (first | assumption | split)) | split | intro _

theorem setInj_kept (a : Nat) (x : Option Inject) (s : State) (hs : Kept s0 s) : Kept s0 (setInj a x s) := by
  unfold setInj
  try dsimp only
  with_reducible repeat' first | assumption | (apply kept_mk; exact rfl; exact rfl; exact rfl; exact rfl; exact rfl; exact rfl; exact rfl; exact rfl; exact rfl; exact rfl; (first | assumption | split)) | split | intro _

theorem writeRow_kept (k : Nat) (x : Session) (row : List Int) (s : State) (hs : Kept s0 s) : Kept s0 (writeRow k x row s) := by
  unfold writeRow
  try dsimp only
  with_reducible repeat' first | assumption | apply raise_kept | apply raiseIf_kept | apply setSes_kept | (apply kept_mk; exact rfl; exact rfl; exact rfl; exact rfl; exact rfl; exact rfl; exact rfl; exact rfl; exact rfl; exact rfl; (first | assumption | apply raise_kept | apply raiseIf_kept | apply setSes_kept | split)) | split | intro _

theorem sessionCadence_kept (occ : BitVec 128) (k : Nat) (s : State) (hs : Kept s0 s) : Kept s0 (sessionCadence occ k s) := by
  unfold sessionCadence
  try dsimp only
  with_reducible repeat' first | assumption | apply setSes_kept | apply writeRow_kept | (apply kept_mk; exact rfl; exact rfl; exact rfl; exact rfl; exact rfl; exact rfl; exact rfl; exact rfl; exact rfl; exact rfl; (first | assumption | apply setSes_kept | apply writeRow_kept | split)) | split | intro _

theorem traceCadence_kept (s : State) (hs : Kept s0 s) : Kept s0 (traceCadence s) := by
  unfold traceCadence
  try dsimp only
  with_reducible repeat' first | assumption | apply forNat_kept | apply sessionCadence_kept | (apply kept_mk; exact rfl; exact rfl; exact rfl; exact rfl; exact rfl; exact rfl; exact rfl; exact rfl; exact rfl; exact rfl; (first | assumption | apply forNat_kept | apply sessionCadence_kept | split)) | split | intro _

theorem freeTriggers_kept (k : Nat) (s : State) (hs : Kept s0 s) : Kept s0 (freeTriggers k s) := by
  unfold freeTriggers
  try dsimp only
  with_reducible repeat' first | assumption | apply freeUnits_kept | (apply kept_mk; exact rfl; exact rfl; exact rfl; exact rfl; exact rfl; exact rfl; exact rfl; exact rfl; exact rfl; exact rfl; (first | assumption | apply freeUnits_kept | split)) | split | intro _

theorem trcFull_kept (k : Nat) (s : State) (hs : Kept s0 s) : Kept s0 (trcFull k s) := by
  unfold trcFull
  try dsimp only
  with_reducible repeat' first | assumption | apply freeTriggers_kept | apply raise_kept | apply setSes_kept | (apply kept_mk; exact rfl; exact rfl; exact rfl; exact rfl; exact rfl; exact rfl; exact rfl; exact rfl; exact rfl; exact rfl; (first | assumption | apply freeTriggers_kept | apply raise_kept | apply setSes_kept | split)) | split | intro _

theorem traceFault_kept (k row c : Nat) (s : State) (hs : Kept s0 s) : Kept s0 (traceFault k row c s) := by
  unfold traceFault
  try dsimp only
  with_reducible repeat' first | assumption | apply freeTriggers_kept | apply setSes_kept | (apply kept_mk; exact rfl; exact rfl; exact rfl; exact rfl; exact rfl; exact rfl; exact rfl; exact rfl; exact rfl; exact rfl; (first | assumption | apply freeTriggers_kept | apply setSes_kept | split)) | split | intro _

theorem trigger_kept (k : Nat) (s : State) (hs : Kept s0 s) : Kept s0 (trigger k s) := by
  unfold trigger
  try dsimp only
  with_reducible repeat' first | assumption | apply raise_kept | apply setSes_kept | (apply kept_mk; exact rfl; exact rfl; exact rfl; exact rfl; exact rfl; exact rfl; exact rfl; exact rfl; exact rfl; exact rfl; (first | assumption | apply raise_kept | apply setSes_kept | split)) | split | intro _

theorem triggerDropped_kept (k : Nat) (s : State) (hs : Kept s0 s) : Kept s0 (triggerDropped k s) := by
  unfold triggerDropped
  try dsimp only
  with_reducible repeat' first | assumption | apply setSes_kept | (apply kept_mk; exact rfl; exact rfl; exact rfl; exact rfl; exact rfl; exact rfl; exact rfl; exact rfl; exact rfl; exact rfl; (first | assumption | apply setSes_kept | split)) | split | intro _

theorem injValue_kept (a : Nat) (s : State) (hs : Kept s0 s) : Kept s0 (injValue a s) := by
  unfold injValue
  try dsimp only
  with_reducible repeat' first | assumption | apply setInj_kept | (apply kept_mk; exact rfl; exact rfl; exact rfl; exact rfl; exact rfl; exact rfl; exact rfl; exact rfl; exact rfl; exact rfl; (first | assumption | apply setInj_kept | split)) | split | intro _

theorem injAdvance_kept (a : Nat) (s : State) (hs : Kept s0 s) : Kept s0 (injAdvance a s) := by
  unfold injAdvance
  try dsimp only
  with_reducible repeat' first | assumption | apply setInj_kept | (apply kept_mk; exact rfl; exact rfl; exact rfl; exact rfl; exact rfl; exact rfl; exact rfl; exact rfl; exact rfl; exact rfl; (first | assumption | apply setInj_kept | split)) | split | intro _

theorem chargeInj_kept (a : Nat) (on : Bool) (s : State) (hs : Kept s0 s) : Kept s0 (chargeInj a on s) := by
  unfold chargeInj
  try dsimp only
  with_reducible repeat' first | assumption | apply setShares_kept | (apply kept_mk; exact rfl; exact rfl; exact rfl; exact rfl; exact rfl; exact rfl; exact rfl; exact rfl; exact rfl; exact rfl; (first | assumption | apply setShares_kept | split)) | split | intro _

theorem injEnd_kept (a reason : Nat) (s : State) (hs : Kept s0 s) : Kept s0 (injEnd a reason s) := by
  unfold injEnd
  try dsimp only
  with_reducible repeat' first | assumption | apply chargeInj_kept | apply complete_kept | apply raise_kept | apply setInj_kept | (apply kept_mk; exact rfl; exact rfl; exact rfl; exact rfl; exact rfl; exact rfl; exact rfl; exact rfl; exact rfl; exact rfl; (first | assumption | apply chargeInj_kept | apply complete_kept | apply raise_kept | apply setInj_kept | split)) | split | intro _

theorem stopInj_kept (a : Nat) (s : State) (hs : Kept s0 s) : Kept s0 (stopInj a s) := by
  unfold stopInj
  try dsimp only
  with_reducible repeat' first | assumption | apply injEnd_kept | (apply kept_mk; exact rfl; exact rfl; exact rfl; exact rfl; exact rfl; exact rfl; exact rfl; exact rfl; exact rfl; exact rfl; (first | assumption | apply injEnd_kept | split)) | split | intro _

theorem injCadence_kept (s : State) (hs : Kept s0 s) : Kept s0 (injCadence s) := by
  unfold injCadence
  try dsimp only
  with_reducible repeat' first | assumption | apply forNat_kept | apply injEnd_kept | apply setInj_kept | (apply kept_mk; exact rfl; exact rfl; exact rfl; exact rfl; exact rfl; exact rfl; exact rfl; exact rfl; exact rfl; exact rfl; (first | assumption | apply forNat_kept | apply injEnd_kept | apply setInj_kept | split)) | split | intro _

theorem injComplete_kept (a : Nat) (s : State) (hs : Kept s0 s) : Kept s0 (injComplete a s) := by
  unfold injComplete
  try dsimp only
  with_reducible repeat' first | assumption | apply injEnd_kept | (apply kept_mk; exact rfl; exact rfl; exact rfl; exact rfl; exact rfl; exact rfl; exact rfl; exact rfl; exact rfl; exact rfl; (first | assumption | apply injEnd_kept | split)) | split | intro _

theorem frfComplete_kept (s : State) (hs : Kept s0 s) : Kept s0 (frfComplete s) := by
  unfold frfComplete
  try dsimp only
  with_reducible repeat' first | assumption | apply complete_kept | (apply kept_mk; exact rfl; exact rfl; exact rfl; exact rfl; exact rfl; exact rfl; exact rfl; exact rfl; exact rfl; exact rfl; (first | assumption | apply complete_kept | split)) | split | intro _

theorem traceConfigureSpec_kept  : SpecKept (traceConfigureSpec ) := by
  refine fun c s => ⟨fun st t ht => ?_, fun t ht => ?_⟩ <;> unfold traceConfigureSpec <;> (try dsimp only)
  all_goals with_reducible repeat' first | assumption | apply setSes_kept | (apply kept_mk; exact rfl; exact rfl; exact rfl; exact rfl; exact rfl; exact rfl; exact rfl; exact rfl; exact rfl; exact rfl; (first | assumption | apply setSes_kept | split)) | split | intro _

theorem traceSetLengthSpec_kept  : SpecKept (traceSetLengthSpec ) := by
  refine fun c s => ⟨fun st t ht => ?_, fun t ht => ?_⟩ <;> unfold traceSetLengthSpec <;> (try dsimp only)
  all_goals with_reducible repeat' first | assumption | apply setSes_kept | (apply kept_mk; exact rfl; exact rfl; exact rfl; exact rfl; exact rfl; exact rfl; exact rfl; exact rfl; exact rfl; exact rfl; (first | assumption | apply setSes_kept | split)) | split | intro _

theorem traceArmSpec_kept  : SpecKept (traceArmSpec ) := by
  refine fun c s => ⟨fun st t ht => ?_, fun t ht => ?_⟩ <;> unfold traceArmSpec <;> (try dsimp only)
  all_goals with_reducible repeat' first | assumption | apply arm_kept | apply later_kept | apply later_kept | (apply kept_mk; exact rfl; exact rfl; exact rfl; exact rfl; exact rfl; exact rfl; exact rfl; exact rfl; exact rfl; exact rfl; (first | assumption | apply arm_kept | apply later_kept | apply later_kept | split)) | split | intro _

theorem traceArmEff_kept (e : Eff) (s : State) (hs : Kept s0 s) : Kept s0 (traceArmEff e s) := by
  unfold traceArmEff
  try dsimp only
  with_reducible repeat' first | assumption | apply raise_kept | apply setSes_kept | (apply kept_mk; exact rfl; exact rfl; exact rfl; exact rfl; exact rfl; exact rfl; exact rfl; exact rfl; exact rfl; exact rfl; (first | assumption | apply raise_kept | apply setSes_kept | split)) | split | intro _

theorem traceTriggerSpec_kept  : SpecKept (traceTriggerSpec ) := by
  refine fun c s => ⟨fun st t ht => ?_, fun t ht => ?_⟩ <;> unfold traceTriggerSpec <;> (try dsimp only)
  all_goals with_reducible repeat' first | assumption | apply arm_kept | (apply kept_mk; exact rfl; exact rfl; exact rfl; exact rfl; exact rfl; exact rfl; exact rfl; exact rfl; exact rfl; exact rfl; (first | assumption | apply arm_kept | split)) | split | intro _

theorem traceStopSpec_kept  : SpecKept (traceStopSpec ) := by
  refine fun c s => ⟨fun st t ht => ?_, fun t ht => ?_⟩ <;> unfold traceStopSpec <;> (try dsimp only)
  all_goals with_reducible repeat' first | assumption | apply later_kept | apply later_kept | (apply kept_mk; exact rfl; exact rfl; exact rfl; exact rfl; exact rfl; exact rfl; exact rfl; exact rfl; exact rfl; exact rfl; (first | assumption | apply later_kept | apply later_kept | split)) | split | intro _

theorem traceStopEff_kept (e : Eff) (s : State) (hs : Kept s0 s) : Kept s0 (traceStopEff e s) := by
  unfold traceStopEff
  try dsimp only
  with_reducible repeat' first | assumption | apply freeTriggers_kept | apply setSes_kept | (apply kept_mk; exact rfl; exact rfl; exact rfl; exact rfl; exact rfl; exact rfl; exact rfl; exact rfl; exact rfl; exact rfl; (first | assumption | apply freeTriggers_kept | apply setSes_kept | split)) | split | intro _

theorem traceStatusSpec_kept  : SpecKept (traceStatusSpec ) := by
  refine fun c s => ⟨fun st t ht => ?_, fun t ht => ?_⟩ <;> unfold traceStatusSpec <;> (try dsimp only)
  all_goals with_reducible repeat' first | assumption | (apply kept_mk; exact rfl; exact rfl; exact rfl; exact rfl; exact rfl; exact rfl; exact rfl; exact rfl; exact rfl; exact rfl; (first | assumption | split)) | split | intro _

theorem traceReadSpec_kept  : SpecKept (traceReadSpec ) := by
  refine fun c s => ⟨fun st t ht => ?_, fun t ht => ?_⟩ <;> unfold traceReadSpec <;> (try dsimp only)
  all_goals with_reducible repeat' first | assumption | apply setSes_kept | (apply kept_mk; exact rfl; exact rfl; exact rfl; exact rfl; exact rfl; exact rfl; exact rfl; exact rfl; exact rfl; exact rfl; (first | assumption | apply setSes_kept | split)) | split | intro _

theorem traceInjectSpec_kept  : SpecKept (traceInjectSpec ) := by
  refine fun c s => ⟨fun st t ht => ?_, fun t ht => ?_⟩ <;> unfold traceInjectSpec <;> (try dsimp only)
  all_goals with_reducible repeat' first | assumption | apply chargeInj_kept | apply setInj_kept | apply foldl_kept | (apply kept_mk; exact rfl; exact rfl; exact rfl; exact rfl; exact rfl; exact rfl; exact rfl; exact rfl; exact rfl; exact rfl; (first | assumption | apply chargeInj_kept | apply setInj_kept | apply foldl_kept | split)) | split | intro _

theorem traceInjectStopSpec_kept  : SpecKept (traceInjectStopSpec ) := by
  refine fun c s => ⟨fun st t ht => ?_, fun t ht => ?_⟩ <;> unfold traceInjectStopSpec <;> (try dsimp only)
  all_goals with_reducible repeat' first | assumption | apply later_kept | apply post_kept | apply setInj_kept | apply later_kept | (apply kept_mk; exact rfl; exact rfl; exact rfl; exact rfl; exact rfl; exact rfl; exact rfl; exact rfl; exact rfl; exact rfl; (first | assumption | apply later_kept | apply post_kept | apply setInj_kept | apply later_kept | split)) | split | intro _

theorem injectStopEff_kept (e : Eff) (s : State) (hs : Kept s0 s) : Kept s0 (injectStopEff e s) := by
  unfold injectStopEff
  try dsimp only
  with_reducible repeat' first | assumption | apply injEnd_kept | (apply kept_mk; exact rfl; exact rfl; exact rfl; exact rfl; exact rfl; exact rfl; exact rfl; exact rfl; exact rfl; exact rfl; (first | assumption | apply injEnd_kept | split)) | split | intro _

theorem traceFrfSpec_kept  : SpecKept (traceFrfSpec ) := by
  refine fun c s => ⟨fun st t ht => ?_, fun t ht => ?_⟩ <;> unfold traceFrfSpec <;> (try dsimp only)
  all_goals with_reducible repeat' first | assumption | apply later_kept | apply later_kept | (apply kept_mk; exact rfl; exact rfl; exact rfl; exact rfl; exact rfl; exact rfl; exact rfl; exact rfl; exact rfl; exact rfl; (first | assumption | apply later_kept | apply later_kept | split)) | split | intro _

theorem toDieF_kept (r : JRec) (s : State) (hs : Kept s0 s) : Kept s0 (toDieF r s) := by
  unfold toDieF
  try dsimp only
  with_reducible repeat' first | assumption | apply xsend_kept | (apply kept_mk; exact rfl; exact rfl; exact rfl; exact rfl; exact rfl; exact rfl; exact rfl; exact rfl; exact rfl; exact rfl; (first | assumption | apply xsend_kept | split)) | split | intro _

theorem journalSend_kept (s : State) (hs : Kept s0 s) : Kept s0 (journalSend s) := by
  unfold journalSend
  try dsimp only
  with_reducible repeat' first | assumption | apply count_kept | apply journal_kept | apply toDieF_kept | (apply kept_mk; exact rfl; exact rfl; exact rfl; exact rfl; exact rfl; exact rfl; exact rfl; exact rfl; exact rfl; exact rfl; (first | assumption | apply count_kept | apply journal_kept | apply toDieF_kept | split)) | split | intro _

theorem journalWrite_kept (s : State) (hs : Kept s0 s) : Kept s0 (journalWrite s) := by
  unfold journalWrite
  try dsimp only
  with_reducible repeat' first | assumption | apply count_kept | apply raiseIf_kept | (apply kept_mk; exact rfl; exact rfl; exact rfl; exact rfl; exact rfl; exact rfl; exact rfl; exact rfl; exact rfl; exact rfl; (first | assumption | apply count_kept | apply raiseIf_kept | split)) | split | intro _

theorem holdupWindowEnd_kept (s : State) (hs : Kept s0 s) : Kept s0 (holdupWindowEnd s) := by
  unfold holdupWindowEnd
  try dsimp only
  with_reducible repeat' first | assumption | (apply kept_mk; exact rfl; exact rfl; exact rfl; exact rfl; exact rfl; exact rfl; exact rfl; exact rfl; exact rfl; exact rfl; (first | assumption | split)) | split | intro _

theorem holdupDone_kept (s : State) (hs : Kept s0 s) : Kept s0 (holdupDone s) := by
  unfold holdupDone
  try dsimp only
  with_reducible repeat' first | assumption | apply journalF_kept | apply journalWrite_kept | (apply kept_mk; exact rfl; exact rfl; exact rfl; exact rfl; exact rfl; exact rfl; exact rfl; exact rfl; exact rfl; exact rfl; (first | assumption | apply journalF_kept | apply journalWrite_kept | split)) | split | intro _

theorem holdupCheck_kept (c : BitVec 16) (s : State) (hs : Kept s0 s) : Kept s0 (holdupCheck c s) := by
  unfold holdupCheck
  try dsimp only
  with_reducible repeat' first | assumption | apply journalF_kept | apply raise_kept | (apply kept_mk; exact rfl; exact rfl; exact rfl; exact rfl; exact rfl; exact rfl; exact rfl; exact rfl; exact rfl; exact rfl; (first | assumption | apply journalF_kept | apply raise_kept | split)) | split | intro _

theorem eraseDone_kept (s : State) (hs : Kept s0 s) : Kept s0 (eraseDone s) := by
  unfold eraseDone
  try dsimp only
  with_reducible repeat' first | assumption | (apply kept_mk; exact rfl; exact rfl; exact rfl; exact rfl; exact rfl; exact rfl; exact rfl; exact rfl; exact rfl; exact rfl; (first | assumption | split)) | split | intro _

theorem jrnStatusSpec_kept  : SpecKept (jrnStatusSpec ) := by
  refine fun c s => ⟨fun st t ht => ?_, fun t ht => ?_⟩ <;> unfold jrnStatusSpec <;> (try dsimp only)
  all_goals with_reducible repeat' first | assumption | apply deviceFault_kept | (apply kept_mk; exact rfl; exact rfl; exact rfl; exact rfl; exact rfl; exact rfl; exact rfl; exact rfl; exact rfl; exact rfl; (first | assumption | apply deviceFault_kept | split)) | split | intro _

theorem jrnReadSpec_kept  : SpecKept (jrnReadSpec ) := by
  refine fun c s => ⟨fun st t ht => ?_, fun t ht => ?_⟩ <;> unfold jrnReadSpec <;> (try dsimp only)
  all_goals with_reducible repeat' first | assumption | apply deviceFault_kept | (apply kept_mk; exact rfl; exact rfl; exact rfl; exact rfl; exact rfl; exact rfl; exact rfl; exact rfl; exact rfl; exact rfl; (first | assumption | apply deviceFault_kept | split)) | split | intro _

theorem jrnChallengeSpec_kept  : SpecKept (jrnChallengeSpec ) := by
  refine fun c s => ⟨fun st t ht => ?_, fun t ht => ?_⟩ <;> unfold jrnChallengeSpec <;> (try dsimp only)
  all_goals with_reducible repeat' first | assumption | apply freeNext_kept | (apply kept_mk; exact rfl; exact rfl; exact rfl; exact rfl; exact rfl; exact rfl; exact rfl; exact rfl; exact rfl; exact rfl; (first | assumption | apply freeNext_kept | split)) | split | intro _

theorem jrnTruncateSpec_kept  : SpecKept (jrnTruncateSpec ) := by
  refine fun c s => ⟨fun st t ht => ?_, fun t ht => ?_⟩ <;> unfold jrnTruncateSpec <;> (try dsimp only)
  all_goals with_reducible repeat' first | assumption | apply journal_kept | (apply kept_mk; exact rfl; exact rfl; exact rfl; exact rfl; exact rfl; exact rfl; exact rfl; exact rfl; exact rfl; exact rfl; (first | assumption | apply journal_kept | split)) | split | intro _

theorem jrnConfigureSpec_kept  : SpecKept (jrnConfigureSpec ) := by
  refine fun c s => ⟨fun st t ht => ?_, fun t ht => ?_⟩ <;> unfold jrnConfigureSpec <;> (try dsimp only)
  all_goals with_reducible repeat' first | assumption | (apply kept_mk; exact rfl; exact rfl; exact rfl; exact rfl; exact rfl; exact rfl; exact rfl; exact rfl; exact rfl; exact rfl; (first | assumption | split)) | split | intro _

theorem jrnAnnotateSpec_kept  : SpecKept (jrnAnnotateSpec ) := by
  refine fun c s => ⟨fun st t ht => ?_, fun t ht => ?_⟩ <;> unfold jrnAnnotateSpec <;> (try dsimp only)
  all_goals with_reducible repeat' first | assumption | apply journalRec_kept | (apply kept_mk; exact rfl; exact rfl; exact rfl; exact rfl; exact rfl; exact rfl; exact rfl; exact rfl; exact rfl; exact rfl; (first | assumption | apply journalRec_kept | split)) | split | intro _

end Sys2Proof.Machine
end

