-- ==== Sys2Proof/Laws/KeptMachine.lean ====
section
/-!
SUPPORT. `Kept` for the functions of faults, boot, counters, the cadence and the command table.
-/
namespace Sys2Proof.Machine

set_option Elab.async false
set_option linter.all false

variable {s0 : State}

theorem enterFault_kept (source code : Nat) (s : State) (hs : Kept s0 s) : Kept s0 (enterFault source code s) := by
  refine kept_dev _ s hs (.refl _) (fun _ => rfl) (fun _ h => ?_) (fun _ _ => rfl) id
  exact if_neg h

theorem deviceFault_kept (source code : Nat) (noCore : Bool) (s : State) (hs : Kept s0 s) : Kept s0 (deviceFault source code noCore s) := by
  unfold deviceFault
  split
  · exact hs
  · extract_lets r s1
    have h1 : Kept s0 s1 := by
      simp only [s1]; split
      · exact toDieF_kept _ _ hs
      · exact journalRec_kept _ _ hs
    clear_value s1
    have key : ∀ (u : State) (x : XlinkSt), Kept s0 u → x.lost = u.xl.lost → Kept s0 { u with xl := x } :=
      fun u x h e => kept_mk rfl rfl rfl rfl rfl rfl rfl rfl e rfl h
    exact enterFault_kept _ _ _ (kept_dev _ _ (key s1 _ h1 rfl) (.refl _) id (fun _ _ => rfl) (fun _ => id) (fun _ => rfl))

theorem xlinkLostM_kept (source code : Nat) (s : State) (hs : Kept s0 s) : Kept s0 (xlinkLostM source code s) := by
  unfold xlinkLostM
  try dsimp only
  with_reducible repeat' first | assumption | apply enterFault_kept | apply forNat_kept | apply noteReason_kept | apply raise_kept | apply reqStopGrp_kept | apply setGov_kept | apply takeStops_kept | (apply kept_mk; exact rfl; exact rfl; exact rfl; exact rfl; exact rfl; exact rfl; exact rfl; exact rfl; exact rfl; exact rfl; (first | assumption | apply enterFault_kept | apply forNat_kept | apply noteReason_kept | apply raise_kept | apply reqStopGrp_kept | apply setGov_kept | apply takeStops_kept | split)) | split | intro _

theorem xlinkLostF_kept (source code : Nat) (s : State) (hs : Kept s0 s) : Kept s0 (xlinkLostF source code s) := by
  unfold xlinkLostF
  try dsimp only
  with_reducible repeat' first | assumption | apply enterSafe_kept | apply journalF_kept | (apply kept_mk; exact rfl; exact rfl; exact rfl; exact rfl; exact rfl; exact rfl; exact rfl; exact rfl; exact rfl; exact rfl; (first | assumption | apply enterSafe_kept | apply journalF_kept | split)) | split | intro _

theorem dieFCause_kept (source code : Nat) (s : State) (hs : Kept s0 s) : Kept s0 (dieFCause source code s) := by
  unfold dieFCause
  split
  · exact hs
  · exact xlinkLostM_kept _ _ _ (xlinkLostF_kept _ _ _ (freeUnits_kept _ _
      (hs.trans ⟨.refl _, .refl _, .refl _, rfl, .refl _, id, fun _ _ => rfl, fun _ => id, fun _ => rfl, id⟩)))

theorem xlinkLoss_kept (source code : Nat) (s : State) (hs : Kept s0 s) : Kept s0 (xlinkLoss source code s) := by
  unfold xlinkLoss
  split
  · exact dieFCause_kept _ _ _ hs
  · exact hs

theorem xlinkFlit_kept (d : Die) (f : List Byte) (s : State) (hs : Kept s0 s) : Kept s0 (xlinkFlit d f s) := by
  unfold xlinkFlit
  try dsimp only
  with_reducible repeat' first | assumption | apply count_kept | apply setDir_kept | apply xacked_kept | apply xsendFlit_kept | (apply kept_mk; exact rfl; exact rfl; exact rfl; exact rfl; exact rfl; exact rfl; exact rfl; exact rfl; exact rfl; exact rfl; (first | assumption | apply count_kept | apply setDir_kept | apply xacked_kept | apply xsendFlit_kept | split)) | split | intro _

theorem xlinkNak_kept (d : Die) (seq : BitVec 12) (s : State) (hs : Kept s0 s) : Kept s0 (xlinkNak d seq s) := by
  unfold xlinkNak
  try dsimp only
  with_reducible repeat' first | assumption | apply count_kept | apply journal_kept | apply raise_kept | apply setDir_kept | apply xlinkLoss_kept | apply xreplay_kept | (apply kept_mk; exact rfl; exact rfl; exact rfl; exact rfl; exact rfl; exact rfl; exact rfl; exact rfl; exact rfl; exact rfl; (first | assumption | apply count_kept | apply journal_kept | apply raise_kept | apply setDir_kept | apply xlinkLoss_kept | apply xreplay_kept | split)) | split | intro _

theorem timeAlign_kept (err : BitVec 8) (s : State) (hs : Kept s0 s) : Kept s0 (timeAlign err s) := by
  unfold timeAlign
  try dsimp only
  with_reducible repeat' first | assumption | (apply kept_mk; exact rfl; exact rfl; exact rfl; exact rfl; exact rfl; exact rfl; exact rfl; exact rfl; exact rfl; exact rfl; (first | assumption | split)) | split | intro _

theorem eccCorrected_kept (spoke : Nat) (s : State) (hs : Kept s0 s) : Kept s0 (eccCorrected spoke s) := by
  unfold eccCorrected
  try dsimp only
  with_reducible repeat' first | assumption | apply count_kept | apply freeNext_kept | apply raiseIf_kept | (apply kept_mk; exact rfl; exact rfl; exact rfl; exact rfl; exact rfl; exact rfl; exact rfl; exact rfl; exact rfl; exact rfl; (first | assumption | apply count_kept | apply freeNext_kept | apply raiseIf_kept | split)) | split | intro _

theorem tileFault_kept (t : Nat) (s : State) (hs : Kept s0 s) : Kept s0 (tileFault t s) := by
  unfold tileFault
  try dsimp only
  with_reducible repeat' first | assumption | apply forNat_kept | apply journal_kept | apply reqFault_kept | apply taskEnd_kept | (apply kept_mk; exact rfl; exact rfl; exact rfl; exact rfl; exact rfl; exact rfl; exact rfl; exact rfl; exact rfl; exact rfl; (first | assumption | apply forNat_kept | apply journal_kept | apply reqFault_kept | apply taskEnd_kept | split)) | split | intro _

theorem planningFault_kept (groups : BitVec 16) (s : State) (hs : Kept s0 s) : Kept s0 (planningFault groups s) := by
  unfold planningFault
  try dsimp only
  with_reducible repeat' first | assumption | apply forNat_kept | apply journal_kept | apply modGrp_kept | (apply kept_mk; exact rfl; exact rfl; exact rfl; exact rfl; exact rfl; exact rfl; exact rfl; exact rfl; exact rfl; exact rfl; (first | assumption | apply forNat_kept | apply journal_kept | apply modGrp_kept | split)) | split | intro _

theorem streamFault_kept (k : Nat) (s : State) (hs : Kept s0 s) : Kept s0 (streamFault k s) := by
  unfold streamFault
  try dsimp only
  with_reducible repeat' first | assumption | apply journal_kept | apply strmUnderrun_kept | (apply kept_mk; exact rfl; exact rfl; exact rfl; exact rfl; exact rfl; exact rfl; exact rfl; exact rfl; exact rfl; exact rfl; (first | assumption | apply journal_kept | apply strmUnderrun_kept | split)) | split | intro _

theorem busFault_kept (k st : Nat) (s : State) (hs : Kept s0 s) : Kept s0 (busFault k st s) := by
  unfold busFault
  try dsimp only
  with_reducible repeat' first | assumption | apply forNat_kept | apply journal_kept | apply modAxis_kept | apply setSeg_kept | (apply kept_mk; exact rfl; exact rfl; exact rfl; exact rfl; exact rfl; exact rfl; exact rfl; exact rfl; exact rfl; exact rfl; (first | assumption | apply forNat_kept | apply journal_kept | apply modAxis_kept | apply setSeg_kept | split)) | split | intro _

theorem eccReaction_kept (o : EccOwner) (s : State) (hs : Kept s0 s) : Kept s0 (eccReaction o s) := by
  unfold eccReaction modDev
  try dsimp only
  with_reducible repeat' first | assumption | apply busFault_kept | apply complete_kept | apply count_kept | apply deviceFault_kept | apply journal_kept | apply journalF_kept | apply laneFault_kept | apply modDev_kept | apply planningFault_kept | apply raise_kept | apply sigPoison_kept | apply streamFault_kept | apply tileFault_kept | apply traceFault_kept | (apply kept_mk; exact rfl; exact rfl; exact rfl; exact rfl; exact rfl; exact rfl; exact rfl; exact rfl; exact rfl; exact rfl; (first | assumption | apply busFault_kept | apply complete_kept | apply count_kept | apply deviceFault_kept | apply journal_kept | apply journalF_kept | apply laneFault_kept | apply modDev_kept | apply planningFault_kept | apply raise_kept | apply sigPoison_kept | apply streamFault_kept | apply tileFault_kept | apply traceFault_kept | split)) | split | intro _

theorem eccUncorrectable_kept (o : EccOwner) (s : State) (hs : Kept s0 s) : Kept s0 (eccUncorrectable o s) := by
  unfold eccUncorrectable
  try dsimp only
  with_reducible repeat' first | assumption | apply count_kept | apply eccReaction_kept | apply raise_kept | (apply kept_mk; exact rfl; exact rfl; exact rfl; exact rfl; exact rfl; exact rfl; exact rfl; exact rfl; exact rfl; exact rfl; (first | assumption | apply count_kept | apply eccReaction_kept | apply raise_kept | split)) | split | intro _

theorem thermWarn_kept (s : State) (hs : Kept s0 s) : Kept s0 (thermWarn s) := by
  unfold thermWarn modDev
  try dsimp only
  with_reducible repeat' first | assumption | apply journal_kept | apply modDev_kept | apply raise_kept | (apply kept_mk; exact rfl; exact rfl; exact rfl; exact rfl; exact rfl; exact rfl; exact rfl; exact rfl; exact rfl; exact rfl; (first | assumption | apply journal_kept | apply modDev_kept | apply raise_kept | split)) | split | intro _

theorem thermCrit_kept (s : State) (hs : Kept s0 s) : Kept s0 (thermCrit s) := by
  unfold thermCrit modDev
  try dsimp only
  with_reducible repeat' first | assumption | apply journal_kept | apply modDev_kept | apply raise_kept | apply reqStopAll_kept | (apply kept_mk; exact rfl; exact rfl; exact rfl; exact rfl; exact rfl; exact rfl; exact rfl; exact rfl; exact rfl; exact rfl; (first | assumption | apply journal_kept | apply modDev_kept | apply raise_kept | apply reqStopAll_kept | split)) | split | intro _

theorem holdupBegin_kept (s : State) (hs : Kept s0 s) : Kept s0 (holdupBegin s) := by
  unfold holdupBegin
  try dsimp only
  with_reducible repeat' first | assumption | apply journalF_kept | apply pinsOff_kept | (apply kept_mk; exact rfl; exact rfl; exact rfl; exact rfl; exact rfl; exact rfl; exact rfl; exact rfl; exact rfl; exact rfl; (first | assumption | apply journalF_kept | apply pinsOff_kept | split)) | split | intro _

theorem pfailAssert_kept (s : State) (hs : Kept s0 s) : Kept s0 (pfailAssert s) := by
  unfold pfailAssert modDev
  split
  · exact hs
  · extract_lets s1 s2 s3
    have h1 : Kept s0 s1 := kept_mk rfl rfl rfl rfl rfl rfl rfl rfl rfl rfl hs
    have h2 : Kept s0 s2 := by
      simp only [s2]; split
      · exact h1
      · exact holdupBegin_kept _ h1
    clear_value s2
    split
    · exact h2
    · exact forNat_kept _ _ _ (fun n t h => stpRamp_kept _ _ _ h) (raise_kept _ _ (reqStopAll_kept _ _ (kept_mk rfl rfl rfl rfl rfl rfl rfl rfl rfl rfl h2)))

theorem pwrWarn_kept (r : Rail) (s : State) (hs : Kept s0 s) : Kept s0 (pwrWarn r s) := by
  unfold pwrWarn
  try dsimp only
  with_reducible repeat' first | assumption | apply journal_kept | apply journalF_kept | apply raise_kept | (apply kept_mk; exact rfl; exact rfl; exact rfl; exact rfl; exact rfl; exact rfl; exact rfl; exact rfl; exact rfl; exact rfl; (first | assumption | apply journal_kept | apply journalF_kept | apply raise_kept | split)) | split | intro _

theorem orphanAll_kept (s : State) (hs : Kept s0 s) : Kept s0 (orphanAll s) := by
  unfold orphanAll
  try dsimp only
  with_reducible repeat' first | assumption | (apply kept_mk; exact rfl; exact rfl; exact rfl; exact rfl; exact rfl; exact rfl; exact rfl; exact rfl; exact rfl; exact rfl; (first | assumption | split)) | split | intro _

theorem verifyReport_kept (st : Status) (s : State) (hs : Kept s0 s) : Kept s0 (verifyReport st s) := by
  unfold verifyReport
  try dsimp only
  with_reducible repeat' first | assumption | apply journal_kept | apply raise_kept | (apply kept_mk; exact rfl; exact rfl; exact rfl; exact rfl; exact rfl; exact rfl; exact rfl; exact rfl; exact rfl; exact rfl; (first | assumption | apply journal_kept | apply raise_kept | split)) | split | intro _

theorem flushF_kept (n : Nat) (s : State) (hs : Kept s0 s) : Kept s0 (flushF n s) := by
  induction n generalizing s with
  | zero => exact hs
  | succ n ih => exact ih _ (journalWrite_kept _ hs)

theorem modRec_kept (f : BootRec → BootRec) (s : State) (hs : Kept s0 s) : Kept s0 (modRec f s) := by
  unfold modRec modDev
  try dsimp only
  with_reducible repeat' first | assumption | apply modDev_kept | (apply kept_mk; exact rfl; exact rfl; exact rfl; exact rfl; exact rfl; exact rfl; exact rfl; exact rfl; exact rfl; exact rfl; (first | assumption | apply modDev_kept | split)) | split | intro _

theorem writeRec_kept (f : BootRec → BootRec) (s : State) (hs : Kept s0 s) : Kept s0 (writeRec f s) := by
  unfold writeRec modDev
  try dsimp only
  with_reducible repeat' first | assumption | apply count_kept | apply modRec_kept | (apply kept_mk; exact rfl; exact rfl; exact rfl; exact rfl; exact rfl; exact rfl; exact rfl; exact rfl; exact rfl; exact rfl; (first | assumption | apply count_kept | apply modRec_kept | split)) | split | intro _

theorem kept_devMode (d : DevSt) (s : State) (hs : Kept s0 s) (hm : s0.dev.mode ≠ .fault) (hf : d.fuses = s.dev.fuses) (hz : d.frozen = s.dev.frozen) : Kept s0 { s with dev := d } :=
  ⟨hs.host, hs.evt, hs.hub, hs.pending, hs.fuses.trans (hf ▸ .refl _), fun h => absurd h hm, fun h => absurd h hm, fun h => absurd h hm, hs.lost, fun h => hz.trans (hs.frozen h)⟩

theorem enterKickstand_kept (reason : Nat) (s : State) (hs : Kept s0 s) (hm : s0.dev.mode ≠ .fault) : Kept s0 (enterKickstand reason s) :=
  raise_kept _ _ (kept_devMode _ _ (journal_kept _ _ _ _ _ _ _ (writeRec_kept _ _ hs)) hm rfl rfl)

theorem bootRule_kept (s : State) (hs : Kept s0 s) (hm : s0.dev.mode ≠ .fault) : Kept s0 (bootRule s) := by
  unfold bootRule modDev
  try dsimp only
  with_reducible repeat' first | assumption | apply enterKickstand_kept | apply journal_kept | apply modDev_kept | apply modRec_kept | apply writeRec_kept | (apply kept_mk; exact rfl; exact rfl; exact rfl; exact rfl; exact rfl; exact rfl; exact rfl; exact rfl; exact rfl; exact rfl; (first | assumption | apply enterKickstand_kept | apply journal_kept | apply modDev_kept | apply modRec_kept | apply writeRec_kept | split)) | split | intro _

theorem xlinkUp_kept (s : State) (hs : Kept s0 s) (hm : s0.dev.mode ≠ .fault) : Kept s0 (xlinkUp s) := by
  unfold xlinkUp
  try dsimp only
  with_reducible repeat' first | assumption | apply bootRule_kept | (apply kept_mk; exact rfl; exact rfl; exact rfl; exact rfl; exact rfl; exact rfl; exact rfl; exact rfl; exact rfl; exact rfl; (first | assumption | apply bootRule_kept | split)) | split | intro _

theorem xlinkTrainTimeout_kept (s : State) (hs : Kept s0 s) (hm : s0.dev.mode ≠ .fault) : Kept s0 (xlinkTrainTimeout s) := by
  unfold xlinkTrainTimeout
  split
  · exact hs
  · extract_lets t src s1
    have h0 : Kept s0 t := advanceTo_kept _ _ hs
    have h1 : Kept s0 s1 := journalF_kept _ _ _ _ _ _ _ (writeRec_kept _ _ (by
      have e : t.xl.lost = s.xl.lost := by simp only [t, advanceTo]; split <;> rfl
      exact kept_mk rfl rfl rfl rfl rfl rfl rfl rfl e.symm rfl h0))
    clear_value s1
    exact raise_kept _ _ (kept_devMode _ _ h1 hm rfl rfl)

theorem lpddrTrained_kept (s : State) (hs : Kept s0 s) : Kept s0 (lpddrTrained s) := by
  unfold lpddrTrained modDev
  try dsimp only
  with_reducible repeat' first | assumption | apply modDev_kept | (apply kept_mk; exact rfl; exact rfl; exact rfl; exact rfl; exact rfl; exact rfl; exact rfl; exact rfl; exact rfl; exact rfl; (first | assumption | apply modDev_kept | split)) | split | intro _

theorem takeImage_kept (slot : Nat) (c : List Byte) (s : State) (hs : Kept s0 s) : Kept s0 (takeImage slot c s) := by
  unfold takeImage modDev
  try dsimp only
  with_reducible repeat' first | assumption | apply modDev_kept | (apply kept_mk; exact rfl; exact rfl; exact rfl; exact rfl; exact rfl; exact rfl; exact rfl; exact rfl; exact rfl; exact rfl; (first | assumption | apply modDev_kept | split)) | split | intro _

theorem containerLoaded_kept (s : State) (hs : Kept s0 s) (hm : s0.dev.mode ≠ .fault) : Kept s0 (containerLoaded s) := by
  unfold containerLoaded modDev
  try dsimp only
  with_reducible repeat' first | assumption | apply enterKickstand_kept | apply modDev_kept | apply takeImage_kept | apply verifyReport_kept | apply writeRec_kept | (apply kept_mk; exact rfl; exact rfl; exact rfl; exact rfl; exact rfl; exact rfl; exact rfl; exact rfl; exact rfl; exact rfl; (first | assumption | apply enterKickstand_kept | apply modDev_kept | apply takeImage_kept | apply verifyReport_kept | apply writeRec_kept | split)) | split | intro _

theorem stagedImage_kept (s : State) (hs : Kept s0 s) (hm : s0.dev.mode ≠ .fault) : Kept s0 (stagedImage s) := by
  unfold stagedImage modDev
  try dsimp only
  with_reducible repeat' first | assumption | apply enterKickstand_kept | apply modDev_kept | apply takeImage_kept | apply verifyReport_kept | (apply kept_mk; exact rfl; exact rfl; exact rfl; exact rfl; exact rfl; exact rfl; exact rfl; exact rfl; exact rfl; exact rfl; (first | assumption | apply enterKickstand_kept | apply modDev_kept | apply takeImage_kept | apply verifyReport_kept | split)) | split | intro _

theorem handover_kept (s : State) (hs : Kept s0 s) (hm : s0.dev.mode ≠ .fault) : Kept s0 (handover s) := by
  unfold handover
  split
  · exact hs
  · exact kept_devMode _ _ hs hm rfl rfl

theorem lpddrDone_kept (s : State) (hs : Kept s0 s) : Kept s0 (lpddrDone s) := by
  unfold lpddrDone modDev
  try dsimp only
  with_reducible repeat' first | assumption | apply modDev_kept | (apply kept_mk; exact rfl; exact rfl; exact rfl; exact rfl; exact rfl; exact rfl; exact rfl; exact rfl; exact rfl; exact rfl; (first | assumption | apply modDev_kept | split)) | split | intro _

theorem placeMirror_kept (s : State) (hs : Kept s0 s) : Kept s0 (placeMirror s) := by
  unfold placeMirror
  try dsimp only
  with_reducible repeat' first | assumption | apply setShares_kept | (apply kept_mk; exact rfl; exact rfl; exact rfl; exact rfl; exact rfl; exact rfl; exact rfl; exact rfl; exact rfl; exact rfl; (first | assumption | apply setShares_kept | split)) | split | intro _

theorem bootRun_kept (s : State) (hs : Kept s0 s) (hm : s0.dev.mode ≠ .fault) : Kept s0 (bootRun s) := by
  unfold bootRun; dsimp only
  split
  · exact hs
  · split
    · exact kept_mk rfl rfl rfl rfl rfl rfl rfl rfl rfl rfl (writeRec_kept (fun r => { r with kick := 0x06 }) _ (verifyReport_kept _ _ hs))
    · exact raise_kept _ _ (placeMirror_kept _ (kept_devMode _ _ hs hm rfl rfl))

theorem watchdogReset_kept (span : Nat) (sA : State) (hsA : Kept s0 sA) : Kept s0 (watchdogReset span sA) := by
  unfold watchdogReset modDev
  try dsimp only
  with_reducible repeat' first | assumption | apply advanceTo_kept | apply journalF_kept | apply modDev_kept | apply writeRec_kept | (apply kept_mk; exact rfl; exact rfl; exact rfl; exact rfl; exact rfl; exact rfl; exact rfl; exact rfl; exact rfl; exact rfl; (first | assumption | apply advanceTo_kept | apply journalF_kept | apply modDev_kept | apply writeRec_kept | split)) | split | intro _

theorem romWatchdog_kept (s : State) (hs : Kept s0 s) : Kept s0 (romWatchdog s) := by
  unfold romWatchdog
  split
  · exact watchdogReset_kept _ _ hs
  · exact hs

theorem initWatchdog_kept (s : State) (hs : Kept s0 s) : Kept s0 (initWatchdog s) := by
  unfold initWatchdog
  split
  · exact watchdogReset_kept _ _ hs
  · exact hs

theorem modDev_kept (f : DevSt → DevSt) (s : State) (hs : Kept s0 s)
    (hf : ∀ d, (f d).fuses = d.fuses ∧ (f d).mode = d.mode ∧ (f d).faultCause = d.faultCause ∧ (f d).faultN = d.faultN ∧ (f d).frozen = d.frozen) : Kept s0 (modDev f s) := by
  obtain ⟨a, b, c, d, e⟩ := hf s.dev
  exact kept_dev _ s hs (a ▸ .refl _) (fun h => b.trans h) (fun _ _ => c) (fun _ h => d.trans h) (fun h => e.trans h)

theorem bootUnconfirmed_kept (s : State) (hs : Kept s0 s) : Kept s0 (bootUnconfirmed s) := by
  unfold bootUnconfirmed
  split
  · exact hs
  · exact raise_kept _ _ (modDev_kept _ _ (advanceTo_kept _ _ hs) (fun _ => ⟨rfl, rfl, rfl, rfl, rfl⟩))

theorem devBootStatusSpec_kept  : SpecKept (devBootStatusSpec ) := by
  refine fun c s => ⟨fun st t ht => ?_, fun t ht => ?_⟩ <;> unfold devBootStatusSpec <;> (try dsimp only)
  all_goals with_reducible repeat' first | assumption | (apply kept_mk; exact rfl; exact rfl; exact rfl; exact rfl; exact rfl; exact rfl; exact rfl; exact rfl; exact rfl; exact rfl; (first | assumption | split)) | split | intro _

theorem devResetSpec_kept  : SpecKept (devResetSpec ) := by
  refine fun c s => ⟨fun st t ht => ?_, fun t ht => ?_⟩ <;> unfold devResetSpec modDev <;> (try dsimp only)
  all_goals with_reducible repeat' first | assumption | apply modDev_kept | apply reqStopAll_kept | apply writeRec_kept | (apply kept_mk; exact rfl; exact rfl; exact rfl; exact rfl; exact rfl; exact rfl; exact rfl; exact rfl; exact rfl; exact rfl; (first | assumption | apply modDev_kept | apply reqStopAll_kept | apply writeRec_kept | split)) | split | intro _

theorem devConfirmBootSpec_kept  : SpecKept (devConfirmBootSpec ) := by
  refine fun c s => ⟨fun st t ht => ?_, fun t ht => ?_⟩ <;> unfold devConfirmBootSpec modDev <;> (try dsimp only)
  all_goals with_reducible repeat' first | assumption | apply modDev_kept | apply writeRec_kept | (apply kept_mk; exact rfl; exact rfl; exact rfl; exact rfl; exact rfl; exact rfl; exact rfl; exact rfl; exact rfl; exact rfl; (first | assumption | apply modDev_kept | apply writeRec_kept | split)) | split | intro _

theorem devLoadImageSpec_kept  : SpecKept (devLoadImageSpec ) := by
  refine fun c s => ⟨fun st t ht => ?_, fun t ht => ?_⟩ <;> unfold devLoadImageSpec modDev <;> (try dsimp only)
  all_goals with_reducible repeat' first | assumption | apply later_kept | apply modDev_kept | apply verifyReport_kept | apply later_kept | (apply kept_mk; exact rfl; exact rfl; exact rfl; exact rfl; exact rfl; exact rfl; exact rfl; exact rfl; exact rfl; exact rfl; (first | assumption | apply later_kept | apply modDev_kept | apply verifyReport_kept | apply later_kept | split)) | split | intro _

theorem devUpdateFwSpec_kept  : SpecKept (devUpdateFwSpec ) := by
  refine fun c s => ⟨fun st t ht => ?_, fun t ht => ?_⟩ <;> unfold devUpdateFwSpec modDev <;> (try dsimp only)
  all_goals with_reducible repeat' first | assumption | apply later_kept | apply modDev_kept | apply verifyReport_kept | apply later_kept | (apply kept_mk; exact rfl; exact rfl; exact rfl; exact rfl; exact rfl; exact rfl; exact rfl; exact rfl; exact rfl; exact rfl; (first | assumption | apply later_kept | apply modDev_kept | apply verifyReport_kept | apply later_kept | split)) | split | intro _

theorem fwUpdateDone_kept (s : State) (hs : Kept s0 s) : Kept s0 (fwUpdateDone s) := by
  unfold fwUpdateDone modDev
  try dsimp only
  with_reducible repeat' first | assumption | apply complete_kept | apply deviceFault_kept | apply journal_kept | apply modDev_kept | apply raise_kept | apply writeRec_kept | (apply kept_mk; exact rfl; exact rfl; exact rfl; exact rfl; exact rfl; exact rfl; exact rfl; exact rfl; exact rfl; exact rfl; (first | assumption | apply complete_kept | apply deviceFault_kept | apply journal_kept | apply modDev_kept | apply raise_kept | apply writeRec_kept | split)) | split | intro _

theorem secAttestSpec_kept  : SpecKept (secAttestSpec ) := by
  refine fun c s => ⟨fun st t ht => ?_, fun t ht => ?_⟩ <;> unfold secAttestSpec <;> (try dsimp only)
  all_goals with_reducible repeat' first | assumption | apply freeNext_kept | (apply kept_mk; exact rfl; exact rfl; exact rfl; exact rfl; exact rfl; exact rfl; exact rfl; exact rfl; exact rfl; exact rfl; (first | assumption | apply freeNext_kept | split)) | split | intro _

theorem secGetCertSpec_kept  : SpecKept (secGetCertSpec ) := by
  refine fun c s => ⟨fun st t ht => ?_, fun t ht => ?_⟩ <;> unfold secGetCertSpec <;> (try dsimp only)
  all_goals with_reducible repeat' first | assumption | apply deviceFault_kept | (apply kept_mk; exact rfl; exact rfl; exact rfl; exact rfl; exact rfl; exact rfl; exact rfl; exact rfl; exact rfl; exact rfl; (first | assumption | apply deviceFault_kept | split)) | split | intro _

theorem secFuseStatusSpec_kept  : SpecKept (secFuseStatusSpec ) := by
  refine fun c s => ⟨fun st t ht => ?_, fun t ht => ?_⟩ <;> unfold secFuseStatusSpec <;> (try dsimp only)
  all_goals with_reducible repeat' first | assumption | (apply kept_mk; exact rfl; exact rfl; exact rfl; exact rfl; exact rfl; exact rfl; exact rfl; exact rfl; exact rfl; exact rfl; (first | assumption | split)) | split | intro _

theorem modFuses_kept (f : Fuses → Fuses) (s : State) (hs : Kept s0 s) (hf : ∀ g, FusesLe g (f g)) : Kept s0 (modFuses f s) :=
  kept_dev _ s hs (hf _) id (fun _ _ => rfl) (fun _ => id) id

theorem secSetOwnerSpec_kept : SpecKept secSetOwnerSpec :=
  fun _ _ => ⟨fun _ _ h => h, fun _ h => journal_kept _ _ _ _ _ _ _ (modFuses_kept _ _ h (fun _ =>
    ⟨id, fun h => by simp [h], fun h => by simp [h], id, id, fun _ => id⟩))⟩

theorem secRevokeOwnerSpec_kept : SpecKept secRevokeOwnerSpec :=
  fun _ _ => ⟨fun _ _ h => h, fun _ h => journal_kept _ _ _ _ _ _ _ (modFuses_kept _ _ h (fun _ =>
    ⟨id, id, id, fun _ => rfl, id, fun _ => id⟩))⟩

theorem secAdvanceSvnSpec_kept : SpecKept secAdvanceSvnSpec :=
  fun _ _ => ⟨fun _ _ h => h, fun _ h => journal_kept _ _ _ _ _ _ _ (modFuses_kept _ _ h (fun _ =>
    ⟨id, id, id, id, id, fun i h => by simp [h]⟩))⟩

theorem secRevokeVendorSpec_kept : SpecKept secRevokeVendorSpec :=
  fun _ _ => ⟨fun _ _ h => h, fun _ h => journal_kept _ _ _ _ _ _ _ (modFuses_kept _ _ h (fun _ =>
    ⟨fun _ => rfl, id, id, id, id, fun _ => id⟩))⟩

theorem timingOf_kept (p : List Byte) (s : State) (hs : Kept s0 s) : Kept s0 (timingOf p s) := by
  unfold timingOf
  try dsimp only
  with_reducible repeat' first | assumption | (apply kept_mk; exact rfl; exact rfl; exact rfl; exact rfl; exact rfl; exact rfl; exact rfl; exact rfl; exact rfl; exact rfl; (first | assumption | split)) | split | intro _

theorem busSetTimingSpec_kept  : SpecKept (busSetTimingSpec ) := by
  refine fun c s => ⟨fun st t ht => ?_, fun t ht => ?_⟩ <;> unfold busSetTimingSpec <;> (try dsimp only)
  all_goals with_reducible repeat' first | assumption | apply timingOf_kept | (apply kept_mk; exact rfl; exact rfl; exact rfl; exact rfl; exact rfl; exact rfl; exact rfl; exact rfl; exact rfl; exact rfl; (first | assumption | apply timingOf_kept | split)) | split | intro _

theorem busConfigureSegmentSpec_kept  : SpecKept (busConfigureSegmentSpec ) := by
  refine fun c s => ⟨fun st t ht => ?_, fun t ht => ?_⟩ <;> unfold busConfigureSegmentSpec <;> (try dsimp only)
  all_goals with_reducible repeat' first | assumption | apply phySetup_kept | apply setSeg_kept | (apply kept_mk; exact rfl; exact rfl; exact rfl; exact rfl; exact rfl; exact rfl; exact rfl; exact rfl; exact rfl; exact rfl; (first | assumption | apply phySetup_kept | apply setSeg_kept | split)) | split | intro _

theorem kept_hubFree (n : Nat) (e : HubSt) (s : State) (hs : Kept s0 s) (he : KeptU s.hub e) : Kept s0 { s with free := n, hub := e } :=
  hs.trans ⟨.refl _, .refl _, he, rfl, .refl _, id, fun _ _ => rfl, fun _ => id, id, id⟩

theorem latch_kept (s : State) (hs : Kept s0 s) : Kept s0 (latch s) := by
  unfold latch
  split
  · exact hs
  · have key : ∀ (u : State) (n a b c d : Nat) (x y : Bool) (e : BitVec 16) (f g k : Nat) (w : Word), Kept s0 u → Kept s0 { u with
        free := n
        hub := { u.hub with latchNo := w, lastLatch := a, latched := x, skipped := b, dumpDue := y, latchTime := c, latchCad := d,
                            latchEpoch := e, latchP := f, periodInForce := g, cadInForce := k } } :=
      fun u _ _ _ _ _ _ _ _ _ _ _ _ h => kept_hubFree _ _ u h ⟨id, rfl, rfl, rfl, rfl⟩
    exact key _ _ _ _ _ _ _ _ _ _ _ _ _ (foldl_kept _ _ (fun u i h => setSpoke_kept _ _ _ h) _ (advanceTo_kept _ _ hs))

theorem hubDump_kept (arrived : Bool) (s : State) (hs : Kept s0 s) : Kept s0 (hubDump arrived s) := by
  unfold hubDump
  split
  · exact hs
  · extract_lets valid body bytes due s1 s2 s3 src s4
    have h1 : Kept s0 s1 := bar2Write_kept _ _ _ (by
      split
      · exact hs
      · exact advanceTo_kept _ _ hs) (by omega)
    clear_value s1
    have h2 : Kept s0 s2 := by
      simp only [s2]; split
      · exact emit_kept _ _ _ _ h1
      · exact h1
    clear_value s2
    have h3 : Kept s0 s3 := foldl_kept _ _ (fun u i h => setSpoke_kept _ _ _ h) _ h2
    have h4 : Kept s0 s4 := ⟨h3.host, h3.evt, ⟨fun h => ⟨(h3.hub.ok h).1, (h3.hub.ok h).2.1, (h3.hub.ok h).2.2.1, (h3.hub.ok h).2.2.2.1,
      (by have := (hs.hub.ok h).2.2.2.2; omega : (s.hub.wr + 8192) % 524288 % 8192 = 0), (by omega : (s.hub.wr + 8192) % 524288 < 524288)⟩,
      h3.hub.period, h3.hub.rd, h3.hub.enable, h3.hub.mirror⟩, h3.pending, h3.fuses, h3.fault, h3.cause, h3.faultN, h3.lost, h3.frozen⟩
    clear_value s4
    exact raiseIf_kept _ _ _ (raiseIf_kept _ _ _ (raise_kept _ _ h4))

theorem hubMirrorErr_kept (s : State) (hs : Kept s0 s) : Kept s0 (hubMirrorErr s) := by
  unfold hubMirrorErr; split
  · exact raise_kept _ _ (kept_hub _ s hs ⟨id, rfl, rfl, rfl, rfl⟩)
  · exact hs

theorem pcSelectSpec_kept  : SpecKept (pcSelectSpec ) := by
  refine fun c s => ⟨fun st t ht => ?_, fun t ht => ?_⟩ <;> unfold pcSelectSpec <;> (try dsimp only)
  all_goals with_reducible repeat' first | assumption | apply setSpoke_kept | apply foldl_kept | (apply kept_mk; exact rfl; exact rfl; exact rfl; exact rfl; exact rfl; exact rfl; exact rfl; exact rfl; exact rfl; exact rfl; (first | assumption | apply setSpoke_kept | apply foldl_kept | split)) | split | intro _

theorem pcSpokeInfoSpec_kept  : SpecKept (pcSpokeInfoSpec ) := by
  refine fun c s => ⟨fun st t ht => ?_, fun t ht => ?_⟩ <;> unfold pcSpokeInfoSpec <;> (try dsimp only)
  all_goals with_reducible repeat' first | assumption | (apply kept_mk; exact rfl; exact rfl; exact rfl; exact rfl; exact rfl; exact rfl; exact rfl; exact rfl; exact rfl; exact rfl; (first | assumption | split)) | split | intro _

theorem mirrorUpdate_kept (s : State) (hs : Kept s0 s) : Kept s0 (mirrorUpdate s) :=
  bar2Write_kept _ _ _ (kept_host { s.host with mirrorSeq := s.host.mirrorSeq + 2 } s hs ⟨id, rfl, rfl, rfl, rfl, rfl, fun _ _ => rfl, fun _ _ => .inl rfl⟩) (by decide)

theorem runEffs_kept (t : Nat) (p : Eff → Bool) (f : Eff → State → State) (s : State) (hf : ∀ e u, Kept s0 u → Kept s0 (f e u)) (hs : Kept s0 s) :
    Kept s0 (runEffs t p f s) :=
  foldl_kept _ _ (fun u e h => hf e u h) _ (kept_mk (s := s) rfl rfl rfl rfl rfl rfl rfl rfl rfl rfl hs)

theorem brokenPromise_kept (e : Eff) (s : State) (hs : Kept s0 s) : Kept s0 (brokenPromise e s) := by
  unfold brokenPromise
  try dsimp only
  with_reducible repeat' first | assumption | apply journal_kept | apply raise_kept | apply stpEvent_kept | (apply kept_mk; exact rfl; exact rfl; exact rfl; exact rfl; exact rfl; exact rfl; exact rfl; exact rfl; exact rfl; exact rfl; (first | assumption | apply journal_kept | apply raise_kept | apply stpEvent_kept | split)) | split | intro _

theorem keepPromise_kept (f : Eff → State → State) (e : Eff) (s : State) (kf : ∀ a0 t, Kept s0 t → Kept s0 (f a0 t)) (hs : Kept s0 s) :
    Kept s0 (keepPromise f e s) := by
  unfold keepPromise
  split
  · exact kf _ _ hs
  · exact brokenPromise_kept _ _ (kf _ _ hs)

theorem beginCadence_kept (s : State) (hs : Kept s0 s) : Kept s0 (beginCadence s) := by
  unfold beginCadence
  try dsimp only
  with_reducible repeat' first | assumption | apply advanceTo_kept | apply count_kept | (apply kept_mk; exact rfl; exact rfl; exact rfl; exact rfl; exact rfl; exact rfl; exact rfl; exact rfl; exact rfl; exact rfl; (first | assumption | apply advanceTo_kept | apply count_kept | split)) | split | intro _

theorem frozenFrames_kept (s : State) (hs : Kept s0 s) : Kept s0 (frozenFrames s) := by
  unfold frozenFrames
  try dsimp only
  with_reducible repeat' first | assumption | apply cadenceFrame_kept | apply forNat_kept | (apply kept_mk; exact rfl; exact rfl; exact rfl; exact rfl; exact rfl; exact rfl; exact rfl; exact rfl; exact rfl; exact rfl; (first | assumption | apply cadenceFrame_kept | apply forNat_kept | split)) | split | intro _

theorem timeCadence_kept (s : State) (hs : Kept s0 s) : Kept s0 (timeCadence s) := by
  unfold timeCadence
  try dsimp only
  with_reducible repeat' first | assumption | apply gmCadence_kept | apply pelCadence_kept | apply pelStopEff_kept | apply runEffs_kept | apply setPlantEff_kept | apply slewCadence_kept | (apply kept_mk; exact rfl; exact rfl; exact rfl; exact rfl; exact rfl; exact rfl; exact rfl; exact rfl; exact rfl; exact rfl; (first | assumption | apply gmCadence_kept | apply pelCadence_kept | apply pelStopEff_kept | apply runEffs_kept | apply setPlantEff_kept | apply slewCadence_kept | split)) | split | intro _

theorem conditionsCadence_kept (s : State) (hs : Kept s0 s) : Kept s0 (conditionsCadence s) := by
  unfold conditionsCadence
  try dsimp only
  with_reducible repeat' first | assumption | apply axisConditions_kept | apply driveFault_kept | apply forNat_kept | apply groupConditions_kept | apply modAxis_kept | (apply kept_mk; exact rfl; exact rfl; exact rfl; exact rfl; exact rfl; exact rfl; exact rfl; exact rfl; exact rfl; exact rfl; (first | assumption | apply axisConditions_kept | apply driveFault_kept | apply forNat_kept | apply groupConditions_kept | apply modAxis_kept | split)) | split | intro _

theorem faultsCadence_kept (s : State) (hs : Kept s0 s) : Kept s0 (faultsCadence s) := by
  unfold faultsCadence
  try dsimp only
  with_reducible repeat' first | assumption | apply faultAxis_kept | apply faultGroup_kept | apply forNat_kept | apply modAxis_kept | apply modGrp_kept | apply ungroupedFaultStop_kept | (apply kept_mk; exact rfl; exact rfl; exact rfl; exact rfl; exact rfl; exact rfl; exact rfl; exact rfl; exact rfl; exact rfl; (first | assumption | apply faultAxis_kept | apply faultGroup_kept | apply forNat_kept | apply modAxis_kept | apply modGrp_kept | apply ungroupedFaultStop_kept | split)) | split | intro _

theorem takeAxisStops_kept (a : Nat) (s : State) (hs : Kept s0 s) : Kept s0 (takeAxisStops a s) := by
  unfold takeAxisStops
  try dsimp only
  with_reducible repeat' first | assumption | apply modAxis_kept | apply stopAxis_kept | apply stopInj_kept | apply foldl_kept | (apply kept_mk; exact rfl; exact rfl; exact rfl; exact rfl; exact rfl; exact rfl; exact rfl; exact rfl; exact rfl; exact rfl; (first | assumption | apply modAxis_kept | apply stopAxis_kept | apply stopInj_kept | apply foldl_kept | split)) | split | intro _

theorem takeGroupStops_kept (g : Nat) (s : State) (hs : Kept s0 s) : Kept s0 (takeGroupStops g s) := by
  unfold takeGroupStops
  try dsimp only
  with_reducible repeat' first | assumption | apply forNat_kept | apply stopInj_kept | apply takeStops_kept | (apply kept_mk; exact rfl; exact rfl; exact rfl; exact rfl; exact rfl; exact rfl; exact rfl; exact rfl; exact rfl; exact rfl; (first | assumption | apply forNat_kept | apply stopInj_kept | apply takeStops_kept | split)) | split | intro _

theorem stopsCadence_kept (s : State) (hs : Kept s0 s) : Kept s0 (stopsCadence s) := by
  unfold stopsCadence
  try dsimp only
  with_reducible repeat' first | assumption | apply forNat_kept | apply runEffs_kept | apply stopAxis_kept | apply stopGroup_kept | apply stopInj_kept | apply takeAxisStops_kept | apply takeGroupStops_kept | (apply kept_mk; exact rfl; exact rfl; exact rfl; exact rfl; exact rfl; exact rfl; exact rfl; exact rfl; exact rfl; exact rfl; (first | assumption | apply forNat_kept | apply runEffs_kept | apply stopAxis_kept | apply stopGroup_kept | apply stopInj_kept | apply takeAxisStops_kept | apply takeGroupStops_kept | split)) | split | intro _

theorem limitsFollow_kept (a : Nat) (s : State) (hs : Kept s0 s) : Kept s0 (limitsFollow a s) := by
  unfold limitsFollow
  try dsimp only
  with_reducible repeat' first | assumption | apply forNat_kept | apply modAxis_kept | apply replanMoves_kept | (apply kept_mk; exact rfl; exact rfl; exact rfl; exact rfl; exact rfl; exact rfl; exact rfl; exact rfl; exact rfl; exact rfl; (first | assumption | apply forNat_kept | apply modAxis_kept | apply replanMoves_kept | split)) | split | intro _

theorem limitsEff_kept (e : Eff) (s : State) (hs : Kept s0 s) : Kept s0 (limitsEff e s) := by
  unfold limitsEff
  try dsimp only
  with_reducible repeat' first | assumption | apply axisEff_kept | apply limitsFollow_kept | (apply kept_mk; exact rfl; exact rfl; exact rfl; exact rfl; exact rfl; exact rfl; exact rfl; exact rfl; exact rfl; exact rfl; (first | assumption | apply axisEff_kept | apply limitsFollow_kept | split)) | split | intro _

theorem limitsTakeover_kept (a : Nat) (s : State) (hs : Kept s0 s) : Kept s0 (limitsTakeover a s) := by
  unfold limitsTakeover
  try dsimp only
  with_reducible repeat' first | assumption | apply deferredLimits_kept | apply limitsFollow_kept | (apply kept_mk; exact rfl; exact rfl; exact rfl; exact rfl; exact rfl; exact rfl; exact rfl; exact rfl; exact rfl; exact rfl; (first | assumption | apply deferredLimits_kept | apply limitsFollow_kept | split)) | split | intro _

theorem writesCadence_kept (s : State) (hs : Kept s0 s) : Kept s0 (writesCadence s) := by
  unfold writesCadence
  try dsimp only
  with_reducible repeat' first | assumption | apply limitsEff_kept | apply loopEff_kept | apply runEffs_kept | (apply kept_mk; exact rfl; exact rfl; exact rfl; exact rfl; exact rfl; exact rfl; exact rfl; exact rfl; exact rfl; exact rfl; (first | assumption | apply limitsEff_kept | apply loopEff_kept | apply runEffs_kept | split)) | split | intro _

theorem stateEff_kept (e : Eff) (s : State) (hs : Kept s0 s) : Kept s0 (stateEff e s) := by
  unfold stateEff
  try dsimp only
  with_reducible repeat' first | assumption | apply axisEff_kept | apply busEff_kept | apply flowLimitEff_kept | apply grpClearEff_kept | apply grpConfigureEff_kept | apply grpDisableEff_kept | apply grpEnableEff_kept | apply injectStopEff_kept | apply ioReenableEff_kept | apply ioReleaseEff_kept | apply ioStoResetEff_kept | apply qpAssignEff_kept | apply sigWatchEff_kept | apply sigWriteEff_kept | apply traceArmEff_kept | apply traceStopEff_kept | (apply kept_mk; exact rfl; exact rfl; exact rfl; exact rfl; exact rfl; exact rfl; exact rfl; exact rfl; exact rfl; exact rfl; (first | assumption | apply axisEff_kept | apply busEff_kept | apply flowLimitEff_kept | apply grpClearEff_kept | apply grpConfigureEff_kept | apply grpDisableEff_kept | apply grpEnableEff_kept | apply injectStopEff_kept | apply ioReenableEff_kept | apply ioReleaseEff_kept | apply ioStoResetEff_kept | apply qpAssignEff_kept | apply sigWatchEff_kept | apply sigWriteEff_kept | apply traceArmEff_kept | apply traceStopEff_kept | split)) | split | intro _

theorem motionEff_kept (e : Eff) (s : State) (hs : Kept s0 s) : Kept s0 (motionEff e s) := by
  unfold motionEff
  try dsimp only
  with_reducible repeat' first | assumption | apply axisEff_kept | apply detachStrm_kept | apply grpHomeEff_kept | apply grpResumeEff_kept | apply keepPromise_kept | apply moveEff_kept | apply strmAnchorEff_kept | (apply kept_mk; exact rfl; exact rfl; exact rfl; exact rfl; exact rfl; exact rfl; exact rfl; exact rfl; exact rfl; exact rfl; (first | assumption | apply axisEff_kept | apply detachStrm_kept | apply grpHomeEff_kept | apply grpResumeEff_kept | apply keepPromise_kept | apply moveEff_kept | apply strmAnchorEff_kept | split)) | split | intro _

theorem eventsCadence_kept (s : State) (hs : Kept s0 s) : Kept s0 (eventsCadence s) := by
  unfold eventsCadence
  try dsimp only
  with_reducible repeat' first | assumption | apply conditionsCadence_kept | apply faultsCadence_kept | apply forNat_kept | apply grpHoldEff_kept | apply homeCadence_kept | apply keepPromise_kept | apply limitsTakeover_kept | apply loopEff_kept | apply motionEff_kept | apply poseMoves_kept | apply runEffs_kept | apply stateEff_kept | apply stopsCadence_kept | apply strmTakes_kept | apply writesCadence_kept | (apply kept_mk; exact rfl; exact rfl; exact rfl; exact rfl; exact rfl; exact rfl; exact rfl; exact rfl; exact rfl; exact rfl; (first | assumption | apply conditionsCadence_kept | apply faultsCadence_kept | apply forNat_kept | apply grpHoldEff_kept | apply homeCadence_kept | apply keepPromise_kept | apply limitsTakeover_kept | apply loopEff_kept | apply motionEff_kept | apply poseMoves_kept | apply runEffs_kept | apply stateEff_kept | apply stopsCadence_kept | apply strmTakes_kept | apply writesCadence_kept | split)) | split | intro _

theorem outputsCadence_kept (s : State) (hs : Kept s0 s) : Kept s0 (outputsCadence s) := by
  unfold outputsCadence
  try dsimp only
  with_reducible repeat' first | assumption | apply busCadence_kept | apply ioCadence_kept | apply keepPromise_kept | apply runEffs_kept | apply stpCadence_kept | apply stpEff_kept | (apply kept_mk; exact rfl; exact rfl; exact rfl; exact rfl; exact rfl; exact rfl; exact rfl; exact rfl; exact rfl; exact rfl; (first | assumption | apply busCadence_kept | apply ioCadence_kept | apply keepPromise_kept | apply runEffs_kept | apply stpCadence_kept | apply stpEff_kept | split)) | split | intro _

theorem cadenceStart_kept (s : State) (hs : Kept s0 s) : Kept s0 (cadenceStart s) := by
  unfold cadenceStart
  try dsimp only
  with_reducible repeat' first | assumption | apply beginCadence_kept | apply eventsCadence_kept | apply frozenFrames_kept | apply injCadence_kept | apply outputsCadence_kept | apply timeCadence_kept | (apply kept_mk; exact rfl; exact rfl; exact rfl; exact rfl; exact rfl; exact rfl; exact rfl; exact rfl; exact rfl; exact rfl; (first | assumption | apply beginCadence_kept | apply eventsCadence_kept | apply frozenFrames_kept | apply injCadence_kept | apply outputsCadence_kept | apply timeCadence_kept | split)) | split | intro _

theorem groupCutoff_kept (g : Nat) (s : State) (hs : Kept s0 s) : Kept s0 (groupCutoff g s) := by
  unfold groupCutoff
  try dsimp only
  with_reducible repeat' first | assumption | apply count_kept | apply interpolate_kept | apply lamCadence_kept | apply modGrp_kept | apply startMoves_kept | apply strmClock_kept | apply strmStep_kept | (apply kept_mk; exact rfl; exact rfl; exact rfl; exact rfl; exact rfl; exact rfl; exact rfl; exact rfl; exact rfl; exact rfl; (first | assumption | apply count_kept | apply interpolate_kept | apply lamCadence_kept | apply modGrp_kept | apply startMoves_kept | apply strmClock_kept | apply strmStep_kept | split)) | split | intro _

theorem generate_kept (s : State) (hs : Kept s0 s) : Kept s0 (generate s) := by
  unfold generate
  try dsimp only
  with_reducible repeat' first | assumption | apply count_kept | apply countZero_kept | apply feedMembers_kept | apply forNat_kept | apply genStep_kept | apply groupCutoff_kept | apply slavesFollow_kept | (apply kept_mk; exact rfl; exact rfl; exact rfl; exact rfl; exact rfl; exact rfl; exact rfl; exact rfl; exact rfl; exact rfl; (first | assumption | apply count_kept | apply countZero_kept | apply feedMembers_kept | apply forNat_kept | apply genStep_kept | apply groupCutoff_kept | apply slavesFollow_kept | split)) | split | intro _

theorem planSnapshot_kept (s : State) (hs : Kept s0 s) : Kept s0 (planSnapshot s) := by
  unfold planSnapshot
  try dsimp only
  with_reducible repeat' first | assumption | apply grpSnapshot_kept | apply obstacleSnapshot_kept | apply qpSnapshot_kept | (apply kept_mk; exact rfl; exact rfl; exact rfl; exact rfl; exact rfl; exact rfl; exact rfl; exact rfl; exact rfl; exact rfl; (first | assumption | apply grpSnapshot_kept | apply obstacleSnapshot_kept | apply qpSnapshot_kept | split)) | split | intro _

theorem initLoop_kept (a : Nat) (s : State) (hs : Kept s0 s) : Kept s0 (initLoop a s) := by
  unfold initLoop
  try dsimp only
  with_reducible repeat' first | assumption | apply setAxis_kept | (apply kept_mk; exact rfl; exact rfl; exact rfl; exact rfl; exact rfl; exact rfl; exact rfl; exact rfl; exact rfl; exact rfl; (first | assumption | apply setAxis_kept | split)) | split | intro _

theorem feedbackCutoff_kept (s : State) (hs : Kept s0 s) : Kept s0 (feedbackCutoff s) := by
  unfold feedbackCutoff
  try dsimp only
  with_reducible repeat' first | assumption | apply advanceTo_kept | apply forNat_kept | apply freewheel_kept | apply freewheel2_kept | apply generate_kept | apply guardSnapshot_kept | apply initLoop_kept | apply planSnapshot_kept | (apply kept_mk; exact rfl; exact rfl; exact rfl; exact rfl; exact rfl; exact rfl; exact rfl; exact rfl; exact rfl; exact rfl; (first | assumption | apply advanceTo_kept | apply forNat_kept | apply freewheel_kept | apply freewheel2_kept | apply generate_kept | apply guardSnapshot_kept | apply initLoop_kept | apply planSnapshot_kept | split)) | split | intro _

theorem loopCounts_kept (a : Nat) (l : LoopSt) (m : Marks) (inj : Bool) (s : State) (hs : Kept s0 s) : Kept s0 (loopCounts a l m inj s) := by
  unfold loopCounts
  try dsimp only
  with_reducible repeat' first | assumption | apply addBusy_kept | apply count_kept | apply tileMarks_kept | (apply kept_mk; exact rfl; exact rfl; exact rfl; exact rfl; exact rfl; exact rfl; exact rfl; exact rfl; exact rfl; exact rfl; (first | assumption | apply addBusy_kept | apply count_kept | apply tileMarks_kept | split)) | split | intro _

theorem loopCompute_kept (a : Nat) (s : State) (hs : Kept s0 s) : Kept s0 (loopCompute a s) := by
  unfold loopCompute
  try dsimp only
  with_reducible repeat' first | assumption | apply injAdvance_kept | apply injValue_kept | apply loopCounts_kept | apply raiseIf_kept | apply setAxis_kept | (apply kept_mk; exact rfl; exact rfl; exact rfl; exact rfl; exact rfl; exact rfl; exact rfl; exact rfl; exact rfl; exact rfl; (first | assumption | apply injAdvance_kept | apply injValue_kept | apply loopCounts_kept | apply raiseIf_kept | apply setAxis_kept | split)) | split | intro _

theorem followCheck_kept (a : Nat) (s : State) (hs : Kept s0 s) : Kept s0 (followCheck a s) := by
  unfold followCheck
  try dsimp only
  with_reducible repeat' first | assumption | apply modAxis_kept | apply raiseIf_kept | apply reqFault_kept | (apply kept_mk; exact rfl; exact rfl; exact rfl; exact rfl; exact rfl; exact rfl; exact rfl; exact rfl; exact rfl; exact rfl; (first | assumption | apply modAxis_kept | apply raiseIf_kept | apply reqFault_kept | split)) | split | intro _

theorem skewCheck_kept (g : Nat) (s : State) (hs : Kept s0 s) : Kept s0 (skewCheck g s) := by
  unfold skewCheck
  try dsimp only
  with_reducible repeat' first | assumption | apply forNat_kept | apply reqFault_kept | (apply kept_mk; exact rfl; exact rfl; exact rfl; exact rfl; exact rfl; exact rfl; exact rfl; exact rfl; exact rfl; exact rfl; (first | assumption | apply forNat_kept | apply reqFault_kept | split)) | split | intro _

theorem checksCompute_kept (s : State) (hs : Kept s0 s) : Kept s0 (checksCompute s) := by
  unfold checksCompute
  try dsimp only
  with_reducible repeat' first | assumption | apply badInput_kept | apply followCheck_kept | apply forNat_kept | apply limitStop_kept | apply skewCheck_kept | (apply kept_mk; exact rfl; exact rfl; exact rfl; exact rfl; exact rfl; exact rfl; exact rfl; exact rfl; exact rfl; exact rfl; (first | assumption | apply badInput_kept | apply followCheck_kept | apply forNat_kept | apply limitStop_kept | apply skewCheck_kept | split)) | split | intro _

theorem computeEnd_kept (s : State) (hs : Kept s0 s) : Kept s0 (computeEnd s) := by
  unfold computeEnd
  try dsimp only
  with_reducible repeat' first | assumption | apply advanceTo_kept | apply buildImage_kept | apply checksCompute_kept | apply forNat_kept | apply loopCompute_kept | apply mirrorUpdate_kept | apply resumeFft_kept | apply sendActions_kept | apply sigUpdate_kept | apply stpCompute_kept | apply stpLimitStop_kept | apply traceCadence_kept | (apply kept_mk; exact rfl; exact rfl; exact rfl; exact rfl; exact rfl; exact rfl; exact rfl; exact rfl; exact rfl; exact rfl; (first | assumption | apply advanceTo_kept | apply buildImage_kept | apply checksCompute_kept | apply forNat_kept | apply loopCompute_kept | apply mirrorUpdate_kept | apply resumeFft_kept | apply sendActions_kept | apply sigUpdate_kept | apply stpCompute_kept | apply stpLimitStop_kept | apply traceCadence_kept | split)) | split | intro _

theorem planningBoundary_kept (s : State) (hs : Kept s0 s) : Kept s0 (planningBoundary s) := by
  unfold planningBoundary
  try dsimp only
  with_reducible repeat' first | assumption | apply clearLanes_kept | apply forNat_kept | apply laHold_kept | apply qpBoundary_kept | apply replaceLanes_kept | apply runEffs_kept | apply setPayloadEff_kept | apply zoneBoundary_kept | (apply kept_mk; exact rfl; exact rfl; exact rfl; exact rfl; exact rfl; exact rfl; exact rfl; exact rfl; exact rfl; exact rfl; (first | assumption | apply clearLanes_kept | apply forNat_kept | apply laHold_kept | apply qpBoundary_kept | apply replaceLanes_kept | apply runEffs_kept | apply setPayloadEff_kept | apply zoneBoundary_kept | split)) | split | intro _

theorem verdictDeadline_kept (s : State) (hs : Kept s0 s) : Kept s0 (verdictDeadline s) := by
  unfold verdictDeadline
  try dsimp only
  with_reducible repeat' first | assumption | apply forNat_kept | apply replan_kept | apply sepSignals_kept | apply verdict_kept | (apply kept_mk; exact rfl; exact rfl; exact rfl; exact rfl; exact rfl; exact rfl; exact rfl; exact rfl; exact rfl; exact rfl; (first | assumption | apply forNat_kept | apply replan_kept | apply sepSignals_kept | apply verdict_kept | split)) | split | intro _

theorem busyLatch_kept (s : State) (hs : Kept s0 s) : Kept s0 (busyLatch s) := by
  unfold busyLatch
  try dsimp only
  with_reducible repeat' first | assumption | apply addBusy_kept | apply forNat_kept | apply roundStart_kept | (apply kept_mk; exact rfl; exact rfl; exact rfl; exact rfl; exact rfl; exact rfl; exact rfl; exact rfl; exact rfl; exact rfl; (first | assumption | apply addBusy_kept | apply forNat_kept | apply roundStart_kept | split)) | split | intro _

theorem roundStart_kept (s : State) (hs : Kept s0 s) : Kept s0 (roundStart s) := by
  unfold roundStart
  try dsimp only
  with_reducible repeat' first | assumption | apply advanceTo_kept | apply busRound_kept | apply busyLatch_kept | apply pelRound_kept | apply runEffs_kept | apply sensorEff_kept | apply sigMapEff_kept | (apply kept_mk; exact rfl; exact rfl; exact rfl; exact rfl; exact rfl; exact rfl; exact rfl; exact rfl; exact rfl; exact rfl; (first | assumption | apply advanceTo_kept | apply busRound_kept | apply busyLatch_kept | apply pelRound_kept | apply runEffs_kept | apply sensorEff_kept | apply sigMapEff_kept | split)) | split | intro _

theorem actionAct_kept (a : Armed) (s : State) (hs : Kept s0 s) : Kept s0 (actionAct a s) := by
  unfold actionAct
  try dsimp only
  with_reducible repeat' first | assumption | apply drivePin_kept | apply forNat_kept | apply trigger_kept | apply writeCh_kept | (apply kept_mk; exact rfl; exact rfl; exact rfl; exact rfl; exact rfl; exact rfl; exact rfl; exact rfl; exact rfl; exact rfl; (first | assumption | apply drivePin_kept | apply forNat_kept | apply trigger_kept | apply writeCh_kept | split)) | split | intro _

theorem timedActionFire_kept (u : Nat) (s : State) (hs : Kept s0 s) : Kept s0 (timedActionFire u s) := by
  unfold timedActionFire
  try dsimp only
  with_reducible repeat' first | assumption | apply actionAct_kept | apply fireUnit_kept | apply triggerDropped_kept | (apply kept_mk; exact rfl; exact rfl; exact rfl; exact rfl; exact rfl; exact rfl; exact rfl; exact rfl; exact rfl; exact rfl; (first | assumption | apply actionAct_kept | apply fireUnit_kept | apply triggerDropped_kept | split)) | split | intro _

theorem missRecord_kept (k type obj dl : Nat) (s : State) (hs : Kept s0 s) : Kept s0 (missRecord k type obj dl s) := by
  unfold missRecord
  try dsimp only
  with_reducible repeat' first | assumption | apply count_kept | apply journal_kept | apply raise_kept | apply setCls_kept | (apply kept_mk; exact rfl; exact rfl; exact rfl; exact rfl; exact rfl; exact rfl; exact rfl; exact rfl; exact rfl; exact rfl; (first | assumption | apply count_kept | apply journal_kept | apply raise_kept | apply setCls_kept | split)) | split | intro _

theorem endMissed_kept (g j : Nat) (s : State) (hs : Kept s0 s) : Kept s0 (endMissed g j s) := by
  unfold endMissed
  try dsimp only
  with_reducible repeat' first | assumption | apply modQp_kept | apply modScen_kept | (apply kept_mk; exact rfl; exact rfl; exact rfl; exact rfl; exact rfl; exact rfl; exact rfl; exact rfl; exact rfl; exact rfl; (first | assumption | apply modQp_kept | apply modScen_kept | split)) | split | intro _

theorem selectionMissed_kept (g : Nat) (s : State) (hs : Kept s0 s) : Kept s0 (selectionMissed g s) := by
  unfold selectionMissed
  try dsimp only
  with_reducible repeat' first | assumption | apply fallenBack_kept | apply modGrp_kept | apply modQp_kept | (apply kept_mk; exact rfl; exact rfl; exact rfl; exact rfl; exact rfl; exact rfl; exact rfl; exact rfl; exact rfl; exact rfl; (first | assumption | apply fallenBack_kept | apply modGrp_kept | apply modQp_kept | split)) | split | intro _

theorem missConsequence_kept (type obj : Nat) (s : State) (hs : Kept s0 s) : Kept s0 (missConsequence type obj s) := by
  unfold missConsequence
  try dsimp only
  with_reducible repeat' first | assumption | apply endMissed_kept | apply forNat_kept | apply modAxis_kept | apply modGrp_kept | apply selectionMissed_kept | (apply kept_mk; exact rfl; exact rfl; exact rfl; exact rfl; exact rfl; exact rfl; exact rfl; exact rfl; exact rfl; exact rfl; (first | assumption | apply endMissed_kept | apply forNat_kept | apply modAxis_kept | apply modGrp_kept | apply selectionMissed_kept | split)) | split | intro _

theorem abandonWaiting_kept (k f : Nat) (t : Task) (s : State) (hs : Kept s0 s) : Kept s0 (abandonWaiting k f t s) := by
  unfold abandonWaiting
  try dsimp only
  with_reducible repeat' first | assumption | apply flowNext_kept | apply setCls_kept | apply setFlow_kept | (apply kept_mk; exact rfl; exact rfl; exact rfl; exact rfl; exact rfl; exact rfl; exact rfl; exact rfl; exact rfl; exact rfl; (first | assumption | apply flowNext_kept | apply setCls_kept | apply setFlow_kept | split)) | split | intro _

theorem deadlineMiss_kept (k f : Nat) (s : State) (hs : Kept s0 s) : Kept s0 (deadlineMiss k f s) := by
  unfold deadlineMiss
  split
  · exact hs
  split
  · rename_i t u _
    extract_lets dl s1 s2
    have h1 : Kept s0 s1 := advanceTo_kept _ _ hs
    clear_value s1
    refine missConsequence_kept _ _ _ (missRecord_kept _ _ _ _ _ ?_)
    simp only [s2]
    split
    · exact taskEnd_kept _ _ _ h1
    · exact abandonWaiting_kept _ _ _ _ h1
  · split
    · exact hs
    split
    · exact qpDeadline_kept _ _ _ hs
    split
    · exact hs
    · exact missConsequence_kept _ _ _ (missRecord_kept _ _ _ _ _ (advanceTo_kept _ _ hs))

theorem badOpcode_kept (r : CmdRef) (s : State) (hs : Kept s0 s) : Kept s0 (badOpcode r s) := by
  unfold badOpcode
  try dsimp only
  with_reducible repeat' first | assumption | apply complete_kept | apply deviceFault_kept | (apply kept_mk; exact rfl; exact rfl; exact rfl; exact rfl; exact rfl; exact rfl; exact rfl; exact rfl; exact rfl; exact rfl; (first | assumption | apply complete_kept | apply deviceFault_kept | split)) | split | intro _

theorem imageEnd_kept (r : Replay) (s : State) (hs : Kept s0 s) : Kept s0 (imageEnd r s) :=
  complete_kept _ _ _ _ _ _ _ (raise_kept _ _ (journal_kept _ _ _ _ _ _ _ (modDev_kept _ _ hs (fun _ => ⟨rfl, rfl, rfl, rfl, rfl⟩))))

theorem devSpecs_kept : ∀ sp ∈ devSpecs, SpecKept sp := by
  simp only [devSpecs, List.forall_mem_cons]
  exact ⟨devBootStatusSpec_kept, devResetSpec_kept, devConfirmBootSpec_kept, devLoadImageSpec_kept, devUpdateFwSpec_kept, fun _ h => absurd h List.not_mem_nil⟩

theorem timeSpecs_kept : ∀ sp ∈ timeSpecs, SpecKept sp := by
  simp only [timeSpecs, List.forall_mem_cons]
  exact ⟨timeStatusSpec_kept, timeConfigureSpec_kept, timeSetPlantSpec_kept, timePtpPortSpec_kept, timePtpStatusSpec_kept, fun _ h => absurd h List.not_mem_nil⟩

theorem busSpecs_kept : ∀ sp ∈ busSpecs, SpecKept sp := by
  simp only [busSpecs, List.forall_mem_cons]
  exact ⟨busSetTimingSpec_kept, busConfigureSegmentSpec_kept, busStartSpec_kept, busStopSpec_kept, busLoadMatrixSpec_kept, busSwitchMatrixSpec_kept, busMapAxisSpec_kept, busSetAliasSpec_kept, busStationResetSpec_kept, busRejoinSpec_kept, busAcyclicSpec_kept, busStatusSpec_kept, fun _ h => absurd h List.not_mem_nil⟩

theorem pelSpecs_kept : ∀ sp ∈ pelSpecs, SpecKept sp := by
  simp only [pelSpecs, List.forall_mem_cons]
  exact ⟨pelConfigureSpec_kept, pelStartSpec_kept, pelStopSpec_kept, pelHandoverSpec_kept, pelFollowGmSpec_kept, pelStatusSpec_kept, fun _ h => absurd h List.not_mem_nil⟩

theorem schedSpecs_kept : ∀ sp ∈ schedSpecs, SpecKept sp := by
  simp only [schedSpecs, List.forall_mem_cons]
  exact ⟨schedStatusSpec_kept, schedLoadSpec_kept, schedWcetSpec_kept, schedSetWatermarksSpec_kept, schedClearStatsSpec_kept, schedFlowStatusSpec_kept, schedFlowLimitSpec_kept, schedCancelSpec_kept, fun _ h => absurd h List.not_mem_nil⟩

theorem sigSpecs_kept : ∀ sp ∈ sigSpecs, SpecKept sp := by
  simp only [sigSpecs, List.forall_mem_cons]
  exact ⟨sigMapSpec_kept, sigReadSpec_kept, sigWriteSpec_kept, sigWatchSpec_kept, fun _ h => absurd h List.not_mem_nil⟩

theorem grpSpecs_kept : ∀ sp ∈ grpSpecs, SpecKept sp := by
  simp only [grpSpecs, List.forall_mem_cons]
  exact ⟨grpConfigureSpec_kept, grpEnableSpec_kept, grpDisableSpec_kept, grpMoveSpec_kept, grpHoldSpec_kept, grpResumeSpec_kept, grpHomeSpec_kept, grpClearSpec_kept, grpSetPayloadSpec_kept, grpStopSpec_kept, grpStatusSpec_kept, fun _ h => absurd h List.not_mem_nil⟩

theorem axisSpecs_kept : ∀ sp ∈ axisSpecs, SpecKept sp := by
  simp only [axisSpecs, List.forall_mem_cons]
  exact ⟨axisConfigureSpec_kept, axisEnableSpec_kept, axisDisableSpec_kept, axisCloseSpec_kept, axisOpenSpec_kept, axisClearSpec_kept, axisMoveSpec_kept, axisSetLimitsSpec_kept, axisStopSpec_kept, fun _ h => absurd h List.not_mem_nil⟩

theorem strmSpecs_kept : ∀ sp ∈ strmSpecs, SpecKept sp := by
  simp only [strmSpecs, List.forall_mem_cons]
  exact ⟨strmAttachSpec_kept, strmDetachSpec_kept, strmAnchorSpec_kept, fun _ h => absurd h List.not_mem_nil⟩

theorem qpSpecs_kept : ∀ sp ∈ qpSpecs, SpecKept sp := by
  simp only [qpSpecs, List.forall_mem_cons]
  exact ⟨qpDefineClassSpec_kept, qpRemoveClassSpec_kept, qpAssignSpec_kept, qpConfigureSpec_kept, qpStatusSpec_kept, qpResultSpec_kept, fun _ h => absurd h List.not_mem_nil⟩

theorem loopSpecs_kept : ∀ sp ∈ loopSpecs, SpecKept sp := by
  simp only [loopSpecs, List.forall_mem_cons]
  exact ⟨loopConfigureSpec_kept, loopSetCompSpec_kept, loopSetFilterSpec_kept, loopSetCascadeSpec_kept, loopSetCoeffSpec_kept, loopSetLimitsSpec_kept, loopStatusSpec_kept, loopReadCoeffSpec_kept, fun _ h => absurd h List.not_mem_nil⟩

theorem traceSpecs_kept : ∀ sp ∈ traceSpecs, SpecKept sp := by
  simp only [traceSpecs, List.forall_mem_cons]
  exact ⟨traceConfigureSpec_kept, traceSetLengthSpec_kept, traceArmSpec_kept, traceTriggerSpec_kept, traceStopSpec_kept, traceStatusSpec_kept, traceReadSpec_kept, traceInjectSpec_kept, traceInjectStopSpec_kept, traceFrfSpec_kept, fun _ h => absurd h List.not_mem_nil⟩

theorem zoneSpecs_kept : ∀ sp ∈ zoneSpecs, SpecKept sp := by
  simp only [zoneSpecs, List.forall_mem_cons]
  exact ⟨zoneDefineSpec_kept, zoneRequestSpec_kept, zoneReleaseSpec_kept, zoneStatusSpec_kept, fun _ h => absurd h List.not_mem_nil⟩

theorem ssmSpecs_kept : ∀ sp ∈ ssmSpecs, SpecKept sp := by
  simp only [ssmSpecs, List.forall_mem_cons]
  exact ⟨ssmConfigureSpec_kept, ssmSetGroupSpec_kept, ssmSetObstaclesSpec_kept, ssmSetSensorSpec_kept, ssmStatusSpec_kept, fun _ h => absurd h List.not_mem_nil⟩

theorem ioSpecs_kept : ∀ sp ∈ ioSpecs, SpecKept sp := by
  simp only [ioSpecs, List.forall_mem_cons]
  exact ⟨ioConfigureSpec_kept, ioConfigureGroupSpec_kept, ioSetWatchdogSpec_kept, ioWriteSpec_kept, ioReenableSpec_kept, ioReleaseSafeSpec_kept, ioStoResetSpec_kept, ioStatusSpec_kept, fun _ h => absurd h List.not_mem_nil⟩

theorem stpSpecs_kept : ∀ sp ∈ stpSpecs, SpecKept sp := by
  simp only [stpSpecs, List.forall_mem_cons]
  exact ⟨stpConfigureSpec_kept, stpEnableSpec_kept, stpDisableSpec_kept, stpMoveSpec_kept, stpStopSpec_kept, stpHomeSpec_kept, stpSetLimitsSpec_kept, stpClearSpec_kept, stpStatusSpec_kept, fun _ h => absurd h List.not_mem_nil⟩

theorem pcSpecs_kept : ∀ sp ∈ pcSpecs, SpecKept sp := by
  simp only [pcSpecs, List.forall_mem_cons]
  exact ⟨pcSelectSpec_kept, pcSpokeInfoSpec_kept, fun _ h => absurd h List.not_mem_nil⟩

theorem jrnSpecs_kept : ∀ sp ∈ jrnSpecs, SpecKept sp := by
  simp only [jrnSpecs, List.forall_mem_cons]
  exact ⟨jrnStatusSpec_kept, jrnReadSpec_kept, jrnChallengeSpec_kept, jrnTruncateSpec_kept, jrnConfigureSpec_kept, jrnAnnotateSpec_kept, fun _ h => absurd h List.not_mem_nil⟩

theorem secSpecs_kept : ∀ sp ∈ secSpecs, SpecKept sp := by
  simp only [secSpecs, List.forall_mem_cons]
  exact ⟨secAttestSpec_kept, secGetCertSpec_kept, secFuseStatusSpec_kept, secSetOwnerSpec_kept, secRevokeOwnerSpec_kept, secAdvanceSvnSpec_kept, secRevokeVendorSpec_kept, fun _ h => absurd h List.not_mem_nil⟩

theorem specTable_kept : ∀ sp ∈ specTable, SpecKept sp := by
  unfold specTable
  simp only [List.forall_mem_append]
  exact ⟨⟨⟨⟨⟨⟨⟨⟨⟨⟨⟨⟨⟨⟨⟨⟨⟨⟨devSpecs_kept, timeSpecs_kept⟩, busSpecs_kept⟩, pelSpecs_kept⟩, schedSpecs_kept⟩, sigSpecs_kept⟩, grpSpecs_kept⟩, axisSpecs_kept⟩, strmSpecs_kept⟩, qpSpecs_kept⟩, loopSpecs_kept⟩, traceSpecs_kept⟩, zoneSpecs_kept⟩, ssmSpecs_kept⟩, ioSpecs_kept⟩, stpSpecs_kept⟩, pcSpecs_kept⟩, jrnSpecs_kept⟩, secSpecs_kept⟩

theorem imageRecord_kept (s : State) (hs : Kept s0 s) : Kept s0 (imageRecord s) := by
  unfold imageRecord
  split
  · exact hs
  split
  · exact hs
  split
  · exact imageEnd_kept _ _ hs
  rename_i r _ _ _
  extract_lets b h p s1 s2
  have h1 : Kept s0 s1 := modDev_kept _ _ hs (fun _ => ⟨rfl, rfl, rfl, rfl, rfl⟩)
  clear_value s1
  have h2 : Kept s0 s2 := by
    simp only [s2]
    split
    · exact recordDone_kept _ _ h1
    · rename_i sp hsp
      exact admitCmd_kept _ _ _ h1 (specTable_kept _ (List.mem_of_find?_eq_some hsp))
  clear_value s2
  split
  · split
    · exact imageEnd_kept _ _ h2
    · exact h2
  · exact h2

end Sys2Proof.Machine
end

