-- ==== Sys2Proof/Laws/KeptExec.lean ====
section
/-!
SUPPORT. `Kept` for the meaning of every command but the host accesses and the resets and starts of die M.
-/
namespace Sys2Proof.Machine

set_option Elab.async false
set_option linter.all false

/-- The commands but for the host accesses and the resets and starts of die M. -/
def plain : Instr → Bool
  | .mbDoneClear _ _ => false
  | .mbStatClear _ _ => false
  | .commandBufferWrite _ _ _ _ => false
  | .evtPendClear _ _ _ => false
  | .evtLostClear _ _ => false
  | .evtMaskWrite _ _ => false
  | .evtMapWrite _ _ => false
  | .timeLatch _ => false
  | .hubCtlWrite _ => false
  | .hubPeriodWrite _ => false
  | .hubRdWrite _ => false
  | .hubMirrorWrite _ _ => false
  | .usrGrantWrite _ => false
  | .usrCtlWrite _ => false
  | .usrWinWrite _ => false
  | .streamProdWrite _ _ _ => false
  | .registerWrite _ _ _ => false
  | .porstNAssert => false
  | .porstNRelease _ _ => false
  | .linkReset => false
  | .pfailNRelease => false
  | .railResetExcursion _ => false
  | .deviceReset _ _ => false
  | .mbDoorbell _ _ => false
  | _ => true

theorem execDevBootStatus_kept (c : CmdRef) (s t : State) (h : exec (.devBootStatus c) s = .next t) : Kept s t := by
  obtain rfl : (runCmd devBootStatusSpec c s) = t := Host.Outcome.next.inj h
  exact runCmd_kept _ _ _ (.refl _) devBootStatusSpec_kept
theorem execDevReset_kept (c : CmdRef) (s t : State) (h : exec (.devReset c) s = .next t) : Kept s t := by
  obtain rfl : (runCmd devResetSpec c s) = t := Host.Outcome.next.inj h
  exact runCmd_kept _ _ _ (.refl _) devResetSpec_kept
theorem execDevConfirmBoot_kept (c : CmdRef) (s t : State) (h : exec (.devConfirmBoot c) s = .next t) : Kept s t := by
  obtain rfl : (runCmd devConfirmBootSpec c s) = t := Host.Outcome.next.inj h
  exact runCmd_kept _ _ _ (.refl _) devConfirmBootSpec_kept
theorem execDevLoadImage_kept (c : CmdRef) (s t : State) (h : exec (.devLoadImage c) s = .next t) : Kept s t := by
  obtain rfl : (runCmd devLoadImageSpec c s) = t := Host.Outcome.next.inj h
  exact runCmd_kept _ _ _ (.refl _) devLoadImageSpec_kept
theorem execDevUpdateFw_kept (c : CmdRef) (s t : State) (h : exec (.devUpdateFw c) s = .next t) : Kept s t := by
  obtain rfl : (runCmd devUpdateFwSpec c s) = t := Host.Outcome.next.inj h
  exact runCmd_kept _ _ _ (.refl _) devUpdateFwSpec_kept
theorem execTimeStatus_kept (c : CmdRef) (s t : State) (h : exec (.timeStatus c) s = .next t) : Kept s t := by
  obtain rfl : (runCmd timeStatusSpec c s) = t := Host.Outcome.next.inj h
  exact runCmd_kept _ _ _ (.refl _) timeStatusSpec_kept
theorem execTimeConfigure_kept (c : CmdRef) (s t : State) (h : exec (.timeConfigure c) s = .next t) : Kept s t := by
  obtain rfl : (runCmd timeConfigureSpec c s) = t := Host.Outcome.next.inj h
  exact runCmd_kept _ _ _ (.refl _) timeConfigureSpec_kept
theorem execTimeSetPlant_kept (c : CmdRef) (s t : State) (h : exec (.timeSetPlant c) s = .next t) : Kept s t := by
  obtain rfl : (runCmd timeSetPlantSpec c s) = t := Host.Outcome.next.inj h
  exact runCmd_kept _ _ _ (.refl _) timeSetPlantSpec_kept
theorem execTimePtpPort_kept (c : CmdRef) (s t : State) (h : exec (.timePtpPort c) s = .next t) : Kept s t := by
  obtain rfl : (runCmd timePtpPortSpec c s) = t := Host.Outcome.next.inj h
  exact runCmd_kept _ _ _ (.refl _) timePtpPortSpec_kept
theorem execTimePtpStatus_kept (c : CmdRef) (s t : State) (h : exec (.timePtpStatus c) s = .next t) : Kept s t := by
  obtain rfl : (runCmd timePtpStatusSpec c s) = t := Host.Outcome.next.inj h
  exact runCmd_kept _ _ _ (.refl _) timePtpStatusSpec_kept
theorem execBusSetTiming_kept (c : CmdRef) (s t : State) (h : exec (.busSetTiming c) s = .next t) : Kept s t := by
  obtain rfl : (runCmd busSetTimingSpec c s) = t := Host.Outcome.next.inj h
  exact runCmd_kept _ _ _ (.refl _) busSetTimingSpec_kept
theorem execBusConfigureSegment_kept (c : CmdRef) (s t : State) (h : exec (.busConfigureSegment c) s = .next t) : Kept s t := by
  obtain rfl : (runCmd busConfigureSegmentSpec c s) = t := Host.Outcome.next.inj h
  exact runCmd_kept _ _ _ (.refl _) busConfigureSegmentSpec_kept
theorem execBusStart_kept (c : CmdRef) (s t : State) (h : exec (.busStart c) s = .next t) : Kept s t := by
  obtain rfl : (runCmd busStartSpec c s) = t := Host.Outcome.next.inj h
  exact runCmd_kept _ _ _ (.refl _) busStartSpec_kept
theorem execBusStop_kept (c : CmdRef) (s t : State) (h : exec (.busStop c) s = .next t) : Kept s t := by
  obtain rfl : (runCmd busStopSpec c s) = t := Host.Outcome.next.inj h
  exact runCmd_kept _ _ _ (.refl _) busStopSpec_kept
theorem execBusLoadMatrix_kept (c : CmdRef) (s t : State) (h : exec (.busLoadMatrix c) s = .next t) : Kept s t := by
  obtain rfl : (runCmd busLoadMatrixSpec c s) = t := Host.Outcome.next.inj h
  exact runCmd_kept _ _ _ (.refl _) busLoadMatrixSpec_kept
theorem execBusSwitchMatrix_kept (c : CmdRef) (s t : State) (h : exec (.busSwitchMatrix c) s = .next t) : Kept s t := by
  obtain rfl : (runCmd busSwitchMatrixSpec c s) = t := Host.Outcome.next.inj h
  exact runCmd_kept _ _ _ (.refl _) busSwitchMatrixSpec_kept
theorem execBusMapAxis_kept (c : CmdRef) (s t : State) (h : exec (.busMapAxis c) s = .next t) : Kept s t := by
  obtain rfl : (runCmd busMapAxisSpec c s) = t := Host.Outcome.next.inj h
  exact runCmd_kept _ _ _ (.refl _) busMapAxisSpec_kept
theorem execBusSetAlias_kept (c : CmdRef) (s t : State) (h : exec (.busSetAlias c) s = .next t) : Kept s t := by
  obtain rfl : (runCmd busSetAliasSpec c s) = t := Host.Outcome.next.inj h
  exact runCmd_kept _ _ _ (.refl _) busSetAliasSpec_kept
theorem execBusStationReset_kept (c : CmdRef) (s t : State) (h : exec (.busStationReset c) s = .next t) : Kept s t := by
  obtain rfl : (runCmd busStationResetSpec c s) = t := Host.Outcome.next.inj h
  exact runCmd_kept _ _ _ (.refl _) busStationResetSpec_kept
theorem execBusRejoin_kept (c : CmdRef) (s t : State) (h : exec (.busRejoin c) s = .next t) : Kept s t := by
  obtain rfl : (runCmd busRejoinSpec c s) = t := Host.Outcome.next.inj h
  exact runCmd_kept _ _ _ (.refl _) busRejoinSpec_kept
theorem execBusAcyclic_kept (c : CmdRef) (s t : State) (h : exec (.busAcyclic c) s = .next t) : Kept s t := by
  obtain rfl : (runCmd busAcyclicSpec c s) = t := Host.Outcome.next.inj h
  exact runCmd_kept _ _ _ (.refl _) busAcyclicSpec_kept
theorem execBusStatus_kept (c : CmdRef) (s t : State) (h : exec (.busStatus c) s = .next t) : Kept s t := by
  obtain rfl : (runCmd busStatusSpec c s) = t := Host.Outcome.next.inj h
  exact runCmd_kept _ _ _ (.refl _) busStatusSpec_kept
theorem execPelConfigure_kept (c : CmdRef) (s t : State) (h : exec (.pelConfigure c) s = .next t) : Kept s t := by
  obtain rfl : (runCmd pelConfigureSpec c s) = t := Host.Outcome.next.inj h
  exact runCmd_kept _ _ _ (.refl _) pelConfigureSpec_kept
theorem execPelStart_kept (c : CmdRef) (s t : State) (h : exec (.pelStart c) s = .next t) : Kept s t := by
  obtain rfl : (runCmd pelStartSpec c s) = t := Host.Outcome.next.inj h
  exact runCmd_kept _ _ _ (.refl _) pelStartSpec_kept
theorem execPelStop_kept (c : CmdRef) (s t : State) (h : exec (.pelStop c) s = .next t) : Kept s t := by
  obtain rfl : (runCmd pelStopSpec c s) = t := Host.Outcome.next.inj h
  exact runCmd_kept _ _ _ (.refl _) pelStopSpec_kept
theorem execPelHandover_kept (c : CmdRef) (s t : State) (h : exec (.pelHandover c) s = .next t) : Kept s t := by
  obtain rfl : (runCmd pelHandoverSpec c s) = t := Host.Outcome.next.inj h
  exact runCmd_kept _ _ _ (.refl _) pelHandoverSpec_kept
theorem execPelFollowGm_kept (c : CmdRef) (s t : State) (h : exec (.pelFollowGm c) s = .next t) : Kept s t := by
  obtain rfl : (runCmd pelFollowGmSpec c s) = t := Host.Outcome.next.inj h
  exact runCmd_kept _ _ _ (.refl _) pelFollowGmSpec_kept
theorem execPelStatus_kept (c : CmdRef) (s t : State) (h : exec (.pelStatus c) s = .next t) : Kept s t := by
  obtain rfl : (runCmd pelStatusSpec c s) = t := Host.Outcome.next.inj h
  exact runCmd_kept _ _ _ (.refl _) pelStatusSpec_kept
theorem execSchedStatus_kept (c : CmdRef) (s t : State) (h : exec (.schedStatus c) s = .next t) : Kept s t := by
  obtain rfl : (runCmd schedStatusSpec c s) = t := Host.Outcome.next.inj h
  exact runCmd_kept _ _ _ (.refl _) schedStatusSpec_kept
theorem execSchedLoad_kept (c : CmdRef) (s t : State) (h : exec (.schedLoad c) s = .next t) : Kept s t := by
  obtain rfl : (runCmd schedLoadSpec c s) = t := Host.Outcome.next.inj h
  exact runCmd_kept _ _ _ (.refl _) schedLoadSpec_kept
theorem execSchedWcet_kept (c : CmdRef) (s t : State) (h : exec (.schedWcet c) s = .next t) : Kept s t := by
  obtain rfl : (runCmd schedWcetSpec c s) = t := Host.Outcome.next.inj h
  exact runCmd_kept _ _ _ (.refl _) schedWcetSpec_kept
theorem execSchedSetWatermarks_kept (c : CmdRef) (s t : State) (h : exec (.schedSetWatermarks c) s = .next t) : Kept s t := by
  obtain rfl : (runCmd schedSetWatermarksSpec c s) = t := Host.Outcome.next.inj h
  exact runCmd_kept _ _ _ (.refl _) schedSetWatermarksSpec_kept
theorem execSchedClearStats_kept (c : CmdRef) (s t : State) (h : exec (.schedClearStats c) s = .next t) : Kept s t := by
  obtain rfl : (runCmd schedClearStatsSpec c s) = t := Host.Outcome.next.inj h
  exact runCmd_kept _ _ _ (.refl _) schedClearStatsSpec_kept
theorem execSchedFlowStatus_kept (c : CmdRef) (s t : State) (h : exec (.schedFlowStatus c) s = .next t) : Kept s t := by
  obtain rfl : (runCmd schedFlowStatusSpec c s) = t := Host.Outcome.next.inj h
  exact runCmd_kept _ _ _ (.refl _) schedFlowStatusSpec_kept
theorem execSchedFlowLimit_kept (c : CmdRef) (s t : State) (h : exec (.schedFlowLimit c) s = .next t) : Kept s t := by
  obtain rfl : (runCmd schedFlowLimitSpec c s) = t := Host.Outcome.next.inj h
  exact runCmd_kept _ _ _ (.refl _) schedFlowLimitSpec_kept
theorem execSchedCancel_kept (c : CmdRef) (s t : State) (h : exec (.schedCancel c) s = .next t) : Kept s t := by
  obtain rfl : (runCmd schedCancelSpec c s) = t := Host.Outcome.next.inj h
  exact runCmd_kept _ _ _ (.refl _) schedCancelSpec_kept
theorem execSigMap_kept (c : CmdRef) (s t : State) (h : exec (.sigMap c) s = .next t) : Kept s t := by
  obtain rfl : (runCmd sigMapSpec c s) = t := Host.Outcome.next.inj h
  exact runCmd_kept _ _ _ (.refl _) sigMapSpec_kept
theorem execSigRead_kept (c : CmdRef) (s t : State) (h : exec (.sigRead c) s = .next t) : Kept s t := by
  obtain rfl : (runCmd sigReadSpec c s) = t := Host.Outcome.next.inj h
  exact runCmd_kept _ _ _ (.refl _) sigReadSpec_kept
theorem execSigWrite_kept (c : CmdRef) (s t : State) (h : exec (.sigWrite c) s = .next t) : Kept s t := by
  obtain rfl : (runCmd sigWriteSpec c s) = t := Host.Outcome.next.inj h
  exact runCmd_kept _ _ _ (.refl _) sigWriteSpec_kept
theorem execSigWatch_kept (c : CmdRef) (s t : State) (h : exec (.sigWatch c) s = .next t) : Kept s t := by
  obtain rfl : (runCmd sigWatchSpec c s) = t := Host.Outcome.next.inj h
  exact runCmd_kept _ _ _ (.refl _) sigWatchSpec_kept
theorem execGrpConfigure_kept (c : CmdRef) (s t : State) (h : exec (.grpConfigure c) s = .next t) : Kept s t := by
  obtain rfl : (runCmd grpConfigureSpec c s) = t := Host.Outcome.next.inj h
  exact runCmd_kept _ _ _ (.refl _) grpConfigureSpec_kept
theorem execGrpEnable_kept (c : CmdRef) (s t : State) (h : exec (.grpEnable c) s = .next t) : Kept s t := by
  obtain rfl : (runCmd grpEnableSpec c s) = t := Host.Outcome.next.inj h
  exact runCmd_kept _ _ _ (.refl _) grpEnableSpec_kept
theorem execGrpDisable_kept (c : CmdRef) (s t : State) (h : exec (.grpDisable c) s = .next t) : Kept s t := by
  obtain rfl : (runCmd grpDisableSpec c s) = t := Host.Outcome.next.inj h
  exact runCmd_kept _ _ _ (.refl _) grpDisableSpec_kept
theorem execGrpMove_kept (c : CmdRef) (s t : State) (h : exec (.grpMove c) s = .next t) : Kept s t := by
  obtain rfl : (runCmd grpMoveSpec c s) = t := Host.Outcome.next.inj h
  exact runCmd_kept _ _ _ (.refl _) grpMoveSpec_kept
theorem execGrpHold_kept (c : CmdRef) (s t : State) (h : exec (.grpHold c) s = .next t) : Kept s t := by
  obtain rfl : (runCmd grpHoldSpec c s) = t := Host.Outcome.next.inj h
  exact runCmd_kept _ _ _ (.refl _) grpHoldSpec_kept
theorem execGrpResume_kept (c : CmdRef) (s t : State) (h : exec (.grpResume c) s = .next t) : Kept s t := by
  obtain rfl : (runCmd grpResumeSpec c s) = t := Host.Outcome.next.inj h
  exact runCmd_kept _ _ _ (.refl _) grpResumeSpec_kept
theorem execGrpHome_kept (c : CmdRef) (s t : State) (h : exec (.grpHome c) s = .next t) : Kept s t := by
  obtain rfl : (runCmd grpHomeSpec c s) = t := Host.Outcome.next.inj h
  exact runCmd_kept _ _ _ (.refl _) grpHomeSpec_kept
theorem execGrpClear_kept (c : CmdRef) (s t : State) (h : exec (.grpClear c) s = .next t) : Kept s t := by
  obtain rfl : (runCmd grpClearSpec c s) = t := Host.Outcome.next.inj h
  exact runCmd_kept _ _ _ (.refl _) grpClearSpec_kept
theorem execGrpSetPayload_kept (c : CmdRef) (s t : State) (h : exec (.grpSetPayload c) s = .next t) : Kept s t := by
  obtain rfl : (runCmd grpSetPayloadSpec c s) = t := Host.Outcome.next.inj h
  exact runCmd_kept _ _ _ (.refl _) grpSetPayloadSpec_kept
theorem execGrpStop_kept (c : CmdRef) (s t : State) (h : exec (.grpStop c) s = .next t) : Kept s t := by
  obtain rfl : (runCmd grpStopSpec c s) = t := Host.Outcome.next.inj h
  exact runCmd_kept _ _ _ (.refl _) grpStopSpec_kept
theorem execGrpStatus_kept (c : CmdRef) (s t : State) (h : exec (.grpStatus c) s = .next t) : Kept s t := by
  obtain rfl : (runCmd grpStatusSpec c s) = t := Host.Outcome.next.inj h
  exact runCmd_kept _ _ _ (.refl _) grpStatusSpec_kept
theorem execAxisConfigure_kept (c : CmdRef) (s t : State) (h : exec (.axisConfigure c) s = .next t) : Kept s t := by
  obtain rfl : (runCmd axisConfigureSpec c s) = t := Host.Outcome.next.inj h
  exact runCmd_kept _ _ _ (.refl _) axisConfigureSpec_kept
theorem execAxisEnable_kept (c : CmdRef) (s t : State) (h : exec (.axisEnable c) s = .next t) : Kept s t := by
  obtain rfl : (runCmd axisEnableSpec c s) = t := Host.Outcome.next.inj h
  exact runCmd_kept _ _ _ (.refl _) axisEnableSpec_kept
theorem execAxisDisable_kept (c : CmdRef) (s t : State) (h : exec (.axisDisable c) s = .next t) : Kept s t := by
  obtain rfl : (runCmd axisDisableSpec c s) = t := Host.Outcome.next.inj h
  exact runCmd_kept _ _ _ (.refl _) axisDisableSpec_kept
theorem execAxisClose_kept (c : CmdRef) (s t : State) (h : exec (.axisClose c) s = .next t) : Kept s t := by
  obtain rfl : (runCmd axisCloseSpec c s) = t := Host.Outcome.next.inj h
  exact runCmd_kept _ _ _ (.refl _) axisCloseSpec_kept
theorem execAxisOpen_kept (c : CmdRef) (s t : State) (h : exec (.axisOpen c) s = .next t) : Kept s t := by
  obtain rfl : (runCmd axisOpenSpec c s) = t := Host.Outcome.next.inj h
  exact runCmd_kept _ _ _ (.refl _) axisOpenSpec_kept
theorem execAxisClear_kept (c : CmdRef) (s t : State) (h : exec (.axisClear c) s = .next t) : Kept s t := by
  obtain rfl : (runCmd axisClearSpec c s) = t := Host.Outcome.next.inj h
  exact runCmd_kept _ _ _ (.refl _) axisClearSpec_kept
theorem execAxisMove_kept (c : CmdRef) (s t : State) (h : exec (.axisMove c) s = .next t) : Kept s t := by
  obtain rfl : (runCmd axisMoveSpec c s) = t := Host.Outcome.next.inj h
  exact runCmd_kept _ _ _ (.refl _) axisMoveSpec_kept
theorem execAxisSetLimits_kept (c : CmdRef) (s t : State) (h : exec (.axisSetLimits c) s = .next t) : Kept s t := by
  obtain rfl : (runCmd axisSetLimitsSpec c s) = t := Host.Outcome.next.inj h
  exact runCmd_kept _ _ _ (.refl _) axisSetLimitsSpec_kept
theorem execAxisStop_kept (c : CmdRef) (s t : State) (h : exec (.axisStop c) s = .next t) : Kept s t := by
  obtain rfl : (runCmd axisStopSpec c s) = t := Host.Outcome.next.inj h
  exact runCmd_kept _ _ _ (.refl _) axisStopSpec_kept
theorem execStrmAttach_kept (c : CmdRef) (s t : State) (h : exec (.strmAttach c) s = .next t) : Kept s t := by
  obtain rfl : (runCmd strmAttachSpec c s) = t := Host.Outcome.next.inj h
  exact runCmd_kept _ _ _ (.refl _) strmAttachSpec_kept
theorem execStrmDetach_kept (c : CmdRef) (s t : State) (h : exec (.strmDetach c) s = .next t) : Kept s t := by
  obtain rfl : (runCmd strmDetachSpec c s) = t := Host.Outcome.next.inj h
  exact runCmd_kept _ _ _ (.refl _) strmDetachSpec_kept
theorem execStrmAnchor_kept (c : CmdRef) (s t : State) (h : exec (.strmAnchor c) s = .next t) : Kept s t := by
  obtain rfl : (runCmd strmAnchorSpec c s) = t := Host.Outcome.next.inj h
  exact runCmd_kept _ _ _ (.refl _) strmAnchorSpec_kept
theorem execQpDefineClass_kept (c : CmdRef) (s t : State) (h : exec (.qpDefineClass c) s = .next t) : Kept s t := by
  obtain rfl : (runCmd qpDefineClassSpec c s) = t := Host.Outcome.next.inj h
  exact runCmd_kept _ _ _ (.refl _) qpDefineClassSpec_kept
theorem execQpRemoveClass_kept (c : CmdRef) (s t : State) (h : exec (.qpRemoveClass c) s = .next t) : Kept s t := by
  obtain rfl : (runCmd qpRemoveClassSpec c s) = t := Host.Outcome.next.inj h
  exact runCmd_kept _ _ _ (.refl _) qpRemoveClassSpec_kept
theorem execQpAssign_kept (c : CmdRef) (s t : State) (h : exec (.qpAssign c) s = .next t) : Kept s t := by
  obtain rfl : (runCmd qpAssignSpec c s) = t := Host.Outcome.next.inj h
  exact runCmd_kept _ _ _ (.refl _) qpAssignSpec_kept
theorem execQpConfigure_kept (c : CmdRef) (s t : State) (h : exec (.qpConfigure c) s = .next t) : Kept s t := by
  obtain rfl : (runCmd qpConfigureSpec c s) = t := Host.Outcome.next.inj h
  exact runCmd_kept _ _ _ (.refl _) qpConfigureSpec_kept
theorem execQpStatus_kept (c : CmdRef) (s t : State) (h : exec (.qpStatus c) s = .next t) : Kept s t := by
  obtain rfl : (runCmd qpStatusSpec c s) = t := Host.Outcome.next.inj h
  exact runCmd_kept _ _ _ (.refl _) qpStatusSpec_kept
theorem execQpResult_kept (c : CmdRef) (s t : State) (h : exec (.qpResult c) s = .next t) : Kept s t := by
  obtain rfl : (runCmd qpResultSpec c s) = t := Host.Outcome.next.inj h
  exact runCmd_kept _ _ _ (.refl _) qpResultSpec_kept
theorem execLoopConfigure_kept (c : CmdRef) (s t : State) (h : exec (.loopConfigure c) s = .next t) : Kept s t := by
  obtain rfl : (runCmd loopConfigureSpec c s) = t := Host.Outcome.next.inj h
  exact runCmd_kept _ _ _ (.refl _) loopConfigureSpec_kept
theorem execLoopSetComp_kept (c : CmdRef) (s t : State) (h : exec (.loopSetComp c) s = .next t) : Kept s t := by
  obtain rfl : (runCmd loopSetCompSpec c s) = t := Host.Outcome.next.inj h
  exact runCmd_kept _ _ _ (.refl _) loopSetCompSpec_kept
theorem execLoopSetFilter_kept (c : CmdRef) (s t : State) (h : exec (.loopSetFilter c) s = .next t) : Kept s t := by
  obtain rfl : (runCmd loopSetFilterSpec c s) = t := Host.Outcome.next.inj h
  exact runCmd_kept _ _ _ (.refl _) loopSetFilterSpec_kept
theorem execLoopSetCascade_kept (c : CmdRef) (s t : State) (h : exec (.loopSetCascade c) s = .next t) : Kept s t := by
  obtain rfl : (runCmd loopSetCascadeSpec c s) = t := Host.Outcome.next.inj h
  exact runCmd_kept _ _ _ (.refl _) loopSetCascadeSpec_kept
theorem execLoopSetCoeff_kept (c : CmdRef) (s t : State) (h : exec (.loopSetCoeff c) s = .next t) : Kept s t := by
  obtain rfl : (runCmd loopSetCoeffSpec c s) = t := Host.Outcome.next.inj h
  exact runCmd_kept _ _ _ (.refl _) loopSetCoeffSpec_kept
theorem execLoopSetLimits_kept (c : CmdRef) (s t : State) (h : exec (.loopSetLimits c) s = .next t) : Kept s t := by
  obtain rfl : (runCmd loopSetLimitsSpec c s) = t := Host.Outcome.next.inj h
  exact runCmd_kept _ _ _ (.refl _) loopSetLimitsSpec_kept
theorem execLoopStatus_kept (c : CmdRef) (s t : State) (h : exec (.loopStatus c) s = .next t) : Kept s t := by
  obtain rfl : (runCmd loopStatusSpec c s) = t := Host.Outcome.next.inj h
  exact runCmd_kept _ _ _ (.refl _) loopStatusSpec_kept
theorem execLoopReadCoeff_kept (c : CmdRef) (s t : State) (h : exec (.loopReadCoeff c) s = .next t) : Kept s t := by
  obtain rfl : (runCmd loopReadCoeffSpec c s) = t := Host.Outcome.next.inj h
  exact runCmd_kept _ _ _ (.refl _) loopReadCoeffSpec_kept
theorem execTraceConfigure_kept (c : CmdRef) (s t : State) (h : exec (.traceConfigure c) s = .next t) : Kept s t := by
  obtain rfl : (runCmd traceConfigureSpec c s) = t := Host.Outcome.next.inj h
  exact runCmd_kept _ _ _ (.refl _) traceConfigureSpec_kept
theorem execTraceSetLength_kept (c : CmdRef) (s t : State) (h : exec (.traceSetLength c) s = .next t) : Kept s t := by
  obtain rfl : (runCmd traceSetLengthSpec c s) = t := Host.Outcome.next.inj h
  exact runCmd_kept _ _ _ (.refl _) traceSetLengthSpec_kept
theorem execTraceArm_kept (c : CmdRef) (s t : State) (h : exec (.traceArm c) s = .next t) : Kept s t := by
  obtain rfl : (runCmd traceArmSpec c s) = t := Host.Outcome.next.inj h
  exact runCmd_kept _ _ _ (.refl _) traceArmSpec_kept
theorem execTraceTrigger_kept (c : CmdRef) (s t : State) (h : exec (.traceTrigger c) s = .next t) : Kept s t := by
  obtain rfl : (runCmd traceTriggerSpec c s) = t := Host.Outcome.next.inj h
  exact runCmd_kept _ _ _ (.refl _) traceTriggerSpec_kept
theorem execTraceStop_kept (c : CmdRef) (s t : State) (h : exec (.traceStop c) s = .next t) : Kept s t := by
  obtain rfl : (runCmd traceStopSpec c s) = t := Host.Outcome.next.inj h
  exact runCmd_kept _ _ _ (.refl _) traceStopSpec_kept
theorem execTraceStatus_kept (c : CmdRef) (s t : State) (h : exec (.traceStatus c) s = .next t) : Kept s t := by
  obtain rfl : (runCmd traceStatusSpec c s) = t := Host.Outcome.next.inj h
  exact runCmd_kept _ _ _ (.refl _) traceStatusSpec_kept
theorem execTraceRead_kept (c : CmdRef) (s t : State) (h : exec (.traceRead c) s = .next t) : Kept s t := by
  obtain rfl : (runCmd traceReadSpec c s) = t := Host.Outcome.next.inj h
  exact runCmd_kept _ _ _ (.refl _) traceReadSpec_kept
theorem execTraceInject_kept (c : CmdRef) (s t : State) (h : exec (.traceInject c) s = .next t) : Kept s t := by
  obtain rfl : (runCmd traceInjectSpec c s) = t := Host.Outcome.next.inj h
  exact runCmd_kept _ _ _ (.refl _) traceInjectSpec_kept
theorem execTraceInjectStop_kept (c : CmdRef) (s t : State) (h : exec (.traceInjectStop c) s = .next t) : Kept s t := by
  obtain rfl : (runCmd traceInjectStopSpec c s) = t := Host.Outcome.next.inj h
  exact runCmd_kept _ _ _ (.refl _) traceInjectStopSpec_kept
theorem execTraceFrf_kept (c : CmdRef) (s t : State) (h : exec (.traceFrf c) s = .next t) : Kept s t := by
  obtain rfl : (runCmd traceFrfSpec c s) = t := Host.Outcome.next.inj h
  exact runCmd_kept _ _ _ (.refl _) traceFrfSpec_kept
theorem execZoneDefine_kept (c : CmdRef) (s t : State) (h : exec (.zoneDefine c) s = .next t) : Kept s t := by
  obtain rfl : (runCmd zoneDefineSpec c s) = t := Host.Outcome.next.inj h
  exact runCmd_kept _ _ _ (.refl _) zoneDefineSpec_kept
theorem execZoneRequest_kept (c : CmdRef) (s t : State) (h : exec (.zoneRequest c) s = .next t) : Kept s t := by
  obtain rfl : (runCmd zoneRequestSpec c s) = t := Host.Outcome.next.inj h
  exact runCmd_kept _ _ _ (.refl _) zoneRequestSpec_kept
theorem execZoneRelease_kept (c : CmdRef) (s t : State) (h : exec (.zoneRelease c) s = .next t) : Kept s t := by
  obtain rfl : (runCmd zoneReleaseSpec c s) = t := Host.Outcome.next.inj h
  exact runCmd_kept _ _ _ (.refl _) zoneReleaseSpec_kept
theorem execZoneStatus_kept (c : CmdRef) (s t : State) (h : exec (.zoneStatus c) s = .next t) : Kept s t := by
  obtain rfl : (runCmd zoneStatusSpec c s) = t := Host.Outcome.next.inj h
  exact runCmd_kept _ _ _ (.refl _) zoneStatusSpec_kept
theorem execSsmConfigure_kept (c : CmdRef) (s t : State) (h : exec (.ssmConfigure c) s = .next t) : Kept s t := by
  obtain rfl : (runCmd ssmConfigureSpec c s) = t := Host.Outcome.next.inj h
  exact runCmd_kept _ _ _ (.refl _) ssmConfigureSpec_kept
theorem execSsmSetGroup_kept (c : CmdRef) (s t : State) (h : exec (.ssmSetGroup c) s = .next t) : Kept s t := by
  obtain rfl : (runCmd ssmSetGroupSpec c s) = t := Host.Outcome.next.inj h
  exact runCmd_kept _ _ _ (.refl _) ssmSetGroupSpec_kept
theorem execSsmSetObstacles_kept (c : CmdRef) (s t : State) (h : exec (.ssmSetObstacles c) s = .next t) : Kept s t := by
  obtain rfl : (runCmd ssmSetObstaclesSpec c s) = t := Host.Outcome.next.inj h
  exact runCmd_kept _ _ _ (.refl _) ssmSetObstaclesSpec_kept
theorem execSsmSetSensor_kept (c : CmdRef) (s t : State) (h : exec (.ssmSetSensor c) s = .next t) : Kept s t := by
  obtain rfl : (runCmd ssmSetSensorSpec c s) = t := Host.Outcome.next.inj h
  exact runCmd_kept _ _ _ (.refl _) ssmSetSensorSpec_kept
theorem execSsmStatus_kept (c : CmdRef) (s t : State) (h : exec (.ssmStatus c) s = .next t) : Kept s t := by
  obtain rfl : (runCmd ssmStatusSpec c s) = t := Host.Outcome.next.inj h
  exact runCmd_kept _ _ _ (.refl _) ssmStatusSpec_kept
theorem execIoConfigure_kept (c : CmdRef) (s t : State) (h : exec (.ioConfigure c) s = .next t) : Kept s t := by
  obtain rfl : (runCmd ioConfigureSpec c s) = t := Host.Outcome.next.inj h
  exact runCmd_kept _ _ _ (.refl _) ioConfigureSpec_kept
theorem execIoConfigureGroup_kept (c : CmdRef) (s t : State) (h : exec (.ioConfigureGroup c) s = .next t) : Kept s t := by
  obtain rfl : (runCmd ioConfigureGroupSpec c s) = t := Host.Outcome.next.inj h
  exact runCmd_kept _ _ _ (.refl _) ioConfigureGroupSpec_kept
theorem execIoSetWatchdog_kept (c : CmdRef) (s t : State) (h : exec (.ioSetWatchdog c) s = .next t) : Kept s t := by
  obtain rfl : (runCmd ioSetWatchdogSpec c s) = t := Host.Outcome.next.inj h
  exact runCmd_kept _ _ _ (.refl _) ioSetWatchdogSpec_kept
theorem execIoWrite_kept (c : CmdRef) (s t : State) (h : exec (.ioWrite c) s = .next t) : Kept s t := by
  obtain rfl : (runCmd ioWriteSpec c s) = t := Host.Outcome.next.inj h
  exact runCmd_kept _ _ _ (.refl _) ioWriteSpec_kept
theorem execIoReenable_kept (c : CmdRef) (s t : State) (h : exec (.ioReenable c) s = .next t) : Kept s t := by
  obtain rfl : (runCmd ioReenableSpec c s) = t := Host.Outcome.next.inj h
  exact runCmd_kept _ _ _ (.refl _) ioReenableSpec_kept
theorem execIoReleaseSafe_kept (c : CmdRef) (s t : State) (h : exec (.ioReleaseSafe c) s = .next t) : Kept s t := by
  obtain rfl : (runCmd ioReleaseSafeSpec c s) = t := Host.Outcome.next.inj h
  exact runCmd_kept _ _ _ (.refl _) ioReleaseSafeSpec_kept
theorem execIoStoReset_kept (c : CmdRef) (s t : State) (h : exec (.ioStoReset c) s = .next t) : Kept s t := by
  obtain rfl : (runCmd ioStoResetSpec c s) = t := Host.Outcome.next.inj h
  exact runCmd_kept _ _ _ (.refl _) ioStoResetSpec_kept
theorem execIoStatus_kept (c : CmdRef) (s t : State) (h : exec (.ioStatus c) s = .next t) : Kept s t := by
  obtain rfl : (runCmd ioStatusSpec c s) = t := Host.Outcome.next.inj h
  exact runCmd_kept _ _ _ (.refl _) ioStatusSpec_kept
theorem execStpConfigure_kept (c : CmdRef) (s t : State) (h : exec (.stpConfigure c) s = .next t) : Kept s t := by
  obtain rfl : (runCmd stpConfigureSpec c s) = t := Host.Outcome.next.inj h
  exact runCmd_kept _ _ _ (.refl _) stpConfigureSpec_kept
theorem execStpEnable_kept (c : CmdRef) (s t : State) (h : exec (.stpEnable c) s = .next t) : Kept s t := by
  obtain rfl : (runCmd stpEnableSpec c s) = t := Host.Outcome.next.inj h
  exact runCmd_kept _ _ _ (.refl _) stpEnableSpec_kept
theorem execStpDisable_kept (c : CmdRef) (s t : State) (h : exec (.stpDisable c) s = .next t) : Kept s t := by
  obtain rfl : (runCmd stpDisableSpec c s) = t := Host.Outcome.next.inj h
  exact runCmd_kept _ _ _ (.refl _) stpDisableSpec_kept
theorem execStpMove_kept (c : CmdRef) (s t : State) (h : exec (.stpMove c) s = .next t) : Kept s t := by
  obtain rfl : (runCmd stpMoveSpec c s) = t := Host.Outcome.next.inj h
  exact runCmd_kept _ _ _ (.refl _) stpMoveSpec_kept
theorem execStpStop_kept (c : CmdRef) (s t : State) (h : exec (.stpStop c) s = .next t) : Kept s t := by
  obtain rfl : (runCmd stpStopSpec c s) = t := Host.Outcome.next.inj h
  exact runCmd_kept _ _ _ (.refl _) stpStopSpec_kept
theorem execStpHome_kept (c : CmdRef) (s t : State) (h : exec (.stpHome c) s = .next t) : Kept s t := by
  obtain rfl : (runCmd stpHomeSpec c s) = t := Host.Outcome.next.inj h
  exact runCmd_kept _ _ _ (.refl _) stpHomeSpec_kept
theorem execStpSetLimits_kept (c : CmdRef) (s t : State) (h : exec (.stpSetLimits c) s = .next t) : Kept s t := by
  obtain rfl : (runCmd stpSetLimitsSpec c s) = t := Host.Outcome.next.inj h
  exact runCmd_kept _ _ _ (.refl _) stpSetLimitsSpec_kept
theorem execStpClear_kept (c : CmdRef) (s t : State) (h : exec (.stpClear c) s = .next t) : Kept s t := by
  obtain rfl : (runCmd stpClearSpec c s) = t := Host.Outcome.next.inj h
  exact runCmd_kept _ _ _ (.refl _) stpClearSpec_kept
theorem execStpStatus_kept (c : CmdRef) (s t : State) (h : exec (.stpStatus c) s = .next t) : Kept s t := by
  obtain rfl : (runCmd stpStatusSpec c s) = t := Host.Outcome.next.inj h
  exact runCmd_kept _ _ _ (.refl _) stpStatusSpec_kept
theorem execPcSelect_kept (c : CmdRef) (s t : State) (h : exec (.pcSelect c) s = .next t) : Kept s t := by
  obtain rfl : (runCmd pcSelectSpec c s) = t := Host.Outcome.next.inj h
  exact runCmd_kept _ _ _ (.refl _) pcSelectSpec_kept
theorem execPcSpokeInfo_kept (c : CmdRef) (s t : State) (h : exec (.pcSpokeInfo c) s = .next t) : Kept s t := by
  obtain rfl : (runCmd pcSpokeInfoSpec c s) = t := Host.Outcome.next.inj h
  exact runCmd_kept _ _ _ (.refl _) pcSpokeInfoSpec_kept
theorem execJrnStatus_kept (c : CmdRef) (s t : State) (h : exec (.jrnStatus c) s = .next t) : Kept s t := by
  obtain rfl : (runCmd jrnStatusSpec c s) = t := Host.Outcome.next.inj h
  exact runCmd_kept _ _ _ (.refl _) jrnStatusSpec_kept
theorem execJrnRead_kept (c : CmdRef) (s t : State) (h : exec (.jrnRead c) s = .next t) : Kept s t := by
  obtain rfl : (runCmd jrnReadSpec c s) = t := Host.Outcome.next.inj h
  exact runCmd_kept _ _ _ (.refl _) jrnReadSpec_kept
theorem execJrnChallenge_kept (c : CmdRef) (s t : State) (h : exec (.jrnChallenge c) s = .next t) : Kept s t := by
  obtain rfl : (runCmd jrnChallengeSpec c s) = t := Host.Outcome.next.inj h
  exact runCmd_kept _ _ _ (.refl _) jrnChallengeSpec_kept
theorem execJrnTruncate_kept (c : CmdRef) (s t : State) (h : exec (.jrnTruncate c) s = .next t) : Kept s t := by
  obtain rfl : (runCmd jrnTruncateSpec c s) = t := Host.Outcome.next.inj h
  exact runCmd_kept _ _ _ (.refl _) jrnTruncateSpec_kept
theorem execJrnConfigure_kept (c : CmdRef) (s t : State) (h : exec (.jrnConfigure c) s = .next t) : Kept s t := by
  obtain rfl : (runCmd jrnConfigureSpec c s) = t := Host.Outcome.next.inj h
  exact runCmd_kept _ _ _ (.refl _) jrnConfigureSpec_kept
theorem execJrnAnnotate_kept (c : CmdRef) (s t : State) (h : exec (.jrnAnnotate c) s = .next t) : Kept s t := by
  obtain rfl : (runCmd jrnAnnotateSpec c s) = t := Host.Outcome.next.inj h
  exact runCmd_kept _ _ _ (.refl _) jrnAnnotateSpec_kept
theorem execSecAttest_kept (c : CmdRef) (s t : State) (h : exec (.secAttest c) s = .next t) : Kept s t := by
  obtain rfl : (runCmd secAttestSpec c s) = t := Host.Outcome.next.inj h
  exact runCmd_kept _ _ _ (.refl _) secAttestSpec_kept
theorem execSecGetCert_kept (c : CmdRef) (s t : State) (h : exec (.secGetCert c) s = .next t) : Kept s t := by
  obtain rfl : (runCmd secGetCertSpec c s) = t := Host.Outcome.next.inj h
  exact runCmd_kept _ _ _ (.refl _) secGetCertSpec_kept
theorem execSecFuseStatus_kept (c : CmdRef) (s t : State) (h : exec (.secFuseStatus c) s = .next t) : Kept s t := by
  obtain rfl : (runCmd secFuseStatusSpec c s) = t := Host.Outcome.next.inj h
  exact runCmd_kept _ _ _ (.refl _) secFuseStatusSpec_kept
theorem execSecSetOwner_kept (c : CmdRef) (s t : State) (h : exec (.secSetOwner c) s = .next t) : Kept s t := by
  obtain rfl : (runCmd secSetOwnerSpec c s) = t := Host.Outcome.next.inj h
  exact runCmd_kept _ _ _ (.refl _) secSetOwnerSpec_kept
theorem execSecRevokeOwner_kept (c : CmdRef) (s t : State) (h : exec (.secRevokeOwner c) s = .next t) : Kept s t := by
  obtain rfl : (runCmd secRevokeOwnerSpec c s) = t := Host.Outcome.next.inj h
  exact runCmd_kept _ _ _ (.refl _) secRevokeOwnerSpec_kept
theorem execSecAdvanceSvn_kept (c : CmdRef) (s t : State) (h : exec (.secAdvanceSvn c) s = .next t) : Kept s t := by
  obtain rfl : (runCmd secAdvanceSvnSpec c s) = t := Host.Outcome.next.inj h
  exact runCmd_kept _ _ _ (.refl _) secAdvanceSvnSpec_kept
theorem execSecRevokeVendor_kept (c : CmdRef) (s t : State) (h : exec (.secRevokeVendor c) s = .next t) : Kept s t := by
  obtain rfl : (runCmd secRevokeVendorSpec c s) = t := Host.Outcome.next.inj h
  exact runCmd_kept _ _ _ (.refl _) secRevokeVendorSpec_kept
theorem execCommandNoCredit_kept (m : Fin 8) (k : Fin 32) (s t : State) (h : exec (.commandNoCredit m k) s = .next t) : Kept s t := by
  obtain rfl : (noCredit m.val k.val s) = t := Host.Outcome.next.inj h
  apply noCredit_kept; exact .refl _
theorem execTimeLoRead_kept (wide : Bool) (s t : State) (h : exec (.timeLoRead wide) s = .next t) : Kept s t := by
  obtain rfl : (timeLo wide s) = t := Host.Outcome.next.inj h
  apply timeLo_kept; exact .refl _
theorem execPfailNAssert_kept  (s t : State) (h : exec .pfailNAssert s = .next t) : Kept s t := by
  obtain rfl : (pfailAssert s) = t := Host.Outcome.next.inj h
  apply pfailAssert_kept; exact .refl _
theorem execPwrWarn_kept (rail : Rail) (s t : State) (h : exec (.pwrWarn rail) s = .next t) : Kept s t := by
  obtain rfl : (pwrWarn rail s) = t := Host.Outcome.next.inj h
  apply pwrWarn_kept; exact .refl _
theorem execRailResetRelease_kept (rail : Rail) (s t : State) (h : exec (.railResetRelease rail) s = .next t) : Kept s t := by
  obtain rfl : (modDev (fun d => { d with held := d.held.filter (· ≠ rail) }) s) = t := Host.Outcome.next.inj h
  exact modDev_kept _ _ (.refl _) (fun _ => ⟨rfl, rfl, rfl, rfl, rfl⟩)
theorem execThermWarn_kept  (s t : State) (h : exec .thermWarn s = .next t) : Kept s t := by
  obtain rfl : (thermWarn s) = t := Host.Outcome.next.inj h
  apply thermWarn_kept; exact .refl _
theorem execThermWarnClear_kept  (s t : State) (h : exec .thermWarnClear s = .next t) : Kept s t := by
  obtain rfl : (modDev (fun d => { d with thermWarn := false }) s) = t := Host.Outcome.next.inj h
  exact modDev_kept _ _ (.refl _) (fun _ => ⟨rfl, rfl, rfl, rfl, rfl⟩)
theorem execThermCrit_kept  (s t : State) (h : exec .thermCrit s = .next t) : Kept s t := by
  obtain rfl : (thermCrit s) = t := Host.Outcome.next.inj h
  apply thermCrit_kept; exact .refl _
theorem execThermCritClear_kept  (s t : State) (h : exec .thermCritClear s = .next t) : Kept s t := by
  obtain rfl : (modDev (fun d => { d with thermCrit := false }) s) = t := Host.Outcome.next.inj h
  exact modDev_kept _ _ (.refl _) (fun _ => ⟨rfl, rfl, rfl, rfl, rfl⟩)
theorem execThermShutdown_kept  (s t : State) (h : exec .thermShutdown s = .next t) : Kept s t := by
  obtain rfl : (deviceFault 0x01 0x04 false s) = t := Host.Outcome.next.inj h
  apply deviceFault_kept; exact .refl _
theorem execSupLockstep_kept  (s t : State) (h : exec .supLockstep s = .next t) : Kept s t := by
  obtain rfl : (deviceFault 0x01 0x01 false s) = t := Host.Outcome.next.inj h
  apply deviceFault_kept; exact .refl _
theorem execFLockstep_kept  (s t : State) (h : exec .fLockstep s = .next t) : Kept s t := by
  obtain rfl : (dieFCause 0x01 0x02 s) = t := Host.Outcome.next.inj h
  apply dieFCause_kept; exact .refl _
theorem execSupervisorWatchdog_kept  (s t : State) (h : exec .supervisorWatchdog s = .next t) : Kept s t := by
  obtain rfl : (if 16 ≤ s.cad.misses then deviceFault 0x01 0x03 true s else s) = t := Host.Outcome.next.inj h
  split
  · exact deviceFault_kept _ _ _ _ (.refl _)
  · exact .refl _
theorem execClockM_kept  (s t : State) (h : exec .clockM s = .next t) : Kept s t := by
  obtain rfl : (xlinkLoss 0x01 0x05 s) = t := Host.Outcome.next.inj h
  apply xlinkLoss_kept; exact .refl _
theorem execEccUncorrectable_kept (owner : EccOwner) (s t : State) (h : exec (.eccUncorrectable owner) s = .next t) : Kept s t := by
  obtain rfl : (eccUncorrectable owner s) = t := Host.Outcome.next.inj h
  apply eccUncorrectable_kept; exact .refl _
theorem execEccCorrected_kept (spoke : Fin 143) (s t : State) (h : exec (.eccCorrected spoke) s = .next t) : Kept s t := by
  obtain rfl : (eccCorrected spoke.val s) = t := Host.Outcome.next.inj h
  apply eccCorrected_kept; exact .refl _
theorem execXlinkFlit_kept (dest : Die) (flit : List Byte) (s t : State) (h : exec (.xlinkFlit dest flit) s = .next t) : Kept s t := by
  obtain rfl : (xlinkFlit dest flit s) = t := Host.Outcome.next.inj h
  apply xlinkFlit_kept; exact .refl _
theorem execXlinkNak_kept (dest : Die) (seq : BitVec 12) (s t : State) (h : exec (.xlinkNak dest seq) s = .next t) : Kept s t := by
  obtain rfl : (xlinkNak dest seq s) = t := Host.Outcome.next.inj h
  apply xlinkNak_kept; exact .refl _
theorem execXlinkLost_kept  (s t : State) (h : exec .xlinkLost s = .next t) : Kept s t := by
  obtain rfl : (xlinkLoss 0x02 0x01 s) = t := Host.Outcome.next.inj h
  apply xlinkLoss_kept; exact .refl _
theorem execXlinkUp_kept  (s t : State) (h : exec .xlinkUp s = .next t) : Kept s t := by
  obtain rfl : (xlinkUp s) = t := Host.Outcome.next.inj h
  by_cases hm : s.dev.mode = .fault
  · have e : xlinkUp s = s := by unfold xlinkUp; rw [if_pos (by simp [hm])]
    rw [e]; exact .refl _
  · exact xlinkUp_kept _ (.refl _) hm
theorem execXlinkTrainTimeout_kept  (s t : State) (h : exec .xlinkTrainTimeout s = .next t) : Kept s t := by
  obtain rfl : (xlinkTrainTimeout s) = t := Host.Outcome.next.inj h
  by_cases hm : s.dev.mode = .fault
  · have e : xlinkTrainTimeout s = s := by unfold xlinkTrainTimeout; rw [if_pos (by simp [hm])]
    rw [e]; exact .refl _
  · exact xlinkTrainTimeout_kept _ (.refl _) hm
theorem execTimeAlignFlit_kept (error : BitVec 8) (s t : State) (h : exec (.timeAlignFlit error) s = .next t) : Kept s t := by
  obtain rfl : (timeAlign error s) = t := Host.Outcome.next.inj h
  apply timeAlign_kept; exact .refl _
theorem execFieldOutputImage_kept (crcOk : Bool) (s t : State) (h : exec (.fieldOutputImage crcOk) s = .next t) : Kept s t := by
  obtain rfl : (outputImage crcOk s) = t := Host.Outcome.next.inj h
  apply outputImage_kept; exact .refl _
theorem execFieldInputImage_kept  (s t : State) (h : exec .fieldInputImage s = .next t) : Kept s t := by
  obtain rfl : (inputImage s) = t := Host.Outcome.next.inj h
  apply inputImage_kept; exact .refl _
theorem execBlackChannelCopy_kept (a : Fin 128) (entry : List Byte) (s t : State) (h : exec (.blackChannelCopy a entry) s = .next t) : Kept s t := by
  obtain rfl : (blackCopy a.val entry s) = t := Host.Outcome.next.inj h
  apply blackCopy_kept; exact .refl _
theorem execStepCommandRecord_kept  (s t : State) (h : exec .stepCommandRecord s = .next t) : Kept s t := by
  obtain rfl : (stpRecords s) = t := Host.Outcome.next.inj h
  apply stpRecords_kept; exact .refl _
theorem execCh2Verdict_kept (p : Fin 8) (s t : State) (h : exec (.ch2Verdict p) s = .next t) : Kept s t := by
  obtain rfl : (ch2Verdict p.val s) = t := Host.Outcome.next.inj h
  apply ch2Verdict_kept; exact .refl _
theorem execDieFActionReport_kept (u : Fin 256) (s t : State) (h : exec (.dieFActionReport u) s = .next t) : Kept s t := by
  obtain rfl : (actionReport u.val s) = t := Host.Outcome.next.inj h
  apply actionReport_kept; exact .refl _
theorem execCadenceStart_kept  (s t : State) (h : exec .cadenceStart s = .next t) : Kept s t := by
  obtain rfl : (cadenceStart s) = t := Host.Outcome.next.inj h
  apply cadenceStart_kept; exact .refl _
theorem execFeedbackCutoff_kept  (s t : State) (h : exec .feedbackCutoff s = .next t) : Kept s t := by
  obtain rfl : (feedbackCutoff s) = t := Host.Outcome.next.inj h
  apply feedbackCutoff_kept; exact .refl _
theorem execComputeEnd_kept  (s t : State) (h : exec .computeEnd s = .next t) : Kept s t := by
  obtain rfl : (computeEnd s) = t := Host.Outcome.next.inj h
  apply computeEnd_kept; exact .refl _
theorem execTrcFull_kept (k : Fin 8) (s t : State) (h : exec (.trcFull k) s = .next t) : Kept s t := by
  obtain rfl : (trcFull k.val s) = t := Host.Outcome.next.inj h
  apply trcFull_kept; exact .refl _
theorem execPlanningBoundary_kept  (s t : State) (h : exec .planningBoundary s = .next t) : Kept s t := by
  obtain rfl : (planningBoundary s) = t := Host.Outcome.next.inj h
  apply planningBoundary_kept; exact .refl _
theorem execZoneRefused_kept (z : Fin 64) (s t : State) (h : exec (.zoneRefused z) s = .next t) : Kept s t := by
  obtain rfl : (zoneRefused z.val s) = t := Host.Outcome.next.inj h
  apply zoneRefused_kept; exact .refl _
theorem execAsmPhaseStart_kept  (s t : State) (h : exec .asmPhaseStart s = .next t) : Kept s t := by
  obtain rfl : (asmPhase s) = t := Host.Outcome.next.inj h
  apply asmPhase_kept; exact .refl _
theorem execLaneWindowStart_kept  (s t : State) (h : exec .laneWindowStart s = .next t) : Kept s t := by
  obtain rfl : (laneWindow s) = t := Host.Outcome.next.inj h
  apply laneWindow_kept; exact .refl _
theorem execQpProblemDone_kept (u : Fin 64) (s t : State) (h : exec (.qpProblemDone u) s = .next t) : Kept s t := by
  obtain rfl : (qpProblemDone u.val s) = t := Host.Outcome.next.inj h
  apply qpProblemDone_kept; exact .refl _
theorem execQpDeadline_kept (g : Fin 16) (j : Fin 4) (s t : State) (h : exec (.qpDeadline g j) s = .next t) : Kept s t := by
  obtain rfl : (qpDeadline g.val j.val s) = t := Host.Outcome.next.inj h
  apply qpDeadline_kept; exact .refl _
theorem execSelectionPhase_kept (g : Fin 16) (s t : State) (h : exec (.selectionPhase g) s = .next t) : Kept s t := by
  obtain rfl : (selection g.val s) = t := Host.Outcome.next.inj h
  apply selection_kept; exact .refl _
theorem execShiftStop_kept (g : Fin 16) (s t : State) (h : exec (.shiftStop g) s = .next t) : Kept s t := by
  obtain rfl : (shiftStop g.val s) = t := Host.Outcome.next.inj h
  apply shiftStop_kept; exact .refl _
theorem execGuardBoundary_kept  (s t : State) (h : exec .guardBoundary s = .next t) : Kept s t := by
  obtain rfl : (guardBoundary s) = t := Host.Outcome.next.inj h
  apply guardBoundary_kept; exact .refl _
theorem execSensorStale_kept (n : Fin 16) (s t : State) (h : exec (.sensorStale n) s = .next t) : Kept s t := by
  obtain rfl : (sensorStale n.val s) = t := Host.Outcome.next.inj h
  apply sensorStale_kept; exact .refl _
theorem execVerdictDeadline_kept  (s t : State) (h : exec .verdictDeadline s = .next t) : Kept s t := by
  obtain rfl : (verdictDeadline s) = t := Host.Outcome.next.inj h
  apply verdictDeadline_kept; exact .refl _
theorem execTandemMismatch_kept (g : Fin 16) (s t : State) (h : exec (.tandemMismatch g) s = .next t) : Kept s t := by
  obtain rfl : (tandemMismatch g.val s) = t := Host.Outcome.next.inj h
  apply tandemMismatch_kept; exact .refl _
theorem execVerdictAbsent_kept (g : Fin 16) (s t : State) (h : exec (.verdictAbsent g) s = .next t) : Kept s t := by
  obtain rfl : (verdictAbsent g.val s) = t := Host.Outcome.next.inj h
  apply verdictAbsent_kept; exact .refl _
theorem execSpeedExceeded_kept (g : Fin 16) (second : Bool) (s t : State) (h : exec (.speedExceeded g second) s = .next t) : Kept s t := by
  obtain rfl : (speedExceeded g.val second s) = t := Host.Outcome.next.inj h
  apply speedExceeded_kept; exact .refl _
theorem execCh2Feedback_kept (g : Fin 16) (s t : State) (h : exec (.ch2Feedback g) s = .next t) : Kept s t := by
  obtain rfl : (ch2Feedback g.val s) = t := Host.Outcome.next.inj h
  apply ch2Feedback_kept; exact .refl _
theorem execCh2Override_kept (g : Fin 16) (s t : State) (h : exec (.ch2Override g) s = .next t) : Kept s t := by
  obtain rfl : (ch2Override g.val s) = t := Host.Outcome.next.inj h
  apply ch2Override_kept; exact .refl _
theorem execSensorRecord_kept (k : Fin 8) (st : BitVec 8) (b : List Byte) (s t : State) (h : exec (.sensorRecord k st b) s = .next t) : Kept s t := by
  obtain rfl : (sensorRecord k.val st.toNat b s) = t := Host.Outcome.next.inj h
  apply sensorRecord_kept; exact .refl _
theorem execRoundStart_kept  (s t : State) (h : exec .roundStart s = .next t) : Kept s t := by
  obtain rfl : (roundStart s) = t := Host.Outcome.next.inj h
  apply roundStart_kept; exact .refl _
theorem execLatchInstant_kept  (s t : State) (h : exec .latchInstant s = .next t) : Kept s t := by
  obtain rfl : (latch s) = t := Host.Outcome.next.inj h
  apply latch_kept; exact .refl _
theorem execHubDump_kept (dieF : Bool) (s t : State) (h : exec (.hubDump dieF) s = .next t) : Kept s t := by
  obtain rfl : (hubDump dieF s) = t := Host.Outcome.next.inj h
  apply hubDump_kept; exact .refl _
theorem execHubMirrorErr_kept  (s t : State) (h : exec .hubMirrorErr s = .next t) : Kept s t := by
  obtain rfl : (hubMirrorErr s) = t := Host.Outcome.next.inj h
  apply hubMirrorErr_kept; exact .refl _
theorem execStationFrame_kept (seg : Fin 8) (port : Fin 16) (sfd : BitVec 32) (frame : List Byte) (s t : State) (h : exec (.stationFrame seg port sfd frame) s = .next t) : Kept s t := by
  obtain rfl : (stationFrame homeRecord seg.val port.val sfd.toNat frame s) = t := Host.Outcome.next.inj h
  exact stationFrame_kept _ _ _ _ _ _ (fun _ _ h => homeRecord_kept _ _ h) (.refl _)
theorem execForeignFrame_kept (p : Fin 16) (s t : State) (h : exec (.foreignFrame p) s = .next t) : Kept s t := by
  obtain rfl : (foreignFrame p.val s) = t := Host.Outcome.next.inj h
  apply foreignFrame_kept; exact .refl _
theorem execStationSilenced_kept (k : Fin 8) (st : BitVec 8) (s t : State) (h : exec (.stationSilenced k st) s = .next t) : Kept s t := by
  obtain rfl : (stationSilenced k.val st.toNat s) = t := Host.Outcome.next.inj h
  apply stationSilenced_kept; exact .refl _
theorem execFreewheelExpired_kept (a : Fin 128) (s t : State) (h : exec (.freewheelExpired a) s = .next t) : Kept s t := by
  obtain rfl : (freewheelExpired a.val s) = t := Host.Outcome.next.inj h
  apply freewheelExpired_kept; exact .refl _
theorem execMasterCollision_kept (k : Fin 8) (o : BitVec 64) (s t : State) (h : exec (.masterCollision k o) s = .next t) : Kept s t := by
  obtain rfl : (masterCollision k.val o s) = t := Host.Outcome.next.inj h
  apply masterCollision_kept; exact .refl _
theorem execCollisionWaitEnd_kept (k : Fin 8) (s t : State) (h : exec (.collisionWaitEnd k) s = .next t) : Kept s t := by
  obtain rfl : (collisionWaitEnd k.val s) = t := Host.Outcome.next.inj h
  apply collisionWaitEnd_kept; exact .refl _
theorem execRingChangeover_kept (k : Fin 8) (s t : State) (h : exec (.ringChangeover k) s = .next t) : Kept s t := by
  obtain rfl : (ringBroken k.val s) = t := Host.Outcome.next.inj h
  apply ringBroken_kept; exact .refl _
theorem execVzLinkDown_kept (p : Fin 16) (s t : State) (h : exec (.vzLinkDown p) s = .next t) : Kept s t := by
  obtain rfl : (vzLinkDown p.val s) = t := Host.Outcome.next.inj h
  apply vzLinkDown_kept; exact .refl _
theorem execEnumReturn_kept (k : Fin 8) (l : List StationId) (s t : State) (h : exec (.enumReturn k l) s = .next t) : Kept s t := by
  obtain rfl : (enumReturn k.val l s) = t := Host.Outcome.next.inj h
  apply enumReturn_kept; exact .refl _
theorem execDelayReturn_kept (k : Fin 8) (d : List (BitVec 32 × BitVec 32)) (s t : State) (h : exec (.delayReturn k d) s = .next t) : Kept s t := by
  obtain rfl : (delayReturn k.val d s) = t := Host.Outcome.next.inj h
  apply delayReturn_kept; exact .refl _
theorem execArbFrameReturn_kept (k : Fin 8) (c : Fin 32) (st : BitVec 8) (s t : State) (h : exec (.arbFrameReturn k c st) s = .next t) : Kept s t := by
  obtain rfl : (arbReturn k.val c.val st.toNat s) = t := Host.Outcome.next.inj h
  apply arbReturn_kept; exact .refl _
theorem execAcyclicFrame_kept (k : Fin 8) (st : BitVec 8) (b : List Byte) (s t : State) (h : exec (.acyclicFrame k st b) s = .next t) : Kept s t := by
  obtain rfl : (acyclicFrame k.val st.toNat b s) = t := Host.Outcome.next.inj h
  apply acyclicFrame_kept; exact .refl _
theorem execAcyclicTimeout_kept (m : Fin 8) (k : Fin 32) (s t : State) (h : exec (.acyclicTimeout m k) s = .next t) : Kept s t := by
  obtain rfl : (acyclicTimeout m.val k.val s) = t := Host.Outcome.next.inj h
  apply acyclicTimeout_kept; exact .refl _
theorem execPelotonSync_kept (port : LinePort) (rx : BitVec 64) (f : List Byte) (s t : State) (h : exec (.pelotonSync port rx f) s = .next t) : Kept s t := by
  obtain rfl : (pelotonSync port rx.toNat f s) = t := Host.Outcome.next.inj h
  apply pelotonSync_kept; exact .refl _
theorem execPelotonDelayReq_kept (port : LinePort) (rx : BitVec 64) (f : List Byte) (s t : State) (h : exec (.pelotonDelayReq port rx f) s = .next t) : Kept s t := by
  obtain rfl : (pelDelayReq port rx.toNat f s) = t := Host.Outcome.next.inj h
  apply pelDelayReq_kept; exact .refl _
theorem execPelotonDelayResp_kept (port : LinePort) (t1 : BitVec 64) (t4 : BitVec 64) (f : List Byte) (s t : State) (h : exec (.pelotonDelayResp port t1 t4 f) s = .next t) : Kept s t := by
  obtain rfl : (pelDelayResp port t1.toNat t4.toNat f s) = t := Host.Outcome.next.inj h
  apply pelDelayResp_kept; exact .refl _
theorem execPelotonEnum_kept (port : LinePort) (f : List Byte) (s t : State) (h : exec (.pelotonEnum port f) s = .next t) : Kept s t := by
  obtain rfl : (pelEnum port f s) = t := Host.Outcome.next.inj h
  apply pelEnum_kept; exact .refl _
theorem execPelotonConfig_kept (port : LinePort) (f : List Byte) (s t : State) (h : exec (.pelotonConfig port f) s = .next t) : Kept s t := by
  obtain rfl : (pelConfig f s) = t := Host.Outcome.next.inj h
  apply pelConfig_kept; exact .refl _
theorem execPelStartTimeout_kept  (s t : State) (h : exec .pelStartTimeout s = .next t) : Kept s t := by
  obtain rfl : (pelStartTimeout s) = t := Host.Outcome.next.inj h
  apply pelStartTimeout_kept; exact .refl _
theorem execPelSyncSet_kept  (s t : State) (h : exec .pelSyncSet s = .next t) : Kept s t := by
  obtain rfl : (pelSyncSet s) = t := Host.Outcome.next.inj h
  apply pelSyncSet_kept; exact .refl _
theorem execPelSyncLost_kept  (s t : State) (h : exec .pelSyncLost s = .next t) : Kept s t := by
  obtain rfl : (pelSyncLost s) = t := Host.Outcome.next.inj h
  apply pelSyncLost_kept; exact .refl _
theorem execPelTakeover_kept  (s t : State) (h : exec .pelTakeover s = .next t) : Kept s t := by
  obtain rfl : (pelTakeover s) = t := Host.Outcome.next.inj h
  apply pelTakeover_kept; exact .refl _
theorem execAnnouncementApply_kept  (s t : State) (h : exec .announcementApply s = .next t) : Kept s t := by
  obtain rfl : (announcementApply s) = t := Host.Outcome.next.inj h
  apply announcementApply_kept; exact .refl _
theorem execPtpMessage_kept (p : Fin 4) (m : PtpMsg) (s t : State) (h : exec (.ptpMessage p m) s = .next t) : Kept s t := by
  obtain rfl : (ptpMessage p.val m s) = t := Host.Outcome.next.inj h
  apply ptpMessage_kept; exact .refl _
theorem execPtpInterval_kept (p : Fin 4) (k : PtpTick) (stamped : Bool) (s t : State) (h : exec (.ptpInterval p k stamped) s = .next t) : Kept s t := by
  obtain rfl : (ptpInterval p.val k stamped s) = t := Host.Outcome.next.inj h
  apply ptpInterval_kept; exact .refl _
theorem execPtpAnnounceTimeout_kept (p : Fin 4) (s t : State) (h : exec (.ptpAnnounceTimeout p) s = .next t) : Kept s t := by
  obtain rfl : (announceTimeout p.val s) = t := Host.Outcome.next.inj h
  apply announceTimeout_kept; exact .refl _
theorem execGmServoInterval_kept (mean : BitVec 64) (s t : State) (h : exec (.gmServoInterval mean) s = .next t) : Kept s t := by
  obtain rfl : (gmServo mean s) = t := Host.Outcome.next.inj h
  apply gmServo_kept; exact .refl _
theorem execTimedActionFire_kept (u : Fin 256) (s t : State) (h : exec (.timedActionFire u) s = .next t) : Kept s t := by
  obtain rfl : (timedActionFire u.val s) = t := Host.Outcome.next.inj h
  apply timedActionFire_kept; exact .refl _
theorem execTaskRelease_kept (d : Descriptor) (s t : State) (h : exec (.taskRelease d) s = .next t) : Kept s t := by
  obtain rfl : (taskRelease d s) = t := Host.Outcome.next.inj h
  apply taskRelease_kept; exact .refl _
theorem execTaskDispatch_kept (k : Fin 5) (s t : State) (h : exec (.taskDispatch k) s = .next t) : Kept s t := by
  obtain rfl : (taskDispatch k.val s) = t := Host.Outcome.next.inj h
  apply taskDispatch_kept; exact .refl _
theorem execTaskEnd_kept (k : Fin 5) (u : Fin 64) (s t : State) (h : exec (.taskEnd k u) s = .next t) : Kept s t := by
  obtain rfl : (taskEnd k.val u.val s) = t := Host.Outcome.next.inj h
  apply taskEnd_kept; exact .refl _
theorem execFftSliceEnd_kept (u : Fin 32) (s t : State) (h : exec (.fftSliceEnd u) s = .next t) : Kept s t := by
  obtain rfl : (fftSliceEnd u.val s) = t := Host.Outcome.next.inj h
  apply fftSliceEnd_kept; exact .refl _
theorem execSchedDeadlineMiss_kept (k : Fin 5) (f : BitVec 16) (s t : State) (h : exec (.schedDeadlineMiss k f) s = .next t) : Kept s t := by
  obtain rfl : (deadlineMiss k.val f.toNat s) = t := Host.Outcome.next.inj h
  apply deadlineMiss_kept; exact .refl _
theorem execEnqueueResume_kept (k : Fin 5) (s t : State) (h : exec (.enqueueResume k) s = .next t) : Kept s t := by
  obtain rfl : (enqueueResume k.val s) = t := Host.Outcome.next.inj h
  apply enqueueResume_kept; exact .refl _
theorem execInputLevelChange_kept (c : Fin 32) (v : Bool) (s t : State) (h : exec (.inputLevelChange c v) s = .next t) : Kept s t := by
  obtain rfl : (levelChange c.val v s) = t := Host.Outcome.next.inj h
  apply levelChange_kept; exact .refl _
theorem execInputFiltered_kept (c : Fin 32) (s t : State) (h : exec (.inputFiltered c) s = .next t) : Kept s t := by
  obtain rfl : (inputFiltered c.val s) = t := Host.Outcome.next.inj h
  apply inputFiltered_kept; exact .refl _
theorem execInputQualified_kept (c : Fin 32) (s t : State) (h : exec (.inputQualified c) s = .next t) : Kept s t := by
  obtain rfl : (inputQualified c.val s) = t := Host.Outcome.next.inj h
  apply inputQualified_kept; exact .refl _
theorem execChatter_kept (c : Fin 32) (s t : State) (h : exec (.chatter c) s = .next t) : Kept s t := by
  obtain rfl : (chatter c.val s) = t := Host.Outcome.next.inj h
  apply chatter_kept; exact .refl _
theorem execNotFound_kept (a : Fin 128) (s t : State) (h : exec (.notFound a) s = .next t) : Kept s t := by
  obtain rfl : (notFound a.val s) = t := Host.Outcome.next.inj h
  apply notFound_kept; exact .refl _
theorem execHardStopLatch_kept (a : Fin 128) (s t : State) (h : exec (.hardStopLatch a) s = .next t) : Kept s t := by
  obtain rfl : (hardStopLatch a.val s) = t := Host.Outcome.next.inj h
  apply hardStopLatch_kept; exact .refl _
theorem execGroupSettled_kept (g : Fin 16) (s t : State) (h : exec (.groupSettled g) s = .next t) : Kept s t := by
  obtain rfl : (groupSettled g.val s) = t := Host.Outcome.next.inj h
  apply groupSettled_kept; exact .refl _
theorem execEnableTimeout_kept (a : Fin 128) (s t : State) (h : exec (.enableTimeout a) s = .next t) : Kept s t := by
  obtain rfl : (enableTimeout a.val s) = t := Host.Outcome.next.inj h
  apply enableTimeout_kept; exact .refl _
theorem execDisableTimeout_kept (a : Fin 128) (s t : State) (h : exec (.disableTimeout a) s = .next t) : Kept s t := by
  obtain rfl : (disableTimeout a.val s) = t := Host.Outcome.next.inj h
  apply disableTimeout_kept; exact .refl _
theorem execGroupEnableTimeout_kept (g : Fin 16) (s t : State) (h : exec (.groupEnableTimeout g) s = .next t) : Kept s t := by
  obtain rfl : (groupEnableTimeout g.val s) = t := Host.Outcome.next.inj h
  apply groupEnableTimeout_kept; exact .refl _
theorem execInjectionComplete_kept (a : Fin 128) (s t : State) (h : exec (.injectionComplete a) s = .next t) : Kept s t := by
  obtain rfl : (injComplete a.val s) = t := Host.Outcome.next.inj h
  apply injComplete_kept; exact .refl _
theorem execFrfComplete_kept  (s t : State) (h : exec .frfComplete s = .next t) : Kept s t := by
  obtain rfl : (frfComplete s) = t := Host.Outcome.next.inj h
  apply frfComplete_kept; exact .refl _
theorem execOpenInput_kept (c : Fin 32) (low : Bool) (s t : State) (h : exec (.openInput c low) s = .next t) : Kept s t := by
  obtain rfl : (openInput c.val low s) = t := Host.Outcome.next.inj h
  apply openInput_kept; exact .refl _
theorem execOvertemp_kept (c : Fin 32) (tj : BitVec 8) (s t : State) (h : exec (.overtemp c tj) s = .next t) : Kept s t := by
  obtain rfl : (overtemp c.val tj.toNat s) = t := Host.Outcome.next.inj h
  apply overtemp_kept; exact .refl _
theorem execOvertempTrip_kept (c : Fin 32) (tj : BitVec 8) (s t : State) (h : exec (.overtempTrip c tj) s = .next t) : Kept s t := by
  obtain rfl : (overtempTrip c.val tj.toNat s) = t := Host.Outcome.next.inj h
  apply overtempTrip_kept; exact .refl _
theorem execOverload_kept (c : Fin 32) (s t : State) (h : exec (.overload c) s = .next t) : Kept s t := by
  obtain rfl : (overload c.val s) = t := Host.Outcome.next.inj h
  apply overload_kept; exact .refl _
theorem execGroupOverload_kept (x : Fin 4) (cur : List (BitVec 16)) (s t : State) (h : exec (.groupOverload x cur) s = .next t) : Kept s t := by
  obtain rfl : (groupOverload x.val cur s) = t := Host.Outcome.next.inj h
  apply groupOverload_kept; exact .refl _
theorem execShortFlp_kept (c : Fin 32) (s t : State) (h : exec (.shortFlp c) s = .next t) : Kept s t := by
  obtain rfl : (shortFlp c.val s) = t := Host.Outcome.next.inj h
  apply shortFlp_kept; exact .refl _
theorem execOpenOff_kept (c : Fin 32) (s t : State) (h : exec (.openOff c) s = .next t) : Kept s t := by
  obtain rfl : (openOff c.val s) = t := Host.Outcome.next.inj h
  apply openOff_kept; exact .refl _
theorem execOpenOn_kept (c : Fin 32) (s t : State) (h : exec (.openOn c) s = .next t) : Kept s t := by
  obtain rfl : (openOn c.val s) = t := Host.Outcome.next.inj h
  apply openOn_kept; exact .refl _
theorem execCodeCleared_kept (c : Fin 32) (code : BitVec 8) (s t : State) (h : exec (.codeCleared c code) s = .next t) : Kept s t := by
  obtain rfl : (clearCode c.val code.toNat s) = t := Host.Outcome.next.inj h
  apply clearCode_kept; exact .refl _
theorem execChannelRestart_kept (c : Fin 32) (s t : State) (h : exec (.channelRestart c) s = .next t) : Kept s t := by
  obtain rfl : (channelRestart c.val s) = t := Host.Outcome.next.inj h
  apply channelRestart_kept; exact .refl _
theorem execSupplyLow_kept (x : Fin 4) (mv : BitVec 16) (s t : State) (h : exec (.supplyLow x mv) s = .next t) : Kept s t := by
  obtain rfl : (supplyLow x.val mv.toNat s) = t := Host.Outcome.next.inj h
  apply supplyLow_kept; exact .refl _
theorem execSupplyCut_kept (x : Fin 4) (mv : BitVec 16) (s t : State) (h : exec (.supplyCut x mv) s = .next t) : Kept s t := by
  obtain rfl : (supplyLatch x.val 2 mv.toNat s) = t := Host.Outcome.next.inj h
  apply supplyLatch_kept; exact .refl _
theorem execSupplyOver_kept (x : Fin 4) (mv : BitVec 16) (s t : State) (h : exec (.supplyOver x mv) s = .next t) : Kept s t := by
  obtain rfl : (supplyLatch x.val 3 mv.toNat s) = t := Host.Outcome.next.inj h
  apply supplyLatch_kept; exact .refl _
theorem execSupplyLatchRelease_kept (x : Fin 4) (s t : State) (h : exec (.supplyLatchRelease x) s = .next t) : Kept s t := by
  obtain rfl : (supplyLatchRelease x.val s) = t := Host.Outcome.next.inj h
  apply supplyLatchRelease_kept; exact .refl _
theorem execLogicSilence_kept  (s t : State) (h : exec .logicSilence s = .next t) : Kept s t := by
  obtain rfl : (logicSilence s) = t := Host.Outcome.next.inj h
  apply logicSilence_kept; exact .refl _
theorem execStpHoldAssert_kept (n : Fin 16) (s t : State) (h : exec (.stpHoldAssert n) s = .next t) : Kept s t := by
  obtain rfl : (stpHold n.val s) = t := Host.Outcome.next.inj h
  apply stpHold_kept; exact .refl _
theorem execJournalRecordSend_kept  (s t : State) (h : exec .journalRecordSend s = .next t) : Kept s t := by
  obtain rfl : (journalSend s) = t := Host.Outcome.next.inj h
  apply journalSend_kept; exact .refl _
theorem execJournalWrite_kept  (s t : State) (h : exec .journalWrite s = .next t) : Kept s t := by
  obtain rfl : (journalWrite s) = t := Host.Outcome.next.inj h
  apply journalWrite_kept; exact .refl _
theorem execHoldupWindowEnd_kept  (s t : State) (h : exec .holdupWindowEnd s = .next t) : Kept s t := by
  obtain rfl : (holdupWindowEnd s) = t := Host.Outcome.next.inj h
  apply holdupWindowEnd_kept; exact .refl _
theorem execHoldupDone_kept  (s t : State) (h : exec .holdupDone s = .next t) : Kept s t := by
  obtain rfl : (holdupDone s) = t := Host.Outcome.next.inj h
  apply holdupDone_kept; exact .refl _
theorem execHoldupCheck_kept (cMeas : BitVec 16) (s t : State) (h : exec (.holdupCheck cMeas) s = .next t) : Kept s t := by
  obtain rfl : (holdupCheck cMeas s) = t := Host.Outcome.next.inj h
  apply holdupCheck_kept; exact .refl _
theorem execTruncateEraseDone_kept  (s t : State) (h : exec .truncateEraseDone s = .next t) : Kept s t := by
  obtain rfl : (eraseDone s) = t := Host.Outcome.next.inj h
  apply eraseDone_kept; exact .refl _
theorem execLpddrTrained_kept  (s t : State) (h : exec .lpddrTrained s = .next t) : Kept s t := by
  obtain rfl : (lpddrTrained s) = t := Host.Outcome.next.inj h
  apply lpddrTrained_kept; exact .refl _
theorem execStagedImageFound_kept  (s t : State) (h : exec .stagedImageFound s = .next t) : Kept s t := by
  obtain rfl : (stagedImage s) = t := Host.Outcome.next.inj h
  by_cases hm : s.dev.mode = .fault
  · have e : stagedImage s = s := by unfold stagedImage; rw [if_pos (by simp [hm, awaitsImage])]
    rw [e]; exact .refl _
  · exact stagedImage_kept _ (.refl _) hm
theorem execContainerLoaded_kept  (s t : State) (h : exec .containerLoaded s = .next t) : Kept s t := by
  obtain rfl : (containerLoaded s) = t := Host.Outcome.next.inj h
  by_cases hm : s.dev.mode = .fault
  · have e : containerLoaded s = s := by unfold containerLoaded; rw [if_pos (by simp [hm, awaitsImage])]
    rw [e]; exact .refl _
  · exact containerLoaded_kept _ (.refl _) hm
theorem execFirmwareHandover_kept  (s t : State) (h : exec .firmwareHandover s = .next t) : Kept s t := by
  obtain rfl : (handover s) = t := Host.Outcome.next.inj h
  by_cases hm : s.dev.mode = .fault
  · have e : handover s = s := by unfold handover; rw [if_pos (by simp [hm])]
    rw [e]; exact .refl _
  · exact handover_kept _ (.refl _) hm
theorem execLpddrInitDone_kept  (s t : State) (h : exec .lpddrInitDone s = .next t) : Kept s t := by
  obtain rfl : (lpddrDone s) = t := Host.Outcome.next.inj h
  apply lpddrDone_kept; exact .refl _
theorem execBootRun_kept  (s t : State) (h : exec .bootRun s = .next t) : Kept s t := by
  obtain rfl : (bootRun s) = t := Host.Outcome.next.inj h
  by_cases hm : s.dev.mode = .fault
  · have e : bootRun s = s := by unfold bootRun; rw [if_pos (by simp [hm])]
    rw [e]; exact .refl _
  · exact bootRun_kept _ (.refl _) hm
theorem execImageRecordReplay_kept  (s t : State) (h : exec .imageRecordReplay s = .next t) : Kept s t := by
  obtain rfl : (imageRecord s) = t := Host.Outcome.next.inj h
  apply imageRecord_kept; exact .refl _
theorem execRomWatchdog_kept  (s t : State) (h : exec .romWatchdog s = .next t) : Kept s t := by
  obtain rfl : (romWatchdog s) = t := Host.Outcome.next.inj h
  apply romWatchdog_kept; exact .refl _
theorem execInitWatchdog_kept  (s t : State) (h : exec .initWatchdog s = .next t) : Kept s t := by
  obtain rfl : (initWatchdog s) = t := Host.Outcome.next.inj h
  apply initWatchdog_kept; exact .refl _
theorem execBootUnconfirmed_kept  (s t : State) (h : exec .bootUnconfirmed s = .next t) : Kept s t := by
  obtain rfl : (bootUnconfirmed s) = t := Host.Outcome.next.inj h
  apply bootUnconfirmed_kept; exact .refl _
theorem execBadOpcodeCommand_kept (c : CmdRef) (s t : State) (h : exec (.badOpcodeCommand c) s = .next t) : Kept s t := by
  obtain rfl : (badOpcode c s) = t := Host.Outcome.next.inj h
  apply badOpcode_kept; exact .refl _
theorem execFwUpdateDone_kept  (s t : State) (h : exec .fwUpdateDone s = .next t) : Kept s t := by
  obtain rfl : (fwUpdateDone s) = t := Host.Outcome.next.inj h
  apply fwUpdateDone_kept; exact .refl _
theorem execFlpFirstRise_kept (x : Fin 4) (mv : BitVec 16) (s t : State) (h : exec (.flpFirstRise x mv) s = .next t) : Kept s t := by
  obtain rfl : (flpFirstRise x.val mv.toNat s) = t := Host.Outcome.next.inj h
  apply flpFirstRise_kept; exact .refl _

theorem exec_kept (i : Instr) (s t : State) (h : exec i s = .next t) (hp : plain i = true) : Kept s t := by
  cases i with
  | devBootStatus c => exact execDevBootStatus_kept _ _ _ h
  | devReset c => exact execDevReset_kept _ _ _ h
  | devConfirmBoot c => exact execDevConfirmBoot_kept _ _ _ h
  | devLoadImage c => exact execDevLoadImage_kept _ _ _ h
  | devUpdateFw c => exact execDevUpdateFw_kept _ _ _ h
  | timeStatus c => exact execTimeStatus_kept _ _ _ h
  | timeConfigure c => exact execTimeConfigure_kept _ _ _ h
  | timeSetPlant c => exact execTimeSetPlant_kept _ _ _ h
  | timePtpPort c => exact execTimePtpPort_kept _ _ _ h
  | timePtpStatus c => exact execTimePtpStatus_kept _ _ _ h
  | busSetTiming c => exact execBusSetTiming_kept _ _ _ h
  | busConfigureSegment c => exact execBusConfigureSegment_kept _ _ _ h
  | busStart c => exact execBusStart_kept _ _ _ h
  | busStop c => exact execBusStop_kept _ _ _ h
  | busLoadMatrix c => exact execBusLoadMatrix_kept _ _ _ h
  | busSwitchMatrix c => exact execBusSwitchMatrix_kept _ _ _ h
  | busMapAxis c => exact execBusMapAxis_kept _ _ _ h
  | busSetAlias c => exact execBusSetAlias_kept _ _ _ h
  | busStationReset c => exact execBusStationReset_kept _ _ _ h
  | busRejoin c => exact execBusRejoin_kept _ _ _ h
  | busAcyclic c => exact execBusAcyclic_kept _ _ _ h
  | busStatus c => exact execBusStatus_kept _ _ _ h
  | pelConfigure c => exact execPelConfigure_kept _ _ _ h
  | pelStart c => exact execPelStart_kept _ _ _ h
  | pelStop c => exact execPelStop_kept _ _ _ h
  | pelHandover c => exact execPelHandover_kept _ _ _ h
  | pelFollowGm c => exact execPelFollowGm_kept _ _ _ h
  | pelStatus c => exact execPelStatus_kept _ _ _ h
  | schedStatus c => exact execSchedStatus_kept _ _ _ h
  | schedLoad c => exact execSchedLoad_kept _ _ _ h
  | schedWcet c => exact execSchedWcet_kept _ _ _ h
  | schedSetWatermarks c => exact execSchedSetWatermarks_kept _ _ _ h
  | schedClearStats c => exact execSchedClearStats_kept _ _ _ h
  | schedFlowStatus c => exact execSchedFlowStatus_kept _ _ _ h
  | schedFlowLimit c => exact execSchedFlowLimit_kept _ _ _ h
  | schedCancel c => exact execSchedCancel_kept _ _ _ h
  | sigMap c => exact execSigMap_kept _ _ _ h
  | sigRead c => exact execSigRead_kept _ _ _ h
  | sigWrite c => exact execSigWrite_kept _ _ _ h
  | sigWatch c => exact execSigWatch_kept _ _ _ h
  | grpConfigure c => exact execGrpConfigure_kept _ _ _ h
  | grpEnable c => exact execGrpEnable_kept _ _ _ h
  | grpDisable c => exact execGrpDisable_kept _ _ _ h
  | grpMove c => exact execGrpMove_kept _ _ _ h
  | grpHold c => exact execGrpHold_kept _ _ _ h
  | grpResume c => exact execGrpResume_kept _ _ _ h
  | grpHome c => exact execGrpHome_kept _ _ _ h
  | grpClear c => exact execGrpClear_kept _ _ _ h
  | grpSetPayload c => exact execGrpSetPayload_kept _ _ _ h
  | grpStop c => exact execGrpStop_kept _ _ _ h
  | grpStatus c => exact execGrpStatus_kept _ _ _ h
  | axisConfigure c => exact execAxisConfigure_kept _ _ _ h
  | axisEnable c => exact execAxisEnable_kept _ _ _ h
  | axisDisable c => exact execAxisDisable_kept _ _ _ h
  | axisClose c => exact execAxisClose_kept _ _ _ h
  | axisOpen c => exact execAxisOpen_kept _ _ _ h
  | axisClear c => exact execAxisClear_kept _ _ _ h
  | axisMove c => exact execAxisMove_kept _ _ _ h
  | axisSetLimits c => exact execAxisSetLimits_kept _ _ _ h
  | axisStop c => exact execAxisStop_kept _ _ _ h
  | strmAttach c => exact execStrmAttach_kept _ _ _ h
  | strmDetach c => exact execStrmDetach_kept _ _ _ h
  | strmAnchor c => exact execStrmAnchor_kept _ _ _ h
  | qpDefineClass c => exact execQpDefineClass_kept _ _ _ h
  | qpRemoveClass c => exact execQpRemoveClass_kept _ _ _ h
  | qpAssign c => exact execQpAssign_kept _ _ _ h
  | qpConfigure c => exact execQpConfigure_kept _ _ _ h
  | qpStatus c => exact execQpStatus_kept _ _ _ h
  | qpResult c => exact execQpResult_kept _ _ _ h
  | loopConfigure c => exact execLoopConfigure_kept _ _ _ h
  | loopSetComp c => exact execLoopSetComp_kept _ _ _ h
  | loopSetFilter c => exact execLoopSetFilter_kept _ _ _ h
  | loopSetCascade c => exact execLoopSetCascade_kept _ _ _ h
  | loopSetCoeff c => exact execLoopSetCoeff_kept _ _ _ h
  | loopSetLimits c => exact execLoopSetLimits_kept _ _ _ h
  | loopStatus c => exact execLoopStatus_kept _ _ _ h
  | loopReadCoeff c => exact execLoopReadCoeff_kept _ _ _ h
  | traceConfigure c => exact execTraceConfigure_kept _ _ _ h
  | traceSetLength c => exact execTraceSetLength_kept _ _ _ h
  | traceArm c => exact execTraceArm_kept _ _ _ h
  | traceTrigger c => exact execTraceTrigger_kept _ _ _ h
  | traceStop c => exact execTraceStop_kept _ _ _ h
  | traceStatus c => exact execTraceStatus_kept _ _ _ h
  | traceRead c => exact execTraceRead_kept _ _ _ h
  | traceInject c => exact execTraceInject_kept _ _ _ h
  | traceInjectStop c => exact execTraceInjectStop_kept _ _ _ h
  | traceFrf c => exact execTraceFrf_kept _ _ _ h
  | zoneDefine c => exact execZoneDefine_kept _ _ _ h
  | zoneRequest c => exact execZoneRequest_kept _ _ _ h
  | zoneRelease c => exact execZoneRelease_kept _ _ _ h
  | zoneStatus c => exact execZoneStatus_kept _ _ _ h
  | ssmConfigure c => exact execSsmConfigure_kept _ _ _ h
  | ssmSetGroup c => exact execSsmSetGroup_kept _ _ _ h
  | ssmSetObstacles c => exact execSsmSetObstacles_kept _ _ _ h
  | ssmSetSensor c => exact execSsmSetSensor_kept _ _ _ h
  | ssmStatus c => exact execSsmStatus_kept _ _ _ h
  | ioConfigure c => exact execIoConfigure_kept _ _ _ h
  | ioConfigureGroup c => exact execIoConfigureGroup_kept _ _ _ h
  | ioSetWatchdog c => exact execIoSetWatchdog_kept _ _ _ h
  | ioWrite c => exact execIoWrite_kept _ _ _ h
  | ioReenable c => exact execIoReenable_kept _ _ _ h
  | ioReleaseSafe c => exact execIoReleaseSafe_kept _ _ _ h
  | ioStoReset c => exact execIoStoReset_kept _ _ _ h
  | ioStatus c => exact execIoStatus_kept _ _ _ h
  | stpConfigure c => exact execStpConfigure_kept _ _ _ h
  | stpEnable c => exact execStpEnable_kept _ _ _ h
  | stpDisable c => exact execStpDisable_kept _ _ _ h
  | stpMove c => exact execStpMove_kept _ _ _ h
  | stpStop c => exact execStpStop_kept _ _ _ h
  | stpHome c => exact execStpHome_kept _ _ _ h
  | stpSetLimits c => exact execStpSetLimits_kept _ _ _ h
  | stpClear c => exact execStpClear_kept _ _ _ h
  | stpStatus c => exact execStpStatus_kept _ _ _ h
  | pcSelect c => exact execPcSelect_kept _ _ _ h
  | pcSpokeInfo c => exact execPcSpokeInfo_kept _ _ _ h
  | jrnStatus c => exact execJrnStatus_kept _ _ _ h
  | jrnRead c => exact execJrnRead_kept _ _ _ h
  | jrnChallenge c => exact execJrnChallenge_kept _ _ _ h
  | jrnTruncate c => exact execJrnTruncate_kept _ _ _ h
  | jrnConfigure c => exact execJrnConfigure_kept _ _ _ h
  | jrnAnnotate c => exact execJrnAnnotate_kept _ _ _ h
  | secAttest c => exact execSecAttest_kept _ _ _ h
  | secGetCert c => exact execSecGetCert_kept _ _ _ h
  | secFuseStatus c => exact execSecFuseStatus_kept _ _ _ h
  | secSetOwner c => exact execSecSetOwner_kept _ _ _ h
  | secRevokeOwner c => exact execSecRevokeOwner_kept _ _ _ h
  | secAdvanceSvn c => exact execSecAdvanceSvn_kept _ _ _ h
  | secRevokeVendor c => exact execSecRevokeVendor_kept _ _ _ h
  | commandNoCredit m k => exact execCommandNoCredit_kept _ _ _ _ h
  | mbDoneClear _ _ => cases hp
  | mbStatClear _ _ => cases hp
  | commandBufferWrite _ _ _ _ => cases hp
  | evtPendClear _ _ _ => cases hp
  | evtLostClear _ _ => cases hp
  | evtMaskWrite _ _ => cases hp
  | evtMapWrite _ _ => cases hp
  | timeLoRead wide => exact execTimeLoRead_kept _ _ _ h
  | timeLatch _ => cases hp
  | hubCtlWrite _ => cases hp
  | hubPeriodWrite _ => cases hp
  | hubRdWrite _ => cases hp
  | hubMirrorWrite _ _ => cases hp
  | usrGrantWrite _ => cases hp
  | usrCtlWrite _ => cases hp
  | usrWinWrite _ => cases hp
  | streamProdWrite _ _ _ => cases hp
  | registerWrite _ _ _ => cases hp
  | porstNAssert => cases hp
  | porstNRelease _ _ => cases hp
  | linkReset => cases hp
  | pfailNAssert => exact execPfailNAssert_kept  _ _ h
  | pfailNRelease => cases hp
  | pwrWarn rail => exact execPwrWarn_kept _ _ _ h
  | railResetExcursion _ => cases hp
  | railResetRelease rail => exact execRailResetRelease_kept _ _ _ h
  | thermWarn => exact execThermWarn_kept  _ _ h
  | thermWarnClear => exact execThermWarnClear_kept  _ _ h
  | thermCrit => exact execThermCrit_kept  _ _ h
  | thermCritClear => exact execThermCritClear_kept  _ _ h
  | thermShutdown => exact execThermShutdown_kept  _ _ h
  | supLockstep => exact execSupLockstep_kept  _ _ h
  | fLockstep => exact execFLockstep_kept  _ _ h
  | supervisorWatchdog => exact execSupervisorWatchdog_kept  _ _ h
  | clockM => exact execClockM_kept  _ _ h
  | eccUncorrectable owner => exact execEccUncorrectable_kept _ _ _ h
  | eccCorrected spoke => exact execEccCorrected_kept _ _ _ h
  | xlinkFlit dest flit => exact execXlinkFlit_kept _ _ _ _ h
  | xlinkNak dest seq => exact execXlinkNak_kept _ _ _ _ h
  | xlinkLost => exact execXlinkLost_kept  _ _ h
  | xlinkUp => exact execXlinkUp_kept  _ _ h
  | xlinkTrainTimeout => exact execXlinkTrainTimeout_kept  _ _ h
  | timeAlignFlit error => exact execTimeAlignFlit_kept _ _ _ h
  | fieldOutputImage crcOk => exact execFieldOutputImage_kept _ _ _ h
  | fieldInputImage => exact execFieldInputImage_kept  _ _ h
  | blackChannelCopy a entry => exact execBlackChannelCopy_kept _ _ _ _ h
  | stepCommandRecord => exact execStepCommandRecord_kept  _ _ h
  | ch2Verdict p => exact execCh2Verdict_kept _ _ _ h
  | dieFActionReport u => exact execDieFActionReport_kept _ _ _ h
  | cadenceStart => exact execCadenceStart_kept  _ _ h
  | feedbackCutoff => exact execFeedbackCutoff_kept  _ _ h
  | computeEnd => exact execComputeEnd_kept  _ _ h
  | trcFull k => exact execTrcFull_kept _ _ _ h
  | planningBoundary => exact execPlanningBoundary_kept  _ _ h
  | zoneRefused z => exact execZoneRefused_kept _ _ _ h
  | asmPhaseStart => exact execAsmPhaseStart_kept  _ _ h
  | laneWindowStart => exact execLaneWindowStart_kept  _ _ h
  | qpProblemDone u => exact execQpProblemDone_kept _ _ _ h
  | qpDeadline g j => exact execQpDeadline_kept _ _ _ _ h
  | selectionPhase g => exact execSelectionPhase_kept _ _ _ h
  | shiftStop g => exact execShiftStop_kept _ _ _ h
  | guardBoundary => exact execGuardBoundary_kept  _ _ h
  | sensorStale n => exact execSensorStale_kept _ _ _ h
  | verdictDeadline => exact execVerdictDeadline_kept  _ _ h
  | tandemMismatch g => exact execTandemMismatch_kept _ _ _ h
  | verdictAbsent g => exact execVerdictAbsent_kept _ _ _ h
  | speedExceeded g second => exact execSpeedExceeded_kept _ _ _ _ h
  | ch2Feedback g => exact execCh2Feedback_kept _ _ _ h
  | ch2Override g => exact execCh2Override_kept _ _ _ h
  | sensorRecord k st b => exact execSensorRecord_kept _ _ _ _ _ h
  | roundStart => exact execRoundStart_kept  _ _ h
  | latchInstant => exact execLatchInstant_kept  _ _ h
  | hubDump dieF => exact execHubDump_kept _ _ _ h
  | hubMirrorErr => exact execHubMirrorErr_kept  _ _ h
  | stationFrame seg port sfd frame => exact execStationFrame_kept _ _ _ _ _ _ h
  | foreignFrame p => exact execForeignFrame_kept _ _ _ h
  | stationSilenced k st => exact execStationSilenced_kept _ _ _ _ h
  | freewheelExpired a => exact execFreewheelExpired_kept _ _ _ h
  | masterCollision k o => exact execMasterCollision_kept _ _ _ _ h
  | collisionWaitEnd k => exact execCollisionWaitEnd_kept _ _ _ h
  | ringChangeover k => exact execRingChangeover_kept _ _ _ h
  | vzLinkDown p => exact execVzLinkDown_kept _ _ _ h
  | enumReturn k l => exact execEnumReturn_kept _ _ _ _ h
  | delayReturn k d => exact execDelayReturn_kept _ _ _ _ h
  | arbFrameReturn k c st => exact execArbFrameReturn_kept _ _ _ _ _ h
  | acyclicFrame k st b => exact execAcyclicFrame_kept _ _ _ _ _ h
  | acyclicTimeout m k => exact execAcyclicTimeout_kept _ _ _ _ h
  | pelotonSync port rx f => exact execPelotonSync_kept _ _ _ _ _ h
  | pelotonDelayReq port rx f => exact execPelotonDelayReq_kept _ _ _ _ _ h
  | pelotonDelayResp port t1 t4 f => exact execPelotonDelayResp_kept _ _ _ _ _ _ h
  | pelotonEnum port f => exact execPelotonEnum_kept _ _ _ _ h
  | pelotonConfig port f => exact execPelotonConfig_kept _ _ _ _ h
  | pelStartTimeout => exact execPelStartTimeout_kept  _ _ h
  | pelSyncSet => exact execPelSyncSet_kept  _ _ h
  | pelSyncLost => exact execPelSyncLost_kept  _ _ h
  | pelTakeover => exact execPelTakeover_kept  _ _ h
  | announcementApply => exact execAnnouncementApply_kept  _ _ h
  | ptpMessage p m => exact execPtpMessage_kept _ _ _ _ h
  | ptpInterval p k stamped => exact execPtpInterval_kept _ _ _ _ _ h
  | ptpAnnounceTimeout p => exact execPtpAnnounceTimeout_kept _ _ _ h
  | gmServoInterval mean => exact execGmServoInterval_kept _ _ _ h
  | timedActionFire u => exact execTimedActionFire_kept _ _ _ h
  | taskRelease d => exact execTaskRelease_kept _ _ _ h
  | taskDispatch k => exact execTaskDispatch_kept _ _ _ h
  | taskEnd k u => exact execTaskEnd_kept _ _ _ _ h
  | fftSliceEnd u => exact execFftSliceEnd_kept _ _ _ h
  | schedDeadlineMiss k f => exact execSchedDeadlineMiss_kept _ _ _ _ h
  | enqueueResume k => exact execEnqueueResume_kept _ _ _ h
  | inputLevelChange c v => exact execInputLevelChange_kept _ _ _ _ h
  | inputFiltered c => exact execInputFiltered_kept _ _ _ h
  | inputQualified c => exact execInputQualified_kept _ _ _ h
  | chatter c => exact execChatter_kept _ _ _ h
  | notFound a => exact execNotFound_kept _ _ _ h
  | hardStopLatch a => exact execHardStopLatch_kept _ _ _ h
  | groupSettled g => exact execGroupSettled_kept _ _ _ h
  | enableTimeout a => exact execEnableTimeout_kept _ _ _ h
  | disableTimeout a => exact execDisableTimeout_kept _ _ _ h
  | groupEnableTimeout g => exact execGroupEnableTimeout_kept _ _ _ h
  | injectionComplete a => exact execInjectionComplete_kept _ _ _ h
  | frfComplete => exact execFrfComplete_kept  _ _ h
  | openInput c low => exact execOpenInput_kept _ _ _ _ h
  | overtemp c tj => exact execOvertemp_kept _ _ _ _ h
  | overtempTrip c tj => exact execOvertempTrip_kept _ _ _ _ h
  | overload c => exact execOverload_kept _ _ _ h
  | groupOverload x cur => exact execGroupOverload_kept _ _ _ _ h
  | shortFlp c => exact execShortFlp_kept _ _ _ h
  | openOff c => exact execOpenOff_kept _ _ _ h
  | openOn c => exact execOpenOn_kept _ _ _ h
  | codeCleared c code => exact execCodeCleared_kept _ _ _ _ h
  | channelRestart c => exact execChannelRestart_kept _ _ _ h
  | supplyLow x mv => exact execSupplyLow_kept _ _ _ _ h
  | supplyCut x mv => exact execSupplyCut_kept _ _ _ _ h
  | supplyOver x mv => exact execSupplyOver_kept _ _ _ _ h
  | supplyLatchRelease x => exact execSupplyLatchRelease_kept _ _ _ h
  | logicSilence => exact execLogicSilence_kept  _ _ h
  | stpHoldAssert n => exact execStpHoldAssert_kept _ _ _ h
  | journalRecordSend => exact execJournalRecordSend_kept  _ _ h
  | journalWrite => exact execJournalWrite_kept  _ _ h
  | holdupWindowEnd => exact execHoldupWindowEnd_kept  _ _ h
  | holdupDone => exact execHoldupDone_kept  _ _ h
  | holdupCheck cMeas => exact execHoldupCheck_kept _ _ _ h
  | truncateEraseDone => exact execTruncateEraseDone_kept  _ _ h
  | lpddrTrained => exact execLpddrTrained_kept  _ _ h
  | stagedImageFound => exact execStagedImageFound_kept  _ _ h
  | containerLoaded => exact execContainerLoaded_kept  _ _ h
  | firmwareHandover => exact execFirmwareHandover_kept  _ _ h
  | lpddrInitDone => exact execLpddrInitDone_kept  _ _ h
  | bootRun => exact execBootRun_kept  _ _ h
  | imageRecordReplay => exact execImageRecordReplay_kept  _ _ h
  | romWatchdog => exact execRomWatchdog_kept  _ _ h
  | initWatchdog => exact execInitWatchdog_kept  _ _ h
  | bootUnconfirmed => exact execBootUnconfirmed_kept  _ _ h
  | deviceReset _ _ => cases hp
  | mbDoorbell _ _ => cases hp
  | badOpcodeCommand c => exact execBadOpcodeCommand_kept _ _ _ h
  | fwUpdateDone => exact execFwUpdateDone_kept  _ _ h
  | flpFirstRise x mv => exact execFlpFirstRise_kept _ _ _ _ h

end Sys2Proof.Machine
end

