-- ==== Sys2Proof/Laws/Rest.lean ====
section
/-!
SUPPORT. `Rest msk a b`: of the time, device, journal, crosslink, effect and unit islands that the mask does not free, `b` has what `a`
has. One lemma per function that the rows of the table run: it needs the mask to free the islands that the function may change.
-/
namespace Sys2Proof.Machine

set_option Elab.async false
set_option linter.all false

/-- The islands that may differ. -/
structure MaskR where
  time : Bool := false
  dev : Bool := false
  jrn : Bool := false
  xl : Bool := false
  eff : Bool := false
  tilesOut : Bool := false
  lanesOut : Bool := false

/-- `b` has the islands of `a` that the mask does not free. -/
structure Rest (msk : MaskR) (a b : State) : Prop where
  time : msk.time = true ∨ b.time = a.time
  dev : msk.dev = true ∨ b.dev = a.dev
  jrn : msk.jrn = true ∨ b.jrn = a.jrn
  xl : msk.xl = true ∨ b.xl = a.xl
  eff : msk.eff = true ∨ b.eff = a.eff
  tilesOut : msk.tilesOut = true ∨ b.tilesOut = a.tilesOut
  lanesOut : msk.lanesOut = true ∨ b.lanesOut = a.lanesOut

variable {msk : MaskR} {s0 : State}

theorem Rest.refl (msk : MaskR) (s : State) : Rest msk s s := by constructor <;> exact Or.inr rfl

theorem rest_mk {s : State} {host evt strm time cad ptp dev jrn hub xl bus pel axes grps sig sch io stp qp trc ssm eff tilesOut lanesOut out admitSeq free pending}
   (c0 : msk.time = true ∨ time = s.time) (c1 : msk.dev = true ∨ dev = s.dev) (c2 : msk.jrn = true ∨ jrn = s.jrn) (c3 : msk.xl = true ∨ xl = s.xl) (c4 : msk.eff = true ∨ eff = s.eff) (c5 : msk.tilesOut = true ∨ tilesOut = s.tilesOut) (c6 : msk.lanesOut = true ∨ lanesOut = s.lanesOut)
   (h : Rest msk s0 s) : Rest msk s0 ⟨host, evt, strm, time, cad, ptp, dev, jrn, hub, xl, bus, pel, axes, grps, sig, sch, io, stp, qp, trc, ssm, eff, tilesOut, lanesOut, out, admitSeq, free, pending⟩ := by
  constructor
  · exact c0.elim Or.inl (fun e => h.time.elim Or.inl (fun g => Or.inr (e.trans g)))
  · exact c1.elim Or.inl (fun e => h.dev.elim Or.inl (fun g => Or.inr (e.trans g)))
  · exact c2.elim Or.inl (fun e => h.jrn.elim Or.inl (fun g => Or.inr (e.trans g)))
  · exact c3.elim Or.inl (fun e => h.xl.elim Or.inl (fun g => Or.inr (e.trans g)))
  · exact c4.elim Or.inl (fun e => h.eff.elim Or.inl (fun g => Or.inr (e.trans g)))
  · exact c5.elim Or.inl (fun e => h.tilesOut.elim Or.inl (fun g => Or.inr (e.trans g)))
  · exact c6.elim Or.inl (fun e => h.lanesOut.elim Or.inl (fun g => Or.inr (e.trans g)))

theorem foldl_rest {α : Type} (l : List α) (f : State → α → State) (hf : ∀ t x, Rest msk s0 t → Rest msk s0 (f t x)) (s : State) (h : Rest msk s0 s) :
    Rest msk s0 (l.foldl f s) := by
  induction l generalizing s with
  | nil => exact h
  | cons x r ih => exact ih _ (hf _ _ h)

theorem ite_rest (c : Prop) [Decidable c] {a b : State} (ha : Rest msk s0 a) (hb : Rest msk s0 b) : Rest msk s0 (if c then a else b) := by
  split
  · exact ha
  · exact hb

theorem takeEff_rest (op : Nat → Bool) (t : Nat) (s : State) (hs : Rest msk s0 s) (meff : msk.eff = true := by assumption) : Rest msk s0 (takeEff op t s).2 := by
  unfold takeEff; constructor
  · exact hs.time
  · exact hs.dev
  · exact hs.jrn
  · exact hs.xl
  · exact .inl meff
  · exact hs.tilesOut
  · exact hs.lanesOut

theorem advanceTo_rest (t : Nat) (s : State) (hs : Rest msk s0 s) (mtime : msk.time = true := by assumption) : Rest msk s0 (advanceTo t s) := by
  unfold advanceTo
  try dsimp only
  with_reducible repeat' first | assumption | (apply rest_mk; (iterate 7 (first | exact Or.inr rfl | exact Or.inl ‹_›)); (first | assumption | split)) | split | intro _

theorem freeNext_rest (s : State) (hs : Rest msk s0 s)  : Rest msk s0 (freeNext s) := by
  unfold freeNext
  try dsimp only
  with_reducible repeat' first | assumption | (apply rest_mk; (iterate 7 (first | exact Or.inr rfl | exact Or.inl ‹_›)); (first | assumption | split)) | split | intro _

theorem emit_rest (k : OutKind) (u : Nat) (b : List Byte) (s : State) (hs : Rest msk s0 s)  : Rest msk s0 (emit k u b s) := by
  unfold emit
  try dsimp only
  with_reducible repeat' first | assumption | (apply rest_mk; (iterate 7 (first | exact Or.inr rfl | exact Or.inl ‹_›)); (first | assumption | split)) | split | intro _

theorem setSpoke_rest (i : Nat) (p : Spoke) (s : State) (hs : Rest msk s0 s)  : Rest msk s0 (setSpoke i p s) := by
  unfold setSpoke
  try dsimp only
  with_reducible repeat' first | assumption | (apply rest_mk; (iterate 7 (first | exact Or.inr rfl | exact Or.inl ‹_›)); (first | assumption | split)) | split | intro _

theorem countN_rest (i code n : Nat) (s : State) (hs : Rest msk s0 s)  : Rest msk s0 (countN i code n s) := by
  unfold countN
  try dsimp only
  with_reducible repeat' first | assumption | apply setSpoke_rest | (apply rest_mk; (iterate 7 (first | exact Or.inr rfl | exact Or.inl ‹_›)); (first | assumption | apply setSpoke_rest | split)) | split | intro _

theorem count_rest (i code : Nat) (s : State) (hs : Rest msk s0 s)  : Rest msk s0 (count i code s) := by
  unfold count
  try dsimp only
  with_reducible repeat' first | assumption | apply countN_rest | (apply rest_mk; (iterate 7 (first | exact Or.inr rfl | exact Or.inl ‹_›)); (first | assumption | apply countN_rest | split)) | split | intro _

theorem fireVector_rest (v : Nat) (s : State) (hs : Rest msk s0 s)  : Rest msk s0 (fireVector v s) := by
  unfold fireVector
  try dsimp only
  with_reducible repeat' first | assumption | apply count_rest | apply emit_rest | (apply rest_mk; (iterate 7 (first | exact Or.inr rfl | exact Or.inl ‹_›)); (first | assumption | apply count_rest | apply emit_rest | split)) | split | intro _

theorem raise_rest (e : Nat) (s : State) (hs : Rest msk s0 s)  : Rest msk s0 (raise e s) := by
  unfold raise
  try dsimp only
  with_reducible repeat' first | assumption | apply fireVector_rest | (apply rest_mk; (iterate 7 (first | exact Or.inr rfl | exact Or.inl ‹_›)); (first | assumption | apply fireVector_rest | split)) | split | intro _

theorem raiseIf_rest (b : Bool) (e : Nat) (s : State) (hs : Rest msk s0 s)  : Rest msk s0 (raiseIf b e s) := by
  unfold raiseIf
  try dsimp only
  with_reducible repeat' first | assumption | apply raise_rest | (apply rest_mk; (iterate 7 (first | exact Or.inr rfl | exact Or.inl ‹_›)); (first | assumption | apply raise_rest | split)) | split | intro _

theorem dropRecord_rest (s : State) (hs : Rest msk s0 s) (mjrn : msk.jrn = true := by assumption) : Rest msk s0 (dropRecord s) := by
  unfold dropRecord
  try dsimp only
  with_reducible repeat' first | assumption | (apply rest_mk; (iterate 7 (first | exact Or.inr rfl | exact Or.inl ‹_›)); (first | assumption | split)) | split | intro _

theorem journalRec_rest (r : JRec) (s : State) (hs : Rest msk s0 s) (mjrn : msk.jrn = true := by assumption) : Rest msk s0 (journalRec r s) := by
  unfold journalRec
  try dsimp only
  with_reducible repeat' first | assumption | apply count_rest | apply dropRecord_rest | (apply rest_mk; (iterate 7 (first | exact Or.inr rfl | exact Or.inl ‹_›)); (first | assumption | apply count_rest | apply dropRecord_rest | split)) | split | intro _

theorem journal_rest (src code sev obj aux : Nat) (detail : List Byte) (s : State) (hs : Rest msk s0 s) (mjrn : msk.jrn = true := by assumption) : Rest msk s0 (journal src code sev obj aux detail s) := by
  unfold journal
  try dsimp only
  with_reducible repeat' first | assumption | apply journalRec_rest | (apply rest_mk; (iterate 7 (first | exact Or.inr rfl | exact Or.inl ‹_›)); (first | assumption | apply journalRec_rest | split)) | split | intro _

theorem journalF_rest (src code sev obj aux : Nat) (detail : List Byte) (s : State) (hs : Rest msk s0 s) (mjrn : msk.jrn = true := by assumption) : Rest msk s0 (journalF src code sev obj aux detail s) := by
  unfold journalF
  try dsimp only
  with_reducible repeat' first | assumption | (apply rest_mk; (iterate 7 (first | exact Or.inr rfl | exact Or.inl ‹_›)); (first | assumption | split)) | split | intro _

theorem setMb_rest (m : Nat) (b : Mailbox) (s : State) (hs : Rest msk s0 s)  : Rest msk s0 (setMb m b s) := by
  unfold setMb
  try dsimp only
  with_reducible repeat' first | assumption | (apply rest_mk; (iterate 7 (first | exact Or.inr rfl | exact Or.inl ‹_›)); (first | assumption | split)) | split | intro _

theorem setSlot_rest (m k : Nat) (v : Slot) (s : State) (hs : Rest msk s0 s)  : Rest msk s0 (setSlot m k v s) := by
  unfold setSlot
  try dsimp only
  with_reducible repeat' first | assumption | apply setMb_rest | (apply rest_mk; (iterate 7 (first | exact Or.inr rfl | exact Or.inl ‹_›)); (first | assumption | apply setMb_rest | split)) | split | intro _

theorem bar2Write_rest (a : Nat) (b : List Byte) (s : State) (hs : Rest msk s0 s)  : Rest msk s0 (bar2Write a b s) := by
  unfold bar2Write
  try dsimp only
  with_reducible repeat' first | assumption | (apply rest_mk; (iterate 7 (first | exact Or.inr rfl | exact Or.inl ‹_›)); (first | assumption | split)) | split | intro _

theorem recordDone_rest (st : Status) (s : State) (hs : Rest msk s0 s) (mdev : msk.dev = true := by assumption) : Rest msk s0 (recordDone st s) := by
  unfold recordDone
  try dsimp only
  with_reducible repeat' first | assumption | (apply rest_mk; (iterate 7 (first | exact Or.inr rfl | exact Or.inl ‹_›)); (first | assumption | split)) | split | intro _

theorem complete_rest (m k : Nat) (st : Status) (time state : Nat) (res : List Byte) (s : State) (hs : Rest msk s0 s) (mdev : msk.dev = true := by assumption) : Rest msk s0 (complete m k st time state res s) := by
  unfold complete
  try dsimp only
  with_reducible repeat' first | assumption | apply bar2Write_rest | apply emit_rest | apply raise_rest | apply recordDone_rest | apply setSlot_rest | (apply rest_mk; (iterate 7 (first | exact Or.inr rfl | exact Or.inl ‹_›)); (first | assumption | apply bar2Write_rest | apply emit_rest | apply raise_rest | apply recordDone_rest | apply setSlot_rest | split)) | split | intro _

theorem setAxis_rest (a : Nat) (x : AxisSt) (s : State) (hs : Rest msk s0 s)  : Rest msk s0 (setAxis a x s) := by
  unfold setAxis
  try dsimp only
  with_reducible repeat' first | assumption | (apply rest_mk; (iterate 7 (first | exact Or.inr rfl | exact Or.inl ‹_›)); (first | assumption | split)) | split | intro _

theorem modAxis_rest (a : Nat) (f : AxisSt → AxisSt) (s : State) (hs : Rest msk s0 s)  : Rest msk s0 (modAxis a f s) := by
  unfold modAxis
  try dsimp only
  with_reducible repeat' first | assumption | apply setAxis_rest | (apply rest_mk; (iterate 7 (first | exact Or.inr rfl | exact Or.inl ‹_›)); (first | assumption | apply setAxis_rest | split)) | split | intro _

theorem setGrp_rest (g : Nat) (x : GroupSt) (s : State) (hs : Rest msk s0 s)  : Rest msk s0 (setGrp g x s) := by
  unfold setGrp
  try dsimp only
  with_reducible repeat' first | assumption | (apply rest_mk; (iterate 7 (first | exact Or.inr rfl | exact Or.inl ‹_›)); (first | assumption | split)) | split | intro _

theorem modGrp_rest (g : Nat) (f : GroupSt → GroupSt) (s : State) (hs : Rest msk s0 s)  : Rest msk s0 (modGrp g f s) := by
  unfold modGrp
  try dsimp only
  with_reducible repeat' first | assumption | apply setGrp_rest | (apply rest_mk; (iterate 7 (first | exact Or.inr rfl | exact Or.inl ‹_›)); (first | assumption | apply setGrp_rest | split)) | split | intro _

theorem setChan_rest (c : Nat) (x : Chan) (s : State) (hs : Rest msk s0 s)  : Rest msk s0 (setChan c x s) := by
  unfold setChan
  try dsimp only
  with_reducible repeat' first | assumption | (apply rest_mk; (iterate 7 (first | exact Or.inr rfl | exact Or.inl ‹_›)); (first | assumption | split)) | split | intro _

theorem modChan_rest (c : Nat) (f : Chan → Chan) (s : State) (hs : Rest msk s0 s)  : Rest msk s0 (modChan c f s) := by
  unfold modChan
  try dsimp only
  with_reducible repeat' first | assumption | apply setChan_rest | (apply rest_mk; (iterate 7 (first | exact Or.inr rfl | exact Or.inl ‹_›)); (first | assumption | apply setChan_rest | split)) | split | intro _

theorem setFg_rest (x : Nat) (v : FieldGroup) (s : State) (hs : Rest msk s0 s)  : Rest msk s0 (setFg x v s) := by
  unfold setFg
  try dsimp only
  with_reducible repeat' first | assumption | (apply rest_mk; (iterate 7 (first | exact Or.inr rfl | exact Or.inl ‹_›)); (first | assumption | split)) | split | intro _

theorem setStp_rest (n : Nat) (v : StpAxis) (s : State) (hs : Rest msk s0 s)  : Rest msk s0 (setStp n v s) := by
  unfold setStp
  try dsimp only
  with_reducible repeat' first | assumption | (apply rest_mk; (iterate 7 (first | exact Or.inr rfl | exact Or.inl ‹_›)); (first | assumption | split)) | split | intro _

theorem stpPut_rest (n : Nat) (y : StpAxis) (s : State) (hs : Rest msk s0 s) : Rest msk s0 (stpPut n y s) := by
  unfold stpPut
  split
  · exact setStp_rest _ _ _ hs
  · exact emit_rest _ _ _ _ (setStp_rest _ _ _ hs)

theorem setSeg_rest (k : Nat) (v : Segment) (s : State) (hs : Rest msk s0 s)  : Rest msk s0 (setSeg k v s) := by
  unfold setSeg
  try dsimp only
  with_reducible repeat' first | assumption | (apply rest_mk; (iterate 7 (first | exact Or.inr rfl | exact Or.inl ‹_›)); (first | assumption | split)) | split | intro _

theorem forNat_rest (l : List Nat) (f : Nat → State → State) (s : State) (kf : ∀ a0 t, Rest msk s0 t → Rest msk s0 (f a0 t)) (hs : Rest msk s0 s)  : Rest msk s0 (forNat l f s) := by
  unfold forNat
  try dsimp only
  with_reducible repeat' first | assumption | apply kf | apply foldl_rest | (apply rest_mk; (iterate 7 (first | exact Or.inr rfl | exact Or.inl ‹_›)); (first | assumption | apply kf | apply foldl_rest | split)) | split | intro _

theorem reqStopGrp_rest (g cat : Nat) (s : State) (hs : Rest msk s0 s)  : Rest msk s0 (reqStopGrp g cat s) := by
  unfold reqStopGrp
  try dsimp only
  with_reducible repeat' first | assumption | apply modGrp_rest | (apply rest_mk; (iterate 7 (first | exact Or.inr rfl | exact Or.inl ‹_›)); (first | assumption | apply modGrp_rest | split)) | split | intro _

theorem reqStopAxis_rest (a cat : Nat) (s : State) (hs : Rest msk s0 s)  : Rest msk s0 (reqStopAxis a cat s) := by
  unfold reqStopAxis
  try dsimp only
  with_reducible repeat' first | assumption | apply modAxis_rest | (apply rest_mk; (iterate 7 (first | exact Or.inr rfl | exact Or.inl ‹_›)); (first | assumption | apply modAxis_rest | split)) | split | intro _

theorem reqFault_rest (a code : Nat) (s : State) (hs : Rest msk s0 s)  : Rest msk s0 (reqFault a code s) := by
  unfold reqFault
  try dsimp only
  with_reducible repeat' first | assumption | apply modAxis_rest | (apply rest_mk; (iterate 7 (first | exact Or.inr rfl | exact Or.inl ‹_›)); (first | assumption | apply modAxis_rest | split)) | split | intro _

theorem reqStopAll_rest (cat : Nat) (s : State) (hs : Rest msk s0 s)  : Rest msk s0 (reqStopAll cat s) := by
  unfold reqStopAll
  try dsimp only
  with_reducible repeat' first | assumption | apply forNat_rest | apply reqStopGrp_rest | (apply rest_mk; (iterate 7 (first | exact Or.inr rfl | exact Or.inl ‹_›)); (first | assumption | apply forNat_rest | apply reqStopGrp_rest | split)) | split | intro _

theorem setDir_rest (d : Die) (x : XDir) (s : State) (hs : Rest msk s0 s) (mxl : msk.xl = true := by assumption) : Rest msk s0 (setDir d x s) := by
  unfold setDir
  try dsimp only
  with_reducible repeat' first | assumption | (apply rest_mk; (iterate 7 (first | exact Or.inr rfl | exact Or.inl ‹_›)); (first | assumption | split)) | split | intro _

theorem xsendFlit_rest (d : Die) (cls : Nat) (data : List Byte) (s : State) (hs : Rest msk s0 s) (mxl : msk.xl = true := by assumption) : Rest msk s0 (xsendFlit d cls data s) := by
  unfold xsendFlit
  try dsimp only
  with_reducible repeat' first | assumption | apply emit_rest | apply setDir_rest | (apply rest_mk; (iterate 7 (first | exact Or.inr rfl | exact Or.inl ‹_›)); (first | assumption | apply emit_rest | apply setDir_rest | split)) | split | intro _

theorem xsend_rest (d : Die) (cls : Nat) (data : List Byte) (s : State) (hs : Rest msk s0 s) (mxl : msk.xl = true := by assumption) : Rest msk s0 (xsend d cls data s) := by
  unfold xsend
  try dsimp only
  with_reducible repeat' first | assumption | apply xsendFlit_rest | apply foldl_rest | (apply rest_mk; (iterate 7 (first | exact Or.inr rfl | exact Or.inl ‹_›)); (first | assumption | apply xsendFlit_rest | apply foldl_rest | split)) | split | intro _

theorem xacked_rest (d : Die) (upTo : BitVec 12) (s : State) (hs : Rest msk s0 s) (mxl : msk.xl = true := by assumption) : Rest msk s0 (xacked d upTo s) := by
  unfold xacked
  try dsimp only
  with_reducible repeat' first | assumption | apply setDir_rest | (apply rest_mk; (iterate 7 (first | exact Or.inr rfl | exact Or.inl ‹_›)); (first | assumption | apply setDir_rest | split)) | split | intro _

theorem xreplay_rest (d : Die) (seq : BitVec 12) (s : State) (hs : Rest msk s0 s) (mxl : msk.xl = true := by assumption) : Rest msk s0 (xreplay d seq s) := by
  unfold xreplay
  try dsimp only
  with_reducible repeat' first | assumption | apply emit_rest | apply setDir_rest | apply foldl_rest | (apply rest_mk; (iterate 7 (first | exact Or.inr rfl | exact Or.inl ‹_›)); (first | assumption | apply emit_rest | apply setDir_rest | apply foldl_rest | split)) | split | intro _

theorem setCls_rest (k : Nat) (v : ClassSt) (s : State) (hs : Rest msk s0 s)  : Rest msk s0 (setCls k v s) := by
  unfold setCls
  try dsimp only
  with_reducible repeat' first | assumption | (apply rest_mk; (iterate 7 (first | exact Or.inr rfl | exact Or.inl ‹_›)); (first | assumption | split)) | split | intro _

theorem noteDepth_rest (k : Nat) (s : State) (hs : Rest msk s0 s)  : Rest msk s0 (noteDepth k s) := by
  unfold noteDepth
  try dsimp only
  with_reducible repeat' first | assumption | apply raiseIf_rest | apply setCls_rest | (apply rest_mk; (iterate 7 (first | exact Or.inr rfl | exact Or.inl ‹_›)); (first | assumption | apply raiseIf_rest | apply setCls_rest | split)) | split | intro _

theorem setShares_rest (l : List Share) (s : State) (hs : Rest msk s0 s)  : Rest msk s0 (setShares l s) := by
  unfold setShares
  try dsimp only
  with_reducible repeat' first | assumption | apply forNat_rest | apply noteDepth_rest | (apply rest_mk; (iterate 7 (first | exact Or.inr rfl | exact Or.inl ‹_›)); (first | assumption | apply forNat_rest | apply noteDepth_rest | split)) | split | intro _

theorem freeShares_rest (p : Share → Bool) (s : State) (hs : Rest msk s0 s)  : Rest msk s0 (freeShares p s) := by
  unfold freeShares
  try dsimp only
  with_reducible repeat' first | assumption | apply setShares_rest | (apply rest_mk; (iterate 7 (first | exact Or.inr rfl | exact Or.inl ‹_›)); (first | assumption | apply setShares_rest | split)) | split | intro _

theorem tileMarks_rest (u : Nat) (m : Marks) (s : State) (hs : Rest msk s0 s)  : Rest msk s0 (tileMarks u m s) := by
  unfold tileMarks
  try dsimp only
  with_reducible repeat' first | assumption | apply countN_rest | (apply rest_mk; (iterate 7 (first | exact Or.inr rfl | exact Or.inl ‹_›)); (first | assumption | apply countN_rest | split)) | split | intro _

theorem loopEff_rest (t : Nat) (e : Eff) (s : State) (hs : Rest msk s0 s)  : Rest msk s0 (loopEff t e s) := by
  unfold loopEff
  try dsimp only
  with_reducible repeat' first | assumption | apply raise_rest | apply setAxis_rest | (apply rest_mk; (iterate 7 (first | exact Or.inr rfl | exact Or.inl ‹_›)); (first | assumption | apply raise_rest | apply setAxis_rest | split)) | split | intro _

theorem setUnit_rest (u : Nat) (a : Option Armed) (s : State) (hs : Rest msk s0 s) (mtime : msk.time = true := by assumption) : Rest msk s0 (setUnit u a s) := by
  unfold setUnit
  try dsimp only
  with_reducible repeat' first | assumption | (apply rest_mk; (iterate 7 (first | exact Or.inr rfl | exact Or.inl ‹_›)); (first | assumption | split)) | split | intro _

theorem freeUnits_rest (p : Armed → Bool) (s : State) (hs : Rest msk s0 s) (mtime : msk.time = true := by assumption) : Rest msk s0 (freeUnits p s) := by
  unfold freeUnits
  try dsimp only
  with_reducible repeat' first | assumption | (apply rest_mk; (iterate 7 (first | exact Or.inr rfl | exact Or.inl ‹_›)); (first | assumption | split)) | split | intro _

theorem cancelDieF_rest (s : State) (hs : Rest msk s0 s) (mtime : msk.time = true := by assumption) : Rest msk s0 (cancelDieF s) := by
  unfold cancelDieF
  try dsimp only
  with_reducible repeat' first | assumption | (apply rest_mk; (iterate 7 (first | exact Or.inr rfl | exact Or.inl ‹_›)); (first | assumption | split)) | split | intro _

theorem drivePin_rest (c : Nat) (v : Bool) (s : State) (hs : Rest msk s0 s)  : Rest msk s0 (drivePin c v s) := by
  unfold drivePin
  try dsimp only
  with_reducible repeat' first | assumption | apply count_rest | apply emit_rest | apply setChan_rest | (apply rest_mk; (iterate 7 (first | exact Or.inr rfl | exact Or.inl ‹_›)); (first | assumption | apply count_rest | apply emit_rest | apply setChan_rest | split)) | split | intro _

theorem pinsAll_rest (s : State) (hs : Rest msk s0 s)  : Rest msk s0 (pinsAll s) := by
  unfold pinsAll
  try dsimp only
  with_reducible repeat' first | assumption | apply drivePin_rest | apply forNat_rest | (apply rest_mk; (iterate 7 (first | exact Or.inr rfl | exact Or.inl ‹_›)); (first | assumption | apply drivePin_rest | apply forNat_rest | split)) | split | intro _

theorem pinsOff_rest (s : State) (hs : Rest msk s0 s)  : Rest msk s0 (pinsOff s) := by
  unfold pinsOff
  try dsimp only
  with_reducible repeat' first | assumption | apply drivePin_rest | apply forNat_rest | (apply rest_mk; (iterate 7 (first | exact Or.inr rfl | exact Or.inl ‹_›)); (first | assumption | apply drivePin_rest | apply forNat_rest | split)) | split | intro _

theorem fioReport_rest (ev : Option Nat) (code sev obj : Nat) (detail : List Byte) (s : State) (hs : Rest msk s0 s) (mjrn : msk.jrn = true := by assumption) : Rest msk s0 (fioReport ev code sev obj detail s) := by
  unfold fioReport
  try dsimp only
  with_reducible repeat' first | assumption | apply journal_rest | apply raise_rest | (apply rest_mk; (iterate 7 (first | exact Or.inr rfl | exact Or.inl ‹_›)); (first | assumption | apply journal_rest | apply raise_rest | split)) | split | intro _

theorem addCode_rest (c code sev : Nat) (s : State) (hs : Rest msk s0 s) (mjrn : msk.jrn = true := by assumption) : Rest msk s0 (addCode c code sev s) := by
  unfold addCode
  try dsimp only
  with_reducible repeat' first | assumption | apply count_rest | apply fioReport_rest | apply freeNext_rest | apply setChan_rest | (apply rest_mk; (iterate 7 (first | exact Or.inr rfl | exact Or.inl ‹_›)); (first | assumption | apply count_rest | apply fioReport_rest | apply freeNext_rest | apply setChan_rest | split)) | split | intro _

theorem clearCode_rest (c code : Nat) (s : State) (hs : Rest msk s0 s) (mjrn : msk.jrn = true := by assumption) : Rest msk s0 (clearCode c code s) := by
  unfold clearCode
  try dsimp only
  with_reducible repeat' first | assumption | apply fioReport_rest | apply freeNext_rest | apply setChan_rest | (apply rest_mk; (iterate 7 (first | exact Or.inr rfl | exact Or.inl ‹_›)); (first | assumption | apply fioReport_rest | apply freeNext_rest | apply setChan_rest | split)) | split | intro _

theorem tripChan_rest (c : Nat) (s : State) (hs : Rest msk s0 s)  : Rest msk s0 (tripChan c s) := by
  unfold tripChan
  try dsimp only
  with_reducible repeat' first | assumption | apply count_rest | apply pinsOff_rest | apply setChan_rest | (apply rest_mk; (iterate 7 (first | exact Or.inr rfl | exact Or.inl ‹_›)); (first | assumption | apply count_rest | apply pinsOff_rest | apply setChan_rest | split)) | split | intro _

theorem overload_rest (c : Nat) (s : State) (hs : Rest msk s0 s) (mjrn : msk.jrn = true := by assumption) : Rest msk s0 (overload c s) := by
  unfold overload
  try dsimp only
  with_reducible repeat' first | assumption | apply addCode_rest | apply tripChan_rest | (apply rest_mk; (iterate 7 (first | exact Or.inr rfl | exact Or.inl ‹_›)); (first | assumption | apply addCode_rest | apply tripChan_rest | split)) | split | intro _

theorem overtemp_rest (c tj : Nat) (s : State) (hs : Rest msk s0 s) (mjrn : msk.jrn = true := by assumption) : Rest msk s0 (overtemp c tj s) := by
  unfold overtemp
  try dsimp only
  with_reducible repeat' first | assumption | apply addCode_rest | apply modChan_rest | apply pinsOff_rest | (apply rest_mk; (iterate 7 (first | exact Or.inr rfl | exact Or.inl ‹_›)); (first | assumption | apply addCode_rest | apply modChan_rest | apply pinsOff_rest | split)) | split | intro _

theorem overtempTrip_rest (c tj : Nat) (s : State) (hs : Rest msk s0 s)  : Rest msk s0 (overtempTrip c tj s) := by
  unfold overtempTrip
  try dsimp only
  with_reducible repeat' first | assumption | apply modChan_rest | apply tripChan_rest | (apply rest_mk; (iterate 7 (first | exact Or.inr rfl | exact Or.inl ‹_›)); (first | assumption | apply modChan_rest | apply tripChan_rest | split)) | split | intro _

theorem groupOverload_rest (x : Nat) (cur : List (BitVec 16)) (s : State) (hs : Rest msk s0 s) (mjrn : msk.jrn = true := by assumption) : Rest msk s0 (groupOverload x cur s) := by
  unfold groupOverload
  try dsimp only
  with_reducible repeat' first | assumption | apply addCode_rest | apply forNat_rest | apply modChan_rest | apply tripChan_rest | apply foldl_rest | (apply rest_mk; (iterate 7 (first | exact Or.inr rfl | exact Or.inl ‹_›)); (first | assumption | apply addCode_rest | apply forNat_rest | apply modChan_rest | apply tripChan_rest | apply foldl_rest | split)) | split | intro _

theorem shortFlp_rest (c : Nat) (s : State) (hs : Rest msk s0 s) (mtime : msk.time = true := by assumption) (mjrn : msk.jrn = true := by assumption) : Rest msk s0 (shortFlp c s) := by
  unfold shortFlp
  try dsimp only
  with_reducible repeat' first | assumption | apply addCode_rest | apply advanceTo_rest | (apply rest_mk; (iterate 7 (first | exact Or.inr rfl | exact Or.inl ‹_›)); (first | assumption | apply addCode_rest | apply advanceTo_rest | split)) | split | intro _

theorem openOff_rest (c : Nat) (s : State) (hs : Rest msk s0 s) (mtime : msk.time = true := by assumption) (mjrn : msk.jrn = true := by assumption) : Rest msk s0 (openOff c s) := by
  unfold openOff
  try dsimp only
  with_reducible repeat' first | assumption | apply addCode_rest | apply advanceTo_rest | (apply rest_mk; (iterate 7 (first | exact Or.inr rfl | exact Or.inl ‹_›)); (first | assumption | apply addCode_rest | apply advanceTo_rest | split)) | split | intro _

theorem openOn_rest (c : Nat) (s : State) (hs : Rest msk s0 s) (mtime : msk.time = true := by assumption) (mjrn : msk.jrn = true := by assumption) : Rest msk s0 (openOn c s) := by
  unfold openOn
  try dsimp only
  with_reducible repeat' first | assumption | apply addCode_rest | apply advanceTo_rest | (apply rest_mk; (iterate 7 (first | exact Or.inr rfl | exact Or.inl ‹_›)); (first | assumption | apply addCode_rest | apply advanceTo_rest | split)) | split | intro _

theorem openInput_rest (c : Nat) (low : Bool) (s : State) (hs : Rest msk s0 s) (mjrn : msk.jrn = true := by assumption) : Rest msk s0 (openInput c low s) := by
  unfold openInput
  try dsimp only
  with_reducible repeat' first | assumption | apply addCode_rest | apply clearCode_rest | (apply rest_mk; (iterate 7 (first | exact Or.inr rfl | exact Or.inl ‹_›)); (first | assumption | apply addCode_rest | apply clearCode_rest | split)) | split | intro _

theorem channelRestart_rest (c : Nat) (s : State) (hs : Rest msk s0 s) (mtime : msk.time = true := by assumption) : Rest msk s0 (channelRestart c s) := by
  unfold channelRestart
  try dsimp only
  with_reducible repeat' first | assumption | apply advanceTo_rest | apply setChan_rest | (apply rest_mk; (iterate 7 (first | exact Or.inr rfl | exact Or.inl ‹_›)); (first | assumption | apply advanceTo_rest | apply setChan_rest | split)) | split | intro _

theorem setSupply_rest (x code mv : Nat) (s : State) (hs : Rest msk s0 s) (mjrn : msk.jrn = true := by assumption) : Rest msk s0 (setSupply x code mv s) := by
  unfold setSupply
  try dsimp only
  with_reducible repeat' first | assumption | apply count_rest | apply fioReport_rest | apply setFg_rest | (apply rest_mk; (iterate 7 (first | exact Or.inr rfl | exact Or.inl ‹_›)); (first | assumption | apply count_rest | apply fioReport_rest | apply setFg_rest | split)) | split | intro _

theorem supplyLow_rest (x mv : Nat) (s : State) (hs : Rest msk s0 s) (mjrn : msk.jrn = true := by assumption) : Rest msk s0 (supplyLow x mv s) := by
  unfold supplyLow
  try dsimp only
  with_reducible repeat' first | assumption | apply setFg_rest | apply setSupply_rest | (apply rest_mk; (iterate 7 (first | exact Or.inr rfl | exact Or.inl ‹_›)); (first | assumption | apply setFg_rest | apply setSupply_rest | split)) | split | intro _

theorem supplyLatch_rest (x code mv : Nat) (s : State) (hs : Rest msk s0 s) (mjrn : msk.jrn = true := by assumption) : Rest msk s0 (supplyLatch x code mv s) := by
  unfold supplyLatch
  try dsimp only
  with_reducible repeat' first | assumption | apply pinsOff_rest | apply setFg_rest | apply setSupply_rest | (apply rest_mk; (iterate 7 (first | exact Or.inr rfl | exact Or.inl ‹_›)); (first | assumption | apply pinsOff_rest | apply setFg_rest | apply setSupply_rest | split)) | split | intro _

theorem supplyRelease_rest (x : Nat) (s : State) (hs : Rest msk s0 s) (mjrn : msk.jrn = true := by assumption) : Rest msk s0 (supplyRelease x s) := by
  unfold supplyRelease
  try dsimp only
  with_reducible repeat' first | assumption | apply setFg_rest | apply setSupply_rest | (apply rest_mk; (iterate 7 (first | exact Or.inr rfl | exact Or.inl ‹_›)); (first | assumption | apply setFg_rest | apply setSupply_rest | split)) | split | intro _

theorem supplyLatchRelease_rest (x : Nat) (s : State) (hs : Rest msk s0 s) (mtime : msk.time = true := by assumption) (mjrn : msk.jrn = true := by assumption) : Rest msk s0 (supplyLatchRelease x s) := by
  unfold supplyLatchRelease
  try dsimp only
  with_reducible repeat' first | assumption | apply advanceTo_rest | apply pinsAll_rest | apply supplyRelease_rest | (apply rest_mk; (iterate 7 (first | exact Or.inr rfl | exact Or.inl ‹_›)); (first | assumption | apply advanceTo_rest | apply pinsAll_rest | apply supplyRelease_rest | split)) | split | intro _

theorem flpFirstRise_rest (x mv : Nat) (s : State) (hs : Rest msk s0 s) (mjrn : msk.jrn = true := by assumption) : Rest msk s0 (flpFirstRise x mv s) := by
  unfold flpFirstRise
  try dsimp only
  with_reducible repeat' first | assumption | apply setFg_rest | apply setSupply_rest | (apply rest_mk; (iterate 7 (first | exact Or.inr rfl | exact Or.inl ‹_›)); (first | assumption | apply setFg_rest | apply setSupply_rest | split)) | split | intro _

theorem levelChange_rest (c : Nat) (v : Bool) (s : State) (hs : Rest msk s0 s) (mjrn : msk.jrn = true := by assumption) : Rest msk s0 (levelChange c v s) := by
  unfold levelChange
  try dsimp only
  with_reducible repeat' first | assumption | apply clearCode_rest | apply setChan_rest | (apply rest_mk; (iterate 7 (first | exact Or.inr rfl | exact Or.inl ‹_›)); (first | assumption | apply clearCode_rest | apply setChan_rest | split)) | split | intro _

theorem inputFiltered_rest (c : Nat) (s : State) (hs : Rest msk s0 s) (mtime : msk.time = true := by assumption) : Rest msk s0 (inputFiltered c s) := by
  unfold inputFiltered
  try dsimp only
  with_reducible repeat' first | assumption | apply advanceTo_rest | apply setChan_rest | (apply rest_mk; (iterate 7 (first | exact Or.inr rfl | exact Or.inl ‹_›)); (first | assumption | apply advanceTo_rest | apply setChan_rest | split)) | split | intro _

theorem writeCh_rest (f : Chan → Bool → Chan) (mask value : Word) (s : State) (hs : Rest msk s0 s)  : Rest msk s0 (writeCh f mask value s) := by
  unfold writeCh
  try dsimp only
  with_reducible repeat' first | assumption | apply forNat_rest | apply modChan_rest | (apply rest_mk; (iterate 7 (first | exact Or.inr rfl | exact Or.inl ‹_›)); (first | assumption | apply forNat_rest | apply modChan_rest | split)) | split | intro _

theorem buildImage_rest (t : Nat) (s : State) (hs : Rest msk s0 s) (mtime : msk.time = true := by assumption) : Rest msk s0 (buildImage t s) := by
  unfold buildImage
  try dsimp only
  with_reducible repeat' first | assumption | apply setUnit_rest | apply writeCh_rest | apply foldl_rest | (apply rest_mk; (iterate 7 (first | exact Or.inr rfl | exact Or.inl ‹_›)); (first | assumption | apply setUnit_rest | apply writeCh_rest | apply foldl_rest | split)) | split | intro _

theorem outputImage_rest (crcOk : Bool) (s : State) (hs : Rest msk s0 s)  : Rest msk s0 (outputImage crcOk s) := by
  unfold outputImage
  try dsimp only
  with_reducible repeat' first | assumption | apply count_rest | apply forNat_rest | (apply rest_mk; (iterate 7 (first | exact Or.inr rfl | exact Or.inl ‹_›)); (first | assumption | apply count_rest | apply forNat_rest | split)) | split | intro _

theorem ioCadence_rest (s : State) (hs : Rest msk s0 s) (mjrn : msk.jrn = true := by assumption) : Rest msk s0 (ioCadence s) := by
  unfold ioCadence
  try dsimp only
  with_reducible repeat' first | assumption | apply forNat_rest | apply pinsAll_rest | apply supplyRelease_rest | apply writeCh_rest | (apply rest_mk; (iterate 7 (first | exact Or.inr rfl | exact Or.inl ‹_›)); (first | assumption | apply forNat_rest | apply pinsAll_rest | apply supplyRelease_rest | apply writeCh_rest | split)) | split | intro _

theorem stpSafe_rest (n : Nat) (s : State) (hs : Rest msk s0 s) (mjrn : msk.jrn = true := by assumption) : Rest msk s0 (stpSafe n s) := by
  unfold stpSafe
  try dsimp only
  with_reducible repeat' first | assumption | apply journal_rest | apply raise_rest | apply stpPut_rest | apply setStp_rest | (apply rest_mk; (iterate 7 (first | exact Or.inr rfl | exact Or.inl ‹_›)); (first | assumption | apply journal_rest | apply raise_rest | apply stpPut_rest | apply setStp_rest | split)) | split | intro _

theorem enterSafe_rest (why : Nat) (s : State) (hs : Rest msk s0 s) (mtime : msk.time = true := by assumption) (mdev : msk.dev = true := by assumption) (mjrn : msk.jrn = true := by assumption) : Rest msk s0 (enterSafe why s) := by
  unfold enterSafe
  split
  · exact hs
  extract_lets _x s1 s2 _y
  have h1 : Rest msk s0 s1 := by
    apply rest_mk; (iterate 7 (first | exact Or.inr rfl | exact Or.inl ‹_›)); exact hs
  clear_value s1
  have h2 : Rest msk s0 s2 := forNat_rest _ _ _ (fun n t ht => stpSafe_rest _ _ ht) (pinsAll_rest _ (cancelDieF_rest _ h1))
  clear_value s2
  apply rest_mk; (iterate 7 (first | exact Or.inr rfl | exact Or.inl ‹_›)); exact h2

theorem logicSilence_rest (s : State) (hs : Rest msk s0 s) (mtime : msk.time = true := by assumption) (mdev : msk.dev = true := by assumption) (mjrn : msk.jrn = true := by assumption) : Rest msk s0 (logicSilence s) := by
  unfold logicSilence
  try dsimp only
  with_reducible repeat' first | assumption | apply advanceTo_rest | apply enterSafe_rest | apply journalF_rest | (apply rest_mk; (iterate 7 (first | exact Or.inr rfl | exact Or.inl ‹_›)); (first | assumption | apply advanceTo_rest | apply enterSafe_rest | apply journalF_rest | split)) | split | intro _

theorem badInput_rest (x : Nat) (s : State) (hs : Rest msk s0 s)  : Rest msk s0 (badInput x s) := by
  unfold badInput
  try dsimp only
  with_reducible repeat' first | assumption | apply forNat_rest | apply reqStopAxis_rest | apply reqStopGrp_rest | (apply rest_mk; (iterate 7 (first | exact Or.inr rfl | exact Or.inl ‹_›)); (first | assumption | apply forNat_rest | apply reqStopAxis_rest | apply reqStopGrp_rest | split)) | split | intro _

theorem inputImage_rest (s : State) (hs : Rest msk s0 s)  : Rest msk s0 (inputImage s) := by
  unfold inputImage
  try dsimp only
  with_reducible repeat' first | assumption | apply badInput_rest | apply forNat_rest | apply raise_rest | apply reqStopGrp_rest | apply setFg_rest | apply foldl_rest | (apply rest_mk; (iterate 7 (first | exact Or.inr rfl | exact Or.inl ‹_›)); (first | assumption | apply badInput_rest | apply forNat_rest | apply raise_rest | apply reqStopGrp_rest | apply setFg_rest | apply foldl_rest | split)) | split | intro _

theorem stoGroup_rest (g : Nat) (s : State) (hs : Rest msk s0 s)  : Rest msk s0 (stoGroup g s) := by
  unfold stoGroup
  try dsimp only
  with_reducible repeat' first | assumption | apply forNat_rest | apply modChan_rest | apply pinsOff_rest | (apply rest_mk; (iterate 7 (first | exact Or.inr rfl | exact Or.inl ‹_›)); (first | assumption | apply forNat_rest | apply modChan_rest | apply pinsOff_rest | split)) | split | intro _

theorem ioReenableEff_rest (e : Eff) (s : State) (hs : Rest msk s0 s)  : Rest msk s0 (ioReenableEff e s) := by
  unfold ioReenableEff
  try dsimp only
  with_reducible repeat' first | assumption | apply forNat_rest | apply modChan_rest | apply setFg_rest | (apply rest_mk; (iterate 7 (first | exact Or.inr rfl | exact Or.inl ‹_›)); (first | assumption | apply forNat_rest | apply modChan_rest | apply setFg_rest | split)) | split | intro _

theorem ioReleaseEff_rest (s : State) (hs : Rest msk s0 s) (mdev : msk.dev = true := by assumption) : Rest msk s0 (ioReleaseEff s) := by
  unfold ioReleaseEff
  try dsimp only
  with_reducible repeat' first | assumption | (apply rest_mk; (iterate 7 (first | exact Or.inr rfl | exact Or.inl ‹_›)); (first | assumption | split)) | split | intro _

theorem ioStoResetEff_rest (e : Eff) (s : State) (hs : Rest msk s0 s)  : Rest msk s0 (ioStoResetEff e s) := by
  unfold ioStoResetEff
  try dsimp only
  with_reducible repeat' first | assumption | apply forNat_rest | apply modChan_rest | (apply rest_mk; (iterate 7 (first | exact Or.inr rfl | exact Or.inl ‹_›)); (first | assumption | apply forNat_rest | apply modChan_rest | split)) | split | intro _

theorem slewCadence_rest (s : State) (hs : Rest msk s0 s) (mtime : msk.time = true := by assumption) : Rest msk s0 (slewCadence s) := by
  unfold slewCadence
  try dsimp only
  with_reducible repeat' first | assumption | apply count_rest | (apply rest_mk; (iterate 7 (first | exact Or.inr rfl | exact Or.inl ‹_›)); (first | assumption | apply count_rest | split)) | split | intro _

theorem addSlewWith_rest (d : Int) (ppm ramp : Nat) (s : State) (hs : Rest msk s0 s) (mtime : msk.time = true := by assumption) : Rest msk s0 (addSlewWith d ppm ramp s) := by
  unfold addSlewWith
  try dsimp only
  with_reducible repeat' first | assumption | (apply rest_mk; (iterate 7 (first | exact Or.inr rfl | exact Or.inl ‹_›)); (first | assumption | split)) | split | intro _

theorem addSlew_rest (d : Int) (s : State) (hs : Rest msk s0 s) (mtime : msk.time = true := by assumption) : Rest msk s0 (addSlew d s) := by
  unfold addSlew
  try dsimp only
  with_reducible repeat' first | assumption | apply addSlewWith_rest | (apply rest_mk; (iterate 7 (first | exact Or.inr rfl | exact Or.inl ‹_›)); (first | assumption | apply addSlewWith_rest | split)) | split | intro _

theorem plantStep_rest (d : Int) (epoch : BitVec 16) (s : State) (hs : Rest msk s0 s) (mtime : msk.time = true := by assumption) (mjrn : msk.jrn = true := by assumption) : Rest msk s0 (plantStep d epoch s) := by
  unfold plantStep
  try dsimp only
  with_reducible repeat' first | assumption | apply journal_rest | apply raise_rest | (apply rest_mk; (iterate 7 (first | exact Or.inr rfl | exact Or.inl ‹_›)); (first | assumption | apply journal_rest | apply raise_rest | split)) | split | intro _

theorem announce_rest (step : Bool) (d : Int) (at' : Nat) (s : State) (hs : Rest msk s0 s)  : Rest msk s0 (announce step d at' s) := by
  unfold announce
  try dsimp only
  with_reducible repeat' first | assumption | (apply rest_mk; (iterate 7 (first | exact Or.inr rfl | exact Or.inl ‹_›)); (first | assumption | split)) | split | intro _

theorem fireUnit_rest (u : Nat) (act : Armed → State → State) (s : State) (kact : ∀ a0 t, Rest msk s0 t → Rest msk s0 (act a0 t)) (hs : Rest msk s0 s) (mtime : msk.time = true := by assumption) (mjrn : msk.jrn = true := by assumption) : Rest msk s0 (fireUnit u act s) := by
  unfold fireUnit
  try dsimp only
  with_reducible repeat' first | assumption | apply kact | apply advanceTo_rest | apply count_rest | apply journal_rest | apply raise_rest | apply setUnit_rest | (apply rest_mk; (iterate 7 (first | exact Or.inr rfl | exact Or.inl ‹_›)); (first | assumption | apply kact | apply advanceTo_rest | apply count_rest | apply journal_rest | apply raise_rest | apply setUnit_rest | split)) | split | intro _

theorem actionReport_rest (u : Nat) (s : State) (hs : Rest msk s0 s) (mtime : msk.time = true := by assumption) : Rest msk s0 (actionReport u s) := by
  unfold actionReport
  try dsimp only
  with_reducible repeat' first | assumption | apply setUnit_rest | (apply rest_mk; (iterate 7 (first | exact Or.inr rfl | exact Or.inl ‹_›)); (first | assumption | apply setUnit_rest | split)) | split | intro _

theorem sendActions_rest (s : State) (hs : Rest msk s0 s) (mtime : msk.time = true := by assumption) : Rest msk s0 (sendActions s) := by
  unfold sendActions
  try dsimp only
  with_reducible repeat' first | assumption | (apply rest_mk; (iterate 7 (first | exact Or.inr rfl | exact Or.inl ‹_›)); (first | assumption | split)) | split | intro _

theorem setPtp_rest (p : Nat) (v : PtpPort) (s : State) (hs : Rest msk s0 s)  : Rest msk s0 (setPtp p v s) := by
  unfold setPtp
  try dsimp only
  with_reducible repeat' first | assumption | (apply rest_mk; (iterate 7 (first | exact Or.inr rfl | exact Or.inl ‹_›)); (first | assumption | split)) | split | intro _

theorem ptpEmit_rest (p type seq : Nat) (two : Bool) (corr log : Int) (body : List Byte) (s : State) (hs : Rest msk s0 s) :
    Rest msk s0 (ptpEmit p type seq two corr log body s) := by
  unfold ptpEmit
  exact count_rest _ _ _ (emit_rest _ _ _ _ (freeNext_rest _ hs))

theorem ptpMessage_rest (p : Nat) (m : PtpMsg) (s : State) (hs : Rest msk s0 s)  : Rest msk s0 (ptpMessage p m s) := by
  unfold ptpMessage
  try dsimp only
  with_reducible repeat' first | assumption | apply announce_rest | apply count_rest | apply delayReq_rest | apply ptpEmit_rest | apply freeNext_rest | apply setPtp_rest | (apply rest_mk; (iterate 7 (first | exact Or.inr rfl | exact Or.inl ‹_›)); (first | assumption | apply announce_rest | apply count_rest | apply delayReq_rest | apply ptpEmit_rest | apply freeNext_rest | apply setPtp_rest | split)) | split | intro _

theorem ptpSend_rest (p type : Nat) (two stamped : Bool) (log : Int) (body : List Byte) (x : PtpPort) (s : State) (hs : Rest msk s0 s)  : Rest msk s0 (ptpSend p type two stamped log body x s) := by
  unfold ptpSend
  try dsimp only
  with_reducible repeat' first | assumption | apply count_rest | apply ptpEmit_rest | apply freeNext_rest | apply setPtp_rest | (apply rest_mk; (iterate 7 (first | exact Or.inr rfl | exact Or.inl ‹_›)); (first | assumption | apply count_rest | apply ptpEmit_rest | apply freeNext_rest | apply setPtp_rest | split)) | split | intro _

theorem ptpInterval_rest (p : Nat) (tick : PtpTick) (stamped : Bool) (s : State) (hs : Rest msk s0 s)  : Rest msk s0 (ptpInterval p tick stamped s) := by
  unfold ptpInterval
  try dsimp only
  with_reducible repeat' first | assumption | apply announce_rest | apply count_rest | apply ptpEmit_rest | apply freeNext_rest | apply setPtp_rest | apply ptpSend_rest | (apply rest_mk; (iterate 7 (first | exact Or.inr rfl | exact Or.inl ‹_›)); (first | assumption | apply announce_rest | apply count_rest | apply ptpEmit_rest | apply freeNext_rest | apply setPtp_rest | apply ptpSend_rest | split)) | split | intro _

theorem announceTimeout_rest (p : Nat) (s : State) (hs : Rest msk s0 s) (mjrn : msk.jrn = true := by assumption) : Rest msk s0 (announceTimeout p s) := by
  unfold announceTimeout
  try dsimp only
  with_reducible repeat' first | assumption | apply journal_rest | apply raise_rest | apply setPtp_rest | (apply rest_mk; (iterate 7 (first | exact Or.inr rfl | exact Or.inl ‹_›)); (first | assumption | apply journal_rest | apply raise_rest | apply setPtp_rest | split)) | split | intro _

theorem gmServo_rest (mean : BitVec 64) (s : State) (hs : Rest msk s0 s) (meff : msk.eff = true := by assumption) : Rest msk s0 (gmServo mean s) := by
  unfold gmServo
  try dsimp only
  with_reducible repeat' first | assumption | apply announce_rest | (apply rest_mk; (iterate 7 (first | exact Or.inr rfl | exact Or.inl ‹_›)); (first | assumption | apply announce_rest | split)) | split | intro _

theorem gmCadence_rest (s : State) (hs : Rest msk s0 s) (mtime : msk.time = true := by assumption) : Rest msk s0 (gmCadence s) := by
  unfold gmCadence
  try dsimp only
  with_reducible repeat' first | assumption | (apply rest_mk; (iterate 7 (first | exact Or.inr rfl | exact Or.inl ‹_›)); (first | assumption | split)) | split | intro _

theorem setPlantEff_rest (e : Eff) (s : State) (hs : Rest msk s0 s) (mtime : msk.time = true := by assumption) (mjrn : msk.jrn = true := by assumption) : Rest msk s0 (setPlantEff e s) := by
  unfold setPlantEff
  try dsimp only
  with_reducible repeat' first | assumption | apply addSlew_rest | apply plantStep_rest | (apply rest_mk; (iterate 7 (first | exact Or.inr rfl | exact Or.inl ‹_›)); (first | assumption | apply addSlew_rest | apply plantStep_rest | split)) | split | intro _

theorem modPel_rest (f : PelSt → PelSt) (s : State) (hs : Rest msk s0 s)  : Rest msk s0 (modPel f s) := by
  unfold modPel
  try dsimp only
  with_reducible repeat' first | assumption | (apply rest_mk; (iterate 7 (first | exact Or.inr rfl | exact Or.inl ‹_›)); (first | assumption | split)) | split | intro _

theorem pelSend_rest (up : Bool) (msg tx members count t2 : Nat) (s : State) (hs : Rest msk s0 s)  : Rest msk s0 (pelSend up msg tx members count t2 s) := by
  unfold pelSend
  try dsimp only
  with_reducible repeat' first | assumption | apply count_rest | apply emit_rest | (apply rest_mk; (iterate 7 (first | exact Or.inr rfl | exact Or.inl ‹_›)); (first | assumption | apply count_rest | apply emit_rest | split)) | split | intro _

theorem pelSyncFrames_rest (s : State) (hs : Rest msk s0 s)  : Rest msk s0 (pelSyncFrames s) := by
  unfold pelSyncFrames
  try dsimp only
  with_reducible repeat' first | assumption | apply pelSend_rest | (apply rest_mk; (iterate 7 (first | exact Or.inr rfl | exact Or.inl ‹_›)); (first | assumption | apply pelSend_rest | split)) | split | intro _

theorem delayReq_rest (up : Bool) (s : State) (hs : Rest msk s0 s)  : Rest msk s0 (delayReq up s) := by
  unfold delayReq
  try dsimp only
  with_reducible repeat' first | assumption | apply pelSend_rest | (apply rest_mk; (iterate 7 (first | exact Or.inr rfl | exact Or.inl ‹_›)); (first | assumption | apply pelSend_rest | split)) | split | intro _

theorem driftFires_rest (bit code : Nat) (s : State) (hs : Rest msk s0 s) (mjrn : msk.jrn = true := by assumption) : Rest msk s0 (driftFires bit code s) := by
  unfold driftFires
  try dsimp only
  with_reducible repeat' first | assumption | apply journal_rest | apply modPel_rest | (apply rest_mk; (iterate 7 (first | exact Or.inr rfl | exact Or.inl ‹_›)); (first | assumption | apply journal_rest | apply modPel_rest | split)) | split | intro _

theorem startDone_rest (reason : Nat) (s : State) (hs : Rest msk s0 s) (mdev : msk.dev = true := by assumption) : Rest msk s0 (startDone reason s) := by
  unfold startDone
  try dsimp only
  with_reducible repeat' first | assumption | apply complete_rest | apply modPel_rest | (apply rest_mk; (iterate 7 (first | exact Or.inr rfl | exact Or.inl ‹_›)); (first | assumption | apply complete_rest | apply modPel_rest | split)) | split | intro _

theorem headCheck_rest (s : State) (hs : Rest msk s0 s) (mdev : msk.dev = true := by assumption) : Rest msk s0 (headCheck s) := by
  unfold headCheck
  try dsimp only
  with_reducible repeat' first | assumption | apply startDone_rest | (apply rest_mk; (iterate 7 (first | exact Or.inr rfl | exact Or.inl ‹_›)); (first | assumption | apply startDone_rest | split)) | split | intro _

theorem enumBack_rest (count members : Nat) (s : State) (hs : Rest msk s0 s) (mdev : msk.dev = true := by assumption) : Rest msk s0 (enumBack count members s) := by
  unfold enumBack
  try dsimp only
  with_reducible repeat' first | assumption | apply count_rest | apply headCheck_rest | apply modPel_rest | apply pelSend_rest | apply startDone_rest | (apply rest_mk; (iterate 7 (first | exact Or.inr rfl | exact Or.inl ‹_›)); (first | assumption | apply count_rest | apply headCheck_rest | apply modPel_rest | apply pelSend_rest | apply startDone_rest | split)) | split | intro _

theorem pelRoundStart_rest (s : State) (hs : Rest msk s0 s) (mdev : msk.dev = true := by assumption) : Rest msk s0 (pelRoundStart s) := by
  unfold pelRoundStart
  try dsimp only
  with_reducible repeat' first | assumption | apply enumBack_rest | apply pelSend_rest | (apply rest_mk; (iterate 7 (first | exact Or.inr rfl | exact Or.inl ‹_›)); (first | assumption | apply enumBack_rest | apply pelSend_rest | split)) | split | intro _

theorem pelEnum_rest (port : LinePort) (f : List Byte) (s : State) (hs : Rest msk s0 s) (mdev : msk.dev = true := by assumption) : Rest msk s0 (pelEnum port f s) := by
  unfold pelEnum
  try dsimp only
  with_reducible repeat' first | assumption | apply count_rest | apply enumBack_rest | apply modPel_rest | apply pelSend_rest | apply startDone_rest | (apply rest_mk; (iterate 7 (first | exact Or.inr rfl | exact Or.inl ‹_›)); (first | assumption | apply count_rest | apply enumBack_rest | apply modPel_rest | apply pelSend_rest | apply startDone_rest | split)) | split | intro _

theorem pelConfig_rest (f : List Byte) (s : State) (hs : Rest msk s0 s) (mdev : msk.dev = true := by assumption) : Rest msk s0 (pelConfig f s) := by
  unfold pelConfig
  try dsimp only
  with_reducible repeat' first | assumption | apply modPel_rest | apply pelSend_rest | apply startDone_rest | (apply rest_mk; (iterate 7 (first | exact Or.inr rfl | exact Or.inl ‹_›)); (first | assumption | apply modPel_rest | apply pelSend_rest | apply startDone_rest | split)) | split | intro _

theorem pelStartTimeout_rest (s : State) (hs : Rest msk s0 s) (mtime : msk.time = true := by assumption) (mdev : msk.dev = true := by assumption) : Rest msk s0 (pelStartTimeout s) := by
  unfold pelStartTimeout
  try dsimp only
  with_reducible repeat' first | assumption | apply advanceTo_rest | apply startDone_rest | (apply rest_mk; (iterate 7 (first | exact Or.inr rfl | exact Or.inl ‹_›)); (first | assumption | apply advanceTo_rest | apply startDone_rest | split)) | split | intro _

theorem pelDelayReq_rest (port : LinePort) (rx : Nat) (f : List Byte) (s : State) (hs : Rest msk s0 s)  : Rest msk s0 (pelDelayReq port rx f s) := by
  unfold pelDelayReq
  try dsimp only
  with_reducible repeat' first | assumption | apply modPel_rest | apply pelSend_rest | (apply rest_mk; (iterate 7 (first | exact Or.inr rfl | exact Or.inl ‹_›)); (first | assumption | apply modPel_rest | apply pelSend_rest | split)) | split | intro _

theorem pelDelayResp_rest (port : LinePort) (t1 t4 : Nat) (f : List Byte) (s : State) (hs : Rest msk s0 s) (mjrn : msk.jrn = true := by assumption) : Rest msk s0 (pelDelayResp port t1 t4 f s) := by
  unfold pelDelayResp
  try dsimp only
  with_reducible repeat' first | assumption | apply delayReq_rest | apply driftFires_rest | apply modPel_rest | (apply rest_mk; (iterate 7 (first | exact Or.inr rfl | exact Or.inl ‹_›)); (first | assumption | apply delayReq_rest | apply driftFires_rest | apply modPel_rest | split)) | split | intro _

theorem adopt_rest (down : Bool) (x : SyncInfo) (s : State) (hs : Rest msk s0 s) (mjrn : msk.jrn = true := by assumption) : Rest msk s0 (adopt down x s) := by
  unfold adopt
  try dsimp only
  with_reducible repeat' first | assumption | apply journal_rest | apply modPel_rest | apply raise_rest | (apply rest_mk; (iterate 7 (first | exact Or.inr rfl | exact Or.inl ‹_›)); (first | assumption | apply journal_rest | apply modPel_rest | apply raise_rest | split)) | split | intro _

theorem takeTime_rest (tx rx : Nat) (down : Bool) (s : State) (hs : Rest msk s0 s) (mtime : msk.time = true := by assumption) : Rest msk s0 (takeTime tx rx down s) := by
  unfold takeTime
  try dsimp only
  with_reducible repeat' first | assumption | (apply rest_mk; (iterate 7 (first | exact Or.inr rfl | exact Or.inl ‹_›)); (first | assumption | split)) | split | intro _

theorem pelotonSync_rest (port : LinePort) (rx : Nat) (f : List Byte) (s : State) (hs : Rest msk s0 s) (mtime : msk.time = true := by assumption) (mdev : msk.dev = true := by assumption) (mjrn : msk.jrn = true := by assumption) : Rest msk s0 (pelotonSync port rx f s) := by
  unfold pelotonSync
  extract_lets h b down x s1 d s2 th
  split
  · exact hs
  split
  · exact modPel_rest _ _ hs
  have h1 : Rest msk s0 s1 := headCheck_rest _ (modPel_rest _ _ hs)
  clear_value s1
  split
  · split
    · exact takeTime_rest _ _ _ _ (modPel_rest _ _ h1)
    · exact h1
  split
  · split
    · exact h1
    split
    · exact modPel_rest _ _ h1
    · exact adopt_rest _ _ _ h1
  split
  · exact h1
  have h2 : Rest msk s0 s2 := by
    simp only [s2]; split
    · exact adopt_rest _ _ _ h1
    · exact h1
  clear_value s2
  split
  · exact h2
  · exact modPel_rest _ _ h2

theorem pelServo_rest (s : State) (hs : Rest msk s0 s) (mtime : msk.time = true := by assumption) : Rest msk s0 (pelServo s) := by
  unfold pelServo
  try dsimp only
  with_reducible repeat' first | assumption | (apply rest_mk; (iterate 7 (first | exact Or.inr rfl | exact Or.inl ‹_›)); (first | assumption | split)) | split | intro _

theorem pelCadence_rest (s : State) (hs : Rest msk s0 s) (mtime : msk.time = true := by assumption) (mjrn : msk.jrn = true := by assumption) : Rest msk s0 (pelCadence s) := by
  unfold pelCadence
  extract_lets s1 s2 s3 s4 a s5
  have h1 : Rest msk s0 s1 := by
    simp only [s1]; split
    · exact adopt_rest _ _ _ hs
    · exact hs
  clear_value s1
  have h2 : Rest msk s0 s2 := by
    simp only [s2]; split
    · exact plantStep_rest _ _ _ (modPel_rest _ _ h1)
    · exact h1
  clear_value s2
  have h4 : Rest msk s0 s4 := pelServo_rest _ (modPel_rest _ _ h2)
  clear_value s4
  have h5 : Rest msk s0 s5 := by
    simp only [s5]; split
    · exact driftFires_rest _ _ _ h4
    · exact h4
  split
  · exact pelSyncFrames_rest _ h5
  · exact h5

theorem pelDrift_rest (s : State) (hs : Rest msk s0 s) (mjrn : msk.jrn = true := by assumption) : Rest msk s0 (pelDrift s) := by
  unfold pelDrift
  try dsimp only
  with_reducible repeat' first | assumption | apply driftFires_rest | apply freeNext_rest | apply modPel_rest | (apply rest_mk; (iterate 7 (first | exact Or.inr rfl | exact Or.inl ‹_›)); (first | assumption | apply driftFires_rest | apply freeNext_rest | apply modPel_rest | split)) | split | intro _

theorem pelRound_rest (s : State) (hs : Rest msk s0 s) (mdev : msk.dev = true := by assumption) (mjrn : msk.jrn = true := by assumption) : Rest msk s0 (pelRound s) := by
  unfold pelRound
  try dsimp only
  with_reducible repeat' first | assumption | apply delayReq_rest | apply pelDrift_rest | apply pelRoundStart_rest | (apply rest_mk; (iterate 7 (first | exact Or.inr rfl | exact Or.inl ‹_›)); (first | assumption | apply delayReq_rest | apply pelDrift_rest | apply pelRoundStart_rest | split)) | split | intro _

theorem pelSyncSet_rest (s : State) (hs : Rest msk s0 s) (mdev : msk.dev = true := by assumption) : Rest msk s0 (pelSyncSet s) := by
  unfold pelSyncSet
  try dsimp only
  with_reducible repeat' first | assumption | apply modPel_rest | apply startDone_rest | (apply rest_mk; (iterate 7 (first | exact Or.inr rfl | exact Or.inl ‹_›)); (first | assumption | apply modPel_rest | apply startDone_rest | split)) | split | intro _

theorem pelSyncLost_rest (s : State) (hs : Rest msk s0 s) (mjrn : msk.jrn = true := by assumption) : Rest msk s0 (pelSyncLost s) := by
  unfold pelSyncLost
  try dsimp only
  with_reducible repeat' first | assumption | apply journal_rest | apply modPel_rest | apply raise_rest | (apply rest_mk; (iterate 7 (first | exact Or.inr rfl | exact Or.inl ‹_›)); (first | assumption | apply journal_rest | apply modPel_rest | apply raise_rest | split)) | split | intro _

theorem enterHoldover_rest (s : State) (hs : Rest msk s0 s) (mjrn : msk.jrn = true := by assumption) : Rest msk s0 (enterHoldover s) := by
  unfold enterHoldover
  try dsimp only
  with_reducible repeat' first | assumption | apply journal_rest | apply raise_rest | (apply rest_mk; (iterate 7 (first | exact Or.inr rfl | exact Or.inl ‹_›)); (first | assumption | apply journal_rest | apply raise_rest | split)) | split | intro _

theorem becomeRef_rest (s : State) (hs : Rest msk s0 s) (mjrn : msk.jrn = true := by assumption) : Rest msk s0 (becomeRef s) := by
  unfold becomeRef
  try dsimp only
  with_reducible repeat' first | assumption | apply journal_rest | apply modPel_rest | apply raise_rest | (apply rest_mk; (iterate 7 (first | exact Or.inr rfl | exact Or.inl ‹_›)); (first | assumption | apply journal_rest | apply modPel_rest | apply raise_rest | split)) | split | intro _

theorem pelTakeover_rest (s : State) (hs : Rest msk s0 s) (mjrn : msk.jrn = true := by assumption) : Rest msk s0 (pelTakeover s) := by
  unfold pelTakeover
  try dsimp only
  with_reducible repeat' first | assumption | apply becomeRef_rest | apply enterHoldover_rest | apply modPel_rest | apply pelSyncFrames_rest | (apply rest_mk; (iterate 7 (first | exact Or.inr rfl | exact Or.inl ‹_›)); (first | assumption | apply becomeRef_rest | apply enterHoldover_rest | apply modPel_rest | apply pelSyncFrames_rest | split)) | split | intro _

theorem nextAnnounce_rest (s : State) (hs : Rest msk s0 s)  : Rest msk s0 (nextAnnounce s) := by
  unfold nextAnnounce
  try dsimp only
  with_reducible repeat' first | assumption | apply announce_rest | apply modPel_rest | (apply rest_mk; (iterate 7 (first | exact Or.inr rfl | exact Or.inl ‹_›)); (first | assumption | apply announce_rest | apply modPel_rest | split)) | split | intro _

theorem announcementApply_rest (s : State) (hs : Rest msk s0 s) (mtime : msk.time = true := by assumption) (mjrn : msk.jrn = true := by assumption) : Rest msk s0 (announcementApply s) := by
  unfold announcementApply
  try dsimp only
  with_reducible repeat' first | assumption | apply addSlewWith_rest | apply adopt_rest | apply advanceTo_rest | apply becomeRef_rest | apply modPel_rest | apply nextAnnounce_rest | apply plantStep_rest | (apply rest_mk; (iterate 7 (first | exact Or.inr rfl | exact Or.inl ‹_›)); (first | assumption | apply addSlewWith_rest | apply adopt_rest | apply advanceTo_rest | apply becomeRef_rest | apply modPel_rest | apply nextAnnounce_rest | apply plantStep_rest | split)) | split | intro _

theorem pelStopEff_rest (s : State) (hs : Rest msk s0 s) (mdev : msk.dev = true := by assumption) : Rest msk s0 (pelStopEff s) := by
  unfold pelStopEff
  try dsimp only
  with_reducible repeat' first | assumption | apply complete_rest | apply modPel_rest | (apply rest_mk; (iterate 7 (first | exact Or.inr rfl | exact Or.inl ‹_›)); (first | assumption | apply complete_rest | apply modPel_rest | split)) | split | intro _

theorem vzEvent_rest (k bit : Nat) (s : State) (hs : Rest msk s0 s)  : Rest msk s0 (vzEvent k bit s) := by
  unfold vzEvent
  try dsimp only
  with_reducible repeat' first | assumption | apply raise_rest | apply setSeg_rest | (apply rest_mk; (iterate 7 (first | exact Or.inr rfl | exact Or.inl ‹_›)); (first | assumption | apply raise_rest | apply setSeg_rest | split)) | split | intro _

theorem segTo_rest (k st : Nat) (s : State) (hs : Rest msk s0 s)  : Rest msk s0 (segTo k st s) := by
  unfold segTo
  try dsimp only
  with_reducible repeat' first | assumption | apply setSeg_rest | apply vzEvent_rest | (apply rest_mk; (iterate 7 (first | exact Or.inr rfl | exact Or.inl ‹_›)); (first | assumption | apply setSeg_rest | apply vzEvent_rest | split)) | split | intro _

theorem masterSend_rest (k port type entries time : Nat) (body : List Byte) (s : State) (hs : Rest msk s0 s)  : Rest msk s0 (masterSend k port type entries time body s) := by
  unfold masterSend
  try dsimp only
  with_reducible repeat' first | assumption | apply count_rest | apply emit_rest | (apply rest_mk; (iterate 7 (first | exact Or.inr rfl | exact Or.inl ‹_›)); (first | assumption | apply count_rest | apply emit_rest | split)) | split | intro _

theorem masterDown_rest (k type entries time : Nat) (body : List Byte) (s : State) (hs : Rest msk s0 s)  : Rest msk s0 (masterDown k type entries time body s) := by
  unfold masterDown
  try dsimp only
  with_reducible repeat' first | assumption | apply masterSend_rest | (apply rest_mk; (iterate 7 (first | exact Or.inr rfl | exact Or.inl ‹_›)); (first | assumption | apply masterSend_rest | split)) | split | intro _

theorem cadenceFrame_rest (k : Nat) (s : State) (hs : Rest msk s0 s)  : Rest msk s0 (cadenceFrame k s) := by
  unfold cadenceFrame
  try dsimp only
  with_reducible repeat' first | assumption | apply forNat_rest | apply masterDown_rest | apply modAxis_rest | (apply rest_mk; (iterate 7 (first | exact Or.inr rfl | exact Or.inl ‹_›)); (first | assumption | apply forNat_rest | apply masterDown_rest | apply modAxis_rest | split)) | split | intro _

theorem sendAcyclic_rest (k : Nat) (s : State) (hs : Rest msk s0 s)  : Rest msk s0 (sendAcyclic k s) := by
  unfold sendAcyclic
  try dsimp only
  with_reducible repeat' first | assumption | apply masterDown_rest | apply setSeg_rest | apply foldl_rest | (apply rest_mk; (iterate 7 (first | exact Or.inr rfl | exact Or.inl ‹_›)); (first | assumption | apply masterDown_rest | apply setSeg_rest | apply foldl_rest | split)) | split | intro _

theorem startEnd_rest (k reason col rule : Nat) (st : Status) (s : State) (hs : Rest msk s0 s) (mdev : msk.dev = true := by assumption) : Rest msk s0 (startEnd k reason col rule st s) := by
  unfold startEnd
  try dsimp only
  with_reducible repeat' first | assumption | apply complete_rest | apply setSeg_rest | (apply rest_mk; (iterate 7 (first | exact Or.inr rfl | exact Or.inl ‹_›)); (first | assumption | apply complete_rest | apply setSeg_rest | split)) | split | intro _

theorem startFail_rest (k reason col rule : Nat) (s : State) (hs : Rest msk s0 s) (mdev : msk.dev = true := by assumption) : Rest msk s0 (startFail k reason col rule s) := by
  unfold startFail
  try dsimp only
  with_reducible repeat' first | assumption | apply startEnd_rest | (apply rest_mk; (iterate 7 (first | exact Or.inr rfl | exact Or.inl ‹_›)); (first | assumption | apply startEnd_rest | split)) | split | intro _

theorem setStart_rest (k : Nat) (o : StartOp) (s : State) (hs : Rest msk s0 s)  : Rest msk s0 (setStart k o s) := by
  unfold setStart
  try dsimp only
  with_reducible repeat' first | assumption | apply setSeg_rest | (apply rest_mk; (iterate 7 (first | exact Or.inr rfl | exact Or.inl ‹_›)); (first | assumption | apply setSeg_rest | split)) | split | intro _

theorem startCadence_rest (k : Nat) (s : State) (hs : Rest msk s0 s) (mdev : msk.dev = true := by assumption) : Rest msk s0 (startCadence k s) := by
  unfold startCadence
  try dsimp only
  with_reducible repeat' first | assumption | apply masterDown_rest | apply setStart_rest | apply startEnd_rest | apply startFail_rest | (apply rest_mk; (iterate 7 (first | exact Or.inr rfl | exact Or.inl ‹_›)); (first | assumption | apply masterDown_rest | apply setStart_rest | apply startEnd_rest | apply startFail_rest | split)) | split | intro _

theorem startAgain_rest (k : Nat) (s : State) (hs : Rest msk s0 s)  : Rest msk s0 (startAgain k s) := by
  unfold startAgain
  try dsimp only
  with_reducible repeat' first | assumption | apply segTo_rest | apply setStart_rest | (apply rest_mk; (iterate 7 (first | exact Or.inr rfl | exact Or.inl ‹_›)); (first | assumption | apply segTo_rest | apply setStart_rest | split)) | split | intro _

theorem enumReturn_rest (k : Nat) (l : List StationId) (s : State) (hs : Rest msk s0 s) (mdev : msk.dev = true := by assumption) : Rest msk s0 (enumReturn k l s) := by
  unfold enumReturn
  try dsimp only
  with_reducible repeat' first | assumption | apply count_rest | apply setSeg_rest | apply setStart_rest | apply startFail_rest | apply foldl_rest | (apply rest_mk; (iterate 7 (first | exact Or.inr rfl | exact Or.inl ‹_›)); (first | assumption | apply count_rest | apply setSeg_rest | apply setStart_rest | apply startFail_rest | apply foldl_rest | split)) | split | intro _

theorem delayReturn_rest (k : Nat) (d : List (BitVec 32 × BitVec 32)) (s : State) (hs : Rest msk s0 s)  : Rest msk s0 (delayReturn k d s) := by
  unfold delayReturn
  try dsimp only
  with_reducible repeat' first | assumption | apply setSeg_rest | (apply rest_mk; (iterate 7 (first | exact Or.inr rfl | exact Or.inl ‹_›)); (first | assumption | apply setSeg_rest | split)) | split | intro _

theorem masterCollision_rest (k : Nat) (other : BitVec 64) (s : State) (hs : Rest msk s0 s) (mdev : msk.dev = true := by assumption) (mjrn : msk.jrn = true := by assumption) : Rest msk s0 (masterCollision k other s) := by
  unfold masterCollision
  try dsimp only
  with_reducible repeat' first | assumption | apply journal_rest | apply segTo_rest | apply setSeg_rest | apply startFail_rest | apply vzEvent_rest | (apply rest_mk; (iterate 7 (first | exact Or.inr rfl | exact Or.inl ‹_›)); (first | assumption | apply journal_rest | apply segTo_rest | apply setSeg_rest | apply startFail_rest | apply vzEvent_rest | split)) | split | intro _

theorem collisionWaitEnd_rest (k : Nat) (s : State) (hs : Rest msk s0 s) (mtime : msk.time = true := by assumption) (mdev : msk.dev = true := by assumption) (mjrn : msk.jrn = true := by assumption) : Rest msk s0 (collisionWaitEnd k s) := by
  unfold collisionWaitEnd
  try dsimp only
  with_reducible repeat' first | assumption | apply advanceTo_rest | apply journal_rest | apply segTo_rest | apply startAgain_rest | apply startFail_rest | (apply rest_mk; (iterate 7 (first | exact Or.inr rfl | exact Or.inl ‹_›)); (first | assumption | apply advanceTo_rest | apply journal_rest | apply segTo_rest | apply startAgain_rest | apply startFail_rest | split)) | split | intro _

theorem ringBroken_rest (k : Nat) (s : State) (hs : Rest msk s0 s)  : Rest msk s0 (ringBroken k s) := by
  unfold ringBroken
  try dsimp only
  with_reducible repeat' first | assumption | apply setSeg_rest | (apply rest_mk; (iterate 7 (first | exact Or.inr rfl | exact Or.inl ‹_›)); (first | assumption | apply setSeg_rest | split)) | split | intro _

theorem ringSplit_rest (k : Nat) (s : State) (hs : Rest msk s0 s) (mjrn : msk.jrn = true := by assumption) : Rest msk s0 (ringSplit k s) := by
  unfold ringSplit
  try dsimp only
  with_reducible repeat' first | assumption | apply journal_rest | apply setSeg_rest | apply vzEvent_rest | (apply rest_mk; (iterate 7 (first | exact Or.inr rfl | exact Or.inl ‹_›)); (first | assumption | apply journal_rest | apply setSeg_rest | apply vzEvent_rest | split)) | split | intro _

theorem vzLinkDown_rest (p : Nat) (s : State) (hs : Rest msk s0 s) (mdev : msk.dev = true := by assumption) (mjrn : msk.jrn = true := by assumption) : Rest msk s0 (vzLinkDown p s) := by
  unfold vzLinkDown
  try dsimp only
  with_reducible repeat' first | assumption | apply journal_rest | apply modPel_rest | apply ringBroken_rest | apply segTo_rest | apply setSeg_rest | apply startDone_rest | apply startFail_rest | (apply rest_mk; (iterate 7 (first | exact Or.inr rfl | exact Or.inl ‹_›)); (first | assumption | apply journal_rest | apply modPel_rest | apply ringBroken_rest | apply segTo_rest | apply setSeg_rest | apply startDone_rest | apply startFail_rest | split)) | split | intro _

theorem foreignFrame_rest (port : Nat) (s : State) (hs : Rest msk s0 s)  : Rest msk s0 (foreignFrame port s) := by
  unfold foreignFrame
  try dsimp only
  with_reducible repeat' first | assumption | apply count_rest | apply setSeg_rest | (apply rest_mk; (iterate 7 (first | exact Or.inr rfl | exact Or.inl ‹_›)); (first | assumption | apply count_rest | apply setSeg_rest | split)) | split | intro _

theorem violation_rest (k port st : Nat) (s : State) (hs : Rest msk s0 s)  : Rest msk s0 (violation k port st s) := by
  unfold violation
  try dsimp only
  with_reducible repeat' first | assumption | apply count_rest | apply setSeg_rest | (apply rest_mk; (iterate 7 (first | exact Or.inr rfl | exact Or.inl ‹_›)); (first | assumption | apply count_rest | apply setSeg_rest | split)) | split | intro _

theorem stationSilenced_rest (k st : Nat) (s : State) (hs : Rest msk s0 s) (mjrn : msk.jrn = true := by assumption) : Rest msk s0 (stationSilenced k st s) := by
  unfold stationSilenced
  try dsimp only
  with_reducible repeat' first | assumption | apply journal_rest | apply setSeg_rest | apply vzEvent_rest | (apply rest_mk; (iterate 7 (first | exact Or.inr rfl | exact Or.inl ‹_›)); (first | assumption | apply journal_rest | apply setSeg_rest | apply vzEvent_rest | split)) | split | intro _

theorem safetyError_rest (k port a : Nat) (s : State) (hs : Rest msk s0 s)  : Rest msk s0 (safetyError k port a s) := by
  unfold safetyError
  try dsimp only
  with_reducible repeat' first | assumption | apply count_rest | apply modAxis_rest | apply reqFault_rest | apply setSeg_rest | apply vzEvent_rest | (apply rest_mk; (iterate 7 (first | exact Or.inr rfl | exact Or.inl ‹_›)); (first | assumption | apply count_rest | apply modAxis_rest | apply reqFault_rest | apply setSeg_rest | apply vzEvent_rest | split)) | split | intro _

theorem takeFeedback_rest (hook : Nat → State → State) (k port a : Nat) (e : Entry) (s : State)
    (khook : ∀ a0 t, Rest msk s0 t → Rest msk s0 (hook a0 t)) (hs : Rest msk s0 s) (mxl : msk.xl = true := by assumption) : Rest msk s0 (takeFeedback hook k port a e s) := by
  unfold takeFeedback
  extract_lets x m t0 f
  have h0 : Rest msk s0 t0 := by
    simp only [t0]; split
    · exact xsend_rest _ _ _ _ hs
    · exact hs
  clear_value t0
  split
  · exact h0
  split
  · exact safetyError_rest _ _ _ _ h0
  · exact khook _ _ (modAxis_rest _ _ _ h0)

theorem lateRecord_rest (k port : Nat) (s : State) (hs : Rest msk s0 s)  : Rest msk s0 (lateRecord k port s) := by
  unfold lateRecord
  try dsimp only
  with_reducible repeat' first | assumption | apply count_rest | apply setSeg_rest | (apply rest_mk; (iterate 7 (first | exact Or.inr rfl | exact Or.inl ‹_›)); (first | assumption | apply count_rest | apply setSeg_rest | split)) | split | intro _

theorem takeEntry_rest (hook : Nat → State → State) (k port src cad : Nat) (e : Entry) (s : State) (khook : ∀ a0 t, Rest msk s0 t → Rest msk s0 (hook a0 t)) (hs : Rest msk s0 s) (mxl : msk.xl = true := by assumption) : Rest msk s0 (takeEntry hook k port src cad e s) := by
  unfold takeEntry
  try dsimp only
  with_reducible repeat' first | assumption | apply khook | apply lateRecord_rest | apply setSeg_rest | apply takeFeedback_rest | (apply rest_mk; (iterate 7 (first | exact Or.inr rfl | exact Or.inl ‹_›)); (first | assumption | apply khook | apply lateRecord_rest | apply setSeg_rest | apply takeFeedback_rest | split)) | split | intro _

theorem fcsBurst_rest (k : Nat) (s : State) (hs : Rest msk s0 s)  : Rest msk s0 (fcsBurst k s) := by
  unfold fcsBurst
  try dsimp only
  with_reducible repeat' first | assumption | apply freeNext_rest | apply vzEvent_rest | (apply rest_mk; (iterate 7 (first | exact Or.inr rfl | exact Or.inl ‹_›)); (first | assumption | apply freeNext_rest | apply vzEvent_rest | split)) | split | intro _

theorem stationFrame_rest (hook : Nat → State → State) (k port sfd : Nat) (f : List Byte) (s : State) (khook : ∀ a0 t, Rest msk s0 t → Rest msk s0 (hook a0 t)) (hs : Rest msk s0 s) (mxl : msk.xl = true := by assumption) : Rest msk s0 (stationFrame hook k port sfd f s) := by
  unfold stationFrame
  try dsimp only
  with_reducible repeat' first | assumption | apply khook | apply count_rest | apply fcsBurst_rest | apply foreignFrame_rest | apply setSeg_rest | apply takeEntry_rest | apply violation_rest | apply foldl_rest | (apply rest_mk; (iterate 7 (first | exact Or.inr rfl | exact Or.inl ‹_›)); (first | assumption | apply khook | apply count_rest | apply fcsBurst_rest | apply foreignFrame_rest | apply setSeg_rest | apply takeEntry_rest | apply violation_rest | apply foldl_rest | split)) | split | intro _

theorem freewheel_rest (s : State) (hs : Rest msk s0 s)  : Rest msk s0 (freewheel s) := by
  unfold freewheel
  try dsimp only
  with_reducible repeat' first | assumption | apply count_rest | apply forNat_rest | apply setAxis_rest | apply setSeg_rest | (apply rest_mk; (iterate 7 (first | exact Or.inr rfl | exact Or.inl ‹_›)); (first | assumption | apply count_rest | apply forNat_rest | apply setAxis_rest | apply setSeg_rest | split)) | split | intro _

theorem freewheelExpired_rest (a : Nat) (s : State) (hs : Rest msk s0 s)  : Rest msk s0 (freewheelExpired a s) := by
  unfold freewheelExpired
  try dsimp only
  with_reducible repeat' first | assumption | apply reqFault_rest | (apply rest_mk; (iterate 7 (first | exact Or.inr rfl | exact Or.inl ‹_›)); (first | assumption | apply reqFault_rest | split)) | split | intro _

theorem arbReturn_rest (k col st : Nat) (s : State) (hs : Rest msk s0 s)  : Rest msk s0 (arbReturn k col st s) := by
  unfold arbReturn
  try dsimp only
  with_reducible repeat' first | assumption | apply setSeg_rest | (apply rest_mk; (iterate 7 (first | exact Or.inr rfl | exact Or.inl ‹_›)); (first | assumption | apply setSeg_rest | split)) | split | intro _

theorem acyclicFrame_rest (k st : Nat) (b : List Byte) (s : State) (hs : Rest msk s0 s) (mdev : msk.dev = true := by assumption) : Rest msk s0 (acyclicFrame k st b s) := by
  unfold acyclicFrame
  try dsimp only
  with_reducible repeat' first | assumption | apply complete_rest | apply setSeg_rest | apply violation_rest | (apply rest_mk; (iterate 7 (first | exact Or.inr rfl | exact Or.inl ‹_›)); (first | assumption | apply complete_rest | apply setSeg_rest | apply violation_rest | split)) | split | intro _

theorem acyclicTimeout_rest (m sl : Nat) (s : State) (hs : Rest msk s0 s) (mtime : msk.time = true := by assumption) (mdev : msk.dev = true := by assumption) : Rest msk s0 (acyclicTimeout m sl s) := by
  unfold acyclicTimeout
  try dsimp only
  with_reducible repeat' first | assumption | apply advanceTo_rest | apply complete_rest | apply setSeg_rest | (apply rest_mk; (iterate 7 (first | exact Or.inr rfl | exact Or.inl ‹_›)); (first | assumption | apply advanceTo_rest | apply complete_rest | apply setSeg_rest | split)) | split | intro _

theorem sendArb_rest (k : Nat) (s : State) (hs : Rest msk s0 s)  : Rest msk s0 (sendArb k s) := by
  unfold sendArb
  try dsimp only
  with_reducible repeat' first | assumption | apply setSeg_rest | apply forNat_rest | apply masterDown_rest | (apply rest_mk; (iterate 7 (first | exact Or.inr rfl | exact Or.inl ‹_›)); (first | assumption | apply setSeg_rest | apply forNat_rest | apply masterDown_rest | split)) | split | intro _

theorem busCadence_rest (s : State) (hs : Rest msk s0 s) (mdev : msk.dev = true := by assumption) (mjrn : msk.jrn = true := by assumption) : Rest msk s0 (busCadence s) := by
  unfold busCadence
  refine forNat_rest _ _ _ (fun k t ht => ?_) hs
  extract_lets g t0 t1 t2 t3 h
  have h0 : Rest msk s0 t0 := ringSplit_rest _ _ (setSeg_rest _ _ _ ht)
  clear_value t0
  have h1 : Rest msk s0 t1 := by
    simp only [t1]; split
    · exact cadenceFrame_rest _ _ h0
    · exact h0
  clear_value t1
  have h2 : Rest msk s0 t2 := by
    simp only [t2]; split
    · exact sendArb_rest _ _ (sendAcyclic_rest _ _ h1)
    · exact h1
  clear_value t2
  have h3 : Rest msk s0 t3 := startCadence_rest _ _ h2
  clear_value t3
  split
  · exact h3
  split
  · exact setSeg_rest _ _ _ h3
  · exact complete_rest _ _ _ _ _ _ _ (setSeg_rest _ _ _ h3)

theorem busEff_rest (e : Eff) (s : State) (hs : Rest msk s0 s) (mdev : msk.dev = true := by assumption) (meff : msk.eff = true := by assumption) : Rest msk s0 (busEff e s) := by
  unfold busEff
  try dsimp only
  with_reducible repeat' first | assumption | apply segTo_rest | apply setSeg_rest | apply startEnd_rest | (apply rest_mk; (iterate 7 (first | exact Or.inr rfl | exact Or.inl ‹_›)); (first | assumption | apply segTo_rest | apply setSeg_rest | apply startEnd_rest | split)) | split | intro _

theorem busRound_rest (t : Nat) (s : State) (hs : Rest msk s0 s) (mdev : msk.dev = true := by assumption) (meff : msk.eff = true := by assumption) : Rest msk s0 (busRound t s) := by
  unfold busRound
  try dsimp only
  with_reducible repeat' first | assumption | apply busEff_rest | apply forNat_rest | apply segTo_rest | apply setSeg_rest | apply foldl_rest | apply takeEff_rest | (apply rest_mk; (iterate 7 (first | exact Or.inr rfl | exact Or.inl ‹_›)); (first | assumption | apply busEff_rest | apply forNat_rest | apply segTo_rest | apply setSeg_rest | apply foldl_rest | apply takeEff_rest | split)) | split | intro _

theorem freeLoop_rest (a : Nat) (s : State) (hs : Rest msk s0 s)  : Rest msk s0 (freeLoop a s) := by
  unfold freeLoop
  try dsimp only
  with_reducible repeat' first | assumption | apply freeShares_rest | (apply rest_mk; (iterate 7 (first | exact Or.inr rfl | exact Or.inl ‹_›)); (first | assumption | apply freeShares_rest | split)) | split | intro _

theorem beginEnable_rest (a : Nat) (s : State) (hs : Rest msk s0 s)  : Rest msk s0 (beginEnable a s) := by
  unfold beginEnable
  try dsimp only
  with_reducible repeat' first | assumption | apply modAxis_rest | (apply rest_mk; (iterate 7 (first | exact Or.inr rfl | exact Or.inl ‹_›)); (first | assumption | apply modAxis_rest | split)) | split | intro _

theorem toDisabled_rest (a : Nat) (sto : Bool) (s : State) (hs : Rest msk s0 s)  : Rest msk s0 (toDisabled a sto s) := by
  unfold toDisabled
  try dsimp only
  with_reducible repeat' first | assumption | apply freeLoop_rest | apply modAxis_rest | (apply rest_mk; (iterate 7 (first | exact Or.inr rfl | exact Or.inl ‹_›)); (first | assumption | apply freeLoop_rest | apply modAxis_rest | split)) | split | intro _

theorem toHeld_rest (a : Nat) (s : State) (hs : Rest msk s0 s)  : Rest msk s0 (toHeld a s) := by
  unfold toHeld
  try dsimp only
  with_reducible repeat' first | assumption | apply freeLoop_rest | apply modAxis_rest | (apply rest_mk; (iterate 7 (first | exact Or.inr rfl | exact Or.inl ‹_›)); (first | assumption | apply freeLoop_rest | apply modAxis_rest | split)) | split | intro _

theorem toClosed_rest (a : Nat) (s : State) (hs : Rest msk s0 s)  : Rest msk s0 (toClosed a s) := by
  unfold toClosed
  try dsimp only
  with_reducible repeat' first | assumption | apply modAxis_rest | (apply rest_mk; (iterate 7 (first | exact Or.inr rfl | exact Or.inl ‹_›)); (first | assumption | apply modAxis_rest | split)) | split | intro _

theorem genStop_rest (a : Nat) (s : State) (hs : Rest msk s0 s)  : Rest msk s0 (genStop a s) := by
  unfold genStop
  try dsimp only
  with_reducible repeat' first | assumption | apply modAxis_rest | (apply rest_mk; (iterate 7 (first | exact Or.inr rfl | exact Or.inl ‹_›)); (first | assumption | apply modAxis_rest | split)) | split | intro _

theorem stopAxis_rest (gen : Bool) (cat a : Nat) (s : State) (hs : Rest msk s0 s)  : Rest msk s0 (stopAxis gen cat a s) := by
  unfold stopAxis
  try dsimp only
  with_reducible repeat' first | assumption | apply genStop_rest | apply modAxis_rest | apply toDisabled_rest | (apply rest_mk; (iterate 7 (first | exact Or.inr rfl | exact Or.inl ‹_›)); (first | assumption | apply genStop_rest | apply modAxis_rest | apply toDisabled_rest | split)) | split | intro _

theorem faultAxis_rest (a : Nat) (s : State) (hs : Rest msk s0 s) (mjrn : msk.jrn = true := by assumption) : Rest msk s0 (faultAxis a s) := by
  unfold faultAxis
  try dsimp only
  with_reducible repeat' first | assumption | apply freeLoop_rest | apply journal_rest | apply modAxis_rest | apply foldl_rest | (apply rest_mk; (iterate 7 (first | exact Or.inr rfl | exact Or.inl ‹_›)); (first | assumption | apply freeLoop_rest | apply journal_rest | apply modAxis_rest | apply foldl_rest | split)) | split | intro _

theorem ungroupedFaultStop_rest (a : Nat) (s : State) (hs : Rest msk s0 s)  : Rest msk s0 (ungroupedFaultStop a s) := by
  unfold ungroupedFaultStop
  try dsimp only
  with_reducible repeat' first | assumption | apply modAxis_rest | (apply rest_mk; (iterate 7 (first | exact Or.inr rfl | exact Or.inl ‹_›)); (first | assumption | apply modAxis_rest | split)) | split | intro _

theorem axisConditions_rest (a : Nat) (s : State) (hs : Rest msk s0 s)  : Rest msk s0 (axisConditions a s) := by
  unfold axisConditions
  extract_lets x ten enabled fresh
  clear_value fresh ten
  split
  · split
    · exact hs
    split
    · exact reqFault_rest _ _ _ hs
    split
    · exact hs
    split
    · exact modAxis_rest _ _ _ hs
    · exact reqFault_rest _ _ _ hs
  · split
    · exact hs
    split
    · exact toDisabled_rest _ _ _ hs
    · exact reqFault_rest _ _ _ hs
  · split
    · exact hs
    split
    · exact modAxis_rest _ _ _ hs
    · exact modAxis_rest _ _ _ hs
  · exact hs

theorem driveFault_rest (a : Nat) (s : State) (hs : Rest msk s0 s)  : Rest msk s0 (driveFault a s) := by
  unfold driveFault
  try dsimp only
  with_reducible repeat' first | assumption | apply reqFault_rest | (apply rest_mk; (iterate 7 (first | exact Or.inr rfl | exact Or.inl ‹_›)); (first | assumption | apply reqFault_rest | split)) | split | intro _

theorem enableTimeout_rest (a : Nat) (s : State) (hs : Rest msk s0 s) (mtime : msk.time = true := by assumption) : Rest msk s0 (enableTimeout a s) := by
  unfold enableTimeout
  try dsimp only
  with_reducible repeat' first | assumption | apply advanceTo_rest | apply reqFault_rest | (apply rest_mk; (iterate 7 (first | exact Or.inr rfl | exact Or.inl ‹_›)); (first | assumption | apply advanceTo_rest | apply reqFault_rest | split)) | split | intro _

end Sys2Proof.Machine
end

