-- ==== Sys2Proof/Laws/RestMotion.lean ====
section
/-!
SUPPORT. `Rest` for the functions of motion, planning and the bus.
-/
namespace Sys2Proof.Machine

set_option Elab.async false
set_option linter.all false

variable {msk : MaskR} {s0 : State}

theorem disableTimeout_rest (a : Nat) (s : State) (hs : Rest msk s0 s) (mtime : msk.time = true := by assumption) : Rest msk s0 (disableTimeout a s) := by
  unfold disableTimeout
  try dsimp only
  with_reducible repeat' first | assumption | apply advanceTo_rest | apply reqFault_rest | (apply rest_mk; (iterate 7 (first | exact Or.inr rfl | exact Or.inl ‹_›)); (first | assumption | apply advanceTo_rest | apply reqFault_rest | split)) | split | intro _

theorem deferredLimits_rest (a : Nat) (s : State) (hs : Rest msk s0 s) (mjrn : msk.jrn = true := by assumption) : Rest msk s0 (deferredLimits a s) := by
  unfold deferredLimits
  try dsimp only
  with_reducible repeat' first | assumption | apply journal_rest | apply setAxis_rest | (apply rest_mk; (iterate 7 (first | exact Or.inr rfl | exact Or.inl ‹_›)); (first | assumption | apply journal_rest | apply setAxis_rest | split)) | split | intro _

theorem genStep_rest (a : Nat) (s : State) (hs : Rest msk s0 s)  : Rest msk s0 (genStep a s) := by
  unfold genStep
  try dsimp only
  with_reducible repeat' first | assumption | apply modAxis_rest | (apply rest_mk; (iterate 7 (first | exact Or.inr rfl | exact Or.inl ‹_›)); (first | assumption | apply modAxis_rest | split)) | split | intro _

theorem countZero_rest (a : Nat) (s : State) (hs : Rest msk s0 s)  : Rest msk s0 (countZero a s) := by
  unfold countZero
  try dsimp only
  with_reducible repeat' first | assumption | apply modAxis_rest | (apply rest_mk; (iterate 7 (first | exact Or.inr rfl | exact Or.inl ‹_›)); (first | assumption | apply modAxis_rest | split)) | split | intro _

theorem axisEff_rest (e : Eff) (s : State) (hs : Rest msk s0 s)  : Rest msk s0 (axisEff e s) := by
  unfold axisEff
  try dsimp only
  with_reducible repeat' first | assumption | apply beginEnable_rest | apply freeLoop_rest | apply modAxis_rest | apply setAxis_rest | apply toClosed_rest | apply toDisabled_rest | apply toHeld_rest | (apply rest_mk; (iterate 7 (first | exact Or.inr rfl | exact Or.inl ‹_›)); (first | assumption | apply beginEnable_rest | apply freeLoop_rest | apply modAxis_rest | apply setAxis_rest | apply toClosed_rest | apply toDisabled_rest | apply toHeld_rest | split)) | split | intro _

theorem setFlow_rest (f : Nat) (v : Flow) (s : State) (hs : Rest msk s0 s)  : Rest msk s0 (setFlow f v s) := by
  unfold setFlow
  try dsimp only
  with_reducible repeat' first | assumption | (apply rest_mk; (iterate 7 (first | exact Or.inr rfl | exact Or.inl ‹_›)); (first | assumption | split)) | split | intro _

theorem setOnUnit_rest (k u : Nat) (t : Option Task) (s : State) (hs : Rest msk s0 s)  : Rest msk s0 (setOnUnit k u t s) := by
  unfold setOnUnit
  try dsimp only
  with_reducible repeat' first | assumption | (apply rest_mk; (iterate 7 (first | exact Or.inr rfl | exact Or.inl ‹_›)); (first | assumption | split)) | split | intro _

theorem addBusy_rest (k u n : Nat) (s : State) (hs : Rest msk s0 s)  : Rest msk s0 (addBusy k u n s) := by
  unfold addBusy
  try dsimp only
  with_reducible repeat' first | assumption | apply countN_rest | (apply rest_mk; (iterate 7 (first | exact Or.inr rfl | exact Or.inl ‹_›)); (first | assumption | apply countN_rest | split)) | split | intro _

theorem makeReady_rest (t : Task) (s : State) (hs : Rest msk s0 s)  : Rest msk s0 (makeReady t s) := by
  unfold makeReady
  try dsimp only
  with_reducible repeat' first | assumption | apply noteDepth_rest | apply setCls_rest | (apply rest_mk; (iterate 7 (first | exact Or.inr rfl | exact Or.inl ‹_›)); (first | assumption | apply noteDepth_rest | apply setCls_rest | split)) | split | intro _

theorem suspend_rest (t : Task) (s : State) (hs : Rest msk s0 s)  : Rest msk s0 (suspend t s) := by
  unfold suspend
  try dsimp only
  with_reducible repeat' first | assumption | apply setCls_rest | (apply rest_mk; (iterate 7 (first | exact Or.inr rfl | exact Or.inl ‹_›)); (first | assumption | apply setCls_rest | split)) | split | intro _

theorem taskDue_rest (t : Task) (s : State) (hs : Rest msk s0 s)  : Rest msk s0 (taskDue t s) := by
  unfold taskDue
  extract_lets k c
  clear_value c
  split
  · exact noteDepth_rest _ _ (setCls_rest _ _ _ hs)
  split
  · exact suspend_rest _ _ hs
  · exact makeReady_rest _ _ hs

theorem stallPort_rest (t : Task) (s : State) (hs : Rest msk s0 s)  : Rest msk s0 (stallPort t s) := by
  unfold stallPort
  try dsimp only
  with_reducible repeat' first | assumption | apply count_rest | apply raise_rest | apply setCls_rest | (apply rest_mk; (iterate 7 (first | exact Or.inr rfl | exact Or.inl ‹_›)); (first | assumption | apply count_rest | apply raise_rest | apply setCls_rest | split)) | split | intro _

theorem enqueueTask_rest (d : Descriptor) (s : State) (hs : Rest msk s0 s)  : Rest msk s0 (enqueueTask d s) := by
  unfold enqueueTask
  try dsimp only
  with_reducible repeat' first | assumption | apply count_rest | apply noteDepth_rest | apply raise_rest | apply setCls_rest | apply setFlow_rest | apply stallPort_rest | apply taskDue_rest | (apply rest_mk; (iterate 7 (first | exact Or.inr rfl | exact Or.inl ‹_›)); (first | assumption | apply count_rest | apply noteDepth_rest | apply raise_rest | apply setCls_rest | apply setFlow_rest | apply stallPort_rest | apply taskDue_rest | split)) | split | intro _

theorem releaseHeld_rest (t : Task) (sA : State) (hs : Rest msk s0 sA) (mtime : msk.time = true := by assumption) : Rest msk s0 (releaseHeld t sA) := by
  unfold releaseHeld
  extract_lets s k c s1
  have h1 : Rest msk s0 s1 := setCls_rest _ _ _ (advanceTo_rest _ _ hs)
  clear_value s1
  split
  · exact suspend_rest _ _ h1
  · exact makeReady_rest _ _ h1

theorem taskRelease_rest (d : Descriptor) (s : State) (hs : Rest msk s0 s) (mtime : msk.time = true := by assumption) : Rest msk s0 (taskRelease d s) := by
  unfold taskRelease
  split
  · exact releaseHeld_rest _ _ hs
  split
  · exact hs
  refine enqueueTask_rest _ _ ?_
  split
  · apply rest_mk; (iterate 7 (first | exact Or.inr rfl | exact Or.inl ‹_›)); exact hs
  · exact hs

theorem taskDispatch_rest (k : Nat) (s : State) (hs : Rest msk s0 s)  : Rest msk s0 (taskDispatch k s) := by
  unfold taskDispatch
  try dsimp only
  with_reducible repeat' first | assumption | apply count_rest | apply noteDepth_rest | apply setCls_rest | apply setFlow_rest | apply setOnUnit_rest | (apply rest_mk; (iterate 7 (first | exact Or.inr rfl | exact Or.inl ‹_›)); (first | assumption | apply count_rest | apply noteDepth_rest | apply setCls_rest | apply setFlow_rest | apply setOnUnit_rest | split)) | split | intro _

theorem flowNext_rest (f : Nat) (s : State) (hs : Rest msk s0 s)  : Rest msk s0 (flowNext f s) := by
  unfold flowNext
  try dsimp only
  with_reducible repeat' first | assumption | apply setFlow_rest | apply taskDue_rest | (apply rest_mk; (iterate 7 (first | exact Or.inr rfl | exact Or.inl ‹_›)); (first | assumption | apply setFlow_rest | apply taskDue_rest | split)) | split | intro _

theorem freeUnitOf_rest (k u : Nat) (t : Task) (s : State) (hs : Rest msk s0 s)  : Rest msk s0 (freeUnitOf k u t s) := by
  unfold freeUnitOf
  try dsimp only
  with_reducible repeat' first | assumption | apply flowNext_rest | apply noteDepth_rest | apply setOnUnit_rest | (apply rest_mk; (iterate 7 (first | exact Or.inr rfl | exact Or.inl ‹_›)); (first | assumption | apply flowNext_rest | apply noteDepth_rest | apply setOnUnit_rest | split)) | split | intro _

theorem admitRan_rest (u n : Nat) (s : State) (hs : Rest msk s0 s)  : Rest msk s0 (admitRan u n s) := by
  unfold admitRan
  try dsimp only
  with_reducible repeat' first | assumption | apply count_rest | (apply rest_mk; (iterate 7 (first | exact Or.inr rfl | exact Or.inl ‹_›)); (first | assumption | apply count_rest | split)) | split | intro _

theorem taskEnd_rest (k u : Nat) (s : State) (hs : Rest msk s0 s)  : Rest msk s0 (taskEnd k u s) := by
  unfold taskEnd
  try dsimp only
  with_reducible repeat' first | assumption | apply addBusy_rest | apply admitRan_rest | apply count_rest | apply freeUnitOf_rest | (apply rest_mk; (iterate 7 (first | exact Or.inr rfl | exact Or.inl ‹_›)); (first | assumption | apply addBusy_rest | apply admitRan_rest | apply count_rest | apply freeUnitOf_rest | split)) | split | intro _

theorem fftSliceEnd_rest (u : Nat) (s : State) (hs : Rest msk s0 s) (mtime : msk.time = true := by assumption) : Rest msk s0 (fftSliceEnd u s) := by
  unfold fftSliceEnd
  try dsimp only
  with_reducible repeat' first | assumption | apply addBusy_rest | apply advanceTo_rest | apply countN_rest | apply setOnUnit_rest | apply suspend_rest | (apply rest_mk; (iterate 7 (first | exact Or.inr rfl | exact Or.inl ‹_›)); (first | assumption | apply addBusy_rest | apply advanceTo_rest | apply countN_rest | apply setOnUnit_rest | apply suspend_rest | split)) | split | intro _

theorem resumeFft_rest (s : State) (hs : Rest msk s0 s)  : Rest msk s0 (resumeFft s) := by
  unfold resumeFft
  try dsimp only
  with_reducible repeat' first | assumption | apply makeReady_rest | apply setCls_rest | apply foldl_rest | (apply rest_mk; (iterate 7 (first | exact Or.inr rfl | exact Or.inl ‹_›)); (first | assumption | apply makeReady_rest | apply setCls_rest | apply foldl_rest | split)) | split | intro _

theorem enqueueResume_rest (k : Nat) (s : State) (hs : Rest msk s0 s)  : Rest msk s0 (enqueueResume k s) := by
  unfold enqueueResume
  extract_lets c
  split
  · exact setCls_rest _ _ _ hs
  · extract_lets w room
    split
    · exact enqueueTask_rest _ _ (setCls_rest _ _ _ hs)
    · exact hs

theorem flowLimitEff_rest (e : Eff) (s : State) (hs : Rest msk s0 s)  : Rest msk s0 (flowLimitEff e s) := by
  unfold flowLimitEff
  try dsimp only
  with_reducible repeat' first | assumption | apply setFlow_rest | (apply rest_mk; (iterate 7 (first | exact Or.inr rfl | exact Or.inl ‹_›)); (first | assumption | apply setFlow_rest | split)) | split | intro _

theorem noCredit_rest (m k : Nat) (s : State) (hs : Rest msk s0 s) (mtime : msk.time = true := by assumption) (mdev : msk.dev = true := by assumption) : Rest msk s0 (noCredit m k s) := by
  unfold noCredit
  try dsimp only
  with_reducible repeat' first | assumption | apply advanceTo_rest | apply complete_rest | (apply rest_mk; (iterate 7 (first | exact Or.inr rfl | exact Or.inl ‹_›)); (first | assumption | apply advanceTo_rest | apply complete_rest | split)) | split | intro _

theorem stpEvent_rest (n : Nat) (cause : BitVec 8) (s : State) (hs : Rest msk s0 s)  : Rest msk s0 (stpEvent n cause s) := by
  unfold stpEvent
  try dsimp only
  with_reducible repeat' first | assumption | apply raise_rest | apply stpPut_rest | apply setStp_rest | (apply rest_mk; (iterate 7 (first | exact Or.inr rfl | exact Or.inl ‹_›)); (first | assumption | apply raise_rest | apply stpPut_rest | apply setStp_rest | split)) | split | intro _

theorem stpGo_rest (n : Nat) (st : StpState) (s : State) (hs : Rest msk s0 s)  : Rest msk s0 (stpGo n st s) := by
  unfold stpGo
  try dsimp only
  with_reducible repeat' first | assumption | apply stpPut_rest | apply setStp_rest | apply stpEvent_rest | (apply rest_mk; (iterate 7 (first | exact Or.inr rfl | exact Or.inl ‹_›)); (first | assumption | apply stpPut_rest | apply setStp_rest | apply stpEvent_rest | split)) | split | intro _

theorem stpSuspect_rest (n : Nat) (s : State) (hs : Rest msk s0 s) (mjrn : msk.jrn = true := by assumption) : Rest msk s0 (stpSuspect n s) := by
  unfold stpSuspect
  try dsimp only
  with_reducible repeat' first | assumption | apply journal_rest | apply stpPut_rest | apply setStp_rest | apply stpEvent_rest | (apply rest_mk; (iterate 7 (first | exact Or.inr rfl | exact Or.inl ‹_›)); (first | assumption | apply journal_rest | apply stpPut_rest | apply setStp_rest | apply stpEvent_rest | split)) | split | intro _

theorem stpPreempt_rest (n : Nat) (c : StpCmd) (s : State) (hs : Rest msk s0 s) (mjrn : msk.jrn = true := by assumption) : Rest msk s0 (stpPreempt n c s) := by
  unfold stpPreempt
  try dsimp only
  with_reducible repeat' first | assumption | apply journal_rest | apply stpEvent_rest | (apply rest_mk; (iterate 7 (first | exact Or.inr rfl | exact Or.inl ‹_›)); (first | assumption | apply journal_rest | apply stpEvent_rest | split)) | split | intro _

theorem stpDropMoves_rest (n t : Nat) (s : State) (hs : Rest msk s0 s) (mjrn : msk.jrn = true := by assumption) : Rest msk s0 (stpDropMoves n t s) := by
  unfold stpDropMoves
  try dsimp only
  with_reducible repeat' first | assumption | apply stpPut_rest | apply setStp_rest | apply stpPreempt_rest | apply foldl_rest | (apply rest_mk; (iterate 7 (first | exact Or.inr rfl | exact Or.inl ‹_›)); (first | assumption | apply stpPut_rest | apply setStp_rest | apply stpPreempt_rest | apply foldl_rest | split)) | split | intro _

theorem stpAbort_rest (n : Nat) (s : State) (hs : Rest msk s0 s)  : Rest msk s0 (stpAbort n s) := by
  unfold stpAbort
  try dsimp only
  with_reducible repeat' first | assumption | apply stpPut_rest | apply setStp_rest | apply stpEvent_rest | (apply rest_mk; (iterate 7 (first | exact Or.inr rfl | exact Or.inl ‹_›)); (first | assumption | apply stpPut_rest | apply setStp_rest | apply stpEvent_rest | split)) | split | intro _

theorem stpRamp_rest (n t : Nat) (s : State) (hs : Rest msk s0 s) (mjrn : msk.jrn = true := by assumption) : Rest msk s0 (stpRamp n t s) := by
  unfold stpRamp
  try dsimp only
  with_reducible repeat' first | assumption | apply stpPut_rest | apply setStp_rest | apply stpAbort_rest | apply stpDropMoves_rest | apply stpEvent_rest | (apply rest_mk; (iterate 7 (first | exact Or.inr rfl | exact Or.inl ‹_›)); (first | assumption | apply stpPut_rest | apply setStp_rest | apply stpAbort_rest | apply stpDropMoves_rest | apply stpEvent_rest | split)) | split | intro _

theorem stpImmediate_rest (n : Nat) (off : Bool) (s : State) (hs : Rest msk s0 s) (mjrn : msk.jrn = true := by assumption) : Rest msk s0 (stpImmediate n off s) := by
  unfold stpImmediate
  try dsimp only
  with_reducible repeat' first | assumption | apply count_rest | apply stpPut_rest | apply setStp_rest | apply stpAbort_rest | apply stpDropMoves_rest | apply stpEvent_rest | apply stpGo_rest | apply stpSuspect_rest | (apply rest_mk; (iterate 7 (first | exact Or.inr rfl | exact Or.inl ‹_›)); (first | assumption | apply count_rest | apply stpPut_rest | apply setStp_rest | apply stpAbort_rest | apply stpDropMoves_rest | apply stpEvent_rest | apply stpGo_rest | apply stpSuspect_rest | split)) | split | intro _

theorem stpGroupStop_rest (g cat t : Nat) (s : State) (hs : Rest msk s0 s) (mjrn : msk.jrn = true := by assumption) : Rest msk s0 (stpGroupStop g cat t s) := by
  unfold stpGroupStop
  try dsimp only
  with_reducible repeat' first | assumption | apply forNat_rest | apply stpImmediate_rest | apply stpRamp_rest | (apply rest_mk; (iterate 7 (first | exact Or.inr rfl | exact Or.inl ‹_›)); (first | assumption | apply forNat_rest | apply stpImmediate_rest | apply stpRamp_rest | split)) | split | intro _

theorem stpHomeFail_rest (n reason t : Nat) (s : State) (hs : Rest msk s0 s)  : Rest msk s0 (stpHomeFail n reason t s) := by
  unfold stpHomeFail
  try dsimp only
  with_reducible repeat' first | assumption | apply stpPut_rest | apply setStp_rest | apply stpEvent_rest | (apply rest_mk; (iterate 7 (first | exact Or.inr rfl | exact Or.inl ‹_›)); (first | assumption | apply stpPut_rest | apply setStp_rest | apply stpEvent_rest | split)) | split | intro _

theorem stpHomeTick_rest (n t : Nat) (s : State) (hs : Rest msk s0 s)  : Rest msk s0 (stpHomeTick n t s) := by
  unfold stpHomeTick
  try dsimp only
  with_reducible repeat' first | assumption | apply stpPut_rest | apply setStp_rest | apply stpEvent_rest | apply stpHomeFail_rest | (apply rest_mk; (iterate 7 (first | exact Or.inr rfl | exact Or.inl ‹_›)); (first | assumption | apply stpPut_rest | apply setStp_rest | apply stpEvent_rest | apply stpHomeFail_rest | split)) | split | intro _

theorem stpCompute_rest (c1 c2 : Nat) (s : State) (hs : Rest msk s0 s)  : Rest msk s0 (stpCompute c1 c2 s) := by
  unfold stpCompute
  try dsimp only
  with_reducible repeat' first | assumption | apply forNat_rest | apply stpPut_rest | apply setStp_rest | apply stpHomeTick_rest | (apply rest_mk; (iterate 7 (first | exact Or.inr rfl | exact Or.inl ‹_›)); (first | assumption | apply forNat_rest | apply stpPut_rest | apply setStp_rest | apply stpHomeTick_rest | split)) | split | intro _

theorem stpRecords_rest (s : State) (hs : Rest msk s0 s)  : Rest msk s0 (stpRecords s) := by
  unfold stpRecords
  try dsimp only
  with_reducible repeat' first | assumption | (apply rest_mk; (iterate 7 (first | exact Or.inr rfl | exact Or.inl ‹_›)); (first | assumption | split)) | split | intro _

theorem stpSegment_rest (t len n : Nat) (s : State) (hs : Rest msk s0 s)  : Rest msk s0 (stpSegment t len n s) := by
  unfold stpSegment
  try dsimp only
  with_reducible repeat' first | assumption | apply count_rest | apply countN_rest | apply emit_rest | apply stpPut_rest | apply setStp_rest | (apply rest_mk; (iterate 7 (first | exact Or.inr rfl | exact Or.inl ‹_›)); (first | assumption | apply count_rest | apply countN_rest | apply emit_rest | apply stpPut_rest | apply setStp_rest | split)) | split | intro _

theorem stpCadence_rest (t len : Nat) (s : State) (hs : Rest msk s0 s)  : Rest msk s0 (stpCadence t len s) := by
  unfold stpCadence
  refine forNat_rest _ _ _ (fun n u hu => ?_) hs
  extract_lets x u1 y k y1 y2
  have h1 : Rest msk s0 u1 := by
    simp only [u1]; split
    · exact stpGo_rest _ _ _ (setStp_rest _ _ _ hu)
    · exact hu
  clear_value u1
  split
  exact stpSegment_rest _ _ _ _ (setStp_rest _ _ _ h1)

theorem stpHold_rest (n : Nat) (s : State) (hs : Rest msk s0 s) (mtime : msk.time = true := by assumption) : Rest msk s0 (stpHold n s) := by
  unfold stpHold
  try dsimp only
  with_reducible repeat' first | assumption | apply advanceTo_rest | apply stpPut_rest | apply setStp_rest | (apply rest_mk; (iterate 7 (first | exact Or.inr rfl | exact Or.inl ‹_›)); (first | assumption | apply advanceTo_rest | apply stpPut_rest | apply setStp_rest | split)) | split | intro _

theorem stpInput_rest (c t n : Nat) (s : State) (hs : Rest msk s0 s) (mtime : msk.time = true := by assumption) : Rest msk s0 (stpInput c t n s) := by
  unfold stpInput
  try dsimp only
  with_reducible repeat' first | assumption | apply latch_rest | apply stpPut_rest | apply setStp_rest | apply stpHomeFail_rest | (apply rest_mk; (iterate 7 (first | exact Or.inr rfl | exact Or.inl ‹_›)); (first | assumption | apply latch_rest | apply stpPut_rest | apply setStp_rest | apply stpHomeFail_rest | split)) | split | intro _

theorem stpLimitStop_rest (t n : Nat) (s : State) (hs : Rest msk s0 s) (mjrn : msk.jrn = true := by assumption) : Rest msk s0 (stpLimitStop t n s) := by
  unfold stpLimitStop
  try dsimp only
  with_reducible repeat' first | assumption | apply stpImmediate_rest | apply stpRamp_rest | (apply rest_mk; (iterate 7 (first | exact Or.inr rfl | exact Or.inl ‹_›)); (first | assumption | apply stpImmediate_rest | apply stpRamp_rest | split)) | split | intro _

theorem stpEff_rest (t : Nat) (e : Eff) (s : State) (hs : Rest msk s0 s) (mjrn : msk.jrn = true := by assumption) : Rest msk s0 (stpEff t e s) := by
  unfold stpEff
  extract_lets
  split
  · split
    · exact stpGo_rest _ _ _ (stpPut_rest _ _ _ hs)
    · exact hs
  split
  · split
    · exact stpGo_rest _ _ _ (stpPut_rest _ _ _ hs)
    · exact hs
  split
  · split
    · exact stpImmediate_rest _ _ _ hs
    · exact hs
  split
  · split
    · exact hs
    · split
      · exact stpEvent_rest _ _ _ (setStp_rest _ _ _ hs)
      · exact stpGo_rest _ _ _ (setStp_rest _ _ _ hs)
  split
  · split
    · exact stpGo_rest _ _ _ (stpPut_rest _ _ _ hs)
    · exact hs
  split
  · exact setStp_rest _ _ _ hs
  · exact hs

theorem grpEvent_rest (g code : Nat) (s : State) (hs : Rest msk s0 s)  : Rest msk s0 (grpEvent g code s) := by
  unfold grpEvent
  try dsimp only
  with_reducible repeat' first | assumption | apply modGrp_rest | apply raise_rest | (apply rest_mk; (iterate 7 (first | exact Or.inr rfl | exact Or.inl ‹_›)); (first | assumption | apply modGrp_rest | apply raise_rest | split)) | split | intro _

theorem grpTo_rest (g : Nat) (st : GrpState) (s : State) (hs : Rest msk s0 s)  : Rest msk s0 (grpTo g st s) := by
  unfold grpTo
  try dsimp only
  with_reducible repeat' first | assumption | apply grpEvent_rest | apply setGrp_rest | (apply rest_mk; (iterate 7 (first | exact Or.inr rfl | exact Or.inl ‹_›)); (first | assumption | apply grpEvent_rest | apply setGrp_rest | split)) | split | intro _

theorem preempted_rest (g tag promise : Nat) (s : State) (hs : Rest msk s0 s) (mjrn : msk.jrn = true := by assumption) : Rest msk s0 (preempted g tag promise s) := by
  unfold preempted
  try dsimp only
  with_reducible repeat' first | assumption | apply grpEvent_rest | apply journal_rest | (apply rest_mk; (iterate 7 (first | exact Or.inr rfl | exact Or.inl ‹_›)); (first | assumption | apply grpEvent_rest | apply journal_rest | split)) | split | intro _

theorem dropTargets_rest (g : Nat) (s : State) (hs : Rest msk s0 s)  : Rest msk s0 (dropTargets g s) := by
  unfold dropTargets
  try dsimp only
  with_reducible repeat' first | assumption | apply modGrp_rest | (apply rest_mk; (iterate 7 (first | exact Or.inr rfl | exact Or.inl ‹_›)); (first | assumption | apply modGrp_rest | split)) | split | intro _

theorem preemptAll_rest (g : Nat) (l : List MpcTarget) (s : State) (hs : Rest msk s0 s) (mjrn : msk.jrn = true := by assumption) : Rest msk s0 (preemptAll g l s) := by
  unfold preemptAll
  try dsimp only
  with_reducible repeat' first | assumption | apply preempted_rest | apply foldl_rest | (apply rest_mk; (iterate 7 (first | exact Or.inr rfl | exact Or.inl ‹_›)); (first | assumption | apply preempted_rest | apply foldl_rest | split)) | split | intro _

theorem underrunMarks_rest (k : Nat) (s : State) (hs : Rest msk s0 s) (mjrn : msk.jrn = true := by assumption) : Rest msk s0 (underrunMarks k s) := by
  unfold underrunMarks
  try dsimp only
  with_reducible repeat' first | assumption | apply journal_rest | apply raise_rest | (apply rest_mk; (iterate 7 (first | exact Or.inr rfl | exact Or.inl ‹_›)); (first | assumption | apply journal_rest | apply raise_rest | split)) | split | intro _

theorem strmTaken_rest (g : Nat) (s : State) (hs : Rest msk s0 s) (mjrn : msk.jrn = true := by assumption) : Rest msk s0 (strmTaken g s) := by
  unfold strmTaken
  try dsimp only
  with_reducible repeat' first | assumption | apply modGrp_rest | apply underrunMarks_rest | (apply rest_mk; (iterate 7 (first | exact Or.inr rfl | exact Or.inl ‹_›)); (first | assumption | apply modGrp_rest | apply underrunMarks_rest | split)) | split | intro _

theorem resetMotion_rest (g : Nat) (s : State) (hs : Rest msk s0 s)  : Rest msk s0 (resetMotion g s) := by
  unfold resetMotion
  try dsimp only
  with_reducible repeat' first | assumption | apply homePhase_rest | apply modGrp_rest | (apply rest_mk; (iterate 7 (first | exact Or.inr rfl | exact Or.inl ‹_›)); (first | assumption | apply homePhase_rest | apply modGrp_rest | split)) | split | intro _

theorem idleStop_rest (g cat : Nat) (ax : Bool) (s : State) (hs : Rest msk s0 s) (mjrn : msk.jrn = true := by assumption) : Rest msk s0 (idleStop g cat ax s) := by
  unfold idleStop
  try dsimp only
  with_reducible repeat' first | assumption | apply forNat_rest | apply stoGroup_rest | apply stopAxis_rest | apply stpGroupStop_rest | (apply rest_mk; (iterate 7 (first | exact Or.inr rfl | exact Or.inl ‹_›)); (first | assumption | apply forNat_rest | apply stoGroup_rest | apply stopAxis_rest | apply stpGroupStop_rest | split)) | split | intro _

theorem stopMembers_rest (g cat : Nat) (s : State) (hs : Rest msk s0 s) (mjrn : msk.jrn = true := by assumption) : Rest msk s0 (stopMembers g cat s) := by
  unfold stopMembers
  try dsimp only
  with_reducible repeat' first | assumption | apply idleStop_rest | apply modGrp_rest | (apply rest_mk; (iterate 7 (first | exact Or.inr rfl | exact Or.inl ‹_›)); (first | assumption | apply idleStop_rest | apply modGrp_rest | split)) | split | intro _

theorem freeOpen_rest (g : Nat) (s : State) (hs : Rest msk s0 s)  : Rest msk s0 (freeOpen g s) := by
  unfold freeOpen
  exact forNat_rest _ _ _ (fun a t ht => freeLoop_rest _ _ ht) hs

theorem beginStop_rest (g cat : Nat) (outcome : GrpState) (s : State) (hs : Rest msk s0 s) (mjrn : msk.jrn = true := by assumption) : Rest msk s0 (beginStop g cat outcome s) := by
  unfold beginStop
  try dsimp only
  with_reducible repeat' first | assumption | apply dropTargets_rest | apply freeOpen_rest | apply grpTo_rest | apply modGrp_rest | apply preemptAll_rest | apply stopMembers_rest | apply strmTaken_rest | (apply rest_mk; (iterate 7 (first | exact Or.inr rfl | exact Or.inl ‹_›)); (first | assumption | apply dropTargets_rest | apply freeOpen_rest | apply grpTo_rest | apply modGrp_rest | apply preemptAll_rest | apply stopMembers_rest | apply strmTaken_rest | split)) | split | intro _

theorem pathStop_rest (g : Nat) (outcome : GrpState) (s : State) (hs : Rest msk s0 s)  : Rest msk s0 (pathStop g outcome s) := by
  unfold pathStop
  try dsimp only
  with_reducible repeat' first | assumption | apply grpTo_rest | apply modGrp_rest | (apply rest_mk; (iterate 7 (first | exact Or.inr rfl | exact Or.inl ‹_›)); (first | assumption | apply grpTo_rest | apply modGrp_rest | split)) | split | intro _

theorem faultGroup_rest (g : Nat) (s : State) (hs : Rest msk s0 s) (mjrn : msk.jrn = true := by assumption) : Rest msk s0 (faultGroup g s) := by
  unfold faultGroup
  try dsimp only
  with_reducible repeat' first | assumption | apply dropTargets_rest | apply faultAxis_rest | apply forNat_rest | apply freeOpen_rest | apply grpTo_rest | apply journal_rest | apply modAxis_rest | apply modGrp_rest | apply preemptAll_rest | apply reqFault_rest | apply stoGroup_rest | apply stopAxis_rest | apply stopMembers_rest | apply stpGroupStop_rest | apply strmTaken_rest | (apply rest_mk; (iterate 7 (first | exact Or.inr rfl | exact Or.inl ‹_›)); (first | assumption | apply dropTargets_rest | apply faultAxis_rest | apply forNat_rest | apply freeOpen_rest | apply grpTo_rest | apply journal_rest | apply modAxis_rest | apply modGrp_rest | apply preemptAll_rest | apply reqFault_rest | apply stoGroup_rest | apply stopAxis_rest | apply stopMembers_rest | apply stpGroupStop_rest | apply strmTaken_rest | split)) | split | intro _

theorem homeFail_rest (g a reason : Nat) (s : State) (hs : Rest msk s0 s) (mjrn : msk.jrn = true := by assumption) : Rest msk s0 (homeFail g a reason s) := by
  unfold homeFail
  try dsimp only
  with_reducible repeat' first | assumption | apply beginStop_rest | apply grpEvent_rest | apply journal_rest | apply modGrp_rest | (apply rest_mk; (iterate 7 (first | exact Or.inr rfl | exact Or.inl ‹_›)); (first | assumption | apply beginStop_rest | apply grpEvent_rest | apply journal_rest | apply modGrp_rest | split)) | split | intro _

theorem homeAbort_rest (g cat : Nat) (out : GrpState) (s : State) (hs : Rest msk s0 s) (mjrn : msk.jrn = true := by assumption) : Rest msk s0 (homeAbort g cat out s) := by
  unfold homeAbort
  try dsimp only
  with_reducible repeat' first | assumption | apply beginStop_rest | apply grpEvent_rest | apply journal_rest | apply modGrp_rest | (apply rest_mk; (iterate 7 (first | exact Or.inr rfl | exact Or.inl ‹_›)); (first | assumption | apply beginStop_rest | apply grpEvent_rest | apply journal_rest | apply modGrp_rest | split)) | split | intro _

theorem stopGroup_rest (cat g : Nat) (s : State) (hs : Rest msk s0 s) (mjrn : msk.jrn = true := by assumption) : Rest msk s0 (stopGroup cat g s) := by
  unfold stopGroup
  try dsimp only
  with_reducible repeat' first | assumption | apply beginStop_rest | apply dropTargets_rest | apply homeAbort_rest | apply idleStop_rest | apply modGrp_rest | apply preemptAll_rest | apply stopMembers_rest | apply strmTaken_rest | (apply rest_mk; (iterate 7 (first | exact Or.inr rfl | exact Or.inl ‹_›)); (first | assumption | apply beginStop_rest | apply dropTargets_rest | apply homeAbort_rest | apply idleStop_rest | apply modGrp_rest | apply preemptAll_rest | apply stopMembers_rest | apply strmTaken_rest | split)) | split | intro _

theorem releaseFaulted_rest (g : Nat) (s : State) (hs : Rest msk s0 s)  : Rest msk s0 (releaseFaulted g s) := by
  unfold releaseFaulted
  try dsimp only
  with_reducible repeat' first | assumption | apply forNat_rest | apply modAxis_rest | (apply rest_mk; (iterate 7 (first | exact Or.inr rfl | exact Or.inl ‹_›)); (first | assumption | apply forNat_rest | apply modAxis_rest | split)) | split | intro _

theorem freeQp_rest (g : Nat) (s : State) (hs : Rest msk s0 s)  : Rest msk s0 (freeQp g s) := by
  unfold freeQp
  try dsimp only
  with_reducible repeat' first | assumption | apply freeShares_rest | (apply rest_mk; (iterate 7 (first | exact Or.inr rfl | exact Or.inl ‹_›)); (first | assumption | apply freeShares_rest | split)) | split | intro _

theorem toIdle_rest (g : Nat) (s : State) (hs : Rest msk s0 s)  : Rest msk s0 (toIdle g s) := by
  unfold toIdle
  try dsimp only
  with_reducible repeat' first | assumption | apply freeOpen_rest | apply freeQp_rest | apply grpTo_rest | apply resetMotion_rest | (apply rest_mk; (iterate 7 (first | exact Or.inr rfl | exact Or.inl ‹_›)); (first | assumption | apply freeOpen_rest | apply freeQp_rest | apply grpTo_rest | apply resetMotion_rest | split)) | split | intro _

theorem grpSettle_rest (g : Nat) (s : State) (hs : Rest msk s0 s)  : Rest msk s0 (grpSettle g s) := by
  unfold grpSettle
  try dsimp only
  with_reducible repeat' first | assumption | apply grpTo_rest | apply modGrp_rest | apply resetMotion_rest | (apply rest_mk; (iterate 7 (first | exact Or.inr rfl | exact Or.inl ‹_›)); (first | assumption | apply grpTo_rest | apply modGrp_rest | apply resetMotion_rest | split)) | split | intro _

theorem groupConditions_rest (g : Nat) (s : State) (hs : Rest msk s0 s) (mjrn : msk.jrn = true := by assumption) : Rest msk s0 (groupConditions g s) := by
  unfold groupConditions
  try dsimp only
  with_reducible repeat' first | assumption | apply forNat_rest | apply grpSettle_rest | apply grpTo_rest | apply homeFail_rest | apply modGrp_rest | apply releaseFaulted_rest | apply resetMotion_rest | apply toClosed_rest | apply toIdle_rest | (apply rest_mk; (iterate 7 (first | exact Or.inr rfl | exact Or.inl ‹_›)); (first | assumption | apply forNat_rest | apply grpSettle_rest | apply grpTo_rest | apply homeFail_rest | apply modGrp_rest | apply releaseFaulted_rest | apply resetMotion_rest | apply toClosed_rest | apply toIdle_rest | split)) | split | intro _

theorem driveMembers_rest (g : Nat) (lam rate : Fx) (k : Knot) (s : State) (hs : Rest msk s0 s)  : Rest msk s0 (driveMembers g lam rate k s) := by
  unfold driveMembers
  try dsimp only
  with_reducible repeat' first | assumption | apply forNat_rest | apply setAxis_rest | apply foldl_rest | (apply rest_mk; (iterate 7 (first | exact Or.inr rfl | exact Or.inl ‹_›)); (first | assumption | apply forNat_rest | apply setAxis_rest | apply foldl_rest | split)) | split | intro _

theorem feedMembers_rest (g : Nat) (s : State) (hs : Rest msk s0 s)  : Rest msk s0 (feedMembers g s) := by
  unfold feedMembers
  try dsimp only
  with_reducible repeat' first | assumption | apply forNat_rest | apply modAxis_rest | apply foldl_rest | (apply rest_mk; (iterate 7 (first | exact Or.inr rfl | exact Or.inl ‹_›)); (first | assumption | apply forNat_rest | apply modAxis_rest | apply foldl_rest | split)) | split | intro _

theorem lamCadence_rest (g : Nat) (s : State) (hs : Rest msk s0 s)  : Rest msk s0 (lamCadence g s) := by
  unfold lamCadence
  try dsimp only
  with_reducible repeat' first | assumption | apply modGrp_rest | (apply rest_mk; (iterate 7 (first | exact Or.inr rfl | exact Or.inl ‹_›)); (first | assumption | apply modGrp_rest | split)) | split | intro _

theorem interpolate_rest (g : Nat) (s : State) (hs : Rest msk s0 s)  : Rest msk s0 (interpolate g s) := by
  unfold interpolate
  try dsimp only
  with_reducible repeat' first | assumption | apply driveMembers_rest | apply modGrp_rest | (apply rest_mk; (iterate 7 (first | exact Or.inr rfl | exact Or.inl ‹_›)); (first | assumption | apply driveMembers_rest | apply modGrp_rest | split)) | split | intro _

theorem startMoves_rest (g : Nat) (t : Fx) (s : State) (hs : Rest msk s0 s)  : Rest msk s0 (startMoves g t s) := by
  unfold startMoves
  try dsimp only
  with_reducible repeat' first | assumption | apply modGrp_rest | (apply rest_mk; (iterate 7 (first | exact Or.inr rfl | exact Or.inl ‹_›)); (first | assumption | apply modGrp_rest | split)) | split | intro _

theorem homeTo_rest (a : Nat) (target v : Fx) (s : State) (hs : Rest msk s0 s)  : Rest msk s0 (homeTo a target v s) := by
  unfold homeTo
  try dsimp only
  with_reducible repeat' first | assumption | apply modAxis_rest | (apply rest_mk; (iterate 7 (first | exact Or.inr rfl | exact Or.inl ‹_›)); (first | assumption | apply modAxis_rest | split)) | split | intro _

theorem homeGo_rest (a : Nat) (st : HomeStep) (s : State) (hs : Rest msk s0 s)  : Rest msk s0 (homeGo a st s) := by
  unfold homeGo
  try dsimp only
  with_reducible repeat' first | assumption | apply modAxis_rest | (apply rest_mk; (iterate 7 (first | exact Or.inr rfl | exact Or.inl ‹_›)); (first | assumption | apply modAxis_rest | split)) | split | intro _

theorem homeSearch_rest (a : Nat) (st : HomeStep) (sign : Int) (v : Fx) (s : State) (hs : Rest msk s0 s)  : Rest msk s0 (homeSearch a st sign v s) := by
  unfold homeSearch
  try dsimp only
  with_reducible repeat' first | assumption | apply homeGo_rest | apply homeTo_rest | apply modAxis_rest | (apply rest_mk; (iterate 7 (first | exact Or.inr rfl | exact Or.inl ‹_›)); (first | assumption | apply homeGo_rest | apply homeTo_rest | apply modAxis_rest | split)) | split | intro _

theorem homeRest_rest (a : Nat) (st : HomeStep) (s : State) (hs : Rest msk s0 s)  : Rest msk s0 (homeRest a st s) := by
  unfold homeRest
  try dsimp only
  with_reducible repeat' first | assumption | apply genStop_rest | apply homeGo_rest | (apply rest_mk; (iterate 7 (first | exact Or.inr rfl | exact Or.inl ‹_›)); (first | assumption | apply genStop_rest | apply homeGo_rest | split)) | split | intro _

theorem shiftHome_rest (a : Nat) (d : Int) (s : State) (hs : Rest msk s0 s)  : Rest msk s0 (shiftHome a d s) := by
  unfold shiftHome
  try dsimp only
  with_reducible repeat' first | assumption | apply modAxis_rest | (apply rest_mk; (iterate 7 (first | exact Or.inr rfl | exact Or.inl ‹_›)); (first | assumption | apply modAxis_rest | split)) | split | intro _

theorem latchPoint_rest (g a : Nat) (point slavePoint : Int) (s : State) (hs : Rest msk s0 s)  : Rest msk s0 (latchPoint g a point slavePoint s) := by
  unfold latchPoint
  try dsimp only
  with_reducible repeat' first | assumption | apply modAxis_rest | apply shiftHome_rest | (apply rest_mk; (iterate 7 (first | exact Or.inr rfl | exact Or.inl ‹_›)); (first | assumption | apply modAxis_rest | apply shiftHome_rest | split)) | split | intro _

theorem latchAt_rest (g a t : Nat) (pt : Option Int) (s : State) (hs : Rest msk s0 s)  : Rest msk s0 (latchAt g a t pt s) := by
  unfold latchAt
  try dsimp only
  with_reducible repeat' first | assumption | apply latchPoint_rest | apply modAxis_rest | (apply rest_mk; (iterate 7 (first | exact Or.inr rfl | exact Or.inl ‹_›)); (first | assumption | apply latchPoint_rest | apply modAxis_rest | split)) | split | intro _

theorem latchRetry_rest (g a : Nat) (s : State) (hs : Rest msk s0 s)  : Rest msk s0 (latchRetry g a s) := by
  unfold latchRetry
  try dsimp only
  with_reducible repeat' first | assumption | apply latchAt_rest | (apply rest_mk; (iterate 7 (first | exact Or.inr rfl | exact Or.inl ‹_›)); (first | assumption | apply latchAt_rest | split)) | split | intro _

theorem homeBegin_rest (g a : Nat) (s : State) (hs : Rest msk s0 s) (mjrn : msk.jrn = true := by assumption) : Rest msk s0 (homeBegin g a s) := by
  unfold homeBegin
  try dsimp only
  with_reducible repeat' first | assumption | apply homeFail_rest | apply homeGo_rest | apply homeSearch_rest | apply modAxis_rest | apply shiftHome_rest | (apply rest_mk; (iterate 7 (first | exact Or.inr rfl | exact Or.inl ‹_›)); (first | assumption | apply homeFail_rest | apply homeGo_rest | apply homeSearch_rest | apply modAxis_rest | apply shiftHome_rest | split)) | split | intro _

theorem homeDone_rest (g a : Nat) (s : State) (hs : Rest msk s0 s)  : Rest msk s0 (homeDone g a s) := by
  unfold homeDone
  try dsimp only
  with_reducible repeat' first | assumption | apply modAxis_rest | (apply rest_mk; (iterate 7 (first | exact Or.inr rfl | exact Or.inl ‹_›)); (first | assumption | apply modAxis_rest | split)) | split | intro _

theorem homeAxisTick_rest (g a : Nat) (s : State) (hs : Rest msk s0 s)  : Rest msk s0 (homeAxisTick g a s) := by
  unfold homeAxisTick
  try dsimp only
  with_reducible repeat' first | assumption | apply homeDone_rest | apply homeGo_rest | apply homeSearch_rest | apply homeTo_rest | (apply rest_mk; (iterate 7 (first | exact Or.inr rfl | exact Or.inl ‹_›)); (first | assumption | apply homeDone_rest | apply homeGo_rest | apply homeSearch_rest | apply homeTo_rest | split)) | split | intro _

theorem homePhase_rest (g n fuel : Nat) (s : State) (hs : Rest msk s0 s) (mjrn : msk.jrn = true := by assumption) : Rest msk s0 (homePhase g n fuel s) := by
  induction fuel generalizing n s with
  | zero => exact hs
  | succ fuel ih =>
    unfold homePhase
    split
    · split
      · exact grpTo_rest _ _ _ (resetMotion_rest _ _ (modGrp_rest _ _ _ hs))
      · exact hs
    · extract_lets ms s1 s2
      have h1 : Rest msk s0 s1 := by
        refine forNat_rest _ _ _ (fun a t ht => ?_) (modGrp_rest _ _ _ hs)
        split
        · exact homeBegin_rest _ _ _ ht
        · exact ht
      clear_value s1
      have h2 : Rest msk s0 s2 := by
        refine forNat_rest _ _ _ (fun a t ht => ?_) h1
        split
        · exact homeDone_rest _ _ _ ht
        · exact ht
      clear_value s2
      split
      · exact ih _ _ h2
      · exact h2

theorem homeCadence_rest (g : Nat) (s : State) (hs : Rest msk s0 s) (mjrn : msk.jrn = true := by assumption) : Rest msk s0 (homeCadence g s) := by
  unfold homeCadence
  try dsimp only
  with_reducible repeat' first | assumption | apply forNat_rest | apply homeAxisTick_rest | apply homePhase_rest | (apply rest_mk; (iterate 7 (first | exact Or.inr rfl | exact Or.inl ‹_›)); (first | assumption | apply forNat_rest | apply homeAxisTick_rest | apply homePhase_rest | split)) | split | intro _

theorem beginHome_rest (g : Nat) (s : State) (hs : Rest msk s0 s) (mjrn : msk.jrn = true := by assumption) : Rest msk s0 (beginHome g s) := by
  unfold beginHome
  try dsimp only
  with_reducible repeat' first | assumption | apply forNat_rest | apply grpTo_rest | apply homePhase_rest | apply modAxis_rest | apply modGrp_rest | (apply rest_mk; (iterate 7 (first | exact Or.inr rfl | exact Or.inl ‹_›)); (first | assumption | apply forNat_rest | apply grpTo_rest | apply homePhase_rest | apply modAxis_rest | apply modGrp_rest | split)) | split | intro _

theorem slavesFollow_rest (g : Nat) (s : State) (hs : Rest msk s0 s)  : Rest msk s0 (slavesFollow g s) := by
  unfold slavesFollow
  try dsimp only
  with_reducible repeat' first | assumption | apply forNat_rest | apply modAxis_rest | (apply rest_mk; (iterate 7 (first | exact Or.inr rfl | exact Or.inl ‹_›)); (first | assumption | apply forNat_rest | apply modAxis_rest | split)) | split | intro _

theorem homeFailLater_rest (g a reason : Nat) (s : State) (hs : Rest msk s0 s)  : Rest msk s0 (homeFailLater g a reason s) := by
  unfold homeFailLater
  try dsimp only
  with_reducible repeat' first | assumption | apply modGrp_rest | (apply rest_mk; (iterate 7 (first | exact Or.inr rfl | exact Or.inl ‹_›)); (first | assumption | apply modGrp_rest | split)) | split | intro _

theorem homeRecord_rest (a : Nat) (s : State) (hs : Rest msk s0 s)  : Rest msk s0 (homeRecord a s) := by
  unfold homeRecord
  try dsimp only
  with_reducible repeat' first | assumption | apply forNat_rest | apply homeRest_rest | apply latchAt_rest | apply latchRetry_rest | apply modAxis_rest | (apply rest_mk; (iterate 7 (first | exact Or.inr rfl | exact Or.inl ‹_›)); (first | assumption | apply forNat_rest | apply homeRest_rest | apply latchAt_rest | apply latchRetry_rest | apply modAxis_rest | split)) | split | intro _

theorem homeInput_rest (g a c : Nat) (s : State) (hs : Rest msk s0 s)  : Rest msk s0 (homeInput g a c s) := by
  unfold homeInput
  try dsimp only
  with_reducible repeat' first | assumption | apply homeFailLater_rest | apply homeRest_rest | apply latchAt_rest | apply modAxis_rest | (apply rest_mk; (iterate 7 (first | exact Or.inr rfl | exact Or.inl ‹_›)); (first | assumption | apply homeFailLater_rest | apply homeRest_rest | apply latchAt_rest | apply modAxis_rest | split)) | split | intro _

theorem limitStop_rest (a : Nat) (s : State) (hs : Rest msk s0 s)  : Rest msk s0 (limitStop a s) := by
  unfold limitStop
  try dsimp only
  with_reducible repeat' first | assumption | apply reqStopAxis_rest | apply reqStopGrp_rest | (apply rest_mk; (iterate 7 (first | exact Or.inr rfl | exact Or.inl ‹_›)); (first | assumption | apply reqStopAxis_rest | apply reqStopGrp_rest | split)) | split | intro _

theorem axisQualify_rest (c a : Nat) (s : State) (hs : Rest msk s0 s)  : Rest msk s0 (axisQualify c a s) := by
  unfold axisQualify
  try dsimp only
  with_reducible repeat' first | assumption | apply homeInput_rest | apply limitStop_rest | apply modAxis_rest | (apply rest_mk; (iterate 7 (first | exact Or.inr rfl | exact Or.inl ‹_›)); (first | assumption | apply homeInput_rest | apply limitStop_rest | apply modAxis_rest | split)) | split | intro _

theorem stpQualify_rest (c n : Nat) (s : State) (hs : Rest msk s0 s) (mtime : msk.time = true := by assumption) : Rest msk s0 (stpQualify c n s) := by
  unfold stpQualify
  try dsimp only
  with_reducible repeat' first | assumption | apply stpPut_rest | apply setStp_rest | apply stpInput_rest | (apply rest_mk; (iterate 7 (first | exact Or.inr rfl | exact Or.inl ‹_›)); (first | assumption | apply stpPut_rest | apply setStp_rest | apply stpInput_rest | split)) | split | intro _

theorem inputQualified_rest (c : Nat) (s : State) (hs : Rest msk s0 s) (mtime : msk.time = true := by assumption) : Rest msk s0 (inputQualified c s) := by
  unfold inputQualified
  try dsimp only
  with_reducible repeat' first | assumption | apply advanceTo_rest | apply axisQualify_rest | apply forNat_rest | apply stpQualify_rest | apply foldl_rest | (apply rest_mk; (iterate 7 (first | exact Or.inr rfl | exact Or.inl ‹_›)); (first | assumption | apply advanceTo_rest | apply axisQualify_rest | apply forNat_rest | apply stpQualify_rest | apply foldl_rest | split)) | split | intro _

theorem chatter_rest (c : Nat) (s : State) (hs : Rest msk s0 s)  : Rest msk s0 (chatter c s) := by
  unfold chatter
  try dsimp only
  with_reducible repeat' first | assumption | apply forNat_rest | apply homeFailLater_rest | apply stpHomeFail_rest | (apply rest_mk; (iterate 7 (first | exact Or.inr rfl | exact Or.inl ‹_›)); (first | assumption | apply forNat_rest | apply homeFailLater_rest | apply stpHomeFail_rest | split)) | split | intro _

theorem notFound_rest (a : Nat) (s : State) (hs : Rest msk s0 s)  : Rest msk s0 (notFound a s) := by
  unfold notFound
  try dsimp only
  with_reducible repeat' first | assumption | apply homeFailLater_rest | (apply rest_mk; (iterate 7 (first | exact Or.inr rfl | exact Or.inl ‹_›)); (first | assumption | apply homeFailLater_rest | split)) | split | intro _

theorem hardStopLatch_rest (a : Nat) (s : State) (hs : Rest msk s0 s)  : Rest msk s0 (hardStopLatch a s) := by
  unfold hardStopLatch
  try dsimp only
  with_reducible repeat' first | assumption | apply homeGo_rest | apply homeTo_rest | apply latchPoint_rest | (apply rest_mk; (iterate 7 (first | exact Or.inr rfl | exact Or.inl ‹_›)); (first | assumption | apply homeGo_rest | apply homeTo_rest | apply latchPoint_rest | split)) | split | intro _

theorem setSsm_rest (g : Nat) (x : SsmGrp) (s : State) (hs : Rest msk s0 s)  : Rest msk s0 (setSsm g x s) := by
  unfold setSsm
  try dsimp only
  with_reducible repeat' first | assumption | (apply rest_mk; (iterate 7 (first | exact Or.inr rfl | exact Or.inl ‹_›)); (first | assumption | split)) | split | intro _

theorem modSsm_rest (g : Nat) (f : SsmGrp → SsmGrp) (s : State) (hs : Rest msk s0 s)  : Rest msk s0 (modSsm g f s) := by
  unfold modSsm
  try dsimp only
  with_reducible repeat' first | assumption | apply setSsm_rest | (apply rest_mk; (iterate 7 (first | exact Or.inr rfl | exact Or.inl ‹_›)); (first | assumption | apply setSsm_rest | split)) | split | intro _

theorem setSens_rest (n : Nat) (x : Sensor) (s : State) (hs : Rest msk s0 s)  : Rest msk s0 (setSens n x s) := by
  unfold setSens
  try dsimp only
  with_reducible repeat' first | assumption | (apply rest_mk; (iterate 7 (first | exact Or.inr rfl | exact Or.inl ‹_›)); (first | assumption | split)) | split | intro _

theorem guardGroup_rest (g : Nat) (s : State) (hs : Rest msk s0 s) (mjrn : msk.jrn = true := by assumption) : Rest msk s0 (guardGroup g s) := by
  unfold guardGroup
  try dsimp only
  with_reducible repeat' first | assumption | apply setSsm_rest | apply verdict_rest | (apply rest_mk; (iterate 7 (first | exact Or.inr rfl | exact Or.inl ‹_›)); (first | assumption | apply setSsm_rest | apply verdict_rest | split)) | split | intro _

theorem noteReason_rest (g reason : Nat) (s : State) (hs : Rest msk s0 s)  : Rest msk s0 (noteReason g reason s) := by
  unfold noteReason
  try dsimp only
  with_reducible repeat' first | assumption | apply modSsm_rest | (apply rest_mk; (iterate 7 (first | exact Or.inr rfl | exact Or.inl ‹_›)); (first | assumption | apply modSsm_rest | split)) | split | intro _

theorem takeStops_rest (g : Nat) (s : State) (hs : Rest msk s0 s) (mjrn : msk.jrn = true := by assumption) : Rest msk s0 (takeStops g s) := by
  unfold takeStops
  try dsimp only
  with_reducible repeat' first | assumption | apply modGrp_rest | apply stopGroup_rest | apply foldl_rest | (apply rest_mk; (iterate 7 (first | exact Or.inr rfl | exact Or.inl ‹_›)); (first | assumption | apply modGrp_rest | apply stopGroup_rest | apply foldl_rest | split)) | split | intro _

theorem sepRequest_rest (g cat : Nat) (s : State) (hs : Rest msk s0 s) (mjrn : msk.jrn = true := by assumption) : Rest msk s0 (sepRequest g cat s) := by
  unfold sepRequest
  try dsimp only
  with_reducible repeat' first | assumption | apply reqStopGrp_rest | apply takeStops_rest | (apply rest_mk; (iterate 7 (first | exact Or.inr rfl | exact Or.inl ‹_›)); (first | assumption | apply reqStopGrp_rest | apply takeStops_rest | split)) | split | intro _

theorem sepStop_rest (g cat reason : Nat) (detail : List Byte) (s : State) (hs : Rest msk s0 s) (mjrn : msk.jrn = true := by assumption) : Rest msk s0 (sepStop g cat reason detail s) := by
  unfold sepStop
  try dsimp only
  with_reducible repeat' first | assumption | apply journal_rest | apply modSsm_rest | apply noteReason_rest | apply raiseIf_rest | apply sepRequest_rest | (apply rest_mk; (iterate 7 (first | exact Or.inr rfl | exact Or.inl ‹_›)); (first | assumption | apply journal_rest | apply modSsm_rest | apply noteReason_rest | apply raiseIf_rest | apply sepRequest_rest | split)) | split | intro _

theorem ch2Issued_rest (g : Nat) (s : State) (hs : Rest msk s0 s)  : Rest msk s0 (ch2Issued g s) := by
  unfold ch2Issued
  try dsimp only
  with_reducible repeat' first | assumption | apply modSsm_rest | (apply rest_mk; (iterate 7 (first | exact Or.inr rfl | exact Or.inl ‹_›)); (first | assumption | apply modSsm_rest | split)) | split | intro _

theorem contactStop_rest (g code : Nat) (s : State) (hs : Rest msk s0 s) (mjrn : msk.jrn = true := by assumption) : Rest msk s0 (contactStop g code s) := by
  unfold contactStop
  try dsimp only
  with_reducible repeat' first | assumption | apply sepStop_rest | (apply rest_mk; (iterate 7 (first | exact Or.inr rfl | exact Or.inl ‹_›)); (first | assumption | apply sepStop_rest | split)) | split | intro _

theorem contacts_rest (s : State) (hs : Rest msk s0 s) (mjrn : msk.jrn = true := by assumption) : Rest msk s0 (contacts s) := by
  unfold contacts
  try dsimp only
  with_reducible repeat' first | assumption | apply contactStop_rest | apply forNat_rest | apply foldl_rest | (apply rest_mk; (iterate 7 (first | exact Or.inr rfl | exact Or.inl ‹_›)); (first | assumption | apply contactStop_rest | apply forNat_rest | apply foldl_rest | split)) | split | intro _

theorem sendVerdicts_rest (s : State) (hs : Rest msk s0 s) (mxl : msk.xl = true := by assumption) : Rest msk s0 (sendVerdicts s) := by
  unfold sendVerdicts
  try dsimp only
  with_reducible repeat' first | assumption | apply forNat_rest | apply xsend_rest | (apply rest_mk; (iterate 7 (first | exact Or.inr rfl | exact Or.inl ‹_›)); (first | assumption | apply forNat_rest | apply xsend_rest | split)) | split | intro _

theorem guardSnapshot_rest (s : State) (hs : Rest msk s0 s) (mjrn : msk.jrn = true := by assumption) (mxl : msk.xl = true := by assumption) : Rest msk s0 (guardSnapshot s) := by
  unfold guardSnapshot
  split
  · extract_lets s1 s2 n
    have h2 : Rest msk s0 s2 := contacts_rest _ (forNat_rest _ _ _ (fun n t ht => guardGroup_rest _ _ ht) hs)
    clear_value s2 n
    refine countN_rest _ _ _ _ (countN_rest _ _ _ _ (sendVerdicts_rest _ ?_))
    apply rest_mk; (iterate 7 (first | exact Or.inr rfl | exact Or.inl ‹_›)); exact h2
  · exact hs

theorem freewheel2_rest (s : State) (hs : Rest msk s0 s)  : Rest msk s0 (freewheel2 s) := by
  unfold freewheel2
  try dsimp only
  with_reducible repeat' first | assumption | apply forNat_rest | apply modAxis_rest | (apply rest_mk; (iterate 7 (first | exact Or.inr rfl | exact Or.inl ‹_›)); (first | assumption | apply forNat_rest | apply modAxis_rest | split)) | split | intro _

theorem blackCopy_rest (a : Nat) (entry : List Byte) (s : State) (hs : Rest msk s0 s)  : Rest msk s0 (blackCopy a entry s) := by
  unfold blackCopy
  try dsimp only
  with_reducible repeat' first | assumption | apply count_rest | apply modAxis_rest | (apply rest_mk; (iterate 7 (first | exact Or.inr rfl | exact Or.inl ‹_›)); (first | assumption | apply count_rest | apply modAxis_rest | split)) | split | intro _

theorem setZone_rest (z : Nat) (v : Zone) (s : State) (hs : Rest msk s0 s)  : Rest msk s0 (setZone z v s) := by
  unfold setZone
  try dsimp only
  with_reducible repeat' first | assumption | (apply rest_mk; (iterate 7 (first | exact Or.inr rfl | exact Or.inl ‹_›)); (first | assumption | split)) | split | intro _

theorem zoneRelease_rest (b z : Nat) (s : State) (hs : Rest msk s0 s)  : Rest msk s0 (zoneRelease b z s) := by
  unfold zoneRelease
  try dsimp only
  with_reducible repeat' first | assumption | apply setZone_rest | (apply rest_mk; (iterate 7 (first | exact Or.inr rfl | exact Or.inl ‹_›)); (first | assumption | apply setZone_rest | split)) | split | intro _

theorem zoneGrant_rest (b z : Nat) (s : State) (hs : Rest msk s0 s)  : Rest msk s0 (zoneGrant b z s) := by
  unfold zoneGrant
  try dsimp only
  with_reducible repeat' first | assumption | apply raise_rest | apply setZone_rest | (apply rest_mk; (iterate 7 (first | exact Or.inr rfl | exact Or.inl ‹_›)); (first | assumption | apply raise_rest | apply setZone_rest | split)) | split | intro _

theorem zoneCharge_rest (s : State) (hs : Rest msk s0 s)  : Rest msk s0 (zoneCharge s) := by
  unfold zoneCharge
  try dsimp only
  with_reducible repeat' first | assumption | apply setShares_rest | (apply rest_mk; (iterate 7 (first | exact Or.inr rfl | exact Or.inl ‹_›)); (first | assumption | apply setShares_rest | split)) | split | intro _

theorem zoneBoundary_rest (b : Nat) (s : State) (hs : Rest msk s0 s)  : Rest msk s0 (zoneBoundary b s) := by
  unfold zoneBoundary
  try dsimp only
  with_reducible repeat' first | assumption | apply forNat_rest | apply zoneCharge_rest | apply zoneGrant_rest | apply zoneRelease_rest | (apply rest_mk; (iterate 7 (first | exact Or.inr rfl | exact Or.inl ‹_›)); (first | assumption | apply forNat_rest | apply zoneCharge_rest | apply zoneGrant_rest | apply zoneRelease_rest | split)) | split | intro _

theorem zoneRefused_rest (z : Nat) (s : State) (hs : Rest msk s0 s)  : Rest msk s0 (zoneRefused z s) := by
  unfold zoneRefused
  try dsimp only
  with_reducible repeat' first | assumption | apply raise_rest | apply setZone_rest | apply zoneCharge_rest | (apply rest_mk; (iterate 7 (first | exact Or.inr rfl | exact Or.inl ‹_›)); (first | assumption | apply raise_rest | apply setZone_rest | apply zoneCharge_rest | split)) | split | intro _

theorem laHold_rest (g : Nat) (s : State) (hs : Rest msk s0 s) (mjrn : msk.jrn = true := by assumption) : Rest msk s0 (laHold g s) := by
  unfold laHold
  try dsimp only
  with_reducible repeat' first | assumption | apply journal_rest | apply pathStop_rest | (apply rest_mk; (iterate 7 (first | exact Or.inr rfl | exact Or.inl ‹_›)); (first | assumption | apply journal_rest | apply pathStop_rest | split)) | split | intro _

theorem sensorRecord_rest (k st : Nat) (b : List Byte) (s : State) (hs : Rest msk s0 s) (mxl : msk.xl = true := by assumption) : Rest msk s0 (sensorRecord k st b s) := by
  unfold sensorRecord
  try dsimp only
  with_reducible repeat' first | assumption | apply count_rest | apply setSens_rest | apply xsend_rest | (apply rest_mk; (iterate 7 (first | exact Or.inr rfl | exact Or.inl ‹_›)); (first | assumption | apply count_rest | apply setSens_rest | apply xsend_rest | split)) | split | intro _

theorem sensorBoundary_rest (n : Nat) (s : State) (hs : Rest msk s0 s) (mjrn : msk.jrn = true := by assumption) : Rest msk s0 (sensorBoundary n s) := by
  unfold sensorBoundary
  try dsimp only
  with_reducible repeat' first | assumption | apply count_rest | apply journal_rest | apply setSens_rest | (apply rest_mk; (iterate 7 (first | exact Or.inr rfl | exact Or.inl ‹_›)); (first | assumption | apply count_rest | apply journal_rest | apply setSens_rest | split)) | split | intro _

theorem guardBoundary_rest (s : State) (hs : Rest msk s0 s) (mjrn : msk.jrn = true := by assumption) : Rest msk s0 (guardBoundary s) := by
  unfold guardBoundary
  try dsimp only
  with_reducible repeat' first | assumption | apply forNat_rest | apply sensorBoundary_rest | (apply rest_mk; (iterate 7 (first | exact Or.inr rfl | exact Or.inl ‹_›)); (first | assumption | apply forNat_rest | apply sensorBoundary_rest | split)) | split | intro _

theorem sensorStale_rest (n : Nat) (s : State) (hs : Rest msk s0 s) (mjrn : msk.jrn = true := by assumption) : Rest msk s0 (sensorStale n s) := by
  unfold sensorStale
  try dsimp only
  with_reducible repeat' first | assumption | apply count_rest | apply journal_rest | apply raise_rest | apply setSens_rest | (apply rest_mk; (iterate 7 (first | exact Or.inr rfl | exact Or.inl ‹_›)); (first | assumption | apply count_rest | apply journal_rest | apply raise_rest | apply setSens_rest | split)) | split | intro _

theorem ch2Verdict_rest (p : Nat) (s : State) (hs : Rest msk s0 s)  : Rest msk s0 (ch2Verdict p s) := by
  unfold ch2Verdict
  try dsimp only
  with_reducible repeat' first | assumption | apply forNat_rest | apply modSsm_rest | (apply rest_mk; (iterate 7 (first | exact Or.inr rfl | exact Or.inl ‹_›)); (first | assumption | apply forNat_rest | apply modSsm_rest | split)) | split | intro _

theorem setGov_rest (g k : Nat) (s : State) (hs : Rest msk s0 s)  : Rest msk s0 (setGov g k s) := by
  unfold setGov
  try dsimp only
  with_reducible repeat' first | assumption | apply modGrp_rest | apply raise_rest | (apply rest_mk; (iterate 7 (first | exact Or.inr rfl | exact Or.inl ‹_›)); (first | assumption | apply modGrp_rest | apply raise_rest | split)) | split | intro _

theorem verdictGroup_rest (g : Nat) (s : State) (hs : Rest msk s0 s) (mjrn : msk.jrn = true := by assumption) : Rest msk s0 (verdictGroup g s) := by
  unfold verdictGroup
  try dsimp only
  with_reducible repeat' first | assumption | apply ch2Issued_rest | apply noteReason_rest | apply raiseIf_rest | apply sepRequest_rest | apply sepStop_rest | apply setGov_rest | apply setSsm_rest | (apply rest_mk; (iterate 7 (first | exact Or.inr rfl | exact Or.inl ‹_›)); (first | assumption | apply ch2Issued_rest | apply noteReason_rest | apply raiseIf_rest | apply sepRequest_rest | apply sepStop_rest | apply setGov_rest | apply setSsm_rest | split)) | split | intro _

theorem verdictFree_rest (g : Nat) (s : State) (hs : Rest msk s0 s)  : Rest msk s0 (verdictFree g s) := by
  unfold verdictFree
  try dsimp only
  with_reducible repeat' first | assumption | apply setGov_rest | (apply rest_mk; (iterate 7 (first | exact Or.inr rfl | exact Or.inl ‹_›)); (first | assumption | apply setGov_rest | split)) | split | intro _

theorem verdict_rest (s : State) (hs : Rest msk s0 s) (mjrn : msk.jrn = true := by assumption) : Rest msk s0 (verdict s) := by
  unfold verdict
  try dsimp only
  with_reducible repeat' first | assumption | apply forNat_rest | apply sepStop_rest | apply verdictFree_rest | apply verdictGroup_rest | (apply rest_mk; (iterate 7 (first | exact Or.inr rfl | exact Or.inl ‹_›)); (first | assumption | apply forNat_rest | apply sepStop_rest | apply verdictFree_rest | apply verdictGroup_rest | split)) | split | intro _

theorem tandemMismatch_rest (g : Nat) (s : State) (hs : Rest msk s0 s) (mjrn : msk.jrn = true := by assumption) : Rest msk s0 (tandemMismatch g s) := by
  unfold tandemMismatch
  try dsimp only
  with_reducible repeat' first | assumption | apply journal_rest | apply modSsm_rest | apply noteReason_rest | apply raise_rest | apply sepRequest_rest | (apply rest_mk; (iterate 7 (first | exact Or.inr rfl | exact Or.inl ‹_›)); (first | assumption | apply journal_rest | apply modSsm_rest | apply noteReason_rest | apply raise_rest | apply sepRequest_rest | split)) | split | intro _

theorem verdictAbsent_rest (g : Nat) (s : State) (hs : Rest msk s0 s) (mjrn : msk.jrn = true := by assumption) : Rest msk s0 (verdictAbsent g s) := by
  unfold verdictAbsent
  try dsimp only
  with_reducible repeat' first | assumption | apply sepStop_rest | (apply rest_mk; (iterate 7 (first | exact Or.inr rfl | exact Or.inl ‹_›)); (first | assumption | apply sepStop_rest | split)) | split | intro _

theorem speedExceeded_rest (g : Nat) (second : Bool) (s : State) (hs : Rest msk s0 s) (mjrn : msk.jrn = true := by assumption) : Rest msk s0 (speedExceeded g second s) := by
  unfold speedExceeded
  try dsimp only
  with_reducible repeat' first | assumption | apply ch2Issued_rest | apply sepStop_rest | (apply rest_mk; (iterate 7 (first | exact Or.inr rfl | exact Or.inl ‹_›)); (first | assumption | apply ch2Issued_rest | apply sepStop_rest | split)) | split | intro _

theorem ch2Feedback_rest (g : Nat) (s : State) (hs : Rest msk s0 s) (mjrn : msk.jrn = true := by assumption) : Rest msk s0 (ch2Feedback g s) := by
  unfold ch2Feedback
  try dsimp only
  with_reducible repeat' first | assumption | apply ch2Issued_rest | apply sepStop_rest | (apply rest_mk; (iterate 7 (first | exact Or.inr rfl | exact Or.inl ‹_›)); (first | assumption | apply ch2Issued_rest | apply sepStop_rest | split)) | split | intro _

theorem ch2Override_rest (g : Nat) (s : State) (hs : Rest msk s0 s) (mtime : msk.time = true := by assumption) (mjrn : msk.jrn = true := by assumption) : Rest msk s0 (ch2Override g s) := by
  unfold ch2Override
  try dsimp only
  with_reducible repeat' first | assumption | apply advanceTo_rest | apply count_rest | apply journalF_rest | apply modChan_rest | apply modSsm_rest | apply pinsOff_rest | (apply rest_mk; (iterate 7 (first | exact Or.inr rfl | exact Or.inl ‹_›)); (first | assumption | apply advanceTo_rest | apply count_rest | apply journalF_rest | apply modChan_rest | apply modSsm_rest | apply pinsOff_rest | split)) | split | intro _

theorem obstacleSnapshot_rest (s : State) (hs : Rest msk s0 s)  : Rest msk s0 (obstacleSnapshot s) := by
  unfold obstacleSnapshot
  try dsimp only
  with_reducible repeat' first | assumption | apply foldl_rest | (apply rest_mk; (iterate 7 (first | exact Or.inr rfl | exact Or.inl ‹_›)); (first | assumption | apply foldl_rest | split)) | split | intro _

theorem sensorEff_rest (e : Eff) (s : State) (hs : Rest msk s0 s)  : Rest msk s0 (sensorEff e s) := by
  unfold sensorEff
  try dsimp only
  with_reducible repeat' first | assumption | apply setSens_rest | (apply rest_mk; (iterate 7 (first | exact Or.inr rfl | exact Or.inl ‹_›)); (first | assumption | apply setSens_rest | split)) | split | intro _

theorem putDev_rest (l : List Nat) (u : BitVec 8) (s : State) (hs : Rest msk s0 s)  : Rest msk s0 (putDev l u s) := by
  unfold putDev
  try dsimp only
  with_reducible repeat' first | assumption | apply foldl_rest | (apply rest_mk; (iterate 7 (first | exact Or.inr rfl | exact Or.inl ‹_›)); (first | assumption | apply foldl_rest | split)) | split | intro _

theorem sepSignals_rest (s : State) (hs : Rest msk s0 s)  : Rest msk s0 (sepSignals s) := by
  unfold sepSignals
  try dsimp only
  with_reducible repeat' first | assumption | apply putDev_rest | (apply rest_mk; (iterate 7 (first | exact Or.inr rfl | exact Or.inl ‹_›)); (first | assumption | apply putDev_rest | split)) | split | intro _

theorem updateMapped_rest (e : Nat × SigMap) (s : State) (hs : Rest msk s0 s)  : Rest msk s0 (updateMapped e s) := by
  unfold updateMapped
  try dsimp only
  with_reducible repeat' first | assumption | (apply rest_mk; (iterate 7 (first | exact Or.inr rfl | exact Or.inl ‹_›)); (first | assumption | split)) | split | intro _

theorem showWrite_rest (w : Nat × Nat × Nat) (s : State) (hs : Rest msk s0 s)  : Rest msk s0 (showWrite w s) := by
  unfold showWrite
  try dsimp only
  with_reducible repeat' first | assumption | (apply rest_mk; (iterate 7 (first | exact Or.inr rfl | exact Or.inl ‹_›)); (first | assumption | split)) | split | intro _

theorem watchStep_rest (i : Nat) (s : State) (hs : Rest msk s0 s)  : Rest msk s0 (watchStep i s) := by
  unfold watchStep
  try dsimp only
  with_reducible repeat' first | assumption | apply raiseIf_rest | (apply rest_mk; (iterate 7 (first | exact Or.inr rfl | exact Or.inl ‹_›)); (first | assumption | apply raiseIf_rest | split)) | split | intro _

theorem sigUpdate_rest (s : State) (hs : Rest msk s0 s)  : Rest msk s0 (sigUpdate s) := by
  unfold sigUpdate
  try dsimp only
  with_reducible repeat' first | assumption | apply forNat_rest | apply putDev_rest | apply showWrite_rest | apply updateMapped_rest | apply watchStep_rest | apply foldl_rest | (apply rest_mk; (iterate 7 (first | exact Or.inr rfl | exact Or.inl ‹_›)); (first | assumption | apply forNat_rest | apply putDev_rest | apply showWrite_rest | apply updateMapped_rest | apply watchStep_rest | apply foldl_rest | split)) | split | intro _

theorem sigPoison_rest (n : Nat) (s : State) (hs : Rest msk s0 s)  : Rest msk s0 (sigPoison n s) := by
  unfold sigPoison
  try dsimp only
  with_reducible repeat' first | assumption | apply forNat_rest | apply raise_rest | (apply rest_mk; (iterate 7 (first | exact Or.inr rfl | exact Or.inl ‹_›)); (first | assumption | apply forNat_rest | apply raise_rest | split)) | split | intro _

theorem sigMapEff_rest (e : Eff) (s : State) (hs : Rest msk s0 s)  : Rest msk s0 (sigMapEff e s) := by
  unfold sigMapEff
  try dsimp only
  with_reducible repeat' first | assumption | apply foldl_rest | (apply rest_mk; (iterate 7 (first | exact Or.inr rfl | exact Or.inl ‹_›)); (first | assumption | apply foldl_rest | split)) | split | intro _

theorem sigWriteEff_rest (e : Eff) (s : State) (hs : Rest msk s0 s)  : Rest msk s0 (sigWriteEff e s) := by
  unfold sigWriteEff
  try dsimp only
  with_reducible repeat' first | assumption | (apply rest_mk; (iterate 7 (first | exact Or.inr rfl | exact Or.inl ‹_›)); (first | assumption | split)) | split | intro _

theorem sigWatchEff_rest (e : Eff) (s : State) (hs : Rest msk s0 s)  : Rest msk s0 (sigWatchEff e s) := by
  unfold sigWatchEff
  try dsimp only
  with_reducible repeat' first | assumption | (apply rest_mk; (iterate 7 (first | exact Or.inr rfl | exact Or.inl ‹_›)); (first | assumption | split)) | split | intro _

theorem mbDoneWrite_rest (m : Nat) (w : Word) (s : State) (hs : Rest msk s0 s)  : Rest msk s0 (mbDoneWrite m w s) := by
  unfold mbDoneWrite
  try dsimp only
  with_reducible repeat' first | assumption | apply setSlot_rest | apply foldl_rest | (apply rest_mk; (iterate 7 (first | exact Or.inr rfl | exact Or.inl ‹_›)); (first | assumption | apply setSlot_rest | apply foldl_rest | split)) | split | intro _

theorem mbStatWrite_rest (m : Nat) (w : Word) (s : State) (hs : Rest msk s0 s)  : Rest msk s0 (mbStatWrite m w s) := by
  unfold mbStatWrite
  try dsimp only
  with_reducible repeat' first | assumption | apply setMb_rest | apply violation_rest | (apply rest_mk; (iterate 7 (first | exact Or.inr rfl | exact Or.inl ‹_›)); (first | assumption | apply setMb_rest | apply violation_rest | split)) | split | intro _

theorem doorbell_rest (m : Nat) (w : Word) (s : State) (hs : Rest msk s0 s)  : Rest msk s0 (doorbell m w s) := by
  unfold doorbell
  try dsimp only
  with_reducible repeat' first | assumption | apply count_rest | apply setMb_rest | apply setSlot_rest | (apply rest_mk; (iterate 7 (first | exact Or.inr rfl | exact Or.inl ‹_›)); (first | assumption | apply count_rest | apply setMb_rest | apply setSlot_rest | split)) | split | intro _

theorem hostRing_rest (k : Nat) (b : List Byte) (s : State) (hs : Rest msk s0 s)  : Rest msk s0 (hostRing k b s) := by
  unfold hostRing
  try dsimp only
  with_reducible repeat' first | assumption | apply foldl_rest | (apply rest_mk; (iterate 7 (first | exact Or.inr rfl | exact Or.inl ‹_›)); (first | assumption | apply foldl_rest | split)) | split | intro _

theorem prodWrite_rest (k : Nat) (w : Word) (s : State) (hs : Rest msk s0 s)  : Rest msk s0 (prodWrite k w s) := by
  unfold prodWrite
  try dsimp only
  with_reducible repeat' first | assumption | apply count_rest | apply raiseIf_rest | (apply rest_mk; (iterate 7 (first | exact Or.inr rfl | exact Or.inl ‹_›)); (first | assumption | apply count_rest | apply raiseIf_rest | split)) | split | intro _

theorem prodBytes_rest (k o : Nat) (bytes : List Byte) (s : State) (hs : Rest msk s0 s)  : Rest msk s0 (prodBytes k o bytes s) := by
  unfold prodBytes
  try dsimp only
  with_reducible repeat' first | assumption | apply prodWrite_rest | (apply rest_mk; (iterate 7 (first | exact Or.inr rfl | exact Or.inl ‹_›)); (first | assumption | apply prodWrite_rest | split)) | split | intro _

theorem bar2HostWrite_rest (a : Nat) (bytes : List Byte) (s : State) (hs : Rest msk s0 s)  : Rest msk s0 (bar2HostWrite a bytes s) := by
  unfold bar2HostWrite
  try dsimp only
  with_reducible repeat' first | assumption | apply bar2Write_rest | apply count_rest | apply prodBytes_rest | apply setMb_rest | apply violation_rest | (apply rest_mk; (iterate 7 (first | exact Or.inr rfl | exact Or.inl ‹_›)); (first | assumption | apply bar2Write_rest | apply count_rest | apply prodBytes_rest | apply setMb_rest | apply violation_rest | split)) | split | intro _

theorem evtPendWrite_rest (i : Nat) (w again : Word) (s : State) (hs : Rest msk s0 s)  : Rest msk s0 (evtPendWrite i w again s) := by
  unfold evtPendWrite
  try dsimp only
  with_reducible repeat' first | assumption | apply fireVector_rest | apply raise_rest | apply foldl_rest | (apply rest_mk; (iterate 7 (first | exact Or.inr rfl | exact Or.inl ‹_›)); (first | assumption | apply fireVector_rest | apply raise_rest | apply foldl_rest | split)) | split | intro _

theorem evtLostWrite_rest (i : Nat) (w : Word) (s : State) (hs : Rest msk s0 s)  : Rest msk s0 (evtLostWrite i w s) := by
  unfold evtLostWrite
  try dsimp only
  with_reducible repeat' first | assumption | (apply rest_mk; (iterate 7 (first | exact Or.inr rfl | exact Or.inl ‹_›)); (first | assumption | split)) | split | intro _

theorem evtMaskWrite_rest (i : Nat) (w : Word) (s : State) (hs : Rest msk s0 s)  : Rest msk s0 (evtMaskWrite i w s) := by
  unfold evtMaskWrite
  try dsimp only
  with_reducible repeat' first | assumption | apply fireVector_rest | apply foldl_rest | (apply rest_mk; (iterate 7 (first | exact Or.inr rfl | exact Or.inl ‹_›)); (first | assumption | apply fireVector_rest | apply foldl_rest | split)) | split | intro _

theorem evtMapWrite_rest (i : Nat) (w : Word) (s : State) (hs : Rest msk s0 s)  : Rest msk s0 (evtMapWrite i w s) := by
  unfold evtMapWrite
  try dsimp only
  with_reducible repeat' first | assumption | apply fireVector_rest | apply foldl_rest | (apply rest_mk; (iterate 7 (first | exact Or.inr rfl | exact Or.inl ‹_›)); (first | assumption | apply fireVector_rest | apply foldl_rest | split)) | split | intro _

theorem sendHeld_rest (s : State) (hs : Rest msk s0 s)  : Rest msk s0 (sendHeld s) := by
  unfold sendHeld
  try dsimp only
  with_reducible repeat' first | assumption | apply fireVector_rest | apply foldl_rest | (apply rest_mk; (iterate 7 (first | exact Or.inr rfl | exact Or.inl ‹_›)); (first | assumption | apply fireVector_rest | apply foldl_rest | split)) | split | intro _

theorem msixWrite_rest (off : Nat) (w : Word) (s : State) (hs : Rest msk s0 s)  : Rest msk s0 (msixWrite off w s) := by
  unfold msixWrite
  try dsimp only
  with_reducible repeat' first | assumption | apply sendHeld_rest | (apply rest_mk; (iterate 7 (first | exact Or.inr rfl | exact Or.inl ‹_›)); (first | assumption | apply sendHeld_rest | split)) | split | intro _

theorem cfgByteWrite_rest (o : Nat) (b : Byte) (s : State) (hs : Rest msk s0 s)  : Rest msk s0 (cfgByteWrite o b s) := by
  unfold cfgByteWrite
  try dsimp only
  with_reducible repeat' first | assumption | (apply rest_mk; (iterate 7 (first | exact Or.inr rfl | exact Or.inl ‹_›)); (first | assumption | split)) | split | intro _

theorem cfgWrite_rest (o : Nat) (bytes : List Byte) (s : State) (hs : Rest msk s0 s)  : Rest msk s0 (cfgWrite o bytes s) := by
  unfold cfgWrite
  try dsimp only
  with_reducible repeat' first | assumption | apply cfgByteWrite_rest | apply sendHeld_rest | apply foldl_rest | (apply rest_mk; (iterate 7 (first | exact Or.inr rfl | exact Or.inl ‹_›)); (first | assumption | apply cfgByteWrite_rest | apply sendHeld_rest | apply foldl_rest | split)) | split | intro _

theorem hubCtl_rest (w : Word) (s : State) (hs : Rest msk s0 s)  : Rest msk s0 (hubCtl w s) := by
  unfold hubCtl
  try dsimp only
  with_reducible repeat' first | assumption | (apply rest_mk; (iterate 7 (first | exact Or.inr rfl | exact Or.inl ‹_›)); (first | assumption | split)) | split | intro _

theorem hubPeriod_rest (w : Word) (s : State) (hs : Rest msk s0 s)  : Rest msk s0 (hubPeriod w s) := by
  unfold hubPeriod
  try dsimp only
  with_reducible repeat' first | assumption | (apply rest_mk; (iterate 7 (first | exact Or.inr rfl | exact Or.inl ‹_›)); (first | assumption | split)) | split | intro _

theorem hubRd_rest (w : Word) (s : State) (hs : Rest msk s0 s)  : Rest msk s0 (hubRd w s) := by
  unfold hubRd
  try dsimp only
  with_reducible repeat' first | assumption | (apply rest_mk; (iterate 7 (first | exact Or.inr rfl | exact Or.inl ‹_›)); (first | assumption | split)) | split | intro _

theorem hubMirror_rest (hi : Bool) (w : Word) (s : State) (hs : Rest msk s0 s)  : Rest msk s0 (hubMirror hi w s) := by
  unfold hubMirror
  try dsimp only
  with_reducible repeat' first | assumption | (apply rest_mk; (iterate 7 (first | exact Or.inr rfl | exact Or.inl ‹_›)); (first | assumption | split)) | split | intro _

theorem timeLo_rest (wide : Bool) (s : State) (hs : Rest msk s0 s) (mtime : msk.time = true := by assumption) : Rest msk s0 (timeLo wide s) := by
  unfold timeLo
  try dsimp only
  with_reducible repeat' first | assumption | (apply rest_mk; (iterate 7 (first | exact Or.inr rfl | exact Or.inl ‹_›)); (first | assumption | split)) | split | intro _

theorem timeLatchWrite_rest (w : Word) (s : State) (hs : Rest msk s0 s) (mtime : msk.time = true := by assumption) : Rest msk s0 (timeLatchWrite w s) := by
  unfold timeLatchWrite
  try dsimp only
  with_reducible repeat' first | assumption | apply latch_rest | (apply rest_mk; (iterate 7 (first | exact Or.inr rfl | exact Or.inl ‹_›)); (first | assumption | apply latch_rest | split)) | split | intro _

theorem usrWin_rest (w : Word) (s : State) (hs : Rest msk s0 s)  : Rest msk s0 (usrWin w s) := by
  unfold usrWin
  try dsimp only
  with_reducible repeat' first | assumption | (apply rest_mk; (iterate 7 (first | exact Or.inr rfl | exact Or.inl ‹_›)); (first | assumption | split)) | split | intro _

theorem usrGrant_rest (w : Word) (s : State) (hs : Rest msk s0 s)  : Rest msk s0 (usrGrant w s) := by
  unfold usrGrant
  try dsimp only
  with_reducible repeat' first | assumption | (apply rest_mk; (iterate 7 (first | exact Or.inr rfl | exact Or.inl ‹_›)); (first | assumption | split)) | split | intro _

theorem usrCtl_rest (w : Word) (s : State) (hs : Rest msk s0 s)  : Rest msk s0 (usrCtl w s) := by
  unfold usrCtl
  try dsimp only
  with_reducible repeat' first | assumption | (apply rest_mk; (iterate 7 (first | exact Or.inr rfl | exact Or.inl ‹_›)); (first | assumption | split)) | split | intro _

theorem bar0Write_rest (o : Nat) (w : Word) (s : State) (hs : Rest msk s0 s) (mtime : msk.time = true := by assumption) : Rest msk s0 (bar0Write o w s) := by
  unfold bar0Write
  refine ite_rest _ hs (ite_rest _ (ite_rest _ (doorbell_rest _ _ _ hs) (ite_rest _ (mbDoneWrite_rest _ _ _ hs)
    (ite_rest _ (mbStatWrite_rest _ _ _ hs) (ite_rest _ (usrGrant_rest _ _ hs) (ite_rest _ (usrCtl_rest _ _ hs) hs)))))
    (ite_rest _ (usrWin_rest _ _ hs) (ite_rest _ (msixWrite_rest _ _ _ hs) (ite_rest _ (hubCtl_rest _ _ hs)
    (ite_rest _ (hubPeriod_rest _ _ hs) (ite_rest _ (hubRd_rest _ _ hs) (ite_rest _ (hubMirror_rest _ _ _ hs)
    (ite_rest _ (hubMirror_rest _ _ _ hs) (ite_rest _ (timeLatchWrite_rest _ _ hs) (ite_rest _ (evtPendWrite_rest _ _ _ _ hs)
    (ite_rest _ (evtMaskWrite_rest _ _ _ hs) (ite_rest _ (evtLostWrite_rest _ _ _ hs) (ite_rest _ (evtMapWrite_rest _ _ _ hs) hs)))))))))))))

theorem registerWrite_rest (bar : Bar) (o : Nat) (bytes : List Byte) (s : State) (hs : Rest msk s0 s) (mtime : msk.time = true := by assumption) : Rest msk s0 (registerWrite bar o bytes s) := by
  unfold registerWrite
  try dsimp only
  with_reducible repeat' first | assumption | apply bar0Write_rest | apply bar2HostWrite_rest | apply cfgWrite_rest | (apply rest_mk; (iterate 7 (first | exact Or.inr rfl | exact Or.inl ‹_›)); (first | assumption | apply bar0Write_rest | apply bar2HostWrite_rest | apply cfgWrite_rest | split)) | split | intro _

theorem setStrm_rest (k : Nat) (h : Stream) (s : State) (hs : Rest msk s0 s)  : Rest msk s0 (setStrm k h s) := by
  unfold setStrm
  try dsimp only
  with_reducible repeat' first | assumption | (apply rest_mk; (iterate 7 (first | exact Or.inr rfl | exact Or.inl ‹_›)); (first | assumption | split)) | split | intro _

theorem strmLow_rest (k : Nat) (s : State) (hs : Rest msk s0 s)  : Rest msk s0 (strmLow k s) := by
  unfold strmLow
  try dsimp only
  with_reducible repeat' first | assumption | apply raiseIf_rest | apply setStrm_rest | (apply rest_mk; (iterate 7 (first | exact Or.inr rfl | exact Or.inl ‹_›)); (first | assumption | apply raiseIf_rest | apply setStrm_rest | split)) | split | intro _

theorem strmStep_rest (g : Nat) (s : State) (hs : Rest msk s0 s)  : Rest msk s0 (strmStep g s) := by
  unfold strmStep
  try dsimp only
  with_reducible repeat' first | assumption | apply driveMembers_rest | apply modGrp_rest | (apply rest_mk; (iterate 7 (first | exact Or.inr rfl | exact Or.inl ‹_›)); (first | assumption | apply driveMembers_rest | apply modGrp_rest | split)) | split | intro _

theorem strmClock_rest (g : Nat) (s : State) (hs : Rest msk s0 s)  : Rest msk s0 (strmClock g s) := by
  unfold strmClock
  try dsimp only
  with_reducible repeat' first | assumption | apply modGrp_rest | (apply rest_mk; (iterate 7 (first | exact Or.inr rfl | exact Or.inl ‹_›)); (first | assumption | apply modGrp_rest | split)) | split | intro _

theorem strmUnderrun_rest (k : Nat) (s : State) (hs : Rest msk s0 s) (mjrn : msk.jrn = true := by assumption) : Rest msk s0 (strmUnderrun k s) := by
  unfold strmUnderrun
  try dsimp only
  with_reducible repeat' first | assumption | apply modGrp_rest | apply pathStop_rest | apply underrunMarks_rest | (apply rest_mk; (iterate 7 (first | exact Or.inr rfl | exact Or.inl ‹_›)); (first | assumption | apply modGrp_rest | apply pathStop_rest | apply underrunMarks_rest | split)) | split | intro _

theorem strmEnd_rest (k : Nat) (s : State) (hs : Rest msk s0 s)  : Rest msk s0 (strmEnd k s) := by
  unfold strmEnd
  try dsimp only
  with_reducible repeat' first | assumption | apply modGrp_rest | apply setStrm_rest | (apply rest_mk; (iterate 7 (first | exact Or.inr rfl | exact Or.inl ‹_›)); (first | assumption | apply modGrp_rest | apply setStrm_rest | split)) | split | intro _

end Sys2Proof.Machine
end

