-- ==== Sys2Proof/Laws/RestRows.lean ====
section
/-!
SUPPORT. `Rest` for the functions of the cadence, faults and the scheduler.
-/
namespace Sys2Proof.Machine

set_option Elab.async false
set_option linter.all false

variable {msk : MaskR} {s0 : State}

theorem strmTake_rest (k : Nat) (s : State) (hs : Rest msk s0 s) (mjrn : msk.jrn = true := by assumption) : Rest msk s0 (strmTake k s) := by
  unfold strmTake
  try dsimp only
  with_reducible repeat' first | assumption | apply modGrp_rest | apply setStrm_rest | apply strmEnd_rest | apply strmLow_rest | apply strmUnderrun_rest | (apply rest_mk; (iterate 7 (first | exact Or.inr rfl | exact Or.inl ‹_›)); (first | assumption | apply modGrp_rest | apply setStrm_rest | apply strmEnd_rest | apply strmLow_rest | apply strmUnderrun_rest | split)) | split | intro _

theorem strmTakes_rest (s : State) (hs : Rest msk s0 s) (mjrn : msk.jrn = true := by assumption) : Rest msk s0 (strmTakes s) := by
  unfold strmTakes
  try dsimp only
  with_reducible repeat' first | assumption | apply forNat_rest | apply strmTake_rest | (apply rest_mk; (iterate 7 (first | exact Or.inr rfl | exact Or.inl ‹_›)); (first | assumption | apply forNat_rest | apply strmTake_rest | split)) | split | intro _

theorem strmAnchorEff_rest (e : Eff) (s : State) (hs : Rest msk s0 s) (mdev : msk.dev = true := by assumption) (mjrn : msk.jrn = true := by assumption) : Rest msk s0 (strmAnchorEff e s) := by
  unfold strmAnchorEff
  try dsimp only
  with_reducible repeat' first | assumption | apply complete_rest | apply grpTo_rest | apply modGrp_rest | apply preempted_rest | apply setStrm_rest | apply strmLow_rest | apply underrunMarks_rest | (apply rest_mk; (iterate 7 (first | exact Or.inr rfl | exact Or.inl ‹_›)); (first | assumption | apply complete_rest | apply grpTo_rest | apply modGrp_rest | apply preempted_rest | apply setStrm_rest | apply strmLow_rest | apply underrunMarks_rest | split)) | split | intro _

theorem detachStrm_rest (k : Nat) (s : State) (hs : Rest msk s0 s) (mjrn : msk.jrn = true := by assumption) : Rest msk s0 (detachStrm k s) := by
  unfold detachStrm
  try dsimp only
  with_reducible repeat' first | assumption | apply freeShares_rest | apply modGrp_rest | apply setStrm_rest | apply strmUnderrun_rest | (apply rest_mk; (iterate 7 (first | exact Or.inr rfl | exact Or.inl ‹_›)); (first | assumption | apply freeShares_rest | apply modGrp_rest | apply setStrm_rest | apply strmUnderrun_rest | split)) | split | intro _

theorem setQp_rest (g : Nat) (x : QpGrp) (s : State) (hs : Rest msk s0 s)  : Rest msk s0 (setQp g x s) := by
  unfold setQp
  try dsimp only
  with_reducible repeat' first | assumption | (apply rest_mk; (iterate 7 (first | exact Or.inr rfl | exact Or.inl ‹_›)); (first | assumption | split)) | split | intro _

theorem modQp_rest (g : Nat) (f : QpGrp → QpGrp) (s : State) (hs : Rest msk s0 s)  : Rest msk s0 (modQp g f s) := by
  unfold modQp
  try dsimp only
  with_reducible repeat' first | assumption | apply setQp_rest | (apply rest_mk; (iterate 7 (first | exact Or.inr rfl | exact Or.inl ‹_›)); (first | assumption | apply setQp_rest | split)) | split | intro _

theorem modScen_rest (g j : Nat) (f : Scen → Scen) (s : State) (hs : Rest msk s0 s)  : Rest msk s0 (modScen g j f s) := by
  unfold modScen
  try dsimp only
  with_reducible repeat' first | assumption | apply modQp_rest | (apply rest_mk; (iterate 7 (first | exact Or.inr rfl | exact Or.inl ‹_›)); (first | assumption | apply modQp_rest | split)) | split | intro _

theorem setLane_rest (u : Nat) (l : Lane) (s : State) (hs : Rest msk s0 s)  : Rest msk s0 (setLane u l s) := by
  unfold setLane
  try dsimp only
  with_reducible repeat' first | assumption | (apply rest_mk; (iterate 7 (first | exact Or.inr rfl | exact Or.inl ‹_›)); (first | assumption | split)) | split | intro _

theorem qpSnapGroup_rest (g : Nat) (s : State) (hs : Rest msk s0 s)  : Rest msk s0 (qpSnapGroup g s) := by
  unfold qpSnapGroup
  try dsimp only
  with_reducible repeat' first | assumption | apply countN_rest | apply replan_rest | apply setQp_rest | apply foldl_rest | (apply rest_mk; (iterate 7 (first | exact Or.inr rfl | exact Or.inl ‹_›)); (first | assumption | apply countN_rest | apply replan_rest | apply setQp_rest | apply foldl_rest | split)) | split | intro _

theorem classSnap_rest (s : State) (hs : Rest msk s0 s) (meff : msk.eff = true := by assumption) : Rest msk s0 (classSnap s) := by
  unfold classSnap
  try dsimp only
  with_reducible repeat' first | assumption | apply foldl_rest | apply takeEff_rest | (apply rest_mk; (iterate 7 (first | exact Or.inr rfl | exact Or.inl ‹_›)); (first | assumption | apply foldl_rest | apply takeEff_rest | split)) | split | intro _

theorem qpSnapshot_rest (s : State) (hs : Rest msk s0 s) (meff : msk.eff = true := by assumption) : Rest msk s0 (qpSnapshot s) := by
  unfold qpSnapshot
  extract_lets s1
  have h1 : Rest msk s0 s1 := forNat_rest _ _ _ (fun g t ht => qpSnapGroup_rest _ _ ht) (classSnap_rest _ hs)
  clear_value s1
  apply rest_mk; (iterate 7 (first | exact Or.inr rfl | exact Or.inl ‹_›)); exact h1

theorem assembleScen_rest (g j : Nat) (s : State) (hs : Rest msk s0 s)  : Rest msk s0 (assembleScen g j s) := by
  unfold assembleScen
  try dsimp only
  with_reducible repeat' first | assumption | apply addBusy_rest | apply count_rest | apply modScen_rest | apply setLane_rest | (apply rest_mk; (iterate 7 (first | exact Or.inr rfl | exact Or.inl ‹_›)); (first | assumption | apply addBusy_rest | apply count_rest | apply modScen_rest | apply setLane_rest | split)) | split | intro _

theorem asmPhase_rest (s : State) (hs : Rest msk s0 s) (mtime : msk.time = true := by assumption) : Rest msk s0 (asmPhase s) := by
  unfold asmPhase
  try dsimp only
  with_reducible repeat' first | assumption | apply advanceTo_rest | apply assembleScen_rest | apply forNat_rest | (apply rest_mk; (iterate 7 (first | exact Or.inr rfl | exact Or.inl ‹_›)); (first | assumption | apply advanceTo_rest | apply assembleScen_rest | apply forNat_rest | split)) | split | intro _

theorem endMarks_rest (g u cyc : Nat) (r : ScenRes) (s : State) (hs : Rest msk s0 s)  : Rest msk s0 (endMarks g u cyc r s) := by
  unfold endMarks
  try dsimp only
  with_reducible repeat' first | assumption | apply addBusy_rest | apply count_rest | apply countN_rest | apply modQp_rest | apply raise_rest | (apply rest_mk; (iterate 7 (first | exact Or.inr rfl | exact Or.inl ‹_›)); (first | assumption | apply addBusy_rest | apply count_rest | apply countN_rest | apply modQp_rest | apply raise_rest | split)) | split | intro _

theorem putRes_rest (b : LaneJob) (r : ScenRes) (s : State) (hs : Rest msk s0 s)  : Rest msk s0 (putRes b r s) := by
  unfold putRes
  try dsimp only
  with_reducible repeat' first | assumption | apply modScen_rest | (apply rest_mk; (iterate 7 (first | exact Or.inr rfl | exact Or.inl ‹_›)); (first | assumption | apply modScen_rest | split)) | split | intro _

theorem laneStart_rest (u cyc : Nat) (s : State) (hs : Rest msk s0 s)  : Rest msk s0 (laneStart u cyc s) := by
  unfold laneStart
  try dsimp only
  with_reducible repeat' first | assumption | apply setLane_rest | (apply rest_mk; (iterate 7 (first | exact Or.inr rfl | exact Or.inl ‹_›)); (first | assumption | apply setLane_rest | split)) | split | intro _

theorem laneWindow_rest (s : State) (hs : Rest msk s0 s) (mtime : msk.time = true := by assumption) : Rest msk s0 (laneWindow s) := by
  unfold laneWindow
  try dsimp only
  with_reducible repeat' first | assumption | apply advanceTo_rest | apply forNat_rest | apply laneStart_rest | (apply rest_mk; (iterate 7 (first | exact Or.inr rfl | exact Or.inl ‹_›)); (first | assumption | apply advanceTo_rest | apply forNat_rest | apply laneStart_rest | split)) | split | intro _

theorem laneDone_rest (u cyc : Nat) (s : State) (hs : Rest msk s0 s) (mtime : msk.time = true := by assumption) (t : State) (h : laneDone u cyc s = some t) : Rest msk s0 t := by
  revert h; unfold laneDone; dsimp only
  split
  · intro h; cases h
  · split
    · intro h; cases h; exact laneStart_rest _ _ _ (setLane_rest _ _ _ hs)
    · split
      · intro h; cases h
        exact laneStart_rest _ _ _ (endMarks_rest _ _ _ _ _ (putRes_rest _ _ _ (setLane_rest _ _ _ (advanceTo_rest _ _ hs))))
      · intro h; cases h

theorem laneUpTo_rest (u cyc n : Nat) (s : State) (hs : Rest msk s0 s) (mtime : msk.time = true := by assumption) : Rest msk s0 (laneUpTo u cyc n s) := by
  induction n generalizing s with
  | zero => exact hs
  | succ n ih =>
    unfold laneUpTo; split
    · rename_i t h; exact ih _ (laneDone_rest _ _ _ hs (h := h))
    · exact hs

theorem qpProblemDone_rest (u : Nat) (s : State) (hs : Rest msk s0 s) (mtime : msk.time = true := by assumption) : Rest msk s0 (qpProblemDone u s) := by
  unfold qpProblemDone; split
  · cases h : laneDone u (2 ^ 64) s with
    | none => exact hs
    | some t => exact laneDone_rest _ _ _ hs (h := h)
  · exact hs

theorem missMarks_rest (b : LaneJob) (u : Nat) (s : State) (hs : Rest msk s0 s) (mjrn : msk.jrn = true := by assumption) : Rest msk s0 (missMarks b u s) := by
  unfold missMarks
  try dsimp only
  with_reducible repeat' first | assumption | apply count_rest | apply journal_rest | apply modQp_rest | apply raise_rest | apply setCls_rest | (apply rest_mk; (iterate 7 (first | exact Or.inr rfl | exact Or.inl ‹_›)); (first | assumption | apply count_rest | apply journal_rest | apply modQp_rest | apply raise_rest | apply setCls_rest | split)) | split | intro _

theorem missWaiting_rest (u : Nat) (b : LaneJob) (s : State) (hs : Rest msk s0 s) (mjrn : msk.jrn = true := by assumption) : Rest msk s0 (missWaiting u b s) := by
  unfold missWaiting
  try dsimp only
  with_reducible repeat' first | assumption | apply missMarks_rest | apply putRes_rest | apply setLane_rest | (apply rest_mk; (iterate 7 (first | exact Or.inr rfl | exact Or.inl ‹_›)); (first | assumption | apply missMarks_rest | apply putRes_rest | apply setLane_rest | split)) | split | intro _

theorem missServed_rest (u cyc : Nat) (b : LaneJob) (st : Nat) (s : State) (hs : Rest msk s0 s) (mjrn : msk.jrn = true := by assumption) : Rest msk s0 (missServed u cyc b st s) := by
  unfold missServed
  try dsimp only
  with_reducible repeat' first | assumption | apply endMarks_rest | apply laneStart_rest | apply missMarks_rest | apply putRes_rest | apply setLane_rest | (apply rest_mk; (iterate 7 (first | exact Or.inr rfl | exact Or.inl ‹_›)); (first | assumption | apply endMarks_rest | apply laneStart_rest | apply missMarks_rest | apply putRes_rest | apply setLane_rest | split)) | split | intro _

theorem qpDeadline_rest (g j : Nat) (s : State) (hs : Rest msk s0 s) (mtime : msk.time = true := by assumption) (mjrn : msk.jrn = true := by assumption) : Rest msk s0 (qpDeadline g j s) := by
  unfold qpDeadline
  try dsimp only
  with_reducible repeat' first | assumption | apply advanceTo_rest | apply laneUpTo_rest | apply missServed_rest | apply missWaiting_rest | apply foldl_rest | (apply rest_mk; (iterate 7 (first | exact Or.inr rfl | exact Or.inl ‹_›)); (first | assumption | apply advanceTo_rest | apply laneUpTo_rest | apply missServed_rest | apply missWaiting_rest | apply foldl_rest | split)) | split | intro _

theorem shiftedRecs_rest (g b : Nat) (tags : List Nat) (s : State) (hs : Rest msk s0 s) (mjrn : msk.jrn = true := by assumption) : Rest msk s0 (shiftedRecs g b tags s) := by
  unfold shiftedRecs
  try dsimp only
  with_reducible repeat' first | assumption | apply journal_rest | apply foldl_rest | (apply rest_mk; (iterate 7 (first | exact Or.inr rfl | exact Or.inl ‹_›)); (first | assumption | apply journal_rest | apply foldl_rest | split)) | split | intro _

theorem fallenBack_rest (g b : Nat) (tags : List Nat) (s : State) (hs : Rest msk s0 s) (mjrn : msk.jrn = true := by assumption) : Rest msk s0 (fallenBack g b tags s) := by
  unfold fallenBack
  try dsimp only
  with_reducible repeat' first | assumption | apply modQp_rest | apply raise_rest | apply shiftedRecs_rest | (apply rest_mk; (iterate 7 (first | exact Or.inr rfl | exact Or.inl ‹_›)); (first | assumption | apply modQp_rest | apply raise_rest | apply shiftedRecs_rest | split)) | split | intro _

theorem selection_rest (g : Nat) (sA : State) (hsA : Rest msk s0 sA) (mtime : msk.time = true := by assumption) (mjrn : msk.jrn = true := by assumption) : Rest msk s0 (selection g sA) := by
  unfold selection
  try dsimp only
  with_reducible repeat' first | assumption | apply advanceTo_rest | apply countN_rest | apply fallenBack_rest | apply forNat_rest | apply modGrp_rest | apply modQp_rest | apply qpDeadline_rest | apply raiseIf_rest | apply foldl_rest | (apply rest_mk; (iterate 7 (first | exact Or.inr rfl | exact Or.inl ‹_›)); (first | assumption | apply advanceTo_rest | apply countN_rest | apply fallenBack_rest | apply forNat_rest | apply modGrp_rest | apply modQp_rest | apply qpDeadline_rest | apply raiseIf_rest | apply foldl_rest | split)) | split | intro _

theorem shiftStop_rest (g : Nat) (s : State) (hs : Rest msk s0 s) (mjrn : msk.jrn = true := by assumption) : Rest msk s0 (shiftStop g s) := by
  unfold shiftStop
  try dsimp only
  with_reducible repeat' first | assumption | apply journal_rest | apply modGrp_rest | apply modQp_rest | apply reqStopGrp_rest | (apply rest_mk; (iterate 7 (first | exact Or.inr rfl | exact Or.inl ‹_›)); (first | assumption | apply journal_rest | apply modGrp_rest | apply modQp_rest | apply reqStopGrp_rest | split)) | split | intro _

theorem qpBoundary_rest (b g : Nat) (s : State) (hs : Rest msk s0 s)  : Rest msk s0 (qpBoundary b g s) := by
  unfold qpBoundary
  try dsimp only
  with_reducible repeat' first | assumption | apply grpTo_rest | apply modGrp_rest | apply modQp_rest | (apply rest_mk; (iterate 7 (first | exact Or.inr rfl | exact Or.inl ‹_›)); (first | assumption | apply grpTo_rest | apply modGrp_rest | apply modQp_rest | split)) | split | intro _

theorem replaceShare_rest (s : State) (e : Share) (hs : Rest msk s0 s) (mjrn : msk.jrn = true := by assumption) : Rest msk s0 (replaceShare s e) := by
  unfold replaceShare
  try dsimp only
  with_reducible repeat' first | assumption | apply journal_rest | apply modScen_rest | apply setShares_rest | (apply rest_mk; (iterate 7 (first | exact Or.inr rfl | exact Or.inl ‹_›)); (first | assumption | apply journal_rest | apply modScen_rest | apply setShares_rest | split)) | split | intro _

theorem replaceLanes_rest (s : State) (hs : Rest msk s0 s) (mjrn : msk.jrn = true := by assumption) : Rest msk s0 (replaceLanes s) := by
  unfold replaceLanes
  try dsimp only
  with_reducible repeat' first | assumption | apply replaceShare_rest | apply foldl_rest | (apply rest_mk; (iterate 7 (first | exact Or.inr rfl | exact Or.inl ‹_›)); (first | assumption | apply replaceShare_rest | apply foldl_rest | split)) | split | intro _

theorem clearLanes_rest (s : State) (hs : Rest msk s0 s)  : Rest msk s0 (clearLanes s) := by
  unfold clearLanes
  try dsimp only
  with_reducible repeat' first | assumption | (apply rest_mk; (iterate 7 (first | exact Or.inr rfl | exact Or.inl ‹_›)); (first | assumption | split)) | split | intro _

theorem laneFault_rest (u : Nat) (s : State) (hs : Rest msk s0 s) (mlanesOut : msk.lanesOut = true := by assumption) : Rest msk s0 (laneFault u s) := by
  unfold laneFault
  try dsimp only
  with_reducible repeat' first | assumption | apply count_rest | apply modQp_rest | apply putRes_rest | apply raise_rest | apply setLane_rest | apply taskEnd_rest | apply foldl_rest | (apply rest_mk; (iterate 7 (first | exact Or.inr rfl | exact Or.inl ‹_›)); (first | assumption | apply count_rest | apply modQp_rest | apply putRes_rest | apply raise_rest | apply setLane_rest | apply taskEnd_rest | apply foldl_rest | split)) | split | intro _

theorem replan_rest (g : Nat) (s : State) (hs : Rest msk s0 s)  : Rest msk s0 (replan g s) := by
  unfold replan
  try dsimp only
  with_reducible repeat' first | assumption | apply count_rest | apply laneStart_rest | apply modQp_rest | apply modScen_rest | apply setLane_rest | (apply rest_mk; (iterate 7 (first | exact Or.inr rfl | exact Or.inl ‹_›)); (first | assumption | apply count_rest | apply laneStart_rest | apply modQp_rest | apply modScen_rest | apply setLane_rest | split)) | split | intro _

theorem qpAssignEff_rest (e : Eff) (s : State) (hs : Rest msk s0 s)  : Rest msk s0 (qpAssignEff e s) := by
  unfold qpAssignEff
  try dsimp only
  with_reducible repeat' first | assumption | apply modGrp_rest | apply modQp_rest | (apply rest_mk; (iterate 7 (first | exact Or.inr rfl | exact Or.inl ‹_›)); (first | assumption | apply modGrp_rest | apply modQp_rest | split)) | split | intro _

theorem kdeSnap_rest (g : Nat) (s : State) (hs : Rest msk s0 s)  : Rest msk s0 (kdeSnap g s) := by
  unfold kdeSnap
  try dsimp only
  with_reducible repeat' first | assumption | apply modGrp_rest | (apply rest_mk; (iterate 7 (first | exact Or.inr rfl | exact Or.inl ‹_›)); (first | assumption | apply modGrp_rest | split)) | split | intro _

theorem unreachable_rest (g tag promise : Nat) (s : State) (hs : Rest msk s0 s) (mjrn : msk.jrn = true := by assumption) : Rest msk s0 (unreachable g tag promise s) := by
  unfold unreachable
  try dsimp only
  with_reducible repeat' first | assumption | apply grpEvent_rest | apply journal_rest | (apply rest_mk; (iterate 7 (first | exact Or.inr rfl | exact Or.inl ‹_›)); (first | assumption | apply grpEvent_rest | apply journal_rest | split)) | split | intro _

theorem replanMoves_rest (g : Nat) (s : State) (hs : Rest msk s0 s)  : Rest msk s0 (replanMoves g s) := by
  unfold replanMoves
  try dsimp only
  with_reducible repeat' first | assumption | apply modGrp_rest | (apply rest_mk; (iterate 7 (first | exact Or.inr rfl | exact Or.inl ‹_›)); (first | assumption | apply modGrp_rest | split)) | split | intro _

theorem strmGives_rest (g : Nat) (s : State) (hs : Rest msk s0 s)  : Rest msk s0 (strmGives g s) := by
  unfold strmGives
  try dsimp only
  with_reducible repeat' first | assumption | apply modGrp_rest | apply setStrm_rest | (apply rest_mk; (iterate 7 (first | exact Or.inr rfl | exact Or.inl ‹_›)); (first | assumption | apply modGrp_rest | apply setStrm_rest | split)) | split | intro _

theorem profileMove_rest (g : Nat) (p : List Byte) (target : List Fx) (blend : Fx) (tag promise : Nat) (s : State) (hs : Rest msk s0 s) (mjrn : msk.jrn = true := by assumption) : Rest msk s0 (profileMove g p target blend tag promise s) := by
  unfold profileMove
  try dsimp only
  with_reducible repeat' first | assumption | apply grpTo_rest | apply modGrp_rest | apply preempted_rest | apply strmGives_rest | (apply rest_mk; (iterate 7 (first | exact Or.inr rfl | exact Or.inl ‹_›)); (first | assumption | apply grpTo_rest | apply modGrp_rest | apply preempted_rest | apply strmGives_rest | split)) | split | intro _

theorem moveEff_rest (e : Eff) (s : State) (hs : Rest msk s0 s) (mjrn : msk.jrn = true := by assumption) : Rest msk s0 (moveEff e s) := by
  unfold moveEff
  try dsimp only
  with_reducible repeat' first | assumption | apply profileMove_rest | (apply rest_mk; (iterate 7 (first | exact Or.inr rfl | exact Or.inl ‹_›)); (first | assumption | apply profileMove_rest | split)) | split | intro _

theorem poseMoves_rest (g : Nat) (s : State) (hs : Rest msk s0 s) (mjrn : msk.jrn = true := by assumption) : Rest msk s0 (poseMoves g s) := by
  unfold poseMoves
  try dsimp only
  with_reducible repeat' first | assumption | apply modGrp_rest | apply profileMove_rest | apply foldl_rest | (apply rest_mk; (iterate 7 (first | exact Or.inr rfl | exact Or.inl ‹_›)); (first | assumption | apply modGrp_rest | apply profileMove_rest | apply foldl_rest | split)) | split | intro _

theorem moveSnap_rest (e : Eff) (s : State) (hs : Rest msk s0 s) (mjrn : msk.jrn = true := by assumption) : Rest msk s0 (moveSnap e s) := by
  unfold moveSnap
  try dsimp only
  with_reducible repeat' first | assumption | apply modGrp_rest | apply preempted_rest | apply strmGives_rest | apply unreachable_rest | (apply rest_mk; (iterate 7 (first | exact Or.inr rfl | exact Or.inl ‹_›)); (first | assumption | apply modGrp_rest | apply preempted_rest | apply strmGives_rest | apply unreachable_rest | split)) | split | intro _

theorem waypointSnap_rest (free : Bool) (g : Nat) (s : State) (hs : Rest msk s0 s) (mjrn : msk.jrn = true := by assumption) : Rest msk s0 (waypointSnap free g s) := by
  unfold waypointSnap
  try dsimp only
  with_reducible repeat' first | assumption | apply modGrp_rest | apply unreachable_rest | (apply rest_mk; (iterate 7 (first | exact Or.inr rfl | exact Or.inl ‹_›)); (first | assumption | apply modGrp_rest | apply unreachable_rest | split)) | split | intro _

theorem grpSnapshot_rest (s : State) (hs : Rest msk s0 s) (mjrn : msk.jrn = true := by assumption) (meff : msk.eff = true := by assumption) : Rest msk s0 (grpSnapshot s) := by
  unfold grpSnapshot
  refine forNat_rest _ _ _ (fun g t h => waypointSnap_rest _ _ _ h) (foldl_rest _ _ (fun t e h => moveSnap_rest _ _ h) _ ?_)
  exact rest_mk (s := forNat (List.range 16) kdeSnap s) (Or.inr rfl) (Or.inr rfl) (Or.inr rfl) (Or.inr rfl) (Or.inl meff) (Or.inr rfl) (Or.inr rfl)
    (forNat_rest _ _ _ (fun g t h => kdeSnap_rest _ _ h) hs)

theorem groupSettled_rest (g : Nat) (s : State) (hs : Rest msk s0 s)  : Rest msk s0 (groupSettled g s) := by
  unfold groupSettled
  try dsimp only
  with_reducible repeat' first | assumption | apply modGrp_rest | (apply rest_mk; (iterate 7 (first | exact Or.inr rfl | exact Or.inl ‹_›)); (first | assumption | apply modGrp_rest | split)) | split | intro _

theorem groupEnableTimeout_rest (g : Nat) (s : State) (hs : Rest msk s0 s) (mtime : msk.time = true := by assumption) : Rest msk s0 (groupEnableTimeout g s) := by
  unfold groupEnableTimeout
  try dsimp only
  with_reducible repeat' first | assumption | apply advanceTo_rest | apply forNat_rest | apply reqFault_rest | apply foldl_rest | (apply rest_mk; (iterate 7 (first | exact Or.inr rfl | exact Or.inl ‹_›)); (first | assumption | apply advanceTo_rest | apply forNat_rest | apply reqFault_rest | apply foldl_rest | split)) | split | intro _

theorem grpConfigureEff_rest (e : Eff) (s : State) (hs : Rest msk s0 s)  : Rest msk s0 (grpConfigureEff e s) := by
  unfold grpConfigureEff
  try dsimp only
  with_reducible repeat' first | assumption | apply modGrp_rest | apply modQp_rest | (apply rest_mk; (iterate 7 (first | exact Or.inr rfl | exact Or.inl ‹_›)); (first | assumption | apply modGrp_rest | apply modQp_rest | split)) | split | intro _

theorem grpEnableEff_rest (e : Eff) (s : State) (hs : Rest msk s0 s)  : Rest msk s0 (grpEnableEff e s) := by
  unfold grpEnableEff
  try dsimp only
  with_reducible repeat' first | assumption | apply beginEnable_rest | apply forNat_rest | apply freeOpen_rest | apply grpTo_rest | apply modGrp_rest | apply toClosed_rest | (apply rest_mk; (iterate 7 (first | exact Or.inr rfl | exact Or.inl ‹_›)); (first | assumption | apply beginEnable_rest | apply forNat_rest | apply freeOpen_rest | apply grpTo_rest | apply modGrp_rest | apply toClosed_rest | split)) | split | intro _

theorem grpDisableEff_rest (e : Eff) (s : State) (hs : Rest msk s0 s)  : Rest msk s0 (grpDisableEff e s) := by
  unfold grpDisableEff
  extract_lets g x
  split
  · exact toIdle_rest _ _ (forNat_rest _ _ _ (fun a t ht => toDisabled_rest _ _ _ ht) hs)
  · exact hs

theorem grpHoldEff_rest (e : Eff) (s : State) (hs : Rest msk s0 s)  : Rest msk s0 (grpHoldEff e s) := by
  unfold grpHoldEff
  try dsimp only
  with_reducible repeat' first | assumption | apply pathStop_rest | (apply rest_mk; (iterate 7 (first | exact Or.inr rfl | exact Or.inl ‹_›)); (first | assumption | apply pathStop_rest | split)) | split | intro _

theorem grpResumeEff_rest (e : Eff) (s : State) (hs : Rest msk s0 s) (mjrn : msk.jrn = true := by assumption) : Rest msk s0 (grpResumeEff e s) := by
  unfold grpResumeEff
  try dsimp only
  with_reducible repeat' first | assumption | apply grpTo_rest | apply modGrp_rest | apply preempted_rest | (apply rest_mk; (iterate 7 (first | exact Or.inr rfl | exact Or.inl ‹_›)); (first | assumption | apply grpTo_rest | apply modGrp_rest | apply preempted_rest | split)) | split | intro _

theorem grpHomeEff_rest (e : Eff) (s : State) (hs : Rest msk s0 s) (mjrn : msk.jrn = true := by assumption) : Rest msk s0 (grpHomeEff e s) := by
  unfold grpHomeEff
  try dsimp only
  with_reducible repeat' first | assumption | apply beginHome_rest | apply preempted_rest | (apply rest_mk; (iterate 7 (first | exact Or.inr rfl | exact Or.inl ‹_›)); (first | assumption | apply beginHome_rest | apply preempted_rest | split)) | split | intro _

theorem grpClearEff_rest (e : Eff) (s : State) (hs : Rest msk s0 s)  : Rest msk s0 (grpClearEff e s) := by
  unfold grpClearEff
  extract_lets g s1
  split
  · exact hs
  have h1 : Rest msk s0 s1 := modGrp_rest _ _ _ hs
  clear_value s1
  split
  · exact grpTo_rest _ _ _ (resetMotion_rest _ _ h1)
  · refine toIdle_rest _ _ (forNat_rest _ _ _ (fun a t ht => ?_) h1)
    split
    · exact toHeld_rest _ _ ht
    · exact ht

theorem setPayloadEff_rest (e : Eff) (s : State) (hs : Rest msk s0 s)  : Rest msk s0 (setPayloadEff e s) := by
  unfold setPayloadEff
  try dsimp only
  with_reducible repeat' first | assumption | apply grpEvent_rest | apply modGrp_rest | (apply rest_mk; (iterate 7 (first | exact Or.inr rfl | exact Or.inl ‹_›)); (first | assumption | apply grpEvent_rest | apply modGrp_rest | split)) | split | intro _

theorem setSes_rest (k : Nat) (x : Session) (s : State) (hs : Rest msk s0 s)  : Rest msk s0 (setSes k x s) := by
  unfold setSes
  try dsimp only
  with_reducible repeat' first | assumption | (apply rest_mk; (iterate 7 (first | exact Or.inr rfl | exact Or.inl ‹_›)); (first | assumption | split)) | split | intro _

theorem setInj_rest (a : Nat) (x : Option Inject) (s : State) (hs : Rest msk s0 s)  : Rest msk s0 (setInj a x s) := by
  unfold setInj
  try dsimp only
  with_reducible repeat' first | assumption | (apply rest_mk; (iterate 7 (first | exact Or.inr rfl | exact Or.inl ‹_›)); (first | assumption | split)) | split | intro _

theorem writeRow_rest (k : Nat) (x : Session) (row : List Int) (s : State) (hs : Rest msk s0 s)  : Rest msk s0 (writeRow k x row s) := by
  unfold writeRow
  try dsimp only
  with_reducible repeat' first | assumption | apply raise_rest | apply raiseIf_rest | apply setSes_rest | (apply rest_mk; (iterate 7 (first | exact Or.inr rfl | exact Or.inl ‹_›)); (first | assumption | apply raise_rest | apply raiseIf_rest | apply setSes_rest | split)) | split | intro _

theorem sessionCadence_rest (occ : BitVec 128) (k : Nat) (s : State) (hs : Rest msk s0 s)  : Rest msk s0 (sessionCadence occ k s) := by
  unfold sessionCadence
  try dsimp only
  with_reducible repeat' first | assumption | apply setSes_rest | apply writeRow_rest | (apply rest_mk; (iterate 7 (first | exact Or.inr rfl | exact Or.inl ‹_›)); (first | assumption | apply setSes_rest | apply writeRow_rest | split)) | split | intro _

theorem traceCadence_rest (s : State) (hs : Rest msk s0 s)  : Rest msk s0 (traceCadence s) := by
  unfold traceCadence
  try dsimp only
  with_reducible repeat' first | assumption | apply forNat_rest | apply sessionCadence_rest | (apply rest_mk; (iterate 7 (first | exact Or.inr rfl | exact Or.inl ‹_›)); (first | assumption | apply forNat_rest | apply sessionCadence_rest | split)) | split | intro _

theorem freeTriggers_rest (k : Nat) (s : State) (hs : Rest msk s0 s) (mtime : msk.time = true := by assumption) : Rest msk s0 (freeTriggers k s) := by
  unfold freeTriggers
  try dsimp only
  with_reducible repeat' first | assumption | apply freeUnits_rest | (apply rest_mk; (iterate 7 (first | exact Or.inr rfl | exact Or.inl ‹_›)); (first | assumption | apply freeUnits_rest | split)) | split | intro _

theorem trcFull_rest (k : Nat) (s : State) (hs : Rest msk s0 s) (mtime : msk.time = true := by assumption) : Rest msk s0 (trcFull k s) := by
  unfold trcFull
  try dsimp only
  with_reducible repeat' first | assumption | apply freeTriggers_rest | apply raise_rest | apply setSes_rest | (apply rest_mk; (iterate 7 (first | exact Or.inr rfl | exact Or.inl ‹_›)); (first | assumption | apply freeTriggers_rest | apply raise_rest | apply setSes_rest | split)) | split | intro _

theorem traceFault_rest (k row c : Nat) (s : State) (hs : Rest msk s0 s) (mtime : msk.time = true := by assumption) : Rest msk s0 (traceFault k row c s) := by
  unfold traceFault
  try dsimp only
  with_reducible repeat' first | assumption | apply freeTriggers_rest | apply setSes_rest | (apply rest_mk; (iterate 7 (first | exact Or.inr rfl | exact Or.inl ‹_›)); (first | assumption | apply freeTriggers_rest | apply setSes_rest | split)) | split | intro _

theorem trigger_rest (k : Nat) (s : State) (hs : Rest msk s0 s)  : Rest msk s0 (trigger k s) := by
  unfold trigger
  try dsimp only
  with_reducible repeat' first | assumption | apply raise_rest | apply setSes_rest | (apply rest_mk; (iterate 7 (first | exact Or.inr rfl | exact Or.inl ‹_›)); (first | assumption | apply raise_rest | apply setSes_rest | split)) | split | intro _

theorem triggerDropped_rest (k : Nat) (s : State) (hs : Rest msk s0 s)  : Rest msk s0 (triggerDropped k s) := by
  unfold triggerDropped
  try dsimp only
  with_reducible repeat' first | assumption | apply setSes_rest | (apply rest_mk; (iterate 7 (first | exact Or.inr rfl | exact Or.inl ‹_›)); (first | assumption | apply setSes_rest | split)) | split | intro _

theorem injValue_rest (a : Nat) (s : State) (hs : Rest msk s0 s)  : Rest msk s0 (injValue a s) := by
  unfold injValue
  try dsimp only
  with_reducible repeat' first | assumption | apply setInj_rest | (apply rest_mk; (iterate 7 (first | exact Or.inr rfl | exact Or.inl ‹_›)); (first | assumption | apply setInj_rest | split)) | split | intro _

theorem injAdvance_rest (a : Nat) (s : State) (hs : Rest msk s0 s)  : Rest msk s0 (injAdvance a s) := by
  unfold injAdvance
  try dsimp only
  with_reducible repeat' first | assumption | apply setInj_rest | (apply rest_mk; (iterate 7 (first | exact Or.inr rfl | exact Or.inl ‹_›)); (first | assumption | apply setInj_rest | split)) | split | intro _

theorem chargeInj_rest (a : Nat) (on : Bool) (s : State) (hs : Rest msk s0 s)  : Rest msk s0 (chargeInj a on s) := by
  unfold chargeInj
  try dsimp only
  with_reducible repeat' first | assumption | apply setShares_rest | (apply rest_mk; (iterate 7 (first | exact Or.inr rfl | exact Or.inl ‹_›)); (first | assumption | apply setShares_rest | split)) | split | intro _

theorem injEnd_rest (a reason : Nat) (s : State) (hs : Rest msk s0 s) (mdev : msk.dev = true := by assumption) : Rest msk s0 (injEnd a reason s) := by
  unfold injEnd
  try dsimp only
  with_reducible repeat' first | assumption | apply chargeInj_rest | apply complete_rest | apply raise_rest | apply setInj_rest | (apply rest_mk; (iterate 7 (first | exact Or.inr rfl | exact Or.inl ‹_›)); (first | assumption | apply chargeInj_rest | apply complete_rest | apply raise_rest | apply setInj_rest | split)) | split | intro _

theorem stopInj_rest (a : Nat) (s : State) (hs : Rest msk s0 s) (mdev : msk.dev = true := by assumption) : Rest msk s0 (stopInj a s) := by
  unfold stopInj
  try dsimp only
  with_reducible repeat' first | assumption | apply injEnd_rest | (apply rest_mk; (iterate 7 (first | exact Or.inr rfl | exact Or.inl ‹_›)); (first | assumption | apply injEnd_rest | split)) | split | intro _

theorem injCadence_rest (s : State) (hs : Rest msk s0 s) (mdev : msk.dev = true := by assumption) : Rest msk s0 (injCadence s) := by
  unfold injCadence
  try dsimp only
  with_reducible repeat' first | assumption | apply forNat_rest | apply injEnd_rest | apply setInj_rest | (apply rest_mk; (iterate 7 (first | exact Or.inr rfl | exact Or.inl ‹_›)); (first | assumption | apply forNat_rest | apply injEnd_rest | apply setInj_rest | split)) | split | intro _

theorem injComplete_rest (a : Nat) (s : State) (hs : Rest msk s0 s) (mdev : msk.dev = true := by assumption) : Rest msk s0 (injComplete a s) := by
  unfold injComplete
  try dsimp only
  with_reducible repeat' first | assumption | apply injEnd_rest | (apply rest_mk; (iterate 7 (first | exact Or.inr rfl | exact Or.inl ‹_›)); (first | assumption | apply injEnd_rest | split)) | split | intro _

theorem frfComplete_rest (s : State) (hs : Rest msk s0 s) (mdev : msk.dev = true := by assumption) : Rest msk s0 (frfComplete s) := by
  unfold frfComplete
  try dsimp only
  with_reducible repeat' first | assumption | apply complete_rest | (apply rest_mk; (iterate 7 (first | exact Or.inr rfl | exact Or.inl ‹_›)); (first | assumption | apply complete_rest | split)) | split | intro _

theorem traceArmEff_rest (e : Eff) (s : State) (hs : Rest msk s0 s)  : Rest msk s0 (traceArmEff e s) := by
  unfold traceArmEff
  try dsimp only
  with_reducible repeat' first | assumption | apply raise_rest | apply setSes_rest | (apply rest_mk; (iterate 7 (first | exact Or.inr rfl | exact Or.inl ‹_›)); (first | assumption | apply raise_rest | apply setSes_rest | split)) | split | intro _

theorem traceStopEff_rest (e : Eff) (s : State) (hs : Rest msk s0 s) (mtime : msk.time = true := by assumption) : Rest msk s0 (traceStopEff e s) := by
  unfold traceStopEff
  try dsimp only
  with_reducible repeat' first | assumption | apply freeTriggers_rest | apply setSes_rest | (apply rest_mk; (iterate 7 (first | exact Or.inr rfl | exact Or.inl ‹_›)); (first | assumption | apply freeTriggers_rest | apply setSes_rest | split)) | split | intro _

theorem injectStopEff_rest (e : Eff) (s : State) (hs : Rest msk s0 s) (mdev : msk.dev = true := by assumption) : Rest msk s0 (injectStopEff e s) := by
  unfold injectStopEff
  try dsimp only
  with_reducible repeat' first | assumption | apply injEnd_rest | (apply rest_mk; (iterate 7 (first | exact Or.inr rfl | exact Or.inl ‹_›)); (first | assumption | apply injEnd_rest | split)) | split | intro _

theorem toDieF_rest (r : JRec) (s : State) (hs : Rest msk s0 s) (mjrn : msk.jrn = true := by assumption) (mxl : msk.xl = true := by assumption) : Rest msk s0 (toDieF r s) := by
  unfold toDieF
  try dsimp only
  with_reducible repeat' first | assumption | apply xsend_rest | (apply rest_mk; (iterate 7 (first | exact Or.inr rfl | exact Or.inl ‹_›)); (first | assumption | apply xsend_rest | split)) | split | intro _

theorem journalSend_rest (s : State) (hs : Rest msk s0 s) (mjrn : msk.jrn = true := by assumption) (mxl : msk.xl = true := by assumption) : Rest msk s0 (journalSend s) := by
  unfold journalSend
  try dsimp only
  with_reducible repeat' first | assumption | apply count_rest | apply journal_rest | apply toDieF_rest | (apply rest_mk; (iterate 7 (first | exact Or.inr rfl | exact Or.inl ‹_›)); (first | assumption | apply count_rest | apply journal_rest | apply toDieF_rest | split)) | split | intro _

theorem journalWrite_rest (s : State) (hs : Rest msk s0 s) (mjrn : msk.jrn = true := by assumption) : Rest msk s0 (journalWrite s) := by
  unfold journalWrite
  try dsimp only
  with_reducible repeat' first | assumption | apply count_rest | apply raiseIf_rest | (apply rest_mk; (iterate 7 (first | exact Or.inr rfl | exact Or.inl ‹_›)); (first | assumption | apply count_rest | apply raiseIf_rest | split)) | split | intro _

theorem holdupWindowEnd_rest (s : State) (hs : Rest msk s0 s) (mjrn : msk.jrn = true := by assumption) : Rest msk s0 (holdupWindowEnd s) := by
  unfold holdupWindowEnd
  try dsimp only
  with_reducible repeat' first | assumption | (apply rest_mk; (iterate 7 (first | exact Or.inr rfl | exact Or.inl ‹_›)); (first | assumption | split)) | split | intro _

theorem holdupDone_rest (s : State) (hs : Rest msk s0 s) (mjrn : msk.jrn = true := by assumption) : Rest msk s0 (holdupDone s) := by
  unfold holdupDone
  try dsimp only
  with_reducible repeat' first | assumption | apply journalF_rest | apply journalWrite_rest | (apply rest_mk; (iterate 7 (first | exact Or.inr rfl | exact Or.inl ‹_›)); (first | assumption | apply journalF_rest | apply journalWrite_rest | split)) | split | intro _

theorem holdupCheck_rest (c : BitVec 16) (s : State) (hs : Rest msk s0 s) (mjrn : msk.jrn = true := by assumption) : Rest msk s0 (holdupCheck c s) := by
  unfold holdupCheck
  try dsimp only
  with_reducible repeat' first | assumption | apply journalF_rest | apply raise_rest | (apply rest_mk; (iterate 7 (first | exact Or.inr rfl | exact Or.inl ‹_›)); (first | assumption | apply journalF_rest | apply raise_rest | split)) | split | intro _

theorem eraseDone_rest (s : State) (hs : Rest msk s0 s) (mjrn : msk.jrn = true := by assumption) : Rest msk s0 (eraseDone s) := by
  unfold eraseDone
  try dsimp only
  with_reducible repeat' first | assumption | (apply rest_mk; (iterate 7 (first | exact Or.inr rfl | exact Or.inl ‹_›)); (first | assumption | split)) | split | intro _

theorem modDev_rest (f : DevSt → DevSt) (s : State) (hs : Rest msk s0 s) (mdev : msk.dev = true := by assumption) : Rest msk s0 (modDev f s) := by
  unfold modDev
  try dsimp only
  with_reducible repeat' first | assumption | (apply rest_mk; (iterate 7 (first | exact Or.inr rfl | exact Or.inl ‹_›)); (first | assumption | split)) | split | intro _

theorem enterFault_rest (source code : Nat) (s : State) (hs : Rest msk s0 s) (mdev : msk.dev = true := by assumption) : Rest msk s0 (enterFault source code s) := by
  unfold enterFault modDev
  try dsimp only
  with_reducible repeat' first | assumption | apply modDev_rest | (apply rest_mk; (iterate 7 (first | exact Or.inr rfl | exact Or.inl ‹_›)); (first | assumption | apply modDev_rest | split)) | split | intro _

theorem deviceFault_rest (source code : Nat) (noCore : Bool) (s : State) (hs : Rest msk s0 s) (mdev : msk.dev = true := by assumption) (mjrn : msk.jrn = true := by assumption) (mxl : msk.xl = true := by assumption) : Rest msk s0 (deviceFault source code noCore s) := by
  unfold deviceFault modDev
  try dsimp only
  with_reducible repeat' first | assumption | apply enterFault_rest | apply journalRec_rest | apply modDev_rest | apply toDieF_rest | (apply rest_mk; (iterate 7 (first | exact Or.inr rfl | exact Or.inl ‹_›)); (first | assumption | apply enterFault_rest | apply journalRec_rest | apply modDev_rest | apply toDieF_rest | split)) | split | intro _

theorem xlinkLostM_rest (source code : Nat) (s : State) (hs : Rest msk s0 s) (mdev : msk.dev = true := by assumption) (mjrn : msk.jrn = true := by assumption) (mxl : msk.xl = true := by assumption) : Rest msk s0 (xlinkLostM source code s) := by
  unfold xlinkLostM
  try dsimp only
  with_reducible repeat' first | assumption | apply enterFault_rest | apply forNat_rest | apply noteReason_rest | apply raise_rest | apply reqStopGrp_rest | apply setGov_rest | apply takeStops_rest | (apply rest_mk; (iterate 7 (first | exact Or.inr rfl | exact Or.inl ‹_›)); (first | assumption | apply enterFault_rest | apply forNat_rest | apply noteReason_rest | apply raise_rest | apply reqStopGrp_rest | apply setGov_rest | apply takeStops_rest | split)) | split | intro _

theorem xlinkLostF_rest (source code : Nat) (s : State) (hs : Rest msk s0 s) (mtime : msk.time = true := by assumption) (mdev : msk.dev = true := by assumption) (mjrn : msk.jrn = true := by assumption) : Rest msk s0 (xlinkLostF source code s) := by
  unfold xlinkLostF
  try dsimp only
  with_reducible repeat' first | assumption | apply enterSafe_rest | apply journalF_rest | (apply rest_mk; (iterate 7 (first | exact Or.inr rfl | exact Or.inl ‹_›)); (first | assumption | apply enterSafe_rest | apply journalF_rest | split)) | split | intro _

theorem dieFCause_rest (source code : Nat) (s : State) (hs : Rest msk s0 s) (mtime : msk.time = true := by assumption) (mdev : msk.dev = true := by assumption) (mjrn : msk.jrn = true := by assumption) (mxl : msk.xl = true := by assumption) : Rest msk s0 (dieFCause source code s) := by
  unfold dieFCause
  try dsimp only
  with_reducible repeat' first | assumption | apply freeUnits_rest | apply xlinkLostF_rest | apply xlinkLostM_rest | (apply rest_mk; (iterate 7 (first | exact Or.inr rfl | exact Or.inl ‹_›)); (first | assumption | apply freeUnits_rest | apply xlinkLostF_rest | apply xlinkLostM_rest | split)) | split | intro _

theorem xlinkLoss_rest (source code : Nat) (s : State) (hs : Rest msk s0 s) (mtime : msk.time = true := by assumption) (mdev : msk.dev = true := by assumption) (mjrn : msk.jrn = true := by assumption) (mxl : msk.xl = true := by assumption) : Rest msk s0 (xlinkLoss source code s) := by
  unfold xlinkLoss
  try dsimp only
  with_reducible repeat' first | assumption | apply dieFCause_rest | (apply rest_mk; (iterate 7 (first | exact Or.inr rfl | exact Or.inl ‹_›)); (first | assumption | apply dieFCause_rest | split)) | split | intro _

theorem xlinkFlit_rest (d : Die) (f : List Byte) (s : State) (hs : Rest msk s0 s) (mxl : msk.xl = true := by assumption) : Rest msk s0 (xlinkFlit d f s) := by
  unfold xlinkFlit
  try dsimp only
  with_reducible repeat' first | assumption | apply count_rest | apply setDir_rest | apply xacked_rest | apply xsendFlit_rest | (apply rest_mk; (iterate 7 (first | exact Or.inr rfl | exact Or.inl ‹_›)); (first | assumption | apply count_rest | apply setDir_rest | apply xacked_rest | apply xsendFlit_rest | split)) | split | intro _

theorem xlinkNak_rest (d : Die) (seq : BitVec 12) (s : State) (hs : Rest msk s0 s) (mtime : msk.time = true := by assumption) (mdev : msk.dev = true := by assumption) (mjrn : msk.jrn = true := by assumption) (mxl : msk.xl = true := by assumption) : Rest msk s0 (xlinkNak d seq s) := by
  unfold xlinkNak
  try dsimp only
  with_reducible repeat' first | assumption | apply count_rest | apply journal_rest | apply raise_rest | apply setDir_rest | apply xlinkLoss_rest | apply xreplay_rest | (apply rest_mk; (iterate 7 (first | exact Or.inr rfl | exact Or.inl ‹_›)); (first | assumption | apply count_rest | apply journal_rest | apply raise_rest | apply setDir_rest | apply xlinkLoss_rest | apply xreplay_rest | split)) | split | intro _

theorem timeAlign_rest (err : BitVec 8) (s : State) (hs : Rest msk s0 s) (mxl : msk.xl = true := by assumption) : Rest msk s0 (timeAlign err s) := by
  unfold timeAlign
  try dsimp only
  with_reducible repeat' first | assumption | (apply rest_mk; (iterate 7 (first | exact Or.inr rfl | exact Or.inl ‹_›)); (first | assumption | split)) | split | intro _

theorem eccCorrected_rest (spoke : Nat) (s : State) (hs : Rest msk s0 s)  : Rest msk s0 (eccCorrected spoke s) := by
  unfold eccCorrected
  try dsimp only
  with_reducible repeat' first | assumption | apply count_rest | apply freeNext_rest | apply raiseIf_rest | (apply rest_mk; (iterate 7 (first | exact Or.inr rfl | exact Or.inl ‹_›)); (first | assumption | apply count_rest | apply freeNext_rest | apply raiseIf_rest | split)) | split | intro _

theorem tileFault_rest (t : Nat) (s : State) (hs : Rest msk s0 s) (mjrn : msk.jrn = true := by assumption) (mtilesOut : msk.tilesOut = true := by assumption) : Rest msk s0 (tileFault t s) := by
  unfold tileFault
  try dsimp only
  with_reducible repeat' first | assumption | apply forNat_rest | apply journal_rest | apply reqFault_rest | apply taskEnd_rest | (apply rest_mk; (iterate 7 (first | exact Or.inr rfl | exact Or.inl ‹_›)); (first | assumption | apply forNat_rest | apply journal_rest | apply reqFault_rest | apply taskEnd_rest | split)) | split | intro _

theorem planningFault_rest (groups : BitVec 16) (s : State) (hs : Rest msk s0 s) (mjrn : msk.jrn = true := by assumption) : Rest msk s0 (planningFault groups s) := by
  unfold planningFault
  try dsimp only
  with_reducible repeat' first | assumption | apply forNat_rest | apply journal_rest | apply modGrp_rest | (apply rest_mk; (iterate 7 (first | exact Or.inr rfl | exact Or.inl ‹_›)); (first | assumption | apply forNat_rest | apply journal_rest | apply modGrp_rest | split)) | split | intro _

theorem streamFault_rest (k : Nat) (s : State) (hs : Rest msk s0 s) (mjrn : msk.jrn = true := by assumption) : Rest msk s0 (streamFault k s) := by
  unfold streamFault
  try dsimp only
  with_reducible repeat' first | assumption | apply journal_rest | apply strmUnderrun_rest | (apply rest_mk; (iterate 7 (first | exact Or.inr rfl | exact Or.inl ‹_›)); (first | assumption | apply journal_rest | apply strmUnderrun_rest | split)) | split | intro _

theorem busFault_rest (k st : Nat) (s : State) (hs : Rest msk s0 s) (mjrn : msk.jrn = true := by assumption) : Rest msk s0 (busFault k st s) := by
  unfold busFault
  try dsimp only
  with_reducible repeat' first | assumption | apply forNat_rest | apply journal_rest | apply modAxis_rest | apply setSeg_rest | (apply rest_mk; (iterate 7 (first | exact Or.inr rfl | exact Or.inl ‹_›)); (first | assumption | apply forNat_rest | apply journal_rest | apply modAxis_rest | apply setSeg_rest | split)) | split | intro _

theorem eccReaction_rest (o : EccOwner) (s : State) (hs : Rest msk s0 s) (mtime : msk.time = true := by assumption) (mdev : msk.dev = true := by assumption) (mjrn : msk.jrn = true := by assumption) (mxl : msk.xl = true := by assumption) (mtilesOut : msk.tilesOut = true := by assumption) (mlanesOut : msk.lanesOut = true := by assumption) : Rest msk s0 (eccReaction o s) := by
  unfold eccReaction modDev
  try dsimp only
  with_reducible repeat' first | assumption | apply busFault_rest | apply complete_rest | apply count_rest | apply deviceFault_rest | apply journal_rest | apply journalF_rest | apply laneFault_rest | apply modDev_rest | apply planningFault_rest | apply raise_rest | apply sigPoison_rest | apply streamFault_rest | apply tileFault_rest | apply traceFault_rest | (apply rest_mk; (iterate 7 (first | exact Or.inr rfl | exact Or.inl ‹_›)); (first | assumption | apply busFault_rest | apply complete_rest | apply count_rest | apply deviceFault_rest | apply journal_rest | apply journalF_rest | apply laneFault_rest | apply modDev_rest | apply planningFault_rest | apply raise_rest | apply sigPoison_rest | apply streamFault_rest | apply tileFault_rest | apply traceFault_rest | split)) | split | intro _

theorem eccUncorrectable_rest (o : EccOwner) (s : State) (hs : Rest msk s0 s) (mtime : msk.time = true := by assumption) (mdev : msk.dev = true := by assumption) (mjrn : msk.jrn = true := by assumption) (mxl : msk.xl = true := by assumption) (mtilesOut : msk.tilesOut = true := by assumption) (mlanesOut : msk.lanesOut = true := by assumption) : Rest msk s0 (eccUncorrectable o s) := by
  unfold eccUncorrectable
  try dsimp only
  with_reducible repeat' first | assumption | apply count_rest | apply eccReaction_rest | apply raise_rest | (apply rest_mk; (iterate 7 (first | exact Or.inr rfl | exact Or.inl ‹_›)); (first | assumption | apply count_rest | apply eccReaction_rest | apply raise_rest | split)) | split | intro _

theorem thermWarn_rest (s : State) (hs : Rest msk s0 s) (mdev : msk.dev = true := by assumption) (mjrn : msk.jrn = true := by assumption) : Rest msk s0 (thermWarn s) := by
  unfold thermWarn modDev
  try dsimp only
  with_reducible repeat' first | assumption | apply journal_rest | apply modDev_rest | apply raise_rest | (apply rest_mk; (iterate 7 (first | exact Or.inr rfl | exact Or.inl ‹_›)); (first | assumption | apply journal_rest | apply modDev_rest | apply raise_rest | split)) | split | intro _

theorem thermCrit_rest (s : State) (hs : Rest msk s0 s) (mdev : msk.dev = true := by assumption) (mjrn : msk.jrn = true := by assumption) : Rest msk s0 (thermCrit s) := by
  unfold thermCrit modDev
  try dsimp only
  with_reducible repeat' first | assumption | apply journal_rest | apply modDev_rest | apply raise_rest | apply reqStopAll_rest | (apply rest_mk; (iterate 7 (first | exact Or.inr rfl | exact Or.inl ‹_›)); (first | assumption | apply journal_rest | apply modDev_rest | apply raise_rest | apply reqStopAll_rest | split)) | split | intro _

theorem holdupBegin_rest (s : State) (hs : Rest msk s0 s) (mjrn : msk.jrn = true := by assumption) : Rest msk s0 (holdupBegin s) := by
  unfold holdupBegin
  try dsimp only
  with_reducible repeat' first | assumption | apply journalF_rest | apply pinsOff_rest | (apply rest_mk; (iterate 7 (first | exact Or.inr rfl | exact Or.inl ‹_›)); (first | assumption | apply journalF_rest | apply pinsOff_rest | split)) | split | intro _

theorem pfailAssert_rest (s : State) (hs : Rest msk s0 s) (mdev : msk.dev = true := by assumption) (mjrn : msk.jrn = true := by assumption) : Rest msk s0 (pfailAssert s) := by
  unfold pfailAssert modDev
  try dsimp only
  with_reducible repeat' first | assumption | apply forNat_rest | apply holdupBegin_rest | apply modDev_rest | apply raise_rest | apply reqStopAll_rest | apply stpRamp_rest | (apply rest_mk; (iterate 7 (first | exact Or.inr rfl | exact Or.inl ‹_›)); (first | assumption | apply forNat_rest | apply holdupBegin_rest | apply modDev_rest | apply raise_rest | apply reqStopAll_rest | apply stpRamp_rest | split)) | split | intro _

theorem pwrWarn_rest (r : Rail) (s : State) (hs : Rest msk s0 s) (mjrn : msk.jrn = true := by assumption) : Rest msk s0 (pwrWarn r s) := by
  unfold pwrWarn
  try dsimp only
  with_reducible repeat' first | assumption | apply journal_rest | apply journalF_rest | apply raise_rest | (apply rest_mk; (iterate 7 (first | exact Or.inr rfl | exact Or.inl ‹_›)); (first | assumption | apply journal_rest | apply journalF_rest | apply raise_rest | split)) | split | intro _

theorem verifyReport_rest (st : Status) (s : State) (hs : Rest msk s0 s) (mjrn : msk.jrn = true := by assumption) : Rest msk s0 (verifyReport st s) := by
  unfold verifyReport
  try dsimp only
  with_reducible repeat' first | assumption | apply journal_rest | apply raise_rest | (apply rest_mk; (iterate 7 (first | exact Or.inr rfl | exact Or.inl ‹_›)); (first | assumption | apply journal_rest | apply raise_rest | split)) | split | intro _

theorem bootStart_rest (bootsel : BitVec 2) (stnaddr : BitVec 5) (s : State) (hs : Rest msk s0 s) (mtime : msk.time = true := by assumption) (mdev : msk.dev = true := by assumption) : Rest msk s0 (bootStart bootsel stnaddr s) := by
  unfold bootStart modDev
  try dsimp only
  with_reducible repeat' first | assumption | apply emit_rest | apply modDev_rest | (apply rest_mk; (iterate 7 (first | exact Or.inr rfl | exact Or.inl ‹_›)); (first | assumption | apply emit_rest | apply modDev_rest | split)) | split | intro _

theorem porstRelease_rest (bootsel : BitVec 2) (stnaddr : BitVec 5) (s : State) (hs : Rest msk s0 s) (mtime : msk.time = true := by assumption) (mdev : msk.dev = true := by assumption) : Rest msk s0 (porstRelease bootsel stnaddr s) := by
  unfold porstRelease modDev
  try dsimp only
  with_reducible repeat' first | assumption | apply bootStart_rest | apply modDev_rest | (apply rest_mk; (iterate 7 (first | exact Or.inr rfl | exact Or.inl ‹_›)); (first | assumption | apply bootStart_rest | apply modDev_rest | split)) | split | intro _

theorem pfailRelease_rest (s : State) (hs : Rest msk s0 s) (mtime : msk.time = true := by assumption) (mdev : msk.dev = true := by assumption) (mjrn : msk.jrn = true := by assumption) : Rest msk s0 (pfailRelease s) := by
  unfold pfailRelease modDev
  try dsimp only
  with_reducible repeat' first | assumption | apply bootStart_rest | apply modDev_rest | (apply rest_mk; (iterate 7 (first | exact Or.inr rfl | exact Or.inl ‹_›)); (first | assumption | apply bootStart_rest | apply modDev_rest | split)) | split | intro _

theorem modRec_rest (f : BootRec → BootRec) (s : State) (hs : Rest msk s0 s) (mdev : msk.dev = true := by assumption) : Rest msk s0 (modRec f s) := by
  unfold modRec modDev
  try dsimp only
  with_reducible repeat' first | assumption | apply modDev_rest | (apply rest_mk; (iterate 7 (first | exact Or.inr rfl | exact Or.inl ‹_›)); (first | assumption | apply modDev_rest | split)) | split | intro _

theorem writeRec_rest (f : BootRec → BootRec) (s : State) (hs : Rest msk s0 s) (mdev : msk.dev = true := by assumption) : Rest msk s0 (writeRec f s) := by
  unfold writeRec modDev
  try dsimp only
  with_reducible repeat' first | assumption | apply count_rest | apply modRec_rest | (apply rest_mk; (iterate 7 (first | exact Or.inr rfl | exact Or.inl ‹_›)); (first | assumption | apply count_rest | apply modRec_rest | split)) | split | intro _

theorem enterKickstand_rest (reason : Nat) (s : State) (hs : Rest msk s0 s) (mdev : msk.dev = true := by assumption) (mjrn : msk.jrn = true := by assumption) : Rest msk s0 (enterKickstand reason s) := by
  unfold enterKickstand modDev
  try dsimp only
  with_reducible repeat' first | assumption | apply journal_rest | apply modDev_rest | apply raise_rest | apply writeRec_rest | (apply rest_mk; (iterate 7 (first | exact Or.inr rfl | exact Or.inl ‹_›)); (first | assumption | apply journal_rest | apply modDev_rest | apply raise_rest | apply writeRec_rest | split)) | split | intro _

theorem bootRule_rest (s : State) (hs : Rest msk s0 s) (mdev : msk.dev = true := by assumption) (mjrn : msk.jrn = true := by assumption) : Rest msk s0 (bootRule s) := by
  unfold bootRule modDev
  try dsimp only
  with_reducible repeat' first | assumption | apply enterKickstand_rest | apply journal_rest | apply modDev_rest | apply modRec_rest | apply writeRec_rest | (apply rest_mk; (iterate 7 (first | exact Or.inr rfl | exact Or.inl ‹_›)); (first | assumption | apply enterKickstand_rest | apply journal_rest | apply modDev_rest | apply modRec_rest | apply writeRec_rest | split)) | split | intro _

theorem xlinkUp_rest (s : State) (hs : Rest msk s0 s) (mdev : msk.dev = true := by assumption) (mjrn : msk.jrn = true := by assumption) (mxl : msk.xl = true := by assumption) : Rest msk s0 (xlinkUp s) := by
  unfold xlinkUp
  try dsimp only
  with_reducible repeat' first | assumption | apply bootRule_rest | (apply rest_mk; (iterate 7 (first | exact Or.inr rfl | exact Or.inl ‹_›)); (first | assumption | apply bootRule_rest | split)) | split | intro _

theorem xlinkTrainTimeout_rest (s : State) (hs : Rest msk s0 s) (mtime : msk.time = true := by assumption) (mdev : msk.dev = true := by assumption) (mjrn : msk.jrn = true := by assumption) (mxl : msk.xl = true := by assumption) : Rest msk s0 (xlinkTrainTimeout s) := by
  unfold xlinkTrainTimeout modDev
  try dsimp only
  with_reducible repeat' first | assumption | apply advanceTo_rest | apply journalF_rest | apply modDev_rest | apply raise_rest | apply writeRec_rest | (apply rest_mk; (iterate 7 (first | exact Or.inr rfl | exact Or.inl ‹_›)); (first | assumption | apply advanceTo_rest | apply journalF_rest | apply modDev_rest | apply raise_rest | apply writeRec_rest | split)) | split | intro _

theorem lpddrTrained_rest (s : State) (hs : Rest msk s0 s) (mdev : msk.dev = true := by assumption) : Rest msk s0 (lpddrTrained s) := by
  unfold lpddrTrained modDev
  try dsimp only
  with_reducible repeat' first | assumption | apply modDev_rest | (apply rest_mk; (iterate 7 (first | exact Or.inr rfl | exact Or.inl ‹_›)); (first | assumption | apply modDev_rest | split)) | split | intro _

theorem takeImage_rest (slot : Nat) (c : List Byte) (s : State) (hs : Rest msk s0 s) (mdev : msk.dev = true := by assumption) : Rest msk s0 (takeImage slot c s) := by
  unfold takeImage modDev
  try dsimp only
  with_reducible repeat' first | assumption | apply modDev_rest | (apply rest_mk; (iterate 7 (first | exact Or.inr rfl | exact Or.inl ‹_›)); (first | assumption | apply modDev_rest | split)) | split | intro _

theorem containerLoaded_rest (s : State) (hs : Rest msk s0 s) (mdev : msk.dev = true := by assumption) (mjrn : msk.jrn = true := by assumption) : Rest msk s0 (containerLoaded s) := by
  unfold containerLoaded modDev
  try dsimp only
  with_reducible repeat' first | assumption | apply enterKickstand_rest | apply modDev_rest | apply takeImage_rest | apply verifyReport_rest | apply writeRec_rest | (apply rest_mk; (iterate 7 (first | exact Or.inr rfl | exact Or.inl ‹_›)); (first | assumption | apply enterKickstand_rest | apply modDev_rest | apply takeImage_rest | apply verifyReport_rest | apply writeRec_rest | split)) | split | intro _

theorem stagedImage_rest (s : State) (hs : Rest msk s0 s) (mdev : msk.dev = true := by assumption) (mjrn : msk.jrn = true := by assumption) : Rest msk s0 (stagedImage s) := by
  unfold stagedImage modDev
  try dsimp only
  with_reducible repeat' first | assumption | apply enterKickstand_rest | apply modDev_rest | apply takeImage_rest | apply verifyReport_rest | (apply rest_mk; (iterate 7 (first | exact Or.inr rfl | exact Or.inl ‹_›)); (first | assumption | apply enterKickstand_rest | apply modDev_rest | apply takeImage_rest | apply verifyReport_rest | split)) | split | intro _

theorem handover_rest (s : State) (hs : Rest msk s0 s) (mdev : msk.dev = true := by assumption) : Rest msk s0 (handover s) := by
  unfold handover modDev
  try dsimp only
  with_reducible repeat' first | assumption | apply modDev_rest | (apply rest_mk; (iterate 7 (first | exact Or.inr rfl | exact Or.inl ‹_›)); (first | assumption | apply modDev_rest | split)) | split | intro _

theorem lpddrDone_rest (s : State) (hs : Rest msk s0 s) (mdev : msk.dev = true := by assumption) : Rest msk s0 (lpddrDone s) := by
  unfold lpddrDone modDev
  try dsimp only
  with_reducible repeat' first | assumption | apply modDev_rest | (apply rest_mk; (iterate 7 (first | exact Or.inr rfl | exact Or.inl ‹_›)); (first | assumption | apply modDev_rest | split)) | split | intro _

theorem placeMirror_rest (s : State) (hs : Rest msk s0 s)  : Rest msk s0 (placeMirror s) := by
  unfold placeMirror
  try dsimp only
  with_reducible repeat' first | assumption | apply setShares_rest | (apply rest_mk; (iterate 7 (first | exact Or.inr rfl | exact Or.inl ‹_›)); (first | assumption | apply setShares_rest | split)) | split | intro _

theorem bootRun_rest (s : State) (hs : Rest msk s0 s) (mdev : msk.dev = true := by assumption) (mjrn : msk.jrn = true := by assumption) : Rest msk s0 (bootRun s) := by
  unfold bootRun modDev
  try dsimp only
  with_reducible repeat' first | assumption | apply modDev_rest | apply placeMirror_rest | apply raise_rest | apply verifyReport_rest | apply writeRec_rest | (apply rest_mk; (iterate 7 (first | exact Or.inr rfl | exact Or.inl ‹_›)); (first | assumption | apply modDev_rest | apply placeMirror_rest | apply raise_rest | apply verifyReport_rest | apply writeRec_rest | split)) | split | intro _

theorem watchdogReset_rest (span : Nat) (sA : State) (hsA : Rest msk s0 sA) (mtime : msk.time = true := by assumption) (mdev : msk.dev = true := by assumption) (mjrn : msk.jrn = true := by assumption) : Rest msk s0 (watchdogReset span sA) := by
  unfold watchdogReset modDev
  try dsimp only
  with_reducible repeat' first | assumption | apply advanceTo_rest | apply journalF_rest | apply modDev_rest | apply writeRec_rest | (apply rest_mk; (iterate 7 (first | exact Or.inr rfl | exact Or.inl ‹_›)); (first | assumption | apply advanceTo_rest | apply journalF_rest | apply modDev_rest | apply writeRec_rest | split)) | split | intro _

theorem romWatchdog_rest (s : State) (hs : Rest msk s0 s) (mtime : msk.time = true := by assumption) (mdev : msk.dev = true := by assumption) (mjrn : msk.jrn = true := by assumption) : Rest msk s0 (romWatchdog s) := by
  unfold romWatchdog
  split
  · exact watchdogReset_rest _ _ hs
  · exact hs

theorem initWatchdog_rest (s : State) (hs : Rest msk s0 s) (mtime : msk.time = true := by assumption) (mdev : msk.dev = true := by assumption) (mjrn : msk.jrn = true := by assumption) : Rest msk s0 (initWatchdog s) := by
  unfold initWatchdog
  split
  · exact watchdogReset_rest _ _ hs
  · exact hs

theorem bootUnconfirmed_rest (s : State) (hs : Rest msk s0 s) (mtime : msk.time = true := by assumption) (mdev : msk.dev = true := by assumption) : Rest msk s0 (bootUnconfirmed s) := by
  unfold bootUnconfirmed modDev
  try dsimp only
  with_reducible repeat' first | assumption | apply advanceTo_rest | apply modDev_rest | apply raise_rest | (apply rest_mk; (iterate 7 (first | exact Or.inr rfl | exact Or.inl ‹_›)); (first | assumption | apply advanceTo_rest | apply modDev_rest | apply raise_rest | split)) | split | intro _

theorem fwUpdateDone_rest (s : State) (hs : Rest msk s0 s) (mdev : msk.dev = true := by assumption) (mjrn : msk.jrn = true := by assumption) : Rest msk s0 (fwUpdateDone s) := by
  unfold fwUpdateDone modDev
  try dsimp only
  with_reducible repeat' first | assumption | apply complete_rest | apply deviceFault_rest | apply journal_rest | apply modDev_rest | apply raise_rest | apply writeRec_rest | (apply rest_mk; (iterate 7 (first | exact Or.inr rfl | exact Or.inl ‹_›)); (first | assumption | apply complete_rest | apply deviceFault_rest | apply journal_rest | apply modDev_rest | apply raise_rest | apply writeRec_rest | split)) | split | intro _

theorem latch_rest (s : State) (hs : Rest msk s0 s) (mtime : msk.time = true := by assumption) : Rest msk s0 (latch s) := by
  unfold latch
  try dsimp only
  with_reducible repeat' first | assumption | apply advanceTo_rest | apply setSpoke_rest | apply foldl_rest | (apply rest_mk; (iterate 7 (first | exact Or.inr rfl | exact Or.inl ‹_›)); (first | assumption | apply advanceTo_rest | apply setSpoke_rest | apply foldl_rest | split)) | split | intro _

theorem hubDump_rest (arrived : Bool) (s : State) (hs : Rest msk s0 s) (mtime : msk.time = true := by assumption) : Rest msk s0 (hubDump arrived s) := by
  unfold hubDump
  try dsimp only
  with_reducible repeat' first | assumption | apply advanceTo_rest | apply bar2Write_rest | apply emit_rest | apply raise_rest | apply raiseIf_rest | apply setSpoke_rest | apply foldl_rest | (apply rest_mk; (iterate 7 (first | exact Or.inr rfl | exact Or.inl ‹_›)); (first | assumption | apply advanceTo_rest | apply bar2Write_rest | apply emit_rest | apply raise_rest | apply raiseIf_rest | apply setSpoke_rest | apply foldl_rest | split)) | split | intro _

theorem hubMirrorErr_rest (s : State) (hs : Rest msk s0 s)  : Rest msk s0 (hubMirrorErr s) := by
  unfold hubMirrorErr
  try dsimp only
  with_reducible repeat' first | assumption | apply raise_rest | (apply rest_mk; (iterate 7 (first | exact Or.inr rfl | exact Or.inl ‹_›)); (first | assumption | apply raise_rest | split)) | split | intro _

theorem mirrorUpdate_rest (s : State) (hs : Rest msk s0 s)  : Rest msk s0 (mirrorUpdate s) := by
  unfold mirrorUpdate
  try dsimp only
  with_reducible repeat' first | assumption | apply bar2Write_rest | (apply rest_mk; (iterate 7 (first | exact Or.inr rfl | exact Or.inl ‹_›)); (first | assumption | apply bar2Write_rest | split)) | split | intro _

theorem runEffs_rest (t : Nat) (p : Eff → Bool) (f : Eff → State → State) (s : State) (hf : ∀ e u, Rest msk s0 u → Rest msk s0 (f e u)) (hs : Rest msk s0 s) (meff : msk.eff = true := by assumption) :
    Rest msk s0 (runEffs t p f s) :=
  foldl_rest _ _ (fun u e h => hf e u h) _ (by apply rest_mk; (iterate 7 (first | exact Or.inr rfl | exact Or.inl ‹_›)); exact hs)

theorem brokenPromise_rest (e : Eff) (s : State) (hs : Rest msk s0 s) (mjrn : msk.jrn = true := by assumption) : Rest msk s0 (brokenPromise e s) := by
  unfold brokenPromise
  try dsimp only
  with_reducible repeat' first | assumption | apply journal_rest | apply raise_rest | apply stpEvent_rest | (apply rest_mk; (iterate 7 (first | exact Or.inr rfl | exact Or.inl ‹_›)); (first | assumption | apply journal_rest | apply raise_rest | apply stpEvent_rest | split)) | split | intro _

theorem keepPromise_rest (f : Eff → State → State) (e : Eff) (s : State) (kf : ∀ a0 t, Rest msk s0 t → Rest msk s0 (f a0 t)) (hs : Rest msk s0 s) (mjrn : msk.jrn = true := by assumption) :
    Rest msk s0 (keepPromise f e s) := by
  unfold keepPromise
  split
  · exact kf _ _ hs
  · exact brokenPromise_rest _ _ (kf _ _ hs)

theorem beginCadence_rest (s : State) (hs : Rest msk s0 s) (mtime : msk.time = true := by assumption) : Rest msk s0 (beginCadence s) := by
  unfold beginCadence
  try dsimp only
  with_reducible repeat' first | assumption | apply advanceTo_rest | apply count_rest | (apply rest_mk; (iterate 7 (first | exact Or.inr rfl | exact Or.inl ‹_›)); (first | assumption | apply advanceTo_rest | apply count_rest | split)) | split | intro _

theorem frozenFrames_rest (s : State) (hs : Rest msk s0 s)  : Rest msk s0 (frozenFrames s) := by
  unfold frozenFrames
  try dsimp only
  with_reducible repeat' first | assumption | apply cadenceFrame_rest | apply forNat_rest | (apply rest_mk; (iterate 7 (first | exact Or.inr rfl | exact Or.inl ‹_›)); (first | assumption | apply cadenceFrame_rest | apply forNat_rest | split)) | split | intro _

theorem timeCadence_rest (s : State) (hs : Rest msk s0 s) (mtime : msk.time = true := by assumption) (mdev : msk.dev = true := by assumption) (mjrn : msk.jrn = true := by assumption) (meff : msk.eff = true := by assumption) : Rest msk s0 (timeCadence s) := by
  unfold timeCadence
  try dsimp only
  with_reducible repeat' first | assumption | apply gmCadence_rest | apply pelCadence_rest | apply pelStopEff_rest | apply runEffs_rest | apply setPlantEff_rest | apply slewCadence_rest | (apply rest_mk; (iterate 7 (first | exact Or.inr rfl | exact Or.inl ‹_›)); (first | assumption | apply gmCadence_rest | apply pelCadence_rest | apply pelStopEff_rest | apply runEffs_rest | apply setPlantEff_rest | apply slewCadence_rest | split)) | split | intro _

theorem conditionsCadence_rest (s : State) (hs : Rest msk s0 s) (mjrn : msk.jrn = true := by assumption) : Rest msk s0 (conditionsCadence s) := by
  unfold conditionsCadence
  try dsimp only
  with_reducible repeat' first | assumption | apply axisConditions_rest | apply driveFault_rest | apply forNat_rest | apply groupConditions_rest | apply modAxis_rest | (apply rest_mk; (iterate 7 (first | exact Or.inr rfl | exact Or.inl ‹_›)); (first | assumption | apply axisConditions_rest | apply driveFault_rest | apply forNat_rest | apply groupConditions_rest | apply modAxis_rest | split)) | split | intro _

theorem faultsCadence_rest (s : State) (hs : Rest msk s0 s) (mjrn : msk.jrn = true := by assumption) : Rest msk s0 (faultsCadence s) := by
  unfold faultsCadence
  try dsimp only
  with_reducible repeat' first | assumption | apply faultAxis_rest | apply faultGroup_rest | apply forNat_rest | apply modAxis_rest | apply modGrp_rest | apply ungroupedFaultStop_rest | (apply rest_mk; (iterate 7 (first | exact Or.inr rfl | exact Or.inl ‹_›)); (first | assumption | apply faultAxis_rest | apply faultGroup_rest | apply forNat_rest | apply modAxis_rest | apply modGrp_rest | apply ungroupedFaultStop_rest | split)) | split | intro _

theorem takeAxisStops_rest (a : Nat) (s : State) (hs : Rest msk s0 s) (mdev : msk.dev = true := by assumption) : Rest msk s0 (takeAxisStops a s) := by
  unfold takeAxisStops
  try dsimp only
  with_reducible repeat' first | assumption | apply modAxis_rest | apply stopAxis_rest | apply stopInj_rest | apply foldl_rest | (apply rest_mk; (iterate 7 (first | exact Or.inr rfl | exact Or.inl ‹_›)); (first | assumption | apply modAxis_rest | apply stopAxis_rest | apply stopInj_rest | apply foldl_rest | split)) | split | intro _

theorem takeGroupStops_rest (g : Nat) (s : State) (hs : Rest msk s0 s) (mdev : msk.dev = true := by assumption) (mjrn : msk.jrn = true := by assumption) : Rest msk s0 (takeGroupStops g s) := by
  unfold takeGroupStops
  try dsimp only
  with_reducible repeat' first | assumption | apply forNat_rest | apply stopInj_rest | apply takeStops_rest | (apply rest_mk; (iterate 7 (first | exact Or.inr rfl | exact Or.inl ‹_›)); (first | assumption | apply forNat_rest | apply stopInj_rest | apply takeStops_rest | split)) | split | intro _

theorem stopsCadence_rest (s : State) (hs : Rest msk s0 s) (mdev : msk.dev = true := by assumption) (mjrn : msk.jrn = true := by assumption) (meff : msk.eff = true := by assumption) : Rest msk s0 (stopsCadence s) := by
  unfold stopsCadence
  try dsimp only
  with_reducible repeat' first | assumption | apply forNat_rest | apply runEffs_rest | apply stopAxis_rest | apply stopGroup_rest | apply stopInj_rest | apply takeAxisStops_rest | apply takeGroupStops_rest | (apply rest_mk; (iterate 7 (first | exact Or.inr rfl | exact Or.inl ‹_›)); (first | assumption | apply forNat_rest | apply runEffs_rest | apply stopAxis_rest | apply stopGroup_rest | apply stopInj_rest | apply takeAxisStops_rest | apply takeGroupStops_rest | split)) | split | intro _

theorem limitsFollow_rest (a : Nat) (s : State) (hs : Rest msk s0 s)  : Rest msk s0 (limitsFollow a s) := by
  unfold limitsFollow
  try dsimp only
  with_reducible repeat' first | assumption | apply forNat_rest | apply modAxis_rest | apply replanMoves_rest | (apply rest_mk; (iterate 7 (first | exact Or.inr rfl | exact Or.inl ‹_›)); (first | assumption | apply forNat_rest | apply modAxis_rest | apply replanMoves_rest | split)) | split | intro _

theorem limitsEff_rest (e : Eff) (s : State) (hs : Rest msk s0 s)  : Rest msk s0 (limitsEff e s) := by
  unfold limitsEff
  try dsimp only
  with_reducible repeat' first | assumption | apply axisEff_rest | apply limitsFollow_rest | (apply rest_mk; (iterate 7 (first | exact Or.inr rfl | exact Or.inl ‹_›)); (first | assumption | apply axisEff_rest | apply limitsFollow_rest | split)) | split | intro _

theorem limitsTakeover_rest (a : Nat) (s : State) (hs : Rest msk s0 s) (mjrn : msk.jrn = true := by assumption) : Rest msk s0 (limitsTakeover a s) := by
  unfold limitsTakeover
  try dsimp only
  with_reducible repeat' first | assumption | apply deferredLimits_rest | apply limitsFollow_rest | (apply rest_mk; (iterate 7 (first | exact Or.inr rfl | exact Or.inl ‹_›)); (first | assumption | apply deferredLimits_rest | apply limitsFollow_rest | split)) | split | intro _

theorem writesCadence_rest (s : State) (hs : Rest msk s0 s) (meff : msk.eff = true := by assumption) : Rest msk s0 (writesCadence s) := by
  unfold writesCadence
  try dsimp only
  with_reducible repeat' first | assumption | apply limitsEff_rest | apply loopEff_rest | apply runEffs_rest | (apply rest_mk; (iterate 7 (first | exact Or.inr rfl | exact Or.inl ‹_›)); (first | assumption | apply limitsEff_rest | apply loopEff_rest | apply runEffs_rest | split)) | split | intro _

theorem stateEff_rest (e : Eff) (s : State) (hs : Rest msk s0 s) (mtime : msk.time = true := by assumption) (mdev : msk.dev = true := by assumption) (meff : msk.eff = true := by assumption) : Rest msk s0 (stateEff e s) := by
  unfold stateEff
  try dsimp only
  with_reducible repeat' first | assumption | apply axisEff_rest | apply busEff_rest | apply flowLimitEff_rest | apply grpClearEff_rest | apply grpConfigureEff_rest | apply grpDisableEff_rest | apply grpEnableEff_rest | apply injectStopEff_rest | apply ioReenableEff_rest | apply ioReleaseEff_rest | apply ioStoResetEff_rest | apply qpAssignEff_rest | apply sigWatchEff_rest | apply sigWriteEff_rest | apply traceArmEff_rest | apply traceStopEff_rest | (apply rest_mk; (iterate 7 (first | exact Or.inr rfl | exact Or.inl ‹_›)); (first | assumption | apply axisEff_rest | apply busEff_rest | apply flowLimitEff_rest | apply grpClearEff_rest | apply grpConfigureEff_rest | apply grpDisableEff_rest | apply grpEnableEff_rest | apply injectStopEff_rest | apply ioReenableEff_rest | apply ioReleaseEff_rest | apply ioStoResetEff_rest | apply qpAssignEff_rest | apply sigWatchEff_rest | apply sigWriteEff_rest | apply traceArmEff_rest | apply traceStopEff_rest | split)) | split | intro _

theorem motionEff_rest (e : Eff) (s : State) (hs : Rest msk s0 s) (mdev : msk.dev = true := by assumption) (mjrn : msk.jrn = true := by assumption) : Rest msk s0 (motionEff e s) := by
  unfold motionEff
  try dsimp only
  with_reducible repeat' first | assumption | apply axisEff_rest | apply detachStrm_rest | apply grpHomeEff_rest | apply grpResumeEff_rest | apply keepPromise_rest | apply moveEff_rest | apply strmAnchorEff_rest | (apply rest_mk; (iterate 7 (first | exact Or.inr rfl | exact Or.inl ‹_›)); (first | assumption | apply axisEff_rest | apply detachStrm_rest | apply grpHomeEff_rest | apply grpResumeEff_rest | apply keepPromise_rest | apply moveEff_rest | apply strmAnchorEff_rest | split)) | split | intro _

theorem eventsCadence_rest (s : State) (hs : Rest msk s0 s) (mtime : msk.time = true := by assumption) (mdev : msk.dev = true := by assumption) (mjrn : msk.jrn = true := by assumption) (meff : msk.eff = true := by assumption) : Rest msk s0 (eventsCadence s) := by
  unfold eventsCadence
  try dsimp only
  with_reducible repeat' first | assumption | apply conditionsCadence_rest | apply faultsCadence_rest | apply forNat_rest | apply grpHoldEff_rest | apply homeCadence_rest | apply keepPromise_rest | apply limitsTakeover_rest | apply loopEff_rest | apply motionEff_rest | apply poseMoves_rest | apply runEffs_rest | apply stateEff_rest | apply stopsCadence_rest | apply strmTakes_rest | apply writesCadence_rest | (apply rest_mk; (iterate 7 (first | exact Or.inr rfl | exact Or.inl ‹_›)); (first | assumption | apply conditionsCadence_rest | apply faultsCadence_rest | apply forNat_rest | apply grpHoldEff_rest | apply homeCadence_rest | apply keepPromise_rest | apply limitsTakeover_rest | apply loopEff_rest | apply motionEff_rest | apply poseMoves_rest | apply runEffs_rest | apply stateEff_rest | apply stopsCadence_rest | apply strmTakes_rest | apply writesCadence_rest | split)) | split | intro _

theorem outputsCadence_rest (s : State) (hs : Rest msk s0 s) (mdev : msk.dev = true := by assumption) (mjrn : msk.jrn = true := by assumption) (meff : msk.eff = true := by assumption) : Rest msk s0 (outputsCadence s) := by
  unfold outputsCadence
  try dsimp only
  with_reducible repeat' first | assumption | apply busCadence_rest | apply ioCadence_rest | apply keepPromise_rest | apply runEffs_rest | apply stpCadence_rest | apply stpEff_rest | (apply rest_mk; (iterate 7 (first | exact Or.inr rfl | exact Or.inl ‹_›)); (first | assumption | apply busCadence_rest | apply ioCadence_rest | apply keepPromise_rest | apply runEffs_rest | apply stpCadence_rest | apply stpEff_rest | split)) | split | intro _

theorem cadenceStart_rest (s : State) (hs : Rest msk s0 s) (mtime : msk.time = true := by assumption) (mdev : msk.dev = true := by assumption) (mjrn : msk.jrn = true := by assumption) (mxl : msk.xl = true := by assumption) (meff : msk.eff = true := by assumption) : Rest msk s0 (cadenceStart s) := by
  unfold cadenceStart
  try dsimp only
  with_reducible repeat' first | assumption | apply beginCadence_rest | apply eventsCadence_rest | apply frozenFrames_rest | apply injCadence_rest | apply outputsCadence_rest | apply timeCadence_rest | (apply rest_mk; (iterate 7 (first | exact Or.inr rfl | exact Or.inl ‹_›)); (first | assumption | apply beginCadence_rest | apply eventsCadence_rest | apply frozenFrames_rest | apply injCadence_rest | apply outputsCadence_rest | apply timeCadence_rest | split)) | split | intro _

theorem groupCutoff_rest (g : Nat) (s : State) (hs : Rest msk s0 s)  : Rest msk s0 (groupCutoff g s) := by
  unfold groupCutoff
  try dsimp only
  with_reducible repeat' first | assumption | apply count_rest | apply interpolate_rest | apply lamCadence_rest | apply modGrp_rest | apply startMoves_rest | apply strmClock_rest | apply strmStep_rest | (apply rest_mk; (iterate 7 (first | exact Or.inr rfl | exact Or.inl ‹_›)); (first | assumption | apply count_rest | apply interpolate_rest | apply lamCadence_rest | apply modGrp_rest | apply startMoves_rest | apply strmClock_rest | apply strmStep_rest | split)) | split | intro _

theorem generate_rest (s : State) (hs : Rest msk s0 s)  : Rest msk s0 (generate s) := by
  unfold generate
  try dsimp only
  with_reducible repeat' first | assumption | apply count_rest | apply countZero_rest | apply feedMembers_rest | apply forNat_rest | apply genStep_rest | apply groupCutoff_rest | apply slavesFollow_rest | (apply rest_mk; (iterate 7 (first | exact Or.inr rfl | exact Or.inl ‹_›)); (first | assumption | apply count_rest | apply countZero_rest | apply feedMembers_rest | apply forNat_rest | apply genStep_rest | apply groupCutoff_rest | apply slavesFollow_rest | split)) | split | intro _

theorem planSnapshot_rest (s : State) (hs : Rest msk s0 s) (mjrn : msk.jrn = true := by assumption) (meff : msk.eff = true := by assumption) : Rest msk s0 (planSnapshot s) := by
  unfold planSnapshot
  try dsimp only
  with_reducible repeat' first | assumption | apply grpSnapshot_rest | apply obstacleSnapshot_rest | apply qpSnapshot_rest | (apply rest_mk; (iterate 7 (first | exact Or.inr rfl | exact Or.inl ‹_›)); (first | assumption | apply grpSnapshot_rest | apply obstacleSnapshot_rest | apply qpSnapshot_rest | split)) | split | intro _

theorem initLoop_rest (a : Nat) (s : State) (hs : Rest msk s0 s)  : Rest msk s0 (initLoop a s) := by
  unfold initLoop
  try dsimp only
  with_reducible repeat' first | assumption | apply setAxis_rest | (apply rest_mk; (iterate 7 (first | exact Or.inr rfl | exact Or.inl ‹_›)); (first | assumption | apply setAxis_rest | split)) | split | intro _

theorem feedbackCutoff_rest (s : State) (hs : Rest msk s0 s) (mtime : msk.time = true := by assumption) (mjrn : msk.jrn = true := by assumption) (mxl : msk.xl = true := by assumption) (meff : msk.eff = true := by assumption) : Rest msk s0 (feedbackCutoff s) := by
  unfold feedbackCutoff
  split
  · exact hs
  extract_lets s1 s2 s3
  have h1 : Rest msk s0 s1 := planSnapshot_rest _ (generate_rest _ (advanceTo_rest _ _ hs))
  clear_value s1
  have h2 : Rest msk s0 s2 := freewheel_rest _ (guardSnapshot_rest _ (freewheel2_rest _ h1))
  clear_value s2
  have h3 : Rest msk s0 s3 := forNat_rest _ _ _ (fun a t ht => initLoop_rest _ _ ht) h2
  clear_value s3
  apply rest_mk; (iterate 7 (first | exact Or.inr rfl | exact Or.inl ‹_›)); exact h3

theorem loopCounts_rest (a : Nat) (l : LoopSt) (m : Marks) (inj : Bool) (s : State) (hs : Rest msk s0 s)  : Rest msk s0 (loopCounts a l m inj s) := by
  unfold loopCounts
  try dsimp only
  with_reducible repeat' first | assumption | apply addBusy_rest | apply count_rest | apply tileMarks_rest | (apply rest_mk; (iterate 7 (first | exact Or.inr rfl | exact Or.inl ‹_›)); (first | assumption | apply addBusy_rest | apply count_rest | apply tileMarks_rest | split)) | split | intro _

theorem loopCompute_rest (a : Nat) (s : State) (hs : Rest msk s0 s)  : Rest msk s0 (loopCompute a s) := by
  unfold loopCompute
  try dsimp only
  with_reducible repeat' first | assumption | apply injAdvance_rest | apply injValue_rest | apply loopCounts_rest | apply raiseIf_rest | apply setAxis_rest | (apply rest_mk; (iterate 7 (first | exact Or.inr rfl | exact Or.inl ‹_›)); (first | assumption | apply injAdvance_rest | apply injValue_rest | apply loopCounts_rest | apply raiseIf_rest | apply setAxis_rest | split)) | split | intro _

theorem followCheck_rest (a : Nat) (s : State) (hs : Rest msk s0 s)  : Rest msk s0 (followCheck a s) := by
  unfold followCheck
  try dsimp only
  with_reducible repeat' first | assumption | apply modAxis_rest | apply raiseIf_rest | apply reqFault_rest | (apply rest_mk; (iterate 7 (first | exact Or.inr rfl | exact Or.inl ‹_›)); (first | assumption | apply modAxis_rest | apply raiseIf_rest | apply reqFault_rest | split)) | split | intro _

theorem skewCheck_rest (g : Nat) (s : State) (hs : Rest msk s0 s)  : Rest msk s0 (skewCheck g s) := by
  unfold skewCheck
  try dsimp only
  with_reducible repeat' first | assumption | apply forNat_rest | apply reqFault_rest | (apply rest_mk; (iterate 7 (first | exact Or.inr rfl | exact Or.inl ‹_›)); (first | assumption | apply forNat_rest | apply reqFault_rest | split)) | split | intro _

theorem checksCompute_rest (s : State) (hs : Rest msk s0 s)  : Rest msk s0 (checksCompute s) := by
  unfold checksCompute
  try dsimp only
  with_reducible repeat' first | assumption | apply badInput_rest | apply followCheck_rest | apply forNat_rest | apply limitStop_rest | apply skewCheck_rest | (apply rest_mk; (iterate 7 (first | exact Or.inr rfl | exact Or.inl ‹_›)); (first | assumption | apply badInput_rest | apply followCheck_rest | apply forNat_rest | apply limitStop_rest | apply skewCheck_rest | split)) | split | intro _

theorem computeEnd_rest (s : State) (hs : Rest msk s0 s) (mtime : msk.time = true := by assumption) (mjrn : msk.jrn = true := by assumption) : Rest msk s0 (computeEnd s) := by
  unfold computeEnd
  split
  · exact hs
  extract_lets c1 s1 s2 s3 s4
  have h1 : Rest msk s0 s1 := advanceTo_rest _ _ hs
  clear_value s1
  have h2 : Rest msk s0 s2 := checksCompute_rest _ (forNat_rest _ _ _ (fun a t ht => loopCompute_rest _ _ ht) h1)
  clear_value s2
  have h3 : Rest msk s0 s3 := stpCompute_rest _ _ _ (buildImage_rest _ _ (sendActions_rest _ (forNat_rest _ _ _ (fun n t ht => stpLimitStop_rest _ _ _ ht) h2)))
  clear_value s3
  have h4 : Rest msk s0 s4 := resumeFft_rest _ (traceCadence_rest _ (mirrorUpdate_rest _ (sigUpdate_rest _ h3)))
  clear_value s4
  apply rest_mk; (iterate 7 (first | exact Or.inr rfl | exact Or.inl ‹_›)); exact h4

theorem planningBoundary_rest (s : State) (hs : Rest msk s0 s) (mjrn : msk.jrn = true := by assumption) (meff : msk.eff = true := by assumption) : Rest msk s0 (planningBoundary s) := by
  unfold planningBoundary
  extract_lets b s1 s2 s3
  split
  · exact hs
  have h1 : Rest msk s0 s1 := runEffs_rest _ _ _ _ (fun e u hu => setPayloadEff_rest _ _ hu) (clearLanes_rest _ (replaceLanes_rest _ hs))
  clear_value s1
  have h2 : Rest msk s0 s2 := forNat_rest _ _ _ (fun g t ht => laHold_rest _ _ ht) (forNat_rest _ _ _ (fun g t ht => qpBoundary_rest _ _ _ ht) h1)
  clear_value s2
  have h3 : Rest msk s0 s3 := zoneBoundary_rest _ _ h2
  clear_value s3
  apply rest_mk; (iterate 7 (first | exact Or.inr rfl | exact Or.inl ‹_›)); exact h3

theorem verdictDeadline_rest (s : State) (hs : Rest msk s0 s) (mjrn : msk.jrn = true := by assumption) : Rest msk s0 (verdictDeadline s) := by
  unfold verdictDeadline
  try dsimp only
  with_reducible repeat' first | assumption | apply forNat_rest | apply replan_rest | apply sepSignals_rest | apply verdict_rest | (apply rest_mk; (iterate 7 (first | exact Or.inr rfl | exact Or.inl ‹_›)); (first | assumption | apply forNat_rest | apply replan_rest | apply sepSignals_rest | apply verdict_rest | split)) | split | intro _

theorem busyLatch_rest (s : State) (hs : Rest msk s0 s)  : Rest msk s0 (busyLatch s) := by
  unfold busyLatch
  try dsimp only
  with_reducible repeat' first | assumption | apply addBusy_rest | apply forNat_rest | apply roundStart_rest | (apply rest_mk; (iterate 7 (first | exact Or.inr rfl | exact Or.inl ‹_›)); (first | assumption | apply addBusy_rest | apply forNat_rest | apply roundStart_rest | split)) | split | intro _

theorem roundStart_rest (s : State) (hs : Rest msk s0 s) (mtime : msk.time = true := by assumption) (mdev : msk.dev = true := by assumption) (mjrn : msk.jrn = true := by assumption) (meff : msk.eff = true := by assumption) : Rest msk s0 (roundStart s) := by
  unfold roundStart
  split
  · exact hs
  split
  · exact hs
  extract_lets first s1 s2 s3 sch s4
  have h2 : Rest msk s0 s2 := pelRound_rest _ (busRound_rest _ _ (advanceTo_rest _ _ hs))
  clear_value s2 s1
  have h3 : Rest msk s0 s3 := runEffs_rest _ _ _ _ (fun e u hu => sigMapEff_rest _ _ hu) (runEffs_rest _ _ _ _ (fun e u hu => sensorEff_rest _ _ hu) h2)
  clear_value s3
  have h4 : Rest msk s0 s4 := by
    simp only [s4]; split
    · apply rest_mk; (iterate 7 (first | exact Or.inr rfl | exact Or.inl ‹_›)); exact h3
    · exact busyLatch_rest _ h3
  clear_value s4
  apply rest_mk; (iterate 7 (first | exact Or.inr rfl | exact Or.inl ‹_›)); exact h4

theorem actionAct_rest (a : Armed) (s : State) (hs : Rest msk s0 s)  : Rest msk s0 (actionAct a s) := by
  unfold actionAct
  try dsimp only
  with_reducible repeat' first | assumption | apply drivePin_rest | apply forNat_rest | apply trigger_rest | apply writeCh_rest | (apply rest_mk; (iterate 7 (first | exact Or.inr rfl | exact Or.inl ‹_›)); (first | assumption | apply drivePin_rest | apply forNat_rest | apply trigger_rest | apply writeCh_rest | split)) | split | intro _

theorem timedActionFire_rest (u : Nat) (s : State) (hs : Rest msk s0 s) (mtime : msk.time = true := by assumption) (mjrn : msk.jrn = true := by assumption) : Rest msk s0 (timedActionFire u s) := by
  unfold timedActionFire
  try dsimp only
  with_reducible repeat' first | assumption | apply actionAct_rest | apply fireUnit_rest | apply triggerDropped_rest | (apply rest_mk; (iterate 7 (first | exact Or.inr rfl | exact Or.inl ‹_›)); (first | assumption | apply actionAct_rest | apply fireUnit_rest | apply triggerDropped_rest | split)) | split | intro _

theorem missRecord_rest (k type obj dl : Nat) (s : State) (hs : Rest msk s0 s) (mjrn : msk.jrn = true := by assumption) : Rest msk s0 (missRecord k type obj dl s) := by
  unfold missRecord
  try dsimp only
  with_reducible repeat' first | assumption | apply count_rest | apply journal_rest | apply raise_rest | apply setCls_rest | (apply rest_mk; (iterate 7 (first | exact Or.inr rfl | exact Or.inl ‹_›)); (first | assumption | apply count_rest | apply journal_rest | apply raise_rest | apply setCls_rest | split)) | split | intro _

theorem endMissed_rest (g j : Nat) (s : State) (hs : Rest msk s0 s)  : Rest msk s0 (endMissed g j s) := by
  unfold endMissed
  try dsimp only
  with_reducible repeat' first | assumption | apply modQp_rest | apply modScen_rest | (apply rest_mk; (iterate 7 (first | exact Or.inr rfl | exact Or.inl ‹_›)); (first | assumption | apply modQp_rest | apply modScen_rest | split)) | split | intro _

theorem selectionMissed_rest (g : Nat) (s : State) (hs : Rest msk s0 s) (mjrn : msk.jrn = true := by assumption) : Rest msk s0 (selectionMissed g s) := by
  unfold selectionMissed
  try dsimp only
  with_reducible repeat' first | assumption | apply fallenBack_rest | apply modGrp_rest | apply modQp_rest | (apply rest_mk; (iterate 7 (first | exact Or.inr rfl | exact Or.inl ‹_›)); (first | assumption | apply fallenBack_rest | apply modGrp_rest | apply modQp_rest | split)) | split | intro _

theorem missConsequence_rest (type obj : Nat) (s : State) (hs : Rest msk s0 s) (mjrn : msk.jrn = true := by assumption) : Rest msk s0 (missConsequence type obj s) := by
  unfold missConsequence
  try dsimp only
  with_reducible repeat' first | assumption | apply endMissed_rest | apply forNat_rest | apply modAxis_rest | apply modGrp_rest | apply selectionMissed_rest | (apply rest_mk; (iterate 7 (first | exact Or.inr rfl | exact Or.inl ‹_›)); (first | assumption | apply endMissed_rest | apply forNat_rest | apply modAxis_rest | apply modGrp_rest | apply selectionMissed_rest | split)) | split | intro _

theorem abandonWaiting_rest (k f : Nat) (t : Task) (s : State) (hs : Rest msk s0 s)  : Rest msk s0 (abandonWaiting k f t s) := by
  unfold abandonWaiting
  try dsimp only
  with_reducible repeat' first | assumption | apply flowNext_rest | apply setCls_rest | apply setFlow_rest | (apply rest_mk; (iterate 7 (first | exact Or.inr rfl | exact Or.inl ‹_›)); (first | assumption | apply flowNext_rest | apply setCls_rest | apply setFlow_rest | split)) | split | intro _

theorem deadlineMiss_rest (k f : Nat) (s : State) (hs : Rest msk s0 s) (mtime : msk.time = true := by assumption) (mjrn : msk.jrn = true := by assumption) : Rest msk s0 (deadlineMiss k f s) := by
  unfold deadlineMiss
  split
  · exact hs
  split
  · rename_i t u _
    extract_lets dl s1 s2
    have h1 : Rest msk s0 s1 := advanceTo_rest _ _ hs
    clear_value s1
    refine missConsequence_rest _ _ _ (missRecord_rest _ _ _ _ _ ?_)
    simp only [s2]
    split
    · exact taskEnd_rest _ _ _ h1
    · exact abandonWaiting_rest _ _ _ _ h1
  · split
    · exact hs
    split
    · exact qpDeadline_rest _ _ _ hs
    split
    · exact hs
    · exact missConsequence_rest _ _ _ (missRecord_rest _ _ _ _ _ (advanceTo_rest _ _ hs))

theorem badOpcode_rest (r : CmdRef) (s : State) (hs : Rest msk s0 s) (mdev : msk.dev = true := by assumption) : Rest msk s0 (badOpcode r s) := by
  unfold badOpcode
  try dsimp only
  with_reducible repeat' first | assumption | apply complete_rest | apply deviceFault_rest | (apply rest_mk; (iterate 7 (first | exact Or.inr rfl | exact Or.inl ‹_›)); (first | assumption | apply complete_rest | apply deviceFault_rest | split)) | split | intro _

end Sys2Proof.Machine
end

