-- ==== Sys2Proof/Laws/RestExec.lean ====
section
/-!
SUPPORT. `Rest` for every row of the table that is no mailbox command, no reset and no replay of a command image.
-/
namespace Sys2Proof.Machine

set_option Elab.async false
set_option linter.all false

/-- The islands of the device that a row may change. -/
def restOf (i : Instr) : MaskR where
  time := changesTime i
  dev := changesDevice i
  jrn := changesJournal i
  xl := changesCrosslink i
  eff := changesEffects i
  tilesOut := changesUnits i
  lanesOut := changesUnits i

theorem execCommandNoCredit_rest (m : Fin 8) (k : Fin 32) (s t : State) (h : exec (.commandNoCredit m k) s = .next t) : Rest (restOf (.commandNoCredit m k)) s t := by
  obtain rfl : (noCredit m.val k.val s) = t := Host.Outcome.next.inj h
  repeat' first | with_reducible exact .refl _ _ | exact rfl | apply noCredit_rest
theorem execMbDoneClear_rest (m : Fin 8) (w : Word) (s t : State) (h : exec (.mbDoneClear m w) s = .next t) : Rest (restOf (.mbDoneClear m w)) s t := by
  obtain rfl : (mbDoneWrite m.val w s) = t := Host.Outcome.next.inj h
  repeat' first | with_reducible exact .refl _ _ | exact rfl | apply mbDoneWrite_rest
theorem execMbStatClear_rest (m : Fin 8) (w : Word) (s t : State) (h : exec (.mbStatClear m w) s = .next t) : Rest (restOf (.mbStatClear m w)) s t := by
  obtain rfl : (mbStatWrite m.val w s) = t := Host.Outcome.next.inj h
  repeat' first | with_reducible exact .refl _ _ | exact rfl | apply mbStatWrite_rest
theorem execCommandBufferWrite_rest (m : Fin 8) (k : Fin 32) (off : BitVec 12) (b : List Byte) (s t : State) (h : exec (.commandBufferWrite m k off b) s = .next t) : Rest (restOf (.commandBufferWrite m k off b)) s t := by
  obtain rfl : (bar2HostWrite (cmdBuf m.val k.val + off.toNat) b s) = t := Host.Outcome.next.inj h
  repeat' first | with_reducible exact .refl _ _ | exact rfl | apply bar2HostWrite_rest
theorem execEvtPendClear_rest (i : Fin 4) (w : Word) (again : Word) (s t : State) (h : exec (.evtPendClear i w again) s = .next t) : Rest (restOf (.evtPendClear i w again)) s t := by
  obtain rfl : (evtPendWrite i.val w again s) = t := Host.Outcome.next.inj h
  repeat' first | with_reducible exact .refl _ _ | exact rfl | apply evtPendWrite_rest
theorem execEvtLostClear_rest (i : Fin 4) (w : Word) (s t : State) (h : exec (.evtLostClear i w) s = .next t) : Rest (restOf (.evtLostClear i w)) s t := by
  obtain rfl : (evtLostWrite i.val w s) = t := Host.Outcome.next.inj h
  repeat' first | with_reducible exact .refl _ _ | exact rfl | apply evtLostWrite_rest
theorem execEvtMaskWrite_rest (i : Fin 4) (w : Word) (s t : State) (h : exec (.evtMaskWrite i w) s = .next t) : Rest (restOf (.evtMaskWrite i w)) s t := by
  obtain rfl : (evtMaskWrite i.val w s) = t := Host.Outcome.next.inj h
  repeat' first | with_reducible exact .refl _ _ | exact rfl | apply evtMaskWrite_rest
theorem execEvtMapWrite_rest (i : Fin 32) (w : Word) (s t : State) (h : exec (.evtMapWrite i w) s = .next t) : Rest (restOf (.evtMapWrite i w)) s t := by
  obtain rfl : (evtMapWrite i.val w s) = t := Host.Outcome.next.inj h
  repeat' first | with_reducible exact .refl _ _ | exact rfl | apply evtMapWrite_rest
theorem execTimeLoRead_rest (wide : Bool) (s t : State) (h : exec (.timeLoRead wide) s = .next t) : Rest (restOf (.timeLoRead wide)) s t := by
  obtain rfl : (timeLo wide s) = t := Host.Outcome.next.inj h
  repeat' first | with_reducible exact .refl _ _ | exact rfl | apply timeLo_rest
theorem execTimeLatch_rest (w : Word) (s t : State) (h : exec (.timeLatch w) s = .next t) : Rest (restOf (.timeLatch w)) s t := by
  obtain rfl : (timeLatchWrite w s) = t := Host.Outcome.next.inj h
  repeat' first | with_reducible exact .refl _ _ | exact rfl | apply timeLatchWrite_rest
theorem execHubCtlWrite_rest (w : Word) (s t : State) (h : exec (.hubCtlWrite w) s = .next t) : Rest (restOf (.hubCtlWrite w)) s t := by
  obtain rfl : (hubCtl w s) = t := Host.Outcome.next.inj h
  repeat' first | with_reducible exact .refl _ _ | exact rfl | apply hubCtl_rest
theorem execHubPeriodWrite_rest (w : Word) (s t : State) (h : exec (.hubPeriodWrite w) s = .next t) : Rest (restOf (.hubPeriodWrite w)) s t := by
  obtain rfl : (hubPeriod w s) = t := Host.Outcome.next.inj h
  repeat' first | with_reducible exact .refl _ _ | exact rfl | apply hubPeriod_rest
theorem execHubRdWrite_rest (w : Word) (s t : State) (h : exec (.hubRdWrite w) s = .next t) : Rest (restOf (.hubRdWrite w)) s t := by
  obtain rfl : (hubRd w s) = t := Host.Outcome.next.inj h
  repeat' first | with_reducible exact .refl _ _ | exact rfl | apply hubRd_rest
theorem execHubMirrorWrite_rest (hi : Bool) (w : Word) (s t : State) (h : exec (.hubMirrorWrite hi w) s = .next t) : Rest (restOf (.hubMirrorWrite hi w)) s t := by
  obtain rfl : (hubMirror hi w s) = t := Host.Outcome.next.inj h
  repeat' first | with_reducible exact .refl _ _ | exact rfl | apply hubMirror_rest
theorem execUsrGrantWrite_rest (w : Word) (s t : State) (h : exec (.usrGrantWrite w) s = .next t) : Rest (restOf (.usrGrantWrite w)) s t := by
  obtain rfl : (usrGrant w s) = t := Host.Outcome.next.inj h
  repeat' first | with_reducible exact .refl _ _ | exact rfl | apply usrGrant_rest
theorem execUsrCtlWrite_rest (w : Word) (s t : State) (h : exec (.usrCtlWrite w) s = .next t) : Rest (restOf (.usrCtlWrite w)) s t := by
  obtain rfl : (usrCtl w s) = t := Host.Outcome.next.inj h
  repeat' first | with_reducible exact .refl _ _ | exact rfl | apply usrCtl_rest
theorem execUsrWinWrite_rest (w : Word) (s t : State) (h : exec (.usrWinWrite w) s = .next t) : Rest (restOf (.usrWinWrite w)) s t := by
  obtain rfl : (usrWin w s) = t := Host.Outcome.next.inj h
  repeat' first | with_reducible exact .refl _ _ | exact rfl | apply usrWin_rest
theorem execStreamProdWrite_rest (k : Fin 8) (w : Word) (recs : List Byte) (s t : State) (h : exec (.streamProdWrite k w recs) s = .next t) : Rest (restOf (.streamProdWrite k w recs)) s t := by
  obtain rfl : (prodWrite k.val w (hostRing k.val recs s)) = t := Host.Outcome.next.inj h
  repeat' first | with_reducible exact .refl _ _ | exact rfl | apply prodWrite_rest | apply hostRing_rest
theorem execRegisterWrite_rest (bar : Bar) (off : BitVec 32) (b : List Byte) (s t : State) (h : exec (.registerWrite bar off b) s = .next t) : Rest (restOf (.registerWrite bar off b)) s t := by
  have h' : execRegisterWrite bar off b s = .next t := h
  unfold execRegisterWrite at h'
  by_cases q : barSize bar < off.toNat + b.length
  · rw [if_pos q] at h'; cases h'
  · rw [if_neg q] at h'
    obtain rfl : registerWrite bar off.toNat b s = t := Host.Outcome.next.inj h'
    exact registerWrite_rest _ _ _ _ (.refl _ _) (mtime := rfl)
theorem execPorstNRelease_rest (bootsel : BitVec 2) (stnaddr : BitVec 5) (s t : State) (h : exec (.porstNRelease bootsel stnaddr) s = .next t) : Rest (restOf (.porstNRelease bootsel stnaddr)) s t := by
  obtain rfl : (porstRelease bootsel stnaddr s) = t := Host.Outcome.next.inj h
  repeat' first | with_reducible exact .refl _ _ | exact rfl | apply porstRelease_rest
theorem execPfailNAssert_rest  (s t : State) (h : exec .pfailNAssert s = .next t) : Rest (restOf .pfailNAssert) s t := by
  obtain rfl : (pfailAssert s) = t := Host.Outcome.next.inj h
  repeat' first | with_reducible exact .refl _ _ | exact rfl | apply pfailAssert_rest
theorem execPfailNRelease_rest  (s t : State) (h : exec .pfailNRelease s = .next t) : Rest (restOf .pfailNRelease) s t := by
  obtain rfl : (pfailRelease s) = t := Host.Outcome.next.inj h
  repeat' first | with_reducible exact .refl _ _ | exact rfl | apply pfailRelease_rest
theorem execPwrWarn_rest (rail : Rail) (s t : State) (h : exec (.pwrWarn rail) s = .next t) : Rest (restOf (.pwrWarn rail)) s t := by
  obtain rfl : (pwrWarn rail s) = t := Host.Outcome.next.inj h
  repeat' first | with_reducible exact .refl _ _ | exact rfl | apply pwrWarn_rest
theorem execRailResetRelease_rest (rail : Rail) (s t : State) (h : exec (.railResetRelease rail) s = .next t) : Rest (restOf (.railResetRelease rail)) s t := by
  obtain rfl : (modDev (fun d => { d with held := d.held.filter (· ≠ rail) }) s) = t := Host.Outcome.next.inj h
  repeat' first | with_reducible exact .refl _ _ | exact rfl | apply modDev_rest
theorem execThermWarn_rest  (s t : State) (h : exec .thermWarn s = .next t) : Rest (restOf .thermWarn) s t := by
  obtain rfl : (thermWarn s) = t := Host.Outcome.next.inj h
  repeat' first | with_reducible exact .refl _ _ | exact rfl | apply thermWarn_rest
theorem execThermWarnClear_rest  (s t : State) (h : exec .thermWarnClear s = .next t) : Rest (restOf .thermWarnClear) s t := by
  obtain rfl : (modDev (fun d => { d with thermWarn := false }) s) = t := Host.Outcome.next.inj h
  repeat' first | with_reducible exact .refl _ _ | exact rfl | apply modDev_rest
theorem execThermCrit_rest  (s t : State) (h : exec .thermCrit s = .next t) : Rest (restOf .thermCrit) s t := by
  obtain rfl : (thermCrit s) = t := Host.Outcome.next.inj h
  repeat' first | with_reducible exact .refl _ _ | exact rfl | apply thermCrit_rest
theorem execThermCritClear_rest  (s t : State) (h : exec .thermCritClear s = .next t) : Rest (restOf .thermCritClear) s t := by
  obtain rfl : (modDev (fun d => { d with thermCrit := false }) s) = t := Host.Outcome.next.inj h
  repeat' first | with_reducible exact .refl _ _ | exact rfl | apply modDev_rest
theorem execThermShutdown_rest  (s t : State) (h : exec .thermShutdown s = .next t) : Rest (restOf .thermShutdown) s t := by
  obtain rfl : (deviceFault 0x01 0x04 false s) = t := Host.Outcome.next.inj h
  repeat' first | with_reducible exact .refl _ _ | exact rfl | apply deviceFault_rest
theorem execSupLockstep_rest  (s t : State) (h : exec .supLockstep s = .next t) : Rest (restOf .supLockstep) s t := by
  obtain rfl : (deviceFault 0x01 0x01 false s) = t := Host.Outcome.next.inj h
  repeat' first | with_reducible exact .refl _ _ | exact rfl | apply deviceFault_rest
theorem execFLockstep_rest  (s t : State) (h : exec .fLockstep s = .next t) : Rest (restOf .fLockstep) s t := by
  obtain rfl : (dieFCause 0x01 0x02 s) = t := Host.Outcome.next.inj h
  repeat' first | with_reducible exact .refl _ _ | exact rfl | apply dieFCause_rest
theorem execSupervisorWatchdog_rest  (s t : State) (h : exec .supervisorWatchdog s = .next t) : Rest (restOf .supervisorWatchdog) s t := by
  obtain rfl : (if 16 ≤ s.cad.misses then deviceFault 0x01 0x03 true s else s) = t := Host.Outcome.next.inj h
  split
  · exact deviceFault_rest _ _ _ _ (.refl _ _) (mdev := rfl) (mjrn := rfl) (mxl := rfl)
  · exact .refl _ _
theorem execClockM_rest  (s t : State) (h : exec .clockM s = .next t) : Rest (restOf .clockM) s t := by
  obtain rfl : (xlinkLoss 0x01 0x05 s) = t := Host.Outcome.next.inj h
  repeat' first | with_reducible exact .refl _ _ | exact rfl | apply xlinkLoss_rest
theorem execEccUncorrectable_rest (owner : EccOwner) (s t : State) (h : exec (.eccUncorrectable owner) s = .next t) : Rest (restOf (.eccUncorrectable owner)) s t := by
  obtain rfl : (eccUncorrectable owner s) = t := Host.Outcome.next.inj h
  repeat' first | with_reducible exact .refl _ _ | exact rfl | apply eccUncorrectable_rest
theorem execEccCorrected_rest (spoke : Fin 143) (s t : State) (h : exec (.eccCorrected spoke) s = .next t) : Rest (restOf (.eccCorrected spoke)) s t := by
  obtain rfl : (eccCorrected spoke.val s) = t := Host.Outcome.next.inj h
  repeat' first | with_reducible exact .refl _ _ | exact rfl | apply eccCorrected_rest
theorem execXlinkFlit_rest (dest : Die) (flit : List Byte) (s t : State) (h : exec (.xlinkFlit dest flit) s = .next t) : Rest (restOf (.xlinkFlit dest flit)) s t := by
  obtain rfl : (xlinkFlit dest flit s) = t := Host.Outcome.next.inj h
  repeat' first | with_reducible exact .refl _ _ | exact rfl | apply xlinkFlit_rest
theorem execXlinkNak_rest (dest : Die) (seq : BitVec 12) (s t : State) (h : exec (.xlinkNak dest seq) s = .next t) : Rest (restOf (.xlinkNak dest seq)) s t := by
  obtain rfl : (xlinkNak dest seq s) = t := Host.Outcome.next.inj h
  repeat' first | with_reducible exact .refl _ _ | exact rfl | apply xlinkNak_rest
theorem execXlinkLost_rest  (s t : State) (h : exec .xlinkLost s = .next t) : Rest (restOf .xlinkLost) s t := by
  obtain rfl : (xlinkLoss 0x02 0x01 s) = t := Host.Outcome.next.inj h
  repeat' first | with_reducible exact .refl _ _ | exact rfl | apply xlinkLoss_rest
theorem execXlinkUp_rest  (s t : State) (h : exec .xlinkUp s = .next t) : Rest (restOf .xlinkUp) s t := by
  obtain rfl : (xlinkUp s) = t := Host.Outcome.next.inj h
  repeat' first | with_reducible exact .refl _ _ | exact rfl | apply xlinkUp_rest
theorem execXlinkTrainTimeout_rest  (s t : State) (h : exec .xlinkTrainTimeout s = .next t) : Rest (restOf .xlinkTrainTimeout) s t := by
  obtain rfl : (xlinkTrainTimeout s) = t := Host.Outcome.next.inj h
  repeat' first | with_reducible exact .refl _ _ | exact rfl | apply xlinkTrainTimeout_rest
theorem execTimeAlignFlit_rest (error : BitVec 8) (s t : State) (h : exec (.timeAlignFlit error) s = .next t) : Rest (restOf (.timeAlignFlit error)) s t := by
  obtain rfl : (timeAlign error s) = t := Host.Outcome.next.inj h
  repeat' first | with_reducible exact .refl _ _ | exact rfl | apply timeAlign_rest
theorem execFieldOutputImage_rest (crcOk : Bool) (s t : State) (h : exec (.fieldOutputImage crcOk) s = .next t) : Rest (restOf (.fieldOutputImage crcOk)) s t := by
  obtain rfl : (outputImage crcOk s) = t := Host.Outcome.next.inj h
  repeat' first | with_reducible exact .refl _ _ | exact rfl | apply outputImage_rest
theorem execFieldInputImage_rest  (s t : State) (h : exec .fieldInputImage s = .next t) : Rest (restOf .fieldInputImage) s t := by
  obtain rfl : (inputImage s) = t := Host.Outcome.next.inj h
  repeat' first | with_reducible exact .refl _ _ | exact rfl | apply inputImage_rest
theorem execBlackChannelCopy_rest (a : Fin 128) (entry : List Byte) (s t : State) (h : exec (.blackChannelCopy a entry) s = .next t) : Rest (restOf (.blackChannelCopy a entry)) s t := by
  obtain rfl : (blackCopy a.val entry s) = t := Host.Outcome.next.inj h
  repeat' first | with_reducible exact .refl _ _ | exact rfl | apply blackCopy_rest
theorem execStepCommandRecord_rest  (s t : State) (h : exec .stepCommandRecord s = .next t) : Rest (restOf .stepCommandRecord) s t := by
  obtain rfl : (stpRecords s) = t := Host.Outcome.next.inj h
  repeat' first | with_reducible exact .refl _ _ | exact rfl | apply stpRecords_rest
theorem execCh2Verdict_rest (p : Fin 8) (s t : State) (h : exec (.ch2Verdict p) s = .next t) : Rest (restOf (.ch2Verdict p)) s t := by
  obtain rfl : (ch2Verdict p.val s) = t := Host.Outcome.next.inj h
  repeat' first | with_reducible exact .refl _ _ | exact rfl | apply ch2Verdict_rest
theorem execDieFActionReport_rest (u : Fin 256) (s t : State) (h : exec (.dieFActionReport u) s = .next t) : Rest (restOf (.dieFActionReport u)) s t := by
  obtain rfl : (actionReport u.val s) = t := Host.Outcome.next.inj h
  repeat' first | with_reducible exact .refl _ _ | exact rfl | apply actionReport_rest
theorem execCadenceStart_rest  (s t : State) (h : exec .cadenceStart s = .next t) : Rest (restOf .cadenceStart) s t := by
  obtain rfl : (cadenceStart s) = t := Host.Outcome.next.inj h
  repeat' first | with_reducible exact .refl _ _ | exact rfl | apply cadenceStart_rest
theorem execFeedbackCutoff_rest  (s t : State) (h : exec .feedbackCutoff s = .next t) : Rest (restOf .feedbackCutoff) s t := by
  obtain rfl : (feedbackCutoff s) = t := Host.Outcome.next.inj h
  repeat' first | with_reducible exact .refl _ _ | exact rfl | apply feedbackCutoff_rest
theorem execComputeEnd_rest  (s t : State) (h : exec .computeEnd s = .next t) : Rest (restOf .computeEnd) s t := by
  obtain rfl : (computeEnd s) = t := Host.Outcome.next.inj h
  repeat' first | with_reducible exact .refl _ _ | exact rfl | apply computeEnd_rest
theorem execTrcFull_rest (k : Fin 8) (s t : State) (h : exec (.trcFull k) s = .next t) : Rest (restOf (.trcFull k)) s t := by
  obtain rfl : (trcFull k.val s) = t := Host.Outcome.next.inj h
  repeat' first | with_reducible exact .refl _ _ | exact rfl | apply trcFull_rest
theorem execPlanningBoundary_rest  (s t : State) (h : exec .planningBoundary s = .next t) : Rest (restOf .planningBoundary) s t := by
  obtain rfl : (planningBoundary s) = t := Host.Outcome.next.inj h
  repeat' first | with_reducible exact .refl _ _ | exact rfl | apply planningBoundary_rest
theorem execZoneRefused_rest (z : Fin 64) (s t : State) (h : exec (.zoneRefused z) s = .next t) : Rest (restOf (.zoneRefused z)) s t := by
  obtain rfl : (zoneRefused z.val s) = t := Host.Outcome.next.inj h
  repeat' first | with_reducible exact .refl _ _ | exact rfl | apply zoneRefused_rest
theorem execAsmPhaseStart_rest  (s t : State) (h : exec .asmPhaseStart s = .next t) : Rest (restOf .asmPhaseStart) s t := by
  obtain rfl : (asmPhase s) = t := Host.Outcome.next.inj h
  repeat' first | with_reducible exact .refl _ _ | exact rfl | apply asmPhase_rest
theorem execLaneWindowStart_rest  (s t : State) (h : exec .laneWindowStart s = .next t) : Rest (restOf .laneWindowStart) s t := by
  obtain rfl : (laneWindow s) = t := Host.Outcome.next.inj h
  repeat' first | with_reducible exact .refl _ _ | exact rfl | apply laneWindow_rest
theorem execQpProblemDone_rest (u : Fin 64) (s t : State) (h : exec (.qpProblemDone u) s = .next t) : Rest (restOf (.qpProblemDone u)) s t := by
  obtain rfl : (qpProblemDone u.val s) = t := Host.Outcome.next.inj h
  repeat' first | with_reducible exact .refl _ _ | exact rfl | apply qpProblemDone_rest
theorem execQpDeadline_rest (g : Fin 16) (j : Fin 4) (s t : State) (h : exec (.qpDeadline g j) s = .next t) : Rest (restOf (.qpDeadline g j)) s t := by
  obtain rfl : (qpDeadline g.val j.val s) = t := Host.Outcome.next.inj h
  repeat' first | with_reducible exact .refl _ _ | exact rfl | apply qpDeadline_rest
theorem execSelectionPhase_rest (g : Fin 16) (s t : State) (h : exec (.selectionPhase g) s = .next t) : Rest (restOf (.selectionPhase g)) s t := by
  obtain rfl : (selection g.val s) = t := Host.Outcome.next.inj h
  repeat' first | with_reducible exact .refl _ _ | exact rfl | apply selection_rest
theorem execShiftStop_rest (g : Fin 16) (s t : State) (h : exec (.shiftStop g) s = .next t) : Rest (restOf (.shiftStop g)) s t := by
  obtain rfl : (shiftStop g.val s) = t := Host.Outcome.next.inj h
  repeat' first | with_reducible exact .refl _ _ | exact rfl | apply shiftStop_rest
theorem execGuardBoundary_rest  (s t : State) (h : exec .guardBoundary s = .next t) : Rest (restOf .guardBoundary) s t := by
  obtain rfl : (guardBoundary s) = t := Host.Outcome.next.inj h
  repeat' first | with_reducible exact .refl _ _ | exact rfl | apply guardBoundary_rest
theorem execSensorStale_rest (n : Fin 16) (s t : State) (h : exec (.sensorStale n) s = .next t) : Rest (restOf (.sensorStale n)) s t := by
  obtain rfl : (sensorStale n.val s) = t := Host.Outcome.next.inj h
  repeat' first | with_reducible exact .refl _ _ | exact rfl | apply sensorStale_rest
theorem execVerdictDeadline_rest  (s t : State) (h : exec .verdictDeadline s = .next t) : Rest (restOf .verdictDeadline) s t := by
  obtain rfl : (verdictDeadline s) = t := Host.Outcome.next.inj h
  repeat' first | with_reducible exact .refl _ _ | exact rfl | apply verdictDeadline_rest
theorem execTandemMismatch_rest (g : Fin 16) (s t : State) (h : exec (.tandemMismatch g) s = .next t) : Rest (restOf (.tandemMismatch g)) s t := by
  obtain rfl : (tandemMismatch g.val s) = t := Host.Outcome.next.inj h
  repeat' first | with_reducible exact .refl _ _ | exact rfl | apply tandemMismatch_rest
theorem execVerdictAbsent_rest (g : Fin 16) (s t : State) (h : exec (.verdictAbsent g) s = .next t) : Rest (restOf (.verdictAbsent g)) s t := by
  obtain rfl : (verdictAbsent g.val s) = t := Host.Outcome.next.inj h
  repeat' first | with_reducible exact .refl _ _ | exact rfl | apply verdictAbsent_rest
theorem execSpeedExceeded_rest (g : Fin 16) (second : Bool) (s t : State) (h : exec (.speedExceeded g second) s = .next t) : Rest (restOf (.speedExceeded g second)) s t := by
  obtain rfl : (speedExceeded g.val second s) = t := Host.Outcome.next.inj h
  repeat' first | with_reducible exact .refl _ _ | exact rfl | apply speedExceeded_rest
theorem execCh2Feedback_rest (g : Fin 16) (s t : State) (h : exec (.ch2Feedback g) s = .next t) : Rest (restOf (.ch2Feedback g)) s t := by
  obtain rfl : (ch2Feedback g.val s) = t := Host.Outcome.next.inj h
  repeat' first | with_reducible exact .refl _ _ | exact rfl | apply ch2Feedback_rest
theorem execCh2Override_rest (g : Fin 16) (s t : State) (h : exec (.ch2Override g) s = .next t) : Rest (restOf (.ch2Override g)) s t := by
  obtain rfl : (ch2Override g.val s) = t := Host.Outcome.next.inj h
  repeat' first | with_reducible exact .refl _ _ | exact rfl | apply ch2Override_rest
theorem execSensorRecord_rest (k : Fin 8) (st : BitVec 8) (b : List Byte) (s t : State) (h : exec (.sensorRecord k st b) s = .next t) : Rest (restOf (.sensorRecord k st b)) s t := by
  obtain rfl : (sensorRecord k.val st.toNat b s) = t := Host.Outcome.next.inj h
  repeat' first | with_reducible exact .refl _ _ | exact rfl | apply sensorRecord_rest
theorem execRoundStart_rest  (s t : State) (h : exec .roundStart s = .next t) : Rest (restOf .roundStart) s t := by
  obtain rfl : (roundStart s) = t := Host.Outcome.next.inj h
  repeat' first | with_reducible exact .refl _ _ | exact rfl | apply roundStart_rest
theorem execLatchInstant_rest  (s t : State) (h : exec .latchInstant s = .next t) : Rest (restOf .latchInstant) s t := by
  obtain rfl : (latch s) = t := Host.Outcome.next.inj h
  repeat' first | with_reducible exact .refl _ _ | exact rfl | apply latch_rest
theorem execHubDump_rest (dieF : Bool) (s t : State) (h : exec (.hubDump dieF) s = .next t) : Rest (restOf (.hubDump dieF)) s t := by
  obtain rfl : (hubDump dieF s) = t := Host.Outcome.next.inj h
  repeat' first | with_reducible exact .refl _ _ | exact rfl | apply hubDump_rest
theorem execHubMirrorErr_rest  (s t : State) (h : exec .hubMirrorErr s = .next t) : Rest (restOf .hubMirrorErr) s t := by
  obtain rfl : (hubMirrorErr s) = t := Host.Outcome.next.inj h
  repeat' first | with_reducible exact .refl _ _ | exact rfl | apply hubMirrorErr_rest
theorem execStationFrame_rest (seg : Fin 8) (port : Fin 16) (sfd : BitVec 32) (frame : List Byte) (s t : State) (h : exec (.stationFrame seg port sfd frame) s = .next t) : Rest (restOf (.stationFrame seg port sfd frame)) s t := by
  obtain rfl : (stationFrame homeRecord seg.val port.val sfd.toNat frame s) = t := Host.Outcome.next.inj h
  repeat' first | with_reducible exact .refl _ _ | exact rfl | apply stationFrame_rest | apply homeRecord_rest | intro _ | assumption
theorem execForeignFrame_rest (p : Fin 16) (s t : State) (h : exec (.foreignFrame p) s = .next t) : Rest (restOf (.foreignFrame p)) s t := by
  obtain rfl : (foreignFrame p.val s) = t := Host.Outcome.next.inj h
  repeat' first | with_reducible exact .refl _ _ | exact rfl | apply foreignFrame_rest
theorem execStationSilenced_rest (k : Fin 8) (st : BitVec 8) (s t : State) (h : exec (.stationSilenced k st) s = .next t) : Rest (restOf (.stationSilenced k st)) s t := by
  obtain rfl : (stationSilenced k.val st.toNat s) = t := Host.Outcome.next.inj h
  repeat' first | with_reducible exact .refl _ _ | exact rfl | apply stationSilenced_rest
theorem execFreewheelExpired_rest (a : Fin 128) (s t : State) (h : exec (.freewheelExpired a) s = .next t) : Rest (restOf (.freewheelExpired a)) s t := by
  obtain rfl : (freewheelExpired a.val s) = t := Host.Outcome.next.inj h
  repeat' first | with_reducible exact .refl _ _ | exact rfl | apply freewheelExpired_rest
theorem execMasterCollision_rest (k : Fin 8) (o : BitVec 64) (s t : State) (h : exec (.masterCollision k o) s = .next t) : Rest (restOf (.masterCollision k o)) s t := by
  obtain rfl : (masterCollision k.val o s) = t := Host.Outcome.next.inj h
  repeat' first | with_reducible exact .refl _ _ | exact rfl | apply masterCollision_rest
theorem execCollisionWaitEnd_rest (k : Fin 8) (s t : State) (h : exec (.collisionWaitEnd k) s = .next t) : Rest (restOf (.collisionWaitEnd k)) s t := by
  obtain rfl : (collisionWaitEnd k.val s) = t := Host.Outcome.next.inj h
  repeat' first | with_reducible exact .refl _ _ | exact rfl | apply collisionWaitEnd_rest
theorem execRingChangeover_rest (k : Fin 8) (s t : State) (h : exec (.ringChangeover k) s = .next t) : Rest (restOf (.ringChangeover k)) s t := by
  obtain rfl : (ringBroken k.val s) = t := Host.Outcome.next.inj h
  repeat' first | with_reducible exact .refl _ _ | exact rfl | apply ringBroken_rest
theorem execVzLinkDown_rest (p : Fin 16) (s t : State) (h : exec (.vzLinkDown p) s = .next t) : Rest (restOf (.vzLinkDown p)) s t := by
  obtain rfl : (vzLinkDown p.val s) = t := Host.Outcome.next.inj h
  repeat' first | with_reducible exact .refl _ _ | exact rfl | apply vzLinkDown_rest
theorem execEnumReturn_rest (k : Fin 8) (l : List StationId) (s t : State) (h : exec (.enumReturn k l) s = .next t) : Rest (restOf (.enumReturn k l)) s t := by
  obtain rfl : (enumReturn k.val l s) = t := Host.Outcome.next.inj h
  repeat' first | with_reducible exact .refl _ _ | exact rfl | apply enumReturn_rest
theorem execDelayReturn_rest (k : Fin 8) (d : List (BitVec 32 × BitVec 32)) (s t : State) (h : exec (.delayReturn k d) s = .next t) : Rest (restOf (.delayReturn k d)) s t := by
  obtain rfl : (delayReturn k.val d s) = t := Host.Outcome.next.inj h
  repeat' first | with_reducible exact .refl _ _ | exact rfl | apply delayReturn_rest
theorem execArbFrameReturn_rest (k : Fin 8) (c : Fin 32) (st : BitVec 8) (s t : State) (h : exec (.arbFrameReturn k c st) s = .next t) : Rest (restOf (.arbFrameReturn k c st)) s t := by
  obtain rfl : (arbReturn k.val c.val st.toNat s) = t := Host.Outcome.next.inj h
  repeat' first | with_reducible exact .refl _ _ | exact rfl | apply arbReturn_rest
theorem execAcyclicFrame_rest (k : Fin 8) (st : BitVec 8) (b : List Byte) (s t : State) (h : exec (.acyclicFrame k st b) s = .next t) : Rest (restOf (.acyclicFrame k st b)) s t := by
  obtain rfl : (acyclicFrame k.val st.toNat b s) = t := Host.Outcome.next.inj h
  repeat' first | with_reducible exact .refl _ _ | exact rfl | apply acyclicFrame_rest
theorem execAcyclicTimeout_rest (m : Fin 8) (k : Fin 32) (s t : State) (h : exec (.acyclicTimeout m k) s = .next t) : Rest (restOf (.acyclicTimeout m k)) s t := by
  obtain rfl : (acyclicTimeout m.val k.val s) = t := Host.Outcome.next.inj h
  repeat' first | with_reducible exact .refl _ _ | exact rfl | apply acyclicTimeout_rest
theorem execPelotonSync_rest (port : LinePort) (rx : BitVec 64) (f : List Byte) (s t : State) (h : exec (.pelotonSync port rx f) s = .next t) : Rest (restOf (.pelotonSync port rx f)) s t := by
  obtain rfl : (pelotonSync port rx.toNat f s) = t := Host.Outcome.next.inj h
  repeat' first | with_reducible exact .refl _ _ | exact rfl | apply pelotonSync_rest
theorem execPelotonDelayReq_rest (port : LinePort) (rx : BitVec 64) (f : List Byte) (s t : State) (h : exec (.pelotonDelayReq port rx f) s = .next t) : Rest (restOf (.pelotonDelayReq port rx f)) s t := by
  obtain rfl : (pelDelayReq port rx.toNat f s) = t := Host.Outcome.next.inj h
  repeat' first | with_reducible exact .refl _ _ | exact rfl | apply pelDelayReq_rest
theorem execPelotonDelayResp_rest (port : LinePort) (t1 : BitVec 64) (t4 : BitVec 64) (f : List Byte) (s t : State) (h : exec (.pelotonDelayResp port t1 t4 f) s = .next t) : Rest (restOf (.pelotonDelayResp port t1 t4 f)) s t := by
  obtain rfl : (pelDelayResp port t1.toNat t4.toNat f s) = t := Host.Outcome.next.inj h
  repeat' first | with_reducible exact .refl _ _ | exact rfl | apply pelDelayResp_rest
theorem execPelotonEnum_rest (port : LinePort) (f : List Byte) (s t : State) (h : exec (.pelotonEnum port f) s = .next t) : Rest (restOf (.pelotonEnum port f)) s t := by
  obtain rfl : (pelEnum port f s) = t := Host.Outcome.next.inj h
  repeat' first | with_reducible exact .refl _ _ | exact rfl | apply pelEnum_rest
theorem execPelotonConfig_rest (port : LinePort) (f : List Byte) (s t : State) (h : exec (.pelotonConfig port f) s = .next t) : Rest (restOf (.pelotonConfig port f)) s t := by
  obtain rfl : (pelConfig f s) = t := Host.Outcome.next.inj h
  repeat' first | with_reducible exact .refl _ _ | exact rfl | apply pelConfig_rest
theorem execPelStartTimeout_rest  (s t : State) (h : exec .pelStartTimeout s = .next t) : Rest (restOf .pelStartTimeout) s t := by
  obtain rfl : (pelStartTimeout s) = t := Host.Outcome.next.inj h
  repeat' first | with_reducible exact .refl _ _ | exact rfl | apply pelStartTimeout_rest
theorem execPelSyncSet_rest  (s t : State) (h : exec .pelSyncSet s = .next t) : Rest (restOf .pelSyncSet) s t := by
  obtain rfl : (pelSyncSet s) = t := Host.Outcome.next.inj h
  repeat' first | with_reducible exact .refl _ _ | exact rfl | apply pelSyncSet_rest
theorem execPelSyncLost_rest  (s t : State) (h : exec .pelSyncLost s = .next t) : Rest (restOf .pelSyncLost) s t := by
  obtain rfl : (pelSyncLost s) = t := Host.Outcome.next.inj h
  repeat' first | with_reducible exact .refl _ _ | exact rfl | apply pelSyncLost_rest
theorem execPelTakeover_rest  (s t : State) (h : exec .pelTakeover s = .next t) : Rest (restOf .pelTakeover) s t := by
  obtain rfl : (pelTakeover s) = t := Host.Outcome.next.inj h
  repeat' first | with_reducible exact .refl _ _ | exact rfl | apply pelTakeover_rest
theorem execAnnouncementApply_rest  (s t : State) (h : exec .announcementApply s = .next t) : Rest (restOf .announcementApply) s t := by
  obtain rfl : (announcementApply s) = t := Host.Outcome.next.inj h
  repeat' first | with_reducible exact .refl _ _ | exact rfl | apply announcementApply_rest
theorem execPtpMessage_rest (p : Fin 4) (m : PtpMsg) (s t : State) (h : exec (.ptpMessage p m) s = .next t) : Rest (restOf (.ptpMessage p m)) s t := by
  obtain rfl : (ptpMessage p.val m s) = t := Host.Outcome.next.inj h
  repeat' first | with_reducible exact .refl _ _ | exact rfl | apply ptpMessage_rest
theorem execPtpInterval_rest (p : Fin 4) (k : PtpTick) (stamped : Bool) (s t : State) (h : exec (.ptpInterval p k stamped) s = .next t) : Rest (restOf (.ptpInterval p k stamped)) s t := by
  obtain rfl : (ptpInterval p.val k stamped s) = t := Host.Outcome.next.inj h
  repeat' first | with_reducible exact .refl _ _ | exact rfl | apply ptpInterval_rest
theorem execPtpAnnounceTimeout_rest (p : Fin 4) (s t : State) (h : exec (.ptpAnnounceTimeout p) s = .next t) : Rest (restOf (.ptpAnnounceTimeout p)) s t := by
  obtain rfl : (announceTimeout p.val s) = t := Host.Outcome.next.inj h
  repeat' first | with_reducible exact .refl _ _ | exact rfl | apply announceTimeout_rest
theorem execGmServoInterval_rest (mean : BitVec 64) (s t : State) (h : exec (.gmServoInterval mean) s = .next t) : Rest (restOf (.gmServoInterval mean)) s t := by
  obtain rfl : (gmServo mean s) = t := Host.Outcome.next.inj h
  repeat' first | with_reducible exact .refl _ _ | exact rfl | apply gmServo_rest
theorem execTimedActionFire_rest (u : Fin 256) (s t : State) (h : exec (.timedActionFire u) s = .next t) : Rest (restOf (.timedActionFire u)) s t := by
  obtain rfl : (timedActionFire u.val s) = t := Host.Outcome.next.inj h
  repeat' first | with_reducible exact .refl _ _ | exact rfl | apply timedActionFire_rest
theorem execTaskRelease_rest (d : Descriptor) (s t : State) (h : exec (.taskRelease d) s = .next t) : Rest (restOf (.taskRelease d)) s t := by
  obtain rfl : (taskRelease d s) = t := Host.Outcome.next.inj h
  repeat' first | with_reducible exact .refl _ _ | exact rfl | apply taskRelease_rest
theorem execTaskDispatch_rest (k : Fin 5) (s t : State) (h : exec (.taskDispatch k) s = .next t) : Rest (restOf (.taskDispatch k)) s t := by
  obtain rfl : (taskDispatch k.val s) = t := Host.Outcome.next.inj h
  repeat' first | with_reducible exact .refl _ _ | exact rfl | apply taskDispatch_rest
theorem execTaskEnd_rest (k : Fin 5) (u : Fin 64) (s t : State) (h : exec (.taskEnd k u) s = .next t) : Rest (restOf (.taskEnd k u)) s t := by
  obtain rfl : (taskEnd k.val u.val s) = t := Host.Outcome.next.inj h
  repeat' first | with_reducible exact .refl _ _ | exact rfl | apply taskEnd_rest
theorem execFftSliceEnd_rest (u : Fin 32) (s t : State) (h : exec (.fftSliceEnd u) s = .next t) : Rest (restOf (.fftSliceEnd u)) s t := by
  obtain rfl : (fftSliceEnd u.val s) = t := Host.Outcome.next.inj h
  repeat' first | with_reducible exact .refl _ _ | exact rfl | apply fftSliceEnd_rest
theorem execSchedDeadlineMiss_rest (k : Fin 5) (f : BitVec 16) (s t : State) (h : exec (.schedDeadlineMiss k f) s = .next t) : Rest (restOf (.schedDeadlineMiss k f)) s t := by
  obtain rfl : (deadlineMiss k.val f.toNat s) = t := Host.Outcome.next.inj h
  repeat' first | with_reducible exact .refl _ _ | exact rfl | apply deadlineMiss_rest
theorem execEnqueueResume_rest (k : Fin 5) (s t : State) (h : exec (.enqueueResume k) s = .next t) : Rest (restOf (.enqueueResume k)) s t := by
  obtain rfl : (enqueueResume k.val s) = t := Host.Outcome.next.inj h
  repeat' first | with_reducible exact .refl _ _ | exact rfl | apply enqueueResume_rest
theorem execInputLevelChange_rest (c : Fin 32) (v : Bool) (s t : State) (h : exec (.inputLevelChange c v) s = .next t) : Rest (restOf (.inputLevelChange c v)) s t := by
  obtain rfl : (levelChange c.val v s) = t := Host.Outcome.next.inj h
  repeat' first | with_reducible exact .refl _ _ | exact rfl | apply levelChange_rest
theorem execInputFiltered_rest (c : Fin 32) (s t : State) (h : exec (.inputFiltered c) s = .next t) : Rest (restOf (.inputFiltered c)) s t := by
  obtain rfl : (inputFiltered c.val s) = t := Host.Outcome.next.inj h
  repeat' first | with_reducible exact .refl _ _ | exact rfl | apply inputFiltered_rest
theorem execInputQualified_rest (c : Fin 32) (s t : State) (h : exec (.inputQualified c) s = .next t) : Rest (restOf (.inputQualified c)) s t := by
  obtain rfl : (inputQualified c.val s) = t := Host.Outcome.next.inj h
  repeat' first | with_reducible exact .refl _ _ | exact rfl | apply inputQualified_rest
theorem execChatter_rest (c : Fin 32) (s t : State) (h : exec (.chatter c) s = .next t) : Rest (restOf (.chatter c)) s t := by
  obtain rfl : (chatter c.val s) = t := Host.Outcome.next.inj h
  repeat' first | with_reducible exact .refl _ _ | exact rfl | apply chatter_rest
theorem execNotFound_rest (a : Fin 128) (s t : State) (h : exec (.notFound a) s = .next t) : Rest (restOf (.notFound a)) s t := by
  obtain rfl : (notFound a.val s) = t := Host.Outcome.next.inj h
  repeat' first | with_reducible exact .refl _ _ | exact rfl | apply notFound_rest
theorem execHardStopLatch_rest (a : Fin 128) (s t : State) (h : exec (.hardStopLatch a) s = .next t) : Rest (restOf (.hardStopLatch a)) s t := by
  obtain rfl : (hardStopLatch a.val s) = t := Host.Outcome.next.inj h
  repeat' first | with_reducible exact .refl _ _ | exact rfl | apply hardStopLatch_rest
theorem execGroupSettled_rest (g : Fin 16) (s t : State) (h : exec (.groupSettled g) s = .next t) : Rest (restOf (.groupSettled g)) s t := by
  obtain rfl : (groupSettled g.val s) = t := Host.Outcome.next.inj h
  repeat' first | with_reducible exact .refl _ _ | exact rfl | apply groupSettled_rest
theorem execEnableTimeout_rest (a : Fin 128) (s t : State) (h : exec (.enableTimeout a) s = .next t) : Rest (restOf (.enableTimeout a)) s t := by
  obtain rfl : (enableTimeout a.val s) = t := Host.Outcome.next.inj h
  repeat' first | with_reducible exact .refl _ _ | exact rfl | apply enableTimeout_rest
theorem execDisableTimeout_rest (a : Fin 128) (s t : State) (h : exec (.disableTimeout a) s = .next t) : Rest (restOf (.disableTimeout a)) s t := by
  obtain rfl : (disableTimeout a.val s) = t := Host.Outcome.next.inj h
  repeat' first | with_reducible exact .refl _ _ | exact rfl | apply disableTimeout_rest
theorem execGroupEnableTimeout_rest (g : Fin 16) (s t : State) (h : exec (.groupEnableTimeout g) s = .next t) : Rest (restOf (.groupEnableTimeout g)) s t := by
  obtain rfl : (groupEnableTimeout g.val s) = t := Host.Outcome.next.inj h
  repeat' first | with_reducible exact .refl _ _ | exact rfl | apply groupEnableTimeout_rest
theorem execInjectionComplete_rest (a : Fin 128) (s t : State) (h : exec (.injectionComplete a) s = .next t) : Rest (restOf (.injectionComplete a)) s t := by
  obtain rfl : (injComplete a.val s) = t := Host.Outcome.next.inj h
  repeat' first | with_reducible exact .refl _ _ | exact rfl | apply injComplete_rest
theorem execFrfComplete_rest  (s t : State) (h : exec .frfComplete s = .next t) : Rest (restOf .frfComplete) s t := by
  obtain rfl : (frfComplete s) = t := Host.Outcome.next.inj h
  repeat' first | with_reducible exact .refl _ _ | exact rfl | apply frfComplete_rest
theorem execOpenInput_rest (c : Fin 32) (low : Bool) (s t : State) (h : exec (.openInput c low) s = .next t) : Rest (restOf (.openInput c low)) s t := by
  obtain rfl : (openInput c.val low s) = t := Host.Outcome.next.inj h
  repeat' first | with_reducible exact .refl _ _ | exact rfl | apply openInput_rest
theorem execOvertemp_rest (c : Fin 32) (tj : BitVec 8) (s t : State) (h : exec (.overtemp c tj) s = .next t) : Rest (restOf (.overtemp c tj)) s t := by
  obtain rfl : (overtemp c.val tj.toNat s) = t := Host.Outcome.next.inj h
  repeat' first | with_reducible exact .refl _ _ | exact rfl | apply overtemp_rest
theorem execOvertempTrip_rest (c : Fin 32) (tj : BitVec 8) (s t : State) (h : exec (.overtempTrip c tj) s = .next t) : Rest (restOf (.overtempTrip c tj)) s t := by
  obtain rfl : (overtempTrip c.val tj.toNat s) = t := Host.Outcome.next.inj h
  repeat' first | with_reducible exact .refl _ _ | exact rfl | apply overtempTrip_rest
theorem execOverload_rest (c : Fin 32) (s t : State) (h : exec (.overload c) s = .next t) : Rest (restOf (.overload c)) s t := by
  obtain rfl : (overload c.val s) = t := Host.Outcome.next.inj h
  repeat' first | with_reducible exact .refl _ _ | exact rfl | apply overload_rest
theorem execGroupOverload_rest (x : Fin 4) (cur : List (BitVec 16)) (s t : State) (h : exec (.groupOverload x cur) s = .next t) : Rest (restOf (.groupOverload x cur)) s t := by
  obtain rfl : (groupOverload x.val cur s) = t := Host.Outcome.next.inj h
  repeat' first | with_reducible exact .refl _ _ | exact rfl | apply groupOverload_rest
theorem execShortFlp_rest (c : Fin 32) (s t : State) (h : exec (.shortFlp c) s = .next t) : Rest (restOf (.shortFlp c)) s t := by
  obtain rfl : (shortFlp c.val s) = t := Host.Outcome.next.inj h
  repeat' first | with_reducible exact .refl _ _ | exact rfl | apply shortFlp_rest
theorem execOpenOff_rest (c : Fin 32) (s t : State) (h : exec (.openOff c) s = .next t) : Rest (restOf (.openOff c)) s t := by
  obtain rfl : (openOff c.val s) = t := Host.Outcome.next.inj h
  repeat' first | with_reducible exact .refl _ _ | exact rfl | apply openOff_rest
theorem execOpenOn_rest (c : Fin 32) (s t : State) (h : exec (.openOn c) s = .next t) : Rest (restOf (.openOn c)) s t := by
  obtain rfl : (openOn c.val s) = t := Host.Outcome.next.inj h
  repeat' first | with_reducible exact .refl _ _ | exact rfl | apply openOn_rest
theorem execCodeCleared_rest (c : Fin 32) (code : BitVec 8) (s t : State) (h : exec (.codeCleared c code) s = .next t) : Rest (restOf (.codeCleared c code)) s t := by
  obtain rfl : (clearCode c.val code.toNat s) = t := Host.Outcome.next.inj h
  repeat' first | with_reducible exact .refl _ _ | exact rfl | apply clearCode_rest
theorem execChannelRestart_rest (c : Fin 32) (s t : State) (h : exec (.channelRestart c) s = .next t) : Rest (restOf (.channelRestart c)) s t := by
  obtain rfl : (channelRestart c.val s) = t := Host.Outcome.next.inj h
  repeat' first | with_reducible exact .refl _ _ | exact rfl | apply channelRestart_rest
theorem execSupplyLow_rest (x : Fin 4) (mv : BitVec 16) (s t : State) (h : exec (.supplyLow x mv) s = .next t) : Rest (restOf (.supplyLow x mv)) s t := by
  obtain rfl : (supplyLow x.val mv.toNat s) = t := Host.Outcome.next.inj h
  repeat' first | with_reducible exact .refl _ _ | exact rfl | apply supplyLow_rest
theorem execSupplyCut_rest (x : Fin 4) (mv : BitVec 16) (s t : State) (h : exec (.supplyCut x mv) s = .next t) : Rest (restOf (.supplyCut x mv)) s t := by
  obtain rfl : (supplyLatch x.val 2 mv.toNat s) = t := Host.Outcome.next.inj h
  repeat' first | with_reducible exact .refl _ _ | exact rfl | apply supplyLatch_rest
theorem execSupplyOver_rest (x : Fin 4) (mv : BitVec 16) (s t : State) (h : exec (.supplyOver x mv) s = .next t) : Rest (restOf (.supplyOver x mv)) s t := by
  obtain rfl : (supplyLatch x.val 3 mv.toNat s) = t := Host.Outcome.next.inj h
  repeat' first | with_reducible exact .refl _ _ | exact rfl | apply supplyLatch_rest
theorem execSupplyLatchRelease_rest (x : Fin 4) (s t : State) (h : exec (.supplyLatchRelease x) s = .next t) : Rest (restOf (.supplyLatchRelease x)) s t := by
  obtain rfl : (supplyLatchRelease x.val s) = t := Host.Outcome.next.inj h
  repeat' first | with_reducible exact .refl _ _ | exact rfl | apply supplyLatchRelease_rest
theorem execLogicSilence_rest  (s t : State) (h : exec .logicSilence s = .next t) : Rest (restOf .logicSilence) s t := by
  obtain rfl : (logicSilence s) = t := Host.Outcome.next.inj h
  repeat' first | with_reducible exact .refl _ _ | exact rfl | apply logicSilence_rest
theorem execStpHoldAssert_rest (n : Fin 16) (s t : State) (h : exec (.stpHoldAssert n) s = .next t) : Rest (restOf (.stpHoldAssert n)) s t := by
  obtain rfl : (stpHold n.val s) = t := Host.Outcome.next.inj h
  repeat' first | with_reducible exact .refl _ _ | exact rfl | apply stpHold_rest
theorem execJournalRecordSend_rest  (s t : State) (h : exec .journalRecordSend s = .next t) : Rest (restOf .journalRecordSend) s t := by
  obtain rfl : (journalSend s) = t := Host.Outcome.next.inj h
  repeat' first | with_reducible exact .refl _ _ | exact rfl | apply journalSend_rest
theorem execJournalWrite_rest  (s t : State) (h : exec .journalWrite s = .next t) : Rest (restOf .journalWrite) s t := by
  obtain rfl : (journalWrite s) = t := Host.Outcome.next.inj h
  repeat' first | with_reducible exact .refl _ _ | exact rfl | apply journalWrite_rest
theorem execHoldupWindowEnd_rest  (s t : State) (h : exec .holdupWindowEnd s = .next t) : Rest (restOf .holdupWindowEnd) s t := by
  obtain rfl : (holdupWindowEnd s) = t := Host.Outcome.next.inj h
  repeat' first | with_reducible exact .refl _ _ | exact rfl | apply holdupWindowEnd_rest
theorem execHoldupDone_rest  (s t : State) (h : exec .holdupDone s = .next t) : Rest (restOf .holdupDone) s t := by
  obtain rfl : (holdupDone s) = t := Host.Outcome.next.inj h
  repeat' first | with_reducible exact .refl _ _ | exact rfl | apply holdupDone_rest
theorem execHoldupCheck_rest (cMeas : BitVec 16) (s t : State) (h : exec (.holdupCheck cMeas) s = .next t) : Rest (restOf (.holdupCheck cMeas)) s t := by
  obtain rfl : (holdupCheck cMeas s) = t := Host.Outcome.next.inj h
  repeat' first | with_reducible exact .refl _ _ | exact rfl | apply holdupCheck_rest
theorem execTruncateEraseDone_rest  (s t : State) (h : exec .truncateEraseDone s = .next t) : Rest (restOf .truncateEraseDone) s t := by
  obtain rfl : (eraseDone s) = t := Host.Outcome.next.inj h
  repeat' first | with_reducible exact .refl _ _ | exact rfl | apply eraseDone_rest
theorem execLpddrTrained_rest  (s t : State) (h : exec .lpddrTrained s = .next t) : Rest (restOf .lpddrTrained) s t := by
  obtain rfl : (lpddrTrained s) = t := Host.Outcome.next.inj h
  repeat' first | with_reducible exact .refl _ _ | exact rfl | apply lpddrTrained_rest
theorem execStagedImageFound_rest  (s t : State) (h : exec .stagedImageFound s = .next t) : Rest (restOf .stagedImageFound) s t := by
  obtain rfl : (stagedImage s) = t := Host.Outcome.next.inj h
  repeat' first | with_reducible exact .refl _ _ | exact rfl | apply stagedImage_rest
theorem execContainerLoaded_rest  (s t : State) (h : exec .containerLoaded s = .next t) : Rest (restOf .containerLoaded) s t := by
  obtain rfl : (containerLoaded s) = t := Host.Outcome.next.inj h
  repeat' first | with_reducible exact .refl _ _ | exact rfl | apply containerLoaded_rest
theorem execFirmwareHandover_rest  (s t : State) (h : exec .firmwareHandover s = .next t) : Rest (restOf .firmwareHandover) s t := by
  obtain rfl : (handover s) = t := Host.Outcome.next.inj h
  repeat' first | with_reducible exact .refl _ _ | exact rfl | apply handover_rest
theorem execLpddrInitDone_rest  (s t : State) (h : exec .lpddrInitDone s = .next t) : Rest (restOf .lpddrInitDone) s t := by
  obtain rfl : (lpddrDone s) = t := Host.Outcome.next.inj h
  repeat' first | with_reducible exact .refl _ _ | exact rfl | apply lpddrDone_rest
theorem execBootRun_rest  (s t : State) (h : exec .bootRun s = .next t) : Rest (restOf .bootRun) s t := by
  obtain rfl : (bootRun s) = t := Host.Outcome.next.inj h
  repeat' first | with_reducible exact .refl _ _ | exact rfl | apply bootRun_rest
theorem execRomWatchdog_rest  (s t : State) (h : exec .romWatchdog s = .next t) : Rest (restOf .romWatchdog) s t := by
  obtain rfl : (romWatchdog s) = t := Host.Outcome.next.inj h
  repeat' first | with_reducible exact .refl _ _ | exact rfl | apply romWatchdog_rest
theorem execInitWatchdog_rest  (s t : State) (h : exec .initWatchdog s = .next t) : Rest (restOf .initWatchdog) s t := by
  obtain rfl : (initWatchdog s) = t := Host.Outcome.next.inj h
  repeat' first | with_reducible exact .refl _ _ | exact rfl | apply initWatchdog_rest
theorem execBootUnconfirmed_rest  (s t : State) (h : exec .bootUnconfirmed s = .next t) : Rest (restOf .bootUnconfirmed) s t := by
  obtain rfl : (bootUnconfirmed s) = t := Host.Outcome.next.inj h
  repeat' first | with_reducible exact .refl _ _ | exact rfl | apply bootUnconfirmed_rest
theorem execMbDoorbell_rest (m : Fin 8) (w : Word) (s t : State) (h : exec (.mbDoorbell m w) s = .next t) : Rest (restOf (.mbDoorbell m w)) s t := by
  obtain rfl : (doorbell m.val w s) = t := Host.Outcome.next.inj h
  repeat' first | with_reducible exact .refl _ _ | exact rfl | apply doorbell_rest
theorem execBadOpcodeCommand_rest (c : CmdRef) (s t : State) (h : exec (.badOpcodeCommand c) s = .next t) : Rest (restOf (.badOpcodeCommand c)) s t := by
  obtain rfl : (badOpcode c s) = t := Host.Outcome.next.inj h
  repeat' first | with_reducible exact .refl _ _ | exact rfl | apply badOpcode_rest
theorem execFwUpdateDone_rest  (s t : State) (h : exec .fwUpdateDone s = .next t) : Rest (restOf .fwUpdateDone) s t := by
  obtain rfl : (fwUpdateDone s) = t := Host.Outcome.next.inj h
  repeat' first | with_reducible exact .refl _ _ | exact rfl | apply fwUpdateDone_rest
theorem execFlpFirstRise_rest (x : Fin 4) (mv : BitVec 16) (s t : State) (h : exec (.flpFirstRise x mv) s = .next t) : Rest (restOf (.flpFirstRise x mv)) s t := by
  obtain rfl : (flpFirstRise x.val mv.toNat s) = t := Host.Outcome.next.inj h
  repeat' first | with_reducible exact .refl _ _ | exact rfl | apply flpFirstRise_rest

end Sys2Proof.Machine
end

