-- ==== Sys2Proof/Laws/SameCad.lean ====
section
/-!
SUPPORT. `SameCad a b`: the cadence's own fields, which only the start of a cadence, its feedback cutoff and its compute end change. One
lemma per function that these three run.
-/
namespace Sys2Proof.Machine

set_option Elab.async false
set_option linter.all false

/-- The fields of the cadence are the same. -/
abbrev SameCad (a b : State) : Prop := b.cad = a.cad

variable {s0 : State}

theorem cad_mk {s : State} {host evt strm time cad ptp dev jrn hub xl bus pel axes grps sig sch io stp qp trc ssm eff tilesOut lanesOut out admitSeq free pending}
   (a : cad = s.cad) (h : SameCad s0 s) : SameCad s0 ⟨host, evt, strm, time, cad, ptp, dev, jrn, hub, xl, bus, pel, axes, grps, sig, sch, io, stp, qp, trc, ssm, eff, tilesOut, lanesOut, out, admitSeq, free, pending⟩ :=
  Eq.trans a h

theorem foldl_sameCad {α : Type} (l : List α) (f : State → α → State) (hf : ∀ t x, SameCad s0 t → SameCad s0 (f t x)) (s : State) (h : SameCad s0 s) :
    SameCad s0 (l.foldl f s) := by
  induction l generalizing s with
  | nil => exact h
  | cons x r ih => exact ih _ (hf _ _ h)

theorem takeEff_sameCad (op : Nat → Bool) (t : Nat) (s : State) (hs : SameCad s0 s) : SameCad s0 (takeEff op t s).2 := hs

theorem advanceTo_sameCad (t : Nat) (s : State) (hs : SameCad s0 s) : SameCad s0 (advanceTo t s) := by
  unfold advanceTo
  try dsimp only
  with_reducible repeat' first | assumption | (apply cad_mk; exact rfl; (first | assumption | split)) | split | intro _

theorem emit_sameCad (k : OutKind) (u : Nat) (b : List Byte) (s : State) (hs : SameCad s0 s) : SameCad s0 (emit k u b s) := by
  unfold emit
  try dsimp only
  with_reducible repeat' first | assumption | (apply cad_mk; exact rfl; (first | assumption | split)) | split | intro _

theorem setSpoke_sameCad (i : Nat) (p : Spoke) (s : State) (hs : SameCad s0 s) : SameCad s0 (setSpoke i p s) := by
  unfold setSpoke
  try dsimp only
  with_reducible repeat' first | assumption | (apply cad_mk; exact rfl; (first | assumption | split)) | split | intro _

theorem countN_sameCad (i code n : Nat) (s : State) (hs : SameCad s0 s) : SameCad s0 (countN i code n s) := by
  unfold countN
  try dsimp only
  with_reducible repeat' first | assumption | apply setSpoke_sameCad | (apply cad_mk; exact rfl; (first | assumption | apply setSpoke_sameCad | split)) | split | intro _

theorem count_sameCad (i code : Nat) (s : State) (hs : SameCad s0 s) : SameCad s0 (count i code s) := by
  unfold count
  try dsimp only
  with_reducible repeat' first | assumption | apply countN_sameCad | (apply cad_mk; exact rfl; (first | assumption | apply countN_sameCad | split)) | split | intro _

theorem fireVector_sameCad (v : Nat) (s : State) (hs : SameCad s0 s) : SameCad s0 (fireVector v s) := by
  unfold fireVector
  try dsimp only
  with_reducible repeat' first | assumption | apply count_sameCad | apply emit_sameCad | (apply cad_mk; exact rfl; (first | assumption | apply count_sameCad | apply emit_sameCad | split)) | split | intro _

theorem raise_sameCad (e : Nat) (s : State) (hs : SameCad s0 s) : SameCad s0 (raise e s) := by
  unfold raise
  try dsimp only
  with_reducible repeat' first | assumption | apply fireVector_sameCad | (apply cad_mk; exact rfl; (first | assumption | apply fireVector_sameCad | split)) | split | intro _

theorem raiseIf_sameCad (b : Bool) (e : Nat) (s : State) (hs : SameCad s0 s) : SameCad s0 (raiseIf b e s) := by
  unfold raiseIf
  try dsimp only
  with_reducible repeat' first | assumption | apply raise_sameCad | (apply cad_mk; exact rfl; (first | assumption | apply raise_sameCad | split)) | split | intro _

theorem dropRecord_sameCad (s : State) (hs : SameCad s0 s) : SameCad s0 (dropRecord s) := by
  unfold dropRecord
  try dsimp only
  with_reducible repeat' first | assumption | (apply cad_mk; exact rfl; (first | assumption | split)) | split | intro _

theorem journalRec_sameCad (r : JRec) (s : State) (hs : SameCad s0 s) : SameCad s0 (journalRec r s) := by
  unfold journalRec
  try dsimp only
  with_reducible repeat' first | assumption | apply count_sameCad | apply dropRecord_sameCad | (apply cad_mk; exact rfl; (first | assumption | apply count_sameCad | apply dropRecord_sameCad | split)) | split | intro _

theorem journal_sameCad (src code sev obj aux : Nat) (detail : List Byte) (s : State) (hs : SameCad s0 s) : SameCad s0 (journal src code sev obj aux detail s) := by
  unfold journal
  try dsimp only
  with_reducible repeat' first | assumption | apply journalRec_sameCad | (apply cad_mk; exact rfl; (first | assumption | apply journalRec_sameCad | split)) | split | intro _

theorem setMb_sameCad (m : Nat) (b : Mailbox) (s : State) (hs : SameCad s0 s) : SameCad s0 (setMb m b s) := by
  unfold setMb
  try dsimp only
  with_reducible repeat' first | assumption | (apply cad_mk; exact rfl; (first | assumption | split)) | split | intro _

theorem setSlot_sameCad (m k : Nat) (v : Slot) (s : State) (hs : SameCad s0 s) : SameCad s0 (setSlot m k v s) := by
  unfold setSlot
  try dsimp only
  with_reducible repeat' first | assumption | apply setMb_sameCad | (apply cad_mk; exact rfl; (first | assumption | apply setMb_sameCad | split)) | split | intro _

theorem bar2Write_sameCad (a : Nat) (b : List Byte) (s : State) (hs : SameCad s0 s) : SameCad s0 (bar2Write a b s) := by
  unfold bar2Write
  try dsimp only
  with_reducible repeat' first | assumption | (apply cad_mk; exact rfl; (first | assumption | split)) | split | intro _

theorem recordDone_sameCad (st : Status) (s : State) (hs : SameCad s0 s) : SameCad s0 (recordDone st s) := by
  unfold recordDone
  try dsimp only
  with_reducible repeat' first | assumption | (apply cad_mk; exact rfl; (first | assumption | split)) | split | intro _

theorem complete_sameCad (m k : Nat) (st : Status) (time state : Nat) (res : List Byte) (s : State) (hs : SameCad s0 s) : SameCad s0 (complete m k st time state res s) := by
  unfold complete
  try dsimp only
  with_reducible repeat' first | assumption | apply bar2Write_sameCad | apply emit_sameCad | apply raise_sameCad | apply recordDone_sameCad | apply setSlot_sameCad | (apply cad_mk; exact rfl; (first | assumption | apply bar2Write_sameCad | apply emit_sameCad | apply raise_sameCad | apply recordDone_sameCad | apply setSlot_sameCad | split)) | split | intro _

theorem setAxis_sameCad (a : Nat) (x : AxisSt) (s : State) (hs : SameCad s0 s) : SameCad s0 (setAxis a x s) := by
  unfold setAxis
  try dsimp only
  with_reducible repeat' first | assumption | (apply cad_mk; exact rfl; (first | assumption | split)) | split | intro _

theorem modAxis_sameCad (a : Nat) (f : AxisSt → AxisSt) (s : State) (hs : SameCad s0 s) : SameCad s0 (modAxis a f s) := by
  unfold modAxis
  try dsimp only
  with_reducible repeat' first | assumption | apply setAxis_sameCad | (apply cad_mk; exact rfl; (first | assumption | apply setAxis_sameCad | split)) | split | intro _

theorem setGrp_sameCad (g : Nat) (x : GroupSt) (s : State) (hs : SameCad s0 s) : SameCad s0 (setGrp g x s) := by
  unfold setGrp
  try dsimp only
  with_reducible repeat' first | assumption | (apply cad_mk; exact rfl; (first | assumption | split)) | split | intro _

theorem modGrp_sameCad (g : Nat) (f : GroupSt → GroupSt) (s : State) (hs : SameCad s0 s) : SameCad s0 (modGrp g f s) := by
  unfold modGrp
  try dsimp only
  with_reducible repeat' first | assumption | apply setGrp_sameCad | (apply cad_mk; exact rfl; (first | assumption | apply setGrp_sameCad | split)) | split | intro _

theorem setChan_sameCad (c : Nat) (x : Chan) (s : State) (hs : SameCad s0 s) : SameCad s0 (setChan c x s) := by
  unfold setChan
  try dsimp only
  with_reducible repeat' first | assumption | (apply cad_mk; exact rfl; (first | assumption | split)) | split | intro _

theorem modChan_sameCad (c : Nat) (f : Chan → Chan) (s : State) (hs : SameCad s0 s) : SameCad s0 (modChan c f s) := by
  unfold modChan
  try dsimp only
  with_reducible repeat' first | assumption | apply setChan_sameCad | (apply cad_mk; exact rfl; (first | assumption | apply setChan_sameCad | split)) | split | intro _

theorem setFg_sameCad (x : Nat) (v : FieldGroup) (s : State) (hs : SameCad s0 s) : SameCad s0 (setFg x v s) := by
  unfold setFg
  try dsimp only
  with_reducible repeat' first | assumption | (apply cad_mk; exact rfl; (first | assumption | split)) | split | intro _

theorem setStp_sameCad (n : Nat) (v : StpAxis) (s : State) (hs : SameCad s0 s) : SameCad s0 (setStp n v s) := by
  unfold setStp
  try dsimp only
  with_reducible repeat' first | assumption | (apply cad_mk; exact rfl; (first | assumption | split)) | split | intro _

theorem stpPut_sameCad (n : Nat) (y : StpAxis) (s : State) (hs : SameCad s0 s) : SameCad s0 (stpPut n y s) := by
  unfold stpPut
  split
  · exact setStp_sameCad _ _ _ hs
  · exact emit_sameCad _ _ _ _ (setStp_sameCad _ _ _ hs)

theorem setSeg_sameCad (k : Nat) (v : Segment) (s : State) (hs : SameCad s0 s) : SameCad s0 (setSeg k v s) := by
  unfold setSeg
  try dsimp only
  with_reducible repeat' first | assumption | (apply cad_mk; exact rfl; (first | assumption | split)) | split | intro _

theorem forNat_sameCad (l : List Nat) (f : Nat → State → State) (s : State) (hf : ∀ n t, SameCad s0 t → SameCad s0 (f n t)) (hs : SameCad s0 s) :
    SameCad s0 (forNat l f s) := by
  induction l generalizing s with
  | nil => exact hs
  | cons x r ih => exact ih _ (hf _ _ hs)

theorem reqStopGrp_sameCad (g cat : Nat) (s : State) (hs : SameCad s0 s) : SameCad s0 (reqStopGrp g cat s) := by
  unfold reqStopGrp
  try dsimp only
  with_reducible repeat' first | assumption | apply modGrp_sameCad | (apply cad_mk; exact rfl; (first | assumption | apply modGrp_sameCad | split)) | split | intro _

theorem reqStopAxis_sameCad (a cat : Nat) (s : State) (hs : SameCad s0 s) : SameCad s0 (reqStopAxis a cat s) := by
  unfold reqStopAxis
  try dsimp only
  with_reducible repeat' first | assumption | apply modAxis_sameCad | (apply cad_mk; exact rfl; (first | assumption | apply modAxis_sameCad | split)) | split | intro _

theorem reqFault_sameCad (a code : Nat) (s : State) (hs : SameCad s0 s) : SameCad s0 (reqFault a code s) := by
  unfold reqFault
  try dsimp only
  with_reducible repeat' first | assumption | apply modAxis_sameCad | (apply cad_mk; exact rfl; (first | assumption | apply modAxis_sameCad | split)) | split | intro _

theorem setDir_sameCad (d : Die) (x : XDir) (s : State) (hs : SameCad s0 s) : SameCad s0 (setDir d x s) := by
  unfold setDir
  try dsimp only
  with_reducible repeat' first | assumption | (apply cad_mk; exact rfl; (first | assumption | split)) | split | intro _

theorem xsendFlit_sameCad (d : Die) (cls : Nat) (data : List Byte) (s : State) (hs : SameCad s0 s) : SameCad s0 (xsendFlit d cls data s) := by
  unfold xsendFlit
  try dsimp only
  with_reducible repeat' first | assumption | apply emit_sameCad | apply setDir_sameCad | (apply cad_mk; exact rfl; (first | assumption | apply emit_sameCad | apply setDir_sameCad | split)) | split | intro _

theorem xsend_sameCad (d : Die) (cls : Nat) (data : List Byte) (s : State) (hs : SameCad s0 s) : SameCad s0 (xsend d cls data s) := by
  unfold xsend
  try dsimp only
  with_reducible repeat' first | assumption | apply xsendFlit_sameCad | apply foldl_sameCad | (apply cad_mk; exact rfl; (first | assumption | apply xsendFlit_sameCad | apply foldl_sameCad | split)) | split | intro _

theorem setCls_sameCad (k : Nat) (v : ClassSt) (s : State) (hs : SameCad s0 s) : SameCad s0 (setCls k v s) := by
  unfold setCls
  try dsimp only
  with_reducible repeat' first | assumption | (apply cad_mk; exact rfl; (first | assumption | split)) | split | intro _

theorem noteDepth_sameCad (k : Nat) (s : State) (hs : SameCad s0 s) : SameCad s0 (noteDepth k s) := by
  unfold noteDepth
  try dsimp only
  with_reducible repeat' first | assumption | apply raiseIf_sameCad | apply setCls_sameCad | (apply cad_mk; exact rfl; (first | assumption | apply raiseIf_sameCad | apply setCls_sameCad | split)) | split | intro _

theorem setShares_sameCad (l : List Share) (s : State) (hs : SameCad s0 s) : SameCad s0 (setShares l s) := by
  unfold setShares
  try dsimp only
  with_reducible repeat' first | assumption | apply forNat_sameCad | apply noteDepth_sameCad | (apply cad_mk; exact rfl; (first | assumption | apply forNat_sameCad | apply noteDepth_sameCad | split)) | split | intro _

theorem freeShares_sameCad (p : Share → Bool) (s : State) (hs : SameCad s0 s) : SameCad s0 (freeShares p s) := by
  unfold freeShares
  try dsimp only
  with_reducible repeat' first | assumption | apply setShares_sameCad | (apply cad_mk; exact rfl; (first | assumption | apply setShares_sameCad | split)) | split | intro _

theorem tileMarks_sameCad (u : Nat) (m : Marks) (s : State) (hs : SameCad s0 s) : SameCad s0 (tileMarks u m s) := by
  unfold tileMarks
  try dsimp only
  with_reducible repeat' first | assumption | apply countN_sameCad | (apply cad_mk; exact rfl; (first | assumption | apply countN_sameCad | split)) | split | intro _

theorem loopEff_sameCad (t : Nat) (e : Eff) (s : State) (hs : SameCad s0 s) : SameCad s0 (loopEff t e s) := by
  unfold loopEff
  try dsimp only
  with_reducible repeat' first | assumption | apply raise_sameCad | apply setAxis_sameCad | (apply cad_mk; exact rfl; (first | assumption | apply raise_sameCad | apply setAxis_sameCad | split)) | split | intro _

theorem setUnit_sameCad (u : Nat) (a : Option Armed) (s : State) (hs : SameCad s0 s) : SameCad s0 (setUnit u a s) := by
  unfold setUnit
  try dsimp only
  with_reducible repeat' first | assumption | (apply cad_mk; exact rfl; (first | assumption | split)) | split | intro _

theorem freeUnits_sameCad (p : Armed → Bool) (s : State) (hs : SameCad s0 s) : SameCad s0 (freeUnits p s) := by
  unfold freeUnits
  try dsimp only
  with_reducible repeat' first | assumption | (apply cad_mk; exact rfl; (first | assumption | split)) | split | intro _

theorem drivePin_sameCad (c : Nat) (v : Bool) (s : State) (hs : SameCad s0 s) : SameCad s0 (drivePin c v s) := by
  unfold drivePin
  try dsimp only
  with_reducible repeat' first | assumption | apply count_sameCad | apply emit_sameCad | apply setChan_sameCad | (apply cad_mk; exact rfl; (first | assumption | apply count_sameCad | apply emit_sameCad | apply setChan_sameCad | split)) | split | intro _

theorem pinsAll_sameCad (s : State) (hs : SameCad s0 s) : SameCad s0 (pinsAll s) := by
  unfold pinsAll
  try dsimp only
  with_reducible repeat' first | assumption | apply drivePin_sameCad | apply forNat_sameCad | (apply cad_mk; exact rfl; (first | assumption | apply drivePin_sameCad | apply forNat_sameCad | split)) | split | intro _

theorem pinsOff_sameCad (s : State) (hs : SameCad s0 s) : SameCad s0 (pinsOff s) := by
  unfold pinsOff
  try dsimp only
  with_reducible repeat' first | assumption | apply drivePin_sameCad | apply forNat_sameCad | (apply cad_mk; exact rfl; (first | assumption | apply drivePin_sameCad | apply forNat_sameCad | split)) | split | intro _

theorem fioReport_sameCad (ev : Option Nat) (code sev obj : Nat) (detail : List Byte) (s : State) (hs : SameCad s0 s) : SameCad s0 (fioReport ev code sev obj detail s) := by
  unfold fioReport
  try dsimp only
  with_reducible repeat' first | assumption | apply journal_sameCad | apply raise_sameCad | (apply cad_mk; exact rfl; (first | assumption | apply journal_sameCad | apply raise_sameCad | split)) | split | intro _

theorem setSupply_sameCad (x code mv : Nat) (s : State) (hs : SameCad s0 s) : SameCad s0 (setSupply x code mv s) := by
  unfold setSupply
  try dsimp only
  with_reducible repeat' first | assumption | apply count_sameCad | apply fioReport_sameCad | apply setFg_sameCad | (apply cad_mk; exact rfl; (first | assumption | apply count_sameCad | apply fioReport_sameCad | apply setFg_sameCad | split)) | split | intro _

theorem supplyRelease_sameCad (x : Nat) (s : State) (hs : SameCad s0 s) : SameCad s0 (supplyRelease x s) := by
  unfold supplyRelease
  try dsimp only
  with_reducible repeat' first | assumption | apply setFg_sameCad | apply setSupply_sameCad | (apply cad_mk; exact rfl; (first | assumption | apply setFg_sameCad | apply setSupply_sameCad | split)) | split | intro _

theorem writeCh_sameCad (f : Chan → Bool → Chan) (mask value : Word) (s : State) (hs : SameCad s0 s) : SameCad s0 (writeCh f mask value s) := by
  unfold writeCh
  try dsimp only
  with_reducible repeat' first | assumption | apply forNat_sameCad | apply modChan_sameCad | (apply cad_mk; exact rfl; (first | assumption | apply forNat_sameCad | apply modChan_sameCad | split)) | split | intro _

theorem buildImage_sameCad (t : Nat) (s : State) (hs : SameCad s0 s) : SameCad s0 (buildImage t s) := by
  unfold buildImage
  try dsimp only
  with_reducible repeat' first | assumption | apply setUnit_sameCad | apply writeCh_sameCad | apply foldl_sameCad | (apply cad_mk; exact rfl; (first | assumption | apply setUnit_sameCad | apply writeCh_sameCad | apply foldl_sameCad | split)) | split | intro _

theorem ioCadence_sameCad (s : State) (hs : SameCad s0 s) : SameCad s0 (ioCadence s) := by
  unfold ioCadence
  try dsimp only
  with_reducible repeat' first | assumption | apply forNat_sameCad | apply pinsAll_sameCad | apply supplyRelease_sameCad | apply writeCh_sameCad | (apply cad_mk; exact rfl; (first | assumption | apply forNat_sameCad | apply pinsAll_sameCad | apply supplyRelease_sameCad | apply writeCh_sameCad | split)) | split | intro _

theorem badInput_sameCad (x : Nat) (s : State) (hs : SameCad s0 s) : SameCad s0 (badInput x s) := by
  unfold badInput
  try dsimp only
  with_reducible repeat' first | assumption | apply forNat_sameCad | apply reqStopAxis_sameCad | apply reqStopGrp_sameCad | (apply cad_mk; exact rfl; (first | assumption | apply forNat_sameCad | apply reqStopAxis_sameCad | apply reqStopGrp_sameCad | split)) | split | intro _

theorem stoGroup_sameCad (g : Nat) (s : State) (hs : SameCad s0 s) : SameCad s0 (stoGroup g s) := by
  unfold stoGroup
  try dsimp only
  with_reducible repeat' first | assumption | apply forNat_sameCad | apply modChan_sameCad | apply pinsOff_sameCad | (apply cad_mk; exact rfl; (first | assumption | apply forNat_sameCad | apply modChan_sameCad | apply pinsOff_sameCad | split)) | split | intro _

theorem ioReenableEff_sameCad (e : Eff) (s : State) (hs : SameCad s0 s) : SameCad s0 (ioReenableEff e s) := by
  unfold ioReenableEff
  try dsimp only
  with_reducible repeat' first | assumption | apply forNat_sameCad | apply modChan_sameCad | apply setFg_sameCad | (apply cad_mk; exact rfl; (first | assumption | apply forNat_sameCad | apply modChan_sameCad | apply setFg_sameCad | split)) | split | intro _

theorem ioReleaseEff_sameCad (s : State) (hs : SameCad s0 s) : SameCad s0 (ioReleaseEff s) := by
  unfold ioReleaseEff
  try dsimp only
  with_reducible repeat' first | assumption | (apply cad_mk; exact rfl; (first | assumption | split)) | split | intro _

theorem ioStoResetEff_sameCad (e : Eff) (s : State) (hs : SameCad s0 s) : SameCad s0 (ioStoResetEff e s) := by
  unfold ioStoResetEff
  try dsimp only
  with_reducible repeat' first | assumption | apply forNat_sameCad | apply modChan_sameCad | (apply cad_mk; exact rfl; (first | assumption | apply forNat_sameCad | apply modChan_sameCad | split)) | split | intro _

theorem slewCadence_sameCad (s : State) (hs : SameCad s0 s) : SameCad s0 (slewCadence s) := by
  unfold slewCadence
  try dsimp only
  with_reducible repeat' first | assumption | apply count_sameCad | (apply cad_mk; exact rfl; (first | assumption | apply count_sameCad | split)) | split | intro _

theorem addSlewWith_sameCad (d : Int) (ppm ramp : Nat) (s : State) (hs : SameCad s0 s) : SameCad s0 (addSlewWith d ppm ramp s) := by
  unfold addSlewWith
  try dsimp only
  with_reducible repeat' first | assumption | (apply cad_mk; exact rfl; (first | assumption | split)) | split | intro _

theorem addSlew_sameCad (d : Int) (s : State) (hs : SameCad s0 s) : SameCad s0 (addSlew d s) := by
  unfold addSlew
  try dsimp only
  with_reducible repeat' first | assumption | apply addSlewWith_sameCad | (apply cad_mk; exact rfl; (first | assumption | apply addSlewWith_sameCad | split)) | split | intro _

theorem plantStep_sameCad (d : Int) (epoch : BitVec 16) (s : State) (hs : SameCad s0 s) : SameCad s0 (plantStep d epoch s) := by
  unfold plantStep
  try dsimp only
  with_reducible repeat' first | assumption | apply journal_sameCad | apply raise_sameCad | (apply cad_mk; exact rfl; (first | assumption | apply journal_sameCad | apply raise_sameCad | split)) | split | intro _

theorem sendActions_sameCad (s : State) (hs : SameCad s0 s) : SameCad s0 (sendActions s) := by
  unfold sendActions
  try dsimp only
  with_reducible repeat' first | assumption | (apply cad_mk; exact rfl; (first | assumption | split)) | split | intro _

theorem gmCadence_sameCad (s : State) (hs : SameCad s0 s) : SameCad s0 (gmCadence s) := by
  unfold gmCadence
  try dsimp only
  with_reducible repeat' first | assumption | (apply cad_mk; exact rfl; (first | assumption | split)) | split | intro _

theorem setPlantEff_sameCad (e : Eff) (s : State) (hs : SameCad s0 s) : SameCad s0 (setPlantEff e s) := by
  unfold setPlantEff
  try dsimp only
  with_reducible repeat' first | assumption | apply addSlew_sameCad | apply plantStep_sameCad | (apply cad_mk; exact rfl; (first | assumption | apply addSlew_sameCad | apply plantStep_sameCad | split)) | split | intro _

theorem modPel_sameCad (f : PelSt → PelSt) (s : State) (hs : SameCad s0 s) : SameCad s0 (modPel f s) := by
  unfold modPel
  try dsimp only
  with_reducible repeat' first | assumption | (apply cad_mk; exact rfl; (first | assumption | split)) | split | intro _

theorem pelSend_sameCad (up : Bool) (msg tx members count t2 : Nat) (s : State) (hs : SameCad s0 s) : SameCad s0 (pelSend up msg tx members count t2 s) := by
  unfold pelSend
  try dsimp only
  with_reducible repeat' first | assumption | apply count_sameCad | apply emit_sameCad | (apply cad_mk; exact rfl; (first | assumption | apply count_sameCad | apply emit_sameCad | split)) | split | intro _

theorem pelSyncFrames_sameCad (s : State) (hs : SameCad s0 s) : SameCad s0 (pelSyncFrames s) := by
  unfold pelSyncFrames
  try dsimp only
  with_reducible repeat' first | assumption | apply pelSend_sameCad | (apply cad_mk; exact rfl; (first | assumption | apply pelSend_sameCad | split)) | split | intro _

theorem driftFires_sameCad (bit code : Nat) (s : State) (hs : SameCad s0 s) : SameCad s0 (driftFires bit code s) := by
  unfold driftFires
  try dsimp only
  with_reducible repeat' first | assumption | apply journal_sameCad | apply modPel_sameCad | (apply cad_mk; exact rfl; (first | assumption | apply journal_sameCad | apply modPel_sameCad | split)) | split | intro _

theorem adopt_sameCad (down : Bool) (x : SyncInfo) (s : State) (hs : SameCad s0 s) : SameCad s0 (adopt down x s) := by
  unfold adopt
  try dsimp only
  with_reducible repeat' first | assumption | apply journal_sameCad | apply modPel_sameCad | apply raise_sameCad | (apply cad_mk; exact rfl; (first | assumption | apply journal_sameCad | apply modPel_sameCad | apply raise_sameCad | split)) | split | intro _

theorem pelServo_sameCad (s : State) (hs : SameCad s0 s) : SameCad s0 (pelServo s) := by
  unfold pelServo
  try dsimp only
  with_reducible repeat' first | assumption | (apply cad_mk; exact rfl; (first | assumption | split)) | split | intro _

theorem pelCadence_sameCad (s : State) (hs : SameCad s0 s) : SameCad s0 (pelCadence s) := by
  unfold pelCadence
  extract_lets s1 s2 s3 s4 a s5
  have h1 : SameCad s0 s1 := by
    simp only [s1]; split
    · exact adopt_sameCad _ _ _ hs
    · exact hs
  clear_value s1
  have h2 : SameCad s0 s2 := by
    simp only [s2]; split
    · exact plantStep_sameCad _ _ _ (modPel_sameCad _ _ h1)
    · exact h1
  clear_value s2
  have h4 : SameCad s0 s4 := pelServo_sameCad _ (modPel_sameCad _ _ h2)
  clear_value s4
  have h5 : SameCad s0 s5 := by
    simp only [s5]; split
    · exact driftFires_sameCad _ _ _ h4
    · exact h4
  split
  · exact pelSyncFrames_sameCad _ h5
  · exact h5

theorem pelStopEff_sameCad (s : State) (hs : SameCad s0 s) : SameCad s0 (pelStopEff s) := by
  unfold pelStopEff
  try dsimp only
  with_reducible repeat' first | assumption | apply complete_sameCad | apply modPel_sameCad | (apply cad_mk; exact rfl; (first | assumption | apply complete_sameCad | apply modPel_sameCad | split)) | split | intro _

theorem vzEvent_sameCad (k bit : Nat) (s : State) (hs : SameCad s0 s) : SameCad s0 (vzEvent k bit s) := by
  unfold vzEvent
  try dsimp only
  with_reducible repeat' first | assumption | apply raise_sameCad | apply setSeg_sameCad | (apply cad_mk; exact rfl; (first | assumption | apply raise_sameCad | apply setSeg_sameCad | split)) | split | intro _

theorem segTo_sameCad (k st : Nat) (s : State) (hs : SameCad s0 s) : SameCad s0 (segTo k st s) := by
  unfold segTo
  try dsimp only
  with_reducible repeat' first | assumption | apply setSeg_sameCad | apply vzEvent_sameCad | (apply cad_mk; exact rfl; (first | assumption | apply setSeg_sameCad | apply vzEvent_sameCad | split)) | split | intro _

theorem masterSend_sameCad (k port type entries time : Nat) (body : List Byte) (s : State) (hs : SameCad s0 s) : SameCad s0 (masterSend k port type entries time body s) := by
  unfold masterSend
  try dsimp only
  with_reducible repeat' first | assumption | apply count_sameCad | apply emit_sameCad | (apply cad_mk; exact rfl; (first | assumption | apply count_sameCad | apply emit_sameCad | split)) | split | intro _

theorem masterDown_sameCad (k type entries time : Nat) (body : List Byte) (s : State) (hs : SameCad s0 s) : SameCad s0 (masterDown k type entries time body s) := by
  unfold masterDown
  try dsimp only
  with_reducible repeat' first | assumption | apply masterSend_sameCad | (apply cad_mk; exact rfl; (first | assumption | apply masterSend_sameCad | split)) | split | intro _

theorem cadenceFrame_sameCad (k : Nat) (s : State) (hs : SameCad s0 s) : SameCad s0 (cadenceFrame k s) := by
  unfold cadenceFrame
  try dsimp only
  with_reducible repeat' first | assumption | apply forNat_sameCad | apply masterDown_sameCad | apply modAxis_sameCad | (apply cad_mk; exact rfl; (first | assumption | apply forNat_sameCad | apply masterDown_sameCad | apply modAxis_sameCad | split)) | split | intro _

theorem sendAcyclic_sameCad (k : Nat) (s : State) (hs : SameCad s0 s) : SameCad s0 (sendAcyclic k s) := by
  unfold sendAcyclic
  try dsimp only
  with_reducible repeat' first | assumption | apply masterDown_sameCad | apply setSeg_sameCad | apply foldl_sameCad | (apply cad_mk; exact rfl; (first | assumption | apply masterDown_sameCad | apply setSeg_sameCad | apply foldl_sameCad | split)) | split | intro _

theorem startEnd_sameCad (k reason col rule : Nat) (st : Status) (s : State) (hs : SameCad s0 s) : SameCad s0 (startEnd k reason col rule st s) := by
  unfold startEnd
  try dsimp only
  with_reducible repeat' first | assumption | apply complete_sameCad | apply setSeg_sameCad | (apply cad_mk; exact rfl; (first | assumption | apply complete_sameCad | apply setSeg_sameCad | split)) | split | intro _

theorem startFail_sameCad (k reason col rule : Nat) (s : State) (hs : SameCad s0 s) : SameCad s0 (startFail k reason col rule s) := by
  unfold startFail
  try dsimp only
  with_reducible repeat' first | assumption | apply startEnd_sameCad | (apply cad_mk; exact rfl; (first | assumption | apply startEnd_sameCad | split)) | split | intro _

theorem setStart_sameCad (k : Nat) (o : StartOp) (s : State) (hs : SameCad s0 s) : SameCad s0 (setStart k o s) := by
  unfold setStart
  try dsimp only
  with_reducible repeat' first | assumption | apply setSeg_sameCad | (apply cad_mk; exact rfl; (first | assumption | apply setSeg_sameCad | split)) | split | intro _

theorem startCadence_sameCad (k : Nat) (s : State) (hs : SameCad s0 s) : SameCad s0 (startCadence k s) := by
  unfold startCadence
  try dsimp only
  with_reducible repeat' first | assumption | apply masterDown_sameCad | apply setStart_sameCad | apply startEnd_sameCad | apply startFail_sameCad | (apply cad_mk; exact rfl; (first | assumption | apply masterDown_sameCad | apply setStart_sameCad | apply startEnd_sameCad | apply startFail_sameCad | split)) | split | intro _

theorem ringSplit_sameCad (k : Nat) (s : State) (hs : SameCad s0 s) : SameCad s0 (ringSplit k s) := by
  unfold ringSplit
  try dsimp only
  with_reducible repeat' first | assumption | apply journal_sameCad | apply setSeg_sameCad | apply vzEvent_sameCad | (apply cad_mk; exact rfl; (first | assumption | apply journal_sameCad | apply setSeg_sameCad | apply vzEvent_sameCad | split)) | split | intro _

theorem freewheel_sameCad (s : State) (hs : SameCad s0 s) : SameCad s0 (freewheel s) := by
  unfold freewheel
  try dsimp only
  with_reducible repeat' first | assumption | apply count_sameCad | apply forNat_sameCad | apply setAxis_sameCad | apply setSeg_sameCad | (apply cad_mk; exact rfl; (first | assumption | apply count_sameCad | apply forNat_sameCad | apply setAxis_sameCad | apply setSeg_sameCad | split)) | split | intro _

theorem sendArb_sameCad (k : Nat) (s : State) (hs : SameCad s0 s) : SameCad s0 (sendArb k s) := by
  unfold sendArb
  try dsimp only
  with_reducible repeat' first | assumption | apply setSeg_sameCad | apply forNat_sameCad | apply masterDown_sameCad | (apply cad_mk; exact rfl; (first | assumption | apply setSeg_sameCad | apply forNat_sameCad | apply masterDown_sameCad | split)) | split | intro _

theorem busCadence_sameCad (s : State) (hs : SameCad s0 s) : SameCad s0 (busCadence s) := by
  unfold busCadence
  try dsimp only
  with_reducible repeat' first | assumption | apply cadenceFrame_sameCad | apply complete_sameCad | apply forNat_sameCad | apply ringSplit_sameCad | apply sendAcyclic_sameCad | apply sendArb_sameCad | apply setSeg_sameCad | apply startCadence_sameCad | (apply cad_mk; exact rfl; (first | assumption | apply cadenceFrame_sameCad | apply complete_sameCad | apply forNat_sameCad | apply ringSplit_sameCad | apply sendAcyclic_sameCad | apply sendArb_sameCad | apply setSeg_sameCad | apply startCadence_sameCad | split)) | split | intro _

theorem busEff_sameCad (e : Eff) (s : State) (hs : SameCad s0 s) : SameCad s0 (busEff e s) := by
  unfold busEff
  try dsimp only
  with_reducible repeat' first | assumption | apply segTo_sameCad | apply setSeg_sameCad | apply startEnd_sameCad | (apply cad_mk; exact rfl; (first | assumption | apply segTo_sameCad | apply setSeg_sameCad | apply startEnd_sameCad | split)) | split | intro _

theorem freeLoop_sameCad (a : Nat) (s : State) (hs : SameCad s0 s) : SameCad s0 (freeLoop a s) := by
  unfold freeLoop
  try dsimp only
  with_reducible repeat' first | assumption | apply freeShares_sameCad | (apply cad_mk; exact rfl; (first | assumption | apply freeShares_sameCad | split)) | split | intro _

theorem beginEnable_sameCad (a : Nat) (s : State) (hs : SameCad s0 s) : SameCad s0 (beginEnable a s) := by
  unfold beginEnable
  try dsimp only
  with_reducible repeat' first | assumption | apply modAxis_sameCad | (apply cad_mk; exact rfl; (first | assumption | apply modAxis_sameCad | split)) | split | intro _

theorem toDisabled_sameCad (a : Nat) (sto : Bool) (s : State) (hs : SameCad s0 s) : SameCad s0 (toDisabled a sto s) := by
  unfold toDisabled
  try dsimp only
  with_reducible repeat' first | assumption | apply freeLoop_sameCad | apply modAxis_sameCad | (apply cad_mk; exact rfl; (first | assumption | apply freeLoop_sameCad | apply modAxis_sameCad | split)) | split | intro _

theorem toHeld_sameCad (a : Nat) (s : State) (hs : SameCad s0 s) : SameCad s0 (toHeld a s) := by
  unfold toHeld
  try dsimp only
  with_reducible repeat' first | assumption | apply freeLoop_sameCad | apply modAxis_sameCad | (apply cad_mk; exact rfl; (first | assumption | apply freeLoop_sameCad | apply modAxis_sameCad | split)) | split | intro _

theorem toClosed_sameCad (a : Nat) (s : State) (hs : SameCad s0 s) : SameCad s0 (toClosed a s) := by
  unfold toClosed
  try dsimp only
  with_reducible repeat' first | assumption | apply modAxis_sameCad | (apply cad_mk; exact rfl; (first | assumption | apply modAxis_sameCad | split)) | split | intro _

theorem genStop_sameCad (a : Nat) (s : State) (hs : SameCad s0 s) : SameCad s0 (genStop a s) := by
  unfold genStop
  try dsimp only
  with_reducible repeat' first | assumption | apply modAxis_sameCad | (apply cad_mk; exact rfl; (first | assumption | apply modAxis_sameCad | split)) | split | intro _

theorem stopAxis_sameCad (gen : Bool) (cat a : Nat) (s : State) (hs : SameCad s0 s) : SameCad s0 (stopAxis gen cat a s) := by
  unfold stopAxis
  try dsimp only
  with_reducible repeat' first | assumption | apply genStop_sameCad | apply modAxis_sameCad | apply toDisabled_sameCad | (apply cad_mk; exact rfl; (first | assumption | apply genStop_sameCad | apply modAxis_sameCad | apply toDisabled_sameCad | split)) | split | intro _

theorem faultAxis_sameCad (a : Nat) (s : State) (hs : SameCad s0 s) : SameCad s0 (faultAxis a s) := by
  unfold faultAxis
  try dsimp only
  with_reducible repeat' first | assumption | apply freeLoop_sameCad | apply journal_sameCad | apply modAxis_sameCad | apply foldl_sameCad | (apply cad_mk; exact rfl; (first | assumption | apply freeLoop_sameCad | apply journal_sameCad | apply modAxis_sameCad | apply foldl_sameCad | split)) | split | intro _

theorem ungroupedFaultStop_sameCad (a : Nat) (s : State) (hs : SameCad s0 s) : SameCad s0 (ungroupedFaultStop a s) := by
  unfold ungroupedFaultStop
  try dsimp only
  with_reducible repeat' first | assumption | apply modAxis_sameCad | (apply cad_mk; exact rfl; (first | assumption | apply modAxis_sameCad | split)) | split | intro _

theorem axisConditions_sameCad (a : Nat) (s : State) (hs : SameCad s0 s) : SameCad s0 (axisConditions a s) := by
  unfold axisConditions
  extract_lets x ten enabled fresh
  clear_value fresh ten
  split
  · split
    · exact hs
    split
    · exact reqFault_sameCad _ _ _ hs
    split
    · exact hs
    split
    · exact modAxis_sameCad _ _ _ hs
    · exact reqFault_sameCad _ _ _ hs
  · split
    · exact hs
    split
    · exact toDisabled_sameCad _ _ _ hs
    · exact reqFault_sameCad _ _ _ hs
  · split
    · exact hs
    split
    · exact modAxis_sameCad _ _ _ hs
    · exact modAxis_sameCad _ _ _ hs
  · exact hs

theorem driveFault_sameCad (a : Nat) (s : State) (hs : SameCad s0 s) : SameCad s0 (driveFault a s) := by
  unfold driveFault
  try dsimp only
  with_reducible repeat' first | assumption | apply reqFault_sameCad | (apply cad_mk; exact rfl; (first | assumption | apply reqFault_sameCad | split)) | split | intro _

theorem deferredLimits_sameCad (a : Nat) (s : State) (hs : SameCad s0 s) : SameCad s0 (deferredLimits a s) := by
  unfold deferredLimits
  try dsimp only
  with_reducible repeat' first | assumption | apply journal_sameCad | apply setAxis_sameCad | (apply cad_mk; exact rfl; (first | assumption | apply journal_sameCad | apply setAxis_sameCad | split)) | split | intro _

theorem genStep_sameCad (a : Nat) (s : State) (hs : SameCad s0 s) : SameCad s0 (genStep a s) := by
  unfold genStep
  try dsimp only
  with_reducible repeat' first | assumption | apply modAxis_sameCad | (apply cad_mk; exact rfl; (first | assumption | apply modAxis_sameCad | split)) | split | intro _

theorem countZero_sameCad (a : Nat) (s : State) (hs : SameCad s0 s) : SameCad s0 (countZero a s) := by
  unfold countZero
  try dsimp only
  with_reducible repeat' first | assumption | apply modAxis_sameCad | (apply cad_mk; exact rfl; (first | assumption | apply modAxis_sameCad | split)) | split | intro _

theorem axisEff_sameCad (e : Eff) (s : State) (hs : SameCad s0 s) : SameCad s0 (axisEff e s) := by
  unfold axisEff
  try dsimp only
  with_reducible repeat' first | assumption | apply beginEnable_sameCad | apply freeLoop_sameCad | apply modAxis_sameCad | apply setAxis_sameCad | apply toClosed_sameCad | apply toDisabled_sameCad | apply toHeld_sameCad | (apply cad_mk; exact rfl; (first | assumption | apply beginEnable_sameCad | apply freeLoop_sameCad | apply modAxis_sameCad | apply setAxis_sameCad | apply toClosed_sameCad | apply toDisabled_sameCad | apply toHeld_sameCad | split)) | split | intro _

theorem setFlow_sameCad (f : Nat) (v : Flow) (s : State) (hs : SameCad s0 s) : SameCad s0 (setFlow f v s) := by
  unfold setFlow
  try dsimp only
  with_reducible repeat' first | assumption | (apply cad_mk; exact rfl; (first | assumption | split)) | split | intro _

theorem addBusy_sameCad (k u n : Nat) (s : State) (hs : SameCad s0 s) : SameCad s0 (addBusy k u n s) := by
  unfold addBusy
  try dsimp only
  with_reducible repeat' first | assumption | apply countN_sameCad | (apply cad_mk; exact rfl; (first | assumption | apply countN_sameCad | split)) | split | intro _

theorem makeReady_sameCad (t : Task) (s : State) (hs : SameCad s0 s) : SameCad s0 (makeReady t s) := by
  unfold makeReady
  try dsimp only
  with_reducible repeat' first | assumption | apply noteDepth_sameCad | apply setCls_sameCad | (apply cad_mk; exact rfl; (first | assumption | apply noteDepth_sameCad | apply setCls_sameCad | split)) | split | intro _

theorem resumeFft_sameCad (s : State) (hs : SameCad s0 s) : SameCad s0 (resumeFft s) := by
  unfold resumeFft
  try dsimp only
  with_reducible repeat' first | assumption | apply makeReady_sameCad | apply setCls_sameCad | apply foldl_sameCad | (apply cad_mk; exact rfl; (first | assumption | apply makeReady_sameCad | apply setCls_sameCad | apply foldl_sameCad | split)) | split | intro _

theorem flowLimitEff_sameCad (e : Eff) (s : State) (hs : SameCad s0 s) : SameCad s0 (flowLimitEff e s) := by
  unfold flowLimitEff
  try dsimp only
  with_reducible repeat' first | assumption | apply setFlow_sameCad | (apply cad_mk; exact rfl; (first | assumption | apply setFlow_sameCad | split)) | split | intro _

theorem stpEvent_sameCad (n : Nat) (cause : BitVec 8) (s : State) (hs : SameCad s0 s) : SameCad s0 (stpEvent n cause s) := by
  unfold stpEvent
  try dsimp only
  with_reducible repeat' first | assumption | apply raise_sameCad | apply stpPut_sameCad | apply setStp_sameCad | (apply cad_mk; exact rfl; (first | assumption | apply raise_sameCad | apply stpPut_sameCad | apply setStp_sameCad | split)) | split | intro _

theorem stpGo_sameCad (n : Nat) (st : StpState) (s : State) (hs : SameCad s0 s) : SameCad s0 (stpGo n st s) := by
  unfold stpGo
  try dsimp only
  with_reducible repeat' first | assumption | apply stpPut_sameCad | apply setStp_sameCad | apply stpEvent_sameCad | (apply cad_mk; exact rfl; (first | assumption | apply stpPut_sameCad | apply setStp_sameCad | apply stpEvent_sameCad | split)) | split | intro _

theorem stpSuspect_sameCad (n : Nat) (s : State) (hs : SameCad s0 s) : SameCad s0 (stpSuspect n s) := by
  unfold stpSuspect
  try dsimp only
  with_reducible repeat' first | assumption | apply journal_sameCad | apply stpPut_sameCad | apply setStp_sameCad | apply stpEvent_sameCad | (apply cad_mk; exact rfl; (first | assumption | apply journal_sameCad | apply stpPut_sameCad | apply setStp_sameCad | apply stpEvent_sameCad | split)) | split | intro _

theorem stpPreempt_sameCad (n : Nat) (c : StpCmd) (s : State) (hs : SameCad s0 s) : SameCad s0 (stpPreempt n c s) := by
  unfold stpPreempt
  try dsimp only
  with_reducible repeat' first | assumption | apply journal_sameCad | apply stpEvent_sameCad | (apply cad_mk; exact rfl; (first | assumption | apply journal_sameCad | apply stpEvent_sameCad | split)) | split | intro _

theorem stpDropMoves_sameCad (n t : Nat) (s : State) (hs : SameCad s0 s) : SameCad s0 (stpDropMoves n t s) := by
  unfold stpDropMoves
  try dsimp only
  with_reducible repeat' first | assumption | apply stpPut_sameCad | apply setStp_sameCad | apply stpPreempt_sameCad | apply foldl_sameCad | (apply cad_mk; exact rfl; (first | assumption | apply stpPut_sameCad | apply setStp_sameCad | apply stpPreempt_sameCad | apply foldl_sameCad | split)) | split | intro _

theorem stpAbort_sameCad (n : Nat) (s : State) (hs : SameCad s0 s) : SameCad s0 (stpAbort n s) := by
  unfold stpAbort
  try dsimp only
  with_reducible repeat' first | assumption | apply stpPut_sameCad | apply setStp_sameCad | apply stpEvent_sameCad | (apply cad_mk; exact rfl; (first | assumption | apply stpPut_sameCad | apply setStp_sameCad | apply stpEvent_sameCad | split)) | split | intro _

theorem stpRamp_sameCad (n t : Nat) (s : State) (hs : SameCad s0 s) : SameCad s0 (stpRamp n t s) := by
  unfold stpRamp
  try dsimp only
  with_reducible repeat' first | assumption | apply stpPut_sameCad | apply setStp_sameCad | apply stpAbort_sameCad | apply stpDropMoves_sameCad | apply stpEvent_sameCad | (apply cad_mk; exact rfl; (first | assumption | apply stpPut_sameCad | apply setStp_sameCad | apply stpAbort_sameCad | apply stpDropMoves_sameCad | apply stpEvent_sameCad | split)) | split | intro _

theorem stpImmediate_sameCad (n : Nat) (off : Bool) (s : State) (hs : SameCad s0 s) : SameCad s0 (stpImmediate n off s) := by
  unfold stpImmediate
  try dsimp only
  with_reducible repeat' first | assumption | apply count_sameCad | apply stpPut_sameCad | apply setStp_sameCad | apply stpAbort_sameCad | apply stpDropMoves_sameCad | apply stpEvent_sameCad | apply stpGo_sameCad | apply stpSuspect_sameCad | (apply cad_mk; exact rfl; (first | assumption | apply count_sameCad | apply stpPut_sameCad | apply setStp_sameCad | apply stpAbort_sameCad | apply stpDropMoves_sameCad | apply stpEvent_sameCad | apply stpGo_sameCad | apply stpSuspect_sameCad | split)) | split | intro _

theorem stpGroupStop_sameCad (g cat t : Nat) (s : State) (hs : SameCad s0 s) : SameCad s0 (stpGroupStop g cat t s) := by
  unfold stpGroupStop
  try dsimp only
  with_reducible repeat' first | assumption | apply forNat_sameCad | apply stpImmediate_sameCad | apply stpRamp_sameCad | (apply cad_mk; exact rfl; (first | assumption | apply forNat_sameCad | apply stpImmediate_sameCad | apply stpRamp_sameCad | split)) | split | intro _

theorem stpHomeFail_sameCad (n reason t : Nat) (s : State) (hs : SameCad s0 s) : SameCad s0 (stpHomeFail n reason t s) := by
  unfold stpHomeFail
  try dsimp only
  with_reducible repeat' first | assumption | apply stpPut_sameCad | apply setStp_sameCad | apply stpEvent_sameCad | (apply cad_mk; exact rfl; (first | assumption | apply stpPut_sameCad | apply setStp_sameCad | apply stpEvent_sameCad | split)) | split | intro _

theorem stpHomeTick_sameCad (n t : Nat) (s : State) (hs : SameCad s0 s) : SameCad s0 (stpHomeTick n t s) := by
  unfold stpHomeTick
  try dsimp only
  with_reducible repeat' first | assumption | apply stpPut_sameCad | apply setStp_sameCad | apply stpEvent_sameCad | apply stpHomeFail_sameCad | (apply cad_mk; exact rfl; (first | assumption | apply stpPut_sameCad | apply setStp_sameCad | apply stpEvent_sameCad | apply stpHomeFail_sameCad | split)) | split | intro _

theorem stpCompute_sameCad (c1 c2 : Nat) (s : State) (hs : SameCad s0 s) : SameCad s0 (stpCompute c1 c2 s) := by
  unfold stpCompute
  try dsimp only
  with_reducible repeat' first | assumption | apply forNat_sameCad | apply stpPut_sameCad | apply setStp_sameCad | apply stpHomeTick_sameCad | (apply cad_mk; exact rfl; (first | assumption | apply forNat_sameCad | apply stpPut_sameCad | apply setStp_sameCad | apply stpHomeTick_sameCad | split)) | split | intro _

theorem stpSegment_sameCad (t len n : Nat) (s : State) (hs : SameCad s0 s) : SameCad s0 (stpSegment t len n s) := by
  unfold stpSegment
  try dsimp only
  with_reducible repeat' first | assumption | apply count_sameCad | apply countN_sameCad | apply emit_sameCad | apply stpPut_sameCad | apply setStp_sameCad | (apply cad_mk; exact rfl; (first | assumption | apply count_sameCad | apply countN_sameCad | apply emit_sameCad | apply stpPut_sameCad | apply setStp_sameCad | split)) | split | intro _

theorem stpCadence_sameCad (t len : Nat) (s : State) (hs : SameCad s0 s) : SameCad s0 (stpCadence t len s) := by
  unfold stpCadence
  try dsimp only
  with_reducible repeat' first | assumption | apply forNat_sameCad | apply stpPut_sameCad | apply setStp_sameCad | apply stpGo_sameCad | apply stpSegment_sameCad | (apply cad_mk; exact rfl; (first | assumption | apply forNat_sameCad | apply stpPut_sameCad | apply setStp_sameCad | apply stpGo_sameCad | apply stpSegment_sameCad | split)) | split | intro _

theorem stpEff_sameCad (t : Nat) (e : Eff) (s : State) (hs : SameCad s0 s) : SameCad s0 (stpEff t e s) := by
  unfold stpEff
  extract_lets
  split
  · split
    · exact stpGo_sameCad _ _ _ (stpPut_sameCad _ _ _ hs)
    · exact hs
  split
  · split
    · exact stpGo_sameCad _ _ _ (stpPut_sameCad _ _ _ hs)
    · exact hs
  split
  · split
    · exact stpImmediate_sameCad _ _ _ hs
    · exact hs
  split
  · split
    · exact hs
    · split
      · exact stpEvent_sameCad _ _ _ (setStp_sameCad _ _ _ hs)
      · exact stpGo_sameCad _ _ _ (setStp_sameCad _ _ _ hs)
  split
  · split
    · exact stpGo_sameCad _ _ _ (stpPut_sameCad _ _ _ hs)
    · exact hs
  split
  · exact setStp_sameCad _ _ _ hs
  · exact hs

theorem grpEvent_sameCad (g code : Nat) (s : State) (hs : SameCad s0 s) : SameCad s0 (grpEvent g code s) := by
  unfold grpEvent
  try dsimp only
  with_reducible repeat' first | assumption | apply modGrp_sameCad | apply raise_sameCad | (apply cad_mk; exact rfl; (first | assumption | apply modGrp_sameCad | apply raise_sameCad | split)) | split | intro _

theorem grpTo_sameCad (g : Nat) (st : GrpState) (s : State) (hs : SameCad s0 s) : SameCad s0 (grpTo g st s) := by
  unfold grpTo
  try dsimp only
  with_reducible repeat' first | assumption | apply grpEvent_sameCad | apply setGrp_sameCad | (apply cad_mk; exact rfl; (first | assumption | apply grpEvent_sameCad | apply setGrp_sameCad | split)) | split | intro _

theorem preempted_sameCad (g tag promise : Nat) (s : State) (hs : SameCad s0 s) : SameCad s0 (preempted g tag promise s) := by
  unfold preempted
  try dsimp only
  with_reducible repeat' first | assumption | apply grpEvent_sameCad | apply journal_sameCad | (apply cad_mk; exact rfl; (first | assumption | apply grpEvent_sameCad | apply journal_sameCad | split)) | split | intro _

theorem dropTargets_sameCad (g : Nat) (s : State) (hs : SameCad s0 s) : SameCad s0 (dropTargets g s) := by
  unfold dropTargets
  try dsimp only
  with_reducible repeat' first | assumption | apply modGrp_sameCad | (apply cad_mk; exact rfl; (first | assumption | apply modGrp_sameCad | split)) | split | intro _

theorem preemptAll_sameCad (g : Nat) (l : List MpcTarget) (s : State) (hs : SameCad s0 s) : SameCad s0 (preemptAll g l s) := by
  unfold preemptAll
  try dsimp only
  with_reducible repeat' first | assumption | apply preempted_sameCad | apply foldl_sameCad | (apply cad_mk; exact rfl; (first | assumption | apply preempted_sameCad | apply foldl_sameCad | split)) | split | intro _

theorem underrunMarks_sameCad (k : Nat) (s : State) (hs : SameCad s0 s) : SameCad s0 (underrunMarks k s) := by
  unfold underrunMarks
  try dsimp only
  with_reducible repeat' first | assumption | apply journal_sameCad | apply raise_sameCad | (apply cad_mk; exact rfl; (first | assumption | apply journal_sameCad | apply raise_sameCad | split)) | split | intro _

theorem strmTaken_sameCad (g : Nat) (s : State) (hs : SameCad s0 s) : SameCad s0 (strmTaken g s) := by
  unfold strmTaken
  try dsimp only
  with_reducible repeat' first | assumption | apply modGrp_sameCad | apply underrunMarks_sameCad | (apply cad_mk; exact rfl; (first | assumption | apply modGrp_sameCad | apply underrunMarks_sameCad | split)) | split | intro _

theorem resetMotion_sameCad (g : Nat) (s : State) (hs : SameCad s0 s) : SameCad s0 (resetMotion g s) := by
  unfold resetMotion
  try dsimp only
  with_reducible repeat' first | assumption | apply homePhase_sameCad | apply modGrp_sameCad | (apply cad_mk; exact rfl; (first | assumption | apply homePhase_sameCad | apply modGrp_sameCad | split)) | split | intro _

theorem idleStop_sameCad (g cat : Nat) (ax : Bool) (s : State) (hs : SameCad s0 s) : SameCad s0 (idleStop g cat ax s) := by
  unfold idleStop
  try dsimp only
  with_reducible repeat' first | assumption | apply forNat_sameCad | apply stoGroup_sameCad | apply stopAxis_sameCad | apply stpGroupStop_sameCad | (apply cad_mk; exact rfl; (first | assumption | apply forNat_sameCad | apply stoGroup_sameCad | apply stopAxis_sameCad | apply stpGroupStop_sameCad | split)) | split | intro _

theorem stopMembers_sameCad (g cat : Nat) (s : State) (hs : SameCad s0 s) : SameCad s0 (stopMembers g cat s) := by
  unfold stopMembers
  try dsimp only
  with_reducible repeat' first | assumption | apply idleStop_sameCad | apply modGrp_sameCad | (apply cad_mk; exact rfl; (first | assumption | apply idleStop_sameCad | apply modGrp_sameCad | split)) | split | intro _

theorem freeOpen_sameCad (g : Nat) (s : State) (hs : SameCad s0 s) : SameCad s0 (freeOpen g s) := by
  unfold freeOpen
  try dsimp only
  with_reducible repeat' first | assumption | apply forNat_sameCad | apply freeLoop_sameCad | (apply cad_mk; exact rfl; (first | assumption | apply forNat_sameCad | apply freeLoop_sameCad | split)) | split | intro _

theorem beginStop_sameCad (g cat : Nat) (outcome : GrpState) (s : State) (hs : SameCad s0 s) : SameCad s0 (beginStop g cat outcome s) := by
  unfold beginStop
  try dsimp only
  with_reducible repeat' first | assumption | apply dropTargets_sameCad | apply freeOpen_sameCad | apply grpTo_sameCad | apply modGrp_sameCad | apply preemptAll_sameCad | apply stopMembers_sameCad | apply strmTaken_sameCad | (apply cad_mk; exact rfl; (first | assumption | apply dropTargets_sameCad | apply freeOpen_sameCad | apply grpTo_sameCad | apply modGrp_sameCad | apply preemptAll_sameCad | apply stopMembers_sameCad | apply strmTaken_sameCad | split)) | split | intro _

theorem pathStop_sameCad (g : Nat) (outcome : GrpState) (s : State) (hs : SameCad s0 s) : SameCad s0 (pathStop g outcome s) := by
  unfold pathStop
  try dsimp only
  with_reducible repeat' first | assumption | apply grpTo_sameCad | apply modGrp_sameCad | (apply cad_mk; exact rfl; (first | assumption | apply grpTo_sameCad | apply modGrp_sameCad | split)) | split | intro _

theorem faultGroup_sameCad (g : Nat) (s : State) (hs : SameCad s0 s) : SameCad s0 (faultGroup g s) := by
  unfold faultGroup
  try dsimp only
  with_reducible repeat' first | assumption | apply dropTargets_sameCad | apply faultAxis_sameCad | apply forNat_sameCad | apply freeOpen_sameCad | apply grpTo_sameCad | apply journal_sameCad | apply modAxis_sameCad | apply modGrp_sameCad | apply preemptAll_sameCad | apply reqFault_sameCad | apply stoGroup_sameCad | apply stopAxis_sameCad | apply stopMembers_sameCad | apply stpGroupStop_sameCad | apply strmTaken_sameCad | (apply cad_mk; exact rfl; (first | assumption | apply dropTargets_sameCad | apply faultAxis_sameCad | apply forNat_sameCad | apply freeOpen_sameCad | apply grpTo_sameCad | apply journal_sameCad | apply modAxis_sameCad | apply modGrp_sameCad | apply preemptAll_sameCad | apply reqFault_sameCad | apply stoGroup_sameCad | apply stopAxis_sameCad | apply stopMembers_sameCad | apply stpGroupStop_sameCad | apply strmTaken_sameCad | split)) | split | intro _

theorem homeFail_sameCad (g a reason : Nat) (s : State) (hs : SameCad s0 s) : SameCad s0 (homeFail g a reason s) := by
  unfold homeFail
  try dsimp only
  with_reducible repeat' first | assumption | apply beginStop_sameCad | apply grpEvent_sameCad | apply journal_sameCad | apply modGrp_sameCad | (apply cad_mk; exact rfl; (first | assumption | apply beginStop_sameCad | apply grpEvent_sameCad | apply journal_sameCad | apply modGrp_sameCad | split)) | split | intro _

theorem homeAbort_sameCad (g cat : Nat) (out : GrpState) (s : State) (hs : SameCad s0 s) : SameCad s0 (homeAbort g cat out s) := by
  unfold homeAbort
  try dsimp only
  with_reducible repeat' first | assumption | apply beginStop_sameCad | apply grpEvent_sameCad | apply journal_sameCad | apply modGrp_sameCad | (apply cad_mk; exact rfl; (first | assumption | apply beginStop_sameCad | apply grpEvent_sameCad | apply journal_sameCad | apply modGrp_sameCad | split)) | split | intro _

theorem stopGroup_sameCad (cat g : Nat) (s : State) (hs : SameCad s0 s) : SameCad s0 (stopGroup cat g s) := by
  unfold stopGroup
  try dsimp only
  with_reducible repeat' first | assumption | apply beginStop_sameCad | apply dropTargets_sameCad | apply homeAbort_sameCad | apply idleStop_sameCad | apply modGrp_sameCad | apply preemptAll_sameCad | apply stopMembers_sameCad | apply strmTaken_sameCad | (apply cad_mk; exact rfl; (first | assumption | apply beginStop_sameCad | apply dropTargets_sameCad | apply homeAbort_sameCad | apply idleStop_sameCad | apply modGrp_sameCad | apply preemptAll_sameCad | apply stopMembers_sameCad | apply strmTaken_sameCad | split)) | split | intro _

theorem releaseFaulted_sameCad (g : Nat) (s : State) (hs : SameCad s0 s) : SameCad s0 (releaseFaulted g s) := by
  unfold releaseFaulted
  try dsimp only
  with_reducible repeat' first | assumption | apply forNat_sameCad | apply modAxis_sameCad | (apply cad_mk; exact rfl; (first | assumption | apply forNat_sameCad | apply modAxis_sameCad | split)) | split | intro _

theorem freeQp_sameCad (g : Nat) (s : State) (hs : SameCad s0 s) : SameCad s0 (freeQp g s) := by
  unfold freeQp
  try dsimp only
  with_reducible repeat' first | assumption | apply freeShares_sameCad | (apply cad_mk; exact rfl; (first | assumption | apply freeShares_sameCad | split)) | split | intro _

theorem toIdle_sameCad (g : Nat) (s : State) (hs : SameCad s0 s) : SameCad s0 (toIdle g s) := by
  unfold toIdle
  try dsimp only
  with_reducible repeat' first | assumption | apply freeOpen_sameCad | apply freeQp_sameCad | apply grpTo_sameCad | apply resetMotion_sameCad | (apply cad_mk; exact rfl; (first | assumption | apply freeOpen_sameCad | apply freeQp_sameCad | apply grpTo_sameCad | apply resetMotion_sameCad | split)) | split | intro _

theorem grpSettle_sameCad (g : Nat) (s : State) (hs : SameCad s0 s) : SameCad s0 (grpSettle g s) := by
  unfold grpSettle
  try dsimp only
  with_reducible repeat' first | assumption | apply grpTo_sameCad | apply modGrp_sameCad | apply resetMotion_sameCad | (apply cad_mk; exact rfl; (first | assumption | apply grpTo_sameCad | apply modGrp_sameCad | apply resetMotion_sameCad | split)) | split | intro _

theorem groupConditions_sameCad (g : Nat) (s : State) (hs : SameCad s0 s) : SameCad s0 (groupConditions g s) := by
  unfold groupConditions
  try dsimp only
  with_reducible repeat' first | assumption | apply forNat_sameCad | apply grpSettle_sameCad | apply grpTo_sameCad | apply homeFail_sameCad | apply modGrp_sameCad | apply releaseFaulted_sameCad | apply resetMotion_sameCad | apply toClosed_sameCad | apply toIdle_sameCad | (apply cad_mk; exact rfl; (first | assumption | apply forNat_sameCad | apply grpSettle_sameCad | apply grpTo_sameCad | apply homeFail_sameCad | apply modGrp_sameCad | apply releaseFaulted_sameCad | apply resetMotion_sameCad | apply toClosed_sameCad | apply toIdle_sameCad | split)) | split | intro _

theorem driveMembers_sameCad (g : Nat) (lam rate : Fx) (k : Knot) (s : State) (hs : SameCad s0 s) : SameCad s0 (driveMembers g lam rate k s) := by
  unfold driveMembers
  try dsimp only
  with_reducible repeat' first | assumption | apply forNat_sameCad | apply setAxis_sameCad | apply foldl_sameCad | (apply cad_mk; exact rfl; (first | assumption | apply forNat_sameCad | apply setAxis_sameCad | apply foldl_sameCad | split)) | split | intro _

theorem feedMembers_sameCad (g : Nat) (s : State) (hs : SameCad s0 s) : SameCad s0 (feedMembers g s) := by
  unfold feedMembers
  try dsimp only
  with_reducible repeat' first | assumption | apply forNat_sameCad | apply modAxis_sameCad | apply foldl_sameCad | (apply cad_mk; exact rfl; (first | assumption | apply forNat_sameCad | apply modAxis_sameCad | apply foldl_sameCad | split)) | split | intro _

theorem lamCadence_sameCad (g : Nat) (s : State) (hs : SameCad s0 s) : SameCad s0 (lamCadence g s) := by
  unfold lamCadence
  try dsimp only
  with_reducible repeat' first | assumption | apply modGrp_sameCad | (apply cad_mk; exact rfl; (first | assumption | apply modGrp_sameCad | split)) | split | intro _

theorem interpolate_sameCad (g : Nat) (s : State) (hs : SameCad s0 s) : SameCad s0 (interpolate g s) := by
  unfold interpolate
  try dsimp only
  with_reducible repeat' first | assumption | apply driveMembers_sameCad | apply modGrp_sameCad | (apply cad_mk; exact rfl; (first | assumption | apply driveMembers_sameCad | apply modGrp_sameCad | split)) | split | intro _

theorem startMoves_sameCad (g : Nat) (t : Fx) (s : State) (hs : SameCad s0 s) : SameCad s0 (startMoves g t s) := by
  unfold startMoves
  try dsimp only
  with_reducible repeat' first | assumption | apply modGrp_sameCad | (apply cad_mk; exact rfl; (first | assumption | apply modGrp_sameCad | split)) | split | intro _

theorem homeTo_sameCad (a : Nat) (target v : Fx) (s : State) (hs : SameCad s0 s) : SameCad s0 (homeTo a target v s) := by
  unfold homeTo
  try dsimp only
  with_reducible repeat' first | assumption | apply modAxis_sameCad | (apply cad_mk; exact rfl; (first | assumption | apply modAxis_sameCad | split)) | split | intro _

theorem homeGo_sameCad (a : Nat) (st : HomeStep) (s : State) (hs : SameCad s0 s) : SameCad s0 (homeGo a st s) := by
  unfold homeGo
  try dsimp only
  with_reducible repeat' first | assumption | apply modAxis_sameCad | (apply cad_mk; exact rfl; (first | assumption | apply modAxis_sameCad | split)) | split | intro _

theorem homeSearch_sameCad (a : Nat) (st : HomeStep) (sign : Int) (v : Fx) (s : State) (hs : SameCad s0 s) : SameCad s0 (homeSearch a st sign v s) := by
  unfold homeSearch
  try dsimp only
  with_reducible repeat' first | assumption | apply homeGo_sameCad | apply homeTo_sameCad | apply modAxis_sameCad | (apply cad_mk; exact rfl; (first | assumption | apply homeGo_sameCad | apply homeTo_sameCad | apply modAxis_sameCad | split)) | split | intro _

theorem shiftHome_sameCad (a : Nat) (d : Int) (s : State) (hs : SameCad s0 s) : SameCad s0 (shiftHome a d s) := by
  unfold shiftHome
  try dsimp only
  with_reducible repeat' first | assumption | apply modAxis_sameCad | (apply cad_mk; exact rfl; (first | assumption | apply modAxis_sameCad | split)) | split | intro _

theorem homeBegin_sameCad (g a : Nat) (s : State) (hs : SameCad s0 s) : SameCad s0 (homeBegin g a s) := by
  unfold homeBegin
  try dsimp only
  with_reducible repeat' first | assumption | apply homeFail_sameCad | apply homeGo_sameCad | apply homeSearch_sameCad | apply modAxis_sameCad | apply shiftHome_sameCad | (apply cad_mk; exact rfl; (first | assumption | apply homeFail_sameCad | apply homeGo_sameCad | apply homeSearch_sameCad | apply modAxis_sameCad | apply shiftHome_sameCad | split)) | split | intro _

theorem homeDone_sameCad (g a : Nat) (s : State) (hs : SameCad s0 s) : SameCad s0 (homeDone g a s) := by
  unfold homeDone
  try dsimp only
  with_reducible repeat' first | assumption | apply modAxis_sameCad | (apply cad_mk; exact rfl; (first | assumption | apply modAxis_sameCad | split)) | split | intro _

theorem homeAxisTick_sameCad (g a : Nat) (s : State) (hs : SameCad s0 s) : SameCad s0 (homeAxisTick g a s) := by
  unfold homeAxisTick
  try dsimp only
  with_reducible repeat' first | assumption | apply homeDone_sameCad | apply homeGo_sameCad | apply homeSearch_sameCad | apply homeTo_sameCad | (apply cad_mk; exact rfl; (first | assumption | apply homeDone_sameCad | apply homeGo_sameCad | apply homeSearch_sameCad | apply homeTo_sameCad | split)) | split | intro _

theorem homePhase_sameCad (g n fuel : Nat) (s : State) (hs : SameCad s0 s) : SameCad s0 (homePhase g n fuel s) := by
  induction fuel generalizing n s with
  | zero => exact hs
  | succ fuel ih =>
    unfold homePhase
    split
    · split
      · exact grpTo_sameCad _ _ _ (resetMotion_sameCad _ _ (modGrp_sameCad _ _ _ hs))
      · exact hs
    · extract_lets ms s1 s2
      have h1 : SameCad s0 s1 := by
        refine forNat_sameCad _ _ _ (fun a t ht => ?_) (modGrp_sameCad _ _ _ hs)
        split
        · exact homeBegin_sameCad _ _ _ ht
        · exact ht
      clear_value s1
      have h2 : SameCad s0 s2 := by
        refine forNat_sameCad _ _ _ (fun a t ht => ?_) h1
        split
        · exact homeDone_sameCad _ _ _ ht
        · exact ht
      clear_value s2
      split
      · exact ih _ _ h2
      · exact h2

theorem homeCadence_sameCad (g : Nat) (s : State) (hs : SameCad s0 s) : SameCad s0 (homeCadence g s) := by
  unfold homeCadence
  try dsimp only
  with_reducible repeat' first | assumption | apply forNat_sameCad | apply homeAxisTick_sameCad | apply homePhase_sameCad | (apply cad_mk; exact rfl; (first | assumption | apply forNat_sameCad | apply homeAxisTick_sameCad | apply homePhase_sameCad | split)) | split | intro _

theorem beginHome_sameCad (g : Nat) (s : State) (hs : SameCad s0 s) : SameCad s0 (beginHome g s) := by
  unfold beginHome
  try dsimp only
  with_reducible repeat' first | assumption | apply forNat_sameCad | apply grpTo_sameCad | apply homePhase_sameCad | apply modAxis_sameCad | apply modGrp_sameCad | (apply cad_mk; exact rfl; (first | assumption | apply forNat_sameCad | apply grpTo_sameCad | apply homePhase_sameCad | apply modAxis_sameCad | apply modGrp_sameCad | split)) | split | intro _

theorem slavesFollow_sameCad (g : Nat) (s : State) (hs : SameCad s0 s) : SameCad s0 (slavesFollow g s) := by
  unfold slavesFollow
  try dsimp only
  with_reducible repeat' first | assumption | apply forNat_sameCad | apply modAxis_sameCad | (apply cad_mk; exact rfl; (first | assumption | apply forNat_sameCad | apply modAxis_sameCad | split)) | split | intro _

theorem limitStop_sameCad (a : Nat) (s : State) (hs : SameCad s0 s) : SameCad s0 (limitStop a s) := by
  unfold limitStop
  try dsimp only
  with_reducible repeat' first | assumption | apply reqStopAxis_sameCad | apply reqStopGrp_sameCad | (apply cad_mk; exact rfl; (first | assumption | apply reqStopAxis_sameCad | apply reqStopGrp_sameCad | split)) | split | intro _

theorem setSsm_sameCad (g : Nat) (x : SsmGrp) (s : State) (hs : SameCad s0 s) : SameCad s0 (setSsm g x s) := by
  unfold setSsm
  try dsimp only
  with_reducible repeat' first | assumption | (apply cad_mk; exact rfl; (first | assumption | split)) | split | intro _

theorem modSsm_sameCad (g : Nat) (f : SsmGrp → SsmGrp) (s : State) (hs : SameCad s0 s) : SameCad s0 (modSsm g f s) := by
  unfold modSsm
  try dsimp only
  with_reducible repeat' first | assumption | apply setSsm_sameCad | (apply cad_mk; exact rfl; (first | assumption | apply setSsm_sameCad | split)) | split | intro _

theorem guardGroup_sameCad (g : Nat) (s : State) (hs : SameCad s0 s) : SameCad s0 (guardGroup g s) := by
  unfold guardGroup
  try dsimp only
  with_reducible repeat' first | assumption | apply setSsm_sameCad | apply verdict_sameCad | (apply cad_mk; exact rfl; (first | assumption | apply setSsm_sameCad | apply verdict_sameCad | split)) | split | intro _

theorem noteReason_sameCad (g reason : Nat) (s : State) (hs : SameCad s0 s) : SameCad s0 (noteReason g reason s) := by
  unfold noteReason
  try dsimp only
  with_reducible repeat' first | assumption | apply modSsm_sameCad | (apply cad_mk; exact rfl; (first | assumption | apply modSsm_sameCad | split)) | split | intro _

theorem takeStops_sameCad (g : Nat) (s : State) (hs : SameCad s0 s) : SameCad s0 (takeStops g s) := by
  unfold takeStops
  try dsimp only
  with_reducible repeat' first | assumption | apply modGrp_sameCad | apply stopGroup_sameCad | apply foldl_sameCad | (apply cad_mk; exact rfl; (first | assumption | apply modGrp_sameCad | apply stopGroup_sameCad | apply foldl_sameCad | split)) | split | intro _

theorem sepRequest_sameCad (g cat : Nat) (s : State) (hs : SameCad s0 s) : SameCad s0 (sepRequest g cat s) := by
  unfold sepRequest
  try dsimp only
  with_reducible repeat' first | assumption | apply reqStopGrp_sameCad | apply takeStops_sameCad | (apply cad_mk; exact rfl; (first | assumption | apply reqStopGrp_sameCad | apply takeStops_sameCad | split)) | split | intro _

theorem sepStop_sameCad (g cat reason : Nat) (detail : List Byte) (s : State) (hs : SameCad s0 s) : SameCad s0 (sepStop g cat reason detail s) := by
  unfold sepStop
  try dsimp only
  with_reducible repeat' first | assumption | apply journal_sameCad | apply modSsm_sameCad | apply noteReason_sameCad | apply raiseIf_sameCad | apply sepRequest_sameCad | (apply cad_mk; exact rfl; (first | assumption | apply journal_sameCad | apply modSsm_sameCad | apply noteReason_sameCad | apply raiseIf_sameCad | apply sepRequest_sameCad | split)) | split | intro _

theorem ch2Issued_sameCad (g : Nat) (s : State) (hs : SameCad s0 s) : SameCad s0 (ch2Issued g s) := by
  unfold ch2Issued
  try dsimp only
  with_reducible repeat' first | assumption | apply modSsm_sameCad | (apply cad_mk; exact rfl; (first | assumption | apply modSsm_sameCad | split)) | split | intro _

theorem contactStop_sameCad (g code : Nat) (s : State) (hs : SameCad s0 s) : SameCad s0 (contactStop g code s) := by
  unfold contactStop
  try dsimp only
  with_reducible repeat' first | assumption | apply sepStop_sameCad | (apply cad_mk; exact rfl; (first | assumption | apply sepStop_sameCad | split)) | split | intro _

theorem contacts_sameCad (s : State) (hs : SameCad s0 s) : SameCad s0 (contacts s) := by
  unfold contacts
  try dsimp only
  with_reducible repeat' first | assumption | apply contactStop_sameCad | apply forNat_sameCad | apply foldl_sameCad | (apply cad_mk; exact rfl; (first | assumption | apply contactStop_sameCad | apply forNat_sameCad | apply foldl_sameCad | split)) | split | intro _

theorem sendVerdicts_sameCad (s : State) (hs : SameCad s0 s) : SameCad s0 (sendVerdicts s) := by
  unfold sendVerdicts
  try dsimp only
  with_reducible repeat' first | assumption | apply forNat_sameCad | apply xsend_sameCad | (apply cad_mk; exact rfl; (first | assumption | apply forNat_sameCad | apply xsend_sameCad | split)) | split | intro _

theorem guardSnapshot_sameCad (s : State) (hs : SameCad s0 s) : SameCad s0 (guardSnapshot s) := by
  unfold guardSnapshot
  try dsimp only
  with_reducible repeat' first | assumption | apply contacts_sameCad | apply countN_sameCad | apply forNat_sameCad | apply guardGroup_sameCad | apply sendVerdicts_sameCad | (apply cad_mk; exact rfl; (first | assumption | apply contacts_sameCad | apply countN_sameCad | apply forNat_sameCad | apply guardGroup_sameCad | apply sendVerdicts_sameCad | split)) | split | intro _

theorem freewheel2_sameCad (s : State) (hs : SameCad s0 s) : SameCad s0 (freewheel2 s) := by
  unfold freewheel2
  try dsimp only
  with_reducible repeat' first | assumption | apply forNat_sameCad | apply modAxis_sameCad | (apply cad_mk; exact rfl; (first | assumption | apply forNat_sameCad | apply modAxis_sameCad | split)) | split | intro _

theorem setGov_sameCad (g k : Nat) (s : State) (hs : SameCad s0 s) : SameCad s0 (setGov g k s) := by
  unfold setGov
  try dsimp only
  with_reducible repeat' first | assumption | apply modGrp_sameCad | apply raise_sameCad | (apply cad_mk; exact rfl; (first | assumption | apply modGrp_sameCad | apply raise_sameCad | split)) | split | intro _

theorem verdictGroup_sameCad (g : Nat) (s : State) (hs : SameCad s0 s) : SameCad s0 (verdictGroup g s) := by
  unfold verdictGroup
  try dsimp only
  with_reducible repeat' first | assumption | apply ch2Issued_sameCad | apply noteReason_sameCad | apply raiseIf_sameCad | apply sepRequest_sameCad | apply sepStop_sameCad | apply setGov_sameCad | apply setSsm_sameCad | (apply cad_mk; exact rfl; (first | assumption | apply ch2Issued_sameCad | apply noteReason_sameCad | apply raiseIf_sameCad | apply sepRequest_sameCad | apply sepStop_sameCad | apply setGov_sameCad | apply setSsm_sameCad | split)) | split | intro _

theorem verdictFree_sameCad (g : Nat) (s : State) (hs : SameCad s0 s) : SameCad s0 (verdictFree g s) := by
  unfold verdictFree
  try dsimp only
  with_reducible repeat' first | assumption | apply setGov_sameCad | (apply cad_mk; exact rfl; (first | assumption | apply setGov_sameCad | split)) | split | intro _

theorem verdict_sameCad (s : State) (hs : SameCad s0 s) : SameCad s0 (verdict s) := by
  unfold verdict
  try dsimp only
  with_reducible repeat' first | assumption | apply forNat_sameCad | apply sepStop_sameCad | apply verdictFree_sameCad | apply verdictGroup_sameCad | (apply cad_mk; exact rfl; (first | assumption | apply forNat_sameCad | apply sepStop_sameCad | apply verdictFree_sameCad | apply verdictGroup_sameCad | split)) | split | intro _

theorem obstacleSnapshot_sameCad (s : State) (hs : SameCad s0 s) : SameCad s0 (obstacleSnapshot s) := by
  unfold obstacleSnapshot
  try dsimp only
  with_reducible repeat' first | assumption | apply foldl_sameCad | (apply cad_mk; exact rfl; (first | assumption | apply foldl_sameCad | split)) | split | intro _

theorem putDev_sameCad (l : List Nat) (u : BitVec 8) (s : State) (hs : SameCad s0 s) : SameCad s0 (putDev l u s) := by
  unfold putDev
  try dsimp only
  with_reducible repeat' first | assumption | apply foldl_sameCad | (apply cad_mk; exact rfl; (first | assumption | apply foldl_sameCad | split)) | split | intro _

theorem updateMapped_sameCad (e : Nat × SigMap) (s : State) (hs : SameCad s0 s) : SameCad s0 (updateMapped e s) := by
  unfold updateMapped
  try dsimp only
  with_reducible repeat' first | assumption | (apply cad_mk; exact rfl; (first | assumption | split)) | split | intro _

theorem showWrite_sameCad (w : Nat × Nat × Nat) (s : State) (hs : SameCad s0 s) : SameCad s0 (showWrite w s) := by
  unfold showWrite
  try dsimp only
  with_reducible repeat' first | assumption | (apply cad_mk; exact rfl; (first | assumption | split)) | split | intro _

theorem watchStep_sameCad (i : Nat) (s : State) (hs : SameCad s0 s) : SameCad s0 (watchStep i s) := by
  unfold watchStep
  try dsimp only
  with_reducible repeat' first | assumption | apply raiseIf_sameCad | (apply cad_mk; exact rfl; (first | assumption | apply raiseIf_sameCad | split)) | split | intro _

theorem sigUpdate_sameCad (s : State) (hs : SameCad s0 s) : SameCad s0 (sigUpdate s) := by
  unfold sigUpdate
  try dsimp only
  with_reducible repeat' first | assumption | apply forNat_sameCad | apply putDev_sameCad | apply showWrite_sameCad | apply updateMapped_sameCad | apply watchStep_sameCad | apply foldl_sameCad | (apply cad_mk; exact rfl; (first | assumption | apply forNat_sameCad | apply putDev_sameCad | apply showWrite_sameCad | apply updateMapped_sameCad | apply watchStep_sameCad | apply foldl_sameCad | split)) | split | intro _

theorem sigWriteEff_sameCad (e : Eff) (s : State) (hs : SameCad s0 s) : SameCad s0 (sigWriteEff e s) := by
  unfold sigWriteEff
  try dsimp only
  with_reducible repeat' first | assumption | (apply cad_mk; exact rfl; (first | assumption | split)) | split | intro _

theorem sigWatchEff_sameCad (e : Eff) (s : State) (hs : SameCad s0 s) : SameCad s0 (sigWatchEff e s) := by
  unfold sigWatchEff
  try dsimp only
  with_reducible repeat' first | assumption | (apply cad_mk; exact rfl; (first | assumption | split)) | split | intro _

theorem setStrm_sameCad (k : Nat) (h : Stream) (s : State) (hs : SameCad s0 s) : SameCad s0 (setStrm k h s) := by
  unfold setStrm
  try dsimp only
  with_reducible repeat' first | assumption | (apply cad_mk; exact rfl; (first | assumption | split)) | split | intro _

theorem strmLow_sameCad (k : Nat) (s : State) (hs : SameCad s0 s) : SameCad s0 (strmLow k s) := by
  unfold strmLow
  try dsimp only
  with_reducible repeat' first | assumption | apply raiseIf_sameCad | apply setStrm_sameCad | (apply cad_mk; exact rfl; (first | assumption | apply raiseIf_sameCad | apply setStrm_sameCad | split)) | split | intro _

theorem strmStep_sameCad (g : Nat) (s : State) (hs : SameCad s0 s) : SameCad s0 (strmStep g s) := by
  unfold strmStep
  try dsimp only
  with_reducible repeat' first | assumption | apply driveMembers_sameCad | apply modGrp_sameCad | (apply cad_mk; exact rfl; (first | assumption | apply driveMembers_sameCad | apply modGrp_sameCad | split)) | split | intro _

theorem strmClock_sameCad (g : Nat) (s : State) (hs : SameCad s0 s) : SameCad s0 (strmClock g s) := by
  unfold strmClock
  try dsimp only
  with_reducible repeat' first | assumption | apply modGrp_sameCad | (apply cad_mk; exact rfl; (first | assumption | apply modGrp_sameCad | split)) | split | intro _

theorem strmUnderrun_sameCad (k : Nat) (s : State) (hs : SameCad s0 s) : SameCad s0 (strmUnderrun k s) := by
  unfold strmUnderrun
  try dsimp only
  with_reducible repeat' first | assumption | apply modGrp_sameCad | apply pathStop_sameCad | apply underrunMarks_sameCad | (apply cad_mk; exact rfl; (first | assumption | apply modGrp_sameCad | apply pathStop_sameCad | apply underrunMarks_sameCad | split)) | split | intro _

theorem strmEnd_sameCad (k : Nat) (s : State) (hs : SameCad s0 s) : SameCad s0 (strmEnd k s) := by
  unfold strmEnd
  try dsimp only
  with_reducible repeat' first | assumption | apply modGrp_sameCad | apply setStrm_sameCad | (apply cad_mk; exact rfl; (first | assumption | apply modGrp_sameCad | apply setStrm_sameCad | split)) | split | intro _

theorem strmTake_sameCad (k : Nat) (s : State) (hs : SameCad s0 s) : SameCad s0 (strmTake k s) := by
  unfold strmTake
  try dsimp only
  with_reducible repeat' first | assumption | apply modGrp_sameCad | apply setStrm_sameCad | apply strmEnd_sameCad | apply strmLow_sameCad | apply strmUnderrun_sameCad | (apply cad_mk; exact rfl; (first | assumption | apply modGrp_sameCad | apply setStrm_sameCad | apply strmEnd_sameCad | apply strmLow_sameCad | apply strmUnderrun_sameCad | split)) | split | intro _

theorem strmTakes_sameCad (s : State) (hs : SameCad s0 s) : SameCad s0 (strmTakes s) := by
  unfold strmTakes
  try dsimp only
  with_reducible repeat' first | assumption | apply forNat_sameCad | apply strmTake_sameCad | (apply cad_mk; exact rfl; (first | assumption | apply forNat_sameCad | apply strmTake_sameCad | split)) | split | intro _

theorem strmAnchorEff_sameCad (e : Eff) (s : State) (hs : SameCad s0 s) : SameCad s0 (strmAnchorEff e s) := by
  unfold strmAnchorEff
  try dsimp only
  with_reducible repeat' first | assumption | apply complete_sameCad | apply grpTo_sameCad | apply modGrp_sameCad | apply preempted_sameCad | apply setStrm_sameCad | apply strmLow_sameCad | apply underrunMarks_sameCad | (apply cad_mk; exact rfl; (first | assumption | apply complete_sameCad | apply grpTo_sameCad | apply modGrp_sameCad | apply preempted_sameCad | apply setStrm_sameCad | apply strmLow_sameCad | apply underrunMarks_sameCad | split)) | split | intro _

theorem detachStrm_sameCad (k : Nat) (s : State) (hs : SameCad s0 s) : SameCad s0 (detachStrm k s) := by
  unfold detachStrm
  try dsimp only
  with_reducible repeat' first | assumption | apply freeShares_sameCad | apply modGrp_sameCad | apply setStrm_sameCad | apply strmUnderrun_sameCad | (apply cad_mk; exact rfl; (first | assumption | apply freeShares_sameCad | apply modGrp_sameCad | apply setStrm_sameCad | apply strmUnderrun_sameCad | split)) | split | intro _

theorem setQp_sameCad (g : Nat) (x : QpGrp) (s : State) (hs : SameCad s0 s) : SameCad s0 (setQp g x s) := by
  unfold setQp
  try dsimp only
  with_reducible repeat' first | assumption | (apply cad_mk; exact rfl; (first | assumption | split)) | split | intro _

theorem modQp_sameCad (g : Nat) (f : QpGrp → QpGrp) (s : State) (hs : SameCad s0 s) : SameCad s0 (modQp g f s) := by
  unfold modQp
  try dsimp only
  with_reducible repeat' first | assumption | apply setQp_sameCad | (apply cad_mk; exact rfl; (first | assumption | apply setQp_sameCad | split)) | split | intro _

theorem modScen_sameCad (g j : Nat) (f : Scen → Scen) (s : State) (hs : SameCad s0 s) : SameCad s0 (modScen g j f s) := by
  unfold modScen
  try dsimp only
  with_reducible repeat' first | assumption | apply modQp_sameCad | (apply cad_mk; exact rfl; (first | assumption | apply modQp_sameCad | split)) | split | intro _

theorem setLane_sameCad (u : Nat) (l : Lane) (s : State) (hs : SameCad s0 s) : SameCad s0 (setLane u l s) := by
  unfold setLane
  try dsimp only
  with_reducible repeat' first | assumption | (apply cad_mk; exact rfl; (first | assumption | split)) | split | intro _

theorem qpSnapGroup_sameCad (g : Nat) (s : State) (hs : SameCad s0 s) : SameCad s0 (qpSnapGroup g s) := by
  unfold qpSnapGroup
  try dsimp only
  with_reducible repeat' first | assumption | apply countN_sameCad | apply replan_sameCad | apply setQp_sameCad | apply foldl_sameCad | (apply cad_mk; exact rfl; (first | assumption | apply countN_sameCad | apply replan_sameCad | apply setQp_sameCad | apply foldl_sameCad | split)) | split | intro _

theorem classSnap_sameCad (s : State) (hs : SameCad s0 s) : SameCad s0 (classSnap s) := by
  unfold classSnap
  try dsimp only
  with_reducible repeat' first | assumption | apply takeEff_sameCad | apply foldl_sameCad | apply takeEff_sameCad | (apply cad_mk; exact rfl; (first | assumption | apply takeEff_sameCad | apply foldl_sameCad | apply takeEff_sameCad | split)) | split | intro _

theorem qpSnapshot_sameCad (s : State) (hs : SameCad s0 s) : SameCad s0 (qpSnapshot s) := by
  unfold qpSnapshot
  try dsimp only
  with_reducible repeat' first | assumption | apply classSnap_sameCad | apply forNat_sameCad | apply qpSnapGroup_sameCad | (apply cad_mk; exact rfl; (first | assumption | apply classSnap_sameCad | apply forNat_sameCad | apply qpSnapGroup_sameCad | split)) | split | intro _

theorem laneStart_sameCad (u cyc : Nat) (s : State) (hs : SameCad s0 s) : SameCad s0 (laneStart u cyc s) := by
  unfold laneStart
  try dsimp only
  with_reducible repeat' first | assumption | apply setLane_sameCad | (apply cad_mk; exact rfl; (first | assumption | apply setLane_sameCad | split)) | split | intro _

theorem replan_sameCad (g : Nat) (s : State) (hs : SameCad s0 s) : SameCad s0 (replan g s) := by
  unfold replan
  try dsimp only
  with_reducible repeat' first | assumption | apply count_sameCad | apply laneStart_sameCad | apply modQp_sameCad | apply modScen_sameCad | apply setLane_sameCad | (apply cad_mk; exact rfl; (first | assumption | apply count_sameCad | apply laneStart_sameCad | apply modQp_sameCad | apply modScen_sameCad | apply setLane_sameCad | split)) | split | intro _

theorem qpAssignEff_sameCad (e : Eff) (s : State) (hs : SameCad s0 s) : SameCad s0 (qpAssignEff e s) := by
  unfold qpAssignEff
  try dsimp only
  with_reducible repeat' first | assumption | apply modGrp_sameCad | apply modQp_sameCad | (apply cad_mk; exact rfl; (first | assumption | apply modGrp_sameCad | apply modQp_sameCad | split)) | split | intro _

theorem kdeSnap_sameCad (g : Nat) (s : State) (hs : SameCad s0 s) : SameCad s0 (kdeSnap g s) := by
  unfold kdeSnap
  try dsimp only
  with_reducible repeat' first | assumption | apply modGrp_sameCad | (apply cad_mk; exact rfl; (first | assumption | apply modGrp_sameCad | split)) | split | intro _

theorem unreachable_sameCad (g tag promise : Nat) (s : State) (hs : SameCad s0 s) : SameCad s0 (unreachable g tag promise s) := by
  unfold unreachable
  try dsimp only
  with_reducible repeat' first | assumption | apply grpEvent_sameCad | apply journal_sameCad | (apply cad_mk; exact rfl; (first | assumption | apply grpEvent_sameCad | apply journal_sameCad | split)) | split | intro _

theorem replanMoves_sameCad (g : Nat) (s : State) (hs : SameCad s0 s) : SameCad s0 (replanMoves g s) := by
  unfold replanMoves
  try dsimp only
  with_reducible repeat' first | assumption | apply modGrp_sameCad | (apply cad_mk; exact rfl; (first | assumption | apply modGrp_sameCad | split)) | split | intro _

theorem strmGives_sameCad (g : Nat) (s : State) (hs : SameCad s0 s) : SameCad s0 (strmGives g s) := by
  unfold strmGives
  try dsimp only
  with_reducible repeat' first | assumption | apply modGrp_sameCad | apply setStrm_sameCad | (apply cad_mk; exact rfl; (first | assumption | apply modGrp_sameCad | apply setStrm_sameCad | split)) | split | intro _

theorem profileMove_sameCad (g : Nat) (p : List Byte) (target : List Fx) (blend : Fx) (tag promise : Nat) (s : State) (hs : SameCad s0 s) : SameCad s0 (profileMove g p target blend tag promise s) := by
  unfold profileMove
  try dsimp only
  with_reducible repeat' first | assumption | apply grpTo_sameCad | apply modGrp_sameCad | apply preempted_sameCad | apply strmGives_sameCad | (apply cad_mk; exact rfl; (first | assumption | apply grpTo_sameCad | apply modGrp_sameCad | apply preempted_sameCad | apply strmGives_sameCad | split)) | split | intro _

theorem moveEff_sameCad (e : Eff) (s : State) (hs : SameCad s0 s) : SameCad s0 (moveEff e s) := by
  unfold moveEff
  try dsimp only
  with_reducible repeat' first | assumption | apply profileMove_sameCad | (apply cad_mk; exact rfl; (first | assumption | apply profileMove_sameCad | split)) | split | intro _

theorem poseMoves_sameCad (g : Nat) (s : State) (hs : SameCad s0 s) : SameCad s0 (poseMoves g s) := by
  unfold poseMoves
  try dsimp only
  with_reducible repeat' first | assumption | apply modGrp_sameCad | apply profileMove_sameCad | apply foldl_sameCad | (apply cad_mk; exact rfl; (first | assumption | apply modGrp_sameCad | apply profileMove_sameCad | apply foldl_sameCad | split)) | split | intro _

theorem moveSnap_sameCad (e : Eff) (s : State) (hs : SameCad s0 s) : SameCad s0 (moveSnap e s) := by
  unfold moveSnap
  try dsimp only
  with_reducible repeat' first | assumption | apply modGrp_sameCad | apply preempted_sameCad | apply strmGives_sameCad | apply unreachable_sameCad | (apply cad_mk; exact rfl; (first | assumption | apply modGrp_sameCad | apply preempted_sameCad | apply strmGives_sameCad | apply unreachable_sameCad | split)) | split | intro _

theorem waypointSnap_sameCad (free : Bool) (g : Nat) (s : State) (hs : SameCad s0 s) : SameCad s0 (waypointSnap free g s) := by
  unfold waypointSnap
  try dsimp only
  with_reducible repeat' first | assumption | apply modGrp_sameCad | apply unreachable_sameCad | (apply cad_mk; exact rfl; (first | assumption | apply modGrp_sameCad | apply unreachable_sameCad | split)) | split | intro _

theorem grpSnapshot_sameCad (s : State) (hs : SameCad s0 s) : SameCad s0 (grpSnapshot s) := by
  unfold grpSnapshot
  try dsimp only
  with_reducible repeat' first | assumption | apply forNat_sameCad | apply kdeSnap_sameCad | apply moveSnap_sameCad | apply waypointSnap_sameCad | apply foldl_sameCad | (apply cad_mk; exact rfl; (first | assumption | apply forNat_sameCad | apply kdeSnap_sameCad | apply moveSnap_sameCad | apply waypointSnap_sameCad | apply foldl_sameCad | split)) | split | intro _

theorem grpConfigureEff_sameCad (e : Eff) (s : State) (hs : SameCad s0 s) : SameCad s0 (grpConfigureEff e s) := by
  unfold grpConfigureEff
  try dsimp only
  with_reducible repeat' first | assumption | apply modGrp_sameCad | apply modQp_sameCad | (apply cad_mk; exact rfl; (first | assumption | apply modGrp_sameCad | apply modQp_sameCad | split)) | split | intro _

theorem grpEnableEff_sameCad (e : Eff) (s : State) (hs : SameCad s0 s) : SameCad s0 (grpEnableEff e s) := by
  unfold grpEnableEff
  try dsimp only
  with_reducible repeat' first | assumption | apply beginEnable_sameCad | apply forNat_sameCad | apply freeOpen_sameCad | apply grpTo_sameCad | apply modGrp_sameCad | apply toClosed_sameCad | (apply cad_mk; exact rfl; (first | assumption | apply beginEnable_sameCad | apply forNat_sameCad | apply freeOpen_sameCad | apply grpTo_sameCad | apply modGrp_sameCad | apply toClosed_sameCad | split)) | split | intro _

theorem grpDisableEff_sameCad (e : Eff) (s : State) (hs : SameCad s0 s) : SameCad s0 (grpDisableEff e s) := by
  unfold grpDisableEff
  try dsimp only
  with_reducible repeat' first | assumption | apply forNat_sameCad | apply toDisabled_sameCad | apply toIdle_sameCad | (apply cad_mk; exact rfl; (first | assumption | apply forNat_sameCad | apply toDisabled_sameCad | apply toIdle_sameCad | split)) | split | intro _

theorem grpHoldEff_sameCad (e : Eff) (s : State) (hs : SameCad s0 s) : SameCad s0 (grpHoldEff e s) := by
  unfold grpHoldEff
  try dsimp only
  with_reducible repeat' first | assumption | apply pathStop_sameCad | (apply cad_mk; exact rfl; (first | assumption | apply pathStop_sameCad | split)) | split | intro _

theorem grpResumeEff_sameCad (e : Eff) (s : State) (hs : SameCad s0 s) : SameCad s0 (grpResumeEff e s) := by
  unfold grpResumeEff
  try dsimp only
  with_reducible repeat' first | assumption | apply grpTo_sameCad | apply modGrp_sameCad | apply preempted_sameCad | (apply cad_mk; exact rfl; (first | assumption | apply grpTo_sameCad | apply modGrp_sameCad | apply preempted_sameCad | split)) | split | intro _

theorem grpHomeEff_sameCad (e : Eff) (s : State) (hs : SameCad s0 s) : SameCad s0 (grpHomeEff e s) := by
  unfold grpHomeEff
  try dsimp only
  with_reducible repeat' first | assumption | apply beginHome_sameCad | apply preempted_sameCad | (apply cad_mk; exact rfl; (first | assumption | apply beginHome_sameCad | apply preempted_sameCad | split)) | split | intro _

theorem grpClearEff_sameCad (e : Eff) (s : State) (hs : SameCad s0 s) : SameCad s0 (grpClearEff e s) := by
  unfold grpClearEff
  try dsimp only
  with_reducible repeat' first | assumption | apply forNat_sameCad | apply grpTo_sameCad | apply modGrp_sameCad | apply resetMotion_sameCad | apply toHeld_sameCad | apply toIdle_sameCad | (apply cad_mk; exact rfl; (first | assumption | apply forNat_sameCad | apply grpTo_sameCad | apply modGrp_sameCad | apply resetMotion_sameCad | apply toHeld_sameCad | apply toIdle_sameCad | split)) | split | intro _

theorem setSes_sameCad (k : Nat) (x : Session) (s : State) (hs : SameCad s0 s) : SameCad s0 (setSes k x s) := by
  unfold setSes
  try dsimp only
  with_reducible repeat' first | assumption | (apply cad_mk; exact rfl; (first | assumption | split)) | split | intro _

theorem setInj_sameCad (a : Nat) (x : Option Inject) (s : State) (hs : SameCad s0 s) : SameCad s0 (setInj a x s) := by
  unfold setInj
  try dsimp only
  with_reducible repeat' first | assumption | (apply cad_mk; exact rfl; (first | assumption | split)) | split | intro _

theorem writeRow_sameCad (k : Nat) (x : Session) (row : List Int) (s : State) (hs : SameCad s0 s) : SameCad s0 (writeRow k x row s) := by
  unfold writeRow
  try dsimp only
  with_reducible repeat' first | assumption | apply raise_sameCad | apply raiseIf_sameCad | apply setSes_sameCad | (apply cad_mk; exact rfl; (first | assumption | apply raise_sameCad | apply raiseIf_sameCad | apply setSes_sameCad | split)) | split | intro _

theorem sessionCadence_sameCad (occ : BitVec 128) (k : Nat) (s : State) (hs : SameCad s0 s) : SameCad s0 (sessionCadence occ k s) := by
  unfold sessionCadence
  try dsimp only
  with_reducible repeat' first | assumption | apply setSes_sameCad | apply writeRow_sameCad | (apply cad_mk; exact rfl; (first | assumption | apply setSes_sameCad | apply writeRow_sameCad | split)) | split | intro _

theorem traceCadence_sameCad (s : State) (hs : SameCad s0 s) : SameCad s0 (traceCadence s) := by
  unfold traceCadence
  try dsimp only
  with_reducible repeat' first | assumption | apply forNat_sameCad | apply sessionCadence_sameCad | (apply cad_mk; exact rfl; (first | assumption | apply forNat_sameCad | apply sessionCadence_sameCad | split)) | split | intro _

theorem freeTriggers_sameCad (k : Nat) (s : State) (hs : SameCad s0 s) : SameCad s0 (freeTriggers k s) := by
  unfold freeTriggers
  try dsimp only
  with_reducible repeat' first | assumption | apply freeUnits_sameCad | (apply cad_mk; exact rfl; (first | assumption | apply freeUnits_sameCad | split)) | split | intro _

theorem injValue_sameCad (a : Nat) (s : State) (hs : SameCad s0 s) : SameCad s0 (injValue a s) := by
  unfold injValue
  try dsimp only
  with_reducible repeat' first | assumption | apply setInj_sameCad | (apply cad_mk; exact rfl; (first | assumption | apply setInj_sameCad | split)) | split | intro _

theorem injAdvance_sameCad (a : Nat) (s : State) (hs : SameCad s0 s) : SameCad s0 (injAdvance a s) := by
  unfold injAdvance
  try dsimp only
  with_reducible repeat' first | assumption | apply setInj_sameCad | (apply cad_mk; exact rfl; (first | assumption | apply setInj_sameCad | split)) | split | intro _

theorem chargeInj_sameCad (a : Nat) (on : Bool) (s : State) (hs : SameCad s0 s) : SameCad s0 (chargeInj a on s) := by
  unfold chargeInj
  try dsimp only
  with_reducible repeat' first | assumption | apply setShares_sameCad | (apply cad_mk; exact rfl; (first | assumption | apply setShares_sameCad | split)) | split | intro _

theorem injEnd_sameCad (a reason : Nat) (s : State) (hs : SameCad s0 s) : SameCad s0 (injEnd a reason s) := by
  unfold injEnd
  try dsimp only
  with_reducible repeat' first | assumption | apply chargeInj_sameCad | apply complete_sameCad | apply raise_sameCad | apply setInj_sameCad | (apply cad_mk; exact rfl; (first | assumption | apply chargeInj_sameCad | apply complete_sameCad | apply raise_sameCad | apply setInj_sameCad | split)) | split | intro _

theorem stopInj_sameCad (a : Nat) (s : State) (hs : SameCad s0 s) : SameCad s0 (stopInj a s) := by
  unfold stopInj
  try dsimp only
  with_reducible repeat' first | assumption | apply injEnd_sameCad | (apply cad_mk; exact rfl; (first | assumption | apply injEnd_sameCad | split)) | split | intro _

theorem injCadence_sameCad (s : State) (hs : SameCad s0 s) : SameCad s0 (injCadence s) := by
  unfold injCadence
  try dsimp only
  with_reducible repeat' first | assumption | apply forNat_sameCad | apply injEnd_sameCad | apply setInj_sameCad | (apply cad_mk; exact rfl; (first | assumption | apply forNat_sameCad | apply injEnd_sameCad | apply setInj_sameCad | split)) | split | intro _

theorem traceArmEff_sameCad (e : Eff) (s : State) (hs : SameCad s0 s) : SameCad s0 (traceArmEff e s) := by
  unfold traceArmEff
  try dsimp only
  with_reducible repeat' first | assumption | apply raise_sameCad | apply setSes_sameCad | (apply cad_mk; exact rfl; (first | assumption | apply raise_sameCad | apply setSes_sameCad | split)) | split | intro _

theorem traceStopEff_sameCad (e : Eff) (s : State) (hs : SameCad s0 s) : SameCad s0 (traceStopEff e s) := by
  unfold traceStopEff
  try dsimp only
  with_reducible repeat' first | assumption | apply freeTriggers_sameCad | apply setSes_sameCad | (apply cad_mk; exact rfl; (first | assumption | apply freeTriggers_sameCad | apply setSes_sameCad | split)) | split | intro _

theorem injectStopEff_sameCad (e : Eff) (s : State) (hs : SameCad s0 s) : SameCad s0 (injectStopEff e s) := by
  unfold injectStopEff
  try dsimp only
  with_reducible repeat' first | assumption | apply injEnd_sameCad | (apply cad_mk; exact rfl; (first | assumption | apply injEnd_sameCad | split)) | split | intro _

theorem latch_sameCad (s : State) (hs : SameCad s0 s) : SameCad s0 (latch s) := by
  unfold latch
  try dsimp only
  with_reducible repeat' first | assumption | apply advanceTo_sameCad | apply setSpoke_sameCad | apply foldl_sameCad | (apply cad_mk; exact rfl; (first | assumption | apply advanceTo_sameCad | apply setSpoke_sameCad | apply foldl_sameCad | split)) | split | intro _

theorem mirrorUpdate_sameCad (s : State) (hs : SameCad s0 s) : SameCad s0 (mirrorUpdate s) := by
  unfold mirrorUpdate
  try dsimp only
  with_reducible repeat' first | assumption | apply bar2Write_sameCad | (apply cad_mk; exact rfl; (first | assumption | apply bar2Write_sameCad | split)) | split | intro _

theorem runEffs_sameCad (t : Nat) (p : Eff → Bool) (f : Eff → State → State) (s : State) (hf : ∀ e u, SameCad s0 u → SameCad s0 (f e u)) (hs : SameCad s0 s) :
    SameCad s0 (runEffs t p f s) :=
  foldl_sameCad _ _ (fun u e h => hf e u h) _ (cad_mk (s := s) rfl hs)

theorem brokenPromise_sameCad (e : Eff) (s : State) (hs : SameCad s0 s) : SameCad s0 (brokenPromise e s) := by
  unfold brokenPromise
  try dsimp only
  with_reducible repeat' first | assumption | apply journal_sameCad | apply raise_sameCad | apply stpEvent_sameCad | (apply cad_mk; exact rfl; (first | assumption | apply journal_sameCad | apply raise_sameCad | apply stpEvent_sameCad | split)) | split | intro _

theorem keepPromise_sameCad (f : Eff → State → State) (e : Eff) (s : State) (kf : ∀ a0 t, SameCad s0 t → SameCad s0 (f a0 t)) (hs : SameCad s0 s) :
    SameCad s0 (keepPromise f e s) := by
  unfold keepPromise
  split
  · exact kf _ _ hs
  · exact brokenPromise_sameCad _ _ (kf _ _ hs)

theorem frozenFrames_sameCad (s : State) (hs : SameCad s0 s) : SameCad s0 (frozenFrames s) := by
  unfold frozenFrames
  try dsimp only
  with_reducible repeat' first | assumption | apply cadenceFrame_sameCad | apply forNat_sameCad | (apply cad_mk; exact rfl; (first | assumption | apply cadenceFrame_sameCad | apply forNat_sameCad | split)) | split | intro _

theorem timeCadence_sameCad (s : State) (hs : SameCad s0 s) : SameCad s0 (timeCadence s) := by
  unfold timeCadence
  try dsimp only
  with_reducible repeat' first | assumption | apply gmCadence_sameCad | apply pelCadence_sameCad | apply pelStopEff_sameCad | apply runEffs_sameCad | apply setPlantEff_sameCad | apply slewCadence_sameCad | (apply cad_mk; exact rfl; (first | assumption | apply gmCadence_sameCad | apply pelCadence_sameCad | apply pelStopEff_sameCad | apply runEffs_sameCad | apply setPlantEff_sameCad | apply slewCadence_sameCad | split)) | split | intro _

theorem conditionsCadence_sameCad (s : State) (hs : SameCad s0 s) : SameCad s0 (conditionsCadence s) := by
  unfold conditionsCadence
  try dsimp only
  with_reducible repeat' first | assumption | apply axisConditions_sameCad | apply driveFault_sameCad | apply forNat_sameCad | apply groupConditions_sameCad | apply modAxis_sameCad | (apply cad_mk; exact rfl; (first | assumption | apply axisConditions_sameCad | apply driveFault_sameCad | apply forNat_sameCad | apply groupConditions_sameCad | apply modAxis_sameCad | split)) | split | intro _

theorem faultsCadence_sameCad (s : State) (hs : SameCad s0 s) : SameCad s0 (faultsCadence s) := by
  unfold faultsCadence
  try dsimp only
  with_reducible repeat' first | assumption | apply faultAxis_sameCad | apply faultGroup_sameCad | apply forNat_sameCad | apply modAxis_sameCad | apply modGrp_sameCad | apply ungroupedFaultStop_sameCad | (apply cad_mk; exact rfl; (first | assumption | apply faultAxis_sameCad | apply faultGroup_sameCad | apply forNat_sameCad | apply modAxis_sameCad | apply modGrp_sameCad | apply ungroupedFaultStop_sameCad | split)) | split | intro _

theorem takeAxisStops_sameCad (a : Nat) (s : State) (hs : SameCad s0 s) : SameCad s0 (takeAxisStops a s) := by
  unfold takeAxisStops
  try dsimp only
  with_reducible repeat' first | assumption | apply modAxis_sameCad | apply stopAxis_sameCad | apply stopInj_sameCad | apply foldl_sameCad | (apply cad_mk; exact rfl; (first | assumption | apply modAxis_sameCad | apply stopAxis_sameCad | apply stopInj_sameCad | apply foldl_sameCad | split)) | split | intro _

theorem takeGroupStops_sameCad (g : Nat) (s : State) (hs : SameCad s0 s) : SameCad s0 (takeGroupStops g s) := by
  unfold takeGroupStops
  try dsimp only
  with_reducible repeat' first | assumption | apply forNat_sameCad | apply stopInj_sameCad | apply takeStops_sameCad | (apply cad_mk; exact rfl; (first | assumption | apply forNat_sameCad | apply stopInj_sameCad | apply takeStops_sameCad | split)) | split | intro _

theorem stopsCadence_sameCad (s : State) (hs : SameCad s0 s) : SameCad s0 (stopsCadence s) := by
  unfold stopsCadence
  try dsimp only
  with_reducible repeat' first | assumption | apply forNat_sameCad | apply runEffs_sameCad | apply stopAxis_sameCad | apply stopGroup_sameCad | apply stopInj_sameCad | apply takeAxisStops_sameCad | apply takeGroupStops_sameCad | (apply cad_mk; exact rfl; (first | assumption | apply forNat_sameCad | apply runEffs_sameCad | apply stopAxis_sameCad | apply stopGroup_sameCad | apply stopInj_sameCad | apply takeAxisStops_sameCad | apply takeGroupStops_sameCad | split)) | split | intro _

theorem limitsFollow_sameCad (a : Nat) (s : State) (hs : SameCad s0 s) : SameCad s0 (limitsFollow a s) := by
  unfold limitsFollow
  try dsimp only
  with_reducible repeat' first | assumption | apply forNat_sameCad | apply modAxis_sameCad | apply replanMoves_sameCad | (apply cad_mk; exact rfl; (first | assumption | apply forNat_sameCad | apply modAxis_sameCad | apply replanMoves_sameCad | split)) | split | intro _

theorem limitsEff_sameCad (e : Eff) (s : State) (hs : SameCad s0 s) : SameCad s0 (limitsEff e s) := by
  unfold limitsEff
  try dsimp only
  with_reducible repeat' first | assumption | apply axisEff_sameCad | apply limitsFollow_sameCad | (apply cad_mk; exact rfl; (first | assumption | apply axisEff_sameCad | apply limitsFollow_sameCad | split)) | split | intro _

theorem limitsTakeover_sameCad (a : Nat) (s : State) (hs : SameCad s0 s) : SameCad s0 (limitsTakeover a s) := by
  unfold limitsTakeover
  try dsimp only
  with_reducible repeat' first | assumption | apply deferredLimits_sameCad | apply limitsFollow_sameCad | (apply cad_mk; exact rfl; (first | assumption | apply deferredLimits_sameCad | apply limitsFollow_sameCad | split)) | split | intro _

theorem writesCadence_sameCad (s : State) (hs : SameCad s0 s) : SameCad s0 (writesCadence s) := by
  unfold writesCadence
  try dsimp only
  with_reducible repeat' first | assumption | apply limitsEff_sameCad | apply loopEff_sameCad | apply runEffs_sameCad | (apply cad_mk; exact rfl; (first | assumption | apply limitsEff_sameCad | apply loopEff_sameCad | apply runEffs_sameCad | split)) | split | intro _

theorem stateEff_sameCad (e : Eff) (s : State) (hs : SameCad s0 s) : SameCad s0 (stateEff e s) := by
  unfold stateEff
  try dsimp only
  with_reducible repeat' first | assumption | apply axisEff_sameCad | apply busEff_sameCad | apply flowLimitEff_sameCad | apply grpClearEff_sameCad | apply grpConfigureEff_sameCad | apply grpDisableEff_sameCad | apply grpEnableEff_sameCad | apply injectStopEff_sameCad | apply ioReenableEff_sameCad | apply ioReleaseEff_sameCad | apply ioStoResetEff_sameCad | apply qpAssignEff_sameCad | apply sigWatchEff_sameCad | apply sigWriteEff_sameCad | apply traceArmEff_sameCad | apply traceStopEff_sameCad | (apply cad_mk; exact rfl; (first | assumption | apply axisEff_sameCad | apply busEff_sameCad | apply flowLimitEff_sameCad | apply grpClearEff_sameCad | apply grpConfigureEff_sameCad | apply grpDisableEff_sameCad | apply grpEnableEff_sameCad | apply injectStopEff_sameCad | apply ioReenableEff_sameCad | apply ioReleaseEff_sameCad | apply ioStoResetEff_sameCad | apply qpAssignEff_sameCad | apply sigWatchEff_sameCad | apply sigWriteEff_sameCad | apply traceArmEff_sameCad | apply traceStopEff_sameCad | split)) | split | intro _

theorem motionEff_sameCad (e : Eff) (s : State) (hs : SameCad s0 s) : SameCad s0 (motionEff e s) := by
  unfold motionEff
  try dsimp only
  with_reducible repeat' first | assumption | apply axisEff_sameCad | apply detachStrm_sameCad | apply grpHomeEff_sameCad | apply grpResumeEff_sameCad | apply keepPromise_sameCad | apply moveEff_sameCad | apply strmAnchorEff_sameCad | (apply cad_mk; exact rfl; (first | assumption | apply axisEff_sameCad | apply detachStrm_sameCad | apply grpHomeEff_sameCad | apply grpResumeEff_sameCad | apply keepPromise_sameCad | apply moveEff_sameCad | apply strmAnchorEff_sameCad | split)) | split | intro _

theorem eventsCadence_sameCad (s : State) (hs : SameCad s0 s) : SameCad s0 (eventsCadence s) := by
  unfold eventsCadence
  try dsimp only
  with_reducible repeat' first | assumption | apply conditionsCadence_sameCad | apply faultsCadence_sameCad | apply forNat_sameCad | apply grpHoldEff_sameCad | apply homeCadence_sameCad | apply keepPromise_sameCad | apply limitsTakeover_sameCad | apply loopEff_sameCad | apply motionEff_sameCad | apply poseMoves_sameCad | apply runEffs_sameCad | apply stateEff_sameCad | apply stopsCadence_sameCad | apply strmTakes_sameCad | apply writesCadence_sameCad | (apply cad_mk; exact rfl; (first | assumption | apply conditionsCadence_sameCad | apply faultsCadence_sameCad | apply forNat_sameCad | apply grpHoldEff_sameCad | apply homeCadence_sameCad | apply keepPromise_sameCad | apply limitsTakeover_sameCad | apply loopEff_sameCad | apply motionEff_sameCad | apply poseMoves_sameCad | apply runEffs_sameCad | apply stateEff_sameCad | apply stopsCadence_sameCad | apply strmTakes_sameCad | apply writesCadence_sameCad | split)) | split | intro _

theorem outputsCadence_sameCad (s : State) (hs : SameCad s0 s) : SameCad s0 (outputsCadence s) := by
  unfold outputsCadence
  try dsimp only
  with_reducible repeat' first | assumption | apply busCadence_sameCad | apply ioCadence_sameCad | apply keepPromise_sameCad | apply runEffs_sameCad | apply stpCadence_sameCad | apply stpEff_sameCad | (apply cad_mk; exact rfl; (first | assumption | apply busCadence_sameCad | apply ioCadence_sameCad | apply keepPromise_sameCad | apply runEffs_sameCad | apply stpCadence_sameCad | apply stpEff_sameCad | split)) | split | intro _

theorem groupCutoff_sameCad (g : Nat) (s : State) (hs : SameCad s0 s) : SameCad s0 (groupCutoff g s) := by
  unfold groupCutoff
  try dsimp only
  with_reducible repeat' first | assumption | apply count_sameCad | apply interpolate_sameCad | apply lamCadence_sameCad | apply modGrp_sameCad | apply startMoves_sameCad | apply strmClock_sameCad | apply strmStep_sameCad | (apply cad_mk; exact rfl; (first | assumption | apply count_sameCad | apply interpolate_sameCad | apply lamCadence_sameCad | apply modGrp_sameCad | apply startMoves_sameCad | apply strmClock_sameCad | apply strmStep_sameCad | split)) | split | intro _

theorem generate_sameCad (s : State) (hs : SameCad s0 s) : SameCad s0 (generate s) := by
  unfold generate
  try dsimp only
  with_reducible repeat' first | assumption | apply count_sameCad | apply countZero_sameCad | apply feedMembers_sameCad | apply forNat_sameCad | apply genStep_sameCad | apply groupCutoff_sameCad | apply slavesFollow_sameCad | (apply cad_mk; exact rfl; (first | assumption | apply count_sameCad | apply countZero_sameCad | apply feedMembers_sameCad | apply forNat_sameCad | apply genStep_sameCad | apply groupCutoff_sameCad | apply slavesFollow_sameCad | split)) | split | intro _

theorem planSnapshot_sameCad (s : State) (hs : SameCad s0 s) : SameCad s0 (planSnapshot s) := by
  unfold planSnapshot
  try dsimp only
  with_reducible repeat' first | assumption | apply grpSnapshot_sameCad | apply obstacleSnapshot_sameCad | apply qpSnapshot_sameCad | (apply cad_mk; exact rfl; (first | assumption | apply grpSnapshot_sameCad | apply obstacleSnapshot_sameCad | apply qpSnapshot_sameCad | split)) | split | intro _

theorem initLoop_sameCad (a : Nat) (s : State) (hs : SameCad s0 s) : SameCad s0 (initLoop a s) := by
  unfold initLoop
  try dsimp only
  with_reducible repeat' first | assumption | apply setAxis_sameCad | (apply cad_mk; exact rfl; (first | assumption | apply setAxis_sameCad | split)) | split | intro _

theorem loopCounts_sameCad (a : Nat) (l : LoopSt) (m : Marks) (inj : Bool) (s : State) (hs : SameCad s0 s) : SameCad s0 (loopCounts a l m inj s) := by
  unfold loopCounts
  try dsimp only
  with_reducible repeat' first | assumption | apply addBusy_sameCad | apply count_sameCad | apply tileMarks_sameCad | (apply cad_mk; exact rfl; (first | assumption | apply addBusy_sameCad | apply count_sameCad | apply tileMarks_sameCad | split)) | split | intro _

theorem loopCompute_sameCad (a : Nat) (s : State) (hs : SameCad s0 s) : SameCad s0 (loopCompute a s) := by
  unfold loopCompute
  try dsimp only
  with_reducible repeat' first | assumption | apply injAdvance_sameCad | apply injValue_sameCad | apply loopCounts_sameCad | apply raiseIf_sameCad | apply setAxis_sameCad | (apply cad_mk; exact rfl; (first | assumption | apply injAdvance_sameCad | apply injValue_sameCad | apply loopCounts_sameCad | apply raiseIf_sameCad | apply setAxis_sameCad | split)) | split | intro _

theorem followCheck_sameCad (a : Nat) (s : State) (hs : SameCad s0 s) : SameCad s0 (followCheck a s) := by
  unfold followCheck
  try dsimp only
  with_reducible repeat' first | assumption | apply modAxis_sameCad | apply raiseIf_sameCad | apply reqFault_sameCad | (apply cad_mk; exact rfl; (first | assumption | apply modAxis_sameCad | apply raiseIf_sameCad | apply reqFault_sameCad | split)) | split | intro _

theorem skewCheck_sameCad (g : Nat) (s : State) (hs : SameCad s0 s) : SameCad s0 (skewCheck g s) := by
  unfold skewCheck
  try dsimp only
  with_reducible repeat' first | assumption | apply forNat_sameCad | apply reqFault_sameCad | (apply cad_mk; exact rfl; (first | assumption | apply forNat_sameCad | apply reqFault_sameCad | split)) | split | intro _

theorem checksCompute_sameCad (s : State) (hs : SameCad s0 s) : SameCad s0 (checksCompute s) := by
  unfold checksCompute
  try dsimp only
  with_reducible repeat' first | assumption | apply badInput_sameCad | apply followCheck_sameCad | apply forNat_sameCad | apply limitStop_sameCad | apply skewCheck_sameCad | (apply cad_mk; exact rfl; (first | assumption | apply badInput_sameCad | apply followCheck_sameCad | apply forNat_sameCad | apply limitStop_sameCad | apply skewCheck_sameCad | split)) | split | intro _

end Sys2Proof.Machine
end

