-- ==== Sys2Proof/Laws/Same.lean ====
section
/-!
SUPPORT. `Same msk a b`: of the islands that the mask `m` does not free, `b` has what `a` has. One lemma per function that the rows of the
table run: it needs the mask to free the islands that the function may change, and no other.
-/
namespace Sys2Proof.Machine

set_option Elab.async false
set_option linter.all false

/-- The islands that may differ. -/
structure Mask where
  strm : Bool := false
  cad : Bool := false
  ptp : Bool := false
  bus : Bool := false
  pel : Bool := false
  axes : Bool := false
  grps : Bool := false
  sig : Bool := false
  sch : Bool := false
  io : Bool := false
  stp : Bool := false
  qp : Bool := false
  ssm : Bool := false

/-- `b` has the islands of `a` that the mask does not free. -/
structure Same (msk : Mask) (a b : State) : Prop where
  strm : msk.strm = true ∨ b.strm = a.strm
  cad : msk.cad = true ∨ b.cad = a.cad
  ptp : msk.ptp = true ∨ b.ptp = a.ptp
  bus : msk.bus = true ∨ b.bus = a.bus
  pel : msk.pel = true ∨ b.pel = a.pel
  axes : msk.axes = true ∨ b.axes = a.axes
  grps : msk.grps = true ∨ b.grps = a.grps
  sig : msk.sig = true ∨ b.sig = a.sig
  sch : msk.sch = true ∨ b.sch = a.sch
  io : msk.io = true ∨ b.io = a.io
  stp : msk.stp = true ∨ b.stp = a.stp
  qp : msk.qp = true ∨ b.qp = a.qp
  ssm : msk.ssm = true ∨ b.ssm = a.ssm

variable {msk : Mask} {s0 : State}

theorem Same.refl (msk : Mask) (s : State) : Same msk s s := by constructor <;> exact Or.inr rfl

theorem same_mk {s : State} {host evt strm time cad ptp dev jrn hub xl bus pel axes grps sig sch io stp qp trc ssm eff tilesOut lanesOut out admitSeq free pending}
   (c0 : msk.strm = true ∨ strm = s.strm) (c1 : msk.cad = true ∨ cad = s.cad) (c2 : msk.ptp = true ∨ ptp = s.ptp) (c3 : msk.bus = true ∨ bus = s.bus) (c4 : msk.pel = true ∨ pel = s.pel) (c5 : msk.axes = true ∨ axes = s.axes) (c6 : msk.grps = true ∨ grps = s.grps) (c7 : msk.sig = true ∨ sig = s.sig) (c8 : msk.sch = true ∨ sch = s.sch) (c9 : msk.io = true ∨ io = s.io) (c10 : msk.stp = true ∨ stp = s.stp) (c11 : msk.qp = true ∨ qp = s.qp) (c12 : msk.ssm = true ∨ ssm = s.ssm)
   (h : Same msk s0 s) : Same msk s0 ⟨host, evt, strm, time, cad, ptp, dev, jrn, hub, xl, bus, pel, axes, grps, sig, sch, io, stp, qp, trc, ssm, eff, tilesOut, lanesOut, out, admitSeq, free, pending⟩ := by
  constructor
  · exact c0.elim Or.inl (fun e => h.strm.elim Or.inl (fun g => Or.inr (e.trans g)))
  · exact c1.elim Or.inl (fun e => h.cad.elim Or.inl (fun g => Or.inr (e.trans g)))
  · exact c2.elim Or.inl (fun e => h.ptp.elim Or.inl (fun g => Or.inr (e.trans g)))
  · exact c3.elim Or.inl (fun e => h.bus.elim Or.inl (fun g => Or.inr (e.trans g)))
  · exact c4.elim Or.inl (fun e => h.pel.elim Or.inl (fun g => Or.inr (e.trans g)))
  · exact c5.elim Or.inl (fun e => h.axes.elim Or.inl (fun g => Or.inr (e.trans g)))
  · exact c6.elim Or.inl (fun e => h.grps.elim Or.inl (fun g => Or.inr (e.trans g)))
  · exact c7.elim Or.inl (fun e => h.sig.elim Or.inl (fun g => Or.inr (e.trans g)))
  · exact c8.elim Or.inl (fun e => h.sch.elim Or.inl (fun g => Or.inr (e.trans g)))
  · exact c9.elim Or.inl (fun e => h.io.elim Or.inl (fun g => Or.inr (e.trans g)))
  · exact c10.elim Or.inl (fun e => h.stp.elim Or.inl (fun g => Or.inr (e.trans g)))
  · exact c11.elim Or.inl (fun e => h.qp.elim Or.inl (fun g => Or.inr (e.trans g)))
  · exact c12.elim Or.inl (fun e => h.ssm.elim Or.inl (fun g => Or.inr (e.trans g)))

theorem foldl_stays {α : Type} (l : List α) (f : State → α → State) (hf : ∀ t x, Same msk s0 t → Same msk s0 (f t x)) (s : State) (h : Same msk s0 s) :
    Same msk s0 (l.foldl f s) := by
  induction l generalizing s with
  | nil => exact h
  | cons x r ih => exact ih _ (hf _ _ h)

theorem ite_stays (c : Prop) [Decidable c] {a b : State} (ha : Same msk s0 a) (hb : Same msk s0 b) : Same msk s0 (if c then a else b) := by
  split
  · exact ha
  · exact hb

theorem takeEff_stays (op : Nat → Bool) (t : Nat) (s : State) (hs : Same msk s0 s) : Same msk s0 (takeEff op t s).2 := by
  unfold takeEff; constructor
  · exact hs.strm
  · exact hs.cad
  · exact hs.ptp
  · exact hs.bus
  · exact hs.pel
  · exact hs.axes
  · exact hs.grps
  · exact hs.sig
  · exact hs.sch
  · exact hs.io
  · exact hs.stp
  · exact hs.qp
  · exact hs.ssm

theorem advanceTo_stays (t : Nat) (s : State) (hs : Same msk s0 s)  : Same msk s0 (advanceTo t s) := by
  unfold advanceTo
  try dsimp only
  with_reducible repeat' first | assumption | (apply same_mk; (iterate 13 (first | exact Or.inr rfl | exact Or.inl ‹_›)); (first | assumption | split)) | split | intro _

theorem freeNext_stays (s : State) (hs : Same msk s0 s)  : Same msk s0 (freeNext s) := by
  unfold freeNext
  try dsimp only
  with_reducible repeat' first | assumption | (apply same_mk; (iterate 13 (first | exact Or.inr rfl | exact Or.inl ‹_›)); (first | assumption | split)) | split | intro _

theorem emit_stays (k : OutKind) (u : Nat) (b : List Byte) (s : State) (hs : Same msk s0 s)  : Same msk s0 (emit k u b s) := by
  unfold emit
  try dsimp only
  with_reducible repeat' first | assumption | (apply same_mk; (iterate 13 (first | exact Or.inr rfl | exact Or.inl ‹_›)); (first | assumption | split)) | split | intro _

theorem setSpoke_stays (i : Nat) (p : Spoke) (s : State) (hs : Same msk s0 s)  : Same msk s0 (setSpoke i p s) := by
  unfold setSpoke
  try dsimp only
  with_reducible repeat' first | assumption | (apply same_mk; (iterate 13 (first | exact Or.inr rfl | exact Or.inl ‹_›)); (first | assumption | split)) | split | intro _

theorem countN_stays (i code n : Nat) (s : State) (hs : Same msk s0 s)  : Same msk s0 (countN i code n s) := by
  unfold countN
  try dsimp only
  with_reducible repeat' first | assumption | apply setSpoke_stays | (apply same_mk; (iterate 13 (first | exact Or.inr rfl | exact Or.inl ‹_›)); (first | assumption | apply setSpoke_stays | split)) | split | intro _

theorem count_stays (i code : Nat) (s : State) (hs : Same msk s0 s)  : Same msk s0 (count i code s) := by
  unfold count
  try dsimp only
  with_reducible repeat' first | assumption | apply countN_stays | (apply same_mk; (iterate 13 (first | exact Or.inr rfl | exact Or.inl ‹_›)); (first | assumption | apply countN_stays | split)) | split | intro _

theorem fireVector_stays (v : Nat) (s : State) (hs : Same msk s0 s)  : Same msk s0 (fireVector v s) := by
  unfold fireVector
  try dsimp only
  with_reducible repeat' first | assumption | apply count_stays | apply emit_stays | (apply same_mk; (iterate 13 (first | exact Or.inr rfl | exact Or.inl ‹_›)); (first | assumption | apply count_stays | apply emit_stays | split)) | split | intro _

theorem raise_stays (e : Nat) (s : State) (hs : Same msk s0 s)  : Same msk s0 (raise e s) := by
  unfold raise
  try dsimp only
  with_reducible repeat' first | assumption | apply fireVector_stays | (apply same_mk; (iterate 13 (first | exact Or.inr rfl | exact Or.inl ‹_›)); (first | assumption | apply fireVector_stays | split)) | split | intro _

theorem raiseIf_stays (b : Bool) (e : Nat) (s : State) (hs : Same msk s0 s)  : Same msk s0 (raiseIf b e s) := by
  unfold raiseIf
  try dsimp only
  with_reducible repeat' first | assumption | apply raise_stays | (apply same_mk; (iterate 13 (first | exact Or.inr rfl | exact Or.inl ‹_›)); (first | assumption | apply raise_stays | split)) | split | intro _

theorem dropRecord_stays (s : State) (hs : Same msk s0 s)  : Same msk s0 (dropRecord s) := by
  unfold dropRecord
  try dsimp only
  with_reducible repeat' first | assumption | (apply same_mk; (iterate 13 (first | exact Or.inr rfl | exact Or.inl ‹_›)); (first | assumption | split)) | split | intro _

theorem journalRec_stays (r : JRec) (s : State) (hs : Same msk s0 s)  : Same msk s0 (journalRec r s) := by
  unfold journalRec
  try dsimp only
  with_reducible repeat' first | assumption | apply count_stays | apply dropRecord_stays | (apply same_mk; (iterate 13 (first | exact Or.inr rfl | exact Or.inl ‹_›)); (first | assumption | apply count_stays | apply dropRecord_stays | split)) | split | intro _

theorem journal_stays (src code sev obj aux : Nat) (detail : List Byte) (s : State) (hs : Same msk s0 s)  : Same msk s0 (journal src code sev obj aux detail s) := by
  unfold journal
  try dsimp only
  with_reducible repeat' first | assumption | apply journalRec_stays | (apply same_mk; (iterate 13 (first | exact Or.inr rfl | exact Or.inl ‹_›)); (first | assumption | apply journalRec_stays | split)) | split | intro _

theorem journalF_stays (src code sev obj aux : Nat) (detail : List Byte) (s : State) (hs : Same msk s0 s)  : Same msk s0 (journalF src code sev obj aux detail s) := by
  unfold journalF
  try dsimp only
  with_reducible repeat' first | assumption | (apply same_mk; (iterate 13 (first | exact Or.inr rfl | exact Or.inl ‹_›)); (first | assumption | split)) | split | intro _

theorem setMb_stays (m : Nat) (b : Mailbox) (s : State) (hs : Same msk s0 s)  : Same msk s0 (setMb m b s) := by
  unfold setMb
  try dsimp only
  with_reducible repeat' first | assumption | (apply same_mk; (iterate 13 (first | exact Or.inr rfl | exact Or.inl ‹_›)); (first | assumption | split)) | split | intro _

theorem setSlot_stays (m k : Nat) (v : Slot) (s : State) (hs : Same msk s0 s)  : Same msk s0 (setSlot m k v s) := by
  unfold setSlot
  try dsimp only
  with_reducible repeat' first | assumption | apply setMb_stays | (apply same_mk; (iterate 13 (first | exact Or.inr rfl | exact Or.inl ‹_›)); (first | assumption | apply setMb_stays | split)) | split | intro _

theorem bar2Write_stays (a : Nat) (b : List Byte) (s : State) (hs : Same msk s0 s)  : Same msk s0 (bar2Write a b s) := by
  unfold bar2Write
  try dsimp only
  with_reducible repeat' first | assumption | (apply same_mk; (iterate 13 (first | exact Or.inr rfl | exact Or.inl ‹_›)); (first | assumption | split)) | split | intro _

theorem recordDone_stays (st : Status) (s : State) (hs : Same msk s0 s)  : Same msk s0 (recordDone st s) := by
  unfold recordDone
  try dsimp only
  with_reducible repeat' first | assumption | (apply same_mk; (iterate 13 (first | exact Or.inr rfl | exact Or.inl ‹_›)); (first | assumption | split)) | split | intro _

theorem complete_stays (m k : Nat) (st : Status) (time state : Nat) (res : List Byte) (s : State) (hs : Same msk s0 s)  : Same msk s0 (complete m k st time state res s) := by
  unfold complete
  try dsimp only
  with_reducible repeat' first | assumption | apply bar2Write_stays | apply emit_stays | apply raise_stays | apply recordDone_stays | apply setSlot_stays | (apply same_mk; (iterate 13 (first | exact Or.inr rfl | exact Or.inl ‹_›)); (first | assumption | apply bar2Write_stays | apply emit_stays | apply raise_stays | apply recordDone_stays | apply setSlot_stays | split)) | split | intro _

theorem setAxis_stays (a : Nat) (x : AxisSt) (s : State) (hs : Same msk s0 s) (maxes : msk.axes = true := by assumption) : Same msk s0 (setAxis a x s) := by
  unfold setAxis
  try dsimp only
  with_reducible repeat' first | assumption | (apply same_mk; (iterate 13 (first | exact Or.inr rfl | exact Or.inl ‹_›)); (first | assumption | split)) | split | intro _

theorem modAxis_stays (a : Nat) (f : AxisSt → AxisSt) (s : State) (hs : Same msk s0 s) (maxes : msk.axes = true := by assumption) : Same msk s0 (modAxis a f s) := by
  unfold modAxis
  try dsimp only
  with_reducible repeat' first | assumption | apply setAxis_stays | (apply same_mk; (iterate 13 (first | exact Or.inr rfl | exact Or.inl ‹_›)); (first | assumption | apply setAxis_stays | split)) | split | intro _

theorem setGrp_stays (g : Nat) (x : GroupSt) (s : State) (hs : Same msk s0 s) (mgrps : msk.grps = true := by assumption) : Same msk s0 (setGrp g x s) := by
  unfold setGrp
  try dsimp only
  with_reducible repeat' first | assumption | (apply same_mk; (iterate 13 (first | exact Or.inr rfl | exact Or.inl ‹_›)); (first | assumption | split)) | split | intro _

theorem modGrp_stays (g : Nat) (f : GroupSt → GroupSt) (s : State) (hs : Same msk s0 s) (mgrps : msk.grps = true := by assumption) : Same msk s0 (modGrp g f s) := by
  unfold modGrp
  try dsimp only
  with_reducible repeat' first | assumption | apply setGrp_stays | (apply same_mk; (iterate 13 (first | exact Or.inr rfl | exact Or.inl ‹_›)); (first | assumption | apply setGrp_stays | split)) | split | intro _

theorem setChan_stays (c : Nat) (x : Chan) (s : State) (hs : Same msk s0 s) (mio : msk.io = true := by assumption) : Same msk s0 (setChan c x s) := by
  unfold setChan
  try dsimp only
  with_reducible repeat' first | assumption | (apply same_mk; (iterate 13 (first | exact Or.inr rfl | exact Or.inl ‹_›)); (first | assumption | split)) | split | intro _

theorem modChan_stays (c : Nat) (f : Chan → Chan) (s : State) (hs : Same msk s0 s) (mio : msk.io = true := by assumption) : Same msk s0 (modChan c f s) := by
  unfold modChan
  try dsimp only
  with_reducible repeat' first | assumption | apply setChan_stays | (apply same_mk; (iterate 13 (first | exact Or.inr rfl | exact Or.inl ‹_›)); (first | assumption | apply setChan_stays | split)) | split | intro _

theorem setFg_stays (x : Nat) (v : FieldGroup) (s : State) (hs : Same msk s0 s) (mio : msk.io = true := by assumption) : Same msk s0 (setFg x v s) := by
  unfold setFg
  try dsimp only
  with_reducible repeat' first | assumption | (apply same_mk; (iterate 13 (first | exact Or.inr rfl | exact Or.inl ‹_›)); (first | assumption | split)) | split | intro _

theorem setStp_stays (n : Nat) (v : StpAxis) (s : State) (hs : Same msk s0 s) (mstp : msk.stp = true := by assumption) : Same msk s0 (setStp n v s) := by
  unfold setStp
  try dsimp only
  with_reducible repeat' first | assumption | (apply same_mk; (iterate 13 (first | exact Or.inr rfl | exact Or.inl ‹_›)); (first | assumption | split)) | split | intro _

theorem stpPut_stays (n : Nat) (y : StpAxis) (s : State) (hs : Same msk s0 s) (mstp : msk.stp = true := by assumption) : Same msk s0 (stpPut n y s) := by
  unfold stpPut
  split
  · exact setStp_stays _ _ _ hs
  · exact emit_stays _ _ _ _ (setStp_stays _ _ _ hs)

theorem setSeg_stays (k : Nat) (v : Segment) (s : State) (hs : Same msk s0 s) (mbus : msk.bus = true := by assumption) : Same msk s0 (setSeg k v s) := by
  unfold setSeg
  try dsimp only
  with_reducible repeat' first | assumption | (apply same_mk; (iterate 13 (first | exact Or.inr rfl | exact Or.inl ‹_›)); (first | assumption | split)) | split | intro _

theorem forNat_stays (l : List Nat) (f : Nat → State → State) (s : State) (kf : ∀ a0 t, Same msk s0 t → Same msk s0 (f a0 t)) (hs : Same msk s0 s)  : Same msk s0 (forNat l f s) := by
  unfold forNat
  try dsimp only
  with_reducible repeat' first | assumption | apply kf | apply foldl_stays | (apply same_mk; (iterate 13 (first | exact Or.inr rfl | exact Or.inl ‹_›)); (first | assumption | apply kf | apply foldl_stays | split)) | split | intro _

theorem reqStopGrp_stays (g cat : Nat) (s : State) (hs : Same msk s0 s) (mgrps : msk.grps = true := by assumption) : Same msk s0 (reqStopGrp g cat s) := by
  unfold reqStopGrp
  try dsimp only
  with_reducible repeat' first | assumption | apply modGrp_stays | (apply same_mk; (iterate 13 (first | exact Or.inr rfl | exact Or.inl ‹_›)); (first | assumption | apply modGrp_stays | split)) | split | intro _

theorem reqStopAxis_stays (a cat : Nat) (s : State) (hs : Same msk s0 s) (maxes : msk.axes = true := by assumption) : Same msk s0 (reqStopAxis a cat s) := by
  unfold reqStopAxis
  try dsimp only
  with_reducible repeat' first | assumption | apply modAxis_stays | (apply same_mk; (iterate 13 (first | exact Or.inr rfl | exact Or.inl ‹_›)); (first | assumption | apply modAxis_stays | split)) | split | intro _

theorem reqFault_stays (a code : Nat) (s : State) (hs : Same msk s0 s) (maxes : msk.axes = true := by assumption) : Same msk s0 (reqFault a code s) := by
  unfold reqFault
  try dsimp only
  with_reducible repeat' first | assumption | apply modAxis_stays | (apply same_mk; (iterate 13 (first | exact Or.inr rfl | exact Or.inl ‹_›)); (first | assumption | apply modAxis_stays | split)) | split | intro _

theorem reqStopAll_stays (cat : Nat) (s : State) (hs : Same msk s0 s) (mgrps : msk.grps = true := by assumption) : Same msk s0 (reqStopAll cat s) := by
  unfold reqStopAll
  try dsimp only
  with_reducible repeat' first | assumption | apply forNat_stays | apply reqStopGrp_stays | (apply same_mk; (iterate 13 (first | exact Or.inr rfl | exact Or.inl ‹_›)); (first | assumption | apply forNat_stays | apply reqStopGrp_stays | split)) | split | intro _

theorem setDir_stays (d : Die) (x : XDir) (s : State) (hs : Same msk s0 s)  : Same msk s0 (setDir d x s) := by
  unfold setDir
  try dsimp only
  with_reducible repeat' first | assumption | (apply same_mk; (iterate 13 (first | exact Or.inr rfl | exact Or.inl ‹_›)); (first | assumption | split)) | split | intro _

theorem xsendFlit_stays (d : Die) (cls : Nat) (data : List Byte) (s : State) (hs : Same msk s0 s)  : Same msk s0 (xsendFlit d cls data s) := by
  unfold xsendFlit
  try dsimp only
  with_reducible repeat' first | assumption | apply emit_stays | apply setDir_stays | (apply same_mk; (iterate 13 (first | exact Or.inr rfl | exact Or.inl ‹_›)); (first | assumption | apply emit_stays | apply setDir_stays | split)) | split | intro _

theorem xsend_stays (d : Die) (cls : Nat) (data : List Byte) (s : State) (hs : Same msk s0 s)  : Same msk s0 (xsend d cls data s) := by
  unfold xsend
  try dsimp only
  with_reducible repeat' first | assumption | apply xsendFlit_stays | apply foldl_stays | (apply same_mk; (iterate 13 (first | exact Or.inr rfl | exact Or.inl ‹_›)); (first | assumption | apply xsendFlit_stays | apply foldl_stays | split)) | split | intro _

theorem xacked_stays (d : Die) (upTo : BitVec 12) (s : State) (hs : Same msk s0 s)  : Same msk s0 (xacked d upTo s) := by
  unfold xacked
  try dsimp only
  with_reducible repeat' first | assumption | apply setDir_stays | (apply same_mk; (iterate 13 (first | exact Or.inr rfl | exact Or.inl ‹_›)); (first | assumption | apply setDir_stays | split)) | split | intro _

theorem xreplay_stays (d : Die) (seq : BitVec 12) (s : State) (hs : Same msk s0 s)  : Same msk s0 (xreplay d seq s) := by
  unfold xreplay
  try dsimp only
  with_reducible repeat' first | assumption | apply emit_stays | apply setDir_stays | apply foldl_stays | (apply same_mk; (iterate 13 (first | exact Or.inr rfl | exact Or.inl ‹_›)); (first | assumption | apply emit_stays | apply setDir_stays | apply foldl_stays | split)) | split | intro _

theorem setCls_stays (k : Nat) (v : ClassSt) (s : State) (hs : Same msk s0 s) (msch : msk.sch = true := by assumption) : Same msk s0 (setCls k v s) := by
  unfold setCls
  try dsimp only
  with_reducible repeat' first | assumption | (apply same_mk; (iterate 13 (first | exact Or.inr rfl | exact Or.inl ‹_›)); (first | assumption | split)) | split | intro _

theorem noteDepth_stays (k : Nat) (s : State) (hs : Same msk s0 s) (msch : msk.sch = true := by assumption) : Same msk s0 (noteDepth k s) := by
  unfold noteDepth
  try dsimp only
  with_reducible repeat' first | assumption | apply raiseIf_stays | apply setCls_stays | (apply same_mk; (iterate 13 (first | exact Or.inr rfl | exact Or.inl ‹_›)); (first | assumption | apply raiseIf_stays | apply setCls_stays | split)) | split | intro _

theorem setShares_stays (l : List Share) (s : State) (hs : Same msk s0 s) (msch : msk.sch = true := by assumption) : Same msk s0 (setShares l s) := by
  unfold setShares
  try dsimp only
  with_reducible repeat' first | assumption | apply forNat_stays | apply noteDepth_stays | (apply same_mk; (iterate 13 (first | exact Or.inr rfl | exact Or.inl ‹_›)); (first | assumption | apply forNat_stays | apply noteDepth_stays | split)) | split | intro _

theorem freeShares_stays (p : Share → Bool) (s : State) (hs : Same msk s0 s) (msch : msk.sch = true := by assumption) : Same msk s0 (freeShares p s) := by
  unfold freeShares
  try dsimp only
  with_reducible repeat' first | assumption | apply setShares_stays | (apply same_mk; (iterate 13 (first | exact Or.inr rfl | exact Or.inl ‹_›)); (first | assumption | apply setShares_stays | split)) | split | intro _

theorem tileMarks_stays (u : Nat) (m : Marks) (s : State) (hs : Same msk s0 s) (msch : msk.sch = true := by assumption) : Same msk s0 (tileMarks u m s) := by
  unfold tileMarks
  try dsimp only
  with_reducible repeat' first | assumption | apply countN_stays | (apply same_mk; (iterate 13 (first | exact Or.inr rfl | exact Or.inl ‹_›)); (first | assumption | apply countN_stays | split)) | split | intro _

theorem loopEff_stays (t : Nat) (e : Eff) (s : State) (hs : Same msk s0 s) (maxes : msk.axes = true := by assumption) : Same msk s0 (loopEff t e s) := by
  unfold loopEff
  try dsimp only
  with_reducible repeat' first | assumption | apply raise_stays | apply setAxis_stays | (apply same_mk; (iterate 13 (first | exact Or.inr rfl | exact Or.inl ‹_›)); (first | assumption | apply raise_stays | apply setAxis_stays | split)) | split | intro _

theorem setUnit_stays (u : Nat) (a : Option Armed) (s : State) (hs : Same msk s0 s)  : Same msk s0 (setUnit u a s) := by
  unfold setUnit
  try dsimp only
  with_reducible repeat' first | assumption | (apply same_mk; (iterate 13 (first | exact Or.inr rfl | exact Or.inl ‹_›)); (first | assumption | split)) | split | intro _

theorem freeUnits_stays (p : Armed → Bool) (s : State) (hs : Same msk s0 s)  : Same msk s0 (freeUnits p s) := by
  unfold freeUnits
  try dsimp only
  with_reducible repeat' first | assumption | (apply same_mk; (iterate 13 (first | exact Or.inr rfl | exact Or.inl ‹_›)); (first | assumption | split)) | split | intro _

theorem cancelDieF_stays (s : State) (hs : Same msk s0 s)  : Same msk s0 (cancelDieF s) := by
  unfold cancelDieF
  try dsimp only
  with_reducible repeat' first | assumption | (apply same_mk; (iterate 13 (first | exact Or.inr rfl | exact Or.inl ‹_›)); (first | assumption | split)) | split | intro _

theorem drivePin_stays (c : Nat) (v : Bool) (s : State) (hs : Same msk s0 s) (mio : msk.io = true := by assumption) : Same msk s0 (drivePin c v s) := by
  unfold drivePin
  try dsimp only
  with_reducible repeat' first | assumption | apply count_stays | apply emit_stays | apply setChan_stays | (apply same_mk; (iterate 13 (first | exact Or.inr rfl | exact Or.inl ‹_›)); (first | assumption | apply count_stays | apply emit_stays | apply setChan_stays | split)) | split | intro _

theorem pinsAll_stays (s : State) (hs : Same msk s0 s) (mio : msk.io = true := by assumption) : Same msk s0 (pinsAll s) := by
  unfold pinsAll
  try dsimp only
  with_reducible repeat' first | assumption | apply drivePin_stays | apply forNat_stays | (apply same_mk; (iterate 13 (first | exact Or.inr rfl | exact Or.inl ‹_›)); (first | assumption | apply drivePin_stays | apply forNat_stays | split)) | split | intro _

theorem pinsOff_stays (s : State) (hs : Same msk s0 s) (mio : msk.io = true := by assumption) : Same msk s0 (pinsOff s) := by
  unfold pinsOff
  try dsimp only
  with_reducible repeat' first | assumption | apply drivePin_stays | apply forNat_stays | (apply same_mk; (iterate 13 (first | exact Or.inr rfl | exact Or.inl ‹_›)); (first | assumption | apply drivePin_stays | apply forNat_stays | split)) | split | intro _

theorem fioReport_stays (ev : Option Nat) (code sev obj : Nat) (detail : List Byte) (s : State) (hs : Same msk s0 s)  : Same msk s0 (fioReport ev code sev obj detail s) := by
  unfold fioReport
  try dsimp only
  with_reducible repeat' first | assumption | apply journal_stays | apply raise_stays | (apply same_mk; (iterate 13 (first | exact Or.inr rfl | exact Or.inl ‹_›)); (first | assumption | apply journal_stays | apply raise_stays | split)) | split | intro _

theorem addCode_stays (c code sev : Nat) (s : State) (hs : Same msk s0 s) (mio : msk.io = true := by assumption) : Same msk s0 (addCode c code sev s) := by
  unfold addCode
  try dsimp only
  with_reducible repeat' first | assumption | apply count_stays | apply fioReport_stays | apply freeNext_stays | apply setChan_stays | (apply same_mk; (iterate 13 (first | exact Or.inr rfl | exact Or.inl ‹_›)); (first | assumption | apply count_stays | apply fioReport_stays | apply freeNext_stays | apply setChan_stays | split)) | split | intro _

theorem clearCode_stays (c code : Nat) (s : State) (hs : Same msk s0 s) (mio : msk.io = true := by assumption) : Same msk s0 (clearCode c code s) := by
  unfold clearCode
  try dsimp only
  with_reducible repeat' first | assumption | apply fioReport_stays | apply freeNext_stays | apply setChan_stays | (apply same_mk; (iterate 13 (first | exact Or.inr rfl | exact Or.inl ‹_›)); (first | assumption | apply fioReport_stays | apply freeNext_stays | apply setChan_stays | split)) | split | intro _

theorem tripChan_stays (c : Nat) (s : State) (hs : Same msk s0 s) (mio : msk.io = true := by assumption) : Same msk s0 (tripChan c s) := by
  unfold tripChan
  try dsimp only
  with_reducible repeat' first | assumption | apply count_stays | apply pinsOff_stays | apply setChan_stays | (apply same_mk; (iterate 13 (first | exact Or.inr rfl | exact Or.inl ‹_›)); (first | assumption | apply count_stays | apply pinsOff_stays | apply setChan_stays | split)) | split | intro _

theorem overload_stays (c : Nat) (s : State) (hs : Same msk s0 s) (mio : msk.io = true := by assumption) : Same msk s0 (overload c s) := by
  unfold overload
  try dsimp only
  with_reducible repeat' first | assumption | apply addCode_stays | apply tripChan_stays | (apply same_mk; (iterate 13 (first | exact Or.inr rfl | exact Or.inl ‹_›)); (first | assumption | apply addCode_stays | apply tripChan_stays | split)) | split | intro _

theorem overtemp_stays (c tj : Nat) (s : State) (hs : Same msk s0 s) (mio : msk.io = true := by assumption) : Same msk s0 (overtemp c tj s) := by
  unfold overtemp
  try dsimp only
  with_reducible repeat' first | assumption | apply addCode_stays | apply modChan_stays | apply pinsOff_stays | (apply same_mk; (iterate 13 (first | exact Or.inr rfl | exact Or.inl ‹_›)); (first | assumption | apply addCode_stays | apply modChan_stays | apply pinsOff_stays | split)) | split | intro _

theorem overtempTrip_stays (c tj : Nat) (s : State) (hs : Same msk s0 s) (mio : msk.io = true := by assumption) : Same msk s0 (overtempTrip c tj s) := by
  unfold overtempTrip
  try dsimp only
  with_reducible repeat' first | assumption | apply modChan_stays | apply tripChan_stays | (apply same_mk; (iterate 13 (first | exact Or.inr rfl | exact Or.inl ‹_›)); (first | assumption | apply modChan_stays | apply tripChan_stays | split)) | split | intro _

theorem groupOverload_stays (x : Nat) (cur : List (BitVec 16)) (s : State) (hs : Same msk s0 s) (mio : msk.io = true := by assumption) : Same msk s0 (groupOverload x cur s) := by
  unfold groupOverload
  try dsimp only
  with_reducible repeat' first | assumption | apply addCode_stays | apply forNat_stays | apply modChan_stays | apply tripChan_stays | apply foldl_stays | (apply same_mk; (iterate 13 (first | exact Or.inr rfl | exact Or.inl ‹_›)); (first | assumption | apply addCode_stays | apply forNat_stays | apply modChan_stays | apply tripChan_stays | apply foldl_stays | split)) | split | intro _

theorem shortFlp_stays (c : Nat) (s : State) (hs : Same msk s0 s) (mio : msk.io = true := by assumption) : Same msk s0 (shortFlp c s) := by
  unfold shortFlp
  try dsimp only
  with_reducible repeat' first | assumption | apply addCode_stays | apply advanceTo_stays | (apply same_mk; (iterate 13 (first | exact Or.inr rfl | exact Or.inl ‹_›)); (first | assumption | apply addCode_stays | apply advanceTo_stays | split)) | split | intro _

theorem openOff_stays (c : Nat) (s : State) (hs : Same msk s0 s) (mio : msk.io = true := by assumption) : Same msk s0 (openOff c s) := by
  unfold openOff
  try dsimp only
  with_reducible repeat' first | assumption | apply addCode_stays | apply advanceTo_stays | (apply same_mk; (iterate 13 (first | exact Or.inr rfl | exact Or.inl ‹_›)); (first | assumption | apply addCode_stays | apply advanceTo_stays | split)) | split | intro _

theorem openOn_stays (c : Nat) (s : State) (hs : Same msk s0 s) (mio : msk.io = true := by assumption) : Same msk s0 (openOn c s) := by
  unfold openOn
  try dsimp only
  with_reducible repeat' first | assumption | apply addCode_stays | apply advanceTo_stays | (apply same_mk; (iterate 13 (first | exact Or.inr rfl | exact Or.inl ‹_›)); (first | assumption | apply addCode_stays | apply advanceTo_stays | split)) | split | intro _

theorem openInput_stays (c : Nat) (low : Bool) (s : State) (hs : Same msk s0 s) (mio : msk.io = true := by assumption) : Same msk s0 (openInput c low s) := by
  unfold openInput
  try dsimp only
  with_reducible repeat' first | assumption | apply addCode_stays | apply clearCode_stays | (apply same_mk; (iterate 13 (first | exact Or.inr rfl | exact Or.inl ‹_›)); (first | assumption | apply addCode_stays | apply clearCode_stays | split)) | split | intro _

theorem channelRestart_stays (c : Nat) (s : State) (hs : Same msk s0 s) (mio : msk.io = true := by assumption) : Same msk s0 (channelRestart c s) := by
  unfold channelRestart
  try dsimp only
  with_reducible repeat' first | assumption | apply advanceTo_stays | apply setChan_stays | (apply same_mk; (iterate 13 (first | exact Or.inr rfl | exact Or.inl ‹_›)); (first | assumption | apply advanceTo_stays | apply setChan_stays | split)) | split | intro _

theorem setSupply_stays (x code mv : Nat) (s : State) (hs : Same msk s0 s) (mio : msk.io = true := by assumption) : Same msk s0 (setSupply x code mv s) := by
  unfold setSupply
  try dsimp only
  with_reducible repeat' first | assumption | apply count_stays | apply fioReport_stays | apply setFg_stays | (apply same_mk; (iterate 13 (first | exact Or.inr rfl | exact Or.inl ‹_›)); (first | assumption | apply count_stays | apply fioReport_stays | apply setFg_stays | split)) | split | intro _

theorem supplyLow_stays (x mv : Nat) (s : State) (hs : Same msk s0 s) (mio : msk.io = true := by assumption) : Same msk s0 (supplyLow x mv s) := by
  unfold supplyLow
  try dsimp only
  with_reducible repeat' first | assumption | apply setFg_stays | apply setSupply_stays | (apply same_mk; (iterate 13 (first | exact Or.inr rfl | exact Or.inl ‹_›)); (first | assumption | apply setFg_stays | apply setSupply_stays | split)) | split | intro _

theorem supplyLatch_stays (x code mv : Nat) (s : State) (hs : Same msk s0 s) (mio : msk.io = true := by assumption) : Same msk s0 (supplyLatch x code mv s) := by
  unfold supplyLatch
  try dsimp only
  with_reducible repeat' first | assumption | apply pinsOff_stays | apply setFg_stays | apply setSupply_stays | (apply same_mk; (iterate 13 (first | exact Or.inr rfl | exact Or.inl ‹_›)); (first | assumption | apply pinsOff_stays | apply setFg_stays | apply setSupply_stays | split)) | split | intro _

theorem supplyRelease_stays (x : Nat) (s : State) (hs : Same msk s0 s) (mio : msk.io = true := by assumption) : Same msk s0 (supplyRelease x s) := by
  unfold supplyRelease
  try dsimp only
  with_reducible repeat' first | assumption | apply setFg_stays | apply setSupply_stays | (apply same_mk; (iterate 13 (first | exact Or.inr rfl | exact Or.inl ‹_›)); (first | assumption | apply setFg_stays | apply setSupply_stays | split)) | split | intro _

theorem supplyLatchRelease_stays (x : Nat) (s : State) (hs : Same msk s0 s) (mio : msk.io = true := by assumption) : Same msk s0 (supplyLatchRelease x s) := by
  unfold supplyLatchRelease
  try dsimp only
  with_reducible repeat' first | assumption | apply advanceTo_stays | apply pinsAll_stays | apply supplyRelease_stays | (apply same_mk; (iterate 13 (first | exact Or.inr rfl | exact Or.inl ‹_›)); (first | assumption | apply advanceTo_stays | apply pinsAll_stays | apply supplyRelease_stays | split)) | split | intro _

theorem flpFirstRise_stays (x mv : Nat) (s : State) (hs : Same msk s0 s) (mio : msk.io = true := by assumption) : Same msk s0 (flpFirstRise x mv s) := by
  unfold flpFirstRise
  try dsimp only
  with_reducible repeat' first | assumption | apply setFg_stays | apply setSupply_stays | (apply same_mk; (iterate 13 (first | exact Or.inr rfl | exact Or.inl ‹_›)); (first | assumption | apply setFg_stays | apply setSupply_stays | split)) | split | intro _

theorem levelChange_stays (c : Nat) (v : Bool) (s : State) (hs : Same msk s0 s) (mio : msk.io = true := by assumption) : Same msk s0 (levelChange c v s) := by
  unfold levelChange
  try dsimp only
  with_reducible repeat' first | assumption | apply clearCode_stays | apply setChan_stays | (apply same_mk; (iterate 13 (first | exact Or.inr rfl | exact Or.inl ‹_›)); (first | assumption | apply clearCode_stays | apply setChan_stays | split)) | split | intro _

theorem inputFiltered_stays (c : Nat) (s : State) (hs : Same msk s0 s) (mio : msk.io = true := by assumption) : Same msk s0 (inputFiltered c s) := by
  unfold inputFiltered
  try dsimp only
  with_reducible repeat' first | assumption | apply advanceTo_stays | apply setChan_stays | (apply same_mk; (iterate 13 (first | exact Or.inr rfl | exact Or.inl ‹_›)); (first | assumption | apply advanceTo_stays | apply setChan_stays | split)) | split | intro _

theorem writeCh_stays (f : Chan → Bool → Chan) (mask value : Word) (s : State) (hs : Same msk s0 s) (mio : msk.io = true := by assumption) : Same msk s0 (writeCh f mask value s) := by
  unfold writeCh
  try dsimp only
  with_reducible repeat' first | assumption | apply forNat_stays | apply modChan_stays | (apply same_mk; (iterate 13 (first | exact Or.inr rfl | exact Or.inl ‹_›)); (first | assumption | apply forNat_stays | apply modChan_stays | split)) | split | intro _

theorem buildImage_stays (t : Nat) (s : State) (hs : Same msk s0 s) (mio : msk.io = true := by assumption) : Same msk s0 (buildImage t s) := by
  unfold buildImage
  try dsimp only
  with_reducible repeat' first | assumption | apply setUnit_stays | apply writeCh_stays | apply foldl_stays | (apply same_mk; (iterate 13 (first | exact Or.inr rfl | exact Or.inl ‹_›)); (first | assumption | apply setUnit_stays | apply writeCh_stays | apply foldl_stays | split)) | split | intro _

theorem outputImage_stays (crcOk : Bool) (s : State) (hs : Same msk s0 s) (mio : msk.io = true := by assumption) : Same msk s0 (outputImage crcOk s) := by
  unfold outputImage
  try dsimp only
  with_reducible repeat' first | assumption | apply count_stays | apply forNat_stays | (apply same_mk; (iterate 13 (first | exact Or.inr rfl | exact Or.inl ‹_›)); (first | assumption | apply count_stays | apply forNat_stays | split)) | split | intro _

theorem ioCadence_stays (s : State) (hs : Same msk s0 s) (mio : msk.io = true := by assumption) : Same msk s0 (ioCadence s) := by
  unfold ioCadence
  try dsimp only
  with_reducible repeat' first | assumption | apply forNat_stays | apply pinsAll_stays | apply supplyRelease_stays | apply writeCh_stays | (apply same_mk; (iterate 13 (first | exact Or.inr rfl | exact Or.inl ‹_›)); (first | assumption | apply forNat_stays | apply pinsAll_stays | apply supplyRelease_stays | apply writeCh_stays | split)) | split | intro _

theorem stpSafe_stays (n : Nat) (s : State) (hs : Same msk s0 s) (mstp : msk.stp = true := by assumption) : Same msk s0 (stpSafe n s) := by
  unfold stpSafe
  try dsimp only
  with_reducible repeat' first | assumption | apply journal_stays | apply raise_stays | apply stpPut_stays | apply setStp_stays | (apply same_mk; (iterate 13 (first | exact Or.inr rfl | exact Or.inl ‹_›)); (first | assumption | apply journal_stays | apply raise_stays | apply stpPut_stays | apply setStp_stays | split)) | split | intro _

theorem enterSafe_stays (why : Nat) (s : State) (hs : Same msk s0 s) (mio : msk.io = true := by assumption) (mstp : msk.stp = true := by assumption) : Same msk s0 (enterSafe why s) := by
  unfold enterSafe
  try dsimp only
  with_reducible repeat' first | assumption | apply cancelDieF_stays | apply forNat_stays | apply pinsAll_stays | apply stpSafe_stays | (apply same_mk; (iterate 13 (first | exact Or.inr rfl | exact Or.inl ‹_›)); (first | assumption | apply cancelDieF_stays | apply forNat_stays | apply pinsAll_stays | apply stpSafe_stays | split)) | split | intro _

theorem logicSilence_stays (s : State) (hs : Same msk s0 s) (mio : msk.io = true := by assumption) (mstp : msk.stp = true := by assumption) : Same msk s0 (logicSilence s) := by
  unfold logicSilence
  try dsimp only
  with_reducible repeat' first | assumption | apply advanceTo_stays | apply enterSafe_stays | apply journalF_stays | (apply same_mk; (iterate 13 (first | exact Or.inr rfl | exact Or.inl ‹_›)); (first | assumption | apply advanceTo_stays | apply enterSafe_stays | apply journalF_stays | split)) | split | intro _

theorem badInput_stays (x : Nat) (s : State) (hs : Same msk s0 s) (maxes : msk.axes = true := by assumption) (mgrps : msk.grps = true := by assumption) : Same msk s0 (badInput x s) := by
  unfold badInput
  try dsimp only
  with_reducible repeat' first | assumption | apply forNat_stays | apply reqStopAxis_stays | apply reqStopGrp_stays | (apply same_mk; (iterate 13 (first | exact Or.inr rfl | exact Or.inl ‹_›)); (first | assumption | apply forNat_stays | apply reqStopAxis_stays | apply reqStopGrp_stays | split)) | split | intro _

theorem inputImage_stays (s : State) (hs : Same msk s0 s) (maxes : msk.axes = true := by assumption) (mgrps : msk.grps = true := by assumption) (mio : msk.io = true := by assumption) : Same msk s0 (inputImage s) := by
  unfold inputImage
  try dsimp only
  with_reducible repeat' first | assumption | apply badInput_stays | apply forNat_stays | apply raise_stays | apply reqStopGrp_stays | apply setFg_stays | apply foldl_stays | (apply same_mk; (iterate 13 (first | exact Or.inr rfl | exact Or.inl ‹_›)); (first | assumption | apply badInput_stays | apply forNat_stays | apply raise_stays | apply reqStopGrp_stays | apply setFg_stays | apply foldl_stays | split)) | split | intro _

theorem stoGroup_stays (g : Nat) (s : State) (hs : Same msk s0 s) (mio : msk.io = true := by assumption) : Same msk s0 (stoGroup g s) := by
  unfold stoGroup
  try dsimp only
  with_reducible repeat' first | assumption | apply forNat_stays | apply modChan_stays | apply pinsOff_stays | (apply same_mk; (iterate 13 (first | exact Or.inr rfl | exact Or.inl ‹_›)); (first | assumption | apply forNat_stays | apply modChan_stays | apply pinsOff_stays | split)) | split | intro _

theorem ioReenableEff_stays (e : Eff) (s : State) (hs : Same msk s0 s) (mio : msk.io = true := by assumption) : Same msk s0 (ioReenableEff e s) := by
  unfold ioReenableEff
  try dsimp only
  with_reducible repeat' first | assumption | apply forNat_stays | apply modChan_stays | apply setFg_stays | (apply same_mk; (iterate 13 (first | exact Or.inr rfl | exact Or.inl ‹_›)); (first | assumption | apply forNat_stays | apply modChan_stays | apply setFg_stays | split)) | split | intro _

theorem ioReleaseEff_stays (s : State) (hs : Same msk s0 s) (mio : msk.io = true := by assumption) : Same msk s0 (ioReleaseEff s) := by
  unfold ioReleaseEff
  try dsimp only
  with_reducible repeat' first | assumption | (apply same_mk; (iterate 13 (first | exact Or.inr rfl | exact Or.inl ‹_›)); (first | assumption | split)) | split | intro _

theorem ioStoResetEff_stays (e : Eff) (s : State) (hs : Same msk s0 s) (mio : msk.io = true := by assumption) : Same msk s0 (ioStoResetEff e s) := by
  unfold ioStoResetEff
  try dsimp only
  with_reducible repeat' first | assumption | apply forNat_stays | apply modChan_stays | (apply same_mk; (iterate 13 (first | exact Or.inr rfl | exact Or.inl ‹_›)); (first | assumption | apply forNat_stays | apply modChan_stays | split)) | split | intro _

theorem slewCadence_stays (s : State) (hs : Same msk s0 s) (mpel : msk.pel = true := by assumption) : Same msk s0 (slewCadence s) := by
  unfold slewCadence
  try dsimp only
  with_reducible repeat' first | assumption | apply count_stays | (apply same_mk; (iterate 13 (first | exact Or.inr rfl | exact Or.inl ‹_›)); (first | assumption | apply count_stays | split)) | split | intro _

theorem addSlewWith_stays (d : Int) (ppm ramp : Nat) (s : State) (hs : Same msk s0 s)  : Same msk s0 (addSlewWith d ppm ramp s) := by
  unfold addSlewWith
  try dsimp only
  with_reducible repeat' first | assumption | (apply same_mk; (iterate 13 (first | exact Or.inr rfl | exact Or.inl ‹_›)); (first | assumption | split)) | split | intro _

theorem addSlew_stays (d : Int) (s : State) (hs : Same msk s0 s)  : Same msk s0 (addSlew d s) := by
  unfold addSlew
  try dsimp only
  with_reducible repeat' first | assumption | apply addSlewWith_stays | (apply same_mk; (iterate 13 (first | exact Or.inr rfl | exact Or.inl ‹_›)); (first | assumption | apply addSlewWith_stays | split)) | split | intro _

theorem plantStep_stays (d : Int) (epoch : BitVec 16) (s : State) (hs : Same msk s0 s)  : Same msk s0 (plantStep d epoch s) := by
  unfold plantStep
  try dsimp only
  with_reducible repeat' first | assumption | apply journal_stays | apply raise_stays | (apply same_mk; (iterate 13 (first | exact Or.inr rfl | exact Or.inl ‹_›)); (first | assumption | apply journal_stays | apply raise_stays | split)) | split | intro _

theorem announce_stays (step : Bool) (d : Int) (at' : Nat) (s : State) (hs : Same msk s0 s) (mpel : msk.pel = true := by assumption) : Same msk s0 (announce step d at' s) := by
  unfold announce
  try dsimp only
  with_reducible repeat' first | assumption | (apply same_mk; (iterate 13 (first | exact Or.inr rfl | exact Or.inl ‹_›)); (first | assumption | split)) | split | intro _

theorem fireUnit_stays (u : Nat) (act : Armed → State → State) (s : State) (kact : ∀ a0 t, Same msk s0 t → Same msk s0 (act a0 t)) (hs : Same msk s0 s)  : Same msk s0 (fireUnit u act s) := by
  unfold fireUnit
  try dsimp only
  with_reducible repeat' first | assumption | apply kact | apply advanceTo_stays | apply count_stays | apply journal_stays | apply raise_stays | apply setUnit_stays | (apply same_mk; (iterate 13 (first | exact Or.inr rfl | exact Or.inl ‹_›)); (first | assumption | apply kact | apply advanceTo_stays | apply count_stays | apply journal_stays | apply raise_stays | apply setUnit_stays | split)) | split | intro _

theorem actionReport_stays (u : Nat) (s : State) (hs : Same msk s0 s) (mio : msk.io = true := by assumption) : Same msk s0 (actionReport u s) := by
  unfold actionReport
  try dsimp only
  with_reducible repeat' first | assumption | apply setUnit_stays | (apply same_mk; (iterate 13 (first | exact Or.inr rfl | exact Or.inl ‹_›)); (first | assumption | apply setUnit_stays | split)) | split | intro _

theorem sendActions_stays (s : State) (hs : Same msk s0 s)  : Same msk s0 (sendActions s) := by
  unfold sendActions
  try dsimp only
  with_reducible repeat' first | assumption | (apply same_mk; (iterate 13 (first | exact Or.inr rfl | exact Or.inl ‹_›)); (first | assumption | split)) | split | intro _

theorem setPtp_stays (p : Nat) (v : PtpPort) (s : State) (hs : Same msk s0 s) (mptp : msk.ptp = true := by assumption) : Same msk s0 (setPtp p v s) := by
  unfold setPtp
  try dsimp only
  with_reducible repeat' first | assumption | (apply same_mk; (iterate 13 (first | exact Or.inr rfl | exact Or.inl ‹_›)); (first | assumption | split)) | split | intro _

theorem ptpEmit_stays (p type seq : Nat) (two : Bool) (corr log : Int) (body : List Byte) (s : State) (hs : Same msk s0 s) :
    Same msk s0 (ptpEmit p type seq two corr log body s) := by
  unfold ptpEmit
  exact count_stays _ _ _ (emit_stays _ _ _ _ (freeNext_stays _ hs))

theorem ptpMessage_stays (p : Nat) (m : PtpMsg) (s : State) (hs : Same msk s0 s) (mptp : msk.ptp = true := by assumption) : Same msk s0 (ptpMessage p m s) := by
  unfold ptpMessage
  try dsimp only
  with_reducible repeat' first | assumption | apply announce_stays | apply count_stays | apply delayReq_stays | apply ptpEmit_stays | apply freeNext_stays | apply setPtp_stays | (apply same_mk; (iterate 13 (first | exact Or.inr rfl | exact Or.inl ‹_›)); (first | assumption | apply announce_stays | apply count_stays | apply delayReq_stays | apply ptpEmit_stays | apply freeNext_stays | apply setPtp_stays | split)) | split | intro _

theorem ptpSend_stays (p type : Nat) (two stamped : Bool) (log : Int) (body : List Byte) (x : PtpPort) (s : State) (hs : Same msk s0 s) (mptp : msk.ptp = true := by assumption) : Same msk s0 (ptpSend p type two stamped log body x s) := by
  unfold ptpSend
  try dsimp only
  with_reducible repeat' first | assumption | apply count_stays | apply ptpEmit_stays | apply freeNext_stays | apply setPtp_stays | (apply same_mk; (iterate 13 (first | exact Or.inr rfl | exact Or.inl ‹_›)); (first | assumption | apply count_stays | apply ptpEmit_stays | apply freeNext_stays | apply setPtp_stays | split)) | split | intro _

theorem ptpInterval_stays (p : Nat) (tick : PtpTick) (stamped : Bool) (s : State) (hs : Same msk s0 s) (mptp : msk.ptp = true := by assumption) : Same msk s0 (ptpInterval p tick stamped s) := by
  unfold ptpInterval
  try dsimp only
  with_reducible repeat' first | assumption | apply announce_stays | apply count_stays | apply ptpEmit_stays | apply freeNext_stays | apply setPtp_stays | apply ptpSend_stays | (apply same_mk; (iterate 13 (first | exact Or.inr rfl | exact Or.inl ‹_›)); (first | assumption | apply announce_stays | apply count_stays | apply ptpEmit_stays | apply freeNext_stays | apply setPtp_stays | apply ptpSend_stays | split)) | split | intro _

theorem announceTimeout_stays (p : Nat) (s : State) (hs : Same msk s0 s) (mptp : msk.ptp = true := by assumption) (mpel : msk.pel = true := by assumption) : Same msk s0 (announceTimeout p s) := by
  unfold announceTimeout
  try dsimp only
  with_reducible repeat' first | assumption | apply journal_stays | apply raise_stays | apply setPtp_stays | (apply same_mk; (iterate 13 (first | exact Or.inr rfl | exact Or.inl ‹_›)); (first | assumption | apply journal_stays | apply raise_stays | apply setPtp_stays | split)) | split | intro _

theorem gmServo_stays (mean : BitVec 64) (s : State) (hs : Same msk s0 s) (mpel : msk.pel = true := by assumption) : Same msk s0 (gmServo mean s) := by
  unfold gmServo
  try dsimp only
  with_reducible repeat' first | assumption | apply announce_stays | (apply same_mk; (iterate 13 (first | exact Or.inr rfl | exact Or.inl ‹_›)); (first | assumption | apply announce_stays | split)) | split | intro _

theorem gmCadence_stays (s : State) (hs : Same msk s0 s)  : Same msk s0 (gmCadence s) := by
  unfold gmCadence
  try dsimp only
  with_reducible repeat' first | assumption | (apply same_mk; (iterate 13 (first | exact Or.inr rfl | exact Or.inl ‹_›)); (first | assumption | split)) | split | intro _

theorem setPlantEff_stays (e : Eff) (s : State) (hs : Same msk s0 s)  : Same msk s0 (setPlantEff e s) := by
  unfold setPlantEff
  try dsimp only
  with_reducible repeat' first | assumption | apply addSlew_stays | apply plantStep_stays | (apply same_mk; (iterate 13 (first | exact Or.inr rfl | exact Or.inl ‹_›)); (first | assumption | apply addSlew_stays | apply plantStep_stays | split)) | split | intro _

theorem modPel_stays (f : PelSt → PelSt) (s : State) (hs : Same msk s0 s) (mpel : msk.pel = true := by assumption) : Same msk s0 (modPel f s) := by
  unfold modPel
  try dsimp only
  with_reducible repeat' first | assumption | (apply same_mk; (iterate 13 (first | exact Or.inr rfl | exact Or.inl ‹_›)); (first | assumption | split)) | split | intro _

theorem pelSend_stays (up : Bool) (msg tx members count t2 : Nat) (s : State) (hs : Same msk s0 s)  : Same msk s0 (pelSend up msg tx members count t2 s) := by
  unfold pelSend
  try dsimp only
  with_reducible repeat' first | assumption | apply count_stays | apply emit_stays | (apply same_mk; (iterate 13 (first | exact Or.inr rfl | exact Or.inl ‹_›)); (first | assumption | apply count_stays | apply emit_stays | split)) | split | intro _

theorem pelSyncFrames_stays (s : State) (hs : Same msk s0 s)  : Same msk s0 (pelSyncFrames s) := by
  unfold pelSyncFrames
  try dsimp only
  with_reducible repeat' first | assumption | apply pelSend_stays | (apply same_mk; (iterate 13 (first | exact Or.inr rfl | exact Or.inl ‹_›)); (first | assumption | apply pelSend_stays | split)) | split | intro _

theorem delayReq_stays (up : Bool) (s : State) (hs : Same msk s0 s)  : Same msk s0 (delayReq up s) := by
  unfold delayReq
  try dsimp only
  with_reducible repeat' first | assumption | apply pelSend_stays | (apply same_mk; (iterate 13 (first | exact Or.inr rfl | exact Or.inl ‹_›)); (first | assumption | apply pelSend_stays | split)) | split | intro _

theorem driftFires_stays (bit code : Nat) (s : State) (hs : Same msk s0 s) (mpel : msk.pel = true := by assumption) : Same msk s0 (driftFires bit code s) := by
  unfold driftFires
  try dsimp only
  with_reducible repeat' first | assumption | apply journal_stays | apply modPel_stays | (apply same_mk; (iterate 13 (first | exact Or.inr rfl | exact Or.inl ‹_›)); (first | assumption | apply journal_stays | apply modPel_stays | split)) | split | intro _

theorem startDone_stays (reason : Nat) (s : State) (hs : Same msk s0 s) (mpel : msk.pel = true := by assumption) : Same msk s0 (startDone reason s) := by
  unfold startDone
  try dsimp only
  with_reducible repeat' first | assumption | apply complete_stays | apply modPel_stays | (apply same_mk; (iterate 13 (first | exact Or.inr rfl | exact Or.inl ‹_›)); (first | assumption | apply complete_stays | apply modPel_stays | split)) | split | intro _

theorem headCheck_stays (s : State) (hs : Same msk s0 s) (mpel : msk.pel = true := by assumption) : Same msk s0 (headCheck s) := by
  unfold headCheck
  try dsimp only
  with_reducible repeat' first | assumption | apply startDone_stays | (apply same_mk; (iterate 13 (first | exact Or.inr rfl | exact Or.inl ‹_›)); (first | assumption | apply startDone_stays | split)) | split | intro _

theorem enumBack_stays (count members : Nat) (s : State) (hs : Same msk s0 s) (mpel : msk.pel = true := by assumption) : Same msk s0 (enumBack count members s) := by
  unfold enumBack
  try dsimp only
  with_reducible repeat' first | assumption | apply count_stays | apply headCheck_stays | apply modPel_stays | apply pelSend_stays | apply startDone_stays | (apply same_mk; (iterate 13 (first | exact Or.inr rfl | exact Or.inl ‹_›)); (first | assumption | apply count_stays | apply headCheck_stays | apply modPel_stays | apply pelSend_stays | apply startDone_stays | split)) | split | intro _

theorem pelRoundStart_stays (s : State) (hs : Same msk s0 s) (mpel : msk.pel = true := by assumption) : Same msk s0 (pelRoundStart s) := by
  unfold pelRoundStart
  try dsimp only
  with_reducible repeat' first | assumption | apply enumBack_stays | apply pelSend_stays | (apply same_mk; (iterate 13 (first | exact Or.inr rfl | exact Or.inl ‹_›)); (first | assumption | apply enumBack_stays | apply pelSend_stays | split)) | split | intro _

theorem pelEnum_stays (port : LinePort) (f : List Byte) (s : State) (hs : Same msk s0 s) (mpel : msk.pel = true := by assumption) : Same msk s0 (pelEnum port f s) := by
  unfold pelEnum
  try dsimp only
  with_reducible repeat' first | assumption | apply count_stays | apply enumBack_stays | apply modPel_stays | apply pelSend_stays | apply startDone_stays | (apply same_mk; (iterate 13 (first | exact Or.inr rfl | exact Or.inl ‹_›)); (first | assumption | apply count_stays | apply enumBack_stays | apply modPel_stays | apply pelSend_stays | apply startDone_stays | split)) | split | intro _

theorem pelConfig_stays (f : List Byte) (s : State) (hs : Same msk s0 s) (mpel : msk.pel = true := by assumption) : Same msk s0 (pelConfig f s) := by
  unfold pelConfig
  try dsimp only
  with_reducible repeat' first | assumption | apply modPel_stays | apply pelSend_stays | apply startDone_stays | (apply same_mk; (iterate 13 (first | exact Or.inr rfl | exact Or.inl ‹_›)); (first | assumption | apply modPel_stays | apply pelSend_stays | apply startDone_stays | split)) | split | intro _

theorem pelStartTimeout_stays (s : State) (hs : Same msk s0 s) (mpel : msk.pel = true := by assumption) : Same msk s0 (pelStartTimeout s) := by
  unfold pelStartTimeout
  try dsimp only
  with_reducible repeat' first | assumption | apply advanceTo_stays | apply startDone_stays | (apply same_mk; (iterate 13 (first | exact Or.inr rfl | exact Or.inl ‹_›)); (first | assumption | apply advanceTo_stays | apply startDone_stays | split)) | split | intro _

theorem pelDelayReq_stays (port : LinePort) (rx : Nat) (f : List Byte) (s : State) (hs : Same msk s0 s) (mpel : msk.pel = true := by assumption) : Same msk s0 (pelDelayReq port rx f s) := by
  unfold pelDelayReq
  try dsimp only
  with_reducible repeat' first | assumption | apply modPel_stays | apply pelSend_stays | (apply same_mk; (iterate 13 (first | exact Or.inr rfl | exact Or.inl ‹_›)); (first | assumption | apply modPel_stays | apply pelSend_stays | split)) | split | intro _

theorem pelDelayResp_stays (port : LinePort) (t1 t4 : Nat) (f : List Byte) (s : State) (hs : Same msk s0 s) (mpel : msk.pel = true := by assumption) : Same msk s0 (pelDelayResp port t1 t4 f s) := by
  unfold pelDelayResp
  try dsimp only
  with_reducible repeat' first | assumption | apply delayReq_stays | apply driftFires_stays | apply modPel_stays | (apply same_mk; (iterate 13 (first | exact Or.inr rfl | exact Or.inl ‹_›)); (first | assumption | apply delayReq_stays | apply driftFires_stays | apply modPel_stays | split)) | split | intro _

theorem adopt_stays (down : Bool) (x : SyncInfo) (s : State) (hs : Same msk s0 s) (mpel : msk.pel = true := by assumption) : Same msk s0 (adopt down x s) := by
  unfold adopt
  try dsimp only
  with_reducible repeat' first | assumption | apply journal_stays | apply modPel_stays | apply raise_stays | (apply same_mk; (iterate 13 (first | exact Or.inr rfl | exact Or.inl ‹_›)); (first | assumption | apply journal_stays | apply modPel_stays | apply raise_stays | split)) | split | intro _

theorem takeTime_stays (tx rx : Nat) (down : Bool) (s : State) (hs : Same msk s0 s) (mcad : msk.cad = true := by assumption) (mpel : msk.pel = true := by assumption) : Same msk s0 (takeTime tx rx down s) := by
  unfold takeTime
  try dsimp only
  with_reducible repeat' first | assumption | (apply same_mk; (iterate 13 (first | exact Or.inr rfl | exact Or.inl ‹_›)); (first | assumption | split)) | split | intro _

theorem pelotonSync_stays (port : LinePort) (rx : Nat) (f : List Byte) (s : State) (hs : Same msk s0 s) (mcad : msk.cad = true := by assumption) (mpel : msk.pel = true := by assumption) : Same msk s0 (pelotonSync port rx f s) := by
  unfold pelotonSync
  extract_lets h b down x s1 d s2 th
  split
  · exact hs
  split
  · exact modPel_stays _ _ hs
  have h1 : Same msk s0 s1 := headCheck_stays _ (modPel_stays _ _ hs)
  clear_value s1
  split
  · split
    · exact takeTime_stays _ _ _ _ (modPel_stays _ _ h1)
    · exact h1
  split
  · split
    · exact h1
    split
    · exact modPel_stays _ _ h1
    · exact adopt_stays _ _ _ h1
  split
  · exact h1
  have h2 : Same msk s0 s2 := by
    simp only [s2]; split
    · exact adopt_stays _ _ _ h1
    · exact h1
  clear_value s2
  split
  · exact h2
  · exact modPel_stays _ _ h2

theorem pelServo_stays (s : State) (hs : Same msk s0 s) (mpel : msk.pel = true := by assumption) : Same msk s0 (pelServo s) := by
  unfold pelServo
  try dsimp only
  with_reducible repeat' first | assumption | (apply same_mk; (iterate 13 (first | exact Or.inr rfl | exact Or.inl ‹_›)); (first | assumption | split)) | split | intro _

theorem pelCadence_stays (s : State) (hs : Same msk s0 s) (mpel : msk.pel = true := by assumption) : Same msk s0 (pelCadence s) := by
  unfold pelCadence
  extract_lets s1 s2 s3 s4 a s5
  have h1 : Same msk s0 s1 := by
    simp only [s1]; split
    · exact adopt_stays _ _ _ hs
    · exact hs
  clear_value s1
  have h2 : Same msk s0 s2 := by
    simp only [s2]; split
    · exact plantStep_stays _ _ _ (modPel_stays _ _ h1)
    · exact h1
  clear_value s2
  have h4 : Same msk s0 s4 := pelServo_stays _ (modPel_stays _ _ h2)
  clear_value s4
  have h5 : Same msk s0 s5 := by
    simp only [s5]; split
    · exact driftFires_stays _ _ _ h4
    · exact h4
  split
  · exact pelSyncFrames_stays _ h5
  · exact h5

theorem pelDrift_stays (s : State) (hs : Same msk s0 s) (mpel : msk.pel = true := by assumption) : Same msk s0 (pelDrift s) := by
  unfold pelDrift
  try dsimp only
  with_reducible repeat' first | assumption | apply driftFires_stays | apply freeNext_stays | apply modPel_stays | (apply same_mk; (iterate 13 (first | exact Or.inr rfl | exact Or.inl ‹_›)); (first | assumption | apply driftFires_stays | apply freeNext_stays | apply modPel_stays | split)) | split | intro _

theorem pelRound_stays (s : State) (hs : Same msk s0 s) (mpel : msk.pel = true := by assumption) : Same msk s0 (pelRound s) := by
  unfold pelRound
  try dsimp only
  with_reducible repeat' first | assumption | apply delayReq_stays | apply pelDrift_stays | apply pelRoundStart_stays | (apply same_mk; (iterate 13 (first | exact Or.inr rfl | exact Or.inl ‹_›)); (first | assumption | apply delayReq_stays | apply pelDrift_stays | apply pelRoundStart_stays | split)) | split | intro _

theorem pelSyncSet_stays (s : State) (hs : Same msk s0 s) (mpel : msk.pel = true := by assumption) : Same msk s0 (pelSyncSet s) := by
  unfold pelSyncSet
  try dsimp only
  with_reducible repeat' first | assumption | apply modPel_stays | apply startDone_stays | (apply same_mk; (iterate 13 (first | exact Or.inr rfl | exact Or.inl ‹_›)); (first | assumption | apply modPel_stays | apply startDone_stays | split)) | split | intro _

theorem pelSyncLost_stays (s : State) (hs : Same msk s0 s) (mpel : msk.pel = true := by assumption) : Same msk s0 (pelSyncLost s) := by
  unfold pelSyncLost
  try dsimp only
  with_reducible repeat' first | assumption | apply journal_stays | apply modPel_stays | apply raise_stays | (apply same_mk; (iterate 13 (first | exact Or.inr rfl | exact Or.inl ‹_›)); (first | assumption | apply journal_stays | apply modPel_stays | apply raise_stays | split)) | split | intro _

theorem enterHoldover_stays (s : State) (hs : Same msk s0 s)  : Same msk s0 (enterHoldover s) := by
  unfold enterHoldover
  try dsimp only
  with_reducible repeat' first | assumption | apply journal_stays | apply raise_stays | (apply same_mk; (iterate 13 (first | exact Or.inr rfl | exact Or.inl ‹_›)); (first | assumption | apply journal_stays | apply raise_stays | split)) | split | intro _

theorem becomeRef_stays (s : State) (hs : Same msk s0 s) (mpel : msk.pel = true := by assumption) : Same msk s0 (becomeRef s) := by
  unfold becomeRef
  try dsimp only
  with_reducible repeat' first | assumption | apply journal_stays | apply modPel_stays | apply raise_stays | (apply same_mk; (iterate 13 (first | exact Or.inr rfl | exact Or.inl ‹_›)); (first | assumption | apply journal_stays | apply modPel_stays | apply raise_stays | split)) | split | intro _

theorem pelTakeover_stays (s : State) (hs : Same msk s0 s) (mpel : msk.pel = true := by assumption) : Same msk s0 (pelTakeover s) := by
  unfold pelTakeover
  try dsimp only
  with_reducible repeat' first | assumption | apply becomeRef_stays | apply enterHoldover_stays | apply modPel_stays | apply pelSyncFrames_stays | (apply same_mk; (iterate 13 (first | exact Or.inr rfl | exact Or.inl ‹_›)); (first | assumption | apply becomeRef_stays | apply enterHoldover_stays | apply modPel_stays | apply pelSyncFrames_stays | split)) | split | intro _

theorem nextAnnounce_stays (s : State) (hs : Same msk s0 s) (mpel : msk.pel = true := by assumption) : Same msk s0 (nextAnnounce s) := by
  unfold nextAnnounce
  try dsimp only
  with_reducible repeat' first | assumption | apply announce_stays | apply modPel_stays | (apply same_mk; (iterate 13 (first | exact Or.inr rfl | exact Or.inl ‹_›)); (first | assumption | apply announce_stays | apply modPel_stays | split)) | split | intro _

theorem announcementApply_stays (s : State) (hs : Same msk s0 s) (mpel : msk.pel = true := by assumption) : Same msk s0 (announcementApply s) := by
  unfold announcementApply
  try dsimp only
  with_reducible repeat' first | assumption | apply addSlewWith_stays | apply adopt_stays | apply advanceTo_stays | apply becomeRef_stays | apply modPel_stays | apply nextAnnounce_stays | apply plantStep_stays | (apply same_mk; (iterate 13 (first | exact Or.inr rfl | exact Or.inl ‹_›)); (first | assumption | apply addSlewWith_stays | apply adopt_stays | apply advanceTo_stays | apply becomeRef_stays | apply modPel_stays | apply nextAnnounce_stays | apply plantStep_stays | split)) | split | intro _

theorem pelStopEff_stays (s : State) (hs : Same msk s0 s) (mpel : msk.pel = true := by assumption) : Same msk s0 (pelStopEff s) := by
  unfold pelStopEff
  try dsimp only
  with_reducible repeat' first | assumption | apply complete_stays | apply modPel_stays | (apply same_mk; (iterate 13 (first | exact Or.inr rfl | exact Or.inl ‹_›)); (first | assumption | apply complete_stays | apply modPel_stays | split)) | split | intro _

theorem vzEvent_stays (k bit : Nat) (s : State) (hs : Same msk s0 s) (mbus : msk.bus = true := by assumption) : Same msk s0 (vzEvent k bit s) := by
  unfold vzEvent
  try dsimp only
  with_reducible repeat' first | assumption | apply raise_stays | apply setSeg_stays | (apply same_mk; (iterate 13 (first | exact Or.inr rfl | exact Or.inl ‹_›)); (first | assumption | apply raise_stays | apply setSeg_stays | split)) | split | intro _

theorem segTo_stays (k st : Nat) (s : State) (hs : Same msk s0 s) (mbus : msk.bus = true := by assumption) : Same msk s0 (segTo k st s) := by
  unfold segTo
  try dsimp only
  with_reducible repeat' first | assumption | apply setSeg_stays | apply vzEvent_stays | (apply same_mk; (iterate 13 (first | exact Or.inr rfl | exact Or.inl ‹_›)); (first | assumption | apply setSeg_stays | apply vzEvent_stays | split)) | split | intro _

theorem masterSend_stays (k port type entries time : Nat) (body : List Byte) (s : State) (hs : Same msk s0 s)  : Same msk s0 (masterSend k port type entries time body s) := by
  unfold masterSend
  try dsimp only
  with_reducible repeat' first | assumption | apply count_stays | apply emit_stays | (apply same_mk; (iterate 13 (first | exact Or.inr rfl | exact Or.inl ‹_›)); (first | assumption | apply count_stays | apply emit_stays | split)) | split | intro _

theorem masterDown_stays (k type entries time : Nat) (body : List Byte) (s : State) (hs : Same msk s0 s)  : Same msk s0 (masterDown k type entries time body s) := by
  unfold masterDown
  try dsimp only
  with_reducible repeat' first | assumption | apply masterSend_stays | (apply same_mk; (iterate 13 (first | exact Or.inr rfl | exact Or.inl ‹_›)); (first | assumption | apply masterSend_stays | split)) | split | intro _

theorem cadenceFrame_stays (k : Nat) (s : State) (hs : Same msk s0 s) (maxes : msk.axes = true := by assumption) : Same msk s0 (cadenceFrame k s) := by
  unfold cadenceFrame
  try dsimp only
  with_reducible repeat' first | assumption | apply forNat_stays | apply masterDown_stays | apply modAxis_stays | (apply same_mk; (iterate 13 (first | exact Or.inr rfl | exact Or.inl ‹_›)); (first | assumption | apply forNat_stays | apply masterDown_stays | apply modAxis_stays | split)) | split | intro _

theorem sendAcyclic_stays (k : Nat) (s : State) (hs : Same msk s0 s) (mbus : msk.bus = true := by assumption) : Same msk s0 (sendAcyclic k s) := by
  unfold sendAcyclic
  try dsimp only
  with_reducible repeat' first | assumption | apply masterDown_stays | apply setSeg_stays | apply foldl_stays | (apply same_mk; (iterate 13 (first | exact Or.inr rfl | exact Or.inl ‹_›)); (first | assumption | apply masterDown_stays | apply setSeg_stays | apply foldl_stays | split)) | split | intro _

theorem startEnd_stays (k reason col rule : Nat) (st : Status) (s : State) (hs : Same msk s0 s) (mbus : msk.bus = true := by assumption) : Same msk s0 (startEnd k reason col rule st s) := by
  unfold startEnd
  try dsimp only
  with_reducible repeat' first | assumption | apply complete_stays | apply setSeg_stays | (apply same_mk; (iterate 13 (first | exact Or.inr rfl | exact Or.inl ‹_›)); (first | assumption | apply complete_stays | apply setSeg_stays | split)) | split | intro _

theorem startFail_stays (k reason col rule : Nat) (s : State) (hs : Same msk s0 s) (mbus : msk.bus = true := by assumption) : Same msk s0 (startFail k reason col rule s) := by
  unfold startFail
  try dsimp only
  with_reducible repeat' first | assumption | apply startEnd_stays | (apply same_mk; (iterate 13 (first | exact Or.inr rfl | exact Or.inl ‹_›)); (first | assumption | apply startEnd_stays | split)) | split | intro _

theorem setStart_stays (k : Nat) (o : StartOp) (s : State) (hs : Same msk s0 s) (mbus : msk.bus = true := by assumption) : Same msk s0 (setStart k o s) := by
  unfold setStart
  try dsimp only
  with_reducible repeat' first | assumption | apply setSeg_stays | (apply same_mk; (iterate 13 (first | exact Or.inr rfl | exact Or.inl ‹_›)); (first | assumption | apply setSeg_stays | split)) | split | intro _

theorem startCadence_stays (k : Nat) (s : State) (hs : Same msk s0 s) (mbus : msk.bus = true := by assumption) : Same msk s0 (startCadence k s) := by
  unfold startCadence
  try dsimp only
  with_reducible repeat' first | assumption | apply masterDown_stays | apply setStart_stays | apply startEnd_stays | apply startFail_stays | (apply same_mk; (iterate 13 (first | exact Or.inr rfl | exact Or.inl ‹_›)); (first | assumption | apply masterDown_stays | apply setStart_stays | apply startEnd_stays | apply startFail_stays | split)) | split | intro _

theorem startAgain_stays (k : Nat) (s : State) (hs : Same msk s0 s) (mbus : msk.bus = true := by assumption) : Same msk s0 (startAgain k s) := by
  unfold startAgain
  try dsimp only
  with_reducible repeat' first | assumption | apply segTo_stays | apply setStart_stays | (apply same_mk; (iterate 13 (first | exact Or.inr rfl | exact Or.inl ‹_›)); (first | assumption | apply segTo_stays | apply setStart_stays | split)) | split | intro _

theorem enumReturn_stays (k : Nat) (l : List StationId) (s : State) (hs : Same msk s0 s) (mbus : msk.bus = true := by assumption) : Same msk s0 (enumReturn k l s) := by
  unfold enumReturn
  try dsimp only
  with_reducible repeat' first | assumption | apply count_stays | apply setSeg_stays | apply setStart_stays | apply startFail_stays | apply foldl_stays | (apply same_mk; (iterate 13 (first | exact Or.inr rfl | exact Or.inl ‹_›)); (first | assumption | apply count_stays | apply setSeg_stays | apply setStart_stays | apply startFail_stays | apply foldl_stays | split)) | split | intro _

theorem delayReturn_stays (k : Nat) (d : List (BitVec 32 × BitVec 32)) (s : State) (hs : Same msk s0 s) (mbus : msk.bus = true := by assumption) : Same msk s0 (delayReturn k d s) := by
  unfold delayReturn
  try dsimp only
  with_reducible repeat' first | assumption | apply setSeg_stays | (apply same_mk; (iterate 13 (first | exact Or.inr rfl | exact Or.inl ‹_›)); (first | assumption | apply setSeg_stays | split)) | split | intro _

theorem masterCollision_stays (k : Nat) (other : BitVec 64) (s : State) (hs : Same msk s0 s) (mbus : msk.bus = true := by assumption) : Same msk s0 (masterCollision k other s) := by
  unfold masterCollision
  try dsimp only
  with_reducible repeat' first | assumption | apply journal_stays | apply segTo_stays | apply setSeg_stays | apply startFail_stays | apply vzEvent_stays | (apply same_mk; (iterate 13 (first | exact Or.inr rfl | exact Or.inl ‹_›)); (first | assumption | apply journal_stays | apply segTo_stays | apply setSeg_stays | apply startFail_stays | apply vzEvent_stays | split)) | split | intro _

theorem collisionWaitEnd_stays (k : Nat) (s : State) (hs : Same msk s0 s) (mbus : msk.bus = true := by assumption) : Same msk s0 (collisionWaitEnd k s) := by
  unfold collisionWaitEnd
  try dsimp only
  with_reducible repeat' first | assumption | apply advanceTo_stays | apply journal_stays | apply segTo_stays | apply startAgain_stays | apply startFail_stays | (apply same_mk; (iterate 13 (first | exact Or.inr rfl | exact Or.inl ‹_›)); (first | assumption | apply advanceTo_stays | apply journal_stays | apply segTo_stays | apply startAgain_stays | apply startFail_stays | split)) | split | intro _

theorem ringBroken_stays (k : Nat) (s : State) (hs : Same msk s0 s) (mbus : msk.bus = true := by assumption) : Same msk s0 (ringBroken k s) := by
  unfold ringBroken
  try dsimp only
  with_reducible repeat' first | assumption | apply setSeg_stays | (apply same_mk; (iterate 13 (first | exact Or.inr rfl | exact Or.inl ‹_›)); (first | assumption | apply setSeg_stays | split)) | split | intro _

theorem ringSplit_stays (k : Nat) (s : State) (hs : Same msk s0 s) (mbus : msk.bus = true := by assumption) : Same msk s0 (ringSplit k s) := by
  unfold ringSplit
  try dsimp only
  with_reducible repeat' first | assumption | apply journal_stays | apply setSeg_stays | apply vzEvent_stays | (apply same_mk; (iterate 13 (first | exact Or.inr rfl | exact Or.inl ‹_›)); (first | assumption | apply journal_stays | apply setSeg_stays | apply vzEvent_stays | split)) | split | intro _

theorem vzLinkDown_stays (p : Nat) (s : State) (hs : Same msk s0 s) (mbus : msk.bus = true := by assumption) (mpel : msk.pel = true := by assumption) : Same msk s0 (vzLinkDown p s) := by
  unfold vzLinkDown
  try dsimp only
  with_reducible repeat' first | assumption | apply journal_stays | apply modPel_stays | apply ringBroken_stays | apply segTo_stays | apply setSeg_stays | apply startDone_stays | apply startFail_stays | (apply same_mk; (iterate 13 (first | exact Or.inr rfl | exact Or.inl ‹_›)); (first | assumption | apply journal_stays | apply modPel_stays | apply ringBroken_stays | apply segTo_stays | apply setSeg_stays | apply startDone_stays | apply startFail_stays | split)) | split | intro _

theorem foreignFrame_stays (port : Nat) (s : State) (hs : Same msk s0 s) (mbus : msk.bus = true := by assumption) : Same msk s0 (foreignFrame port s) := by
  unfold foreignFrame
  try dsimp only
  with_reducible repeat' first | assumption | apply count_stays | apply setSeg_stays | (apply same_mk; (iterate 13 (first | exact Or.inr rfl | exact Or.inl ‹_›)); (first | assumption | apply count_stays | apply setSeg_stays | split)) | split | intro _

theorem violation_stays (k port st : Nat) (s : State) (hs : Same msk s0 s) (mbus : msk.bus = true := by assumption) : Same msk s0 (violation k port st s) := by
  unfold violation
  try dsimp only
  with_reducible repeat' first | assumption | apply count_stays | apply setSeg_stays | (apply same_mk; (iterate 13 (first | exact Or.inr rfl | exact Or.inl ‹_›)); (first | assumption | apply count_stays | apply setSeg_stays | split)) | split | intro _

theorem stationSilenced_stays (k st : Nat) (s : State) (hs : Same msk s0 s) (mbus : msk.bus = true := by assumption) : Same msk s0 (stationSilenced k st s) := by
  unfold stationSilenced
  try dsimp only
  with_reducible repeat' first | assumption | apply journal_stays | apply setSeg_stays | apply vzEvent_stays | (apply same_mk; (iterate 13 (first | exact Or.inr rfl | exact Or.inl ‹_›)); (first | assumption | apply journal_stays | apply setSeg_stays | apply vzEvent_stays | split)) | split | intro _

theorem safetyError_stays (k port a : Nat) (s : State) (hs : Same msk s0 s) (mbus : msk.bus = true := by assumption) (maxes : msk.axes = true := by assumption) : Same msk s0 (safetyError k port a s) := by
  unfold safetyError
  try dsimp only
  with_reducible repeat' first | assumption | apply count_stays | apply modAxis_stays | apply reqFault_stays | apply setSeg_stays | apply vzEvent_stays | (apply same_mk; (iterate 13 (first | exact Or.inr rfl | exact Or.inl ‹_›)); (first | assumption | apply count_stays | apply modAxis_stays | apply reqFault_stays | apply setSeg_stays | apply vzEvent_stays | split)) | split | intro _

theorem takeFeedback_stays (hook : Nat → State → State) (k port a : Nat) (e : Entry) (s : State)
    (khook : ∀ a0 t, Same msk s0 t → Same msk s0 (hook a0 t)) (hs : Same msk s0 s) (mbus : msk.bus = true := by assumption) (maxes : msk.axes = true := by assumption) : Same msk s0 (takeFeedback hook k port a e s) := by
  unfold takeFeedback
  extract_lets x m t0 f
  have h0 : Same msk s0 t0 := by
    simp only [t0]; split
    · exact xsend_stays _ _ _ _ hs
    · exact hs
  clear_value t0
  split
  · exact h0
  split
  · exact safetyError_stays _ _ _ _ h0
  · exact khook _ _ (modAxis_stays _ _ _ h0)

theorem lateRecord_stays (k port : Nat) (s : State) (hs : Same msk s0 s) (mbus : msk.bus = true := by assumption) : Same msk s0 (lateRecord k port s) := by
  unfold lateRecord
  try dsimp only
  with_reducible repeat' first | assumption | apply count_stays | apply setSeg_stays | (apply same_mk; (iterate 13 (first | exact Or.inr rfl | exact Or.inl ‹_›)); (first | assumption | apply count_stays | apply setSeg_stays | split)) | split | intro _

theorem takeEntry_stays (hook : Nat → State → State) (k port src cad : Nat) (e : Entry) (s : State) (khook : ∀ a0 t, Same msk s0 t → Same msk s0 (hook a0 t)) (hs : Same msk s0 s) (mbus : msk.bus = true := by assumption) (maxes : msk.axes = true := by assumption) : Same msk s0 (takeEntry hook k port src cad e s) := by
  unfold takeEntry
  try dsimp only
  with_reducible repeat' first | assumption | apply khook | apply lateRecord_stays | apply setSeg_stays | apply takeFeedback_stays | (apply same_mk; (iterate 13 (first | exact Or.inr rfl | exact Or.inl ‹_›)); (first | assumption | apply khook | apply lateRecord_stays | apply setSeg_stays | apply takeFeedback_stays | split)) | split | intro _

theorem fcsBurst_stays (k : Nat) (s : State) (hs : Same msk s0 s) (mbus : msk.bus = true := by assumption) : Same msk s0 (fcsBurst k s) := by
  unfold fcsBurst
  try dsimp only
  with_reducible repeat' first | assumption | apply freeNext_stays | apply vzEvent_stays | (apply same_mk; (iterate 13 (first | exact Or.inr rfl | exact Or.inl ‹_›)); (first | assumption | apply freeNext_stays | apply vzEvent_stays | split)) | split | intro _

theorem stationFrame_stays (hook : Nat → State → State) (k port sfd : Nat) (f : List Byte) (s : State) (khook : ∀ a0 t, Same msk s0 t → Same msk s0 (hook a0 t)) (hs : Same msk s0 s) (mbus : msk.bus = true := by assumption) (maxes : msk.axes = true := by assumption) : Same msk s0 (stationFrame hook k port sfd f s) := by
  unfold stationFrame
  try dsimp only
  with_reducible repeat' first | assumption | apply khook | apply count_stays | apply fcsBurst_stays | apply foreignFrame_stays | apply setSeg_stays | apply takeEntry_stays | apply violation_stays | apply foldl_stays | (apply same_mk; (iterate 13 (first | exact Or.inr rfl | exact Or.inl ‹_›)); (first | assumption | apply khook | apply count_stays | apply fcsBurst_stays | apply foreignFrame_stays | apply setSeg_stays | apply takeEntry_stays | apply violation_stays | apply foldl_stays | split)) | split | intro _

theorem freewheel_stays (s : State) (hs : Same msk s0 s) (mbus : msk.bus = true := by assumption) (maxes : msk.axes = true := by assumption) : Same msk s0 (freewheel s) := by
  unfold freewheel
  try dsimp only
  with_reducible repeat' first | assumption | apply count_stays | apply forNat_stays | apply setAxis_stays | apply setSeg_stays | (apply same_mk; (iterate 13 (first | exact Or.inr rfl | exact Or.inl ‹_›)); (first | assumption | apply count_stays | apply forNat_stays | apply setAxis_stays | apply setSeg_stays | split)) | split | intro _

theorem freewheelExpired_stays (a : Nat) (s : State) (hs : Same msk s0 s) (maxes : msk.axes = true := by assumption) : Same msk s0 (freewheelExpired a s) := by
  unfold freewheelExpired
  try dsimp only
  with_reducible repeat' first | assumption | apply reqFault_stays | (apply same_mk; (iterate 13 (first | exact Or.inr rfl | exact Or.inl ‹_›)); (first | assumption | apply reqFault_stays | split)) | split | intro _

theorem arbReturn_stays (k col st : Nat) (s : State) (hs : Same msk s0 s) (mbus : msk.bus = true := by assumption) : Same msk s0 (arbReturn k col st s) := by
  unfold arbReturn
  try dsimp only
  with_reducible repeat' first | assumption | apply setSeg_stays | (apply same_mk; (iterate 13 (first | exact Or.inr rfl | exact Or.inl ‹_›)); (first | assumption | apply setSeg_stays | split)) | split | intro _

theorem acyclicFrame_stays (k st : Nat) (b : List Byte) (s : State) (hs : Same msk s0 s) (mbus : msk.bus = true := by assumption) : Same msk s0 (acyclicFrame k st b s) := by
  unfold acyclicFrame
  try dsimp only
  with_reducible repeat' first | assumption | apply complete_stays | apply setSeg_stays | apply violation_stays | (apply same_mk; (iterate 13 (first | exact Or.inr rfl | exact Or.inl ‹_›)); (first | assumption | apply complete_stays | apply setSeg_stays | apply violation_stays | split)) | split | intro _

theorem acyclicTimeout_stays (m sl : Nat) (s : State) (hs : Same msk s0 s) (mbus : msk.bus = true := by assumption) : Same msk s0 (acyclicTimeout m sl s) := by
  unfold acyclicTimeout
  try dsimp only
  with_reducible repeat' first | assumption | apply advanceTo_stays | apply complete_stays | apply setSeg_stays | (apply same_mk; (iterate 13 (first | exact Or.inr rfl | exact Or.inl ‹_›)); (first | assumption | apply advanceTo_stays | apply complete_stays | apply setSeg_stays | split)) | split | intro _

theorem sendArb_stays (k : Nat) (s : State) (hs : Same msk s0 s) (mbus : msk.bus = true := by assumption) : Same msk s0 (sendArb k s) := by
  unfold sendArb
  try dsimp only
  with_reducible repeat' first | assumption | apply setSeg_stays | apply forNat_stays | apply masterDown_stays | (apply same_mk; (iterate 13 (first | exact Or.inr rfl | exact Or.inl ‹_›)); (first | assumption | apply setSeg_stays | apply forNat_stays | apply masterDown_stays | split)) | split | intro _

theorem busCadence_stays (s : State) (hs : Same msk s0 s) (mbus : msk.bus = true := by assumption) (maxes : msk.axes = true := by assumption) : Same msk s0 (busCadence s) := by
  unfold busCadence
  refine forNat_stays _ _ _ (fun k t ht => ?_) hs
  extract_lets g t0 t1 t2 t3 h
  have h0 : Same msk s0 t0 := ringSplit_stays _ _ (setSeg_stays _ _ _ ht)
  clear_value t0
  have h1 : Same msk s0 t1 := by
    simp only [t1]; split
    · exact cadenceFrame_stays _ _ h0
    · exact h0
  clear_value t1
  have h2 : Same msk s0 t2 := by
    simp only [t2]; split
    · exact sendArb_stays _ _ (sendAcyclic_stays _ _ h1)
    · exact h1
  clear_value t2
  have h3 : Same msk s0 t3 := startCadence_stays _ _ h2
  clear_value t3
  split
  · exact h3
  split
  · exact setSeg_stays _ _ _ h3
  · exact complete_stays _ _ _ _ _ _ _ (setSeg_stays _ _ _ h3)

theorem busEff_stays (e : Eff) (s : State) (hs : Same msk s0 s) (mbus : msk.bus = true := by assumption) : Same msk s0 (busEff e s) := by
  unfold busEff
  try dsimp only
  with_reducible repeat' first | assumption | apply segTo_stays | apply setSeg_stays | apply startEnd_stays | (apply same_mk; (iterate 13 (first | exact Or.inr rfl | exact Or.inl ‹_›)); (first | assumption | apply segTo_stays | apply setSeg_stays | apply startEnd_stays | split)) | split | intro _

theorem busRound_stays (t : Nat) (s : State) (hs : Same msk s0 s) (mbus : msk.bus = true := by assumption) : Same msk s0 (busRound t s) := by
  unfold busRound
  try dsimp only
  with_reducible repeat' first | assumption | apply busEff_stays | apply forNat_stays | apply segTo_stays | apply setSeg_stays | apply foldl_stays | apply takeEff_stays | (apply same_mk; (iterate 13 (first | exact Or.inr rfl | exact Or.inl ‹_›)); (first | assumption | apply busEff_stays | apply forNat_stays | apply segTo_stays | apply setSeg_stays | apply foldl_stays | apply takeEff_stays | split)) | split | intro _

theorem freeLoop_stays (a : Nat) (s : State) (hs : Same msk s0 s) (msch : msk.sch = true := by assumption) : Same msk s0 (freeLoop a s) := by
  unfold freeLoop
  try dsimp only
  with_reducible repeat' first | assumption | apply freeShares_stays | (apply same_mk; (iterate 13 (first | exact Or.inr rfl | exact Or.inl ‹_›)); (first | assumption | apply freeShares_stays | split)) | split | intro _

theorem beginEnable_stays (a : Nat) (s : State) (hs : Same msk s0 s) (maxes : msk.axes = true := by assumption) : Same msk s0 (beginEnable a s) := by
  unfold beginEnable
  try dsimp only
  with_reducible repeat' first | assumption | apply modAxis_stays | (apply same_mk; (iterate 13 (first | exact Or.inr rfl | exact Or.inl ‹_›)); (first | assumption | apply modAxis_stays | split)) | split | intro _

theorem toDisabled_stays (a : Nat) (sto : Bool) (s : State) (hs : Same msk s0 s) (maxes : msk.axes = true := by assumption) (msch : msk.sch = true := by assumption) : Same msk s0 (toDisabled a sto s) := by
  unfold toDisabled
  try dsimp only
  with_reducible repeat' first | assumption | apply freeLoop_stays | apply modAxis_stays | (apply same_mk; (iterate 13 (first | exact Or.inr rfl | exact Or.inl ‹_›)); (first | assumption | apply freeLoop_stays | apply modAxis_stays | split)) | split | intro _

theorem toHeld_stays (a : Nat) (s : State) (hs : Same msk s0 s) (maxes : msk.axes = true := by assumption) (msch : msk.sch = true := by assumption) : Same msk s0 (toHeld a s) := by
  unfold toHeld
  try dsimp only
  with_reducible repeat' first | assumption | apply freeLoop_stays | apply modAxis_stays | (apply same_mk; (iterate 13 (first | exact Or.inr rfl | exact Or.inl ‹_›)); (first | assumption | apply freeLoop_stays | apply modAxis_stays | split)) | split | intro _

theorem toClosed_stays (a : Nat) (s : State) (hs : Same msk s0 s) (maxes : msk.axes = true := by assumption) : Same msk s0 (toClosed a s) := by
  unfold toClosed
  try dsimp only
  with_reducible repeat' first | assumption | apply modAxis_stays | (apply same_mk; (iterate 13 (first | exact Or.inr rfl | exact Or.inl ‹_›)); (first | assumption | apply modAxis_stays | split)) | split | intro _

theorem genStop_stays (a : Nat) (s : State) (hs : Same msk s0 s) (maxes : msk.axes = true := by assumption) : Same msk s0 (genStop a s) := by
  unfold genStop
  try dsimp only
  with_reducible repeat' first | assumption | apply modAxis_stays | (apply same_mk; (iterate 13 (first | exact Or.inr rfl | exact Or.inl ‹_›)); (first | assumption | apply modAxis_stays | split)) | split | intro _

theorem stopAxis_stays (gen : Bool) (cat a : Nat) (s : State) (hs : Same msk s0 s) (maxes : msk.axes = true := by assumption) (msch : msk.sch = true := by assumption) : Same msk s0 (stopAxis gen cat a s) := by
  unfold stopAxis
  try dsimp only
  with_reducible repeat' first | assumption | apply genStop_stays | apply modAxis_stays | apply toDisabled_stays | (apply same_mk; (iterate 13 (first | exact Or.inr rfl | exact Or.inl ‹_›)); (first | assumption | apply genStop_stays | apply modAxis_stays | apply toDisabled_stays | split)) | split | intro _

theorem faultAxis_stays (a : Nat) (s : State) (hs : Same msk s0 s) (maxes : msk.axes = true := by assumption) (msch : msk.sch = true := by assumption) : Same msk s0 (faultAxis a s) := by
  unfold faultAxis
  try dsimp only
  with_reducible repeat' first | assumption | apply freeLoop_stays | apply journal_stays | apply modAxis_stays | apply foldl_stays | (apply same_mk; (iterate 13 (first | exact Or.inr rfl | exact Or.inl ‹_›)); (first | assumption | apply freeLoop_stays | apply journal_stays | apply modAxis_stays | apply foldl_stays | split)) | split | intro _

theorem ungroupedFaultStop_stays (a : Nat) (s : State) (hs : Same msk s0 s) (maxes : msk.axes = true := by assumption) : Same msk s0 (ungroupedFaultStop a s) := by
  unfold ungroupedFaultStop
  try dsimp only
  with_reducible repeat' first | assumption | apply modAxis_stays | (apply same_mk; (iterate 13 (first | exact Or.inr rfl | exact Or.inl ‹_›)); (first | assumption | apply modAxis_stays | split)) | split | intro _

theorem axisConditions_stays (a : Nat) (s : State) (hs : Same msk s0 s) (maxes : msk.axes = true := by assumption) (msch : msk.sch = true := by assumption) : Same msk s0 (axisConditions a s) := by
  unfold axisConditions
  extract_lets x ten enabled fresh
  clear_value fresh ten
  split
  · split
    · exact hs
    split
    · exact reqFault_stays _ _ _ hs
    split
    · exact hs
    split
    · exact modAxis_stays _ _ _ hs
    · exact reqFault_stays _ _ _ hs
  · split
    · exact hs
    split
    · exact toDisabled_stays _ _ _ hs
    · exact reqFault_stays _ _ _ hs
  · split
    · exact hs
    split
    · exact modAxis_stays _ _ _ hs
    · exact modAxis_stays _ _ _ hs
  · exact hs

theorem driveFault_stays (a : Nat) (s : State) (hs : Same msk s0 s) (maxes : msk.axes = true := by assumption) : Same msk s0 (driveFault a s) := by
  unfold driveFault
  try dsimp only
  with_reducible repeat' first | assumption | apply reqFault_stays | (apply same_mk; (iterate 13 (first | exact Or.inr rfl | exact Or.inl ‹_›)); (first | assumption | apply reqFault_stays | split)) | split | intro _

theorem enableTimeout_stays (a : Nat) (s : State) (hs : Same msk s0 s) (maxes : msk.axes = true := by assumption) : Same msk s0 (enableTimeout a s) := by
  unfold enableTimeout
  try dsimp only
  with_reducible repeat' first | assumption | apply advanceTo_stays | apply reqFault_stays | (apply same_mk; (iterate 13 (first | exact Or.inr rfl | exact Or.inl ‹_›)); (first | assumption | apply advanceTo_stays | apply reqFault_stays | split)) | split | intro _

end Sys2Proof.Machine
end

