-- ==== Sys2Proof/Laws/SameMotion.lean ====
section
/-!
SUPPORT. `Same` for the functions of motion, planning and the bus.
-/
namespace Sys2Proof.Machine

set_option Elab.async false
set_option linter.all false

variable {msk : Mask} {s0 : State}

theorem disableTimeout_stays (a : Nat) (s : State) (hs : Same msk s0 s) (maxes : msk.axes = true := by assumption) : Same msk s0 (disableTimeout a s) := by
  unfold disableTimeout
  try dsimp only
  with_reducible repeat' first | assumption | apply advanceTo_stays | apply reqFault_stays | (apply same_mk; (iterate 13 (first | exact Or.inr rfl | exact Or.inl ‹_›)); (first | assumption | apply advanceTo_stays | apply reqFault_stays | split)) | split | intro _

theorem deferredLimits_stays (a : Nat) (s : State) (hs : Same msk s0 s) (maxes : msk.axes = true := by assumption) : Same msk s0 (deferredLimits a s) := by
  unfold deferredLimits
  try dsimp only
  with_reducible repeat' first | assumption | apply journal_stays | apply setAxis_stays | (apply same_mk; (iterate 13 (first | exact Or.inr rfl | exact Or.inl ‹_›)); (first | assumption | apply journal_stays | apply setAxis_stays | split)) | split | intro _

theorem genStep_stays (a : Nat) (s : State) (hs : Same msk s0 s) (maxes : msk.axes = true := by assumption) : Same msk s0 (genStep a s) := by
  unfold genStep
  try dsimp only
  with_reducible repeat' first | assumption | apply modAxis_stays | (apply same_mk; (iterate 13 (first | exact Or.inr rfl | exact Or.inl ‹_›)); (first | assumption | apply modAxis_stays | split)) | split | intro _

theorem countZero_stays (a : Nat) (s : State) (hs : Same msk s0 s) (maxes : msk.axes = true := by assumption) : Same msk s0 (countZero a s) := by
  unfold countZero
  try dsimp only
  with_reducible repeat' first | assumption | apply modAxis_stays | (apply same_mk; (iterate 13 (first | exact Or.inr rfl | exact Or.inl ‹_›)); (first | assumption | apply modAxis_stays | split)) | split | intro _

theorem axisEff_stays (e : Eff) (s : State) (hs : Same msk s0 s) (maxes : msk.axes = true := by assumption) (msch : msk.sch = true := by assumption) : Same msk s0 (axisEff e s) := by
  unfold axisEff
  try dsimp only
  with_reducible repeat' first | assumption | apply beginEnable_stays | apply freeLoop_stays | apply modAxis_stays | apply setAxis_stays | apply toClosed_stays | apply toDisabled_stays | apply toHeld_stays | (apply same_mk; (iterate 13 (first | exact Or.inr rfl | exact Or.inl ‹_›)); (first | assumption | apply beginEnable_stays | apply freeLoop_stays | apply modAxis_stays | apply setAxis_stays | apply toClosed_stays | apply toDisabled_stays | apply toHeld_stays | split)) | split | intro _

theorem setFlow_stays (f : Nat) (v : Flow) (s : State) (hs : Same msk s0 s) (msch : msk.sch = true := by assumption) : Same msk s0 (setFlow f v s) := by
  unfold setFlow
  try dsimp only
  with_reducible repeat' first | assumption | (apply same_mk; (iterate 13 (first | exact Or.inr rfl | exact Or.inl ‹_›)); (first | assumption | split)) | split | intro _

theorem setOnUnit_stays (k u : Nat) (t : Option Task) (s : State) (hs : Same msk s0 s) (msch : msk.sch = true := by assumption) : Same msk s0 (setOnUnit k u t s) := by
  unfold setOnUnit
  try dsimp only
  with_reducible repeat' first | assumption | (apply same_mk; (iterate 13 (first | exact Or.inr rfl | exact Or.inl ‹_›)); (first | assumption | split)) | split | intro _

theorem addBusy_stays (k u n : Nat) (s : State) (hs : Same msk s0 s) (msch : msk.sch = true := by assumption) : Same msk s0 (addBusy k u n s) := by
  unfold addBusy
  try dsimp only
  with_reducible repeat' first | assumption | apply countN_stays | (apply same_mk; (iterate 13 (first | exact Or.inr rfl | exact Or.inl ‹_›)); (first | assumption | apply countN_stays | split)) | split | intro _

theorem makeReady_stays (t : Task) (s : State) (hs : Same msk s0 s) (msch : msk.sch = true := by assumption) : Same msk s0 (makeReady t s) := by
  unfold makeReady
  try dsimp only
  with_reducible repeat' first | assumption | apply noteDepth_stays | apply setCls_stays | (apply same_mk; (iterate 13 (first | exact Or.inr rfl | exact Or.inl ‹_›)); (first | assumption | apply noteDepth_stays | apply setCls_stays | split)) | split | intro _

theorem suspend_stays (t : Task) (s : State) (hs : Same msk s0 s) (msch : msk.sch = true := by assumption) : Same msk s0 (suspend t s) := by
  unfold suspend
  try dsimp only
  with_reducible repeat' first | assumption | apply setCls_stays | (apply same_mk; (iterate 13 (first | exact Or.inr rfl | exact Or.inl ‹_›)); (first | assumption | apply setCls_stays | split)) | split | intro _

theorem taskDue_stays (t : Task) (s : State) (hs : Same msk s0 s) (msch : msk.sch = true := by assumption) : Same msk s0 (taskDue t s) := by
  unfold taskDue
  extract_lets k c
  clear_value c
  split
  · exact noteDepth_stays _ _ (setCls_stays _ _ _ hs)
  split
  · exact suspend_stays _ _ hs
  · exact makeReady_stays _ _ hs

theorem stallPort_stays (t : Task) (s : State) (hs : Same msk s0 s) (msch : msk.sch = true := by assumption) : Same msk s0 (stallPort t s) := by
  unfold stallPort
  try dsimp only
  with_reducible repeat' first | assumption | apply count_stays | apply raise_stays | apply setCls_stays | (apply same_mk; (iterate 13 (first | exact Or.inr rfl | exact Or.inl ‹_›)); (first | assumption | apply count_stays | apply raise_stays | apply setCls_stays | split)) | split | intro _

theorem enqueueTask_stays (d : Descriptor) (s : State) (hs : Same msk s0 s) (msch : msk.sch = true := by assumption) : Same msk s0 (enqueueTask d s) := by
  unfold enqueueTask
  try dsimp only
  with_reducible repeat' first | assumption | apply count_stays | apply noteDepth_stays | apply raise_stays | apply setCls_stays | apply setFlow_stays | apply stallPort_stays | apply taskDue_stays | (apply same_mk; (iterate 13 (first | exact Or.inr rfl | exact Or.inl ‹_›)); (first | assumption | apply count_stays | apply noteDepth_stays | apply raise_stays | apply setCls_stays | apply setFlow_stays | apply stallPort_stays | apply taskDue_stays | split)) | split | intro _

theorem releaseHeld_stays (t : Task) (sA : State) (hs : Same msk s0 sA) (msch : msk.sch = true := by assumption) : Same msk s0 (releaseHeld t sA) := by
  unfold releaseHeld
  extract_lets s k c s1
  have h1 : Same msk s0 s1 := setCls_stays _ _ _ (advanceTo_stays _ _ hs)
  clear_value s1
  split
  · exact suspend_stays _ _ h1
  · exact makeReady_stays _ _ h1

theorem taskRelease_stays (d : Descriptor) (s : State) (hs : Same msk s0 s) (msch : msk.sch = true := by assumption) : Same msk s0 (taskRelease d s) := by
  unfold taskRelease
  split
  · exact releaseHeld_stays _ _ hs
  split
  · exact hs
  refine enqueueTask_stays _ _ ?_
  split
  · apply same_mk; (iterate 13 (first | exact Or.inr rfl | exact Or.inl ‹_›)); exact hs
  · exact hs

theorem taskDispatch_stays (k : Nat) (s : State) (hs : Same msk s0 s) (msch : msk.sch = true := by assumption) : Same msk s0 (taskDispatch k s) := by
  unfold taskDispatch
  try dsimp only
  with_reducible repeat' first | assumption | apply count_stays | apply noteDepth_stays | apply setCls_stays | apply setFlow_stays | apply setOnUnit_stays | (apply same_mk; (iterate 13 (first | exact Or.inr rfl | exact Or.inl ‹_›)); (first | assumption | apply count_stays | apply noteDepth_stays | apply setCls_stays | apply setFlow_stays | apply setOnUnit_stays | split)) | split | intro _

theorem flowNext_stays (f : Nat) (s : State) (hs : Same msk s0 s) (msch : msk.sch = true := by assumption) : Same msk s0 (flowNext f s) := by
  unfold flowNext
  try dsimp only
  with_reducible repeat' first | assumption | apply setFlow_stays | apply taskDue_stays | (apply same_mk; (iterate 13 (first | exact Or.inr rfl | exact Or.inl ‹_›)); (first | assumption | apply setFlow_stays | apply taskDue_stays | split)) | split | intro _

theorem freeUnitOf_stays (k u : Nat) (t : Task) (s : State) (hs : Same msk s0 s) (msch : msk.sch = true := by assumption) : Same msk s0 (freeUnitOf k u t s) := by
  unfold freeUnitOf
  try dsimp only
  with_reducible repeat' first | assumption | apply flowNext_stays | apply noteDepth_stays | apply setOnUnit_stays | (apply same_mk; (iterate 13 (first | exact Or.inr rfl | exact Or.inl ‹_›)); (first | assumption | apply flowNext_stays | apply noteDepth_stays | apply setOnUnit_stays | split)) | split | intro _

theorem admitRan_stays (u n : Nat) (s : State) (hs : Same msk s0 s) (msch : msk.sch = true := by assumption) : Same msk s0 (admitRan u n s) := by
  unfold admitRan
  try dsimp only
  with_reducible repeat' first | assumption | apply count_stays | (apply same_mk; (iterate 13 (first | exact Or.inr rfl | exact Or.inl ‹_›)); (first | assumption | apply count_stays | split)) | split | intro _

theorem taskEnd_stays (k u : Nat) (s : State) (hs : Same msk s0 s) (msch : msk.sch = true := by assumption) : Same msk s0 (taskEnd k u s) := by
  unfold taskEnd
  try dsimp only
  with_reducible repeat' first | assumption | apply addBusy_stays | apply admitRan_stays | apply count_stays | apply freeUnitOf_stays | (apply same_mk; (iterate 13 (first | exact Or.inr rfl | exact Or.inl ‹_›)); (first | assumption | apply addBusy_stays | apply admitRan_stays | apply count_stays | apply freeUnitOf_stays | split)) | split | intro _

theorem fftSliceEnd_stays (u : Nat) (s : State) (hs : Same msk s0 s) (msch : msk.sch = true := by assumption) : Same msk s0 (fftSliceEnd u s) := by
  unfold fftSliceEnd
  try dsimp only
  with_reducible repeat' first | assumption | apply addBusy_stays | apply advanceTo_stays | apply countN_stays | apply setOnUnit_stays | apply suspend_stays | (apply same_mk; (iterate 13 (first | exact Or.inr rfl | exact Or.inl ‹_›)); (first | assumption | apply addBusy_stays | apply advanceTo_stays | apply countN_stays | apply setOnUnit_stays | apply suspend_stays | split)) | split | intro _

theorem resumeFft_stays (s : State) (hs : Same msk s0 s) (msch : msk.sch = true := by assumption) : Same msk s0 (resumeFft s) := by
  unfold resumeFft
  try dsimp only
  with_reducible repeat' first | assumption | apply makeReady_stays | apply setCls_stays | apply foldl_stays | (apply same_mk; (iterate 13 (first | exact Or.inr rfl | exact Or.inl ‹_›)); (first | assumption | apply makeReady_stays | apply setCls_stays | apply foldl_stays | split)) | split | intro _

theorem enqueueResume_stays (k : Nat) (s : State) (hs : Same msk s0 s) (msch : msk.sch = true := by assumption) : Same msk s0 (enqueueResume k s) := by
  unfold enqueueResume
  extract_lets c
  split
  · exact setCls_stays _ _ _ hs
  · extract_lets w room
    split
    · exact enqueueTask_stays _ _ (setCls_stays _ _ _ hs)
    · exact hs

theorem flowLimitEff_stays (e : Eff) (s : State) (hs : Same msk s0 s) (msch : msk.sch = true := by assumption) : Same msk s0 (flowLimitEff e s) := by
  unfold flowLimitEff
  try dsimp only
  with_reducible repeat' first | assumption | apply setFlow_stays | (apply same_mk; (iterate 13 (first | exact Or.inr rfl | exact Or.inl ‹_›)); (first | assumption | apply setFlow_stays | split)) | split | intro _

theorem noCredit_stays (m k : Nat) (s : State) (hs : Same msk s0 s)  : Same msk s0 (noCredit m k s) := by
  unfold noCredit
  try dsimp only
  with_reducible repeat' first | assumption | apply advanceTo_stays | apply complete_stays | (apply same_mk; (iterate 13 (first | exact Or.inr rfl | exact Or.inl ‹_›)); (first | assumption | apply advanceTo_stays | apply complete_stays | split)) | split | intro _

theorem stpEvent_stays (n : Nat) (cause : BitVec 8) (s : State) (hs : Same msk s0 s) (mstp : msk.stp = true := by assumption) : Same msk s0 (stpEvent n cause s) := by
  unfold stpEvent
  try dsimp only
  with_reducible repeat' first | assumption | apply raise_stays | apply stpPut_stays | apply setStp_stays | (apply same_mk; (iterate 13 (first | exact Or.inr rfl | exact Or.inl ‹_›)); (first | assumption | apply raise_stays | apply stpPut_stays | apply setStp_stays | split)) | split | intro _

theorem stpGo_stays (n : Nat) (st : StpState) (s : State) (hs : Same msk s0 s) (mstp : msk.stp = true := by assumption) : Same msk s0 (stpGo n st s) := by
  unfold stpGo
  try dsimp only
  with_reducible repeat' first | assumption | apply stpPut_stays | apply setStp_stays | apply stpEvent_stays | (apply same_mk; (iterate 13 (first | exact Or.inr rfl | exact Or.inl ‹_›)); (first | assumption | apply stpPut_stays | apply setStp_stays | apply stpEvent_stays | split)) | split | intro _

theorem stpSuspect_stays (n : Nat) (s : State) (hs : Same msk s0 s) (mstp : msk.stp = true := by assumption) : Same msk s0 (stpSuspect n s) := by
  unfold stpSuspect
  try dsimp only
  with_reducible repeat' first | assumption | apply journal_stays | apply stpPut_stays | apply setStp_stays | apply stpEvent_stays | (apply same_mk; (iterate 13 (first | exact Or.inr rfl | exact Or.inl ‹_›)); (first | assumption | apply journal_stays | apply stpPut_stays | apply setStp_stays | apply stpEvent_stays | split)) | split | intro _

theorem stpPreempt_stays (n : Nat) (c : StpCmd) (s : State) (hs : Same msk s0 s) (mstp : msk.stp = true := by assumption) : Same msk s0 (stpPreempt n c s) := by
  unfold stpPreempt
  try dsimp only
  with_reducible repeat' first | assumption | apply journal_stays | apply stpEvent_stays | (apply same_mk; (iterate 13 (first | exact Or.inr rfl | exact Or.inl ‹_›)); (first | assumption | apply journal_stays | apply stpEvent_stays | split)) | split | intro _

theorem stpDropMoves_stays (n t : Nat) (s : State) (hs : Same msk s0 s) (mstp : msk.stp = true := by assumption) : Same msk s0 (stpDropMoves n t s) := by
  unfold stpDropMoves
  try dsimp only
  with_reducible repeat' first | assumption | apply stpPut_stays | apply setStp_stays | apply stpPreempt_stays | apply foldl_stays | (apply same_mk; (iterate 13 (first | exact Or.inr rfl | exact Or.inl ‹_›)); (first | assumption | apply stpPut_stays | apply setStp_stays | apply stpPreempt_stays | apply foldl_stays | split)) | split | intro _

theorem stpAbort_stays (n : Nat) (s : State) (hs : Same msk s0 s) (mstp : msk.stp = true := by assumption) : Same msk s0 (stpAbort n s) := by
  unfold stpAbort
  try dsimp only
  with_reducible repeat' first | assumption | apply stpPut_stays | apply setStp_stays | apply stpEvent_stays | (apply same_mk; (iterate 13 (first | exact Or.inr rfl | exact Or.inl ‹_›)); (first | assumption | apply stpPut_stays | apply setStp_stays | apply stpEvent_stays | split)) | split | intro _

theorem stpRamp_stays (n t : Nat) (s : State) (hs : Same msk s0 s) (mstp : msk.stp = true := by assumption) : Same msk s0 (stpRamp n t s) := by
  unfold stpRamp
  try dsimp only
  with_reducible repeat' first | assumption | apply stpPut_stays | apply setStp_stays | apply stpAbort_stays | apply stpDropMoves_stays | apply stpEvent_stays | (apply same_mk; (iterate 13 (first | exact Or.inr rfl | exact Or.inl ‹_›)); (first | assumption | apply stpPut_stays | apply setStp_stays | apply stpAbort_stays | apply stpDropMoves_stays | apply stpEvent_stays | split)) | split | intro _

theorem stpImmediate_stays (n : Nat) (off : Bool) (s : State) (hs : Same msk s0 s) (mstp : msk.stp = true := by assumption) : Same msk s0 (stpImmediate n off s) := by
  unfold stpImmediate
  try dsimp only
  with_reducible repeat' first | assumption | apply count_stays | apply stpPut_stays | apply setStp_stays | apply stpAbort_stays | apply stpDropMoves_stays | apply stpEvent_stays | apply stpGo_stays | apply stpSuspect_stays | (apply same_mk; (iterate 13 (first | exact Or.inr rfl | exact Or.inl ‹_›)); (first | assumption | apply count_stays | apply stpPut_stays | apply setStp_stays | apply stpAbort_stays | apply stpDropMoves_stays | apply stpEvent_stays | apply stpGo_stays | apply stpSuspect_stays | split)) | split | intro _

theorem stpGroupStop_stays (g cat t : Nat) (s : State) (hs : Same msk s0 s) (mstp : msk.stp = true := by assumption) : Same msk s0 (stpGroupStop g cat t s) := by
  unfold stpGroupStop
  try dsimp only
  with_reducible repeat' first | assumption | apply forNat_stays | apply stpImmediate_stays | apply stpRamp_stays | (apply same_mk; (iterate 13 (first | exact Or.inr rfl | exact Or.inl ‹_›)); (first | assumption | apply forNat_stays | apply stpImmediate_stays | apply stpRamp_stays | split)) | split | intro _

theorem stpHomeFail_stays (n reason t : Nat) (s : State) (hs : Same msk s0 s) (mstp : msk.stp = true := by assumption) : Same msk s0 (stpHomeFail n reason t s) := by
  unfold stpHomeFail
  try dsimp only
  with_reducible repeat' first | assumption | apply stpPut_stays | apply setStp_stays | apply stpEvent_stays | (apply same_mk; (iterate 13 (first | exact Or.inr rfl | exact Or.inl ‹_›)); (first | assumption | apply stpPut_stays | apply setStp_stays | apply stpEvent_stays | split)) | split | intro _

theorem stpHomeTick_stays (n t : Nat) (s : State) (hs : Same msk s0 s) (mstp : msk.stp = true := by assumption) : Same msk s0 (stpHomeTick n t s) := by
  unfold stpHomeTick
  try dsimp only
  with_reducible repeat' first | assumption | apply stpPut_stays | apply setStp_stays | apply stpEvent_stays | apply stpHomeFail_stays | (apply same_mk; (iterate 13 (first | exact Or.inr rfl | exact Or.inl ‹_›)); (first | assumption | apply stpPut_stays | apply setStp_stays | apply stpEvent_stays | apply stpHomeFail_stays | split)) | split | intro _

theorem stpCompute_stays (c1 c2 : Nat) (s : State) (hs : Same msk s0 s) (mstp : msk.stp = true := by assumption) : Same msk s0 (stpCompute c1 c2 s) := by
  unfold stpCompute
  try dsimp only
  with_reducible repeat' first | assumption | apply forNat_stays | apply stpPut_stays | apply setStp_stays | apply stpHomeTick_stays | (apply same_mk; (iterate 13 (first | exact Or.inr rfl | exact Or.inl ‹_›)); (first | assumption | apply forNat_stays | apply stpPut_stays | apply setStp_stays | apply stpHomeTick_stays | split)) | split | intro _

theorem stpRecords_stays (s : State) (hs : Same msk s0 s) (mstp : msk.stp = true := by assumption) : Same msk s0 (stpRecords s) := by
  unfold stpRecords
  try dsimp only
  with_reducible repeat' first | assumption | (apply same_mk; (iterate 13 (first | exact Or.inr rfl | exact Or.inl ‹_›)); (first | assumption | split)) | split | intro _

theorem stpSegment_stays (t len n : Nat) (s : State) (hs : Same msk s0 s) (mstp : msk.stp = true := by assumption) : Same msk s0 (stpSegment t len n s) := by
  unfold stpSegment
  try dsimp only
  with_reducible repeat' first | assumption | apply count_stays | apply countN_stays | apply emit_stays | apply stpPut_stays | apply setStp_stays | (apply same_mk; (iterate 13 (first | exact Or.inr rfl | exact Or.inl ‹_›)); (first | assumption | apply count_stays | apply countN_stays | apply emit_stays | apply stpPut_stays | apply setStp_stays | split)) | split | intro _

theorem stpCadence_stays (t len : Nat) (s : State) (hs : Same msk s0 s) (mstp : msk.stp = true := by assumption) : Same msk s0 (stpCadence t len s) := by
  unfold stpCadence
  refine forNat_stays _ _ _ (fun n u hu => ?_) hs
  extract_lets x u1 y k y1 y2
  have h1 : Same msk s0 u1 := by
    simp only [u1]; split
    · exact stpGo_stays _ _ _ (setStp_stays _ _ _ hu)
    · exact hu
  clear_value u1
  split
  exact stpSegment_stays _ _ _ _ (setStp_stays _ _ _ h1)

theorem stpHold_stays (n : Nat) (s : State) (hs : Same msk s0 s) (mstp : msk.stp = true := by assumption) : Same msk s0 (stpHold n s) := by
  unfold stpHold
  try dsimp only
  with_reducible repeat' first | assumption | apply advanceTo_stays | apply stpPut_stays | apply setStp_stays | (apply same_mk; (iterate 13 (first | exact Or.inr rfl | exact Or.inl ‹_›)); (first | assumption | apply advanceTo_stays | apply stpPut_stays | apply setStp_stays | split)) | split | intro _

theorem stpInput_stays (c t n : Nat) (s : State) (hs : Same msk s0 s) (mstp : msk.stp = true := by assumption) : Same msk s0 (stpInput c t n s) := by
  unfold stpInput
  try dsimp only
  with_reducible repeat' first | assumption | apply latch_stays | apply stpPut_stays | apply setStp_stays | apply stpHomeFail_stays | (apply same_mk; (iterate 13 (first | exact Or.inr rfl | exact Or.inl ‹_›)); (first | assumption | apply latch_stays | apply stpPut_stays | apply setStp_stays | apply stpHomeFail_stays | split)) | split | intro _

theorem stpLimitStop_stays (t n : Nat) (s : State) (hs : Same msk s0 s) (mstp : msk.stp = true := by assumption) : Same msk s0 (stpLimitStop t n s) := by
  unfold stpLimitStop
  try dsimp only
  with_reducible repeat' first | assumption | apply stpImmediate_stays | apply stpRamp_stays | (apply same_mk; (iterate 13 (first | exact Or.inr rfl | exact Or.inl ‹_›)); (first | assumption | apply stpImmediate_stays | apply stpRamp_stays | split)) | split | intro _

theorem stpEff_stays (t : Nat) (e : Eff) (s : State) (hs : Same msk s0 s) (mstp : msk.stp = true := by assumption) : Same msk s0 (stpEff t e s) := by
  unfold stpEff
  extract_lets
  split
  · split
    · exact stpGo_stays _ _ _ (stpPut_stays _ _ _ hs)
    · exact hs
  split
  · split
    · exact stpGo_stays _ _ _ (stpPut_stays _ _ _ hs)
    · exact hs
  split
  · split
    · exact stpImmediate_stays _ _ _ hs
    · exact hs
  split
  · split
    · exact hs
    · split
      · exact stpEvent_stays _ _ _ (setStp_stays _ _ _ hs)
      · exact stpGo_stays _ _ _ (setStp_stays _ _ _ hs)
  split
  · split
    · exact stpGo_stays _ _ _ (stpPut_stays _ _ _ hs)
    · exact hs
  split
  · exact setStp_stays _ _ _ hs
  · exact hs

theorem grpEvent_stays (g code : Nat) (s : State) (hs : Same msk s0 s) (mgrps : msk.grps = true := by assumption) : Same msk s0 (grpEvent g code s) := by
  unfold grpEvent
  try dsimp only
  with_reducible repeat' first | assumption | apply modGrp_stays | apply raise_stays | (apply same_mk; (iterate 13 (first | exact Or.inr rfl | exact Or.inl ‹_›)); (first | assumption | apply modGrp_stays | apply raise_stays | split)) | split | intro _

theorem grpTo_stays (g : Nat) (st : GrpState) (s : State) (hs : Same msk s0 s) (mgrps : msk.grps = true := by assumption) : Same msk s0 (grpTo g st s) := by
  unfold grpTo
  try dsimp only
  with_reducible repeat' first | assumption | apply grpEvent_stays | apply setGrp_stays | (apply same_mk; (iterate 13 (first | exact Or.inr rfl | exact Or.inl ‹_›)); (first | assumption | apply grpEvent_stays | apply setGrp_stays | split)) | split | intro _

theorem preempted_stays (g tag promise : Nat) (s : State) (hs : Same msk s0 s) (mgrps : msk.grps = true := by assumption) : Same msk s0 (preempted g tag promise s) := by
  unfold preempted
  try dsimp only
  with_reducible repeat' first | assumption | apply grpEvent_stays | apply journal_stays | (apply same_mk; (iterate 13 (first | exact Or.inr rfl | exact Or.inl ‹_›)); (first | assumption | apply grpEvent_stays | apply journal_stays | split)) | split | intro _

theorem dropTargets_stays (g : Nat) (s : State) (hs : Same msk s0 s) (mgrps : msk.grps = true := by assumption) : Same msk s0 (dropTargets g s) := by
  unfold dropTargets
  try dsimp only
  with_reducible repeat' first | assumption | apply modGrp_stays | (apply same_mk; (iterate 13 (first | exact Or.inr rfl | exact Or.inl ‹_›)); (first | assumption | apply modGrp_stays | split)) | split | intro _

theorem preemptAll_stays (g : Nat) (l : List MpcTarget) (s : State) (hs : Same msk s0 s) (mgrps : msk.grps = true := by assumption) : Same msk s0 (preemptAll g l s) := by
  unfold preemptAll
  try dsimp only
  with_reducible repeat' first | assumption | apply preempted_stays | apply foldl_stays | (apply same_mk; (iterate 13 (first | exact Or.inr rfl | exact Or.inl ‹_›)); (first | assumption | apply preempted_stays | apply foldl_stays | split)) | split | intro _

theorem underrunMarks_stays (k : Nat) (s : State) (hs : Same msk s0 s) (mstrm : msk.strm = true := by assumption) : Same msk s0 (underrunMarks k s) := by
  unfold underrunMarks
  try dsimp only
  with_reducible repeat' first | assumption | apply journal_stays | apply raise_stays | (apply same_mk; (iterate 13 (first | exact Or.inr rfl | exact Or.inl ‹_›)); (first | assumption | apply journal_stays | apply raise_stays | split)) | split | intro _

theorem strmTaken_stays (g : Nat) (s : State) (hs : Same msk s0 s) (mstrm : msk.strm = true := by assumption) (mgrps : msk.grps = true := by assumption) : Same msk s0 (strmTaken g s) := by
  unfold strmTaken
  try dsimp only
  with_reducible repeat' first | assumption | apply modGrp_stays | apply underrunMarks_stays | (apply same_mk; (iterate 13 (first | exact Or.inr rfl | exact Or.inl ‹_›)); (first | assumption | apply modGrp_stays | apply underrunMarks_stays | split)) | split | intro _

theorem resetMotion_stays (g : Nat) (s : State) (hs : Same msk s0 s) (mgrps : msk.grps = true := by assumption) : Same msk s0 (resetMotion g s) := by
  unfold resetMotion
  try dsimp only
  with_reducible repeat' first | assumption | apply homePhase_stays | apply modGrp_stays | (apply same_mk; (iterate 13 (first | exact Or.inr rfl | exact Or.inl ‹_›)); (first | assumption | apply homePhase_stays | apply modGrp_stays | split)) | split | intro _

theorem idleStop_stays (g cat : Nat) (ax : Bool) (s : State) (hs : Same msk s0 s) (maxes : msk.axes = true := by assumption) (msch : msk.sch = true := by assumption) (mio : msk.io = true := by assumption) (mstp : msk.stp = true := by assumption) : Same msk s0 (idleStop g cat ax s) := by
  unfold idleStop
  try dsimp only
  with_reducible repeat' first | assumption | apply forNat_stays | apply stoGroup_stays | apply stopAxis_stays | apply stpGroupStop_stays | (apply same_mk; (iterate 13 (first | exact Or.inr rfl | exact Or.inl ‹_›)); (first | assumption | apply forNat_stays | apply stoGroup_stays | apply stopAxis_stays | apply stpGroupStop_stays | split)) | split | intro _

theorem stopMembers_stays (g cat : Nat) (s : State) (hs : Same msk s0 s) (maxes : msk.axes = true := by assumption) (mgrps : msk.grps = true := by assumption) (msch : msk.sch = true := by assumption) (mio : msk.io = true := by assumption) (mstp : msk.stp = true := by assumption) : Same msk s0 (stopMembers g cat s) := by
  unfold stopMembers
  try dsimp only
  with_reducible repeat' first | assumption | apply idleStop_stays | apply modGrp_stays | (apply same_mk; (iterate 13 (first | exact Or.inr rfl | exact Or.inl ‹_›)); (first | assumption | apply idleStop_stays | apply modGrp_stays | split)) | split | intro _

theorem freeOpen_stays (g : Nat) (s : State) (hs : Same msk s0 s) (msch : msk.sch = true := by assumption) : Same msk s0 (freeOpen g s) := by
  unfold freeOpen
  exact forNat_stays _ _ _ (fun a t ht => freeLoop_stays _ _ ht) hs

theorem beginStop_stays (g cat : Nat) (outcome : GrpState) (s : State) (hs : Same msk s0 s) (mstrm : msk.strm = true := by assumption) (maxes : msk.axes = true := by assumption) (mgrps : msk.grps = true := by assumption) (msch : msk.sch = true := by assumption) (mio : msk.io = true := by assumption) (mstp : msk.stp = true := by assumption) : Same msk s0 (beginStop g cat outcome s) := by
  unfold beginStop
  try dsimp only
  with_reducible repeat' first | assumption | apply dropTargets_stays | apply freeOpen_stays | apply grpTo_stays | apply modGrp_stays | apply preemptAll_stays | apply stopMembers_stays | apply strmTaken_stays | (apply same_mk; (iterate 13 (first | exact Or.inr rfl | exact Or.inl ‹_›)); (first | assumption | apply dropTargets_stays | apply freeOpen_stays | apply grpTo_stays | apply modGrp_stays | apply preemptAll_stays | apply stopMembers_stays | apply strmTaken_stays | split)) | split | intro _

theorem pathStop_stays (g : Nat) (outcome : GrpState) (s : State) (hs : Same msk s0 s) (mgrps : msk.grps = true := by assumption) : Same msk s0 (pathStop g outcome s) := by
  unfold pathStop
  try dsimp only
  with_reducible repeat' first | assumption | apply grpTo_stays | apply modGrp_stays | (apply same_mk; (iterate 13 (first | exact Or.inr rfl | exact Or.inl ‹_›)); (first | assumption | apply grpTo_stays | apply modGrp_stays | split)) | split | intro _

theorem faultGroup_stays (g : Nat) (s : State) (hs : Same msk s0 s) (mstrm : msk.strm = true := by assumption) (maxes : msk.axes = true := by assumption) (mgrps : msk.grps = true := by assumption) (msch : msk.sch = true := by assumption) (mio : msk.io = true := by assumption) (mstp : msk.stp = true := by assumption) : Same msk s0 (faultGroup g s) := by
  unfold faultGroup
  try dsimp only
  with_reducible repeat' first | assumption | apply dropTargets_stays | apply faultAxis_stays | apply forNat_stays | apply freeOpen_stays | apply grpTo_stays | apply journal_stays | apply modAxis_stays | apply modGrp_stays | apply preemptAll_stays | apply reqFault_stays | apply stoGroup_stays | apply stopAxis_stays | apply stopMembers_stays | apply stpGroupStop_stays | apply strmTaken_stays | (apply same_mk; (iterate 13 (first | exact Or.inr rfl | exact Or.inl ‹_›)); (first | assumption | apply dropTargets_stays | apply faultAxis_stays | apply forNat_stays | apply freeOpen_stays | apply grpTo_stays | apply journal_stays | apply modAxis_stays | apply modGrp_stays | apply preemptAll_stays | apply reqFault_stays | apply stoGroup_stays | apply stopAxis_stays | apply stopMembers_stays | apply stpGroupStop_stays | apply strmTaken_stays | split)) | split | intro _

theorem homeFail_stays (g a reason : Nat) (s : State) (hs : Same msk s0 s) (mstrm : msk.strm = true := by assumption) (maxes : msk.axes = true := by assumption) (mgrps : msk.grps = true := by assumption) (msch : msk.sch = true := by assumption) (mio : msk.io = true := by assumption) (mstp : msk.stp = true := by assumption) : Same msk s0 (homeFail g a reason s) := by
  unfold homeFail
  try dsimp only
  with_reducible repeat' first | assumption | apply beginStop_stays | apply grpEvent_stays | apply journal_stays | apply modGrp_stays | (apply same_mk; (iterate 13 (first | exact Or.inr rfl | exact Or.inl ‹_›)); (first | assumption | apply beginStop_stays | apply grpEvent_stays | apply journal_stays | apply modGrp_stays | split)) | split | intro _

theorem homeAbort_stays (g cat : Nat) (out : GrpState) (s : State) (hs : Same msk s0 s) (mstrm : msk.strm = true := by assumption) (maxes : msk.axes = true := by assumption) (mgrps : msk.grps = true := by assumption) (msch : msk.sch = true := by assumption) (mio : msk.io = true := by assumption) (mstp : msk.stp = true := by assumption) : Same msk s0 (homeAbort g cat out s) := by
  unfold homeAbort
  try dsimp only
  with_reducible repeat' first | assumption | apply beginStop_stays | apply grpEvent_stays | apply journal_stays | apply modGrp_stays | (apply same_mk; (iterate 13 (first | exact Or.inr rfl | exact Or.inl ‹_›)); (first | assumption | apply beginStop_stays | apply grpEvent_stays | apply journal_stays | apply modGrp_stays | split)) | split | intro _

theorem stopGroup_stays (cat g : Nat) (s : State) (hs : Same msk s0 s) (mstrm : msk.strm = true := by assumption) (maxes : msk.axes = true := by assumption) (mgrps : msk.grps = true := by assumption) (msch : msk.sch = true := by assumption) (mio : msk.io = true := by assumption) (mstp : msk.stp = true := by assumption) : Same msk s0 (stopGroup cat g s) := by
  unfold stopGroup
  try dsimp only
  with_reducible repeat' first | assumption | apply beginStop_stays | apply dropTargets_stays | apply homeAbort_stays | apply idleStop_stays | apply modGrp_stays | apply preemptAll_stays | apply stopMembers_stays | apply strmTaken_stays | (apply same_mk; (iterate 13 (first | exact Or.inr rfl | exact Or.inl ‹_›)); (first | assumption | apply beginStop_stays | apply dropTargets_stays | apply homeAbort_stays | apply idleStop_stays | apply modGrp_stays | apply preemptAll_stays | apply stopMembers_stays | apply strmTaken_stays | split)) | split | intro _

theorem releaseFaulted_stays (g : Nat) (s : State) (hs : Same msk s0 s) (maxes : msk.axes = true := by assumption) : Same msk s0 (releaseFaulted g s) := by
  unfold releaseFaulted
  try dsimp only
  with_reducible repeat' first | assumption | apply forNat_stays | apply modAxis_stays | (apply same_mk; (iterate 13 (first | exact Or.inr rfl | exact Or.inl ‹_›)); (first | assumption | apply forNat_stays | apply modAxis_stays | split)) | split | intro _

theorem freeQp_stays (g : Nat) (s : State) (hs : Same msk s0 s) (msch : msk.sch = true := by assumption) : Same msk s0 (freeQp g s) := by
  unfold freeQp
  try dsimp only
  with_reducible repeat' first | assumption | apply freeShares_stays | (apply same_mk; (iterate 13 (first | exact Or.inr rfl | exact Or.inl ‹_›)); (first | assumption | apply freeShares_stays | split)) | split | intro _

theorem toIdle_stays (g : Nat) (s : State) (hs : Same msk s0 s) (mgrps : msk.grps = true := by assumption) (msch : msk.sch = true := by assumption) : Same msk s0 (toIdle g s) := by
  unfold toIdle
  try dsimp only
  with_reducible repeat' first | assumption | apply freeOpen_stays | apply freeQp_stays | apply grpTo_stays | apply resetMotion_stays | (apply same_mk; (iterate 13 (first | exact Or.inr rfl | exact Or.inl ‹_›)); (first | assumption | apply freeOpen_stays | apply freeQp_stays | apply grpTo_stays | apply resetMotion_stays | split)) | split | intro _

theorem grpSettle_stays (g : Nat) (s : State) (hs : Same msk s0 s) (mgrps : msk.grps = true := by assumption) : Same msk s0 (grpSettle g s) := by
  unfold grpSettle
  try dsimp only
  with_reducible repeat' first | assumption | apply grpTo_stays | apply modGrp_stays | apply resetMotion_stays | (apply same_mk; (iterate 13 (first | exact Or.inr rfl | exact Or.inl ‹_›)); (first | assumption | apply grpTo_stays | apply modGrp_stays | apply resetMotion_stays | split)) | split | intro _

theorem groupConditions_stays (g : Nat) (s : State) (hs : Same msk s0 s) (mstrm : msk.strm = true := by assumption) (maxes : msk.axes = true := by assumption) (mgrps : msk.grps = true := by assumption) (msch : msk.sch = true := by assumption) (mio : msk.io = true := by assumption) (mstp : msk.stp = true := by assumption) : Same msk s0 (groupConditions g s) := by
  unfold groupConditions
  try dsimp only
  with_reducible repeat' first | assumption | apply forNat_stays | apply grpSettle_stays | apply grpTo_stays | apply homeFail_stays | apply modGrp_stays | apply releaseFaulted_stays | apply resetMotion_stays | apply toClosed_stays | apply toIdle_stays | (apply same_mk; (iterate 13 (first | exact Or.inr rfl | exact Or.inl ‹_›)); (first | assumption | apply forNat_stays | apply grpSettle_stays | apply grpTo_stays | apply homeFail_stays | apply modGrp_stays | apply releaseFaulted_stays | apply resetMotion_stays | apply toClosed_stays | apply toIdle_stays | split)) | split | intro _

theorem driveMembers_stays (g : Nat) (lam rate : Fx) (k : Knot) (s : State) (hs : Same msk s0 s) (maxes : msk.axes = true := by assumption) : Same msk s0 (driveMembers g lam rate k s) := by
  unfold driveMembers
  try dsimp only
  with_reducible repeat' first | assumption | apply forNat_stays | apply setAxis_stays | apply foldl_stays | (apply same_mk; (iterate 13 (first | exact Or.inr rfl | exact Or.inl ‹_›)); (first | assumption | apply forNat_stays | apply setAxis_stays | apply foldl_stays | split)) | split | intro _

theorem feedMembers_stays (g : Nat) (s : State) (hs : Same msk s0 s) (maxes : msk.axes = true := by assumption) : Same msk s0 (feedMembers g s) := by
  unfold feedMembers
  try dsimp only
  with_reducible repeat' first | assumption | apply forNat_stays | apply modAxis_stays | apply foldl_stays | (apply same_mk; (iterate 13 (first | exact Or.inr rfl | exact Or.inl ‹_›)); (first | assumption | apply forNat_stays | apply modAxis_stays | apply foldl_stays | split)) | split | intro _

theorem lamCadence_stays (g : Nat) (s : State) (hs : Same msk s0 s) (mgrps : msk.grps = true := by assumption) : Same msk s0 (lamCadence g s) := by
  unfold lamCadence
  try dsimp only
  with_reducible repeat' first | assumption | apply modGrp_stays | (apply same_mk; (iterate 13 (first | exact Or.inr rfl | exact Or.inl ‹_›)); (first | assumption | apply modGrp_stays | split)) | split | intro _

theorem interpolate_stays (g : Nat) (s : State) (hs : Same msk s0 s) (maxes : msk.axes = true := by assumption) (mgrps : msk.grps = true := by assumption) : Same msk s0 (interpolate g s) := by
  unfold interpolate
  try dsimp only
  with_reducible repeat' first | assumption | apply driveMembers_stays | apply modGrp_stays | (apply same_mk; (iterate 13 (first | exact Or.inr rfl | exact Or.inl ‹_›)); (first | assumption | apply driveMembers_stays | apply modGrp_stays | split)) | split | intro _

theorem startMoves_stays (g : Nat) (t : Fx) (s : State) (hs : Same msk s0 s) (mgrps : msk.grps = true := by assumption) : Same msk s0 (startMoves g t s) := by
  unfold startMoves
  try dsimp only
  with_reducible repeat' first | assumption | apply modGrp_stays | (apply same_mk; (iterate 13 (first | exact Or.inr rfl | exact Or.inl ‹_›)); (first | assumption | apply modGrp_stays | split)) | split | intro _

theorem homeTo_stays (a : Nat) (target v : Fx) (s : State) (hs : Same msk s0 s) (maxes : msk.axes = true := by assumption) : Same msk s0 (homeTo a target v s) := by
  unfold homeTo
  try dsimp only
  with_reducible repeat' first | assumption | apply modAxis_stays | (apply same_mk; (iterate 13 (first | exact Or.inr rfl | exact Or.inl ‹_›)); (first | assumption | apply modAxis_stays | split)) | split | intro _

theorem homeGo_stays (a : Nat) (st : HomeStep) (s : State) (hs : Same msk s0 s) (maxes : msk.axes = true := by assumption) : Same msk s0 (homeGo a st s) := by
  unfold homeGo
  try dsimp only
  with_reducible repeat' first | assumption | apply modAxis_stays | (apply same_mk; (iterate 13 (first | exact Or.inr rfl | exact Or.inl ‹_›)); (first | assumption | apply modAxis_stays | split)) | split | intro _

theorem homeSearch_stays (a : Nat) (st : HomeStep) (sign : Int) (v : Fx) (s : State) (hs : Same msk s0 s) (maxes : msk.axes = true := by assumption) : Same msk s0 (homeSearch a st sign v s) := by
  unfold homeSearch
  try dsimp only
  with_reducible repeat' first | assumption | apply homeGo_stays | apply homeTo_stays | apply modAxis_stays | (apply same_mk; (iterate 13 (first | exact Or.inr rfl | exact Or.inl ‹_›)); (first | assumption | apply homeGo_stays | apply homeTo_stays | apply modAxis_stays | split)) | split | intro _

theorem homeRest_stays (a : Nat) (st : HomeStep) (s : State) (hs : Same msk s0 s) (maxes : msk.axes = true := by assumption) : Same msk s0 (homeRest a st s) := by
  unfold homeRest
  try dsimp only
  with_reducible repeat' first | assumption | apply genStop_stays | apply homeGo_stays | (apply same_mk; (iterate 13 (first | exact Or.inr rfl | exact Or.inl ‹_›)); (first | assumption | apply genStop_stays | apply homeGo_stays | split)) | split | intro _

theorem shiftHome_stays (a : Nat) (d : Int) (s : State) (hs : Same msk s0 s) (maxes : msk.axes = true := by assumption) : Same msk s0 (shiftHome a d s) := by
  unfold shiftHome
  try dsimp only
  with_reducible repeat' first | assumption | apply modAxis_stays | (apply same_mk; (iterate 13 (first | exact Or.inr rfl | exact Or.inl ‹_›)); (first | assumption | apply modAxis_stays | split)) | split | intro _

theorem latchPoint_stays (g a : Nat) (point slavePoint : Int) (s : State) (hs : Same msk s0 s) (maxes : msk.axes = true := by assumption) : Same msk s0 (latchPoint g a point slavePoint s) := by
  unfold latchPoint
  try dsimp only
  with_reducible repeat' first | assumption | apply modAxis_stays | apply shiftHome_stays | (apply same_mk; (iterate 13 (first | exact Or.inr rfl | exact Or.inl ‹_›)); (first | assumption | apply modAxis_stays | apply shiftHome_stays | split)) | split | intro _

theorem latchAt_stays (g a t : Nat) (pt : Option Int) (s : State) (hs : Same msk s0 s) (maxes : msk.axes = true := by assumption) : Same msk s0 (latchAt g a t pt s) := by
  unfold latchAt
  try dsimp only
  with_reducible repeat' first | assumption | apply latchPoint_stays | apply modAxis_stays | (apply same_mk; (iterate 13 (first | exact Or.inr rfl | exact Or.inl ‹_›)); (first | assumption | apply latchPoint_stays | apply modAxis_stays | split)) | split | intro _

theorem latchRetry_stays (g a : Nat) (s : State) (hs : Same msk s0 s) (maxes : msk.axes = true := by assumption) : Same msk s0 (latchRetry g a s) := by
  unfold latchRetry
  try dsimp only
  with_reducible repeat' first | assumption | apply latchAt_stays | (apply same_mk; (iterate 13 (first | exact Or.inr rfl | exact Or.inl ‹_›)); (first | assumption | apply latchAt_stays | split)) | split | intro _

theorem homeBegin_stays (g a : Nat) (s : State) (hs : Same msk s0 s) (mstrm : msk.strm = true := by assumption) (maxes : msk.axes = true := by assumption) (mgrps : msk.grps = true := by assumption) (msch : msk.sch = true := by assumption) (mio : msk.io = true := by assumption) (mstp : msk.stp = true := by assumption) : Same msk s0 (homeBegin g a s) := by
  unfold homeBegin
  try dsimp only
  with_reducible repeat' first | assumption | apply homeFail_stays | apply homeGo_stays | apply homeSearch_stays | apply modAxis_stays | apply shiftHome_stays | (apply same_mk; (iterate 13 (first | exact Or.inr rfl | exact Or.inl ‹_›)); (first | assumption | apply homeFail_stays | apply homeGo_stays | apply homeSearch_stays | apply modAxis_stays | apply shiftHome_stays | split)) | split | intro _

theorem homeDone_stays (g a : Nat) (s : State) (hs : Same msk s0 s) (maxes : msk.axes = true := by assumption) : Same msk s0 (homeDone g a s) := by
  unfold homeDone
  try dsimp only
  with_reducible repeat' first | assumption | apply modAxis_stays | (apply same_mk; (iterate 13 (first | exact Or.inr rfl | exact Or.inl ‹_›)); (first | assumption | apply modAxis_stays | split)) | split | intro _

theorem homeAxisTick_stays (g a : Nat) (s : State) (hs : Same msk s0 s) (maxes : msk.axes = true := by assumption) : Same msk s0 (homeAxisTick g a s) := by
  unfold homeAxisTick
  try dsimp only
  with_reducible repeat' first | assumption | apply homeDone_stays | apply homeGo_stays | apply homeSearch_stays | apply homeTo_stays | (apply same_mk; (iterate 13 (first | exact Or.inr rfl | exact Or.inl ‹_›)); (first | assumption | apply homeDone_stays | apply homeGo_stays | apply homeSearch_stays | apply homeTo_stays | split)) | split | intro _

theorem homePhase_stays (g n fuel : Nat) (s : State) (hs : Same msk s0 s) (mstrm : msk.strm = true := by assumption) (maxes : msk.axes = true := by assumption) (mgrps : msk.grps = true := by assumption) (msch : msk.sch = true := by assumption) (mio : msk.io = true := by assumption) (mstp : msk.stp = true := by assumption) : Same msk s0 (homePhase g n fuel s) := by
  induction fuel generalizing n s with
  | zero => exact hs
  | succ fuel ih =>
    unfold homePhase
    split
    · split
      · exact grpTo_stays _ _ _ (resetMotion_stays _ _ (modGrp_stays _ _ _ hs))
      · exact hs
    · extract_lets ms s1 s2
      have h1 : Same msk s0 s1 := by
        refine forNat_stays _ _ _ (fun a t ht => ?_) (modGrp_stays _ _ _ hs)
        split
        · exact homeBegin_stays _ _ _ ht
        · exact ht
      clear_value s1
      have h2 : Same msk s0 s2 := by
        refine forNat_stays _ _ _ (fun a t ht => ?_) h1
        split
        · exact homeDone_stays _ _ _ ht
        · exact ht
      clear_value s2
      split
      · exact ih _ _ h2
      · exact h2

theorem homeCadence_stays (g : Nat) (s : State) (hs : Same msk s0 s) (mstrm : msk.strm = true := by assumption) (maxes : msk.axes = true := by assumption) (mgrps : msk.grps = true := by assumption) (msch : msk.sch = true := by assumption) (mio : msk.io = true := by assumption) (mstp : msk.stp = true := by assumption) : Same msk s0 (homeCadence g s) := by
  unfold homeCadence
  try dsimp only
  with_reducible repeat' first | assumption | apply forNat_stays | apply homeAxisTick_stays | apply homePhase_stays | (apply same_mk; (iterate 13 (first | exact Or.inr rfl | exact Or.inl ‹_›)); (first | assumption | apply forNat_stays | apply homeAxisTick_stays | apply homePhase_stays | split)) | split | intro _

theorem beginHome_stays (g : Nat) (s : State) (hs : Same msk s0 s) (mstrm : msk.strm = true := by assumption) (maxes : msk.axes = true := by assumption) (mgrps : msk.grps = true := by assumption) (msch : msk.sch = true := by assumption) (mio : msk.io = true := by assumption) (mstp : msk.stp = true := by assumption) : Same msk s0 (beginHome g s) := by
  unfold beginHome
  try dsimp only
  with_reducible repeat' first | assumption | apply forNat_stays | apply grpTo_stays | apply homePhase_stays | apply modAxis_stays | apply modGrp_stays | (apply same_mk; (iterate 13 (first | exact Or.inr rfl | exact Or.inl ‹_›)); (first | assumption | apply forNat_stays | apply grpTo_stays | apply homePhase_stays | apply modAxis_stays | apply modGrp_stays | split)) | split | intro _

theorem slavesFollow_stays (g : Nat) (s : State) (hs : Same msk s0 s) (maxes : msk.axes = true := by assumption) : Same msk s0 (slavesFollow g s) := by
  unfold slavesFollow
  try dsimp only
  with_reducible repeat' first | assumption | apply forNat_stays | apply modAxis_stays | (apply same_mk; (iterate 13 (first | exact Or.inr rfl | exact Or.inl ‹_›)); (first | assumption | apply forNat_stays | apply modAxis_stays | split)) | split | intro _

theorem homeFailLater_stays (g a reason : Nat) (s : State) (hs : Same msk s0 s) (mgrps : msk.grps = true := by assumption) : Same msk s0 (homeFailLater g a reason s) := by
  unfold homeFailLater
  try dsimp only
  with_reducible repeat' first | assumption | apply modGrp_stays | (apply same_mk; (iterate 13 (first | exact Or.inr rfl | exact Or.inl ‹_›)); (first | assumption | apply modGrp_stays | split)) | split | intro _

theorem homeRecord_stays (a : Nat) (s : State) (hs : Same msk s0 s) (maxes : msk.axes = true := by assumption) : Same msk s0 (homeRecord a s) := by
  unfold homeRecord
  try dsimp only
  with_reducible repeat' first | assumption | apply forNat_stays | apply homeRest_stays | apply latchAt_stays | apply latchRetry_stays | apply modAxis_stays | (apply same_mk; (iterate 13 (first | exact Or.inr rfl | exact Or.inl ‹_›)); (first | assumption | apply forNat_stays | apply homeRest_stays | apply latchAt_stays | apply latchRetry_stays | apply modAxis_stays | split)) | split | intro _

theorem homeInput_stays (g a c : Nat) (s : State) (hs : Same msk s0 s) (maxes : msk.axes = true := by assumption) (mgrps : msk.grps = true := by assumption) : Same msk s0 (homeInput g a c s) := by
  unfold homeInput
  try dsimp only
  with_reducible repeat' first | assumption | apply homeFailLater_stays | apply homeRest_stays | apply latchAt_stays | apply modAxis_stays | (apply same_mk; (iterate 13 (first | exact Or.inr rfl | exact Or.inl ‹_›)); (first | assumption | apply homeFailLater_stays | apply homeRest_stays | apply latchAt_stays | apply modAxis_stays | split)) | split | intro _

theorem limitStop_stays (a : Nat) (s : State) (hs : Same msk s0 s) (maxes : msk.axes = true := by assumption) (mgrps : msk.grps = true := by assumption) : Same msk s0 (limitStop a s) := by
  unfold limitStop
  try dsimp only
  with_reducible repeat' first | assumption | apply reqStopAxis_stays | apply reqStopGrp_stays | (apply same_mk; (iterate 13 (first | exact Or.inr rfl | exact Or.inl ‹_›)); (first | assumption | apply reqStopAxis_stays | apply reqStopGrp_stays | split)) | split | intro _

theorem axisQualify_stays (c a : Nat) (s : State) (hs : Same msk s0 s) (maxes : msk.axes = true := by assumption) (mgrps : msk.grps = true := by assumption) : Same msk s0 (axisQualify c a s) := by
  unfold axisQualify
  try dsimp only
  with_reducible repeat' first | assumption | apply homeInput_stays | apply limitStop_stays | apply modAxis_stays | (apply same_mk; (iterate 13 (first | exact Or.inr rfl | exact Or.inl ‹_›)); (first | assumption | apply homeInput_stays | apply limitStop_stays | apply modAxis_stays | split)) | split | intro _

theorem stpQualify_stays (c n : Nat) (s : State) (hs : Same msk s0 s) (mstp : msk.stp = true := by assumption) : Same msk s0 (stpQualify c n s) := by
  unfold stpQualify
  try dsimp only
  with_reducible repeat' first | assumption | apply stpPut_stays | apply setStp_stays | apply stpInput_stays | (apply same_mk; (iterate 13 (first | exact Or.inr rfl | exact Or.inl ‹_›)); (first | assumption | apply stpPut_stays | apply setStp_stays | apply stpInput_stays | split)) | split | intro _

theorem inputQualified_stays (c : Nat) (s : State) (hs : Same msk s0 s) (maxes : msk.axes = true := by assumption) (mgrps : msk.grps = true := by assumption) (mstp : msk.stp = true := by assumption) : Same msk s0 (inputQualified c s) := by
  unfold inputQualified
  try dsimp only
  with_reducible repeat' first | assumption | apply advanceTo_stays | apply axisQualify_stays | apply forNat_stays | apply stpQualify_stays | apply foldl_stays | (apply same_mk; (iterate 13 (first | exact Or.inr rfl | exact Or.inl ‹_›)); (first | assumption | apply advanceTo_stays | apply axisQualify_stays | apply forNat_stays | apply stpQualify_stays | apply foldl_stays | split)) | split | intro _

theorem chatter_stays (c : Nat) (s : State) (hs : Same msk s0 s) (mgrps : msk.grps = true := by assumption) (mstp : msk.stp = true := by assumption) : Same msk s0 (chatter c s) := by
  unfold chatter
  try dsimp only
  with_reducible repeat' first | assumption | apply forNat_stays | apply homeFailLater_stays | apply stpHomeFail_stays | (apply same_mk; (iterate 13 (first | exact Or.inr rfl | exact Or.inl ‹_›)); (first | assumption | apply forNat_stays | apply homeFailLater_stays | apply stpHomeFail_stays | split)) | split | intro _

theorem notFound_stays (a : Nat) (s : State) (hs : Same msk s0 s) (mgrps : msk.grps = true := by assumption) : Same msk s0 (notFound a s) := by
  unfold notFound
  try dsimp only
  with_reducible repeat' first | assumption | apply homeFailLater_stays | (apply same_mk; (iterate 13 (first | exact Or.inr rfl | exact Or.inl ‹_›)); (first | assumption | apply homeFailLater_stays | split)) | split | intro _

theorem hardStopLatch_stays (a : Nat) (s : State) (hs : Same msk s0 s) (maxes : msk.axes = true := by assumption) : Same msk s0 (hardStopLatch a s) := by
  unfold hardStopLatch
  try dsimp only
  with_reducible repeat' first | assumption | apply homeGo_stays | apply homeTo_stays | apply latchPoint_stays | (apply same_mk; (iterate 13 (first | exact Or.inr rfl | exact Or.inl ‹_›)); (first | assumption | apply homeGo_stays | apply homeTo_stays | apply latchPoint_stays | split)) | split | intro _

theorem setSsm_stays (g : Nat) (x : SsmGrp) (s : State) (hs : Same msk s0 s) (mssm : msk.ssm = true := by assumption) : Same msk s0 (setSsm g x s) := by
  unfold setSsm
  try dsimp only
  with_reducible repeat' first | assumption | (apply same_mk; (iterate 13 (first | exact Or.inr rfl | exact Or.inl ‹_›)); (first | assumption | split)) | split | intro _

theorem modSsm_stays (g : Nat) (f : SsmGrp → SsmGrp) (s : State) (hs : Same msk s0 s) (mssm : msk.ssm = true := by assumption) : Same msk s0 (modSsm g f s) := by
  unfold modSsm
  try dsimp only
  with_reducible repeat' first | assumption | apply setSsm_stays | (apply same_mk; (iterate 13 (first | exact Or.inr rfl | exact Or.inl ‹_›)); (first | assumption | apply setSsm_stays | split)) | split | intro _

theorem setSens_stays (n : Nat) (x : Sensor) (s : State) (hs : Same msk s0 s) (mssm : msk.ssm = true := by assumption) : Same msk s0 (setSens n x s) := by
  unfold setSens
  try dsimp only
  with_reducible repeat' first | assumption | (apply same_mk; (iterate 13 (first | exact Or.inr rfl | exact Or.inl ‹_›)); (first | assumption | split)) | split | intro _

theorem guardGroup_stays (g : Nat) (s : State) (hs : Same msk s0 s) (mstrm : msk.strm = true := by assumption) (maxes : msk.axes = true := by assumption) (mgrps : msk.grps = true := by assumption) (msch : msk.sch = true := by assumption) (mio : msk.io = true := by assumption) (mstp : msk.stp = true := by assumption) (mssm : msk.ssm = true := by assumption) : Same msk s0 (guardGroup g s) := by
  unfold guardGroup
  try dsimp only
  with_reducible repeat' first | assumption | apply setSsm_stays | apply verdict_stays | (apply same_mk; (iterate 13 (first | exact Or.inr rfl | exact Or.inl ‹_›)); (first | assumption | apply setSsm_stays | apply verdict_stays | split)) | split | intro _

theorem noteReason_stays (g reason : Nat) (s : State) (hs : Same msk s0 s) (mssm : msk.ssm = true := by assumption) : Same msk s0 (noteReason g reason s) := by
  unfold noteReason
  try dsimp only
  with_reducible repeat' first | assumption | apply modSsm_stays | (apply same_mk; (iterate 13 (first | exact Or.inr rfl | exact Or.inl ‹_›)); (first | assumption | apply modSsm_stays | split)) | split | intro _

theorem takeStops_stays (g : Nat) (s : State) (hs : Same msk s0 s) (mstrm : msk.strm = true := by assumption) (maxes : msk.axes = true := by assumption) (mgrps : msk.grps = true := by assumption) (msch : msk.sch = true := by assumption) (mio : msk.io = true := by assumption) (mstp : msk.stp = true := by assumption) : Same msk s0 (takeStops g s) := by
  unfold takeStops
  try dsimp only
  with_reducible repeat' first | assumption | apply modGrp_stays | apply stopGroup_stays | apply foldl_stays | (apply same_mk; (iterate 13 (first | exact Or.inr rfl | exact Or.inl ‹_›)); (first | assumption | apply modGrp_stays | apply stopGroup_stays | apply foldl_stays | split)) | split | intro _

theorem sepRequest_stays (g cat : Nat) (s : State) (hs : Same msk s0 s) (mstrm : msk.strm = true := by assumption) (maxes : msk.axes = true := by assumption) (mgrps : msk.grps = true := by assumption) (msch : msk.sch = true := by assumption) (mio : msk.io = true := by assumption) (mstp : msk.stp = true := by assumption) : Same msk s0 (sepRequest g cat s) := by
  unfold sepRequest
  try dsimp only
  with_reducible repeat' first | assumption | apply reqStopGrp_stays | apply takeStops_stays | (apply same_mk; (iterate 13 (first | exact Or.inr rfl | exact Or.inl ‹_›)); (first | assumption | apply reqStopGrp_stays | apply takeStops_stays | split)) | split | intro _

theorem sepStop_stays (g cat reason : Nat) (detail : List Byte) (s : State) (hs : Same msk s0 s) (mstrm : msk.strm = true := by assumption) (maxes : msk.axes = true := by assumption) (mgrps : msk.grps = true := by assumption) (msch : msk.sch = true := by assumption) (mio : msk.io = true := by assumption) (mstp : msk.stp = true := by assumption) (mssm : msk.ssm = true := by assumption) : Same msk s0 (sepStop g cat reason detail s) := by
  unfold sepStop
  try dsimp only
  with_reducible repeat' first | assumption | apply journal_stays | apply modSsm_stays | apply noteReason_stays | apply raiseIf_stays | apply sepRequest_stays | (apply same_mk; (iterate 13 (first | exact Or.inr rfl | exact Or.inl ‹_›)); (first | assumption | apply journal_stays | apply modSsm_stays | apply noteReason_stays | apply raiseIf_stays | apply sepRequest_stays | split)) | split | intro _

theorem ch2Issued_stays (g : Nat) (s : State) (hs : Same msk s0 s) (mssm : msk.ssm = true := by assumption) : Same msk s0 (ch2Issued g s) := by
  unfold ch2Issued
  try dsimp only
  with_reducible repeat' first | assumption | apply modSsm_stays | (apply same_mk; (iterate 13 (first | exact Or.inr rfl | exact Or.inl ‹_›)); (first | assumption | apply modSsm_stays | split)) | split | intro _

theorem contactStop_stays (g code : Nat) (s : State) (hs : Same msk s0 s) (mstrm : msk.strm = true := by assumption) (maxes : msk.axes = true := by assumption) (mgrps : msk.grps = true := by assumption) (msch : msk.sch = true := by assumption) (mio : msk.io = true := by assumption) (mstp : msk.stp = true := by assumption) (mssm : msk.ssm = true := by assumption) : Same msk s0 (contactStop g code s) := by
  unfold contactStop
  try dsimp only
  with_reducible repeat' first | assumption | apply sepStop_stays | (apply same_mk; (iterate 13 (first | exact Or.inr rfl | exact Or.inl ‹_›)); (first | assumption | apply sepStop_stays | split)) | split | intro _

theorem contacts_stays (s : State) (hs : Same msk s0 s) (mstrm : msk.strm = true := by assumption) (maxes : msk.axes = true := by assumption) (mgrps : msk.grps = true := by assumption) (msch : msk.sch = true := by assumption) (mio : msk.io = true := by assumption) (mstp : msk.stp = true := by assumption) (mssm : msk.ssm = true := by assumption) : Same msk s0 (contacts s) := by
  unfold contacts
  try dsimp only
  with_reducible repeat' first | assumption | apply contactStop_stays | apply forNat_stays | apply foldl_stays | (apply same_mk; (iterate 13 (first | exact Or.inr rfl | exact Or.inl ‹_›)); (first | assumption | apply contactStop_stays | apply forNat_stays | apply foldl_stays | split)) | split | intro _

theorem sendVerdicts_stays (s : State) (hs : Same msk s0 s)  : Same msk s0 (sendVerdicts s) := by
  unfold sendVerdicts
  try dsimp only
  with_reducible repeat' first | assumption | apply forNat_stays | apply xsend_stays | (apply same_mk; (iterate 13 (first | exact Or.inr rfl | exact Or.inl ‹_›)); (first | assumption | apply forNat_stays | apply xsend_stays | split)) | split | intro _

theorem guardSnapshot_stays (s : State) (hs : Same msk s0 s) (mstrm : msk.strm = true := by assumption) (maxes : msk.axes = true := by assumption) (mgrps : msk.grps = true := by assumption) (msch : msk.sch = true := by assumption) (mio : msk.io = true := by assumption) (mstp : msk.stp = true := by assumption) (mssm : msk.ssm = true := by assumption) : Same msk s0 (guardSnapshot s) := by
  unfold guardSnapshot
  split
  · extract_lets s1 s2 n
    have h2 : Same msk s0 s2 := contacts_stays _ (forNat_stays _ _ _ (fun n t ht => guardGroup_stays _ _ ht) hs)
    clear_value s2 n
    refine countN_stays _ _ _ _ (countN_stays _ _ _ _ (sendVerdicts_stays _ ?_))
    apply same_mk; (iterate 13 (first | exact Or.inr rfl | exact Or.inl ‹_›)); exact h2
  · exact hs

theorem freewheel2_stays (s : State) (hs : Same msk s0 s) (maxes : msk.axes = true := by assumption) : Same msk s0 (freewheel2 s) := by
  unfold freewheel2
  try dsimp only
  with_reducible repeat' first | assumption | apply forNat_stays | apply modAxis_stays | (apply same_mk; (iterate 13 (first | exact Or.inr rfl | exact Or.inl ‹_›)); (first | assumption | apply forNat_stays | apply modAxis_stays | split)) | split | intro _

theorem blackCopy_stays (a : Nat) (entry : List Byte) (s : State) (hs : Same msk s0 s) (maxes : msk.axes = true := by assumption) : Same msk s0 (blackCopy a entry s) := by
  unfold blackCopy
  try dsimp only
  with_reducible repeat' first | assumption | apply count_stays | apply modAxis_stays | (apply same_mk; (iterate 13 (first | exact Or.inr rfl | exact Or.inl ‹_›)); (first | assumption | apply count_stays | apply modAxis_stays | split)) | split | intro _

theorem setZone_stays (z : Nat) (v : Zone) (s : State) (hs : Same msk s0 s) (mssm : msk.ssm = true := by assumption) : Same msk s0 (setZone z v s) := by
  unfold setZone
  try dsimp only
  with_reducible repeat' first | assumption | (apply same_mk; (iterate 13 (first | exact Or.inr rfl | exact Or.inl ‹_›)); (first | assumption | split)) | split | intro _

theorem zoneRelease_stays (b z : Nat) (s : State) (hs : Same msk s0 s) (mssm : msk.ssm = true := by assumption) : Same msk s0 (zoneRelease b z s) := by
  unfold zoneRelease
  try dsimp only
  with_reducible repeat' first | assumption | apply setZone_stays | (apply same_mk; (iterate 13 (first | exact Or.inr rfl | exact Or.inl ‹_›)); (first | assumption | apply setZone_stays | split)) | split | intro _

theorem zoneGrant_stays (b z : Nat) (s : State) (hs : Same msk s0 s) (mssm : msk.ssm = true := by assumption) : Same msk s0 (zoneGrant b z s) := by
  unfold zoneGrant
  try dsimp only
  with_reducible repeat' first | assumption | apply raise_stays | apply setZone_stays | (apply same_mk; (iterate 13 (first | exact Or.inr rfl | exact Or.inl ‹_›)); (first | assumption | apply raise_stays | apply setZone_stays | split)) | split | intro _

theorem zoneCharge_stays (s : State) (hs : Same msk s0 s) (msch : msk.sch = true := by assumption) : Same msk s0 (zoneCharge s) := by
  unfold zoneCharge
  try dsimp only
  with_reducible repeat' first | assumption | apply setShares_stays | (apply same_mk; (iterate 13 (first | exact Or.inr rfl | exact Or.inl ‹_›)); (first | assumption | apply setShares_stays | split)) | split | intro _

theorem zoneBoundary_stays (b : Nat) (s : State) (hs : Same msk s0 s) (msch : msk.sch = true := by assumption) (mssm : msk.ssm = true := by assumption) : Same msk s0 (zoneBoundary b s) := by
  unfold zoneBoundary
  try dsimp only
  with_reducible repeat' first | assumption | apply forNat_stays | apply zoneCharge_stays | apply zoneGrant_stays | apply zoneRelease_stays | (apply same_mk; (iterate 13 (first | exact Or.inr rfl | exact Or.inl ‹_›)); (first | assumption | apply forNat_stays | apply zoneCharge_stays | apply zoneGrant_stays | apply zoneRelease_stays | split)) | split | intro _

theorem zoneRefused_stays (z : Nat) (s : State) (hs : Same msk s0 s) (msch : msk.sch = true := by assumption) (mssm : msk.ssm = true := by assumption) : Same msk s0 (zoneRefused z s) := by
  unfold zoneRefused
  try dsimp only
  with_reducible repeat' first | assumption | apply raise_stays | apply setZone_stays | apply zoneCharge_stays | (apply same_mk; (iterate 13 (first | exact Or.inr rfl | exact Or.inl ‹_›)); (first | assumption | apply raise_stays | apply setZone_stays | apply zoneCharge_stays | split)) | split | intro _

theorem laHold_stays (g : Nat) (s : State) (hs : Same msk s0 s) (mgrps : msk.grps = true := by assumption) : Same msk s0 (laHold g s) := by
  unfold laHold
  try dsimp only
  with_reducible repeat' first | assumption | apply journal_stays | apply pathStop_stays | (apply same_mk; (iterate 13 (first | exact Or.inr rfl | exact Or.inl ‹_›)); (first | assumption | apply journal_stays | apply pathStop_stays | split)) | split | intro _

theorem sensorRecord_stays (k st : Nat) (b : List Byte) (s : State) (hs : Same msk s0 s) (mssm : msk.ssm = true := by assumption) : Same msk s0 (sensorRecord k st b s) := by
  unfold sensorRecord
  try dsimp only
  with_reducible repeat' first | assumption | apply count_stays | apply setSens_stays | apply xsend_stays | (apply same_mk; (iterate 13 (first | exact Or.inr rfl | exact Or.inl ‹_›)); (first | assumption | apply count_stays | apply setSens_stays | apply xsend_stays | split)) | split | intro _

theorem sensorBoundary_stays (n : Nat) (s : State) (hs : Same msk s0 s) (mssm : msk.ssm = true := by assumption) : Same msk s0 (sensorBoundary n s) := by
  unfold sensorBoundary
  try dsimp only
  with_reducible repeat' first | assumption | apply count_stays | apply journal_stays | apply setSens_stays | (apply same_mk; (iterate 13 (first | exact Or.inr rfl | exact Or.inl ‹_›)); (first | assumption | apply count_stays | apply journal_stays | apply setSens_stays | split)) | split | intro _

theorem guardBoundary_stays (s : State) (hs : Same msk s0 s) (mcad : msk.cad = true := by assumption) (mssm : msk.ssm = true := by assumption) : Same msk s0 (guardBoundary s) := by
  unfold guardBoundary
  try dsimp only
  with_reducible repeat' first | assumption | apply forNat_stays | apply sensorBoundary_stays | (apply same_mk; (iterate 13 (first | exact Or.inr rfl | exact Or.inl ‹_›)); (first | assumption | apply forNat_stays | apply sensorBoundary_stays | split)) | split | intro _

theorem sensorStale_stays (n : Nat) (s : State) (hs : Same msk s0 s) (mssm : msk.ssm = true := by assumption) : Same msk s0 (sensorStale n s) := by
  unfold sensorStale
  try dsimp only
  with_reducible repeat' first | assumption | apply count_stays | apply journal_stays | apply raise_stays | apply setSens_stays | (apply same_mk; (iterate 13 (first | exact Or.inr rfl | exact Or.inl ‹_›)); (first | assumption | apply count_stays | apply journal_stays | apply raise_stays | apply setSens_stays | split)) | split | intro _

theorem ch2Verdict_stays (p : Nat) (s : State) (hs : Same msk s0 s) (mssm : msk.ssm = true := by assumption) : Same msk s0 (ch2Verdict p s) := by
  unfold ch2Verdict
  try dsimp only
  with_reducible repeat' first | assumption | apply forNat_stays | apply modSsm_stays | (apply same_mk; (iterate 13 (first | exact Or.inr rfl | exact Or.inl ‹_›)); (first | assumption | apply forNat_stays | apply modSsm_stays | split)) | split | intro _

theorem setGov_stays (g k : Nat) (s : State) (hs : Same msk s0 s) (mgrps : msk.grps = true := by assumption) : Same msk s0 (setGov g k s) := by
  unfold setGov
  try dsimp only
  with_reducible repeat' first | assumption | apply modGrp_stays | apply raise_stays | (apply same_mk; (iterate 13 (first | exact Or.inr rfl | exact Or.inl ‹_›)); (first | assumption | apply modGrp_stays | apply raise_stays | split)) | split | intro _

theorem verdictGroup_stays (g : Nat) (s : State) (hs : Same msk s0 s) (mstrm : msk.strm = true := by assumption) (maxes : msk.axes = true := by assumption) (mgrps : msk.grps = true := by assumption) (msch : msk.sch = true := by assumption) (mio : msk.io = true := by assumption) (mstp : msk.stp = true := by assumption) (mssm : msk.ssm = true := by assumption) : Same msk s0 (verdictGroup g s) := by
  unfold verdictGroup
  try dsimp only
  with_reducible repeat' first | assumption | apply ch2Issued_stays | apply noteReason_stays | apply raiseIf_stays | apply sepRequest_stays | apply sepStop_stays | apply setGov_stays | apply setSsm_stays | (apply same_mk; (iterate 13 (first | exact Or.inr rfl | exact Or.inl ‹_›)); (first | assumption | apply ch2Issued_stays | apply noteReason_stays | apply raiseIf_stays | apply sepRequest_stays | apply sepStop_stays | apply setGov_stays | apply setSsm_stays | split)) | split | intro _

theorem verdictFree_stays (g : Nat) (s : State) (hs : Same msk s0 s) (mgrps : msk.grps = true := by assumption) : Same msk s0 (verdictFree g s) := by
  unfold verdictFree
  try dsimp only
  with_reducible repeat' first | assumption | apply setGov_stays | (apply same_mk; (iterate 13 (first | exact Or.inr rfl | exact Or.inl ‹_›)); (first | assumption | apply setGov_stays | split)) | split | intro _

theorem verdict_stays (s : State) (hs : Same msk s0 s) (mstrm : msk.strm = true := by assumption) (maxes : msk.axes = true := by assumption) (mgrps : msk.grps = true := by assumption) (msch : msk.sch = true := by assumption) (mio : msk.io = true := by assumption) (mstp : msk.stp = true := by assumption) (mssm : msk.ssm = true := by assumption) : Same msk s0 (verdict s) := by
  unfold verdict
  try dsimp only
  with_reducible repeat' first | assumption | apply forNat_stays | apply sepStop_stays | apply verdictFree_stays | apply verdictGroup_stays | (apply same_mk; (iterate 13 (first | exact Or.inr rfl | exact Or.inl ‹_›)); (first | assumption | apply forNat_stays | apply sepStop_stays | apply verdictFree_stays | apply verdictGroup_stays | split)) | split | intro _

theorem tandemMismatch_stays (g : Nat) (s : State) (hs : Same msk s0 s) (mstrm : msk.strm = true := by assumption) (maxes : msk.axes = true := by assumption) (mgrps : msk.grps = true := by assumption) (msch : msk.sch = true := by assumption) (mio : msk.io = true := by assumption) (mstp : msk.stp = true := by assumption) (mssm : msk.ssm = true := by assumption) : Same msk s0 (tandemMismatch g s) := by
  unfold tandemMismatch
  try dsimp only
  with_reducible repeat' first | assumption | apply journal_stays | apply modSsm_stays | apply noteReason_stays | apply raise_stays | apply sepRequest_stays | (apply same_mk; (iterate 13 (first | exact Or.inr rfl | exact Or.inl ‹_›)); (first | assumption | apply journal_stays | apply modSsm_stays | apply noteReason_stays | apply raise_stays | apply sepRequest_stays | split)) | split | intro _

theorem verdictAbsent_stays (g : Nat) (s : State) (hs : Same msk s0 s) (mstrm : msk.strm = true := by assumption) (maxes : msk.axes = true := by assumption) (mgrps : msk.grps = true := by assumption) (msch : msk.sch = true := by assumption) (mio : msk.io = true := by assumption) (mstp : msk.stp = true := by assumption) (mssm : msk.ssm = true := by assumption) : Same msk s0 (verdictAbsent g s) := by
  unfold verdictAbsent
  try dsimp only
  with_reducible repeat' first | assumption | apply sepStop_stays | (apply same_mk; (iterate 13 (first | exact Or.inr rfl | exact Or.inl ‹_›)); (first | assumption | apply sepStop_stays | split)) | split | intro _

theorem speedExceeded_stays (g : Nat) (second : Bool) (s : State) (hs : Same msk s0 s) (mstrm : msk.strm = true := by assumption) (maxes : msk.axes = true := by assumption) (mgrps : msk.grps = true := by assumption) (msch : msk.sch = true := by assumption) (mio : msk.io = true := by assumption) (mstp : msk.stp = true := by assumption) (mssm : msk.ssm = true := by assumption) : Same msk s0 (speedExceeded g second s) := by
  unfold speedExceeded
  try dsimp only
  with_reducible repeat' first | assumption | apply ch2Issued_stays | apply sepStop_stays | (apply same_mk; (iterate 13 (first | exact Or.inr rfl | exact Or.inl ‹_›)); (first | assumption | apply ch2Issued_stays | apply sepStop_stays | split)) | split | intro _

theorem ch2Feedback_stays (g : Nat) (s : State) (hs : Same msk s0 s) (mstrm : msk.strm = true := by assumption) (maxes : msk.axes = true := by assumption) (mgrps : msk.grps = true := by assumption) (msch : msk.sch = true := by assumption) (mio : msk.io = true := by assumption) (mstp : msk.stp = true := by assumption) (mssm : msk.ssm = true := by assumption) : Same msk s0 (ch2Feedback g s) := by
  unfold ch2Feedback
  try dsimp only
  with_reducible repeat' first | assumption | apply ch2Issued_stays | apply sepStop_stays | (apply same_mk; (iterate 13 (first | exact Or.inr rfl | exact Or.inl ‹_›)); (first | assumption | apply ch2Issued_stays | apply sepStop_stays | split)) | split | intro _

theorem ch2Override_stays (g : Nat) (s : State) (hs : Same msk s0 s) (mio : msk.io = true := by assumption) (mssm : msk.ssm = true := by assumption) : Same msk s0 (ch2Override g s) := by
  unfold ch2Override
  try dsimp only
  with_reducible repeat' first | assumption | apply advanceTo_stays | apply count_stays | apply journalF_stays | apply modChan_stays | apply modSsm_stays | apply pinsOff_stays | (apply same_mk; (iterate 13 (first | exact Or.inr rfl | exact Or.inl ‹_›)); (first | assumption | apply advanceTo_stays | apply count_stays | apply journalF_stays | apply modChan_stays | apply modSsm_stays | apply pinsOff_stays | split)) | split | intro _

theorem obstacleSnapshot_stays (s : State) (hs : Same msk s0 s) (mssm : msk.ssm = true := by assumption) : Same msk s0 (obstacleSnapshot s) := by
  unfold obstacleSnapshot
  try dsimp only
  with_reducible repeat' first | assumption | apply foldl_stays | (apply same_mk; (iterate 13 (first | exact Or.inr rfl | exact Or.inl ‹_›)); (first | assumption | apply foldl_stays | split)) | split | intro _

theorem sensorEff_stays (e : Eff) (s : State) (hs : Same msk s0 s) (mssm : msk.ssm = true := by assumption) : Same msk s0 (sensorEff e s) := by
  unfold sensorEff
  try dsimp only
  with_reducible repeat' first | assumption | apply setSens_stays | (apply same_mk; (iterate 13 (first | exact Or.inr rfl | exact Or.inl ‹_›)); (first | assumption | apply setSens_stays | split)) | split | intro _

theorem putDev_stays (l : List Nat) (u : BitVec 8) (s : State) (hs : Same msk s0 s) (msig : msk.sig = true := by assumption) : Same msk s0 (putDev l u s) := by
  unfold putDev
  try dsimp only
  with_reducible repeat' first | assumption | apply foldl_stays | (apply same_mk; (iterate 13 (first | exact Or.inr rfl | exact Or.inl ‹_›)); (first | assumption | apply foldl_stays | split)) | split | intro _

theorem sepSignals_stays (s : State) (hs : Same msk s0 s) (msig : msk.sig = true := by assumption) : Same msk s0 (sepSignals s) := by
  unfold sepSignals
  try dsimp only
  with_reducible repeat' first | assumption | apply putDev_stays | (apply same_mk; (iterate 13 (first | exact Or.inr rfl | exact Or.inl ‹_›)); (first | assumption | apply putDev_stays | split)) | split | intro _

theorem updateMapped_stays (e : Nat × SigMap) (s : State) (hs : Same msk s0 s) (msig : msk.sig = true := by assumption) : Same msk s0 (updateMapped e s) := by
  unfold updateMapped
  try dsimp only
  with_reducible repeat' first | assumption | (apply same_mk; (iterate 13 (first | exact Or.inr rfl | exact Or.inl ‹_›)); (first | assumption | split)) | split | intro _

theorem showWrite_stays (w : Nat × Nat × Nat) (s : State) (hs : Same msk s0 s) (msig : msk.sig = true := by assumption) : Same msk s0 (showWrite w s) := by
  unfold showWrite
  try dsimp only
  with_reducible repeat' first | assumption | (apply same_mk; (iterate 13 (first | exact Or.inr rfl | exact Or.inl ‹_›)); (first | assumption | split)) | split | intro _

theorem watchStep_stays (i : Nat) (s : State) (hs : Same msk s0 s) (msig : msk.sig = true := by assumption) : Same msk s0 (watchStep i s) := by
  unfold watchStep
  try dsimp only
  with_reducible repeat' first | assumption | apply raiseIf_stays | (apply same_mk; (iterate 13 (first | exact Or.inr rfl | exact Or.inl ‹_›)); (first | assumption | apply raiseIf_stays | split)) | split | intro _

theorem sigUpdate_stays (s : State) (hs : Same msk s0 s) (msig : msk.sig = true := by assumption) : Same msk s0 (sigUpdate s) := by
  unfold sigUpdate
  try dsimp only
  with_reducible repeat' first | assumption | apply forNat_stays | apply putDev_stays | apply showWrite_stays | apply updateMapped_stays | apply watchStep_stays | apply foldl_stays | (apply same_mk; (iterate 13 (first | exact Or.inr rfl | exact Or.inl ‹_›)); (first | assumption | apply forNat_stays | apply putDev_stays | apply showWrite_stays | apply updateMapped_stays | apply watchStep_stays | apply foldl_stays | split)) | split | intro _

theorem sigPoison_stays (n : Nat) (s : State) (hs : Same msk s0 s) (msig : msk.sig = true := by assumption) : Same msk s0 (sigPoison n s) := by
  unfold sigPoison
  try dsimp only
  with_reducible repeat' first | assumption | apply forNat_stays | apply raise_stays | (apply same_mk; (iterate 13 (first | exact Or.inr rfl | exact Or.inl ‹_›)); (first | assumption | apply forNat_stays | apply raise_stays | split)) | split | intro _

theorem sigMapEff_stays (e : Eff) (s : State) (hs : Same msk s0 s) (msig : msk.sig = true := by assumption) : Same msk s0 (sigMapEff e s) := by
  unfold sigMapEff
  try dsimp only
  with_reducible repeat' first | assumption | apply foldl_stays | (apply same_mk; (iterate 13 (first | exact Or.inr rfl | exact Or.inl ‹_›)); (first | assumption | apply foldl_stays | split)) | split | intro _

theorem sigWriteEff_stays (e : Eff) (s : State) (hs : Same msk s0 s) (msig : msk.sig = true := by assumption) : Same msk s0 (sigWriteEff e s) := by
  unfold sigWriteEff
  try dsimp only
  with_reducible repeat' first | assumption | (apply same_mk; (iterate 13 (first | exact Or.inr rfl | exact Or.inl ‹_›)); (first | assumption | split)) | split | intro _

theorem sigWatchEff_stays (e : Eff) (s : State) (hs : Same msk s0 s) (msig : msk.sig = true := by assumption) : Same msk s0 (sigWatchEff e s) := by
  unfold sigWatchEff
  try dsimp only
  with_reducible repeat' first | assumption | (apply same_mk; (iterate 13 (first | exact Or.inr rfl | exact Or.inl ‹_›)); (first | assumption | split)) | split | intro _

theorem mbDoneWrite_stays (m : Nat) (w : Word) (s : State) (hs : Same msk s0 s)  : Same msk s0 (mbDoneWrite m w s) := by
  unfold mbDoneWrite
  try dsimp only
  with_reducible repeat' first | assumption | apply setSlot_stays | apply foldl_stays | (apply same_mk; (iterate 13 (first | exact Or.inr rfl | exact Or.inl ‹_›)); (first | assumption | apply setSlot_stays | apply foldl_stays | split)) | split | intro _

theorem mbStatWrite_stays (m : Nat) (w : Word) (s : State) (hs : Same msk s0 s)  : Same msk s0 (mbStatWrite m w s) := by
  unfold mbStatWrite
  try dsimp only
  with_reducible repeat' first | assumption | apply setMb_stays | apply violation_stays | (apply same_mk; (iterate 13 (first | exact Or.inr rfl | exact Or.inl ‹_›)); (first | assumption | apply setMb_stays | apply violation_stays | split)) | split | intro _

theorem doorbell_stays (m : Nat) (w : Word) (s : State) (hs : Same msk s0 s)  : Same msk s0 (doorbell m w s) := by
  unfold doorbell
  try dsimp only
  with_reducible repeat' first | assumption | apply count_stays | apply setMb_stays | apply setSlot_stays | (apply same_mk; (iterate 13 (first | exact Or.inr rfl | exact Or.inl ‹_›)); (first | assumption | apply count_stays | apply setMb_stays | apply setSlot_stays | split)) | split | intro _

theorem hostRing_stays (k : Nat) (b : List Byte) (s : State) (hs : Same msk s0 s)  : Same msk s0 (hostRing k b s) := by
  unfold hostRing
  try dsimp only
  with_reducible repeat' first | assumption | apply foldl_stays | (apply same_mk; (iterate 13 (first | exact Or.inr rfl | exact Or.inl ‹_›)); (first | assumption | apply foldl_stays | split)) | split | intro _

theorem prodWrite_stays (k : Nat) (w : Word) (s : State) (hs : Same msk s0 s) (mstrm : msk.strm = true := by assumption) : Same msk s0 (prodWrite k w s) := by
  unfold prodWrite
  try dsimp only
  with_reducible repeat' first | assumption | apply count_stays | apply raiseIf_stays | (apply same_mk; (iterate 13 (first | exact Or.inr rfl | exact Or.inl ‹_›)); (first | assumption | apply count_stays | apply raiseIf_stays | split)) | split | intro _

theorem prodBytes_stays (k o : Nat) (bytes : List Byte) (s : State) (hs : Same msk s0 s) (mstrm : msk.strm = true := by assumption) : Same msk s0 (prodBytes k o bytes s) := by
  unfold prodBytes
  try dsimp only
  with_reducible repeat' first | assumption | apply prodWrite_stays | (apply same_mk; (iterate 13 (first | exact Or.inr rfl | exact Or.inl ‹_›)); (first | assumption | apply prodWrite_stays | split)) | split | intro _

theorem bar2HostWrite_stays (a : Nat) (bytes : List Byte) (s : State) (hs : Same msk s0 s) (mstrm : msk.strm = true := by assumption) : Same msk s0 (bar2HostWrite a bytes s) := by
  unfold bar2HostWrite
  try dsimp only
  with_reducible repeat' first | assumption | apply bar2Write_stays | apply count_stays | apply prodBytes_stays | apply setMb_stays | apply violation_stays | (apply same_mk; (iterate 13 (first | exact Or.inr rfl | exact Or.inl ‹_›)); (first | assumption | apply bar2Write_stays | apply count_stays | apply prodBytes_stays | apply setMb_stays | apply violation_stays | split)) | split | intro _

theorem evtPendWrite_stays (i : Nat) (w again : Word) (s : State) (hs : Same msk s0 s)  : Same msk s0 (evtPendWrite i w again s) := by
  unfold evtPendWrite
  try dsimp only
  with_reducible repeat' first | assumption | apply fireVector_stays | apply raise_stays | apply foldl_stays | (apply same_mk; (iterate 13 (first | exact Or.inr rfl | exact Or.inl ‹_›)); (first | assumption | apply fireVector_stays | apply raise_stays | apply foldl_stays | split)) | split | intro _

theorem evtLostWrite_stays (i : Nat) (w : Word) (s : State) (hs : Same msk s0 s)  : Same msk s0 (evtLostWrite i w s) := by
  unfold evtLostWrite
  try dsimp only
  with_reducible repeat' first | assumption | (apply same_mk; (iterate 13 (first | exact Or.inr rfl | exact Or.inl ‹_›)); (first | assumption | split)) | split | intro _

theorem evtMaskWrite_stays (i : Nat) (w : Word) (s : State) (hs : Same msk s0 s)  : Same msk s0 (evtMaskWrite i w s) := by
  unfold evtMaskWrite
  try dsimp only
  with_reducible repeat' first | assumption | apply fireVector_stays | apply foldl_stays | (apply same_mk; (iterate 13 (first | exact Or.inr rfl | exact Or.inl ‹_›)); (first | assumption | apply fireVector_stays | apply foldl_stays | split)) | split | intro _

theorem evtMapWrite_stays (i : Nat) (w : Word) (s : State) (hs : Same msk s0 s)  : Same msk s0 (evtMapWrite i w s) := by
  unfold evtMapWrite
  try dsimp only
  with_reducible repeat' first | assumption | apply fireVector_stays | apply foldl_stays | (apply same_mk; (iterate 13 (first | exact Or.inr rfl | exact Or.inl ‹_›)); (first | assumption | apply fireVector_stays | apply foldl_stays | split)) | split | intro _

theorem sendHeld_stays (s : State) (hs : Same msk s0 s)  : Same msk s0 (sendHeld s) := by
  unfold sendHeld
  try dsimp only
  with_reducible repeat' first | assumption | apply fireVector_stays | apply foldl_stays | (apply same_mk; (iterate 13 (first | exact Or.inr rfl | exact Or.inl ‹_›)); (first | assumption | apply fireVector_stays | apply foldl_stays | split)) | split | intro _

theorem msixWrite_stays (off : Nat) (w : Word) (s : State) (hs : Same msk s0 s)  : Same msk s0 (msixWrite off w s) := by
  unfold msixWrite
  try dsimp only
  with_reducible repeat' first | assumption | apply sendHeld_stays | (apply same_mk; (iterate 13 (first | exact Or.inr rfl | exact Or.inl ‹_›)); (first | assumption | apply sendHeld_stays | split)) | split | intro _

theorem cfgByteWrite_stays (o : Nat) (b : Byte) (s : State) (hs : Same msk s0 s)  : Same msk s0 (cfgByteWrite o b s) := by
  unfold cfgByteWrite
  try dsimp only
  with_reducible repeat' first | assumption | (apply same_mk; (iterate 13 (first | exact Or.inr rfl | exact Or.inl ‹_›)); (first | assumption | split)) | split | intro _

theorem cfgWrite_stays (o : Nat) (bytes : List Byte) (s : State) (hs : Same msk s0 s)  : Same msk s0 (cfgWrite o bytes s) := by
  unfold cfgWrite
  try dsimp only
  with_reducible repeat' first | assumption | apply cfgByteWrite_stays | apply sendHeld_stays | apply foldl_stays | (apply same_mk; (iterate 13 (first | exact Or.inr rfl | exact Or.inl ‹_›)); (first | assumption | apply cfgByteWrite_stays | apply sendHeld_stays | apply foldl_stays | split)) | split | intro _

theorem hubCtl_stays (w : Word) (s : State) (hs : Same msk s0 s)  : Same msk s0 (hubCtl w s) := by
  unfold hubCtl
  try dsimp only
  with_reducible repeat' first | assumption | (apply same_mk; (iterate 13 (first | exact Or.inr rfl | exact Or.inl ‹_›)); (first | assumption | split)) | split | intro _

theorem hubPeriod_stays (w : Word) (s : State) (hs : Same msk s0 s)  : Same msk s0 (hubPeriod w s) := by
  unfold hubPeriod
  try dsimp only
  with_reducible repeat' first | assumption | (apply same_mk; (iterate 13 (first | exact Or.inr rfl | exact Or.inl ‹_›)); (first | assumption | split)) | split | intro _

theorem hubRd_stays (w : Word) (s : State) (hs : Same msk s0 s)  : Same msk s0 (hubRd w s) := by
  unfold hubRd
  try dsimp only
  with_reducible repeat' first | assumption | (apply same_mk; (iterate 13 (first | exact Or.inr rfl | exact Or.inl ‹_›)); (first | assumption | split)) | split | intro _

theorem hubMirror_stays (hi : Bool) (w : Word) (s : State) (hs : Same msk s0 s)  : Same msk s0 (hubMirror hi w s) := by
  unfold hubMirror
  try dsimp only
  with_reducible repeat' first | assumption | (apply same_mk; (iterate 13 (first | exact Or.inr rfl | exact Or.inl ‹_›)); (first | assumption | split)) | split | intro _

theorem timeLo_stays (wide : Bool) (s : State) (hs : Same msk s0 s)  : Same msk s0 (timeLo wide s) := by
  unfold timeLo
  try dsimp only
  with_reducible repeat' first | assumption | (apply same_mk; (iterate 13 (first | exact Or.inr rfl | exact Or.inl ‹_›)); (first | assumption | split)) | split | intro _

theorem timeLatchWrite_stays (w : Word) (s : State) (hs : Same msk s0 s)  : Same msk s0 (timeLatchWrite w s) := by
  unfold timeLatchWrite
  try dsimp only
  with_reducible repeat' first | assumption | apply latch_stays | (apply same_mk; (iterate 13 (first | exact Or.inr rfl | exact Or.inl ‹_›)); (first | assumption | apply latch_stays | split)) | split | intro _

theorem usrWin_stays (w : Word) (s : State) (hs : Same msk s0 s)  : Same msk s0 (usrWin w s) := by
  unfold usrWin
  try dsimp only
  with_reducible repeat' first | assumption | (apply same_mk; (iterate 13 (first | exact Or.inr rfl | exact Or.inl ‹_›)); (first | assumption | split)) | split | intro _

theorem usrGrant_stays (w : Word) (s : State) (hs : Same msk s0 s)  : Same msk s0 (usrGrant w s) := by
  unfold usrGrant
  try dsimp only
  with_reducible repeat' first | assumption | (apply same_mk; (iterate 13 (first | exact Or.inr rfl | exact Or.inl ‹_›)); (first | assumption | split)) | split | intro _

theorem usrCtl_stays (w : Word) (s : State) (hs : Same msk s0 s)  : Same msk s0 (usrCtl w s) := by
  unfold usrCtl
  try dsimp only
  with_reducible repeat' first | assumption | (apply same_mk; (iterate 13 (first | exact Or.inr rfl | exact Or.inl ‹_›)); (first | assumption | split)) | split | intro _

theorem bar0Write_stays (o : Nat) (w : Word) (s : State) (hs : Same msk s0 s)  : Same msk s0 (bar0Write o w s) := by
  unfold bar0Write
  refine ite_stays _ hs (ite_stays _ (ite_stays _ (doorbell_stays _ _ _ hs) (ite_stays _ (mbDoneWrite_stays _ _ _ hs)
    (ite_stays _ (mbStatWrite_stays _ _ _ hs) (ite_stays _ (usrGrant_stays _ _ hs) (ite_stays _ (usrCtl_stays _ _ hs) hs)))))
    (ite_stays _ (usrWin_stays _ _ hs) (ite_stays _ (msixWrite_stays _ _ _ hs) (ite_stays _ (hubCtl_stays _ _ hs)
    (ite_stays _ (hubPeriod_stays _ _ hs) (ite_stays _ (hubRd_stays _ _ hs) (ite_stays _ (hubMirror_stays _ _ _ hs)
    (ite_stays _ (hubMirror_stays _ _ _ hs) (ite_stays _ (timeLatchWrite_stays _ _ hs) (ite_stays _ (evtPendWrite_stays _ _ _ _ hs)
    (ite_stays _ (evtMaskWrite_stays _ _ _ hs) (ite_stays _ (evtLostWrite_stays _ _ _ hs) (ite_stays _ (evtMapWrite_stays _ _ _ hs) hs)))))))))))))

theorem registerWrite_stays (bar : Bar) (o : Nat) (bytes : List Byte) (s : State) (hs : Same msk s0 s) (mstrm : msk.strm = true := by assumption) : Same msk s0 (registerWrite bar o bytes s) := by
  unfold registerWrite
  try dsimp only
  with_reducible repeat' first | assumption | apply bar0Write_stays | apply bar2HostWrite_stays | apply cfgWrite_stays | (apply same_mk; (iterate 13 (first | exact Or.inr rfl | exact Or.inl ‹_›)); (first | assumption | apply bar0Write_stays | apply bar2HostWrite_stays | apply cfgWrite_stays | split)) | split | intro _

theorem setStrm_stays (k : Nat) (h : Stream) (s : State) (hs : Same msk s0 s) (mstrm : msk.strm = true := by assumption) : Same msk s0 (setStrm k h s) := by
  unfold setStrm
  try dsimp only
  with_reducible repeat' first | assumption | (apply same_mk; (iterate 13 (first | exact Or.inr rfl | exact Or.inl ‹_›)); (first | assumption | split)) | split | intro _

theorem strmLow_stays (k : Nat) (s : State) (hs : Same msk s0 s) (mstrm : msk.strm = true := by assumption) : Same msk s0 (strmLow k s) := by
  unfold strmLow
  try dsimp only
  with_reducible repeat' first | assumption | apply raiseIf_stays | apply setStrm_stays | (apply same_mk; (iterate 13 (first | exact Or.inr rfl | exact Or.inl ‹_›)); (first | assumption | apply raiseIf_stays | apply setStrm_stays | split)) | split | intro _

theorem strmStep_stays (g : Nat) (s : State) (hs : Same msk s0 s) (maxes : msk.axes = true := by assumption) (mgrps : msk.grps = true := by assumption) : Same msk s0 (strmStep g s) := by
  unfold strmStep
  try dsimp only
  with_reducible repeat' first | assumption | apply driveMembers_stays | apply modGrp_stays | (apply same_mk; (iterate 13 (first | exact Or.inr rfl | exact Or.inl ‹_›)); (first | assumption | apply driveMembers_stays | apply modGrp_stays | split)) | split | intro _

theorem strmClock_stays (g : Nat) (s : State) (hs : Same msk s0 s) (mgrps : msk.grps = true := by assumption) : Same msk s0 (strmClock g s) := by
  unfold strmClock
  try dsimp only
  with_reducible repeat' first | assumption | apply modGrp_stays | (apply same_mk; (iterate 13 (first | exact Or.inr rfl | exact Or.inl ‹_›)); (first | assumption | apply modGrp_stays | split)) | split | intro _

theorem strmUnderrun_stays (k : Nat) (s : State) (hs : Same msk s0 s) (mstrm : msk.strm = true := by assumption) (mgrps : msk.grps = true := by assumption) : Same msk s0 (strmUnderrun k s) := by
  unfold strmUnderrun
  try dsimp only
  with_reducible repeat' first | assumption | apply modGrp_stays | apply pathStop_stays | apply underrunMarks_stays | (apply same_mk; (iterate 13 (first | exact Or.inr rfl | exact Or.inl ‹_›)); (first | assumption | apply modGrp_stays | apply pathStop_stays | apply underrunMarks_stays | split)) | split | intro _

theorem strmEnd_stays (k : Nat) (s : State) (hs : Same msk s0 s) (mstrm : msk.strm = true := by assumption) (mgrps : msk.grps = true := by assumption) : Same msk s0 (strmEnd k s) := by
  unfold strmEnd
  try dsimp only
  with_reducible repeat' first | assumption | apply modGrp_stays | apply setStrm_stays | (apply same_mk; (iterate 13 (first | exact Or.inr rfl | exact Or.inl ‹_›)); (first | assumption | apply modGrp_stays | apply setStrm_stays | split)) | split | intro _

end Sys2Proof.Machine
end

