-- ==== Sys2Proof/Laws/SameRows.lean ====
section
/-!
SUPPORT. `Same` for the functions of the cadence, faults and the scheduler.
-/
namespace Sys2Proof.Machine

set_option Elab.async false
set_option linter.all false

variable {msk : Mask} {s0 : State}

theorem strmTake_stays (k : Nat) (s : State) (hs : Same msk s0 s) (mstrm : msk.strm = true := by assumption) (mgrps : msk.grps = true := by assumption) : Same msk s0 (strmTake k s) := by
  unfold strmTake
  try dsimp only
  with_reducible repeat' first | assumption | apply modGrp_stays | apply setStrm_stays | apply strmEnd_stays | apply strmLow_stays | apply strmUnderrun_stays | (apply same_mk; (iterate 13 (first | exact Or.inr rfl | exact Or.inl ‹_›)); (first | assumption | apply modGrp_stays | apply setStrm_stays | apply strmEnd_stays | apply strmLow_stays | apply strmUnderrun_stays | split)) | split | intro _

theorem strmTakes_stays (s : State) (hs : Same msk s0 s) (mstrm : msk.strm = true := by assumption) (mgrps : msk.grps = true := by assumption) : Same msk s0 (strmTakes s) := by
  unfold strmTakes
  try dsimp only
  with_reducible repeat' first | assumption | apply forNat_stays | apply strmTake_stays | (apply same_mk; (iterate 13 (first | exact Or.inr rfl | exact Or.inl ‹_›)); (first | assumption | apply forNat_stays | apply strmTake_stays | split)) | split | intro _

theorem strmAnchorEff_stays (e : Eff) (s : State) (hs : Same msk s0 s) (mstrm : msk.strm = true := by assumption) (mgrps : msk.grps = true := by assumption) : Same msk s0 (strmAnchorEff e s) := by
  unfold strmAnchorEff
  try dsimp only
  with_reducible repeat' first | assumption | apply complete_stays | apply grpTo_stays | apply modGrp_stays | apply preempted_stays | apply setStrm_stays | apply strmLow_stays | apply underrunMarks_stays | (apply same_mk; (iterate 13 (first | exact Or.inr rfl | exact Or.inl ‹_›)); (first | assumption | apply complete_stays | apply grpTo_stays | apply modGrp_stays | apply preempted_stays | apply setStrm_stays | apply strmLow_stays | apply underrunMarks_stays | split)) | split | intro _

theorem detachStrm_stays (k : Nat) (s : State) (hs : Same msk s0 s) (mstrm : msk.strm = true := by assumption) (mgrps : msk.grps = true := by assumption) (msch : msk.sch = true := by assumption) : Same msk s0 (detachStrm k s) := by
  unfold detachStrm
  try dsimp only
  with_reducible repeat' first | assumption | apply freeShares_stays | apply modGrp_stays | apply setStrm_stays | apply strmUnderrun_stays | (apply same_mk; (iterate 13 (first | exact Or.inr rfl | exact Or.inl ‹_›)); (first | assumption | apply freeShares_stays | apply modGrp_stays | apply setStrm_stays | apply strmUnderrun_stays | split)) | split | intro _

theorem setQp_stays (g : Nat) (x : QpGrp) (s : State) (hs : Same msk s0 s) (mqp : msk.qp = true := by assumption) : Same msk s0 (setQp g x s) := by
  unfold setQp
  try dsimp only
  with_reducible repeat' first | assumption | (apply same_mk; (iterate 13 (first | exact Or.inr rfl | exact Or.inl ‹_›)); (first | assumption | split)) | split | intro _

theorem modQp_stays (g : Nat) (f : QpGrp → QpGrp) (s : State) (hs : Same msk s0 s) (mqp : msk.qp = true := by assumption) : Same msk s0 (modQp g f s) := by
  unfold modQp
  try dsimp only
  with_reducible repeat' first | assumption | apply setQp_stays | (apply same_mk; (iterate 13 (first | exact Or.inr rfl | exact Or.inl ‹_›)); (first | assumption | apply setQp_stays | split)) | split | intro _

theorem modScen_stays (g j : Nat) (f : Scen → Scen) (s : State) (hs : Same msk s0 s) (mqp : msk.qp = true := by assumption) : Same msk s0 (modScen g j f s) := by
  unfold modScen
  try dsimp only
  with_reducible repeat' first | assumption | apply modQp_stays | (apply same_mk; (iterate 13 (first | exact Or.inr rfl | exact Or.inl ‹_›)); (first | assumption | apply modQp_stays | split)) | split | intro _

theorem setLane_stays (u : Nat) (l : Lane) (s : State) (hs : Same msk s0 s) (mqp : msk.qp = true := by assumption) : Same msk s0 (setLane u l s) := by
  unfold setLane
  try dsimp only
  with_reducible repeat' first | assumption | (apply same_mk; (iterate 13 (first | exact Or.inr rfl | exact Or.inl ‹_›)); (first | assumption | split)) | split | intro _

theorem qpSnapGroup_stays (g : Nat) (s : State) (hs : Same msk s0 s) (mgrps : msk.grps = true := by assumption) (mqp : msk.qp = true := by assumption) : Same msk s0 (qpSnapGroup g s) := by
  unfold qpSnapGroup
  try dsimp only
  with_reducible repeat' first | assumption | apply countN_stays | apply replan_stays | apply setQp_stays | apply foldl_stays | (apply same_mk; (iterate 13 (first | exact Or.inr rfl | exact Or.inl ‹_›)); (first | assumption | apply countN_stays | apply replan_stays | apply setQp_stays | apply foldl_stays | split)) | split | intro _

theorem classSnap_stays (s : State) (hs : Same msk s0 s) (mqp : msk.qp = true := by assumption) : Same msk s0 (classSnap s) := by
  unfold classSnap
  try dsimp only
  with_reducible repeat' first | assumption | apply foldl_stays | apply takeEff_stays | (apply same_mk; (iterate 13 (first | exact Or.inr rfl | exact Or.inl ‹_›)); (first | assumption | apply foldl_stays | apply takeEff_stays | split)) | split | intro _

theorem qpSnapshot_stays (s : State) (hs : Same msk s0 s) (mgrps : msk.grps = true := by assumption) (mqp : msk.qp = true := by assumption) : Same msk s0 (qpSnapshot s) := by
  unfold qpSnapshot
  extract_lets s1
  have h1 : Same msk s0 s1 := forNat_stays _ _ _ (fun g t ht => qpSnapGroup_stays _ _ ht) (classSnap_stays _ hs)
  clear_value s1
  apply same_mk; (iterate 13 (first | exact Or.inr rfl | exact Or.inl ‹_›)); exact h1

theorem assembleScen_stays (g j : Nat) (s : State) (hs : Same msk s0 s) (msch : msk.sch = true := by assumption) (mqp : msk.qp = true := by assumption) : Same msk s0 (assembleScen g j s) := by
  unfold assembleScen
  try dsimp only
  with_reducible repeat' first | assumption | apply addBusy_stays | apply count_stays | apply modScen_stays | apply setLane_stays | (apply same_mk; (iterate 13 (first | exact Or.inr rfl | exact Or.inl ‹_›)); (first | assumption | apply addBusy_stays | apply count_stays | apply modScen_stays | apply setLane_stays | split)) | split | intro _

theorem asmPhase_stays (s : State) (hs : Same msk s0 s) (msch : msk.sch = true := by assumption) (mqp : msk.qp = true := by assumption) : Same msk s0 (asmPhase s) := by
  unfold asmPhase
  try dsimp only
  with_reducible repeat' first | assumption | apply advanceTo_stays | apply assembleScen_stays | apply forNat_stays | (apply same_mk; (iterate 13 (first | exact Or.inr rfl | exact Or.inl ‹_›)); (first | assumption | apply advanceTo_stays | apply assembleScen_stays | apply forNat_stays | split)) | split | intro _

theorem endMarks_stays (g u cyc : Nat) (r : ScenRes) (s : State) (hs : Same msk s0 s) (msch : msk.sch = true := by assumption) (mqp : msk.qp = true := by assumption) : Same msk s0 (endMarks g u cyc r s) := by
  unfold endMarks
  try dsimp only
  with_reducible repeat' first | assumption | apply addBusy_stays | apply count_stays | apply countN_stays | apply modQp_stays | apply raise_stays | (apply same_mk; (iterate 13 (first | exact Or.inr rfl | exact Or.inl ‹_›)); (first | assumption | apply addBusy_stays | apply count_stays | apply countN_stays | apply modQp_stays | apply raise_stays | split)) | split | intro _

theorem putRes_stays (b : LaneJob) (r : ScenRes) (s : State) (hs : Same msk s0 s) (mqp : msk.qp = true := by assumption) : Same msk s0 (putRes b r s) := by
  unfold putRes
  try dsimp only
  with_reducible repeat' first | assumption | apply modScen_stays | (apply same_mk; (iterate 13 (first | exact Or.inr rfl | exact Or.inl ‹_›)); (first | assumption | apply modScen_stays | split)) | split | intro _

theorem laneStart_stays (u cyc : Nat) (s : State) (hs : Same msk s0 s) (mqp : msk.qp = true := by assumption) : Same msk s0 (laneStart u cyc s) := by
  unfold laneStart
  try dsimp only
  with_reducible repeat' first | assumption | apply setLane_stays | (apply same_mk; (iterate 13 (first | exact Or.inr rfl | exact Or.inl ‹_›)); (first | assumption | apply setLane_stays | split)) | split | intro _

theorem laneWindow_stays (s : State) (hs : Same msk s0 s) (mqp : msk.qp = true := by assumption) : Same msk s0 (laneWindow s) := by
  unfold laneWindow
  try dsimp only
  with_reducible repeat' first | assumption | apply advanceTo_stays | apply forNat_stays | apply laneStart_stays | (apply same_mk; (iterate 13 (first | exact Or.inr rfl | exact Or.inl ‹_›)); (first | assumption | apply advanceTo_stays | apply forNat_stays | apply laneStart_stays | split)) | split | intro _

theorem laneDone_stays (u cyc : Nat) (s : State) (hs : Same msk s0 s) (msch : msk.sch = true := by assumption) (mqp : msk.qp = true := by assumption) (t : State) (h : laneDone u cyc s = some t) : Same msk s0 t := by
  revert h; unfold laneDone; dsimp only
  split
  · intro h; cases h
  · split
    · intro h; cases h; exact laneStart_stays _ _ _ (setLane_stays _ _ _ hs)
    · split
      · intro h; cases h
        exact laneStart_stays _ _ _ (endMarks_stays _ _ _ _ _ (putRes_stays _ _ _ (setLane_stays _ _ _ (advanceTo_stays _ _ hs))))
      · intro h; cases h

theorem laneUpTo_stays (u cyc n : Nat) (s : State) (hs : Same msk s0 s) (msch : msk.sch = true := by assumption) (mqp : msk.qp = true := by assumption) : Same msk s0 (laneUpTo u cyc n s) := by
  induction n generalizing s with
  | zero => exact hs
  | succ n ih =>
    unfold laneUpTo; split
    · rename_i t h; exact ih _ (laneDone_stays _ _ _ hs (h := h))
    · exact hs

theorem qpProblemDone_stays (u : Nat) (s : State) (hs : Same msk s0 s) (msch : msk.sch = true := by assumption) (mqp : msk.qp = true := by assumption) : Same msk s0 (qpProblemDone u s) := by
  unfold qpProblemDone; split
  · cases h : laneDone u (2 ^ 64) s with
    | none => exact hs
    | some t => exact laneDone_stays _ _ _ hs (h := h)
  · exact hs

theorem missMarks_stays (b : LaneJob) (u : Nat) (s : State) (hs : Same msk s0 s) (msch : msk.sch = true := by assumption) (mqp : msk.qp = true := by assumption) : Same msk s0 (missMarks b u s) := by
  unfold missMarks
  try dsimp only
  with_reducible repeat' first | assumption | apply count_stays | apply journal_stays | apply modQp_stays | apply raise_stays | apply setCls_stays | (apply same_mk; (iterate 13 (first | exact Or.inr rfl | exact Or.inl ‹_›)); (first | assumption | apply count_stays | apply journal_stays | apply modQp_stays | apply raise_stays | apply setCls_stays | split)) | split | intro _

theorem missWaiting_stays (u : Nat) (b : LaneJob) (s : State) (hs : Same msk s0 s) (msch : msk.sch = true := by assumption) (mqp : msk.qp = true := by assumption) : Same msk s0 (missWaiting u b s) := by
  unfold missWaiting
  try dsimp only
  with_reducible repeat' first | assumption | apply missMarks_stays | apply putRes_stays | apply setLane_stays | (apply same_mk; (iterate 13 (first | exact Or.inr rfl | exact Or.inl ‹_›)); (first | assumption | apply missMarks_stays | apply putRes_stays | apply setLane_stays | split)) | split | intro _

theorem missServed_stays (u cyc : Nat) (b : LaneJob) (st : Nat) (s : State) (hs : Same msk s0 s) (msch : msk.sch = true := by assumption) (mqp : msk.qp = true := by assumption) : Same msk s0 (missServed u cyc b st s) := by
  unfold missServed
  try dsimp only
  with_reducible repeat' first | assumption | apply endMarks_stays | apply laneStart_stays | apply missMarks_stays | apply putRes_stays | apply setLane_stays | (apply same_mk; (iterate 13 (first | exact Or.inr rfl | exact Or.inl ‹_›)); (first | assumption | apply endMarks_stays | apply laneStart_stays | apply missMarks_stays | apply putRes_stays | apply setLane_stays | split)) | split | intro _

theorem qpDeadline_stays (g j : Nat) (s : State) (hs : Same msk s0 s) (msch : msk.sch = true := by assumption) (mqp : msk.qp = true := by assumption) : Same msk s0 (qpDeadline g j s) := by
  unfold qpDeadline
  try dsimp only
  with_reducible repeat' first | assumption | apply advanceTo_stays | apply laneUpTo_stays | apply missServed_stays | apply missWaiting_stays | apply foldl_stays | (apply same_mk; (iterate 13 (first | exact Or.inr rfl | exact Or.inl ‹_›)); (first | assumption | apply advanceTo_stays | apply laneUpTo_stays | apply missServed_stays | apply missWaiting_stays | apply foldl_stays | split)) | split | intro _

theorem shiftedRecs_stays (g b : Nat) (tags : List Nat) (s : State) (hs : Same msk s0 s)  : Same msk s0 (shiftedRecs g b tags s) := by
  unfold shiftedRecs
  try dsimp only
  with_reducible repeat' first | assumption | apply journal_stays | apply foldl_stays | (apply same_mk; (iterate 13 (first | exact Or.inr rfl | exact Or.inl ‹_›)); (first | assumption | apply journal_stays | apply foldl_stays | split)) | split | intro _

theorem fallenBack_stays (g b : Nat) (tags : List Nat) (s : State) (hs : Same msk s0 s) (mqp : msk.qp = true := by assumption) : Same msk s0 (fallenBack g b tags s) := by
  unfold fallenBack
  try dsimp only
  with_reducible repeat' first | assumption | apply modQp_stays | apply raise_stays | apply shiftedRecs_stays | (apply same_mk; (iterate 13 (first | exact Or.inr rfl | exact Or.inl ‹_›)); (first | assumption | apply modQp_stays | apply raise_stays | apply shiftedRecs_stays | split)) | split | intro _

theorem selection_stays (g : Nat) (sA : State) (hsA : Same msk s0 sA) (mgrps : msk.grps = true := by assumption) (msch : msk.sch = true := by assumption) (mqp : msk.qp = true := by assumption) : Same msk s0 (selection g sA) := by
  unfold selection
  try dsimp only
  with_reducible repeat' first | assumption | apply advanceTo_stays | apply countN_stays | apply fallenBack_stays | apply forNat_stays | apply modGrp_stays | apply modQp_stays | apply qpDeadline_stays | apply raiseIf_stays | apply foldl_stays | (apply same_mk; (iterate 13 (first | exact Or.inr rfl | exact Or.inl ‹_›)); (first | assumption | apply advanceTo_stays | apply countN_stays | apply fallenBack_stays | apply forNat_stays | apply modGrp_stays | apply modQp_stays | apply qpDeadline_stays | apply raiseIf_stays | apply foldl_stays | split)) | split | intro _

theorem shiftStop_stays (g : Nat) (s : State) (hs : Same msk s0 s) (mgrps : msk.grps = true := by assumption) (mqp : msk.qp = true := by assumption) : Same msk s0 (shiftStop g s) := by
  unfold shiftStop
  try dsimp only
  with_reducible repeat' first | assumption | apply journal_stays | apply modGrp_stays | apply modQp_stays | apply reqStopGrp_stays | (apply same_mk; (iterate 13 (first | exact Or.inr rfl | exact Or.inl ‹_›)); (first | assumption | apply journal_stays | apply modGrp_stays | apply modQp_stays | apply reqStopGrp_stays | split)) | split | intro _

theorem qpBoundary_stays (b g : Nat) (s : State) (hs : Same msk s0 s) (mgrps : msk.grps = true := by assumption) (mqp : msk.qp = true := by assumption) : Same msk s0 (qpBoundary b g s) := by
  unfold qpBoundary
  try dsimp only
  with_reducible repeat' first | assumption | apply grpTo_stays | apply modGrp_stays | apply modQp_stays | (apply same_mk; (iterate 13 (first | exact Or.inr rfl | exact Or.inl ‹_›)); (first | assumption | apply grpTo_stays | apply modGrp_stays | apply modQp_stays | split)) | split | intro _

theorem replaceShare_stays (s : State) (e : Share) (hs : Same msk s0 s) (msch : msk.sch = true := by assumption) (mqp : msk.qp = true := by assumption) : Same msk s0 (replaceShare s e) := by
  unfold replaceShare
  try dsimp only
  with_reducible repeat' first | assumption | apply journal_stays | apply modScen_stays | apply setShares_stays | (apply same_mk; (iterate 13 (first | exact Or.inr rfl | exact Or.inl ‹_›)); (first | assumption | apply journal_stays | apply modScen_stays | apply setShares_stays | split)) | split | intro _

theorem replaceLanes_stays (s : State) (hs : Same msk s0 s) (msch : msk.sch = true := by assumption) (mqp : msk.qp = true := by assumption) : Same msk s0 (replaceLanes s) := by
  unfold replaceLanes
  try dsimp only
  with_reducible repeat' first | assumption | apply replaceShare_stays | apply foldl_stays | (apply same_mk; (iterate 13 (first | exact Or.inr rfl | exact Or.inl ‹_›)); (first | assumption | apply replaceShare_stays | apply foldl_stays | split)) | split | intro _

theorem clearLanes_stays (s : State) (hs : Same msk s0 s) (mqp : msk.qp = true := by assumption) : Same msk s0 (clearLanes s) := by
  unfold clearLanes
  try dsimp only
  with_reducible repeat' first | assumption | (apply same_mk; (iterate 13 (first | exact Or.inr rfl | exact Or.inl ‹_›)); (first | assumption | split)) | split | intro _

theorem laneFault_stays (u : Nat) (s : State) (hs : Same msk s0 s) (msch : msk.sch = true := by assumption) (mqp : msk.qp = true := by assumption) : Same msk s0 (laneFault u s) := by
  unfold laneFault
  try dsimp only
  with_reducible repeat' first | assumption | apply count_stays | apply modQp_stays | apply putRes_stays | apply raise_stays | apply setLane_stays | apply taskEnd_stays | apply foldl_stays | (apply same_mk; (iterate 13 (first | exact Or.inr rfl | exact Or.inl ‹_›)); (first | assumption | apply count_stays | apply modQp_stays | apply putRes_stays | apply raise_stays | apply setLane_stays | apply taskEnd_stays | apply foldl_stays | split)) | split | intro _

theorem replan_stays (g : Nat) (s : State) (hs : Same msk s0 s) (mgrps : msk.grps = true := by assumption) (mqp : msk.qp = true := by assumption) : Same msk s0 (replan g s) := by
  unfold replan
  try dsimp only
  with_reducible repeat' first | assumption | apply count_stays | apply laneStart_stays | apply modQp_stays | apply modScen_stays | apply setLane_stays | (apply same_mk; (iterate 13 (first | exact Or.inr rfl | exact Or.inl ‹_›)); (first | assumption | apply count_stays | apply laneStart_stays | apply modQp_stays | apply modScen_stays | apply setLane_stays | split)) | split | intro _

theorem qpAssignEff_stays (e : Eff) (s : State) (hs : Same msk s0 s) (mgrps : msk.grps = true := by assumption) (mqp : msk.qp = true := by assumption) : Same msk s0 (qpAssignEff e s) := by
  unfold qpAssignEff
  try dsimp only
  with_reducible repeat' first | assumption | apply modGrp_stays | apply modQp_stays | (apply same_mk; (iterate 13 (first | exact Or.inr rfl | exact Or.inl ‹_›)); (first | assumption | apply modGrp_stays | apply modQp_stays | split)) | split | intro _

theorem kdeSnap_stays (g : Nat) (s : State) (hs : Same msk s0 s) (mgrps : msk.grps = true := by assumption) : Same msk s0 (kdeSnap g s) := by
  unfold kdeSnap
  try dsimp only
  with_reducible repeat' first | assumption | apply modGrp_stays | (apply same_mk; (iterate 13 (first | exact Or.inr rfl | exact Or.inl ‹_›)); (first | assumption | apply modGrp_stays | split)) | split | intro _

theorem unreachable_stays (g tag promise : Nat) (s : State) (hs : Same msk s0 s) (mgrps : msk.grps = true := by assumption) : Same msk s0 (unreachable g tag promise s) := by
  unfold unreachable
  try dsimp only
  with_reducible repeat' first | assumption | apply grpEvent_stays | apply journal_stays | (apply same_mk; (iterate 13 (first | exact Or.inr rfl | exact Or.inl ‹_›)); (first | assumption | apply grpEvent_stays | apply journal_stays | split)) | split | intro _

theorem replanMoves_stays (g : Nat) (s : State) (hs : Same msk s0 s) (mgrps : msk.grps = true := by assumption) : Same msk s0 (replanMoves g s) := by
  unfold replanMoves
  try dsimp only
  with_reducible repeat' first | assumption | apply modGrp_stays | (apply same_mk; (iterate 13 (first | exact Or.inr rfl | exact Or.inl ‹_›)); (first | assumption | apply modGrp_stays | split)) | split | intro _

theorem strmGives_stays (g : Nat) (s : State) (hs : Same msk s0 s) (mstrm : msk.strm = true := by assumption) (mgrps : msk.grps = true := by assumption) : Same msk s0 (strmGives g s) := by
  unfold strmGives
  try dsimp only
  with_reducible repeat' first | assumption | apply modGrp_stays | apply setStrm_stays | (apply same_mk; (iterate 13 (first | exact Or.inr rfl | exact Or.inl ‹_›)); (first | assumption | apply modGrp_stays | apply setStrm_stays | split)) | split | intro _

theorem profileMove_stays (g : Nat) (p : List Byte) (target : List Fx) (blend : Fx) (tag promise : Nat) (s : State) (hs : Same msk s0 s) (mstrm : msk.strm = true := by assumption) (mgrps : msk.grps = true := by assumption) : Same msk s0 (profileMove g p target blend tag promise s) := by
  unfold profileMove
  try dsimp only
  with_reducible repeat' first | assumption | apply grpTo_stays | apply modGrp_stays | apply preempted_stays | apply strmGives_stays | (apply same_mk; (iterate 13 (first | exact Or.inr rfl | exact Or.inl ‹_›)); (first | assumption | apply grpTo_stays | apply modGrp_stays | apply preempted_stays | apply strmGives_stays | split)) | split | intro _

theorem moveEff_stays (e : Eff) (s : State) (hs : Same msk s0 s) (mstrm : msk.strm = true := by assumption) (mgrps : msk.grps = true := by assumption) : Same msk s0 (moveEff e s) := by
  unfold moveEff
  try dsimp only
  with_reducible repeat' first | assumption | apply profileMove_stays | (apply same_mk; (iterate 13 (first | exact Or.inr rfl | exact Or.inl ‹_›)); (first | assumption | apply profileMove_stays | split)) | split | intro _

theorem poseMoves_stays (g : Nat) (s : State) (hs : Same msk s0 s) (mstrm : msk.strm = true := by assumption) (mgrps : msk.grps = true := by assumption) : Same msk s0 (poseMoves g s) := by
  unfold poseMoves
  try dsimp only
  with_reducible repeat' first | assumption | apply modGrp_stays | apply profileMove_stays | apply foldl_stays | (apply same_mk; (iterate 13 (first | exact Or.inr rfl | exact Or.inl ‹_›)); (first | assumption | apply modGrp_stays | apply profileMove_stays | apply foldl_stays | split)) | split | intro _

theorem moveSnap_stays (e : Eff) (s : State) (hs : Same msk s0 s) (mstrm : msk.strm = true := by assumption) (mgrps : msk.grps = true := by assumption) : Same msk s0 (moveSnap e s) := by
  unfold moveSnap
  try dsimp only
  with_reducible repeat' first | assumption | apply modGrp_stays | apply preempted_stays | apply strmGives_stays | apply unreachable_stays | (apply same_mk; (iterate 13 (first | exact Or.inr rfl | exact Or.inl ‹_›)); (first | assumption | apply modGrp_stays | apply preempted_stays | apply strmGives_stays | apply unreachable_stays | split)) | split | intro _

theorem waypointSnap_stays (free : Bool) (g : Nat) (s : State) (hs : Same msk s0 s) (mgrps : msk.grps = true := by assumption) : Same msk s0 (waypointSnap free g s) := by
  unfold waypointSnap
  try dsimp only
  with_reducible repeat' first | assumption | apply modGrp_stays | apply unreachable_stays | (apply same_mk; (iterate 13 (first | exact Or.inr rfl | exact Or.inl ‹_›)); (first | assumption | apply modGrp_stays | apply unreachable_stays | split)) | split | intro _

theorem grpSnapshot_stays (s : State) (hs : Same msk s0 s) (mstrm : msk.strm = true := by assumption) (mgrps : msk.grps = true := by assumption) : Same msk s0 (grpSnapshot s) := by
  unfold grpSnapshot
  try dsimp only
  with_reducible repeat' first | assumption | apply forNat_stays | apply kdeSnap_stays | apply moveSnap_stays | apply waypointSnap_stays | apply foldl_stays | (apply same_mk; (iterate 13 (first | exact Or.inr rfl | exact Or.inl ‹_›)); (first | assumption | apply forNat_stays | apply kdeSnap_stays | apply moveSnap_stays | apply waypointSnap_stays | apply foldl_stays | split)) | split | intro _

theorem groupSettled_stays (g : Nat) (s : State) (hs : Same msk s0 s) (mgrps : msk.grps = true := by assumption) : Same msk s0 (groupSettled g s) := by
  unfold groupSettled
  try dsimp only
  with_reducible repeat' first | assumption | apply modGrp_stays | (apply same_mk; (iterate 13 (first | exact Or.inr rfl | exact Or.inl ‹_›)); (first | assumption | apply modGrp_stays | split)) | split | intro _

theorem groupEnableTimeout_stays (g : Nat) (s : State) (hs : Same msk s0 s) (maxes : msk.axes = true := by assumption) : Same msk s0 (groupEnableTimeout g s) := by
  unfold groupEnableTimeout
  try dsimp only
  with_reducible repeat' first | assumption | apply advanceTo_stays | apply forNat_stays | apply reqFault_stays | apply foldl_stays | (apply same_mk; (iterate 13 (first | exact Or.inr rfl | exact Or.inl ‹_›)); (first | assumption | apply advanceTo_stays | apply forNat_stays | apply reqFault_stays | apply foldl_stays | split)) | split | intro _

theorem grpConfigureEff_stays (e : Eff) (s : State) (hs : Same msk s0 s) (mgrps : msk.grps = true := by assumption) (mqp : msk.qp = true := by assumption) : Same msk s0 (grpConfigureEff e s) := by
  unfold grpConfigureEff
  try dsimp only
  with_reducible repeat' first | assumption | apply modGrp_stays | apply modQp_stays | (apply same_mk; (iterate 13 (first | exact Or.inr rfl | exact Or.inl ‹_›)); (first | assumption | apply modGrp_stays | apply modQp_stays | split)) | split | intro _

theorem grpEnableEff_stays (e : Eff) (s : State) (hs : Same msk s0 s) (maxes : msk.axes = true := by assumption) (mgrps : msk.grps = true := by assumption) (msch : msk.sch = true := by assumption) : Same msk s0 (grpEnableEff e s) := by
  unfold grpEnableEff
  try dsimp only
  with_reducible repeat' first | assumption | apply beginEnable_stays | apply forNat_stays | apply freeOpen_stays | apply grpTo_stays | apply modGrp_stays | apply toClosed_stays | (apply same_mk; (iterate 13 (first | exact Or.inr rfl | exact Or.inl ‹_›)); (first | assumption | apply beginEnable_stays | apply forNat_stays | apply freeOpen_stays | apply grpTo_stays | apply modGrp_stays | apply toClosed_stays | split)) | split | intro _

theorem grpDisableEff_stays (e : Eff) (s : State) (hs : Same msk s0 s) (maxes : msk.axes = true := by assumption) (mgrps : msk.grps = true := by assumption) (msch : msk.sch = true := by assumption) : Same msk s0 (grpDisableEff e s) := by
  unfold grpDisableEff
  extract_lets g x
  split
  · exact toIdle_stays _ _ (forNat_stays _ _ _ (fun a t ht => toDisabled_stays _ _ _ ht) hs)
  · exact hs

theorem grpHoldEff_stays (e : Eff) (s : State) (hs : Same msk s0 s) (mgrps : msk.grps = true := by assumption) : Same msk s0 (grpHoldEff e s) := by
  unfold grpHoldEff
  try dsimp only
  with_reducible repeat' first | assumption | apply pathStop_stays | (apply same_mk; (iterate 13 (first | exact Or.inr rfl | exact Or.inl ‹_›)); (first | assumption | apply pathStop_stays | split)) | split | intro _

theorem grpResumeEff_stays (e : Eff) (s : State) (hs : Same msk s0 s) (mgrps : msk.grps = true := by assumption) : Same msk s0 (grpResumeEff e s) := by
  unfold grpResumeEff
  try dsimp only
  with_reducible repeat' first | assumption | apply grpTo_stays | apply modGrp_stays | apply preempted_stays | (apply same_mk; (iterate 13 (first | exact Or.inr rfl | exact Or.inl ‹_›)); (first | assumption | apply grpTo_stays | apply modGrp_stays | apply preempted_stays | split)) | split | intro _

theorem grpHomeEff_stays (e : Eff) (s : State) (hs : Same msk s0 s) (mstrm : msk.strm = true := by assumption) (maxes : msk.axes = true := by assumption) (mgrps : msk.grps = true := by assumption) (msch : msk.sch = true := by assumption) (mio : msk.io = true := by assumption) (mstp : msk.stp = true := by assumption) : Same msk s0 (grpHomeEff e s) := by
  unfold grpHomeEff
  try dsimp only
  with_reducible repeat' first | assumption | apply beginHome_stays | apply preempted_stays | (apply same_mk; (iterate 13 (first | exact Or.inr rfl | exact Or.inl ‹_›)); (first | assumption | apply beginHome_stays | apply preempted_stays | split)) | split | intro _

theorem grpClearEff_stays (e : Eff) (s : State) (hs : Same msk s0 s) (maxes : msk.axes = true := by assumption) (mgrps : msk.grps = true := by assumption) (msch : msk.sch = true := by assumption) : Same msk s0 (grpClearEff e s) := by
  unfold grpClearEff
  extract_lets g s1
  split
  · exact hs
  have h1 : Same msk s0 s1 := modGrp_stays _ _ _ hs
  clear_value s1
  split
  · exact grpTo_stays _ _ _ (resetMotion_stays _ _ h1)
  · refine toIdle_stays _ _ (forNat_stays _ _ _ (fun a t ht => ?_) h1)
    split
    · exact toHeld_stays _ _ ht
    · exact ht

theorem setPayloadEff_stays (e : Eff) (s : State) (hs : Same msk s0 s) (mgrps : msk.grps = true := by assumption) : Same msk s0 (setPayloadEff e s) := by
  unfold setPayloadEff
  try dsimp only
  with_reducible repeat' first | assumption | apply grpEvent_stays | apply modGrp_stays | (apply same_mk; (iterate 13 (first | exact Or.inr rfl | exact Or.inl ‹_›)); (first | assumption | apply grpEvent_stays | apply modGrp_stays | split)) | split | intro _

theorem setSes_stays (k : Nat) (x : Session) (s : State) (hs : Same msk s0 s)  : Same msk s0 (setSes k x s) := by
  unfold setSes
  try dsimp only
  with_reducible repeat' first | assumption | (apply same_mk; (iterate 13 (first | exact Or.inr rfl | exact Or.inl ‹_›)); (first | assumption | split)) | split | intro _

theorem setInj_stays (a : Nat) (x : Option Inject) (s : State) (hs : Same msk s0 s)  : Same msk s0 (setInj a x s) := by
  unfold setInj
  try dsimp only
  with_reducible repeat' first | assumption | (apply same_mk; (iterate 13 (first | exact Or.inr rfl | exact Or.inl ‹_›)); (first | assumption | split)) | split | intro _

theorem writeRow_stays (k : Nat) (x : Session) (row : List Int) (s : State) (hs : Same msk s0 s)  : Same msk s0 (writeRow k x row s) := by
  unfold writeRow
  try dsimp only
  with_reducible repeat' first | assumption | apply raise_stays | apply raiseIf_stays | apply setSes_stays | (apply same_mk; (iterate 13 (first | exact Or.inr rfl | exact Or.inl ‹_›)); (first | assumption | apply raise_stays | apply raiseIf_stays | apply setSes_stays | split)) | split | intro _

theorem sessionCadence_stays (occ : BitVec 128) (k : Nat) (s : State) (hs : Same msk s0 s)  : Same msk s0 (sessionCadence occ k s) := by
  unfold sessionCadence
  try dsimp only
  with_reducible repeat' first | assumption | apply setSes_stays | apply writeRow_stays | (apply same_mk; (iterate 13 (first | exact Or.inr rfl | exact Or.inl ‹_›)); (first | assumption | apply setSes_stays | apply writeRow_stays | split)) | split | intro _

theorem traceCadence_stays (s : State) (hs : Same msk s0 s)  : Same msk s0 (traceCadence s) := by
  unfold traceCadence
  try dsimp only
  with_reducible repeat' first | assumption | apply forNat_stays | apply sessionCadence_stays | (apply same_mk; (iterate 13 (first | exact Or.inr rfl | exact Or.inl ‹_›)); (first | assumption | apply forNat_stays | apply sessionCadence_stays | split)) | split | intro _

theorem freeTriggers_stays (k : Nat) (s : State) (hs : Same msk s0 s)  : Same msk s0 (freeTriggers k s) := by
  unfold freeTriggers
  try dsimp only
  with_reducible repeat' first | assumption | apply freeUnits_stays | (apply same_mk; (iterate 13 (first | exact Or.inr rfl | exact Or.inl ‹_›)); (first | assumption | apply freeUnits_stays | split)) | split | intro _

theorem trcFull_stays (k : Nat) (s : State) (hs : Same msk s0 s)  : Same msk s0 (trcFull k s) := by
  unfold trcFull
  try dsimp only
  with_reducible repeat' first | assumption | apply freeTriggers_stays | apply raise_stays | apply setSes_stays | (apply same_mk; (iterate 13 (first | exact Or.inr rfl | exact Or.inl ‹_›)); (first | assumption | apply freeTriggers_stays | apply raise_stays | apply setSes_stays | split)) | split | intro _

theorem traceFault_stays (k row c : Nat) (s : State) (hs : Same msk s0 s)  : Same msk s0 (traceFault k row c s) := by
  unfold traceFault
  try dsimp only
  with_reducible repeat' first | assumption | apply freeTriggers_stays | apply setSes_stays | (apply same_mk; (iterate 13 (first | exact Or.inr rfl | exact Or.inl ‹_›)); (first | assumption | apply freeTriggers_stays | apply setSes_stays | split)) | split | intro _

theorem trigger_stays (k : Nat) (s : State) (hs : Same msk s0 s)  : Same msk s0 (trigger k s) := by
  unfold trigger
  try dsimp only
  with_reducible repeat' first | assumption | apply raise_stays | apply setSes_stays | (apply same_mk; (iterate 13 (first | exact Or.inr rfl | exact Or.inl ‹_›)); (first | assumption | apply raise_stays | apply setSes_stays | split)) | split | intro _

theorem triggerDropped_stays (k : Nat) (s : State) (hs : Same msk s0 s)  : Same msk s0 (triggerDropped k s) := by
  unfold triggerDropped
  try dsimp only
  with_reducible repeat' first | assumption | apply setSes_stays | (apply same_mk; (iterate 13 (first | exact Or.inr rfl | exact Or.inl ‹_›)); (first | assumption | apply setSes_stays | split)) | split | intro _

theorem injValue_stays (a : Nat) (s : State) (hs : Same msk s0 s)  : Same msk s0 (injValue a s) := by
  unfold injValue
  try dsimp only
  with_reducible repeat' first | assumption | apply setInj_stays | (apply same_mk; (iterate 13 (first | exact Or.inr rfl | exact Or.inl ‹_›)); (first | assumption | apply setInj_stays | split)) | split | intro _

theorem injAdvance_stays (a : Nat) (s : State) (hs : Same msk s0 s)  : Same msk s0 (injAdvance a s) := by
  unfold injAdvance
  try dsimp only
  with_reducible repeat' first | assumption | apply setInj_stays | (apply same_mk; (iterate 13 (first | exact Or.inr rfl | exact Or.inl ‹_›)); (first | assumption | apply setInj_stays | split)) | split | intro _

theorem chargeInj_stays (a : Nat) (on : Bool) (s : State) (hs : Same msk s0 s) (msch : msk.sch = true := by assumption) : Same msk s0 (chargeInj a on s) := by
  unfold chargeInj
  try dsimp only
  with_reducible repeat' first | assumption | apply setShares_stays | (apply same_mk; (iterate 13 (first | exact Or.inr rfl | exact Or.inl ‹_›)); (first | assumption | apply setShares_stays | split)) | split | intro _

theorem injEnd_stays (a reason : Nat) (s : State) (hs : Same msk s0 s) (msch : msk.sch = true := by assumption) : Same msk s0 (injEnd a reason s) := by
  unfold injEnd
  try dsimp only
  with_reducible repeat' first | assumption | apply chargeInj_stays | apply complete_stays | apply raise_stays | apply setInj_stays | (apply same_mk; (iterate 13 (first | exact Or.inr rfl | exact Or.inl ‹_›)); (first | assumption | apply chargeInj_stays | apply complete_stays | apply raise_stays | apply setInj_stays | split)) | split | intro _

theorem stopInj_stays (a : Nat) (s : State) (hs : Same msk s0 s) (msch : msk.sch = true := by assumption) : Same msk s0 (stopInj a s) := by
  unfold stopInj
  try dsimp only
  with_reducible repeat' first | assumption | apply injEnd_stays | (apply same_mk; (iterate 13 (first | exact Or.inr rfl | exact Or.inl ‹_›)); (first | assumption | apply injEnd_stays | split)) | split | intro _

theorem injCadence_stays (s : State) (hs : Same msk s0 s) (msch : msk.sch = true := by assumption) : Same msk s0 (injCadence s) := by
  unfold injCadence
  try dsimp only
  with_reducible repeat' first | assumption | apply forNat_stays | apply injEnd_stays | apply setInj_stays | (apply same_mk; (iterate 13 (first | exact Or.inr rfl | exact Or.inl ‹_›)); (first | assumption | apply forNat_stays | apply injEnd_stays | apply setInj_stays | split)) | split | intro _

theorem injComplete_stays (a : Nat) (s : State) (hs : Same msk s0 s) (msch : msk.sch = true := by assumption) : Same msk s0 (injComplete a s) := by
  unfold injComplete
  try dsimp only
  with_reducible repeat' first | assumption | apply injEnd_stays | (apply same_mk; (iterate 13 (first | exact Or.inr rfl | exact Or.inl ‹_›)); (first | assumption | apply injEnd_stays | split)) | split | intro _

theorem frfComplete_stays (s : State) (hs : Same msk s0 s)  : Same msk s0 (frfComplete s) := by
  unfold frfComplete
  try dsimp only
  with_reducible repeat' first | assumption | apply complete_stays | (apply same_mk; (iterate 13 (first | exact Or.inr rfl | exact Or.inl ‹_›)); (first | assumption | apply complete_stays | split)) | split | intro _

theorem traceArmEff_stays (e : Eff) (s : State) (hs : Same msk s0 s)  : Same msk s0 (traceArmEff e s) := by
  unfold traceArmEff
  try dsimp only
  with_reducible repeat' first | assumption | apply raise_stays | apply setSes_stays | (apply same_mk; (iterate 13 (first | exact Or.inr rfl | exact Or.inl ‹_›)); (first | assumption | apply raise_stays | apply setSes_stays | split)) | split | intro _

theorem traceStopEff_stays (e : Eff) (s : State) (hs : Same msk s0 s)  : Same msk s0 (traceStopEff e s) := by
  unfold traceStopEff
  try dsimp only
  with_reducible repeat' first | assumption | apply freeTriggers_stays | apply setSes_stays | (apply same_mk; (iterate 13 (first | exact Or.inr rfl | exact Or.inl ‹_›)); (first | assumption | apply freeTriggers_stays | apply setSes_stays | split)) | split | intro _

theorem injectStopEff_stays (e : Eff) (s : State) (hs : Same msk s0 s) (msch : msk.sch = true := by assumption) : Same msk s0 (injectStopEff e s) := by
  unfold injectStopEff
  try dsimp only
  with_reducible repeat' first | assumption | apply injEnd_stays | (apply same_mk; (iterate 13 (first | exact Or.inr rfl | exact Or.inl ‹_›)); (first | assumption | apply injEnd_stays | split)) | split | intro _

theorem toDieF_stays (r : JRec) (s : State) (hs : Same msk s0 s)  : Same msk s0 (toDieF r s) := by
  unfold toDieF
  try dsimp only
  with_reducible repeat' first | assumption | apply xsend_stays | (apply same_mk; (iterate 13 (first | exact Or.inr rfl | exact Or.inl ‹_›)); (first | assumption | apply xsend_stays | split)) | split | intro _

theorem journalSend_stays (s : State) (hs : Same msk s0 s)  : Same msk s0 (journalSend s) := by
  unfold journalSend
  try dsimp only
  with_reducible repeat' first | assumption | apply count_stays | apply journal_stays | apply toDieF_stays | (apply same_mk; (iterate 13 (first | exact Or.inr rfl | exact Or.inl ‹_›)); (first | assumption | apply count_stays | apply journal_stays | apply toDieF_stays | split)) | split | intro _

theorem journalWrite_stays (s : State) (hs : Same msk s0 s)  : Same msk s0 (journalWrite s) := by
  unfold journalWrite
  try dsimp only
  with_reducible repeat' first | assumption | apply count_stays | apply raiseIf_stays | (apply same_mk; (iterate 13 (first | exact Or.inr rfl | exact Or.inl ‹_›)); (first | assumption | apply count_stays | apply raiseIf_stays | split)) | split | intro _

theorem holdupWindowEnd_stays (s : State) (hs : Same msk s0 s)  : Same msk s0 (holdupWindowEnd s) := by
  unfold holdupWindowEnd
  try dsimp only
  with_reducible repeat' first | assumption | (apply same_mk; (iterate 13 (first | exact Or.inr rfl | exact Or.inl ‹_›)); (first | assumption | split)) | split | intro _

theorem holdupDone_stays (s : State) (hs : Same msk s0 s)  : Same msk s0 (holdupDone s) := by
  unfold holdupDone
  try dsimp only
  with_reducible repeat' first | assumption | apply journalF_stays | apply journalWrite_stays | (apply same_mk; (iterate 13 (first | exact Or.inr rfl | exact Or.inl ‹_›)); (first | assumption | apply journalF_stays | apply journalWrite_stays | split)) | split | intro _

theorem holdupCheck_stays (c : BitVec 16) (s : State) (hs : Same msk s0 s)  : Same msk s0 (holdupCheck c s) := by
  unfold holdupCheck
  try dsimp only
  with_reducible repeat' first | assumption | apply journalF_stays | apply raise_stays | (apply same_mk; (iterate 13 (first | exact Or.inr rfl | exact Or.inl ‹_›)); (first | assumption | apply journalF_stays | apply raise_stays | split)) | split | intro _

theorem eraseDone_stays (s : State) (hs : Same msk s0 s)  : Same msk s0 (eraseDone s) := by
  unfold eraseDone
  try dsimp only
  with_reducible repeat' first | assumption | (apply same_mk; (iterate 13 (first | exact Or.inr rfl | exact Or.inl ‹_›)); (first | assumption | split)) | split | intro _

theorem modDev_stays (f : DevSt → DevSt) (s : State) (hs : Same msk s0 s)  : Same msk s0 (modDev f s) := by
  unfold modDev
  try dsimp only
  with_reducible repeat' first | assumption | (apply same_mk; (iterate 13 (first | exact Or.inr rfl | exact Or.inl ‹_›)); (first | assumption | split)) | split | intro _

theorem enterFault_stays (source code : Nat) (s : State) (hs : Same msk s0 s)  : Same msk s0 (enterFault source code s) := by
  unfold enterFault modDev
  try dsimp only
  with_reducible repeat' first | assumption | apply modDev_stays | (apply same_mk; (iterate 13 (first | exact Or.inr rfl | exact Or.inl ‹_›)); (first | assumption | apply modDev_stays | split)) | split | intro _

theorem deviceFault_stays (source code : Nat) (noCore : Bool) (s : State) (hs : Same msk s0 s)  : Same msk s0 (deviceFault source code noCore s) := by
  unfold deviceFault modDev
  try dsimp only
  with_reducible repeat' first | assumption | apply enterFault_stays | apply journalRec_stays | apply modDev_stays | apply toDieF_stays | (apply same_mk; (iterate 13 (first | exact Or.inr rfl | exact Or.inl ‹_›)); (first | assumption | apply enterFault_stays | apply journalRec_stays | apply modDev_stays | apply toDieF_stays | split)) | split | intro _

theorem xlinkLostM_stays (source code : Nat) (s : State) (hs : Same msk s0 s) (mstrm : msk.strm = true := by assumption) (maxes : msk.axes = true := by assumption) (mgrps : msk.grps = true := by assumption) (msch : msk.sch = true := by assumption) (mio : msk.io = true := by assumption) (mstp : msk.stp = true := by assumption) (mssm : msk.ssm = true := by assumption) : Same msk s0 (xlinkLostM source code s) := by
  unfold xlinkLostM
  try dsimp only
  with_reducible repeat' first | assumption | apply enterFault_stays | apply forNat_stays | apply noteReason_stays | apply raise_stays | apply reqStopGrp_stays | apply setGov_stays | apply takeStops_stays | (apply same_mk; (iterate 13 (first | exact Or.inr rfl | exact Or.inl ‹_›)); (first | assumption | apply enterFault_stays | apply forNat_stays | apply noteReason_stays | apply raise_stays | apply reqStopGrp_stays | apply setGov_stays | apply takeStops_stays | split)) | split | intro _

theorem xlinkLostF_stays (source code : Nat) (s : State) (hs : Same msk s0 s) (mio : msk.io = true := by assumption) (mstp : msk.stp = true := by assumption) : Same msk s0 (xlinkLostF source code s) := by
  unfold xlinkLostF
  try dsimp only
  with_reducible repeat' first | assumption | apply enterSafe_stays | apply journalF_stays | (apply same_mk; (iterate 13 (first | exact Or.inr rfl | exact Or.inl ‹_›)); (first | assumption | apply enterSafe_stays | apply journalF_stays | split)) | split | intro _

theorem dieFCause_stays (source code : Nat) (s : State) (hs : Same msk s0 s) (mstrm : msk.strm = true := by assumption) (maxes : msk.axes = true := by assumption) (mgrps : msk.grps = true := by assumption) (msch : msk.sch = true := by assumption) (mio : msk.io = true := by assumption) (mstp : msk.stp = true := by assumption) (mssm : msk.ssm = true := by assumption) : Same msk s0 (dieFCause source code s) := by
  unfold dieFCause
  try dsimp only
  with_reducible repeat' first | assumption | apply freeUnits_stays | apply xlinkLostF_stays | apply xlinkLostM_stays | (apply same_mk; (iterate 13 (first | exact Or.inr rfl | exact Or.inl ‹_›)); (first | assumption | apply freeUnits_stays | apply xlinkLostF_stays | apply xlinkLostM_stays | split)) | split | intro _

theorem xlinkLoss_stays (source code : Nat) (s : State) (hs : Same msk s0 s) (mstrm : msk.strm = true := by assumption) (maxes : msk.axes = true := by assumption) (mgrps : msk.grps = true := by assumption) (msch : msk.sch = true := by assumption) (mio : msk.io = true := by assumption) (mstp : msk.stp = true := by assumption) (mssm : msk.ssm = true := by assumption) : Same msk s0 (xlinkLoss source code s) := by
  unfold xlinkLoss
  try dsimp only
  with_reducible repeat' first | assumption | apply dieFCause_stays | (apply same_mk; (iterate 13 (first | exact Or.inr rfl | exact Or.inl ‹_›)); (first | assumption | apply dieFCause_stays | split)) | split | intro _

theorem xlinkFlit_stays (d : Die) (f : List Byte) (s : State) (hs : Same msk s0 s)  : Same msk s0 (xlinkFlit d f s) := by
  unfold xlinkFlit
  try dsimp only
  with_reducible repeat' first | assumption | apply count_stays | apply setDir_stays | apply xacked_stays | apply xsendFlit_stays | (apply same_mk; (iterate 13 (first | exact Or.inr rfl | exact Or.inl ‹_›)); (first | assumption | apply count_stays | apply setDir_stays | apply xacked_stays | apply xsendFlit_stays | split)) | split | intro _

theorem xlinkNak_stays (d : Die) (seq : BitVec 12) (s : State) (hs : Same msk s0 s) (mstrm : msk.strm = true := by assumption) (maxes : msk.axes = true := by assumption) (mgrps : msk.grps = true := by assumption) (msch : msk.sch = true := by assumption) (mio : msk.io = true := by assumption) (mstp : msk.stp = true := by assumption) (mssm : msk.ssm = true := by assumption) : Same msk s0 (xlinkNak d seq s) := by
  unfold xlinkNak
  try dsimp only
  with_reducible repeat' first | assumption | apply count_stays | apply journal_stays | apply raise_stays | apply setDir_stays | apply xlinkLoss_stays | apply xreplay_stays | (apply same_mk; (iterate 13 (first | exact Or.inr rfl | exact Or.inl ‹_›)); (first | assumption | apply count_stays | apply journal_stays | apply raise_stays | apply setDir_stays | apply xlinkLoss_stays | apply xreplay_stays | split)) | split | intro _

theorem timeAlign_stays (err : BitVec 8) (s : State) (hs : Same msk s0 s)  : Same msk s0 (timeAlign err s) := by
  unfold timeAlign
  try dsimp only
  with_reducible repeat' first | assumption | (apply same_mk; (iterate 13 (first | exact Or.inr rfl | exact Or.inl ‹_›)); (first | assumption | split)) | split | intro _

theorem eccCorrected_stays (spoke : Nat) (s : State) (hs : Same msk s0 s)  : Same msk s0 (eccCorrected spoke s) := by
  unfold eccCorrected
  try dsimp only
  with_reducible repeat' first | assumption | apply count_stays | apply freeNext_stays | apply raiseIf_stays | (apply same_mk; (iterate 13 (first | exact Or.inr rfl | exact Or.inl ‹_›)); (first | assumption | apply count_stays | apply freeNext_stays | apply raiseIf_stays | split)) | split | intro _

theorem tileFault_stays (t : Nat) (s : State) (hs : Same msk s0 s) (maxes : msk.axes = true := by assumption) (msch : msk.sch = true := by assumption) : Same msk s0 (tileFault t s) := by
  unfold tileFault
  try dsimp only
  with_reducible repeat' first | assumption | apply forNat_stays | apply journal_stays | apply reqFault_stays | apply taskEnd_stays | (apply same_mk; (iterate 13 (first | exact Or.inr rfl | exact Or.inl ‹_›)); (first | assumption | apply forNat_stays | apply journal_stays | apply reqFault_stays | apply taskEnd_stays | split)) | split | intro _

theorem planningFault_stays (groups : BitVec 16) (s : State) (hs : Same msk s0 s) (mgrps : msk.grps = true := by assumption) : Same msk s0 (planningFault groups s) := by
  unfold planningFault
  try dsimp only
  with_reducible repeat' first | assumption | apply forNat_stays | apply journal_stays | apply modGrp_stays | (apply same_mk; (iterate 13 (first | exact Or.inr rfl | exact Or.inl ‹_›)); (first | assumption | apply forNat_stays | apply journal_stays | apply modGrp_stays | split)) | split | intro _

theorem streamFault_stays (k : Nat) (s : State) (hs : Same msk s0 s) (mstrm : msk.strm = true := by assumption) (mgrps : msk.grps = true := by assumption) : Same msk s0 (streamFault k s) := by
  unfold streamFault
  try dsimp only
  with_reducible repeat' first | assumption | apply journal_stays | apply strmUnderrun_stays | (apply same_mk; (iterate 13 (first | exact Or.inr rfl | exact Or.inl ‹_›)); (first | assumption | apply journal_stays | apply strmUnderrun_stays | split)) | split | intro _

theorem busFault_stays (k st : Nat) (s : State) (hs : Same msk s0 s) (mbus : msk.bus = true := by assumption) (maxes : msk.axes = true := by assumption) : Same msk s0 (busFault k st s) := by
  unfold busFault
  try dsimp only
  with_reducible repeat' first | assumption | apply forNat_stays | apply journal_stays | apply modAxis_stays | apply setSeg_stays | (apply same_mk; (iterate 13 (first | exact Or.inr rfl | exact Or.inl ‹_›)); (first | assumption | apply forNat_stays | apply journal_stays | apply modAxis_stays | apply setSeg_stays | split)) | split | intro _

theorem eccReaction_stays (o : EccOwner) (s : State) (hs : Same msk s0 s) (mstrm : msk.strm = true := by assumption) (mbus : msk.bus = true := by assumption) (maxes : msk.axes = true := by assumption) (mgrps : msk.grps = true := by assumption) (msig : msk.sig = true := by assumption) (msch : msk.sch = true := by assumption) (mqp : msk.qp = true := by assumption) (mssm : msk.ssm = true := by assumption) : Same msk s0 (eccReaction o s) := by
  unfold eccReaction modDev
  try dsimp only
  with_reducible repeat' first | assumption | apply busFault_stays | apply complete_stays | apply count_stays | apply deviceFault_stays | apply journal_stays | apply journalF_stays | apply laneFault_stays | apply modDev_stays | apply planningFault_stays | apply raise_stays | apply sigPoison_stays | apply streamFault_stays | apply tileFault_stays | apply traceFault_stays | (apply same_mk; (iterate 13 (first | exact Or.inr rfl | exact Or.inl ‹_›)); (first | assumption | apply busFault_stays | apply complete_stays | apply count_stays | apply deviceFault_stays | apply journal_stays | apply journalF_stays | apply laneFault_stays | apply modDev_stays | apply planningFault_stays | apply raise_stays | apply sigPoison_stays | apply streamFault_stays | apply tileFault_stays | apply traceFault_stays | split)) | split | intro _

theorem eccUncorrectable_stays (o : EccOwner) (s : State) (hs : Same msk s0 s) (mstrm : msk.strm = true := by assumption) (mbus : msk.bus = true := by assumption) (maxes : msk.axes = true := by assumption) (mgrps : msk.grps = true := by assumption) (msig : msk.sig = true := by assumption) (msch : msk.sch = true := by assumption) (mqp : msk.qp = true := by assumption) (mssm : msk.ssm = true := by assumption) : Same msk s0 (eccUncorrectable o s) := by
  unfold eccUncorrectable
  try dsimp only
  with_reducible repeat' first | assumption | apply count_stays | apply eccReaction_stays | apply raise_stays | (apply same_mk; (iterate 13 (first | exact Or.inr rfl | exact Or.inl ‹_›)); (first | assumption | apply count_stays | apply eccReaction_stays | apply raise_stays | split)) | split | intro _

theorem thermWarn_stays (s : State) (hs : Same msk s0 s)  : Same msk s0 (thermWarn s) := by
  unfold thermWarn modDev
  try dsimp only
  with_reducible repeat' first | assumption | apply journal_stays | apply modDev_stays | apply raise_stays | (apply same_mk; (iterate 13 (first | exact Or.inr rfl | exact Or.inl ‹_›)); (first | assumption | apply journal_stays | apply modDev_stays | apply raise_stays | split)) | split | intro _

theorem thermCrit_stays (s : State) (hs : Same msk s0 s) (mgrps : msk.grps = true := by assumption) : Same msk s0 (thermCrit s) := by
  unfold thermCrit modDev
  try dsimp only
  with_reducible repeat' first | assumption | apply journal_stays | apply modDev_stays | apply raise_stays | apply reqStopAll_stays | (apply same_mk; (iterate 13 (first | exact Or.inr rfl | exact Or.inl ‹_›)); (first | assumption | apply journal_stays | apply modDev_stays | apply raise_stays | apply reqStopAll_stays | split)) | split | intro _

theorem holdupBegin_stays (s : State) (hs : Same msk s0 s) (mio : msk.io = true := by assumption) : Same msk s0 (holdupBegin s) := by
  unfold holdupBegin
  try dsimp only
  with_reducible repeat' first | assumption | apply journalF_stays | apply pinsOff_stays | (apply same_mk; (iterate 13 (first | exact Or.inr rfl | exact Or.inl ‹_›)); (first | assumption | apply journalF_stays | apply pinsOff_stays | split)) | split | intro _

theorem pfailAssert_stays (s : State) (hs : Same msk s0 s) (mgrps : msk.grps = true := by assumption) (mio : msk.io = true := by assumption) (mstp : msk.stp = true := by assumption) : Same msk s0 (pfailAssert s) := by
  unfold pfailAssert modDev
  try dsimp only
  with_reducible repeat' first | assumption | apply forNat_stays | apply holdupBegin_stays | apply modDev_stays | apply raise_stays | apply reqStopAll_stays | apply stpRamp_stays | (apply same_mk; (iterate 13 (first | exact Or.inr rfl | exact Or.inl ‹_›)); (first | assumption | apply forNat_stays | apply holdupBegin_stays | apply modDev_stays | apply raise_stays | apply reqStopAll_stays | apply stpRamp_stays | split)) | split | intro _

theorem pwrWarn_stays (r : Rail) (s : State) (hs : Same msk s0 s)  : Same msk s0 (pwrWarn r s) := by
  unfold pwrWarn
  try dsimp only
  with_reducible repeat' first | assumption | apply journal_stays | apply journalF_stays | apply raise_stays | (apply same_mk; (iterate 13 (first | exact Or.inr rfl | exact Or.inl ‹_›)); (first | assumption | apply journal_stays | apply journalF_stays | apply raise_stays | split)) | split | intro _

theorem verifyReport_stays (st : Status) (s : State) (hs : Same msk s0 s)  : Same msk s0 (verifyReport st s) := by
  unfold verifyReport
  try dsimp only
  with_reducible repeat' first | assumption | apply journal_stays | apply raise_stays | (apply same_mk; (iterate 13 (first | exact Or.inr rfl | exact Or.inl ‹_›)); (first | assumption | apply journal_stays | apply raise_stays | split)) | split | intro _

theorem bootStart_stays (bootsel : BitVec 2) (stnaddr : BitVec 5) (s : State) (hs : Same msk s0 s)  : Same msk s0 (bootStart bootsel stnaddr s) := by
  unfold bootStart modDev
  try dsimp only
  with_reducible repeat' first | assumption | apply emit_stays | apply modDev_stays | (apply same_mk; (iterate 13 (first | exact Or.inr rfl | exact Or.inl ‹_›)); (first | assumption | apply emit_stays | apply modDev_stays | split)) | split | intro _

theorem porstRelease_stays (bootsel : BitVec 2) (stnaddr : BitVec 5) (s : State) (hs : Same msk s0 s)  : Same msk s0 (porstRelease bootsel stnaddr s) := by
  unfold porstRelease modDev
  try dsimp only
  with_reducible repeat' first | assumption | apply bootStart_stays | apply modDev_stays | (apply same_mk; (iterate 13 (first | exact Or.inr rfl | exact Or.inl ‹_›)); (first | assumption | apply bootStart_stays | apply modDev_stays | split)) | split | intro _

theorem pfailRelease_stays (s : State) (hs : Same msk s0 s)  : Same msk s0 (pfailRelease s) := by
  unfold pfailRelease modDev
  try dsimp only
  with_reducible repeat' first | assumption | apply bootStart_stays | apply modDev_stays | (apply same_mk; (iterate 13 (first | exact Or.inr rfl | exact Or.inl ‹_›)); (first | assumption | apply bootStart_stays | apply modDev_stays | split)) | split | intro _

theorem modRec_stays (f : BootRec → BootRec) (s : State) (hs : Same msk s0 s)  : Same msk s0 (modRec f s) := by
  unfold modRec modDev
  try dsimp only
  with_reducible repeat' first | assumption | apply modDev_stays | (apply same_mk; (iterate 13 (first | exact Or.inr rfl | exact Or.inl ‹_›)); (first | assumption | apply modDev_stays | split)) | split | intro _

theorem writeRec_stays (f : BootRec → BootRec) (s : State) (hs : Same msk s0 s)  : Same msk s0 (writeRec f s) := by
  unfold writeRec modDev
  try dsimp only
  with_reducible repeat' first | assumption | apply count_stays | apply modRec_stays | (apply same_mk; (iterate 13 (first | exact Or.inr rfl | exact Or.inl ‹_›)); (first | assumption | apply count_stays | apply modRec_stays | split)) | split | intro _

theorem enterKickstand_stays (reason : Nat) (s : State) (hs : Same msk s0 s)  : Same msk s0 (enterKickstand reason s) := by
  unfold enterKickstand modDev
  try dsimp only
  with_reducible repeat' first | assumption | apply journal_stays | apply modDev_stays | apply raise_stays | apply writeRec_stays | (apply same_mk; (iterate 13 (first | exact Or.inr rfl | exact Or.inl ‹_›)); (first | assumption | apply journal_stays | apply modDev_stays | apply raise_stays | apply writeRec_stays | split)) | split | intro _

theorem bootRule_stays (s : State) (hs : Same msk s0 s)  : Same msk s0 (bootRule s) := by
  unfold bootRule modDev
  try dsimp only
  with_reducible repeat' first | assumption | apply enterKickstand_stays | apply journal_stays | apply modDev_stays | apply modRec_stays | apply writeRec_stays | (apply same_mk; (iterate 13 (first | exact Or.inr rfl | exact Or.inl ‹_›)); (first | assumption | apply enterKickstand_stays | apply journal_stays | apply modDev_stays | apply modRec_stays | apply writeRec_stays | split)) | split | intro _

theorem xlinkUp_stays (s : State) (hs : Same msk s0 s)  : Same msk s0 (xlinkUp s) := by
  unfold xlinkUp
  try dsimp only
  with_reducible repeat' first | assumption | apply bootRule_stays | (apply same_mk; (iterate 13 (first | exact Or.inr rfl | exact Or.inl ‹_›)); (first | assumption | apply bootRule_stays | split)) | split | intro _

theorem xlinkTrainTimeout_stays (s : State) (hs : Same msk s0 s)  : Same msk s0 (xlinkTrainTimeout s) := by
  unfold xlinkTrainTimeout modDev
  try dsimp only
  with_reducible repeat' first | assumption | apply advanceTo_stays | apply journalF_stays | apply modDev_stays | apply raise_stays | apply writeRec_stays | (apply same_mk; (iterate 13 (first | exact Or.inr rfl | exact Or.inl ‹_›)); (first | assumption | apply advanceTo_stays | apply journalF_stays | apply modDev_stays | apply raise_stays | apply writeRec_stays | split)) | split | intro _

theorem lpddrTrained_stays (s : State) (hs : Same msk s0 s)  : Same msk s0 (lpddrTrained s) := by
  unfold lpddrTrained modDev
  try dsimp only
  with_reducible repeat' first | assumption | apply modDev_stays | (apply same_mk; (iterate 13 (first | exact Or.inr rfl | exact Or.inl ‹_›)); (first | assumption | apply modDev_stays | split)) | split | intro _

theorem takeImage_stays (slot : Nat) (c : List Byte) (s : State) (hs : Same msk s0 s)  : Same msk s0 (takeImage slot c s) := by
  unfold takeImage modDev
  try dsimp only
  with_reducible repeat' first | assumption | apply modDev_stays | (apply same_mk; (iterate 13 (first | exact Or.inr rfl | exact Or.inl ‹_›)); (first | assumption | apply modDev_stays | split)) | split | intro _

theorem containerLoaded_stays (s : State) (hs : Same msk s0 s)  : Same msk s0 (containerLoaded s) := by
  unfold containerLoaded modDev
  try dsimp only
  with_reducible repeat' first | assumption | apply enterKickstand_stays | apply modDev_stays | apply takeImage_stays | apply verifyReport_stays | apply writeRec_stays | (apply same_mk; (iterate 13 (first | exact Or.inr rfl | exact Or.inl ‹_›)); (first | assumption | apply enterKickstand_stays | apply modDev_stays | apply takeImage_stays | apply verifyReport_stays | apply writeRec_stays | split)) | split | intro _

theorem stagedImage_stays (s : State) (hs : Same msk s0 s)  : Same msk s0 (stagedImage s) := by
  unfold stagedImage modDev
  try dsimp only
  with_reducible repeat' first | assumption | apply enterKickstand_stays | apply modDev_stays | apply takeImage_stays | apply verifyReport_stays | (apply same_mk; (iterate 13 (first | exact Or.inr rfl | exact Or.inl ‹_›)); (first | assumption | apply enterKickstand_stays | apply modDev_stays | apply takeImage_stays | apply verifyReport_stays | split)) | split | intro _

theorem handover_stays (s : State) (hs : Same msk s0 s)  : Same msk s0 (handover s) := by
  unfold handover modDev
  try dsimp only
  with_reducible repeat' first | assumption | apply modDev_stays | (apply same_mk; (iterate 13 (first | exact Or.inr rfl | exact Or.inl ‹_›)); (first | assumption | apply modDev_stays | split)) | split | intro _

theorem lpddrDone_stays (s : State) (hs : Same msk s0 s)  : Same msk s0 (lpddrDone s) := by
  unfold lpddrDone modDev
  try dsimp only
  with_reducible repeat' first | assumption | apply modDev_stays | (apply same_mk; (iterate 13 (first | exact Or.inr rfl | exact Or.inl ‹_›)); (first | assumption | apply modDev_stays | split)) | split | intro _

theorem placeMirror_stays (s : State) (hs : Same msk s0 s) (msch : msk.sch = true := by assumption) : Same msk s0 (placeMirror s) := by
  unfold placeMirror
  try dsimp only
  with_reducible repeat' first | assumption | apply setShares_stays | (apply same_mk; (iterate 13 (first | exact Or.inr rfl | exact Or.inl ‹_›)); (first | assumption | apply setShares_stays | split)) | split | intro _

theorem bootRun_stays (s : State) (hs : Same msk s0 s) (msch : msk.sch = true := by assumption) : Same msk s0 (bootRun s) := by
  unfold bootRun modDev
  try dsimp only
  with_reducible repeat' first | assumption | apply modDev_stays | apply placeMirror_stays | apply raise_stays | apply verifyReport_stays | apply writeRec_stays | (apply same_mk; (iterate 13 (first | exact Or.inr rfl | exact Or.inl ‹_›)); (first | assumption | apply modDev_stays | apply placeMirror_stays | apply raise_stays | apply verifyReport_stays | apply writeRec_stays | split)) | split | intro _

theorem watchdogReset_stays (span : Nat) (sA : State) (hsA : Same msk s0 sA)  : Same msk s0 (watchdogReset span sA) := by
  unfold watchdogReset modDev
  try dsimp only
  with_reducible repeat' first | assumption | apply advanceTo_stays | apply journalF_stays | apply modDev_stays | apply writeRec_stays | (apply same_mk; (iterate 13 (first | exact Or.inr rfl | exact Or.inl ‹_›)); (first | assumption | apply advanceTo_stays | apply journalF_stays | apply modDev_stays | apply writeRec_stays | split)) | split | intro _

theorem romWatchdog_stays (s : State) (hs : Same msk s0 s)  : Same msk s0 (romWatchdog s) := by
  unfold romWatchdog
  split
  · exact watchdogReset_stays _ _ hs
  · exact hs

theorem initWatchdog_stays (s : State) (hs : Same msk s0 s)  : Same msk s0 (initWatchdog s) := by
  unfold initWatchdog
  split
  · exact watchdogReset_stays _ _ hs
  · exact hs

theorem bootUnconfirmed_stays (s : State) (hs : Same msk s0 s)  : Same msk s0 (bootUnconfirmed s) := by
  unfold bootUnconfirmed modDev
  try dsimp only
  with_reducible repeat' first | assumption | apply advanceTo_stays | apply modDev_stays | apply raise_stays | (apply same_mk; (iterate 13 (first | exact Or.inr rfl | exact Or.inl ‹_›)); (first | assumption | apply advanceTo_stays | apply modDev_stays | apply raise_stays | split)) | split | intro _

theorem fwUpdateDone_stays (s : State) (hs : Same msk s0 s)  : Same msk s0 (fwUpdateDone s) := by
  unfold fwUpdateDone modDev
  try dsimp only
  with_reducible repeat' first | assumption | apply complete_stays | apply deviceFault_stays | apply journal_stays | apply modDev_stays | apply raise_stays | apply writeRec_stays | (apply same_mk; (iterate 13 (first | exact Or.inr rfl | exact Or.inl ‹_›)); (first | assumption | apply complete_stays | apply deviceFault_stays | apply journal_stays | apply modDev_stays | apply raise_stays | apply writeRec_stays | split)) | split | intro _

theorem latch_stays (s : State) (hs : Same msk s0 s)  : Same msk s0 (latch s) := by
  unfold latch
  try dsimp only
  with_reducible repeat' first | assumption | apply advanceTo_stays | apply setSpoke_stays | apply foldl_stays | (apply same_mk; (iterate 13 (first | exact Or.inr rfl | exact Or.inl ‹_›)); (first | assumption | apply advanceTo_stays | apply setSpoke_stays | apply foldl_stays | split)) | split | intro _

theorem hubDump_stays (arrived : Bool) (s : State) (hs : Same msk s0 s)  : Same msk s0 (hubDump arrived s) := by
  unfold hubDump
  try dsimp only
  with_reducible repeat' first | assumption | apply advanceTo_stays | apply bar2Write_stays | apply emit_stays | apply raise_stays | apply raiseIf_stays | apply setSpoke_stays | apply foldl_stays | (apply same_mk; (iterate 13 (first | exact Or.inr rfl | exact Or.inl ‹_›)); (first | assumption | apply advanceTo_stays | apply bar2Write_stays | apply emit_stays | apply raise_stays | apply raiseIf_stays | apply setSpoke_stays | apply foldl_stays | split)) | split | intro _

theorem hubMirrorErr_stays (s : State) (hs : Same msk s0 s)  : Same msk s0 (hubMirrorErr s) := by
  unfold hubMirrorErr
  try dsimp only
  with_reducible repeat' first | assumption | apply raise_stays | (apply same_mk; (iterate 13 (first | exact Or.inr rfl | exact Or.inl ‹_›)); (first | assumption | apply raise_stays | split)) | split | intro _

theorem mirrorUpdate_stays (s : State) (hs : Same msk s0 s)  : Same msk s0 (mirrorUpdate s) := by
  unfold mirrorUpdate
  try dsimp only
  with_reducible repeat' first | assumption | apply bar2Write_stays | (apply same_mk; (iterate 13 (first | exact Or.inr rfl | exact Or.inl ‹_›)); (first | assumption | apply bar2Write_stays | split)) | split | intro _

theorem runEffs_stays (t : Nat) (p : Eff → Bool) (f : Eff → State → State) (s : State) (hf : ∀ e u, Same msk s0 u → Same msk s0 (f e u)) (hs : Same msk s0 s) :
    Same msk s0 (runEffs t p f s) :=
  foldl_stays _ _ (fun u e h => hf e u h) _ (by apply same_mk; (iterate 13 (first | exact Or.inr rfl | exact Or.inl ‹_›)); exact hs)

theorem brokenPromise_stays (e : Eff) (s : State) (hs : Same msk s0 s) (mstp : msk.stp = true := by assumption) : Same msk s0 (brokenPromise e s) := by
  unfold brokenPromise
  try dsimp only
  with_reducible repeat' first | assumption | apply journal_stays | apply raise_stays | apply stpEvent_stays | (apply same_mk; (iterate 13 (first | exact Or.inr rfl | exact Or.inl ‹_›)); (first | assumption | apply journal_stays | apply raise_stays | apply stpEvent_stays | split)) | split | intro _

theorem keepPromise_stays (f : Eff → State → State) (e : Eff) (s : State) (kf : ∀ a0 t, Same msk s0 t → Same msk s0 (f a0 t)) (hs : Same msk s0 s) (mstp : msk.stp = true := by assumption) :
    Same msk s0 (keepPromise f e s) := by
  unfold keepPromise
  split
  · exact kf _ _ hs
  · exact brokenPromise_stays _ _ (kf _ _ hs)

theorem beginCadence_stays (s : State) (hs : Same msk s0 s) (mcad : msk.cad = true := by assumption) : Same msk s0 (beginCadence s) := by
  unfold beginCadence
  try dsimp only
  with_reducible repeat' first | assumption | apply advanceTo_stays | apply count_stays | (apply same_mk; (iterate 13 (first | exact Or.inr rfl | exact Or.inl ‹_›)); (first | assumption | apply advanceTo_stays | apply count_stays | split)) | split | intro _

theorem frozenFrames_stays (s : State) (hs : Same msk s0 s) (maxes : msk.axes = true := by assumption) : Same msk s0 (frozenFrames s) := by
  unfold frozenFrames
  try dsimp only
  with_reducible repeat' first | assumption | apply cadenceFrame_stays | apply forNat_stays | (apply same_mk; (iterate 13 (first | exact Or.inr rfl | exact Or.inl ‹_›)); (first | assumption | apply cadenceFrame_stays | apply forNat_stays | split)) | split | intro _

theorem timeCadence_stays (s : State) (hs : Same msk s0 s) (mpel : msk.pel = true := by assumption) : Same msk s0 (timeCadence s) := by
  unfold timeCadence
  try dsimp only
  with_reducible repeat' first | assumption | apply gmCadence_stays | apply pelCadence_stays | apply pelStopEff_stays | apply runEffs_stays | apply setPlantEff_stays | apply slewCadence_stays | (apply same_mk; (iterate 13 (first | exact Or.inr rfl | exact Or.inl ‹_›)); (first | assumption | apply gmCadence_stays | apply pelCadence_stays | apply pelStopEff_stays | apply runEffs_stays | apply setPlantEff_stays | apply slewCadence_stays | split)) | split | intro _

theorem conditionsCadence_stays (s : State) (hs : Same msk s0 s) (mstrm : msk.strm = true := by assumption) (maxes : msk.axes = true := by assumption) (mgrps : msk.grps = true := by assumption) (msch : msk.sch = true := by assumption) (mio : msk.io = true := by assumption) (mstp : msk.stp = true := by assumption) : Same msk s0 (conditionsCadence s) := by
  unfold conditionsCadence
  try dsimp only
  with_reducible repeat' first | assumption | apply axisConditions_stays | apply driveFault_stays | apply forNat_stays | apply groupConditions_stays | apply modAxis_stays | (apply same_mk; (iterate 13 (first | exact Or.inr rfl | exact Or.inl ‹_›)); (first | assumption | apply axisConditions_stays | apply driveFault_stays | apply forNat_stays | apply groupConditions_stays | apply modAxis_stays | split)) | split | intro _

theorem faultsCadence_stays (s : State) (hs : Same msk s0 s) (mstrm : msk.strm = true := by assumption) (maxes : msk.axes = true := by assumption) (mgrps : msk.grps = true := by assumption) (msch : msk.sch = true := by assumption) (mio : msk.io = true := by assumption) (mstp : msk.stp = true := by assumption) : Same msk s0 (faultsCadence s) := by
  unfold faultsCadence
  try dsimp only
  with_reducible repeat' first | assumption | apply faultAxis_stays | apply faultGroup_stays | apply forNat_stays | apply modAxis_stays | apply modGrp_stays | apply ungroupedFaultStop_stays | (apply same_mk; (iterate 13 (first | exact Or.inr rfl | exact Or.inl ‹_›)); (first | assumption | apply faultAxis_stays | apply faultGroup_stays | apply forNat_stays | apply modAxis_stays | apply modGrp_stays | apply ungroupedFaultStop_stays | split)) | split | intro _

theorem takeAxisStops_stays (a : Nat) (s : State) (hs : Same msk s0 s) (maxes : msk.axes = true := by assumption) (msch : msk.sch = true := by assumption) : Same msk s0 (takeAxisStops a s) := by
  unfold takeAxisStops
  try dsimp only
  with_reducible repeat' first | assumption | apply modAxis_stays | apply stopAxis_stays | apply stopInj_stays | apply foldl_stays | (apply same_mk; (iterate 13 (first | exact Or.inr rfl | exact Or.inl ‹_›)); (first | assumption | apply modAxis_stays | apply stopAxis_stays | apply stopInj_stays | apply foldl_stays | split)) | split | intro _

theorem takeGroupStops_stays (g : Nat) (s : State) (hs : Same msk s0 s) (mstrm : msk.strm = true := by assumption) (maxes : msk.axes = true := by assumption) (mgrps : msk.grps = true := by assumption) (msch : msk.sch = true := by assumption) (mio : msk.io = true := by assumption) (mstp : msk.stp = true := by assumption) : Same msk s0 (takeGroupStops g s) := by
  unfold takeGroupStops
  try dsimp only
  with_reducible repeat' first | assumption | apply forNat_stays | apply stopInj_stays | apply takeStops_stays | (apply same_mk; (iterate 13 (first | exact Or.inr rfl | exact Or.inl ‹_›)); (first | assumption | apply forNat_stays | apply stopInj_stays | apply takeStops_stays | split)) | split | intro _

theorem stopsCadence_stays (s : State) (hs : Same msk s0 s) (mstrm : msk.strm = true := by assumption) (maxes : msk.axes = true := by assumption) (mgrps : msk.grps = true := by assumption) (msch : msk.sch = true := by assumption) (mio : msk.io = true := by assumption) (mstp : msk.stp = true := by assumption) : Same msk s0 (stopsCadence s) := by
  unfold stopsCadence
  try dsimp only
  with_reducible repeat' first | assumption | apply forNat_stays | apply runEffs_stays | apply stopAxis_stays | apply stopGroup_stays | apply stopInj_stays | apply takeAxisStops_stays | apply takeGroupStops_stays | (apply same_mk; (iterate 13 (first | exact Or.inr rfl | exact Or.inl ‹_›)); (first | assumption | apply forNat_stays | apply runEffs_stays | apply stopAxis_stays | apply stopGroup_stays | apply stopInj_stays | apply takeAxisStops_stays | apply takeGroupStops_stays | split)) | split | intro _

theorem limitsFollow_stays (a : Nat) (s : State) (hs : Same msk s0 s) (maxes : msk.axes = true := by assumption) (mgrps : msk.grps = true := by assumption) : Same msk s0 (limitsFollow a s) := by
  unfold limitsFollow
  try dsimp only
  with_reducible repeat' first | assumption | apply forNat_stays | apply modAxis_stays | apply replanMoves_stays | (apply same_mk; (iterate 13 (first | exact Or.inr rfl | exact Or.inl ‹_›)); (first | assumption | apply forNat_stays | apply modAxis_stays | apply replanMoves_stays | split)) | split | intro _

theorem limitsEff_stays (e : Eff) (s : State) (hs : Same msk s0 s) (maxes : msk.axes = true := by assumption) (mgrps : msk.grps = true := by assumption) (msch : msk.sch = true := by assumption) : Same msk s0 (limitsEff e s) := by
  unfold limitsEff
  try dsimp only
  with_reducible repeat' first | assumption | apply axisEff_stays | apply limitsFollow_stays | (apply same_mk; (iterate 13 (first | exact Or.inr rfl | exact Or.inl ‹_›)); (first | assumption | apply axisEff_stays | apply limitsFollow_stays | split)) | split | intro _

theorem limitsTakeover_stays (a : Nat) (s : State) (hs : Same msk s0 s) (maxes : msk.axes = true := by assumption) (mgrps : msk.grps = true := by assumption) : Same msk s0 (limitsTakeover a s) := by
  unfold limitsTakeover
  try dsimp only
  with_reducible repeat' first | assumption | apply deferredLimits_stays | apply limitsFollow_stays | (apply same_mk; (iterate 13 (first | exact Or.inr rfl | exact Or.inl ‹_›)); (first | assumption | apply deferredLimits_stays | apply limitsFollow_stays | split)) | split | intro _

theorem writesCadence_stays (s : State) (hs : Same msk s0 s) (maxes : msk.axes = true := by assumption) (mgrps : msk.grps = true := by assumption) (msch : msk.sch = true := by assumption) : Same msk s0 (writesCadence s) := by
  unfold writesCadence
  try dsimp only
  with_reducible repeat' first | assumption | apply limitsEff_stays | apply loopEff_stays | apply runEffs_stays | (apply same_mk; (iterate 13 (first | exact Or.inr rfl | exact Or.inl ‹_›)); (first | assumption | apply limitsEff_stays | apply loopEff_stays | apply runEffs_stays | split)) | split | intro _

theorem stateEff_stays (e : Eff) (s : State) (hs : Same msk s0 s) (mbus : msk.bus = true := by assumption) (maxes : msk.axes = true := by assumption) (mgrps : msk.grps = true := by assumption) (msig : msk.sig = true := by assumption) (msch : msk.sch = true := by assumption) (mio : msk.io = true := by assumption) (mqp : msk.qp = true := by assumption) : Same msk s0 (stateEff e s) := by
  unfold stateEff
  try dsimp only
  with_reducible repeat' first | assumption | apply axisEff_stays | apply busEff_stays | apply flowLimitEff_stays | apply grpClearEff_stays | apply grpConfigureEff_stays | apply grpDisableEff_stays | apply grpEnableEff_stays | apply injectStopEff_stays | apply ioReenableEff_stays | apply ioReleaseEff_stays | apply ioStoResetEff_stays | apply qpAssignEff_stays | apply sigWatchEff_stays | apply sigWriteEff_stays | apply traceArmEff_stays | apply traceStopEff_stays | (apply same_mk; (iterate 13 (first | exact Or.inr rfl | exact Or.inl ‹_›)); (first | assumption | apply axisEff_stays | apply busEff_stays | apply flowLimitEff_stays | apply grpClearEff_stays | apply grpConfigureEff_stays | apply grpDisableEff_stays | apply grpEnableEff_stays | apply injectStopEff_stays | apply ioReenableEff_stays | apply ioReleaseEff_stays | apply ioStoResetEff_stays | apply qpAssignEff_stays | apply sigWatchEff_stays | apply sigWriteEff_stays | apply traceArmEff_stays | apply traceStopEff_stays | split)) | split | intro _

theorem motionEff_stays (e : Eff) (s : State) (hs : Same msk s0 s) (mstrm : msk.strm = true := by assumption) (maxes : msk.axes = true := by assumption) (mgrps : msk.grps = true := by assumption) (msch : msk.sch = true := by assumption) (mio : msk.io = true := by assumption) (mstp : msk.stp = true := by assumption) : Same msk s0 (motionEff e s) := by
  unfold motionEff
  try dsimp only
  with_reducible repeat' first | assumption | apply axisEff_stays | apply detachStrm_stays | apply grpHomeEff_stays | apply grpResumeEff_stays | apply keepPromise_stays | apply moveEff_stays | apply strmAnchorEff_stays | (apply same_mk; (iterate 13 (first | exact Or.inr rfl | exact Or.inl ‹_›)); (first | assumption | apply axisEff_stays | apply detachStrm_stays | apply grpHomeEff_stays | apply grpResumeEff_stays | apply keepPromise_stays | apply moveEff_stays | apply strmAnchorEff_stays | split)) | split | intro _

theorem eventsCadence_stays (s : State) (hs : Same msk s0 s) (mstrm : msk.strm = true := by assumption) (mbus : msk.bus = true := by assumption) (maxes : msk.axes = true := by assumption) (mgrps : msk.grps = true := by assumption) (msig : msk.sig = true := by assumption) (msch : msk.sch = true := by assumption) (mio : msk.io = true := by assumption) (mstp : msk.stp = true := by assumption) (mqp : msk.qp = true := by assumption) : Same msk s0 (eventsCadence s) := by
  unfold eventsCadence
  try dsimp only
  with_reducible repeat' first | assumption | apply conditionsCadence_stays | apply faultsCadence_stays | apply forNat_stays | apply grpHoldEff_stays | apply homeCadence_stays | apply keepPromise_stays | apply limitsTakeover_stays | apply loopEff_stays | apply motionEff_stays | apply poseMoves_stays | apply runEffs_stays | apply stateEff_stays | apply stopsCadence_stays | apply strmTakes_stays | apply writesCadence_stays | (apply same_mk; (iterate 13 (first | exact Or.inr rfl | exact Or.inl ‹_›)); (first | assumption | apply conditionsCadence_stays | apply faultsCadence_stays | apply forNat_stays | apply grpHoldEff_stays | apply homeCadence_stays | apply keepPromise_stays | apply limitsTakeover_stays | apply loopEff_stays | apply motionEff_stays | apply poseMoves_stays | apply runEffs_stays | apply stateEff_stays | apply stopsCadence_stays | apply strmTakes_stays | apply writesCadence_stays | split)) | split | intro _

theorem outputsCadence_stays (s : State) (hs : Same msk s0 s) (mbus : msk.bus = true := by assumption) (maxes : msk.axes = true := by assumption) (mio : msk.io = true := by assumption) (mstp : msk.stp = true := by assumption) : Same msk s0 (outputsCadence s) := by
  unfold outputsCadence
  try dsimp only
  with_reducible repeat' first | assumption | apply busCadence_stays | apply ioCadence_stays | apply keepPromise_stays | apply runEffs_stays | apply stpCadence_stays | apply stpEff_stays | (apply same_mk; (iterate 13 (first | exact Or.inr rfl | exact Or.inl ‹_›)); (first | assumption | apply busCadence_stays | apply ioCadence_stays | apply keepPromise_stays | apply runEffs_stays | apply stpCadence_stays | apply stpEff_stays | split)) | split | intro _

theorem cadenceStart_stays (s : State) (hs : Same msk s0 s) (mstrm : msk.strm = true := by assumption) (mcad : msk.cad = true := by assumption) (mbus : msk.bus = true := by assumption) (mpel : msk.pel = true := by assumption) (maxes : msk.axes = true := by assumption) (mgrps : msk.grps = true := by assumption) (msig : msk.sig = true := by assumption) (msch : msk.sch = true := by assumption) (mio : msk.io = true := by assumption) (mstp : msk.stp = true := by assumption) (mqp : msk.qp = true := by assumption) : Same msk s0 (cadenceStart s) := by
  unfold cadenceStart
  try dsimp only
  with_reducible repeat' first | assumption | apply beginCadence_stays | apply eventsCadence_stays | apply frozenFrames_stays | apply injCadence_stays | apply outputsCadence_stays | apply timeCadence_stays | (apply same_mk; (iterate 13 (first | exact Or.inr rfl | exact Or.inl ‹_›)); (first | assumption | apply beginCadence_stays | apply eventsCadence_stays | apply frozenFrames_stays | apply injCadence_stays | apply outputsCadence_stays | apply timeCadence_stays | split)) | split | intro _

theorem groupCutoff_stays (g : Nat) (s : State) (hs : Same msk s0 s) (maxes : msk.axes = true := by assumption) (mgrps : msk.grps = true := by assumption) : Same msk s0 (groupCutoff g s) := by
  unfold groupCutoff
  try dsimp only
  with_reducible repeat' first | assumption | apply count_stays | apply interpolate_stays | apply lamCadence_stays | apply modGrp_stays | apply startMoves_stays | apply strmClock_stays | apply strmStep_stays | (apply same_mk; (iterate 13 (first | exact Or.inr rfl | exact Or.inl ‹_›)); (first | assumption | apply count_stays | apply interpolate_stays | apply lamCadence_stays | apply modGrp_stays | apply startMoves_stays | apply strmClock_stays | apply strmStep_stays | split)) | split | intro _

theorem generate_stays (s : State) (hs : Same msk s0 s) (maxes : msk.axes = true := by assumption) (mgrps : msk.grps = true := by assumption) : Same msk s0 (generate s) := by
  unfold generate
  try dsimp only
  with_reducible repeat' first | assumption | apply count_stays | apply countZero_stays | apply feedMembers_stays | apply forNat_stays | apply genStep_stays | apply groupCutoff_stays | apply slavesFollow_stays | (apply same_mk; (iterate 13 (first | exact Or.inr rfl | exact Or.inl ‹_›)); (first | assumption | apply count_stays | apply countZero_stays | apply feedMembers_stays | apply forNat_stays | apply genStep_stays | apply groupCutoff_stays | apply slavesFollow_stays | split)) | split | intro _

theorem planSnapshot_stays (s : State) (hs : Same msk s0 s) (mstrm : msk.strm = true := by assumption) (mgrps : msk.grps = true := by assumption) (mqp : msk.qp = true := by assumption) (mssm : msk.ssm = true := by assumption) : Same msk s0 (planSnapshot s) := by
  unfold planSnapshot
  try dsimp only
  with_reducible repeat' first | assumption | apply grpSnapshot_stays | apply obstacleSnapshot_stays | apply qpSnapshot_stays | (apply same_mk; (iterate 13 (first | exact Or.inr rfl | exact Or.inl ‹_›)); (first | assumption | apply grpSnapshot_stays | apply obstacleSnapshot_stays | apply qpSnapshot_stays | split)) | split | intro _

theorem initLoop_stays (a : Nat) (s : State) (hs : Same msk s0 s) (maxes : msk.axes = true := by assumption) : Same msk s0 (initLoop a s) := by
  unfold initLoop
  try dsimp only
  with_reducible repeat' first | assumption | apply setAxis_stays | (apply same_mk; (iterate 13 (first | exact Or.inr rfl | exact Or.inl ‹_›)); (first | assumption | apply setAxis_stays | split)) | split | intro _

theorem feedbackCutoff_stays (s : State) (hs : Same msk s0 s) (mstrm : msk.strm = true := by assumption) (mcad : msk.cad = true := by assumption) (mbus : msk.bus = true := by assumption) (maxes : msk.axes = true := by assumption) (mgrps : msk.grps = true := by assumption) (msch : msk.sch = true := by assumption) (mio : msk.io = true := by assumption) (mstp : msk.stp = true := by assumption) (mqp : msk.qp = true := by assumption) (mssm : msk.ssm = true := by assumption) : Same msk s0 (feedbackCutoff s) := by
  unfold feedbackCutoff
  split
  · exact hs
  extract_lets s1 s2 s3
  have h1 : Same msk s0 s1 := planSnapshot_stays _ (generate_stays _ (advanceTo_stays _ _ hs))
  clear_value s1
  have h2 : Same msk s0 s2 := freewheel_stays _ (guardSnapshot_stays _ (freewheel2_stays _ h1))
  clear_value s2
  have h3 : Same msk s0 s3 := forNat_stays _ _ _ (fun a t ht => initLoop_stays _ _ ht) h2
  clear_value s3
  apply same_mk; (iterate 13 (first | exact Or.inr rfl | exact Or.inl ‹_›)); exact h3

theorem loopCounts_stays (a : Nat) (l : LoopSt) (m : Marks) (inj : Bool) (s : State) (hs : Same msk s0 s) (msch : msk.sch = true := by assumption) : Same msk s0 (loopCounts a l m inj s) := by
  unfold loopCounts
  try dsimp only
  with_reducible repeat' first | assumption | apply addBusy_stays | apply count_stays | apply tileMarks_stays | (apply same_mk; (iterate 13 (first | exact Or.inr rfl | exact Or.inl ‹_›)); (first | assumption | apply addBusy_stays | apply count_stays | apply tileMarks_stays | split)) | split | intro _

theorem loopCompute_stays (a : Nat) (s : State) (hs : Same msk s0 s) (maxes : msk.axes = true := by assumption) (msch : msk.sch = true := by assumption) : Same msk s0 (loopCompute a s) := by
  unfold loopCompute
  try dsimp only
  with_reducible repeat' first | assumption | apply injAdvance_stays | apply injValue_stays | apply loopCounts_stays | apply raiseIf_stays | apply setAxis_stays | (apply same_mk; (iterate 13 (first | exact Or.inr rfl | exact Or.inl ‹_›)); (first | assumption | apply injAdvance_stays | apply injValue_stays | apply loopCounts_stays | apply raiseIf_stays | apply setAxis_stays | split)) | split | intro _

theorem followCheck_stays (a : Nat) (s : State) (hs : Same msk s0 s) (maxes : msk.axes = true := by assumption) : Same msk s0 (followCheck a s) := by
  unfold followCheck
  try dsimp only
  with_reducible repeat' first | assumption | apply modAxis_stays | apply raiseIf_stays | apply reqFault_stays | (apply same_mk; (iterate 13 (first | exact Or.inr rfl | exact Or.inl ‹_›)); (first | assumption | apply modAxis_stays | apply raiseIf_stays | apply reqFault_stays | split)) | split | intro _

theorem skewCheck_stays (g : Nat) (s : State) (hs : Same msk s0 s) (maxes : msk.axes = true := by assumption) : Same msk s0 (skewCheck g s) := by
  unfold skewCheck
  try dsimp only
  with_reducible repeat' first | assumption | apply forNat_stays | apply reqFault_stays | (apply same_mk; (iterate 13 (first | exact Or.inr rfl | exact Or.inl ‹_›)); (first | assumption | apply forNat_stays | apply reqFault_stays | split)) | split | intro _

theorem checksCompute_stays (s : State) (hs : Same msk s0 s) (maxes : msk.axes = true := by assumption) (mgrps : msk.grps = true := by assumption) : Same msk s0 (checksCompute s) := by
  unfold checksCompute
  try dsimp only
  with_reducible repeat' first | assumption | apply badInput_stays | apply followCheck_stays | apply forNat_stays | apply limitStop_stays | apply skewCheck_stays | (apply same_mk; (iterate 13 (first | exact Or.inr rfl | exact Or.inl ‹_›)); (first | assumption | apply badInput_stays | apply followCheck_stays | apply forNat_stays | apply limitStop_stays | apply skewCheck_stays | split)) | split | intro _

theorem computeEnd_stays (s : State) (hs : Same msk s0 s) (mcad : msk.cad = true := by assumption) (maxes : msk.axes = true := by assumption) (mgrps : msk.grps = true := by assumption) (msig : msk.sig = true := by assumption) (msch : msk.sch = true := by assumption) (mio : msk.io = true := by assumption) (mstp : msk.stp = true := by assumption) : Same msk s0 (computeEnd s) := by
  unfold computeEnd
  split
  · exact hs
  extract_lets c1 s1 s2 s3 s4
  have h1 : Same msk s0 s1 := advanceTo_stays _ _ hs
  clear_value s1
  have h2 : Same msk s0 s2 := checksCompute_stays _ (forNat_stays _ _ _ (fun a t ht => loopCompute_stays _ _ ht) h1)
  clear_value s2
  have h3 : Same msk s0 s3 := stpCompute_stays _ _ _ (buildImage_stays _ _ (sendActions_stays _ (forNat_stays _ _ _ (fun n t ht => stpLimitStop_stays _ _ _ ht) h2)))
  clear_value s3
  have h4 : Same msk s0 s4 := resumeFft_stays _ (traceCadence_stays _ (mirrorUpdate_stays _ (sigUpdate_stays _ h3)))
  clear_value s4
  apply same_mk; (iterate 13 (first | exact Or.inr rfl | exact Or.inl ‹_›)); exact h4

theorem planningBoundary_stays (s : State) (hs : Same msk s0 s) (mcad : msk.cad = true := by assumption) (mgrps : msk.grps = true := by assumption) (msch : msk.sch = true := by assumption) (mqp : msk.qp = true := by assumption) (mssm : msk.ssm = true := by assumption) : Same msk s0 (planningBoundary s) := by
  unfold planningBoundary
  extract_lets b s1 s2 s3
  split
  · exact hs
  have h1 : Same msk s0 s1 := runEffs_stays _ _ _ _ (fun e u hu => setPayloadEff_stays _ _ hu) (clearLanes_stays _ (replaceLanes_stays _ hs))
  clear_value s1
  have h2 : Same msk s0 s2 := forNat_stays _ _ _ (fun g t ht => laHold_stays _ _ ht) (forNat_stays _ _ _ (fun g t ht => qpBoundary_stays _ _ _ ht) h1)
  clear_value s2
  have h3 : Same msk s0 s3 := zoneBoundary_stays _ _ h2
  clear_value s3
  apply same_mk; (iterate 13 (first | exact Or.inr rfl | exact Or.inl ‹_›)); exact h3

theorem verdictDeadline_stays (s : State) (hs : Same msk s0 s) (mstrm : msk.strm = true := by assumption) (maxes : msk.axes = true := by assumption) (mgrps : msk.grps = true := by assumption) (msig : msk.sig = true := by assumption) (msch : msk.sch = true := by assumption) (mio : msk.io = true := by assumption) (mstp : msk.stp = true := by assumption) (mqp : msk.qp = true := by assumption) (mssm : msk.ssm = true := by assumption) : Same msk s0 (verdictDeadline s) := by
  unfold verdictDeadline
  try dsimp only
  with_reducible repeat' first | assumption | apply forNat_stays | apply replan_stays | apply sepSignals_stays | apply verdict_stays | (apply same_mk; (iterate 13 (first | exact Or.inr rfl | exact Or.inl ‹_›)); (first | assumption | apply forNat_stays | apply replan_stays | apply sepSignals_stays | apply verdict_stays | split)) | split | intro _

theorem busyLatch_stays (s : State) (hs : Same msk s0 s) (msch : msk.sch = true := by assumption) : Same msk s0 (busyLatch s) := by
  unfold busyLatch
  try dsimp only
  with_reducible repeat' first | assumption | apply addBusy_stays | apply forNat_stays | apply roundStart_stays | (apply same_mk; (iterate 13 (first | exact Or.inr rfl | exact Or.inl ‹_›)); (first | assumption | apply addBusy_stays | apply forNat_stays | apply roundStart_stays | split)) | split | intro _

theorem roundStart_stays (s : State) (hs : Same msk s0 s) (mcad : msk.cad = true := by assumption) (mbus : msk.bus = true := by assumption) (mpel : msk.pel = true := by assumption) (msig : msk.sig = true := by assumption) (msch : msk.sch = true := by assumption) (mssm : msk.ssm = true := by assumption) : Same msk s0 (roundStart s) := by
  unfold roundStart
  split
  · exact hs
  split
  · exact hs
  extract_lets first s1 s2 s3 sch s4
  have h2 : Same msk s0 s2 := pelRound_stays _ (busRound_stays _ _ (advanceTo_stays _ _ hs))
  clear_value s2 s1
  have h3 : Same msk s0 s3 := runEffs_stays _ _ _ _ (fun e u hu => sigMapEff_stays _ _ hu) (runEffs_stays _ _ _ _ (fun e u hu => sensorEff_stays _ _ hu) h2)
  clear_value s3
  have h4 : Same msk s0 s4 := by
    simp only [s4]; split
    · apply same_mk; (iterate 13 (first | exact Or.inr rfl | exact Or.inl ‹_›)); exact h3
    · exact busyLatch_stays _ h3
  clear_value s4
  apply same_mk; (iterate 13 (first | exact Or.inr rfl | exact Or.inl ‹_›)); exact h4

theorem actionAct_stays (a : Armed) (s : State) (hs : Same msk s0 s) (mio : msk.io = true := by assumption) : Same msk s0 (actionAct a s) := by
  unfold actionAct
  try dsimp only
  with_reducible repeat' first | assumption | apply drivePin_stays | apply forNat_stays | apply trigger_stays | apply writeCh_stays | (apply same_mk; (iterate 13 (first | exact Or.inr rfl | exact Or.inl ‹_›)); (first | assumption | apply drivePin_stays | apply forNat_stays | apply trigger_stays | apply writeCh_stays | split)) | split | intro _

theorem timedActionFire_stays (u : Nat) (s : State) (hs : Same msk s0 s) (mio : msk.io = true := by assumption) : Same msk s0 (timedActionFire u s) := by
  unfold timedActionFire
  try dsimp only
  with_reducible repeat' first | assumption | apply actionAct_stays | apply fireUnit_stays | apply triggerDropped_stays | (apply same_mk; (iterate 13 (first | exact Or.inr rfl | exact Or.inl ‹_›)); (first | assumption | apply actionAct_stays | apply fireUnit_stays | apply triggerDropped_stays | split)) | split | intro _

theorem missRecord_stays (k type obj dl : Nat) (s : State) (hs : Same msk s0 s) (msch : msk.sch = true := by assumption) : Same msk s0 (missRecord k type obj dl s) := by
  unfold missRecord
  try dsimp only
  with_reducible repeat' first | assumption | apply count_stays | apply journal_stays | apply raise_stays | apply setCls_stays | (apply same_mk; (iterate 13 (first | exact Or.inr rfl | exact Or.inl ‹_›)); (first | assumption | apply count_stays | apply journal_stays | apply raise_stays | apply setCls_stays | split)) | split | intro _

theorem endMissed_stays (g j : Nat) (s : State) (hs : Same msk s0 s) (mqp : msk.qp = true := by assumption) : Same msk s0 (endMissed g j s) := by
  unfold endMissed
  try dsimp only
  with_reducible repeat' first | assumption | apply modQp_stays | apply modScen_stays | (apply same_mk; (iterate 13 (first | exact Or.inr rfl | exact Or.inl ‹_›)); (first | assumption | apply modQp_stays | apply modScen_stays | split)) | split | intro _

theorem selectionMissed_stays (g : Nat) (s : State) (hs : Same msk s0 s) (mgrps : msk.grps = true := by assumption) (mqp : msk.qp = true := by assumption) : Same msk s0 (selectionMissed g s) := by
  unfold selectionMissed
  try dsimp only
  with_reducible repeat' first | assumption | apply fallenBack_stays | apply modGrp_stays | apply modQp_stays | (apply same_mk; (iterate 13 (first | exact Or.inr rfl | exact Or.inl ‹_›)); (first | assumption | apply fallenBack_stays | apply modGrp_stays | apply modQp_stays | split)) | split | intro _

theorem missConsequence_stays (type obj : Nat) (s : State) (hs : Same msk s0 s) (maxes : msk.axes = true := by assumption) (mgrps : msk.grps = true := by assumption) (mqp : msk.qp = true := by assumption) : Same msk s0 (missConsequence type obj s) := by
  unfold missConsequence
  try dsimp only
  with_reducible repeat' first | assumption | apply endMissed_stays | apply forNat_stays | apply modAxis_stays | apply modGrp_stays | apply selectionMissed_stays | (apply same_mk; (iterate 13 (first | exact Or.inr rfl | exact Or.inl ‹_›)); (first | assumption | apply endMissed_stays | apply forNat_stays | apply modAxis_stays | apply modGrp_stays | apply selectionMissed_stays | split)) | split | intro _

theorem abandonWaiting_stays (k f : Nat) (t : Task) (s : State) (hs : Same msk s0 s) (msch : msk.sch = true := by assumption) : Same msk s0 (abandonWaiting k f t s) := by
  unfold abandonWaiting
  try dsimp only
  with_reducible repeat' first | assumption | apply flowNext_stays | apply setCls_stays | apply setFlow_stays | (apply same_mk; (iterate 13 (first | exact Or.inr rfl | exact Or.inl ‹_›)); (first | assumption | apply flowNext_stays | apply setCls_stays | apply setFlow_stays | split)) | split | intro _

theorem deadlineMiss_stays (k f : Nat) (s : State) (hs : Same msk s0 s) (maxes : msk.axes = true := by assumption) (mgrps : msk.grps = true := by assumption) (msch : msk.sch = true := by assumption) (mqp : msk.qp = true := by assumption) : Same msk s0 (deadlineMiss k f s) := by
  unfold deadlineMiss
  split
  · exact hs
  split
  · rename_i t u _
    extract_lets dl s1 s2
    have h1 : Same msk s0 s1 := advanceTo_stays _ _ hs
    clear_value s1
    refine missConsequence_stays _ _ _ (missRecord_stays _ _ _ _ _ ?_)
    simp only [s2]
    split
    · exact taskEnd_stays _ _ _ h1
    · exact abandonWaiting_stays _ _ _ _ h1
  · split
    · exact hs
    split
    · exact qpDeadline_stays _ _ _ hs
    split
    · exact hs
    · exact missConsequence_stays _ _ _ (missRecord_stays _ _ _ _ _ (advanceTo_stays _ _ hs))

theorem badOpcode_stays (r : CmdRef) (s : State) (hs : Same msk s0 s)  : Same msk s0 (badOpcode r s) := by
  unfold badOpcode
  try dsimp only
  with_reducible repeat' first | assumption | apply complete_stays | apply deviceFault_stays | (apply same_mk; (iterate 13 (first | exact Or.inr rfl | exact Or.inl ‹_›)); (first | assumption | apply complete_stays | apply deviceFault_stays | split)) | split | intro _

end Sys2Proof.Machine
end

