-- ==== Sys2Proof/Laws/Rows.lean ====
section
/-!
SUPPORT. What the shared operations behind the rows for time, buses, peloton, scheduler, field channels, groups and the journal do,
said once: the rows' proofs cite these and do not unfold the operations.
-/
namespace Sys2Proof.Machine

set_option Elab.async false

/-! Which part of the state a reader reads. -/

theorem now_congr {a b : State} (h : a.time = b.time) : now a = now b := by unfold now; rw [h]

theorem grpOf_congr {a b : State} (g : Nat) (h : a.grps = b.grps) : grpOf a g = grpOf b g := by unfold grpOf; rw [h]

theorem segOf_congr {a b : State} (k : Nat) (h : a.bus = b.bus) : segOf a k = segOf b k := by unfold segOf; rw [h]

theorem slotOf_congr {a b : State} (m k : Nat) (h : a.host = b.host) : slotOf a m k = slotOf b m k := by unfold slotOf mbOf; rw [h]

theorem ptpOf_congr {a b : State} (p : Nat) (h : a.ptp = b.ptp) : ptpOf a p = ptpOf b p := by unfold ptpOf; rw [h]

theorem unitOf_congr {a b : State} (p : Nat) (h : a.time = b.time) : unitOf a p = unitOf b p := by unfold unitOf; rw [h]

theorem clsOf_congr {a b : State} (k : Nat) (h : a.sch.cls = b.sch.cls) : clsOf a k = clsOf b k := by unfold clsOf; rw [h]

theorem onUnit_congr {a b : State} (k u : Nat) (h : a.sch.units = b.sch.units) : onUnit a k u = onUnit b k u := by unfold onUnit; rw [h]

theorem chanOf_congr {a b : State} (c : Nat) (h : a.io = b.io) : chanOf a c = chanOf b c := by unfold chanOf; rw [h]

theorem fgOf_congr {a b : State} (c : Nat) (h : a.io.grp = b.io.grp) : fgOf a c = fgOf b c := by unfold fgOf; rw [h]

theorem axisOf_congr' {a b : State} (k : Nat) (h : a.axes = b.axes) : axisOf a k = axisOf b k := by unfold axisOf; rw [h]

/-! Time and the cadence. -/

theorem timeTick_eq (s : State) : timeTick s = { s with time := { s.time with
   long := BitVec.ofNat 64 ((s.time.long.toNat * 2 ^ 32 + s.time.frac.toNat + s.time.inc.toNat) / 2 ^ 32)
   frac := BitVec.ofNat 32 (s.time.long.toNat * 2 ^ 32 + s.time.frac.toNat + s.time.inc.toNat) } } := by unfold timeTick; rfl

theorem now_advanceTo (t : Nat) (s : State) (h : t < 2 ^ 64) : t ≤ now (advanceTo t s) := by
  unfold advanceTo
  by_cases c : now s < t
  · rw [if_pos c]; show t ≤ (BitVec.ofNat 64 t).toNat; exact Nat.le_of_eq ((BitVec.toNat_ofNat t 64).trans (Nat.mod_eq_of_lt h)).symm
  · rw [if_neg c]; omega

theorem advanceTo_id (t : Nat) (s : State) (h : t ≤ now s) : advanceTo t s = s := by unfold advanceTo; rw [if_neg (by omega)]

theorem frozenFrames_cad (s : State) : (frozenFrames s).cad = s.cad := by
  unfold frozenFrames
  exact forNat_sameCad _ _ _ (fun k t ht => by
    have h : SameCad s (cadenceFrame k { t with axes := t.axes.map (fun e => (e.1, frozenAxis e.2)) }) := cadenceFrame_sameCad _ _ ht
    exact h) rfl

theorem setSens_sameCad {s0 : State} (n : Nat) (x) (s : State) (hs : SameCad s0 s) : SameCad s0 (setSens n x s) := hs

theorem sensorBoundary_sameCad {s0 : State} (n : Nat) (s : State) (hs : SameCad s0 s) : SameCad s0 (sensorBoundary n s) := by
  unfold sensorBoundary
  try dsimp only
  with_reducible repeat' first | assumption | apply setSens_sameCad | apply count_sameCad | apply journal_sameCad | split | intro _

theorem forNat_id (l : List Nat) (f : Nat → State → State) (s : State) (h : ∀ n ∈ l, f n s = s) : forNat l f s = s := by
  induction l with
  | nil => rfl
  | cons a l ih => show forNat l f (f a s) = s; rw [h a (by simp)]; exact ih (fun n hn => h n (by simp [hn]))

/-! Armed actions. -/

theorem arm_host (a : Armed) (s : State) : (arm a s).host = s.host := by unfold arm; split <;> rfl

theorem arm_congr (a : Armed) {s t : State} (q : Quiet s t) (ha : t.admitSeq = s.admitSeq) : Quiet (arm a s) (arm a t) := by
  obtain ⟨mb, bar2, pba, pend, lost, sent, spokes, occ, out, adm, rfl⟩ := q.eta
  dsimp only at ha; subst ha
  unfold arm
  have e : freeUnit ({ s with
    host := { s.host with mb := mb, bar2 := bar2, pba := pba }, evt := { s.evt with pend := pend, lost := lost, sent := sent }
    hub := { s.hub with spokes := spokes }, trc := { s.trc with occurred := occ }, out := out } : State) = freeUnit s := rfl
  dsimp only at e ⊢
  rw [e]
  split <;> constructor <;> rfl

theorem post_quiet (c : Cmd) {s t : State} (q : Quiet s t) :
   Quiet { s with eff := s.eff ++ [{effOf c s with seq := t.admitSeq}] } (post c t) := by
  obtain ⟨mb, bar2, pba, pend, lost, sent, spokes, occ, out, adm, rfl⟩ := q.eta
  constructor <;> rfl

theorem unitOf_setUnit_self (u : Nat) (x) (s : State) : unitOf (setUnit u x s) u = x := by simp [unitOf, setUnit, tget_tset]

theorem unitOf_count (u l e) (s : State) : unitOf (count l e s) u = unitOf s u := unitOf_congr _ (count_time _ _ _)

/-! Segments and the peloton. -/

theorem complete_bus (m k st t q r) (s : State) : (complete m k st t q r s).bus = s.bus :=
  (complete_stays (msk := {}) m k st t q r s (.refl _ _)).bus.resolve_left (by decide)

theorem vzEvent_seg (k b : Nat) (s : State) : segOf (vzEvent k b s) k = { segOf s k with cause := (segOf s k).cause ||| BitVec.twoPow 8 b } := by
  unfold vzEvent; rw [segOf_congr k (raise_bus _ _)]; simp

theorem vzEvent_pending (k b : Nat) (s : State) (h : k < 8) : Pending (vzEvent k b s) (32 + k) := by
  unfold vzEvent; exact raise_sets_pending _ _ (by omega)

theorem segTo_state (k st : Nat) (s : State) : (segOf (segTo k st s) k).state = st := by
  unfold segTo; split
  · assumption
  · rw [vzEvent_seg]; simp

theorem segTo_start (k st : Nat) (s : State) : (segOf (segTo k st s) k).start = (segOf s k).start := by
  unfold segTo; split
  · rfl
  · rw [vzEvent_seg]; simp

theorem journal_seg (k a b c d e f) (s : State) : segOf (journal a b c d e f s) k = segOf s k := segOf_congr k (journal_bus _ _ _ _ _ _ _)

theorem count_seg (k l e) (s : State) : segOf (count l e s) k = segOf s k := segOf_congr k (count_bus _ _ _)

theorem startFail_state (k r c q : Nat) (s : State) : (segOf (startFail k r c q s) k).state = (segOf s k).state := by
  unfold startFail startEnd
  split
  · rfl
  · rw [segOf_congr k (complete_bus _ _ _ _ _ _ _)]; simp

theorem startFail_axes (k r c q : Nat) (s : State) : (startFail k r c q s).axes = s.axes := by
  unfold startFail startEnd
  split
  · rfl
  · rw [(complete_stays (msk := {}) _ _ _ _ _ _ _ (.refl _ _)).axes.resolve_left (by decide)]; rfl

theorem complete_pel (m k st t q r) (s : State) : (complete m k st t q r s).pel = s.pel :=
  (complete_stays (msk := {}) m k st t q r s (.refl _ _)).pel.resolve_left (by decide)

theorem pelSend_pel (a b c d e f) (s : State) : (pelSend a b c d e f s).pel = s.pel := by
  unfold pelSend; cases a <;> simp <;> split <;> first | rfl | simp

theorem pelSend_time (a b c d e f) (s : State) : (pelSend a b c d e f s).time = s.time := by
  unfold pelSend; cases a <;> simp <;> split <;> first | rfl | simp

theorem pelSend_evt (a b c d e f) (s : State) : (pelSend a b c d e f s).evt = s.evt := by
  unfold pelSend; cases a <;> simp <;> split <;> first | rfl | simp

theorem startDone_pel (r) (s : State) : (startDone r s).pel = { s.pel with
    state := if r = 0 then 2 else 3, started := none, reason := r, addr := if r = 0 then s.pel.addr else 0 } := by
  unfold startDone; dsimp only; split
  · rw [complete_pel]; rfl
  · rfl

/-! The scheduler. -/

theorem clsOf_setCls' (k : Nat) (v) (s : State) (j) : clsOf (setCls k v s) j = if j = k then v else clsOf s j := by simp [clsOf, setCls, tget_tset]

theorem noteDepth_eq (k : Nat) (s : State) : ∃ v, (noteDepth k s).sch = (setCls k v s).sch ∧ v.ready = (clsOf s k).ready ∧
    v.stalled = (clsOf s k).stalled ∧ v.stalls = (clsOf s k).stalls ∧ v.held = (clsOf s k).held := by
  unfold noteDepth; dsimp only
  rw [raiseIf_sch]
  exact ⟨_, rfl, rfl, rfl, rfl, rfl⟩

theorem addBusy_sch (k u n : Nat) (s : State) : (addBusy k u n s).sch = { s.sch with busy := tset 0 s.sch.busy (64 * k + u) (tget 0 s.sch.busy (64 * k + u) + n) } := by
  unfold addBusy; dsimp only; repeat' split
  all_goals simp only [countN_sch]

theorem addBusy_axes (k u n : Nat) (s : State) : (addBusy k u n s).axes = s.axes := by
  unfold addBusy; dsimp only; repeat' split
  all_goals rfl

theorem addBusy_grps (k u n : Nat) (s : State) : (addBusy k u n s).grps = s.grps := by
  unfold addBusy; dsimp only; repeat' split
  all_goals rfl

theorem makeReady_cls (t : Task) (s : State) : (clsOf (makeReady t s) t.d.cls.val).ready = (clsOf s t.d.cls.val).ready ++ [{ t with readyAt := now s, order := s.admitSeq }] ∧
    (∀ j, j ≠ t.d.cls.val → clsOf (makeReady t s) j = clsOf s j) ∧ (makeReady t s).sch.flows = s.sch.flows ∧ (makeReady t s).axes = s.axes ∧ (makeReady t s).grps = s.grps := by
  unfold makeReady; dsimp only
  generalize hw : setCls _ _ _ = w
  obtain ⟨v, h1, h2, -⟩ := noteDepth_eq t.d.cls.val w
  refine ⟨?_, ?_, ?_, ?_, ?_⟩
  · rw [clsOf_congr _ (congrArg _ h1), clsOf_setCls', if_pos rfl, h2, ← hw, clsOf_setCls', if_pos rfl]
  · intro j hj
    rw [clsOf_congr _ (congrArg _ h1), clsOf_setCls', if_neg hj, ← hw, clsOf_setCls', if_neg hj]; rfl
  · rw [h1, ← hw]; rfl
  · rw [noteDepth_axes, ← hw]; rfl
  · rw [noteDepth_grps, ← hw]; rfl

theorem cls_count (k l e) (s : State) : clsOf (count l e s) k = clsOf s k := clsOf_congr _ (by rw [count_sch])

theorem cls_countN (k l e n) (s : State) : clsOf (countN l e n s) k = clsOf s k := clsOf_congr _ (by rw [countN_sch])

theorem cls_raiseIf (k c e) (s : State) : clsOf (raiseIf c e s) k = clsOf s k := clsOf_congr _ (by rw [raiseIf_sch])

/-! Field channels. -/

theorem fioReport_io (e a b c d) (s : State) : (fioReport e a b c d s).io = s.io := by
  unfold fioReport; split
  · rfl
  · cases e <;> simp

theorem fioReport_dev (e a b c d) (s : State) : (fioReport e a b c d s).dev = s.dev := by
  unfold fioReport; split
  · rfl
  · cases e <;> simp

/-- `t` has the channels of `s` but for their pins, and the supply groups, the safe state and the device island of `s`. -/
def PinEq (s t : State) : Prop := (∀ c, { chanOf t c with pin := false, pinAt := 0 } = { chanOf s c with pin := false, pinAt := 0 }) ∧ t.io.grp = s.io.grp ∧ t.io.safe = s.io.safe ∧ t.dev = s.dev

theorem PinEq.refl (s : State) : PinEq s s := ⟨fun _ => rfl, rfl, rfl, rfl⟩

theorem PinEq.trans {a b c : State} (h : PinEq a b) (g : PinEq b c) : PinEq a c :=
  ⟨fun x => (g.1 x).trans (h.1 x), g.2.1.trans h.2.1, g.2.2.1.trans h.2.2.1, g.2.2.2.trans h.2.2.2⟩

theorem chanOf_setChan' (c : Nat) (v) (s : State) (j) : chanOf (setChan c v s) j = if j = c then v else chanOf s j := by simp [chanOf, setChan, tget_tset]

theorem fgOf_setFg' (c : Nat) (v) (s : State) (j) : fgOf (setFg c v s) j = if j = c then v else fgOf s j := by simp [fgOf, setFg, tget_tset]

theorem chanOf_count (l e c) (s : State) : chanOf (count l e s) c = chanOf s c := chanOf_congr _ (count_io _ _ _)

theorem drivePin_eq (c v) (s : State) : PinEq s (drivePin c v s) := by
  have q : ∀ w, PinEq s w → PinEq s (emit .pin c [if v then 1 else 0] w) := fun w h => ⟨fun x => h.1 x, h.2.1, h.2.2.1, h.2.2.2⟩
  have q2 : ∀ l e w, PinEq s w → PinEq s (count l e w) := fun l e w h => ⟨fun x => by rw [chanOf_count]; exact h.1 x, by rw [count_io]; exact h.2.1, by rw [count_io]; exact h.2.2.1, by rw [count_dev]; exact h.2.2.2⟩
  have q3 : PinEq s (setChan c { chanOf s c with pin := v, pinAt := now s } s) := ⟨fun x => by
    rw [chanOf_setChan']; split
    · next h => rw [h]
    · rfl, rfl, rfl, rfl⟩
  unfold drivePin; dsimp only; split
  · exact .refl _
  · split
    · exact q2 _ _ _ (q _ q3)
    · exact q _ q3

theorem forNat_pin (l : List Nat) (f : Nat → State → State) (hf : ∀ n t, PinEq t (f n t)) (s : State) : PinEq s (forNat l f s) := by
  induction l generalizing s with
  | nil => exact .refl _
  | cons a l ih => exact (hf a s).trans (ih (f a s))

theorem pinsOff_eq (s : State) : PinEq s (pinsOff s) := forNat_pin _ _ (fun c t => by split; exact drivePin_eq _ _ _; exact .refl _) s

theorem pinsAll_eq (s : State) : PinEq s (pinsAll s) := forNat_pin _ _ (fun c t => drivePin_eq _ _ _) s

theorem PinEq.chan {s t : State} (h : PinEq s t) (c : Nat) : ∃ p q, chanOf t c = { chanOf s c with pin := p, pinAt := q } := by
  refine ⟨(chanOf t c).pin, (chanOf t c).pinAt, ?_⟩
  have := h.1 c
  generalize chanOf t c = a at *; generalize chanOf s c = b at *
  cases a; cases b; simp only [Chan.mk.injEq] at this ⊢; simp [this]

theorem addCode_chan (c k sv : Nat) (s : State) : chanOf (addCode c k sv s) c = { chanOf s c with codes := if hasCode (chanOf s c) k then (chanOf s c).codes else (chanOf s c).codes ||| BitVec.twoPow 8 k } := by
  unfold addCode; dsimp only
  split
  · rfl
  · rw [chanOf_congr (b := setChan c { chanOf s c with codes := (chanOf s c).codes ||| BitVec.twoPow 8 k } s) c (by unfold freeNext; dsimp only; rw [fioReport_io, count_io]), chanOf_setChan', if_pos rfl]

theorem addCode_has (c k sv : Nat) (s : State) (h : k < 8) : hasCode (chanOf (addCode c k sv s) c) k = true := by
  rw [addCode_chan]; unfold hasCode; dsimp only; split
  · assumption
  · simp [h]

theorem modChan_self (c : Nat) (f) (s : State) : chanOf (modChan c f s) c = f (chanOf s c) := by unfold modChan; rw [chanOf_setChan', if_pos rfl]

theorem tripChan_chan (c : Nat) (s : State) (h1 : (chanOf s c).tripped = false) (h2 : (chanOf s c).role = 2) :
    (chanOf (tripChan c s) c).tripped = true ∧ (chanOf (tripChan c s) c).trips = (chanOf s c).trips + 1 ∧ (chanOf (tripChan c s) c).hot = (chanOf s c).hot ∧
    (chanOf (tripChan c s) c).codes = (chanOf s c).codes := by
  unfold tripChan; dsimp only
  rw [if_neg (show ¬ (((chanOf s c).tripped || decide ((chanOf s c).role ≠ 2)) = true) by simp [h1, h2])]
  rw [chanOf_count]
  generalize hw : setChan c _ s = w
  obtain ⟨p, q, e⟩ := (pinsOff_eq w).chan c
  rw [e, ← hw, chanOf_setChan', if_pos rfl]
  exact ⟨rfl, rfl, rfl, rfl⟩

theorem setSupply_fg (x code mv : Nat) (s : State) (y) : fgOf (setSupply x code mv s) y = if y = x then { fgOf s x with supply := code, flpMv := mv } else fgOf s y := by
  unfold setSupply; dsimp only; split
  · exact fgOf_setFg' _ _ _ _
  · rw [fgOf_congr (b := setFg x { fgOf s x with supply := code, flpMv := mv } s) y (by rw [fioReport_io, count_io]), fgOf_setFg']

theorem enterSafe_one (s : State) (h : s.io.safe = 0) : (enterSafe 1 s).io.safe = 1 ∧ (enterSafe 1 s).dev.faultN = true := by
  unfold enterSafe
  rw [if_neg (by simp [h])]
  dsimp only
  refine ⟨?_, rfl⟩
  rw [(forNat_stays (msk := { stp := true }) _ _ _ (fun n t ht => stpSafe_stays _ _ ht (by rfl)) (.refl _ _)).io.resolve_left (by decide)]
  rw [(pinsAll_eq _).2.2.1]; rfl

/-! Groups, axes and step axes. -/

theorem grpOf_modGrp_self (g : Nat) (f : GroupSt → GroupSt) (t : State) : grpOf (modGrp g f t) g = f (grpOf t g) := by simp [modGrp]

theorem reqStop_stops (g c : Nat) (u s : State) (h : u.grps = s.grps) : (grpOf (reqStopGrp g c u) g).stops = (grpOf s g).stops ++ [c] := by
  unfold reqStopGrp; rw [grpOf_modGrp_self, grpOf_congr g h]

theorem ssmOf_modSsm_self (g : Nat) (f : SsmGrp → SsmGrp) (t : State) : ssmOf (modSsm g f t) g = f (ssmOf t g) := by simp [modSsm]

theorem ch2Issued_grps (g) (s : State) : (ch2Issued g s).grps = s.grps := rfl

theorem noteReason_grps' (g r) (s : State) : (noteReason g r s).grps = s.grps := rfl

theorem noteReason_cad' (g r) (s : State) : (noteReason g r s).cad = s.cad := rfl

theorem sepStop_stops (g c r : Nat) (d) (s : State) (h : s.cad.phase ≠ 0 ∨ s.cad.started = false) : (grpOf (sepStop g c r d s) g).stops = (grpOf s g).stops ++ [c] := by
  unfold sepStop; dsimp only
  have key : ∀ u : State, u.cad = s.cad → u.grps = s.grps → (grpOf (sepRequest g c u) g).stops = (grpOf s g).stops ++ [c] := by
    intro u h1 h2
    unfold sepRequest; dsimp only
    rw [if_neg (show ¬ ((decide (u.cad.phase = 0) && u.cad.started) = true) by
      rw [h1]; rcases h with h | h <;> simp [h])]
    exact reqStop_stops _ _ _ _ h2
  apply key
  · split
    · simp [noteReason_cad', modSsm]
    · exact noteReason_cad' _ _ _
  · split
    · simp [noteReason_grps', modSsm]
    · exact noteReason_grps' _ _ _

theorem reqStopAll_grp (c : Nat) (s : State) (g : Nat) (hg : g < 16) : (grpOf (reqStopAll c s) g).stops = (grpOf s g).stops ++ [c] := by
  have : ∀ (l : List Nat) (s : State), l.Nodup → (grpOf (forNat l (reqStopGrp · c) s) g).stops = (grpOf s g).stops ++ (if g ∈ l then [c] else []) := by
    intro l
    induction l with
    | nil => intro s _; simp [forNat]
    | cons x r ih =>
      intro s hn
      have hn := List.nodup_cons.mp hn
      refine (ih (reqStopGrp x c s) hn.2).trans ?_
      have e : grpOf (reqStopGrp x c s) g = if g = x then { grpOf s x with stops := (grpOf s x).stops ++ [c] } else grpOf s g := tget_tset _ _ _ _ _
      rw [e]
      by_cases hx : g = x
      · subst hx; rw [if_pos rfl, if_neg hn.1]; simp
      · rw [if_neg hx]; simp [hx]
  rw [reqStopAll, this _ _ List.nodup_range]; simp [hg]

theorem modAxis_axisOf (a : Nat) (f) (s : State) (b) : axisOf (modAxis a f s) b = if b = a then f (axisOf s a) else axisOf s b := by simp [modAxis]

theorem grpEvent_grp (g c : Nat) (s : State) : grpOf (grpEvent g c s) g = { grpOf s g with lastEvent := c, eventAt := s.cad.start } := by
  unfold grpEvent; rw [grpOf_congr g (raise_grps _ _), grpOf_modGrp_self]

theorem grpTo_state (g : Nat) (st) (s : State) : (grpOf (grpTo g st s) g).state = st := by
  unfold grpTo; dsimp only; split
  · assumption
  · rw [grpEvent_grp]; simp

theorem grpTo_keep (g : Nat) (st) (s : State) : (grpOf (grpTo g st s) g).moves = (grpOf s g).moves ∧ (grpOf (grpTo g st s) g).homeReason = (grpOf s g).homeReason ∧
    (grpOf (grpTo g st s) g).homeAxis = (grpOf s g).homeAxis := by
  unfold grpTo; dsimp only; split
  · exact ⟨rfl, rfl, rfl⟩
  · rw [grpEvent_grp]; simp

theorem stpHomeFail_stp (n r t : Nat) (s : State) (m) : stpOf (stpHomeFail n r t s) m = if m = n then { stpOf s n with
    homeReason := r, homed := false, home := .none, queue := (stpOf s n).queue ++ [{ stop := true, at' := t }], cause := (stpOf s n).cause ||| 4#8 } else stpOf s m := by
  unfold stpHomeFail stpEvent; dsimp only
  rw [show ∀ (e) (w : State), stpOf (raise e w) m = stpOf w m from fun e w => by unfold stpOf; rw [raise_stp]]
  simp only [stpOf, setStp, tget_tset, if_true]; split <;> rfl

/-- Group `g` holds this homing reason and axis. -/
def HomeResult (g : Nat) (r q : Nat) (t : State) : Prop := (grpOf t g).homeReason = r ∧ (grpOf t g).homeAxis = q

theorem HomeResult.mod {g r q : Nat} {t : State} (f : GroupSt → GroupSt) (hf : ∀ x, (f x).homeReason = x.homeReason ∧ (f x).homeAxis = x.homeAxis) (h : HomeResult g r q t) : HomeResult g r q (modGrp g f t) := by
  unfold HomeResult at *; rw [grpOf_modGrp_self, (hf _).1, (hf _).2]; exact h

theorem HomeResult.congr {g r q : Nat} {t u : State} (e : u.grps = t.grps) (h : HomeResult g r q t) : HomeResult g r q u := by
  unfold HomeResult at *; rw [grpOf_congr g e]; exact h

theorem HomeResult.event {g r q : Nat} {t : State} (c) (h : HomeResult g r q t) : HomeResult g r q (grpEvent g c t) := by
  unfold HomeResult at *; rw [grpEvent_grp]; exact h

theorem HomeResult.drop {g r q : Nat} {t : State} (h : HomeResult g r q t) : HomeResult g r q (dropTargets g t) :=
  HomeResult.mod _ (fun _ => ⟨rfl, rfl⟩) h

theorem HomeResult.preempt {g r q : Nat} (l : List MpcTarget) {t : State} (h : HomeResult g r q t) : HomeResult g r q (preemptAll g l t) := by
  unfold preemptAll
  induction l generalizing t with
  | nil => exact h
  | cons a l ih => exact ih (HomeResult.event _ (HomeResult.congr (journal_grps _ _ _ _ _ _ _) h))

theorem HomeResult.strm {g r q : Nat} {t : State} (h : HomeResult g r q t) : HomeResult g r q (strmTaken g t) := by
  unfold strmTaken
  split
  · unfold underrunMarks; dsimp only
    refine HomeResult.congr (raise_grps _ _) (HomeResult.congr (journal_grps _ _ _ _ _ _ _) ?_)
    refine HomeResult.congr (t := modGrp g (fun x => { x with strmRun := false, recs := [] }) t) rfl ?_
    exact HomeResult.mod _ (fun _ => ⟨rfl, rfl⟩) h
  · exact h

theorem HomeResult.stop {g r q cat : Nat} {t : State} (h : HomeResult g r q t) : HomeResult g r q (stopMembers g cat t) := by
  unfold stopMembers; dsimp only
  have hi : ∀ b u, HomeResult g r q u → HomeResult g r q (idleStop g cat b u) := fun b u hu => HomeResult.congr ((idleStop_stays (msk := { axes := true, stp := true, sch := true, io := true }) g cat b u (.refl _ _) rfl rfl rfl rfl).grps.resolve_left (by decide)) hu
  apply hi
  split
  · exact h
  · split
    · exact HomeResult.mod _ (fun _ => ⟨rfl, rfl⟩) h
    · exact HomeResult.mod _ (fun _ => ⟨rfl, rfl⟩) h

theorem freeOpen_grps (g : Nat) (s : State) : (freeOpen g s).grps = s.grps :=
  (freeOpen_stays (msk := { sch := true }) g s (.refl _ _) rfl).grps.resolve_left (by decide)

theorem HomeResult.begin {g r q cat : Nat} {o} {t : State} (h : HomeResult g r q t) : HomeResult g r q (beginStop g cat o t) := by
  unfold beginStop; dsimp only
  have h1 := (HomeResult.strm (HomeResult.drop h))
  generalize strmTaken g (dropTargets g t) = u at h1 ⊢
  have h2 : HomeResult g r q (if (grpOf u g).state = .homing then modGrp g (fun x => { x with axisStop := true, solved := false }) u else u) := by
    split
    · exact HomeResult.mod _ (fun _ => ⟨rfl, rfl⟩) h1
    · exact h1
  generalize (if (grpOf u g).state = .homing then modGrp g (fun x => { x with axisStop := true, solved := false }) u else u) = v at h2 ⊢
  have h4 := HomeResult.stop (cat := cat) h2
  have h5 : HomeResult g r q (if (grpOf t g).state = .enabling then freeOpen g (stopMembers g cat v) else stopMembers g cat v) := by
    split
    · exact HomeResult.congr (freeOpen_grps _ _) h4
    · exact h4
  have h3 := HomeResult.mod (fun x => { x with stopCat := some cat, outcome := o }) (fun _ => ⟨rfl, rfl⟩) h5
  refine HomeResult.preempt _ ?_
  unfold HomeResult
  rw [(grpTo_keep _ _ _).2.1, (grpTo_keep _ _ _).2.2]; exact h3

/-! The journal. -/

theorem journalWrite_jrn (s : State) (r q) (h : s.jrn.queueF = r :: q) : ∃ w, (journalWrite s).jrn = ctlWrite { s.jrn with
      queueF := q
      regB := tset none s.jrn.regB (s.jrn.next.toNat % regBSlots) (some (s.jrn.next.toNat, { r with inA := 2 ≤ r.sev && s.jrn.regA.length < 4096 }))
      regA := if 2 ≤ r.sev && s.jrn.regA.length < 4096 then s.jrn.regA ++ [{ r with inA := 2 ≤ r.sev && s.jrn.regA.length < 4096 }] else s.jrn.regA
      next := s.jrn.next + 1
      wrapSeen := w
      holdupWritten := if s.jrn.holdup then s.jrn.holdupWritten + 1 else s.jrn.holdupWritten } := by
  unfold journalWrite; rw [h]; dsimp only
  rw [raiseIf_jrn, raiseIf_jrn, raiseIf_jrn, count_jrn]
  exact ⟨_, rfl⟩

end Sys2Proof.Machine
end

