-- ==== Sys2Proof/Laws/SameExec.lean ====
section
/-!
SUPPORT. `Same` for every row of the table that is no mailbox command, no reset and no replay of a command image.
-/
namespace Sys2Proof.Machine

set_option Elab.async false
set_option linter.all false

/-- The islands that a row may change. -/
def maskOf (i : Instr) : Mask where
  strm := changesStreams i
  cad := changesCadence i
  ptp := changesPtp i
  bus := changesBus i
  pel := changesPeloton i
  axes := changesAxes i
  grps := changesGroups i
  sig := changesSignals i
  sch := changesScheduler i
  io := changesChannels i
  stp := changesSteps i
  qp := changesPlanning i
  ssm := changesSeparation i

theorem execCommandNoCredit_stays (m : Fin 8) (k : Fin 32) (s t : State) (h : exec (.commandNoCredit m k) s = .next t) : Same (maskOf (.commandNoCredit m k)) s t := by
  obtain rfl : (noCredit m.val k.val s) = t := Host.Outcome.next.inj h
  repeat' first | with_reducible exact .refl _ _ | exact rfl | apply noCredit_stays
theorem execMbDoneClear_stays (m : Fin 8) (w : Word) (s t : State) (h : exec (.mbDoneClear m w) s = .next t) : Same (maskOf (.mbDoneClear m w)) s t := by
  obtain rfl : (mbDoneWrite m.val w s) = t := Host.Outcome.next.inj h
  repeat' first | with_reducible exact .refl _ _ | exact rfl | apply mbDoneWrite_stays
theorem execMbStatClear_stays (m : Fin 8) (w : Word) (s t : State) (h : exec (.mbStatClear m w) s = .next t) : Same (maskOf (.mbStatClear m w)) s t := by
  obtain rfl : (mbStatWrite m.val w s) = t := Host.Outcome.next.inj h
  repeat' first | with_reducible exact .refl _ _ | exact rfl | apply mbStatWrite_stays
theorem execCommandBufferWrite_stays (m : Fin 8) (k : Fin 32) (off : BitVec 12) (b : List Byte) (s t : State) (h : exec (.commandBufferWrite m k off b) s = .next t) : Same (maskOf (.commandBufferWrite m k off b)) s t := by
  obtain rfl : (bar2HostWrite (cmdBuf m.val k.val + off.toNat) b s) = t := Host.Outcome.next.inj h
  repeat' first | with_reducible exact .refl _ _ | exact rfl | apply bar2HostWrite_stays
theorem execEvtPendClear_stays (i : Fin 4) (w : Word) (again : Word) (s t : State) (h : exec (.evtPendClear i w again) s = .next t) : Same (maskOf (.evtPendClear i w again)) s t := by
  obtain rfl : (evtPendWrite i.val w again s) = t := Host.Outcome.next.inj h
  repeat' first | with_reducible exact .refl _ _ | exact rfl | apply evtPendWrite_stays
theorem execEvtLostClear_stays (i : Fin 4) (w : Word) (s t : State) (h : exec (.evtLostClear i w) s = .next t) : Same (maskOf (.evtLostClear i w)) s t := by
  obtain rfl : (evtLostWrite i.val w s) = t := Host.Outcome.next.inj h
  repeat' first | with_reducible exact .refl _ _ | exact rfl | apply evtLostWrite_stays
theorem execEvtMaskWrite_stays (i : Fin 4) (w : Word) (s t : State) (h : exec (.evtMaskWrite i w) s = .next t) : Same (maskOf (.evtMaskWrite i w)) s t := by
  obtain rfl : (evtMaskWrite i.val w s) = t := Host.Outcome.next.inj h
  repeat' first | with_reducible exact .refl _ _ | exact rfl | apply evtMaskWrite_stays
theorem execEvtMapWrite_stays (i : Fin 32) (w : Word) (s t : State) (h : exec (.evtMapWrite i w) s = .next t) : Same (maskOf (.evtMapWrite i w)) s t := by
  obtain rfl : (evtMapWrite i.val w s) = t := Host.Outcome.next.inj h
  repeat' first | with_reducible exact .refl _ _ | exact rfl | apply evtMapWrite_stays
theorem execTimeLoRead_stays (wide : Bool) (s t : State) (h : exec (.timeLoRead wide) s = .next t) : Same (maskOf (.timeLoRead wide)) s t := by
  obtain rfl : (timeLo wide s) = t := Host.Outcome.next.inj h
  repeat' first | with_reducible exact .refl _ _ | exact rfl | apply timeLo_stays
theorem execTimeLatch_stays (w : Word) (s t : State) (h : exec (.timeLatch w) s = .next t) : Same (maskOf (.timeLatch w)) s t := by
  obtain rfl : (timeLatchWrite w s) = t := Host.Outcome.next.inj h
  repeat' first | with_reducible exact .refl _ _ | exact rfl | apply timeLatchWrite_stays
theorem execHubCtlWrite_stays (w : Word) (s t : State) (h : exec (.hubCtlWrite w) s = .next t) : Same (maskOf (.hubCtlWrite w)) s t := by
  obtain rfl : (hubCtl w s) = t := Host.Outcome.next.inj h
  repeat' first | with_reducible exact .refl _ _ | exact rfl | apply hubCtl_stays
theorem execHubPeriodWrite_stays (w : Word) (s t : State) (h : exec (.hubPeriodWrite w) s = .next t) : Same (maskOf (.hubPeriodWrite w)) s t := by
  obtain rfl : (hubPeriod w s) = t := Host.Outcome.next.inj h
  repeat' first | with_reducible exact .refl _ _ | exact rfl | apply hubPeriod_stays
theorem execHubRdWrite_stays (w : Word) (s t : State) (h : exec (.hubRdWrite w) s = .next t) : Same (maskOf (.hubRdWrite w)) s t := by
  obtain rfl : (hubRd w s) = t := Host.Outcome.next.inj h
  repeat' first | with_reducible exact .refl _ _ | exact rfl | apply hubRd_stays
theorem execHubMirrorWrite_stays (hi : Bool) (w : Word) (s t : State) (h : exec (.hubMirrorWrite hi w) s = .next t) : Same (maskOf (.hubMirrorWrite hi w)) s t := by
  obtain rfl : (hubMirror hi w s) = t := Host.Outcome.next.inj h
  repeat' first | with_reducible exact .refl _ _ | exact rfl | apply hubMirror_stays
theorem execUsrGrantWrite_stays (w : Word) (s t : State) (h : exec (.usrGrantWrite w) s = .next t) : Same (maskOf (.usrGrantWrite w)) s t := by
  obtain rfl : (usrGrant w s) = t := Host.Outcome.next.inj h
  repeat' first | with_reducible exact .refl _ _ | exact rfl | apply usrGrant_stays
theorem execUsrCtlWrite_stays (w : Word) (s t : State) (h : exec (.usrCtlWrite w) s = .next t) : Same (maskOf (.usrCtlWrite w)) s t := by
  obtain rfl : (usrCtl w s) = t := Host.Outcome.next.inj h
  repeat' first | with_reducible exact .refl _ _ | exact rfl | apply usrCtl_stays
theorem execUsrWinWrite_stays (w : Word) (s t : State) (h : exec (.usrWinWrite w) s = .next t) : Same (maskOf (.usrWinWrite w)) s t := by
  obtain rfl : (usrWin w s) = t := Host.Outcome.next.inj h
  repeat' first | with_reducible exact .refl _ _ | exact rfl | apply usrWin_stays
theorem execStreamProdWrite_stays (k : Fin 8) (w : Word) (recs : List Byte) (s t : State) (h : exec (.streamProdWrite k w recs) s = .next t) : Same (maskOf (.streamProdWrite k w recs)) s t := by
  obtain rfl : (prodWrite k.val w (hostRing k.val recs s)) = t := Host.Outcome.next.inj h
  repeat' first | with_reducible exact .refl _ _ | exact rfl | apply prodWrite_stays | apply hostRing_stays
theorem execRegisterWrite_stays (bar : Bar) (off : BitVec 32) (b : List Byte) (s t : State) (h : exec (.registerWrite bar off b) s = .next t) : Same (maskOf (.registerWrite bar off b)) s t := by
  have h' : execRegisterWrite bar off b s = .next t := h
  unfold execRegisterWrite at h'
  by_cases q : barSize bar < off.toNat + b.length
  · rw [if_pos q] at h'; cases h'
  · rw [if_neg q] at h'
    obtain rfl : registerWrite bar off.toNat b s = t := Host.Outcome.next.inj h'
    exact registerWrite_stays _ _ _ _ (.refl _ _) (mstrm := rfl)
theorem execPorstNRelease_stays (bootsel : BitVec 2) (stnaddr : BitVec 5) (s t : State) (h : exec (.porstNRelease bootsel stnaddr) s = .next t) : Same (maskOf (.porstNRelease bootsel stnaddr)) s t := by
  obtain rfl : (porstRelease bootsel stnaddr s) = t := Host.Outcome.next.inj h
  repeat' first | with_reducible exact .refl _ _ | exact rfl | apply porstRelease_stays
theorem execPfailNAssert_stays  (s t : State) (h : exec .pfailNAssert s = .next t) : Same (maskOf .pfailNAssert) s t := by
  obtain rfl : (pfailAssert s) = t := Host.Outcome.next.inj h
  repeat' first | with_reducible exact .refl _ _ | exact rfl | apply pfailAssert_stays
theorem execPfailNRelease_stays  (s t : State) (h : exec .pfailNRelease s = .next t) : Same (maskOf .pfailNRelease) s t := by
  obtain rfl : (pfailRelease s) = t := Host.Outcome.next.inj h
  repeat' first | with_reducible exact .refl _ _ | exact rfl | apply pfailRelease_stays
theorem execPwrWarn_stays (rail : Rail) (s t : State) (h : exec (.pwrWarn rail) s = .next t) : Same (maskOf (.pwrWarn rail)) s t := by
  obtain rfl : (pwrWarn rail s) = t := Host.Outcome.next.inj h
  repeat' first | with_reducible exact .refl _ _ | exact rfl | apply pwrWarn_stays
theorem execRailResetRelease_stays (rail : Rail) (s t : State) (h : exec (.railResetRelease rail) s = .next t) : Same (maskOf (.railResetRelease rail)) s t := by
  obtain rfl : (modDev (fun d => { d with held := d.held.filter (· ≠ rail) }) s) = t := Host.Outcome.next.inj h
  repeat' first | with_reducible exact .refl _ _ | exact rfl | apply modDev_stays
theorem execThermWarn_stays  (s t : State) (h : exec .thermWarn s = .next t) : Same (maskOf .thermWarn) s t := by
  obtain rfl : (thermWarn s) = t := Host.Outcome.next.inj h
  repeat' first | with_reducible exact .refl _ _ | exact rfl | apply thermWarn_stays
theorem execThermWarnClear_stays  (s t : State) (h : exec .thermWarnClear s = .next t) : Same (maskOf .thermWarnClear) s t := by
  obtain rfl : (modDev (fun d => { d with thermWarn := false }) s) = t := Host.Outcome.next.inj h
  repeat' first | with_reducible exact .refl _ _ | exact rfl | apply modDev_stays
theorem execThermCrit_stays  (s t : State) (h : exec .thermCrit s = .next t) : Same (maskOf .thermCrit) s t := by
  obtain rfl : (thermCrit s) = t := Host.Outcome.next.inj h
  repeat' first | with_reducible exact .refl _ _ | exact rfl | apply thermCrit_stays
theorem execThermCritClear_stays  (s t : State) (h : exec .thermCritClear s = .next t) : Same (maskOf .thermCritClear) s t := by
  obtain rfl : (modDev (fun d => { d with thermCrit := false }) s) = t := Host.Outcome.next.inj h
  repeat' first | with_reducible exact .refl _ _ | exact rfl | apply modDev_stays
theorem execThermShutdown_stays  (s t : State) (h : exec .thermShutdown s = .next t) : Same (maskOf .thermShutdown) s t := by
  obtain rfl : (deviceFault 0x01 0x04 false s) = t := Host.Outcome.next.inj h
  repeat' first | with_reducible exact .refl _ _ | exact rfl | apply deviceFault_stays
theorem execSupLockstep_stays  (s t : State) (h : exec .supLockstep s = .next t) : Same (maskOf .supLockstep) s t := by
  obtain rfl : (deviceFault 0x01 0x01 false s) = t := Host.Outcome.next.inj h
  repeat' first | with_reducible exact .refl _ _ | exact rfl | apply deviceFault_stays
theorem execFLockstep_stays  (s t : State) (h : exec .fLockstep s = .next t) : Same (maskOf .fLockstep) s t := by
  obtain rfl : (dieFCause 0x01 0x02 s) = t := Host.Outcome.next.inj h
  repeat' first | with_reducible exact .refl _ _ | exact rfl | apply dieFCause_stays
theorem execSupervisorWatchdog_stays  (s t : State) (h : exec .supervisorWatchdog s = .next t) : Same (maskOf .supervisorWatchdog) s t := by
  obtain rfl : (if 16 ≤ s.cad.misses then deviceFault 0x01 0x03 true s else s) = t := Host.Outcome.next.inj h
  split
  · exact deviceFault_stays _ _ _ _ (.refl _ _)
  · exact .refl _ _
theorem execClockM_stays  (s t : State) (h : exec .clockM s = .next t) : Same (maskOf .clockM) s t := by
  obtain rfl : (xlinkLoss 0x01 0x05 s) = t := Host.Outcome.next.inj h
  repeat' first | with_reducible exact .refl _ _ | exact rfl | apply xlinkLoss_stays
theorem execEccUncorrectable_stays (owner : EccOwner) (s t : State) (h : exec (.eccUncorrectable owner) s = .next t) : Same (maskOf (.eccUncorrectable owner)) s t := by
  obtain rfl : (eccUncorrectable owner s) = t := Host.Outcome.next.inj h
  repeat' first | with_reducible exact .refl _ _ | exact rfl | apply eccUncorrectable_stays
theorem execEccCorrected_stays (spoke : Fin 143) (s t : State) (h : exec (.eccCorrected spoke) s = .next t) : Same (maskOf (.eccCorrected spoke)) s t := by
  obtain rfl : (eccCorrected spoke.val s) = t := Host.Outcome.next.inj h
  repeat' first | with_reducible exact .refl _ _ | exact rfl | apply eccCorrected_stays
theorem execXlinkFlit_stays (dest : Die) (flit : List Byte) (s t : State) (h : exec (.xlinkFlit dest flit) s = .next t) : Same (maskOf (.xlinkFlit dest flit)) s t := by
  obtain rfl : (xlinkFlit dest flit s) = t := Host.Outcome.next.inj h
  repeat' first | with_reducible exact .refl _ _ | exact rfl | apply xlinkFlit_stays
theorem execXlinkNak_stays (dest : Die) (seq : BitVec 12) (s t : State) (h : exec (.xlinkNak dest seq) s = .next t) : Same (maskOf (.xlinkNak dest seq)) s t := by
  obtain rfl : (xlinkNak dest seq s) = t := Host.Outcome.next.inj h
  repeat' first | with_reducible exact .refl _ _ | exact rfl | apply xlinkNak_stays
theorem execXlinkLost_stays  (s t : State) (h : exec .xlinkLost s = .next t) : Same (maskOf .xlinkLost) s t := by
  obtain rfl : (xlinkLoss 0x02 0x01 s) = t := Host.Outcome.next.inj h
  repeat' first | with_reducible exact .refl _ _ | exact rfl | apply xlinkLoss_stays
theorem execXlinkUp_stays  (s t : State) (h : exec .xlinkUp s = .next t) : Same (maskOf .xlinkUp) s t := by
  obtain rfl : (xlinkUp s) = t := Host.Outcome.next.inj h
  repeat' first | with_reducible exact .refl _ _ | exact rfl | apply xlinkUp_stays
theorem execXlinkTrainTimeout_stays  (s t : State) (h : exec .xlinkTrainTimeout s = .next t) : Same (maskOf .xlinkTrainTimeout) s t := by
  obtain rfl : (xlinkTrainTimeout s) = t := Host.Outcome.next.inj h
  repeat' first | with_reducible exact .refl _ _ | exact rfl | apply xlinkTrainTimeout_stays
theorem execTimeAlignFlit_stays (error : BitVec 8) (s t : State) (h : exec (.timeAlignFlit error) s = .next t) : Same (maskOf (.timeAlignFlit error)) s t := by
  obtain rfl : (timeAlign error s) = t := Host.Outcome.next.inj h
  repeat' first | with_reducible exact .refl _ _ | exact rfl | apply timeAlign_stays
theorem execFieldOutputImage_stays (crcOk : Bool) (s t : State) (h : exec (.fieldOutputImage crcOk) s = .next t) : Same (maskOf (.fieldOutputImage crcOk)) s t := by
  obtain rfl : (outputImage crcOk s) = t := Host.Outcome.next.inj h
  repeat' first | with_reducible exact .refl _ _ | exact rfl | apply outputImage_stays
theorem execFieldInputImage_stays  (s t : State) (h : exec .fieldInputImage s = .next t) : Same (maskOf .fieldInputImage) s t := by
  obtain rfl : (inputImage s) = t := Host.Outcome.next.inj h
  repeat' first | with_reducible exact .refl _ _ | exact rfl | apply inputImage_stays
theorem execBlackChannelCopy_stays (a : Fin 128) (entry : List Byte) (s t : State) (h : exec (.blackChannelCopy a entry) s = .next t) : Same (maskOf (.blackChannelCopy a entry)) s t := by
  obtain rfl : (blackCopy a.val entry s) = t := Host.Outcome.next.inj h
  repeat' first | with_reducible exact .refl _ _ | exact rfl | apply blackCopy_stays
theorem execStepCommandRecord_stays  (s t : State) (h : exec .stepCommandRecord s = .next t) : Same (maskOf .stepCommandRecord) s t := by
  obtain rfl : (stpRecords s) = t := Host.Outcome.next.inj h
  repeat' first | with_reducible exact .refl _ _ | exact rfl | apply stpRecords_stays
theorem execCh2Verdict_stays (p : Fin 8) (s t : State) (h : exec (.ch2Verdict p) s = .next t) : Same (maskOf (.ch2Verdict p)) s t := by
  obtain rfl : (ch2Verdict p.val s) = t := Host.Outcome.next.inj h
  repeat' first | with_reducible exact .refl _ _ | exact rfl | apply ch2Verdict_stays
theorem execDieFActionReport_stays (u : Fin 256) (s t : State) (h : exec (.dieFActionReport u) s = .next t) : Same (maskOf (.dieFActionReport u)) s t := by
  obtain rfl : (actionReport u.val s) = t := Host.Outcome.next.inj h
  repeat' first | with_reducible exact .refl _ _ | exact rfl | apply actionReport_stays
theorem execCadenceStart_stays  (s t : State) (h : exec .cadenceStart s = .next t) : Same (maskOf .cadenceStart) s t := by
  obtain rfl : (cadenceStart s) = t := Host.Outcome.next.inj h
  repeat' first | with_reducible exact .refl _ _ | exact rfl | apply cadenceStart_stays
theorem execFeedbackCutoff_stays  (s t : State) (h : exec .feedbackCutoff s = .next t) : Same (maskOf .feedbackCutoff) s t := by
  obtain rfl : (feedbackCutoff s) = t := Host.Outcome.next.inj h
  repeat' first | with_reducible exact .refl _ _ | exact rfl | apply feedbackCutoff_stays
theorem execComputeEnd_stays  (s t : State) (h : exec .computeEnd s = .next t) : Same (maskOf .computeEnd) s t := by
  obtain rfl : (computeEnd s) = t := Host.Outcome.next.inj h
  repeat' first | with_reducible exact .refl _ _ | exact rfl | apply computeEnd_stays
theorem execTrcFull_stays (k : Fin 8) (s t : State) (h : exec (.trcFull k) s = .next t) : Same (maskOf (.trcFull k)) s t := by
  obtain rfl : (trcFull k.val s) = t := Host.Outcome.next.inj h
  repeat' first | with_reducible exact .refl _ _ | exact rfl | apply trcFull_stays
theorem execPlanningBoundary_stays  (s t : State) (h : exec .planningBoundary s = .next t) : Same (maskOf .planningBoundary) s t := by
  obtain rfl : (planningBoundary s) = t := Host.Outcome.next.inj h
  repeat' first | with_reducible exact .refl _ _ | exact rfl | apply planningBoundary_stays
theorem execZoneRefused_stays (z : Fin 64) (s t : State) (h : exec (.zoneRefused z) s = .next t) : Same (maskOf (.zoneRefused z)) s t := by
  obtain rfl : (zoneRefused z.val s) = t := Host.Outcome.next.inj h
  repeat' first | with_reducible exact .refl _ _ | exact rfl | apply zoneRefused_stays
theorem execAsmPhaseStart_stays  (s t : State) (h : exec .asmPhaseStart s = .next t) : Same (maskOf .asmPhaseStart) s t := by
  obtain rfl : (asmPhase s) = t := Host.Outcome.next.inj h
  repeat' first | with_reducible exact .refl _ _ | exact rfl | apply asmPhase_stays
theorem execLaneWindowStart_stays  (s t : State) (h : exec .laneWindowStart s = .next t) : Same (maskOf .laneWindowStart) s t := by
  obtain rfl : (laneWindow s) = t := Host.Outcome.next.inj h
  repeat' first | with_reducible exact .refl _ _ | exact rfl | apply laneWindow_stays
theorem execQpProblemDone_stays (u : Fin 64) (s t : State) (h : exec (.qpProblemDone u) s = .next t) : Same (maskOf (.qpProblemDone u)) s t := by
  obtain rfl : (qpProblemDone u.val s) = t := Host.Outcome.next.inj h
  repeat' first | with_reducible exact .refl _ _ | exact rfl | apply qpProblemDone_stays
theorem execQpDeadline_stays (g : Fin 16) (j : Fin 4) (s t : State) (h : exec (.qpDeadline g j) s = .next t) : Same (maskOf (.qpDeadline g j)) s t := by
  obtain rfl : (qpDeadline g.val j.val s) = t := Host.Outcome.next.inj h
  repeat' first | with_reducible exact .refl _ _ | exact rfl | apply qpDeadline_stays
theorem execSelectionPhase_stays (g : Fin 16) (s t : State) (h : exec (.selectionPhase g) s = .next t) : Same (maskOf (.selectionPhase g)) s t := by
  obtain rfl : (selection g.val s) = t := Host.Outcome.next.inj h
  repeat' first | with_reducible exact .refl _ _ | exact rfl | apply selection_stays
theorem execShiftStop_stays (g : Fin 16) (s t : State) (h : exec (.shiftStop g) s = .next t) : Same (maskOf (.shiftStop g)) s t := by
  obtain rfl : (shiftStop g.val s) = t := Host.Outcome.next.inj h
  repeat' first | with_reducible exact .refl _ _ | exact rfl | apply shiftStop_stays
theorem execGuardBoundary_stays  (s t : State) (h : exec .guardBoundary s = .next t) : Same (maskOf .guardBoundary) s t := by
  obtain rfl : (guardBoundary s) = t := Host.Outcome.next.inj h
  repeat' first | with_reducible exact .refl _ _ | exact rfl | apply guardBoundary_stays
theorem execSensorStale_stays (n : Fin 16) (s t : State) (h : exec (.sensorStale n) s = .next t) : Same (maskOf (.sensorStale n)) s t := by
  obtain rfl : (sensorStale n.val s) = t := Host.Outcome.next.inj h
  repeat' first | with_reducible exact .refl _ _ | exact rfl | apply sensorStale_stays
theorem execVerdictDeadline_stays  (s t : State) (h : exec .verdictDeadline s = .next t) : Same (maskOf .verdictDeadline) s t := by
  obtain rfl : (verdictDeadline s) = t := Host.Outcome.next.inj h
  repeat' first | with_reducible exact .refl _ _ | exact rfl | apply verdictDeadline_stays
theorem execTandemMismatch_stays (g : Fin 16) (s t : State) (h : exec (.tandemMismatch g) s = .next t) : Same (maskOf (.tandemMismatch g)) s t := by
  obtain rfl : (tandemMismatch g.val s) = t := Host.Outcome.next.inj h
  repeat' first | with_reducible exact .refl _ _ | exact rfl | apply tandemMismatch_stays
theorem execVerdictAbsent_stays (g : Fin 16) (s t : State) (h : exec (.verdictAbsent g) s = .next t) : Same (maskOf (.verdictAbsent g)) s t := by
  obtain rfl : (verdictAbsent g.val s) = t := Host.Outcome.next.inj h
  repeat' first | with_reducible exact .refl _ _ | exact rfl | apply verdictAbsent_stays
theorem execSpeedExceeded_stays (g : Fin 16) (second : Bool) (s t : State) (h : exec (.speedExceeded g second) s = .next t) : Same (maskOf (.speedExceeded g second)) s t := by
  obtain rfl : (speedExceeded g.val second s) = t := Host.Outcome.next.inj h
  repeat' first | with_reducible exact .refl _ _ | exact rfl | apply speedExceeded_stays
theorem execCh2Feedback_stays (g : Fin 16) (s t : State) (h : exec (.ch2Feedback g) s = .next t) : Same (maskOf (.ch2Feedback g)) s t := by
  obtain rfl : (ch2Feedback g.val s) = t := Host.Outcome.next.inj h
  repeat' first | with_reducible exact .refl _ _ | exact rfl | apply ch2Feedback_stays
theorem execCh2Override_stays (g : Fin 16) (s t : State) (h : exec (.ch2Override g) s = .next t) : Same (maskOf (.ch2Override g)) s t := by
  obtain rfl : (ch2Override g.val s) = t := Host.Outcome.next.inj h
  repeat' first | with_reducible exact .refl _ _ | exact rfl | apply ch2Override_stays
theorem execSensorRecord_stays (k : Fin 8) (st : BitVec 8) (b : List Byte) (s t : State) (h : exec (.sensorRecord k st b) s = .next t) : Same (maskOf (.sensorRecord k st b)) s t := by
  obtain rfl : (sensorRecord k.val st.toNat b s) = t := Host.Outcome.next.inj h
  repeat' first | with_reducible exact .refl _ _ | exact rfl | apply sensorRecord_stays
theorem execRoundStart_stays  (s t : State) (h : exec .roundStart s = .next t) : Same (maskOf .roundStart) s t := by
  obtain rfl : (roundStart s) = t := Host.Outcome.next.inj h
  repeat' first | with_reducible exact .refl _ _ | exact rfl | apply roundStart_stays
theorem execLatchInstant_stays  (s t : State) (h : exec .latchInstant s = .next t) : Same (maskOf .latchInstant) s t := by
  obtain rfl : (latch s) = t := Host.Outcome.next.inj h
  repeat' first | with_reducible exact .refl _ _ | exact rfl | apply latch_stays
theorem execHubDump_stays (dieF : Bool) (s t : State) (h : exec (.hubDump dieF) s = .next t) : Same (maskOf (.hubDump dieF)) s t := by
  obtain rfl : (hubDump dieF s) = t := Host.Outcome.next.inj h
  repeat' first | with_reducible exact .refl _ _ | exact rfl | apply hubDump_stays
theorem execHubMirrorErr_stays  (s t : State) (h : exec .hubMirrorErr s = .next t) : Same (maskOf .hubMirrorErr) s t := by
  obtain rfl : (hubMirrorErr s) = t := Host.Outcome.next.inj h
  repeat' first | with_reducible exact .refl _ _ | exact rfl | apply hubMirrorErr_stays
theorem execStationFrame_stays (seg : Fin 8) (port : Fin 16) (sfd : BitVec 32) (frame : List Byte) (s t : State) (h : exec (.stationFrame seg port sfd frame) s = .next t) : Same (maskOf (.stationFrame seg port sfd frame)) s t := by
  obtain rfl : (stationFrame homeRecord seg.val port.val sfd.toNat frame s) = t := Host.Outcome.next.inj h
  repeat' first | with_reducible exact .refl _ _ | exact rfl | apply stationFrame_stays | apply homeRecord_stays | intro _ | assumption
theorem execForeignFrame_stays (p : Fin 16) (s t : State) (h : exec (.foreignFrame p) s = .next t) : Same (maskOf (.foreignFrame p)) s t := by
  obtain rfl : (foreignFrame p.val s) = t := Host.Outcome.next.inj h
  repeat' first | with_reducible exact .refl _ _ | exact rfl | apply foreignFrame_stays
theorem execStationSilenced_stays (k : Fin 8) (st : BitVec 8) (s t : State) (h : exec (.stationSilenced k st) s = .next t) : Same (maskOf (.stationSilenced k st)) s t := by
  obtain rfl : (stationSilenced k.val st.toNat s) = t := Host.Outcome.next.inj h
  repeat' first | with_reducible exact .refl _ _ | exact rfl | apply stationSilenced_stays
theorem execFreewheelExpired_stays (a : Fin 128) (s t : State) (h : exec (.freewheelExpired a) s = .next t) : Same (maskOf (.freewheelExpired a)) s t := by
  obtain rfl : (freewheelExpired a.val s) = t := Host.Outcome.next.inj h
  repeat' first | with_reducible exact .refl _ _ | exact rfl | apply freewheelExpired_stays
theorem execMasterCollision_stays (k : Fin 8) (o : BitVec 64) (s t : State) (h : exec (.masterCollision k o) s = .next t) : Same (maskOf (.masterCollision k o)) s t := by
  obtain rfl : (masterCollision k.val o s) = t := Host.Outcome.next.inj h
  repeat' first | with_reducible exact .refl _ _ | exact rfl | apply masterCollision_stays
theorem execCollisionWaitEnd_stays (k : Fin 8) (s t : State) (h : exec (.collisionWaitEnd k) s = .next t) : Same (maskOf (.collisionWaitEnd k)) s t := by
  obtain rfl : (collisionWaitEnd k.val s) = t := Host.Outcome.next.inj h
  repeat' first | with_reducible exact .refl _ _ | exact rfl | apply collisionWaitEnd_stays
theorem execRingChangeover_stays (k : Fin 8) (s t : State) (h : exec (.ringChangeover k) s = .next t) : Same (maskOf (.ringChangeover k)) s t := by
  obtain rfl : (ringBroken k.val s) = t := Host.Outcome.next.inj h
  repeat' first | with_reducible exact .refl _ _ | exact rfl | apply ringBroken_stays
theorem execVzLinkDown_stays (p : Fin 16) (s t : State) (h : exec (.vzLinkDown p) s = .next t) : Same (maskOf (.vzLinkDown p)) s t := by
  obtain rfl : (vzLinkDown p.val s) = t := Host.Outcome.next.inj h
  repeat' first | with_reducible exact .refl _ _ | exact rfl | apply vzLinkDown_stays
theorem execEnumReturn_stays (k : Fin 8) (l : List StationId) (s t : State) (h : exec (.enumReturn k l) s = .next t) : Same (maskOf (.enumReturn k l)) s t := by
  obtain rfl : (enumReturn k.val l s) = t := Host.Outcome.next.inj h
  repeat' first | with_reducible exact .refl _ _ | exact rfl | apply enumReturn_stays
theorem execDelayReturn_stays (k : Fin 8) (d : List (BitVec 32 × BitVec 32)) (s t : State) (h : exec (.delayReturn k d) s = .next t) : Same (maskOf (.delayReturn k d)) s t := by
  obtain rfl : (delayReturn k.val d s) = t := Host.Outcome.next.inj h
  repeat' first | with_reducible exact .refl _ _ | exact rfl | apply delayReturn_stays
theorem execArbFrameReturn_stays (k : Fin 8) (c : Fin 32) (st : BitVec 8) (s t : State) (h : exec (.arbFrameReturn k c st) s = .next t) : Same (maskOf (.arbFrameReturn k c st)) s t := by
  obtain rfl : (arbReturn k.val c.val st.toNat s) = t := Host.Outcome.next.inj h
  repeat' first | with_reducible exact .refl _ _ | exact rfl | apply arbReturn_stays
theorem execAcyclicFrame_stays (k : Fin 8) (st : BitVec 8) (b : List Byte) (s t : State) (h : exec (.acyclicFrame k st b) s = .next t) : Same (maskOf (.acyclicFrame k st b)) s t := by
  obtain rfl : (acyclicFrame k.val st.toNat b s) = t := Host.Outcome.next.inj h
  repeat' first | with_reducible exact .refl _ _ | exact rfl | apply acyclicFrame_stays
theorem execAcyclicTimeout_stays (m : Fin 8) (k : Fin 32) (s t : State) (h : exec (.acyclicTimeout m k) s = .next t) : Same (maskOf (.acyclicTimeout m k)) s t := by
  obtain rfl : (acyclicTimeout m.val k.val s) = t := Host.Outcome.next.inj h
  repeat' first | with_reducible exact .refl _ _ | exact rfl | apply acyclicTimeout_stays
theorem execPelotonSync_stays (port : LinePort) (rx : BitVec 64) (f : List Byte) (s t : State) (h : exec (.pelotonSync port rx f) s = .next t) : Same (maskOf (.pelotonSync port rx f)) s t := by
  obtain rfl : (pelotonSync port rx.toNat f s) = t := Host.Outcome.next.inj h
  repeat' first | with_reducible exact .refl _ _ | exact rfl | apply pelotonSync_stays
theorem execPelotonDelayReq_stays (port : LinePort) (rx : BitVec 64) (f : List Byte) (s t : State) (h : exec (.pelotonDelayReq port rx f) s = .next t) : Same (maskOf (.pelotonDelayReq port rx f)) s t := by
  obtain rfl : (pelDelayReq port rx.toNat f s) = t := Host.Outcome.next.inj h
  repeat' first | with_reducible exact .refl _ _ | exact rfl | apply pelDelayReq_stays
theorem execPelotonDelayResp_stays (port : LinePort) (t1 : BitVec 64) (t4 : BitVec 64) (f : List Byte) (s t : State) (h : exec (.pelotonDelayResp port t1 t4 f) s = .next t) : Same (maskOf (.pelotonDelayResp port t1 t4 f)) s t := by
  obtain rfl : (pelDelayResp port t1.toNat t4.toNat f s) = t := Host.Outcome.next.inj h
  repeat' first | with_reducible exact .refl _ _ | exact rfl | apply pelDelayResp_stays
theorem execPelotonEnum_stays (port : LinePort) (f : List Byte) (s t : State) (h : exec (.pelotonEnum port f) s = .next t) : Same (maskOf (.pelotonEnum port f)) s t := by
  obtain rfl : (pelEnum port f s) = t := Host.Outcome.next.inj h
  repeat' first | with_reducible exact .refl _ _ | exact rfl | apply pelEnum_stays
theorem execPelotonConfig_stays (port : LinePort) (f : List Byte) (s t : State) (h : exec (.pelotonConfig port f) s = .next t) : Same (maskOf (.pelotonConfig port f)) s t := by
  obtain rfl : (pelConfig f s) = t := Host.Outcome.next.inj h
  repeat' first | with_reducible exact .refl _ _ | exact rfl | apply pelConfig_stays
theorem execPelStartTimeout_stays  (s t : State) (h : exec .pelStartTimeout s = .next t) : Same (maskOf .pelStartTimeout) s t := by
  obtain rfl : (pelStartTimeout s) = t := Host.Outcome.next.inj h
  repeat' first | with_reducible exact .refl _ _ | exact rfl | apply pelStartTimeout_stays
theorem execPelSyncSet_stays  (s t : State) (h : exec .pelSyncSet s = .next t) : Same (maskOf .pelSyncSet) s t := by
  obtain rfl : (pelSyncSet s) = t := Host.Outcome.next.inj h
  repeat' first | with_reducible exact .refl _ _ | exact rfl | apply pelSyncSet_stays
theorem execPelSyncLost_stays  (s t : State) (h : exec .pelSyncLost s = .next t) : Same (maskOf .pelSyncLost) s t := by
  obtain rfl : (pelSyncLost s) = t := Host.Outcome.next.inj h
  repeat' first | with_reducible exact .refl _ _ | exact rfl | apply pelSyncLost_stays
theorem execPelTakeover_stays  (s t : State) (h : exec .pelTakeover s = .next t) : Same (maskOf .pelTakeover) s t := by
  obtain rfl : (pelTakeover s) = t := Host.Outcome.next.inj h
  repeat' first | with_reducible exact .refl _ _ | exact rfl | apply pelTakeover_stays
theorem execAnnouncementApply_stays  (s t : State) (h : exec .announcementApply s = .next t) : Same (maskOf .announcementApply) s t := by
  obtain rfl : (announcementApply s) = t := Host.Outcome.next.inj h
  repeat' first | with_reducible exact .refl _ _ | exact rfl | apply announcementApply_stays
theorem execPtpMessage_stays (p : Fin 4) (m : PtpMsg) (s t : State) (h : exec (.ptpMessage p m) s = .next t) : Same (maskOf (.ptpMessage p m)) s t := by
  obtain rfl : (ptpMessage p.val m s) = t := Host.Outcome.next.inj h
  repeat' first | with_reducible exact .refl _ _ | exact rfl | apply ptpMessage_stays
theorem execPtpInterval_stays (p : Fin 4) (k : PtpTick) (stamped : Bool) (s t : State) (h : exec (.ptpInterval p k stamped) s = .next t) : Same (maskOf (.ptpInterval p k stamped)) s t := by
  obtain rfl : (ptpInterval p.val k stamped s) = t := Host.Outcome.next.inj h
  repeat' first | with_reducible exact .refl _ _ | exact rfl | apply ptpInterval_stays
theorem execPtpAnnounceTimeout_stays (p : Fin 4) (s t : State) (h : exec (.ptpAnnounceTimeout p) s = .next t) : Same (maskOf (.ptpAnnounceTimeout p)) s t := by
  obtain rfl : (announceTimeout p.val s) = t := Host.Outcome.next.inj h
  repeat' first | with_reducible exact .refl _ _ | exact rfl | apply announceTimeout_stays
theorem execGmServoInterval_stays (mean : BitVec 64) (s t : State) (h : exec (.gmServoInterval mean) s = .next t) : Same (maskOf (.gmServoInterval mean)) s t := by
  obtain rfl : (gmServo mean s) = t := Host.Outcome.next.inj h
  repeat' first | with_reducible exact .refl _ _ | exact rfl | apply gmServo_stays
theorem execTimedActionFire_stays (u : Fin 256) (s t : State) (h : exec (.timedActionFire u) s = .next t) : Same (maskOf (.timedActionFire u)) s t := by
  obtain rfl : (timedActionFire u.val s) = t := Host.Outcome.next.inj h
  repeat' first | with_reducible exact .refl _ _ | exact rfl | apply timedActionFire_stays
theorem execTaskRelease_stays (d : Descriptor) (s t : State) (h : exec (.taskRelease d) s = .next t) : Same (maskOf (.taskRelease d)) s t := by
  obtain rfl : (taskRelease d s) = t := Host.Outcome.next.inj h
  repeat' first | with_reducible exact .refl _ _ | exact rfl | apply taskRelease_stays
theorem execTaskDispatch_stays (k : Fin 5) (s t : State) (h : exec (.taskDispatch k) s = .next t) : Same (maskOf (.taskDispatch k)) s t := by
  obtain rfl : (taskDispatch k.val s) = t := Host.Outcome.next.inj h
  repeat' first | with_reducible exact .refl _ _ | exact rfl | apply taskDispatch_stays
theorem execTaskEnd_stays (k : Fin 5) (u : Fin 64) (s t : State) (h : exec (.taskEnd k u) s = .next t) : Same (maskOf (.taskEnd k u)) s t := by
  obtain rfl : (taskEnd k.val u.val s) = t := Host.Outcome.next.inj h
  repeat' first | with_reducible exact .refl _ _ | exact rfl | apply taskEnd_stays
theorem execFftSliceEnd_stays (u : Fin 32) (s t : State) (h : exec (.fftSliceEnd u) s = .next t) : Same (maskOf (.fftSliceEnd u)) s t := by
  obtain rfl : (fftSliceEnd u.val s) = t := Host.Outcome.next.inj h
  repeat' first | with_reducible exact .refl _ _ | exact rfl | apply fftSliceEnd_stays
theorem execSchedDeadlineMiss_stays (k : Fin 5) (f : BitVec 16) (s t : State) (h : exec (.schedDeadlineMiss k f) s = .next t) : Same (maskOf (.schedDeadlineMiss k f)) s t := by
  obtain rfl : (deadlineMiss k.val f.toNat s) = t := Host.Outcome.next.inj h
  repeat' first | with_reducible exact .refl _ _ | exact rfl | apply deadlineMiss_stays
theorem execEnqueueResume_stays (k : Fin 5) (s t : State) (h : exec (.enqueueResume k) s = .next t) : Same (maskOf (.enqueueResume k)) s t := by
  obtain rfl : (enqueueResume k.val s) = t := Host.Outcome.next.inj h
  repeat' first | with_reducible exact .refl _ _ | exact rfl | apply enqueueResume_stays
theorem execInputLevelChange_stays (c : Fin 32) (v : Bool) (s t : State) (h : exec (.inputLevelChange c v) s = .next t) : Same (maskOf (.inputLevelChange c v)) s t := by
  obtain rfl : (levelChange c.val v s) = t := Host.Outcome.next.inj h
  repeat' first | with_reducible exact .refl _ _ | exact rfl | apply levelChange_stays
theorem execInputFiltered_stays (c : Fin 32) (s t : State) (h : exec (.inputFiltered c) s = .next t) : Same (maskOf (.inputFiltered c)) s t := by
  obtain rfl : (inputFiltered c.val s) = t := Host.Outcome.next.inj h
  repeat' first | with_reducible exact .refl _ _ | exact rfl | apply inputFiltered_stays
theorem execInputQualified_stays (c : Fin 32) (s t : State) (h : exec (.inputQualified c) s = .next t) : Same (maskOf (.inputQualified c)) s t := by
  obtain rfl : (inputQualified c.val s) = t := Host.Outcome.next.inj h
  repeat' first | with_reducible exact .refl _ _ | exact rfl | apply inputQualified_stays
theorem execChatter_stays (c : Fin 32) (s t : State) (h : exec (.chatter c) s = .next t) : Same (maskOf (.chatter c)) s t := by
  obtain rfl : (chatter c.val s) = t := Host.Outcome.next.inj h
  repeat' first | with_reducible exact .refl _ _ | exact rfl | apply chatter_stays
theorem execNotFound_stays (a : Fin 128) (s t : State) (h : exec (.notFound a) s = .next t) : Same (maskOf (.notFound a)) s t := by
  obtain rfl : (notFound a.val s) = t := Host.Outcome.next.inj h
  repeat' first | with_reducible exact .refl _ _ | exact rfl | apply notFound_stays
theorem execHardStopLatch_stays (a : Fin 128) (s t : State) (h : exec (.hardStopLatch a) s = .next t) : Same (maskOf (.hardStopLatch a)) s t := by
  obtain rfl : (hardStopLatch a.val s) = t := Host.Outcome.next.inj h
  repeat' first | with_reducible exact .refl _ _ | exact rfl | apply hardStopLatch_stays
theorem execGroupSettled_stays (g : Fin 16) (s t : State) (h : exec (.groupSettled g) s = .next t) : Same (maskOf (.groupSettled g)) s t := by
  obtain rfl : (groupSettled g.val s) = t := Host.Outcome.next.inj h
  repeat' first | with_reducible exact .refl _ _ | exact rfl | apply groupSettled_stays
theorem execEnableTimeout_stays (a : Fin 128) (s t : State) (h : exec (.enableTimeout a) s = .next t) : Same (maskOf (.enableTimeout a)) s t := by
  obtain rfl : (enableTimeout a.val s) = t := Host.Outcome.next.inj h
  repeat' first | with_reducible exact .refl _ _ | exact rfl | apply enableTimeout_stays
theorem execDisableTimeout_stays (a : Fin 128) (s t : State) (h : exec (.disableTimeout a) s = .next t) : Same (maskOf (.disableTimeout a)) s t := by
  obtain rfl : (disableTimeout a.val s) = t := Host.Outcome.next.inj h
  repeat' first | with_reducible exact .refl _ _ | exact rfl | apply disableTimeout_stays
theorem execGroupEnableTimeout_stays (g : Fin 16) (s t : State) (h : exec (.groupEnableTimeout g) s = .next t) : Same (maskOf (.groupEnableTimeout g)) s t := by
  obtain rfl : (groupEnableTimeout g.val s) = t := Host.Outcome.next.inj h
  repeat' first | with_reducible exact .refl _ _ | exact rfl | apply groupEnableTimeout_stays
theorem execInjectionComplete_stays (a : Fin 128) (s t : State) (h : exec (.injectionComplete a) s = .next t) : Same (maskOf (.injectionComplete a)) s t := by
  obtain rfl : (injComplete a.val s) = t := Host.Outcome.next.inj h
  repeat' first | with_reducible exact .refl _ _ | exact rfl | apply injComplete_stays
theorem execFrfComplete_stays  (s t : State) (h : exec .frfComplete s = .next t) : Same (maskOf .frfComplete) s t := by
  obtain rfl : (frfComplete s) = t := Host.Outcome.next.inj h
  repeat' first | with_reducible exact .refl _ _ | exact rfl | apply frfComplete_stays
theorem execOpenInput_stays (c : Fin 32) (low : Bool) (s t : State) (h : exec (.openInput c low) s = .next t) : Same (maskOf (.openInput c low)) s t := by
  obtain rfl : (openInput c.val low s) = t := Host.Outcome.next.inj h
  repeat' first | with_reducible exact .refl _ _ | exact rfl | apply openInput_stays
theorem execOvertemp_stays (c : Fin 32) (tj : BitVec 8) (s t : State) (h : exec (.overtemp c tj) s = .next t) : Same (maskOf (.overtemp c tj)) s t := by
  obtain rfl : (overtemp c.val tj.toNat s) = t := Host.Outcome.next.inj h
  repeat' first | with_reducible exact .refl _ _ | exact rfl | apply overtemp_stays
theorem execOvertempTrip_stays (c : Fin 32) (tj : BitVec 8) (s t : State) (h : exec (.overtempTrip c tj) s = .next t) : Same (maskOf (.overtempTrip c tj)) s t := by
  obtain rfl : (overtempTrip c.val tj.toNat s) = t := Host.Outcome.next.inj h
  repeat' first | with_reducible exact .refl _ _ | exact rfl | apply overtempTrip_stays
theorem execOverload_stays (c : Fin 32) (s t : State) (h : exec (.overload c) s = .next t) : Same (maskOf (.overload c)) s t := by
  obtain rfl : (overload c.val s) = t := Host.Outcome.next.inj h
  repeat' first | with_reducible exact .refl _ _ | exact rfl | apply overload_stays
theorem execGroupOverload_stays (x : Fin 4) (cur : List (BitVec 16)) (s t : State) (h : exec (.groupOverload x cur) s = .next t) : Same (maskOf (.groupOverload x cur)) s t := by
  obtain rfl : (groupOverload x.val cur s) = t := Host.Outcome.next.inj h
  repeat' first | with_reducible exact .refl _ _ | exact rfl | apply groupOverload_stays
theorem execShortFlp_stays (c : Fin 32) (s t : State) (h : exec (.shortFlp c) s = .next t) : Same (maskOf (.shortFlp c)) s t := by
  obtain rfl : (shortFlp c.val s) = t := Host.Outcome.next.inj h
  repeat' first | with_reducible exact .refl _ _ | exact rfl | apply shortFlp_stays
theorem execOpenOff_stays (c : Fin 32) (s t : State) (h : exec (.openOff c) s = .next t) : Same (maskOf (.openOff c)) s t := by
  obtain rfl : (openOff c.val s) = t := Host.Outcome.next.inj h
  repeat' first | with_reducible exact .refl _ _ | exact rfl | apply openOff_stays
theorem execOpenOn_stays (c : Fin 32) (s t : State) (h : exec (.openOn c) s = .next t) : Same (maskOf (.openOn c)) s t := by
  obtain rfl : (openOn c.val s) = t := Host.Outcome.next.inj h
  repeat' first | with_reducible exact .refl _ _ | exact rfl | apply openOn_stays
theorem execCodeCleared_stays (c : Fin 32) (code : BitVec 8) (s t : State) (h : exec (.codeCleared c code) s = .next t) : Same (maskOf (.codeCleared c code)) s t := by
  obtain rfl : (clearCode c.val code.toNat s) = t := Host.Outcome.next.inj h
  repeat' first | with_reducible exact .refl _ _ | exact rfl | apply clearCode_stays
theorem execChannelRestart_stays (c : Fin 32) (s t : State) (h : exec (.channelRestart c) s = .next t) : Same (maskOf (.channelRestart c)) s t := by
  obtain rfl : (channelRestart c.val s) = t := Host.Outcome.next.inj h
  repeat' first | with_reducible exact .refl _ _ | exact rfl | apply channelRestart_stays
theorem execSupplyLow_stays (x : Fin 4) (mv : BitVec 16) (s t : State) (h : exec (.supplyLow x mv) s = .next t) : Same (maskOf (.supplyLow x mv)) s t := by
  obtain rfl : (supplyLow x.val mv.toNat s) = t := Host.Outcome.next.inj h
  repeat' first | with_reducible exact .refl _ _ | exact rfl | apply supplyLow_stays
theorem execSupplyCut_stays (x : Fin 4) (mv : BitVec 16) (s t : State) (h : exec (.supplyCut x mv) s = .next t) : Same (maskOf (.supplyCut x mv)) s t := by
  obtain rfl : (supplyLatch x.val 2 mv.toNat s) = t := Host.Outcome.next.inj h
  repeat' first | with_reducible exact .refl _ _ | exact rfl | apply supplyLatch_stays
theorem execSupplyOver_stays (x : Fin 4) (mv : BitVec 16) (s t : State) (h : exec (.supplyOver x mv) s = .next t) : Same (maskOf (.supplyOver x mv)) s t := by
  obtain rfl : (supplyLatch x.val 3 mv.toNat s) = t := Host.Outcome.next.inj h
  repeat' first | with_reducible exact .refl _ _ | exact rfl | apply supplyLatch_stays
theorem execSupplyLatchRelease_stays (x : Fin 4) (s t : State) (h : exec (.supplyLatchRelease x) s = .next t) : Same (maskOf (.supplyLatchRelease x)) s t := by
  obtain rfl : (supplyLatchRelease x.val s) = t := Host.Outcome.next.inj h
  repeat' first | with_reducible exact .refl _ _ | exact rfl | apply supplyLatchRelease_stays
theorem execLogicSilence_stays  (s t : State) (h : exec .logicSilence s = .next t) : Same (maskOf .logicSilence) s t := by
  obtain rfl : (logicSilence s) = t := Host.Outcome.next.inj h
  repeat' first | with_reducible exact .refl _ _ | exact rfl | apply logicSilence_stays
theorem execStpHoldAssert_stays (n : Fin 16) (s t : State) (h : exec (.stpHoldAssert n) s = .next t) : Same (maskOf (.stpHoldAssert n)) s t := by
  obtain rfl : (stpHold n.val s) = t := Host.Outcome.next.inj h
  repeat' first | with_reducible exact .refl _ _ | exact rfl | apply stpHold_stays
theorem execJournalRecordSend_stays  (s t : State) (h : exec .journalRecordSend s = .next t) : Same (maskOf .journalRecordSend) s t := by
  obtain rfl : (journalSend s) = t := Host.Outcome.next.inj h
  repeat' first | with_reducible exact .refl _ _ | exact rfl | apply journalSend_stays
theorem execJournalWrite_stays  (s t : State) (h : exec .journalWrite s = .next t) : Same (maskOf .journalWrite) s t := by
  obtain rfl : (journalWrite s) = t := Host.Outcome.next.inj h
  repeat' first | with_reducible exact .refl _ _ | exact rfl | apply journalWrite_stays
theorem execHoldupWindowEnd_stays  (s t : State) (h : exec .holdupWindowEnd s = .next t) : Same (maskOf .holdupWindowEnd) s t := by
  obtain rfl : (holdupWindowEnd s) = t := Host.Outcome.next.inj h
  repeat' first | with_reducible exact .refl _ _ | exact rfl | apply holdupWindowEnd_stays
theorem execHoldupDone_stays  (s t : State) (h : exec .holdupDone s = .next t) : Same (maskOf .holdupDone) s t := by
  obtain rfl : (holdupDone s) = t := Host.Outcome.next.inj h
  repeat' first | with_reducible exact .refl _ _ | exact rfl | apply holdupDone_stays
theorem execHoldupCheck_stays (cMeas : BitVec 16) (s t : State) (h : exec (.holdupCheck cMeas) s = .next t) : Same (maskOf (.holdupCheck cMeas)) s t := by
  obtain rfl : (holdupCheck cMeas s) = t := Host.Outcome.next.inj h
  repeat' first | with_reducible exact .refl _ _ | exact rfl | apply holdupCheck_stays
theorem execTruncateEraseDone_stays  (s t : State) (h : exec .truncateEraseDone s = .next t) : Same (maskOf .truncateEraseDone) s t := by
  obtain rfl : (eraseDone s) = t := Host.Outcome.next.inj h
  repeat' first | with_reducible exact .refl _ _ | exact rfl | apply eraseDone_stays
theorem execLpddrTrained_stays  (s t : State) (h : exec .lpddrTrained s = .next t) : Same (maskOf .lpddrTrained) s t := by
  obtain rfl : (lpddrTrained s) = t := Host.Outcome.next.inj h
  repeat' first | with_reducible exact .refl _ _ | exact rfl | apply lpddrTrained_stays
theorem execStagedImageFound_stays  (s t : State) (h : exec .stagedImageFound s = .next t) : Same (maskOf .stagedImageFound) s t := by
  obtain rfl : (stagedImage s) = t := Host.Outcome.next.inj h
  repeat' first | with_reducible exact .refl _ _ | exact rfl | apply stagedImage_stays
theorem execContainerLoaded_stays  (s t : State) (h : exec .containerLoaded s = .next t) : Same (maskOf .containerLoaded) s t := by
  obtain rfl : (containerLoaded s) = t := Host.Outcome.next.inj h
  repeat' first | with_reducible exact .refl _ _ | exact rfl | apply containerLoaded_stays
theorem execFirmwareHandover_stays  (s t : State) (h : exec .firmwareHandover s = .next t) : Same (maskOf .firmwareHandover) s t := by
  obtain rfl : (handover s) = t := Host.Outcome.next.inj h
  repeat' first | with_reducible exact .refl _ _ | exact rfl | apply handover_stays
theorem execLpddrInitDone_stays  (s t : State) (h : exec .lpddrInitDone s = .next t) : Same (maskOf .lpddrInitDone) s t := by
  obtain rfl : (lpddrDone s) = t := Host.Outcome.next.inj h
  repeat' first | with_reducible exact .refl _ _ | exact rfl | apply lpddrDone_stays
theorem execBootRun_stays  (s t : State) (h : exec .bootRun s = .next t) : Same (maskOf .bootRun) s t := by
  obtain rfl : (bootRun s) = t := Host.Outcome.next.inj h
  repeat' first | with_reducible exact .refl _ _ | exact rfl | apply bootRun_stays
theorem execRomWatchdog_stays  (s t : State) (h : exec .romWatchdog s = .next t) : Same (maskOf .romWatchdog) s t := by
  obtain rfl : (romWatchdog s) = t := Host.Outcome.next.inj h
  repeat' first | with_reducible exact .refl _ _ | exact rfl | apply romWatchdog_stays
theorem execInitWatchdog_stays  (s t : State) (h : exec .initWatchdog s = .next t) : Same (maskOf .initWatchdog) s t := by
  obtain rfl : (initWatchdog s) = t := Host.Outcome.next.inj h
  repeat' first | with_reducible exact .refl _ _ | exact rfl | apply initWatchdog_stays
theorem execBootUnconfirmed_stays  (s t : State) (h : exec .bootUnconfirmed s = .next t) : Same (maskOf .bootUnconfirmed) s t := by
  obtain rfl : (bootUnconfirmed s) = t := Host.Outcome.next.inj h
  repeat' first | with_reducible exact .refl _ _ | exact rfl | apply bootUnconfirmed_stays
theorem execMbDoorbell_stays (m : Fin 8) (w : Word) (s t : State) (h : exec (.mbDoorbell m w) s = .next t) : Same (maskOf (.mbDoorbell m w)) s t := by
  obtain rfl : (doorbell m.val w s) = t := Host.Outcome.next.inj h
  repeat' first | with_reducible exact .refl _ _ | exact rfl | apply doorbell_stays
theorem execBadOpcodeCommand_stays (c : CmdRef) (s t : State) (h : exec (.badOpcodeCommand c) s = .next t) : Same (maskOf (.badOpcodeCommand c)) s t := by
  obtain rfl : (badOpcode c s) = t := Host.Outcome.next.inj h
  repeat' first | with_reducible exact .refl _ _ | exact rfl | apply badOpcode_stays
theorem execFwUpdateDone_stays  (s t : State) (h : exec .fwUpdateDone s = .next t) : Same (maskOf .fwUpdateDone) s t := by
  obtain rfl : (fwUpdateDone s) = t := Host.Outcome.next.inj h
  repeat' first | with_reducible exact .refl _ _ | exact rfl | apply fwUpdateDone_stays
theorem execFlpFirstRise_stays (x : Fin 4) (mv : BitVec 16) (s t : State) (h : exec (.flpFirstRise x mv) s = .next t) : Same (maskOf (.flpFirstRise x mv)) s t := by
  obtain rfl : (flpFirstRise x.val mv.toNat s) = t := Host.Outcome.next.inj h
  repeat' first | with_reducible exact .refl _ _ | exact rfl | apply flpFirstRise_stays

end Sys2Proof.Machine
end

