-- ==== Sys2Proof/Laws/Shares.lean ====
section
/-!
SUPPORT. Laws of the ledger (R33, R244, R245): placing shares touches the scheduler, a pending event and the counters only, and it
does the same to two states that differ in a completion only.
-/
namespace Sys2Proof.Machine

set_option Elab.async false

/-- The mailboxes and BAR2 stand as they were. -/
theorem noteDepth_host (k : Nat) (s : State) : (noteDepth k s).host.mb = s.host.mb ∧ (noteDepth k s).host.bar2 = s.host.bar2 := by
  unfold noteDepth raiseIf; dsimp only; split
  · rw [raise_host]; exact ⟨rfl, rfl⟩
  · exact ⟨rfl, rfl⟩

theorem setShares_mb (l : List Share) (s : State) : (setShares l s).host.mb = s.host.mb := by
  unfold setShares
  exact (forNat_keeps (fun t : State => t.host.mb) noteDepth (fun k t => (noteDepth_host k t).1) _ _).trans rfl
theorem setShares_bar2 (l : List Share) (s : State) : (setShares l s).host.bar2 = s.host.bar2 := by
  unfold setShares
  exact (forNat_keeps (fun t : State => t.host.bar2) noteDepth (fun k t => (noteDepth_host k t).2) _ _).trans rfl

/-- `noteDepth` reads and writes the scheduler alone: of two states with one scheduler it makes two with one scheduler. -/
theorem noteDepth_sch_eq (k : Nat) {s t : State} (h : t.sch = s.sch) : (noteDepth k t).sch = (noteDepth k s).sch := by
  have hc : clsOf t k = clsOf s k := by unfold clsOf; rw [h]
  have hp : poolFree t k = poolFree s k := by unfold poolFree poolUsed clsOf; rw [h]
  unfold noteDepth
  dsimp only
  rw [raiseIf_sch, raiseIf_sch, hc, hp]
  unfold setCls; dsimp only; rw [h]

/-- `noteDepth` of two states that differ in a completion only makes two that differ in a completion only. -/
theorem noteDepth_quiet (k : Nat) {s t : State} (q : Quiet s t) : Quiet (noteDepth k s) (noteDepth k t) := by
  have e := noteDepth_sch_eq k q.sch
  have h : ∀ u : State, Quiet { u with sch := (noteDepth k u).sch } (noteDepth k u) := fun u => by
    have e2 : ∃ v, (noteDepth k u) = raiseIf v 48 { u with sch := (noteDepth k u).sch } := by
      unfold noteDepth; dsimp only; rw [raiseIf_sch]; exact ⟨_, rfl⟩
    obtain ⟨v, e2⟩ := e2
    have := raiseIf_quiet v 48 { u with sch := (noteDepth k u).sch }
    rw [← e2] at this; exact this
  refine (h s).symm.trans (Quiet.trans ?_ (h t))
  exact { q with sch := e }

/-- `setShares` of two states that differ in a completion only makes two that differ in a completion only. -/
theorem setShares_quiet (l : List Share) {s t : State} (q : Quiet s t) : Quiet (setShares l s) (setShares l t) := by
  unfold setShares forNat
  have : ∀ (n : List Nat) (a b : State), Quiet a b → Quiet (n.foldl (fun t n => noteDepth n t) a) (n.foldl (fun t n => noteDepth n t) b) := by
    intro n
    induction n with
    | nil => exact fun _ _ h => h
    | cons k r ih => exact fun a b h => ih _ _ (noteDepth_quiet k h)
  exact this _ _ _ { q with sch := by dsimp only; rw [q.sch] }

end Sys2Proof.Machine
end

