-- ==== Sys2Proof/Tests/Slice0.lean ====
section
/-!
SUPPORT. The author's own tests: the well-formedness smoke tests, the results the rules give for single steps, and for every statement
with hypotheses a theorem `meets_<Statement>` that shows concrete states and operands meeting them, clause by clause.
-/
namespace Sys2Proof.Tests
open Sys2Proof Sys2Proof.Machine

set_option Elab.async false
set_option maxRecDepth 100000

/-! Small states. -/

/-- Mailbox 0, slot 0. -/
def r0 : CmdRef := ⟨0, 0, []⟩
/-- A device in RUN with the given device fields. -/
def dev (d : DevSt) : State := { State.reset with
  dev := { d with mode := .run, mbReady := true, porstLow := false }, xl := { State.reset.xl with up := true } }
/-- A device in RUN. -/
def running : State := dev State.reset.dev
def seg (g : Segment) : State := setSeg 0 g running
def axis (x : AxisSt) : State := setAxis 0 x running
def group (x : GroupSt) : State := setGrp 0 x running
def stepper (x : StpAxis) : State := setStp 0 x running
def session (x : Session) : State := setSes 0 x running
/-- Bytes of zero. -/
def zeros (n : Nat) : List Byte := List.replicate n 0
/-- A command header with a payload of `len` bytes. -/
def header (op obj flags len : Nat) : List Byte :=
  fields [(4, op), (4, flags), (4, obj), (4, len), (24, 0), (4, if bitOf flags 2 then 0x100000 else 0), (20, 0)]
/-- A state with a command posted in mailbox 0, slot 0. -/
def posted (op obj flags : Nat) (p : List Byte) (s : State) : State := { s with host := { s.host with
  mb := tset {} s.host.mb 0 { slots := [(0, .posted)], bells := [(0, 1)] }
  bar2 := mwrite s.host.bar2 0 (header op obj flags p.length ++ p) } }
/-- The posted command is accepted. -/
abbrev Runs (sp : CmdSpec) (obj : Nat) (p : List Byte) (s : State) (flags : Nat := 0) : Prop :=
  Accepted sp r0 (posted sp.opcode obj flags p s)
/-- The posted command is accepted, and the state meets one more condition. -/
abbrev RunsWith (sp : CmdSpec) (obj : Nat) (p : List Byte) (s : State) (more : State → Prop) : Prop :=
  Runs sp obj p s ∧ more (posted sp.opcode obj 0 p s)
/-- A second command waits in mailbox 1. -/
def waits : State := { running with host := { running.host with
  mb := [(1, { slots := [(0, .posted)], bells := [(0, 1)] })], bar2 := mwrite [] (cmdBuf 1 0) (header 0x0101 0 0 0) } }
def word1 : Nat := 0x3F800000
def model : List Byte := fields [(1, 6), (1, 1), (30, 0), (4, word1), (24, 0), (4, word1), (192, 0),
  (1, 0), (1, 127), (1, 0), (1, 255), (12, 0), (4, word1), (68, 0), (4, word1), (4, 0)]
def CFG : List Byte := fields [(4, 0), (4, word1), (8, 0)] ++ model
def CLASS : List Byte := fields [(1, 1), (1, 0), (1, 2), (1, 1), (6, 0), (1, 16), (1, 0), (2, 1), (10, 0), (4, word1), (4, 0x3A83126F), (4, word1), (4, 0),
  (4, 0x3D4CCCCD), (4, 0), (4, word1), (28, 0)]
def ASSIGN : State := setGrp 0 { configured := true, mpc := true, model := model } { running with qp := { classes := [(63, CLASS)] } }
def COMP : List Byte := fields [(1, 0), (1, 3), (30, 0)]
def TRC : List Byte := fields [(1, 0), (1, 1), (1, 0), (1, 1), (4, 1), (8, 0), (1, 127), (1, 15), (30, 0)]
def INJ : List Byte := fields [(4, 0), (4, 1), (4, 1), (20, 0)]
def FRF : List Byte := fields [(4, 0), (2, 16), (2, 0), (2, 1), (14, 0)]
def ZREQ : State := setZone 63 { defined := true } (setSsm 0 { cfg := [1] } running)
def SSM : List Byte := fields [(1, 10), (1, 0), (1, 1), (13, 0), (4, word1), (4, 0x3D4CCCCD), (16, 0)]
def SSMG : List Byte := fields [(1, 0), (1, 1), (1, 0), (1, 255), (4, word1), (12, 0), (4, word1), (8, 0), (4, word1), (780, 0)] ++
  (List.replicate 36 (fields [(4, word1), (4, 0)])).flatten
def SENS : List Byte := fields [(1, 1), (1, 7), (1, 254), (1, 0), (4, 1000000), (24, 0)]
def STP : List Byte := fields [(1, 1), (1, 15), (1, 1), (1, 0), (1, 255), (1, 255), (1, 255), (1, 7), (1, 16), (1, 1), (2, 1), (2, 100), (2, 200), (4, 10000),
  (2, 1000), (2, 1000), (2, 0xFFFF), (22, 0)]
def TRC2 : List Byte := TRC.set 3 2
def INUSE : State := { running with qp := { classes := [(63, CLASS)], grp := [(0, { assigned := true, scen := [{ cls := 63 }] })] } }

/-! The mailbox commands. -/

/-- The hypotheses of `DevCommandsComplete` are met. -/
theorem meets_DevCommandsComplete :
    Runs devBootStatusSpec 0 [] running ∧
    RunsWith devResetSpec 0 (zeros 4) running (fun s => u8 (payloadOf devResetSpec r0 s) 0 = 0 ∧ u8 (payloadOf devResetSpec r0 s) 1 = 0 ∧ s.dev.mode = .run) ∧
    Runs devConfirmBootSpec 0 [] running := by decide +kernel

/-- The hypotheses of `SecCommandsComplete` are met. -/
theorem meets_SecCommandsComplete :
    Runs secAttestSpec 0 (zeros 64) running 4 ∧
    Runs secGetCertSpec 0 [] running 4 ∧
    Runs secFuseStatusSpec 0 [] running ∧
    Runs secRevokeOwnerSpec 0 (zeros 4) (dev { fuses := { owner1Set := true } }) ∧
    Runs secAdvanceSvnSpec 0 [] (dev { fwConfirmed := true }) ∧
    Runs secRevokeVendorSpec 0 [] (dev { fwConfirmed := true, fwHdr := fields [(17, 0), (1, 1)] }) := by decide +kernel

/-- The hypotheses of `TimeCommandsComplete` are met. -/
theorem meets_TimeCommandsComplete :
    Runs timeStatusSpec 0 [] running ∧
    Runs timeConfigureSpec 0 (fields [(4, 1000), (2, 500), (2, 10), (8, 0)]) running ∧
    Runs timeSetPlantSpec 0 (fields [(8, 0), (8, 5)]) running ∧
    Runs timePtpPortSpec 3 (fields [(5, 0), (1, 249), (1, 249), (1, 253), (2, 0xFFF), (1, 2), (1, 0), (4, 1000), (16, 0)]) running ∧
    Runs timePtpStatusSpec 3 [] running := by decide +kernel

/-- The hypotheses of `BusCommandsComplete` are met. -/
theorem meets_BusCommandsComplete :
    Runs busSetTimingSpec 0 (fields [(1, 0), (1, 64), (1, 16), (1, 8), (4, 0)]) running ∧
    Runs busConfigureSegmentSpec 7 (fields [(1, 15), (1, 255), (1, 0), (1, 0), (2, 0x0600), (2, 2000), (16, 0)]) running ∧
    Runs busStartSpec 0 [] (seg { configured := true }) ∧
    Runs busStopSpec 0 [] (seg { configured := true, state := 3 }) ∧
    Runs busLoadMatrixSpec 0 (fields [(1, 1), (7, 0), (24, 0)]) (seg { configured := true, state := 2 }) ∧
    Runs busSwitchMatrixSpec 0 [] (seg { configured := true, state := 3, acked := true, bank1 := [{ kind := 1, length := 20000, rows := BitVec.toNat (BitVec.allOnes 64) }] }) ∧
    Runs busMapAxisSpec 127 (fields [(1, 255), (7, 0), (1, 8), (7, 0)]) (setAxis 127 { cfg := { configured := true } } running) ∧
    Runs busSetAliasSpec 0 (fields [(1, 1), (1, 254)]) (seg { configured := true, state := 2, stations := [(1, some { position := 1 })] }) ∧
    Runs busStationResetSpec 0 (fields [(1, 254), (3, 0)]) (seg { configured := true, state := 3, silence := BitVec.twoPow 256 254 }) ∧
    Runs busRejoinSpec 0 [] (seg { configured := true, state := 3, split := true }) ∧
    Runs busAcyclicSpec 0 (fields [(1, 254), (1, 0), (2, 1), (1, 7)]) (seg { configured := true, state := 3, stations := [(254, some {})], bank0 := [{}, { kind := 1, length := 100000 }] }) ∧
    Runs busStatusSpec 7 [] running := by decide +kernel

/-- The hypotheses of `PelCommandsComplete` are met. -/
theorem meets_PelCommandsComplete :
    Runs pelConfigureSpec 0 (fields [(1, 255), (1, 15), (1, 0), (1, 32), (4, 0xFFFE7960), (2, 10), (2, 2500), (2, 100), (2, 500), (16, 0)]) running ∧
    RunsWith pelStartSpec 0 [] { running with pel := { configured := true, upPort := 3, downPort := 0xFF } } (fun s => joinsAsFollower s = true) ∧
    RunsWith pelStartSpec 0 [] { running with pel := { configured := true, upPort := 0xFF } } (fun s => joinsAsFollower s = false ∧ (s.pel.strap = false ∨ s.dev.stnaddr = 0)) ∧
    RunsWith pelStartSpec 0 [] { dev { stnaddr := 1 } with pel := { configured := true, strap := true, upPort := 0xFF } } (fun s => joinsAsFollower s = false ∧ s.pel.strap = true ∧ s.dev.stnaddr ≠ 0) ∧
    Runs pelStopSpec 0 [] { running with pel := { configured := true, state := 2 } } ∧
    Runs pelHandoverSpec 0 (fields [(1, 31), (3, 0)]) { running with pel := { configured := true, state := 2, isRef := true, members := 0xFFFFFFFF, syncedMembers := 0xFFFFFFFF } } ∧
    Runs pelFollowGmSpec 0 (fields [(1, 1), (1, 3), (2, 250), (4, 0x3F800000), (8, 0)]) { running with ptp := [(3, { role := 2 })] } ∧
    Runs pelStatusSpec 0 [] running := by decide +kernel

/-- The hypotheses of `SchedCommandsComplete` are met. -/
theorem meets_SchedCommandsComplete :
    Runs schedStatusSpec 4 [] running ∧
    Runs schedLoadSpec 4 [] running ∧
    Runs schedWcetSpec 1 (zeros 4) running ∧
    Runs schedSetWatermarksSpec 4 (fields [(2, 4096), (2, 1023), (4, 0)]) running ∧
    Runs schedClearStatsSpec 4 [] running ∧
    Runs schedFlowStatusSpec 65535 [] running ∧
    Runs schedFlowLimitSpec 0 (fields [(1, 255), (3, 0)]) running ∧
    Runs schedCancelSpec 32 [] waits := by decide +kernel

/-- The hypotheses of `SigCommandsComplete` are met. -/
theorem meets_SigCommandsComplete :
    Runs sigMapSpec 8192 (fields [(2, 1), (1, 2), (1, 1), (1, 7), (1, 254), (1, 0), (1, 7), (2, 0), (6, 0)]) running ∧
    Runs sigReadSpec 131071 (fields [(4, 1)]) running ∧
    Runs sigWriteSpec 0 (fields [(2, 1), (2, 0), (4, 131071), (4, 0), (8, 1)]) { running with sig := { image := [(131071, { source := 3 })] } } ∧
    Runs sigWatchSpec 63 (fields [(4, 131071), (1, 7), (1, 7), (2, 0), (8, 63), (8, 0)]) running := by decide +kernel

/-- The hypotheses of `AxisCommandsComplete` are met. -/
theorem meets_AxisCommandsComplete :
    Runs axisConfigureSpec 127 (fields [(4, 2000), (1, 2), (1, 1), (1, 0), (1, 7), (1, 255), (1, 255), (1, 255), (1, 7), (1, 16), (1, 1), (2, 0), (32, 0), (4, 0x3F800000), (4, 0x3F800000), (8, 0)]) running ∧
    Runs axisEnableSpec 0 [] (setSeg 0 { configured := true, state := 3 } (axis { cfg := { configured := true }, map := { segment := 0, station := 1 } })) ∧
    Runs axisDisableSpec 0 [] (axis { cfg := { configured := true }, state := .held }) ∧
    Runs axisCloseSpec 0 [] (axis { cfg := { configured := true }, state := .held, loop := { configured := true, trqLim := one } }) ∧
    Runs axisOpenSpec 0 [] (axis { cfg := { configured := true }, state := .closed }) ∧
    Runs axisClearSpec 0 [] (axis { cfg := { configured := true }, state := .fault }) ∧
    Runs axisMoveSpec 0 (fields [(8, 0), (4, 0x3F800000), (4, 0)]) (axis { cfg := { configured := true }, state := .closed }) ∧
    Runs axisSetLimitsSpec 0 (fields [(4, 1), (4, 0x3F800000), (40, 0)]) (axis { cfg := { configured := true }, state := .closed }) ∧
    Runs axisStopSpec 0 (fields [(1, 2), (3, 0)]) (axis { cfg := { configured := true }, state := .closed }) := by decide +kernel

/-- The hypotheses of `GrpCommandsComplete` are met. -/
theorem meets_GrpCommandsComplete :
    Runs grpConfigureSpec 15 CFG running ∧
    RunsWith grpEnableSpec 0 [] (group { configured := true, state := .idle }) (fun s => (grpOf s (objectOf r0 s)).mpc = false) ∧
    RunsWith grpEnableSpec 0 [] ((setGrp 0 { configured := true, mpc := true } INUSE)) (fun s => (grpOf s (objectOf r0 s)).mpc = true) ∧
    Runs grpDisableSpec 0 [] (group { configured := true, state := .ready }) ∧
    Runs grpMoveSpec 0 (fields [(1, 0), (1, 0), (1, 255), (1, 0), (4, 0x3F800000), (72, 0)]) (group { configured := true, state := .ready }) ∧
    Runs grpHoldSpec 0 [] (group { configured := true, state := .moving }) ∧
    Runs grpResumeSpec 0 [] (group { configured := true, state := .hold }) ∧
    Runs grpHomeSpec 0 [] (group { configured := true, state := .ready }) ∧
    Runs grpClearSpec 0 [] (group { configured := true, state := .fault }) ∧
    Runs grpSetPayloadSpec 0 (fields [(1, 3), (3, 0)]) (group { configured := true, state := .ready }) ∧
    Runs grpStopSpec 0 (fields [(1, 2), (3, 0)]) (group { configured := true, state := .moving }) ∧
    Runs grpStatusSpec 15 [] running := by decide +kernel

/-- The hypotheses of `StrmCommandsComplete` are met. -/
theorem meets_StrmCommandsComplete :
    Runs strmAttachSpec 7 (fields [(1, 0), (1, 0), (2, 0), (4, 4096), (4, 4095), (12, 0)]) (group { configured := true, state := .ready }) ∧
    Runs strmDetachSpec 7 [] { running with strm := [(7, { attached := true })] } ∧
    Runs strmAnchorSpec 7 [] (setStrm 7 { attached := true, needsAnchor := true, group := 0 } (group { configured := true, state := .ready })) := by decide +kernel

/-- The hypotheses of `QpCommandsComplete` are met. -/
theorem meets_QpCommandsComplete :
    RunsWith qpDefineClassSpec 63 CLASS running (fun s => classInUse s (objectOf r0 s) = false) ∧
    RunsWith qpDefineClassSpec 63 CLASS INUSE (fun s => classInUse s (objectOf r0 s) = true) ∧
    Runs qpRemoveClassSpec 63 [] { running with qp := { classes := [(63, [1])] } } ∧
    Runs qpAssignSpec 0 (fields [(1, 1), (3, 0), (1, 63), (3, 0xFFFFFF), (4, 0x3F800000), (20, 0)]) ASSIGN ∧
    Runs qpConfigureSpec 0 (fields [(4, 409600), (4, 0)]) running ∧
    Runs qpStatusSpec 15 [] running ∧
    Runs qpResultSpec 15 (zeros 4) { running with qp := { grp := [(15, { posedEver := true })] } } := by decide +kernel

/-- The hypotheses of `LoopCommandsComplete` are met. -/
theorem meets_LoopCommandsComplete :
    Runs loopConfigureSpec 127 (fields [(1, 1), (1, 7), (1, 24), (1, 31), (1, 31), (3, 0)]) (setAxis 127 { cfg := { configured := true } } running) ∧
    Runs loopSetCompSpec 0 COMP (axis { cfg := { configured := true }, state := .held, loop := { configured := true, trqLim := one } }) ∧
    Runs loopSetFilterSpec 0 (zeros 164) (axis { cfg := { configured := true }, state := .held, loop := { configured := true, trqLim := one } }) ∧
    Runs loopSetCascadeSpec 0 (fields [(1, 1), (291, 0)]) (axis { cfg := { configured := true }, state := .held, loop := { configured := true, cascade := true } }) ∧
    Runs loopSetCoeffSpec 0 (fields [(1, 1), (1, 0), (1, 6), (1, 0), (4, 0)]) (axis { cfg := { configured := true }, state := .held, loop := { configured := true, trqLim := one } }) ∧
    Runs loopSetLimitsSpec 0 (fields [(4, 1), (4, 0x3F800000), (16, 0)]) (axis { cfg := { configured := true }, state := .held, loop := { configured := true, trqLim := one } }) ∧
    Runs loopStatusSpec 127 [] running ∧
    Runs loopReadCoeffSpec 0 [] (axis { cfg := { configured := true }, state := .held, loop := { configured := true, trqLim := one } }) := by decide +kernel

/-- The hypotheses of `TraceCommandsComplete` are met. -/
theorem meets_TraceCommandsComplete :
    Runs traceConfigureSpec 7 TRC running ∧
    Runs traceSetLengthSpec 0 (fields [(4, 16), (4, 15)]) (session { state := .stopped, cfg := TRC }) ∧
    RunsWith traceArmSpec 0 (zeros 8) (session { state := .stopped, length := 16, cfg := TRC }) (fun s => tSrc (sesOf s (objectOf r0 s)).cfg ≠ 2) ∧
    RunsWith traceArmSpec 0 (zeros 8) (session { state := .stopped, length := 16, cfg := TRC2 }) (fun s => tSrc (sesOf s (objectOf r0 s)).cfg = 2) ∧
    Runs traceTriggerSpec 0 [] (session { state := .armed }) ∧
    Runs traceStopSpec 0 [] (session { state := .armed }) ∧
    Runs traceStatusSpec 7 [] running ∧
    Runs traceReadSpec 0 (zeros 12) (session { state := .stopped }) ∧
    Runs traceInjectSpec 0 INJ { (axis { cfg := { configured := true }, state := .closed, loop := { configured := true, trqLim := one } }) with sch := { shares := [{ cls := 0, type := 1, object := 0, unit := 0 }] } } ∧
    Runs traceInjectStopSpec 0 [] (setInj 0 (some {}) (axis { cfg := { configured := true }, state := .closed })) ∧
    Runs traceFrfSpec 0 FRF (session { state := .stopped, valid := 16, length := 16, cfg := TRC }) := by decide +kernel

/-- The hypotheses of `ZoneCommandsComplete` are met. -/
theorem meets_ZoneCommandsComplete :
    Runs zoneDefineSpec 63 (fields [(12, 0), (4, 0x3F800000), (4, 0x3F800000), (4, 0x3F800000)]) running ∧
    Runs zoneRequestSpec 63 (fields [(1, 0), (7, 0), (8, 1000000)]) ZREQ ∧
    Runs zoneReleaseSpec 63 (fields [(1, 15), (3, 0)]) (setZone 63 { defined := true, holder := some 15 } running) ∧
    Runs zoneStatusSpec 63 [] running := by decide +kernel

/-- The hypotheses of `SsmCommandsComplete` are met. -/
theorem meets_SsmCommandsComplete :
    Runs ssmConfigureSpec 0 SSM running ∧
    Runs ssmSetGroupSpec 0 SSMG (group { configured := true, state := .idle }) ∧
    Runs ssmSetObstaclesSpec 0 (fields [(1, 1), (7, 0), (32, 0)]) running ∧
    Runs ssmSetSensorSpec 15 SENS running ∧
    Runs ssmStatusSpec 15 [] running := by decide +kernel

/-- The hypotheses of `IoCommandsComplete` are met. -/
theorem meets_IoCommandsComplete :
    Runs ioConfigureSpec 31 (fields [(1, 0), (15, 0)]) running ∧
    Runs ioConfigureGroupSpec 3 (zeros 8) running ∧
    Runs ioSetWatchdogSpec 0 (fields [(1, 255), (3, 0)]) running ∧
    Runs ioWriteSpec 0 (fields [(4, 0x80000000), (4, 0x80000000), (4, 0)]) (setChan 31 { role := 2 } running) ∧
    Runs ioReenableSpec 3 (zeros 4) running ∧
    Runs ioReleaseSafeSpec 0 [] { running with io := { safe := 1, validRun := 16 } } ∧
    Runs ioStoResetSpec 3 (zeros 4) running ∧
    Runs ioStatusSpec 3 [] running := by decide +kernel

/-- The hypotheses of `StpCommandsComplete` are met. -/
theorem meets_StpCommandsComplete :
    Runs stpConfigureSpec 15 STP running ∧
    Runs stpEnableSpec 0 [] (stepper { state := .disabled }) ∧
    Runs stpDisableSpec 0 [] (stepper { state := .ready }) ∧
    Runs stpMoveSpec 0 (fields [(8, 1000), (4, 0x3F800000), (4, 0)]) (stepper { state := .ready }) ∧
    RunsWith stpStopSpec 0 (fields [(1, 1), (3, 0)]) (stepper { state := .moving }) (fun s => u8 (payloadOf stpStopSpec r0 s) 0 = 1) ∧
    RunsWith stpStopSpec 0 (zeros 4) (stepper { state := .moving }) (fun s => u8 (payloadOf stpStopSpec r0 s) 0 = 0) ∧
    Runs stpHomeSpec 0 [] (stepper { state := .ready, homeMode := 3 }) ∧
    Runs stpSetLimitsSpec 0 (fields [(4, 1), (4, 0x3F800000), (40, 0)]) (stepper { state := .ready }) ∧
    Runs stpClearSpec 0 [] (stepper { state := .safe }) ∧
    Runs stpStatusSpec 15 [] running := by decide +kernel

/-- The hypotheses of `PcCommandsComplete` are met. -/
theorem meets_PcCommandsComplete :
    Runs pcSelectSpec 142 (fields [(1, 1), (19, 0)]) running ∧
    Runs pcSpokeInfoSpec 142 [] running := by decide +kernel

/-- The hypotheses of `JrnCommandsComplete` are met. -/
theorem meets_JrnCommandsComplete :
    Runs jrnStatusSpec 0 [] running ∧
    Runs jrnReadSpec 0 (fields [(8, 0), (4, 1)]) running ∧
    Runs jrnChallengeSpec 0 [] running ∧
    Runs jrnConfigureSpec 0 (fields [(2, 1000), (2, 0)]) running ∧
    Runs jrnAnnotateSpec 0 (zeros 32) running := by decide +kernel

/-! Commands whose checks run a digest or a signature. What the opaque verification of Config answers is a hypothesis. -/

/-- With no fuse of the slot blown, the digest of the key does not matter to what `sec.set_owner` refuses. -/
theorem setOwner_bad (c : Cmd) (s : State) (h : ownerHashOf s (u8 c.p 0) = 0) : (secSetOwnerSpec.body c s).bad =
    [(!zeroAt c.p 1 3, .badArg), (decide (1 < u8 c.p 0), .outOfRange),
     ((if u8 c.p 0 = 0 then s.dev.fuses.owner0Set else s.dev.fuses.owner1Set || !s.dev.fuses.owner0Set) || decide (s.dev.mode ≠ .run),
       .stateConflict), (devBusy s, .objectBusy)] := by
  simp [secSetOwnerSpec, h]

theorem setOwner_refusal (r : CmdRef) (s : State) (h : ownerHashOf s (u8 (cmdOf secSetOwnerSpec r s).p 0) = 0) :
    refusalOf secSetOwnerSpec r s = (let c := cmdOf secSetOwnerSpec r s
      firstBad (commonBad secSetOwnerSpec c (secSetOwnerSpec.kind c.h c.p s) s ++
    [(!zeroAt c.p 1 3, .badArg), (decide (1 < u8 c.p 0), .outOfRange),
     ((if u8 c.p 0 = 0 then s.dev.fuses.owner0Set else s.dev.fuses.owner1Set || !s.dev.fuses.owner0Set) || decide (s.dev.mode ≠ .run),
       .stateConflict), (devBusy s, .objectBusy)])) := by
  unfold refusalOf; dsimp only; rw [setOwner_bad _ _ h]

/-- A state with a `sec.set_owner` posted. -/
def OWNER : State := posted 0x1304 0 0 (zeros 2596) running

/-- The set_owner clause of `SecCommandsComplete`. -/
theorem meets_secSetOwner : Accepted secSetOwnerSpec r0 OWNER := by
  have h : ownerHashOf OWNER (u8 (cmdOf secSetOwnerSpec r0 OWNER).p 0) = 0 := by decide +kernel
  exact ⟨by decide +kernel, (setOwner_refusal r0 OWNER h).trans (by decide +kernel)⟩

/-- A container (table "Container"): its type, the count of its records, the SHA3-512 of its payload as hashlib gives it, and the payload. -/
def container (type count digest : Nat) (pay : List Byte) : List Byte :=
  fields [(4, conMagic), (2, type), (2, 0), (4, 0x1612B000), (4, 0), (8, 0), (8, pay.length)] ++ beBytes 64 digest ++ zeros 8 ++ leBytes 4 count
    ++ zeros 8084 ++ pay
/-- A command with an indirect payload `p` posted in mailbox 0, slot 0. -/
def postedInd (op : Nat) (p : List Byte) (s : State) : State := { s with host := { s.host with
  mb := tset {} s.host.mb 0 { slots := [(0, .posted)], bells := [(0, 1)] }
  bar2 := mwrite s.host.bar2 0 (fields [(4, op), (4, 2), (4, 0), (4, p.length), (48, 0)]) } }

/-- The load_image clause of `DevCommandsComplete`: an image of one command, on a device with no owner key. -/
theorem meets_devLoadImage :
    let p := zeros 8 ++ container 2 1 0x5493e7db5ad790440c05fc99ef138b12f4c5377a97fe840e0e5e0288a3225c61966f7a24aaba4ec97cd4548fcd103e0847fa9b45206773bb54e2136337fb0d09
      (header 0x0501 0 0 0)
    Accepted devLoadImageSpec ⟨0, 0, p⟩ (postedInd 0x0104 p running) := by decide +kernel

/-- A firmware container of one byte. -/
def FW : List Byte := container 1 0 0x7127aab211f82a18d06cf7578ff49d5089017944139aa60d8bee057811a15fb55a53887600a3eceba004de51105139f32506fe5b53e1913bfa6b32e716fe97da [0]

theorem verify_firmware (s : State) (c : List Byte) (h1 : formOk true c = true) (h2 : vendorOk s c = true)
    (h3 : sha3 (conPayload c) = (c.drop 32).take 64) (h4 : ¬u8 c 16 < fusedCount s) : verifyContainer s true c = none := by
  unfold verifyContainer; simp [h1, h2, h3, h4]

theorem FW_form : formOk true FW = true := by decide +kernel
theorem FW_digest : sha3 (conPayload FW) = (FW.drop 32).take 64 := by decide +kernel

theorem update_bad (c : Cmd) (s : State) (v : verifyContainer s true c.p = none) : (devUpdateFwSpec.body c s).bad =
    [(decide (s.dev.bootsel = 1#2) || decide (s.dev.slot = 2), .notConfigured), (false, .badArg),
     (decide (s.dev.mode = .run) && !s.dev.fwConfirmed, .stateConflict), (devBusy s, .objectBusy), (false, .signatureInvalid),
     (false, .rollback)] := by
  simp [devUpdateFwSpec, v]

theorem update_refusal (r : CmdRef) (s : State) (v : verifyContainer s true (cmdOf devUpdateFwSpec r s).p = none) :
    refusalOf devUpdateFwSpec r s = (let c := cmdOf devUpdateFwSpec r s
      firstBad (commonBad devUpdateFwSpec c (devUpdateFwSpec.kind c.h c.p s) s ++
        [(decide (s.dev.bootsel = 1#2) || decide (s.dev.slot = 2), .notConfigured), (false, .badArg),
         (decide (s.dev.mode = .run) && !s.dev.fwConfirmed, .stateConflict), (devBusy s, .objectBusy), (false, .signatureInvalid),
         (false, .rollback)])) := by
  unfold refusalOf; dsimp only; rw [update_bad _ _ v]

/-- A device with a confirmed firmware and the update posted. -/
def UPDATE : State := postedInd 0x0105 FW (dev { fwConfirmed := true })

/-- The update_fw clause of `DevCommandsComplete`: a container that verifies under a vendor key. -/
theorem meets_devUpdateFw (h : vendorOk UPDATE FW = true) : Accepted devUpdateFwSpec ⟨0, 0, FW⟩ UPDATE := by
  have e : (cmdOf devUpdateFwSpec ⟨0, 0, FW⟩ UPDATE).p = FW := by decide +kernel
  have v : verifyContainer UPDATE true (cmdOf devUpdateFwSpec ⟨0, 0, FW⟩ UPDATE).p = none := by
    rw [e]; exact verify_firmware UPDATE FW FW_form h FW_digest (by decide +kernel)
  exact ⟨by decide +kernel, (update_refusal _ _ v).trans (by decide +kernel)⟩

theorem truncate_bad (c : Cmd) (s : State) (a : truncateAuth s (c.p.take 128) ((c.p.drop 128).take 2592) = true)
    (v : Config.mlDsaVerify ((c.p.drop 128).take 2592) (sha3 (c.p.take 128)) ((c.p.drop 2720).take 4627) = true) :
    (jrnTruncateSpec.body c s).bad =
    [(decide (u32 (c.p.take 128) 0 ≠ 0x3154564B) || decide (1 < u8 (c.p.take 128) 4) || !zeroAt (c.p.take 128) 5 3
        || !zeroAt (c.p.take 128) 52 76, .badArg), (false, .stateConflict), (false, .signatureInvalid),
     (!(decide ((s.jrn.floor.toNat : Int) ≤ recordNo s (u32 (c.p.take 128) 48))
        && decide (recordNo s (u32 (c.p.take 128) 48) ≤ s.jrn.next.toNat)), .outOfRange)] := by
  simp [jrnTruncateSpec, a, v]

theorem truncate_refusal (r : CmdRef) (s : State)
    (a : truncateAuth s ((cmdOf jrnTruncateSpec r s).p.take 128) (((cmdOf jrnTruncateSpec r s).p.drop 128).take 2592) = true)
    (v : Config.mlDsaVerify (((cmdOf jrnTruncateSpec r s).p.drop 128).take 2592) (sha3 ((cmdOf jrnTruncateSpec r s).p.take 128))
      (((cmdOf jrnTruncateSpec r s).p.drop 2720).take 4627) = true) :
    refusalOf jrnTruncateSpec r s = (let c := cmdOf jrnTruncateSpec r s
      firstBad (commonBad jrnTruncateSpec c (jrnTruncateSpec.kind c.h c.p s) s ++
    [(decide (u32 (c.p.take 128) 0 ≠ 0x3154564B) || decide (1 < u8 (c.p.take 128) 4) || !zeroAt (c.p.take 128) 5 3
        || !zeroAt (c.p.take 128) 52 76, .badArg), (false, .stateConflict), (false, .signatureInvalid),
     (!(decide ((s.jrn.floor.toNat : Int) ≤ recordNo s (u32 (c.p.take 128) 48))
        && decide (recordNo s (u32 (c.p.take 128) 48) ≤ s.jrn.next.toNat)), .outOfRange)])) := by
  unfold refusalOf; dsimp only; rw [truncate_bad _ _ a v]

/-- A truncation statement for this device, with a key and a signature of zeros. -/
def STATEMENT : List Byte := fields [(4, 0x3154564B), (4, 0), (8, Config.uid.toNat)] ++ zeros 32 ++ fields [(4, 5), (76, 0)]
def TRUNC : List Byte := STATEMENT ++ zeros 7219
/-- A device with an owner key, a challenge and ten records written. -/
def TRUNCATE : State := { dev { fuses := { owner0Set := true } } with
  jrn := { challenge := some (zeros 32), next := 10 }
  host := (postedInd 0x1204 TRUNC running).host }

/-- The truncate clause of `JrnCommandsComplete`: a statement of this device that verifies under its owner key. -/
theorem meets_jrnTruncate (a : truncateAuth TRUNCATE STATEMENT (zeros 2592) = true)
    (v : Config.mlDsaVerify (zeros 2592) (sha3 STATEMENT) (zeros 4627) = true) : Accepted jrnTruncateSpec ⟨0, 0, TRUNC⟩ TRUNCATE := by
  have e1 : (cmdOf jrnTruncateSpec ⟨0, 0, TRUNC⟩ TRUNCATE).p.take 128 = STATEMENT := by rfl
  have e2 : ((cmdOf jrnTruncateSpec ⟨0, 0, TRUNC⟩ TRUNCATE).p.drop 128).take 2592 = zeros 2592 := by decide +kernel
  have e3 : ((cmdOf jrnTruncateSpec ⟨0, 0, TRUNC⟩ TRUNCATE).p.drop 2720).take 4627 = zeros 4627 := by decide +kernel
  exact ⟨by decide +kernel, (truncate_refusal _ _ (by rw [e1, e2]; exact a) (by rw [e1, e2, e3]; exact v)).trans (by decide +kernel)⟩

/-! The machine as a whole. -/

/-- Mailbox slot (1, 31) is DONE, slot (0, 0) POSTED, event 5 pending and lost, a fuse blown, the crosslink lost, in FAULT. -/
def WORN : State := { dev { fuses := { vk0Revoked := true }, faultCause := 0x00010004, faultN := true } with
  host := { State.reset.host with mb := [(0, { slots := [(0, .posted)] }), (1, { slots := [(31, .done)] })] }
  evt := { State.reset.evt with pend := 0x20, lost := 0x20 }
  xl := { State.reset.xl with up := true, lost := true } }
def FAULTY : State := { WORN with dev := { WORN.dev with mode := .fault } }

theorem meets_EmptyQueueTicks : State.reset.pending = [] := rfl
theorem reset_meets_inv : Inv State.reset ∧ ∃ t, step State.reset = .next t := ⟨⟨by unfold HostOk; decide +kernel, by unfold HubOk; decide +kernel, by unfold EvtOk; decide +kernel⟩, _, rfl⟩
theorem meets_QueueUntouched : ∃ t, exec .thermWarnClear WORN = .next t := ⟨_, rfl⟩
theorem meets_FusesStayBlown : WORN.dev.fuses.vk0Revoked = true ∧ ∃ t, step { WORN with pending := [.thermWarnClear] } = .next t :=
  ⟨rfl, _, rfl⟩
theorem meets_EventsStayPending : ∃ t, exec .thermWarnClear WORN = .next t ∧ resets .thermWarnClear = false ∧
    clearsEvents .thermWarnClear = false ∧ Pending WORN 5 ∧ WORN.evt.lost.getLsbD 5 = true ∧
    (∀ n w, Instr.thermWarnClear ≠ .evtLostClear n w) ∧ (∀ b o d, Instr.thermWarnClear ≠ .registerWrite b o d) :=
  ⟨_, rfl, rfl, rfl, by unfold Pending; decide +kernel, by decide +kernel, fun _ _ => nofun, fun _ _ _ => nofun⟩
theorem meets_SlotsKeepTheirOrder : ∃ t, exec .thermWarnClear WORN = .next t ∧ resets .thermWarnClear = false ∧
    freesSlots .thermWarnClear = false ∧ slotOf WORN 1 31 = .done ∧ slotOf WORN 0 0 = .posted ∧ slotOf WORN 7 31 = .free :=
  ⟨_, rfl, rfl, rfl, by decide +kernel⟩
theorem meets_PostedBytesStay : slotOf WORN (0 : Fin 8) (0 : Fin 32) = .posted ∧ bar2Live WORN = true ∧
    (0xFFF : BitVec 12).toNat + [(1 : Byte)].length ≤ 4096 ∧ ∃ t, exec .thermWarnClear WORN = .next t ∧ resets .thermWarnClear = false :=
  ⟨by decide +kernel, rfl, by decide, _, rfl, rfl⟩
theorem meets_FaultModeStays : ∃ t, exec .thermWarnClear FAULTY = .next t ∧ restarts .thermWarnClear = false ∧ FAULTY.dev.mode = .fault ∧
    FAULTY.dev.faultCause ≠ 0 ∧ FAULTY.dev.faultN = true := ⟨_, rfl, rfl, rfl, by decide, rfl⟩
theorem meets_CrosslinkStaysLost : ∃ t, exec .thermWarnClear WORN = .next t ∧ WORN.xl.lost = true := ⟨_, rfl, rfl⟩
theorem meets_HostRegistersStay : ∃ t, exec .thermWarnClear WORN = .next t ∧ resets .thermWarnClear = false ∧
    hostAccess .thermWarnClear = false := ⟨_, rfl, rfl, rfl⟩
/-- THERM_WARN's end changes the device's own fields only, the end of a replay of a flit none of the others'. -/
theorem meets_FrameOfMotionAndBuses : ∃ t, exec .thermWarnClear WORN = .next t ∧ isRow .thermWarnClear = true ∧
    [changesAxes, changesGroups, changesStreams, changesSteps, changesPlanning, changesSeparation, changesBus, changesPeloton, changesPtp,
     changesSignals, changesScheduler, changesChannels].all (fun f => f .thermWarnClear = false) = true := ⟨_, rfl, rfl, by decide +kernel⟩
theorem meets_FrameOfDevice : ∃ t, exec (.foreignFrame 15) WORN = .next t ∧ isRow (.foreignFrame 15) = true ∧
    [changesCadence, changesTime, changesDevice, changesJournal, changesCrosslink, changesEffects, changesUnits].all
      (fun f => f (.foreignFrame 15) = false) = true := ⟨_, rfl, rfl, by decide +kernel⟩
theorem meets_DoorbellOverrun : WORN.dev.mbReady = true ∧ (31 : Word).toNat < 32 ∧ slotOf WORN (1 : Fin 8) (31 : Word).toNat ≠ .free := by
  decide +kernel
theorem meets_EventOccurs : (127 : Nat) < 128 ∧ (({ WORN with evt := { WORN.evt with mask := 0 } } : State).evt.mask.getLsbD 127 = false) ∧
    ¬Pending { WORN with evt := { WORN.evt with mask := 0 } } 127 := by unfold Pending; decide +kernel
/-- An unknown object and an argument out of range: the first counts. -/
theorem meets_RefusalOrder : refusalOf schedStatusSpec r0 (posted 0x0501 99 0 [] running) = some .badObject := by decide +kernel
theorem meets_RefusedCommands :
    mailbox (.schedStatus r0) = some (schedStatusSpec, r0) ∧ ¬Posted schedStatusSpec r0 running ∧
    Posted schedStatusSpec r0 (posted 0x0501 99 0 [] running) ∧
    refusalOf schedStatusSpec r0 (posted 0x0501 99 0 [] running) = some .badObject ∧ leavesTrace (.schedStatus r0) = false :=
  ⟨rfl, by decide +kernel, by decide +kernel, by decide +kernel, rfl⟩
/-- A mailbox-0 command posted in mailbox 7, slot 31. -/
theorem meets_RefusedCommands_privileged :
    let s : State := { running with host := { running.host with
      mb := [(7, { slots := [(31, .posted)], bells := [(31, 1)] })], bar2 := mwrite [] (cmdBuf 7 31) (header 0x0102 0 0 4) } }
    mailbox (.devReset ⟨7, 31, []⟩) = some (devResetSpec, ⟨7, 31, []⟩) ∧ devResetSpec.priv = true ∧ Posted devResetSpec ⟨7, 31, []⟩ s :=
  ⟨rfl, rfl, by decide +kernel⟩
theorem meets_FaultModeServes :
    let s := posted 0x0701 0 0 [] FAULTY
    let u := posted 0x0101 0 0 [] FAULTY
    mailbox (.grpConfigure r0) = some (grpConfigureSpec, r0) ∧ Posted grpConfigureSpec r0 s ∧ s.dev.mode = .fault ∧
    servedInFault (bitOf (u32 (payloadOf grpConfigureSpec r0 s) 8) 0) (.grpConfigure r0) = false ∧
    mailbox (.devBootStatus r0) = some (devBootStatusSpec, r0) ∧ Posted devBootStatusSpec r0 u ∧ u.dev.mode = .fault ∧ u.dev.noCore = false ∧
    servedInFault (bitOf (u32 (payloadOf devBootStatusSpec r0 u) 8) 0) (.devBootStatus r0) = true ∧
    ({ u with dev := { u.dev with noCore := true } } : State).dev.noCore = true :=
  ⟨rfl, by decide +kernel, rfl, rfl, rfl, by decide +kernel, rfl, rfl, rfl, rfl⟩
theorem meets_CompletionPath :
    slotOf WORN (7 : Fin 8) (31 : Fin 32) ≠ .posted ∧ slotOf WORN (0 : Fin 8) (0 : Fin 32) = .posted ∧
    (hdrOf WORN (0 : Fin 8) (0 : Fin 32)).indResult = false ∧ (hdrOf WORN (0 : Fin 8) (0 : Fin 32)).noEvent = false ∧
    (hdrOf (posted 0x0101 0 8 [] running) (0 : Fin 8) (0 : Fin 32)).noEvent = true := by decide +kernel
/-- An enable waits for this cadence start. -/
def EFFECTS : State := { running with eff := [{ opcode := 0x0802 }], cad := { running.cad with start := 31250, started := true } }
theorem meets_CadenceTakesEffects : cadenceRuns EFFECTS = true ∧ EFFECTS.dev.frozen = false ∧ (∃ t, exec .cadenceStart EFFECTS = .next t) ∧
    0x0802 ∈ cadenceOps := ⟨rfl, rfl, ⟨_, rfl⟩, by decide +kernel⟩
theorem meets_DeferredEffects :
    ((axisOf (axis {}) 0).state = .disabled ∧ (axisOf (axis {}) 0).enable = none) ∧
    (axisOf (axis { state := .held }) 0).state = .held ∧
    ((axisOf (axis { state := .closed }) 0).state = .closed ∧ (axisOf (axis { state := .closed }) 0).cmdV = 0) ∧
    (axisOf (axis { state := .fault }) 0).state = .fault ∧
    (grpOf running 15).state = .idle ∧ (grpOf (group { state := .ready }) 0).state = .ready ∧ (grpOf (group { state := .hold }) 0).state = .hold ∧
    (grpOf (group { state := .moving }) 0).state = .moving ∧ (sesOf (session { state := .armed }) 0).state = .armed ∧
    u8 [0, 1] 1 = 1 ∧ (stpOf (stepper { state := .disabled }) 0).state = .disabled ∧
    ((stpOf (stepper { state := .ready }) 0).state = .ready ∧ (stpOf (stepper { state := .ready }) 0).homeMode ≠ 3) := by decide +kernel

/-! The host's registers, the counters' hub, reset and power. -/

theorem meets_MailboxRegisters :
    (WORN.dev.mbReady = true ∧ (31 : Word).toNat < 32 ∧ slotOf WORN (0 : Fin 8) (31 : Word).toNat = .free) ∧
    (State.reset.dev.mbReady = false ∧ 32 ≤ (32 : Word).toNat) ∧
    (bar2Live WORN = true ∧ (0xFFF : BitVec 12).toNat + [(1 : Byte)].length ≤ 4096 ∧ slotOf WORN (7 : Fin 8) (31 : Fin 32) ≠ .posted ∧
      slotOf WORN (0 : Fin 8) (0 : Fin 32) = .posted) := by decide +kernel
theorem meets_EventBlockWrites :
    ((0x80000000 : Word).getLsbD 31 = true ∧ WORN.evt.mask.getLsbD (32 * (3 : Fin 4).val + 31) = true ∧ (0 : Word).getLsbD 31 = false) ∧
    (Pending WORN (32 * (0 : Fin 4).val + 5) ∧ WORN.evt.mask.getLsbD 5 = true ∧ (0 : Word).getLsbD 5 = false) ∧ EvtOk WORN.evt ∧ eventSource 31 = true ∧ eventSource 46 = false := by
  unfold Pending EvtOk; decide +kernel
theorem meets_HostRegisterWrites :
    ((1 : Word).getLsbD 0 = true ∧ (2 : Word).getLsbD 0 = false) ∧
    (({ running with host := { running.host with usrEn := true } } : State).host.usrEn = true ∧ running.host.usrEn = false) ∧
    (bar2Live running = true ∧ running.dev.mode ≠ .kickstand ∧ (0 : Word).toNat < (strmOf (setStrm 7 { count := 1 } running) 7).count ∧
      (strmOf (setStrm 7 { count := 1 } running) 7).count ≤ (1 : Word).toNat) ∧
    barSize .bar0 < (65535 : BitVec 32).toNat + (zeros 2).length ∧
    ((65535 : BitVec 32).toNat + (zeros 1).length ≤ 65536 ∧ ((zeros 1).length ≠ 4 ∨ (65535 : BitVec 32).toNat % 4 ≠ 0)) ∧
    ((zeros 4).length = 4 ∧ running.dev.mode ≠ .reset) := by decide +kernel
/-- The hub with a latch instant due, and one with a dump due, a mirror enabled, no dump unread but 63. -/
def FULL : State := { running with hub := { enable := true, mirrorEn := true, dumpDue := true, wr := 63 * 8192 } }
theorem meets_HubRegisters :
    (hubLive running = true ∧ 100 ≤ (100 : Word).toNat ∧ (1000000 : Word).toNat ≤ 1000000 ∧ (99 : Word).toNat < 100 ∧ 1000000 < (1000001 : Word).toNat) ∧
    ((0x7FFFF : Word).toNat < 0x80000 ∧ 0x80000 ≤ (0x80000 : Word).toNat) ∧ (running.hub.mirrorEn = false ∧ FULL.hub.mirrorEn = true) ∧
    latchDue running = true ∧ (hubLive FULL = true ∧ latchDue FULL = true ∧ FULL.hub.enable = true ∧ unread FULL = 63 ∧ FULL.hub.dumpDue = true) := by
  decide +kernel
/-- In RESET, PORST_N high, and the same with PFAIL_N low. -/
def DOWN : State := { State.reset with dev := { State.reset.dev with porstLow := false } }
theorem meets_ResetAndPower :
    (State.reset.dev.porstLow = true ∧ State.reset.dev.pfail = false) ∧
    (({ State.reset with dev := { State.reset.dev with pfail := true } } : State).dev.porstLow = true) ∧
    ((dev { resetAt := some 5 }).dev.resetAt.isSome = true ∧ (dev { resetAt := some 5 }).dev.pfail = false) ∧
    ((dev { waitPfail := true }).dev.waitPfail = true ∧ running.dev.waitPfail = false ∧
      ({ running with jrn := { holdupEnding := true } } : State).jrn.holdupEnding = true) ∧
    (running.dev.pfail = false ∧ running.dev.mode ≠ .reset ∧ running.dev.frozen = false) ∧
    (DOWN.dev.pfail = false ∧ DOWN.dev.mode = .reset ∧ DOWN.dev.porstLow = false ∧ DOWN.jrn.holdup = false) ∧
    (railOfM .vddCore = true ∧ Rail.vddCore ∉ running.dev.held ∧ railOfM .vddF = false ∧ Rail.vddF ∉ State.reset.dev.held ∧
      State.reset.dev.mode = .reset) ∧ FAULTY.dev.mode = .fault := by decide +kernel
/-- Sixteen cadences were missed. -/
def LATE : State := { running with cad := { running.cad with misses := 16 } }
theorem meets_DeviceFaults :
    (running.dev.mode ≠ .reset ∧ running.dev.frozen = false ∧ running.dev.faultCause = 0 ∧ running.dev.thermWarn = false ∧
      running.dev.thermCrit = false ∧ running.cad.misses < 16) ∧
    (LATE.dev.mode ≠ .reset ∧ LATE.dev.frozen = false ∧ LATE.dev.faultCause = 0 ∧ 16 ≤ LATE.cad.misses) ∧
    (WORN.dev.mode ≠ .reset ∧ WORN.dev.frozen = false ∧ WORN.dev.faultCause ≠ 0) ∧
    ((∃ o : EccOwner, o ≠ .scheduler ∧ o ≠ .supervisor) ∧ slotOf WORN (0 : Fin 8).val (0 : Fin 32).val = .posted) :=
  ⟨by decide +kernel, by decide +kernel, by decide +kernel, ⟨.hostSlot 0 0, nofun, nofun⟩, by decide +kernel⟩
/-- A flit with its CRC for sequence 0. -/
def FLIT : List Byte := zeros 30 ++ leBytes 2 (flitCrc 0 (zeros 30)).toNat
/-- In each direction one flit that was sent `n` times waits for its acknowledgement, and 15 flits were taken since the last one. -/
def REPLAY (n : Nat) (w : Bool) : State :=
  let d : XDir := { replay := [(FLIT, n)], txSeq := 1, replaysCad := 4, sinceAck := 15, awaiting := w }
  { running with xl := { running.xl with toF := d, toM := d } }
theorem meets_Crosslink :
    (running.xl.up = true ∧ ∀ d ∈ [Die.m, Die.f], flitOk (dirTo d running).rxSeq FLIT = true ∧ flitOk (dirTo d running).rxSeq [] = false ∧
      (dirTo d running).sinceAck < 15 ∧ 15 ≤ (dirTo d (REPLAY 1 false)).sinceAck ∧ (dirTo d (REPLAY 1 true)).awaiting = true ∧
      (dirTo d running).awaiting = false) ∧
    ((REPLAY 14 false).xl.up = true ∧ ∀ d ∈ [Die.m, Die.f], unacked (dirTo (otherDie d) (REPLAY 14 false)) 0 = [(FLIT, 14)] ∧
      4 ≤ (dirTo (otherDie d) (REPLAY 14 false)).replaysCad) ∧
    ((REPLAY 15 false).xl.lost = false ∧ dieFHeld (REPLAY 15 false) = false ∧ ∀ d ∈ [Die.m, Die.f],
      unacked (dirTo (otherDie d) (REPLAY 15 false)) 0 = [(FLIT, 15)]) ∧
    xlinkCarries running = true ∧ (running.xl.lost = false ∧ running.dev.mode ≠ .reset ∧ running.dev.frozen = false) ∧
    (dev { frozen := true }).dev.frozen = true ∧
    (({ State.reset with xl := running.xl } : State).dev.mode = .reset ∧ dieFHeld { State.reset with xl := running.xl } = false) ∧
    State.reset.xl.up = false ∧ WORN.xl.lost = true ∧ dieFHeld (dev { held := [.vddF] }) = true := by decide +kernel
/-- The ROM runs, the crosslink up and the LPDDR trained, with the firmware container in slot 0. -/
def ROM : State := { State.reset with
  dev := { State.reset.dev with mode := .boot, porstLow := false, lpddrTrained := true, slot := 0, flash := [(0, FW)] }
  xl := { State.reset.xl with up := true } }
def STAGEDOF (c : List Byte) : State := { ROM with dev := { ROM.dev with bootsel := 1 }, host := { ROM.host with staging := mwrite [] 0 c } }
def STAGED : State := STAGEDOF FW
def INIT : State := { ROM with dev := { ROM.dev with mode := .init, lpddrDone := true } }
theorem meets_BootRows :
    (({ ROM with xl := {} } : State).dev.mode = .boot ∧ ({ ROM with xl := {} } : State).xl.up = false ∧ ROM.xl.initFailed = false ∧ ROM.dev.held = []) ∧
    ROM.dev.lpddrTrained = true ∧ (awaitsImage ROM = true ∧ ROM.dev.bootsel ≠ 1#2 ∧ ROM.dev.pcieWait = false) ∧
    (awaitsImage STAGED = true ∧ STAGED.dev.bootsel = 1#2 ∧ STAGED.dev.stagedTaken = false) ∧
    (({ ROM with dev := { ROM.dev with loaded := FW.take 256 } } : State).dev.loaded ≠ []) ∧
    (INIT.dev.mode = .init ∧ INIT.dev.lpddrDone = true ∧ INIT.dev.resetAt = none ∧ u32 (flashOf INIT 2) 0 ≠ conMagic) ∧
    (running.dev.mode = .run ∧ running.dev.fwConfirmed = false ∧ running.dev.unconfirmedDone = false) ∧
    (ROM.dev.mode = .boot ∧ ROM.xl.up = true ∧ ROM.dev.resetAt = none ∧ ROM.dev.bootsel ≠ 1#2 ∧ ROM.dev.pcieWait = false) ∧
    ((dev { op := some { target := 1, image := FW } }).dev.op = some { target := 1, image := FW } ∧ running.dev.frozen = false) := by decide +kernel
theorem flash_is (c : List Byte) (s : State) (h : s.dev.flash = [(0, c)]) (k : s.dev.slot = 0) : flashOf s s.dev.slot = c := by
  unfold flashOf; rw [h, k]; rfl
/-- The container of ROM and STAGED verifies where the vendor key and the signature do. -/
theorem meets_BootRows_verified (h : vendorOk ROM FW = true) : verifyContainer ROM true (flashOf ROM ROM.dev.slot) = none := by
  rw [flash_is FW ROM rfl rfl]; exact verify_firmware ROM FW FW_form h FW_digest (by decide +kernel)
theorem mread_part (c : List Byte) (i n : Nat) (h : i + n ≤ c.length) : mread (mwrite [] 0 c) i n = (c.drop i).take n := by
  have e := mread_mwrite_self c [] 0
  obtain ⟨r, hr⟩ := Nat.exists_eq_add_of_le h
  rw [show c.length = i + (n + r) by omega, mread_append, mread_append, Nat.zero_add] at e
  have l : (mread (mwrite [] 0 c) 0 i).length = i := mread_length _ _ _
  have k : (mread (mwrite [] 0 c) i n).length = n := mread_length _ _ _
  conv => rhs; rw [← e]
  rw [List.drop_append_of_le_length (by omega), List.drop_of_length_le (by omega), List.nil_append,
    List.take_append_of_le_length (by omega), List.take_of_length_le (by omega)]
theorem FW_length : FW.length = 8193 := by decide +kernel
theorem FW_size : leNat ((FW.drop 24).take 8) = 1 := by decide +kernel
theorem FW_magic : leNat ((FW.drop 0).take 4) = conMagic := by decide +kernel
theorem staged_is (c : List Byte) (n : c.length = 8193) (k : leNat ((c.drop 24).take 8) = 1) : stagedContainer (STAGEDOF c) = c := by
  unfold stagedContainer STAGEDOF; dsimp only
  rw [mread_part c 24 8 (by omega), k, show 8192 + min 1 16769025 = c.length by omega]; exact mread_mwrite_self c [] 0
theorem STAGED_magic : leNat (mread STAGED.host.staging 0 4) = conMagic :=
  (congrArg leNat (mread_part FW 0 4 (by rw [FW_length]; omega))).trans FW_magic
theorem meets_BootRows_staged (h : vendorOk ({ STAGED with dev := { STAGED.dev with stagedTaken := true, watchFrom := now STAGED } }) FW = true) :
    verifyContainer { STAGED with dev := { STAGED.dev with stagedTaken := true, watchFrom := now STAGED } } true (stagedContainer STAGED) = none := by
  have e : stagedContainer STAGED = FW := staged_is FW FW_length FW_size
  rw [e]; exact verify_firmware _ FW FW_form h FW_digest (by decide +kernel)
/-- A replay at its end, one at a record of no known opcode, one at a `dev.boot_status`. -/
def IMAGE (op : Nat) : List Byte := zeros 104 ++ leBytes 4 2 ++ zeros 148 ++ header op 0 0 0 ++ header op 0 0 0
def REPLAYING (op d : Nat) : Replay := { mb := 0, slot := 0, image := IMAGE op, off := 256, done := d }
theorem meets_BootRows_replay :
    let s (r : Replay) : State := { WORN with dev := { WORN.dev with replay := some r } }
    ((s (REPLAYING 0x0501 2)).dev.replay = some (REPLAYING 0x0501 2) ∧ (REPLAYING 0x0501 2).running = false ∧ WORN.dev.noCore = false ∧
      WORN.dev.mode ≠ .reset ∧ replayOver (REPLAYING 0x0501 2) = true ∧ (REPLAYING 0x0501 2).failed = none ∧
      slotOf (s (REPLAYING 0x0501 2)) 0 0 = .posted) ∧
    (replayOver (REPLAYING 0x0599 0) = false ∧ specOf (u16 ((IMAGE 0x0599).drop 256) 0) = none) ∧
    (let r := REPLAYING 0x0101 0
     let h := readHdr ((r.image.drop r.off).take 64)
     replayOver r = false ∧ h.opcode = 0x0101 ∧ h.len = 0 ∧ h.object = 0 ∧ h.flags = 0 ∧ h.resvZero = true ∧ h.dataAddr = 0 ∧ h.resAddr = 0 ∧
       h.resCap = 0 ∧ r.done + 1 < u32 r.image 104) := by decide +kernel
theorem meets_UnknownOpcodes :
    let s := posted 0x0599 0 0 [] running
    let u := { s with sch := { s.sch with shares := List.replicate 2048 { cls := 4, wcet := 1, type := 0x40 } } }
    (supTakes s r0.mb r0.slot = true ∧ specOf (hdrOf s r0.mb r0.slot).opcode = none ∧ s.dev.mode ≠ .fault ∧ s.dev.mode ≠ .kickstand) ∧
    (slotOf u r0.mb r0.slot = .posted ∧ bellOf u r0.mb r0.slot ≠ 0 ∧ poolFree u 4 = 0) ∧ poolFree s 4 ≠ 0 := by
  decide +kernel

/-! The cadence, planning and separation. -/

/-- A cadence has started at 0: before its feedback cutoff, and after it. -/
def CAD (n : Nat) : State := { running with cad := { running.cad with started := true, phase := n, configured := true } }
theorem meets_CadenceRows :
    (cadenceRuns running = true ∧ cadenceRuns State.reset = false ∧ running.dev.frozen = false ∧ (dev { frozen := true }).dev.frozen = true) ∧
    (cadenceRuns (CAD 0) = true ∧ (CAD 0).cad.started = true ∧ (CAD 0).cad.phase = 0 ∧ (CAD 0).dev.frozen = false) ∧
    (cadenceRuns (CAD 1) = true ∧ (CAD 1).cad.started = true ∧ (CAD 1).cad.phase = 1 ∧ (CAD 1).dev.frozen = false) ∧
    ((CAD 0).cad.start % planNs (CAD 0) = 0 ∧ (CAD 0).cad.planAt ≠ (CAD 0).cad.start + 1) ∧ roundDue (CAD 0) = some 0 ∧
    ((CAD 0).cad.start % ((CAD 0).cad.guardPer * (CAD 0).cad.ns) = 0 ∧ (CAD 0).cad.guardAt ≠ (CAD 0).cad.start + 1) ∧
    verdictDue { CAD 0 with ssm := { snapAt := 1 }, cad := { (CAD 0).cad with start := 1000000 } } = true ∧
    (zoneOf (setZone 63 { reqs := [{ group := 0, deadline := 0 }] } { CAD 0 with cad := { (CAD 0).cad with planStart := 1 } }) 63).reqs.any
      (fun r => decide (r.deadline < 1)) = true := by decide +kernel
/-- A lane that waits for group 15's fourth problem, the class assigned, in an open window. -/
def LANES : State := { running with
  cad := { running.cad with started := true }
  qp := { classes := [(63, CLASS)], snapAt := 1, windowAt := 200000, lanes := [(63, { wait := [{ g := 15, j := 3 }] })]
          grp := [(15, { assigned := true, posed := true, fallbacks := 255,
                         scen := [{ cls := 63 }, { cls := 63 }, { cls := 63 }, { cls := 63, inp := some { c := CLASS } }] })] }
  sch := { shares := [{ type := 0x10, cls := 1, unit := 63, object := 64 * 15 + 3 }] } }
def EMPTYLANE : State := { LANES with qp := { LANES.qp with lanes := [] } }
def SERVING : State := { LANES with qp := { LANES.qp with lanes := [(63, { serv := some ({ g := 15, j := 3 }, 0) })] } }
theorem meets_PlanningRows :
    (LANES.cad.started = true ∧ LANES.qp.snapAt = LANES.cad.planStart + 1 ∧ LANES.cad.planStart + planNs LANES / 8 < 2 ^ 64 ∧
      windowOpen { LANES with qp := { LANES.qp with windowAt := 0 } } = false ∧ running.qp.snapAt ≠ running.cad.planStart + 1) ∧
    (windowOpen SERVING = true ∧ (laneDone 63 (2 ^ 64) SERVING).isSome = true) ∧ (laneOf LANES 63).serv = none ∧
    (windowOpen EMPTYLANE = true ∧ laneFor EMPTYLANE 15 3 = some 63 ∧ (scenOf EMPTYLANE 15 3).inp = some { c := CLASS } ∧
      (laneOf EMPTYLANE 63).serv = none ∧ (laneOf EMPTYLANE 63).wait = []) ∧ windowOpen running = false ∧
    ((qpOf LANES 15).posed = true ∧ (qpOf LANES 15).chosen = false ∧ windowOpen LANES = true) ∧
    ((qpOf LANES 15).assigned = true ∧ (qpOf LANES 15).fallbacks ≠ 0 ∧
      cShift (classOf LANES (lget {} (qpOf LANES 15).scen 0).cls) ≤ (qpOf LANES 15).fallbacks) ∧
    (laneFor LANES 15 3 = some 63 ∧ (scenOf LANES 15 3).inp = some { c := CLASS } ∧ (laneOf LANES 63).wait = [{ g := 15, j := 3 }] ∧
      3 < (qpOf LANES 15).scen.length) := by decide +kernel
/-- Group 15 is monitored, all its counts at their limits; sensor 15 is stale. -/
def SEP : State := { CAD 1 with
  ssm := { grp := [(15, { cfg := 1 :: SSMG.drop 1, mismatch := 2, absent := 2, fast1 := 2, fast2 := 2, feed2 := true, ch2Stop := some 7 })]
           sens := [(15, { cfg := SENS })] }
  cad := { (CAD 1).cad with guardAt := 1 } }
/-- Segment 7 is operational. -/
def SEPBUS : State := setSeg 7 { configured := true, state := 3 } SEP
/-- A fine record of sensor 15 with no run. -/
def FINE : List Byte := let b := fields [(1, 1), (1, 15), (10, 0)]; b ++ leBytes 4 (crc32c b).toNat
/-- A black-channel entry of axis 127 with its CRC. -/
def ENTRY : List Byte :=
  let d := zeros 22
  [254, 3, 2, 1] ++ beBytes 2 22 ++ d ++ beBytes 2 1 ++ beBytes 4 (crc32c (beFields [(4, 9), (1, 254), (1, 3), (1, 2)] ++ d ++ beBytes 2 1)).toNat
def BLACK : State := setAxis 127 { map := { segment := 7, station := 254, chan := 3, safetyFb := true, safetyId := 9 } } running
theorem meets_SeparationRows :
    (xlinkCarries State.reset = false ∧ xlinkCarries running = true) ∧
    (u8 (sensOf SEP 15).cfg 0 = 1 ∧ (sensOf SEP 15).stale1 = true ∧ (sensOf SEP 15).recorded = false ∧ SEP.cad.guardAt ≠ 0) ∧
    monitored running 15 = false ∧
    (monitored SEP 15 = true ∧ SEP.cad.phase ≠ 0 ∧ max 1 (u8 SEP.ssm.cfg 2) ≤ (ssmOf SEP 15).mismatch ∧
      max 1 (u8 SEP.ssm.cfg 2) ≤ (ssmOf SEP 15).absent ∧ 2 ≤ (ssmOf SEP 15).fast1 ∧ 2 ≤ (ssmOf SEP 15).fast2 ∧ (ssmOf SEP 15).feed2 = true) ∧
    ((ssmOf running 15).ch2Stop = none ∧ (ssmOf SEP 15).ch2Stop = some 7) ∧
    ((∀ m < 16, m ≠ 15 → u8 (sensOf SEPBUS m).cfg 0 ≠ 1) ∧ u8 (sensOf SEPBUS 15).cfg 0 = 1 ∧ u8 (sensOf SEPBUS 15).cfg 1 = 7 ∧
      u8 (sensOf SEPBUS 15).cfg 2 = (254 : BitVec 8).toNat ∧ (segOf SEPBUS 7).state = 3 ∧ (segOf SEPBUS 7).silence.getLsbD (254 : BitVec 8).toNat = false ∧
      recordBad 15 [] = true ∧ recordBad 15 FINE = false) ∧
    (∃ e l, readEntries 1 ENTRY = e :: l ∧ (axisOf BLACK 127).map.segment ≠ 0xFF ∧ (axisOf BLACK 127).map.safetyFb = true ∧ e.kind = 2 ∧
      e.station = (axisOf BLACK 127).map.station ∧ e.chan = (axisOf BLACK 127).map.chan ∧ e.data.length = 22 ∧
      safetyValid (axisOf BLACK 127).map (axisOf BLACK 127).map.sCnt2 e = true ∧ BLACK.cad.phase = 0) :=
  ⟨by decide +kernel, by decide +kernel, by decide +kernel, by decide +kernel, by decide +kernel, by decide +kernel,
    (readEntries 1 ENTRY).headD {}, [], by decide +kernel⟩

/-! The buses. -/

/-- A frame of the given EtherType from a station. -/
def frame (et : Nat) (p : List Byte) : List Byte := etherFrame (zeros 6) (zeros 6) et p
/-- A station frame of cadence 0 with `n` entries `b`. -/
def station (n : Nat) (b : List Byte) : List Byte := frame 0x88B5 (virzaHdr 2 7 254 0 0 n 0 1 0 0 ++ b)
/-- An entry of channel 3 with 22 bytes of feedback. -/
def FEEDBACK : List Byte := [254, 3, 2, 0] ++ beBytes 2 22 ++ zeros 22
/-- Segment 7 in the given state, with a column for station 254. -/
def bus7 (g : Segment) : State := setAxis 127 { map := { segment := 7, station := 254, chan := 3 } } (setSeg 7 { g with
  configured := true, portA := 15, stations := [(254, some { position := 254, vioRun := 3 })]
  bank0 := [{ kind := 2, owner := 254, length := 30000, rows := 2 ^ 64 - 1 }] } running)
/-- A command of bus.acyclic waits for station 254. -/
def ASKED : State := { bus7 { state := 3, granted := [(31, 254)], acyclic := [{ station := 254, sent := true }] } with
  host := WORN.host }
theorem meets_BusRows :
    let op := bus7 { state := 3 }
    ((segOf op 7).configured = true ∧ (segOf op 7).portA = 15 ∧ fcsOk [] = false ∧ portSeg op 15 = some 7) ∧
    (tget none (segOf op 7).stations 254 = some { position := 254, vioRun := 3 } ∧ (segOf op 7).silence.getLsbD 254 = false) ∧
    (let s := setAxis 127 { state := .held, map := { segment := 7, missed := 3 } } op
     (axisOf s 127).map.nMiss < (axisOf s 127).map.missed ∧ (axisOf s 127).state ≠ .disabled ∧ (axisOf s 127).state ≠ .fault ∧
     (axisOf s 127).map.segment ≠ 0xFF) ∧
    ((segOf op 7).state = 3 ∧ (segOf op 7).lastCollision = none ∧ (segOf (bus7 { state := 2 }) 7).state = 2) ∧
    ((segOf (bus7 { state := 1 }) 7).state = 1 ∧ (segOf (bus7 { state := 1 }) 7).heard = false ∧ (segOf (bus7 { state := 1, heard := true }) 7).heard = true) ∧
    ((segOf (bus7 { state := 3, portB := 14 }) 7).ring = true ∧ canSplit (segOf (bus7 { state := 3, portB := 14 }) 7) = true ∧
      (segOf (bus7 { state := 3, portB := 14, splitDue := true }) 7).splitDue = true ∧ (segOf op 7).ring = false) ∧
    (let s := bus7 { state := 2, start := some { phase := 1 } }
     (segOf s 7).start = some { phase := 1 } ∧ (segOf s 7).addrMode = 0 ∧ (segOf s 7).expect = 0) ∧
    ((segOf (bus7 { state := 2, start := some { phase := 3 }, count := 1 }) 7).start = some { phase := 3 } ∧
      [((0 : BitVec 32), (0 : BitVec 32))].length = (segOf (bus7 { state := 2, start := some { phase := 3 }, count := 1 }) 7).count) ∧
    ((segOf ASKED 7).granted.any (fun e => e.2 = 254) = true ∧
      (segOf ASKED 7).acyclic.find? (fun a => (a.station = 254 || a.station = 255) && a.sent) = some { station := 254, sent := true } ∧
      slotOf ASKED 0 0 = .posted ∧ (segOf ASKED 7).acyclic.any (fun a => a.mb = 0 && a.slot = 0) = true) ∧
    (∀ f ∈ [station 0 [], station 1 FEEDBACK], fcsOk f = true ∧ etherType f = (segOf op 7).etherType ∧ u8 (payload f) 3 = 254 ∧ u8 (payload f) 1 = 2 ∧
      inWindow op (segOf op 7) (u8 (payload f) 3) 0 (payload f).length = true) ∧ be (payload (station 0 [])) 6 2 = 0 ∧
    (let p := payload (station 1 FEEDBACK)
     be p 6 2 = 1 ∧ be p 8 4 = op.cad.count.toNat ∧ op.cad.phase = 0 ∧ (axisOf op 127).map.safetyFb = false ∧ groupOf op 127 = none ∧
     ((readEntries 1 (p.drop 32)).map (fun e => (e.kind, e.safety, e.data.length, e.chan))) = [(2, false, 22, 3)] ∧
     (segAxes op 7).find? (fun b => (axisOf op b).map.station = 254 && (axisOf op b).map.chan = 3) = some 127) := by decide +kernel
theorem meets_BusRows_other : Config.uid + 1 ≠ Config.uid := by
  intro h; have := congrArg BitVec.toNat h; rw [BitVec.toNat_add] at this; have := Config.uid.isLt; 
  have : (1 : BitVec 64).toNat = 1 := rfl
  omega

/-- A peloton frame with the given fields of its body (table "Peloton frame"). -/
def pelFrame (kind flags refGen members timing count : Nat) : List Byte :=
  frame 0x88B5 (zeros 32 ++ beFields [(1, kind), (1, 0), (1, 1), (1, flags), (2, refGen), (2, 0), (8, 0), (8, 0), (2, 0), (1, 0), (1, timing),
    (4, members), (22, 0), (1, 64), (1, count), (8, 0)])
/-- A device in a state of the peloton. -/
def pel (p : PelSt) : State := { running with pel := p }
theorem meets_PelotonRows :
    (fcsOk [] = false) ∧ (∀ k ∈ [1, 2, 3, 4, 5], fcsOk (pelFrame k 0 0 0 4 0) = true ∧ u8 ((payload (pelFrame k 0 0 0 4 0)).drop 32) 0 = k) ∧
    ((pel {}).pel.state = 0 ∧ (pel { state := 3 }).pel.state = 3 ∧ (pel { state := 2 }).pel.state ≠ 0 ∧ (pel { state := 2 }).pel.state ≠ 3) ∧
    (bitOf (u8 ((payload (pelFrame 4 8 0 0 4 0)).drop 32) 3) 3 ≠ (pel { state := 1 }).pel.strap ∧ (pel { state := 1 }).pel.isRef = false ∧
      (pel { state := 1 }).pel.started = none) ∧
    (timingDiffers running ((payload (pelFrame 5 0 0 1 (cadCode running) 0)).drop 32) = false ∧ running.pel.expect = 0) ∧
    ((pel { state := 1, isRef := true }).pel.isRef = true) ∧
    (isRef (pel { state := 1, goodRun := 64, tookTime := true }) = false ∧ sendsSync (pel { state := 1, goodRun := 64, tookTime := true }) = true) ∧
    (isRef (pel { state := 2, sync := true, badRun := 2 }) = false ∧ (pel { state := 2, sync := true, badRun := 2 }).pel.sync = true) ∧
    (4 ≤ silent (pel { state := 2, sync := true, refAge := 36 }) ∧
      4 * rankOf (pel { state := 2, refAge := 500 }) ≤ silent (pel { state := 2, refAge := 500 })) ∧
    (running.pel.ann.kind = 0 ∧ (pel { state := 2, ann := { kind := 2 } }).pel.ann.kind = 2 ∧ running.cad.started = false) ∧
    (let s := pel { state := 2, sync' := { refGen := 7, hops := 1 }, timingDown := false }
     let b := (payload (pelFrame 1 0 7 1 4 0)).drop 32
     u8 b 1 = s.pel.sync'.refAddr ∧ (syncInfo b).refGen = s.pel.sync'.refGen ∧ decide (LinePort.up = .down) = s.pel.timingDown ∧ s.pel.isRef = false) ∧
    (let s := pel { state := 1 }
     let b := (payload (pelFrame 4 0 0 (2 ^ 31 - 1) (cadCode s) 30)).drop 32
     bitOf (u8 b 3) 3 = s.pel.strap ∧ timingDiffers s b = false ∧ u8 b 55 < 31 ∧ be b 28 4 < 2 ^ (u8 b 55 + 1) ∧ s.pel.isRef = false) := by
  decide +kernel

/-- Actions for immediate triggers: unit 255 drops its trigger, unit 0 fires, unit 1 is die F's. -/
def ARMED : State := { running with time := { running.time with long := 1000, units :=
  [(0, some { kind := .traceTrigger 7 }), (1, some { kind := .traceTrigger 7, dieF := true, report := 1 }),
   (255, some { kind := .traceTrigger 7, noLate := true, tr := 8 })] } }
theorem meets_PtpAndTimedRows :
    let p (x : PtpPort) : State := { running with ptp := [(3, x)] }
    (ptpOf running 3).role = 0 ∧ ((ptpOf (p { role := 2, state := 1 }) 3).role = 2 ∧ (ptpOf (p { role := 2, state := 1 }) 3).state = 1) ∧
    ((ptpOf (p { role := 1 }) 3).role = 1 ∧ (ptpOf (p { role := 1 }) 3).p2p = false ∧ (ptpOf (p { role := 1 }) 3).role ≠ 0) ∧ running.pel.follow = false ∧
    (let s : State := { p { state := 4 } with pel := { follow := true, followPort := 3, ann := { kind := 1 } } }
     s.pel.follow = true ∧ (ptpOf s s.pel.followPort).state = 4 ∧ s.pel.ann.kind ≠ 0) ∧
    (running.dev.frozen = false ∧ unitOf running 255 = none) ∧
    (let a : Armed := { kind := .traceTrigger 7, noLate := true, tr := 8 }
     unitOf ARMED 255 = some a ∧ ceilTo 4 a.tr < fireTick ARMED a ∧ firesNow ARMED a = true) ∧ unitOf ARMED 0 = some { kind := .traceTrigger 7 } ∧
    (firesNow ARMED { kind := .traceTrigger 7 } = true ∧ ARMED.cad.phase ≠ 3 ∧ (sesOf ARMED 7).state ≠ .armed) ∧
    firesNow ARMED { kind := .traceTrigger 7, dieF := true, report := 1 } = false ∧
    (unitOf ARMED 1 = some { kind := .traceTrigger 7, dieF := true, report := 1 } ∧ xlinkCarries ARMED = true) := by decide +kernel

/-- The scheduler with a task in each place: ready in class 0 and on its unit 31 an FFT slice, on lane 63, stalled in class 4. -/
def FFT : Task := { d := { type := 3, flags := 2 } }
def SCHED : State := { running with sch := { running.sch with
  cls := [(0, { ready := [FFT] }), (4, { stalled := true, stalledTasks := [{ d := { cls := 4, flags := 3 } }] })]
  units := [(31, some FFT), (127, some { d := { cls := 1, flags := 2 } })] } }
/-- Class 4's pool is full. -/
def POOL : State := { running with sch := { running.sch with shares := List.replicate 2048 { cls := 4, wcet := 1, type := 0x40 } } }
theorem meets_SchedulerRows :
    (let d : Descriptor := { type := 0x47, cls := 4, level := 15, flags := 18 }
     (clsOf running d.cls.val).held.find? (fun t => t.d = d) = none ∧ descOk running {} = false ∧ descOk running d = true ∧
     poolFree running d.cls.val ≠ 0 ∧ noFlow d = true ∧ d.type ≠ 0x0003 ∧ longOf running d.release.toNat ≤ now running ∧
     (descOk running { d with release := 5 } = true ∧ now running < longOf running 5) ∧
     (descOk POOL { d with flags := 19 } = true ∧ periodic { d with flags := 19 } = true ∧ descOk POOL d = true ∧ periodic d = false ∧
       poolFree POOL 4 = 0) ∧
     (clsOf (setCls 4 { held := [{ d := d }] } running) d.cls.val).held.find? (fun t => t.d = d) = some { d := d }) ∧
    (firstBy (before SCHED 0) ((clsOf SCHED 0).ready.filter (fun y => (freeUnitFor SCHED y).isSome)) = some FFT ∧ freeUnitFor SCHED FFT = some 0) ∧
    (onUnit running 4 3 = none ∧ onUnit SCHED 1 63 = some { d := { cls := 1, flags := 2 } } ∧ onUnit SCHED 0 31 = some FFT ∧ FFT.d.type = 0x0003) ∧
    (dev { frozen := true }).dev.frozen = true ∧
    (let s : State := { running with cad := { running.cad with started := true } }
     overdueTask s 4 248 = none ∧ periodicTask s 4 248 = some (0x0041, noObj) ∧ outstanding s 0x0041 noObj = true ∧ s.dev.frozen = false) ∧
    ((clsOf running 4).stalledTasks = [] ∧ (clsOf SCHED 4).stalledTasks = [{ d := { cls := 4, flags := 3 } }] ∧
      periodic { cls := 4, flags := 3 } = true ∧ longOf SCHED 0 ≤ now SCHED) := by decide +kernel

/-! The field channels, motion and the journal. -/

/-- Channel 31 as given. -/
def chan (h : Chan) : State := setChan 31 h running
/-- Field group 3 as given. -/
def fgrp (f : FieldGroup) : State := setFg 3 f running
theorem meets_FieldRows :
    (let s : State := { running with io := { image := some (5, 1) } }
     s.io.image = some (5, 1) ∧ xlinkCarries s = true ∧ s.io.lastCount ≠ some 5) ∧ xlinkCarries State.reset = false ∧
    (running.io.safe ≠ 1 ∧ ∀ x < 4, (fgOf running x).latched = false ∧ (fgOf running x).badSeen = false) ∧
    ((chanOf running 31).raw = false ∧ (chanOf (chan { filterUs := 1 }) 31).filterUs ≠ 0 ∧ hasCode (chanOf running 31) 7 = false ∧ (chanOf running 31).filterUs = 0) ∧
    ((chanOf (chan { raw := true }) 31).raw ≠ (chanOf (chan { raw := true }) 31).filtered) ∧
    ((chanOf (chan { role := 1, owEn := true }) 31).role = 1 ∧ (chanOf (chan { role := 1, owEn := true }) 31).owEn = true ∧
      (chanOf (chan { role := 1, owEn := true }) 31).raw = false) ∧
    ((chanOf (chan { role := 2, hot := true }) 31).role = 2 ∧ (chanOf (chan { role := 2, hot := true }) 31).hot = true ∧
      (chanOf (chan { role := 2, hot := true }) 31).tripped = false ∧ (150 : BitVec 8).toNat ≤ 150) ∧
    ((chanOf (chan { role := 2, pin := true }) 31).pin = true ∧ (chanOf (chan { role := 2, pin := true }) 31).tripped = false) ∧
    (∀ c < 32, (chanOf running c).pin = false) ∧
    ((chanOf (chan { role := 2, owEn := true }) 31).pin = false ∧ (chanOf (chan { role := 2, owEn := true }) 31).owEn = true ∧
      hasCode (chanOf (chan { role := 2, owEn := true }) 31) 4 = false) ∧ (7 : BitVec 8).toNat < 8 ∧
    ((chanOf (chan { tripped := true }) 31).tripped = true ∧ (chanOf (chan { tripped := true }) 31).latched = false ∧
      (chanOf (chan { tripped := true }) 31).tj ≤ 150) ∧
    ((fgOf (fgrp { latched := true }) 3).latched = true ∧ (fgOf (fgrp { latched := true, autoRe := true, goodSince := some 7 }) 3).autoRe = true ∧
      (fgOf (fgrp { latched := true, autoRe := true, goodSince := some 7 }) 3).goodSince ≠ none ∧
      (fgOf running 3).latched = false ∧ (fgOf running 3).risen = false) ∧
    ((19199 : BitVec 16).toNat < 19200 ∧ (16999 : BitVec 16).toNat < 17000 ∧ 33000 < (33001 : BitVec 16).toNat ∧
      19200 ≤ (30000 : BitVec 16).toNat ∧ (30000 : BitVec 16).toNat ≤ 30000) ∧
    (({ running with io := { armed := true } } : State).io.armed = true ∧ ({ running with io := { armed := true } } : State).io.safe = 0) := by
  decide +kernel
/-- Axis 127 as given, the only joint of group 15 in the given state. -/
def joint (g : GrpState) (x : AxisSt) : State := setAxis 127 x (setGrp 15 { configured := true, model := model, state := g } running)
theorem meets_MotionRows :
    (let s := setAxis 127 { enable := some 5 } running
     (axisOf s 127).state = .disabled ∧ (axisOf s 127).enable = some 5) ∧
    (let s := setAxis 127 { state := .stopping, disable := some 5 } running
     (axisOf s 127).state = .stopping ∧ (axisOf s 127).disable = some 5) ∧
    ((grpOf (joint .enabling {}) 15).state = .enabling ∧ members (joint .enabling {}) 15 = [127] ∧ (axisOf (joint .enabling {}) 127).state ≠ .closed) ∧
    ((grpOf (joint .moving { inWin := true }) 15).state = .moving ∧ (grpOf (joint .moving { inWin := true }) 15).mpc = false ∧ arrived (grpOf (joint .moving { inWin := true }) 15) = true ∧
      (members (joint .moving { inWin := true }) 15).all (fun a => (axisOf (joint .moving { inWin := true }) a).inWin &&
        decide (nsOfSec (axisOf (joint .moving { inWin := true }) a).cfg.settleTime ≤ (axisOf (joint .moving { inWin := true }) a).settledNs)) = true) ∧
    (let s := setAxis 127 { cfg := { homeCh := 31, tQ := 1 } } (chan { seen := true })
     readersOf s 31 = ([(127, 1)], []) ∧ groupOf s 127 = none ∧ (chanOf s 31).seenEdge + 1000000 * 1 < 2 ^ 64 ∧ readersOf running 31 = ([], [])) ∧
    (let s := setStp 15 { home := .search, tQ := 1, homeCh := 31 } running
     (∀ a ∈ tkeys s.axes, homing (axisOf s a) = false) ∧ (stpOf s 15).home ≠ .none ∧ (stpOf s 15).tQ ≠ 0 ∧ 31 = (stpOf s 15).homeCh) ∧
    (let s := joint .homing { home := .search, cfg := { homeMode := 3 } }
     groupOf s 127 = some 15 ∧ (grpOf s 15).state = .homing ∧ (grpOf s 15).homeFailed = none ∧ searching (axisOf s 127) = true ∧
     (axisOf s 127).cfg.searchDist * 2 ^ 48 ≤ fabs ((axisOf s 127).cmdP - (axisOf s 127).homeStart) ∧ (axisOf s 127).cfg.homeMode = 3 ∧
     (axisOf s 127).home = .search ∧ (axisOf s 127).cfg.torqueThr ≤ fabs (torqueAct (axisOf s 127))) ∧
    (let i : Inject := { p := INJ, running := true, n := 1 }
     injOf (setInj 127 (some i) running) 127 = some i ∧ u32 i.p 8 ≤ i.n ∧ i.stop = none) ∧
    (({ running with trc := { frf := some { mb := 1 } } } : State).trc.frf = some { mb := 1 }) ∧
    (let s := setSes 7 { state := .triggered, length := 16, pre := 15, after := 1 } running
     (sesOf s 7).state = .triggered ∧ (sesOf s 7).length - (sesOf s 7).pre ≤ (sesOf s 7).after) ∧ (xlinkCarries running = true ∧ running.io.safe = 0) ∧
    (let s := setStp 15 { state := .ready, zeroSince := some 3, holdDelay := 1 } running
     (stpOf s 15).zeroSince = some 3 ∧ (stpOf s 15).state = .ready ∧ (stpOf s 15).holdDelay ≠ 0 ∧ (stpOf s 15).hold = false ∧
     (stpOf s 15).late = [] ∧ (stpOf s 15).queue = []) := by decide +kernel
theorem meets_JournalRows :
    let j (x : JrnSt) : State := { running with jrn := x }
    ((j { queueM := [{}] }).jrn.queueM = {} :: [] ∧ xlinkCarries (j { queueM := [{}] }) = true ∧
      (j { queueM := [{}] }).jrn.holdup = false ∧ (j { queueM := [{}] }).jrn.queueF.length < 64 ∧ (j { queueM := [{}] }).jrn.toReport = 0) ∧
    xlinkCarries State.reset = false ∧ ((j { queueF := [{ sev := 2 }] }).jrn.queueF = { sev := 2 } :: [] ∧ 2 ≤ ({ sev := 2 } : JRec).sev) ∧
    running.jrn.queueF = [] ∧ ((j { holdup := true, holdupOpen := true }).jrn.holdup = true ∧ (j { holdup := true, holdupOpen := true }).jrn.holdupOpen = true) ∧
    ((j { holdup := true }).jrn.holdup = true ∧ (j { holdup := true }).jrn.holdupOpen = false ∧ (j { holdup := true }).jrn.holdupEnding = false ∧
      (j { holdup := true }).jrn.queueF = []) ∧
    (running.jrn.cReq.toNat ≤ (28 : BitVec 16).toNat ∧ (27 : BitVec 16).toNat < running.jrn.cReq.toNat) ∧
    (j { erasing := some (0, 3) }).jrn.erasing = some (0, 3) := by decide +kernel

/-! Ill-formed commands: one for each check. -/

theorem test_ill_formed :
    [Instr.commandBufferWrite 0 0 0 [], .commandBufferWrite 0 0 0xFFF (zeros 2), .registerWrite .bar0 0 [], .registerWrite .bar0 0 (zeros 513),
     .xlinkFlit .m (zeros 31), .blackChannelCopy 0 (zeros 33), .sensorRecord 0 0 (zeros 513), .stationFrame 0 0 0 [],
     .stationFrame 0 0 0 (zeros 1523), .pelotonSync .up 0 [], .pelotonDelayReq .up 0 (zeros 1523), .pelotonDelayResp .up 0 0 [],
     .pelotonEnum .up [], .pelotonConfig .up (zeros 1523), .groupOverload 0 []].all (fun i => i.wellFormed = false) = true := by decide +kernel
theorem test_well_formed :
    [Instr.commandBufferWrite 7 31 0xFFF (zeros 1), .registerWrite .bar2 0 (zeros 512), .xlinkFlit .f (zeros 32), .blackChannelCopy 127 ENTRY,
     .sensorRecord 7 254 FINE, .stationFrame 7 15 0 (station 1 FEEDBACK), .pelotonSync .down 0 (pelFrame 1 0 0 0 4 0),
     .groupOverload 3 (List.replicate 8 0)].all (fun i => i.wellFormed = true) = true := by decide +kernel

/-! Results that the rules or their worked examples give. -/

/-- The check values of CRC-32 and CRC-32C for the digits 1 to 9, as their catalogues list them. -/
theorem test_crc32 : crc32 [0x31, 0x32, 0x33, 0x34, 0x35, 0x36, 0x37, 0x38, 0x39] = 0xCBF43926 ∧
    crc32c [0x31, 0x32, 0x33, 0x34, 0x35, 0x36, 0x37, 0x38, 0x39] = 0xE3069283 := by decide +kernel
/-- The example under R260. -/
theorem test_short_time : longOf { running with time := { running.time with long := 0x1FFFFFF00 } } 0x00000100 = 0x200000100 := by decide +kernel
/-- Mailbox 2 of the worked example "An overrun and its recovery": slot 4 DONE, slot 17 FREE. -/
def EXAMPLE : State := { running with host := { running.host with mb := [(2, { slots := [(4, .done)] })] } }
/-- Its steps 1, 2, 5 and 6. -/
theorem test_overrun :
    slotOf (doorbell 2 17 EXAMPLE) 2 17 = .posted ∧
    (let t := doorbell 2 4 EXAMPLE
     slotOf t 2 4 = .done ∧ (mbOf t 2).overrun = true ∧ (mbOf t 2).lastOverrun = 4 ∧ (mbOf t 2).overrunCount = 1) ∧
    (let t := mbDoneWrite 2 0x00020010 EXAMPLE
     slotOf t 2 4 = .free) := by decide +kernel
/-- Event 2 is mapped to vector 0 (the example's reset values, R60). -/
theorem test_event_map : vectorOf State.reset 2 = 0 ∧ vectorOf State.reset 127 = 31 := by decide +kernel
/-- One tick is 4 ns (R256). -/
theorem test_tick : now (timeTick running) = 4 := by decide +kernel
end Sys2Proof.Tests
end

namespace Sys2Proof.Machine

/-! A lost crosslink stays lost until a reset (R20). -/

theorem Rest.dev_eq {msk : MaskR} {s t : State} (h : Rest msk s t) (hm : msk.dev = false) : t.dev = s.dev :=
  h.dev.resolve_left (by rw [hm]; exact Bool.false_ne_true)

theorem Rest.xl_eq {msk : MaskR} {s t : State} (h : Rest msk s t) (hm : msk.xl = false) : t.xl = s.xl :=
  h.xl.resolve_left (by rw [hm]; exact Bool.false_ne_true)

theorem linkReset_xl (s : State) : (linkReset s).xl = s.xl := by
  unfold linkReset
  split
  · rfl
  · refine (journal_xl _ _ _ _ _ _ _).trans ?_
    exact (forNat_rest (msk := { jrn := true }) _ _ _ (fun k t ht => detachStrm_rest k t ht rfl) (.refl _ _)).xl_eq rfl

/-- A host access, the release of a reset pin and LINK_RESET leave the crosslink as it was. -/
theorem exec_xl_of_not_plain {i : Instr} {s t : State} (h : exec i s = .next t) (hp : plain i = false)
    (h1 : i ≠ .porstNAssert) (h2 : ∀ b a, i ≠ .deviceReset b a) (h3 : ∀ r, i ≠ .railResetExcursion r) : t.xl = s.xl := by
  cases i with
  | mbDoneClear m w => exact (execMbDoneClear_rest _ _ _ _ h).xl_eq rfl
  | mbStatClear m w => exact (execMbStatClear_rest _ _ _ _ h).xl_eq rfl
  | commandBufferWrite m k off b => exact (execCommandBufferWrite_rest _ _ _ _ _ _ h).xl_eq rfl
  | evtPendClear n w again => exact (execEvtPendClear_rest _ _ _ _ _ h).xl_eq rfl
  | evtLostClear n w => exact (execEvtLostClear_rest _ _ _ _ h).xl_eq rfl
  | evtMaskWrite n w => exact (execEvtMaskWrite_rest _ _ _ _ h).xl_eq rfl
  | evtMapWrite n w => exact (execEvtMapWrite_rest _ _ _ _ h).xl_eq rfl
  | timeLatch w => exact (execTimeLatch_rest _ _ _ h).xl_eq rfl
  | hubCtlWrite w => exact (execHubCtlWrite_rest _ _ _ h).xl_eq rfl
  | hubPeriodWrite w => exact (execHubPeriodWrite_rest _ _ _ h).xl_eq rfl
  | hubRdWrite w => exact (execHubRdWrite_rest _ _ _ h).xl_eq rfl
  | hubMirrorWrite hi w => exact (execHubMirrorWrite_rest _ _ _ _ h).xl_eq rfl
  | usrGrantWrite w => exact (execUsrGrantWrite_rest _ _ _ h).xl_eq rfl
  | usrCtlWrite w => exact (execUsrCtlWrite_rest _ _ _ h).xl_eq rfl
  | usrWinWrite w => exact (execUsrWinWrite_rest _ _ _ h).xl_eq rfl
  | streamProdWrite k w recs => exact (execStreamProdWrite_rest _ _ _ _ _ h).xl_eq rfl
  | registerWrite bar off b => exact (execRegisterWrite_rest _ _ _ _ _ h).xl_eq rfl
  | porstNRelease bs sa => exact (execPorstNRelease_rest _ _ _ _ h).xl_eq rfl
  | pfailNRelease => exact (execPfailNRelease_rest _ _ h).xl_eq rfl
  | mbDoorbell m w => exact (execMbDoorbell_rest _ _ _ _ h).xl_eq rfl
  | linkReset =>
    obtain rfl : linkReset s = t := Host.Outcome.next.inj h
    exact linkReset_xl s
  | porstNAssert => exact absurd rfl h1
  | deviceReset bs sa => exact absurd rfl (h2 bs sa)
  | railResetExcursion r => exact absurd rfl (h3 r)
  | _ => cases hp

/-- Settles O11: the commands that are no host access and no reset keep a loss (`exec_kept`); the others leave the crosslink
alone. A rail excursion is among the resets, since it holds a die in reset (R421, log entry 45 of the model). -/
theorem crosslinkStaysLost : Obligations.CrosslinkStaysLost := by
  intro i s t h hl h1 h2 h3
  by_cases hp : plain i = true
  · exact (exec_kept i s t h hp).lost hl
  · rw [exec_xl_of_not_plain h (Bool.not_eq_true _ ▸ hp) h1 h2 h3]
    exact hl

end Sys2Proof.Machine

namespace Sys2Proof.Machine

/-! The cadence's own fields at a cadence start (R21). -/

/-- What the start of a cadence sets in the cadence's own fields. -/
theorem beginCadence_cad (s : State) : (beginCadence s).cad = { s.cad with
    started := true, start := nextCadence s, len := s.cad.ns, phase := 0
    count := if s.cad.started then s.cad.count + 1 else s.cad.count, misses := s.cad.misses + 1 } := by
  unfold beginCadence
  rw [advanceTo_cad]

/-- The state in which the events of a cadence start begin: the cadence counts, and the replays of the crosslink are counted anew. -/
def cadenceBegun (s : State) : State :=
  let t := beginCadence s
  { t with xl := { t.xl with toF := { t.xl.toF with replaysCad := 0 }, toM := { t.xl.toM with replaysCad := 0 } } }

theorem cadenceBegun_cad (s : State) : (cadenceBegun s).cad = (beginCadence s).cad := rfl

theorem cadenceStart_idle {s : State} (h : cadenceRuns s = false) : cadenceStart s = s := by
  unfold cadenceStart
  rw [h]
  rfl

theorem cadenceStart_frozen {s : State} (h : cadenceRuns s = true) (hf : s.dev.frozen = true) :
    cadenceStart s = frozenFrames (cadenceBegun s) := by
  unfold cadenceStart
  rw [h, hf]
  rfl

theorem cadenceStart_running {s : State} (h : cadenceRuns s = true) (hf : s.dev.frozen = false) :
    cadenceStart s = outputsCadence (injCadence (eventsCadence (timeCadence (cadenceBegun s)))) := by
  simp only [cadenceStart, h, hf, Bool.not_true, Bool.false_eq_true, if_false]
  rfl

/-- Nothing after its start changes the fields of the cadence. -/
theorem cadenceStart_cad {s : State} (h : cadenceRuns s = true) : (cadenceStart s).cad = (beginCadence s).cad := by
  rw [← cadenceBegun_cad]
  cases hf : s.dev.frozen with
  | true => rw [cadenceStart_frozen h hf, frozenFrames_cad]
  | false =>
    rw [cadenceStart_running h hf]
    exact outputsCadence_sameCad _ (injCadence_sameCad _ (eventsCadence_sameCad _ (timeCadence_sameCad _ rfl)))

/-! The effects that wait at a cadence start (R32, R75). -/

/-- Every island is free but the effects that wait. -/
def allButEff : MaskR where
  time := true
  dev := true
  jrn := true
  xl := true
  tilesOut := true
  lanesOut := true

theorem Rest.eff_eq {s t : State} (h : Rest allButEff s t) : t.eff = s.eff := h.eff.resolve_left Bool.false_ne_true

/-- From `s` to `t` no effect begins to wait, and none of the listed opcodes that still waits in `t` is due by the instant `b`. -/
def TakesDue (l : List Nat) (b : Nat) (s t : State) : Prop := ∀ e ∈ t.eff, e ∈ s.eff ∧ (e.opcode ∈ l → b < e.due)

theorem TakesDue.of_eff_eq {b : Nat} {s t : State} (h : t.eff = s.eff) : TakesDue [] b s t :=
  fun _ he => ⟨h ▸ he, fun hn => absurd hn List.not_mem_nil⟩

theorem TakesDue.trans {l m : List Nat} {b : Nat} {s t u : State} (h : TakesDue l b s t) (g : TakesDue m b t u) :
    TakesDue (l ++ m) b s u := by
  intro e he
  obtain ⟨het, hm⟩ := g e he
  obtain ⟨hes, hl⟩ := h e het
  exact ⟨hes, fun hop => (List.mem_append.mp hop).elim hl hm⟩

theorem TakesDue.mono {l m : List Nat} {b : Nat} {s t : State} (h : TakesDue l b s t) (hm : m ⊆ l) : TakesDue m b s t :=
  fun e he => (h e he).imp_right (fun hl hop => hl (hm hop))

/-- A step that leaves the waiting effects alone may follow. -/
theorem TakesDue.rest {l : List Nat} {b : Nat} {s t u : State} (h : TakesDue l b s t) (g : Rest allButEff t u) : TakesDue l b s u :=
  (h.trans (.of_eff_eq g.eff_eq)).mono (by simp)

/-- Carrying out effects takes them out of the list, where no effect that is carried out posts another. -/
theorem runEffs_eff (t : Nat) (p : Eff → Bool) (f : Eff → State → State) (s : State) (hf : ∀ e u, Rest allButEff u (f e u)) :
    (runEffs t p f s).eff = s.eff.filter (fun e => !(p e && e.due ≤ t)) := by
  unfold runEffs
  exact (foldl_rest _ _ (fun u e h => ⟨.inl rfl, .inl rfl, .inl rfl, .inl rfl, .inr ((hf e u).eff_eq.trans h.eff_eq), .inl rfl, .inl rfl⟩) _
    (.refl allButEff _)).eff_eq

theorem runEffs_takesDue {l : List Nat} (t : Nat) (p : Eff → Bool) (f : Eff → State → State) (s : State)
    (hf : ∀ e u, Rest allButEff u (f e u)) (hl : ∀ e, e.opcode ∈ l → p e = true) : TakesDue l t s (runEffs t p f s) := by
  intro e he
  rw [runEffs_eff t p f s hf, List.mem_filter] at he
  refine ⟨he.1, fun hop => ?_⟩
  have hp := hl e hop
  simpa [hp] using he.2

theorem opIn_of_mem {l : List Nat} (e : Eff) (h : e.opcode ∈ l) : opIn l e = true := by
  unfold opIn
  simpa using h

/-- Of the commands of the bus only one that rejoins a ring may wait again; those of a cadence start do not. -/
theorem busEff_keeps_eff {s0 : State} (e : Eff) (s : State) (h : e.opcode = 0x0304 ∨ e.opcode = 0x0309) (hs : Rest allButEff s0 s) :
    Rest allButEff s0 (busEff e s) := by
  unfold busEff
  rcases h with h | h <;> rw [h]
  · exact startEnd_rest _ _ _ _ _ _ (segTo_rest _ _ _ (setSeg_rest _ _ _ hs)) rfl
  · exact setSeg_rest _ _ _ hs

theorem stateEff_keeps_eff {s0 : State} (e : Eff) (s : State) (hs : Rest allButEff s0 s) : Rest allButEff s0 (stateEff e s) := by
  unfold stateEff
  split
  · exact grpConfigureEff_rest _ _ hs
  · exact grpEnableEff_rest _ _ hs
  · exact grpDisableEff_rest _ _ hs
  · exact grpClearEff_rest _ _ hs
  · exact qpAssignEff_rest _ _ hs
  · exact flowLimitEff_rest _ _ hs
  · exact sigWriteEff_rest _ _ hs
  · exact sigWatchEff_rest _ _ hs
  · exact traceArmEff_rest _ _ hs
  · exact traceStopEff_rest _ _ hs rfl
  · exact injectStopEff_rest _ _ hs rfl
  · next h => exact busEff_keeps_eff _ _ (.inl h) hs
  · next h => exact busEff_keeps_eff _ _ (.inr h) hs
  · exact ioReenableEff_rest _ _ hs
  · exact ioReleaseEff_rest _ hs rfl
  · exact ioStoResetEff_rest _ _ hs
  · exact axisEff_rest _ _ hs

theorem timeCadence_takes (s : State) : TakesDue [] s.cad.start s (timeCadence s) := by
  have hstop : ∀ (_ : Eff) u, Rest allButEff u (pelStopEff u) := fun _ u => pelStopEff_rest u (.refl _ u) rfl
  have hset : ∀ e u, Rest allButEff u (setPlantEff e u) := fun e u => setPlantEff_rest e u (.refl _ u) rfl rfl
  have h1 : TakesDue [] s.cad.start s _ := runEffs_takesDue s.cad.start (opIn [0x0403]) _ s hstop (fun _ h => absurd h List.not_mem_nil)
  have h2 := h1.rest (pelCadence_rest _ (.refl _ _) rfl rfl)
  have h3 := h2.trans (runEffs_takesDue (l := []) s.cad.start (opIn [0x0203]) _ _ hset (fun _ h => absurd h List.not_mem_nil))
  exact (h3.rest (gmCadence_rest _ (.refl _ _) rfl)).rest (slewCadence_rest _ (.refl _ _) rfl)

theorem stopsCadence_takes (s : State) : TakesDue [0x0809, 0x070A] s.cad.start s (stopsCadence s) := by
  have hinj : ∀ {s0} a u, Rest allButEff s0 u → Rest allButEff s0 (stopInj a u) := fun a u h => stopInj_rest a u h rfl
  have hf : ∀ (e : Eff) u, Rest allButEff u (if e.opcode = 0x0809 then stopAxis true (u8 e.p 0) e.object (stopInj e.object u)
      else stopGroup (u8 e.p 0) e.object (forNat (members u e.object) stopInj u)) := fun e u => ite_rest _
    (stopAxis_rest _ _ _ _ (hinj _ _ (.refl _ u)))
    (stopGroup_rest _ _ _ (forNat_rest _ _ _ (fun a t ht => hinj a t ht) (.refl _ u)) rfl)
  have h1 : TakesDue [] s.cad.start s (forNat (tkeys s.axes) takeAxisStops (forNat (List.range 16) takeGroupStops s)) :=
    .of_eff_eq (forNat_rest _ _ _ (fun a t ht => takeAxisStops_rest a t ht rfl)
      (forNat_rest _ _ _ (fun g t ht => takeGroupStops_rest g t ht rfl rfl) (.refl _ s))).eff_eq
  exact h1.trans (runEffs_takesDue s.cad.start (opIn [0x0809, 0x070A]) _ _ hf (opIn_of_mem))

theorem writesCadence_takes (s : State) : TakesDue [0x0808] s.cad.start s (writesCadence s) := by
  have h1 : TakesDue [] s.cad.start s _ := runEffs_takesDue s.cad.start (fun e => opIn writeOps e && carriedOut e s) (loopEff s.cad.start) s
    (fun e u => loopEff_rest _ e u (.refl _ u)) (fun _ h => absurd h List.not_mem_nil)
  exact h1.trans (runEffs_takesDue s.cad.start (opIn [0x0808]) limitsEff _ (fun e u => limitsEff_rest e u (.refl _ u)) opIn_of_mem)

/-- The opcodes that the events of a cadence start take: stops, limits, holds, changes of state, coefficients and motion (R75). -/
def eventOps : List Nat :=
  [0x0809, 0x070A] ++ [0x0808] ++ [0x0705] ++ stateOps ++ writeOps ++ [0x0706, 0x0707, 0x0902, 0x0903, 0x0807]

/-- The opcodes of the step axes, taken with the outputs (R348). -/
def stepOps : List Nat := [0x1002, 0x1003, 0x1005, 0x1006, 0x1007, 0x1008]

theorem motionOp_of_mem (s : State) (e : Eff) (h : e.opcode ∈ [0x0706, 0x0707, 0x0902, 0x0903, 0x0807]) : motionOp s e = true := by
  unfold motionOp
  rw [opIn_of_mem e h, Bool.true_or]

theorem motion_takes (t : Nat) (s : State) :
    TakesDue [0x0706, 0x0707, 0x0902, 0x0903, 0x0807] t s (runEffs t (motionOp s) motionEff s) :=
  runEffs_takesDue t (motionOp s) motionEff s (fun e u => motionEff_rest e u (.refl _ u) rfl rfl) (motionOp_of_mem s)

/-- Poses, streams, homing and the limits that wait by R103 come after the commands, and post none. -/
theorem afterMotion_keeps_eff (l m : List Nat) (s : State) :
    Rest allButEff s (forNat l limitsTakeover (forNat m homeCadence (strmTakes (forNat (List.range 16) poseMoves s)))) :=
  forNat_rest _ _ _ (fun a t ht => limitsTakeover_rest a t ht rfl)
    (forNat_rest _ _ _ (fun g t ht => homeCadence_rest g t ht rfl)
      (strmTakes_rest _ (forNat_rest _ _ _ (fun g t ht => poseMoves_rest g t ht rfl) (.refl _ s)) rfl))

theorem eventsCadence_takes (s : State) : TakesDue eventOps s.cad.start s (eventsCadence s) := by
  have hk : ∀ f : Eff → State → State, (∀ {s0} e u, Rest allButEff s0 u → Rest allButEff s0 (f e u)) →
      ∀ e u, Rest allButEff u (keepPromise f e u) := fun f hf e u => keepPromise_rest f e u hf (.refl _ u) rfl
  have hcad : (faultsCadence (conditionsCadence s)).cad = s.cad := faultsCadence_sameCad _ (conditionsCadence_sameCad _ rfl)
  have hstopcad : (stopsCadence (faultsCadence (conditionsCadence s))).cad = s.cad := stopsCadence_sameCad _ hcad
  have h0 : TakesDue [] s.cad.start s (faultsCadence (conditionsCadence s)) :=
    .of_eff_eq (faultsCadence_rest _ (conditionsCadence_rest _ (.refl _ s) rfl) rfl).eff_eq
  have h1 := h0.trans (hcad ▸ stopsCadence_takes _)
  have h2 := h1.trans (hstopcad ▸ writesCadence_takes _)
  have h3 := h2.trans (runEffs_takesDue s.cad.start (opIn [0x0705]) (keepPromise grpHoldEff) _
    (hk _ (fun e u hu => grpHoldEff_rest e u hu)) opIn_of_mem)
  have h4 := h3.trans (runEffs_takesDue s.cad.start (opIn stateOps) (keepPromise stateEff) _
    (hk _ (fun e u hu => stateEff_keeps_eff e u hu)) opIn_of_mem)
  have h5 := h4.trans (runEffs_takesDue s.cad.start (opIn writeOps) (keepPromise (loopEff s.cad.start)) _
    (hk _ (fun e u hu => loopEff_rest _ e u hu)) opIn_of_mem)
  have h6 := h5.trans (motion_takes s.cad.start _)
  exact h6.rest (afterMotion_keeps_eff _ _ _)

theorem outputsCadence_takes (s : State) : TakesDue stepOps s.cad.start s (outputsCadence s) := by
  have hf : ∀ e u, Rest allButEff u (keepPromise (stpEff s.cad.start) e u) := fun e u =>
    keepPromise_rest _ e u (fun e t ht => stpEff_rest _ e t ht rfl) (.refl _ u) rfl
  have h0 : TakesDue [] s.cad.start s (ioCadence s) := .of_eff_eq (ioCadence_rest _ (.refl _ s) rfl).eff_eq
  have h1 := h0.trans (runEffs_takesDue (l := stepOps) s.cad.start (opIn stepOps) _ _ hf opIn_of_mem)
  exact (h1.rest (stpCadence_rest _ _ _ (.refl _ _))).rest (busCadence_rest _ (.refl _ _) rfl rfl)

/-- Every opcode whose effect falls on a cadence start is among those that its events or its outputs take. -/
theorem cadenceOps_subset : cadenceOps ⊆ eventOps ++ stepOps := by decide

theorem cadenceStart_takes {s : State} (h : cadenceRuns s = true) (hf : s.dev.frozen = false) :
    TakesDue cadenceOps (nextCadence s) (cadenceBegun s) (cadenceStart s) := by
  have hb : (cadenceBegun s).cad.start = nextCadence s := by rw [cadenceBegun_cad, beginCadence_cad]
  have ht : (timeCadence (cadenceBegun s)).cad = (cadenceBegun s).cad := timeCadence_sameCad _ rfl
  have he : (injCadence (eventsCadence (timeCadence (cadenceBegun s)))).cad = (cadenceBegun s).cad :=
    injCadence_sameCad _ (eventsCadence_sameCad _ ht)
  rw [cadenceStart_running h hf, ← hb]
  have h1 := (timeCadence_takes (cadenceBegun s)).trans (ht ▸ eventsCadence_takes _)
  have h2 := (h1.rest (injCadence_rest _ (.refl _ _) rfl)).trans (he ▸ outputsCadence_takes _)
  exact h2.mono cadenceOps_subset

/-- Settles O21: each run of effects at a cadence start leaves none of its opcodes that is due, and what follows it lets none wait. -/
theorem cadenceTakesEffects : Obligations.CadenceTakesEffects := by
  intro s t hr hf hex e he hop
  obtain rfl : cadenceStart s = t := Host.Outcome.next.inj hex
  rw [cadenceStart_cad hr, beginCadence_cad]
  exact (cadenceStart_takes hr hf e he).2 hop

end Sys2Proof.Machine

namespace Sys2Proof.Machine

/-! The points of a cadence after its start (R22, R23, R25, R26), the round start (R286) and the guard boundary (R221). -/

/-- What a cadence start leaves in the cadence's own fields (R21). -/
theorem cadenceStart_fields {s : State} (hr : cadenceRuns s = true) : (cadenceStart s).cad.started = true ∧
    (cadenceStart s).cad.start = nextCadence s ∧ (cadenceStart s).cad.phase = 0 ∧ (cadenceStart s).cad.len = s.cad.ns ∧
    (cadenceStart s).cad.misses = s.cad.misses + 1 ∧
    (cadenceStart s).cad.count = (if s.cad.started then s.cad.count + 1 else s.cad.count) := by
  rw [cadenceStart_cad hr, beginCadence_cad]
  exact ⟨rfl, rfl, rfl, rfl, rfl, rfl⟩

/-- The feedback cutoff of a cadence that has begun moves it to its compute phase (R22). -/
theorem feedbackCutoff_cad {s : State} (hr : cadenceRuns s = true) (hs : s.cad.started = true) (hp : s.cad.phase = 0)
    (hf : s.dev.frozen = false) : (feedbackCutoff s).cad = { s.cad with phase := 1 } := by
  have hsnap : SameCad s (planSnapshot (generate (advanceTo (s.cad.start + s.cad.len * 4 / 10) s))) :=
    planSnapshot_sameCad _ (generate_sameCad _ (advanceTo_sameCad _ s rfl))
  have hwheel := freewheel_sameCad _ (guardSnapshot_sameCad _ (freewheel2_sameCad _ hsnap))
  unfold feedbackCutoff
  rw [if_neg (by simp [hr, hs, hp, hf])]
  exact congrArg (fun c : CadSt => { c with phase := 1 }) (forNat_sameCad _ initLoop _ (fun a t ht => initLoop_sameCad a t ht) hwheel)

theorem stpLimitStop_cad (t n : Nat) (s : State) : (stpLimitStop t n s).cad = s.cad :=
  (stpLimitStop_stays (msk := { stp := true }) t n s (.refl _ s) rfl).cad.resolve_left Bool.false_ne_true

/-- The compute end closes the cadence, and no cadence counts as missed any longer (R23, R371). -/
theorem computeEnd_cad {s : State} (hr : cadenceRuns s = true) (hs : s.cad.started = true) (hp : s.cad.phase = 1)
    (hf : s.dev.frozen = false) : (computeEnd s).cad = { s.cad with phase := 3, misses := 0 } := by
  unfold computeEnd
  rw [if_neg (by simp [hr, hs, hp, hf])]
  refine congrArg (fun c : CadSt => { c with phase := 3, misses := 0 }) (?_ : SameCad s _)
  apply resumeFft_sameCad; apply traceCadence_sameCad; apply mirrorUpdate_sameCad; apply sigUpdate_sameCad
  apply stpCompute_sameCad; apply buildImage_sameCad; apply sendActions_sameCad
  refine forNat_sameCad _ _ _ (fun n t ht => (stpLimitStop_cad _ n t).trans ht) ?_
  apply checksCompute_sameCad
  exact forNat_sameCad _ _ _ (fun a t ht => loopCompute_sameCad a t ht) (advanceTo_sameCad _ s rfl)

/-- A frozen device does nothing at the points after the start of the cadence (R362). -/
theorem frozen_points {s : State} (hf : s.dev.frozen = true) : feedbackCutoff s = s ∧ computeEnd s = s ∧ planningBoundary s = s ∧
    roundStart s = s ∧ verdictDeadline s = s := by
  refine ⟨if_pos ?_, if_pos ?_, if_pos ?_, if_pos ?_, if_pos ?_⟩ <;> simp [hf]

theorem planningBoundary_cad {s : State} (hs : s.cad.started = true) (hp : s.cad.phase = 0) (hf : s.dev.frozen = false)
    (hb : s.cad.start % planNs s = 0) (hn : s.cad.planAt ≠ s.cad.start + 1) :
    (planningBoundary s).cad.planAt = s.cad.start + 1 ∧ (planningBoundary s).cad.planStart = s.cad.start := by
  unfold planningBoundary
  rw [if_neg (by simp [hs, hp, hf, hb, hn])]
  exact ⟨rfl, rfl⟩

theorem roundStart_roundAt {s : State} {b : Nat} (hr : cadenceRuns s = true) (hf : s.dev.frozen = false) (hb : roundDue s = some b) :
    (roundStart s).cad.roundAt = b + 1 := by
  unfold roundStart
  rw [if_neg (by simp [hr, hf]), hb]

theorem guardBoundary_cad {s : State} (hs : s.cad.started = true) (hg : s.cad.start % (s.cad.guardPer * s.cad.ns) = 0)
    (hn : s.cad.guardAt ≠ s.cad.start + 1) :
    (guardBoundary s).cad = { s.cad with guardAt := s.cad.start + 1, guardStart := s.cad.start } := by
  unfold guardBoundary
  rw [if_pos (by simp [hs, hg, hn])]
  exact forNat_sameCad _ _ { s with cad := { s.cad with guardAt := s.cad.start + 1, guardStart := s.cad.start } }
    (fun n t ht => sensorBoundary_sameCad n t ht) rfl

/-- The verdict of the latest guard snapshot is the one that the deadline takes; what follows from it leaves separation alone. -/
theorem verdictDeadline_verdictAt {s : State} (hf : s.dev.frozen = false) (hd : verdictDue s = true) :
    (verdictDeadline s).ssm.verdictAt = s.ssm.snapAt := by
  unfold verdictDeadline
  rw [if_neg (by simp [hf, hd])]
  have hssm : (sepSignals (forNat (List.range 16) replan (verdict s))).ssm = (verdict s).ssm :=
    (sepSignals_stays (msk := { grps := true, qp := true, sig := true }) _
      (forNat_stays _ _ _ (fun g t ht => replan_stays g t ht rfl rfl) (.refl _ _)) rfl).ssm.resolve_left Bool.false_ne_true
  rw [hssm]
  unfold verdict
  rw [if_neg (by simp [hd])]

theorem zoneCharge_ssm (s : State) : (zoneCharge s).ssm = s.ssm :=
  (zoneCharge_stays (msk := { sch := true }) s (.refl _ s) rfl).ssm.resolve_left Bool.false_ne_true

theorem zoneOf_congr {a b : State} (z : Nat) (h : a.ssm = b.ssm) : zoneOf a z = zoneOf b z := by unfold zoneOf; rw [h]

/-- A refusal takes the overdue requests out of the zone's own list and touches no other zone (R210, R212). -/
theorem zoneRefused_zoneOf {s : State} {z : Nat}
    (h : (zoneOf s z).reqs.any (fun r => decide (r.deadline < s.cad.planStart)) = true) (n : Nat) :
    zoneOf (zoneRefused z s) n = if n = z then
      { zoneOf s z with reqs := (zoneOf s z).reqs.filter (fun r => decide (s.cad.planStart ≤ r.deadline)) } else zoneOf s n := by
  unfold zoneRefused
  rw [if_pos h, zoneOf_congr n (raise_ssm _ _), zoneOf_congr n (zoneCharge_ssm _), zoneOf_setZone]

theorem zoneRefused_pending {s : State} {z : Nat}
    (h : (zoneOf s z).reqs.any (fun r => decide (r.deadline < s.cad.planStart)) = true) : Pending (zoneRefused z s) 82 := by
  unfold zoneRefused
  rw [if_pos h]
  exact raise_sets_pending _ _ (by decide)

/-- Settles O51, a clause for each point of the cadence. That the cadence runs in RUN and FAULT only, and that a frozen device does
nothing after its start, is log entry 28 of the model; that a row that is not due changes nothing is log entry 3. -/
theorem cadenceRows : Obligations.CadenceRows := by
  intro s
  refine ⟨?_, ?_, ?_, ?_, ?_, ?_, ?_, ?_, ?_, ?_⟩
  · exact fun hr => ⟨_, rfl, cadenceStart_fields hr⟩
  · exact fun hr => congrArg Host.Outcome.next (cadenceStart_idle hr)
  · exact fun hr hs hp hf => ⟨_, rfl, feedbackCutoff_cad hr hs hp hf⟩
  · exact fun hr hs hp hf => ⟨_, rfl, computeEnd_cad hr hs hp hf⟩
  · intro hf
    obtain ⟨hcut, hend, hplan, hround, hverdict⟩ := frozen_points hf
    exact ⟨congrArg Host.Outcome.next hcut, congrArg Host.Outcome.next hend, congrArg Host.Outcome.next hplan,
      congrArg Host.Outcome.next hround, congrArg Host.Outcome.next hverdict⟩
  · exact fun hs hp hf hb hn => ⟨_, rfl, planningBoundary_cad hs hp hf hb hn⟩
  · exact fun b hr hf hb => ⟨_, rfl, roundStart_roundAt hr hf hb⟩
  · exact fun hs hg hn => ⟨_, rfl, guardBoundary_cad hs hg hn⟩
  · exact fun hf hd => ⟨_, rfl, verdictDeadline_verdictAt hf hd⟩
  · intro z hz
    refine ⟨_, rfl, ?_, zoneRefused_pending hz, fun n hn => ?_⟩
    · rw [zoneRefused_zoneOf hz, if_pos rfl]
    · rw [zoneRefused_zoneOf hz, if_neg hn]

end Sys2Proof.Machine

namespace Sys2Proof.Machine

/-! Device faults, memory errors and temperature (R14, R38, R360 to R362). -/

section
variable {s : State} {src code : Nat} {noCore : Bool}

theorem dieMRuns_of_mode (h : s.dev.mode ≠ .reset) : dieMRuns s = true := decide_eq_true h

/-- The device island after a device fault of a running, unfrozen device: the first cause stays (R361). -/
theorem deviceFault_dev (hm : s.dev.mode ≠ .reset) (hf : s.dev.frozen = false) : (deviceFault src code noCore s).dev = { s.dev with
    mode := .fault, faultN := true, frozen := true, noCore := noCore
    faultCause := if s.dev.faultCause = 0 then BitVec.ofNat 32 (src * 65536 + code) else s.dev.faultCause } := by
  have hsent : ∀ r, (toDieF r s).dev = s.dev := fun r =>
    (toDieF_rest (msk := { jrn := true, xl := true }) r s (.refl _ s) rfl rfl).dev_eq rfl
  unfold deviceFault
  rw [if_neg (by simp [dieMRuns_of_mode hm, hf])]
  dsimp only [enterFault, modDev]
  split
  · rw [hsent]
  · rw [journalRec_dev]

theorem deviceFault_stopped (hm : s.dev.mode ≠ .reset) (hf : s.dev.frozen = false) :
    (deviceFault src code noCore s).xl.stopped = true := by
  unfold deviceFault
  rw [if_neg (by simp [dieMRuns_of_mode hm, hf])]
  rfl

/-- What a device fault leaves (R361, R362): FAULT, frozen, FAULT_N asserted, the crosslink stopped, the first cause kept, and motion,
field channels, step axes and segments as they stood. -/
def FaultLeft (s t : State) : Prop :=
  t.dev.mode = .fault ∧ t.dev.frozen = true ∧ t.dev.faultN = true ∧ t.xl.stopped = true ∧
  (s.dev.faultCause ≠ 0 → t.dev.faultCause = s.dev.faultCause) ∧
  t.axes = s.axes ∧ t.grps = s.grps ∧ t.io = s.io ∧ t.stp = s.stp ∧ t.bus = s.bus

theorem deviceFault_left (hm : s.dev.mode ≠ .reset) (hf : s.dev.frozen = false) : FaultLeft s (deviceFault src code noCore s) := by
  have hsame := deviceFault_stays (msk := {}) src code noCore s (.refl _ s)
  have hd := deviceFault_dev (src := src) (code := code) (noCore := noCore) hm hf
  refine ⟨by rw [hd], by rw [hd], by rw [hd], deviceFault_stopped hm hf, fun hc => by rw [hd]; exact if_neg hc,
    hsame.axes.resolve_left Bool.false_ne_true, hsame.grps.resolve_left Bool.false_ne_true,
    hsame.io.resolve_left Bool.false_ne_true, hsame.stp.resolve_left Bool.false_ne_true, hsame.bus.resolve_left Bool.false_ne_true⟩

theorem deviceFault_cause (hm : s.dev.mode ≠ .reset) (hf : s.dev.frozen = false) (hc : s.dev.faultCause = 0) :
    (deviceFault src code noCore s).dev.faultCause = BitVec.ofNat 32 (src * 65536 + code) := by
  rw [deviceFault_dev hm hf]
  exact if_pos hc

/-- Raising an event changes nothing that a device fault speaks of. -/
theorem FaultLeft.raise {t : State} (e : Nat) (h : FaultLeft s t) : FaultLeft s (raise e t) := by
  unfold FaultLeft at *
  rwa [raise_dev, raise_xl, raise_axes, raise_grps, raise_io, raise_stp, raise_bus]

/-! Errors of memories (R38). -/

/-- A running device counts the error, the owner reacts, and ECC_UNCORRECTABLE is raised. -/
theorem eccUncorrectable_pending (o : EccOwner) (hm : s.dev.mode ≠ .reset) (hf : s.dev.frozen = false) :
    Pending (eccUncorrectable o s) 111 := by
  unfold eccUncorrectable
  rw [if_neg (by simp [dieMRuns_of_mode hm, hf])]
  exact raise_sets_pending _ _ (by decide)

theorem eccUncorrectable_scheduler (hm : s.dev.mode ≠ .reset) (hf : s.dev.frozen = false) :
    eccUncorrectable .scheduler s = raise 111 (deviceFault 0x03 0x07 true (count 5 0x0003 s)) :=
  if_neg (by simp [dieMRuns_of_mode hm, hf])

theorem eccUncorrectable_supervisor (hm : s.dev.mode ≠ .reset) (hf : s.dev.frozen = false) :
    eccUncorrectable .supervisor s = raise 111 (deviceFault 0x03 0x08 true (count 1 0x0003 s)) :=
  if_neg (by simp [dieMRuns_of_mode hm, hf])

theorem eccUncorrectable_hostSlot (m : Fin 8) (k : Fin 32) (hm : s.dev.mode ≠ .reset) (hf : s.dev.frozen = false) :
    eccUncorrectable (.hostSlot m k) s = raise 111 (journal 0x03 0x09 2 (32 * m.val + k.val) 0 []
      (complete m.val k.val .deviceFault 0 0xFFFFFFFF [] (count 0 0x0003 s))) :=
  if_neg (by simp [dieMRuns_of_mode hm, hf])

/-- Counting an error leaves the state in which a device fault begins as it was for all that the fault speaks of. -/
theorem deviceFault_left_count (i : Nat) (hm : s.dev.mode ≠ .reset) (hf : s.dev.frozen = false) :
    FaultLeft s (deviceFault src code noCore (count i 0x0003 s)) :=
  deviceFault_left (s := count i 0x0003 s) hm hf

/-- The rows of a device fault, whatever detects it. -/
theorem deviceFault_rows {i : Instr} (hm : s.dev.mode ≠ .reset) (hf : s.dev.frozen = false)
    (hi : i = .supLockstep ∨ i = .thermShutdown ∨ (i = .supervisorWatchdog ∧ 16 ≤ s.cad.misses) ∨
      i = .eccUncorrectable .scheduler ∨ i = .eccUncorrectable .supervisor) : Gives i s (FaultLeft s) := by
  rcases hi with rfl | rfl | ⟨rfl, hmiss⟩ | rfl | rfl
  · exact ⟨_, rfl, deviceFault_left hm hf⟩
  · exact ⟨_, rfl, deviceFault_left hm hf⟩
  · exact ⟨_, congrArg Host.Outcome.next (if_pos hmiss), deviceFault_left hm hf⟩
  · exact ⟨_, congrArg Host.Outcome.next (eccUncorrectable_scheduler hm hf), (deviceFault_left_count 5 hm hf).raise 111⟩
  · exact ⟨_, congrArg Host.Outcome.next (eccUncorrectable_supervisor hm hf), (deviceFault_left_count 1 hm hf).raise 111⟩

/-- A command whose slot's bytes are lost completes with DEVICE_FAULT. -/
theorem eccUncorrectable_completes (m : Fin 8) (k : Fin 32) (hm : s.dev.mode ≠ .reset) (hf : s.dev.frozen = false)
    (hp : slotOf s m.val k.val = .posted) : slotOf (eccUncorrectable (.hostSlot m k) s) m.val k.val = .done ∧
      statusAt (eccUncorrectable (.hostSlot m k) s) ⟨m, k, []⟩ = 0x0601 := by
  have himage : m.val ≠ imageMb := by have := m.isLt; unfold imageMb; omega
  have hp' : slotOf (count 0 0x0003 s) m.val k.val = .posted := hp
  rw [eccUncorrectable_hostSlot m k hm hf]
  constructor
  · rw [raise_slotOf, slotOf_congr _ _ (journal_host _ _ _ _ _ _ _)]
    exact complete_done himage hp'
  · unfold statusAt
    rw [raise_bar2, journal_host]
    exact complete_statusAt (r := ⟨m, k, []⟩) hp'

/-- A corrected error takes a free value, which says whether ECC_CORRECTED is raised, and counts; no more. -/
theorem eccCorrected_left (n : Nat) (s : State) : (eccCorrected n s).free = s.free + 1 ∧
    ((freeNow s).getLsbD 0 = true → Pending (eccCorrected n s) 110) ∧ (eccCorrected n s).dev = s.dev ∧
    (eccCorrected n s).jrn = s.jrn ∧ (eccCorrected n s).axes = s.axes ∧ (eccCorrected n s).grps = s.grps := by
  unfold eccCorrected
  refine ⟨raiseIf_free _ _ _, fun hfree => ?_, raiseIf_dev _ _ _, raiseIf_jrn _ _ _, raiseIf_axes _ _ _, raiseIf_grps _ _ _⟩
  rw [hfree]
  exact raise_sets_pending _ _ (by decide)

/-! Temperature (R360). -/

theorem thermWarn_eq (hm : s.dev.mode ≠ .reset) (hw : s.dev.thermWarn = false) :
    thermWarn s = raise 106 (journal 0x04 0x01 1 noObj 0 [] (modDev (fun d => { d with thermWarn := true }) s)) :=
  if_neg (by simp [dieMRuns_of_mode hm, hw])

/-- Tj at 100 °C is reported, and stops nothing. -/
theorem thermWarn_left (hm : s.dev.mode ≠ .reset) (hw : s.dev.thermWarn = false) : (thermWarn s).dev.thermWarn = true ∧
    Pending (thermWarn s) 106 ∧ (thermWarn s).dev.mode = s.dev.mode ∧ (thermWarn s).grps = s.grps := by
  rw [thermWarn_eq hm hw, raise_dev, journal_dev, raise_grps, journal_grps]
  exact ⟨rfl, raise_sets_pending _ _ (by decide), rfl, rfl⟩

theorem thermCrit_eq (hm : s.dev.mode ≠ .reset) (hc : s.dev.thermCrit = false) : thermCrit s =
    reqStopAll 1 (raise 107 (journal 0x04 0x02 2 noObj 0 [] (modDev (fun d => { d with thermCrit := true }) s))) :=
  if_neg (by simp [dieMRuns_of_mode hm, hc])

theorem reqStopAll_dev (c : Nat) (s : State) : (reqStopAll c s).dev = s.dev :=
  (reqStopAll_rest (msk := {}) c s (.refl _ s)).dev_eq rfl

theorem pending_reqStopAll (c e : Nat) (s : State) (h : Pending s e) : Pending (reqStopAll c s) e :=
  (reqStopAll_kept c s (.refl s)).evt.pend e h

/-- Tj at 115 °C asks every group for a category 1 stop. -/
theorem thermCrit_stops (hm : s.dev.mode ≠ .reset) (hc : s.dev.thermCrit = false) : (thermCrit s).dev.thermCrit = true ∧
    Pending (thermCrit s) 107 ∧ ∀ g < 16, (grpOf (thermCrit s) g).stops = (grpOf s g).stops ++ [1] := by
  rw [thermCrit_eq hm hc]
  refine ⟨?_, pending_reqStopAll _ _ _ (raise_sets_pending _ _ (by decide)), fun g hg => ?_⟩
  · rw [reqStopAll_dev, raise_dev, journal_dev]
    rfl
  · rw [reqStopAll_grp 1 _ g hg, grpOf_congr g (raise_grps _ _), grpOf_congr g (journal_grps _ _ _ _ _ _ _)]
    rfl

end

/-- Settles O47: the rows of a device fault together, then a clause for each row. Which causes are fatal, and that a corrected error is
reported by a free threshold, is log entry 43 of the model; that the crosslink stops at once is log entry 45. -/
theorem deviceFaults : Obligations.DeviceFaults := by
  intro s hm hf
  refine ⟨fun i hi => deviceFault_rows hm hf hi, ?_, ?_, ?_, ?_, ?_, ?_, ?_, ?_, rfl, ?_, rfl⟩
  · exact fun hmiss => congrArg Host.Outcome.next (if_neg (by omega))
  · exact fun hc => ⟨_, rfl, deviceFault_cause hm hf hc⟩
  · exact fun hc => ⟨_, rfl, deviceFault_cause hm hf hc⟩
  · exact fun hc hmiss => ⟨_, congrArg Host.Outcome.next (if_pos hmiss), deviceFault_cause hm hf hc⟩
  · exact fun o _ _ => ⟨_, rfl, eccUncorrectable_pending o hm hf⟩
  · exact fun m k hp => ⟨_, rfl, eccUncorrectable_completes m k hm hf hp⟩
  · exact fun n => ⟨_, rfl, eccCorrected_left n s⟩
  · exact fun hw => ⟨_, rfl, thermWarn_left hm hw⟩
  · exact fun hc => ⟨_, rfl, thermCrit_stops hm hc⟩

end Sys2Proof.Machine

namespace Sys2Proof.Machine

/-! The two directions of the crosslink (R15): what a write of one leaves of both. -/

@[simp] theorem otherDie_otherDie (d : Die) : otherDie (otherDie d) = d := by cases d <;> rfl

@[simp] theorem dirTo_setDir_same (d : Die) (x : XDir) (s : State) : dirTo d (setDir d x s) = x := by cases d <;> rfl

@[simp] theorem dirTo_other_setDir (d : Die) (x : XDir) (s : State) : dirTo (otherDie d) (setDir d x s) = dirTo (otherDie d) s := by
  cases d <;> rfl

@[simp] theorem dirTo_setDir_other (d : Die) (x : XDir) (s : State) : dirTo d (setDir (otherDie d) x s) = dirTo d s := by
  cases d <;> rfl

theorem dirTo_congr {a b : State} (d : Die) (h : a.xl = b.xl) : dirTo d a = dirTo d b := by unfold dirTo; rw [h]

theorem setDir_up_lost (d : Die) (x : XDir) (s : State) : (setDir d x s).xl.up = s.xl.up ∧ (setDir d x s).xl.lost = s.xl.lost := by
  cases d <;> exact ⟨rfl, rfl⟩

theorem setDir_setDir_xl (d : Die) (x y : XDir) {a b : State} (h : a.xl = (setDir d x b).xl) :
    (setDir d y a).xl = (setDir d y b).xl := by
  cases d <;> simp only [setDir] at h ⊢ <;> rw [h]

/-- An event of the crosslink's counter spoke, which die M has. -/
def countXlink (d : Die) (code : Nat) (s : State) : State := if d = .m then count 135 code s else s

@[simp] theorem countXlink_xl (d : Die) (code : Nat) (s : State) : (countXlink d code s).xl = s.xl := by unfold countXlink; split <;> rfl
@[simp] theorem countXlink_dev (d : Die) (code : Nat) (s : State) : (countXlink d code s).dev = s.dev := by unfold countXlink; split <;> rfl
@[simp] theorem countXlink_out (d : Die) (code : Nat) (s : State) : (countXlink d code s).out = s.out := by unfold countXlink; split <;> rfl
@[simp] theorem dirTo_countXlink (d e : Die) (code : Nat) (s : State) : dirTo d (countXlink e code s) = dirTo d s :=
  dirTo_congr d (countXlink_xl e code s)

/-! Sending, acknowledging and replaying flits. -/

theorem xsendFlit_txSeq (d : Die) (cls : Nat) (b : List Byte) (s : State) :
    (dirTo d (xsendFlit d cls b s)).txSeq = (dirTo d s).txSeq + 1 := by
  unfold xsendFlit
  rw [dirTo_congr d (emit_xl _ _ _ _), dirTo_setDir_same]

theorem dirTo_xsendFlit_other (d : Die) (cls : Nat) (b : List Byte) (s : State) :
    dirTo d (xsendFlit (otherDie d) cls b s) = dirTo d s := by
  unfold xsendFlit
  rw [dirTo_congr d (emit_xl _ _ _ _), dirTo_setDir_other]

theorem xsendFlit_dev (d : Die) (cls : Nat) (b : List Byte) (s : State) : (xsendFlit d cls b s).dev = s.dev := by
  unfold xsendFlit
  rw [emit_dev, setDir_dev]

theorem xsendFlit_out (d : Die) (cls : Nat) (b : List Byte) (s : State) : ∃ o, (xsendFlit d cls b s).out = o :: s.out := by
  unfold xsendFlit
  exact ⟨_, congrArg _ (setDir_out _ _ _)⟩

theorem dirTo_xacked (d : Die) (q : BitVec 12) (s : State) : dirTo d (xacked d q s) = { dirTo d s with replay := unacked (dirTo d s) q } := by
  unfold xacked
  rw [dirTo_setDir_same]

theorem dirTo_other_xacked (d : Die) (q : BitVec 12) (s : State) : dirTo (otherDie d) (xacked d q s) = dirTo (otherDie d) s := by
  unfold xacked
  rw [dirTo_other_setDir]

theorem foldl_emit_xl (l : List (List Byte × Nat)) (k : OutKind) (u : Nat) (s : State) :
    (l.foldl (fun t e => emit k u e.1 t) s).xl = s.xl ∧ (l.foldl (fun t e => emit k u e.1 t) s).dev = s.dev := by
  induction l generalizing s with
  | nil => exact ⟨rfl, rfl⟩
  | cons e r ih => exact ih (emit k u e.1 s)

/-- The flits that a direction replays from `q` on, each with one replay more (R15). -/
def replayed (x : XDir) (q : BitVec 12) : List (List Byte × Nat) := (unacked x q).map (fun e => (e.1, e.2 + 1))

theorem xreplay_xl (d : Die) (q : BitVec 12) (s : State) :
    (xreplay d q s).xl = (setDir d { dirTo d s with replay := replayed (dirTo d s) q } s).xl := by
  unfold xreplay
  exact (foldl_emit_xl _ _ _ _).1

theorem xreplay_dev (d : Die) (q : BitVec 12) (s : State) : (xreplay d q s).dev = s.dev := by
  unfold xreplay
  rw [(foldl_emit_xl _ _ _ _).2, setDir_dev]

/-! A flit arrives (R15). -/

section
variable {d : Die} {f : List Byte} {s : State}

/-- The direction after a good flit: the next number is expected, and every sixteenth flit is acknowledged. -/
def flitTaken (x : XDir) : XDir :=
  { x with rxSeq := x.rxSeq + 1, awaiting := false, sinceAck := if 15 ≤ x.sinceAck then 0 else x.sinceAck + 1 }

theorem xlinkFlit_good (hu : s.xl.up = true) (hk : flitOk (dirTo d s).rxSeq f = true) (ha : (dirTo d s).sinceAck < 15) :
    xlinkFlit d f s = countXlink d 0x0C02 (setDir d (flitTaken (dirTo d s)) s) := by
  have hna : ¬ 15 ≤ (dirTo d s).sinceAck := by omega
  simp only [xlinkFlit, hu, hk, hna, flitTaken, countXlink, Bool.not_true, Bool.false_eq_true, if_false, if_true]

theorem xlinkFlit_good_ack (hu : s.xl.up = true) (hk : flitOk (dirTo d s).rxSeq f = true) (ha : 15 ≤ (dirTo d s).sinceAck) :
    xlinkFlit d f s = xacked d ((dirTo d s).rxSeq + 1) (xsendFlit (otherDie d) 0x01 (leBytes 2 (dirTo d s).rxSeq.toNat)
      (countXlink d 0x0C02 (setDir d (flitTaken (dirTo d s)) s))) := by
  simp only [xlinkFlit, hu, hk, ha, flitTaken, countXlink, Bool.not_true, Bool.false_eq_true, if_false, if_true]

theorem xlinkFlit_bad_again (hu : s.xl.up = true) (hk : flitOk (dirTo d s).rxSeq f = false) (ha : (dirTo d s).awaiting = true) :
    xlinkFlit d f s = countXlink d 0x0C03 s := by
  simp only [xlinkFlit, hu, hk, ha, countXlink, Bool.not_true, Bool.false_eq_true, if_false, if_true]

theorem xlinkFlit_bad_first (hu : s.xl.up = true) (hk : flitOk (dirTo d s).rxSeq f = false) (ha : (dirTo d s).awaiting = false) :
    xlinkFlit d f s = countXlink d 0x0C04 (xsendFlit (otherDie d) 0x01 (leBytes 2 (0x8000 + (dirTo d s).rxSeq.toNat))
      (setDir d { dirTo d s with awaiting := true } (countXlink d 0x0C03 s))) := by
  simp only [xlinkFlit, hu, hk, ha, countXlink, Bool.not_true, Bool.false_eq_true, if_false]

/-- A good flit advances its direction; the sixteenth since the last acknowledgement is acknowledged in the other one. -/
theorem xlinkFlit_accepts (hu : s.xl.up = true) (hk : flitOk (dirTo d s).rxSeq f = true) :
    (dirTo d (xlinkFlit d f s)).rxSeq = (dirTo d s).rxSeq + 1 ∧ (dirTo d (xlinkFlit d f s)).awaiting = false ∧
    (xlinkFlit d f s).dev = s.dev ∧
    ((dirTo d s).sinceAck < 15 → dirTo (otherDie d) (xlinkFlit d f s) = dirTo (otherDie d) s ∧
      (dirTo d (xlinkFlit d f s)).replay = (dirTo d s).replay ∧ (xlinkFlit d f s).out = s.out) ∧
    (15 ≤ (dirTo d s).sinceAck → (dirTo (otherDie d) (xlinkFlit d f s)).txSeq = (dirTo (otherDie d) s).txSeq + 1 ∧
      (dirTo d (xlinkFlit d f s)).replay = unacked (dirTo d s) ((dirTo d s).rxSeq + 1)) := by
  rcases Nat.lt_or_ge (dirTo d s).sinceAck 15 with ha | ha
  · rw [xlinkFlit_good hu hk ha]
    refine ⟨?_, ?_, ?_, fun _ => ⟨?_, ?_, ?_⟩, fun h => absurd h (by omega)⟩ <;> simp [flitTaken]
  · rw [xlinkFlit_good_ack hu hk ha]
    have hdir : dirTo d (xacked d ((dirTo d s).rxSeq + 1) (xsendFlit (otherDie d) 0x01 (leBytes 2 (dirTo d s).rxSeq.toNat)
        (countXlink d 0x0C02 (setDir d (flitTaken (dirTo d s)) s)))) =
        { flitTaken (dirTo d s) with replay := unacked (dirTo d s) ((dirTo d s).rxSeq + 1) } := by
      rw [dirTo_xacked, dirTo_xsendFlit_other, dirTo_countXlink, dirTo_setDir_same]
      rfl
    rw [hdir]
    refine ⟨rfl, rfl, ?_, fun h => absurd h (by omega), fun _ => ⟨?_, rfl⟩⟩
    · rw [xacked, setDir_dev, xsendFlit_dev, countXlink_dev, setDir_dev]
    · rw [dirTo_other_xacked, xsendFlit_txSeq, dirTo_countXlink, dirTo_other_setDir]

/-- A bad flit leaves the expected number as it is and asks for a replay once. -/
theorem xlinkFlit_rejects (hu : s.xl.up = true) (hk : flitOk (dirTo d s).rxSeq f = false) :
    (dirTo d (xlinkFlit d f s)).rxSeq = (dirTo d s).rxSeq ∧ (dirTo d (xlinkFlit d f s)).awaiting = true ∧
    (xlinkFlit d f s).dev = s.dev ∧
    ((dirTo d s).awaiting = true → (xlinkFlit d f s).xl = s.xl ∧ (xlinkFlit d f s).out = s.out) ∧
    ((dirTo d s).awaiting = false → (dirTo (otherDie d) (xlinkFlit d f s)).txSeq = (dirTo (otherDie d) s).txSeq + 1 ∧
      (xlinkFlit d f s).out ≠ s.out) := by
  cases ha : (dirTo d s).awaiting with
  | true =>
    rw [xlinkFlit_bad_again hu hk ha]
    simp [ha]
  | false =>
    rw [xlinkFlit_bad_first hu hk ha, dirTo_countXlink, dirTo_xsendFlit_other, dirTo_setDir_same]
    refine ⟨rfl, rfl, ?_, fun h => (Bool.false_ne_true h).elim, fun _ => ⟨?_, ?_⟩⟩
    · rw [countXlink_dev, xsendFlit_dev, setDir_dev, countXlink_dev]
    · rw [dirTo_countXlink, xsendFlit_txSeq, dirTo_other_setDir, dirTo_countXlink]
    · obtain ⟨o, ho⟩ := xsendFlit_out (otherDie d) 0x01 (leBytes 2 (0x8000 + (dirTo d s).rxSeq.toNat))
        (setDir d { dirTo d s with awaiting := true } (countXlink d 0x0C03 s))
      rw [countXlink_out, ho, setDir_out, countXlink_out]
      exact List.cons_ne_self o s.out

end

/-! A NAK arrives (R15, R16, R18). -/

/-- The sender's state after the replay that a NAK asks for, before it is judged whether the crosslink is lost. -/
def nakReplayed (d : Die) (q : BitVec 12) (s : State) : State :=
  let x := dirTo (otherDie d) s
  let t := xreplay (otherDie d) q (countXlink d 0x0C05 (setDir (otherDie d) { x with replaysCad := x.replaysCad + 1 } s))
  if x.replaysCad < 4 then t else raise 108 (journal 0x02 0x02 1 noObj 0 [] (count 135 0x0C06 t))

theorem xlinkNak_eq (d : Die) (q : BitVec 12) {s : State} (hu : s.xl.up = true) : xlinkNak d q s =
    if replayedOut (otherDie d) (nakReplayed d q s) then xlinkLoss 0x02 0x01 (nakReplayed d q s) else nakReplayed d q s := by
  simp only [xlinkNak, hu, Bool.not_true, Bool.false_eq_true, if_false]
  rfl

/-- The direction of the sender after a NAK: what is not acknowledged stands there with one replay more. -/
def nakDir (x : XDir) (q : BitVec 12) : XDir := { x with replaysCad := x.replaysCad + 1, replay := replayed x q }

theorem nakReplayed_xl (d : Die) (q : BitVec 12) (s : State) :
    (nakReplayed d q s).xl = (setDir (otherDie d) (nakDir (dirTo (otherDie d) s) q) s).xl := by
  unfold nakReplayed
  extract_lets x t
  have ht : t.xl = (setDir (otherDie d) (nakDir x q) s).xl := by
    rw [show t.xl = _ from xreplay_xl _ _ _, dirTo_countXlink, dirTo_setDir_same]
    exact setDir_setDir_xl _ _ _ (countXlink_xl _ _ _)
  split
  · exact ht
  · rw [raise_xl, journal_xl, count_xl, ht]

theorem nakReplayed_dev (d : Die) (q : BitVec 12) (s : State) : (nakReplayed d q s).dev = s.dev := by
  unfold nakReplayed
  extract_lets x t
  have ht : t.dev = s.dev := by
    rw [show t.dev = _ from xreplay_dev _ _ _, countXlink_dev, setDir_dev]
  split
  · exact ht
  · rw [raise_dev, journal_dev, count_dev, ht]

theorem dirTo_nakReplayed (d : Die) (q : BitVec 12) (s : State) :
    dirTo (otherDie d) (nakReplayed d q s) = nakDir (dirTo (otherDie d) s) q ∧ dirTo d (nakReplayed d q s) = dirTo d s := by
  constructor
  · rw [dirTo_congr _ (nakReplayed_xl d q s), dirTo_setDir_same]
  · rw [dirTo_congr _ (nakReplayed_xl d q s), dirTo_setDir_other]

theorem nakReplayed_up_lost (d : Die) (q : BitVec 12) (s : State) :
    (nakReplayed d q s).xl.up = s.xl.up ∧ (nakReplayed d q s).xl.lost = s.xl.lost := by
  rw [nakReplayed_xl]
  exact setDir_up_lost _ _ _

theorem nakReplayed_pending (d : Die) (q : BitVec 12) (s : State) (h : 4 ≤ (dirTo (otherDie d) s).replaysCad) :
    Pending (nakReplayed d q s) 108 := by
  unfold nakReplayed
  extract_lets x t
  rw [if_neg (Nat.not_lt.mpr h)]
  exact raise_sets_pending _ _ (by decide)

/-- What a NAK that loses nothing leaves: one replay more in the sender's direction, reported from the fifth of a cadence on (R16). -/
theorem nakReplayed_left (d : Die) (q : BitVec 12) (s : State) :
    (dirTo (otherDie d) (nakReplayed d q s)).replay = (unacked (dirTo (otherDie d) s) q).map (fun e => (e.1, e.2 + 1)) ∧
    (dirTo (otherDie d) (nakReplayed d q s)).replaysCad = (dirTo (otherDie d) s).replaysCad + 1 ∧
    (4 ≤ (dirTo (otherDie d) s).replaysCad → Pending (nakReplayed d q s) 108) ∧
    (nakReplayed d q s).xl.lost = s.xl.lost ∧ dirTo d (nakReplayed d q s) = dirTo d s := by
  obtain ⟨hsender, hother⟩ := dirTo_nakReplayed d q s
  rw [hsender]
  exact ⟨rfl, rfl, nakReplayed_pending d q s, (nakReplayed_up_lost d q s).2, hother⟩

/-- The sixteenth replay of one flit is the one of a flit that has been replayed fifteen times (R18). -/
theorem replayedOut_nakReplayed (d : Die) (q : BitVec 12) (s : State) :
    replayedOut (otherDie d) (nakReplayed d q s) = true ↔ ∃ e ∈ unacked (dirTo (otherDie d) s) q, 15 ≤ e.2 := by
  unfold replayedOut
  rw [(dirTo_nakReplayed d q s).1]
  simp [nakDir, replayed]

/-! The loss of the crosslink (R12, R14, R18, R19). -/

/-- Every group is asked for a category 1 stop at scale 0, which it takes at once before the feedback cutoff. -/
def lossStops (s : State) : State :=
  let t := forNat (List.range 16) (fun g t => setGov g 0 (noteReason g 7 (reqStopGrp g 1 t))) s
  if s.cad.phase = 0 && s.cad.started then forNat (List.range 16) takeStops t else t

/-- The stops leave the device and the crosslink as they are. -/
theorem lossStops_rest (s : State) : Rest { jrn := true } s (lossStops s) := by
  have hask : Rest { jrn := true } s (forNat (List.range 16) (fun g t => setGov g 0 (noteReason g 7 (reqStopGrp g 1 t))) s) :=
    forNat_rest _ _ _ (fun g t ht => setGov_rest _ _ _ (noteReason_rest _ _ _ (reqStopGrp_rest _ _ _ ht))) (.refl _ s)
  exact ite_rest _ (forNat_rest _ _ _ (fun g t ht => takeStops_rest g t ht rfl) hask) hask

section
variable {src code : Nat} {s : State}

theorem xlinkLostM_running (hm : s.dev.mode ≠ .reset) (hf : s.dev.frozen = false) : xlinkLostM src code s =
    enterFault src code (raise 109 { lossStops s with xl := { (lossStops s).xl with lossRec := some (mkRec src code 3 noObj 0 [] s) } }) := by
  simp only [xlinkLostM, dieMRuns_of_mode hm, hf, Bool.not_true, Bool.false_eq_true, if_false]
  rfl

theorem xlinkLostM_frozen (hm : s.dev.mode ≠ .reset) (hf : s.dev.frozen = true) : xlinkLostM src code s = raise 109 s := by
  simp only [xlinkLostM, dieMRuns_of_mode hm, hf, Bool.not_true, Bool.false_eq_true, if_false, if_true]

theorem xlinkLostM_reset (hm : s.dev.mode = .reset) : xlinkLostM src code s = s := by
  unfold xlinkLostM
  exact if_pos (by simp [dieMRuns, hm])

/-- Die M's reaction neither restores the crosslink nor trains it. -/
theorem xlinkLostM_up_lost : (xlinkLostM src code s).xl.up = s.xl.up ∧ (xlinkLostM src code s).xl.lost = s.xl.lost := by
  by_cases hm : s.dev.mode = .reset
  · rw [xlinkLostM_reset hm]
    exact ⟨rfl, rfl⟩
  cases hf : s.dev.frozen with
  | true =>
    rw [xlinkLostM_frozen hm hf, raise_xl]
    exact ⟨rfl, rfl⟩
  | false =>
    have hxl : (lossStops s).xl = s.xl := (lossStops_rest s).xl_eq rfl
    rw [xlinkLostM_running hm hf, enterFault, modDev_xl, raise_xl, hxl]
    exact ⟨rfl, rfl⟩

theorem xlinkLostM_fault (hm : s.dev.mode ≠ .reset) (hf : s.dev.frozen = false) :
    (xlinkLostM src code s).dev.mode = .fault ∧ Pending (xlinkLostM src code s) 109 := by
  rw [xlinkLostM_running hm hf]
  exact ⟨rfl, raise_sets_pending _ _ (by decide)⟩

/-- Die F's pins and step axes turn safe; of the device island only FAULT_N changes. -/
theorem enterSafe_dev (w : Nat) (s : State) : (enterSafe w s).dev = s.dev ∨ (enterSafe w s).dev = { s.dev with faultN := true } := by
  unfold enterSafe
  split
  · exact .inl rfl
  · refine .inr (congrArg (fun d : DevSt => { d with faultN := true }) ?_)
    exact (forNat_rest (msk := { time := true, jrn := true }) _ _ _ (fun n t ht => stpSafe_rest n t ht rfl)
      (pinsAll_rest _ (cancelDieF_rest _ (.refl _ _) rfl))).dev_eq rfl

/-- The safe state of a lost crosslink is the last that die F enters (R19). -/
theorem enterSafe_two (s : State) : (enterSafe 2 s).io.safe = 2 := by
  unfold enterSafe
  split
  · next h => simpa using h
  · dsimp only
    rw [(forNat_stays (msk := { stp := true }) _ _ _ (fun n t ht => stpSafe_stays n t ht rfl) (.refl _ _)).io.resolve_left
      Bool.false_ne_true, (pinsAll_eq _).2.2.1]
    rfl

/-- What die F does leaves the crosslink, and of die M the mode and whether it is frozen. -/
theorem xlinkLostF_keeps (h : dieFHeld s = false) : (xlinkLostF src code s).xl = s.xl ∧ (xlinkLostF src code s).dev.mode = s.dev.mode ∧
    (xlinkLostF src code s).dev.frozen = s.dev.frozen ∧ (xlinkLostF src code s).io.safe = 2 := by
  have hxl := (xlinkLostF_rest (msk := { time := true, dev := true, jrn := true }) src code s (.refl _ s) rfl rfl rfl).xl_eq rfl
  have heq : xlinkLostF src code s = enterSafe 2 (journalF src code 3 noObj 0 [] s) := if_neg (by simp [h])
  rw [heq] at hxl ⊢
  rcases enterSafe_dev 2 (journalF src code 3 noObj 0 [] s) with hd | hd <;> rw [hd]
  · exact ⟨hxl, rfl, rfl, enterSafe_two _⟩
  · exact ⟨hxl, rfl, rfl, enterSafe_two _⟩

/-- What the loss of the crosslink leaves (R19): both directions down until reset, FAULT in a running die M, only the event in a frozen
one, and die F in its safe state where die M is held in reset. -/
def LossLeft (s t : State) : Prop := t.xl.lost = true ∧ t.xl.up = false ∧
  (s.dev.mode ≠ .reset → s.dev.frozen = false → t.dev.mode = .fault ∧ Pending t 109) ∧
  (s.dev.mode ≠ .reset → s.dev.frozen = true → Pending t 109 ∧ t.dev.mode = s.dev.mode) ∧
  (s.dev.mode = .reset → t.io.safe = 2)

/-- The crosslink down, with every armed action of die F discarded (R265): where both dies begin to react. -/
def linkDown (s : State) : State := freeUnits (·.dieF) { s with xl := { s.xl with lost := true, up := false } }

theorem dieFCause_eq (hl : s.xl.lost = false) (hh : dieFHeld s = false) :
    dieFCause src code s = xlinkLostM src code (xlinkLostF src code (linkDown s)) := if_neg (by simp [hl, hh])

theorem dieFCause_left (hl : s.xl.lost = false) (hh : dieFHeld s = false) : LossLeft s (dieFCause src code s) := by
  obtain ⟨hxl, hmode, hfroz, hsafe⟩ := xlinkLostF_keeps (src := src) (code := code) (s := linkDown s) hh
  rw [dieFCause_eq hl hh]
  generalize xlinkLostF src code (linkDown s) = u at hxl hmode hfroz hsafe ⊢
  have hmode' : u.dev.mode = s.dev.mode := hmode
  obtain ⟨hup, hlost⟩ := xlinkLostM_up_lost (src := src) (code := code) (s := u)
  refine ⟨by rw [hlost, hxl]; rfl, by rw [hup, hxl]; rfl, fun hm hf => ?_, fun hm hf => ?_, fun hm => ?_⟩
  · exact xlinkLostM_fault (hmode'.symm ▸ hm) (hfroz.trans hf)
  · rw [xlinkLostM_frozen (hmode'.symm ▸ hm) (hfroz.trans hf), raise_dev]
    exact ⟨raise_sets_pending _ _ (by decide), hmode'⟩
  · rw [xlinkLostM_reset (hmode'.trans hm), hsafe]

theorem xlinkLoss_up (h : s.xl.up = true) : xlinkLoss src code s = dieFCause src code s := if_pos h

theorem xlinkLoss_down (h : s.xl.up = false) : xlinkLoss src code s = s := if_neg (by simp [h])

end

/-- Where no flit reaches its sixteenth replay, a NAK costs a replay in the cadence and no more. -/
theorem xlinkNak_replays (d : Die) (q : BitVec 12) {s : State} (hu : s.xl.up = true)
    (h : ∀ e ∈ unacked (dirTo (otherDie d) s) q, e.2 < 15) : xlinkNak d q s = nakReplayed d q s := by
  rw [xlinkNak_eq d q hu, if_neg]
  rw [replayedOut_nakReplayed]
  rintro ⟨e, he, h15⟩
  have := h e he
  omega

/-- The sixteenth replay of one flit loses the crosslink. -/
theorem xlinkNak_loses (d : Die) (q : BitVec 12) {s : State} (hu : s.xl.up = true) (hl : s.xl.lost = false) (hh : dieFHeld s = false)
    (h : ∃ e ∈ unacked (dirTo (otherDie d) s) q, 15 ≤ e.2) : (xlinkNak d q s).xl.lost = true := by
  obtain ⟨hup, hlost⟩ := nakReplayed_up_lost d q s
  have hheld : dieFHeld (nakReplayed d q s) = false := by
    unfold dieFHeld
    rw [nakReplayed_dev]
    exact hh
  rw [xlinkNak_eq d q hu, if_pos ((replayedOut_nakReplayed d q s).mpr h), xlinkLoss_up (hup.trans hu)]
  exact (dieFCause_left (hlost.trans hl) hheld).1

/-- Settles O48: flits, NAKs, the time alignment and the loss, a clause each. That a loss is pending in a frozen device, and that
F_LOCKSTEP acts without a trained link, is log entry 44 of the model. -/
theorem crosslink : Obligations.Crosslink := by
  intro s
  refine ⟨?_, ?_, ?_, ?_, ?_, ?_, ?_, ?_⟩
  · exact fun d f hu hk => ⟨_, rfl, xlinkFlit_accepts hu hk⟩
  · exact fun d f hu hk => ⟨_, rfl, xlinkFlit_rejects hu hk⟩
  · exact fun d q hu h => ⟨_, congrArg Host.Outcome.next (xlinkNak_replays d q hu h), nakReplayed_left d q s⟩
  · exact fun d q hu hl hh h => ⟨_, rfl, xlinkNak_loses d q hu hl hh h⟩
  · exact fun e hc => congrArg Host.Outcome.next (if_pos hc)
  · rintro i (rfl | rfl | rfl) hu hl hh
    · exact ⟨_, congrArg Host.Outcome.next (xlinkLoss_up (hu.resolve_right Instr.noConfusion)), dieFCause_left hl hh⟩
    · exact ⟨_, rfl, dieFCause_left hl hh⟩
    · exact ⟨_, congrArg Host.Outcome.next (xlinkLoss_up (hu.resolve_right Instr.noConfusion)), dieFCause_left hl hh⟩
  · exact fun hu => ⟨congrArg Host.Outcome.next (xlinkLoss_down hu), congrArg Host.Outcome.next (xlinkLoss_down hu)⟩
  · exact fun h => congrArg Host.Outcome.next (if_pos (by simpa using h))

end Sys2Proof.Machine

namespace Sys2Proof.Machine

/-! Commands whose whole act waits for its promise time (R32, R75). -/

/-- What a posted command leaves is, but for a completion, the state in which its effect waits. -/
theorem waiting_quiet {sp : CmdSpec} {r : CmdRef} {s t : State} (q : Quiet s t) (ha : t.admitSeq = s.admitSeq + 1) :
    Quiet (waiting sp r s) (post (cmdOf sp r s) t) := by
  have h := post_quiet (cmdOf sp r s) q
  rw [ha] at h
  exact h

/-- An accepted command that posts its effect and then does `g`, an act that leaves the mailboxes and BAR2, answers `res` and waits. -/
theorem accepted_waits_then {i : Instr} {sp : CmdSpec} {r : CmdRef} {s u : State} {res : List Byte} (g : State → State)
    (hex : exec i s = .next (runCmd sp r s)) (h : Accepted sp r s)
    (hact : ∀ t, ∃ adj, (sp.body (cmdOf sp r s) s).act t = { s := g (post (cmdOf sp r s) t), res := res, adjusted := adj })
    (hhost : ∀ t, (g t).host.mb = t.host.mb ∧ (g t).host.bar2 = t.host.bar2)
    (hg : ∀ t, Quiet (waiting sp r s) t → Quiet u (g t)) : Does i r s res u := by
  refine accepted_does hex h (fun t q ha hh _ => ?_)
  obtain ⟨adj, e⟩ := hact t
  obtain ⟨hmb, hbar⟩ := hhost (post (cmdOf sp r s) t)
  have hpost : (post (cmdOf sp r s) t).host = s.host := hh
  rw [e]
  exact ⟨rfl, rfl, rfl, hmb.trans (by rw [hpost]), hbar.trans (by rw [hpost]), hg _ (waiting_quiet q ha)⟩

/-- An accepted command that only posts its effect answers `res` and waits. -/
theorem accepted_waits {i : Instr} {sp : CmdSpec} {r : CmdRef} {s : State} {res : List Byte}
    (hex : exec i s = .next (runCmd sp r s)) (h : Accepted sp r s)
    (hact : ∀ t, (sp.body (cmdOf sp r s) s).act t = { s := post (cmdOf sp r s) t, res := res }) : Does i r s res (waiting sp r s) :=
  accepted_waits_then id hex h (fun t => ⟨false, hact t⟩) (fun _ => ⟨rfl, rfl⟩) (fun _ q => q)

/-! The ledger and the effects that wait change independently of each other. -/

/-- The state with other effects waiting. -/
def withEff (l : List Eff) (s : State) : State := { s with eff := l }

theorem fireVector_withEff (v : Nat) (l : List Eff) (s : State) : fireVector v (withEff l s) = withEff l (fireVector v s) := by
  by_cases h : tget 0 s.evt.sent v = now s + 1
  · rw [show fireVector v s = s from if_pos h]
    exact if_pos h
  by_cases hm : vectorMasked s v = true
  · rw [show fireVector v s = _ from (if_neg h).trans (if_pos hm)]
    exact (if_neg h).trans (if_pos hm)
  · rw [show fireVector v s = _ from (if_neg h).trans (if_neg hm)]
    exact (if_neg h).trans (if_neg hm)

theorem raise_withEff (e : Nat) (l : List Eff) (s : State) : raise e (withEff l s) = withEff l (raise e s) := by
  by_cases h : (!s.evt.pend.getLsbD e && !s.evt.mask.getLsbD e) = true
  · rw [show raise e s = _ from if_pos h, ← fireVector_withEff]
    exact if_pos h
  · rw [show raise e s = _ from if_neg h]
    exact if_neg h

theorem raiseIf_withEff (b : Bool) (e : Nat) (l : List Eff) (s : State) : raiseIf b e (withEff l s) = withEff l (raiseIf b e s) := by
  cases b with
  | true => exact raise_withEff e l s
  | false => rfl

theorem noteDepth_withEff (k : Nat) (l : List Eff) (s : State) : noteDepth k (withEff l s) = withEff l (noteDepth k s) := by
  unfold noteDepth
  dsimp only
  rw [← raiseIf_withEff]
  rfl

theorem forNat_noteDepth_withEff (n : List Nat) (l : List Eff) (s : State) :
    forNat n noteDepth (withEff l s) = withEff l (forNat n noteDepth s) :=
  List.foldl_hom (withEff l) (fun t k => noteDepth_withEff k l t)

theorem setShares_withEff (l : List Share) (e : List Eff) (s : State) : setShares l (withEff e s) = withEff e (setShares l s) := by
  unfold setShares
  exact forNat_noteDepth_withEff _ e { s with sch := { s.sch with shares := l } }

@[simp] theorem fireVector_admitSeq (v : Nat) (s : State) : (fireVector v s).admitSeq = s.admitSeq := by
  unfold fireVector
  split
  · rfl
  · split <;> rfl

@[simp] theorem raise_admitSeq (e : Nat) (s : State) : (raise e s).admitSeq = s.admitSeq := by
  unfold raise
  dsimp only
  split
  · exact fireVector_admitSeq _ _
  · rfl

@[simp] theorem setShares_admitSeq (l : List Share) (s : State) : (setShares l s).admitSeq = s.admitSeq := by
  refine forNat_keeps (fun t : State => t.admitSeq) noteDepth (fun k t => ?_) _ _
  unfold noteDepth raiseIf
  dsimp only
  split
  · exact raise_admitSeq _ _
  · rfl

/-- Placing shares and then posting an effect is posting it and then placing them. -/
theorem post_setShares (c : Cmd) (l : List Share) (s : State) : post c (setShares l s) = setShares l (post c s) := by
  have he : post c (setShares l s) = withEff (s.eff ++ [effOf c s]) (setShares l s) := by
    unfold post withEff effOf
    rw [setShares_admitSeq, setShares_eff]
  rw [he, ← setShares_withEff]
  rfl

/-- Placing shares leaves the mailboxes and BAR2. -/
theorem setShares_host (l : List Share) (s : State) : (setShares l s).host.mb = s.host.mb ∧ (setShares l s).host.bar2 = s.host.bar2 :=
  ⟨setShares_mb l s, setShares_bar2 l s⟩

/-- Settles O29: sig.map and sig.write wait, sig.watch waits with its share placed, and sig.read answers the image. That the WATCH task
has a share of the ledger is log entry 58 of the model. -/
theorem sigCommandsComplete : Obligations.SigCommandsComplete := by
  intro r s
  refine ⟨fun _ => ⟨_, rfl⟩, fun _ => ⟨_, rfl⟩, fun _ => ⟨_, rfl⟩, fun _ => ⟨_, rfl⟩, ?_, ?_, ?_, ?_⟩
  · exact fun h => accepted_waits rfl h (fun _ => rfl)
  · exact fun h => accepted_does rfl h (fun t q _ hh _ => ⟨rfl, rfl, rfl, congrArg HostSt.mb hh, congrArg HostSt.bar2 hh, q⟩)
  · exact fun h => accepted_waits rfl h (fun _ => rfl)
  · intro h
    refine accepted_waits_then (fun t => setShares ((regrade s _).getD t.sch.shares) t) rfl h
      (fun t => ⟨false, congrArg (fun u => ({ s := u } : Act)) (post_setShares _ _ t)⟩) (fun _ => setShares_host _ _) (fun t q => ?_)
    rw [q.sch]
    exact setShares_quiet _ q

/-! The axis commands. -/

theorem modAxis_quiet (a : Nat) (f : AxisSt → AxisSt) {s t : State} (q : Quiet s t) : Quiet (modAxis a f s) (modAxis a f t) :=
  have h : (modAxis a f t).axes = (modAxis a f s).axes := by
    unfold modAxis setAxis
    rw [axisOf_congr' a q.axes, q.axes]
  { q with axes := h }

/-- ARRIVAL as axis.move answers it. -/
theorem axisArrival_eq (s : State) (a due : Nat) (p : List Byte) : axisArrival s a due p =
    due + applyOf s a + (match (axisMotion (pairLim s a) 0x0807 p due (axisPredict s a due)).prof with
      | some pr => (nsOfSec pr.2.2.dur).toNat
      | none => 0) := by
  unfold axisArrival
  dsimp only
  split <;> simp [*]

/-- Settles O30: axis.configure writes the axis, the other commands wait, axis.close with its loop placed, axis.move with ARRIVAL and
axis.set_limits with DEFERRED (R103) in the result. -/
theorem axisCommandsComplete : Obligations.AxisCommandsComplete := by
  intro r s
  refine ⟨fun _ => ⟨_, rfl⟩, fun _ => ⟨_, rfl⟩, fun _ => ⟨_, rfl⟩, fun _ => ⟨_, rfl⟩, fun _ => ⟨_, rfl⟩, fun _ => ⟨_, rfl⟩,
    fun _ => ⟨_, rfl⟩, fun _ => ⟨_, rfl⟩, fun _ => ⟨_, rfl⟩, ?_, ?_, ?_, ?_, ?_, ?_, ?_, ?_, ?_⟩
  · exact fun h => accepted_does rfl h (fun t q _ hh _ =>
      ⟨rfl, rfl, rfl, congrArg HostSt.mb hh, congrArg HostSt.bar2 hh, modAxis_quiet _ _ q⟩)
  · exact fun h => accepted_waits rfl h (fun _ => rfl)
  · exact fun h => accepted_waits rfl h (fun _ => rfl)
  · exact fun h => accepted_waits_then (setShares ((placeOne s 0 s.sch.shares (loopShare s (objectOf r s))).getD [])) rfl h
      (fun _ => ⟨false, rfl⟩) (fun _ => setShares_host _ _) (fun _ q => setShares_quiet _ q)
  · exact fun h => accepted_waits rfl h (fun _ => rfl)
  · exact fun h => accepted_waits rfl h (fun _ => rfl)
  · intro h
    rw [axisArrival_eq]
    exact accepted_waits rfl h (fun _ => rfl)
  · exact fun h => accepted_waits_then (raiseIf (_ && (hdrOf s r.mb r.slot).noEvent) r.mb) rfl h (fun _ => ⟨_, rfl⟩)
      (fun _ => raiseIf_host _ _ _) (fun _ q => q.trans (raiseIf_quiet _ _ _))
  · exact fun h => accepted_waits rfl h (fun _ => rfl)

end Sys2Proof.Machine

namespace Sys2Proof.Machine

/-! What the shared operations of axes, groups, step axes and traces leave. -/

/-- Once some number of a list brings about `P` from `Q`, `P` stands after the whole list, where the other numbers keep `Q` and all
keep `P`. -/
theorem forNat_establishes {P Q : State → Prop} {f : Nat → State → State} {n : Nat} (hself : ∀ t, Q t → P (f n t))
    (hother : ∀ m t, m ≠ n → Q t → Q (f m t)) (hkeep : ∀ m t, P t → P (f m t)) :
    ∀ {l : List Nat} {s : State}, n ∈ l → Q s → P (forNat l f s) := by
  have keep : ∀ (l : List Nat) t, P t → P (forNat l f t) := by
    intro l
    induction l with
    | nil => exact fun _ h => h
    | cons m l ih => exact fun t h => ih _ (hkeep m t h)
  intro l
  induction l with
  | nil => exact fun h => absurd h List.not_mem_nil
  | cons m l ih =>
    intro s hn hs
    by_cases hm : m = n
    · subst hm
      exact keep l _ (hself s hs)
    · exact ih ((List.mem_cons.mp hn).resolve_left (fun e => hm e.symm)) (hother m s hm hs)

/-- A table whose entries are all changed alike, a change that leaves the default value, reads as the changed entry. -/
theorem tget_map_snd {α : Type} (d : α) (f : α → α) (hd : f d = d) (t : Tab α) (k : Nat) :
    tget d (t.map (fun e => (e.1, f e.2))) k = f (tget d t k) := by
  induction t with
  | nil => exact hd.symm
  | cons e t ih =>
    obtain ⟨a, x⟩ := e
    simp only [List.map_cons, tget]
    split
    · rfl
    · exact ih

theorem axisOf_modAxis_self (a : Nat) (f : AxisSt → AxisSt) (s : State) : axisOf (modAxis a f s) a = f (axisOf s a) := by
  rw [modAxis_axisOf, if_pos rfl]

theorem axisOf_modAxis_other {a b : Nat} (f : AxisSt → AxisSt) (s : State) (h : b ≠ a) : axisOf (modAxis a f s) b = axisOf s b := by
  rw [modAxis_axisOf, if_neg h]

@[simp] theorem axisOf_advanceTo (t a : Nat) (s : State) : axisOf (advanceTo t s) a = axisOf s a := axisOf_congr' a (advanceTo_axes t s)

@[simp] theorem axisOf_freeLoop (a b : Nat) (s : State) : axisOf (freeLoop a s) b = axisOf s b := by
  unfold freeLoop freeShares
  exact axisOf_congr' b (setShares_axes _ s)

theorem groupOf_congr {s t : State} (a : Nat) (h : t.grps = s.grps) : groupOf t a = groupOf s a := by
  unfold groupOf members
  simp only [grpOf_congr _ h]

/-- A fault reason that is found late stands behind the others of its axis, and no other axis changes. -/
theorem reqFault_advanceTo (a code u : Nat) (s : State) :
    axisOf (reqFault a code (advanceTo u s)) a = { axisOf s a with faults := (axisOf s a).faults ++ [code] } ∧
    ∀ b, b ≠ a → axisOf (reqFault a code (advanceTo u s)) b = axisOf s b := by
  constructor
  · exact (axisOf_modAxis_self _ _ _).trans (by rw [axisOf_advanceTo])
  · exact fun b hb => (axisOf_modAxis_other _ _ hb).trans (axisOf_advanceTo _ _ _)

/-! Groups. -/

theorem grpTo_outcome (g : Nat) (st : GrpState) (s : State) : (grpOf (grpTo g st s) g).outcome = (grpOf s g).outcome := by
  unfold grpTo
  dsimp only
  split
  · rfl
  · rw [grpEvent_grp, grpOf_setGrp, if_pos rfl]

theorem grpTo_pending {g : Nat} {st : GrpState} {s : State} (h : (grpOf s g).state ≠ st) (hg : g < 16) : Pending (grpTo g st s) (16 + g) := by
  unfold grpTo
  rw [if_neg h]
  exact raise_sets_pending _ _ (by omega)

theorem preemptAll_state (g : Nat) (l : List MpcTarget) (s : State) : (grpOf (preemptAll g l s) g).state = (grpOf s g).state := by
  unfold preemptAll
  induction l generalizing s with
  | nil => rfl
  | cons w l ih =>
    refine (ih _).trans ?_
    unfold preempted
    rw [grpEvent_grp, grpOf_congr g (journal_grps _ _ _ _ _ _ _)]

theorem beginStop_state (g cat : Nat) (o : GrpState) (s : State) : (grpOf (beginStop g cat o s) g).state = .stopping :=
  (preemptAll_state _ _ _).trans (grpTo_state _ _ _)

/-! Step axes. -/

theorem stpOf_congr {s t : State} (n : Nat) (h : t.stp = s.stp) : stpOf t n = stpOf s n := by
  unfold stpOf
  rw [h]

/-- A step axis is replaced; where its balls change, that leaves the device. -/
theorem stpPut_cases (n : Nat) (y : StpAxis) (s : State) :
    stpPut n y s = setStp n y s ∨ stpPut n y s = emit .pin (272 + n) (stpPins y) (setStp n y s) := by
  unfold stpPut
  split
  · exact .inl rfl
  · exact .inr rfl

theorem stpOf_stpPut (n m : Nat) (y : StpAxis) (s : State) : stpOf (stpPut n y s) m = if m = n then y else stpOf s m := by
  rcases stpPut_cases n y s with h | h <;> rw [h]
  · exact stpOf_setStp _ _ _ _
  · exact (stpOf_congr m (emit_stp _ _ _ _)).trans (stpOf_setStp _ _ _ _)

theorem stpOf_stpEvent (n m : Nat) (c : BitVec 8) (s : State) :
    stpOf (stpEvent n c s) m = if m = n then { stpOf s n with cause := (stpOf s n).cause ||| c } else stpOf s m := by
  unfold stpEvent
  rw [stpOf_congr m (raise_stp _ _), stpOf_setStp]

/-- A step axis that changes its state keeps everything but the cause of its event; the other step axes stay. -/
theorem stpOf_stpGo (n : Nat) (st : StpState) (s : State) :
    (∃ c, stpOf (stpGo n st s) n = { stpOf s n with state := st, cause := c }) ∧ ∀ m, m ≠ n → stpOf (stpGo n st s) m = stpOf s m := by
  unfold stpGo
  dsimp only
  split
  · next h => exact ⟨⟨(stpOf s n).cause, by rw [← h]⟩, fun _ _ => rfl⟩
  · refine ⟨⟨(stpOf s n).cause ||| 0x01, ?_⟩, fun m hm => ?_⟩
    · rw [stpOf_stpEvent, if_pos rfl, stpOf_stpPut, if_pos rfl]
    · rw [stpOf_stpEvent, if_neg hm, stpOf_stpPut, if_neg hm]

/-! Traces and injections. -/

@[simp] theorem sesOf_raise (e : Nat) (s : State) (k : Nat) : sesOf (raise e s) k = sesOf s k := by
  unfold sesOf
  rw [raise_trc_eq]

@[simp] theorem injOf_raise (e : Nat) (s : State) (a : Nat) : injOf (raise e s) a = injOf s a := by
  unfold injOf
  rw [raise_trc_eq]

@[simp] theorem sesOf_freeTriggers (k j : Nat) (s : State) : sesOf (freeTriggers k s) j = sesOf s j := rfl

@[simp] theorem injOf_setShares (l : List Share) (s : State) (a : Nat) : injOf (setShares l s) a = injOf s a := by
  refine forNat_keeps (fun t : State => injOf t a) noteDepth (fun k t => ?_) _ _
  unfold noteDepth raiseIf
  dsimp only
  split
  · exact injOf_raise _ _ _
  · rfl

/-- A completion leaves the response measurement that runs. -/
theorem complete_frf (m k : Nat) (st : Status) (time state : Nat) (res : List Byte) (s : State) :
    (complete m k st time state res s).trc.frf = s.trc.frf := by
  by_cases hm : m = imageMb
  · unfold complete
    rw [if_pos hm]
    rfl
  · have h : (_ : TrcSt).frf = _ := congrArg TrcSt.frf (complete_quiet m k st time state res s hm).trc
    exact h

/-! The rows of axes and groups (R66, R72, R115). -/

theorem enableTimeout_late {a w : Nat} {s : State} (hs : (axisOf s a).state = .disabled) (he : (axisOf s a).enable = some w) :
    enableTimeout a s = reqFault a 0x04 (advanceTo (w + 1000000 * (axisOf s a).cfg.tEn) s) := by
  unfold enableTimeout
  simp only [hs, he]

theorem disableTimeout_late {a w : Nat} {s : State} (hs : (axisOf s a).state = .stopping) (hd : (axisOf s a).disable = some w) :
    disableTimeout a s = reqFault a 0x05 (advanceTo (w + 1000000 * (axisOf s a).cfg.tEn) s) := by
  unfold disableTimeout
  simp only [hs, hd]

/-- A group of one axis that is not CLOSED in time faults that axis. -/
theorem groupEnableTimeout_late {g a : Nat} {s : State} (hs : (grpOf s g).state = .enabling) (hm : members s g = [a])
    (ha : (axisOf s a).state ≠ .closed) : groupEnableTimeout g s =
      reqFault a 0x04 (advanceTo ((grpOf s g).enableAt + 1000000 * ((axisOf s a).cfg.tEn + 10)) s) := by
  unfold groupEnableTimeout
  simp [hm, ha, hs, forNat]

theorem groupSettled_marks {g : Nat} {s : State} (hs : (grpOf s g).state = .moving) (harr : arrived (grpOf s g) = true)
    (hall : (members s g).all (fun a => (axisOf s a).inWin && decide (nsOfSec (axisOf s a).cfg.settleTime ≤ (axisOf s a).settledNs)) = true) :
    groupSettled g s = modGrp g (fun x => { x with settled := true }) s := by
  unfold groupSettled
  dsimp only
  rw [if_neg]
  simp [hs, harr, hall]

/-- A settled group that does not plan by MPC becomes READY with its moves over. -/
theorem grpSettle_ready {g : Nat} {s : State} (harr : arrived (grpOf s g) = true) (hmpc : (grpOf s g).mpc = false) :
    grpSettle g s = grpTo g .ready (resetMotion g (modGrp g (fun y => { y with settled := false }) s)) := by
  unfold grpSettle
  dsimp only
  rw [grpOf_modGrp_self]
  refine (if_neg (fun h => ?_)).trans (if_neg (by simp [hmpc]))
  have hnot : (!arrived (grpOf s g)) = true := h
  simp [harr] at hnot

theorem grpSettle_left {g : Nat} {s : State} (hg : g < 16) (hs : (grpOf s g).state = .moving) (hmpc : (grpOf s g).mpc = false)
    (harr : arrived (grpOf s g) = true) :
    (grpOf (grpSettle g s) g).state = .ready ∧ (grpOf (grpSettle g s) g).moves = [] ∧ Pending (grpSettle g s) (16 + g) := by
  rw [grpSettle_ready harr hmpc]
  have hrest : (grpOf (resetMotion g (modGrp g (fun y => { y with settled := false }) s)) g).moves = [] ∧
      (grpOf (resetMotion g (modGrp g (fun y => { y with settled := false }) s)) g).state = .moving := by
    unfold resetMotion
    rw [grpOf_modGrp_self, grpOf_modGrp_self]
    exact ⟨rfl, hs⟩
  refine ⟨grpTo_state _ _ _, (grpTo_keep _ _ _).1.trans hrest.1, grpTo_pending ?_ hg⟩
  rw [hrest.2]
  exact GrpState.noConfusion

/-! The rows of inputs and homing (R124, R127, R129, R201). -/

/-- An axis without a group that runs into a limit input asks for a stop of its own, and nothing else changes. -/
theorem limitStop_ungrouped {a : Nat} {s : State} (h : groupOf s a = none) : limitStop a s = s ∨ limitStop a s = reqStopAxis a 2 s := by
  unfold limitStop
  rw [h]
  dsimp only
  split
  · exact .inl rfl
  · split
    · exact .inr rfl
    · exact .inl rfl

/-- The one axis that reads a channel takes its level once its own filter time is over. -/
theorem inputQualified_one {c a q : Nat} {s : State} (hr : readersOf s c = ([(a, q)], []))
    (hlt : (chanOf s c).seenEdge + 1000000 * q < 2 ^ 64) :
    inputQualified c s = axisQualify c a (advanceTo ((chanOf s c).seenEdge + 1000000 * q) s) := by
  have hdue : (chanOf s c).seenEdge + 1000000 * q ≤ now (advanceTo ((chanOf s c).seenEdge + 1000000 * q) s) := now_advanceTo _ _ hlt
  unfold inputQualified
  simp [hr, hdue, forNat]

theorem inputQualified_none {c : Nat} {s : State} (hr : readersOf s c = ([], [])) : inputQualified c s = s := by
  unfold inputQualified
  rw [hr]
  rfl

theorem axisQualify_ungrouped {c a : Nat} {s : State} (h : groupOf s a = none) : axisQualify c a s =
    limitStop a (modAxis a (fun x => { x with quals := setQual x.quals c (chanOf s c).seen (chanOf s c).seenEdge }) s) := by
  unfold axisQualify
  dsimp only
  rw [groupOf_congr a (modAxis_grps _ _ _), h]

/-- What the qualified level of an input leaves on an axis without a group. -/
theorem axisQualify_left {c a : Nat} {s : State} (h : groupOf s a = none) :
    (axisOf (axisQualify c a s) a).quals = setQual (axisOf s a).quals c (chanOf s c).seen (chanOf s c).seenEdge ∧
    now (axisQualify c a s) = now s ∧ (∀ b, b ≠ a → axisOf (axisQualify c a s) b = axisOf s b) ∧
    (axisQualify c a s).grps = s.grps ∧ (axisQualify c a s).io = s.io := by
  rw [axisQualify_ungrouped h]
  generalize hu : modAxis a _ s = u
  have hself : (axisOf u a).quals = setQual (axisOf s a).quals c (chanOf s c).seen (chanOf s c).seenEdge := by
    rw [← hu, axisOf_modAxis_self]
  have hother : ∀ b, b ≠ a → axisOf u b = axisOf s b := fun b hb => by rw [← hu, axisOf_modAxis_other _ _ hb]
  have hrest : now u = now s ∧ u.grps = s.grps ∧ u.io = s.io := by
    rw [← hu]
    exact ⟨rfl, rfl, rfl⟩
  obtain ⟨hnow, hgrps, hio⟩ := hrest
  rcases limitStop_ungrouped ((groupOf_congr a hgrps).trans h) with e | e <;> rw [e]
  · exact ⟨hself, hnow, hother, hgrps, hio⟩
  · unfold reqStopAxis
    refine ⟨?_, hnow, fun b hb => ?_, hgrps, hio⟩
    · rw [axisOf_modAxis_self]
      exact hself
    · rw [axisOf_modAxis_other _ _ hb]
      exact hother b hb

/-- What CHATTER of channel `c` does to step axis `n`: its homing fails where it reads the channel through a filter. -/
def chatterStep (c n : Nat) (t : State) : State :=
  let x := stpOf t n
  if x.home ≠ .none && x.tQ ≠ 0 && (c = x.homeCh || c = x.limP || c = x.limN) then stpHomeFail n 2 (startFrom t 1 (now t)) t else t

/-- With no axis homing, CHATTER concerns the step axes only. -/
theorem chatter_steps {c : Nat} {s : State} (h : ∀ a ∈ tkeys s.axes, homing (axisOf s a) = false) :
    chatter c s = forNat (List.range 16) (chatterStep c) s := by
  have hnone : (tkeys s.axes).filter (fun a => usesInput s a c && (axisOf s a).cfg.tQ ≠ 0 && homing (axisOf s a)) = [] :=
    List.filter_eq_nil_iff.mpr (fun a ha => by simp [h a ha])
  unfold chatter
  rw [hnone]
  rfl

theorem chatterStep_other {c n m : Nat} (t : State) (h : m ≠ n) : stpOf (chatterStep c m t) n = stpOf t n := by
  unfold chatterStep
  dsimp only
  split
  · rw [stpHomeFail_stp, if_neg (Ne.symm h)]
  · rfl

theorem chatterStep_fails {c n : Nat} {t : State} (hh : (stpOf t n).home ≠ .none) (hq : (stpOf t n).tQ ≠ 0) (hc : c = (stpOf t n).homeCh) :
    (stpOf (chatterStep c n t) n).homeReason = 2 := by
  unfold chatterStep
  dsimp only
  rw [if_pos (by simp [hh, hq, hc]), stpHomeFail_stp, if_pos rfl]

/-- A step axis whose homing has failed by CHATTER keeps that reason. -/
theorem chatterStep_keeps {c n : Nat} (m : Nat) {t : State} (h : (stpOf t n).homeReason = 2) : (stpOf (chatterStep c m t) n).homeReason = 2 := by
  by_cases hm : m = n
  · subst hm
    unfold chatterStep
    dsimp only
    split
    · rw [stpHomeFail_stp, if_pos rfl]
    · exact h
  · rw [chatterStep_other t hm, h]

theorem chatter_fails {c n : Nat} {s : State} (hn : n < 16) (h : ∀ a ∈ tkeys s.axes, homing (axisOf s a) = false)
    (hh : (stpOf s n).home ≠ .none) (hq : (stpOf s n).tQ ≠ 0) (hc : c = (stpOf s n).homeCh) : (stpOf (chatter c s) n).homeReason = 2 := by
  rw [chatter_steps h]
  refine forNat_establishes (P := fun t => (stpOf t n).homeReason = 2) (Q := fun t => stpOf t n = stpOf s n) (n := n)
    (fun t e => ?_) (fun m t hm e => (chatterStep_other t hm).trans e) (fun m _ => chatterStep_keeps m) (List.mem_range.mpr hn) rfl
  exact chatterStep_fails (e ▸ hh) (e ▸ hq) (e ▸ hc)

/-- A search that has gone its distance fails at the next cadence start. -/
theorem notFound_later {a g : Nat} {s : State} (hg : groupOf s a = some g) (hs : (grpOf s g).state = .homing) (hx : searching (axisOf s a) = true)
    (hd : (axisOf s a).cfg.searchDist * 2 ^ 48 ≤ fabs ((axisOf s a).cmdP - (axisOf s a).homeStart)) (hf : (grpOf s g).homeFailed = none) :
    notFound a s = modGrp g (fun x => { x with homeFailed := some (a, 3) }) s := by
  unfold notFound
  rw [hg]
  dsimp only
  rw [if_pos (Bool.and_eq_true_iff.mpr ⟨hx, decide_eq_true hd⟩)]
  unfold homeFailLater modGrp
  exact congrArg (fun x => setGrp g x s) (if_pos (by simp [hs, hf]))

/-- A homing failure stops the group and leaves its reason and axis. -/
theorem homeFail_left {g : Nat} (a reason : Nat) {s : State} (hs : (grpOf s g).state = .homing) :
    (grpOf (homeFail g a reason s) g).state = .stopping ∧ (grpOf (homeFail g a reason s) g).homeReason = reason ∧
    (grpOf (homeFail g a reason s) g).homeAxis = a := by
  have hres : HomeResult g reason a (modGrp g (fun y => { y with homeReason := reason, homeAxis := a }) s) := by
    unfold HomeResult
    rw [grpOf_modGrp_self]
    exact ⟨rfl, rfl⟩
  unfold homeFail
  dsimp only
  rw [if_neg (fun h => h hs), grpEvent_grp, grpOf_congr g (journal_grps _ _ _ _ _ _ _)]
  exact ⟨beginStop_state _ _ _ _, hres.begin⟩

theorem hardStopLatch_backs {a g : Nat} {s : State} (hg : groupOf s a = some g) (hm : (axisOf s a).cfg.homeMode = 3)
    (hh : (axisOf s a).home = .search) (ht : (axisOf s a).cfg.torqueThr ≤ fabs (torqueAct (axisOf s a))) :
    (axisOf (hardStopLatch a s) a).home = .backoff := by
  unfold hardStopLatch
  rw [hg]
  dsimp only
  rw [if_pos (by simp [hm, hh, ht])]
  unfold homeGo
  rw [axisOf_modAxis_self]

/-! The rows of injections and traces (R193, R203). -/

theorem injComplete_left {a : Nat} {i : Inject} {s : State} (hi : injOf s a = some i) (hr : i.running = true) (hn : u32 i.p 8 ≤ i.n)
    (hs : i.stop = none) : injOf (injComplete a s) a = none ∧ Pending (injComplete a s) 67 := by
  have hend : injComplete a s = raise 67 (chargeInj a false (setInj a none s)) := by
    unfold injComplete
    rw [hi]
    dsimp only
    rw [if_pos (by simp [hr, hn])]
    unfold injEnd
    rw [hi]
    dsimp only
    rw [hs]
  rw [hend]
  refine ⟨?_, raise_sets_pending _ _ (by decide)⟩
  rw [injOf_raise, chargeInj, injOf_setShares, injOf_setInj, if_pos rfl]

theorem frfComplete_ends {f : Frf} {s : State} (h : s.trc.frf = some f) : (frfComplete s).trc.frf = none := by
  unfold frfComplete
  rw [h]
  exact complete_frf _ _ _ _ _ _ _

theorem trcFull_stops {k : Nat} {s : State} (hs : (sesOf s k).state = .triggered)
    (hl : (sesOf s k).length - (sesOf s k).pre ≤ (sesOf s k).after) : trcFull k s =
      raise 74 (freeTriggers k (setSes k { sesOf s k with state := .stopped, reason := 1, acc := [], raw := none } s)) := by
  unfold trcFull
  exact if_pos (by simp [hs, hl])

theorem sesOf_trcFull {k : Nat} {s : State} (hs : (sesOf s k).state = .triggered)
    (hl : (sesOf s k).length - (sesOf s k).pre ≤ (sesOf s k).after) (j : Nat) : sesOf (trcFull k s) j =
      if j = k then { sesOf s k with state := .stopped, reason := 1, acc := [], raw := none } else sesOf s j := by
  rw [trcFull_stops hs hl, sesOf_raise, sesOf_freeTriggers, sesOf_setSes]

theorem trcFull_pending {k : Nat} {s : State} (hs : (sesOf s k).state = .triggered)
    (hl : (sesOf s k).length - (sesOf s k).pre ≤ (sesOf s k).after) : Pending (trcFull k s) 74 := by
  rw [trcFull_stops hs hl]
  exact raise_sets_pending _ _ (by decide)

/-! The rows of the step axes (R348, R351). -/

theorem stpRecords_carried {s : State} (hx : xlinkCarries s = true) (hs : s.io.safe = 0) :
    stpRecords s = { s with stp := s.stp.map (fun e => (e.1, { e.2 with segment := e.2.sent, sent := none })) } := by
  unfold stpRecords
  exact if_neg (by simp [hx, hs])

theorem stpOf_stpRecords {s : State} (hx : xlinkCarries s = true) (hs : s.io.safe = 0) (n : Nat) :
    stpOf (stpRecords s) n = { stpOf s n with segment := (stpOf s n).sent, sent := none } := by
  rw [stpRecords_carried hx hs]
  exact tget_map_snd {} (fun x : StpAxis => { x with segment := x.sent, sent := none }) rfl s.stp n

theorem stpHold_asserts {n w : Nat} {s : State} (hz : (stpOf s n).zeroSince = some w) (hs : (stpOf s n).state = .ready)
    (hd : (stpOf s n).holdDelay ≠ 0) (hh : (stpOf s n).hold = false) (hl : (stpOf s n).late = []) (hq : (stpOf s n).queue = []) :
    stpHold n s = stpPut n { stpOf s n with hold := true } (advanceTo (w + 1000000 * (stpOf s n).holdDelay) s) := by
  unfold stpHold
  simp [hz, hs, hd, hh, hl, hq]

/-- Replacing a step axis at a later instant changes the step axes, the time and what leaves the device. -/
theorem stpPut_advanceTo_frame (n t : Nat) (y : StpAxis) (s : State) :
    { stpPut n y (advanceTo t s) with stp := s.stp, time := s.time, out := s.out } = s := by
  rcases stpPut_cases n y (advanceTo t s) with h | h <;> rw [h] <;> unfold advanceTo <;> split <;> rfl

/-- Settles O59, a clause for each row. That the settling of a group and a homing failure act at the next cadence start is log entry 68 of
the model, and that each reader qualifies a channel with its own filter time is log entry 67. -/
theorem motionRows : Obligations.MotionRows := by
  intro s
  refine ⟨?_, ?_, ?_, ?_, ?_, ?_, ?_, ?_, ?_, ?_, ?_, ?_, ?_, ?_⟩
  · exact fun a w hs he => ⟨_, congrArg Host.Outcome.next (enableTimeout_late hs he), reqFault_advanceTo _ _ _ s⟩
  · exact fun a w hs hd => ⟨_, congrArg Host.Outcome.next (disableTimeout_late hs hd), reqFault_advanceTo _ _ _ s⟩
  · exact fun g a hs hm ha => ⟨_, congrArg Host.Outcome.next (groupEnableTimeout_late hs hm ha), (reqFault_advanceTo _ _ _ s).1⟩
  · exact fun g hs hmpc harr hall => ⟨congrArg Host.Outcome.next (groupSettled_marks hs harr hall), grpSettle_left g.isLt hs hmpc harr⟩
  · intro c a q hr hg hlt
    obtain ⟨hq, hnow, hother, hgrps, hio⟩ := axisQualify_left (c := c) ((groupOf_congr a (advanceTo_grps _ s)).trans hg)
    refine ⟨_, congrArg Host.Outcome.next (inputQualified_one hr hlt), ?_, ?_, fun b hb => ?_, ?_, ?_⟩
    · rw [hq, axisOf_advanceTo, chanOf_congr c (advanceTo_io _ s)]
    · rw [hnow]
      exact now_advanceTo _ _ hlt
    · rw [hother b hb, axisOf_advanceTo]
    · rw [hgrps, advanceTo_grps]
    · rw [hio, advanceTo_io]
  · exact fun c hr => congrArg Host.Outcome.next (inputQualified_none hr)
  · exact fun c n h hh hq hc => ⟨_, rfl, chatter_fails n.isLt h hh hq hc⟩
  · exact fun a g hg hs hx hd hf => ⟨congrArg Host.Outcome.next (notFound_later hg hs hx hd hf), homeFail_left a 3 hs⟩
  · exact fun a g hg hm hh ht => ⟨_, rfl, hardStopLatch_backs hg hm hh ht⟩
  · exact fun a i hi hr hn hs => ⟨_, rfl, injComplete_left hi hr hn hs⟩
  · exact fun f hf => ⟨_, rfl, frfComplete_ends hf⟩
  · intro k hs hl
    have hself := (sesOf_trcFull hs hl k.val).trans (if_pos rfl)
    exact ⟨_, rfl, congrArg Session.state hself, congrArg Session.reason hself, (congrArg Session.rows hself).trans rfl,
      trcFull_pending hs hl, fun j hj => (sesOf_trcFull hs hl j).trans (if_neg hj)⟩
  · intro hx hs
    refine ⟨_, rfl, fun n => ?_, ?_⟩
    · rw [stpOf_stpRecords hx hs]
      exact ⟨rfl, rfl, rfl⟩
    · rw [stpRecords_carried hx hs]
  · intro n w hz hs hd hh hl hq
    refine ⟨_, congrArg Host.Outcome.next (stpHold_asserts hz hs hd hh hl hq), ?_, fun m hm => ?_, stpPut_advanceTo_frame _ _ _ s⟩
    · rw [stpOf_stpPut, if_pos rfl]
    · rw [stpOf_stpPut, if_neg hm, stpOf_congr m (advanceTo_stp _ s)]

end Sys2Proof.Machine

namespace Sys2Proof.Machine

/-! Axes whose command is taken at its promise time (R66, R67, R76). -/

/-- The opcodes of the axis commands that change a state fall to `axisEff`. -/
theorem stateEff_axis {e : Eff} {s : State} (h : e.opcode ∈ [0x0802, 0x0803, 0x0804, 0x0805, 0x0806]) : stateEff e s = axisEff e s := by
  simp only [List.mem_cons, List.not_mem_nil, or_false] at h
  rcases h with h | h | h | h | h <;> (unfold stateEff; simp only [h])

theorem axisEff_enables {e : Eff} {s : State} (h : e.opcode = 0x0802) (hs : (axisOf s e.object).state = .disabled)
    (he : (axisOf s e.object).enable = none) : axisEff e s = beginEnable e.object s := by
  unfold axisEff
  rw [h]
  exact if_pos (by simp [hs, he])

theorem axisEff_disables {e : Eff} {s : State} (h : e.opcode = 0x0803) (hs : (axisOf s e.object).state = .held) :
    axisEff e s = toDisabled e.object false s := by
  unfold axisEff
  rw [h]
  exact if_pos (by simp [hs])

theorem axisEff_closes {e : Eff} {s : State} (h : e.opcode = 0x0804) (hs : (axisOf s e.object).state = .held) :
    axisEff e s = toClosed e.object s := by
  unfold axisEff
  rw [h]
  exact if_pos hs

theorem axisEff_opens {e : Eff} {s : State} (h : e.opcode = 0x0805) (hs : (axisOf s e.object).state = .closed)
    (hv : (axisOf s e.object).cmdV = 0) : axisEff e s = toHeld e.object s := by
  unfold axisEff
  rw [h]
  exact if_pos (by simp [hs, hv])

/-- A cleared axis is DISABLED with no fault code. -/
theorem axisEff_clears {e : Eff} {s : State} (h : e.opcode = 0x0806) (hs : (axisOf s e.object).state = .fault) :
    (axisOf (axisEff e s) e.object).state = .disabled ∧ (axisOf (axisEff e s) e.object).faultCode = 0 := by
  have he : axisEff e s = modAxis e.object (fun y => { y with
      state := .disabled, stateAt := s.cad.start, frPulse := true, faultEnable := false, faultCode := 0, stopCat := none }) s := by
    unfold axisEff
    rw [h]
    exact if_pos hs
  rw [he, axisOf_modAxis_self]
  exact ⟨rfl, rfl⟩

theorem toDisabled_left (a : Nat) (sto : Bool) (s : State) :
    (axisOf (toDisabled a sto s) a).state = .disabled ∧ (axisOf (toDisabled a sto s) a).sto = ((axisOf s a).sto || sto) ∧
    ∀ b, b ≠ a → axisOf (toDisabled a sto s) b = axisOf s b := by
  unfold toDisabled
  refine ⟨?_, ?_, fun b hb => ?_⟩
  · rw [axisOf_freeLoop, axisOf_modAxis_self]
  · rw [axisOf_freeLoop, axisOf_modAxis_self]
  · rw [axisOf_freeLoop, axisOf_modAxis_other _ _ hb]

/-- A stop of category 1 or 2 of a CLOSED axis leaves it STOPPING. -/
theorem stopAxis_stops {cat a : Nat} {s : State} (gen : Bool) (hc : cat ≠ 0) (hs : (axisOf s a).state = .closed) :
    (axisOf (stopAxis gen cat a s) a).state = .stopping := by
  unfold stopAxis
  simp only [hs, hc, if_false]
  cases gen with
  | false =>
    rw [if_neg Bool.false_ne_true, axisOf_modAxis_self]
  | true =>
    rw [if_pos rfl, genStop, axisOf_modAxis_self]
    unfold planHalt
    dsimp only
    rw [axisOf_modAxis_self]

/-- A stop of category 0 of a CLOSED axis disables it. -/
theorem stopAxis_disables {a : Nat} {s : State} (gen : Bool) (hs : (axisOf s a).state = .closed) :
    stopAxis gen 0 a s = toDisabled a true s := by
  unfold stopAxis
  simp only [hs, if_true]

/-! Groups (R72, R73). -/

theorem grpEnableEff_state {e : Eff} {s : State} (hs : (grpOf s e.object).state = .idle) :
    (grpOf (grpEnableEff e s) e.object).state = .enabling := by
  unfold grpEnableEff
  dsimp only
  rw [if_neg (fun h => h hs)]
  exact grpTo_state _ _ _

/-- Disabling the axes of a list, one after another, leaves each of them DISABLED. -/
theorem forNat_toDisabled {l : List Nat} {a : Nat} (ha : a ∈ l) (s : State) :
    (axisOf (forNat l (fun b t => toDisabled b false t) s) a).state = .disabled := by
  have hself : ∀ t, (axisOf (toDisabled a false t) a).state = .disabled := fun t => (toDisabled_left a false t).1
  have hkeep : ∀ b t, (axisOf t a).state = .disabled → (axisOf (toDisabled b false t) a).state = .disabled := by
    intro b t h
    by_cases hb : a = b
    · exact hb ▸ hself t
    · rw [(toDisabled_left b false t).2.2 a hb]
      exact h
  exact forNat_establishes (P := fun t => (axisOf t a).state = .disabled) (Q := fun _ => True) (f := fun b t => toDisabled b false t)
    (fun t _ => hself t) (fun _ _ _ _ => trivial) hkeep ha trivial

theorem toIdle_axes (g : Nat) (s : State) : (toIdle g s).axes = s.axes :=
  (toIdle_stays (msk := { grps := true, sch := true }) g s (.refl _ _) rfl rfl).axes.resolve_left Bool.false_ne_true

/-- A group that is disabled at rest becomes IDLE, and its members DISABLED. -/
theorem grpDisableEff_left {e : Eff} {s : State} (hs : (grpOf s e.object).state = .ready ∨ (grpOf s e.object).state = .hold) :
    (grpOf (grpDisableEff e s) e.object).state = .idle ∧
    ∀ a ∈ members s e.object, (axisOf (grpDisableEff e s) a).state = .disabled := by
  have h : grpDisableEff e s = toIdle e.object (forNat (members s e.object) (fun a t => toDisabled a false t) s) := by
    unfold grpDisableEff
    exact if_pos (by simpa using hs)
  rw [h]
  refine ⟨grpTo_state _ _ _, fun a ha => ?_⟩
  rw [axisOf_congr' a (toIdle_axes _ _)]
  exact forNat_toDisabled ha s

/-- A hold stops a MOVING group on its path, which ends in HOLD. -/
theorem grpHoldEff_left {e : Eff} {s : State} (hs : (grpOf s e.object).state = .moving) :
    (grpOf (grpHoldEff e s) e.object).state = .stopping ∧ (grpOf (grpHoldEff e s) e.object).outcome = .hold := by
  unfold grpHoldEff
  rw [if_pos hs, pathStop]
  refine ⟨grpTo_state _ _ _, ?_⟩
  rw [grpTo_outcome, grpOf_modGrp_self]

theorem grpResumeEff_state {e : Eff} {s : State} (hs : (grpOf s e.object).state = .hold) :
    (grpOf (grpResumeEff e s) e.object).state = .moving := by
  unfold grpResumeEff
  rw [if_pos hs]
  exact grpTo_state _ _ _

/-! Traces, field groups and segments (R190, R294, R339). -/

theorem traceStopEff_left {e : Eff} {s : State} (hs : (sesOf s e.object).state = .armed) :
    (sesOf (traceStopEff e s) e.object).state = .stopped ∧ (sesOf (traceStopEff e s) e.object).reason = 2 ∧
    (sesOf (traceStopEff e s) e.object).rows = (sesOf s e.object).rows := by
  unfold traceStopEff
  dsimp only
  rw [if_pos (by simp [hs]), sesOf_freeTriggers, sesOf_setSes, if_pos rfl]
  exact ⟨rfl, rfl, rfl⟩

theorem ioReenableEff_group {e : Eff} {s : State} (h : u8 e.p 1 = 1) : (fgOf (ioReenableEff e s) e.object).reenable = true := by
  unfold ioReenableEff
  dsimp only
  rw [if_pos h, fgOf_setFg, if_pos rfl]

theorem busEff_unsilences {e : Eff} {s : State} (h : e.opcode = 0x0309) :
    (segOf (busEff e s) e.object).silence = (segOf s e.object).silence &&& ~~~(BitVec.twoPow 256 (u8 e.p 0)) := by
  unfold busEff
  simp [h]

/-! Step axes (R350, R351). -/

/-- A DISABLED step axis that is enabled becomes READY with ENA on, and no other step axis changes. -/
theorem stpEff_enables (t : Nat) {e : Eff} {s : State} (h : e.opcode = 0x1002) (hs : (stpOf s e.object).state = .disabled) :
    (stpOf (stpEff t e s) e.object).state = .ready ∧ (stpOf (stpEff t e s) e.object).ena = true ∧
    ∀ n, n ≠ e.object → stpOf (stpEff t e s) n = stpOf s n := by
  have he : stpEff t e s = stpGo e.object .ready (stpPut e.object { stpOf s e.object with ena := true, enaAt := t } s) := by
    unfold stpEff
    simp [h, hs]
  rw [he]
  generalize hu : stpPut e.object { stpOf s e.object with ena := true, enaAt := t } s = u
  obtain ⟨⟨c, hself⟩, hother⟩ := stpOf_stpGo e.object .ready u
  rw [hself]
  refine ⟨rfl, ?_, fun n hn => ?_⟩
  · rw [← hu, stpOf_stpPut, if_pos rfl]
  · rw [hother n hn, ← hu, stpOf_stpPut, if_neg hn]

theorem stpEff_disables (t : Nat) {e : Eff} {s : State} (h : e.opcode = 0x1003) (hs : (stpOf s e.object).state = .ready) :
    (stpOf (stpEff t e s) e.object).state = .disabled ∧ (stpOf (stpEff t e s) e.object).ena = false := by
  have he : stpEff t e s =
      stpGo e.object .disabled (stpPut e.object { stpOf s e.object with ena := false, hold := false, queue := [] } s) := by
    unfold stpEff
    simp [h, hs]
  rw [he]
  obtain ⟨⟨c, hself⟩, -⟩ :=
    stpOf_stpGo e.object .disabled (stpPut e.object { stpOf s e.object with ena := false, hold := false, queue := [] } s)
  rw [hself, stpOf_stpPut, if_pos rfl]
  exact ⟨rfl, rfl⟩

/-- A READY step axis that has a reference to search begins to home, and is homed no more. -/
theorem stpEff_homes (t : Nat) {e : Eff} {s : State} (h : e.opcode = 0x1006) (hs : (stpOf s e.object).state = .ready)
    (hm : (stpOf s e.object).homeMode ≠ 3) :
    (stpOf (stpEff t e s) e.object).state = .homing ∧ (stpOf (stpEff t e s) e.object).homed = false := by
  obtain ⟨y, hy, he⟩ : ∃ y : StpAxis, y.homed = false ∧ stpEff t e s = stpGo e.object .homing (setStp e.object y s) := by
    unfold stpEff
    simp only [h, hs, hm, Nat.reduceEqDiff, ne_eq, not_true_eq_false, if_false, if_true]
    exact ⟨_, rfl, rfl⟩
  obtain ⟨⟨c, hself⟩, -⟩ := stpOf_stpGo e.object .homing (setStp e.object y s)
  rw [he, hself, stpOf_setStp, if_pos rfl]
  exact ⟨rfl, hy⟩

/-- Settles O22, a clause for each command that a cadence start takes. The rule of bus.station_reset is R294. -/
theorem deferredEffects : Obligations.DeferredEffects := by
  intro e s
  dsimp only
  have haxis : ∀ {op}, e.opcode = op → op ∈ [0x0802, 0x0803, 0x0804, 0x0805, 0x0806] → stateEff e s = axisEff e s :=
    fun h hop => stateEff_axis (h ▸ hop)
  refine ⟨?_, ?_, ?_, ?_, ?_, ?_, ?_, ?_, ?_, ?_, ?_, ?_, ?_, ?_, ?_, ?_, ?_, ?_⟩
  · intro h hs he
    rw [haxis h (by decide), axisEff_enables h hs he, beginEnable]
    refine ⟨?_, ?_, fun b hb => axisOf_modAxis_other _ _ hb⟩ <;> rw [axisOf_modAxis_self]
  · intro h hs
    obtain ⟨hstate, -, hother⟩ := toDisabled_left e.object false s
    rw [haxis h (by decide), axisEff_disables h hs]
    exact ⟨hstate, hother⟩
  · intro h hs
    rw [haxis h (by decide), axisEff_closes h hs, toClosed, axisOf_modAxis_self]
    exact ⟨rfl, rfl, rfl⟩
  · intro h hs hv
    rw [haxis h (by decide), axisEff_opens h hs hv, toHeld, axisOf_freeLoop, axisOf_modAxis_self]
  · intro h hs
    rw [haxis h (by decide)]
    exact axisEff_clears h hs
  · exact fun cat hc hs => stopAxis_stops true hc hs
  · intro hs
    obtain ⟨hstate, hsto, -⟩ := toDisabled_left e.object true s
    rw [stopAxis_disables true hs]
    exact ⟨hstate, hsto.trans (Bool.or_true _)⟩
  · intro h hs
    rw [show stateEff e s = grpEnableEff e s by unfold stateEff; simp only [h]]
    exact grpEnableEff_state hs
  · intro h hs
    rw [show stateEff e s = grpDisableEff e s by unfold stateEff; simp only [h]]
    exact grpDisableEff_left hs
  · exact grpHoldEff_left
  · intro h hs
    rw [show motionEff e s = grpResumeEff e s by unfold motionEff; simp only [h]]
    exact grpResumeEff_state hs
  · intro h
    rw [show stateEff e s = flowLimitEff e s by unfold stateEff; simp only [h], flowLimitEff]
    exact ⟨by rw [flowOf_setFlow, if_pos rfl], fun f hf => by rw [flowOf_setFlow, if_neg hf]⟩
  · intro h hs
    rw [show stateEff e s = traceStopEff e s by unfold stateEff; simp only [h]]
    exact traceStopEff_left hs
  · intro h hp
    rw [show stateEff e s = ioReenableEff e s by unfold stateEff; simp only [h]]
    exact ioReenableEff_group hp
  · intro h
    rw [show stateEff e s = busEff e s by unfold stateEff; simp only [h]]
    exact busEff_unsilences h
  · exact fun t h hs => stpEff_enables t h hs
  · exact fun t h hs => stpEff_disables t h hs
  · exact fun t h hs hm => stpEff_homes t h hs hm

end Sys2Proof.Machine

namespace Sys2Proof.Machine

/-! The stream commands. -/

theorem strmOf_congr {a b : State} (k : Nat) (h : a.strm = b.strm) : strmOf a k = strmOf b k := by unfold strmOf; rw [h]

theorem modGrp_quiet (g : Nat) (f : GroupSt → GroupSt) {s t : State} (q : Quiet s t) : Quiet (modGrp g f s) (modGrp g f t) :=
  have h : (modGrp g f t).grps = (modGrp g f s).grps := by
    unfold modGrp setGrp
    rw [grpOf_congr g q.grps, q.grps]
  { q with grps := h }

theorem setStrm_quiet (k : Nat) (h : Stream) {s t : State} (q : Quiet s t) : Quiet (setStrm k h s) (setStrm k h t) :=
  { q with strm := congrArg (fun l => tset ({} : Stream) l k h) q.strm }

/-- The low flag of a stream depends on the stream alone. -/
theorem strmLow_quiet (k : Nat) {s t : State} (q : Quiet s t) : Quiet (strmLow k s) (strmLow k t) := by
  unfold strmLow
  rw [strmOf_congr k q.strm]
  exact raiseIf_congr _ _ (setStrm_quiet k _ q)

/-- Setting the low flag of a stream leaves the mailboxes and BAR2. -/
theorem strmLow_host (k : Nat) (s : State) : (strmLow k s).host.mb = s.host.mb ∧ (strmLow k s).host.bar2 = s.host.bar2 :=
  raiseIf_host _ _ _

/-- Settles O32: strm.attach writes the stream and joins it to its group, strm.detach waits for its promise time, and strm.anchor waits
with its slot still POSTED. That the STREAM task has a share of the ledger and that attaching regrades it is log entry 58 of the model. -/
theorem strmCommandsComplete : Obligations.StrmCommandsComplete := by
  intro r s
  refine ⟨fun _ => ⟨_, rfl⟩, fun _ => ⟨_, rfl⟩, fun _ => ⟨_, rfl⟩, ?_, ?_, ?_⟩
  · intro h
    refine accepted_does rfl h (fun t q _ hh _ => ?_)
    unfold strmAttachSpec
    dsimp only
    rw [q.sch, strmOf_congr _ q.strm]
    exact ⟨rfl, rfl, rfl, (setShares_mb _ _).trans ((strmLow_host _ _).1.trans (congrArg HostSt.mb hh)),
      (setShares_bar2 _ _).trans ((strmLow_host _ _).2.trans (congrArg HostSt.bar2 hh)),
      setShares_quiet _ (strmLow_quiet _ (setStrm_quiet _ _ (modGrp_quiet _ _ q)))⟩
  · exact fun h => accepted_waits rfl h (fun _ => rfl)
  · exact fun h => accepted_begins rfl h (fun t q ha hh _ => ⟨rfl, congrArg HostSt.mb hh, congrArg HostSt.bar2 hh, waiting_quiet q ha⟩)

end Sys2Proof.Machine

namespace Sys2Proof.Machine

/-! The qp commands. -/

/-- An accepted command that only changes predictive control, and that at once, completes with it changed. -/
theorem accepted_changes_qp {i : Instr} {sp : CmdSpec} {r : CmdRef} {s : State} (f : QpSt → QpSt)
    (hex : exec i s = .next (runCmd sp r s)) (h : Accepted sp r s)
    (hact : ∀ t, (sp.body (cmdOf sp r s) s).act t = { s := { t with qp := f t.qp } }) : Does i r s [] { s with qp := f s.qp } := by
  refine accepted_does hex h (fun t q _ hh _ => ?_)
  rw [hact t]
  exact ⟨rfl, rfl, rfl, congrArg HostSt.mb hh, congrArg HostSt.bar2 hh, { q with qp := congrArg f q.qp }⟩

/-- An accepted command that places shares, or leaves the ledger as it is, and posts its effect waits with them placed. -/
theorem accepted_waits_placed {i : Instr} {sp : CmdSpec} {r : CmdRef} {s : State} (led : Option (List Share))
    (hex : exec i s = .next (runCmd sp r s)) (h : Accepted sp r s)
    (hact : ∀ t, (sp.body (cmdOf sp r s) s).act t = later (cmdOf sp r s) (setShares (led.getD t.sch.shares) t)) :
    Does i r s [] (setShares (led.getD s.sch.shares) (waiting sp r s)) := by
  refine accepted_waits_then (fun t => setShares (led.getD t.sch.shares) t) hex h
    (fun t => ⟨false, (hact t).trans (congrArg (fun u => ({ s := u } : Act)) (post_setShares _ _ t))⟩) (fun _ => setShares_host _ _)
    (fun t q => ?_)
  rw [q.sch]
  exact setShares_quiet _ q

/-- A class that nothing uses is stored at once (R140). -/
theorem qpDefineClass_act_unused {c : Cmd} {s : State} (h : classInUse s c.h.object = false) (t : State) :
    (qpDefineClassSpec.body c s).act t = { s := { t with qp := { t.qp with classes := tset [] t.qp.classes c.h.object c.p } } } :=
  if_neg (by simp [h])

/-- A class in use waits, with the problems that use it placed anew (R140). -/
theorem qpDefineClass_act_used {c : Cmd} {s : State} (h : classInUse s c.h.object = true) (t : State) :
    (qpDefineClassSpec.body c s).act t = later c (setShares ((classLedger s c.h.object c.p).getD t.sch.shares) t) := by
  refine (if_pos h).trans ?_
  rw [if_pos h]

/-- The length of the solution that qp.result answers: that of a group's class, `n`, where no solution is held (R151). -/
theorem resultLength_eq (y : List F32) (n : Nat) :
    (match y with
      | [] => n
      | x => x.length) = if y = [] then n else y.length := by
  cases y <;> rfl

/-- Settles O33: a class is stored at once, or waits where it is in use; qp.assign waits with its problems placed, and the others
complete. That qp.configure takes effect at once, and not at a cadence start, is log entry 53 of the model. -/
theorem qpCommandsComplete : Obligations.QpCommandsComplete := by
  intro r s
  refine ⟨fun _ => ⟨_, rfl⟩, fun _ => ⟨_, rfl⟩, fun _ => ⟨_, rfl⟩, fun _ => ⟨_, rfl⟩, fun _ => ⟨_, rfl⟩, fun _ => ⟨_, rfl⟩,
    ?_, ?_, ?_, ?_, ?_, ?_, ?_⟩
  · exact fun h hu => accepted_changes_qp
      (fun q => { q with classes := tset [] q.classes (objectOf r s) (payloadOf qpDefineClassSpec r s) }) rfl h (qpDefineClass_act_unused hu)
  · exact fun h hu => accepted_waits_placed _ rfl h (qpDefineClass_act_used hu)
  · exact fun h => accepted_changes_qp (fun q => { q with classes := tdrop q.classes (objectOf r s) }) rfl h (fun _ => rfl)
  · exact fun h => accepted_waits_placed _ rfl h (fun _ => rfl)
  · exact fun h => accepted_changes_qp (fun q => { q with reserve := u32 (payloadOf qpConfigureSpec r s) 0 }) rfl h (fun _ => rfl)
  · exact fun h => accepted_does rfl h (fun t q _ hh _ => ⟨rfl, rfl, rfl, congrArg HostSt.mb hh, congrArg HostSt.bar2 hh, q⟩)
  · intro h
    refine accepted_does rfl h (fun t q _ hh _ => ⟨rfl, rfl, ?_, congrArg HostSt.mb hh, congrArg HostSt.bar2 hh, q⟩)
    rw [← resultLength_eq]
    rfl

end Sys2Proof.Machine

namespace Sys2Proof.Machine

/-! The planning interval: what its rows read and write of predictive control. -/

theorem laneOf_congr {a b : State} (u : Nat) (h : a.qp = b.qp) : laneOf a u = laneOf b u := by unfold laneOf; rw [h]

theorem qpOf_congr {a b : State} (g : Nat) (h : a.qp = b.qp) : qpOf a g = qpOf b g := by unfold qpOf; rw [h]

theorem scenOf_congr {a b : State} (g j : Nat) (h : a.qp = b.qp) : scenOf a g j = scenOf b g j := by unfold scenOf; rw [qpOf_congr g h]

theorem qpOf_modQp_self (g : Nat) (f : QpGrp → QpGrp) (s : State) : qpOf (modQp g f s) g = f (qpOf s g) := by simp [modQp]

@[simp] theorem laneOf_modQp (g u : Nat) (f : QpGrp → QpGrp) (s : State) : laneOf (modQp g f s) u = laneOf s u := rfl

@[simp] theorem qpOf_setLane (g u : Nat) (l : Lane) (s : State) : qpOf (setLane u l s) g = qpOf s g := rfl

/-- Reading an element that a list has, after it is replaced. -/
theorem lget_lset_self {α : Type} (d v : α) : ∀ {l : List α} {i : Nat}, i < l.length → lget d (lset l i v) i = v
  | _ :: _, 0, _ => rfl
  | _ :: r, i + 1, h => lget_lset_self d v (l := r) (i := i) (Nat.lt_of_succ_lt_succ h)

/-- A scenario that the group has reads as changed. -/
theorem scenOf_modScen_self {g j : Nat} {s : State} (f : Scen → Scen) (h : j < (qpOf s g).scen.length) :
    scenOf (modScen g j f s) g j = f (scenOf s g j) := by
  unfold modScen
  rw [scenOf, qpOf_modQp_self]
  exact lget_lset_self _ _ h

/-! Assembly (R143). -/

/-- Every problem of every group that has posed some is assembled. -/
def assembleAll (s : State) : State :=
  forNat (List.range 16) (fun g t => if (qpOf t g).posed then forNat (List.range (qpOf t g).scen.length) (assembleScen g) t else t) s

theorem asmPhase_begins {s : State} (hc : s.cad.started = true) (hs : s.qp.snapAt = s.cad.planStart + 1) :
    asmPhase s = assembleAll (advanceTo (s.cad.planStart + planNs s / 8) s) := by
  unfold asmPhase
  rw [if_neg (by simp [hc, hs])]
  rfl

theorem asmPhase_early {s : State} (hs : s.qp.snapAt ≠ s.cad.planStart + 1) : asmPhase s = s := if_pos (by simp [hs])

theorem assembleAll_cad (s : State) : (assembleAll s).cad = s.cad :=
  (forNat_stays (msk := { sch := true, qp := true }) _ _ _ (fun g _ ht =>
    ite_stays _ (forNat_stays _ _ _ (fun j u hu => assembleScen_stays g j u hu rfl rfl) ht) ht) (.refl _ s)).cad.resolve_left Bool.false_ne_true

theorem assembleAll_time (s : State) : (assembleAll s).time = s.time :=
  (forNat_rest (msk := {}) _ _ _ (fun g _ ht =>
    ite_rest _ (forNat_rest _ _ _ (fun j u hu => assembleScen_rest g j u hu) ht) ht) (.refl _ s)).time.resolve_left Bool.false_ne_true

theorem asmPhase_cad {s : State} (hc : s.cad.started = true) (hs : s.qp.snapAt = s.cad.planStart + 1) : (asmPhase s).cad = s.cad := by
  rw [asmPhase_begins hc hs, assembleAll_cad, advanceTo_cad]

/-- The ASM phase is not before 12.5 % of the planning period (R143). -/
theorem asmPhase_now {s : State} (hc : s.cad.started = true) (hs : s.qp.snapAt = s.cad.planStart + 1)
    (ht : s.cad.planStart + planNs s / 8 < 2 ^ 64) : s.cad.planStart + planNs s / 8 ≤ now (asmPhase s) := by
  rw [asmPhase_begins hc hs, now_congr (assembleAll_time _)]
  exact now_advanceTo _ _ ht

/-! The lanes (R148, R149, R156). -/

/-- Starting a problem changes its lane at most. -/
theorem laneStart_cases (u cyc : Nat) (s : State) : laneStart u cyc s = s ∨ ∃ l, laneStart u cyc s = setLane u l s := by
  unfold laneStart
  dsimp only
  split
  · exact .inl rfl
  · split
    · exact .inr ⟨_, rfl⟩
    · exact .inl rfl

theorem laneStart_windowAt (u cyc : Nat) (s : State) : (laneStart u cyc s).qp.windowAt = s.qp.windowAt := by
  obtain h | ⟨l, h⟩ := laneStart_cases u cyc s <;> rw [h]
  rfl

/-- The lanes start in the window that this row opens; starting them moves neither the window nor the cadence (R149). -/
theorem laneWindow_opens {s : State} (hc : s.cad.started = true) (hs : s.qp.snapAt = s.cad.planStart + 1) (hw : windowOpen s = false) :
    windowOpen (laneWindow s) = true ∧ (laneWindow s).cad = s.cad := by
  unfold laneWindow
  rw [if_neg (by simp [hc, hs, hw])]
  extract_lets t _ s1
  have hcad : (forNat (List.range 64) (fun u v => laneStart u 0 v) s1).cad = s.cad :=
    forNat_sameCad _ _ _ (fun u v hv => laneStart_sameCad u 0 v hv) (advanceTo_cad t _)
  have hat : (forNat (List.range 64) (fun u v => laneStart u 0 v) s1).qp.windowAt = t :=
    (forNat_keeps (fun v : State => v.qp.windowAt) (fun u v => laneStart u 0 v) (fun u v => laneStart_windowAt u 0 v) (List.range 64) s1).trans
      (congrArg QpSt.windowAt (advanceTo_qp t _))
  refine ⟨?_, hcad⟩
  unfold windowOpen planNs
  rw [hcad, hat, hc]
  simp [t, planNs]

theorem laneWindow_early {s : State} (hs : s.qp.snapAt ≠ s.cad.planStart + 1) : laneWindow s = s := if_pos (by simp [hs])

theorem laneDone_idle {s : State} {u : Nat} (h : (laneOf s u).serv = none) (cyc : Nat) : laneDone u cyc s = none := by
  unfold laneDone
  rw [h]

theorem qpProblemDone_done {s v : State} {u : Nat} (hw : windowOpen s = true) (h : laneDone u (2 ^ 64) s = some v) :
    qpProblemDone u s = v := by
  unfold qpProblemDone
  rw [if_pos hw, h, Option.getD_some]

theorem qpProblemDone_idle {s : State} {u : Nat} (h : (laneOf s u).serv = none) : qpProblemDone u s = s := by
  unfold qpProblemDone
  rw [laneDone_idle h, Option.getD_none, ite_self]

theorem laneUpTo_idle {s : State} {u : Nat} (h : (laneOf s u).serv = none) (cyc n : Nat) : laneUpTo u cyc n s = s := by
  cases n with
  | zero => rfl
  | succ n => rw [laneUpTo, laneDone_idle h]

/-- Of predictive control a miss only counts. -/
theorem missMarks_qp (b : LaneJob) (u : Nat) (s : State) :
    (missMarks b u s).qp = (modQp b.g (fun q => { q with missed := q.missed + 1 }) s).qp := by
  unfold missMarks
  simp only [raise_qp, journal_qp, count_qp]
  rfl

theorem missMarks_grps (b : LaneJob) (u : Nat) (s : State) : (missMarks b u s).grps = s.grps := by
  unfold missMarks
  simp

theorem missMarks_pending (b : LaneJob) (u : Nat) (s : State) : Pending (missMarks b u s) 51 := raise_sets_pending _ _ (by decide)

/-- A missed problem leaves the queue of its lane, and the lane serves what it served. -/
theorem laneOf_missWaiting (u : Nat) (b : LaneJob) (s : State) :
    laneOf (missWaiting u b s) u = { laneOf s u with wait := (laneOf s u).wait.erase b } := by
  unfold missWaiting
  rw [laneOf_congr u (missMarks_qp b u _), laneOf_modQp]
  unfold putRes modScen
  simp

/-- A missed problem counts, and its scenario ends with status MISSED (R156). -/
theorem missWaiting_misses (u : Nat) {b : LaneJob} {s : State} (h : b.j < (qpOf s b.g).scen.length) :
    (scenOf (missWaiting u b s) b.g b.j).res.status = 4 ∧ (qpOf (missWaiting u b s) b.g).missed = (qpOf s b.g).missed + 1 ∧
    Pending (missWaiting u b s) 51 ∧ (missWaiting u b s).grps = s.grps := by
  refine ⟨?_, ?_, missMarks_pending _ _ _, missMarks_grps _ _ _⟩
  · unfold missWaiting
    rw [scenOf_congr _ _ (missMarks_qp b u _), scenOf, qpOf_modQp_self]
    exact congrArg (fun d : Scen => d.res.status) (scenOf_modScen_self (s := setLane u _ s) _ h)
  · unfold missWaiting
    rw [qpOf_congr _ (missMarks_qp b u _), qpOf_modQp_self]
    unfold putRes modScen
    rw [qpOf_modQp_self]
    rfl

/-- The problems of a scenario that wait at a lane. -/
def waitingOf (g j u : Nat) (s : State) : List LaneJob := (laneOf s u).wait.filter (fun b => b.g = g && b.j = j)

theorem foldl_missWaiting_serv (u : Nat) (l : List LaneJob) (s : State) :
    (laneOf (l.foldl (fun t b => missWaiting u b t) s) u).serv = (laneOf s u).serv := by
  induction l generalizing s with
  | nil => rfl
  | cons b l ih => rw [List.foldl_cons, ih, laneOf_missWaiting]

/-- At a deadline with its lane idle, the problems of the scenario that wait there are missed, and none ends by itself (R156). -/
theorem qpDeadline_idle {s : State} {g j u : Nat} {p : AsmIn} (hw : windowOpen s = true) (hu : laneFor s g j = some u)
    (hp : (scenOf s g j).inp = some p) (hserv : (laneOf s u).serv = none) :
    qpDeadline g j s = (waitingOf g j u s).foldl (fun t b => missWaiting u b t)
      (advanceTo (s.cad.planStart + planNs s * cDeadline p.c / 1024) s) := by
  have hlane : ∀ t, laneOf (advanceTo t s) u = laneOf s u := fun t => laneOf_congr u (advanceTo_qp t s)
  unfold qpDeadline
  simp only [hu, hp, hw, laneUpTo_idle hserv, foldl_missWaiting_serv, hlane, hserv]
  rfl

/-- The deadline of a problem that waits alone at an idle lane (R156). -/
theorem qpDeadline_misses {s : State} {g j u : Nat} {p : AsmIn} (hw : windowOpen s = true) (hu : laneFor s g j = some u)
    (hp : (scenOf s g j).inp = some p) (hserv : (laneOf s u).serv = none) (hwait : (laneOf s u).wait = [{ g := g, j := j }])
    (hj : j < (qpOf s g).scen.length) :
    (laneOf (qpDeadline g j s) u).wait = [] ∧ (scenOf (qpDeadline g j s) g j).res.status = 4 ∧
    (qpOf (qpDeadline g j s) g).missed = (qpOf s g).missed + 1 ∧ Pending (qpDeadline g j s) 51 ∧ (qpDeadline g j s).grps = s.grps := by
  have hq : ∀ t, (advanceTo t s).qp = s.qp := fun t => advanceTo_qp t s
  have hone : waitingOf g j u s = [{ g := g, j := j }] := by simp [waitingOf, hwait]
  rw [qpDeadline_idle hw hu hp hserv, hone, List.foldl_cons, List.foldl_nil]
  obtain ⟨hst, hm, hpend, hg⟩ := missWaiting_misses u (b := { g := g, j := j })
    (s := advanceTo (s.cad.planStart + planNs s * cDeadline p.c / 1024) s) (by rw [qpOf_congr _ (hq _)]; exact hj)
  refine ⟨?_, hst, hm.trans (by rw [qpOf_congr _ (hq _)]), hpend, hg.trans (advanceTo_grps _ _)⟩
  rw [laneOf_missWaiting, laneOf_congr u (hq _), hwait]
  exact List.erase_cons_head _ _

theorem qpDeadline_closed {s : State} (h : windowOpen s = false) (g j : Nat) : qpDeadline g j s = s := by
  unfold qpDeadline
  dsimp only
  split
  · exact if_pos (by simp [h])
  · rfl

/-! The selection and the end of a shifted fallback (R151, R154, R158). -/

theorem selection_closed {s : State} (h : windowOpen s = false) (g : Nat) : selection g s = s := if_pos (by simp [h])

theorem shiftedRecs_qp (g b : Nat) (tags : List Nat) (s : State) : (shiftedRecs g b tags s).qp = s.qp :=
  (shiftedRecs_stays (msk := {}) g b tags s (.refl _ s)).qp.resolve_left Bool.false_ne_true

theorem fallenBack_chosen (g b : Nat) (tags : List Nat) (s : State) : (qpOf (fallenBack g b tags s) g).chosen = (qpOf s g).chosen := by
  unfold fallenBack
  rw [qpOf_congr g ((raise_qp _ _).trans (shiftedRecs_qp _ _ _ _)), qpOf_modQp_self]

/-- Whether no candidate is posed, one passes or none does, the selection of the group is made (R151). -/
theorem selection_chosen {s : State} {g : Nat} (hp : (qpOf s g).posed = true) (hc : (qpOf s g).chosen = false)
    (hw : windowOpen s = true) : (qpOf (selection g s) g).chosen = true := by
  unfold selection
  rw [if_neg (by simp [hp, hc, hw])]
  extract_lets _ _ _ _ _ done
  have hdone : ∀ l sel t, (qpOf (done l sel t) g).chosen = true := fun _ _ _ => by rw [qpOf_modQp_self]
  clear_value done
  split
  · exact hdone _ _ _
  · split
    extract_lets s1
    split
    · rw [qpOf_modQp_self]
      exact (congrArg QpGrp.chosen (qpOf_congr g (raiseIf_qp _ _ _))).trans (hdone _ _ _)
    · exact (fallenBack_chosen _ _ _ _).trans (hdone _ _ _)

/-- At the limit of its fallbacks a group stops, and must be solved anew before it poses a motion (R158). -/
theorem shiftStop_stops {s : State} {g : Nat} (ha : (qpOf s g).assigned = true) (hf : (qpOf s g).fallbacks ≠ 0)
    (hl : cShift (classOf s (lget {} (qpOf s g).scen 0).cls) ≤ (qpOf s g).fallbacks) :
    qpOf (shiftStop g s) g = { qpOf s g with fallbacks := 0, stops := (qpOf s g).stops + 1 } ∧
    (grpOf (shiftStop g s) g).solved = false ∧ (grpOf (shiftStop g s) g).stops = (grpOf s g).stops ++ [2] ∧
    (shiftStop g s).axes = s.axes := by
  unfold shiftStop
  rw [if_neg (by simp [ha, hf, hl])]
  extract_lets s1
  have hq : qpOf (reqStopGrp g 2 (journal 0x0A 0x11 2 g 0 [] s1)) g = qpOf s1 g :=
    qpOf_congr g ((reqStopGrp_qp _ _ _).trans (journal_qp _ _ _ _ _ _ _))
  have hx : grpOf s1 g = { grpOf s g with solved := false } := grpOf_modGrp_self g (fun x => { x with solved := false }) s
  have ht : grpOf (reqStopGrp g 2 (journal 0x0A 0x11 2 g 0 [] s1)) g = { grpOf s1 g with stops := (grpOf s1 g).stops ++ [2] } := by
    unfold reqStopGrp
    rw [grpOf_modGrp_self, grpOf_congr g (journal_grps _ _ _ _ _ _ _)]
  rw [hq, ht, hx]
  refine ⟨qpOf_modQp_self g _ _, rfl, rfl, ?_⟩
  exact (reqStopGrp_axes _ _ _).trans (journal_axes _ _ _ _ _ _ _)

/-- Settles O52, a clause for each row: assembly and the lanes' window come when their instant is due, a problem ends by itself or is
missed at its deadline, the selection is made once, and at the limit of its fallbacks a group stops. That a row whose condition does not
hold changes nothing is log entry 3 of the model. -/
theorem planningRows : Obligations.PlanningRows := by
  intro s
  refine ⟨?_, ?_, ?_, ?_, ?_, ?_, ?_, ?_, ?_, ?_⟩
  · exact fun hc hs hlt => ⟨_, rfl, asmPhase_now hc hs hlt, asmPhase_cad hc hs⟩
  · exact fun hs => ⟨congrArg Host.Outcome.next (asmPhase_early hs), congrArg Host.Outcome.next (laneWindow_early hs)⟩
  · exact fun hc hs hw => ⟨_, rfl, laneWindow_opens hc hs hw⟩
  · exact fun u v hw hv => congrArg Host.Outcome.next (qpProblemDone_done hw hv)
  · exact fun u hserv => congrArg Host.Outcome.next (qpProblemDone_idle hserv)
  · intro g j u p hw hu hp hserv hwait
    refine congrArg Host.Outcome.next ((qpDeadline_idle hw hu hp hserv).trans ?_)
    rw [waitingOf, hwait]
    rfl
  · exact fun g j hw => ⟨congrArg Host.Outcome.next (qpDeadline_closed hw g j), congrArg Host.Outcome.next (selection_closed hw g)⟩
  · exact fun g hp hc hw => ⟨_, rfl, selection_chosen hp hc hw⟩
  · exact fun g ha hf hl => ⟨_, rfl, shiftStop_stops ha hf hl⟩
  · intro g j u p hw hu hp hserv hwait hj
    exact ⟨_, rfl, qpDeadline_misses hw hu hp hserv hwait hj⟩

end Sys2Proof.Machine

namespace Sys2Proof.Machine

/-! The loop commands. -/

/-- An accepted command that only answers completes with the state as it was. -/
theorem accepted_answers {i : Instr} {sp : CmdSpec} {r : CmdRef} {s : State} {res : List Byte} (hex : exec i s = .next (runCmd sp r s))
    (h : Accepted sp r s) (hact : ∀ t, (sp.body (cmdOf sp r s) s).act t = { s := t, res := res }) : Does i r s res s :=
  accepted_does hex h (fun t q _ hh _ => by
    rw [hact t]
    exact ⟨rfl, rfl, rfl, congrArg HostSt.mb hh, congrArg HostSt.bar2 hh, q⟩)

/-- Which sections of a loop.set_filter payload have b1 replaced (R171). -/
def sectionsReplaced (p : List Byte) : List Bool := (filterOf p).map (fun e => e.elim false (·.2))

/-- loop.set_filter posts its effect and marks the replaced sections in its result, which is OK_ADJUSTED where there is one (R171). -/
theorem loopSetFilter_act (c : Cmd) (s t : State) : (loopSetFilterSpec.body c s).act t =
    { s := post c t, res := fields [(1, bitsN (sectionsReplaced c.p)), (7, 0)], adjusted := bitsN (sectionsReplaced c.p) ≠ 0 } := by
  refine congrArg (fun l => ({ s := post c t, res := fields [(1, bitsN l), (7, 0)], adjusted := bitsN l ≠ 0 } : Act))
    (List.map_congr_left (fun e _ => ?_))
  cases e <;> rfl

/-- Settles O34: loop.configure writes the loop, the five writes of coefficients and limits wait for their promise time, and loop.status
and loop.read_coeff answer from the loop. -/
theorem loopCommandsComplete : Obligations.LoopCommandsComplete := by
  intro r s
  refine ⟨fun _ => ⟨_, rfl⟩, fun _ => ⟨_, rfl⟩, fun _ => ⟨_, rfl⟩, fun _ => ⟨_, rfl⟩, fun _ => ⟨_, rfl⟩, fun _ => ⟨_, rfl⟩,
    fun _ => ⟨_, rfl⟩, fun _ => ⟨_, rfl⟩, ?_, ?_, ?_, ?_, ?_, ?_, ?_, ?_⟩
  · exact fun h => accepted_does rfl h (fun t q _ hh _ =>
      ⟨rfl, rfl, rfl, congrArg HostSt.mb hh, congrArg HostSt.bar2 hh, modAxis_quiet _ _ q⟩)
  · exact fun h => accepted_waits rfl h (fun _ => rfl)
  · exact fun h => accepted_waits_then id rfl h (fun t => ⟨_, loopSetFilter_act _ s t⟩) (fun _ => ⟨rfl, rfl⟩) (fun _ q => q)
  · exact fun h => accepted_waits rfl h (fun _ => rfl)
  · exact fun h => accepted_waits rfl h (fun _ => rfl)
  · exact fun h => accepted_waits rfl h (fun _ => rfl)
  · exact fun h => accepted_answers rfl h (fun _ => rfl)
  · exact fun h => accepted_answers rfl h (fun _ => rfl)

end Sys2Proof.Machine

namespace Sys2Proof.Machine

/-! The trace commands. -/

/-- Two states that agree but for a completion still do when their traces are changed alike, a change that does not rest on the events
counted. -/
theorem Quiet.mapTrc {s t : State} (q : Quiet s t) (f : TrcSt → TrcSt)
    (hf : ∀ c, { f c with occurred := 0 } = f { c with occurred := 0 }) :
    Quiet { s with trc := f s.trc } { t with trc := f t.trc } :=
  { q with trc := (hf t.trc).trans ((congrArg f q.trc).trans (hf s.trc).symm) }

theorem setSes_quiet (k : Nat) (x : Session) {s t : State} (q : Quiet s t) : Quiet (setSes k x s) (setSes k x t) :=
  q.mapTrc (fun c => { c with ses := tset {} c.ses k x }) (fun _ => rfl)

theorem setInj_quiet (a : Nat) (x : Option Inject) {s t : State} (q : Quiet s t) : Quiet (setInj a x s) (setInj a x t) :=
  q.mapTrc (fun c => { c with inj := tset none c.inj a x }) (fun _ => rfl)

theorem injOf_quiet (a : Nat) {s t : State} (q : Quiet s t) : injOf t a = injOf s a := by
  have h := congrArg TrcSt.inj q.trc
  dsimp only at h
  unfold injOf
  rw [h]

theorem chargeInj_quiet (a : Nat) (on : Bool) {s t : State} (q : Quiet s t) : Quiet (chargeInj a on s) (chargeInj a on t) := by
  unfold chargeInj
  rw [q.sch]
  exact setShares_quiet _ q

theorem chargeInj_host (a : Nat) (on : Bool) (s : State) :
    (chargeInj a on s).host.mb = s.host.mb ∧ (chargeInj a on s).host.bar2 = s.host.bar2 := by
  unfold chargeInj
  exact setShares_host _ s

@[simp] theorem arm_eff (a : Armed) (s : State) : (arm a s).eff = s.eff := by unfold arm; split <;> rfl
@[simp] theorem arm_admitSeq (a : Armed) (s : State) : (arm a s).admitSeq = s.admitSeq := by unfold arm; split <;> rfl

/-- An accepted command that changes the state at once by `g`, an operation that leaves the mailboxes and BAR2, completes. -/
theorem accepted_applies {i : Instr} {sp : CmdSpec} {r : CmdRef} {s u : State} {res : List Byte} (g : State → State)
    (hex : exec i s = .next (runCmd sp r s)) (h : Accepted sp r s)
    (hact : ∀ t, (sp.body (cmdOf sp r s) s).act t = { s := g t, res := res })
    (hhost : ∀ t, (g t).host.mb = t.host.mb ∧ (g t).host.bar2 = t.host.bar2)
    (hg : ∀ t, Quiet s t → t.admitSeq = s.admitSeq + 1 → Quiet u (g t)) : Does i r s res u := by
  refine accepted_does hex h (fun t q ha hh _ => ?_)
  obtain ⟨hmb, hbar⟩ := hhost t
  rw [hact t]
  exact ⟨rfl, rfl, rfl, hmb.trans (congrArg HostSt.mb hh), hbar.trans (congrArg HostSt.bar2 hh), hg t q ha⟩

/-- No condition of its chapter turns an accepted command away. -/
theorem accepted_not_bad {sp : CmdSpec} {r : CmdRef} {s : State} (h : Accepted sp r s) (st : Status) :
    (true, st) ∉ (sp.body (cmdOf sp r s) s).bad :=
  fun hm => firstBad_none _ h.2 st (List.mem_append_right _ hm)

/-- The effect of an accepted command waits behind what `arm` leaves. -/
theorem arm_then_post_quiet (a : Armed) {sp : CmdSpec} {r : CmdRef} {s t : State} (q : Quiet s t) (ha : t.admitSeq = s.admitSeq + 1) :
    Quiet { arm a { s with admitSeq := s.admitSeq + 1 } with eff := s.eff ++ [effectOf sp r s] } (post (cmdOf sp r s) (arm a t)) := by
  have q1 : Quiet { s with admitSeq := s.admitSeq + 1 } t := { q with }
  have h := post_quiet (cmdOf sp r s) (arm_congr a q1 ha)
  rw [arm_eff, arm_admitSeq, ha] at h
  exact h

/-- trace.arm of a session whose source is not TIME only posts its effect. -/
theorem traceArm_act_untimed {c : Cmd} {s : State} (h : tSrc (sesOf s c.h.object).cfg ≠ 2) (t : State) :
    (traceArmSpec.body c s).act t = { s := post c t } :=
  congrArg (later c) (if_neg (by simpa using h))

/-- trace.arm with source TIME arms a compare unit too. -/
theorem traceArm_act_timed {c : Cmd} {s : State} (h : tSrc (sesOf s c.h.object).cfg = 2) (t : State) :
    (traceArmSpec.body c s).act t = { s := post c (arm { kind := .traceArm c.h.object, due := ceilTo 4 (max c.promise (u64 c.p 0))
                                                         tr := u64 c.p 0, noLate := c.h.noLate } t) } :=
  congrArg (later c) (if_pos (by simpa using h))

/-- trace.inject_stop of an axis that has no injection is refused (R201). -/
theorem traceInjectStop_bad {c : Cmd} {s : State} (h : injOf s c.h.object = none) :
    (traceInjectStopSpec.body c s).bad = [(true, .stateConflict)] := by
  unfold traceInjectStopSpec
  dsimp only
  rw [h]
  rfl

theorem traceInjectStop_accepted {r : CmdRef} {s : State} (h : Accepted traceInjectStopSpec r s) :
    ∃ i, injOf s (objectOf r s) = some i := by
  refine Option.ne_none_iff_exists'.mp (fun hi => accepted_not_bad h .stateConflict ?_)
  rw [traceInjectStop_bad hi]
  exact List.mem_singleton_self _

/-- trace.inject_stop marks the injection with the slot that waits for its end, and posts its effect. -/
theorem traceInjectStop_act {c : Cmd} {s t : State} {i : Inject} (h : injOf t c.h.object = some i) :
    (traceInjectStopSpec.body c s).act t =
      { s := post c (setInj c.h.object (some { i with stop := some (c.mb, c.slot) }) t), later := true } := by
  unfold traceInjectStopSpec
  dsimp only
  rw [h]

/-- Settles O35: trace.configure and trace.set_length write the session, trace.arm and trace.stop wait for their promise time, trace.arm
with source TIME and trace.trigger arm a compare unit, trace.status and trace.read answer, trace.inject charges the loop's share, and
trace.inject_stop and trace.frf begin. That a session's own run counts as free, that its content is kept where its channels stay as many,
that a TIME trigger is armed at admission, and that a COUNT of 0 gives T_FIRST 0, is log entry 55 of the model. -/
theorem traceCommandsComplete : Obligations.TraceCommandsComplete := by
  intro r s
  refine ⟨fun _ => ⟨_, rfl⟩, fun _ => ⟨_, rfl⟩, fun _ => ⟨_, rfl⟩, fun _ => ⟨_, rfl⟩, fun _ => ⟨_, rfl⟩, fun _ => ⟨_, rfl⟩,
    fun _ => ⟨_, rfl⟩, fun _ => ⟨_, rfl⟩, fun _ => ⟨_, rfl⟩, fun _ => ⟨_, rfl⟩, ?_, ?_, ?_, ?_, ?_, ?_, ?_, ?_, ?_, ?_, ?_⟩
  · exact fun h => accepted_applies (setSes _ _) rfl h (fun _ => rfl) (fun _ => ⟨rfl, rfl⟩) (fun _ q _ => setSes_quiet _ _ q)
  · exact fun h => accepted_applies (setSes _ _) rfl h (fun _ => rfl) (fun _ => ⟨rfl, rfl⟩) (fun _ q _ => setSes_quiet _ _ q)
  · exact fun h hsrc => accepted_waits rfl h (traceArm_act_untimed hsrc)
  · exact fun h hsrc => accepted_applies (fun t => post _ (arm _ t)) rfl h (traceArm_act_timed hsrc)
      (fun t => ⟨congrArg HostSt.mb (arm_host _ t), congrArg HostSt.bar2 (arm_host _ t)⟩) (fun _ q ha => arm_then_post_quiet _ q ha)
  · exact fun h => accepted_applies (arm _) rfl h (fun _ => rfl)
      (fun t => ⟨congrArg HostSt.mb (arm_host _ t), congrArg HostSt.bar2 (arm_host _ t)⟩) (fun _ q ha => arm_congr _ { q with } ha)
  · exact fun h => accepted_waits rfl h (fun _ => rfl)
  · exact fun h => accepted_answers rfl h (fun _ => rfl)
  · intro h
    refine accepted_applies (fun t => if bitOf (u32 (payloadOf traceReadSpec r s) 8) 0 then setSes (objectOf r s) _ t else t)
      rfl h (fun _ => rfl) (fun t => ?_) (fun t q _ => ?_)
    · split <;> exact ⟨rfl, rfl⟩
    · split
      · exact setSes_quiet _ _ q
      · exact q
  · exact fun h => accepted_applies (fun t => chargeInj _ true (setInj _ _ t)) rfl h (fun _ => rfl)
      (fun t => chargeInj_host _ _ _) (fun _ q _ => chargeInj_quiet _ _ (setInj_quiet _ _ q))
  · intro h
    obtain ⟨i, hi⟩ := traceInjectStop_accepted h
    refine accepted_begins rfl h (fun t q ha hh _ => ?_)
    rw [traceInjectStop_act ((injOf_quiet _ q).trans hi), hi]
    exact ⟨rfl, congrArg HostSt.mb hh, congrArg HostSt.bar2 hh, setInj_quiet _ _ (waiting_quiet q ha)⟩
  · exact fun h => accepted_begins rfl h (fun t q _ hh _ => ⟨rfl, congrArg HostSt.mb hh, congrArg HostSt.bar2 hh,
      q.mapTrc (fun c => { c with frf := _ }) (fun _ => rfl)⟩)

end Sys2Proof.Machine

namespace Sys2Proof.Machine

/-! The plant Ethernet ports (R272 to R275). -/

/-- A port with no role ignores its messages. -/
theorem ptpMessage_off {p : Nat} {s : State} (h : (ptpOf s p).role = 0) (m : PtpMsg) : ptpMessage p m s = s := if_pos h

/-- A port with no role sends nothing. -/
theorem ptpInterval_off {p : Nat} {s : State} (h : (ptpOf s p).role = 0) (k : PtpTick) (b : Bool) : ptpInterval p k b s = s := if_pos h

/-- A SLAVE port keeps the grandmaster of an announce; a LISTENING one becomes UNCALIBRATED. -/
theorem ptpMessage_announce {p : Nat} {s : State} (h : (ptpOf s p).role = 2) (gm : BitVec 64) : ptpMessage p (.announce gm) s =
    setPtp p { ptpOf s p with gmId := gm, state := if (ptpOf s p).state = 1 then 3 else (ptpOf s p).state } (count (128 + p) 0x0902 s) := by
  unfold ptpMessage
  simp [h]

/-- A message that a port does not serve is counted and discarded. -/
theorem ptpMessage_discards {p : Nat} {s : State} {m : PtpMsg} (h : (ptpOf s p).role ≠ 0)
    (hm : m = .signaling ∨ m = .management ∨ m = .malformed) : ptpMessage p m s =
    count (128 + p) 0x0907 (setPtp p { ptpOf s p with discards := (ptpOf s p).discards + 1 } (count (128 + p) 0x0902 s)) := by
  unfold ptpMessage
  rcases hm with rfl | rfl | rfl <;> exact if_neg h

/-- A MASTER port sends an announce at its interval, and the sequenceId of its announces moves on. -/
theorem ptpInterval_announce {p : Nat} {s : State} (h : (ptpOf s p).role = 1) (b : Bool) : ∃ log body,
    ptpInterval p .announce b s = ptpEmit p 11 (ptpSeq (ptpOf s p) 11) false 0 log body (setPtp p (ptpNext (ptpOf s p) 11) s) := by
  unfold ptpInterval
  simp only [h, Nat.one_ne_zero, if_false, if_true]
  exact ⟨_, _, rfl⟩

/-- A message that leaves a port changes no port. -/
@[simp] theorem ptpOf_ptpEmit (p q type seq : Nat) (two : Bool) (corr log : Int) (body : List Byte) (s : State) :
    ptpOf (ptpEmit p type seq two corr log body s) q = ptpOf s q := rfl

/-- It leaves the device on the port. -/
theorem ptpEmit_out (p type seq : Nat) (two : Bool) (corr log : Int) (body : List Byte) (s : State) :
    ∃ o ∈ (ptpEmit p type seq two corr log body s).out, o.kind = .ptp ∧ o.unit = p := ⟨_, List.mem_cons_self, rfl, rfl⟩

/-- A SLAVE port whose announces stay away is LISTENING again (R321). -/
theorem announceTimeout_slave {p : Nat} {s : State} (h : (ptpOf s p).role = 2) (hf : s.pel.follow = false) :
    announceTimeout p s = setPtp p { ptpOf s p with state := 1 } s := by
  unfold announceTimeout
  simp [h, hf]

/-! The grandmaster's servo (R321). -/

theorem gmServo_off {s : State} (h : s.pel.follow = false) (mean : BitVec 64) : gmServo mean s = s := if_pos (by simp [h])

/-- While an announcement is pending, an interval of the servo only writes the servo. -/
theorem gmServo_pending {s : State} (hf : s.pel.follow = true) (hx : (ptpOf s s.pel.followPort).state = 4) (ha : s.pel.ann.kind ≠ 0)
    (mean : BitVec 64) : ∃ target, gmServo mean s = { s with pel := { s.pel with
      target := target, gmOffset := mean.toInt, slewInInterval := 0, intervals := s.pel.intervals + 1 } } := by
  unfold gmServo
  extract_lets x m tint tau w dm rate fm tgt s1 d st
  rw [if_neg (by simp [hf, hx, x]), if_pos (by simp [ha])]
  exact ⟨tgt, rfl⟩

/-! Timed actions (R261 to R265): what the operations of a firing leave. -/

@[simp] theorem noteLate_dropCount (a : Armed) (n : Nat) (t : TimeSt) : (noteLate a n t).dropCount = t.dropCount := by
  unfold noteLate
  split <;> rfl

@[simp] theorem noteLate_lateCount (a : Armed) (n : Nat) (t : TimeSt) : (noteLate a n t).lateCount = t.lateCount := by
  unfold noteLate
  split <;> rfl

@[simp] theorem advanceTo_dropCount (t : Nat) (s : State) : (advanceTo t s).time.dropCount = s.time.dropCount := by
  unfold advanceTo
  split <;> rfl

@[simp] theorem advanceTo_lateCount (t : Nat) (s : State) : (advanceTo t s).time.lateCount = s.time.lateCount := by
  unfold advanceTo
  split <;> rfl

@[simp] theorem setUnit_dropCount (u : Nat) (x : Option Armed) (s : State) : (setUnit u x s).time.dropCount = s.time.dropCount := rfl
@[simp] theorem setUnit_lateCount (u : Nat) (x : Option Armed) (s : State) : (setUnit u x s).time.lateCount = s.time.lateCount := rfl

theorem sesOf_congr {s t : State} (k : Nat) (h : t.trc = s.trc) : sesOf t k = sesOf s k := by
  unfold sesOf
  rw [h]

/-- A trigger leaves its session as it is or replaces it, and may raise its event. -/
theorem trigger_cases (k : Nat) (s : State) : trigger k s = s ∨ ∃ y,
    trigger k s = setSes k y s ∨ trigger k s = raise 73 (setSes k y s) := by
  unfold trigger
  dsimp only
  split
  · exact .inl rfl
  · split
    · exact .inr ⟨_, .inr rfl⟩
    · exact .inr ⟨_, .inl rfl⟩

@[simp] theorem trigger_time (k : Nat) (s : State) : (trigger k s).time = s.time := by
  rcases trigger_cases k s with h | ⟨y, h | h⟩ <;> rw [h]
  · exact setSes_time _ _ _
  · exact (raise_time _ _).trans (setSes_time _ _ _)

theorem sesOf_trigger_other {k j : Nat} (h : j ≠ k) (s : State) : sesOf (trigger k s) j = sesOf s j := by
  rcases trigger_cases k s with e | ⟨y, e | e⟩ <;> rw [e]
  · rw [sesOf_setSes, if_neg h]
  · rw [sesOf_raise, sesOf_setSes, if_neg h]

/-- What a trigger makes of its session depends on the sessions and the cadence alone. -/
theorem sesOf_trigger_congr (k : Nat) {s t : State} (ht : t.trc = s.trc) (hc : t.cad = s.cad) :
    sesOf (trigger k t) k = sesOf (trigger k s) k := by
  have hx := sesOf_congr k ht
  unfold trigger
  simp only [hx, hc]
  split
  · exact hx
  · split <;> simp only [sesOf_raise, sesOf_setSes, if_true]

/-- Before the compute end a trigger marks the sample of this cadence, where the session is armed (R193). -/
theorem sesOf_trigger_early {k : Nat} {s : State} (h : s.cad.phase ≠ 3) :
    sesOf (trigger k s) k = if (sesOf s k).state = .armed then { sesOf s k with trigNow := true } else sesOf s k := by
  unfold trigger
  by_cases ha : (sesOf s k).state = .armed
  · simp [h, ha]
  · simp [ha]

/-! The firing of a compare unit. -/

theorem fireUnit_free {u : Nat} {s : State} (h : unitOf s u = none) (act : Armed → State → State) : fireUnit u act s = s := by
  unfold fireUnit
  rw [h]

theorem fireUnit_waits {u : Nat} {a : Armed} {s : State} (h : unitOf s u = some a) (hf : firesNow s a = false)
    (act : Armed → State → State) : fireUnit u act s = s := by
  unfold fireUnit
  rw [h]
  exact if_pos (by simp [hf])

/-- The state at the tick in which an action fires in time, as its owner records it. -/
def inTime (a : Armed) (s : State) : State :=
  let v := advanceTo (fireAt s a) s
  { v with time := noteLate a 0 v.time }

/-- The state at the tick in which an action is dropped, counted and as its owner records it (R264). -/
def tooLate (a : Armed) (s : State) : State :=
  let v := advanceTo (fireAt s a) s
  { v with time := noteLate a 2 { v.time with dropCount := v.time.dropCount + 1 } }

/-- A late action of die M that must not be late is dropped (R264). -/
theorem fireUnit_drops {u : Nat} {a : Armed} {s : State} (h : unitOf s u = some a) (hd : a.dieF = false) (hf : firesNow s a = true)
    (hn : a.noLate = true) (ht : a.tr ≠ 0) (hl : ceilTo 4 a.tr < fireTick s a) (act : Armed → State → State) :
    ∃ d, fireUnit u act s = count 132 0x0A04 (setUnit u none (raise 45 (journal 0x0F 0x02 1 (ownerOf a) a.tr d (tooLate a s)))) := by
  unfold fireUnit
  rw [h]
  dsimp only
  rw [if_neg (by simp [hf]), if_pos (by simp [hn, ht, hl]), if_neg (by simp [hd])]
  exact ⟨_, rfl⟩

/-- An action of die M without a requested time fires, and is not late (R262). -/
theorem fireUnit_fires {u : Nat} {a : Armed} {s : State} (h : unitOf s u = some a) (hd : a.dieF = false) (hf : firesNow s a = true)
    (ht : a.tr = 0) (act : Armed → State → State) :
    fireUnit u act s = count 132 0x0A02 (setUnit u none (act a (inTime a s))) := by
  unfold fireUnit
  rw [h]
  dsimp only
  rw [if_neg (by simp [hf]), if_neg (by simp [ht]), if_neg (by simp [hd]), if_neg (by simp [ht])]
  rfl

@[simp] theorem inTime_cad (a : Armed) (s : State) : (inTime a s).cad = s.cad := advanceTo_cad _ _
@[simp] theorem inTime_trc (a : Armed) (s : State) : (inTime a s).trc = s.trc := advanceTo_trc _ _
@[simp] theorem tooLate_trc (a : Armed) (s : State) : (tooLate a s).trc = s.trc := advanceTo_trc _ _

theorem inTime_dropCount (a : Armed) (s : State) : (inTime a s).time.dropCount = s.time.dropCount :=
  (noteLate_dropCount _ _ _).trans (advanceTo_dropCount _ _)

theorem inTime_lateCount (a : Armed) (s : State) : (inTime a s).time.lateCount = s.time.lateCount :=
  (noteLate_lateCount _ _ _).trans (advanceTo_lateCount _ _)

theorem tooLate_dropCount (a : Armed) (s : State) : (tooLate a s).time.dropCount = s.time.dropCount + 1 :=
  (noteLate_dropCount _ _ _).trans (congrArg (· + 1) (advanceTo_dropCount _ _))

/-! TIMED_ACTION_FIRE and DIE_F_ACTION_REPORT. -/

/-- Where no action fires, nothing changes. -/
theorem timedActionFire_of_still {u : Nat} {s : State} (h : fireUnit u actionAct s = s) : timedActionFire u s = s := by
  unfold timedActionFire
  dsimp only
  rw [h]
  split
  · rfl
  split
  · split
    · exact if_pos rfl
    · rfl
  · rfl

/-- For trace.trigger the row is the firing of its unit. -/
theorem timedActionFire_trigger {u k : Nat} {a : Armed} {s : State} (hfz : s.dev.frozen = false) (h : unitOf s u = some a)
    (hk : a.kind = .traceTrigger k) : timedActionFire u s = fireUnit u actionAct s := by
  unfold timedActionFire
  rw [if_neg (by simp [hfz]), h]
  simp only [hk]

theorem actionAct_trigger {a : Armed} {k : Nat} (hk : a.kind = .traceTrigger k) (s : State) : actionAct a s = trigger k s := by
  unfold actionAct
  rw [hk]

/-- A dropped trigger frees its unit, is counted and raises LATE_DROPPED; its session stays as it was (R264). -/
theorem timedActionFire_drops {u k : Nat} {a : Armed} {s : State} (hfz : s.dev.frozen = false) (h : unitOf s u = some a)
    (hk : a.kind = .traceTrigger k) (hd : a.dieF = false) (hf : firesNow s a = true) (hn : a.noLate = true) (ht : a.tr ≠ 0)
    (hl : ceilTo 4 a.tr < fireTick s a) :
    unitOf (timedActionFire u s) u = none ∧ (timedActionFire u s).time.dropCount = s.time.dropCount + 1 ∧
    Pending (timedActionFire u s) 45 ∧ (timedActionFire u s).trc.ses = s.trc.ses := by
  obtain ⟨d, he⟩ := fireUnit_drops h hd hf hn ht hl actionAct
  rw [timedActionFire_trigger hfz h hk, he]
  refine ⟨(unitOf_count _ _ _ _).trans (unitOf_setUnit_self _ _ _), ?_, raise_sets_pending 45 _ (by decide), ?_⟩
  · rw [count_time, setUnit_dropCount, raise_time, journal_time, tooLate_dropCount]
  · rw [count_trc, setUnit_trc, raise_trc_eq, journal_trc, tooLate_trc]

/-- A trigger that is not late frees its unit and triggers its session; nothing is counted as late or dropped (R193, R262). -/
theorem timedActionFire_triggers {u k : Nat} {a : Armed} {s : State} (hfz : s.dev.frozen = false) (h : unitOf s u = some a)
    (hk : a.kind = .traceTrigger k) (hd : a.dieF = false) (hf : firesNow s a = true) (ht : a.tr = 0) :
    unitOf (timedActionFire u s) u = none ∧ (timedActionFire u s).time.dropCount = s.time.dropCount ∧
    (timedActionFire u s).time.lateCount = s.time.lateCount ∧ sesOf (timedActionFire u s) k = sesOf (trigger k s) k ∧
    ∀ j, j ≠ k → sesOf (timedActionFire u s) j = sesOf s j := by
  have he : timedActionFire u s = count 132 0x0A02 (setUnit u none (trigger k (inTime a s))) := by
    rw [timedActionFire_trigger hfz h hk, fireUnit_fires h hd hf ht, actionAct_trigger hk]
  have hses : ∀ j, sesOf (timedActionFire u s) j = sesOf (trigger k (inTime a s)) j :=
    fun j => sesOf_congr j (by rw [he, count_trc, setUnit_trc])
  refine ⟨?_, ?_, ?_, ?_, fun j hj => ?_⟩
  · rw [he, unitOf_count, unitOf_setUnit_self]
  · rw [he, count_time, setUnit_dropCount, trigger_time, inTime_dropCount]
  · rw [he, count_time, setUnit_lateCount, trigger_time, inTime_lateCount]
  · rw [hses, sesOf_trigger_congr k (inTime_trc a s) (inTime_cad a s)]
  · rw [hses, sesOf_trigger_other hj, sesOf_congr j (inTime_trc a s)]

theorem actionReport_free {u : Nat} {s : State} (h : unitOf s u = none) : actionReport u s = s := by
  unfold actionReport
  rw [h]

/-- Once die F has reported, the unit is free (R261). -/
theorem actionReport_frees {u : Nat} {a : Armed} {s : State} (h : unitOf s u = some a) (hd : a.dieF = true) (hr : a.report ≠ 0)
    (hx : xlinkCarries s = true) : unitOf (actionReport u s) u = none := by
  have ht : (actionReport u s).time = (setUnit u none s).time := by
    unfold actionReport
    rw [h]
    dsimp only
    rw [if_pos (by simp [hd, hr, hx])]
    split
    · split <;> rfl
    · rfl
  exact (unitOf_congr u ht).trans (unitOf_setUnit_self _ _ _)

theorem actionReport_axes (u : Nat) (s : State) : (actionReport u s).axes = s.axes :=
  (actionReport_stays (msk := { io := true }) u s (.refl _ s) rfl).axes.resolve_left Bool.false_ne_true

theorem actionReport_grps (u : Nat) (s : State) : (actionReport u s).grps = s.grps :=
  (actionReport_stays (msk := { io := true }) u s (.refl _ s) rfl).grps.resolve_left Bool.false_ne_true

/-- Settles O56, a clause for each row: messages, intervals and time-outs of the ports by their role, the servo's interval, and a timed
action that fires, is dropped as late, waits, or is reported by die F. What a port's announce carries where the spec gives no value, and
that it counts as a frame and not as an event, is log entry 33 of the model, which it marks PRESUMED. -/
theorem ptpAndTimedRows : Obligations.PtpAndTimedRows := by
  intro s
  refine ⟨?_, ?_, ?_, ?_, ?_, ?_, ?_, ?_, ?_, ?_, ?_, ?_, ?_, ?_⟩
  · exact fun p m h => congrArg Host.Outcome.next (ptpMessage_off h m)
  · exact fun p tick b h => congrArg Host.Outcome.next (ptpInterval_off h tick b)
  · intro p gm hr hs
    have he := ptpMessage_announce hr gm
    rw [if_pos hs] at he
    exact ⟨_, congrArg Host.Outcome.next he, rfl, rfl, fun q => ptpOf_setPtp _ _ _ _⟩
  · intro p m hr hm
    exact ⟨_, congrArg Host.Outcome.next (ptpMessage_discards hr hm), (ptpOf_setPtp _ _ _ _).trans (if_pos rfl), rfl⟩
  · intro p b hr
    obtain ⟨log, body, he⟩ := ptpInterval_announce hr b
    exact ⟨_, congrArg Host.Outcome.next he, fun q => (ptpOf_ptpEmit _ _ _ _ _ _ _ _ _).trans (ptpOf_setPtp _ _ _ _),
      ptpEmit_out _ _ _ _ _ _ _ _⟩
  · exact fun p hr hf => congrArg Host.Outcome.next (announceTimeout_slave hr hf)
  · intro mean hf hx ha
    obtain ⟨target, he⟩ := gmServo_pending hf hx ha mean
    exact ⟨_, congrArg Host.Outcome.next he, rfl, rfl, rfl, rfl⟩
  · exact fun mean hf => congrArg Host.Outcome.next (gmServo_off hf mean)
  · exact fun u _ h => congrArg Host.Outcome.next (timedActionFire_of_still (fireUnit_free h _))
  · exact fun u a k hfz h hk hd hf hn ht hl => ⟨_, rfl, timedActionFire_drops hfz h hk hd hf hn ht hl⟩
  · exact fun u a h hf => congrArg Host.Outcome.next (timedActionFire_of_still (fireUnit_waits h hf _))
  · intro u a k hfz h hk hd hf ht
    obtain ⟨hunit, hdrop, hlate, hses, hother⟩ := timedActionFire_triggers hfz h hk hd hf ht
    exact ⟨_, rfl, hunit, hdrop, hlate, hses, fun hp => hses.trans (sesOf_trigger_early hp), hother⟩
  · exact fun u a h hd hr hx => ⟨_, rfl, actionReport_frees h hd hr hx, actionReport_axes _ _, actionReport_grps _ _⟩
  · exact fun u h => congrArg Host.Outcome.next (actionReport_free h)

end Sys2Proof.Machine

namespace Sys2Proof.Machine

/-! The zone commands. -/

/-- An accepted command whose act, from where it is admitted, is the operation `g`, one that leaves the mailboxes and BAR2, completes
with `g` done. -/
theorem accepted_does_operation {i : Instr} {sp : CmdSpec} {r : CmdRef} {s : State} (g : State → State)
    (hex : exec i s = .next (runCmd sp r s)) (h : Accepted sp r s)
    (hact : ∀ t, Quiet s t → t.admitSeq = s.admitSeq + 1 → (sp.body (cmdOf sp r s) s).act t = { s := g t })
    (hhost : ∀ t, (g t).host.mb = t.host.mb ∧ (g t).host.bar2 = t.host.bar2)
    (hg : ∀ t, Quiet s t → Quiet (g s) (g t)) : Does i r s [] (g s) := by
  refine accepted_does hex h (fun t q ha hh _ => ?_)
  obtain ⟨hmb, hbar⟩ := hhost t
  rw [hact t q ha]
  exact ⟨rfl, rfl, rfl, hmb.trans (congrArg HostSt.mb hh), hbar.trans (congrArg HostSt.bar2 hh), hg t q⟩

theorem setZone_quiet (z : Nat) (x : Zone) {s t : State} (q : Quiet s t) : Quiet (setZone z x s) (setZone z x t) :=
  { q with ssm := congrArg (fun c : SsmSt => { c with zones := tset {} c.zones z x }) q.ssm }

/-- Replace a zone, and place the shares of the ledger that its requests then cost (R252). -/
def setZoneCharged (l : List Share) (z : Nat) (x : Zone) (s : State) : State := setShares l (setZone z x s)

theorem setZoneCharged_host (l : List Share) (z : Nat) (x : Zone) (s : State) :
    (setZoneCharged l z x s).host.mb = s.host.mb ∧ (setZoneCharged l z x s).host.bar2 = s.host.bar2 := by
  unfold setZoneCharged
  rw [setShares_mb, setShares_bar2, setZone_host]
  exact ⟨rfl, rfl⟩

theorem setZoneCharged_quiet (l : List Share) (z : Nat) (x : Zone) {s t : State} (q : Quiet s t) :
    Quiet (setZoneCharged l z x s) (setZoneCharged l z x t) := setShares_quiet l (setZone_quiet z x q)

/-- Settles O36: zone.define writes the box, zone.request appends its request and zone.release marks the token or the requests, both
with the flow of the zones charged for what waits (R252), and zone.status answers from the zone. -/
theorem zoneCommandsComplete : Obligations.ZoneCommandsComplete := by
  intro r s
  refine ⟨fun _ => ⟨_, rfl⟩, fun _ => ⟨_, rfl⟩, fun _ => ⟨_, rfl⟩, fun _ => ⟨_, rfl⟩, ?_, ?_, ?_, ?_⟩
  · exact fun h => accepted_applies (setZone _ _) rfl h (fun _ => rfl) (fun _ => ⟨rfl, rfl⟩) (fun _ q _ => setZone_quiet _ _ q)
  · intro h
    refine accepted_does_operation (setZoneCharged _ _ _) rfl h (fun t q ha => ?_) (setZoneCharged_host _ _ _)
      (fun _ => setZoneCharged_quiet _ _ _)
    rw [← q.sch, ← ha]
    rfl
  · intro h
    refine accepted_does_operation (setZoneCharged _ _ _) rfl h (fun t q _ => ?_) (setZoneCharged_host _ _ _)
      (fun _ => setZoneCharged_quiet _ _ _)
    rw [← q.sch]
    exact congrArg (fun l => ({ s := setZoneCharged l _ _ t } : Act))
      (ite_congr rfl (fun hmore => congrArg (Option.getD · _) (if_pos hmore)) (fun _ => rfl))
  · exact fun h => accepted_answers rfl h (fun _ => rfl)

end Sys2Proof.Machine

namespace Sys2Proof.Machine

/-! The ssm commands. -/

theorem ssmOf_congr {a b : State} (g : Nat) (h : a.ssm = b.ssm) : ssmOf a g = ssmOf b g := by unfold ssmOf; rw [h]

theorem sensOf_congr {a b : State} (n : Nat) (h : a.ssm = b.ssm) : sensOf a n = sensOf b n := by unfold sensOf; rw [h]

theorem xlinkCarries_congr {a b : State} (h : a.xl = b.xl) : xlinkCarries a = xlinkCarries b := by unfold xlinkCarries; rw [h]

/-- A command that is refused where die F does not take its copy is accepted only where the crosslink carries it (R231). -/
theorem accepted_carried {sp : CmdSpec} {r : CmdRef} {s : State} (h : Accepted sp r s)
    (hb : (!dieFTakes s (payloadOf sp r s), Status.deviceFault) ∈ (sp.body (cmdOf sp r s) s).bad) : xlinkCarries s = true := by
  cases hx : xlinkCarries s with
  | true => rfl
  | false =>
    have ht : dieFTakes s (payloadOf sp r s) = false := by simp [dieFTakes, dieFCopy, hx]
    rw [ht] at hb
    exact absurd hb (accepted_not_bad h _)

/-- Over a crosslink that carries, die F holds the words of the command. -/
theorem dieFCopy_quiet {s t : State} (q : Quiet s t) (hx : xlinkCarries s = true) (p : List Byte) : dieFCopy t p = some p :=
  if_pos ((xlinkCarries_congr q.xl).trans hx)

/-- A change of separation monitoring alone. -/
def modSeparation (f : SsmSt → SsmSt) (s : State) : State := { s with ssm := f s.ssm }

theorem modSeparation_quiet (f : SsmSt → SsmSt) {s t : State} (q : Quiet s t) : Quiet (modSeparation f s) (modSeparation f t) :=
  { q with ssm := congrArg f q.ssm }

theorem setGov_quiet (g k : Nat) {s t : State} (q : Quiet s t) : Quiet (setGov g k s) (setGov g k t) := by
  unfold setGov
  rw [grpOf_congr g q.grps]
  split
  · exact q
  · exact raise_congr _ (modGrp_quiet _ _ q)

/-- A group's governing scale leaves the mailboxes and BAR2. -/
theorem setGov_host (g k : Nat) (s : State) : (setGov g k s).host.mb = s.host.mb ∧ (setGov g k s).host.bar2 = s.host.bar2 := by
  unfold setGov
  split
  · exact ⟨rfl, rfl⟩
  · exact ⟨raise_mb _ _, raise_bar2 _ _⟩

/-- The monitoring of group `g` configured as `p` on both channels, with what it has counted kept. -/
def groupMonitored (g : Nat) (p : List Byte) (s : State) : State :=
  let y := ssmOf s g
  modGrp g (fun x => { x with stoEnable := bitOf (u8 p 2) 1, stoCh := u8 p 3 })
    (setSsm g { cfg := p, cfgF := p, reason := y.reason, reasonAt := y.reasonAt, stops := y.stops } s)

/-- The same with the scale 1 of a group that is not monitored (R228). -/
def groupSet (g : Nat) (p : List Byte) (s : State) : State :=
  if u8 p 0 = 0 then setGov g 256 (groupMonitored g p s) else groupMonitored g p s

theorem groupMonitored_quiet (g : Nat) (p : List Byte) {s t : State} (q : Quiet s t) :
    Quiet (groupMonitored g p s) (groupMonitored g p t) := by
  unfold groupMonitored
  rw [ssmOf_congr g q.ssm]
  exact modGrp_quiet _ _ (modSeparation_quiet (fun c => { c with grp := tset {} c.grp g _ }) q)

theorem groupSet_quiet (g : Nat) (p : List Byte) {s t : State} (q : Quiet s t) : Quiet (groupSet g p s) (groupSet g p t) := by
  unfold groupSet
  split
  · exact setGov_quiet _ _ (groupMonitored_quiet _ _ q)
  · exact groupMonitored_quiet _ _ q

theorem groupSet_host (g : Nat) (p : List Byte) (s : State) :
    (groupSet g p s).host.mb = s.host.mb ∧ (groupSet g p s).host.bar2 = s.host.bar2 := by
  unfold groupSet
  split
  · exact setGov_host _ _ _
  · exact ⟨rfl, rfl⟩

/-- Where die F takes its copy, ssm.configure writes the payload to both channels. -/
theorem ssmConfigure_act {c : Cmd} {s t : State} (h : dieFCopy t c.p = some c.p) :
    (ssmConfigureSpec.body c s).act t = { s := modSeparation (fun m => { m with cfg := c.p, cfgF := c.p }) t } := by
  unfold ssmConfigureSpec
  dsimp only
  rw [h]
  rfl

/-- Where die F takes its copy, ssm.set_group writes the payload to both channels. -/
theorem ssmSetGroup_act {c : Cmd} {s t : State} (h : dieFCopy t c.p = some c.p) :
    (ssmSetGroupSpec.body c s).act t = { s := groupSet c.h.object c.p t } := by
  unfold ssmSetGroupSpec
  dsimp only
  rw [h]
  rfl

/-- Settles O37: ssm.configure and ssm.set_group write what both channels hold, which die F has taken where they are accepted (R231),
ssm.set_obstacles leaves its slots for the next snapshot, ssm.set_sensor waits for its promise time, and ssm.status answers. -/
theorem ssmCommandsComplete : Obligations.SsmCommandsComplete := by
  intro r s
  refine ⟨fun _ => ⟨_, rfl⟩, fun _ => ⟨_, rfl⟩, fun _ => ⟨_, rfl⟩, fun _ => ⟨_, rfl⟩, fun _ => ⟨_, rfl⟩, ?_, ?_, ?_, ?_, ?_⟩
  · intro h
    have hx : xlinkCarries s = true := accepted_carried h (by simp [ssmConfigureSpec, payloadOf])
    exact accepted_does_operation (modSeparation _) rfl h (fun t q _ => ssmConfigure_act (dieFCopy_quiet q hx _))
      (fun _ => ⟨rfl, rfl⟩) (fun _ => modSeparation_quiet _)
  · intro h
    have hx : xlinkCarries s = true := accepted_carried h (by simp [ssmSetGroupSpec, payloadOf])
    exact accepted_does_operation (groupSet _ _) rfl h (fun t q _ => ssmSetGroup_act (dieFCopy_quiet q hx _))
      (groupSet_host _ _) (fun _ => groupSet_quiet _ _)
  · exact fun h => accepted_does_operation (modSeparation (fun c => { c with obsNext := s.ssm.obsNext ++ _ })) rfl h
      (fun _ _ _ => rfl) (fun _ => ⟨rfl, rfl⟩) (fun _ => modSeparation_quiet _)
  · exact fun h => accepted_waits rfl h (fun _ => rfl)
  · exact fun h => accepted_answers rfl h (fun _ => rfl)

end Sys2Proof.Machine

namespace Sys2Proof.Machine

/-! Black-channel copies (R233). -/

section
variable {a : Nat} {b : List Byte} {s : State}

theorem blackCopy_dead (h : xlinkCarries s = false) : blackCopy a b s = s := if_pos (by simp [h])

/-- A copy that channel 2 takes: the axis has safety feedback, and the entry is its own, of the length of a feedback entry and valid
before the cutoff. -/
theorem blackCopy_takes {e : Entry} {l : List Entry} (hx : xlinkCarries s = true) (hr : readEntries 1 b = e :: l)
    (hm : (axisOf s a).map.segment ≠ 0xFF) (hf : (axisOf s a).map.safetyFb = true) (hk : e.kind = 2)
    (hst : e.station = (axisOf s a).map.station) (hc : e.chan = (axisOf s a).map.chan) (hl : e.data.length = 22)
    (hv : safetyValid (axisOf s a).map (axisOf s a).map.sCnt2 e = true) (hp : s.cad.phase = 0) :
    blackCopy a b s = modAxis a (fun y => { y with map := { y.map with sCnt2 := some e.cnt, got2 := true, last2 := fbOf e.data } })
      (count 136 0x0D02 s) := by
  unfold blackCopy
  rw [if_neg (by simp [hx]), hr]
  dsimp only
  rw [if_neg (by simp [hm, hf]), if_pos]
  simp [hk, hst, hc, hl, hv, hp]

/-- A copy changes at most the map of its axis. -/
theorem blackCopy_map : ∃ m, axisOf (blackCopy a b s) a = { axisOf s a with map := m } := by
  have hkeep : ∀ t : State, t.axes = s.axes → ∃ m, axisOf t a = { axisOf s a with map := m } :=
    fun t h => ⟨(axisOf s a).map, axisOf_congr' a h⟩
  unfold blackCopy
  dsimp only
  split
  · exact hkeep _ rfl
  split
  · exact hkeep _ rfl
  split
  · exact hkeep _ rfl
  split
  · exact ⟨_, axisOf_modAxis_self _ _ _⟩
  · exact hkeep _ rfl

/-- A copy leaves the field channels, the groups and the device as they are. -/
theorem blackCopy_frame : (blackCopy a b s).io = s.io ∧ (blackCopy a b s).grps = s.grps ∧ (blackCopy a b s).dev = s.dev := by
  have h : Same { axes := true } s (blackCopy a b s) := blackCopy_stays a b s (.refl _ s) rfl
  exact ⟨h.io.resolve_left Bool.false_ne_true, h.grps.resolve_left Bool.false_ne_true,
    (blackCopy_rest (msk := {}) a b s (.refl _ s)).dev_eq rfl⟩

end

/-! Verdicts of channel 2 (R234). -/

/-- Die M reads the verdict record of a group. -/
def receiveVerdict (g : Nat) (s : State) : State :=
  modSsm g (fun y => { y with v2 := y.v2calc.map (fun v => readVerdict (verdictRecord v)) }) s

theorem ch2Verdict_carried {p : Nat} {s : State} (h : xlinkCarries s = true) :
    ch2Verdict p s = receiveVerdict (2 * p + 1) (receiveVerdict (2 * p) s) := if_neg (by simp [h])

theorem ssmOf_receiveVerdict (g n : Nat) (s : State) : ssmOf (receiveVerdict g s) n =
    if n = g then { ssmOf s g with v2 := (ssmOf s g).v2calc.map (fun v => readVerdict (verdictRecord v)) } else ssmOf s n :=
  ssmOf_setSsm _ _ _ _

theorem ch2Verdict_v2 {p g : Nat} {s : State} (h : xlinkCarries s = true) (hg : g / 2 = p) :
    (ssmOf (ch2Verdict p s) g).v2 = (ssmOf s g).v2calc.map (fun v => readVerdict (verdictRecord v)) := by
  rw [ch2Verdict_carried h, ssmOf_receiveVerdict, ssmOf_receiveVerdict, ssmOf_receiveVerdict]
  obtain rfl | rfl : g = 2 * p ∨ g = 2 * p + 1 := by omega
  · simp
  · simp

/-! Sensor records and stale sensors (R220, R222). -/

theorem sensorStale_records {n : Nat} {s : State} (hc : u8 (sensOf s n).cfg 0 = 1) (hst : (sensOf s n).stale1 = true)
    (hr : (sensOf s n).recorded = false) (hg : s.cad.guardAt ≠ 0) : sensorStale n s =
      count 110 0x0704 (raise 80 (journal 0x0C 0x10 1 n 0 [] (setSens n { sensOf s n with recorded := true } s))) :=
  if_pos (by simp [hc, hst, hr, hg])

theorem sensorStale_left {n : Nat} {s : State} (hc : u8 (sensOf s n).cfg 0 = 1) (hst : (sensOf s n).stale1 = true)
    (hr : (sensOf s n).recorded = false) (hg : s.cad.guardAt ≠ 0) :
    sensOf (sensorStale n s) n = { sensOf s n with recorded := true } ∧ Pending (sensorStale n s) 80 ∧
    (sensorStale n s).grps = s.grps := by
  rw [sensorStale_records hc hst hr hg]
  refine ⟨?_, raise_sets_pending 80 _ (by decide), ?_⟩
  · rw [sensOf_congr n (count_ssm _ _ _), sensOf_congr n (raise_ssm _ _), sensOf_congr n (journal_ssm _ _ _ _ _ _ _), sensOf_setSens,
      if_pos rfl]
  · rw [count_grps, raise_grps, journal_grps, setSens_grps]

/-- The enabled sensors at a station of a segment. -/
def sensorsAt (s : State) (k st : Nat) : List Nat :=
  (List.range 16).filter (fun n => let c := (sensOf s n).cfg; u8 c 0 = 1 && u8 c 1 = k && u8 c 2 = st)

/-- The sensor that a record is judged for: the one that it names, or the first at its station. -/
def recordSensor (s : State) (k st : Nat) (b : List Byte) : Option Nat :=
  ((sensorsAt s k st).find? (fun n => n = u8 b 1)).or (sensorsAt s k st).head?

section
variable {k st n : Nat} {b : List Byte} {s : State}

/-- Where one sensor alone is enabled, every record of its station is judged for it. -/
theorem recordSensor_only (hn : n < 16) (honly : ∀ m < 16, m ≠ n → u8 (sensOf s m).cfg 0 ≠ 1) (hon : u8 (sensOf s n).cfg 0 = 1)
    (hk : u8 (sensOf s n).cfg 1 = k) (hst : u8 (sensOf s n).cfg 2 = st) : recordSensor s k st b = some n := by
  have hmem : n ∈ sensorsAt s k st := List.mem_filter.mpr ⟨List.mem_range.mpr hn, by simp [hon, hk, hst]⟩
  have honly' : ∀ m ∈ sensorsAt s k st, m = n := by
    intro m hm
    obtain ⟨hlt, hcfg⟩ := List.mem_filter.mp hm
    simp only [Bool.and_eq_true, decide_eq_true_eq] at hcfg
    obtain ⟨⟨hon', -⟩, -⟩ := hcfg
    exact Decidable.byContradiction (fun hne => honly m (List.mem_range.mp hlt) hne hon')
  have hhead : (sensorsAt s k st).head? = some n := by
    obtain ⟨m, l, hl⟩ := List.exists_cons_of_ne_nil (List.ne_nil_of_mem hmem)
    rw [hl, honly' m (hl ▸ List.mem_cons_self)]
    rfl
  unfold recordSensor
  cases hf : (sensorsAt s k st).find? (fun n => n = u8 b 1) with
  | none => exact hhead
  | some m => exact congrArg some (honly' m (List.mem_of_find?_eq_some hf))

/-- The state in which a good record reaches its sensor: a COARSE or TRACK record goes on to die F (R231). -/
def recordCarried (b : List Byte) (s : State) : State := if u8 b 0 = 2 || u8 b 0 = 3 then xsend .f 0x09 b s else s

/-- On a segment that runs, a record of a station that is not silenced is discarded or completes updates of its sensor. -/
theorem sensorRecord_eq (hs : recordSensor s k st b = some n) (hrun : (segOf s k).state = 3)
    (hsil : (segOf s k).silence.getLsbD st = false) : sensorRecord k st b s =
      if recordBad n b then count 111 0x0703 (setSens n { sensOf s n with discards := (sensOf s n).discards + 1 } s)
      else setSens n (completeUpdates (now s) (xlinkCarries s) (takeRecord s b (sensOf s n))) (recordCarried b s) := by
  unfold recordSensor sensorsAt at hs
  unfold sensorRecord
  dsimp only
  rw [hs]
  exact if_neg (by simp [hrun, hsil])

/-- Its way to die F leaves the sensors and the groups. -/
theorem recordCarried_frame : (recordCarried b s).ssm = s.ssm ∧ (recordCarried b s).grps = s.grps := by
  have h : Same {} s (recordCarried b s) := by
    unfold recordCarried
    split
    · exact xsend_stays _ _ _ _ (.refl _ s)
    · exact .refl _ s
  exact ⟨h.ssm.resolve_left Bool.false_ne_true, h.grps.resolve_left Bool.false_ne_true⟩

end

/-! Stop requests of monitored groups (R230, R233, R235). -/

section
variable {g : Nat} {s : State}

theorem tandemMismatch_off (h : monitored s g = false) : tandemMismatch g s = s := if_pos (by simp [h])
theorem verdictAbsent_off (h : monitored s g = false) : verdictAbsent g s = s := if_pos (by simp [h])
theorem speedExceeded_off (h : monitored s g = false) (second : Bool) : speedExceeded g second s = s := if_pos (by simp [h])
theorem ch2Feedback_off (h : monitored s g = false) : ch2Feedback g s = s := if_neg (by simp [h])

/-- Away from a cadence start a separation stop request waits in its group. -/
theorem sepRequest_waits (cat : Nat) (h : s.cad.phase ≠ 0 ∨ s.cad.started = false) : sepRequest g cat s = reqStopGrp g cat s :=
  if_neg (by rcases h with h | h <;> simp [h])

/-- The state in which a mismatch of the channels asks for its stop: recorded with both verdicts, and counted where it starts one. -/
def mismatchNoted (g : Nat) (s : State) : State :=
  let y := ssmOf s g
  let s1 := raise 78 (journal 0x0C 0x04 2 g 0 (verdictBytes (y.v1.getD {}) ++ verdictBytes (y.v2.getD {})) (noteReason g 4 s))
  if stopStarts s g 1 then modSsm g (fun z => { z with stops := z.stops + 1 }) s1 else s1

theorem tandemMismatch_requests (hm : monitored s g = true) (hn : max 1 (u8 s.ssm.cfg 2) ≤ (ssmOf s g).mismatch) :
    tandemMismatch g s = sepRequest g 1 (mismatchNoted g s) := if_neg (by simp [hm]; omega)

/-- Noting a mismatch leaves the cadence and the groups, and its event is pending. -/
theorem mismatchNoted_left : (mismatchNoted g s).cad = s.cad ∧ (mismatchNoted g s).grps = s.grps ∧ Pending (mismatchNoted g s) 78 := by
  unfold mismatchNoted
  extract_lets y s1
  have hcad : s1.cad = s.cad := by rw [show s1.cad = _ from raise_cad _ _, journal_cad, noteReason_cad']
  have hgrps : s1.grps = s.grps := by rw [show s1.grps = _ from raise_grps _ _, journal_grps, noteReason_grps']
  have hpend : Pending s1 78 := raise_sets_pending 78 _ (by decide)
  split
  · exact ⟨hcad, hgrps, hpend⟩
  · exact ⟨hcad, hgrps, hpend⟩

theorem tandemMismatch_stops (hm : monitored s g = true) (hc : s.cad.phase ≠ 0 ∨ s.cad.started = false)
    (hn : max 1 (u8 s.ssm.cfg 2) ≤ (ssmOf s g).mismatch) :
    (grpOf (tandemMismatch g s) g).stops = (grpOf s g).stops ++ [1] ∧ Pending (tandemMismatch g s) 78 := by
  obtain ⟨hcad, hgrps, hpend⟩ := mismatchNoted_left (g := g) (s := s)
  rw [tandemMismatch_requests hm hn, sepRequest_waits 1 (hcad.symm ▸ hc)]
  exact ⟨reqStop_stops _ _ _ _ hgrps, hpend⟩

theorem verdictAbsent_stops (hm : monitored s g = true) (hc : s.cad.phase ≠ 0 ∨ s.cad.started = false)
    (hn : max 1 (u8 s.ssm.cfg 2) ≤ (ssmOf s g).absent) : (grpOf (verdictAbsent g s) g).stops = (grpOf s g).stops ++ [1] := by
  rw [show verdictAbsent g s = sepStop g 1 5 [] s from if_neg (by simp [hm]; omega)]
  exact sepStop_stops _ _ _ _ _ hc

theorem speedExceeded_stops_first (hm : monitored s g = true) (hc : s.cad.phase ≠ 0 ∨ s.cad.started = false)
    (hn : 2 ≤ (ssmOf s g).fast1) : (grpOf (speedExceeded g false s) g).stops = (grpOf s g).stops ++ [1] := by
  rw [show speedExceeded g false s = sepStop g 1 2 _ s from if_neg (by simp [hm]; omega)]
  exact sepStop_stops _ _ _ _ _ hc

theorem speedExceeded_stops_second (hm : monitored s g = true) (hc : s.cad.phase ≠ 0 ∨ s.cad.started = false)
    (hn : 2 ≤ (ssmOf s g).fast2) : (grpOf (speedExceeded g true s) g).stops = (grpOf s g).stops ++ [1] := by
  rw [show speedExceeded g true s = ch2Issued g (sepStop g 1 2 _ s) from if_neg (by simp [hm]; omega), grpOf_congr g (ch2Issued_grps _ _)]
  exact sepStop_stops _ _ _ _ _ hc

theorem ch2Feedback_stops (hm : monitored s g = true) (hc : s.cad.phase ≠ 0 ∨ s.cad.started = false)
    (hf : (ssmOf s g).feed2 = true) : (grpOf (ch2Feedback g s) g).stops = (grpOf s g).stops ++ [1] := by
  rw [show ch2Feedback g s = ch2Issued g (sepStop g 1 9 [] s) from if_pos (by simp [hm, hf]), grpOf_congr g (ch2Issued_grps _ _)]
  exact sepStop_stops _ _ _ _ _ hc

/-! The override of channel 2 (R236). -/

theorem ch2Override_none (h : (ssmOf s g).ch2Stop = none) : ch2Override g s = s := by
  unfold ch2Override
  dsimp only
  rw [h]

/-- The state in which the supervision of a stop that channel 2 issued at `w` is over. -/
def supervisionOver (g w : Nat) (s : State) : State :=
  modSsm g (fun z => { z with ch2Stop := none }) (advanceTo (w + stopNs s true g + s.cad.guardPer * s.cad.ns) s)

/-- The state in which die F drives the safe torque off of the group. -/
def channelDriven (g : Nat) (s : State) : State :=
  modChan (u8 (ssmOf s g).cfgF 3) (fun h => { h with sto := true }) (modSsm g (fun z => { z with override2 := true }) s)

/-- At its instant the supervision is over, and die F turns the channel off where the group is still fast. -/
theorem ch2Override_cases {w : Nat} (h : (ssmOf s g).ch2Stop = some w) : ch2Override g s = supervisionOver g w s ∨
    ch2Override g s = count 136 0x0D05 (journalF 0x0C 0x06 3 g 0 [] (pinsOff (channelDriven g (supervisionOver g w s)))) := by
  have hcfg : (ssmOf (supervisionOver g w s) g).cfgF = (ssmOf s g).cfgF := by
    unfold supervisionOver
    rw [ssmOf_modSsm_self, ssmOf_congr g (advanceTo_ssm _ _)]
  unfold ch2Override channelDriven
  rw [hcfg]
  dsimp only
  rw [h]
  dsimp only
  split
  · exact .inl rfl
  · exact .inr rfl

theorem ch2Override_clears {w : Nat} (h : (ssmOf s g).ch2Stop = some w) : (ssmOf (ch2Override g s) g).ch2Stop = none := by
  have hover : (ssmOf (supervisionOver g w s) g).ch2Stop = none := by
    unfold supervisionOver
    rw [ssmOf_modSsm_self]
  have hpins : ∀ u, (pinsOff u).ssm = u.ssm := fun u =>
    (pinsOff_stays (msk := { io := true }) u (.refl _ u) rfl).ssm.resolve_left Bool.false_ne_true
  have hdriven : ∀ u, (ssmOf (channelDriven g u) g).ch2Stop = (ssmOf u g).ch2Stop := fun u => by
    unfold channelDriven
    rw [ssmOf_congr g (modChan_ssm _ _ _), ssmOf_modSsm_self]
  rcases ch2Override_cases h with e | e <;> rw [e]
  · exact hover
  · rw [ssmOf_congr g (count_ssm _ _ _), ssmOf_congr g (journalF_ssm _ _ _ _ _ _ _), ssmOf_congr g (hpins _), hdriven, hover]

end

/-- Settles O53, a clause for each row. That sensor records reach channel 2 at once, and how a verdict record is rounded, is log entry 51
of the model. -/
theorem separationRows : Obligations.SeparationRows := by
  intro s
  refine ⟨?_, ?_, ?_, ?_, ?_, ?_, ?_, ?_, ?_, ?_, ?_⟩
  · exact fun a e hx => congrArg Host.Outcome.next (blackCopy_dead hx)
  · intro a e _
    obtain ⟨hio, hgrps, hdev⟩ := blackCopy_frame (a := a) (b := e) (s := s)
    obtain ⟨m, hmap⟩ := blackCopy_map (a := a) (b := e) (s := s)
    exact ⟨_, rfl, hio, hgrps, hdev, by rw [hmap]⟩
  · exact fun p hx => ⟨_, rfl, fun g hg => ch2Verdict_v2 hx hg, by rw [ch2Verdict_carried hx]; rfl⟩
  · exact fun n hc hst hr hg => ⟨_, rfl, sensorStale_left hc hst hr hg⟩
  · exact fun g hm => ⟨congrArg Host.Outcome.next (tandemMismatch_off hm), congrArg Host.Outcome.next (verdictAbsent_off hm),
      fun b => congrArg Host.Outcome.next (speedExceeded_off hm b), congrArg Host.Outcome.next (ch2Feedback_off hm)⟩
  · exact fun g hm hc => ⟨fun hn => ⟨_, rfl, tandemMismatch_stops hm hc hn⟩, fun hn => ⟨_, rfl, verdictAbsent_stops hm hc hn⟩,
      fun hn => ⟨_, rfl, speedExceeded_stops_first hm hc hn⟩, fun hn => ⟨_, rfl, speedExceeded_stops_second hm hc hn⟩,
      fun hf => ⟨_, rfl, ch2Feedback_stops hm hc hf⟩⟩
  · exact fun g h => congrArg Host.Outcome.next (ch2Override_none h)
  · exact fun g w h => ⟨_, rfl, ch2Override_clears h⟩
  · intro k st n b honly hon hk hst hrun hsil hb
    have he := (sensorRecord_eq (recordSensor_only n.isLt honly hon hk hst) hrun hsil).trans (if_pos hb)
    have hself : sensOf (sensorRecord k st.toNat b s) n = { sensOf s n with discards := (sensOf s n).discards + 1 } := by
      rw [he, sensOf_congr n (count_ssm _ _ _), sensOf_setSens, if_pos rfl]
    exact ⟨_, rfl, by rw [hself], by rw [hself], by rw [he]; rfl⟩
  · intro a b e l hx hr hm hf hk hst hc hl hv hp
    have hself := axisOf_modAxis_self a
      (fun y => { y with map := { y.map with sCnt2 := some e.cnt, got2 := true, last2 := fbOf e.data } }) (count 136 0x0D02 s)
    exact ⟨_, congrArg Host.Outcome.next (blackCopy_takes hx hr hm hf hk hst hc hl hv hp), by rw [hself], by rw [hself], by rw [hself]⟩
  · intro k st n b honly hon hk hst hrun hsil hb
    obtain ⟨hssm, hgrps⟩ := recordCarried_frame (b := b) (s := s)
    have he := (sensorRecord_eq (recordSensor_only n.isLt honly hon hk hst) hrun hsil).trans (if_neg (Bool.eq_false_iff.mp hb))
    refine ⟨_, congrArg Host.Outcome.next he, ?_, fun m hm => ?_, hgrps⟩
    · rw [sensOf_setSens, if_pos rfl]
    · rw [sensOf_setSens, if_neg hm, sensOf_congr m hssm]

end Sys2Proof.Machine

namespace Sys2Proof.Machine

/-! The sched commands. -/

theorem setCls_quiet (k : Nat) (x : ClassSt) {s t : State} (q : Quiet s t) : Quiet (setCls k x s) (setCls k x t) :=
  { q with sch := congrArg (fun c : SchedSt => { c with cls := tset {} c.cls k x }) q.sch }

theorem freeNext_quiet {s t : State} (q : Quiet s t) : Quiet (freeNext s) (freeNext t) := { q with free := congrArg (· + 1) q.free }

/-- sched.flow_status answers the flow, its owner and the descriptor of the task in service, zeros where there is none (R246). -/
theorem schedFlowStatus_act (c : Cmd) (s t : State) : (schedFlowStatusSpec.body c s).act t =
    { s := t
      res := fields [(1, flowState c.h.object s), (1, (flowOf s c.h.object).qlim), (1, (flowOf s c.h.object).queue.length),
        (1, (flowOwner c.h.object).1), (4, (flowOwner c.h.object).2), (4, (flowOf s c.h.object).overruns.toNat), (4, 0)]
        ++ (flowOf s c.h.object).service.elim (List.replicate 32 0) (fun x => descBytes x.d) } := by
  unfold schedFlowStatusSpec
  dsimp only
  cases (flowOf s c.h.object).service <;> rfl

/-- An accepted command whose act does not leave it for later completes from the state that its act leaves. -/
theorem accepted_completes {sp : CmdSpec} {r : CmdRef} {s : State} (h : Accepted sp r s)
    (hlater : ∀ t, ((sp.body (cmdOf sp r s) s).act t).later = false) :
    ∃ t st time state, t.host = s.host ∧ runCmd sp r s = complete r.mb r.slot st time state
      ((sp.body (cmdOf sp r s) s).act t).res ((sp.body (cmdOf sp r s) s).act t).s := by
  obtain ⟨⟨htakes, hop⟩, hok⟩ := h
  unfold refusalOf at hok
  dsimp only at hok
  unfold runCmd
  rw [if_pos (by simp [htakes, hop])]
  unfold admitCmd
  dsimp only
  rw [hok]
  dsimp only
  rw [hlater, if_neg Bool.false_ne_true]
  refine ⟨_, _, _, _, ?_, rfl⟩
  split <;> rfl

/-- A slot that is DONE stays DONE. -/
theorem Kept.slot_done {s t : State} (h : Kept s t) {m k : Nat} (hd : slotOf s m k = .done) : slotOf t m k = .done :=
  (h.host.slot m k).elim (fun e => e.trans hd) And.right

/-- A slot that is POSTED stays so or becomes DONE. -/
theorem Kept.slot_posted {s t : State} (h : Kept s t) {m k : Nat} (hp : slotOf s m k = .posted) :
    slotOf t m k = .posted ∨ slotOf t m k = .done :=
  (h.host.slot m k).elim (fun e => .inl (e.trans hp)) (fun e => .inr e.2)

/-- The completion of a command whose slot is DONE already, or still POSTED, leaves it DONE. -/
theorem complete_leaves_done {m k : Nat} {st : Status} {time state : Nat} {res : List Byte} {s : State} (hm : m ≠ imageMb)
    (h : slotOf s m k = .posted ∨ slotOf s m k = .done) : slotOf (complete m k st time state res s) m k = .done :=
  h.elim (complete_done hm) (complete_kept m k st time state res s (.refl s)).slot_done

/-- Only the command of a POSTED slot can be cancelled (R255). -/
theorem cancelReason_none_posted {s : State} {m k : Nat} (h : cancelReason s m k = none) : slotOf s m k = .posted := by
  refine Classical.byContradiction (fun hp => ?_)
  unfold cancelReason at h
  rw [if_pos hp] at h
  exact Option.some_ne_none _ h

/-- sched.cancel is accepted for the number of a mailbox slot that is POSTED. -/
theorem schedCancel_accepted {r : CmdRef} {s : State} (h : Accepted schedCancelSpec r s) :
    objectOf r s / 32 ≠ imageMb ∧ slotOf s (objectOf r s / 32) (objectOf r s % 32) = .posted := by
  have hobj : objectOf r s < 256 := by
    refine Classical.byContradiction (fun hn => firstBad_none _ h.2 .badObject (List.mem_append_left _ ?_))
    have hbad : (!schedCancelSpec.objOk (cmdOf schedCancelSpec r s).h.object s) = true :=
      congrArg Bool.not (decide_eq_false hn : schedCancelSpec.objOk (objectOf r s) s = false)
    unfold commonBad
    dsimp only
    rw [hbad]
    simp only [List.mem_cons, true_or, or_true]
  refine ⟨by unfold imageMb; omega, cancelReason_none_posted (Option.not_isSome_iff_eq_none.mp (fun hs => ?_))⟩
  refine accepted_not_bad h .stateConflict (List.mem_cons_of_mem _ (List.mem_singleton.mpr ?_))
  exact congrArg (·, Status.stateConflict) hs.symm

/-- A slot cancelled with its waiting tasks is DONE. -/
theorem cancelled_done {m k time state : Nat} {t : State} (hm : m ≠ imageMb) (h : slotOf t m k = .posted) :
    slotOf (cancelTasks m k (complete m k .cancelled time state [] t)) m k = .done :=
  have hkept := cancelTasks_kept m k _ (.refl (complete m k .cancelled time state [] t))
  hkept.slot_done (complete_done hm h)

theorem schedCancel_act (r : CmdRef) (s t : State) : ((schedCancelSpec.body (cmdOf schedCancelSpec r s) s).act t).s =
    cancelTasks (objectOf r s / 32) (objectOf r s % 32)
      (complete (objectOf r s / 32) (objectOf r s % 32) .cancelled (now t) 0xFFFFFFFF [] t) := by
  rw [← show (cmdOf schedCancelSpec r s).h.object = objectOf r s from rfl]
  generalize cmdOf schedCancelSpec r s = c
  unfold schedCancelSpec
  with_reducible rfl

/-- An accepted sched.cancel leaves its own slot and the slot that it cancels DONE. -/
theorem schedCancel_slots {r : CmdRef} {s : State} (h : Accepted schedCancelSpec r s) :
    slotOf (runCmd schedCancelSpec r s) r.mb r.slot = .done ∧
    slotOf (runCmd schedCancelSpec r s) (objectOf r s / 32) (objectOf r s % 32) = .done := by
  obtain ⟨hmb, hposted⟩ := schedCancel_accepted h
  obtain ⟨t, st, time, state, hhost, hrun⟩ := accepted_completes h (fun _ => rfl)
  have hcancelled := cancelled_done (time := now t) (state := 0xFFFFFFFF) hmb ((slotOf_congr _ _ hhost).trans hposted)
  have hown := ((schedCancelSpec_kept (cmdOf schedCancelSpec r s) s).2 t (.refl t)).slot_posted
    ((slotOf_congr _ _ hhost).trans (supTakes_posted h.1.1))
  rw [← schedCancel_act] at hcancelled
  rw [hrun]
  generalize (schedCancelSpec.body (cmdOf schedCancelSpec r s) s).act t = a at hcancelled hown
  exact ⟨complete_leaves_done (by have := r.mb.isLt; unfold imageMb; omega) hown,
    (complete_kept _ _ _ _ _ _ _ (.refl _)).slot_done hcancelled⟩

/-- Settles O28: sched.status, sched.load, sched.wcet and sched.flow_status answer, sched.set_watermarks and sched.clear_stats write their
class, sched.flow_limit waits for its promise time, and sched.cancel leaves two slots DONE. -/
theorem schedCommandsComplete : Obligations.SchedCommandsComplete := by
  intro r s
  refine ⟨fun _ => ⟨_, rfl⟩, fun _ => ⟨_, rfl⟩, fun _ => ⟨_, rfl⟩, fun _ => ⟨_, rfl⟩, fun _ => ⟨_, rfl⟩, fun _ => ⟨_, rfl⟩,
    fun _ => ⟨_, rfl⟩, fun _ => ⟨_, rfl⟩, ?_, ?_, ?_, ?_, ?_, ?_, ?_, ?_⟩
  · exact fun h => accepted_answers rfl h (fun _ => rfl)
  · exact fun h => accepted_answers rfl h (fun _ => rfl)
  · exact fun h => accepted_applies freeNext rfl h (fun _ => rfl) (fun _ => ⟨rfl, rfl⟩) (fun _ q _ => freeNext_quiet q)
  · exact fun h => accepted_applies (setCls _ _) rfl h (fun _ => rfl) (fun _ => ⟨rfl, rfl⟩) (fun _ q _ => setCls_quiet _ _ q)
  · exact fun h => accepted_applies (setCls _ _) rfl h (fun _ => rfl) (fun _ => ⟨rfl, rfl⟩) (fun _ q _ => setCls_quiet _ _ q)
  · exact fun h => accepted_answers rfl h (schedFlowStatus_act _ s)
  · exact fun h => accepted_waits rfl h (fun _ => rfl)
  · exact fun h => ⟨_, rfl, schedCancel_slots h⟩

end Sys2Proof.Machine

namespace Sys2Proof.Machine

/-! What the operations of the scheduler leave of its lists and units. -/

/-- The maxima, minima and water marks of a class change no other class. -/
theorem clsOf_noteDepth_other {k j : Nat} (h : j ≠ k) (s : State) : clsOf (noteDepth k s) j = clsOf s j := by
  obtain ⟨v, hsch, -⟩ := noteDepth_eq k s
  rw [clsOf_congr j (congrArg _ hsch), clsOf_setCls', if_neg h]

@[simp] theorem noteDepth_ready (k j : Nat) (s : State) : (clsOf (noteDepth k s) j).ready = (clsOf s j).ready := by
  by_cases h : j = k
  · obtain ⟨v, hsch, hready, -⟩ := noteDepth_eq k s
    rw [clsOf_congr j (congrArg _ hsch), clsOf_setCls', if_pos h, hready, h]
  · rw [clsOf_noteDepth_other h]

@[simp] theorem noteDepth_held (k j : Nat) (s : State) : (clsOf (noteDepth k s) j).held = (clsOf s j).held := by
  by_cases h : j = k
  · obtain ⟨v, hsch, -, -, -, hheld⟩ := noteDepth_eq k s
    rw [clsOf_congr j (congrArg _ hsch), clsOf_setCls', if_pos h, hheld, h]
  · rw [clsOf_noteDepth_other h]

@[simp] theorem noteDepth_flows (k : Nat) (s : State) : (noteDepth k s).sch.flows = s.sch.flows := by
  obtain ⟨v, hsch, -⟩ := noteDepth_eq k s
  rw [hsch]
  rfl

@[simp] theorem noteDepth_units (k : Nat) (s : State) : (noteDepth k s).sch.units = s.sch.units := by
  obtain ⟨v, hsch, -⟩ := noteDepth_eq k s
  rw [hsch]
  rfl

theorem onUnit_setOnUnit_self (k u : Nat) (t : Option Task) (s : State) : onUnit (setOnUnit k u t s) k u = t := by
  unfold onUnit setOnUnit
  rw [tget_tset, if_pos rfl]

/-! Counting the busy cycles of a unit changes no class, no flow and no unit. -/

theorem addBusy_cls (k u n : Nat) (s : State) : (addBusy k u n s).sch.cls = s.sch.cls := by rw [addBusy_sch]

theorem addBusy_flows (k u n : Nat) (s : State) : (addBusy k u n s).sch.flows = s.sch.flows := by rw [addBusy_sch]

theorem addBusy_units (k u n : Nat) (s : State) : (addBusy k u n s).sch.units = s.sch.units := by rw [addBusy_sch]

/-! Places of a task: ready, held, suspended (R240, R241). -/

theorem suspend_suspended (t : Task) (s : State) : (clsOf (suspend t s) 0).suspended = (clsOf s 0).suspended ++ [t] := by
  unfold suspend
  rw [clsOf_setCls', if_pos rfl]

theorem suspend_flows (t : Task) (s : State) : (suspend t s).sch.flows = s.sch.flows := rfl

theorem suspend_units (t : Task) (s : State) : (suspend t s).sch.units = s.sch.units := rfl

/-- Only an FFT block waits for a compute end. -/
theorem fftWaits_of_type {d : Descriptor} (h : d.type ≠ 0x0003) (s : State) : fftWaits s d = false := by
  unfold fftWaits
  rw [decide_eq_false h]
  rfl

@[simp] theorem makeReady_time (t : Task) (s : State) : (makeReady t s).time = s.time := by
  unfold makeReady
  rw [noteDepth_time]
  rfl

@[simp] theorem makeReady_held (t : Task) (s : State) : (clsOf (makeReady t s) t.d.cls.val).held = (clsOf s t.d.cls.val).held := by
  unfold makeReady
  rw [noteDepth_held, clsOf_setCls', if_pos rfl]

/-- A task is ready where its release has come (R240). -/
theorem taskDue_released {t : Task} {s : State} (hn : longOf s t.d.release.toNat ≤ now s) (htype : t.d.type ≠ 0x0003) :
    taskDue t s = makeReady t s := by
  unfold taskDue
  dsimp only
  rw [if_neg (Nat.not_lt.mpr hn), fftWaits_of_type htype, if_neg Bool.false_ne_true]

/-- A task is held where its release is still to come (R240). -/
theorem taskDue_early {t : Task} {s : State} (hn : now s < longOf s t.d.release.toNat) : taskDue t s =
    noteDepth t.d.cls.val (setCls t.d.cls.val { clsOf s t.d.cls.val with held := (clsOf s t.d.cls.val).held ++ [t] } s) :=
  if_pos hn

/-! Enqueuing (R240, R245, R246). -/

/-- A task that has a descriptor and no flow comes to its place at once. -/
theorem enqueueTask_unqueued {d : Descriptor} {s : State} (hpool : periodic d = true ∨ poolFree s d.cls.val ≠ 0) (hflow : noFlow d = true) :
    enqueueTask d s = count (5 + d.cls.val) 0x0301 (taskDue { d := d } s) := by
  unfold enqueueTask
  dsimp only
  have hdesc : ¬((!periodic d && decide (poolFree s d.cls.val = 0)) = true) := by
    rcases hpool with hp | hfree
    · rw [hp]
      exact Bool.false_ne_true
    · rw [decide_eq_false hfree, Bool.and_false]
      exact Bool.false_ne_true
  rw [if_neg hdesc, if_neg (by rw [hflow]; exact Bool.false_ne_true)]

/-- A task that finds no descriptor stalls its port. -/
theorem enqueueTask_exhausted {d : Descriptor} {s : State} (hp : periodic d = false) (hpool : poolFree s d.cls.val = 0) :
    enqueueTask d s = stallPort { d := d } s :=
  if_pos (by simp [hp, hpool])

theorem stallPort_stalled (t : Task) (s : State) :
    clsOf (stallPort t s) t.d.cls.val = { clsOf s t.d.cls.val with
      stalls := (clsOf s t.d.cls.val).stalls + 1, stalled := true, stalledTasks := (clsOf s t.d.cls.val).stalledTasks ++ [t] } := by
  unfold stallPort
  rw [cls_count, clsOf_congr _ (congrArg _ (raise_sch _ _)), clsOf_setCls', if_pos rfl]

theorem stallPort_pending (t : Task) (s : State) : Pending (stallPort t s) 49 := raise_sets_pending 49 _ (by decide)

/-- A task that has a descriptor and no flow becomes ready where its release has come. -/
theorem enqueueTask_released {d : Descriptor} {s : State} (hpool : periodic d = true ∨ poolFree s d.cls.val ≠ 0) (hflow : noFlow d = true)
    (htype : d.type ≠ 0x0003) (hn : longOf s d.release.toNat ≤ now s) :
    (clsOf (enqueueTask d s) d.cls.val).ready = (clsOf s d.cls.val).ready ++ [{ d := d, readyAt := now s, order := s.admitSeq }] ∧
    (∀ j, j ≠ d.cls.val → clsOf (enqueueTask d s) j = clsOf s j) ∧ (enqueueTask d s).sch.flows = s.sch.flows ∧
    (enqueueTask d s).axes = s.axes ∧ (enqueueTask d s).grps = s.grps := by
  rw [enqueueTask_unqueued hpool hflow, taskDue_released (t := { d := d }) hn htype]
  exact makeReady_cls { d := d } s

/-- A task that has a descriptor and no flow is held until its release. -/
theorem enqueueTask_early {d : Descriptor} {s : State} (hpool : periodic d = true ∨ poolFree s d.cls.val ≠ 0) (hflow : noFlow d = true)
    (hn : now s < longOf s d.release.toNat) :
    (clsOf (enqueueTask d s) d.cls.val).held = (clsOf s d.cls.val).held ++ [{ d := d }] ∧
    (clsOf (enqueueTask d s) d.cls.val).ready = (clsOf s d.cls.val).ready ∧ (enqueueTask d s).time = s.time := by
  rw [enqueueTask_unqueued hpool hflow, taskDue_early (t := { d := d }) hn]
  simp [cls_count]

/-! TASK_RELEASE (R240). -/

/-- What no producer of the device forms is no task (R242). -/
theorem taskRelease_malformed {d : Descriptor} {s : State} (hnew : (clsOf s d.cls.val).held.find? (fun t => t.d = d) = none)
    (hd : descOk s d = false) : taskRelease d s = s := by
  unfold taskRelease
  rw [hnew]
  dsimp only
  rw [hd, if_pos Bool.not_false]

/-- A task that the scheduler does not hold is enqueued; for an FFT block the frequency response counts it first (R203). -/
theorem taskRelease_new {d : Descriptor} {s : State} (hnew : (clsOf s d.cls.val).held.find? (fun t => t.d = d) = none)
    (hd : descOk s d = true) : ∃ u, u.sch = s.sch ∧ (d.type ≠ 0x0003 → u = s) ∧ taskRelease d s = enqueueTask d u := by
  unfold taskRelease
  rw [hnew]
  dsimp only
  rw [hd, if_neg (by decide)]
  refine ⟨_, ?_, fun htype => if_neg htype, rfl⟩
  split <;> rfl

theorem poolFree_congr {a b : State} (k : Nat) (h : a.sch = b.sch) : poolFree a k = poolFree b k := by
  unfold poolFree poolUsed clsOf
  rw [h]

/-- A task that the scheduler does not hold and that finds no descriptor stalls its port. -/
theorem taskRelease_exhausted {d : Descriptor} {s : State} (hnew : (clsOf s d.cls.val).held.find? (fun t => t.d = d) = none)
    (hd : descOk s d = true) (hp : periodic d = false) (hpool : poolFree s d.cls.val = 0) :
    ∃ u, u.sch = s.sch ∧ taskRelease d s = stallPort { d := d } u := by
  obtain ⟨u, hsch, -, hrun⟩ := taskRelease_new hnew hd
  exact ⟨u, hsch, hrun.trans (enqueueTask_exhausted hp ((poolFree_congr _ hsch).trans hpool))⟩

theorem taskRelease_held {d : Descriptor} {s : State} {x : Task} (h : (clsOf s d.cls.val).held.find? (fun t => t.d = d) = some x) :
    taskRelease d s = releaseHeld x s := by
  unfold taskRelease
  rw [h]

/-- A held task that reaches its release leaves the held list for the ready one. -/
theorem releaseHeld_moves {t : Task} (htype : t.d.type ≠ 0x0003) (s : State) :
    (clsOf (releaseHeld t s) t.d.cls.val).held = (clsOf s t.d.cls.val).held.erase t ∧
    (clsOf (releaseHeld t s) t.d.cls.val).ready =
      (clsOf s t.d.cls.val).ready ++ [{ t with readyAt := now (releaseHeld t s), order := s.admitSeq }] := by
  unfold releaseHeld
  dsimp only
  rw [fftWaits_of_type htype, if_neg Bool.false_ne_true]
  have hcls : clsOf (advanceTo (longOf s t.d.release.toNat) s) t.d.cls.val = clsOf s t.d.cls.val := clsOf_congr _ (by rw [advanceTo_sch])
  rw [makeReady_held, (makeReady_cls _ _).1, now_congr (makeReady_time _ _), clsOf_setCls', if_pos rfl, setCls_admitSeq, advanceTo_admitSeq,
    hcls]
  exact ⟨rfl, rfl⟩

/-! TASK_DISPATCH (R240). -/

/-- The first ready task that a unit can take is on that unit, and no longer ready. -/
theorem taskDispatch_takes {k u : Nat} {s : State} {x : Task}
    (hx : firstBy (before s k) ((clsOf s k).ready.filter (fun y => (freeUnitFor s y).isSome)) = some x) (hu : freeUnitFor s x = some u) :
    onUnit (taskDispatch k s) k u = some x ∧ (clsOf (taskDispatch k s) k).ready = (clsOf s k).ready.erase x := by
  unfold taskDispatch
  extract_lets c
  rw [hx]
  dsimp -zeta only
  rw [hu]
  dsimp -zeta only
  extract_lets b c1 s1 sch s2 w s3
  have hsch : s3.sch.units = s1.sch.units ∧ s3.sch.cls = s1.sch.cls := by
    simp only [s3]
    split <;> exact ⟨rfl, rfl⟩
  constructor
  · rw [onUnit_congr k u (noteDepth_units _ _), onUnit_congr k u (congrArg SchedSt.units (count_sch _ _ _)), onUnit_congr k u hsch.1,
      onUnit_setOnUnit_self]
  · rw [noteDepth_ready, cls_count, clsOf_congr k (hsch.2.trans rfl : s3.sch.cls = (setCls k c1 s).sch.cls), clsOf_setCls', if_pos rfl]

/-! TASK_END and FFT_SLICE_END (R241). -/

theorem taskEnd_idle {k u : Nat} {s : State} (h : onUnit s k u = none) : taskEnd k u s = s := by
  unfold taskEnd
  rw [h]

theorem admitRan_flows (u n : Nat) (s : State) : (admitRan u n s).sch.flows = s.sch.flows := by
  unfold admitRan
  dsimp only
  split <;> rfl

/-- A task that ends frees its unit, once its cycles are counted, which changes no flow. -/
theorem taskEnd_frees {k u : Nat} {s : State} {x : Task} (h : onUnit s k u = some x) :
    ∃ v, v.sch.flows = s.sch.flows ∧ taskEnd k u s = freeUnitOf k u x v := by
  unfold taskEnd
  rw [h]
  dsimp -zeta only
  extract_lets dt s1 s2
  have hflows : s2.sch.flows = s1.sch.flows := by
    simp only [s2]
    split
    · rfl
    · split <;> rfl
  have hbusy : s1.sch.flows = s.sch.flows := addBusy_flows k u dt s
  refine ⟨_, ?_, rfl⟩
  split
  · rw [admitRan_flows, hflows, hbusy]
  · rw [hflows, hbusy]

/-- A task without a flow leaves its unit free, and every flow as it was. -/
theorem freeUnitOf_unflowed {k u : Nat} {x : Task} (hflow : noFlow x.d = true) (s : State) :
    onUnit (freeUnitOf k u x s) k u = none ∧ (freeUnitOf k u x s).sch.flows = s.sch.flows := by
  unfold freeUnitOf
  dsimp only
  rw [if_pos hflow, noteDepth_flows, onUnit_congr k u (noteDepth_units _ _), onUnit_setOnUnit_self]
  exact ⟨rfl, rfl⟩

/-- At the end of its slice an FFT block leaves its tile and is suspended. -/
theorem fftSliceEnd_suspends {u : Nat} {s : State} {x : Task} (hx : onUnit s 0 u = some x) (htype : x.d.type = 0x0003) :
    onUnit (fftSliceEnd u s) 0 u = none ∧ (clsOf (fftSliceEnd u s) 0).suspended = (clsOf s 0).suspended ++ [x] ∧
    (fftSliceEnd u s).sch.flows = s.sch.flows := by
  unfold fftSliceEnd
  rw [hx]
  dsimp -zeta only
  rw [if_neg (not_not_intro htype)]
  extract_lets slice s1 dt
  have hadv : s1.sch = s.sch := advanceTo_sch _ _
  refine ⟨?_, ?_, ?_⟩
  · rw [onUnit_congr 0 u (congrArg SchedSt.units (countN_sch _ _ _ _)), onUnit_congr 0 u (suspend_units _ _),
      onUnit_congr 0 u (addBusy_units _ _ _ _), onUnit_setOnUnit_self]
  · rw [cls_countN, suspend_suspended, clsOf_congr 0 (addBusy_cls _ _ _ _), ← clsOf_congr 0 (congrArg SchedSt.cls hadv)]
    rfl
  · rw [countN_sch, suspend_flows, addBusy_flows, ← hadv]
    rfl

/-! SCHED_DEADLINE_MISS (R248). -/

theorem deadlineMiss_frozen {k f : Nat} {s : State} (h : s.dev.frozen = true) : deadlineMiss k f s = s := if_pos h

/-- The record of a miss makes event 51 pending. -/
theorem missRecord_pending (k type obj dl : Nat) (s : State) : Pending (missRecord k type obj dl s) 51 :=
  raise_sets_pending 51 _ (by decide)

/-- An outstanding periodic task that the scheduler does not hold is recorded as missed, and has its consequence. -/
theorem deadlineMiss_periodic {k f type obj : Nat} {s : State} (hf : s.dev.frozen = false) (hheld : overdueTask s k f = none) (hk : k ≠ 1)
    (hp : periodicTask s k f = some (type, obj)) (ho : outstanding s type obj = true) :
    deadlineMiss k f s = missConsequence type obj
      (missRecord k type obj (periodicDeadline s type) (advanceTo (periodicDeadline s type) s)) := by
  unfold deadlineMiss
  rw [if_neg (by rw [hf]; exact Bool.false_ne_true), hheld]
  dsimp only
  rw [hp]
  dsimp only
  rw [if_neg hk, if_neg (by rw [ho]; decide)]

/-! ENQUEUE_RESUME (R245). -/

theorem enqueueResume_nil {k : Nat} {s : State} (h : (clsOf s k).stalledTasks = []) :
    enqueueResume k s = setCls k { clsOf s k with stalled := false } s := by
  unfold enqueueResume
  dsimp only
  rw [h]

/-- The first stalled task is enqueued where it needs no free descriptor and no queue place. -/
theorem enqueueResume_periodic {k : Nat} {s : State} {t : Task} {r : List Task} (h : (clsOf s k).stalledTasks = t :: r)
    (hflow : noFlow t.d = true) (hp : periodic t.d = true) :
    enqueueResume k s = enqueueTask t.d (setCls k { clsOf s k with stalledTasks := r, stalled := r ≠ [] } s) := by
  unfold enqueueResume
  dsimp only
  rw [h]
  dsimp only
  rw [if_pos (by simp [hflow, hp])]

/-- Settles O57, a clause for each row. That a held task's TASK_RELEASE is its release, which advances the time to it, is log entry 62 of
the model. -/
theorem schedulerRows : Obligations.SchedulerRows := by
  intro s
  refine ⟨?_, ?_, ?_, ?_, ?_, ?_, ?_, ?_, ?_, ?_⟩
  · intro d hnew
    refine ⟨fun hd => congrArg Host.Outcome.next (taskRelease_malformed hnew hd), fun hd hpool hflow htype => ?_, fun hd hp hpool => ?_⟩
    · obtain ⟨u, -, hu, hrun⟩ := taskRelease_new hnew hd
      obtain rfl := hu htype
      exact ⟨fun hn => ⟨_, congrArg Host.Outcome.next hrun, enqueueTask_released hpool hflow htype hn⟩,
        fun hn => ⟨_, congrArg Host.Outcome.next hrun, enqueueTask_early hpool hflow hn⟩⟩
    · obtain ⟨u, hsch, hrun⟩ := taskRelease_exhausted hnew hd hp hpool
      have hstalled := stallPort_stalled { d := d } u
      rw [clsOf_congr d.cls.val (congrArg SchedSt.cls hsch)] at hstalled
      refine ⟨_, congrArg Host.Outcome.next hrun, ?_, ?_, ?_, stallPort_pending _ _⟩ <;> rw [hstalled]
  · intro d x hx htype
    obtain rfl : x.d = d := by simpa using List.find?_some hx
    exact ⟨_, congrArg Host.Outcome.next (taskRelease_held hx), releaseHeld_moves htype s⟩
  · intro k x u hx hu
    have hframe := execTaskDispatch_stays k s _ rfl
    exact ⟨_, rfl, (taskDispatch_takes hx hu).1, (taskDispatch_takes hx hu).2, hframe.axes.resolve_left Bool.false_ne_true,
      hframe.grps.resolve_left Bool.false_ne_true⟩
  · exact fun k u h => congrArg Host.Outcome.next (taskEnd_idle h)
  · intro k u x hx hflow
    have hframe := execTaskEnd_stays k u s _ rfl
    obtain ⟨v, hflows, hrun⟩ := taskEnd_frees hx
    obtain ⟨hfree, hkept⟩ := freeUnitOf_unflowed (k := k.val) (u := u.val) hflow v
    exact ⟨_, rfl, by rw [hrun, hfree], by rw [hrun, hkept, hflows], hframe.axes.resolve_left Bool.false_ne_true,
      hframe.grps.resolve_left Bool.false_ne_true⟩
  · exact fun u x hx htype => ⟨_, rfl, fftSliceEnd_suspends hx htype⟩
  · exact fun k f hf => congrArg Host.Outcome.next (deadlineMiss_frozen hf)
  · intro k f type obj hf hheld hk hp ho
    exact ⟨_, congrArg Host.Outcome.next (deadlineMiss_periodic hf hheld hk hp ho),
      (missConsequence_kept _ _ _ (.refl _)).evt.pend 51 (missRecord_pending _ _ _ _ _)⟩
  · exact fun k h => congrArg Host.Outcome.next (enqueueResume_nil h)
  · intro k d r h hcls hflow hp htype hn
    subst hcls
    obtain ⟨hready, hother, -⟩ := enqueueTask_released (s := setCls d.cls.val { clsOf s d.cls.val with stalledTasks := r, stalled := r ≠ [] } s)
      (.inl hp) hflow htype hn
    rw [clsOf_setCls', if_pos rfl] at hready
    refine ⟨_, congrArg Host.Outcome.next (enqueueResume_periodic h hflow hp), hready, fun j hj => ?_⟩
    rw [hother j hj, clsOf_setCls', if_neg hj]

end Sys2Proof.Machine

namespace Sys2Proof.Machine

/-! The time base: one tick of the clock, and the time commands. -/

/-- A 96-bit sum is kept as its count, the sum by 2^32 modulo 2^64, and its fraction, the sum modulo 2^32. -/
theorem sum96_split (n : Nat) : (BitVec.ofNat 64 (n / 2 ^ 32)).toNat * 2 ^ 32 + (BitVec.ofNat 32 n).toNat = n % 2 ^ 96 := by
  rw [BitVec.toNat_ofNat, BitVec.toNat_ofNat]
  omega

/-- With nothing waiting, a step is a tick. -/
theorem step_of_empty {s : State} (h : s.pending = []) : step s = .next (timeTick s) := by
  unfold step
  rw [h]

/-- Settles O2. That a step on an empty queue is a tick is log entry 2 of the model. -/
theorem emptyQueueTicks : Obligations.EmptyQueueTicks := by
  intro s hs
  exact ⟨_, _, (step_of_empty hs).trans (congrArg Host.Outcome.next (timeTick_eq s)), sum96_split _⟩

/-- States that agree but for a completion still do when both take the same branch. -/
theorem Quiet.ite {c : Prop} [Decidable c] {s s' t t' : State} (h : c → Quiet s t) (h' : ¬c → Quiet s' t') :
    Quiet (if c then s else s') (if c then t else t') := by
  split
  · exact h ‹_›
  · exact h' ‹_›

theorem setPtp_quiet (p : Nat) (v : PtpPort) {s t : State} (q : Quiet s t) : Quiet (setPtp p v s) (setPtp p v t) :=
  { q with ptp := congrArg (fun l => tset ({} : PtpPort) l p v) q.ptp }

theorem announce_quiet (step : Bool) (d : Int) (at' : Nat) {s t : State} (q : Quiet s t) :
    Quiet (announce step d at' s) (announce step d at' t) :=
  { q with pel := by unfold announce; rw [q.pel, q.time] }

theorem announceOrQueue_quiet (step : Bool) (d : Int) (at' : Nat) {s t : State} (q : Quiet s t) :
    Quiet (announceOrQueue step d at' s) (announceOrQueue step d at' t) := by
  unfold announceOrQueue
  rw [q.pel]
  exact .ite (fun _ => announce_quiet step d at' q) (fun _ => { q with pel := rfl })

/-- A correction touches the peloton alone, announced or waiting. -/
theorem announceOrQueue_host (step : Bool) (d : Int) (at' : Nat) (s : State) : (announceOrQueue step d at' s).host = s.host := by
  unfold announceOrQueue
  split <;> rfl

/-- An effect posted with another payload than the command's waits behind the effects that wait already. -/
theorem postPayload_quiet (p : List Byte) {sp : CmdSpec} {r : CmdRef} {s t : State} (q : Quiet s t) (ha : t.admitSeq = s.admitSeq + 1) :
    Quiet { s with eff := s.eff ++ [{ effectOf sp r s with p := p }] }
      { t with eff := t.eff ++ [{ effOf (cmdOf sp r s) t with p := p }] } :=
  { q with eff := by unfold effOf; rw [q.eff, ha]; rfl }

/-- Settles O25: time.status and time.ptp_status answer, time.configure and time.ptp_port write their fields, and time.set_plant changes
nothing, announces its correction or leaves it for its promise time. That a port's link flag is set from its role is log entry 33 of the
model. -/
theorem timeCommandsComplete : Obligations.TimeCommandsComplete := by
  intro r s
  refine ⟨fun _ => ⟨_, rfl⟩, fun _ => ⟨_, rfl⟩, fun _ => ⟨_, rfl⟩, fun _ => ⟨_, rfl⟩, fun _ => ⟨_, rfl⟩, ?_, ?_, ?_, ?_, ?_⟩
  · exact fun h => accepted_answers rfl h (fun _ => rfl)
  · exact fun h => accepted_applies _ rfl h (fun _ => rfl) (fun _ => ⟨rfl, rfl⟩) (fun t q _ => { q with time := by rw [q.time]; rfl })
  · intro h
    refine accepted_does rfl h (fun t q ha hh _ => ?_)
    have hhost : ((timeSetPlantSpec.body (cmdOf timeSetPlantSpec r s) s).act t).s.host = s.host :=
      iteInduction (motive := fun u : State => u.host = s.host) (fun _ => hh) (fun _ =>
        iteInduction (motive := fun u : State => u.host = s.host) (fun _ => (announceOrQueue_host _ _ _ t).trans hh) (fun _ => hh))
    exact ⟨rfl, rfl, rfl, congrArg HostSt.mb hhost, congrArg HostSt.bar2 hhost,
      .ite (fun _ => q) (fun _ => .ite (fun _ => announceOrQueue_quiet _ _ _ q) (fun _ => postPayload_quiet _ q ha))⟩
  · intro h
    refine accepted_applies _ rfl h (fun _ => rfl) (fun _ => ⟨rfl, rfl⟩) (fun t q _ => ?_)
    rw [← ptpOf_congr _ q.ptp]
    exact (setPtp_quiet _ _ q).trans (emit_quiet _ _ _ _)
  · exact fun h => accepted_answers rfl h (fun _ => rfl)

end Sys2Proof.Machine

namespace Sys2Proof.Machine

/-! The bus commands. -/

theorem setSeg_quiet (k : Nat) (v : Segment) {s t : State} (q : Quiet s t) : Quiet (setSeg k v s) (setSeg k v t) :=
  { q with bus := congrArg (fun l => tset ({} : Segment) l k v) q.bus }

theorem changeSeg_quiet (k : Nat) (f : Segment → Segment) {s t : State} (q : Quiet s t) :
    Quiet (setSeg k (f (segOf s k)) s) (setSeg k (f (segOf t k)) t) := by
  rw [segOf_congr k q.bus]
  exact setSeg_quiet _ _ q

theorem setStart_quiet (k : Nat) (o : StartOp) {s t : State} (q : Quiet s t) : Quiet (setStart k o s) (setStart k o t) :=
  changeSeg_quiet k (fun g => { g with start := some o }) q

theorem segTo_quiet (k st : Nat) {s t : State} (q : Quiet s t) : Quiet (segTo k st s) (segTo k st t) := by
  unfold segTo vzEvent
  rw [segOf_setSeg, segOf_setSeg, segOf_congr k q.bus]
  exact .ite (fun _ => q) (fun _ => raise_congr _ (setSeg_quiet _ _ (setSeg_quiet _ _ q)))

/-- A segment's change of state leaves the mailboxes and BAR2. -/
theorem segTo_host (k st : Nat) (s : State) : (segTo k st s).host.mb = s.host.mb ∧ (segTo k st s).host.bar2 = s.host.bar2 := by
  unfold segTo
  split
  · exact ⟨rfl, rfl⟩
  · exact ⟨raise_mb _ _, raise_bar2 _ _⟩

/-- A completion takes back nothing that has left the device. -/
theorem complete_out {m k : Nat} {st : Status} {time state : Nat} {res : List Byte} {s : State} {o : Out} (hm : m ≠ imageMb)
    (ho : o ∈ s.out) : o ∈ (complete m k st time state res s).out := by
  by_cases hp : slotOf s m k = .posted
  · rw [complete_eq hm hp]
    extract_lets s1 s3
    have hs3 : o ∈ s3.out := iteInduction (motive := fun u : State => o ∈ u.out) (fun _ => List.mem_cons_of_mem _ ho) (fun _ => ho)
    clear_value s3
    split
    · exact hs3
    · exact raise_out _ _ _ hs3
  · unfold complete
    rw [if_neg hm, if_pos hp]
    exact ho

/-- What the act of an accepted command has sent has left the device when the command completes. -/
theorem accepted_sends {sp : CmdSpec} {r : CmdRef} {s : State} (h : Accepted sp r s)
    (hlater : ∀ t, ((sp.body (cmdOf sp r s) s).act t).later = false) :
    ∃ t, ∀ o ∈ ((sp.body (cmdOf sp r s) s).act t).s.out, o ∈ (runCmd sp r s).out := by
  obtain ⟨t, st, time, state, -, hrun⟩ := accepted_completes h hlater
  refine ⟨t, fun o ho => ?_⟩
  rw [hrun]
  exact complete_out (by have := r.mb.isLt; unfold imageMb; omega) ho

/-- Segment `k` configured as `p`, which configures the bus (R278). -/
def segConfigured (k : Nat) (p : List Byte) (s : State) : State :=
  { setSeg k (segmentOf p (segOf s k)) s with cad := { s.cad with configured := true } }

/-- The PHYs of the ports that `p` names set up, where its ports run at MODE 2. -/
def segPhys (p : List Byte) (s : State) : State :=
  if u8 p 2 ≠ 2 then s
  else if u8 p 1 ≠ 0xFF then phySetup 0 (u8 p 1) (phySetup 0 (u8 p 0) s) else phySetup 0 (u8 p 0) s

theorem segConfigured_quiet (k : Nat) (p : List Byte) {s t : State} (q : Quiet s t) :
    Quiet (segConfigured k p s) (segConfigured k p t) := by
  unfold segConfigured
  rw [q.cad]
  exact { changeSeg_quiet k (segmentOf p) q with cad := rfl }

theorem timingOf_quiet (p : List Byte) {s t : State} (q : Quiet s t) : Quiet (timingOf p s) (timingOf p t) := by
  unfold timingOf
  rw [q.cad]
  exact { q with cad := rfl }

/-- A segment whose bank `b` takes columns from the command of a slot, which completes after two cadences per station (R286). -/
def withMatrix (b : Nat) (cols : List Column) (slot : Nat × Nat) (g : Segment) : Segment :=
  { (if b = 0 then { g with bank0 := cols } else { g with bank1 := cols }) with
    acked := false, loading := some slot, loadLeft := 2 * g.count }

/-- The map of an axis that a bus.map_axis payload gives (R284). -/
def axisMapOf (p : List Byte) : AxisMap :=
  if u8 p 0 = 255 then {} else {
    segment := u8 p 0, station := u8 p 1, chan := u8 p 2, safetyFb := bitOf (u8 p 3) 0, safetySp := bitOf (u8 p 3) 1
    safetyId := u32 p 4, nMiss := if u8 p 8 = 0xFF then 2 else u8 p 8 }

theorem busMapAxis_act (c : Cmd) (s t : State) :
    (busMapAxisSpec.body c s).act t = { s := modAxis c.h.object (fun y => { y with map := axisMapOf c.p }) t } := by
  unfold busMapAxisSpec axisMapOf
  simp only [decide_eq_true_eq]

theorem phySetup_quiet (bus p : Nat) (s : State) : Quiet s (phySetup bus p s) := emit_quiet _ _ _ _

theorem segPhys_quiet (p : List Byte) (s : State) : Quiet s (segPhys p s) :=
  iteInduction (fun _ => .refl s) (fun _ =>
    iteInduction (fun _ => (phySetup_quiet _ _ _).trans (phySetup_quiet _ _ _)) (fun _ => phySetup_quiet _ _ _))

theorem segPhys_host (p : List Byte) (s : State) : (segPhys p s).host = s.host :=
  iteInduction (motive := fun u : State => u.host = s.host) (fun _ => rfl) (fun _ =>
    iteInduction (motive := fun u : State => u.host = s.host) (fun _ => rfl) (fun _ => rfl))

theorem phySetup_sends (p : Nat) (s : State) : ∃ o ∈ (phySetup 0 p s).out, o.kind = .mgmt ∧ o.unit = p :=
  ⟨_, List.mem_cons_self, rfl, Nat.zero_add p⟩

/-- At MODE 2 the PHY of the first port is written, and on a ring that of the second. -/
theorem segPhys_sends {p : List Byte} (h : u8 p 2 = 2) (s : State) :
    (∃ o ∈ (segPhys p s).out, o.kind = .mgmt ∧ o.unit = u8 p 0) ∧
    (u8 p 1 ≠ 0xFF → ∃ o ∈ (segPhys p s).out, o.kind = .mgmt ∧ o.unit = u8 p 1) := by
  obtain ⟨o, ho, hkind⟩ := phySetup_sends (u8 p 0) s
  unfold segPhys
  rw [if_neg (fun hne => hne h)]
  split
  · exact ⟨⟨o, List.mem_cons_of_mem _ ho, hkind⟩, fun _ => phySetup_sends _ _⟩
  · next hline => exact ⟨⟨o, ho, hkind⟩, fun hring => absurd hring hline⟩

/-- Settles O26: bus.set_timing, bus.configure_segment and bus.map_axis write their fields, bus.start, bus.load_matrix and bus.acyclic
begin, bus.stop, bus.switch_matrix, bus.station_reset and bus.rejoin wait for their promise time, bus.set_alias sends its request, and
bus.status answers and clears the causes. That bus.configure_segment makes the bus count as configured, that a load takes two cadences
per station, and that the request of bus.set_alias leaves abbreviated, is log entry 40 of the model; the write of the PHYs is log
entry 63. -/
theorem busCommandsComplete : Obligations.BusCommandsComplete := by
  intro r s
  refine ⟨fun _ => ⟨_, rfl⟩, fun _ => ⟨_, rfl⟩, fun _ => ⟨_, rfl⟩, fun _ => ⟨_, rfl⟩, fun _ => ⟨_, rfl⟩, fun _ => ⟨_, rfl⟩,
    fun _ => ⟨_, rfl⟩, fun _ => ⟨_, rfl⟩, fun _ => ⟨_, rfl⟩, fun _ => ⟨_, rfl⟩, fun _ => ⟨_, rfl⟩, fun _ => ⟨_, rfl⟩,
    ?_, ?_, ?_, ?_, ?_, ?_, ?_, ?_, ?_, ?_, ?_, ?_⟩
  · exact fun h => accepted_applies (timingOf _) rfl h (fun _ => rfl) (fun _ => ⟨rfl, rfl⟩)
      (fun _ q _ => timingOf_quiet _ q)
  · refine fun h => ⟨accepted_applies (fun t => segPhys _ (segConfigured _ _ t)) rfl h (fun _ => rfl)
      (fun t => ⟨congrArg HostSt.mb (segPhys_host _ _), congrArg HostSt.bar2 (segPhys_host _ _)⟩)
      (fun _ q _ => (segConfigured_quiet _ _ q).trans (segPhys_quiet _ _)), fun hmode => ?_⟩
    obtain ⟨t, hsent⟩ := accepted_sends h (fun _ => rfl)
    obtain ⟨⟨o, ho, hkind, hunit⟩, hring⟩ := segPhys_sends hmode (segConfigured (objectOf r s) (payloadOf busConfigureSegmentSpec r s) t)
    refine ⟨_, rfl, o, hsent o ho, hkind, hunit, fun hne => ?_⟩
    obtain ⟨o', ho', hport⟩ := hring hne
    exact ⟨o', hsent o' ho', hport⟩
  · exact fun h => accepted_begins rfl h (fun t q _ hh _ => ⟨rfl, (segTo_host _ _ t).1.trans (congrArg HostSt.mb hh),
      (segTo_host _ _ t).2.trans (congrArg HostSt.bar2 hh), setStart_quiet _ _ (segTo_quiet _ _ q)⟩)
  · exact fun h => accepted_waits rfl h (fun _ => rfl)
  · exact fun h => accepted_begins rfl h (fun _ q _ hh _ => ⟨rfl, congrArg HostSt.mb hh, congrArg HostSt.bar2 hh,
      changeSeg_quiet _ (withMatrix _ _ _) q⟩)
  · exact fun h => accepted_waits rfl h (fun _ => rfl)
  · exact fun h => accepted_applies (modAxis _ _) rfl h (busMapAxis_act _ s) (fun _ => ⟨rfl, rfl⟩) (fun _ q _ => modAxis_quiet _ _ q)
  · refine fun h => ⟨accepted_applies (emit _ _ _) rfl h (fun _ => rfl) (fun _ => ⟨rfl, rfl⟩)
      (fun _ q _ => q.trans (emit_quiet _ _ _ _)), ?_⟩
    obtain ⟨t, hsent⟩ := accepted_sends h (fun _ => rfl)
    exact ⟨_, rfl, hsent _ List.mem_cons_self⟩
  · exact fun h => accepted_waits rfl h (fun _ => rfl)
  · exact fun h => accepted_waits rfl h (fun _ => rfl)
  · exact fun h => accepted_begins rfl h (fun _ q _ hh _ => ⟨rfl, congrArg HostSt.mb hh, congrArg HostSt.bar2 hh, setSeg_quiet _ _ q⟩)
  · exact fun h => accepted_applies (setSeg _ _) rfl h (fun _ => rfl) (fun _ => ⟨rfl, rfl⟩) (fun _ q _ => setSeg_quiet _ _ q)

end Sys2Proof.Machine

namespace Sys2Proof.Machine

/-! Causes and states of a segment (R297): what their changes leave. -/

section
variable {k : Nat} {s : State}

theorem segOf_vzEvent_other (b : Nat) {j : Nat} (h : j ≠ k) : segOf (vzEvent k b s) j = segOf s j := by
  unfold vzEvent
  rw [segOf_congr j (raise_bus _ _), segOf_setSeg, if_neg h]

theorem vzEvent_axes (k b : Nat) (s : State) : (vzEvent k b s).axes = s.axes := raise_axes _ _

theorem vzEvent_grps (k b : Nat) (s : State) : (vzEvent k b s).grps = s.grps := raise_grps _ _

/-- A segment that changes its state keeps everything else but the causes of its event. -/
theorem segOf_segTo (k st : Nat) (s : State) : ∃ c, segOf (segTo k st s) k = { segOf s k with state := st, cause := c } := by
  unfold segTo
  split
  · next h => exact ⟨(segOf s k).cause, by rw [← h]⟩
  · exact ⟨_, by rw [vzEvent_seg, segOf_setSeg, if_pos rfl]⟩

theorem segTo_pending {st : Nat} (hk : k < 8) (h : (segOf s k).state ≠ st) : Pending (segTo k st s) (32 + k) := by
  unfold segTo
  rw [if_neg h]
  exact vzEvent_pending _ _ _ hk

/-! Frames from stations (R280, R288, R299). -/

/-- Whether or not an FCS error completes a burst, it leaves the segment but for its causes, the other segments, the axes and the
groups. -/
theorem fcsBurst_left (k : Nat) (s : State) : segOf (fcsBurst k s) k = { segOf s k with cause := (segOf (fcsBurst k s) k).cause } ∧
    (∀ j, j ≠ k → segOf (fcsBurst k s) j = segOf s j) ∧ (fcsBurst k s).axes = s.axes ∧ (fcsBurst k s).grps = s.grps := by
  unfold fcsBurst
  split
  · refine ⟨?_, fun j hj => segOf_vzEvent_other 5 hj, vzEvent_axes _ _ _, vzEvent_grps _ _ _⟩
    rw [vzEvent_seg]
    rfl
  · exact ⟨rfl, fun _ _ => rfl, rfl, rfl⟩

theorem fcsBurst_pending (hk : k < 8) (h : (freeNow s).getLsbD 0 = true) : Pending (fcsBurst k s) (32 + k) := by
  unfold fcsBurst
  rw [if_pos h]
  exact vzEvent_pending _ _ _ hk

variable {hook : Nat → State → State} {port sfd : Nat} {f : List Byte}

/-- A frame with an FCS error is counted, and raises the event of its segment where it completes a burst. -/
theorem stationFrame_badFcs (hk : k < 8) (hc : (segOf s k).configured = true)
    (hp : (segOf s k).portA = port ∨ (segOf s k).portB = port) (hf : fcsOk f = false) :
    segOf (stationFrame hook k port sfd f s) k = { segOf s k with
      fcsErrors := (segOf s k).fcsErrors + 1, cause := (segOf (stationFrame hook k port sfd f s) k).cause } ∧
    ((freeNow s).getLsbD 0 = true → Pending (stationFrame hook k port sfd f s) (32 + k)) ∧
    (∀ j, j ≠ k → segOf (stationFrame hook k port sfd f s) j = segOf s j) ∧
    (stationFrame hook k port sfd f s).axes = s.axes ∧ (stationFrame hook k port sfd f s).grps = s.grps := by
  have he : stationFrame hook k port sfd f s =
      fcsBurst k (setSeg k { segOf s k with fcsErrors := (segOf s k).fcsErrors + 1 } (count (112 + port) 0x0801 s)) := by
    unfold stationFrame
    dsimp only
    rw [if_neg (by rcases hp with hp | hp <;> simp [hc, hp]), if_pos (by simp [hf])]
  rw [he]
  obtain ⟨hself, hother, haxes, hgrps⟩ := fcsBurst_left k
    (setSeg k { segOf s k with fcsErrors := (segOf s k).fcsErrors + 1 } (count (112 + port) 0x0801 s))
  refine ⟨hself.trans ?_, fun hfree => fcsBurst_pending hk hfree, fun j hj => (hother j hj).trans ?_, haxes, hgrps⟩
  · rw [segOf_setSeg, if_pos rfl]
  · rw [segOf_setSeg, if_neg hj, count_seg]

theorem foreignFrame_counts (h : portSeg s port = some k) : foreignFrame port s =
    setSeg k { segOf s k with foreignFrames := (segOf s k).foreignFrames + 1 } (count (112 + port) 0x0806 s) := by
  unfold foreignFrame
  rw [h]
  rfl

/-- The state in which a frame of station `src` has been accepted: counted, with the links that it reports. -/
def frameAccepted (k port src : Nat) (x : Station) (h : List Byte) (s : State) : State :=
  setSeg k { segOf s k with stations := tset none (segOf s k).stations src (some { x with linksOk := bitOf (be h 12 4) 1 }) }
    (count (112 + port) 0x0807 s)

/-- `f` is a STATION frame of the enumerated station `x`, received on port A of a segment in RUN in a window of the station (R288). -/
structure FrameValid (k port sfd : Nat) (f : List Byte) (x : Station) (s : State) : Prop where
  configured : (segOf s k).configured = true
  portA : (segOf s k).portA = port
  fcs : fcsOk f = true
  etherType : etherType f = (segOf s k).etherType
  runs : (segOf s k).state = 3
  station : tget none (segOf s k).stations (u8 (payload f) 3) = some x
  type : u8 (payload f) 1 = 2
  window : inWindow s (segOf s k) (u8 (payload f) 3) sfd (payload f).length = true

/-- A valid frame is accepted, and brings its entries. -/
theorem stationFrame_valid {x : Station} (h : FrameValid k port sfd f x s) :
    stationFrame hook k port sfd f s = (readEntries (be (payload f) 6 2) ((payload f).drop 32)).foldl
      (fun t e => takeEntry hook k port (u8 (payload f) 3) (be (payload f) 8 4) e t)
      (frameAccepted k port (u8 (payload f) 3) x (payload f) s) := by
  obtain ⟨hc, hp, hf, het, hrun, hx, htype, hw⟩ := h
  unfold stationFrame
  dsimp only
  rw [if_neg (by simp [hc, hp]), if_neg (by simp [hf]), if_neg (fun hne => hne het), if_neg (fun hne => hne hrun), hx]
  exact if_neg (by simp [htype, hp, hw])

/-- What an axis makes of the feedback `f` that it accepts without a safety trailer (R299). -/
def withFeedback (f : FbRec) (x : AxisSt) : AxisSt := { x with
  actPrev := if x.map.got then x.actPrev else x.actP
  samplePrev := if x.map.got then x.samplePrev else x.sampleAt
  actP := f.position + x.oh
  sampleAt := f.sample
  map := { x.map with
    last := f, lastPrev := if x.map.got then x.map.lastPrev else x.map.last, got := true, badSafety := false, sCnt := none } }

/-- An axis that asks for no safety trailer takes a feedback entry without one. -/
theorem takeFeedback_plain {a : Nat} {e : Entry} (hs : e.safety = false) (hl : e.data.length = 22)
    (hm : (axisOf s a).map.safetyFb = false) : takeFeedback hook k port a e s = hook a (modAxis a (withFeedback (fbOf e.data)) s) := by
  unfold takeFeedback
  dsimp only
  rw [hs, hm, if_neg Bool.false_ne_true, if_neg (by simp [hl]), if_neg (by simp)]
  rfl

theorem withFeedback_left (a : Nat) (f : FbRec) (s : State) :
    (axisOf (modAxis a (withFeedback f) s) a).map.got = true ∧ (axisOf (modAxis a (withFeedback f) s) a).map.last = f ∧
    (axisOf (modAxis a (withFeedback f) s) a).actP = f.position + (axisOf s a).oh ∧
    ∀ b, b ≠ a → axisOf (modAxis a (withFeedback f) s) b = axisOf s b := by
  rw [axisOf_modAxis_self]
  exact ⟨rfl, rfl, rfl, fun b hb => axisOf_modAxis_other _ _ hb⟩

/-- A feedback entry of the running cadence reaches the axis that is mapped to it before the cutoff. -/
theorem takeEntry_feedback {a src cad : Nat} {e : Entry} (hk : e.kind = 2)
    (ha : (segAxes s k).find? (fun b => (axisOf s b).map.station = src && (axisOf s b).map.chan = e.chan) = some a)
    (hcad : cad = s.cad.count.toNat) (hph : s.cad.phase = 0) :
    takeEntry hook k port src cad e s = takeFeedback hook k port a e s := by
  unfold takeEntry
  dsimp only
  rw [if_pos hk, ha]
  dsimp only
  rw [if_neg (by simp [hcad]), if_pos hph]

theorem homeRecord_ungrouped {a : Nat} (h : groupOf s a = none) : homeRecord a s = s := by
  unfold homeRecord
  rw [h]

/-- The one feedback entry of a valid frame, for an axis that belongs to no group, changes that axis and no other. -/
theorem stationFrame_feedback {a : Nat} {e : Entry} {x : Station} (h : FrameValid k port sfd f x s)
    (hr : readEntries (be (payload f) 6 2) ((payload f).drop 32) = [e]) (hk : e.kind = 2) (hs : e.safety = false)
    (hl : e.data.length = 22)
    (ha : (segAxes s k).find? (fun b => (axisOf s b).map.station = u8 (payload f) 3 && (axisOf s b).map.chan = e.chan) = some a)
    (hm : (axisOf s a).map.safetyFb = false) (hg : groupOf s a = none) (hcad : be (payload f) 8 4 = s.cad.count.toNat)
    (hph : s.cad.phase = 0) : stationFrame homeRecord k port sfd f s =
      modAxis a (withFeedback (fbOf e.data)) (frameAccepted k port (u8 (payload f) 3) x (payload f) s) := by
  rw [stationFrame_valid h, hr, List.foldl_cons, List.foldl_nil]
  generalize hu : frameAccepted k port (u8 (payload f) 3) x (payload f) s = u
  obtain ⟨haxes, hgrps, hsame⟩ : u.axes = s.axes ∧ u.grps = s.grps ∧ u.cad = s.cad := by
    rw [← hu]
    exact ⟨rfl, rfl, rfl⟩
  have hax : ∀ b, axisOf u b = axisOf s b := fun b => axisOf_congr' b haxes
  have hfind : (segAxes u k).find? (fun b => (axisOf u b).map.station = u8 (payload f) 3 && (axisOf u b).map.chan = e.chan) =
      some a := by
    unfold segAxes at ha ⊢
    simp only [hax, haxes]
    exact ha
  rw [takeEntry_feedback hk hfind (hsame ▸ hcad) (hsame ▸ hph), takeFeedback_plain hs hl ((hax a).symm ▸ hm),
    homeRecord_ungrouped ((groupOf_congr a (modAxis_grps _ _ _)).trans ((groupOf_congr a hgrps).trans hg))]

/-! Silenced stations, missing records and collisions (R294, R297, R300). -/

theorem stationSilenced_silences {st : Nat} {x : Station} (hk : k < 8) (hx : tget none (segOf s k).stations st = some x)
    (hv : 3 ≤ x.vioRun) (hs : (segOf s k).silence.getLsbD st = false) :
    (segOf (stationSilenced k st s) k).silence = (segOf s k).silence ||| BitVec.twoPow 256 st ∧
    (segOf (stationSilenced k st s) k).silenced = (segOf s k).silenced + 1 ∧ Pending (stationSilenced k st s) (32 + k) ∧
    (stationSilenced k st s).axes = s.axes := by
  have he : stationSilenced k st s = vzEvent k 1 (journal 0x0D 0x01 2 k 0 [BitVec.ofNat 8 st] (setSeg k { segOf s k with
      silence := (segOf s k).silence ||| BitVec.twoPow 256 st, silenced := (segOf s k).silenced + 1 } s)) := by
    unfold stationSilenced
    dsimp only
    rw [hx]
    exact if_neg (by simp [hs]; omega)
  rw [he, vzEvent_seg, journal_seg, segOf_setSeg, if_pos rfl, vzEvent_axes, journal_axes]
  exact ⟨rfl, rfl, vzEvent_pending _ _ _ hk, rfl⟩

theorem freewheelExpired_faults {a : Nat} (hm : (axisOf s a).map.nMiss < (axisOf s a).map.missed) (hd : (axisOf s a).state ≠ .disabled)
    (hf : (axisOf s a).state ≠ .fault) (hseg : (axisOf s a).map.segment ≠ 0xFF) : freewheelExpired a s = reqFault a 1 s :=
  if_neg (by simp [hd, hf, hseg]; omega)

/-- What a segment in SYNC or RUN keeps of its first collision with the master `other`: it waits its own number of cadences. -/
def collided (k : Nat) (other : BitVec 64) (s : State) : Segment := { segOf s k with
  collisions := (segOf s k).collisions + 1, lastCollision := some (now s), heard := false, otherUid := other, runPending := false
  waitUntil := now s + (3 + s.pel.addr) * s.cad.ns }

/-- A segment in SYNC or RUN that collides for the first time waits. -/
theorem masterCollision_waits {other : BitVec 64} (hk : k < 8) (hst : (segOf s k).state = 2 ∨ (segOf s k).state = 3)
    (ho : other ≠ Config.uid) (hl : (segOf s k).lastCollision = none) :
    (segOf (masterCollision k other s) k).state = 1 ∧
    (segOf (masterCollision k other s) k).collisions = (segOf s k).collisions + 1 ∧
    (segOf (masterCollision k other s) k).otherUid = other ∧ Pending (masterCollision k other s) (32 + k) := by
  have he : masterCollision k other s =
      segTo k 1 (vzEvent k 3 (journal 0x0D 0x03 0 k 0 (leBytes 8 other.toNat) (setSeg k (collided k other s) s))) := by
    unfold masterCollision
    dsimp only
    rw [if_neg (by rcases hst with h | h <;> simp [h, ho]), if_neg (by omega), if_neg (by omega), hl]
    rfl
  rw [he]
  generalize hu : vzEvent k 3 _ = u
  obtain ⟨c, hseg⟩ : ∃ c, segOf u k = { collided k other s with cause := c } :=
    ⟨_, by rw [← hu, vzEvent_seg, journal_seg, segOf_setSeg, if_pos rfl]⟩
  have hsame : (segOf u k).state = (segOf s k).state := (congrArg Segment.state hseg).trans rfl
  obtain ⟨_, hto⟩ := segOf_segTo k 1 u
  rw [hto, hseg]
  exact ⟨rfl, rfl, rfl, segTo_pending hk (by omega)⟩

/-- A segment that has heard no other master while it waited starts again. -/
theorem collisionWaitEnd_starts (hw : (segOf s k).state = 1) (hh : (segOf s k).heard = false) :
    (segOf (collisionWaitEnd k s) k).state = 2 ∧ (segOf (collisionWaitEnd k s) k).start.isSome = true := by
  have he : collisionWaitEnd k s = startAgain k (advanceTo (segOf s k).waitUntil s) := by
    unfold collisionWaitEnd
    dsimp only
    rw [if_neg (fun hne => hne hw), if_neg (by simp [hh])]
  rw [he]
  unfold startAgain setStart
  rw [segOf_setSeg, if_pos rfl]
  exact ⟨segTo_state _ _ _, rfl⟩

/-- A segment that has heard another master while it waited follows it. -/
theorem collisionWaitEnd_follows (hw : (segOf s k).state = 1) (hh : (segOf s k).heard = true) :
    (segOf (collisionWaitEnd k s) k).state = 4 := by
  unfold collisionWaitEnd
  dsimp only
  rw [if_neg (fun hne => hne hw), if_pos hh, startFail_state, journal_seg, segTo_state]

/-! Rings and links (R298). -/

theorem ringBroken_marks (h : canSplit (segOf s k) = true) : ringBroken k s = setSeg k { segOf s k with splitDue := true } s := if_pos h

/-- A ring that has a changeover due is split at the cadence start. -/
theorem ringSplit_splits (hk : k < 8) (h : canSplit (segOf s k) = true) (hd : (segOf s k).splitDue = true) :
    (segOf (ringSplit k s) k).split = true ∧ (segOf (ringSplit k s) k).splitDue = false ∧
    (segOf (ringSplit k s) k).ringChanges = (segOf s k).ringChanges + 1 ∧ (segOf (ringSplit k s) k).state = (segOf s k).state ∧
    Pending (ringSplit k s) (32 + k) ∧ (ringSplit k s).axes = s.axes := by
  have he : ringSplit k s = vzEvent k 2 (journal 0x0D 0x02 1 k 0 [] (setSeg k { segOf s k with
      split := true, splitDue := false, ringChanges := (segOf s k).ringChanges + 1 } s)) := by
    unfold ringSplit
    dsimp only
    rw [if_neg (by simp [hd]), if_neg (by simp [h])]
  rw [he, vzEvent_seg, journal_seg, segOf_setSeg, if_pos rfl, vzEvent_axes, journal_axes]
  exact ⟨rfl, rfl, rfl, rfl, vzEvent_pending _ _ _ hk, rfl⟩

/-- The end of a start of the peloton leaves the segments. -/
theorem startDone_bus (reason : Nat) (s : State) : (startDone reason s).bus = s.bus :=
  (startDone_stays (msk := { pel := true }) reason s (.refl _ s) rfl).bus.resolve_left Bool.false_ne_true

/-- A line in SYNC or RUN that loses a link goes DOWN. -/
theorem vzLinkDown_downs (h : portSeg s port = some k) (hr : (segOf s k).ring = false)
    (hst : (segOf s k).state = 2 ∨ (segOf s k).state = 3) : (segOf (vzLinkDown port s) k).state = 5 := by
  unfold vzLinkDown
  extract_lets s1 mine s2
  have hs1 : (segOf s1 k).state = 5 := by
    simp only [s1, h]
    rw [if_neg (by simp [hr]), if_neg (by rcases hst with h | h <;> simp [h]), startFail_state, segTo_state]
  have hdown : (segOf s2 k).state = 5 := hs1
  clear_value mine s2
  split
  · rw [segOf_congr k (startDone_bus _ _)]
    exact hdown
  · exact hdown

/-! The returns of a start (R292, R296). -/

/-- A count of stations within bounds and as expected takes a start on, where stations are addressed by position. -/
theorem enumReturn_enumerates {l : List StationId} {o : StartOp} (hs : (segOf s k).start = some o) (hph : o.phase = 1)
    (hst : (segOf s k).state = 2) (hm : (segOf s k).addrMode = 0) (hne : l ≠ []) (hl : l.length ≤ 254)
    (hx : (segOf s k).expect = 0 ∨ (segOf s k).expect = l.length) :
    (segOf (enumReturn k l s) k).count = l.length ∧ (segOf (enumReturn k l s) k).enumerated = true ∧
    (segOf (enumReturn k l s) k).start = some { o with phase := 2 } := by
  have he : ∃ st, enumReturn k l s =
      setStart k { o with phase := 2 } (setSeg k { segOf s k with count := l.length, stations := st, enumerated := true } s) := by
    unfold enumReturn
    dsimp only
    rw [hs]
    dsimp only
    rw [hm, if_neg (by simp [hph, hst]), if_neg hne, if_neg (by simp; omega), if_neg (by simp), if_neg (by simp)]
    exact ⟨_, rfl⟩
  obtain ⟨st, he⟩ := he
  rw [he, setStart, segOf_setSeg, if_pos rfl, segOf_setSeg, if_pos rfl]
  exact ⟨rfl, rfl, rfl⟩

/-- A station with the delays of its position. -/
def withDelays (d : List (BitVec 32 × BitVec 32)) (x : Station) : Station :=
  { x with delayA := (lget (0, 0) d (x.position - 1)).1.toNat, delayB := (lget (0, 0) d (x.position - 1)).2.toNat }

/-- As many delays as there are stations take a start on, and each station has those of its position. -/
theorem delayReturn_measures {d : List (BitVec 32 × BitVec 32)} {o : StartOp} (hs : (segOf s k).start = some o) (hph : o.phase = 3)
    (hst : (segOf s k).state = 2) (hd : d.length = (segOf s k).count) :
    (segOf (delayReturn k d s) k).start = some { o with phase := 4 } ∧ ∀ n x, tget none (segOf s k).stations n = some x →
      tget none (segOf (delayReturn k d s) k).stations n = some (withDelays d x) := by
  have he : delayReturn k d s = setSeg k { segOf s k with
      stations := (segOf s k).stations.map (fun e => (e.1, e.2.map (withDelays d))), start := some { o with phase := 4 } } s := by
    unfold delayReturn
    dsimp only
    rw [hs]
    exact if_neg (by simp [hph, hst, hd])
  rw [he, segOf_setSeg, if_pos rfl]
  refine ⟨rfl, fun n x hx => ?_⟩
  rw [tget_map_snd none (Option.map (withDelays d)) rfl, hx]
  rfl

/-! Acyclic traffic (R289, R290). -/

/-- The reply of a station that the last ARB frames named completes the request that waits for it. -/
theorem acyclicFrame_replies {st : Nat} {b : List Byte} {a : Acyclic} (hrun : (segOf s k).state = 3)
    (hgr : (segOf s k).granted.any (fun e => e.2 = st) = true)
    (ha : (segOf s k).acyclic.find? (fun a => (a.station = st || a.station = 255) && a.sent) = some a) (hm : a.mb ≠ imageMb)
    (hp : slotOf s a.mb a.slot = .posted) : slotOf (acyclicFrame k st b s) a.mb a.slot = .done ∧
    (segOf (acyclicFrame k st b s) k).acyclic = (segOf s k).acyclic.erase a := by
  have he : acyclicFrame k st b s = complete a.mb a.slot .ok (now s) (segOf s k).state (b.take 984)
      (setSeg k { segOf s k with acyclic := (segOf s k).acyclic.erase a } s) := by
    unfold acyclicFrame
    dsimp only
    rw [if_neg (fun hne => hne hrun), if_neg (by simp [hgr]), ha]
  rw [he, segOf_congr k (complete_bus _ _ _ _ _ _ _), segOf_setSeg, if_pos rfl]
  exact ⟨complete_done hm hp, rfl⟩

/-- The time-out of a request that some segment holds completes it. -/
theorem acyclicTimeout_done {m n : Nat} (hk : k < 8) (hm : m ≠ imageMb)
    (ha : (segOf s k).acyclic.any (fun a => a.mb = m && a.slot = n) = true) (hp : slotOf s m n = .posted) :
    slotOf (acyclicTimeout m n s) m n = .done := by
  have hsome : ((List.range 8).find? (fun j => (segOf s j).acyclic.any (fun a => a.mb = m && a.slot = n))).isSome = true :=
    List.find?_isSome.mpr ⟨k, List.mem_range.mpr hk, ha⟩
  obtain ⟨j, hj⟩ := Option.isSome_iff_exists.mp hsome
  unfold acyclicTimeout
  rw [hj]
  exact complete_done hm ((slotOf_congr m n (advanceTo_host _ s)).trans hp)

end

/-- Settles O54, a clause for each row. Whether an FCS error completes a burst is a free value by log entry 41 of the model, and that the
first reply completes a request to STATION 255 is log entry 65. -/
theorem busRows : Obligations.BusRows := by
  intro k s
  refine ⟨?_, ?_, ?_, ?_, ?_, ?_, ?_, ?_, ?_, ?_, ?_, ?_, ?_, ?_, ?_, ?_⟩
  · exact fun p sfd f hc hp hf => ⟨_, rfl, stationFrame_badFcs k.isLt hc hp hf⟩
  · exact fun p hp => ⟨_, congrArg Host.Outcome.next (foreignFrame_counts hp), (segOf_setSeg _ _ _ _).trans (if_pos rfl), rfl, rfl⟩
  · exact fun st x hx hv hs => ⟨_, rfl, stationSilenced_silences k.isLt hx hv hs⟩
  · exact fun a hm hd hf hseg => congrArg Host.Outcome.next (freewheelExpired_faults hm hd hf hseg)
  · exact fun other hst ho hl => ⟨_, rfl, masterCollision_waits k.isLt hst ho hl⟩
  · exact fun hw hh => ⟨_, rfl, collisionWaitEnd_starts hw hh⟩
  · exact fun hw hh => ⟨_, rfl, collisionWaitEnd_follows hw hh⟩
  · exact fun h => congrArg Host.Outcome.next (ringBroken_marks h)
  · exact ringSplit_splits k.isLt
  · exact fun p hp hr hst => ⟨_, rfl, vzLinkDown_downs hp hr hst⟩
  · exact fun o l hs hph hst hm hne hl hx => ⟨_, rfl, enumReturn_enumerates hs hph hst hm hne hl hx⟩
  · exact fun o d hs hph hst hd => ⟨_, rfl, delayReturn_measures hs hph hst hd⟩
  · exact fun _ _ => rfl
  · exact fun st b a hrun hgr ha hmb hp => ⟨_, rfl, acyclicFrame_replies hrun hgr ha (by unfold imageMb; omega) hp⟩
  · exact fun m n ha hp => ⟨_, rfl, acyclicTimeout_done k.isLt (by have := m.isLt; unfold imageMb; omega) ha hp⟩
  · intro p sfd f x hc hp hf het hrun hx htype hw
    have hvalid : FrameValid k p sfd.toNat f x s := ⟨hc, hp, hf, het, hrun, hx, htype, hw⟩
    refine ⟨fun hn => ⟨_, rfl, ?_⟩, fun a e hr hk hs hl ha hm hg hcad hph => ⟨_, rfl, ?_⟩⟩
    · rw [stationFrame_valid hvalid, hn]
      exact ⟨(segOf_setSeg _ _ _ _).trans (if_pos rfl), rfl, rfl⟩
    · rw [stationFrame_feedback hvalid hr hk hs hl ha hm hg hcad hph]
      exact withFeedback_left a _ _

end Sys2Proof.Machine

namespace Sys2Proof.Machine

/-! What every command keeps, a host access and a reset as well: the invariant, the queue and the blown fuses. -/

/-- `b` keeps of `a` the invariant, the queue of waiting commands and each blown fuse. -/
structure Sound (a b : State) : Prop where
  host : HostOk a.host → HostOk b.host
  hub : HubOk a.hub → HubOk b.hub
  evt : EvtOk a.evt → EvtOk b.evt
  pending : b.pending = a.pending
  fuses : FusesLe a.dev.fuses b.dev.fuses

theorem Sound.refl (s : State) : Sound s s := ⟨id, id, id, rfl, .refl _⟩

theorem Sound.trans {a b c : State} (p : Sound a b) (q : Sound b c) : Sound a c :=
  ⟨q.host ∘ p.host, q.hub ∘ p.hub, q.evt ∘ p.evt, q.pending.trans p.pending, p.fuses.trans q.fuses⟩

theorem Sound.inv {s t : State} (h : Sound s t) (hs : Inv s) : Inv t := ⟨h.host hs.host, h.hub hs.hub, h.evt hs.evt⟩

theorem Kept.sound {s t : State} (h : Kept s t) : Sound s t := by
  refine ⟨h.host.ok, h.hub.ok, fun he => ?_, h.pending, h.fuses⟩
  unfold EvtOk
  rw [h.evt.map]
  exact he

/-- A change of the HOST island that keeps its byte stores canonical is sound. -/
theorem sound_host {s : State} {h : HostSt} (hok : HostOk s.host → HostOk h) : Sound s { s with host := h } :=
  ⟨hok, id, id, rfl, .refl _⟩

/-- A change of the event block that keeps EVT_MAP well formed is sound. -/
theorem sound_evt {s : State} {e : EvtBlock} (hok : EvtOk s.evt → EvtOk e) : Sound s { s with evt := e } :=
  ⟨id, id, hok, rfl, .refl _⟩

/-- A change of the counter hub that keeps the ranges of its registers is sound. -/
theorem sound_hub {s : State} {u : HubSt} (hok : HubOk s.hub → HubOk u) : Sound s { s with hub := u } :=
  ⟨id, hok, id, rfl, .refl _⟩

theorem sound_ite {c : Prop} [Decidable c] {s t u : State} (ht : Sound s t) (hu : Sound s u) : Sound s (if c then t else u) :=
  iteInduction (fun _ => ht) (fun _ => hu)

theorem foldl_sound {α : Type} {f : State → α → State} (hf : ∀ t x, Sound t (f t x)) (l : List α) (s : State) :
    Sound s (l.foldl f s) := by
  induction l generalizing s with
  | nil => exact .refl s
  | cons x r ih => exact (hf s x).trans (ih _)

/-! Host accesses: mailboxes and BAR2 (R43 to R48). -/

theorem setMb_sound (m : Nat) (b : Mailbox) (s : State) : Sound s (setMb m b s) := sound_host id
theorem setSlot_sound (m k : Nat) (v : Slot) (s : State) : Sound s (setSlot m k v s) := setMb_sound _ _ _
theorem count_sound (i code : Nat) (s : State) : Sound s (count i code s) := (count_kept i code s (.refl s)).sound

theorem bar2Write_sound (a : Nat) (b : List Byte) (s : State) : Sound s (bar2Write a b s) :=
  sound_host (fun ⟨hbar, hstage, hmsix, hram⟩ => ⟨mwrite_wf hbar, hstage, hmsix, hram⟩)

theorem mbDoneWrite_sound (m : Nat) (w : Word) (s : State) : Sound s (mbDoneWrite m w s) :=
  foldl_sound (fun t _ => sound_ite (setSlot_sound _ _ _ t) (.refl t)) _ s

theorem doorbell_sound (m : Nat) (w : Word) (s : State) : Sound s (doorbell m w s) := by
  unfold doorbell
  refine sound_ite (.refl s) (sound_ite ?_ ?_)
  · exact ((setSlot_sound _ _ _ s).trans (setMb_sound _ _ _)).trans (count_sound _ _ _)
  · exact (setMb_sound _ _ s).trans (count_sound _ _ _)

theorem prodWrite_sound (k : Nat) (w : Word) (s : State) : Sound s (prodWrite k w s) := (prodWrite_kept k w s (.refl s)).sound

/-- Bytes that the host puts into its own memory one at a time leave the store canonical. -/
theorem foldl_mset_wf {l : List Nat} {m : Mem} (addr : Nat → Nat) (byte : Nat → Byte) (h : Tab.wf 0 m = true) :
    Tab.wf 0 (l.foldl (fun m i => mset m (addr i) (byte i)) m) = true := by
  induction l generalizing m with
  | nil => exact h
  | cons i r ih => exact ih (tset_wf h)

theorem hostRing_sound (k : Nat) (b : List Byte) (s : State) : Sound s (hostRing k b s) :=
  sound_ite (.refl s) (sound_host (fun ⟨hbar, hstage, hmsix, hram⟩ => ⟨hbar, hstage, hmsix, foldl_mset_wf _ _ hram⟩))

theorem bar2HostWrite_sound (a : Nat) (b : List Byte) (s : State) : Sound s (bar2HostWrite a b s) := by
  unfold bar2HostWrite
  refine sound_ite (.refl s) (sound_ite ?_ (sound_ite (bar2Write_sound a b s) (sound_ite ?_ (sound_ite ?_ (count_sound _ _ s)))))
  · exact sound_host (fun ⟨hbar, hstage, hmsix, hram⟩ => ⟨hbar, mwrite_wf hstage, hmsix, hram⟩)
  · exact ((setMb_sound _ _ s).trans (count_sound _ _ _)).trans (count_sound _ _ _)
  · exact (prodBytes_kept _ _ _ s (.refl s)).sound

/-! Host accesses: the event block (R59 to R61). -/

theorem fireVector_sound (v : Nat) (s : State) : Sound s (fireVector v s) := (fireVector_kept v s (.refl s)).sound
theorem raise_sound (e : Nat) (s : State) : Sound s (raise e s) := (raise_kept e s (.refl s)).sound

theorem evtPendWrite_sound (i : Nat) (w again : Word) (s : State) : Sound s (evtPendWrite i w again s) := by
  unfold evtPendWrite
  extract_lets clr re p0 src s1
  have hclear : Sound s s1 := sound_evt id
  refine hclear.trans (foldl_sound (fun t j => ?_) _ _)
  extract_lets e src2 src3 t1
  have hagain : Sound t t1 := ⟨id, id, id, rfl, .refl _⟩
  exact sound_ite (.refl t) (sound_ite (sound_ite hagain (hagain.trans (fireVector_sound _ _))) (raise_sound _ t))

theorem evtLostWrite_sound (i : Nat) (w : Word) (s : State) : Sound s (evtLostWrite i w s) := sound_evt id

theorem evtMaskWrite_sound (i : Nat) (w : Word) (s : State) : Sound s (evtMaskWrite i w s) := by
  unfold evtMaskWrite
  extract_lets old keep src s1
  have hmask : Sound s s1 := sound_evt id
  exact hmask.trans (foldl_sound (fun t _ => sound_ite (fireVector_sound _ t) (.refl t)) _ _)

theorem length_lset {α : Type} (v : α) : ∀ (l : List α) (i : Nat), (lset l i v).length = l.length
  | [], _ => rfl
  | _ :: _, 0 => rfl
  | _ :: r, i + 1 => congrArg (· + 1) (length_lset v r i)

theorem mem_lset {α : Type} {v x : α} : ∀ {l : List α} {i : Nat}, x ∈ lset l i v → x = v ∨ x ∈ l
  | _ :: r, 0, h => (List.mem_cons.1 h).imp_right (List.mem_cons_of_mem _)
  | y :: r, i + 1, h => by
    rcases List.mem_cons.1 h with rfl | h
    · exact .inr List.mem_cons_self
    · exact (mem_lset h).imp_right (List.mem_cons_of_mem _)

/-- An entry of EVT_MAP that names a vector keeps the map well formed (R60). -/
theorem evtOk_lset {b : EvtBlock} {v : BitVec 8} (e : Nat) (hv : v.toNat < 32) (h : EvtOk b) : EvtOk { b with map := lset b.map e v } := by
  obtain ⟨hlen, hent⟩ := h
  refine ⟨(length_lset v b.map e).trans hlen, fun x hx => ?_⟩
  rcases mem_lset hx with rfl | hx
  · exact hv
  · exact hent x hx

theorem evtMapWrite_sound (i : Nat) (w : Word) (s : State) : Sound s (evtMapWrite i w s) := by
  refine foldl_sound (fun t j => sound_ite (.refl t) ?_) _ s
  have hmap := sound_evt (s := t) (evtOk_lset (b := t.evt) (v := BitVec.ofNat 8 (w.toNat / 2 ^ (8 * j) % 32)) (4 * i + j)
    (by rw [BitVec.toNat_ofNat]; omega))
  exact sound_ite (hmap.trans (fireVector_sound _ _)) hmap

theorem sendHeld_sound (s : State) : Sound s (sendHeld s) := (sendHeld_kept s (.refl s)).sound

theorem msixWrite_sound (off : Nat) (w : Word) (s : State) : Sound s (msixWrite off w s) := by
  refine Sound.trans ?_ (sendHeld_sound _)
  exact sound_host (fun ⟨hbar, hstage, hmsix, hram⟩ => ⟨hbar, hstage, mwrite_wf hmsix, hram⟩)

/-! Host accesses: the counter hub (R409 to R414) and the registers. -/

theorem hubCtl_sound (w : Word) (s : State) : Sound s (hubCtl w s) := sound_ite (sound_hub id) (.refl s)

theorem hubPeriod_sound (w : Word) (s : State) : Sound s (hubPeriod w s) := by
  unfold hubPeriod
  split
  · next h =>
    simp only [Bool.and_eq_true, decide_eq_true_eq] at h
    exact sound_hub (fun ⟨_, _, hrest⟩ => ⟨h.1.2, h.2, hrest⟩)
  · exact .refl s

theorem hubRd_sound (w : Word) (s : State) : Sound s (hubRd w s) := by
  unfold hubRd
  split
  · next h =>
    simp only [Bool.and_eq_true, decide_eq_true_eq] at h
    exact sound_hub (fun ⟨hmin, hmax, _, _, hwr⟩ => ⟨hmin, hmax, by dsimp only; omega, by dsimp only; omega, hwr⟩)
  · exact .refl s

theorem hubMirror_sound (hi : Bool) (w : Word) (s : State) : Sound s (hubMirror hi w s) := sound_ite (.refl s) (sound_hub id)

theorem timeLatchWrite_sound (w : Word) (s : State) : Sound s (timeLatchWrite w s) := sound_ite ⟨id, id, id, rfl, .refl _⟩ (.refl s)
theorem usrGrant_sound (w : Word) (s : State) : Sound s (usrGrant w s) := sound_host id
theorem usrCtl_sound (w : Word) (s : State) : Sound s (usrCtl w s) := sound_host id
theorem usrWin_sound (w : Word) (s : State) : Sound s (usrWin w s) := sound_ite (sound_host id) (.refl s)

theorem bar0Write_sound (o : Nat) (w : Word) (s : State) : Sound s (bar0Write o w s) := by
  unfold bar0Write
  refine sound_ite (.refl s) (sound_ite ?_ ?_)
  · exact sound_ite (doorbell_sound _ _ s) (sound_ite (mbDoneWrite_sound _ _ s) (sound_ite (setMb_sound _ _ s)
      (sound_ite (usrGrant_sound _ s) (sound_ite (usrCtl_sound _ s) (.refl s)))))
  · exact sound_ite (usrWin_sound _ s) (sound_ite (msixWrite_sound _ _ s) (sound_ite (hubCtl_sound _ s)
      (sound_ite (hubPeriod_sound _ s) (sound_ite (hubRd_sound _ s) (sound_ite (hubMirror_sound _ _ s)
      (sound_ite (hubMirror_sound _ _ s) (sound_ite (timeLatchWrite_sound _ s) (sound_ite (evtPendWrite_sound _ _ _ s)
      (sound_ite (evtMaskWrite_sound _ _ s) (sound_ite (evtLostWrite_sound _ _ s) (sound_ite (evtMapWrite_sound _ _ s)
      (.refl s))))))))))))

theorem registerWrite_sound (bar : Bar) (o : Nat) (b : List Byte) (s : State) : Sound s (registerWrite bar o b s) := by
  cases bar with
  | bar0 => exact sound_ite (bar0Write_sound _ _ s) (.refl s)
  | bar2 => exact bar2HostWrite_sound o b s
  | cfg => exact (cfgWrite_kept o b s (.refl s)).sound

/-! Resets and starts (R40, R370, R372, R402, R421). -/

theorem hostOk_kept_ram {h : HostSt} (hok : HostOk h) : HostOk { ({} : HostSt) with hostRam := h.hostRam } := by
  obtain ⟨-, -, -, hram⟩ := hok
  exact ⟨rfl, rfl, rfl, hram⟩

theorem hubOk_reset : HubOk {} := by unfold HubOk; decide
theorem evtOk_reset : EvtOk {} := by
  refine ⟨by rw [List.length_map, List.length_range], fun v hv => ?_⟩
  obtain ⟨e, he, rfl⟩ := List.mem_map.1 hv
  have hlt := List.mem_range.1 he
  rw [BitVec.toNat_ofNat]
  omega

theorem inReset_sound (s : State) : Sound s (inReset s) :=
  ⟨hostOk_kept_ram, fun _ => hubOk_reset, fun _ => evtOk_reset, rfl, .refl _⟩

theorem dieMReset_sound (s : State) : Sound s (dieMReset s) := by
  unfold dieMReset
  extract_lets xl s1 mode host jrn
  have hlost : Sound s s1 := by
    refine sound_ite (Sound.trans ?_ (xlinkLostF_kept _ _ _ (.refl _)).sound) (.refl s)
    exact ⟨id, id, id, rfl, .refl _⟩
  clear_value s1
  exact ⟨hostOk_kept_ram, fun _ => hubOk_reset, fun _ => evtOk_reset, hlost.pending, hlost.fuses⟩

theorem railExcursion_sound (r : Rail) (s : State) : Sound s (railExcursion r s) := by
  unfold railExcursion
  extract_lets s1 jrn xl s2 io
  have hheld : Sound s s1 := ⟨id, id, id, rfl, .refl _⟩
  have hlost : Sound s1 s2 := by
    refine Sound.trans ?_ (xlinkLostM_kept _ _ _ (.refl _)).sound
    exact ⟨id, id, id, rfl, .refl _⟩
  refine sound_ite (.refl s) (sound_ite (hheld.trans (dieMReset_sound _)) ((hheld.trans hlost).trans ?_))
  clear_value s2
  refine Sound.trans ?_ (pinsOff_kept _ (forNat_kept _ _ _ stpSafe_kept (freeUnits_kept _ _ (.refl _)))).sound
  exact ⟨id, id, id, rfl, .refl _⟩

theorem bootStart_sound (bs : BitVec 2) (sa : BitVec 5) (s : State) : Sound s (bootStart bs sa s) := ⟨id, id, id, rfl, .refl _⟩

theorem porstRelease_sound (bs : BitVec 2) (sa : BitVec 5) (s : State) : Sound s (porstRelease bs sa s) :=
  sound_ite (.refl s) (sound_ite ⟨id, id, id, rfl, .refl _⟩ (bootStart_sound bs sa s))

theorem deviceReset_sound (bs : BitVec 2) (sa : BitVec 5) (s : State) : Sound s (deviceReset bs sa s) :=
  sound_ite (.refl s) (((flushF_kept _ s (.refl s)).sound.trans (inReset_sound _)).trans (porstRelease_sound _ _ _))

theorem pfailRelease_sound (s : State) : Sound s (pfailRelease s) := by
  have hfree : Sound s (if s.jrn.holdupEnding then
      { modDev (fun d => { d with pfail := false }) s with jrn := { s.jrn with holdup := false } }
      else modDev (fun d => { d with pfail := false }) s) := sound_ite ⟨id, id, id, rfl, .refl _⟩ ⟨id, id, id, rfl, .refl _⟩
  exact sound_ite (hfree.trans (bootStart_sound _ _ _)) hfree

theorem linkReset_sound (s : State) : Sound s (linkReset s) := by
  unfold linkReset
  extract_lets s1 host hub s2 s3
  have horphan : Sound s s1 := (orphanAll_kept s (.refl s)).sound
  have hreset : Sound s1 s2 := ⟨fun ⟨hbar, hstage, _, hram⟩ => ⟨hbar, hstage, rfl, hram⟩, id, fun _ => evtOk_reset, rfl, .refl _⟩
  have hdetach : Sound s2 s3 := (forNat_kept _ _ _ detachStrm_kept (.refl _)).sound
  exact sound_ite (.refl s) (((horphan.trans hreset).trans hdetach).trans (journal_kept _ _ _ _ _ _ _ (.refl _)).sound)

/-- The next state of a command that answers `u` is `u`. -/
theorem Sound.next {s t u : State} (hs : Sound s u) (h : (.next u : Host.Outcome State Fault Refusal) = .next t) : Sound s t := by
  cases h
  exact hs

theorem execRegisterWrite_sound {bar : Bar} {off : BitVec 32} {b : List Byte} {s t : State} (h : execRegisterWrite bar off b s = .next t) :
    Sound s t := by
  unfold execRegisterWrite at h
  split at h
  · cases h
  · exact (registerWrite_sound _ _ _ s).next h

/-- Every command is sound. -/
theorem exec_sound {i : Instr} {s t : State} (h : exec i s = .next t) : Sound s t := by
  by_cases hp : plain i = true
  · exact (exec_kept i s t h hp).sound
  cases i with
  | mbDoneClear m w => exact (mbDoneWrite_sound _ _ s).next h
  | mbStatClear m w => exact (setMb_sound _ _ s).next h
  | commandBufferWrite m k off b => exact (bar2HostWrite_sound _ _ s).next h
  | evtPendClear n w again => exact (evtPendWrite_sound _ _ _ s).next h
  | evtLostClear n w => exact (evtLostWrite_sound _ _ s).next h
  | evtMaskWrite n w => exact (evtMaskWrite_sound _ _ s).next h
  | evtMapWrite n w => exact (evtMapWrite_sound _ _ s).next h
  | timeLatch w => exact (timeLatchWrite_sound _ s).next h
  | hubCtlWrite w => exact (hubCtl_sound _ s).next h
  | hubPeriodWrite w => exact (hubPeriod_sound _ s).next h
  | hubRdWrite w => exact (hubRd_sound _ s).next h
  | hubMirrorWrite hi w => exact (hubMirror_sound _ _ s).next h
  | usrGrantWrite w => exact (usrGrant_sound _ s).next h
  | usrCtlWrite w => exact (usrCtl_sound _ s).next h
  | usrWinWrite w => exact (usrWin_sound _ s).next h
  | streamProdWrite k w recs => exact ((hostRing_sound _ _ s).trans (prodWrite_sound _ _ _)).next h
  | registerWrite bar off b => exact execRegisterWrite_sound h
  | mbDoorbell m w => exact (doorbell_sound _ _ s).next h
  | porstNAssert => exact (inReset_sound s).next h
  | porstNRelease bs sa => exact (porstRelease_sound _ _ s).next h
  | linkReset => exact (linkReset_sound s).next h
  | pfailNRelease => exact (pfailRelease_sound s).next h
  | railResetExcursion r => exact (railExcursion_sound _ s).next h
  | deviceReset bs sa => exact (deviceReset_sound _ _ s).next h
  | _ => exact absurd rfl hp

end Sys2Proof.Machine

namespace Sys2Proof.Machine

/-! What a step keeps. -/

theorem timeTick_sound (s : State) : Sound s (timeTick s) := by
  obtain ⟨time, htime⟩ : ∃ time, timeTick s = { s with time := time } := ⟨_, timeTick_eq s⟩
  rw [htime]
  exact ⟨id, id, id, rfl, .refl _⟩

/-- The command at the front of the queue starts from a state that differs in the queue alone. -/
theorem step_sound {s t : State} (h : step s = .next t) : (Inv s → Inv t) ∧ FusesLe s.dev.fuses t.dev.fuses := by
  unfold step at h
  split at h
  · have hs := (timeTick_sound s).next h
    exact ⟨hs.inv, hs.fuses⟩
  · have hs := exec_sound h
    exact ⟨fun hi => hs.inv ⟨hi.host, hi.hub, hi.evt⟩, hs.fuses⟩

/-- Settles O1: it is how `step` is defined. -/
theorem stepRunsFrontCommand : Obligations.StepRunsFrontCommand := fun _ _ _ => rfl

/-- Settles O4: every command keeps the invariant (`exec_sound`), and a tick leaves what it is about. -/
theorem stepKeepsInvariant : Obligations.StepKeepsInvariant := fun _ _ hi h => (step_sound h).1 hi

/-- Settles O5: every command keeps the queue (`exec_sound`). -/
theorem queueUntouched : Obligations.QueueUntouched := fun _ _ _ h => (exec_sound h).pending

/-- Settles O6: the commands that blow fuses only add to them, and a reset keeps them. -/
theorem fusesStayBlown : Obligations.FusesStayBlown := fun _ _ h => (step_sound h).2

end Sys2Proof.Machine

namespace Sys2Proof.Machine

/-! The frame of the rows: which parts of the state a row may change. -/

/-- Every row leaves the parts of the state that its classes do not name. -/
theorem exec_frame {i : Instr} {s t : State} (h : exec i s = .next t) (hrow : isRow i = true) :
    Same (maskOf i) s t ∧ Rest (restOf i) s t := by
  cases i with
  | commandNoCredit m k => exact ⟨execCommandNoCredit_stays _ _ _ _ h, execCommandNoCredit_rest _ _ _ _ h⟩
  | mbDoneClear m w => exact ⟨execMbDoneClear_stays _ _ _ _ h, execMbDoneClear_rest _ _ _ _ h⟩
  | mbStatClear m w => exact ⟨execMbStatClear_stays _ _ _ _ h, execMbStatClear_rest _ _ _ _ h⟩
  | commandBufferWrite m k off b => exact ⟨execCommandBufferWrite_stays _ _ _ _ _ _ h, execCommandBufferWrite_rest _ _ _ _ _ _ h⟩
  | evtPendClear i w again => exact ⟨execEvtPendClear_stays _ _ _ _ _ h, execEvtPendClear_rest _ _ _ _ _ h⟩
  | evtLostClear i w => exact ⟨execEvtLostClear_stays _ _ _ _ h, execEvtLostClear_rest _ _ _ _ h⟩
  | evtMaskWrite i w => exact ⟨execEvtMaskWrite_stays _ _ _ _ h, execEvtMaskWrite_rest _ _ _ _ h⟩
  | evtMapWrite i w => exact ⟨execEvtMapWrite_stays _ _ _ _ h, execEvtMapWrite_rest _ _ _ _ h⟩
  | timeLoRead wide => exact ⟨execTimeLoRead_stays _ _ _ h, execTimeLoRead_rest _ _ _ h⟩
  | timeLatch w => exact ⟨execTimeLatch_stays _ _ _ h, execTimeLatch_rest _ _ _ h⟩
  | hubCtlWrite w => exact ⟨execHubCtlWrite_stays _ _ _ h, execHubCtlWrite_rest _ _ _ h⟩
  | hubPeriodWrite w => exact ⟨execHubPeriodWrite_stays _ _ _ h, execHubPeriodWrite_rest _ _ _ h⟩
  | hubRdWrite w => exact ⟨execHubRdWrite_stays _ _ _ h, execHubRdWrite_rest _ _ _ h⟩
  | hubMirrorWrite hi w => exact ⟨execHubMirrorWrite_stays _ _ _ _ h, execHubMirrorWrite_rest _ _ _ _ h⟩
  | usrGrantWrite w => exact ⟨execUsrGrantWrite_stays _ _ _ h, execUsrGrantWrite_rest _ _ _ h⟩
  | usrCtlWrite w => exact ⟨execUsrCtlWrite_stays _ _ _ h, execUsrCtlWrite_rest _ _ _ h⟩
  | usrWinWrite w => exact ⟨execUsrWinWrite_stays _ _ _ h, execUsrWinWrite_rest _ _ _ h⟩
  | streamProdWrite k w recs => exact ⟨execStreamProdWrite_stays _ _ _ _ _ h, execStreamProdWrite_rest _ _ _ _ _ h⟩
  | registerWrite bar off b => exact ⟨execRegisterWrite_stays _ _ _ _ _ h, execRegisterWrite_rest _ _ _ _ _ h⟩
  | porstNRelease bootsel stnaddr => exact ⟨execPorstNRelease_stays _ _ _ _ h, execPorstNRelease_rest _ _ _ _ h⟩
  | pfailNAssert => exact ⟨execPfailNAssert_stays _ _ h, execPfailNAssert_rest _ _ h⟩
  | pfailNRelease => exact ⟨execPfailNRelease_stays _ _ h, execPfailNRelease_rest _ _ h⟩
  | pwrWarn rail => exact ⟨execPwrWarn_stays _ _ _ h, execPwrWarn_rest _ _ _ h⟩
  | railResetRelease rail => exact ⟨execRailResetRelease_stays _ _ _ h, execRailResetRelease_rest _ _ _ h⟩
  | thermWarn => exact ⟨execThermWarn_stays _ _ h, execThermWarn_rest _ _ h⟩
  | thermWarnClear => exact ⟨execThermWarnClear_stays _ _ h, execThermWarnClear_rest _ _ h⟩
  | thermCrit => exact ⟨execThermCrit_stays _ _ h, execThermCrit_rest _ _ h⟩
  | thermCritClear => exact ⟨execThermCritClear_stays _ _ h, execThermCritClear_rest _ _ h⟩
  | thermShutdown => exact ⟨execThermShutdown_stays _ _ h, execThermShutdown_rest _ _ h⟩
  | supLockstep => exact ⟨execSupLockstep_stays _ _ h, execSupLockstep_rest _ _ h⟩
  | fLockstep => exact ⟨execFLockstep_stays _ _ h, execFLockstep_rest _ _ h⟩
  | supervisorWatchdog => exact ⟨execSupervisorWatchdog_stays _ _ h, execSupervisorWatchdog_rest _ _ h⟩
  | clockM => exact ⟨execClockM_stays _ _ h, execClockM_rest _ _ h⟩
  | eccUncorrectable owner => exact ⟨execEccUncorrectable_stays _ _ _ h, execEccUncorrectable_rest _ _ _ h⟩
  | eccCorrected spoke => exact ⟨execEccCorrected_stays _ _ _ h, execEccCorrected_rest _ _ _ h⟩
  | xlinkFlit dest flit => exact ⟨execXlinkFlit_stays _ _ _ _ h, execXlinkFlit_rest _ _ _ _ h⟩
  | xlinkNak dest seq => exact ⟨execXlinkNak_stays _ _ _ _ h, execXlinkNak_rest _ _ _ _ h⟩
  | xlinkLost => exact ⟨execXlinkLost_stays _ _ h, execXlinkLost_rest _ _ h⟩
  | xlinkUp => exact ⟨execXlinkUp_stays _ _ h, execXlinkUp_rest _ _ h⟩
  | xlinkTrainTimeout => exact ⟨execXlinkTrainTimeout_stays _ _ h, execXlinkTrainTimeout_rest _ _ h⟩
  | timeAlignFlit error => exact ⟨execTimeAlignFlit_stays _ _ _ h, execTimeAlignFlit_rest _ _ _ h⟩
  | fieldOutputImage crcOk => exact ⟨execFieldOutputImage_stays _ _ _ h, execFieldOutputImage_rest _ _ _ h⟩
  | fieldInputImage => exact ⟨execFieldInputImage_stays _ _ h, execFieldInputImage_rest _ _ h⟩
  | blackChannelCopy a entry => exact ⟨execBlackChannelCopy_stays _ _ _ _ h, execBlackChannelCopy_rest _ _ _ _ h⟩
  | stepCommandRecord => exact ⟨execStepCommandRecord_stays _ _ h, execStepCommandRecord_rest _ _ h⟩
  | ch2Verdict p => exact ⟨execCh2Verdict_stays _ _ _ h, execCh2Verdict_rest _ _ _ h⟩
  | dieFActionReport u => exact ⟨execDieFActionReport_stays _ _ _ h, execDieFActionReport_rest _ _ _ h⟩
  | cadenceStart => exact ⟨execCadenceStart_stays _ _ h, execCadenceStart_rest _ _ h⟩
  | feedbackCutoff => exact ⟨execFeedbackCutoff_stays _ _ h, execFeedbackCutoff_rest _ _ h⟩
  | computeEnd => exact ⟨execComputeEnd_stays _ _ h, execComputeEnd_rest _ _ h⟩
  | trcFull k => exact ⟨execTrcFull_stays _ _ _ h, execTrcFull_rest _ _ _ h⟩
  | planningBoundary => exact ⟨execPlanningBoundary_stays _ _ h, execPlanningBoundary_rest _ _ h⟩
  | zoneRefused z => exact ⟨execZoneRefused_stays _ _ _ h, execZoneRefused_rest _ _ _ h⟩
  | asmPhaseStart => exact ⟨execAsmPhaseStart_stays _ _ h, execAsmPhaseStart_rest _ _ h⟩
  | laneWindowStart => exact ⟨execLaneWindowStart_stays _ _ h, execLaneWindowStart_rest _ _ h⟩
  | qpProblemDone u => exact ⟨execQpProblemDone_stays _ _ _ h, execQpProblemDone_rest _ _ _ h⟩
  | qpDeadline g j => exact ⟨execQpDeadline_stays _ _ _ _ h, execQpDeadline_rest _ _ _ _ h⟩
  | selectionPhase g => exact ⟨execSelectionPhase_stays _ _ _ h, execSelectionPhase_rest _ _ _ h⟩
  | shiftStop g => exact ⟨execShiftStop_stays _ _ _ h, execShiftStop_rest _ _ _ h⟩
  | guardBoundary => exact ⟨execGuardBoundary_stays _ _ h, execGuardBoundary_rest _ _ h⟩
  | sensorStale n => exact ⟨execSensorStale_stays _ _ _ h, execSensorStale_rest _ _ _ h⟩
  | verdictDeadline => exact ⟨execVerdictDeadline_stays _ _ h, execVerdictDeadline_rest _ _ h⟩
  | tandemMismatch g => exact ⟨execTandemMismatch_stays _ _ _ h, execTandemMismatch_rest _ _ _ h⟩
  | verdictAbsent g => exact ⟨execVerdictAbsent_stays _ _ _ h, execVerdictAbsent_rest _ _ _ h⟩
  | speedExceeded g second => exact ⟨execSpeedExceeded_stays _ _ _ _ h, execSpeedExceeded_rest _ _ _ _ h⟩
  | ch2Feedback g => exact ⟨execCh2Feedback_stays _ _ _ h, execCh2Feedback_rest _ _ _ h⟩
  | ch2Override g => exact ⟨execCh2Override_stays _ _ _ h, execCh2Override_rest _ _ _ h⟩
  | sensorRecord k st b => exact ⟨execSensorRecord_stays _ _ _ _ _ h, execSensorRecord_rest _ _ _ _ _ h⟩
  | roundStart => exact ⟨execRoundStart_stays _ _ h, execRoundStart_rest _ _ h⟩
  | latchInstant => exact ⟨execLatchInstant_stays _ _ h, execLatchInstant_rest _ _ h⟩
  | hubDump dieF => exact ⟨execHubDump_stays _ _ _ h, execHubDump_rest _ _ _ h⟩
  | hubMirrorErr => exact ⟨execHubMirrorErr_stays _ _ h, execHubMirrorErr_rest _ _ h⟩
  | stationFrame seg port sfd frame => exact ⟨execStationFrame_stays _ _ _ _ _ _ h, execStationFrame_rest _ _ _ _ _ _ h⟩
  | foreignFrame p => exact ⟨execForeignFrame_stays _ _ _ h, execForeignFrame_rest _ _ _ h⟩
  | stationSilenced k st => exact ⟨execStationSilenced_stays _ _ _ _ h, execStationSilenced_rest _ _ _ _ h⟩
  | freewheelExpired a => exact ⟨execFreewheelExpired_stays _ _ _ h, execFreewheelExpired_rest _ _ _ h⟩
  | masterCollision k o => exact ⟨execMasterCollision_stays _ _ _ _ h, execMasterCollision_rest _ _ _ _ h⟩
  | collisionWaitEnd k => exact ⟨execCollisionWaitEnd_stays _ _ _ h, execCollisionWaitEnd_rest _ _ _ h⟩
  | ringChangeover k => exact ⟨execRingChangeover_stays _ _ _ h, execRingChangeover_rest _ _ _ h⟩
  | vzLinkDown p => exact ⟨execVzLinkDown_stays _ _ _ h, execVzLinkDown_rest _ _ _ h⟩
  | enumReturn k l => exact ⟨execEnumReturn_stays _ _ _ _ h, execEnumReturn_rest _ _ _ _ h⟩
  | delayReturn k d => exact ⟨execDelayReturn_stays _ _ _ _ h, execDelayReturn_rest _ _ _ _ h⟩
  | arbFrameReturn k c st => exact ⟨execArbFrameReturn_stays _ _ _ _ _ h, execArbFrameReturn_rest _ _ _ _ _ h⟩
  | acyclicFrame k st b => exact ⟨execAcyclicFrame_stays _ _ _ _ _ h, execAcyclicFrame_rest _ _ _ _ _ h⟩
  | acyclicTimeout m k => exact ⟨execAcyclicTimeout_stays _ _ _ _ h, execAcyclicTimeout_rest _ _ _ _ h⟩
  | pelotonSync port rx f => exact ⟨execPelotonSync_stays _ _ _ _ _ h, execPelotonSync_rest _ _ _ _ _ h⟩
  | pelotonDelayReq port rx f => exact ⟨execPelotonDelayReq_stays _ _ _ _ _ h, execPelotonDelayReq_rest _ _ _ _ _ h⟩
  | pelotonDelayResp port t1 t4 f => exact ⟨execPelotonDelayResp_stays _ _ _ _ _ _ h, execPelotonDelayResp_rest _ _ _ _ _ _ h⟩
  | pelotonEnum port f => exact ⟨execPelotonEnum_stays _ _ _ _ h, execPelotonEnum_rest _ _ _ _ h⟩
  | pelotonConfig port f => exact ⟨execPelotonConfig_stays _ _ _ _ h, execPelotonConfig_rest _ _ _ _ h⟩
  | pelStartTimeout => exact ⟨execPelStartTimeout_stays _ _ h, execPelStartTimeout_rest _ _ h⟩
  | pelSyncSet => exact ⟨execPelSyncSet_stays _ _ h, execPelSyncSet_rest _ _ h⟩
  | pelSyncLost => exact ⟨execPelSyncLost_stays _ _ h, execPelSyncLost_rest _ _ h⟩
  | pelTakeover => exact ⟨execPelTakeover_stays _ _ h, execPelTakeover_rest _ _ h⟩
  | announcementApply => exact ⟨execAnnouncementApply_stays _ _ h, execAnnouncementApply_rest _ _ h⟩
  | ptpMessage p m => exact ⟨execPtpMessage_stays _ _ _ _ h, execPtpMessage_rest _ _ _ _ h⟩
  | ptpInterval p k stamped => exact ⟨execPtpInterval_stays _ _ _ _ _ h, execPtpInterval_rest _ _ _ _ _ h⟩
  | ptpAnnounceTimeout p => exact ⟨execPtpAnnounceTimeout_stays _ _ _ h, execPtpAnnounceTimeout_rest _ _ _ h⟩
  | gmServoInterval mean => exact ⟨execGmServoInterval_stays _ _ _ h, execGmServoInterval_rest _ _ _ h⟩
  | timedActionFire u => exact ⟨execTimedActionFire_stays _ _ _ h, execTimedActionFire_rest _ _ _ h⟩
  | taskRelease d => exact ⟨execTaskRelease_stays _ _ _ h, execTaskRelease_rest _ _ _ h⟩
  | taskDispatch k => exact ⟨execTaskDispatch_stays _ _ _ h, execTaskDispatch_rest _ _ _ h⟩
  | taskEnd k u => exact ⟨execTaskEnd_stays _ _ _ _ h, execTaskEnd_rest _ _ _ _ h⟩
  | fftSliceEnd u => exact ⟨execFftSliceEnd_stays _ _ _ h, execFftSliceEnd_rest _ _ _ h⟩
  | schedDeadlineMiss k f => exact ⟨execSchedDeadlineMiss_stays _ _ _ _ h, execSchedDeadlineMiss_rest _ _ _ _ h⟩
  | enqueueResume k => exact ⟨execEnqueueResume_stays _ _ _ h, execEnqueueResume_rest _ _ _ h⟩
  | inputLevelChange c v => exact ⟨execInputLevelChange_stays _ _ _ _ h, execInputLevelChange_rest _ _ _ _ h⟩
  | inputFiltered c => exact ⟨execInputFiltered_stays _ _ _ h, execInputFiltered_rest _ _ _ h⟩
  | inputQualified c => exact ⟨execInputQualified_stays _ _ _ h, execInputQualified_rest _ _ _ h⟩
  | chatter c => exact ⟨execChatter_stays _ _ _ h, execChatter_rest _ _ _ h⟩
  | notFound a => exact ⟨execNotFound_stays _ _ _ h, execNotFound_rest _ _ _ h⟩
  | hardStopLatch a => exact ⟨execHardStopLatch_stays _ _ _ h, execHardStopLatch_rest _ _ _ h⟩
  | groupSettled g => exact ⟨execGroupSettled_stays _ _ _ h, execGroupSettled_rest _ _ _ h⟩
  | enableTimeout a => exact ⟨execEnableTimeout_stays _ _ _ h, execEnableTimeout_rest _ _ _ h⟩
  | disableTimeout a => exact ⟨execDisableTimeout_stays _ _ _ h, execDisableTimeout_rest _ _ _ h⟩
  | groupEnableTimeout g => exact ⟨execGroupEnableTimeout_stays _ _ _ h, execGroupEnableTimeout_rest _ _ _ h⟩
  | injectionComplete a => exact ⟨execInjectionComplete_stays _ _ _ h, execInjectionComplete_rest _ _ _ h⟩
  | frfComplete => exact ⟨execFrfComplete_stays _ _ h, execFrfComplete_rest _ _ h⟩
  | openInput c low => exact ⟨execOpenInput_stays _ _ _ _ h, execOpenInput_rest _ _ _ _ h⟩
  | overtemp c tj => exact ⟨execOvertemp_stays _ _ _ _ h, execOvertemp_rest _ _ _ _ h⟩
  | overtempTrip c tj => exact ⟨execOvertempTrip_stays _ _ _ _ h, execOvertempTrip_rest _ _ _ _ h⟩
  | overload c => exact ⟨execOverload_stays _ _ _ h, execOverload_rest _ _ _ h⟩
  | groupOverload x cur => exact ⟨execGroupOverload_stays _ _ _ _ h, execGroupOverload_rest _ _ _ _ h⟩
  | shortFlp c => exact ⟨execShortFlp_stays _ _ _ h, execShortFlp_rest _ _ _ h⟩
  | openOff c => exact ⟨execOpenOff_stays _ _ _ h, execOpenOff_rest _ _ _ h⟩
  | openOn c => exact ⟨execOpenOn_stays _ _ _ h, execOpenOn_rest _ _ _ h⟩
  | codeCleared c code => exact ⟨execCodeCleared_stays _ _ _ _ h, execCodeCleared_rest _ _ _ _ h⟩
  | channelRestart c => exact ⟨execChannelRestart_stays _ _ _ h, execChannelRestart_rest _ _ _ h⟩
  | supplyLow x mv => exact ⟨execSupplyLow_stays _ _ _ _ h, execSupplyLow_rest _ _ _ _ h⟩
  | supplyCut x mv => exact ⟨execSupplyCut_stays _ _ _ _ h, execSupplyCut_rest _ _ _ _ h⟩
  | supplyOver x mv => exact ⟨execSupplyOver_stays _ _ _ _ h, execSupplyOver_rest _ _ _ _ h⟩
  | supplyLatchRelease x => exact ⟨execSupplyLatchRelease_stays _ _ _ h, execSupplyLatchRelease_rest _ _ _ h⟩
  | logicSilence => exact ⟨execLogicSilence_stays _ _ h, execLogicSilence_rest _ _ h⟩
  | stpHoldAssert n => exact ⟨execStpHoldAssert_stays _ _ _ h, execStpHoldAssert_rest _ _ _ h⟩
  | journalRecordSend => exact ⟨execJournalRecordSend_stays _ _ h, execJournalRecordSend_rest _ _ h⟩
  | journalWrite => exact ⟨execJournalWrite_stays _ _ h, execJournalWrite_rest _ _ h⟩
  | holdupWindowEnd => exact ⟨execHoldupWindowEnd_stays _ _ h, execHoldupWindowEnd_rest _ _ h⟩
  | holdupDone => exact ⟨execHoldupDone_stays _ _ h, execHoldupDone_rest _ _ h⟩
  | holdupCheck cMeas => exact ⟨execHoldupCheck_stays _ _ _ h, execHoldupCheck_rest _ _ _ h⟩
  | truncateEraseDone => exact ⟨execTruncateEraseDone_stays _ _ h, execTruncateEraseDone_rest _ _ h⟩
  | lpddrTrained => exact ⟨execLpddrTrained_stays _ _ h, execLpddrTrained_rest _ _ h⟩
  | stagedImageFound => exact ⟨execStagedImageFound_stays _ _ h, execStagedImageFound_rest _ _ h⟩
  | containerLoaded => exact ⟨execContainerLoaded_stays _ _ h, execContainerLoaded_rest _ _ h⟩
  | firmwareHandover => exact ⟨execFirmwareHandover_stays _ _ h, execFirmwareHandover_rest _ _ h⟩
  | lpddrInitDone => exact ⟨execLpddrInitDone_stays _ _ h, execLpddrInitDone_rest _ _ h⟩
  | bootRun => exact ⟨execBootRun_stays _ _ h, execBootRun_rest _ _ h⟩
  | romWatchdog => exact ⟨execRomWatchdog_stays _ _ h, execRomWatchdog_rest _ _ h⟩
  | initWatchdog => exact ⟨execInitWatchdog_stays _ _ h, execInitWatchdog_rest _ _ h⟩
  | bootUnconfirmed => exact ⟨execBootUnconfirmed_stays _ _ h, execBootUnconfirmed_rest _ _ h⟩
  | mbDoorbell m w => exact ⟨execMbDoorbell_stays _ _ _ _ h, execMbDoorbell_rest _ _ _ _ h⟩
  | badOpcodeCommand c => exact ⟨execBadOpcodeCommand_stays _ _ _ h, execBadOpcodeCommand_rest _ _ _ h⟩
  | fwUpdateDone => exact ⟨execFwUpdateDone_stays _ _ h, execFwUpdateDone_rest _ _ h⟩
  | flpFirstRise x mv => exact ⟨execFlpFirstRise_stays _ _ _ _ h, execFlpFirstRise_rest _ _ _ _ h⟩
  | _ => cases hrow

/-- What is free to change or unchanged, and not free, is unchanged. -/
theorem eq_of_not_free {α : Type} {free : Bool} {x y : α} (h : free = true ∨ x = y) (hfree : free = false) : x = y :=
  h.resolve_left (by rw [hfree]; exact Bool.false_ne_true)

/-- Settles O13: what the masks of a row do not free is unchanged (`exec_frame`). -/
theorem frameOfMotionAndBuses : Obligations.FrameOfMotionAndBuses := by
  intro i s t h hrow
  obtain ⟨hsame, -⟩ := exec_frame h hrow
  exact ⟨eq_of_not_free hsame.axes, eq_of_not_free hsame.grps, eq_of_not_free hsame.strm, eq_of_not_free hsame.stp,
    eq_of_not_free hsame.qp, eq_of_not_free hsame.ssm, eq_of_not_free hsame.bus, eq_of_not_free hsame.pel, eq_of_not_free hsame.ptp,
    eq_of_not_free hsame.sig, eq_of_not_free hsame.sch, eq_of_not_free hsame.io⟩

/-- Settles O14, as O13 for the other parts of the state. -/
theorem frameOfDevice : Obligations.FrameOfDevice := by
  intro i s t h hrow
  obtain ⟨hsame, hrest⟩ := exec_frame h hrow
  exact ⟨eq_of_not_free hsame.cad, eq_of_not_free hrest.time, eq_of_not_free hrest.dev, eq_of_not_free hrest.jrn,
    eq_of_not_free hrest.xl, eq_of_not_free hrest.eff, fun hu => ⟨eq_of_not_free hrest.tilesOut hu, eq_of_not_free hrest.lanesOut hu⟩⟩

/-! FAULT mode (R361, R363). -/

/-- A command that changes the device's own fields is plain or a restart of die M. -/
theorem changesDevice_le (i : Instr) : (plain i || restarts i || !changesDevice i) = true := by cases i <;> rfl

/-- A command is plain, a restart of die M, a row or LINK_RESET. -/
theorem isRow_or_linkReset (i : Instr) : (plain i || restarts i || isRow i) = true ∨ i = .linkReset := by
  cases i with
  | linkReset => exact .inr rfl
  | _ => exact .inl rfl

/-- LINK_RESET orphans the work under way and changes no other field of the device. -/
theorem linkReset_dev (s : State) : (linkReset s).dev.mode = s.dev.mode ∧ (linkReset s).dev.faultCause = s.dev.faultCause ∧
    (linkReset s).dev.faultN = s.dev.faultN := by
  unfold linkReset
  split
  · exact ⟨rfl, rfl, rfl⟩
  · rw [journal_dev, (forNat_rest (msk := { jrn := true }) _ _ _ (fun k t ht => detachStrm_rest k t ht rfl) (.refl _ _)).dev_eq rfl]
    exact ⟨rfl, rfl, rfl⟩

/-- Settles O10: the plain commands keep the mode, the first cause and FAULT_N (`exec_kept`), a host access leaves the device's fields,
and LINK_RESET these three of them. -/
theorem faultModeStays : Obligations.FaultModeStays := by
  intro i s t h hr hm
  by_cases hp : plain i = true
  · have hkept := exec_kept i s t h hp
    exact ⟨hkept.fault hm, hkept.cause hm, hkept.faultN hm⟩
  rcases isRow_or_linkReset i with hrow | rfl
  · have hdev := changesDevice_le i
    simp only [hp, hr, Bool.false_or, Bool.not_eq_true'] at hrow hdev
    rw [(exec_frame h hrow).2.dev_eq hdev]
    exact ⟨hm, fun _ => rfl, id⟩
  · obtain rfl : linkReset s = t := Host.Outcome.next.inj h
    obtain ⟨hmode, hcause, hpin⟩ := linkReset_dev s
    exact ⟨hmode.trans hm, fun _ => hcause, hpin.trans⟩

end Sys2Proof.Machine

namespace Sys2Proof.Machine

/-! What FAULT mode serves (R363). -/

/-- The mailbox of a command is none that a command image runs in. -/
theorem mailbox_ne_image (r : CmdRef) : (r.mb : Nat) ≠ imageMb := by
  have := r.mb.isLt
  unfold imageMb
  omega

/-- The meaning of a mailbox command is the path of its specification. -/
theorem exec_of_mailbox {i : Instr} {sp : CmdSpec} {r : CmdRef} (h : mailbox i = some (sp, r)) (s : State) :
    exec i s = .next (runCmd sp r s) := by
  cases i <;> cases h <;> rfl

/-- The commands that a specification opens in FAULT are those that R363 names. -/
theorem inFault_of_mailbox {i : Instr} {sp : CmdSpec} {r : CmdRef} (h : mailbox i = some (sp, r)) (p : List Byte) :
    sp.inFault p = servedInFault (bitOf (u32 p 8) 0) i := by
  cases i <;> cases h <;> rfl

theorem verifyReport_mb (st : Status) (s : State) : (verifyReport st s).host.mb = s.host.mb := by
  unfold verifyReport
  split <;> rw [raise_mb, journal_host]

/-- What a refused command does leaves the mailboxes: only dev.load_image, dev.update_fw and jrn.truncate do anything, and they report
a verification or use up the challenge. -/
theorem refused_mb {i : Instr} {sp : CmdSpec} {r : CmdRef} (h : mailbox i = some (sp, r)) (c : Cmd) (s t : State) (st : Status) :
    ((sp.body c s).refused st t).host.mb = t.host.mb := by
  cases i with
  | devLoadImage r =>
    cases h
    exact iteInduction (motive := fun u : State => u.host.mb = t.host.mb) (fun _ => verifyReport_mb st t) (fun _ => rfl)
  | devUpdateFw r =>
    cases h
    exact iteInduction (motive := fun u : State => u.host.mb = t.host.mb) (fun _ => verifyReport_mb st t) (fun _ => rfl)
  | _ => cases h <;> rfl

/-- A posted command that a condition of R53 turns away completes with the status of that condition. -/
theorem refused_completes {i : Instr} {sp : CmdSpec} {r : CmdRef} {s : State} {st : Status} (hi : mailbox i = some (sp, r))
    (hp : Posted sp r s) (hst : refusalOf sp r s = some st) :
    Gives i s fun t => slotOf t r.mb r.slot = .done ∧ statusAt t r = st.code := by
  obtain ⟨htake, hop⟩ := hp
  refine ⟨_, exec_of_mailbox hi s, ?_⟩
  unfold runCmd
  rw [if_pos (by simp [htake, hop])]
  unfold admitCmd
  have hbad : firstBad (commonBad sp (cmdOf sp r s) (sp.kind (cmdOf sp r s).h (cmdOf sp r s).p s) s ++ (sp.body (cmdOf sp r s) s).bad)
    = some st := hst
  extract_lets k pl s1
  simp only [pl, k, hbad]
  have hs1 : s1.host.mb = s.host.mb := iteInduction (motive := fun u : State => u.host.mb = s.host.mb) (fun _ => rfl) (fun _ => rfl)
  have hposted : slotOf ((sp.body (cmdOf sp r s) s).refused st s1) r.mb r.slot = .posted := by
    unfold slotOf mbOf
    rw [refused_mb hi, hs1]
    exact supTakes_posted htake
  exact ⟨complete_done (mailbox_ne_image r) hposted, complete_statusAt hposted⟩

/-- DEVICE_FAULT comes first in the order of R53. -/
theorem firstBad_deviceFault {l : List (Bool × Status)} (h : (true, Status.deviceFault) ∈ l) : firstBad l = some .deviceFault := by
  cases hfirst : firstBad l with
  | none => exact absurd h (firstBad_none l hfirst _)
  | some st =>
    have hrank := firstBad_min l st hfirst _ h
    cases st with
    | deviceFault => rfl
    | _ => exact absurd hrank (by decide)

/-- DEVICE_FAULT is among the conditions of every command exactly where FAULT does not serve it. -/
theorem deviceFault_mem_commonBad {sp : CmdSpec} {c : Cmd} {k : Kind} {s : State} :
    (true, Status.deviceFault) ∈ commonBad sp c k s ↔ s.dev.mode = .fault ∧ (s.dev.noCore = true ∨ sp.inFault c.p = false) := by
  simp only [commonBad, List.mem_cons, Prod.mk.injEq, reduceCtorEq, and_false, or_false, List.not_mem_nil, and_true]
  simp only [eq_comm (a := true), Bool.and_eq_true, Bool.or_eq_true, decide_eq_true_eq, Bool.not_eq_true']

/-- Settles O19. That sec.get_cert and sec.fuse_status are not served in FAULT is log entry 14 of the model. -/
theorem faultModeServes : Obligations.FaultModeServes := by
  intro i sp r s hi hp hm
  have hserved := inFault_of_mailbox hi (payloadOf sp r s)
  rw [← hserved]
  refine ⟨fun h => refused_completes (st := .deviceFault) hi hp ?_, fun hin hcore hbad => ?_⟩
  · exact firstBad_deviceFault (List.mem_append_left _ (deviceFault_mem_commonBad.2 ⟨hm, h.symm⟩))
  · obtain ⟨-, hcore' | hin'⟩ := deviceFault_mem_commonBad.1 hbad
    · exact Bool.false_ne_true (hcore.symm.trans hcore')
    · exact Bool.false_ne_true (hin'.symm.trans hin)

end Sys2Proof.Machine

namespace Sys2Proof.Machine

/-! Operations of an act: they leave the mailboxes and BAR2, and states that agree but for a completion agree after them. -/

/-- `f` leaves the mailbox slots and the bytes of BAR2, and keeps the agreement of two states but for a completion. -/
structure Operation (f : State → State) : Prop where
  host : ∀ s, (f s).host.mb = s.host.mb ∧ (f s).host.bar2 = s.host.bar2
  quiet : ∀ {s t}, Quiet s t → Quiet (f s) (f t)

theorem Operation.comp {f g : State → State} (hf : Operation f) (hg : Operation g) : Operation (fun s => g (f s)) where
  host s := ⟨(hg.host _).1.trans (hf.host s).1, (hg.host _).2.trans (hf.host s).2⟩
  quiet q := hg.quiet (hf.quiet q)

/-- What an operation does may rest on a value of the state that a completion leaves. -/
theorem Operation.reads {α : Type} {v : State → α} {f : α → State → State} (hv : ∀ {s t}, Quiet s t → v t = v s)
    (hf : ∀ x, Operation (f x)) : Operation (fun s => f (v s) s) where
  host s := (hf (v s)).host s
  quiet {s t} q := by
    have h := (hf (v s)).quiet q
    rwa [show f (v s) t = f (v t) t by rw [hv q]] at h

theorem Operation.id : Operation (fun s => s) := ⟨fun _ => ⟨rfl, rfl⟩, fun q => q⟩

theorem Operation.ite {c : Prop} [Decidable c] {f g : State → State} (hf : Operation f) (hg : Operation g) :
    Operation (fun s => if c then f s else g s) := by
  by_cases h : c
  · simpa only [h, if_true] using hf
  · simpa only [h, if_false] using hg

theorem Operation.foldl {α : Type} (l : List α) {f : State → α → State} (hf : ∀ x, Operation (f · x)) :
    Operation (fun s => l.foldl f s) := by
  induction l with
  | nil => exact .id
  | cons x r ih => exact (hf x).comp ih

theorem raise_operation (e : Nat) : Operation (raise e) := ⟨fun s => ⟨raise_mb e s, raise_bar2 e s⟩, raise_congr e⟩

theorem journal_operation (src code sev obj aux : Nat) (d : List Byte) : Operation (journal src code sev obj aux d) :=
  ⟨fun s => by rw [journal_host]; exact ⟨rfl, rfl⟩, journal_congr src code sev obj aux d⟩

theorem emit_operation (k : OutKind) (u : Nat) (b : List Byte) : Operation (emit k u b) :=
  ⟨fun _ => ⟨rfl, rfl⟩, fun q => ((emit_quiet k u b _).symm.trans q).trans (emit_quiet k u b _)⟩

theorem freeNext_operation : Operation freeNext := ⟨fun _ => ⟨rfl, rfl⟩, freeNext_quiet⟩

/-- An accepted command whose act is an operation completes with it done. -/
theorem accepted_operates {i : Instr} {sp : CmdSpec} {r : CmdRef} {s : State} {res : List Byte} {g : State → State}
    (hex : exec i s = .next (runCmd sp r s)) (h : Accepted sp r s)
    (hact : ∀ t, (sp.body (cmdOf sp r s) s).act t = { s := g t, res := res }) (hg : Operation g) : Does i r s res (g s) :=
  accepted_applies g hex h hact hg.host (fun _ q _ => hg.quiet q)

end Sys2Proof.Machine

namespace Sys2Proof.Machine

/-! The pel commands. -/

theorem modPel_operation (f : PelSt → PelSt) : Operation (modPel f) :=
  ⟨fun _ => ⟨rfl, rfl⟩, fun q => { q with pel := congrArg f q.pel }⟩

theorem pelSend_quiet (up : Bool) (msg tx members count t2 : Nat) (s : State) : Quiet s (pelSend up msg tx members count t2 s) := by
  unfold pelSend
  extract_lets port link
  split
  · exact .refl s
  · exact emit_quiet _ _ _ _

theorem pelSend_host (up : Bool) (msg tx members count t2 : Nat) (s : State) : (pelSend up msg tx members count t2 s).host = s.host := by
  unfold pelSend
  extract_lets port link
  split <;> rfl

theorem timeMode_congr {s t : State} (p : Nat) (q : Quiet s t) : timeMode p t = timeMode p s := by
  unfold timeMode followsGm inPeloton isRef
  rw [q.pel, q.ptp]

/-- A status that the chapter does not set is OK or OK_ADJUSTED. -/
theorem getD_adjusted (st : Option Status) (b : Bool) :
    st.getD (if b then .okAdjusted else .ok) = st.getD .ok ∨ st.getD (if b then .okAdjusted else .ok) = st.getD .okAdjusted := by
  cases b with
  | false => exact .inl rfl
  | true => exact .inr rfl

/-- The act of an accepted command starts from where it is admitted, and completes the command or leaves it for later. -/
theorem accepted_runs {sp : CmdSpec} {r : CmdRef} {s : State} (h : Accepted sp r s) :
    ∃ t st time state, Quiet s t ∧ t.host = s.host ∧
      (sp.kind (cmdOf sp r s).h (cmdOf sp r s).p s = .untimed → t = { s with admitSeq := s.admitSeq + 1 }) ∧
      (st = ((sp.body (cmdOf sp r s) s).act t).status.getD .ok ∨ st = ((sp.body (cmdOf sp r s) s).act t).status.getD .okAdjusted) ∧
      runCmd sp r s = if ((sp.body (cmdOf sp r s) s).act t).later then takeBell r.mb r.slot ((sp.body (cmdOf sp r s) s).act t).s
        else complete r.mb r.slot st time state ((sp.body (cmdOf sp r s) s).act t).res ((sp.body (cmdOf sp r s) s).act t).s := by
  obtain ⟨⟨htakes, hop⟩, hok⟩ := h
  unfold refusalOf at hok
  dsimp only at hok
  unfold runCmd
  rw [if_pos (by simp [htakes, hop])]
  unfold admitCmd
  dsimp only
  rw [hok]
  refine ⟨_, _, _, _, ?_, ?_, ?_, ?_, rfl⟩
  · split
    · exact (count_quiet _ _ _).trans (by constructor <;> rfl)
    · constructor <;> rfl
  · split <;> rfl
  · intro hk
    rw [if_neg (not_not_intro hk)]
  · exact getD_adjusted _ _

/-- The peloton as pel.start of the command in slot (`mb`, `slot`) leaves it at the instant `at'` (R309, R310). -/
def pelStarting (fol up : Bool) (mb slot at' : Nat) (freq : Int) (p : PelSt) : PelSt := { p with
  state := 1, isRef := !fol, started := some (mb, slot), startAt := at', enumCount := none, enumSame := false
  tookTime := false, measures := 0, addr := 0, addrKnown := !fol, sync := !fol, syncSeen := false, refAge := 0
  refGen := 0, members := if fol then 0 else 1, syncedMembers := 0, up := {}, down := {}, goodRun := 0, badRun := 0
  i := 0, theta := 0, thetaNew := false, timingDown := !up, sync' := {}, adopting := none, ann := {}, queued := []
  fAtRound := freq }

theorem pelStart_act (c : Cmd) (s t : State) : (pelStartSpec.body c s).act t =
    { s :=
        let t1 := modPel (pelStarting (joinsAsFollower s) (s.pel.upPort ≠ 0xFF) c.mb c.slot (now t) t.time.freqCorr) t
        if !joinsAsFollower s && s.pel.strap && s.dev.stnaddr ≠ 0 then startDone 4 t1
        else if joinsAsFollower s then delayReq (!t1.pel.timingDown) t1 else t1
      later := true } := rfl

/-- A pel.start that does not fail at once begins, whether it sends DELAY_REQ or not. -/
theorem pelStart_begins {r : CmdRef} {s : State} (h : Accepted pelStartSpec r s)
    (hfail : (!joinsAsFollower s && s.pel.strap && decide (s.dev.stnaddr ≠ 0)) = false) :
    Begins (.pelStart r) r s
      (modPel (pelStarting (joinsAsFollower s) (s.pel.upPort ≠ 0xFF) r.mb r.slot (now s) s.time.freqCorr) s) := by
  refine accepted_begins rfl h (fun t q _ hh _ => ?_)
  rw [pelStart_act, hfail]
  dsimp only
  rw [if_neg Bool.false_ne_true, show now t = now s by unfold now; rw [q.time], q.time]
  have hstart := (modPel_operation (pelStarting (joinsAsFollower s) (s.pel.upPort ≠ 0xFF) r.mb r.slot (now s) s.time.freqCorr)).quiet q
  split
  · refine ⟨rfl, ?_, ?_, hstart.trans (pelSend_quiet _ _ _ _ _ _ _)⟩ <;>
    · unfold delayReq
      rw [pelSend_host, modPel_host, hh]
  · exact ⟨rfl, by rw [modPel_host, hh], by rw [modPel_host, hh], hstart⟩

/-- A head whose strapped address is not 0 fails its start at once with reason 4 (R308). -/
theorem pelStart_fails {r : CmdRef} {s : State} (h : Accepted pelStartSpec r s) (hf : joinsAsFollower s = false)
    (hstrap : s.pel.strap = true) (haddr : s.dev.stnaddr ≠ 0) : ∃ t, exec (.pelStart r) s = .next t ∧
      slotOf t r.mb r.slot = .done ∧ t.pel.state = 3 ∧ t.pel.reason = 4 ∧ t.pel.started = none := by
  obtain ⟨t, st, time, state, -, hhost, -, -, hrun⟩ := accepted_runs h
  rw [pelStart_act, if_pos rfl] at hrun
  dsimp only at hrun
  rw [if_pos (by simpa [hf, hstrap] using haddr)] at hrun
  refine ⟨_, congrArg Host.Outcome.next hrun, ?_, ?_⟩
  · rw [takeBell_slot]
    exact complete_done (mailbox_ne_image r) ((slotOf_congr _ _ hhost).trans (supTakes_posted h.1.1))
  · have hpel : ∀ u : State, (takeBell r.mb r.slot u).pel = u.pel := fun _ => rfl
    rw [hpel, startDone_pel]
    exact ⟨rfl, rfl, rfl⟩

/-- HOLDOVER is entered where the time mode has become it from mode `was` (R321). -/
def holdoverFrom (was : Nat) (s : State) : State := if timeMode 0 s = 4 && was ≠ 4 then enterHoldover s else s

theorem holdoverFrom_operation (was : Nat) : Operation (holdoverFrom was) :=
  .reads (v := timeMode 0) (f := fun m s => if m = 4 && was ≠ 4 then enterHoldover s else s) (timeMode_congr 0)
    (fun _ => .ite ((journal_operation _ _ _ _ _ _).comp (raise_operation _)) .id)

/-- The servo told to follow a grandmaster or not as `p` says, from frequency correction `freq` (R321). -/
def servoTold (p : List Byte) (freq : Int) (q : PelSt) : PelSt := { q with
  follow := u8 p 0 = 1, followPort := u8 p 1, freqMax := u16 p 2, gmTau := BitVec.ofNat 32 (u32 p 4), intervals := 0
  gmOffset := 0, slewInInterval := 0, target := freq, holdover := false }

/-- What pel.follow_gm with payload `p` does (R321). -/
def followingGm (p : List Byte) (s : State) : State := holdoverFrom (timeMode 0 s) (modPel (servoTold p s.time.freqCorr) s)

theorem followingGm_operation (p : List Byte) : Operation (followingGm p) :=
  .reads (v := fun s => (timeMode 0 s, s.time.freqCorr)) (f := fun v s => holdoverFrom v.1 (modPel (servoTold p v.2) s))
    (fun q => Prod.ext (timeMode_congr 0 q) (congrArg TimeSt.freqCorr q.time))
    (fun _ => (modPel_operation _).comp (holdoverFrom_operation _))

/-- Settles O27: pel.configure writes its fields, pel.start begins or fails with the reason 4 of R308, pel.stop waits for its promise
time, pel.handover leaves an announcement, pel.follow_gm writes the servo's fields, and pel.status answers and clears CAUSE. -/
theorem pelCommandsComplete : Obligations.PelCommandsComplete := by
  intro r s
  refine ⟨fun _ => ⟨_, rfl⟩, fun _ => ⟨_, rfl⟩, fun _ => ⟨_, rfl⟩, fun _ => ⟨_, rfl⟩, fun _ => ⟨_, rfl⟩, fun _ => ⟨_, rfl⟩,
    ?_, ?_, ?_, ?_, ?_, ?_, ?_, ?_⟩
  · exact fun h => accepted_operates rfl h (fun _ => rfl) (modPel_operation _)
  · intro h hf
    obtain ⟨t, hex, hslot, q⟩ := pelStart_begins h (by simp [hf])
    rw [hf] at q
    refine ⟨t, hex, hslot, ?_⟩
    rw [q.pel]
    exact ⟨rfl, rfl, rfl, rfl⟩
  · intro h hf hor
    obtain ⟨t, hex, hslot, q⟩ := pelStart_begins h (by rcases hor with h | h <;> simp [h])
    rw [hf] at q
    refine ⟨t, hex, hslot, ?_⟩
    rw [q.pel]
    exact ⟨rfl, rfl, rfl, rfl, rfl⟩
  · exact fun h => pelStart_fails h
  · exact fun h => accepted_waits rfl h (fun _ => rfl)
  · exact fun h => accepted_operates rfl h (fun _ => rfl) (modPel_operation _)
  · exact fun h => accepted_operates (g := followingGm _) rfl h (fun _ => rfl) (followingGm_operation _)
  · exact fun h => accepted_operates rfl h (fun _ => rfl) ((modPel_operation _).comp freeNext_operation)

end Sys2Proof.Machine

namespace Sys2Proof.Machine

/-! The io commands. -/

theorem setChan_operation (c : Nat) (x : Chan) : Operation (setChan c x) :=
  ⟨fun _ => ⟨rfl, rfl⟩, fun q => { q with io := congrArg (fun l : IoSt => { l with ch := tset {} l.ch c x }) q.io }⟩

theorem setFg_operation (x : Nat) (v : FieldGroup) : Operation (setFg x v) :=
  ⟨fun _ => ⟨rfl, rfl⟩, fun q => { q with io := congrArg (fun l : IoSt => { l with grp := tset {} l.grp x v }) q.io }⟩

theorem modIo_operation (f : IoSt → IoSt) : Operation (fun s => { s with io := f s.io }) :=
  ⟨fun _ => ⟨rfl, rfl⟩, fun q => { q with io := congrArg f q.io }⟩

/-- Field group `x` set up by io.configure_group with payload `p` (R341). -/
def fgConfigured (p : List Byte) (x : Nat) (s : State) : State :=
  setFg x { fgOf s x with sto := u8 p 0 = 1, autoRe := bitOf (u8 p 1) 0, inputsOnFlp := bitOf (u8 p 1) 1 } s

theorem fgConfigured_operation (p : List Byte) (x : Nat) : Operation (fgConfigured p x) :=
  Operation.reads (v := (fgOf · x))
    (f := fun v => setFg x { v with sto := u8 p 0 = 1, autoRe := bitOf (u8 p 1) 0, inputsOnFlp := bitOf (u8 p 1) 1 })
    (fun q => fgOf_congr x (by rw [q.io])) (fun _ => setFg_operation x _)

/-- Settles O38: the three configuring commands write their fields, io.write arms a die F action, the three that a cadence start takes
wait for their promise time, and io.status answers; what its STATE and DIAG fields show is in the order of log entry 29 of the model. -/
theorem ioCommandsComplete : Obligations.IoCommandsComplete := by
  intro r s
  refine ⟨fun _ => ⟨_, rfl⟩, fun _ => ⟨_, rfl⟩, fun _ => ⟨_, rfl⟩, fun _ => ⟨_, rfl⟩, fun _ => ⟨_, rfl⟩, fun _ => ⟨_, rfl⟩,
    fun _ => ⟨_, rfl⟩, fun _ => ⟨_, rfl⟩, ?_, ?_, ?_, ?_, ?_, ?_, ?_, ?_⟩
  · exact fun h => accepted_operates rfl h (fun _ => rfl) (setChan_operation _ _)
  · exact fun h => accepted_operates (g := fgConfigured _ _) rfl h (fun _ => rfl) (fgConfigured_operation _ _)
  · exact fun h => accepted_operates (g := fun t => { t with io := { t.io with tWdNext := some _ } }) rfl h (fun _ => rfl)
      (modIo_operation fun x => { x with tWdNext := _ })
  · exact fun h => accepted_applies (arm _) rfl h (fun _ => rfl) (fun t => by rw [arm_host]; exact ⟨rfl, rfl⟩)
      (fun t q ha => arm_congr _ { q with } ha)
  · exact fun h => accepted_waits rfl h (fun _ => rfl)
  · exact fun h => accepted_waits rfl h (fun _ => rfl)
  · exact fun h => accepted_waits rfl h (fun _ => rfl)
  · exact fun h => accepted_operates (g := fun t => { t with free := t.free + 8 }) rfl h (fun _ => rfl)
      ⟨fun _ => ⟨rfl, rfl⟩, fun q => { q with free := congrArg (· + 8) q.free }⟩

end Sys2Proof.Machine

namespace Sys2Proof.Machine

/-! The stp commands. -/

theorem setStp_operation (n : Nat) (v : StpAxis) : Operation (setStp n v) :=
  ⟨fun _ => ⟨rfl, rfl⟩, fun q => { q with stp := congrArg (fun l => tset ({} : StpAxis) l n v) q.stp }⟩

/-- An operation may rest on a step axis. -/
theorem Operation.readsStp (n : Nat) {f : StpAxis → State → State} (hf : ∀ x, Operation (f x)) :
    Operation (fun s => f (stpOf s n) s) :=
  Operation.reads (v := (stpOf · n)) (fun q => stpOf_congr n q.stp) hf

theorem stpPut_operation (n : Nat) (y : StpAxis) : Operation (stpPut n y) :=
  .readsStp n (f := fun x s => if stpPins y = stpPins x then setStp n y s else emit .pin (272 + n) (stpPins y) (setStp n y s))
    (fun _ => .ite (setStp_operation n y) ((setStp_operation n y).comp (emit_operation _ _ _)))

theorem stpEvent_operation (n : Nat) (cause : BitVec 8) : Operation (stpEvent n cause) :=
  .readsStp n (f := fun x s => raise (92 + n / 4) (setStp n { x with cause := x.cause ||| cause } s))
    (fun _ => (setStp_operation n _).comp (raise_operation _))

theorem stpGo_operation (n : Nat) (st : StpState) : Operation (stpGo n st) :=
  .readsStp n (f := fun x s => if x.state = st then s else stpEvent n 0x01 (stpPut n { x with state := st } s))
    (fun _ => .ite .id ((stpPut_operation n _).comp (stpEvent_operation n _)))

theorem stpPreempt_operation (n : Nat) (c : StpCmd) : Operation (stpPreempt n c) :=
  (journal_operation _ _ _ _ _ _).comp (stpEvent_operation n _)

theorem stpDropMoves_operation (n t : Nat) : Operation (stpDropMoves n t) :=
  .readsStp n (f := fun (x : StpAxis) s => (x.queue.filter (fun c : StpCmd => !c.stop && t ≤ c.at')).foldl (fun u c => stpPreempt n c u)
      (setStp n { x with queue := x.queue.filter (fun c => c.stop || c.at' < t) } s))
    (fun _ => (setStp_operation n _).comp (.foldl _ (stpPreempt_operation n)))

theorem stpAbort_operation (n : Nat) : Operation (stpAbort n) :=
  .readsStp n
    (f := fun x s => if x.home = .none then s else stpEvent n 0x04 (setStp n { x with home := .none, homed := false, homeReason := 5 } s))
    (fun _ => .ite .id ((setStp_operation n _).comp (stpEvent_operation n _)))

/-- The stop command of a ramp from `t` is queued (R353). -/
def stpQueueStop (n t : Nat) (s : State) : State :=
  stpEvent n 0x02 (setStp n { stpOf s n with queue := (stpOf s n).queue ++ [{ stop := true, at' := t }] } s)

theorem stpQueueStop_operation (n t : Nat) : Operation (stpQueueStop n t) :=
  .readsStp n (f := fun y s => stpEvent n 0x02 (setStp n { y with queue := y.queue ++ [{ stop := true, at' := t }] } s))
    (fun _ => (setStp_operation n _).comp (stpEvent_operation n _))

theorem stpRamp_operation (n t : Nat) : Operation (stpRamp n t) :=
  .readsStp n (f := fun x s => if x.state = .moving || x.state = .homing || x.next = some .moving then
        stpQueueStop n t (stpAbort n (stpDropMoves n t s))
      else if x.state = .ready then stpDropMoves n t s else s)
    (fun _ => .ite (((stpDropMoves_operation n t).comp (stpAbort_operation n)).comp (stpQueueStop_operation n t))
      (.ite (stpDropMoves_operation n t) .id))

/-- stp.stop with RAMP ramps, with IMMEDIATE it only posts its effect (R353). -/
theorem stpStop_act (c : Cmd) (s t : State) : (stpStopSpec.body c s).act t =
    if u8 c.p 0 = 1 then { s := post c t } else { s := stpRamp c.h.object c.promise t } := rfl

/-- Settles O39: stp.configure writes the step axis and makes it DISABLED, the commands that a cadence start takes wait for their promise
time, stp.move joins the queue with its arrival, a ramp stop ramps, and stp.status answers and clears CAUSE. -/
theorem stpCommandsComplete : Obligations.StpCommandsComplete := by
  intro r s
  refine ⟨fun _ => ⟨_, rfl⟩, fun _ => ⟨_, rfl⟩, fun _ => ⟨_, rfl⟩, fun _ => ⟨_, rfl⟩, fun _ => ⟨_, rfl⟩, fun _ => ⟨_, rfl⟩,
    fun _ => ⟨_, rfl⟩, fun _ => ⟨_, rfl⟩, fun _ => ⟨_, rfl⟩, ?_, ?_, ?_, ?_, ?_, ?_, ?_, ?_, ?_, ?_⟩
  · exact fun h => accepted_operates rfl h (fun _ => rfl) ((stpPut_operation _ _).comp (stpGo_operation _ _))
  · exact fun h => accepted_waits rfl h (fun _ => rfl)
  · exact fun h => accepted_waits rfl h (fun _ => rfl)
  · intro h
    refine accepted_does rfl h (fun t q ha hh _ => ?_)
    refine ⟨rfl, rfl, rfl, congrArg HostSt.mb hh, congrArg HostSt.bar2 hh, ?_⟩
    have hq := (setStp_operation (objectOf r s) { stpOf s (objectOf r s) with queue := (stpOf s (objectOf r s)).queue ++
      [{ target := stpTarget (stpOf s (objectOf r s)) (dueOf stpMoveSpec r s) (payloadOf stpMoveSpec r s)
         speed := f32 (u32 (payloadOf stpMoveSpec r s) 8), tag := (hdrOf s r.mb r.slot).tag, at' := dueOf stpMoveSpec r s
         seq := s.admitSeq + 1 }] }).quiet q
    rw [← ha] at hq ⊢
    exact hq
  · exact fun h himm => accepted_waits rfl h (fun t => (stpStop_act _ s t).trans (if_pos himm))
  · intro h hramp
    have hp : u8 (cmdOf stpStopSpec r s).p 0 = 0 := hramp
    exact accepted_operates rfl h (fun t => (stpStop_act _ s t).trans (if_neg (by simp [hp]))) (stpRamp_operation _ _)
  · exact fun h => accepted_waits rfl h (fun _ => rfl)
  · exact fun h => accepted_waits_then id rfl h (fun _ => ⟨_, rfl⟩) (fun _ => ⟨rfl, rfl⟩) (fun _ q => q)
  · exact fun h => accepted_waits rfl h (fun _ => rfl)
  · exact fun h => accepted_operates rfl h (fun _ => rfl) (setStp_operation _ _)

end Sys2Proof.Machine

namespace Sys2Proof.Machine

/-! The dev commands. -/

theorem modDev_operation (f : DevSt → DevSt) : Operation (modDev f) :=
  ⟨fun _ => ⟨rfl, rfl⟩, fun q => { q with dev := congrArg f q.dev }⟩

theorem count_operation (i code : Nat) : Operation (count i code) :=
  ⟨fun _ => ⟨rfl, rfl⟩, fun q => ((count_quiet i code _).symm.trans q).trans (count_quiet i code _)⟩

theorem writeRec_operation (f : BootRec → BootRec) : Operation (writeRec f) :=
  ((modDev_operation _).comp (modDev_operation _)).comp (count_operation 142 0x1004)

theorem reqStopAll_operation (cat : Nat) : Operation (reqStopAll cat) :=
  .foldl (f := fun s g => reqStopGrp g cat s) _ (fun g => ⟨fun _ => ⟨rfl, rfl⟩, modGrp_quiet g _⟩)

/-- The boot record that leads to Kickstand mode, where `on` (R395). -/
def kickAsked (on : Bool) (s : State) : State := if on && xlinkCarries s then writeRec (fun r => { r with kick := 0x07 }) s else s

theorem kickAsked_operation (on : Bool) : Operation (kickAsked on) :=
  .reads (v := xlinkCarries) (f := fun x s => if on && x then writeRec (fun r => { r with kick := 0x07 }) s else s)
    (fun q => xlinkCarries_congr q.xl) (fun _ => .ite (writeRec_operation _) .id)

/-- A reset from Kickstand mode clears the failed attempts (R395). -/
def attemptsCleared (m : Mode) (s : State) : State :=
  if m = .kickstand then writeRec (fun r => { r with attempts := 0, cause := 0 }) s else s

theorem attemptsCleared_operation (m : Mode) : Operation (attemptsCleared m) := .ite (writeRec_operation _) .id

/-- A reset by force ends the operations that run and asks every group to stop (R395). -/
def forced (on : Bool) (s : State) : State :=
  if on then reqStopAll 0 (modDev (fun d => { d with op := none, replay := none }) s) else s

theorem forced_operation (on : Bool) : Operation (forced on) := .ite ((modDev_operation _).comp (reqStopAll_operation 0)) .id

/-- dev.reset with payload `p`: the reset comes 1 ms later (R395). -/
def resetAsked (p : List Byte) (s : State) : State :=
  modDev (fun d => { d with resetAt := some (1000000 + now s) })
    (forced (u8 p 1 = 1) (attemptsCleared s.dev.mode (kickAsked (u8 p 0 = 1) s)))

theorem resetAsked_operation (p : List Byte) : Operation (resetAsked p) :=
  .reads (v := fun s => (now s, s.dev.mode))
    (f := fun v s => modDev (fun d => { d with resetAt := some (1000000 + v.1) })
      (forced (u8 p 1 = 1) (attemptsCleared v.2 (kickAsked (u8 p 0 = 1) s))))
    (fun q => Prod.ext (now_congr q.time) (congrArg DevSt.mode q.dev))
    (fun v => (((kickAsked_operation _).comp (attemptsCleared_operation v.2)).comp (forced_operation _)).comp (modDev_operation _))

/-- dev.reset without KICKSTAND and FORCE in RUN only sets the reset. -/
theorem resetAsked_plain {p : List Byte} {s : State} (hk : u8 p 0 = 0) (hf : u8 p 1 = 0) (hm : s.dev.mode = .run) :
    resetAsked p s = modDev (fun d => { d with resetAt := some (1000000 + now s) }) s := by
  simp [resetAsked, forced, attemptsCleared, kickAsked, hk, hf, hm]

theorem devReset_resets {r : CmdRef} {s : State} (h : Accepted devResetSpec r s) :
    Does (.devReset r) r s [] (resetAsked (payloadOf devResetSpec r s) s) :=
  accepted_operates (g := resetAsked _) rfl h (fun t => by
    refine congrArg (fun u => ({ s := modDev _ u } : Act)) ?_
    unfold forced
    simp only [decide_eq_true_eq]
    rfl) (resetAsked_operation _)

/-- The boot confirmed from slot `n` (R384). -/
def bootConfirmed (n : Nat) (s : State) : State :=
  modDev (fun d => { d with fwConfirmed := true })
    (writeRec (fun r => { r with attempts := 0, cause := 0, trial := 0, active := if n < 2 then n else r.active }) s)

theorem bootConfirmed_operation : Operation (fun s => bootConfirmed s.dev.slot s) :=
  .reads (v := fun s => s.dev.slot) (fun q => congrArg DevSt.slot q.dev) (fun _ => (writeRec_operation _).comp (modDev_operation _))

/-- A command that begins with a change of the device alone. -/
theorem accepted_begins_dev {i : Instr} {sp : CmdSpec} {r : CmdRef} {s : State} (f : DevSt → DevSt)
    (hex : exec i s = .next (runCmd sp r s)) (h : Accepted sp r s)
    (hact : ∀ t, (sp.body (cmdOf sp r s) s).act t = { s := modDev f t, later := true }) : Begins i r s (modDev f s) :=
  accepted_begins hex h (fun t q _ hh _ => by
    rw [hact t]
    exact ⟨rfl, congrArg HostSt.mb hh, congrArg HostSt.bar2 hh, (modDev_operation f).quiet q⟩)

/-- Settles O23: dev.boot_status answers, dev.reset sets the reset 1 ms later, dev.confirm_boot writes the boot record, and
dev.load_image and dev.update_fw begin with the image in the payload. -/
theorem devCommandsComplete : Obligations.DevCommandsComplete := by
  intro r s
  refine ⟨fun _ => ⟨_, rfl⟩, fun _ => ⟨_, rfl⟩, fun _ => ⟨_, rfl⟩, fun _ => ⟨_, rfl⟩, fun _ => ⟨_, rfl⟩, ?_, ?_, ?_, ?_, ?_, ?_⟩
  · exact fun h => accepted_answers rfl h (fun _ => rfl)
  · exact fun h hk hf hm => (congrArg (Does _ r s []) (resetAsked_plain hk hf hm)).mp (devReset_resets h)
  · intro h
    obtain ⟨t, hex, hserved, q⟩ := devReset_resets h
    exact ⟨t, hex, hserved, congrArg DevSt.resetAt q.dev⟩
  · exact fun h => accepted_applies (fun t => bootConfirmed t.dev.slot t) rfl h (fun _ => rfl) bootConfirmed_operation.host
      (fun t q _ => Quiet.trans (b := bootConfirmed s.dev.slot s) (by constructor <;> rfl) (bootConfirmed_operation.quiet q))
  · exact fun h => accepted_begins_dev _ rfl h (fun _ => rfl)
  · exact fun h => accepted_begins_dev _ rfl h (fun _ => rfl)

end Sys2Proof.Machine

namespace Sys2Proof.Machine

/-! The sec commands. -/

/-- A change of the fuses and its record in the journal (R378 to R381). -/
theorem fusesJournalled_operation (f : Fuses → Fuses) (code : Nat) (d : List Byte) :
    Operation (fun s => journal 0x07 code 0 noObj 0 d (modFuses f s)) :=
  (modDev_operation _).comp (journal_operation 0x07 code 0 noObj 0 d)

/-- Settles O24: sec.attest answers the signed body, sec.get_cert and sec.fuse_status answer, and the four that blow fuses journal it,
with the DETAIL bytes of log entry 26 of the model and the bound 64 of log entry 46. -/
theorem secCommandsComplete : Obligations.SecCommandsComplete := by
  intro r s
  refine ⟨fun _ => ⟨_, rfl⟩, fun _ => ⟨_, rfl⟩, fun _ => ⟨_, rfl⟩, fun _ => ⟨_, rfl⟩, fun _ => ⟨_, rfl⟩, fun _ => ⟨_, rfl⟩,
    fun _ => ⟨_, rfl⟩, ?_, ?_, ?_, ?_, ?_, ?_, ?_⟩
  · exact fun h => accepted_operates rfl h (fun _ => rfl) freeNext_operation
  · exact fun h => accepted_answers rfl h (fun _ => rfl)
  · exact fun h => accepted_answers rfl h (fun _ => rfl)
  · exact fun h => accepted_operates rfl h (fun _ => rfl) (fusesJournalled_operation _ _ _)
  · exact fun h => accepted_operates rfl h (fun _ => rfl) (fusesJournalled_operation _ _ _)
  · exact fun h => accepted_operates rfl h (fun _ => rfl) (fusesJournalled_operation _ _ _)
  · exact fun h => accepted_operates rfl h (fun _ => rfl) (fusesJournalled_operation _ _ _)

end Sys2Proof.Machine

namespace Sys2Proof.Machine

/-! The jrn commands. -/

/-- A change of the journal's own state alone. -/
def modJrn (f : JrnSt → JrnSt) (s : State) : State := { s with jrn := f s.jrn }

theorem modJrn_operation (f : JrnSt → JrnSt) : Operation (modJrn f) :=
  ⟨fun _ => ⟨rfl, rfl⟩, fun q => { q with jrn := congrArg f q.jrn }⟩

theorem mkRec_congr (src code sev obj aux : Nat) (d : List Byte) {s t : State} (q : Quiet s t) :
    mkRec src code sev obj aux d t = mkRec src code sev obj aux d s := by
  unfold mkRec
  rw [q.time, q.dev]

/-- The record of a jrn.annotate of mailbox `mb` with payload `p` enters the journal. -/
def annotated (mb : Nat) (p : List Byte) (s : State) : State :=
  journalRec { mkRec 0x13 0x10 (u8 p 0) noObj 0 (p.drop 4) s with mbox := mb } s

theorem annotated_operation (mb : Nat) (p : List Byte) : Operation (annotated mb p) :=
  .reads (v := mkRec 0x13 0x10 (u8 p 0) noObj 0 (p.drop 4)) (f := fun x s => journalRec { x with mbox := mb } s) (mkRec_congr _ _ _ _ _ _)
    (fun _ => ⟨fun s => by rw [journalRec_host]; exact ⟨rfl, rfl⟩, journalRec_congr _⟩)

/-- Settles O41: jrn.status and jrn.read answer, jrn.challenge keeps a fresh challenge, jrn.truncate uses it up, moves the floor and
journals, jrn.configure writes C_REQ, and jrn.annotate queues a record. The DETAIL layout and the number that jrn.annotate answers are
log entry 26 of the model. -/
theorem jrnCommandsComplete : Obligations.JrnCommandsComplete := by
  intro r s
  refine ⟨fun _ => ⟨_, rfl⟩, fun _ => ⟨_, rfl⟩, fun _ => ⟨_, rfl⟩, fun _ => ⟨_, rfl⟩, fun _ => ⟨_, rfl⟩, fun _ => ⟨_, rfl⟩,
    ?_, ?_, ?_, ?_, ?_, ?_⟩
  · exact fun h => accepted_answers rfl h (fun _ => rfl)
  · exact fun h => accepted_answers rfl h (fun _ => rfl)
  · exact fun h => accepted_operates (g := fun t => modJrn _ (freeNext t)) rfl h (fun _ => rfl)
      (freeNext_operation.comp (modJrn_operation fun x => { x with challenge := _ }))
  · exact fun h => accepted_operates (g := fun t => journal 0x14 0x01 1 noObj 0 _ (modJrn _ t)) rfl h (fun _ => rfl)
      ((modJrn_operation fun x => ctlWrite { x with
        challenge := none, floor := _, erasing := _, lastTruncate := s.time.long, wrapSeen := false }).comp (journal_operation _ _ _ _ _ _))
  · exact fun h => accepted_operates (g := modJrn _) rfl h (fun _ => rfl) (modJrn_operation fun x => { x with cReq := _ })
  · exact fun h => accepted_operates (g := annotated r.mb _) rfl h (fun _ => rfl) (annotated_operation _ _)

end Sys2Proof.Machine

namespace Sys2Proof.Machine

/-! The pc commands. -/

/-- The selections of a spoke: those that wait for the next latch and those in force. -/
def selections (s : State) (i : Nat) : List (Option Nat) × List Nat := ((spokeOf s i).next, (spokeOf s i).sel)

theorem selections_congr {s t : State} (h : t.hub.spokes = s.hub.spokes) : selections t = selections s := by
  funext i
  unfold selections spokeOf
  rw [h]

/-- Counting an event keeps every selection. -/
theorem selections_countN (n code k : Nat) (s : State) : selections (countN n code k s) = selections s := by
  funext i
  unfold selections countN
  dsimp only
  rw [spokeOf_setSpoke]
  split
  · subst i
    rfl
  · rfl

theorem selections_fireVector (v : Nat) (s : State) : selections (fireVector v s) = selections s := by
  unfold fireVector
  split
  · rfl
  split
  · exact selections_congr rfl
  · exact (selections_countN _ _ _ _).trans (selections_congr rfl)

theorem selections_raise (e : Nat) (s : State) : selections (raise e s) = selections s := by
  unfold raise
  extract_lets was evt trc s1
  split
  · exact (selections_fireVector _ _).trans (selections_congr rfl)
  · exact selections_congr rfl

theorem selections_complete {m k : Nat} (st : Status) (time state : Nat) (res : List Byte) {s : State} (hm : m ≠ imageMb)
    (h : slotOf s m k = .posted) : selections (complete m k st time state res s) = selections s := by
  rw [complete_eq hm h]
  extract_lets s1 s3
  have h1 : selections s1 = selections s := by
    unfold s1
    split <;> exact selections_congr rfl
  have h3 : selections s3 = selections s := (selections_congr rfl).trans h1
  split
  · exact h3
  · exact (selections_raise _ _).trans h3

/-- The completion of an accepted command whose act, not left for later, leaves the mailboxes and BAR2. -/
theorem accepted_serves {i : Instr} {sp : CmdSpec} {r : CmdRef} {s : State} {res : List Byte} (g : State → State)
    (hex : exec i s = .next (runCmd sp r s)) (h : Accepted sp r s) (hk : sp.kind (cmdOf sp r s).h (cmdOf sp r s).p s = .untimed)
    (hact : ∀ t, (sp.body (cmdOf sp r s) s).act t = { s := g t, res := res })
    (hhost : ∀ t, (g t).host.mb = t.host.mb ∧ (g t).host.bar2 = t.host.bar2) :
    ∃ t, exec i s = .next t ∧ Served r s t res ∧ selections t = selections (g { s with admitSeq := s.admitSeq + 1 }) := by
  obtain ⟨t, st, time, state, -, -, huntimed, hst, hrun⟩ := accepted_runs h
  rw [hact t] at hrun
  rw [hact t] at hst
  obtain ⟨hmb, hbar⟩ := hhost t
  rw [huntimed hk] at hrun hmb hbar
  have hposted : slotOf (g { s with admitSeq := s.admitSeq + 1 }) r.mb r.slot = .posted := by
    unfold slotOf mbOf
    rw [hmb]
    exact supTakes_posted h.1.1
  have hhdr : hdrOf s r.mb r.slot = hdrOf (g { s with admitSeq := s.admitSeq + 1 }) r.mb r.slot := by
    unfold hdrOf
    rw [hbar]
  exact ⟨_, hex.trans (congrArg Host.Outcome.next hrun), complete_served hposted hhdr hst,
    selections_complete _ _ _ _ (mailbox_ne_image r) hposted⟩

/-- The selections that a pc.select with payload `p` names wait for the next latch of spoke `i` (R415). -/
def selecting (p : List Byte) (i : Nat) (s : State) : State :=
  let named := (List.range 8).filter (fun j => bitOf (u8 p 0) j)
  setSpoke i { spokeOf s i with next := named.foldl (fun l j => lset l j (some (u16 p (4 + 2 * j)))) (spokeOf s i).next } s

/-- Settles O40: pc.select leaves the selections that it names for the next latch and answers its instant, and pc.spoke_info answers. -/
theorem pcCommandsComplete : Obligations.PcCommandsComplete := by
  intro r s
  refine ⟨fun _ => ⟨_, rfl⟩, fun _ => ⟨_, rfl⟩, fun h => ?_, fun h => accepted_answers rfl h (fun _ => rfl)⟩
  obtain ⟨t, hex, hserved, hsel⟩ := accepted_serves (i := .pcSelect r) (selecting (payloadOf pcSelectSpec r s) (objectOf r s)) rfl h rfl
    (fun _ => rfl) (fun _ => ⟨rfl, rfl⟩)
  have hi := congrFun hsel (objectOf r s)
  unfold selections selecting at hi
  rw [spokeOf_setSpoke, if_pos rfl] at hi
  exact ⟨t, hex, hserved, congrArg Prod.fst hi, congrArg Prod.snd hi⟩

end Sys2Proof.Machine

namespace Sys2Proof.Machine

/-! The HUB counter control, a latch and a dump (R409 to R414). -/

theorem pending_raiseIf {b : Bool} {e v : Nat} {s : State} (h : Pending s v) : Pending (raiseIf b e s) v := by
  unfold raiseIf
  split
  · exact pending_raise e v s h
  · exact h

/-- HUB_MIRROR with half of it written (R414). -/
def mirrorWith (hi : Bool) (w : Word) (m : BitVec 64) : BitVec 64 :=
  BitVec.ofNat 64 (if hi then w.toNat * 2 ^ 32 + m.toNat % 2 ^ 32 else m.toNat / 2 ^ 32 * 2 ^ 32 + w.toNat)

theorem hubMirror_written {hi : Bool} {w : Word} {s : State} (hl : hubLive s = true) (hm : s.hub.mirrorEn = false) :
    hubMirror hi w s = { s with hub := { s.hub with mirror := mirrorWith hi w s.hub.mirror } } := by
  unfold hubMirror
  rw [if_neg (by simp [hl, hm])]
  rfl

theorem mirrorWith_halves (hi : Bool) (w : Word) (m : BitVec 64) :
    if hi then (mirrorWith hi w m).toNat / 2 ^ 32 = w.toNat ∧ (mirrorWith hi w m).toNat % 2 ^ 32 = m.toNat % 2 ^ 32
    else (mirrorWith hi w m).toNat % 2 ^ 32 = w.toNat ∧ (mirrorWith hi w m).toNat / 2 ^ 32 = m.toNat / 2 ^ 32 := by
  have hw := w.isLt
  have hm := m.isLt
  unfold mirrorWith
  cases hi with
  | true =>
    simp only [if_true, BitVec.toNat_ofNat]
    omega
  | false =>
    simp only [Bool.false_eq_true, if_false, BitVec.toNat_ofNat]
    omega

/-- What a latch instant that falls due leaves in the hub (R409, R410, R413). -/
theorem latch_hub {s : State} (hl : bar2Live s = true) (hd : latchDue s = true) :
    (latch s).hub.latchNo = s.hub.latchNo + 1 ∧ (latch s).hub.periodInForce = s.hub.period ∧
    (latch s).hub.dumpDue = (s.hub.enable && decide (unread s ≠ 63)) ∧
    (latch s).hub.skipped = (if s.hub.enable && unread s = 63 then s.hub.skipped + 1 else s.hub.skipped) := by
  unfold latch
  rw [if_neg (by simp [hl, hd])]
  refine ⟨rfl, rfl, ?_, rfl⟩
  cases s.hub.enable <;> simp

/-- What a completion may touch leaves the hub's registers but for the counters. -/
theorem Quiet.hub_registers {s t : State} (q : Quiet s t) : t.hub.wr = s.hub.wr ∧ t.hub.seq = s.hub.seq ∧
    t.hub.skipped = s.hub.skipped ∧ t.hub.dumpDue = s.hub.dumpDue ∧ t.hub.mirrorEn = s.hub.mirrorEn := by
  obtain ⟨mb, bar2, pba, pend, lost, sent, spokes, occ, out, adm, rfl⟩ := q.eta
  exact ⟨rfl, rfl, rfl, rfl, rfl⟩

/-- The events of a dump: it is written, it carries a sticky bit, the ring fills (R412). -/
def dumpEvents (full sticky : Bool) (s : State) : State := raiseIf full 97 (raiseIf sticky 98 (raise 96 s))

theorem dumpEvents_quiet (full sticky : Bool) (s : State) : Quiet s (dumpEvents full sticky s) :=
  ((raise_quiet _ _).trans (raiseIf_quiet _ _ _)).trans (raiseIf_quiet _ _ _)

theorem dumpEvents_pending (full sticky : Bool) (s : State) : Pending (dumpEvents full sticky s) 96 :=
  pending_raiseIf (pending_raiseIf (raise_sets_pending 96 s (by decide)))

/-- The registers `v` of the hub at the end of a dump that began with `h` (R411, R412). -/
def hubDumped (h : HubSt) (grant : Word) (v : HubSt) : HubSt := { v with
  wr := (h.wr + 8192) % 524288, seq := h.latchNo, skipped := 0, dumpDue := false, grants := tset 0 h.grants (h.wr / 8192) grant }

/-- A dump that is due ends with its registers written and its events raised. -/
theorem hubDump_ends (arrived : Bool) {s : State} (hl : bar2Live s = true) (hd : s.hub.dumpDue = true) :
    ∃ (full sticky : Bool) (u : State),
      hubDump arrived s = dumpEvents full sticky { u with hub := hubDumped s.hub s.host.usrGrant u.hub } := by
  unfold hubDump
  rw [if_neg (by simp [hl, hd])]
  extract_lets valid body bytes due s1 s2 s3 src s4
  exact ⟨decide (48 < unread s4), dumpOverflow s valid, s3, rfl⟩

/-- What a dump leaves in the hub, and its event. -/
theorem hubDump_dumps (arrived : Bool) {s : State} (hl : bar2Live s = true) (hd : s.hub.dumpDue = true) :
    (hubDump arrived s).hub.wr = (s.hub.wr + 8192) % 524288 ∧ (hubDump arrived s).hub.seq = s.hub.latchNo ∧
    (hubDump arrived s).hub.skipped = 0 ∧ (hubDump arrived s).hub.dumpDue = false ∧ Pending (hubDump arrived s) 96 := by
  obtain ⟨full, sticky, u, hdump⟩ := hubDump_ends arrived hl hd
  rw [hdump]
  obtain ⟨hwr, hseq, hskipped, hdue, -⟩ :=
    (dumpEvents_quiet full sticky { u with hub := hubDumped s.hub s.host.usrGrant u.hub }).hub_registers
  exact ⟨hwr, hseq, hskipped, hdue, dumpEvents_pending _ _ _⟩

/-- A mirror error ends mirroring (R414). -/
theorem hubMirrorErr_ends {s : State} (h : s.hub.mirrorEn = true) :
    (hubMirrorErr s).hub.mirrorEn = false ∧ Pending (hubMirrorErr s) 99 := by
  unfold hubMirrorErr
  rw [if_pos h]
  obtain ⟨-, -, -, -, hmirror⟩ := (raise_quiet 99 { s with hub := { s.hub with mirrorEn := false } }).hub_registers
  exact ⟨hmirror, raise_sets_pending 99 _ (by decide)⟩

/-- Settles O45, a clause for each register and row. That a full ring counts the dump as skipped is R413; where ENABLE is 0 a latch asks
for no dump, and the model counts none. -/
theorem hubRegisters : Obligations.HubRegisters := by
  intro w s
  refine ⟨?_, ?_, ?_, ?_, ?_, ?_, ?_, ?_, ?_, ?_⟩
  · exact fun hl => congrArg Host.Outcome.next (if_pos hl)
  · exact fun hl hlo hhi => congrArg Host.Outcome.next (if_pos (by simp [hl, hlo, hhi]))
  · exact fun h => congrArg Host.Outcome.next (if_neg (by simp; omega))
  · exact fun hl hw => congrArg Host.Outcome.next (if_pos (by simp [hl, hw]))
  · exact fun hw => congrArg Host.Outcome.next (if_neg (by simp; omega))
  · intro hi hl hm
    exact ⟨_, congrArg Host.Outcome.next (hubMirror_written hl hm), mirrorWith_halves hi w s.hub.mirror, rfl⟩
  · exact fun hi hm => congrArg Host.Outcome.next (if_pos (by simp [hm]))
  · exact fun hl hd => ⟨_, rfl, latch_hub hl hd⟩
  · exact fun arrived hl hd => ⟨_, rfl, hubDump_dumps arrived hl hd⟩
  · exact fun h => ⟨_, rfl, hubMirrorErr_ends h⟩

end Sys2Proof.Machine

namespace Sys2Proof.Machine

/-! The journal's rows (R397 to R405). -/

theorem xsend_jrn (d : Die) (cls : Nat) (b : List Byte) (s : State) : (xsend d cls b s).jrn = s.jrn :=
  (xsend_rest (msk := { xl := true }) d cls b s (.refl _ _) rfl).jrn.resolve_left (by decide)

/-- Die M's oldest record passes to die F where nothing is left to report of dropped records (R399). -/
theorem journalSend_passes {r : JRec} {q : List JRec} {s : State} (hq : s.jrn.queueM = r :: q) (hx : xlinkCarries s = true)
    (hh : s.jrn.holdup = false) (hf : s.jrn.queueF.length < 64) (hr : s.jrn.toReport = 0) :
    journalSend s = xsend .f 0x08 (recBytes r 0)
      { s with jrn := { s.jrn with queueM := q, queueF := s.jrn.queueF ++ [{ r with holdup := false }] } } := by
  unfold journalSend
  rw [hq]
  dsimp only
  rw [if_neg (by simp [hx]), if_neg (by simp [hh]), if_neg (by omega)]
  have hto : toDieF r { s with jrn := { s.jrn with queueM := q } } = xsend .f 0x08 (recBytes r 0)
      { s with jrn := { s.jrn with queueM := q, queueF := s.jrn.queueF ++ [{ r with holdup := false }] } } := by
    unfold toDieF
    rw [hh]
  rw [hto, if_pos (by rw [xsend_jrn]; exact hr)]

theorem journalSend_uncarried {s : State} (hx : xlinkCarries s = false) : journalSend s = s := by
  unfold journalSend
  split
  · rfl
  · exact if_pos (by simp [hx])

/-- A record written from ERROR up makes event 100 pending (R400). -/
theorem journalWrite_pending {r : JRec} {q : List JRec} {s : State} (hq : s.jrn.queueF = r :: q) (hsev : 2 ≤ r.sev) :
    Pending (journalWrite s) 100 := by
  unfold journalWrite
  rw [hq]
  dsimp only
  refine pending_raiseIf (pending_raiseIf ?_)
  unfold raiseIf
  rw [if_pos (by simpa using hsev)]
  exact raise_sets_pending 100 _ (by decide)

theorem journalWrite_writes {r : JRec} {q : List JRec} {s : State} (hq : s.jrn.queueF = r :: q) :
    (journalWrite s).jrn.queueF = q ∧ (journalWrite s).jrn.next = s.jrn.next + 1 ∧ (journalWrite s).jrn.floor = s.jrn.floor ∧
    (tget none (journalWrite s).jrn.regB (s.jrn.next.toNat % regBSlots)).map (·.1) = some s.jrn.next.toNat ∧
    (2 ≤ r.sev → Pending (journalWrite s) 100) ∧
    (journalWrite s).jrn.regA =
      (if 2 ≤ r.sev && s.jrn.regA.length < 4096 then s.jrn.regA ++ [{ r with inA := true }] else s.jrn.regA) := by
  obtain ⟨w, hw⟩ := journalWrite_jrn s r q hq
  rw [hw]
  refine ⟨rfl, rfl, rfl, ?_, journalWrite_pending hq, ?_⟩
  · unfold ctlWrite
    rw [tget_tset, if_pos rfl]
    rfl
  · refine ite_congr rfl (fun hA => ?_) (fun _ => rfl)
    rw [hA]

theorem journalWrite_idle {s : State} (hq : s.jrn.queueF = []) : journalWrite s = s := by
  unfold journalWrite
  rw [hq]

/-- Once die F has written its queue it writes JRN/HOLDUP_DONE, and the hold-up ends (R402). -/
theorem holdupDone_ends {s : State} (hh : s.jrn.holdup = true) (ho : s.jrn.holdupOpen = false) (he : s.jrn.holdupEnding = false)
    (hq : s.jrn.queueF = []) : (holdupDone s).jrn.holdupEnding = true ∧ (holdupDone s).jrn.holdup = s.dev.pfail ∧
      (holdupDone s).jrn.next = s.jrn.next + 1 ∧ (holdupDone s).jrn.queueF = [] := by
  unfold holdupDone
  rw [if_pos (by simp [hh, ho, he, hq])]
  extract_lets s1
  obtain ⟨hqueue, hnext, -⟩ := journalWrite_writes (s := journalF 0x14 0x04 0 noObj 0
    (fields [(4, s.jrn.holdupWritten), (4, s.jrn.holdupUnsent)]) s) (congrArg (· ++ [_]) hq)
  exact ⟨rfl, rfl, hnext, hqueue⟩

/-- Too little capacitance is recorded and makes event 103 pending (R403). -/
theorem holdupCheck_low {c : BitVec 16} {s : State} (h : c.toNat < s.jrn.cReq.toNat) :
    (holdupCheck c s).jrn.cMeas = c ∧ (holdupCheck c s).jrn.holdupLow = true ∧ Pending (holdupCheck c s) 103 := by
  unfold holdupCheck
  rw [if_pos h, raise_jrn]
  exact ⟨rfl, rfl, raise_sets_pending 103 _ (by decide)⟩

/-- An erase ends without a change of region A, the number or the floor (R405). -/
theorem eraseDone_ends {a b : Nat} {s : State} (h : s.jrn.erasing = some (a, b)) :
    (eraseDone s).jrn.erasing = none ∧ (eraseDone s).jrn.regA = s.jrn.regA ∧ (eraseDone s).jrn.next = s.jrn.next ∧
    (eraseDone s).jrn.floor = s.jrn.floor ∧ { eraseDone s with jrn := s.jrn } = s := by
  unfold eraseDone
  rw [h]
  exact ⟨rfl, rfl, rfl, rfl, rfl⟩

/-- Settles O60, a clause for each row. That a record passes to die F with SEQ 0 is log entry 44 of the model. -/
theorem journalRows : Obligations.JournalRows := by
  intro s
  refine ⟨?_, ?_, ?_, ?_, ?_, ?_, ?_, ?_, ?_⟩
  · exact fun r q hq hx hh hf hr => congrArg Host.Outcome.next (journalSend_passes hq hx hh hf hr)
  · exact fun hx => congrArg Host.Outcome.next (journalSend_uncarried hx)
  · exact fun r q hq => ⟨_, rfl, journalWrite_writes hq⟩
  · exact fun hq => congrArg Host.Outcome.next (journalWrite_idle hq)
  · exact fun hh ho => congrArg Host.Outcome.next (if_pos (by simp [hh, ho]))
  · exact fun hh ho he hq => ⟨_, rfl, holdupDone_ends hh ho he hq⟩
  · exact fun c hc => congrArg Host.Outcome.next (if_neg (by show ¬c.toNat < s.jrn.cReq.toNat; omega))
  · exact fun c hc => ⟨_, rfl, holdupCheck_low hc⟩
  · exact fun a b h => ⟨_, rfl, eraseDone_ends h⟩

end Sys2Proof.Machine

namespace Sys2Proof.Machine

/-! The peloton rows (R307 to R318). -/

theorem isRef_follower {s : State} (h : s.pel.isRef = false) (hs : s.pel.state = 1 ∨ s.pel.state = 2) : isRef s = false := by
  unfold isRef
  rw [if_pos (by simpa using hs)]
  exact h

/-- A frame with a bad FCS changes nothing. -/
theorem peloton_badFcs {f : List Byte} (s : State) (hf : fcsOk f = false) (port : LinePort) (rx : Nat) :
    pelotonSync port rx f s = s ∧ pelDelayReq port rx f s = s ∧ pelEnum port f s = s ∧ pelConfig f s = s :=
  ⟨if_pos (by simp [hf]), if_pos (by simp [hf]), if_pos (by simp [hf]), if_pos (by simp [hf])⟩

/-- Out of a peloton a SYNC frame only notes when a reference was heard (R320). -/
theorem pelotonSync_noted {port : LinePort} {rx : Nat} {f : List Byte} {s : State} (hf : fcsOk f = true)
    (hk : u8 ((payload f).drop 32) 0 = 1) (hs : s.pel.state = 0 ∨ s.pel.state = 3) :
    pelotonSync port rx f s = modPel (fun p => { p with heardAt := now s + 1 }) s :=
  (if_neg (by simp [hf, hk])).trans (if_pos (by simpa using hs))

/-- The neighbour's ASYM_UP is noted for the link of a line port (R311). -/
def asymNoted (port : LinePort) (asym : Int) (s : State) : State :=
  modPel (fun p => if port = .up then { p with up := { p.up with peerAsym := asym } }
    else { p with down := { p.down with peerAsym := asym } }) s

theorem asymNoted_left (port : LinePort) (asym : Int) (s : State) :
    (if port = .up then (asymNoted port asym s).pel.up.peerAsym else (asymNoted port asym s).pel.down.peerAsym) = asym ∧
    (asymNoted port asym s).pel.state = s.pel.state ∧ (asymNoted port asym s).time = s.time := by
  cases port <;> exact ⟨rfl, rfl, rfl⟩

/-- DELAY_REQ notes the neighbour's ASYM_UP and is answered (R311). -/
theorem pelDelayReq_notes {port : LinePort} {rx : Nat} {f : List Byte} {s : State} (hf : fcsOk f = true)
    (hk : u8 ((payload f).drop 32) 0 = 2) (h0 : s.pel.state ≠ 0) (h3 : s.pel.state ≠ 3) :
    (if port = .up then (pelDelayReq port rx f s).pel.up.peerAsym else (pelDelayReq port rx f s).pel.down.peerAsym)
      = signedOf 32 (be ((payload f).drop 32) 56 8) ∧
    (pelDelayReq port rx f s).pel.state = s.pel.state ∧ (pelDelayReq port rx f s).time = s.time := by
  have hnotes := asymNoted_left port (signedOf 32 (be ((payload f).drop 32) 56 8)) s
  generalize hu : asymNoted port (signedOf 32 (be ((payload f).drop 32) 56 8)) s = u at hnotes
  have hreq : pelDelayReq port rx f s = pelSend (port = .up) 3 (now u) u.pel.members.toNat 0 rx u := by
    rw [← hu]
    exact if_neg (by simp [hf, hk, h0, h3])
  rw [hreq, pelSend_pel, pelSend_time]
  exact hnotes

theorem driftFires_pel (bit code : Nat) (s : State) : (driftFires bit code s).pel =
    { s.pel with cause := s.pel.cause ||| BitVec.twoPow 8 bit, driftEvents := s.pel.driftEvents + 1 } := journal_pel _ _ _ _ _ _ _

/-- A measurement of a link is taken: the link's delay, whether it was rejected, and whether the mean jumped (R311). -/
def delayTaken (port : LinePort) (m : LinkDelay × Bool × Bool) (s : State) : State :=
  let s1 := modPel (fun p => { (if port = .up then { p with up := m.1 } else { p with down := m.1 }) with
    measures := p.measures + 1, delayRejects := if m.2.1 then p.delayRejects + 1 else p.delayRejects }) s
  if m.2.2 then driftFires 4 0x05 s1 else s1

theorem delayTaken_left (port : LinePort) (m : LinkDelay × Bool × Bool) (s : State) :
    (delayTaken port m s).pel.measures = s.pel.measures + 1 ∧ (delayTaken port m s).pel.state = s.pel.state := by
  unfold delayTaken
  extract_lets s1
  have h1 : s1.pel.measures = s.pel.measures + 1 ∧ s1.pel.state = s.pel.state := by
    unfold s1
    cases port <;> exact ⟨rfl, rfl⟩
  split
  · rw [driftFires_pel]
    exact h1
  · exact h1

/-- DELAY_RESP completes a measurement (R311). -/
theorem pelDelayResp_measures {port : LinePort} {t1 t4 : Nat} {f : List Byte} {s : State} (hf : fcsOk f = true)
    (hk : u8 ((payload f).drop 32) 0 = 3) (h0 : s.pel.state ≠ 0) (h3 : s.pel.state ≠ 3) :
    (pelDelayResp port t1 t4 f s).pel.measures = s.pel.measures + 1 ∧ (pelDelayResp port t1 t4 f s).pel.state = s.pel.state := by
  obtain ⟨m, hresp⟩ : ∃ m, pelDelayResp port t1 t4 f s = (let u := delayTaken port m s
      if u.pel.state = 1 && !u.pel.isRef && !u.pel.tookTime && u.pel.measures < 16 then delayReq (port = .up) u else u) :=
    ⟨_, if_neg (by simp [hf, hk, h0, h3])⟩
  have hleft := delayTaken_left port m s
  rw [hresp]
  extract_lets u
  split
  · unfold delayReq
    rw [pelSend_pel]
    exact hleft
  · exact hleft

/-- An ENUM of another STRAP fails a follower's start with reason 7 (R308). -/
theorem pelEnum_strapFails {port : LinePort} {f : List Byte} {s : State} (hf : fcsOk f = true) (hk : u8 ((payload f).drop 32) 0 = 4)
    (hs : s.pel.state = 1) (hr : s.pel.isRef = false) (hstrap : bitOf (u8 ((payload f).drop 32) 3) 3 ≠ s.pel.strap) :
    (pelEnum port f s).pel.state = 3 ∧ (pelEnum port f s).pel.reason = 7 := by
  unfold pelEnum
  extract_lets b count members
  rw [if_neg (by simp [b, hf, hk]), if_neg (by simp [hs]), if_neg (by simp [hr]), if_pos hstrap, startDone_pel]
  exact ⟨rfl, rfl⟩

/-- The address that an ENUM gives a follower: its strap, or the next one (R307). -/
def enumAddr (s : State) (count : Nat) : Nat := if s.pel.strap then s.dev.stnaddr.toNat else count + 1

theorem addrFault_free {a m : Nat} (h : m < 2 ^ a) : addrFault a m = 0 := by
  unfold addrFault bitOf
  rw [Nat.div_eq_of_lt h]
  rfl

/-- An ENUM from up the line gives the follower its address, where none before it took one as high (R307). -/
theorem pelEnum_addresses {f : List Byte} {s : State} (hf : fcsOk f = true) (hk : u8 ((payload f).drop 32) 0 = 4)
    (hs : s.pel.state = 1) (hr : s.pel.isRef = false) (hstrap : bitOf (u8 ((payload f).drop 32) 3) 3 = s.pel.strap)
    (ht : timingDiffers s ((payload f).drop 32) = false) (hc : u8 ((payload f).drop 32) 55 < 31)
    (hm : be ((payload f).drop 32) 28 4 < 2 ^ enumAddr s (u8 ((payload f).drop 32) 55)) :
    (pelEnum .up f s).pel = { s.pel with addr := enumAddr s (u8 ((payload f).drop 32) 55), addrKnown := true } := by
  unfold pelEnum
  extract_lets b count members a flt s1
  have hfree : flt = 0 := addrFault_free hm
  rw [if_neg (by simp [b, hf, hk]), if_neg (by simp [hs]), if_neg (by simp [hr]), if_neg (by simp [b, hstrap]), if_neg (by simp [b, ht])]
  dsimp only
  rw [if_neg (by simp only [count, b]; omega), if_neg (not_not_intro hfree), pelSend_pel]
  rfl

/-- A CONFIG of the follower's own timing brings the members (R309). -/
theorem pelConfig_members {f : List Byte} {s : State} (hf : fcsOk f = true) (hk : u8 ((payload f).drop 32) 0 = 5) (hs : s.pel.state = 1)
    (hr : s.pel.isRef = false) (ht : timingDiffers s ((payload f).drop 32) = false) (he : s.pel.expect = 0) :
    (pelConfig f s).pel.members = BitVec.ofNat 32 (be ((payload f).drop 32) 28 4) ∧ (pelConfig f s).pel.state = 1 := by
  unfold pelConfig
  extract_lets b m s1
  rw [if_neg (by simp [b, hf, hk, hs, hr]), if_neg (by simp [b, ht]), if_neg (by simp [he]), pelSend_pel]
  exact ⟨rfl, hs⟩

theorem pelStartTimeout_fails {s : State} (hs : s.pel.state = 1) (hr : s.pel.isRef = true) :
    (pelStartTimeout s).pel.state = 3 ∧ (pelStartTimeout s).pel.reason = 1 ∧ (pelStartTimeout s).pel.started = none := by
  unfold pelStartTimeout
  rw [if_pos (by simp [hs, hr]), startDone_pel]
  exact ⟨rfl, rfl, rfl⟩

/-- Alignment gained: PEL_SYNC is set, and a follower's start completes (R310, R314). -/
theorem pelSyncSet_sets {s : State} (hr : isRef s = false) (hn : s.pel.sync = false) (hg : 64 ≤ s.pel.goodRun) (hs : sendsSync s = true) :
    (pelSyncSet s).pel.sync = true ∧ (s.pel.state = 1 → (pelSyncSet s).pel.state = 2 ∧ (pelSyncSet s).pel.started = none) := by
  unfold pelSyncSet
  extract_lets s1
  rw [if_neg (by simp [hr, hn, hs]; omega)]
  have hstate : s1.pel.state = s.pel.state := rfl
  by_cases h1 : s.pel.state = 1
  · rw [if_pos (hstate.trans h1), startDone_pel]
    exact ⟨rfl, fun _ => ⟨rfl, rfl⟩⟩
  · rw [if_neg (hstate ▸ h1)]
    exact ⟨rfl, fun h => absurd h h1⟩

theorem pelSyncLost_loses {s : State} (hr : isRef s = false) (hn : s.pel.sync = true) (hl : 2 ≤ s.pel.badRun ∨ 4 ≤ silent s) :
    (pelSyncLost s).pel.sync = false ∧ (pelSyncLost s).pel.syncLosses = s.pel.syncLosses + 1 ∧ Pending (pelSyncLost s) 40 := by
  unfold pelSyncLost
  rw [if_neg (by simp [hr, hn]; omega), raise_pel, journal_pel]
  exact ⟨rfl, rfl, raise_sets_pending 40 _ (by decide)⟩

theorem becomeRef_pel (s : State) : (becomeRef s).pel = { s.pel with
    isRef := true, refGen := s.pel.refGen + 1, refAge := 0, sync := true, lastRefChange := s.time.long
    cause := s.pel.cause ||| 2#8, theta := 0, thetaNew := false } := by
  unfold becomeRef
  rw [raise_pel, journal_pel]
  rfl

theorem pelSyncFrames_left (s : State) : (pelSyncFrames s).pel = s.pel ∧ (pelSyncFrames s).evt = s.evt := by
  unfold pelSyncFrames
  exact ⟨by rw [pelSend_pel, pelSend_pel], by rw [pelSend_evt, pelSend_evt]⟩

theorem enterHoldover_pel (s : State) : (enterHoldover s).pel = s.pel := (raise_pel _ _).trans (journal_pel _ _ _ _ _ _ _)

theorem enterHoldover_pending {s : State} {e : Nat} (h : Pending s e) : Pending (enterHoldover s) e :=
  pending_raise 43 e _ (pending_congr (journal_evt _ _ _ _ _ _ _) h)

/-- SILENT at 4·k makes the member of rank k the reference (R318). -/
theorem pelTakeover_takes {s : State} (hs : s.pel.state = 2) (hr : isRef s = false) (hk : 4 * rankOf s ≤ silent s) :
    (pelTakeover s).pel.isRef = true ∧ (pelTakeover s).pel.takeovers = s.pel.takeovers + 1 ∧ Pending (pelTakeover s) 41 := by
  unfold pelTakeover
  rw [if_neg (by simp [hs, hr]; omega)]
  extract_lets gm s1
  have h1 : s1.pel.isRef = true ∧ s1.pel.takeovers = s.pel.takeovers + 1 ∧ Pending s1 41 := by
    unfold s1
    rw [becomeRef_pel]
    exact ⟨rfl, rfl, raise_sets_pending 41 _ (by decide)⟩
  clear_value s1
  obtain ⟨href, htaken, hpend⟩ := h1
  obtain ⟨hpel, hevt⟩ := pelSyncFrames_left (if gm then enterHoldover s1 else s1)
  have h2 : (if gm then enterHoldover s1 else s1).pel = s1.pel ∧ Pending (if gm then enterHoldover s1 else s1) 41 := by
    split
    · exact ⟨enterHoldover_pel s1, enterHoldover_pending hpend⟩
    · exact ⟨rfl, hpend⟩
  rw [hpel, h2.1]
  exact ⟨href, htaken, pending_congr hevt h2.2⟩

theorem plantStep_left (d : Int) (epoch : BitVec 16) (s : State) :
    (plantStep d epoch s).pel = s.pel ∧ (plantStep d epoch s).time.epoch = epoch := by
  unfold plantStep
  extract_lets old new s1
  rw [raise_pel, journal_pel, raise_time, journal_time]
  exact ⟨rfl, rfl⟩

/-- An announced plant step takes effect on a follower and the announcement is over (R316). -/
theorem announcementApply_steps {s : State} (hk : s.pel.ann.kind = 2) (hs : s.pel.state = 2) (hr : s.pel.isRef = false)
    (hc : s.cad.started = false ∨ s.pel.ann.at' ≤ s.cad.start + s.cad.ns) :
    (announcementApply s).pel.ann = {} ∧ (announcementApply s).time.epoch = BitVec.ofNat 16 s.pel.ann.epoch := by
  unfold announcementApply
  extract_lets a s1 src s2
  have hwait : ¬((a.kind = 0 || (s.cad.started && s.cad.start + s.cad.ns < a.at')) = true) := by
    rcases hc with h | h
    · simp [a, hk, h]
    · simp only [a, hk]
      simp
      omega
  have h1 : s1.pel = { s.pel with ann := {} } := by
    unfold s1
    exact congrArg (fun p : PelSt => { p with ann := {} }) (advanceTo_pel _ _)
  have h2 : s2 = plantStep a.value (BitVec.ofNat 16 a.epoch) s1 := (if_neg (by simp [a, hk])).trans (if_pos hk)
  obtain ⟨hpel, hepoch⟩ := plantStep_left a.value (BitVec.ofNat 16 a.epoch) s1
  have hfollows : isRef s2 = false := isRef_follower (by rw [h2, hpel, h1]; exact hr) (.inr (by rw [h2, hpel, h1]; exact hs))
  rw [if_neg hwait, if_neg (by simp [hfollows]), h2, hpel, h1]
  exact ⟨rfl, hepoch⟩

/-- What every SYNC frame in a peloton leaves: when it was heard, and whether its sender is SYNCED (R306, R309). -/
def syncHeard (f : List Byte) (s : State) : State := modPel (fun p => { p with
  heardAt := now s + 1
  syncedMembers := if bitOf (u8 ((payload f).drop 32) 3) 0 then p.syncedMembers ||| BitVec.twoPow 32 (u8 (payload f) 3)
    else p.syncedMembers &&& ~~~(BitVec.twoPow 32 (u8 (payload f) 3)) }) s

/-- The timing of a SYNC frame is taken over: the offset of its send time, the reference, and what it announces (R312, R313). -/
def syncTaken (port : LinePort) (rx : Nat) (b : List Byte) (s : State) : State := modPel (fun p => { p with
  sync' := syncInfo b, timingDown := port = .down, syncSeen := true
  theta := ((rx : Int) - be b 8 8) * 1000 - delayIn s (!(port = .down : Bool)), thetaNew := true, refGen := (syncInfo b).refGen
  members := BitVec.ofNat 32 (be b 28 4), ann := annInfo b }) s

/-- A SYNC frame that a member hears of the reference it follows, in its generation, from its timing link or from nearer to the
reference. -/
structure FollowedSync (port : LinePort) (f : List Byte) (s : State) : Prop where
  fcs : fcsOk f = true
  kind : u8 ((payload f).drop 32) 0 = 1
  state : s.pel.state = 2
  follower : s.pel.isRef = false
  refAddr : u8 ((payload f).drop 32) 1 = s.pel.sync'.refAddr
  refGen : (syncInfo ((payload f).drop 32)).refGen = s.pel.sync'.refGen
  nearer : decide (port = .down) = s.pel.timingDown ∨ u8 ((payload f).drop 32) 2 < s.pel.sync'.hops

theorem pelotonSync_follows {port : LinePort} {rx : Nat} {f : List Byte} {s : State} (h : FollowedSync port f s) :
    pelotonSync port rx f s = syncTaken port rx ((payload f).drop 32) (syncHeard f s) := by
  obtain ⟨hf, hk, hs, hr, haddr, hgen, hnear⟩ := h
  have hhead : headCheck (syncHeard f s) = syncHeard f s := if_neg (by simp [syncHeard, modPel, hs])
  have hfollows : isRef (syncHeard f s) = false := isRef_follower hr (.inr hs)
  unfold pelotonSync
  extract_lets fh b down x s1 d s2 th
  have h1 : s1 = syncHeard f s := hhead
  have hstate : s1.pel.state = 2 := h1 ▸ hs
  have hfollows1 : isRef s1 = false := h1 ▸ hfollows
  have hsync : s1.pel.sync' = s.pel.sync' := h1 ▸ rfl
  have hdown : s1.pel.timingDown = s.pel.timingDown := h1 ▸ rfl
  have hsame : x.refAddr = refAddr s1 := by
    unfold refAddr
    rw [hfollows1, hsync]
    exact haddr
  have h2 : s2 = s1 := if_neg (by simp [hsync, x, b, fh, hgen])
  have hnear2 : ¬((decide (down ≠ s2.pel.timingDown) && decide (s2.pel.sync'.hops ≤ x.hops)) = true) := by
    rw [h2, hsync, hdown]
    rcases hnear with h | h
    · simp [down, h]
    · simp only [Bool.and_eq_true, decide_eq_true_eq, not_and, Nat.not_le]
      exact fun _ => h
  rw [if_neg (by simp [b, fh, hf, hk]), if_neg (by simp [hs]), if_neg (by simp [hstate]), if_neg (by simp [hsame, hfollows1]),
    if_neg (by simp [hfollows1]), if_neg hnear2]
  unfold th
  rw [h2, h1]
  rfl

/-- What such a SYNC frame leaves (R312, R313). -/
theorem pelotonSync_left {port : LinePort} {rx : Nat} {f : List Byte} {s : State} (h : FollowedSync port f s) :
    (pelotonSync port rx f s).pel.theta = ((rx : Int) - be ((payload f).drop 32) 8 8) * 1000 -
      (if port = .down then s.pel.down.mean - s.pel.down.peerAsym else s.pel.up.mean + s.pel.asymUp) ∧
    (pelotonSync port rx f s).pel.thetaNew = true ∧ (pelotonSync port rx f s).pel.sync' = syncInfo ((payload f).drop 32) ∧
    (pelotonSync port rx f s).pel.timingDown = decide (port = .down) ∧
    (pelotonSync port rx f s).pel.members = BitVec.ofNat 32 (be ((payload f).drop 32) 28 4) ∧
    (pelotonSync port rx f s).pel.state = 2 ∧ (pelotonSync port rx f s).time = s.time := by
  rw [pelotonSync_follows h]
  refine ⟨?_, rfl, rfl, rfl, rfl, h.state, rfl⟩
  cases port <;> rfl

/-- Settles O55, a clause for each frame and row. -/
theorem pelotonRows : Obligations.PelotonRows := by
  intro s
  refine ⟨?_, ?_, ?_, ?_, ?_, ?_, ?_, ?_, ?_, ?_, ?_, ?_, ?_, ?_⟩
  · intro port rx f hf
    obtain ⟨hsync, hdelay, henum, hconfig⟩ := peloton_badFcs s hf port rx.toNat
    exact ⟨congrArg Host.Outcome.next hsync, congrArg Host.Outcome.next hdelay, congrArg Host.Outcome.next henum,
      congrArg Host.Outcome.next hconfig⟩
  · exact fun port rx f hf hk hs => congrArg Host.Outcome.next (pelotonSync_noted hf hk hs)
  · exact fun port rx f hf hk h0 h3 => ⟨_, rfl, pelDelayReq_notes hf hk h0 h3⟩
  · exact fun port t1 t4 f hf hk h0 h3 => ⟨_, rfl, pelDelayResp_measures hf hk h0 h3⟩
  · exact fun port f hf hk hs hr _ hstrap => ⟨_, rfl, pelEnum_strapFails hf hk hs hr hstrap⟩
  · exact fun port f hf hk hs hr ht he => ⟨_, rfl, pelConfig_members hf hk hs hr ht he⟩
  · exact fun hs hr => ⟨_, rfl, pelStartTimeout_fails hs hr⟩
  · exact fun hr hn hg hs => ⟨_, rfl, pelSyncSet_sets hr hn hg hs⟩
  · exact fun hr hn hl => ⟨_, rfl, pelSyncLost_loses hr hn hl⟩
  · exact fun hs hr hk => ⟨_, rfl, pelTakeover_takes hs hr hk⟩
  · exact fun hk => congrArg Host.Outcome.next (if_pos (by simp [hk]))
  · exact fun hk hs hr hc => ⟨_, rfl, announcementApply_steps hk hs hr hc⟩
  · exact fun port rx f hf hk hs hr ha hg hn => ⟨_, rfl, pelotonSync_left ⟨hf, hk, hs, hr, ha, hg, hn⟩⟩
  · exact fun f hf hk hs hr hstrap ht hc hm => ⟨_, rfl, pelEnum_addresses hf hk hs hr hstrap ht hc hm⟩

end Sys2Proof.Machine

namespace Sys2Proof.Machine

/-! Reset, and the occurrence of an event (R45, R59, R60). -/

theorem lget_eq_getD {α : Type} (d : α) : ∀ (l : List α) (i : Nat), lget d l i = l.getD i d
  | [], _ => rfl
  | _ :: _, 0 => rfl
  | _ :: r, i + 1 => lget_eq_getD d r i

/-- The map that reset leaves sends event e to vector e / 4 (R60). -/
theorem vectorOf_reset {e : Nat} (he : e < 128) : vectorOf State.reset e = e / 4 := by
  have hmap : State.reset.evt.map = (List.range 128).map (fun e => BitVec.ofNat 8 (e / 4)) := rfl
  have hentry : lget 0 State.reset.evt.map e = BitVec.ofNat 8 (e / 4) := by
    rw [lget_eq_getD, hmap, List.getD_eq_getElem _ _ (by simpa using he)]
    simp
  rw [vectorOf, hentry, BitVec.toNat_ofNat]
  omega

/-- Settles O3: every field is at the value that the state's defaults give it. -/
theorem resetInvariant : Obligations.ResetInvariant :=
  ⟨⟨⟨rfl, rfl, rfl, rfl⟩, hubOk_reset, evtOk_reset⟩, rfl, rfl, fun _ _ => rfl, rfl, rfl, rfl, fun _ he => vectorOf_reset he, rfl,
    fun _ => rfl, fun _ => rfl, fun _ => rfl, fun _ => rfl⟩

/-- An unmasked event that was not pending fires its vector. -/
theorem raise_fires {e : Nat} {s : State} (hmask : s.evt.mask.getLsbD e = false) (hpend : ¬Pending s e) :
    Fired (raise e s) (vectorOf s e) := by
  have hclear : s.evt.pend.getLsbD e = false := Bool.not_eq_true _ ▸ hpend
  unfold raise
  extract_lets was pend lost s1
  rw [if_pos (by simp [was, hclear, hmask])]
  exact fireVector_fired _ _ (Nat.mod_lt _ (by decide))

/-- Settles O16, from what `raise` does to the event block (`raise_evt_eq`). -/
theorem eventOccurs : Obligations.EventOccurs := by
  intro e s _
  obtain ⟨hpend, hlost, hmask, hmap⟩ := raise_evt_eq e s
  exact ⟨hpend, hlost, hmask, hmap, raise_fires⟩

end Sys2Proof.Machine

namespace Sys2Proof.Machine

/-! Refused commands (R52, R53, R56). -/

/-- The order of R53 lists each code at the place of its rank. -/
theorem idxOf_checkOrder {st : Status} (h : st.rank ≤ 18) : checkOrder.idxOf st + 1 = st.rank := by
  cases st with
  | cancelled | okAdjusted | ok => exact absurd h (by decide)
  | _ => rfl

theorem rank_of_mem_checkOrder : ∀ x ∈ checkOrder, x.rank ≤ 18 := by decide

/-- Settles O17: `firstBad` answers a condition that holds, and none that holds has a lower rank. -/
theorem refusalOrder : Obligations.RefusalOrder := by
  intro sp r s st h
  refine ⟨firstBad_mem _ _ h, fun x hx hmem => ?_⟩
  have hle := firstBad_min _ _ h _ hx
  have hrank := rank_of_mem_checkOrder x hmem
  have hst := idxOf_checkOrder (st := st) (by omega)
  have hother := idxOf_checkOrder hrank
  omega

/-- But for load, update and truncate a refused command does nothing of its own. -/
theorem refused_id {i : Instr} {sp : CmdSpec} {r : CmdRef} (hi : mailbox i = some (sp, r)) (htrace : leavesTrace i = false) (c : Cmd)
    (s t : State) (st : Status) : (sp.body c s).refused st t = t := by
  cases i with
  | devLoadImage c => cases htrace
  | devUpdateFw c => cases htrace
  | jrnTruncate c => cases htrace
  | _ => cases hi <;> rfl

/-- The path of a refused command: a counter at most, what the chapter adds, and the completion with the status. -/
theorem runCmd_refused {sp : CmdSpec} {r : CmdRef} {s : State} {st : Status} (hp : Posted sp r s) (hst : refusalOf sp r s = some st) :
    ∃ (u : State) (time state : Nat) (res : List Byte), Quiet s u ∧
      runCmd sp r s = complete r.mb r.slot st time state res ((sp.body (cmdOf sp r s) s).refused st u) := by
  obtain ⟨htake, hop⟩ := hp
  have hbad : firstBad (commonBad sp (cmdOf sp r s) (sp.kind (cmdOf sp r s).h (cmdOf sp r s).p s) s ++ (sp.body (cmdOf sp r s) s).bad)
    = some st := hst
  unfold runCmd
  rw [if_pos (by simp [htake, hop])]
  unfold admitCmd
  extract_lets k pl s1
  simp only [pl, k, hbad]
  refine ⟨s1, _, _, _, ?_, rfl⟩
  exact iteInduction (fun _ => count_quiet _ _ _) (fun _ => .refl s)

/-- A command that SUP does not take, or whose buffer holds another opcode, does nothing. -/
theorem runCmd_not_posted {sp : CmdSpec} {r : CmdRef} {s : State} (h : ¬Posted sp r s) : runCmd sp r s = s := by
  unfold runCmd
  exact if_neg (by simpa [Posted] using h)

/-- A mailbox-0-only command of mailboxes 1 to 7 meets the condition of NOT_PRIVILEGED (R56). -/
theorem notPrivileged_mem_commonBad {sp : CmdSpec} {c : Cmd} {k : Kind} {s : State} (hpriv : sp.priv = true) (hmb : c.mb ≠ 0)
    (himage : c.mb ≠ imageMb) : (true, Status.notPrivileged) ∈ commonBad sp c k s := by
  simp [commonBad, hpriv, hmb, himage]

/-- The codes that are checked no later than NOT_PRIVILEGED. -/
theorem mem_of_rank_le_five {st : Status} (h : st.rank ≤ 5) :
    st ∈ [Status.deviceFault, .kickstand, .badOpcode, .badLength, .notPrivileged] := by
  cases st with
  | deviceFault | kickstand | badOpcode | badLength | notPrivileged => decide
  | _ => exact absurd h (by decide)

theorem refusalOf_not_privileged {sp : CmdSpec} {r : CmdRef} {s : State} (hpriv : sp.priv = true) (hmb : r.mb ≠ 0) :
    ∃ st ∈ [Status.deviceFault, .kickstand, .badOpcode, .badLength, .notPrivileged], refusalOf sp r s = some st := by
  have hmem : (true, Status.notPrivileged) ∈ commonBad sp (cmdOf sp r s) (sp.kind (cmdOf sp r s).h (cmdOf sp r s).p s) s ++
      (sp.body (cmdOf sp r s) s).bad :=
    List.mem_append_left _ (notPrivileged_mem_commonBad hpriv (fun h => hmb (Fin.ext h)) (mailbox_ne_image r))
  cases h : refusalOf sp r s with
  | none => exact absurd hmem (firstBad_none _ h _)
  | some st => exact ⟨st, mem_of_rank_le_five (firstBad_min _ _ h _ hmem), rfl⟩

/-- Settles O18. What the completion shows is `refused_completes`; that nothing else differs follows from the path of a refusal. -/
theorem refusedCommands : Obligations.RefusedCommands := by
  intro i sp r s hi
  have hexec := exec_of_mailbox hi s
  refine ⟨fun hn => hexec.trans (congrArg Host.Outcome.next (runCmd_not_posted hn)), fun st hp hst => ?_,
    fun hpriv hmb _ => refusalOf_not_privileged hpriv hmb⟩
  obtain ⟨t, ht, hdone, hstatus⟩ := refused_completes hi hp hst
  refine ⟨t, ht, hdone, hstatus, fun htrace => ?_⟩
  obtain rfl : runCmd sp r s = t := Host.Outcome.next.inj (hexec.symm.trans ht)
  obtain ⟨u, time, state, res, hu, heq⟩ := runCmd_refused hp hst
  rw [heq, refused_id hi htrace]
  exact hu.trans (complete_quiet _ _ _ _ _ _ _ (mailbox_ne_image r))

end Sys2Proof.Machine

namespace Sys2Proof.Machine

/-! The path of a completion (R40, R48), and of commands that complete without being admitted (R54, R440). -/

section
variable {m k : Nat} {st : Status} {time state : Nat} {res : List Byte} {s : State}

/-- The completion of a slot that is no longer POSTED is discarded (R40). -/
theorem complete_discarded (hm : m ≠ imageMb) (h : slotOf s m k ≠ .posted) : complete m k st time state res s = s := by
  unfold complete
  rw [if_neg hm, if_pos h]

/-- A completion changes no other slot. -/
theorem complete_other_slot (hm : m ≠ imageMb) (h : slotOf s m k = .posted) {n j : Nat} (hne : ¬(n = m ∧ j = k)) :
    slotOf (complete m k st time state res s) n j = slotOf s n j := by
  rw [complete_eq hm h]
  extract_lets s1 s3
  have hs1 : slotOf s1 n j = slotOf s n j := by
    simp only [s1]
    split <;> rfl
  have hs3 : slotOf s3 n j = slotOf s n j := (setSlot_other m k n j .done _ hne).trans hs1
  split
  · exact hs3
  · rw [raise_slotOf, hs3]

/-- The completion buffer begins with the completion header. -/
theorem complete_header (hm : m ≠ imageMb) (h : slotOf s m k = .posted) :
    mread (complete m k st time state res s).host.bar2 (cplBuf m k) 32 = cplBytes (hdrOf s m k) st time state res s := by
  obtain ⟨m0, hbar2, -⟩ := complete_bar2 (st := st) (time := time) (state := state) (res := res) hm h
  have hself := mread_mwrite_self (cplBytes (hdrOf s m k) st time state res s) m0 (cplBuf m k)
  rwa [cplBytes_length, ← hbar2] at hself

/-- An inline result stands behind the header. -/
theorem complete_result (hm : m ≠ imageMb) (h : slotOf s m k = .posted) (hin : ¬((hdrOf s m k).indResult = true ∧ res ≠ [])) :
    mread (complete m k st time state res s).host.bar2 (cplBuf m k + 32) (res.take 992).length = res.take 992 := by
  obtain ⟨m0, hbar2, hm0⟩ := complete_bar2 (st := st) (time := time) (state := state) (res := res) hm h
  rw [hbar2, hm0 (by simpa using hin)]
  refine Eq.trans (mread_congr (fun x h1 h2 => ?_)) (mread_mwrite_self (res.take 992) s.host.bar2 (cplBuf m k + 32))
  rw [mget_mwrite, if_neg (by rw [cplBytes_length]; omega)]

/-- Event m becomes pending unless NO_EVENT is set. -/
theorem complete_pending (hm : m < 8) (h : slotOf s m k = .posted) (hev : (hdrOf s m k).noEvent = false) :
    Pending (complete m k st time state res s) m := by
  rw [complete_eq (by unfold imageMb; omega) h]
  simp only [hev, Bool.false_eq_true, if_false]
  exact raise_sets_pending m _ (by omega)

theorem complete_no_event (hm : m ≠ imageMb) (h : slotOf s m k = .posted) (hev : (hdrOf s m k).noEvent = true) :
    (complete m k st time state res s).evt = s.evt := by
  rw [complete_eq hm h]
  simp only [hev, if_true]
  split <;> rfl

end

/-- Settles O20, a clause for each part of the path. -/
theorem completionPath : Obligations.CompletionPath := by
  intro m k st time state res s
  have hm : (m : Nat) ≠ imageMb := mailbox_ne_image ⟨m, k, []⟩
  exact ⟨complete_discarded hm, fun h => ⟨complete_done hm h, fun _ _ => complete_other_slot hm h, complete_header hm h,
    complete_result hm h, complete_pending m.isLt h, complete_no_event hm h, complete_quiet _ _ _ _ _ _ _ hm⟩⟩

/-- The completion of a POSTED slot: the slot is DONE with the status, and nothing but the completion differs. -/
theorem complete_posted_quiet {r : CmdRef} {st : Status} {time state : Nat} {res : List Byte} {u : State}
    (h : slotOf u r.mb r.slot = .posted) : slotOf (complete r.mb r.slot st time state res u) r.mb r.slot = .done ∧
      statusAt (complete r.mb r.slot st time state res u) r = st.code ∧ Quiet u (complete r.mb r.slot st time state res u) :=
  ⟨complete_done (mailbox_ne_image r) h, complete_statusAt h, complete_quiet _ _ _ _ _ _ _ (mailbox_ne_image r)⟩

theorem badOpcode_completes {r : CmdRef} {s : State} (htake : supTakes s r.mb r.slot = true)
    (hnone : specOf (hdrOf s r.mb r.slot).opcode = none) (hfault : s.dev.mode ≠ .fault) (hkick : s.dev.mode ≠ .kickstand) :
    badOpcode r s = complete r.mb r.slot .badOpcode 0 0xFFFFFFFF [] s := by
  unfold badOpcode
  rw [if_neg (by simp [htake, hnone])]
  simp only [if_neg hfault, if_neg hkick]

theorem noCredit_completes {m k : Nat} {s : State} (hslot : slotOf s m k = .posted) (hbell : bellOf s m k ≠ 0)
    (hpool : poolFree s 4 = 0) :
    noCredit m k s = complete m k .noCredit 0 0xFFFFFFFF [] (advanceTo (bellOf s m k - 1 + 50000) s) :=
  if_pos (by simp [hslot, hbell, hpool])

theorem noCredit_waits {m k : Nat} {s : State} (h : bellOf s m k = 0 ∨ poolFree s 4 ≠ 0) : noCredit m k s = s := by
  refine if_neg ?_
  simp only [Bool.and_eq_true, decide_eq_true_eq, not_and]
  rintro ⟨-, hbell⟩ hpool
  exact h.elim hbell (· hpool)

/-- Settles O50: each row completes the slot at once, or changes nothing. -/
theorem unknownOpcodes : Obligations.UnknownOpcodes := by
  intro r s
  refine ⟨fun htake hnone hfault hkick => ⟨_, rfl, ?_⟩, fun hslot hbell hpool => ⟨_, rfl, ?_⟩,
    fun h => congrArg Host.Outcome.next (noCredit_waits h)⟩
  · rw [badOpcode_completes htake hnone hfault hkick]
    exact complete_posted_quiet (supTakes_posted htake)
  · rw [noCredit_completes hslot hbell hpool]
    exact complete_posted_quiet (by rw [slotOf_congr _ _ (advanceTo_host _ s)]; exact hslot)

end Sys2Proof.Machine

namespace Sys2Proof.Machine

/-! The registers of a mailbox and its command buffers (R45 to R48). -/

/-- What each step of a run over a list keeps, the whole run keeps. -/
theorem foldl_keeps {α β : Type} (p : State → β) {f : State → α → State} (h : ∀ t x, p (f t x) = p t) (l : List α) (s : State) :
    p (l.foldl f s) = p s := by
  induction l generalizing s with
  | nil => rfl
  | cons x r ih => exact (ih _).trans (h s x)

/-- Replacing a mailbox replaces its slots and no others. -/
theorem slotOf_setMb (m : Nat) (b : Mailbox) (s : State) (n j : Nat) :
    slotOf (setMb m b s) n j = if n = m then tget .free b.slots j else slotOf s n j := by
  unfold slotOf
  rw [mbOf_setMb]
  split <;> rfl

/-- A mailbox replaced by one with the same slots: no slot differs. -/
theorem slotOf_setMb_same {m : Nat} {b : Mailbox} {s : State} (h : b.slots = (mbOf s m).slots) (n j : Nat) :
    slotOf (setMb m b s) n j = slotOf s n j := by
  rw [slotOf_setMb, h]
  split
  · next hn => rw [hn, slotOf]
  · rfl

section
variable {m : Nat} {w : Word} {s : State}

theorem doorbell_idle (h : s.dev.mbReady = false ∨ 32 ≤ w.toNat) : doorbell m w s = s := by
  unfold doorbell
  exact if_pos (by simpa using h)

theorem doorbell_posts (hready : s.dev.mbReady = true) (hlt : w.toNat < 32) (hfree : slotOf s m w.toNat = .free) :
    doorbell m w s = count 0 0x0101 (setMb m { mbOf (setSlot m w.toNat .posted s) m with
      bells := tset 0 (mbOf (setSlot m w.toNat .posted s) m).bells w.toNat (now s + 1) } (setSlot m w.toNat .posted s)) := by
  unfold doorbell
  rw [if_neg (by simp [hready, hlt])]
  exact if_pos hfree

theorem doorbell_overruns (hready : s.dev.mbReady = true) (hlt : w.toNat < 32) (hbusy : slotOf s m w.toNat ≠ .free) :
    doorbell m w s = count 0 0x0102 (setMb m { mbOf s m with
      overrun := true, lastOverrun := BitVec.ofNat 5 w.toNat, overrunCount := (mbOf s m).overrunCount + 1 } s) := by
  unfold doorbell
  rw [if_neg (by simp [hready, hlt])]
  exact if_neg hbusy

/-- After the doorbell of a FREE slot that slot is POSTED and every other slot as it was. -/
theorem doorbell_slots (hready : s.dev.mbReady = true) (hlt : w.toNat < 32) (hfree : slotOf s m w.toNat = .free) (n j : Nat) :
    slotOf (doorbell m w s) n j = if n = m ∧ j = w.toNat then .posted else slotOf s n j := by
  rw [doorbell_posts hready hlt hfree]
  rw [slotOf_congr n j (count_host _ _ _)]
  refine (slotOf_setMb_same (m := m) (s := setSlot m w.toNat .posted s) (by rfl) n j).trans ?_
  split
  · next h =>
    obtain ⟨rfl, rfl⟩ := h
    exact setSlot_same _ _ _ s
  · next h => exact setSlot_other _ _ _ _ _ s h

/-- A write of MB_DONE frees the DONE slots that it names and no other (R48). -/
theorem mbDoneWrite_slots (n j : Nat) : slotOf (mbDoneWrite m w s) n j =
    if n = m ∧ j < 32 ∧ w.getLsbD j = true ∧ slotOf s n j = .done then .free else slotOf s n j := by
  have hfold : ∀ (l : List Nat) (s : State),
      slotOf (l.foldl (fun t k => if slotOf t m k = .done then setSlot m k .free t else t) s) n j =
        if n = m ∧ j ∈ l ∧ slotOf s n j = .done then .free else slotOf s n j := by
    intro l
    induction l with
    | nil => intro s; simp
    | cons k r ih =>
      intro s
      rw [List.foldl_cons, ih]
      by_cases hk : n = m ∧ j = k
      · obtain ⟨rfl, rfl⟩ := hk
        by_cases hdone : slotOf s n j = .done <;> simp [hdone, setSlot_same]
      · have hstep : slotOf (if slotOf s m k = .done then setSlot m k .free s else s) n j = slotOf s n j := by
          split
          · exact setSlot_other m k n j .free s hk
          · rfl
        rw [hstep]
        have hmem : (n = m ∧ j ∈ k :: r) ↔ (n = m ∧ j ∈ r) := by
          rw [List.mem_cons]
          exact ⟨fun ⟨hn, hj⟩ => ⟨hn, hj.resolve_left (fun h => hk ⟨hn, h⟩)⟩, fun ⟨hn, hj⟩ => ⟨hn, .inr hj⟩⟩
        simp only [← and_assoc, hmem]
  refine (hfold (wordBits w) s).trans ?_
  simp only [wordBits, List.mem_filter, List.mem_range, and_assoc]

/-- A write of MB_DONE changes the mailbox only. -/
theorem mbDoneWrite_frame : (mbDoneWrite m w s).host.bar2 = s.host.bar2 ∧ (mbDoneWrite m w s).evt = s.evt ∧
    { mbDoneWrite m w s with host := s.host, hub := s.hub } = { s with host := s.host, hub := s.hub } := by
  refine ⟨foldl_keeps (fun t => t.host.bar2) (fun t k => ?_) _ s, foldl_keeps State.evt (fun t k => ?_) _ s,
    foldl_keeps (fun t : State => { t with host := s.host, hub := s.hub }) (fun t k => ?_) _ s⟩ <;> (split <;> rfl)

theorem bar2Live_modes (h : bar2Live s = true) : s.dev.mode ≠ .reset ∧ stagingMapped s = false := by
  simp only [bar2Live, Bool.and_eq_true, decide_eq_true_eq] at h
  exact ⟨h.1, by simp [stagingMapped, h.2]⟩

end

section
variable {m : Fin 8} {k : Fin 32} {o : Nat} {b : List Byte} {s : State}

/-- The mailbox and the slot in whose command buffer an offset of BAR2 lies. -/
theorem cmdBuf_mailbox (ho : o < 4096) : (cmdBuf m k + o) / 0x20000 = m ∧ (cmdBuf m k + o) / 0x1000 % 32 = k := by
  have := m.isLt
  have := k.isLt
  unfold cmdBuf
  omega

theorem cmdBuf_lt (ho : o < 4096) : cmdBuf m k + o < 0x100000 := by
  have := m.isLt
  have := k.isLt
  unfold cmdBuf
  omega

/-- The bytes of a command buffer are writable exactly where its slot is not POSTED (R47). -/
theorem bar2Writable_cmdBuf (hlive : bar2Live s = true) (ho : o < 4096) :
    bar2Writable s (cmdBuf m k + o) = decide (slotOf s m k ≠ .posted) := by
  obtain ⟨hm, hk⟩ := cmdBuf_mailbox (m := m) (k := k) ho
  unfold bar2Writable
  rw [if_neg (by simp [hlive]), if_pos (cmdBuf_lt ho), hm, hk]

theorem bar2HostWrite_stores (hlive : bar2Live s = true) (hlen : o + b.length ≤ 4096) (hslot : slotOf s m k ≠ .posted) :
    bar2HostWrite (cmdBuf m k + o) b s = bar2Write (cmdBuf m k + o) b s := by
  obtain ⟨hmode, hstaging⟩ := bar2Live_modes hlive
  unfold bar2HostWrite
  rw [if_neg hmode, if_neg (by simp [hstaging]), if_pos]
  refine List.all_eq_true.2 (fun i hi => ?_)
  have hi := List.mem_range.1 hi
  rw [Nat.add_assoc, bar2Writable_cmdBuf hlive (by omega)]
  exact decide_eq_true hslot

/-- A write into the command buffer of a POSTED slot is dropped, counted, and shown in MB_STAT (R47). -/
theorem bar2HostWrite_violates (hlive : bar2Live s = true) (hlen : o + b.length ≤ 4096) (hb : b ≠ [])
    (hslot : slotOf s m k = .posted) :
    bar2HostWrite (cmdBuf m k + o) b s = count 0 0x0104 (count 0 0x0103 (setMb m { mbOf s m with violation := true } s)) := by
  obtain ⟨hmode, hstaging⟩ := bar2Live_modes hlive
  have hpos := List.length_pos_of_ne_nil hb
  obtain ⟨hmb, -⟩ := cmdBuf_mailbox (m := m) (k := k) (o := o) (by omega)
  unfold bar2HostWrite
  rw [if_neg hmode, if_neg (by simp [hstaging]), if_neg, if_pos (by simp [hlive, cmdBuf_lt (m := m) (k := k) (o := o) (by omega)])]
  · dsimp only
    rw [hmb]
  · intro hall
    have hfirst := List.all_eq_true.1 hall 0 (List.mem_range.2 hpos)
    rw [Nat.add_zero, bar2Writable_cmdBuf hlive (by omega)] at hfirst
    exact of_decide_eq_true hfirst hslot

/-- What such a write leaves. -/
theorem bar2HostWrite_violation (hlive : bar2Live s = true) (hlen : o + b.length ≤ 4096) (hb : b ≠ [])
    (hslot : slotOf s m k = .posted) :
    (mbOf (bar2HostWrite (cmdBuf m k + o) b s) m).violation = true ∧
    (∀ n j, slotOf (bar2HostWrite (cmdBuf m k + o) b s) n j = slotOf s n j) ∧
    (bar2HostWrite (cmdBuf m k + o) b s).host.bar2 = s.host.bar2 ∧ OnlyHost s (bar2HostWrite (cmdBuf m k + o) b s) := by
  rw [bar2HostWrite_violates hlive hlen hb hslot]
  refine ⟨?_, slotOf_setMb_same (m := m) rfl, rfl, rfl⟩
  have hmb := mbOf_setMb m m { mbOf s m with violation := true } s
  rw [if_pos rfl] at hmb
  exact congrArg Mailbox.violation hmb

end

/-- Settles O15: the doorbell replaces the three fields of MB_STAT and counts (`doorbell_overruns`). -/
theorem doorbellOverrun : Obligations.DoorbellOverrun := by
  intro m w s hready hlt hbusy
  refine ⟨doorbell m w s, rfl, ?_⟩
  rw [doorbell_overruns hready hlt hbusy]
  have hmb := mbOf_setMb m m { mbOf s m with
    overrun := true, lastOverrun := BitVec.ofNat 5 w.toNat, overrunCount := (mbOf s m).overrunCount + 1 } s
  rw [if_pos rfl] at hmb
  refine ⟨slotOf_setMb_same (m := m) rfl, rfl, rfl, congrArg Mailbox.overrun hmb, ?_, congrArg Mailbox.overrunCount hmb⟩
  refine (congrArg (fun b : Mailbox => b.lastOverrun.toNat) hmb).trans ?_
  exact (BitVec.toNat_ofNat _ _).trans (Nat.mod_eq_of_lt hlt)

/-- Settles O42, a clause for each register. -/
theorem mailboxRegisters : Obligations.MailboxRegisters := by
  intro m w s
  refine ⟨fun hready hlt hfree => ⟨_, rfl, ?_⟩, fun h => congrArg Host.Outcome.next (doorbell_idle h), ⟨_, rfl, ?_⟩, rfl,
    fun k off b hlive hlen => ⟨fun hslot => congrArg Host.Outcome.next (bar2HostWrite_stores hlive hlen hslot),
      fun hslot hb => ⟨_, rfl, bar2HostWrite_violation hlive hlen hb hslot⟩⟩⟩
  · refine ⟨(doorbell_slots hready hlt hfree _ _).trans (if_pos ⟨rfl, rfl⟩),
      fun n j hne => (doorbell_slots hready hlt hfree n j).trans (if_neg hne), ?_⟩
    rw [doorbell_posts hready hlt hfree]
    refine ⟨?_, rfl, rfl⟩
    simp only [mbOf, count_host, setMb, setSlot, tget_tset, if_true]
  · obtain ⟨hbar2, -, hrest⟩ := mbDoneWrite_frame (m := m) (w := w) (s := s)
    exact ⟨mbDoneWrite_slots, hbar2, hrest⟩

end Sys2Proof.Machine

namespace Sys2Proof.Machine

/-! Writes of the event block (R59 to R61). -/

/-- The bits that a word sets when it is written into word `i` of a register of 128 bits. -/
theorem getLsbD_wordAt (w : Word) (i : Fin 4) (e : Nat) :
    ((w.setWidth 128) <<< (32 * i.val)).getLsbD e = (decide (e / 32 = i.val) && w.getLsbD (e % 32)) := by
  have := i.isLt
  rw [BitVec.getLsbD_shiftLeft, BitVec.getLsbD_setWidth]
  by_cases h : e / 32 = i.val
  · have h1 : e - 32 * i.val = e % 32 := by omega
    rw [h1]
    simp [h, show e < 128 by omega, show ¬e < 32 * i.val by omega, show e % 32 < 128 by omega]
  · by_cases hlt : e < 32 * i.val
    · simp [h, hlt]
    · rw [BitVec.getLsbD_of_ge w (e - 32 * i.val) (by omega)]
      simp [h]

theorem getLsbD_wordAt_same (w : Word) (i : Fin 4) {j : Nat} (hj : j < 32) :
    ((w.setWidth 128) <<< (32 * i.val)).getLsbD (32 * i.val + j) = w.getLsbD j := by
  rw [getLsbD_wordAt, show (32 * i.val + j) / 32 = i.val by omega, show (32 * i.val + j) % 32 = j by omega]
  simp

theorem mem_wordBits {w : Word} {j : Nat} : j ∈ wordBits w ↔ j < 32 ∧ w.getLsbD j = true := by
  simp [wordBits]

/-- One source that occurs in the tick of a write of EVT_PEND: a step of `evtPendWrite`. -/
def evtAgain (i : Nat) (w again : Word) (p0 : BitVec 128) (t : State) (j : Nat) : State :=
  if !eventSource (32 * i + j) then t
  else if ((w.setWidth 128) <<< (32 * i) : BitVec 128).getLsbD (32 * i + j) && p0.getLsbD (32 * i + j) then
    let t1 := { t with
      evt := { t.evt with pend := t.evt.pend ||| ((again.setWidth 128) <<< (32 * i) &&& BitVec.twoPow 128 (32 * i + j)) }
      trc := { t.trc with occurred := t.trc.occurred ||| BitVec.twoPow 128 (32 * i + j) } }
    if t.evt.mask.getLsbD (32 * i + j) then t1 else fireVector (vectorOf t (32 * i + j)) t1
  else raise (32 * i + j) t

/-- The event block with the bits of a write of EVT_PEND cleared. -/
def evtCleared (i : Nat) (w : Word) (s : State) : State :=
  { s with evt := { s.evt with pend := s.evt.pend &&& ~~~((w.setWidth 128) <<< (32 * i)) } }

theorem evtPendWrite_eq (i : Nat) (w again : Word) (s : State) :
    evtPendWrite i w again s = (wordBits again).foldl (evtAgain i w again s.evt.pend) (evtCleared i w s) := rfl

section
variable {i : Fin 4} {w again : Word} {p0 : BitVec 128} {t : State} {j : Nat}

/-- What a source that occurs in the tick of the write leaves: its event pending where it is no reserved one, a lost bit only where
the event was still pending, and nothing else of the event block but the messages sent (R61). -/
theorem evtAgain_evt (hj : j ∈ wordBits again) : (evtAgain i w again p0 t j).evt.mask = t.evt.mask ∧
    (evtAgain i w again p0 t j).evt.map = t.evt.map ∧
    (evtAgain i w again p0 t j).evt.pend =
      (if eventSource (32 * i.val + j) then t.evt.pend ||| BitVec.twoPow 128 (32 * i.val + j) else t.evt.pend) ∧
    ((evtAgain i w again p0 t j).evt.lost = t.evt.lost ∨ (t.evt.pend.getLsbD (32 * i.val + j) = true ∧
      (evtAgain i w again p0 t j).evt.lost = t.evt.lost ||| BitVec.twoPow 128 (32 * i.val + j))) := by
  obtain ⟨hlt, hagain⟩ := mem_wordBits.1 hj
  unfold evtAgain
  cases hsource : eventSource (32 * i.val + j) with
  | false => exact ⟨rfl, rfl, rfl, .inl rfl⟩
  | true =>
    simp only [Bool.not_true, Bool.false_eq_true, if_false, if_true]
    split
    · have hbit : ((again.setWidth 128) <<< (32 * i.val) &&& BitVec.twoPow 128 (32 * i.val + j)) = BitVec.twoPow 128 (32 * i.val + j) := by
        rw [BitVec.and_twoPow, getLsbD_wordAt_same again i hlt, hagain, if_pos rfl]
      rw [hbit]
      split
      · exact ⟨rfl, rfl, rfl, .inl rfl⟩
      · obtain ⟨hpend, hlost, hmask, hmap⟩ := fireVector_evt (vectorOf t (32 * i.val + j)) { t with
          evt := { t.evt with pend := t.evt.pend ||| BitVec.twoPow 128 (32 * i.val + j) }
          trc := { t.trc with occurred := t.trc.occurred ||| BitVec.twoPow 128 (32 * i.val + j) } }
        exact ⟨hmask, hmap, hpend, .inl hlost⟩
    · obtain ⟨hpend, hlost, hmask, hmap⟩ := raise_evt_eq (32 * i.val + j) t
      refine ⟨hmask, hmap, hpend, ?_⟩
      rw [hlost]
      split
      · next h => exact .inr ⟨h, rfl⟩
      · exact .inl rfl

/-- A source changes the pending and the lost bit of its own event only. -/
theorem evtAgain_other (hj : j ∈ wordBits again) {e : Nat} (he : e ≠ 32 * i.val + j) :
    (evtAgain i w again p0 t j).evt.pend.getLsbD e = t.evt.pend.getLsbD e ∧
    (evtAgain i w again p0 t j).evt.lost.getLsbD e = t.evt.lost.getLsbD e := by
  obtain ⟨-, -, hpend, hlost⟩ := evtAgain_evt (i := i) (w := w) (p0 := p0) (t := t) hj
  have hbit : ∀ x : BitVec 128, (x ||| BitVec.twoPow 128 (32 * i.val + j)).getLsbD e = x.getLsbD e := by
    simp [BitVec.getLsbD_twoPow, he.symm]
  constructor
  · rw [hpend]
    split
    · exact hbit _
    · rfl
  · rcases hlost with h | ⟨-, h⟩
    · rw [h]
    · rw [h, hbit]

/-- After the sources of a list of bits: the mask and the map as before, and pending what was pending and the events of the sources. -/
theorem foldl_evtAgain_pend {l : List Nat} (hl : ∀ j ∈ l, j ∈ wordBits again) :
    (l.foldl (evtAgain i w again p0) t).evt.mask = t.evt.mask ∧ (l.foldl (evtAgain i w again p0) t).evt.map = t.evt.map ∧
    ∀ n < 32, (l.foldl (evtAgain i w again p0) t).evt.pend.getLsbD (32 * i.val + n) =
      (t.evt.pend.getLsbD (32 * i.val + n) || (decide (n ∈ l) && eventSource (32 * i.val + n))) := by
  induction l generalizing t with
  | nil => simp
  | cons j r ih =>
    have hj := hl j List.mem_cons_self
    obtain ⟨hmask, hmap, hpend, -⟩ := evtAgain_evt (i := i) (w := w) (p0 := p0) (t := t) hj
    obtain ⟨ihmask, ihmap, ihpend⟩ := ih (t := evtAgain i w again p0 t j) (fun n hn => hl n (List.mem_cons_of_mem _ hn))
    refine ⟨ihmask.trans hmask, ihmap.trans hmap, fun n hn => (ihpend n hn).trans ?_⟩
    by_cases hnj : n = j
    · subst hnj
      have := i.isLt
      rw [hpend]
      cases eventSource (32 * i.val + n) <;> simp [show 32 * i.val + n < 128 by omega]
    · rw [(evtAgain_other hj (show 32 * i.val + n ≠ 32 * i.val + j by omega)).1]
      simp [hnj]

/-- An event whose pending bit the write has cleared, or that no source of the list names, keeps its lost bit. -/
theorem foldl_evtAgain_lost {l : List Nat} (hl : ∀ j ∈ l, j ∈ wordBits again) (hnodup : l.Nodup) {n : Nat}
    (hclear : n ∈ l → t.evt.pend.getLsbD (32 * i.val + n) = false) :
    (l.foldl (evtAgain i w again p0) t).evt.lost.getLsbD (32 * i.val + n) = t.evt.lost.getLsbD (32 * i.val + n) := by
  induction l generalizing t with
  | nil => rfl
  | cons j r ih =>
    have hj := hl j List.mem_cons_self
    obtain ⟨hjr, hr⟩ := List.nodup_cons.1 hnodup
    have ih := ih (t := evtAgain i w again p0 t j) (fun n hn => hl n (List.mem_cons_of_mem _ hn)) hr
    by_cases hnj : n = j
    · subst hnj
      refine (ih (fun h => absurd h hjr)).trans ?_
      rcases (evtAgain_evt (i := i) (w := w) (p0 := p0) (t := t) hj).2.2.2 with h | ⟨hp, -⟩
      · rw [h]
      · rw [hclear List.mem_cons_self] at hp
        cases hp
    · obtain ⟨hpend, hlost⟩ := evtAgain_other (i := i) (w := w) (p0 := p0) (t := t) hj (show 32 * i.val + n ≠ 32 * i.val + j by omega)
      exact (ih (fun h => hpend.trans (hclear (List.mem_cons_of_mem _ h)))).trans hlost

end

section
variable {i : Fin 4} {w again : Word} {s : State}

theorem evtPendWrite_mask_map :
    (evtPendWrite i w again s).evt.mask = s.evt.mask ∧ (evtPendWrite i w again s).evt.map = s.evt.map := by
  rw [evtPendWrite_eq]
  obtain ⟨hmask, hmap, -⟩ := foldl_evtAgain_pend (i := i) (w := w) (p0 := s.evt.pend) (t := evtCleared i w s) (fun _ h => h)
  exact ⟨hmask, hmap⟩

/-- A pending bit after a write of EVT_PEND: it was set and not written, or its source occurs in the tick of the write (R61). -/
theorem evtPendWrite_pend {j : Nat} (hj : j < 32) : (evtPendWrite i w again s).evt.pend.getLsbD (32 * i.val + j) =
    ((s.evt.pend.getLsbD (32 * i.val + j) && !w.getLsbD j) || (again.getLsbD j && eventSource (32 * i.val + j))) := by
  have := i.isLt
  rw [evtPendWrite_eq, (foldl_evtAgain_pend (fun _ h => h)).2.2 j hj]
  simp [evtCleared, mem_wordBits, hj, show 32 * i.val + j < 128 by omega]

/-- A source that occurs in the tick in which its bit is written loses nothing (R61). -/
theorem evtPendWrite_lost {j : Nat} (hj : j < 32) (hw : w.getLsbD j = true) :
    (evtPendWrite i w again s).evt.lost.getLsbD (32 * i.val + j) = s.evt.lost.getLsbD (32 * i.val + j) := by
  rw [evtPendWrite_eq]
  refine foldl_evtAgain_lost (fun _ h => h) (List.nodup_range.filter _) (fun _ => ?_)
  simp [evtCleared, getLsbD_wordAt_same w i hj, hw]

/-- The mask after a write of EVT_MASKi: word `i` is the word written. -/
theorem getLsbD_replaceWord (b : BitVec 128) {e : Nat} (he : e < 128) :
    ((b &&& ~~~((BitVec.allOnes 32).setWidth 128 <<< (32 * i.val))) ||| ((w.setWidth 128) <<< (32 * i.val))).getLsbD e =
      if e / 32 = i.val then w.getLsbD (e % 32) else b.getLsbD e := by
  rw [BitVec.getLsbD_or, BitVec.getLsbD_and, BitVec.getLsbD_not, getLsbD_wordAt, getLsbD_wordAt]
  by_cases h : e / 32 = i.val
  · rw [BitVec.getLsbD_allOnes]
    simp [h, he, Nat.mod_lt]
  · simp [h, he]

end

/-- An event that a write of EVT_MASKi unmasks: a step of `evtMaskWrite`. -/
def evtUnmask (i : Nat) (old : BitVec 128) (w : Word) (t : State) (j : Nat) : State :=
  if old.getLsbD (32 * i + j) && !w.getLsbD j && t.evt.pend.getLsbD (32 * i + j) then fireVector (vectorOf t (32 * i + j)) t else t

/-- The event block with word `i` of EVT_MASK replaced. -/
def evtMasked (i : Nat) (w : Word) (s : State) : State :=
  { s with evt := { s.evt with
    mask := (s.evt.mask &&& ~~~((BitVec.allOnes 32).setWidth 128 <<< (32 * i))) ||| ((w.setWidth 128) <<< (32 * i)) } }

theorem evtMaskWrite_eq (i : Nat) (w : Word) (s : State) :
    evtMaskWrite i w s = (List.range 32).foldl (evtUnmask i s.evt.mask w) (evtMasked i w s) := rfl

section
variable {i : Nat} {old : BitVec 128} {w : Word} {t : State} {j : Nat}

theorem evtUnmask_evt : (evtUnmask i old w t j).evt.pend = t.evt.pend ∧ (evtUnmask i old w t j).evt.lost = t.evt.lost ∧
    (evtUnmask i old w t j).evt.mask = t.evt.mask ∧ (evtUnmask i old w t j).evt.map = t.evt.map := by
  unfold evtUnmask
  split
  · exact fireVector_evt _ _
  · exact ⟨rfl, rfl, rfl, rfl⟩

theorem foldl_evtUnmask_evt (l : List Nat) : (l.foldl (evtUnmask i old w) t).evt.pend = t.evt.pend ∧
    (l.foldl (evtUnmask i old w) t).evt.lost = t.evt.lost ∧ (l.foldl (evtUnmask i old w) t).evt.mask = t.evt.mask ∧
    (l.foldl (evtUnmask i old w) t).evt.map = t.evt.map :=
  ⟨foldl_keeps (·.evt.pend) (fun _ _ => evtUnmask_evt.1) l t, foldl_keeps (·.evt.lost) (fun _ _ => evtUnmask_evt.2.1) l t,
    foldl_keeps (·.evt.mask) (fun _ _ => evtUnmask_evt.2.2.1) l t, foldl_keeps (·.evt.map) (fun _ _ => evtUnmask_evt.2.2.2) l t⟩

theorem evtUnmask_fired {v : Nat} (h : Fired t v) : Fired (evtUnmask i old w t j) v := by
  unfold evtUnmask
  split
  · exact fired_keep _ _ _ h
  · exact h

theorem foldl_evtUnmask_keeps_fired {v : Nat} (l : List Nat) (h : Fired t v) : Fired (l.foldl (evtUnmask i old w) t) v := by
  induction l generalizing t with
  | nil => exact h
  | cons j r ih => exact ih (evtUnmask_fired h)

/-- Each pending event that becomes unmasked fires its vector (R60). -/
theorem foldl_evtUnmask_fires {l : List Nat} (hj : j ∈ l) (hold : old.getLsbD (32 * i + j) = true) (hw : w.getLsbD j = false)
    (hpend : Pending t (32 * i + j)) : Fired (l.foldl (evtUnmask i old w) t) (vectorOf t (32 * i + j)) := by
  induction l generalizing t with
  | nil => cases hj
  | cons k r ih =>
    obtain ⟨hp, -, -, hmap⟩ := evtUnmask_evt (i := i) (old := old) (w := w) (t := t) (j := k)
    by_cases hjk : j = k
    · subst hjk
      refine foldl_evtUnmask_keeps_fired r ?_
      unfold evtUnmask
      rw [if_pos (by simp [hold, hw, show t.evt.pend.getLsbD (32 * i + j) = true from hpend])]
      exact fireVector_fired _ _ (Nat.mod_lt _ (by decide))
    · have hvector : vectorOf (evtUnmask i old w t k) (32 * i + j) = vectorOf t (32 * i + j) := by rw [vectorOf, vectorOf, hmap]
      rw [List.foldl_cons, ← hvector]
      exact ih ((List.mem_cons.1 hj).resolve_left hjk) (by rw [Pending, hp]; exact hpend)

end

/-- One entry of a register of EVT_MAP: a step of `evtMapWrite`. -/
def evtRemap (i : Nat) (w : Word) (t : State) (j : Nat) : State :=
  let v := BitVec.ofNat 8 (w.toNat / 2 ^ (8 * j) % 32)
  if lget 0 t.evt.map (4 * i + j) = v then t
  else
    let t1 := { t with evt := { t.evt with map := lset t.evt.map (4 * i + j) v } }
    if t.evt.pend.getLsbD (4 * i + j) && !t.evt.mask.getLsbD (4 * i + j) then fireVector v.toNat t1 else t1

theorem evtMapWrite_eq (i : Nat) (w : Word) (s : State) : evtMapWrite i w s = (List.range 4).foldl (evtRemap i w) s := rfl

theorem lset_lget_self {α : Type} (d : α) : ∀ (l : List α) (i : Nat), lset l i (lget d l i) = l
  | [], _ => rfl
  | _ :: _, 0 => rfl
  | x :: r, i + 1 => congrArg (x :: ·) (lset_lget_self d r i)

theorem lget_lset {α : Type} (d v : α) : ∀ {l : List α} {i : Nat} (e : Nat), i < l.length →
    lget d (lset l i v) e = if e = i then v else lget d l e
  | _ :: _, 0, 0, _ => rfl
  | _ :: _, 0, _ + 1, _ => rfl
  | _ :: _, _ + 1, 0, _ => rfl
  | _ :: r, i + 1, e + 1, h => by simpa [lset, lget] using lget_lset d v (l := r) e (Nat.lt_of_succ_lt_succ h)

section
variable {i : Nat} {w : Word} {t : State} {j : Nat}

/-- The entry names the vector that was written, modulo 32; the other registers stay (R60). -/
theorem evtRemap_evt : (evtRemap i w t j).evt.pend = t.evt.pend ∧ (evtRemap i w t j).evt.lost = t.evt.lost ∧
    (evtRemap i w t j).evt.mask = t.evt.mask ∧
    (evtRemap i w t j).evt.map = lset t.evt.map (4 * i + j) (BitVec.ofNat 8 (w.toNat / 2 ^ (8 * j) % 32)) := by
  unfold evtRemap
  extract_lets v t1
  split
  · next h => exact ⟨rfl, rfl, rfl, (lset_lget_self 0 t.evt.map (4 * i + j)).symm.trans (congrArg _ h)⟩
  · split
    · exact fireVector_evt _ _
    · exact ⟨rfl, rfl, rfl, rfl⟩

theorem foldl_evtRemap_evt (l : List Nat) : (l.foldl (evtRemap i w) t).evt.pend = t.evt.pend ∧
    (l.foldl (evtRemap i w) t).evt.lost = t.evt.lost ∧ (l.foldl (evtRemap i w) t).evt.mask = t.evt.mask :=
  ⟨foldl_keeps (·.evt.pend) (fun _ _ => evtRemap_evt.1) l t, foldl_keeps (·.evt.lost) (fun _ _ => evtRemap_evt.2.1) l t,
    foldl_keeps (·.evt.mask) (fun _ _ => evtRemap_evt.2.2.1) l t⟩

/-- The entries of the register hold the vectors written, the others what they held. -/
theorem foldl_evtRemap_map {l : List Nat} (hl : ∀ j ∈ l, j < 4) (hlen : 4 * i + 3 < t.evt.map.length) (e : Nat) :
    lget 0 (l.foldl (evtRemap i w) t).evt.map e =
      if e / 4 = i ∧ e % 4 ∈ l then BitVec.ofNat 8 (w.toNat / 2 ^ (8 * (e % 4)) % 32) else lget 0 t.evt.map e := by
  induction l generalizing t with
  | nil => simp
  | cons j r ih =>
    have hj := hl j List.mem_cons_self
    obtain ⟨-, -, -, hmap⟩ := evtRemap_evt (i := i) (w := w) (t := t) (j := j)
    refine (ih (t := evtRemap i w t j) (fun n hn => hl n (List.mem_cons_of_mem _ hn)) (by rw [hmap, length_lset]; exact hlen)).trans ?_
    rw [hmap, lget_lset _ _ _ (by omega)]
    by_cases he : e = 4 * i + j
    · have hdiv : e / 4 = i := by omega
      have hmod : e % 4 = j := by omega
      rw [if_pos he, if_pos (⟨hdiv, hmod ▸ List.mem_cons_self⟩ : e / 4 = i ∧ e % 4 ∈ j :: r), hmod, ite_self]
    · have hmem : (e / 4 = i ∧ e % 4 ∈ j :: r) ↔ (e / 4 = i ∧ e % 4 ∈ r) := by
        rw [List.mem_cons]
        exact ⟨fun ⟨hd, hm⟩ => ⟨hd, hm.resolve_left (fun h => he (by omega))⟩, fun ⟨hd, hm⟩ => ⟨hd, .inr hm⟩⟩
      simp only [hmem, if_neg he]

end

/-- Settles O43, a clause for each register. -/
theorem eventBlockWrites : Obligations.EventBlockWrites := by
  intro i w s
  refine ⟨rfl, fun again => ⟨_, rfl, ?_⟩, rfl, ⟨_, rfl, ?_⟩, fun q hok => ⟨_, rfl, ?_⟩⟩
  · refine ⟨fun j hj ha hs => ?_, fun j hj hs => ?_, fun j hj _ hw => evtPendWrite_lost hj hw, evtPendWrite_mask_map⟩
    · exact (evtPendWrite_pend hj).trans (by rw [ha, hs, Bool.and_self, Bool.or_true])
    · exact (evtPendWrite_pend hj).trans (by rw [hs, Bool.and_false, Bool.or_false])
  · rw [evtMaskWrite_eq]
    obtain ⟨hpend, hlost, hmask, hmap⟩ := foldl_evtUnmask_evt (i := i) (old := s.evt.mask) (w := w) (t := evtMasked i w s) (List.range 32)
    refine ⟨fun e he => ?_, fun j hj hold hw hp => ?_, hpend, hlost, hmap⟩
    · rw [hmask]
      exact getLsbD_replaceWord s.evt.mask he
    · exact foldl_evtUnmask_fires (t := evtMasked i w s) (List.mem_range.2 hj) hold hw hp
  · rw [evtMapWrite_eq]
    have hq := q.isLt
    obtain ⟨hlen, -⟩ := hok
    refine ⟨fun e _ => ?_, foldl_evtRemap_evt _⟩
    rw [foldl_evtRemap_map (fun _ => List.mem_range.1) (by omega)]
    simp only [List.mem_range, Nat.mod_lt e (show 4 > 0 by decide), and_true]
    split
    · rw [BitVec.toNat_ofNat]
      omega
    · rfl

end Sys2Proof.Machine

namespace Sys2Proof.Machine

/-! TIME_LO, TIME_LATCH, the user page, PROD and the generic register write (R41, R57, R63, R259). -/

/-- The host's own memory is no part of the streams or of the device. -/
theorem hostRing_frame (k : Nat) (b : List Byte) (s : State) : (hostRing k b s).strm = s.strm ∧ (hostRing k b s).dev = s.dev := by
  unfold hostRing
  dsimp only
  split <;> exact ⟨rfl, rfl⟩

/-- A write of PROD below COUNT is taken, one of COUNT or more is ignored and sets PROD_INVALID; no other stream changes (R63). -/
theorem prodWrite_streams {k : Nat} {w : Word} {s : State} (hlive : bar2Live s = true) (hkick : s.dev.mode ≠ .kickstand) :
    (w.toNat < (strmOf s k).count →
      (strmOf (prodWrite k w s) k).prod = w.toNat ∧ (strmOf (prodWrite k w s) k).prodInvalid = false) ∧
    ((strmOf s k).count ≤ w.toNat →
      (strmOf (prodWrite k w s) k).prod = (strmOf s k).prod ∧ (strmOf (prodWrite k w s) k).prodInvalid = true) ∧
    ∀ j, j ≠ k → strmOf (prodWrite k w s) j = strmOf s j := by
  unfold prodWrite
  rw [if_neg (by simp [hlive, hkick])]
  extract_lets h h1 h'
  have hstrm : ∀ j, strmOf (raiseIf (h'.low && !h.low) (8 + k) { s with strm := tset {} s.strm k h' }) j =
      if j = k then h' else strmOf s j := fun j => by
    unfold strmOf
    rw [raiseIf_strm]
    exact tget_tset _ _ _ _ _
  simp only [hstrm, if_true]
  refine ⟨fun hlt => ?_, fun hge => ?_, fun j hj => if_neg hj⟩
  · have hh' : h' = { h1 with low := h1.attached && h1.fill ≤ h1.lowWater } := if_pos hlt
    rw [hh']
    exact ⟨rfl, rfl⟩
  · have hh' : h' = { h with prodInvalid := true } := if_neg (Nat.not_lt.2 hge)
    rw [hh']
    exact ⟨rfl, rfl⟩

theorem execRegisterWrite_beyond {bar : Bar} {off : BitVec 32} {b : List Byte} {s : State} (h : barSize bar < off.toNat + b.length) :
    execRegisterWrite bar off b s = .fault (.noSuchAddress off.toNat) := if_pos h

theorem execRegisterWrite_inside {bar : Bar} {off : BitVec 32} {b : List Byte} {s : State} (h : off.toNat + b.length ≤ barSize bar) :
    execRegisterWrite bar off b s = .next (registerWrite bar off.toNat b s) := if_neg (Nat.not_lt.2 h)

/-- A register write of an aligned word of BAR0. -/
theorem execRegisterWrite_word {o : Nat} {b : List Byte} {s : State} (hb : b.length = 4) (ho : o % 4 = 0) (hlt : o + 4 ≤ 65536) :
    execRegisterWrite .bar0 (BitVec.ofNat 32 o) b s = .next (bar0Write o (BitVec.ofNat 32 (leNat b)) s) := by
  have hoff : (BitVec.ofNat 32 o).toNat = o := (BitVec.toNat_ofNat _ _).trans (Nat.mod_eq_of_lt (by omega))
  rw [execRegisterWrite_inside (by rw [hoff, hb]; exact hlt), hoff]
  exact congrArg Host.Outcome.next (if_pos (by simp [hb, ho]))

theorem bar0Write_doorbell {m : Fin 8} {w : Word} {s : State} (hm : s.dev.mode ≠ .reset) :
    bar0Write (0x8000 + 0x1000 * m.val) w s = doorbell m w s := by
  unfold bar0Write
  rw [if_neg hm, if_pos (by omega)]
  dsimp only
  rw [if_pos (by omega), show (0x8000 + 0x1000 * m.val - 0x8000) / 0x1000 = m.val by omega]

theorem bar0Write_mbDone {m : Fin 8} {w : Word} {s : State} (hm : s.dev.mode ≠ .reset) :
    bar0Write (0x800C + 0x1000 * m.val) w s = mbDoneWrite m w s := by
  unfold bar0Write
  rw [if_neg hm, if_pos (by omega)]
  dsimp only
  rw [if_neg (by omega), if_pos (by omega), show (0x800C + 0x1000 * m.val - 0x8000) / 0x1000 = m.val by omega]

theorem bar0Write_hubPeriod {w : Word} {s : State} (hm : s.dev.mode ≠ .reset) : bar0Write 0x3004 w s = hubPeriod w s := by
  unfold bar0Write
  rw [if_neg hm]
  rfl

/-- Settles O44. That a write beyond its BAR is a fault is the model's choice; R41 names no answer to it. -/
theorem hostRegisterWrites : Obligations.HostRegisterWrites := by
  intro w s
  refine ⟨rfl, rfl, fun h => congrArg Host.Outcome.next (if_pos h),
    fun h => congrArg Host.Outcome.next (if_neg (h ▸ Bool.false_ne_true)), rfl, rfl,
    fun h => congrArg Host.Outcome.next (if_pos h), fun h => congrArg Host.Outcome.next (if_neg (h ▸ Bool.false_ne_true)),
    fun k recs hlive hkick => ⟨_, rfl, ?_⟩, fun _ _ _ h => execRegisterWrite_beyond h, fun off b hlt hbad => ?_,
    fun m b hb hm => ⟨?_, ?_, ?_⟩⟩
  · obtain ⟨hstrm, hdev⟩ := hostRing_frame k recs s
    have hsame : ∀ j, strmOf (hostRing k recs s) j = strmOf s j := fun j => by rw [strmOf, strmOf, hstrm]
    have hprod := prodWrite_streams (k := k) (w := w) (s := hostRing k recs s)
      (by rw [bar2Live, hdev]; exact hlive) (by rw [hdev]; exact hkick)
    simpa only [hsame] using hprod
  · refine (execRegisterWrite_inside hlt).trans (congrArg Host.Outcome.next (if_neg ?_))
    simp only [Bool.and_eq_true, decide_eq_true_eq]
    exact fun ⟨hlen, halign⟩ => hbad.elim (· hlen) (· halign)
  · exact (execRegisterWrite_word hb (by omega) (by omega)).trans (congrArg Host.Outcome.next (bar0Write_doorbell hm))
  · exact (execRegisterWrite_word hb (by omega) (by omega)).trans (congrArg Host.Outcome.next (bar0Write_mbDone hm))
  · exact (execRegisterWrite_word (o := 0x3004) hb (by decide) (by decide)).trans (congrArg Host.Outcome.next (bar0Write_hubPeriod hm))

end Sys2Proof.Machine

namespace Sys2Proof.Machine

/-! Reset, power and the link to the host (R40, R370, R372, R402, R421). -/

theorem Rest.jrn_eq {msk : MaskR} {s t : State} (h : Rest msk s t) (hm : msk.jrn = false) : t.jrn = s.jrn :=
  eq_of_not_free h.jrn hm

/-- What the journal keeps in reset: its regions, the place of the next record, and the floor (R372). -/
theorem inReset_jrn (s : State) : (inReset s).jrn.regA = s.jrn.regA ∧ (inReset s).jrn.regB = s.jrn.regB ∧
    (inReset s).jrn.next = s.jrn.next ∧ (inReset s).jrn.floor = s.jrn.floor := by
  unfold inReset
  dsimp only
  split <;> exact ⟨rfl, rfl, rfl, rfl⟩

theorem flushF_dev (n : Nat) (s : State) : (flushF n s).dev = s.dev := by
  induction n generalizing s with
  | zero => rfl
  | succ n ih => exact (ih _).trans ((journalWrite_rest (msk := { jrn := true }) s (.refl _ s) rfl).dev_eq rfl)

theorem porstRelease_starts {bs : BitVec 2} {sa : BitVec 5} {s : State} (hlow : s.dev.porstLow = true) (hp : s.dev.pfail = false) :
    porstRelease bs sa s = bootStart bs sa s := by
  unfold porstRelease
  rw [if_neg (by simp [hlow]), if_neg (by simp [hp])]

theorem porstRelease_waits {bs : BitVec 2} {sa : BitVec 5} {s : State} (hlow : s.dev.porstLow = true) (hp : s.dev.pfail = true) :
    porstRelease bs sa s =
      modDev (fun d => { d with porstLow := false, waitPfail := true, bootsel := bs, stnaddr := sa }) s := by
  unfold porstRelease
  rw [if_neg (by simp [hlow]), if_pos hp]

/-- A device reset that is due is a reset and a start (R372). -/
theorem deviceReset_starts {bs : BitVec 2} {sa : BitVec 5} {s : State} (hdue : s.dev.resetAt.isSome = true) (hp : s.dev.pfail = false) :
    deviceReset bs sa s = bootStart bs sa (inReset (flushF s.jrn.queueF.length s)) := by
  unfold deviceReset
  rw [if_neg (by simp [← Option.isSome_iff_ne_none, hdue])]
  exact porstRelease_starts rfl ((congrArg DevSt.pfail (flushF_dev _ s)).trans hp)

/-- PFAIL_N high again: die F's charger reconnects where the hold-up has finished (R402). -/
def pfailHigh (s : State) : State :=
  { s with dev := { s.dev with pfail := false }, jrn := if s.jrn.holdupEnding then { s.jrn with holdup := false } else s.jrn }

theorem pfailRelease_eq (s : State) :
    pfailRelease s = if s.dev.waitPfail then bootStart s.dev.bootsel s.dev.stnaddr (pfailHigh s) else pfailHigh s := by
  have hhigh : (if s.jrn.holdupEnding then { modDev (fun d => { d with pfail := false }) s with jrn := { s.jrn with holdup := false } }
      else modDev (fun d => { d with pfail := false }) s) = pfailHigh s := by
    unfold pfailHigh
    cases s.jrn.holdupEnding <;> rfl
  rw [← hhigh]
  rfl

section
variable {s : State}

theorem pfailRelease_waiting (h : s.dev.waitPfail = true) : (pfailRelease s).dev.mode = .boot := by
  rw [pfailRelease_eq, if_pos h]
  rfl

theorem pfailRelease_not_waiting (h : s.dev.waitPfail = false) : (pfailRelease s).dev.mode = s.dev.mode := by
  rw [pfailRelease_eq, if_neg (h ▸ Bool.false_ne_true)]
  rfl

theorem pfailRelease_pfail : (pfailRelease s).dev.pfail = false := by
  rw [pfailRelease_eq]
  split <;> rfl

theorem pfailRelease_holdup (h : s.jrn.holdupEnding = true) : (pfailRelease s).jrn.holdup = false := by
  have hhigh : (pfailHigh s).jrn.holdup = false := by
    unfold pfailHigh
    rw [if_pos h]
  rw [pfailRelease_eq]
  split <;> exact hhigh

/-- Die F's hold-up begins with its window open (R402); die M's device island stays. -/
theorem holdupBegin_left : (holdupBegin s).jrn.holdup = true ∧ (holdupBegin s).jrn.holdupOpen = true ∧ (holdupBegin s).dev = s.dev := by
  have hpins : ∀ u : State, Rest {} u (pinsOff u) := fun u => pinsOff_rest u (.refl _ u)
  unfold holdupBegin
  rw [(hpins _).jrn_eq rfl, (hpins _).dev_eq rfl]
  exact ⟨rfl, rfl, rfl⟩

/-- PFAIL_N in a running die M: every group is asked to stop, event 105 occurs and the step axes ramp (R402). -/
theorem pfailAssert_running (hp : s.dev.pfail = false) (hm : s.dev.mode ≠ .reset) (hf : s.dev.frozen = false) :
    (pfailAssert s).dev.pfail = true ∧ Pending (pfailAssert s) 105 := by
  unfold pfailAssert
  rw [if_neg (by simp [hp])]
  extract_lets s1 s2 jrn s3
  have hs2 : s2.dev = s1.dev := iteInduction (motive := fun u : State => u.dev = s1.dev) (fun _ => rfl) (fun _ => holdupBegin_left.2.2)
  have hs3 : s3.dev = s1.dev := by
    simp only [s3]
    rw [raise_dev, reqStopAll_dev]
    exact hs2
  have hpending : Pending s3 105 := raise_sets_pending 105 _ (by decide)
  rw [if_neg (by simp [dieMRuns_of_mode hm, hf])]
  clear_value s3
  constructor
  · rw [(forNat_rest (msk := { jrn := true }) _ _ _ (fun n t ht => stpRamp_rest n _ t ht rfl) (.refl _ s3)).dev_eq rfl, hs3]
    rfl
  · exact (forNat_kept _ _ _ (fun n t ht => stpRamp_kept n _ t ht) (.refl s3)).evt.pend _ hpending

/-- PFAIL_N while die M is held in reset without PORST_N: die F's hold-up alone. -/
theorem pfailAssert_reset (hp : s.dev.pfail = false) (hm : s.dev.mode = .reset) (hlow : s.dev.porstLow = false)
    (hh : s.jrn.holdup = false) : pfailAssert s = holdupBegin (modDev (fun d => { d with pfail := true }) s) := by
  unfold pfailAssert
  rw [if_neg (by simp [hp])]
  extract_lets s1 s2 s3
  rw [if_pos (by simp [dieMRuns, hm])]
  exact if_neg (by simp [hh, hlow])

theorem pwrWarn_left {rail : Rail} (hm : s.dev.mode ≠ .reset) : Pending (pwrWarn rail s) 104 ∧ (pwrWarn rail s).dev = s.dev := by
  unfold pwrWarn
  extract_lets d s1
  rw [if_pos (dieMRuns_of_mode hm)]
  refine ⟨raise_sets_pending 104 s1 (by decide), (raise_dev 104 s1).trans ?_⟩
  cases rail with
  | vddCore | vddSram => exact journal_dev _ _ _ _ _ _ s
  | vddF | vccF => rfl

/-- Die F's part of a lost crosslink changes of the device island FAULT_N at most. -/
theorem xlinkLostF_dev (src code : Nat) (s : State) :
    (xlinkLostF src code s).dev = s.dev ∨ (xlinkLostF src code s).dev = { s.dev with faultN := true } := by
  unfold xlinkLostF
  split
  · exact .inl rfl
  · exact enterSafe_dev 2 _

/-- A rail of die M holds it in its reset state (R421). -/
theorem dieMReset_left (s : State) : (dieMReset s).dev.mode = .reset ∧ (dieMReset s).dev.held = s.dev.held ∧
    (dieMReset s).dev.mbReady = false ∧ (dieMReset s).axes = [] ∧ (dieMReset s).grps = [] := by
  refine ⟨rfl, ?_, rfl, rfl, rfl⟩
  unfold dieMReset
  dsimp only
  split
  · rcases xlinkLostF_dev 0x02 0x01 { s with xl := { s.xl with lost := true, up := false } } with h | h <;> rw [h]
  · rfl

theorem railExcursion_dieM {rail : Rail} (hrail : railOfM rail = true) (hnew : rail ∉ s.dev.held) :
    railExcursion rail s = dieMReset (modDev (fun d => { d with held := rail :: d.held }) s) := by
  unfold railExcursion
  rw [if_neg (by simpa using hnew)]
  exact if_pos hrail

/-- Die F held in reset by its rail: the crosslink is down and the queue lost, save in a hold-up (R421). -/
def railLowF (rail : Rail) (s : State) : State :=
  { s with
    dev := { s.dev with held := rail :: s.dev.held }
    xl := { s.xl with lost := s.xl.up || s.xl.lost, up := false }
    jrn := { s.jrn with queueF := if s.jrn.holdup && rail = .vccF then s.jrn.queueF else [] } }

/-- Die F off: its units are free, its step axes safe and its pins off. -/
def dieFOff (u : State) : State := pinsOff (forNat (List.range 16) stpSafe (freeUnits (·.dieF) { u with io := { u.io with safe := 2 } }))

theorem railExcursion_dieF {rail : Rail} (hrail : railOfM rail = false) (hnew : rail ∉ s.dev.held) :
    railExcursion rail s = dieFOff (xlinkLostM 0x02 0x01 (railLowF rail s)) := by
  unfold railExcursion
  rw [if_neg (by simpa using hnew)]
  exact if_neg (by simp [hrail])

theorem dieFOff_left (u : State) : (dieFOff u).dev = u.dev ∧ (dieFOff u).xl = u.xl ∧ (dieFOff u).io.safe = 2 := by
  unfold dieFOff
  generalize hv : freeUnits (·.dieF) { u with io := { u.io with safe := 2 } } = v
  have hrest : Rest { jrn := true } v (pinsOff (forNat (List.range 16) stpSafe v)) :=
    pinsOff_rest _ (forNat_rest _ _ _ (fun n t ht => stpSafe_rest n t ht rfl) (.refl _ v))
  have hio : (forNat (List.range 16) stpSafe v).io = v.io :=
    eq_of_not_free (forNat_stays (msk := { stp := true }) _ _ _ (fun n t ht => stpSafe_stays n t ht rfl) (.refl _ v)).io rfl
  rw [hrest.dev_eq rfl, hrest.xl_eq rfl, (pinsOff_eq _).2.2.1, hio, ← hv]
  exact ⟨rfl, rfl, rfl⟩

/-- A rail of die F while die M is held in reset: the crosslink is down and die F in its safe state. -/
theorem railExcursion_dieF_left {rail : Rail} (hrail : railOfM rail = false) (hnew : rail ∉ s.dev.held) (hm : s.dev.mode = .reset) :
    (railExcursion rail s).dev.held = rail :: s.dev.held ∧ (railExcursion rail s).xl.up = false ∧ (railExcursion rail s).io.safe = 2 := by
  rw [railExcursion_dieF hrail hnew, xlinkLostM_reset (s := railLowF rail s) hm]
  obtain ⟨hdev, hxl, hsafe⟩ := dieFOff_left (railLowF rail s)
  exact ⟨congrArg DevSt.held hdev, congrArg XlinkSt.up hxl, hsafe⟩

end

/-- Mailboxes whose slots have all been freed hold no slot, whichever of them are still listed. -/
theorem slots_of_freed (l : Tab Mailbox) (m : Nat) :
    (tget {} ((l.map (fun e => (e.1, { e.2 with slots := [], bells := [] }))).filter (fun e => e.2 ≠ ({} : Mailbox))) m).slots = [] := by
  induction l with
  | nil => rfl
  | cons e r ih =>
    rw [List.map_cons, List.filter_cons]
    split
    · unfold tget
      split
      · rfl
      · exact ih
    · exact ih

/-- The HOST island as LINK_RESET leaves it, before the streams are detached (R40). -/
def hostReset (s : State) : State :=
  { orphanAll s with
    host := { s.host with mb := (s.host.mb.map (fun e => (e.1, { e.2 with slots := [], bells := [] }))).filter (fun e => e.2 ≠ {}),
                          msix := [], pba := 0, msixOn := false, msixMask := false, cfg := [], usrEn := false }
    evt := {}, hub := { s.hub with mirrorEn := false } }

theorem linkReset_eq {s : State} (hm : s.dev.mode ≠ .reset) :
    linkReset s = journal 0x13 0x01 0 noObj 0 [] (forNat (List.range 8) detachStrm (hostReset s)) := by
  unfold linkReset
  rw [if_neg (by simp [dieMRuns_of_mode hm])]
  rfl

theorem linkReset_left {s : State} (hm : s.dev.mode ≠ .reset) : (∀ m k, slotOf (linkReset s) m k = .free) ∧
    (linkReset s).host.msix = [] ∧ (linkReset s).host.usrEn = false ∧ (linkReset s).evt.mask = State.reset.evt.mask ∧
    (linkReset s).evt.map = State.reset.evt.map := by
  have hkept : Kept (hostReset s) (forNat (List.range 8) detachStrm (hostReset s)) := forNat_kept _ _ _ detachStrm_kept (.refl _)
  have hhost : (linkReset s).host = (forNat (List.range 8) detachStrm (hostReset s)).host := by rw [linkReset_eq hm, journal_host]
  have hevt : (linkReset s).evt = (forNat (List.range 8) detachStrm (hostReset s)).evt := by rw [linkReset_eq hm, journal_evt]
  refine ⟨fun m k => ?_, by rw [hhost, hkept.host.msix]; rfl, by rw [hhost, hkept.host.usrEn]; rfl, by rw [hevt, hkept.evt.mask]; rfl,
    by rw [hevt, hkept.evt.map]; rfl⟩
  have hfree : slotOf (hostReset s) m k = .free := congrArg (fun t => tget Slot.free t k) (slots_of_freed s.host.mb m)
  rw [slotOf_congr m k hhost]
  rcases hkept.host.slot m k with h | ⟨h, -⟩
  · exact h.trans hfree
  · exact absurd (hfree.symm.trans h) (by decide)

/-- Settles O46. That a rail excursion of die M leaves it in reset until PORST_N is log entry 45 of the model. -/
theorem resetAndPower : Obligations.ResetAndPower := by
  intro s
  refine ⟨⟨_, rfl, ?_⟩, fun bs sa hlow hp => ⟨_, rfl, ?_⟩, fun bs sa hlow hp => ⟨_, rfl, ?_⟩, fun bs sa hdue hp => ⟨_, rfl, ?_⟩,
    ⟨_, rfl, pfailRelease_pfail, pfailRelease_waiting, pfailRelease_not_waiting, pfailRelease_holdup⟩,
    fun hp hm hf => ⟨_, rfl, pfailAssert_running hp hm hf⟩, fun hp hm hlow hh => ⟨_, rfl, ?_⟩, fun rail hm => ⟨_, rfl, pwrWarn_left hm⟩,
    fun rail hrail hnew => ⟨_, rfl, ?_⟩, fun rail hrail hnew hm => ⟨_, rfl, railExcursion_dieF_left hrail hnew hm⟩, fun _ => rfl,
    fun hm => ⟨_, rfl, ?_⟩⟩
  · obtain ⟨ha, hb, hnext, hfloor⟩ := inReset_jrn s
    exact ⟨rfl, rfl, rfl, rfl, ha, hb, hnext, hfloor, rfl, rfl⟩
  · rw [porstRelease_starts hlow hp]
    exact ⟨rfl, rfl, rfl, rfl, rfl, rfl, rfl, rfl⟩
  · rw [porstRelease_waits hlow hp]
    exact ⟨rfl, rfl, rfl⟩
  · rw [deviceReset_starts hdue hp]
    have hfuses : (flushF s.jrn.queueF.length s).dev.fuses = s.dev.fuses := congrArg DevSt.fuses (flushF_dev _ s)
    exact ⟨rfl, rfl, rfl, rfl, hfuses, rfl, rfl, rfl, rfl, rfl, fun _ _ => rfl⟩
  · rw [pfailAssert_reset hp hm hlow hh]
    obtain ⟨hopen, hwindow, hdev⟩ := holdupBegin_left (s := modDev (fun d => { d with pfail := true }) s)
    exact ⟨congrArg DevSt.pfail hdev, hopen, hwindow⟩
  · rw [railExcursion_dieM hrail hnew]
    exact dieMReset_left _
  · obtain ⟨hslots, hmsix, husr, hmask, hmap⟩ := linkReset_left hm
    exact ⟨hslots, hmsix, husr, hmask, hmap, (linkReset_sound s).fuses, fun h => (linkReset_dev s).1.trans h⟩

end Sys2Proof.Machine

namespace Sys2Proof.Machine

/-! What host accesses leave of the mailboxes, the command buffers and the event block (R43 to R48, R59 to R61). -/

/-- The host accesses and starts that have no business with the mailboxes, BAR2 or the event block. -/
def leavesMailboxes : Instr → Bool
  | .timeLatch _ | .hubCtlWrite _ | .hubPeriodWrite _ | .hubRdWrite _ | .hubMirrorWrite _ _ | .usrGrantWrite _ | .usrCtlWrite _
    | .usrWinWrite _ | .porstNRelease _ _ | .pfailNRelease => true
  | _ => false

/-- The host accesses that have. -/
def touchesMailboxes : Instr → Bool
  | .mbDoorbell _ _ | .mbDoneClear _ _ | .mbStatClear _ _ | .commandBufferWrite _ _ _ _ | .evtPendClear _ _ _ | .evtLostClear _ _
    | .evtMaskWrite _ _ | .evtMapWrite _ _ | .streamProdWrite _ _ _ | .registerWrite _ _ _ => true
  | _ => false

theorem plain_or_host (i : Instr) : (plain i || resets i || leavesMailboxes i || touchesMailboxes i) = true := by cases i <;> rfl

/-- `t` has the mailboxes, BAR2 and the event block of `s`. -/
structure MailboxesSame (s t : State) : Prop where
  mb : t.host.mb = s.host.mb
  bar2 : t.host.bar2 = s.host.bar2
  evt : t.evt = s.evt

theorem MailboxesSame.refl (s : State) : MailboxesSame s s := ⟨rfl, rfl, rfl⟩

theorem mailboxesSame_ite {c : Prop} [Decidable c] {s t u : State} (ht : MailboxesSame s t) (hu : MailboxesSame s u) :
    MailboxesSame s (if c then t else u) := iteInduction (fun _ => ht) (fun _ => hu)

theorem hubCtl_same (w : Word) (s : State) : MailboxesSame s (hubCtl w s) := mailboxesSame_ite ⟨rfl, rfl, rfl⟩ (.refl s)
theorem hubPeriod_same (w : Word) (s : State) : MailboxesSame s (hubPeriod w s) := mailboxesSame_ite ⟨rfl, rfl, rfl⟩ (.refl s)
theorem hubRd_same (w : Word) (s : State) : MailboxesSame s (hubRd w s) := mailboxesSame_ite ⟨rfl, rfl, rfl⟩ (.refl s)
theorem hubMirror_same (hi : Bool) (w : Word) (s : State) : MailboxesSame s (hubMirror hi w s) :=
  mailboxesSame_ite (.refl s) ⟨rfl, rfl, rfl⟩
theorem timeLatchWrite_same (w : Word) (s : State) : MailboxesSame s (timeLatchWrite w s) := mailboxesSame_ite ⟨rfl, rfl, rfl⟩ (.refl s)
theorem usrGrant_same (w : Word) (s : State) : MailboxesSame s (usrGrant w s) := ⟨rfl, rfl, rfl⟩
theorem usrCtl_same (w : Word) (s : State) : MailboxesSame s (usrCtl w s) := ⟨rfl, rfl, rfl⟩
theorem usrWin_same (w : Word) (s : State) : MailboxesSame s (usrWin w s) := mailboxesSame_ite ⟨rfl, rfl, rfl⟩ (.refl s)

/-- A start of die M touches no register of the host (R370). -/
theorem porstRelease_frame (bs : BitVec 2) (sa : BitVec 5) (s : State) : (porstRelease bs sa s).host = s.host ∧
    (porstRelease bs sa s).evt = s.evt ∧ (porstRelease bs sa s).hub = s.hub := by
  unfold porstRelease
  split
  · exact ⟨rfl, rfl, rfl⟩
  · split <;> exact ⟨rfl, rfl, rfl⟩

theorem pfailRelease_frame (s : State) : (pfailRelease s).host = s.host ∧ (pfailRelease s).evt = s.evt ∧
    (pfailRelease s).hub = s.hub := by
  unfold pfailRelease
  dsimp only
  split <;> split <;> exact ⟨rfl, rfl, rfl⟩

theorem mailboxesSame_of_frame {s t : State} (h : t.host = s.host ∧ t.evt = s.evt ∧ t.hub = s.hub) : MailboxesSame s t :=
  ⟨congrArg HostSt.mb h.1, congrArg HostSt.bar2 h.1, h.2.1⟩

theorem exec_mailboxesSame {i : Instr} {s t : State} (h : exec i s = .next t) (hi : leavesMailboxes i = true) : MailboxesSame s t := by
  cases i with
  | timeLatch w => exact Host.Outcome.next.inj h ▸ timeLatchWrite_same w s
  | hubCtlWrite w => exact Host.Outcome.next.inj h ▸ hubCtl_same w s
  | hubPeriodWrite w => exact Host.Outcome.next.inj h ▸ hubPeriod_same w s
  | hubRdWrite w => exact Host.Outcome.next.inj h ▸ hubRd_same w s
  | hubMirrorWrite high w => exact Host.Outcome.next.inj h ▸ hubMirror_same high w s
  | usrGrantWrite w => exact Host.Outcome.next.inj h ▸ usrGrant_same w s
  | usrCtlWrite w => exact Host.Outcome.next.inj h ▸ usrCtl_same w s
  | usrWinWrite w => exact Host.Outcome.next.inj h ▸ usrWin_same w s
  | porstNRelease bs sa => exact Host.Outcome.next.inj h ▸ mailboxesSame_of_frame (porstRelease_frame bs sa s)
  | pfailNRelease => exact Host.Outcome.next.inj h ▸ mailboxesSame_of_frame (pfailRelease_frame s)
  | _ => cases hi

/-! Writes of the event block leave the mailboxes and BAR2. -/

theorem fireVector_mb_bar2 (v : Nat) (s : State) :
    (fireVector v s).host.mb = s.host.mb ∧ (fireVector v s).host.bar2 = s.host.bar2 := by
  rw [fireVector_host]
  exact ⟨rfl, rfl⟩

theorem evtAgain_mb_bar2 (i : Nat) (w again : Word) (p0 : BitVec 128) (t : State) (j : Nat) :
    (evtAgain i w again p0 t j).host.mb = t.host.mb ∧ (evtAgain i w again p0 t j).host.bar2 = t.host.bar2 := by
  unfold evtAgain
  split
  · exact ⟨rfl, rfl⟩
  split
  · dsimp only
    split
    · exact ⟨rfl, rfl⟩
    · exact fireVector_mb_bar2 _ _
  · exact ⟨raise_mb _ t, raise_bar2 _ t⟩

theorem evtUnmask_mb_bar2 (i : Nat) (old : BitVec 128) (w : Word) (t : State) (j : Nat) :
    (evtUnmask i old w t j).host.mb = t.host.mb ∧ (evtUnmask i old w t j).host.bar2 = t.host.bar2 := by
  unfold evtUnmask
  split
  · exact fireVector_mb_bar2 _ t
  · exact ⟨rfl, rfl⟩

theorem evtRemap_mb_bar2 (i : Nat) (w : Word) (t : State) (j : Nat) :
    (evtRemap i w t j).host.mb = t.host.mb ∧ (evtRemap i w t j).host.bar2 = t.host.bar2 := by
  unfold evtRemap
  dsimp only
  split
  · exact ⟨rfl, rfl⟩
  split
  · exact fireVector_mb_bar2 _ _
  · exact ⟨rfl, rfl⟩

theorem foldl_mb_bar2 {f : State → Nat → State} (h : ∀ t j, (f t j).host.mb = t.host.mb ∧ (f t j).host.bar2 = t.host.bar2)
    (l : List Nat) (s : State) : (l.foldl f s).host.mb = s.host.mb ∧ (l.foldl f s).host.bar2 = s.host.bar2 :=
  ⟨foldl_keeps (·.host.mb) (fun t j => (h t j).1) l s, foldl_keeps (·.host.bar2) (fun t j => (h t j).2) l s⟩

section
variable (i : Nat) (w again : Word) (s : State)

theorem evtPendWrite_mb_bar2 :
    (evtPendWrite i w again s).host.mb = s.host.mb ∧ (evtPendWrite i w again s).host.bar2 = s.host.bar2 := by
  rw [evtPendWrite_eq]
  exact foldl_mb_bar2 (evtAgain_mb_bar2 i w again s.evt.pend) (wordBits again) (evtCleared i w s)

theorem evtMaskWrite_mb_bar2 : (evtMaskWrite i w s).host.mb = s.host.mb ∧ (evtMaskWrite i w s).host.bar2 = s.host.bar2 := by
  rw [evtMaskWrite_eq]
  exact foldl_mb_bar2 (evtUnmask_mb_bar2 i s.evt.mask w) (List.range 32) (evtMasked i w s)

theorem evtMapWrite_mb_bar2 : (evtMapWrite i w s).host.mb = s.host.mb ∧ (evtMapWrite i w s).host.bar2 = s.host.bar2 := by
  rw [evtMapWrite_eq]
  exact foldl_mb_bar2 (evtRemap_mb_bar2 i w) (List.range 4) s

end

/-- PROD, with the records that stand in the host's own memory: what every command other than a reset keeps. -/
theorem prodWrite_hostRing_kept (k : Nat) (w : Word) (b : List Byte) (s : State) : Kept s (prodWrite k w (hostRing k b s)) := by
  refine prodWrite_kept _ _ _ ?_
  unfold hostRing
  extract_lets h
  split
  · exact .refl s
  · exact kept_host _ s (.refl s) ⟨fun ⟨hbar, hstage, hmsix, hram⟩ => ⟨hbar, hstage, hmsix, foldl_mset_wf _ _ hram⟩,
      rfl, rfl, rfl, rfl, rfl, fun _ _ => rfl, fun _ _ => .inl rfl⟩

/-- What a doorbell may do: nothing, or a change of its mailbox and a count. -/
theorem doorbell_frame (m : Nat) (w : Word) (s : State) :
    (∃ mb, (doorbell m w s).host = { s.host with mb := mb }) ∧ (doorbell m w s).evt = s.evt ∧
    ∃ spokes, (doorbell m w s).hub = { s.hub with spokes := spokes } := by
  unfold doorbell
  split
  · exact ⟨⟨_, rfl⟩, rfl, _, rfl⟩
  dsimp only
  split <;> exact ⟨⟨_, rfl⟩, rfl, _, rfl⟩

/-- What a write into BAR2 by the host may do: the staging area, bytes of BAR2 that may be written, MB_STAT, PROD, or nothing. -/
theorem bar2HostWrite_cases (a : Nat) (b : List Byte) (s : State) :
    Kept s (bar2HostWrite a b s) ∨ bar2HostWrite a b s = { s with host := { s.host with staging := mwrite s.host.staging a b } } ∨
    ((∀ i < b.length, bar2Writable s (a + i) = true) ∧ bar2HostWrite a b s = bar2Write a b s) ∨
    bar2HostWrite a b s = count 0 0x0104 (count 0 0x0103 (setMb (a / 0x20000) { mbOf s (a / 0x20000) with violation := true } s)) := by
  unfold bar2HostWrite
  split
  · exact .inl (.refl s)
  split
  · exact .inr (.inl rfl)
  split
  · next h => exact .inr (.inr (.inl ⟨fun i hi => List.all_eq_true.1 h i (List.mem_range.2 hi), rfl⟩))
  split
  · exact .inr (.inr (.inr rfl))
  split
  · exact .inl (prodBytes_kept _ _ _ s (.refl s))
  · exact .inl (count_kept _ _ s (.refl s))

/-! Pending and lost bits (R59, R61). -/

/-- Every pending bit and every lost bit of `s` is set in `t`. -/
structure BitsStay (s t : State) : Prop where
  pend : ∀ e, Pending s e → Pending t e
  lost : ∀ e, s.evt.lost.getLsbD e = true → t.evt.lost.getLsbD e = true

theorem BitsStay.of_eq {s t : State} (hpend : t.evt.pend = s.evt.pend) (hlost : t.evt.lost = s.evt.lost) : BitsStay s t :=
  ⟨fun _ h => (congrArg (BitVec.getLsbD · _) hpend).trans h, fun _ h => (congrArg (BitVec.getLsbD · _) hlost).trans h⟩

theorem Kept.bitsStay {s t : State} (h : Kept s t) : BitsStay s t := ⟨h.evt.pend, h.evt.lost⟩

theorem bar2HostWrite_bitsStay (a : Nat) (b : List Byte) (s : State) : BitsStay s (bar2HostWrite a b s) := by
  rcases bar2HostWrite_cases a b s with h | h | ⟨-, h⟩ | h
  · exact h.bitsStay
  all_goals rw [h]; exact .of_eq rfl rfl

theorem evtMaskWrite_bitsStay (i : Nat) (w : Word) (s : State) : BitsStay s (evtMaskWrite i w s) := by
  obtain ⟨hpend, hlost, -⟩ := foldl_evtUnmask_evt (i := i) (old := s.evt.mask) (w := w) (t := evtMasked i w s) (List.range 32)
  rw [evtMaskWrite_eq]
  exact .of_eq hpend hlost

theorem evtMapWrite_bitsStay (i : Nat) (w : Word) (s : State) : BitsStay s (evtMapWrite i w s) := by
  obtain ⟨hpend, hlost, -⟩ := foldl_evtRemap_evt (i := i) (w := w) (t := s) (List.range 4)
  rw [evtMapWrite_eq]
  exact .of_eq hpend hlost

/-- But for resets, EVT_PEND, EVT_LOST and the generic write, which may be one of these, no command clears a bit. -/
theorem exec_bitsStay {i : Instr} {s t : State} (h : exec i s = .next t) (hr : resets i = false) (hc : clearsEvents i = false)
    (hl : ∀ n w, i ≠ .evtLostClear n w) : BitsStay s t := by
  by_cases hp : plain i = true
  · exact (exec_kept i s t h hp).bitsStay
  by_cases hs : leavesMailboxes i = true
  · have hevt := (exec_mailboxesSame h hs).evt
    exact .of_eq (congrArg EvtBlock.pend hevt) (congrArg EvtBlock.lost hevt)
  have htouch : touchesMailboxes i = true := by simpa [hp, hr, hs] using plain_or_host i
  cases i with
  | mbDoorbell m w =>
    obtain ⟨-, hevt, -⟩ := doorbell_frame m w s
    exact Host.Outcome.next.inj h ▸ .of_eq (congrArg EvtBlock.pend hevt) (congrArg EvtBlock.lost hevt)
  | mbDoneClear m w =>
    obtain ⟨-, hevt, -⟩ := mbDoneWrite_frame (m := m) (w := w) (s := s)
    exact Host.Outcome.next.inj h ▸ .of_eq (congrArg EvtBlock.pend hevt) (congrArg EvtBlock.lost hevt)
  | mbStatClear m w => exact Host.Outcome.next.inj h ▸ .of_eq rfl rfl
  | commandBufferWrite m k off b => exact Host.Outcome.next.inj h ▸ bar2HostWrite_bitsStay _ b s
  | evtMaskWrite n w => exact Host.Outcome.next.inj h ▸ evtMaskWrite_bitsStay n w s
  | evtMapWrite n w => exact Host.Outcome.next.inj h ▸ evtMapWrite_bitsStay n w s
  | streamProdWrite k w recs => exact Host.Outcome.next.inj h ▸ (prodWrite_hostRing_kept k w recs s).bitsStay
  | evtPendClear n w again => cases hc
  | registerWrite bar off b => cases hc
  | evtLostClear n w => exact absurd rfl (hl n w)
  | _ => cases htouch

/-- A write of EVT_PEND clears no lost bit (R61). -/
theorem evtPendWrite_keeps_lost {i : Fin 4} {w again : Word} {s : State} {e : Nat} (h : s.evt.lost.getLsbD e = true) :
    (evtPendWrite i w again s).evt.lost.getLsbD e = true := by
  rw [evtPendWrite_eq]
  have hfold : ∀ (l : List Nat) (t : State), (∀ j ∈ l, j ∈ wordBits again) → t.evt.lost.getLsbD e = true →
      (l.foldl (evtAgain i w again s.evt.pend) t).evt.lost.getLsbD e = true := by
    intro l
    induction l with
    | nil => exact fun _ _ ht => ht
    | cons j r ih =>
      refine fun t hl ht => ih _ (fun n hn => hl n (List.mem_cons_of_mem _ hn)) ?_
      rcases (evtAgain_evt (i := i) (w := w) (p0 := s.evt.pend) (t := t) (hl j List.mem_cons_self)).2.2.2 with hlost | ⟨-, hlost⟩
      · rw [hlost, ht]
      · rw [hlost, BitVec.getLsbD_or, ht, Bool.true_or]
  exact hfold _ _ (fun _ hj => hj) h

/-- Settles O7: the two writes that clear bits keep the other register, and every other command keeps both (`exec_bitsStay`). -/
theorem eventsStayPending : Obligations.EventsStayPending := by
  intro i s t h hr
  refine ⟨fun hc e hp => ?_, fun hl hreg e he => ?_⟩
  · by_cases hclear : ∃ n w, i = .evtLostClear n w
    · obtain ⟨n, w, rfl⟩ := hclear
      obtain rfl : evtLostWrite n w s = t := Host.Outcome.next.inj h
      exact hp
    · exact (exec_bitsStay h hr hc (fun n w hi => hclear ⟨n, w, hi⟩)).pend e hp
  · by_cases hc : clearsEvents i = true
    · cases i with
      | evtPendClear n w again =>
        obtain rfl : evtPendWrite n w again s = t := Host.Outcome.next.inj h
        exact evtPendWrite_keeps_lost he
      | registerWrite bar off b => exact absurd rfl (hreg bar off b)
      | _ => cases hc
    · exact (exec_bitsStay h hr (Bool.not_eq_true _ ▸ hc) hl).lost e he

/-! Mailbox slots (R45, R48). -/

/-- Every slot is in `t` as it was in `s`, or has gone from POSTED to DONE. -/
def SlotsAdvance (s t : State) : Prop :=
  ∀ m k, slotOf t m k = slotOf s m k ∨ (slotOf s m k = .posted ∧ slotOf t m k = .done)

theorem SlotsAdvance.of_mb {s t : State} (h : t.host.mb = s.host.mb) : SlotsAdvance s t := fun m k => by
  unfold slotOf mbOf
  rw [h]
  exact .inl rfl

theorem bar2HostWrite_slotsAdvance (a : Nat) (b : List Byte) (s : State) : SlotsAdvance s (bar2HostWrite a b s) := by
  rcases bar2HostWrite_cases a b s with h | h | ⟨-, h⟩ | h
  · exact h.host.slot
  · rw [h]; exact .of_mb rfl
  · rw [h]; exact .of_mb rfl
  · rw [h]; exact fun m k => .inl (slotOf_setMb_same (m := a / 0x20000) (s := s) (by rfl) m k)

/-- But for resets, MB_DONE, the doorbell and the generic write no command moves a slot other than from POSTED to DONE. -/
theorem exec_slotsAdvance {i : Instr} {s t : State} (h : exec i s = .next t) (hr : resets i = false) (hf : freesSlots i = false)
    (hd : ∀ n w, i ≠ .mbDoorbell n w) : SlotsAdvance s t := by
  by_cases hp : plain i = true
  · exact (exec_kept i s t h hp).host.slot
  by_cases hs : leavesMailboxes i = true
  · exact .of_mb (exec_mailboxesSame h hs).mb
  have htouch : touchesMailboxes i = true := by simpa [hp, hr, hs] using plain_or_host i
  cases i with
  | mbStatClear m w => exact Host.Outcome.next.inj h ▸ fun n k => .inl (slotOf_setMb_same (m := m) (s := s) (by rfl) n k)
  | commandBufferWrite m k off b => exact Host.Outcome.next.inj h ▸ bar2HostWrite_slotsAdvance _ b s
  | evtPendClear n w again => exact Host.Outcome.next.inj h ▸ .of_mb (evtPendWrite_mb_bar2 n w again s).1
  | evtLostClear n w => exact Host.Outcome.next.inj h ▸ .of_mb rfl
  | evtMaskWrite n w => exact Host.Outcome.next.inj h ▸ .of_mb (evtMaskWrite_mb_bar2 n w s).1
  | evtMapWrite n w => exact Host.Outcome.next.inj h ▸ .of_mb (evtMapWrite_mb_bar2 n w s).1
  | streamProdWrite k w recs => exact Host.Outcome.next.inj h ▸ (prodWrite_hostRing_kept k w recs s).host.slot
  | mbDoorbell m w => exact absurd rfl (hd m w)
  | mbDoneClear m w => cases hf
  | registerWrite bar off b => cases hf
  | _ => cases htouch

/-- A doorbell posts a FREE slot of the number that it names, and moves no other slot. -/
theorem doorbell_slot_cases (n : Nat) (w : Word) (s : State) (m k : Nat) : slotOf (doorbell n w s) m k = slotOf s m k ∨
    (n = m ∧ w.toNat = k ∧ slotOf s m k = .free ∧ slotOf (doorbell n w s) m k = .posted) := by
  by_cases hidle : s.dev.mbReady = false ∨ 32 ≤ w.toNat
  · rw [doorbell_idle hidle]
    exact .inl rfl
  obtain ⟨hready, hlt⟩ := not_or.1 hidle
  have hready : s.dev.mbReady = true := by simpa using hready
  by_cases hfree : slotOf s n w.toNat = .free
  · rw [doorbell_slots hready (Nat.not_le.1 hlt) hfree]
    split
    · next h =>
      obtain ⟨rfl, rfl⟩ := h
      exact .inr ⟨rfl, rfl, hfree, rfl⟩
    · exact .inl rfl
  · rw [doorbell_overruns hready (Nat.not_le.1 hlt) hfree]
    exact .inl (slotOf_setMb_same (m := n) (s := s) (by rfl) m k)

/-- Settles O8: the doorbell posts a FREE slot, and every other command completes a POSTED one at most (`exec_slotsAdvance`). -/
theorem slotsKeepTheirOrder : Obligations.SlotsKeepTheirOrder := by
  intro i s t m k h hr hf
  by_cases hbell : ∃ n w, i = .mbDoorbell n w
  · obtain ⟨n, w, rfl⟩ := hbell
    obtain rfl : doorbell n w s = t := Host.Outcome.next.inj h
    rcases doorbell_slot_cases n w s m k with hsame | ⟨hn, hk, hfree, hposted⟩
    · rw [hsame]
      exact ⟨id, fun hp => by rw [hp]; decide, .inl⟩
    · rw [hfree, hposted]
      exact ⟨fun hd => absurd hd (by decide), fun hp => absurd hp (by decide), fun _ => .inr ⟨n, w, rfl, hn, hk, rfl⟩⟩
  · rcases exec_slotsAdvance h hr hf (fun n w hi => hbell ⟨n, w, hi⟩) m k with hsame | ⟨hposted, hdone⟩
    · rw [hsame]
      exact ⟨id, fun hp => by rw [hp]; decide, .inl⟩
    · rw [hposted, hdone]
      exact ⟨fun _ => rfl, fun _ => by decide, fun hfree => absurd hfree (by decide)⟩

/-! The bytes of a posted command (R47). -/

/-- The command buffer of every slot that is POSTED in `s` holds in `t` the bytes that it held in `s`. -/
def PostedBytes (s t : State) : Prop := ∀ (m : Fin 8) (k : Fin 32), slotOf s m k = .posted → ∀ x < 4096,
  mget t.host.bar2 (cmdBuf m k + x) = mget s.host.bar2 (cmdBuf m k + x)

theorem PostedBytes.of_bar2 {s t : State} (h : t.host.bar2 = s.host.bar2) : PostedBytes s t := fun m k _ x _ =>
  congrArg (mget · (cmdBuf m k + x)) h

theorem Kept.postedBytes {s t : State} (h : Kept s t) : PostedBytes s t := fun _ _ _ _ hx => h.host.cmd _ (cmdBuf_lt hx)

theorem postedBytes_ite {c : Prop} [Decidable c] {s t u : State} (ht : PostedBytes s t) (hu : PostedBytes s u) :
    PostedBytes s (if c then t else u) := iteInduction (fun _ => ht) (fun _ => hu)

theorem bar2HostWrite_postedBytes (a : Nat) (b : List Byte) (s : State) : PostedBytes s (bar2HostWrite a b s) := by
  rcases bar2HostWrite_cases a b s with h | h | ⟨hall, h⟩ | h
  · exact h.postedBytes
  · rw [h]; exact .of_bar2 rfl
  · rw [h]
    intro m k hslot x hx
    refine (mget_mwrite b s.host.bar2 a (cmdBuf m k + x)).trans (if_neg (fun hin => ?_))
    have hwritable := hall (cmdBuf m k + x - a) (by omega)
    rw [show a + (cmdBuf m k + x - a) = cmdBuf m k + x by omega] at hwritable
    cases hlive : bar2Live s with
    | true => simp [bar2Writable_cmdBuf hlive hx, hslot] at hwritable
    | false => simp [bar2Writable, hlive] at hwritable
  · rw [h]; exact .of_bar2 rfl

theorem doorbell_bar2 (m : Nat) (w : Word) (s : State) : (doorbell m w s).host.bar2 = s.host.bar2 := by
  obtain ⟨⟨mb, hhost⟩, -⟩ := doorbell_frame m w s
  rw [hhost]

theorem bar0Write_postedBytes (o : Nat) (w : Word) (s : State) : PostedBytes s (bar0Write o w s) := by
  have hmsix : PostedBytes s (msixWrite (o - 0x4000) w s) := fun m k _ x hx =>
    (sendHeld_kept _ (.refl _)).host.cmd _ (cmdBuf_lt hx)
  unfold bar0Write
  refine postedBytes_ite (.of_bar2 rfl) (postedBytes_ite ?_ ?_)
  · exact postedBytes_ite (.of_bar2 (doorbell_bar2 _ _ s)) (postedBytes_ite (.of_bar2 mbDoneWrite_frame.1)
      (postedBytes_ite (.of_bar2 rfl) (postedBytes_ite (.of_bar2 rfl) (postedBytes_ite (.of_bar2 rfl) (.of_bar2 rfl)))))
  · exact postedBytes_ite (.of_bar2 (usrWin_same _ s).bar2) (postedBytes_ite hmsix (postedBytes_ite (.of_bar2 (hubCtl_same _ s).bar2)
      (postedBytes_ite (.of_bar2 (hubPeriod_same _ s).bar2) (postedBytes_ite (.of_bar2 (hubRd_same _ s).bar2)
      (postedBytes_ite (.of_bar2 (hubMirror_same _ _ s).bar2) (postedBytes_ite (.of_bar2 (hubMirror_same _ _ s).bar2)
      (postedBytes_ite (.of_bar2 (timeLatchWrite_same _ s).bar2) (postedBytes_ite (.of_bar2 (evtPendWrite_mb_bar2 _ _ _ s).2)
      (postedBytes_ite (.of_bar2 (evtMaskWrite_mb_bar2 _ _ s).2) (postedBytes_ite (.of_bar2 rfl)
      (postedBytes_ite (.of_bar2 (evtMapWrite_mb_bar2 _ _ s).2) (.of_bar2 rfl))))))))))))

theorem registerWrite_postedBytes (bar : Bar) (o : Nat) (b : List Byte) (s : State) : PostedBytes s (registerWrite bar o b s) := by
  cases bar with
  | bar0 => exact postedBytes_ite (bar0Write_postedBytes _ _ s) (.of_bar2 rfl)
  | bar2 => exact bar2HostWrite_postedBytes o b s
  | cfg => exact (cfgWrite_kept o b s (.refl s)).postedBytes

/-- A register write that is carried out lies inside its BAR (R41). -/
theorem execRegisterWrite_next {bar : Bar} {off : BitVec 32} {b : List Byte} {s t : State}
    (h : execRegisterWrite bar off b s = .next t) : registerWrite bar off.toNat b s = t := by
  by_cases hlt : barSize bar < off.toNat + b.length
  · rw [execRegisterWrite_beyond hlt] at h
    cases h
  · rw [execRegisterWrite_inside (Nat.not_lt.1 hlt)] at h
    exact Host.Outcome.next.inj h

theorem exec_postedBytes {i : Instr} {s t : State} (h : exec i s = .next t) (hr : resets i = false) : PostedBytes s t := by
  by_cases hp : plain i = true
  · exact (exec_kept i s t h hp).postedBytes
  by_cases hs : leavesMailboxes i = true
  · exact .of_bar2 (exec_mailboxesSame h hs).bar2
  have htouch : touchesMailboxes i = true := by simpa [hp, hr, hs] using plain_or_host i
  cases i with
  | mbDoorbell m w => exact Host.Outcome.next.inj h ▸ .of_bar2 (doorbell_bar2 m w s)
  | mbDoneClear m w => exact Host.Outcome.next.inj h ▸ .of_bar2 mbDoneWrite_frame.1
  | mbStatClear m w => exact Host.Outcome.next.inj h ▸ .of_bar2 rfl
  | commandBufferWrite m k off b => exact Host.Outcome.next.inj h ▸ bar2HostWrite_postedBytes _ b s
  | evtPendClear n w again => exact Host.Outcome.next.inj h ▸ .of_bar2 (evtPendWrite_mb_bar2 n w again s).2
  | evtLostClear n w => exact Host.Outcome.next.inj h ▸ .of_bar2 rfl
  | evtMaskWrite n w => exact Host.Outcome.next.inj h ▸ .of_bar2 (evtMaskWrite_mb_bar2 n w s).2
  | evtMapWrite n w => exact Host.Outcome.next.inj h ▸ .of_bar2 (evtMapWrite_mb_bar2 n w s).2
  | streamProdWrite k w recs => exact Host.Outcome.next.inj h ▸ (prodWrite_hostRing_kept k w recs s).postedBytes
  | registerWrite bar off b => exact execRegisterWrite_next h ▸ registerWrite_postedBytes bar _ b s
  | _ => cases htouch

/-- Settles O9: a BAR2 write is taken only where every byte may be written, and the other commands write completions and dumps. -/
theorem postedBytesStay : Obligations.PostedBytesStay := by
  intro m k s hslot
  refine ⟨fun off b hlive hlen hb => ?_, fun i t h hr => exec_postedBytes h hr m k hslot⟩
  obtain ⟨hviolation, -, hbar2, -⟩ := bar2HostWrite_violation hlive hlen hb hslot
  refine ⟨_, rfl, hbar2, hviolation, ?_⟩
  have hlt := cmdBuf_lt (m := m) (k := k) (o := 4095) (by decide)
  have hpos := List.length_pos_of_ne_nil hb
  have hoff : (BitVec.ofNat 32 (cmdBuf m k + off.toNat)).toNat = cmdBuf m k + off.toNat :=
    (BitVec.toNat_ofNat _ _).trans (Nat.mod_eq_of_lt (by omega))
  refine (execRegisterWrite_inside (bar := .bar2) ?_).trans ?_
  · rw [hoff]
    show cmdBuf m k + off.toNat + b.length ≤ 0x2000000
    omega
  · rw [hoff]
    rfl

/-! The host's own registers (R57, R59, R60, R409, R412). -/

/-- What the host has written and only the host or a reset changes. -/
structure HostWords (s t : State) : Prop where
  usrGrant : t.host.usrGrant = s.host.usrGrant
  usrEn : t.host.usrEn = s.host.usrEn
  usrWin : t.host.usrWin = s.host.usrWin
  msix : t.host.msix = s.host.msix
  staging : t.host.staging = s.host.staging
  mask : t.evt.mask = s.evt.mask
  map : t.evt.map = s.evt.map
  enable : t.hub.enable = s.hub.enable
  period : t.hub.period = s.hub.period
  rd : t.hub.rd = s.hub.rd
  mirror : t.hub.mirror = s.hub.mirror
  cmd : ∀ x < 0x100000, mget t.host.bar2 x = mget s.host.bar2 x

theorem Kept.hostWords {s t : State} (h : Kept s t) : HostWords s t :=
  ⟨h.host.usrGrant, h.host.usrEn, h.host.usrWin, h.host.msix, h.host.staging, h.evt.mask, h.evt.map, h.hub.enable, h.hub.period,
    h.hub.rd, h.hub.mirror, h.host.cmd⟩

/-- A change of the mailboxes and of counters leaves them. -/
theorem hostWords_of_frame {s t : State} (h : (∃ mb, t.host = { s.host with mb := mb }) ∧ t.evt = s.evt ∧
    ∃ spokes, t.hub = { s.hub with spokes := spokes }) : HostWords s t := by
  obtain ⟨⟨mb, hhost⟩, hevt, spokes, hhub⟩ := h
  exact ⟨(congrArg HostSt.usrGrant hhost :), (congrArg HostSt.usrEn hhost :), (congrArg HostSt.usrWin hhost :),
    (congrArg HostSt.msix hhost :), (congrArg HostSt.staging hhost :), congrArg EvtBlock.mask hevt, congrArg EvtBlock.map hevt,
    (congrArg HubSt.enable hhub :), (congrArg HubSt.period hhub :), (congrArg HubSt.rd hhub :), (congrArg HubSt.mirror hhub :),
    fun x _ => (congrArg (fun u : HostSt => mget u.bar2 x) hhost :)⟩

/-- A command that is neither plain, a reset nor a host access is the doorbell or a start. -/
theorem not_plain_cases {i : Instr} (hp : plain i = false) (hr : resets i = false) (ha : hostAccess i = false) :
    (∃ m w, i = .mbDoorbell m w) ∨ (∃ bs sa, i = .porstNRelease bs sa) ∨ i = .pfailNRelease := by
  cases i with
  | mbDoorbell m w => exact .inl ⟨m, w, rfl⟩
  | porstNRelease bs sa => exact .inr (.inl ⟨bs, sa, rfl⟩)
  | pfailNRelease => exact .inr (.inr rfl)
  | porstNAssert | linkReset | railResetExcursion _ | deviceReset _ _ => cases hr
  | mbDoneClear _ _ | mbStatClear _ _ | commandBufferWrite _ _ _ _ | evtPendClear _ _ _ | evtLostClear _ _ | evtMaskWrite _ _
    | evtMapWrite _ _ | timeLatch _ | hubCtlWrite _ | hubPeriodWrite _ | hubRdWrite _ | hubMirrorWrite _ _ | usrGrantWrite _
    | usrCtlWrite _ | usrWinWrite _ | streamProdWrite _ _ _ | registerWrite _ _ _ => cases ha
  | _ => cases hp

theorem exec_hostWords {i : Instr} {s t : State} (h : exec i s = .next t) (hr : resets i = false) (ha : hostAccess i = false) :
    HostWords s t := by
  have hstart : ∀ {u : State}, u.host = s.host ∧ u.evt = s.evt ∧ u.hub = s.hub → HostWords s u := fun ⟨hhost, hevt, hhub⟩ =>
    hostWords_of_frame ⟨⟨_, hhost⟩, hevt, _, hhub⟩
  by_cases hp : plain i = true
  · exact (exec_kept i s t h hp).hostWords
  rcases not_plain_cases (Bool.not_eq_true _ ▸ hp) hr ha with ⟨m, w, rfl⟩ | ⟨bs, sa, rfl⟩ | rfl
  · exact Host.Outcome.next.inj h ▸ hostWords_of_frame (doorbell_frame m w s)
  · exact Host.Outcome.next.inj h ▸ hstart (porstRelease_frame bs sa s)
  · exact Host.Outcome.next.inj h ▸ hstart (pfailRelease_frame s)

/-- Settles O12, from what the plain commands keep (`exec_kept`), the doorbell and the starts. -/
theorem hostRegistersStay : Obligations.HostRegistersStay := fun _ _ _ h hr ha =>
  have words := exec_hostWords h hr ha
  ⟨words.usrGrant, words.usrEn, words.usrWin, words.msix, words.staging, words.mask, words.map, words.enable, words.period, words.rd,
    words.mirror, words.cmd⟩

end Sys2Proof.Machine
